-- ==== Sys2Proof/Word.lean ====
section
/-! DEFINITION. The word types of the VT9640 model (R7: every register is one 32-bit word) and the names of the
integer quantities the spec computes with. -/
namespace Sys2Proof

/-- One byte. -/
abbrev Byte := BitVec 8
/-- One 32-bit register word (R7). -/
abbrev Word := BitVec 32
/-- A GT128 time or difference of times, as the one signed integer of R33 in units of 2^-64 s. -/
abbrev Gt := Int
/-- A time error bound (R37) or a frequency bound (R38): a 32-bit unsigned half-width. -/
abbrev Bound := Nat
/-- A sequence of bytes, lowest address or first sent byte first. -/
abbrev Bytes := List (BitVec 8)
/-- A channel number, CH0 to CH3 (R2). -/
abbrev ChanIx := Fin 4
/-- A reference lane number, L0 to L15 (R2). -/
abbrev LaneIx := Fin 16
/-- An Ethernet port of a channel, P0 or P1. -/
abbrev PortIx := Fin 2

end Sys2Proof
end

