-- ==== Sys2Proof/Machine/Bits.lean ====
section
/-! DEFINITION. Bit fields, sign extension, byte orders and the rounding divisions of R43. -/
namespace Sys2Proof.Machine

/-- The field of `w` bits of `x` whose lowest bit is `lsb`. -/
def getField (x : Word) (lsb w : Nat) : Nat := (x.toNat / 2 ^ lsb) % 2 ^ w

/-- `x` with the field of `w` bits at `lsb` replaced by the low `w` bits of `v`. -/
def putField (x : Word) (lsb w v : Nat) : Word :=
  BitVec.ofNat 32 (x.toNat - getField x lsb w * 2 ^ lsb + (v % 2 ^ w) * 2 ^ lsb)

/-- Bit `n` of a word. -/
def bit (x : Word) (n : Nat) : Bool := getField x n 1 == 1

/-- The two's complement value of the low `w` bits of `v`. -/
def signed (w v : Nat) : Int :=
  let m := v % 2 ^ w
  if m < 2 ^ (w - 1) then (m : Int) else (m : Int) - 2 ^ w

/-- The low `w` bits of an integer, as an unsigned number. -/
def unsigned (w : Nat) (v : Int) : Nat := (v % (2 ^ w : Int)).toNat

/-- 1 for true, 0 for false. -/
def b2n (b : Bool) : Nat := if b then 1 else 0

/-- Division rounded up (R43). -/
def ceilDiv (a b : Nat) : Nat := (a + b - 1) / b

/-- `x` floored by a right shift of `n` bits: `>>` of R43 on a signed value. -/
def sar (x : Int) (n : Nat) : Int := Int.fdiv x (2 ^ n)

/-- `x` kept within `[-m, m]`. -/
def clampAbs (m x : Int) : Int := max (-m) (min m x)

/-- `n` bytes of `v`, least significant first. -/
def leBytes : Nat → Nat → Bytes
  | 0, _ => []
  | n + 1, v => BitVec.ofNat 8 v :: leBytes n (v / 256)

/-- `n` bytes of `v`, most significant first. -/
def beBytes (n v : Nat) : Bytes := (leBytes n v).reverse

/-- The number whose bytes, least significant first, are given. -/
def fromLe : Bytes → Nat
  | [] => 0
  | b :: bs => b.toNat + 256 * fromLe bs

/-- The number whose bytes, most significant first, are given. -/
def fromBe (bs : Bytes) : Nat := bs.foldl (fun a b => a * 256 + b.toNat) 0

/-- `n` bytes of `bs` from offset `o`, with zeros beyond the end. -/
def slice (bs : Bytes) (o n : Nat) : Bytes :=
  let t := (bs.drop o).take n
  t ++ List.replicate (n - t.length) 0

/-- The byte string cut or padded with zeros to `n` bytes. -/
def padTo (n : Nat) (bs : Bytes) : Bytes := slice bs 0 n

/-- Word `k` of a byte string under a little-endian word order. -/
def leWordAt (bs : Bytes) (k : Nat) : Word := BitVec.ofNat 32 (fromLe (slice bs (4 * k) 4))

/-- Word `k`, lowest first, of a signed value held in `n` 32-bit words (R13, R34). -/
def wordOf (v : Int) (k : Nat) : Word := BitVec.ofInt 32 (sar v (32 * k))

/-- The signed value held in the given words, lowest first (R13, R34). -/
def ofWords (ws : List Word) : Int :=
  signed (32 * ws.length) (ws.foldr (fun w a => w.toNat + 2 ^ 32 * a) 0)

/-- The number of entries of `xs` that satisfy `p`. -/
def countIf {α : Type} (p : α → Bool) (xs : List α) : Nat := (xs.filter p).length

/-- The first `n` naturals. -/
def upTo (n : Nat) : List Nat := List.range n

/-- `x` plus one, modulo `2^w`: the counters that wrap. -/
def wrapInc (w x : Nat) : Nat := (x + 1) % 2 ^ w

/-- `f` applied `n` times. -/
def iter {α : Type} (f : α → α) : Nat → α → α
  | 0, a => a
  | n + 1, a => iter f n (f a)

end Sys2Proof.Machine
end

