-- ==== Sys2Proof/Machine/RegTypes.lean ====
section
/-! DEFINITION. What a register and its fields are (R7 to R10), and sparse maps in one canonical form. -/
namespace Sys2Proof.Machine

/-- The blocks of the common complex (R444). -/
inductive CB
  | hostif | cmdq | fault | vault | book | tally | twin | bench | clkgen | pwr | image
  deriving DecidableEq, Repr

/-- The blocks of a channel (R444). -/
inductive KB
  | ref | dpll | syn | gnss | port | sched | sealb | pmu | chctl
  deriving DecidableEq, Repr

/-- The access types of R8. -/
inductive Acc
  | rw | ro | w1c | w1s | wo | rws | rwl
  deriving DecidableEq, Repr

/-- The codes that a field admits; a write of another code is ignored (R10). -/
inductive Legal
  | any
  | upTo (n : Nat)
  | between (a b : Nat)
  | absUpTo (n : Nat)
  | oneOf (l : List Nat)
  deriving DecidableEq, Repr

/-- Whether a field of `w` bits admits the code `v` (R10). -/
def Legal.admits : Legal → Nat → Nat → Bool
  | .any, _, _ => true
  | .upTo n, _, v => v ≤ n
  | .between a b, _, v => a ≤ v && v ≤ b
  | .absUpTo n, w, v => (signed w v).natAbs ≤ n
  | .oneOf l, _, v => l.contains v

/-- A field of a register: lowest bit, width, access type, reset value, admitted codes. -/
structure Fld where
  lsb : Nat
  w : Nat
  acc : Acc
  rst : Nat
  ok : Legal
  deriving DecidableEq, Repr

/-- A register, replicated over the strides and counts of `dims`. -/
structure RegSpec where
  base : Nat
  dims : List (Nat × Nat)
  fields : List Fld
  deriving DecidableEq, Repr

/-- Whether the remainder `r` of an offset is reached by the strides and counts given, largest stride first. -/
def dimsCover : List (Nat × Nat) → Nat → Bool
  | [], r => r == 0
  | (st, n) :: ds, r =>
    let i := r / st
    if i < n then dimsCover ds (r - i * st) else false

/-- Whether a register stands at the offset. -/
def RegSpec.covers (g : RegSpec) (off : Nat) : Bool := g.base ≤ off && dimsCover g.dims (off - g.base)

/-- The register at an offset. -/
def findReg (gs : List RegSpec) (off : Nat) : Option RegSpec := gs.find? (fun g => g.covers off)

/-- The reset word composed of the field resets, with reserved bits 0 (R446). -/
def RegSpec.rstWord (g : RegSpec) : Word :=
  g.fields.foldl (fun w f => putField w f.lsb f.w f.rst) 0#32

/-- A field of a channel's registers: block, offset, lowest bit, width, and whether its value in use is the committed one. -/
structure KF where
  blk : KB
  off : Nat
  lsb : Nat
  w : Nat
  sh : Bool
  deriving DecidableEq, Repr

/-- A field of the common complex's registers. -/
structure GF where
  blk : CB
  off : Nat
  lsb : Nat
  w : Nat
  sh : Bool
  deriving DecidableEq, Repr

/-! ### Sparse maps -/

/-- The value at a key, where an unlisted key reads as `d`. -/
def smGet {α : Type} (d : α) : List (Nat × α) → Nat → α
  | [], _ => d
  | (k, v) :: r, a => if k = a then v else smGet d r a

/-- The list without the key `a`. -/
def smDel {α : Type} : List (Nat × α) → Nat → List (Nat × α)
  | [], _ => []
  | (k, v) :: r, a => if k = a then smDel r a else (k, v) :: smDel r a

/-- The list, rising in its keys, with the key `a` set to `v`. -/
def smIns {α : Type} : List (Nat × α) → Nat → α → List (Nat × α)
  | [], a, v => [(a, v)]
  | (k, x) :: r, a, v =>
    if k = a then (a, v) :: r else if a < k then (a, v) :: (k, x) :: r else (k, x) :: smIns r a v

/-- A write that keeps the canonical form: writing what an unlisted key reads as removes the entry. -/
def smPut {α : Type} [DecidableEq α] (d : α) (m : List (Nat × α)) (a : Nat) (v : α) : List (Nat × α) :=
  if v = d then smDel m a else smIns m a v

/-- Whether a key lies above a lower bound, if there is one. -/
def keyAbove : Option Nat → Nat → Bool
  | none, _ => true
  | some l, k => decide (l < k)

/-- Keys strictly rise from above `lo`, and no entry equals what its key would read as unlisted. -/
def smWfFrom {α : Type} [DecidableEq α] (d : Nat → α) : Option Nat → List (Nat × α) → Bool
  | _, [] => true
  | lo, (k, v) :: r => keyAbove lo k && decide (v ≠ d k) && smWfFrom d (some k) r

/-- The canonical form of a sparse map. -/
def smWf {α : Type} [DecidableEq α] (d : Nat → α) (m : List (Nat × α)) : Bool := smWfFrom d none m

end Sys2Proof.Machine
end

