-- ==== Sys2Proof/Types.lean ====
section
/-! DEFINITION. The data that commands and the channel state share: measurement records, journal entries, origins and the
named states of the manual. -/
namespace Sys2Proof

/-- Who made a change (R396). -/
inductive Origin
  | pcie (rid : BitVec 16)
  | mspi
  | twin (unit : Bool)
  | bench (addr : Nat)
  | policy (ch : Option ChanIx) (blk : Nat)
  | fault (src : Nat)
  | tamper (pstate src : Nat)
  deriving DecidableEq, Repr

/-- The ORIGIN code and the DETAIL of an origin (R396). -/
def Origin.code : Origin → Nat
  | .pcie _ => 0x01 | .mspi => 0x02 | .twin _ => 0x03 | .bench _ => 0x04 | .policy _ _ => 0x05 | .fault _ => 0x06
  | .tamper _ _ => 0x07
def Origin.detail : Origin → Nat
  | .pcie r => r.toNat
  | .mspi => 0
  | .twin u => if u then 1 else 0
  | .bench a => a
  | .policy none b => 0xFF00 + b
  | .policy (some c) b => c.val * 256 + b
  | .fault n => n
  | .tamper p n => p * 256 + n

/-- The two servos of a channel (R122). -/
inductive Servo
  | a | b
  deriving DecidableEq, Repr

/-- Lane states (R80), in the order of LANE_STAT.STATE. -/
inductive LaneSt
  | absent | qualifying | qualified | wtr | contested | disqualified | forced
  deriving DecidableEq, Repr

/-- Channel time states (R134), in the order of DPLL.STAT.STATE. -/
inductive ChanSt
  | freerun | acquiring | locked | holdover | holdoverLimit
  deriving DecidableEq, Repr

/-- DPLL_B states (R123). -/
inductive BSt
  | free | track | hold
  deriving DecidableEq, Repr

/-- A measurement record of R73. `k` is the channel's cumulative correction K of R78 at REF_TS, `jseq` the JSEQ of the record's MEAS
entry; these are the model's own and no part of the record's format. -/
structure MeasRec where
  refTs : Gt
  offset : Gt
  freq : Int
  teb : Bound
  fb : Bound
  tag : Word
  seq : Nat
  lane : LaneIx
  phaseOnly : Bool
  freqOnly : Bool
  step : Bool
  backward : Bool
  mpd : Option Int
  k : Int
  jseq : Nat
  deriving DecidableEq, Repr

/-- The body of a journal entry (R143). -/
inductive JBody
  | meas (r : MeasRec)
  | sel (servo : Servo) (new old : Option LaneIx) (cause : Nat)
  | cancel (voided : Nat) (cause : Nat)
  | lane (n : LaneIx) (old new : LaneSt) (cause : Nat) (stepw : Bound)
  | servoA (offset pend : Int) (i : Int) (t0 : Gt) (teb0 fb lfb : Bound) (tag : Word) (meas : Nat) (bwc : Nat) (st : ChanSt) (sl iset : Bool)
  | servoB (rate : Int) (fb : Bound) (st : BSt) (meas : Nat)
  | state (servo : Servo) (old new : Nat) (teb : Bound)
  | cmd (off : Nat) (value : Word) (org : Nat) (delta : Option Gt)
  | vint (slot : Nat) (jseq : Nat)
  deriving DecidableEq, Repr

/-- A journal entry with its header fields (R142); `idx` is its place in the ring, `bad` says that its CRC does not fit. -/
structure JEntry where
  jseq : Nat
  tick : Nat
  commit : Bool
  late : Bool
  ch : ChanIx
  idx : Nat
  bad : Bool
  body : JBody
  deriving DecidableEq, Repr

/-- A satellite as a tracking channel measured it at an epoch (R103, R104, R111 to R113): the tracking channel, the centre of the offset
interval in 2^-64 s by the WIDE and by the NARROW code discriminator, C/N0 in dB-Hz, elevation in degrees, the modelled ionosphere and
troposphere delays in ps, and the absolute differences in ps between the discriminators' code phases over the last 1 s. -/
structure SatMeas where
  trk : Fin 48
  wide : Int
  narrow : Int
  cn0 : Nat
  elev : Int
  iono : Nat
  tropo : Nat
  difs : List Nat
  deriving DecidableEq, Repr

/-- The UTC parameters that a system broadcasts (R115): the current leap count, and a pending one with the day number, counted
from 1970-01-01, at whose end it takes effect. -/
structure NavUtc where
  leap : Int
  future : Option (Int × Int)
  deriving DecidableEq, Repr

/-- The broadcast GGTO (R111): Galileo time less GPS time at TAI second `t0` in 2^-64 s, and its change per second. -/
structure Ggto where
  a0 : Int
  a1 : Int
  t0 : Int
  deriving DecidableEq, Repr

/-- What the baseband decodes from a tracked satellite's navigation data (R102, R115). `acc` is URA or SISA in centimetres. -/
inductive NavData
  | ephemeris (acc : Nat) (data : Bytes)
  | almanac (data : Bytes)
  | utc (u : NavUtc)
  | ggto (g : Ggto)
  | health (ok : Bool)
  deriving DecidableEq, Repr

/-- A UTC announcement received on a lane (R59): the offset in force, a pending leap with its instant, or a PTP leap flag without
one (`ins` for leap61, else leap59). -/
inductive UtcAnn
  | offset (ofs : Int)
  | leap (eff ofs : Int)
  | flag (ins : Bool)
  deriving DecidableEq, Repr

/-- What a synthesizer's lock detector has seen: the level of the LOCK pin in mV, reached or not passed for so many ticks (R153), or the
phase errors of the last reference cycles in ps, newest first (R154). -/
inductive LockSense
  | pin (mv ticks : Nat)
  | errs (es : List Int)
  deriving DecidableEq, Repr

/-- A path by which the host reaches the device (R386, R396). -/
inductive HostPath
  | pcie (rid : BitVec 16)
  | mspi
  deriving DecidableEq, Repr

/-- The origin that a write by this path carries (R396). -/
def HostPath.org : HostPath → Origin
  | .pcie r => .pcie r
  | .mspi => .mspi

end Sys2Proof
end

