-- ==== Sys2Proof/Machine/StateService.lean ====
section
/-! DEFINITION. The state of a channel's PORT, SEAL, SCHED and PMU blocks. -/
namespace Sys2Proof.Machine

/-- A policer entry (R234): rates in 2^-32 token per tick, bursts in tokens, buckets in 2^-32 token. -/
structure PolEntry where
  cir : Nat
  pir : Nat
  cbs : Nat
  pbs : Nat
  tc : Nat
  tp : Nat
  last : Nat
  nGreen : Nat
  nYellow : Nat
  nRed : Nat
  valid : Bool
  unit : Bool
  deriving DecidableEq, Repr

/-- An entry that no image and no write has set. -/
def PolEntry.zero : PolEntry := ⟨0, 0, 0, 0, 0, 0, 0, 0, 0, 0, false, false⟩

/-- How a frame is sealed (R212 to R215, R219): not at all; under security association `k`, with the algorithm, the NTP flag and the key
that it had at build, and the second of channel time at build; or as an NTS response under the S2C key with a nonce and the plaintext of its
encrypted fields. -/
inductive SealUse
  | none
  | sa (k alg : Nat) (ntp : Bool) (key : Option Bytes) (sec : Nat)
  | nts (s2c nonce plain : Bytes)
  deriving DecidableEq, Repr

/-- What the commit writes into a frame (R183, R210): nothing; a Sync, two-step or not; a one-step Pdelay_Resp; a two-step
Pdelay_Resp; a Delay_Req or Pdelay_Req of the lane client or of a GPTP port; an NTP response with the receive stamp's served
TEB; a transit frame, with its ingress stamp where its correctionField gains the residence. -/
inductive Late
  | none
  | sync (two : Bool)
  | pdelayResp (tI : Gt)
  | pdelayRespTwo
  | request
  | ntp (hI : Bound)
  | transit (tI : Option Gt)
  deriving DecidableEq, Repr

/-- A frame in an egress queue, from the destination address to the last byte before the FCS. `ofs` and `mlen` place its PTP
or NTP message, `tlv` the bound TLV or field that the commit fills, `slots` are the pipeline slots that its build took,
`key` the vault slots it was built under, `client` the table entry whose counters its commit advances. `ring` asks for an entry of the
transmit stamp ring. `rxSec` is the second of the request that a response answers. -/
structure QFrame where
  bytes : Bytes
  ofs : Nat
  mlen : Nat
  msg : Nat
  seqid : Nat
  late : Late
  tlv : Option Nat
  use : SealUse
  key : List Nat
  ring : Bool
  host : Bool
  handle : Option Nat
  client : Option Nat
  slots : Nat
  nts : Bool
  rxSec : Int
  deriving DecidableEq, Repr

/-- A sample of a queue (R249). -/
structure QSample where
  tick : Nat
  seq : Nat
  depthF : Nat
  flags : Nat
  depthB : Nat
  hol : Nat
  commits : Nat
  drops : Nat
  deriving DecidableEq, Repr

/-- An egress queue (R237 to R242, R249): its frames, head first, its start tag, its shaper bucket as of tick `shAt`, the tick at
which the head reached the head, the counts since the last sample, the next sample number and its samples, newest first. -/
structure EQueue where
  frames : List QFrame
  tag : Nat
  sh : Int
  shAt : Nat
  hol : Nat
  commits : Nat
  drops : Nat
  seq : Nat
  samples : List QSample
  deriving DecidableEq, Repr

/-- A queue that has seen no frame. -/
def EQueue.empty : EQueue := ⟨[], 0, 0, 0, 0, 0, 0, 0, []⟩

/-- A pending list switch (R247): its instant in units of 2^-96/10^9 s, and the length, cycle and base of the admin list that it asked for. -/
structure GateReq where
  at' : Int
  len : Nat
  cycle : Nat
  base : Gt
  deriving DecidableEq, Repr

/-- The scheduler of a port (R239 to R247): queues, unlisted ones untouched; virtual times of the eight levels; the tick from
which the transmitter is free; the pending list switch; what a GCMD write of this tick makes of it from the next (R248). -/
structure SchedPort where
  queues : List (Nat × EQueue)
  vt : Vector Nat 8
  freeAt : Nat
  swap : Option GateReq
  swapNext : Option (Option GateReq)
  deriving DecidableEq, Repr

/-- The SCHED block: policer entries, unlisted ones zero, and the two ports. -/
structure SchedBlk where
  pol : List (Nat × PolEntry)
  ports : Vector SchedPort 2
  deriving DecidableEq, Repr

/-- An entry of a transmit stamp ring (R184). -/
structure TsrEnt where
  stamp : Gt
  teb : Bound
  tag : Word
  seqid : Nat
  msg : Nat
  flags : Nat
  handle : Nat
  deriving DecidableEq, Repr

/-- A frame committed and not yet past the plane: the tick in which it passes, the index of its ring entry (R185), for a sealed frame the
tick in which its seal is complete (R214), and the frame as it leaves. -/
structure InFlight where
  pass : Nat
  ring : Option Nat
  sealEnd : Option Nat
  frame : QFrame
  deriving DecidableEq, Repr

/-- A received Sync that waits for its Follow_Up (R189): sequenceId, correctionField, its ingress stamp, K at the stamp and the
stamp's tick. -/
structure PendSync where
  seq : Nat
  corr : Int
  t2 : Gt
  k : Int
  tick : Nat
  deriving DecidableEq, Repr

/-- The previous record of a PTP lane (R189): REF_TS, OFFSET, K, TEB, sequenceId. -/
structure LanePrev where
  refTs : Gt
  offset : Gt
  k : Int
  teb : Bound
  seq : Nat
  deriving DecidableEq, Repr

/-- A peer-delay exchange of a port (R189): the sequenceId of its Pdelay_Req, its egress stamp t1, and, once the Pdelay_Resp of a
two-step peer is in, t2 and t4. -/
structure PdelayEx where
  seq : Nat
  t1 : Option Gt
  resp : Option (Gt × Gt)
  deriving DecidableEq, Repr

/-- The grants that a master has given the lane client: expiry in whole seconds and period, per message type (R209, R314). -/
structure LaneGrant where
  exp : Int
  log : Int
  deriving DecidableEq, Repr

/-- The lane client of a port (R189, R209): the record it requests from or follows, whether a request is out, the grants,
what the Sync messages gave, the pairs (t1, t2) of the latest Syncs, newest first, the exchange in progress and the mean path delay. -/
structure LaneClient where
  idx : Nat
  asked : Bool
  sync : Option LaneGrant
  dresp : Option LaneGrant
  ann : Option LaneGrant
  rxLog : Option Int
  sigSeq : Nat
  reqSeq : Nat
  dreq : Option (Nat × Option Gt)
  pdelay : Option PdelayEx
  pairs : List (Gt × Gt)
  pend : Option PendSync
  mpd : Option Int
  prev : Option LanePrev
  deriving DecidableEq, Repr

/-- A lane client that follows nothing yet. -/
def LaneClient.reset : LaneClient := ⟨0, false, none, none, none, none, 0, 0, none, none, [], none, none, none⟩

/-- A port (R176 to R194): the expiry tick of the TRAIN or ALIGN timer, V_I and V_E in ps, the stamp ring and its phase, the
frames in flight, the tick of the last ESMC PDU and the level last sent, the sequenceIds of the next multicast Sync and Announce, and whether
the port left UP in this tick, whose end flushes its queues (R186, R237). -/
structure PortSt where
  timer : Option Nat
  vI : Int
  vE : Int
  ring : List (Nat × TsrEnt)
  phase : Bool
  flight : List InFlight
  qlAt : Nat
  qlSent : Option Nat
  mcSync : Nat
  mcAnn : Nat
  lost : Bool
  lc : LaneClient
  deriving DecidableEq, Repr

/-- A client table entry in state ACTIVE (R205). The grants are (period, expiry); the FW bytes are the cores' own and not
specified. -/
structure Client where
  ipv6 : Bool
  l2 : Bool
  vlan : Bool
  two : Bool
  auth : Bool
  port : Nat
  sa : Nat
  group : Nat
  vid : Nat
  mac : Bytes
  addr : Bytes
  portId : Bytes
  udp : Nat
  sync : Option (Int × Int)
  dresp : Option (Int × Int)
  ann : Option (Int × Int)
  seqSync : Nat
  seqAnn : Nat
  seqSig : Nat
  nSync : Nat
  nDresp : Nat
  lastRx : Int
  deriving DecidableEq, Repr

/-- A classification record (R313), with its prefix as a number of 128 bits, an IPv4 prefix in the upper 32. -/
structure ClassRec where
  v6 : Bool
  plen : Nat
  two : Bool
  port0 : Bool
  port1 : Bool
  group : Nat
  pfx : Nat
  deriving DecidableEq, Repr

/-- A lane-client record (R314). -/
structure LaneRec where
  lane : Nat
  sa : Nat
  ipv6 : Bool
  l2 : Bool
  vlan : Bool
  logSync : Int
  logDresp : Int
  logAnn : Int
  dur : Nat
  mac : Bytes
  vid : Nat
  addr : Bytes
  portId : Bytes
  deriving DecidableEq, Repr

/-- A key that the vault has delivered to the channel: its slot, ALG, whether the slot carries MINT, and the bytes (R340). -/
structure DelKey where
  slot : Nat
  alg : Nat
  mint : Bool
  bytes : Bytes
  deriving DecidableEq, Repr

/-- An answer of the exception cores that is not yet queued: its port, the frame if there is an answer. -/
structure ExcItem where
  port : PortIx
  frame : Option QFrame
  deriving DecidableEq, Repr

/-- The SEAL block (R198 to R229): ACTIVE client table entries, delivered keys, the exception cores' queue, and the image's
classification and lane-client records. `built` names the due messages that this tick has built (R208). -/
structure SealBlk where
  clients : List (Nat × Client)
  keys : List DelKey
  exc : List ExcItem
  classes : List ClassRec
  masters : List LaneRec
  built : List (Nat × Nat)
  deriving DecidableEq, Repr

/-- A PMU sample (R413). -/
structure PmuSample where
  tick : Nat
  seq : Nat
  ctr : Nat
  skid : Nat
  cls : Nat
  stage : Nat
  port : Nat
  kind : Nat
  client : Nat
  group : Nat
  deriving DecidableEq, Repr

/-- The running totals of a port's bandwidth window (R409): bytes and frames sent and received. -/
structure BwRun where
  txb : Nat
  rxb : Nat
  txf : Nat
  rxf : Nat
  clr : Bool
  deriving DecidableEq, Repr

/-- The PMU block (R406 to R413): slots of work not yet issued, the counts of R411, counters that wrapped and wait for their
sample, with the slot of the wrap, the samples, newest first, their next number, the tick from which the running window counts, the two windows. -/
structure PmuBlk where
  work : Nat
  infl : Nat
  cyc : Nat
  ret : Nat
  was : Nat
  fro : Nat
  bak : Nat
  wraps : List (Nat × Nat)
  samples : List PmuSample
  seq : Nat
  bwFrom : Nat
  bw : Vector BwRun 2
  deriving DecidableEq, Repr

/-- The lifetime of an episode counted by the tally (R414): the ticks of its start. -/
structure Episodes where
  outage : Option Nat
  holdover : Option Nat
  hadLane : Bool
  deriving DecidableEq, Repr

def SchedPort.reset : SchedPort := ⟨[], Vector.replicate 8 0, 0, none, none⟩
def SchedBlk.reset : SchedBlk := ⟨[], Vector.replicate 2 .reset⟩
def PortSt.reset : PortSt := ⟨none, 0, 0, [], true, [], 0, none, 0, 0, false, .reset⟩
def SealBlk.reset : SealBlk := ⟨[], [], [], [], [], []⟩
def PmuBlk.reset : PmuBlk := ⟨0, 0, 0, 0, 0, 0, 0, [], [], 0, 0, Vector.replicate 2 ⟨0, 0, 0, 0, false⟩⟩

end Sys2Proof.Machine
end

