-- ==== Sys2Proof/Machine/StateBench.lean ====
section
/-! DEFINITION. The state of a channel's bench endpoints and of its lanes L13 to L15. -/
namespace Sys2Proof.Machine

/-- A bench endpoint (R285 to R287): the channel tick of the last HELLO, the exchanges counted, the last 64 round trips in ps,
newest first, the step candidates in a row and their sign, the stamps of the last HELLO received, the transmit stamps of this
endpoint's own HELLO frames, newest first, and the channel tick of the last of them. The link state stands in Bx_STAT. -/
structure BEnd where
  heard : Nat
  count : Nat
  rs : List Int
  cand : Nat
  candPos : Bool
  echo : Option (Nat × Nat)
  sent : List Nat
  helloAt : Option Nat
  deriving DecidableEq, Repr

/-- A peer slot of a bench lane (R296, R297): the source, the tick of its latest frame, REF_TS, K there, the peer interval, the
frame's FB and tag, and its UTC fields. -/
structure PeerSlot where
  devid : Nat
  ch : Nat
  tick : Nat
  refTs : Gt
  k : Int
  offset : Gt
  teb : Bound
  fb : Bound
  tag : Word
  nextValid : Bool
  ofs : Int
  nextOfs : Int
  nextEff : Int
  deriving DecidableEq, Repr

/-- A bench lane (R296 to R299): the 32 peer slots and the previous record. -/
structure BenchLane where
  slots : Vector (Option PeerSlot) 32
  prev : Option LanePrev
  deriving DecidableEq, Repr

def BEnd.reset : BEnd := ⟨0, 0, [], 0, false, none, [], none⟩
def BenchLane.reset : BenchLane := ⟨Vector.replicate 32 none, none⟩

end Sys2Proof.Machine
end

