-- ==== Sys2Proof/Machine/StateGnss.lean ====
section
/-! DEFINITION. The state of a channel's GNSS block beside its registers (R94 to R118). Link state, tracking states, notch
states, position mode and snapshot state stand in their registers. -/
namespace Sys2Proof.Machine

/-- A tracking channel: the channel tick at which its PULL_IN or LOST timer expires, that at which its loops started, and the moves of
its code loop by the side peak guard, in 1/64 chip (R102, R103). -/
structure Trk where
  timer : Option Nat
  start : Nat
  moved : Int
  deriving DecidableEq, Repr

/-- A satellite that may not be reassigned before a tick (R102). -/
structure Barred where
  gal : Bool
  sv : Nat
  until' : Nat
  deriving DecidableEq, Repr

/-- What is stored of one satellite (R102, R110, R111). -/
structure NavSat where
  gal : Bool
  sv : Nat
  eph : Option (Nat × Bytes)
  alm : Option Bytes
  healthy : Bool
  deriving DecidableEq, Repr

/-- Stored navigation data (R110, R115). -/
structure NavStore where
  sats : List NavSat
  ggto : Option Ggto
  gps : Option NavUtc
  gal : Option NavUtc
  deriving DecidableEq, Repr

/-- A back-channel operation outstanding (R100): its tag, and the tick at which its message was sent. -/
structure BcOp where
  tag : Nat
  op : Nat
  addr : Nat
  data : Word
  sent : Option Nat
  deriving DecidableEq, Repr

/-- A survey-in (R109): its command slot, SURV_CFG and its margin as taken at the start, the count, the sums, the running means
of the last 600 fixes, newest first, the channel second of the last fix, whether it is suspended, and whether it started from HOLD. -/
structure Survey where
  slot : Nat
  minFix : Nat
  posLim : Nat
  margin : Nat
  fixes : Nat
  sum : Int × Int × Int
  means : List (Int × Int × Int)
  lastFix : Option Int
  suspended : Bool
  fromHold : Bool
  deriving DecidableEq, Repr

/-- An epoch whose solution waits for its record (R111, R114): E, the tick, the usable satellites with half-width and centre and
whether each is GPS, the notch terms, and whether R114 saturates the record for the link, R108 or the erased frames. -/
structure Epoch where
  e : Gt
  k : Int
  tick : Nat
  sats : List (Fin 48 × Int × Bound)
  notches : Nat
  spoilt : Bool
  deriving DecidableEq, Repr

/-- A snapshot (R116, R117). Frames are newest first; STATUS and RESULT as in the buffer. `spoilt` says that at T0 the link, R108 or the
erased frames saturate its bound (R114, R118). -/
structure Snap where
  rate : Nat
  len : Nat
  t0 : Gt
  t0teb : Bound
  tag : Word
  cdly : Word
  cbud : Word
  ifreg : Word
  erased : Nat
  spoilt : Bool
  agc : Option Byte
  jniMax : Nat
  complete : Bool
  linkLost : Bool
  processed : Bool
  result : Option Bytes
  frames : List Bytes
  deriving DecidableEq, Repr

/-- The spacings and DISC that a commit has replaced, with its channel tick: a tracking channel uses them up to its next integration
boundary (R103). -/
structure OldSpc where
  tick : Nat
  disc : Nat
  gpsD2 : Nat
  galD2 : Nat
  deriving DecidableEq, Repr

/-- The GNSS block. `expect` is the next FSEQ, `comma` the tick of the last comma, `good` and `bad` the run of good or bad frames.
`erasedAt` are the ticks of the frames erased in the last second, `alarmAt` that of the last JNI at the ALARM level, `notchEnd` those at
which the notches last ceased to be LOCKED or FIXED, `notchLow` those since which their lines lie below THR. `jniSec` is the highest JNI
since the last epoch, `jniAt` the tick of the last JNI, `agcMs` and `agcFl` the sum and number of the AGC bytes since the last JNI and in
the FLOOR capture that ends at `floorEnd`. `bcAt` is the tick of the last back-channel message, `pos` the held position with its bound,
`lastEpoch` the tick of the last epoch, `usableN` the satellites usable at it, `prevRec` the record of the epoch before. -/
structure GnssBlk where
  trk : Vector Trk 48
  oldSpc : Option OldSpc
  barred : List Barred
  nav : NavStore
  expect : Option Nat
  comma : Option Nat
  good : Nat
  bad : Nat
  erasedAt : List Nat
  alarmAt : Option Nat
  notchEnd : Vector (Option Nat) 4
  notchLow : Vector (Option Nat) 4
  jniSec : Nat
  jniAt : Option Nat
  agcMs : Nat × Nat
  agcFl : Nat × Nat
  floorEnd : Option Nat
  bc : Option BcOp
  bcTag : Nat
  bcAt : Option Nat
  pos : Option (Int × Int × Int × Nat)
  survey : Option Survey
  epoch : Option Epoch
  lastEpoch : Option Nat
  usableN : Nat
  prevRec : Option (Gt × Gt × Int × Bound)
  snap : Option Snap
  deriving DecidableEq, Repr

end Sys2Proof.Machine
end

