-- ==== Sys2Proof/Machine/StateRefDpll.lean ====
section
/-! DEFINITION. The state of a block's registers, of the REF and DPLL blocks of a channel, and what a channel asks of the
common complex within one command. -/
namespace Sys2Proof.Machine

/-- The register words of one block: what a read returns (`cur`), the values in use of its shadowed fields (`use`), the
words latched by a read and the words held by a write of a multi-word value (R8, R13). `pre` holds, of the registers written
in this tick, the words as they stood before (R12), `hset` the W1C bits that hardware set in this tick (R11), `next` the
values in use that come with the next tick (R47, R182, R232, R251, R474). Unlisted offsets hold their reset words, except in
`held`, `pre` and `next`, where nothing stands for them, and in `hset`, where they are 0. -/
structure RegFile where
  cur : List (Nat × Word)
  use : List (Nat × Word)
  latch : List (Nat × Word)
  held : List (Nat × Word)
  pre : List (Nat × Word)
  hset : List (Nat × Word)
  next : List (Nat × Word)
  deriving DecidableEq, Repr

/-- An edge of a PULSE_TOD lane (R71): its stamp, K at the stamp, the channel tick of the edge, and whether a sentence has labelled it. -/
structure TodEdge where
  t : Gt
  k : Int
  tick : Nat
  labelled : Bool
  deriving DecidableEq, Repr

/-- The state of one lane (R76 to R86). `timer` is the channel tick at which the window, WTR or DQ_HOLD timer expires,
`miss` that of the miss timer. `winGood` counts the good records of the window. `edges` are the edges of a PULSE_TOD lane that wait for
their sentence, newest first, with the newest one even after its sentence. -/
structure Lane where
  exist : Bool
  st : LaneSt
  los : Bool
  returning : Bool
  outA : Bool
  outB : Bool
  outCntA : Nat
  outCntB : Nat
  winGood : Nat
  timer : Option Nat
  miss : Option Nat
  prev : Option MeasRec
  mpdRef : Option Int
  stepCnt : Nat
  stepPos : Bool
  stepW : Bound
  seq : Nat
  edges : List TodEdge
  deriving DecidableEq, Repr

/-- A contest between two lanes (R85): the time it began, the largest disagreement and the lanes' agreeing records. -/
structure Contest where
  a : LaneIx
  b : LaneIx
  tc : Gt
  dmax : Bound
  agA : Nat
  agB : Nat
  deriving DecidableEq, Repr

/-- A switch in progress (R88): the old lane, and the channel time at the start of the tick after the decision tick, once
that tick has ended. -/
structure Switch where
  old : Option LaneIx
  bnd : Option Gt
  deriving DecidableEq, Repr

/-- The selection for one servo (R87 to R90). `noIn` says that the current lane feeds nothing, since it is no longer eligible while a
switch awaits the host (R90); `prev` is the lane that fed the servo at the end of the previous tick (R126). -/
structure SelSt where
  cur : Option LaneIx
  prev : Option LaneIx
  sw : Option Switch
  pv : Option LaneIx
  pvJseq : Nat
  pend : Bool
  noIn : Bool
  denied : Option (LaneIx × List LaneIx)
  contests : List Contest
  deriving DecidableEq, Repr

/-- The REF block of a channel: its lanes, the selections for DPLL_A and DPLL_B, the records measured but not yet registered with the
channel ticks of their registration (R75), and the lanes whose record was judged, and whose WTR expired, in this tick (R81). -/
structure RefSt where
  lanes : Vector Lane 16
  selA : SelSt
  selB : SelSt
  measured : List (Nat × MeasRec)
  judged : List LaneIx
  wtrDone : List LaneIx
  deriving DecidableEq, Repr

/-- An entry of a bound ring (R132). -/
structure RingEnt where
  refTs : Gt
  offset : Gt
  teb : Bound
  deriving DecidableEq, Repr

/-- A running oscillator characterization (R139): its command slot, the samples wanted, the TAI second of the next sample
instant, the samples (t, i) taken, oldest first, the misses in a row, whether it is suspended. -/
structure CharOp where
  slot : Nat
  nsamp : Nat
  next : Int
  samples : List (Int × Int)
  missed : Nat
  suspended : Bool
  org : Origin
  deriving DecidableEq, Repr

/-- An entry of the leap table (R56, R61). `org` is the ORIGIN code. -/
structure LeapEnt where
  valid : Bool
  conf : Bool
  org : Nat
  eff : Int
  ofs : Int
  deriving DecidableEq, Repr

/-- The time-scale state of a channel (R56 to R64). `effHeld` holds an EFF that a write of LEAP_EFF_HI completed and that
waits for its LEAP_ENT, `loHeld` a written LEAP_EFF_LO that no write of LEAP_EFF_HI has completed. `old` is the table as it
stood before the entry writes of this tick, which the tick's conversions still use (R62). -/
structure ScaleSt where
  leap : Vector LeapEnt 8
  loHeld : Vector (Option Word) 8
  effHeld : Vector (Option Int) 8
  old : Option (Vector LeapEnt 8)
  deriving DecidableEq, Repr

/-- The DPLL block of a channel (R128 to R141). `kCum` is the cumulative correction K of R78 up to the start of the tick.
`waitA` and `waitB` are the registered records that wait for their apply tick. `cwEnd` is the contest widening that stays
until the next update (R86). `hoAct` says that the holdover growth of R136 is in force, from the entry at `hoEntry` to
the first update after it (R138). `agedAt` is the channel tick of the last aging increment. `stepWait` is a waiting ABS step
(the second S, the value of STEP_VAL, the origin), `stepNext` a relative step that the next tick applies (R140). `ctr0` is the counter at
the start of the tick, where the tick's span begins (R29). -/
structure DpllSt where
  ctr : Int
  pend : Int
  rate : Int
  first : Bool
  firstB : Bool
  lastTs : Option Gt
  lastTsB : Option Gt
  sl : Bool
  trace : Bool
  hoValid : Bool
  st : ChanSt
  bst : BSt
  lockCnt : Nat
  unlockCnt : Nat
  bwc : Nat
  teb0 : Bound
  t0 : Gt
  fb : Bound
  lfb : Bound
  tag : Word
  hoAct : Bool
  hoEntry : Gt
  tebH : Bound
  bEff : Bound
  agedAt : Option Nat
  short : List RingEnt
  long : List RingEnt
  char : Option CharOp
  rateB : Int
  fbB : Bound
  stepWait : Option (Int × Gt × Origin)
  stepNext : Option (Gt × Origin)
  waitA : List MeasRec
  waitB : List MeasRec
  kCum : Int
  cwEnd : Bound
  ctr0 : Int
  deriving DecidableEq, Repr

/-- The journal of a channel (R142): the ring, newest entry first, its next index, the last JSEQ and the wraps. `tick` is
the channel tick count TICK of R129. -/
structure JournalSt where
  ring : List JEntry
  wptr : Nat
  jseq : Nat
  wraps : Nat
  tick : Nat
  deriving DecidableEq, Repr

/-- A change offered to the cellar book (R395, R399): origin, kind, target, old and new. -/
structure Change where
  org : Origin
  kind : Nat
  target : Nat
  old : Word
  new : Word
  deriving DecidableEq, Repr

end Sys2Proof.Machine
end

