-- ==== Sys2Proof/Machine/StateSyn.lean ====
section
/-! DEFINITION. The state of a channel's SYN block beside its registers (R148 to R168). SYNk_STAT.STATE, RSYNC, CPEND and ACT
stand in their registers. -/
namespace Sys2Proof.Machine

/-- A synthesizer: the channel tick at which it entered ACQ, whether NOLOCK was reported for this stay (R155), the count of its reference
since its last commit boundary, in 2^-64 of a nominal 5 ns (R149, R150), and the words that a boundary in COAST stored (R155). -/
structure SynK where
  acqTick : Nat
  noLock : Bool
  ph : Int
  stored : Option (List (Nat × Word))
  deriving DecidableEq, Repr

/-- An output of a synthesizer (R155 to R160): stopped until lock (RELOCK_HOLD), ran through ACQ or COAST, squelched, stopped in COAST.
`stop` is the falling edge at which a stop takes effect that has not yet, `restart` the first edge after a release, with the RUN code shown
until then; both on the axis of the output's synthesizer. -/
structure OutSt where
  hold : Bool
  ran : Bool
  sq : Bool
  coast : Bool
  stop : Option Int
  restart : Option (Int × Nat)
  deriving DecidableEq, Repr

/-- A pulse output: the last emitted index, the last index met, squelched, and the channel time of the falling edge of the
last pulse (R163, R164). -/
structure PlsSt where
  idx : Option Int
  seen : Option Int
  sq : Bool
  fall : Option Gt
  deriving DecidableEq, Repr

/-- A staged commit: the shadows, the tick of its registration, and the parts still to come (R156). -/
structure SynStage where
  words : List (Nat × Word)
  tick : Nat
  p0 : Bool
  p1 : Bool
  pp : Bool
  deriving DecidableEq, Repr

/-- A ToD sentence that waits for its time: the channel tick of its start bit, and its bytes 4 to 21 (R167, R168). -/
structure TodPend where
  due : Nat
  body : Bytes
  deriving DecidableEq, Repr

/-- The SYN block (R151, R164 to R168). `raFrom` is the tick from which a SLEW acts while it lasts, `raJump` the channel time
of an armed JUMP switch, `jumpOts` the OTS at the end of the tick of the last JUMP switch, `ots0` the OTS at the start of the tick (R29). -/
structure SynBlk where
  ots : Int
  ots0 : Int
  raFrom : Option Nat
  raJump : Option Gt
  jumpOts : Option Int
  k0 : SynK
  k1 : SynK
  outs : Vector OutSt 8
  pls : Vector PlsSt 2
  stage : Option SynStage
  tod : Option TodPend
  todSeq : Nat
  deriving DecidableEq, Repr

end Sys2Proof.Machine
end

