-- ==== Sys2Proof/Machine/StateChan.lean ====
section
/-! DEFINITION. A channel: its register files and the state of its blocks. -/
namespace Sys2Proof.Machine

/-- The register files of a channel's nine blocks. -/
structure KRegs where
  ref : RegFile
  dpll : RegFile
  syn : RegFile
  gnss : RegFile
  port : RegFile
  sched : RegFile
  sealb : RegFile
  pmu : RegFile
  chctl : RegFile
  deriving DecidableEq, Repr

/-- Channel events that no register bit shows (R57, R59, R60, R298). -/
inductive ChanEvent
  | offsetCorrection
  | leapUnconfirmed
  | announceUnderHost
  | announceConflict
  | ensembleEmpty
  deriving DecidableEq, Repr

/-- What a channel asks of the common complex within one command. The list is empty between commands. -/
inductive Eff
  | book (c : Change)
  | fault (localIx : Nat)
  | event (blk : KB) (off mask : Nat)
  | jour (e : JEntry)
  | opEnd (slot result : Nat) (rdata : Nat)
  | chanEvent (e : ChanEvent)
  | edge (pls : Nat) (k : Int) (ps : Nat) (driven : Bool)
  | todBytes (bs : Bytes) (driven : Bool)
  | backMsg (chars : Bytes)
  | frame (port : PortIx) (bytes : Bytes)
  | esmc (port : PortIx) (ql : Nat) (event : Bool)
  | bench (x : Fin 2) (bytes : Bytes)
  | topo
  | keys
  | client (ix : Nat)
  | outage (secs : Nat)
  | holdover (secs : Nat)
  deriving DecidableEq, Repr

/-- What the running image makes of a channel (R310, R316): the lanes and parts that exist, and the event bits that it marks
reportable, with their vector index. -/
structure Topo where
  lanes : Nat
  parts : Nat
  marks : List (KB × Nat × Nat × Nat)
  deriving DecidableEq, Repr

/-- One channel, a complete timing engine. `drive` says that its unit holds the drive right and the device is not in the safe
state (R161), `safe` that the device is in the safe state (R226, R370). `effs` holds what the running command asks of the common complex. -/
structure Channel where
  ix : ChanIx
  topo : Topo
  regs : KRegs
  ref : RefSt
  dpll : DpllSt
  scale : ScaleSt
  jour : JournalSt
  syn : SynBlk
  gnss : GnssBlk
  sched : SchedBlk
  ports : Vector PortSt 2
  sealb : SealBlk
  pmu : PmuBlk
  ends : Vector BEnd 2
  ens : Vector BenchLane 2
  tprev : Option LanePrev
  epi : Episodes
  freeCtr : Nat
  drive : Bool
  safe : Bool
  effs : List Eff
  deriving DecidableEq, Repr

end Sys2Proof.Machine
end

