-- ==== Sys2Proof/Machine/StateCommon.lean ====
section
/-! DEFINITION. The state of the common complex beside its registers: host port, command queue, faults, vault, cellar book,
tally, twin, bench router, image loader, clocks and power. -/
namespace Sys2Proof.Machine

/-- The register files of the common complex's eleven blocks (R444). -/
structure GRegs where
  hostif : RegFile
  cmdq : RegFile
  fault : RegFile
  vault : RegFile
  book : RegFile
  tally : RegFile
  twin : RegFile
  bench : RegFile
  clkgen : RegFile
  pwr : RegFile
  image : RegFile
  deriving DecidableEq, Repr

/-- What is fused at manufacture (R334, R335, R350, R317, R446): DEVID, IDS, the private scalar of the device identity key, the
firmware key, the measurement of boot ROM and vault firmware. ID_REV and ID_FEAT are the register words of R447. -/
structure Fuse where
  devid : Nat
  ids : Bytes
  dik : Nat
  fwPub : Bytes
  mBoot : Bytes
  idRev : Word
  idFeat : Word
  deriving DecidableEq, Repr

/-! ### Host port and command queue -/

/-- A command of the queue that is not FREE (R387 to R391): its slot, the order of its submission, its origin, whether it came over
PCIe, its operation and channel byte, NOTIFY, TIMEOUT in ms, its parameters, the tick at which its timeout expires, the ticks left
while SUSPENDED, whether the operation has begun, and what the operation has taken from the host so far. -/
structure CmdSt where
  slot : Nat
  seq : Nat
  org : Origin
  op : Nat
  ch : Nat
  notify : Bool
  timeout : Nat
  param : Bytes
  timer : Option Nat
  left : Option Nat
  begun : Bool
  buf : Bytes
  done : Nat
  deriving DecidableEq, Repr

/-- The command queue: commands queued, running or suspended. `stream` says that a load reads from CMDQ.STREAM. -/
structure CmdqSt where
  cmds : List CmdSt
  seq : Nat
  deriving DecidableEq, Repr

/-- The host port: the bytes of the host transmit rings by their offset in WIN_MEM, the MSI-X vectors sent in this tick (R373), and
the host transmit rings from which a frame was taken in this tick (R383). -/
structure HostSt where
  htx : List (Nat × Byte)
  sent : List Nat
  took : List (ChanIx × PortIx)
  deriving DecidableEq, Repr

/-! ### Faults -/

/-- The fault collector. `injAt` is the tick of the GO of an armed injection with its source and whether its MODE is FULL (R372), `errReal` and `errInj` are the sources whose
reaction holds ERR_N while REAL, or INJ, is 1 (R364, R372). `blockDue` are the block resets of this tick, which stand behind a safe-state
entry (R376): source, SRC_STATn before the detection and after it. `resetDue` is a fault reset or safe exit that the end of the tick performs
(R366, R371): CAUSE, source, and whether an injection caused it. `exitAsked` says that SAFE_CTL.EXIT was written in this tick. -/
structure FaultSt where
  injAt : Option (Nat × Nat × Bool)
  errReal : List Nat
  errInj : List Nat
  blockDue : List (Nat × Word × Word)
  resetDue : Option (Nat × Nat × Bool)
  exitAsked : Bool
  deriving DecidableEq, Repr

/-! ### Vault and tamper domain -/

/-- The stored state of a slot (R339); `code` of it is SLOT_INFO.STATE. -/
inductive SlotSt
  | empty | valid | invalid | orphaned
  deriving DecidableEq, Repr

/-- A slot of the vault (R337, R339, R348): attribute word, KEY_ID, COUNTER of the KUM that wrote it, state and cause, the active
copy, the stored value (WRAPPED and PUBLIC), and the store key under which a secret slot's content is sealed. -/
structure VSlot where
  attr : Word
  keyId : Nat
  ver : Nat
  st : SlotSt
  cause : Nat
  copyB : Bool
  value : Bytes
  sealKey : Bytes
  meas : Bool
  deriving DecidableEq, Repr

/-- A slot that no KUM has written. -/
def VSlot.zero : VSlot := ⟨0#32, 0, 0, .empty, 0, false, [], [], false⟩

/-- An entry of the VBAT log (R355). -/
structure VLog where
  src : Nat
  pstate : Nat
  vclk : Nat
  vbat : Nat
  temp : Int
  deriving DecidableEq, Repr

/-- A KUM whose checks passed and whose commit record is being written (R348), with the origin of its GO. -/
structure KumJob where
  op : Nat
  slot : Nat
  counter : Nat
  attr : Word
  keyId : Nat
  value : Bytes
  org : Origin
  deriving DecidableEq, Repr

/-- The vault and the tamper domain (R334 to R356). `own` is the ownership kept in non-volatile memory, `storeSeed` the seed under
which the slot store is sealed, `mCmn` the common measurement once handed over (K1 is VALID then), `mix` the channel measurements
that CHMIX slots use. `prevFail` are the monitors that failed at the last sample, `alarmed` those whose alarm has been raised since
they last passed, `commits` the ring of 64 commit records, newest first, each with its slot, the copy and COUNTER (R348), `logOvf` the entries that the VBAT log overwrote, `vbatLost` says that the seed and the log were lost with VBAT. -/
structure VaultSt where
  slots : List (Nat × VSlot)
  own : Nat
  kcnt : Nat
  seed : Option Bytes
  storeSeed : Option Bytes
  mCmn : Option Bytes
  mix : Vector Bytes 4
  kum : Option KumJob
  quote : Option Bytes
  commits : List (Nat × Bool × Nat)
  tcfg : Word
  log : List VLog
  logOvf : Nat
  vclk : Nat
  prevFail : Nat
  alarmed : Nat
  vbatLost : Bool
  deriving DecidableEq, Repr

/-! ### Cellar book -/

/-- An entry of the cellar book, or one held for coalescing (R395, R400); `link` of a held one is not yet set. -/
structure BookEnt where
  time : Nat
  seq : Nat
  notime : Bool
  coalesced : Bool
  chg : Change
  ncoal : Nat
  link : Bytes
  deriving DecidableEq, Repr

/-- A signature record (R398). -/
structure SigRec where
  seqLast : Nat
  bytes : Bytes
  deriving DecidableEq, Repr

/-- The writer of the cellar book (R394 to R401): the non-volatile rings, newest first, the SEQ of the next entry, the entries
written in this window, the held entries in the order in which they were opened, and the changes accepted in this tick, in the order in
which they were registered, which its end enters (R399). -/
structure BookSt where
  ring : List BookEnt
  sigs : List SigRec
  next : Nat
  count : Nat
  buf : List BookEnt
  acc : List BookEnt
  deriving DecidableEq, Repr

/-! ### Tally -/

/-- The lifetime counts of R414, with the writes to each region of the non-volatile memory (R417). Unlisted fault counts are 0. -/
structure TallyRec where
  poh : Nat
  starts : Nat
  faultResets : Nat
  tampers : Nat
  injected : Nat
  drills : Nat
  drillFail : Nat
  tj : Vector Nat 16
  vina : Vector Nat 16
  vinb : Vector Nat 16
  outage : Vector Nat 16
  holdover : Vector Nat 16
  rackT : Vector Nat 8
  rackRes : Vector Nat 4
  wear : Vector Nat 8
  faults : List (Nat × Nat)
  deriving DecidableEq, Repr

/-- The tally (R414 to R418): the record with the running counts, the two non-volatile copies with their SEQ, the update in
progress (its record, SEQ and copy), the tick at which the last update started, and that of the last second
counted. -/
structure TallySt where
  cur : TallyRec
  copyA : Option (Nat × TallyRec)
  copyB : Option (Nat × TallyRec)
  upd : Option (Nat × Bool × TallyRec)
  lastUpd : Option Nat
  pohAt : Nat
  deriving DecidableEq, Repr

/-! ### Twin -/

/-- A vintage (R270): the header's fields, its slot in the non-volatile ring, and the channel state that its sections hold. -/
structure Vintage where
  ch : ChanIx
  tick : Nat
  jseq : Nat
  devid : Nat
  meas : Bytes
  epoch : Nat
  snap : Channel
  deriving DecidableEq, Repr

/-- A vintage received whole: its slot, and whether an LSEQ gap, or a journal that began again, has followed its beginning (R269). -/
structure RxVint where
  slot : Fin 4
  v : Vintage
  gap : Bool
  deriving DecidableEq, Repr

/-- What a standby has received for a channel (R269): the whole vintages, newest first, the lowest JSEQ from which every entry is held,
the entries, newest first, the number of the vintage whose parts arrive without a gap with the offset of its next part, the slot that it
takes, and the bytes of the four slots. -/
structure RxChan where
  vints : List RxVint
  cont : Option Nat
  entries : List JEntry
  begun : Option (Nat × Nat)
  next : Fin 4
  slots : Vector Bytes 4
  deriving DecidableEq, Repr

/-- A racking in progress (R272 to R275, R278): the tick of the declaration or acceptance, whether it is a drill, the channels to
rack and those that have completed, each with its JSEQ then, whether the claim condition is met, and the channels whose L15 record has passed the drill check
with the instant S − 500 ms that follows the last one. `failed` says that a channel of a drill fell out of it. -/
structure RackSt where
  t0 : Nat
  drill : Bool
  chans : List ChanIx
  done : List (ChanIx × Nat)
  claim : Bool
  checked : List ChanIx
  passAt : Option Gt
  failed : Bool
  deriving DecidableEq, Repr

/-- A racking drill on the ACTIVE unit (R278): its command slot, START, the tick at which START was reached, and whether the
request has been sent. -/
structure DrillOp where
  slot : Nat
  start : Gt
  reached : Option Nat
  sent : Bool
  deriving DecidableEq, Repr

/-- The twin block (R255 to R282). `role` says that the Reset row is taken, `paired` and `unitA` what it read. `lastA` and `lastB` are
the ticks of the last counted heartbeats of a path that is not UNHEARD, `heard` says that an HB frame has counted since device reset,
`waitAt` the tick at which RACK_WAIT was set. `roundAt` is the start of the last round, `inRound` the claim of the round in progress, `won`
whether the last round was won, `peerClaims` the claims of the peer's HB frames since the round before this one began, with their ticks,
`noDrive` that contention took the drive right while CLAIM_BAD. `hbAt` is the tick of the last heartbeats sent. `offs` are the last 64 offsets of R274, newest
first, `offHist` the TOFS of the last second, `crcErr` the lane and tick of frames discarded in the last second. -/
structure TwinSt where
  role : Bool
  paired : Bool
  unitA : Bool
  eSeen : Nat
  lastA : Option Nat
  lastB : Option Nat
  heard : Bool
  declared : Bool
  waitAt : Option Nat
  bootAt : Option Nat
  roundAt : Option Nat
  inRound : Option Nat
  won : Bool
  goodRounds : Nat
  peerClaims : List (Nat × Nat)
  noDrive : Bool
  laneUp : Vector Bool 2
  lseqTx : Vector Nat 2
  lseqRx : Vector (Option Nat) 2
  hbSeq : Nat
  hbAt : Option Nat
  echo : Option (Nat × Nat)
  offs : List Int
  offHist : List (Nat × Int)
  choff : Vector Int 4
  crcErr : List (Nat × Nat)
  rx : Vector RxChan 4
  nvRing : List (Nat × Vintage)
  nvNext : Nat
  vintAt : Vector (Option Int) 4
  vseq : Nat
  rack : Option RackSt
  drill : Option DrillOp
  deriving DecidableEq, Repr

/-! ### Bench router -/

/-- A link entry of an LSA (R289): link, the neighbour's link, LDLY, the neighbour's DEVID. -/
structure LsaLink where
  link : Nat
  nbrLink : Nat
  ldly : Nat
  nbr : Nat
  deriving DecidableEq, Repr

/-- An LSA held (R290): its device, SEQ, RUN, its entries, and the common tick of its arrival. -/
structure Lsa where
  devid : Nat
  seq : Nat
  run : Nat
  links : List LsaLink
  at' : Nat
  deriving DecidableEq, Repr

/-- A route (R292): address, first link, hops, weight in ps. -/
structure Route where
  addr : Nat
  link : Nat
  hops : Nat
  weight : Nat
  deriving DecidableEq, Repr

/-- A TIME frame in the router (R295, R330): its ingress link, its bytes, and for each egress link still to come the link, the common tick
of the egress, the residence in ps. -/
structure Transit where
  src : Nat
  bytes : Bytes
  outs : List (Nat × Nat × Nat)
  deriving DecidableEq, Repr

/-- The bench router: LSAs of the other devices, the devices whose arrival or departure the next computation finds, whether it is
due, the address map, the routes, the entries and the tick of this device's last LSA, and the TIME frames on their way out. -/
structure RouterSt where
  lsas : List Lsa
  changed : List Nat
  due : Bool
  addrs : List (Nat × Nat)
  routes : List Route
  links : List LsaLink
  lsaAt : Option Nat
  flight : List Transit
  deriving DecidableEq, Repr

/-! ### Image loader -/

/-- What starts a load (R323): the origin that its cellar book entry carries, and the command slot or none. -/
structure LoadJob where
  org : Origin
  slot : Option Nat
  mode : Nat
  carry : Bool
  image : Bytes
  storeSlot : Bool
  fresh : Bool
  checked : Bool
  fallback : Bool
  rack : Bool
  deriving DecidableEq, Repr

/-- The power of a channel (R437): off, going up since a tick, on, going down since a tick. -/
inductive ChPwr
  | off | up (t : Nat) | on | down (t : Nat)
  deriving DecidableEq, Repr

/-- A channel as the loader holds it (R321, R326): the two store slots, the held slot if there is a held image, whether the other slot
holds a staged image, the measurement of the running image, the job in progress, the job that runs after it (R376), the bound and the
time at RECONFIG entry where CARRY keeps state, the power state, and a GATE or UNGATE that waits for the end of a power sequence. -/
structure ChanImg where
  slot0 : Bytes
  slot1 : Bytes
  held : Option Bool
  staged : Bool
  runMeas : Bytes
  job : Option LoadJob
  after : Option LoadJob
  kept : Option (Bound × Gt)
  pwr : ChPwr
  waitGate : Bool
  waitUngate : Bool
  deriving DecidableEq, Repr

/-- The image loader: the reportable marks of the common image, and the DEVICE load in progress: its slot, its channel images. -/
structure LoaderSt where
  marks : List (CB × Nat × Nat × Nat)
  dev : Option (Nat × Bytes × List (ChanIx × Bytes))
  deriving DecidableEq, Repr

/-! ### Clocks and power -/

/-- Power states (R435). -/
inductive PState
  | off | tamperOnly | cold | run
  deriving DecidableEq, Repr

/-- A feed (R432, R433): the common tick from which its 100 ms for an automatic check count, and whether no check has begun since
the device reset or since it last stopped being GOOD. -/
structure Feed where
  since : Option Nat
  want : Bool
  deriving DecidableEq, Repr

/-- Clocks and power: power state, RESET_N, whether PWR_GD has been released since the power rose (R439), the feeds, the check in
progress (feed B?, the self-test's slot, the tick of its start), the self-test that runs, whether the ROOT stage waits for its retry (R430), whether a RESET
entry is due at start-up (R366), scan mode with the balls driven in it (R439), and the blocks that a stuck switch left unclocked, as
channel × 256 + block with 0xFF for the common complex (R375). -/
structure PwrSt where
  pst : PState
  resetN : Bool
  gd : Bool
  feedA : Feed
  feedB : Feed
  chk : Option (Bool × Option Nat × Nat)
  selfTest : Option Nat
  rootRetry : Bool
  resetEntry : Bool
  scan : Bool
  balls : List (Nat × Nat)
  unclocked : List Nat
  deriving DecidableEq, Repr

/-- An output of the device in the last command: what leaves at a ball, a port, a link or the host. -/
inductive Output
  | frame (ch : ChanIx) (port : PortIx) (bytes : Bytes)
  | esmc (ch : ChanIx) (port : PortIx) (ql : Nat) (event : Bool)
  | edge (ch : ChanIx) (pls : Nat) (k : Int) (ps : Nat) (driven : Bool)
  | tod (ch : ChanIx) (bytes : Bytes) (driven : Bool)
  | backMsg (ch : ChanIx) (chars : Bytes)
  | bench (link : Nat) (bytes : Bytes)
  | twin (lane : Nat) (bytes : Bytes)
  | hbWord (w : Word)
  | claimStart (word : Word)
  | hostMem (addr : Nat) (bytes : Bytes)
  | msix (vector : Nat)
  | mspi (bytes : Bytes)
  | readData (w : Word)
  | memData (w : Word)
  | ballSense (level : Bool)
  | chanEvent (ch : ChanIx) (e : ChanEvent)
  deriving DecidableEq, Repr

end Sys2Proof.Machine
end

