-- ==== Sys2Proof/Syntax.lean ====
section
/-! DEFINITION. The commands that the block takes: one constructor for each row of spec/opcode_table.json, in the table's order,
with its operands. A host path and a word stand for a register write by that path; `ps` is the offset of a stamp point within its
tick in ps; physical results (a measured frequency, a sampled level) come as operands (notes/assumptions/8.md). -/
namespace Sys2Proof
open Sys2Proof.Machine

/-- A block that has a LOCK bit (R12). -/
inductive LockBlk
  | common (b : CB)
  | chan (c : ChanIx) (b : KB)
  deriving DecidableEq, Repr

/-- How a clock switch ends (R375). -/
inductive SwitchEnd
  | clean | forced | stuck
  deriving DecidableEq, Repr

/-- A sample of the tamper monitors (R351, R352): the levels of TAMP0 to TAMP3, whether the second pin of each pair failed to return
the bit driven on the first, whether the mesh failed, VBAT in mV, die temperature in °C, whether MOSC was absent for 10 µs. -/
structure TamperIn where
  pins : Vector Bool 4
  pairBad : Vector Bool 2
  mesh : Bool
  vbat : Nat
  temp : Int
  mosc : Bool
  deriving DecidableEq, Repr

/-- A JOUR frame (R281, R282): whether CRC and LEN are good, its CH, LSEQ and DEVID, the ring index and its entries. -/
structure JourFrame where
  good : Bool
  ch : ChanIx
  lseq : Nat
  devid : Nat
  idx : Nat
  entries : List JEntry
  deriving DecidableEq, Repr

/-- A VINT frame (R281, R282): whether CRC and LEN are good, its CH, LSEQ and DEVID, the vintage number, the byte offset, the part's
bytes, and the vintage that they complete, if they do. -/
structure VintFrame where
  good : Bool
  ch : ChanIx
  lseq : Nat
  devid : Nat
  vseq : Nat
  ofs : Nat
  part : Bytes
  whole : Option Vintage
  deriving DecidableEq, Repr

/-- What a notch sees at a moment (R105): which notch, and the spectral lines, each with its frequency in Hz from 1575.42 MHz and its
power over the noise floor in 0.25 dB. -/
structure NotchView where
  k : Fin 4
  lines : List (Int × Nat)
  deriving DecidableEq, Repr

/-- The commands of spec/opcode_table.json. JNI_UPDATE and JAM_FLOOR_CAPTURE_END bring in `idle` the mean AGC byte of a time in which no
frame came: the spec states none (notes/assumptions/99.md). -/
inductive Instr
  | registerWrite (p : HostPath) (addr : Nat) (v : Word)
  | multiwordReadLatch (p : HostPath) (addr : Nat)
  | bookWindowStart
  | bookRdGo (p : HostPath) (v : Word)
  | mirrorEnable (p : HostPath) (v : Word)
  | refCommit (p : HostPath) (c : ChanIx) (v : Word)
  | dpllCommit (p : HostPath) (c : ChanIx) (v : Word)
  | synCommit (p : HostPath) (c : ChanIx) (v : Word)
  | gnssCommit (p : HostPath) (c : ChanIx) (v : Word)
  | portCommit (p : HostPath) (c : ChanIx) (v : Word)
  | schedCommit (p : HostPath) (c : ChanIx) (v : Word)
  | sealCommit (p : HostPath) (c : ChanIx) (v : Word)
  | twinCommit (p : HostPath) (v : Word)
  | benchCommit (p : HostPath) (v : Word)
  | bCtlCommit (p : HostPath) (c : ChanIx) (v : Word)
  | clkgenCommit (p : HostPath) (v : Word)
  | blockLock (p : HostPath) (b : LockBlk) (v : Word)
  | refinEdge (c : ChanIx) (n : LaneIx) (ps : Nat)
  | todSentenceRx (c : ChanIx) (k : Fin 2) (bs : Bytes) (ago : Nat)
  | todSentenceWindowEnd (c : ChanIx) (n : LaneIx)
  | freqRecordBoundary (c : ChanIx) (n : LaneIx) (freq off : Int)
  | laneMissTimerExpiry (c : ChanIx) (n : LaneIx)
  | qualWindowExpiry (c : ChanIx) (n : LaneIx)
  | wtrExpiry (c : ChanIx) (n : LaneIx)
  | dqHoldExpiry (c : ChanIx) (n : LaneIx)
  | laneForce (p : HostPath) (c : ChanIx) (n : LaneIx) (v : Word)
  | laneUnforce (p : HostPath) (c : ChanIx) (n : LaneIx) (v : Word)
  | laneRequal (p : HostPath) (c : ChanIx) (n : LaneIx) (v : Word)
  | laneClrStep (p : HostPath) (c : ChanIx) (n : LaneIx) (v : Word)
  | selApprove (p : HostPath) (c : ChanIx) (v : Word)
  | selDeny (p : HostPath) (c : ChanIx) (v : Word)
  | utcAnnouncement (c : ChanIx) (n : LaneIx) (a : UtcAnn)
  | leapEntWrite (p : HostPath) (c : ChanIx) (k : Fin 8) (v : Word)
  | sampleLinkFrame (c : ChanIx) (comma : Bool) (bs : Bytes)
  | backChannelMessage (c : ChanIx)
  | backChannelGo (p : HostPath) (c : ChanIx) (v : Word)
  | backChannelTimeout (c : ChanIx)
  | trkAssignment (c : ChanIx) (i : Fin 48) (gal : Bool) (sv : Nat)
  | trkDetection (c : ChanIx) (i : Fin 48)
  | trkWindowExhausted (c : ChanIx) (i : Fin 48)
  | trkReassignHoldoffEnd (c : ChanIx)
  | trkLock (c : ChanIx) (i : Fin 48)
  | trkPullInTimeout (c : ChanIx) (i : Fin 48)
  | trkLockLost (c : ChanIx) (i : Fin 48)
  | trkLostTimeout (c : ChanIx) (i : Fin 48)
  | sidePeakGuard (c : ChanIx) (i : Fin 48) (late : Bool)
  | notchLock (c : ChanIx) (k : Fin 4) (lines : List (Int × Nat))
  | notchRelease (c : ChanIx) (v : NotchView)
  | jniUpdate (c : ChanIx) (idle : Byte) (pq : Nat)
  | jamFloorCapture (p : HostPath) (c : ChanIx) (v : Word)
  | jamFloorCaptureEnd (c : ChanIx) (idle : Byte)
  | posSet (p : HostPath) (c : ChanIx) (v : Word)
  | posClr (p : HostPath) (c : ChanIx) (v : Word)
  | surveyFix (c : ChanIx) (x y z : Int)
  | gnssEpochSample (c : ChanIx) (ms : List SatMeas)
  | gnssL8Record (c : ChanIx)
  | snapGo (p : HostPath) (c : ChanIx) (v : Word)
  | snapCaptureStart (c : ChanIx) (ps : Nat)
  | snapCaptureComplete (c : ChanIx)
  | cmdSnapshotProcessing (slot : Fin 64) (ms : List SatMeas)
  | cmdGnssSurvey (slot : Fin 64)
  | servoAApply (c : ChanIx)
  | servoBApply (c : ChanIx)
  | channelAcquireStart (c : ChanIx)
  | holdoverEntry (c : ChanIx)
  | holdoverLimitEntry (c : ChanIx)
  | hoAgingIncrement (c : ChanIx)
  | cmdOscCharacterization (slot : Fin 64)
  | charSampleInstant (c : ChanIx)
  | stepGo (p : HostPath) (c : ChanIx) (v : Word)
  | stepAbsApply (c : ChanIx)
  | stepAbort (p : HostPath) (c : ChanIx) (v : Word)
  | vintageWrite (c : ChanIx)
  | synCommitBoundary (c : ChanIx) (k : Fin 2)
  | pulseCommitBoundary (c : ChanIx)
  | synLockDeclared (c : ChanIx) (k : Fin 2) (e : LockSense)
  | synLockLost (c : ChanIx) (k : Fin 2) (e : LockSense)
  | synReferenceLoss (c : ChanIx) (k : Fin 2)
  | synNolock (c : ChanIx) (k : Fin 2)
  | synCoastReferenceReturn (c : ChanIx) (k : Fin 2)
  | pulseEdge (c : ChanIx) (j : Fin 2)
  | realignGo (p : HostPath) (c : ChanIx) (v : Word)
  | realignJumpSwitch (c : ChanIx)
  | realignSlewDone (c : ChanIx)
  | todSentenceSend (c : ChanIx)
  | linkAnComplete (c : ChanIx) (p : PortIx) (peer : Nat) (rs br : Bool)
  | linkTrainingComplete (c : ChanIx) (p : PortIx)
  | linkTrainingTimeout (c : ChanIx) (p : PortIx)
  | linkAlignLock (c : ChanIx) (p : PortIx) (vI vE : Int)
  | linkAlignTimeout (c : ChanIx) (p : PortIx)
  | linkLoss (c : ChanIx) (p : PortIx)
  | ptpDelayReqRx (c : ChanIx) (p : PortIx) (ps : Nat) (f : Int) (bs : Bytes)
  | ptpPdelayReqRx (c : ChanIx) (p : PortIx) (ps : Nat) (f : Int) (bs : Bytes)
  | ptpSyncRx (c : ChanIx) (p : PortIx) (ps : Nat) (f : Int) (bs : Bytes)
  | ptpFollowUpRx (c : ChanIx) (p : PortIx) (bs : Bytes)
  | ptpDelayRespRx (c : ChanIx) (p : PortIx) (bs : Bytes)
  | ptpPdelayRespRx (c : ChanIx) (p : PortIx) (ps : Nat) (f : Int) (bs : Bytes)
  | ptpAnnounceRx (c : ChanIx) (p : PortIx) (bs : Bytes)
  | ptpSignalingRx (c : ChanIx) (p : PortIx) (bs : Bytes)
  | ntpRequestRx (c : ChanIx) (p : PortIx) (ps : Nat) (f : Int) (bs : Bytes)
  | ntpMacRequestRx (c : ChanIx) (p : PortIx) (ps : Nat) (f : Int) (bs : Bytes)
  | ntsRequestRx (c : ChanIx) (p : PortIx) (ps : Nat) (f : Int) (bs : Bytes)
  | exceptionFrameRx (c : ChanIx) (p : PortIx) (bs : Bytes)
  | unsupportedFrameRx (c : ChanIx) (p : PortIx) (bs : Bytes)
  | notMineFrameRx (c : ChanIx) (p : PortIx) (bs : Bytes)
  | transitFrameRx (c : ChanIx) (p : PortIx) (ps : Nat) (f : Int) (bs : Bytes)
  | pauseFrameRx (c : ChanIx) (p : PortIx) (len : Nat)
  | oversizeFrameRx (c : ChanIx) (p : PortIx) (len : Nat)
  | egressCommit (c : ChanIx) (p : PortIx) (ps : Nat) (f : Int)
  | synceRecord (c : ChanIx) (p : PortIx) (freq off : Int)
  | esmcPduRx (c : ChanIx) (p : PortIx) (ql len : Nat)
  | esmcQlLostExpiry (c : ChanIx) (p : PortIx)
  | esmcInfoPduSend (c : ChanIx) (p : PortIx)
  | unicastDueMessage (c : ChanIx) (i : Nat) (ann : Bool)
  | multicastDueMessage (c : ChanIx) (p : PortIx) (ann : Bool)
  | pdelayReqDue (c : ChanIx) (p : PortIx)
  | laneDelayReqDue (c : ChanIx) (p : PortIx)
  | laneClientNegotiate (c : ChanIx) (p : PortIx)
  | grantExpiry (c : ChanIx) (i : Nat)
  | exceptionCoreResponse (c : ChanIx)
  | ctRevoke (p : HostPath) (c : ChanIx) (v : Word)
  | cmdCookieMint (slot : Fin 64) (req : Option Bytes)
  | polCmdGo (p : HostPath) (c : ChanIx) (v : Word)
  | gateListBoundary (c : ChanIx) (p : PortIx)
  | gateSwap (h : HostPath) (c : ChanIx) (p : PortIx) (v : Word)
  | gateCancel (h : HostPath) (c : ChanIx) (p : PortIx) (v : Word)
  | gateListSwitch (c : ChanIx) (p : PortIx)
  | queueSample (c : ChanIx) (p : PortIx)
  | hostTxFrameTake (c : ChanIx) (p : PortIx)
  | claimRoundStart (fell : Bool)
  | claimRoundEnd (w : Word) (stuck noStart : Bool)
  | outputContention (c : ChanIx)
  | heartbeatSend (ps0 ps1 : Nat)
  | hbFrameRx (lane : Fin 2) (bs : Bytes) (ps : Nat)
  | hbWordRx (w : Word)
  | heartbeatMissExpiry (pathB : Bool)
  | bootWaitExpiry
  | twinFence (p : HostPath) (v : Word)
  | twinUnfence (p : HostPath) (v : Word)
  | rackChannelComplete (c : ChanIx)
  | claimConditionMet
  | twinLaneSync (lane : Fin 2) (up : Bool)
  | twinTimeFrameSend (c : ChanIx) (ps : Nat)
  | twinTimeFrameRx (lane : Fin 2) (bs : Bytes) (ps : Nat)
  | jourFrameRx (lane : Fin 2) (f : JourFrame)
  | clientFrameRx (lane : Fin 2) (bs : Bytes)
  | vintFrameRx (lane : Fin 2) (f : VintFrame)
  | resyncFrameRx (lane : Fin 2) (bs : Bytes)
  | drillFrameRx (lane : Fin 2) (bs : Bytes)
  | cmdRackingDrill (slot : Fin 64)
  | drillRequestSend
  | drillClaimInstant
  | drillTimeout
  | benchLinkSync (c : ChanIx) (x : Fin 2)
  | benchHelloSend (c : ChanIx) (x : Fin 2) (ps : Nat)
  | benchHelloRx (c : ChanIx) (x : Fin 2) (bs : Bytes) (ps : Nat)
  | benchHelloTimeout (c : ChanIx) (x : Fin 2) (lost : Bool)
  | lsaSend
  | lsaRx (c : ChanIx) (x : Fin 2) (bs : Bytes)
  | lsaHoldExpiry (devid : Nat)
  | routeComputation
  | benchTimeSend (c : ChanIx) (ps0 ps1 : Nat)
  | benchTimeRx (c : ChanIx) (x : Fin 2) (bs : Bytes) (ps : Nat) (residence : List Nat)
  | peerSlotExpiry (c : ChanIx) (x : Fin 2) (i : Fin 32)
  | ensembleEvaluation (c : ChanIx) (x : Fin 2)
  | benchCalGo (p : HostPath) (v : Word)
  | benchCalDone (ab ba : List Nat)
  | cmdImageLoadStage (slot : Fin 64) (data : Option Bytes)
  | cmdImageLoadRun (slot : Fin 64) (data : Option Bytes)
  | cmdImageLoadDevice (slot : Fin 64) (images : Option (List (Option Bytes)))
  | imageStreamWrite (p : HostPath) (v : Word)
  | reconfigEntry (c : ChanIx)
  | reconfigApplyComplete (c : ChanIx)
  | commonImageApply
  | channelGate (p : HostPath) (c : ChanIx) (v : Word)
  | channelUngate (p : HostPath) (c : ChanIx) (v : Word)
  | channelReset (p : HostPath) (c : ChanIx) (v : Word)
  | channelPowerDownDone (c : ChanIx)
  | channelPowerUpDone (c : ChanIx)
  | kumInstall (p : HostPath) (v : Word)
  | kumReplace (p : HostPath) (v : Word)
  | kumInvalidate (p : HostPath) (v : Word)
  | kumRecover (p : HostPath) (v : Word)
  | kumTcfg (p : HostPath) (v : Word)
  | kumCommitPoint (written : Bool)
  | attestationQuote (p : HostPath) (v : Word)
  | attestationQuoteDone
  | cmdKeyBatch (slot : Fin 64) (kums : Option (List Bytes))
  | tamperSample (t : TamperIn)
  | faultDetection (n : Fin 512)
  | safeEnter (p : HostPath) (v : Word)
  | safeExit (p : HostPath) (v : Word)
  | injectionGo (p : HostPath) (v : Word)
  | injectedDetection
  | injectionNoCheckTimeout
  | clkGateForce (c : Option ChanIx) (blk : Nat)
  | clkSwitchComplete (c : Option ChanIx) (blk : Nat) (how : SwitchEnd)
  | cmdSubmit (p : HostPath) (v : Word)
  | cmdRelease (p : HostPath) (v : Word)
  | cmdStart (slot : Fin 64)
  | cmdComplete (slot : Fin 64) (dmaFailed : Bool)
  | cmdTimeout (slot : Fin 64)
  | cmdSuspend (slot : Fin 64)
  | cmdResume (slot : Fin 64)
  | cmdCancel (slot : Fin 64)
  | cmdSelfTest (slot : Fin 64)
  | cmdTallyExport (slot : Fin 64)
  | pcieLinkDown
  | pcieFlr
  | winMemWrite (p : HostPath) (addr : Nat) (v : Word)
  | mspiRegisterRead (bs : Bytes)
  | mspiRegisterWrite (bs : Bytes)
  | mspiMemoryRead (bs : Bytes)
  | mspiMemoryWrite (bs : Bytes)
  | mspiScanEntry (bs : Bytes)
  | mspiBallDrive (bs : Bytes)
  | mspiBallSense (bs : Bytes) (level : Bool)
  | pmuTdSnap (p : HostPath) (c : ChanIx) (v : Word)
  | pmuCounterWrap (c : ChanIx) (smp : PmuSample)
  | bwWindowEnd (c : ChanIx)
  | bwCfgWrite (p : HostPath) (c : ChanIx) (v : Word)
  | pkClrWrite (h : HostPath) (c : ChanIx) (p : PortIx) (v : Word)
  | tallyUpdateStart
  | tallyUpdNow (p : HostPath) (v : Word)
  | tallyUpdateCommit
  | moscDetect (count : Nat)
  | moscLost
  | moscReturn
  | rootLock (r : Fin 5)
  | rootLockLost (r : Fin 5)
  | feedBad (b : Bool) (mv : Nat)
  | feedGood (b : Bool) (mv : Nat)
  | feedCheckStart (b : Bool)
  | feedCheckComplete (min : Nat) (limit : Bool)
  | powerOn (b : Bool) (mv : Nat)
  | powerFail (vbat : Nat)
  | vbatLoss
  | pinReset
  | stageRailsDone (bootsel : Fin 4)
  | stageRootDone (how : SwitchEnd)
  | vbatApplied (vbat : Nat)
  | pcieLinkUp (speed width : Fin 8)
  | navigationDataDecoded (c : ChanIx) (i : Fin 48) (d : NavData)
  | pohSecondCount (tj : Int) (va vb : Nat)
  | stageFeedchkDone
  | stageVaultDone
  | stageDone
  | counterAdvance
  | resetNRelease
  | rootStageRetry
  deriving DecidableEq, Repr

end Sys2Proof
end

