-- ==== Sys2Proof/Machine/Crc.lean ====
section
/-! DEFINITION. The cyclic redundancy checks of the manual: CRC-8 (R385), CRC-16/CCITT-FALSE (R70) and the CRC-32 of
IEEE 802.3 (R142). -/
namespace Sys2Proof.Machine

/-- One bit of a CRC of width `w` and polynomial `p`, most significant bit first. -/
def crcBit (w p : Nat) (r : Nat) : Nat :=
  let s := (r * 2) % 2 ^ w
  if r / 2 ^ (w - 1) % 2 = 1 then s ^^^ p else s

/-- One byte of a CRC of width `w`, most significant bit first. -/
def crcByte (w p : Nat) (r : Nat) (b : Byte) : Nat := iter (crcBit w p) 8 (r ^^^ (b.toNat * 2 ^ (w - 8)))

/-- CRC-8 with polynomial 0x07 and initial value 0 (R385). -/
def crc8 (bs : Bytes) : Nat := bs.foldl (crcByte 8 0x07) 0

/-- CRC-16/CCITT-FALSE (R70). -/
def crc16 (bs : Bytes) : Nat := bs.foldl (crcByte 16 0x1021) 0xFFFF

/-- One bit of the reflected CRC-32. -/
def crc32Bit (r : Nat) : Nat := if r % 2 = 1 then (r / 2) ^^^ 0xEDB88320 else r / 2

/-- The CRC-32 of IEEE 802.3 (R142). -/
def crc32 (bs : Bytes) : Nat := (bs.foldl (fun r b => iter crc32Bit 8 (r ^^^ b.toNat)) 0xFFFFFFFF) ^^^ 0xFFFFFFFF

end Sys2Proof.Machine
end

