-- ==== Sys2Proof/Config.lean ====
section
/-! DEFINITION. What an implementation of the manual fixes or leaves open: the free values. -/
namespace Sys2Proof

/-- The values that the spec leaves open: `who` is the channel (4 for the common complex), `n` the number of the draw. Nothing is
known of it (notes/assumptions/3.md). -/
opaque Config.freeValue (who n : Nat) : Nat

/-- The highest write count of a row of a region of the non-volatile memory after so many writes to the region: the spec does not give
the layout of the rows (R417, notes/assumptions/9.md). -/
opaque Config.rowWear (region writes : Nat) : Nat

end Sys2Proof
end

