-- ==== Sys2Proof/Machine/Fields.lean ====
section
/-! DEFINITION. The names of the registers' offsets and fields, as the register chapters of spec/ list them
(R64, R93, R121, R147, R172, R197, R233, R252, R284, R305, R333, R359, R377, R403 to R405, R421, R422, R442, R443, R447).
A field says its block, its offset, its lowest bit, its width, and whether its value in use is the committed one (R8). -/
namespace Sys2Proof.Machine

/-- REF.CTL. -/
def REF_CTL : Nat := 0x0
def F.REF_CTL_COMMIT : KF := ⟨.ref, 0x0, 31, 1, false⟩
def F.REF_CTL_CERR : KF := ⟨.ref, 0x0, 30, 1, false⟩
def F.REF_CTL_LOCK : KF := ⟨.ref, 0x0, 29, 1, false⟩
/-- REF.POL_CFG. -/
def REF_POL_CFG : Nat := 0x4
def F.REF_POL_CFG_REVERT_A : KF := ⟨.ref, 0x4, 31, 1, true⟩
def F.REF_POL_CFG_REVERT_B : KF := ⟨.ref, 0x4, 30, 1, true⟩
def F.REF_POL_CFG_APPROVE_A : KF := ⟨.ref, 0x4, 29, 1, true⟩
def F.REF_POL_CFG_APPROVE_B : KF := ⟨.ref, 0x4, 28, 1, true⟩
def F.REF_POL_CFG_AGREE_N : KF := ⟨.ref, 0x4, 24, 4, true⟩
/-- REF.POL_AGREE. -/
def REF_POL_AGREE : Nat := 0x8
def F.REF_POL_AGREE_FAGREE : KF := ⟨.ref, 0x8, 0, 32, true⟩
/-- REF.POL_JUMP. -/
def REF_POL_JUMP : Nat := 0xC
def F.REF_POL_JUMP_JUMP_LIM : KF := ⟨.ref, 0xC, 0, 32, true⟩
/-- REF.SEL_STAT. -/
def REF_SEL_STAT : Nat := 0x10
def F.REF_SEL_STAT_VALID_A : KF := ⟨.ref, 0x10, 31, 1, false⟩
def F.REF_SEL_STAT_SW_A : KF := ⟨.ref, 0x10, 30, 1, false⟩
def F.REF_SEL_STAT_PV_A : KF := ⟨.ref, 0x10, 29, 1, false⟩
def F.REF_SEL_STAT_PEND_A : KF := ⟨.ref, 0x10, 28, 1, false⟩
def F.REF_SEL_STAT_LANE_A : KF := ⟨.ref, 0x10, 24, 4, false⟩
def F.REF_SEL_STAT_PLANE_A : KF := ⟨.ref, 0x10, 20, 4, false⟩
def F.REF_SEL_STAT_VALID_B : KF := ⟨.ref, 0x10, 15, 1, false⟩
def F.REF_SEL_STAT_SW_B : KF := ⟨.ref, 0x10, 14, 1, false⟩
def F.REF_SEL_STAT_PV_B : KF := ⟨.ref, 0x10, 13, 1, false⟩
def F.REF_SEL_STAT_PEND_B : KF := ⟨.ref, 0x10, 12, 1, false⟩
def F.REF_SEL_STAT_LANE_B : KF := ⟨.ref, 0x10, 8, 4, false⟩
def F.REF_SEL_STAT_PLANE_B : KF := ⟨.ref, 0x10, 4, 4, false⟩
/-- REF.SEL_CMD. -/
def REF_SEL_CMD : Nat := 0x14
def F.REF_SEL_CMD_APPROVE_A : KF := ⟨.ref, 0x14, 31, 1, false⟩
def F.REF_SEL_CMD_DENY_A : KF := ⟨.ref, 0x14, 30, 1, false⟩
def F.REF_SEL_CMD_APPROVE_B : KF := ⟨.ref, 0x14, 29, 1, false⟩
def F.REF_SEL_CMD_DENY_B : KF := ⟨.ref, 0x14, 28, 1, false⟩
/-- REF.EVT. -/
def REF_EVT : Nat := 0x18
def F.REF_EVT_OUTL : KF := ⟨.ref, 0x18, 20, 1, false⟩
def F.REF_EVT_CONT : KF := ⟨.ref, 0x18, 19, 1, false⟩
def F.REF_EVT_PROV : KF := ⟨.ref, 0x18, 18, 1, false⟩
def F.REF_EVT_SELB : KF := ⟨.ref, 0x18, 17, 1, false⟩
def F.REF_EVT_SELA : KF := ⟨.ref, 0x18, 16, 1, false⟩
def F.REF_EVT_LANE : KF := ⟨.ref, 0x18, 0, 16, false⟩
/-- REF.TODI_CFG. -/
def REF_TODI_CFG (n : Nat) : Nat := 0x100 + 0x10 * n
def F.REF_TODI_CFG_EN (n : Nat) : KF := ⟨.ref, 0x100 + 0x10 * n, 31, 1, true⟩
def F.REF_TODI_CFG_BAUD (n : Nat) : KF := ⟨.ref, 0x100 + 0x10 * n, 28, 3, true⟩
/-- REF.TODI_STAT. -/
def REF_TODI_STAT (n : Nat) : Nat := 0x104 + 0x10 * n
def F.REF_TODI_STAT_GOOD (n : Nat) : KF := ⟨.ref, 0x104 + 0x10 * n, 16, 16, false⟩
def F.REF_TODI_STAT_BAD (n : Nat) : KF := ⟨.ref, 0x104 + 0x10 * n, 0, 16, false⟩
/-- REF.LANE_CFG. -/
def REF_LANE_CFG (n : Nat) : Nat := 0x1000 + 0x40 * n
def F.REF_LANE_CFG_ENABLE (n : Nat) : KF := ⟨.ref, 0x1000 + 0x40 * n, 31, 1, true⟩
def F.REF_LANE_CFG_MODE (n : Nat) : KF := ⟨.ref, 0x1000 + 0x40 * n, 29, 2, true⟩
def F.REF_LANE_CFG_KIND (n : Nat) : KF := ⟨.ref, 0x1000 + 0x40 * n, 27, 2, true⟩
def F.REF_LANE_CFG_TODSEL (n : Nat) : KF := ⟨.ref, 0x1000 + 0x40 * n, 26, 1, true⟩
def F.REF_LANE_CFG_SRV_B (n : Nat) : KF := ⟨.ref, 0x1000 + 0x40 * n, 25, 1, true⟩
def F.REF_LANE_CFG_SRV_A (n : Nat) : KF := ⟨.ref, 0x1000 + 0x40 * n, 24, 1, true⟩
def F.REF_LANE_CFG_RANK (n : Nat) : KF := ⟨.ref, 0x1000 + 0x40 * n, 20, 4, true⟩
def F.REF_LANE_CFG_MISS_LIM (n : Nat) : KF := ⟨.ref, 0x1000 + 0x40 * n, 16, 4, true⟩
def F.REF_LANE_CFG_PHASE_OK (n : Nat) : KF := ⟨.ref, 0x1000 + 0x40 * n, 15, 1, true⟩
/-- REF.LANE_NOM. -/
def REF_LANE_NOM (n : Nat) : Nat := 0x1004 + 0x40 * n
def F.REF_LANE_NOM_NOM_HZ (n : Nat) : KF := ⟨.ref, 0x1004 + 0x40 * n, 0, 30, true⟩
/-- REF.LANE_QUAL. -/
def REF_LANE_QUAL (n : Nat) : Nat := 0x1008 + 0x40 * n
def F.REF_LANE_QUAL_QUAL_WIN (n : Nat) : KF := ⟨.ref, 0x1008 + 0x40 * n, 16, 16, true⟩
def F.REF_LANE_QUAL_QUAL_MIN (n : Nat) : KF := ⟨.ref, 0x1008 + 0x40 * n, 0, 16, true⟩
/-- REF.LANE_FLIM. -/
def REF_LANE_FLIM (n : Nat) : Nat := 0x100C + 0x40 * n
def F.REF_LANE_FLIM_FLIM (n : Nat) : KF := ⟨.ref, 0x100C + 0x40 * n, 0, 32, true⟩
/-- REF.LANE_TLIM. -/
def REF_LANE_TLIM (n : Nat) : Nat := 0x1010 + 0x40 * n
def F.REF_LANE_TLIM_TLIM (n : Nat) : KF := ⟨.ref, 0x1010 + 0x40 * n, 0, 32, true⟩
/-- REF.LANE_TIME. -/
def REF_LANE_TIME (n : Nat) : Nat := 0x1014 + 0x40 * n
def F.REF_LANE_TIME_WTR (n : Nat) : KF := ⟨.ref, 0x1014 + 0x40 * n, 16, 16, true⟩
def F.REF_LANE_TIME_DQ_HOLD (n : Nat) : KF := ⟨.ref, 0x1014 + 0x40 * n, 0, 16, true⟩
/-- REF.LANE_STEP. -/
def REF_LANE_STEP (n : Nat) : Nat := 0x1018 + 0x40 * n
def F.REF_LANE_STEP_STEP_CONF (n : Nat) : KF := ⟨.ref, 0x1018 + 0x40 * n, 28, 4, true⟩
def F.REF_LANE_STEP_STEP_LIM (n : Nat) : KF := ⟨.ref, 0x1018 + 0x40 * n, 0, 28, true⟩
/-- REF.LANE_CDLY. -/
def REF_LANE_CDLY (n : Nat) : Nat := 0x101C + 0x40 * n
def F.REF_LANE_CDLY_CDLY (n : Nat) : KF := ⟨.ref, 0x101C + 0x40 * n, 0, 32, true⟩
/-- REF.LANE_CBUD. -/
def REF_LANE_CBUD (n : Nat) : Nat := 0x1020 + 0x40 * n
def F.REF_LANE_CBUD_CBUD (n : Nat) : KF := ⟨.ref, 0x1020 + 0x40 * n, 0, 32, true⟩
/-- REF.LANE_SBUD. -/
def REF_LANE_SBUD (n : Nat) : Nat := 0x1024 + 0x40 * n
def F.REF_LANE_SBUD_SBUD (n : Nat) : KF := ⟨.ref, 0x1024 + 0x40 * n, 0, 32, true⟩
/-- REF.LANE_STAT. -/
def REF_LANE_STAT (n : Nat) : Nat := 0x1028 + 0x40 * n
def F.REF_LANE_STAT_EXISTS (n : Nat) : KF := ⟨.ref, 0x1028 + 0x40 * n, 31, 1, false⟩
def F.REF_LANE_STAT_STATE (n : Nat) : KF := ⟨.ref, 0x1028 + 0x40 * n, 28, 3, false⟩
def F.REF_LANE_STAT_LOS (n : Nat) : KF := ⟨.ref, 0x1028 + 0x40 * n, 27, 1, false⟩
def F.REF_LANE_STAT_RETURNING (n : Nat) : KF := ⟨.ref, 0x1028 + 0x40 * n, 26, 1, false⟩
def F.REF_LANE_STAT_OUTLIER (n : Nat) : KF := ⟨.ref, 0x1028 + 0x40 * n, 25, 1, false⟩
def F.REF_LANE_STAT_SEL_A (n : Nat) : KF := ⟨.ref, 0x1028 + 0x40 * n, 24, 1, false⟩
def F.REF_LANE_STAT_SEL_B (n : Nat) : KF := ⟨.ref, 0x1028 + 0x40 * n, 23, 1, false⟩
def F.REF_LANE_STAT_STEP (n : Nat) : KF := ⟨.ref, 0x1028 + 0x40 * n, 22, 1, false⟩
def F.REF_LANE_STAT_BACK (n : Nat) : KF := ⟨.ref, 0x1028 + 0x40 * n, 21, 1, false⟩
def F.REF_LANE_STAT_DISAGREE (n : Nat) : KF := ⟨.ref, 0x1028 + 0x40 * n, 20, 1, false⟩
def F.REF_LANE_STAT_LIMIT (n : Nat) : KF := ⟨.ref, 0x1028 + 0x40 * n, 19, 1, false⟩
def F.REF_LANE_STAT_SENT_ERR (n : Nat) : KF := ⟨.ref, 0x1028 + 0x40 * n, 18, 1, false⟩
def F.REF_LANE_STAT_TIMER (n : Nat) : KF := ⟨.ref, 0x1028 + 0x40 * n, 0, 16, false⟩
/-- REF.LANE_CMD. -/
def REF_LANE_CMD (n : Nat) : Nat := 0x102C + 0x40 * n
def F.REF_LANE_CMD_CLR_STEP (n : Nat) : KF := ⟨.ref, 0x102C + 0x40 * n, 3, 1, false⟩
def F.REF_LANE_CMD_REQUAL (n : Nat) : KF := ⟨.ref, 0x102C + 0x40 * n, 2, 1, false⟩
def F.REF_LANE_CMD_UNFORCE (n : Nat) : KF := ⟨.ref, 0x102C + 0x40 * n, 1, 1, false⟩
def F.REF_LANE_CMD_FORCE (n : Nat) : KF := ⟨.ref, 0x102C + 0x40 * n, 0, 1, false⟩
/-- REF.LANE_STEPW. -/
def REF_LANE_STEPW (n : Nat) : Nat := 0x1030 + 0x40 * n
def F.REF_LANE_STEPW_STEPW (n : Nat) : KF := ⟨.ref, 0x1030 + 0x40 * n, 0, 32, false⟩
/-- DPLL.CTL. -/
def DPLL_CTL : Nat := 0x0
def F.DPLL_CTL_COMMIT : KF := ⟨.dpll, 0x0, 31, 1, false⟩
def F.DPLL_CTL_CERR : KF := ⟨.dpll, 0x0, 30, 1, false⟩
def F.DPLL_CTL_LOCK : KF := ⟨.dpll, 0x0, 29, 1, false⟩
/-- DPLL.A_CFG. -/
def DPLL_A_CFG : Nat := 0x4
def F.DPLL_A_CFG_SET_EN : KF := ⟨.dpll, 0x4, 31, 1, true⟩
def F.DPLL_A_CFG_AGE_EN : KF := ⟨.dpll, 0x4, 30, 1, true⟩
def F.DPLL_A_CFG_MODEL : KF := ⟨.dpll, 0x4, 28, 2, true⟩
def F.DPLL_A_CFG_APPLY_DLY : KF := ⟨.dpll, 0x4, 0, 28, true⟩
/-- DPLL.BW_A. -/
def DPLL_BW_A : Nat := 0x8
def F.DPLL_BW_A_BW_ACQ : KF := ⟨.dpll, 0x8, 16, 16, true⟩
def F.DPLL_BW_A_BW_LOCK : KF := ⟨.dpll, 0x8, 0, 16, true⟩
/-- DPLL.ADAPT. -/
def DPLL_ADAPT : Nat := 0xC
def F.DPLL_ADAPT_NARROW : KF := ⟨.dpll, 0xC, 16, 16, true⟩
def F.DPLL_ADAPT_LOCK_N : KF := ⟨.dpll, 0xC, 8, 8, true⟩
def F.DPLL_ADAPT_UNLOCK_N : KF := ⟨.dpll, 0xC, 0, 8, true⟩
/-- DPLL.LOCK_TH. -/
def DPLL_LOCK_TH : Nat := 0x10
def F.DPLL_LOCK_TH_LOCK_TH : KF := ⟨.dpll, 0x10, 0, 32, true⟩
/-- DPLL.UNLOCK_TH. -/
def DPLL_UNLOCK_TH : Nat := 0x14
def F.DPLL_UNLOCK_TH_UNLOCK_TH : KF := ⟨.dpll, 0x14, 0, 32, true⟩
/-- DPLL.SL_TH. -/
def DPLL_SL_TH : Nat := 0x18
def F.DPLL_SL_TH_SL_TH : KF := ⟨.dpll, 0x18, 0, 32, true⟩
/-- DPLL.A_SLEW. -/
def DPLL_A_SLEW : Nat := 0x1C
def F.DPLL_A_SLEW_SLEW : KF := ⟨.dpll, 0x1C, 0, 32, true⟩
/-- DPLL.FWIN. -/
def DPLL_FWIN : Nat := 0x20
def F.DPLL_FWIN_FWIN : KF := ⟨.dpll, 0x20, 0, 16, true⟩
/-- DPLL.FB_WANDER. -/
def DPLL_FB_WANDER : Nat := 0x24
def F.DPLL_FB_WANDER_FB_WANDER : KF := ⟨.dpll, 0x24, 0, 32, true⟩
/-- DPLL.HO_CEIL. -/
def DPLL_HO_CEIL : Nat := 0x30
def F.DPLL_HO_CEIL_CEIL : KF := ⟨.dpll, 0x30, 0, 32, true⟩
/-- DPLL.HO_A. -/
def DPLL_HO_A : Nat := 0x34
def F.DPLL_HO_A_A : KF := ⟨.dpll, 0x34, 0, 32, true⟩
/-- DPLL.HO_B. -/
def DPLL_HO_B : Nat := 0x38
def F.DPLL_HO_B_B : KF := ⟨.dpll, 0x38, 0, 32, true⟩
/-- DPLL.HO_C. -/
def DPLL_HO_C : Nat := 0x3C
def F.DPLL_HO_C_C : KF := ⟨.dpll, 0x3C, 0, 32, true⟩
/-- DPLL.HO_AGE_LO. -/
def DPLL_HO_AGE_LO : Nat := 0x40
def F.DPLL_HO_AGE_LO_AGE_LO : KF := ⟨.dpll, 0x40, 0, 32, true⟩
/-- DPLL.HO_AGE_HI. -/
def DPLL_HO_AGE_HI : Nat := 0x44
def F.DPLL_HO_AGE_HI_AGE_HI : KF := ⟨.dpll, 0x44, 0, 32, true⟩
/-- DPLL.LRN_B. -/
def DPLL_LRN_B : Nat := 0x50
def F.DPLL_LRN_B_B : KF := ⟨.dpll, 0x50, 0, 32, false⟩
/-- DPLL.LRN_C. -/
def DPLL_LRN_C : Nat := 0x54
def F.DPLL_LRN_C_C : KF := ⟨.dpll, 0x54, 0, 32, false⟩
/-- DPLL.LRN_AGE. -/
def DPLL_LRN_AGE (n : Nat) : Nat := 0x58 + 0x4 * n
def F.DPLL_LRN_AGE_AGE (n : Nat) : KF := ⟨.dpll, 0x58 + 0x4 * n, 0, 32, false⟩
/-- DPLL.LRN_STAT. -/
def DPLL_LRN_STAT : Nat := 0x60
def F.DPLL_LRN_STAT_VALID : KF := ⟨.dpll, 0x60, 31, 1, false⟩
def F.DPLL_LRN_STAT_SAMPLES : KF := ⟨.dpll, 0x60, 0, 16, false⟩
/-- DPLL.STAT. -/
def DPLL_STAT : Nat := 0x80
def F.DPLL_STAT_STATE : KF := ⟨.dpll, 0x80, 29, 3, false⟩
def F.DPLL_STAT_SL : KF := ⟨.dpll, 0x80, 28, 1, false⟩
def F.DPLL_STAT_HO_VALID : KF := ⟨.dpll, 0x80, 27, 1, false⟩
def F.DPLL_STAT_TRACE : KF := ⟨.dpll, 0x80, 26, 1, false⟩
def F.DPLL_STAT_B_STATE : KF := ⟨.dpll, 0x80, 24, 2, false⟩
def F.DPLL_STAT_BWC : KF := ⟨.dpll, 0x80, 0, 16, false⟩
/-- DPLL.EVT. -/
def DPLL_EVT : Nat := 0x84
def F.DPLL_EVT_CHAR : KF := ⟨.dpll, 0x84, 9, 1, false⟩
def F.DPLL_EVT_BSTATE : KF := ⟨.dpll, 0x84, 8, 1, false⟩
def F.DPLL_EVT_ICLAMP : KF := ⟨.dpll, 0x84, 7, 1, false⟩
def F.DPLL_EVT_LIMIT : KF := ⟨.dpll, 0x84, 6, 1, false⟩
def F.DPLL_EVT_STEP_REJ : KF := ⟨.dpll, 0x84, 5, 1, false⟩
def F.DPLL_EVT_STEP : KF := ⟨.dpll, 0x84, 4, 1, false⟩
def F.DPLL_EVT_LATE : KF := ⟨.dpll, 0x84, 3, 1, false⟩
def F.DPLL_EVT_BACKN : KF := ⟨.dpll, 0x84, 2, 1, false⟩
def F.DPLL_EVT_SL : KF := ⟨.dpll, 0x84, 1, 1, false⟩
def F.DPLL_EVT_STATE : KF := ⟨.dpll, 0x84, 0, 1, false⟩
/-- DPLL.LATE_CNT. -/
def DPLL_LATE_CNT : Nat := 0x88
def F.DPLL_LATE_CNT_LATE : KF := ⟨.dpll, 0x88, 16, 16, false⟩
def F.DPLL_LATE_CNT_STEPPED : KF := ⟨.dpll, 0x88, 0, 16, false⟩
/-- DPLL.TIME. -/
def DPLL_TIME (n : Nat) : Nat := 0x100 + 0x4 * n
def F.DPLL_TIME_TIME (n : Nat) : KF := ⟨.dpll, 0x100 + 0x4 * n, 0, 32, false⟩
/-- DPLL.TEB. -/
def DPLL_TEB : Nat := 0x110
def F.DPLL_TEB_TEB : KF := ⟨.dpll, 0x110, 0, 32, false⟩
/-- DPLL.TAG. -/
def DPLL_TAG : Nat := 0x114
def F.DPLL_TAG_TAG : KF := ⟨.dpll, 0x114, 0, 32, false⟩
/-- DPLL.RATE. -/
def DPLL_RATE (n : Nat) : Nat := 0x120 + 0x4 * n
def F.DPLL_RATE_RATE (n : Nat) : KF := ⟨.dpll, 0x120 + 0x4 * n, 0, 32, false⟩
/-- DPLL.PEND. -/
def DPLL_PEND (n : Nat) : Nat := 0x128 + 0x4 * n
def F.DPLL_PEND_PEND (n : Nat) : KF := ⟨.dpll, 0x128 + 0x4 * n, 0, 32, false⟩
/-- DPLL.TEB0. -/
def DPLL_TEB0 : Nat := 0x138
def F.DPLL_TEB0_TEB0 : KF := ⟨.dpll, 0x138, 0, 32, false⟩
/-- DPLL.FB. -/
def DPLL_FB : Nat := 0x13C
def F.DPLL_FB_FB : KF := ⟨.dpll, 0x13C, 0, 32, false⟩
/-- DPLL.LFB. -/
def DPLL_LFB : Nat := 0x140
def F.DPLL_LFB_LFB : KF := ⟨.dpll, 0x140, 0, 32, false⟩
/-- DPLL.T0. -/
def DPLL_T0 (n : Nat) : Nat := 0x150 + 0x4 * n
def F.DPLL_T0_T0 (n : Nat) : KF := ⟨.dpll, 0x150 + 0x4 * n, 0, 32, false⟩
/-- DPLL.HO_T. -/
def DPLL_HO_T : Nat := 0x160
def F.DPLL_HO_T_T_S : KF := ⟨.dpll, 0x160, 0, 32, false⟩
/-- DPLL.STEP_VAL. -/
def DPLL_STEP_VAL (n : Nat) : Nat := 0x200 + 0x4 * n
def F.DPLL_STEP_VAL_VAL (n : Nat) : KF := ⟨.dpll, 0x200 + 0x4 * n, 0, 32, false⟩
/-- DPLL.STEP_CMD. -/
def DPLL_STEP_CMD : Nat := 0x210
def F.DPLL_STEP_CMD_GO : KF := ⟨.dpll, 0x210, 31, 1, false⟩
def F.DPLL_STEP_CMD_ABS : KF := ⟨.dpll, 0x210, 30, 1, false⟩
def F.DPLL_STEP_CMD_WAIT : KF := ⟨.dpll, 0x210, 29, 1, false⟩
def F.DPLL_STEP_CMD_ABORT : KF := ⟨.dpll, 0x210, 28, 1, false⟩
/-- DPLL.B_CFG. -/
def DPLL_B_CFG : Nat := 0x300
def F.DPLL_B_CFG_FOLLOW_A : KF := ⟨.dpll, 0x300, 31, 1, true⟩
def F.DPLL_B_CFG_BW_B : KF := ⟨.dpll, 0x300, 0, 16, true⟩
/-- DPLL.RATE_B. -/
def DPLL_RATE_B (n : Nat) : Nat := 0x304 + 0x4 * n
def F.DPLL_RATE_B_RATE_B (n : Nat) : KF := ⟨.dpll, 0x304 + 0x4 * n, 0, 32, false⟩
/-- DPLL.FB_B. -/
def DPLL_FB_B : Nat := 0x30C
def F.DPLL_FB_B_FB_B : KF := ⟨.dpll, 0x30C, 0, 32, false⟩
/-- DPLL.J_WPTR. -/
def DPLL_J_WPTR : Nat := 0x400
def F.DPLL_J_WPTR_WPTR : KF := ⟨.dpll, 0x400, 0, 17, false⟩
/-- DPLL.J_SEQ. -/
def DPLL_J_SEQ (n : Nat) : Nat := 0x404 + 0x4 * n
def F.DPLL_J_SEQ_JSEQ (n : Nat) : KF := ⟨.dpll, 0x404 + 0x4 * n, 0, 32, false⟩
/-- DPLL.J_STAT. -/
def DPLL_J_STAT : Nat := 0x40C
def F.DPLL_J_STAT_WRAPS : KF := ⟨.dpll, 0x40C, 0, 32, false⟩
/-- DPLL.TS_CFG. -/
def DPLL_TS_CFG : Nat := 0xF0000
def F.DPLL_TS_CFG_CALSET : KF := ⟨.dpll, 0xF0000, 8, 8, true⟩
def F.DPLL_TS_CFG_UTC_SRC : KF := ⟨.dpll, 0xF0000, 0, 2, false⟩
/-- DPLL.UTC_NOW. -/
def DPLL_UTC_NOW : Nat := 0xF0004
def F.DPLL_UTC_NOW_VALID : KF := ⟨.dpll, 0xF0004, 31, 1, false⟩
def F.DPLL_UTC_NOW_SEEN : KF := ⟨.dpll, 0xF0004, 30, 1, false⟩
def F.DPLL_UTC_NOW_REJ : KF := ⟨.dpll, 0xF0004, 29, 1, false⟩
def F.DPLL_UTC_NOW_CONFLICT : KF := ⟨.dpll, 0xF0004, 28, 1, false⟩
def F.DPLL_UTC_NOW_LI : KF := ⟨.dpll, 0xF0004, 16, 2, false⟩
def F.DPLL_UTC_NOW_OFS : KF := ⟨.dpll, 0xF0004, 0, 16, false⟩
/-- DPLL.LEAP_EFF_LO. -/
def DPLL_LEAP_EFF_LO (n : Nat) : Nat := 0xF0100 + 0x10 * n
def F.DPLL_LEAP_EFF_LO_EFF_LO (n : Nat) : KF := ⟨.dpll, 0xF0100 + 0x10 * n, 0, 32, false⟩
/-- DPLL.LEAP_EFF_HI. -/
def DPLL_LEAP_EFF_HI (n : Nat) : Nat := 0xF0104 + 0x10 * n
def F.DPLL_LEAP_EFF_HI_EFF_HI (n : Nat) : KF := ⟨.dpll, 0xF0104 + 0x10 * n, 0, 32, false⟩
/-- DPLL.LEAP_ENT. -/
def DPLL_LEAP_ENT (n : Nat) : Nat := 0xF0108 + 0x10 * n
def F.DPLL_LEAP_ENT_VALID (n : Nat) : KF := ⟨.dpll, 0xF0108 + 0x10 * n, 31, 1, false⟩
def F.DPLL_LEAP_ENT_CONF (n : Nat) : KF := ⟨.dpll, 0xF0108 + 0x10 * n, 30, 1, false⟩
def F.DPLL_LEAP_ENT_ORIGIN (n : Nat) : KF := ⟨.dpll, 0xF0108 + 0x10 * n, 28, 2, false⟩
def F.DPLL_LEAP_ENT_OFS (n : Nat) : KF := ⟨.dpll, 0xF0108 + 0x10 * n, 0, 16, false⟩
/-- DPLL.CAL_DLY. -/
def DPLL_CAL_DLY (n : Nat) : Nat := 0xF0200 + 0x8 * n
def F.DPLL_CAL_DLY_DLY (n : Nat) : KF := ⟨.dpll, 0xF0200 + 0x8 * n, 0, 32, true⟩
/-- DPLL.CAL_BUD. -/
def DPLL_CAL_BUD (n : Nat) : Nat := 0xF0204 + 0x8 * n
def F.DPLL_CAL_BUD_BUD (n : Nat) : KF := ⟨.dpll, 0xF0204 + 0x8 * n, 0, 32, true⟩
/-- SYN.CTL. -/
def SYN_CTL : Nat := 0x0
def F.SYN_CTL_SYN_COMMIT : KF := ⟨.syn, 0x0, 31, 1, false⟩
def F.SYN_CTL_CERR : KF := ⟨.syn, 0x0, 30, 1, false⟩
def F.SYN_CTL_LOCK : KF := ⟨.syn, 0x0, 29, 1, false⟩
def F.SYN_CTL_CPEND : KF := ⟨.syn, 0x0, 28, 1, false⟩
def F.SYN_CTL_CBUSY : KF := ⟨.syn, 0x0, 27, 1, false⟩
/-- SYN.SYN_CFG. -/
def SYN_SYN_CFG (n : Nat) : Nat := 0x10 + 0x20 * n
def F.SYN_SYN_CFG_EN (n : Nat) : KF := ⟨.syn, 0x10 + 0x20 * n, 31, 1, true⟩
def F.SYN_SYN_CFG_LOOP (n : Nat) : KF := ⟨.syn, 0x10 + 0x20 * n, 29, 2, true⟩
def F.SYN_SYN_CFG_FOLLOW (n : Nat) : KF := ⟨.syn, 0x10 + 0x20 * n, 26, 3, true⟩
def F.SYN_SYN_CFG_REFSEL (n : Nat) : KF := ⟨.syn, 0x10 + 0x20 * n, 23, 3, true⟩
def F.SYN_SYN_CFG_RLK_HOLD (n : Nat) : KF := ⟨.syn, 0x10 + 0x20 * n, 22, 1, true⟩
def F.SYN_SYN_CFG_COAST_SQ (n : Nat) : KF := ⟨.syn, 0x10 + 0x20 * n, 21, 1, true⟩
def F.SYN_SYN_CFG_NFB (n : Nat) : KF := ⟨.syn, 0x10 + 0x20 * n, 0, 10, true⟩
/-- SYN.SYN_FNUM. -/
def SYN_SYN_FNUM (n : Nat) : Nat := 0x14 + 0x20 * n
def F.SYN_SYN_FNUM_NUM (n : Nat) : KF := ⟨.syn, 0x14 + 0x20 * n, 0, 32, true⟩
/-- SYN.SYN_FDEN. -/
def SYN_SYN_FDEN (n : Nat) : Nat := 0x18 + 0x20 * n
def F.SYN_SYN_FDEN_CPER (n : Nat) : KF := ⟨.syn, 0x18 + 0x20 * n, 24, 8, true⟩
def F.SYN_SYN_FDEN_DEN (n : Nat) : KF := ⟨.syn, 0x18 + 0x20 * n, 0, 16, true⟩
/-- SYN.SYN_WIN. -/
def SYN_SYN_WIN (n : Nat) : Nat := 0x1C + 0x20 * n
def F.SYN_SYN_WIN_N (n : Nat) : KF := ⟨.syn, 0x1C + 0x20 * n, 16, 16, true⟩
def F.SYN_SYN_WIN_W (n : Nat) : KF := ⟨.syn, 0x1C + 0x20 * n, 0, 8, true⟩
/-- SYN.SYN_STAT. -/
def SYN_SYN_STAT (n : Nat) : Nat := 0x20 + 0x20 * n
def F.SYN_SYN_STAT_STATE (n : Nat) : KF := ⟨.syn, 0x20 + 0x20 * n, 30, 2, false⟩
def F.SYN_SYN_STAT_LOCKIND (n : Nat) : KF := ⟨.syn, 0x20 + 0x20 * n, 29, 1, false⟩
def F.SYN_SYN_STAT_LOL (n : Nat) : KF := ⟨.syn, 0x20 + 0x20 * n, 28, 1, false⟩
def F.SYN_SYN_STAT_REFLOS (n : Nat) : KF := ⟨.syn, 0x20 + 0x20 * n, 27, 1, false⟩
def F.SYN_SYN_STAT_NOLOCK (n : Nat) : KF := ⟨.syn, 0x20 + 0x20 * n, 26, 1, false⟩
def F.SYN_SYN_STAT_RSYNC (n : Nat) : KF := ⟨.syn, 0x20 + 0x20 * n, 25, 1, false⟩
def F.SYN_SYN_STAT_RELOCKS (n : Nat) : KF := ⟨.syn, 0x20 + 0x20 * n, 0, 16, false⟩
/-- SYN.SYN_PERR. -/
def SYN_SYN_PERR (n : Nat) : Nat := 0x24 + 0x20 * n
def F.SYN_SYN_PERR_PERR (n : Nat) : KF := ⟨.syn, 0x24 + 0x20 * n, 0, 16, false⟩
/-- SYN.OUT_CFG. -/
def SYN_OUT_CFG (n : Nat) : Nat := 0x100 + 0x10 * n
def F.SYN_OUT_CFG_EN (n : Nat) : KF := ⟨.syn, 0x100 + 0x10 * n, 31, 1, true⟩
def F.SYN_OUT_CFG_FMT (n : Nat) : KF := ⟨.syn, 0x100 + 0x10 * n, 29, 2, true⟩
def F.SYN_OUT_CFG_SRC (n : Nat) : KF := ⟨.syn, 0x100 + 0x10 * n, 28, 1, true⟩
def F.SYN_OUT_CFG_PRE (n : Nat) : KF := ⟨.syn, 0x100 + 0x10 * n, 26, 2, true⟩
def F.SYN_OUT_CFG_SQ (n : Nat) : KF := ⟨.syn, 0x100 + 0x10 * n, 23, 3, true⟩
/-- SYN.OUT_DIV. -/
def SYN_OUT_DIV (n : Nat) : Nat := 0x104 + 0x10 * n
def F.SYN_OUT_DIV_DIV (n : Nat) : KF := ⟨.syn, 0x104 + 0x10 * n, 0, 32, true⟩
/-- SYN.OUT_BUD. -/
def SYN_OUT_BUD (n : Nat) : Nat := 0x108 + 0x10 * n
def F.SYN_OUT_BUD_BUD (n : Nat) : KF := ⟨.syn, 0x108 + 0x10 * n, 0, 32, true⟩
/-- SYN.OUT_STAT. -/
def SYN_OUT_STAT (n : Nat) : Nat := 0x10C + 0x10 * n
def F.SYN_OUT_STAT_RUN (n : Nat) : KF := ⟨.syn, 0x10C + 0x10 * n, 29, 3, false⟩
/-- SYN.PLS_CFG. -/
def SYN_PLS_CFG (n : Nat) : Nat := 0x200 + 0x20 * n
def F.SYN_PLS_CFG_EN (n : Nat) : KF := ⟨.syn, 0x200 + 0x20 * n, 31, 1, true⟩
def F.SYN_PLS_CFG_MODE (n : Nat) : KF := ⟨.syn, 0x200 + 0x20 * n, 30, 1, true⟩
def F.SYN_PLS_CFG_UNIT (n : Nat) : KF := ⟨.syn, 0x200 + 0x20 * n, 29, 1, true⟩
def F.SYN_PLS_CFG_SQ (n : Nat) : KF := ⟨.syn, 0x200 + 0x20 * n, 26, 3, true⟩
def F.SYN_PLS_CFG_PER (n : Nat) : KF := ⟨.syn, 0x200 + 0x20 * n, 0, 20, true⟩
/-- SYN.PLS_WID. -/
def SYN_PLS_WID (n : Nat) : Nat := 0x204 + 0x20 * n
def F.SYN_PLS_WID_WID (n : Nat) : KF := ⟨.syn, 0x204 + 0x20 * n, 0, 32, true⟩
/-- SYN.PLS_OFS. -/
def SYN_PLS_OFS (n : Nat) : Nat := 0x208 + 0x20 * n
def F.SYN_PLS_OFS_OFS (n : Nat) : KF := ⟨.syn, 0x208 + 0x20 * n, 0, 32, true⟩
/-- SYN.PLS_BUD. -/
def SYN_PLS_BUD (n : Nat) : Nat := 0x20C + 0x20 * n
def F.SYN_PLS_BUD_BUD (n : Nat) : KF := ⟨.syn, 0x20C + 0x20 * n, 0, 32, true⟩
/-- SYN.PLS_STAT. -/
def SYN_PLS_STAT (n : Nat) : Nat := 0x210 + 0x20 * n
def F.SYN_PLS_STAT_RUN (n : Nat) : KF := ⟨.syn, 0x210 + 0x20 * n, 29, 3, false⟩
def F.SYN_PLS_STAT_SKIP (n : Nat) : KF := ⟨.syn, 0x210 + 0x20 * n, 0, 16, false⟩
/-- SYN.TOD_CFG. -/
def SYN_TOD_CFG : Nat := 0x300
def F.SYN_TOD_CFG_EN : KF := ⟨.syn, 0x300, 31, 1, true⟩
def F.SYN_TOD_CFG_BAUD : KF := ⟨.syn, 0x300, 28, 3, true⟩
def F.SYN_TOD_CFG_PLS : KF := ⟨.syn, 0x300, 27, 1, true⟩
def F.SYN_TOD_CFG_TS : KF := ⟨.syn, 0x300, 26, 1, true⟩
def F.SYN_TOD_CFG_DLY : KF := ⟨.syn, 0x300, 0, 16, true⟩
/-- SYN.TOD_STAT. -/
def SYN_TOD_STAT : Nat := 0x304
def F.SYN_TOD_STAT_SENT : KF := ⟨.syn, 0x304, 16, 16, false⟩
def F.SYN_TOD_STAT_SKIP : KF := ⟨.syn, 0x304, 0, 16, false⟩
/-- SYN.RA_CTL. -/
def SYN_RA_CTL : Nat := 0x400
def F.SYN_RA_CTL_GO : KF := ⟨.syn, 0x400, 31, 1, false⟩
def F.SYN_RA_CTL_MODE : KF := ⟨.syn, 0x400, 30, 1, false⟩
def F.SYN_RA_CTL_AUTO : KF := ⟨.syn, 0x400, 29, 1, false⟩
def F.SYN_RA_CTL_ACT : KF := ⟨.syn, 0x400, 28, 1, false⟩
def F.SYN_RA_CTL_REJ : KF := ⟨.syn, 0x400, 27, 1, false⟩
/-- SYN.RA_SLEW. -/
def SYN_RA_SLEW : Nat := 0x404
def F.SYN_RA_SLEW_RA_SLEW : KF := ⟨.syn, 0x404, 0, 32, false⟩
/-- SYN.PDEV. -/
def SYN_PDEV (n : Nat) : Nat := 0x410 + 0x4 * n
def F.SYN_PDEV_PDEV (n : Nat) : KF := ⟨.syn, 0x410 + 0x4 * n, 0, 32, false⟩
/-- SYN.OTEB. -/
def SYN_OTEB (n : Nat) : Nat := 0x500 + 0x4 * n
def F.SYN_OTEB_TEB (n : Nat) : KF := ⟨.syn, 0x500 + 0x4 * n, 0, 32, false⟩
/-- SYN.EVT. -/
def SYN_EVT : Nat := 0x600
def F.SYN_EVT_TODSKIP : KF := ⟨.syn, 0x600, 6, 1, false⟩
def F.SYN_EVT_RA_DONE : KF := ⟨.syn, 0x600, 5, 1, false⟩
def F.SYN_EVT_PSKIP : KF := ⟨.syn, 0x600, 4, 1, false⟩
def F.SYN_EVT_CAPPLY : KF := ⟨.syn, 0x600, 3, 1, false⟩
def F.SYN_EVT_NOLOCK : KF := ⟨.syn, 0x600, 2, 1, false⟩
def F.SYN_EVT_SYN1 : KF := ⟨.syn, 0x600, 1, 1, false⟩
def F.SYN_EVT_SYN0 : KF := ⟨.syn, 0x600, 0, 1, false⟩
/-- GNSS.CTL. -/
def GNSS_CTL : Nat := 0x0
def F.GNSS_CTL_COMMIT : KF := ⟨.gnss, 0x0, 31, 1, false⟩
def F.GNSS_CTL_CERR : KF := ⟨.gnss, 0x0, 30, 1, false⟩
def F.GNSS_CTL_LOCK : KF := ⟨.gnss, 0x0, 29, 1, false⟩
/-- GNSS.FE_CFG. -/
def GNSS_FE_CFG : Nat := 0x4
def F.GNSS_FE_CFG_EN : KF := ⟨.gnss, 0x4, 31, 1, true⟩
def F.GNSS_FE_CFG_RATE : KF := ⟨.gnss, 0x4, 29, 2, true⟩
def F.GNSS_FE_CFG_CLKOUT : KF := ⟨.gnss, 0x4, 26, 3, true⟩
def F.GNSS_FE_CFG_GPS_EN : KF := ⟨.gnss, 0x4, 25, 1, true⟩
def F.GNSS_FE_CFG_GAL_EN : KF := ⟨.gnss, 0x4, 24, 1, true⟩
/-- GNSS.FE_IF. -/
def GNSS_FE_IF : Nat := 0x8
def F.GNSS_FE_IF_IF : KF := ⟨.gnss, 0x8, 0, 32, true⟩
/-- GNSS.LINK_STAT. -/
def GNSS_LINK_STAT : Nat := 0xC
def F.GNSS_LINK_STAT_STATE : KF := ⟨.gnss, 0xC, 30, 2, false⟩
def F.GNSS_LINK_STAT_RATE_ERR : KF := ⟨.gnss, 0xC, 29, 1, false⟩
def F.GNSS_LINK_STAT_FE_LOCK : KF := ⟨.gnss, 0xC, 28, 1, false⟩
def F.GNSS_LINK_STAT_OVLD : KF := ⟨.gnss, 0xC, 27, 1, false⟩
def F.GNSS_LINK_STAT_AGC : KF := ⟨.gnss, 0xC, 16, 8, false⟩
def F.GNSS_LINK_STAT_CRC_ERR : KF := ⟨.gnss, 0xC, 0, 16, false⟩
/-- GNSS.BC_CMD. -/
def GNSS_BC_CMD : Nat := 0x10
def F.GNSS_BC_CMD_GO : KF := ⟨.gnss, 0x10, 31, 1, false⟩
def F.GNSS_BC_CMD_OP : KF := ⟨.gnss, 0x10, 24, 2, false⟩
def F.GNSS_BC_CMD_ADDR : KF := ⟨.gnss, 0x10, 0, 16, false⟩
/-- GNSS.BC_DATA. -/
def GNSS_BC_DATA : Nat := 0x14
def F.GNSS_BC_DATA_DATA : KF := ⟨.gnss, 0x14, 0, 32, false⟩
/-- GNSS.BC_STAT. -/
def GNSS_BC_STAT : Nat := 0x18
def F.GNSS_BC_STAT_BUSY : KF := ⟨.gnss, 0x18, 31, 1, false⟩
def F.GNSS_BC_STAT_DONE : KF := ⟨.gnss, 0x18, 30, 1, false⟩
def F.GNSS_BC_STAT_ERR : KF := ⟨.gnss, 0x18, 29, 1, false⟩
def F.GNSS_BC_STAT_TOUT : KF := ⟨.gnss, 0x18, 28, 1, false⟩
/-- GNSS.BC_RDATA. -/
def GNSS_BC_RDATA : Nat := 0x1C
def F.GNSS_BC_RDATA_RDATA : KF := ⟨.gnss, 0x1C, 0, 32, false⟩
/-- GNSS.TRK_CFG. -/
def GNSS_TRK_CFG : Nat := 0x20
def F.GNSS_TRK_CFG_DISC : KF := ⟨.gnss, 0x20, 30, 2, true⟩
def F.GNSS_TRK_CFG_MIN_CN0 : KF := ⟨.gnss, 0x20, 24, 6, true⟩
def F.GNSS_TRK_CFG_MIN_SV : KF := ⟨.gnss, 0x20, 20, 4, true⟩
def F.GNSS_TRK_CFG_MASK : KF := ⟨.gnss, 0x20, 8, 7, true⟩
/-- GNSS.SPC_GPS. -/
def GNSS_SPC_GPS : Nat := 0x24
def F.GNSS_SPC_GPS_D2 : KF := ⟨.gnss, 0x24, 16, 7, true⟩
def F.GNSS_SPC_GPS_D1 : KF := ⟨.gnss, 0x24, 8, 7, true⟩
def F.GNSS_SPC_GPS_DMP : KF := ⟨.gnss, 0x24, 0, 7, true⟩
/-- GNSS.SPC_GAL. -/
def GNSS_SPC_GAL : Nat := 0x28
def F.GNSS_SPC_GAL_D2 : KF := ⟨.gnss, 0x28, 16, 7, true⟩
def F.GNSS_SPC_GAL_D1 : KF := ⟨.gnss, 0x28, 8, 7, true⟩
def F.GNSS_SPC_GAL_DMP : KF := ⟨.gnss, 0x28, 0, 7, true⟩
/-- GNSS.BUD. -/
def GNSS_BUD : Nat := 0x2C
def F.GNSS_BUD_IONO_FLOOR : KF := ⟨.gnss, 0x2C, 16, 16, true⟩
def F.GNSS_BUD_TROPO_FLOOR : KF := ⟨.gnss, 0x2C, 0, 16, true⟩
/-- GNSS.GGTO_BUD. -/
def GNSS_GGTO_BUD : Nat := 0x30
def F.GNSS_GGTO_BUD_GGTO_BUD : KF := ⟨.gnss, 0x30, 0, 32, true⟩
/-- GNSS.CDLY. -/
def GNSS_CDLY : Nat := 0x34
def F.GNSS_CDLY_CDLY : KF := ⟨.gnss, 0x34, 0, 32, true⟩
/-- GNSS.CBUD. -/
def GNSS_CBUD : Nat := 0x38
def F.GNSS_CBUD_CBUD : KF := ⟨.gnss, 0x38, 0, 32, true⟩
/-- GNSS.JAM_CFG. -/
def GNSS_JAM_CFG : Nat := 0x3C
def F.GNSS_JAM_CFG_WARN : KF := ⟨.gnss, 0x3C, 24, 8, true⟩
def F.GNSS_JAM_CFG_ALARM : KF := ⟨.gnss, 0x3C, 16, 8, true⟩
def F.GNSS_JAM_CFG_THR : KF := ⟨.gnss, 0x3C, 8, 8, true⟩
def F.GNSS_JAM_CFG_FLOOR : KF := ⟨.gnss, 0x3C, 0, 8, false⟩
/-- GNSS.JAM_STAT. -/
def GNSS_JAM_STAT : Nat := 0x40
def F.GNSS_JAM_STAT_JNI : KF := ⟨.gnss, 0x40, 24, 8, false⟩
def F.GNSS_JAM_STAT_JNI_MAX : KF := ⟨.gnss, 0x40, 16, 8, false⟩
def F.GNSS_JAM_STAT_FCAP : KF := ⟨.gnss, 0x40, 0, 1, false⟩
/-- GNSS.NOTCH_CFG. -/
def GNSS_NOTCH_CFG (n : Nat) : Nat := 0xA0 + 0x8 * n
def F.GNSS_NOTCH_CFG_EN (n : Nat) : KF := ⟨.gnss, 0xA0 + 0x8 * n, 31, 1, true⟩
def F.GNSS_NOTCH_CFG_MODE (n : Nat) : KF := ⟨.gnss, 0xA0 + 0x8 * n, 30, 1, true⟩
def F.GNSS_NOTCH_CFG_FREQ (n : Nat) : KF := ⟨.gnss, 0xA0 + 0x8 * n, 0, 27, true⟩
/-- GNSS.NOTCH_STAT. -/
def GNSS_NOTCH_STAT (n : Nat) : Nat := 0xA4 + 0x8 * n
def F.GNSS_NOTCH_STAT_STATE (n : Nat) : KF := ⟨.gnss, 0xA4 + 0x8 * n, 30, 2, false⟩
def F.GNSS_NOTCH_STAT_FREQ (n : Nat) : KF := ⟨.gnss, 0xA4 + 0x8 * n, 0, 27, false⟩
/-- GNSS.POS_LO. -/
def GNSS_POS_LO (n : Nat) : Nat := 0x60 + 0x8 * n
def F.GNSS_POS_LO_LO (n : Nat) : KF := ⟨.gnss, 0x60 + 0x8 * n, 0, 32, false⟩
/-- GNSS.POS_HI. -/
def GNSS_POS_HI (n : Nat) : Nat := 0x64 + 0x8 * n
def F.GNSS_POS_HI_HI (n : Nat) : KF := ⟨.gnss, 0x64 + 0x8 * n, 0, 32, false⟩
/-- GNSS.POS_BND. -/
def GNSS_POS_BND : Nat := 0x78
def F.GNSS_POS_BND_BND : KF := ⟨.gnss, 0x78, 0, 32, false⟩
/-- GNSS.POS_CTL. -/
def GNSS_POS_CTL : Nat := 0x7C
def F.GNSS_POS_CTL_SET : KF := ⟨.gnss, 0x7C, 31, 1, false⟩
def F.GNSS_POS_CTL_CLR : KF := ⟨.gnss, 0x7C, 30, 1, false⟩
def F.GNSS_POS_CTL_MODE : KF := ⟨.gnss, 0x7C, 0, 2, false⟩
/-- GNSS.SURV_CFG. -/
def GNSS_SURV_CFG : Nat := 0x80
def F.GNSS_SURV_CFG_MIN_FIX : KF := ⟨.gnss, 0x80, 16, 16, false⟩
def F.GNSS_SURV_CFG_POS_LIM : KF := ⟨.gnss, 0x80, 0, 16, false⟩
/-- GNSS.SURV_MARGIN. -/
def GNSS_SURV_MARGIN : Nat := 0x84
def F.GNSS_SURV_MARGIN_POS_MARGIN : KF := ⟨.gnss, 0x84, 0, 32, false⟩
/-- GNSS.SURV_STAT. -/
def GNSS_SURV_STAT : Nat := 0x88
def F.GNSS_SURV_STAT_FIXES : KF := ⟨.gnss, 0x88, 16, 16, false⟩
def F.GNSS_SURV_STAT_SPREAD : KF := ⟨.gnss, 0x88, 0, 16, false⟩
/-- GNSS.SOL_STAT. -/
def GNSS_SOL_STAT : Nat := 0x8C
def F.GNSS_SOL_STAT_USED : KF := ⟨.gnss, 0x8C, 26, 6, false⟩
def F.GNSS_SOL_STAT_EXCL : KF := ⟨.gnss, 0x8C, 20, 6, false⟩
def F.GNSS_SOL_STAT_NOTCH_N : KF := ⟨.gnss, 0x8C, 16, 3, false⟩
/-- GNSS.SOL_TEB. -/
def GNSS_SOL_TEB : Nat := 0x90
def F.GNSS_SOL_TEB_W : KF := ⟨.gnss, 0x90, 0, 32, false⟩
/-- GNSS.EVT. -/
def GNSS_EVT : Nat := 0x94
def F.GNSS_EVT_UTCD : KF := ⟨.gnss, 0x94, 8, 1, false⟩
def F.GNSS_EVT_SNAP : KF := ⟨.gnss, 0x94, 7, 1, false⟩
def F.GNSS_EVT_SURV : KF := ⟨.gnss, 0x94, 6, 1, false⟩
def F.GNSS_EVT_POS : KF := ⟨.gnss, 0x94, 5, 1, false⟩
def F.GNSS_EVT_EXCL : KF := ⟨.gnss, 0x94, 4, 1, false⟩
def F.GNSS_EVT_NOTCH : KF := ⟨.gnss, 0x94, 3, 1, false⟩
def F.GNSS_EVT_JALARM : KF := ⟨.gnss, 0x94, 2, 1, false⟩
def F.GNSS_EVT_JWARN : KF := ⟨.gnss, 0x94, 1, 1, false⟩
def F.GNSS_EVT_LINK : KF := ⟨.gnss, 0x94, 0, 1, false⟩
/-- GNSS.TRK_STAT. -/
def GNSS_TRK_STAT (n : Nat) : Nat := 0x100 + 0x4 * n
def F.GNSS_TRK_STAT_STATE (n : Nat) : KF := ⟨.gnss, 0x100 + 0x4 * n, 29, 3, false⟩
def F.GNSS_TRK_STAT_SYS (n : Nat) : KF := ⟨.gnss, 0x100 + 0x4 * n, 28, 1, false⟩
def F.GNSS_TRK_STAT_SV (n : Nat) : KF := ⟨.gnss, 0x100 + 0x4 * n, 22, 6, false⟩
def F.GNSS_TRK_STAT_CN0 (n : Nat) : KF := ⟨.gnss, 0x100 + 0x4 * n, 16, 6, false⟩
def F.GNSS_TRK_STAT_USED (n : Nat) : KF := ⟨.gnss, 0x100 + 0x4 * n, 15, 1, false⟩
def F.GNSS_TRK_STAT_EXCL (n : Nat) : KF := ⟨.gnss, 0x100 + 0x4 * n, 14, 1, false⟩
def F.GNSS_TRK_STAT_MPM (n : Nat) : KF := ⟨.gnss, 0x100 + 0x4 * n, 0, 12, false⟩
/-- GNSS.SNAP_CTL. -/
def GNSS_SNAP_CTL : Nat := 0x200
def F.GNSS_SNAP_CTL_GO : KF := ⟨.gnss, 0x200, 31, 1, false⟩
def F.GNSS_SNAP_CTL_AT : KF := ⟨.gnss, 0x200, 30, 1, false⟩
def F.GNSS_SNAP_CTL_LEN : KF := ⟨.gnss, 0x200, 0, 7, false⟩
/-- GNSS.SNAP_T0. -/
def GNSS_SNAP_T0 (n : Nat) : Nat := 0x204 + 0x4 * n
def F.GNSS_SNAP_T0_T0 (n : Nat) : KF := ⟨.gnss, 0x204 + 0x4 * n, 0, 32, false⟩
/-- GNSS.SNAP_STAT. -/
def GNSS_SNAP_STAT : Nat := 0x214
def F.GNSS_SNAP_STAT_STATE : KF := ⟨.gnss, 0x214, 29, 3, false⟩
def F.GNSS_SNAP_STAT_BUSY : KF := ⟨.gnss, 0x214, 28, 1, false⟩
def F.GNSS_SNAP_STAT_ERASED : KF := ⟨.gnss, 0x214, 0, 16, false⟩
/-- PORT.CTL. -/
def PORT_CTL : Nat := 0x0
def F.PORT_CTL_COMMIT : KF := ⟨.port, 0x0, 31, 1, false⟩
def F.PORT_CTL_CERR : KF := ⟨.port, 0x0, 30, 1, false⟩
def F.PORT_CTL_LOCK : KF := ⟨.port, 0x0, 29, 1, false⟩
def F.PORT_CTL_TC_EN : KF := ⟨.port, 0x0, 28, 1, true⟩
def F.PORT_CTL_TNK : KF := ⟨.port, 0x0, 26, 2, true⟩
/-- PORT.P_CFG. -/
def PORT_P_CFG (n : Nat) : Nat := 0x100 + 0x100 * n
def F.PORT_P_CFG_EN (n : Nat) : KF := ⟨.port, 0x100 + 0x100 * n, 31, 1, true⟩
def F.PORT_P_CFG_MODE (n : Nat) : KF := ⟨.port, 0x100 + 0x100 * n, 28, 3, true⟩
def F.PORT_P_CFG_FEC (n : Nat) : KF := ⟨.port, 0x100 + 0x100 * n, 26, 2, true⟩
def F.PORT_P_CFG_AN_EN (n : Nat) : KF := ⟨.port, 0x100 + 0x100 * n, 25, 1, true⟩
def F.PORT_P_CFG_LT_EN (n : Nat) : KF := ⟨.port, 0x100 + 0x100 * n, 24, 1, true⟩
def F.PORT_P_CFG_ONE_STEP (n : Nat) : KF := ⟨.port, 0x100 + 0x100 * n, 23, 1, true⟩
def F.PORT_P_CFG_TXCLK (n : Nat) : KF := ⟨.port, 0x100 + 0x100 * n, 22, 1, true⟩
def F.PORT_P_CFG_MAXF (n : Nat) : KF := ⟨.port, 0x100 + 0x100 * n, 0, 14, true⟩
/-- PORT.P_ADV. -/
def PORT_P_ADV (n : Nat) : Nat := 0x104 + 0x100 * n
def F.PORT_P_ADV_ABIL (n : Nat) : KF := ⟨.port, 0x104 + 0x100 * n, 0, 7, true⟩
/-- PORT.P_STAT. -/
def PORT_P_STAT (n : Nat) : Nat := 0x108 + 0x100 * n
def F.PORT_P_STAT_LINK (n : Nat) : KF := ⟨.port, 0x108 + 0x100 * n, 29, 3, false⟩
def F.PORT_P_STAT_RMODE (n : Nat) : KF := ⟨.port, 0x108 + 0x100 * n, 26, 3, false⟩
def F.PORT_P_STAT_RFEC (n : Nat) : KF := ⟨.port, 0x108 + 0x100 * n, 24, 2, false⟩
def F.PORT_P_STAT_LAT_VALID (n : Nat) : KF := ⟨.port, 0x108 + 0x100 * n, 23, 1, false⟩
def F.PORT_P_STAT_FLAPS (n : Nat) : KF := ⟨.port, 0x108 + 0x100 * n, 0, 16, false⟩
/-- PORT.P_RXLAT. -/
def PORT_P_RXLAT (n : Nat) : Nat := 0x10C + 0x100 * n
def F.PORT_P_RXLAT_RXLAT (n : Nat) : KF := ⟨.port, 0x10C + 0x100 * n, 0, 32, false⟩
/-- PORT.P_TXLAT. -/
def PORT_P_TXLAT (n : Nat) : Nat := 0x110 + 0x100 * n
def F.PORT_P_TXLAT_TXLAT (n : Nat) : KF := ⟨.port, 0x110 + 0x100 * n, 0, 32, false⟩
/-- PORT.P_ING_CAL. -/
def PORT_P_ING_CAL (n : Nat) : Nat := 0x114 + 0x100 * n
def F.PORT_P_ING_CAL_ING_CAL (n : Nat) : KF := ⟨.port, 0x114 + 0x100 * n, 0, 32, true⟩
/-- PORT.P_EGR_CAL. -/
def PORT_P_EGR_CAL (n : Nat) : Nat := 0x118 + 0x100 * n
def F.PORT_P_EGR_CAL_EGR_CAL (n : Nat) : KF := ⟨.port, 0x118 + 0x100 * n, 0, 32, true⟩
/-- PORT.P_ING_BUD. -/
def PORT_P_ING_BUD (n : Nat) : Nat := 0x11C + 0x100 * n
def F.PORT_P_ING_BUD_ING_BUD (n : Nat) : KF := ⟨.port, 0x11C + 0x100 * n, 0, 32, true⟩
/-- PORT.P_EGR_BUD. -/
def PORT_P_EGR_BUD (n : Nat) : Nat := 0x120 + 0x100 * n
def F.PORT_P_EGR_BUD_EGR_BUD (n : Nat) : KF := ⟨.port, 0x120 + 0x100 * n, 0, 32, true⟩
/-- PORT.P_ASYM. -/
def PORT_P_ASYM (n : Nat) : Nat := 0x124 + 0x100 * n
def F.PORT_P_ASYM_ASYM (n : Nat) : KF := ⟨.port, 0x124 + 0x100 * n, 0, 32, true⟩
/-- PORT.P_ASYM_BUD. -/
def PORT_P_ASYM_BUD (n : Nat) : Nat := 0x128 + 0x100 * n
def F.PORT_P_ASYM_BUD_ASYM_BUD (n : Nat) : KF := ⟨.port, 0x128 + 0x100 * n, 0, 32, true⟩
/-- PORT.P_SBUD. -/
def PORT_P_SBUD (n : Nat) : Nat := 0x12C + 0x100 * n
def F.PORT_P_SBUD_SBUD (n : Nat) : KF := ⟨.port, 0x12C + 0x100 * n, 0, 32, true⟩
/-- PORT.P_ESMC. -/
def PORT_P_ESMC (n : Nat) : Nat := 0x130 + 0x100 * n
def F.PORT_P_ESMC_RX_EN (n : Nat) : KF := ⟨.port, 0x130 + 0x100 * n, 31, 1, true⟩
def F.PORT_P_ESMC_TX_EN (n : Nat) : KF := ⟨.port, 0x130 + 0x100 * n, 30, 1, true⟩
def F.PORT_P_ESMC_QL_GATE (n : Nat) : KF := ⟨.port, 0x130 + 0x100 * n, 29, 1, true⟩
def F.PORT_P_ESMC_QL_TRK (n : Nat) : KF := ⟨.port, 0x130 + 0x100 * n, 12, 4, true⟩
def F.PORT_P_ESMC_QL_HOLD (n : Nat) : KF := ⟨.port, 0x130 + 0x100 * n, 8, 4, true⟩
def F.PORT_P_ESMC_QL_FREE (n : Nat) : KF := ⟨.port, 0x130 + 0x100 * n, 4, 4, true⟩
def F.PORT_P_ESMC_QL_DNU (n : Nat) : KF := ⟨.port, 0x130 + 0x100 * n, 0, 4, true⟩
/-- PORT.P_ESMC_STAT. -/
def PORT_P_ESMC_STAT (n : Nat) : Nat := 0x134 + 0x100 * n
def F.PORT_P_ESMC_STAT_QL_LOST (n : Nat) : KF := ⟨.port, 0x134 + 0x100 * n, 31, 1, false⟩
def F.PORT_P_ESMC_STAT_RX_QL (n : Nat) : KF := ⟨.port, 0x134 + 0x100 * n, 0, 4, false⟩
/-- PORT.P_TSR_WPTR. -/
def PORT_P_TSR_WPTR (n : Nat) : Nat := 0x138 + 0x100 * n
def F.PORT_P_TSR_WPTR_WPTR (n : Nat) : KF := ⟨.port, 0x138 + 0x100 * n, 0, 10, false⟩
/-- PORT.P_TSR_RPTR. -/
def PORT_P_TSR_RPTR (n : Nat) : Nat := 0x13C + 0x100 * n
def F.PORT_P_TSR_RPTR_RPTR (n : Nat) : KF := ⟨.port, 0x13C + 0x100 * n, 0, 10, false⟩
/-- PORT.P_CNT0. -/
def PORT_P_CNT0 (n : Nat) : Nat := 0x140 + 0x100 * n
def F.PORT_P_CNT0_TSR_OVF (n : Nat) : KF := ⟨.port, 0x140 + 0x100 * n, 16, 16, false⟩
def F.PORT_P_CNT0_NOTEXP (n : Nat) : KF := ⟨.port, 0x140 + 0x100 * n, 0, 16, false⟩
/-- PORT.P_CNT1. -/
def PORT_P_CNT1 (n : Nat) : Nat := 0x144 + 0x100 * n
def F.PORT_P_CNT1_TR_DROP (n : Nat) : KF := ⟨.port, 0x144 + 0x100 * n, 16, 16, false⟩
def F.PORT_P_CNT1_LINK_DROP (n : Nat) : KF := ⟨.port, 0x144 + 0x100 * n, 0, 16, false⟩
/-- PORT.P_CNT2. -/
def PORT_P_CNT2 (n : Nat) : Nat := 0x148 + 0x100 * n
def F.PORT_P_CNT2_OVERSIZE_RX (n : Nat) : KF := ⟨.port, 0x148 + 0x100 * n, 16, 16, false⟩
def F.PORT_P_CNT2_PAUSE_RX (n : Nat) : KF := ⟨.port, 0x148 + 0x100 * n, 0, 16, false⟩
/-- PORT.P_EVT. -/
def PORT_P_EVT (n : Nat) : Nat := 0x14C + 0x100 * n
def F.PORT_P_EVT_TXF_CLAMP (n : Nat) : KF := ⟨.port, 0x14C + 0x100 * n, 7, 1, false⟩
def F.PORT_P_EVT_NOTEXP (n : Nat) : KF := ⟨.port, 0x14C + 0x100 * n, 6, 1, false⟩
def F.PORT_P_EVT_TSR_OVF (n : Nat) : KF := ⟨.port, 0x14C + 0x100 * n, 5, 1, false⟩
def F.PORT_P_EVT_QL (n : Nat) : KF := ⟨.port, 0x14C + 0x100 * n, 4, 1, false⟩
def F.PORT_P_EVT_LT_FAIL (n : Nat) : KF := ⟨.port, 0x14C + 0x100 * n, 3, 1, false⟩
def F.PORT_P_EVT_AN_NOCOMMON (n : Nat) : KF := ⟨.port, 0x14C + 0x100 * n, 2, 1, false⟩
def F.PORT_P_EVT_LAT (n : Nat) : KF := ⟨.port, 0x14C + 0x100 * n, 1, 1, false⟩
def F.PORT_P_EVT_LINK (n : Nat) : KF := ⟨.port, 0x14C + 0x100 * n, 0, 1, false⟩
/-- SCHED.CTL. -/
def SCHED_CTL : Nat := 0x0
def F.SCHED_CTL_COMMIT : KF := ⟨.sched, 0x0, 31, 1, false⟩
def F.SCHED_CTL_CERR : KF := ⟨.sched, 0x0, 30, 1, false⟩
def F.SCHED_CTL_LOCK : KF := ⟨.sched, 0x0, 29, 1, false⟩
/-- SCHED.EVT. -/
def SCHED_EVT : Nat := 0x4
def F.SCHED_EVT_GSWAP : KF := ⟨.sched, 0x4, 4, 1, false⟩
def F.SCHED_EVT_OVSZ : KF := ⟨.sched, 0x4, 3, 1, false⟩
def F.SCHED_EVT_FULL : KF := ⟨.sched, 0x4, 2, 1, false⟩
def F.SCHED_EVT_FLUSH : KF := ⟨.sched, 0x4, 1, 1, false⟩
def F.SCHED_EVT_POL_ERR : KF := ⟨.sched, 0x4, 0, 1, false⟩
/-- SCHED.POL_IDX. -/
def SCHED_POL_IDX : Nat := 0x10
def F.SCHED_POL_IDX_INDEX : KF := ⟨.sched, 0x10, 0, 18, false⟩
/-- SCHED.POL_CIR_LO. -/
def SCHED_POL_CIR_LO : Nat := 0x14
def F.SCHED_POL_CIR_LO_RATE_LO : KF := ⟨.sched, 0x14, 0, 32, false⟩
/-- SCHED.POL_CIR_HI. -/
def SCHED_POL_CIR_HI : Nat := 0x18
def F.SCHED_POL_CIR_HI_RATE_HI : KF := ⟨.sched, 0x18, 0, 32, false⟩
/-- SCHED.POL_PIR_LO. -/
def SCHED_POL_PIR_LO : Nat := 0x1C
def F.SCHED_POL_PIR_LO_RATE_LO : KF := ⟨.sched, 0x1C, 0, 32, false⟩
/-- SCHED.POL_PIR_HI. -/
def SCHED_POL_PIR_HI : Nat := 0x20
def F.SCHED_POL_PIR_HI_RATE_HI : KF := ⟨.sched, 0x20, 0, 32, false⟩
/-- SCHED.POL_CBS. -/
def SCHED_POL_CBS : Nat := 0x24
def F.SCHED_POL_CBS_BURST : KF := ⟨.sched, 0x24, 0, 32, false⟩
/-- SCHED.POL_PBS. -/
def SCHED_POL_PBS : Nat := 0x28
def F.SCHED_POL_PBS_BURST : KF := ⟨.sched, 0x28, 0, 32, false⟩
/-- SCHED.POL_CMD. -/
def SCHED_POL_CMD : Nat := 0x2C
def F.SCHED_POL_CMD_GO : KF := ⟨.sched, 0x2C, 31, 1, false⟩
def F.SCHED_POL_CMD_ERR : KF := ⟨.sched, 0x2C, 30, 1, false⟩
def F.SCHED_POL_CMD_VALID : KF := ⟨.sched, 0x2C, 29, 1, false⟩
def F.SCHED_POL_CMD_UNIT : KF := ⟨.sched, 0x2C, 28, 1, false⟩
/-- SCHED.P_GCFG. -/
def SCHED_P_GCFG (n : Nat) : Nat := 0x100 + 0x80 * n
def F.SCHED_P_GCFG_GATE_EN (n : Nat) : KF := ⟨.sched, 0x100 + 0x80 * n, 31, 1, true⟩
def F.SCHED_P_GCFG_GLEAD (n : Nat) : KF := ⟨.sched, 0x100 + 0x80 * n, 0, 16, true⟩
/-- SCHED.P_GCMD. -/
def SCHED_P_GCMD (n : Nat) : Nat := 0x104 + 0x80 * n
def F.SCHED_P_GCMD_SWAP (n : Nat) : KF := ⟨.sched, 0x104 + 0x80 * n, 31, 1, false⟩
def F.SCHED_P_GCMD_CANCEL (n : Nat) : KF := ⟨.sched, 0x104 + 0x80 * n, 30, 1, false⟩
def F.SCHED_P_GCMD_PEND (n : Nat) : KF := ⟨.sched, 0x104 + 0x80 * n, 29, 1, false⟩
def F.SCHED_P_GCMD_GERR (n : Nat) : KF := ⟨.sched, 0x104 + 0x80 * n, 28, 1, false⟩
def F.SCHED_P_GCMD_GBUSY (n : Nat) : KF := ⟨.sched, 0x104 + 0x80 * n, 27, 1, false⟩
def F.SCHED_P_GCMD_A_LEN (n : Nat) : KF := ⟨.sched, 0x104 + 0x80 * n, 0, 9, false⟩
/-- SCHED.P_A_CYCLE. -/
def SCHED_P_A_CYCLE (n : Nat) : Nat := 0x108 + 0x80 * n
def F.SCHED_P_A_CYCLE_CYCLE (n : Nat) : KF := ⟨.sched, 0x108 + 0x80 * n, 0, 30, false⟩
/-- SCHED.P_A_BASE. -/
def SCHED_P_A_BASE (n : Nat) (m : Nat) : Nat := 0x10C + 0x80 * n + 0x4 * m
def F.SCHED_P_A_BASE_BASE (n : Nat) (m : Nat) : KF := ⟨.sched, 0x10C + 0x80 * n + 0x4 * m, 0, 32, false⟩
/-- SCHED.P_GSTAT. -/
def SCHED_P_GSTAT (n : Nat) : Nat := 0x11C + 0x80 * n
def F.SCHED_P_GSTAT_OPER_VALID (n : Nat) : KF := ⟨.sched, 0x11C + 0x80 * n, 31, 1, false⟩
def F.SCHED_P_GSTAT_BANK (n : Nat) : KF := ⟨.sched, 0x11C + 0x80 * n, 30, 1, false⟩
def F.SCHED_P_GSTAT_O_LEN (n : Nat) : KF := ⟨.sched, 0x11C + 0x80 * n, 16, 9, false⟩
def F.SCHED_P_GSTAT_ENTRY (n : Nat) : KF := ⟨.sched, 0x11C + 0x80 * n, 0, 8, false⟩
/-- SCHED.P_O_CYCLE. -/
def SCHED_P_O_CYCLE (n : Nat) : Nat := 0x120 + 0x80 * n
def F.SCHED_P_O_CYCLE_CYCLE (n : Nat) : KF := ⟨.sched, 0x120 + 0x80 * n, 0, 32, false⟩
/-- SCHED.P_O_BASE. -/
def SCHED_P_O_BASE (n : Nat) (m : Nat) : Nat := 0x124 + 0x80 * n + 0x4 * m
def F.SCHED_P_O_BASE_BASE (n : Nat) (m : Nat) : KF := ⟨.sched, 0x124 + 0x80 * n + 0x4 * m, 0, 32, false⟩
/-- SCHED.P_SWAP_T. -/
def SCHED_P_SWAP_T (n : Nat) (m : Nat) : Nat := 0x134 + 0x80 * n + 0x4 * m
def F.SCHED_P_SWAP_T_T (n : Nat) (m : Nat) : KF := ⟨.sched, 0x134 + 0x80 * n + 0x4 * m, 0, 32, false⟩
/-- SCHED.P_SAMP. -/
def SCHED_P_SAMP (n : Nat) : Nat := 0x144 + 0x80 * n
def F.SCHED_P_SAMP_EN (n : Nat) : KF := ⟨.sched, 0x144 + 0x80 * n, 31, 1, true⟩
def F.SCHED_P_SAMP_PER (n : Nat) : KF := ⟨.sched, 0x144 + 0x80 * n, 0, 16, true⟩
/-- SCHED.P_SMASK_LO. -/
def SCHED_P_SMASK_LO (n : Nat) : Nat := 0x148 + 0x80 * n
def F.SCHED_P_SMASK_LO_MASK (n : Nat) : KF := ⟨.sched, 0x148 + 0x80 * n, 0, 32, true⟩
/-- SCHED.P_SMASK_HI. -/
def SCHED_P_SMASK_HI (n : Nat) : Nat := 0x14C + 0x80 * n
def F.SCHED_P_SMASK_HI_MASK (n : Nat) : KF := ⟨.sched, 0x14C + 0x80 * n, 0, 32, true⟩
/-- SCHED.Q_CFG. -/
def SCHED_Q_CFG (n : Nat) (m : Nat) : Nat := 0x1000 + 0x800 * n + 0x20 * m
def F.SCHED_Q_CFG_EN (n : Nat) (m : Nat) : KF := ⟨.sched, 0x1000 + 0x800 * n + 0x20 * m, 31, 1, true⟩
def F.SCHED_Q_CFG_PRIO (n : Nat) (m : Nat) : KF := ⟨.sched, 0x1000 + 0x800 * n + 0x20 * m, 28, 3, true⟩
def F.SCHED_Q_CFG_WEIGHT (n : Nat) (m : Nat) : KF := ⟨.sched, 0x1000 + 0x800 * n + 0x20 * m, 16, 8, true⟩
def F.SCHED_Q_CFG_QLIM (n : Nat) (m : Nat) : KF := ⟨.sched, 0x1000 + 0x800 * n + 0x20 * m, 0, 13, true⟩
/-- SCHED.Q_SRATE_LO. -/
def SCHED_Q_SRATE_LO (n : Nat) (m : Nat) : Nat := 0x1004 + 0x800 * n + 0x20 * m
def F.SCHED_Q_SRATE_LO_RATE_LO (n : Nat) (m : Nat) : KF := ⟨.sched, 0x1004 + 0x800 * n + 0x20 * m, 0, 32, true⟩
/-- SCHED.Q_SRATE_HI. -/
def SCHED_Q_SRATE_HI (n : Nat) (m : Nat) : Nat := 0x1008 + 0x800 * n + 0x20 * m
def F.SCHED_Q_SRATE_HI_RATE_HI (n : Nat) (m : Nat) : KF := ⟨.sched, 0x1008 + 0x800 * n + 0x20 * m, 0, 8, true⟩
/-- SCHED.Q_SBURST. -/
def SCHED_Q_SBURST (n : Nat) (m : Nat) : Nat := 0x100C + 0x800 * n + 0x20 * m
def F.SCHED_Q_SBURST_BURST (n : Nat) (m : Nat) : KF := ⟨.sched, 0x100C + 0x800 * n + 0x20 * m, 0, 24, true⟩
/-- SCHED.Q_STAT. -/
def SCHED_Q_STAT (n : Nat) (m : Nat) : Nat := 0x1010 + 0x800 * n + 0x20 * m
def F.SCHED_Q_STAT_DEPTH (n : Nat) (m : Nat) : KF := ⟨.sched, 0x1010 + 0x800 * n + 0x20 * m, 16, 13, false⟩
def F.SCHED_Q_STAT_GATE (n : Nat) (m : Nat) : KF := ⟨.sched, 0x1010 + 0x800 * n + 0x20 * m, 15, 1, false⟩
def F.SCHED_Q_STAT_DEBT (n : Nat) (m : Nat) : KF := ⟨.sched, 0x1010 + 0x800 * n + 0x20 * m, 14, 1, false⟩
/-- SCHED.Q_LEVEL. -/
def SCHED_Q_LEVEL (n : Nat) (m : Nat) : Nat := 0x1014 + 0x800 * n + 0x20 * m
def F.SCHED_Q_LEVEL_LEVEL (n : Nat) (m : Nat) : KF := ⟨.sched, 0x1014 + 0x800 * n + 0x20 * m, 0, 32, false⟩
/-- SCHED.Q_CNT0. -/
def SCHED_Q_CNT0 (n : Nat) (m : Nat) : Nat := 0x1018 + 0x800 * n + 0x20 * m
def F.SCHED_Q_CNT0_DROP_FULL (n : Nat) (m : Nat) : KF := ⟨.sched, 0x1018 + 0x800 * n + 0x20 * m, 16, 16, false⟩
def F.SCHED_Q_CNT0_OVERSIZE_FOR_GATE (n : Nat) (m : Nat) : KF := ⟨.sched, 0x1018 + 0x800 * n + 0x20 * m, 0, 16, false⟩
/-- SCHED.Q_CNT1. -/
def SCHED_Q_CNT1 (n : Nat) (m : Nat) : Nat := 0x101C + 0x800 * n + 0x20 * m
def F.SCHED_Q_CNT1_FLUSH (n : Nat) (m : Nat) : KF := ⟨.sched, 0x101C + 0x800 * n + 0x20 * m, 16, 16, false⟩
def F.SCHED_Q_CNT1_COMMIT (n : Nat) (m : Nat) : KF := ⟨.sched, 0x101C + 0x800 * n + 0x20 * m, 0, 16, false⟩
/-- SCHED.GCL_MASK_LO. -/
def SCHED_GCL_MASK_LO (n : Nat) (m : Nat) (k : Nat) : Nat := 0x4000 + 0x2000 * n + 0x1000 * m + 0x10 * k
def F.SCHED_GCL_MASK_LO_MASK_LO (n : Nat) (m : Nat) (k : Nat) : KF := ⟨.sched, 0x4000 + 0x2000 * n + 0x1000 * m + 0x10 * k, 0, 32, false⟩
/-- SCHED.GCL_MASK_HI. -/
def SCHED_GCL_MASK_HI (n : Nat) (m : Nat) (k : Nat) : Nat := 0x4004 + 0x2000 * n + 0x1000 * m + 0x10 * k
def F.SCHED_GCL_MASK_HI_MASK_HI (n : Nat) (m : Nat) (k : Nat) : KF := ⟨.sched, 0x4004 + 0x2000 * n + 0x1000 * m + 0x10 * k, 0, 32, false⟩
/-- SCHED.GCL_INT. -/
def SCHED_GCL_INT (n : Nat) (m : Nat) (k : Nat) : Nat := 0x4008 + 0x2000 * n + 0x1000 * m + 0x10 * k
def F.SCHED_GCL_INT_INTERVAL (n : Nat) (m : Nat) (k : Nat) : KF := ⟨.sched, 0x4008 + 0x2000 * n + 0x1000 * m + 0x10 * k, 0, 30, false⟩
/-- SEAL.CTL. -/
def SEAL_CTL : Nat := 0x0
def F.SEAL_CTL_COMMIT : KF := ⟨.sealb, 0x0, 31, 1, false⟩
def F.SEAL_CTL_CERR : KF := ⟨.sealb, 0x0, 30, 1, false⟩
def F.SEAL_CTL_LOCK : KF := ⟨.sealb, 0x0, 29, 1, false⟩
def F.SEAL_CTL_CLAIM_GATE : KF := ⟨.sealb, 0x0, 28, 1, true⟩
def F.SEAL_CTL_RUN : KF := ⟨.sealb, 0x0, 27, 1, false⟩
/-- SEAL.SVC_CFG. -/
def SEAL_SVC_CFG : Nat := 0x4
def F.SEAL_SVC_CFG_FR_ACT : KF := ⟨.sealb, 0x4, 30, 2, true⟩
def F.SEAL_SVC_CFG_HL_ACT : KF := ⟨.sealb, 0x4, 28, 2, true⟩
def F.SEAL_SVC_CFG_MAX_CK : KF := ⟨.sealb, 0x4, 24, 4, true⟩
def F.SEAL_SVC_CFG_DGRP : KF := ⟨.sealb, 0x4, 0, 18, true⟩
/-- SEAL.BND_CFG. -/
def SEAL_BND_CFG : Nat := 0x8
def F.SEAL_BND_CFG_EF_TYPE : KF := ⟨.sealb, 0x8, 16, 16, true⟩
def F.SEAL_BND_CFG_PTP_EN : KF := ⟨.sealb, 0x8, 15, 1, true⟩
def F.SEAL_BND_CFG_NTP_EN : KF := ⟨.sealb, 0x8, 14, 1, true⟩
def F.SEAL_BND_CFG_NTP_ALWAYS : KF := ⟨.sealb, 0x8, 13, 1, true⟩
/-- SEAL.BND_ORG. -/
def SEAL_BND_ORG : Nat := 0xC
def F.SEAL_BND_ORG_ORG : KF := ⟨.sealb, 0xC, 0, 24, true⟩
/-- SEAL.CLK_ID_LO. -/
def SEAL_CLK_ID_LO : Nat := 0x10
def F.SEAL_CLK_ID_LO_ID_LO : KF := ⟨.sealb, 0x10, 0, 32, true⟩
/-- SEAL.CLK_ID_HI. -/
def SEAL_CLK_ID_HI : Nat := 0x14
def F.SEAL_CLK_ID_HI_ID_HI : KF := ⟨.sealb, 0x14, 0, 32, true⟩
/-- SEAL.ANN_CFG. -/
def SEAL_ANN_CFG : Nat := 0x18
def F.SEAL_ANN_CFG_PRIO1 : KF := ⟨.sealb, 0x18, 24, 8, true⟩
def F.SEAL_ANN_CFG_PRIO2 : KF := ⟨.sealb, 0x18, 16, 8, true⟩
def F.SEAL_ANN_CFG_TSRC : KF := ⟨.sealb, 0x18, 8, 8, true⟩
def F.SEAL_ANN_CFG_CLASS_FREE : KF := ⟨.sealb, 0x18, 0, 8, true⟩
/-- SEAL.ANN_CLASS. -/
def SEAL_ANN_CLASS : Nat := 0x1C
def F.SEAL_ANN_CLASS_LOCK : KF := ⟨.sealb, 0x1C, 24, 8, true⟩
def F.SEAL_ANN_CLASS_ACQ : KF := ⟨.sealb, 0x1C, 16, 8, true⟩
def F.SEAL_ANN_CLASS_HO : KF := ⟨.sealb, 0x1C, 8, 8, true⟩
def F.SEAL_ANN_CLASS_HL : KF := ⟨.sealb, 0x1C, 0, 8, true⟩
/-- SEAL.ANN_VAR. -/
def SEAL_ANN_VAR : Nat := 0x20
def F.SEAL_ANN_VAR_OSLV : KF := ⟨.sealb, 0x20, 0, 16, true⟩
/-- SEAL.ANN_TT. -/
def SEAL_ANN_TT : Nat := 0x24
def F.SEAL_ANN_TT_TT_LIM : KF := ⟨.sealb, 0x24, 0, 32, true⟩
/-- SEAL.ANN_FT. -/
def SEAL_ANN_FT : Nat := 0x28
def F.SEAL_ANN_FT_FT_LIM : KF := ⟨.sealb, 0x28, 0, 32, true⟩
/-- SEAL.NTP_CFG. -/
def SEAL_NTP_CFG : Nat := 0x2C
def F.SEAL_NTP_CFG_STRATUM : KF := ⟨.sealb, 0x2C, 28, 4, true⟩
def F.SEAL_NTP_CFG_PRECISION : KF := ⟨.sealb, 0x2C, 8, 8, true⟩
/-- SEAL.NTP_REFID. -/
def SEAL_NTP_REFID : Nat := 0x30
def F.SEAL_NTP_REFID_REFID : KF := ⟨.sealb, 0x30, 0, 32, true⟩
/-- SEAL.NEG_CFG. -/
def SEAL_NEG_CFG : Nat := 0x34
def F.SEAL_NEG_CFG_MIN_SYNC : KF := ⟨.sealb, 0x34, 24, 8, true⟩
def F.SEAL_NEG_CFG_MIN_DRESP : KF := ⟨.sealb, 0x34, 16, 8, true⟩
def F.SEAL_NEG_CFG_MIN_ANN : KF := ⟨.sealb, 0x34, 8, 8, true⟩
/-- SEAL.NEG_DUR. -/
def SEAL_NEG_DUR : Nat := 0x38
def F.SEAL_NEG_DUR_MAX_DUR : KF := ⟨.sealb, 0x38, 0, 16, true⟩
/-- SEAL.GRANT_BUDGET. -/
def SEAL_GRANT_BUDGET : Nat := 0x3C
def F.SEAL_GRANT_BUDGET_BUDGET : KF := ⟨.sealb, 0x3C, 0, 32, true⟩
/-- SEAL.GRANT_USED. -/
def SEAL_GRANT_USED : Nat := 0x40
def F.SEAL_GRANT_USED_USED : KF := ⟨.sealb, 0x40, 0, 32, false⟩
/-- SEAL.CT_STAT. -/
def SEAL_CT_STAT : Nat := 0x44
def F.SEAL_CT_STAT_USED : KF := ⟨.sealb, 0x44, 0, 19, false⟩
/-- SEAL.CT_CMD. -/
def SEAL_CT_CMD : Nat := 0x48
def F.SEAL_CT_CMD_REVOKE : KF := ⟨.sealb, 0x48, 31, 1, false⟩
def F.SEAL_CT_CMD_INDEX : KF := ⟨.sealb, 0x48, 0, 18, false⟩
/-- SEAL.NTS_KEY_CFG. -/
def SEAL_NTS_KEY_CFG (n : Nat) : Nat := 0x50 + 0x8 * n
def F.SEAL_NTS_KEY_CFG_VALID (n : Nat) : KF := ⟨.sealb, 0x50 + 0x8 * n, 31, 1, true⟩
def F.SEAL_NTS_KEY_CFG_KSLOT (n : Nat) : KF := ⟨.sealb, 0x50 + 0x8 * n, 0, 8, true⟩
/-- SEAL.NTS_KEY_KID. -/
def SEAL_NTS_KEY_KID (n : Nat) : Nat := 0x54 + 0x8 * n
def F.SEAL_NTS_KEY_KID_KID (n : Nat) : KF := ⟨.sealb, 0x54 + 0x8 * n, 0, 32, true⟩
/-- SEAL.P_SVC. -/
def SEAL_P_SVC (n : Nat) : Nat := 0x100 + 0x40 * n
def F.SEAL_P_SVC_PROFILE (n : Nat) : KF := ⟨.sealb, 0x100 + 0x40 * n, 29, 3, true⟩
def F.SEAL_P_SVC_MC_EN (n : Nat) : KF := ⟨.sealb, 0x100 + 0x40 * n, 28, 1, true⟩
def F.SEAL_P_SVC_NTP_EN (n : Nat) : KF := ⟨.sealb, 0x100 + 0x40 * n, 27, 1, true⟩
def F.SEAL_P_SVC_NTS_EN (n : Nat) : KF := ⟨.sealb, 0x100 + 0x40 * n, 26, 1, true⟩
def F.SEAL_P_SVC_PTP_AUTH_REQ (n : Nat) : KF := ⟨.sealb, 0x100 + 0x40 * n, 25, 1, true⟩
def F.SEAL_P_SVC_NTP_AUTH_REQ (n : Nat) : KF := ⟨.sealb, 0x100 + 0x40 * n, 24, 1, true⟩
def F.SEAL_P_SVC_L2_ALT (n : Nat) : KF := ⟨.sealb, 0x100 + 0x40 * n, 23, 1, true⟩
def F.SEAL_P_SVC_DOMAIN (n : Nat) : KF := ⟨.sealb, 0x100 + 0x40 * n, 8, 8, true⟩
def F.SEAL_P_SVC_MC_SA (n : Nat) : KF := ⟨.sealb, 0x100 + 0x40 * n, 0, 8, true⟩
/-- SEAL.P_LOG. -/
def SEAL_P_LOG (n : Nat) : Nat := 0x104 + 0x40 * n
def F.SEAL_P_LOG_SYNC (n : Nat) : KF := ⟨.sealb, 0x104 + 0x40 * n, 24, 8, true⟩
def F.SEAL_P_LOG_ANN (n : Nat) : KF := ⟨.sealb, 0x104 + 0x40 * n, 16, 8, true⟩
def F.SEAL_P_LOG_PDELAY (n : Nat) : KF := ⟨.sealb, 0x104 + 0x40 * n, 8, 8, true⟩
/-- SEAL.P_QMAP. -/
def SEAL_P_QMAP (n : Nat) : Nat := 0x108 + 0x40 * n
def F.SEAL_P_QMAP_QT (n : Nat) : KF := ⟨.sealb, 0x108 + 0x40 * n, 24, 6, true⟩
def F.SEAL_P_QMAP_QG (n : Nat) : KF := ⟨.sealb, 0x108 + 0x40 * n, 16, 6, true⟩
def F.SEAL_P_QMAP_QY (n : Nat) : KF := ⟨.sealb, 0x108 + 0x40 * n, 8, 6, true⟩
def F.SEAL_P_QMAP_QX (n : Nat) : KF := ⟨.sealb, 0x108 + 0x40 * n, 0, 6, true⟩
/-- SEAL.P_MAC_LO. -/
def SEAL_P_MAC_LO (n : Nat) : Nat := 0x10C + 0x40 * n
def F.SEAL_P_MAC_LO_MAC_LO (n : Nat) : KF := ⟨.sealb, 0x10C + 0x40 * n, 0, 32, true⟩
/-- SEAL.P_MAC_HI. -/
def SEAL_P_MAC_HI (n : Nat) : Nat := 0x110 + 0x40 * n
def F.SEAL_P_MAC_HI_MAC_HI (n : Nat) : KF := ⟨.sealb, 0x110 + 0x40 * n, 0, 16, true⟩
/-- SEAL.P_VID. -/
def SEAL_P_VID (n : Nat) : Nat := 0x114 + 0x40 * n
def F.SEAL_P_VID_TAGGED (n : Nat) : KF := ⟨.sealb, 0x114 + 0x40 * n, 12, 1, true⟩
def F.SEAL_P_VID_VID (n : Nat) : KF := ⟨.sealb, 0x114 + 0x40 * n, 0, 12, true⟩
/-- SEAL.P_IPV4. -/
def SEAL_P_IPV4 (n : Nat) : Nat := 0x118 + 0x40 * n
def F.SEAL_P_IPV4_IPV4 (n : Nat) : KF := ⟨.sealb, 0x118 + 0x40 * n, 0, 32, true⟩
/-- SEAL.P_IPV6. -/
def SEAL_P_IPV6 (n : Nat) (m : Nat) : Nat := 0x11C + 0x40 * n + 0x4 * m
def F.SEAL_P_IPV6_IPV6 (n : Nat) (m : Nat) : KF := ⟨.sealb, 0x11C + 0x40 * n + 0x4 * m, 0, 32, true⟩
/-- SEAL.SA_CFG. -/
def SEAL_SA_CFG (n : Nat) : Nat := 0x200 + 0x8 * n
def F.SEAL_SA_CFG_VALID (n : Nat) : KF := ⟨.sealb, 0x200 + 0x8 * n, 31, 1, true⟩
def F.SEAL_SA_CFG_ALG (n : Nat) : KF := ⟨.sealb, 0x200 + 0x8 * n, 28, 3, true⟩
def F.SEAL_SA_CFG_TRANSIT (n : Nat) : KF := ⟨.sealb, 0x200 + 0x8 * n, 27, 1, true⟩
def F.SEAL_SA_CFG_NTP (n : Nat) : KF := ⟨.sealb, 0x200 + 0x8 * n, 26, 1, true⟩
def F.SEAL_SA_CFG_SPP (n : Nat) : KF := ⟨.sealb, 0x200 + 0x8 * n, 16, 8, true⟩
def F.SEAL_SA_CFG_KSLOT (n : Nat) : KF := ⟨.sealb, 0x200 + 0x8 * n, 0, 8, true⟩
/-- SEAL.SA_KEYID. -/
def SEAL_SA_KEYID (n : Nat) : Nat := 0x204 + 0x8 * n
def F.SEAL_SA_KEYID_KEYID (n : Nat) : KF := ⟨.sealb, 0x204 + 0x8 * n, 0, 32, true⟩
/-- SEAL.CNT0. -/
def SEAL_CNT0 : Nat := 0x300
def F.SEAL_CNT0_NOT_MINE : KF := ⟨.sealb, 0x300, 16, 16, false⟩
def F.SEAL_CNT0_UNSUP : KF := ⟨.sealb, 0x300, 0, 16, false⟩
/-- SEAL.CNT1. -/
def SEAL_CNT1 : Nat := 0x304
def F.SEAL_CNT1_AUTH_FAIL : KF := ⟨.sealb, 0x304, 16, 16, false⟩
def F.SEAL_CNT1_NTS_NAK : KF := ⟨.sealb, 0x304, 0, 16, false⟩
/-- SEAL.CNT2. -/
def SEAL_CNT2 : Nat := 0x308
def F.SEAL_CNT2_SILENT : KF := ⟨.sealb, 0x308, 16, 16, false⟩
def F.SEAL_CNT2_NOCLAIM : KF := ⟨.sealb, 0x308, 0, 16, false⟩
/-- SEAL.CNT3. -/
def SEAL_CNT3 : Nat := 0x30C
def F.SEAL_CNT3_KEY_GONE : KF := ⟨.sealb, 0x30C, 16, 16, false⟩
def F.SEAL_CNT3_SEAL_ABORT : KF := ⟨.sealb, 0x30C, 0, 16, false⟩
/-- SEAL.CNT4. -/
def SEAL_CNT4 : Nat := 0x310
def F.SEAL_CNT4_EXC_DROP : KF := ⟨.sealb, 0x310, 16, 16, false⟩
def F.SEAL_CNT4_GRANT_DENY : KF := ⟨.sealb, 0x310, 0, 16, false⟩
/-- SEAL.EVT. -/
def SEAL_EVT : Nat := 0x380
def F.SEAL_EVT_ABORT : KF := ⟨.sealb, 0x380, 7, 1, false⟩
def F.SEAL_EVT_KEYGONE : KF := ⟨.sealb, 0x380, 6, 1, false⟩
def F.SEAL_EVT_CT_FULL : KF := ⟨.sealb, 0x380, 5, 1, false⟩
def F.SEAL_EVT_DENY : KF := ⟨.sealb, 0x380, 4, 1, false⟩
def F.SEAL_EVT_CLAIM : KF := ⟨.sealb, 0x380, 3, 1, false⟩
def F.SEAL_EVT_EXC_DROP : KF := ⟨.sealb, 0x380, 2, 1, false⟩
def F.SEAL_EVT_AUTH : KF := ⟨.sealb, 0x380, 1, 1, false⟩
def F.SEAL_EVT_NAK : KF := ⟨.sealb, 0x380, 0, 1, false⟩
/-- PMU.CTL. -/
def PMU_CTL : Nat := 0x0
def F.PMU_CTL_FREEZE : KF := ⟨.pmu, 0x0, 31, 1, false⟩
def F.PMU_CTL_SAMP_EN : KF := ⟨.pmu, 0x0, 30, 1, false⟩
/-- PMU.OVF. -/
def PMU_OVF : Nat := 0x4
def F.PMU_OVF_OVF : KF := ⟨.pmu, 0x4, 0, 16, false⟩
/-- PMU.EVT. -/
def PMU_EVT : Nat := 0x8
def F.PMU_EVT_SAMP : KF := ⟨.pmu, 0x8, 2, 1, false⟩
def F.PMU_EVT_MISSED : KF := ⟨.pmu, 0x8, 1, 1, false⟩
def F.PMU_EVT_OVF : KF := ⟨.pmu, 0x8, 0, 1, false⟩
/-- PMU.SAMP_STAT. -/
def PMU_SAMP_STAT : Nat := 0xC
def F.PMU_SAMP_STAT_MISSED : KF := ⟨.pmu, 0xC, 16, 16, false⟩
def F.PMU_SAMP_STAT_WPTR : KF := ⟨.pmu, 0xC, 0, 8, false⟩
/-- PMU.PMC_CFG. -/
def PMU_PMC_CFG (n : Nat) : Nat := 0x100 + 0x10 * n
def F.PMU_PMC_CFG_EN (n : Nat) : KF := ⟨.pmu, 0x100 + 0x10 * n, 31, 1, false⟩
def F.PMU_PMC_CFG_SAMP (n : Nat) : KF := ⟨.pmu, 0x100 + 0x10 * n, 30, 1, false⟩
def F.PMU_PMC_CFG_PFILT (n : Nat) : KF := ⟨.pmu, 0x100 + 0x10 * n, 8, 2, false⟩
def F.PMU_PMC_CFG_EVSEL (n : Nat) : KF := ⟨.pmu, 0x100 + 0x10 * n, 0, 8, false⟩
/-- PMU.PMC_LO. -/
def PMU_PMC_LO (n : Nat) : Nat := 0x104 + 0x10 * n
def F.PMU_PMC_LO_CNT (n : Nat) : KF := ⟨.pmu, 0x104 + 0x10 * n, 0, 32, false⟩
/-- PMU.PMC_HI. -/
def PMU_PMC_HI (n : Nat) : Nat := 0x108 + 0x10 * n
def F.PMU_PMC_HI_CNT (n : Nat) : KF := ⟨.pmu, 0x108 + 0x10 * n, 0, 16, false⟩
/-- PMU.TD_CTL. -/
def PMU_TD_CTL : Nat := 0x200
def F.PMU_TD_CTL_SNAP : KF := ⟨.pmu, 0x200, 31, 1, false⟩
/-- PMU.CYC_LO. -/
def PMU_CYC_LO : Nat := 0x204
def F.PMU_CYC_LO_CYC : KF := ⟨.pmu, 0x204, 0, 32, false⟩
/-- PMU.CYC_HI. -/
def PMU_CYC_HI : Nat := 0x208
def F.PMU_CYC_HI_CYC : KF := ⟨.pmu, 0x208, 0, 16, false⟩
/-- PMU.S_LO. -/
def PMU_S_LO (n : Nat) : Nat := 0x210 + 0x8 * n
def F.PMU_S_LO_CNT (n : Nat) : KF := ⟨.pmu, 0x210 + 0x8 * n, 0, 32, false⟩
/-- PMU.S_HI. -/
def PMU_S_HI (n : Nat) : Nat := 0x214 + 0x8 * n
def F.PMU_S_HI_CNT (n : Nat) : KF := ⟨.pmu, 0x214 + 0x8 * n, 0, 16, false⟩
/-- PMU.S_INFL. -/
def PMU_S_INFL : Nat := 0x238
def F.PMU_S_INFL_INFL : KF := ⟨.pmu, 0x238, 0, 32, false⟩
/-- PMU.S_TICK. -/
def PMU_S_TICK (n : Nat) : Nat := 0x240 + 0x4 * n
def F.PMU_S_TICK_TICK (n : Nat) : KF := ⟨.pmu, 0x240 + 0x4 * n, 0, 32, false⟩
/-- PMU.BW_CFG. -/
def PMU_BW_CFG : Nat := 0x300
def F.PMU_BW_CFG_WIN : KF := ⟨.pmu, 0x300, 0, 20, false⟩
/-- PMU.P_TXB_LO. -/
def PMU_P_TXB_LO (n : Nat) : Nat := 0x310 + 0x40 * n
def F.PMU_P_TXB_LO_TXB (n : Nat) : KF := ⟨.pmu, 0x310 + 0x40 * n, 0, 32, false⟩
/-- PMU.P_TXB_HI. -/
def PMU_P_TXB_HI (n : Nat) : Nat := 0x314 + 0x40 * n
def F.PMU_P_TXB_HI_TXB (n : Nat) : KF := ⟨.pmu, 0x314 + 0x40 * n, 0, 16, false⟩
/-- PMU.P_RXB_LO. -/
def PMU_P_RXB_LO (n : Nat) : Nat := 0x318 + 0x40 * n
def F.PMU_P_RXB_LO_RXB (n : Nat) : KF := ⟨.pmu, 0x318 + 0x40 * n, 0, 32, false⟩
/-- PMU.P_RXB_HI. -/
def PMU_P_RXB_HI (n : Nat) : Nat := 0x31C + 0x40 * n
def F.PMU_P_RXB_HI_RXB (n : Nat) : KF := ⟨.pmu, 0x31C + 0x40 * n, 0, 16, false⟩
/-- PMU.P_PKTX_LO. -/
def PMU_P_PKTX_LO (n : Nat) : Nat := 0x328 + 0x40 * n
def F.PMU_P_PKTX_LO_PKTX (n : Nat) : KF := ⟨.pmu, 0x328 + 0x40 * n, 0, 32, false⟩
/-- PMU.P_PKTX_HI. -/
def PMU_P_PKTX_HI (n : Nat) : Nat := 0x32C + 0x40 * n
def F.PMU_P_PKTX_HI_PKTX (n : Nat) : KF := ⟨.pmu, 0x32C + 0x40 * n, 0, 16, false⟩
/-- PMU.P_PKRX_LO. -/
def PMU_P_PKRX_LO (n : Nat) : Nat := 0x330 + 0x40 * n
def F.PMU_P_PKRX_LO_PKRX (n : Nat) : KF := ⟨.pmu, 0x330 + 0x40 * n, 0, 32, false⟩
/-- PMU.P_PKRX_HI. -/
def PMU_P_PKRX_HI (n : Nat) : Nat := 0x334 + 0x40 * n
def F.PMU_P_PKRX_HI_PKRX (n : Nat) : KF := ⟨.pmu, 0x334 + 0x40 * n, 0, 16, false⟩
/-- PMU.P_TXF. -/
def PMU_P_TXF (n : Nat) : Nat := 0x320 + 0x40 * n
def F.PMU_P_TXF_TXF (n : Nat) : KF := ⟨.pmu, 0x320 + 0x40 * n, 0, 32, false⟩
/-- PMU.P_RXF. -/
def PMU_P_RXF (n : Nat) : Nat := 0x324 + 0x40 * n
def F.PMU_P_RXF_RXF (n : Nat) : KF := ⟨.pmu, 0x324 + 0x40 * n, 0, 32, false⟩
/-- PMU.P_PK_CLR. -/
def PMU_P_PK_CLR (n : Nat) : Nat := 0x338 + 0x40 * n
def F.PMU_P_PK_CLR_CLR (n : Nat) : KF := ⟨.pmu, 0x338 + 0x40 * n, 31, 1, false⟩
/-- PMU.P_WSEQ. -/
def PMU_P_WSEQ (n : Nat) : Nat := 0x33C + 0x40 * n
def F.PMU_P_WSEQ_WSEQ (n : Nat) : KF := ⟨.pmu, 0x33C + 0x40 * n, 0, 32, false⟩
/-- CHCTL.ID. -/
def CHCTL_ID : Nat := 0x0
def F.CHCTL_ID_CH : KF := ⟨.chctl, 0x0, 0, 2, false⟩
/-- CHCTL.IMG. -/
def CHCTL_IMG : Nat := 0x4
def F.CHCTL_IMG_CARRIED : KF := ⟨.chctl, 0x4, 31, 1, false⟩
def F.CHCTL_IMG_SLOT : KF := ⟨.chctl, 0x4, 30, 1, false⟩
/-- CHCTL.B_CTL. -/
def CHCTL_B_CTL : Nat := 0x100
def F.CHCTL_B_CTL_COMMIT : KF := ⟨.chctl, 0x100, 31, 1, false⟩
def F.CHCTL_B_CTL_CERR : KF := ⟨.chctl, 0x100, 30, 1, false⟩
def F.CHCTL_B_CTL_LOCK : KF := ⟨.chctl, 0x100, 29, 1, false⟩
/-- CHCTL.ENS_CFG. -/
def CHCTL_ENS_CFG : Nat := 0x104
def F.CHCTL_ENS_CFG_TOL : KF := ⟨.chctl, 0x104, 28, 3, true⟩
def F.CHCTL_ENS_CFG_MIN_PEERS : KF := ⟨.chctl, 0x104, 24, 4, true⟩
def F.CHCTL_ENS_CFG_HOPS : KF := ⟨.chctl, 0x104, 20, 4, true⟩
/-- CHCTL.ENS_STAT. -/
def CHCTL_ENS_STAT (n : Nat) : Nat := 0x108 + 0x4 * n
def F.CHCTL_ENS_STAT_USED (n : Nat) : KF := ⟨.chctl, 0x108 + 0x4 * n, 26, 6, false⟩
def F.CHCTL_ENS_STAT_EXCL (n : Nat) : KF := ⟨.chctl, 0x108 + 0x4 * n, 20, 6, false⟩
def F.CHCTL_ENS_STAT_PEERS (n : Nat) : KF := ⟨.chctl, 0x108 + 0x4 * n, 14, 6, false⟩
def F.CHCTL_ENS_STAT_EMPTY (n : Nat) : KF := ⟨.chctl, 0x108 + 0x4 * n, 13, 1, false⟩
def F.CHCTL_ENS_STAT_NOSLOT (n : Nat) : KF := ⟨.chctl, 0x108 + 0x4 * n, 12, 1, false⟩
def F.CHCTL_ENS_STAT_UTCD (n : Nat) : KF := ⟨.chctl, 0x108 + 0x4 * n, 11, 1, false⟩
/-- CHCTL.B_CFG. -/
def CHCTL_B_CFG (n : Nat) : Nat := 0x140 + 0x40 * n
def F.CHCTL_B_CFG_EN (n : Nat) : KF := ⟨.chctl, 0x140 + 0x40 * n, 31, 1, true⟩
def F.CHCTL_B_CFG_TTX (n : Nat) : KF := ⟨.chctl, 0x140 + 0x40 * n, 30, 1, true⟩
/-- CHCTL.B_LASYM. -/
def CHCTL_B_LASYM (n : Nat) : Nat := 0x144 + 0x40 * n
def F.CHCTL_B_LASYM_LASYM (n : Nat) : KF := ⟨.chctl, 0x144 + 0x40 * n, 0, 32, true⟩
/-- CHCTL.B_LBUD. -/
def CHCTL_B_LBUD (n : Nat) : Nat := 0x148 + 0x40 * n
def F.CHCTL_B_LBUD_LBUD (n : Nat) : KF := ⟨.chctl, 0x148 + 0x40 * n, 0, 32, true⟩
/-- CHCTL.B_LSTEP. -/
def CHCTL_B_LSTEP (n : Nat) : Nat := 0x14C + 0x40 * n
def F.CHCTL_B_LSTEP_LSTEP (n : Nat) : KF := ⟨.chctl, 0x14C + 0x40 * n, 0, 32, true⟩
/-- CHCTL.B_STAT. -/
def CHCTL_B_STAT (n : Nat) : Nat := 0x150 + 0x40 * n
def F.CHCTL_B_STAT_LINK (n : Nat) : KF := ⟨.chctl, 0x150 + 0x40 * n, 29, 3, false⟩
def F.CHCTL_B_STAT_NBR_LINK (n : Nat) : KF := ⟨.chctl, 0x150 + 0x40 * n, 26, 3, false⟩
def F.CHCTL_B_STAT_LSTEP (n : Nat) : KF := ⟨.chctl, 0x150 + 0x40 * n, 25, 1, false⟩
def F.CHCTL_B_STAT_RESTARTS (n : Nat) : KF := ⟨.chctl, 0x150 + 0x40 * n, 0, 16, false⟩
/-- CHCTL.B_LDLY. -/
def CHCTL_B_LDLY (n : Nat) : Nat := 0x154 + 0x40 * n
def F.CHCTL_B_LDLY_LDLY (n : Nat) : KF := ⟨.chctl, 0x154 + 0x40 * n, 0, 32, false⟩
/-- CHCTL.B_NBR_LO. -/
def CHCTL_B_NBR_LO (n : Nat) : Nat := 0x158 + 0x40 * n
def F.CHCTL_B_NBR_LO_ID_LO (n : Nat) : KF := ⟨.chctl, 0x158 + 0x40 * n, 0, 32, false⟩
/-- CHCTL.B_NBR_HI. -/
def CHCTL_B_NBR_HI (n : Nat) : Nat := 0x15C + 0x40 * n
def F.CHCTL_B_NBR_HI_ID_HI (n : Nat) : KF := ⟨.chctl, 0x15C + 0x40 * n, 0, 32, false⟩
/-- CHCTL.B_CNT. -/
def CHCTL_B_CNT (n : Nat) : Nat := 0x160 + 0x40 * n
def F.CHCTL_B_CNT_TIME_RX (n : Nat) : KF := ⟨.chctl, 0x160 + 0x40 * n, 16, 16, false⟩
def F.CHCTL_B_CNT_DROP (n : Nat) : KF := ⟨.chctl, 0x160 + 0x40 * n, 0, 16, false⟩
/-- HOSTIF.PCIE_STAT. -/
def HOSTIF_PCIE_STAT : Nat := 0x0
def F.HOSTIF_PCIE_STAT_LINK_UP : GF := ⟨.hostif, 0x0, 31, 1, false⟩
def F.HOSTIF_PCIE_STAT_SPEED : GF := ⟨.hostif, 0x0, 28, 3, false⟩
def F.HOSTIF_PCIE_STAT_WIDTH : GF := ⟨.hostif, 0x0, 25, 3, false⟩
def F.HOSTIF_PCIE_STAT_FLR : GF := ⟨.hostif, 0x0, 0, 16, false⟩
/-- HOSTIF.PCIE_ERR. -/
def HOSTIF_PCIE_ERR : Nat := 0x4
def F.HOSTIF_PCIE_ERR_UE : GF := ⟨.hostif, 0x4, 16, 16, false⟩
def F.HOSTIF_PCIE_ERR_CE : GF := ⟨.hostif, 0x4, 0, 16, false⟩
/-- HOSTIF.INT_CFG. -/
def HOSTIF_INT_CFG : Nat := 0x8
def F.HOSTIF_INT_CFG_CMD_EN : GF := ⟨.hostif, 0x8, 31, 1, false⟩
def F.HOSTIF_INT_CFG_MIR_EN : GF := ⟨.hostif, 0x8, 30, 1, false⟩
/-- HOSTIF.MSPI_STAT. -/
def HOSTIF_MSPI_STAT : Nat := 0xC
def F.HOSTIF_MSPI_STAT_FRAMES : GF := ⟨.hostif, 0xC, 16, 16, false⟩
def F.HOSTIF_MSPI_STAT_CRC_ERR : GF := ⟨.hostif, 0xC, 0, 16, false⟩
/-- HOSTIF.MEM_WDISC. -/
def HOSTIF_MEM_WDISC : Nat := 0x10
def F.HOSTIF_MEM_WDISC_WDISC : GF := ⟨.hostif, 0x10, 0, 32, false⟩
/-- HOSTIF.ID_PART. -/
def HOSTIF_ID_PART : Nat := 0x20
def F.HOSTIF_ID_PART_FAMILY : GF := ⟨.hostif, 0x20, 16, 16, false⟩
def F.HOSTIF_ID_PART_PART : GF := ⟨.hostif, 0x20, 0, 16, false⟩
/-- HOSTIF.ID_REV. -/
def HOSTIF_ID_REV : Nat := 0x24
def F.HOSTIF_ID_REV_MAJOR : GF := ⟨.hostif, 0x24, 24, 8, false⟩
def F.HOSTIF_ID_REV_MINOR : GF := ⟨.hostif, 0x24, 16, 8, false⟩
def F.HOSTIF_ID_REV_MASKSET : GF := ⟨.hostif, 0x24, 8, 8, false⟩
/-- HOSTIF.ID_MAP. -/
def HOSTIF_ID_MAP : Nat := 0x28
def F.HOSTIF_ID_MAP_MAP : GF := ⟨.hostif, 0x28, 0, 8, false⟩
/-- HOSTIF.ID_FEAT. -/
def HOSTIF_ID_FEAT : Nat := 0x2C
def F.HOSTIF_ID_FEAT_BENCH : GF := ⟨.hostif, 0x2C, 7, 1, false⟩
def F.HOSTIF_ID_FEAT_TWIN : GF := ⟨.hostif, 0x2C, 6, 1, false⟩
def F.HOSTIF_ID_FEAT_GNSS : GF := ⟨.hostif, 0x2C, 5, 1, false⟩
def F.HOSTIF_ID_FEAT_CH : GF := ⟨.hostif, 0x2C, 0, 4, false⟩
/-- HOSTIF.RSV_ACC. -/
def HOSTIF_RSV_ACC : Nat := 0x30
def F.HOSTIF_RSV_ACC_COUNT : GF := ⟨.hostif, 0x30, 0, 32, false⟩
/-- HOSTIF.RSV_LAST. -/
def HOSTIF_RSV_LAST : Nat := 0x34
def F.HOSTIF_RSV_LAST_OFS : GF := ⟨.hostif, 0x34, 0, 32, false⟩
/-- HOSTIF.HTX_TAIL. -/
def HOSTIF_HTX_TAIL (n : Nat) (m : Nat) : Nat := 0x100 + 0x20 * n + 0x10 * m
def F.HOSTIF_HTX_TAIL_TAIL (n : Nat) (m : Nat) : GF := ⟨.hostif, 0x100 + 0x20 * n + 0x10 * m, 0, 10, false⟩
/-- HOSTIF.HTX_HEAD. -/
def HOSTIF_HTX_HEAD (n : Nat) (m : Nat) : Nat := 0x104 + 0x20 * n + 0x10 * m
def F.HOSTIF_HTX_HEAD_HEAD (n : Nat) (m : Nat) : GF := ⟨.hostif, 0x104 + 0x20 * n + 0x10 * m, 0, 10, false⟩
/-- HOSTIF.HTX_CNT. -/
def HOSTIF_HTX_CNT (n : Nat) (m : Nat) : Nat := 0x108 + 0x20 * n + 0x10 * m
def F.HOSTIF_HTX_CNT_BAD (n : Nat) (m : Nat) : GF := ⟨.hostif, 0x108 + 0x20 * n + 0x10 * m, 16, 16, false⟩
def F.HOSTIF_HTX_CNT_ABSENT (n : Nat) (m : Nat) : GF := ⟨.hostif, 0x108 + 0x20 * n + 0x10 * m, 0, 16, false⟩
/-- CMDQ.SUBMIT. -/
def CMDQ_SUBMIT : Nat := 0x0
def F.CMDQ_SUBMIT_GO : GF := ⟨.cmdq, 0x0, 31, 1, false⟩
def F.CMDQ_SUBMIT_SLOT : GF := ⟨.cmdq, 0x0, 0, 6, false⟩
/-- CMDQ.RELEASE. -/
def CMDQ_RELEASE : Nat := 0x4
def F.CMDQ_RELEASE_GO : GF := ⟨.cmdq, 0x4, 31, 1, false⟩
def F.CMDQ_RELEASE_SLOT : GF := ⟨.cmdq, 0x4, 0, 6, false⟩
/-- CMDQ.STAT. -/
def CMDQ_STAT : Nat := 0x8
def F.CMDQ_STAT_SUB_ERR : GF := ⟨.cmdq, 0x8, 31, 1, false⟩
def F.CMDQ_STAT_REL_ERR : GF := ⟨.cmdq, 0x8, 30, 1, false⟩
def F.CMDQ_STAT_FREE : GF := ⟨.cmdq, 0x8, 0, 7, false⟩
/-- CMDQ.EVT. -/
def CMDQ_EVT : Nat := 0xC
def F.CMDQ_EVT_FAIL : GF := ⟨.cmdq, 0xC, 1, 1, false⟩
def F.CMDQ_EVT_END : GF := ⟨.cmdq, 0xC, 0, 1, false⟩
/-- CMDQ.ENDED. -/
def CMDQ_ENDED (n : Nat) : Nat := 0x10 + 0x4 * n
def F.CMDQ_ENDED_ENDED (n : Nat) : GF := ⟨.cmdq, 0x10 + 0x4 * n, 0, 32, false⟩
/-- CMDQ.STREAM. -/
def CMDQ_STREAM : Nat := 0x20
def F.CMDQ_STREAM_DATA : GF := ⟨.cmdq, 0x20, 0, 32, false⟩
/-- CMDQ.NSUB. -/
def CMDQ_NSUB : Nat := 0x24
def F.CMDQ_NSUB_NSUB : GF := ⟨.cmdq, 0x24, 0, 26, false⟩
/-- CMDQ.SLOT. -/
def CMDQ_SLOT (n : Nat) (m : Nat) : Nat := 0x1000 + 0x40 * n + 0x4 * m
def F.CMDQ_SLOT_DESC (n : Nat) (m : Nat) : GF := ⟨.cmdq, 0x1000 + 0x40 * n + 0x4 * m, 0, 32, false⟩
/-- FAULT.CTL. -/
def FAULT_CTL : Nat := 0x0
def F.FAULT_CTL_LOCK : GF := ⟨.fault, 0x0, 29, 1, false⟩
/-- FAULT.CFG. -/
def FAULT_CFG : Nat := 0x4
def F.FAULT_CFG_CHIP_ACT : GF := ⟨.fault, 0x4, 31, 1, false⟩
def F.FAULT_CFG_INJ_EN : GF := ⟨.fault, 0x4, 30, 1, false⟩
/-- FAULT.SAFE_CTL. -/
def FAULT_SAFE_CTL : Nat := 0x8
def F.FAULT_SAFE_CTL_ENTER : GF := ⟨.fault, 0x8, 31, 1, false⟩
def F.FAULT_SAFE_CTL_EXIT : GF := ⟨.fault, 0x8, 0, 16, false⟩
/-- FAULT.SAFE_STAT. -/
def FAULT_SAFE_STAT : Nat := 0xC
def F.FAULT_SAFE_STAT_SAFE : GF := ⟨.fault, 0xC, 31, 1, false⟩
def F.FAULT_SAFE_STAT_CAUSE : GF := ⟨.fault, 0xC, 28, 3, false⟩
def F.FAULT_SAFE_STAT_SRC : GF := ⟨.fault, 0xC, 16, 9, false⟩
def F.FAULT_SAFE_STAT_WDISC : GF := ⟨.fault, 0xC, 0, 16, false⟩
/-- FAULT.FIRST. -/
def FAULT_FIRST : Nat := 0x10
def F.FAULT_FIRST_VALID : GF := ⟨.fault, 0x10, 31, 1, false⟩
def F.FAULT_FIRST_INJ : GF := ⟨.fault, 0x10, 30, 1, false⟩
def F.FAULT_FIRST_SRC : GF := ⟨.fault, 0x10, 0, 9, false⟩
/-- FAULT.LAST_RESET. -/
def FAULT_LAST_RESET : Nat := 0x14
def F.FAULT_LAST_RESET_VALID : GF := ⟨.fault, 0x14, 31, 1, false⟩
def F.FAULT_LAST_RESET_INJ : GF := ⟨.fault, 0x14, 30, 1, false⟩
def F.FAULT_LAST_RESET_SRC : GF := ⟨.fault, 0x14, 0, 9, false⟩
/-- FAULT.NMI_STAT. -/
def FAULT_NMI_STAT : Nat := 0x18
def F.FAULT_NMI_STAT_PEND : GF := ⟨.fault, 0x18, 31, 1, false⟩
def F.FAULT_NMI_STAT_SRC : GF := ⟨.fault, 0x18, 0, 9, false⟩
/-- FAULT.ERRN_STAT. -/
def FAULT_ERRN_STAT : Nat := 0x1C
def F.FAULT_ERRN_STAT_ASSERTED : GF := ⟨.fault, 0x1C, 31, 1, false⟩
def F.FAULT_ERRN_STAT_SAFE : GF := ⟨.fault, 0x1C, 30, 1, false⟩
def F.FAULT_ERRN_STAT_NSRC : GF := ⟨.fault, 0x1C, 0, 10, false⟩
/-- FAULT.INJ_CTL. -/
def FAULT_INJ_CTL : Nat := 0x20
def F.FAULT_INJ_CTL_GO : GF := ⟨.fault, 0x20, 31, 1, false⟩
def F.FAULT_INJ_CTL_BUSY : GF := ⟨.fault, 0x20, 30, 1, false⟩
def F.FAULT_INJ_CTL_MODE : GF := ⟨.fault, 0x20, 29, 1, false⟩
def F.FAULT_INJ_CTL_DONE : GF := ⟨.fault, 0x20, 28, 1, false⟩
def F.FAULT_INJ_CTL_ERR : GF := ⟨.fault, 0x20, 27, 1, false⟩
def F.FAULT_INJ_CTL_SRC : GF := ⟨.fault, 0x20, 0, 9, false⟩
/-- FAULT.PEND. -/
def FAULT_PEND (n : Nat) : Nat := 0x100 + 0x4 * n
def F.FAULT_PEND_PEND (n : Nat) : GF := ⟨.fault, 0x100 + 0x4 * n, 0, 32, false⟩
/-- FAULT.SRC_CFG. -/
def FAULT_SRC_CFG (n : Nat) : Nat := 0x1000 + 0x4 * n
def F.FAULT_SRC_CFG_REACT (n : Nat) : GF := ⟨.fault, 0x1000 + 0x4 * n, 0, 5, false⟩
/-- FAULT.SRC_STAT. -/
def FAULT_SRC_STAT (n : Nat) : Nat := 0x2000 + 0x4 * n
def F.FAULT_SRC_STAT_REAL (n : Nat) : GF := ⟨.fault, 0x2000 + 0x4 * n, 31, 1, false⟩
def F.FAULT_SRC_STAT_INJ (n : Nat) : GF := ⟨.fault, 0x2000 + 0x4 * n, 30, 1, false⟩
def F.FAULT_SRC_STAT_ACTIVE (n : Nat) : GF := ⟨.fault, 0x2000 + 0x4 * n, 29, 1, false⟩
def F.FAULT_SRC_STAT_ICOUNT (n : Nat) : GF := ⟨.fault, 0x2000 + 0x4 * n, 16, 8, false⟩
def F.FAULT_SRC_STAT_COUNT (n : Nat) : GF := ⟨.fault, 0x2000 + 0x4 * n, 0, 16, false⟩
/-- VAULT.CTL. -/
def VAULT_CTL : Nat := 0x0
def F.VAULT_CTL_LOCK : GF := ⟨.vault, 0x0, 29, 1, false⟩
/-- VAULT.CFG. -/
def VAULT_CFG : Nat := 0x4
def F.VAULT_CFG_BOOK_SLOT : GF := ⟨.vault, 0x4, 8, 8, false⟩
def F.VAULT_CFG_ATT_SLOT : GF := ⟨.vault, 0x4, 0, 8, false⟩
/-- VAULT.STAT. -/
def VAULT_STAT : Nat := 0x8
def F.VAULT_STAT_OWN : GF := ⟨.vault, 0x8, 30, 2, false⟩
def F.VAULT_STAT_STAGE : GF := ⟨.vault, 0x8, 27, 3, false⟩
def F.VAULT_STAT_SEED_NEW : GF := ⟨.vault, 0x8, 26, 1, false⟩
def F.VAULT_STAT_NVALID : GF := ⟨.vault, 0x8, 0, 9, false⟩
/-- VAULT.EVT. -/
def VAULT_EVT : Nat := 0xC
def F.VAULT_EVT_VBAT_LOW : GF := ⟨.vault, 0xC, 6, 1, false⟩
def F.VAULT_EVT_LOG : GF := ⟨.vault, 0xC, 5, 1, false⟩
def F.VAULT_EVT_ORPHAN : GF := ⟨.vault, 0xC, 4, 1, false⟩
def F.VAULT_EVT_ATT_DONE : GF := ⟨.vault, 0xC, 3, 1, false⟩
def F.VAULT_EVT_KUM_FAIL : GF := ⟨.vault, 0xC, 2, 1, false⟩
def F.VAULT_EVT_KUM_DONE : GF := ⟨.vault, 0xC, 1, 1, false⟩
def F.VAULT_EVT_TAMPER : GF := ⟨.vault, 0xC, 0, 1, false⟩
/-- VAULT.DEVID. -/
def VAULT_DEVID (n : Nat) : Nat := 0x10 + 0x4 * n
def F.VAULT_DEVID_DEVID (n : Nat) : GF := ⟨.vault, 0x10 + 0x4 * n, 0, 32, false⟩
/-- VAULT.KCNT. -/
def VAULT_KCNT (n : Nat) : Nat := 0x18 + 0x4 * n
def F.VAULT_KCNT_KCNT (n : Nat) : GF := ⟨.vault, 0x18 + 0x4 * n, 0, 32, false⟩
/-- VAULT.KUM_CTL. -/
def VAULT_KUM_CTL : Nat := 0x20
def F.VAULT_KUM_CTL_GO : GF := ⟨.vault, 0x20, 31, 1, false⟩
def F.VAULT_KUM_CTL_LEN : GF := ⟨.vault, 0x20, 0, 9, false⟩
/-- VAULT.KUM_STAT. -/
def VAULT_KUM_STAT : Nat := 0x24
def F.VAULT_KUM_STAT_BUSY : GF := ⟨.vault, 0x24, 31, 1, false⟩
def F.VAULT_KUM_STAT_RESULT : GF := ⟨.vault, 0x24, 0, 8, false⟩
/-- VAULT.SLOT_SEL. -/
def VAULT_SLOT_SEL : Nat := 0x28
def F.VAULT_SLOT_SEL_INDEX : GF := ⟨.vault, 0x28, 0, 8, false⟩
/-- VAULT.SLOT_ATTR. -/
def VAULT_SLOT_ATTR : Nat := 0x2C
def F.VAULT_SLOT_ATTR_ATTR : GF := ⟨.vault, 0x2C, 0, 32, false⟩
/-- VAULT.SLOT_INFO. -/
def VAULT_SLOT_INFO : Nat := 0x30
def F.VAULT_SLOT_INFO_STATE : GF := ⟨.vault, 0x30, 30, 2, false⟩
def F.VAULT_SLOT_INFO_CAUSE : GF := ⟨.vault, 0x30, 27, 3, false⟩
def F.VAULT_SLOT_INFO_COPY : GF := ⟨.vault, 0x30, 26, 1, false⟩
def F.VAULT_SLOT_INFO_USABLE : GF := ⟨.vault, 0x30, 25, 1, false⟩
/-- VAULT.SLOT_KID. -/
def VAULT_SLOT_KID : Nat := 0x34
def F.VAULT_SLOT_KID_KEY_ID : GF := ⟨.vault, 0x34, 0, 32, false⟩
/-- VAULT.SLOT_VER. -/
def VAULT_SLOT_VER (n : Nat) : Nat := 0x38 + 0x4 * n
def F.VAULT_SLOT_VER_VER (n : Nat) : GF := ⟨.vault, 0x38 + 0x4 * n, 0, 32, false⟩
/-- VAULT.TCFG. -/
def VAULT_TCFG : Nat := 0x40
def F.VAULT_TCFG_TCFG : GF := ⟨.vault, 0x40, 0, 32, false⟩
/-- VAULT.TSTAT. -/
def VAULT_TSTAT : Nat := 0x44
def F.VAULT_TSTAT_LIVE : GF := ⟨.vault, 0x44, 24, 8, false⟩
def F.VAULT_TSTAT_LOG_N : GF := ⟨.vault, 0x44, 20, 4, false⟩
def F.VAULT_TSTAT_LOG_OVF : GF := ⟨.vault, 0x44, 16, 4, false⟩
def F.VAULT_TSTAT_VBAT : GF := ⟨.vault, 0x44, 0, 16, false⟩
/-- VAULT.ATT_CTL. -/
def VAULT_ATT_CTL : Nat := 0x50
def F.VAULT_ATT_CTL_GO : GF := ⟨.vault, 0x50, 31, 1, false⟩
def F.VAULT_ATT_CTL_BUSY : GF := ⟨.vault, 0x50, 30, 1, false⟩
def F.VAULT_ATT_CTL_SIGNER : GF := ⟨.vault, 0x50, 29, 1, false⟩
def F.VAULT_ATT_CTL_DONE : GF := ⟨.vault, 0x50, 28, 1, false⟩
def F.VAULT_ATT_CTL_ERR : GF := ⟨.vault, 0x50, 27, 1, false⟩
def F.VAULT_ATT_CTL_TAMPERED : GF := ⟨.vault, 0x50, 26, 1, false⟩
/-- VAULT.ATT_NONCE. -/
def VAULT_ATT_NONCE (n : Nat) : Nat := 0x60 + 0x4 * n
def F.VAULT_ATT_NONCE_NONCE (n : Nat) : GF := ⟨.vault, 0x60 + 0x4 * n, 0, 32, false⟩
/-- VAULT.DIK_PUB. -/
def VAULT_DIK_PUB (n : Nat) : Nat := 0x100 + 0x4 * n
def F.VAULT_DIK_PUB_PUB (n : Nat) : GF := ⟨.vault, 0x100 + 0x4 * n, 0, 32, false⟩
/-- VAULT.ATT_OUT. -/
def VAULT_ATT_OUT (n : Nat) : Nat := 0x200 + 0x4 * n
def F.VAULT_ATT_OUT_QUOTE (n : Nat) : GF := ⟨.vault, 0x200 + 0x4 * n, 0, 32, false⟩
/-- VAULT.TLOG. -/
def VAULT_TLOG (n : Nat) (m : Nat) : Nat := 0x500 + 0x10 * n + 0x4 * m
def F.VAULT_TLOG_ENTRY (n : Nat) (m : Nat) : GF := ⟨.vault, 0x500 + 0x10 * n + 0x4 * m, 0, 32, false⟩
/-- VAULT.KUM_BUF. -/
def VAULT_KUM_BUF (n : Nat) : Nat := 0x1000 + 0x4 * n
def F.VAULT_KUM_BUF_BUF (n : Nat) : GF := ⟨.vault, 0x1000 + 0x4 * n, 0, 32, false⟩
/-- BOOK.STAT. -/
def BOOK_STAT : Nat := 0x0
def F.BOOK_STAT_UNSIGNED : GF := ⟨.book, 0x0, 31, 1, false⟩
def F.BOOK_STAT_OVER : GF := ⟨.book, 0x0, 30, 1, false⟩
def F.BOOK_STAT_BUFN : GF := ⟨.book, 0x0, 0, 7, false⟩
/-- BOOK.EVT. -/
def BOOK_EVT : Nat := 0x4
def F.BOOK_EVT_MIR_LOST : GF := ⟨.book, 0x4, 3, 1, false⟩
def F.BOOK_EVT_OVER : GF := ⟨.book, 0x4, 2, 1, false⟩
def F.BOOK_EVT_SIGNED : GF := ⟨.book, 0x4, 1, 1, false⟩
def F.BOOK_EVT_ENTRY : GF := ⟨.book, 0x4, 0, 1, false⟩
/-- BOOK.NEXT_SEQ. -/
def BOOK_NEXT_SEQ (n : Nat) : Nat := 0x8 + 0x4 * n
def F.BOOK_NEXT_SEQ_SEQ (n : Nat) : GF := ⟨.book, 0x8 + 0x4 * n, 0, 32, false⟩
/-- BOOK.CNT0. -/
def BOOK_CNT0 : Nat := 0x10
def F.BOOK_CNT0_MIR_LOST : GF := ⟨.book, 0x10, 16, 16, false⟩
def F.BOOK_CNT0_OVER_WR : GF := ⟨.book, 0x10, 0, 16, false⟩
/-- BOOK.CNT1. -/
def BOOK_CNT1 : Nat := 0x14
def F.BOOK_CNT1_MERGED : GF := ⟨.book, 0x14, 0, 32, false⟩
/-- BOOK.MIR_CFG. -/
def BOOK_MIR_CFG : Nat := 0x20
def F.BOOK_MIR_CFG_EN : GF := ⟨.book, 0x20, 31, 1, false⟩
def F.BOOK_MIR_CFG_LOG2N : GF := ⟨.book, 0x20, 0, 5, false⟩
/-- BOOK.MIR_BASE_LO. -/
def BOOK_MIR_BASE_LO : Nat := 0x24
def F.BOOK_MIR_BASE_LO_BASE_LO : GF := ⟨.book, 0x24, 6, 26, false⟩
/-- BOOK.MIR_BASE_HI. -/
def BOOK_MIR_BASE_HI : Nat := 0x28
def F.BOOK_MIR_BASE_HI_BASE_HI : GF := ⟨.book, 0x28, 0, 32, false⟩
/-- BOOK.MIR_WPTR. -/
def BOOK_MIR_WPTR : Nat := 0x2C
def F.BOOK_MIR_WPTR_WPTR : GF := ⟨.book, 0x2C, 0, 20, false⟩
/-- BOOK.MIR_RPTR. -/
def BOOK_MIR_RPTR : Nat := 0x30
def F.BOOK_MIR_RPTR_RPTR : GF := ⟨.book, 0x30, 0, 20, false⟩
/-- BOOK.RD_SEQ. -/
def BOOK_RD_SEQ (n : Nat) : Nat := 0x40 + 0x4 * n
def F.BOOK_RD_SEQ_SEQ (n : Nat) : GF := ⟨.book, 0x40 + 0x4 * n, 0, 32, false⟩
/-- BOOK.RD_CTL. -/
def BOOK_RD_CTL : Nat := 0x48
def F.BOOK_RD_CTL_GO : GF := ⟨.book, 0x48, 31, 1, false⟩
def F.BOOK_RD_CTL_SIG : GF := ⟨.book, 0x48, 30, 1, false⟩
def F.BOOK_RD_CTL_DONE : GF := ⟨.book, 0x48, 29, 1, false⟩
def F.BOOK_RD_CTL_GONE : GF := ⟨.book, 0x48, 28, 1, false⟩
/-- BOOK.RD_DATA. -/
def BOOK_RD_DATA (n : Nat) : Nat := 0x80 + 0x4 * n
def F.BOOK_RD_DATA_DATA (n : Nat) : GF := ⟨.book, 0x80 + 0x4 * n, 0, 32, false⟩
/-- TALLY.CTL. -/
def TALLY_CTL : Nat := 0x0
def F.TALLY_CTL_UPD_NOW : GF := ⟨.tally, 0x0, 31, 1, false⟩
/-- TALLY.STAT. -/
def TALLY_STAT : Nat := 0x4
def F.TALLY_STAT_LOST : GF := ⟨.tally, 0x4, 31, 1, false⟩
def F.TALLY_STAT_COPY : GF := ⟨.tally, 0x4, 30, 1, false⟩
def F.TALLY_STAT_BUSY : GF := ⟨.tally, 0x4, 29, 1, false⟩
def F.TALLY_STAT_UPD_REJ : GF := ⟨.tally, 0x4, 28, 1, false⟩
/-- TALLY.SEQ. -/
def TALLY_SEQ (n : Nat) : Nat := 0x8 + 0x4 * n
def F.TALLY_SEQ_SEQ (n : Nat) : GF := ⟨.tally, 0x8 + 0x4 * n, 0, 32, false⟩
/-- TALLY.POH. -/
def TALLY_POH (n : Nat) : Nat := 0x10 + 0x4 * n
def F.TALLY_POH_POH (n : Nat) : GF := ⟨.tally, 0x10 + 0x4 * n, 0, 32, false⟩
/-- TALLY.EVT. -/
def TALLY_EVT : Nat := 0x18
def F.TALLY_EVT_LOST : GF := ⟨.tally, 0x18, 1, 1, false⟩
def F.TALLY_EVT_UPD : GF := ⟨.tally, 0x18, 0, 1, false⟩
/-- TALLY.RD_IDX. -/
def TALLY_RD_IDX : Nat := 0x20
def F.TALLY_RD_IDX_IDX : GF := ⟨.tally, 0x20, 0, 10, false⟩
/-- TALLY.RD_DATA. -/
def TALLY_RD_DATA : Nat := 0x24
def F.TALLY_RD_DATA_DATA : GF := ⟨.tally, 0x24, 0, 32, false⟩
/-- TWIN.CTL. -/
def TWIN_CTL : Nat := 0x0
def F.TWIN_CTL_COMMIT : GF := ⟨.twin, 0x0, 31, 1, false⟩
def F.TWIN_CTL_CERR : GF := ⟨.twin, 0x0, 30, 1, false⟩
def F.TWIN_CTL_LOCK : GF := ⟨.twin, 0x0, 29, 1, false⟩
def F.TWIN_CTL_FENCE : GF := ⟨.twin, 0x0, 28, 1, false⟩
def F.TWIN_CTL_UNFENCE : GF := ⟨.twin, 0x0, 27, 1, false⟩
/-- TWIN.CFG. -/
def TWIN_CFG : Nat := 0x4
def F.TWIN_CFG_PAIR : GF := ⟨.twin, 0x4, 31, 1, true⟩
def F.TWIN_CFG_UNIT : GF := ⟨.twin, 0x4, 30, 1, true⟩
def F.TWIN_CFG_PRIO : GF := ⟨.twin, 0x4, 23, 7, true⟩
def F.TWIN_CFG_VINT_PER : GF := ⟨.twin, 0x4, 8, 8, true⟩
def F.TWIN_CFG_BOOT_WAIT : GF := ⟨.twin, 0x4, 0, 8, true⟩
/-- TWIN.PEER_ID_LO. -/
def TWIN_PEER_ID_LO : Nat := 0x8
def F.TWIN_PEER_ID_LO_ID_LO : GF := ⟨.twin, 0x8, 0, 32, true⟩
/-- TWIN.PEER_ID_HI. -/
def TWIN_PEER_ID_HI : Nat := 0xC
def F.TWIN_PEER_ID_HI_ID_HI : GF := ⟨.twin, 0xC, 0, 32, true⟩
/-- TWIN.STAT. -/
def TWIN_STAT : Nat := 0x10
def F.TWIN_STAT_STATE : GF := ⟨.twin, 0x10, 29, 3, false⟩
def F.TWIN_STAT_DRIVE : GF := ⟨.twin, 0x10, 28, 1, false⟩
def F.TWIN_STAT_PATH_A : GF := ⟨.twin, 0x10, 26, 2, false⟩
def F.TWIN_STAT_PATH_B : GF := ⟨.twin, 0x10, 24, 2, false⟩
def F.TWIN_STAT_PEER_LOST : GF := ⟨.twin, 0x10, 23, 1, false⟩
def F.TWIN_STAT_RACK_WAIT : GF := ⟨.twin, 0x10, 22, 1, false⟩
def F.TWIN_STAT_CLAIM_BAD : GF := ⟨.twin, 0x10, 21, 1, false⟩
def F.TWIN_STAT_CONTEND : GF := ⟨.twin, 0x10, 20, 1, false⟩
def F.TWIN_STAT_MOSC_DIFF : GF := ⟨.twin, 0x10, 19, 1, false⟩
def F.TWIN_STAT_FEEDS_OK : GF := ⟨.twin, 0x10, 18, 1, false⟩
def F.TWIN_STAT_READY : GF := ⟨.twin, 0x10, 12, 4, false⟩
def F.TWIN_STAT_PEER_RUN : GF := ⟨.twin, 0x10, 8, 4, false⟩
def F.TWIN_STAT_PEER_STATE : GF := ⟨.twin, 0x10, 5, 3, false⟩
/-- TWIN.CLAIM. -/
def TWIN_CLAIM : Nat := 0x14
def F.TWIN_CLAIM_CLAIM : GF := ⟨.twin, 0x14, 0, 32, false⟩
/-- TWIN.EPOCH. -/
def TWIN_EPOCH : Nat := 0x18
def F.TWIN_EPOCH_EPOCH : GF := ⟨.twin, 0x18, 0, 24, false⟩
/-- TWIN.ROUND. -/
def TWIN_ROUND : Nat := 0x1C
def F.TWIN_ROUND_W : GF := ⟨.twin, 0x1C, 0, 32, false⟩
/-- TWIN.TOFS. -/
def TWIN_TOFS : Nat := 0x20
def F.TWIN_TOFS_TOFS : GF := ⟨.twin, 0x20, 0, 32, false⟩
/-- TWIN.TDLY. -/
def TWIN_TDLY : Nat := 0x24
def F.TWIN_TDLY_TDLY : GF := ⟨.twin, 0x24, 0, 32, false⟩
/-- TWIN.TCAL. -/
def TWIN_TCAL : Nat := 0x28
def F.TWIN_TCAL_TCAL : GF := ⟨.twin, 0x28, 0, 32, true⟩
/-- TWIN.TBUD. -/
def TWIN_TBUD : Nat := 0x2C
def F.TWIN_TBUD_TBUD : GF := ⟨.twin, 0x2C, 0, 32, true⟩
/-- TWIN.RACK_STAT. -/
def TWIN_RACK_STAT : Nat := 0x30
def F.TWIN_RACK_STAT_RES : GF := ⟨.twin, 0x30, 0, 16, false⟩
/-- TWIN.RACK_T. -/
def TWIN_RACK_T : Nat := 0x34
def F.TWIN_RACK_T_T : GF := ⟨.twin, 0x34, 0, 32, false⟩
/-- TWIN.EVT. -/
def TWIN_EVT : Nat := 0x40
def F.TWIN_EVT_MOSC_DIFF : GF := ⟨.twin, 0x40, 11, 1, false⟩
def F.TWIN_EVT_PEER_LOST : GF := ⟨.twin, 0x40, 10, 1, false⟩
def F.TWIN_EVT_DRILL_FAIL : GF := ⟨.twin, 0x40, 9, 1, false⟩
def F.TWIN_EVT_NOTREADY : GF := ⟨.twin, 0x40, 8, 1, false⟩
def F.TWIN_EVT_RACK_WAIT : GF := ⟨.twin, 0x40, 7, 1, false⟩
def F.TWIN_EVT_COLLIDE : GF := ⟨.twin, 0x40, 6, 1, false⟩
def F.TWIN_EVT_CONTEND : GF := ⟨.twin, 0x40, 5, 1, false⟩
def F.TWIN_EVT_CLAIM_BAD : GF := ⟨.twin, 0x40, 4, 1, false⟩
def F.TWIN_EVT_DRIVE : GF := ⟨.twin, 0x40, 3, 1, false⟩
def F.TWIN_EVT_DECLARE : GF := ⟨.twin, 0x40, 2, 1, false⟩
def F.TWIN_EVT_PATH : GF := ⟨.twin, 0x40, 1, 1, false⟩
def F.TWIN_EVT_STATE : GF := ⟨.twin, 0x40, 0, 1, false⟩
/-- TWIN.CNT0. -/
def TWIN_CNT0 : Nat := 0x44
def F.TWIN_CNT0_MISS_A : GF := ⟨.twin, 0x44, 16, 16, false⟩
def F.TWIN_CNT0_MISS_B : GF := ⟨.twin, 0x44, 0, 16, false⟩
/-- TWIN.CNT1. -/
def TWIN_CNT1 : Nat := 0x48
def F.TWIN_CNT1_CRC_ERR : GF := ⟨.twin, 0x48, 16, 16, false⟩
def F.TWIN_CNT1_GAP : GF := ⟨.twin, 0x48, 0, 16, false⟩
/-- TWIN.CNT2. -/
def TWIN_CNT2 : Nat := 0x4C
def F.TWIN_CNT2_LOST : GF := ⟨.twin, 0x4C, 16, 16, false⟩
def F.TWIN_CNT2_RESYNC : GF := ⟨.twin, 0x4C, 0, 16, false⟩
/-- TWIN.RX_JSEQ. -/
def TWIN_RX_JSEQ (n : Nat) (m : Nat) : Nat := 0x60 + 0x8 * n + 0x4 * m
def F.TWIN_RX_JSEQ_JSEQ (n : Nat) (m : Nat) : GF := ⟨.twin, 0x60 + 0x8 * n + 0x4 * m, 0, 32, false⟩
/-- BENCH.CTL. -/
def BENCH_CTL : Nat := 0x0
def F.BENCH_CTL_COMMIT : GF := ⟨.bench, 0x0, 31, 1, false⟩
def F.BENCH_CTL_CERR : GF := ⟨.bench, 0x0, 30, 1, false⟩
def F.BENCH_CTL_LOCK : GF := ⟨.bench, 0x0, 29, 1, false⟩
/-- BENCH.CFG. -/
def BENCH_CFG : Nat := 0x4
def F.BENCH_CFG_EN : GF := ⟨.bench, 0x4, 31, 1, true⟩
def F.BENCH_CFG_HOLD : GF := ⟨.bench, 0x4, 8, 8, true⟩
/-- BENCH.STAT. -/
def BENCH_STAT : Nat := 0x8
def F.BENCH_STAT_ADDR_VALID : GF := ⟨.bench, 0x8, 31, 1, false⟩
def F.BENCH_STAT_FULL : GF := ⟨.bench, 0x8, 30, 1, false⟩
def F.BENCH_STAT_DEVS : GF := ⟨.bench, 0x8, 16, 9, false⟩
def F.BENCH_STAT_ADDR : GF := ⟨.bench, 0x8, 0, 8, false⟩
/-- BENCH.EVT. -/
def BENCH_EVT : Nat := 0xC
def F.BENCH_EVT_FULL : GF := ⟨.bench, 0xC, 3, 1, false⟩
def F.BENCH_EVT_ROUTE : GF := ⟨.bench, 0xC, 2, 1, false⟩
def F.BENCH_EVT_TOPO : GF := ⟨.bench, 0xC, 1, 1, false⟩
def F.BENCH_EVT_ADDR : GF := ⟨.bench, 0xC, 0, 1, false⟩
/-- BENCH.CNT0. -/
def BENCH_CNT0 : Nat := 0x10
def F.BENCH_CNT0_FWD : GF := ⟨.bench, 0x10, 16, 16, false⟩
def F.BENCH_CNT0_RPF_DROP : GF := ⟨.bench, 0x10, 0, 16, false⟩
/-- BENCH.CNT1. -/
def BENCH_CNT1 : Nat := 0x14
def F.BENCH_CNT1_ABSENT : GF := ⟨.bench, 0x14, 16, 16, false⟩
def F.BENCH_CNT1_LSA_OLD : GF := ⟨.bench, 0x14, 0, 16, false⟩
/-- BENCH.LSA_SEQ. -/
def BENCH_LSA_SEQ : Nat := 0x18
def F.BENCH_LSA_SEQ_SEQ : GF := ⟨.bench, 0x18, 0, 32, false⟩
/-- BENCH.CAL_CTL. -/
def BENCH_CAL_CTL : Nat := 0x20
def F.BENCH_CAL_CTL_GO : GF := ⟨.bench, 0x20, 31, 1, false⟩
def F.BENCH_CAL_CTL_BUSY : GF := ⟨.bench, 0x20, 30, 1, false⟩
def F.BENCH_CAL_CTL_DONE : GF := ⟨.bench, 0x20, 29, 1, false⟩
def F.BENCH_CAL_CTL_ERR : GF := ⟨.bench, 0x20, 28, 1, false⟩
def F.BENCH_CAL_CTL_LINK_B : GF := ⟨.bench, 0x20, 4, 3, false⟩
def F.BENCH_CAL_CTL_LINK_A : GF := ⟨.bench, 0x20, 0, 3, false⟩
/-- BENCH.CAL_AB. -/
def BENCH_CAL_AB (n : Nat) : Nat := 0x24 + 0x4 * n
def F.BENCH_CAL_AB_DLY (n : Nat) : GF := ⟨.bench, 0x24 + 0x4 * n, 0, 32, false⟩
/-- BENCH.ROUTE. -/
def BENCH_ROUTE (n : Nat) : Nat := 0x1000 + 0x4 * n
def F.BENCH_ROUTE_VALID (n : Nat) : GF := ⟨.bench, 0x1000 + 0x4 * n, 31, 1, false⟩
def F.BENCH_ROUTE_LINK (n : Nat) : GF := ⟨.bench, 0x1000 + 0x4 * n, 28, 3, false⟩
def F.BENCH_ROUTE_HOPS (n : Nat) : GF := ⟨.bench, 0x1000 + 0x4 * n, 24, 4, false⟩
def F.BENCH_ROUTE_DELAY (n : Nat) : GF := ⟨.bench, 0x1000 + 0x4 * n, 0, 24, false⟩
/-- BENCH.DEV. -/
def BENCH_DEV (n : Nat) (m : Nat) : Nat := 0x1400 + 0x8 * n + 0x4 * m
def F.BENCH_DEV_DEVID (n : Nat) (m : Nat) : GF := ⟨.bench, 0x1400 + 0x8 * n + 0x4 * m, 0, 32, false⟩
/-- CLKGEN.CTL. -/
def CLKGEN_CTL : Nat := 0x0
def F.CLKGEN_CTL_COMMIT : GF := ⟨.clkgen, 0x0, 31, 1, false⟩
def F.CLKGEN_CTL_CERR : GF := ⟨.clkgen, 0x0, 30, 1, false⟩
def F.CLKGEN_CTL_LOCK : GF := ⟨.clkgen, 0x0, 29, 1, false⟩
/-- CLKGEN.MOSC_STAT. -/
def CLKGEN_MOSC_STAT : Nat := 0x4
def F.CLKGEN_MOSC_STAT_PRESENT : GF := ⟨.clkgen, 0x4, 31, 1, false⟩
def F.CLKGEN_MOSC_STAT_FREQ : GF := ⟨.clkgen, 0x4, 28, 3, false⟩
def F.CLKGEN_MOSC_STAT_LOSSES : GF := ⟨.clkgen, 0x4, 0, 16, false⟩
/-- CLKGEN.MOSC_CFG. -/
def CLKGEN_MOSC_CFG : Nat := 0x8
def F.CLKGEN_MOSC_CFG_EXPECT : GF := ⟨.clkgen, 0x8, 29, 3, true⟩
/-- CLKGEN.ROOT_CFG. -/
def CLKGEN_ROOT_CFG (n : Nat) : Nat := 0x10 + 0x4 * n
def F.CLKGEN_ROOT_CFG_BUS (n : Nat) : GF := ⟨.clkgen, 0x10 + 0x4 * n, 1, 1, true⟩
def F.CLKGEN_ROOT_CFG_CORE (n : Nat) : GF := ⟨.clkgen, 0x10 + 0x4 * n, 0, 1, true⟩
/-- CLKGEN.ROOT_STAT. -/
def CLKGEN_ROOT_STAT (n : Nat) : Nat := 0x30 + 0x4 * n
def F.CLKGEN_ROOT_STAT_STATE (n : Nat) : GF := ⟨.clkgen, 0x30 + 0x4 * n, 30, 2, false⟩
def F.CLKGEN_ROOT_STAT_LOL (n : Nat) : GF := ⟨.clkgen, 0x30 + 0x4 * n, 29, 1, false⟩
def F.CLKGEN_ROOT_STAT_RELOCKS (n : Nat) : GF := ⟨.clkgen, 0x30 + 0x4 * n, 0, 16, false⟩
/-- CLKGEN.FORCE. -/
def CLKGEN_FORCE : Nat := 0x50
def F.CLKGEN_FORCE_GATE : GF := ⟨.clkgen, 0x50, 31, 1, false⟩
def F.CLKGEN_FORCE_SWITCH : GF := ⟨.clkgen, 0x50, 30, 1, false⟩
def F.CLKGEN_FORCE_STUCK : GF := ⟨.clkgen, 0x50, 29, 1, false⟩
def F.CLKGEN_FORCE_BLOCK : GF := ⟨.clkgen, 0x50, 0, 16, false⟩
/-- CLKGEN.EVT. -/
def CLKGEN_EVT : Nat := 0x54
def F.CLKGEN_EVT_FORCE : GF := ⟨.clkgen, 0x54, 2, 1, false⟩
def F.CLKGEN_EVT_ROOT : GF := ⟨.clkgen, 0x54, 1, 1, false⟩
def F.CLKGEN_EVT_MOSC : GF := ⟨.clkgen, 0x54, 0, 1, false⟩
/-- PWR.STAT. -/
def PWR_STAT : Nat := 0x0
def F.PWR_STAT_PSTATE : GF := ⟨.pwr, 0x0, 30, 2, false⟩
def F.PWR_STAT_FEEDS_OK : GF := ⟨.pwr, 0x0, 29, 1, false⟩
def F.PWR_STAT_VINA_GOOD : GF := ⟨.pwr, 0x0, 28, 1, false⟩
def F.PWR_STAT_VINB_GOOD : GF := ⟨.pwr, 0x0, 27, 1, false⟩
def F.PWR_STAT_VINA_PASS : GF := ⟨.pwr, 0x0, 26, 1, false⟩
def F.PWR_STAT_VINB_PASS : GF := ⟨.pwr, 0x0, 25, 1, false⟩
def F.PWR_STAT_CHK_BUSY : GF := ⟨.pwr, 0x0, 24, 1, false⟩
def F.PWR_STAT_BOOT : GF := ⟨.pwr, 0x0, 20, 4, false⟩
def F.PWR_STAT_CHPWR : GF := ⟨.pwr, 0x0, 12, 4, false⟩
/-- PWR.VIN. -/
def PWR_VIN : Nat := 0x4
def F.PWR_VIN_VINA : GF := ⟨.pwr, 0x4, 16, 16, false⟩
def F.PWR_VIN_VINB : GF := ⟨.pwr, 0x4, 0, 16, false⟩
/-- PWR.TJ. -/
def PWR_TJ : Nat := 0x8
def F.PWR_TJ_TJ : GF := ⟨.pwr, 0x8, 0, 16, false⟩
/-- PWR.FCHK. -/
def PWR_FCHK : Nat := 0xC
def F.PWR_FCHK_VINA_MIN : GF := ⟨.pwr, 0xC, 16, 16, false⟩
def F.PWR_FCHK_VINB_MIN : GF := ⟨.pwr, 0xC, 0, 16, false⟩
/-- PWR.RST_CAUSE. -/
def PWR_RST_CAUSE : Nat := 0x10
def F.PWR_RST_CAUSE_BOOTSEL : GF := ⟨.pwr, 0x10, 6, 2, false⟩
def F.PWR_RST_CAUSE_BOOTSEL_BAD : GF := ⟨.pwr, 0x10, 5, 1, false⟩
def F.PWR_RST_CAUSE_CAUSE : GF := ⟨.pwr, 0x10, 0, 3, false⟩
/-- PWR.EVT. -/
def PWR_EVT : Nat := 0x14
def F.PWR_EVT_TJ : GF := ⟨.pwr, 0x14, 4, 1, false⟩
def F.PWR_EVT_CHK : GF := ⟨.pwr, 0x14, 3, 1, false⟩
def F.PWR_EVT_FEEDS_OK : GF := ⟨.pwr, 0x14, 2, 1, false⟩
def F.PWR_EVT_VINB : GF := ⟨.pwr, 0x14, 1, 1, false⟩
def F.PWR_EVT_VINA : GF := ⟨.pwr, 0x14, 0, 1, false⟩
/-- IMAGE.CTL. -/
def IMAGE_CTL : Nat := 0x0
def F.IMAGE_CTL_LOCK : GF := ⟨.image, 0x0, 29, 1, false⟩
/-- IMAGE.CFG. -/
def IMAGE_CFG : Nat := 0x4
def F.IMAGE_CFG_OWNER_SLOT : GF := ⟨.image, 0x4, 0, 8, false⟩
/-- IMAGE.STAT. -/
def IMAGE_STAT : Nat := 0x8
def F.IMAGE_STAT_BUSY : GF := ⟨.image, 0x8, 31, 1, false⟩
def F.IMAGE_STAT_PHASE : GF := ⟨.image, 0x8, 28, 3, false⟩
def F.IMAGE_STAT_TARGET : GF := ⟨.image, 0x8, 24, 4, false⟩
def F.IMAGE_STAT_ERR : GF := ⟨.image, 0x8, 16, 8, false⟩
def F.IMAGE_STAT_RECIDX : GF := ⟨.image, 0x8, 0, 16, false⟩
/-- IMAGE.EVT. -/
def IMAGE_EVT : Nat := 0xC
def F.IMAGE_EVT_FLOOR : GF := ⟨.image, 0xC, 3, 1, false⟩
def F.IMAGE_EVT_FALLBACK : GF := ⟨.image, 0xC, 2, 1, false⟩
def F.IMAGE_EVT_FAIL : GF := ⟨.image, 0xC, 1, 1, false⟩
def F.IMAGE_EVT_DONE : GF := ⟨.image, 0xC, 0, 1, false⟩
/-- IMAGE.ABSENT. -/
def IMAGE_ABSENT : Nat := 0x10
def F.IMAGE_ABSENT_CH_ABSENT : GF := ⟨.image, 0x10, 0, 4, false⟩
/-- IMAGE.CH_CTL. -/
def IMAGE_CH_CTL (n : Nat) : Nat := 0x20 + 0x10 * n
def F.IMAGE_CH_CTL_GATE (n : Nat) : GF := ⟨.image, 0x20 + 0x10 * n, 31, 1, false⟩
def F.IMAGE_CH_CTL_UNGATE (n : Nat) : GF := ⟨.image, 0x20 + 0x10 * n, 30, 1, false⟩
def F.IMAGE_CH_CTL_RESET (n : Nat) : GF := ⟨.image, 0x20 + 0x10 * n, 29, 1, false⟩
/-- IMAGE.CH_STAT. -/
def IMAGE_CH_STAT (n : Nat) : Nat := 0x24 + 0x10 * n
def F.IMAGE_CH_STAT_STATE (n : Nat) : GF := ⟨.image, 0x24 + 0x10 * n, 29, 3, false⟩
def F.IMAGE_CH_STAT_HELD (n : Nat) : GF := ⟨.image, 0x24 + 0x10 * n, 28, 1, false⟩
def F.IMAGE_CH_STAT_STAGED (n : Nat) : GF := ⟨.image, 0x24 + 0x10 * n, 27, 1, false⟩
def F.IMAGE_CH_STAT_CARRIED (n : Nat) : GF := ⟨.image, 0x24 + 0x10 * n, 26, 1, false⟩
def F.IMAGE_CH_STAT_LOADS (n : Nat) : GF := ⟨.image, 0x24 + 0x10 * n, 0, 16, false⟩
/-- IMAGE.CH_DROP. -/
def IMAGE_CH_DROP (n : Nat) : Nat := 0x28 + 0x10 * n
def F.IMAGE_CH_DROP_REQ_ABSENT (n : Nat) : GF := ⟨.image, 0x28 + 0x10 * n, 16, 16, false⟩
def F.IMAGE_CH_DROP_REPLY_DISC (n : Nat) : GF := ⟨.image, 0x28 + 0x10 * n, 0, 16, false⟩
/-- IMAGE.SVN_CMN. -/
def IMAGE_SVN_CMN : Nat := 0x60
def F.IMAGE_SVN_CMN_FLOOR : GF := ⟨.image, 0x60, 0, 32, false⟩
/-- IMAGE.SVN_CH. -/
def IMAGE_SVN_CH : Nat := 0x64
def F.IMAGE_SVN_CH_FLOOR : GF := ⟨.image, 0x64, 0, 32, false⟩
/-- IMAGE.FWVER. -/
def IMAGE_FWVER (n : Nat) : Nat := 0x70 + 0x4 * n
def F.IMAGE_FWVER_FWVER (n : Nat) : GF := ⟨.image, 0x70 + 0x4 * n, 0, 32, false⟩
/-- IMAGE.MEAS_CMN. -/
def IMAGE_MEAS_CMN (n : Nat) : Nat := 0x100 + 0x4 * n
def F.IMAGE_MEAS_CMN_MEAS (n : Nat) : GF := ⟨.image, 0x100 + 0x4 * n, 0, 32, false⟩
/-- IMAGE.MEAS_CH. -/
def IMAGE_MEAS_CH (n : Nat) (m : Nat) : Nat := 0x140 + 0x40 * n + 0x4 * m
def F.IMAGE_MEAS_CH_MEAS (n : Nat) (m : Nat) : GF := ⟨.image, 0x140 + 0x40 * n + 0x4 * m, 0, 32, false⟩
/-- IMAGE.MEAS_STG. -/
def IMAGE_MEAS_STG (n : Nat) (m : Nat) : Nat := 0x240 + 0x40 * n + 0x4 * m
def F.IMAGE_MEAS_STG_MEAS (n : Nat) (m : Nat) : GF := ⟨.image, 0x240 + 0x40 * n + 0x4 * m, 0, 32, false⟩

end Sys2Proof.Machine
end

