-- ==== Sys2Proof/Machine/Intervals.lean ====
section
/-! DEFINITION. Interval arithmetic of Ganov time: the operations of R43 and R44, and the exports of R51 to R55. -/
namespace Sys2Proof.Machine

/-- The saturated code of R37 and R38. -/
def SAT : Bound := 0xFFFFFFFF

/-- sat_add of R43. -/
def satAdd (a b : Bound) : Bound :=
  if a ≥ SAT ∨ b ≥ SAT then SAT else if a + b ≥ SAT then SAT else a + b

/-- A bound brought into the code range of R37: every result of 0xFFFF_FFFF or more is the saturated code (R42). -/
def satCap (a : Nat) : Bound := if a ≥ SAT then SAT else a

/-- teb_of_ps of R43: picoseconds to TEB LSBs, rounded up. -/
def tebOfPs (p : Nat) : Nat := (p * 268435456 + 244140624) / 244140625

/-- point_of_ps of R43: signed picoseconds to 2^-64 s, floored. -/
def pointOfPs (p : Int) : Gt := Int.fdiv (p * 2 ^ 52) 244140625

/-- An interval: a point in 2^-64 s and its bound. -/
structure Iv where
  t : Gt
  h : Bound
  deriving DecidableEq, Repr

/-- shift of R43: a correction of `p` ps with a budget of `u` ps. -/
def Iv.shift (x : Iv) (p : Int) (u : Nat) : Iv :=
  ⟨x.t + pointOfPs p, satAdd x.h (satAdd (tebOfPs u) 1)⟩

/-- diff of R43. -/
def Iv.diff (x y : Iv) : Iv := ⟨x.t - y.t, satAdd x.h y.h⟩

/-- grow of R43: `dt` is the elapsed time in 2^-64 s. -/
def grow (h fb : Bound) (dt : Int) : Bound :=
  let d := dt.toNat
  if fb ≥ SAT then SAT
  else
    let dt32 := (d + 0xFFFFFFFF) / 2 ^ 32
    let g := (fb * dt32 + 2 ^ 40 - 1) / 2 ^ 40
    if g ≥ SAT then SAT else satAdd h g

/-- scale of R43: the factor `num / 2^sh`. -/
def Iv.scale (x : Iv) (num sh : Nat) : Iv :=
  let t' := sar (x.t * num) sh
  if x.h ≥ SAT then ⟨t', SAT⟩
  else
    let g := (x.h * num + 2 ^ sh - 1) / 2 ^ sh
    if g ≥ SAT then ⟨t', SAT⟩ else ⟨t', satAdd g 1⟩

/-- How an intersection ends (R44). -/
inductive Inter
  | untraceable
  | empty
  | iv (c : Gt) (w : Bound) (tag : Word)
  deriving DecidableEq, Repr

/-- The low end of a member of an intersection. -/
def Iv.lo (x : Iv) : Gt := x.t - x.h * 2 ^ 24
/-- The high end of a member of an intersection. -/
def Iv.hi (x : Iv) : Gt := x.t + x.h * 2 ^ 24

/-- intersect of R44, over members with their tags. -/
def intersect (xs : List (Iv × Word)) : Inter :=
  let ys := xs.filter (fun m => m.1.h < SAT)
  match ys with
  | [] => .untraceable
  | y :: r =>
    let lo := r.foldl (fun a m => max a m.1.lo) y.1.lo
    let hi := r.foldl (fun a m => min a m.1.hi) y.1.hi
    let tag := ys.foldl (fun a m => a ||| m.2) 0#32
    if lo > hi then .empty
    else
      let c := lo + sar (hi - lo) 1
      .iv c (sar (hi - c + 2 ^ 24 - 1) 24).toNat tag

/-- The bound term of an unsigned picosecond budget: teb_of_ps(p) + 1 (R45, R68, R181). -/
def budTerm (p : Nat) : Bound := satAdd (satCap (tebOfPs p)) 1

/-! ### Exports -/

/-- A PTP timestamp with the sub-nanosecond part that goes to correctionField (R51). -/
structure PtpTs where
  s : Nat
  ns : Nat
  sub : Nat
  teb : Bound
  deriving DecidableEq, Repr

/-- to_ptp of R51; none where the time is not exportable (R53). -/
def toPtp (t : Gt) (h : Bound) : Option PtpTs :=
  let s := sar t 64
  let f := unsigned 64 t
  if s < 0 ∨ s ≥ 2 ^ 48 then none
  else
    let p := f * 1000000000
    some ⟨s.toNat, p / 2 ^ 64, (p / 2 ^ 48) % 65536, satAdd h 1⟩

/-- A PTP timestamp and a correction in 2^-16 ns as GT128 (R52). -/
def ofPtp (s ns : Nat) (x : Int) : Gt :=
  (s : Int) * 2 ^ 64 + ((ns * 2 ^ 64 / 10 ^ 9 : Nat) : Int) + Int.fdiv (x * 2 ^ 48) (10 ^ 9)

/-- An NTP time: era, seconds, fraction and the bound (R54). -/
structure NtpTs where
  era : Int
  sec : Nat
  frac : Nat
  teb : Bound
  deriving DecidableEq, Repr

/-- to_ntp of R54, with the UTC offset in force given. -/
def toNtp (ofs : Int) (t : Gt) (h : Bound) : NtpTs :=
  let n := sar t 64 - ofs + 2208988800
  ⟨sar n 32, unsigned 32 n, unsigned 32 (sar t 32), satAdd h 256⟩

/-- The GT128 time of a received NTP timestamp, with the era nearest the channel time `now` (R54). -/
def ofNtp (ofs : Int) (now : Gt) (sec frac : Nat) : Gt :=
  let base : Int := ((sec : Int) - 2208988800 + ofs) * 2 ^ 64 + frac * 2 ^ 32
  let e := Int.fdiv (now - base + 2 ^ 95) (2 ^ 96)
  base + e * 2 ^ 96

/-- A TEB in picoseconds, rounded up (R55). -/
def tebToPs (h : Bound) : Nat := if h ≥ SAT then 0xFFFFFFFF else ceilDiv (h * 244140625) 268435456
/-- A TEB in nanoseconds, rounded up (R55). -/
def tebToNs (h : Bound) : Nat := if h ≥ SAT then 0xFFFFFFFF else ceilDiv (h * 10 ^ 9) (2 ^ 40)
/-- A TEB in PTP scaled nanoseconds, rounded up (R55). -/
def tebToScaledNs (h : Bound) : Nat := if h ≥ SAT then 0x7FFFFFFFFFFFFFFF else ceilDiv (h * 10 ^ 9) (2 ^ 24)
/-- A TEB in the NTP short format, rounded up (R55). -/
def tebToNtpShort (h : Bound) : Nat := if h ≥ SAT then 0xFFFFFFFF else ceilDiv h (2 ^ 24)

/-- A frequency bound given in ppb (R38). -/
def fbOfPpb (num den : Nat) : Nat := ceilDiv (num * 2 ^ 48) (den * 10 ^ 9)

/-! ### Tags -/

/-- A tag with only lane `n`'s bit in LANES (R39). -/
def tagLane (n : Nat) : Word := BitVec.ofNat 32 (2 ^ (16 + n % 16))
/-- The tag's LANES field. -/
def tagLanes (t : Word) : Nat := getField t 16 16
/-- HO of a tag (R39). -/
def tagHo (t : Word) : Bool := bit t 7
/-- The tag with flag bit `n` set or cleared. -/
def tagSet (t : Word) (n : Nat) (b : Bool) : Word := putField t n 1 (b2n b)
/-- The tag with CALSET taken from the channel (R40). -/
def tagCal (t : Word) (cal : Nat) : Word := putField t 8 8 cal

end Sys2Proof.Machine
end

