-- ==== Sys2Proof/Machine/RegMap.lean ====
section
/-! DEFINITION. The register map: every register that the register chapters of spec/ list (R64, R93, R121, R147, R172,
R197, R233, R252, R284, R305, R333, R359, R377, R403, R404, R405, R421, R422, R442, R443, R447), with the access type,
the reset value and the admitted codes of each field (R8, R10, R446). Reserved bits have no field. -/
namespace Sys2Proof.Machine

/-- Registers of the REF block, part 1 (R93). -/
def regsRef1 : List RegSpec := [
  -- CTL: COMMIT, CERR, LOCK
  ⟨0x0, [], [⟨31, 1, .wo, 0x0, .any⟩, ⟨30, 1, .w1c, 0x0, .any⟩, ⟨29, 1, .w1s, 0x0, .any⟩]⟩,
  -- POL_CFG: REVERT_A, REVERT_B, APPROVE_A, APPROVE_B, AGREE_N
  ⟨0x4, [], [⟨31, 1, .rws, 0x0, .any⟩, ⟨30, 1, .rws, 0x0, .any⟩, ⟨29, 1, .rwl, 0x0, .any⟩, ⟨28, 1, .rwl, 0x0, .any⟩, ⟨24, 4, .rws, 0x4, .any⟩]⟩,
  -- POL_AGREE: FAGREE
  ⟨0x8, [], [⟨0, 32, .rws, 0x0, .any⟩]⟩,
  -- POL_JUMP: JUMP_LIM
  ⟨0xC, [], [⟨0, 32, .rws, 0x0, .any⟩]⟩,
  -- SEL_STAT: VALID_A, SW_A, PV_A, PEND_A, LANE_A, PLANE_A, VALID_B, SW_B, PV_B, PEND_B, LANE_B, PLANE_B
  ⟨0x10, [], [⟨31, 1, .ro, 0x0, .any⟩, ⟨30, 1, .ro, 0x0, .any⟩, ⟨29, 1, .ro, 0x0, .any⟩, ⟨28, 1, .ro, 0x0, .any⟩, ⟨24, 4, .ro, 0x0, .any⟩, ⟨20, 4, .ro, 0x0, .any⟩, ⟨15, 1, .ro, 0x0, .any⟩, ⟨14, 1, .ro, 0x0, .any⟩, ⟨13, 1, .ro, 0x0, .any⟩, ⟨12, 1, .ro, 0x0, .any⟩, ⟨8, 4, .ro, 0x0, .any⟩, ⟨4, 4, .ro, 0x0, .any⟩]⟩,
  -- SEL_CMD: APPROVE_A, DENY_A, APPROVE_B, DENY_B
  ⟨0x14, [], [⟨31, 1, .wo, 0x0, .any⟩, ⟨30, 1, .wo, 0x0, .any⟩, ⟨29, 1, .wo, 0x0, .any⟩, ⟨28, 1, .wo, 0x0, .any⟩]⟩,
  -- EVT: OUTL, CONT, PROV, SELB, SELA, LANE
  ⟨0x18, [], [⟨20, 1, .w1c, 0x0, .any⟩, ⟨19, 1, .w1c, 0x0, .any⟩, ⟨18, 1, .w1c, 0x0, .any⟩, ⟨17, 1, .w1c, 0x0, .any⟩, ⟨16, 1, .w1c, 0x0, .any⟩, ⟨0, 16, .w1c, 0x0, .any⟩]⟩,
  -- TODI_CFG: EN, BAUD
  ⟨0x100, [(0x10, 2)], [⟨31, 1, .rws, 0x0, .any⟩, ⟨28, 3, .rws, 0x0, .any⟩]⟩,
  -- TODI_STAT: GOOD, BAD
  ⟨0x104, [(0x10, 2)], [⟨16, 16, .ro, 0x0, .any⟩, ⟨0, 16, .ro, 0x0, .any⟩]⟩,
  -- LANE_CFG: ENABLE, MODE, KIND, TODSEL, SRV_B, SRV_A, RANK, MISS_LIM, PHASE_OK
  ⟨0x1000, [(0x40, 8)], [⟨31, 1, .rws, 0x0, .any⟩, ⟨29, 2, .rwl, 0x0, .upTo 2⟩, ⟨27, 2, .rwl, 0x0, .upTo 2⟩, ⟨26, 1, .rwl, 0x0, .any⟩, ⟨25, 1, .rwl, 0x0, .any⟩, ⟨24, 1, .rwl, 0x0, .any⟩, ⟨20, 4, .rws, 0xF, .any⟩, ⟨16, 4, .rws, 0x3, .any⟩, ⟨15, 1, .rws, 0x0, .any⟩]⟩,
  -- LANE_CFG8: ENABLE, SRV_B, SRV_A, RANK, MISS_LIM, PHASE_OK
  ⟨0x1200, [(0x40, 8)], [⟨31, 1, .rws, 0x0, .any⟩, ⟨25, 1, .rwl, 0x0, .any⟩, ⟨24, 1, .rwl, 0x0, .any⟩, ⟨20, 4, .rws, 0xF, .any⟩, ⟨16, 4, .rws, 0x3, .any⟩, ⟨15, 1, .rws, 0x0, .any⟩]⟩,
  -- LANE_NOM: NOM_HZ
  ⟨0x1004, [(0x40, 8)], [⟨0, 30, .rwl, 0x0, .any⟩]⟩,
  -- LANE_NOM8: reserved bits only
  ⟨0x1204, [(0x40, 8)], []⟩,
  -- LANE_QUAL: QUAL_WIN, QUAL_MIN
  ⟨0x1008, [(0x40, 16)], [⟨16, 16, .rws, 0x0, .any⟩, ⟨0, 16, .rws, 0x1, .any⟩]⟩,
  -- LANE_FLIM: FLIM
  ⟨0x100C, [(0x40, 16)], [⟨0, 32, .rws, 0x0, .any⟩]⟩,
  -- LANE_TLIM: TLIM
  ⟨0x1010, [(0x40, 16)], [⟨0, 32, .rws, 0x0, .any⟩]⟩,
  -- LANE_TIME: WTR, DQ_HOLD
  ⟨0x1014, [(0x40, 16)], [⟨16, 16, .rws, 0x0, .any⟩, ⟨0, 16, .rws, 0x0, .any⟩]⟩,
  -- LANE_STEP: STEP_CONF, STEP_LIM
  ⟨0x1018, [(0x40, 16)], [⟨28, 4, .rws, 0x1, .any⟩, ⟨0, 28, .rws, 0x0, .any⟩]⟩,
  -- LANE_CDLY: CDLY
  ⟨0x101C, [(0x40, 8)], [⟨0, 32, .rws, 0x0, .absUpTo 1000000000⟩]⟩,
  -- LANE_CBUD: CBUD
  ⟨0x1020, [(0x40, 8)], [⟨0, 32, .rws, 0x0, .any⟩]⟩]

/-- Registers of the REF block, part 2 (R93). -/
def regsRef2 : List RegSpec := [
  -- LANE_SBUD: SBUD
  ⟨0x1024, [(0x40, 8)], [⟨0, 32, .rws, 0x0, .any⟩]⟩,
  -- LANE_STAT: EXISTS, STATE, LOS, RETURNING, OUTLIER, SEL_A, SEL_B, STEP, BACK, DISAGREE, LIMIT, SENT_ERR, TIMER
  ⟨0x1028, [(0x40, 16)], [⟨31, 1, .ro, 0x0, .any⟩, ⟨28, 3, .ro, 0x0, .any⟩, ⟨27, 1, .ro, 0x0, .any⟩, ⟨26, 1, .ro, 0x0, .any⟩, ⟨25, 1, .ro, 0x0, .any⟩, ⟨24, 1, .ro, 0x0, .any⟩, ⟨23, 1, .ro, 0x0, .any⟩, ⟨22, 1, .w1c, 0x0, .any⟩, ⟨21, 1, .w1c, 0x0, .any⟩, ⟨20, 1, .w1c, 0x0, .any⟩, ⟨19, 1, .w1c, 0x0, .any⟩, ⟨18, 1, .w1c, 0x0, .any⟩, ⟨0, 16, .ro, 0x0, .any⟩]⟩,
  -- LANE_CMD: CLR_STEP, REQUAL, UNFORCE, FORCE
  ⟨0x102C, [(0x40, 16)], [⟨3, 1, .wo, 0x0, .any⟩, ⟨2, 1, .wo, 0x0, .any⟩, ⟨1, 1, .wo, 0x0, .any⟩, ⟨0, 1, .wo, 0x0, .any⟩]⟩,
  -- LANE_STEPW: STEPW
  ⟨0x1030, [(0x40, 16)], [⟨0, 32, .ro, 0x0, .any⟩]⟩]

/-- Every register of the REF block (R93). -/
def regsRef : List RegSpec := regsRef1 ++ regsRef2

/-- Registers of the DPLL block, part 1 (R147). -/
def regsDpll1 : List RegSpec := [
  -- CTL: COMMIT, CERR, LOCK
  ⟨0x0, [], [⟨31, 1, .wo, 0x0, .any⟩, ⟨30, 1, .w1c, 0x0, .any⟩, ⟨29, 1, .w1s, 0x0, .any⟩]⟩,
  -- A_CFG: SET_EN, AGE_EN, MODEL, APPLY_DLY
  ⟨0x4, [], [⟨31, 1, .rwl, 0x1, .any⟩, ⟨30, 1, .rws, 0x0, .any⟩, ⟨28, 2, .rws, 0x0, .upTo 2⟩, ⟨0, 28, .rwl, 0x83D60, .any⟩]⟩,
  -- BW_A: BW_ACQ, BW_LOCK
  ⟨0x8, [], [⟨16, 16, .rws, 0x4FBA, .any⟩, ⟨0, 16, .rws, 0x3527, .any⟩]⟩,
  -- ADAPT: NARROW, LOCK_N, UNLOCK_N
  ⟨0xC, [], [⟨16, 16, .rws, 0x80, .any⟩, ⟨8, 8, .rws, 0x10, .any⟩, ⟨0, 8, .rws, 0x4, .any⟩]⟩,
  -- LOCK_TH: LOCK_TH
  ⟨0x10, [], [⟨0, 32, .rws, 0x44C, .any⟩]⟩,
  -- UNLOCK_TH: UNLOCK_TH
  ⟨0x14, [], [⟨0, 32, .rws, 0x1130, .any⟩]⟩,
  -- SL_TH: SL_TH
  ⟨0x18, [], [⟨0, 32, .rws, 0x2AF8, .any⟩]⟩,
  -- A_SLEW: SLEW
  ⟨0x1C, [], [⟨0, 32, .rws, 0x2710, .any⟩]⟩,
  -- FWIN: FWIN
  ⟨0x20, [], [⟨0, 16, .rws, 0x80, .any⟩]⟩,
  -- FB_WANDER: FB_WANDER
  ⟨0x24, [], [⟨0, 32, .rws, 0x0, .any⟩]⟩,
  -- HO_CEIL: CEIL
  ⟨0x30, [], [⟨0, 32, .rws, 0x1AD80, .any⟩]⟩,
  -- HO_A: A
  ⟨0x34, [], [⟨0, 32, .rws, 0x0, .any⟩]⟩,
  -- HO_B: B
  ⟨0x38, [], [⟨0, 32, .rws, 0x0, .any⟩]⟩,
  -- HO_C: C
  ⟨0x3C, [], [⟨0, 32, .rws, 0x0, .any⟩]⟩,
  -- HO_AGE_LO: AGE_LO
  ⟨0x40, [], [⟨0, 32, .rws, 0x0, .any⟩]⟩,
  -- HO_AGE_HI: AGE_HI
  ⟨0x44, [], [⟨0, 32, .rws, 0x0, .any⟩]⟩,
  -- LRN_B: B
  ⟨0x50, [], [⟨0, 32, .ro, 0x0, .any⟩]⟩,
  -- LRN_C: C
  ⟨0x54, [], [⟨0, 32, .ro, 0x0, .any⟩]⟩,
  -- LRN_AGE: AGE
  ⟨0x58, [(0x4, 2)], [⟨0, 32, .ro, 0x0, .any⟩]⟩,
  -- LRN_STAT: VALID, SAMPLES
  ⟨0x60, [], [⟨31, 1, .ro, 0x0, .any⟩, ⟨0, 16, .ro, 0x0, .any⟩]⟩]

/-- Registers of the DPLL block, part 2 (R147). -/
def regsDpll2 : List RegSpec := [
  -- STAT: STATE, SL, HO_VALID, TRACE, B_STATE, BWC
  ⟨0x80, [], [⟨29, 3, .ro, 0x0, .any⟩, ⟨28, 1, .ro, 0x0, .any⟩, ⟨27, 1, .ro, 0x0, .any⟩, ⟨26, 1, .ro, 0x0, .any⟩, ⟨24, 2, .ro, 0x0, .any⟩, ⟨0, 16, .ro, 0x4FBA, .any⟩]⟩,
  -- EVT: CHAR, BSTATE, ICLAMP, LIMIT, STEP_REJ, STEP, LATE, BACKN, SL, STATE
  ⟨0x84, [], [⟨9, 1, .w1c, 0x0, .any⟩, ⟨8, 1, .w1c, 0x0, .any⟩, ⟨7, 1, .w1c, 0x0, .any⟩, ⟨6, 1, .w1c, 0x0, .any⟩, ⟨5, 1, .w1c, 0x0, .any⟩, ⟨4, 1, .w1c, 0x0, .any⟩, ⟨3, 1, .w1c, 0x0, .any⟩, ⟨2, 1, .w1c, 0x0, .any⟩, ⟨1, 1, .w1c, 0x0, .any⟩, ⟨0, 1, .w1c, 0x0, .any⟩]⟩,
  -- LATE_CNT: LATE, STEPPED
  ⟨0x88, [], [⟨16, 16, .ro, 0x0, .any⟩, ⟨0, 16, .ro, 0x0, .any⟩]⟩,
  -- TIME: TIME
  ⟨0x100, [(0x4, 4)], [⟨0, 32, .ro, 0x0, .any⟩]⟩,
  -- TEB: TEB
  ⟨0x110, [], [⟨0, 32, .ro, 0xFFFFFFFF, .any⟩]⟩,
  -- TAG: TAG
  ⟨0x114, [], [⟨0, 32, .ro, 0x0, .any⟩]⟩,
  -- RATE: RATE
  ⟨0x120, [(0x4, 2)], [⟨0, 32, .ro, 0x0, .any⟩]⟩,
  -- PEND: PEND
  ⟨0x128, [(0x4, 4)], [⟨0, 32, .ro, 0x0, .any⟩]⟩,
  -- TEB0: TEB0
  ⟨0x138, [], [⟨0, 32, .ro, 0xFFFFFFFF, .any⟩]⟩,
  -- FB: FB
  ⟨0x13C, [], [⟨0, 32, .ro, 0xFFFFFFFF, .any⟩]⟩,
  -- LFB: LFB
  ⟨0x140, [], [⟨0, 32, .ro, 0xFFFFFFFF, .any⟩]⟩,
  -- T0: T0
  ⟨0x150, [(0x4, 4)], [⟨0, 32, .ro, 0x0, .any⟩]⟩,
  -- HO_T: T_S
  ⟨0x160, [], [⟨0, 32, .ro, 0x0, .any⟩]⟩,
  -- STEP_VAL: VAL
  ⟨0x200, [(0x4, 4)], [⟨0, 32, .rw, 0x0, .any⟩]⟩,
  -- STEP_CMD: GO, ABS, WAIT, ABORT
  ⟨0x210, [], [⟨31, 1, .wo, 0x0, .any⟩, ⟨30, 1, .rw, 0x0, .any⟩, ⟨29, 1, .ro, 0x0, .any⟩, ⟨28, 1, .wo, 0x0, .any⟩]⟩,
  -- B_CFG: FOLLOW_A, BW_B
  ⟨0x300, [], [⟨31, 1, .rws, 0x0, .any⟩, ⟨0, 16, .rws, 0x3527, .any⟩]⟩,
  -- RATE_B: RATE_B
  ⟨0x304, [(0x4, 2)], [⟨0, 32, .ro, 0x0, .any⟩]⟩,
  -- FB_B: FB_B
  ⟨0x30C, [], [⟨0, 32, .ro, 0xFFFFFFFF, .any⟩]⟩,
  -- J_WPTR: WPTR
  ⟨0x400, [], [⟨0, 17, .ro, 0x0, .any⟩]⟩,
  -- J_SEQ: JSEQ
  ⟨0x404, [(0x4, 2)], [⟨0, 32, .ro, 0x0, .any⟩]⟩]

/-- Registers of the DPLL block, part 3 (R147). -/
def regsDpll3 : List RegSpec := [
  -- J_STAT: WRAPS
  ⟨0x40C, [], [⟨0, 32, .ro, 0x0, .any⟩]⟩,
  -- TS_CFG: CALSET, UTC_SRC
  ⟨0xF0000, [], [⟨8, 8, .rw, 0x0, .any⟩, ⟨0, 2, .rw, 0x0, .upTo 2⟩]⟩,
  -- UTC_NOW: VALID, SEEN, REJ, CONFLICT, LI, OFS
  ⟨0xF0004, [], [⟨31, 1, .ro, 0x0, .any⟩, ⟨30, 1, .w1c, 0x0, .any⟩, ⟨29, 1, .w1c, 0x0, .any⟩, ⟨28, 1, .w1c, 0x0, .any⟩, ⟨16, 2, .ro, 0x3, .any⟩, ⟨0, 16, .ro, 0x0, .any⟩]⟩,
  -- LEAP_EFF_LO: EFF_LO
  ⟨0xF0100, [(0x10, 8)], [⟨0, 32, .rw, 0x0, .any⟩]⟩,
  -- LEAP_EFF_HI: EFF_HI
  ⟨0xF0104, [(0x10, 8)], [⟨0, 32, .rw, 0x0, .any⟩]⟩,
  -- LEAP_ENT: VALID, CONF, ORIGIN, OFS
  ⟨0xF0108, [(0x10, 8)], [⟨31, 1, .rw, 0x0, .any⟩, ⟨30, 1, .rw, 0x0, .any⟩, ⟨28, 2, .ro, 0x0, .any⟩, ⟨0, 16, .rw, 0x0, .any⟩]⟩,
  -- CAL_DLY: DLY
  ⟨0xF0200, [(0x8, 16)], [⟨0, 32, .rw, 0x0, .any⟩]⟩,
  -- CAL_BUD: BUD
  ⟨0xF0204, [(0x8, 16)], [⟨0, 32, .rw, 0x0, .any⟩]⟩]

/-- Every register of the DPLL block (R147). -/
def regsDpll : List RegSpec := regsDpll1 ++ regsDpll2 ++ regsDpll3

/-- Registers of the SYN block, part 1 (R172). -/
def regsSyn1 : List RegSpec := [
  -- CTL: SYN_COMMIT, CERR, LOCK, CPEND, CBUSY
  ⟨0x0, [], [⟨31, 1, .wo, 0x0, .any⟩, ⟨30, 1, .w1c, 0x0, .any⟩, ⟨29, 1, .w1s, 0x0, .any⟩, ⟨28, 1, .ro, 0x0, .any⟩, ⟨27, 1, .w1c, 0x0, .any⟩]⟩,
  -- SYN_CFG: EN, LOOP, FOLLOW, REFSEL, RLK_HOLD, COAST_SQ, NFB
  ⟨0x10, [(0x20, 2)], [⟨31, 1, .rws, 0x0, .any⟩, ⟨29, 2, .rwl, 0x0, .any⟩, ⟨26, 3, .rws, 0x0, .any⟩, ⟨23, 3, .rws, 0x0, .any⟩, ⟨22, 1, .rws, 0x1, .any⟩, ⟨21, 1, .rws, 0x0, .any⟩, ⟨0, 10, .rws, 0xC8, .any⟩]⟩,
  -- SYN_FNUM: NUM
  ⟨0x14, [(0x20, 2)], [⟨0, 32, .rws, 0x17D7840, .any⟩]⟩,
  -- SYN_FDEN: CPER, DEN
  ⟨0x18, [(0x20, 2)], [⟨24, 8, .rws, 0x1, .any⟩, ⟨0, 16, .rws, 0x1, .any⟩]⟩,
  -- SYN_WIN: N, W
  ⟨0x1C, [(0x20, 2)], [⟨16, 16, .rws, 0x100, .any⟩, ⟨0, 8, .rws, 0x14, .any⟩]⟩,
  -- SYN_STAT: STATE, LOCKIND, LOL, REFLOS, NOLOCK, RSYNC, RELOCKS
  ⟨0x20, [(0x20, 2)], [⟨30, 2, .ro, 0x0, .any⟩, ⟨29, 1, .ro, 0x0, .any⟩, ⟨28, 1, .w1c, 0x0, .any⟩, ⟨27, 1, .w1c, 0x0, .any⟩, ⟨26, 1, .w1c, 0x0, .any⟩, ⟨25, 1, .ro, 0x0, .any⟩, ⟨0, 16, .ro, 0x0, .any⟩]⟩,
  -- SYN_PERR: PERR
  ⟨0x24, [(0x20, 2)], [⟨0, 16, .ro, 0x0, .any⟩]⟩,
  -- OUT_CFG: EN, FMT, SRC, PRE, SQ
  ⟨0x100, [(0x10, 8)], [⟨31, 1, .rws, 0x0, .any⟩, ⟨29, 2, .rwl, 0x0, .any⟩, ⟨28, 1, .rws, 0x0, .any⟩, ⟨26, 2, .rws, 0x1, .any⟩, ⟨23, 3, .rws, 0x1, .any⟩]⟩,
  -- OUT_DIV: DIV
  ⟨0x104, [(0x10, 8)], [⟨0, 32, .rws, 0x64, .any⟩]⟩,
  -- OUT_BUD: BUD
  ⟨0x108, [(0x10, 8)], [⟨0, 32, .rws, 0x0, .any⟩]⟩,
  -- OUT_STAT: RUN
  ⟨0x10C, [(0x10, 8)], [⟨29, 3, .ro, 0x0, .any⟩]⟩,
  -- PLS_CFG: EN, MODE, UNIT, SQ, PER
  ⟨0x200, [(0x20, 2)], [⟨31, 1, .rws, 0x0, .any⟩, ⟨30, 1, .rwl, 0x0, .any⟩, ⟨29, 1, .rws, 0x1, .any⟩, ⟨26, 3, .rws, 0x1, .any⟩, ⟨0, 20, .rws, 0x1, .any⟩]⟩,
  -- PLS_WID: WID
  ⟨0x204, [(0x20, 2)], [⟨0, 32, .rws, 0x5F5E100, .any⟩]⟩,
  -- PLS_OFS: OFS
  ⟨0x208, [(0x20, 2)], [⟨0, 32, .rws, 0x0, .any⟩]⟩,
  -- PLS_BUD: BUD
  ⟨0x20C, [(0x20, 2)], [⟨0, 32, .rws, 0x0, .any⟩]⟩,
  -- PLS_STAT: RUN, SKIP
  ⟨0x210, [(0x20, 2)], [⟨29, 3, .ro, 0x0, .any⟩, ⟨0, 16, .ro, 0x0, .any⟩]⟩,
  -- TOD_CFG: EN, BAUD, PLS, TS, DLY
  ⟨0x300, [], [⟨31, 1, .rws, 0x0, .any⟩, ⟨28, 3, .rws, 0x0, .any⟩, ⟨27, 1, .rws, 0x0, .any⟩, ⟨26, 1, .rws, 0x0, .any⟩, ⟨0, 16, .rws, 0xA, .any⟩]⟩,
  -- TOD_STAT: SENT, SKIP
  ⟨0x304, [], [⟨16, 16, .ro, 0x0, .any⟩, ⟨0, 16, .ro, 0x0, .any⟩]⟩,
  -- RA_CTL: GO, MODE, AUTO, ACT, REJ
  ⟨0x400, [], [⟨31, 1, .wo, 0x0, .any⟩, ⟨30, 1, .rw, 0x0, .any⟩, ⟨29, 1, .rw, 0x0, .any⟩, ⟨28, 1, .ro, 0x0, .any⟩, ⟨27, 1, .w1c, 0x0, .any⟩]⟩,
  -- RA_SLEW: RA_SLEW
  ⟨0x404, [], [⟨0, 32, .rw, 0x2710, .any⟩]⟩]

/-- Registers of the SYN block, part 2 (R172). -/
def regsSyn2 : List RegSpec := [
  -- PDEV: PDEV
  ⟨0x410, [(0x4, 4)], [⟨0, 32, .ro, 0x0, .any⟩]⟩,
  -- OTEB: TEB
  ⟨0x500, [(0x4, 10)], [⟨0, 32, .ro, 0xFFFFFFFF, .any⟩]⟩,
  -- EVT: TODSKIP, RA_DONE, PSKIP, CAPPLY, NOLOCK, SYN1, SYN0
  ⟨0x600, [], [⟨6, 1, .w1c, 0x0, .any⟩, ⟨5, 1, .w1c, 0x0, .any⟩, ⟨4, 1, .w1c, 0x0, .any⟩, ⟨3, 1, .w1c, 0x0, .any⟩, ⟨2, 1, .w1c, 0x0, .any⟩, ⟨1, 1, .w1c, 0x0, .any⟩, ⟨0, 1, .w1c, 0x0, .any⟩]⟩]

/-- Every register of the SYN block (R172). -/
def regsSyn : List RegSpec := regsSyn1 ++ regsSyn2

/-- Registers of the GNSS block, part 1 (R121). -/
def regsGnss1 : List RegSpec := [
  -- CTL: COMMIT, CERR, LOCK
  ⟨0x0, [], [⟨31, 1, .wo, 0x0, .any⟩, ⟨30, 1, .w1c, 0x0, .any⟩, ⟨29, 1, .w1s, 0x0, .any⟩]⟩,
  -- FE_CFG: EN, RATE, CLKOUT, GPS_EN, GAL_EN
  ⟨0x4, [], [⟨31, 1, .rws, 0x0, .any⟩, ⟨29, 2, .rwl, 0x2, .any⟩, ⟨26, 3, .rwl, 0x0, .any⟩, ⟨25, 1, .rws, 0x1, .any⟩, ⟨24, 1, .rws, 0x1, .any⟩]⟩,
  -- FE_IF: IF
  ⟨0x8, [], [⟨0, 32, .rwl, 0x0, .any⟩]⟩,
  -- LINK_STAT: STATE, RATE_ERR, FE_LOCK, OVLD, AGC, CRC_ERR
  ⟨0xC, [], [⟨30, 2, .ro, 0x0, .any⟩, ⟨29, 1, .w1c, 0x0, .any⟩, ⟨28, 1, .ro, 0x0, .any⟩, ⟨27, 1, .w1c, 0x0, .any⟩, ⟨16, 8, .ro, 0x0, .any⟩, ⟨0, 16, .ro, 0x0, .any⟩]⟩,
  -- BC_CMD: GO, OP, ADDR
  ⟨0x10, [], [⟨31, 1, .wo, 0x0, .any⟩, ⟨24, 2, .rw, 0x0, .any⟩, ⟨0, 16, .rw, 0x0, .any⟩]⟩,
  -- BC_DATA: DATA
  ⟨0x14, [], [⟨0, 32, .rw, 0x0, .any⟩]⟩,
  -- BC_STAT: BUSY, DONE, ERR, TOUT
  ⟨0x18, [], [⟨31, 1, .ro, 0x0, .any⟩, ⟨30, 1, .w1c, 0x0, .any⟩, ⟨29, 1, .w1c, 0x0, .any⟩, ⟨28, 1, .w1c, 0x0, .any⟩]⟩,
  -- BC_RDATA: RDATA
  ⟨0x1C, [], [⟨0, 32, .ro, 0x0, .any⟩]⟩,
  -- TRK_CFG: DISC, MIN_CN0, MIN_SV, MASK
  ⟨0x20, [], [⟨30, 2, .rws, 0x0, .upTo 1⟩, ⟨24, 6, .rws, 0x1E, .any⟩, ⟨20, 4, .rws, 0x2, .any⟩, ⟨8, 7, .rws, 0xA, .any⟩]⟩,
  -- SPC_GPS: D2, D1, DMP
  ⟨0x24, [], [⟨16, 7, .rws, 0x40, .any⟩, ⟨8, 7, .rws, 0x20, .any⟩, ⟨0, 7, .rws, 0x4, .any⟩]⟩,
  -- SPC_GAL: D2, D1, DMP
  ⟨0x28, [], [⟨16, 7, .rws, 0x20, .any⟩, ⟨8, 7, .rws, 0x10, .any⟩, ⟨0, 7, .rws, 0x4, .any⟩]⟩,
  -- BUD: IONO_FLOOR, TROPO_FLOOR
  ⟨0x2C, [], [⟨16, 16, .rws, 0x3E8, .any⟩, ⟨0, 16, .rws, 0x64, .any⟩]⟩,
  -- GGTO_BUD: GGTO_BUD
  ⟨0x30, [], [⟨0, 32, .rws, 0xBB8, .any⟩]⟩,
  -- CDLY: CDLY
  ⟨0x34, [], [⟨0, 32, .rws, 0x0, .absUpTo 1000000000⟩]⟩,
  -- CBUD: CBUD
  ⟨0x38, [], [⟨0, 32, .rws, 0x0, .any⟩]⟩,
  -- JAM_CFG: WARN, ALARM, THR, FLOOR
  ⟨0x3C, [], [⟨24, 8, .rws, 0x28, .any⟩, ⟨16, 8, .rws, 0x50, .any⟩, ⟨8, 8, .rws, 0x30, .any⟩, ⟨0, 8, .rw, 0x0, .any⟩]⟩,
  -- JAM_STAT: JNI, JNI_MAX, FCAP
  ⟨0x40, [], [⟨24, 8, .ro, 0x0, .any⟩, ⟨16, 8, .ro, 0x0, .any⟩, ⟨0, 1, .wo, 0x0, .any⟩]⟩,
  -- NOTCH_CFG: EN, MODE, FREQ
  ⟨0xA0, [(0x8, 4)], [⟨31, 1, .rws, 0x0, .any⟩, ⟨30, 1, .rws, 0x0, .any⟩, ⟨0, 27, .rws, 0x0, .any⟩]⟩,
  -- NOTCH_STAT: STATE, FREQ
  ⟨0xA4, [(0x8, 4)], [⟨30, 2, .ro, 0x0, .any⟩, ⟨0, 27, .ro, 0x0, .any⟩]⟩,
  -- POS_LO: LO
  ⟨0x60, [(0x8, 3)], [⟨0, 32, .rw, 0x0, .any⟩]⟩]

/-- Registers of the GNSS block, part 2 (R121). -/
def regsGnss2 : List RegSpec := [
  -- POS_HI: HI
  ⟨0x64, [(0x8, 3)], [⟨0, 32, .rw, 0x0, .any⟩]⟩,
  -- POS_BND: BND
  ⟨0x78, [], [⟨0, 32, .rw, 0xFFFFFFFF, .any⟩]⟩,
  -- POS_CTL: SET, CLR, MODE
  ⟨0x7C, [], [⟨31, 1, .wo, 0x0, .any⟩, ⟨30, 1, .wo, 0x0, .any⟩, ⟨0, 2, .ro, 0x0, .any⟩]⟩,
  -- SURV_CFG: MIN_FIX, POS_LIM
  ⟨0x80, [], [⟨16, 16, .rw, 0xE10, .any⟩, ⟨0, 16, .rw, 0x1F4, .any⟩]⟩,
  -- SURV_MARGIN: POS_MARGIN
  ⟨0x84, [], [⟨0, 32, .rw, 0x3E8, .any⟩]⟩,
  -- SURV_STAT: FIXES, SPREAD
  ⟨0x88, [], [⟨16, 16, .ro, 0x0, .any⟩, ⟨0, 16, .ro, 0xFFFF, .any⟩]⟩,
  -- SOL_STAT: USED, EXCL, NOTCH_N
  ⟨0x8C, [], [⟨26, 6, .ro, 0x0, .any⟩, ⟨20, 6, .ro, 0x0, .any⟩, ⟨16, 3, .ro, 0x0, .any⟩]⟩,
  -- SOL_TEB: W
  ⟨0x90, [], [⟨0, 32, .ro, 0xFFFFFFFF, .any⟩]⟩,
  -- EVT: UTCD, SNAP, SURV, POS, EXCL, NOTCH, JALARM, JWARN, LINK
  ⟨0x94, [], [⟨8, 1, .w1c, 0x0, .any⟩, ⟨7, 1, .w1c, 0x0, .any⟩, ⟨6, 1, .w1c, 0x0, .any⟩, ⟨5, 1, .w1c, 0x0, .any⟩, ⟨4, 1, .w1c, 0x0, .any⟩, ⟨3, 1, .w1c, 0x0, .any⟩, ⟨2, 1, .w1c, 0x0, .any⟩, ⟨1, 1, .w1c, 0x0, .any⟩, ⟨0, 1, .w1c, 0x0, .any⟩]⟩,
  -- TRK_STAT: STATE, SYS, SV, CN0, USED, EXCL, MPM
  ⟨0x100, [(0x4, 48)], [⟨29, 3, .ro, 0x0, .any⟩, ⟨28, 1, .ro, 0x0, .any⟩, ⟨22, 6, .ro, 0x0, .any⟩, ⟨16, 6, .ro, 0x0, .any⟩, ⟨15, 1, .ro, 0x0, .any⟩, ⟨14, 1, .ro, 0x0, .any⟩, ⟨0, 12, .ro, 0x0, .any⟩]⟩,
  -- SNAP_CTL: GO, AT, LEN
  ⟨0x200, [], [⟨31, 1, .wo, 0x0, .any⟩, ⟨30, 1, .rw, 0x0, .any⟩, ⟨0, 7, .rw, 0x2, .any⟩]⟩,
  -- SNAP_T0: T0
  ⟨0x204, [(0x4, 4)], [⟨0, 32, .rw, 0x0, .any⟩]⟩,
  -- SNAP_STAT: STATE, BUSY, ERASED
  ⟨0x214, [], [⟨29, 3, .ro, 0x0, .any⟩, ⟨28, 1, .w1c, 0x0, .any⟩, ⟨0, 16, .ro, 0x0, .any⟩]⟩]

/-- Every register of the GNSS block (R121). -/
def regsGnss : List RegSpec := regsGnss1 ++ regsGnss2

/-- Registers of the PORT block, part 1 (R197). -/
def regsPort1 : List RegSpec := [
  -- CTL: COMMIT, CERR, LOCK, TC_EN, TNK
  ⟨0x0, [], [⟨31, 1, .wo, 0x0, .any⟩, ⟨30, 1, .w1c, 0x0, .any⟩, ⟨29, 1, .w1s, 0x0, .any⟩, ⟨28, 1, .rws, 0x0, .any⟩, ⟨26, 2, .rws, 0x0, .any⟩]⟩,
  -- P_CFG: EN, MODE, FEC, AN_EN, LT_EN, ONE_STEP, TXCLK, MAXF
  ⟨0x100, [(0x100, 2)], [⟨31, 1, .rws, 0x0, .any⟩, ⟨28, 3, .rwl, 0x0, .any⟩, ⟨26, 2, .rwl, 0x3, .any⟩, ⟨25, 1, .rws, 0x1, .any⟩, ⟨24, 1, .rws, 0x1, .any⟩, ⟨23, 1, .rws, 0x1, .any⟩, ⟨22, 1, .rws, 0x0, .any⟩, ⟨0, 14, .rws, 0x5F2, .any⟩]⟩,
  -- P_ADV: ABIL
  ⟨0x104, [(0x100, 2)], [⟨0, 7, .rws, 0x7F, .any⟩]⟩,
  -- P_STAT: LINK, RMODE, RFEC, LAT_VALID, FLAPS
  ⟨0x108, [(0x100, 2)], [⟨29, 3, .ro, 0x0, .any⟩, ⟨26, 3, .ro, 0x0, .any⟩, ⟨24, 2, .ro, 0x0, .any⟩, ⟨23, 1, .ro, 0x0, .any⟩, ⟨0, 16, .ro, 0x0, .any⟩]⟩,
  -- P_RXLAT: RXLAT
  ⟨0x10C, [(0x100, 2)], [⟨0, 32, .ro, 0x0, .any⟩]⟩,
  -- P_TXLAT: TXLAT
  ⟨0x110, [(0x100, 2)], [⟨0, 32, .ro, 0x0, .any⟩]⟩,
  -- P_ING_CAL: ING_CAL
  ⟨0x114, [(0x100, 2)], [⟨0, 32, .rws, 0x0, .any⟩]⟩,
  -- P_EGR_CAL: EGR_CAL
  ⟨0x118, [(0x100, 2)], [⟨0, 32, .rws, 0x0, .any⟩]⟩,
  -- P_ING_BUD: ING_BUD
  ⟨0x11C, [(0x100, 2)], [⟨0, 32, .rws, 0x0, .any⟩]⟩,
  -- P_EGR_BUD: EGR_BUD
  ⟨0x120, [(0x100, 2)], [⟨0, 32, .rws, 0x0, .any⟩]⟩,
  -- P_ASYM: ASYM
  ⟨0x124, [(0x100, 2)], [⟨0, 32, .rws, 0x0, .any⟩]⟩,
  -- P_ASYM_BUD: ASYM_BUD
  ⟨0x128, [(0x100, 2)], [⟨0, 32, .rws, 0xFFFFFFFF, .any⟩]⟩,
  -- P_SBUD: SBUD
  ⟨0x12C, [(0x100, 2)], [⟨0, 32, .rws, 0xFFFFFFFF, .any⟩]⟩,
  -- P_ESMC: RX_EN, TX_EN, QL_GATE, QL_TRK, QL_HOLD, QL_FREE, QL_DNU
  ⟨0x130, [(0x100, 2)], [⟨31, 1, .rws, 0x0, .any⟩, ⟨30, 1, .rws, 0x0, .any⟩, ⟨29, 1, .rws, 0x0, .any⟩, ⟨12, 4, .rws, 0x2, .any⟩, ⟨8, 4, .rws, 0xB, .any⟩, ⟨4, 4, .rws, 0xF, .any⟩, ⟨0, 4, .rws, 0xF, .any⟩]⟩,
  -- P_ESMC_STAT: QL_LOST, RX_QL
  ⟨0x134, [(0x100, 2)], [⟨31, 1, .ro, 0x0, .any⟩, ⟨0, 4, .ro, 0xF, .any⟩]⟩,
  -- P_TSR_WPTR: WPTR
  ⟨0x138, [(0x100, 2)], [⟨0, 10, .ro, 0x0, .any⟩]⟩,
  -- P_TSR_RPTR: RPTR
  ⟨0x13C, [(0x100, 2)], [⟨0, 10, .rw, 0x0, .any⟩]⟩,
  -- P_CNT0: TSR_OVF, NOTEXP
  ⟨0x140, [(0x100, 2)], [⟨16, 16, .ro, 0x0, .any⟩, ⟨0, 16, .ro, 0x0, .any⟩]⟩,
  -- P_CNT1: TR_DROP, LINK_DROP
  ⟨0x144, [(0x100, 2)], [⟨16, 16, .ro, 0x0, .any⟩, ⟨0, 16, .ro, 0x0, .any⟩]⟩,
  -- P_CNT2: OVERSIZE_RX, PAUSE_RX
  ⟨0x148, [(0x100, 2)], [⟨16, 16, .ro, 0x0, .any⟩, ⟨0, 16, .ro, 0x0, .any⟩]⟩]

/-- Registers of the PORT block, part 2 (R197). -/
def regsPort2 : List RegSpec := [
  -- P_EVT: TXF_CLAMP, NOTEXP, TSR_OVF, QL, LT_FAIL, AN_NOCOMMON, LAT, LINK
  ⟨0x14C, [(0x100, 2)], [⟨7, 1, .w1c, 0x0, .any⟩, ⟨6, 1, .w1c, 0x0, .any⟩, ⟨5, 1, .w1c, 0x0, .any⟩, ⟨4, 1, .w1c, 0x0, .any⟩, ⟨3, 1, .w1c, 0x0, .any⟩, ⟨2, 1, .w1c, 0x0, .any⟩, ⟨1, 1, .w1c, 0x0, .any⟩, ⟨0, 1, .w1c, 0x0, .any⟩]⟩]

/-- Every register of the PORT block (R197). -/
def regsPort : List RegSpec := regsPort1 ++ regsPort2

/-- Registers of the SCHED block, part 1 (R252). -/
def regsSched1 : List RegSpec := [
  -- CTL: COMMIT, CERR, LOCK
  ⟨0x0, [], [⟨31, 1, .wo, 0x0, .any⟩, ⟨30, 1, .w1c, 0x0, .any⟩, ⟨29, 1, .w1s, 0x0, .any⟩]⟩,
  -- EVT: GSWAP, OVSZ, FULL, FLUSH, POL_ERR
  ⟨0x4, [], [⟨4, 1, .w1c, 0x0, .any⟩, ⟨3, 1, .w1c, 0x0, .any⟩, ⟨2, 1, .w1c, 0x0, .any⟩, ⟨1, 1, .w1c, 0x0, .any⟩, ⟨0, 1, .w1c, 0x0, .any⟩]⟩,
  -- POL_IDX: INDEX
  ⟨0x10, [], [⟨0, 18, .rw, 0x0, .any⟩]⟩,
  -- POL_CIR_LO: RATE_LO
  ⟨0x14, [], [⟨0, 32, .rw, 0x0, .any⟩]⟩,
  -- POL_CIR_HI: RATE_HI
  ⟨0x18, [], [⟨0, 32, .rw, 0x0, .any⟩]⟩,
  -- POL_PIR_LO: RATE_LO
  ⟨0x1C, [], [⟨0, 32, .rw, 0x0, .any⟩]⟩,
  -- POL_PIR_HI: RATE_HI
  ⟨0x20, [], [⟨0, 32, .rw, 0x0, .any⟩]⟩,
  -- POL_CBS: BURST
  ⟨0x24, [], [⟨0, 32, .rw, 0x0, .any⟩]⟩,
  -- POL_PBS: BURST
  ⟨0x28, [], [⟨0, 32, .rw, 0x0, .any⟩]⟩,
  -- POL_CMD: GO, ERR, VALID, UNIT
  ⟨0x2C, [], [⟨31, 1, .wo, 0x0, .any⟩, ⟨30, 1, .w1c, 0x0, .any⟩, ⟨29, 1, .rw, 0x0, .any⟩, ⟨28, 1, .rw, 0x0, .any⟩]⟩,
  -- P_GCFG: GATE_EN, GLEAD
  ⟨0x100, [(0x80, 2)], [⟨31, 1, .rws, 0x0, .any⟩, ⟨0, 16, .rws, 0x0, .any⟩]⟩,
  -- P_GCMD: SWAP, CANCEL, PEND, GERR, GBUSY, A_LEN
  ⟨0x104, [(0x80, 2)], [⟨31, 1, .wo, 0x0, .any⟩, ⟨30, 1, .wo, 0x0, .any⟩, ⟨29, 1, .ro, 0x0, .any⟩, ⟨28, 1, .w1c, 0x0, .any⟩, ⟨27, 1, .w1c, 0x0, .any⟩, ⟨0, 9, .rw, 0x1, .any⟩]⟩,
  -- P_A_CYCLE: CYCLE
  ⟨0x108, [(0x80, 2)], [⟨0, 30, .rw, 0x3B9ACA00, .any⟩]⟩,
  -- P_A_BASE: BASE
  ⟨0x10C, [(0x80, 2), (0x4, 4)], [⟨0, 32, .rw, 0x0, .any⟩]⟩,
  -- P_GSTAT: OPER_VALID, BANK, O_LEN, ENTRY
  ⟨0x11C, [(0x80, 2)], [⟨31, 1, .ro, 0x0, .any⟩, ⟨30, 1, .ro, 0x1, .any⟩, ⟨16, 9, .ro, 0x0, .any⟩, ⟨0, 8, .ro, 0x0, .any⟩]⟩,
  -- P_O_CYCLE: CYCLE
  ⟨0x120, [(0x80, 2)], [⟨0, 32, .ro, 0x0, .any⟩]⟩,
  -- P_O_BASE: BASE
  ⟨0x124, [(0x80, 2), (0x4, 4)], [⟨0, 32, .ro, 0x0, .any⟩]⟩,
  -- P_SWAP_T: T
  ⟨0x134, [(0x80, 2), (0x4, 4)], [⟨0, 32, .ro, 0x0, .any⟩]⟩,
  -- P_SAMP: EN, PER
  ⟨0x144, [(0x80, 2)], [⟨31, 1, .rws, 0x0, .any⟩, ⟨0, 16, .rws, 0x3E7, .any⟩]⟩,
  -- P_SMASK_LO: MASK
  ⟨0x148, [(0x80, 2)], [⟨0, 32, .rws, 0x0, .any⟩]⟩]

/-- Registers of the SCHED block, part 2 (R252). -/
def regsSched2 : List RegSpec := [
  -- P_SMASK_HI: MASK
  ⟨0x14C, [(0x80, 2)], [⟨0, 32, .rws, 0x0, .any⟩]⟩,
  -- Q_CFG: EN, PRIO, WEIGHT, QLIM
  ⟨0x1000, [(0x800, 2), (0x20, 60)], [⟨31, 1, .rws, 0x1, .any⟩, ⟨28, 3, .rws, 0x3, .any⟩, ⟨16, 8, .rws, 0x1, .any⟩, ⟨0, 13, .rws, 0x100, .any⟩]⟩,
  -- Q_CFG60: EN, PRIO, WEIGHT, QLIM
  ⟨0x1780, [(0x800, 2), (0x20, 1)], [⟨31, 1, .rws, 0x1, .any⟩, ⟨28, 3, .rws, 0x1, .any⟩, ⟨16, 8, .rws, 0x1, .any⟩, ⟨0, 13, .rws, 0x100, .any⟩]⟩,
  -- Q_CFG61: EN, PRIO, WEIGHT, QLIM
  ⟨0x17A0, [(0x800, 2), (0x20, 1)], [⟨31, 1, .rws, 0x1, .any⟩, ⟨28, 3, .rws, 0x2, .any⟩, ⟨16, 8, .rws, 0x1, .any⟩, ⟨0, 13, .rws, 0x100, .any⟩]⟩,
  -- Q_CFG62: EN, PRIO, WEIGHT, QLIM
  ⟨0x17C0, [(0x800, 2), (0x20, 1)], [⟨31, 1, .rws, 0x1, .any⟩, ⟨28, 3, .rws, 0x1, .any⟩, ⟨16, 8, .rws, 0x1, .any⟩, ⟨0, 13, .rws, 0x100, .any⟩]⟩,
  -- Q_CFG63: EN, PRIO, WEIGHT, QLIM
  ⟨0x17E0, [(0x800, 2), (0x20, 1)], [⟨31, 1, .rws, 0x1, .any⟩, ⟨28, 3, .rws, 0x0, .any⟩, ⟨16, 8, .rws, 0x1, .any⟩, ⟨0, 13, .rws, 0x100, .any⟩]⟩,
  -- Q_SRATE_LO: RATE_LO
  ⟨0x1004, [(0x800, 2), (0x20, 64)], [⟨0, 32, .rws, 0x0, .any⟩]⟩,
  -- Q_SRATE_HI: RATE_HI
  ⟨0x1008, [(0x800, 2), (0x20, 64)], [⟨0, 8, .rws, 0x0, .any⟩]⟩,
  -- Q_SBURST: BURST
  ⟨0x100C, [(0x800, 2), (0x20, 64)], [⟨0, 24, .rws, 0x5F2, .any⟩]⟩,
  -- Q_STAT: DEPTH, GATE, DEBT
  ⟨0x1010, [(0x800, 2), (0x20, 64)], [⟨16, 13, .ro, 0x0, .any⟩, ⟨15, 1, .ro, 0x1, .any⟩, ⟨14, 1, .ro, 0x0, .any⟩]⟩,
  -- Q_LEVEL: LEVEL
  ⟨0x1014, [(0x800, 2), (0x20, 64)], [⟨0, 32, .ro, 0x0, .any⟩]⟩,
  -- Q_CNT0: DROP_FULL, OVERSIZE_FOR_GATE
  ⟨0x1018, [(0x800, 2), (0x20, 64)], [⟨16, 16, .ro, 0x0, .any⟩, ⟨0, 16, .ro, 0x0, .any⟩]⟩,
  -- Q_CNT1: FLUSH, COMMIT
  ⟨0x101C, [(0x800, 2), (0x20, 64)], [⟨16, 16, .ro, 0x0, .any⟩, ⟨0, 16, .ro, 0x0, .any⟩]⟩,
  -- GCL_MASK_LO: MASK_LO
  ⟨0x4000, [(0x2000, 2), (0x1000, 2), (0x10, 256)], [⟨0, 32, .rw, 0x0, .any⟩]⟩,
  -- GCL_MASK_HI: MASK_HI
  ⟨0x4004, [(0x2000, 2), (0x1000, 2), (0x10, 256)], [⟨0, 32, .rw, 0x0, .any⟩]⟩,
  -- GCL_INT: INTERVAL
  ⟨0x4008, [(0x2000, 2), (0x1000, 2), (0x10, 256)], [⟨0, 30, .rw, 0x0, .any⟩]⟩]

/-- Every register of the SCHED block (R252). -/
def regsSched : List RegSpec := regsSched1 ++ regsSched2 ++ [⟨0x400C, [(0x2000, 2), (0x1000, 2), (0x10, 256)], []⟩]

/-- Registers of the SEAL block, part 1 (R233). -/
def regsSeal1 : List RegSpec := [
  -- CTL: COMMIT, CERR, LOCK, CLAIM_GATE, RUN
  ⟨0x0, [], [⟨31, 1, .wo, 0x0, .any⟩, ⟨30, 1, .w1c, 0x0, .any⟩, ⟨29, 1, .w1s, 0x0, .any⟩, ⟨28, 1, .rwl, 0x1, .any⟩, ⟨27, 1, .ro, 0x0, .any⟩]⟩,
  -- SVC_CFG: FR_ACT, HL_ACT, MAX_CK, DGRP
  ⟨0x4, [], [⟨30, 2, .rws, 0x1, .any⟩, ⟨28, 2, .rws, 0x0, .any⟩, ⟨24, 4, .rws, 0x1, .any⟩, ⟨0, 18, .rws, 0x0, .any⟩]⟩,
  -- BND_CFG: EF_TYPE, PTP_EN, NTP_EN, NTP_ALWAYS
  ⟨0x8, [], [⟨16, 16, .rws, 0xF5A1, .any⟩, ⟨15, 1, .rws, 0x0, .any⟩, ⟨14, 1, .rws, 0x1, .any⟩, ⟨13, 1, .rws, 0x0, .any⟩]⟩,
  -- BND_ORG: ORG
  ⟨0xC, [], [⟨0, 24, .rwl, 0x0, .any⟩]⟩,
  -- CLK_ID_LO: ID_LO
  ⟨0x10, [], [⟨0, 32, .rwl, 0x0, .any⟩]⟩,
  -- CLK_ID_HI: ID_HI
  ⟨0x14, [], [⟨0, 32, .rwl, 0x0, .any⟩]⟩,
  -- ANN_CFG: PRIO1, PRIO2, TSRC, CLASS_FREE
  ⟨0x18, [], [⟨24, 8, .rws, 0x80, .any⟩, ⟨16, 8, .rws, 0x80, .any⟩, ⟨8, 8, .rws, 0xA0, .any⟩, ⟨0, 8, .rws, 0xF8, .any⟩]⟩,
  -- ANN_CLASS: LOCK, ACQ, HO, HL
  ⟨0x1C, [], [⟨24, 8, .rws, 0x6, .any⟩, ⟨16, 8, .rws, 0xF8, .any⟩, ⟨8, 8, .rws, 0x7, .any⟩, ⟨0, 8, .rws, 0x34, .any⟩]⟩,
  -- ANN_VAR: OSLV
  ⟨0x20, [], [⟨0, 16, .rws, 0xFFFF, .any⟩]⟩,
  -- ANN_TT: TT_LIM
  ⟨0x24, [], [⟨0, 32, .rws, 0x1AD80, .any⟩]⟩,
  -- ANN_FT: FT_LIM
  ⟨0x28, [], [⟨0, 32, .rws, 0x0, .any⟩]⟩,
  -- NTP_CFG: STRATUM, PRECISION
  ⟨0x2C, [], [⟨28, 4, .rws, 0x1, .any⟩, ⟨8, 8, .rws, 0xE0, .any⟩]⟩,
  -- NTP_REFID: REFID
  ⟨0x30, [], [⟨0, 32, .rws, 0x0, .any⟩]⟩,
  -- NEG_CFG: MIN_SYNC, MIN_DRESP, MIN_ANN
  ⟨0x34, [], [⟨24, 8, .rws, 0xFC, .any⟩, ⟨16, 8, .rws, 0xFC, .any⟩, ⟨8, 8, .rws, 0xFD, .any⟩]⟩,
  -- NEG_DUR: MAX_DUR
  ⟨0x38, [], [⟨0, 16, .rws, 0x12C, .any⟩]⟩,
  -- GRANT_BUDGET: BUDGET
  ⟨0x3C, [], [⟨0, 32, .rws, 0x4C4B4000, .any⟩]⟩,
  -- GRANT_USED: USED
  ⟨0x40, [], [⟨0, 32, .ro, 0x0, .any⟩]⟩,
  -- CT_STAT: USED
  ⟨0x44, [], [⟨0, 19, .ro, 0x0, .any⟩]⟩,
  -- CT_CMD: REVOKE, INDEX
  ⟨0x48, [], [⟨31, 1, .wo, 0x0, .any⟩, ⟨0, 18, .rw, 0x0, .any⟩]⟩,
  -- NTS_KEY_CFG: VALID, KSLOT
  ⟨0x50, [(0x8, 2)], [⟨31, 1, .rws, 0x0, .any⟩, ⟨0, 8, .rws, 0x0, .any⟩]⟩]

/-- Registers of the SEAL block, part 2 (R233). -/
def regsSeal2 : List RegSpec := [
  -- NTS_KEY_KID: KID
  ⟨0x54, [(0x8, 2)], [⟨0, 32, .rws, 0x0, .any⟩]⟩,
  -- P_SVC: PROFILE, MC_EN, NTP_EN, NTS_EN, PTP_AUTH_REQ, NTP_AUTH_REQ, L2_ALT, DOMAIN, MC_SA
  ⟨0x100, [(0x40, 2)], [⟨29, 3, .rwl, 0x0, .any⟩, ⟨28, 1, .rws, 0x0, .any⟩, ⟨27, 1, .rws, 0x0, .any⟩, ⟨26, 1, .rws, 0x0, .any⟩, ⟨25, 1, .rws, 0x0, .any⟩, ⟨24, 1, .rws, 0x0, .any⟩, ⟨23, 1, .rws, 0x0, .any⟩, ⟨8, 8, .rws, 0x0, .any⟩, ⟨0, 8, .rws, 0xFF, .any⟩]⟩,
  -- P_LOG: SYNC, ANN, PDELAY
  ⟨0x104, [(0x40, 2)], [⟨24, 8, .rws, 0x0, .any⟩, ⟨16, 8, .rws, 0x1, .any⟩, ⟨8, 8, .rws, 0x0, .any⟩]⟩,
  -- P_QMAP: QT, QG, QY, QX
  ⟨0x108, [(0x40, 2)], [⟨24, 6, .rws, 0x3F, .any⟩, ⟨16, 6, .rws, 0x3E, .any⟩, ⟨8, 6, .rws, 0x3D, .any⟩, ⟨0, 6, .rws, 0x3C, .any⟩]⟩,
  -- P_MAC_LO: MAC_LO
  ⟨0x10C, [(0x40, 2)], [⟨0, 32, .rwl, 0x0, .any⟩]⟩,
  -- P_MAC_HI: MAC_HI
  ⟨0x110, [(0x40, 2)], [⟨0, 16, .rwl, 0x0, .any⟩]⟩,
  -- P_VID: TAGGED, VID
  ⟨0x114, [(0x40, 2)], [⟨12, 1, .rws, 0x0, .any⟩, ⟨0, 12, .rws, 0x0, .any⟩]⟩,
  -- P_IPV4: IPV4
  ⟨0x118, [(0x40, 2)], [⟨0, 32, .rws, 0x0, .any⟩]⟩,
  -- P_IPV6: IPV6
  ⟨0x11C, [(0x40, 2), (0x4, 4)], [⟨0, 32, .rws, 0x0, .any⟩]⟩,
  -- SA_CFG: VALID, ALG, TRANSIT, NTP, SPP, KSLOT
  ⟨0x200, [(0x8, 16)], [⟨31, 1, .rws, 0x0, .any⟩, ⟨28, 3, .rws, 0x0, .any⟩, ⟨27, 1, .rws, 0x0, .any⟩, ⟨26, 1, .rws, 0x0, .any⟩, ⟨16, 8, .rws, 0x0, .any⟩, ⟨0, 8, .rws, 0x0, .any⟩]⟩,
  -- SA_KEYID: KEYID
  ⟨0x204, [(0x8, 16)], [⟨0, 32, .rws, 0x0, .any⟩]⟩,
  -- CNT0: NOT_MINE, UNSUP
  ⟨0x300, [], [⟨16, 16, .ro, 0x0, .any⟩, ⟨0, 16, .ro, 0x0, .any⟩]⟩,
  -- CNT1: AUTH_FAIL, NTS_NAK
  ⟨0x304, [], [⟨16, 16, .ro, 0x0, .any⟩, ⟨0, 16, .ro, 0x0, .any⟩]⟩,
  -- CNT2: SILENT, NOCLAIM
  ⟨0x308, [], [⟨16, 16, .ro, 0x0, .any⟩, ⟨0, 16, .ro, 0x0, .any⟩]⟩,
  -- CNT3: KEY_GONE, SEAL_ABORT
  ⟨0x30C, [], [⟨16, 16, .ro, 0x0, .any⟩, ⟨0, 16, .ro, 0x0, .any⟩]⟩,
  -- CNT4: EXC_DROP, GRANT_DENY
  ⟨0x310, [], [⟨16, 16, .ro, 0x0, .any⟩, ⟨0, 16, .ro, 0x0, .any⟩]⟩,
  -- EVT: ABORT, KEYGONE, CT_FULL, DENY, CLAIM, EXC_DROP, AUTH, NAK
  ⟨0x380, [], [⟨7, 1, .w1c, 0x0, .any⟩, ⟨6, 1, .w1c, 0x0, .any⟩, ⟨5, 1, .w1c, 0x0, .any⟩, ⟨4, 1, .w1c, 0x0, .any⟩, ⟨3, 1, .w1c, 0x0, .any⟩, ⟨2, 1, .w1c, 0x0, .any⟩, ⟨1, 1, .w1c, 0x0, .any⟩, ⟨0, 1, .w1c, 0x0, .any⟩]⟩]

/-- Every register of the SEAL block (R233). -/
def regsSeal : List RegSpec := regsSeal1 ++ regsSeal2

/-- The codes of EVSEL (R407). -/
def evsels : List Nat :=
  [0x00, 0x01, 0x02, 0x03, 0x04, 0x05, 0x10, 0x11, 0x12, 0x13, 0x14, 0x15, 0x16, 0x17, 0x18, 0x19, 0x1A, 0x20, 0x21]

/-- Registers of the PMU block, part 1 (R421). -/
def regsPmu1 : List RegSpec := [
  -- CTL: FREEZE, SAMP_EN
  ⟨0x0, [], [⟨31, 1, .rw, 0x0, .any⟩, ⟨30, 1, .rw, 0x0, .any⟩]⟩,
  -- OVF: OVF
  ⟨0x4, [], [⟨0, 16, .w1c, 0x0, .any⟩]⟩,
  -- EVT: SAMP, MISSED, OVF
  ⟨0x8, [], [⟨2, 1, .w1c, 0x0, .any⟩, ⟨1, 1, .w1c, 0x0, .any⟩, ⟨0, 1, .w1c, 0x0, .any⟩]⟩,
  -- SAMP_STAT: MISSED, WPTR
  ⟨0xC, [], [⟨16, 16, .ro, 0x0, .any⟩, ⟨0, 8, .ro, 0x0, .any⟩]⟩,
  -- PMC_CFG: EN, SAMP, PFILT, EVSEL
  ⟨0x100, [(0x10, 16)], [⟨31, 1, .rw, 0x0, .any⟩, ⟨30, 1, .rw, 0x0, .any⟩, ⟨8, 2, .rw, 0x0, .upTo 2⟩, ⟨0, 8, .rw, 0x0, .oneOf evsels⟩]⟩,
  -- PMC_LO: CNT
  ⟨0x104, [(0x10, 16)], [⟨0, 32, .rw, 0x0, .any⟩]⟩,
  -- PMC_HI: CNT
  ⟨0x108, [(0x10, 16)], [⟨0, 16, .rw, 0x0, .any⟩]⟩,
  -- TD_CTL: SNAP
  ⟨0x200, [], [⟨31, 1, .wo, 0x0, .any⟩]⟩,
  -- CYC_LO: CYC
  ⟨0x204, [], [⟨0, 32, .ro, 0x0, .any⟩]⟩,
  -- CYC_HI: CYC
  ⟨0x208, [], [⟨0, 16, .ro, 0x0, .any⟩]⟩,
  -- S_LO: CNT
  ⟨0x210, [(0x8, 5)], [⟨0, 32, .ro, 0x0, .any⟩]⟩,
  -- S_HI: CNT
  ⟨0x214, [(0x8, 5)], [⟨0, 16, .ro, 0x0, .any⟩]⟩,
  -- S_INFL: INFL
  ⟨0x238, [], [⟨0, 32, .ro, 0x0, .any⟩]⟩,
  -- S_TICK: TICK
  ⟨0x240, [(0x4, 2)], [⟨0, 32, .ro, 0x0, .any⟩]⟩,
  -- BW_CFG: WIN
  ⟨0x300, [], [⟨0, 20, .rw, 0x3E8, .any⟩]⟩,
  -- P_TXB_LO: TXB
  ⟨0x310, [(0x40, 2)], [⟨0, 32, .ro, 0x0, .any⟩]⟩,
  -- P_TXB_HI: TXB
  ⟨0x314, [(0x40, 2)], [⟨0, 16, .ro, 0x0, .any⟩]⟩,
  -- P_RXB_LO: RXB
  ⟨0x318, [(0x40, 2)], [⟨0, 32, .ro, 0x0, .any⟩]⟩,
  -- P_RXB_HI: RXB
  ⟨0x31C, [(0x40, 2)], [⟨0, 16, .ro, 0x0, .any⟩]⟩,
  -- P_PKTX_LO: PKTX
  ⟨0x328, [(0x40, 2)], [⟨0, 32, .ro, 0x0, .any⟩]⟩]

/-- Registers of the PMU block, part 2 (R421). -/
def regsPmu2 : List RegSpec := [
  -- P_PKTX_HI: PKTX
  ⟨0x32C, [(0x40, 2)], [⟨0, 16, .ro, 0x0, .any⟩]⟩,
  -- P_PKRX_LO: PKRX
  ⟨0x330, [(0x40, 2)], [⟨0, 32, .ro, 0x0, .any⟩]⟩,
  -- P_PKRX_HI: PKRX
  ⟨0x334, [(0x40, 2)], [⟨0, 16, .ro, 0x0, .any⟩]⟩,
  -- P_TXF: TXF
  ⟨0x320, [(0x40, 2)], [⟨0, 32, .ro, 0x0, .any⟩]⟩,
  -- P_RXF: RXF
  ⟨0x324, [(0x40, 2)], [⟨0, 32, .ro, 0x0, .any⟩]⟩,
  -- P_PK_CLR: CLR
  ⟨0x338, [(0x40, 2)], [⟨31, 1, .wo, 0x0, .any⟩]⟩,
  -- P_WSEQ: WSEQ
  ⟨0x33C, [(0x40, 2)], [⟨0, 32, .ro, 0x0, .any⟩]⟩]

/-- Every register of the PMU block (R421). -/
def regsPmu : List RegSpec := regsPmu1 ++ regsPmu2 ++ [⟨0x1000, [(0x20, 256), (4, 8)], [⟨0, 32, .ro, 0, .any⟩]⟩]

/-- Registers of the CHCTL block, part 1 (R333). -/
def regsChctl1 : List RegSpec := [
  -- ID: CH
  ⟨0x0, [], [⟨0, 2, .ro, 0x0, .any⟩]⟩,
  -- IMG: CARRIED, SLOT
  ⟨0x4, [], [⟨31, 1, .ro, 0x0, .any⟩, ⟨30, 1, .ro, 0x0, .any⟩]⟩,
  -- B_CTL: COMMIT, CERR, LOCK
  ⟨0x100, [], [⟨31, 1, .wo, 0x0, .any⟩, ⟨30, 1, .w1c, 0x0, .any⟩, ⟨29, 1, .w1s, 0x0, .any⟩]⟩,
  -- ENS_CFG: TOL, MIN_PEERS, HOPS
  ⟨0x104, [], [⟨28, 3, .rws, 0x1, .any⟩, ⟨24, 4, .rws, 0x2, .any⟩, ⟨20, 4, .rws, 0x4, .any⟩]⟩,
  -- ENS_STAT: USED, EXCL, PEERS, EMPTY, NOSLOT, UTCD
  ⟨0x108, [(0x4, 2)], [⟨26, 6, .ro, 0x0, .any⟩, ⟨20, 6, .ro, 0x0, .any⟩, ⟨14, 6, .ro, 0x0, .any⟩, ⟨13, 1, .w1c, 0x0, .any⟩, ⟨12, 1, .w1c, 0x0, .any⟩, ⟨11, 1, .w1c, 0x0, .any⟩]⟩,
  -- B_CFG: EN, TTX
  ⟨0x140, [(0x40, 2)], [⟨31, 1, .rws, 0x0, .any⟩, ⟨30, 1, .rws, 0x1, .any⟩]⟩,
  -- B_LASYM: LASYM
  ⟨0x144, [(0x40, 2)], [⟨0, 32, .rws, 0x0, .any⟩]⟩,
  -- B_LBUD: LBUD
  ⟨0x148, [(0x40, 2)], [⟨0, 32, .rws, 0xFFFFFFFF, .any⟩]⟩,
  -- B_LSTEP: LSTEP
  ⟨0x14C, [(0x40, 2)], [⟨0, 32, .rws, 0x3E8, .any⟩]⟩,
  -- B_STAT: LINK, NBR_LINK, LSTEP, RESTARTS
  ⟨0x150, [(0x40, 2)], [⟨29, 3, .ro, 0x0, .any⟩, ⟨26, 3, .ro, 0x0, .any⟩, ⟨25, 1, .w1c, 0x0, .any⟩, ⟨0, 16, .ro, 0x0, .any⟩]⟩,
  -- B_LDLY: LDLY
  ⟨0x154, [(0x40, 2)], [⟨0, 32, .ro, 0x0, .any⟩]⟩,
  -- B_NBR_LO: ID_LO
  ⟨0x158, [(0x40, 2)], [⟨0, 32, .ro, 0x0, .any⟩]⟩,
  -- B_NBR_HI: ID_HI
  ⟨0x15C, [(0x40, 2)], [⟨0, 32, .ro, 0x0, .any⟩]⟩,
  -- B_CNT: TIME_RX, DROP
  ⟨0x160, [(0x40, 2)], [⟨16, 16, .ro, 0x0, .any⟩, ⟨0, 16, .ro, 0x0, .any⟩]⟩]

/-- Every register of the CHCTL block (R333). -/
def regsChctl : List RegSpec := regsChctl1

/-- Registers of the HOSTIF block, part 1 (R403). -/
def regsHostif1 : List RegSpec := [
  -- PCIE_STAT: LINK_UP, SPEED, WIDTH, FLR
  ⟨0x0, [], [⟨31, 1, .ro, 0x0, .any⟩, ⟨28, 3, .ro, 0x0, .any⟩, ⟨25, 3, .ro, 0x0, .any⟩, ⟨0, 16, .ro, 0x0, .any⟩]⟩,
  -- PCIE_ERR: UE, CE
  ⟨0x4, [], [⟨16, 16, .ro, 0x0, .any⟩, ⟨0, 16, .ro, 0x0, .any⟩]⟩,
  -- INT_CFG: CMD_EN, MIR_EN
  ⟨0x8, [], [⟨31, 1, .rw, 0x0, .any⟩, ⟨30, 1, .rw, 0x0, .any⟩]⟩,
  -- MSPI_STAT: FRAMES, CRC_ERR
  ⟨0xC, [], [⟨16, 16, .ro, 0x0, .any⟩, ⟨0, 16, .ro, 0x0, .any⟩]⟩,
  -- MEM_WDISC: WDISC
  ⟨0x10, [], [⟨0, 32, .ro, 0x0, .any⟩]⟩,
  -- ID_PART: FAMILY, PART
  ⟨0x20, [], [⟨16, 16, .ro, 0x1, .any⟩, ⟨0, 16, .ro, 0x9640, .any⟩]⟩,
  -- ID_REV: MAJOR, MINOR, MASKSET
  ⟨0x24, [], [⟨24, 8, .ro, 0x0, .any⟩, ⟨16, 8, .ro, 0x0, .any⟩, ⟨8, 8, .ro, 0x0, .any⟩]⟩,
  -- ID_MAP: MAP
  ⟨0x28, [], [⟨0, 8, .ro, 0x1, .any⟩]⟩,
  -- ID_FEAT: BENCH, TWIN, GNSS, CH
  ⟨0x2C, [], [⟨7, 1, .ro, 0x0, .any⟩, ⟨6, 1, .ro, 0x0, .any⟩, ⟨5, 1, .ro, 0x0, .any⟩, ⟨0, 4, .ro, 0x0, .any⟩]⟩,
  -- RSV_ACC: COUNT
  ⟨0x30, [], [⟨0, 32, .ro, 0x0, .any⟩]⟩,
  -- RSV_LAST: OFS
  ⟨0x34, [], [⟨0, 32, .ro, 0x0, .any⟩]⟩,
  -- HTX_TAIL: TAIL
  ⟨0x100, [(0x20, 4), (0x10, 2)], [⟨0, 10, .rw, 0x0, .any⟩]⟩,
  -- HTX_HEAD: HEAD
  ⟨0x104, [(0x20, 4), (0x10, 2)], [⟨0, 10, .ro, 0x0, .any⟩]⟩,
  -- HTX_CNT: BAD, ABSENT
  ⟨0x108, [(0x20, 4), (0x10, 2)], [⟨16, 16, .ro, 0x0, .any⟩, ⟨0, 16, .ro, 0x0, .any⟩]⟩]

/-- Every register of the HOSTIF block (R403). -/
def regsHostif : List RegSpec := regsHostif1 ++ [⟨0x8000, [(4, 256)], [⟨0, 32, .rw, 0, .any⟩]⟩, ⟨0x9000, [(4, 2)], [⟨0, 32, .ro, 0, .any⟩]⟩]

/-- Registers of the CMDQ block, part 1 (R404). -/
def regsCmdq1 : List RegSpec := [
  -- SUBMIT: GO, SLOT
  ⟨0x0, [], [⟨31, 1, .wo, 0x0, .any⟩, ⟨0, 6, .wo, 0x0, .any⟩]⟩,
  -- RELEASE: GO, SLOT
  ⟨0x4, [], [⟨31, 1, .wo, 0x0, .any⟩, ⟨0, 6, .wo, 0x0, .any⟩]⟩,
  -- STAT: SUB_ERR, REL_ERR, FREE
  ⟨0x8, [], [⟨31, 1, .w1c, 0x0, .any⟩, ⟨30, 1, .w1c, 0x0, .any⟩, ⟨0, 7, .ro, 0x40, .any⟩]⟩,
  -- EVT: FAIL, END
  ⟨0xC, [], [⟨1, 1, .w1c, 0x0, .any⟩, ⟨0, 1, .w1c, 0x0, .any⟩]⟩,
  -- ENDED: ENDED
  ⟨0x10, [(0x4, 2)], [⟨0, 32, .ro, 0x0, .any⟩]⟩,
  -- STREAM: DATA
  ⟨0x20, [], [⟨0, 32, .wo, 0x0, .any⟩]⟩,
  -- NSUB: NSUB
  ⟨0x24, [], [⟨0, 26, .ro, 0x0, .any⟩]⟩,
  -- SLOT: DESC
  ⟨0x1000, [(0x40, 64), (0x4, 16)], [⟨0, 32, .rw, 0x0, .any⟩]⟩]

/-- Every register of the CMDQ block (R404). -/
def regsCmdq : List RegSpec := regsCmdq1

/-- Registers of the FAULT block, part 1 (R377). -/
def regsFault1 : List RegSpec := [
  -- CTL: LOCK
  ⟨0x0, [], [⟨29, 1, .w1s, 0x0, .any⟩]⟩,
  -- CFG: CHIP_ACT, INJ_EN
  ⟨0x4, [], [⟨31, 1, .rwl, 0x0, .any⟩, ⟨30, 1, .rwl, 0x1, .any⟩]⟩,
  -- SAFE_CTL: ENTER, EXIT
  ⟨0x8, [], [⟨31, 1, .wo, 0x0, .any⟩, ⟨0, 16, .wo, 0x0, .any⟩]⟩,
  -- SAFE_STAT: SAFE, CAUSE, SRC, WDISC
  ⟨0xC, [], [⟨31, 1, .ro, 0x0, .any⟩, ⟨28, 3, .ro, 0x0, .any⟩, ⟨16, 9, .ro, 0x0, .any⟩, ⟨0, 16, .ro, 0x0, .any⟩]⟩,
  -- FIRST: VALID, INJ, SRC
  ⟨0x10, [], [⟨31, 1, .w1c, 0x0, .any⟩, ⟨30, 1, .ro, 0x0, .any⟩, ⟨0, 9, .ro, 0x0, .any⟩]⟩,
  -- LAST_RESET: VALID, INJ, SRC
  ⟨0x14, [], [⟨31, 1, .ro, 0x0, .any⟩, ⟨30, 1, .ro, 0x0, .any⟩, ⟨0, 9, .ro, 0x0, .any⟩]⟩,
  -- NMI_STAT: PEND, SRC
  ⟨0x18, [], [⟨31, 1, .w1c, 0x0, .any⟩, ⟨0, 9, .ro, 0x0, .any⟩]⟩,
  -- ERRN_STAT: ASSERTED, SAFE, NSRC
  ⟨0x1C, [], [⟨31, 1, .ro, 0x0, .any⟩, ⟨30, 1, .ro, 0x0, .any⟩, ⟨0, 10, .ro, 0x0, .any⟩]⟩,
  -- INJ_CTL: GO, BUSY, MODE, DONE, ERR, SRC
  ⟨0x20, [], [⟨31, 1, .wo, 0x0, .any⟩, ⟨30, 1, .ro, 0x0, .any⟩, ⟨29, 1, .rw, 0x0, .any⟩, ⟨28, 1, .w1c, 0x0, .any⟩, ⟨27, 1, .w1c, 0x0, .any⟩, ⟨0, 9, .rw, 0x0, .any⟩]⟩,
  -- PEND: PEND
  ⟨0x100, [(0x4, 16)], [⟨0, 32, .ro, 0x0, .any⟩]⟩,
  -- SRC_CFG: REACT
  ⟨0x1000, [(0x4, 512)], [⟨0, 5, .rw, 0x0, .any⟩]⟩,
  -- SRC_STAT: REAL, INJ, ACTIVE, ICOUNT, COUNT
  ⟨0x2000, [(0x4, 512)], [⟨31, 1, .w1c, 0x0, .any⟩, ⟨30, 1, .w1c, 0x0, .any⟩, ⟨29, 1, .ro, 0x0, .any⟩, ⟨16, 8, .ro, 0x0, .any⟩, ⟨0, 16, .ro, 0x0, .any⟩]⟩]

/-- Every register of the FAULT block (R377). -/
def regsFault : List RegSpec := regsFault1

/-- Registers of the VAULT block, part 1 (R359). -/
def regsVault1 : List RegSpec := [
  -- CTL: LOCK
  ⟨0x0, [], [⟨29, 1, .w1s, 0x0, .any⟩]⟩,
  -- CFG: BOOK_SLOT, ATT_SLOT
  ⟨0x4, [], [⟨8, 8, .rwl, 0x0, .any⟩, ⟨0, 8, .rwl, 0x0, .any⟩]⟩,
  -- STAT: OWN, STAGE, SEED_NEW, NVALID
  ⟨0x8, [], [⟨30, 2, .ro, 0x0, .any⟩, ⟨27, 3, .ro, 0x0, .any⟩, ⟨26, 1, .ro, 0x0, .any⟩, ⟨0, 9, .ro, 0x0, .any⟩]⟩,
  -- EVT: VBAT_LOW, LOG, ORPHAN, ATT_DONE, KUM_FAIL, KUM_DONE, TAMPER
  ⟨0xC, [], [⟨6, 1, .w1c, 0x0, .any⟩, ⟨5, 1, .w1c, 0x0, .any⟩, ⟨4, 1, .w1c, 0x0, .any⟩, ⟨3, 1, .w1c, 0x0, .any⟩, ⟨2, 1, .w1c, 0x0, .any⟩, ⟨1, 1, .w1c, 0x0, .any⟩, ⟨0, 1, .w1c, 0x0, .any⟩]⟩,
  -- DEVID: DEVID
  ⟨0x10, [(0x4, 2)], [⟨0, 32, .ro, 0x0, .any⟩]⟩,
  -- KCNT: KCNT
  ⟨0x18, [(0x4, 2)], [⟨0, 32, .ro, 0x0, .any⟩]⟩,
  -- KUM_CTL: GO, LEN
  ⟨0x20, [], [⟨31, 1, .wo, 0x0, .any⟩, ⟨0, 9, .rw, 0x0, .any⟩]⟩,
  -- KUM_STAT: BUSY, RESULT
  ⟨0x24, [], [⟨31, 1, .ro, 0x0, .any⟩, ⟨0, 8, .ro, 0x0, .any⟩]⟩,
  -- SLOT_SEL: INDEX
  ⟨0x28, [], [⟨0, 8, .rw, 0x0, .any⟩]⟩,
  -- SLOT_ATTR: ATTR
  ⟨0x2C, [], [⟨0, 32, .ro, 0x0, .any⟩]⟩,
  -- SLOT_INFO: STATE, CAUSE, COPY, USABLE
  ⟨0x30, [], [⟨30, 2, .ro, 0x0, .any⟩, ⟨27, 3, .ro, 0x0, .any⟩, ⟨26, 1, .ro, 0x0, .any⟩, ⟨25, 1, .ro, 0x0, .any⟩]⟩,
  -- SLOT_KID: KEY_ID
  ⟨0x34, [], [⟨0, 32, .ro, 0x0, .any⟩]⟩,
  -- SLOT_VER: VER
  ⟨0x38, [(0x4, 2)], [⟨0, 32, .ro, 0x0, .any⟩]⟩,
  -- TCFG: TCFG
  ⟨0x40, [], [⟨0, 32, .ro, 0x0, .any⟩]⟩,
  -- TSTAT: LIVE, LOG_N, LOG_OVF, VBAT
  ⟨0x44, [], [⟨24, 8, .ro, 0x0, .any⟩, ⟨20, 4, .ro, 0x0, .any⟩, ⟨16, 4, .ro, 0x0, .any⟩, ⟨0, 16, .ro, 0x0, .any⟩]⟩,
  -- ATT_CTL: GO, BUSY, SIGNER, DONE, ERR, TAMPERED
  ⟨0x50, [], [⟨31, 1, .wo, 0x0, .any⟩, ⟨30, 1, .ro, 0x0, .any⟩, ⟨29, 1, .rw, 0x0, .any⟩, ⟨28, 1, .w1c, 0x0, .any⟩, ⟨27, 1, .w1c, 0x0, .any⟩, ⟨26, 1, .w1c, 0x0, .any⟩]⟩,
  -- ATT_NONCE: NONCE
  ⟨0x60, [(0x4, 12)], [⟨0, 32, .rw, 0x0, .any⟩]⟩,
  -- DIK_PUB: PUB
  ⟨0x100, [(0x4, 24)], [⟨0, 32, .ro, 0x0, .any⟩]⟩,
  -- ATT_OUT: QUOTE
  ⟨0x200, [(0x4, 172)], [⟨0, 32, .ro, 0x0, .any⟩]⟩,
  -- TLOG: ENTRY
  ⟨0x500, [(0x10, 8), (0x4, 4)], [⟨0, 32, .ro, 0x0, .any⟩]⟩]

/-- Registers of the VAULT block, part 2 (R359). -/
def regsVault2 : List RegSpec := [
  -- KUM_BUF: BUF
  ⟨0x1000, [(0x4, 256)], [⟨0, 32, .wo, 0x0, .any⟩]⟩]

/-- Every register of the VAULT block (R359). -/
def regsVault : List RegSpec := regsVault1 ++ regsVault2

/-- Registers of the BOOK block, part 1 (R405). -/
def regsBook1 : List RegSpec := [
  -- STAT: UNSIGNED, OVER, BUFN
  ⟨0x0, [], [⟨31, 1, .ro, 0x0, .any⟩, ⟨30, 1, .ro, 0x0, .any⟩, ⟨0, 7, .ro, 0x0, .any⟩]⟩,
  -- EVT: MIR_LOST, OVER, SIGNED, ENTRY
  ⟨0x4, [], [⟨3, 1, .w1c, 0x0, .any⟩, ⟨2, 1, .w1c, 0x0, .any⟩, ⟨1, 1, .w1c, 0x0, .any⟩, ⟨0, 1, .w1c, 0x0, .any⟩]⟩,
  -- NEXT_SEQ: SEQ
  ⟨0x8, [(0x4, 2)], [⟨0, 32, .ro, 0x0, .any⟩]⟩,
  -- CNT0: MIR_LOST, OVER_WR
  ⟨0x10, [], [⟨16, 16, .ro, 0x0, .any⟩, ⟨0, 16, .ro, 0x0, .any⟩]⟩,
  -- CNT1: MERGED
  ⟨0x14, [], [⟨0, 32, .ro, 0x0, .any⟩]⟩,
  -- MIR_CFG: EN, LOG2N
  ⟨0x20, [], [⟨31, 1, .rw, 0x0, .any⟩, ⟨0, 5, .rw, 0xA, .between 6 20⟩]⟩,
  -- MIR_BASE_LO: BASE_LO
  ⟨0x24, [], [⟨6, 26, .rw, 0x0, .any⟩]⟩,
  -- MIR_BASE_HI: BASE_HI
  ⟨0x28, [], [⟨0, 32, .rw, 0x0, .any⟩]⟩,
  -- MIR_WPTR: WPTR
  ⟨0x2C, [], [⟨0, 20, .ro, 0x0, .any⟩]⟩,
  -- MIR_RPTR: RPTR
  ⟨0x30, [], [⟨0, 20, .rw, 0x0, .any⟩]⟩,
  -- RD_SEQ: SEQ
  ⟨0x40, [(0x4, 2)], [⟨0, 32, .rw, 0x0, .any⟩]⟩,
  -- RD_CTL: GO, SIG, DONE, GONE
  ⟨0x48, [], [⟨31, 1, .wo, 0x0, .any⟩, ⟨30, 1, .rw, 0x0, .any⟩, ⟨29, 1, .w1c, 0x0, .any⟩, ⟨28, 1, .w1c, 0x0, .any⟩]⟩,
  -- RD_DATA: DATA
  ⟨0x80, [(0x4, 42)], [⟨0, 32, .ro, 0x0, .any⟩]⟩]

/-- Every register of the BOOK block (R405). -/
def regsBook : List RegSpec := regsBook1

/-- Registers of the TALLY block, part 1 (R422). -/
def regsTally1 : List RegSpec := [
  -- CTL: UPD_NOW
  ⟨0x0, [], [⟨31, 1, .wo, 0x0, .any⟩]⟩,
  -- STAT: LOST, COPY, BUSY, UPD_REJ
  ⟨0x4, [], [⟨31, 1, .ro, 0x0, .any⟩, ⟨30, 1, .ro, 0x0, .any⟩, ⟨29, 1, .ro, 0x0, .any⟩, ⟨28, 1, .w1c, 0x0, .any⟩]⟩,
  -- SEQ: SEQ
  ⟨0x8, [(0x4, 2)], [⟨0, 32, .ro, 0x0, .any⟩]⟩,
  -- POH: POH
  ⟨0x10, [(0x4, 2)], [⟨0, 32, .ro, 0x0, .any⟩]⟩,
  -- EVT: LOST, UPD
  ⟨0x18, [], [⟨1, 1, .w1c, 0x0, .any⟩, ⟨0, 1, .w1c, 0x0, .any⟩]⟩,
  -- RD_IDX: IDX
  ⟨0x20, [], [⟨0, 10, .rw, 0x0, .any⟩]⟩,
  -- RD_DATA: DATA
  ⟨0x24, [], [⟨0, 32, .ro, 0x0, .any⟩]⟩]

/-- Every register of the TALLY block (R422). -/
def regsTally : List RegSpec := regsTally1

/-- Registers of the TWIN block, part 1 (R284). -/
def regsTwin1 : List RegSpec := [
  -- CTL: COMMIT, CERR, LOCK, FENCE, UNFENCE
  ⟨0x0, [], [⟨31, 1, .wo, 0x0, .any⟩, ⟨30, 1, .w1c, 0x0, .any⟩, ⟨29, 1, .w1s, 0x0, .any⟩, ⟨28, 1, .wo, 0x0, .any⟩, ⟨27, 1, .wo, 0x0, .any⟩]⟩,
  -- CFG: PAIR, UNIT, PRIO, VINT_PER, BOOT_WAIT
  ⟨0x4, [], [⟨31, 1, .rwl, 0x0, .any⟩, ⟨30, 1, .rwl, 0x0, .any⟩, ⟨23, 7, .rws, 0x40, .any⟩, ⟨8, 8, .rws, 0x1, .any⟩, ⟨0, 8, .rws, 0xA, .any⟩]⟩,
  -- PEER_ID_LO: ID_LO
  ⟨0x8, [], [⟨0, 32, .rwl, 0x0, .any⟩]⟩,
  -- PEER_ID_HI: ID_HI
  ⟨0xC, [], [⟨0, 32, .rwl, 0x0, .any⟩]⟩,
  -- STAT: STATE, DRIVE, PATH_A, PATH_B, PEER_LOST, RACK_WAIT, CLAIM_BAD, CONTEND, MOSC_DIFF, FEEDS_OK, READY, PEER_RUN, PEER_STATE
  ⟨0x10, [], [⟨29, 3, .ro, 0x2, .any⟩, ⟨28, 1, .ro, 0x0, .any⟩, ⟨26, 2, .ro, 0x0, .any⟩, ⟨24, 2, .ro, 0x0, .any⟩, ⟨23, 1, .ro, 0x0, .any⟩, ⟨22, 1, .ro, 0x0, .any⟩, ⟨21, 1, .ro, 0x0, .any⟩, ⟨20, 1, .ro, 0x0, .any⟩, ⟨19, 1, .ro, 0x0, .any⟩, ⟨18, 1, .ro, 0x0, .any⟩, ⟨12, 4, .ro, 0x0, .any⟩, ⟨8, 4, .ro, 0x0, .any⟩, ⟨5, 3, .ro, 0x0, .any⟩]⟩,
  -- CLAIM: CLAIM
  ⟨0x14, [], [⟨0, 32, .ro, 0x0, .any⟩]⟩,
  -- EPOCH: EPOCH
  ⟨0x18, [], [⟨0, 24, .ro, 0x0, .any⟩]⟩,
  -- ROUND: W
  ⟨0x1C, [], [⟨0, 32, .ro, 0x0, .any⟩]⟩,
  -- TOFS: TOFS
  ⟨0x20, [], [⟨0, 32, .ro, 0x0, .any⟩]⟩,
  -- TDLY: TDLY
  ⟨0x24, [], [⟨0, 32, .ro, 0x0, .any⟩]⟩,
  -- TCAL: TCAL
  ⟨0x28, [], [⟨0, 32, .rws, 0x0, .any⟩]⟩,
  -- TBUD: TBUD
  ⟨0x2C, [], [⟨0, 32, .rws, 0xFFFFFFFF, .any⟩]⟩,
  -- RACK_STAT: RES
  ⟨0x30, [], [⟨0, 16, .ro, 0x0, .any⟩]⟩,
  -- RACK_T: T
  ⟨0x34, [], [⟨0, 32, .ro, 0x0, .any⟩]⟩,
  -- EVT: MOSC_DIFF, PEER_LOST, DRILL_FAIL, NOTREADY, RACK_WAIT, COLLIDE, CONTEND, CLAIM_BAD, DRIVE, DECLARE, PATH, STATE
  ⟨0x40, [], [⟨11, 1, .w1c, 0x0, .any⟩, ⟨10, 1, .w1c, 0x0, .any⟩, ⟨9, 1, .w1c, 0x0, .any⟩, ⟨8, 1, .w1c, 0x0, .any⟩, ⟨7, 1, .w1c, 0x0, .any⟩, ⟨6, 1, .w1c, 0x0, .any⟩, ⟨5, 1, .w1c, 0x0, .any⟩, ⟨4, 1, .w1c, 0x0, .any⟩, ⟨3, 1, .w1c, 0x0, .any⟩, ⟨2, 1, .w1c, 0x0, .any⟩, ⟨1, 1, .w1c, 0x0, .any⟩, ⟨0, 1, .w1c, 0x0, .any⟩]⟩,
  -- CNT0: MISS_A, MISS_B
  ⟨0x44, [], [⟨16, 16, .ro, 0x0, .any⟩, ⟨0, 16, .ro, 0x0, .any⟩]⟩,
  -- CNT1: CRC_ERR, GAP
  ⟨0x48, [], [⟨16, 16, .ro, 0x0, .any⟩, ⟨0, 16, .ro, 0x0, .any⟩]⟩,
  -- CNT2: LOST, RESYNC
  ⟨0x4C, [], [⟨16, 16, .ro, 0x0, .any⟩, ⟨0, 16, .ro, 0x0, .any⟩]⟩,
  -- RX_JSEQ: JSEQ
  ⟨0x60, [(0x8, 4), (0x4, 2)], [⟨0, 32, .ro, 0x0, .any⟩]⟩]

/-- Every register of the TWIN block (R284). -/
def regsTwin : List RegSpec := regsTwin1

/-- Registers of the BENCH block, part 1 (R305). -/
def regsBench1 : List RegSpec := [
  -- CTL: COMMIT, CERR, LOCK
  ⟨0x0, [], [⟨31, 1, .wo, 0x0, .any⟩, ⟨30, 1, .w1c, 0x0, .any⟩, ⟨29, 1, .w1s, 0x0, .any⟩]⟩,
  -- CFG: EN, HOLD
  ⟨0x4, [], [⟨31, 1, .rws, 0x0, .any⟩, ⟨8, 8, .rws, 0x3, .any⟩]⟩,
  -- STAT: ADDR_VALID, FULL, DEVS, ADDR
  ⟨0x8, [], [⟨31, 1, .ro, 0x0, .any⟩, ⟨30, 1, .ro, 0x0, .any⟩, ⟨16, 9, .ro, 0x1, .any⟩, ⟨0, 8, .ro, 0x0, .any⟩]⟩,
  -- EVT: FULL, ROUTE, TOPO, ADDR
  ⟨0xC, [], [⟨3, 1, .w1c, 0x0, .any⟩, ⟨2, 1, .w1c, 0x0, .any⟩, ⟨1, 1, .w1c, 0x0, .any⟩, ⟨0, 1, .w1c, 0x0, .any⟩]⟩,
  -- CNT0: FWD, RPF_DROP
  ⟨0x10, [], [⟨16, 16, .ro, 0x0, .any⟩, ⟨0, 16, .ro, 0x0, .any⟩]⟩,
  -- CNT1: ABSENT, LSA_OLD
  ⟨0x14, [], [⟨16, 16, .ro, 0x0, .any⟩, ⟨0, 16, .ro, 0x0, .any⟩]⟩,
  -- LSA_SEQ: SEQ
  ⟨0x18, [], [⟨0, 32, .ro, 0x0, .any⟩]⟩,
  -- CAL_CTL: GO, BUSY, DONE, ERR, LINK_B, LINK_A
  ⟨0x20, [], [⟨31, 1, .wo, 0x0, .any⟩, ⟨30, 1, .ro, 0x0, .any⟩, ⟨29, 1, .w1c, 0x0, .any⟩, ⟨28, 1, .w1c, 0x0, .any⟩, ⟨4, 3, .rw, 0x0, .any⟩, ⟨0, 3, .rw, 0x0, .any⟩]⟩,
  -- CAL_AB: DLY
  ⟨0x24, [(0x4, 2)], [⟨0, 32, .ro, 0x0, .any⟩]⟩,
  -- ROUTE: VALID, LINK, HOPS, DELAY
  ⟨0x1000, [(0x4, 256)], [⟨31, 1, .ro, 0x0, .any⟩, ⟨28, 3, .ro, 0x0, .any⟩, ⟨24, 4, .ro, 0x0, .any⟩, ⟨0, 24, .ro, 0x0, .any⟩]⟩,
  -- DEV: DEVID
  ⟨0x1400, [(0x8, 256), (0x4, 2)], [⟨0, 32, .ro, 0x0, .any⟩]⟩]

/-- Every register of the BENCH block (R305). -/
def regsBench : List RegSpec := regsBench1

/-- Registers of the CLKGEN block, part 1 (R442). -/
def regsClkgen1 : List RegSpec := [
  -- CTL: COMMIT, CERR, LOCK
  ⟨0x0, [], [⟨31, 1, .wo, 0x0, .any⟩, ⟨30, 1, .w1c, 0x0, .any⟩, ⟨29, 1, .w1s, 0x0, .any⟩]⟩,
  -- MOSC_STAT: PRESENT, FREQ, LOSSES
  ⟨0x4, [], [⟨31, 1, .ro, 0x0, .any⟩, ⟨28, 3, .ro, 0x0, .any⟩, ⟨0, 16, .ro, 0x0, .any⟩]⟩,
  -- MOSC_CFG: EXPECT
  ⟨0x8, [], [⟨29, 3, .rwl, 0x0, .any⟩]⟩,
  -- ROOT_CFG: BUS, CORE
  ⟨0x10, [(0x4, 5)], [⟨1, 1, .rws, 0x0, .any⟩, ⟨0, 1, .rws, 0x0, .any⟩]⟩,
  -- ROOT_STAT: STATE, LOL, RELOCKS
  ⟨0x30, [(0x4, 5)], [⟨30, 2, .ro, 0x0, .any⟩, ⟨29, 1, .w1c, 0x0, .any⟩, ⟨0, 16, .ro, 0x0, .any⟩]⟩,
  -- FORCE: GATE, SWITCH, STUCK, BLOCK
  ⟨0x50, [], [⟨31, 1, .w1c, 0x0, .any⟩, ⟨30, 1, .w1c, 0x0, .any⟩, ⟨29, 1, .w1c, 0x0, .any⟩, ⟨0, 16, .ro, 0x0, .any⟩]⟩,
  -- EVT: FORCE, ROOT, MOSC
  ⟨0x54, [], [⟨2, 1, .w1c, 0x0, .any⟩, ⟨1, 1, .w1c, 0x0, .any⟩, ⟨0, 1, .w1c, 0x0, .any⟩]⟩]

/-- Every register of the CLKGEN block (R442). -/
def regsClkgen : List RegSpec := regsClkgen1

/-- Registers of the PWR block, part 1 (R443). -/
def regsPwr1 : List RegSpec := [
  -- STAT: PSTATE, FEEDS_OK, VINA_GOOD, VINB_GOOD, VINA_PASS, VINB_PASS, CHK_BUSY, BOOT, CHPWR
  ⟨0x0, [], [⟨30, 2, .ro, 0x2, .any⟩, ⟨29, 1, .ro, 0x0, .any⟩, ⟨28, 1, .ro, 0x0, .any⟩, ⟨27, 1, .ro, 0x0, .any⟩, ⟨26, 1, .ro, 0x0, .any⟩, ⟨25, 1, .ro, 0x0, .any⟩, ⟨24, 1, .ro, 0x0, .any⟩, ⟨20, 4, .ro, 0x0, .any⟩, ⟨12, 4, .ro, 0x0, .any⟩]⟩,
  -- VIN: VINA, VINB
  ⟨0x4, [], [⟨16, 16, .ro, 0x0, .any⟩, ⟨0, 16, .ro, 0x0, .any⟩]⟩,
  -- TJ: TJ
  ⟨0x8, [], [⟨0, 16, .ro, 0x0, .any⟩]⟩,
  -- FCHK: VINA_MIN, VINB_MIN
  ⟨0xC, [], [⟨16, 16, .ro, 0x0, .any⟩, ⟨0, 16, .ro, 0x0, .any⟩]⟩,
  -- RST_CAUSE: BOOTSEL, BOOTSEL_BAD, CAUSE
  ⟨0x10, [], [⟨6, 2, .ro, 0x0, .any⟩, ⟨5, 1, .ro, 0x0, .any⟩, ⟨0, 3, .ro, 0x0, .any⟩]⟩,
  -- EVT: TJ, CHK, FEEDS_OK, VINB, VINA
  ⟨0x14, [], [⟨4, 1, .w1c, 0x0, .any⟩, ⟨3, 1, .w1c, 0x0, .any⟩, ⟨2, 1, .w1c, 0x0, .any⟩, ⟨1, 1, .w1c, 0x0, .any⟩, ⟨0, 1, .w1c, 0x0, .any⟩]⟩]

/-- Every register of the PWR block (R443). -/
def regsPwr : List RegSpec := regsPwr1

/-- Registers of the IMAGE block, part 1 (R333). -/
def regsImage1 : List RegSpec := [
  -- CTL: LOCK
  ⟨0x0, [], [⟨29, 1, .w1s, 0x0, .any⟩]⟩,
  -- CFG: OWNER_SLOT
  ⟨0x4, [], [⟨0, 8, .rwl, 0x2, .any⟩]⟩,
  -- STAT: BUSY, PHASE, TARGET, ERR, RECIDX
  ⟨0x8, [], [⟨31, 1, .ro, 0x0, .any⟩, ⟨28, 3, .ro, 0x0, .any⟩, ⟨24, 4, .ro, 0x0, .any⟩, ⟨16, 8, .ro, 0x0, .any⟩, ⟨0, 16, .ro, 0x0, .any⟩]⟩,
  -- EVT: FLOOR, FALLBACK, FAIL, DONE
  ⟨0xC, [], [⟨3, 1, .w1c, 0x0, .any⟩, ⟨2, 1, .w1c, 0x0, .any⟩, ⟨1, 1, .w1c, 0x0, .any⟩, ⟨0, 1, .w1c, 0x0, .any⟩]⟩,
  -- ABSENT: CH_ABSENT
  ⟨0x10, [], [⟨0, 4, .w1c, 0x0, .any⟩]⟩,
  -- CH_CTL: GATE, UNGATE, RESET
  ⟨0x20, [(0x10, 4)], [⟨31, 1, .wo, 0x0, .any⟩, ⟨30, 1, .wo, 0x0, .any⟩, ⟨29, 1, .wo, 0x0, .any⟩]⟩,
  -- CH_STAT: STATE, HELD, STAGED, CARRIED, LOADS
  ⟨0x24, [(0x10, 4)], [⟨29, 3, .ro, 0x0, .any⟩, ⟨28, 1, .ro, 0x0, .any⟩, ⟨27, 1, .ro, 0x0, .any⟩, ⟨26, 1, .ro, 0x0, .any⟩, ⟨0, 16, .ro, 0x0, .any⟩]⟩,
  -- CH_DROP: REQ_ABSENT, REPLY_DISC
  ⟨0x28, [(0x10, 4)], [⟨16, 16, .ro, 0x0, .any⟩, ⟨0, 16, .ro, 0x0, .any⟩]⟩,
  -- SVN_CMN: FLOOR
  ⟨0x60, [], [⟨0, 32, .ro, 0x0, .any⟩]⟩,
  -- SVN_CH: FLOOR
  ⟨0x64, [], [⟨0, 32, .ro, 0x0, .any⟩]⟩,
  -- FWVER: FWVER
  ⟨0x70, [(0x4, 4)], [⟨0, 32, .ro, 0x0, .any⟩]⟩,
  -- MEAS_CMN: MEAS
  ⟨0x100, [(0x4, 12)], [⟨0, 32, .ro, 0x0, .any⟩]⟩,
  -- MEAS_CH: MEAS
  ⟨0x140, [(0x40, 4), (0x4, 12)], [⟨0, 32, .ro, 0x0, .any⟩]⟩,
  -- MEAS_STG: MEAS
  ⟨0x240, [(0x40, 4), (0x4, 12)], [⟨0, 32, .ro, 0x0, .any⟩]⟩]

/-- Every register of the IMAGE block (R333). -/
def regsImage : List RegSpec := regsImage1

end Sys2Proof.Machine
end

