-- ==== Sys2Proof/Machine/ChanOps.lean ====
section
/-! DEFINITION. The named operations on a channel's registers, events, journal and requests to the common complex. -/
namespace Sys2Proof.Machine

/-- The registers of a channel block (R444). -/
def kbRegs : KB → List RegSpec
  | .ref => regsRef | .dpll => regsDpll | .syn => regsSyn | .gnss => regsGnss | .port => regsPort
  | .sched => regsSched | .sealb => regsSeal | .pmu => regsPmu | .chctl => regsChctl

/-- The offset of a channel block within the channel (R15). -/
def kbBase : KB → Nat
  | .ref => 0x000000 | .dpll => 0x100000 | .syn => 0x200000 | .gnss => 0x300000 | .port => 0x400000
  | .sched => 0x500000 | .sealb => 0x600000 | .pmu => 0x700000 | .chctl => 0x800000

/-- The block number of a channel block: its base divided by 0x10_0000 (R396). -/
def kbNum (b : KB) : Nat := kbBase b / 0x100000

/-- The WIN_REG offset of a channel register (R15). -/
def winReg (c : ChanIx) (b : KB) (off : Nat) : Nat := 0x1000000 * (c.val + 1) + kbBase b + off

/-- The reset word of a channel register (R446). -/
def kbRst (b : KB) (off : Nat) : Word :=
  match findReg (kbRegs b) off with
  | some g => g.rstWord
  | none => 0#32

/-- A register file in which every register holds its reset word. -/
def RegFile.reset : RegFile := ⟨[], [], [], [], [], [], []⟩

/-- A register file at the end of a tick: what the tick marked is dropped, and the values due with the next tick are in use
(R11, R12, R182, R251). `rst` gives the reset words. -/
def RegFile.endTick (rst : Nat → Word) (f : RegFile) : RegFile :=
  { f with use := f.next.foldl (fun u e => smPut (rst e.1) u e.1 e.2) f.use, pre := [], hset := [], next := [] }

/-- The stored words as they stood before the writes of this tick (R12). -/
def RegFile.before (rst : Nat → Word) (f : RegFile) : List (Nat × Word) :=
  f.pre.foldl (fun u e => smPut (rst e.1) u e.1 e.2) f.cur

def KRegs.get (r : KRegs) : KB → RegFile
  | .ref => r.ref | .dpll => r.dpll | .syn => r.syn | .gnss => r.gnss | .port => r.port
  | .sched => r.sched | .sealb => r.sealb | .pmu => r.pmu | .chctl => r.chctl

def KRegs.set (r : KRegs) (b : KB) (f : RegFile) : KRegs :=
  match b with
  | .ref => { r with ref := f } | .dpll => { r with dpll := f } | .syn => { r with syn := f }
  | .gnss => { r with gnss := f } | .port => { r with port := f } | .sched => { r with sched := f }
  | .sealb => { r with sealb := f } | .pmu => { r with pmu := f } | .chctl => { r with chctl := f }

/-- Every register file of a channel at the end of a tick. -/
def KRegs.endTick (r : KRegs) : KRegs :=
  ⟨r.ref.endTick (kbRst .ref), r.dpll.endTick (kbRst .dpll), r.syn.endTick (kbRst .syn), r.gnss.endTick (kbRst .gnss),
   r.port.endTick (kbRst .port), r.sched.endTick (kbRst .sched), r.sealb.endTick (kbRst .sealb), r.pmu.endTick (kbRst .pmu),
   r.chctl.endTick (kbRst .chctl)⟩

namespace Channel

/-- The register file of a block. -/
def rf (c : Channel) (b : KB) : RegFile := c.regs.get b
/-- The channel with a block's register file replaced. -/
def setRf (c : Channel) (b : KB) (f : RegFile) : Channel := { c with regs := c.regs.set b f }

/-- The stored word of a register. -/
def word (c : Channel) (b : KB) (off : Nat) : Word := smGet (kbRst b off) (c.rf b).cur off
/-- The word of a register's values in use (R8). -/
def useWord (c : Channel) (b : KB) (off : Nat) : Word := smGet (kbRst b off) (c.rf b).use off

/-- The channel with the stored word of a register replaced. -/
def setWord (c : Channel) (b : KB) (off : Nat) (w : Word) : Channel :=
  c.setRf b { c.rf b with cur := smPut (kbRst b off) (c.rf b).cur off w }

/-- The value of a field as the device uses it: the committed value of a shadowed field, else the stored one (R8). -/
def fld (c : Channel) (f : KF) : Nat :=
  if f.sh then getField (c.useWord f.blk f.off) f.lsb f.w else getField (c.word f.blk f.off) f.lsb f.w
/-- The shadow or stored value of a field. -/
def cur (c : Channel) (f : KF) : Nat := getField (c.word f.blk f.off) f.lsb f.w
/-- A one-bit field as used. -/
def flag (c : Channel) (f : KF) : Bool := c.fld f == 1
/-- A field as used, read as a signed number. -/
def sfld (c : Channel) (f : KF) : Int := signed f.w (c.fld f)

/-- The stored value of a field set by hardware. -/
def put (c : Channel) (f : KF) (v : Nat) : Channel := c.setWord f.blk f.off (putField (c.word f.blk f.off) f.lsb f.w v)
/-- A counter field advanced by one, modulo its width. -/
def bump (c : Channel) (f : KF) : Channel := c.put f (c.cur f + 1)
/-- A counter field advanced by `n`, modulo its width. -/
def bumpBy (c : Channel) (f : KF) (n : Nat) : Channel := c.put f (c.cur f + n)
/-- A counter field advanced by one, kept at its largest value. -/
def bumpSat (c : Channel) (f : KF) : Channel := c.put f (min (2 ^ f.w - 1) (c.cur f + 1))

/-- A request to the common complex. -/
def ask (c : Channel) (e : Eff) : Channel := { c with effs := c.effs ++ [e] }

/-- W1C bits of one register set by hardware: they end set even where software clears them in this tick (R11), and they are
reported under the image's policy (R24, R91, R316). -/
def evtMask (c : Channel) (b : KB) (off : Nat) (m : Nat) : Channel :=
  let c1 := c.setWord b off (c.word b off ||| BitVec.ofNat 32 m)
  let f := c1.rf b
  (c1.setRf b { f with hset := smPut 0#32 f.hset off (smGet 0#32 f.hset off ||| BitVec.ofNat 32 m) }).ask (.event b off m)

/-- A W1C bit set by hardware. -/
def evt (c : Channel) (f : KF) : Channel := c.evtMask f.blk f.off (2 ^ f.lsb)

/-- A change offered to the cellar book with KIND STATE (R395). -/
def bookState (c : Channel) (org : Origin) (b : KB) (off : Nat) (old new : Word) : Channel :=
  c.ask (.book ⟨org, 0x04, winReg c.ix b off, old, new⟩)

/-- A free value of `w` bits, and the channel with the draw counted. -/
def free (c : Channel) (w : Nat) : Nat × Channel :=
  (Config.freeValue c.ix.val c.freeCtr % 2 ^ w, { c with freeCtr := c.freeCtr + 1 })

/-- The origin of a channel block's own decisions (R396). -/
def policyOrg (c : Channel) (b : KB) : Origin := .policy (some c.ix) (kbNum b)

/-- The GT128 time of the counter (R128). -/
def now (c : Channel) : Gt := sar c.dpll.ctr 32

/-! ### The journal (R142, R143) -/

/-- Appends an entry; a full ring overwrites its oldest entry, and the wrap is counted. -/
def journalAt (c : Channel) (tick : Nat) (commit late : Bool) (b : JBody) : Channel :=
  let j := c.jour
  let e : JEntry := ⟨j.jseq + 1, tick, commit, late, c.ix, j.wptr, false, b⟩
  let w := (j.wptr + 1) % 131072
  let j' := { j with ring := (e :: j.ring).take 131072, wptr := w, jseq := j.jseq + 1,
                     wraps := if w = 0 then min 0xFFFFFFFF (j.wraps + 1) else j.wraps }
  ({ c with jour := j' }).ask (.jour e)

/-- Appends a committed entry of this tick. -/
def journal (c : Channel) (b : JBody) : Channel := c.journalAt c.jour.tick true false b

/-! ### The time counter (R128, R180) -/

end Channel

/-- The tick constant of R128: floor(5 ns × 2^96). -/
def NOM : Int := 396140812571321687967

/-- smax of R128 for a slew limit in ps/s. -/
def smaxOf (slew : Nat) : Int := Int.fdiv ((slew : Int) * 2 ^ 96) (2 * 10 ^ 20)

namespace Channel

/-- smax in force. -/
def smax (c : Channel) : Int := smaxOf (c.fld F.DPLL_A_SLEW_SLEW)

/-- chan_at of R180: the channel time at offset `q`, in 2^-96 s, from the start of the tick, and the drain interpolated. -/
def chanAt (c : Channel) (q : Int) : Gt × Int :=
  let k := Int.fdiv (c.smax * q) NOM
  let dr := clampAbs k c.dpll.pend
  (sar (c.dpll.ctr + q + sar (q * c.dpll.rate) 64 + dr) 32, dr)

/-- The offset in 2^-96 s of `ps` picoseconds. -/
def psQ (ps : Nat) : Int := pointOfPs ps * 2 ^ 32

/-- The channel time at `ps` picoseconds into the tick and the cumulative correction K there (R78, R180). -/
def stampAt (c : Channel) (ps : Nat) : Gt × Int :=
  let r := c.chanAt (psQ ps)
  (r.1, c.dpll.kCum + r.2)

/-- K at channel time `t` of this tick (R78): the drain of the tick as far as `t` is into it. -/
def kAt (c : Channel) (t : Gt) : Int := c.dpll.kCum + clampAbs (Int.fdiv (c.smax * max 0 (t * 2 ^ 32 - c.dpll.ctr)) NOM) c.dpll.pend

/-- The advance of one tick without the drain (R128). -/
def rateStep (c : Channel) : Int := NOM + sar (NOM * c.dpll.rate) 64

/-- The counter at the start of the tick `n` ticks on, when nothing but the drain of R128 changes it. -/
def ctrAfter (c : Channel) (n : Nat) : Int := c.dpll.ctr + n * c.rateStep + clampAbs (n * c.smax) c.dpll.pend

/-- Whether a deadline in channel time belongs to this tick or an earlier one (R29). -/
def reached (c : Channel) (t : Gt) : Bool := decide (t * 2 ^ 32 < c.ctrAfter 1)

/-- Whether a deadline in channel time belongs to this tick: its span starts at the counter before the tick's steps (R29). -/
def reachedNow (c : Channel) (t : Gt) : Bool := c.reached t && decide (c.dpll.ctr0 ≤ t * 2 ^ 32)

/-- A duration in seconds as evaluation ticks (R29). -/
def secTicks (s : Nat) : Nat := s * 200000000

end Channel

end Sys2Proof.Machine
end

