-- ==== Sys2Proof/Machine/ChanReset.lean ====
section
/-! DEFINITION. A channel after channel reset (R80, R129, R151, R234, R250, R413, R446). -/
namespace Sys2Proof.Machine

def Lane.reset (exist : Bool) : Lane :=
  ⟨exist, .absent, false, false, false, false, 0, 0, 0, none, none, none, none, 0, false, 0, 0, []⟩

def SelSt.reset : SelSt := ⟨none, none, none, none, 0, false, false, none, []⟩

/-- The REF block with the lanes that the image has (R80, R93). -/
def RefSt.reset (lanes : Nat) : RefSt :=
  ⟨Vector.ofFn (fun n => Lane.reset (lanes / 2 ^ n.val % 2 == 1)), .reset, .reset, [], [], []⟩

/-- The DPLL block (R129): counter, pend and i 0, FREERUN, no trace, saturated bounds, empty rings. BWC reads BW_ACQ's reset. -/
def DpllSt.reset : DpllSt :=
  { ctr := 0, pend := 0, rate := 0, first := true, firstB := true, lastTs := none, lastTsB := none, sl := false,
    trace := false, hoValid := false, st := .freerun, bst := .free, lockCnt := 0, unlockCnt := 0, bwc := 0x4FBA,
    teb0 := SAT, t0 := 0, fb := SAT, lfb := SAT, tag := 0#32, hoAct := false, hoEntry := 0, tebH := SAT, bEff := SAT,
    agedAt := none, short := [], long := [], char := none, rateB := 0, fbB := SAT, stepWait := none, stepNext := none,
    waitA := [], waitB := [], kCum := 0, cwEnd := 0, ctr0 := 0 }

def LeapEnt.zero : LeapEnt := ⟨false, false, 0, 0, 0⟩

/-- The time-scale state: an empty leap table (R64). -/
def ScaleSt.reset : ScaleSt :=
  ⟨Vector.replicate 8 .zero, Vector.replicate 8 none, Vector.replicate 8 none, none⟩

def JournalSt.reset : JournalSt := ⟨[], 0, 0, 0, 0⟩

/-- The SYN block (R151, R172). -/
def SynBlk.reset : SynBlk :=
  ⟨0, 0, none, none, none, ⟨0, false, 0, none⟩, ⟨0, false, 0, none⟩, Vector.replicate 8 ⟨false, false, false, false, none, none⟩,
   Vector.replicate 2 ⟨none, none, false, none⟩, none, none, 0⟩

/-- The GNSS block (R121). -/
def GnssBlk.reset : GnssBlk :=
  { trk := Vector.replicate 48 ⟨none, 0, 0⟩, oldSpc := none, barred := [], nav := ⟨[], none, none, none⟩, expect := none, comma := none,
    good := 0, bad := 0, erasedAt := [], alarmAt := none, notchEnd := Vector.replicate 4 none, notchLow := Vector.replicate 4 none,
    jniSec := 0, jniAt := none, agcMs := (0, 0), agcFl := (0, 0), floorEnd := none, bc := none, bcTag := 0, bcAt := none, pos := none,
    survey := none, epoch := none, lastEpoch := none, usableN := 0, prevRec := none, snap := none }

/-- Every register file of a channel at its reset words (R446). -/
def KRegs.reset : KRegs := ⟨.reset, .reset, .reset, .reset, .reset, .reset, .reset, .reset, .reset⟩

/-- Channel `n` after channel reset, with the parts and lanes that `t` gives it. -/
def Channel.reset (n : ChanIx) (t : Topo) (drive safe : Bool) (freeCtr : Nat) : Channel :=
  { ix := n, topo := t, regs := .reset, ref := .reset t.lanes, dpll := .reset, scale := .reset, jour := .reset, syn := .reset,
    gnss := .reset, sched := .reset, ports := Vector.replicate 2 .reset, sealb := .reset, pmu := .reset,
    ends := Vector.replicate 2 .reset, ens := Vector.replicate 2 .reset, tprev := none, epi := ⟨none, none, false⟩,
    freeCtr := freeCtr, drive := drive, safe := safe, effs := [] }

end Sys2Proof.Machine
end

