-- ==== Sys2Proof/Machine/State.lean ====
section
/-! DEFINITION. The state of the device, its faults and refusals, and the state after a power-on reset. -/
namespace Sys2Proof.Machine

/-- Why the machine stops with a fault. -/
inductive Fault
  /-- Raised by CLKGEN_COMMIT when it would put CORE 400 MHz and BUS 800 MHz in force on a root: R428 says that a root run outside the
  ratio limits behaves in an undefined way. Safe. -/
  | ratioLimit
  deriving DecidableEq, Repr

/-- Why a command is refused. -/
inductive Refusal
  /-- Raised by an arm of `exec` whose command has no meaning yet. Safe. -/
  | notModelled (mnemonic : String)
  deriving DecidableEq, Repr

/-- The device. `tick` is the common tick count (R427). `regs` holds the registers of the common complex, `ch` the channels, `img` what
the loader holds of each. `freeCtr` counts the free values drawn by the common complex (notes/assumptions/3.md). `out` holds what the
last command sent out, and `pending` the commands that wait, first in, first out. `held` are the commands taken from the queue whose place
in their tick comes behind a command that still waits (R30 to R32). -/
structure State where
  tick : Nat
  regs : GRegs
  ch : Vector Channel 4
  img : Vector ChanImg 4
  loader : LoaderSt
  fuse : Fuse
  host : HostSt
  cmdq : CmdqSt
  fault : FaultSt
  vault : VaultSt
  book : BookSt
  tally : TallySt
  twin : TwinSt
  router : RouterSt
  pwr : PwrSt
  freeCtr : Nat
  out : List Output
  held : List Instr
  pending : List Instr
  deriving DecidableEq, Repr

/-- What is fused (notes/assumptions/5.md): the values that the spec does not give are free. -/
def Fuse.reset : Fuse :=
  { devid := 0x485800012A3C0004, ids := beBytes 48 (Config.freeValue 5 0), dik := Config.freeValue 5 1,
    fwPub := beBytes 96 (Config.freeValue 5 2), mBoot := beBytes 48 (Config.freeValue 5 3), idRev := 0x01003C00#32,
    idFeat := 0xEF#32 }

def GRegs.reset : GRegs := ⟨.reset, .reset, .reset, .reset, .reset, .reset, .reset, .reset, .reset, .reset, .reset⟩

/-- A channel without an image (R326): EMPTY, its store invalid, not powered. -/
def ChanImg.reset : ChanImg := ⟨[], [], none, false, List.replicate 48 0, none, none, none, .off, false, false⟩

/-- The vault as shipped (R347, R349, R352): UNOWNED, no slot, KCNT 0, no seed yet, all internal monitors on. -/
def VaultSt.reset : VaultSt :=
  { slots := [], own := 0, kcnt := 0, seed := none, storeSeed := none, mCmn := none,
    mix := Vector.replicate 4 (List.replicate 48 0), kum := none, quote := none, commits := [], tcfg := 0x0F00#32, log := [], logOvf := 0, vclk := 0,
    prevFail := 0, alarmed := 0, vbatLost := false }

def TallyRec.zero : TallyRec :=
  { poh := 0, starts := 0, faultResets := 0, tampers := 0, injected := 0, drills := 0, drillFail := 0,
    tj := Vector.replicate 16 0, vina := Vector.replicate 16 0, vinb := Vector.replicate 16 0,
    outage := Vector.replicate 16 0, holdover := Vector.replicate 16 0, rackT := Vector.replicate 8 0,
    rackRes := Vector.replicate 4 0, wear := Vector.replicate 8 0, faults := [] }

def TallySt.reset : TallySt := ⟨.zero, none, none, none, none, 0⟩

def RxChan.reset : RxChan := ⟨[], none, [], none, 0, Vector.replicate 4 []⟩

/-- The twin block after device reset (R265, R266, R441): no role yet, every path UNHEARD. -/
def TwinSt.reset : TwinSt :=
  { role := false, paired := false, unitA := false, eSeen := 0, lastA := none, lastB := none, heard := false, declared := false,
    waitAt := none,
    bootAt := none, roundAt := none, inRound := none, won := false, goodRounds := 0, peerClaims := [], noDrive := false,
    laneUp := Vector.replicate 2 false, lseqTx := Vector.replicate 2 0, lseqRx := Vector.replicate 2 none, hbSeq := 0, hbAt := none,
    echo := none, offs := [], offHist := [], choff := Vector.replicate 4 0, crcErr := [],
    rx := Vector.replicate 4 .reset, nvRing := [], nvNext := 0, vintAt := Vector.replicate 4 none, vseq := 0, rack := none,
    drill := none }

def RouterSt.reset : RouterSt := ⟨[], [], true, [], [], [], none, []⟩

/-- Clocks and power at a power-on reset: a feed has risen, RESET_N is high, no check yet (R433, R438, R440). -/
def PwrSt.reset : PwrSt :=
  { pst := .cold, resetN := true, gd := false, feedA := ⟨none, true⟩, feedB := ⟨none, true⟩, chk := none, selfTest := none,
    rootRetry := false, resetEntry := false, scan := false, balls := [], unclocked := [] }

/-- No part and no lane, before an image (R306). -/
def Topo.none : Topo := ⟨0, 0, []⟩

/-- The device right after its first power-on reset, at stage RAILS (R438, R440, R446), with nothing in its non-volatile memory but
what R334, R347 and R352 say of a device as shipped. CAUSE reads POWER_ON, and the tally counts the start-up. -/
def State.reset : State :=
  { tick := 0,
    regs := { GRegs.reset with pwr := { RegFile.reset with cur := [(PWR_RST_CAUSE, 1#32)] } },
    ch := Vector.ofFn (fun n => Channel.reset n Topo.none false false 0), img := Vector.replicate 4 .reset,
    loader := ⟨[], none⟩, fuse := .reset, host := ⟨[], [], []⟩, cmdq := ⟨[], 0⟩, fault := ⟨none, [], [], [], none, false⟩, vault := .reset,
    book := ⟨[], [], 1, 0, [], []⟩, tally := { TallySt.reset with cur := { TallyRec.zero with starts := 1 } }, twin := .reset,
    router := .reset, pwr := .reset, freeCtr := 0, out := [], held := [], pending := [] }

end Sys2Proof.Machine
end

