-- ==== Sys2Proof/Machine/Operands.lean ====
section
/-! DEFINITION. The operands of commands that come as bytes or codes: the fields of MSPI frames (R385, R439), the registers that hold
LOCK bits (R12). -/
namespace Sys2Proof.Machine

/-! ### Frames (R385) -/

/-! OP codes. -/
def OP_RREG : Nat := 0x01
def OP_WREG : Nat := 0x02
def OP_RMEM : Nat := 0x03
def OP_WMEM : Nat := 0x04
def OP_DRIVE : Nat := 0x70
def OP_SENSE : Nat := 0x71
def OP_SCAN : Nat := 0x7E

/-- The OP, the address and the data of a frame. -/
def fOp (bs : Bytes) : Nat := fromBe (slice bs 0 1)
def fAddr (bs : Bytes) : Nat := fromBe (slice bs 1 4)
def fData (bs : Bytes) : Word := BitVec.ofNat 32 (fromBe (slice bs 5 4))

/-- Whether an OP is one of the frames' (R385, R439), and whether its frame has the read format. -/
def opKnown (op : Nat) : Bool := [OP_RREG, OP_WREG, OP_RMEM, OP_WMEM, OP_DRIVE, OP_SENSE, OP_SCAN].contains op
def opRead (op : Nat) : Bool := op == OP_RREG || op == OP_RMEM || op == OP_SENSE

/-- Whether the CRC byte of a frame is good; a frame of a known OP also has its length. -/
def frameGood (bs : Bytes) : Bool :=
  decide (2 ≤ bs.length) && fromBe (bs.drop (bs.length - 1)) == crc8 (bs.take (bs.length - 1)) &&
    (!opKnown (fOp bs) || bs.length == (if opRead (fOp bs) then 6 else 10))

end Sys2Proof.Machine
end

