-- ==== Sys2Proof/Machine/Flags.lean ====
section
/-! DEFINITION. The status flags that the device answers over the MSPI (R385). A block has no processor flags; its event and status
flags stand in its registers. -/
namespace Sys2Proof.Machine

/-! Bits of STATUS. -/
def ST_OK : Nat := 1
def ST_CRC : Nat := 2
def ST_ABSENT : Nat := 4
def ST_DISCARD : Nat := 8
def ST_OP : Nat := 16

/-- What the device sends after a write frame, and after a read frame. -/
def answerW (st : Nat) : Bytes := [BitVec.ofNat 8 st, BitVec.ofNat 8 (crc8 [BitVec.ofNat 8 st])]
def answerR (st : Nat) (d : Word) : Bytes :=
  let b := 0#8 :: beBytes 4 d.toNat ++ [BitVec.ofNat 8 st]
  b ++ [BitVec.ofNat 8 (crc8 b)]

end Sys2Proof.Machine
end

