-- ==== Sys2Proof/Machine/ChanTime.lean ====
section
/-! DEFINITION. The channel's time with its bound and tag (R39, R40, R48, R85, R134 to R137), and UTC (R56 to R62). -/
namespace Sys2Proof.Machine

/-- The code of a lane state in LANE_STAT.STATE (R93). -/
def laneCode : LaneSt → Nat
  | .absent => 0 | .qualifying => 1 | .qualified => 2 | .wtr => 3 | .contested => 4 | .disqualified => 5 | .forced => 6

/-- The code of a channel time state in DPLL.STAT.STATE (R147). -/
def chanCode : ChanSt → Nat
  | .freerun => 0 | .acquiring => 1 | .locked => 2 | .holdover => 3 | .holdoverLimit => 4

/-- The code of B_STATE (R147). -/
def bCode : BSt → Nat
  | .free => 0 | .track => 1 | .hold => 2

/-- The lane that feeds the servo: the selection, unless it is without input (R90). -/
def SelSt.out (x : SelSt) : Option LaneIx := if x.noIn then none else x.cur

namespace Channel

/-- LRN_STAT.VALID: learned coefficients are present (R136). -/
def lrnValid (c : Channel) : Bool := c.cur F.DPLL_LRN_STAT_VALID == 1

/-- The holdover coefficients b and c that MODEL chooses (R136). -/
def hoCoef (c : Channel) : Nat × Nat :=
  let hb := c.fld F.DPLL_HO_B_B
  let hc := c.fld F.DPLL_HO_C_C
  let lb := if c.lrnValid then c.cur F.DPLL_LRN_B_B else hb
  let lc := if c.lrnValid then c.cur F.DPLL_LRN_C_C else hc
  match c.fld F.DPLL_A_CFG_MODEL with
  | 0 => (hb, hc)
  | 1 => (lb, lc)
  | _ => (max hb lb, max hc lc)

/-- t_s of R136 at channel time `t`: the seconds since holdover entry, rounded up. -/
def hoSecs (c : Channel) (t : Gt) : Nat := (sar (t - c.dpll.hoEntry + (2 ^ 64 - 1)) 64).toNat

/-- teb_ho of R136. -/
def tebHo (c : Channel) (ts : Nat) : Bound :=
  if c.dpll.bEff ≥ SAT then SAT
  else
    let tb := (c.dpll.bEff * ts + 255) / 256
    let tc := (c.hoCoef.2 * ts * ts + 2 ^ 32 - 1) / 2 ^ 32
    satAdd (satAdd (satAdd c.dpll.tebH (c.fld F.DPLL_HO_A_A)) (satCap tb)) (satCap tc)

/-- The widening of the contests whose pair feeds DPLL_A, at channel time `t` (R85, R86). -/
def contestWiden (c : Channel) (t : Gt) : Bound :=
  c.ref.selA.contests.foldl (fun a k =>
    if c.ref.selA.cur = some k.a ∨ c.ref.selA.cur = some k.b then satAdd a (grow 0 k.dmax (t - k.tc)) else a) c.dpll.cwEnd

/-- The channel TEB at channel time `t` (R48, R136, R138): grow(TEB_0, FB, t − t_0) in ACQUIRING and LOCKED, the holdover
model while it is in force, else saturated. -/
def tebAt (c : Channel) (t : Gt) : Bound :=
  let core :=
    if c.dpll.hoAct then c.tebHo (c.hoSecs t)
    else match c.dpll.st with
      | .freerun => SAT
      | _ => grow c.dpll.teb0 c.dpll.fb (t - c.dpll.t0)
  satAdd core (c.contestWiden t)

/-- The channel TEB now. -/
def teb (c : Channel) : Bound := c.tebAt c.now

/-- The FB in force (R129, R131, R136). -/
def fbNow (c : Channel) : Bound :=
  if c.dpll.hoAct then
    satAdd c.dpll.bEff (satCap (ceilDiv (2 * c.hoCoef.2 * c.hoSecs c.now) (2 ^ 24)))
  else c.dpll.fb

/-- The channel's provenance tag (R39, R40). A channel in FREERUN that was never locked reports LANES 0. -/
def tagNow (c : Channel) : Word :=
  let t := tagSet (tagSet c.dpll.tag 7 (c.dpll.hoAct || c.dpll.st == .holdover || c.dpll.st == .holdoverLimit)) 4 c.dpll.sl
  if c.dpll.st == .freerun && !c.dpll.hoValid then putField t 16 16 0 else t

/-- The rate word of DPLL_B as published (R123). -/
def rateBNow (c : Channel) : Int :=
  match c.dpll.bst with
  | .free => 0
  | .track => c.dpll.rateB
  | .hold => if c.flag F.DPLL_B_CFG_FOLLOW_A then c.dpll.rate else c.dpll.rateB

/-- FB_B as published (R123). -/
def fbBNow (c : Channel) : Bound :=
  match c.dpll.bst with
  | .free => SAT
  | .track => c.dpll.fbB
  | .hold => if c.flag F.DPLL_B_CFG_FOLLOW_A then c.fbNow else SAT

/-- CALSET (R47). -/
def calset (c : Channel) : Nat := c.fld F.DPLL_TS_CFG_CALSET

/-! ### UTC (R56 to R58) -/

/-- The table that conversions of this tick use: the one before an entry write of the same tick (R62). -/
def leapTab (c : Channel) : Vector LeapEnt 8 := c.scale.old.getD c.scale.leap

/-- The valid entries of the leap table in use with their indices. -/
def leapValid (c : Channel) : List (Fin 8 × LeapEnt) :=
  ((List.finRange 8).map (fun k => (k, c.leapTab[k]))).filter (fun e => e.2.valid)

/-- The entry in force at TAI second `s` among valid entries: confirmed, with the greatest EFF not after `s` (R56). -/
def inForce (es : List (Fin 8 × LeapEnt)) (s : Int) : Option (Fin 8 × LeapEnt) :=
  (es.filter (fun e => e.2.conf && decide (e.2.eff ≤ s))).foldl
    (fun a e => match a with | none => some e | some b => if e.2.eff > b.2.eff then some e else some b) none
def leapInForce (c : Channel) (s : Int) : Option (Fin 8 × LeapEnt) := inForce c.leapValid s

/-- The UTC offset at TAI second `s` (R56). -/
def utcOfs (c : Channel) (s : Int) : Int := match c.leapInForce s with | some e => e.2.ofs | none => 0

/-- UTC_NOW.VALID at TAI second `s` (R56). -/
def utcValid (c : Channel) (s : Int) : Bool := (c.leapInForce s).isSome

/-- The next valid, confirmed entry after TAI second `s` (R58). -/
def leapNext (c : Channel) (s : Int) : Option (Fin 8 × LeapEnt) :=
  (c.leapValid.filter (fun e => e.2.conf && decide (s < e.2.eff))).foldl
    (fun a e => match a with | none => some e | some b => if e.2.eff < b.2.eff then some e else some b) none

/-- The leap window of R58 that holds TAI second `s`: 1 an insertion, 2 a deletion, 0 none. An inserted second keeps its window
one second past EFF, so an entry just come into force is looked at as well. -/
def leapWin (c : Channel) (s : Int) : Nat :=
  match c.leapInForce s with
  | none => 0
  | some p =>
    let prevOfs := match c.leapInForce (p.2.eff - 1) with | some q => some q.2.ofs | none => none
    if decide (s = p.2.eff) && prevOfs == some (p.2.ofs - 1) then 1
    else match c.leapNext s with
      | none => 0
      | some n =>
        if n.2.ofs - p.2.ofs = 1 ∧ n.2.eff - 86400 ≤ s then 1
        else if n.2.ofs - p.2.ofs = -1 ∧ n.2.eff - 86399 ≤ s then 2
        else 0

/-- The leap indicator LI of R58 at TAI second `s`: 3 without a valid offset or in FREERUN. -/
def leapInd (c : Channel) (s : Int) : Nat := if !c.utcValid s || c.dpll.st == .freerun then 3 else c.leapWin s

/-- The TAI second of the counter. -/
def nowSec (c : Channel) : Int := sar c.now 64

/-! ### Views of the REF and DPLL registers -/

/-- REF.SEL_STAT (R93). -/
def selStat (c : Channel) : Word :=
  let half (s : SelSt) : Nat :=
    b2n s.out.isSome * 2 ^ 15 + b2n s.sw.isSome * 2 ^ 14 + b2n s.pv.isSome * 2 ^ 13 + b2n s.pend * 2 ^ 12 +
      (match s.cur with | some n => n.val | none => 0) * 2 ^ 8 + (match s.pv with | some n => n.val | none => 0) * 2 ^ 4
  BitVec.ofNat 32 (half c.ref.selA * 2 ^ 16 + half c.ref.selB)

/-- DPLL.STAT (R147). -/
def dpllStat (c : Channel) : Word :=
  let d := c.dpll
  BitVec.ofNat 32 (chanCode d.st * 2 ^ 29 + b2n d.sl * 2 ^ 28 + b2n d.hoValid * 2 ^ 27 + b2n d.trace * 2 ^ 26 +
    bCode d.bst * 2 ^ 24 + d.bwc % 65536)

end Channel
end Sys2Proof.Machine
end

