-- ==== Sys2Proof/Machine/JourBytes.lean ====
section
/-! DEFINITION. The bytes of measurement records and of journal entries (R73, R142, R143). -/
namespace Sys2Proof.Machine

namespace Channel

/-- The bytes of a measurement record (R73). -/
def recBytes (r : MeasRec) : Bytes :=
  leBytes 16 (unsigned 128 r.refTs) ++ leBytes 16 (unsigned 128 r.offset) ++ leBytes 8 (unsigned 64 r.freq) ++ leBytes 4 r.teb ++
  leBytes 4 r.fb ++ leBytes 4 r.tag.toNat ++ leBytes 2 r.seq ++
  [BitVec.ofNat 8 r.lane.val,
   BitVec.ofNat 8 (b2n r.phaseOnly + b2n r.freqOnly * 2 + b2n r.step * 4 + b2n r.backward * 8 + b2n r.mpd.isSome * 16)] ++
  leBytes 4 (match r.mpd with | some m => unsigned 32 m | none => 0) ++ leBytes 4 0

end Channel

/-- The body of a journal entry and its TYPE (R143). -/
def jbodyBytes : JBody → Nat × Bytes
  | .meas r => (1, Channel.recBytes r)
  | .sel sv new old cause =>
    (2, leBytes 1 (match sv with | .a => 0 | .b => 1) ++ leBytes 1 (laneByte new) ++ leBytes 1 (laneByte old) ++ leBytes 1 cause)
  | .cancel v cause => (3, leBytes 8 v ++ leBytes 1 cause)
  | .lane n old new cause stepw => (4, leBytes 1 n.val ++ leBytes 1 (laneCode old) ++ leBytes 1 (laneCode new) ++ leBytes 1 cause ++ leBytes 4 stepw)
  | .servoA ofs pend i t0 teb0 fb lfb tag meas bwc st sl iset =>
    (5, leBytes 16 (unsigned 128 ofs) ++ leBytes 16 (unsigned 128 pend) ++ leBytes 8 (unsigned 64 i) ++ leBytes 16 (unsigned 128 t0) ++
      leBytes 4 teb0 ++ leBytes 4 fb ++ leBytes 4 lfb ++ leBytes 4 tag.toNat ++ leBytes 8 meas ++ leBytes 2 bwc ++ leBytes 1 (chanCode st) ++
      leBytes 1 (b2n sl + 2 * b2n iset))
  | .servoB rate fb st meas => (6, leBytes 8 (unsigned 64 rate) ++ leBytes 4 fb ++ leBytes 1 (bCode st) ++ leBytes 3 0 ++ leBytes 8 meas)
  | .state sv old new teb => (7, leBytes 1 (match sv with | .a => 0 | .b => 1) ++ leBytes 1 old ++ leBytes 1 new ++ leBytes 1 0 ++ leBytes 4 teb)
  | .cmd off v org d =>
    (8, leBytes 4 off ++ leBytes 4 v.toNat ++ leBytes 1 org ++ leBytes 7 0 ++ (match d with | some x => leBytes 16 (unsigned 128 x) | none => []))
  | .vint slot j => (9, leBytes 1 slot ++ leBytes 7 0 ++ leBytes 8 j)
where laneByte (n : Option LaneIx) : Nat := match n with | some k => k.val | none => 0xFF

/-- A journal entry of 128 bytes (R142). -/
def jentryBytes (e : JEntry) : Bytes :=
  let b := jbodyBytes e.body
  let h := leBytes 8 e.jseq ++ leBytes 8 e.tick ++ leBytes 1 b.1 ++ leBytes 1 (b2n e.commit + 2 * b2n e.late) ++ leBytes 1 e.ch.val ++ leBytes 9 0
  let d := padTo 96 b.2
  h ++ leBytes 4 (crc32 (h ++ d)) ++ d

end Sys2Proof.Machine
end

