-- ==== Sys2Proof/Machine/Crypto.lean ====
section
/-! DEFINITION. The cryptographic functions that the manual names: SHA-256 and SHA-384 (FIPS 180-4), HMAC, AES (FIPS 197), CMAC,
GMAC, SIV (RFC 5297), key wrap (RFC 3394), the KDF of R335 and ECDSA and ECDH on P-384. The manual names them and does not
restate them (notes/assumptions/96.md). -/
namespace Sys2Proof.Machine

/-- Exclusive or of two byte strings, as far as the shorter goes. -/
def xorBytes (a b : Bytes) : Bytes := List.zipWith (fun x y => x ^^^ y) a b

/-- A byte string cut into pieces of `n` bytes, at most `fuel` of them. -/
def chunks (n : Nat) : Nat → Bytes → List Bytes
  | 0, _ => []
  | fuel + 1, bs => if bs.isEmpty then [] else bs.take n :: chunks n fuel (bs.drop n)

/-- A byte string cut into blocks of `n` bytes. -/
def blocksOf (n : Nat) (bs : Bytes) : List Bytes := chunks n bs.length bs

/-! ### SHA-2 -/

/-- The functions that tell SHA-256 from SHA-384: the rotations and shifts of the two compressions. -/
structure ShaParam (w : Nat) where
  rounds : List (BitVec w)
  bs0 : Nat × Nat × Nat
  bs1 : Nat × Nat × Nat
  ss0 : Nat × Nat × Nat
  ss1 : Nat × Nat × Nat

/-- The eight working words of a SHA-2 compression. -/
structure Sha8 (w : Nat) where
  a : BitVec w
  b : BitVec w
  c : BitVec w
  d : BitVec w
  e : BitVec w
  f : BitVec w
  g : BitVec w
  h : BitVec w
  deriving DecidableEq, Repr

/-- A word rotated right. -/
def rotr {w : Nat} (x : BitVec w) (n : Nat) : BitVec w := (x >>> n) ||| (x <<< (w - n))
def bigSigma {w : Nat} (p : Nat × Nat × Nat) (x : BitVec w) : BitVec w := rotr x p.1 ^^^ rotr x p.2.1 ^^^ rotr x p.2.2
def smallSigma {w : Nat} (p : Nat × Nat × Nat) (x : BitVec w) : BitVec w := rotr x p.1 ^^^ rotr x p.2.1 ^^^ (x >>> p.2.2)

/-- The message schedule, newest word first, extended by `n` words. -/
def shaSched {w : Nat} (p : ShaParam w) : Nat → List (BitVec w) → List (BitVec w)
  | 0, l => l
  | n + 1, l =>
    shaSched p n ((smallSigma p.ss1 (l.getD 1 0) + l.getD 6 0 + smallSigma p.ss0 (l.getD 14 0) + l.getD 15 0) :: l)

/-- One round. -/
def shaRound {w : Nat} (p : ShaParam w) (s : Sha8 w) (kw : BitVec w × BitVec w) : Sha8 w :=
  let t1 := s.h + bigSigma p.bs1 s.e + ((s.e &&& s.f) ^^^ (~~~s.e &&& s.g)) + kw.1 + kw.2
  let t2 := bigSigma p.bs0 s.a + ((s.a &&& s.b) ^^^ (s.a &&& s.c) ^^^ (s.b &&& s.c))
  ⟨t1 + t2, s.a, s.b, s.c, s.d + t1, s.e, s.f, s.g⟩

/-- The compression of one block of 16 words. -/
def shaBlock {w : Nat} (p : ShaParam w) (s : Sha8 w) (blk : Bytes) : Sha8 w :=
  let ws := (blocksOf (w / 8) blk).map (fun b => BitVec.ofNat w (fromBe b))
  let sch := (shaSched p (p.rounds.length - 16) ws.reverse).reverse
  let r := (p.rounds.zip sch).foldl (shaRound p) s
  ⟨s.a + r.a, s.b + r.b, s.c + r.c, s.d + r.d, s.e + r.e, s.f + r.f, s.g + r.g, s.h + r.h⟩

/-- The padding of a message for blocks of `n` bytes. -/
def shaPad (n : Nat) (m : Bytes) : Bytes :=
  let len := m.length + 1 + n / 8
  m ++ [0x80#8] ++ List.replicate ((n - len % n) % n) 0#8 ++ beBytes (n / 8) (8 * m.length)

def shaRun {w : Nat} (p : ShaParam w) (h0 : Sha8 w) (m : Bytes) : Bytes :=
  let s := (blocksOf (2 * w) (shaPad (2 * w) m)).foldl (shaBlock p) h0
  [s.a, s.b, s.c, s.d, s.e, s.f, s.g, s.h].flatMap (fun x => beBytes (w / 8) x.toNat)

def ofWords8 {w : Nat} (l : List (BitVec w)) : Sha8 w :=
  ⟨l.getD 0 0, l.getD 1 0, l.getD 2 0, l.getD 3 0, l.getD 4 0, l.getD 5 0, l.getD 6 0, l.getD 7 0⟩

/-- The constants of the rounds of SHA-384, 64 bits each, the first in the highest bits. -/
def shaRounds : Nat :=
  0x428a2f98d728ae227137449123ef65cdb5c0fbcfec4d3b2fe9b5dba58189dbbc3956c25bf348b53859f111f1b605d019923f82a4af194f9bab1c5ed5da6d8118d807aa98a303024212835b0145706fbe243185be4ee4b28c550c7dc3d5ffb4e272be5d74f27b896f80deb1fe3b1696b19bdc06a725c71235c19bf174cf692694e49b69c19ef14ad2efbe4786384f25e30fc19dc68b8cd5b5240ca1cc77ac9c652de92c6f592b02754a7484aa6ea6e4835cb0a9dcbd41fbd476f988da831153b5983e5152ee66dfaba831c66d2db43210b00327c898fb213fbf597fc7beef0ee4c6e00bf33da88fc2d5a79147930aa72506ca6351e003826f142929670a0e6e7027b70a8546d22ffc2e1b21385c26c9264d2c6dfc5ac42aed53380d139d95b3df650a73548baf63de766a0abb3c77b2a881c2c92e47edaee692722c851482353ba2bfe8a14cf10364a81a664bbc423001c24b8b70d0f89791c76c51a30654be30d192e819d6ef5218d69906245565a910f40e35855771202a106aa07032bbd1b819a4c116b8d2d0c81e376c085141ab532748774cdf8eeb9934b0bcb5e19b48a8391c0cb3c5c95a634ed8aa4ae3418acb5b9cca4f7763e373682e6ff3d6b2b8a3748f82ee5defb2fc78a5636f43172f6084c87814a1f0ab728cc702081a6439ec90befffa23631e28a4506cebde82bde9bef9a3f7b2c67915c67178f2e372532bca273eceea26619cd186b8c721c0c207eada7dd6cde0eb1ef57d4f7fee6ed17806f067aa72176fba0a637dc5a2c898a6113f9804bef90dae1b710b35131c471b28db77f523047d8432caab7b40c724933c9ebe0a15c9bebc431d67c49c100d4c4cc5d4becb3e42b6597f299cfc657e2a5fcb6fab3ad6faec6c44198c4a475817

/-- The 80 round constants of SHA-384. -/
def sha512K : List (BitVec 64) := (List.range 80).map (fun i => BitVec.ofNat 64 (shaRounds / 2 ^ (64 * (79 - i))))

/-- The 64 round constants of SHA-256: the upper halves of those of SHA-384 (FIPS 180-4 takes both from the cube roots of the same primes). -/
def sha256K : List (BitVec 32) := (sha512K.take 64).map (fun k => BitVec.ofNat 32 (k.toNat / 2 ^ 32))

/-- SHA-256. -/
def sha256 (m : Bytes) : Bytes :=
  shaRun ⟨sha256K, (2, 13, 22), (6, 11, 25), (7, 18, 3), (17, 19, 10)⟩
    (ofWords8 [0x6a09e667, 0xbb67ae85, 0x3c6ef372, 0xa54ff53a, 0x510e527f, 0x9b05688c, 0x1f83d9ab, 0x5be0cd19]) m

/-- SHA-384. -/
def sha384 (m : Bytes) : Bytes :=
  (shaRun ⟨sha512K, (28, 34, 39), (14, 18, 41), (1, 8, 7), (19, 61, 6)⟩
    (ofWords8 [0xcbbb9d5dc1059ed8, 0x629a292a367cd507, 0x9159015a3070dd17, 0x152fecd8f70e5939,
      0x67332667ffc00b31, 0x8eb44a8768581511, 0xdb0c2e0d64f98fa7, 0x47b5481dbefa4fa4]) m).take 48

/-- HMAC over a hash with blocks of `n` bytes. -/
def hmac (hash : Bytes → Bytes) (n : Nat) (key m : Bytes) : Bytes :=
  let k := padTo n (if key.length > n then hash key else key)
  hash (k.map (· ^^^ 0x5C) ++ hash (k.map (· ^^^ 0x36) ++ m))

def hmacSha256 (key m : Bytes) : Bytes := hmac sha256 64 key m
def hmacSha384 (key m : Bytes) : Bytes := hmac sha384 128 key m

/-- An ASCII string as bytes. -/
def ascii (s : String) : Bytes := s.toList.map (fun c => BitVec.ofNat 8 c.toNat)

/-- kdf of R335. -/
def kdf (key : Bytes) (label : String) (ctx : Bytes) (n : Nat) : Bytes :=
  ((List.range (ceilDiv n 48)).flatMap
    (fun i => hmacSha384 key (beBytes 4 (i + 1) ++ ascii label ++ [0#8] ++ ctx ++ beBytes 4 (8 * n)))).take n

/-! ### AES -/

/-- Multiplication by x in the field of AES. -/
def xtime (b : Byte) : Byte := (b <<< 1) ^^^ (if b.toNat ≥ 128 then 0x1B else 0)

/-- Multiplication in the field of AES, over the bits of `b` from bit `n − 1` down. -/
def gmul (a b : Byte) : Nat → Byte
  | 0 => 0
  | n + 1 => xtime (gmul a b n) ^^^ (if b.toNat / 2 ^ (7 - n) % 2 = 1 then a else 0)

def gm (a b : Byte) : Byte := gmul a b 8

/-- The inverse of AES's field as the power 254. -/
def ginv (a : Byte) : Byte :=
  let a2 := gm a a
  let a3 := gm a2 a
  let a6 := gm a3 a3
  let a7 := gm a6 a
  let a14 := gm a7 a7
  let a15 := gm a14 a
  let a30 := gm a15 a15
  let a31 := gm a30 a
  let a62 := gm a31 a31
  let a63 := gm a62 a
  let a126 := gm a63 a63
  let a127 := gm a126 a
  gm a127 a127

def rol8 (b : Byte) (n : Nat) : Byte := (b <<< n) ||| (b >>> (8 - n))

/-- The S-box. -/
def sbox (a : Byte) : Byte :=
  let i := ginv a
  i ^^^ rol8 i 1 ^^^ rol8 i 2 ^^^ rol8 i 3 ^^^ rol8 i 4 ^^^ 0x63

/-- The inverse S-box. -/
def sboxInv (a : Byte) : Byte := ginv (rol8 a 1 ^^^ rol8 a 3 ^^^ rol8 a 6 ^^^ 0x05)

/-- The expanded key as words, newest first, extended by `n` words; `nk` words of key, `rc` the next round constant. -/
def aesExpand (nk : Nat) : Nat → Byte → List Bytes → List Bytes
  | 0, _, l => l
  | n + 1, rc, l =>
    let i := l.length
    let t := l.headD []
    let u := if i % nk = 0 then xorBytes ((t.drop 1 ++ t.take 1).map sbox) [rc, 0, 0, 0]
      else if nk > 6 && i % nk == 4 then t.map sbox else t
    aesExpand nk n (if i % nk = 0 then xtime rc else rc) (xorBytes (l.getD (nk - 1) []) u :: l)

/-- The round keys of a key of 16 or 32 bytes, first round first. -/
def aesKeys (key : Bytes) : List Bytes :=
  let nk := key.length / 4
  let ws := (aesExpand nk (4 * (nk + 7) - nk) 1 (blocksOf 4 key).reverse).reverse
  blocksOf 16 ws.flatten

def getB (l : Bytes) (n : Nat) : Byte := l.getD n 0

/-- ShiftRows by `k` columns per row. -/
def shiftRows (k : Nat) (s : Bytes) : Bytes :=
  (List.range 16).map (fun i => getB s ((i + 4 * k * (i % 4)) % 16))

/-- MixColumns with the given coefficients. -/
def mixCols (m : Byte × Byte × Byte × Byte) (s : Bytes) : Bytes :=
  (blocksOf 4 s).flatMap (fun c =>
    (List.range 4).map (fun r =>
      gm m.1 (getB c r) ^^^ gm m.2.1 (getB c ((r + 1) % 4)) ^^^ gm m.2.2.1 (getB c ((r + 2) % 4)) ^^^
        gm m.2.2.2 (getB c ((r + 3) % 4))))

/-- AES encryption of one block under round keys. -/
def aesEncKs (ks : List Bytes) (b : Bytes) : Bytes :=
  match ks with
  | [] => b
  | k0 :: r =>
    let s := r.dropLast.foldl (fun s k => xorBytes (mixCols (2, 3, 1, 1) (shiftRows 1 (s.map sbox))) k) (xorBytes b k0)
    xorBytes (shiftRows 1 (s.map sbox)) (r.getLastD [])

/-- AES decryption of one block under round keys. -/
def aesDecKs (ks : List Bytes) (b : Bytes) : Bytes :=
  match ks.reverse with
  | [] => b
  | k0 :: r =>
    let s := r.dropLast.foldl (fun s k => mixCols (14, 11, 13, 9) (xorBytes ((shiftRows 3 s).map sboxInv) k)) (xorBytes b k0)
    xorBytes ((shiftRows 3 s).map sboxInv) (r.getLastD [])

def aesEnc (key b : Bytes) : Bytes := aesEncKs (aesKeys key) b

/-! ### CMAC, SIV, GMAC, key wrap -/

/-- Doubling in the field of CMAC. -/
def dbl (b : Bytes) : Bytes :=
  let v := fromBe b
  beBytes 16 ((2 * v) % 2 ^ 128 ^^^ (if v ≥ 2 ^ 127 then 0x87 else 0))

/-- AES-CMAC. -/
def cmac (key m : Bytes) : Bytes :=
  let ks := aesKeys key
  let k1 := dbl (aesEncKs ks (List.replicate 16 0))
  let bl := blocksOf 16 m
  let full := decide (m.length % 16 = 0) && !m.isEmpty
  let last := bl.getLastD []
  let fin := if full then xorBytes last k1 else xorBytes (padTo 16 (last ++ [0x80])) (dbl k1)
  let init := if full then bl.dropLast else (if m.isEmpty then [] else bl.dropLast)
  aesEncKs ks (xorBytes (init.foldl (fun x b => aesEncKs ks (xorBytes x b)) (List.replicate 16 0)) fin)

/-- S2V of RFC 5297 over the associated strings and the plaintext. -/
def s2v (key : Bytes) (ads : List Bytes) (p : Bytes) : Bytes :=
  let d := ads.foldl (fun d a => xorBytes (dbl d) (cmac key a)) (cmac key (List.replicate 16 0))
  let t := if p.length ≥ 16 then p.take (p.length - 16) ++ xorBytes (p.drop (p.length - 16)) d
    else xorBytes (dbl d) (padTo 16 (p ++ [0x80]))
  cmac key t

/-- Counter mode from a 128-bit counter block. -/
def ctrMode (key iv p : Bytes) : Bytes :=
  let ks := aesKeys key
  let c0 := fromBe iv
  ((blocksOf 16 p).zipIdx).flatMap (fun bi => xorBytes bi.1 (aesEncKs ks (beBytes 16 ((c0 + bi.2) % 2 ^ 128))))

/-- The counter block of SIV: the synthetic IV with bits 31 and 63 cleared. -/
def sivCtr (v : Bytes) : Bytes := v.mapIdx (fun i b => if i = 8 ∨ i = 12 then b &&& 0x7F else b)

/-- AES-SIV sealing: the synthetic IV followed by the ciphertext. The first half of the key keys S2V, the second the counter. -/
def sivSeal (key : Bytes) (ads : List Bytes) (p : Bytes) : Bytes :=
  let h := key.length / 2
  let v := s2v (key.take h) ads p
  v ++ ctrMode (key.drop h) (sivCtr v) p

/-- AES-SIV opening. -/
def sivOpen (key : Bytes) (ads : List Bytes) (c : Bytes) : Option Bytes :=
  let h := key.length / 2
  let v := c.take 16
  let p := ctrMode (key.drop h) (sivCtr v) (c.drop 16)
  if decide (16 ≤ c.length) && s2v (key.take h) ads p == v then some p else none

/-- Multiplication in the field of GHASH, over the lowest `n` bits of `x`. -/
def ghMul (x : Nat) : Nat → Nat → Nat → Nat
  | 0, _, z => z
  | n + 1, v, z =>
    let z' := if x / 2 ^ n % 2 = 1 then z ^^^ v else z
    ghMul x n (if v % 2 = 1 then (v / 2) ^^^ (0xE1 * 2 ^ 120) else v / 2) z'

/-- GHASH. -/
def ghash (h : Nat) (bs : Bytes) : Nat :=
  (blocksOf 16 bs).foldl (fun y b => ghMul (y ^^^ fromBe (padTo 16 b)) 128 h 0) 0

/-- `bs` padded with zeros to whole 16-byte blocks. -/
def pad16 (bs : Bytes) : Bytes := padTo (16 * ceilDiv bs.length 16) bs

/-- AES-GMAC with an initialization vector that is not 12 bytes long. -/
def gmac (key iv m : Bytes) : Bytes :=
  let ks := aesKeys key
  let h := fromBe (aesEncKs ks (List.replicate 16 0))
  let j0 := ghash h (pad16 iv ++ beBytes 16 (8 * iv.length))
  let s := ghash h (pad16 m ++ beBytes 8 (8 * m.length) ++ beBytes 8 0)
  beBytes 16 (s ^^^ fromBe (aesEncKs ks (beBytes 16 j0)))

/-- One step of RFC 3394's unwrapping: the counter `t`, the index of the block, the register A and the blocks. -/
def unwrapStep (ks : List Bytes) (s : Bytes × List Bytes) (t : Nat × Nat) : Bytes × List Bytes :=
  let b := aesDecKs ks (xorBytes s.1 (beBytes 8 t.1) ++ s.2.getD t.2 [])
  (b.take 8, s.2.set t.2 (b.drop 8))

/-- RFC 3394 key unwrap. -/
def keyUnwrap (kek w : Bytes) : Option Bytes :=
  let bl := blocksOf 8 w
  let r := bl.drop 1
  let n := r.length
  let ks := aesKeys kek
  let steps := ((List.range (6 * n)).reverse).map (fun t => (t + 1, t % n))
  let out := steps.foldl (unwrapStep ks) (bl.headD [], r)
  if decide (2 ≤ n) && decide (w.length % 8 = 0) && out.1 == List.replicate 8 0xA6 then some out.2.flatten else none

/-! ### P-384 -/

def p384P : Nat := 2 ^ 384 - 2 ^ 128 - 2 ^ 96 + 2 ^ 32 - 1
def p384N : Nat := 0xffffffffffffffffffffffffffffffffffffffffffffffffc7634d81f4372ddf581a0db248b0a77aecec196accc52973
def p384B : Nat := 0xb3312fa7e23ee7e4988e056be3f82d19181d9c6efe8141120314088f5013875ac656398d8a2ed19d2a85c8edd3ec2aef
def p384G : Nat × Nat :=
  (0xaa87ca22be8b05378eb1c71ef320ad746e1d3b628ba79b9859f741e082542a385502f25dbf55296c3a545e3872760ab7,
   0x3617de4a96262c6f5d9e98bf9292dc29f8f41dbd289a147ce9da3113b5f0b8c00a60b1ce1d7e819d7a431d7c90ea0e5f)

/-- `b ^ e` modulo `m` over the lowest `n` bits of `e`. -/
def powMod (m : Nat) : Nat → Nat → Nat → Nat → Nat
  | 0, _, _, acc => acc
  | n + 1, b, e, acc => powMod m n (b * b % m) (e / 2) (if e % 2 = 1 then acc * b % m else acc)

/-- The inverse modulo a prime. -/
def invMod (m a : Nat) : Nat := powMod m 384 (a % m) (m - 2) 1

/-- Subtraction modulo the field prime. -/
def fsub (a b : Nat) : Nat := (a + p384P - b % p384P) % p384P

/-- A point in Jacobian coordinates; `z = 0` is the point at infinity. -/
structure Jac where
  x : Nat
  y : Nat
  z : Nat
  deriving DecidableEq, Repr

def jdbl (a : Jac) : Jac :=
  let p := p384P
  let d := a.z * a.z % p
  let g := a.y * a.y % p
  let be := a.x * g % p
  let al := 3 * (fsub a.x d) * ((a.x + d) % p) % p
  let x3 := fsub (al * al % p) (8 * be % p)
  let z3 := 2 * a.y * a.z % p
  ⟨x3, fsub (al * (fsub (4 * be % p) x3) % p) (8 * (g * g % p) % p), z3⟩

def jadd (a b : Jac) : Jac :=
  let p := p384P
  if a.z = 0 then b
  else if b.z = 0 then a
  else
    let z1 := a.z * a.z % p
    let z2 := b.z * b.z % p
    let u1 := a.x * z2 % p
    let u2 := b.x * z1 % p
    let s1 := a.y * z2 % p * b.z % p
    let s2 := b.y * z1 % p * a.z % p
    if u1 = u2 then (if s1 = s2 then jdbl a else ⟨1, 1, 0⟩)
    else
      let h := fsub u2 u1
      let r := fsub s2 s1
      let h2 := h * h % p
      let h3 := h * h2 % p
      let v := u1 * h2 % p
      let x3 := fsub (fsub (r * r % p) h3) (2 * v % p)
      ⟨x3, fsub (r * (fsub v x3) % p) (s1 * h3 % p), h * a.z % p * b.z % p⟩

/-- `k` times the point `a`, over the lowest `n` bits of `k`. -/
def jmul : Nat → Nat → Jac → Jac → Jac
  | 0, _, _, acc => acc
  | n + 1, k, a, acc => jmul n (k / 2) (jdbl a) (if k % 2 = 1 then jadd acc a else acc)

/-- A point in affine coordinates. -/
def jaff (a : Jac) : Option (Nat × Nat) :=
  if a.z = 0 then none
  else
    let zi := invMod p384P a.z
    let z2 := zi * zi % p384P
    some (a.x * z2 % p384P, a.y * z2 % p384P * zi % p384P)

/-- A multiple of a point. -/
def pmul (k : Nat) (q : Nat × Nat) : Jac := jmul 384 k ⟨q.1, q.2, 1⟩ ⟨1, 1, 0⟩

/-- Whether a point lies on P-384. -/
def onCurve (q : Nat × Nat) : Bool :=
  decide (q.1 < p384P) && decide (q.2 < p384P) &&
    q.2 * q.2 % p384P == (q.1 * q.1 % p384P * q.1 + p384B + (p384P - 3) * q.1) % p384P

/-- A public key as carried: x then y, big-endian. -/
def pubOf (bs : Bytes) : Nat × Nat := (fromBe (slice bs 0 48), fromBe (slice bs 48 48))
def pubBytes (q : Nat × Nat) : Bytes := beBytes 48 q.1 ++ beBytes 48 q.2

/-- The public key of a private scalar. -/
def pubKey (d : Nat) : Bytes := match jaff (pmul d p384G) with | some q => pubBytes q | none => []

/-- p384_key of R335. -/
def p384Key (v : Bytes) : Nat := fromBe v % (p384N - 1) + 1

/-- ECDSA P-384 verification of a digest. -/
def ecdsaVerify (pub : Bytes) (digest : Bytes) (r s : Nat) : Bool :=
  let q := pubOf pub
  if r = 0 ∨ s = 0 ∨ r ≥ p384N ∨ s ≥ p384N ∨ onCurve q = false then false
  else
    let w := invMod p384N s
    let z := fromBe digest
    match jaff (jadd (pmul (z * w % p384N) p384G) (pmul (r * w % p384N) q)) with
    | some x => x.1 % p384N == r
    | none => false

/-- ECDSA P-384 signature of a digest with the nonce `k`. -/
def ecdsaSign (d : Nat) (digest : Bytes) (k : Nat) : Nat × Nat :=
  match jaff (pmul k p384G) with
  | some x =>
    let r := x.1 % p384N
    (r, invMod p384N k * (fromBe digest + r * d) % p384N)
  | none => (0, 0)

/-- The x-coordinate of ECDH P-384. -/
def ecdh (d : Nat) (pub : Bytes) : Bytes := match jaff (pmul d (pubOf pub)) with | some q => beBytes 48 q.1 | none => []

/-- A signature block of R318: ALG, 0, KEY_ID, r, s. -/
def sigBlock (keyId : Nat) (rs : Nat × Nat) : Bytes := leBytes 2 1 ++ leBytes 2 0 ++ leBytes 4 keyId ++ beBytes 48 rs.1 ++ beBytes 48 rs.2

/-- Whether a signature block of R318 is well formed and verifies the digest. -/
def sigOk (pub digest blk : Bytes) : Bool :=
  fromLe (slice blk 0 2) == 1 && fromLe (slice blk 2 2) == 0 &&
    ecdsaVerify pub digest (fromBe (slice blk 8 48)) (fromBe (slice blk 56 48))

end Sys2Proof.Machine
end

