-- ==== Sys2Proof/Machine/PmuOps.lean ====
section
/-! DEFINITION. The performance counters of a channel: general counters, pipeline slots, samples and bandwidth windows (R406 to
R413). -/
namespace Sys2Proof.Machine

namespace Channel

def setPmu (c : Channel) (p : PmuBlk) : Channel := { c with pmu := p }

/-- PMCk as one number (R406). -/
def pmc (c : Channel) (k : Nat) : Nat := c.cur (F.PMU_PMC_LO_CNT k) + 2 ^ 32 * c.cur (F.PMU_PMC_HI_CNT k)
def putPmc (c : Channel) (k v : Nat) : Channel := (c.put (F.PMU_PMC_LO_CNT k) v).put (F.PMU_PMC_HI_CNT k) (v / 2 ^ 32)

/-- Whether counter `k` counts event `ev` on a port (R406, R407). -/
def pmcCounts (c : Channel) (ev : Nat) (port : Option PortIx) (k : Nat) : Bool :=
  c.flag (F.PMU_PMC_CFG_EN k) && c.fld (F.PMU_PMC_CFG_EVSEL k) == ev &&
  match port with
  | none => true
  | some p => c.fld (F.PMU_PMC_CFG_PFILT k) == 0 || c.fld (F.PMU_PMC_CFG_PFILT k) == p.val + 1

/-- `n` occurrences of an event at counter `k` (R406, R412): a counter that wraps goes on from 0 and sets OVF; a counter that
samples waits for its sample. -/
def pmcAdd (n k : Nat) (c : Channel) : Channel :=
  let v := c.pmc k + n
  let c1 := c.putPmc k (v % 2 ^ 48)
  if v < 2 ^ 48 then c1
  else
    let c2 := (c1.evtMask .pmu PMU_OVF (2 ^ k)).evt F.PMU_EVT_OVF
    if c2.flag (F.PMU_PMC_CFG_SAMP k) && c2.flag F.PMU_CTL_SAMP_EN then
      -- which of the tick's four slots wraps is not specified
      let (j, c3) := c2.free 2
      c3.setPmu { c3.pmu with wraps := c3.pmu.wraps ++ [(k, 4 * c3.jour.tick + j)] }
    else c2

/-- `n` occurrences of event `ev` (R406, R407). -/
def pmuBy (c : Channel) (ev : Nat) (port : Option PortIx) (n : Nat) : Channel :=
  if n = 0 || c.flag F.PMU_CTL_FREEZE then c
  else ((upTo 16).filter (c.pmcCounts ev port)).foldl (fun c k => pmcAdd n k c) c

/-- One occurrence of event `ev` on a port. -/
def pmuEvt (c : Channel) (ev : Nat) (p : PortIx) : Channel := c.pmuBy ev (some p) 1

/-! ### Pipeline slots (R410, R411) -/

/-- The slots that a piece of work takes, which the spec does not state: a free value. -/
def workSlots (c : Channel) : Nat × Channel :=
  let (w, c1) := c.free 16
  (w, c1.setPmu { c1.pmu with work := c1.pmu.work + w })

/-- The slots of work `w` resolved: as RETIRED, or as WASTED. Slots that were not yet issued are no longer needed. -/
def resolve (c : Channel) (waste : Bool) (w : Nat) : Channel :=
  let p := c.pmu
  let u := min w p.work
  let n := min (w - u) p.infl
  let p1 := { p with work := p.work - u, infl := p.infl - n }
  if waste then (c.setPmu { p1 with was := p1.was + n }).pmuBy 0x03 none n
  else (c.setPmu { p1 with ret := p1.ret + n }).pmuBy 0x02 none n

/-- The four slots of one tick: work issues while there is work and the slot is not BACK_STARVED, which the spec leaves to the
device; without work every slot is FRONT_STARVED. -/
def pmuTick (c : Channel) : Channel :=
  if c.pmu.work = 0 then
    ((c.setPmu { c.pmu with cyc := c.pmu.cyc + 4, fro := c.pmu.fro + 4 }).pmuBy 0x01 none 4).pmuBy 0x04 none 4
  else
    let (r, c1) := c.free 8
    let b := r % 5
    let i := min c1.pmu.work (4 - b)
    let p := c1.pmu
    let c2 := c1.setPmu { p with cyc := p.cyc + 4, work := p.work - i, infl := p.infl + i, bak := p.bak + b, fro := p.fro + (4 - b - i) }
    ((c2.pmuBy 0x01 none 4).pmuBy 0x04 none (4 - b - i)).pmuBy 0x05 none b

/-- A 48-bit value put into a LO and a HI register. -/
def put48 (c : Channel) (lo hi : Nat) (v : Nat) : Channel :=
  (c.setWord .pmu lo (BitVec.ofNat 32 v)).setWord .pmu hi (BitVec.ofNat 32 (v / 2 ^ 32 % 65536))

/-- TD_CTL.SNAP (R411). -/
def tdSnap (c : Channel) : Channel :=
  let p := c.pmu
  let td := p.ret + p.was + p.fro + p.bak
  let vs := [td, p.ret, p.was, p.fro, p.bak]
  let c1 := vs.zipIdx.foldl (fun c vi => c.put48 (PMU_S_LO vi.2) (PMU_S_HI vi.2) (vi.1 % 2 ^ 48)) c
  ((c1.setWord .pmu PMU_S_INFL (BitVec.ofNat 32 p.infl)).setWord .pmu (PMU_S_TICK 0) (BitVec.ofNat 32 c.jour.tick)).setWord .pmu
    (PMU_S_TICK 1) (BitVec.ofNat 32 (c.jour.tick / 2 ^ 32))

/-- The capture slot of a wrap in slot `s` (R412). -/
def capSlot (s : Nat) : Nat := s + (8 - s % 8) % 8

/-- A capture slot reached (R412, R413): of the counters that wrapped before it the lowest gets the sample, every other one is missed. `smp`
is what the pipeline held in the slot. -/
def pmuCapture (c : Channel) (smp : PmuSample) : Channel :=
  let e := c.pmu.wraps.foldl (fun a w => min a (capSlot w.2)) (4 * c.jour.tick + 8)
  match c.pmu.wraps.filter (fun w => capSlot w.2 == e) with
  | [] => c
  | w :: ws =>
   if c.jour.tick < e / 4 then c
   else
    let k := ws.foldl (fun a x => if x.1 < a.1 then x else a) w
    let s : PmuSample := { smp with tick := e / 4, seq := c.pmu.seq % 2 ^ 32, ctr := k.1, skid := e - k.2 }
    let c1 := c.setPmu { c.pmu with wraps := c.pmu.wraps.filter (fun x => capSlot x.2 != e), samples := (s :: c.pmu.samples).take 256, seq := c.pmu.seq + 1 }
    let c2 := (c1.put F.PMU_SAMP_STAT_WPTR ((c.pmu.seq + 1) % 256)).evt F.PMU_EVT_SAMP
    if ws.isEmpty then c2 else (c2.bumpBy F.PMU_SAMP_STAT_MISSED ws.length).evt F.PMU_EVT_MISSED

/-! ### Bandwidth windows (R409) -/

/-- The window period T in ticks. -/
def bwT (c : Channel) : Nat := c.fld F.PMU_BW_CFG_WIN * 200

def bwAdd (c : Channel) (p : PortIx) (f : BwRun → BwRun) : Channel :=
  if c.jour.tick < c.pmu.bwFrom then c else c.setPmu { c.pmu with bw := c.pmu.bw.set p (f c.pmu.bw[p]) }

/-- A frame received on a port, of `n` bytes with its FCS. -/
def bwRx (c : Channel) (p : PortIx) (n : Nat) : Channel := c.bwAdd p (fun b => { b with rxb := b.rxb + n, rxf := b.rxf + 1 })
/-- A frame committed on a port, of `n` bytes with its FCS. -/
def bwTx (c : Channel) (p : PortIx) (n : Nat) : Channel := c.bwAdd p (fun b => { b with txb := b.txb + n, txf := b.txf + 1 })

/-- A window ends at the start of this tick for one port. -/
def bwLatch (c : Channel) (p : PortIx) : Channel :=
  let b := c.pmu.bw[p]
  let q := p.val
  let c1 := (c.put48 (PMU_P_TXB_LO q) (PMU_P_TXB_HI q) b.txb).put48 (PMU_P_RXB_LO q) (PMU_P_RXB_HI q) b.rxb
  let c2 := (c1.setWord .pmu (PMU_P_TXF q) (BitVec.ofNat 32 b.txf)).setWord .pmu (PMU_P_RXF q) (BitVec.ofNat 32 b.rxf)
  let pk (lo hi : Nat) (v : Nat) (c : Channel) : Channel :=
    let old := if b.clr then 0 else (c.word .pmu lo).toNat + 2 ^ 32 * (c.word .pmu hi).toNat
    c.put48 lo hi (max old v)
  let c3 := pk (PMU_P_PKRX_LO q) (PMU_P_PKRX_HI q) b.rxb (pk (PMU_P_PKTX_LO q) (PMU_P_PKTX_HI q) b.txb c2)
  (c3.setWord .pmu (PMU_P_WSEQ q) (c3.word .pmu (PMU_P_WSEQ q) + 1)).setPmu { c3.pmu with bw := c3.pmu.bw.set p ⟨0, 0, 0, 0, false⟩ }

/-- The end of a bandwidth window, in the tick that begins the next one. -/
def bwWindowEnd (c : Channel) : Channel :=
  let t := c.bwT
  if t = 0 then c
  else if c.jour.tick % t ≠ 0 ∨ c.jour.tick < c.pmu.bwFrom + t then c
  else (c.bwLatch 0).bwLatch 1

/-- A write of WIN: the running window is discarded, the peaks are cleared, counting starts at the next multiple of T. -/
def bwRestart (c : Channel) : Channel :=
  let t := c.bwT
  let c1 := [0, 1].foldl (fun c q => (c.put48 (PMU_P_PKTX_LO q) (PMU_P_PKTX_HI q) 0).put48 (PMU_P_PKRX_LO q) (PMU_P_PKRX_HI q) 0) c
  c1.setPmu { c1.pmu with bwFrom := if t = 0 then c.jour.tick else (c.jour.tick / t + 1) * t, bw := Vector.replicate 2 ⟨0, 0, 0, 0, false⟩ }

/-- PK_CLR of a port: its peaks are cleared at the next window end. -/
def pkClr (c : Channel) (p : PortIx) : Channel := c.setPmu { c.pmu with bw := c.pmu.bw.set p { c.pmu.bw[p] with clr := true } }

end Channel

/-- The bytes of a PMU sample entry (R413). -/
def PmuSample.bytes (s : PmuSample) : Bytes :=
  leBytes 8 s.tick ++ leBytes 4 s.seq ++ leBytes 1 s.ctr ++ leBytes 1 s.skid ++ leBytes 1 s.cls ++ leBytes 1 s.stage ++
    leBytes 1 s.port ++ leBytes 1 s.kind ++ leBytes 1 (b2n (s.seq / 256 % 2 == 0)) ++ leBytes 1 0 ++ leBytes 4 s.client ++ leBytes 4 s.group ++
    leBytes 4 0

end Sys2Proof.Machine
end

