-- ==== Sys2Proof/Machine/SchedOps.lean ====
section
/-! DEFINITION. The SCHED block: policers, egress queues, shapers, gate lists and sampling rings (R234 to R252). -/
namespace Sys2Proof.Machine

/-! ### Policers -/

/-- refill of R235. -/
def refill (b burst rate dt : Nat) : Nat :=
  if dt ≥ 2 ^ 32 then burst * 2 ^ 32 else min (burst * 2 ^ 32) (b + dt * rate)

/-- How a request is coloured (R235). -/
inductive Colour
  | green
  | yellow
  | red
  deriving DecidableEq, Repr

/-- police of R235 at channel tick `now`, for a request of `len` bytes. -/
def police (e : PolEntry) (len now : Nat) : Colour × PolEntry :=
  if !e.valid then (.green, { e with nGreen := wrapInc 32 e.nGreen })
  else
    let dt := now - e.last
    let tp := refill e.tp e.pbs e.pir dt
    let tc := refill e.tc e.cbs e.cir dt
    let c := (if e.unit then 1 else len) * 2 ^ 32
    if tp < c then (.red, { e with tp := tp, tc := tc, last := now, nRed := wrapInc 32 e.nRed })
    else if tc < c then (.yellow, { e with tp := tp - c, tc := tc, last := now, nYellow := wrapInc 32 e.nYellow })
    else (.green, { e with tp := tp - c, tc := tc - c, last := now, nGreen := wrapInc 32 e.nGreen })

/-- The bytes of a policer entry (R234). -/
def PolEntry.bytes (e : PolEntry) : Bytes :=
  leBytes 8 e.cir ++ leBytes 8 e.pir ++ leBytes 4 e.cbs ++ leBytes 4 e.pbs ++ leBytes 8 e.tc ++ leBytes 8 e.tp ++ leBytes 8 e.last ++
    leBytes 4 e.nGreen ++ leBytes 4 e.nYellow ++ leBytes 4 e.nRed ++ leBytes 1 (b2n e.valid + 2 * b2n e.unit) ++ leBytes 3 0

/-- The bytes of a sampling ring entry (R249). -/
def QSample.bytes (s : QSample) : Bytes :=
  leBytes 8 s.tick ++ leBytes 4 s.seq ++ leBytes 2 s.depthF ++ leBytes 2 s.flags ++ leBytes 4 s.depthB ++ leBytes 4 s.hol ++
    leBytes 4 s.commits ++ leBytes 4 s.drops

/-- A frame's length from the destination address to the FCS. -/
def QFrame.len (f : QFrame) : Nat := f.bytes.length + 4

/-! ### Gate lists -/

/-- The entry of a list that holds at `ns` nanoseconds of its cycle: its index and the end of the entry. -/
def gateFind : List (Nat × Nat) → Nat → Nat → Nat → Nat × Nat
  | [], i, s, _ => (i - 1, s)
  | [e], i, s, _ => (i, s + e.2)
  | e :: r, i, s, ns => if ns < s + e.2 then (i, s + e.2) else gateFind r (i + 1) (s + e.2) ns

/-- Whether a mask opens queue `q`. -/
def maskOpen (m q : Nat) : Bool := m / 2 ^ q % 2 == 1

/-- The end, in ns of the cycle, of the open span of `q` that holds in entry `i` ending at `e`; none for an endless span. -/
def spanEnd (es : List (Nat × Nat)) (q i e : Nat) : Option Nat :=
  let run := (es.drop (i + 1) ++ es.take (i + 1)).takeWhile (fun x => maskOpen x.1 q)
  if run.length = es.length then none else some (e + (run.map Prod.snd).sum)

/-- W_max of R246 in ns; none for an endless span. -/
def wMax (es : List (Nat × Nat)) (q : Nat) : Option Nat :=
  if es.all (fun x => maskOpen x.1 q) then none
  else some ((es ++ es).foldl (fun (a : Nat × Nat) x =>
    let run := if maskOpen x.1 q then a.1 + x.2 else 0
    (run, max a.2 run)) (0, 0)).2

namespace Channel

def setSched (c : Channel) (s : SchedBlk) : Channel := { c with sched := s }
def sp (c : Channel) (p : PortIx) : SchedPort := c.sched.ports[p]
def setSp (c : Channel) (p : PortIx) (x : SchedPort) : Channel := c.setSched { c.sched with ports := c.sched.ports.set p x }
def eq (c : Channel) (p : PortIx) (q : Nat) : EQueue := smGet EQueue.empty (c.sp p).queues q
def putEq (c : Channel) (p : PortIx) (q : Nat) (e : EQueue) : Channel :=
  c.setSp p { c.sp p with queues := smPut EQueue.empty (c.sp p).queues q e }

def polEnt (c : Channel) (i : Nat) : PolEntry := smGet PolEntry.zero c.sched.pol i
def putPol (c : Channel) (i : Nat) (e : PolEntry) : Channel := c.setSched { c.sched with pol := smPut PolEntry.zero c.sched.pol i e }

/-- The colour of a request of a client group (R201, R235). -/
def policeReq (c : Channel) (group len : Nat) : Colour × Channel :=
  let r := police (c.polEnt group) len c.jour.tick
  (r.1, c.putPol group r.2)

/-- POL_CMD.GO (R236), and whether the write was accepted. -/
def polCmd (c : Channel) : Bool × Channel :=
  let rate (lo hi : Nat) : Nat := (c.word .sched lo).toNat + 2 ^ 32 * (c.word .sched hi).toNat
  let cir := rate SCHED_POL_CIR_LO SCHED_POL_CIR_HI
  let pir := rate SCHED_POL_PIR_LO SCHED_POL_PIR_HI
  let cbs := c.cur F.SCHED_POL_CBS_BURST
  let pbs := c.cur F.SCHED_POL_PBS_BURST
  if pir < cir ∨ pbs < cbs ∨ cir ≥ 2 ^ 40 ∨ pir ≥ 2 ^ 40 then
    (false, (c.put F.SCHED_POL_CMD_ERR 1).evt F.SCHED_EVT_POL_ERR)
  else
    let i := c.cur F.SCHED_POL_IDX_INDEX
    let e := c.polEnt i
    let v := c.cur F.SCHED_POL_CMD_VALID == 1
    let now := c.jour.tick
    let e1 := { e with cir := cir, pir := pir, cbs := cbs, pbs := pbs, valid := v, unit := c.cur F.SCHED_POL_CMD_UNIT == 1 }
    let e2 :=
      if v && !e.valid then { e1 with tc := cbs * 2 ^ 32, tp := pbs * 2 ^ 32, last := now }
      else
        { e1 with
          tc := min (cbs * 2 ^ 32) (refill e.tc e.cbs e.cir (now - e.last))
          tp := min (pbs * 2 ^ 32) (refill e.tp e.pbs e.pir (now - e.last))
          last := now }
    (true, c.putPol i e2)

/-! ### Queues and shapers -/

def qEn (c : Channel) (p : PortIx) (q : Nat) : Bool := c.flag (F.SCHED_Q_CFG_EN p.val q)
def qPrio (c : Channel) (p : PortIx) (q : Nat) : Nat := c.fld (F.SCHED_Q_CFG_PRIO p.val q)
def qRate (c : Channel) (p : PortIx) (q : Nat) : Nat :=
  c.fld (F.SCHED_Q_SRATE_LO_RATE_LO p.val q) + 2 ^ 32 * c.fld (F.SCHED_Q_SRATE_HI_RATE_HI p.val q)
def qBurst (c : Channel) (p : PortIx) (q : Nat) : Nat := c.fld (F.SCHED_Q_SBURST_BURST p.val q)

/-- The shaper bucket in this tick (R241): what refill gives tick by tick since `shAt`. -/
def shNow (c : Channel) (p : PortIx) (q : Nat) : Int :=
  let r := c.qRate p q
  if r = 0 then 0
  else
    let e := c.eq p q
    min ((c.qBurst p q : Int) * 2 ^ 32) (e.sh + ((c.jour.tick - e.shAt : Nat) : Int) * r)

/-- A register's word that the next tick brings into use. -/
def nextWord (c : Channel) (b : KB) (off : Nat) : Word := smGet (smGet (kbRst b off) (c.rf b).use off) (c.rf b).next off

/-- The bucket of a queue brought to this tick, before the rates that a commit copies take effect (R242). -/
def settleQ (p : PortIx) (c : Channel) (q : Nat) : Channel :=
  let new := getField (c.nextWord .sched (SCHED_Q_SRATE_LO p.val q)) 0 32 + 2 ^ 32 * getField (c.nextWord .sched (SCHED_Q_SRATE_HI p.val q)) 0 8
  if c.qRate p q = 0 ∧ new = 0 then c
  else c.putEq p q { c.eq p q with sh := c.shNow p q, shAt := c.jour.tick }

/-- Every shaper full (R250): the state with which the channel's queues start. -/
def fillQ (p : PortIx) (c : Channel) (q : Nat) : Channel :=
  if c.qRate p q = 0 then c
  else c.putEq p q { c.eq p q with sh := (c.qBurst p q : Int) * 2 ^ 32, shAt := c.jour.tick }

/-- A frame dropped or flushed after its build (R225): counted and its slots WASTED. A software frame took none. -/
def wasted (p : PortIx) (c : Channel) (f : QFrame) : Channel :=
  if f.host then c else (c.pmuEvt 0x18 p).resolve true f.slots

/-! ### Gates -/

/-- Entry `n` of a gate list bank: its mask of 64 queues and its interval. -/
def gateEnt (c : Channel) (p : PortIx) (bank n : Nat) : Nat × Nat :=
  ((c.word .sched (SCHED_GCL_MASK_LO p.val bank n)).toNat + 2 ^ 32 * (c.word .sched (SCHED_GCL_MASK_HI p.val bank n)).toNat,
   c.cur (F.SCHED_GCL_INT_INTERVAL p.val bank n))

def gateList (c : Channel) (p : PortIx) (bank len : Nat) : List (Nat × Nat) := (upTo len).map (c.gateEnt p bank)

def opBank (c : Channel) (p : PortIx) : Nat := c.cur (F.SCHED_P_GSTAT_BANK p.val)
def adminBank (c : Channel) (p : PortIx) : Nat := 1 - c.opBank p
def opList (c : Channel) (p : PortIx) : List (Nat × Nat) := c.gateList p (c.opBank p) (c.cur (F.SCHED_P_GSTAT_O_LEN p.val))
def adminLen (c : Channel) (p : PortIx) : Nat := c.cur (F.SCHED_P_GCMD_A_LEN p.val)
def adminList (c : Channel) (p : PortIx) : List (Nat × Nat) := c.gateList p (c.adminBank p) (c.adminLen p)
def gtWords (c : Channel) (b : KB) (f : Nat → Nat) : Gt := ofWords ((upTo 4).map (fun k => c.word b (f k)))
def putGt (c : Channel) (b : KB) (f : Nat → Nat) (t : Gt) : Channel :=
  (upTo 4).foldl (fun c k => c.setWord b (f k) (wordOf t k)) c

/-- A counter value in 2^-96 s as a list time in units of 2^-96/10^9 s, of which 2^96 make a nanosecond (R244). -/
def listTime (c : Channel) (p : PortIx) (t : Int) : Int := t * 10 ^ 9 + c.fld (F.SCHED_P_GCFG_GLEAD p.val) * 2 ^ 96
/-- A GT128 time in those units. -/
def listGt (t : Gt) : Int := t * 2 ^ 32 * 10 ^ 9

def gateEn (c : Channel) (p : PortIx) : Bool := c.flag (F.SCHED_P_GCFG_GATE_EN p.val)
def operValid (c : Channel) (p : PortIx) : Bool := c.cur (F.SCHED_P_GSTAT_OPER_VALID p.val) == 1
/-- Whether the operating list drives the gates (R244). -/
def gated (c : Channel) (p : PortIx) : Bool := c.gateEn p && c.operValid p

/-- The start of the cycle that holds list time `x`, and the nanoseconds into it, for a list with this base and cycle. -/
def cycleAt (base : Gt) (cycle : Nat) (x : Int) : Int × Nat :=
  let b := listGt base
  let m := (x - b) % ((cycle : Int) * 2 ^ 96)
  (x - m, (Int.fdiv m (2 ^ 96)).toNat)

/-- The operating entry that governs the end of this tick: a boundary in a tick sets the gates of that tick (R29, R248). -/
def entryNow (c : Channel) (p : PortIx) : Nat :=
  let x := c.listTime p (c.ctrAfter 1) - 1
  (gateFind (c.opList p) 0 0 (cycleAt (c.gtWords .sched (SCHED_P_O_BASE p.val)) (c.cur (F.SCHED_P_O_CYCLE_CYCLE p.val)) x).2).1

/-- Whether the gate of a queue is open in this tick. -/
def gateOpen (c : Channel) (p : PortIx) (q : Nat) : Bool :=
  !c.gated p || maskOpen (c.gateEnt p (c.opBank p) (c.entryNow p)).1 q

/-- The end of the open span of a queue in list time, none for an endless one (R244, R245). -/
def spanEndNow (c : Channel) (p : PortIx) (q : Nat) : Option Int :=
  let old : Option Int :=
    if !c.gated p then none
    else
      let es := c.opList p
      let x := c.listTime p (c.ctrAfter 1) - 1
      let cy := cycleAt (c.gtWords .sched (SCHED_P_O_BASE p.val)) (c.cur (F.SCHED_P_O_CYCLE_CYCLE p.val)) x
      let e := gateFind es 0 0 cy.2
      (spanEnd es q e.1 e.2).map (fun n => cy.1 + (n : Int) * 2 ^ 96)
  match (c.sp p).swap with
  | none => old
  | some s =>
    if !c.gateEn p then old
    else
      let before := match old with | some o => decide (o < s.at') | none => false
      if before then old
      else
        let es := c.gateList p (c.adminBank p) s.len
        let e0 := es.headD (0, 0)
        if maskOpen e0.1 q then (spanEnd es q 0 e0.2).map (fun n => s.at' + (n : Int) * 2 ^ 96) else some s.at'

/-- Byte time in ps of the port's resolved mode (R239). -/
def byteTime (c : Channel) (p : PortIx) : Nat :=
  match c.cur (F.PORT_P_STAT_RMODE p.val) with
  | 0 | 1 => 80
  | 2 | 3 => 160
  | 4 | 5 => 320
  | _ => 800

/-- tx(L) of R239 in ps. -/
def txPs (c : Channel) (p : PortIx) (len : Nat) : Nat := (len + 20) * c.byteTime p

/-- gate_fits of R239 (R245). -/
def gateFits (c : Channel) (p : PortIx) (q len : Nat) : Bool :=
  c.gateOpen p q &&
  match c.spanEndNow p q with
  | none => true
  | some e => decide ((c.txPs p len : Int) * 2 ^ 96 ≤ 1000 * (e - c.listTime p c.dpll.ctr))

/-- Whether a frame is longer than the longest open span of its queue (R246). -/
def gateOversize (c : Channel) (p : PortIx) (q len : Nat) : Bool :=
  c.gated p &&
  match wMax (c.opList p) q with
  | none => false
  | some w => decide (w * 1000 < c.txPs p len)

/-- Frames at the head of a queue that R246 drops, `fuel` of them at most. -/
def headDrop (p : PortIx) (q : Nat) : Nat → Channel → Channel
  | 0, c => c
  | fuel + 1, c =>
    let e := c.eq p q
    match e.frames with
    | [] => c
    | f :: r =>
      if c.gateOversize p q f.len then
        let c1 := c.putEq p q { e with frames := r, hol := c.jour.tick, drops := wrapInc 32 e.drops }
        headDrop p q fuel (wasted p ((c1.bump (F.SCHED_Q_CNT0_OVERSIZE_FOR_GATE p.val q)).evt F.SCHED_EVT_OVSZ) f)
      else c

def headCheck (c : Channel) (p : PortIx) (q : Nat) : Channel := headDrop p q (c.eq p q).frames.length c

/-- A frame enters its queue, which wakes, or is dropped at the tail (R237, R239, R240). A frame above the port's MTU enters none (R174). -/
def enqueue (c : Channel) (p : PortIx) (q : Nat) (f : QFrame) : Channel :=
  let e := c.eq p q
  if decide (c.fld (F.PORT_P_CFG_MAXF p.val) < f.len) then wasted p (c.putEq p q { e with drops := wrapInc 32 e.drops }) f
  else if !c.qEn p q || decide (c.fld (F.SCHED_Q_CFG_QLIM p.val q) ≤ e.frames.length) then
    let c1 := c.putEq p q { e with drops := wrapInc 32 e.drops }
    wasted p ((c1.bump (F.SCHED_Q_CNT0_DROP_FULL p.val q)).evt F.SCHED_EVT_FULL) f
  else if e.frames.isEmpty then
    let v := (c.sp p).vt.toList.getD (c.qPrio p q) 0
    (c.putEq p q { e with frames := [f], tag := v, hol := c.jour.tick }).headCheck p q
  else c.putEq p q { e with frames := e.frames ++ [f] }

/-- A queue flushed (R237); `noclaim` for the loss of the drive right (R228). -/
def flushQ (noclaim : Bool) (p : PortIx) (c : Channel) (q : Nat) : Channel :=
  let e := c.eq p q
  let n := e.frames.length
  if n = 0 then c
  else
    let c1 := (c.putEq p q { e with frames := [], drops := (e.drops + n) % 2 ^ 32 }).bumpBy (F.SCHED_Q_CNT1_FLUSH p.val q) n
    let c2 := e.frames.foldl (wasted p) (c1.evt F.SCHED_EVT_FLUSH)
    if noclaim then c2.bumpBy F.SEAL_CNT2_NOCLAIM n else c2

/-- Every queue of a port flushed. -/
def flushPort (c : Channel) (noclaim : Bool) (p : PortIx) : Channel :=
  ((c.sp p).queues.map Prod.fst).foldl (flushQ noclaim p) c

/-- The queues of the ports that left UP in this tick are flushed (R237): after the commits that R186 lets the loss meet. -/
def flushLost (c : Channel) : Channel :=
  [(0 : PortIx), 1].foldl (fun c p =>
    if c.ports[p].lost then let d := c.flushPort false p; { d with ports := d.ports.set p { d.ports[p] with lost := false } } else c) c

/-- What the GCMD writes of a tick make of the pending list switches (R248). -/
def gatesNext (c : Channel) : Channel :=
  [(0 : PortIx), 1].foldl (fun c p =>
    match (c.sp p).swapNext with
    | none => c
    | some s => c.setSp p { c.sp p with swap := s, swapNext := none }) c

/-- Queues that a commit has disabled are flushed (R237). -/
def flushDisabled (c : Channel) : Channel :=
  [0, 1].foldl (fun c p => (((c.sp p).queues.map Prod.fst).filter (fun q => !c.qEn p q)).foldl (flushQ false p) c) c

/-- Frames taken out of a port's queues and discarded; `count` counts them. -/
def dropWhere (c : Channel) (p : PortIx) (bad : QFrame → Bool) (count : List QFrame → Channel → Channel) : Channel :=
  (c.sp p).queues.foldl (fun c qe =>
    let q := qe.1
    let e := c.eq p q
    let out := e.frames.filter bad
    if out.isEmpty then c
    else
      let ok := e.frames.filter (fun f => !bad f)
      let hd := if e.frames.head? = ok.head? then e.hol else c.jour.tick
      let c1 := c.putEq p q { e with frames := ok, hol := hd, drops := (e.drops + out.length) % 2 ^ 32 }
      (out.foldl (wasted p) (count out c1)).headCheck p q) c

/-- Frames built under one of these key slots are taken out of their queues (R215). -/
def dropKeyed (c : Channel) (slots : List Nat) (p : PortIx) : Channel :=
  c.dropWhere p (fun f => f.key.any slots.contains) (fun out c => (c.bumpBy F.SEAL_CNT3_KEY_GONE out.length).evt F.SEAL_EVT_KEYGONE)

/-- The key slots under which frames that wait were built, in the queues and at the exception cores. -/
def builtUnder (c : Channel) : List Nat :=
  ([(0 : PortIx), 1].flatMap (fun p => (c.sp p).queues.flatMap (fun q => q.2.frames.flatMap (·.key)))) ++
    c.sealb.exc.flatMap (fun x => match x.frame with | some f => f.key | none => [])

/-- Answers of the exception cores built under one of these key slots are discarded (R215). -/
def dropCores (c : Channel) (slots : List Nat) : Channel :=
  let bad (x : ExcItem) : Bool := match x.frame with | some f => f.key.any slots.contains | none => false
  let out := (c.sealb.exc.filter bad).filterMap (fun x => x.frame.map (fun f => (x.port, f)))
  if out.isEmpty then c
  else
    let c1 := { c with sealb := { c.sealb with exc := c.sealb.exc.map (fun x => if bad x then { x with frame := none } else x) } }
    out.foldl (fun c x => wasted x.1 c x.2) ((c1.bumpBy F.SEAL_CNT3_KEY_GONE out.length).evt F.SEAL_EVT_KEYGONE)

/-- eligible of R239. -/
def qEligible (c : Channel) (p : PortIx) (q : Nat) : Bool :=
  match (c.eq p q).frames with
  | [] => false
  | f :: _ => c.qEn p q && c.gateFits p q f.len && decide (0 ≤ c.shNow p q)

/-- The order of two eligible queues of a level: start tags by their difference from the virtual time, then queue number. -/
def qBefore (v : Nat) (a b : Nat × Nat) : Bool :=
  let ka := signed 64 (unsigned 64 ((a.2 : Int) - v))
  let kb := signed 64 (unsigned 64 ((b.2 : Int) - v))
  decide (ka < kb) || (decide (ka = kb) && decide (a.1 < b.1))

/-- select of R239, when the port is UP and its transmitter free. -/
def select? (c : Channel) (p : PortIx) : Option Nat :=
  let qs := ((c.sp p).queues.map Prod.fst).filter (c.qEligible p)
  (upTo 8).foldl (fun a lvl =>
    match a with
    | some q => some q
    | none =>
      let v := (c.sp p).vt.toList.getD lvl 0
      (((qs.filter (fun q => c.qPrio p q == lvl)).map (fun q => (q, (c.eq p q).tag))).foldl
        (fun b x => match b with | none => some x | some y => if qBefore v x y then some x else some y) none).map Prod.fst) none

/-- commit of R239: the head of the queue leaves and is charged. -/
def commitQ (c : Channel) (p : PortIx) (q : Nat) : Option QFrame × Channel :=
  let e := c.eq p q
  match e.frames with
  | [] => (none, c)
  | f :: r =>
    let x := c.sp p
    let lvl := c.qPrio p q
    let w := max 1 (c.fld (F.SCHED_Q_CFG_WEIGHT p.val q))
    let fin := (e.tag + ceilDiv (f.len * 65536) w) % 2 ^ 64
    let sh := if c.qRate p q = 0 then 0 else c.shNow p q - (f.len : Int) * 2 ^ 32
    let free := c.jour.tick + max 1 (c.txPs p f.len / 5000)
    let c1 := c.setSp p { x with vt := if h : lvl < 8 then x.vt.set lvl e.tag else x.vt, freeAt := free }
    let e1 := { e with
      frames := r
      tag := if r.isEmpty then e.tag else fin
      sh := sh
      shAt := c.jour.tick
      hol := c.jour.tick
      commits := wrapInc 32 e.commits }
    (some f, ((c1.putEq p q e1).bump (F.SCHED_Q_CNT1_COMMIT p.val q)).headCheck p q)

/-! ### Gate list commands -/

/-- GATE_LIST_BOUNDARY (R244, R248): a boundary sets the gates of its tick. The gates are a function of the channel's time and its
operating list (`gateOpen`), which holds in every tick, so that the boundary itself stores nothing. -/
def gateBoundary (c : Channel) (_p : PortIx) : Channel := c

/-- Whether R247 accepts the admin list. -/
def adminOk (c : Channel) (p : PortIx) : Bool :=
  let len := c.adminLen p
  let cyc := c.cur (F.SCHED_P_A_CYCLE_CYCLE p.val)
  let es := c.adminList p
  decide (1 ≤ len) && decide (len ≤ 256) && decide (1 ≤ cyc) && decide (cyc ≤ 1000000000) && es.all (fun e => decide (0 < e.2)) &&
    decide ((es.map Prod.snd).sum = cyc)

/-- GCMD.SWAP (R247, R248), and whether the request was accepted: the switch stands from the next tick. -/
def gateSwap (c : Channel) (p : PortIx) : Bool × Channel :=
  if c.cur (F.SCHED_P_GCMD_PEND p.val) = 1 then (false, c.put (F.SCHED_P_GCMD_GBUSY p.val) 1)
  else if !c.adminOk p then (false, c.put (F.SCHED_P_GCMD_GERR p.val) 1)
  else
    let b := listGt (c.gtWords .sched (SCHED_P_A_BASE p.val))
    let cyc : Int := (c.cur (F.SCHED_P_A_CYCLE_CYCLE p.val) : Int) * 2 ^ 96
    let t := c.dpll.ctr * 10 ^ 9 + 10 ^ 6 * 2 ^ 96
    let k := max 0 (-(Int.fdiv (b - t) cyc))
    let at0 := b + k * cyc
    let req : GateReq := ⟨at0, c.adminLen p, c.cur (F.SCHED_P_A_CYCLE_CYCLE p.val), c.gtWords .sched (SCHED_P_A_BASE p.val)⟩
    let c1 := c.setSp p { c.sp p with swapNext := some (some req) }
    (true, (c1.put (F.SCHED_P_GCMD_PEND p.val) 1).putGt .sched (SCHED_P_SWAP_T p.val) (Int.fdiv at0 (2 ^ 32 * 10 ^ 9)))

/-- GCMD.CANCEL (R247), and whether a switch was pending. -/
def gateCancel (c : Channel) (p : PortIx) : Bool × Channel :=
  if c.cur (F.SCHED_P_GCMD_PEND p.val) = 1 then
    (true, (c.setSp p { c.sp p with swapNext := some none }).put (F.SCHED_P_GCMD_PEND p.val) 0)
  else (false, c)

/-- The list switch of R247, in the tick that its instant belongs to. -/
def gateSwitch (c : Channel) (p : PortIx) : Channel :=
  match (c.sp p).swap with
  | none => c
  | some s =>
    if c.listTime p (c.ctrAfter 1) ≤ s.at' then c
    else
      let old := c.word .sched (SCHED_P_GSTAT p.val)
      let ab := c.adminBank p
      let c1 := c.setSp p { c.sp p with swap := none }
      let c2 := (c1.put (F.SCHED_P_GSTAT_O_LEN p.val) s.len).put (F.SCHED_P_O_CYCLE_CYCLE p.val) s.cycle
      let c3 := (c2.put (F.SCHED_P_GSTAT_BANK p.val) ab).putGt .sched (SCHED_P_O_BASE p.val) s.base
      let c4 := ((c3.put (F.SCHED_P_GSTAT_OPER_VALID p.val) 1).put (F.SCHED_P_GCMD_PEND p.val) 0).evt F.SCHED_EVT_GSWAP
      let c5 := c4.ask (.book ⟨c.policyOrg .sched, 0x04, winReg c.ix .sched (SCHED_P_GSTAT p.val), old, c4.word .sched (SCHED_P_GSTAT p.val)⟩)
      ((c5.sp p).queues.map Prod.fst).foldl (fun c q => c.headCheck p q) c5

/-! ### Samples -/

/-- A sample of one queue (R249). -/
def sampleQ (p : PortIx) (c : Channel) (q : Nat) : Channel :=
  let e := c.eq p q
  let hol := if e.frames.isEmpty then 0 else min 0xFFFFFFFF ((c.jour.tick - e.hol) * 5)
  let fl := b2n (e.seq / 128 % 2 == 0) + 2 * b2n (c.gateOpen p q) + 4 * b2n (decide (c.shNow p q < 0))
  let s : QSample := ⟨c.jour.tick, e.seq % 2 ^ 32, e.frames.length, fl, (e.frames.map QFrame.len).sum, hol, e.commits, e.drops⟩
  c.putEq p q { e with commits := 0, drops := 0, seq := e.seq + 1, samples := (s :: e.samples).take 128 }

/-- The samples of a port, in a tick whose count is a multiple of the period (R249). -/
def samplePort (c0 : Channel) (p : PortIx) : Channel :=
  let c := c0.flushLost
  if !c.flag (F.SCHED_P_SAMP_EN p.val) || c.jour.tick % ((c.fld (F.SCHED_P_SAMP_PER p.val) + 1) * 200) != 0 then c
  else
    let m := c.fld (F.SCHED_P_SMASK_LO_MASK p.val) + 2 ^ 32 * c.fld (F.SCHED_P_SMASK_HI_MASK p.val)
    ((upTo 64).filter (maskOpen m)).foldl (sampleQ p) c

/-! ### Commit and views -/

/-- Whether R251 accepts a commit of the shadows `w`. -/
def schedCommitOk (c : Channel) : Bool :=
  let w := (c.rf .sched).before (kbRst .sched)
  let get (f : KF) : Nat := getField (smGet (kbRst .sched f.off) w f.off) f.lsb f.w
  [0, 1].all (fun p => (upTo 64).all (fun q =>
    let l := get (F.SCHED_Q_CFG_QLIM p q)
    decide (1 ≤ l) && decide (l ≤ 4096) && get (F.SCHED_Q_CFG_WEIGHT p q) != 0))

/-- The buckets of every queue brought to this tick before new rates take effect. -/
def settleAll (c : Channel) : Channel := [0, 1].foldl (fun c p => (upTo 64).foldl (settleQ p) c) c

/-- Every shaper full at the start of the channel (R250). -/
def fillShapers (c : Channel) : Channel := [0, 1].foldl (fun c p => (upTo 64).foldl (fillQ p) c) c

/-- Qq_STAT and Qq_LEVEL. -/
def qStat (c : Channel) (p : PortIx) (q : Nat) : Word :=
  BitVec.ofNat 32 ((c.eq p q).frames.length % 8192 * 2 ^ 16 + b2n (c.gateOpen p q) * 2 ^ 15 + b2n (decide (c.shNow p q < 0)) * 2 ^ 14)
def qLevel (c : Channel) (p : PortIx) (q : Nat) : Word := BitVec.ofInt 32 (sar (c.shNow p q) 32)

/-- Pp_GSTAT with the operating entry at the plane now. -/
def gStat (c : Channel) (p : PortIx) : Word :=
  let x := c.dpll.ctr * 10 ^ 9
  let e := if !c.operValid p then 0
    else (gateFind (c.opList p) 0 0 (cycleAt (c.gtWords .sched (SCHED_P_O_BASE p.val)) (c.cur (F.SCHED_P_O_CYCLE_CYCLE p.val)) x).2).1
  putField (c.word .sched (SCHED_P_GSTAT p.val)) 0 8 e

end Channel
end Sys2Proof.Machine
end

