-- ==== Sys2Proof/Machine/RefOps.lean ====
section
/-! DEFINITION. The REF block: judging records, the lane state machine, equal rank and selection (R65 to R93). -/
namespace Sys2Proof.Machine

/-- The class of a lane (R65). -/
inductive LaneClass
  | time | phase | freq
  deriving DecidableEq, Repr

def allLanes : List LaneIx := List.finRange 16

namespace Channel

def lane (c : Channel) (n : LaneIx) : Lane := c.ref.lanes[n]
def setLane (c : Channel) (n : LaneIx) (l : Lane) : Channel := { c with ref := { c.ref with lanes := c.ref.lanes.set n l } }
def updLane (c : Channel) (n : LaneIx) (f : Lane → Lane) : Channel := c.setLane n (f (c.lane n))
def sel (c : Channel) : Servo → SelSt
  | .a => c.ref.selA
  | .b => c.ref.selB
def setSel (c : Channel) (s : Servo) (x : SelSt) : Channel :=
  match s with
  | .a => { c with ref := { c.ref with selA := x } }
  | .b => { c with ref := { c.ref with selB := x } }

/-- The class of lane `n` (R65). -/
def laneClass (c : Channel) (n : LaneIx) : LaneClass :=
  if n.val < 8 then
    match c.fld (F.REF_LANE_CFG_KIND n.val) with
    | 0 => .phase
    | 1 => .time
    | _ => .freq
  else if n.val = 11 ∨ n.val = 12 then .freq else .time

def laneEnabled (c : Channel) (n : LaneIx) : Bool := c.flag (F.REF_LANE_CFG_ENABLE n.val)
def laneRank (c : Channel) (n : LaneIx) : Nat := c.fld (F.REF_LANE_CFG_RANK n.val)
/-- Whether the lane may feed the servo: SRV_A or SRV_B. -/
def laneServo (c : Channel) (n : LaneIx) : Servo → Bool
  | .a => c.flag (F.REF_LANE_CFG_SRV_A n.val)
  | .b => c.flag (F.REF_LANE_CFG_SRV_B n.val)

/-- The tag's CO and FO flags of a record of lane `n` (R39). -/
def laneFlags (c : Channel) (n : LaneIx) (t : Word) : Word :=
  tagSet (tagSet t 6 ((c.lane n).st == .contested)) 5 ((c.lane n).st == .forced)

/-- Whether a lane state is live (R80). -/
def liveSt : LaneSt → Bool
  | .qualifying | .qualified | .wtr | .contested => true
  | _ => false

/-- The record history of a lane cleared (R78). -/
def clearHist (l : Lane) : Lane := { l with prev := none, mpdRef := none, stepCnt := 0 }

/-- A lane enters state `dst` with the LANE entry's cause (R80, R91, R143). -/
def laneTo (c : Channel) (n : LaneIx) (dst : LaneSt) (cause : Nat) : Channel :=
  let l := c.lane n
  let l1 := { l with st := dst }
  let l2 := if dst = .absent then { clearHist l1 with timer := none, miss := none } else l1
  let l3 := if dst = .qualifying then { l2 with mpdRef := none, stepCnt := 0 } else l2
  let l4 := if dst = .forced then { l3 with timer := none, miss := l.miss } else l3
  if l.st = dst then c.setLane n l4
  else
    ((c.setLane n l4).journal (.lane n l.st dst cause l.stepW)).evtMask .ref REF_EVT (2 ^ n.val)

/-- Starts the qualification window: good count 0 (R80). -/
def startWin (c : Channel) (n : LaneIx) : Channel :=
  c.updLane n (fun l => { l with winGood := 0, timer := some (c.jour.tick + secTicks (c.fld (F.REF_LANE_QUAL_QUAL_WIN n.val))) })

def startDq (c : Channel) (n : LaneIx) : Channel :=
  c.updLane n (fun l => { l with timer := some (c.jour.tick + secTicks (c.fld (F.REF_LANE_TIME_DQ_HOLD n.val))) })

/-- A status bit of LANE_STAT set. -/
def laneStat (c : Channel) (n : LaneIx) (f : Nat → KF) : Channel := c.evt (f n.val)

/-- The OFFSET of a record brought forward to the cumulative correction `k` (R78). -/
def bringFwd (r : MeasRec) (k : Int) : Gt := r.offset - sar (k - r.k) 32

/-- The backward jump test of R78 against the previous record. -/
def backJump (c : Channel) (l : Lane) (r : MeasRec) : Bool :=
  match l.prev with
  | none => false
  | some p =>
    decide (r.offset - bringFwd p r.k < -(((r.teb + p.teb : Nat) : Int) * 2 ^ 24 + pointOfPs (c.fld F.REF_POL_JUMP_JUMP_LIM)))

/-- The step test of R82: the delta of a record that shows a step. -/
def stepDelta (c : Channel) (l : Lane) (r : MeasRec) : Option Int :=
  let lim := c.fld (F.REF_LANE_STEP_STEP_LIM r.lane.val)
  match r.mpd, l.mpdRef with
  | some m, some q => if lim = 0 then none else if (m - q).natAbs > lim then some (m - q) else none
  | _, _ => none

/-- The disagreement test of R79. A saturated TEB of the judged record is compared as the number it is, and a FREQ lane, which carries no
time, never disagrees (notes/assumptions/98.md). -/
def disagrees (c : Channel) (r : MeasRec) : Bool :=
  if !c.laneServo r.lane .a || c.laneClass r.lane == .freq then false
  else
    let others := allLanes.filterMap (fun m =>
      let l := c.lane m
      if m ≠ r.lane ∧ (l.st = .qualified ∨ l.st = .contested ∨ l.st = .forced) ∧ c.laneServo m .a ∧ !l.outA ∧ !l.outB then
        match l.prev with
        | some p => some ((⟨bringFwd p r.k, grow p.teb p.fb (r.refTs - p.refTs)⟩ : Iv), p.tag)
        | none => none
      else none)
    match intersect others with
    | .iv ctr w _ =>
      let lo := ctr - w * 2 ^ 24
      let hi := ctr + w * 2 ^ 24
      let dist := if r.offset < lo then lo - r.offset else if r.offset > hi then r.offset - hi else 0
      decide (dist > r.teb * 2 ^ 24)
    | _ => false

/-- Conditions 1 to 4 of R77: those that set LIMIT when they fail. -/
def limitsOk (c : Channel) (r : MeasRec) : Bool :=
  let n := r.lane.val
  (c.laneClass r.lane == .freq || (decide (r.teb < SAT) && decide (r.teb ≤ c.fld (F.REF_LANE_TLIM_TLIM n)))) &&
  decide (r.fb < SAT) &&
  decide ((r.freq + c.dpll.rate).natAbs ≤ c.fld (F.REF_LANE_FLIM_FLIM n) * 2 ^ 16) &&
  !(decide (n < 8) && c.laneClass r.lane == .time && r.phaseOnly)

/-- The expected record interval of a lane in ticks (R76); `sync` is that of L9 and L10. -/
def laneInterval (c : Channel) (sync : LaneIx → Nat) (n : LaneIx) : Nat :=
  if n.val < 8 then (if c.laneClass n = .freq then 20000000 else 200000000)
  else match n.val with
    | 9 | 10 => sync n
    | 11 | 12 => 20000000
    | 13 | 14 => 12500000
    | _ => 200000000

/-- A confirmed step (R83): STEP set, history cleared, STEPW widened; a live lane requalifies. -/
def stepConfirmed (c : Channel) (n : LaneIx) (delta : Int) : Channel :=
  let add := satAdd (satCap (tebOfPs (ceilDiv delta.natAbs 2))) 1
  let live := liveSt (c.lane n).st
  let c1 := (c.updLane n (fun l => { clearHist l with stepW := satAdd l.stepW add })).laneStat n F.REF_LANE_STAT_STEP
  if live then (c1.laneTo n .qualifying 22).startWin n else c1

/-- Judges a record that shows no step (R77, R80): `dis` says whether the lane disagrees. -/
def judge (c : Channel) (r : MeasRec) (dis : Bool) : Channel :=
  let n := r.lane
  let st := (c.lane n).st
  let ok := c.limitsOk r
  let good := ok && !r.backward
  let c1 := if ok then c else c.laneStat n F.REF_LANE_STAT_LIMIT
  let c2 := c1.updLane n (fun l => { l with prev := some r, mpdRef := match r.mpd with | some m => some m | none => l.mpdRef, stepCnt := 0 })
  if r.backward then
    let c3 := (c2.updLane n clearHist).laneStat n F.REF_LANE_STAT_BACK
    if liveSt st then ((c3.laneTo n .disqualified 21).startDq n).updLane n (fun l => { l with returning := true })
    else c3
  else if dis && liveSt st then
    ((c2.laneStat n F.REF_LANE_STAT_DISAGREE).laneTo n .disqualified 20).startDq n
  else match st with
    | .qualifying =>
      if good then c2.updLane n (fun l => { l with winGood := l.winGood + 1 }) else c2.startWin n
    | .qualified | .wtr | .contested =>
      if good then c2 else (c2.laneTo n .disqualified 19).startDq n
    | _ => c2

/-! ### Equal rank (R84 to R86) -/

/-- The lanes at a rank for a servo: QUALIFIED or CONTESTED with the servo's bit (R84). -/
def rankLanes (c : Channel) (s : Servo) (rk : Nat) : List LaneIx :=
  allLanes.filter (fun n => ((c.lane n).st == .qualified || (c.lane n).st == .contested) && c.laneServo n s && c.laneRank n == rk &&
    c.laneEnabled n && (c.lane n).exist)

def laneFreq (c : Channel) (n : LaneIx) : Int := match (c.lane n).prev with | some p => p.freq | none => 0

/-- The median of R84. -/
def median (fs : List Int) : Int :=
  let xs := fs.insertionSort (fun a b => a ≤ b)
  let k := xs.length / 2
  if xs.length % 2 = 1 then xs.getD k 0 else sar (xs.getD (k - 1) 0 + xs.getD k 0) 1

def agreeN (c : Channel) : Nat := max 1 (c.fld F.REF_POL_CFG_AGREE_N)
def fagree (c : Channel) : Nat := c.fld F.REF_POL_AGREE_FAGREE * 2 ^ 16

def outl (l : Lane) : Servo → Bool
  | .a => l.outA
  | .b => l.outB
def setOutl (l : Lane) (s : Servo) (b : Bool) (n : Nat) : Lane :=
  match s with
  | .a => { l with outA := b, outCntA := n }
  | .b => { l with outB := b, outCntB := n }
def outCnt (l : Lane) : Servo → Nat
  | .a => l.outCntA
  | .b => l.outCntB

/-- OUTLIER of a lane (R84). -/
def outlier (l : Lane) : Bool := l.outA || l.outB

/-- Sets or clears a lane's OUTLIER for a servo, with EVT.OUTL when the flag changes (R84, R91). -/
def putOutl (c : Channel) (s : Servo) (n : LaneIx) (b : Bool) (k : Nat) : Channel :=
  let l := c.lane n
  let c1 := c.setLane n (setOutl l s b k)
  if outlier (c1.lane n) ≠ outlier l then c1.evt F.REF_EVT_OUTL else c1

/-- R84 at one rank for one servo: below three lanes every flag of the rank clears. -/
def medianRank (s : Servo) (c : Channel) (rk : Nat) : Channel :=
  let ls := c.rankLanes s rk
  if ls.length < 3 then
    allLanes.foldl (fun c n => if outl (c.lane n) s ∧ c.laneRank n = rk then c.putOutl s n false 0 else c) c
  else
    let m := median (ls.map c.laneFreq)
    ls.foldl (fun c n =>
      if (c.laneFreq n - m).natAbs > c.fagree then c.putOutl s n true 0
      else if outl (c.lane n) s ∧ c.ref.judged.contains n then
        let k := outCnt (c.lane n) s + 1
        if k ≥ c.agreeN then c.putOutl s n false 0 else c.putOutl s n true k
      else c) c

/-- Whether a contest still holds lane `n` for either servo. -/
def inContest (c : Channel) (n : LaneIx) : Bool :=
  (c.ref.selA.contests ++ c.ref.selB.contests).any (fun k => k.a == n || k.b == n)

/-- A contest ends: its widening stays until the next update, and its lanes return to QUALIFIED (R86). -/
def endContest (c : Channel) (s : Servo) (k : Contest) : Channel :=
  let x := c.sel s
  let feeds := s == .a && (x.cur == some k.a || x.cur == some k.b)
  let c1 := c.setSel s { x with contests := x.contests.filter (fun j => j != k) }
  let c2 := if feeds then { c1 with dpll := { c1.dpll with cwEnd := satAdd c1.dpll.cwEnd (grow 0 k.dmax (c.now - k.tc)) } } else c1
  [k.a, k.b].foldl (fun c n => if (c.lane n).st = .contested ∧ !c.inContest n then c.laneTo n .qualified 0xFF else c) c2

/-- R86 for the contests of a servo. -/
def contestEnds (c : Channel) (s : Servo) : Channel :=
  (c.sel s).contests.foldl (fun c k =>
    let ls := c.rankLanes s (c.laneRank k.a)
    if ls.length ≠ 2 ∨ !ls.contains k.a ∨ !ls.contains k.b then c.endContest s k
    else
      let dif := (c.laneFreq k.a - c.laneFreq k.b).natAbs
      let cnt (n : LaneIx) (old : Nat) : Nat := if c.ref.judged.contains n then (if dif ≤ c.fagree then old + 1 else 0) else old
      let k' := { k with dmax := max k.dmax (satCap (ceilDiv dif (2 ^ 16))), agA := cnt k.a k.agA, agB := cnt k.b k.agB }
      let c1 := c.setSel s { c.sel s with contests := (c.sel s).contests.map (fun j => if j = k then k' else j) }
      if k'.agA ≥ c.agreeN ∧ k'.agB ≥ c.agreeN then c1.endContest s k' else c1) c

/-- R85 at one rank for one servo. -/
def contestRank (s : Servo) (c : Channel) (rk : Nat) : Channel :=
  match c.rankLanes s rk with
  | [a, b] =>
    let dif := (c.laneFreq a - c.laneFreq b).natAbs
    if dif > c.fagree ∧ !(c.sel s).contests.any (fun k => k.a == a && k.b == b) then
      let k : Contest := ⟨a, b, c.now, satCap (ceilDiv dif (2 ^ 16)), 0, 0⟩
      let c1 := c.setSel s { c.sel s with contests := (c.sel s).contests ++ [k] }
      ((c1.laneTo a .contested 0xFF).laneTo b .contested 0xFF).evt F.REF_EVT_CONT
    else c
  | _ => c

/-- Step 5 of R81: contest and median evaluation. -/
def evalRanks (c : Channel) : Channel :=
  let one (c : Channel) (s : Servo) : Channel :=
    let c1 := c.contestEnds s
    let c2 := (upTo 16).foldl (medianRank s) c1
    (upTo 16).foldl (contestRank s) c2
  one (one c .a) .b

/-! ### Selection (R87 to R90) -/

/-- class_ok of R87: R66. -/
def classOk (c : Channel) (n : LaneIx) : Servo → Bool
  | .b => true
  | .a => match c.laneClass n with
    | .time => true
    | .phase => c.flag (F.REF_LANE_CFG_PHASE_OK n.val) && decide (c.teb < SAT)
    | .freq => false

/-- The state that choose() sees: with `prom`, a lane in WTR counts as QUALIFIED (R89). -/
def selState (c : Channel) (prom : Bool) (n : LaneIx) : LaneSt :=
  if prom && (c.lane n).st == .wtr then .qualified else (c.lane n).st

/-- eligible of R87. -/
def eligible (c : Channel) (prom : Bool) (s : Servo) (n : LaneIx) : Bool :=
  let l := c.lane n
  let st := c.selState prom n
  l.exist && c.laneEnabled n && c.laneServo n s && c.classOk n s &&
  (st == .qualified || st == .contested || st == .forced) && !outlier l &&
  (st != .contested || (c.sel s).cur == some n)

def revert (c : Channel) : Servo → Bool
  | .a => c.flag F.REF_POL_CFG_REVERT_A
  | .b => c.flag F.REF_POL_CFG_REVERT_B
def approve (c : Channel) : Servo → Bool
  | .a => c.flag F.REF_POL_CFG_APPROVE_A
  | .b => c.flag F.REF_POL_CFG_APPROVE_B

/-- choose of R87. -/
def choose (c : Channel) (prom : Bool) (s : Servo) : Option LaneIx :=
  let cand := allLanes.filter (c.eligible prom s)
  match cand.find? (fun n => c.selState prom n == .forced) with
  | some n => some n
  | none =>
    let best := cand.foldl (fun a n => min a (c.laneRank n)) 16
    match (c.sel s).cur with
    | some m => if cand.contains m ∧ (!c.revert s ∨ c.laneRank m = best) then some m
                else cand.find? (fun n => c.laneRank n == best)
    | none => cand.find? (fun n => c.laneRank n == best)

/-- The set of eligible lanes (R90). -/
def eligSet (c : Channel) (s : Servo) : List LaneIx := allLanes.filter (c.eligible false s)

/-- Voids the provisional SEL entry of a servo (R89). -/
def cancelPv (c : Channel) (s : Servo) (cause : Nat) : Channel :=
  let x := c.sel s
  match x.pv with
  | none => c
  | some _ =>
    ((c.setSel s { x with pv := none, pend := false }).journal (.cancel x.pvJseq cause)).evt F.REF_EVT_PROV

/-- Publishes a provisional choice (R89). -/
def publishPv (c : Channel) (s : Servo) (n : LaneIx) (pend : Bool) : Channel :=
  let x := c.sel s
  let c1 := (c.journalAt c.jour.tick false false (.sel s (some n) x.cur (if c.approve s then 2 else 1))).evt F.REF_EVT_PROV
  c1.setSel s { c1.sel s with pv := some n, pvJseq := c1.jour.jseq, pend := pend }

/-- The contests' widening as it stands, for those whose pair holds lane `n` (R85). -/
def widenOf (c : Channel) (n : LaneIx) : Bound :=
  c.ref.selA.contests.foldl (fun a k => if k.a = n ∨ k.b = n then satAdd a (grow 0 k.dmax (c.now - k.tc)) else a) 0

/-- Where a selection for DPLL_A leaves a contested pair, the widening stays in the bound until the next update (R41, R86). -/
def keepWiden (c : Channel) (s : Servo) (new : Option LaneIx) : Channel :=
  match s, c.ref.selA.cur with
  | .a, some m => if new = some m then c else { c with dpll := { c.dpll with cwEnd := satAdd c.dpll.cwEnd (c.widenOf m) } }
  | _, _ => c

/-- Commits a selection (R88): the SEL entry, SW for a switch, the events and the cellar book entry. -/
def commitSel (c0 : Channel) (s : Servo) (new : Option LaneIx) (cause : Nat) : Channel :=
  let c := c0.keepWiden s new
  let x := c.sel s
  let old := c.selStat
  let c1 := c.journal (.sel s new x.cur cause)
  let sw := match new with | some _ => some ⟨x.cur, none⟩ | none => none
  let y : SelSt := { c1.sel s with cur := new, sw := sw, noIn := false, denied := none }
  let y' : SelSt := if decide (y.pv = new) then { y with pv := none, pend := false } else y
  let c2 := c1.setSel s y'
  let c3 := match new, s with
    | some _, .a => c2.evt F.REF_EVT_SELA
    | some _, .b => c2.evt F.REF_EVT_SELB
    | none, _ => c2
  c3.bookState (c3.policyOrg .ref) .ref REF_SEL_STAT old c3.selStat

/-- The cause code of a committed SEL entry (R143). -/
def causeOf (c : Channel) (n : LaneIx) : Nat :=
  if (c.lane n).st = .forced then 3 else if c.ref.wtrDone.contains n then 1 else 0

/-- The prediction over the lanes in WTR (R89). -/
def predict (c : Channel) (s : Servo) : Channel :=
  let y := c.sel s
  let pred := match c.choose true s with
    | some n => if (c.lane n).st = .wtr ∧ y.cur ≠ some n then some n else none
    | none => none
  if y.pv = pred then c
  else
    let left := match y.pv with
      | some n => if (c.lane n).st = .wtr ∨ c.ref.wtrDone.contains n then 1 else 0
      | none => 1
    let c1 := c.cancelPv s left
    match pred with
    | some n => c1.publishPv s n false
    | none => c1

/-- A choice that the host must approve (R89, R90): the lane that is no longer eligible feeds nothing, a denied choice is not offered
again, and what WTR predicts is published meanwhile; a choice already published becomes the one that waits. The choice that waits is the
one published, whatever WTR predicts (notes/assumptions/98.md). -/
def reserve (c : Channel) (s : Servo) (n : LaneIx) : Channel :=
  let x := c.sel s
  let c1 := c.setSel s { x with noIn := match x.cur with | some m => !c.eligible false s m | none => false }
  if x.denied.any (fun d => d.1 == n) then (if x.pend then c1.cancelPv s 1 else c1).predict s
  else if x.pv = some n then c1.setSel s { c1.sel s with pend := true }
  else (c1.cancelPv s 1).publishPv s n true

/-- The selector for one servo: step 6 of R81 (R87 to R90). A denial lapses when the set of eligible lanes changes. -/
def select (c0 : Channel) (s : Servo) : Channel :=
  let x0 := c0.sel s
  let c := if x0.denied.any (fun d => d.2 != c0.eligSet s) then c0.setSel s { x0 with denied := none } else c0
  let x := c.sel s
  let ch := c.choose false s
  match ch, c.approve s && decide (ch ≠ x.cur) with
  | some n, true => c.reserve s n
  | _, _ =>
    let c1 := c.setSel s { x with noIn := false }
    let c2 := if x.pend then c1.cancelPv s 1 else c1
    let c3 := if ch = x.cur then c2 else c2.commitSel s ch (match ch with | some n => causeOf c2 n | none => 0)
    c3.predict s

/-- Steps 5 and 6 of R81, which end the REF block's part of a tick. -/
def refEval (c : Channel) : Channel :=
  let c1 := (c.evalRanks.select .a).select .b
  { c1 with ref := { c1.ref with judged := [], wtrDone := [] } }

/-! ### Records -/

/-- The apply time of a record (R124). -/
def applyAt (c : Channel) (r : MeasRec) : Gt := r.refTs + sar ((c.fld F.DPLL_A_CFG_APPLY_DLY : Int) * NOM) 32

/-- An OFFSET reduced to [−0.5 s, +0.5 s) by whole seconds (R74). -/
def reduceSec (o : Gt) : Gt := o - sar (o + 2 ^ 63) 64 * 2 ^ 64

/-- An OFFSET reduced to [−P/2, +P/2) for an input of `num/den` Hz (R74). -/
def reducePeriod (o : Gt) (num den : Nat) : Gt :=
  if num = 0 then o else o - Int.fdiv (Int.fdiv (o * num + 2 ^ 63 * den) (2 ^ 64 * den) * (2 ^ 64 * den)) num

/-- CAL_DLYn and CAL_BUDn as term 4 of R45 (R474). -/
def termCal (c : Channel) (n : LaneIx) (x : Iv) : Iv :=
  x.shift (c.sfld (F.DPLL_CAL_DLY_DLY n.val)) (c.fld (F.DPLL_CAL_BUD_BUD n.val))

/-- The OFFSET and TEB of a measured record with the calibration entries in use at its registration (R474), reduced as R74 says. L9 and
L10 take term 4 from their ports, L11 and L12 none; a saturated record of L8 carries OFFSET 0 (R114). -/
def calTerms (c : Channel) (r : MeasRec) : Iv :=
  let n := r.lane.val
  let x : Iv := if decide (9 ≤ n) && decide (n ≤ 12) then ⟨r.offset, r.teb⟩ else c.termCal r.lane ⟨r.offset, r.teb⟩
  if n = 8 ∧ r.teb ≥ SAT then ⟨r.offset, r.teb⟩ else if decide (8 ≤ n) then x
  else if r.phaseOnly then ⟨reduceSec x.t, x.h⟩
  else if r.freqOnly then ⟨reducePeriod x.t (c.fld (F.REF_LANE_NOM_NOM_HZ n)) 1, x.h⟩
  else x

/-- Registers a record, numbered, widened by STEPW and tagged (R73, R75, R76, R80, R125, R143): it is journaled, judged, and kept for the
servos unless it comes after its apply tick. A lane that is not enabled judges nothing (R80). `sync` gives the expected interval of L9 and
L10. -/
def registerRec (c : Channel) (sync : LaneIx → Nat) (r1 : MeasRec) : Channel :=
    let n := r1.lane
    let l := c.lane n
    let used := l.st ≠ .disqualified
    let sd := if used then c.stepDelta l r1 else none
    let back := used && sd.isNone && c.laneClass n == .time && c.backJump l r1
    let r2 := { r1 with step := sd.isSome, backward := back, jseq := c.jour.jseq + 1 }
    let late := decide (c.applyAt r2 * 2 ^ 32 < c.dpll.ctr0)
    let c1 := c.journalAt c.jour.tick true late (.meas r2)
    let c2 := if late then (c1.bump F.DPLL_LATE_CNT_LATE).evt F.DPLL_EVT_LATE else c1
    let ml := max 1 (c.fld (F.REF_LANE_CFG_MISS_LIM n.val))
    let on := c.laneEnabled n || l.st != .absent
    let c3 := c2.updLane n (fun l => { l with seq := wrapInc 16 l.seq, los := false, miss := some (c.jour.tick + ml * c.laneInterval sync n) })
    let c4 :=
      match l.st with
      | .disqualified => c3
      | .absent => if on then ((c3.laneTo n .qualifying 0xFF).startWin n).judge r2 false else c3
      | _ =>
        match sd with
        | some dlt =>
          let pos := decide (dlt > 0)
          let k := if l.stepCnt > 0 ∧ l.stepPos = pos then l.stepCnt + 1 else 1
          if k ≥ max 1 (c.fld (F.REF_LANE_STEP_STEP_CONF n.val)) then c3.stepConfirmed n dlt
          else c3.updLane n (fun l => { l with stepCnt := k, stepPos := pos })
        | none => c3.judge r2 (c.disagrees r2)
    -- R77, R82: what may be kept for the servos
    let st' := (c4.lane n).st
    let keep := !late && used && st' != .absent && (st' == .forced || (!r2.step && !r2.backward))
    let c5 := if keep then { c4 with dpll := { c4.dpll with waitA := c4.dpll.waitA ++ [r2], waitB := c4.dpll.waitB ++ [r2] } } else c4
    { c5 with ref := { c5.ref with judged := n :: c5.ref.judged } }

/-- Registers a measured record with the calibration, STEPW and number of this tick. -/
def register (c : Channel) (sync : LaneIx → Nat) (r : MeasRec) : Channel :=
  let l := c.lane r.lane
  let x := c.calTerms r
  c.registerRec sync { r with offset := x.t, seq := l.seq, teb := satAdd x.h l.stepW, tag := c.laneFlags r.lane (tagCal r.tag c.calset) }

/-- A record measured in this tick, whose registration comes `lat` ticks later (R28, R75). A lane that is not in the image gives none. -/
def measure (c : Channel) (lat : Nat) (r : MeasRec) : Channel :=
  if !(c.lane r.lane).exist then c else { c with ref := { c.ref with measured := c.ref.measured ++ [(c.jour.tick + lat, r)] } }

/-- The order of records of one tick (R81, R127): REF_TS, then lane number. -/
def recBefore (a b : MeasRec) : Bool := decide (a.refTs < b.refTs) || (a.refTs == b.refTs && decide (a.lane.val < b.lane.val))

/-- A record put into a list so ordered, behind its equals. -/
def recIns (r : MeasRec) : List MeasRec → List MeasRec
  | [] => [r]
  | x :: xs => if recBefore r x then r :: x :: xs else x :: recIns r xs

/-- Step 1 of R81: the records whose registration tick has come, in order. -/
def registerDue (c : Channel) (sync : LaneIx → Nat) : Channel :=
  let due := (c.ref.measured.filter (fun e => decide (e.1 ≤ c.jour.tick))).map Prod.snd
  let c1 := { c with ref := { c.ref with measured := c.ref.measured.filter (fun e => decide (c.jour.tick < e.1)) } }
  (due.foldl (fun l r => recIns r l) []).foldl (fun c r => c.register sync r) c1

/-! ### Timers and lane commands (R80) -/

def expired (now : Nat) : Option Nat → Bool
  | some t => t ≤ now
  | none => false

/-- The miss timer of lane `n` expires in this tick (R76, R80). -/
def missExpiry (c : Channel) (n : LaneIx) : Channel :=
  let l := c.lane n
  if !expired c.jour.tick l.miss then c
  else
    let c1 := c.updLane n (fun l => { l with los := true, miss := none })
    if liveSt l.st then c1.laneTo n .absent 27 else c1

/-- The window of a QUALIFYING lane expires (R80); a miss timer that is due comes first (R81). -/
def windowExpiry (c0 : Channel) (n : LaneIx) : Channel :=
  let c := c0.missExpiry n
  let l := c.lane n
  if l.st ≠ .qualifying ∨ !expired c.jour.tick l.timer then c
  else
    let wtr := c.fld (F.REF_LANE_TIME_WTR n.val)
    if l.winGood < max 1 (c.fld (F.REF_LANE_QUAL_QUAL_MIN n.val)) then c.startWin n
    else if !l.returning || wtr == 0 then
      (c.updLane n (fun l => { l with timer := none, returning := true })).laneTo n .qualified 0xFF
    else (c.laneTo n .wtr 0xFF).updLane n (fun l => { l with timer := some (c.jour.tick + secTicks wtr) })

/-- The WTR timer of a lane expires (R80); a miss timer that is due comes first (R81). -/
def wtrExpiry (c0 : Channel) (n : LaneIx) : Channel :=
  let c := c0.missExpiry n
  let l := c.lane n
  if l.st ≠ .wtr ∨ !expired c.jour.tick l.timer then c
  else
    let c1 := (c.updLane n (fun l => { l with timer := none })).laneTo n .qualified 0xFF
    { c1 with ref := { c1.ref with wtrDone := n :: c1.ref.wtrDone } }

/-- The DQ_HOLD timer of a lane expires (R80); a miss timer that is due comes first (R81). -/
def dqExpiry (c0 : Channel) (n : LaneIx) : Channel :=
  let c := c0.missExpiry n
  let l := c.lane n
  if l.st ≠ .disqualified ∨ !expired c.jour.tick l.timer then c
  else
    let c1 := c.updLane n (fun l => { l with timer := none })
    if l.los then c1.laneTo n .absent 0xFF else (c1.laneTo n .qualifying 0xFF).startWin n

/-- FORCE (R80): acts on an existing, enabled lane; a lane that leaves ABSENT so starts its miss timer (R76). -/
def force (c : Channel) (sync : LaneIx → Nat) (n : LaneIx) : Channel :=
  let l := c.lane n
  let ml := max 1 (c.fld (F.REF_LANE_CFG_MISS_LIM n.val))
  (c.updLane n (fun _ => { l with timer := none, miss := if l.st = .absent then some (c.jour.tick + ml * c.laneInterval sync n) else l.miss })).laneTo n .forced 0xFF

/-- UNFORCE (R80). -/
def unforce (c : Channel) (n : LaneIx) : Channel :=
  let c0 := c.updLane n (fun l => { l with returning := true })
  if (c.lane n).los then c0.laneTo n .absent 0xFF else (c0.laneTo n .qualifying 0xFF).startWin n

/-- REQUAL (R80). -/
def requal (c : Channel) (n : LaneIx) : Channel :=
  (c.laneTo n .qualifying 0xFF).startWin n

/-- A lane whose commit cleared ENABLE goes ABSENT (R80). -/
def dropDisabled (c : Channel) : Channel :=
  allLanes.foldl (fun c n => if !c.laneEnabled n ∧ (c.lane n).st ≠ .absent then c.laneTo n .absent 0xFF else c) c

/-- APPROVE of SEL_CMD for a servo (R90). -/
def approveSwitch (c : Channel) (s : Servo) : Channel :=
  let x := c.sel s
  match x.pend, x.pv with
  | true, some n => c.commitSel s (some n) 2
  | _, _ => c

/-- DENY of SEL_CMD for a servo (R90). -/
def denySwitch (c : Channel) (s : Servo) : Channel :=
  let x := c.sel s
  match x.pend, x.pv with
  | true, some n =>
    let c1 := c.cancelPv s 2
    c1.setSel s { c1.sel s with denied := some (n, c.eligSet s) }
  | _, _ => c

/-- The checks of R92 on the shadows: 0 means accepted. -/
def refCommitOk (c : Channel) : Bool :=
  let shadow (f : Nat → KF) (n : Nat) : Nat := c.cur (f n)
  let tod := (upTo 8).filter (fun n => shadow F.REF_LANE_CFG_KIND n == 1)
  let dup := countIf (fun n => shadow F.REF_LANE_CFG_TODSEL n == 0) tod ≤ 1 && countIf (fun n => shadow F.REF_LANE_CFG_TODSEL n == 1) tod ≤ 1
  dup && (upTo 8).all (fun n => shadow F.REF_LANE_CFG_KIND n != 2 ||
    (decide (1000 ≤ shadow F.REF_LANE_NOM_NOM_HZ n) && decide (shadow F.REF_LANE_NOM_NOM_HZ n ≤ 800000000)))

end Channel
end Sys2Proof.Machine
end

