-- ==== Sys2Proof/Machine/DpllOps.lean ====
section
/-! DEFINITION. The DPLL block: bandwidth codes, the two servos, the channel time state, holdover, steps, characterization
and the counter advance (R122 to R147). -/
namespace Sys2Proof.Machine

/-! ### Bandwidth codes and servo constants (R130, R131) -/

/-- The largest m of the interval given with (2m − 1)^2048 ≤ 2^(32·2048 + f), by bisection. -/
def powSearch (f : Nat) : Nat → Nat → Nat → Nat
  | 0, lo, _ => lo
  | n + 1, lo, hi =>
    let m := (lo + hi + 1) / 2
    if (2 * m - 1) ^ 2048 ≤ 2 ^ (32 * 2048 + f) then powSearch f n m hi else powSearch f n lo (m - 1)

/-- POW2[f] of R130: 2^31 × 2^(f/2048) rounded to nearest, halves up. -/
def pow2Tab (f : Nat) : Nat := powSearch f 34 (2 ^ 31) (2 ^ 32)

/-- bw_q of R130. -/
def bwQ (k : Nat) : Nat := pow2Tab (k % 2048) * 2 ^ (k / 2048)

/-- The constants of R131, rounded to the nearest integer. -/
def kpC : Int := 38164073839
def kiC : Int := 169558512509
def kbC : Int := 26986075409

/-- w_of of R131: bandwidth times dt in cycles. -/
def wOf (k : Nat) (dt : Int) : Int := Int.fdiv (bwQ k * dt) (1000 * 2 ^ 63)

/-- The least number of TEB LSBs that holds a magnitude: ax of R131. -/
def axOf (x : Int) : Nat := (x.natAbs + (2 ^ 24 - 1)) / 2 ^ 24

/-- fb_over of R132 on an oldest and a newest entry. -/
def fbOver (o n : RingEnt) : Bound :=
  let span := n.refTs - o.refTs
  if span < 2 ^ 64 ∨ o.teb ≥ SAT ∨ n.teb ≥ SAT then SAT
  else
    let d := axOf (n.offset - o.offset)
    satCap (ceilDiv ((o.teb + n.teb + d) * 2 ^ 72) span.toNat)

/-- The bound of a window of ring entries, newest first. -/
def fbWindow : List RingEnt → Bound
  | [] => SAT
  | n :: r => fbOver (r.getLastD n) n

namespace Channel

def setDpll (c : Channel) (d : DpllSt) : Channel := { c with dpll := d }

/-- Every change of the channel time state is journaled and sets EVT.STATE (R134). -/
def stateTo (c : Channel) (st : ChanSt) : Channel :=
  let old := c.dpll.st
  let c1 := c.setDpll { c.dpll with st := st }
  if old = st then c1 else (c1.journal (.state .a (chanCode old) (chanCode st) c1.teb)).evt F.DPLL_EVT_STATE

/-- A change of B_STATE, journaled with EVT.BSTATE (R123, R143). -/
def bStateTo (c : Channel) (st : BSt) : Channel :=
  let old := c.dpll.bst
  let c1 := c.setDpll { c.dpll with bst := st }
  if old = st then c1 else (c1.journal (.state .b (bCode old) (bCode st) c1.teb)).evt F.DPLL_EVT_BSTATE

/-- Loads i within its clamp, with EVT.ICLAMP at the clamp (R131). -/
def setRate (c : Channel) (v : Int) : Channel :=
  let r := clampAbs (2 ^ 50) v
  let c1 := c.setDpll { c.dpll with rate := r }
  if r.natAbs = 2 ^ 50 then c1.evt F.DPLL_EVT_ICLAMP else c1

/-- The counter, and K of R78 with it, moved by a step in 2^-64 s (R131, R140). -/
def moveCtr (c : Channel) (delta : Gt) : Channel :=
  c.setDpll { c.dpll with ctr := c.dpll.ctr + delta * 2 ^ 32, kCum := c.dpll.kCum + delta * 2 ^ 32 }

/-- The cellar book entry of a step or initial set (R141). -/
def bookStep (c : Channel) (org : Origin) (delta : Gt) : Channel :=
  c.bookState org .dpll (DPLL_TIME 2) (wordOf delta 2) (wordOf delta 1)

/-- Takes a record into the two bound rings (R132). The second of the entry is that of its REF_TS. -/
def ringAdd (c : Channel) (e : RingEnt) : Channel :=
  let d := c.dpll
  let sec (x : RingEnt) : Int := sar x.refTs 64
  let short := match d.short with
    | [] => [e]
    | n :: _ => if sec n < sec e then (e :: d.short).take 1024 else d.short
  let long := match d.long with
    | [] => [e]
    | n :: _ => if Int.fdiv (sec n) 1024 < Int.fdiv (sec e) 1024 then (e :: d.long).take 1024 else d.long
  c.setDpll { d with short := short, long := long }

/-- The entries of the short ring within FWIN of its newest (R132). -/
def shortWindow (c : Channel) : List RingEnt :=
  match c.dpll.short with
  | [] => []
  | n :: _ => c.dpll.short.filter (fun e => decide (n.refTs - (c.fld F.DPLL_FWIN_FWIN : Int) * 2 ^ 64 ≤ e.refTs))

/-- The drain allowance dal of R131. -/
def dal (c : Channel) : Bound :=
  satCap (ceilDiv (c.smax.toNat * c.fld F.DPLL_A_CFG_APPLY_DLY) (2 ^ 56))

/-- How a servo takes a record under R126: not at all, as an ordinary record, or as the first record of the new lane after a
switch. -/
def takes (c : Channel) (s : Servo) (r : MeasRec) : Option Bool :=
  let x := c.sel s
  match x.sw with
  | some sw =>
    match sw.bnd with
    | none => if x.prev = some r.lane then some false else none
    | some b =>
      if x.cur = some r.lane ∧ b ≤ r.refTs then some true
      else if sw.old = some r.lane ∧ r.refTs < b then some false else none
  | none => if x.prev = some r.lane then some false else none

/-- SW clears when the first record of the new lane is applied (R88). -/
def switchDone (c : Channel) (s : Servo) : Channel := c.setSel s { c.sel s with sw := none }

/-- Whether a record may not move the counter or the rate: a saturated record of L8 (R114). All else of its update stands. -/
def inert (r : MeasRec) : Bool := r.lane == 8 && decide (r.teb ≥ SAT)

/-- The state transitions of an update (R134), with BWC already narrowed. -/
def updateState (c : Channel) (ax : Nat) : Channel :=
  let d := c.dpll
  match d.st with
  | .acquiring =>
    if !d.sl ∧ ax ≤ c.fld F.DPLL_LOCK_TH_LOCK_TH ∧ d.fb < SAT then
      if d.lockCnt + 1 ≥ max 1 (c.fld F.DPLL_ADAPT_LOCK_N) then
        c.setDpll { d with hoValid := true, unlockCnt := 0, lockCnt := d.lockCnt + 1, st := .locked }
      else c.setDpll { d with lockCnt := d.lockCnt + 1 }
    else c.setDpll { d with lockCnt := 0 }
  | .locked =>
    if ax > c.fld F.DPLL_UNLOCK_TH_UNLOCK_TH then
      if d.unlockCnt + 1 ≥ max 1 (c.fld F.DPLL_ADAPT_UNLOCK_N) then
        c.setDpll { d with bwc := c.fld F.DPLL_BW_A_BW_ACQ, lockCnt := 0, unlockCnt := d.unlockCnt + 1, st := .acquiring }
      else c.setDpll { d with unlockCnt := d.unlockCnt + 1 }
    else c.setDpll { d with unlockCnt := 0 }
  | _ => c

/-- apply_a of R131, with the narrowing and the transitions of R134 and the return of R138. -/
def applyA (c : Channel) (r : MeasRec) : Channel :=
  let d0 := c.dpll
  let first := d0.first || (match d0.lastTs with | some l => decide (r.refTs ≤ l) | none => false)
  let hold := inert r
  let iset := !hold && !d0.trace && c.flag F.DPLL_A_CFG_SET_EN && decide (r.offset > 0)
  let x : Int := if iset then 0 else r.offset
  let ax := axOf x
  let slTh := c.fld F.DPLL_SL_TH_SL_TH
  -- the initial set, or its refusal
  let c1 :=
    if iset then
      let c0 := c.moveCtr r.offset
      (({ c0 with syn := { c0.syn with ots := c0.syn.ots + r.offset * 2 ^ 32 } }).bookStep (c.policyOrg .dpll) r.offset).evt F.DPLL_EVT_STEP
    else if !d0.trace && decide (x < 0) && decide (ax > slTh) then c.evt F.DPLL_EVT_BACKN else c
  -- narrowing, before the gains (R134)
  let bwc := if d0.st = .locked ∧ ax ≤ c.fld F.DPLL_UNLOCK_TH_UNLOCK_TH
    then max (c.fld F.DPLL_BW_A_BW_LOCK) (d0.bwc - c.fld F.DPLL_ADAPT_NARROW) else d0.bwc
  let sl := if ax > slTh then true else if ax ≤ c.fld F.DPLL_LOCK_TH_LOCK_TH then false else d0.sl
  let c2 := c1.setDpll { c1.dpll with bwc := bwc, sl := sl }
  let c3 :=
    if hold then c2
    else if sl then c2.setDpll { c2.dpll with pend := x * 2 ^ 32 }
    else if first then c2
    else
      match d0.lastTs with
      | none => c2
      | some l =>
        let dt := r.refTs - l
        let w := wOf bwc dt
        let kp := min (sar (kpC * w) 32) (2 ^ 32)
        let ki := min (sar (kiC * w * w) 64) kp
        let c0 := c2.setDpll { c2.dpll with pend := c2.dpll.pend + sar (kp * (x * 2 ^ 32)) 32 }
        c0.setRate (c0.dpll.rate + Int.fdiv (ki * x * 2 ^ 32) dt)
  let c4 := c3.ringAdd ⟨r.refTs, x, r.teb⟩
  let f := fbWindow c4.shortWindow
  let teb0 := satAdd (satAdd r.teb (satCap ax)) c4.dal
  let d4 := c4.dpll
  let c5 := c4.setDpll { d4 with
    first := false, lastTs := some (match d0.lastTs with | some l => max l r.refTs | none => r.refTs),
    teb0 := teb0, t0 := r.refTs,
    fb := if f ≥ SAT then SAT else satAdd f (c4.fld F.DPLL_FB_WANDER_FB_WANDER),
    lfb := fbWindow d4.long,
    tag := tagSet (tagSet r.tag 7 false) 4 sl,
    trace := d4.trace || decide (teb0 < SAT),
    hoAct := false, cwEnd := 0 }
  let c6 := if sl ≠ d0.sl then c5.evt F.DPLL_EVT_SL else c5
  let c7 := c6.updateState ax
  let d := c7.dpll
  let c8 := c7.journal (.servoA x d.pend d.rate d.t0 d.teb0 d.fb d.lfb d.tag r.jseq d.bwc d.st d.sl iset)
  (c8.setDpll { c8.dpll with st := d0.st }).stateTo d.st

/-- apply_b of R133. -/
def applyB (c : Channel) (r : MeasRec) : Channel :=
  let d := c.dpll
  let first := d.firstB || d.bst == .hold || (match d.lastTsB with | some l => decide (r.refTs ≤ l) | none => false)
  let f := r.freq + d.rate
  let rb0 := c.rateBNow
  let rb :=
    if inert r then rb0
    else if d.bst = .free then f
    else if first then rb0
    else match d.lastTsB with
      | none => rb0
      | some l =>
        let w := wOf (c.fld F.DPLL_B_CFG_BW_B) (r.refTs - l)
        let kb := min (sar (kbC * w) 32) (2 ^ 32)
        rb0 + sar (kb * (f - rb0)) 32
  let c1 := c.setDpll { d with
    rateB := rb, firstB := false, fbB := r.fb,
    lastTsB := some (match d.lastTsB with | some l => max l r.refTs | none => r.refTs) }
  (c1.journal (.servoB rb r.fb .track r.jseq)).bStateTo .track

/-- The first due record of a waiting list in the order of R127. -/
def nextDue (c : Channel) (ws : List MeasRec) : Option MeasRec :=
  (ws.filter (fun r => c.reached (c.applyAt r))).foldl
    (fun a r => match a with | none => some r | some b => if recBefore r b then some r else some b) none

/-- Applies the first due record that servo `s` may take, dropping the due records before it that it may not take (R126). The
fuel is the number of waiting records. -/
def applyNext (s : Servo) : Nat → Channel → Channel
  | 0, c => c
  | n + 1, c =>
    let ws := match s with | .a => c.dpll.waitA | .b => c.dpll.waitB
    match c.nextDue ws with
    | none => c
    | some r =>
      let ws' := ws.filter (fun x => x != r)
      let c1 := match s with
        | .a => c.setDpll { c.dpll with waitA := ws' }
        | .b => c.setDpll { c.dpll with waitB := ws' }
      match c1.takes s r, s with
      | none, _ => applyNext s n c1
      | some false, .a => c1.applyA r
      | some false, .b => c1.applyB r
      | some true, .a => ((c1.switchDone .a).setDpll { c1.dpll with first := true }).applyA r
      | some true, .b => ((c1.switchDone .b).setDpll { c1.dpll with firstB := true }).applyB r

/-- One application of DPLL_A (R127, R131). -/
def servoA (c : Channel) : Channel := applyNext .a c.dpll.waitA.length c
/-- One application of DPLL_B (R127, R133). -/
def servoB (c : Channel) : Channel := applyNext .b c.dpll.waitB.length c
/-- Every application of this tick, DPLL_A first (R127, step 1). -/
def applyAll (c : Channel) : Channel :=
  let c1 := iter servoA c.dpll.waitA.length c
  iter servoB c1.dpll.waitB.length c1

/-! ### Channel time states (R134 to R138) -/

/-- A channel with a lane enters ACQUIRING (R134). -/
def acquireStart (c : Channel) : Channel :=
  match c.dpll.st with
  | .freerun | .holdover | .holdoverLimit =>
    if c.ref.selA.prev.isSome then
      (c.setDpll { c.dpll with bwc := c.fld F.DPLL_BW_A_BW_ACQ, first := true, lockCnt := 0 }).stateTo .acquiring
    else c
  | _ => c

/-- Holdover entry (R135) at channel time `entry` with bound `h`. -/
def enterHo (c : Channel) (entry : Gt) (h : Bound) : Channel :=
  let fb := c.fbNow
  (c.setDpll { c.dpll with
    tebH := h, hoEntry := entry, bEff := satAdd c.hoCoef.1 (min fb c.dpll.lfb), hoAct := true, cwEnd := 0, agedAt := none }).stateTo .holdover

/-- DPLL_A without a lane leaves ACQUIRING or LOCKED (R134). -/
def loseLaneA (c : Channel) : Channel :=
  match c.dpll.st with
  | .acquiring | .locked =>
    if c.ref.selA.prev.isSome then c
    else if c.dpll.hoValid then c.enterHo c.now c.teb
    else (c.setDpll { c.dpll with teb0 := SAT }).stateTo .freerun
  | _ => c

/-- DPLL_B without a lane enters HOLD (R123). -/
def loseLaneB (c : Channel) : Channel :=
  if c.dpll.bst = .track ∧ c.ref.selB.prev.isNone then
    (c.setDpll { c.dpll with firstB := true }).bStateTo .hold
  else c

/-- HOLDOVER_ENTRY of both servos. -/
def holdoverEntry (c : Channel) : Channel := c.loseLaneA.loseLaneB

/-- The last channel time in the span of this tick (R29). -/
def spanEndT (c : Channel) : Gt := sar (c.ctrAfter 1 - 1) 32

/-- The ceiling of R134, in the tick that contains the instant at which the bound passes it (R29). -/
def limitEntry (c : Channel) : Channel :=
  if c.dpll.st = .holdover ∧ c.dpll.hoAct ∧ c.tebHo (c.hoSecs c.spanEndT) > c.fld F.DPLL_HO_CEIL_CEIL then
    (c.evt F.DPLL_EVT_LIMIT).stateTo .holdoverLimit
  else c

/-- The first multiple of 2^-96 × `unit` at or after a counter value. -/
def nextUnit (ctr unit : Int) : Int := -(Int.fdiv (-ctr) unit)

/-- How many whole seconds of channel time the span of this tick holds: a step in it may pass several (R29). -/
def secondsHere (c : Channel) : Nat := (nextUnit (c.ctrAfter 1) (2 ^ 96) - nextUnit c.dpll.ctr0 (2 ^ 96)).toNat

/-- The first whole second of channel time that this tick holds, if any (R29). -/
def secondHere (c : Channel) : Option Int := if c.secondsHere = 0 then none else some (nextUnit c.dpll.ctr0 (2 ^ 96))

/-- HO_AGE in use, signed. -/
def hoAge (c : Channel) : Int := ofWords [c.useWord .dpll DPLL_HO_AGE_LO, c.useWord .dpll DPLL_HO_AGE_HI]

/-- The aging increment of R135, once for each whole second that the tick holds. -/
def hoAging (c : Channel) : Channel :=
  if c.secondsHere ≠ 0 ∧ (c.dpll.st = .holdover ∨ c.dpll.st = .holdoverLimit) ∧ c.flag F.DPLL_A_CFG_AGE_EN ∧
      c.dpll.agedAt ≠ some c.jour.tick then
    let c1 := c.setRate (c.dpll.rate + c.secondsHere * c.hoAge)
    c1.setDpll { c1.dpll with agedAt := some c.jour.tick }
  else c

/-! ### Characterization (R139) -/

/-- The result of characterize of R139: age, b, c. -/
def characterize (ss : List (Int × Int)) : Int × Nat × Nat :=
  let n := ss.length / 2
  let a1 := ss.take n
  let a2 := ss.drop (ss.length - n)
  let mean (f : Int × Int → Int) (xs : List (Int × Int)) : Int := Int.fdiv (xs.foldl (fun a p => a + f p) 0) n
  let m1 := mean Prod.snd a1
  let t1 := mean Prod.fst a1
  let m2 := mean Prod.snd a2
  let t2 := mean Prod.fst a2
  let age := Int.fdiv (m2 - m1) (t2 - t1)
  let dev := ss.foldl (fun a p => max a (p.2 - m1 - age * (p.1 - t1)).natAbs) 0
  (age, (dev + 0xFFFF) / 2 ^ 16, 128 * ceilDiv (2 * dev) (t2 - t1).toNat)

/-- The CMD entry of the start or end of a characterization (R143). -/
def charJournal (c : Channel) (org : Origin) (v : Nat) : Channel :=
  c.journal (.cmd (winReg c.ix .dpll DPLL_LRN_STAT) (BitVec.ofNat 32 v) org.code none)

/-- Starts a characterization for a command slot (R139). -/
def charStart (c : Channel) (slot nsamp : Nat) (org : Origin) : Channel :=
  let next := (Int.fdiv (sar c.now 64) 1024 + 1) * 1024
  (c.setDpll { c.dpll with char := some ⟨slot, nsamp, next, [], 0, false, org⟩ }).charJournal org (2 ^ 31 + nsamp)

/-- Ends the characterization with a RESULT code, journaled (R139, R143). -/
def charEnd (c : Channel) (result : Nat) : Channel :=
  match c.dpll.char with
  | none => c
  | some o => (c.setDpll { c.dpll with char := none }).charJournal o.org (result * 2 ^ 16 + o.samples.length)

/-- A sample instant of a running characterization (R139). -/
def charSample (c : Channel) : Channel :=
  match c.dpll.char with
  | none => c
  | some o =>
    if !c.reached (o.next * 2 ^ 64) then c
    else
      let o1 := { o with next := o.next + 1024 }
      if o.suspended then c.setDpll { c.dpll with char := some o1 }
      else if c.dpll.st = .locked then
        let ss := o.samples ++ [(o.next, c.dpll.rate)]
        let c1 := c.setDpll { c.dpll with char := some { o1 with samples := ss, missed := 0 } }
        if ss.length < o.nsamp then c1
        else
          let (age, b, cc) := characterize ss
          let c2 := ((c1.put F.DPLL_LRN_B_B (min b SAT)).put F.DPLL_LRN_C_C (min cc SAT)).setWord .dpll (DPLL_LRN_AGE 0) (wordOf age 0)
          let c3 := (c2.setWord .dpll (DPLL_LRN_AGE 1) (wordOf age 1)).put F.DPLL_LRN_STAT_VALID 1
          let c4 := (c3.put F.DPLL_LRN_STAT_SAMPLES ss.length).evt F.DPLL_EVT_CHAR
          (c4.charEnd 0).ask (.opEnd o.slot 0 0)
      else if o.missed + 1 ≥ 16 then
        (((c.setDpll { c.dpll with char := some { o1 with missed := o.missed + 1 } }).evt F.DPLL_EVT_CHAR).charEnd 9).ask (.opEnd o.slot 9 0)
      else c.setDpll { c.dpll with char := some { o1 with missed := o.missed + 1 } }

/-! ### Operator time steps (R140, R141) -/

/-- STEP_VAL, signed. -/
def stepVal (c : Channel) : Gt := ofWords ((upTo 4).map (fun k => c.word .dpll (DPLL_STEP_VAL k)))

/-- The effects of a step (R141). -/
def doStep (c : Channel) (delta : Gt) (org : Origin) : Channel :=
  let d := c.dpll
  let gain := satCap (axOf delta)
  let n := d.waitA.length + countIf (fun r => !d.waitA.contains r) d.waitB
  let c1 := (c.moveCtr delta).setDpll { (c.moveCtr delta).dpll with
    teb0 := if d.hoAct then d.teb0 else satAdd d.teb0 gain,
    tebH := if d.hoAct then satAdd d.tebH gain else d.tebH,
    waitA := [], waitB := [], short := [], long := [] }
  let c2 := (c1.bumpBy F.DPLL_LATE_CNT_STEPPED n).journal
    (.cmd (winReg c.ix .dpll DPLL_STEP_CMD) (c.word .dpll DPLL_STEP_CMD) org.code (some delta))
  (c2.bookStep org delta).evt F.DPLL_EVT_STEP

/-- STEP_CMD.GO (R140). -/
def stepGo (c : Channel) (org : Origin) : Channel :=
  if c.dpll.stepWait.isSome then c.evt F.DPLL_EVT_STEP_REJ
  else if c.cur F.DPLL_STEP_CMD_ABS = 1 then
    (c.setDpll { c.dpll with stepWait := some (sar c.now 64 + 1, c.stepVal, org) }).put F.DPLL_STEP_CMD_WAIT 1
  else c.setDpll { c.dpll with stepNext := some (c.stepVal, org) }

/-- STEP_CMD.ABORT (R140). -/
def stepAbort (c : Channel) : Channel :=
  if c.dpll.stepWait.isSome then (c.setDpll { c.dpll with stepWait := none }).put F.DPLL_STEP_CMD_WAIT 0
  else c.evt F.DPLL_EVT_STEP_REJ

/-- An armed ABS step in the tick in which the counter reaches S (R140). -/
def stepAbs (c : Channel) : Channel :=
  match c.dpll.stepWait with
  | none => c
  | some (s, v, org) =>
    if c.reached (s * 2 ^ 64) then
      let c1 := (c.setDpll { c.dpll with stepWait := none }).put F.DPLL_STEP_CMD_WAIT 0
      c1.doStep ((sar v 64 - s) * 2 ^ 64) org
    else c

/-! ### The counter advance (R128, R151) -/

/-- rmax of R151 for a slew limit in ps/s. -/
def rmax (c : Channel) : Int := smaxOf (c.cur F.SYN_RA_SLEW_RA_SLEW)

/-- A switch decided in the tick that ends takes the start of the next tick as its boundary (R88). -/
def fillBound (x : SelSt) (t : Gt) : SelSt :=
  { x with prev := x.out, sw := match x.sw with | some ⟨o, none⟩ => some ⟨o, some t⟩ | y => y }

/-- What the reference of SYNk advances in a tick, in 2^-64 of a nominal 5 ns (R149): the ratio is taken against the nominal MOSC
frequency, and DPLL_B multiplies it by 1 + RATE_B × 2^-64. -/
def refInc (c : Channel) (k : Nat) : Int := 2 ^ 64 + (if c.fld (F.SYN_SYN_CFG_FOLLOW k) = 2 then c.rateBNow else 0)

/-- The advance of the counter, of OTS and of the synthesizers' references (R128, R149, R151). -/
def advanceTime (c : Channel) : Channel :=
  let d := c.dpll
  let dr := clampAbs c.smax d.pend
  let ctr := d.ctr + c.rateStep + dr
  let o1 := c.syn.ots + c.rateStep + (if d.sl then 0 else dr)
  let act := match c.syn.raFrom with | some f => decide (f ≤ c.jour.tick) | none => false
  let o2 := if act then o1 + clampAbs c.rmax (ctr - o1) else o1
  { c with
    dpll := { d with ctr := ctr, pend := d.pend - dr, kCum := d.kCum + dr },
    syn := { c.syn with
      ots := o2, raFrom := if act && o2 == ctr then none else c.syn.raFrom,
      k0 := { c.syn.k0 with ph := c.syn.k0.ph + c.refInc 0 }, k1 := { c.syn.k1 with ph := c.syn.k1.ph + c.refInc 1 } } }

/-- The end of a tick: the counters advance, what belongs to the tick alone is dropped, and values due with the next tick are in use. -/
def advance (c0 : Channel) : Channel :=
  let c := c0.advanceTime
  let t := sar c.dpll.ctr 32
  { c with
    regs := c.regs.endTick,
    dpll := { c.dpll with ctr0 := c.dpll.ctr },
    syn := { c.syn with ots0 := c.syn.ots },
    scale := { c.scale with old := none },
    jour := { c.jour with tick := c.jour.tick + 1 },
    ref := { c.ref with selA := fillBound c.ref.selA t, selB := fillBound c.ref.selB t } }

/-- A relative step that waits for this tick, after the tick's applications (R127, R140). -/
def stepDue (c : Channel) : Channel :=
  match c.dpll.stepNext with
  | none => c
  | some (v, org) =>
    let c1 := c.applyAll
    (c1.setDpll { c1.dpll with stepNext := none }).doStep v org

/-- The start of a tick: the records whose latency ends are registered (R75, R81), then a relative step is taken (R140). -/
def beginTick (c : Channel) (sync : LaneIx → Nat) : Channel := (c.registerDue sync).stepDue

/-- The checks of R146 on the shadows. -/
def dpllCommitOk (c : Channel) : Bool :=
  let q := c.cur
  decide (q F.DPLL_BW_A_BW_ACQ ≤ 44915) && decide (q F.DPLL_BW_A_BW_LOCK ≤ 44915) && decide (q F.DPLL_B_CFG_BW_B ≤ 44915) &&
  decide (q F.DPLL_BW_A_BW_LOCK ≤ q F.DPLL_BW_A_BW_ACQ) &&
  decide (q F.DPLL_LOCK_TH_LOCK_TH ≤ q F.DPLL_UNLOCK_TH_UNLOCK_TH) && decide (q F.DPLL_UNLOCK_TH_UNLOCK_TH ≤ q F.DPLL_SL_TH_SL_TH) &&
  decide (1 ≤ q F.DPLL_A_SLEW_SLEW) && decide (q F.DPLL_A_SLEW_SLEW ≤ 1000000) &&
  decide (1 ≤ q F.DPLL_FWIN_FWIN) && decide (q F.DPLL_FWIN_FWIN ≤ 1024) && decide (q F.DPLL_A_CFG_APPLY_DLY ≠ 0)

end Channel
end Sys2Proof.Machine
end

