-- ==== Sys2Proof/Machine/SrcOps.lean ====
section
/-! DEFINITION. The records of the reference inputs L0 to L7: edges, ToD sentences and frequency intervals (R45, R67 to R75). -/
namespace Sys2Proof.Machine

/-- A record before its registration: SEQ, STEP, BACKWARD and the calibration of R474 are the registration's. -/
def rawRec (n : LaneIx) (refTs : Gt) (k : Int) (iv : Iv) (freq : Int) (fb : Bound) (tag : Word) (ph fr : Bool) (mpd : Option Int) : MeasRec :=
  ⟨refTs, iv.t, freq, iv.h, fb, tag, 0, n, ph, fr, false, false, mpd, k, 0⟩

namespace Channel

/-- Term 3 of R45 for a REFIN lane (R68). -/
def refinTerms (c : Channel) (n : LaneIx) (x : Iv) : Iv :=
  x.shift (c.sfld (F.REF_LANE_CDLY_CDLY n.val)) (c.fld (F.REF_LANE_CBUD_CBUD n.val))

def kind (c : Channel) (n : LaneIx) : Nat := c.fld (F.REF_LANE_CFG_KIND n.val)

/-- FREQ and FB of a pulse record, which the spec does not state: free values. -/
def freePulse (c : Channel) : (Int × Bound) × Channel :=
  let (a, c1) := c.free 64
  let (b, c2) := c1.free 32
  ((signed 64 a, b), c2)

/-- A rising edge of REFINn at `ps` picoseconds into the tick (R67, R68, R74, R75). -/
def refinEdge (c : Channel) (n : LaneIx) (ps : Nat) : Channel :=
  if decide (8 ≤ n.val) || !(c.lane n).exist then c
  else
    let (t, k) := c.stampAt ps
    match c.kind n with
    | 0 =>
      let h := satAdd 110 (budTerm (c.fld (F.REF_LANE_SBUD_SBUD n.val)))
      let iv := c.refinTerms n ⟨-t, h⟩
      let (ff, c1) := c.freePulse
      c1.measure 800 (rawRec n t k iv ff.1 ff.2 (tagLane n.val) true false none)
    | 1 => c.updLane n (fun l => { l with edges := ⟨t, k, c.jour.tick, false⟩ :: l.edges.filter (fun e => !e.labelled) })
    | _ => c

/-- The lane that takes its sentences from receiver `k` (R69). -/
def todLane (c : Channel) (k : Nat) : Option LaneIx :=
  allLanes.find? (fun n => decide (n.val < 8) && (c.lane n).exist && c.kind n == 1 &&
    c.fld (F.REF_LANE_CFG_TODSEL n.val) == k)

/-- Whether a sentence is well formed (R70, R71). -/
def todValid (bs : Bytes) : Bool :=
  bs.length == 28 && fromBe (slice bs 0 2) == 0xC53A && fromBe (slice bs 2 1) == 0x01 && fromBe (slice bs 3 1) == 0x1C &&
  crc16 (slice bs 0 26) == fromBe (slice bs 26 2)

/-- A sentence on receiver `k` whose last stop bit is registered in this tick, and whose first start bit was registered `ago`
ticks before (R70 to R72): it labels the lane's most recent edge. A second valid sentence for an edge, and one on a receiver that no lane
names, count as BAD (notes/assumptions/98.md). -/
def todSentence (c : Channel) (k : Nat) (bs : Bytes) (ago : Nat) : Channel :=
  if !c.flag (F.REF_TODI_CFG_EN k) then c
  else
    let now := c.jour.tick
    match c.todLane k with
    | none => c.bump (F.REF_TODI_STAT_BAD k)
    | some n =>
      match (c.lane n).edges with
      | e :: older =>
        if todValid bs && !e.labelled && decide (e.tick + 180000 ≤ now - ago) && decide (now - ago ≤ e.tick + 100020000) &&
            decide (now ≤ e.tick + 198000000) then
          let flags := BitVec.ofNat 32 (fromBe (slice bs 12 1))
          let utc : Int := if bit flags 7 then signed 16 (fromBe (slice bs 10 2)) else 0
          let ref : Gt := ((fromBe (slice bs 4 6) : Int) + utc) * 2 ^ 64 + pointOfPs (signed 32 (fromBe (slice bs 18 4)))
          let src := if bit flags 5 then fromBe (slice bs 14 4) else budTerm (c.fld (F.REF_LANE_SBUD_SBUD n.val))
          let iv := c.refinTerms n ⟨ref - e.t, satAdd 110 src⟩
          let c0 := (c.bump (F.REF_TODI_STAT_GOOD k)).updLane n (fun l => { l with edges := { e with labelled := true } :: older })
          let (ff, c1) := c0.freePulse
          c1.measure 800 (rawRec n e.t e.k iv ff.1 ff.2 (tagSet (tagLane n.val) 7 (bit flags 6)) false false none)
        else (c.bump (F.REF_TODI_STAT_BAD k)).evt (F.REF_LANE_STAT_SENT_ERR n.val)
      | [] => (c.bump (F.REF_TODI_STAT_BAD k)).evt (F.REF_LANE_STAT_SENT_ERR n.val)

/-- The record of an edge without a valid sentence (R71, R75). -/
def todUnlabelled (n : LaneIx) (c : Channel) (e : TodEdge) : Channel :=
  let iv := c.refinTerms n ⟨-e.t, satAdd 110 (budTerm (c.fld (F.REF_LANE_SBUD_SBUD n.val)))⟩
  let (ff, c1) := c.freePulse
  c1.measure 0 (rawRec n e.t e.k iv ff.1 ff.2 (tagLane n.val) true false none)

/-- 990 ms after an edge without a valid sentence: its PHASE_ONLY record, for this tick to register. -/
def todWindowEnd (c : Channel) (n : LaneIx) : Channel :=
  let due (e : TodEdge) : Bool := !e.labelled && decide (e.tick + 198000000 ≤ c.jour.tick)
  let es := (c.lane n).edges
  (es.reverse.filter due).foldl (todUnlabelled n) (c.updLane n (fun l => { l with edges := es.filter (fun e => !due e) }))

/-- The first multiple of 1/`per` s of channel time that this tick holds, in 2^-64 s rounded down (R29). -/
def multipleHere (c : Channel) (per : Nat) : Option Gt :=
  let m := nextUnit (c.dpll.ctr0 * per) (2 ^ 96)
  if m * 2 ^ 96 < c.ctrAfter 1 * per then some (Int.fdiv (m * 2 ^ 64) per) else none

/-- A 100 ms boundary of a FREQ lane: the measured frequency against the channel timescale and the phase (R67, R68, R74, R75). -/
def freqBoundary (c : Channel) (n : LaneIx) (freq off : Int) : Channel :=
  if decide (8 ≤ n.val) || !(c.lane n).exist || c.kind n != 2 then c
  else match c.multipleHere 10 with
    | none => c
    | some t =>
      c.measure 200000 (rawRec n t (c.kAt t) ⟨(c.refinTerms n ⟨off, SAT⟩).t, SAT⟩ freq 563200 (tagLane n.val) false true none)

end Channel
end Sys2Proof.Machine
end

