-- ==== Sys2Proof/Machine/PortOps.lean ====
section
/-! DEFINITION. The PORT block: link states, stamps and their ring, the records of lanes L9 to L12, and ESMC (R173 to R197). -/
namespace Sys2Proof.Machine

def LK_DISABLED : Nat := 0
def LK_AN : Nat := 1
def LK_TRAIN : Nat := 2
def LK_ALIGN : Nat := 3
def LK_UP : Nat := 4

/-- K_I and K_E of R178 for a mode and an FEC code. -/
def latK (mode fec : Nat) : Nat × Nat :=
  match mode, fec with
  | 0, _ => (152340, 64820)
  | 1, _ => (152340, 64820)
  | 2, _ => (226180, 81460)
  | 3, _ => (226180, 81460)
  | 4, 0 => (38720, 31540)
  | 5, 0 => (38720, 31540)
  | 4, 1 => (96410, 36880)
  | 5, 1 => (96410, 36880)
  | 4, _ => (172650, 44030)
  | 5, _ => (172650, 44030)
  | _, 0 => (71230, 58610)
  | _, _ => (262590, 63270)

/-- Whether R173 allows an FEC code for a mode. -/
def fecAllowed (mode fec : Nat) : Bool :=
  match mode with
  | 0 | 1 | 2 | 3 => fec == 3
  | 4 | 5 => fec == 0 || fec == 1 || fec == 2
  | 6 => fec == 0 || fec == 1
  | _ => false

/-- The FEC of R175 for a resolved mode, from the requests of the two ends. -/
def fecResolved (mode own : Nat) (peerRs peerBr : Bool) : Nat :=
  if mode ≤ 3 then 3
  else if mode ≤ 5 then (if own = 2 ∧ peerRs then 2 else if own = 1 ∧ peerBr then 1 else 0)
  else if own = 1 ∧ peerBr then 1 else 0

/-- The bytes of a transmit stamp ring entry (R184). -/
def TsrEnt.bytes (e : TsrEnt) : Bytes :=
  leBytes 16 (unsigned 128 e.stamp) ++ leBytes 4 e.teb ++ leBytes 4 e.tag.toNat ++ leBytes 2 e.seqid ++ leBytes 1 e.msg ++
    leBytes 1 e.flags ++ leBytes 4 e.handle

/-- The lane of a port's PTP client (R189) and of its SyncE clock (R192). -/
def ptpLane (p : PortIx) : LaneIx := if p = 0 then 9 else 10
def synceLane (p : PortIx) : LaneIx := if p = 0 then 11 else 12

/-- An interval of 2^`log` s in ticks. -/
def logTicks (log : Int) : Nat :=
  match log with
  | .ofNat n => 200000000 * 2 ^ n
  | .negSucc n => 200000000 / 2 ^ (n + 1)

/-- An interval of 2^`log` s in 2^-64 s; intervals shorter than the resolution do not occur. -/
def logGt (log : Int) : Int :=
  match log with
  | .ofNat n => 2 ^ (64 + n)
  | .negSucc n => 2 ^ (64 - (n + 1))

namespace Channel

def ps (c : Channel) (p : PortIx) : PortSt := c.ports[p]
def setPs (c : Channel) (p : PortIx) (x : PortSt) : Channel := { c with ports := c.ports.set p x }
def updPs (c : Channel) (p : PortIx) (f : PortSt → PortSt) : Channel := c.setPs p (f (c.ps p))
def updLc (c : Channel) (p : PortIx) (f : LaneClient → LaneClient) : Channel := c.updPs p (fun x => { x with lc := f x.lc })
def lc (c : Channel) (p : PortIx) : LaneClient := (c.ps p).lc

def link (c : Channel) (p : PortIx) : Nat := c.cur (F.PORT_P_STAT_LINK p.val)
def portUp (c : Channel) (p : PortIx) : Bool := c.link p == LK_UP

/-- The expected interval of L9 and L10 in ticks (R76). -/
def syncIv (c : Channel) (n : LaneIx) : Nat :=
  let l := c.lc (if n = 9 then 0 else 1)
  match l.sync with
  | some g => logTicks g.log
  | none => match l.rxLog with | some g => logTicks g | none => 200000000

/-! ### Link states (R176) -/

/-- A change of the link state; entry to TRAIN starts its 500 ms. -/
def linkChange (c : Channel) (p : PortIx) (st : Nat) (timer : Option Nat) : Channel :=
  ((c.put (F.PORT_P_STAT_LINK p.val) st).evt (F.PORT_P_EVT_LINK p.val)).updPs p (fun x => { x with timer := timer })

/-- "Restart" of R176. Without negotiation the mode and FEC of CFG are the ones in force (R175). -/
def linkRestart (c : Channel) (p : PortIx) : Channel :=
  let q := p.val
  if c.flag (F.PORT_P_CFG_AN_EN q) then c.linkChange p LK_AN none
  else
    let c1 := (c.put (F.PORT_P_STAT_RMODE q) (c.fld (F.PORT_P_CFG_MODE q))).put (F.PORT_P_STAT_RFEC q) (c.fld (F.PORT_P_CFG_FEC q))
    if c.flag (F.PORT_P_CFG_LT_EN q) then c1.linkChange p LK_TRAIN (some (c.jour.tick + 100000000)) else c1.linkChange p LK_ALIGN none

/-- The highest common mode of Clause 73 (R175): the codes of R173 fall with the priority. -/
def commonMode (c : Channel) (p : PortIx) (peer : Nat) : Option Nat :=
  (upTo 7).find? (fun m => maskOpen (c.fld (F.PORT_P_ADV_ABIL p.val)) m && maskOpen peer m)

/-- Negotiation complete: `peer` holds the other end's modes by MODE code, `rs` and `br` its FEC requests. -/
def anComplete (c : Channel) (p : PortIx) (peer : Nat) (rs br : Bool) : Channel :=
  let q := p.val
  if c.link p ≠ LK_AN then c
  else match c.commonMode p peer with
    | none => c.evt (F.PORT_P_EVT_AN_NOCOMMON q)
    | some m =>
      let c1 := (c.put (F.PORT_P_STAT_RMODE q) m).put (F.PORT_P_STAT_RFEC q) (fecResolved m (c.fld (F.PORT_P_CFG_FEC q)) rs br)
      if c.flag (F.PORT_P_CFG_LT_EN q) then c1.linkChange p LK_TRAIN (some (c.jour.tick + 100000000)) else c1.linkChange p LK_ALIGN none

/-- Training complete: ALIGN with a 100 ms timer. -/
def trainComplete (c : Channel) (p : PortIx) : Channel :=
  if c.link p = LK_TRAIN then c.linkChange p LK_ALIGN (some (c.jour.tick + 20000000)) else c

/-- 500 ms in TRAIN. -/
def trainTimeout (c : Channel) (p : PortIx) : Channel :=
  if c.link p = LK_TRAIN ∧ expired c.jour.tick (c.ps p).timer then (c.linkRestart p).evt (F.PORT_P_EVT_LT_FAIL p.val) else c

/-- Block lock, deskew and FEC alignment held: UP, with V_I and V_E measured. -/
def alignLock (c : Channel) (p : PortIx) (vI vE : Int) : Channel :=
  if c.link p ≠ LK_ALIGN then c
  else
    let c1 := (c.linkChange p LK_UP none).updPs p (fun x => { x with vI := vI, vE := vE })
    (c1.put (F.PORT_P_STAT_LAT_VALID p.val) 1).evt (F.PORT_P_EVT_LAT p.val)

/-- Expiry of the ALIGN timer. -/
def alignTimeout (c : Channel) (p : PortIx) : Channel :=
  if c.link p = LK_ALIGN ∧ expired c.jour.tick (c.ps p).timer then c.linkRestart p else c

/-- A frame discarded between its commit and the plane (R225): counted, and its slots WASTED where its seal was still to be completed. -/
def discardFlight (p : PortIx) (c : Channel) (f : InFlight) : Channel :=
  if f.frame.host then c
  else
    let open' := match f.sealEnd with | some e => decide (c.jour.tick < e) | none => false
    if open' then wasted p c f.frame else c.pmuEvt 0x18 p

/-- A frame in flight at the loss of the link: counted, and its ring entry written with DROPPED (R185). -/
def dropFlight (p : PortIx) (c : Channel) (f : InFlight) : Channel :=
  if f.pass ≤ c.jour.tick then c
  else
    let c1 := discardFlight p (c.bump (F.PORT_P_CNT1_LINK_DROP p.val)) f
    match f.ring with
    | none => c1
    | some i => c1.updPs p (fun x => { x with ring := x.ring.map (fun e => if e.1 = i then (i, { e.2 with flags := e.2.flags ||| 2 }) else e) })

/-- Every frame committed but not yet past the plane is discarded (R185). -/
def dropFlights (c : Channel) (p : PortIx) : Channel := ((c.ps p).flight.foldl (dropFlight p) c).updPs p (fun x => { x with flight := [] })

/-- What leaving UP does beside the change of state (R176, R185): the end of the tick flushes the queues (R186, R237). -/
def leaveUp (c : Channel) (p : PortIx) : Channel :=
  if c.link p ≠ LK_UP then c
  else
    let c1 := (c.put (F.PORT_P_STAT_LAT_VALID p.val) 0).bump (F.PORT_P_STAT_FLAPS p.val)
    (c1.dropFlights p).updPs p (fun x => { x with lost := true })

/-- Loss of block lock or FEC alignment, or a high bit error rate. -/
def linkLoss (c : Channel) (p : PortIx) : Channel := if c.link p = LK_UP then (c.leaveUp p).linkRestart p else c

/-- What a commit does to a port (R176); `old` gives the values in use before it. -/
def portCommitted (old : Channel) (p : PortIx) (c0 : Channel) : Channel :=
  let q := p.val
  let c := if c0.flag (F.PORT_P_ESMC_RX_EN q) && !old.flag (F.PORT_P_ESMC_RX_EN q) then c0.updPs p (fun x => { x with qlAt := c0.jour.tick }) else c0
  let en := c.flag (F.PORT_P_CFG_EN q)
  let changed := [F.PORT_P_CFG_MODE q, F.PORT_P_CFG_FEC q, F.PORT_P_CFG_AN_EN q, F.PORT_P_CFG_LT_EN q, F.PORT_P_ADV_ABIL q].any
    (fun f => old.fld f != c.fld f)
  if c.link p = LK_DISABLED then (if en then c.linkRestart p else c)
  else if !en then (((c.leaveUp p).put (F.PORT_P_STAT_LAT_VALID q) 0).linkChange p LK_DISABLED none)
  else if changed then (c.leaveUp p).linkRestart p
  else c

/-- Whether R196 accepts a commit. -/
def portCommitOk (c : Channel) : Bool :=
  let w := (c.rf .port).before (kbRst .port)
  let get (f : KF) : Nat := getField (smGet (kbRst .port f.off) w f.off) f.lsb f.w
  decide (get F.PORT_CTL_TNK ≤ 1) && [0, 1].all (fun p =>
    let m := get (F.PORT_P_CFG_MODE p)
    let x := get (F.PORT_P_CFG_MAXF p)
    m != 7 && (get (F.PORT_P_CFG_AN_EN p) == 1 || fecAllowed m (get (F.PORT_P_CFG_FEC p))) && decide (64 ≤ x) && decide (x ≤ 9600))

/-! ### Stamps (R177 to R185) -/

def latConst (c : Channel) (p : PortIx) : Nat × Nat := latK (c.cur (F.PORT_P_STAT_RMODE p.val)) (c.cur (F.PORT_P_STAT_RFEC p.val))

/-- STAT.RXLAT and TXLAT: K + V + CAL of a port whose V is measured (R178). -/
def rxLat (c : Channel) (p : PortIx) : Int :=
  if c.cur (F.PORT_P_STAT_LAT_VALID p.val) = 1 then (c.latConst p).1 + (c.ps p).vI + c.sfld (F.PORT_P_ING_CAL_ING_CAL p.val) else 0
def txLat (c : Channel) (p : PortIx) : Int :=
  if c.cur (F.PORT_P_STAT_LAT_VALID p.val) = 1 then (c.latConst p).2 + (c.ps p).vE + c.sfld (F.PORT_P_EGR_CAL_EGR_CAL p.val) else 0

/-- A port stamp with its bound and tag, and the cumulative correction K at it (R78, R180, R181). -/
structure Stamp where
  t : Gt
  teb : Bound
  tag : Word
  k : Int
  deriving DecidableEq, Repr

/-- The ingress stamp of a frame whose symbol is detected `ps` picoseconds into this tick; `f` is F_I. -/
def stampIn (c : Channel) (p : PortIx) (ps : Nat) (f : Int) : Stamp :=
  let l := (c.latConst p).1 + (c.ps p).vI + f + c.sfld (F.PORT_P_ING_CAL_ING_CAL p.val)
  let r := c.stampAt ps
  let t := r.1 - pointOfPs l
  ⟨t, satAdd (c.tebAt t) (budTerm (c.fld (F.PORT_P_ING_BUD_ING_BUD p.val))), c.tagNow, r.2⟩

/-- L_E of a frame with frame part `f`. -/
def latEgr (c : Channel) (p : PortIx) (f : Int) : Int := (c.latConst p).2 + (c.ps p).vE + f + c.sfld (F.PORT_P_EGR_CAL_EGR_CAL p.val)

/-- The egress stamp of a frame committed `ps` picoseconds into this tick; `f` is F_E. -/
def stampOut (c : Channel) (p : PortIx) (ps : Nat) (f : Int) : Stamp :=
  let r := c.chanAt (psQ ps + pointOfPs (c.latEgr p f) * 2 ^ 32)
  ⟨r.1, satAdd (c.tebAt r.1) (budTerm (c.fld (F.PORT_P_EGR_BUD_EGR_BUD p.val))), c.tagNow, c.dpll.kCum + r.2⟩

/-- A stamp goes to the transmit stamp ring, or is counted when the ring is full (R184, R185). The index written. -/
def tsrWrite (c : Channel) (p : PortIx) (s : Stamp) (seqid msg fl : Nat) (handle : Option Nat) : Option Nat × Channel :=
  let q := p.val
  let w := c.cur (F.PORT_P_TSR_WPTR_WPTR q)
  if (w + 1) % 1024 = c.cur (F.PORT_P_TSR_RPTR_RPTR q) then
    (none, (c.bump (F.PORT_P_CNT0_TSR_OVF q)).evt (F.PORT_P_EVT_TSR_OVF q))
  else
    let h := match handle with | some h => (h, c) | none => c.free 32
    let x := h.2.ps p
    let e : TsrEnt := ⟨s.t, s.teb, s.tag, seqid % 65536, msg, b2n x.phase + fl, h.1 % 2 ^ 32⟩
    let c1 := h.2.setPs p { x with ring := smIns x.ring w e, phase := if w = 1023 then !x.phase else x.phase }
    (some w, c1.put (F.PORT_P_TSR_WPTR_WPTR q) (w + 1))

/-! ### Lanes L9 to L12 -/

/-- FREQ and FB of a record against the lane's previous one (R189). `missed` says that a Sync was missed between them. A first
record's FREQ, and both values when REF_TS did not advance, are not stated: free values. -/
def freqFb (c : Channel) (prev : Option LanePrev) (refTs : Gt) (offset : Gt) (k : Int) (teb : Bound) (missed : Bool) : (Int × Bound) × Channel :=
  match prev with
  | none =>
    let (f, c1) := c.free 64
    ((signed 64 f, SAT), c1)
  | some r =>
    let d := refTs - r.refTs
    if d ≤ 0 then
      let (f, c1) := c.free 64
      let (b, c2) := c1.free 32
      ((signed 64 f, b), c2)
    else
      let o := r.offset - sar (k - r.k) 32
      let fb := if missed ∨ teb ≥ SAT ∨ r.teb ≥ SAT then SAT else satCap (ceilDiv ((teb + r.teb) * 2 ^ 72) d.toNat)
      ((Int.fdiv ((offset - o) * 2 ^ 64) d, fb), c)

/-- A time in 2^-64 s floored to picoseconds. -/
def gtPs (t : Gt) : Int := Int.fdiv (t * 10 ^ 12) (2 ^ 64)

/-- The record that a completed Sync gives (R189 to R191): `t1` with its corrections, the ingress stamp `t2` with K, the
sequenceId, the received bound TLV's TEB and tag. -/
def ptpRecord (c : Channel) (p : PortIx) (t1 t2 : Gt) (k : Int) (seq : Nat) (tlv : Option (Bound × Word)) : Channel :=
  let q := p.val
  let l := c.lc p
  let n := ptpLane p
  let c0 := c.updLc p (fun l => { l with pairs := (t1, t2) :: l.pairs, pend := none })
  match l.mpd with
  | none => c0
  | some mpd =>
    if !(c.lane n).exist then c0
    else
      let ab := c.fld (F.PORT_P_ASYM_BUD_ASYM_BUD q)
      let raw := t1 + mpd - t2
      let off := if ab = SAT then raw else raw + pointOfPs (c.sfld (F.PORT_P_ASYM_ASYM q))
      let h1 := match tlv with
        | some _ => 4
        | none => let sb := c.fld (F.PORT_P_SBUD_SBUD q); if sb = SAT then SAT else satAdd 4 (budTerm sb)
      let h2 := match tlv with | some x => x.1 | none => 0
      let h4 := satAdd (satCap (tebOfPs (ceilDiv (c.fld (F.PORT_P_ING_BUD_ING_BUD q) + c.fld (F.PORT_P_EGR_BUD_EGR_BUD q)) 2))) 1
      let h5 := if ab = SAT then satCap (ceilDiv mpd.toNat (2 ^ 24)) else budTerm ab
      let teb := satAdd (satAdd (satAdd h1 h2) h4) h5
      let missed := match l.prev with | some r => decide (wrapInc 16 r.seq ≠ seq) | none => false
      let ff := c0.freqFb l.prev t2 off k teb missed
      let ho := match tlv with | some x => tagHo x.2 | none => false
      let tag := tagSet (tagLane n.val) 7 ho
      let c1 := ff.2.updLc p (fun l => { l with prev := some ⟨t2, off, k, teb, seq⟩ })
      c1.measure 4000 (rawRec n t2 k ⟨off, teb⟩ ff.1.1 ff.1.2 tag false false (some (gtPs mpd)))

/-- The received quality level is unusable (R194). -/
def qlUnusable (c : Channel) (p : PortIx) : Bool :=
  c.cur (F.PORT_P_ESMC_STAT_QL_LOST p.val) == 1 || c.cur (F.PORT_P_ESMC_STAT_RX_QL p.val) == c.fld (F.PORT_P_ESMC_QL_DNU p.val)

/-- A 100 ms boundary of a SyncE lane (R192): the recovered clock's frequency and phase against the channel timescale. -/
def synceRecord (c : Channel) (p : PortIx) (freq off : Int) : Channel :=
  let n := synceLane p
  if !c.portUp p || !(c.lane n).exist then c
  else match c.multipleHere 10 with
    | none => c
    | some t =>
      let (num, den) := if c.cur (F.PORT_P_STAT_RMODE p.val) ≤ 3 then (332031250, 1) else (1611328125, 10)
      let fb := if c.flag (F.PORT_P_ESMC_QL_GATE p.val) && c.qlUnusable p then SAT else 281600
      c.measure 200000 (rawRec n t (c.kAt t) ⟨reducePeriod off num den, SAT⟩ freq fb (tagLane n.val) false true none)

/-! ### ESMC and the transmit clock (R193, R194) -/

/-- The quality level that a port sends. -/
def qlSent (c : Channel) (p : PortIx) : Nat :=
  let q := p.val
  if !c.flag (F.PORT_P_CFG_TXCLK q) then c.fld (F.PORT_P_ESMC_QL_FREE q)
  else match c.dpll.bst with
    | .track => c.fld (F.PORT_P_ESMC_QL_TRK q)
    | .hold => c.fld (F.PORT_P_ESMC_QL_HOLD q)
    | .free => c.fld (F.PORT_P_ESMC_QL_FREE q)

/-- An ESMC PDU sent. A PDU is 64 bytes with its FCS. -/
def sendQl (c : Channel) (p : PortIx) (event : Bool) : Channel :=
  ((c.bwTx p 64).ask (.esmc p (c.qlSent p) event)).updPs p (fun x => { x with qlSent := some (c.qlSent p) })

/-- The information PDU of a second of channel time. -/
def esmcInfo (c : Channel) (p : PortIx) : Channel :=
  if c.portUp p && c.flag (F.PORT_P_ESMC_TX_EN p.val) && (c.multipleHere 1).isSome then c.sendQl p false else c

/-- A change of the quality level sends an event PDU as the next frame. -/
def esmcEvent (p : PortIx) (c : Channel) : Channel :=
  if c.portUp p && c.flag (F.PORT_P_ESMC_TX_EN p.val) then
    match (c.ps p).qlSent with
    | none => c.updPs p (fun x => { x with qlSent := some (c.qlSent p) })
    | some l => if l = c.qlSent p then c else c.sendQl p true
  else c

/-- A valid ESMC PDU of `len` bytes received with level `ql`. -/
def esmcRx (c : Channel) (p : PortIx) (ql len : Nat) : Channel :=
  let q := p.val
  if !c.portUp p then c
  else
    let c0 := c.bwRx p len
    if !c.flag (F.PORT_P_ESMC_RX_EN q) then c0
    else
      let same := c.cur (F.PORT_P_ESMC_STAT_RX_QL q) == ql % 16 && c.cur (F.PORT_P_ESMC_STAT_QL_LOST q) == 0
      let c1 := ((c0.put (F.PORT_P_ESMC_STAT_RX_QL q) ql).put (F.PORT_P_ESMC_STAT_QL_LOST q) 0).updPs p (fun x => { x with qlAt := c.jour.tick })
      if same then c1 else c1.evt (F.PORT_P_EVT_QL q)

/-- 5 s without an ESMC PDU. -/
def esmcLost (c : Channel) (p : PortIx) : Channel :=
  let q := p.val
  if c.flag (F.PORT_P_ESMC_RX_EN q) && c.cur (F.PORT_P_ESMC_STAT_QL_LOST q) == 0 && decide ((c.ps p).qlAt + secTicks 5 ≤ c.jour.tick) then
    (c.put (F.PORT_P_ESMC_STAT_QL_LOST q) 1).evt (F.PORT_P_EVT_QL q)
  else c

/-- The largest rate word of a transmit clock: 4.6 ppm (R193). -/
def TXF_MAX : Nat := 84855022739063

/-- The rate word that a port's transmitter uses (R193). -/
def txRate (c : Channel) (p : PortIx) : Int :=
  if c.flag (F.PORT_P_CFG_TXCLK p.val) then clampAbs TXF_MAX c.rateBNow else 0

/-- A clamp of the transmit rate that begins with this command sets TXF_CLAMP; `old` is the channel before it. -/
def txClamp (old : Channel) (p : PortIx) (c : Channel) : Channel :=
  let cl (x : Channel) : Bool := x.flag (F.PORT_P_CFG_TXCLK p.val) && decide (TXF_MAX < x.rateBNow.natAbs)
  if cl c && (!cl old || old.rateBNow != c.rateBNow) then c.evt (F.PORT_P_EVT_TXF_CLAMP p.val) else c

/-- What follows every change of a channel for its ports. -/
def portSettle (old c : Channel) : Channel :=
  esmcEvent 1 (esmcEvent 0 (txClamp old 1 (txClamp old 0 c)))

/-! ### Frames that end at the port (R174) -/

/-- A received PAUSE frame of `len` bytes: discarded and counted. -/
def pauseRx (c : Channel) (p : PortIx) (len : Nat) : Channel :=
  if c.portUp p then (c.bwRx p len).bump (F.PORT_P_CNT2_PAUSE_RX p.val) else c

/-- A received frame of `len` bytes, longer than MAXF: dropped and counted. -/
def oversizeRx (c : Channel) (p : PortIx) (len : Nat) : Channel :=
  if c.portUp p && decide (c.fld (F.PORT_P_CFG_MAXF p.val) < len) then (c.bwRx p len).bump (F.PORT_P_CNT2_OVERSIZE_RX p.val) else c

end Channel
end Sys2Proof.Machine
end

