-- ==== Sys2Proof/Machine/ScaleOps.lean ====
section
/-! DEFINITION. The leap table: entry writes and UTC announcements (R57, R59 to R62). -/
namespace Sys2Proof.Machine

/-- The valid entries of a leap table. -/
def tabValid (t : Vector LeapEnt 8) : List LeapEnt := ((List.finRange 8).map (fun k => t[k])).filter (·.valid)

/-- The preceding valid entry of an entry of a table (R57). -/
def tabPrev (t : Vector LeapEnt 8) (eff : Int) : Option LeapEnt :=
  ((tabValid t).filter (fun e => decide (e.eff < eff))).foldl
    (fun a e => match a with | none => some e | some b => if b.eff < e.eff then some e else some b) none

/-- Whether the entry stands where R57 allows it. -/
def tabEntOk (t : Vector LeapEnt 8) (e : LeapEnt) : Bool :=
  countIf (fun x => x.eff == e.eff) (tabValid t) ≤ 1 &&
  match tabPrev t e.eff with
  | none => true
  | some p =>
    let m := (e.eff - p.ofs) % 86400
    (e.ofs - p.ofs != 1 || m == 0) && (e.ofs - p.ofs != -1 || m == 86399)

/-- The table holds none of the three faults of R57. -/
def tabOk (t : Vector LeapEnt 8) : Bool := (tabValid t).all (tabEntOk t)

/-- Whether an entry of a table is an offset correction (R57). -/
def isCorrection (t : Vector LeapEnt 8) (e : LeapEnt) : Bool :=
  e.valid && match tabPrev t e.eff with
    | none => true
    | some p => let d := e.ofs - p.ofs; d != 0 && d != 1 && d != -1

/-- The word of LEAP_ENT (R64). -/
def leapWord (e : LeapEnt) : Word :=
  BitVec.ofNat 32 (b2n e.valid * 2 ^ 31 + b2n e.conf * 2 ^ 30 + e.org % 4 * 2 ^ 28 + unsigned 16 e.ofs)

namespace Channel

/-- The table with entry `k` replaced, if R57 allows it; else REJ. `passed` says that the entry takes effect at once (R60). The event of an
offset correction is judged for the written entry alone, not for an entry that follows it (notes/assumptions/97.md). -/
def putLeap (c : Channel) (passed : Bool) (k : Fin 8) (e : LeapEnt) : Bool × Channel :=
  let t := c.scale.leap.set k e
  if tabOk t then
    let c1 := { c with scale := { c.scale with leap := t, old := some c.leapTab } }
    (true, if passed || isCorrection t e then c1.ask (.chanEvent .offsetCorrection) else c1)
  else (false, c.evt F.DPLL_UTC_NOW_REJ)

/-- A write of LEAP_ENTk (R61): the entry takes effect with the EFF that waits, or with its existing one. -/
def leapEntWrite (c : Channel) (k : Fin 8) (w : Word) : Channel :=
  let sc := c.scale
  let eff := match sc.effHeld[k] with | some e => e | none => sc.leap[k].eff
  let e : LeapEnt := ⟨bit w 31, bit w 30, 0, eff, signed 16 (getField w 0 16)⟩
  let c1 := { c with scale := { sc with effHeld := sc.effHeld.set k none, loHeld := sc.loHeld.set k none } }
  (c1.putLeap false k e).2

/-- A write of LEAP_EFF_LOk is held (R13, R61). -/
def leapLoWrite (c : Channel) (k : Fin 8) (w : Word) : Channel :=
  { c with scale := { c.scale with loHeld := c.scale.loHeld.set k (some w) } }

/-- A write of LEAP_EFF_HIk completes an EFF, which waits for LEAP_ENTk (R61). Where no LEAP_EFF_LOk is held the low word is that of the
EFF that waits, else that of the entry (notes/assumptions/97.md). -/
def leapHiWrite (c : Channel) (k : Fin 8) (w : Word) : Channel :=
  let lo := match c.scale.loHeld[k] with
    | some l => l
    | none => wordOf (match c.scale.effHeld[k] with | some e => e | none => c.scale.leap[k].eff) 0
  { c with scale := { c.scale with effHeld := c.scale.effHeld.set k (some (ofWords [lo, w])), loHeld := c.scale.loHeld.set k none } }

/-- The ORIGIN code of a device-written entry (R64). -/
def annOrigin (n : LaneIx) : Nat := if n.val = 8 then 1 else if n.val = 9 ∨ n.val = 10 then 2 else 3

/-- The valid entries of the table as it stands after the tick's software writes, by which announcements are judged (R62). -/
def leapNow (c : Channel) : List (Fin 8 × LeapEnt) :=
  ((List.finRange 8).map (fun k => (k, c.scale.leap[k]))).filter (fun e => e.2.valid)

/-- The entry for a device-written announcement (R60). -/
def leapSlot (c : Channel) : Option (Fin 8) :=
  match (List.finRange 8).find? (fun k => !c.scale.leap[k].valid) with
  | some k => some k
  | none =>
    let cur := (inForce c.leapNow c.nowSec).map Prod.fst
    (((List.finRange 8).filter (fun k => some k != cur)).foldl
      (fun a k => match a with
        | none => some k
        | some b => if c.scale.leap[k].eff < c.scale.leap[b].eff then some k else some b) none)

/-- A device-written entry put in place, booked with origin autonomous policy (R23, R60). -/
def annPut (c : Channel) (k : Fin 8) (e : LeapEnt) : Channel :=
  let old := leapWord c.scale.leap[k]
  match c.putLeap (decide (e.eff ≤ c.nowSec)) k e with
  | (false, c1) => c1
  | (true, c1) =>
    let c2 := c1.ask (.book ⟨c.policyOrg .dpll, 0x01, winReg c.ix .dpll (DPLL_LEAP_ENT k.val), old, leapWord e⟩)
    if e.conf then c2 else c2.ask (.chanEvent .leapUnconfirmed)

/-- An announcement handled as an entry (R60). -/
def annEntry (c : Channel) (n : LaneIx) (conf : Bool) (eff ofs : Int) : Channel :=
  let vs := c.leapNow
  if vs.any (fun e => e.2.eff == eff && e.2.ofs == ofs) then c
  else if vs.any (fun e => e.2.conf && decide ((eff - e.2.eff).natAbs < 86400)) then
    (c.evt F.DPLL_UTC_NOW_CONFLICT).ask (.chanEvent .announceConflict)
  else
    match vs.find? (fun e => e.2.eff == eff && !e.2.conf && e.2.org != 0) with
    | some e => c.annPut e.1 ⟨true, false, annOrigin n, eff, ofs⟩
    | none =>
      match c.leapSlot with
      | some k => c.annPut k ⟨true, conf, annOrigin n, eff, ofs⟩
      | none => c

/-- A UTC announcement of a lane (R59). -/
def utcAnnounce (c : Channel) (n : LaneIx) (a : UtcAnn) : Channel :=
  let src := c.fld F.DPLL_TS_CFG_UTC_SRC
  if src = 0 then (c.evt F.DPLL_UTC_NOW_SEEN).ask (.chanEvent .announceUnderHost)
  else if c.ref.selA.prev ≠ some n then c
  else
    let conf := src == 1
    let s := c.nowSec
    match a with
    | .offset ofs =>
      if ((inForce c.leapNow s).map (fun e => e.2.ofs)).getD 0 = ofs ∨ (tabValid c.scale.leap).any (fun e => e.org != 0 && !e.conf && e.ofs == ofs && decide (e.eff ≤ s)) then c
      else c.annEntry n conf s ofs
    | .leap eff ofs => c.annEntry n conf eff ofs
    | .flag ins =>
      -- the last valid entry, confirmed or not, gives the offset and the end of the UTC day that R57 requires
      let cur := ((tabPrev c.scale.leap (s + 1)).map (·.ofs)).getD 0
      let dayEnd := (Int.fdiv (s - cur) 86400 + 1) * 86400 + cur
      if ins then c.annEntry n conf dayEnd (cur + 1) else c.annEntry n conf (dayEnd - 1) (cur - 1)

/-- DPLL.UTC_NOW (R64): the stored event bits with VALID, LI and OFS at the channel time of the tick. -/
def utcNow (c : Channel) : Word :=
  let s := c.nowSec
  let w := c.word .dpll DPLL_UTC_NOW
  BitVec.ofNat 32 (b2n (c.utcValid s) * 2 ^ 31 + getField w 28 3 * 2 ^ 28 + c.leapInd s * 2 ^ 16 + unsigned 16 (c.utcOfs s))

end Channel
end Sys2Proof.Machine
end

