-- ==== Sys2Proof/Machine/BenchOps.lean ====
section
/-! DEFINITION. A channel's bench endpoints, its ensemble lanes L13 and L14, and its twin lane L15 (R279, R285 to R299). -/
namespace Sys2Proof.Machine

def BL_DOWN : Nat := 0
def BL_SYNC : Nat := 1
def BL_MEASURE : Nat := 2
def BL_UP : Nat := 3

def BT_HELLO : Nat := 1
def BT_LSA : Nat := 2
def BT_TIME : Nat := 3

/-- A stamp of R280: common ticks modulo 2^51 and picoseconds. -/
def linkStamp (ct ps : Nat) : Nat := ct % 2 ^ 51 * 8192 + ps % 8192
/-- A stamp in picoseconds. -/
def stampPs (s : Nat) : Int := (s / 8192 * 5000 + s % 8192 : Nat)
/-- The difference of two stamps in picoseconds, nearest to zero under the wrap of the tick count. -/
def stampDiff (a b : Nat) : Int :=
  let m : Int := 2 ^ 51 * 5000
  let d := (stampPs a - stampPs b) % m
  if d < m / 2 then d else d - m

/-- What the headers of a device's bench frames say of it (R288). -/
structure BenchId where
  devid : Nat
  addr : Option Nat
  deriving DecidableEq, Repr

/-- A bench frame around its payload. -/
def benchFrame (i : BenchId) (ty hleft ch : Nat) (pl : Bytes) : Bytes :=
  let b := leBytes 1 ty ++ leBytes 1 hleft ++ leBytes 2 pl.length ++ leBytes 1 (i.addr.getD 0) ++ leBytes 1 ch ++ leBytes 1 (b2n i.addr.isSome) ++
    leBytes 1 0 ++ leBytes 8 i.devid ++ pl
  b ++ leBytes 4 (crc32 b)

/-- A little-endian number of `n` bytes at `o`. -/
def leAt (bs : Bytes) (o n : Nat) : Nat := fromLe (slice bs o n)

/-- Whether a received bench frame's CRC, TYPE and LEN are right (R288, R289). -/
def benchGood (bs : Bytes) : Bool :=
  let n := leAt bs 2 2
  let ty := leAt bs 0 1
  bs.length == 20 + n && leAt bs (16 + n) 4 == crc32 (bs.take (16 + n)) &&
    (if ty = BT_HELLO then n == 32 else if ty = BT_LSA then n % 16 == 8 && decide (n ≤ 136) else ty == BT_TIME && n == 64)

/-- A frame with bytes of its payload replaced and the CRC formed again. -/
def benchPatch (bs : Bytes) (o : Nat) (new : Bytes) : Bytes :=
  let b := bs.take o ++ new ++ bs.drop (o + new.length)
  let b' := b.take (b.length - 4)
  b' ++ leBytes 4 (crc32 b')

namespace Channel

def bend (c : Channel) (x : Fin 2) : BEnd := c.ends[x]
def setBend (c : Channel) (x : Fin 2) (e : BEnd) : Channel := { c with ends := c.ends.set x e }
def blane (c : Channel) (x : Fin 2) : BenchLane := c.ens[x]
def setBlane (c : Channel) (x : Fin 2) (l : BenchLane) : Channel := { c with ens := c.ens.set x l }
def bstat (c : Channel) (x : Fin 2) : Nat := c.cur (F.CHCTL_B_STAT_LINK x.val)
/-- The lane of a bench link. -/
def benchLaneIx (x : Fin 2) : LaneIx := if x = 0 then 13 else 14
/-- The link index of an endpoint (R285). -/
def linkIx (c : Channel) (x : Fin 2) : Nat := 2 * c.ix.val + x.val

/-- A change of a bench link's state (R286). -/
def benchTo (c : Channel) (x : Fin 2) (st : Nat) : Channel :=
  let leave := c.bstat x = BL_UP ∧ (st = BL_DOWN ∨ st = BL_MEASURE)
  let c1 := if leave then c.bump (F.CHCTL_B_STAT_RESTARTS x.val) else c
  (c1.put (F.CHCTL_B_STAT_LINK x.val) st).ask .topo

/-- A link taken DOWN, its exchange history discarded. -/
def benchDown (c : Channel) (x : Fin 2) : Channel :=
  if c.bstat x = BL_DOWN then c else (c.benchTo x BL_DOWN).setBend x BEnd.reset

/-- 64 consecutive valid sync headers on an enabled link that is DOWN. -/
def benchSync (c : Channel) (x : Fin 2) : Channel :=
  if c.bstat x ≠ BL_DOWN ∨ !c.flag (F.CHCTL_B_CFG_EN x.val) then c
  else (c.benchTo x BL_SYNC).setBend x { BEnd.reset with heard := c.jour.tick }

/-- The period of HELLO frames, 1 ms. -/
def HELLO_TICKS : Nat := 200000

/-- Whether a HELLO is due: every 1 ms from the first after the entry to SYNC (R286). -/
def helloDue (c : Channel) (x : Fin 2) : Bool :=
  match (c.bend x).helloAt with | none => true | some t => decide (t < c.jour.tick) && (c.jour.tick - t) % HELLO_TICKS == 0

/-- The HELLO of an endpoint in SYNC, MEASURE or UP (R289); `stamp` is its transmit stamp. -/
def helloSend (c : Channel) (i : BenchId) (x : Fin 2) (stamp : Nat) : Channel :=
  if c.bstat x = BL_DOWN ∨ !c.helloDue x then c
  else
    let e := c.bend x
    let ec := e.echo.getD (0, 0)
    let pl := leBytes 1 (c.linkIx x) ++ leBytes 1 (c.bstat x) ++ leBytes 6 0 ++ leBytes 8 stamp ++ leBytes 8 ec.1 ++ leBytes 8 ec.2
    (c.setBend x { e with sent := (stamp :: e.sent).take 64, helloAt := some c.jour.tick }).ask (.bench x (benchFrame i BT_HELLO 0 c.ix.val pl))

/-- The exchanges so far: LDLY over the last 64, once there are 64 (R287). -/
def ldly (c : Channel) (x : Fin 2) (rs : List Int) : Channel :=
  if rs.length < 64 then c else c.put (F.CHCTL_B_LDLY_LDLY x.val) (Int.fdiv rs.sum (2 * rs.length)).toNat

/-- An exchange with round trip `r` (R286, R287). -/
def exchange (c : Channel) (x : Fin 2) (r : Int) : Channel :=
  let e := c.bend x
  let rs := (r :: e.rs).take 64
  if c.bstat x = BL_MEASURE then
    let c1 := (c.setBend x { e with rs := rs, count := e.count + 1 }).ldly x rs
    if e.count + 1 = 64 then c1.benchTo x BL_UP else c1
  else
    let d := r - 2 * c.cur (F.CHCTL_B_LDLY_LDLY x.val)
    let lim := c.fld (F.CHCTL_B_LSTEP_LSTEP x.val)
    let isCand := lim != 0 && decide (2 * lim < d.natAbs)
    let pos := decide (0 < d)
    let n := if !isCand then 0 else if e.cand > 0 ∧ e.candPos = pos then e.cand + 1 else 1
    if n ≥ 4 then ((c.setBend x { e with rs := [], count := 0, cand := 0 }).evt (F.CHCTL_B_STAT_LSTEP x.val)).benchTo x BL_MEASURE
    else (c.setBend x { e with rs := rs, cand := n, candPos := pos }).ldly x rs

/-- A frame discarded at an endpoint (R288). -/
def benchDrop (c : Channel) (x : Fin 2) : Channel := c.bump (F.CHCTL_B_CNT_DROP x.val)

/-- A HELLO registered with receive stamp `t4` (R286). -/
def helloRx (c0 : Channel) (x : Fin 2) (bs : Bytes) (t4 : Nat) : Channel :=
  if c0.bstat x = BL_DOWN then c0
  else if !benchGood bs || leAt bs 0 1 != BT_HELLO then c0.benchDrop x
  else
    let did := leAt bs 8 8
    let lk := leAt bs 16 1
    let tx := leAt bs 24 8
    let etx := leAt bs 32 8
    let e := c0.bend x
    let c := c0.setBend x { e with heard := c0.jour.tick, echo := some (tx, t4) }
    let known := did == c.cur (F.CHCTL_B_NBR_LO_ID_LO x.val) + 2 ^ 32 * c.cur (F.CHCTL_B_NBR_HI_ID_HI x.val) && lk == c.cur (F.CHCTL_B_STAT_NBR_LINK x.val)
    if c.bstat x = BL_SYNC ∨ !known then
      let c1 := ((c.put (F.CHCTL_B_NBR_LO_ID_LO x.val) did).put (F.CHCTL_B_NBR_HI_ID_HI x.val) (did / 2 ^ 32)).put (F.CHCTL_B_STAT_NBR_LINK x.val) lk
      (c1.setBend x { c1.bend x with count := 0, rs := [], cand := 0 }).benchTo x BL_MEASURE
    else if e.sent.contains etx then
      c.exchange x (stampDiff t4 etx - stampDiff tx (leAt bs 40 8))
    else c

/-- 4 ms without a HELLO, or the loss of sync header lock. -/
def helloTimeout (c : Channel) (x : Fin 2) (lost : Bool) : Channel :=
  if lost || decide ((c.bend x).heard + 800000 ≤ c.jour.tick) then c.benchDown x else c

/-- Whether R304 accepts a commit of the bench group. -/
def benchCommitOk (c : Channel) : Bool :=
  let w := (c.rf .chctl).before (kbRst .chctl)
  getField (smGet (kbRst .chctl CHCTL_ENS_CFG) w CHCTL_ENS_CFG) F.CHCTL_ENS_CFG_HOPS.lsb F.CHCTL_ENS_CFG_HOPS.w != 0

/-- What a commit of the bench group does to the links: one no longer enabled goes DOWN. -/
def benchCommitted (c : Channel) : Channel :=
  [(0 : Fin 2), 1].foldl (fun c x => if c.flag (F.CHCTL_B_CFG_EN x.val) then c else c.benchDown x) c

/-! ### Time across the bench -/

/-- The time fields of a TIME frame of the bench or the twin: flags, OFS, NEXT_OFS, NEXT_EFF (R282, R289). -/
def nextLeap (c : Channel) : Nat × Nat × Nat × Nat :=
  let s := c.nowSec
  let o := unsigned 16 (c.utcOfs s)
  match c.leapNext s with
  | some n => (1, o, unsigned 16 n.2.ofs, unsigned 64 n.2.eff)
  | none => (0, o, 0, 0)

/-- The channel's TIME frame on one UP link, its transmit stamp point `ps` picoseconds into the tick (R293). -/
def benchTimeOn (i : BenchId) (ps : Fin 2 → Nat) (c : Channel) (x : Fin 2) : Channel :=
  if c.bstat x ≠ BL_UP ∨ !c.flag (F.CHCTL_B_CFG_TTX x.val) then c
  else
    let t := (c.stampAt (ps x)).1
    let n := c.nextLeap
    let pl := leBytes 16 (unsigned 128 t) ++ leBytes 4 (c.tebAt t) ++ leBytes 4 c.fbNow ++ leBytes 4 c.tagNow.toNat ++ leBytes 1 (chanCode c.dpll.st) ++
      leBytes 1 n.1 ++ leBytes 2 n.2.1 ++ leBytes 2 n.2.2.1 ++ leBytes 6 0 ++ leBytes 8 n.2.2.2 ++ leBytes 8 0 ++ leBytes 4 0 ++ leBytes 4 0
    c.ask (.bench x (benchFrame i BT_TIME (c.fld F.CHCTL_ENS_CFG_HOPS) c.ix.val pl))

/-- TIME frames of the channel, in the tick that holds a multiple of 62.5 ms. -/
def benchTimeSend (c : Channel) (i : BenchId) (ps0 ps1 : Nat) : Channel :=
  match c.multipleHere 16 with
  | none => c
  | some _ => [(0 : Fin 2), 1].foldl (benchTimeOn i (fun x => if x = 0 then ps0 else ps1)) c

/-- The slot that a source holds, or the first free one. -/
def findSlot (l : BenchLane) (devid ch : Nat) : Option (Fin 32) :=
  match (List.finRange 32).find? (fun i => match l.slots[i] with | some s => s.devid == devid && s.ch == ch | none => false) with
  | some i => some i
  | none => (List.finRange 32).find? (fun i => l.slots[i].isNone)

/-- Term 5 for a path of half round trip `dly` ps with asymmetry `asym` and budget `bud`: the point in ps and the bound; an
unknown asymmetry gives the term of R46 and no point for it (R46, R279, R287). -/
def asymTerm (dly : Nat) (asym : Int) (bud : Nat) : Int × Bound := if bud = SAT then (0, satCap (tebOfPs dly)) else (asym, budTerm bud)

/-- SLOTS counted in ENS_STATx.PEERS. -/
def peerCount (c : Channel) (x : Fin 2) : Channel :=
  c.put (F.CHCTL_ENS_STAT_PEERS x.val) (countIf (fun i => (c.blane x).slots[i].isSome) (List.finRange 32))

/-- A TIME frame delivered to the lane of its link (R294, R296, R297). -/
def deliver (c : Channel) (x : Fin 2) (bs : Bytes) (ps : Nat) : Channel :=
  let did := leAt bs 8 8
  let ch := leAt bs 5 1
  let l := c.blane x
  match findSlot l did ch with
  | none => c.evt (F.CHCTL_ENS_STAT_NOSLOT x.val)
  | some i =>
    let st := c.stampAt ps
    let raw := signed 128 (leAt bs 16 16) + pointOfPs (signed 64 (leAt bs 64 8)) - st.1
    let s : PeerSlot := ⟨did, ch, c.jour.tick, st.1, st.2, raw, satAdd (satAdd 8 (leAt bs 32 4)) (leAt bs 72 4), leAt bs 36 4, BitVec.ofNat 32 (leAt bs 40 4),
      leAt bs 45 1 % 2 == 1, signed 16 (leAt bs 46 2), signed 16 (leAt bs 48 2), signed 64 (leAt bs 56 8)⟩
    ((c.setBlane x { l with slots := l.slots.set i (some s) }).bump (F.CHCTL_B_CNT_TIME_RX x.val)).peerCount x

/-- A TIME frame registered at an endpoint (R288, R294): what the router gets of it, and the channel. -/
def benchTimeRx (c : Channel) (own : Nat) (x : Fin 2) (bs : Bytes) (ps : Nat) : Option Bytes × Channel :=
  if c.bstat x ≠ BL_UP then (none, c)
  else if !benchGood bs || leAt bs 0 1 != BT_TIME || (leAt bs 8 8 == own && leAt bs 5 1 == c.ix.val) then (none, c.benchDrop x)
  else
    let dly := c.cur (F.CHCTL_B_LDLY_LDLY x.val)
    let a := asymTerm dly (c.sfld (F.CHCTL_B_LASYM_LASYM x.val)) (c.fld (F.CHCTL_B_LBUD_LBUD x.val))
    let corr := signed 64 (leAt bs 64 8) + dly + a.1
    let b1 := benchPatch bs 64 (leBytes 8 (unsigned 64 corr) ++ leBytes 4 (satAdd (leAt bs 72 4) a.2))
    (some b1, c.deliver x b1 ps)

/-- 125 ms without a frame of its source free a slot. -/
def slotExpiry (c : Channel) (x : Fin 2) (i : Fin 32) : Channel :=
  let l := c.blane x
  match l.slots[i] with
  | none => c
  | some s => if s.tick + 25000000 ≤ c.jour.tick then (c.setBlane x { l with slots := l.slots.set i none }).peerCount x else c

/-! ### The ensemble (R298, R299) -/

/-- solve of R113 with the changes of R298; the fuel is the number of exclusions left plus one. The solution with its members, and
the number excluded. -/
def ensSolve (minSv : Nat) : Nat → List (PeerSlot × Iv) → Nat → Option (Gt × Bound × List PeerSlot) × Nat
  | 0, _, ex => (none, ex)
  | n + 1, ss, ex =>
    if ss.length < minSv then (none, ex)
    else match intersect (ss.map (fun s => (s.2, 0#32))) with
      | .iv ctr w _ => (some (ctr, w, ss.map Prod.fst), ex)
      | .untraceable => (none, ex)
      | .empty =>
        if n = 0 then (none, ex)
        else
          let xs := (ss.map (fun s => s.2.t)).insertionSort (fun a b => a ≤ b)
          let m := xs.length / 2
          let med := if xs.length % 2 = 1 then xs.getD m 0 else sar (xs.getD (m - 1) 0 + xs.getD m 0) 1
          let key (s : PeerSlot × Iv) : Nat × Nat × Nat := ((s.2.t - med).natAbs, s.1.devid, s.1.ch)
          let lt (a b : Nat × Nat × Nat) : Bool := decide (a.1 < b.1) || (a.1 == b.1 && (decide (a.2.1 < b.2.1) || (a.2.1 == b.2.1 && decide (a.2.2 < b.2.2))))
          match ss with
          | [] => (none, ex)
          | y :: r =>
            let far := r.foldl (fun b s => if lt (key b) (key s) then s else b) y
            ensSolve minSv n (ss.filter (fun s => (s.1.devid, s.1.ch) != (far.1.devid, far.1.ch))) (ex + 1)

/-- R299: what the peers of a solution announce together: an announcement, or a disagreement. -/
def ensUtc (ps : List PeerSlot) : Option (Int × Int) × Bool :=
  match ps.filter (fun s => s.nextValid) with
  | [] => (none, false)
  | y :: r => if r.all (fun s => s.ofs == y.ofs && s.nextOfs == y.nextOfs && s.nextEff == y.nextEff) then (some (y.nextEff, y.nextOfs), false) else (none, true)

/-- An interval with term 4 of R45 taken out again: a measured record takes it at its registration (R474). -/
def unCal (c : Channel) (n : LaneIx) (x : Iv) : Iv :=
  let y := c.termCal n ⟨0, 0⟩
  ⟨x.t - y.t, if x.h ≥ SAT then SAT else x.h - y.h⟩

/-- ENSEMBLE_EVALUATION: the record of a bench lane at the instant E of this tick, registered 1 ms later. The calibration entries at E
decide which peers agree (notes/assumptions/100.md). -/
def ensemble (c : Channel) (x : Fin 2) : Channel :=
  let n := benchLaneIx x
  if !(c.lane n).exist || !c.laneEnabled n then c
  else match c.multipleHere 16 with
    | none => c
    | some e =>
      let l := c.blane x
      let k := c.kAt e
      let ms := (List.finRange 32).filterMap (fun i => match l.slots[i] with
        | some s => if e - 2 ^ 61 < s.refTs ∧ s.refTs ≤ e then some (s, c.termCal n ⟨s.offset - sar (k - s.k) 32, grow s.teb s.fb (e - s.refTs)⟩) else none
        | none => none)
      let r := ensSolve (max 1 (c.fld F.CHCTL_ENS_CFG_MIN_PEERS)) (c.fld F.CHCTL_ENS_CFG_TOL + 1) ms 0
      let q := x.val
      let used := match r.1 with | some s => s.2.2 | none => []
      let c1 := (c.put (F.CHCTL_ENS_STAT_USED q) used.length).put (F.CHCTL_ENS_STAT_EXCL q) r.2
      let (off, c2) : Gt × Channel := match r.1 with
        | some s => (s.1, c1)
        | none =>
          let f := c1.free 64
          (signed 64 f.1, ((f.2.evt (F.CHCTL_ENS_STAT_EMPTY q)).ask (.chanEvent .ensembleEmpty)))
      let teb := match r.1 with | some s => s.2.1 | none => SAT
      let missed := match l.prev with | some p => decide (e - p.refTs ≠ 2 ^ 60) | none => false
      let ff := c2.freqFb l.prev e off k teb missed
      let tag := tagSet (tagLane n.val) 7 (used.any (fun s => tagHo s.tag))
      let c3 := ff.2.setBlane x { l with prev := some ⟨e, off, k, teb, 0⟩ }
      let c4 := c3.measure 200000 (rawRec n e k (c3.unCal n ⟨off, teb⟩) ff.1.1 ff.1.2 tag false false none)
      if c.ref.selA.prev != some n then c4
      else
        let u := ensUtc used
        let c5 := if u.2 then c4.evt (F.CHCTL_ENS_STAT_UTCD q) else c4
        match u.1 with
        | some a => c5.utcAnnounce n (.leap a.1 a.2)
        | none => c5

/-! ### The twin lane L15 (R279) -/

/-- A TIME payload for the twin, its transmit stamp point `ps` picoseconds into the tick (R282). -/
def twinTime (c : Channel) (ps : Nat) : Bytes :=
  let t := (c.stampAt ps).1
  let n := c.nextLeap
  leBytes 16 (unsigned 128 t) ++ leBytes 4 (c.tebAt t) ++ leBytes 4 c.tagNow.toNat ++ leBytes 1 (chanCode c.dpll.st) ++ leBytes 1 n.1 ++
    leBytes 2 n.2.1 ++ leBytes 2 n.2.2.1 ++ leBytes 2 0 ++ leBytes 8 n.2.2.2

/-- A TIME payload of the peer's channel received `ps` picoseconds into the tick; `tdly`, `tcal` and `tbud` are the twin's. -/
def twinRecord (c : Channel) (pl : Bytes) (ps tdly : Nat) (tcal : Int) (tbud : Nat) : Channel :=
  let n : LaneIx := 15
  let st := c.stampAt ps
  let tx := signed 128 (leAt pl 0 16)
  let raw := tx + pointOfPs tdly - st.1
  let a := asymTerm tdly tcal tbud
  let own : Iv := ⟨raw + pointOfPs a.1, satAdd (satAdd 8 (leAt pl 16 4)) a.2⟩
  let iv := c.termCal n own
  let off := iv.t
  let teb := iv.h
  let sec := unsigned 16 (sar tx 64)
  let missed := match c.tprev with | some p => decide (wrapInc 16 p.seq ≠ sec) | none => false
  let ff := c.freqFb c.tprev st.1 off st.2 teb missed
  let tag := tagSet (tagLane 15) 7 (tagHo (BitVec.ofNat 32 (leAt pl 20 4)))
  let c1 := { ff.2 with tprev := some ⟨st.1, off, st.2, teb, sec⟩ }
  let c2 := c1.measure 4000 (rawRec n st.1 st.2 own ff.1.1 ff.1.2 tag false false (some tdly))
  if leAt pl 25 1 % 2 == 1 then c2.utcAnnounce n (.leap (signed 64 (leAt pl 32 8)) (signed 16 (leAt pl 28 2))) else c2

end Channel
end Sys2Proof.Machine
end

