-- ==== Sys2Proof/Machine/Packet.lean ====
section
/-! DEFINITION. Frames as bytes: Ethernet, IPv4, IPv6, UDP, PTP and NTP, as IEEE 802.3, IEEE 1588-2019, RFC 5905, RFC 7822 and
RFC 8915 lay them out. The manual names these formats and does not restate them (notes/assumptions/24.md). -/
namespace Sys2Proof.Machine

/-- One byte of a number. -/
def by1 (n : Nat) : Bytes := [BitVec.ofNat 8 n]
/-- Byte `i` of a string as a number, 0 beyond its end. -/
def byteAt (bs : Bytes) (i : Nat) : Nat := (bs.getD i 0).toNat
/-- The big-endian number of `n` bytes at `o`. -/
def beAt (bs : Bytes) (o n : Nat) : Nat := fromBe (slice bs o n)
/-- `new` written over `bs` at offset `o`. -/
def patch (bs : Bytes) (o : Nat) (new : Bytes) : Bytes := bs.take o ++ new ++ bs.drop (o + new.length)

/-- A received frame taken apart. `ofs` is where the payload of the innermost layer recognized begins. Addresses are 16 bytes,
an IPv4 address mapped as in R205. -/
structure Pkt where
  dst : Bytes
  src : Bytes
  vid : Option Nat
  etype : Nat
  l3 : Nat
  ip : Option Bool
  sip : Bytes
  dip : Bytes
  proto : Nat
  l4 : Nat
  udp : Option (Nat × Nat)
  ofs : Nat
  deriving DecidableEq, Repr

/-- An IPv4 address as the 16 bytes of an IPv4-mapped address (R205). -/
def mapV4 (a : Bytes) : Bytes := List.replicate 10 0#8 ++ [0xFF#8, 0xFF#8] ++ a

/-- A frame parsed from its destination address on. -/
def parsePkt (bs : Bytes) : Pkt :=
  let tagged := beAt bs 12 2 == 0x8100
  let eo := if tagged then 16 else 12
  let et := beAt bs eo 2
  let l3 := eo + 2
  let vid := if tagged then some (beAt bs 14 2 % 4096) else none
  let base : Pkt := ⟨slice bs 0 6, slice bs 6 6, vid, et, l3, none, [], [], 0, l3, none, l3⟩
  if et = 0x0800 then
    let l4 := l3 + 4 * (byteAt bs l3 % 16)
    let pr := byteAt bs (l3 + 9)
    let p := { base with ip := some false, sip := mapV4 (slice bs (l3 + 12) 4), dip := mapV4 (slice bs (l3 + 16) 4), proto := pr, l4 := l4, ofs := l4 }
    if pr = 17 then { p with udp := some (beAt bs l4 2, beAt bs (l4 + 2) 2), ofs := l4 + 8 } else p
  else if et = 0x86DD then
    let l4 := l3 + 40
    let pr := byteAt bs (l3 + 6)
    let p := { base with ip := some true, sip := slice bs (l3 + 8) 16, dip := slice bs (l3 + 24) 16, proto := pr, l4 := l4, ofs := l4 }
    if pr = 17 then { p with udp := some (beAt bs l4 2, beAt bs (l4 + 2) 2), ofs := l4 + 8 } else p
  else base

/-- The UDP payload, as long as the UDP header says; for a PTP message over Ethernet, as long as its own header says. -/
def Pkt.payload (p : Pkt) (bs : Bytes) : Bytes :=
  match p.udp with
  | some _ => slice bs p.ofs (min (beAt bs (p.l4 + 4) 2 - 8) (bs.length - p.ofs))
  | none => slice bs p.ofs (min (beAt bs (p.ofs + 2) 2) (bs.length - p.ofs))

/-- Whether a frame is a PTP message (R200). -/
def Pkt.isPtp (p : Pkt) : Bool :=
  p.etype == 0x88F7 || (match p.udp with | some u => u.2 == 319 || u.2 == 320 | none => false)
/-- Whether a frame is an NTP message (R200). -/
def Pkt.isNtp (p : Pkt) : Bool := match p.udp with | some u => u.2 == 123 | none => false

/-! ### Building -/

/-- The internet checksum of a byte string, as the number that the header holds. -/
def inetSum (bs : Bytes) : Nat :=
  let s := ((List.range ((bs.length + 1) / 2)).map (fun i => beAt bs (2 * i) 2)).sum
  let f := s % 65536 + s / 65536
  65535 - (f % 65536 + f / 65536) % 65536

/-- Where a frame goes: the addresses of its layers. `v6` is none for Ethernet alone. -/
structure Dest where
  dmac : Bytes
  smac : Bytes
  vid : Option Nat
  ip : Option Bool
  sip : Bytes
  dip : Bytes
  sport : Nat
  dport : Nat
  deriving DecidableEq, Repr

/-- The UDP checksum field, 0xFFFF standing for 0. -/
def udpSum (v6 : Bool) (sip dip udp : Bytes) : Nat :=
  let a := if v6 then sip ++ dip else sip.drop 12 ++ dip.drop 12
  let s := inetSum (a ++ beBytes 4 17 ++ beBytes 4 udp.length ++ udp ++ (if udp.length % 2 = 1 then [0#8] else []))
  if s = 0 then 0xFFFF else s

/-- A frame around a message, with its checksums, and the offset of the message. Ethernet frames are padded to 60 bytes. -/
def wrapFrame (d : Dest) (etype : Nat) (m : Bytes) : Bytes × Nat :=
  let et := match d.ip with | none => etype | some false => 0x0800 | some true => 0x86DD
  let eth := d.dmac ++ d.smac ++ (match d.vid with | some v => beBytes 2 0x8100 ++ beBytes 2 v | none => []) ++ beBytes 2 et
  match d.ip with
  | none => (padTo (max 60 (eth.length + m.length)) (eth ++ m), eth.length)
  | some v6 =>
    let u0 := beBytes 2 d.sport ++ beBytes 2 d.dport ++ beBytes 2 (8 + m.length) ++ [0#8, 0#8] ++ m
    let u := patch u0 6 (beBytes 2 (udpSum v6 d.sip d.dip u0))
    let h :=
      if v6 then by1 0x60 ++ [0#8, 0#8, 0#8] ++ beBytes 2 u.length ++ by1 17 ++ by1 64 ++ d.sip ++ d.dip
      else
        let h0 := by1 0x45 ++ by1 0 ++ beBytes 2 (20 + u.length) ++ beBytes 4 0 ++ by1 64 ++ by1 17 ++ beBytes 2 0 ++ d.sip.drop 12 ++ d.dip.drop 12
        patch h0 10 (beBytes 2 (inetSum h0))
    let f := eth ++ h ++ u
    (padTo (max 60 f.length) f, eth.length + h.length + 8)

/-- A frame whose message, `n` bytes at `o`, has been changed: the UDP checksum is completed again (R183). -/
def refreshSum (bs : Bytes) (o n : Nat) : Bytes :=
  let p := parsePkt bs
  match p.ip, p.udp with
  | some v6, some _ =>
    let u0 := patch (slice bs (o - 8) (8 + n)) 6 [0#8, 0#8]
    patch bs (o - 2) (beBytes 2 (udpSum v6 p.sip p.dip u0))
  | _, _ => bs

/-! ### PTP -/

def MT_SYNC : Nat := 0x0
def MT_DELAY_REQ : Nat := 0x1
def MT_PDELAY_REQ : Nat := 0x2
def MT_PDELAY_RESP : Nat := 0x3
def MT_FOLLOW_UP : Nat := 0x8
def MT_DELAY_RESP : Nat := 0x9
def MT_PDELAY_RESP_FU : Nat := 0xA
def MT_ANNOUNCE : Nat := 0xB
def MT_SIGNALING : Nat := 0xC
def MT_MANAGEMENT : Nat := 0xD

/-- The message type of a PTP message. -/
def ptpType (m : Bytes) : Nat := byteAt m 0 % 16
def ptpDomain (m : Bytes) : Nat := byteAt m 4
def ptpCorr (m : Bytes) : Int := signed 64 (beAt m 8 8)
def ptpPort (m : Bytes) : Bytes := slice m 20 10
def ptpSeq (m : Bytes) : Nat := beAt m 30 2
def ptpLog (m : Bytes) : Int := signed 8 (byteAt m 33)
def ptpTwoStep (m : Bytes) : Bool := byteAt m 6 / 2 % 2 == 1
/-- The timestamp at offset `o`: seconds and nanoseconds. -/
def ptpTsAt (m : Bytes) (o : Nat) : Nat × Nat := (beAt m o 6, beAt m (o + 6) 4)
/-- Whether a message type is an event message. -/
def ptpEvent (t : Nat) : Bool := decide (t < 8)

/-- The length of a message type before its TLVs. -/
def ptpFixed : Nat → Nat
  | 0x0 => 44 | 0x1 => 44 | 0x2 => 54 | 0x3 => 54 | 0x8 => 44 | 0x9 => 54 | 0xA => 54 | 0xB => 64 | 0xC => 44
  | _ => 34

/-- controlField of a message type. -/
def ptpControl : Nat → Nat
  | 0x0 => 0 | 0x1 => 1 | 0x8 => 2 | 0x9 => 3 | 0xD => 4
  | _ => 5

/-- A PTP header and its body. `fl` is flagField with octet 0 in the upper byte. -/
def ptpMsg (sdo ty dom fl : Nat) (corr : Int) (port : Bytes) (seq : Nat) (log : Int) (body : Bytes) : Bytes :=
  by1 (sdo * 16 + ty) ++ by1 0x12 ++ beBytes 2 (34 + body.length) ++ by1 dom ++ by1 0 ++ beBytes 2 fl ++ beBytes 8 (unsigned 64 corr) ++
    beBytes 4 0 ++ port ++ beBytes 2 seq ++ by1 (ptpControl ty) ++ by1 (unsigned 8 log) ++ body

/-- The TLVs of a message from offset `o`: type, value and offset of each. -/
def tlvWalk : Nat → Bytes → Nat → List (Nat × Bytes × Nat)
  | 0, _, _ => []
  | fuel + 1, m, o =>
    if m.length < o + 4 then []
    else
      let n := beAt m (o + 2) 2
      (beAt m o 2, slice m (o + 4) n, o) :: tlvWalk fuel m (o + 4 + n)

def ptpTlvs (m : Bytes) : List (Nat × Bytes × Nat) := tlvWalk (m.length / 4) m (ptpFixed (ptpType m))

/-- A TLV. -/
def tlv (ty : Nat) (v : Bytes) : Bytes := beBytes 2 ty ++ beBytes 2 v.length ++ v

/-- The AUTHENTICATION TLV with its ICV still 0: SPP, secParamIndicator, keyID, ICV. -/
def authTlv (spp keyId : Nat) : Bytes := tlv 0x8009 (by1 spp ++ by1 0 ++ beBytes 4 keyId ++ List.replicate 16 0#8)

/-! ### NTP -/

def ntpVersion (m : Bytes) : Nat := byteAt m 0 / 8 % 8
def ntpMode (m : Bytes) : Nat := byteAt m 0 % 8

/-- The extension fields of an NTP message after its header, and what is left: type, value and offset of each. A rest of 20 or
24 bytes is a MAC (RFC 7822). -/
def ntpWalk : Nat → Bytes → Nat → List (Nat × Bytes × Nat) × Nat
  | 0, _, o => ([], o)
  | fuel + 1, m, o =>
    let left := m.length - o
    let n := beAt m (o + 2) 2
    if left = 0 ∨ left = 20 ∨ left = 24 ∨ left < 4 ∨ n < 4 ∨ left < n then ([], o)
    else
      let r := ntpWalk fuel m (o + n)
      ((beAt m o 2, slice m (o + 4) (n - 4), o) :: r.1, r.2)

def ntpFields (m : Bytes) : List (Nat × Bytes × Nat) × Nat := ntpWalk (m.length / 4) m 48

def EF_UID : Nat := 0x0104
def EF_COOKIE : Nat := 0x0204
def EF_PLACEHOLDER : Nat := 0x0304
def EF_AUTH : Nat := 0x0404
/-- Whether an extension field belongs to NTS. -/
def efNts (t : Nat) : Bool := t == EF_UID || t == EF_COOKIE || t == EF_PLACEHOLDER || t == EF_AUTH

/-- An NTP extension field. -/
def extField (ty : Nat) (v : Bytes) : Bytes := beBytes 2 ty ++ beBytes 2 (4 + v.length) ++ v

end Sys2Proof.Machine
end

