-- ==== Sys2Proof/Machine/SealOps.lean ====
section
/-! DEFINITION. The SEAL block's parts: addresses and classes, the client table, security associations, and the frames that the
pipeline builds (R199 to R224). -/
namespace Sys2Proof.Machine

/-- What a received frame is (R199, R200). `ptp` is a PTP request or Signaling, `lane` a message for the lane client. -/
inductive RxClass
  | notMine
  | transit
  | unsup
  | ptp (ty : Nat)
  | lane (ty : Nat)
  | ntpPlain
  | ntpMac
  | nts
  | exc
  deriving DecidableEq, Repr

/-- How a request's authentication stands: it carries none, it verifies under an association, it fails, or its key is gone. -/
inductive AuthRes
  | absent
  | ok (sa : Nat)
  | fail
  | gone
  deriving DecidableEq, Repr

/-- The rate of a grant of period 2^`log` s in 1/128 message per second (R207). -/
def grantRate (log : Int) : Nat := match (7 : Int) - log with | .ofNat n => 2 ^ n | .negSucc _ => 0

/-- The MAC address of an IPv4 or IPv6 multicast group. -/
def groupMac4 (a : Bytes) : Bytes := [0x01, 0x00, 0x5E, (getByte a 1) &&& 0x7F, getByte a 2, getByte a 3]
where getByte (a : Bytes) (i : Nat) : Byte := a.getD i 0
def groupMac6 (a : Bytes) : Bytes := [0x33, 0x33] ++ a.drop 12

def mcMac : Bytes := [0x01, 0x1B, 0x19, 0, 0, 0]
def mcMacAlt : Bytes := [0x01, 0x80, 0xC2, 0, 0, 0x0E]
def mcV4 : Bytes := [224, 0, 1, 129]
def mcV6 : Bytes := [0xFF, 0x0E, 0, 0, 0, 0, 0, 0, 0, 0, 0, 0, 0, 0, 0x01, 0x81]

/-- The bytes of a client table entry; `fw` gives the cores' own bytes (R205). -/
def Client.bytes (e : Client) (fw : Bytes) : Bytes :=
  let g (x : Option (Int × Int)) : Nat := match x with | some y => unsigned 8 y.1 | none => 0x7F
  let x (x : Option (Int × Int)) : Nat := match x with | some y => unsigned 64 y.2 | none => 0
  by1 1 ++ by1 (b2n e.ipv6 + 2 * b2n e.l2 + 4 * b2n e.vlan + 8 * b2n e.two + 16 * b2n e.auth) ++ by1 e.port ++ by1 e.sa ++ leBytes 4 e.group ++
    leBytes 2 e.vid ++ e.mac ++ e.addr ++ e.portId ++ beBytes 2 e.udp ++ by1 (g e.sync) ++ by1 (g e.dresp) ++ by1 (g e.ann) ++ by1 0 ++
    leBytes 8 (x e.sync) ++ leBytes 8 (x e.dresp) ++ leBytes 8 (x e.ann) ++ leBytes 2 e.seqSync ++ leBytes 2 e.seqAnn ++ leBytes 2 e.seqSig ++
    leBytes 2 0 ++ leBytes 4 e.nSync ++ leBytes 4 e.nDresp ++ leBytes 8 (unsigned 64 e.lastRx) ++ padTo 32 fw

/-- An entry read from the bytes of a CLIENT record (R205, R229); none for a FREE one. -/
def Client.ofBytes (b : Bytes) : Option Client :=
  if byteAt b 0 ≠ 1 then none
  else
    let fl := byteAt b 1
    let le (o n : Nat) : Nat := fromLe (slice b o n)
    let g (o x : Nat) : Option (Int × Int) := if byteAt b o = 0x7F then none else some (signed 8 (byteAt b o), signed 64 (le x 8))
    some ⟨maskOpen fl 0, maskOpen fl 1, maskOpen fl 2, maskOpen fl 3, maskOpen fl 4, byteAt b 2, byteAt b 3, le 4 4 % 2 ^ 18, le 8 2, slice b 10 6,
      slice b 16 16, slice b 32 10, beAt b 42 2, g 44 48, g 45 56, g 46 64, le 72 2, le 74 2, le 76 2, le 80 4, le 84 4, signed 64 (le 88 8)⟩

namespace Channel

def setSeal (c : Channel) (s : SealBlk) : Channel := { c with sealb := s }

/-! ### Service state (R227, R228) -/

/-- Whether the pipeline may commit: CTL.RUN (R226, R228). -/
def runOk (c : Channel) : Bool := !c.safe && (c.drive || !c.flag F.SEAL_CTL_CLAIM_GATE)
def run (c : Channel) : Bool := c.cur F.SEAL_CTL_RUN == 1

/-- The action of R227: 0 SERVE, 1 UNSYNC, 2 SILENT. -/
def svcAct (c : Channel) : Nat :=
  match c.dpll.st with
  | .freerun => c.fld F.SEAL_SVC_CFG_FR_ACT
  | .holdoverLimit => c.fld F.SEAL_SVC_CFG_HL_ACT
  | _ => 0
def unsync (c : Channel) : Bool := c.svcAct == 1
def silent (c : Channel) : Bool := c.svcAct == 2

/-- clockClass of R227. -/
def clockClass (c : Channel) : Nat :=
  match c.dpll.st with
  | .freerun => c.fld F.SEAL_ANN_CFG_CLASS_FREE
  | .acquiring => c.fld F.SEAL_ANN_CLASS_ACQ
  | .locked => c.fld F.SEAL_ANN_CLASS_LOCK
  | .holdover => c.fld F.SEAL_ANN_CLASS_HO
  | .holdoverLimit => c.fld F.SEAL_ANN_CLASS_HL

/-- A change of the right to commit (R228): RUN follows it, and its loss flushes every queue. -/
def runSettle (c : Channel) : Channel :=
  if c.run = c.runOk then c
  else
    let c1 := (c.put F.SEAL_CTL_RUN (b2n c.runOk)).evt F.SEAL_EVT_CLAIM
    if c.runOk then c1 else (c1.flushPort true 0).flushPort true 1

/-! ### Addresses (R199, R203) -/

def portMac (c : Channel) (p : PortIx) : Bytes := beBytes 2 (c.fld (F.SEAL_P_MAC_HI_MAC_HI p.val)) ++ beBytes 4 (c.fld (F.SEAL_P_MAC_LO_MAC_LO p.val))
def portV4 (c : Channel) (p : PortIx) : Bytes := beBytes 4 (c.fld (F.SEAL_P_IPV4_IPV4 p.val))
def portV6 (c : Channel) (p : PortIx) : Bytes := [3, 2, 1, 0].flatMap (fun n => beBytes 4 (c.fld (F.SEAL_P_IPV6_IPV6 p.val n)))
def profile (c : Channel) (p : PortIx) : Nat := c.fld (F.SEAL_P_SVC_PROFILE p.val)
def isGptp (c : Channel) (p : PortIx) : Bool := c.profile p == 4
/-- Whether the profile's PTP runs on the transport of a frame (R203). -/
def transportOk (c : Channel) (p : PortIx) (k : Pkt) : Bool :=
  match c.profile p with
  | 1 => true
  | 3 => k.ip.isSome
  | _ => k.ip.isNone
/-- Whether the profile negotiates unicast service (R203). -/
def unicastOk (c : Channel) (p : PortIx) : Bool := c.profile p == 1 || c.profile p == 3
def domain (c : Channel) (p : PortIx) : Nat := c.fld (F.SEAL_P_SVC_DOMAIN p.val)
def clockId (c : Channel) : Bytes := beBytes 4 (c.fld F.SEAL_CLK_ID_HI_ID_HI) ++ beBytes 4 (c.fld F.SEAL_CLK_ID_LO_ID_LO)
/-- sourcePortIdentity of a port (R211). -/
def portId (c : Channel) (p : PortIx) : Bytes := c.clockId ++ beBytes 2 (p.val + 1)

/-- The Ethernet multicast address of the port's profile, with MC_EN = 1 (R203). -/
def mcAddr (c : Channel) (p : PortIx) : Option Bytes :=
  if !c.flag (F.SEAL_P_SVC_MC_EN p.val) then none
  else match c.profile p with
    | 1 => some mcMac
    | 2 => some (if c.flag (F.SEAL_P_SVC_L2_ALT p.val) then mcMacAlt else mcMac)
    | 4 => some mcMacAlt
    | _ => none
/-- Whether the profile has the IP multicast groups (R203). -/
def mcIp (c : Channel) (p : PortIx) : Bool := c.flag (F.SEAL_P_SVC_MC_EN p.val) && c.profile p == 1

def anyByte (b : Bytes) : Bool := b.any (· != 0)
/-- The solicited-node group of Pp_IPV6. -/
def solicited (c : Channel) (p : PortIx) : Bytes := [0xFF, 0x02, 0, 0, 0, 0, 0, 0, 0, 0, 0, 1, 0xFF] ++ (c.portV6 p).drop 13

/-- Whether a frame received on a port is for the channel (R199). -/
def forChannel (c : Channel) (p : PortIx) (k : Pkt) : Bool :=
  let v6 := anyByte (c.portV6 p)
  let macOk := (anyByte (c.portMac p) && k.dst == c.portMac p) || (k.etype == 0x0806 && k.dst == List.replicate 6 0xFF#8) || c.mcAddr p == some k.dst ||
    (c.mcIp p && (k.dst == groupMac4 mcV4 || k.dst == groupMac6 mcV6)) || (v6 && k.dst == groupMac6 (c.solicited p))
  let vidOk := match k.vid with
    | none => !c.flag (F.SEAL_P_VID_TAGGED p.val)
    | some v => c.flag (F.SEAL_P_VID_TAGGED p.val) && v == c.fld (F.SEAL_P_VID_VID p.val)
  let ipOk := match k.ip with
    | none => true
    | some false => (anyByte (c.portV4 p) && k.dip == mapV4 (c.portV4 p)) || (c.mcIp p && k.dip == mapV4 mcV4)
    | some true => (v6 && (k.dip == c.portV6 p || k.dip == c.solicited p)) || (c.mcIp p && k.dip == mcV6)
  macOk && vidOk && ipOk

/-! ### Masters of the lane client (R209, R314) -/

def laneRecs (c : Channel) (p : PortIx) : List LaneRec := c.sealb.masters.filter (fun r => r.lane == 9 + p.val)
/-- The record of the master that the lane client requests from or follows. -/
def master (c : Channel) (p : PortIx) : Option LaneRec := (c.laneRecs p)[(c.lc p).idx]?

/-- Whether a message comes from the master that the lane follows. -/
def fromMaster (c : Channel) (p : PortIx) (k : Pkt) (m : Bytes) : Bool :=
  match c.master p with
  | none => false
  | some r =>
    (if r.l2 then k.ip.isNone && k.src == r.mac else k.ip == some r.ipv6 && k.sip == r.addr) &&
    (!r.vlan || k.vid == some r.vid) && (!anyByte r.portId || ptpPort m == r.portId)

/-- The class of a received frame (R199, R200). -/
def classify (c : Channel) (p : PortIx) (k : Pkt) (bs : Bytes) : RxClass :=
  let m := k.payload bs
  if !c.forChannel p k then (if c.flag F.PORT_CTL_TC_EN && k.isPtp then .transit else .notMine)
  else if k.isPtp then
    if c.profile p == 0 || ptpDomain m != c.domain p || !c.transportOk p k then .unsup
    else
      let t := ptpType m
      if t == MT_DELAY_REQ then (if c.isGptp p then .unsup else .ptp t)
      else if t == MT_SIGNALING then .ptp t
      else if t == MT_PDELAY_REQ then (if c.isGptp p then .ptp t else .unsup)
      else if [MT_SYNC, MT_FOLLOW_UP, MT_DELAY_RESP, MT_ANNOUNCE, MT_PDELAY_RESP, MT_PDELAY_RESP_FU].contains t then
        (if c.fromMaster p k m then .lane t else .unsup)
      else .unsup
  else if k.isNtp then
    if !c.flag (F.SEAL_P_SVC_NTP_EN p.val) || decide (m.length < 48) then .unsup
    else
      let v := ntpVersion m
      let md := ntpMode m
      let fs := ntpFields m
      let mac := m.length == fs.2 + 20
      if (md == 3 || md == 1) && mac then .ntpMac
      else if md == 3 && (v == 3 || v == 4) && m.length == 48 then .ntpPlain
      else if md == 3 && v == 4 && m.length == fs.2 && fs.1.any (fun f => efNts f.1) && c.flag (F.SEAL_P_SVC_NTS_EN p.val) then .nts
      else .unsup
  else if k.etype == 0x0806 && beAt bs (k.l3 + 6) 2 == 1 then .exc
  else if k.ip == some true && k.proto == 58 && (byteAt bs k.l4 == 135 || byteAt bs k.l4 == 128) then .exc
  else if k.ip == some false && k.proto == 1 && byteAt bs k.l4 == 8 then .exc
  else .unsup

/-! ### The client table (R205 to R207) -/

def client? (c : Channel) (i : Nat) : Option Client := (c.sealb.clients.find? (fun e => e.1 == i)).map Prod.snd

/-- An entry written, with CT_STAT.USED; the change is streamed to the twin (R229). -/
def putClient (c : Channel) (i : Nat) (e : Option Client) : Channel :=
  let cs := match e with | some x => smIns c.sealb.clients i x | none => smDel c.sealb.clients i
  ((c.setSeal { c.sealb with clients := cs }).put F.SEAL_CT_STAT_USED cs.length).ask (.client i)

/-- The entry of a client (R206). -/
def findClient (c : Channel) (p : PortIx) (k : Pkt) (pid : Bytes) : Option (Nat × Client) :=
  c.sealb.clients.find? (fun e =>
    e.2.port == p.val && (if e.2.vlan then k.vid == some e.2.vid else k.vid.isNone) &&
    (if e.2.l2 then k.ip.isNone else k.ip.isSome && e.2.addr == k.sip && (match k.udp with | some u => u.1 == e.2.udp | none => false)) &&
    e.2.portId == pid)

/-- The lowest FREE entry of the table. -/
def freeEntry : Nat → List (Nat × Client) → Nat
  | n, [] => n
  | n, e :: r => if e.1 = n then freeEntry (n + 1) r else n

/-- The classification record that applies to a source address (R313): the longest prefix, then the lowest index. -/
def classRec (c : Channel) (p : PortIx) (k : Pkt) : Option ClassRec :=
  match k.ip with
  | none => none
  | some v6 =>
    let a := if v6 then fromBe k.sip else fromBe (k.sip.drop 12) * 2 ^ 96
    (c.sealb.classes.filter (fun r => r.v6 == v6 && (if p = 0 then r.port0 else r.port1) && a / 2 ^ (128 - r.plen) == r.pfx / 2 ^ (128 - r.plen))).foldl
      (fun b r => match b with | none => some r | some x => if r.plen > x.plen then some r else some x) none

/-- The client group of a request (R201). -/
def groupOf (c : Channel) (p : PortIx) (k : Pkt) (e : Option Client) : Nat :=
  match e with
  | some x => x.group
  | none => match c.classRec p k with | some r => r.group | none => c.fld F.SEAL_SVC_CFG_DGRP

/-! ### Security associations (R212, R213) -/

def saValid (c : Channel) (k : Nat) : Bool := decide (k < 16) && c.flag (F.SEAL_SA_CFG_VALID k)
def saAlg (c : Channel) (k : Nat) : Nat := c.fld (F.SEAL_SA_CFG_ALG k)
def saGmac (c : Channel) (k : Nat) : Bool := c.saValid k && (c.saAlg k == 2 || c.saAlg k == 3)

/-- Whether a key type serves an algorithm (R338). -/
def algServes (alg keyAlg : Nat) : Bool :=
  match alg with
  | 1 => keyAlg == 2
  | 2 => keyAlg == 0
  | 3 => keyAlg == 1
  | 4 => keyAlg == 0
  | _ => false

/-- The delivered key of a security association (R340). -/
def saKey (c : Channel) (k : Nat) : Option DelKey :=
  if !c.saValid k then none
  else c.sealb.keys.find? (fun d => d.slot == c.fld (F.SEAL_SA_CFG_KSLOT k) && algServes (c.saAlg k) d.alg)

/-- The seconds in the initialization vector (R213): bits [31:0] of the message's first timestamp field, or `sec`, channel time at build. -/
def ivSeconds (sec : Nat) (m : Bytes) : Nat :=
  let t := ptpType m
  if t = MT_SIGNALING ∨ t = MT_MANAGEMENT then sec else beAt m 36 4

/-- Channel time as the initialization vector has it. -/
def secNow (c : Channel) : Nat := unsigned 32 c.nowSec

/-- The 16-byte authenticator of a message's covered bytes under an algorithm (R212, R213). -/
def icv (alg : Nat) (key : Bytes) (sec : Nat) (m covered : Bytes) : Bytes :=
  match alg with
  | 1 => (hmacSha256 key covered).take 16
  | 4 => cmac key covered
  | _ => gmac key (slice m 20 8 ++ by1 (byteAt m 0) ++ by1 (ptpDomain m) ++ beBytes 2 (ptpSeq m) ++ beBytes 4 (ivSeconds sec m)) covered

/-- How an association seals a frame built now, and the vault slots of its key (R212, R215). -/
def sealWith (c : Channel) (sa : Option Nat) : SealUse × List Nat :=
  match sa with
  | none => (.none, [])
  | some k =>
    let d := c.saKey k
    (.sa k (c.saAlg k) (c.flag (F.SEAL_SA_CFG_NTP k)) (d.map (·.bytes)) c.secNow, match d with | some x => [x.slot] | none => [])

/-- The association that a PTP authentication TLV selects. -/
def saOfTlv (c : Channel) (v : Bytes) : Option Nat :=
  (upTo 16).find? (fun k => c.saValid k && !c.flag (F.SEAL_SA_CFG_NTP k) && c.fld (F.SEAL_SA_CFG_SPP k) == byteAt v 0 && c.fld (F.SEAL_SA_KEYID_KEYID k) == beAt v 2 4)

/-- The authentication of a PTP message (R212, R213, R215). -/
def ptpAuth (c : Channel) (m : Bytes) : AuthRes :=
  match (ptpTlvs m).find? (fun t => t.1 == 0x8009) with
  | none => .absent
  | some t =>
    if t.2.2 + 4 + t.2.1.length ≠ m.length ∨ t.2.1.length < 22 then .fail
    else match c.saOfTlv t.2.1 with
      | none => .fail
      | some k => match c.saKey k with
        | none => .gone
        | some d => if icv (c.saAlg k) d.bytes c.secNow m (m.take (m.length - 16)) == m.drop (m.length - 16) then .ok k else .fail

/-- The authentication of an NTP request with a MAC. -/
def ntpAuth (c : Channel) (m : Bytes) : AuthRes :=
  let o := m.length - 20
  match (upTo 16).find? (fun k => c.saValid k && c.flag (F.SEAL_SA_CFG_NTP k) && c.fld (F.SEAL_SA_KEYID_KEYID k) == beAt m o 4) with
  | none => .fail
  | some k => match c.saKey k with
    | none => .gone
    | some d => if icv (c.saAlg k) d.bytes c.secNow m (m.take o) == m.drop (o + 4) then .ok k else .fail

/-! ### Frames (R210 to R213, R222 to R224) -/

def boundFlags (c : Channel) (transit : Bool) : Nat := b2n transit + 2 * b2n c.unsync

/-- The PTP bound TLV (R222). -/
def boundTlv (c : Channel) (teb : Bound) (tag : Word) : Bytes :=
  tlv 0x0003 (beBytes 3 (c.fld F.SEAL_BND_ORG_ORG) ++ beBytes 3 1 ++ by1 1 ++ by1 (chanCode c.dpll.st) ++ beBytes 4 teb ++ beBytes 4 tag.toNat ++
    by1 (c.boundFlags false) ++ by1 0)

/-- The NTP bound field (R223). -/
def boundField (c : Channel) (teb : Bound) (tag : Word) (era : Int) : Bytes :=
  beBytes 2 (c.fld F.SEAL_BND_CFG_EF_TYPE) ++ beBytes 2 0x1C ++ by1 1 ++ by1 (chanCode c.dpll.st) ++ by1 (c.boundFlags false) ++ by1 0 ++ beBytes 4 teb ++
    beBytes 4 tag.toNat ++ beBytes 4 (unsigned 32 era) ++ beBytes 8 0

def ptpBound (c : Channel) : Bool := c.flag F.SEAL_BND_CFG_PTP_EN

/-- The received bound TLV of a master's or a transit message: its offset, TEB and tag (R209, R222). -/
def rxBound (c : Channel) (m : Bytes) : Option (Nat × Bound × Word) :=
  ((ptpTlvs m).find? (fun t => t.1 == 3 && t.2.1.length == 18 && beAt t.2.1 0 3 == c.fld F.SEAL_BND_ORG_ORG && beAt t.2.1 3 3 == 1 && byteAt t.2.1 6 == 1)).map
    (fun t => (t.2.2, beAt t.2.1 8 4, BitVec.ofNat 32 (beAt t.2.1 12 4)))

/-- The queue frame of a PTP message. `bnd` is the bound TLV to append, with `lateBnd` when the commit fills it; `sa` the
association that seals it. -/
def ptpFrame (c : Channel) (p : PortIx) (d : Dest) (ty fl : Nat) (corr : Int) (seq : Nat) (log : Int) (body : Bytes) (bnd : Option Bytes) (lateBnd : Bool)
    (sa : Option Nat) (late : Late) (ring : Bool) (client : Option Nat) (rxSec : Int) : QFrame :=
  let auth := match sa with | some k => authTlv (c.fld (F.SEAL_SA_CFG_SPP k)) (c.fld (F.SEAL_SA_KEYID_KEYID k)) | none => []
  let m := ptpMsg (if c.isGptp p then 1 else 0) ty (c.domain p) fl corr (c.portId p) seq log (body ++ bnd.getD [] ++ auth)
  let dd := { d with sport := if ptpEvent ty then 319 else 320, dport := if ptpEvent ty then 319 else 320 }
  let w := wrapFrame dd 0x88F7 m
  let o := if bnd.isSome && lateBnd then some (w.2 + 34 + body.length) else none
  let u := c.sealWith sa
  ⟨w.1, w.2, m.length, ty, seq, late, o, u.1, u.2, ring, false, client, client, 0, false, rxSec⟩

/-- The destination that answers a received frame: unicast back to its source. -/
def replyDest (c : Channel) (p : PortIx) (k : Pkt) : Dest :=
  ⟨k.src, c.portMac p, k.vid, k.ip, match k.ip with | some true => c.portV6 p | _ => mapV4 (c.portV4 p), k.sip, 0, match k.udp with | some u => u.1 | none => 0⟩

/-- The destination of a client table entry. -/
def clientDest (c : Channel) (e : Client) : Dest :=
  let p : PortIx := if e.port = 0 then 0 else 1
  ⟨e.mac, c.portMac p, if e.vlan then some e.vid else none, if e.l2 then none else some e.ipv6,
   if e.ipv6 then c.portV6 p else mapV4 (c.portV4 p), e.addr, 0, e.udp⟩

/-- The destination of a lane record's master. -/
def masterDest (c : Channel) (p : PortIx) (r : LaneRec) : Dest :=
  ⟨r.mac, c.portMac p, if r.vlan then some r.vid else none, if r.l2 then none else some r.ipv6,
   if r.ipv6 then c.portV6 p else mapV4 (c.portV4 p), r.addr, 0, 0⟩

/-- The Ethernet multicast destination of a port's profile. -/
def mcDest (c : Channel) (p : PortIx) (mac : Bytes) : Dest :=
  ⟨mac, c.portMac p, if c.flag (F.SEAL_P_VID_TAGGED p.val) then some (c.fld (F.SEAL_P_VID_VID p.val)) else none, none, [], [], 0, 0⟩

/-- The association of a port's multicast frames. -/
def mcSa (c : Channel) (p : PortIx) : Option Nat :=
  let k := c.fld (F.SEAL_P_SVC_MC_SA p.val)
  if k = 0xFF then none else some k

def keyGone (c : Channel) : Channel := (c.bump F.SEAL_CNT3_KEY_GONE).evt F.SEAL_EVT_KEYGONE
def authFail (c : Channel) : Channel := (c.bump F.SEAL_CNT1_AUTH_FAIL).evt F.SEAL_EVT_AUTH

/-- A frame built and queued (R201, R215, R228): its slots are drawn; without its key or the right to commit it is discarded. -/
def submit (c : Channel) (p : PortIx) (q : Nat) (f : QFrame) : Channel :=
  let w := c.workSlots
  let c1 := w.2
  let f1 := { f with slots := w.1 }
  let needs := match f.use with | .sa _ _ _ key _ => key.isNone | _ => false
  if needs then wasted p c1.keyGone f1
  else if !c1.run then wasted p (c1.bump F.SEAL_CNT2_NOCLAIM) f1
  else c1.enqueue p q f1

def qOf (c : Channel) (f : Nat → KF) (p : PortIx) : Nat := c.fld (f p.val)

/-- Whether R232 accepts a commit. -/
def sealCommitOk (c : Channel) : Bool :=
  let w := (c.rf .sealb).before (kbRst .sealb)
  let get (f : KF) : Nat := getField (smGet (kbRst .sealb f.off) w f.off) f.lsb f.w
  let logOk (f : KF) : Bool := let v := signed 8 (get f); decide (-7 ≤ v) && decide (v ≤ 4)
  [0, 1].all (fun p => decide (get (F.SEAL_P_SVC_PROFILE p) ≤ 4)) && decide (get F.SEAL_SVC_CFG_FR_ACT ≤ 2) && decide (get F.SEAL_SVC_CFG_HL_ACT ≤ 2) &&
    (upTo 16).all (fun k => get (F.SEAL_SA_CFG_VALID k) == 0 || (decide (1 ≤ get (F.SEAL_SA_CFG_ALG k)) && decide (get (F.SEAL_SA_CFG_ALG k) ≤ 4))) &&
    decide (1 ≤ get F.SEAL_SVC_CFG_MAX_CK) && decide (get F.SEAL_SVC_CFG_MAX_CK ≤ 8) && get F.SEAL_NTP_CFG_STRATUM != 0 &&
    logOk F.SEAL_NEG_CFG_MIN_SYNC && logOk F.SEAL_NEG_CFG_MIN_DRESP && logOk F.SEAL_NEG_CFG_MIN_ANN

end Channel
end Sys2Proof.Machine
end

