-- ==== Sys2Proof/Machine/ServiceOps.lean ====
section
/-! DEFINITION. The service pipeline: requests and their answers, NTS, due messages, grants, the exception cores, transit frames
and the egress commit (R198 to R229). -/
namespace Sys2Proof.Machine

/-- The clockAccuracy bands of IEEE 1588-2019 in ps with their codes, narrowest first, without those between 1 ps and 1 ns,
which no bound in whole nanoseconds takes (notes/assumptions/24.md). -/
def accuracyBands : List (Nat × Nat) :=
  [(1, 0x17), (1000, 0x1D), (2500, 0x1E), (10000, 0x1F), (25000, 0x20),
   (100000, 0x21), (250000, 0x22), (10 ^ 6, 0x23), (25 * 10 ^ 5, 0x24), (10 ^ 7, 0x25), (25 * 10 ^ 6, 0x26), (10 ^ 8, 0x27), (25 * 10 ^ 7, 0x28),
   (10 ^ 9, 0x29), (25 * 10 ^ 8, 0x2A), (10 ^ 10, 0x2B), (25 * 10 ^ 9, 0x2C), (10 ^ 11, 0x2D), (25 * 10 ^ 10, 0x2E), (10 ^ 12, 0x2F), (10 ^ 13, 0x30)]

/-- clockAccuracy of R211. -/
def clockAccuracy (teb : Bound) : Nat :=
  if teb ≥ SAT then 0xFE
  else match accuracyBands.find? (fun b => decide (tebToNs teb * 1000 ≤ b.1)) with
    | some b => b.2
    | none => 0x31

/-- A PTP timestamp field. -/
def tsBytes (t : PtpTs) : Bytes := beBytes 6 t.s ++ beBytes 4 t.ns
/-- An NTP timestamp field. -/
def ntpBytes (t : NtpTs) : Bytes := beBytes 4 t.sec ++ beBytes 4 t.frac
/-- A PTP timestamp field that is 0. -/
def tsZero : Bytes := List.replicate 10 0#8

/-- A duration in units of 2^-16 ns, rounded as R187. -/
def scaledNs (r : Gt) : Int := sar (r * 10 ^ 9 + 2 ^ 47) 48
/-- A correctionField with an addend, kept at its largest value (R187). -/
def corrAdd (x y : Int) : Int := min (2 ^ 63 - 1) (x + y)

def FL_TWO_STEP : Nat := 0x0200
def FL_UNICAST : Nat := 0x0400

/-- A cookie (R218). -/
def mintCookie (key : Bytes) (kid : Nat) (nonce keys : Bytes) : Bytes :=
  let ad := beBytes 4 kid ++ nonce
  ad ++ sivSeal key [ad] keys

/-- Who a grant is for (R205). -/
inductive GrantKind
  | sync
  | dresp
  | ann
  deriving DecidableEq, Repr

/-- The kind of a message type in a negotiation TLV. -/
def grantKind (ty : Nat) : Option GrantKind :=
  if ty = MT_SYNC then some .sync else if ty = MT_DELAY_RESP then some .dresp else if ty = MT_ANNOUNCE then some .ann else none

def Client.grant (e : Client) : GrantKind → Option (Int × Int)
  | .sync => e.sync | .dresp => e.dresp | .ann => e.ann
def Client.setGrant (e : Client) (k : GrantKind) (g : Option (Int × Int)) : Client :=
  match k with
  | .sync => { e with sync := g } | .dresp => { e with dresp := g } | .ann => { e with ann := g }
/-- Whether any grant is left. -/
def Client.granted (e : Client) : Bool := e.sync.isSome || e.dresp.isSome || e.ann.isSome

namespace Channel

def freeBytes (c : Channel) (n : Nat) : Bytes × Channel := let r := c.free (8 * n); (beBytes n r.1, r.2)

/-! ### Reception -/

/-- A frame received on a port: taken apart, and counted in the bandwidth window, when the port is UP, the frame is not longer
than MAXF (R174) and its class is one of those that the row handles. -/
def rxTake (c : Channel) (p : PortIx) (bs : Bytes) (want : RxClass → Bool) : Option (Pkt × Channel) :=
  let k := parsePkt bs
  if c.portUp p && decide (bs.length + 4 ≤ c.fld (F.PORT_P_CFG_MAXF p.val)) && want (c.classify p k bs) then some (k, c.bwRx p (bs.length + 4)) else none

/-- A request that reaches the pipeline (R199 to R201, R227, R228): dropped, or let through with its colour and, for PTP, its
table entry. `pid` is the request's sourcePortIdentity, `lacksAuth` says that it needs an authentication that it does not carry, `fast` that the fast
path answers it. -/
def requestGate (c0 : Channel) (p : PortIx) (k : Pkt) (len : Nat) (pid : Option Bytes) (lacksAuth fast : Bool) :
    Option (Bool × Option (Nat × Client)) × Channel :=
  let c := c0.pmuEvt 0x10 p
  if !c.run then (none, c.bump F.SEAL_CNT2_NOCLAIM)
  else if fast && c.silent then (none, c.bump F.SEAL_CNT2_SILENT)
  else if lacksAuth then (none, c.authFail)
  else
    let e := pid.bind (c.findClient p k)
    let c1 := if pid.isSome then
        let r := c.free 8
        let c2 := r.2.pmuBy 0x19 none r.1
        if e.isNone then c2.pmuEvt 0x16 p else c2
      else c
    let r := c1.policeReq (c1.groupOf p k (e.map Prod.snd)) len
    match r.1 with
    | .red => (none, r.2.pmuEvt 0x14 p)
    | .yellow => (some (true, e), r.2.pmuEvt 0x15 p)
    | .green => (some (false, e), r.2)

/-- The association of a verified request, with 0xFF for none; none where the request is dropped (R215). -/
def authGate (c : Channel) (a : AuthRes) : Option (Option Nat) × Channel :=
  match a with
  | .absent => (some none, c)
  | .ok k => (some (some k), c)
  | .fail => (none, c.authFail)
  | .gone => (none, c.keyGone)

/-- The queue of a response (R201). -/
def respQueue (c : Channel) (p : PortIx) (yellow : Bool) : Nat := if yellow then c.qOf F.SEAL_P_QMAP_QY p else c.qOf F.SEAL_P_QMAP_QG p
def qt (c : Channel) (p : PortIx) : Nat := c.qOf F.SEAL_P_QMAP_QT p
def qx (c : Channel) (p : PortIx) : Nat := c.qOf F.SEAL_P_QMAP_QX p

/-- Whether a port's event messages are one-step. -/
def oneStep (c : Channel) (p : PortIx) : Bool := c.flag (F.PORT_P_CFG_ONE_STEP p.val)

/-- The flags that every message of a port carries: ptpTimescale on a gPTP port. -/
def baseFlags (c : Channel) (p : PortIx) : Nat := if c.isGptp p then 0x0008 else 0

/-- A message that cannot carry its time (R53). -/
def notExp (c : Channel) (p : PortIx) : Channel := (c.bump (F.PORT_P_CNT0_NOTEXP p.val)).evt (F.PORT_P_EVT_NOTEXP p.val)

/-- Where the answer to a received frame goes: to its source, or to the group that it was sent to. -/
def answerDest (c : Channel) (p : PortIx) (k : Pkt) : Dest :=
  let d := c.replyDest p k
  if getField (BitVec.ofNat 32 (byteAt k.dst 0)) 0 1 = 1 then { d with dmac := k.dst, dip := k.dip } else d
def isMc (k : Pkt) : Bool := byteAt k.dst 0 % 2 == 1

/-- A Delay_Req received (R200, R210, R224): `ps` and `f` give its ingress stamp. -/
def delayReqRx (c0 : Channel) (p : PortIx) (ps : Nat) (f : Int) (bs : Bytes) : Channel :=
  match c0.rxTake p bs (· == .ptp MT_DELAY_REQ) with
  | none => c0
  | some (k, c) =>
    let m := k.payload bs
    let a := c.ptpAuth m
    match c.requestGate p k (bs.length + 4) (some (ptpPort m)) (c.flag (F.SEAL_P_SVC_PTP_AUTH_REQ p.val) && a == .absent) true with
    | (none, c1) => c1
    | (some (y, e), c1) =>
      match c1.authGate a with
      | (none, c2) => c2
      | (some sa, c2) =>
        let st := c2.stampIn p ps f
        match toPtp st.t st.teb with
        | none => c2.notExp p
        | some t =>
          let lg := c2.free 8
          let k' := match e with | some x => if x.2.sa < 16 then some x.2.sa else sa | none => if isMc k then c2.mcSa p else sa
          let bnd := if c2.ptpBound then some (c2.boundTlv t.teb st.tag) else none
          let fr := c2.ptpFrame p (match e with | some x => if isMc k then c2.answerDest p k else c2.clientDest x.2 | none => c2.answerDest p k) MT_DELAY_RESP
            (c2.baseFlags p + if isMc k then 0 else FL_UNICAST) (ptpCorr m - t.sub) (ptpSeq m) (if isMc k then signed 8 lg.1 else 0x7F)
            (tsBytes t ++ ptpPort m) bnd false k' .none false (e.map Prod.fst) (sar st.t 64)
          (if isMc k then lg.2 else c2).submit p (c2.respQueue p y) fr

/-- A Pdelay_Req received on a GPTP port (R200, R210). -/
def pdelayReqRx (c0 : Channel) (p : PortIx) (ps : Nat) (f : Int) (bs : Bytes) : Channel :=
  match c0.rxTake p bs (· == .ptp MT_PDELAY_REQ) with
  | none => c0
  | some (k, c) =>
    let m := k.payload bs
    let a := c.ptpAuth m
    match c.requestGate p k (bs.length + 4) (some (ptpPort m)) (c.flag (F.SEAL_P_SVC_PTP_AUTH_REQ p.val) && a == .absent) true with
    | (none, c1) => c1
    | (some (y, _), c1) =>
      match c1.authGate a with
      | (none, c2) => c2
      | (some sa, c2) =>
        let st := c2.stampIn p ps f
        match toPtp st.t st.teb with
        | none => c2.notExp p
        | some t =>
          let d := match c2.mcAddr p with | some mac => c2.mcDest p mac | none => c2.answerDest p k
          let k' := if isMc k then c2.mcSa p else sa
          let fr := if c2.oneStep p then
              c2.ptpFrame p d MT_PDELAY_RESP (c2.baseFlags p) (ptpCorr m) (ptpSeq m) 0x7F (tsZero ++ ptpPort m) none false k' (.pdelayResp st.t) false none 0
            else c2.ptpFrame p d MT_PDELAY_RESP (c2.baseFlags p + FL_TWO_STEP) t.sub (ptpSeq m) 0x7F (tsBytes t ++ ptpPort m) none false k' .pdelayRespTwo true none 0
          c2.submit p (c2.respQueue p y) fr

/-! ### NTP and NTS (R204, R210, R217 to R220, R223) -/

/-- Whether an NTP response carries the bound field (R224). -/
def ntpBound (c : Channel) (m : Bytes) : Bool :=
  c.flag F.SEAL_BND_CFG_NTP_EN && (c.flag F.SEAL_BND_CFG_NTP_ALWAYS || (ntpFields m).1.any (fun x => x.1 == c.fld F.SEAL_BND_CFG_EF_TYPE))

/-- The header of an NTP response with its late fields 0; its Poll repeats the request's. -/
def ntpHeader (c : Channel) (m : Bytes) (mode : Nat) (tI : NtpTs) (s : Int) : Bytes :=
  let li := if c.unsync then 3 else c.leapInd s
  let stratum := if c.unsync then 16 else c.fld F.SEAL_NTP_CFG_STRATUM
  let r := toNtp (c.utcOfs (sar c.dpll.t0 64)) c.dpll.t0 0
  by1 (li * 64 + ntpVersion m * 8 + mode) ++ by1 stratum ++ slice m 2 1 ++ by1 (c.fld F.SEAL_NTP_CFG_PRECISION) ++ beBytes 4 0 ++ beBytes 4 0 ++
    beBytes 4 (c.fld F.SEAL_NTP_REFID_REFID) ++ ntpBytes r ++ slice m 40 8 ++ ntpBytes tI ++ List.replicate 8 0#8

/-- The queue frame of an NTP answer: its message, its bound field's place, what the commit writes and seals. -/
def ntpFrame (c : Channel) (p : PortIx) (k : Pkt) (m : Bytes) (tlv : Option Nat) (late : Late) (use : SealUse) (key : List Nat) (nts : Bool) : QFrame :=
  let d := { c.replyDest p k with sport := 123 }
  let w := wrapFrame d 0x0800 m
  ⟨w.1, w.2, m.length, 0xF, 0, late, tlv.map (· + w.2), use, key, false, false, none, none, 0, nts, 0⟩

/-- The response header with the bound field that R224 adds: the bytes and the field's offset. -/
def ntpFront (c : Channel) (m : Bytes) (mode : Nat) (st : Stamp) (uid : Bytes) : Bytes × Option Nat × NtpTs :=
  let s := sar st.t 64
  let tI := toNtp (c.utcOfs s) st.t st.teb
  let h := c.ntpHeader m mode tI s ++ uid
  if c.ntpBound m then (h ++ c.boundField 0 0 0, some h.length, tI) else (h, none, tI)

/-- An NTP mode 3 request without extension fields or MAC. -/
def ntpRx (c0 : Channel) (p : PortIx) (ps : Nat) (f : Int) (bs : Bytes) : Channel :=
  match c0.rxTake p bs (· == .ntpPlain) with
  | none => c0
  | some (k, c) =>
    let m := k.payload bs
    match c.requestGate p k (bs.length + 4) none (c.flag (F.SEAL_P_SVC_NTP_AUTH_REQ p.val)) true with
    | (none, c1) => c1
    | (some (y, _), c1) =>
      let w := c1.ntpFront m 4 (c1.stampIn p ps f) []
      c1.submit p (c1.respQueue p y) (c1.ntpFrame p k w.1 w.2.1 (.ntp w.2.2.teb) .none [] false)

/-- An NTP request with a MAC of RFC 8573: mode 3 is answered as mode 4, mode 1 as mode 2. -/
def ntpMacRx (c0 : Channel) (p : PortIx) (ps : Nat) (f : Int) (bs : Bytes) : Channel :=
  match c0.rxTake p bs (· == .ntpMac) with
  | none => c0
  | some (k, c) =>
    let m := k.payload bs
    match c.requestGate p k (bs.length + 4) none false true with
    | (none, c1) => c1
    | (some (y, _), c1) =>
      match c1.authGate (c1.ntpAuth m) with
      | (some (some sa), c2) =>
        let w := c2.ntpFront m (if ntpMode m = 1 then 2 else 4) (c2.stampIn p ps f) []
        let mac := beBytes 4 (c2.fld (F.SEAL_SA_KEYID_KEYID sa)) ++ List.replicate 16 0#8
        let u := c2.sealWith (some sa)
        c2.submit p (c2.respQueue p y) (c2.ntpFrame p k (w.1 ++ mac) w.2.1 (.ntp w.2.2.teb) u.1 u.2 false)
      | (_, c2) => c2

/-- The key of an NTS_KEYk entry, when the entry is VALID and its slot is usable. -/
def ntsKey (c : Channel) (k : Nat) : Option DelKey :=
  if !c.flag (F.SEAL_NTS_KEY_CFG_VALID k) then none
  else c.sealb.keys.find? (fun d => d.slot == c.fld (F.SEAL_NTS_KEY_CFG_KSLOT k) && d.alg == 3)

/-- A cookie opened (R218): the entry whose key opened it, and the C2S and S2C keys. Second, whether the KID names a VALID entry
whose key is gone. -/
def openCookie (c : Channel) (ck : Bytes) : Option (Nat × Bytes × Bytes) × Bool :=
  if ck.length ≠ 100 then (none, false)
  else match [0, 1].find? (fun k => c.flag (F.SEAL_NTS_KEY_CFG_VALID k) && c.fld (F.SEAL_NTS_KEY_KID_KID k) == beAt ck 0 4) with
    | none => (none, false)
    | some k => match c.ntsKey k with
      | none => (none, true)
      | some d => match sivOpen d.bytes [ck.take 20] (ck.drop 20) with
        | none => (none, false)
        | some pl => (some (k, pl.take 32, pl.drop 32), false)

/-- `n` new cookies as extension fields. -/
def mintFields (key : Bytes) (kid : Nat) (keys : Bytes) : Nat → Channel → Bytes × Channel
  | 0, c => ([], c)
  | n + 1, c =>
    let r := c.freeBytes 16
    let x := mintFields key kid keys n r.2
    (extField EF_COOKIE (mintCookie key kid r.1 keys) ++ x.1, x.2)

/-- An NTS request (R217 to R220). -/
def ntsRx (c0 : Channel) (p : PortIx) (ps : Nat) (f : Int) (bs : Bytes) : Channel :=
  match c0.rxTake p bs (· == .nts) with
  | none => c0
  | some (k, c) =>
    let m := k.payload bs
    match c.requestGate p k (bs.length + 4) none false true with
    | (none, c1) => c1
    | (some (y, _), c1) =>
      let fs := (ntpFields m).1
      let of (t : Nat) := fs.filter (fun x => x.1 == t)
      match of EF_UID, of EF_COOKIE, of EF_AUTH with
      | [u], [ck], [au] =>
        if decide (u.2.1.length < 32) || (fs.getLast?.map (fun x => x.1)) != some EF_AUTH then c1.authFail
        else
          let uid := extField EF_UID u.2.1
          match c1.openCookie ck.2.1 with
          | (none, true) => c1.keyGone
          | (none, false) =>
            let h := by1 (3 * 64 + 4 * 8 + 4) ++ by1 0 ++ slice m 2 1 ++ by1 (c1.fld F.SEAL_NTP_CFG_PRECISION) ++ List.replicate 8 0#8 ++ ascii "NTSN" ++
              List.replicate 8 0#8 ++ slice m 40 8 ++ List.replicate 16 0#8
            c1.submit p (c1.respQueue p y) (c1.ntpFrame p k (h ++ uid) none .none .none [] true)
          | (some (kk, c2s, s2c), _) =>
            let nl := beAt au.2.1 0 2
            let cl := beAt au.2.1 2 2
            let nonce := slice au.2.1 4 nl
            let ct := slice au.2.1 (4 + 4 * ceilDiv nl 4) cl
            if (sivOpen c2s [m.take au.2.2, nonce] ct).isNone then c1.authFail
            else
              let n := min (c1.fld F.SEAL_SVC_CFG_MAX_CK) (1 + (of EF_PLACEHOLDER).length)
              let mk := match c1.ntsKey 0 with | some d => if d.mint then 0 else kk | none => kk
              match c1.ntsKey mk with
              | none => c1.keyGone
              | some d =>
                let cks := mintFields d.bytes (c1.fld (F.SEAL_NTS_KEY_KID_KID mk)) (c2s ++ s2c) n c1
                let nn := cks.2.freeBytes 16
                let c2 := nn.2
                let w := c2.ntpFront m 4 (c2.stampIn p ps f) uid
                let ef := beBytes 2 EF_AUTH ++ beBytes 2 (40 + 104 * n) ++ beBytes 2 16 ++ beBytes 2 (16 + 104 * n) ++ nn.1 ++ List.replicate (16 + 104 * n) 0#8
                c2.submit p (c2.respQueue p y) (c2.ntpFrame p k (w.1 ++ ef) w.2.1 (.ntp w.2.2.teb) (.nts s2c nn.1 cks.1)
                  ((if mk = kk then [d.slot] else [d.slot]) ++ (match c2.ntsKey kk with | some x => [x.slot] | none => [])) true)
      | _, _, _ => c1.authFail

/-! ### Unicast negotiation (R205 to R208) -/

def grantUsed (c : Channel) : Nat := c.cur F.SEAL_GRANT_USED_USED
def rateOf (g : Option (Int × Int)) : Nat := match g with | some x => grantRate x.1 | none => 0

/-- A grant of a client released, its rate returned; an entry without grants becomes FREE. -/
def releaseGrant (i : Nat) (c : Channel) (k : GrantKind) : Channel :=
  match c.client? i with
  | none => c
  | some e =>
    match e.grant k with
    | none => c
    | some g =>
      let c1 := c.put F.SEAL_GRANT_USED_USED (c.grantUsed - grantRate g.1)
      let e1 := e.setGrant k none
      c1.putClient i (if e1.granted then some e1 else none)

/-- CT_CMD.REVOKE (R206). -/
def revoke (c : Channel) : Channel := [.sync, .dresp, .ann].foldl (releaseGrant (c.cur F.SEAL_CT_CMD_INDEX)) c

/-- Expiry of the grants of client `i` (R207). -/
def grantExpiry (c : Channel) (i : Nat) : Channel :=
  [.sync, .dresp, .ann].foldl (fun c k =>
    match (c.client? i).bind (fun e => e.grant k) with
    | none => c
    | some g => if g.2 ≤ c.nowSec then releaseGrant i c k else c) c

/-- The shortest period that NEG_CFG grants. -/
def minLog (c : Channel) : GrantKind → Int
  | .sync => c.sfld F.SEAL_NEG_CFG_MIN_SYNC
  | .dresp => c.sfld F.SEAL_NEG_CFG_MIN_DRESP
  | .ann => c.sfld F.SEAL_NEG_CFG_MIN_ANN

/-- A request TLV for one message type (R207): the duration granted, 0 for a denial. -/
def grantRequest (c : Channel) (p : PortIx) (k : Pkt) (pid : Bytes) (sa : Option Nat) (kind : GrantKind) (log : Int) (dur : Nat) : Nat × Channel :=
  let found := c.findClient p k pid
  let ix := match found with | some x => x.1 | none => freeEntry 0 c.sealb.clients
  let old := match found with | some x => rateOf (x.2.grant kind) | none => 0
  let full := decide (ix ≥ 262144)
  let overBudget := decide (c.fld F.SEAL_GRANT_BUDGET_BUDGET < c.grantUsed - old + grantRate log)
  let bound := match sa with | some s => c.saGmac s && c.sealb.clients.any (fun e => e.1 != ix && e.2.sa == s) | none => false
  let deny (c : Channel) : Nat × Channel := (0, (c.bump F.SEAL_CNT4_GRANT_DENY).evt F.SEAL_EVT_DENY)
  if !c.unicastOk p || decide (log < c.minLog kind) then deny c
  else if full then deny (c.evt F.SEAL_EVT_CT_FULL)
  else if overBudget || bound then deny c
  else
    let d := min dur (c.fld F.SEAL_NEG_DUR_MAX_DUR)
    let rec? := c.classRec p k
    let s := match sa with | some s => s | none => 0xFF
    let base : Client := match found with
      | some x => { x.2 with sa := s, auth := sa.isSome }
      | none => ⟨k.ip == some true, k.ip.isNone, k.vid.isSome, match rec? with | some r => r.two | none => false, sa.isSome, p.val, s,
          match rec? with | some r => r.group | none => c.fld F.SEAL_SVC_CFG_DGRP, k.vid.getD 0, k.src, if k.ip.isSome then k.sip else List.replicate 16 0#8,
          pid, match k.udp with | some u => u.1 | none => 0, none, none, none, 0, 0, 0, 0, 0, c.nowSec⟩
    let c1 := c.put F.SEAL_GRANT_USED_USED (c.grantUsed - old + grantRate log)
    (d, c1.putClient ix (some ({ base with lastRx := c.nowSec }.setGrant kind (some (log, c.nowSec + d)))))

/-- The master's answers to the lane client: a grant, or a denial with duration 0 (R314). -/
def laneGranted (c : Channel) (p : PortIx) (kind : GrantKind) (log : Int) (dur : Nat) : Channel :=
  let l := c.lc p
  let n := (c.laneRecs p).length
  if dur = 0 then
    let had := l.sync.isSome || l.dresp.isSome || l.ann.isSome
    c.updLc p (fun l => { LaneClient.reset with idx := if had then 0 else (l.idx + 1) % max 1 n, sigSeq := l.sigSeq, reqSeq := l.reqSeq })
  else
    let g : LaneGrant := ⟨c.nowSec + dur, log⟩
    c.updLc p (fun l => match kind with
      | .sync => { l with asked := false, sync := some g }
      | .dresp => { l with asked := false, dresp := some g }
      | .ann => { l with asked := false, ann := some g })

/-- One TLV of a Signaling message: what it does, and the result TLV that answers it. -/
def signalTlv (p : PortIx) (k : Pkt) (pid : Bytes) (sa : Option Nat) (lane : Bool) (acc : Bytes × Channel) (t : Nat × Bytes × Nat) : Bytes × Channel :=
  let c := acc.2
  let v := t.2.1
  let ty := byteAt v 0 / 16
  match grantKind ty with
  | none => acc
  | some kind =>
    if t.1 = 0x0004 then
      let r := c.grantRequest p k pid sa kind (signed 8 (byteAt v 1)) (beAt v 2 4)
      (acc.1 ++ tlv 0x0005 (by1 (ty * 16) ++ by1 (byteAt v 1) ++ beBytes 4 r.1 ++ by1 0 ++ by1 1), r.2)
    else if t.1 = 0x0006 then
      let c1 := if lane then c.laneGranted p kind 0 0
        else match c.findClient p k pid with | some x => releaseGrant x.1 c kind | none => c
      (acc.1 ++ tlv 0x0007 (by1 (ty * 16) ++ by1 0), c1)
    else if t.1 = 0x0005 ∧ lane then (acc.1, c.laneGranted p kind (signed 8 (byteAt v 1)) (beAt v 2 4))
    else acc

/-- A frame handed to the exception cores, with the answer that they will queue (R202). -/
def toCores (c : Channel) (p : PortIx) (f : Option QFrame) : Channel :=
  (c.setSeal { c.sealb with exc := c.sealb.exc ++ [⟨p, f⟩] }).pmuEvt 0x17 p

/-- Whether the exception cores' queue of 256 is full; a frame that finds it so is counted. -/
def excFull (c : Channel) : Bool := decide (256 ≤ c.sealb.exc.length)
def excDrop (c : Channel) : Channel := (c.bump F.SEAL_CNT4_EXC_DROP).evt F.SEAL_EVT_EXC_DROP

/-- The Signaling message that answers, with its result TLVs. -/
def signalFrame (c : Channel) (p : PortIx) (d : Dest) (pid tlvs : Bytes) (seq : Nat) (sa : Option Nat) (client : Option Nat) : QFrame :=
  c.ptpFrame p d MT_SIGNALING (c.baseFlags p + FL_UNICAST) 0 seq 0x7F (pid ++ tlvs) none false sa .none false client 0

/-- The sequenceId of a client's next Signaling (R205): its entry's, or behind the Signaling that still waits or is on its way, which advances
the entry only when it leaves (R225). -/
def nextSig (c : Channel) (p : PortIx) (i : Nat) (e : Client) : Nat :=
  let fs := (c.ps p).flight.map (·.frame) ++ (c.sp p).queues.flatMap (fun q => q.2.frames) ++ c.sealb.exc.filterMap (·.frame)
  match (fs.filter (fun f => f.client == some i && f.msg == MT_SIGNALING)).getLast? with
  | some f => wrapInc 16 f.seqid
  | none => e.seqSig

/-- A Signaling message received (R207): the cores apply its TLVs, and answer with one message. -/
def signalingRx (c0 : Channel) (p : PortIx) (bs : Bytes) : Channel :=
  match c0.rxTake p bs (· == .ptp MT_SIGNALING) with
  | none => c0
  | some (k, c) =>
    let m := k.payload bs
    let pid := ptpPort m
    let a := c.ptpAuth m
    match c.requestGate p k (bs.length + 4) (some pid) (c.flag (F.SEAL_P_SVC_PTP_AUTH_REQ p.val) && a == .absent) false with
    | (none, c1) => c1
    | (some _, c1) =>
      if c1.excFull then c1.excDrop
      else match c1.authGate a with
        | (none, c2) => c2
        | (some sa, c2) =>
          let r := (ptpTlvs m).foldl (signalTlv p k pid sa (c2.fromMaster p k m)) ([], c2)
          if r.1.isEmpty then r.2.toCores p none
          else
            match r.2.findClient p k pid with
            | some x => r.2.toCores p (some (r.2.signalFrame p (r.2.replyDest p k) pid r.1 (r.2.nextSig p x.1 x.2) sa (some x.1)))
            | none =>
              let s := r.2.free 16
              s.2.toCores p (some (s.2.signalFrame p (s.2.replyDest p k) pid r.1 s.1 sa none))

/-! ### The exception cores' other frames (R202) -/

/-- A frame that is no PTP or NTP message. -/
def plainFrame (bs : Bytes) : QFrame := ⟨padTo (max 60 bs.length) bs, 0, 0, 0xF, 0, .none, none, .none, [], false, false, none, none, 0, false, 0⟩

def vlanTag (k : Pkt) : Bytes := match k.vid with | some v => beBytes 2 0x8100 ++ beBytes 2 v | none => []

/-- The answer to an ARP request for the port's address. -/
def arpReply (c : Channel) (p : PortIx) (k : Pkt) (bs : Bytes) : Option QFrame :=
  let o := k.l3
  if !anyByte (c.portV4 p) || slice bs (o + 24) 4 != c.portV4 p then none
  else some (plainFrame (slice bs (o + 8) 6 ++ c.portMac p ++ vlanTag k ++ beBytes 2 0x0806 ++ slice bs o 6 ++ beBytes 2 2 ++ c.portMac p ++ c.portV4 p ++
    slice bs (o + 8) 10))

/-- An ICMPv6 message around its body, with its checksum. -/
def icmp6 (c : Channel) (p : PortIx) (k : Pkt) (hop : Nat) (body : Bytes) : QFrame :=
  let src := c.portV6 p
  let s := inetSum (src ++ k.sip ++ beBytes 4 body.length ++ beBytes 4 58 ++ body)
  plainFrame (k.src ++ c.portMac p ++ vlanTag k ++ beBytes 2 0x86DD ++ by1 0x60 ++ beBytes 3 0 ++ beBytes 2 body.length ++ by1 58 ++ by1 hop ++ src ++ k.sip ++
    patch body 2 (beBytes 2 s))

/-- The answer to a Neighbor Solicitation for the port's address, or to an echo request, with at most 128 bytes of its data. -/
def icmpReply (c : Channel) (p : PortIx) (k : Pkt) (bs : Bytes) : Option QFrame :=
  let o := k.l4
  match k.ip with
  | some true =>
    if byteAt bs o = 135 then
      if slice bs (o + 8) 16 != c.portV6 p then none
      else some (c.icmp6 p k 255 (by1 136 ++ by1 0 ++ beBytes 2 0 ++ beBytes 4 0x60000000 ++ c.portV6 p ++ by1 2 ++ by1 1 ++ c.portMac p))
    else if k.dip != c.portV6 p then none
    else
      let n := min 128 (beAt bs (k.l3 + 4) 2 - 8)
      some (c.icmp6 p k 64 (by1 129 ++ by1 0 ++ beBytes 2 0 ++ slice bs (o + 4) (4 + n)))
  | _ =>
    if k.dip != mapV4 (c.portV4 p) then none
    else
      let n := min 128 (beAt bs (k.l3 + 2) 2 - (o - k.l3) - 8)
      let b := by1 0 ++ by1 0 ++ beBytes 2 0 ++ slice bs (o + 4) (4 + n)
      let h := by1 0x45 ++ by1 0 ++ beBytes 2 (20 + b.length) ++ beBytes 4 0 ++ by1 64 ++ by1 1 ++ beBytes 2 0 ++ c.portV4 p ++ k.sip.drop 12
      some (plainFrame (k.src ++ c.portMac p ++ vlanTag k ++ beBytes 2 0x0800 ++ patch h 10 (beBytes 2 (inetSum h)) ++ patch b 2 (beBytes 2 (inetSum b))))

/-- An ARP request, Neighbor Solicitation or echo request received. -/
def exceptionRx (c0 : Channel) (p : PortIx) (bs : Bytes) : Channel :=
  match c0.rxTake p bs (· == .exc) with
  | none => c0
  | some (k, c) =>
    match c.requestGate p k (bs.length + 4) none false false with
    | (none, c1) => c1
    | (some _, c1) =>
      if c1.excFull then c1.excDrop
      else c1.toCores p (if k.etype = 0x0806 then c1.arpReply p k bs else c1.icmpReply p k bs)

/-- An exception core finishes the oldest frame and queues its answer on QX. -/
def coreResponse (c : Channel) : Channel :=
  match c.sealb.exc with
  | [] => c
  | x :: r =>
    let c1 := c.setSeal { c.sealb with exc := r }
    match x.frame with
    | none => c1
    | some f => c1.submit x.port (c1.qx x.port) f

/-- A frame for the channel of no class that it serves. -/
def unsupRx (c : Channel) (p : PortIx) (bs : Bytes) : Channel :=
  match c.rxTake p bs (· == .unsup) with
  | none => c
  | some (_, c1) => c1.bump F.SEAL_CNT0_UNSUP

/-! ### Transit frames (R187, R188, R216) -/

/-- Whether a transit-class frame is one that the channel forwards: no Pdelay message, nothing of IEEE 802.1AS. -/
def transitOk (m : Bytes) : Bool :=
  byteAt m 0 / 16 != 1 && !([MT_PDELAY_REQ, MT_PDELAY_RESP, MT_PDELAY_RESP_FU].contains (ptpType m))

/-- A frame that is not for the channel and not transit, or a PTP frame that R187 does not forward. -/
def notMineRx (c : Channel) (p : PortIx) (bs : Bytes) : Channel :=
  let k := parsePkt bs
  match c.rxTake p bs (fun x => x == .notMine || (x == .transit && !transitOk (k.payload bs))) with
  | none => c
  | some (_, c1) => c1.bump F.SEAL_CNT0_NOT_MINE

/-- A transit frame queued on QT of the other port. -/
def transitRx (c0 : Channel) (p : PortIx) (ps : Nat) (f : Int) (bs : Bytes) : Channel :=
  let k := parsePkt bs
  let m := k.payload bs
  match c0.rxTake p bs (fun x => x == .transit && transitOk m) with
  | none => c0
  | some (_, c) =>
    let e : PortIx := 1 - p
    let ev := ptpType m == MT_SYNC || ptpType m == MT_DELAY_REQ
    let late := Late.transit (if ev then some (c.stampIn p ps f).t else none)
    let bnd := if ev then (c.rxBound m).map (fun t => t.1 + k.ofs) else none
    let go (c : Channel) (sa : Option Nat) : Channel :=
      let u := c.sealWith sa
      c.submit e (c.qt e) ⟨bs, k.ofs, m.length, ptpType m, ptpSeq m, late, bnd, u.1, u.2, false, false, none, none, 0, false, 0⟩
    match (ptpTlvs m).find? (fun t => t.1 == 0x8009) with
    | none => go c none
    | some t =>
      let known := match c.saOfTlv t.2.1 with | some s => c.flag (F.SEAL_SA_CFG_TRANSIT s) && (c.saKey s).isSome | none => false
      if known then
        match c.authGate (c.ptpAuth m) with
        | (some (some s), c1) => go c1 (some s)
        | (_, c1) => c1
      else if c.fld F.PORT_CTL_TNK = 0 then c.bump (F.PORT_P_CNT1_TR_DROP p.val)
      else go c none

/-! ### Due messages (R203, R208 to R211) -/

/-- Whether an instant n × T + `ofs` of channel time, for a whole n, falls in this tick. -/
def dueHere (c : Channel) (period ofs : Int) : Bool :=
  let b := (c.dpll.ctr - ofs * 2 ^ 32)
  let per := period * 2 ^ 32
  let n := -(Int.fdiv (-b) per)
  decide (n * per + ofs * 2 ^ 32 < c.ctrAfter 1)

/-- A due message that this tick has not built yet, by its client index and kind: noted as built (R208). -/
def dueOnce (c : Channel) (key : Nat × Nat) : Option Channel :=
  if c.sealb.built.contains key then none else some (c.setSeal { c.sealb with built := key :: c.sealb.built })

/-- The Announce body and flags (R211). -/
def announceBody (c : Channel) : Nat × Bytes :=
  let s := c.nowSec
  let w := c.leapWin s
  let tt := c.dpll.st != .freerun && !c.unsync && decide (c.teb ≤ c.fld F.SEAL_ANN_TT_TT_LIM)
  let ft := !c.unsync && decide (c.fbNow ≤ c.fld F.SEAL_ANN_FT_FT_LIM)
  (b2n (w == 1) + 2 * b2n (w == 2) + 4 * b2n (c.utcValid s) + 8 + 16 * b2n tt + 32 * b2n ft,
   tsZero ++ beBytes 2 (unsigned 16 (c.utcOfs s)) ++ by1 0 ++ by1 (c.fld F.SEAL_ANN_CFG_PRIO1) ++ by1 c.clockClass ++ by1 (clockAccuracy c.teb) ++
    beBytes 2 (c.fld F.SEAL_ANN_VAR_OSLV) ++ by1 (c.fld F.SEAL_ANN_CFG_PRIO2) ++ c.clockId ++ beBytes 2 0 ++ by1 (c.fld F.SEAL_ANN_CFG_TSRC))

/-- A Sync for a destination (R210). -/
def syncFrame (c : Channel) (p : PortIx) (d : Dest) (two uni : Bool) (seq : Nat) (log : Int) (sa client : Option Nat) : QFrame :=
  c.ptpFrame p d MT_SYNC (c.baseFlags p + (if two then FL_TWO_STEP else 0) + if uni then FL_UNICAST else 0) 0 seq log tsZero
    (if c.ptpBound && !two then some (c.boundTlv 0 0) else none) (!two) sa (.sync two) two client 0

def annFrame (c : Channel) (p : PortIx) (d : Dest) (uni : Bool) (seq : Nat) (log : Int) (sa client : Option Nat) : QFrame :=
  let b := c.announceBody
  c.ptpFrame p d MT_ANNOUNCE (b.1 + if uni then FL_UNICAST else 0) 0 seq log b.2 none false sa .none false client 0

/-- A due unicast Sync or Announce of client `i` (R208). -/
def unicastDue (c : Channel) (i : Nat) (ann : Bool) : Channel :=
  match c.client? i with
  | none => c
  | some e =>
    let p : PortIx := if e.port = 0 then 0 else 1
    match (if ann then e.ann else e.sync) with
    | none => c
    | some g =>
      let per := logGt g.1
      if !c.dueHere per (sar (i * per) 18) || c.silent then c
      else match c.dueOnce (i + 1, b2n ann) with
      | none => c
      | some c =>
        let sa := if e.sa < 16 then some e.sa else none
        let d := c.clientDest e
        if ann then
          (c.putClient i (some { e with seqAnn := wrapInc 16 e.seqAnn })).submit p (c.qt p) (c.annFrame p d true e.seqAnn g.1 sa (some i))
        else
          (c.putClient i (some { e with seqSync := wrapInc 16 e.seqSync })).submit p (c.qt p)
            (c.syncFrame p d (!c.oneStep p || e.two) true e.seqSync g.1 sa (some i))

/-- The multicast destinations of a port: the profile's Ethernet address, and the IP groups of the addresses that the port has. -/
def mcDests (c : Channel) (p : PortIx) : List Dest :=
  (match c.mcAddr p with | some m => [c.mcDest p m] | none => []) ++
  (if c.mcIp p then
    (if anyByte (c.portV4 p) then [{ c.mcDest p (groupMac4 mcV4) with ip := some false, sip := mapV4 (c.portV4 p), dip := mapV4 mcV4 }] else []) ++
    (if anyByte (c.portV6 p) then [{ c.mcDest p (groupMac6 mcV6) with ip := some true, sip := c.portV6 p, dip := mcV6 }] else [])
  else [])

/-- A due multicast Sync or Announce, on every transport of the port's profile (R203, R208). -/
def multicastDue (c : Channel) (p : PortIx) (ann : Bool) : Channel :=
  let log := if ann then c.sfld (F.SEAL_P_LOG_ANN p.val) else c.sfld (F.SEAL_P_LOG_SYNC p.val)
  if c.mcDests p = [] ∨ c.silent ∨ !c.dueHere (logGt log) 0 then c
  else match c.dueOnce (0, 2 * p.val + b2n ann) with
  | none => c
  | some c =>
    let x := c.ps p
    let c1 := c.setPs p (if ann then { x with mcAnn := wrapInc 16 x.mcAnn } else { x with mcSync := wrapInc 16 x.mcSync })
    (c.mcDests p).foldl (fun c' d => c'.submit p (c.qt p)
      (if ann then c.annFrame p d false x.mcAnn log (c.mcSa p) none else c.syncFrame p d (!c.oneStep p) false x.mcSync log (c.mcSa p) none)) c1

/-- A Pdelay_Req of a GPTP port, due once per 2^PDELAY s as R208 has it of a multicast message; the exchange begins (R203). -/
def pdelayReqSend (c : Channel) (p : PortIx) : Channel :=
  let due := if c.isGptp p && c.dueHere (logGt (c.sfld (F.SEAL_P_LOG_PDELAY p.val))) 0 then c.dueOnce (0, 4 + p.val) else none
  match due, c.mcAddr p with
  | some c, some mac =>
    let l := c.lc p
    let c1 := c.updLc p (fun l => { l with reqSeq := wrapInc 16 l.reqSeq, pdelay := some ⟨l.reqSeq, none, none⟩ })
    c1.submit p (c.qt p) (c.ptpFrame p (c.mcDest p mac) MT_PDELAY_REQ (c.baseFlags p) 0 l.reqSeq (c.sfld (F.SEAL_P_LOG_PDELAY p.val))
      (tsZero ++ tsZero) none false (c.mcSa p) .request (!c.oneStep p) none 0)
  | _, _ => c

/-- Whether the lane client of a port negotiates (R314). -/
def negotiates (c : Channel) (p : PortIx) : Bool := c.unicastOk p

/-- The period at which the lane client asks for the delay: that of the master's grant while it lasts, or of its record on a profile without
negotiation (R209, R314). -/
def dreqLog (c : Channel) (p : PortIx) (r : LaneRec) : Option Int :=
  if !c.negotiates p then some r.logDresp
  else match (c.lc p).dresp with
    | some g => if c.nowSec < g.exp then some g.log else none
    | none => none

/-- The lane client's Delay_Req, or its Pdelay_Req on a GPTP port (R209), at the instants n × T of channel time (notes/assumptions/102.md). -/
def laneDelayReq (c : Channel) (p : PortIx) : Channel :=
  match c.master p with
  | none => c
  | some r =>
    let l := c.lc p
    let due := match c.dreqLog p r with
      | some g => if c.dueHere (logGt g) 0 then c.dueOnce (0, 6 + p.val) else none
      | none => none
    if c.isGptp p then c.pdelayReqSend p
    else if c.profile p = 0 then c
    else match due with
    | none => c
    | some c =>
      let c1 := c.updLc p (fun l => { l with reqSeq := wrapInc 16 l.reqSeq, dreq := some (l.reqSeq, none) })
      c1.submit p (c.qt p) (c.ptpFrame p (c.masterDest p r) MT_DELAY_REQ (c.baseFlags p + FL_UNICAST) 0 l.reqSeq 0x7F tsZero none false none .request
        (!c.oneStep p) none 0)

/-- The cores request service for a lane (R209, R314): after a lapse from the first record, without an answer from the next. -/
def laneNegotiate (c : Channel) (p : PortIx) : Channel :=
  let n := (c.laneRecs p).length
  if n = 0 ∨ !c.negotiates p then c
  else
    let l0 := c.lc p
    let lapsed := [l0.sync, l0.dresp, l0.ann].any (fun g => match g with | some x => decide (x.exp ≤ c.nowSec) | none => false)
    let l := if lapsed then { LaneClient.reset with sigSeq := l0.sigSeq, reqSeq := l0.reqSeq }
      else if l0.asked then { LaneClient.reset with idx := (l0.idx + 1) % n, sigSeq := l0.sigSeq, reqSeq := l0.reqSeq }
      else l0
    let c1 := c.updLc p (fun _ => { l with asked := true, sigSeq := wrapInc 16 l.sigSeq })
    match c1.master p with
    | none => c1
    | some r =>
      let rq (ty : Nat) (log : Int) : Bytes := tlv 0x0004 (by1 (ty * 16) ++ by1 (unsigned 8 log) ++ beBytes 4 r.dur)
      let f := c1.signalFrame p (c1.masterDest p r) r.portId (rq MT_SYNC r.logSync ++ rq MT_DELAY_RESP r.logDresp ++ rq MT_ANNOUNCE r.logAnn) l.sigSeq none none
      c1.submit p (c1.qx p) f

/-! ### Messages of the followed master (R189, R191, R209) -/

/-- A message of the lane's master let through to the lane: its parts and the channel. -/
def laneTake (c0 : Channel) (p : PortIx) (bs : Bytes) (ty : Nat) : Option Bytes × Channel :=
  match c0.rxTake p bs (· == .lane ty) with
  | none => (none, c0)
  | some (k, c) =>
    let m := k.payload bs
    match c.master p with
    | none => (none, c)
    | some r =>
      if r.sa ≥ 16 then (some m, c)
      else match c.ptpAuth m with
        | .ok s => if s = r.sa then (some m, c) else (none, c.authFail)
        | _ => (none, c.authFail)

/-- The source bound of a message: TEB and tag of its bound TLV. -/
def srcBound (c : Channel) (m : Bytes) : Option (Bound × Word) := (c.rxBound m).map (fun t => t.2)

/-- A Sync of the master, `ps` and `f` giving its ingress stamp. -/
def syncRx (c0 : Channel) (p : PortIx) (ps : Nat) (f : Int) (bs : Bytes) : Channel :=
  match c0.laneTake p bs MT_SYNC with
  | (none, c) => c
  | (some m, c) =>
    let st := c.stampIn p ps f
    let lg := ptpLog m
    let c1 := if lg = 0x7F then c else c.updLc p (fun l => { l with rxLog := some lg })
    if ptpTwoStep m then c1.updLc p (fun l => { l with pend := some ⟨ptpSeq m, ptpCorr m, st.t, st.k, c.jour.tick⟩ })
    else
      let ts := ptpTsAt m 34
      c1.ptpRecord p (ofPtp ts.1 ts.2 (ptpCorr m)) st.t st.k (ptpSeq m) (c.srcBound m)

/-- A Follow_Up of the master: it completes the two-step Sync of its sequenceId. -/
def followUpRx (c0 : Channel) (p : PortIx) (bs : Bytes) : Channel :=
  match c0.laneTake p bs MT_FOLLOW_UP with
  | (none, c) => c
  | (some m, c) =>
    match (c.lc p).pend with
    | none => c
    | some s =>
      if s.seq ≠ ptpSeq m then c
      else
        let ts := ptpTsAt m 34
        c.ptpRecord p (ofPtp ts.1 ts.2 (s.corr + ptpCorr m)) s.t2 s.k s.seq (c.srcBound m)

/-- A Delay_Resp of the master: t4, and with the latest Sync pair before t3 a mean path delay. -/
def delayRespRx (c0 : Channel) (p : PortIx) (bs : Bytes) : Channel :=
  match c0.laneTake p bs MT_DELAY_RESP with
  | (none, c) => c
  | (some m, c) =>
    match (c.lc p).dreq with
    | some (q, some t3) =>
      if q ≠ ptpSeq m ∨ slice m 44 10 ≠ c.portId p then c
      else
        let ts := ptpTsAt m 34
        let t4 := ofPtp ts.1 ts.2 (-(ptpCorr m))
        match (c.lc p).pairs.find? (fun x => decide (x.2 < t3)) with
        | none => c.updLc p (fun l => { l with dreq := none })
        | some x => c.updLc p (fun l => { l with dreq := none, mpd := some (sar ((x.2 - x.1) + (t4 - t3)) 1) })
    | _ => c

/-- A Pdelay_Resp of the peer, or its Pdelay_Resp_Follow_Up. `ps` and `f` give the ingress stamp of the Pdelay_Resp. -/
def pdelayRespRx (c0 : Channel) (p : PortIx) (ps : Nat) (f : Int) (bs : Bytes) : Channel :=
  match c0.laneTake p bs MT_PDELAY_RESP with
  | (some m, c) =>
    match (c.lc p).pdelay with
    | some ⟨q, some t1, none⟩ =>
      if q ≠ ptpSeq m ∨ slice m 44 10 ≠ c.portId p then c
      else
        let t4 := (c.stampIn p ps f).t
        let ts := ptpTsAt m 34
        if ptpTwoStep m then c.updLc p (fun l => { l with pdelay := some ⟨q, some t1, some (ofPtp ts.1 ts.2 (ptpCorr m), t4)⟩ })
        else c.updLc p (fun l => { l with pdelay := none, mpd := some (sar ((t4 - t1) - ofPtp 0 0 (ptpCorr m)) 1) })
    | _ => c
  | (none, c1) =>
    match c1.laneTake p bs MT_PDELAY_RESP_FU with
    | (none, c) => c
    | (some m, c) =>
      match (c.lc p).pdelay with
      | some ⟨q, some t1, some (t2, t4)⟩ =>
        if q ≠ ptpSeq m ∨ slice m 44 10 ≠ c.portId p then c
        else
          let ts := ptpTsAt m 34
          let t3 := ofPtp ts.1 ts.2 (ptpCorr m)
          c.updLc p (fun l => { l with pdelay := none, mpd := some (sar ((t4 - t1) - (t3 - t2)) 1) })
      | _ => c

/-- An Announce of the master (R191): a UTC announcement on the lane selected for DPLL_A. -/
def announceRx (c0 : Channel) (p : PortIx) (bs : Bytes) : Channel :=
  match c0.laneTake p bs MT_ANNOUNCE with
  | (none, c) => c
  | (some m, c) =>
    let fl := byteAt m 7
    let n := ptpLane p
    if !maskOpen fl 2 || c.ref.selA.prev != some n then c
    else
      let c1 := c.utcAnnounce n (.offset (signed 16 (beAt m 44 2)))
      let c2 := if maskOpen fl 0 then c1.utcAnnounce n (.flag true) else c1
      if maskOpen fl 1 then c2.utcAnnounce n (.flag false) else c2

/-! ### Host transmit frames (R383, R384) and the egress commit (R183, R210, R214, R239) -/

/-- A software frame taken from a host transmit ring and enqueued. -/
def hostFrame (c : Channel) (p : PortIx) (q : Nat) (bs : Bytes) (tsReq : Bool) (handle : Nat) : Channel :=
  let k := parsePkt bs
  let m := k.payload bs
  let f : QFrame := ⟨bs, k.ofs, m.length, if k.isPtp then ptpType m else 0xF, handle % 65536, .none, none, .none, [], tsReq, true, some handle, none, 0, false, 0⟩
  c.enqueue p q (if k.isPtp then { f with msg := ptpType m } else f)

/-- The message of a queue frame. -/
def msgOf (f : QFrame) : Bytes := slice f.bytes f.ofs f.mlen
/-- A queue frame with its message replaced. -/
def withMsg (f : QFrame) (m : Bytes) : QFrame := { f with bytes := patch f.bytes f.ofs m }

/-- The late fields of a frame (R183, R210, R216, R222, R223) with egress stamp `st`. -/
def lateWrite (c : Channel) (f : QFrame) (p : PortIx) (st : Stamp) : QFrame :=
  let m := msgOf f
  let corr (m : Bytes) (x : Int) : Bytes := patch m 8 (beBytes 8 (unsigned 64 (corrAdd (ptpCorr m) x)))
  let t := toPtp st.t st.teb
  let bnd (m : Bytes) (teb : Bound) : Bytes :=
    match f.tlv with
    | none => m
    | some o => patch (patch m (o - f.ofs + 12) (beBytes 4 teb)) (o - f.ofs + 16) (beBytes 4 st.tag.toNat)
  match f.late with
  | .none | .request | .pdelayRespTwo => f
  | .sync two =>
    match t with
    | none => f
    | some t => let m1 := patch m 34 (tsBytes t); withMsg f (if two then m1 else bnd (corr m1 t.sub) t.teb)
  | .pdelayResp tI => withMsg f (corr m (scaledNs (st.t - tI)))
  | .ntp hI =>
    let x := toNtp (c.utcOfs (sar st.t 64)) st.t st.teb
    let h := max hI x.teb
    let m1 := patch (patch m 40 (ntpBytes x)) 8 (beBytes 4 (tebToNtpShort h))
    withMsg f (match f.tlv with
      | none => m1
      | some o =>
        let b := o - f.ofs
        patch (patch (patch m1 (b + 8) (beBytes 4 h)) (b + 12) (beBytes 4 st.tag.toNat)) (b + 16) (beBytes 4 (unsigned 32 x.era)))
  | .transit none => f
  | .transit (some tI) =>
    let r := st.t - tI
    let m1 := corr m (scaledNs r)
    let q := p.val
    withMsg f (match f.tlv with
      | none => m1
      | some o =>
        let b := o - f.ofs
        let gain := satAdd (satCap (tebOfPs (c.fld (F.PORT_P_ING_BUD_ING_BUD (1 - q)) + c.fld (F.PORT_P_EGR_BUD_EGR_BUD q)) + 2)) (grow 0 c.fbNow r)
        patch (patch m1 (b + 12) (beBytes 4 (satAdd (beAt m (b + 12) 4) gain))) (b + 20) (by1 (byteAt m (b + 20) ||| 1)))

/-- The late seal of a frame under the key that it was built with (R212 to R215, R219). -/
def sealFrame (f : QFrame) : QFrame :=
  let m := msgOf f
  match f.use with
  | .none => f
  | .sa _ alg ntp key sec =>
    let auth (o : Nat) : Bytes := match key with | some b => icv alg b sec m (m.take o) | none => []
    if alg = 4 || ntp then
      let o := m.length - 20
      withMsg f (m.take (o + 4) ++ auth o)
    else
      let o := m.length - 16
      withMsg f (m.take o ++ auth o)
  | .nts s2c nonce plain =>
    let o := m.length - (40 + plain.length)
    withMsg f (m.take (o + 24) ++ sivSeal s2c [m.take o, nonce] plain)

/-- The Follow_Up of a two-step Sync, or the Pdelay_Resp_Follow_Up, from the committed frame and its stamp (R210). -/
def followUp (c : Channel) (p : PortIx) (f : QFrame) (st : Stamp) : Option QFrame :=
  match toPtp st.t st.teb with
  | none => none
  | some t =>
    let k := parsePkt f.bytes
    let m := msgOf f
    let d : Dest := ⟨k.dst, k.src, k.vid, k.ip, k.sip, k.dip, 320, 320⟩
    let fl := beAt m 6 2 - FL_TWO_STEP
    let sa := match f.use with | .sa s _ _ _ _ => some s | _ => none
    match f.late with
    | .sync true => some (c.ptpFrame p d MT_FOLLOW_UP fl t.sub f.seqid (ptpLog m) (tsBytes t) (if c.ptpBound then some (c.boundTlv t.teb st.tag) else none)
        false sa .none false f.client 0)
    | .pdelayRespTwo => some (c.ptpFrame p d MT_PDELAY_RESP_FU fl t.sub f.seqid (ptpLog m) (tsBytes t ++ slice m 44 10) none false sa .none false none 0)
    | _ => none

/-- What a frame that has left changes in the client's entry (R205, R225): Syncs and Delay_Resp sent, the last request answered, the Signaling
sent. -/
def countClient (c : Channel) (f : QFrame) : Channel :=
  match f.client with
  | none => c
  | some i =>
    match c.client? i with
    | none => c
    | some e =>
      if f.msg = MT_SYNC then c.putClient i (some { e with nSync := wrapInc 32 e.nSync })
      else if f.msg = MT_DELAY_RESP then c.putClient i (some { e with nDresp := wrapInc 32 e.nDresp, lastRx := f.rxSec })
      else if f.msg = MT_SIGNALING then c.putClient i (some { e with seqSig := wrapInc 16 f.seqid })
      else c

/-- The egress stamps that the lane client keeps: t3 of its Delay_Req, t1 of its Pdelay_Req. -/
def keepStamp (c : Channel) (p : PortIx) (f : QFrame) (t : Gt) : Channel :=
  if f.late != .request then c
  else c.updLc p (fun l =>
    if f.msg = MT_DELAY_REQ then (match l.dreq with | some (q, _) => if q = f.seqid then { l with dreq := some (q, some t) } else l | none => l)
    else match l.pdelay with | some x => if x.seq = f.seqid then { l with pdelay := some { x with t1 := some t } } else l | none => l)

/-- The ticks from commit to a complete seal: 320 ns and 20 ns (R214). -/
def SEAL_TICKS : Nat := 68

/-- What a commit counts and starts (R184, R225, R407, R410): `f` is the frame as it leaves, `q` the ticks to the plane, which a sealed frame
does not pass before its seal is complete. -/
def commitCounts (c0 : Channel) (p : PortIx) (f : QFrame) (st : Stamp) (q : Nat) : Channel :=
  let c1 := c0.bwTx p f.len
  let plain := f.use == .none
  let c2 := if f.host then c1 else (let d := c1.pmuEvt 0x11 p; if plain then d.resolve false f.slots else d)
  let nak := f.nts && f.late == .none
  let c3 := if nak then (c2.bump F.SEAL_CNT1_NTS_NAK).evt F.SEAL_EVT_NAK else if f.nts then c2.pmuEvt 0x12 p else c2
  let c4 := if f.msg < 8 then c3.pmuEvt 0x13 p else c3
  let c5 := (if plain then c4 else c4.pmuEvt 0x1A p).keepStamp p f st.t
  let w := if f.ring then c5.tsrWrite p st f.seqid f.msg (if f.host then 4 else 0) (match f.handle with | some h => some h | none => f.client) else (none, c5)
  let e := c0.jour.tick + SEAL_TICKS
  w.2.updPs p (fun x => { x with flight := x.flight ++
    [⟨if plain then c0.jour.tick + q else max (c0.jour.tick + q) e, w.1, if plain then none else some e, f⟩] })

/-- A frame passes the plane: it has left. -/
def passOne (p : PortIx) (c : Channel) (f : InFlight) : Channel := (c.ask (.frame p f.frame.bytes)).countClient f.frame

/-- The frames of a port that pass the plane in this tick leave (R185, R225). -/
def passFrames (c : Channel) (p : PortIx) : Channel :=
  let fs := (c.ps p).flight
  (fs.filter (fun f => decide (f.pass ≤ c.jour.tick))).foldl (passOne p)
    (c.updPs p (fun x => { x with flight := fs.filter (fun f => decide (c.jour.tick < f.pass)) }))

/-- A seal completed in this tick: the frame's slots are RETIRED (R214, R410). -/
def sealDone (c : Channel) (f : InFlight) : Channel :=
  if f.sealEnd == some c.jour.tick && !f.frame.host then c.resolve false f.frame.slots else c

/-- What a new tick does with the frames in flight. -/
def flightTick (c : Channel) (p : PortIx) : Channel := ((c.ps p).flight.foldl sealDone c).passFrames p

/-- A frame that a SILENT channel does not send (R227): a response, Sync, Follow_Up or Announce. -/
def silenced (f : QFrame) : Bool :=
  match f.host, f.late with
  | true, _ => false
  | _, .transit _ => false
  | _, .ntp _ => true
  | _, _ => f.nts || [MT_SYNC, MT_FOLLOW_UP, MT_ANNOUNCE, MT_DELAY_RESP, MT_PDELAY_RESP, MT_PDELAY_RESP_FU].contains f.msg

/-- A frame that answers a request. -/
def answers (f : QFrame) : Bool :=
  match f.late with
  | .ntp _ => true
  | _ => f.nts || f.msg == MT_DELAY_RESP || f.msg == MT_PDELAY_RESP

/-- The frames of a port that SILENT keeps from being sent are discarded (R227). -/
def dropSilent (c : Channel) (p : PortIx) : Channel :=
  if c.silent then c.dropWhere p silenced (fun out c => c.bumpBy F.SEAL_CNT2_SILENT (countIf answers out)) else c

/-- EGRESS_COMMIT: a port that is UP and free commits the head of the queue that R239 selects, `ps` picoseconds from the start of the tick;
`fE` is the frame part of its latency. In the tick in which the port leaves UP the frame is discarded (R186). -/
def egressCommit (c0 : Channel) (p : PortIx) (ps : Nat) (fE : Int) : Channel :=
  if !(c0.portUp p || (c0.ps p).lost) || !c0.run || decide (c0.jour.tick < (c0.sp p).freeAt) then c0
  else
    let c := c0.dropSilent p
    match c.select? p with
    | none => c
    | some q =>
      match c.commitQ p q with
      | (none, c1) => c1
      | (some f, c1) =>
        let st := c1.stampOut p ps fE
        if f.msg < 8 && (toPtp st.t st.teb).isNone then wasted p (c1.notExp p) f
        else
          let f1 := sealFrame (c1.lateWrite f p st)
          let bytes := if f1.bytes = f.bytes then f1.bytes else refreshSum f1.bytes f1.ofs f1.mlen
          let span := (ps + (c1.latEgr p fE).toNat) / 5000
          let c2 := c1.commitCounts p { f with bytes := bytes } st span
          if (c2.ps p).lost then c2.dropFlights p
          else
            let c3 := c2.passFrames p
            match c3.followUp p f st with
            | none => c3
            | some fu => c3.submit p (c3.qt p) fu

/-- A tamper alarm (R226): every frame whose seal is in progress is discarded before its first byte. -/
def sealAbort (c : Channel) : Channel :=
  [(0 : PortIx), 1].foldl (fun c p =>
    let fs := (c.ps p).flight
    let bad (f : InFlight) : Bool := match f.sealEnd with | some e => decide (c.jour.tick < e) | none => false
    let out := fs.filter bad
    if out.isEmpty then c
    else out.foldl (discardFlight p)
      (((c.updPs p (fun x => { x with flight := fs.filter (fun f => !bad f) })).bumpBy F.SEAL_CNT3_SEAL_ABORT out.length).evt F.SEAL_EVT_ABORT)) c

end Channel
end Sys2Proof.Machine
end

