-- ==== Sys2Proof/Machine/SynOps.lean ====
section
/-! DEFINITION. The SYN block: synthesizers, outputs, pulses, realignment and the ToD output (R148 to R172). -/
namespace Sys2Proof.Machine

/-! Codes of SYNk_STAT.STATE (R172). -/
def SYN_OFF : Nat := 0
def SYN_ACQ : Nat := 1
def SYN_LOCKED : Nat := 2
def SYN_COAST : Nat := 3

/-- PRE of R148 from its code. -/
def preOf (code : Nat) : Nat := match code with | 0 => 4 | 1 => 5 | 2 => 6 | _ => 8

namespace Channel

def setSyn (c : Channel) (y : SynBlk) : Channel := { c with syn := y }
def synK (c : Channel) (k : Nat) : SynK := if k = 0 then c.syn.k0 else c.syn.k1
def setSynK (c : Channel) (k : Nat) (x : SynK) : Channel :=
  c.setSyn (if k = 0 then { c.syn with k0 := x } else { c.syn with k1 := x })
def setSynK' (c : Channel) (k : Nat) (f : SynK → SynK) : Channel := c.setSynK k (f (c.synK k))
def out (c : Channel) (m : Fin 8) : OutSt := c.syn.outs[m]
def updOut (c : Channel) (m : Fin 8) (f : OutSt → OutSt) : Channel :=
  c.setSyn { c.syn with outs := c.syn.outs.set m (f c.syn.outs[m]) }
def plse (c : Channel) (j : Fin 2) : PlsSt := c.syn.pls[j]
def updPls (c : Channel) (j : Fin 2) (f : PlsSt → PlsSt) : Channel :=
  c.setSyn { c.syn with pls := c.syn.pls.set j (f c.syn.pls[j]) }

def synSt (c : Channel) (k : Nat) : Nat := c.cur (F.SYN_SYN_STAT_STATE k)
/-- FOLLOW in use: 0 FIXED, 1 DPLL_A, 2 DPLL_B, 3 REFIN (R149). -/
def follow (c : Channel) (k : Nat) : Nat := c.fld (F.SYN_SYN_CFG_FOLLOW k)
/-- The enabled outputs that name synthesizer `k`. -/
def synOuts (c : Channel) (k : Nat) : List (Fin 8) :=
  (List.finRange 8).filter (fun m => c.flag (F.SYN_OUT_CFG_EN m.val) && c.fld (F.SYN_OUT_CFG_SRC m.val) == k)
def outSrc (c : Channel) (m : Fin 8) : Nat := c.fld (F.SYN_OUT_CFG_SRC m.val)
/-- A time output (R149). -/
def timeOut (c : Channel) (m : Fin 8) : Bool := c.follow (c.outSrc m) == 1

/-- PDEV (R151). -/
def pdev (c : Channel) : Gt := sar (c.syn.ots - c.dpll.ctr) 32
/-- OTS at the start of the next tick. -/
def otsNext (c : Channel) : Int := c.advanceTime.syn.ots

/-- f_out of an output as a fraction (R148). -/
def fOut (c : Channel) (m : Fin 8) : Nat × Nat :=
  let k := c.outSrc m
  (c.fld (F.SYN_SYN_FNUM_NUM k) * c.fld (F.SYN_SYN_CFG_NFB k),
   c.fld (F.SYN_SYN_FDEN_DEN k) * preOf (c.fld (F.SYN_OUT_CFG_PRE m.val)) * c.fld (F.SYN_OUT_DIV_DIV m.val))

/-- The axis on which SYNk, following `fw`, counts: its value at the start of the tick, now and at the start of the next, and the units of
a second (R149, R150). A DPLL_A plan counts OTS, a FIXED or DPLL_B plan its own reference. The reference of a REFIN plan comes from
outside: it has no axis here. -/
def axis (c : Channel) (k fw : Nat) : Option (Int × Int × Int × Nat) :=
  if fw = 1 then some (c.syn.ots0, c.syn.ots, c.otsNext, 2 ^ 96)
  else if fw = 3 then none
  else let p := (c.synK k).ph; some (p, p, p + c.refInc k, 200000000 * 2 ^ 64)

/-- An integer quotient rounded up. -/
def cdiv (a b : Int) : Int := -(Int.fdiv (-a) b)

/-- The first multiple of `num/den` at or after `x`, rounded up. -/
def multFrom (x num den : Int) : Int := if num = 0 then x else cdiv (cdiv (x * den) num * num) den

/-- The high part of an output's cycle in VCO cycles, of `n` (R157). -/
def highOf (n : Nat) : Nat := (n + 1) / 2

/-- PRE × DIV of an output. -/
def outN (c : Channel) (m : Fin 8) : Nat := preOf (c.fld (F.SYN_OUT_CFG_PRE m.val)) * c.fld (F.SYN_OUT_DIV_DIV m.val)

/-- The first falling edge of an output at or after `x` on an axis with `u` units a second (R157). -/
def fallFrom (c : Channel) (m : Fin 8) (u : Nat) (x : Int) : Int :=
  let f := c.fOut m
  let n := c.outN m
  let h : Int := highOf n
  if f.1 = 0 then x
  else
    let k := cdiv (x * f.1 * n - h * f.2 * u) (n * f.2 * u)
    cdiv ((k * n + h) * f.2 * u) (f.1 * n)

/-- An output that a cause stops which is not planned goes low at its first falling edge at or after this tick (R157). -/
def fallNow (c : Channel) (m : Fin 8) : Option Int :=
  match c.axis (c.outSrc m) (c.follow (c.outSrc m)) with
  | some a => some (c.fallFrom m a.2.2.2 a.1)
  | none => none

/-- Whether a stop has been asked of an output, and whether it is low by it. -/
def stopping (o : OutSt) : Bool := o.hold || o.sq || o.coast
def isLow (c : Channel) (m : Fin 8) : Bool :=
  let o := c.out m
  stopping o && (match o.stop, c.axis (c.outSrc m) (c.follow (c.outSrc m)) with
    | some t, some a => decide (t ≤ a.2.1)
    | _, _ => true)

/-- The RUN code of a released output until it restarts. -/
def restartWaits (c : Channel) (m : Fin 8) : Option Nat :=
  match (c.out m).restart, c.axis (c.outSrc m) (c.follow (c.outSrc m)) with
  | some t, some a => if a.2.1 < t.1 then some t.2 else none
  | _, _ => none

/-- Marks a stop on an output. A planned one has stopped it before (R157), and one that still awaits its restart is low. -/
def stopOut (c : Channel) (m : Fin 8) (planned : Bool) (f : OutSt → OutSt) : Channel :=
  let t := if planned || (c.restartWaits m).isSome then none else c.fallNow m
  c.updOut m (fun o => if stopping o then f o else f { o with stop := t, restart := none })

/-- The RUN code of what stops an output (R161). -/
def stopCode (o : OutSt) : Nat := if o.sq then 3 else if o.coast then 4 else 2

/-- Takes a cause of a stop away. A low output with no other cause restarts at its first rising edge at or after the end of this tick
(R157); one that has not yet gone low runs on. The reference of a REFIN plan gives no instant: such an output restarts at once
(notes/assumptions/101.md). -/
def release (c : Channel) (m : Fin 8) (f : OutSt → OutSt) : Channel :=
  let o := c.out m
  let low := c.isLow m
  let o1 := f o
  if !stopping o || stopping o1 then c.updOut m f
  else
    let f2 := c.fOut m
    let at' : Option (Int × Nat) := match low, c.axis (c.outSrc m) (c.follow (c.outSrc m)) with
      | true, some a => if f2.1 = 0 then none else some (multFrom a.2.2.1 (f2.2 * a.2.2.2) f2.1, stopCode o)
      | _, _ => none
    c.updOut m (fun _ => { o1 with stop := none, restart := at' })

/-- The state change of a synthesizer with its event (R172). -/
def synTo (c : Channel) (k st : Nat) : Channel :=
  if c.synSt k = st then c
  else (c.put (F.SYN_SYN_STAT_STATE k) st).evt (if k = 0 then F.SYN_EVT_SYN0 else F.SYN_EVT_SYN1)

/-- Enters ACQ; with `stop` the outputs stop until lock, else they run through it (R155). An output that COAST stopped is released
(R157, R159). -/
def toAcq (c : Channel) (k : Nat) (stop planned : Bool) : Channel :=
  let c1 := (c.synTo k SYN_ACQ).setSynK k { c.synK k with acqTick := c.jour.tick, noLock := false }
  (c1.synOuts k).foldl (fun c m =>
    if stop then (c.stopOut m planned (fun o => { o with hold := true, ran := false })).release m (fun o => { o with coast := false })
    else (c.release m (fun o => { o with coast := false })).updOut m (fun o => { o with ran := o.ran || !o.hold })) c1

/-- Enters COAST (R155, R159): outputs stop, or run through it and await a resync. -/
def toCoast (c : Channel) (k : Nat) (flag : KF) : Channel :=
  let c1 := ((c.synTo k SYN_COAST).evt flag).bump (F.SYN_SYN_STAT_RELOCKS k)
  (c1.synOuts k).foldl (fun c m =>
    if c.flag (F.SYN_SYN_CFG_COAST_SQ k) then c.stopOut m false (fun o => { o with coast := true })
    else c.updOut m (fun o => { o with ran := o.ran || !o.hold })) c1

def rlkHold (c : Channel) (k : Nat) : Bool := c.flag (F.SYN_SYN_CFG_RLK_HOLD k)

/-- PERR: the last phase error, signed ps, saturated; MDLL and IL only (R172). -/
def setPerr (c : Channel) (k : Nat) (e : Int) : Channel :=
  if c.fld (F.SYN_SYN_CFG_LOOP k) = 0 then c else c.put (F.SYN_SYN_PERR_PERR k) (unsigned 16 (max (-32768) (min 32767 e)))

/-- What the lock detector has seen of phase errors shows in PERR. -/
def seenErr (c : Channel) (k : Nat) : LockSense → Channel
  | .errs (e :: _) => c.setPerr k e
  | _ => c

/-- Whether what the detector has seen declares lock: the pin below V_LOCK for 1 ms, or N errors in a row within W (R153, R154). -/
def showsLock (c : Channel) (k : Nat) (e : LockSense) : Bool :=
  let n := max 1 (c.fld (F.SYN_SYN_WIN_N k))
  let w := max 1 (c.fld (F.SYN_SYN_WIN_W k))
  match c.fld (F.SYN_SYN_CFG_LOOP k) == 0, e with
  | true, .pin mv t => decide (mv < 350) && decide (200000 ≤ t)
  | false, .errs es => decide (n ≤ es.length) && (es.take n).all (fun x => decide (x.natAbs ≤ w))
  | _, _ => false

/-- Whether it loses lock: the pin above V_UNLOCK, or 8 errors in a row beyond W (R153, R154). -/
def showsLoss (c : Channel) (k : Nat) (e : LockSense) : Bool :=
  let w := max 1 (c.fld (F.SYN_SYN_WIN_W k))
  match c.fld (F.SYN_SYN_CFG_LOOP k) == 0, e with
  | true, .pin mv _ => decide (550 < mv)
  | false, .errs es => decide (8 ≤ es.length) && (es.take 8).all (fun x => decide (w < x.natAbs))
  | _, _ => false

/-- Lock declared (R155). -/
def lockDeclared (c0 : Channel) (k : Nat) (e : LockSense) : Channel :=
  let c := c0.seenErr k e
  if c.synSt k ≠ SYN_ACQ ∨ !c.showsLock k e then c
  else
    let c1 := (c.put (F.SYN_SYN_STAT_LOCKIND k) 1).synTo k SYN_LOCKED
    let ms := c1.synOuts k
    let c2 := if ms.any (fun m => (c1.out m).ran) then c1.put (F.SYN_SYN_STAT_RSYNC k) 1 else c1
    ms.foldl (fun c m => c.release m (fun o => { o with hold := false })) c2

/-- Lock lost (R155). -/
def lockLost (c0 : Channel) (k : Nat) (e : LockSense) : Channel :=
  let c := c0.seenErr k e
  if (c.synSt k = SYN_ACQ ∨ c.synSt k = SYN_LOCKED) ∧ c.showsLoss k e then
    (c.put (F.SYN_SYN_STAT_LOCKIND k) 0).toCoast k (F.SYN_SYN_STAT_LOL k)
  else c

/-- Reference loss (R155). -/
def refLoss (c : Channel) (k : Nat) : Channel :=
  if c.synSt k = SYN_ACQ ∨ c.synSt k = SYN_LOCKED then c.toCoast k (F.SYN_SYN_STAT_REFLOS k) else c

/-- 10 ms in ACQ (R155): NOLOCK and the synthesizer's fault source. -/
def noLock (c : Channel) (k : Nat) : Channel :=
  let x := c.synK k
  if c.synSt k = SYN_ACQ ∧ !x.noLock ∧ x.acqTick + 2000000 ≤ c.jour.tick then
    (((c.setSynK k { x with noLock := true }).evt (F.SYN_SYN_STAT_NOLOCK k)).evt F.SYN_EVT_NOLOCK).ask (.fault (24 + k))
  else c

/-! ### Commit (R156, R164, R170, R171) -/

/-- The offsets that a commit boundary of SYNk takes: its group, and the groups of the outputs that the staged set gives it. -/
def synPart (st : List (Nat × Word)) (k : Nat) : List Nat :=
  [F.SYN_SYN_CFG_EN k, F.SYN_SYN_FNUM_NUM k, F.SYN_SYN_FDEN_DEN k, F.SYN_SYN_WIN_W k].map KF.off ++
  (upTo 8).flatMap (fun m =>
    let w := smGet (kbRst .syn (SYN_OUT_CFG m)) st (SYN_OUT_CFG m)
    if getField w 28 1 = k then [SYN_OUT_CFG m, SYN_OUT_DIV m, SYN_OUT_BUD m] else [])

/-- The offsets of the pulse and ToD part. -/
def plsPart : List Nat :=
  (upTo 2).flatMap (fun j => [SYN_PLS_CFG j, SYN_PLS_WID j, SYN_PLS_OFS j, SYN_PLS_BUD j]) ++ [SYN_TOD_CFG]

/-- The words in use taken from the staged set at the offsets given. -/
def takeStaged (c : Channel) (st : List (Nat × Word)) (offs : List Nat) : Channel :=
  let f := c.rf .syn
  let use := offs.foldl (fun u o => smPut (kbRst .syn o) u o (smGet (kbRst .syn o) st o)) f.use
  c.setRf .syn { f with use := use }

/-- CPEND clears when every part has taken effect (R156). -/
def stageSettle (c : Channel) : Channel :=
  match c.syn.stage with
  | some s => if s.p0 || s.p1 || s.pp then c
    else ((c.setSyn { c.syn with stage := none }).put F.SYN_CTL_CPEND 0).evt F.SYN_EVT_CAPPLY
  | none => c

/-- The checks of R148, R161 and R170 on the shadows. -/
def synCommitOk (c : Channel) : Bool :=
  let q := c.cur
  let synOk (k : Nat) : Bool :=
    let num := q (F.SYN_SYN_FNUM_NUM k)
    let den := q (F.SYN_SYN_FDEN_DEN k)
    let nfb := q (F.SYN_SYN_CFG_NFB k)
    let cper := q (F.SYN_SYN_FDEN_CPER k)
    let lo := q (F.SYN_SYN_CFG_LOOP k)
    let fw := q (F.SYN_SYN_CFG_FOLLOW k)
    let rs := q (F.SYN_SYN_CFG_REFSEL k)
    den != 0 && cper != 0 && decide (lo < 3) && decide (fw < 4) &&
    decide (10000000 * den ≤ num) && decide (num ≤ 400000000 * den) &&
    decide (4800000000 * den ≤ num * nfb) && decide (num * nfb ≤ 6400000000 * den) &&
    (match lo with | 0 => decide (12 ≤ nfb ∧ nfb ≤ 640) | 1 => decide (12 ≤ nfb ∧ nfb ≤ 64) | _ => decide (2 ≤ nfb ∧ nfb ≤ 16)) &&
    (num * cper % den == 0) &&
    (fw != 3 || (c.fld (F.REF_LANE_CFG_KIND rs) == 2 && num == c.fld (F.REF_LANE_NOM_NOM_HZ rs) && den == 1))
  let outOk (m : Nat) : Bool :=
    let k := q (F.SYN_OUT_CFG_SRC m)
    let n := q (F.SYN_SYN_FNUM_NUM k) * q (F.SYN_SYN_CFG_NFB k)
    let d := q (F.SYN_SYN_FDEN_DEN k) * preOf (q (F.SYN_OUT_CFG_PRE m)) * q (F.SYN_OUT_DIV_DIV m)
    let lim := if q (F.SYN_OUT_CFG_FMT m) = 1 then 400000000 else 1250000000
    decide (q (F.SYN_OUT_CFG_FMT m) < 3) && d != 0 && decide (d ≤ n) && decide (n ≤ lim * d) &&
    (q (F.SYN_OUT_CFG_EN m) == 0 || (q (F.SYN_SYN_CFG_EN k) == 1 && n * q (F.SYN_SYN_FDEN_CPER k) % d == 0))
  let plsNs (j : Nat) : Nat := q (F.SYN_PLS_CFG_PER j) * (if q (F.SYN_PLS_CFG_UNIT j) = 1 then 1000000000 else 1000)
  let plsOk (j : Nat) : Bool :=
    let per := q (F.SYN_PLS_CFG_PER j)
    (if q (F.SYN_PLS_CFG_UNIT j) = 1 then decide (1 ≤ per ∧ per ≤ 60) else per != 0 && 1000000 % per == 0) &&
    decide (8 ≤ q (F.SYN_PLS_WID_WID j)) && decide (q (F.SYN_PLS_WID_WID j) < plsNs j) &&
    decide ((signed 32 (q (F.SYN_PLS_OFS_OFS j))).natAbs ≤ 10000000)
  let dly := q F.SYN_TOD_CFG_DLY
  let clk := q F.GNSS_FE_CFG_CLKOUT
  synOk 0 && synOk 1 && (upTo 8).all outOk && plsOk 0 && plsOk 1 &&
  decide (1 ≤ dly ∧ dly ≤ 500) && plsNs (q F.SYN_TOD_CFG_PLS) == 1000000000 &&
  (q F.GNSS_FE_CFG_EN == 0 || (q (F.SYN_OUT_CFG_EN clk) == 1 && q (F.SYN_SYN_CFG_FOLLOW (q (F.SYN_OUT_CFG_SRC clk))) == 0))

/-- SYN_COMMIT (R156, R170). -/
def synCommit (c : Channel) : Channel :=
  if c.syn.stage.isSome then c.evt F.SYN_CTL_CBUSY
  else if !c.synCommitOk then c.evt F.SYN_CTL_CERR
  else (c.setSyn { c.syn with stage := some ⟨(c.rf .syn).cur, c.jour.tick, true, true, true⟩ }).put F.SYN_CTL_CPEND 1

/-- A staged field of SYNk as the boundary will put it in force. -/
def stagedFld (st : List (Nat × Word)) (f : KF) : Nat := getField (smGet (kbRst .syn f.off) st f.off) f.lsb f.w

/-- The sync instant of SYNk in this tick, if it lies at least 1 ms after the registration of a staged commit: its commit boundary
(R150, R156). An OFF synthesizer keeps the instants of the plan that the boundary puts in force. A REFIN plan's reference comes from outside:
the command tells its instant (notes/assumptions/101.md). -/
def boundaryHere (c : Channel) (s : SynStage) (k : Nat) : Option Int :=
  let off := c.synSt k == SYN_OFF
  let fw := if off then stagedFld s.words (F.SYN_SYN_CFG_FOLLOW k) else c.follow k
  let per := if off then stagedFld s.words (F.SYN_SYN_FDEN_CPER k) else c.fld (F.SYN_SYN_FDEN_CPER k)
  if c.jour.tick < s.tick + 200000 then none
  else match c.axis k fw with
    | none => some 0
    | some a => let b := multFrom a.1 (per * a.2.2.2) 1; if b < a.2.2.1 then some b else none

/-- The count of SYNk's reference begins again at the sync instant `b` of this tick (R150). -/
def countFrom (c : Channel) (s : SynStage) (k : Nat) (b : Int) : Channel :=
  let fw := if c.synSt k == SYN_OFF then stagedFld s.words (F.SYN_SYN_CFG_FOLLOW k) else c.follow k
  match c.axis k fw with
  | none => c.setSynK k { c.synK k with ph := 0 }
  | some a => c.setSynK k { c.synK k with ph := if a.2.2.1 ≤ a.1 then 0 else -(Int.fdiv ((b - a.1) * 2 ^ 64) (a.2.2.1 - a.1)) }

/-- The part of a staged set for SYNk and its outputs put in force, the synthesizer changing state by `f`: an output that it enables or
moves here waits for lock, one that is no longer enabled has nothing to wait for. -/
def takePart (c : Channel) (k : Nat) (words : List (Nat × Word)) (f : Channel → Channel) : Channel :=
  let c1 := f (c.takeStaged words (synPart words k))
  (List.finRange 8).foldl (fun d m =>
    if !d.flag (F.SYN_OUT_CFG_EN m.val) then d.updOut m (fun o => { o with hold := false, ran := false, coast := false, stop := none, restart := none })
    else if d.outSrc m = k ∧ !(c.flag (F.SYN_OUT_CFG_EN m.val) && c.outSrc m == k) then
      d.updOut m (fun o => { o with hold := d.synSt k != SYN_LOCKED, ran := false, coast := false, stop := none, restart := none })
    else d) c1

/-- Whether a set of words is a VCO change for SYNk (R155). -/
def vcoChange (c : Channel) (k : Nat) (words : List (Nat × Word)) : Bool :=
  [F.SYN_SYN_FNUM_NUM k, F.SYN_SYN_FDEN_DEN k, F.SYN_SYN_CFG_NFB k, F.SYN_SYN_CFG_LOOP k, F.SYN_SYN_CFG_FOLLOW k,
    F.SYN_SYN_CFG_REFSEL k].any (fun f => c.fld f != stagedFld words f)

/-- The part of a staged commit for SYNk has been taken. -/
def partDone (c : Channel) (s : SynStage) (k : Nat) : Channel :=
  (c.setSyn { c.syn with stage := some (if k = 0 then { s with p0 := false } else { s with p1 := false }) }).stageSettle

/-- The commit boundary of SYNk (R155 to R158). In COAST the new values are stored for the time when the loop closes again. -/
def synBoundary (c : Channel) (k : Nat) : Channel :=
  match c.syn.stage with
  | none => c
  | some s =>
    let st := c.synSt k
    let wait := st == SYN_COAST && c.follow k == 3
    if !(if k = 0 then s.p0 else s.p1) || wait then c
    else match c.boundaryHere s k with
      | none => c
      | some b =>
        let vco := c.vcoChange k s.words
        let c0 := c.countFrom s k b
        let en := stagedFld s.words (F.SYN_SYN_CFG_EN k) = 1
        if st = SYN_COAST ∧ en then (c0.setSynK k { c0.synK k with stored := some s.words }).partDone s k
        else (((c0.takePart k s.words (fun d =>
          if !en then ((d.synTo k SYN_OFF).put (F.SYN_SYN_STAT_RSYNC k) 0).put (F.SYN_SYN_STAT_LOCKIND k) 0
          else if st = SYN_OFF then d.toAcq k true true
          else if st = SYN_LOCKED then
            -- the resync of R158, then the change of plan
            let d0 := if d.cur (F.SYN_SYN_STAT_RSYNC k) = 1 then
                (d.synOuts k).foldl (fun d m => d.updOut m (fun o => { o with ran := false })) (d.put (F.SYN_SYN_STAT_RSYNC k) 0)
              else d
            if vco then (d0.toAcq k (d0.rlkHold k) true).put (F.SYN_SYN_STAT_LOCKIND k) 0 else d0
          else d)).setSynK' k (fun x => { x with stored := none })).partDone s k)

/-- The reference of a coasting synthesizer is present for 1 ms (R155): the loop closes again, with the values that a boundary stored. -/
def refReturn (c : Channel) (k : Nat) : Channel :=
  if c.synSt k ≠ SYN_COAST then c
  else match (c.synK k).stored with
    | some w => (c.takePart k w (fun d => d.toAcq k (d.rlkHold k) false)).setSynK' k (fun x => { x with stored := none })
    | none => c.toAcq k (c.rlkHold k) false

/-- The period of a pulse output in 2^-96 s, as a fraction (R163). -/
def plsPeriod (c : Channel) (j : Fin 2) : Int × Int :=
  let per : Int := c.fld (F.SYN_PLS_CFG_PER j.val)
  if c.fld (F.SYN_PLS_CFG_UNIT j.val) = 1 then (per * 2 ^ 96, 1) else (per * 2 ^ 96, 1000000)

/-- OFS of a pulse output in 2^-96 s. -/
def plsOfs (c : Channel) (j : Fin 2) : Int := pointOfPs (c.sfld (F.SYN_PLS_OFS_OFS j.val)) * 2 ^ 32

/-- The least index whose instant is not before OTS value `x`. -/
def plsIdx (c : Channel) (j : Fin 2) (x : Int) : Int :=
  let (num, den) := c.plsPeriod j
  if num = 0 then 0 else -(Int.fdiv (-((x + c.plsOfs j) * den)) num)

/-- The boundary of the pulse and ToD part: the first whole second of OTS 1 ms after registration (R156, R164). -/
def pulseBoundary (c : Channel) : Channel :=
  match c.syn.stage with
  | none => c
  | some s =>
    let b := multFrom c.syn.ots0 (2 ^ 96) 1
    if !s.pp || decide (c.jour.tick < s.tick + 200000) || decide (c.otsNext ≤ b) then c
    else
      let old := c
      let c1 := c.takeStaged s.words plsPart
      let c2 := (List.finRange 2).foldl (fun c j =>
        if c.plsPeriod j ≠ old.plsPeriod j ∨ c.plsOfs j ≠ old.plsOfs j then
          let k := c.plsIdx j b - 1
          c.updPls j (fun p => { p with idx := some k, seen := some k })
        else c) c1
      (c2.setSyn { c2.syn with stage := some { s with pp := false } }).stageSettle

/-! ### Squelch and output status (R152, R160, R161) -/

/-- Whether a mask matches the channel time state (R160). -/
def sqA (c : Channel) (m : Nat) : Bool :=
  match c.dpll.st with
  | .freerun => m % 2 == 1
  | .holdover => m / 2 % 2 == 1
  | .holdoverLimit => m / 4 % 2 == 1
  | _ => false

/-- Whether a mask matches B_STATE (R160). -/
def sqB (c : Channel) (m : Nat) : Bool :=
  match c.dpll.bst with
  | .free => m % 2 == 1
  | .hold => m / 2 % 2 == 1
  | .track => false

def outSquelch (c : Channel) (m : Fin 8) : Bool :=
  let q := c.fld (F.SYN_OUT_CFG_SQ m.val)
  match c.follow (c.outSrc m) with
  | 1 => c.sqA q
  | 2 => c.sqB q
  | _ => false

/-- Squelch evaluated on the state of the tick (R160, R162): outputs stop, or are released. -/
def squelch (c : Channel) : Channel :=
  let c1 := (List.finRange 8).foldl (fun c m =>
    let s := c.flag (F.SYN_OUT_CFG_EN m.val) && c.outSquelch m
    if (c.out m).sq = s then c
    else if s then c.stopOut m false (fun o => { o with sq := true })
    else c.release m (fun o => { o with sq := false })) c
  (List.finRange 2).foldl (fun c j =>
    c.updPls j (fun p => { p with sq := c.flag (F.SYN_PLS_CFG_EN j.val) && c.sqA (c.fld (F.SYN_PLS_CFG_SQ j.val)) })) c1

/-- Whether an output is past its last falling edge before an instant on its axis. -/
def pastFall (c : Channel) (m : Fin 8) (a : Int × Int × Int × Nat) (b : Int) : Bool := decide (b < c.fallFrom m a.2.2.2 (a.2.1 + 1))

/-- The next commit boundary of SYNk as it stands to come, on its axis (R156). -/
def boundaryAhead (c : Channel) (k : Nat) (a : Int × Int × Int × Nat) : Option Int :=
  match c.syn.stage with
  | some s =>
    if !(if k = 0 then s.p0 else s.p1) then none
    else some (multFrom (a.2.1 + max 0 ((s.tick : Int) + 200000 - c.jour.tick) * (a.2.2.1 - a.2.1)) (c.fld (F.SYN_SYN_FDEN_CPER k) * a.2.2.2) 1)
  | none => none

/-- The RUN code of an output that a planned event stops, once it is past its last falling edge before that (R157, R158): a commit boundary
with a VCO change or a JUMP switch, both with RLK_HOLD, or the resync of an output that ran through ACQ or COAST. -/
def plannedStop (c : Channel) (m : Fin 8) : Option Nat :=
  let k := c.outSrc m
  if c.synSt k ≠ SYN_LOCKED then none
  else match c.axis k (c.follow k) with
    | none => none
    | some a =>
      let bound := match c.boundaryAhead k a with | some b => c.pastFall m a b | none => false
      let vco := match c.syn.stage with | some s => c.vcoChange k s.words && c.rlkHold k | none => false
      let jump := match c.syn.raJump with
        | some t => c.timeOut m && c.rlkHold k && c.pastFall m a (c.syn.ots + (t * 2 ^ 32 - c.dpll.ctr))
        | none => false
      if (bound && vco) || jump then some 2
      else if bound && (c.out m).ran && c.cur (F.SYN_SYN_STAT_RSYNC k) == 1 then some 6
      else none

/-- The RUN code of what holds an output low, if anything does (R161). -/
def lowCode (c : Channel) (m : Fin 8) : Option Nat :=
  if c.isLow m then some (stopCode (c.out m)) else (c.plannedStop m).or (c.restartWaits m)

/-- RUN of an output (R161, R172). -/
def outRun (c : Channel) (m : Fin 8) : Nat :=
  if !c.flag (F.SYN_OUT_CFG_EN m.val) || c.synSt (c.outSrc m) == SYN_OFF then 0
  else if !c.drive then 5
  else (c.lowCode m).getD 1

/-- OTEBm of an output (R48, R152): finite for a time output that is neither stopped, nor coasting, nor awaiting its resync, whether or not
its stage drives the balls. -/
def outTeb (c : Channel) (m : Fin 8) : Bound :=
  let st := c.synSt (c.outSrc m)
  let term :=
    if c.flag (F.SYN_OUT_CFG_EN m.val) && c.timeOut m && st != SYN_OFF && st != SYN_COAST && (c.lowCode m).isNone && !(c.out m).ran then
      satAdd (budTerm (c.fld (F.SYN_OUT_BUD_BUD m.val))) (satCap (axOf c.pdev))
    else SAT
  satAdd c.teb term

/-- RUN of a pulse output. -/
def plsRun (c : Channel) (j : Fin 2) : Nat :=
  if !c.flag (F.SYN_PLS_CFG_EN j.val) then 0 else if !c.drive then 5 else if (c.plse j).sq then 3 else 1

/-- OTEB of a pulse output (R152). -/
def plsTeb (c : Channel) (j : Fin 2) : Bound :=
  if !c.flag (F.SYN_PLS_CFG_EN j.val) || (c.plse j).sq then SAT
  else satAdd c.teb (satAdd (budTerm (c.fld (F.SYN_PLS_BUD_BUD j.val))) (satCap (axOf c.pdev)))

/-! ### Pulses and the ToD output (R163 to R168) -/

/-- Bytes 4 to 21 of the sentence that labels edge `k` of the pulse output that TODO follows (R70, R167). -/
def todBody (c : Channel) (j : Fin 2) (k : Int) : Bytes :=
  let ts := c.flag F.SYN_TOD_CFG_TS && c.utcValid k
  let ofs := if ts then c.utcOfs k else 0
  let p := c.pdev
  let near := decide (p.natAbs * 10 ^ 12 < 2 ^ 31 * 2 ^ 64)
  let eofs : Int := if near then sar (-p * 10 ^ 12 + 2 ^ 63) 64 else 0
  let teb := if near then satAdd (satAdd c.teb (budTerm (c.fld (F.SYN_PLS_BUD_BUD j.val)))) 1 else c.plsTeb j
  beBytes 6 (unsigned 48 (k - ofs)) ++ beBytes 2 (unsigned 16 ofs) ++
  [BitVec.ofNat 8 (b2n ts * 128 + b2n (tagHo c.tagNow) * 64 + b2n (decide (teb < SAT)) * 32), 0#8] ++
  beBytes 4 teb ++ beBytes 4 (unsigned 32 eofs)

/-- Whether TODO follows pulse output `j`. -/
def todHere (c : Channel) (j : Fin 2) : Bool := c.flag F.SYN_TOD_CFG_EN && c.fld F.SYN_TOD_CFG_PLS == j.val

/-- The rising edge of a pulse output whose instant this tick holds (R29, R163, R164): the first that it has not met. An instant that an
initial set carries OTS past belongs to the tick of the set. -/
def pulseEdge (c : Channel) (j : Fin 2) : Channel :=
  let p := c.plse j
  let past (o : Option Int) : Int := match o with | some i => i + 1 | none => c.plsIdx j c.syn.ots0
  let k := max (c.plsIdx j c.syn.ots0) (max (past p.idx) (past p.seen))
  let (num, den) := c.plsPeriod j
  let here := decide (k * num < (c.otsNext + c.plsOfs j) * den)
  let afterJump := match c.syn.jumpOts with | some y => decide (y * den ≤ k * num - c.plsOfs j * den) | none => true
  if !c.flag (F.SYN_PLS_CFG_EN j.val) || !here || !afterJump then c
  else if p.sq then
    let c1 := c.updPls j (fun p => { p with seen := some k })
    if c.todHere j then (c1.bump F.SYN_TOD_STAT_SKIP).evt F.SYN_EVT_TODSKIP else c1
  else
    let q := max 0 (Int.fdiv (k * num) den - c.plsOfs j - c.syn.ots)
    let ps := (Int.fdiv (q * 10 ^ 12) (2 ^ 96)).toNat
    let fall := sar (c.dpll.ctr + q) 32 + Int.fdiv ((c.fld (F.SYN_PLS_WID_WID j.val) : Int) * 2 ^ 64) (10 ^ 9)
    let c1 := (c.updPls j (fun p => { p with idx := some k, seen := some k, fall := some fall })).ask (.edge j.val k ps c.drive)
    if c.todHere j then
      c1.setSyn { c1.syn with tod := some ⟨c.jour.tick + c.fld F.SYN_TOD_CFG_DLY * 200000, c.todBody j k⟩ }
    else c1

/-- TODO sends the sentence that waits (R70, R167, R168). Its stage drives the ball as those of the pulses do (R161, R370). -/
def todSend (c : Channel) : Channel :=
  match c.syn.tod with
  | none => c
  | some t =>
    if c.jour.tick < t.due then c
    else
      let body : Bytes := [0xC5#8, 0x3A#8, 0x01#8, 0x1C#8] ++ t.body ++ beBytes 2 c.syn.todSeq ++ [0#8, 0#8]
      let c1 := c.setSyn { c.syn with tod := none, todSeq := wrapInc 16 c.syn.todSeq }
      (c1.bump F.SYN_TOD_STAT_SENT).ask (.todBytes (body ++ beBytes 2 (crc16 body)) c.drive)

/-! ### Realignment (R165, R166) -/

/-- GO of RA_CTL. -/
def raGo (c : Channel) : Channel :=
  let sl := c.cur F.SYN_RA_SLEW_RA_SLEW
  if c.cur F.SYN_RA_CTL_ACT = 1 ∨ sl < 1 ∨ sl > 1000000 then c.evt F.SYN_RA_CTL_REJ
  else
    let c1 := c.put F.SYN_RA_CTL_ACT 1
    if c.cur F.SYN_RA_CTL_MODE = 1 then
      let s := -(sar (-(c.now + 2 ^ 63)) 64)
      c1.setSyn { c1.syn with raJump := some (s * 2 ^ 64 - 2 ^ 63) }
    else c1.setSyn { c1.syn with raFrom := some (c.jour.tick + 1) }

/-- GO that the device writes itself (R166), booked with origin autonomous policy. -/
def raAuto (c : Channel) : Channel :=
  let old := c.word .syn SYN_RA_CTL
  let c1 := c.raGo
  c1.ask (.book ⟨c.policyOrg .syn, 0x01, winReg c.ix .syn SYN_RA_CTL, old, c1.word .syn SYN_RA_CTL⟩)

/-- The indices not yet emitted whose instants lie from `a`, included, to `b`, excluded (R164). -/
def passed (c : Channel) (j : Fin 2) (a b : Int) : Nat :=
  let lo := match (c.plse j).idx with | some i => max (i + 1) (c.plsIdx j a) | none => c.plsIdx j a
  (c.plsIdx j b - lo).toNat

/-- The JUMP switch (R164, R165). What OTS passes in this tick, before, at and after the switch, is not emitted. -/
def jumpSwitch (c : Channel) : Channel :=
  match c.syn.raJump with
  | none => c
  | some t =>
    if !c.reached t then c
    else
      let b := c.dpll.ctr
      let c0 := c.setSyn { c.syn with ots := b, raJump := none }
      let till := c0.otsNext
      let c1 := (List.finRange 2).foldl (fun c j =>
        let n := if c.flag (F.SYN_PLS_CFG_EN j.val) then c.passed j (min c.syn.ots0 b) till else 0
        if n = 0 then c
        else
          let c0 := (c.bumpBy (F.SYN_PLS_STAT_SKIP j.val) n).evt F.SYN_EVT_PSKIP
          if c.todHere j then (c0.bumpBy F.SYN_TOD_STAT_SKIP n).evt F.SYN_EVT_TODSKIP else c0) c0
      let c2 := c1.setSyn { c1.syn with jumpOts := some till }
      let c3 := [0, 1].foldl (fun c k => if c.synSt k = SYN_LOCKED ∧ c.follow k = 1 then
        (c.toAcq k (c.rlkHold k) true).put (F.SYN_SYN_STAT_LOCKIND k) 0 else c) c2
      (c3.put F.SYN_RA_CTL_ACT 0).evt F.SYN_EVT_RA_DONE

/-- PDEV reaches 0 during a SLEW (R165). -/
def slewDone (c : Channel) : Channel :=
  if c.cur F.SYN_RA_CTL_ACT = 1 ∧ c.syn.raJump.isNone ∧ c.pdev = 0 then
    ((c.setSyn { c.syn with raFrom := none }).put F.SYN_RA_CTL_ACT 0).evt F.SYN_EVT_RA_DONE
  else c

/-- What the SYN block settles after a command that changed the DPLL state: AUTO realignment, then squelch (R160, R162, R166). -/
def synSettle (old c : Channel) : Channel :=
  let c1 := if old.dpll.sl && !c.dpll.sl && c.flag F.SYN_RA_CTL_AUTO && decide (c.pdev ≠ 0) then c.raAuto else c
  c1.squelch

end Channel
end Sys2Proof.Machine
end

