-- ==== Sys2Proof/Machine/Ops.lean ====
section
/-! DEFINITION. The named operations over the device: the registers of the common complex, events and vectors, outputs, the run state
of channels. -/
namespace Sys2Proof.Machine

/-! ### The common complex's registers (R444) -/

/-- The registers of a block of the common complex. -/
def gbRegs : CB → List RegSpec
  | .hostif => regsHostif | .cmdq => regsCmdq | .fault => regsFault | .vault => regsVault | .book => regsBook
  | .tally => regsTally | .twin => regsTwin | .bench => regsBench | .clkgen => regsClkgen | .pwr => regsPwr | .image => regsImage

/-- The block number, base ÷ 0x1_0000 (R396). -/
def gbNum : CB → Nat
  | .hostif => 0 | .cmdq => 1 | .fault => 2 | .vault => 3 | .book => 4 | .tally => 5 | .twin => 6 | .bench => 7 | .clkgen => 8
  | .pwr => 9 | .image => 10

/-- The WIN_REG offset of a register of the common complex. -/
def gReg (b : CB) (off : Nat) : Nat := 0x10000 * gbNum b + off

/-- The common sources with the block that owns them and the reset value of REACT (R361). -/
def commonSources : List (Nat × CB × Nat) :=
  [(0, .fault, 0x12), (1, .clkgen, 0x1A), (2, .clkgen, 0x01), (3, .clkgen, 0x01), (4, .clkgen, 0x13), (5, .clkgen, 0x12),
   (8, .pwr, 0x01), (9, .pwr, 0x01), (10, .pwr, 0x1A), (11, .pwr, 0x03), (12, .pwr, 0x18), (16, .fault, 0x00),
   (17, .fault, 0x1A), (18, .book, 0x00), (19, .book, 0x13), (20, .tally, 0x01), (32, .hostif, 0x11), (33, .hostif, 0x00),
   (34, .hostif, 0x01), (35, .cmdq, 0x13), (48, .vault, 0x13), (49, .vault, 0x1A), (50, .vault, 0x13), (64, .twin, 0x01),
   (65, .twin, 0x01), (66, .twin, 0x13), (67, .twin, 0x01), (68, .twin, 0x01), (80, .bench, 0x05), (96, .book, 0x13),
   (97, .tally, 0x01), (98, .image, 0x05), (112, .hostif, 0x13)]

/-- A channel's sources by local index with the reset value of REACT (R362). -/
def chanSources : List (Nat × Nat) :=
  [(0, 0x05), (1, 0x01), (2, 0x01), (3, 0x15), (8, 0x00), (9, 0x15), (10, 0x15), (16, 0x11), (17, 0x11), (18, 0x15),
   (24, 0x01), (25, 0x01), (26, 0x15), (32, 0x01), (40, 0x15), (41, 0x15), (42, 0x01), (43, 0x01), (56, 0x15), (57, 0x01),
   (58, 0x01), (59, 0x01), (60, 0x01), (61, 0x15), (72, 0x15), (80, 0x01), (81, 0x01), (88, 0x15)]

/-- The channel and local index of a channel source (R360). -/
def srcChan (n : Nat) : Option (ChanIx × Nat) :=
  if 128 ≤ n ∧ n < 512 then some (Fin.ofNat 4 ((n - 128) / 96), (n - 128) % 96) else none

/-- The reset value of a source's REACT; none for a reserved source (R360 to R362). -/
def srcReact (n : Nat) : Option Nat :=
  match srcChan n with
  | some (_, i) => (chanSources.find? (fun e => e.1 == i)).map Prod.snd
  | none => (commonSources.find? (fun e => e.1 == n)).map (fun e => e.2.2)

/-- The reset word of a register of the common complex (R446). A vector of the MSI-X table is masked at reset
(notes/assumptions/6.md). -/
def gbRst (b : CB) (off : Nat) : Word :=
  if b = .fault ∧ 0x1000 ≤ off ∧ off < 0x1800 then BitVec.ofNat 32 ((srcReact ((off - 0x1000) / 4)).getD 0)
  else if b = .hostif ∧ 0x8000 ≤ off ∧ off < 0x8400 then (if off % 16 = 12 then 1#32 else 0#32)
  else match findReg (gbRegs b) off with
    | some g => g.rstWord
    | none => 0#32

def GRegs.get (r : GRegs) : CB → RegFile
  | .hostif => r.hostif | .cmdq => r.cmdq | .fault => r.fault | .vault => r.vault | .book => r.book | .tally => r.tally
  | .twin => r.twin | .bench => r.bench | .clkgen => r.clkgen | .pwr => r.pwr | .image => r.image

def GRegs.set (r : GRegs) (b : CB) (f : RegFile) : GRegs :=
  match b with
  | .hostif => { r with hostif := f } | .cmdq => { r with cmdq := f } | .fault => { r with fault := f }
  | .vault => { r with vault := f } | .book => { r with book := f } | .tally => { r with tally := f }
  | .twin => { r with twin := f } | .bench => { r with bench := f } | .clkgen => { r with clkgen := f }
  | .pwr => { r with pwr := f } | .image => { r with image := f }

/-- Every register file of the common complex at the end of a tick. -/
def GRegs.endTick (r : GRegs) : GRegs :=
  ⟨r.hostif.endTick (gbRst .hostif), r.cmdq.endTick (gbRst .cmdq), r.fault.endTick (gbRst .fault), r.vault.endTick (gbRst .vault),
   r.book.endTick (gbRst .book), r.tally.endTick (gbRst .tally), r.twin.endTick (gbRst .twin), r.bench.endTick (gbRst .bench),
   r.clkgen.endTick (gbRst .clkgen), r.pwr.endTick (gbRst .pwr), r.image.endTick (gbRst .image)⟩

/-! Codes of TWIN.STAT.STATE (R284), IMAGE.CHn_STAT.STATE (R333) and PWR.STAT.BOOT (R443). -/
def TW_ALONE : Nat := 0
def TW_ACTIVE : Nat := 1
def TW_STANDBY : Nat := 2
def TW_RACKING : Nat := 3
def TW_DRILL : Nat := 4
def TW_FENCED : Nat := 5
def CH_EMPTY : Nat := 0
def CH_GATED : Nat := 1
def CH_RECONFIG : Nat := 2
def CH_RUN : Nat := 3
def BOOT_RAILS : Nat := 0
def BOOT_MOSC : Nat := 1
def BOOT_ROOT : Nat := 2
def BOOT_FEEDCHK : Nat := 3
def BOOT_VAULT : Nat := 4
def BOOT_WAIT : Nat := 5
def BOOT_LOADING : Nat := 6
def BOOT_DONE : Nat := 7
def BOOT_SCAN : Nat := 8

namespace State

def rf (s : State) (b : CB) : RegFile := s.regs.get b
def setRf (s : State) (b : CB) (f : RegFile) : State := { s with regs := s.regs.set b f }

/-- The stored word of a register of the common complex, and its values in use. -/
def gword (s : State) (b : CB) (off : Nat) : Word := smGet (gbRst b off) (s.rf b).cur off
def guse (s : State) (b : CB) (off : Nat) : Word := smGet (gbRst b off) (s.rf b).use off
def gsetWord (s : State) (b : CB) (off : Nat) (w : Word) : State :=
  s.setRf b { s.rf b with cur := smPut (gbRst b off) (s.rf b).cur off w }

/-- The value of a field as the device uses it, its stored value, and a one-bit field as used (R8). -/
def gfld (s : State) (f : GF) : Nat :=
  if f.sh then getField (s.guse f.blk f.off) f.lsb f.w else getField (s.gword f.blk f.off) f.lsb f.w
def gcur (s : State) (f : GF) : Nat := getField (s.gword f.blk f.off) f.lsb f.w
def gflag (s : State) (f : GF) : Bool := s.gfld f == 1

/-- The stored value of a field set by hardware; a counter advanced, wrapping or saturating. -/
def gput (s : State) (f : GF) (v : Nat) : State := s.gsetWord f.blk f.off (putField (s.gword f.blk f.off) f.lsb f.w v)
def gbump (s : State) (f : GF) : State := s.gput f (s.gcur f + 1)
def gbumpBy (s : State) (f : GF) (n : Nat) : State := s.gput f (s.gcur f + n)
def gbumpSat (s : State) (f : GF) : State := s.gput f (min (2 ^ f.w - 1) (s.gcur f + 1))

/-- A 64-bit value put into two registers, lowest word first. -/
def put64 (s : State) (b : CB) (off v : Nat) : State := (s.gsetWord b off (BitVec.ofNat 32 v)).gsetWord b (off + 4) (BitVec.ofNat 32 (v / 2 ^ 32))
def get64 (s : State) (b : CB) (off : Nat) : Nat := (s.gword b off).toNat + 2 ^ 32 * (s.gword b (off + 4)).toNat

/-- Something leaves the device. -/
def emit (s : State) (o : Output) : State := { s with out := s.out ++ [o] }

/-- A free value of `w` bits, and the state with the draw counted. -/
def free (s : State) (w : Nat) : Nat × State := (Config.freeValue 4 s.freeCtr % 2 ^ w, { s with freeCtr := s.freeCtr + 1 })

/-! ### Vectors (R364, R373, R382) -/

def linkUp (s : State) : Bool := s.gflag F.HOSTIF_PCIE_STAT_LINK_UP
def msixMasked (s : State) (v : Nat) : Bool := bit (s.gword .hostif (0x8000 + 16 * v + 12)) 0
def msixPend (s : State) (v : Nat) (b : Bool) : State :=
  s.gsetWord .hostif (0x9000 + 4 * (v / 32)) (putField (s.gword .hostif (0x9000 + 4 * (v / 32))) (v % 32) 1 (b2n b))

/-- A message of a vector: at most one per vector and tick; a masked vector, or one without a link, sets its pending bit. -/
def msix (s : State) (v : Nat) : State :=
  if s.host.sent.contains v then s
  else if s.msixMasked v || !s.linkUp then s.msixPend v true
  else { s with host := { s.host with sent := v :: s.host.sent } }.emit (.msix v)

/-- Pending vectors that are unmasked now are sent. -/
def msixFlush (s : State) : State :=
  (upTo 64).foldl (fun s v =>
    if s.linkUp && !s.msixMasked v && bit (s.gword .hostif (0x9000 + 4 * (v / 32))) (v % 32) then (s.msixPend v false).msix v else s) s

/-- W1C bits of a common register set by hardware (R11); a bit that the common image marks raises its vector (R316). -/
def gevtMask (s : State) (b : CB) (off m : Nat) : State :=
  let s1 := s.gsetWord b off (s.gword b off ||| BitVec.ofNat 32 m)
  let f := s1.rf b
  let s2 := s1.setRf b { f with hset := smPut 0#32 f.hset off (smGet 0#32 f.hset off ||| BitVec.ofNat 32 m) }
  s.loader.marks.foldl (fun s k =>
    if k.1 == b && k.2.1 == off && (BitVec.ofNat 32 m &&& BitVec.ofNat 32 k.2.2.1) != 0#32 then s.msix k.2.2.2 else s) s2
def gevt (s : State) (f : GF) : State := s.gevtMask f.blk f.off (2 ^ f.lsb)

/-! ### Stages and run states -/

def stage (s : State) : Nat := s.gcur F.PWR_STAT_BOOT
def setStage (s : State) (n : Nat) : State := s.gput F.PWR_STAT_BOOT n
def safe (s : State) : Bool := s.gflag F.FAULT_SAFE_STAT_SAFE
def chSt (s : State) (n : ChanIx) : Nat := s.gcur (F.IMAGE_CH_STAT_STATE n.val)
/-- A channel is present in RUN only (R327). -/
def running (s : State) (n : ChanIx) : Bool := s.chSt n == CH_RUN
def allChans : List ChanIx := List.finRange 4
/-- The lowest-numbered channel in RUN. -/
def lowestRun (s : State) : Option ChanIx := allChans.find? s.running
def twst (s : State) : Nat := s.gcur F.TWIN_STAT_STATE
/-- ACTIVE with a peer that is not lost: the unit streams (R268). -/
def streaming (s : State) : Bool := s.twst == TW_ACTIVE && !s.gflag F.TWIN_STAT_PEER_LOST
/-- A unit that serves: ACTIVE or ALONE (R271). -/
def serving (s : State) : Bool := s.twst == TW_ACTIVE || (s.twst == TW_ALONE && s.twin.role)
/-- The clocks of the common complex run from ROOT0 (R440). -/
def clocked (s : State) : Bool := decide (BOOT_FEEDCHK ≤ s.stage) && (s.pwr.pst == .cold || s.pwr.pst == .run)
def scanning (s : State) : Bool := s.pwr.scan
def setCh (s : State) (n : ChanIx) (c : Channel) : State := { s with ch := s.ch.set n c }
def updImg (s : State) (n : ChanIx) (f : ChanImg → ChanImg) : State := { s with img := s.img.set n (f s.img[n]) }

/-- Whether the host reaches the device by a path (R381, R384, R439). -/
def pathUp (s : State) : HostPath → Bool
  | .pcie _ => s.clocked && s.linkUp && !s.scanning
  | .mspi => s.clocked

end State

/-! ### What follows every command of a channel -/

namespace Channel

/-- The episodes that the tally counts (R414): an outage of DPLL_A after it has had a lane, and a holdover. -/
def epiSettle (c : Channel) : Channel :=
  let secs (t : Nat) : Nat := (c.jour.tick - t) / 200000000
  let ho := c.dpll.st == .holdover || c.dpll.st == .holdoverLimit
  let c1 := match c.epi.outage, c.ref.selA.out with
    | some t, some _ => { c with epi := { c.epi with outage := none } }.ask (.outage (secs t))
    | none, none => if c.epi.hadLane then { c with epi := { c.epi with outage := some c.jour.tick } } else c
    | none, some _ => if c.epi.hadLane then c else { c with epi := { c.epi with hadLane := true } }
    | some _, none => c
  match c1.epi.holdover, ho with
  | some t, false => { c1 with epi := { c1.epi with holdover := none } }.ask (.holdover (secs t))
  | none, true => { c1 with epi := { c1.epi with holdover := some c.jour.tick } }
  | _, _ => c1

/-- The episodes that the channel's exit from RUN ends (R414). -/
def epiExit (c : Channel) : Channel :=
  let secs (t : Nat) : Nat := (c.jour.tick - t) / 200000000
  let c1 := match c.epi.outage with | some t => c.ask (.outage (secs t)) | none => c
  let c2 := match c1.epi.holdover with | some t => c1.ask (.holdover (secs t)) | none => c1
  { c2 with epi := ⟨none, none, false⟩ }

/-- What a channel settles after a command (R160, R162, R166, R194, R228, R414). -/
def settle (old c : Channel) : Channel := ((portSettle old (synSettle old c)).runSettle).epiSettle

end Channel
end Sys2Proof.Machine
end

