-- ==== Sys2Proof/Machine/VaultKeys.lean ====
section
/-! DEFINITION. The key hierarchy: slot attributes, usability, values, and the delivery of keys (R334 to R341, R350). -/
namespace Sys2Proof.Machine

/-! Fields of the attribute word (R337). -/
def attrParent (a : Word) : Nat := getField a 24 8
def attrKind (a : Word) : Nat := getField a 20 4
def attrAlg (a : Word) : Nat := getField a 16 4
def attrMbind (a : Word) : Bool := bit a 15
def attrChmix (a : Word) : Bool := bit a 14
def attrCh (a : Word) : Fin 4 := Fin.ofNat 4 (getField a 12 2)
def attrRcpt (a : Word) : Nat := getField a 0 11
def attrPublic (a : Word) : Bool := attrKind a == 2

/-! Codes of VAULT.STAT.STAGE (R359). -/
def VS_SEED : Nat := 1
def VS_MEASURE : Nat := 2
def VS_READY : Nat := 3
def VS_STOPPED : Nat := 4

/-! Recipient bits (R337). -/
def RC_IMG : Nat := 4
def RC_BOOK : Nat := 7
def RC_MINT : Nat := 8
def RC_KUM : Nat := 9
def RC_ATTEST : Nat := 10

def attrHas (a : Word) (r : Nat) : Bool := bit a r

/-- The bytes of a key of a type (R338). -/
def algLen : Nat → Nat
  | 0 => 16 | 1 => 32 | 2 => 32 | 3 => 64 | 4 => 48 | 5 => 96 | _ => 0

/-- The OWN codes of VAULT.STAT (R347, R359). -/
def OWN_UNOWNED : Nat := 0
def OWN_OWNED : Nat := 1
def OWN_ORPHANED : Nat := 2

namespace State

def vslot (s : State) (i : Nat) : VSlot := smGet VSlot.zero s.vault.slots i
def putVslot (s : State) (i : Nat) (x : VSlot) : State :=
  { s with vault := { s.vault with slots := smPut VSlot.zero s.vault.slots i x } }
def orphanedVault (s : State) : Bool := s.vault.own == OWN_ORPHANED
def devidLe (s : State) : Bytes := leBytes 8 s.fuse.devid

/-! ### Derived roots (R335) -/

def k0 (s : State) : Bytes := kdf s.fuse.ids "K0" (s.vault.seed.getD (List.replicate 32 0) ++ s.devidLe) 48
def k1 (s : State) : Bytes := kdf s.k0 "K1" (s.fuse.mBoot ++ s.vault.mCmn.getD (List.replicate 48 0)) 48
def ks0 (s : State) : Bytes := kdf s.k0 "KS" [] 32
def ks1 (s : State) : Bytes := kdf s.k1 "KS" [] 32
/-- The transport key pair's private scalar. -/
def kt (s : State) : Nat := p384Key (kdf s.k1 "KT" [] 56)

/-- The state of a slot with its cause, as it reads (R336, R339, R341, R354): 0 EMPTY, 1 VALID, 2 INVALID, 3 ORPHANED; causes 1 PARENT,
2 MEAS, 3 TAMPER, 4 INVALIDATED. K0 is VALID while the seed is present and K1 once the common measurement is handed over. -/
def slotView (s : State) (i : Nat) : Nat × Nat :=
  if i = 0 then (if s.vault.seed.isSome then (1, 0) else (0, 0))
  else if i = 1 then (if s.vault.mCmn.isSome && s.vault.seed.isSome then (1, 0) else (0, 0))
  else
    let x := s.vslot i
    match x.st with
    | .empty => (0, 0)
    | .invalid => (2, x.cause)
    | .orphaned => (3, x.cause)
    | .valid =>
      if !attrPublic x.attr && s.orphanedVault then (3, 3)
      else if x.meas then (3, 2)
      else if 16 ≤ i && (s.vslot (attrParent x.attr)).meas then (3, 1)
      else (1, 0)

/-- Whether a slot is usable (R339): VALID with every ancestor, or, for a PUBLIC slot, no ancestor among K2 to K15 INVALID or
ORPHANED. -/
def usable (s : State) (i : Nat) : Bool :=
  let x := s.vslot i
  let p := attrParent x.attr
  let ok (j : Nat) : Bool := (s.slotView j).1 == 1
  if i = 0 then ok 0
  else if i = 1 then ok 0 && ok 1
  else if attrPublic x.attr then ok i && (decide (p < 2) || !((s.slotView p).1 == 2 || (s.slotView p).1 == 3))
  else ok i && !s.orphanedVault && ok 0 && ok 1 && (decide (p < 2) || ok p)

/-- The value of a slot of KIND DERIVED under a parent value (R335). -/
def deriveVal (s : State) (i : Nat) (x : VSlot) (parent : Bytes) : Bytes :=
  let c := beBytes 1 i ++ leBytes 4 x.attr.toNat ++ (if attrChmix x.attr then s.vault.mix[attrCh x.attr] else [])
  if attrAlg x.attr = 4 then beBytes 48 (p384Key (kdf parent "KD" c 56)) else kdf parent "KD" c (algLen (attrAlg x.attr))

/-- The value of a domain slot, and of any slot. -/
def domainVal (s : State) (i : Nat) : Bytes :=
  let x := s.vslot i
  if i = 1 then s.k1 else if attrKind x.attr = 0 then s.deriveVal i x s.k1 else x.value
def slotVal (s : State) (i : Nat) : Bytes :=
  let x := s.vslot i
  if i < 16 then s.domainVal i else if attrKind x.attr = 0 then s.deriveVal i x (s.domainVal (attrParent x.attr)) else x.value

/-- The key that the vault delivers to an engine (R340): the slot is usable and carries the engine's bit; while the vault is ORPHANED
only KUM gets a PUBLIC key (R339, R347). -/
def deliver (s : State) (i rcpt : Nat) : Option Bytes :=
  let x := s.vslot i
  if 2 ≤ i && s.usable i && attrHas x.attr rcpt && (!s.orphanedVault || (attrPublic x.attr && rcpt == RC_KUM)) then some (s.slotVal i)
  else none

/-- The number of usable slots: STAT.NVALID. -/
def nvalid (s : State) : Nat := countIf s.usable (upTo 256)

/-- A signature of a digest under the private key in slot `i` for an engine; zeros without one. The nonce is a free value. -/
def slotSign (s : State) (i rcpt : Nat) (digest : Bytes) : Option Bytes × State :=
  match (if attrAlg (s.vslot i).attr = 4 then s.deliver i rcpt else none) with
  | none => (none, s)
  | some k => let r := s.free 384; (some (sigBlock (s.vslot i).keyId (ecdsaSign (fromBe k) digest r.1)), r.2)

/-- A signature under the device identity key, KEY_ID 0 (R350, R419). -/
def dikSign (s : State) (digest : Bytes) : Bytes × State :=
  let r := s.free 384
  (sigBlock 0 (ecdsaSign s.fuse.dik digest r.1), r.2)

/-! ### Delivered copies (R340, R341) -/

/-- The key slots that the committed SAs and cookie keys of channel `n` name (R212, R232). -/
def namedSlots (s : State) (n : ChanIx) : List Nat :=
  let c := s.ch[n]
  ((upTo 16).filter (fun k => c.flag (F.SEAL_SA_CFG_VALID k))).map (fun k => c.fld (F.SEAL_SA_CFG_KSLOT k)) ++
    ((upTo 2).filter (fun k => c.flag (F.SEAL_NTS_KEY_CFG_VALID k))).map (fun k => c.fld (F.SEAL_NTS_KEY_CFG_KSLOT k))

/-- The keys delivered to SEALn when the committed SAs are in use (R232, R340). -/
def deliverKeys (s : State) (n : ChanIx) : State :=
  let ks := (s.namedSlots n).dedup.filterMap (fun i =>
    match s.deliver i n.val with
    | some b => some (DelKey.mk i (attrAlg (s.vslot i).attr) (attrHas (s.vslot i).attr RC_MINT) b)
    | none => none)
  s.setCh n (s.ch[n].setSeal { s.ch[n].sealb with keys := ks })

/-- The delivered copies of slots that are no longer usable are zeroized, and the frames built under them dropped (R215, R340). `all`
names slots whose value changed although they stay usable. -/
def revokeKeys (s : State) (changed : List Nat) : State :=
  allChans.foldl (fun s n =>
    let c := s.ch[n]
    let gone := (c.sealb.keys.map (·.slot) ++ c.builtUnder).dedup.filter (fun i => changed.contains i || (s.deliver i n.val).isNone)
    if gone.isEmpty then s
    else
      let c1 := ((c.dropKeyed gone 0).dropKeyed gone 1).dropCores gone
      s.setCh n (c1.setSeal { c1.sealb with keys := c1.sealb.keys.filter (fun k => !gone.contains k.slot) })) s

end State
end Sys2Proof.Machine
end

