-- ==== Sys2Proof/Machine/BookOps.lean ====
section
/-! DEFINITION. The cellar book's writer (R394 to R402), the tally's counts (R414 to R417), the ends of commands (R391, R392). -/
namespace Sys2Proof.Machine

/-- The bytes of a cellar book entry (R395). -/
def BookEnt.bytes (e : BookEnt) : Bytes :=
  leBytes 16 e.time ++ leBytes 8 e.seq ++ leBytes 1 e.chg.org.code ++ leBytes 1 (b2n e.notime + 2 * b2n e.coalesced) ++
    leBytes 2 e.chg.org.detail ++ leBytes 4 e.chg.target ++ leBytes 4 e.chg.old.toNat ++ leBytes 4 e.chg.new.toNat ++
    leBytes 4 e.ncoal ++ leBytes 1 e.chg.kind ++ leBytes 3 0 ++ e.link

/-- The order in which the changes of a tick are entered (R399): ORIGIN, then TARGET. -/
def chgBefore (a b : BookEnt) : Bool :=
  decide (a.chg.org.code < b.chg.org.code) || (a.chg.org.code == b.chg.org.code && decide (a.chg.target ≤ b.chg.target))

/-- A change put into a list so ordered, behind its equals. -/
def chgIns (c : BookEnt) : List BookEnt → List BookEnt
  | [] => [c]
  | x :: r => if chgBefore x c then x :: chgIns c r else c :: x :: r

/-- Changes in the order of R399. -/
def chgSort (cs : List BookEnt) : List BookEnt := cs.foldl (fun l c => chgIns c l) []

namespace State

/-! ### Cellar book -/

/-- A write to a region of the non-volatile memory (R417). -/
def wearOn (s : State) (k : Fin 8) : State :=
  { s with tally := { s.tally with cur := { s.tally.cur with wear := s.tally.cur.wear.set k (s.tally.cur.wear[k] + 1) } } }

/-- TIME of an entry with NOTIME (R394): the targeted channel's time if it is in RUN, else the lowest running channel's, else the
common tick count. -/
def bookTime (s : State) (target : Nat) : Nat × Bool :=
  let tgt : Option ChanIx := if 0x1000000 ≤ target ∧ target < 0x5000000 then some (Fin.ofNat 4 (target / 0x1000000 - 1)) else none
  let own : Option ChanIx := match tgt with | some n => if s.running n then some n else none | none => none
  match (match own with | some n => some n | none => s.lowestRun) with
  | some n => (unsigned 128 s.ch[n].now, false)
  | none => (s.tick % 2 ^ 64, true)

/-- LINK of the next entry (R397). -/
def bookLink (s : State) : Bytes :=
  match s.book.ring with
  | e :: _ => (sha384 e.bytes).take 16
  | [] => (sha384 s.devidLe).take 16

/-- An entry copied to the host mirror (R401). -/
def mirror (s : State) (bs : Bytes) : State :=
  if !s.gflag F.BOOK_MIR_CFG_EN then s
  else
    let n := 2 ^ s.gfld F.BOOK_MIR_CFG_LOG2N
    let w := s.gfld F.BOOK_MIR_WPTR_WPTR
    if (w + 1) % n = s.gfld F.BOOK_MIR_RPTR_RPTR % n ∨ ¬ s.linkUp then (s.gbump F.BOOK_CNT0_MIR_LOST).gevt F.BOOK_EVT_MIR_LOST
    else
      let base := s.gfld F.BOOK_MIR_BASE_LO_BASE_LO * 64 + s.gfld F.BOOK_MIR_BASE_HI_BASE_HI * 2 ^ 32
      let s1 := (s.emit (.hostMem (base + 64 * w) bs)).gput F.BOOK_MIR_WPTR_WPTR ((w + 1) % n)
      if s1.gflag F.HOSTIF_INT_CFG_MIR_EN then s1.msix 0 else s1

/-- A signature record over the last 256 entries (R398). -/
def signRecord (s : State) (last : Nat) : State :=
  let dig := sha384 ((s.book.ring.take 256).reverse.flatMap BookEnt.bytes)
  let hd := leBytes 8 last ++ s.devidLe ++ dig
  let k := s.gfld F.VAULT_CFG_BOOK_SLOT
  let r := if k = 0 then (none, s) else s.slotSign k RC_BOOK (sha384 hd)
  let s1 := (r.2.wearOn 2).gput F.BOOK_STAT_UNSIGNED (b2n r.1.isNone)
  ({ s1 with book := { s1.book with sigs := (SigRec.mk last (hd ++ r.1.getD (List.replicate 104 0)) :: s1.book.sigs).take 128 } }).gevt F.BOOK_EVT_SIGNED

/-- An entry written to the non-volatile ring. -/
def bookAppend (s : State) (e : BookEnt) : State :=
  let e1 := { e with seq := s.book.next, link := s.bookLink }
  let s1 := { s.wearOn 1 with book := { s.book with ring := (e1 :: s.book.ring).take 32768, next := s.book.next + 1 } }
  let s2 := (s1.gevt F.BOOK_EVT_ENTRY).mirror e1.bytes
  if e1.seq % 256 = 0 then s2.signRecord e1.seq else s2

/-- A change that matches a held entry. -/
def bookSame (c : Change) (e : BookEnt) : Bool :=
  e.chg.org == c.org && e.chg.kind == c.kind && e.chg.target == c.target

/-- A change accepted by the writer, with its TIME, for the end of the tick to enter (R394, R399). -/
def book1 (s : State) (c : Change) : State :=
  let t := s.bookTime c.target
  { s with book := { s.book with acc := s.book.acc ++ [⟨t.1, 0, t.2, false, c, 1, []⟩] } }

/-- The changes of one command. -/
def bookAll (s : State) (cs : List Change) : State := cs.foldl book1 s

/-- A change entered by the writer (R400). The window's count stands at 1001 once coalescing has begun. -/
def bookEnter (s : State) (e : BookEnt) : State :=
  if s.book.count < 1000 then ({ s with book := { s.book with count := s.book.count + 1 } }).bookAppend e
  else
    let s0 := if s.book.count = 1000 then ({ s with book := { s.book with count := 1001 } }).gevt F.BOOK_EVT_OVER else s
    if s0.book.buf.any (bookSame e.chg) then
      let upd := s0.book.buf.map (fun x =>
        if bookSame e.chg x then
          { x with time := e.time, notime := e.notime, coalesced := true, ncoal := x.ncoal + 1, chg := { x.chg with new := e.chg.new } }
        else x)
      ({ s0 with book := { s0.book with buf := upd } }).gbump F.BOOK_CNT1_MERGED
    else match s0.book.buf with
      | old :: rest =>
        if s0.book.buf.length < 64 then { s0 with book := { s0.book with buf := s0.book.buf ++ [e] } }
        else (({ s0 with book := { s0.book with buf := rest ++ [e] } }).gbump F.BOOK_CNT0_OVER_WR).bookAppend old
      | [] => { s0 with book := { s0.book with buf := [e] } }

/-- The changes accepted in the tick are entered in the order of R399. -/
def bookFlush (s : State) : State := (chgSort s.book.acc).foldl bookEnter { s with book := { s.book with acc := [] } }

/-- The start of a window: the held entries are written and count toward the new budget (R400). -/
def bookWindow (s : State) : State :=
  let held := s.book.buf
  held.foldl (fun s e => ({ s with book := { s.book with count := s.book.count + 1 } }).bookAppend e)
    { s with book := { s.book with count := 0, buf := [] } }

/-- What the writer holds is written before it is lost: R400 drops no change. -/
def bookSave (s : State) : State :=
  let s1 := s.bookFlush
  s1.book.buf.foldl bookAppend { s1 with book := { s1.book with buf := [] } }

/-- A change of device state (KIND STATE, R395). -/
def bookSt (s : State) (org : Origin) (target : Nat) (old new : Word) : State := s.book1 ⟨org, 0x04, target, old, new⟩

/-! ### Tally -/

/-- A 32-bit count that saturates. -/
def satCount (n : Nat) : Nat := min 0xFFFFFFFF (n + 1)

def updTally (s : State) (f : TallyRec → TallyRec) : State := { s with tally := { s.tally with cur := f s.tally.cur } }

end State

/-- One more in bucket `k` of a histogram. -/
def bucketInc {n : Nat} (v : Vector Nat n) (k : Nat) : Vector Nat n := Vector.ofFn (fun i => if i.val = k then State.satCount v[i] else v[i])

/-- The bucket of an episode of so many seconds: the number of powers of 4 not above it (R415). -/
def secBucket (secs : Nat) : Nat := countIf (fun k => decide (4 ^ k ≤ secs)) (upTo 15)

/-- The TJ bucket of a die temperature in 1/16 °C (R415). -/
def tjBucket (t : Int) : Nat :=
  countIf (fun (k : Nat) => decide (((-40 : Int) + 10 * k) * 16 ≤ t)) (upTo 14) + b2n (decide (110 * 16 ≤ t))

/-- The bucket of a feed's voltage in mV (R415). -/
def vinBucket (mv : Nat) : Nat :=
  if mv < 4500 then 0 else if mv < 5000 then 1 else if mv ≤ 18000 then min 14 (mv / 1000 - 3) else 15

/-- The RACK_T bucket of a time in µs (R415). -/
def rackBucket (us : Nat) : Nat :=
  if us < 5000 then 0 else if us < 10000 then 1 else if us < 50000 then us / 10000 + 1 else if us < 100000 then 6 else 7

/-- The tally record's bytes with its SEQ (R416). -/
def TallyRec.bytes (r : TallyRec) (seq : Nat) : Bytes :=
  let h {n : Nat} (v : Vector Nat n) : Bytes := v.toList.flatMap (leBytes 4)
  let b := leBytes 4 0x594C4154 ++ leBytes 4 1 ++ leBytes 8 seq ++ leBytes 8 r.poh ++
    ([r.starts, r.faultResets, r.tampers, r.injected, r.drills, r.drillFail].flatMap (leBytes 4)) ++ leBytes 16 0 ++
    h r.tj ++ h r.vina ++ h r.vinb ++ h r.outage ++ h r.holdover ++ h r.rackT ++ h r.rackRes ++ leBytes 16 0 ++ (List.finRange 8).flatMap (fun k => leBytes 4 (min 0xFFFFFFFF (Config.rowWear k.val r.wear[k]))) ++
    leBytes 32 0 ++ (upTo 512).flatMap (fun n => leBytes 4 (smGet 0 r.faults n))
  let b1 := padTo 4092 b
  b1 ++ leBytes 4 (crc32 b1)

namespace State

/-! ### Commands -/

def cmd? (s : State) (slot : Nat) : Option CmdSt := s.cmdq.cmds.find? (fun c => c.slot == slot)
def updCmd (s : State) (slot : Nat) (f : CmdSt → CmdSt) : State :=
  { s with cmdq := { s.cmdq with cmds := s.cmdq.cmds.map (fun c => if c.slot = slot then f c else c) } }
/-- STATE of a slot's descriptor (R388). -/
def cmdState (s : State) (slot : Nat) : Nat := getField (s.gword .cmdq (CMDQ_SLOT slot 14)) 0 8
def setCmdState (s : State) (slot st : Nat) : State :=
  s.gsetWord .cmdq (CMDQ_SLOT slot 14) (putField (s.gword .cmdq (CMDQ_SLOT slot 14)) 0 8 st)
def setProgress (s : State) (slot n : Nat) : State :=
  s.gsetWord .cmdq (CMDQ_SLOT slot 14) (putField (s.gword .cmdq (CMDQ_SLOT slot 14)) 16 16 n)

end State

/-! Codes of STATE (R388) and RESULT (R392). -/
def CS_FREE : Nat := 0
def CS_QUEUED : Nat := 1
def CS_RUNNING : Nat := 2
def CS_SUSPENDED : Nat := 3
def CS_DONE : Nat := 4
def CS_CANCELLED : Nat := 5
def CS_FAILED : Nat := 6
def RES_OK : Nat := 0
def RES_FORMAT : Nat := 1
def RES_ABSENT : Nat := 2
def RES_STATE : Nat := 3
def RES_TIMEOUT : Nat := 4
def RES_SAFE : Nat := 5
def RES_TAMPERED : Nat := 6
def RES_HOST_DMA : Nat := 7
def RES_NO_HANDLE : Nat := 8
def RES_OP_ERROR : Nat := 9
def RES_CANCELLED : Nat := 10

/-- The state in which a command ends with a RESULT (R391, R392). -/
def endState (res : Nat) : Nat := if res = RES_OK then CS_DONE else if res = RES_CANCELLED then CS_CANCELLED else CS_FAILED

namespace State

/-- A command ends with RESULT `res` and RDATA (R391, R392): its slot keeps it, ENDED and the events are set, NOTIFY raises vector 0. -/
def endCmd (s : State) (slot res rdata : Nat) : State :=
  match s.cmd? slot with
  | none => s
  | some c =>
    let w := s.gword .cmdq (CMDQ_SLOT slot 14)
    let s1 := (s.gsetWord .cmdq (CMDQ_SLOT slot 14) (putField (putField w 0 8 (endState res)) 8 8 res)).gsetWord .cmdq (CMDQ_SLOT slot 15) (BitVec.ofNat 32 rdata)
    let s2 := { s1 with cmdq := { s1.cmdq with cmds := s1.cmdq.cmds.filter (fun x => x.slot != slot) } }
    let s3 := (s2.gput (F.CMDQ_ENDED_ENDED (slot / 32)) (putField (s2.gword .cmdq (CMDQ_ENDED (slot / 32))) (slot % 32) 1 1).toNat).gevt F.CMDQ_EVT_END
    let s4 := if res = RES_OK then s3 else s3.gevt F.CMDQ_EVT_FAIL
    if c.notify && s4.gflag F.HOSTIF_INT_CFG_CMD_EN then s4.msix 0 else s4

/-- The same, with RDATA taken as it stands. -/
def failCmd (s : State) (slot res : Nat) : State := s.endCmd slot res (s.gword .cmdq (CMDQ_SLOT slot 15)).toNat

/-! ### Twin frames (R268, R281) -/

/-- The lane of a frame of channel `n`: n mod 2, or the other while that one is down; none while both are. -/
def twinLane (s : State) (n : Nat) : Option (Fin 2) :=
  let a : Fin 2 := Fin.ofNat 2 n
  if s.twin.laneUp[a] then some a else if s.twin.laneUp[1 - a] then some (1 - a) else none

/-- The next LSEQ of a lane. -/
def nextLseq (s : State) (l : Fin 2) : Nat × State :=
  (s.twin.lseqTx[l], { s with twin := { s.twin with lseqTx := s.twin.lseqTx.set l ((s.twin.lseqTx[l] + 1) % 2 ^ 32) } })

/-- A frame sent on a lane that is up. -/
def twinSendOn (s : State) (l : Fin 2) (ty ch : Nat) (pl : Bytes) : State :=
  if !s.twin.laneUp[l] || s.safe then s
  else
    let q := s.nextLseq l
    let b := leBytes 1 ty ++ leBytes 1 ch ++ leBytes 2 pl.length ++ leBytes 4 q.1 ++ s.devidLe ++ pl
    q.2.emit (.twin l.val (b ++ leBytes 4 (crc32 b)))

/-- A frame of channel `n`. -/
def twinSend (s : State) (ty n : Nat) (pl : Bytes) : State :=
  match s.twinLane n with
  | some l => s.twinSendOn l ty n pl
  | none => s

/-- A journal entry streamed as it is written, in a JOUR frame of its own (R268, R282). -/
def streamJour (s : State) (n : ChanIx) (e : JEntry) : State :=
  if !s.streaming then s else s.twinSend 0x03 n.val (leBytes 4 e.idx ++ leBytes 4 1 ++ jentryBytes e)

end State
end Sys2Proof.Machine
end

