-- ==== Sys2Proof/Machine/GnssOps.lean ====
section
/-! DEFINITION. The GNSS baseband: sample link, back-channel, tracking states, notches, jamming, position, survey, timing solution
and snapshots (R94 to R121). What the baseband's signal processing measures comes with the commands. -/
namespace Sys2Proof.Machine

/-! Codes of LINK_STAT.STATE, TRK_STAT.STATE, NOTCH_STAT.STATE, POS_CTL.MODE and SNAP_STAT.STATE (R121). -/
def LINK_DOWN : Nat := 0
def LINK_ALIGNING : Nat := 1
def LINK_UP : Nat := 2
def TRK_IDLE : Nat := 0
def TRK_SEARCH : Nat := 1
def TRK_PULL_IN : Nat := 2
def TRK_TRACK : Nat := 3
def TRK_LOST : Nat := 4
def NOTCH_OFF : Nat := 0
def NOTCH_SEARCH : Nat := 1
def NOTCH_LOCKED : Nat := 2
def NOTCH_FIXED : Nat := 3
def POS_NONE : Nat := 0
def POS_SURVEYING : Nat := 1
def POS_SUSPENDED : Nat := 2
def POS_HOLD : Nat := 3
def SNAP_EMPTY : Nat := 0
def SNAP_ARMED : Nat := 1
def SNAP_CAPTURING : Nat := 2
def SNAP_FULL : Nat := 3
def SNAP_PROCESSING : Nat := 4
def SNAP_DONE : Nat := 5

/-- Samples per frame (R96). -/
def frameSamples (rate : Nat) : Nat := match rate with | 0 => 500 | 1 => 800 | _ => 1000

namespace Channel

def setGnss (c : Channel) (g : GnssBlk) : Channel := { c with gnss := g }
def updTrk (c : Channel) (i : Fin 48) (f : Trk → Trk) : Channel :=
  c.setGnss { c.gnss with trk := c.gnss.trk.set i (f c.gnss.trk[i]) }
def trkSt (c : Channel) (i : Fin 48) : Nat := c.cur (F.GNSS_TRK_STAT_STATE i.val)

/-- A tracking channel enters a state with its timer (R102). -/
def trkTo (c : Channel) (i : Fin 48) (st : Nat) (timer : Option Nat) : Channel :=
  (c.put (F.GNSS_TRK_STAT_STATE i.val) st).updTrk i (fun t => { t with timer := timer })

/-- Tracking channels that satisfy a test return to IDLE (R102). -/
def trkIdle (c : Channel) (p : Fin 48 → Bool) : Channel :=
  (List.finRange 48).foldl (fun c i => if p i ∧ c.trkSt i ≠ TRK_IDLE then c.trkTo i TRK_IDLE none else c) c

def linkSt (c : Channel) : Nat := c.cur F.GNSS_LINK_STAT_STATE

/-- The sample link changes state (R98); DOWN returns every tracking channel to IDLE (R102). -/
def linkTo (c : Channel) (st : Nat) : Channel :=
  if c.linkSt = st then c
  else
    let c1 := ((c.put F.GNSS_LINK_STAT_STATE st).evt F.GNSS_EVT_LINK).setGnss { c.gnss with good := 0, bad := 0 }
    if st = LINK_DOWN then (c1.trkIdle (fun _ => true)).setGnss { (c1.trkIdle (fun _ => true)).gnss with expect := none, comma := none } else c1

/-- An outstanding back-channel operation completes with a frame that carries its TAG (R100). -/
def bcDone (c : Channel) (rtag rstat rdata : Nat) : Channel :=
  match c.gnss.bc with
  | none => c
  | some o =>
    if o.sent.isSome && o.tag == rtag then
      let c1 := ((c.setGnss { c.gnss with bc := none }).put F.GNSS_BC_STAT_BUSY 0).put F.GNSS_BC_RDATA_RDATA rdata
      c1.evt (if rstat = 0 then F.GNSS_BC_STAT_DONE else F.GNSS_BC_STAT_ERR)
    else c

/-- The frames that count in the second up to this tick (R114). -/
def lastSec (c : Channel) (ts : List Nat) : List Nat := ts.filter (fun t => decide (c.jour.tick < t + secTicks 1))

/-- Whether R114 saturates the bound at this tick: the link, R108 or more than 100 erased frames. -/
def spoiltNow (c : Channel) : Bool :=
  (match c.gnss.alarmAt with | some t => decide (c.jour.tick < t + secTicks 1) | none => false) || c.linkSt != LINK_UP ||
    decide (100 < (c.lastSec c.gnss.erasedAt).length)

/-- A frame taken by a running capture (R116): its samples, or zeros. -/
def snapFrame (c : Channel) (good : Bool) (agc : Byte) (samples : Bytes) : Channel :=
  match c.gnss.snap with
  | some s =>
    if c.cur F.GNSS_SNAP_STAT_STATE = SNAP_CAPTURING ∧ s.frames.length < s.len * 100 then
      let n := frameSamples s.rate
      let fr := if good then padTo n samples else List.replicate n 0#8
      let s' := { s with frames := fr :: s.frames, erased := s.erased + b2n (!good),
                         agc := match s.agc with | some a => some a | none => some agc,
                         linkLost := s.linkLost || c.linkSt != LINK_UP }
      (c.setGnss { c.gnss with snap := some s' }).put F.GNSS_SNAP_STAT_ERASED s'.erased
    else c
  | none => c

/-- A sample-link frame whose first character is registered in this tick (R96 to R98, R100, R116). `comma` says whether the
character is K28.5; `bs` holds bytes 1 to 12 + N. The frame that begins ALIGNING is none of the four good ones; FSEQ is free on the first
frame after it, and goes on by one over a frame whose CRC fails (notes/assumptions/99.md). -/
def sampleFrame (c : Channel) (comma : Bool) (bs : Bytes) : Channel :=
  if !c.flag F.GNSS_FE_CFG_EN then c
  else
    let now := c.jour.tick
    let st := c.linkSt
    if st = LINK_DOWN then
      let c0 := c.snapFrame false 0#8 []
      if comma then
        let c1 := c0.linkTo LINK_ALIGNING
        c1.setGnss { c1.gnss with expect := none, comma := some now }
      else c0
    else
      let n := frameSamples (c.fld F.GNSS_FE_CFG_RATE)
      let crcOk := bs.length == 12 + n && crc16 (slice bs 0 (10 + n)) == fromBe (slice bs (10 + n) 2)
      let fseq := fromBe (slice bs 0 2)
      let seqOk := match c.gnss.expect with | some e => e == fseq | none => true
      let off := match c.gnss.comma with
        | some t => let r := (now - t) % 2000; comma && decide (1 < r) && decide (r < 1999)
        | none => false
      let good := comma && crcOk && seqOk && !off
      let expect := if crcOk then some ((fseq + 1) % 65536) else c.gnss.expect.map (fun e => (e + 1) % 65536)
      let c1 := c.setGnss { c.gnss with expect := expect, comma := if comma then some now else c.gnss.comma }
      let c2 := if off then c1.evt F.GNSS_LINK_STAT_RATE_ERR else c1
      let stat := slice bs 2 1
      let agc := fromBe (slice bs 3 1)
      let c3 := if good then
          let s := BitVec.ofNat 32 (fromBe stat)
          let c0 := (c2.put F.GNSS_LINK_STAT_FE_LOCK (b2n (bit s 7))).put F.GNSS_LINK_STAT_AGC agc
          let c0 := if bit s 6 then c0.evt F.GNSS_LINK_STAT_OVLD else c0
          let add (x : Nat × Nat) : Nat × Nat := (x.1 + agc, x.2 + 1)
          let c0 := c0.setGnss { c0.gnss with
            agcMs := add c0.gnss.agcMs, agcFl := if c0.gnss.floorEnd.isSome then add c0.gnss.agcFl else c0.gnss.agcFl }
          c0.bcDone (fromBe (slice bs 4 1)) (fromBe (slice bs 5 1)) (fromBe (slice bs 6 4))
        else
          let c0 := c2.bump F.GNSS_LINK_STAT_CRC_ERR
          if st = LINK_UP then c0.setGnss { c0.gnss with erasedAt := now :: c0.lastSec c0.gnss.erasedAt } else c0
      let g := if good then c3.gnss.good + 1 else 0
      let b := if good then 0 else c3.gnss.bad + 1
      let c4 := c3.setGnss { c3.gnss with good := g, bad := b }
      let c5 := c4.snapFrame (good && st == LINK_UP) (BitVec.ofNat 8 agc) (slice bs 10 n)
      if st = LINK_ALIGNING ∧ g ≥ 4 then c5.linkTo LINK_UP
      else if st = LINK_UP ∧ b ≥ 4 then c5.linkTo LINK_DOWN
      else c5

/-- BC_CMD.GO (R100). -/
def bcGo (c : Channel) : Channel :=
  let op := c.cur F.GNSS_BC_CMD_OP
  if c.gnss.bc.isSome ∨ op = 0 ∨ op = 3 then c
  else
    let tag := if c.gnss.bcTag = 255 then 1 else c.gnss.bcTag + 1
    let o : BcOp := ⟨tag, op, c.cur F.GNSS_BC_CMD_ADDR, if op = 1 then c.word .gnss GNSS_BC_DATA else 0#32, none⟩
    (c.setGnss { c.gnss with bc := some o, bcTag := tag }).put F.GNSS_BC_STAT_BUSY 1

/-- The characters of a back-channel message that follow its COMMA (R99). -/
def bcChars (op tag addr : Nat) (data : Word) : Bytes :=
  let b := beBytes 1 op ++ beBytes 1 tag ++ beBytes 2 addr ++ beBytes 4 data.toNat
  b ++ beBytes 2 (crc16 b) ++ List.replicate 114 0#8

/-- The message of a 10 µs period: the operation that waits, or idle (R99). TAG, ADDR and DATA of an idle message are 0, and messages go
out whatever EN holds (notes/assumptions/99.md). -/
def bcMessage (c0 : Channel) : Channel :=
  let now := c0.jour.tick
  if c0.gnss.bcAt.any (fun t => decide (now < t + 2000)) then c0
  else
    let c := c0.setGnss { c0.gnss with bcAt := some now }
    match c.gnss.bc with
    | some o =>
      if o.sent.isNone then (c.setGnss { c.gnss with bc := some { o with sent := some now } }).ask (.backMsg (bcChars o.op o.tag o.addr o.data))
      else c.ask (.backMsg (bcChars 0 0 0 0#32))
    | none => c.ask (.backMsg (bcChars 0 0 0 0#32))

/-- 80 µs without an answer (R100). -/
def bcTimeout (c : Channel) : Channel :=
  match c.gnss.bc with
  | some o => match o.sent with
    | some t => if t + 16000 ≤ c.jour.tick then
        ((c.setGnss { c.gnss with bc := none }).put F.GNSS_BC_STAT_BUSY 0).evt F.GNSS_BC_STAT_TOUT
      else c
    | none => c
  | none => c

/-! ### Tracking (R102, R103) -/

def trkGal (c : Channel) (i : Fin 48) : Bool := c.cur (F.GNSS_TRK_STAT_SYS i.val) == 1
def trkSv (c : Channel) (i : Fin 48) : Nat := c.cur (F.GNSS_TRK_STAT_SV i.val)
def sysOn (c : Channel) (gal : Bool) : Bool := if gal then c.flag F.GNSS_FE_CFG_GAL_EN else c.flag F.GNSS_FE_CFG_GPS_EN

/-- What is stored of a satellite. -/
def navSat (c : Channel) (gal : Bool) (sv : Nat) : NavSat :=
  match c.gnss.nav.sats.find? (fun s => s.gal == gal && s.sv == sv) with
  | some s => s
  | none => ⟨gal, sv, none, none, true⟩

def putNavSat (c : Channel) (s : NavSat) : Channel :=
  let rest := c.gnss.nav.sats.filter (fun x => !(x.gal == s.gal && x.sv == s.sv))
  c.setGnss { c.gnss with nav := { c.gnss.nav with sats := rest ++ [s] } }

/-- Whether a satellite may not be assigned yet (R102). -/
def isBarred (c : Channel) (gal : Bool) (sv : Nat) : Bool :=
  c.gnss.barred.any (fun b => b.gal == gal && b.sv == sv && decide (c.jour.tick < b.until'))

def trkAssign (c : Channel) (i : Fin 48) (gal : Bool) (sv : Nat) : Channel :=
  if c.trkSt i = TRK_IDLE ∧ c.linkSt = LINK_UP ∧ c.sysOn gal ∧ !c.isBarred gal sv ∧ (c.navSat gal sv).healthy then
    (((c.trkTo i TRK_SEARCH none).put (F.GNSS_TRK_STAT_SYS i.val) (b2n gal)).put (F.GNSS_TRK_STAT_SV i.val) sv).updTrk i
      (fun t => { t with moved := 0 })
  else c

def trkDetect (c : Channel) (i : Fin 48) : Channel :=
  if c.trkSt i = TRK_SEARCH then (c.trkTo i TRK_PULL_IN (some (c.jour.tick + secTicks 2))).updTrk i (fun t => { t with start := c.jour.tick })
  else c

def trkExhausted (c : Channel) (i : Fin 48) : Channel :=
  if c.trkSt i = TRK_SEARCH then
    let b : Barred := ⟨c.trkGal i, c.trkSv i, c.jour.tick + secTicks 60⟩
    (c.trkTo i TRK_IDLE none).setGnss { (c.trkTo i TRK_IDLE none).gnss with barred := c.gnss.barred ++ [b] }
  else c

/-- The bars whose 60 s are over end (R102). -/
def trkUnbar (c : Channel) : Channel :=
  c.setGnss { c.gnss with barred := c.gnss.barred.filter (fun b => decide (c.jour.tick < b.until')) }

def trkLock (c : Channel) (i : Fin 48) : Channel :=
  if c.trkSt i = TRK_PULL_IN ∨ c.trkSt i = TRK_LOST then c.trkTo i TRK_TRACK none else c

def trkExpired (c : Channel) (i : Fin 48) : Bool :=
  match c.gnss.trk[i].timer with | some t => t ≤ c.jour.tick | none => false

def trkPullInTimeout (c : Channel) (i : Fin 48) : Channel :=
  if c.trkSt i = TRK_PULL_IN ∧ c.trkExpired i then c.trkTo i TRK_SEARCH none else c

def trkLockLost (c : Channel) (i : Fin 48) : Channel :=
  if c.trkSt i = TRK_TRACK then c.trkTo i TRK_LOST (some (c.jour.tick + secTicks 10)) else c

def trkLostTimeout (c : Channel) (i : Fin 48) : Channel :=
  if c.trkSt i = TRK_LOST ∧ c.trkExpired i then c.trkTo i TRK_IDLE none else c

/-- Whether a tracking channel still uses the values before the last commit: up to the integration boundary that follows it. Integrations
of 1 ms or 4 ms follow one another from the start of the loops (R103, notes/assumptions/99.md). -/
def oldSpcFor (c : Channel) (i : Fin 48) : Option OldSpc :=
  match c.gnss.oldSpc with
  | none => none
  | some o =>
    let per := if c.trkGal i then 800000 else 200000
    let st := c.gnss.trk[i].start
    if c.jour.tick ≤ st + ((o.tick - st) / per + 1) * per then some o else none

/-- DISC and D2 that a tracking channel uses (R103). -/
def discFor (c : Channel) (i : Fin 48) : Nat := match c.oldSpcFor i with | some o => o.disc | none => c.fld F.GNSS_TRK_CFG_DISC
def d2For (c : Channel) (i : Fin 48) : Nat :=
  match c.oldSpcFor i, c.trkGal i with
  | some o, true => o.galD2
  | some o, false => o.gpsD2
  | none, true => c.fld F.GNSS_SPC_GAL_D2
  | none, false => c.fld F.GNSS_SPC_GPS_D2

/-- The side peak guard moves the code loop one D2 toward the larger tap (R103). -/
def sidePeak (c : Channel) (i : Fin 48) (late : Bool) : Channel :=
  if c.trkSt i = TRK_IDLE ∨ c.trkSt i = TRK_SEARCH then c
  else
    let d2 : Int := c.d2For i
    c.updTrk i (fun t => { t with moved := t.moved + (if late then d2 else -d2) })

/-- Navigation data from a tracked satellite (R102, R115). -/
def navDecoded (c : Channel) (i : Fin 48) (d : NavData) : Channel :=
  if c.trkSt i ≠ TRK_TRACK then c
  else
    let gal := c.trkGal i
    let s := c.navSat gal (c.trkSv i)
    match d with
    | .ephemeris acc bs => c.putNavSat { s with eph := some (acc, bs) }
    | .almanac bs => c.putNavSat { s with alm := some bs }
    | .ggto g => c.setGnss { c.gnss with nav := { c.gnss.nav with ggto := some g } }
    | .utc u =>
      let nav := if gal then { c.gnss.nav with gal := some u } else { c.gnss.nav with gps := some u }
      let c1 := c.setGnss { c.gnss with nav := nav }
      match nav.gps, nav.gal with
      | some a, some b => if a ≠ b then c1.evt F.GNSS_EVT_UTCD else c1
      | _, _ => c1
    | .health ok =>
      let c1 := c.putNavSat { s with healthy := ok }
      if ok then c1 else c1.trkIdle (fun j => c1.trkGal j == gal && c1.trkSv j == c1.trkSv i)

/-! ### Notches and jamming (R105 to R108) -/

def notchSt (c : Channel) (k : Nat) : Nat := c.cur (F.GNSS_NOTCH_STAT_STATE k)
def notchOn (st : Nat) : Bool := st == NOTCH_LOCKED || st == NOTCH_FIXED

/-- A notch changes state. -/
def notchTo (c : Channel) (k : Fin 4) (st freq : Nat) : Channel :=
  let old := c.notchSt k.val
  let c1 := (c.put (F.GNSS_NOTCH_STAT_STATE k.val) st).put (F.GNSS_NOTCH_STAT_FREQ k.val) freq
  let c2 := c1.setGnss { c1.gnss with
    notchLow := c1.gnss.notchLow.set k none, notchEnd := if notchOn old then c1.gnss.notchEnd.set k (some c.jour.tick) else c1.gnss.notchEnd }
  if old = st then c2 else c2.evt F.GNSS_EVT_NOTCH

/-- Whether a notch was LOCKED or FIXED in the second up to this tick (R106). -/
def notchSec (c : Channel) (k : Fin 4) : Bool :=
  notchOn (c.notchSt k.val) || c.gnss.notchEnd[k].any (fun t => decide (c.jour.tick < t + secTicks 1))

/-- The frequency that a notch removes, in Hz from 1575.42 MHz. -/
def notchFreq (c : Channel) (k : Fin 4) : Int := signed 27 (c.cur (F.GNSS_NOTCH_STAT_FREQ k.val))

/-- The lines that exceed the noise floor by THR, strongest first; a line is its frequency and its power over the floor in 0.25 dB. -/
def linesOver (c : Channel) (lines : List (Int × Nat)) : List (Int × Nat) :=
  (lines.filter (fun l => decide (c.fld F.GNSS_JAM_CFG_THR ≤ l.2))).insertionSort (fun a b => b.2 ≤ a.2)

/-- An AUTO notch in SEARCH takes the strongest line that no other notch holds; among more than four lines only the four strongest. -/
def notchTake (c : Channel) (k : Fin 4) (lines : List (Int × Nat)) : Channel :=
  let free (l : Int × Nat) : Bool := !(List.finRange 4).any (fun j => j != k && notchOn (c.notchSt j.val) && c.notchFreq j == l.1)
  match ((c.linesOver lines).take 4).find? free with
  | some l => if c.notchSt k.val = NOTCH_SEARCH then c.notchTo k NOTCH_LOCKED (unsigned 27 l.1) else c
  | none => c

/-- A LOCKED notch follows its line, the one nearest to it; it lets go of a line that is none of the four strongest, and notes since when
the line lies below THR. -/
def notchFollow (c : Channel) (k : Fin 4) (lines : List (Int × Nat)) : Channel :=
  let f := c.notchFreq k
  let near := lines.foldl (fun (a : Option (Int × Nat)) l => match a with
    | none => some l
    | some b => if (l.1 - f).natAbs < (b.1 - f).natAbs then some l else some b) none
  let low : Channel := c.setGnss { c.gnss with notchLow := c.gnss.notchLow.set k (some (c.gnss.notchLow[k].getD c.jour.tick)) }
  if c.notchSt k.val ≠ NOTCH_LOCKED then c
  else match near with
    | none => low
    | some l =>
      if l.2 < c.fld F.GNSS_JAM_CFG_THR then low
      else if ((c.linesOver lines).take 4).contains l then
        (c.put (F.GNSS_NOTCH_STAT_FREQ k.val) (unsigned 27 l.1)).setGnss { c.gnss with notchLow := c.gnss.notchLow.set k none }
      else c.notchTo k NOTCH_SEARCH 0

/-- Of two LOCKED notches within 50 kHz of each other the higher-numbered returns to SEARCH. -/
def notchApart (c : Channel) : Channel :=
  (List.finRange 4).foldl (fun c k =>
    let hit (j : Fin 4) : Bool := decide (j.val < k.val) && c.notchSt j.val == NOTCH_LOCKED && decide ((c.notchFreq j - c.notchFreq k).natAbs ≤ 50000)
    if c.notchSt k.val = NOTCH_LOCKED ∧ (List.finRange 4).any hit then c.notchTo k NOTCH_SEARCH 0 else c) c

/-- What notch `k` does on a spectrum (R105). -/
def notchLock (c : Channel) (k : Fin 4) (lines : List (Int × Nat)) : Channel :=
  ((c.notchFollow k lines).notchTake k lines).notchApart

/-- The same; a notch whose line has stayed below THR for 100 ms returns to SEARCH (R105). -/
def notchRelease (c : Channel) (k : Fin 4) (lines : List (Int × Nat)) : Channel :=
  let c1 := (c.notchFollow k lines).notchApart
  if c1.notchSt k.val = NOTCH_LOCKED ∧ c1.gnss.notchLow[k].any (fun t => decide (t + 20000000 ≤ c.jour.tick)) then c1.notchTo k NOTCH_SEARCH 0
  else c1

/-- The mean of AGC bytes given by their sum and number, as its floor; `idle` where no frame came (notes/assumptions/99.md). -/
def agcMean (idle : Byte) (x : Nat × Nat) : Nat := if x.2 = 0 then idle.toNat else x.1 / x.2

/-- The jamming indicator of a millisecond, from the mean AGC byte and PQ (R107, R108). -/
def jniUpdate (c0 : Channel) (idle : Byte) (pq : Nat) : Channel :=
  let now := c0.jour.tick
  if c0.gnss.jniAt.any (fun t => decide (now < t + 200000)) then c0
  else
    let j := (min 255 (max 0 ((agcMean idle c0.gnss.agcMs : Int) - c0.cur F.GNSS_JAM_CFG_FLOOR + pq))).toNat
    let c := c0.setGnss { c0.gnss with jniAt := some now, agcMs := (0, 0) }
    let al := decide (c.fld F.GNSS_JAM_CFG_ALARM ≤ j)
    let c1 := c.put F.GNSS_JAM_STAT_JNI j
    let c2 := if c.fld F.GNSS_JAM_CFG_WARN ≤ j then c1.evt F.GNSS_EVT_JWARN else c1
    let c3 := if al then c2.evt F.GNSS_EVT_JALARM else c2
    let snap := match c3.gnss.snap with
      | some s => if c3.cur F.GNSS_SNAP_STAT_STATE = SNAP_CAPTURING then some { s with jniMax := max s.jniMax j } else some s
      | none => none
    c3.setGnss { c3.gnss with alarmAt := if al then some now else c3.gnss.alarmAt, jniSec := max c3.gnss.jniSec j, snap := snap }

def floorCapture (c : Channel) : Channel := c.setGnss { c.gnss with floorEnd := some (c.jour.tick + secTicks 1), agcFl := (0, 0) }

/-- The end of a FLOOR capture: the mean AGC byte of its second (R107). -/
def floorCaptureEnd (c : Channel) (idle : Byte) : Channel :=
  match c.gnss.floorEnd with
  | some t =>
    if t ≤ c.jour.tick then (c.setGnss { c.gnss with floorEnd := none }).put F.GNSS_JAM_CFG_FLOOR (agcMean idle c.gnss.agcFl) else c
  | none => c

/-! ### Position (R109, R110) -/

def posMode (c : Channel) : Nat := c.cur F.GNSS_POS_CTL_MODE
def posTo (c : Channel) (m : Nat) : Channel :=
  if c.posMode = m then c else (c.put F.GNSS_POS_CTL_MODE m).evt F.GNSS_EVT_POS

/-- A running or suspended survey ends; its command ends with the RESULT given (R109, R110). -/
def surveyStop (c : Channel) (result : Nat) : Channel :=
  match c.gnss.survey with
  | none => c
  | some s => (((c.setGnss { c.gnss with survey := none }).evt F.GNSS_EVT_SURV)).ask (.opEnd s.slot result (c.cur F.GNSS_SURV_STAT_SPREAD))

/-- The position as written by software. -/
def posWritten (c : Channel) : Int × Int × Int × Nat :=
  let ax (a : Nat) : Int := ofWords [c.word .gnss (GNSS_POS_LO a), c.word .gnss (GNSS_POS_HI a)]
  (ax 0, ax 1, ax 2, c.cur F.GNSS_POS_BND_BND)

def posSet (c : Channel) : Channel :=
  let c1 := c.surveyStop 0x0A
  (c1.setGnss { c1.gnss with pos := some c1.posWritten }).posTo POS_HOLD

def posClr (c : Channel) : Channel :=
  let c1 := c.surveyStop 0x0A
  (c1.setGnss { c1.gnss with pos := none }).posTo POS_NONE

/-- The survey of a command slot starts (R109). -/
def surveyStart (c : Channel) (slot : Nat) : Channel :=
  let s : Survey := ⟨slot, c.cur F.GNSS_SURV_CFG_MIN_FIX, c.cur F.GNSS_SURV_CFG_POS_LIM, c.cur F.GNSS_SURV_MARGIN_POS_MARGIN,
    0, (0, 0, 0), [], none, false, c.posMode == POS_HOLD⟩
  (((c.setGnss { c.gnss with survey := some s }).put F.GNSS_SURV_STAT_FIXES 0).put F.GNSS_SURV_STAT_SPREAD 0xFFFF).posTo POS_SURVEYING

/-- SUSPEND or RESUME of the survey. -/
def surveySuspend (c : Channel) (b : Bool) : Channel :=
  match c.gnss.survey with
  | none => c
  | some s => (c.setGnss { c.gnss with survey := some { s with suspended := b } }).posTo (if b then POS_SUSPENDED else POS_SURVEYING)

/-- The survey is withdrawn by CANCEL, a timeout or the safe state: the mode it started from returns. -/
def surveyCancel (c : Channel) : Channel :=
  match c.gnss.survey with
  | none => c
  | some s => ((c.setGnss { c.gnss with survey := none }).evt F.GNSS_EVT_SURV).posTo (if s.fromHold then POS_HOLD else POS_NONE)

/-- The largest spread, over the axes, of the running means (R109). -/
def spread (ms : List (Int × Int × Int)) : Nat :=
  let ax (f : Int × Int × Int → Int) : Nat :=
    match ms with
    | [] => 0
    | m :: r => ((r.foldl (fun a x => max a (f x)) (f m)) - (r.foldl (fun a x => min a (f x)) (f m))).toNat
  max (ax Prod.fst) (max (ax (fun p => p.2.1)) (ax (fun p => p.2.2)))

/-- A position fix of a running survey, one in each second of channel time, with at least four usable satellites (R109, R110). -/
def surveyFix (c : Channel) (p : Int × Int × Int) : Channel :=
  match c.gnss.survey with
  | none => c
  | some s =>
    if s.suspended || s.lastFix == some c.nowSec || decide (c.gnss.usableN < 4) then c
    else
      let n := s.fixes + 1
      let sum := (s.sum.1 + p.1, s.sum.2.1 + p.2.1, s.sum.2.2 + p.2.2)
      let mean := (Int.fdiv sum.1 n, Int.fdiv sum.2.1 n, Int.fdiv sum.2.2 n)
      let ms := (mean :: s.means).take 600
      let sp := spread ms
      let c1 := (c.put F.GNSS_SURV_STAT_FIXES (min 65535 n)).put F.GNSS_SURV_STAT_SPREAD (min 0xFFFF sp)
      if n ≥ 600 ∧ n ≥ s.minFix ∧ sp ≤ s.posLim then
        let c2 := c1.setGnss { c1.gnss with pos := some (mean.1, mean.2.1, mean.2.2, min SAT (sp + s.margin)) }
        (c2.posTo POS_HOLD).surveyStop 0
      else c1.setGnss { c1.gnss with survey := some { s with fixes := n, sum := sum, means := ms, lastFix := some c.nowSec } }

/-- The held position that L8 uses: that of HOLD, or of the HOLD a survey started from (R109). -/
def heldPos (c : Channel) : Option (Int × Int × Int × Nat) :=
  if c.posMode = POS_HOLD then c.gnss.pos
  else match c.gnss.survey with
    | some s => if s.fromHold then c.gnss.pos else none
    | none => none

/-! ### The timing solution (R111 to R115) -/

/-- The code term of R112. -/
def codeTerm (cn0 : Nat) : Nat := if cn0 ≥ 45 then 1500 else if cn0 ≥ 40 then 3000 else if cn0 ≥ 35 then 6000 else 12000

/-- MPM (R104): the largest difference of the discriminators over the last 1 s, rounded up to 10 ps. -/
def mpm (m : SatMeas) : Nat := 10 * ceilDiv (m.difs.foldl max 0) 10

/-- p_i of R112 in ps; `acc` is URA or SISA in centimetres. -/
def satPs (c : Channel) (m : SatMeas) (acc bnd : Nat) (ggto : Bool) : Nat :=
  codeTerm m.cn0 + (ceilDiv m.iono 2 + c.fld F.GNSS_BUD_IONO_FLOOR) + (ceilDiv m.tropo 10 + c.fld F.GNSS_BUD_TROPO_FLOOR) +
  ceilDiv (acc * 3336) 100 + mpm m + ceilDiv (bnd * 3336) 1000 + (if ggto then c.fld F.GNSS_GGTO_BUD_GGTO_BUD else 0)

/-- Whether a satellite is usable, GGTO apart (R111). -/
def satUsable (c : Channel) (m : SatMeas) : Bool :=
  let s := c.navSat (c.trkGal m.trk) (c.trkSv m.trk)
  c.trkSt m.trk == TRK_TRACK && s.eph.isSome && s.healthy &&
  decide ((min 90 (c.fld F.GNSS_TRK_CFG_MASK) : Nat) ≤ m.elev) && decide (30 ≤ m.cn0) && decide (c.fld F.GNSS_TRK_CFG_MIN_CN0 ≤ m.cn0)

/-- GGTO at channel time `e`: Galileo time less GPS time (R111). -/
def ggtoAt (g : Ggto) (e : Gt) : Int := g.a0 + g.a1 * (sar e 64 - g.t0)

/-- The usable satellites at channel time `e` with centre and half-width (R103, R111, R112). -/
def usable (c : Channel) (ms : List SatMeas) (bnd : Nat) (e : Gt) : List (Fin 48 × Int × Bound) :=
  let us := ms.filter c.satUsable
  let gps := us.any (fun m => !c.trkGal m.trk)
  us.filterMap (fun m =>
    let acc := match (c.navSat (c.trkGal m.trk) (c.trkSv m.trk)).eph with | some e => e.1 | none => 0
    let o := if c.discFor m.trk = 1 then m.narrow else m.wide
    let by' := gps && c.trkGal m.trk
    let h := satCap (tebOfPs (c.satPs m acc bnd by'))
    match by', c.gnss.nav.ggto with
    | true, some g => some (m.trk, o - ggtoAt g e, h)
    | true, none => none
    | false, _ => some (m.trk, o, h))

/-- The median of R113. -/
def solMedian (os : List Int) : Int :=
  let xs := os.insertionSort (fun a b => a ≤ b)
  let m := xs.length / 2
  if xs.length % 2 = 1 then xs.getD m 0 else sar (xs.getD (m - 1) 0 + xs.getD m 0) 1

/-- solve of R113: the solution with the satellites used, and the excluded ones. The fuel is the number of satellites. -/
def solve (minSv : Nat) : Nat → List (Fin 48 × Int × Bound) → List (Fin 48) → Option (Gt × Bound × List (Fin 48)) × List (Fin 48)
  | 0, _, ex => (none, ex)
  | n + 1, ss, ex =>
    if ss.length < minSv then (none, ex)
    else match intersect (ss.map (fun s => (⟨s.2.1, s.2.2⟩, 0#32))) with
      | .iv ctr w _ => (some (ctr, w, ss.map Prod.fst), ex)
      | .untraceable => (none, ex)
      | .empty =>
        let med := solMedian (ss.map (fun s => s.2.1))
        let far := ss.foldl (fun a s => match a with
          | none => some s
          | some b =>
            let ds := (s.2.1 - med).natAbs
            let db := (b.2.1 - med).natAbs
            if db < ds ∨ (db = ds ∧ b.1.val < s.1.val) then some s else some b) (none : Option (Fin 48 × Int × Bound))
        match far with
        | none => (none, ex)
        | some f => solve minSv n (ss.filter (fun s => s.1 != f.1)) (ex ++ [f.1])

/-- The tracking channels sample their code phases at the whole second E of this tick (R111). The exclusions of the epoch before end
(R113); an epoch whose record never came is a gap (R114). -/
def epochSample (c : Channel) (ms : List SatMeas) : Channel :=
  match c.secondHere with
  | none => c
  | some s =>
    if c.gnss.lastEpoch = some c.jour.tick ∨ !c.flag F.GNSS_FE_CFG_EN then c
    else
      let g := c.gnss
      let e : Gt := s * 2 ^ 64
      let bnd := match c.heldPos with | some p => p.2.2.2 | none => 0
      let us := c.usable ms bnd e
      let ep : Epoch := ⟨e, c.kAt e, c.jour.tick, us, countIf c.notchSec (List.finRange 4), c.spoiltNow || c.heldPos.isNone⟩
      let c1 := c.setGnss { g with
        epoch := some ep, lastEpoch := some c.jour.tick, usableN := us.length, jniSec := 0, prevRec := if g.epoch.isSome then none else g.prevRec }
      let c2 := (List.finRange 48).foldl (fun c i => c.put (F.GNSS_TRK_STAT_EXCL i.val) 0) (c1.put F.GNSS_JAM_STAT_JNI_MAX g.jniSec)
      ms.foldl (fun c m => (c.put (F.GNSS_TRK_STAT_CN0 m.trk.val) (min 63 m.cn0)).put (F.GNSS_TRK_STAT_MPM m.trk.val) (min 4095 (mpm m / 10))) c2

/-- A whole second that ends without an epoch is a gap in the records (R114). -/
def epochMissed (c : Channel) : Channel :=
  if c.secondsHere ≠ 0 ∧ c.gnss.lastEpoch ≠ some c.jour.tick then c.setGnss { c.gnss with prevRec := none } else c

/-- The UTC parameters in use (R115): those of GPS once a tracked GPS satellite has given them, even if none is tracked any more
(notes/assumptions/99.md). -/
def navUtc (c : Channel) : Option NavUtc :=
  match c.gnss.nav.gps with | some u => some u | none => c.gnss.nav.gal

/-- L8's announcements (R115). -/
def l8Announce (c : Channel) : Channel :=
  match c.navUtc with
  | none => c
  | some u =>
    let ofs := u.leap + 19
    let c1 := c.utcAnnounce 8 (.offset ofs)
    match u.future with
    | some (f, day) =>
      if f = u.leap then c1
      else
        let e := (day + 1) * 86400 + ofs
        c1.utcAnnounce 8 (.leap (if f < u.leap then e - 1 else e) (f + 19))
    | none => c1

/-- The L8 record, 2.500 ms after its epoch, for this tick to register (R106, R108, R113, R114). -/
def l8Record (c : Channel) : Channel :=
  match c.gnss.epoch with
  | none => c
  | some ep =>
    if c.jour.tick < ep.tick + 500000 then c
    else
      let minSv := max 1 (c.fld F.GNSS_TRK_CFG_MIN_SV)
      let (sol, ex) := solve minSv (ep.sats.length + 1) ep.sats []
      let used := match sol with | some s => s.2.2 | none => []
      let w := match sol with | some s => satAdd s.2.1 (110 * ep.notches) | none => SAT
      let c1 := (List.finRange 48).foldl (fun c i =>
        (c.put (F.GNSS_TRK_STAT_USED i.val) (b2n (used.contains i))).put (F.GNSS_TRK_STAT_EXCL i.val) (b2n (ex.contains i))) c
      let c2 := if ex.isEmpty then c1 else c1.evt F.GNSS_EVT_EXCL
      let c3 := (((c2.put F.GNSS_SOL_STAT_USED used.length).put F.GNSS_SOL_STAT_EXCL ex.length).put F.GNSS_SOL_STAT_NOTCH_N ep.notches).put
        F.GNSS_SOL_TEB_W w
      let ctr := match sol with | some s => s.1 | none => 0
      let raw := ((⟨ctr, w⟩ : Iv)).shift (c3.sfld F.GNSS_CDLY_CDLY) (c3.fld F.GNSS_CBUD_CBUD)
      let iv := c3.termCal 8 raw
      let bad := ep.spoilt || decide (iv.h ≥ SAT)
      let ff : Int × Bound :=
        if bad then (0, SAT)
        else match c3.gnss.prevRec with
          | some (ts, o, k, h) =>
            let df := iv.t - (o - sar (ep.k - k) 32)
            -- a step between the epochs is no part of the time over which the reference is compared
            let dt := ep.e - ts - sar (ep.k - k) 32
            (if ep.e - ts = 2 ^ 64 ∨ dt ≤ 0 then df else Int.fdiv (df * 2 ^ 64) dt, satCap ((iv.h + h) * 256))
          | none => (0, SAT)
      let c4 := c3.setGnss { c3.gnss with epoch := none, prevRec := if bad then none else some (ep.e, iv.t, ep.k, iv.h) }
      let r := rawRec 8 ep.e ep.k (if bad then ⟨0, SAT⟩ else raw) ff.1 ff.2 (tagLane 8) false false none
      (c4.measure 0 r).l8Announce

/-! ### Snapshots (R116 to R118) -/

/-- SNAP_CTL.GO (R116). A write with LEN outside 2 to 64 never comes here. -/
def snapGo (c : Channel) : Channel :=
  let st := c.cur F.GNSS_SNAP_STAT_STATE
  if st = SNAP_ARMED ∨ st = SNAP_CAPTURING ∨ st = SNAP_PROCESSING then c.evt F.GNSS_SNAP_STAT_BUSY
  else ((c.setGnss { c.gnss with snap := none }).put F.GNSS_SNAP_STAT_STATE SNAP_ARMED).put F.GNSS_SNAP_STAT_ERASED 0

/-- SNAP_T0. -/
def snapT0 (c : Channel) : Gt := ofWords ((upTo 4).map (fun k => c.word .gnss (GNSS_SNAP_T0 k)))

/-- An armed capture starts at a frame whose comma is registered at `ps` picoseconds into this tick, with LEN and AT as they stand then
(R116, R117, notes/assumptions/99.md). -/
def snapStart (c : Channel) (ps : Nat) : Channel :=
  let t := (c.stampAt ps).1
  if c.cur F.GNSS_SNAP_STAT_STATE = SNAP_ARMED ∧ (c.cur F.GNSS_SNAP_CTL_AT = 0 ∨ c.snapT0 ≤ t) then
    let s : Snap := ⟨c.fld F.GNSS_FE_CFG_RATE, c.cur F.GNSS_SNAP_CTL_LEN, t, c.tebAt t, c.tagNow, c.useWord .gnss GNSS_CDLY,
      c.useWord .gnss GNSS_CBUD, c.useWord .gnss GNSS_FE_IF, 0, c.spoiltNow, none, 0, false, c.linkSt != LINK_UP, false, none, []⟩
    (c.setGnss { c.gnss with snap := some s }).put F.GNSS_SNAP_STAT_STATE SNAP_CAPTURING
  else c

/-- The last frame of a capture is stored (R117). -/
def snapComplete (c : Channel) : Channel :=
  match c.gnss.snap with
  | some s =>
    if c.cur F.GNSS_SNAP_STAT_STATE = SNAP_CAPTURING ∧ s.frames.length ≥ s.len * 100 then
      ((c.setGnss { c.gnss with snap := some { s with complete := true } }).put F.GNSS_SNAP_STAT_STATE SNAP_FULL).evt F.GNSS_EVT_SNAP
    else c
  | none => c

/-- The snapshot buffer's bytes (R117). -/
def snapBytes (ch : Nat) (s : Snap) : Bytes :=
  leBytes 4 0x50414E53 ++ leBytes 1 1 ++ leBytes 1 s.rate ++ leBytes 1 s.len ++ leBytes 1 ch ++ leBytes 16 (unsigned 128 s.t0) ++
  leBytes 4 s.t0teb ++ leBytes 4 s.tag.toNat ++ leBytes 4 s.cdly.toNat ++ leBytes 4 s.cbud.toNat ++ leBytes 4 s.ifreg.toNat ++
  leBytes 4 (s.len * 100 * frameSamples s.rate) ++ leBytes 2 s.erased ++ [s.agc.getD 0#8, BitVec.ofNat 8 s.jniMax] ++
  leBytes 4 (b2n s.complete + b2n s.linkLost * 2 + b2n s.processed * 4 + b2n s.result.isSome * 8) ++ leBytes 8 0 ++
  padTo 64 (s.result.getD []) ++ s.frames.reverse.flatten

/-- Snapshot processing of a command slot (R118): the satellites as measured over the capture, at T0. It waits while a tracking
channel is in SEARCH. -/
def snapProcess (c : Channel) (slot : Nat) (ms : List SatMeas) : Channel :=
  if (List.finRange 48).any (fun i => c.trkSt i == TRK_SEARCH) then c
  else
    -- a capture in progress goes on
    let back (c : Channel) : Channel := if c.cur F.GNSS_SNAP_STAT_STATE = SNAP_PROCESSING then c.put F.GNSS_SNAP_STAT_STATE SNAP_FULL else c
    let fail (c : Channel) : Channel := ((back c).evt F.GNSS_EVT_SNAP).ask (.opEnd slot 0x09 0)
    match c.gnss.snap, c.heldPos with
    | some s, some p =>
      if !s.complete ∨ c.posMode ≠ POS_HOLD then fail c
      else
        let us := c.usable ms p.2.2.2 s.t0
        let n := countIf (fun k => c.notchSt k == NOTCH_LOCKED || c.notchSt k == NOTCH_FIXED) (upTo 4)
        let (sol, _) := solve (max 1 (c.fld F.GNSS_TRK_CFG_MIN_SV)) (us.length + 1) us []
        let iv : Iv := match sol with | some x => ⟨x.1, satAdd x.2.1 (110 * n)⟩ | none => ⟨0, SAT⟩
        let iv1 := c.termCal 8 (iv.shift (signed 32 s.cdly.toNat) s.cbud.toNat)
        let iv2 : Iv := if s.spoilt || decide (iv1.h ≥ SAT) then ⟨0, SAT⟩ else iv1
        let r := rawRec 8 s.t0 0 iv2 0 SAT (tagCal (tagLane 8) c.calset) false false none
        let s' := { s with processed := true, result := some (recBytes r) }
        (((c.setGnss { c.gnss with snap := some s' }).put F.GNSS_SNAP_STAT_STATE SNAP_DONE).evt F.GNSS_EVT_SNAP).ask (.opEnd slot 0 0)
    | _, _ => fail c

/-! ### Commit (R120) -/

/-- The checks of R120 on the shadows. -/
def gnssCommitOk (c : Channel) : Bool :=
  let q := c.cur
  let spc (d d1 d2 : KF) : Bool := decide (1 ≤ q d) && decide (q d < q d1) && decide (q d1 < q d2)
  let o := q F.GNSS_FE_CFG_CLKOUT
  decide (q F.GNSS_FE_CFG_RATE ≠ 3) && decide ((signed 32 (q F.GNSS_FE_IF_IF)).natAbs ≤ 25000000) &&
  q (F.SYN_OUT_CFG_EN o) == 1 && q (F.SYN_SYN_CFG_FOLLOW (q (F.SYN_OUT_CFG_SRC o))) == 0 &&
  spc F.GNSS_SPC_GPS_DMP F.GNSS_SPC_GPS_D1 F.GNSS_SPC_GPS_D2 && spc F.GNSS_SPC_GAL_DMP F.GNSS_SPC_GAL_D1 F.GNSS_SPC_GAL_D2

/-- What a GNSS commit on `old` changes at once: the link, the constellations and the notches (R98, R102, R105); the spacings and DISC
come with the integration boundaries (R103). -/
def gnssCommitted (old c : Channel) : Channel :=
  let spc (x : Channel) : Nat × Nat × Nat := (x.fld F.GNSS_TRK_CFG_DISC, x.fld F.GNSS_SPC_GPS_D2, x.fld F.GNSS_SPC_GAL_D2)
  let o : OldSpc := ⟨c.jour.tick, (spc old).1, (spc old).2.1, (spc old).2.2⟩
  let c0 := if spc old = spc c then c else c.setGnss { c.gnss with oldSpc := some o }
  let c1 := if c0.flag F.GNSS_FE_CFG_EN then c0 else c0.linkTo LINK_DOWN
  let c2 := c1.trkIdle (fun i => !c1.sysOn (c1.trkGal i))
  (List.finRange 4).foldl (fun c k =>
    if !c.flag (F.GNSS_NOTCH_CFG_EN k.val) then c.notchTo k NOTCH_OFF 0
    else if c.flag (F.GNSS_NOTCH_CFG_MODE k.val) then c.notchTo k NOTCH_FIXED (c.fld (F.GNSS_NOTCH_CFG_FREQ k.val))
    else if c.notchSt k.val = NOTCH_LOCKED ∨ c.notchSt k.val = NOTCH_SEARCH then c
    else c.notchTo k NOTCH_SEARCH 0) c2

end Channel
end Sys2Proof.Machine
end

