-- ==== Sys2Proof/Machine/ChanRegs.lean ====
section
/-! DEFINITION. Reads and writes of a channel's registers (R7 to R13, R23, R143): field rules, multi-word values, commits, locks and
the actions of each block's registers. -/
namespace Sys2Proof.Machine

/-- The lowest offset and the number of words of a multi-word value that holds an offset, from rows of base, strides and words (R13). -/
def multiIn (rows : List (Nat × List (Nat × Nat) × Nat)) (off : Nat) : Option (Nat × Nat) :=
  rows.findSome? (fun r => (upTo r.2.2).findSome? (fun k =>
    if r.1 + 4 * k ≤ off && dimsCover r.2.1 (off - 4 * k - r.1) then some (off - 4 * k, r.2.2) else none))

/-- The multi-word values of a channel's blocks. TIME latches TEB and TAG as well (R36). -/
def kbMulti : KB → List (Nat × List (Nat × Nat) × Nat)
  | .ref => []
  | .dpll => [(0x40, [], 2), (0x58, [], 2), (0x100, [], 6), (0x120, [], 2), (0x128, [], 4), (0x150, [], 4), (0x200, [], 4), (0x304, [], 2),
      (0x404, [], 2), (0xF0100, [(16, 8)], 2)]
  | .syn => [(0x410, [], 4)]
  | .gnss => [(0x60, [(8, 3)], 2), (0x204, [], 4)]
  | .port => []
  | .sched => [(0x14, [], 2), (0x1C, [], 2), (0x10C, [(128, 2)], 4), (0x124, [(128, 2)], 4), (0x134, [(128, 2)], 4), (0x148, [(128, 2)], 2),
      (0x1004, [(2048, 2), (32, 64)], 2), (0x4000, [(8192, 2), (4096, 2), (16, 256)], 2)]
  | .sealb => [(0x10, [], 2), (0x10C, [(64, 2)], 2), (0x11C, [(64, 2)], 4)]
  | .pmu => [(0x104, [(16, 16)], 2), (0x204, [], 2), (0x210, [(8, 5)], 2), (0x240, [], 2), (0x310, [(64, 2)], 2), (0x318, [(64, 2)], 2),
      (0x328, [(64, 2)], 2), (0x330, [(64, 2)], 2)]
  | .chctl => [(0x158, [(64, 2)], 2)]

/-- The part of the topology that a register belongs to, by its bit in PARTS (R310); none for a register that always exists. -/
def partOf (b : KB) (off : Nat) : Option Nat :=
  let step (base st n : Nat) : Option Nat := if base ≤ off && off < base + st * n then some ((off - base) / st) else none
  match b with
  | .gnss => some 0
  | .syn => (step 0x10 0x20 2).map (1 + ·)
  | .port => (step 0x100 0x100 2).map (3 + ·)
  | .sched =>
    match step 0x100 0x80 2, step 0x1000 0x800 2, step 0x4000 0x2000 2 with
    | some p, _, _ => some (3 + p)
    | _, some p, _ => some (3 + p)
    | _, _, some p => some (3 + p)
    | _, _, _ => none
  | .sealb => match step 0x100 0x40 2 with | some p => some (3 + p) | none => some 7
  | .chctl => (step 0x140 0x40 2).map (5 + ·)
  | _ => none

/-- Whether the image's topology has the part. -/
def Topo.has (t : Topo) (k : Nat) : Bool := t.parts / 2 ^ k % 2 == 1

/-- Who writes a register: a host path or the loader, whose writes R12 does not hold back. -/
structure Writer where
  org : Origin
  loader : Bool
  deriving DecidableEq, Repr

/-! ### Field rules (R8 to R11) -/

/-- The bits of a field that a clear takes away: those written with 1 that hardware has not set in this tick. -/
def w1cLeft (w old x hset : Nat) : Nat := (upTo w).foldl (fun a i =>
  if old / 2 ^ i % 2 = 1 ∧ (x / 2 ^ i % 2 = 0 ∨ hset / 2 ^ i % 2 = 1) then a + 2 ^ i else a) 0

/-- A field of a word as a write of `v` leaves it. -/
def Fld.write (locked : Bool) (v hset w : Word) (f : Fld) : Word :=
  let x := getField v f.lsb f.w
  let o := getField w f.lsb f.w
  match f.acc with
  | .rw | .rws => if f.ok.admits f.w x then putField w f.lsb f.w x else w
  | .rwl => if locked || !f.ok.admits f.w x then w else putField w f.lsb f.w x
  | .w1c => putField w f.lsb f.w (w1cLeft f.w o x (getField hset f.lsb f.w))
  | .w1s => putField w f.lsb f.w (o ||| x)
  | .ro | .wo => w

/-- The word that a write leaves in a register. -/
def RegSpec.write (g : RegSpec) (locked : Bool) (v hset old : Word) : Word := g.fields.foldl (fun w f => f.write locked v hset w) old

/-- Whether a write reaches an RW, RWS or RWL field that is not ignored, or sets a W1S bit (R23). -/
def RegSpec.acts (g : RegSpec) (locked : Bool) (v : Word) : Bool := g.fields.any (fun f =>
  let x := getField v f.lsb f.w
  match f.acc with
  | .rw | .rws => f.ok.admits f.w x
  | .rwl => !locked && f.ok.admits f.w x
  | .w1s => x != 0
  | _ => false)

/-- Whether a register has a field that software can write. -/
def RegSpec.writable (g : RegSpec) : Bool := g.fields.any (fun f => f.acc != .ro)

/-- A word that a commit would bring into use, with its RWL fields as they are in use: what a commit copies of a register after a lock
has frozen its shadows and its values in use (R8, R12). -/
def keepLocked (gs : List RegSpec) (off : Nat) (use w : Word) : Word :=
  match findReg gs off with
  | none => w
  | some g => g.fields.foldl (fun w f => if f.acc = .rwl then putField w f.lsb f.w (getField use f.lsb f.w) else w) w

/-- The shadows that a commit copies after a lock: of every register, its RWL fields as they are in use. -/
def frozenShadows (gs : List RegSpec) (rst : Nat → Word) (use sh : List (Nat × Word)) : List (Nat × Word) :=
  (((use ++ sh).map Prod.fst).dedup).foldl (fun l k => smPut (rst k) l k (keepLocked gs k (smGet (rst k) use k) (smGet (rst k) sh k))) sh

/-- The offset of the register with a block's LOCK bit. -/
def lockOff : KB → Option Nat
  | .ref => some REF_CTL | .dpll => some DPLL_CTL | .syn => some SYN_CTL | .gnss => some GNSS_CTL | .port => some PORT_CTL
  | .sched => some SCHED_CTL | .sealb => some SEAL_CTL | .pmu => none | .chctl => some CHCTL_B_CTL

namespace Channel

/-- Whether the part of a register exists in the running image (R310). -/
def hasPart (c : Channel) (b : KB) (off : Nat) : Bool := match partOf b off with | some k => c.topo.has k | none => true

/-- Whether the block's RWL fields are locked (R8). -/
def locked (c : Channel) (b : KB) : Bool := match lockOff b with | some o => bit (c.word b o) 29 | none => false

/-! ### Reads -/

/-- LANE_STATn (R93). -/
def laneStatWord (c : Channel) (n : LaneIx) : Word :=
  let l := c.lane n
  let secs := match l.timer with | some t => max 1 (ceilDiv (t - c.jour.tick) 200000000) | none => 0
  BitVec.ofNat 32 (b2n l.exist * 2 ^ 31 + laneCode l.st * 2 ^ 28 + b2n l.los * 2 ^ 27 + b2n l.returning * 2 ^ 26 +
    b2n (outlier l) * 2 ^ 25 + b2n (c.ref.selA.cur == some n) * 2 ^ 24 + b2n (c.ref.selB.cur == some n) * 2 ^ 23 +
    getField (c.word .ref (REF_LANE_STAT n.val)) 18 5 * 2 ^ 18 + secs % 65536)

def dpllView (c : Channel) (off : Nat) : Option Word :=
  let nat (n : Nat) : Option Word := some (BitVec.ofNat 32 n)
  let d := c.dpll
  if off = DPLL_STAT then some c.dpllStat
  else if 0x100 ≤ off ∧ off < 0x110 then some (wordOf c.now ((off - 0x100) / 4))
  else if off = DPLL_TEB then nat c.teb
  else if off = DPLL_TAG then some c.tagNow
  else if off = 0x120 ∨ off = 0x124 then some (wordOf d.rate ((off - 0x120) / 4))
  else if 0x128 ≤ off ∧ off < 0x138 then some (wordOf d.pend ((off - 0x128) / 4))
  else if off = DPLL_TEB0 then nat d.teb0
  else if off = DPLL_FB then nat c.fbNow
  else if off = DPLL_LFB then nat d.lfb
  else if 0x150 ≤ off ∧ off < 0x160 then some (wordOf d.t0 ((off - 0x150) / 4))
  else if off = DPLL_HO_T then nat (if d.hoAct then min 0xFFFFFFFF (c.hoSecs c.now) else 0)
  else if off = 0x304 ∨ off = 0x308 then some (wordOf c.rateBNow ((off - 0x304) / 4))
  else if off = DPLL_FB_B then nat c.fbBNow
  else if off = DPLL_J_WPTR then nat c.jour.wptr
  else if off = 0x404 ∨ off = 0x408 then some (wordOf c.jour.jseq ((off - 0x404) / 4))
  else if off = DPLL_J_STAT then nat c.jour.wraps
  else if off = DPLL_UTC_NOW then some c.utcNow
  else if 0xF0100 ≤ off ∧ off < 0xF0180 then
    let e := c.scale.leap[Fin.ofNat 8 ((off - 0xF0100) / 16)]
    match (off - 0xF0100) % 16 with
    | 0 => some (wordOf e.eff 0)
    | 4 => some (wordOf e.eff 1)
    | 8 => some (leapWord e)
    | _ => none
  else none

def synView (c : Channel) (off : Nat) : Option Word :=
  if 0x100 ≤ off ∧ off < 0x180 ∧ off % 16 = 12 then some (BitVec.ofNat 32 (c.outRun (Fin.ofNat 8 ((off - 0x100) / 16)) * 2 ^ 29))
  else if off = SYN_PLS_STAT 0 ∨ off = SYN_PLS_STAT 1 then
    some (putField (c.word .syn off) 29 3 (c.plsRun (if off = SYN_PLS_STAT 0 then 0 else 1)))
  else if 0x410 ≤ off ∧ off < 0x420 then some (wordOf c.pdev ((off - 0x410) / 4))
  else if 0x500 ≤ off ∧ off < 0x520 then some (BitVec.ofNat 32 (c.outTeb (Fin.ofNat 8 ((off - 0x500) / 4))))
  else if 0x520 ≤ off ∧ off < 0x528 then some (BitVec.ofNat 32 (c.plsTeb (Fin.ofNat 2 ((off - 0x520) / 4))))
  else none

/-- The positions of HOLD as read (R121). -/
def gnssView (c : Channel) (off : Nat) : Option Word :=
  if 0x60 ≤ off ∧ off ≤ 0x78 then
    match (if c.posMode = POS_HOLD then c.gnss.pos else none) with
    | some p =>
      let k := (off - 0x60) / 4
      if k = 6 then some (BitVec.ofNat 32 p.2.2.2)
      else some (wordOf (match k / 2 with | 0 => p.1 | 1 => p.2.1 | _ => p.2.2.1) (k % 2))
    | none => none
  else none

def schedView (c : Channel) (off : Nat) : Option Word :=
  if 0x1000 ≤ off ∧ off < 0x2000 then
    let p : PortIx := Fin.ofNat 2 ((off - 0x1000) / 0x800)
    let q := (off - 0x1000) % 0x800 / 0x20
    if off % 0x20 = 0x10 then some (c.qStat p q) else if off % 0x20 = 0x14 then some (c.qLevel p q) else none
  else if off = SCHED_P_GSTAT 0 then some (c.gStat 0)
  else if off = SCHED_P_GSTAT 1 then some (c.gStat 1)
  else none

/-- What a register shows of the block's state, where it is no stored word. -/
def view (c : Channel) (b : KB) (off : Nat) : Option Word :=
  match b with
  | .ref =>
    if off = REF_SEL_STAT then some c.selStat
    else if 0x1000 ≤ off ∧ off < 0x1400 then
      let n : LaneIx := Fin.ofNat 16 ((off - 0x1000) / 0x40)
      if (off - 0x1000) % 0x40 = 0x28 then some (c.laneStatWord n)
      else if (off - 0x1000) % 0x40 = 0x30 then some (BitVec.ofNat 32 (c.lane n).stepW) else none
    else none
  | .dpll => c.dpllView off
  | .syn => c.synView off
  | .gnss => c.gnssView off
  | .port =>
    if off = PORT_P_RXLAT 0 then some (BitVec.ofInt 32 (c.rxLat 0)) else if off = PORT_P_RXLAT 1 then some (BitVec.ofInt 32 (c.rxLat 1))
    else if off = PORT_P_TXLAT 0 then some (BitVec.ofInt 32 (c.txLat 0)) else if off = PORT_P_TXLAT 1 then some (BitVec.ofInt 32 (c.txLat 1))
    else none
  | .sched => c.schedView off
  | .sealb => if off = SEAL_CT_STAT then some (BitVec.ofNat 32 c.sealb.clients.length) else none
  | .pmu =>
    if off = PMU_CYC_LO then some (BitVec.ofNat 32 c.pmu.cyc)
    else if off = PMU_CYC_HI then some (BitVec.ofNat 32 (c.pmu.cyc / 2 ^ 32 % 65536)) else none
  | .chctl => if off = CHCTL_ID then some (BitVec.ofNat 32 c.ix.val) else none

/-- The word that a register holds or shows now. -/
def show' (c : Channel) (b : KB) (off : Nat) : Word := match c.view b off with | some w => w | none => c.word b off

/-- A read of a register of the block (R13, R310): the lowest word of a multi-word value latches the others. -/
def readReg (c : Channel) (b : KB) (off : Nat) : Word × Channel :=
  if !c.hasPart b off then (0#32, c)
  else match multiIn (kbMulti b) off with
    | none => (c.show' b off, c)
    | some (base, n) =>
      let f := c.rf b
      if off = base then
        let l := (upTo n).foldl (fun l k => smPut (kbRst b (base + 4 * k)) l (base + 4 * k) (c.show' b (base + 4 * k))) f.latch
        (c.show' b off, c.setRf b { f with latch := l })
      else (smGet (kbRst b off) f.latch off, c)

/-! ### Commits (R12) -/

/-- Whether the block was locked before the writes of this tick: the lock of the write that commits freezes after the commit (R12). -/
def wasLocked (c : Channel) (b : KB) : Bool :=
  match lockOff b with | some o => bit (smGet (kbRst b o) ((c.rf b).before (kbRst b)) o) 29 | none => false

/-- The shadows that a commit copies: as they stood before the other writes of this tick; a locked block's RWL fields stay as they are in
use. -/
def shadows (c : Channel) (b : KB) (ctl : Nat) : List (Nat × Word) :=
  let sh := smPut (kbRst b ctl) ((c.rf b).before (kbRst b)) ctl (c.word b ctl)
  if c.wasLocked b then frozenShadows (kbRegs b) (kbRst b) (c.rf b).use sh else sh

/-- The block with those shadows as its stored words: what the commit checks look at. -/
def trial (c : Channel) (b : KB) (sh : List (Nat × Word)) : Channel := c.setRf b { c.rf b with cur := sh, pre := [] }

/-- A commit that copies at once: the shadows come into use, or CERR is set. -/
def commitNow (c : Channel) (b : KB) (ctl : Nat) (ok : Channel → Bool) (after : Channel → Channel) : Channel :=
  let sh := c.shadows b ctl
  if ok (c.trial b sh) then after (c.setRf b { c.rf b with use := sh }) else c.evtMask b ctl (2 ^ 30)

/-- A commit whose values are in use from the next tick (R232, R251). -/
def commitNext (c : Channel) (b : KB) (ctl : Nat) (ok : Channel → Bool) (after : Channel → Channel) : Channel :=
  let sh := c.shadows b ctl
  if ok (c.trial b sh) then
    let f := c.rf b
    let keys := ((f.use ++ sh).map Prod.fst).dedup
    after (c.setRf b { f with next := keys.map (fun k => (k, smGet (kbRst b k) sh k)) })
  else c.evtMask b ctl (2 ^ 30)

/-- A commit of PORT (R182): the calibration constants of each port come with the next tick, everything else at once. -/
def commitPort (c : Channel) : Channel :=
  let sh := c.shadows .port PORT_CTL
  if !portCommitOk (c.trial .port sh) then c.evt F.PORT_CTL_CERR
  else
    let f := c.rf .port
    let late := [0, 1].flatMap (fun p => [PORT_P_ING_CAL p, PORT_P_EGR_CAL p, PORT_P_ING_BUD p, PORT_P_EGR_BUD p])
    let val (k : Nat) : Word := smGet (kbRst .port k) sh k
    let use := late.foldl (fun u k => smPut (kbRst .port k) u k (smGet (kbRst .port k) f.use k)) sh
    let c1 := c.setRf .port { f with use := use, next := late.map (fun k => (k, val k)) }
    portCommitted c 1 (portCommitted c 0 c1)

/-- SYN_COMMIT (R156): the shadows are staged for their boundaries. -/
def commitSyn (c : Channel) : Channel :=
  let f := c.rf .syn
  let c1 := (c.trial .syn (c.shadows .syn SYN_CTL)).synCommit
  let g := c1.rf .syn
  -- the shadows stay as written; what the commit set in CTL stays
  c1.setRf .syn { g with cur := smPut (kbRst .syn SYN_CTL) f.cur SYN_CTL (c1.word .syn SYN_CTL), pre := f.pre }

/-- What COMMIT = 1 in the block's control register does. -/
def commit (c : Channel) (b : KB) : Channel :=
  match b with
  | .ref => c.commitNow .ref REF_CTL refCommitOk dropDisabled
  | .dpll => c.commitNow .dpll DPLL_CTL dpllCommitOk id
  | .syn => c.commitSyn
  | .gnss => c.commitNow .gnss GNSS_CTL gnssCommitOk (gnssCommitted c)
  | .port => c.commitPort
  | .sched => c.commitNext .sched SCHED_CTL schedCommitOk settleAll
  | .sealb => c.commitNext .sealb SEAL_CTL sealCommitOk id
  | .pmu => c
  | .chctl => c.commitNow .chctl CHCTL_B_CTL benchCommitOk benchCommitted

/-! ### Actions -/

/-- The lane of a REF register of a lane group. -/
def laneOfOff (off : Nat) : LaneIx := Fin.ofNat 16 ((off - 0x1000) / 0x40)

/-- LANE_CMDn (R80, R83): FORCE, UNFORCE, REQUAL, CLR_STEP in this order; FORCE with UNFORCE is ignored. -/
def laneCmd (c : Channel) (n : LaneIx) (v : Word) : Bool × Channel :=
  if bit v 0 && bit v 1 then (false, c)
  else
    let a0 := bit v 0 && (c.lane n).exist && c.laneEnabled n
    let c1 := if a0 then c.force c.syncIv n else c
    let a1 := bit v 1 && (c1.lane n).st == .forced
    let c2 := if a1 then c1.unforce n else c1
    let a2 := bit v 2 && liveSt (c2.lane n).st
    let c3 := if a2 then c2.requal n else c2
    let a3 := bit v 3
    let c4 := if a3 then c3.updLane n (fun l => { l with stepW := 0 }) else c3
    (a0 || a1 || a2 || a3, c4)

/-- SEL_CMD (R90): APPROVE or DENY of a pending switch; both together are ignored. -/
def selCmd (c : Channel) (v : Word) : Bool × Channel :=
  let one (s : Servo) (ap dn : Bool) (c : Channel) : Bool × Channel :=
    if !(c.sel s).pend || ap == dn then (false, c) else (true, if ap then c.approveSwitch s else c.denySwitch s)
  let r := one .a (bit v 31) (bit v 30) c
  let t := one .b (bit v 29) (bit v 28) r.2
  (r.1 || t.1, t.2)

/-- STEP_CMD (R140): ABORT before GO. -/
def stepCmd (c : Channel) (org : Origin) (v : Word) : Bool × Channel :=
  let ab := bit v 28 && c.dpll.stepWait.isSome
  let c1 := if bit v 28 then c.stepAbort else c
  let go := bit v 31 && c1.dpll.stepWait.isNone
  (ab || go, if bit v 31 then c1.stepGo org else c1)

/-- What a write of `v` to a register does beside its fields, and whether it acts (R23). -/
def action (c : Channel) (wr : Writer) (b : KB) (off : Nat) (v : Word) : Bool × Channel :=
  let commitAct (c : Channel) : Bool × Channel := if bit v 31 then (true, c.commit b) else (false, c)
  match b with
  | .ref =>
    if off = REF_CTL then commitAct c
    else if off = REF_SEL_CMD then c.selCmd v
    else if 0x1000 ≤ off ∧ off < 0x1400 ∧ (off - 0x1000) % 0x40 = 0x2C then c.laneCmd (laneOfOff off) v
    else (false, c)
  | .dpll =>
    if off = DPLL_CTL then commitAct c
    else if off = DPLL_STEP_CMD then c.stepCmd wr.org v
    else if 0xF0100 ≤ off ∧ off < 0xF0180 then
      let k : Fin 8 := Fin.ofNat 8 ((off - 0xF0100) / 16)
      match (off - 0xF0100) % 16 with
      | 0 => (true, c.leapLoWrite k v)
      | 4 => (true, c.leapHiWrite k v)
      | _ => (true, c.leapEntWrite k v)
    else (false, c)
  | .syn =>
    if off = SYN_CTL then commitAct c
    else if off = SYN_RA_CTL then
      let sl := c.cur F.SYN_RA_SLEW_RA_SLEW
      if bit v 31 then (decide (c.cur F.SYN_RA_CTL_ACT ≠ 1 ∧ 1 ≤ sl ∧ sl ≤ 1000000), c.raGo) else (false, c)
    else (false, c)
  | .gnss =>
    if off = GNSS_CTL then commitAct c
    else if off = GNSS_BC_CMD then (false, if bit v 31 then c.bcGo else c)
    else if off = GNSS_POS_CTL then
      if bit v 31 == bit v 30 then (false, c) else (true, if bit v 31 then c.posSet else c.posClr)
    else if off = GNSS_JAM_STAT then (bit v 0, if bit v 0 then c.floorCapture else c)
    else if off = GNSS_SNAP_CTL then (false, if bit v 31 then c.snapGo else c)
    else (false, c)
  | .port =>
    if off = PORT_CTL then commitAct c
    else
      -- a write of a lane's asymmetry clears its STEPW (R83)
      let clr (n : LaneIx) : Channel := c.updLane n (fun l => { l with stepW := 0 })
      if off = PORT_P_ASYM 0 ∨ off = PORT_P_ASYM_BUD 0 then (false, clr 9)
      else if off = PORT_P_ASYM 1 ∨ off = PORT_P_ASYM_BUD 1 then (false, clr 10) else (false, c)
  | .sched =>
    if off = SCHED_CTL then commitAct c
    else if off = SCHED_POL_CMD then (if bit v 31 then c.polCmd else (false, c))
    else if off = SCHED_P_GCMD 0 ∨ off = SCHED_P_GCMD 1 then
      let p : PortIx := if off = SCHED_P_GCMD 0 then 0 else 1
      let r := if bit v 30 then c.gateCancel p else (false, c)
      let t := if bit v 31 then r.2.gateSwap p else (false, r.2)
      (r.1 || t.1, t.2)
    else (false, c)
  | .sealb =>
    if off = SEAL_CTL then commitAct c
    else if off = SEAL_CT_CMD then
      (bit v 31 && (c.sealb.clients.any (fun e => e.1 == c.cur F.SEAL_CT_CMD_INDEX)), if bit v 31 then c.revoke else c)
    else (false, c)
  | .pmu =>
    if off = PMU_TD_CTL then (false, if bit v 31 then c.tdSnap else c)
    else if off = PMU_BW_CFG then (false, if getField v 0 20 = 0 ∨ getField v 0 20 > 1000000 then c else c.bwRestart)
    else if off = PMU_P_PK_CLR 0 then (false, if bit v 31 then c.pkClr 0 else c)
    else if off = PMU_P_PK_CLR 1 then (false, if bit v 31 then c.pkClr 1 else c)
    else (false, c)
  | .chctl =>
    if off = CHCTL_B_CTL then commitAct c
    else
      let clr (n : LaneIx) : Channel := c.updLane n (fun l => { l with stepW := 0 })
      if off = CHCTL_B_LASYM 0 ∨ off = CHCTL_B_LBUD 0 then (false, clr 13)
      else if off = CHCTL_B_LASYM 1 ∨ off = CHCTL_B_LBUD 1 then (false, clr 14) else (false, c)

/-! ### Writes -/

/-- Whether the register's own rule ignores a write of `v`: a gate list bank that operates or whose switch is pending (R243, R247), a
SNAP_CTL write with LEN outside 2 to 64 (R116). -/
def ignores (c : Channel) (b : KB) (off : Nat) (v : Word) : Bool :=
  if b = .sched ∧ 0x4000 ≤ off ∧ off < 0x8000 then
    let p : PortIx := Fin.ofNat 2 ((off - 0x4000) / 0x2000)
    let bank := (off - 0x4000) % 0x2000 / 0x1000
    bank == c.opBank p || c.cur (F.SCHED_P_GCMD_PEND p.val) == 1
  else if b = .gnss ∧ off = GNSS_SNAP_CTL then decide (getField v 0 7 < 2) || decide (64 < getField v 0 7)
  else false

/-- One word stored under the field rules; R12's memory of the word before it is kept for a write that is not the loader's. -/
def storeWord (c : Channel) (wr : Writer) (b : KB) (off : Nat) (v : Word) : Channel :=
  match findReg (kbRegs b) off with
  | none => c
  | some g =>
    let f := c.rf b
    let old := c.word b off
    let new := g.write (c.locked b) v (smGet 0#32 f.hset off) old
    let pre := if wr.loader || f.pre.any (fun e => e.1 == off) then f.pre else (off, old) :: f.pre
    let next := if b = .dpll ∧ 0xF0000 ≤ off then smIns f.next off new else f.next
    c.setRf b { f with cur := smPut (kbRst b off) f.cur off new, pre := pre, next := next }

/-- A write of a register of the block: fields, multi-word values, the journal, the action (R8 to R13, R143). The answer says whether
the write is a change under R23. -/
def writeReg (c : Channel) (wr : Writer) (b : KB) (off : Nat) (v : Word) : Bool × Channel :=
  match findReg (kbRegs b) off with
  | none => (false, c)
  | some g =>
    if !c.hasPart b off || c.ignores b off v || !g.writable then (false, c)
    else
      let leap : Bool := decide (b = .dpll ∧ 0xF0100 ≤ off ∧ off < 0xF0180)
      let acts := g.acts (c.locked b) v
      let stored (c : Channel) : Channel :=
        if leap then c
        else match multiIn (kbMulti b) off with
          | none => c.storeWord wr b off v
          | some (base, n) =>
            let f := c.rf b
            if off = base + 4 * (n - 1) then
              let c1 := (upTo (n - 1)).foldl (fun c k =>
                match f.held.find? (fun e => e.1 == base + 4 * k) with
                | some e => c.storeWord wr b e.1 e.2
                | none => c) c
              let c2 := c1.storeWord wr b off v
              c2.setRf b { c2.rf b with held := f.held.filter (fun e => e.1 < base || base + 4 * n ≤ e.1) }
            else if acts then c.setRf b { f with held := smIns f.held off v } else c
      let c1 := stored c
      -- a write that counts is journaled ahead of what it does (R143)
      let pred := acts || (c1.action wr b off v).1
      let c2 := if pred && (b == .ref || b == .dpll) && !wr.loader then c1.journal (.cmd (winReg c.ix b off) v wr.org.code none) else c1
      (pred, (c2.action wr b off v).2)

/-- A host's write of a register: the change is offered to the cellar book (R23, R395), except for registers that carry data,
pointers, views or tests. -/
def bookExempt (b : KB) (off : Nat) : Bool :=
  match b with
  | .port => off == PORT_P_TSR_RPTR 0 || off == PORT_P_TSR_RPTR 1
  | .gnss => off == GNSS_BC_CMD || off == GNSS_BC_DATA || off == GNSS_SNAP_CTL || (decide (0x204 ≤ off) && decide (off < 0x214))
  | .pmu => true
  | _ => false

def hostWrite (c : Channel) (org : Origin) (b : KB) (off : Nat) (v : Word) : Channel :=
  let old := c.show' b off
  let r := c.writeReg ⟨org, false⟩ b off v
  if r.1 && !bookExempt b off then r.2.ask (.book ⟨org, 0x01, winReg c.ix b off, old, r.2.show' b off⟩) else r.2

end Channel
end Sys2Proof.Machine
end

