-- ==== Sys2Proof/Machine/ImageOps.lean ====
section
/-! DEFINITION. Speust images: header, directory and records (R307 to R318), and the checks of R319. -/
namespace Sys2Proof.Machine

/-! Codes of IMAGE.STAT.ERR (R319). -/
def IE_FORMAT : Nat := 0x01
def IE_SIGNATURE : Nat := 0x02
def IE_DEVID : Nat := 0x03
def IE_SVN : Nat := 0x04
def IE_TARGET : Nat := 0x05
def IE_FW_SIG : Nat := 0x06
def IE_RECORD : Nat := 0x07
def IE_PART_ABSENT : Nat := 0x08
def IE_TOPOLOGY : Nat := 0x09
def IE_COMMIT : Nat := 0x0A
def IE_GATED : Nat := 0x0B
def IE_OWNER : Nat := 0x0C
def IE_TOO_LARGE : Nat := 0x0D
def IE_SAFE : Nat := 0x0E

/-- The largest image (R307). -/
def IMG_MAX : Nat := 16777216

/-- An image's fields and sections. -/
structure Img where
  bytes : Bytes
  deriving DecidableEq, Repr

namespace Img

def magic (i : Img) : Nat := leAt i.bytes 0 4
def ver (i : Img) : Nat := leAt i.bytes 4 1
def target (i : Img) : Nat := leAt i.bytes 5 1
def nsec (i : Img) : Nat := leAt i.bytes 6 2
def len (i : Img) : Nat := leAt i.bytes 8 4
def svn (i : Img) : Nat := leAt i.bytes 12 4
def devid (i : Img) : Nat := leAt i.bytes 24 8
def flags (i : Img) : Nat := leAt i.bytes 32 4
def raiseFloor (i : Img) : Bool := i.flags % 2 == 1
def carryOk (i : Img) : Bool := i.flags / 2 % 2 == 1
def chmask (i : Img) : Nat := leAt i.bytes 36 1

/-- The directory: TYPE, OFS and SLEN of each section, and its word of zeros. -/
def dir (i : Img) : List (Nat × Nat × Nat × Nat) := (upTo i.nsec).map (fun k =>
  (leAt i.bytes (64 + 12 * k) 2, leAt i.bytes (64 + 12 * k + 4) 4, leAt i.bytes (64 + 12 * k + 8) 4, leAt i.bytes (64 + 12 * k + 2) 2))

/-- The bytes of the section of a type; none where the image has none. -/
def sec (i : Img) (ty : Nat) : Option Bytes := (i.dir.find? (fun d => d.1 == ty)).map (fun d => slice i.bytes d.2.1 d.2.2.1)

/-- The records of `n` bytes of a section. -/
def recs (i : Img) (ty n : Nat) : List Bytes := match i.sec ty with | some b => blocksOf n b | none => []

/-- The measurement and the signature block (R318). -/
def meas (i : Img) : Bytes := sha384 (i.bytes.take (i.len - 104))
def sigBlk (i : Img) : Bytes := slice i.bytes (i.len - 104) 104
def keyId (i : Img) : Nat := fromLe (slice i.sigBlk 4 4)

/-- The topology record (R310). -/
def topoRec (i : Img) : Bytes := (i.sec 0x0001).getD []
def lanes (i : Img) : Nat := leAt i.topoRec 0 2
def parts (i : Img) : Nat := leAt i.topoRec 2 2

/-- The register sections of a channel image with their blocks, in ascending TYPE (R309). -/
def regSecs : List (Nat × KB) :=
  [(0x10, .ref), (0x11, .dpll), (0x12, .syn), (0x13, .gnss), (0x14, .port), (0x15, .sealb), (0x16, .sched), (0x17, .chctl)]

/-- The size of a section's records, 1 where it varies; 0 for a type that the image may not hold (R309). -/
def recSize (common : Bool) (ty : Nat) : Nat :=
  if common then (if ty = 0x18 then 8 else if ty = 0x30 then 16 else 0)
  else match ty with
    | 0x01 => 16 | 0x10 | 0x11 | 0x12 | 0x13 | 0x14 | 0x15 | 0x16 | 0x17 => 8
    | 0x20 => 40 | 0x21 => 32 | 0x22 => 48 | 0x23 => 1 | 0x30 => 16 | 0x40 => 1 | _ => 0

/-- The lists of a GATES section: head and entries; none where the section does not hold whole lists (R315). -/
def gateLists : Nat → Bytes → Option (List (Bytes × List Bytes))
  | 0, _ => none
  | n + 1, b =>
    if b.isEmpty then some []
    else
      let len := leAt b 2 2
      if b.length < 32 + 16 * len then none
      else (gateLists n (b.drop (32 + 16 * len))).map (fun r => (b.take 32, blocksOf 16 (slice b 32 (16 * len))) :: r)
def gates (i : Img) : Option (List (Bytes × List Bytes)) := match i.sec 0x23 with | some b => gateLists (b.length + 1) b | none => some []

def zeros (b : Bytes) : Bool := b.all (· == 0#8)

/-- Check 2: R307 and R308. -/
def formatOk (i : Img) : Bool :=
  let common := i.target == 0
  let d := i.dir
  let dirEnd := 64 + 12 * i.nsec
  let secOk (d : Nat × Nat × Nat × Nat) : Bool :=
    let sz := recSize common d.1
    d.2.2.2 == 0 && d.2.1 % 8 == 0 && decide (d.2.1 + d.2.2.1 + 104 ≤ i.len) && sz != 0 && d.2.2.1 % sz == 0
  -- the gap between the end of one part and the next is filled with zeros
  let chain := d.foldl (fun (a : Bool × Nat × Nat) s =>
    (a.1 && decide (a.2.2 < s.1 + 1) && decide (a.2.1 ≤ s.2.1) && zeros (slice i.bytes a.2.1 (s.2.1 - a.2.1)), s.2.1 + s.2.2.1, s.1 + 1)) (true, dirEnd, 0)
  i.magic == 0x54535053 && i.ver == 1 && decide (i.target ≤ 1) && decide (1 ≤ i.nsec) && decide (i.nsec ≤ 32) && i.len % 8 == 0 &&
    decide (dirEnd + 104 ≤ i.len) && decide (i.flags < 4) && decide (i.chmask < 16) && (!common || i.chmask == 0) && zeros (slice i.bytes 37 27) &&
    d.all secOk && chain.1 && zeros (slice i.bytes chain.2.1 (i.len - 104 - chain.2.1)) &&
    (if common then (i.sec 0x18).isSome else decide ((i.sec 0x01).map List.length = some 16)) && i.gates.isSome &&
    (match i.sec 0x40 with
      | some f => decide (136 ≤ f.length) && leAt f 8 4 % 8 == 0 && f.length == 136 + leAt f 8 4
      | none => true)

/-- Check 8: FWMAGIC and VSIG under the fused firmware key (R317). -/
def fwOk (i : Img) (fwPub : Bytes) : Bool :=
  match i.sec 0x40 with
  | none => true
  | some f => leAt f 0 4 == 0x57465853 && sigOk fwPub (sha384 (f.take (f.length - 104))) (f.drop (f.length - 104))
def fwVer (i : Img) : Nat := match i.sec 0x40 with | some f => leAt f 4 4 | none => 0

/-- R310: the dependencies of the topology record. -/
def topoOk (i : Img) : Bool :=
  let l (n : Nat) : Bool := i.lanes / 2 ^ n % 2 == 1
  let p (n : Nat) : Bool := i.parts / 2 ^ n % 2 == 1
  decide (i.parts < 256) && zeros (slice i.topoRec 4 12) &&
    (!l 8 || p 0) && (!(l 9 || l 11) || p 3) && (!(l 10 || l 12) || p 4) && (!l 13 || p 5) && (!l 14 || p 6) &&
    (p 7 == (p 3 || p 4)) && (!p 7 || (i.sec 0x40).isSome)

/-- The bits of a register that an image may set: its RW, RWS and RWL fields (R311). -/
def cfgMask (g : RegSpec) : Word := g.fields.foldl (fun m f =>
  match f.acc with | .rw | .rws | .rwl => putField m f.lsb f.w (2 ^ f.w - 1) | _ => m) 0#32

/-- A register record against its block: 0, RECORD or PART_ABSENT (R311). -/
def regRecErr (i : Img) (b : KB) (r : Bytes) : Nat :=
  let off := leAt r 0 4
  let inBlock : Bool := match b with
    | .sched => decide (off < 0x4000)
    | .chctl => decide (0x100 ≤ off) && decide (off < 0x1C0)
    | _ => decide (off < 0x100000)
  match findReg (kbRegs b) off with
  | some g =>
    let m := cfgMask g
    if off % 4 ≠ 0 ∨ ¬ inBlock ∨ m = 0#32 ∨ leWordAt r 1 &&& ~~~m ≠ 0#32 then IE_RECORD
    else match partOf b off with
      | some k => if i.parts / 2 ^ k % 2 = 1 then 0 else IE_PART_ABSENT
      | none => 0
  | none => IE_RECORD

/-- A COMMON record (R311). SRC_CFG0 has no field that can be written (R369). -/
def comRecErr (r : Bytes) : Nat :=
  let off := leAt r 0 4
  let m := if off = 0x21000 then 0#32
    else if off / 0x10000 = 10 ∨ off / 0x10000 = 1 then 0#32
    else match ([CB.hostif, .fault, .vault, .book, .tally, .twin, .bench, .clkgen, .pwr].find? (fun b => gbNum b == off / 0x10000)) with
      | some b => (match findReg (gbRegs b) (off % 0x10000) with | some g => cfgMask g | none => 0#32)
      | none => 0#32
  if off % 4 ≠ 0 ∨ m = 0#32 ∨ leWordAt r 1 &&& ~~~m ≠ 0#32 then IE_RECORD else 0

/-- A policer record with the ranges before it (R312, R236). -/
def polRecErr (seen : List (Nat × Nat)) (r : Bytes) : Nat :=
  let f := leAt r 0 4
  let n := leAt r 4 4
  let cir := leAt r 8 8
  let pir := leAt r 16 8
  if n = 0 ∨ f + n > 262144 ∨ seen.any (fun s => f < s.1 + s.2 && s.1 < f + n) ∨ pir < cir ∨ leAt r 28 4 < leAt r 24 4 ∨ cir ≥ 2 ^ 40 ∨
    pir ≥ 2 ^ 40 ∨ leAt r 32 1 ≥ 4 ∨ ¬ zeros (r.drop 33) then IE_RECORD else 0

/-- A classification record, with its index (R313). -/
def classRecErr (k : Nat) (r : Bytes) : Nat :=
  let fam := leAt r 0 1
  let pl := leAt r 1 1
  let w := if fam = 4 then 32 else 128
  let pfx := fromBe (slice r 8 16)
  if k ≥ 4096 ∨ ¬ (fam = 4 ∨ fam = 6) ∨ pl > w ∨ leAt r 2 1 ≥ 8 ∨ leAt r 3 1 ≠ 0 ∨ leAt r 4 4 ≥ 2 ^ 18 ∨ pfx % 2 ^ (128 - pl) ≠ 0 ∨
    ¬ zeros (r.drop 24) then IE_RECORD else 0

/-- A lane-client record, with the number of earlier records of its lane (R314). -/
def laneRecErr (before : Nat) (r : Bytes) : Nat :=
  let sa := leAt r 1 1
  if ¬ (leAt r 0 1 = 9 ∨ leAt r 0 1 = 10) ∨ ¬ (sa < 16 ∨ sa = 0xFF) ∨ leAt r 2 1 ≥ 8 ∨ before ≥ 4 ∨ ¬ zeros (r.drop 42) then IE_RECORD else 0

/-- A gate list, with the ports of the lists before it (R315, R243). -/
def gateErr (i : Img) (seen : List Nat) (g : Bytes × List Bytes) : Nat :=
  let p := leAt g.1 0 1
  let n := leAt g.1 2 2
  let entOk (e : Bytes) : Bool := decide (leAt e 8 4 ≤ 1000000000) && leAt e 12 4 == 0
  if p > 1 ∨ seen.contains p ∨ n < 1 ∨ n > 256 ∨ leAt g.1 1 1 ≠ 0 ∨ leAt g.1 4 4 ≥ 2 ^ 30 ∨ ¬ zeros (g.1.drop 26) ∨ ¬ g.2.all entOk then IE_RECORD
  else if i.parts / 2 ^ (3 + p) % 2 = 1 then 0 else IE_PART_ABSENT

/-- Whether a register has a W1C field under every bit of a mask. -/
def w1cMask (g : RegSpec) : Word := g.fields.foldl (fun m f => match f.acc with | .w1c => putField m f.lsb f.w (2 ^ f.w - 1) | _ => m) 0#32

/-- A POLICY record (R316). -/
def polcyErr (i : Img) (r : Bytes) : Nat :=
  let common := i.target == 0
  let kind := leAt r 0 1
  let blk := leAt r 1 1
  let vec := leAt r 2 1
  let off := leAt r 4 4
  let mask := leWordAt r 2
  if leAt r 3 1 ≠ 0 ∨ leAt r 12 4 ≠ 0 then IE_RECORD
  else if kind = 1 then
    if common then
      match [CB.hostif, .cmdq, .fault, .vault, .book, .tally, .twin, .bench, .clkgen, .pwr, .image].find? (fun b => gbNum b == blk) with
      | none => IE_RECORD
      | some b => match findReg (gbRegs b) off with
        | some g => if vec < 2 ∨ vec > 15 ∨ w1cMask g = 0#32 ∨ mask &&& ~~~(w1cMask g) ≠ 0#32 then IE_RECORD else 0
        | none => IE_RECORD
    else
      match [KB.ref, .dpll, .syn, .gnss, .port, .sched, .sealb, .pmu, .chctl].find? (fun b => kbNum b == blk) with
      | none => IE_RECORD
      | some b => match findReg (kbRegs b) off with
        | some g =>
          if vec > 11 ∨ w1cMask g = 0#32 ∨ mask &&& ~~~(w1cMask g) ≠ 0#32 then IE_RECORD
          else match partOf b off with
            | some k => if i.parts / 2 ^ k % 2 = 1 then 0 else IE_PART_ABSENT
            | none => 0
        | none => IE_RECORD
  else if kind = 2 then
    if blk ≠ 0 ∨ mask.toNat ≥ 32 ∨ off ≥ (if common then 128 else 96) ∨ (common && off == 0) then IE_RECORD else 0
  else IE_RECORD

/-- The first failing record of a list: its code and index. -/
def firstErr (f : Nat → Bytes → Nat) (rs : List Bytes) : Option (Nat × Nat) :=
  rs.zipIdx.findSome? (fun rk => let e := f rk.2 rk.1; if e = 0 then none else some (e, rk.2))

/-- Check 9: TOPOLOGY, then every record in ascending TYPE. -/
def recordErr (i : Img) : Option (Nat × Nat) :=
  if i.target = 0 then
    match firstErr (fun _ r => comRecErr r) (i.recs 0x18 8) with
    | some e => some e
    | none => firstErr (fun _ r => i.polcyErr r) (i.recs 0x30 16)
  else if !i.topoOk then some (IE_TOPOLOGY, 0)
  else
    let pol := i.recs 0x20 40
    let lanes := i.recs 0x22 48
    let gs := i.gates.getD []
    let tries : List (Option (Nat × Nat)) :=
      regSecs.map (fun s => firstErr (fun _ r => i.regRecErr s.2 r) (i.recs s.1 8)) ++
      [firstErr (fun k r => polRecErr ((pol.take k).map (fun x => (leAt x 0 4, leAt x 4 4))) r) pol,
       firstErr classRecErr (i.recs 0x21 32),
       firstErr (fun k r => laneRecErr (countIf (fun x => leAt x 0 1 == leAt r 0 1) (lanes.take k)) r) lanes,
       gs.zipIdx.findSome? (fun gk => let e := i.gateErr ((gs.take gk.2).map (fun g => leAt g.1 0 1)) gk.1; if e = 0 then none else some (e, gk.2)),
       firstErr (fun _ r => i.polcyErr r) (i.recs 0x30 16)]
    tries.findSome? id

/-- Client groups by source prefix (R313). -/
def classes (i : Img) : List ClassRec := (i.recs 0x21 32).map (fun r =>
  ⟨leAt r 0 1 == 6, leAt r 1 1, leAt r 2 1 % 2 == 1, leAt r 2 1 / 2 % 2 == 1, leAt r 2 1 / 4 % 2 == 1, leAt r 4 4, fromBe (slice r 8 16)⟩)

/-- Masters of L9 and L10 (R314). -/
def masters (i : Img) : List LaneRec := (i.recs 0x22 48).map (fun r =>
  { lane := leAt r 0 1, sa := leAt r 1 1, ipv6 := leAt r 2 1 % 2 == 1, l2 := leAt r 2 1 / 2 % 2 == 1, vlan := leAt r 2 1 / 4 % 2 == 1,
    logSync := signed 8 (leAt r 3 1), logDresp := signed 8 (leAt r 4 1), logAnn := signed 8 (leAt r 5 1), dur := leAt r 6 2,
    mac := slice r 8 6, vid := leAt r 14 2, addr := slice r 16 16, portId := slice r 32 10 })

/-- The policer table (R312): both buckets full, LAST the tick at which the channel starts. -/
def policers (i : Img) (tick : Nat) : List (Nat × PolEntry) := (i.recs 0x20 40).foldl (fun m r =>
  let cbs := leAt r 24 4
  let pbs := leAt r 28 4
  let e : PolEntry := { PolEntry.zero with
    cir := leAt r 8 8, pir := leAt r 16 8, cbs := cbs, pbs := pbs, tc := cbs * 2 ^ 32, tp := pbs * 2 ^ 32, last := tick,
    valid := leAt r 32 1 % 2 == 1, unit := leAt r 32 1 / 2 % 2 == 1 }
  (upTo (leAt r 4 4)).foldl (fun m k => smPut PolEntry.zero m (leAt r 0 4 + k) e) m) []

/-- The reportable marks of a channel image (R316). -/
def marks (i : Img) : List (KB × Nat × Nat × Nat) := (i.recs 0x30 16).filterMap (fun r =>
  if leAt r 0 1 ≠ 1 then none
  else ([KB.ref, .dpll, .syn, .gnss, .port, .sched, .sealb, .pmu, .chctl].find? (fun b => kbNum b == leAt r 1 1)).map
    (fun b => (b, leAt r 4 4, leAt r 8 4, leAt r 2 1)))

/-- The topology of a channel that runs the image. -/
def topo (i : Img) : Topo := ⟨i.lanes, i.parts, i.marks⟩

end Img

namespace State

/-- The floor of a kind of image (R320). -/
def svnFloor (s : State) (target : Nat) : Nat := if target = 0 then s.gcur F.IMAGE_SVN_CMN_FLOOR else s.gcur F.IMAGE_SVN_CH_FLOOR

/-- Checks 1 to 9 of R319 on supplied bytes, for the common complex or for channel `tgt`: the code and RECIDX of the first that fails.
While a tamper alarm has stopped the vault, every load fails OWNER (R440). -/
def imageErr (s : State) (bs : Bytes) (tgt : Option ChanIx) : Option (Nat × Nat) :=
  let i : Img := ⟨bs⟩
  let k := s.gfld F.IMAGE_CFG_OWNER_SLOT
  if s.gcur F.VAULT_STAT_STAGE = VS_STOPPED then some (IE_OWNER, 0)
  else if bs.length > IMG_MAX ∨ i.len > IMG_MAX ∨ i.len > bs.length then some (IE_TOO_LARGE, 0)
  else if !i.formatOk then some (IE_FORMAT, 0)
  else match (if attrAlg (s.vslot k).attr = 5 && (s.vslot k).keyId == i.keyId then s.deliver k RC_IMG else none) with
    | none => some (IE_OWNER, 0)
    | some pub =>
      if !sigOk pub i.meas i.sigBlk then some (IE_SIGNATURE, 0)
      else if i.devid ≠ 0 ∧ i.devid ≠ s.fuse.devid then some (IE_DEVID, 0)
      else if i.svn < s.svnFloor i.target then some (IE_SVN, 0)
      else if !(match tgt with | none => i.target == 0 | some n => i.target == 1 && i.chmask / 2 ^ n.val % 2 == 1) then some (IE_TARGET, 0)
      else if !i.fwOk s.fuse.fwPub then some (IE_FW_SIG, 0)
      else i.recordErr

end State
end Sys2Proof.Machine
end

