-- ==== Sys2Proof/Machine/FaultOps.lean ====
section
/-! DEFINITION. Fault detections and their reactions, block resets, the safe state (R360 to R376), the drive right (R259), the run state
of channels (R326, R435), and what a channel's command asks of the common complex. -/
namespace Sys2Proof.Machine

namespace State

/-! ### Run states and loads that end -/

/-- BUSY and PHASE of IMAGE.STAT once loads have ended: IDLE when none is left (R333). -/
def imgIdle (s : State) : State :=
  if allChans.any (fun n => s.img[n].job.isSome) || s.loader.dev.isSome then s
  else (s.gput F.IMAGE_STAT_BUSY 0).gput F.IMAGE_STAT_PHASE 0

/-- VCLK (R353): a 48-bit count that has gone on by an amount that the common tick does not tell. -/
def vclkNow (s : State) : Nat × State :=
  let d := s.free 48
  let v := (s.vault.vclk + d.1) % 2 ^ 48
  (v, { d.2 with vault := { d.2.vault with vclk := v } })

/-- An entry of the VBAT log copied to the cellar book (R355, R395). -/
def copyEntry (s : State) (k : Nat) (e : VLog) : State :=
  let c := s.vclkNow
  c.2.book1 ⟨.tamper e.pstate e.src, 0x05, k, BitVec.ofNat 32 (e.vclk / 256), BitVec.ofNat 32 (c.1 / 256)⟩

/-- The VBAT log copied and cleared (R355). -/
def copyLog (s : State) : State :=
  if s.vault.log.isEmpty then s
  else
    let s1 := s.vault.log.zipIdx.foldl (fun s e => s.copyEntry e.2 e.1) s
    { s1 with vault := { s1.vault with log := [] } }.gevt F.VAULT_EVT_LOG

/-- PSTATE is RUN while a channel is in RECONFIG or RUN, else COLD (R435). An exit from COLD copies the VBAT log (R354). -/
def powerSettle (s : State) : State :=
  if s.pwr.pst = .cold ∨ s.pwr.pst = .run then
    let r := allChans.any (fun n => s.chSt n == CH_RUN || s.chSt n == CH_RECONFIG)
    let s := if r && s.pwr.pst == .cold then s.copyLog else s
    ({ s with pwr := { s.pwr with pst := if r then .run else .cold } }).gput F.PWR_STAT_PSTATE (if r then 3 else 2)
  else s

/-- The channel operations of the command queue end FAILED with ABSENT (R391). -/
def failChanOps (s : State) (n : ChanIx) : State :=
  (s.cmdq.cmds.filter (fun c => (c.op == 1 || c.op == 2 || c.op == 7) && c.ch == n.val)).foldl (fun s c => s.failCmd c.slot RES_ABSENT) s

/-- An ABSENT response to an internal request (R329). -/
def reqAbsent (s : State) (n : ChanIx) : State := s.gbump (F.IMAGE_CH_DROP_REQ_ABSENT n.val)

/-- What a channel that leaves RUN has in flight is discarded (R330): its frames in the router. Its bench links go DOWN with it (R286). -/
def dropReplies (s : State) (n : ChanIx) : State :=
  let mine (t : Transit) : Bool := t.src / 2 == n.val
  let k := countIf mine s.router.flight
  let s1 := { s with router := { s.router with flight := s.router.flight.filter (fun t => !mine t) } }.gbumpBy (F.IMAGE_CH_DROP_REPLY_DISC n.val) k
  if [(0 : Fin 2), 1].any (fun x => s.ch[n].bstat x != BL_DOWN) then s1.gevt F.BENCH_EVT_TOPO else s1

/-- A change of a channel's state (R326). A channel that leaves RUN ends its operations and episodes. -/
def setChSt (s : State) (n : ChanIx) (st : Nat) : State :=
  let s1 := if s.running n && st != CH_RUN then ((s.setCh n s.ch[n].epiExit).failChanOps n).dropReplies n else s
  (s1.gput (F.IMAGE_CH_STAT_STATE n.val) st).powerSettle

/-! ### Channel power (R437) -/

/-- A channel root's state (R430). -/
def setRoot (s : State) (r st : Nat) : State :=
  if s.gcur (F.CLKGEN_ROOT_STAT_STATE r) = st then s else (s.gput (F.CLKGEN_ROOT_STAT_STATE r) st).gevt F.CLKGEN_EVT_ROOT

/-- Power-up begins, or follows the power-down in progress. -/
def powerUp (s : State) (n : ChanIx) : State :=
  match s.img[n].pwr with
  | .off => s.updImg n (fun i => { i with pwr := .up s.tick })
  | .down _ => s.updImg n (fun i => { i with waitUngate := true })
  | _ => s

/-- Power-down begins, or follows the power-up in progress. -/
def powerDown (s : State) (n : ChanIx) : State :=
  match s.img[n].pwr with
  | .on => s.updImg n (fun i => { i with pwr := .down s.tick })
  | .up _ => s.updImg n (fun i => { i with waitGate := true })
  | _ => s.updImg n (fun i => { i with waitUngate := false })

/-! ### Loads given up -/

/-- A load of channel `n` is given up: `err` is its code of R319, `res` the RESULT of its command. A channel in RECONFIG becomes EMPTY, and
one that was not in RUN is powered down again. -/
def stopLoad (s : State) (n : ChanIx) (err : Option Nat) (res : Nat) : State :=
  match s.img[n].job with
  | none => s
  | some j =>
    let s1 := s.updImg n (fun i => { i with job := none, after := none, kept := none })
    let s2 := match err with | some e => (s1.gput F.IMAGE_STAT_ERR e).gput F.IMAGE_STAT_RECIDX 0 | none => s1
    let st := s2.chSt n
    let s3 := (if st = CH_RECONFIG then s2.setChSt n CH_EMPTY else if st ≠ CH_RUN ∧ j.mode ≠ 0 then s2.powerDown n else s2).imgIdle
    let s4 := if res = RES_CANCELLED then s3 else s3.gevt F.IMAGE_EVT_FAIL
    match j.slot with
    | some k => s4.endCmd k res (s4.gword .image IMAGE_STAT).toNat
    | none => s4

/-- The DEVICE load, if one is in progress, is given up; the stage returns to WAIT_IMAGE (R440). -/
def stopDevice (s : State) (err : Option Nat) (res : Nat) : State :=
  match s.loader.dev with
  | none => s
  | some d =>
    let s0 := match err with | some e => (s.gput F.IMAGE_STAT_ERR e).gput F.IMAGE_STAT_RECIDX 0 | none => s
    let s0 := if res = RES_CANCELLED then s0 else s0.gevt F.IMAGE_EVT_FAIL
    let s1 := ({ s0 with loader := { s0.loader with dev := none } }).imgIdle.setStage BOOT_WAIT
    s1.endCmd d.1 res (s1.gword .image IMAGE_STAT).toNat

/-- Every load is given up. -/
def stopLoads (s : State) (err : Option Nat) (res : Nat) : State :=
  (allChans.foldl (fun s n => s.stopLoad n err res) s).stopDevice err res

/-- Whether the load of channel `n` is that of a command slot. -/
def jobOf (s : State) (n : ChanIx) (slot : Nat) : Bool := match s.img[n].job with | some j => j.slot == some slot | none => false

/-- A command withdrawn with the RESULT given: what its operation has begun is undone or dropped. -/
def abortCmd (s : State) (slot res : Nat) : State :=
  match s.cmd? slot with
  | none => s
  | some c =>
    let n : ChanIx := Fin.ofNat 4 c.ch
    let act := c.begun && s.running n
    let s1 := match c.op with
      | 1 => if act then s.setCh n s.ch[n].surveyCancel else s
      | 2 => if act then s.setCh n (s.ch[n].charEnd res) else s
      | 7 =>
        if s.cmdState slot ≠ CS_QUEUED ∧ s.ch[n].cur F.GNSS_SNAP_STAT_STATE = SNAP_PROCESSING then
          s.setCh n ((s.ch[n].put F.GNSS_SNAP_STAT_STATE (if s.ch[n].gnss.snap.isSome then SNAP_FULL else SNAP_EMPTY)).evt F.GNSS_EVT_SNAP)
        else s
      | 3 =>
        match s.loader.dev with
        | some d => if d.1 = slot then s.stopDevice none res else s
        | none => allChans.foldl (fun (s : State) (n : ChanIx) => if (s.jobOf n slot) then s.stopLoad n none res else s) s
      | 5 => { s with twin := { s.twin with drill := match s.twin.drill with | some d => if d.slot = slot then none else some d | none => none } }
      | 9 => { s with pwr := { s.pwr with selfTest := if s.pwr.selfTest = some slot then none else s.pwr.selfTest } }
      | _ => s
    s1.endCmd slot res (if c.op = 6 ∨ c.op = 8 then c.done else if c.op = 3 then (s1.gword .image IMAGE_STAT).toNat else 0)

/-! ### Drive right (R161, R228, R259) -/

/-- What the drive right and the safe state mean to a running channel. -/
def driveCh (s : State) (n : ChanIx) : State :=
  let c := s.ch[n]
  let c1 := { c with drive := s.gflag F.TWIN_STAT_DRIVE && !s.safe, safe := s.safe }
  s.setCh n (if s.running n then Channel.settle c c1 else c1)

/-- A change of the drive right. -/
def setDrive (s : State) (b : Bool) : State :=
  let s1 := if s.gflag F.TWIN_STAT_DRIVE = b then s else (s.gput F.TWIN_STAT_DRIVE (b2n b)).gevt F.TWIN_EVT_DRIVE
  allChans.foldl driveCh s1

/-! ### The safe state (R368 to R371) -/

/-- The transmitters of a channel go off: its links leave UP, its queues are flushed, its bench links are down. -/
def quietCh (s : State) (n : ChanIx) : State :=
  if !s.running n then s
  else
    let c := s.ch[n]
    let c1 := [(0 : PortIx), 1].foldl (fun c p => (c.linkLoss p).flushPort false p) c
    s.setCh n (Channel.settle c ((c1.benchDown 0).benchDown 1))

/-- Entry to the safe state. -/
def enterSafe (s : State) (cause src : Nat) : State :=
  if s.safe then s
  else
    let old := s.gword .fault FAULT_SAFE_STAT
    let s1 := ((s.gput F.FAULT_SAFE_STAT_SAFE 1).gput F.FAULT_SAFE_STAT_CAUSE cause).gput F.FAULT_SAFE_STAT_SRC src
    let s2 := { s1 with fault := { s1.fault with blockDue := [], resetDue := none } }.msix 1
    let s3 := (s2.cmdq.cmds.filter (fun c => c.op != 6)).foldl (fun s c => s.abortCmd c.slot RES_SAFE) (s2.stopLoads (some IE_SAFE) RES_SAFE)
    let s4 := allChans.foldl quietCh (s3.setDrive false)
    let s5 := { s4 with twin := { s4.twin with laneUp := Vector.replicate 2 false, inRound := s4.twin.inRound.map (fun _ => 0) } }
    s5.bookSt (.fault src) (gReg .fault FAULT_SAFE_STAT) old (s5.gword .fault FAULT_SAFE_STAT)

/-! ### Loads that the device starts -/

/-- A RUN load of the held image of channel `n` (R326, R365). A load in progress is finished first. -/
def loadHeld (s : State) (n : ChanIx) (org : Origin) (carry rack : Bool) : State :=
  match s.img[n].held with
  | none => s
  | some h =>
    let j : LoadJob := ⟨org, none, 1, carry, [], h, false, false, false, rack⟩
    let s1 := s.updImg n (fun i => if i.job.isSome then { i with after := some j } else { i with job := some j })
    (s1.gput F.IMAGE_STAT_BUSY 1).gput F.IMAGE_STAT_TARGET (8 + n.val)

/-- The bytes of a store slot. -/
def storeSlot (s : State) (n : ChanIx) (b : Bool) : Bytes := if b then s.img[n].slot1 else s.img[n].slot0

/-! ### Block resets (R365) -/

/-- The reset of a block of the common complex: its buffers and the operations in progress; register values are kept. -/
def resetCommon (s : State) (b : CB) : State :=
  match b with
  | .hostif => { s with host := { s.host with sent := [], took := [] } }
  | .cmdq => s.cmdq.cmds.foldl (fun s c => s.abortCmd c.slot RES_OP_ERROR) s
  | .book => let held := s.book.buf; held.foldl bookAppend { s with book := { s.book with buf := [] } }
  | .tally =>
    (s.cmdq.cmds.filter (fun c => c.op == 6)).foldl (fun s c => s.abortCmd c.slot RES_OP_ERROR) { s with tally := { s.tally with upd := none } }
  | .twin =>
    let t := s.twin
    let s1 := { s with twin := { t with laneUp := Vector.replicate 2 false, echo := none, offs := [], offHist := [], crcErr := [], inRound := none } }
    (s1.cmdq.cmds.filter (fun c => c.op == 5)).foldl (fun s c => s.abortCmd c.slot RES_OP_ERROR) s1
  | .bench => ({ s with router := RouterSt.reset }).gput F.BENCH_CAL_CTL_BUSY 0
  | .image => s.stopLoads none RES_OP_ERROR
  | .fault | .vault | .pwr | .clkgen => s

/-- The block reset of a source's owner, with its entry; `old` and `new` are SRC_STATn before the detection and after it (R365, R366). -/
def blockReset (s : State) (n : Nat) (old new : Word) : State :=
  let book (s : State) : State := s.bookSt (.fault n) (gReg .fault (FAULT_SRC_STAT n)) old new
  match srcChan n with
  | some (c, _) =>
    match s.img[c].held with
    | some h =>
      if s.running c then book (s.loadHeld c (.fault n) (Img.carryOk ⟨s.storeSlot c h⟩) false) else s
    | none => s
  | none =>
    match commonSources.find? (fun e => e.1 == n) with
    | some (_, b, _) => if b = .fault ∨ b = .vault ∨ b = .pwr ∨ b = .clkgen then s else book (s.resetCommon b)
    | none => s

/-- The block resets of the tick. A source's is taken once (R373). -/
def blockDue (s : State) (n : Nat) (old new : Word) : State :=
  if s.fault.blockDue.any (fun e => e.1 == n) then s else { s with fault := { s.fault with blockDue := s.fault.blockDue ++ [(n, old, new)] } }
def blockResets (s : State) : State :=
  s.fault.blockDue.foldl (fun s e => s.blockReset e.1 e.2.1 e.2.2) { s with fault := { s.fault with blockDue := [] } }

/-! ### Detections (R363, R364, R372, R376) -/

/-- The mask of a source; FS0 takes none (R369). -/
def react (s : State) (n : Nat) : Nat := if n = 0 then 0x12 else s.gfld (F.FAULT_SRC_CFG_REACT n)

/-- A source whose reaction holds ERR_N (R364, R372). -/
def holdErrN (s : State) (n : Nat) (inj : Bool) : State :=
  let f := s.fault
  if inj then { s with fault := { f with errInj := if f.errInj.contains n then f.errInj else n :: f.errInj } }
  else { s with fault := { f with errReal := if f.errReal.contains n then f.errReal else n :: f.errReal } }

/-- The reactions of a source under a mask: IRQ, NMI, ERR_N, then the safe state, a block reset and a chip reset, which the end of the tick
carries out (R364 to R366, R376). -/
def takeReact (s : State) (n mask : Nat) (inj : Bool) (old : Word) : State :=
  let has (k : Nat) : Bool := mask / 2 ^ k % 2 == 1
  let vec := match srcChan n with | some (c, _) => 16 + 12 * c.val | none => 2
  let s1 := if has 0 then s.msix vec else s
  let s2 := if has 1 then (if s1.gflag F.FAULT_NMI_STAT_PEND then s1.gevt F.FAULT_NMI_STAT_PEND
    else (s1.gevt F.FAULT_NMI_STAT_PEND).gput F.FAULT_NMI_STAT_SRC n).msix 1 else s1
  let s3 := if has 4 then s2.holdErrN n inj else s2
  let s4 := if has 3 && s3.gfld F.FAULT_CFG_CHIP_ACT == 1 then s3.enterSafe 2 n else s3
  if s4.safe then s4
  else
    let s5 := if has 2 then s4.blockDue n old (s4.gword .fault (FAULT_SRC_STAT n)) else s4
    if has 3 then
      let due := match s5.fault.resetDue with
        | some d => if d.1 = 3 ∧ n < d.2.1 then some (3, n, inj) else some d
        | none => some (3, n, inj)
      { s5 with fault := { s5.fault with resetDue := due } }
    else s5

/-- FIRST records a detection while it holds none. -/
def firstFault (s : State) (n : Nat) (inj : Bool) : State :=
  if s.gflag F.FAULT_FIRST_VALID then s else ((s.gevt F.FAULT_FIRST_VALID).gput F.FAULT_FIRST_INJ (b2n inj)).gput F.FAULT_FIRST_SRC n

/-- Whether a source can raise: it is listed, and its channel is in RUN (R329, R360). -/
def srcLive (s : State) (n : Nat) : Bool :=
  (srcReact n).isSome && (match srcChan n with | some (c, _) => s.running c | none => true)

/-- A detection on a source that cannot raise: an absent channel answers ABSENT (R329). -/
def detectAbsent (s : State) (n : Nat) : State :=
  match srcChan n with
  | some (c, _) => if s.running c || (srcReact n).isNone then s else s.reqAbsent c
  | none => s

/-- A real detection on a source. -/
def detect (s : State) (n : Nat) : State :=
  if !s.srcLive n then s.detectAbsent n
  else
    let old := s.gword .fault (FAULT_SRC_STAT n)
    let s1 := s.updTally (fun t => { t with faults := smPut 0 t.faults n (satCount (smGet 0 t.faults n)) })
    let s2 := ((s1.gevt (F.FAULT_SRC_STAT_REAL n)).gbumpSat (F.FAULT_SRC_STAT_COUNT n)).firstFault n false
    let s3 := if n = 11 ∨ n = 12 then s2.gevt F.PWR_EVT_TJ else s2
    let s4 := if bit old 31 then s3 else s3.takeReact n (s3.react n) false old
    if n = 0 then s4.enterSafe 1 0 else s4

/-- A detection on a level source, whose condition holds until `clearLevel` (R363). -/
def detectLevel (s : State) (n : Nat) : State := if s.srcLive n then (s.detect n).gput (F.FAULT_SRC_STAT_ACTIVE n) 1 else s.detectAbsent n
def clearLevel (s : State) (n : Nat) : State := s.gput (F.FAULT_SRC_STAT_ACTIVE n) 0

/-- An injected detection, in mode FULL or RECORD; an injection into FS0 in mode FULL enters the safe state (R368, R372). -/
def detectInjected (s : State) (n : Nat) (full : Bool) : State :=
  let old := s.gword .fault (FAULT_SRC_STAT n)
  let s1 := s.updTally (fun t => { t with injected := satCount t.injected })
  let s2 := ((s1.gevt (F.FAULT_SRC_STAT_INJ n)).gbumpSat (F.FAULT_SRC_STAT_ICOUNT n)).firstFault n true
  let s3 := s2.takeReact n (if full then s2.react n else s2.react n % 4) true old
  let s4 := if n = 0 && full then s3.enterSafe 4 0 else s3
  ({ s4 with fault := { s4.fault with injAt := none } }.gput F.FAULT_INJ_CTL_BUSY 0).gevt F.FAULT_INJ_CTL_DONE

/-! ### What a channel asks of the common complex -/

/-- A CLIENT frame of a changed entry (R229, R282). -/
def streamClient (s : State) (n : ChanIx) (ix : Nat) : State :=
  if !s.streaming then s
  else
    -- the cores' own bytes, and those of a FREE entry, are not specified
    let fw := s.free 1016
    let b := match s.ch[n].client? ix with
      | some e => Client.bytes e (leBytes 32 fw.1)
      | none => 0#8 :: leBytes 127 fw.1
    fw.2.twinSend 0x04 n.val (leBytes 4 ix ++ b)

/-- A request of channel `n` other than a change for the cellar book. -/
def doEff (n : ChanIx) (s : State) (e : Eff) : State :=
  match e with
  | .book _ => s
  | .fault i => s.detect (128 + 96 * n.val + i)
  | .event b off m =>
    s.ch[n].topo.marks.foldl (fun s k =>
      if k.1 == b && k.2.1 == off && (BitVec.ofNat 32 m &&& BitVec.ofNat 32 k.2.2.1) != 0#32 then s.msix (16 + 12 * n.val + k.2.2.2) else s) s
  | .jour e =>
    let c := s.ch[n].pmuBy 0x20 none 1
    let c1 := match e.body with | .meas _ => c.pmuBy 0x21 none 1 | _ => c
    (s.setCh n c1).streamJour n e
  | .opEnd slot res rd => s.endCmd slot res rd
  | .chanEvent x => s.emit (.chanEvent n x)
  | .edge p k ps d => s.emit (.edge n p k ps d)
  | .todBytes bs d => s.emit (.tod n bs d)
  | .backMsg bs => s.emit (.backMsg n bs)
  | .frame p bs => s.emit (.frame n p bs)
  | .esmc p ql ev => s.emit (.esmc n p ql ev)
  | .bench x bs => s.emit (.bench (2 * n.val + x.val) bs)
  | .topo => s.gevt F.BENCH_EVT_TOPO
  | .keys => s.deliverKeys n
  | .client ix => s.streamClient n ix
  | .outage t => s.updTally (fun r => { r with outage := bucketInc r.outage (secBucket t) })
  | .holdover t => s.updTally (fun r => { r with holdover := bucketInc r.holdover (secBucket t) })

/-- The requests of every channel, once: first the changes for the cellar book, then the others. -/
def drainOnce (s : State) : State :=
  let asked := allChans.flatMap (fun n => s.ch[n].effs.map (fun e => (n, e)))
  let s1 := allChans.foldl (fun s n => s.setCh n { s.ch[n] with effs := [] }) s
  let s2 := s1.bookAll (asked.filterMap (fun e => match e.2 with | .book c => some c | _ => none))
  asked.foldl (fun s e => doEff e.1 s e.2) s2

/-- Every request, those that the requests bring about included. -/
def drain (s : State) : State := iter drainOnce 4 s

/-- A command's effect on one channel: what `f` does where the channel runs, then what it settles. -/
def onCh (s : State) (n : ChanIx) (f : Channel → Channel) : State :=
  if s.running n then s.setCh n (Channel.settle s.ch[n] (f s.ch[n])) else s

end State

end Sys2Proof.Machine
end

