-- ==== Sys2Proof/Machine/VintBytes.lean ====
section
/-! DEFINITION. The bytes of a vintage (R145, R270). The widths of the items that stand in no register or record are the model's
(notes/assumptions/106.md). -/
namespace Sys2Proof.Machine

/-- An item of a section: its size in bytes and its value. -/
abbrev VItem : Type := Nat × Nat

/-- Items from a section offset on, each aligned to the lesser of its size and 8 bytes, with padding 0. -/
def layItems : Nat → List VItem → Bytes
  | _, [] => []
  | pos, (w, v) :: r =>
    let a := max 1 (min w 8)
    let pad := (a - pos % a) % a
    List.replicate pad 0 ++ leBytes w v ++ layItems (pos + pad + w) r

/-- A section filled up to a multiple of 8 bytes, the unit of DIR's OFS. -/
def pad8 (bs : Bytes) : Bytes := bs ++ List.replicate ((8 - bs.length % 8) % 8) 0

def vFlag (b : Bool) : VItem := (1, b2n b)
def vGt (t : Gt) : VItem := (16, unsigned 128 t)
/-- Bytes as items of one byte each. -/
def vBytes (bs : Bytes) : List VItem := bs.map (fun b => (1, b.toNat))

namespace Channel

/-- The expected records that a lane has missed in a row (R76). -/
def missCount (c : Channel) (n : LaneIx) : Nat :=
  match (c.lane n).miss with
  | some t => max 1 (c.fld (F.REF_LANE_CFG_MISS_LIM n.val)) - ceilDiv (t - c.jour.tick) (max 1 (c.laneInterval c.syncIv n))
  | none => 0

/-- The items of one lane. -/
def vintLane (c : Channel) (n : LaneIx) : List VItem :=
  let l := c.lane n
  [(1, laneCode l.st), vFlag l.returning, vFlag l.los, (1, b2n l.outA + 2 * b2n l.outB), (4, l.winGood), (1, c.missCount n),
   (8, (l.timer.getD c.jour.tick) - c.jour.tick), (4, l.stepW), (4, unsigned 32 (l.mpdRef.getD 0)), (1, l.stepCnt), vFlag l.stepPos] ++
  vBytes (match l.prev with | some r => recBytes r | none => List.replicate 64 0)

/-- The items of one selection. -/
def vintSel (x : SelSt) : List VItem :=
  let ln (o : Option LaneIx) : VItem := (1, match o with | some n => n.val | none => 0xFF)
  [ln x.cur, vFlag x.sw.isSome, ln x.pv, (8, x.pvJseq), vFlag x.pend, ln (x.denied.map Prod.fst)]

/-- The contest at a rank: the tick in which it began and its largest disagreement. -/
def vintContest (c : Channel) (rk : Nat) : List VItem :=
  match ((c.sel .a).contests ++ (c.sel .b).contests).find? (fun k => c.laneRank k.a == rk) with
  | some k => [(8, c.jour.tick - ((c.now - k.tc) * 200000000 / 2 ^ 64).toNat), (4, k.dmax)]
  | none => [(8, 0), (4, 0)]

def vintRef (c : Channel) : List VItem :=
  allLanes.flatMap c.vintLane ++ vintSel (c.sel .a) ++ vintSel (c.sel .b) ++ (upTo 16).flatMap c.vintContest

/-- A bound ring of 1,024 entries, oldest first. -/
def vintRing (es : List RingEnt) : List VItem :=
  es.reverse.flatMap (fun e => [vGt e.refTs, vGt e.offset, (4, e.teb)]) ++ (List.replicate (1024 - es.length) [vGt 0, vGt 0, ((4, 0) : VItem)]).flatten

/-- The items of R145 but for the register values, in its order. -/
def vintDpll (c : Channel) : List VItem :=
  let d := c.dpll
  [(20, unsigned 160 d.ctr), (16, unsigned 128 d.pend), (8, unsigned 64 d.rate), (8, unsigned 64 d.rateB), vFlag d.first, vFlag d.firstB,
   vGt (d.lastTs.getD 0), vGt (d.lastTsB.getD 0), vFlag d.sl, vFlag d.trace, vFlag d.hoValid, (1, chanCode d.st), (1, bCode d.bst),
   (4, d.lockCnt), (4, d.unlockCnt), (2, d.bwc), (4, d.teb0), vGt d.t0, (4, d.fb), (4, d.lfb), (4, d.tag.toNat), vGt d.hoEntry, (4, d.tebH),
   (4, d.bEff)] ++ vintRing d.short ++ vintRing d.long ++
  (match d.char with | some o => o.samples.flatMap (fun x => [(8, unsigned 64 x.1), (8, unsigned 64 x.2)]) | none => []) ++
  [(8, c.jour.tick), (8, c.jour.jseq)]

/-- The leap table as EFF and the word of LEAP_ENT, UTC_SRC and CALSET. -/
def vintScale (c : Channel) : List VItem :=
  c.scale.leap.toList.flatMap (fun e => [(8, unsigned 64 e.eff), (4, (leapWord e).toNat)]) ++
  [(1, c.cur F.DPLL_TS_CFG_UTC_SRC), (1, c.cur F.DPLL_TS_CFG_CALSET)]

def vintSyn (c : Channel) : List VItem :=
  let x := c.syn
  [(20, unsigned 160 x.ots), vFlag (c.flag F.SYN_RA_CTL_ACT && x.raFrom.isSome), (1, c.cur F.SYN_RA_CTL_MODE), vGt (x.raJump.getD 0),
   (8, unsigned 64 (x.pls[0].idx.getD 0)), (8, unsigned 64 (x.pls[1].idx.getD 0)), (2, x.todSeq)]

/-- UTC parameters: a valid flag, the count, a pending flag, the pending count and its day. -/
def vintUtc (u : Option NavUtc) : List VItem :=
  let f := u.bind (·.future)
  [vFlag u.isSome, vFlag f.isSome, (2, unsigned 16 ((u.map (·.leap)).getD 0)), (2, unsigned 16 ((f.map Prod.snd).getD 0)),
   (4, unsigned 32 ((f.map Prod.fst).getD 0))]

/-- One satellite's stored almanac and ephemeris: system, code, health, the bytes of each with their number. -/
def vintSat (e : NavSat) : List VItem :=
  let alm := e.alm.getD []
  let eph := e.eph.getD (0, [])
  [vFlag e.gal, (1, e.sv), vFlag e.healthy, (2, alm.length)] ++ vBytes alm ++ [(4, eph.1), (2, eph.2.length)] ++ vBytes eph.2

def vintNav (c : Channel) : List VItem :=
  let g := c.gnss
  let p := g.pos.getD (0, 0, 0, 0)
  let t := g.nav.ggto.getD ⟨0, 0, 0⟩
  let sats (gal : Bool) : List NavSat := (upTo 64).flatMap (fun k => g.nav.sats.filter (fun e => e.gal == gal && e.sv == k))
  [(8, unsigned 64 p.1), (8, unsigned 64 p.2.1), (8, unsigned 64 p.2.2.1), (4, p.2.2.2), (1, c.cur F.GNSS_POS_CTL_MODE),
   (1, c.cur F.GNSS_JAM_CFG_FLOOR), vFlag g.nav.ggto.isSome, (8, unsigned 64 t.a0), (8, unsigned 64 t.a1), (8, unsigned 64 t.t0)] ++
  vintUtc g.nav.gps ++ vintUtc g.nav.gal ++ (sats false ++ sats true).flatMap vintSat

/-- The bits of a register that the REGS section carries: all but RO and WO fields. -/
def vintMask (g : RegSpec) : Word := g.fields.foldl (fun m f => match f.acc with | .ro | .wo => m | _ => putField m f.lsb f.w (2 ^ f.w - 1)) 0#32

/-- The offsets of a replicated register. -/
def dimOffs : Nat → List (Nat × Nat) → List Nat
  | base, [] => [base]
  | base, (st, n) :: r => (upTo n).flatMap (fun k => dimOffs (base + st * k) r)

/-- The offsets in a block of the registers that REGS carries, rising. -/
def vintOffs (b : KB) : List Nat :=
  ((kbRegs b).flatMap (fun g => if vintMask g = 0#32 then [] else dimOffs g.base g.dims)).mergeSort (fun x y => decide (x ≤ y))

/-- The blocks of a channel in rising order. -/
def allKBs : List KB := [.ref, .dpll, .syn, .gnss, .port, .sched, .sealb, .pmu, .chctl].mergeSort (fun x y => decide (kbBase x ≤ kbBase y))

def vintRegItems (c : Channel) : List VItem :=
  allKBs.flatMap (fun b => (vintOffs b).flatMap (fun o => [(4, kbBase b + o), (4, (c.useWord b o).toNat), (4, (c.word b o).toNat), (4, 0)]))

/-- The sections of a channel, in ascending ID. -/
def vintSections (c : Channel) : List (Nat × List VItem) :=
  [(1, c.vintRef), (2, c.vintDpll), (3, c.vintScale), (4, c.vintSyn), (5, c.vintNav), (6, c.vintRegItems)]

end Channel

/-- The directory of sections from an offset on. -/
def vintDir : Nat → List (Nat × Bytes) → Bytes
  | _, [] => []
  | ofs, (id, bs) :: r => leBytes 2 id ++ leBytes 2 (ofs / 8) ++ leBytes 4 bs.length ++ vintDir (ofs + bs.length) r

/-- The bytes of a vintage: the header, the directory, the sections (R270). -/
def Vintage.bytes (v : Vintage) : Bytes :=
  let secs := v.snap.vintSections.map (fun e => (e.1, pad8 (layItems 0 e.2)))
  let body := vintDir (128 + 8 * secs.length) secs ++ secs.flatMap Prod.snd
  let hd := leBytes 4 0x544E4956 ++ leBytes 1 1 ++ leBytes 1 v.ch.val ++ leBytes 2 secs.length ++ leBytes 8 v.tick ++ leBytes 8 v.jseq ++
    leBytes 8 v.devid ++ padTo 48 v.meas ++ leBytes 4 v.epoch ++ leBytes 4 (128 + body.length) ++ leBytes 36 0
  hd ++ leBytes 4 (crc32 (hd ++ body)) ++ body

end Sys2Proof.Machine
end

