-- ==== Sys2Proof/Machine/LoadOps.lean ====
section
/-! DEFINITION. Vintages (R270, R271), and the loads and states of channels (R320 to R331, R435 to R437). -/
namespace Sys2Proof.Machine

/-! ### What CARRY keeps (R325) -/

namespace Channel

/-- The bits of a register that CARRY keeps against the image: the leap table, UTC_SRC, CALSET and the calibration entries. -/
def carryMask (b : KB) (off : Nat) : Word :=
  if b ≠ .dpll then 0#32
  else if off = DPLL_TS_CFG then 0x0000FF03#32
  else if (0xF0100 ≤ off ∧ off < 0xF0180) ∨ (0xF0200 ≤ off ∧ off < 0xF0280) then 0xFFFFFFFF#32
  else 0#32

/-- A register word and its value in use, taken from another channel. -/
def keepWord (old : Channel) (b : KB) (c : Channel) (off : Nat) : Channel :=
  let f := c.rf b
  c.setRf b { f with cur := smPut (kbRst b off) f.cur off (old.word b off), use := smPut (kbRst b off) f.use off (old.useWord b off) }

/-- The channel `c`, just reset, with the state of `old` that CARRY keeps (R325). -/
def carryFrom (old : Channel) (c : Channel) : Channel :=
  let o := old.surveyCancel
  let d := o.dpll
  let keptD : List Nat := [DPLL_TS_CFG, DPLL_LRN_B, DPLL_LRN_C, DPLL_LRN_AGE 0, DPLL_LRN_AGE 1, DPLL_LRN_STAT] ++
    (upTo 16).flatMap (fun n => [DPLL_CAL_DLY n, DPLL_CAL_DLY n + 4])
  let c1 := { c with
    dpll := { c.dpll with
      ctr := d.ctr, pend := d.pend, rate := d.rate, trace := d.trace, hoValid := d.hoValid, teb0 := d.teb0, t0 := d.t0, fb := d.fb,
      lfb := d.lfb, tag := d.tag, short := d.short, long := d.long, kCum := d.kCum },
    scale := o.scale,
    syn := { c.syn with ots := o.syn.ots, ots0 := o.syn.ots, raFrom := o.syn.raFrom.map (fun _ => 0), raJump := o.syn.raJump, jumpOts := o.syn.jumpOts },
    gnss := { c.gnss with pos := o.gnss.pos, nav := o.gnss.nav },
    sealb := { c.sealb with clients := o.sealb.clients } }
  let c2 := keptD.foldl (keepWord o .dpll) c1
  let c3 := [SYN_RA_CTL, SYN_RA_SLEW].foldl (keepWord o .syn) c2
  let c4 := c3.put F.GNSS_POS_CTL_MODE (o.cur F.GNSS_POS_CTL_MODE)
  let c5 := c4.put F.GNSS_JAM_CFG_FLOOR (o.cur F.GNSS_JAM_CFG_FLOOR)
  let c6 := (c5.put F.SEAL_CT_STAT_USED (o.cur F.SEAL_CT_STAT_USED)).put F.SEAL_GRANT_USED_USED (o.cur F.SEAL_GRANT_USED_USED)
  { c6 with effs := o.effs }

/-! ### Applying an image (R323) -/

/-- A register record of an image, written by the loader. Under CARRY the bits that are kept stay. -/
def applyRec (carry : Bool) (b : KB) (c : Channel) (r : Bytes) : Channel :=
  let off := leAt r 0 4
  let m := if carry then carryMask b off else 0#32
  if m = 0xFFFFFFFF#32 then c
  else (c.writeReg ⟨.policy (some c.ix) (kbNum b), true⟩ b off ((leWordAt r 1 &&& ~~~m) ||| (c.word b off &&& m))).2

/-- A gate list written to the admin bank of its port, with A_LEN, A_CYCLE, A_BASE, GLEAD and GATE_EN (R315). -/
def applyGates (c : Channel) (g : Bytes × List Bytes) : Channel :=
  let p : PortIx := Fin.ofNat 2 (leAt g.1 0 1)
  let q := p.val
  let bank := c.adminBank p
  let c1 := g.2.zipIdx.foldl (fun c e =>
    ((c.setWord .sched (SCHED_GCL_MASK_LO q bank e.2) (leWordAt e.1 0)).setWord .sched (SCHED_GCL_MASK_HI q bank e.2) (leWordAt e.1 1)).setWord
      .sched (SCHED_GCL_INT q bank e.2) (leWordAt e.1 2)) c
  let c2 := ((c1.put (F.SCHED_P_GCMD_A_LEN q) (leAt g.1 2 2)).put (F.SCHED_P_A_CYCLE_CYCLE q) (leAt g.1 4 4))
  let c3 := c2.putGt .sched (SCHED_P_A_BASE q) (signed 128 (leAt g.1 8 16))
  (c3.put (F.SCHED_P_GCFG_GLEAD q) (leAt g.1 24 2)).put (F.SCHED_P_GCFG_GATE_EN q) 1

/-- The control registers in the order of the commits, with the section TYPE that RECIDX names (R323, R319). -/
def commitOrder : List (KB × Nat × Nat) :=
  [(.ref, REF_CTL, 0x10), (.dpll, DPLL_CTL, 0x11), (.syn, SYN_CTL, 0x12), (.gnss, GNSS_CTL, 0x13), (.port, PORT_CTL, 0x14),
   (.sched, SCHED_CTL, 0x16), (.sealb, SEAL_CTL, 0x15), (.chctl, CHCTL_B_CTL, 0x17)]

/-- The image applied to a channel that is reset: the channel, or the section TYPE whose commit or swap is not accepted. `carry` as R325
has it; `rack` keeps the client table of the twin's stream (R272). -/
def applyImage (c0 : Channel) (i : Img) (carry : Bool) : Nat ⊕ Channel :=
  let c1 := { c0 with topo := i.topo, ref := RefSt.reset i.lanes }
  -- the image's RA_SLEW, or its reset value, applies from RUN
  let c2 := c1.setWord .syn SYN_RA_SLEW (kbRst .syn SYN_RA_SLEW)
  let c3 := Img.regSecs.foldl (fun c s => (i.recs s.1 8).foldl (applyRec carry s.2) c) c2
  let gs := i.gates.getD []
  let c4 := gs.foldl applyGates { c3 with
    sched := { c3.sched with pol := i.policers c3.jour.tick }, sealb := { c3.sealb with classes := i.classes, masters := i.masters } }
  let step (a : Nat ⊕ Channel) (k : KB × Nat × Nat) : Nat ⊕ Channel :=
    match a with
    | .inl e => .inl e
    | .inr c =>
      if !c.hasPart k.1 k.2.1 then .inr c
      else
        let d := c.commit k.1
        if bit (d.word k.1 k.2.1) 30 then .inl k.2.2 else .inr d
  match commitOrder.foldl step (.inr c4) with
  | .inl e => .inl e
  | .inr c5 =>
    let c6 := commitOrder.foldl (fun c k => if c.hasPart k.1 k.2.1 then c.setWord k.1 k.2.1 (putField (c.word k.1 k.2.1) 29 1 1) else c) c5
    gs.foldl (fun a g => match a with
      | .inl e => .inl e
      | .inr c =>
        let r := c.gateSwap (Fin.ofNat 2 (leAt g.1 0 1))
        if r.1 then .inr r.2 else .inl 0x23) (.inr (({ c6 with regs := c6.regs.endTick }.fillShapers).ask .keys))

end Channel

namespace State

/-! ### Vintages (R270, R271) -/

/-- The measurement of an image (R318), 0 for none. -/
def measOf (bs : Bytes) : Bytes := if bs.isEmpty then List.replicate 48 0 else Img.meas ⟨bs⟩

/-- The vintage of a channel at this tick. -/
def vintageOf (s : State) (n : ChanIx) : Vintage :=
  let c := s.ch[n]
  ⟨n, c.jour.tick, c.jour.jseq, s.fuse.devid, s.img[n].runMeas, s.gcur F.TWIN_EPOCH_EPOCH, { c with effs := [] }⟩

/-- The most bytes of a vintage in one VINT frame (R282). -/
def VINT_PART : Nat := 2040

/-- A vintage sent to the twin in VINT frames, numbered by VSEQ. -/
def streamVintage (s : State) (n : ChanIx) (v : Vintage) : State :=
  if !s.streaming then s
  else
    let bs := v.bytes
    let part (s : State) (k : Nat) : State :=
      s.twinSend 0x02 n.val (leBytes 4 s.twin.vseq ++ leBytes 4 (VINT_PART * k) ++ leBytes 8 0 ++ (bs.drop (VINT_PART * k)).take VINT_PART)
    let s1 := (upTo (ceilDiv bs.length VINT_PART)).foldl part s
    { s1 with twin := { s1.twin with vseq := (s1.twin.vseq + 1) % 2 ^ 32 } }

/-- A vintage written by a serving unit: to the non-volatile ring, to the twin, and noted in the journal. -/
def writeVintage (s : State) (n : ChanIx) : State :=
  if !s.serving || !s.running n then s
  else
    let v := s.vintageOf n
    let k := s.twin.nvNext
    let t := s.twin
    let s1 := { s.wearOn 3 with twin := { t with
      nvRing := (k, v) :: t.nvRing.filter (fun e => e.1 != k), nvNext := (k + 1) % 16,
      vintAt := t.vintAt.set n (some (sar s.ch[n].now 64)) } }
    let s2 := s1.setCh n (s1.ch[n].journal (.vint k v.jseq))
    s2.streamVintage n v

/-! ### Held and staged images (R321, R322, R333) -/

/-- A measurement shown in twelve words. -/
def putMeas (s : State) (off : Nat) (m : Bytes) : State := (upTo 12).foldl (fun s k => s.gsetWord .image (off + 4 * k) (leWordAt m k)) s

def setHeld (s : State) (n : ChanIx) (h : Option Bool) : State :=
  let s1 := s.updImg n (fun i => { i with held := h })
  let s2 := s1.gput (F.IMAGE_CH_STAT_HELD n.val) (match h with | some b => b2n b | none => 0)
  s2.putMeas (IMAGE_MEAS_CH n.val 0) (match h with | some b => measOf (s.storeSlot n b) | none => List.replicate 48 0)

def setStaged (s : State) (n : ChanIx) (b : Bool) : State :=
  let s1 := (s.updImg n (fun i => { i with staged := b })).gput (F.IMAGE_CH_STAT_STAGED n.val) (b2n b)
  s1.putMeas (IMAGE_MEAS_STG n.val 0) (if b then measOf (s.storeSlot n (!(s.img[n].held.getD false))) else List.replicate 48 0)

/-- The slot that a load writes: the one that does not hold the held image. -/
def otherSlot (s : State) (n : ChanIx) : Bool := match s.img[n].held with | some h => !h | none => true

/-- An image read into the other slot; a staged image there is gone. -/
def storeImage (s : State) (n : ChanIx) (bs : Bytes) : State :=
  if bs.length > IMG_MAX then s
  else
    let o := s.otherSlot n
    (s.updImg n (fun i => if o then { i with slot1 := bs } else { i with slot0 := bs })).setStaged n false

/-! ### Loads -/

def setPhase (s : State) (n : ChanIx) (ph : Nat) : State :=
  ((s.gput F.IMAGE_STAT_BUSY 1).gput F.IMAGE_STAT_PHASE ph).gput F.IMAGE_STAT_TARGET (8 + n.val)

/-- The bytes that a load applies. -/
def loadBytes (s : State) (n : ChanIx) (j : LoadJob) : Bytes := if j.fresh && j.image.length > IMG_MAX then j.image else s.storeSlot n j.storeSlot

/-- A load that has ended; a load that waits for it takes its place. -/
def endJob (s : State) (n : ChanIx) : State :=
  (s.updImg n (fun i => { i with job := i.after, after := none, kept := none })).imgIdle

/-- A load's command ends with a RESULT. -/
def endLoadCmd (s : State) (j : LoadJob) (res : Nat) : State :=
  match j.slot with
  | some k => s.endCmd k res (s.gword .image IMAGE_STAT).toNat
  | none => s

/-- A channel that a racking was to bring up falls out of it. -/
def dropRack (s : State) (n : ChanIx) : State :=
  { s with twin := { s.twin with rack := s.twin.rack.map (fun r => { r with chans := r.chans.filter (fun k => k != n), failed := r.failed || r.chans.contains n }) } }

/-- A load that fails a check, or that is given up, before RECONFIG (R319, R321, R326). -/
def failCheck (s : State) (n : ChanIx) (j : LoadJob) (e : Nat × Nat) : State :=
  let s1 := ((s.gput F.IMAGE_STAT_ERR e.1).gput F.IMAGE_STAT_RECIDX e.2).endJob n
  let s2 :=
    if !j.fresh then
      let t := s1.setHeld n none
      if t.running n then t else ((t.setChSt n CH_EMPTY).powerDown n).dropRack n
    else if !s1.running n && j.mode ≠ 0 then s1.powerDown n
    else s1
  (s2.gevt F.IMAGE_EVT_FAIL).endLoadCmd j RES_OP_ERROR

/-- Checks 1 to 9 of a load. -/
def loadCheck (s : State) (n : ChanIx) : State :=
  match s.img[n].job with
  | none => s
  | some j =>
    if j.checked then s
    else match s.imageErr (s.loadBytes n j) (some n) with
      | some e => (s.setPhase n 2).failCheck n j e
      | none => (s.updImg n (fun i => { i with job := some { j with checked := true } })).setPhase n 2

/-- Whether the load's command is SUSPENDED. -/
def loadHalted (s : State) (j : LoadJob) : Bool := match j.slot with | some k => s.cmdState k == CS_SUSPENDED | none => false

/-- RECONFIG entry (R323, R325): the blocks are reset, but for what CARRY keeps; the channel tick count restarts. -/
def enterReconfig (s : State) (n : ChanIx) : State :=
  match s.img[n].job with
  | none => s
  | some j =>
    if !j.checked || j.mode == 0 || s.loadHalted j || s.chSt n == CH_RECONFIG || s.img[n].pwr ≠ .on then s
    else
      let i : Img := ⟨s.loadBytes n j⟩
      let carry := j.carry && i.carryOk && s.running n
      let kept := if carry then some (s.ch[n].teb, s.ch[n].now) else none
      let s1 := s.setChSt n CH_RECONFIG
      let old := s1.ch[n]
      let c := { Channel.reset n old.topo false false old.freeCtr with effs := old.effs }
      let c1 := if carry then Channel.carryFrom old c
        else if j.rack then { c with sealb := { c.sealb with clients := old.sealb.clients } } else c
      ((s1.setCh n c1).updImg n (fun i => { i with kept := kept })).setPhase n 3

/-- A floor raised by an image (R320). -/
def raiseFloor (s : State) (org : Origin) (i : Img) : State :=
  let f := if i.target = 0 then F.IMAGE_SVN_CMN_FLOOR else F.IMAGE_SVN_CH_FLOOR
  let old := s.gcur f
  if i.raiseFloor && decide (old < i.svn) then
    (((s.wearOn 6).gput f i.svn).gevt F.IMAGE_EVT_FLOOR).bookSt org (gReg .image f.off) (BitVec.ofNat 32 old) (BitVec.ofNat 32 i.svn)
  else s

/-- The REACT fields and marks of a channel image's POLICY (R316, R367). -/
def applyPolicy (s : State) (n : ChanIx) (i : Img) : State :=
  let b := 128 + 96 * n.val
  let s1 := (upTo 96).foldl (fun s k => s.gput (F.FAULT_SRC_CFG_REACT (b + k)) ((srcReact (b + k)).getD 0)) s
  (i.recs 0x30 16).foldl (fun s r =>
    if leAt r 0 1 = 2 ∧ (srcReact (b + leAt r 4 4)).isSome then s.gput (F.FAULT_SRC_CFG_REACT (b + leAt r 4 4)) (leAt r 8 4) else s) s1

/-- The GRANT_USED and CT_STAT of a kept client table. -/
def recount (c : Channel) : Channel :=
  let used := (c.sealb.clients.map (fun e => rateOf e.2)).sum
  (c.put F.SEAL_CT_STAT_USED c.sealb.clients.length).put F.SEAL_GRANT_USED_USED used
where rateOf (e : Client) : Nat := Channel.rateOf e.sync + Channel.rateOf e.dresp + Channel.rateOf e.ann

/-- RUN (R323 step 6, R325): the image that `c` carries is in force. -/
def goRun (s : State) (n : ChanIx) (j : LoadJob) (i : Img) (c : Channel) : State :=
  let kept := s.img[n].kept
  let s1 := (s.applyPolicy n i).setChSt n CH_RUN
  let c1 := { c with drive := s.gflag F.TWIN_STAT_DRIVE && !s.safe, safe := s.safe }
  let c2 := match kept with
    | some (h, t) => if c1.dpll.hoValid then c1.enterHo t h else c1
    | none => if j.rack then recount c1 else c1
  let c3 := (c2.put F.CHCTL_IMG_CARRIED (b2n kept.isSome)).put F.CHCTL_IMG_SLOT (b2n j.storeSlot)
  let s2 := s1.setCh n (Channel.settle c1 c3)
  let s3 := (s2.gput (F.IMAGE_CH_STAT_CARRIED n.val) (b2n kept.isSome)).gput (F.IMAGE_FWVER_FWVER n.val) i.fwVer
  let s4 := s3.updImg n (fun x => { x with runMeas := i.meas })
  -- a CHMIX slot whose value changes acts as one that is replaced (R336)
  if s4.vault.mix[n] == i.meas then s4
  else { s4 with vault := { s4.vault with mix := s4.vault.mix.set n i.meas } }.revokeKeys
    ((upTo 256).filter (fun k => attrKind (s.vslot k).attr == 0 && attrChmix (s.vslot k).attr && attrCh (s.vslot k).attr == n))

/-- The end of the apply (R323, R326, R331): RUN, the previous image again, or EMPTY. -/
def applyComplete (s : State) (n : ChanIx) : State :=
  match s.img[n].job with
  | none => s
  | some j =>
    if s.chSt n ≠ CH_RECONFIG then s
    else
      let i : Img := ⟨s.loadBytes n j⟩
      match s.ch[n].applyImage i s.img[n].kept.isSome with
      | .inr c =>
        let prev := leWordAt s.img[n].runMeas 0
        let s1 := s.goRun n j i c
        if j.fallback then
          -- the previous image, put into force anew (R23, R395)
          let s2 := s1.book1 ⟨j.org, 0x02, 0x1000000 * (n.val + 1), prev, leWordAt i.meas 0⟩
          ((s2.endJob n).gevt F.IMAGE_EVT_FAIL).endLoadCmd j RES_OP_ERROR
        else
          let s2 := if j.fresh then (s1.setHeld n (some j.storeSlot)).setStaged n false else s1
          let s3 := (((s2.gput F.IMAGE_STAT_ERR 0).gput F.IMAGE_STAT_RECIDX 0).gbump (F.IMAGE_CH_STAT_LOADS n.val)).gevt F.IMAGE_EVT_DONE
          let s4 := s3.book1 ⟨j.org, 0x02, 0x1000000 * (n.val + 1), prev, leWordAt i.meas 0⟩
          let s5 := (s4.raiseFloor j.org i).endJob n
          (s5.writeVintage n).endLoadCmd j RES_OK
      | .inl ty =>
        let s0 := if j.fallback then s else (s.gput F.IMAGE_STAT_ERR IE_COMMIT).gput F.IMAGE_STAT_RECIDX ty
        match (if j.fallback then none else s.img[n].held) with
        | some h =>
          let j1 := { j with fallback := true, fresh := false, image := [], storeSlot := h }
          ((s0.updImg n (fun x => { x with job := some j1 })).gevt F.IMAGE_EVT_FALLBACK).setPhase n 4
        | none => (((((s0.endJob n).setChSt n CH_EMPTY).dropRack n)).gevt F.IMAGE_EVT_FAIL).endLoadCmd j RES_OP_ERROR

/-- A STAGE load on its image (R322): the new slot is held where the channel is not in RUN, else staged. -/
def stageImage (s : State) (n : ChanIx) (j : LoadJob) : State :=
  match s.imageErr (s.loadBytes n j) (some n) with
  | some e => s.failCheck n j e
  | none =>
    let s1 := if s.running n then s.setStaged n true else (s.setHeld n (some j.storeSlot)).setStaged n false
    let s2 := (((s1.gput F.IMAGE_STAT_ERR 0).gput F.IMAGE_STAT_RECIDX 0).endJob n).gevt F.IMAGE_EVT_DONE
    s2.endLoadCmd j RES_OK

/-! ### GATE, UNGATE, RESET (R326, R333) -/

/-- A channel's volatile state is lost with its power; the DRAM slice keeps the client table. -/
def unpowered (c : Channel) : Channel :=
  { Channel.reset c.ix c.topo false false c.freeCtr with effs := c.effs, sealb := { SealBlk.reset with clients := c.sealb.clients } }

/-- GATE: the channel is GATED and powered down; its load ends, and an image that passed its checks is held. -/
def gateCh (s : State) (n : ChanIx) : State :=
  let job := s.img[n].job
  let held := job.bind (fun j => if j.checked && j.fresh then some j.storeSlot else none)
  let runLoad := job.any (fun j => j.mode != 0)
  if s.chSt n = CH_GATED then
    let s1 := if runLoad then s.stopLoad n (some IE_GATED) RES_OP_ERROR else s
    (s1.updImg n (fun i => { i with waitUngate := false })).powerDown n
  else
    let s1 := s.stopLoad n (some IE_GATED) RES_OP_ERROR
    let s2 := match held with | some h => (s1.setHeld n (some h)).setStaged n false | none => s1
    let s3 := s2.setChSt n CH_GATED
    (s3.setCh n (unpowered s3.ch[n])).powerDown n

/-- UNGATE of a GATED channel: power-up, then the RUN load of the held image; EMPTY without one. -/
def ungateCh (s : State) (n : ChanIx) (org : Origin) (rack : Bool) : State :=
  if s.chSt n ≠ CH_GATED then s
  else match s.img[n].held with
    | none => s.setChSt n CH_EMPTY
    | some _ => if s.img[n].job.isSome then s else ((s.loadHeld n org false rack).updImg n (fun i => { i with waitGate := false })).powerUp n

/-- A write of CHn_CTL: the value, by a host path. More than one bit is ignored. -/
def chCtl (s : State) (n : ChanIx) (org : Origin) (v : Word) : Bool × State :=
  match bit v 31, bit v 30, bit v 29 with
  | true, false, false => (true, s.gateCh n)
  | false, true, false => (s.chSt n == CH_GATED, s.ungateCh n org false)
  | false, false, true => if s.running n && s.img[n].held.isSome then (true, s.loadHeld n org false false) else (false, s)
  | _, _, _ => (false, s)

end State
end Sys2Proof.Machine
end

