-- ==== Sys2Proof/Machine/RackOps.lean ====
section
/-! DEFINITION. Replay of the journal (R144, R145), and what a racked channel takes from a vintage (R270, R272 to R274). -/
namespace Sys2Proof.Machine

namespace Channel

/-! ### Replay -/

/-- What a tick of the REF and DPLL blocks does by itself, in its order (R32, R81, R127): a relative step, the lanes' timers, the servos'
applications, an ABS step, the state events. -/
def tickPart (c : Channel) : Nat → Channel
  | 0 => c.stepDue
  | 1 => allLanes.foldl (fun c n => (((c.missExpiry n).windowExpiry n).wtrExpiry n).dqExpiry n) c
  | 2 => c.applyAll
  | 3 => c.stepAbs
  | 4 => (c.acquireStart.holdoverEntry.limitEntry.hoAging).charSample
  | _ => c

/-- A channel in the middle of a replayed tick: how many parts of the tick it has done. -/
def toPart (n : Nat) (x : Channel × Nat) : Channel × Nat := ((List.range' x.2 (n - x.2)).foldl tickPart x.1, max n x.2)

/-- The rest of a tick (R81, R127): its parts, the contests and the selector, the advance. -/
def replayTick (x : Channel × Nat) : Channel × Nat := ((toPart 5 x).1.refEval.advance, 0)

/-- The blocks run tick by tick up to a channel tick. -/
def replayTo (tick : Nat) (x : Channel × Nat) : Channel × Nat := iter replayTick (tick - x.1.jour.tick) x

/-- The parts of the tick done until the journal stands just before entry `j`. -/
def toSeq (j : Nat) : Nat → Channel × Nat → Channel × Nat
  | 0, x => x
  | n + 1, x => if j ≤ x.1.jour.jseq + 1 then x else toSeq j n (toPart (x.2 + 1) x)

/-- A writer whose cellar book origin has a code (R396). -/
def codeOrg (code : Nat) : Origin := if code = 1 then .pcie 0 else if code = 2 then .mspi else .policy none 0

/-- The block and offset of a REF or DPLL register by its WIN_REG offset. -/
def cmdReg (off : Nat) : Option (KB × Nat) :=
  let o := off % 0x1000000
  [KB.ref, .dpll].findSome? (fun b => if kbBase b ≤ o ∧ o < kbBase b + 0x100000 then some (b, o - kbBase b) else none)

/-- Whether an entry is an output that the replay compares (R144, step 5). -/
def isOutput : JBody → Bool
  | .cmd _ _ _ (some _) | .sel _ _ _ _ | .cancel _ _ | .lane _ _ _ _ _ | .servoA _ _ _ _ _ _ _ _ _ _ _ _ _ | .servoB _ _ _ _ | .state _ _ _ _ => true
  | _ => false

/-- The parts of a tick that come before an input (R81, R127): records come first, then the writes, STEP_CMD behind the applications,
COMMIT of the DPLL block behind the step. -/
def inputPart (c : Channel) : JBody → Nat
  | .meas _ => 0
  | .cmd off _ _ _ => if off = winReg c.ix .dpll DPLL_STEP_CMD then 3 else if off = winReg c.ix .dpll DPLL_CTL then 4 else 1
  | _ => 5

/-- An input of the replay put into the channel: MEAS, CMD and VINT. A step's own entry is an output. -/
def replayPut (c : Channel) : JBody → Channel
  | .meas r => c.registerRec c.syncIv { r with jseq := 0 }
  | .cmd off v org none =>
    if off = winReg c.ix .dpll DPLL_LRN_STAT then
      (if bit v 31 then c.charStart 64 (v.toNat % 65536) (codeOrg org) else c.charEnd (v.toNat / 65536 % 256))
    else match cmdReg off with
      | some (b, o) => (c.writeReg ⟨codeOrg org, false⟩ b o v).2
      | none => c
  | .vint slot j => c.journal (.vint slot j)
  | _ => c

/-- An entry that is an input, registered in the tick that its TICK names, after what the journal shows before it. An entry that the
replay has already produced is no input. -/
def replayIn (x : Channel × Nat) (e : JEntry) : Channel × Nat :=
  if e.jseq ≤ x.1.jour.jseq || isOutput e.body then x
  else
    let y := toSeq e.jseq 5 (toPart (x.1.inputPart e.body) (replayTo e.tick x))
    (y.1.replayPut e.body, y.2)

/-- The entries that follow a JSEQ, oldest first, up to the first gap or the first whose CRC fails; the argument holds the received entries
in that order. -/
def following (j : Nat) : List JEntry → List JEntry
  | [] => []
  | e :: r =>
    if e.bad then []
    else if e.jseq = j + 1 then e :: following (j + 1) r else if e.jseq ≤ j then following j r else []

/-- The channel replayed from a vintage's state up to a channel tick, and whether every output agreed. The records that the peer had still
to register are inputs of its journal. -/
def replay (c : Channel) (es : List JEntry) (tick : Nat) : Bool × Channel :=
  let q := following c.jour.jseq es
  let c0 := { c with ref := { c.ref with measured := [], judged := [], wtrDone := [] } }
  let c2 := (toPart 1 (replayTo tick ((q.filter (·.commit)).foldl replayIn (c0, 0)))).1
  let agrees (e : JEntry) : Bool := !isOutput e.body || !e.commit || c2.jour.ring.any (fun x => x.jseq == e.jseq && x.tick == e.tick && x.body == e.body)
  (q.all agrees, { c2 with effs := c.effs })

/-! ### What a vintage gives -/

/-- The registers of a block as a vintage carries them, over those of the channel. -/
def vintRegs (v : Channel) (c : Channel) (b : KB) : Channel :=
  let f := c.rf b
  let g := v.rf b
  let keys := ((f.cur ++ f.use ++ g.cur ++ g.use).map Prod.fst).dedup
  let mix (mine its : Word) (o : Nat) : Word :=
    match findReg (kbRegs b) o with
    | some r => (its &&& vintMask r) ||| (mine &&& ~~~(vintMask r))
    | none => mine
  c.setRf b { f with
    cur := keys.foldl (fun m o => smPut (kbRst b o) m o (mix (smGet (kbRst b o) f.cur o) (smGet (kbRst b o) g.cur o) o)) f.cur,
    use := keys.foldl (fun m o => smPut (kbRst b o) m o (mix (smGet (kbRst b o) f.use o) (smGet (kbRst b o) g.use o) o)) f.use }

/-- The TS and GNSS sections of a vintage (R63, R270). -/
def vintTs (v : Channel) (c : Channel) : Channel := keepWord v .dpll { c with scale := v.scale } DPLL_TS_CFG
def vintGnss (v : Channel) (c : Channel) : Channel :=
  let c1 := { c with gnss := { c.gnss with pos := v.gnss.pos, nav := v.gnss.nav } }
  (c1.put F.GNSS_POS_CTL_MODE (v.cur F.GNSS_POS_CTL_MODE)).put F.GNSS_JAM_CFG_FLOOR (v.cur F.GNSS_JAM_CFG_FLOOR)

/-- WARM (R272): the TS and GNSS sections, and the HO and LRN values. -/
def rackWarm (c v : Channel) : Channel :=
  let ho : List Nat := [DPLL_HO_CEIL, DPLL_HO_A, DPLL_HO_B, DPLL_HO_C, DPLL_HO_AGE_LO, DPLL_HO_AGE_HI, DPLL_LRN_B, DPLL_LRN_C, DPLL_LRN_AGE 0,
    DPLL_LRN_AGE 1, DPLL_LRN_STAT]
  ho.foldl (keepWord v .dpll) (vintGnss v (vintTs v c))

/-- The bound gain of a racked channel (R273). -/
def rackGain (tdly tbud : Nat) : Bound := if tbud = SAT then satCap (ceilDiv (tdly * 2 ^ 40) (10 ^ 12)) else satAdd (satCap (tebOfPs tbud)) 2

/-- EXACT (R272 to R274): the vintage's state replayed to the mapped channel tick, `phi` ps added to the time, the bound widened. What
the vintage does not carry starts as the channel's registers now define. -/
def rackExact (c v : Channel) (es : List JEntry) (tick : Nat) (phi : Int) (gain : Bound) : Bool × Channel :=
  let r := ({ v with effs := c.effs }).replay es tick
  let x := r.2
  let move (k : SynK) : SynK := { k with acqTick := k.acqTick + x.jour.tick - c.jour.tick }
  let g := pointOfPs phi * 2 ^ 32
  let d := x.dpll
  let c1 := { c with
    ref := x.ref, scale := x.scale, jour := x.jour,
    dpll := { d with
      ctr := d.ctr + g, kCum := d.kCum + g, char := d.char.map (fun (o : CharOp) => { o with slot := 64 }),
      teb0 := if d.hoAct then d.teb0 else satAdd d.teb0 gain, tebH := if d.hoAct then satAdd d.tebH gain else d.tebH },
    syn := { c.syn with
      ots := x.syn.ots + g, ots0 := x.syn.ots + g, raFrom := x.syn.raFrom, raJump := x.syn.raJump, jumpOts := x.syn.jumpOts, pls := x.syn.pls,
      todSeq := x.syn.todSeq, k0 := move c.syn.k0, k1 := move c.syn.k1 },
    gnss := GnssBlk.reset,
    sched := {
      pol := c.sched.pol.map (fun (e : Nat × PolEntry) => (e.1, { e.2 with tc := e.2.cbs * 2 ^ 32, tp := e.2.pbs * 2 ^ 32, last := x.jour.tick })),
      ports := c.sched.ports.map (fun (q : SchedPort) => { SchedPort.reset with swap := q.swap, swapNext := q.swapNext }) },
    ports := Vector.replicate 2 .reset, ends := Vector.replicate 2 .reset, ens := Vector.replicate 2 .reset, tprev := none,
    pmu := { c.pmu with bwFrom := x.jour.tick }, epi := ⟨none, none, false⟩, effs := c.effs }
  let c2 := (c1.setRf .ref (x.rf .ref)).setRf .dpll (x.rf .dpll)
  let c3 := [KB.syn, .gnss, .port, .sched, .sealb, .pmu, .chctl].foldl (vintRegs x) c2
  let c4 := [F.SYN_RA_CTL_ACT].foldl (fun c f => c.put f (x.cur f)) (vintGnss x c3)
  let start (c : Channel) (p : PortIx) : Channel := if c.link p = LK_DISABLED then c else c.linkRestart p
  (r.1, ([(0 : PortIx), 1].foldl start c4).fillShapers)

end Channel
end Sys2Proof.Machine
end

