-- ==== Sys2Proof/Machine/TwinOps.lean ====
section
/-! DEFINITION. The twin: claim, heartbeats, states, streaming, racking and the drill (R253 to R284). -/
namespace Sys2Proof.Machine

/-! Ticks of the common root: the miss timer (R265), a heartbeat period (R263), a claim round's period (R258), a second. -/
def MISS_TICKS : Nat := 160000
def HB_TICKS : Nat := 20000
def ROUND_TICKS : Nat := 2000
/-- The 35 bit times of a claim round. -/
def ROUND_LEN : Nat := 1400
def SEC_TICKS : Nat := 200000000

/-- The twin block as the origin of its own changes (R266). -/
def twinOrg : Origin := .policy none 6

/-- No vintage received so far makes the channel READY any more (R269). -/
def RxChan.spoil (r : RxChan) : RxChan := { r with vints := r.vints.map (fun x => { x with gap := true }) }

namespace State

def feedsOk (s : State) : Bool := s.gflag F.PWR_STAT_FEEDS_OK
def updTwin (s : State) (f : TwinSt → TwinSt) : State := { s with twin := f s.twin }
/-- A paired unit that has taken the Reset row. -/
def paired (s : State) : Bool := s.twin.role && s.twin.paired

/-! ### Claim (R256, R257, R260) -/

def claimWord (s : State) : Nat :=
  (s.gcur F.TWIN_EPOCH_EPOCH % 2 ^ 24) * 256 + s.gfld F.TWIN_CFG_PRIO * 2 + b2n s.twin.unitA

/-- The effective claim. -/
def effClaim (s : State) : Nat :=
  if s.safe || !s.paired then 0
  else if s.twst = TW_ACTIVE then s.claimWord
  else if (s.twst = TW_RACKING ∨ s.twst = TW_DRILL) ∧ s.twin.rack.any (·.claim) then s.claimWord else 0

/-- The epoch raised, in non-volatile memory and in the cellar book. -/
def raiseEpoch (s : State) : State :=
  let e := s.gcur F.TWIN_EPOCH_EPOCH
  let n := min 0xFFFFFF (max e s.twin.eSeen + 1)
  ((s.wearOn 6).gput F.TWIN_EPOCH_EPOCH n).bookSt twinOrg (gReg .twin TWIN_EPOCH) (BitVec.ofNat 32 e) (BitVec.ofNat 32 n)

def seeEpoch (s : State) (e : Nat) : State := s.updTwin (fun t => { t with eSeen := max t.eSeen e })

/-! ### READY (R269) -/

/-- The newest vintage that makes channel `n` READY. -/
def readyVint (s : State) (n : ChanIx) : Option Vintage :=
  let r := s.twin.rx[n]
  match s.img[n].held, r.cont with
  | some h, some k => (r.vints.find? (fun x => !x.gap && x.v.meas == measOf (s.storeSlot n h) && decide (k ≤ x.v.jseq + 1))).map (·.v)
  | _, _ => none

/-- Whether channel `n` is READY. -/
def ready (s : State) (n : ChanIx) : Bool := (s.readyVint n).isSome
def readyBits (s : State) : Nat := allChans.foldl (fun a n => a + b2n (s.ready n) * 2 ^ n.val) 0
def runBits (s : State) : Nat := allChans.foldl (fun a n => a + b2n (s.running n) * 2 ^ n.val) 0

/-- A RESYNC frame for channel `n` (R269). -/
def sendResync (s : State) (n : ChanIx) (what : Nat) : State :=
  match s.twinLane n.val with
  | some _ => (s.gbump F.TWIN_CNT2_RESYNC).twinSend 0x06 n.val (leBytes 1 what ++ leBytes 3 0)
  | none => s

/-- TWIN.STAT as it reads: FEEDS_OK and READY are those of this tick. -/
def twinStatWord (s : State) : Word :=
  putField (putField (s.gword .twin TWIN_STAT) 18 1 (b2n s.feedsOk)) 12 4 s.readyBits

/-! ### State changes (R266) -/

def setPath (s : State) (b : Bool) (v : Nat) : State :=
  let f := if b then F.TWIN_STAT_PATH_B else F.TWIN_STAT_PATH_A
  if s.gcur f = v then s else (s.gput f v).gevt F.TWIN_EVT_PATH

/-- Every path UNHEARD. -/
def pathsUnheard (s : State) : State :=
  ((s.setPath false 0).setPath true 0).updTwin (fun t => { t with lastA := none, lastB := none, declared := false })

/-- The operation of a drill ends. -/
def endDrill (s : State) (res : Nat) : State :=
  match s.twin.drill with
  | none => s
  | some d =>
    let s1 := s.updTwin (fun t => { t with drill := none })
    if res = RES_OK then (s1.updTally (fun r => { r with drills := satCount r.drills })).endCmd d.slot res 0 else s1.endCmd d.slot res 0

/-- A change of the twin state with its entry. A unit that leaves ACTIVE clears PEER_LOST and ends a drill not yet requested. -/
def twinTo (s : State) (st : Nat) (org : Origin) : State :=
  if s.twst = st then s
  else
    let old := s.twinStatWord
    let leave := s.twst == TW_ACTIVE
    let s1 := s.gput F.TWIN_STAT_STATE st
    let s2 := if leave then s1.gput F.TWIN_STAT_PEER_LOST 0 else s1
    let s3 := (s2.gevt F.TWIN_EVT_STATE).bookSt org (gReg .twin TWIN_STAT) old s2.twinStatWord
    if leave && s3.twin.drill.any (fun d => !d.sent) then s3.endDrill RES_STATE else s3

/-- Entry to STANDBY_COLD or FENCED of a unit that stood in another state: paths UNHEARD, the drive right released, channels gated. -/
def coldEntry (s : State) (st : Nat) (org : Origin) : State :=
  let s1 := (s.updTwin (fun t => { t with rack := none })).setDrive false
  let s2 := (s1.twinTo st org).pathsUnheard
  allChans.foldl (fun s n => s.gateCh n) s2

/-- The channels start from their images, with the twin's origin (R323). -/
def startChannels (s : State) (ns : List ChanIx) (rack : Bool) : State :=
  ns.foldl (fun s n => s.ungateCh n (.twin !s.twin.unitA) rack) s

/-- Racking begins (R272): the channels that the peer ran, or every held one when none has been heard. -/
def startRack (s : State) (t0 : Nat) (drill : Bool) : State :=
  let holds (n : ChanIx) : Bool := s.img[n].held.isSome
  let ns := allChans.filter (fun n => holds n && (!s.twin.heard || s.gcur F.TWIN_STAT_PEER_RUN / 2 ^ n.val % 2 == 1))
  let s1 := (s.gput F.TWIN_RACK_STAT_RES 0).updTwin (fun t => { t with rack := some ⟨t0, drill, ns, [], false, [], none, false⟩ })
  s1.startChannels ns true

/-- STANDBY_COLD to RACKING. -/
def goRacking (s : State) (t0 : Nat) : State :=
  let s1 := (s.gput F.TWIN_STAT_RACK_WAIT 0).updTwin (fun t => { t with waitAt := none })
  ((s1.twinTo TW_RACKING twinOrg).raiseEpoch).startRack t0 false

/-- RACK_WAIT set at this tick, or kept since an earlier one. -/
def rackWait (s : State) : State :=
  ((s.gput F.TWIN_STAT_RACK_WAIT 1).gevt F.TWIN_EVT_RACK_WAIT).updTwin (fun t => { t with waitAt := some (t.waitAt.getD s.tick) })

/-- The code of the first racked channel whose result is not EXACT: REASON of a refuse (R282). -/
def rackReason (s : State) : Nat :=
  let r := s.gcur F.TWIN_RACK_STAT_RES
  ((upTo 4).map (fun n => r / 16 ^ n % 16)).find? (fun v => v != 0 && v != 1) |>.getD 0

/-- A DRILL frame: 1 request, 2 accept, 3 refuse. -/
def sendDrill (s : State) (op reason : Nat) : State := s.twinSend 0x07 0xFF (leBytes 1 op ++ leBytes 1 reason ++ leBytes 2 0)

/-- The drill check fails (R278). -/
def drillFail (s : State) : State :=
  if s.twst ≠ TW_DRILL ∨ s.safe then s
  else
    let s1 := (s.sendDrill 3 s.rackReason).gevt F.TWIN_EVT_DRILL_FAIL
    (s1.updTally (fun r => { r with drillFail := satCount r.drillFail })).coldEntry TW_STANDBY twinOrg

/-- What a serving unit has received counts no more toward READY; its DRAM keeps the bytes. -/
def dropStream (s : State) : State :=
  s.updTwin (fun t => { t with rx := t.rx.map (fun r => { RxChan.reset with next := r.next, slots := r.slots }) })

/-- RACKING or DRILL to ACTIVE: RACK_T and the tally's counts (R414). -/
def rackWon (s : State) : State :=
  let s1 := match s.twin.rack with
    | none => s
    | some r =>
      let us := (s.tick - r.t0) / 200
      let res := s.gcur F.TWIN_RACK_STAT_RES
      let count (t : TallyRec) : TallyRec := (upTo 4).foldl (fun t n =>
        let v := res / 16 ^ n % 16
        if v = 0 then t else { t with rackRes := bucketInc t.rackRes (v - 1) }) { t with rackT := bucketInc t.rackT (rackBucket us) }
      (s.gput F.TWIN_RACK_T_T (min 0xFFFFFFFF us)).updTally count
  ((s1.dropStream).updTwin (fun t => { t with rack := none })).twinTo TW_ACTIVE twinOrg

/-- STANDBY_COLD to ACTIVE at the end of the boot wait. -/
def bootActive (s : State) : State :=
  (((s.twinTo TW_ACTIVE twinOrg).raiseEpoch).dropStream).startChannels allChans false

/-! ### Declaration and feeds (R265, R266) -/

/-- Step 6 of R267: a declaration whose condition holds, and what it does. -/
def declare (s : State) : State :=
  let a := s.gcur F.TWIN_STAT_PATH_A
  let b := s.gcur F.TWIN_STAT_PATH_B
  if s.twin.declared || a == 1 || b == 1 || !(a == 2 || b == 2) || !s.paired then s
  else
    let s1 := (s.updTwin (fun t => { t with declared := true })).gevt F.TWIN_EVT_DECLARE
    if s1.safe then s1
    else if s1.twst = TW_STANDBY then (if s1.feedsOk then s1.goRacking s1.tick else s1.rackWait)
    else if s1.twst = TW_DRILL then
      ((s1.twinTo TW_RACKING twinOrg).raiseEpoch).updTwin (fun t => { t with rack := t.rack.map (fun r => { r with drill := false }) })
    else if s1.twst = TW_ACTIVE then (s1.gput F.TWIN_STAT_PEER_LOST 1).gevt F.TWIN_EVT_PEER_LOST
    else s1

/-- FEEDS_OK has become true. -/
def feedsRise (s : State) : State :=
  if s.paired && !s.safe && s.twst == TW_STANDBY && s.gflag F.TWIN_STAT_RACK_WAIT then s.goRacking (s.twin.waitAt.getD s.tick) else s

/-- The miss timer of a path expires. -/
def missExpire (s : State) (b : Bool) : State :=
  let last := if b then s.twin.lastB else s.twin.lastA
  match last with
  | some t => if t + MISS_TICKS ≤ s.tick then (s.setPath b 2).declare else s
  | none => s

def bootExpire (s : State) : State :=
  match s.twin.bootAt with
  | none => s
  | some t =>
    if s.tick < t then s
    else
      let s1 := s.updTwin (fun x => { x with bootAt := none })
      if s1.safe || s1.twst != TW_STANDBY then s1
      else if s1.feedsOk then s1.bootActive else s1.rackWait

/-! ### FENCE and UNFENCE -/

def fence (s : State) (org : Origin) : State :=
  if !s.paired || s.safe || s.twst == TW_FENCED then s else s.coldEntry TW_FENCED org
def unfence (s : State) (org : Origin) : State :=
  if !s.paired || s.safe || s.twst != TW_FENCED then s else (s.twinTo TW_STANDBY org).pathsUnheard

/-! ### The Reset row (R255, R266, R441) -/

def twinReset (s : State) : State :=
  let p := s.gflag F.TWIN_CFG_PAIR
  let u := s.gflag F.TWIN_CFG_UNIT
  let s1 := s.updTwin (fun t => { t with role := true, paired := p, unitA := u })
  if p then s1.updTwin (fun t => { t with bootAt := some (s.tick + s.gfld F.TWIN_CFG_BOOT_WAIT * 20000000 * (if u then 1 else 2)) })
  else if s1.safe then s1.twinTo TW_ALONE twinOrg else (s1.twinTo TW_ALONE twinOrg).setDrive true

/-! ### Claim rounds (R258, R259, R261, R262) -/

/-- Whether a round is in progress. -/
def roundOn (s : State) : Bool := s.twin.inRound.isSome && decide (s.tick < s.twin.roundAt.getD 0 + ROUND_LEN)

/-- A round begins: the round timer has expired, or a falling edge was seen. -/
def roundStart (s : State) (fell : Bool) : State :=
  let due := match s.twin.roundAt with | some t => decide (t + ROUND_TICKS ≤ s.tick) | none => true
  if !s.paired || s.roundOn || !(fell || (due && !s.safe)) then s
  else
    let w := s.effClaim
    let s1 := s.updTwin (fun t => { t with roundAt := some s.tick, inRound := some w })
    if s.safe then s1 else s1.emit (.claimStart (BitVec.ofNat 32 w))

/-- CLAIM_BAD set or, after 16 good rounds, cleared. -/
def claimBad (s : State) (bad : Bool) : State :=
  if bad then
    let s1 := s.updTwin (fun t => { t with goodRounds := 0 })
    if s.gflag F.TWIN_STAT_CLAIM_BAD then s1 else ((s1.gput F.TWIN_STAT_CLAIM_BAD 1).gevt F.TWIN_EVT_CLAIM_BAD).detect 64
  else
    let s1 := s.updTwin (fun t => { t with goodRounds := t.goodRounds + 1 })
    if s.gflag F.TWIN_STAT_CLAIM_BAD && decide (16 ≤ s1.twin.goodRounds) then
      s1.gput F.TWIN_STAT_CLAIM_BAD 0
    else s1

/-- What the end of a round does outside the safe state (R259, R266): LOST, the drive right, the twin state. -/
def roundSettle (s1 : State) (mine w : Nat) (won : Bool) : State :=
  let lost := mine != 0 && !won
  let s2 := if lost then s1.gbump F.TWIN_CNT2_LOST else s1
  let bad := s2.gflag F.TWIN_STAT_CLAIM_BAD
  let s3 := (s2.setDrive (won || (bad && mine != 0 && !s2.twin.noDrive))).updTwin (fun t => { t with noDrive := t.noDrive && bad && !won })
  let st := s3.twst
  if (st = TW_RACKING ∨ st = TW_DRILL) ∧ won then s3.rackWon
  else if (st = TW_RACKING ∨ st = TW_DRILL) ∧ lost ∧ mine < w then s3.coldEntry TW_STANDBY twinOrg
  else if st = TW_ACTIVE ∧ lost ∧ ¬ bad then
    let s4 := if s3.twin.drill.any (·.sent) then s3.endDrill RES_OK else s3
    s4.coldEntry TW_STANDBY twinOrg
  else s3

/-- The round in progress ends with the winning word `w`, 35 bit times after its start. `stuck` says that CLAIM_IO stayed dominant for the
whole round period, `noStart` that it was sampled recessive in the start bit. The unit drove a dominant claim bit and sampled it recessive
where its claim exceeds W, for it sends its claim up to the first bit in which W exceeds it. -/
def roundEnd (s : State) (w : Nat) (stuck noStart : Bool) : State :=
  match s.twin.inRound, s.twin.roundAt with
  | some sent, some t0 =>
    if s.tick ≠ t0 + ROUND_LEN then s
    else
      let s0 := ((s.updTwin (fun t => { t with inRound := none })).gput F.TWIN_ROUND_W w).seeEpoch (w / 256 % 2 ^ 24)
      -- a claim that dropped in the round wins nothing
      let mine := if s0.effClaim = sent then sent else 0
      let won := mine != 0 && mine == w
      let topped := s0.twin.won && won && s0.twin.peerClaims.any (fun e => decide (mine < e.1))
      let s1 := (s0.updTwin (fun t => { t with won := won, peerClaims := t.peerClaims.filter (fun e => decide (t0 ≤ e.2)) })).claimBad
        (stuck || (noStart && !s0.safe) || decide (w < sent) || topped)
      if s1.safe then s1 else s1.roundSettle mine w won
  | _, _ => s

/-- Contention at an output of a driving unit (R262). -/
def contention (s : State) (n : ChanIx) : State :=
  if !s.gflag F.TWIN_STAT_DRIVE || !s.running n || s.safe then s
  else
    let s1 := ((s.gput F.TWIN_STAT_CONTEND 1).gevt F.TWIN_EVT_CONTEND).detect 65
    if s1.safe || !s1.paired || s1.twin.unitA then s1
    else
      let s2 := (s1.setDrive false).updTwin (fun t => { t with noDrive := s1.gflag F.TWIN_STAT_CLAIM_BAD })
      if s2.twst = TW_ACTIVE then s2.coldEntry TW_STANDBY twinOrg else s2

/-! ### Heartbeats (R263 to R265, R274) -/

/-- CHOFFn: common tick minus channel tick (R282). -/
def choffOf (s : State) (n : ChanIx) : Int := (s.tick : Int) - s.ch[n].jour.tick

/-- The HB payload with its transmit stamp. -/
def hbPayload (s : State) (ps : Nat) : Bytes :=
  let e := s.twin.echo.getD (0, 0)
  leBytes 1 s.twst ++
    leBytes 1 (b2n s.twin.unitA + 2 * b2n (s.gflag F.TWIN_STAT_PEER_LOST) + 4 * b2n s.feedsOk + 8 * b2n (s.twin.drill.any (·.sent)) + 16 * s.runBits) ++
    leBytes 1 s.readyBits ++ leBytes 1 0 ++ leBytes 4 s.effClaim ++ leBytes 8 (linkStamp s.tick ps) ++ leBytes 8 e.1 ++ leBytes 8 e.2 ++
    allChans.flatMap (fun n => leBytes 8 (unsigned 64 (s.choffOf n)))

/-- The path-B word (R264). -/
def hbWordOf (s : State) : Word :=
  let hd := 0xB7 * 2 ^ 16 + (s.twst * 32 + b2n s.twin.unitA * 16 + s.twin.hbSeq % 16) * 256 + s.gcur F.TWIN_EPOCH_EPOCH % 256
  BitVec.ofNat 32 (hd * 256 + crc8 (beBytes 3 hd))

/-- Whether a heartbeat is due: every 100 µs from the first (R263). -/
def hbDue (s : State) : Bool := match s.twin.hbAt with | none => true | some t => decide (t < s.tick) && (s.tick - t) % HB_TICKS == 0

/-- A heartbeat sent on both paths; `ps0` and `ps1` are the stamp points on the two lanes. -/
def hbSend (s : State) (ps0 ps1 : Nat) : State :=
  if !s.paired || s.safe || !s.hbDue then s
  else
    let s1 := (s.twinSendOn 0 0x01 0xFF (s.hbPayload ps0)).twinSendOn 1 0x01 0xFF (s.hbPayload ps1)
    (s1.emit (.hbWord s1.hbWordOf)).updTwin (fun t => { t with hbSeq := (t.hbSeq + 1) % 16, hbAt := some s.tick })

/-- What a counted heartbeat does (R265, R266). -/
def hbCounts (s : State) (b : Bool) (tst : Nat) : State :=
  let s1 := (s.setPath b 1).updTwin (fun t => if b then { t with lastB := some s.tick, declared := false } else { t with lastA := some s.tick, declared := false })
  let s2 := s1.gput F.TWIN_STAT_PEER_STATE tst
  if s2.safe then s2
  else if s2.twst = TW_STANDBY then
    let s3 := if tst = TW_ACTIVE ∨ tst = TW_RACKING ∨ tst = TW_DRILL then s2.updTwin (fun t => { t with bootAt := none }) else s2
    (s3.gput F.TWIN_STAT_RACK_WAIT 0).updTwin (fun t => { t with waitAt := none })
  else if s2.twst = TW_ACTIVE then s2.gput F.TWIN_STAT_PEER_LOST 0
  else s2

/-- A path-B word received. -/
def hbWordRx (s : State) (w : Word) : State :=
  let n := w.toNat
  let ok := n / 2 ^ 24 == 0xB7 && n % 256 == crc8 (beBytes 3 (n / 256))
  let tst := getField w 21 3
  if !s.paired || !ok || bit w 20 == s.twin.unitA || tst == TW_FENCED then s else s.hbCounts true tst

/-- The exchange that an HB completes (R254, R274): TDLY, TOFS and MOSC_DIFF. -/
def exchange (s : State) (pl : Bytes) (t4 : Nat) : State :=
  let t1 := leAt pl 16 8
  let t2 := leAt pl 24 8
  let t3 := leAt pl 8 8
  if t1 = 0 ∧ t2 = 0 then s
  else
    let r := stampDiff t4 t1 - stampDiff t3 t2
    let dly := Int.fdiv r 2
    let offs := ((stampDiff t3 t4 + dly + signed 32 (s.gfld F.TWIN_TCAL_TCAL)) :: s.twin.offs).take 64
    let tofs := Int.fdiv offs.sum offs.length
    let hist := s.twin.offHist.filter (fun e => decide (s.tick < e.1 + SEC_TICKS))
    let s1 := s.updTwin (fun t => { t with offs := offs, offHist := (s.tick, tofs) :: hist })
    let s2 := (s1.gput F.TWIN_TDLY_TDLY (min 0xFFFFFFFF dly.toNat)).gput F.TWIN_TOFS_TOFS (unsigned 32 (max (-2147483648) (min 2147483647 tofs)))
    if hist.any (fun e => decide (5000 < (tofs - e.2).natAbs)) && !s2.gflag F.TWIN_STAT_MOSC_DIFF then
      ((s2.gput F.TWIN_STAT_MOSC_DIFF 1).gevt F.TWIN_EVT_MOSC_DIFF).detect 67
    else s2

/-- TOFS in picoseconds, not saturated. -/
def tofs (s : State) : Int := if s.twin.offs.isEmpty then 0 else Int.fdiv s.twin.offs.sum s.twin.offs.length

/-! ### Frames (R281, R282) -/

/-- A frame on lane `l` that R281 discards. -/
def twinBad (s : State) (l : Fin 2) : State :=
  let es := (l.val, s.tick) :: s.twin.crcErr.filter (fun e => decide (s.tick < e.2 + SEC_TICKS))
  let s1 := (s.gbump F.TWIN_CNT1_CRC_ERR).updTwin (fun t => { t with crcErr := es })
  if 16 < countIf (fun e => e.1 == l.val) es then s1.detect 68 else s1

/-- The channels whose frames travel on a lane: n mod 2, and every one while the other lane is down (R268). -/
def laneChans (s : State) (l : Fin 2) : List ChanIx := allChans.filter (fun n => n.val % 2 == l.val || !s.twin.laneUp[1 - l])

/-- The LSEQ of a good frame: a gap clears READY for the lane's channels and asks for their state again (R269). -/
def lseqRx (s : State) (l : Fin 2) (q : Nat) : State :=
  let gap := match s.twin.lseqRx[l] with | some k => decide (q ≠ (k + 1) % 2 ^ 32) | none => false
  let s1 := s.updTwin (fun t => { t with lseqRx := t.lseqRx.set l (some q) })
  if !gap then s1
  else
    let ns := s.laneChans l
    let s2 := (s1.gbump F.TWIN_CNT1_GAP).updTwin (fun t =>
      { t with rx := Vector.ofFn (fun n => if ns.contains n then { t.rx[n].spoil with cont := none, begun := none } else t.rx[n]) })
    if s2.twst = TW_STANDBY ∧ ¬ s2.safe then ns.foldl (fun s n => s.sendResync n 3) s2 else s2

/-- Whether a unit takes frames: a lane that is up. -/
def laneTakes (s : State) (l : Fin 2) : Bool := s.paired && s.twin.laneUp[l]

/-- A frame of bytes of TYPE `ty`: `f` gets its CH, DEVID and payload where it is good. -/
def twinFrame (s : State) (l : Fin 2) (bs : Bytes) (ty : Nat) (f : State → Nat → Nat → Bytes → State) : State :=
  if !s.laneTakes l then s
  else
    let t := leAt bs 0 1
    let len := leAt bs 2 2
    let want := match t with | 1 => 64 | 4 => 132 | 5 => 40 | 6 => 4 | 7 => 4 | _ => 0
    let ch := leAt bs 1 1
    let chOk := if t = 1 ∨ t = 7 then ch == 0xFF else decide (ch < 4)
    if bs.length ≠ 20 + len ∨ leAt bs (16 + len) 4 ≠ crc32 (bs.take (16 + len)) ∨ want ≠ len ∨ ¬ chOk then s.twinBad l
    else if t ≠ ty then s
    else f (s.lseqRx l (leAt bs 4 4)) ch (leAt bs 8 8) (slice bs 16 len)

/-- An HB frame, its receive stamp `ps` into the tick. -/
def hbFrame (s : State) (l : Fin 2) (bs : Bytes) (ps : Nat) : State :=
  s.twinFrame l bs 0x01 (fun s _ id pl =>
    let rx := linkStamp s.tick ps
    let fl := leAt pl 1 1
    let claim := leAt pl 4 4
    let tst := leAt pl 0 1
    let s1 := (s.seeEpoch (claim / 256)).updTwin (fun t => { t with echo := some (leAt pl 8 8, rx) })
    if (fl % 2 == 1) == s1.twin.unitA then
      if s1.safe then s1
      else
        let s2 := (s1.gevt F.TWIN_EVT_COLLIDE).detect 66
        s2.fence twinOrg
    else
      let pid := s1.gfld F.TWIN_PEER_ID_LO_ID_LO + 2 ^ 32 * s1.gfld F.TWIN_PEER_ID_HI_ID_HI
      if (pid ≠ 0 ∧ pid ≠ id) ∨ tst = TW_FENCED then s1
      else
        let s2 := s1.updTwin (fun t => { t with heard := true, peerClaims := (claim, s.tick) :: t.peerClaims, choff := Vector.ofFn (fun n => signed 64 (leAt pl (32 + 8 * n.val) 8)) })
        ((s2.gput F.TWIN_STAT_PEER_RUN (fl / 16)).exchange pl rx).hbCounts false tst)

/-- A standby takes what is streamed to it (R269). -/
def takesStream (s : State) : Bool := s.twst == TW_STANDBY || s.twst == TW_RACKING || s.twst == TW_DRILL

def updRx (s : State) (n : ChanIx) (f : RxChan → RxChan) : State := s.updTwin (fun t => { t with rx := t.rx.set n (f t.rx[n]) })

/-- A journal entry received. One whose CRC does not fit is not held, and a journal that began again makes the vintages before it
useless. -/
def rxEntry (r : RxChan) (e : JEntry) : RxChan :=
  let last : Option Nat := r.entries.head?.map (·.jseq)
  let next : Bool := match last with | some j => decide (e.jseq = j + 1) | none => r.cont == some e.jseq
  let back : Bool := match last with | some j => decide (e.jseq ≤ j) | none => false
  let r1 := if back then { r.spoil with entries := [] } else r
  { r1 with
    entries := (e :: r1.entries).take 131072,
    cont := if e.bad then some (e.jseq + 1) else if next && r.cont.isSome then r.cont else some e.jseq }

def jourFrame (s : State) (l : Fin 2) (f : JourFrame) : State :=
  if !s.laneTakes l then s
  else if !f.good || f.entries.isEmpty || decide (16 < f.entries.length) then s.twinBad l
  else
    let s1 := s.lseqRx l f.lseq
    if !s1.takesStream then s1
    else
      let es := f.entries.zipIdx.map (fun e => { e.1 with idx := (f.idx + e.2) % 131072 })
      let s2 := (if s1.running f.ch then s1 else s1.reqAbsent f.ch).updRx f.ch (fun r => es.foldl rxEntry r)
      match f.entries.getLast? with
      | some e => s2.put64 .twin (TWIN_RX_JSEQ f.ch.val 0) e.jseq
      | none => s2

/-- The bytes of a slot with a part written at an offset. -/
def slotWrite (bs : Bytes) (ofs : Nat) (part : Bytes) : Bytes := padTo ofs bs ++ part ++ bs.drop (ofs + part.length)

/-- A part of a vintage, written to the slot that the vintage takes. The last part completes it: it counts where every part has come, its
CRC passes, and no LSEQ gap came between (R269). -/
def rxVint (r : RxChan) (f : VintFrame) : RxChan :=
  let k := r.next
  let slots := r.slots.set k (slotWrite r.slots[k] f.ofs f.part)
  let fits : Bool := f.ofs = 0 || r.begun == some (f.vseq, f.ofs)
  let r1 : RxChan := { r with
    slots := slots, vints := r.vints.filter (fun x => x.slot != k), begun := if fits then some (f.vseq, f.ofs + f.part.length) else none }
  match f.whole with
  | none => r1
  | some v =>
    if fits && slots[k].take (f.ofs + f.part.length) == v.bytes then
      { r1 with vints := ⟨k, v, false⟩ :: r1.vints, begun := none, next := k + 1, cont := some (r1.cont.getD (v.jseq + 1)) }
    else { r1 with begun := none }

def vintFrame (s : State) (l : Fin 2) (f : VintFrame) : State :=
  if !s.laneTakes l then s
  else if !f.good || decide (f.part.length < 8) || decide (2040 < f.part.length) then s.twinBad l
  else
    let s1 := s.lseqRx l f.lseq
    if !s1.takesStream then s1 else (if s1.running f.ch then s1 else s1.reqAbsent f.ch).updRx f.ch (fun r => rxVint r f)

/-- A CLIENT frame: the entry stands in the standby's own table (R229). -/
def clientFrame (s : State) (l : Fin 2) (bs : Bytes) : State :=
  s.twinFrame l bs 0x04 (fun s ch _ pl =>
    if !s.takesStream then s
    else
      let n : ChanIx := Fin.ofNat 4 ch
      let c := s.ch[n]
      let ix := leAt pl 0 4
      let tab := match Client.ofBytes (pl.drop 4) with | some e => smIns c.sealb.clients ix e | none => smDel c.sealb.clients ix
      (if s.running n then s else s.reqAbsent n).setCh n { c with sealb := { c.sealb with clients := tab } })

/-- RESYNC at the serving unit: a vintage at once, and the client table where it is asked for (R268). -/
def resyncFrame (s : State) (l : Fin 2) (bs : Bytes) : State :=
  s.twinFrame l bs 0x06 (fun s ch _ pl =>
    let n : ChanIx := Fin.ofNat 4 ch
    if !s.streaming || s.safe then s
    else if !s.running n then s.reqAbsent n
    else
      let w := leAt pl 0 1
      let s1 := s.gbump F.TWIN_CNT2_RESYNC
      let s2 := s1.writeVintage n
      if w / 2 % 2 = 1 then s2.ch[n].sealb.clients.foldl (fun s e => s.streamClient n e.1) s2 else s2)

/-- A DRILL frame (R266, R278). -/
def drillFrame (s : State) (l : Fin 2) (bs : Bytes) : State :=
  s.twinFrame l bs 0x07 (fun s _ _ pl =>
    let op := leAt pl 0 1
    if s.safe then s
    else if op = 1 then
      if s.twst ≠ TW_STANDBY then s
      else
        let run := s.gcur F.TWIN_STAT_PEER_RUN
        if s.feedsOk && allChans.all (fun n => run / 2 ^ n.val % 2 == 0 || s.ready n) then
          (((s.sendDrill 2 0).twinTo TW_DRILL twinOrg).raiseEpoch).startRack s.tick true
        else s.sendDrill 3 s.rackReason
    else if op = 3 then (if s.twin.drill.any (·.sent) then s.endDrill RES_OP_ERROR else s)
    else s)

/-! ### TIME frames and lane L15 (R268, R279) -/

def timeSend (s : State) (n : ChanIx) (ps : Nat) : State :=
  if !s.streaming || s.safe || !s.running n || (s.ch[n].secondHere).isNone then s
  else s.twinSend 0x05 n.val (s.ch[n].twinTime ps)

/-- The first MEAS entry of lane L15 after a JSEQ. -/
def firstL15 (c : Channel) (after : Nat) : Option MeasRec :=
  (c.jour.ring.filter (fun e => decide (after < e.jseq))).reverse.findSome? (fun e => match e.body with | .meas r => if r.lane = 15 then some r else none | _ => none)

/-- The first instant S − 500 ms after a channel time (R278). -/
def claimInstant (t : Gt) : Gt := (sar (t + 2 ^ 63) 64 + 1) * 2 ^ 64 - 2 ^ 63

/-- The lowest-numbered of some channels. -/
def lowestOf (ns : List ChanIx) : Option ChanIx := allChans.find? (fun n => ns.contains n)

/-- The drill check on a channel's first L15 record after racking. -/
def drillRecord (s : State) (n : ChanIx) (r : MeasRec) : State :=
  match s.twin.rack with
  | none => s
  | some k =>
    if s.twst ≠ TW_DRILL ∨ ¬ k.drill ∨ k.checked.contains n then s
    else if r.offset.natAbs > r.teb * 2 ^ 24 then s.drillFail
    else
      let ck := n :: k.checked
      let at' := if k.chans.all ck.contains then (lowestOf k.chans).map (fun m => claimInstant s.ch[m].now) else k.passAt
      s.updTwin (fun t => { t with rack := some { k with checked := ck, passAt := at' } })

/-- The drill check on every racked channel whose first L15 record after racking is registered. -/
def drillRecords (s : State) : State :=
  match s.twin.rack with
  | none => s
  | some k => k.done.foldl (fun s e => match firstL15 s.ch[e.1] e.2 with | some r => s.drillRecord e.1 r | none => s) s

def timeFrame (s : State) (l : Fin 2) (bs : Bytes) (ps : Nat) : State :=
  s.twinFrame l bs 0x05 (fun s ch _ pl =>
    let n : ChanIx := Fin.ofNat 4 ch
    if !s.running n then s.reqAbsent n
    else
      s.onCh n (fun c => c.twinRecord pl ps (s.gcur F.TWIN_TDLY_TDLY) (signed 32 (s.gfld F.TWIN_TCAL_TCAL)) (s.gfld F.TWIN_TBUD_TBUD)))

/-! ### Racking (R272 to R275, R278) -/

/-- The newest vintage of a channel in the non-volatile ring with the measurement of the held image. -/
def nvVintage (s : State) (n : ChanIx) : Option Vintage :=
  match s.img[n].held with
  | some h => (s.twin.nvRing.find? (fun e => e.2.ch == n && e.2.meas == measOf (s.storeSlot n h))).map Prod.snd
  | none => none

/-- A racked channel takes its result. -/
def rackChannel (s : State) (n : ChanIx) : State :=
  match s.twin.rack with
  | none => s
  | some k =>
    if !k.chans.contains n || (k.done.map Prod.fst).contains n || !s.running n || s.safe then s
    else
      let r := s.twin.rx[n]
      let c := s.ch[n]
      let exact : Option Vintage := if s.gflag F.TWIN_STAT_MOSC_DIFF then none else s.readyVint n
      let res : Nat × Channel := match exact with
        | some v =>
          let o := s.tofs
          let d := Int.fdiv o 5000
          let e := c.rackExact v.snap r.entries.reverse ((s.tick : Int) + d - s.twin.choff[n]).toNat (o - 5000 * d)
            (Channel.rackGain (s.gcur F.TWIN_TDLY_TDLY) (s.gfld F.TWIN_TBUD_TBUD))
          if e.1 then (1, e.2) else (4, e.2)
        | none => match s.nvVintage n with
          | some v => (2, c.rackWarm v.snap)
          | none => (3, c)
      let c1 := { res.2 with drive := c.drive, safe := c.safe }
      let s1 := s.setCh n (recount (Channel.settle c c1))
      let w := s1.gcur F.TWIN_RACK_STAT_RES
      let s2 := (s1.gput F.TWIN_RACK_STAT_RES (w - w / 16 ^ n.val % 16 * 16 ^ n.val + res.1 * 16 ^ n.val)).updTwin
        (fun t => { t with rack := t.rack.map (fun x => { x with done := (n, s1.ch[n].jour.jseq) :: x.done }) })
      let s3 := if res.1 = 4 then s2.detect (128 + 96 * n.val + 16) else s2
      if res.1 ≠ 1 then s3.drillFail else s3

/-- The claim condition of R275 but for a drill's wait. -/
def rackReady (s : State) (k : RackSt) : Bool :=
  k.chans.all (fun n => (k.done.map Prod.fst).contains n && s.running n &&
    [0, 1].all (fun y =>
      let c := s.ch[n]
      let st := c.synSt y
      (st == SYN_OFF && c.cur (F.SYN_SYN_CFG_EN y) == 0) || st == SYN_LOCKED || (st == SYN_ACQ && decide ((c.synK y).acqTick + 2000000 ≤ c.jour.tick))))

/-- The claim condition is met: in RACKING at once, in DRILL at the instant of R278. -/
def claimMet (s : State) (drill : Bool) : State :=
  match s.twin.rack with
  | none => s
  | some k =>
    let due := if drill then (match k.passAt, lowestOf k.chans with
        | some t, some m => s.ch[m].reached t
        | none, none => k.chans.isEmpty
        | _, _ => false) else true
    if s.safe || k.claim || !(s.twst == (if drill then TW_DRILL else TW_RACKING)) || !s.rackReady k || !due then s
    else s.updTwin (fun t => { t with rack := some { k with claim := true } })

/-! ### The drill on the active unit (R278) -/

/-- Whether a drill may start. -/
def drillOk (s : State) : Bool :=
  s.paired && s.twst == TW_ACTIVE && !s.gflag F.TWIN_STAT_PEER_LOST && s.gcur F.TWIN_STAT_PEER_STATE == TW_STANDBY &&
    (s.gcur F.TWIN_STAT_PATH_A != 0 || s.gcur F.TWIN_STAT_PATH_B != 0)

/-- The request sent. -/
def drillRequest (s : State) : State :=
  (s.sendDrill 1 0).updTwin (fun t => { t with drill := t.drill.map (fun d => { d with sent := true }) })

def drillSend (s : State) : State :=
  match s.twin.drill with
  | none => s
  | some d => if d.sent || d.reached.isNone || s.cmdState d.slot != CS_RUNNING || s.safe then s else s.drillRequest

/-- RESUME of a drill whose START may have passed. -/
def drillResume (s : State) : State :=
  match s.twin.drill with
  | none => s
  | some d =>
    match d.reached with
    | none => s
    | some t =>
      if d.sent then s
      else if t + 3 * SEC_TICKS ≤ s.tick then s.endDrill RES_TIMEOUT
      else if s.drillOk then s.drillRequest else s.endDrill RES_STATE

def drillTimeout (s : State) : State :=
  match s.twin.drill.bind (·.reached) with
  | some t => if t + 3 * SEC_TICKS ≤ s.tick && s.twin.drill.any (fun d => d.sent || s.cmdState d.slot == CS_RUNNING) then s.endDrill RES_TIMEOUT else s
  | none => s

/-! ### The tick, and what follows every command -/

/-- What a tick does in the twin block: missed heartbeat periods, START of a drill, CONTEND of the last tick. -/
def twinTick (s : State) : State :=
  let miss (s : State) (last : Option Nat) (f : GF) : State :=
    match last with
    | some t => if t + 2 * HB_TICKS ≤ s.tick ∧ (s.tick - t) % HB_TICKS = 0 then s.gbump f else s
    | none => s
  let s1 := (miss (miss s s.twin.lastA F.TWIN_CNT0_MISS_A) s.twin.lastB F.TWIN_CNT0_MISS_B).gput F.TWIN_STAT_CONTEND 0
  match s1.twin.drill, s1.lowestRun with
  | some d, some n =>
    if d.reached.isNone && s1.ch[n].reached d.start then s1.updTwin (fun t => { t with drill := some { d with reached := some s1.tick } }) else s1
  | _, _ => s1

/-- The drive right while CLAIM_BAD is set (R259, R262): a unit whose effective claim is not 0 holds it, unless contention took it. -/
def holdDrive (s : State) : State :=
  let bad := s.gflag F.TWIN_STAT_CLAIM_BAD && s.effClaim != 0
  let s1 := if bad && !s.twin.noDrive && !s.gflag F.TWIN_STAT_DRIVE then s.setDrive true else s
  if s.twin.noDrive && !bad then s1.updTwin (fun t => { t with noDrive := false }) else s1

/-- READY that clears in a standby (R269), a drill whose channel fell out, the reading of STAT. -/
def twinSettle (s : State) : State :=
  let was := s.gcur F.TWIN_STAT_READY
  let s1 := if s.twst == TW_STANDBY && s.paired && !s.safe then
      allChans.foldl (fun s n =>
        if was / 2 ^ n.val % 2 = 1 && !s.ready n then
          let s0 := s.gevt F.TWIN_EVT_NOTREADY
          -- a gap has already asked for the channel's state
          if s0.twin.rx[n].cont.isNone then s0 else s0.sendResync n 1
        else s) s
    else s
  let s2 := if s1.twst = TW_DRILL ∧ s1.twin.rack.any (·.failed) then s1.drillFail else s1.drillRecords
  let s2 := s2.holdDrive
  ((s2.gput F.TWIN_STAT_READY s2.readyBits).gput F.TWIN_STAT_FEEDS_OK (b2n s2.feedsOk)).gput F.TWIN_CLAIM_CLAIM s2.effClaim

/-- FS20 where a row has passed 90,000,000 writes since `old` (R417). -/
def wearCheck (old s : State) : State :=
  (List.finRange 8).foldl (fun s k =>
    if Config.rowWear k.val old.tally.cur.wear[k] ≤ 90000000 ∧ 90000000 < Config.rowWear k.val s.tally.cur.wear[k] then s.detect 20 else s) s

end State

/-- What follows the own effect `u` of a command carried out on `old`: every request of the channels is met, and what the twin and the wear
counts settle. -/
def State.follow (old u : State) : State := (State.wearCheck old (u.drain.twinSettle.drain)).drain

/-- The state in which a command acts: nothing has left the device because of it yet. -/
def State.clear (s : State) : State := { s with out := [] }

end Sys2Proof.Machine
end

