-- ==== Sys2Proof/Machine/VaultOps.lean ====
section
/-! DEFINITION. The vault's operations: key update messages (R342 to R349), quotes (R350), the tamper domain (R351 to R356), the vault
stage of start-up, what the vault's registers show (R359). -/
namespace Sys2Proof.Machine

/-! Codes of KUM_STAT.RESULT (R345). -/
def KR_OK : Nat := 0x00
def KR_FORMAT : Nat := 0x01
def KR_DEVID : Nat := 0x02
def KR_COUNTER : Nat := 0x03
def KR_AUTH : Nat := 0x04
def KR_SIGNATURE : Nat := 0x05
def KR_HIERARCHY : Nat := 0x06
def KR_UNWRAP : Nat := 0x07
def KR_STATE : Nat := 0x08
def KR_TAMPERED : Nat := 0x09
def KR_NVM : Nat := 0x0A

/-- The bytes of a VBAT log entry (R355). -/
def VLog.bytes (e : VLog) : Bytes :=
  leBytes 1 e.src ++ leBytes 1 e.pstate ++ leBytes 6 e.vclk ++ leBytes 2 e.vbat ++ leBytes 1 (unsigned 8 e.temp) ++ leBytes 5 0

/-! ### Key update messages (R342) -/

/-- A key update message: its bytes. -/
structure Kum where
  bytes : Bytes
  deriving DecidableEq, Repr

namespace Kum

def op (k : Kum) : Nat := leAt k.bytes 5 1
def slot (k : Kum) : Nat := leAt k.bytes 6 1
def auth (k : Kum) : Nat := leAt k.bytes 7 1
def devid (k : Kum) : Nat := leAt k.bytes 8 8
def counter (k : Kum) : Nat := leAt k.bytes 16 8
def attr (k : Kum) : Word := leWordAt k.bytes 6
def keyId (k : Kum) : Nat := leAt k.bytes 28 4
def wlen (k : Kum) : Nat := leAt k.bytes 32 2
def eph (k : Kum) : Bytes := slice k.bytes 40 96
def wrap (k : Kum) : Bytes := slice k.bytes 136 k.wlen
def sigBlk (k : Kum) : Bytes := slice k.bytes (136 + k.wlen) 104
def digest (k : Kum) : Bytes := sha384 (slice k.bytes 0 (136 + k.wlen))
/-- INSTALL and REPLACE carry a key. -/
def carries (k : Kum) : Bool := k.op == 1 || k.op == 2
def wrapped (k : Kum) : Bool := k.carries && attrKind k.attr == 1

/-- Check 1: FORMAT (R342 to R345, R337, R338, R352). -/
def formatOk (k : Kum) : Bool :=
  let a := k.attr
  let kind := attrKind a
  let want := if k.carries then (match kind with | 1 => algLen (attrAlg a) + 8 | 2 => 96 | _ => 0) else 0
  let pair (j : Nat) : Bool := (getField a (4 * j) 2 == 3) == (getField a (4 * j + 2) 2 == 3)
  leAt k.bytes 0 4 == 0x314D554B && leAt k.bytes 4 1 == 1 && decide (1 ≤ k.op) && decide (k.op ≤ 5) && k.wlen == want &&
    k.bytes.length == 136 + k.wlen + 104 && Img.zeros (slice k.bytes 34 6) &&
    (!k.carries || (decide (kind ≤ 2) && decide (attrAlg a ≤ 5) && !bit a 11 && (kind == 2) == (attrAlg a == 5))) &&
    (k.op != 5 || (getField a 12 20 == 0 && pair 0 && pair 1)) &&
    ((k.wrapped && attrParent a == 1) || Img.zeros k.eph) &&
    (!(k.carries && kind == 2) || onCurve (pubOf k.wrap))

end Kum

namespace State

/-- The claim of an unowned device (R347). -/
def kumClaim (s : State) (k : Kum) : Bool :=
  s.vault.own == OWN_UNOWNED && k.op == 1 && k.slot == 2 && k.auth == 2 && attrPublic k.attr && attrHas k.attr RC_KUM &&
    fromLe (slice k.sigBlk 4 4) == k.keyId

/-- Check 4: the public key under which the message verifies. -/
def kumAuth (s : State) (k : Kum) : Option Bytes :=
  if s.kumClaim k then some k.wrap
  else if attrPublic (s.vslot k.auth).attr && attrAlg (s.vslot k.auth).attr == 5 && (s.vslot k.auth).keyId == fromLe (slice k.sigBlk 4 4) then
    s.deliver k.auth RC_KUM
  else none

/-- Check 6 of the table: the vault's state allows OP, and the slot's state matches R343. -/
def kumStateOk (s : State) (k : Kum) : Bool :=
  let st := (s.slotView k.slot).1
  let a := (s.vslot k.slot).attr
  let own := s.vault.own
  (if own = OWN_UNOWNED then s.kumClaim k
    else if own = OWN_ORPHANED then k.op == 4 && k.slot == 2 && k.auth == 2
    else k.op != 4) &&
  (match k.op with
    | 1 => st != 1
    | 2 => st == 1 && attrParent a == attrParent k.attr && attrKind a == attrKind k.attr && attrAlg a == attrAlg k.attr
    | 3 => st == 1
    | 5 => k.slot == 0
    | _ => true)

/-- Check 7: the hierarchy. -/
def kumHierOk (s : State) (k : Kum) : Bool :=
  let a := k.attr
  let p := attrParent a
  let leaf : Bool := decide (16 ≤ k.slot)
  let secret := !attrPublic a
  let px := (s.vslot p).attr
  let has (r : Nat) : Bool := attrHas a r
  if !(k.carries || k.op == 3) then true
  else if k.slot < 2 then false
  else if k.op = 3 then true
  else
    (if leaf then decide (2 ≤ p) && decide (p < 16) && s.usable p else p == 1) &&
    (!secret || !leaf || !attrPublic px) && (!(leaf && attrKind a == 1) || attrAlg px == 1) &&
    (!(has 0 || has 1 || has 2 || has 3 || has RC_MINT || has RC_BOOK || has RC_ATTEST) || secret) &&
    (!(has RC_IMG || has RC_KUM) || attrAlg a == 5) && (!attrChmix a || (leaf && attrKind a == 0)) && (!attrMbind a || secret)

/-- Check 8: the key that the message carries; none where it does not unwrap (R344). -/
def kumKey (s : State) (k : Kum) : Option Bytes :=
  if !k.carries then some []
  else match attrKind k.attr with
    | 2 => some k.wrap
    | 1 =>
      if attrParent k.attr = 1 then
        if (s.slotView 1).1 = 1 ∧ onCurve (pubOf k.eph) then
          keyUnwrap (kdf (ecdh s.kt k.eph) "KW" (leBytes 8 k.devid ++ leBytes 8 k.counter) 32) k.wrap
        else none
      else keyUnwrap (s.slotVal (attrParent k.attr)) k.wrap
    | _ => some []

/-- The checks of R345 in order: the code of the first that fails, or what the message commits. -/
def kumCheck (s : State) (k : Kum) (org : Origin) : Nat ⊕ KumJob :=
  if !k.formatOk then .inl KR_FORMAT
  else if k.devid ≠ s.fuse.devid ∨ k.devid = 0 then .inl KR_DEVID
  else if k.counter ≤ s.vault.kcnt then .inl KR_COUNTER
  else match s.kumAuth k with
    | none => .inl KR_AUTH
    | some pub =>
      if !sigOk pub k.digest k.sigBlk then .inl KR_SIGNATURE
      else if !s.kumStateOk k then .inl KR_STATE
      else if !s.kumHierOk k then .inl KR_HIERARCHY
      else match s.kumKey k with
        | none => .inl KR_UNWRAP
        | some v => .inr ⟨k.op, k.slot, k.counter, k.attr, k.keyId, v, org⟩

/-- A message that is not accepted. -/
def kumFail (s : State) (res : Nat) : State :=
  (({ s with vault := { s.vault with kum := none } }.gput F.VAULT_KUM_STAT_BUSY 0).gput F.VAULT_KUM_STAT_RESULT res).gevt F.VAULT_EVT_KUM_FAIL

/-- The descendants of a slot become ORPHANED with cause PARENT (R341). -/
def orphanUnder (s : State) (p : Nat) : State :=
  let kids := (s.vault.slots.filter (fun e => 16 ≤ e.1 && attrParent e.2.attr == p && (e.2.st == .valid || e.2.st == .invalid))).map Prod.fst
  if p ≥ 16 ∨ kids.isEmpty then s
  else (kids.foldl (fun s i => s.putVslot i { s.vslot i with st := .orphaned, cause := 1, value := [], sealKey := [] }) s).gevt F.VAULT_EVT_ORPHAN

/-- A seed taken from the random bit generator: a free value (R334). -/
def newSeed (s : State) : State :=
  let r := s.free 256
  { r.2 with vault := { r.2.vault with seed := some (beBytes 32 r.1) } }.gput F.VAULT_STAT_SEED_NEW 1

/-- RECOVER (R347): every secret slot EMPTY, the vault OWNED under the seed of this start-up; start-up resumes at the vault stage. -/
def recover (s : State) : State :=
  let s1 := if s.vault.seed.isNone then s.newSeed else s
  let sl := s1.vault.slots.foldl (fun m e => if attrPublic e.2.attr then m else smPut VSlot.zero m e.1 { VSlot.zero with copyB := e.2.copyB }) s1.vault.slots
  let s2 := { s1 with vault := { s1.vault with slots := sl, own := OWN_OWNED, storeSeed := s1.vault.seed } }
  if s2.stage < BOOT_DONE then (s2.setStage BOOT_VAULT).gput F.VAULT_STAT_STAGE VS_SEED else s2

/-- A slot with new content in the copy that is not active; the first content of a slot is copy A. -/
def kumSlot (s : State) (j : KumJob) : VSlot :=
  let x := s.vslot j.slot
  let cp := if x.ver = 0 then x.copyB else !x.copyB
  if j.op = 3 then { x with st := .invalid, cause := 4, ver := j.counter, copyB := cp, value := [], sealKey := [], meas := false }
  else ⟨j.attr, j.keyId, j.counter, .valid, 0, cp, j.value, if attrPublic j.attr then [] else if attrMbind j.attr then s.ks1 else s.ks0, false⟩

/-- The commit point (R348): the new version takes effect, KCNT becomes COUNTER, the change is booked. -/
def kumCommit (s : State) (j : KumJob) : State :=
  let oldW := if j.op = 5 then s.vault.tcfg else (s.vslot j.slot).attr
  let s0 := { (s.wearOn 4).wearOn 5 with vault := { s.vault with
    kum := none, kcnt := j.counter, commits := ((j.slot, (s.kumSlot j).copyB, j.counter) :: s.vault.commits).take 64 } }
  let s1 := match j.op with
    | 4 => s0.recover
    | 5 => { s0 with vault := { s0.vault with tcfg := j.attr } }
    | _ => s0.putVslot j.slot (s.kumSlot j)
  let s2 := if j.op = 1 ∧ s.vault.own = OWN_UNOWNED then { s1 with vault := { s1.vault with own := OWN_OWNED } } else s1
  let s3 := if j.op = 2 ∨ j.op = 3 then s2.orphanUnder j.slot else s2
  let s4 := ((s3.gput F.VAULT_KUM_STAT_BUSY 0).gput F.VAULT_KUM_STAT_RESULT KR_OK).gevt F.VAULT_EVT_KUM_DONE
  let newW := if j.op = 5 then j.attr else (s4.vslot j.slot).attr
  (s4.book1 ⟨j.org, 0x03, j.slot, oldW, newW⟩).revokeKeys (if j.op = 2 then [j.slot] else [])

/-- The bytes of KUM_BUF. -/
def kumBuf (s : State) (n : Nat) : Bytes := ((upTo 128).flatMap (fun k => leBytes 4 (s.gword .vault (VAULT_KUM_BUF k)).toNat)).take n

/-- GO of KUM_CTL (R342): the checks are made at once, the commit point follows. -/
def kumGo (s : State) (org : Origin) : State :=
  if s.gflag F.VAULT_KUM_STAT_BUSY then s
  else match s.kumCheck ⟨s.kumBuf (s.gcur F.VAULT_KUM_CTL_LEN)⟩ org with
    | .inl e => s.kumFail e
    | .inr j => { s with vault := { s.vault with kum := some j } }.gput F.VAULT_KUM_STAT_BUSY 1

/-- The end of a message in progress: its commit record is written, or the non-volatile memory failed (R345). -/
def kumPoint (s : State) (written : Bool) : State :=
  match s.vault.kum with
  | none => s
  | some j => if written then s.kumCommit j else s.kumFail KR_NVM

/-- A batch of messages in order, to the first that is not accepted: how many were, and whether all (R356). -/
def kumBatch (org : Origin) : List Bytes → Nat × Bool × State → Nat × Bool × State
  | [], a => a
  | b :: r, (n, ok, s) =>
    if !ok then (n, ok, s)
    else match s.kumCheck ⟨b⟩ org with
      | .inl e => (n, false, s.kumFail e)
      | .inr j => kumBatch org r (n + 1, true, s.kumCommit j)

/-! ### Attestation (R350) -/

/-- The measurement of the held image of a channel (R336, R350). -/
def heldMeas (s : State) (n : ChanIx) : Bytes :=
  match s.img[n].held with | some h => measOf (s.storeSlot n h) | none => List.replicate 48 0

/-- The quote without its signature. M_CMN before the common image, and KT_PUB while K1 is not VALID, are free values. -/
def quoteBody (s : State) (signer : Nat) : Bytes × State :=
  let a := s.gfld F.VAULT_CFG_ATT_SLOT
  let f1 := s.free 384
  let f2 := f1.2.free 768
  let k1ok : Bool := (s.slotView 1).1 == 1
  let time : Bytes := match s.lowestRun with | some n => leBytes 16 (unsigned 128 s.ch[n].now) | none => List.replicate 16 0
  let attPub : Bytes := if 2 ≤ a ∧ s.usable a ∧ attrAlg (s.vslot a).attr = 4 then pubKey (fromBe (s.slotVal a)) else List.replicate 96 0
  (leBytes 4 0x54515441 ++ leBytes 1 1 ++ leBytes 1 signer ++ leBytes 1 s.vault.own ++ leBytes 1 0 ++ s.devidLe ++
    ((upTo 12).flatMap (fun k => leBytes 4 (s.gword .vault (VAULT_ATT_NONCE k)).toNat)) ++ s.fuse.mBoot ++
    s.vault.mCmn.getD (beBytes 48 f1.1) ++ allChans.flatMap s.heldMeas ++ leBytes 8 s.vault.kcnt ++ leBytes 4 (s.svnFloor 0) ++
    leBytes 4 (s.svnFloor 1) ++ time ++ leBytes 4 s.tally.cur.tampers ++ leBytes 1 a ++ leBytes 3 0 ++ attPub ++
    (if k1ok then pubKey s.kt else beBytes 96 f2.1), f2.2)

/-- GO of ATT_CTL: the quote is fixed at GO, or refused. -/
def quoteGo (s : State) : State :=
  if s.gflag F.VAULT_ATT_CTL_BUSY then s
  else
    let signer := s.gcur F.VAULT_ATT_CTL_SIGNER
    let body := s.quoteBody signer
    let dig := sha384 body.1
    let r : Option Bytes × State :=
      if s.orphanedVault then (none, s)
      else if signer = 0 then (some (body.2.dikSign dig).1, (body.2.dikSign dig).2)
      else body.2.slotSign (s.gfld F.VAULT_CFG_ATT_SLOT) RC_ATTEST dig
    match r.1 with
    | none => s.gevt F.VAULT_ATT_CTL_ERR
    | some sg => { r.2 with vault := { r.2.vault with quote := some (body.1 ++ sg) } }.gput F.VAULT_ATT_CTL_BUSY 1

/-- The quote appears in ATT_OUT. -/
def quoteDone (s : State) : State :=
  match s.vault.quote with
  | none => s
  | some q =>
    let s1 := (upTo 172).foldl (fun s k => s.gsetWord .vault (VAULT_ATT_OUT k) (leWordAt q k)) { s with vault := { s.vault with quote := none } }
    ((s1.gput F.VAULT_ATT_CTL_BUSY 0).gevt F.VAULT_ATT_CTL_DONE).gevt F.VAULT_EVT_ATT_DONE

/-! ### The tamper domain (R351 to R356) -/

/-- The monitors that a sample finds failing, as the bits of SRC (R351, R352, R355). -/
def tamperFails (s : State) (t : TamperIn) : Nat :=
  let cfg := s.vault.tcfg
  let pin (k : Fin 4) : Bool := match getField cfg (2 * k.val) 2 with
    | 1 => t.pins[k] | 2 => !t.pins[k] | 3 => k.val % 2 == 1 && t.pairBad[(Fin.ofNat 2 (k.val / 2) : Fin 2)] | _ => false
  let on : Bool := s.pwr.pst == .run || s.pwr.pst == .cold
  b2n (pin 0) + 2 * b2n (pin 1) + 4 * b2n (pin 2) + 8 * b2n (pin 3) + 16 * b2n (bit cfg 8 && t.mesh) +
    32 * b2n (bit cfg 9 && (decide (t.vbat < 1900) || decide (3800 < t.vbat))) +
    64 * b2n (bit cfg 10 && (decide (t.temp < -50) || decide (125 < t.temp))) + 128 * b2n (bit cfg 11 && on && t.mosc)

/-- PSTATE of a VBAT log entry (R355): start-up until K1 is VALID. -/
def tamperState (s : State) : Nat :=
  match s.pwr.pst with
  | .run => 0
  | .cold => if s.vault.mCmn.isNone then 3 else 1
  | _ => 2

/-- A key operation in progress ends TAMPERED (R356). -/
def abortKeyOps (s : State) : State :=
  let s1 := if s.vault.kum.isSome then s.kumFail KR_TAMPERED else s
  let s2 := if s1.vault.quote.isSome then
      ({ s1 with vault := { s1.vault with quote := none } }.gput F.VAULT_ATT_CTL_BUSY 0).gevt F.VAULT_ATT_CTL_TAMPERED else s1
  (s2.cmdq.cmds.filter (fun c => (c.op == 4 || c.op == 8) && s2.cmdState c.slot == CS_RUNNING)).foldl (fun s c => s.endCmd c.slot RES_TAMPERED (if c.op = 4 then KR_TAMPERED else c.done)) s2

/-- The seed zeroized and the vault ORPHANED (R347, R354). -/
def zeroize (s : State) : State :=
  { s with vault := { s.vault with seed := none, own := OWN_ORPHANED } }

/-- A tamper alarm of the monitors in `src` (R354, R355). -/
def tamperAlarm (s : State) (src : Nat) (t : TamperIn) : State :=
  let p := s.tamperState
  let c := s.vclkNow
  let e : VLog := ⟨src, p, c.1, t.vbat, t.temp⟩
  let full : Bool := decide (8 ≤ c.2.vault.log.length)
  let log := (if full then c.2.vault.log.drop 1 else c.2.vault.log) ++ [e]
  let s1 := { c.2 with vault := { c.2.vault with log := log, logOvf := min 15 (c.2.vault.logOvf + b2n full) } }.zeroize
  if p = 2 then s1
  else
    let s2 := ((s1.updTally (fun r => { r with tampers := satCount r.tampers })).gevt F.VAULT_EVT_TAMPER).abortKeyOps
    let s3 := allChans.foldl (fun s n => if s.running n then s.setCh n s.ch[n].sealAbort else s) (s2.revokeKeys [])
    match p with
    | 0 => (s3.copyLog).detect 48
    | 3 =>
      let s4 := s3.gput F.VAULT_STAT_STAGE VS_STOPPED
      (match s4.loader.dev with | some _ => s4.stopDevice (some IE_OWNER) RES_OP_ERROR | none => s4).setStage BOOT_VAULT
    | _ => s3

/-- A sample of the monitors: two consecutive failures of one raise its alarm, once until it passes again. -/
def tamperSample (s : State) (t : TamperIn) : State :=
  let f := s.tamperFails t
  let v := s.vault
  let new := (f &&& v.prevFail) &&& (255 - v.alarmed)
  let s1 := { s with vault := { v with prevFail := f, alarmed := (v.alarmed &&& f) ||| new } }
  let s2 := (s1.gput F.VAULT_TSTAT_LIVE f).gput F.VAULT_TSTAT_VBAT t.vbat
  let s3 := if bit v.tcfg 9 && decide (t.vbat < 2200) then s2.gevt F.VAULT_EVT_VBAT_LOW else s2
  if new = 0 then s3 else s3.tamperAlarm new t

/-- The seed and the VBAT log lost with VBAT (R354, R435). -/
def vbatLost (s : State) : State :=
  { s with vault := { s.vault with seed := none, log := [], logOvf := 0, vbatLost := true } }

/-! ### The vault stage of start-up and the common image (R334, R336, R347, R440) -/

/-- The end of the vault stage: the seed loaded or generated, the store opened or ORPHANED, the VBAT log copied. -/
def vaultStage (s : State) : State :=
  let s1 := if s.vault.seed.isNone then s.newSeed else s
  let v := s1.vault
  let s2 :=
    if v.own = OWN_UNOWNED ∧ v.storeSeed.isNone ∧ ¬ v.vbatLost then { s1 with vault := { v with storeSeed := v.seed } }
    else if v.storeSeed ≠ v.seed then { s1 with vault := { v with own := OWN_ORPHANED } } else s1
  let lostEnts := s2.vault.logOvf
  let early := countIf (fun (e : VLog) => e.pstate == 2) s2.vault.log
  let s3 := s2.updTally (fun r => { r with tampers := min 0xFFFFFFFF (r.tampers + early + lostEnts + b2n s2.vault.vbatLost) })
  let s4 := s3.copyLog
  let s5 := if s4.vault.vbatLost then s4.book1 ⟨.tamper 0xFF 0, 0x05, 0, 0#32, 0#32⟩ else s4
  { s5 with vault := { s5.vault with vbatLost := false, logOvf := 0 } }.gput F.VAULT_STAT_STAGE VS_MEASURE

/-- The common measurement handed over (R336): K1 is VALID, and a slot stored under another ks1 can no longer be opened. -/
def vaultMeas (s : State) (m : Bytes) : State :=
  let s1 := { s with vault := { s.vault with mCmn := some m } }.gput F.VAULT_STAT_STAGE VS_READY
  let k := s1.ks1
  let bad : List Nat := (s1.vault.slots.filter (fun e => e.2.st == .valid && attrMbind e.2.attr && !attrPublic e.2.attr && e.2.sealKey != k)).map Prod.fst
  let s2 := s1.vault.slots.foldl (fun (s : State) (e : Nat × VSlot) => s.putVslot e.1 { e.2 with meas := bad.contains e.1 }) s1
  (if bad.isEmpty then s2 else s2.gevt F.VAULT_EVT_ORPHAN).revokeKeys []

/-! ### What the registers show (R359) -/

/-- What a register of VAULT shows where it is no stored word. -/
def vaultView (s : State) (off : Nat) : Option Word :=
  let v := s.vault
  let i := s.gcur F.VAULT_SLOT_SEL_INDEX
  let x := s.vslot i
  let nat (n : Nat) : Option Word := some (BitVec.ofNat 32 n)
  if off = VAULT_STAT then some (putField (putField (s.gword .vault VAULT_STAT) 30 2 v.own) 0 9 s.nvalid)
  else if off = VAULT_DEVID 0 then nat s.fuse.devid
  else if off = VAULT_DEVID 1 then nat (s.fuse.devid / 2 ^ 32)
  else if off = VAULT_KCNT 0 then nat v.kcnt
  else if off = VAULT_KCNT 1 then nat (v.kcnt / 2 ^ 32)
  else if off = VAULT_SLOT_ATTR then some x.attr
  else if off = VAULT_SLOT_INFO then
    nat ((s.slotView i).1 * 2 ^ 30 + (s.slotView i).2 * 2 ^ 27 + b2n x.copyB * 2 ^ 26 + b2n (s.usable i) * 2 ^ 25)
  else if off = VAULT_SLOT_KID then nat x.keyId
  else if off = VAULT_SLOT_VER 0 then nat x.ver
  else if off = VAULT_SLOT_VER 1 then nat (x.ver / 2 ^ 32)
  else if off = VAULT_TCFG then some v.tcfg
  else if off = VAULT_TSTAT then some (putField (putField (s.gword .vault VAULT_TSTAT) 20 4 v.log.length) 16 4 v.logOvf)
  else if 0x100 ≤ off ∧ off < 0x160 then some (leWordAt (pubKey s.fuse.dik) ((off - 0x100) / 4))
  else if 0x500 ≤ off ∧ off < 0x580 then
    match v.log[(off - 0x500) / 16]? with
    | some e => some (leWordAt e.bytes ((off - 0x500) % 16 / 4))
    | none => nat 0
  else if 0x1000 ≤ off ∧ off < 0x1400 then nat 0
  else none

end State
end Sys2Proof.Machine
end

