-- ==== Sys2Proof/Machine/PowerOps.lean ====
section
/-! DEFINITION. Clocks, feeds, power states, device resets and the stages of start-up (R374, R375, R423 to R443, R476). -/
namespace Sys2Proof.Machine

/-! Codes of ROOT_STATr.STATE (R442). -/
def RT_OFF : Nat := 0
def RT_ACQ : Nat := 1
def RT_LOCKED : Nat := 2
def RT_HOLD : Nat := 3

namespace State

def updPwr (s : State) (f : PwrSt → PwrSt) : State := { s with pwr := f s.pwr }
/-- The power controller runs: COLD or RUN. -/
def powered (s : State) : Bool := s.pwr.pst == .cold || s.pwr.pst == .run

/-! ### Device resets (R438) -/

/-- The tally record that start-up takes: that of the valid copy with the higher SEQ, or zeros (R418). The rows' write counts are those
of the memory itself (R417). -/
def tallyTaken (s : State) : TallyRec :=
  let r := match s.tally.copyA, s.tally.copyB with
    | some a, some b => if b.1 < a.1 then a.2 else b.2
    | some a, none => a.2
    | none, some b => b.2
    | none, none => TallyRec.zero
  { r with wear := s.tally.cur.wear }

/-- The words of multi-word values that a read shows before a first read of the lowest word latches them (R13): the values at the reset
of what the reset keeps. Those of a new device are 0. -/
def latchKept (s : State) : State :=
  let hi (l : List (Nat × Word)) (off n : Nat) : List (Nat × Word) := smPut 0#32 l off (BitVec.ofNat 32 n)
  let v := (upTo 8).foldl (fun l i => match s.vault.log[i]? with
    | some e => [1, 2, 3].foldl (fun l k => smPut 0#32 l (0x500 + 16 * i + 4 * k) (leWordAt e.bytes k)) l
    | none => l) (hi (hi [] (VAULT_KCNT 1) (s.vault.kcnt / 2 ^ 32)) (VAULT_SLOT_VER 1) ((s.vslot 0).ver / 2 ^ 32))
  let seq := max ((s.tally.copyA.map Prod.fst).getD 0) ((s.tally.copyB.map Prod.fst).getD 0)
  { s with regs := { s.regs with
    vault := { s.regs.vault with latch := v }, book := { s.regs.book with latch := hi [] (BOOK_NEXT_SEQ 1) (s.book.next / 2 ^ 32) },
    tally := { s.regs.tally with latch := hi (hi [] (TALLY_SEQ 1) (seq / 2 ^ 32)) (TALLY_POH 1) (s.tally.cur.poh / 2 ^ 32) } } }

/-- Every volatile state at its reset value; what is fused, non-volatile or held in the tamper domain stays. `last` keeps LAST_RESET. The
changes that the cellar book's writer holds are written first (R400). -/
def volatileReset (s' : State) (last : Bool) : State :=
  let s := s'.bookSave
  let r : State :=
    { tick := 0, regs := GRegs.reset, ch := Vector.ofFn (fun n => Channel.reset n Topo.none false false s.ch[n].freeCtr),
      img := Vector.replicate 4 .reset, loader := ⟨[], none⟩, fuse := s.fuse, host := ⟨[], [], []⟩, cmdq := ⟨[], 0⟩, fault := ⟨none, [], [], [], none, false⟩,
      vault := { s.vault with
        slots := s.vault.slots.map (fun (e : Nat × VSlot) => (e.1, { e.2 with meas := false })), mCmn := none,
        mix := Vector.replicate 4 (List.replicate 48 0), kum := none, quote := none },
      book := { s.book with count := 0 },
      tally := { s.tally with cur := s.tallyTaken, upd := none, lastUpd := none, pohAt := 0 },
      twin := { TwinSt.reset with nvRing := s.twin.nvRing, nvNext := s.twin.nvNext }, router := .reset,
      pwr := { PwrSt.reset with pst := s.pwr.pst, resetN := s.pwr.resetN, gd := s.pwr.gd }, freeCtr := s.freeCtr, out := s.out, held := s.held,
      pending := s.pending }
  let keep (r : State) (b : CB) (off : Nat) : State := r.gsetWord b off (s.gword b off)
  let r1 := (keep (keep (keep r.latchKept .twin TWIN_EPOCH) .image IMAGE_SVN_CMN) .image IMAGE_SVN_CH)
  if last then keep r1 .fault FAULT_LAST_RESET else r1

/-- A device reset with its CAUSE, at the stage from which start-up runs. A feed in range is GOOD again at once; BOOTSEL is sampled
anew only at power-on. -/
def restart (s : State) (cause st : Nat) (last : Bool) : State :=
  let boot := getField (s.gword .pwr PWR_RST_CAUSE) 5 3
  let r := ({ s.volatileReset last with pwr := { (s.volatileReset last).pwr with pst := .cold } }).updTally (fun t => { t with starts := satCount t.starts })
  let r1 := r.gsetWord .pwr PWR_RST_CAUSE (BitVec.ofNat 32 (cause + (if cause = 1 then 0 else boot * 32)))
  let feed (r : State) (f : GF) : State := r.gput f (if cause = 1 then 0 else s.gcur f)
  let r2 := feed (feed (r1.setStage st) F.PWR_STAT_VINA_GOOD) F.PWR_STAT_VINB_GOOD
  let r3 := if cause = 1 then r2 else r2.gsetWord .pwr PWR_VIN (s.gword .pwr PWR_VIN)
  let since (f : GF) : Option Nat := if r3.gflag f then some 0 else none
  r3.updPwr (fun p => { p with feedA := ⟨since F.PWR_STAT_VINA_GOOD, true⟩, feedB := ⟨since F.PWR_STAT_VINB_GOOD, true⟩ })

/-- A fault reset or a safe exit, at the end of its tick (R366, R371). -/
def faultReset (s : State) (cause src : Nat) (inj : Bool) : State :=
  let s1 := s.gsetWord .fault FAULT_LAST_RESET (BitVec.ofNat 32 (2 ^ 31 + b2n inj * 2 ^ 30 + src % 512))
  ((s1.restart cause BOOT_MOSC true).updTally (fun t => { t with faultResets := satCount t.faultResets })).updPwr (fun p => { p with resetEntry := true })

/-- RESET_N low for 1 µs while a feed is GOOD. -/
def pinReset (s : State) : State :=
  if s.powered ∧ (s.gflag F.PWR_STAT_VINA_GOOD ∨ s.gflag F.PWR_STAT_VINB_GOOD) then
    (s.updPwr (fun p => { p with resetN := false })).restart 2 BOOT_RAILS false
  else s

/-- RESET_N high again: start-up goes on at stage MOSC, or with the rails where they had not settled. -/
def resetNRelease (s : State) : State :=
  if s.pwr.resetN || !s.powered then s
  else
    let s1 := s.updPwr (fun p => { p with resetN := true })
    if s1.pwr.gd then s1.setStage BOOT_MOSC else s1

/-! ### Feeds (R432 to R434) -/

def feedGoodF (b : Bool) : GF := if b then F.PWR_STAT_VINB_GOOD else F.PWR_STAT_VINA_GOOD
def feedPassF (b : Bool) : GF := if b then F.PWR_STAT_VINB_PASS else F.PWR_STAT_VINA_PASS
def feedVinF (b : Bool) : GF := if b then F.PWR_VIN_VINB else F.PWR_VIN_VINA
def feedMinF (b : Bool) : GF := if b then F.PWR_FCHK_VINB_MIN else F.PWR_FCHK_VINA_MIN
def feedEvtF (b : Bool) : GF := if b then F.PWR_EVT_VINB else F.PWR_EVT_VINA
def feedOf (s : State) (b : Bool) : Feed := if b then s.pwr.feedB else s.pwr.feedA
def setFeed (s : State) (b : Bool) (f : Feed) : State := s.updPwr (fun p => if b then { p with feedB := f } else { p with feedA := f })
def mv16 (mv : Nat) : Nat := min 0xFFFF mv
def feedInRange (mv : Nat) : Bool := decide (4500 ≤ mv) && decide (mv ≤ 18000)

/-- FEEDS_OK as it follows from both feeds (R434). -/
def feedsSettle (s : State) : State :=
  let v := [false, true].all (fun b => s.gflag (feedGoodF b) && s.gflag (feedPassF b))
  if s.gflag F.PWR_STAT_FEEDS_OK = v then s
  else
    let s1 := (s.gput F.PWR_STAT_FEEDS_OK (b2n v)).gevt F.PWR_EVT_FEEDS_OK
    if v then s1.feedsRise else s1

/-- A feed out of its range for 10 µs. -/
def feedBad (s : State) (b : Bool) (mv : Nat) : State :=
  if !s.powered || feedInRange mv then s
  else
    let s1 := s.gput (feedVinF b) (mv16 mv)
    if !s.gflag (feedGoodF b) then s1
    else ((((s1.gput (feedGoodF b) 0).gevt (feedEvtF b)).setFeed b ⟨none, true⟩).detectLevel (if b then 9 else 8)).feedsSettle

/-- A feed in its range again. -/
def feedGood (s : State) (b : Bool) (mv : Nat) : State :=
  if !s.powered || !feedInRange mv then s
  else
    let s1 := s.gput (feedVinF b) (mv16 mv)
    if s.gflag (feedGoodF b) then s1
    else ((((s1.gput (feedGoodF b) 1).gevt (feedEvtF b)).setFeed b ⟨some s.tick, (s.feedOf b).want⟩).clearLevel (if b then 9 else 8)).feedsSettle

/-- A check of feed `b` ends (R433): its lowest voltage and whether it passed. -/
def feedChecked (s : State) (b : Bool) (low : Nat) (pass : Bool) (slot : Option Nat) : State :=
  let s1 := ((((s.updPwr (fun p => { p with chk := none })).gput (feedMinF b) (mv16 low)).gput (feedPassF b) (b2n pass)).gput F.PWR_STAT_CHK_BUSY 0).gevt F.PWR_EVT_CHK
  let s2 := (s1.setFeed b ⟨if s1.gflag (feedGoodF b) then some s1.tick else none, (s1.feedOf b).want⟩).feedsSettle
  match slot with
  | none => s2
  | some k =>
    if !b then s2.updCmd k (fun c => { c with done := 1 })
    else
      let ok := s2.gflag F.PWR_STAT_VINA_PASS && s2.gflag F.PWR_STAT_VINB_PASS
      (s2.updPwr (fun p => { p with selfTest := none })).endCmd k (if ok then RES_OK else RES_OP_ERROR) (s2.gword .pwr PWR_FCHK).toNat

/-- Whether an automatic check of a feed is due: GOOD for 100 ms, and no check passed since it last stopped being GOOD. -/
def autoDue (s : State) (b : Bool) : Bool :=
  let f := s.feedOf b
  s.gflag (feedGoodF b) && (f.want || !s.gflag (feedPassF b)) && (match f.since with | some t => decide (t + 20000000 ≤ s.tick) | none => false)

/-- A check begins: at start-up VINA then VINB, automatically, or for the self-test in the same order. A missing feed fails at once. -/
def feedCheckStart (s : State) (b : Bool) : State :=
  let go (slot : Option Nat) : State :=
    let s1 := s.setFeed b ⟨(s.feedOf b).since, false⟩
    if s1.gflag (feedGoodF b) then (s1.updPwr (fun p => { p with chk := some (b, slot, s.tick) })).gput F.PWR_STAT_CHK_BUSY 1
    else s1.feedChecked b (s1.gcur (feedVinF b)) false slot
  if !s.clocked || s.pwr.chk.isSome || s.scanning then s
  else if s.stage = BOOT_FEEDCHK then (if (s.feedOf b).want && !(b && s.pwr.feedA.want) then go none else s)
  else if s.autoDue b then go none
  else match s.pwr.selfTest with
    | some k => if decide ((s.cmd? k).map (·.done) = some (b2n b)) then go (some k) else s
    | none => s

/-- The ticks of a feed check (R433). -/
def FEED_CHECK : Nat := 1000000

/-- The check in progress ends: at once where the feed fell below 4.3 V, else after its 5 ms; it passes at or above 4.5 V without a current
limit. -/
def feedCheckComplete (s : State) (low : Nat) (limit : Bool) : State :=
  match s.pwr.chk with
  | none => s
  | some (b, slot, t) => if 4300 ≤ low ∧ s.tick < t + FEED_CHECK then s else s.feedChecked b low (decide (4500 ≤ low) && !limit) slot

/-! ### MOSC and roots (R423 to R430) -/

/-- The code of FREQ for a count over 2,500 BOSC cycles; 0 for none. -/
def moscFreq (count : Nat) : Nat :=
  match ([(1, 1000), (2, 2000), (3, 2500), (4, 5000), (5, 10000)] : List (Nat × Nat)).find? (fun e => (count - e.2 + (e.2 - count)) * 100 ≤ 8 * e.2) with
  | some e => e.1
  | none => 0

/-- The detector's count at stage MOSC: a frequency begins stage ROOT, none leaves the detector to repeat. -/
def moscDetect (s : State) (count : Nat) : State :=
  let f := moscFreq count
  if !s.powered || s.stage ≠ BOOT_MOSC || !s.pwr.resetN || f = 0 then s
  else (((s.gput F.CLKGEN_MOSC_STAT_FREQ f).gput F.CLKGEN_MOSC_STAT_PRESENT 1).gevt F.CLKGEN_EVT_MOSC).setStage BOOT_ROOT |>.setRoot 0 RT_ACQ

def rootSt (s : State) (r : Nat) : Nat := s.gcur (F.CLKGEN_ROOT_STAT_STATE r)

/-- A root enters HOLD. -/
def rootHold (s : State) (r : Nat) : State := (s.setRoot r RT_HOLD).gbump (F.CLKGEN_ROOT_STAT_RELOCKS r)

/-- The source of a root's loss of lock. -/
def rootSrc (r : Nat) : Nat := if r = 0 then 1 else 128 + 96 * (r - 1)

/-- No MOSC edge for 1 µs. -/
def moscLost (s : State) : State :=
  if !s.gflag F.CLKGEN_MOSC_STAT_PRESENT then s
  else
    let s1 := ((s.gput F.CLKGEN_MOSC_STAT_PRESENT 0).gevt F.CLKGEN_EVT_MOSC).gbump F.CLKGEN_MOSC_STAT_LOSSES
    ((upTo 5).foldl (fun s r => if s.rootSt r = RT_LOCKED then s.rootHold r else s) s1).detectLevel 5

/-- MOSC present for 100 µs. -/
def moscReturn (s : State) : State :=
  if !s.powered || s.gcur F.CLKGEN_MOSC_STAT_FREQ == 0 then s
  else
    let s1 := if s.gflag F.CLKGEN_MOSC_STAT_PRESENT then s else ((s.gput F.CLKGEN_MOSC_STAT_PRESENT 1).gevt F.CLKGEN_EVT_MOSC).clearLevel 5
    (upTo 5).foldl (fun s r => if s.rootSt r = RT_HOLD then s.setRoot r RT_ACQ else s) s1

/-- A root in ACQ declares lock. -/
def rootLock (s : State) (r : Nat) : State :=
  if s.rootSt r = RT_ACQ ∧ s.gflag F.CLKGEN_MOSC_STAT_PRESENT then (s.setRoot r RT_LOCKED).clearLevel (rootSrc r) else s

/-- A LOCKED root leaves its window. -/
def rootLockLost (s : State) (r : Nat) : State :=
  if s.rootSt r = RT_LOCKED then ((s.rootHold r).gevt (F.CLKGEN_ROOT_STAT_LOL r)).detectLevel (rootSrc r) else s

/-- Whether a root that runs has in force what R428 leaves undefined: CORE 400 MHz with BUS 800 MHz. -/
def ratioBad (s : State) : Bool :=
  let bad (r : Nat) : Bool := getField (s.guse .clkgen (CLKGEN_ROOT_CFG r)) 0 2 == 3
  (s.clocked && bad 0) || allChans.any (fun n => s.img[n].pwr == .on && bad (n.val + 1))

/-! ### Gates and switches (R374, R375) -/

/-- The code of a block in FORCE.BLOCK. -/
def blockCode (c : Option ChanIx) (blk : Nat) : Nat := (match c with | some n => n.val * 256 | none => 0xFF00) + blk % 256

/-- A forced or stuck case recorded, and its source raised: `k` is 1 for a gate, 2 for a forced switch, 3 for a stuck one. -/
def forceCase (s : State) (c : Option ChanIx) (blk k : Nat) : State :=
  let f := if k = 1 then F.CLKGEN_FORCE_GATE else if k = 2 then F.CLKGEN_FORCE_SWITCH else F.CLKGEN_FORCE_STUCK
  (((s.gevt f).gput F.CLKGEN_FORCE_BLOCK (blockCode c blk)).gevt F.CLKGEN_EVT_FORCE).detect (match c with | some n => 128 + 96 * n.val + k | none => 1 + k)

def gateForce (s : State) (c : Option ChanIx) (blk : Nat) : State := if s.clocked then s.forceCase c blk 1 else s

def switchComplete (s : State) (c : Option ChanIx) (blk : Nat) (how : SwitchEnd) : State :=
  if !s.clocked then s
  else
    let code := blockCode c blk
    let on := s.updPwr (fun p => { p with unclocked := p.unclocked.filter (· != code) })
    match how with
    | .clean => on
    | .forced => on.forceCase c blk 2
    | .stuck => (on.updPwr (fun p => { p with unclocked := code :: p.unclocked })).forceCase c blk 3

/-! ### Power states (R435, R436) -/

/-- A feed rises from OFF or TAMPER_ONLY. -/
def powerOn (s : State) (b : Bool) (mv : Nat) : State :=
  if s.powered || mv < 4500 then s
  else ((s.updPwr (fun p => { p with gd := false })).restart 1 BOOT_RAILS false).feedGood b mv

/-- Both feeds below 4.3 V for 2 µs; `vbat` in mV. -/
def powerFail (s : State) (vbat : Nat) : State :=
  if !s.powered then s
  else
    let p : PState := if 2000 ≤ vbat then .tamperOnly else .off
    let s1 := (s.volatileReset false).updPwr (fun q => { q with pst := p, gd := false })
    if vbat < 1600 then s1.vbatLost else s1

/-- VBAT below 1.6 V while both feeds are off. -/
def vbatLoss (s : State) : State := if s.powered then s else (s.updPwr (fun p => { p with pst := .off })).vbatLost

/-- VBAT at 2.0 V or more while both feeds are off. -/
def vbatApplied (s : State) (vbat : Nat) : State :=
  if s.pwr.pst = .off ∧ 2000 ≤ vbat then s.updPwr (fun p => { p with pst := .tamperOnly }) else s

/-! ### Stages (R439, R440, R441) -/

/-- Rails in regulation: PWR_GD is released and BOOTSEL sampled. -/
def stageRails (s : State) (sel : Nat) : State :=
  if !s.powered || s.stage ≠ BOOT_RAILS || !s.pwr.resetN || s.pwr.gd then s
  else
    let s1 := (s.gput F.PWR_RST_CAUSE_BOOTSEL sel).gput F.PWR_RST_CAUSE_BOOTSEL_BAD (b2n (sel % 4 == 3))
    (s1.updPwr (fun p => { p with gd := true })).setStage BOOT_MOSC

/-- ROOT0 LOCKED: the common domain switches from BOSC; a stuck switch waits for its retry. -/
def stageRoot (s : State) (how : SwitchEnd) : State :=
  if !s.powered || s.stage ≠ BOOT_ROOT || s.rootSt 0 ≠ RT_LOCKED || s.pwr.rootRetry then s
  else match how with
    | .clean => s.setStage BOOT_FEEDCHK
    | .forced => (s.setStage BOOT_FEEDCHK).forceCase none 8 2
    | .stuck => (s.updPwr (fun p => { p with rootRetry := true })).forceCase none 8 3

/-- 10 ms after a stuck switch: the ROOT stage again. -/
def rootStageRetry (s : State) : State :=
  if s.pwr.rootRetry && s.stage == BOOT_ROOT then s.updPwr (fun p => { p with rootRetry := false }) else s

/-- Both start-up checks have ended. -/
def stageFeedchk (s : State) : State :=
  if s.powered && s.stage == BOOT_FEEDCHK && s.pwr.chk.isNone && !s.pwr.feedA.want && !s.pwr.feedB.want then
    (s.setStage BOOT_VAULT).gput F.VAULT_STAT_STAGE VS_SEED
  else s

/-- The end of stage VAULT: the vault, the tally's copies, the entries that waited for start-up. -/
def stageVault (s : State) : State :=
  if !s.powered || s.stage ≠ BOOT_VAULT || s.gcur F.VAULT_STAT_STAGE = VS_STOPPED then s
  else
    let s1 := s.vaultStage
    let s2 := if s1.tally.copyA.isNone && s1.tally.copyB.isNone && !s1.gflag F.TALLY_STAT_LOST then
        ((s1.gput F.TALLY_STAT_LOST 1).gevt F.TALLY_EVT_LOST).detect 97 else s1
    let s3 := if s2.pwr.resetEntry then
        (s2.updPwr (fun p => { p with resetEntry := false })).book1
          ⟨.fault (s2.gcur F.FAULT_LAST_RESET_SRC), 0x06, gReg .fault FAULT_LAST_RESET, 0#32, s2.gword .fault FAULT_LAST_RESET⟩
      else s2
    s3.setStage BOOT_WAIT

/-- Each second out of reset, counted in common ticks from start-up (R414): POH, the temperature and voltage histograms, the registers that show them, FS11 and FS12. -/
def pohSecond (s : State) (tj : Int) (va vb : Nat) : State :=
  if !s.clocked || s.tick % 200000000 != 0 || decide (s.tick ≤ s.tally.pohAt) then s
  else
    let s1 := { s with tally := { s.tally with pohAt := s.tick } }.updTally (fun t => { t with
      poh := min (2 ^ 64 - 1) (t.poh + 1), tj := bucketInc t.tj (tjBucket tj), vina := bucketInc t.vina (vinBucket va), vinb := bucketInc t.vinb (vinBucket vb) })
    let s2 := ((s1.gput F.PWR_TJ_TJ (unsigned 16 tj)).gput F.PWR_VIN_VINA (mv16 va)).gput F.PWR_VIN_VINB (mv16 vb)
    let level (s : State) (n : Nat) (lim : Int) : State :=
      if lim < tj then (if s.gflag (F.FAULT_SRC_STAT_ACTIVE n) then s else s.detectLevel n) else s.clearLevel n
    level (level s2 11 (110 * 16)) 12 (125 * 16)

end State
end Sys2Proof.Machine
end

