-- ==== Sys2Proof/Machine/RouterOps.lean ====
section
/-! DEFINITION. The bench router: LSAs, addresses, routes, forwarding, cable calibration (R288 to R295, R300, R305). -/
namespace Sys2Proof.Machine

/-- The fold of a DEVID's bytes (R291). -/
def h0 (devid : Nat) : Nat := (upTo 8).foldl (fun h k => h ^^^ (devid / 2 ^ (8 * k) % 256)) 0

/-- The first address from `a` on that is not taken. -/
def probe (taken : List Nat) : Nat → Nat → Nat
  | 0, a => a
  | n + 1, a => if taken.contains a then probe taken n ((a + 1) % 256) else a

/-- A DEVID put into a rising list. -/
def insUp (d : Nat) : List Nat → List Nat
  | [] => [d]
  | x :: r => if d < x then d :: x :: r else if d = x then x :: r else x :: insUp d r

/-- assign of R291: (DEVID, address) of the 256 lowest devices. -/
def assign (devs : List Nat) : List (Nat × Nat) :=
  ((devs.foldl (fun l d => insUp d l) []).take 256).foldl (fun m d => m ++ [(d, probe (m.map Prod.snd) 256 (h0 d))]) []

/-- An edge between two devices: its ends, the link index at the first, its weight. -/
structure Edge where
  a : Nat
  b : Nat
  link : Nat
  w : Nat
  deriving DecidableEq, Repr

/-- The edges out of a device that both ends list (R290). -/
def edgesOf (all : List Lsa) (d : Lsa) : List Edge := d.links.filterMap (fun l =>
  (all.find? (fun e => e.devid == l.nbr)).bind (fun e =>
    (e.links.find? (fun m => m.link == l.nbrLink && m.nbr == d.devid && m.nbrLink == l.link)).map
      (fun m => ⟨d.devid, l.nbr, l.link, max l.ldly m.ldly⟩)))

/-- A path found: DEVID, weight, hops, first link. -/
structure PathTo where
  devid : Nat
  w : Nat
  hops : Nat
  link : Nat
  deriving DecidableEq, Repr

/-- The order of R292: weight, hops, first link. -/
def PathTo.better (p q : PathTo) : Bool :=
  decide (p.w < q.w) || (p.w == q.w && (decide (p.hops < q.hops) || (p.hops == q.hops && decide (p.link < q.link))))

/-- The best paths, one edge longer where that is better. -/
def relax (own : Nat) (es : List Edge) (ps : List PathTo) : List PathTo :=
  es.foldl (fun ps e =>
    match (if e.a = own then some (⟨own, 0, 0, e.link⟩ : PathTo) else ps.find? (fun p => p.devid == e.a)) with
    | none => ps
    | some p =>
      let n : PathTo := ⟨e.b, p.w + e.w, p.hops + 1, p.link⟩
      if e.b = own then ps
      else match ps.find? (fun q => q.devid == e.b) with
        | none => n :: ps
        | some q => if n.better q then n :: ps.filter (fun x => x.devid != e.b) else ps) ps

namespace State

def updRouter (s : State) (f : RouterSt → RouterSt) : State := { s with router := f s.router }
def routerOn (s : State) : Bool := s.gflag F.BENCH_CFG_EN
/-- What the headers of bench frames say of this device. -/
def benchId (s : State) : BenchId := ⟨s.fuse.devid, if s.gflag F.BENCH_STAT_ADDR_VALID then some (s.gcur F.BENCH_STAT_ADDR) else none⟩
def linkChan (l : Nat) : ChanIx := Fin.ofNat 4 (l / 2)
def linkSide (l : Nat) : Fin 2 := Fin.ofNat 2 l
def linkIsUp (s : State) (l : Nat) : Bool := s.running (linkChan l) && s.ch[linkChan l].bstat (linkSide l) == BL_UP
def upLinks (s : State) : List Nat := (upTo 8).filter s.linkIsUp

/-- The entry of an UP link in an LSA. -/
def lsaEnt (s : State) (l : Nat) : LsaLink :=
  let c := s.ch[linkChan l]
  let x := (linkSide l).val
  ⟨l, c.cur (F.CHCTL_B_STAT_NBR_LINK x), c.cur (F.CHCTL_B_LDLY_LDLY x), c.cur (F.CHCTL_B_NBR_LO_ID_LO x) + 2 ^ 32 * c.cur (F.CHCTL_B_NBR_HI_ID_HI x)⟩

/-- This device as its last LSA lists it. -/
def ownLsa (s : State) : Lsa := ⟨s.fuse.devid, s.gcur F.BENCH_LSA_SEQ_SEQ, s.runBits, s.router.links, s.tick⟩

/-- The frame of this device's last LSA (R289). -/
def lsaFrame (s : State) : Bytes :=
  let a := s.ownLsa
  let ent (l : LsaLink) : Bytes := leBytes 1 l.link ++ leBytes 1 l.nbrLink ++ leBytes 2 0 ++ leBytes 4 l.ldly ++ leBytes 8 l.nbr
  benchFrame s.benchId BT_LSA 0 0 (leBytes 4 a.seq ++ leBytes 1 a.run ++ leBytes 1 a.links.length ++ leBytes 2 0 ++ a.links.flatMap ent)

/-- A frame sent on UP links. -/
def sendLinks (s : State) (ls : List Nat) (bs : Bytes) : State := ls.foldl (fun s l => s.emit (.bench l bs)) s

/-- A new LSA of this device on every UP link. Entries that differ from the last LSA's are a change of an edge (R290, R292). -/
def lsaNew (s : State) : State :=
  if !s.routerOn || s.safe then s
  else
    let ls := s.upLinks.map s.lsaEnt
    let s1 := (s.gbump F.BENCH_LSA_SEQ_SEQ).updRouter (fun r => { r with links := ls, lsaAt := some s.tick, due := r.due || r.links != ls })
    s1.sendLinks s1.upLinks s1.lsaFrame

/-- The period of LSAs, 100 ms. -/
def LSA_TICKS : Nat := 20000000

/-- Whether an LSA is due: 100 ms after the last, or at once where the set of UP links is another (notes/assumptions/107.md). -/
def lsaDue (s : State) : Bool :=
  s.upLinks != s.router.links.map (·.link) || (match s.router.lsaAt with | none => true | some t => decide (t + LSA_TICKS ≤ s.tick))

def lsaSend (s : State) : State := if s.lsaDue then s.lsaNew else s

/-- The LSA that a payload gives. -/
def parseLsa (bs : Bytes) (tick : Nat) : Lsa :=
  ⟨leAt bs 8 8, leAt bs 16 4, leAt bs 20 1 % 16,
   (upTo (leAt bs 21 1)).map (fun j => ⟨leAt bs (24 + 16 * j) 1, leAt bs (25 + 16 * j) 1, leAt bs (28 + 16 * j) 4, leAt bs (32 + 16 * j) 8⟩), tick⟩

/-- An LSA received on a link (R290). -/
def lsaRx (s : State) (n : ChanIx) (x : Fin 2) (bs : Bytes) : State :=
  if !s.running n || s.ch[n].bstat x == BL_DOWN then s
  else if !benchGood bs || leAt bs 0 1 != BT_LSA || leAt bs 2 2 != 8 + 16 * leAt bs 21 1 then s.onCh n (fun c => c.benchDrop x)
  else if !s.routerOn then s
  else
    let a := parseLsa bs s.tick
    if a.devid = s.fuse.devid then
      if s.gcur F.BENCH_LSA_SEQ_SEQ ≤ a.seq then (s.gput F.BENCH_LSA_SEQ_SEQ a.seq).lsaNew else s.gbump F.BENCH_CNT1_LSA_OLD
    else
      let put (s : State) (fresh : Bool) : State :=
        let s1 := s.updRouter (fun r => { r with
          lsas := a :: r.lsas.filter (fun e => e.devid != a.devid), due := true, changed := if fresh then a.devid :: r.changed else r.changed })
        (if fresh then s1.gevt F.BENCH_EVT_TOPO else s1).sendLinks (s1.upLinks.filter (fun l => l != 2 * n.val + x.val)) bs
      match s.router.lsas.find? (fun e => e.devid == a.devid) with
      | some e => if e.seq < a.seq then put s false else s.gbump F.BENCH_CNT1_LSA_OLD
      | none => put s true

/-- HOLD seconds without an LSA of a device (R300). -/
def lsaExpire (s : State) (devid : Nat) : State :=
  let old (e : Lsa) : Bool := e.devid == devid && decide (e.at' + s.gfld F.BENCH_CFG_HOLD * SEC_TICKS ≤ s.tick)
  if s.router.lsas.any old then
    (s.updRouter (fun r => { r with lsas := r.lsas.filter (fun e => !old e), due := true, changed := devid :: r.changed })).gevt F.BENCH_EVT_TOPO
  else s

/-! ### Addresses and routes (R291, R292) -/

/-- The routes over the edges to every addressed device but this one. -/
def findRoutes (s : State) (addrs : List (Nat × Nat)) : List Route :=
  let all := s.ownLsa :: s.router.lsas
  let es := all.flatMap (edgesOf all)
  let ps := iter (relax s.fuse.devid es) all.length []
  addrs.filterMap (fun a => (ps.find? (fun p => p.devid == a.1)).map (fun p => ⟨a.2, p.link, p.hops, p.w⟩))

/-- The address of a device in one of two maps. -/
def addrOf (ms : List (List (Nat × Nat))) (d : Nat) : Nat := (ms.findSome? (fun m => (m.find? (fun e => e.1 == d)).map Prod.snd)).getD 0

/-- A route as its register shows it. -/
def routeWord (r : Route) : Word := BitVec.ofNat 32 (2 ^ 31 + r.link * 2 ^ 28 + min 15 r.hops * 2 ^ 24 + min 0xFFFFFF (r.weight / 1000))

/-- The computation in a tick whose count is a multiple of 2,000,000. -/
def routeCompute (s : State) : State :=
  if !s.routerOn || !s.router.due || s.tick % 2000000 != 0 then s
  else
    let own := s.fuse.devid
    let devs := own :: s.router.lsas.map (·.devid)
    let addrs := assign devs
    let routes := s.findRoutes addrs
    let old := s.gword .bench BENCH_STAT
    let mine := (addrs.find? (fun e => e.1 == own)).map Prod.snd
    let full := mine.isNone
    let s1 := ((s.gput F.BENCH_STAT_DEVS devs.length).gput F.BENCH_STAT_FULL (b2n full)).gput F.BENCH_STAT_ADDR_VALID (b2n mine.isSome)
    let s2 := s1.gput F.BENCH_STAT_ADDR (mine.getD 0)
    let s3 := if full && !bit old 30 then s2.gevt F.BENCH_EVT_FULL else s2
    let moved := getField old 31 1 ≠ b2n mine.isSome ∨ getField old 0 8 ≠ mine.getD 0
    let s4 :=
      if moved then
        let low := s.router.changed.foldl min (s.router.changed.headD own)
        (s3.gevt F.BENCH_EVT_ADDR).bookSt (.bench (addrOf [addrs, s.router.addrs] low)) (gReg .bench BENCH_STAT) old (s3.gword .bench BENCH_STAT)
      else s3
    let s5 := if routes = s.router.routes then s4 else s4.gevt F.BENCH_EVT_ROUTE
    let s6 := (upTo 256).foldl (fun s a =>
      s.gsetWord .bench (0x1000 + 4 * a) (match routes.find? (fun r => r.addr == a) with | some r => routeWord r | none => 0#32)) s5
    let s7 := (upTo 256).foldl (fun s a => s.put64 .bench (0x1400 + 8 * a) (match addrs.find? (fun e => e.2 == a) with | some e => e.1 | none => 0)) s6
    s7.updRouter (fun r => { r with changed := [], due := false, addrs := addrs, routes := routes })

/-! ### TIME frames (R293 to R295) -/

/-- A channel's TIME frames, unless the device has no address for being outside the 256 lowest. -/
def benchTimes (s : State) (n : ChanIx) (ps0 ps1 : Nat) : State :=
  if s.gflag F.BENCH_STAT_FULL || s.safe then s else s.onCh n (fun c => c.benchTimeSend s.benchId ps0 ps1)

/-- A TIME frame as it leaves, its residence `x` ps. -/
def forwarded (bs : Bytes) (x : Nat) : Bytes :=
  let b1 := benchPatch bs 1 (leBytes 1 (leAt bs 1 1 - 1))
  let corr := signed 64 (leAt bs 64 8) + x
  let bnd := satAdd (leAt bs 72 4) (satAdd (satCap (tebOfPs (ceilDiv x 65536))) 1)
  benchPatch b1 64 (leBytes 8 (unsigned 64 corr) ++ leBytes 4 bnd)

/-- A frame at its egress: it leaves on its link, or is discarded where the link is UP no more. -/
def egressOn (bs : Bytes) (s : State) (o : Nat × Nat × Nat) : State :=
  if s.safe then s
  else if s.linkIsUp o.1 then (s.emit (.bench o.1 (forwarded bs o.2.2))).gbump F.BENCH_CNT0_FWD
  else
    let s1 := s.gbump F.BENCH_CNT1_ABSENT
    if s.running (linkChan o.1) then s1 else s1.reqAbsent (linkChan o.1)

/-- Forwarding, the router's last step in a tick (R302): the frames whose egress tick it is. -/
def forwardTick (s : State) : State :=
  let now (o : Nat × Nat × Nat) : Bool := decide (o.2.1 ≤ s.tick)
  let s1 := s.updRouter (fun r => { r with
    flight := (r.flight.map (fun t => { t with outs := t.outs.filter (fun o => !now o) })).filter (fun t => !t.outs.isEmpty) })
  s.router.flight.foldl (fun s t => (t.outs.filter now).foldl (egressOn t.bytes) s) s1

/-- The router's part of a TIME frame that came in on link `l`, its ingress stamp `ps` ps into this tick. -/
def forward (s : State) (l : Nat) (bs : Bytes) (ps : Nat) (residence : List Nat) : State :=
  if !s.routerOn || s.safe || s.gflag F.BENCH_STAT_FULL || leAt bs 8 8 == s.fuse.devid then s
  else
    let a := leAt bs 4 1
    if !(leAt bs 6 1 % 2 == 1 && s.router.routes.any (fun r => r.addr == a && r.link == l)) then s.gbump F.BENCH_CNT0_RPF_DROP
    else if leAt bs 1 1 < 2 then s
    else
      let outs := (s.upLinks.filter (fun k => k != l)).map (fun k => let x := residence.getD k 0; (k, s.tick + (ps + x) / 5000, x))
      if outs.isEmpty then s else s.updRouter (fun r => { r with flight := r.flight ++ [⟨l, bs, outs⟩] })

/-- A TIME frame at an endpoint; `residence` gives the residence for each egress link. -/
def timeRx (s : State) (n : ChanIx) (x : Fin 2) (bs : Bytes) (ps : Nat) (residence : List Nat) : State :=
  if !s.running n then s
  else
    let r := s.ch[n].benchTimeRx s.fuse.devid x bs ps
    let s1 := s.onCh n (fun _ => r.2)
    match r.1 with
    | some b => s1.forward (2 * n.val + x.val) b ps residence
    | none => s1

/-! ### Cable calibration (R305) -/

def calLinks (s : State) : Nat × Nat := (s.gcur F.BENCH_CAL_CTL_LINK_A, s.gcur F.BENCH_CAL_CTL_LINK_B)
def calOk (s : State) : Bool := s.linkIsUp s.calLinks.1 && s.linkIsUp s.calLinks.2 && s.calLinks.1 != s.calLinks.2

/-- GO: the measurement starts, or ends at once with ERR. -/
def calGo (s : State) : State :=
  if s.gflag F.BENCH_CAL_CTL_BUSY then s
  else if s.calOk then s.gput F.BENCH_CAL_CTL_BUSY 1 else s.gevt F.BENCH_CAL_CTL_ERR

/-- The mean of a direction's one-way delays, floored, saturated. -/
def calMean (ds : List Nat) : Nat := min 0xFFFFFFFF (ds.sum / max 1 ds.length)

/-- The end of the measurement: the one-way delays of the HELLO frames of each direction, in ps. -/
def calDone (s : State) (ab ba : List Nat) : State :=
  if !s.gflag F.BENCH_CAL_CTL_BUSY then s
  else
    let s1 := s.gput F.BENCH_CAL_CTL_BUSY 0
    if s1.calOk then ((s1.gput (F.BENCH_CAL_AB_DLY 0) (calMean ab)).gput (F.BENCH_CAL_AB_DLY 1) (calMean ba)).gevt F.BENCH_CAL_CTL_DONE
    else s1.gevt F.BENCH_CAL_CTL_ERR

end State
end Sys2Proof.Machine
end

