-- ==== Sys2Proof/Machine/ComRegs.lean ====
section
/-! DEFINITION. The registers of the common complex (R7 to R13): what they show, how a word is stored in them, their commits. -/
namespace Sys2Proof.Machine

/-- The multi-word values of the common complex's blocks (R13). -/
def gbMulti : CB → List (Nat × List (Nat × Nat) × Nat)
  | .cmdq => [(0x10, [], 2)]
  | .vault => [(0x10, [], 2), (0x18, [], 2), (0x38, [], 2), (0x60, [], 12), (0x100, [], 24), (0x500, [(16, 8)], 4)]
  | .book => [(0x8, [], 2), (0x24, [], 2), (0x40, [], 2)]
  | .tally => [(0x8, [], 2), (0x10, [], 2)]
  | .twin => [(0x8, [], 2), (0x60, [(8, 4)], 2)]
  | .bench => [(0x1400, [(8, 256)], 2)]
  | .image => [(0x100, [], 12), (0x140, [(64, 4)], 12), (0x240, [(64, 4)], 12)]
  | _ => []

/-- Whether a block has a LOCK bit in its CTL register at offset 0, and whether it has a COMMIT there (R8, R12). -/
def gbHasLock : CB → Bool
  | .fault | .vault | .twin | .bench | .clkgen | .image => true
  | _ => false

namespace State

def gLocked (s : State) (b : CB) : Bool := gbHasLock b && bit (s.gword b 0) 29

/-! ### What registers show -/

/-- The state of fault sources 32k to 32k + 31: PENDk (R363, R377). -/
def pendWord (s : State) (k : Nat) : Word := BitVec.ofNat 32 ((upTo 32).foldl (fun a j =>
  a + b2n (getField (s.gword .fault (FAULT_SRC_STAT (32 * k + j))) 30 2 != 0) * 2 ^ j) 0)

/-- ERRN_STAT (R364): the sources that hold ERR_N, and the safe state. -/
def errnWord (s : State) : Word :=
  let n := (s.fault.errReal ++ s.fault.errInj).dedup.length
  BitVec.ofNat 32 (b2n (n != 0 || s.safe) * 2 ^ 31 + b2n s.safe * 2 ^ 30 + n)

/-- The SEQ of the last tally update (R418, R422). -/
def tallySeq (s : State) : Nat := max ((s.tally.copyA.map Prod.fst).getD 0) ((s.tally.copyB.map Prod.fst).getD 0)
/-- Whether the last update went to copy B. -/
def tallyLastB (s : State) : Bool := decide ((s.tally.copyA.map Prod.fst).getD 0 < (s.tally.copyB.map Prod.fst).getD 0)

/-- What a register of the common complex shows of the state, where it is no stored word. -/
def gView (s : State) (b : CB) (off : Nat) : Option Word :=
  let nat (n : Nat) : Option Word := some (BitVec.ofNat 32 n)
  match b with
  | .hostif => if off = HOSTIF_ID_REV then some s.fuse.idRev else if off = HOSTIF_ID_FEAT then some s.fuse.idFeat else none
  | .cmdq =>
    if off = CMDQ_STAT then some (putField (s.gword .cmdq CMDQ_STAT) 0 7 (countIf (fun k => s.cmdState k == CS_FREE) (upTo 64)))
    else none
  | .fault =>
    if 0x100 ≤ off ∧ off < 0x140 then some (s.pendWord ((off - 0x100) / 4)) else if off = FAULT_ERRN_STAT then some s.errnWord else none
  | .vault => s.vaultView off
  | .book =>
    if off = BOOK_STAT then
      some (putField (putField (s.gword .book BOOK_STAT) 30 1 (b2n (decide (1000 ≤ s.book.count)))) 0 7 s.book.buf.length)
    else if off = BOOK_NEXT_SEQ 0 then nat s.book.next
    else if off = BOOK_NEXT_SEQ 1 then nat (s.book.next / 2 ^ 32)
    else none
  | .tally =>
    if off = TALLY_STAT then some (putField (s.gword .tally TALLY_STAT) 30 1 (b2n s.tallyLastB))
    else if off = TALLY_SEQ 0 then nat s.tallySeq
    else if off = TALLY_SEQ 1 then nat (s.tallySeq / 2 ^ 32)
    else if off = TALLY_POH 0 then nat s.tally.cur.poh
    else if off = TALLY_POH 1 then nat (s.tally.cur.poh / 2 ^ 32)
    else if off = TALLY_RD_DATA then some (leWordAt (s.tally.cur.bytes s.tallySeq) (s.gcur F.TALLY_RD_IDX_IDX))
    else none
  | .twin => if off = TWIN_STAT then some s.twinStatWord else none
  | _ => none

/-- The word that a register of the common complex holds or shows now. -/
def gShow (s : State) (b : CB) (off : Nat) : Word := match s.gView b off with | some w => w | none => s.gword b off

/-- The words of multi-word values that are fused (R334, R335, R350): a latch never holds another value of them. -/
def fusedWord (b : CB) (off : Nat) : Bool := b == .vault && (off == VAULT_DEVID 1 || (decide (0x100 < off) && decide (off < 0x160)))

/-- A read of a register of the common complex (R13). -/
def gRead (s : State) (b : CB) (off : Nat) : Word × State :=
  match multiIn (gbMulti b) off with
  | none => (s.gShow b off, s)
  | some (base, n) =>
    let f := s.rf b
    if off = base then
      (s.gShow b off, s.setRf b { f with
        latch := (upTo n).foldl (fun l k => smPut (gbRst b (base + 4 * k)) l (base + 4 * k) (s.gShow b (base + 4 * k))) f.latch })
    else (if fusedWord b off then s.gShow b off else smGet (gbRst b off) f.latch off, s)

/-! ### Commits (R12, R283, R304, R425) -/

/-- Whether the block was locked before the writes of this tick. -/
def gWasLocked (s : State) (b : CB) : Bool := gbHasLock b && bit (smGet (gbRst b 0) ((s.rf b).before (gbRst b)) 0) 29

/-- The shadows that a commit copies: as they stood before the other writes of this tick; a locked block's RWL fields stay as they are in
use (R8, R12). -/
def gShadows (s : State) (b : CB) : List (Nat × Word) :=
  let sh := smPut (gbRst b 0) ((s.rf b).before (gbRst b)) 0 (s.gword b 0)
  if s.gWasLocked b then frozenShadows (gbRegs b) (gbRst b) (s.rf b).use sh else sh

/-- A commit of a block: its shadows come into use, or CERR is set. -/
def gCommit (s : State) (b : CB) (ok : State → Bool) : State :=
  let f := s.rf b
  let sh := s.gShadows b
  if ok (s.setRf b { f with cur := sh, pre := [] }) then s.setRf b { f with use := sh } else s.gevtMask b 0 (2 ^ 30)

/-- CLKGEN: EXPECT is any, or the frequency found. -/
def clkgenOk (s : State) : Bool :=
  let e := s.gcur F.CLKGEN_MOSC_CFG_EXPECT
  e == 0 || e == s.gcur F.CLKGEN_MOSC_STAT_FREQ
def twinOk (s : State) : Bool :=
  let v := s.gcur F.TWIN_CFG_VINT_PER
  decide (1 ≤ v) && decide (v ≤ 60) && s.gcur F.TWIN_CFG_BOOT_WAIT != 0
def benchOk (s : State) : Bool := s.gcur F.BENCH_CFG_HOLD != 0

/-- COMMIT of a block that has one. -/
def commitBlk (s : State) (b : CB) : State :=
  match b with
  | .clkgen => s.gCommit .clkgen clkgenOk
  | .twin => s.gCommit .twin twinOk
  | .bench => s.gCommit .bench benchOk
  | _ => s

/-! ### Stored words -/

/-- One word stored under the field rules; R12's memory of the word before it is kept for a write that is not the loader's. -/
def gStore (s : State) (loader : Bool) (b : CB) (off : Nat) (v : Word) : State :=
  match findReg (gbRegs b) off with
  | none => s
  | some g =>
    let f := s.rf b
    let old := s.gword b off
    let new := g.write (s.gLocked b) v (smGet 0#32 f.hset off) old
    s.setRf b { f with
      cur := smPut (gbRst b off) f.cur off new, pre := if loader || f.pre.any (fun e => e.1 == off) then f.pre else (off, old) :: f.pre }

/-- Whether the register's own rule ignores a write: REACT of FS0 and of reserved sources (R360, R369), the mirror's registers while EN
is 1 (R401), a descriptor word of a slot that is not FREE or that is RO (R387, R388). -/
def gIgnores (s : State) (b : CB) (off : Nat) : Bool :=
  match b with
  | .fault => decide (0x1000 ≤ off) && decide (off < 0x1800) && (off == 0x1000 || (srcReact ((off - 0x1000) / 4)).isNone)
  | .book => (off == BOOK_MIR_CFG || off == BOOK_MIR_BASE_LO || off == BOOK_MIR_BASE_HI) && s.gflag F.BOOK_MIR_CFG_EN
  | .cmdq =>
    decide (0x1000 ≤ off) &&
      (s.cmdState ((off - 0x1000) / 0x40) != CS_FREE || (let w := (off - 0x1000) % 0x40 / 4; w == 1 || w == 14 || w == 15))
  | _ => false

/-- What storing a word brings about beside the word: the mirror's start, the asymmetry's STEPW, ERR_N's sources, a vector unmasked. -/
def gStored (s : State) (b : CB) (off : Nat) (v : Word) : State :=
  match b with
  | .book => if off = BOOK_MIR_CFG ∧ bit v 31 then (s.gput F.BOOK_MIR_WPTR_WPTR 0).gput F.BOOK_MIR_RPTR_RPTR 0 else s
  | .twin =>
    -- a write of the twin path's asymmetry clears the STEPW of L15 (R83)
    if off = TWIN_TCAL ∨ off = TWIN_TBUD then
      allChans.foldl (fun s n => if s.running n then s.setCh n (s.ch[n].updLane 15 (fun l => { l with stepW := 0 })) else s) s
    else s
  | .fault =>
    if 0x2000 ≤ off ∧ off < 0x2800 then
      let n := (off - 0x2000) / 4
      let w := s.gword .fault off
      { s with fault := { s.fault with
        errReal := if bit w 31 then s.fault.errReal else s.fault.errReal.filter (· != n),
        errInj := if bit w 30 then s.fault.errInj else s.fault.errInj.filter (· != n) } }
    else s
  | .hostif => if 0x8000 ≤ off ∧ off < 0x8400 then s.msixFlush else s
  | .vault =>
    -- KUM_BUF is write-only; the vault keeps its words
    if 0x1000 ≤ off ∧ off < 0x1400 then s.gsetWord .vault off v else s
  | _ => s

/-- A word written to a register of the common complex, with the multi-word rule: whether a field of it counts as a change (R23), and the
state. -/
def gWriteFields (s : State) (loader : Bool) (b : CB) (off : Nat) (v : Word) : Bool × State :=
  match findReg (gbRegs b) off with
  | none => (false, s)
  | some g =>
    if !g.writable || s.gIgnores b off then (false, s)
    else
      let acts := g.acts (s.gLocked b) v
      match multiIn (gbMulti b) off with
      | none => (acts, (s.gStore loader b off v).gStored b off v)
      | some (base, n) =>
        let f := s.rf b
        if off = base + 4 * (n - 1) then
          let s1 := (upTo (n - 1)).foldl (fun (s : State) k =>
            match f.held.find? (fun e => e.1 == base + 4 * k) with
            | some e => s.gStore loader b e.1 e.2
            | none => s) s
          let s2 := s1.gStore loader b off v
          (acts, s2.setRf b { s2.rf b with held := f.held.filter (fun e => e.1 < base || base + 4 * n ≤ e.1) })
        else (acts, if acts then s.setRf b { f with held := smIns f.held off v } else s)

end State
end Sys2Proof.Machine
end

