-- ==== Sys2Proof/Machine/TallyOps.lean ====
section
/-! DEFINITION. The tally's updates and its export block (R414 to R420), the read window of the cellar book (R402). -/
namespace Sys2Proof.Machine

/-- The ticks between scheduled updates, and those in which an UPD_NOW is rejected (R418). -/
def TALLY_PERIOD : Nat := 120000000000
def TALLY_HOLDOFF : Nat := 12000000000
/-- The bytes of an export block (R419). -/
def EXPORT_LEN : Nat := 4264

namespace State

def updTallySt (s : State) (f : TallySt → TallySt) : State := { s with tally := f s.tally }

/-- The copy that the next update writes: the one that the last update did not use; copy A while neither is valid. -/
def tallyTarget (s : State) : Bool := if s.tally.copyA.isNone && s.tally.copyB.isNone then false else !s.tallyLastB

/-- An update starts: its record is fixed, and the copy being written is no longer valid until its CRC word is. -/
def tallyStart (s : State) : State :=
  let b := s.tallyTarget
  let n := s.tallySeq + 1
  let s1 := s.updTallySt (fun t =>
    if b then { t with copyB := none, upd := some (n, true, t.cur), lastUpd := some s.tick }
    else { t with copyA := none, upd := some (n, false, t.cur), lastUpd := some s.tick })
  -- an absent channel answers ABSENT, and the values of the last update stay (R329)
  allChans.foldl (fun s n => if s.running n then s else s.reqAbsent n) (s1.gput F.TALLY_STAT_BUSY 1)

/-- The 10-minute schedule, from start-up. -/
def tallyTimed (s : State) : State :=
  if s.clocked && decide (0 < s.tick) && s.tick % TALLY_PERIOD == 0 && s.tally.upd.isNone && s.tally.lastUpd != some s.tick then s.tallyStart else s

/-- UPD_NOW: rejected within 60 s of the start of the last update or while one is in progress. -/
def tallyNow (s : State) : State :=
  let near := match s.tally.lastUpd with | some t => decide (s.tick < t + TALLY_HOLDOFF) | none => false
  if near || s.tally.upd.isSome then s.gevt F.TALLY_STAT_UPD_REJ else s.tallyStart

/-- The commit point of an update: its CRC word is written. -/
def tallyCommit (s : State) : State :=
  match s.tally.upd with
  | none => s
  | some (n, b, r) =>
    let s1 := (s.wearOn 0).updTallySt (fun t => if b then { t with copyB := some (n, r), upd := none } else { t with copyA := some (n, r), upd := none })
    (s1.gput F.TALLY_STAT_BUSY 0).gevt F.TALLY_EVT_UPD

/-- The counts of the tick in which an update starts are in the update (R420). -/
def tallyFix (s : State) : State :=
  if s.tally.lastUpd = some s.tick then s.updTallySt (fun t => { t with upd := t.upd.map (fun u => (u.1, u.2.1, t.cur)) }) else s

/-- The SEQ in an export: that of an update that starts in its tick (R420), else that of the last. -/
def exportSeq (s : State) : Nat :=
  match s.tally.upd with
  | some (n, _) => if s.tally.lastUpd = some s.tick then n else s.tallySeq
  | none => s.tallySeq

/-- The export block, fixed in the tick in which the operation starts. -/
def exportBlock (s : State) : Bytes × State :=
  let signed : Bool := !s.orphanedVault && s.gcur F.VAULT_STAT_STAGE == VS_READY
  let time : Nat := match s.lowestRun with | some n => unsigned 128 s.ch[n].now | none => 0
  let body := leBytes 4 0x58504C54 ++ leBytes 1 1 ++ leBytes 1 (b2n (!signed)) ++ leBytes 2 0 ++ s.devidLe ++ leBytes 16 time ++ leBytes 8 s.tick ++
    leBytes 4 EXPORT_LEN ++ leBytes 20 0 ++ s.tally.cur.bytes s.exportSeq
  if signed then
    let r := s.dikSign (sha384 body)
    (body ++ r.1, r.2)
  else (body ++ List.replicate 104 0, s)

/-! ### The read window of the cellar book -/

/-- Words put into RD_DATA. -/
def putRdData (s : State) (bs : Bytes) : State := (upTo (bs.length / 4)).foldl (fun s k => s.gsetWord .book (BOOK_RD_DATA k) (leWordAt bs k)) s

/-- GO of RD_CTL (R402): the entry whose SEQ is RD_SEQ, or the signature record whose span holds it, those of this tick included. -/
def bookRead (s0 : State) : State :=
  let s := s0.bookFlush
  let n := s.get64 .book (BOOK_RD_SEQ 0)
  let found : Option Bytes :=
    if s.gflag F.BOOK_RD_CTL_SIG then (s.book.sigs.find? (fun r => decide (r.seqLast < n + 256) && decide (n ≤ r.seqLast))).map (·.bytes)
    else (s.book.ring.find? (fun e => e.seq == n)).map BookEnt.bytes
  match found with
  | some bs => (s.putRdData bs).gevt F.BOOK_RD_CTL_DONE
  | none => s.gevt F.BOOK_RD_CTL_GONE

end State
end Sys2Proof.Machine
end

