-- ==== Sys2Proof/Machine/CmdOps.lean ====
section
/-! DEFINITION. The command queue (R387 to R393) and the operations that are not image loads; the PCIe link (R381). -/
namespace Sys2Proof.Machine

/-! ### Descriptors (R388, R389) -/

/-- Operations on a channel, and the controls. -/
def opChan (op : Nat) : Bool := op == 1 || op == 2 || op == 7
def opControl (op : Nat) : Bool := decide (0x0A ≤ op) && decide (op ≤ 0x0C)

/-- The bytes of PARAM that an operation uses. -/
def opUses : Nat → Nat
  | 0x02 => 2 | 0x03 => 16 | 0x04 => 10 | 0x05 => 16 | 0x06 => 12 | 0x08 => 16 | 0x0A | 0x0B | 0x0C => 4 | _ => 0

/-- Whether a descriptor's bytes 0 to 55 are well formed. -/
def descOk (d : Bytes) : Bool :=
  let op := leAt d 0 1
  let ch := leAt d 2 1
  let p := slice d 16 40
  decide (1 ≤ op) && decide (op ≤ 0x0C) && decide (leAt d 1 1 < 2) && leAt d 3 1 == 0 && leAt d 12 4 == 0 && Img.zeros (p.drop (opUses op)) &&
    (if opChan op then decide (ch < 4) else if op = 3 then decide (ch < 4 ∨ ch = 0xFF) else ch == 0xFF) &&
    (match op with
      | 2 => decide (16 ≤ leAt p 0 2) && decide (leAt p 0 2 ≤ 1024)
      | 3 =>
        let mode := leAt p 0 1
        let src := leAt p 1 1
        decide (mode ≤ 2) && decide (src ≤ 2) && decide (leAt p 2 1 ≤ 1) && leAt p 3 1 == 0 && ((mode == 2) == (ch == 0xFF)) &&
          (mode != 2 || src == 0) && (src != 1 || mode == 1)
      | 4 => decide (1 ≤ leAt p 8 2) && decide (leAt p 8 2 ≤ 1024)
      | 6 => decide (EXPORT_LEN ≤ leAt p 8 4)
      | _ => true)

/-! Parameters of a command. -/
def CmdSt.mode (c : CmdSt) : Nat := leAt c.param 0 1
def CmdSt.src (c : CmdSt) : Nat := leAt c.param 1 1
def CmdSt.carry (c : CmdSt) : Bool := leAt c.param 2 1 == 1
def CmdSt.len (c : CmdSt) : Nat := leAt c.param 4 4
def CmdSt.chan (c : CmdSt) : ChanIx := Fin.ofNat 4 c.ch

/-- The resource of an operation (R389), with its channel where it has one per channel; none for a control. -/
def CmdSt.resource (c : CmdSt) : Option Nat :=
  if opControl c.op then none else if opChan c.op then some (16 * c.op + c.ch) else if c.op = 8 then some (16 * 4) else some (16 * c.op)

namespace State

/-- A command in a state, and one whose operation may go on: RUNNING. -/
def cmdIn (s : State) (slot st : Nat) : Option CmdSt := if s.cmdState slot = st then s.cmd? slot else none
def running? (s : State) (slot op : Nat) : Option CmdSt := (s.cmdIn slot CS_RUNNING).bind (fun c => if c.op = op then some c else none)

def descBytes (s : State) (slot : Nat) : Bytes := (upTo 14).flatMap (fun k => leBytes 4 (s.gword .cmdq (CMDQ_SLOT slot k)).toNat)

/-! ### SUBMIT, RELEASE, STREAM (R387, R391, R404) -/

/-- SUBMIT of a slot by a path. -/
def submit (s : State) (org : Origin) (slot : Nat) : State :=
  if s.cmdState slot ≠ CS_FREE then s.gevt F.CMDQ_STAT_SUB_ERR
  else
    let n := (s.gcur F.CMDQ_NSUB_NSUB + 1) % 2 ^ 26
    let d := s.descBytes slot
    let s1 := (s.gput F.CMDQ_NSUB_NSUB n).gsetWord .cmdq (CMDQ_SLOT slot 1) (BitVec.ofNat 32 (n * 64 + slot))
    let s2 := (s1.gsetWord .cmdq (CMDQ_SLOT slot 14) (BitVec.ofNat 32 CS_QUEUED)).gsetWord .cmdq (CMDQ_SLOT slot 15) 0#32
    let c : CmdSt :=
      { slot := slot, seq := s.cmdq.seq, org := org, op := leAt d 0 1, ch := leAt d 2 1, notify := leAt d 1 1 % 2 == 1, timeout := leAt d 8 4,
        param := slice d 16 40, timer := none, left := none, begun := false, buf := [], done := 0 }
    let s3 := { s2 with cmdq := ⟨s2.cmdq.cmds ++ [c], s2.cmdq.seq + 1⟩ }
    if !descOk d then s3.endCmd slot RES_FORMAT 0
    else if s3.safe && c.op != 6 then s3.endCmd slot RES_SAFE 0
    else if opChan c.op && !s3.running c.chan then (s3.reqAbsent c.chan).endCmd slot RES_ABSENT 0
    else s3

/-- RELEASE of an ended slot. -/
def release (s : State) (slot : Nat) : State :=
  if s.cmdState slot = CS_DONE ∨ s.cmdState slot = CS_CANCELLED ∨ s.cmdState slot = CS_FAILED then
    let s1 := s.setCmdState slot CS_FREE
    s1.gput (F.CMDQ_ENDED_ENDED (slot / 32)) (putField (s1.gword .cmdq (CMDQ_ENDED (slot / 32))) (slot % 32) 1 0).toNat
  else s.gevt F.CMDQ_STAT_REL_ERR

/-- Four image bytes for a load that reads from STREAM. -/
def stream (s : State) (v : Word) : State :=
  match s.cmdq.cmds.find? (fun c => c.op == 3 && c.src == 2 && s.cmdState c.slot == CS_RUNNING && decide (c.buf.length < c.len)) with
  | none => s
  | some c =>
    let b := (c.buf ++ leBytes 4 v.toNat).take c.len
    (s.updCmd c.slot (fun (x : CmdSt) => { x with buf := b })).setProgress c.slot (b.length / 512)

/-! ### Starts (R390, R391) -/

/-- Whether the resource of a command is free. -/
def resourceFree (s : State) (c : CmdSt) : Bool :=
  let held := s.cmdq.cmds.any (fun x => x.resource == c.resource && (s.cmdState x.slot == CS_RUNNING || s.cmdState x.slot == CS_SUSPENDED))
  !held &&
    (match c.op with
      | 3 => s.loader.dev.isNone && (if c.mode = 2 then allChans.all (fun n => s.img[n].job.isNone) else s.img[c.chan].job.isNone)
      | 4 | 8 => s.vault.kum.isNone && s.vault.quote.isNone
      | 9 => s.pwr.chk.isNone && decide (s.stage > BOOT_FEEDCHK) && !s.autoDue false && !s.autoDue true
      | _ => true)

/-- Whether no command submitted earlier waits for the same resource. -/
def firstWaiting (s : State) (c : CmdSt) : Bool :=
  s.cmdq.cmds.all (fun x => x.resource != c.resource || s.cmdState x.slot != CS_QUEUED || decide (c.seq ≤ x.seq))

/-- A queued command starts RUNNING. -/
def cmdStart (s : State) (slot : Nat) : State :=
  match s.cmdIn slot CS_QUEUED with
  | none => s
  | some c =>
    if opControl c.op || !s.resourceFree c || !s.firstWaiting c then s
    else
      let t := if c.timeout = 0 then none else some (s.tick + c.timeout * 200000)
      let s1 := (s.setCmdState slot CS_RUNNING).updCmd slot (fun (x : CmdSt) => { x with timer := t })
      match c.op with
      | 7 =>
        let st := s1.ch[c.chan].cur F.GNSS_SNAP_STAT_STATE
        if st = SNAP_FULL ∨ st = SNAP_DONE then s1.setCh c.chan (s1.ch[c.chan].put F.GNSS_SNAP_STAT_STATE SNAP_PROCESSING) else s1
      | _ => s1

/-! ### Where SUSPEND and CANCEL act (R389) -/

/-- Whether the load of a command has not yet entered RECONFIG; a DEVICE load counts from its common image. -/
def loadBefore (s : State) (c : CmdSt) : Bool :=
  !c.begun || (if c.mode = 2 then s.vault.mCmn.isNone else s.chSt c.chan != CH_RECONFIG)

def suspendActs (s : State) (c : CmdSt) : Bool :=
  match c.op with
  | 1 | 2 | 4 | 6 | 7 => true
  | 3 => s.loadBefore c
  | 5 => !s.twin.drill.any (fun d => d.slot == c.slot && d.sent)
  | _ => false

def cancelActs (s : State) (c : CmdSt) : Bool :=
  match c.op with
  | 1 | 2 | 4 | 6 | 7 | 8 => true
  | 3 => s.loadBefore c
  | 5 => !s.twin.drill.any (fun d => d.slot == c.slot && d.sent)
  | _ => false

/-- The channel side of SUSPEND (`b`) and RESUME. -/
def haltOp (s : State) (c : CmdSt) (b : Bool) : State :=
  if !c.begun || !s.running c.chan then s
  else
    let ch := s.ch[c.chan]
    match c.op with
    | 1 => s.setCh c.chan (ch.surveySuspend b)
    | 2 => s.setCh c.chan (ch.setDpll { ch.dpll with char := ch.dpll.char.map (fun (o : CharOp) => { o with suspended := b }) })
    | _ => s

/-- SUSPEND of a running command: its timeout is paused. -/
def suspendCmd (s : State) (c : CmdSt) : State :=
  let left := c.timer.map (fun t => t - s.tick)
  (((s.setCmdState c.slot CS_SUSPENDED).updCmd c.slot (fun (x : CmdSt) => { x with timer := none, left := left })).haltOp c true)

/-- RESUME of a suspended command: its timeout goes on. -/
def resumeCmd (s : State) (c : CmdSt) : State :=
  let t := c.left.map (fun n => s.tick + n)
  let s1 := ((s.setCmdState c.slot CS_RUNNING).updCmd c.slot (fun (x : CmdSt) => { x with timer := t, left := none })).haltOp c false
  if c.op = 5 ∧ c.begun then s1.drillResume else s1

/-- A control command on its target: 0x0A SUSPEND, 0x0B RESUME, 0x0C CANCEL. It ends in its submission tick. -/
def control (s : State) (op slot : Nat) : State :=
  match (s.cmdIn slot CS_QUEUED).bind (fun c => if c.op = op then some c else none) with
  | none => s
  | some k =>
    let h := leAt k.param 0 4
    let t := h % 64
    if (s.gword .cmdq (CMDQ_SLOT t 1)).toNat ≠ h then s.endCmd slot RES_NO_HANDLE 0
    else
      let st := s.cmdState t
      let r : Option State := match s.cmd? t with
        | none => none
        | some c =>
          if opControl c.op then none
          else if op = 0x0A then (if st = CS_RUNNING ∧ s.suspendActs c then some (s.suspendCmd c) else none)
          else if op = 0x0B then (if st = CS_SUSPENDED then some (s.resumeCmd c) else none)
          else if st = CS_QUEUED ∨ st = CS_SUSPENDED ∨ (st = CS_RUNNING ∧ s.cancelActs c) then some (s.abortCmd t RES_CANCELLED) else none
      match r with
      | none => s.endCmd slot RES_STATE 0
      | some s1 => s1.endCmd slot RES_OK 0

/-- A timeout expires: it acts where CANCEL would, and once. -/
def cmdTimeout (s : State) (slot : Nat) : State :=
  match s.cmdIn slot CS_RUNNING with
  | none => s
  | some c =>
    match c.timer with
    | none => s
    | some t =>
      if s.tick < t then s
      else if s.cancelActs c then s.abortCmd slot RES_TIMEOUT
      else s.updCmd slot (fun (x : CmdSt) => { x with timer := none })

/-! ### The operations -/

def begin' (s : State) (slot : Nat) : State := s.updCmd slot (fun (x : CmdSt) => { x with begun := true })

/-- GNSS survey (R109). -/
def surveyCmd (s : State) (slot : Nat) : State :=
  match s.running? slot 1 with
  | none => s
  | some c => if c.begun then s else (s.begin' slot).onCh c.chan (fun ch => ch.surveyStart slot)

/-- Oscillator characterization (R139). -/
def charCmd (s : State) (slot : Nat) : State :=
  match s.running? slot 2 with
  | none => s
  | some c => if c.begun then s else (s.begin' slot).onCh c.chan (fun ch => ch.charStart slot (leAt c.param 0 2) c.org)

/-- PROGRESS of the survey and the characterization of a channel, before what they ask is met (R389). -/
def chanProgress (s : State) (n : ChanIx) : State :=
  let c := s.ch[n]
  (s.cmdq.cmds.filter (fun x => x.begun && x.ch == n.val)).foldl (fun (s : State) (x : CmdSt) =>
    if x.op = 1 then s.setProgress x.slot (c.cur F.GNSS_SURV_STAT_FIXES)
    else if x.op = 2 then
      match c.dpll.char with
      | some o => s.setProgress x.slot o.samples.length
      | none => if c.effs.contains (.opEnd x.slot 0 0) then s.setProgress x.slot (c.cur F.DPLL_LRN_STAT_SAMPLES) else s
    else s) s

/-- Snapshot processing (R118). -/
def snapCmd (s : State) (slot : Nat) (ms : List SatMeas) : State :=
  match s.running? slot 7 with
  | none => s
  | some c => s.onCh c.chan (fun ch => ch.snapProcess slot ms)

/-- A record of a key batch: its KUM; none where it is malformed (R389). -/
def kumRecord (r : Bytes) : Option Bytes :=
  let n := leAt r 0 4
  if r.length = 344 ∧ leAt r 4 4 = 0 ∧ n ≤ 336 ∧ Img.zeros (r.drop (8 + n)) then some (slice r 8 n) else none

/-- Key batch (R356): the records that follow those already processed, as read from host memory. -/
def keyBatch (s : State) (slot : Nat) (kums : Option (List Bytes)) : State :=
  match s.running? slot 4 with
  | none => s
  | some c =>
    match (if s.linkUp then kums else none) with
    | none => s.endCmd slot RES_HOST_DMA 0
    | some rs =>
      let rs := rs.take (leAt c.param 8 2 - c.done)
      let good := (rs.map kumRecord).takeWhile Option.isSome
      let r := kumBatch c.org (good.filterMap id) (c.done, true, s.begin' slot)
      let s1 := (r.2.2.updCmd slot (fun (x : CmdSt) => { x with done := r.1 })).setProgress slot r.1
      if !r.2.1 then s1.endCmd slot RES_OP_ERROR (s1.gcur F.VAULT_KUM_STAT_RESULT)
      else if good.length < rs.length then s1.endCmd slot RES_FORMAT 0
      else s1

/-- Cookie mint (R221): the request block is read, and the cookies are made. -/
def cookieMint (s : State) (slot : Nat) (req : Option Bytes) : State :=
  match s.running? slot 8 with
  | none => s
  | some c =>
    if c.begun then s
    else match (if s.linkUp then req else none) with
      | none => s.endCmd slot RES_HOST_DMA 0
      | some b =>
        let n := leAt b 1 1
        let k := leAt b 4 1
        if leAt b 0 1 ≠ 1 ∨ n < 1 ∨ n > 8 ∨ leAt b 2 2 ≠ 0x000F then s.endCmd slot RES_FORMAT 0
        else match (if attrAlg (s.vslot k).attr = 3 then s.deliver k RC_MINT else none) with
          | none => s.endCmd slot RES_OP_ERROR 0
          | some key =>
            let r := (upTo n).foldl (fun (a : Bytes × State) _ =>
              let f := a.2.free 128
              (a.1 ++ mintCookie key (leAt b 8 4) (beBytes 16 f.1) (slice b 16 64), f.2)) ([], s)
            r.2.updCmd slot (fun (x : CmdSt) => { x with begun := true, buf := BitVec.ofNat 8 k :: r.1 })

/-- Racking drill (R278): its start conditions, or STATE. -/
def drillCmd (s : State) (slot : Nat) : State :=
  match s.running? slot 5 with
  | none => s
  | some c =>
    if c.begun then s
    else if !s.drillOk then s.endCmd slot RES_STATE 0
    else (s.begin' slot).updTwin (fun t => { t with drill := some ⟨slot, signed 128 (leAt c.param 0 16), none, false⟩ })

/-- Self-test (R433): both feed checks are asked for. -/
def selfTestCmd (s : State) (slot : Nat) : State :=
  match s.running? slot 9 with
  | none => s
  | some c => if c.begun then s else (s.begin' slot).updPwr (fun p => { p with selfTest := some slot })

/-- The block of a tally export, fixed in the tick in which the operation starts, behind every count of the tick (R419, R420). -/
def exportFix (s : State) : State :=
  (s.cmdq.cmds.filter (fun c => c.op == 6 && c.buf.isEmpty && s.cmdState c.slot == CS_RUNNING)).foldl (fun s c =>
    let b := s.exportBlock
    b.2.updCmd c.slot (fun (x : CmdSt) => { x with buf := b.1 })) s

/-- Tally export (R419): the block is written to host memory. -/
def exportCmd (s : State) (slot : Nat) : State :=
  match s.running? slot 6 with
  | none => s
  | some c =>
    if c.begun || c.buf.isEmpty then s
    else if !s.linkUp then s.endCmd slot RES_HOST_DMA 0
    else (s.emit (.hostMem (leAt c.param 0 8) c.buf)).updCmd slot (fun (x : CmdSt) => { x with begun := true, done := EXPORT_LEN })

/-- The cookies of a mint released: the slot is checked again in this tick (R357). -/
def mintRelease (s : State) (c : CmdSt) : State :=
  let k := leAt c.buf 0 1
  if attrAlg (s.vslot k).attr = 3 ∧ (s.deliver k RC_MINT).isSome then
    let n := (c.buf.length - 1) / 100
    ((s.emit (.hostMem (leAt c.param 8 8) (c.buf.drop 1))).endCmd c.slot RES_OK n)
  else s.endCmd c.slot RES_OP_ERROR 0

/-- A running operation completes, or a host memory access of it fails (R391, R392). Operations that end by an event of their own are
not ended here. -/
def cmdComplete (s : State) (slot : Nat) (dmaFailed : Bool) : State :=
  match s.cmdIn slot CS_RUNNING with
  | none => s
  | some c =>
    let bad := dmaFailed || !s.linkUp
    match c.op with
    | 3 => if bad && !c.begun && c.src == 0 then s.endCmd slot RES_HOST_DMA (s.gword .image IMAGE_STAT).toNat else s
    | 4 => if bad && decide (c.done < leAt c.param 8 2) then s.endCmd slot RES_HOST_DMA 0 else if c.done < leAt c.param 8 2 then s else s.endCmd slot RES_OK 0
    | 6 => if bad then s.endCmd slot RES_HOST_DMA c.done else if c.begun then s.endCmd slot RES_OK c.done else s
    | 8 => if bad then s.endCmd slot RES_HOST_DMA 0 else if c.begun then s.mintRelease c else s
    | _ => s

/-! ### The PCIe link (R381) -/

/-- Whether a running command is moving data to or from host memory. -/
def movesHost (s : State) (c : CmdSt) : Bool :=
  s.cmdState c.slot == CS_RUNNING &&
    (match c.op with | 3 => !c.begun && c.src == 0 | 4 => decide (c.done < leAt c.param 8 2) | 6 | 8 => true | _ => false)

def pcieDown (s : State) : State :=
  if !s.linkUp then s
  else
    let s1 := ((s.gput F.HOSTIF_PCIE_STAT_LINK_UP 0).gput F.HOSTIF_PCIE_STAT_SPEED 0).gput F.HOSTIF_PCIE_STAT_WIDTH 0
    (s1.cmdq.cmds.filter s1.movesHost).foldl (fun s c => s.endCmd c.slot RES_HOST_DMA
      (if c.op = 3 then (s.gword .image IMAGE_STAT).toNat else if c.op = 6 then c.done else 0)) s1

/-- Function level reset. -/
def flr (s : State) : State :=
  if !s.linkUp then s
  else
    let f := s.rf .hostif
    let s1 := s.setRf .hostif { f with cur := f.cur.filter (fun e => e.1 < 0x8000 || 0x8400 ≤ e.1) }
    let s2 := (s1.gsetWord .hostif HOSTIF_INT_CFG (gbRst .hostif HOSTIF_INT_CFG)).gbump F.HOSTIF_PCIE_STAT_FLR
    (s2.cmdq.cmds.filter (fun (c : CmdSt) => match c.org with | .pcie _ => true | _ => false)).foldl (fun (s : State) (c : CmdSt) =>
      if s.cmdState c.slot = CS_RUNNING ∧ ¬ s.cancelActs c then s else s.abortCmd c.slot RES_CANCELLED) s2

/-- The link comes up, at the speed and width given: PCIe starts with stage FEEDCHK, unless BOOTSEL leaves it off (R439, R440). -/
def pcieUp (s : State) (speed width : Nat) : State :=
  if s.linkUp || !s.clocked || s.scanning || s.gcur F.PWR_RST_CAUSE_BOOTSEL == 1 || decide (speed < 1 ∨ 4 < speed) || decide (width < 1 ∨ 3 < width) then s
  else (((s.gput F.HOSTIF_PCIE_STAT_LINK_UP 1).gput F.HOSTIF_PCIE_STAT_SPEED speed).gput F.HOSTIF_PCIE_STAT_WIDTH width).msixFlush

end State
end Sys2Proof.Machine
end

