-- ==== Sys2Proof/Machine/LoadCmds.lean ====
section
/-! DEFINITION. Image loads as commands, the common image, the power sequences of channels (R322 to R326, R437, R440, R441). -/
namespace Sys2Proof.Machine

namespace State

/-! ### STAGE and RUN loads (R322) -/

/-- A load on one channel, its image given: it is stored, checked, and taken toward its mode. -/
def beginLoad (s : State) (c : CmdSt) (mode : Nat) (bs : Bytes) (staged : Bool) : State :=
  let n := c.chan
  let o := s.otherSlot n
  let big : Bool := decide (IMG_MAX < bs.length)
  let j : LoadJob := ⟨c.org, some c.slot, mode, c.carry, if big then bs else [], o, true, false, false, false⟩
  let s1 := if staged then s else s.storeImage n bs
  let s2 := (((s1.begin' c.slot).setProgress c.slot (bs.length / 512)).setPhase n 2).updImg n (fun i => { i with job := some j })
  if mode = 0 then s2.stageImage n j else if s2.img[n].pwr = .on then s2.loadCheck n else s2.powerUp n

/-- The image load of a slot in mode STAGE or RUN: `data` is what was read from host memory. A load from the MSPI waits for its bytes. -/
def loadCmd (s : State) (slot mode : Nat) (data : Option Bytes) : State :=
  match s.running? slot 3 with
  | none => s
  | some c =>
    if c.begun || c.mode ≠ mode then s
    else match c.src with
      | 0 =>
        match (if s.linkUp then data else none) with
        | some b => if b.length < c.len then s.endCmd slot RES_HOST_DMA (s.gword .image IMAGE_STAT).toNat else s.beginLoad c mode (b.take c.len) false
        | none => s.endCmd slot RES_HOST_DMA (s.gword .image IMAGE_STAT).toNat
      | 1 =>
        if s.img[c.chan].staged then s.beginLoad c mode (s.storeSlot c.chan (s.otherSlot c.chan)) true
        else s.endCmd slot RES_STATE (s.gword .image IMAGE_STAT).toNat
      | _ => if c.buf.length < c.len then s else s.beginLoad c mode c.buf false

/-- RECONFIG entry (R323): a load that waits for its checks takes them first, unless its command is SUSPENDED. -/
def reconfigEnter (s : State) (n : ChanIx) : State :=
  match s.img[n].job with
  | none => s
  | some j =>
    if j.mode = 0 ∨ s.loadHalted j ∨ s.img[n].pwr ≠ .on then s
    else (if j.checked then s else s.loadCheck n).enterReconfig n

/-! ### The DEVICE load (R322, R324, R440, R441) -/

/-- A DEVICE load ends on its common image: the stage is WAIT_IMAGE again. -/
def deviceFail (s : State) (slot : Nat) (e : Nat × Nat) : State :=
  let s1 := ((s.gput F.IMAGE_STAT_ERR e.1).gput F.IMAGE_STAT_RECIDX e.2).gevt F.IMAGE_EVT_FAIL
  let s2 := { s1 with loader := { s1.loader with dev := none } }.imgIdle
  s2.endCmd slot RES_OP_ERROR (s2.gword .image IMAGE_STAT).toNat

/-- The DEVICE load of a slot: `images` are those of its load list, the common one first, none where LEN is 0. -/
def deviceCmd (s : State) (slot : Nat) (images : Option (List (Option Bytes))) : State :=
  match s.running? slot 3 with
  | none => s
  | some c =>
    if c.begun || c.mode ≠ 2 then s
    else match (if s.linkUp then images else none) with
      | none => s.endCmd slot RES_HOST_DMA (s.gword .image IMAGE_STAT).toNat
      | some [] => s.endCmd slot RES_FORMAT (s.gword .image IMAGE_STAT).toNat
      | some (cmn :: chs) =>
        if chs.length ≠ 4 then s.endCmd slot RES_FORMAT (s.gword .image IMAGE_STAT).toNat
        else
          let bs := cmn.getD []
          let total := bs.length + (chs.map (fun x => (x.getD []).length)).sum
          let s1 := (((s.begin' slot).setProgress slot (total / 512)).gput F.IMAGE_STAT_PHASE 2).gput F.IMAGE_STAT_TARGET 0
          if s.gcur F.VAULT_STAT_STAGE ≠ VS_STOPPED ∧ s.stage ≠ BOOT_WAIT then s1.deviceFail slot (IE_TARGET, 0)
          else match s1.imageErr bs none with
            | some e => s1.deviceFail slot e
            | none =>
              let list := allChans.filterMap (fun n => (chs.getD n.val none).map (fun b => (n, b)))
              ({ s1 with loader := { s1.loader with dev := some (slot, bs, list) } }.gput F.IMAGE_STAT_BUSY 1).setStage BOOT_LOADING

/-- The block and offset of a COMMON record (R311). -/
def comReg (off : Nat) : Option (CB × Nat) :=
  ([CB.hostif, .fault, .vault, .book, .tally, .twin, .bench, .clkgen, .pwr].find? (fun b => gbNum b == off / 0x10000)).map (fun b => (b, off % 0x10000))

/-- The common sources whose REACT a POLICY record names (R316, R367). -/
def comReacts (i : Img) : List (Nat × Nat) := (i.recs 0x30 16).filterMap (fun r =>
  let n := leAt r 4 4
  if leAt r 0 1 = 2 ∧ n ≠ 0 ∧ n < 128 ∧ (srcReact n).isSome then some (n, leAt r 8 4) else none)

/-- The reportable marks of a common image (R316). -/
def comMarks (i : Img) : List (CB × Nat × Nat × Nat) := (i.recs 0x30 16).filterMap (fun r =>
  if leAt r 0 1 ≠ 1 then none
  else ([CB.hostif, .cmdq, .fault, .vault, .book, .tally, .twin, .bench, .clkgen, .pwr, .image].find? (fun b => gbNum b == leAt r 1 1)).map
    (fun b => (b, leAt r 4 4, leAt r 8 4, leAt r 2 1)))

/-- COMMIT of a block by the loader; none where CERR is set. -/
def loaderCommit (s : State) (b : CB) : Option State :=
  let old := s.gword b 0
  let t := (s.gsetWord b 0 (putField old 30 1 0)).commitBlk b
  if bit (t.gword b 0) 30 then none else some (t.gsetWord b 0 (putField (t.gword b 0) 30 1 (getField old 30 1)))

/-- What a common image that fails has changed, returned to reset values (R324). -/
def undoCommon (s : State) (i : Img) : State :=
  let s1 := (i.recs 0x18 8).foldl (fun s r => match comReg (leAt r 0 4) with | some (b, o) => s.gsetWord b o (gbRst b o) | none => s) s
  let s2 := (comReacts i).foldl (fun s e => s.gput (F.FAULT_SRC_CFG_REACT e.1) ((srcReact e.1).getD 0)) s1
  let s3 := [CB.clkgen, .twin, .bench].foldl (fun s b => (s.gsetWord b 0 (gbRst b 0)).setRf b { (s.gsetWord b 0 (gbRst b 0)).rf b with use := [], next := [] }) s2
  { s3 with loader := { s3.loader with marks := [] } }

/-- A channel image of a DEVICE load: held, or begun as a RUN load (R441). -/
def deviceChannel (s : State) (org : Origin) (pair : Bool) (n : ChanIx) (bs : Bytes) : State :=
  let o := s.otherSlot n
  let s1 := s.storeImage n bs
  let big : Bool := decide (IMG_MAX < bs.length)
  if pair then
    match s1.imageErr bs (some n) with
    | some e => ((s1.gput F.IMAGE_STAT_ERR e.1).gput F.IMAGE_STAT_RECIDX e.2).gevt F.IMAGE_EVT_FAIL
    | none => (s1.setHeld n (some o)).setChSt n CH_GATED
  else (s1.updImg n (fun i => { i with job := some ⟨org, none, 1, false, if big then bs else [], o, true, false, false, false⟩ })).powerUp n

/-- The registers, REACT masks and reportable marks of a common image, before its commits (R311, R316, R324). -/
def commonRecords (s : State) (i : Img) : State :=
  let s1 := (i.recs 0x18 8).foldl (fun s r => match comReg (leAt r 0 4) with
    | some (b, o) => (s.gWriteFields true b o (leWordAt r 1)).2 | none => s) (s.gput F.IMAGE_STAT_PHASE 3)
  let s2 := (comReacts i).foldl (fun s e => s.gput (F.FAULT_SRC_CFG_REACT e.1) e.2) s1
  { s2 with loader := { s2.loader with marks := comMarks i } }

/-- The locks, measurement, entry and floor of a common image whose commits were taken, then the channel images of the load (R324). -/
def commonTaken (s : State) (org : Origin) (i : Img) (chs : List (ChanIx × Bytes)) : State :=
  let s5 := [CB.fault, .vault, .clkgen, .twin, .bench].foldl (fun s b => s.gsetWord b 0 (putField (s.gword b 0) 29 1 1)) s
  let s6 := (s5.vaultMeas i.meas).putMeas (IMAGE_MEAS_CMN 0) i.meas
  let s7 := (s6.book1 ⟨org, 0x02, 0, 0#32, leWordAt i.meas 0⟩).raiseFloor org i
  let s8 := (s7.gput F.IMAGE_STAT_ERR 0).gput F.IMAGE_STAT_RECIDX 0
  let pair := s8.gflag F.TWIN_CFG_PAIR
  chs.foldl (fun s e => s.deviceChannel org pair e.1 e.2) s8

/-- The common image applied (R324): records, policy, commits, locks, the measurement; then the channel images. -/
def commonApply (s : State) : State :=
  match s.loader.dev with
  | none => s
  | some (slot, bs, chs) =>
    if s.vault.mCmn.isSome || s.stage ≠ BOOT_LOADING || s.cmdState slot ≠ CS_RUNNING then s
    else
      let i : Img := ⟨bs⟩
      let org : Origin := match s.cmd? slot with | some c => c.org | none => .mspi
      let s3 := s.commonRecords i
      match ((s3.loaderCommit .clkgen).bind (fun t => t.loaderCommit .twin)).bind (fun t => t.loaderCommit .bench) with
      | none => ((s3.undoCommon i).deviceFail slot (IE_COMMIT, 0x18)).setStage BOOT_WAIT
      | some s4 => s4.commonTaken org i chs

/-- The end of a DEVICE load: the stage is DONE, the twin takes its Reset row (R440, R441). -/
def deviceDone (s : State) : State :=
  match s.loader.dev with
  | none => s
  | some (slot, _, _) =>
    if s.vault.mCmn.isNone || s.stage ≠ BOOT_LOADING || allChans.any (fun n => s.img[n].job.isSome) then s
    else
      let s1 := ({ s with loader := { s.loader with dev := none } }.imgIdle.gevt F.IMAGE_EVT_DONE).setStage BOOT_DONE
      (s1.endCmd slot RES_OK (s1.gword .image IMAGE_STAT).toNat).twinReset

/-! ### Channel power (R437) -/

/-- Bit n of PWR.STAT.CHPWR. -/
def setChpwr (s : State) (n : ChanIx) (b : Bool) : State := s.gsetWord .pwr PWR_STAT (putField (s.gword .pwr PWR_STAT) (12 + n.val) 1 (b2n b))

/-- The ticks from GATE to the end of power-down, and from UNGATE to good rails with the root in ACQ (R437). -/
def POWER_DOWN : Nat := 10000
def POWER_RAILS : Nat := 160000

/-- The rails of a channel in power-up are good: its root goes to ACQ where MOSC is present. -/
def railsGood (s : State) (n : ChanIx) : State :=
  match s.img[n].pwr with
  | .up t => if s.rootSt (n.val + 1) = RT_OFF ∧ t + POWER_RAILS ≤ s.tick ∧ s.gflag F.CLKGEN_MOSC_STAT_PRESENT then s.setRoot (n.val + 1) RT_ACQ else s
  | _ => s

/-- Power-up completes once the channel's root has locked: a GATE that waits takes effect, else the load that waits goes on. -/
def powerUpDone (s : State) (n : ChanIx) : State :=
  match s.img[n].pwr with
  | .up _ =>
    if s.rootSt (n.val + 1) ≠ RT_LOCKED then s
    else
      let s1 := (s.updImg n (fun i => { i with pwr := .on, waitGate := false })).setChpwr n true
      if s.img[n].waitGate then s1.powerDown n
      else match s1.img[n].job with
        | some j => if s1.loadHalted j then s1 else s1.loadCheck n
        | none => s1
  | _ => s

/-- Power-down completes: an UNGATE that waits takes effect. -/
def powerDownDone (s : State) (n : ChanIx) : State :=
  match s.img[n].pwr with
  | .down t =>
    if s.tick < t + POWER_DOWN then s
    else
    let s1 := (s.updImg n (fun i => { i with pwr := .off, waitUngate := false })).setRoot (n.val + 1) RT_OFF
    let s2 := s1.setChpwr n false
    if s.img[n].waitUngate then s2.powerUp n else s2
  | _ => s

end State
end Sys2Proof.Machine
end

