-- ==== Sys2Proof/Machine/HostOps.lean ====
section
/-! DEFINITION. Host accesses to WIN_REG: where an offset leads (R7, R328, R370, R445), what a write of a common register brings about
(R8 to R13, R23), reads. -/
namespace Sys2Proof.Machine

/-- The blocks of the common complex in the order of their bases (R444). -/
def comBlocks : List CB := [.hostif, .cmdq, .fault, .vault, .book, .tally, .twin, .bench, .clkgen, .pwr, .image]
/-- The blocks of a channel in the order of their bases (R444). -/
def chBlocks : List KB := [.ref, .dpll, .syn, .gnss, .port, .sched, .sealb, .pmu, .chctl]

/-- Where an offset of WIN_REG leads. -/
inductive Reach
  | bad
  | reserved
  | absent (n : ChanIx)
  | common (b : CB) (off : Nat)
  | chan (n : ChanIx) (b : KB) (off : Nat)
  deriving DecidableEq, Repr

/-- Writes that act whether or not they change configuration are no entries of the cellar book (R23). -/
def gExempt (b : CB) (off : Nat) : Bool :=
  match b with
  | .hostif => decide (0x100 ≤ off)
  | .cmdq => true
  | .book => off == BOOK_MIR_RPTR || off == BOOK_RD_SEQ 0 || off == BOOK_RD_SEQ 1 || off == BOOK_RD_CTL
  | .tally => true
  | .vault => off == VAULT_SLOT_SEL || off == VAULT_ATT_CTL || off == VAULT_KUM_CTL || (decide (0x60 ≤ off) && decide (off < 0x90)) || decide (0x1000 ≤ off)
  | .bench => off == BENCH_CAL_CTL
  | .fault => off == FAULT_INJ_CTL
  | _ => false

/-- The WIN_REG offset of the register that holds a block's LOCK bit (R12); none for a block without one. -/
def lockReg : LockBlk → Option Nat
  | .common b => if gbHasLock b then some (gReg b 0) else none
  | .chan c b => (lockOff b).map (winReg c b)

namespace State

/-- The address map of WIN_REG. Every offset of an absent channel leads to the absent channel. -/
def route (s : State) (addr : Nat) : Reach :=
  if addr % 4 ≠ 0 ∨ 0x8000000 ≤ addr then .bad
  else if addr < 0x1000000 then
    match comBlocks[addr / 0x10000]? with
    | some b => if (findReg (gbRegs b) (addr % 0x10000)).isSome then .common b (addr % 0x10000) else .reserved
    | none => .reserved
  else if addr < 0x5000000 then
    let n : ChanIx := Fin.ofNat 4 (addr / 0x1000000 - 1)
    if !s.running n then .absent n
    else match chBlocks[addr % 0x1000000 / 0x100000]? with
      | some b => if (findReg (kbRegs b) (addr % 0x100000)).isSome then .chan n b (addr % 0x100000) else .reserved
      | none => .reserved
  else .reserved

/-- An access that met an absent channel (R328), and one to a reserved offset (R445). -/
def noteAbsent (s : State) (n : ChanIx) : State := s.gevtMask .image IMAGE_ABSENT (2 ^ n.val)
def noteReserved (s : State) (addr : Nat) : State := (s.gbump F.HOSTIF_RSV_ACC_COUNT).gput F.HOSTIF_RSV_LAST_OFS addr

/-- A host read of WIN_REG: the word, and the state with what the read latches. -/
def hostRead (s : State) (addr : Nat) : Word × State :=
  match s.route addr with
  | .bad => (0#32, s)
  | .reserved => (0#32, s.noteReserved addr)
  | .absent n => (0xFFFFFFFF#32, s.noteAbsent n)
  | .common b off => s.gRead b off
  | .chan n b off => let r := s.ch[n].readReg b off; (r.1, s.setCh n r.2)

/-- Whether a write that reaches this register is accepted in the safe state (R370): FAULT, BOOK and the MSI-X table. -/
def safeWritable : Reach → Bool
  | .common .fault _ => true
  | .common .book _ => true
  | .common .hostif off => decide (0x8000 ≤ off) && decide (off < 0x8400)
  | _ => false

/-- INJ_CTL.GO (R372). -/
def injGo (s : State) : State :=
  let src := s.gcur F.FAULT_INJ_CTL_SRC
  if s.gflag F.FAULT_INJ_CTL_BUSY || !s.gflag F.FAULT_CFG_INJ_EN || (srcReact src).isNone then s.gevt F.FAULT_INJ_CTL_ERR
  else { s with fault := { s.fault with injAt := some (s.tick, src, s.gflag F.FAULT_INJ_CTL_MODE) } }.gput F.FAULT_INJ_CTL_BUSY 1

/-- SAFE_CTL: ENTER outside the safe state, behind the block resets of the tick; EXIT with its key inside it. Where both are written in one
tick, both are ignored (R371, R376). -/
def safeCtl (s : State) (v : Word) : Bool × State :=
  if bit v 31 && getField v 0 16 == 0x5AFE then (false, s)
  else if bit v 31 then
    if s.fault.exitAsked then
      (false, { s with fault := { s.fault with resetDue := s.fault.resetDue.bind (fun d => if d.1 = 4 then none else some d) } })
    else if s.safe then (false, s)
    else (true, s.blockResets.enterSafe 3 0)
  else if getField v 0 16 == 0x5AFE then
    let due := if s.safe then some (4, s.gcur F.FAULT_SAFE_STAT_SRC, s.gcur F.FAULT_SAFE_STAT_CAUSE == 4) else s.fault.resetDue
    (s.safe, { s with fault := { s.fault with exitAsked := true, resetDue := due } })
  else (false, s)

/-- TWIN.CTL: COMMIT, FENCE, UNFENCE; FENCE with UNFENCE is ignored (R279). -/
def twinCtl (s : State) (org : Origin) (v : Word) : Bool × State :=
  let s1 := if bit v 31 then s.commitBlk .twin else s
  if bit v 28 == bit v 27 then (bit v 31, s1)
  else if bit v 28 then (bit v 31 || (s1.paired && s1.twst != TW_FENCED), s1.fence org)
  else (bit v 31 || (s1.paired && s1.twst == TW_FENCED), s1.unfence org)

/-- What a write of `v` to a common register does beside its fields, and whether it acts (R23). -/
def gAction (s : State) (org : Origin) (b : CB) (off : Nat) (v : Word) : Bool × State :=
  let go : Bool := bit v 31
  match b with
  | .cmdq =>
    if off = CMDQ_SUBMIT then (go, if go then s.submit org (getField v 0 6) else s)
    else if off = CMDQ_RELEASE then (go, if go then s.release (getField v 0 6) else s)
    else if off = CMDQ_STREAM then (true, s.stream v)
    else (false, s)
  | .fault => if off = FAULT_SAFE_CTL then s.safeCtl v else if off = FAULT_INJ_CTL then (go, if go then s.injGo else s) else (false, s)
  | .vault => if off = VAULT_KUM_CTL then (go, if go then s.kumGo org else s) else if off = VAULT_ATT_CTL then (go, if go then s.quoteGo else s) else (false, s)
  | .book => if off = BOOK_RD_CTL then (go, if go then s.bookRead else s) else (false, s)
  | .tally => if off = TALLY_CTL then (go, if go then s.tallyNow else s) else (false, s)
  | .twin => if off = TWIN_CTL then s.twinCtl org v else (false, s)
  | .bench =>
    if off = BENCH_CTL then (go, if go then s.commitBlk .bench else s)
    else if off = BENCH_CAL_CTL then (go, if go then s.calGo else s) else (false, s)
  | .clkgen => if off = CLKGEN_CTL then (go, if go then s.commitBlk .clkgen else s) else (false, s)
  | .image => if decide (0x20 ≤ off) && decide (off < 0x60) && off % 16 == 0 then s.chCtl (Fin.ofNat 4 ((off - 0x20) / 16)) org v else (false, s)
  | _ => (false, s)

/-- A host's write of a common register: its fields, its entry in the cellar book, its action. A multi-word register's lower word that is
held is an entry with OLD = NEW. -/
def gHostWrite (s : State) (org : Origin) (b : CB) (off : Nat) (v : Word) : State :=
  let w := s.gWriteFields false b off v
  let r := w.2.gAction org b off v
  if (w.1 || r.1) && !gExempt b off then
    ((w.2.book1 ⟨org, 0x01, gReg b off, s.gShow b off, r.2.gShow b off⟩).gAction org b off v).2
  else r.2

/-- A host's write of WIN_REG by a path that reaches the device. -/
def writeAt (s : State) (p : HostPath) (addr : Nat) (v : Word) : State :=
  match s.route addr with
  | .bad => s
  | r =>
    if s.safe && !safeWritable r then s.gbumpSat F.FAULT_SAFE_STAT_WDISC
    else match r with
      | .bad => s
      | .reserved => s.noteReserved addr
      | .absent n => s.noteAbsent n
      | .common b off => s.gHostWrite p.org b off v
      | .chan n b off => s.onCh n (fun c => c.hostWrite p.org b off v)

/-- A write command by a path: nothing where the path does not reach the device. In scan mode no write of a register is taken (R439). -/
def hostWrite (s : State) (p : HostPath) (addr : Nat) (v : Word) : State :=
  if s.pathUp p && !s.scanning then s.writeAt p addr v else s

/-- A write of a channel's register. -/
def writeCh (s : State) (p : HostPath) (n : ChanIx) (b : KB) (off : Nat) (v : Word) : State := s.hostWrite p (winReg n b off) v
/-- A write of a common register. -/
def writeCom (s : State) (p : HostPath) (b : CB) (off : Nat) (v : Word) : State := s.hostWrite p (gReg b off) v

/-- A KUM_CTL write whose GO starts the message in KUM_BUF: a message of operation `op` (R342), or, for an unknown operation, of the first
of the five commands. A GO for another operation's message belongs to that operation's command. -/
def kumRow (s : State) (op : Nat) (p : HostPath) (v : Word) : State :=
  let b := (Kum.mk (s.kumBuf 344)).op
  if !bit v 31 || b == op || (op == 1 && !decide (1 ≤ b ∧ b ≤ 5)) then s.writeCom p .vault VAULT_KUM_CTL v else s

/-- A read command by a path. -/
def readCmd (s : State) (p : HostPath) (addr : Nat) : State :=
  if s.pathUp p && !s.scanning && s.route addr != .bad then
    let r := s.hostRead addr
    r.2.emit (.readData r.1)
  else s

/-! ### Injections (R372, R475) -/

/-- Whether a source watches a condition rather than check bits. -/
def isMonitor (n : Nat) : Bool :=
  match srcChan n with
  | some (_, i) => [0, 1, 2, 3, 16, 24, 25, 42, 43, 57, 58, 59, 60].contains i
  | none => [1, 2, 3, 4, 5, 8, 9, 10, 11, 12, 20, 32, 33, 34, 48, 50, 64, 65, 66, 67, 68, 112].contains n

/-- The ticks after which an injection without a check ends. -/
def INJ_TICKS : Nat := 200000

/-- The injected detection: a monitor takes it from the next tick on, a check-bit checker at a check. -/
def injDetect (s : State) : State :=
  match s.fault.injAt with
  | none => s
  | some (t, n, full) =>
    if !s.srcLive n then s
    else if isMonitor n && decide (s.tick ≤ t) then s
    else if decide (t + INJ_TICKS ≤ s.tick) && !isMonitor n then s
    else s.detectInjected n full

/-- No check within 1 ms: the injection ends with ERR. -/
def injTimeout (s : State) : State :=
  match s.fault.injAt with
  | none => s
  | some (t, n, _) =>
    if s.tick < t + INJ_TICKS || (isMonitor n && s.srcLive n) then s
    else ({ s with fault := { s.fault with injAt := none } }.gput F.FAULT_INJ_CTL_BUSY 0).gevt F.FAULT_INJ_CTL_ERR

end State

end Sys2Proof.Machine
end

