-- ==== Sys2Proof/Machine/WinMem.lean ====
section
/-! DEFINITION. The memory window WIN_MEM (R379, R380): what the regions of a channel's slice hold, the host transmit rings (R383). -/
namespace Sys2Proof.Machine

/-! The regions of a channel's slice (R379): their offsets and sizes. -/
def SLICE : Nat := 0x8000000
def MEM_SIZE : Nat := 0x20000000
def HTX_BASE : Nat := 0x7200000
def HTX_RING : Nat := 0x200000

namespace State

/-- The word at offset `k` of byte entry `e`, 0 where there is none. -/
def entWord (e : Option Bytes) (k : Nat) : Word := match e with | some b => leWordAt b (k / 4) | none => 0#32

/-- The client table's word: ACTIVE entries are specified to the cores' own bytes; of a FREE entry only STATE is. -/
def clientWord (s : State) (n : ChanIx) (off : Nat) : Word × State :=
  let i := off / 128
  let k := off % 128
  match s.ch[n].client? i with
  | some e =>
    if k < 96 then (entWord (some (Client.bytes e [])) k, s) else let f := s.free 32; (BitVec.ofNat 32 f.1, f.2)
  | none => let f := s.free 32; (if k = 0 then BitVec.ofNat 32 (f.1 / 256 * 256) else BitVec.ofNat 32 f.1, f.2)

/-- The word at an aligned offset of channel `n`'s slice (R379). Memory that nothing has written reads 0 (notes/assumptions/10.md). -/
def sliceRead (s : State) (n : ChanIx) (off : Nat) : Word × State :=
  let c := s.ch[n]
  if off < 0x1000000 then (leWordAt s.img[n].slot0 (off / 4), s)
  else if off < 0x2000000 then (leWordAt s.img[n].slot1 ((off - 0x1000000) / 4), s)
  else if off < 0x4000000 then s.clientWord n (off - 0x2000000)
  else if off < 0x5000000 then (entWord (some (c.polEnt ((off - 0x4000000) / 64)).bytes) (off % 64), s)
  else if off < 0x5080000 then
    let o := off - 0x5000000
    let q := c.eq (Fin.ofNat 2 (o / 0x40000)) (o % 0x40000 / 0x1000)
    (entWord ((q.samples.find? (fun x => x.seq % 128 == o % 0x1000 / 32)).map QSample.bytes) (off % 32), s)
  else if 0x6000000 ≤ off ∧ off < 0x7000000 then
    (entWord ((c.jour.ring.find? (fun e => e.idx == (off - 0x6000000) / 128)).map jentryBytes) (off % 128), s)
  else if 0x7000000 ≤ off ∧ off < 0x7010000 then
    let o := off - 0x7000000
    (entWord (((c.ps (Fin.ofNat 2 (o / 0x8000))).ring.find? (fun e => e.1 == o % 0x8000 / 32)).map (fun e => e.2.bytes)) (off % 32), s)
  else if 0x7100000 ≤ off ∧ off < 0x7140000 then
    let o := off - 0x7100000
    (leWordAt s.twin.rx[n].slots[(Fin.ofNat 4 (o / 0x10000))] (o % 0x10000 / 4), s)
  else if HTX_BASE ≤ off ∧ off < HTX_BASE + 2 * HTX_RING then
    (BitVec.ofNat 32 (fromLe ((upTo 4).map (fun k => smGet 0#8 s.host.htx (SLICE * n.val + off + k)))), s)
  else if 0x7800000 ≤ off then
    match c.gnss.snap with
    | some x => (leWordAt (Channel.snapBytes n.val x) ((off - 0x7800000) / 4), s)
    | none => (0#32, s)
  else (0#32, s)

/-- A host read of WIN_MEM at an aligned offset inside it. -/
def memRead (s : State) (addr : Nat) : Word × State :=
  let n : ChanIx := Fin.ofNat 4 (addr / SLICE)
  if !s.running n then (0xFFFFFFFF#32, s.noteAbsent n) else s.sliceRead n (addr % SLICE)

def memOk (addr : Nat) : Bool := addr % 4 == 0 && decide (addr < MEM_SIZE)

/-- A byte stored in the host transmit rings, with the canonical form kept. -/
def htxByte (s : State) (addr : Nat) (b : Byte) : State := { s with host := { s.host with htx := smPut 0#8 s.host.htx addr b } }

/-- A host write of WIN_MEM at an aligned offset inside it: only the host transmit rings take it (R370, R380). -/
def memWrite (s : State) (addr : Nat) (v : Word) : State :=
  let n : ChanIx := Fin.ofNat 4 (addr / SLICE)
  let off := addr % SLICE
  if s.safe then s.gbumpSat F.FAULT_SAFE_STAT_WDISC
  else if !s.running n then s.noteAbsent n
  else if HTX_BASE ≤ off ∧ off < HTX_BASE + 2 * HTX_RING then
    (upTo 4).foldl (fun s k => s.htxByte (addr + k) (BitVec.ofNat 8 (v.toNat / 256 ^ k))) s
  else s.gbump F.HOSTIF_MEM_WDISC_WDISC

/-- A write command of WIN_MEM by a path. -/
def memWriteCmd (s : State) (p : HostPath) (addr : Nat) (v : Word) : State :=
  if s.pathUp p && memOk addr then s.memWrite addr v else s

/-! ### Host transmit rings (R383) -/

/-- `len` bytes of the ring of port p of channel n from the start of slot `k`, wrapping. -/
def htxBytes (s : State) (n : ChanIx) (p : PortIx) (k len : Nat) : Bytes :=
  (upTo len).map (fun j => smGet 0#8 s.host.htx (SLICE * n.val + HTX_BASE + HTX_RING * p.val + (k * 2048 + j) % HTX_RING))

/-- The slots of a frame whose header is given. -/
def htxSlots (h : Bytes) : Nat := ceilDiv (16 + leAt h 0 2) 2048

/-- The frames from slot `k` to TAIL, counted while they are passed over. -/
def htxCount (s : State) (n : ChanIx) (p : PortIx) (tail : Nat) : Nat → Nat → Nat
  | 0, _ => 0
  | fuel + 1, k => if (tail + 1024 - k) % 1024 = 0 then 0
    else let m := htxSlots (s.htxBytes n p k 16)
      if (tail + 1024 - k) % 1024 ≤ m then 1 else 1 + s.htxCount n p tail fuel ((k + m) % 1024)

/-- While the channel is not in RUN, HEAD follows TAIL and the frames are discarded. -/
def htxFollow (s : State) (n : ChanIx) (p : PortIx) : State :=
  let hd := s.gcur (F.HOSTIF_HTX_HEAD_HEAD n.val p.val)
  let tl := s.gcur (F.HOSTIF_HTX_TAIL_TAIL n.val p.val)
  if hd = tl || s.running n then s
  else (s.gbumpBy (F.HOSTIF_HTX_CNT_ABSENT n.val p.val) (s.htxCount n p tl 1024 hd)).gput (F.HOSTIF_HTX_HEAD_HEAD n.val p.val) tl

/-- A frame taken from a host transmit ring, at most one per tick from each. -/
def htxTake (s0 : State) (n : ChanIx) (p : PortIx) : State :=
  let hd := s0.gcur (F.HOSTIF_HTX_HEAD_HEAD n.val p.val)
  let tl := s0.gcur (F.HOSTIF_HTX_TAIL_TAIL n.val p.val)
  if !s0.running n then s0.htxFollow n p
  else if hd = tl || s0.host.took.contains (n, p) then s0
  else
    let s := { s0 with host := { s0.host with took := (n, p) :: s0.host.took } }
    let h := s.htxBytes n p hd 16
    let len := leAt h 0 2
    let ok := decide (60 ≤ len) && decide (len + 4 ≤ s.ch[n].fld (F.PORT_P_CFG_MAXF p.val)) && decide (leAt h 2 1 ≤ 63) && decide (leAt h 3 1 ≤ 1) &&
      leAt h 8 8 == 0
    let s1 := s.gput (F.HOSTIF_HTX_HEAD_HEAD n.val p.val) ((hd + htxSlots h) % 1024)
    if !ok then s1.gbump (F.HOSTIF_HTX_CNT_BAD n.val p.val)
    else s1.onCh n (fun c => c.hostFrame p (leAt h 2 1) ((s.htxBytes n p hd (16 + len)).drop 16) (leAt h 3 1 == 1) (leAt h 4 4))

end State
end Sys2Proof.Machine
end

