-- ==== Sys2Proof/Machine/MspiOps.lean ====
section
/-! DEFINITION. The management SPI (R384 to R386) and scan mode (R439, R466 to R468). -/
namespace Sys2Proof.Machine

/-- The balls that scan mode tests (R439, R467, R468), by row ordinal and column. -/
def chanBall (u v : Nat) : Bool :=
  (u == 4 && decide (v ≤ 16)) || (u == 6 && decide (v ≤ 16)) || (u == 8 && [7, 8, 10, 11, 13, 14, 15].contains v)
def testable (row col : Nat) : Bool :=
  if row = 17 then col == 6 || col == 7
  else if col = 18 then row == 30
  else decide (row ≤ 34) && decide (1 ≤ col) && decide (col ≤ 35) &&
    chanBall (if row < 17 then row else 34 - row) (if col < 18 then col else 36 - col)

namespace State

/-- An answer after which nothing else has happened: an error, with FS34. -/
def mspiErr (s : State) (op st : Nat) : State :=
  let s1 := (s.gbump F.HOSTIF_MSPI_STAT_CRC_ERR).detect 34
  if opRead op then
    let f := s1.free 32
    f.2.emit (.mspi (answerR st (BitVec.ofNat 32 f.1)))
  else s1.emit (.mspi (answerW st))

/-- A frame of the OP `op`, or of an unknown OP: nothing before the common root locks, nor for another frame's OP; counted; an error
where its CRC or its OP is bad; else `f`. Scan mode answers no such frame. -/
def mspiFrame (s : State) (op : Nat) (bs : Bytes) (f : State → State) : State :=
  if !s.pathUp .mspi || s.scanning || (opKnown (fOp bs) && fOp bs != op) then s
  else
    let s1 := s.gbump F.HOSTIF_MSPI_STAT_FRAMES
    if !frameGood bs then s1.mspiErr (fOp bs) ST_CRC else if fOp bs ≠ op then s1.mspiErr (fOp bs) ST_OP else f s1

/-- STATUS of an access: absent channel, write discarded in the safe state. -/
def absentSt (s : State) (addr : Nat) : Nat := match s.route addr with | .absent _ => ST_ABSENT | _ => 0

/-- Register read. -/
def mspiReadReg (s : State) (bs : Bytes) : State :=
  if !s.pathUp .mspi then s
  else if s.scanning then
    -- only PWR and CLKGEN are read in scan mode
    if fOp bs ≠ OP_RREG then s
    else if !frameGood bs then let f := s.free 32; f.2.emit (.mspi (answerR ST_CRC (BitVec.ofNat 32 f.1)))
    else match s.route (fAddr bs) with
      | .common .pwr off => s.emit (.mspi (answerR ST_OK (s.gShow .pwr off)))
      | .common .clkgen off => s.emit (.mspi (answerR ST_OK (s.gShow .clkgen off)))
      | _ => s
  else s.mspiFrame OP_RREG bs (fun s =>
    if s.route (fAddr bs) = .bad then s.mspiErr OP_RREG ST_OP
    else
      let r := s.hostRead (fAddr bs)
      r.2.emit (.mspi (answerR (ST_OK + s.absentSt (fAddr bs)) r.1)))

/-- Register write. -/
def mspiWriteReg (s : State) (bs : Bytes) : State :=
  s.mspiFrame OP_WREG bs (fun s =>
    if s.route (fAddr bs) = .bad then s.mspiErr OP_WREG ST_OP
    else
      let st := if s.safe && !safeWritable (s.route (fAddr bs)) then ST_DISCARD else s.absentSt (fAddr bs)
      (s.writeAt .mspi (fAddr bs) (fData bs)).emit (.mspi (answerW (ST_OK + st))))

/-- STATUS of an access to the slice of an absent channel. -/
def absentMem (s : State) (addr : Nat) : Nat := if s.running (Fin.ofNat 4 (addr / SLICE)) then 0 else ST_ABSENT

/-- Memory read. -/
def mspiReadMem (s : State) (bs : Bytes) : State :=
  s.mspiFrame OP_RMEM bs (fun s =>
    if !memOk (fAddr bs) then s.mspiErr OP_RMEM ST_OP
    else
      let r := s.memRead (fAddr bs)
      r.2.emit (.mspi (answerR (ST_OK + s.absentMem (fAddr bs)) r.1)))

/-- Memory write. -/
def mspiWriteMem (s : State) (bs : Bytes) : State :=
  s.mspiFrame OP_WMEM bs (fun s =>
    if !memOk (fAddr bs) then s.mspiErr OP_WMEM ST_OP
    else
      let st := if s.safe then ST_DISCARD else s.absentMem (fAddr bs)
      (s.memWrite (fAddr bs) (fData bs)).emit (.mspi (answerW (ST_OK + st))))

/-! ### Scan mode (R439) -/

/-- Whether a load is waiting, running or suspended. -/
def loadStarted (s : State) : Bool :=
  s.loader.dev.isSome || s.cmdq.cmds.any (fun c => c.op == 3 && s.cmdState c.slot != CS_QUEUED) || allChans.any (fun n => s.img[n].job.isSome)

/-- The scan entry frame. -/
def mspiScan (s : State) (bs : Bytes) : State :=
  s.mspiFrame OP_SCAN bs (fun s =>
    if fAddr bs = 0x5CA70001 ∧ fData bs = 0#32 ∧ s.gcur F.PWR_RST_CAUSE_BOOTSEL = 2 ∧ s.stage = BOOT_WAIT ∧ ¬ s.loadStarted then
      let old := s.gword .pwr PWR_STAT
      let s1 := s.zeroize.setStage BOOT_SCAN
      let s2 := s1.bookSt .mspi (gReg .pwr PWR_STAT) old (BitVec.ofNat 32 BOOT_SCAN)
      (s2.updPwr (fun p => { p with scan := true, balls := [] })).emit (.mspi (answerW ST_OK))
    else s.mspiErr OP_SCAN ST_OP)

def ballRow (bs : Bytes) : Nat := fAddr bs / 256
def ballCol (bs : Bytes) : Nat := fAddr bs % 256

/-- A ball drive frame: its ball's drive, kept until scan mode ends. -/
def mspiDrive (s : State) (bs : Bytes) : State :=
  if !s.pathUp .mspi then s
  else if s.scanning then
    if fOp bs ≠ OP_DRIVE then s
    else if !frameGood bs then s.emit (.mspi (answerW ST_CRC))
    else
      let d := (fData bs).toNat % 4
      if !testable (ballRow bs) (ballCol bs) || d == 3 then s.emit (.mspi (answerW ST_OP))
      else (s.updPwr (fun p => { p with balls := smPut 0 p.balls (ballRow bs * 256 + ballCol bs) d })).emit (.mspi (answerW ST_OK))
  else s.mspiFrame OP_DRIVE bs (fun s => s.mspiErr OP_DRIVE ST_OP)

/-- A ball sense frame: `level` is the level at the ball's receiver. -/
def mspiSense (s : State) (bs : Bytes) (level : Bool) : State :=
  let bad (st : Nat) : State := let f := s.free 32; f.2.emit (.mspi (answerR st (BitVec.ofNat 32 f.1)))
  if !s.pathUp .mspi then s
  else if s.scanning then
    if fOp bs ≠ OP_SENSE then s
    else if !frameGood bs then bad ST_CRC
    else if !testable (ballRow bs) (ballCol bs) then bad ST_OP
    else s.emit (.mspi (answerR ST_OK (BitVec.ofNat 32 (b2n level))))
  else s.mspiFrame OP_SENSE bs (fun s => s.mspiErr OP_SENSE ST_OP)

end State
end Sys2Proof.Machine
end

