-- ==== Sys2Proof/Machine/TickOps.lean ====
section
/-! DEFINITION. The last step of an evaluation tick (R28 to R32, R128): the time counters advance, the marks of the tick are dropped,
what waits for the end of the tick happens. -/
namespace Sys2Proof.Machine

namespace Channel

/-- What the end of a tick does to the service: queues of lost ports flushed, GCMD writes and due messages settled. -/
def endService (c : Channel) : Channel := let d := c.flushLost.gatesNext; d.setSeal { d.sealb with built := [] }

/-- The keys of the associations and cookie keys that come into use with the new tick are asked for (R231, R340). -/
def askKeys (old c : Channel) : Channel := if (old.rf .sealb).next.isEmpty then c else c.ask .keys

/-- The end of a tick for a channel in RUN: step 5 and 6 of R81, the advance of the counters with the values due with the next tick, then
what the new tick begins with: clock slots, disabled queues, the keys, the frames that pass the plane. -/
def endOfTick (c : Channel) : Channel :=
  let e := c.refEval.epochMissed.endService
  ((askKeys e e.advance.pmuTick.flushDisabled).flightTick 0).flightTick 1

end Channel

namespace State

/-- The commands of this tick that still wait. -/
def window (s : State) : List Instr := s.pending.takeWhile (fun i => i != .counterAdvance)

/-- The rows whose record is registered in their own tick, for a channel. -/
def isRecordRow (n : ChanIx) : Instr → Bool
  | .todSentenceWindowEnd c _ => c == n
  | .gnssL8Record c => c == n
  | _ => false

/-- Whether a record row of channel `n` is still to come in this tick. -/
def recordWaits (s : State) (n : ChanIx) : Bool := (s.held ++ s.window).any (isRecordRow n)

/-- The start of a tick in channel `n` (R75, R81, R127), once every record of the tick is there. -/
def beginTick (s : State) (n : ChanIx) : State :=
  if s.recordWaits n then s else s.onCh n (fun c => c.beginTick c.syncIv)

/-- The end of the tick for channel `n`. -/
def chanTick (s : State) (n : ChanIx) : State :=
  if s.chSt n = CH_RUN then (s.onCh n Channel.endOfTick).beginTick n
  else if s.chSt n = CH_RECONFIG then s.setCh n s.ch[n].advance
  else s

/-- What the common complex does last in a tick: block resets (R376), the tally's update and export (R420), host transmit rings of absent
channels (R383), rails (R437). -/
def tickLast (s : State) : State :=
  let s1 := (if s.fault.blockDue.isEmpty then s else s.blockResets.drain).tallyFix.exportFix
  allChans.foldl (fun s n => ((s.htxFollow n 0).htxFollow n 1).railsGood n) s1

/-- The end of an evaluation tick: the cellar book takes what the tick changed (R395), and a fault reset or safe exit that is due takes the
place of the next tick (R366, R371). -/
def tickEnd (s0 : State) : State :=
  if !s0.clocked then s0.bookFlush
  else
   let s := s0.tickLast.bookFlush
   match s.fault.resetDue with
    | some (cause, src, inj) => s.faultReset cause src inj
    | none =>
      let s1 := (allChans.foldl chanTick s.forwardTick).twinTick
      { s1 with tick := s1.tick + 1, regs := s1.regs.endTick, host := { s1.host with sent := [], took := [] },
                fault := { s1.fault with exitAsked := false } }

/-! ### Other events of the twin and its streams -/

/-- A twin lane finds sync, or loses it (R280). In the safe state the transmitters are off (R370). -/
def twinLaneSync (s : State) (l : Fin 2) (up : Bool) : State :=
  if !s.paired || s.safe then s else s.updTwin (fun t => { t with laneUp := t.laneUp.set l up })

/-- Whether a vintage of channel `n` is due: VINT_PER seconds of its time have begun since the last (R268, R271). -/
def vintageDue (s : State) (n : ChanIx) : Bool :=
  let v : Int := s.gfld F.TWIN_CFG_VINT_PER
  match s.twin.vintAt[n] with
  | none => true
  | some t => Int.fdiv (sar s.ch[n].now 64) v != Int.fdiv t v

/-- A synthesizer fails to lock (R159); in a racked channel of a drill the drill check fails (R278). -/
def synNoLock (s : State) (n : ChanIx) (k : Fin 2) : State :=
  let s1 := s.onCh n (fun c => c.noLock k.val)
  let now := (s1.ch[n].synK k.val).noLock && !(s.ch[n].synK k.val).noLock
  if now && s1.twin.rack.any (fun r => r.chans.contains n) then s1.drillFail else s1

end State
end Sys2Proof.Machine
end

