-- ==== Sys2Proof/Machine/AccessRows.lean ====
section
/-! DEFINITION. The effects of commands: register accesses, the windows of the cellar book, commits and locks as commands. -/
namespace Sys2Proof.Machine

/-- REGISTER_WRITE (R8). -/
def effRegisterWrite (p : HostPath) (addr : Nat) (v : Word) (s : State) : State :=
  s.hostWrite p addr v

/-- MULTIWORD_READ_LATCH (R13). -/
def effMultiwordReadLatch (p : HostPath) (addr : Nat) (s : State) : State :=
  s.readCmd p addr

/-- BOOK_WINDOW_START (R400). It acts in the tick in which a window starts. -/
def effBookWindowStart (s : State) : State :=
  if s.clocked && s.tick % 20000000 == 0 then s.bookWindow else s

/-- BOOK_RD_GO (R402). -/
def effBookRdGo (p : HostPath) (v : Word) (s : State) : State :=
  s.writeCom p .book BOOK_RD_CTL v

/-- MIRROR_ENABLE (R401). -/
def effMirrorEnable (p : HostPath) (v : Word) (s : State) : State :=
  s.writeCom p .book BOOK_MIR_CFG v

/-- REF_COMMIT (R92). -/
def effRefCommit (p : HostPath) (c : ChanIx) (v : Word) (s : State) : State :=
  s.writeCh p c .ref REF_CTL v

/-- DPLL_COMMIT (R146). -/
def effDpllCommit (p : HostPath) (c : ChanIx) (v : Word) (s : State) : State :=
  s.writeCh p c .dpll DPLL_CTL v

/-- SYN_COMMIT (R156). -/
def effSynCommit (p : HostPath) (c : ChanIx) (v : Word) (s : State) : State :=
  s.writeCh p c .syn SYN_CTL v

/-- GNSS_COMMIT (R120). -/
def effGnssCommit (p : HostPath) (c : ChanIx) (v : Word) (s : State) : State :=
  s.writeCh p c .gnss GNSS_CTL v

/-- PORT_COMMIT (R196). -/
def effPortCommit (p : HostPath) (c : ChanIx) (v : Word) (s : State) : State :=
  s.writeCh p c .port PORT_CTL v

/-- SCHED_COMMIT (R251). -/
def effSchedCommit (p : HostPath) (c : ChanIx) (v : Word) (s : State) : State :=
  s.writeCh p c .sched SCHED_CTL v

/-- SEAL_COMMIT (R232). -/
def effSealCommit (p : HostPath) (c : ChanIx) (v : Word) (s : State) : State :=
  s.writeCh p c .sealb SEAL_CTL v

/-- TWIN_COMMIT (R283). -/
def effTwinCommit (p : HostPath) (v : Word) (s : State) : State :=
  s.writeCom p .twin TWIN_CTL v

/-- BENCH_COMMIT (R304). -/
def effBenchCommit (p : HostPath) (v : Word) (s : State) : State :=
  s.writeCom p .bench BENCH_CTL v

/-- B_CTL_COMMIT (R304). -/
def effBCtlCommit (p : HostPath) (c : ChanIx) (v : Word) (s : State) : State :=
  s.writeCh p c .chctl CHCTL_B_CTL v

/-- CLKGEN_COMMIT (R429). -/
def effClkgenCommit (p : HostPath) (v : Word) (s : State) : State :=
  s.writeCom p .clkgen CLKGEN_CTL v

/-- BLOCK_LOCK (R12). A block without a LOCK bit takes nothing. -/
def effBlockLock (p : HostPath) (b : LockBlk) (v : Word) (s : State) : State :=
  match lockReg b with | some addr => s.hostWrite p addr v | none => s

end Sys2Proof.Machine
end

