-- ==== Sys2Proof/Machine/BenchRows.lean ====
section
/-! DEFINITION. The effects of commands: the bench: links, routes, peers, ensembles, calibration (R285 to R305). -/
namespace Sys2Proof.Machine

/-- BENCH_LINK_SYNC (R286). The transmitters are off in the safe state (R370). -/
def effBenchLinkSync (c : ChanIx) (x : Fin 2) (s : State) : State :=
  if s.safe then s else s.onCh c (fun ch => ch.benchSync x)

/-- BENCH_HELLO_SEND (R289). -/
def effBenchHelloSend (c : ChanIx) (x : Fin 2) (ps : Nat) (s : State) : State :=
  if s.safe then s else s.onCh c (fun ch => ch.helloSend s.benchId x (linkStamp s.tick ps))

/-- BENCH_HELLO_RX (R286). -/
def effBenchHelloRx (c : ChanIx) (x : Fin 2) (bs : Bytes) (ps : Nat) (s : State) : State :=
  s.onCh c (fun ch => ch.helloRx x bs (linkStamp s.tick ps))

/-- BENCH_HELLO_TIMEOUT (R286). -/
def effBenchHelloTimeout (c : ChanIx) (x : Fin 2) (lost : Bool) (s : State) : State :=
  s.onCh c (fun ch => ch.helloTimeout x lost)

/-- LSA_SEND (R290). -/
def effLsaSend (s : State) : State :=
  s.lsaSend

/-- LSA_RX (R290). -/
def effLsaRx (c : ChanIx) (x : Fin 2) (bs : Bytes) (s : State) : State :=
  s.lsaRx c x bs

/-- LSA_HOLD_EXPIRY (R300). -/
def effLsaHoldExpiry (devid : Nat) (s : State) : State :=
  s.lsaExpire devid

/-- ROUTE_COMPUTATION (R292). -/
def effRouteComputation (s : State) : State :=
  s.routeCompute

/-- BENCH_TIME_SEND (R293). -/
def effBenchTimeSend (c : ChanIx) (ps0 ps1 : Nat) (s : State) : State :=
  s.benchTimes c ps0 ps1

/-- BENCH_TIME_RX (R294). -/
def effBenchTimeRx (c : ChanIx) (x : Fin 2) (bs : Bytes) (ps : Nat) (residence : List Nat) (s : State) : State :=
  s.timeRx c x bs ps residence

/-- PEER_SLOT_EXPIRY (R296). -/
def effPeerSlotExpiry (c : ChanIx) (x : Fin 2) (i : Fin 32) (s : State) : State :=
  s.onCh c (fun ch => ch.slotExpiry x i)

/-- ENSEMBLE_EVALUATION (R298). -/
def effEnsembleEvaluation (c : ChanIx) (x : Fin 2) (s : State) : State :=
  s.onCh c (fun ch => ch.ensemble x)

/-- BENCH_CAL_GO (R305). -/
def effBenchCalGo (p : HostPath) (v : Word) (s : State) : State :=
  s.writeCom p .bench BENCH_CAL_CTL v

/-- BENCH_CAL_DONE (R305). -/
def effBenchCalDone (ab ba : List Nat) (s : State) : State :=
  s.calDone ab ba

end Sys2Proof.Machine
end

