-- ==== Sys2Proof/Machine/CountRows.lean ====
section
/-! DEFINITION. The effects of commands: performance counters and the tally (R405 to R420). -/
namespace Sys2Proof.Machine

/-- PMU_TD_SNAP (R411). -/
def effPmuTdSnap (p : HostPath) (c : ChanIx) (v : Word) (s : State) : State :=
  s.writeCh p c .pmu PMU_TD_CTL v

/-- PMU_COUNTER_WRAP (R412). -/
def effPmuCounterWrap (c : ChanIx) (smp : PmuSample) (s : State) : State :=
  s.onCh c (fun ch => ch.pmuCapture smp)

/-- BW_WINDOW_END (R409). -/
def effBwWindowEnd (c : ChanIx) (s : State) : State :=
  s.onCh c (fun ch => ch.bwWindowEnd)

/-- BW_CFG_WRITE (R409). -/
def effBwCfgWrite (p : HostPath) (c : ChanIx) (v : Word) (s : State) : State :=
  s.writeCh p c .pmu PMU_BW_CFG v

/-- PK_CLR_WRITE (R409). -/
def effPkClrWrite (h : HostPath) (c : ChanIx) (p : PortIx) (v : Word) (s : State) : State :=
  s.writeCh h c .pmu (PMU_P_PK_CLR p.val) v

/-- TALLY_UPDATE_START (R418). -/
def effTallyUpdateStart (s : State) : State :=
  s.tallyTimed

/-- TALLY_UPD_NOW (R418). -/
def effTallyUpdNow (p : HostPath) (v : Word) (s : State) : State :=
  s.writeCom p .tally TALLY_CTL v

/-- TALLY_UPDATE_COMMIT (R418). -/
def effTallyUpdateCommit (s : State) : State :=
  s.tallyCommit

/-- POH_SECOND_COUNT (R414). -/
def effPohSecondCount (tj : Int) (va vb : Nat) (s : State) : State :=
  s.pohSecond tj va vb

end Sys2Proof.Machine
end

