-- ==== Sys2Proof/Machine/FaultRows.lean ====
section
/-! DEFINITION. The effects of commands: fault detections, the safe state, injections, clock faults (R360 to R377). -/
namespace Sys2Proof.Machine

/-- FAULT_DETECTION (R363). -/
def effFaultDetection (n : Fin 512) (s : State) : State :=
  if s.clocked then s.detect n.val else s

/-- SAFE_ENTER (R368). -/
def effSafeEnter (p : HostPath) (v : Word) (s : State) : State :=
  s.writeCom p .fault FAULT_SAFE_CTL v

/-- SAFE_EXIT (R371). -/
def effSafeExit (p : HostPath) (v : Word) (s : State) : State :=
  s.writeCom p .fault FAULT_SAFE_CTL v

/-- INJECTION_GO (R372). -/
def effInjectionGo (p : HostPath) (v : Word) (s : State) : State :=
  s.writeCom p .fault FAULT_INJ_CTL v

/-- INJECTED_DETECTION (R372). -/
def effInjectedDetection (s : State) : State :=
  s.injDetect

/-- INJECTION_NO_CHECK_TIMEOUT (R372). -/
def effInjectionNoCheckTimeout (s : State) : State :=
  s.injTimeout

/-- CLK_GATE_FORCE (R374). -/
def effClkGateForce (c : Option ChanIx) (blk : Nat) (s : State) : State :=
  s.gateForce c blk

/-- CLK_SWITCH_COMPLETE (R375). -/
def effClkSwitchComplete (c : Option ChanIx) (blk : Nat) (how : SwitchEnd) (s : State) : State :=
  s.switchComplete c blk how

end Sys2Proof.Machine
end

