-- ==== Sys2Proof/Machine/GnssRows.lean ====
section
/-! DEFINITION. The effects of commands: the GNSS baseband (R94 to R120). -/
namespace Sys2Proof.Machine

/-- SAMPLE_LINK_FRAME (R98). -/
def effSampleLinkFrame (c : ChanIx) (comma : Bool) (bs : Bytes) (s : State) : State :=
  s.onCh c (fun ch => ch.sampleFrame comma bs)

/-- BACK_CHANNEL_MESSAGE (R99). -/
def effBackChannelMessage (c : ChanIx) (s : State) : State :=
  s.onCh c (fun ch => ch.bcMessage)

/-- BACK_CHANNEL_GO (R100). -/
def effBackChannelGo (p : HostPath) (c : ChanIx) (v : Word) (s : State) : State :=
  s.writeCh p c .gnss GNSS_BC_CMD v

/-- BACK_CHANNEL_TIMEOUT (R100). -/
def effBackChannelTimeout (c : ChanIx) (s : State) : State :=
  s.onCh c (fun ch => ch.bcTimeout)

/-- TRK_ASSIGNMENT (R102). -/
def effTrkAssignment (c : ChanIx) (i : Fin 48) (gal : Bool) (sv : Nat) (s : State) : State :=
  s.onCh c (fun ch => ch.trkAssign i gal sv)

/-- TRK_DETECTION (R102). -/
def effTrkDetection (c : ChanIx) (i : Fin 48) (s : State) : State :=
  s.onCh c (fun ch => ch.trkDetect i)

/-- TRK_WINDOW_EXHAUSTED (R102). -/
def effTrkWindowExhausted (c : ChanIx) (i : Fin 48) (s : State) : State :=
  s.onCh c (fun ch => ch.trkExhausted i)

/-- TRK_REASSIGN_HOLDOFF_END (R102). -/
def effTrkReassignHoldoffEnd (c : ChanIx) (s : State) : State :=
  s.onCh c (fun ch => ch.trkUnbar)

/-- TRK_LOCK (R102). -/
def effTrkLock (c : ChanIx) (i : Fin 48) (s : State) : State :=
  s.onCh c (fun ch => ch.trkLock i)

/-- TRK_PULL_IN_TIMEOUT (R102). -/
def effTrkPullInTimeout (c : ChanIx) (i : Fin 48) (s : State) : State :=
  s.onCh c (fun ch => ch.trkPullInTimeout i)

/-- TRK_LOCK_LOST (R102). -/
def effTrkLockLost (c : ChanIx) (i : Fin 48) (s : State) : State :=
  s.onCh c (fun ch => ch.trkLockLost i)

/-- TRK_LOST_TIMEOUT (R102). -/
def effTrkLostTimeout (c : ChanIx) (i : Fin 48) (s : State) : State :=
  s.onCh c (fun ch => ch.trkLostTimeout i)

/-- SIDE_PEAK_GUARD (R103). -/
def effSidePeakGuard (c : ChanIx) (i : Fin 48) (late : Bool) (s : State) : State :=
  s.onCh c (fun ch => ch.sidePeak i late)

/-- NOTCH_LOCK (R105). -/
def effNotchLock (c : ChanIx) (k : Fin 4) (lines : List (Int × Nat)) (s : State) : State :=
  s.onCh c (fun ch => ch.notchLock k lines)

/-- NOTCH_RELEASE (R105). -/
def effNotchRelease (c : ChanIx) (v : NotchView) (s : State) : State :=
  s.onCh c (fun ch => ch.notchRelease v.k v.lines)

/-- JNI_UPDATE (R107). -/
def effJniUpdate (c : ChanIx) (idle : Byte) (pq : Nat) (s : State) : State :=
  s.onCh c (fun ch => ch.jniUpdate idle pq)

/-- JAM_FLOOR_CAPTURE (R107). -/
def effJamFloorCapture (p : HostPath) (c : ChanIx) (v : Word) (s : State) : State :=
  s.writeCh p c .gnss GNSS_JAM_STAT v

/-- JAM_FLOOR_CAPTURE_END (R107). -/
def effJamFloorCaptureEnd (c : ChanIx) (idle : Byte) (s : State) : State :=
  s.onCh c (fun ch => ch.floorCaptureEnd idle)

/-- POS_SET (R109). -/
def effPosSet (p : HostPath) (c : ChanIx) (v : Word) (s : State) : State :=
  s.writeCh p c .gnss GNSS_POS_CTL v

/-- POS_CLR (R109). -/
def effPosClr (p : HostPath) (c : ChanIx) (v : Word) (s : State) : State :=
  s.writeCh p c .gnss GNSS_POS_CTL v

/-- SURVEY_FIX (R109). -/
def effSurveyFix (c : ChanIx) (x y z : Int) (s : State) : State :=
  (s.onCh c (fun ch => ch.surveyFix (x, y, z))).chanProgress c

/-- GNSS_EPOCH_SAMPLE (R111). -/
def effGnssEpochSample (c : ChanIx) (ms : List SatMeas) (s : State) : State :=
  s.onCh c (fun ch => ch.epochSample ms)

/-- GNSS_L8_RECORD (R114). -/
def effGnssL8Record (c : ChanIx) (s : State) : State :=
  (s.onCh c (fun ch => ch.l8Record)).beginTick c

/-- SNAP_GO (R116). -/
def effSnapGo (p : HostPath) (c : ChanIx) (v : Word) (s : State) : State :=
  s.writeCh p c .gnss GNSS_SNAP_CTL v

/-- SNAP_CAPTURE_START (R116). -/
def effSnapCaptureStart (c : ChanIx) (ps : Nat) (s : State) : State :=
  s.onCh c (fun ch => ch.snapStart ps)

/-- SNAP_CAPTURE_COMPLETE (R117). -/
def effSnapCaptureComplete (c : ChanIx) (s : State) : State :=
  s.onCh c (fun ch => ch.snapComplete)

/-- CMD_SNAPSHOT_PROCESSING (R118). -/
def effCmdSnapshotProcessing (slot : Fin 64) (ms : List SatMeas) (s : State) : State :=
  s.snapCmd slot.val ms

/-- CMD_GNSS_SURVEY (R109). -/
def effCmdGnssSurvey (slot : Fin 64) (s : State) : State :=
  s.surveyCmd slot.val

/-- NAVIGATION_DATA_DECODED (R102). -/
def effNavigationDataDecoded (c : ChanIx) (i : Fin 48) (d : NavData) (s : State) : State :=
  s.onCh c (fun ch => ch.navDecoded i d)

end Sys2Proof.Machine
end

