-- ==== Sys2Proof/Machine/ImageRows.lean ====
section
/-! DEFINITION. The effects of commands: images, loads and the power of channels (R306 to R333, R437, R441). -/
namespace Sys2Proof.Machine

/-- CMD_IMAGE_LOAD_STAGE (R322). -/
def effCmdImageLoadStage (slot : Fin 64) (data : Option Bytes) (s : State) : State :=
  s.loadCmd slot.val 0 data

/-- CMD_IMAGE_LOAD_RUN (R322). -/
def effCmdImageLoadRun (slot : Fin 64) (data : Option Bytes) (s : State) : State :=
  s.loadCmd slot.val 1 data

/-- CMD_IMAGE_LOAD_DEVICE (R322). -/
def effCmdImageLoadDevice (slot : Fin 64) (images : Option (List (Option Bytes))) (s : State) : State :=
  s.deviceCmd slot.val images

/-- IMAGE_STREAM_WRITE (R404). -/
def effImageStreamWrite (p : HostPath) (v : Word) (s : State) : State :=
  s.writeCom p .cmdq CMDQ_STREAM v

/-- RECONFIG_ENTRY (R323). -/
def effReconfigEntry (c : ChanIx) (s : State) : State :=
  s.reconfigEnter c

/-- RECONFIG_APPLY_COMPLETE (R326). -/
def effReconfigApplyComplete (c : ChanIx) (s : State) : State :=
  s.applyComplete c

/-- COMMON_IMAGE_APPLY (R324). -/
def effCommonImageApply (s : State) : State :=
  s.commonApply

/-- CHANNEL_GATE (R326). -/
def effChannelGate (p : HostPath) (c : ChanIx) (v : Word) (s : State) : State :=
  s.writeCom p .image (IMAGE_CH_CTL c.val) v

/-- CHANNEL_UNGATE (R326). -/
def effChannelUngate (p : HostPath) (c : ChanIx) (v : Word) (s : State) : State :=
  s.writeCom p .image (IMAGE_CH_CTL c.val) v

/-- CHANNEL_RESET (R326). -/
def effChannelReset (p : HostPath) (c : ChanIx) (v : Word) (s : State) : State :=
  s.writeCom p .image (IMAGE_CH_CTL c.val) v

/-- CHANNEL_POWER_DOWN_DONE (R437). -/
def effChannelPowerDownDone (c : ChanIx) (s : State) : State :=
  s.powerDownDone c

/-- CHANNEL_POWER_UP_DONE (R437). -/
def effChannelPowerUpDone (c : ChanIx) (s : State) : State :=
  s.powerUpDone c

end Sys2Proof.Machine
end

