-- ==== Sys2Proof/Machine/KeyRows.lean ====
section
/-! DEFINITION. The effects of commands: the vault and the tamper domain (R334 to R359). -/
namespace Sys2Proof.Machine

/-- KUM_INSTALL (R343). -/
def effKumInstall (p : HostPath) (v : Word) (s : State) : State :=
  s.kumRow 1 p v

/-- KUM_REPLACE (R343). -/
def effKumReplace (p : HostPath) (v : Word) (s : State) : State :=
  s.kumRow 2 p v

/-- KUM_INVALIDATE (R343). -/
def effKumInvalidate (p : HostPath) (v : Word) (s : State) : State :=
  s.kumRow 3 p v

/-- KUM_RECOVER (R347). -/
def effKumRecover (p : HostPath) (v : Word) (s : State) : State :=
  s.kumRow 4 p v

/-- KUM_TCFG (R352). -/
def effKumTcfg (p : HostPath) (v : Word) (s : State) : State :=
  s.kumRow 5 p v

/-- KUM_COMMIT_POINT (R348). -/
def effKumCommitPoint (written : Bool) (s : State) : State :=
  s.kumPoint written

/-- ATTESTATION_QUOTE (R350). -/
def effAttestationQuote (p : HostPath) (v : Word) (s : State) : State :=
  s.writeCom p .vault VAULT_ATT_CTL v

/-- ATTESTATION_QUOTE_DONE (R350). -/
def effAttestationQuoteDone (s : State) : State :=
  s.quoteDone

/-- CMD_KEY_BATCH (R356). -/
def effCmdKeyBatch (slot : Fin 64) (kums : Option (List Bytes)) (s : State) : State :=
  s.keyBatch slot.val kums

/-- TAMPER_SAMPLE (R351). -/
def effTamperSample (t : TamperIn) (s : State) : State :=
  s.tamperSample t

end Sys2Proof.Machine
end

