-- ==== Sys2Proof/Machine/LaneRows.lean ====
section
/-! DEFINITION. The effects of commands: reference lanes, the selector and the leap table (R64 to R93, R57 to R59). -/
namespace Sys2Proof.Machine

/-- REFIN_EDGE (R67). -/
def effRefinEdge (c : ChanIx) (n : LaneIx) (ps : Nat) (s : State) : State :=
  s.onCh c (fun ch => ch.refinEdge n ps)

/-- TOD_SENTENCE_RX (R71). -/
def effTodSentenceRx (c : ChanIx) (k : Fin 2) (bs : Bytes) (ago : Nat) (s : State) : State :=
  s.onCh c (fun ch => ch.todSentence k.val bs ago)

/-- TOD_SENTENCE_WINDOW_END (R71). -/
def effTodSentenceWindowEnd (c : ChanIx) (n : LaneIx) (s : State) : State :=
  (s.onCh c (fun ch => ch.todWindowEnd n)).beginTick c

/-- FREQ_RECORD_BOUNDARY (R67). -/
def effFreqRecordBoundary (c : ChanIx) (n : LaneIx) (freq off : Int) (s : State) : State :=
  s.onCh c (fun ch => ch.freqBoundary n freq off)

/-- LANE_MISS_TIMER_EXPIRY (R76). -/
def effLaneMissTimerExpiry (c : ChanIx) (n : LaneIx) (s : State) : State :=
  s.onCh c (fun ch => ch.missExpiry n)

/-- QUAL_WINDOW_EXPIRY (R80). -/
def effQualWindowExpiry (c : ChanIx) (n : LaneIx) (s : State) : State :=
  s.onCh c (fun ch => ch.windowExpiry n)

/-- WTR_EXPIRY (R80). -/
def effWtrExpiry (c : ChanIx) (n : LaneIx) (s : State) : State :=
  s.onCh c (fun ch => ch.wtrExpiry n)

/-- DQ_HOLD_EXPIRY (R80). -/
def effDqHoldExpiry (c : ChanIx) (n : LaneIx) (s : State) : State :=
  s.onCh c (fun ch => ch.dqExpiry n)

/-- LANE_FORCE (R80). -/
def effLaneForce (p : HostPath) (c : ChanIx) (n : LaneIx) (v : Word) (s : State) : State :=
  s.writeCh p c .ref (REF_LANE_CMD n.val) v

/-- LANE_UNFORCE (R80). -/
def effLaneUnforce (p : HostPath) (c : ChanIx) (n : LaneIx) (v : Word) (s : State) : State :=
  s.writeCh p c .ref (REF_LANE_CMD n.val) v

/-- LANE_REQUAL (R80). -/
def effLaneRequal (p : HostPath) (c : ChanIx) (n : LaneIx) (v : Word) (s : State) : State :=
  s.writeCh p c .ref (REF_LANE_CMD n.val) v

/-- LANE_CLR_STEP (R83). -/
def effLaneClrStep (p : HostPath) (c : ChanIx) (n : LaneIx) (v : Word) (s : State) : State :=
  s.writeCh p c .ref (REF_LANE_CMD n.val) v

/-- SEL_APPROVE (R90). -/
def effSelApprove (p : HostPath) (c : ChanIx) (v : Word) (s : State) : State :=
  s.writeCh p c .ref REF_SEL_CMD v

/-- SEL_DENY (R90). -/
def effSelDeny (p : HostPath) (c : ChanIx) (v : Word) (s : State) : State :=
  s.writeCh p c .ref REF_SEL_CMD v

/-- UTC_ANNOUNCEMENT (R59). -/
def effUtcAnnouncement (c : ChanIx) (n : LaneIx) (a : UtcAnn) (s : State) : State :=
  s.onCh c (fun ch => ch.utcAnnounce n a)

/-- LEAP_ENT_WRITE (R61). -/
def effLeapEntWrite (p : HostPath) (c : ChanIx) (k : Fin 8) (v : Word) (s : State) : State :=
  s.writeCh p c .dpll (DPLL_LEAP_ENT k.val) v

end Sys2Proof.Machine
end

