-- ==== Sys2Proof/Machine/LinkRows.lean ====
section
/-! DEFINITION. The effects of commands: ethernet links, SyncE and ESMC (R171 to R198). -/
namespace Sys2Proof.Machine

/-- LINK_AN_COMPLETE (R176). The transmitters are off in the safe state (R370). -/
def effLinkAnComplete (c : ChanIx) (p : PortIx) (peer : Nat) (rs br : Bool) (s : State) : State :=
  if s.safe then s else s.onCh c (fun ch => ch.anComplete p peer rs br)

/-- LINK_TRAINING_COMPLETE (R176). The transmitters are off in the safe state (R370). -/
def effLinkTrainingComplete (c : ChanIx) (p : PortIx) (s : State) : State :=
  if s.safe then s else s.onCh c (fun ch => ch.trainComplete p)

/-- LINK_TRAINING_TIMEOUT (R176). The transmitters are off in the safe state (R370). -/
def effLinkTrainingTimeout (c : ChanIx) (p : PortIx) (s : State) : State :=
  if s.safe then s else s.onCh c (fun ch => ch.trainTimeout p)

/-- LINK_ALIGN_LOCK (R176). The transmitters are off in the safe state (R370). -/
def effLinkAlignLock (c : ChanIx) (p : PortIx) (vI vE : Int) (s : State) : State :=
  if s.safe then s else s.onCh c (fun ch => ch.alignLock p vI vE)

/-- LINK_ALIGN_TIMEOUT (R176). The transmitters are off in the safe state (R370). -/
def effLinkAlignTimeout (c : ChanIx) (p : PortIx) (s : State) : State :=
  if s.safe then s else s.onCh c (fun ch => ch.alignTimeout p)

/-- LINK_LOSS (R176). -/
def effLinkLoss (c : ChanIx) (p : PortIx) (s : State) : State :=
  s.onCh c (fun ch => ch.linkLoss p)

/-- PAUSE_FRAME_RX (R174). -/
def effPauseFrameRx (c : ChanIx) (p : PortIx) (len : Nat) (s : State) : State :=
  s.onCh c (fun ch => ch.pauseRx p len)

/-- OVERSIZE_FRAME_RX (R174). -/
def effOversizeFrameRx (c : ChanIx) (p : PortIx) (len : Nat) (s : State) : State :=
  s.onCh c (fun ch => ch.oversizeRx p len)

/-- SYNCE_RECORD (R192). -/
def effSynceRecord (c : ChanIx) (p : PortIx) (freq off : Int) (s : State) : State :=
  s.onCh c (fun ch => ch.synceRecord p freq off)

/-- ESMC_PDU_RX (R194). -/
def effEsmcPduRx (c : ChanIx) (p : PortIx) (ql len : Nat) (s : State) : State :=
  s.onCh c (fun ch => ch.esmcRx p ql len)

/-- ESMC_QL_LOST_EXPIRY (R194). -/
def effEsmcQlLostExpiry (c : ChanIx) (p : PortIx) (s : State) : State :=
  s.onCh c (fun ch => ch.esmcLost p)

/-- ESMC_INFO_PDU_SEND (R194). -/
def effEsmcInfoPduSend (c : ChanIx) (p : PortIx) (s : State) : State :=
  s.onCh c (fun ch => ch.esmcInfo p)

end Sys2Proof.Machine
end

