-- ==== Sys2Proof/Machine/Order.lean ====
section
/-! DEFINITION. The order in which the commands of one evaluation tick act (R30 to R32, R81, R127, R162, R186, R231, R238, R248, R267,
R302, R357, R376, R386, R393, R420, R431): the place that each chapter gives a command, and which command waits for which
(notes/assumptions/1.md). -/
namespace Sys2Proof.Machine

/-- The parts of the device whose chapters order what they do in one tick. `core` is the REF and DPLL blocks of a channel, and behind them
everything that stamps or exports its time (R49); `bench` is a channel's endpoints and `router` the bench router. -/
inductive TickUnit
  | core (c : ChanIx) | gnss (c : ChanIx) | syn (c : ChanIx) | port (c : ChanIx) | seal (c : ChanIx) | sched (c : ChanIx)
  | bench (c : ChanIx) | load (c : ChanIx) | router | twin | vault | fault | cmdq | tally | clkgen
  deriving DecidableEq, Repr

/-- A place in a unit's order: the step, then what orders the commands of that step. -/
abbrev Place : Type := TickUnit × List Int

/-- Whether a key comes before another: the first number in which they differ decides, and a key that only ends earlier comes with it. -/
def keyBefore : List Int → List Int → Bool
  | a :: as, b :: bs => decide (a < b) || (a == b && keyBefore as bs)
  | _, _ => false

/-- The register write that a command is: its path, WIN_REG offset and value. -/
def accessOf : Instr → Option (HostPath × Nat × Word)
  | .registerWrite p a v => some (p, a, v)
  | .bookRdGo p v => some (p, gReg .book BOOK_RD_CTL, v)
  | .mirrorEnable p v => some (p, gReg .book BOOK_MIR_CFG, v)
  | .refCommit p c v => some (p, winReg c .ref REF_CTL, v)
  | .dpllCommit p c v => some (p, winReg c .dpll DPLL_CTL, v)
  | .synCommit p c v => some (p, winReg c .syn SYN_CTL, v)
  | .gnssCommit p c v => some (p, winReg c .gnss GNSS_CTL, v)
  | .portCommit p c v => some (p, winReg c .port PORT_CTL, v)
  | .schedCommit p c v => some (p, winReg c .sched SCHED_CTL, v)
  | .sealCommit p c v => some (p, winReg c .sealb SEAL_CTL, v)
  | .twinCommit p v => some (p, gReg .twin TWIN_CTL, v)
  | .benchCommit p v => some (p, gReg .bench BENCH_CTL, v)
  | .bCtlCommit p c v => some (p, winReg c .chctl CHCTL_B_CTL, v)
  | .clkgenCommit p v => some (p, gReg .clkgen CLKGEN_CTL, v)
  | .blockLock p b v => (lockReg b).map (fun a => (p, a, v))
  | .laneForce p c n v => some (p, winReg c .ref (REF_LANE_CMD n.val), v)
  | .laneUnforce p c n v => some (p, winReg c .ref (REF_LANE_CMD n.val), v)
  | .laneRequal p c n v => some (p, winReg c .ref (REF_LANE_CMD n.val), v)
  | .laneClrStep p c n v => some (p, winReg c .ref (REF_LANE_CMD n.val), v)
  | .selApprove p c v => some (p, winReg c .ref REF_SEL_CMD, v)
  | .selDeny p c v => some (p, winReg c .ref REF_SEL_CMD, v)
  | .leapEntWrite p c k v => some (p, winReg c .dpll (DPLL_LEAP_ENT k.val), v)
  | .backChannelGo p c v => some (p, winReg c .gnss GNSS_BC_CMD, v)
  | .jamFloorCapture p c v => some (p, winReg c .gnss GNSS_JAM_STAT, v)
  | .posSet p c v => some (p, winReg c .gnss GNSS_POS_CTL, v)
  | .posClr p c v => some (p, winReg c .gnss GNSS_POS_CTL, v)
  | .snapGo p c v => some (p, winReg c .gnss GNSS_SNAP_CTL, v)
  | .stepGo p c v => some (p, winReg c .dpll DPLL_STEP_CMD, v)
  | .stepAbort p c v => some (p, winReg c .dpll DPLL_STEP_CMD, v)
  | .realignGo p c v => some (p, winReg c .syn SYN_RA_CTL, v)
  | .ctRevoke p c v => some (p, winReg c .sealb SEAL_CT_CMD, v)
  | .polCmdGo p c v => some (p, winReg c .sched SCHED_POL_CMD, v)
  | .gateSwap h c p v => some (h, winReg c .sched (SCHED_P_GCMD p.val), v)
  | .gateCancel h c p v => some (h, winReg c .sched (SCHED_P_GCMD p.val), v)
  | .twinFence p v => some (p, gReg .twin TWIN_CTL, v)
  | .twinUnfence p v => some (p, gReg .twin TWIN_CTL, v)
  | .benchCalGo p v => some (p, gReg .bench BENCH_CAL_CTL, v)
  | .imageStreamWrite p v => some (p, gReg .cmdq CMDQ_STREAM, v)
  | .channelGate p c v => some (p, gReg .image (IMAGE_CH_CTL c.val), v)
  | .channelUngate p c v => some (p, gReg .image (IMAGE_CH_CTL c.val), v)
  | .channelReset p c v => some (p, gReg .image (IMAGE_CH_CTL c.val), v)
  | .kumInstall p v => some (p, gReg .vault VAULT_KUM_CTL, v)
  | .kumReplace p v => some (p, gReg .vault VAULT_KUM_CTL, v)
  | .kumInvalidate p v => some (p, gReg .vault VAULT_KUM_CTL, v)
  | .kumRecover p v => some (p, gReg .vault VAULT_KUM_CTL, v)
  | .kumTcfg p v => some (p, gReg .vault VAULT_KUM_CTL, v)
  | .attestationQuote p v => some (p, gReg .vault VAULT_ATT_CTL, v)
  | .safeEnter p v => some (p, gReg .fault FAULT_SAFE_CTL, v)
  | .safeExit p v => some (p, gReg .fault FAULT_SAFE_CTL, v)
  | .injectionGo p v => some (p, gReg .fault FAULT_INJ_CTL, v)
  | .cmdSubmit p v => some (p, gReg .cmdq CMDQ_SUBMIT, v)
  | .cmdRelease p v => some (p, gReg .cmdq CMDQ_RELEASE, v)
  | .pmuTdSnap p c v => some (p, winReg c .pmu PMU_TD_CTL, v)
  | .bwCfgWrite p c v => some (p, winReg c .pmu PMU_BW_CFG, v)
  | .pkClrWrite h c p v => some (h, winReg c .pmu (PMU_P_PK_CLR p.val), v)
  | .tallyUpdNow p v => some (p, gReg .tally TALLY_CTL, v)
  | .mspiRegisterWrite bs => if fOp bs = OP_WREG then some (.mspi, fAddr bs, fData bs) else none
  | _ => none

/-- The path of a host access (R386). -/
def pathOf (i : Instr) : Option HostPath :=
  match i with
  | .multiwordReadLatch p _ => some p
  | .winMemWrite p _ _ => some p
  | .mspiRegisterRead _ | .mspiRegisterWrite _ | .mspiMemoryRead _ | .mspiMemoryWrite _ => some .mspi
  | _ => (accessOf i).map Prod.fst

/-- Every channel's place of one kind. -/
def everyCh (f : ChanIx → TickUnit) (key : List Int) : List Place := (List.finRange 4).map (fun c => (f c, key))

/-- The place of a write of a channel's register: in REF, LANE_CMD before SEL_CMD before COMMIT (R81); in DPLL, the leap table before what
announces (R62), STEP_CMD, COMMIT (R127); elsewhere the writes of a block before its COMMIT. -/
def chanWritePlace (c : ChanIx) (b : KB) (off : Nat) : List Place :=
  let last (u : TickUnit) (n : Int) (ctl : Nat) : List Place := [(u, [n, if off = ctl then 1 else 0])]
  match b with
  | .ref =>
    if off = REF_CTL then [(.core c, [3])] else if off = REF_SEL_CMD then [(.core c, [2, 1])]
    else match (List.finRange 16).find? (fun n => off == REF_LANE_CMD n.val) with
      | some n => [(.core c, [2, 0, n.val])]
      | none => []
  | .dpll =>
    if off = DPLL_CTL then [(.core c, [8])] else if off = DPLL_STEP_CMD then [(.core c, [7, 0])]
    else if 0xF0100 ≤ off ∧ off < 0xF0180 then [(.core c, [0])] else []
  | .syn => if off = SYN_CTL ∨ off = SYN_RA_CTL then [(.syn c, [5])] else []
  | .gnss => if off = GNSS_POS_CTL then [(.gnss c, [1])] else []
  | .port => last (.port c) 2 PORT_CTL
  | .sched => [(.sched c, [5, if off = SCHED_CTL ∨ off = SCHED_P_GCMD 0 ∨ off = SCHED_P_GCMD 1 then 2 else if off = SCHED_POL_CMD then 1 else 0])]
  | .sealb => last (.seal c) 6 SEAL_CTL
  | .chctl => last (.bench c) 3 CHCTL_B_CTL
  | .pmu => []

/-- The place of a write of a common register: RELEASE before SUBMIT (R393), KUM_CTL and ATT_CTL behind the vault's other registers
(R357). A write that enters the safe state comes first in the blocks whose chapters say so (R231, R267, R357, R393). -/
def comWritePlace (b : CB) (off : Nat) (v : Word) : List Place :=
  match b with
  | .twin => [(.twin, [4])]
  | .bench => [(.router, [2, if off = BENCH_CTL then 1 else 0])]
  | .vault => [(.vault, [4, if off = VAULT_KUM_CTL ∨ off = VAULT_ATT_CTL then 1 else 0])]
  | .fault =>
    if off = FAULT_SAFE_CTL ∧ bit v 31 then (.fault, [6, 1, 1]) :: (.twin, [1]) :: (.vault, [2]) :: (.cmdq, [1]) :: everyCh .seal [1]
    else [(.fault, if off = FAULT_SAFE_CTL then [6, 1, 0] else if off = FAULT_INJ_CTL then [6, 1, 2] else [6, 0])]
  | .cmdq => if off = CMDQ_RELEASE then [(.cmdq, [3, 0, 0])] else if off = CMDQ_SUBMIT then [(.cmdq, [3, 0, 1])] else []
  | .clkgen => [(.clkgen, [2, if off = CLKGEN_CTL then 1 else 0])]
  | .tally => [(.tally, [4])]
  | _ => []

namespace State

/-- The place of a read of a register. -/
def readPlace (s : State) (addr : Nat) : List Place := match s.route addr with | .chan c _ _ => [(.load c, [1])] | _ => []

/-- The place of a request of port `p` with its ingress stamp: after link events and register writes in PORT, in the order of the stamps,
ties broken by port number (R186, R231, R248). A message without a stamp of its own has the step only. -/
def rxPlace (s : State) (c : ChanIx) (p : PortIx) (st : Option (Nat × Int)) : List Place :=
  let k : List Int := match st with | some x => [3, (s.ch[c].stampIn p x.1 x.2).t, p.val] | none => [3]
  [(.core c, [10]), (.port c, k), (.seal c, k), (.sched c, [3])]

/-- The place of a due message: multicast before index 0, then ascending client index, messageType, port (R231, R238). -/
def duePlace (c : ChanIx) (i mt p : Nat) : List Place := [(.core c, [10]), (.seal c, [4, i, mt, p]), (.sched c, [4, 0])]

/-- The places of a command in its tick. A command without one acts when it comes. -/
def place (s : State) (i : Instr) : List Place :=
  match i with
  -- REF and DPLL (R81, R127), and what stamps or exports the channel's time (R49)
  | .todSentenceRx c _ _ _ => [(.core c, [0])]
  | .todSentenceWindowEnd c _ => [(.core c, [1])]
  | .gnssL8Record c => [(.core c, [1])]
  | .laneMissTimerExpiry c n => [(.core c, [4, n.val, 0])]
  | .qualWindowExpiry c n => [(.core c, [4, n.val, 1])]
  | .wtrExpiry c n => [(.core c, [4, n.val, 1])]
  | .dqHoldExpiry c n => [(.core c, [4, n.val, 1])]
  | .servoAApply c => [(.core c, [5])]
  | .servoBApply c => [(.core c, [6])]
  | .stepAbsApply c => [(.core c, [7, 1])]
  | .channelAcquireStart c => [(.core c, [9, 0])]
  | .holdoverEntry c => [(.core c, [9, 0])]
  | .holdoverLimitEntry c => [(.core c, [9, 1])]
  | .hoAgingIncrement c => [(.core c, [9, 2])]
  | .charSampleInstant c => [(.core c, [9, 3]), (.cmdq, [0])]
  | .refinEdge c _ _ => [(.core c, [10])]
  | .freqRecordBoundary c _ _ _ => [(.core c, [10])]
  | .utcAnnouncement c _ _ => [(.core c, [10])]
  | .synceRecord c _ _ _ => [(.core c, [10])]
  | .esmcInfoPduSend c p => [(.core c, [10]), (.port c, [4, p.val])]
  | .vintageWrite c => [(.core c, [11])]
  -- GNSS: arrivals before timers (R100, R102), a completing fix before what suspends or ends the survey (R110)
  | .sampleLinkFrame c _ _ => [(.gnss c, [0])]
  | .trkLock c _ => [(.gnss c, [0])]
  | .surveyFix c _ _ _ => [(.gnss c, [0]), (.cmdq, [0])]
  | .gnssEpochSample c _ => [(.gnss c, [0]), (.core c, [10])]
  | .snapCaptureStart c _ => [(.core c, [10])]
  | .backChannelTimeout c => [(.gnss c, [1])]
  | .trkReassignHoldoffEnd c => [(.gnss c, [1])]
  | .trkPullInTimeout c _ => [(.gnss c, [1])]
  | .trkLostTimeout c _ => [(.gnss c, [1])]
  | .jniUpdate c _ _ => [(.gnss c, [1])]
  | .jamFloorCaptureEnd c _ => [(.gnss c, [1])]
  -- SYN (R162)
  | .synReferenceLoss c k => [(.core c, [10]), (.syn c, [2, k.val, 0])]
  | .synCoastReferenceReturn c k => [(.core c, [10]), (.syn c, [2, k.val, 0])]
  | .synLockLost c k _ => [(.core c, [10]), (.syn c, [2, k.val, 1])]
  | .synLockDeclared c k _ => [(.core c, [10]), (.syn c, [2, k.val, 1])]
  | .synNolock c k => [(.core c, [10]), (.syn c, [2, k.val, 2])]
  | .synCommitBoundary c k => [(.core c, [10]), (.syn c, [3, k.val])]
  | .pulseCommitBoundary c => [(.core c, [10]), (.syn c, [3, 2])]
  | .realignJumpSwitch c => [(.core c, [10]), (.syn c, [4])]
  | .realignSlewDone c => [(.core c, [10]), (.syn c, [4])]
  | .pulseEdge c j => [(.core c, [10]), (.syn c, [6, j.val])]
  | .todSentenceSend c => [(.core c, [10]), (.syn c, [6, 2])]
  -- PORT, SEAL, SCHED (R186, R231, R238, R248)
  | .bwWindowEnd c => [(.port c, [0])]
  | .linkAnComplete c p _ _ _ => [(.port c, [1, p.val, 0])]
  | .linkTrainingComplete c p => [(.port c, [1, p.val, 0])]
  | .linkAlignLock c p _ _ => [(.port c, [1, p.val, 0])]
  | .linkLoss c p => [(.port c, [1, p.val, 0])]
  | .linkTrainingTimeout c p => [(.port c, [1, p.val, 1])]
  | .linkAlignTimeout c p => [(.port c, [1, p.val, 1])]
  | .ptpDelayReqRx c p ps f _ => s.rxPlace c p (some (ps, f))
  | .ptpPdelayReqRx c p ps f _ => s.rxPlace c p (some (ps, f))
  | .ptpSyncRx c p ps f _ => s.rxPlace c p (some (ps, f))
  | .ptpPdelayRespRx c p ps f _ => s.rxPlace c p (some (ps, f))
  | .ntpRequestRx c p ps f _ => s.rxPlace c p (some (ps, f))
  | .ntpMacRequestRx c p ps f _ => s.rxPlace c p (some (ps, f))
  | .ntsRequestRx c p ps f _ => s.rxPlace c p (some (ps, f))
  | .transitFrameRx c p ps f _ => s.rxPlace c p (some (ps, f))
  | .ptpFollowUpRx c p _ => s.rxPlace c p none
  | .ptpDelayRespRx c p _ => s.rxPlace c p none
  | .ptpAnnounceRx c p _ => s.rxPlace c p none
  | .ptpSignalingRx c p _ => s.rxPlace c p none
  | .exceptionFrameRx c p _ => s.rxPlace c p none
  | .unsupportedFrameRx c p _ => s.rxPlace c p none
  | .notMineFrameRx c p _ => s.rxPlace c p none
  | .pauseFrameRx c p _ => s.rxPlace c p none
  | .oversizeFrameRx c p _ => s.rxPlace c p none
  | .esmcPduRx c p _ _ => s.rxPlace c p none
  | .esmcQlLostExpiry c p => [(.port c, [3, 2 ^ 200, p.val])]
  | .multicastDueMessage c p ann => duePlace c 0 (if ann then 0xB else 0) p.val
  | .pdelayReqDue c p => duePlace c 0 2 p.val
  | .laneDelayReqDue c p => duePlace c 0 1 p.val
  | .laneClientNegotiate c p => duePlace c 0 0xC p.val
  | .unicastDueMessage c i ann => duePlace c (i + 1) (if ann then 0xB else 0) 0
  | .exceptionCoreResponse c => [(.seal c, [4, 2 ^ 20]), (.sched c, [4, 0])]
  | .grantExpiry c i => [(.seal c, [5, i])]
  | .hostTxFrameTake c p => [(.seal c, [5, 2 ^ 20]), (.sched c, [4, 1, p.val])]
  | .gateListBoundary c p => [(.sched c, [1, p.val])]
  | .gateListSwitch c p => [(.sched c, [1, p.val])]
  | .egressCommit c p _ _ => [(.core c, [10]), (.port c, [4, p.val]), (.seal c, [7, p.val]), (.sched c, [6, p.val])]
  | .queueSample c p => [(.sched c, [7, p.val])]
  -- TWIN (R267). The declaration of step 6 is part of the miss expiry's row, which comes behind the round timer and FEEDS_OK for that reason
  | .hbFrameRx _ _ _ => [(.twin, [2, 0])]
  | .hbWordRx _ => [(.twin, [2, 1])]
  | .claimRoundEnd _ _ _ => (.twin, [3, 0]) :: everyCh .seal [2]
  | .outputContention c => (.twin, [3, 1, c.val]) :: everyCh .seal [2]
  | .drillFrameRx _ _ => [(.twin, [4])]
  | .claimRoundStart _ => [(.twin, [5, 0, 0])]
  | .heartbeatMissExpiry pathB => [(.twin, [5, if pathB then 2 else 1])]
  | .bootWaitExpiry => [(.twin, [5, 3])]
  | .drillTimeout => [(.twin, [5, 4])]
  | .feedGood _ _ => [(.twin, [5, 0, 1])]
  | .feedBad _ _ => [(.twin, [5, 0, 1])]
  | .rackChannelComplete c => [(.twin, [6, c.val])]
  | .claimConditionMet => [(.twin, [6])]
  | .drillClaimInstant => [(.twin, [6])]
  | .twinTimeFrameRx _ bs _ => [(.core (Fin.ofNat 4 (leAt bs 1 1)), [10])]
  | .twinTimeFrameSend c _ => [(.core c, [10])]
  -- the bench (R302)
  | .benchLinkSync c x => [(.bench c, [1, x.val])]
  | .benchHelloTimeout c x lost => [(.bench c, if lost then [1, x.val] else [4, 0, x.val])]
  | .benchHelloRx c x _ ps => [(.bench c, [2, ps, x.val])]
  | .benchTimeRx c x _ ps _ => [(.core c, [10]), (.bench c, [2, ps, x.val]), (.router, [1, 2 * c.val + x.val])]
  | .lsaRx c x _ => [(.bench c, [2]), (.router, [1, 2 * c.val + x.val])]
  | .peerSlotExpiry c x k => [(.bench c, [4, 1, x.val, k.val])]
  | .benchTimeSend c _ _ => [(.core c, [10]), (.bench c, [5, 0])]
  | .ensembleEvaluation c x => [(.core c, [10]), (.bench c, [5, 1, x.val])]
  | .lsaHoldExpiry d => [(.router, [3, d])]
  | .routeComputation => [(.router, [4])]
  -- VAULT and FAULT (R357, R376)
  | .tamperSample _ => (.vault, [1]) :: everyCh .seal [1]
  | .kumCommitPoint _ => (.vault, [3]) :: everyCh .seal [1]
  | .faultDetection n => (.fault, if n.val = 0 then [1] else [2, n.val]) :: (.twin, [1]) :: (.vault, [2]) :: (.cmdq, [1]) :: everyCh .seal [1]
  | .injectedDetection => (.fault, [3]) :: (.twin, [1]) :: (.vault, [2]) :: (.cmdq, [1]) :: everyCh .seal [1]
  | .injectionNoCheckTimeout => [(.fault, [5])]
  -- CMDQ (R393): what ends an operation, a completion even before the safe state, then controls, timeouts and starts in ascending slot order
  | .cmdComplete k dma => [(.cmdq, [if dma then 2 else 0, k.val])]
  | .cmdSnapshotProcessing k _ => [(.cmdq, [0, k.val])]
  | .feedCheckComplete _ _ => [(.cmdq, [0])]
  | .stageDone => [(.cmdq, [0])]
  | .cmdKeyBatch k _ => [(.cmdq, [2, k.val])]
  | .cmdCookieMint k _ => [(.cmdq, [2, k.val])]
  | .cmdSelfTest k => [(.cmdq, [2, k.val])]
  | .cmdTallyExport k => [(.cmdq, [2, k.val]), (.tally, [5])]
  | .reconfigApplyComplete c => [(.cmdq, [0]), (.load c, [0])]
  -- a CANCEL comes before RECONFIG entry, and an access sees the channel as the tick leaves it (R327, R331)
  | .reconfigEntry c => [(.cmdq, [3, 2]), (.load c, [0])]
  | .multiwordReadLatch _ a => s.readPlace a
  | .mspiRegisterRead bs => s.readPlace (fAddr bs)
  | .commonImageApply => [(.cmdq, [2])]
  | .cmdSuspend k => [(.cmdq, [3, 1, k.val])]
  | .cmdResume k => [(.cmdq, [3, 1, k.val])]
  | .cmdCancel k => [(.cmdq, [3, 1, k.val])]
  | .cmdTimeout k => [(.cmdq, [4, k.val])]
  | .cmdStart k => [(.cmdq, [5, k.val])]
  -- the tally and CLKGEN (R420, R431)
  | .pohSecondCount _ _ _ => [(.tally, [1])]
  | .tallyUpdateCommit => [(.tally, [2])]
  | .tallyUpdateStart => [(.tally, [3])]
  | .moscDetect _ => [(.clkgen, [1])]
  | .moscLost => [(.clkgen, [1])]
  | .moscReturn => [(.clkgen, [1])]
  | .rootLock r => [(.clkgen, [1, r.val])]
  | .rootLockLost r => [(.clkgen, [1, r.val])]
  | .clkSwitchComplete _ _ _ => [(.clkgen, [3])]
  | .clkGateForce _ _ => [(.clkgen, [3])]
  | _ =>
    match accessOf i with
    | some (_, addr, v) =>
      match s.route addr with
      | .chan c b off => (.load c, [1]) :: chanWritePlace c b off
      | .common b off => comWritePlace b off v
      | _ => []
    | none => []

/-- Whether a unit's chapter puts one command before another in a tick. -/
def chapterBefore (s : State) (a b : Instr) : Bool :=
  (s.place a).any (fun x => (s.place b).any (fun y => x.1 == y.1 && keyBefore x.2 y.2))

/-- Whether a command acts before another of its tick: as the chapters say, and where they say nothing, a PCIe access before an MSPI
access (R386). -/
def precedes (s : State) (a b : Instr) : Bool :=
  s.chapterBefore a b ||
    (match pathOf a, pathOf b with
      | some (.pcie _), some .mspi => !s.chapterBefore b a
      | _, _ => false)

/-- Whether a command that is held keeps a later one behind it: both are accesses by the same path to the same 64 KiB of WIN_REG, and the
later is not one that comes first. -/
def keepsBack (s : State) (a b : Instr) : Bool :=
  match accessOf a, accessOf b with
  | some x, some y => x.1 == y.1 && x.2.1 / 0x10000 == y.2.1 / 0x10000 && !s.precedes b a
  | _, _ => false

/-- Whether a command waits, `front` being held before it and `back` behind it or still in the queue. -/
def blocked (s : State) (front back : List Instr) (i : Instr) : Bool :=
  (front ++ back).any (fun a => s.precedes a i) || front.any (fun a => s.keepsBack a i)

/-- A command from the queue waits for another of its tick. -/
def waits (s : State) (i : Instr) : Bool := s.blocked s.held s.window i

/-- A command's turn: nothing is held, and nothing that acts before it is still to come in its tick. -/
def turn (s : State) (i : Instr) : Prop := s.held = [] ∧ s.waits i = false

/-- The first held command that waits no longer. -/
def nextHeld (s : State) : List Instr → List Instr → Option Instr
  | _, [] => none
  | front, i :: r => if s.blocked front (r ++ s.window) i then s.nextHeld (front ++ [i]) r else some i

end State
end Sys2Proof.Machine
end

