-- ==== Sys2Proof/Machine/PowerRows.lean ====
section
/-! DEFINITION. The effects of commands: clocks, power, start-up and the tick (R421 to R446, R128). -/
namespace Sys2Proof.Machine

/-- MOSC_DETECT (R424). -/
def effMoscDetect (count : Nat) (s : State) : State :=
  s.moscDetect count

/-- MOSC_LOST (R426). -/
def effMoscLost (s : State) : State :=
  s.moscLost

/-- MOSC_RETURN (R426). -/
def effMoscReturn (s : State) : State :=
  s.moscReturn

/-- ROOT_LOCK (R430). -/
def effRootLock (r : Fin 5) (s : State) : State :=
  s.rootLock r.val

/-- ROOT_LOCK_LOST (R430). -/
def effRootLockLost (r : Fin 5) (s : State) : State :=
  s.rootLockLost r.val

/-- FEED_BAD (R432). -/
def effFeedBad (b : Bool) (mv : Nat) (s : State) : State :=
  s.feedBad b mv

/-- FEED_GOOD (R432). -/
def effFeedGood (b : Bool) (mv : Nat) (s : State) : State :=
  s.feedGood b mv

/-- FEED_CHECK_START (R433). -/
def effFeedCheckStart (b : Bool) (s : State) : State :=
  s.feedCheckStart b

/-- FEED_CHECK_COMPLETE (R433). -/
def effFeedCheckComplete (min : Nat) (limit : Bool) (s : State) : State :=
  s.feedCheckComplete min limit

/-- POWER_ON (R438). -/
def effPowerOn (b : Bool) (mv : Nat) (s : State) : State :=
  s.powerOn b mv

/-- POWER_FAIL (R436). -/
def effPowerFail (vbat : Nat) (s : State) : State :=
  s.powerFail vbat

/-- VBAT_LOSS (R435). -/
def effVbatLoss (s : State) : State :=
  s.vbatLoss

/-- VBAT_APPLIED (R435). -/
def effVbatApplied (vbat : Nat) (s : State) : State :=
  s.vbatApplied vbat

/-- PIN_RESET (R438). -/
def effPinReset (s : State) : State :=
  s.pinReset

/-- RESET_N_RELEASE (R438). -/
def effResetNRelease (s : State) : State :=
  s.resetNRelease

/-- STAGE_RAILS_DONE (R440). -/
def effStageRailsDone (bootsel : Fin 4) (s : State) : State :=
  s.stageRails bootsel.val

/-- STAGE_ROOT_DONE (R440). -/
def effStageRootDone (how : SwitchEnd) (s : State) : State :=
  s.stageRoot how

/-- ROOT_STAGE_RETRY (R430). -/
def effRootStageRetry (s : State) : State :=
  s.rootStageRetry

/-- STAGE_FEEDCHK_DONE (R440). -/
def effStageFeedchkDone (s : State) : State :=
  s.stageFeedchk

/-- STAGE_VAULT_DONE (R440). -/
def effStageVaultDone (s : State) : State :=
  s.stageVault

/-- STAGE_DONE (R441). -/
def effStageDone (s : State) : State :=
  s.deviceDone

/-- COUNTER_ADVANCE (R128). -/
def effCounterAdvance (s : State) : State :=
  s.tickEnd

end Sys2Proof.Machine
end

