-- ==== Sys2Proof/Machine/QueueRows.lean ====
section
/-! DEFINITION. The effects of commands: the command queue, PCIe, WIN_MEM and the MSPI (R378 to R393, R439). -/
namespace Sys2Proof.Machine

/-- CMD_SUBMIT (R387). -/
def effCmdSubmit (p : HostPath) (v : Word) (s : State) : State :=
  s.writeCom p .cmdq CMDQ_SUBMIT v

/-- CMD_RELEASE (R387). -/
def effCmdRelease (p : HostPath) (v : Word) (s : State) : State :=
  s.writeCom p .cmdq CMDQ_RELEASE v

/-- CMD_START (R390). -/
def effCmdStart (slot : Fin 64) (s : State) : State :=
  s.cmdStart slot.val

/-- CMD_COMPLETE (R391). -/
def effCmdComplete (slot : Fin 64) (dmaFailed : Bool) (s : State) : State :=
  s.cmdComplete slot.val dmaFailed

/-- CMD_TIMEOUT (R391). -/
def effCmdTimeout (slot : Fin 64) (s : State) : State :=
  s.cmdTimeout slot.val

/-- CMD_SUSPEND (R391). -/
def effCmdSuspend (slot : Fin 64) (s : State) : State :=
  s.control 0x0A slot.val

/-- CMD_RESUME (R391). -/
def effCmdResume (slot : Fin 64) (s : State) : State :=
  s.control 0x0B slot.val

/-- CMD_CANCEL (R391). -/
def effCmdCancel (slot : Fin 64) (s : State) : State :=
  s.control 0x0C slot.val

/-- CMD_SELF_TEST (R433). -/
def effCmdSelfTest (slot : Fin 64) (s : State) : State :=
  s.selfTestCmd slot.val

/-- CMD_TALLY_EXPORT (R419). -/
def effCmdTallyExport (slot : Fin 64) (s : State) : State :=
  s.exportCmd slot.val

/-- PCIE_LINK_DOWN (R381). -/
def effPcieLinkDown (s : State) : State :=
  s.pcieDown

/-- PCIE_FLR (R381). -/
def effPcieFlr (s : State) : State :=
  s.flr

/-- PCIE_LINK_UP (R381). -/
def effPcieLinkUp (speed width : Fin 8) (s : State) : State :=
  s.pcieUp speed.val width.val

/-- WIN_MEM_WRITE (R380). -/
def effWinMemWrite (p : HostPath) (addr : Nat) (v : Word) (s : State) : State :=
  s.memWriteCmd p addr v

/-- MSPI_REGISTER_READ (R385). -/
def effMspiRegisterRead (bs : Bytes) (s : State) : State :=
  s.mspiReadReg bs

/-- MSPI_REGISTER_WRITE (R385). -/
def effMspiRegisterWrite (bs : Bytes) (s : State) : State :=
  s.mspiWriteReg bs

/-- MSPI_MEMORY_READ (R385). -/
def effMspiMemoryRead (bs : Bytes) (s : State) : State :=
  s.mspiReadMem bs

/-- MSPI_MEMORY_WRITE (R385). -/
def effMspiMemoryWrite (bs : Bytes) (s : State) : State :=
  s.mspiWriteMem bs

/-- MSPI_SCAN_ENTRY (R439). -/
def effMspiScanEntry (bs : Bytes) (s : State) : State :=
  s.mspiScan bs

/-- MSPI_BALL_DRIVE (R439). -/
def effMspiBallDrive (bs : Bytes) (s : State) : State :=
  s.mspiDrive bs

/-- MSPI_BALL_SENSE (R439). -/
def effMspiBallSense (bs : Bytes) (level : Bool) (s : State) : State :=
  s.mspiSense bs level

end Sys2Proof.Machine
end

