-- ==== Sys2Proof/Machine/SchedRows.lean ====
section
/-! DEFINITION. The effects of commands: policers, gates, sampling and host transmit rings (R234 to R254, R383). -/
namespace Sys2Proof.Machine

/-- POL_CMD_GO (R236). -/
def effPolCmdGo (p : HostPath) (c : ChanIx) (v : Word) (s : State) : State :=
  s.writeCh p c .sched SCHED_POL_CMD v

/-- GATE_LIST_BOUNDARY (R244). -/
def effGateListBoundary (c : ChanIx) (p : PortIx) (s : State) : State :=
  s.onCh c (fun ch => ch.gateBoundary p)

/-- GATE_SWAP (R247). -/
def effGateSwap (h : HostPath) (c : ChanIx) (p : PortIx) (v : Word) (s : State) : State :=
  s.writeCh h c .sched (SCHED_P_GCMD p.val) v

/-- GATE_CANCEL (R247). -/
def effGateCancel (h : HostPath) (c : ChanIx) (p : PortIx) (v : Word) (s : State) : State :=
  s.writeCh h c .sched (SCHED_P_GCMD p.val) v

/-- GATE_LIST_SWITCH (R247). -/
def effGateListSwitch (c : ChanIx) (p : PortIx) (s : State) : State :=
  s.onCh c (fun ch => ch.gateSwitch p)

/-- QUEUE_SAMPLE (R249). -/
def effQueueSample (c : ChanIx) (p : PortIx) (s : State) : State :=
  s.onCh c (fun ch => ch.samplePort p)

/-- HOST_TX_FRAME_TAKE (R383). -/
def effHostTxFrameTake (c : ChanIx) (p : PortIx) (s : State) : State :=
  s.htxTake c p

end Sys2Proof.Machine
end

