-- ==== Sys2Proof/Machine/ServiceRows.lean ====
section
/-! DEFINITION. The effects of commands: the authenticated time service (R199 to R233). -/
namespace Sys2Proof.Machine

/-- PTP_DELAY_REQ_RX (R210). -/
def effPtpDelayReqRx (c : ChanIx) (p : PortIx) (ps : Nat) (f : Int) (bs : Bytes) (s : State) : State :=
  s.onCh c (fun ch => ch.delayReqRx p ps f bs)

/-- PTP_PDELAY_REQ_RX (R210). -/
def effPtpPdelayReqRx (c : ChanIx) (p : PortIx) (ps : Nat) (f : Int) (bs : Bytes) (s : State) : State :=
  s.onCh c (fun ch => ch.pdelayReqRx p ps f bs)

/-- PTP_SYNC_RX (R189). -/
def effPtpSyncRx (c : ChanIx) (p : PortIx) (ps : Nat) (f : Int) (bs : Bytes) (s : State) : State :=
  s.onCh c (fun ch => ch.syncRx p ps f bs)

/-- PTP_FOLLOW_UP_RX (R191). -/
def effPtpFollowUpRx (c : ChanIx) (p : PortIx) (bs : Bytes) (s : State) : State :=
  s.onCh c (fun ch => ch.followUpRx p bs)

/-- PTP_DELAY_RESP_RX (R189). -/
def effPtpDelayRespRx (c : ChanIx) (p : PortIx) (bs : Bytes) (s : State) : State :=
  s.onCh c (fun ch => ch.delayRespRx p bs)

/-- PTP_PDELAY_RESP_RX (R189). -/
def effPtpPdelayRespRx (c : ChanIx) (p : PortIx) (ps : Nat) (f : Int) (bs : Bytes) (s : State) : State :=
  s.onCh c (fun ch => ch.pdelayRespRx p ps f bs)

/-- PTP_ANNOUNCE_RX (R191). -/
def effPtpAnnounceRx (c : ChanIx) (p : PortIx) (bs : Bytes) (s : State) : State :=
  s.onCh c (fun ch => ch.announceRx p bs)

/-- PTP_SIGNALING_RX (R207). -/
def effPtpSignalingRx (c : ChanIx) (p : PortIx) (bs : Bytes) (s : State) : State :=
  s.onCh c (fun ch => ch.signalingRx p bs)

/-- NTP_REQUEST_RX (R210). -/
def effNtpRequestRx (c : ChanIx) (p : PortIx) (ps : Nat) (f : Int) (bs : Bytes) (s : State) : State :=
  s.onCh c (fun ch => ch.ntpRx p ps f bs)

/-- NTP_MAC_REQUEST_RX (R212). -/
def effNtpMacRequestRx (c : ChanIx) (p : PortIx) (ps : Nat) (f : Int) (bs : Bytes) (s : State) : State :=
  s.onCh c (fun ch => ch.ntpMacRx p ps f bs)

/-- NTS_REQUEST_RX (R217). -/
def effNtsRequestRx (c : ChanIx) (p : PortIx) (ps : Nat) (f : Int) (bs : Bytes) (s : State) : State :=
  s.onCh c (fun ch => ch.ntsRx p ps f bs)

/-- EXCEPTION_FRAME_RX (R202). -/
def effExceptionFrameRx (c : ChanIx) (p : PortIx) (bs : Bytes) (s : State) : State :=
  s.onCh c (fun ch => ch.exceptionRx p bs)

/-- UNSUPPORTED_FRAME_RX (R200). -/
def effUnsupportedFrameRx (c : ChanIx) (p : PortIx) (bs : Bytes) (s : State) : State :=
  s.onCh c (fun ch => ch.unsupRx p bs)

/-- NOT_MINE_FRAME_RX (R199). -/
def effNotMineFrameRx (c : ChanIx) (p : PortIx) (bs : Bytes) (s : State) : State :=
  s.onCh c (fun ch => ch.notMineRx p bs)

/-- TRANSIT_FRAME_RX (R187). -/
def effTransitFrameRx (c : ChanIx) (p : PortIx) (ps : Nat) (f : Int) (bs : Bytes) (s : State) : State :=
  s.onCh c (fun ch => ch.transitRx p ps f bs)

/-- EGRESS_COMMIT (R239). -/
def effEgressCommit (c : ChanIx) (p : PortIx) (ps : Nat) (f : Int) (s : State) : State :=
  s.onCh c (fun ch => ch.egressCommit p ps f)

/-- UNICAST_DUE_MESSAGE (R208). -/
def effUnicastDueMessage (c : ChanIx) (i : Nat) (ann : Bool) (s : State) : State :=
  s.onCh c (fun ch => ch.unicastDue i ann)

/-- MULTICAST_DUE_MESSAGE (R208). -/
def effMulticastDueMessage (c : ChanIx) (p : PortIx) (ann : Bool) (s : State) : State :=
  s.onCh c (fun ch => ch.multicastDue p ann)

/-- PDELAY_REQ_DUE (R203). -/
def effPdelayReqDue (c : ChanIx) (p : PortIx) (s : State) : State :=
  s.onCh c (fun ch => ch.pdelayReqSend p)

/-- LANE_DELAY_REQ_DUE (R209). -/
def effLaneDelayReqDue (c : ChanIx) (p : PortIx) (s : State) : State :=
  s.onCh c (fun ch => ch.laneDelayReq p)

/-- LANE_CLIENT_NEGOTIATE (R314). -/
def effLaneClientNegotiate (c : ChanIx) (p : PortIx) (s : State) : State :=
  s.onCh c (fun ch => ch.laneNegotiate p)

/-- GRANT_EXPIRY (R207). -/
def effGrantExpiry (c : ChanIx) (i : Nat) (s : State) : State :=
  s.onCh c (fun ch => ch.grantExpiry i)

/-- EXCEPTION_CORE_RESPONSE (R202). -/
def effExceptionCoreResponse (c : ChanIx) (s : State) : State :=
  s.onCh c (fun ch => ch.coreResponse)

/-- CT_REVOKE (R206). -/
def effCtRevoke (p : HostPath) (c : ChanIx) (v : Word) (s : State) : State :=
  s.writeCh p c .sealb SEAL_CT_CMD v

/-- CMD_COOKIE_MINT (R221). -/
def effCmdCookieMint (slot : Fin 64) (req : Option Bytes) (s : State) : State :=
  s.cookieMint slot.val req

end Sys2Proof.Machine
end

