-- ==== Sys2Proof/Machine/ServoRows.lean ====
section
/-! DEFINITION. The effects of commands: servos, holdover, steps and vintages (R121 to R147, R270). -/
namespace Sys2Proof.Machine

/-- SERVO_A_APPLY (R131). -/
def effServoAApply (c : ChanIx) (s : State) : State :=
  s.onCh c (fun ch => ch.servoA)

/-- SERVO_B_APPLY (R133). -/
def effServoBApply (c : ChanIx) (s : State) : State :=
  s.onCh c (fun ch => ch.servoB)

/-- CHANNEL_ACQUIRE_START (R134). -/
def effChannelAcquireStart (c : ChanIx) (s : State) : State :=
  s.onCh c (fun ch => ch.acquireStart)

/-- HOLDOVER_ENTRY (R135). -/
def effHoldoverEntry (c : ChanIx) (s : State) : State :=
  s.onCh c (fun ch => ch.holdoverEntry)

/-- HOLDOVER_LIMIT_ENTRY (R134). -/
def effHoldoverLimitEntry (c : ChanIx) (s : State) : State :=
  s.onCh c (fun ch => ch.limitEntry)

/-- HO_AGING_INCREMENT (R135). -/
def effHoAgingIncrement (c : ChanIx) (s : State) : State :=
  s.onCh c (fun ch => ch.hoAging)

/-- CMD_OSC_CHARACTERIZATION (R139). -/
def effCmdOscCharacterization (slot : Fin 64) (s : State) : State :=
  s.charCmd slot.val

/-- CHAR_SAMPLE_INSTANT (R139). -/
def effCharSampleInstant (c : ChanIx) (s : State) : State :=
  (s.onCh c (fun ch => ch.charSample)).chanProgress c

/-- STEP_GO (R140). -/
def effStepGo (p : HostPath) (c : ChanIx) (v : Word) (s : State) : State :=
  s.writeCh p c .dpll DPLL_STEP_CMD v

/-- STEP_ABS_APPLY (R140). -/
def effStepAbsApply (c : ChanIx) (s : State) : State :=
  s.onCh c (fun ch => ch.stepAbs)

/-- STEP_ABORT (R140). -/
def effStepAbort (p : HostPath) (c : ChanIx) (v : Word) (s : State) : State :=
  s.writeCh p c .dpll DPLL_STEP_CMD v

/-- VINTAGE_WRITE (R271). It acts when VINT_PER seconds of the channel have passed. -/
def effVintageWrite (c : ChanIx) (s : State) : State :=
  if s.vintageDue c then s.writeVintage c else s

end Sys2Proof.Machine
end

