-- ==== Sys2Proof/Machine/SynthRows.lean ====
section
/-! DEFINITION. The effects of commands: synthesizers, outputs, pulses and realignment (R148 to R170). -/
namespace Sys2Proof.Machine

/-- SYN_COMMIT_BOUNDARY (R156). -/
def effSynCommitBoundary (c : ChanIx) (k : Fin 2) (s : State) : State :=
  s.onCh c (fun ch => ch.synBoundary k.val)

/-- PULSE_COMMIT_BOUNDARY (R164). -/
def effPulseCommitBoundary (c : ChanIx) (s : State) : State :=
  s.onCh c (fun ch => ch.pulseBoundary)

/-- SYN_LOCK_DECLARED (R155). -/
def effSynLockDeclared (c : ChanIx) (k : Fin 2) (e : LockSense) (s : State) : State :=
  s.onCh c (fun ch => ch.lockDeclared k.val e)

/-- SYN_LOCK_LOST (R155). -/
def effSynLockLost (c : ChanIx) (k : Fin 2) (e : LockSense) (s : State) : State :=
  s.onCh c (fun ch => ch.lockLost k.val e)

/-- SYN_REFERENCE_LOSS (R155). -/
def effSynReferenceLoss (c : ChanIx) (k : Fin 2) (s : State) : State :=
  s.onCh c (fun ch => ch.refLoss k.val)

/-- SYN_NOLOCK (R155). -/
def effSynNolock (c : ChanIx) (k : Fin 2) (s : State) : State :=
  s.synNoLock c k

/-- SYN_COAST_REFERENCE_RETURN (R155). -/
def effSynCoastReferenceReturn (c : ChanIx) (k : Fin 2) (s : State) : State :=
  s.onCh c (fun ch => ch.refReturn k.val)

/-- PULSE_EDGE (R163). -/
def effPulseEdge (c : ChanIx) (j : Fin 2) (s : State) : State :=
  s.onCh c (fun ch => ch.pulseEdge j)

/-- REALIGN_GO (R165). -/
def effRealignGo (p : HostPath) (c : ChanIx) (v : Word) (s : State) : State :=
  s.writeCh p c .syn SYN_RA_CTL v

/-- REALIGN_JUMP_SWITCH (R165). -/
def effRealignJumpSwitch (c : ChanIx) (s : State) : State :=
  s.onCh c (fun ch => ch.jumpSwitch)

/-- REALIGN_SLEW_DONE (R165). -/
def effRealignSlewDone (c : ChanIx) (s : State) : State :=
  s.onCh c (fun ch => ch.slewDone)

/-- TOD_SENTENCE_SEND (R167). -/
def effTodSentenceSend (c : ChanIx) (s : State) : State :=
  s.onCh c (fun ch => ch.todSend)

end Sys2Proof.Machine
end

