-- ==== Sys2Proof/Machine/TwinRows.lean ====
section
/-! DEFINITION. The effects of commands: the twin: claims, heartbeats, streams, racking, drills (R255 to R284). -/
namespace Sys2Proof.Machine

/-- CLAIM_ROUND_START (R258). -/
def effClaimRoundStart (fell : Bool) (s : State) : State :=
  s.roundStart fell

/-- CLAIM_ROUND_END (R259). -/
def effClaimRoundEnd (w : Word) (stuck noStart : Bool) (s : State) : State :=
  s.roundEnd w.toNat stuck noStart

/-- OUTPUT_CONTENTION (R262). -/
def effOutputContention (c : ChanIx) (s : State) : State :=
  s.contention c

/-- HEARTBEAT_SEND (R263). -/
def effHeartbeatSend (ps0 ps1 : Nat) (s : State) : State :=
  s.hbSend ps0 ps1

/-- HB_FRAME_RX (R263). -/
def effHbFrameRx (lane : Fin 2) (bs : Bytes) (ps : Nat) (s : State) : State :=
  s.hbFrame lane bs ps

/-- HB_WORD_RX (R264). -/
def effHbWordRx (w : Word) (s : State) : State :=
  s.hbWordRx w

/-- HEARTBEAT_MISS_EXPIRY (R265). -/
def effHeartbeatMissExpiry (pathB : Bool) (s : State) : State :=
  s.missExpire pathB

/-- BOOT_WAIT_EXPIRY (R266). -/
def effBootWaitExpiry (s : State) : State :=
  s.bootExpire

/-- TWIN_FENCE (R266). -/
def effTwinFence (p : HostPath) (v : Word) (s : State) : State :=
  s.writeCom p .twin TWIN_CTL v

/-- TWIN_UNFENCE (R266). -/
def effTwinUnfence (p : HostPath) (v : Word) (s : State) : State :=
  s.writeCom p .twin TWIN_CTL v

/-- RACK_CHANNEL_COMPLETE (R272). -/
def effRackChannelComplete (c : ChanIx) (s : State) : State :=
  s.rackChannel c

/-- CLAIM_CONDITION_MET (R275). -/
def effClaimConditionMet (s : State) : State :=
  s.claimMet false

/-- TWIN_LANE_SYNC (R280). -/
def effTwinLaneSync (lane : Fin 2) (up : Bool) (s : State) : State :=
  s.twinLaneSync lane up

/-- TWIN_TIME_FRAME_SEND (R268). -/
def effTwinTimeFrameSend (c : ChanIx) (ps : Nat) (s : State) : State :=
  s.timeSend c ps

/-- TWIN_TIME_FRAME_RX (R279). -/
def effTwinTimeFrameRx (lane : Fin 2) (bs : Bytes) (ps : Nat) (s : State) : State :=
  s.timeFrame lane bs ps

/-- JOUR_FRAME_RX (R269). -/
def effJourFrameRx (lane : Fin 2) (f : JourFrame) (s : State) : State :=
  s.jourFrame lane f

/-- CLIENT_FRAME_RX (R229). -/
def effClientFrameRx (lane : Fin 2) (bs : Bytes) (s : State) : State :=
  s.clientFrame lane bs

/-- VINT_FRAME_RX (R269). -/
def effVintFrameRx (lane : Fin 2) (f : VintFrame) (s : State) : State :=
  s.vintFrame lane f

/-- RESYNC_FRAME_RX (R268). -/
def effResyncFrameRx (lane : Fin 2) (bs : Bytes) (s : State) : State :=
  s.resyncFrame lane bs

/-- DRILL_FRAME_RX (R266). -/
def effDrillFrameRx (lane : Fin 2) (bs : Bytes) (s : State) : State :=
  s.drillFrame lane bs

/-- CMD_RACKING_DRILL (R278). -/
def effCmdRackingDrill (slot : Fin 64) (s : State) : State :=
  s.drillCmd slot.val

/-- DRILL_REQUEST_SEND (R278). -/
def effDrillRequestSend (s : State) : State :=
  s.drillSend

/-- DRILL_CLAIM_INSTANT (R278). -/
def effDrillClaimInstant (s : State) : State :=
  s.claimMet true

/-- DRILL_TIMEOUT (R278). -/
def effDrillTimeout (s : State) : State :=
  s.drillTimeout

end Sys2Proof.Machine
end

