-- ==== Sys2Proof/Machine/Effect.lean ====
section
/-! DEFINITION. What a command does when its turn comes, and the commands of one tick carried out in their order. -/
namespace Sys2Proof.Machine

/-- The commands that act in scan mode too: the MSPI's register read, ball drives and senses, and what the supplies, the reset pin and
the tamper inputs do (R351, R435, R438, R439). -/
def actsInScan : Instr → Bool
  | .mspiRegisterRead _ | .mspiBallDrive _ | .mspiBallSense _ _ | .tamperSample _ | .powerOn _ _ | .powerFail _ | .vbatLoss
  | .vbatApplied _ | .pinReset | .resetNRelease => true
  | _ => false

/-- The commands that may bring CLKGEN's settings into use, or power a root up that runs on them. -/
def mayRate : Instr → Bool
  | .registerWrite _ _ _ | .blockLock _ _ _ | .clkgenCommit _ _ | .mspiRegisterWrite _ | .commonImageApply | .channelPowerUpDone _ => true
  | _ => false

namespace State

/-- The own effect of a command. -/
def effect (i : Instr) (s : State) : State :=
  match i with
  | .registerWrite p addr v => Sys2Proof.Machine.effRegisterWrite p addr v s
  | .multiwordReadLatch p addr => Sys2Proof.Machine.effMultiwordReadLatch p addr s
  | .bookWindowStart => Sys2Proof.Machine.effBookWindowStart s
  | .bookRdGo p v => Sys2Proof.Machine.effBookRdGo p v s
  | .mirrorEnable p v => Sys2Proof.Machine.effMirrorEnable p v s
  | .refCommit p c v => Sys2Proof.Machine.effRefCommit p c v s
  | .dpllCommit p c v => Sys2Proof.Machine.effDpllCommit p c v s
  | .synCommit p c v => Sys2Proof.Machine.effSynCommit p c v s
  | .gnssCommit p c v => Sys2Proof.Machine.effGnssCommit p c v s
  | .portCommit p c v => Sys2Proof.Machine.effPortCommit p c v s
  | .schedCommit p c v => Sys2Proof.Machine.effSchedCommit p c v s
  | .sealCommit p c v => Sys2Proof.Machine.effSealCommit p c v s
  | .twinCommit p v => Sys2Proof.Machine.effTwinCommit p v s
  | .benchCommit p v => Sys2Proof.Machine.effBenchCommit p v s
  | .bCtlCommit p c v => Sys2Proof.Machine.effBCtlCommit p c v s
  | .clkgenCommit p v => Sys2Proof.Machine.effClkgenCommit p v s
  | .blockLock p b v => Sys2Proof.Machine.effBlockLock p b v s
  | .refinEdge c n ps => Sys2Proof.Machine.effRefinEdge c n ps s
  | .todSentenceRx c k bs ago => Sys2Proof.Machine.effTodSentenceRx c k bs ago s
  | .todSentenceWindowEnd c n => Sys2Proof.Machine.effTodSentenceWindowEnd c n s
  | .freqRecordBoundary c n freq off => Sys2Proof.Machine.effFreqRecordBoundary c n freq off s
  | .laneMissTimerExpiry c n => Sys2Proof.Machine.effLaneMissTimerExpiry c n s
  | .qualWindowExpiry c n => Sys2Proof.Machine.effQualWindowExpiry c n s
  | .wtrExpiry c n => Sys2Proof.Machine.effWtrExpiry c n s
  | .dqHoldExpiry c n => Sys2Proof.Machine.effDqHoldExpiry c n s
  | .laneForce p c n v => Sys2Proof.Machine.effLaneForce p c n v s
  | .laneUnforce p c n v => Sys2Proof.Machine.effLaneUnforce p c n v s
  | .laneRequal p c n v => Sys2Proof.Machine.effLaneRequal p c n v s
  | .laneClrStep p c n v => Sys2Proof.Machine.effLaneClrStep p c n v s
  | .selApprove p c v => Sys2Proof.Machine.effSelApprove p c v s
  | .selDeny p c v => Sys2Proof.Machine.effSelDeny p c v s
  | .utcAnnouncement c n a => Sys2Proof.Machine.effUtcAnnouncement c n a s
  | .leapEntWrite p c k v => Sys2Proof.Machine.effLeapEntWrite p c k v s
  | .sampleLinkFrame c comma bs => Sys2Proof.Machine.effSampleLinkFrame c comma bs s
  | .backChannelMessage c => Sys2Proof.Machine.effBackChannelMessage c s
  | .backChannelGo p c v => Sys2Proof.Machine.effBackChannelGo p c v s
  | .backChannelTimeout c => Sys2Proof.Machine.effBackChannelTimeout c s
  | .trkAssignment c i0 gal sv => Sys2Proof.Machine.effTrkAssignment c i0 gal sv s
  | .trkDetection c i0 => Sys2Proof.Machine.effTrkDetection c i0 s
  | .trkWindowExhausted c i0 => Sys2Proof.Machine.effTrkWindowExhausted c i0 s
  | .trkReassignHoldoffEnd c => Sys2Proof.Machine.effTrkReassignHoldoffEnd c s
  | .trkLock c i0 => Sys2Proof.Machine.effTrkLock c i0 s
  | .trkPullInTimeout c i0 => Sys2Proof.Machine.effTrkPullInTimeout c i0 s
  | .trkLockLost c i0 => Sys2Proof.Machine.effTrkLockLost c i0 s
  | .trkLostTimeout c i0 => Sys2Proof.Machine.effTrkLostTimeout c i0 s
  | .sidePeakGuard c i0 late => Sys2Proof.Machine.effSidePeakGuard c i0 late s
  | .notchLock c k lines => Sys2Proof.Machine.effNotchLock c k lines s
  | .notchRelease c v => Sys2Proof.Machine.effNotchRelease c v s
  | .jniUpdate c idle pq => Sys2Proof.Machine.effJniUpdate c idle pq s
  | .jamFloorCapture p c v => Sys2Proof.Machine.effJamFloorCapture p c v s
  | .jamFloorCaptureEnd c idle => Sys2Proof.Machine.effJamFloorCaptureEnd c idle s
  | .posSet p c v => Sys2Proof.Machine.effPosSet p c v s
  | .posClr p c v => Sys2Proof.Machine.effPosClr p c v s
  | .surveyFix c x y z => Sys2Proof.Machine.effSurveyFix c x y z s
  | .gnssEpochSample c ms => Sys2Proof.Machine.effGnssEpochSample c ms s
  | .gnssL8Record c => Sys2Proof.Machine.effGnssL8Record c s
  | .snapGo p c v => Sys2Proof.Machine.effSnapGo p c v s
  | .snapCaptureStart c ps => Sys2Proof.Machine.effSnapCaptureStart c ps s
  | .snapCaptureComplete c => Sys2Proof.Machine.effSnapCaptureComplete c s
  | .cmdSnapshotProcessing slot ms => Sys2Proof.Machine.effCmdSnapshotProcessing slot ms s
  | .cmdGnssSurvey slot => Sys2Proof.Machine.effCmdGnssSurvey slot s
  | .servoAApply c => Sys2Proof.Machine.effServoAApply c s
  | .servoBApply c => Sys2Proof.Machine.effServoBApply c s
  | .channelAcquireStart c => Sys2Proof.Machine.effChannelAcquireStart c s
  | .holdoverEntry c => Sys2Proof.Machine.effHoldoverEntry c s
  | .holdoverLimitEntry c => Sys2Proof.Machine.effHoldoverLimitEntry c s
  | .hoAgingIncrement c => Sys2Proof.Machine.effHoAgingIncrement c s
  | .cmdOscCharacterization slot => Sys2Proof.Machine.effCmdOscCharacterization slot s
  | .charSampleInstant c => Sys2Proof.Machine.effCharSampleInstant c s
  | .stepGo p c v => Sys2Proof.Machine.effStepGo p c v s
  | .stepAbsApply c => Sys2Proof.Machine.effStepAbsApply c s
  | .stepAbort p c v => Sys2Proof.Machine.effStepAbort p c v s
  | .vintageWrite c => Sys2Proof.Machine.effVintageWrite c s
  | .synCommitBoundary c k => Sys2Proof.Machine.effSynCommitBoundary c k s
  | .pulseCommitBoundary c => Sys2Proof.Machine.effPulseCommitBoundary c s
  | .synLockDeclared c k e => Sys2Proof.Machine.effSynLockDeclared c k e s
  | .synLockLost c k e => Sys2Proof.Machine.effSynLockLost c k e s
  | .synReferenceLoss c k => Sys2Proof.Machine.effSynReferenceLoss c k s
  | .synNolock c k => Sys2Proof.Machine.effSynNolock c k s
  | .synCoastReferenceReturn c k => Sys2Proof.Machine.effSynCoastReferenceReturn c k s
  | .pulseEdge c j => Sys2Proof.Machine.effPulseEdge c j s
  | .realignGo p c v => Sys2Proof.Machine.effRealignGo p c v s
  | .realignJumpSwitch c => Sys2Proof.Machine.effRealignJumpSwitch c s
  | .realignSlewDone c => Sys2Proof.Machine.effRealignSlewDone c s
  | .todSentenceSend c => Sys2Proof.Machine.effTodSentenceSend c s
  | .linkAnComplete c p peer rs br => Sys2Proof.Machine.effLinkAnComplete c p peer rs br s
  | .linkTrainingComplete c p => Sys2Proof.Machine.effLinkTrainingComplete c p s
  | .linkTrainingTimeout c p => Sys2Proof.Machine.effLinkTrainingTimeout c p s
  | .linkAlignLock c p vI vE => Sys2Proof.Machine.effLinkAlignLock c p vI vE s
  | .linkAlignTimeout c p => Sys2Proof.Machine.effLinkAlignTimeout c p s
  | .linkLoss c p => Sys2Proof.Machine.effLinkLoss c p s
  | .ptpDelayReqRx c p ps f bs => Sys2Proof.Machine.effPtpDelayReqRx c p ps f bs s
  | .ptpPdelayReqRx c p ps f bs => Sys2Proof.Machine.effPtpPdelayReqRx c p ps f bs s
  | .ptpSyncRx c p ps f bs => Sys2Proof.Machine.effPtpSyncRx c p ps f bs s
  | .ptpFollowUpRx c p bs => Sys2Proof.Machine.effPtpFollowUpRx c p bs s
  | .ptpDelayRespRx c p bs => Sys2Proof.Machine.effPtpDelayRespRx c p bs s
  | .ptpPdelayRespRx c p ps f bs => Sys2Proof.Machine.effPtpPdelayRespRx c p ps f bs s
  | .ptpAnnounceRx c p bs => Sys2Proof.Machine.effPtpAnnounceRx c p bs s
  | .ptpSignalingRx c p bs => Sys2Proof.Machine.effPtpSignalingRx c p bs s
  | .ntpRequestRx c p ps f bs => Sys2Proof.Machine.effNtpRequestRx c p ps f bs s
  | .ntpMacRequestRx c p ps f bs => Sys2Proof.Machine.effNtpMacRequestRx c p ps f bs s
  | .ntsRequestRx c p ps f bs => Sys2Proof.Machine.effNtsRequestRx c p ps f bs s
  | .exceptionFrameRx c p bs => Sys2Proof.Machine.effExceptionFrameRx c p bs s
  | .unsupportedFrameRx c p bs => Sys2Proof.Machine.effUnsupportedFrameRx c p bs s
  | .notMineFrameRx c p bs => Sys2Proof.Machine.effNotMineFrameRx c p bs s
  | .transitFrameRx c p ps f bs => Sys2Proof.Machine.effTransitFrameRx c p ps f bs s
  | .pauseFrameRx c p len => Sys2Proof.Machine.effPauseFrameRx c p len s
  | .oversizeFrameRx c p len => Sys2Proof.Machine.effOversizeFrameRx c p len s
  | .egressCommit c p ps f => Sys2Proof.Machine.effEgressCommit c p ps f s
  | .synceRecord c p freq off => Sys2Proof.Machine.effSynceRecord c p freq off s
  | .esmcPduRx c p ql len => Sys2Proof.Machine.effEsmcPduRx c p ql len s
  | .esmcQlLostExpiry c p => Sys2Proof.Machine.effEsmcQlLostExpiry c p s
  | .esmcInfoPduSend c p => Sys2Proof.Machine.effEsmcInfoPduSend c p s
  | .unicastDueMessage c i0 ann => Sys2Proof.Machine.effUnicastDueMessage c i0 ann s
  | .multicastDueMessage c p ann => Sys2Proof.Machine.effMulticastDueMessage c p ann s
  | .pdelayReqDue c p => Sys2Proof.Machine.effPdelayReqDue c p s
  | .laneDelayReqDue c p => Sys2Proof.Machine.effLaneDelayReqDue c p s
  | .laneClientNegotiate c p => Sys2Proof.Machine.effLaneClientNegotiate c p s
  | .grantExpiry c i0 => Sys2Proof.Machine.effGrantExpiry c i0 s
  | .exceptionCoreResponse c => Sys2Proof.Machine.effExceptionCoreResponse c s
  | .ctRevoke p c v => Sys2Proof.Machine.effCtRevoke p c v s
  | .cmdCookieMint slot req => Sys2Proof.Machine.effCmdCookieMint slot req s
  | .polCmdGo p c v => Sys2Proof.Machine.effPolCmdGo p c v s
  | .gateListBoundary c p => Sys2Proof.Machine.effGateListBoundary c p s
  | .gateSwap h c p v => Sys2Proof.Machine.effGateSwap h c p v s
  | .gateCancel h c p v => Sys2Proof.Machine.effGateCancel h c p v s
  | .gateListSwitch c p => Sys2Proof.Machine.effGateListSwitch c p s
  | .queueSample c p => Sys2Proof.Machine.effQueueSample c p s
  | .hostTxFrameTake c p => Sys2Proof.Machine.effHostTxFrameTake c p s
  | .claimRoundStart fell => Sys2Proof.Machine.effClaimRoundStart fell s
  | .claimRoundEnd w stuck noStart => Sys2Proof.Machine.effClaimRoundEnd w stuck noStart s
  | .outputContention c => Sys2Proof.Machine.effOutputContention c s
  | .heartbeatSend ps0 ps1 => Sys2Proof.Machine.effHeartbeatSend ps0 ps1 s
  | .hbFrameRx lane bs ps => Sys2Proof.Machine.effHbFrameRx lane bs ps s
  | .hbWordRx w => Sys2Proof.Machine.effHbWordRx w s
  | .heartbeatMissExpiry pathB => Sys2Proof.Machine.effHeartbeatMissExpiry pathB s
  | .bootWaitExpiry => Sys2Proof.Machine.effBootWaitExpiry s
  | .twinFence p v => Sys2Proof.Machine.effTwinFence p v s
  | .twinUnfence p v => Sys2Proof.Machine.effTwinUnfence p v s
  | .rackChannelComplete c => Sys2Proof.Machine.effRackChannelComplete c s
  | .claimConditionMet => Sys2Proof.Machine.effClaimConditionMet s
  | .twinLaneSync lane up => Sys2Proof.Machine.effTwinLaneSync lane up s
  | .twinTimeFrameSend c ps => Sys2Proof.Machine.effTwinTimeFrameSend c ps s
  | .twinTimeFrameRx lane bs ps => Sys2Proof.Machine.effTwinTimeFrameRx lane bs ps s
  | .jourFrameRx lane f => Sys2Proof.Machine.effJourFrameRx lane f s
  | .clientFrameRx lane bs => Sys2Proof.Machine.effClientFrameRx lane bs s
  | .vintFrameRx lane f => Sys2Proof.Machine.effVintFrameRx lane f s
  | .resyncFrameRx lane bs => Sys2Proof.Machine.effResyncFrameRx lane bs s
  | .drillFrameRx lane bs => Sys2Proof.Machine.effDrillFrameRx lane bs s
  | .cmdRackingDrill slot => Sys2Proof.Machine.effCmdRackingDrill slot s
  | .drillRequestSend => Sys2Proof.Machine.effDrillRequestSend s
  | .drillClaimInstant => Sys2Proof.Machine.effDrillClaimInstant s
  | .drillTimeout => Sys2Proof.Machine.effDrillTimeout s
  | .benchLinkSync c x => Sys2Proof.Machine.effBenchLinkSync c x s
  | .benchHelloSend c x ps => Sys2Proof.Machine.effBenchHelloSend c x ps s
  | .benchHelloRx c x bs ps => Sys2Proof.Machine.effBenchHelloRx c x bs ps s
  | .benchHelloTimeout c x lost => Sys2Proof.Machine.effBenchHelloTimeout c x lost s
  | .lsaSend => Sys2Proof.Machine.effLsaSend s
  | .lsaRx c x bs => Sys2Proof.Machine.effLsaRx c x bs s
  | .lsaHoldExpiry devid => Sys2Proof.Machine.effLsaHoldExpiry devid s
  | .routeComputation => Sys2Proof.Machine.effRouteComputation s
  | .benchTimeSend c ps0 ps1 => Sys2Proof.Machine.effBenchTimeSend c ps0 ps1 s
  | .benchTimeRx c x bs ps residence => Sys2Proof.Machine.effBenchTimeRx c x bs ps residence s
  | .peerSlotExpiry c x i0 => Sys2Proof.Machine.effPeerSlotExpiry c x i0 s
  | .ensembleEvaluation c x => Sys2Proof.Machine.effEnsembleEvaluation c x s
  | .benchCalGo p v => Sys2Proof.Machine.effBenchCalGo p v s
  | .benchCalDone ab ba => Sys2Proof.Machine.effBenchCalDone ab ba s
  | .cmdImageLoadStage slot data => Sys2Proof.Machine.effCmdImageLoadStage slot data s
  | .cmdImageLoadRun slot data => Sys2Proof.Machine.effCmdImageLoadRun slot data s
  | .cmdImageLoadDevice slot images => Sys2Proof.Machine.effCmdImageLoadDevice slot images s
  | .imageStreamWrite p v => Sys2Proof.Machine.effImageStreamWrite p v s
  | .reconfigEntry c => Sys2Proof.Machine.effReconfigEntry c s
  | .reconfigApplyComplete c => Sys2Proof.Machine.effReconfigApplyComplete c s
  | .commonImageApply => Sys2Proof.Machine.effCommonImageApply s
  | .channelGate p c v => Sys2Proof.Machine.effChannelGate p c v s
  | .channelUngate p c v => Sys2Proof.Machine.effChannelUngate p c v s
  | .channelReset p c v => Sys2Proof.Machine.effChannelReset p c v s
  | .channelPowerDownDone c => Sys2Proof.Machine.effChannelPowerDownDone c s
  | .channelPowerUpDone c => Sys2Proof.Machine.effChannelPowerUpDone c s
  | .kumInstall p v => Sys2Proof.Machine.effKumInstall p v s
  | .kumReplace p v => Sys2Proof.Machine.effKumReplace p v s
  | .kumInvalidate p v => Sys2Proof.Machine.effKumInvalidate p v s
  | .kumRecover p v => Sys2Proof.Machine.effKumRecover p v s
  | .kumTcfg p v => Sys2Proof.Machine.effKumTcfg p v s
  | .kumCommitPoint written => Sys2Proof.Machine.effKumCommitPoint written s
  | .attestationQuote p v => Sys2Proof.Machine.effAttestationQuote p v s
  | .attestationQuoteDone => Sys2Proof.Machine.effAttestationQuoteDone s
  | .cmdKeyBatch slot kums => Sys2Proof.Machine.effCmdKeyBatch slot kums s
  | .tamperSample t => Sys2Proof.Machine.effTamperSample t s
  | .faultDetection n => Sys2Proof.Machine.effFaultDetection n s
  | .safeEnter p v => Sys2Proof.Machine.effSafeEnter p v s
  | .safeExit p v => Sys2Proof.Machine.effSafeExit p v s
  | .injectionGo p v => Sys2Proof.Machine.effInjectionGo p v s
  | .injectedDetection => Sys2Proof.Machine.effInjectedDetection s
  | .injectionNoCheckTimeout => Sys2Proof.Machine.effInjectionNoCheckTimeout s
  | .clkGateForce c blk => Sys2Proof.Machine.effClkGateForce c blk s
  | .clkSwitchComplete c blk how => Sys2Proof.Machine.effClkSwitchComplete c blk how s
  | .cmdSubmit p v => Sys2Proof.Machine.effCmdSubmit p v s
  | .cmdRelease p v => Sys2Proof.Machine.effCmdRelease p v s
  | .cmdStart slot => Sys2Proof.Machine.effCmdStart slot s
  | .cmdComplete slot dmaFailed => Sys2Proof.Machine.effCmdComplete slot dmaFailed s
  | .cmdTimeout slot => Sys2Proof.Machine.effCmdTimeout slot s
  | .cmdSuspend slot => Sys2Proof.Machine.effCmdSuspend slot s
  | .cmdResume slot => Sys2Proof.Machine.effCmdResume slot s
  | .cmdCancel slot => Sys2Proof.Machine.effCmdCancel slot s
  | .cmdSelfTest slot => Sys2Proof.Machine.effCmdSelfTest slot s
  | .cmdTallyExport slot => Sys2Proof.Machine.effCmdTallyExport slot s
  | .pcieLinkDown => Sys2Proof.Machine.effPcieLinkDown s
  | .pcieFlr => Sys2Proof.Machine.effPcieFlr s
  | .winMemWrite p addr v => Sys2Proof.Machine.effWinMemWrite p addr v s
  | .mspiRegisterRead bs => Sys2Proof.Machine.effMspiRegisterRead bs s
  | .mspiRegisterWrite bs => Sys2Proof.Machine.effMspiRegisterWrite bs s
  | .mspiMemoryRead bs => Sys2Proof.Machine.effMspiMemoryRead bs s
  | .mspiMemoryWrite bs => Sys2Proof.Machine.effMspiMemoryWrite bs s
  | .mspiScanEntry bs => Sys2Proof.Machine.effMspiScanEntry bs s
  | .mspiBallDrive bs => Sys2Proof.Machine.effMspiBallDrive bs s
  | .mspiBallSense bs level => Sys2Proof.Machine.effMspiBallSense bs level s
  | .pmuTdSnap p c v => Sys2Proof.Machine.effPmuTdSnap p c v s
  | .pmuCounterWrap c smp => Sys2Proof.Machine.effPmuCounterWrap c smp s
  | .bwWindowEnd c => Sys2Proof.Machine.effBwWindowEnd c s
  | .bwCfgWrite p c v => Sys2Proof.Machine.effBwCfgWrite p c v s
  | .pkClrWrite h c p v => Sys2Proof.Machine.effPkClrWrite h c p v s
  | .tallyUpdateStart => Sys2Proof.Machine.effTallyUpdateStart s
  | .tallyUpdNow p v => Sys2Proof.Machine.effTallyUpdNow p v s
  | .tallyUpdateCommit => Sys2Proof.Machine.effTallyUpdateCommit s
  | .moscDetect count => Sys2Proof.Machine.effMoscDetect count s
  | .moscLost => Sys2Proof.Machine.effMoscLost s
  | .moscReturn => Sys2Proof.Machine.effMoscReturn s
  | .rootLock r => Sys2Proof.Machine.effRootLock r s
  | .rootLockLost r => Sys2Proof.Machine.effRootLockLost r s
  | .feedBad b mv => Sys2Proof.Machine.effFeedBad b mv s
  | .feedGood b mv => Sys2Proof.Machine.effFeedGood b mv s
  | .feedCheckStart b => Sys2Proof.Machine.effFeedCheckStart b s
  | .feedCheckComplete min limit => Sys2Proof.Machine.effFeedCheckComplete min limit s
  | .powerOn b mv => Sys2Proof.Machine.effPowerOn b mv s
  | .powerFail vbat => Sys2Proof.Machine.effPowerFail vbat s
  | .vbatLoss => Sys2Proof.Machine.effVbatLoss s
  | .pinReset => Sys2Proof.Machine.effPinReset s
  | .stageRailsDone bootsel => Sys2Proof.Machine.effStageRailsDone bootsel s
  | .stageRootDone how => Sys2Proof.Machine.effStageRootDone how s
  | .stageFeedchkDone => Sys2Proof.Machine.effStageFeedchkDone s
  | .stageVaultDone => Sys2Proof.Machine.effStageVaultDone s
  | .stageDone => Sys2Proof.Machine.effStageDone s
  | .counterAdvance => Sys2Proof.Machine.effCounterAdvance s
  | .vbatApplied vbat => Sys2Proof.Machine.effVbatApplied vbat s
  | .resetNRelease => Sys2Proof.Machine.effResetNRelease s
  | .pcieLinkUp speed width => Sys2Proof.Machine.effPcieLinkUp speed width s
  | .rootStageRetry => Sys2Proof.Machine.effRootStageRetry s
  | .navigationDataDecoded c i0 d => Sys2Proof.Machine.effNavigationDataDecoded c i0 d s
  | .pohSecondCount tj va vb => Sys2Proof.Machine.effPohSecondCount tj va vb s

/-- A command whose turn has come: its effect, and what follows it. In scan mode every functional block stands still (R439). -/
def act (i : Instr) (s : State) : State :=
  if s.scanning then (if actsInScan i then s.effect i else s) else s.follow (s.effect i)

/-- A command put among those that are held, before the first one that it precedes. -/
def holdIn (s : State) (i : Instr) : List Instr → List Instr
  | [] => [i]
  | h :: r => if s.precedes i h then i :: h :: r else h :: s.holdIn i r

/-- The held commands that wait no longer act, one after the other. -/
def releaseHeld : Nat → State → State
  | 0, s => s
  | n + 1, s => match s.nextHeld [] s.held with
    | some h => releaseHeld n (act h { s with held := s.held.erase h })
    | none => s

/-- The end of the tick comes when every command of the tick has acted. -/
def allHeld (s : State) : State := s.held.foldl (fun s h => act h s) { s with held := [] }

/-- A command from the queue: it is held while another of its tick comes before it (R30 to R32); else it acts, and then what waited for
it alone. -/
def perform (i : Instr) (s : State) : State :=
  if s.waits i then { s.clear with held := s.holdIn i s.held }
  else match i with
    | .counterAdvance => act .counterAdvance s.clear.allHeld
    | _ => releaseHeld s.held.length (act i s.clear)

end State

/-- The outcome of a command. The manual calls a clock root that runs outside the ratio limits undefined (R428). -/
def carryOut (i : Instr) (s : State) : Host.Outcome State Fault Refusal :=
  if !s.scanning && (i :: s.held).any mayRate && (s.perform i).ratioBad then .fault .ratioLimit else .next (s.perform i)

end Sys2Proof.Machine
end

