-- ==== Sys2Proof/Machine/Meanings.lean ====
section
/-! DEFINITION. The meaning of every command: its effect in its place among the commands of its tick. -/
namespace Sys2Proof.Machine

/-- REGISTER_WRITE (R8). -/
def execRegisterWrite (p : HostPath) (addr : Nat) (v : Word) (s : State) : Host.Outcome State Fault Refusal := carryOut (.registerWrite p addr v) s
/-- MULTIWORD_READ_LATCH (R13). -/
def execMultiwordReadLatch (p : HostPath) (addr : Nat) (s : State) : Host.Outcome State Fault Refusal := carryOut (.multiwordReadLatch p addr) s
/-- BOOK_WINDOW_START (R400). It acts in the tick in which a window starts. -/
def execBookWindowStart (s : State) : Host.Outcome State Fault Refusal := carryOut .bookWindowStart s
/-- BOOK_RD_GO (R402). -/
def execBookRdGo (p : HostPath) (v : Word) (s : State) : Host.Outcome State Fault Refusal := carryOut (.bookRdGo p v) s
/-- MIRROR_ENABLE (R401). -/
def execMirrorEnable (p : HostPath) (v : Word) (s : State) : Host.Outcome State Fault Refusal := carryOut (.mirrorEnable p v) s
/-- REF_COMMIT (R92). -/
def execRefCommit (p : HostPath) (c : ChanIx) (v : Word) (s : State) : Host.Outcome State Fault Refusal := carryOut (.refCommit p c v) s
/-- DPLL_COMMIT (R146). -/
def execDpllCommit (p : HostPath) (c : ChanIx) (v : Word) (s : State) : Host.Outcome State Fault Refusal := carryOut (.dpllCommit p c v) s
/-- SYN_COMMIT (R156). -/
def execSynCommit (p : HostPath) (c : ChanIx) (v : Word) (s : State) : Host.Outcome State Fault Refusal := carryOut (.synCommit p c v) s
/-- GNSS_COMMIT (R120). -/
def execGnssCommit (p : HostPath) (c : ChanIx) (v : Word) (s : State) : Host.Outcome State Fault Refusal := carryOut (.gnssCommit p c v) s
/-- PORT_COMMIT (R196). -/
def execPortCommit (p : HostPath) (c : ChanIx) (v : Word) (s : State) : Host.Outcome State Fault Refusal := carryOut (.portCommit p c v) s
/-- SCHED_COMMIT (R251). -/
def execSchedCommit (p : HostPath) (c : ChanIx) (v : Word) (s : State) : Host.Outcome State Fault Refusal := carryOut (.schedCommit p c v) s
/-- SEAL_COMMIT (R232). -/
def execSealCommit (p : HostPath) (c : ChanIx) (v : Word) (s : State) : Host.Outcome State Fault Refusal := carryOut (.sealCommit p c v) s
/-- TWIN_COMMIT (R283). -/
def execTwinCommit (p : HostPath) (v : Word) (s : State) : Host.Outcome State Fault Refusal := carryOut (.twinCommit p v) s
/-- BENCH_COMMIT (R304). -/
def execBenchCommit (p : HostPath) (v : Word) (s : State) : Host.Outcome State Fault Refusal := carryOut (.benchCommit p v) s
/-- B_CTL_COMMIT (R304). -/
def execBCtlCommit (p : HostPath) (c : ChanIx) (v : Word) (s : State) : Host.Outcome State Fault Refusal := carryOut (.bCtlCommit p c v) s
/-- CLKGEN_COMMIT (R429). -/
def execClkgenCommit (p : HostPath) (v : Word) (s : State) : Host.Outcome State Fault Refusal := carryOut (.clkgenCommit p v) s
/-- BLOCK_LOCK (R12). A block without a LOCK bit takes nothing. -/
def execBlockLock (p : HostPath) (b : LockBlk) (v : Word) (s : State) : Host.Outcome State Fault Refusal := carryOut (.blockLock p b v) s
/-- REFIN_EDGE (R67). -/
def execRefinEdge (c : ChanIx) (n : LaneIx) (ps : Nat) (s : State) : Host.Outcome State Fault Refusal := carryOut (.refinEdge c n ps) s
/-- TOD_SENTENCE_RX (R71). -/
def execTodSentenceRx (c : ChanIx) (k : Fin 2) (bs : Bytes) (ago : Nat) (s : State) : Host.Outcome State Fault Refusal := carryOut (.todSentenceRx c k bs ago) s
/-- TOD_SENTENCE_WINDOW_END (R71). -/
def execTodSentenceWindowEnd (c : ChanIx) (n : LaneIx) (s : State) : Host.Outcome State Fault Refusal := carryOut (.todSentenceWindowEnd c n) s
/-- FREQ_RECORD_BOUNDARY (R67). -/
def execFreqRecordBoundary (c : ChanIx) (n : LaneIx) (freq off : Int) (s : State) : Host.Outcome State Fault Refusal := carryOut (.freqRecordBoundary c n freq off) s
/-- LANE_MISS_TIMER_EXPIRY (R76). -/
def execLaneMissTimerExpiry (c : ChanIx) (n : LaneIx) (s : State) : Host.Outcome State Fault Refusal := carryOut (.laneMissTimerExpiry c n) s
/-- QUAL_WINDOW_EXPIRY (R80). -/
def execQualWindowExpiry (c : ChanIx) (n : LaneIx) (s : State) : Host.Outcome State Fault Refusal := carryOut (.qualWindowExpiry c n) s
/-- WTR_EXPIRY (R80). -/
def execWtrExpiry (c : ChanIx) (n : LaneIx) (s : State) : Host.Outcome State Fault Refusal := carryOut (.wtrExpiry c n) s
/-- DQ_HOLD_EXPIRY (R80). -/
def execDqHoldExpiry (c : ChanIx) (n : LaneIx) (s : State) : Host.Outcome State Fault Refusal := carryOut (.dqHoldExpiry c n) s
/-- LANE_FORCE (R80). -/
def execLaneForce (p : HostPath) (c : ChanIx) (n : LaneIx) (v : Word) (s : State) : Host.Outcome State Fault Refusal := carryOut (.laneForce p c n v) s
/-- LANE_UNFORCE (R80). -/
def execLaneUnforce (p : HostPath) (c : ChanIx) (n : LaneIx) (v : Word) (s : State) : Host.Outcome State Fault Refusal := carryOut (.laneUnforce p c n v) s
/-- LANE_REQUAL (R80). -/
def execLaneRequal (p : HostPath) (c : ChanIx) (n : LaneIx) (v : Word) (s : State) : Host.Outcome State Fault Refusal := carryOut (.laneRequal p c n v) s
/-- LANE_CLR_STEP (R83). -/
def execLaneClrStep (p : HostPath) (c : ChanIx) (n : LaneIx) (v : Word) (s : State) : Host.Outcome State Fault Refusal := carryOut (.laneClrStep p c n v) s
/-- SEL_APPROVE (R90). -/
def execSelApprove (p : HostPath) (c : ChanIx) (v : Word) (s : State) : Host.Outcome State Fault Refusal := carryOut (.selApprove p c v) s
/-- SEL_DENY (R90). -/
def execSelDeny (p : HostPath) (c : ChanIx) (v : Word) (s : State) : Host.Outcome State Fault Refusal := carryOut (.selDeny p c v) s
/-- UTC_ANNOUNCEMENT (R59). -/
def execUtcAnnouncement (c : ChanIx) (n : LaneIx) (a : UtcAnn) (s : State) : Host.Outcome State Fault Refusal := carryOut (.utcAnnouncement c n a) s
/-- LEAP_ENT_WRITE (R61). -/
def execLeapEntWrite (p : HostPath) (c : ChanIx) (k : Fin 8) (v : Word) (s : State) : Host.Outcome State Fault Refusal := carryOut (.leapEntWrite p c k v) s
/-- SAMPLE_LINK_FRAME (R98). -/
def execSampleLinkFrame (c : ChanIx) (comma : Bool) (bs : Bytes) (s : State) : Host.Outcome State Fault Refusal := carryOut (.sampleLinkFrame c comma bs) s
/-- BACK_CHANNEL_MESSAGE (R99). -/
def execBackChannelMessage (c : ChanIx) (s : State) : Host.Outcome State Fault Refusal := carryOut (.backChannelMessage c) s
/-- BACK_CHANNEL_GO (R100). -/
def execBackChannelGo (p : HostPath) (c : ChanIx) (v : Word) (s : State) : Host.Outcome State Fault Refusal := carryOut (.backChannelGo p c v) s
/-- BACK_CHANNEL_TIMEOUT (R100). -/
def execBackChannelTimeout (c : ChanIx) (s : State) : Host.Outcome State Fault Refusal := carryOut (.backChannelTimeout c) s
/-- TRK_ASSIGNMENT (R102). -/
def execTrkAssignment (c : ChanIx) (i : Fin 48) (gal : Bool) (sv : Nat) (s : State) : Host.Outcome State Fault Refusal := carryOut (.trkAssignment c i gal sv) s
/-- TRK_DETECTION (R102). -/
def execTrkDetection (c : ChanIx) (i : Fin 48) (s : State) : Host.Outcome State Fault Refusal := carryOut (.trkDetection c i) s
/-- TRK_WINDOW_EXHAUSTED (R102). -/
def execTrkWindowExhausted (c : ChanIx) (i : Fin 48) (s : State) : Host.Outcome State Fault Refusal := carryOut (.trkWindowExhausted c i) s
/-- TRK_REASSIGN_HOLDOFF_END (R102). -/
def execTrkReassignHoldoffEnd (c : ChanIx) (s : State) : Host.Outcome State Fault Refusal := carryOut (.trkReassignHoldoffEnd c) s
/-- TRK_LOCK (R102). -/
def execTrkLock (c : ChanIx) (i : Fin 48) (s : State) : Host.Outcome State Fault Refusal := carryOut (.trkLock c i) s
/-- TRK_PULL_IN_TIMEOUT (R102). -/
def execTrkPullInTimeout (c : ChanIx) (i : Fin 48) (s : State) : Host.Outcome State Fault Refusal := carryOut (.trkPullInTimeout c i) s
/-- TRK_LOCK_LOST (R102). -/
def execTrkLockLost (c : ChanIx) (i : Fin 48) (s : State) : Host.Outcome State Fault Refusal := carryOut (.trkLockLost c i) s
/-- TRK_LOST_TIMEOUT (R102). -/
def execTrkLostTimeout (c : ChanIx) (i : Fin 48) (s : State) : Host.Outcome State Fault Refusal := carryOut (.trkLostTimeout c i) s
/-- SIDE_PEAK_GUARD (R103). -/
def execSidePeakGuard (c : ChanIx) (i : Fin 48) (late : Bool) (s : State) : Host.Outcome State Fault Refusal := carryOut (.sidePeakGuard c i late) s
/-- NOTCH_LOCK (R105). -/
def execNotchLock (c : ChanIx) (k : Fin 4) (lines : List (Int × Nat)) (s : State) : Host.Outcome State Fault Refusal := carryOut (.notchLock c k lines) s
/-- NOTCH_RELEASE (R105). -/
def execNotchRelease (c : ChanIx) (v : NotchView) (s : State) : Host.Outcome State Fault Refusal := carryOut (.notchRelease c v) s
/-- JNI_UPDATE (R107). -/
def execJniUpdate (c : ChanIx) (idle : Byte) (pq : Nat) (s : State) : Host.Outcome State Fault Refusal := carryOut (.jniUpdate c idle pq) s
/-- JAM_FLOOR_CAPTURE (R107). -/
def execJamFloorCapture (p : HostPath) (c : ChanIx) (v : Word) (s : State) : Host.Outcome State Fault Refusal := carryOut (.jamFloorCapture p c v) s
/-- JAM_FLOOR_CAPTURE_END (R107). -/
def execJamFloorCaptureEnd (c : ChanIx) (idle : Byte) (s : State) : Host.Outcome State Fault Refusal := carryOut (.jamFloorCaptureEnd c idle) s
/-- POS_SET (R109). -/
def execPosSet (p : HostPath) (c : ChanIx) (v : Word) (s : State) : Host.Outcome State Fault Refusal := carryOut (.posSet p c v) s
/-- POS_CLR (R109). -/
def execPosClr (p : HostPath) (c : ChanIx) (v : Word) (s : State) : Host.Outcome State Fault Refusal := carryOut (.posClr p c v) s
/-- SURVEY_FIX (R109). -/
def execSurveyFix (c : ChanIx) (x y z : Int) (s : State) : Host.Outcome State Fault Refusal := carryOut (.surveyFix c x y z) s
/-- GNSS_EPOCH_SAMPLE (R111). -/
def execGnssEpochSample (c : ChanIx) (ms : List SatMeas) (s : State) : Host.Outcome State Fault Refusal := carryOut (.gnssEpochSample c ms) s
/-- GNSS_L8_RECORD (R114). -/
def execGnssL8Record (c : ChanIx) (s : State) : Host.Outcome State Fault Refusal := carryOut (.gnssL8Record c) s
/-- SNAP_GO (R116). -/
def execSnapGo (p : HostPath) (c : ChanIx) (v : Word) (s : State) : Host.Outcome State Fault Refusal := carryOut (.snapGo p c v) s
/-- SNAP_CAPTURE_START (R116). -/
def execSnapCaptureStart (c : ChanIx) (ps : Nat) (s : State) : Host.Outcome State Fault Refusal := carryOut (.snapCaptureStart c ps) s
/-- SNAP_CAPTURE_COMPLETE (R117). -/
def execSnapCaptureComplete (c : ChanIx) (s : State) : Host.Outcome State Fault Refusal := carryOut (.snapCaptureComplete c) s
/-- CMD_SNAPSHOT_PROCESSING (R118). -/
def execCmdSnapshotProcessing (slot : Fin 64) (ms : List SatMeas) (s : State) : Host.Outcome State Fault Refusal := carryOut (.cmdSnapshotProcessing slot ms) s
/-- CMD_GNSS_SURVEY (R109). -/
def execCmdGnssSurvey (slot : Fin 64) (s : State) : Host.Outcome State Fault Refusal := carryOut (.cmdGnssSurvey slot) s
/-- SERVO_A_APPLY (R131). -/
def execServoAApply (c : ChanIx) (s : State) : Host.Outcome State Fault Refusal := carryOut (.servoAApply c) s
/-- SERVO_B_APPLY (R133). -/
def execServoBApply (c : ChanIx) (s : State) : Host.Outcome State Fault Refusal := carryOut (.servoBApply c) s
/-- CHANNEL_ACQUIRE_START (R134). -/
def execChannelAcquireStart (c : ChanIx) (s : State) : Host.Outcome State Fault Refusal := carryOut (.channelAcquireStart c) s
/-- HOLDOVER_ENTRY (R135). -/
def execHoldoverEntry (c : ChanIx) (s : State) : Host.Outcome State Fault Refusal := carryOut (.holdoverEntry c) s
/-- HOLDOVER_LIMIT_ENTRY (R134). -/
def execHoldoverLimitEntry (c : ChanIx) (s : State) : Host.Outcome State Fault Refusal := carryOut (.holdoverLimitEntry c) s
/-- HO_AGING_INCREMENT (R135). -/
def execHoAgingIncrement (c : ChanIx) (s : State) : Host.Outcome State Fault Refusal := carryOut (.hoAgingIncrement c) s
/-- CMD_OSC_CHARACTERIZATION (R139). -/
def execCmdOscCharacterization (slot : Fin 64) (s : State) : Host.Outcome State Fault Refusal := carryOut (.cmdOscCharacterization slot) s
/-- CHAR_SAMPLE_INSTANT (R139). -/
def execCharSampleInstant (c : ChanIx) (s : State) : Host.Outcome State Fault Refusal := carryOut (.charSampleInstant c) s
/-- STEP_GO (R140). -/
def execStepGo (p : HostPath) (c : ChanIx) (v : Word) (s : State) : Host.Outcome State Fault Refusal := carryOut (.stepGo p c v) s
/-- STEP_ABS_APPLY (R140). -/
def execStepAbsApply (c : ChanIx) (s : State) : Host.Outcome State Fault Refusal := carryOut (.stepAbsApply c) s
/-- STEP_ABORT (R140). -/
def execStepAbort (p : HostPath) (c : ChanIx) (v : Word) (s : State) : Host.Outcome State Fault Refusal := carryOut (.stepAbort p c v) s
/-- VINTAGE_WRITE (R271). It acts when VINT_PER seconds of the channel have passed. -/
def execVintageWrite (c : ChanIx) (s : State) : Host.Outcome State Fault Refusal := carryOut (.vintageWrite c) s
/-- SYN_COMMIT_BOUNDARY (R156). -/
def execSynCommitBoundary (c : ChanIx) (k : Fin 2) (s : State) : Host.Outcome State Fault Refusal := carryOut (.synCommitBoundary c k) s
/-- PULSE_COMMIT_BOUNDARY (R164). -/
def execPulseCommitBoundary (c : ChanIx) (s : State) : Host.Outcome State Fault Refusal := carryOut (.pulseCommitBoundary c) s
/-- SYN_LOCK_DECLARED (R155). -/
def execSynLockDeclared (c : ChanIx) (k : Fin 2) (e : LockSense) (s : State) : Host.Outcome State Fault Refusal := carryOut (.synLockDeclared c k e) s
/-- SYN_LOCK_LOST (R155). -/
def execSynLockLost (c : ChanIx) (k : Fin 2) (e : LockSense) (s : State) : Host.Outcome State Fault Refusal := carryOut (.synLockLost c k e) s
/-- SYN_REFERENCE_LOSS (R155). -/
def execSynReferenceLoss (c : ChanIx) (k : Fin 2) (s : State) : Host.Outcome State Fault Refusal := carryOut (.synReferenceLoss c k) s
/-- SYN_NOLOCK (R155). -/
def execSynNolock (c : ChanIx) (k : Fin 2) (s : State) : Host.Outcome State Fault Refusal := carryOut (.synNolock c k) s
/-- SYN_COAST_REFERENCE_RETURN (R155). -/
def execSynCoastReferenceReturn (c : ChanIx) (k : Fin 2) (s : State) : Host.Outcome State Fault Refusal := carryOut (.synCoastReferenceReturn c k) s
/-- PULSE_EDGE (R163). -/
def execPulseEdge (c : ChanIx) (j : Fin 2) (s : State) : Host.Outcome State Fault Refusal := carryOut (.pulseEdge c j) s
/-- REALIGN_GO (R165). -/
def execRealignGo (p : HostPath) (c : ChanIx) (v : Word) (s : State) : Host.Outcome State Fault Refusal := carryOut (.realignGo p c v) s
/-- REALIGN_JUMP_SWITCH (R165). -/
def execRealignJumpSwitch (c : ChanIx) (s : State) : Host.Outcome State Fault Refusal := carryOut (.realignJumpSwitch c) s
/-- REALIGN_SLEW_DONE (R165). -/
def execRealignSlewDone (c : ChanIx) (s : State) : Host.Outcome State Fault Refusal := carryOut (.realignSlewDone c) s
/-- TOD_SENTENCE_SEND (R167). -/
def execTodSentenceSend (c : ChanIx) (s : State) : Host.Outcome State Fault Refusal := carryOut (.todSentenceSend c) s
/-- LINK_AN_COMPLETE (R176). The transmitters are off in the safe state (R370). -/
def execLinkAnComplete (c : ChanIx) (p : PortIx) (peer : Nat) (rs br : Bool) (s : State) : Host.Outcome State Fault Refusal := carryOut (.linkAnComplete c p peer rs br) s
/-- LINK_TRAINING_COMPLETE (R176). The transmitters are off in the safe state (R370). -/
def execLinkTrainingComplete (c : ChanIx) (p : PortIx) (s : State) : Host.Outcome State Fault Refusal := carryOut (.linkTrainingComplete c p) s
/-- LINK_TRAINING_TIMEOUT (R176). The transmitters are off in the safe state (R370). -/
def execLinkTrainingTimeout (c : ChanIx) (p : PortIx) (s : State) : Host.Outcome State Fault Refusal := carryOut (.linkTrainingTimeout c p) s
/-- LINK_ALIGN_LOCK (R176). The transmitters are off in the safe state (R370). -/
def execLinkAlignLock (c : ChanIx) (p : PortIx) (vI vE : Int) (s : State) : Host.Outcome State Fault Refusal := carryOut (.linkAlignLock c p vI vE) s
/-- LINK_ALIGN_TIMEOUT (R176). The transmitters are off in the safe state (R370). -/
def execLinkAlignTimeout (c : ChanIx) (p : PortIx) (s : State) : Host.Outcome State Fault Refusal := carryOut (.linkAlignTimeout c p) s
/-- LINK_LOSS (R176). -/
def execLinkLoss (c : ChanIx) (p : PortIx) (s : State) : Host.Outcome State Fault Refusal := carryOut (.linkLoss c p) s
/-- PTP_DELAY_REQ_RX (R210). -/
def execPtpDelayReqRx (c : ChanIx) (p : PortIx) (ps : Nat) (f : Int) (bs : Bytes) (s : State) : Host.Outcome State Fault Refusal := carryOut (.ptpDelayReqRx c p ps f bs) s
/-- PTP_PDELAY_REQ_RX (R210). -/
def execPtpPdelayReqRx (c : ChanIx) (p : PortIx) (ps : Nat) (f : Int) (bs : Bytes) (s : State) : Host.Outcome State Fault Refusal := carryOut (.ptpPdelayReqRx c p ps f bs) s
/-- PTP_SYNC_RX (R189). -/
def execPtpSyncRx (c : ChanIx) (p : PortIx) (ps : Nat) (f : Int) (bs : Bytes) (s : State) : Host.Outcome State Fault Refusal := carryOut (.ptpSyncRx c p ps f bs) s
/-- PTP_FOLLOW_UP_RX (R191). -/
def execPtpFollowUpRx (c : ChanIx) (p : PortIx) (bs : Bytes) (s : State) : Host.Outcome State Fault Refusal := carryOut (.ptpFollowUpRx c p bs) s
/-- PTP_DELAY_RESP_RX (R189). -/
def execPtpDelayRespRx (c : ChanIx) (p : PortIx) (bs : Bytes) (s : State) : Host.Outcome State Fault Refusal := carryOut (.ptpDelayRespRx c p bs) s
/-- PTP_PDELAY_RESP_RX (R189). -/
def execPtpPdelayRespRx (c : ChanIx) (p : PortIx) (ps : Nat) (f : Int) (bs : Bytes) (s : State) : Host.Outcome State Fault Refusal := carryOut (.ptpPdelayRespRx c p ps f bs) s
/-- PTP_ANNOUNCE_RX (R191). -/
def execPtpAnnounceRx (c : ChanIx) (p : PortIx) (bs : Bytes) (s : State) : Host.Outcome State Fault Refusal := carryOut (.ptpAnnounceRx c p bs) s
/-- PTP_SIGNALING_RX (R207). -/
def execPtpSignalingRx (c : ChanIx) (p : PortIx) (bs : Bytes) (s : State) : Host.Outcome State Fault Refusal := carryOut (.ptpSignalingRx c p bs) s
/-- NTP_REQUEST_RX (R210). -/
def execNtpRequestRx (c : ChanIx) (p : PortIx) (ps : Nat) (f : Int) (bs : Bytes) (s : State) : Host.Outcome State Fault Refusal := carryOut (.ntpRequestRx c p ps f bs) s
/-- NTP_MAC_REQUEST_RX (R212). -/
def execNtpMacRequestRx (c : ChanIx) (p : PortIx) (ps : Nat) (f : Int) (bs : Bytes) (s : State) : Host.Outcome State Fault Refusal := carryOut (.ntpMacRequestRx c p ps f bs) s
/-- NTS_REQUEST_RX (R217). -/
def execNtsRequestRx (c : ChanIx) (p : PortIx) (ps : Nat) (f : Int) (bs : Bytes) (s : State) : Host.Outcome State Fault Refusal := carryOut (.ntsRequestRx c p ps f bs) s
/-- EXCEPTION_FRAME_RX (R202). -/
def execExceptionFrameRx (c : ChanIx) (p : PortIx) (bs : Bytes) (s : State) : Host.Outcome State Fault Refusal := carryOut (.exceptionFrameRx c p bs) s
/-- UNSUPPORTED_FRAME_RX (R200). -/
def execUnsupportedFrameRx (c : ChanIx) (p : PortIx) (bs : Bytes) (s : State) : Host.Outcome State Fault Refusal := carryOut (.unsupportedFrameRx c p bs) s
/-- NOT_MINE_FRAME_RX (R199). -/
def execNotMineFrameRx (c : ChanIx) (p : PortIx) (bs : Bytes) (s : State) : Host.Outcome State Fault Refusal := carryOut (.notMineFrameRx c p bs) s
/-- TRANSIT_FRAME_RX (R187). -/
def execTransitFrameRx (c : ChanIx) (p : PortIx) (ps : Nat) (f : Int) (bs : Bytes) (s : State) : Host.Outcome State Fault Refusal := carryOut (.transitFrameRx c p ps f bs) s
/-- PAUSE_FRAME_RX (R174). -/
def execPauseFrameRx (c : ChanIx) (p : PortIx) (len : Nat) (s : State) : Host.Outcome State Fault Refusal := carryOut (.pauseFrameRx c p len) s
/-- OVERSIZE_FRAME_RX (R174). -/
def execOversizeFrameRx (c : ChanIx) (p : PortIx) (len : Nat) (s : State) : Host.Outcome State Fault Refusal := carryOut (.oversizeFrameRx c p len) s
/-- EGRESS_COMMIT (R239). -/
def execEgressCommit (c : ChanIx) (p : PortIx) (ps : Nat) (f : Int) (s : State) : Host.Outcome State Fault Refusal := carryOut (.egressCommit c p ps f) s
/-- SYNCE_RECORD (R192). -/
def execSynceRecord (c : ChanIx) (p : PortIx) (freq off : Int) (s : State) : Host.Outcome State Fault Refusal := carryOut (.synceRecord c p freq off) s
/-- ESMC_PDU_RX (R194). -/
def execEsmcPduRx (c : ChanIx) (p : PortIx) (ql len : Nat) (s : State) : Host.Outcome State Fault Refusal := carryOut (.esmcPduRx c p ql len) s
/-- ESMC_QL_LOST_EXPIRY (R194). -/
def execEsmcQlLostExpiry (c : ChanIx) (p : PortIx) (s : State) : Host.Outcome State Fault Refusal := carryOut (.esmcQlLostExpiry c p) s
/-- ESMC_INFO_PDU_SEND (R194). -/
def execEsmcInfoPduSend (c : ChanIx) (p : PortIx) (s : State) : Host.Outcome State Fault Refusal := carryOut (.esmcInfoPduSend c p) s
/-- UNICAST_DUE_MESSAGE (R208). -/
def execUnicastDueMessage (c : ChanIx) (i : Nat) (ann : Bool) (s : State) : Host.Outcome State Fault Refusal := carryOut (.unicastDueMessage c i ann) s
/-- MULTICAST_DUE_MESSAGE (R208). -/
def execMulticastDueMessage (c : ChanIx) (p : PortIx) (ann : Bool) (s : State) : Host.Outcome State Fault Refusal := carryOut (.multicastDueMessage c p ann) s
/-- PDELAY_REQ_DUE (R203). -/
def execPdelayReqDue (c : ChanIx) (p : PortIx) (s : State) : Host.Outcome State Fault Refusal := carryOut (.pdelayReqDue c p) s
/-- LANE_DELAY_REQ_DUE (R209). -/
def execLaneDelayReqDue (c : ChanIx) (p : PortIx) (s : State) : Host.Outcome State Fault Refusal := carryOut (.laneDelayReqDue c p) s
/-- LANE_CLIENT_NEGOTIATE (R314). -/
def execLaneClientNegotiate (c : ChanIx) (p : PortIx) (s : State) : Host.Outcome State Fault Refusal := carryOut (.laneClientNegotiate c p) s
/-- GRANT_EXPIRY (R207). -/
def execGrantExpiry (c : ChanIx) (i : Nat) (s : State) : Host.Outcome State Fault Refusal := carryOut (.grantExpiry c i) s
/-- EXCEPTION_CORE_RESPONSE (R202). -/
def execExceptionCoreResponse (c : ChanIx) (s : State) : Host.Outcome State Fault Refusal := carryOut (.exceptionCoreResponse c) s
/-- CT_REVOKE (R206). -/
def execCtRevoke (p : HostPath) (c : ChanIx) (v : Word) (s : State) : Host.Outcome State Fault Refusal := carryOut (.ctRevoke p c v) s
/-- CMD_COOKIE_MINT (R221). -/
def execCmdCookieMint (slot : Fin 64) (req : Option Bytes) (s : State) : Host.Outcome State Fault Refusal := carryOut (.cmdCookieMint slot req) s
/-- POL_CMD_GO (R236). -/
def execPolCmdGo (p : HostPath) (c : ChanIx) (v : Word) (s : State) : Host.Outcome State Fault Refusal := carryOut (.polCmdGo p c v) s
/-- GATE_LIST_BOUNDARY (R244). -/
def execGateListBoundary (c : ChanIx) (p : PortIx) (s : State) : Host.Outcome State Fault Refusal := carryOut (.gateListBoundary c p) s
/-- GATE_SWAP (R247). -/
def execGateSwap (h : HostPath) (c : ChanIx) (p : PortIx) (v : Word) (s : State) : Host.Outcome State Fault Refusal := carryOut (.gateSwap h c p v) s
/-- GATE_CANCEL (R247). -/
def execGateCancel (h : HostPath) (c : ChanIx) (p : PortIx) (v : Word) (s : State) : Host.Outcome State Fault Refusal := carryOut (.gateCancel h c p v) s
/-- GATE_LIST_SWITCH (R247). -/
def execGateListSwitch (c : ChanIx) (p : PortIx) (s : State) : Host.Outcome State Fault Refusal := carryOut (.gateListSwitch c p) s
/-- QUEUE_SAMPLE (R249). -/
def execQueueSample (c : ChanIx) (p : PortIx) (s : State) : Host.Outcome State Fault Refusal := carryOut (.queueSample c p) s
/-- HOST_TX_FRAME_TAKE (R383). -/
def execHostTxFrameTake (c : ChanIx) (p : PortIx) (s : State) : Host.Outcome State Fault Refusal := carryOut (.hostTxFrameTake c p) s
/-- CLAIM_ROUND_START (R258). -/
def execClaimRoundStart (fell : Bool) (s : State) : Host.Outcome State Fault Refusal := carryOut (.claimRoundStart fell) s
/-- CLAIM_ROUND_END (R259). -/
def execClaimRoundEnd (w : Word) (stuck noStart : Bool) (s : State) : Host.Outcome State Fault Refusal := carryOut (.claimRoundEnd w stuck noStart) s
/-- OUTPUT_CONTENTION (R262). -/
def execOutputContention (c : ChanIx) (s : State) : Host.Outcome State Fault Refusal := carryOut (.outputContention c) s
/-- HEARTBEAT_SEND (R263). -/
def execHeartbeatSend (ps0 ps1 : Nat) (s : State) : Host.Outcome State Fault Refusal := carryOut (.heartbeatSend ps0 ps1) s
/-- HB_FRAME_RX (R263). -/
def execHbFrameRx (lane : Fin 2) (bs : Bytes) (ps : Nat) (s : State) : Host.Outcome State Fault Refusal := carryOut (.hbFrameRx lane bs ps) s
/-- HB_WORD_RX (R264). -/
def execHbWordRx (w : Word) (s : State) : Host.Outcome State Fault Refusal := carryOut (.hbWordRx w) s
/-- HEARTBEAT_MISS_EXPIRY (R265). -/
def execHeartbeatMissExpiry (pathB : Bool) (s : State) : Host.Outcome State Fault Refusal := carryOut (.heartbeatMissExpiry pathB) s
/-- BOOT_WAIT_EXPIRY (R266). -/
def execBootWaitExpiry (s : State) : Host.Outcome State Fault Refusal := carryOut .bootWaitExpiry s
/-- TWIN_FENCE (R266). -/
def execTwinFence (p : HostPath) (v : Word) (s : State) : Host.Outcome State Fault Refusal := carryOut (.twinFence p v) s
/-- TWIN_UNFENCE (R266). -/
def execTwinUnfence (p : HostPath) (v : Word) (s : State) : Host.Outcome State Fault Refusal := carryOut (.twinUnfence p v) s
/-- RACK_CHANNEL_COMPLETE (R272). -/
def execRackChannelComplete (c : ChanIx) (s : State) : Host.Outcome State Fault Refusal := carryOut (.rackChannelComplete c) s
/-- CLAIM_CONDITION_MET (R275). -/
def execClaimConditionMet (s : State) : Host.Outcome State Fault Refusal := carryOut .claimConditionMet s
/-- TWIN_LANE_SYNC (R280). -/
def execTwinLaneSync (lane : Fin 2) (up : Bool) (s : State) : Host.Outcome State Fault Refusal := carryOut (.twinLaneSync lane up) s
/-- TWIN_TIME_FRAME_SEND (R268). -/
def execTwinTimeFrameSend (c : ChanIx) (ps : Nat) (s : State) : Host.Outcome State Fault Refusal := carryOut (.twinTimeFrameSend c ps) s
/-- TWIN_TIME_FRAME_RX (R279). -/
def execTwinTimeFrameRx (lane : Fin 2) (bs : Bytes) (ps : Nat) (s : State) : Host.Outcome State Fault Refusal := carryOut (.twinTimeFrameRx lane bs ps) s
/-- JOUR_FRAME_RX (R269). -/
def execJourFrameRx (lane : Fin 2) (f : JourFrame) (s : State) : Host.Outcome State Fault Refusal := carryOut (.jourFrameRx lane f) s
/-- CLIENT_FRAME_RX (R229). -/
def execClientFrameRx (lane : Fin 2) (bs : Bytes) (s : State) : Host.Outcome State Fault Refusal := carryOut (.clientFrameRx lane bs) s
/-- VINT_FRAME_RX (R269). -/
def execVintFrameRx (lane : Fin 2) (f : VintFrame) (s : State) : Host.Outcome State Fault Refusal := carryOut (.vintFrameRx lane f) s
/-- RESYNC_FRAME_RX (R268). -/
def execResyncFrameRx (lane : Fin 2) (bs : Bytes) (s : State) : Host.Outcome State Fault Refusal := carryOut (.resyncFrameRx lane bs) s
/-- DRILL_FRAME_RX (R266). -/
def execDrillFrameRx (lane : Fin 2) (bs : Bytes) (s : State) : Host.Outcome State Fault Refusal := carryOut (.drillFrameRx lane bs) s
/-- CMD_RACKING_DRILL (R278). -/
def execCmdRackingDrill (slot : Fin 64) (s : State) : Host.Outcome State Fault Refusal := carryOut (.cmdRackingDrill slot) s
/-- DRILL_REQUEST_SEND (R278). -/
def execDrillRequestSend (s : State) : Host.Outcome State Fault Refusal := carryOut .drillRequestSend s
/-- DRILL_CLAIM_INSTANT (R278). -/
def execDrillClaimInstant (s : State) : Host.Outcome State Fault Refusal := carryOut .drillClaimInstant s
/-- DRILL_TIMEOUT (R278). -/
def execDrillTimeout (s : State) : Host.Outcome State Fault Refusal := carryOut .drillTimeout s
/-- BENCH_LINK_SYNC (R286). The transmitters are off in the safe state (R370). -/
def execBenchLinkSync (c : ChanIx) (x : Fin 2) (s : State) : Host.Outcome State Fault Refusal := carryOut (.benchLinkSync c x) s
/-- BENCH_HELLO_SEND (R289). -/
def execBenchHelloSend (c : ChanIx) (x : Fin 2) (ps : Nat) (s : State) : Host.Outcome State Fault Refusal := carryOut (.benchHelloSend c x ps) s
/-- BENCH_HELLO_RX (R286). -/
def execBenchHelloRx (c : ChanIx) (x : Fin 2) (bs : Bytes) (ps : Nat) (s : State) : Host.Outcome State Fault Refusal := carryOut (.benchHelloRx c x bs ps) s
/-- BENCH_HELLO_TIMEOUT (R286). -/
def execBenchHelloTimeout (c : ChanIx) (x : Fin 2) (lost : Bool) (s : State) : Host.Outcome State Fault Refusal := carryOut (.benchHelloTimeout c x lost) s
/-- LSA_SEND (R290). -/
def execLsaSend (s : State) : Host.Outcome State Fault Refusal := carryOut .lsaSend s
/-- LSA_RX (R290). -/
def execLsaRx (c : ChanIx) (x : Fin 2) (bs : Bytes) (s : State) : Host.Outcome State Fault Refusal := carryOut (.lsaRx c x bs) s
/-- LSA_HOLD_EXPIRY (R300). -/
def execLsaHoldExpiry (devid : Nat) (s : State) : Host.Outcome State Fault Refusal := carryOut (.lsaHoldExpiry devid) s
/-- ROUTE_COMPUTATION (R292). -/
def execRouteComputation (s : State) : Host.Outcome State Fault Refusal := carryOut .routeComputation s
/-- BENCH_TIME_SEND (R293). -/
def execBenchTimeSend (c : ChanIx) (ps0 ps1 : Nat) (s : State) : Host.Outcome State Fault Refusal := carryOut (.benchTimeSend c ps0 ps1) s
/-- BENCH_TIME_RX (R294). -/
def execBenchTimeRx (c : ChanIx) (x : Fin 2) (bs : Bytes) (ps : Nat) (residence : List Nat) (s : State) : Host.Outcome State Fault Refusal := carryOut (.benchTimeRx c x bs ps residence) s
/-- PEER_SLOT_EXPIRY (R296). -/
def execPeerSlotExpiry (c : ChanIx) (x : Fin 2) (i : Fin 32) (s : State) : Host.Outcome State Fault Refusal := carryOut (.peerSlotExpiry c x i) s
/-- ENSEMBLE_EVALUATION (R298). -/
def execEnsembleEvaluation (c : ChanIx) (x : Fin 2) (s : State) : Host.Outcome State Fault Refusal := carryOut (.ensembleEvaluation c x) s
/-- BENCH_CAL_GO (R305). -/
def execBenchCalGo (p : HostPath) (v : Word) (s : State) : Host.Outcome State Fault Refusal := carryOut (.benchCalGo p v) s
/-- BENCH_CAL_DONE (R305). -/
def execBenchCalDone (ab ba : List Nat) (s : State) : Host.Outcome State Fault Refusal := carryOut (.benchCalDone ab ba) s
/-- CMD_IMAGE_LOAD_STAGE (R322). -/
def execCmdImageLoadStage (slot : Fin 64) (data : Option Bytes) (s : State) : Host.Outcome State Fault Refusal := carryOut (.cmdImageLoadStage slot data) s
/-- CMD_IMAGE_LOAD_RUN (R322). -/
def execCmdImageLoadRun (slot : Fin 64) (data : Option Bytes) (s : State) : Host.Outcome State Fault Refusal := carryOut (.cmdImageLoadRun slot data) s
/-- CMD_IMAGE_LOAD_DEVICE (R322). -/
def execCmdImageLoadDevice (slot : Fin 64) (images : Option (List (Option Bytes))) (s : State) : Host.Outcome State Fault Refusal := carryOut (.cmdImageLoadDevice slot images) s
/-- IMAGE_STREAM_WRITE (R404). -/
def execImageStreamWrite (p : HostPath) (v : Word) (s : State) : Host.Outcome State Fault Refusal := carryOut (.imageStreamWrite p v) s
/-- RECONFIG_ENTRY (R323). -/
def execReconfigEntry (c : ChanIx) (s : State) : Host.Outcome State Fault Refusal := carryOut (.reconfigEntry c) s
/-- RECONFIG_APPLY_COMPLETE (R326). -/
def execReconfigApplyComplete (c : ChanIx) (s : State) : Host.Outcome State Fault Refusal := carryOut (.reconfigApplyComplete c) s
/-- COMMON_IMAGE_APPLY (R324). -/
def execCommonImageApply (s : State) : Host.Outcome State Fault Refusal := carryOut .commonImageApply s
/-- CHANNEL_GATE (R326). -/
def execChannelGate (p : HostPath) (c : ChanIx) (v : Word) (s : State) : Host.Outcome State Fault Refusal := carryOut (.channelGate p c v) s
/-- CHANNEL_UNGATE (R326). -/
def execChannelUngate (p : HostPath) (c : ChanIx) (v : Word) (s : State) : Host.Outcome State Fault Refusal := carryOut (.channelUngate p c v) s
/-- CHANNEL_RESET (R326). -/
def execChannelReset (p : HostPath) (c : ChanIx) (v : Word) (s : State) : Host.Outcome State Fault Refusal := carryOut (.channelReset p c v) s
/-- CHANNEL_POWER_DOWN_DONE (R437). -/
def execChannelPowerDownDone (c : ChanIx) (s : State) : Host.Outcome State Fault Refusal := carryOut (.channelPowerDownDone c) s
/-- CHANNEL_POWER_UP_DONE (R437). -/
def execChannelPowerUpDone (c : ChanIx) (s : State) : Host.Outcome State Fault Refusal := carryOut (.channelPowerUpDone c) s
/-- KUM_INSTALL (R343). -/
def execKumInstall (p : HostPath) (v : Word) (s : State) : Host.Outcome State Fault Refusal := carryOut (.kumInstall p v) s
/-- KUM_REPLACE (R343). -/
def execKumReplace (p : HostPath) (v : Word) (s : State) : Host.Outcome State Fault Refusal := carryOut (.kumReplace p v) s
/-- KUM_INVALIDATE (R343). -/
def execKumInvalidate (p : HostPath) (v : Word) (s : State) : Host.Outcome State Fault Refusal := carryOut (.kumInvalidate p v) s
/-- KUM_RECOVER (R347). -/
def execKumRecover (p : HostPath) (v : Word) (s : State) : Host.Outcome State Fault Refusal := carryOut (.kumRecover p v) s
/-- KUM_TCFG (R352). -/
def execKumTcfg (p : HostPath) (v : Word) (s : State) : Host.Outcome State Fault Refusal := carryOut (.kumTcfg p v) s
/-- KUM_COMMIT_POINT (R348). -/
def execKumCommitPoint (written : Bool) (s : State) : Host.Outcome State Fault Refusal := carryOut (.kumCommitPoint written) s
/-- ATTESTATION_QUOTE (R350). -/
def execAttestationQuote (p : HostPath) (v : Word) (s : State) : Host.Outcome State Fault Refusal := carryOut (.attestationQuote p v) s
/-- ATTESTATION_QUOTE_DONE (R350). -/
def execAttestationQuoteDone (s : State) : Host.Outcome State Fault Refusal := carryOut .attestationQuoteDone s
/-- CMD_KEY_BATCH (R356). -/
def execCmdKeyBatch (slot : Fin 64) (kums : Option (List Bytes)) (s : State) : Host.Outcome State Fault Refusal := carryOut (.cmdKeyBatch slot kums) s
/-- TAMPER_SAMPLE (R351). -/
def execTamperSample (t : TamperIn) (s : State) : Host.Outcome State Fault Refusal := carryOut (.tamperSample t) s
/-- FAULT_DETECTION (R363). -/
def execFaultDetection (n : Fin 512) (s : State) : Host.Outcome State Fault Refusal := carryOut (.faultDetection n) s
/-- SAFE_ENTER (R368). -/
def execSafeEnter (p : HostPath) (v : Word) (s : State) : Host.Outcome State Fault Refusal := carryOut (.safeEnter p v) s
/-- SAFE_EXIT (R371). -/
def execSafeExit (p : HostPath) (v : Word) (s : State) : Host.Outcome State Fault Refusal := carryOut (.safeExit p v) s
/-- INJECTION_GO (R372). -/
def execInjectionGo (p : HostPath) (v : Word) (s : State) : Host.Outcome State Fault Refusal := carryOut (.injectionGo p v) s
/-- INJECTED_DETECTION (R372). -/
def execInjectedDetection (s : State) : Host.Outcome State Fault Refusal := carryOut .injectedDetection s
/-- INJECTION_NO_CHECK_TIMEOUT (R372). -/
def execInjectionNoCheckTimeout (s : State) : Host.Outcome State Fault Refusal := carryOut .injectionNoCheckTimeout s
/-- CLK_GATE_FORCE (R374). -/
def execClkGateForce (c : Option ChanIx) (blk : Nat) (s : State) : Host.Outcome State Fault Refusal := carryOut (.clkGateForce c blk) s
/-- CLK_SWITCH_COMPLETE (R375). -/
def execClkSwitchComplete (c : Option ChanIx) (blk : Nat) (how : SwitchEnd) (s : State) : Host.Outcome State Fault Refusal := carryOut (.clkSwitchComplete c blk how) s
/-- CMD_SUBMIT (R387). -/
def execCmdSubmit (p : HostPath) (v : Word) (s : State) : Host.Outcome State Fault Refusal := carryOut (.cmdSubmit p v) s
/-- CMD_RELEASE (R387). -/
def execCmdRelease (p : HostPath) (v : Word) (s : State) : Host.Outcome State Fault Refusal := carryOut (.cmdRelease p v) s
/-- CMD_START (R390). -/
def execCmdStart (slot : Fin 64) (s : State) : Host.Outcome State Fault Refusal := carryOut (.cmdStart slot) s
/-- CMD_COMPLETE (R391). -/
def execCmdComplete (slot : Fin 64) (dmaFailed : Bool) (s : State) : Host.Outcome State Fault Refusal := carryOut (.cmdComplete slot dmaFailed) s
/-- CMD_TIMEOUT (R391). -/
def execCmdTimeout (slot : Fin 64) (s : State) : Host.Outcome State Fault Refusal := carryOut (.cmdTimeout slot) s
/-- CMD_SUSPEND (R391). -/
def execCmdSuspend (slot : Fin 64) (s : State) : Host.Outcome State Fault Refusal := carryOut (.cmdSuspend slot) s
/-- CMD_RESUME (R391). -/
def execCmdResume (slot : Fin 64) (s : State) : Host.Outcome State Fault Refusal := carryOut (.cmdResume slot) s
/-- CMD_CANCEL (R391). -/
def execCmdCancel (slot : Fin 64) (s : State) : Host.Outcome State Fault Refusal := carryOut (.cmdCancel slot) s
/-- CMD_SELF_TEST (R433). -/
def execCmdSelfTest (slot : Fin 64) (s : State) : Host.Outcome State Fault Refusal := carryOut (.cmdSelfTest slot) s
/-- CMD_TALLY_EXPORT (R419). -/
def execCmdTallyExport (slot : Fin 64) (s : State) : Host.Outcome State Fault Refusal := carryOut (.cmdTallyExport slot) s
/-- PCIE_LINK_DOWN (R381). -/
def execPcieLinkDown (s : State) : Host.Outcome State Fault Refusal := carryOut .pcieLinkDown s
/-- PCIE_FLR (R381). -/
def execPcieFlr (s : State) : Host.Outcome State Fault Refusal := carryOut .pcieFlr s
/-- WIN_MEM_WRITE (R380). -/
def execWinMemWrite (p : HostPath) (addr : Nat) (v : Word) (s : State) : Host.Outcome State Fault Refusal := carryOut (.winMemWrite p addr v) s
/-- MSPI_REGISTER_READ (R385). -/
def execMspiRegisterRead (bs : Bytes) (s : State) : Host.Outcome State Fault Refusal := carryOut (.mspiRegisterRead bs) s
/-- MSPI_REGISTER_WRITE (R385). -/
def execMspiRegisterWrite (bs : Bytes) (s : State) : Host.Outcome State Fault Refusal := carryOut (.mspiRegisterWrite bs) s
/-- MSPI_MEMORY_READ (R385). -/
def execMspiMemoryRead (bs : Bytes) (s : State) : Host.Outcome State Fault Refusal := carryOut (.mspiMemoryRead bs) s
/-- MSPI_MEMORY_WRITE (R385). -/
def execMspiMemoryWrite (bs : Bytes) (s : State) : Host.Outcome State Fault Refusal := carryOut (.mspiMemoryWrite bs) s
/-- MSPI_SCAN_ENTRY (R439). -/
def execMspiScanEntry (bs : Bytes) (s : State) : Host.Outcome State Fault Refusal := carryOut (.mspiScanEntry bs) s
/-- MSPI_BALL_DRIVE (R439). -/
def execMspiBallDrive (bs : Bytes) (s : State) : Host.Outcome State Fault Refusal := carryOut (.mspiBallDrive bs) s
/-- MSPI_BALL_SENSE (R439). -/
def execMspiBallSense (bs : Bytes) (level : Bool) (s : State) : Host.Outcome State Fault Refusal := carryOut (.mspiBallSense bs level) s
/-- PMU_TD_SNAP (R411). -/
def execPmuTdSnap (p : HostPath) (c : ChanIx) (v : Word) (s : State) : Host.Outcome State Fault Refusal := carryOut (.pmuTdSnap p c v) s
/-- PMU_COUNTER_WRAP (R412). -/
def execPmuCounterWrap (c : ChanIx) (smp : PmuSample) (s : State) : Host.Outcome State Fault Refusal := carryOut (.pmuCounterWrap c smp) s
/-- BW_WINDOW_END (R409). -/
def execBwWindowEnd (c : ChanIx) (s : State) : Host.Outcome State Fault Refusal := carryOut (.bwWindowEnd c) s
/-- BW_CFG_WRITE (R409). -/
def execBwCfgWrite (p : HostPath) (c : ChanIx) (v : Word) (s : State) : Host.Outcome State Fault Refusal := carryOut (.bwCfgWrite p c v) s
/-- PK_CLR_WRITE (R409). -/
def execPkClrWrite (h : HostPath) (c : ChanIx) (p : PortIx) (v : Word) (s : State) : Host.Outcome State Fault Refusal := carryOut (.pkClrWrite h c p v) s
/-- TALLY_UPDATE_START (R418). -/
def execTallyUpdateStart (s : State) : Host.Outcome State Fault Refusal := carryOut .tallyUpdateStart s
/-- TALLY_UPD_NOW (R418). -/
def execTallyUpdNow (p : HostPath) (v : Word) (s : State) : Host.Outcome State Fault Refusal := carryOut (.tallyUpdNow p v) s
/-- TALLY_UPDATE_COMMIT (R418). -/
def execTallyUpdateCommit (s : State) : Host.Outcome State Fault Refusal := carryOut .tallyUpdateCommit s
/-- MOSC_DETECT (R424). -/
def execMoscDetect (count : Nat) (s : State) : Host.Outcome State Fault Refusal := carryOut (.moscDetect count) s
/-- MOSC_LOST (R426). -/
def execMoscLost (s : State) : Host.Outcome State Fault Refusal := carryOut .moscLost s
/-- MOSC_RETURN (R426). -/
def execMoscReturn (s : State) : Host.Outcome State Fault Refusal := carryOut .moscReturn s
/-- ROOT_LOCK (R430). -/
def execRootLock (r : Fin 5) (s : State) : Host.Outcome State Fault Refusal := carryOut (.rootLock r) s
/-- ROOT_LOCK_LOST (R430). -/
def execRootLockLost (r : Fin 5) (s : State) : Host.Outcome State Fault Refusal := carryOut (.rootLockLost r) s
/-- FEED_BAD (R432). -/
def execFeedBad (b : Bool) (mv : Nat) (s : State) : Host.Outcome State Fault Refusal := carryOut (.feedBad b mv) s
/-- FEED_GOOD (R432). -/
def execFeedGood (b : Bool) (mv : Nat) (s : State) : Host.Outcome State Fault Refusal := carryOut (.feedGood b mv) s
/-- FEED_CHECK_START (R433). -/
def execFeedCheckStart (b : Bool) (s : State) : Host.Outcome State Fault Refusal := carryOut (.feedCheckStart b) s
/-- FEED_CHECK_COMPLETE (R433). -/
def execFeedCheckComplete (min : Nat) (limit : Bool) (s : State) : Host.Outcome State Fault Refusal := carryOut (.feedCheckComplete min limit) s
/-- POWER_ON (R438). -/
def execPowerOn (b : Bool) (mv : Nat) (s : State) : Host.Outcome State Fault Refusal := carryOut (.powerOn b mv) s
/-- POWER_FAIL (R436). -/
def execPowerFail (vbat : Nat) (s : State) : Host.Outcome State Fault Refusal := carryOut (.powerFail vbat) s
/-- VBAT_LOSS (R435). -/
def execVbatLoss (s : State) : Host.Outcome State Fault Refusal := carryOut .vbatLoss s
/-- PIN_RESET (R438). -/
def execPinReset (s : State) : Host.Outcome State Fault Refusal := carryOut .pinReset s
/-- STAGE_RAILS_DONE (R440). -/
def execStageRailsDone (bootsel : Fin 4) (s : State) : Host.Outcome State Fault Refusal := carryOut (.stageRailsDone bootsel) s
/-- STAGE_ROOT_DONE (R440). -/
def execStageRootDone (how : SwitchEnd) (s : State) : Host.Outcome State Fault Refusal := carryOut (.stageRootDone how) s
/-- STAGE_FEEDCHK_DONE (R440). -/
def execStageFeedchkDone (s : State) : Host.Outcome State Fault Refusal := carryOut .stageFeedchkDone s
/-- STAGE_VAULT_DONE (R440). -/
def execStageVaultDone (s : State) : Host.Outcome State Fault Refusal := carryOut .stageVaultDone s
/-- STAGE_DONE (R441). -/
def execStageDone (s : State) : Host.Outcome State Fault Refusal := carryOut .stageDone s
/-- COUNTER_ADVANCE (R128). -/
def execCounterAdvance (s : State) : Host.Outcome State Fault Refusal := carryOut .counterAdvance s
/-- VBAT_APPLIED (R435). -/
def execVbatApplied (vbat : Nat) (s : State) : Host.Outcome State Fault Refusal := carryOut (.vbatApplied vbat) s
/-- RESET_N_RELEASE (R438). -/
def execResetNRelease (s : State) : Host.Outcome State Fault Refusal := carryOut .resetNRelease s
/-- PCIE_LINK_UP (R381). -/
def execPcieLinkUp (speed width : Fin 8) (s : State) : Host.Outcome State Fault Refusal := carryOut (.pcieLinkUp speed width) s
/-- ROOT_STAGE_RETRY (R430). -/
def execRootStageRetry (s : State) : Host.Outcome State Fault Refusal := carryOut .rootStageRetry s
/-- NAVIGATION_DATA_DECODED (R102). -/
def execNavigationDataDecoded (c : ChanIx) (i : Fin 48) (d : NavData) (s : State) : Host.Outcome State Fault Refusal := carryOut (.navigationDataDecoded c i d) s
/-- POH_SECOND_COUNT (R414). -/
def execPohSecondCount (tj : Int) (va vb : Nat) (s : State) : Host.Outcome State Fault Refusal := carryOut (.pohSecondCount tj va vb) s

end Sys2Proof.Machine
end

