-- ==== Sys2Proof/Machine/Dispatch.lean ====
section
/-! DEFINITION. The effect of each command on the device: one arm for each constructor of Instr. -/
namespace Sys2Proof.Machine

/-- The effect of a command (spec/opcode_table.json). -/
def exec (i : Instr) (s : State) : Host.Outcome State Fault Refusal :=
  match i with
  | .registerWrite p addr v => Sys2Proof.Machine.execRegisterWrite p addr v s
  | .multiwordReadLatch p addr => Sys2Proof.Machine.execMultiwordReadLatch p addr s
  | .bookWindowStart => Sys2Proof.Machine.execBookWindowStart s
  | .bookRdGo p v => Sys2Proof.Machine.execBookRdGo p v s
  | .mirrorEnable p v => Sys2Proof.Machine.execMirrorEnable p v s
  | .refCommit p c v => Sys2Proof.Machine.execRefCommit p c v s
  | .dpllCommit p c v => Sys2Proof.Machine.execDpllCommit p c v s
  | .synCommit p c v => Sys2Proof.Machine.execSynCommit p c v s
  | .gnssCommit p c v => Sys2Proof.Machine.execGnssCommit p c v s
  | .portCommit p c v => Sys2Proof.Machine.execPortCommit p c v s
  | .schedCommit p c v => Sys2Proof.Machine.execSchedCommit p c v s
  | .sealCommit p c v => Sys2Proof.Machine.execSealCommit p c v s
  | .twinCommit p v => Sys2Proof.Machine.execTwinCommit p v s
  | .benchCommit p v => Sys2Proof.Machine.execBenchCommit p v s
  | .bCtlCommit p c v => Sys2Proof.Machine.execBCtlCommit p c v s
  | .clkgenCommit p v => Sys2Proof.Machine.execClkgenCommit p v s
  | .blockLock p b v => Sys2Proof.Machine.execBlockLock p b v s
  | .refinEdge c n ps => Sys2Proof.Machine.execRefinEdge c n ps s
  | .todSentenceRx c k bs ago => Sys2Proof.Machine.execTodSentenceRx c k bs ago s
  | .todSentenceWindowEnd c n => Sys2Proof.Machine.execTodSentenceWindowEnd c n s
  | .freqRecordBoundary c n freq off => Sys2Proof.Machine.execFreqRecordBoundary c n freq off s
  | .laneMissTimerExpiry c n => Sys2Proof.Machine.execLaneMissTimerExpiry c n s
  | .qualWindowExpiry c n => Sys2Proof.Machine.execQualWindowExpiry c n s
  | .wtrExpiry c n => Sys2Proof.Machine.execWtrExpiry c n s
  | .dqHoldExpiry c n => Sys2Proof.Machine.execDqHoldExpiry c n s
  | .laneForce p c n v => Sys2Proof.Machine.execLaneForce p c n v s
  | .laneUnforce p c n v => Sys2Proof.Machine.execLaneUnforce p c n v s
  | .laneRequal p c n v => Sys2Proof.Machine.execLaneRequal p c n v s
  | .laneClrStep p c n v => Sys2Proof.Machine.execLaneClrStep p c n v s
  | .selApprove p c v => Sys2Proof.Machine.execSelApprove p c v s
  | .selDeny p c v => Sys2Proof.Machine.execSelDeny p c v s
  | .utcAnnouncement c n a => Sys2Proof.Machine.execUtcAnnouncement c n a s
  | .leapEntWrite p c k v => Sys2Proof.Machine.execLeapEntWrite p c k v s
  | .sampleLinkFrame c comma bs => Sys2Proof.Machine.execSampleLinkFrame c comma bs s
  | .backChannelMessage c => Sys2Proof.Machine.execBackChannelMessage c s
  | .backChannelGo p c v => Sys2Proof.Machine.execBackChannelGo p c v s
  | .backChannelTimeout c => Sys2Proof.Machine.execBackChannelTimeout c s
  | .trkAssignment c i0 gal sv => Sys2Proof.Machine.execTrkAssignment c i0 gal sv s
  | .trkDetection c i0 => Sys2Proof.Machine.execTrkDetection c i0 s
  | .trkWindowExhausted c i0 => Sys2Proof.Machine.execTrkWindowExhausted c i0 s
  | .trkReassignHoldoffEnd c => Sys2Proof.Machine.execTrkReassignHoldoffEnd c s
  | .trkLock c i0 => Sys2Proof.Machine.execTrkLock c i0 s
  | .trkPullInTimeout c i0 => Sys2Proof.Machine.execTrkPullInTimeout c i0 s
  | .trkLockLost c i0 => Sys2Proof.Machine.execTrkLockLost c i0 s
  | .trkLostTimeout c i0 => Sys2Proof.Machine.execTrkLostTimeout c i0 s
  | .sidePeakGuard c i0 late => Sys2Proof.Machine.execSidePeakGuard c i0 late s
  | .notchLock c k lines => Sys2Proof.Machine.execNotchLock c k lines s
  | .notchRelease c v => Sys2Proof.Machine.execNotchRelease c v s
  | .jniUpdate c idle pq => Sys2Proof.Machine.execJniUpdate c idle pq s
  | .jamFloorCapture p c v => Sys2Proof.Machine.execJamFloorCapture p c v s
  | .jamFloorCaptureEnd c idle => Sys2Proof.Machine.execJamFloorCaptureEnd c idle s
  | .posSet p c v => Sys2Proof.Machine.execPosSet p c v s
  | .posClr p c v => Sys2Proof.Machine.execPosClr p c v s
  | .surveyFix c x y z => Sys2Proof.Machine.execSurveyFix c x y z s
  | .gnssEpochSample c ms => Sys2Proof.Machine.execGnssEpochSample c ms s
  | .gnssL8Record c => Sys2Proof.Machine.execGnssL8Record c s
  | .snapGo p c v => Sys2Proof.Machine.execSnapGo p c v s
  | .snapCaptureStart c ps => Sys2Proof.Machine.execSnapCaptureStart c ps s
  | .snapCaptureComplete c => Sys2Proof.Machine.execSnapCaptureComplete c s
  | .cmdSnapshotProcessing slot ms => Sys2Proof.Machine.execCmdSnapshotProcessing slot ms s
  | .cmdGnssSurvey slot => Sys2Proof.Machine.execCmdGnssSurvey slot s
  | .servoAApply c => Sys2Proof.Machine.execServoAApply c s
  | .servoBApply c => Sys2Proof.Machine.execServoBApply c s
  | .channelAcquireStart c => Sys2Proof.Machine.execChannelAcquireStart c s
  | .holdoverEntry c => Sys2Proof.Machine.execHoldoverEntry c s
  | .holdoverLimitEntry c => Sys2Proof.Machine.execHoldoverLimitEntry c s
  | .hoAgingIncrement c => Sys2Proof.Machine.execHoAgingIncrement c s
  | .cmdOscCharacterization slot => Sys2Proof.Machine.execCmdOscCharacterization slot s
  | .charSampleInstant c => Sys2Proof.Machine.execCharSampleInstant c s
  | .stepGo p c v => Sys2Proof.Machine.execStepGo p c v s
  | .stepAbsApply c => Sys2Proof.Machine.execStepAbsApply c s
  | .stepAbort p c v => Sys2Proof.Machine.execStepAbort p c v s
  | .vintageWrite c => Sys2Proof.Machine.execVintageWrite c s
  | .synCommitBoundary c k => Sys2Proof.Machine.execSynCommitBoundary c k s
  | .pulseCommitBoundary c => Sys2Proof.Machine.execPulseCommitBoundary c s
  | .synLockDeclared c k e => Sys2Proof.Machine.execSynLockDeclared c k e s
  | .synLockLost c k e => Sys2Proof.Machine.execSynLockLost c k e s
  | .synReferenceLoss c k => Sys2Proof.Machine.execSynReferenceLoss c k s
  | .synNolock c k => Sys2Proof.Machine.execSynNolock c k s
  | .synCoastReferenceReturn c k => Sys2Proof.Machine.execSynCoastReferenceReturn c k s
  | .pulseEdge c j => Sys2Proof.Machine.execPulseEdge c j s
  | .realignGo p c v => Sys2Proof.Machine.execRealignGo p c v s
  | .realignJumpSwitch c => Sys2Proof.Machine.execRealignJumpSwitch c s
  | .realignSlewDone c => Sys2Proof.Machine.execRealignSlewDone c s
  | .todSentenceSend c => Sys2Proof.Machine.execTodSentenceSend c s
  | .linkAnComplete c p peer rs br => Sys2Proof.Machine.execLinkAnComplete c p peer rs br s
  | .linkTrainingComplete c p => Sys2Proof.Machine.execLinkTrainingComplete c p s
  | .linkTrainingTimeout c p => Sys2Proof.Machine.execLinkTrainingTimeout c p s
  | .linkAlignLock c p vI vE => Sys2Proof.Machine.execLinkAlignLock c p vI vE s
  | .linkAlignTimeout c p => Sys2Proof.Machine.execLinkAlignTimeout c p s
  | .linkLoss c p => Sys2Proof.Machine.execLinkLoss c p s
  | .ptpDelayReqRx c p ps f bs => Sys2Proof.Machine.execPtpDelayReqRx c p ps f bs s
  | .ptpPdelayReqRx c p ps f bs => Sys2Proof.Machine.execPtpPdelayReqRx c p ps f bs s
  | .ptpSyncRx c p ps f bs => Sys2Proof.Machine.execPtpSyncRx c p ps f bs s
  | .ptpFollowUpRx c p bs => Sys2Proof.Machine.execPtpFollowUpRx c p bs s
  | .ptpDelayRespRx c p bs => Sys2Proof.Machine.execPtpDelayRespRx c p bs s
  | .ptpPdelayRespRx c p ps f bs => Sys2Proof.Machine.execPtpPdelayRespRx c p ps f bs s
  | .ptpAnnounceRx c p bs => Sys2Proof.Machine.execPtpAnnounceRx c p bs s
  | .ptpSignalingRx c p bs => Sys2Proof.Machine.execPtpSignalingRx c p bs s
  | .ntpRequestRx c p ps f bs => Sys2Proof.Machine.execNtpRequestRx c p ps f bs s
  | .ntpMacRequestRx c p ps f bs => Sys2Proof.Machine.execNtpMacRequestRx c p ps f bs s
  | .ntsRequestRx c p ps f bs => Sys2Proof.Machine.execNtsRequestRx c p ps f bs s
  | .exceptionFrameRx c p bs => Sys2Proof.Machine.execExceptionFrameRx c p bs s
  | .unsupportedFrameRx c p bs => Sys2Proof.Machine.execUnsupportedFrameRx c p bs s
  | .notMineFrameRx c p bs => Sys2Proof.Machine.execNotMineFrameRx c p bs s
  | .transitFrameRx c p ps f bs => Sys2Proof.Machine.execTransitFrameRx c p ps f bs s
  | .pauseFrameRx c p len => Sys2Proof.Machine.execPauseFrameRx c p len s
  | .oversizeFrameRx c p len => Sys2Proof.Machine.execOversizeFrameRx c p len s
  | .egressCommit c p ps f => Sys2Proof.Machine.execEgressCommit c p ps f s
  | .synceRecord c p freq off => Sys2Proof.Machine.execSynceRecord c p freq off s
  | .esmcPduRx c p ql len => Sys2Proof.Machine.execEsmcPduRx c p ql len s
  | .esmcQlLostExpiry c p => Sys2Proof.Machine.execEsmcQlLostExpiry c p s
  | .esmcInfoPduSend c p => Sys2Proof.Machine.execEsmcInfoPduSend c p s
  | .unicastDueMessage c i0 ann => Sys2Proof.Machine.execUnicastDueMessage c i0 ann s
  | .multicastDueMessage c p ann => Sys2Proof.Machine.execMulticastDueMessage c p ann s
  | .pdelayReqDue c p => Sys2Proof.Machine.execPdelayReqDue c p s
  | .laneDelayReqDue c p => Sys2Proof.Machine.execLaneDelayReqDue c p s
  | .laneClientNegotiate c p => Sys2Proof.Machine.execLaneClientNegotiate c p s
  | .grantExpiry c i0 => Sys2Proof.Machine.execGrantExpiry c i0 s
  | .exceptionCoreResponse c => Sys2Proof.Machine.execExceptionCoreResponse c s
  | .ctRevoke p c v => Sys2Proof.Machine.execCtRevoke p c v s
  | .cmdCookieMint slot req => Sys2Proof.Machine.execCmdCookieMint slot req s
  | .polCmdGo p c v => Sys2Proof.Machine.execPolCmdGo p c v s
  | .gateListBoundary c p => Sys2Proof.Machine.execGateListBoundary c p s
  | .gateSwap h c p v => Sys2Proof.Machine.execGateSwap h c p v s
  | .gateCancel h c p v => Sys2Proof.Machine.execGateCancel h c p v s
  | .gateListSwitch c p => Sys2Proof.Machine.execGateListSwitch c p s
  | .queueSample c p => Sys2Proof.Machine.execQueueSample c p s
  | .hostTxFrameTake c p => Sys2Proof.Machine.execHostTxFrameTake c p s
  | .claimRoundStart fell => Sys2Proof.Machine.execClaimRoundStart fell s
  | .claimRoundEnd w stuck noStart => Sys2Proof.Machine.execClaimRoundEnd w stuck noStart s
  | .outputContention c => Sys2Proof.Machine.execOutputContention c s
  | .heartbeatSend ps0 ps1 => Sys2Proof.Machine.execHeartbeatSend ps0 ps1 s
  | .hbFrameRx lane bs ps => Sys2Proof.Machine.execHbFrameRx lane bs ps s
  | .hbWordRx w => Sys2Proof.Machine.execHbWordRx w s
  | .heartbeatMissExpiry pathB => Sys2Proof.Machine.execHeartbeatMissExpiry pathB s
  | .bootWaitExpiry => Sys2Proof.Machine.execBootWaitExpiry s
  | .twinFence p v => Sys2Proof.Machine.execTwinFence p v s
  | .twinUnfence p v => Sys2Proof.Machine.execTwinUnfence p v s
  | .rackChannelComplete c => Sys2Proof.Machine.execRackChannelComplete c s
  | .claimConditionMet => Sys2Proof.Machine.execClaimConditionMet s
  | .twinLaneSync lane up => Sys2Proof.Machine.execTwinLaneSync lane up s
  | .twinTimeFrameSend c ps => Sys2Proof.Machine.execTwinTimeFrameSend c ps s
  | .twinTimeFrameRx lane bs ps => Sys2Proof.Machine.execTwinTimeFrameRx lane bs ps s
  | .jourFrameRx lane f => Sys2Proof.Machine.execJourFrameRx lane f s
  | .clientFrameRx lane bs => Sys2Proof.Machine.execClientFrameRx lane bs s
  | .vintFrameRx lane f => Sys2Proof.Machine.execVintFrameRx lane f s
  | .resyncFrameRx lane bs => Sys2Proof.Machine.execResyncFrameRx lane bs s
  | .drillFrameRx lane bs => Sys2Proof.Machine.execDrillFrameRx lane bs s
  | .cmdRackingDrill slot => Sys2Proof.Machine.execCmdRackingDrill slot s
  | .drillRequestSend => Sys2Proof.Machine.execDrillRequestSend s
  | .drillClaimInstant => Sys2Proof.Machine.execDrillClaimInstant s
  | .drillTimeout => Sys2Proof.Machine.execDrillTimeout s
  | .benchLinkSync c x => Sys2Proof.Machine.execBenchLinkSync c x s
  | .benchHelloSend c x ps => Sys2Proof.Machine.execBenchHelloSend c x ps s
  | .benchHelloRx c x bs ps => Sys2Proof.Machine.execBenchHelloRx c x bs ps s
  | .benchHelloTimeout c x lost => Sys2Proof.Machine.execBenchHelloTimeout c x lost s
  | .lsaSend => Sys2Proof.Machine.execLsaSend s
  | .lsaRx c x bs => Sys2Proof.Machine.execLsaRx c x bs s
  | .lsaHoldExpiry devid => Sys2Proof.Machine.execLsaHoldExpiry devid s
  | .routeComputation => Sys2Proof.Machine.execRouteComputation s
  | .benchTimeSend c ps0 ps1 => Sys2Proof.Machine.execBenchTimeSend c ps0 ps1 s
  | .benchTimeRx c x bs ps residence => Sys2Proof.Machine.execBenchTimeRx c x bs ps residence s
  | .peerSlotExpiry c x i0 => Sys2Proof.Machine.execPeerSlotExpiry c x i0 s
  | .ensembleEvaluation c x => Sys2Proof.Machine.execEnsembleEvaluation c x s
  | .benchCalGo p v => Sys2Proof.Machine.execBenchCalGo p v s
  | .benchCalDone ab ba => Sys2Proof.Machine.execBenchCalDone ab ba s
  | .cmdImageLoadStage slot data => Sys2Proof.Machine.execCmdImageLoadStage slot data s
  | .cmdImageLoadRun slot data => Sys2Proof.Machine.execCmdImageLoadRun slot data s
  | .cmdImageLoadDevice slot images => Sys2Proof.Machine.execCmdImageLoadDevice slot images s
  | .imageStreamWrite p v => Sys2Proof.Machine.execImageStreamWrite p v s
  | .reconfigEntry c => Sys2Proof.Machine.execReconfigEntry c s
  | .reconfigApplyComplete c => Sys2Proof.Machine.execReconfigApplyComplete c s
  | .commonImageApply => Sys2Proof.Machine.execCommonImageApply s
  | .channelGate p c v => Sys2Proof.Machine.execChannelGate p c v s
  | .channelUngate p c v => Sys2Proof.Machine.execChannelUngate p c v s
  | .channelReset p c v => Sys2Proof.Machine.execChannelReset p c v s
  | .channelPowerDownDone c => Sys2Proof.Machine.execChannelPowerDownDone c s
  | .channelPowerUpDone c => Sys2Proof.Machine.execChannelPowerUpDone c s
  | .kumInstall p v => Sys2Proof.Machine.execKumInstall p v s
  | .kumReplace p v => Sys2Proof.Machine.execKumReplace p v s
  | .kumInvalidate p v => Sys2Proof.Machine.execKumInvalidate p v s
  | .kumRecover p v => Sys2Proof.Machine.execKumRecover p v s
  | .kumTcfg p v => Sys2Proof.Machine.execKumTcfg p v s
  | .kumCommitPoint written => Sys2Proof.Machine.execKumCommitPoint written s
  | .attestationQuote p v => Sys2Proof.Machine.execAttestationQuote p v s
  | .attestationQuoteDone => Sys2Proof.Machine.execAttestationQuoteDone s
  | .cmdKeyBatch slot kums => Sys2Proof.Machine.execCmdKeyBatch slot kums s
  | .tamperSample t => Sys2Proof.Machine.execTamperSample t s
  | .faultDetection n => Sys2Proof.Machine.execFaultDetection n s
  | .safeEnter p v => Sys2Proof.Machine.execSafeEnter p v s
  | .safeExit p v => Sys2Proof.Machine.execSafeExit p v s
  | .injectionGo p v => Sys2Proof.Machine.execInjectionGo p v s
  | .injectedDetection => Sys2Proof.Machine.execInjectedDetection s
  | .injectionNoCheckTimeout => Sys2Proof.Machine.execInjectionNoCheckTimeout s
  | .clkGateForce c blk => Sys2Proof.Machine.execClkGateForce c blk s
  | .clkSwitchComplete c blk how => Sys2Proof.Machine.execClkSwitchComplete c blk how s
  | .cmdSubmit p v => Sys2Proof.Machine.execCmdSubmit p v s
  | .cmdRelease p v => Sys2Proof.Machine.execCmdRelease p v s
  | .cmdStart slot => Sys2Proof.Machine.execCmdStart slot s
  | .cmdComplete slot dmaFailed => Sys2Proof.Machine.execCmdComplete slot dmaFailed s
  | .cmdTimeout slot => Sys2Proof.Machine.execCmdTimeout slot s
  | .cmdSuspend slot => Sys2Proof.Machine.execCmdSuspend slot s
  | .cmdResume slot => Sys2Proof.Machine.execCmdResume slot s
  | .cmdCancel slot => Sys2Proof.Machine.execCmdCancel slot s
  | .cmdSelfTest slot => Sys2Proof.Machine.execCmdSelfTest slot s
  | .cmdTallyExport slot => Sys2Proof.Machine.execCmdTallyExport slot s
  | .pcieLinkDown => Sys2Proof.Machine.execPcieLinkDown s
  | .pcieFlr => Sys2Proof.Machine.execPcieFlr s
  | .winMemWrite p addr v => Sys2Proof.Machine.execWinMemWrite p addr v s
  | .mspiRegisterRead bs => Sys2Proof.Machine.execMspiRegisterRead bs s
  | .mspiRegisterWrite bs => Sys2Proof.Machine.execMspiRegisterWrite bs s
  | .mspiMemoryRead bs => Sys2Proof.Machine.execMspiMemoryRead bs s
  | .mspiMemoryWrite bs => Sys2Proof.Machine.execMspiMemoryWrite bs s
  | .mspiScanEntry bs => Sys2Proof.Machine.execMspiScanEntry bs s
  | .mspiBallDrive bs => Sys2Proof.Machine.execMspiBallDrive bs s
  | .mspiBallSense bs level => Sys2Proof.Machine.execMspiBallSense bs level s
  | .pmuTdSnap p c v => Sys2Proof.Machine.execPmuTdSnap p c v s
  | .pmuCounterWrap c smp => Sys2Proof.Machine.execPmuCounterWrap c smp s
  | .bwWindowEnd c => Sys2Proof.Machine.execBwWindowEnd c s
  | .bwCfgWrite p c v => Sys2Proof.Machine.execBwCfgWrite p c v s
  | .pkClrWrite h c p v => Sys2Proof.Machine.execPkClrWrite h c p v s
  | .tallyUpdateStart => Sys2Proof.Machine.execTallyUpdateStart s
  | .tallyUpdNow p v => Sys2Proof.Machine.execTallyUpdNow p v s
  | .tallyUpdateCommit => Sys2Proof.Machine.execTallyUpdateCommit s
  | .moscDetect count => Sys2Proof.Machine.execMoscDetect count s
  | .moscLost => Sys2Proof.Machine.execMoscLost s
  | .moscReturn => Sys2Proof.Machine.execMoscReturn s
  | .rootLock r => Sys2Proof.Machine.execRootLock r s
  | .rootLockLost r => Sys2Proof.Machine.execRootLockLost r s
  | .feedBad b mv => Sys2Proof.Machine.execFeedBad b mv s
  | .feedGood b mv => Sys2Proof.Machine.execFeedGood b mv s
  | .feedCheckStart b => Sys2Proof.Machine.execFeedCheckStart b s
  | .feedCheckComplete min limit => Sys2Proof.Machine.execFeedCheckComplete min limit s
  | .powerOn b mv => Sys2Proof.Machine.execPowerOn b mv s
  | .powerFail vbat => Sys2Proof.Machine.execPowerFail vbat s
  | .vbatLoss => Sys2Proof.Machine.execVbatLoss s
  | .pinReset => Sys2Proof.Machine.execPinReset s
  | .stageRailsDone bootsel => Sys2Proof.Machine.execStageRailsDone bootsel s
  | .stageRootDone how => Sys2Proof.Machine.execStageRootDone how s
  | .stageFeedchkDone => Sys2Proof.Machine.execStageFeedchkDone s
  | .stageVaultDone => Sys2Proof.Machine.execStageVaultDone s
  | .stageDone => Sys2Proof.Machine.execStageDone s
  | .counterAdvance => Sys2Proof.Machine.execCounterAdvance s
  | .vbatApplied vbat => Sys2Proof.Machine.execVbatApplied vbat s
  | .resetNRelease => Sys2Proof.Machine.execResetNRelease s
  | .pcieLinkUp speed width => Sys2Proof.Machine.execPcieLinkUp speed width s
  | .rootStageRetry => Sys2Proof.Machine.execRootStageRetry s
  | .navigationDataDecoded c i0 d => Sys2Proof.Machine.execNavigationDataDecoded c i0 d s
  | .pohSecondCount tj va vb => Sys2Proof.Machine.execPohSecondCount tj va vb s

end Sys2Proof.Machine
end

