-- ==== Sys2Proof/Safety.lean ====
section
/-! DEFINITION. What claims say of runs: the canonical form of the addressed memory, commands that complete, and runs that stop nowhere. -/
namespace Sys2Proof.Machine

/-- The canonical form of the bytes of the host transmit rings: addresses rise, and no entry holds what an unlisted byte reads as. -/
def Memory.wf (m : List (Nat × Byte)) : Bool := smWf (fun _ => 0#8) m

/-- One byte of the host transmit rings, by its offset in WIN_MEM. -/
def State.htxAt (s : State) (addr : Nat) : Byte := smGet 0#8 s.host.htx addr

/-- In its turn (no command of the tick is held, and none of the queue comes before it) the command `i` completes on `s`, and `p` holds of
the next state. -/
def Completes (i : Instr) (s : State) (p : State → Prop) : Prop := s.turn i → ∃ t, exec i s = .next t ∧ p t

/-- Entries of the cellar book, newest first, each of which numbers and hashes the one written before it (R395, R397). -/
def linked : List BookEnt → Prop
  | e :: f :: r => e.seq = f.seq + 1 ∧ e.link = (sha384 f.bytes).take 16 ∧ linked (f :: r)
  | _ => True

/-- A cellar book whose ring holds at most its 32,768 entries, is linked, and ends at the SEQ before the next (R394, R395, R397). -/
def BookSt.chained (b : BookSt) : Prop := b.ring.length ≤ 32768 ∧ linked b.ring ∧ ∀ e ∈ b.ring.head?, b.next = e.seq + 1

/-- `c` is `b` with entries added, the ring's capacity apart (R394): none is changed and none is taken out. -/
def BookSt.grows (b c : BookSt) : Prop := ∃ new : List BookEnt, c.ring = (new ++ b.ring).take 32768 ∧ c.next = b.next + new.length

/-- The parts of a channel: its blocks' state with their registers, the journal, the lanes L13 to L15, the episodes of the tally, the
free values drawn, and what it asks of the common complex. -/
inductive ChPart
  | ref | dpll | scale | jour | syn | gnss | sched | port | sealb | pmu | bench | ens | tprev | epi | free | asks
  deriving DecidableEq, Repr

/-- A part of a channel is as it was. -/
def Channel.same (q : ChPart) (c d : Channel) : Prop :=
  match q with
  | .ref => d.ref = c.ref ∧ d.regs.ref = c.regs.ref
  | .dpll => d.dpll = c.dpll ∧ d.regs.dpll = c.regs.dpll
  | .scale => d.scale = c.scale
  | .jour => d.jour = c.jour
  | .syn => d.syn = c.syn ∧ d.regs.syn = c.regs.syn
  | .gnss => d.gnss = c.gnss ∧ d.regs.gnss = c.regs.gnss
  | .sched => d.sched = c.sched ∧ d.regs.sched = c.regs.sched
  | .port => d.ports = c.ports ∧ d.regs.port = c.regs.port
  | .sealb => d.sealb = c.sealb ∧ d.regs.sealb = c.regs.sealb
  | .pmu => d.pmu = c.pmu ∧ d.regs.pmu = c.regs.pmu
  | .bench => d.ends = c.ends ∧ d.regs.chctl = c.regs.chctl
  | .ens => d.ens = c.ens
  | .tprev => d.tprev = c.tprev
  | .epi => d.epi = c.epi
  | .free => d.freeCtr = c.freeCtr
  | .asks => d.effs = c.effs

/-- Nothing of a channel has changed but the parts named: the frame of an operation on a channel. -/
def Channel.onlyIn (ps : List ChPart) (c d : Channel) : Prop :=
  d.ix = c.ix ∧ d.topo = c.topo ∧ d.drive = c.drive ∧ d.safe = c.safe ∧ ∀ q, q ∉ ps → Channel.same q c d

/-- The part that holds a block's registers. -/
def KB.part : KB → ChPart
  | .ref => .ref | .dpll => .dpll | .syn => .syn | .gnss => .gnss | .port => .port | .sched => .sched | .sealb => .sealb | .pmu => .pmu
  | .chctl => .bench

/-- The parts of the device outside its fuses and its queue: the common tick, the blocks of the common complex with their registers, the
host transmit rings, the channels, the free values drawn, and what the last command sent out. -/
inductive StPart
  | tick | hostif | mem | cmdq | fault | vault | book | tally | twin | bench | clkgen | pwr | image | ch | free | out
  deriving DecidableEq, Repr

/-- A part of the device is as it was. -/
def State.same (q : StPart) (s t : State) : Prop :=
  match q with
  | .tick => t.tick = s.tick
  | .hostif => t.host.sent = s.host.sent ∧ t.host.took = s.host.took ∧ t.regs.hostif = s.regs.hostif
  | .mem => t.host.htx = s.host.htx
  | .cmdq => t.cmdq = s.cmdq ∧ t.regs.cmdq = s.regs.cmdq
  | .fault => t.fault = s.fault ∧ t.regs.fault = s.regs.fault
  | .vault => t.vault = s.vault ∧ t.regs.vault = s.regs.vault
  | .book => t.book = s.book ∧ t.regs.book = s.regs.book
  | .tally => t.tally = s.tally ∧ t.regs.tally = s.regs.tally
  | .twin => t.twin = s.twin ∧ t.regs.twin = s.regs.twin
  | .bench => t.router = s.router ∧ t.regs.bench = s.regs.bench
  | .clkgen => t.regs.clkgen = s.regs.clkgen
  | .pwr => t.pwr = s.pwr ∧ t.regs.pwr = s.regs.pwr
  | .image => t.img = s.img ∧ t.loader = s.loader ∧ t.regs.image = s.regs.image
  | .ch => t.ch = s.ch
  | .free => t.freeCtr = s.freeCtr
  | .out => t.out = s.out

/-- Nothing of the device has changed but the parts named, and the commands that wait are the same: the frame of an operation on the device. -/
def State.onlyIn (ps : List StPart) (s t : State) : Prop :=
  t.fuse = s.fuse ∧ t.pending = s.pending ∧ t.held = s.held ∧ ∀ q, q ∉ ps → State.same q s t

/-- The part that holds a block's registers. -/
def CB.part : CB → StPart
  | .hostif => .hostif | .cmdq => .cmdq | .fault => .fault | .vault => .vault | .book => .book | .tally => .tally | .twin => .twin
  | .bench => .bench | .clkgen => .clkgen | .pwr => .pwr | .image => .image

/-- In its turn (no command of the tick is held, and none of the queue comes before it) the command `i` completes on `s`: its own effect
leads to a state `u` with `p`, and the next state is what follows `u`. -/
def Acts (i : Instr) (s : State) (p : State → Prop) : Prop := s.turn i → ∃ u, p u ∧ exec i s = .next (s.clear.follow u)

/-- In its turn the command `i` completes on `s` in channel `n`: its own effect leads the channel to a `d` with `p`, everything outside the channel is
as it was, and the next state is what follows. -/
def ActsOn (i : Instr) (s : State) (n : ChanIx) (p : Channel → Prop) : Prop :=
  s.turn i → ∃ d, p d ∧ exec i s = .next (s.clear.follow (s.clear.setCh n (Channel.settle s.ch[n] d)))

/-- A channel in RUN takes commands: the device is not in scan mode (R439) and the channel is present (R327). -/
def State.live (s : State) (n : ChanIx) : Prop := s.scanning = false ∧ s.running n = true

/-- A host path reaches the registers: it is up, and the device is neither in scan mode nor in the safe state (R370, R381, R439). -/
def State.open (s : State) (p : HostPath) : Prop := s.scanning = false ∧ s.pathUp p = true ∧ s.safe = false

/-- No clock root has CORE 400 MHz with BUS 800 MHz in use or due with the next tick, the one pair that R428 rules out. -/
def State.rated (s : State) : Prop :=
  ∀ r : Fin 5, getField (s.guse .clkgen (CLKGEN_ROOT_CFG r.val)) 0 2 ≠ 3 ∧
    ∀ e ∈ s.regs.clkgen.next, e.1 = CLKGEN_ROOT_CFG r.val → getField e.2 0 2 ≠ 3

/-- The state to which the queued commands lead, one step for each, and none where one of them stops. -/
def State.runQueue : Nat → State → Option State
  | 0, s => some s
  | n + 1, s => match step s with
    | .next t => t.runQueue n
    | .fault _ => none
    | .refused _ => none

/-- A run of the whole queue that stops nowhere. -/
def State.safeRun (s : State) : Prop := (s.runQueue s.pending.length).isSome

end Sys2Proof.Machine
end

