-- ==== Sys2Proof/Claims.lean ====
section
/-! DEFINITION. More of what claims say of a command's effect: a channel changed among the others. -/
namespace Sys2Proof.Machine

/-- Of the channels only `n` has changed: it became a `d` with `p`, and settled. -/
def State.changed (s u : State) (n : ChanIx) (p : Channel → Prop) : Prop :=
  ∃ d, p d ∧ u.ch[n] = Channel.settle s.ch[n] d ∧ ∀ m : ChanIx, m ≠ n → u.ch[m] = s.ch[m]

/-- What a commit of a channel's block, or of a common one, copies and checks (R12): its shadows as the stored words of the block. -/
def Channel.copies (c : Channel) (b : KB) (ctl : Nat) : Channel := c.trial b (c.shadows b ctl)
def State.copies (s : State) (b : CB) : State := s.setRf b { s.rf b with cur := s.gShadows b, pre := [] }

/-- From `c` to `d` a record with `p` was measured, whose registration comes `lat` ticks later (R28, R75). -/
def Channel.measures (c d : Channel) (lat : Nat) (p : MeasRec → Prop) : Prop :=
  ∃ r, d.ref.measured = c.ref.measured ++ [(c.jour.tick + lat, r)] ∧ p r

/-- The record `r` has been registered in `d`: a MEAS entry of its lane and stamp has been journaled. -/
def Channel.hasRegistered (d : Channel) (r : MeasRec) : Prop :=
  ∃ e m, Eff.jour e ∈ d.effs ∧ e.body = .meas m ∧ m.lane = r.lane ∧ m.refTs = r.refTs ∧ m.freq = r.freq ∧ m.fb = r.fb ∧
    m.phaseOnly = r.phaseOnly ∧ m.freqOnly = r.freqOnly

/-- From `c` to `d` a record with `p` is registered on lane `n` (R73, R75): it carries the lane's SEQ, which advances, and is journaled. -/
def Channel.registers (c d : Channel) (n : LaneIx) (p : MeasRec → Prop) : Prop :=
  (d.lane n).seq = wrapInc 16 (c.lane n).seq ∧ (∀ m : LaneIx, m ≠ n → (d.lane m).seq = (c.lane m).seq) ∧
  ∃ (e : JEntry) (r : MeasRec), Eff.jour e ∈ d.effs ∧ e.body = .meas r ∧ r.lane = n ∧ r.seq = (c.lane n).seq ∧ p r

/-- A lane as an evaluation of the ranks leaves it (R81, R84 to R86): its state moves at most between QUALIFIED and CONTESTED, and nothing
else changes but its outlier marks. -/
def Lane.evaluated (l m : Lane) : Prop :=
  { m with st := l.st, outA := l.outA, outB := l.outB, outCntA := l.outCntA, outCntB := l.outCntB } = l ∧
  (m.st = l.st ∨ ((l.st = .qualified ∨ l.st = .contested) ∧ (m.st = .qualified ∨ m.st = .contested)))

/-- The word of a register's values in use from the next tick on (R12, R47, R182, R232, R251). -/
def Channel.dueWord (d : Channel) (b : KB) (k : Nat) : Word := smGet (kbRst b k) ((d.rf b).endTick (kbRst b)).use k

/-- Of a block's registers in a channel only the fields `fs` may have changed, and no value in use. -/
def Channel.keeps (b : KB) (fs : List KF) (c d : Channel) : Prop :=
  (∀ k, d.useWord b k = c.useWord b k) ∧
  ∀ g : KF, g.blk = b → (∀ f ∈ fs, f.off ≠ g.off ∨ f.lsb + f.w ≤ g.lsb ∨ g.lsb + g.w ≤ f.lsb) → d.cur g = c.cur g

/-- Of a common block's registers only the fields `fs` may have changed, and no value in use. -/
def State.keeps (b : CB) (fs : List GF) (s t : State) : Prop :=
  (∀ k, t.guse b k = s.guse b k) ∧
  ∀ g : GF, g.blk = b → (∀ f ∈ fs, f.off ≠ g.off ∨ f.lsb + f.w ≤ g.lsb ∨ g.lsb + g.w ≤ f.lsb) → t.gcur g = s.gcur g

/-- From `s` to `u` the command in a slot has ended with a RESULT and RDATA (R391, R392): its slot holds them, ENDED and the events are set,
it is in the queue no more, and no other slot's state has changed. -/
def State.ended (s u : State) (slot res rdata : Nat) : Prop :=
  u.cmdState slot = endState res ∧ getField (u.gword .cmdq (CMDQ_SLOT slot 14)) 8 8 = res ∧ u.gword .cmdq (CMDQ_SLOT slot 15) = BitVec.ofNat 32 rdata ∧
  bit (u.gword .cmdq (CMDQ_ENDED (slot / 32))) (slot % 32) = true ∧ u.gcur F.CMDQ_EVT_END = 1 ∧ (res ≠ RES_OK → u.gcur F.CMDQ_EVT_FAIL = 1) ∧
  u.cmdq.cmds = s.cmdq.cmds.filter (fun x => x.slot != slot) ∧ (slot < 64 → ∀ k, k < 64 → k ≠ slot → u.cmdState k = s.cmdState k)

/-- A frame of bytes between the twins that is not discarded (R281): its length and FCS, and the LEN and CH of its TYPE. -/
def twinSound (bs : Bytes) : Prop :=
  let t := leAt bs 0 1
  let len := leAt bs 2 2
  bs.length = 20 + len ∧ leAt bs (16 + len) 4 = crc32 (bs.take (16 + len)) ∧
  len = (match t with | 1 => 64 | 4 => 132 | 5 => 40 | 6 => 4 | 7 => 4 | _ => 0) ∧
  if t = 1 ∨ t = 7 then leAt bs 1 1 = 0xFF else leAt bs 1 1 < 4

/-- From `s` to `u` every volatile state outside PWR has gone to its reset value, and what is fused, non-volatile or held in the tamper domain
is as it was (R438), but that the cellar book has taken the changes that its writer held (R400): the fuses, EPOCH, the SVN floors, the book, the tally's copies, the vault's slots, the vintages; with `last` LAST_RESET. -/
def State.wiped (s u : State) (last : Bool) : Prop :=
  let kept : List (CB × Nat) := [(.twin, TWIN_EPOCH), (.image, IMAGE_SVN_CMN), (.image, IMAGE_SVN_CH)]
  u.tick = 0 ∧ u.fuse = s.fuse ∧ u.pending = s.pending ∧ u.held = s.held ∧ u.freeCtr = s.bookSave.freeCtr ∧
  (∀ n : ChanIx, u.ch[n] = Channel.reset n Topo.none false false s.ch[n].freeCtr ∧ u.img[n] = .reset) ∧
  u.loader = ⟨[], none⟩ ∧ u.host = ⟨[], [], []⟩ ∧ u.cmdq = ⟨[], 0⟩ ∧ u.fault = ⟨none, [], [], [], none, false⟩ ∧ u.router = .reset ∧
  u.twin = { TwinSt.reset with nvRing := s.twin.nvRing, nvNext := s.twin.nvNext } ∧ u.book = { s.bookSave.book with count := 0 } ∧ s.book.grows u.book ∧ u.book.buf = [] ∧ u.book.acc = [] ∧
  u.tally.copyA = s.tally.copyA ∧ u.tally.copyB = s.tally.copyB ∧ u.tally.upd = none ∧ u.tally.lastUpd = none ∧
  (∀ b k, u.guse b k = gbRst b k) ∧ (∀ r ∈ kept, u.gword r.1 r.2 = s.gword r.1 r.2) ∧
  ∀ b k, b ≠ .pwr → (b, k) ∉ kept → (last = true → (b, k) ≠ (.fault, FAULT_LAST_RESET)) → u.gword b k = gbRst b k

end Sys2Proof.Machine
end

