-- ==== Sys2Proof/Certificates/Slice0/Obligations.lean ====
section
/-! DEFINITION. The statements about the block, for the provers: what each command does, what it leaves as it is, where it completes,
and what every step keeps. Rules R<n> are those of spec/. -/
section
open Sys2Proof Sys2Proof.Machine

/-! ### The machine as a whole -/

/-- A step carries out the command at the front of the queue on the device with the rest of the queue; without a command the device
stays as it is (notes/assumptions/2.md, the model's choice). -/
def Obligations.StepRunsTheFrontCommand : Prop :=
  (∀ (i : Instr) (rest : List Instr) (s : State), step { s with pending := i :: rest } = exec i { s with pending := rest }) ∧
  ∀ s : State, s.pending = [] → step s = .next s

/-- The device at the start of its first power-on (R440, R446): stage RAILS, no command waits, every channel EMPTY, the vault empty and
unowned (R347), every register at its reset word, but for RST_CAUSE, which tells of the power-on (R438). -/
def Obligations.ResetStateIsThePowerOnState : Prop :=
  let s := State.reset
  s.pending = [] ∧ s.held = [] ∧ s.stage = BOOT_RAILS ∧ s.safe = false ∧ s.scanning = false ∧ (∀ n : ChanIx, s.chSt n = CH_EMPTY) ∧
  s.vault.slots = [] ∧ s.vault.own = 0 ∧ s.vault.kcnt = 0 ∧ s.book.ring = [] ∧ s.book.next = 1 ∧
  (∀ (b : CB) (off : Nat), b ≠ .pwr ∨ off ≠ PWR_RST_CAUSE → s.gword b off = gbRst b off) ∧ s.gword .pwr PWR_RST_CAUSE = 1#32 ∧
  (∀ (b : CB) (off : Nat), s.guse b off = gbRst b off) ∧
  ∀ (n : ChanIx) (b : KB) (off : Nat), (s.ch[n]).word b off = kbRst b off ∧ (s.ch[n]).useWord b off = kbRst b off

/-- What every step keeps: the canonical form of the addressed memory; a cellar book of at most 32,768 entries, each of which numbers and
hashes the one before it, and to which a step only adds (R394, R395, R397); the fuses; the free values drawn, which are never drawn
again; the queue, of which the front is gone. -/
def Obligations.EveryStepKeepsBookMemoryAndFuses : Prop :=
  ∀ s t : State, Memory.wf s.host.htx = true → s.book.chained → step s = .next t →
    Memory.wf t.host.htx = true ∧ t.book.chained ∧ s.book.grows t.book ∧ t.fuse = s.fuse ∧ s.freeCtr ≤ t.freeCtr ∧ t.pending = s.pending.tail

/-- The state after reset has the canonical memory, the chained book and legal clock rates. -/
def Obligations.ResetHasWhatStepsKeep : Prop :=
  Memory.wf State.reset.host.htx = true ∧ State.reset.book.chained ∧ State.reset.rated

/-- Every command of the table has its meaning: it leads to a next state, but for one that may change the clock rates, or that releases
such a command, and would run a root outside the limits of R428, whose behaviour the manual calls undefined; that one stops. -/
def Obligations.OnlyRateChangesStop : Prop :=
  ∀ (i : Instr) (s : State), (∃ t, exec i s = .next t) ∨
    (exec i s = .fault .ratioLimit ∧ (∃ h ∈ i :: s.held, mayRate h = true) ∧ s.scanning = false)

/-- While no root has the rates in use that R428 rules out, every command but those that may bring CLKGEN settings into use or power a
root up leads to a next state, in which no root has them either (R428, R429), where no such command is held; and a queue without such
commands runs to its end. -/
def Obligations.LegalClockRatesAreKept : Prop :=
  (∀ (i : Instr) (s : State), s.rated → (∀ h ∈ i :: s.held, mayRate h = false) → ∃ t, exec i s = .next t ∧ t.rated) ∧
  ∀ s : State, s.rated → (∀ h ∈ s.held ++ s.pending, mayRate h = false) → s.safeRun

/-- The commands of one tick act in the order of their chapters (R30 to R32). One that comes before its turn is held; in its turn a command
acts at once, and COUNTER_ADVANCE, which ends the tick, first lets every held command act. A command waits for one of its tick that is
held or still in the queue and precedes it. Of this order: an arrival of the tick precedes an expiry (R30, R267), LANE_CMD precedes SEL_CMD
and that precedes COMMIT, a lane's miss timer its window's and lanes ascend (R81), servo A precedes servo B (R127), and, in a step, a
PCIe access precedes an MSPI access (R386). With nothing held and an empty queue it is every command's turn. -/
def Obligations.CommandsOfATickActInOrder : Prop :=
  (∀ (i : Instr) (s : State), s.rated → s.waits i = true → exec i s = .next { s with out := [], held := s.holdIn i s.held }) ∧
  (∀ (i : Instr) (s : State), s.turn i → mayRate i = false → exec i s = .next (State.act i s.clear)) ∧
  (∀ s : State, (∀ h ∈ s.held, mayRate h = false) →
    exec .counterAdvance s = .next (State.act .counterAdvance (s.held.foldl (fun x h => State.act h x) { s with out := [], held := [] }))) ∧
  (∀ (i a : Instr) (s : State), a ∈ s.held ∨ a ∈ s.window → s.precedes a i = true → s.waits i = true) ∧
  (∀ (i : Instr) (s : State), s.held = [] → s.pending = [] → s.turn i) ∧
  ∀ (s : State),
    (∀ (c : ChanIx) (p q : HostPath) (n : LaneIx) (k : Fin 2) (v w : Word), s.running c = true →
      s.precedes (.hbFrameRx k [] 0) (.heartbeatMissExpiry false) = true ∧ s.precedes (.hbWordRx v) (.heartbeatMissExpiry true) = true ∧
      s.precedes (.laneForce p c n v) (.selApprove q c w) = true ∧ s.precedes (.selApprove p c v) (.refCommit q c w) = true ∧
      s.precedes (.laneMissTimerExpiry c n) (.wtrExpiry c n) = true ∧
      (∀ m : LaneIx, n < m → s.precedes (.qualWindowExpiry c n) (.laneMissTimerExpiry c m) = true) ∧
      s.precedes (.servoAApply c) (.servoBApply c) = true) ∧
    ∀ (rid : BitVec 16) (a : Nat) (bs : Bytes), s.precedes (.multiwordReadLatch (.pcie rid) a) (.mspiRegisterRead bs) = true

/-- In scan mode a command that does not belong to it changes nothing but that the last command's outputs are gone: functional blocks are
halted (R439). -/
def Obligations.ScanModeHaltsTheDevice : Prop :=
  ∀ (i : Instr) (s : State), s.scanning = true → actsInScan i = false → Completes i s (fun t => t = { s with out := [] })

/-! ### Accesses to registers -/

/-- A write of a channel's register that stands alone and has no action of its own (R8, R9, R10, R11): field by field, the code written
where the field takes it, the old value where it does not; a field of W1C keeps the bits not written with 1 and those that hardware has
set in this tick; reserved fields stay. No value in use changes, and no other register. -/
def Obligations.RegisterWriteFollowsTheFieldTypes : Prop :=
  ∀ (s : State) (p : HostPath) (c : ChanIx) (b : KB) (off : Nat) (v : Word) (g : RegSpec) (f : Fld),
    s.open p → s.rated → s.running c = true → off % 4 = 0 → off < 0x100000 → findReg (kbRegs b) off = some g → g.writable = true →
    multiIn (kbMulti b) off = none → s.ch[c].hasPart b off = true → s.ch[c].ignores b off v = false →
    ¬ (b = .dpll ∧ 0xF0100 ≤ off ∧ off < 0xF0180) → (∀ (x : Channel) (w : Writer), (x.action w b off v).2 = x) → f ∈ g.fields →
    let ch := s.ch[c]
    let x := getField v f.lsb f.w
    let o := getField (ch.word b off) f.lsb f.w
    ActsOn (.registerWrite p (winReg c b off) v) s c (fun d =>
      let n := getField (d.word b off) f.lsb f.w
      Channel.onlyIn [b.part, .jour, .asks] ch d ∧ (∀ a k, d.useWord a k = ch.useWord a k) ∧
      (∀ a k, a ≠ b ∨ k ≠ off → d.word a k = ch.word a k) ∧
      (∀ k, k < 32 → (∀ h ∈ g.fields, k < h.lsb ∨ h.lsb + h.w ≤ k) → bit (d.word b off) k = bit (ch.word b off) k) ∧
      match f.acc with
      | .rw | .rws => n = if f.ok.admits f.w x then x else o
      | .rwl => n = if ch.locked b = false ∧ f.ok.admits f.w x = true then x else o
      | .ro | .wo => n = o
      | .w1s => n = o ||| x
      | .w1c => ∀ k, k < f.w → n.testBit k = (o.testBit k && (!x.testBit k || bit (smGet 0#32 (ch.rf b).hset off) (f.lsb + k))))

/-- The same of a register of the common complex outside the blocks whose registers the write's own entry in the cellar book changes. -/
def Obligations.CommonRegisterWriteFollowsTheFieldTypes : Prop :=
  ∀ (s : State) (p : HostPath) (b : CB) (off : Nat) (v : Word) (g : RegSpec) (f : Fld),
    s.open p → s.rated → b ≠ .hostif → b ≠ .book → b ≠ .tally → off % 4 = 0 → off < 0x10000 → findReg (gbRegs b) off = some g → g.writable = true →
    multiIn (gbMulti b) off = none → s.gIgnores b off = false → (∀ x : State, x.gStored b off v = x) →
    (∀ (x : State) (o : Origin), (x.gAction o b off v).2 = x) → f ∈ g.fields →
    let x := getField v f.lsb f.w
    let o := getField (s.gword b off) f.lsb f.w
    Acts (.registerWrite p (gReg b off) v) s (fun u =>
      let n := getField (u.gword b off) f.lsb f.w
      State.onlyIn [b.part, .hostif, .book, .tally, .free, .out] s u ∧ (∀ k, u.guse b k = s.guse b k) ∧
      (∀ k, k ≠ off → u.gword b k = s.gword b k) ∧
      (∀ k, k < 32 → (∀ h ∈ g.fields, k < h.lsb ∨ h.lsb + h.w ≤ k) → bit (u.gword b off) k = bit (s.gword b off) k) ∧
      match f.acc with
      | .rw | .rws => n = if f.ok.admits f.w x then x else o
      | .rwl => n = if s.gLocked b = false ∧ f.ok.admits f.w x = true then x else o
      | .ro | .wo => n = o
      | .w1s => n = o ||| x
      | .w1c => ∀ k, k < f.w → n.testBit k = (o.testBit k && (!x.testBit k || bit (smGet 0#32 (s.rf b).hset off) (f.lsb + k))))

/-- Writes that reach no register: one to a reserved offset is counted, with its offset (R15, R445); one to a channel that is absent sets the
channel's sticky bit (R19, R328); one that the safe state does not take is counted (R370); a path that is down carries nothing (R381). -/
def Obligations.WritesThatReachNoRegister : Prop :=
  ∀ (s : State) (p : HostPath) (a : Nat) (v : Word), s.scanning = false → s.rated →
    let i := Instr.registerWrite p a v
    (s.pathUp p = false → Acts i s (fun u => u = s.clear)) ∧
    (s.pathUp p = true → s.safe = false → s.route a = .reserved → Acts i s (fun u => State.onlyIn [.hostif, .out] s u ∧
      u.gcur F.HOSTIF_RSV_ACC_COUNT = (s.gcur F.HOSTIF_RSV_ACC_COUNT + 1) % 2 ^ 32 ∧ u.gcur F.HOSTIF_RSV_LAST_OFS = a)) ∧
    (∀ n : ChanIx, s.pathUp p = true → s.safe = false → s.route a = .absent n → Acts i s (fun u => State.onlyIn [.hostif, .image, .out] s u ∧
      bit (u.gword .image IMAGE_ABSENT) n.val = true)) ∧
    (s.pathUp p = true → s.safe = true → s.route a ≠ .bad → State.safeWritable (s.route a) = false → Acts i s (fun u => State.onlyIn [.fault, .out] s u ∧
      u.gcur F.FAULT_SAFE_STAT_WDISC = min 65535 (s.gcur F.FAULT_SAFE_STAT_WDISC + 1)))

/-- R15: the WIN_REG offset of a channel register is 0x0100_0000 × (n + 1), the block's offset from the table "Blocks of a channel" and the register's
offset, which lies below 0x10_0000; offsets from 0x0500_0000 to the end of WIN_REG are reserved. An offset so formed leads to its register while
the channel is in RUN, and to the absent channel otherwise. -/
def Obligations.OffsetsOfTheRegisterWindow : Prop :=
  (∀ (n : ChanIx) (off : Nat), ∀ r ∈ [(KB.ref, 0x000000), (.dpll, 0x100000), (.syn, 0x200000), (.gnss, 0x300000), (.port, 0x400000), (.sched, 0x500000),
      (.sealb, 0x600000), (.pmu, 0x700000), (.chctl, 0x800000)], winReg n r.1 off = 0x1000000 * (n.val + 1) + r.2 + off) ∧
  ∀ s : State,
    (∀ (n : ChanIx) (b : KB) (off : Nat), off % 4 = 0 → (findReg (kbRegs b) off).isSome = true →
      off < 0x100000 ∧ s.route (winReg n b off) = if s.running n = true then .chan n b off else .absent n) ∧
    (∀ (b : CB) (off : Nat), off % 4 = 0 → off < 0x10000 → (findReg (gbRegs b) off).isSome = true → s.route (gReg b off) = .common b off) ∧
    ∀ a : Nat, a % 4 = 0 → 0x5000000 ≤ a → a < 0x8000000 → s.route a = .reserved

/-- A read by a path that is up (R7, R13): of a register that stands alone, the word it shows; of the lowest word of a multi-word value, that
word, and all words of the value are latched; of another word of it, the word latched. A read of an absent channel answers all ones and
sets the sticky bit (R328); one of a reserved offset answers 0 and is counted (R445). -/
def Obligations.ReadsLatchMultiWordValues : Prop :=
  ∀ (s : State) (p : HostPath) (c : ChanIx) (b : KB) (off : Nat), s.scanning = false → s.pathUp p = true → off % 4 = 0 → off < 0x100000 →
    (findReg (kbRegs b) off).isSome = true →
    let ch := s.ch[c]
    let i := Instr.multiwordReadLatch p (winReg c b off)
    (s.running c = true → ch.hasPart b off = true → multiIn (kbMulti b) off = none →
      Acts i s (fun u => State.onlyIn [.out] s u ∧ u.out = [.readData (ch.show' b off)])) ∧
    (∀ n, s.running c = true → ch.hasPart b off = true → multiIn (kbMulti b) off = some (off, n) →
      Acts i s (fun u => State.onlyIn [.ch, .out] s u ∧ u.out = [.readData (ch.show' b off)] ∧ (∀ m : ChanIx, m ≠ c → u.ch[m] = s.ch[m]) ∧
        Channel.onlyIn [b.part] ch u.ch[c] ∧ (∀ a k, (u.ch[c]).word a k = ch.word a k ∧ (u.ch[c]).useWord a k = ch.useWord a k) ∧
        ∀ k, k < n → smGet (kbRst b (off + 4 * k)) ((u.ch[c]).rf b).latch (off + 4 * k) = ch.show' b (off + 4 * k))) ∧
    (∀ o n, s.running c = true → ch.hasPart b off = true → multiIn (kbMulti b) off = some (o, n) → o ≠ off →
      Acts i s (fun u => State.onlyIn [.out] s u ∧ u.out = [.readData (smGet (kbRst b off) (ch.rf b).latch off)])) ∧
    (s.running c = false → Acts i s (fun u => State.onlyIn [.hostif, .image, .out] s u ∧ Output.readData 0xFFFFFFFF#32 ∈ u.out ∧
      bit (u.gword .image IMAGE_ABSENT) c.val = true)) ∧
    ∀ a : Nat, s.route a = .reserved → Acts (.multiwordReadLatch p a) s (fun u => State.onlyIn [.hostif, .out] s u ∧ u.out = [.readData 0#32] ∧
      u.gcur F.HOSTIF_RSV_ACC_COUNT = (s.gcur F.HOSTIF_RSV_ACC_COUNT + 1) % 2 ^ 32 ∧ u.gcur F.HOSTIF_RSV_LAST_OFS = a)

/-- A multi-word value is written with its highest word (R13), shown on DPLL.STEP_VAL: a write of a lower word changes no word and waits; the
write of the highest word stores it with the words that wait, and a word of which none waits stays. -/
def Obligations.MultiWordWritesWaitForTheHighestWord : Prop :=
  ∀ (s : State) (p : HostPath) (c : ChanIx) (v : Word), s.open p → s.rated → s.running c = true →
    let ch := s.ch[c]
    (∀ k, k < 3 → ActsOn (.registerWrite p (winReg c .dpll (DPLL_STEP_VAL k)) v) s c (fun d =>
      Channel.onlyIn [.dpll, .jour, .asks] ch d ∧ d.dpll = ch.dpll ∧ (∀ b o, d.word b o = ch.word b o) ∧
      (d.rf .dpll).held.find? (fun e => e.1 == DPLL_STEP_VAL k) = some (DPLL_STEP_VAL k, v))) ∧
    ActsOn (.registerWrite p (winReg c .dpll (DPLL_STEP_VAL 3)) v) s c (fun d =>
      Channel.onlyIn [.dpll, .jour, .asks] ch d ∧ d.dpll = ch.dpll ∧ d.word .dpll (DPLL_STEP_VAL 3) = v ∧
      ∀ k, k < 3 → d.word .dpll (DPLL_STEP_VAL k) =
        match (ch.rf .dpll).held.find? (fun e => e.1 == DPLL_STEP_VAL k) with
        | some e => e.2
        | none => ch.word .dpll (DPLL_STEP_VAL k))

/-- LOCK in a block's control register (R8, R12), written without COMMIT or another action: the bit stays set, and no value in use changes.
While it is set a write of an RWL field leaves the field as it is, shown on LANE_NOM, and a commit copies a register's RWL fields as they
are in use, and its other fields as they stood before the writes of the tick. -/
def Obligations.LockFreezesABlock : Prop :=
  ∀ (s : State) (p : HostPath) (v : Word), s.open p → s.rated → bit v 29 = true → bit v 31 = false →
    (∀ (c : ChanIx) (b : KB) (off : Nat), lockOff b = some off → s.running c = true → s.ch[c].hasPart b off = true →
      ActsOn (.blockLock p (.chan c b) v) s c (fun d => Channel.onlyIn [b.part, .jour, .asks] s.ch[c] d ∧ d.locked b = true ∧
        (∀ a k, d.useWord a k = s.ch[c].useWord a k) ∧ ∀ a k, a ≠ b ∨ k ≠ off → d.word a k = s.ch[c].word a k)) ∧
    (∀ b : CB, gbHasLock b = true → (b = .twin → bit v 28 = bit v 27) → Acts (.blockLock p (.common b) v) s (fun u =>
      State.onlyIn [b.part, .hostif, .book, .tally, .free, .out] s u ∧ u.gLocked b = true ∧
      (∀ k, u.guse b k = s.guse b k) ∧ ∀ k, k ≠ 0 → u.gword b k = s.gword b k)) ∧
    (∀ (c : ChanIx) (n : Fin 8), s.running c = true → s.ch[c].locked .ref = true →
      ActsOn (.registerWrite p (winReg c .ref (REF_LANE_NOM n.val)) v) s c (fun d =>
        d.word .ref (REF_LANE_NOM n.val) = s.ch[c].word .ref (REF_LANE_NOM n.val))) ∧
    (∀ (x : Channel) (b : KB) (ctl k : Nat), k ≠ ctl →
      let old := smGet (kbRst b k) ((x.rf b).before (kbRst b)) k
      (x.wasLocked b = false → (x.copies b ctl).word b k = old) ∧
      ∀ (g : RegSpec) (f : Fld), x.wasLocked b = true → findReg (kbRegs b) k = some g → f ∈ g.fields →
        getField ((x.copies b ctl).word b k) f.lsb f.w = getField (if f.acc = .rwl then x.useWord b k else old) f.lsb f.w) ∧
    ∀ (x : State) (b : CB) (k : Nat), k ≠ 0 →
      let old := smGet (gbRst b k) ((x.rf b).before (gbRst b)) k
      (x.gWasLocked b = false → (x.copies b).gword b k = old) ∧
      ∀ (g : RegSpec) (f : Fld), x.gWasLocked b = true → findReg (gbRegs b) k = some g → f ∈ g.fields →
        getField ((x.copies b).gword b k) f.lsb f.w = getField (if f.acc = .rwl then x.guse b k else old) f.lsb f.w

/-- COMMIT of REF, DPLL, GNSS and the bench group (R12, R92, R120, R146, R304): where the block's checks pass, every shadow of the block, as
it stood before the other writes of this tick (and with the RWL fields of a locked block as they are in use), comes into use, with what the
block does on it; else CERR is set and nothing comes into use. A DPLL commit is checked as listed in R146, a bench group commit for HOPS. -/
def Obligations.CommitBringsShadowsIntoUse : Prop :=
  ∀ (s : State) (p : HostPath) (c : ChanIx) (v : Word), s.open p → s.running c = true → bit v 31 = true →
    let ch := s.ch[c]
    let tri (b : KB) (ctl : Nat) : Channel := (ch.storeWord ⟨p.org, false⟩ b ctl v).copies b ctl
    let took (L : List ChPart) (b : KB) (ctl : Nat) (d : Channel) : Prop := Channel.onlyIn L ch d ∧ ∀ k, k ≠ ctl → d.useWord b k = (tri b ctl).word b k
    let kept (b : KB) (cerr : KF) (d : Channel) : Prop :=
      Channel.onlyIn [b.part, .jour, .asks] ch d ∧ d.cur cerr = 1 ∧ ∀ a k, d.useWord a k = ch.useWord a k
    let dq (f : KF) : Nat := (tri .dpll DPLL_CTL).cur f
    let dOk : Prop := dq F.DPLL_BW_A_BW_ACQ ≤ 44915 ∧ dq F.DPLL_BW_A_BW_LOCK ≤ dq F.DPLL_BW_A_BW_ACQ ∧ dq F.DPLL_B_CFG_BW_B ≤ 44915 ∧
      dq F.DPLL_LOCK_TH_LOCK_TH ≤ dq F.DPLL_UNLOCK_TH_UNLOCK_TH ∧ dq F.DPLL_UNLOCK_TH_UNLOCK_TH ≤ dq F.DPLL_SL_TH_SL_TH ∧
      (1 ≤ dq F.DPLL_A_SLEW_SLEW ∧ dq F.DPLL_A_SLEW_SLEW ≤ 1000000) ∧ (1 ≤ dq F.DPLL_FWIN_FWIN ∧ dq F.DPLL_FWIN_FWIN ≤ 1024) ∧
      dq F.DPLL_A_CFG_APPLY_DLY ≠ 0
    ((tri .ref REF_CTL).refCommitOk = true → ActsOn (.refCommit p c v) s c (took [.ref, .dpll, .jour, .asks] .ref REF_CTL)) ∧
    ((tri .ref REF_CTL).refCommitOk = false → ActsOn (.refCommit p c v) s c (kept .ref F.REF_CTL_CERR)) ∧
    (dOk → ActsOn (.dpllCommit p c v) s c (took [.dpll, .jour, .asks] .dpll DPLL_CTL)) ∧
    (¬ dOk → ActsOn (.dpllCommit p c v) s c (kept .dpll F.DPLL_CTL_CERR)) ∧
    (ch.hasPart .gnss GNSS_CTL = true → (tri .gnss GNSS_CTL).gnssCommitOk = true → ActsOn (.gnssCommit p c v) s c (took [.gnss, .jour, .asks] .gnss GNSS_CTL)) ∧
    (ch.hasPart .gnss GNSS_CTL = true → (tri .gnss GNSS_CTL).gnssCommitOk = false → ActsOn (.gnssCommit p c v) s c (kept .gnss F.GNSS_CTL_CERR)) ∧
    ((tri .chctl CHCTL_B_CTL).cur F.CHCTL_ENS_CFG_HOPS ≠ 0 → ActsOn (.bCtlCommit p c v) s c (took [.bench, .jour, .asks] .chctl CHCTL_B_CTL)) ∧
    ((tri .chctl CHCTL_B_CTL).cur F.CHCTL_ENS_CFG_HOPS = 0 → ActsOn (.bCtlCommit p c v) s c (kept .chctl F.CHCTL_B_CTL_CERR))

/-- COMMIT of PORT, SCHED and SEAL (R12, R182, R196, R232, R251): where the block's checks pass, the shadows of SCHED and SEAL and the calibration constants of PORT are in use from the next tick, the other shadows of PORT at
once; else CERR is set. COMMIT of SYN (R156) stages the shadows for their boundaries and sets CPEND; while staged values wait it sets
CBUSY, and where the checks fail CERR. -/
def Obligations.CommitsThatTakeEffectLater : Prop :=
  ∀ (s : State) (p : HostPath) (c : ChanIx) (v : Word), s.open p → s.running c = true → bit v 31 = true →
    let ch := s.ch[c]
    let tri (b : KB) (ctl : Nat) : Channel := (ch.storeWord ⟨p.org, false⟩ b ctl v).copies b ctl
    let same (d : Channel) : Prop := ∀ b, (d.rf b).use = (ch.rf b).use
    let late : List Nat := [PORT_P_ING_CAL 0, PORT_P_EGR_CAL 0, PORT_P_ING_BUD 0, PORT_P_EGR_BUD 0, PORT_P_ING_CAL 1, PORT_P_EGR_CAL 1, PORT_P_ING_BUD 1, PORT_P_EGR_BUD 1]
    (((tri .sched SCHED_CTL).schedCommitOk = true → ActsOn (.schedCommit p c v) s c (fun d => Channel.onlyIn [.sched, .jour, .asks] ch d ∧ same d ∧ ∀ k, k ≠ SCHED_CTL → d.dueWord .sched k = (tri .sched SCHED_CTL).word .sched k)) ∧
      ((tri .sched SCHED_CTL).schedCommitOk = false → ActsOn (.schedCommit p c v) s c (fun d => Channel.onlyIn [.sched, .jour, .asks] ch d ∧ same d ∧ d.cur F.SCHED_CTL_CERR = 1))) ∧
    (ch.hasPart .sealb SEAL_CTL = true →
      ((tri .sealb SEAL_CTL).sealCommitOk = true → ActsOn (.sealCommit p c v) s c (fun d => Channel.onlyIn [.sealb, .jour, .asks] ch d ∧ same d ∧ ∀ k, k ≠ SEAL_CTL → d.dueWord .sealb k = (tri .sealb SEAL_CTL).word .sealb k)) ∧
      ((tri .sealb SEAL_CTL).sealCommitOk = false → ActsOn (.sealCommit p c v) s c (fun d => Channel.onlyIn [.sealb, .jour, .asks] ch d ∧ same d ∧ d.cur F.SEAL_CTL_CERR = 1))) ∧
    (((tri .port PORT_CTL).portCommitOk = true → ActsOn (.portCommit p c v) s c (fun d => Channel.onlyIn [.port, .pmu, .free, .jour, .asks] ch d ∧
        ∀ k, k ≠ PORT_CTL →
          (k ∈ late → d.useWord .port k = ch.useWord .port k ∧ d.dueWord .port k = (tri .port PORT_CTL).word .port k) ∧
          (k ∉ late → d.useWord .port k = (tri .port PORT_CTL).word .port k))) ∧
      ((tri .port PORT_CTL).portCommitOk = false → ActsOn (.portCommit p c v) s c (fun d => Channel.onlyIn [.port, .jour, .asks] ch d ∧ same d ∧ d.cur F.PORT_CTL_CERR = 1))) ∧
    ((ch.syn.stage.isSome = true → ActsOn (.synCommit p c v) s c (fun d => Channel.onlyIn [.syn, .jour, .asks] ch d ∧ same d ∧ d.syn = ch.syn ∧ d.cur F.SYN_CTL_CBUSY = 1)) ∧
      (ch.syn.stage = none → (tri .syn SYN_CTL).synCommitOk = false →
        ActsOn (.synCommit p c v) s c (fun d => Channel.onlyIn [.syn, .jour, .asks] ch d ∧ same d ∧ d.syn = ch.syn ∧ d.cur F.SYN_CTL_CERR = 1)) ∧
      (ch.syn.stage = none → (tri .syn SYN_CTL).synCommitOk = true →
        ActsOn (.synCommit p c v) s c (fun d => Channel.onlyIn [.syn, .jour, .asks] ch d ∧ same d ∧ d.cur F.SYN_CTL_CPEND = 1 ∧
          ∃ g, d.syn.stage = some g ∧ g.tick = ch.jour.tick ∧ ∀ k, k ≠ SYN_CTL → smGet (kbRst .syn k) g.words k = (tri .syn SYN_CTL).word .syn k)))

/-- COMMIT of TWIN, BENCH and CLKGEN (R12, R283, R304, R425, R429): where VINT_PER is 1 to 60 and BOOT_WAIT is not 0, HOLD is not 0, EXPECT is 0
or the frequency found, every shadow of the block, as it stood before the other writes of this tick (and with the RWL fields of a locked
block as they are in use), comes into use; else CERR is set and
nothing comes into use. A CLKGEN commit that leads to legal rates completes so; one that would run a root outside them stops (R428). -/
def Obligations.CommonCommitsBringShadowsIntoUse : Prop :=
  ∀ (s : State) (p : HostPath) (v : Word), s.open p → bit v 31 = true →
    let tri (b : CB) : State := (s.gStore false b 0 v).copies b
    let took (b : CB) (u : State) : Prop :=
      State.onlyIn [b.part, .hostif, .book, .tally, .free, .out] s u ∧ ∀ k, k ≠ 0 → u.guse b k = (tri b).gword b k
    let kept (b : CB) (cerr : GF) (u : State) : Prop :=
      State.onlyIn [b.part, .hostif, .book, .tally, .free, .out] s u ∧ u.gcur cerr = 1 ∧ ∀ a k, u.guse a k = s.guse a k
    let tOk : Prop := 1 ≤ (tri .twin).gcur F.TWIN_CFG_VINT_PER ∧ (tri .twin).gcur F.TWIN_CFG_VINT_PER ≤ 60 ∧ (tri .twin).gcur F.TWIN_CFG_BOOT_WAIT ≠ 0
    let cOk : Prop := (tri .clkgen).gcur F.CLKGEN_MOSC_CFG_EXPECT = 0 ∨ (tri .clkgen).gcur F.CLKGEN_MOSC_CFG_EXPECT = (tri .clkgen).gcur F.CLKGEN_MOSC_STAT_FREQ
    let legal : Prop := ∀ r : Fin 5, getField ((tri .clkgen).gword .clkgen (CLKGEN_ROOT_CFG r.val)) 0 2 ≠ 3
    (bit v 28 = bit v 27 → (tOk → Acts (.twinCommit p v) s (took .twin)) ∧ (¬ tOk → Acts (.twinCommit p v) s (kept .twin F.TWIN_CTL_CERR))) ∧
    ((tri .bench).gcur F.BENCH_CFG_HOLD ≠ 0 → Acts (.benchCommit p v) s (took .bench)) ∧
    ((tri .bench).gcur F.BENCH_CFG_HOLD = 0 → Acts (.benchCommit p v) s (kept .bench F.BENCH_CTL_CERR)) ∧
    (cOk → legal → Acts (.clkgenCommit p v) s (took .clkgen)) ∧
    (¬ cOk → s.rated → Acts (.clkgenCommit p v) s (kept .clkgen F.CLKGEN_CTL_CERR)) ∧
    (cOk → getField ((tri .clkgen).gword .clkgen (CLKGEN_ROOT_CFG 0)) 0 2 = 3 → s.turn (.clkgenCommit p v) →
      (s.perform (.clkgenCommit p v)).clocked = true → exec (.clkgenCommit p v) s = .fault .ratioLimit)

/-! ### Reference lanes, the selectors, UTC -/

/-- The timers of a lane (R76, R80, R81). The miss timer sets LOS, and a live lane goes ABSENT; where it is due it comes before the lane's other
timer. A window that ends with too few good records starts anew; else the lane goes QUALIFIED, or WTR where it returns and WTR is not 0.
WTR ends in QUALIFIED, DQ_HOLD in QUALIFYING, or in ABSENT while LOS. The other lanes stay. A timer that is not due does nothing. -/
def Obligations.LaneTimersDriveTheLaneStates : Prop :=
  ∀ (s : State) (c : ChanIx) (n : LaneIx), s.live c →
    let ch := s.ch[c]
    let l := ch.lane n
    let now := ch.jour.tick
    let due (t : Option Nat) : Prop := ∃ k, t = some k ∧ k ≤ now
    let fr (d : Channel) : Prop := Channel.onlyIn [.ref, .jour, .asks] ch d ∧ ∀ m : LaneIx, m ≠ n → d.lane m = ch.lane m
    let missed (d : Channel) : Prop := fr d ∧ (d.lane n).los = true ∧ (d.lane n).miss = none ∧
      (d.lane n).st = if Channel.liveSt l.st = true then .absent else l.st
    let window (d : Channel) : Prop :=
      (d.lane n).st = .qualifying ∧ (d.lane n).winGood = 0 ∧ (d.lane n).timer = some (now + Channel.secTicks (ch.fld (F.REF_LANE_QUAL_QUAL_WIN n.val)))
    let wtr := ch.fld (F.REF_LANE_TIME_WTR n.val)
    let few : Prop := l.winGood < max 1 (ch.fld (F.REF_LANE_QUAL_QUAL_MIN n.val))
    (due l.miss → ActsOn (.laneMissTimerExpiry c n) s c missed ∧ ActsOn (.qualWindowExpiry c n) s c missed ∧ ActsOn (.wtrExpiry c n) s c missed ∧
      (l.st ≠ .disqualified ∨ ¬ due l.timer → ActsOn (.dqHoldExpiry c n) s c missed) ∧
      (l.st = .disqualified → due l.timer → ActsOn (.dqHoldExpiry c n) s c (fun d => fr d ∧ (d.lane n).los = true ∧ (d.lane n).st = .absent))) ∧
    (¬ due l.miss →
      ActsOn (.laneMissTimerExpiry c n) s c (fun d => d = ch) ∧
      (l.st = .qualifying → due l.timer → few → ActsOn (.qualWindowExpiry c n) s c (fun d => fr d ∧ window d)) ∧
      (l.st = .qualifying → due l.timer → ¬ few → (l.returning = false ∨ wtr = 0) →
        ActsOn (.qualWindowExpiry c n) s c (fun d => fr d ∧ (d.lane n).st = .qualified ∧ (d.lane n).returning = true ∧ (d.lane n).timer = none)) ∧
      (l.st = .qualifying → due l.timer → ¬ few → l.returning = true → wtr ≠ 0 →
        ActsOn (.qualWindowExpiry c n) s c (fun d => fr d ∧ (d.lane n).st = .wtr ∧ (d.lane n).timer = some (now + Channel.secTicks wtr))) ∧
      (l.st ≠ .qualifying ∨ ¬ due l.timer → ActsOn (.qualWindowExpiry c n) s c (fun d => d = ch)) ∧
      (l.st = .wtr → due l.timer → ActsOn (.wtrExpiry c n) s c (fun d => fr d ∧ (d.lane n).st = .qualified ∧ (d.lane n).timer = none)) ∧
      (l.st ≠ .wtr ∨ ¬ due l.timer → ActsOn (.wtrExpiry c n) s c (fun d => d = ch)) ∧
      (l.st = .disqualified → due l.timer → l.los = true → ActsOn (.dqHoldExpiry c n) s c (fun d => fr d ∧ (d.lane n).st = .absent)) ∧
      (l.st = .disqualified → due l.timer → l.los = false → ActsOn (.dqHoldExpiry c n) s c (fun d => fr d ∧ window d)) ∧
      (l.st ≠ .disqualified ∨ ¬ due l.timer → ActsOn (.dqHoldExpiry c n) s c (fun d => d = ch)))

/-- LANE_CMD (R80, R83): FORCE takes an existing, enabled lane to FORCED; UNFORCE returns a FORCED lane to QUALIFYING, or to ABSENT while
LOS; REQUAL starts a live lane's qualification anew; CLR_STEP clears STEPW; FORCE with UNFORCE is ignored, and so is a command in a state
that does not take it. -/
def Obligations.LaneCommandsMoveTheLane : Prop :=
  ∀ (s : State) (p : HostPath) (c : ChanIx) (n : LaneIx) (v : Word), s.open p → s.running c = true →
    let ch := s.ch[c]
    let l := ch.lane n
    let fr (d : Channel) : Prop := Channel.onlyIn [.ref, .jour, .asks] ch d ∧ ∀ m : LaneIx, m ≠ n → d.lane m = ch.lane m
    let none' (d : Channel) : Prop := Channel.onlyIn [.ref, .jour, .asks] ch d ∧ d.ref = ch.ref
    let w (d : Channel) : Prop := (d.lane n).stepW = if bit v 3 = true then 0 else l.stepW
    ∀ i ∈ [Instr.laneForce p c n v, .laneUnforce p c n v, .laneRequal p c n v, .laneClrStep p c n v],
      (bit v 0 = true → bit v 1 = false → l.exist = true → ch.laneEnabled n = true →
        ActsOn i s c (fun d => fr d ∧ w d ∧ (d.lane n).st = .forced ∧ (d.lane n).timer = none)) ∧
      (bit v 1 = true → bit v 0 = false → bit v 2 = false → l.st = .forced →
        ActsOn i s c (fun d => fr d ∧ w d ∧ (d.lane n).returning = true ∧ (d.lane n).st = if l.los = true then .absent else .qualifying)) ∧
      (bit v 2 = true → bit v 0 = false → bit v 1 = false → Channel.liveSt l.st = true →
        ActsOn i s c (fun d => fr d ∧ w d ∧ (d.lane n).st = .qualifying ∧ (d.lane n).winGood = 0)) ∧
      (bit v 3 = true → bit v 0 = false → bit v 1 = false → bit v 2 = false →
        ActsOn i s c (fun d => Channel.onlyIn [.ref, .jour, .asks] ch d ∧ d.lane n = { l with stepW := 0 } ∧ ∀ m : LaneIx, m ≠ n → d.lane m = ch.lane m)) ∧
      (bit v 0 = true → bit v 1 = true → ActsOn i s c none') ∧
      (bit v 0 = true → bit v 1 = false → bit v 2 = false → bit v 3 = false → (l.exist = false ∨ ch.laneEnabled n = false) → ActsOn i s c none') ∧
      (bit v 1 = true → bit v 0 = false → bit v 2 = false → bit v 3 = false → l.st ≠ .forced → ActsOn i s c none') ∧
      (bit v 2 = true → bit v 0 = false → bit v 1 = false → bit v 3 = false → Channel.liveSt l.st = false → ActsOn i s c none')

/-- SEL_CMD (R90): an approval of the switch that waits journals the committed choice with cause 2; a denial journals that the published
choice is void; both together, or without a switch that waits, nothing is done. Each servo has its own bits. -/
def Obligations.SwitchesWaitForTheHost : Prop :=
  ∀ (s : State) (p : HostPath) (c : ChanIx) (v : Word) (sv : Servo), s.open p → s.running c = true →
    let ch := s.ch[c]
    let x := ch.sel sv
    let ap := bit v (if sv = .a then 31 else 29)
    let dn := bit v (if sv = .a then 30 else 28)
    bit v (if sv = .a then 29 else 31) = bit v (if sv = .a then 28 else 30) →
    ∀ i ∈ [Instr.selApprove p c v, .selDeny p c v],
      (∀ m, x.pend = true → x.pv = some m → ap = true → dn = false → ActsOn i s c (fun d => Channel.onlyIn [.ref, .dpll, .jour, .asks] ch d ∧
        (∀ m : LaneIx, d.lane m = ch.lane m) ∧
        ∃ e, Eff.jour e ∈ d.effs ∧ e.body = .sel sv (some m) x.cur 2 ∧ e.commit = true)) ∧
      (∀ m, x.pend = true → x.pv = some m → ap = false → dn = true → ActsOn i s c (fun d => Channel.onlyIn [.ref, .dpll, .jour, .asks] ch d ∧
        (∀ m : LaneIx, d.lane m = ch.lane m) ∧
        ∃ e, Eff.jour e ∈ d.effs ∧ e.body = .cancel x.pvJseq 2 ∧ e.commit = true)) ∧
      ((x.pend = false ∨ ap = dn) → ActsOn i s c (fun d => Channel.onlyIn [.ref, .jour, .asks] ch d ∧ d.ref = ch.ref))

/-- An edge of a PHASE lane is measured as a PHASE_ONLY record with the negated stamp as its offset, for registration 4 µs later (R67, R68, R75);
one of a PULSE_TOD lane waits for its sentence (R71); other lanes take no edges. 990 ms after an edge without a valid sentence its PHASE_ONLY
record is registered, in that tick, unless another record of the tick is still to come, with which it is then registered (R71, R81). The
values FREQ and FB of these records are free (notes/assumptions/28.md).
A sentence of receiver `k` (R69 to R72): without EN it is not received; one that no lane takes, or that is not valid, or that does not
fall into the window of its lane's most recent edge, or meets an edge that has its sentence, counts as BAD, and its lane notes the error
(for the last, and for a receiver without a lane, the model's choice, notes/assumptions/98.md); a valid one counts as GOOD, and with the
edge it is the record of its lane: the stamp of the edge, the offset from the time the sentence gives to the stamp.
At a multiple of 100 ms of channel time a FREQ lane measures a FREQ_ONLY record (R67, R68): the measured frequency, the phase, a saturated
TEB and the FB of R68, for registration 1 ms later. Other lanes, and other ticks, have none.
Registration (R73, R74, R75, R474): a record takes the lane's SEQ, which advances, the calibration entries in use then and the lane's
STEPW; a PHASE_ONLY offset is reduced to half a second, a FREQ_ONLY one to half a period. -/
def Obligations.LaneEventsBecomeRecords : Prop :=
  (∀ (s : State) (c : ChanIx) (n : LaneIx) (ps : Nat), s.live c →
     let ch := s.ch[c]
     let l := ch.lane n
     let now := ch.jour.tick
     let t := (ch.stampAt ps).1
     let iv (t : Gt) : Iv := ch.refinTerms n ⟨-t, satAdd 110 (budTerm (ch.fld (F.REF_LANE_SBUD_SBUD n.val)))⟩
     let phase (t : Gt) (r : MeasRec) : Prop := r.lane = n ∧ r.refTs = t ∧ r.offset = (iv t).t ∧ r.teb = (iv t).h ∧ r.phaseOnly = true ∧ r.freqOnly = false
     let late (e : TodEdge) : Prop := e.labelled = false ∧ e.tick + 198000000 ≤ now
     (n.val < 8 → l.exist = true → ch.kind n = 0 → ActsOn (.refinEdge c n ps) s c (fun d => Channel.onlyIn [.ref, .free] ch d ∧ d.regs = ch.regs ∧
       d.ref = { ch.ref with measured := d.ref.measured } ∧ ch.measures d 800 (phase t))) ∧
     (n.val < 8 → l.exist = true → ch.kind n = 1 → ActsOn (.refinEdge c n ps) s c (fun d => Channel.onlyIn [.ref] ch d ∧ d.regs = ch.regs ∧
       d.lane n = { l with edges := ⟨t, (ch.stampAt ps).2, now, false⟩ :: l.edges.filter (fun e => !e.labelled) } ∧
       ∀ m : LaneIx, m ≠ n → d.lane m = ch.lane m)) ∧
     (8 ≤ n.val ∨ l.exist = false ∨ 2 ≤ ch.kind n → ActsOn (.refinEdge c n ps) s c (fun d => d = ch)) ∧
     Acts (.todSentenceWindowEnd c n) s (fun u => State.onlyIn [.ch, .out] s u ∧ (∀ m : ChanIx, m ≠ c → u.ch[m] = s.ch[m]) ∧
       (∀ e ∈ (u.ch[c].lane n).edges, e ∈ l.edges ∧ ¬ late e) ∧ (∀ e ∈ l.edges, ¬ late e → e ∈ (u.ch[c].lane n).edges) ∧
       (∀ e ∈ l.edges, late e → l.exist = true → ∃ r, phase e.t r ∧
         (s.recordWaits c = true → (now, r) ∈ u.ch[c].ref.measured) ∧ (s.recordWaits c = false → u.ch[c].hasRegistered r)) ∧
       (s.recordWaits c = false → ∀ x ∈ u.ch[c].ref.measured, now < x.1))) ∧
  (∀ (s : State) (c : ChanIx) (k : Fin 2) (bs : Bytes) (ago : Nat), s.live c →
     let ch := s.ch[c]
     let i := Instr.todSentenceRx c k bs ago
     let now := ch.jour.tick
     let good := ch.cur (F.REF_TODI_STAT_GOOD k.val)
     let bad := ch.cur (F.REF_TODI_STAT_BAD k.val)
     let flags : Word := BitVec.ofNat 32 (fromBe (slice bs 12 1))
     let fits (e : TodEdge) : Prop := e.labelled = false ∧ e.tick + 180000 ≤ now - ago ∧ now - ago ≤ e.tick + 100020000 ∧ now ≤ e.tick + 198000000
     (ch.flag (F.REF_TODI_CFG_EN k.val) = false → ActsOn i s c (fun d => d = ch)) ∧
     (ch.flag (F.REF_TODI_CFG_EN k.val) = true →
       (ch.todLane k.val = none → ActsOn i s c (fun d => Channel.onlyIn [.ref] ch d ∧ d.ref = ch.ref ∧ d.cur (F.REF_TODI_STAT_BAD k.val) = (bad + 1) % 2 ^ 16)) ∧
       (∀ n : LaneIx, ch.todLane k.val = some n →
         (∀ (e : TodEdge) (older : List TodEdge), (ch.lane n).edges = e :: older → Channel.todValid bs = true → fits e →
           ActsOn i s c (fun d => Channel.onlyIn [.ref, .free] ch d ∧ d.cur (F.REF_TODI_STAT_GOOD k.val) = (good + 1) % 2 ^ 16 ∧
             d.lane n = { ch.lane n with edges := { e with labelled := true } :: older } ∧ (∀ m : LaneIx, m ≠ n → d.lane m = ch.lane m) ∧
             ch.measures d 800 (fun r =>
               let utc : Int := if bit flags 7 = true then signed 16 (fromBe (slice bs 10 2)) else 0
               let at' : Gt := ((fromBe (slice bs 4 6) : Int) + utc) * 2 ^ 64 + pointOfPs (signed 32 (fromBe (slice bs 18 4)))
               let src := if bit flags 5 = true then fromBe (slice bs 14 4) else budTerm (ch.fld (F.REF_LANE_SBUD_SBUD n.val))
               let iv := ch.refinTerms n ⟨at' - e.t, satAdd 110 src⟩
               r.lane = n ∧ r.refTs = e.t ∧ r.offset = iv.t ∧ r.teb = iv.h ∧ r.phaseOnly = false ∧ r.freqOnly = false))) ∧
         (((ch.lane n).edges = [] ∨ Channel.todValid bs = false ∨ (∃ e older, (ch.lane n).edges = e :: older ∧ ¬ fits e)) →
           ActsOn i s c (fun d => Channel.onlyIn [.ref, .asks] ch d ∧ d.ref = ch.ref ∧ d.cur (F.REF_TODI_STAT_BAD k.val) = (bad + 1) % 2 ^ 16 ∧
             d.cur (F.REF_LANE_STAT_SENT_ERR n.val) = 1))))) ∧
  (∀ (s : State) (c : ChanIx) (n : LaneIx) (freq off : Int), s.live c →
     let ch := s.ch[c]
     let i := Instr.freqRecordBoundary c n freq off
     (∀ t : Gt, n.val < 8 → (ch.lane n).exist = true → ch.kind n = 2 → ch.multipleHere 10 = some t →
       ActsOn i s c (fun d => Channel.onlyIn [.ref] ch d ∧ d.regs = ch.regs ∧ d.ref = { ch.ref with measured := d.ref.measured } ∧
         ch.measures d 200000 (fun r => r.lane = n ∧ r.refTs = t ∧ r.offset = (ch.refinTerms n ⟨off, SAT⟩).t ∧ r.freq = freq ∧ r.fb = 563200 ∧
           r.teb = SAT ∧ r.phaseOnly = false ∧ r.freqOnly = true))) ∧
     (8 ≤ n.val ∨ (ch.lane n).exist = false ∨ ch.kind n ≠ 2 ∨ ch.multipleHere 10 = none → ActsOn i s c (fun d => d = ch))) ∧
  ∀ (ch : Channel) (sync : LaneIx → Nat) (r : MeasRec),
    let n := r.lane.val
    let x : Iv := if 9 ≤ n ∧ n ≤ 12 ∨ n = 8 ∧ SAT ≤ r.teb then ⟨r.offset, r.teb⟩ else ch.termCal r.lane ⟨r.offset, r.teb⟩
    ch.registers (ch.register sync r) r.lane (fun m => m.refTs = r.refTs ∧ m.freq = r.freq ∧ m.fb = r.fb ∧ m.phaseOnly = r.phaseOnly ∧
      m.freqOnly = r.freqOnly ∧ m.teb = satAdd x.h (ch.lane r.lane).stepW ∧
      (8 ≤ n ∨ (r.phaseOnly = false ∧ r.freqOnly = false) → m.offset = x.t) ∧
      (n < 8 → r.phaseOnly = true → m.offset = Channel.reduceSec x.t ∧ -2 ^ 63 ≤ m.offset ∧ m.offset < 2 ^ 63) ∧
      (n < 8 → r.phaseOnly = false → r.freqOnly = true → m.offset = Channel.reducePeriod x.t (ch.fld (F.REF_LANE_NOM_NOM_HZ n)) 1))

/-- Leap entries (R57, R59 to R61): a write of LEAP_ENTk puts its entry, with the EFF that waits for it, into the table; an announcement of the lane
that feeds the servo becomes an entry of its own ORIGIN, confirmed under LANE, in the place of an unconfirmed one of the same EFF, else in the lowest
free entry, else in that of the lowest EFF that is not in force; one that the table holds, or that gives the offset in force, changes nothing, and one
within a day of a confirmed entry conflicts. The device rejects a write or announcement that would create a fault of R57: the table stays and REJ is
set. An entry that has no preceding valid entry, or changes OFS otherwise than by 1, is an offset correction with its event, and opens no window;
so is an announced entry whose EFF has passed (R60). Announcements are judged by the table after the tick's entry writes (R62). -/
def Obligations.LeapTablesStayWithoutFaults : Prop :=
  let prior (t : Vector LeapEnt 8) (e : LeapEnt) (i : Fin 8) : Prop := t[i].valid = true ∧ t[i].eff < e.eff ∧ ∀ m : Fin 8, t[m].valid = true → t[m].eff < e.eff → t[m].eff ≤ t[i].eff
  let faulty (t : Vector LeapEnt 8) : Prop := ∃ j : Fin 8, t[j].valid = true ∧
    ((∃ i : Fin 8, i ≠ j ∧ t[i].valid = true ∧ t[i].eff = t[j].eff) ∨
      ∃ i, prior t t[j] i ∧ ((t[j].ofs - t[i].ofs = 1 ∧ (t[j].eff - t[i].ofs) % 86400 ≠ 0) ∨ (t[j].ofs - t[i].ofs = -1 ∧ (t[j].eff - t[i].ofs) % 86400 ≠ 86399)))
  let told (t : Vector LeapEnt 8) (e : LeapEnt) (d : Channel) : Prop :=
    e.valid = true → ((∀ i, ¬ prior t e i) ∨ ∃ i, prior t e i ∧ e.ofs - t[i].ofs ∉ [0, 1, (-1 : Int)]) → Eff.chanEvent .offsetCorrection ∈ d.effs
  (∀ (s : State) (p : HostPath) (c : ChanIx) (k : Fin 8) (v : Word), s.open p → s.running c = true →
    let ch := s.ch[c]
    let eff := match ch.scale.effHeld[k] with
      | some e => e
      | none => ch.scale.leap[k].eff
    let e : LeapEnt := ⟨bit v 31, bit v 30, 0, eff, signed 16 (getField v 0 16)⟩
    let t := ch.scale.leap.set k e
    let fr (d : Channel) : Prop := Channel.onlyIn [.dpll, .scale, .jour, .asks] ch d ∧ d.dpll = ch.dpll ∧ d.scale.effHeld = ch.scale.effHeld.set k none
    (¬ faulty t → ActsOn (.leapEntWrite p c k v) s c (fun d => fr d ∧ d.scale.leap = t ∧ told t e d)) ∧
    (faulty t → ActsOn (.leapEntWrite p c k v) s c (fun d => fr d ∧ d.scale.leap = ch.scale.leap ∧ d.cur F.DPLL_UTC_NOW_REJ = 1))) ∧
  (∀ (s : State) (c : ChanIx) (n : LaneIx) (a : UtcAnn) (k : Fin 8) (conf : Bool), s.live c →
    let ch := s.ch[c]
    let src := ch.fld F.DPLL_TS_CFG_UTC_SRC
    let T := ch.scale.leap
    let sec := ch.nowSec
    let cur := ((Channel.inForce ch.leapNow sec).map (fun e => e.2.ofs)).getD 0
    let last := ((tabPrev T (sec + 1)).map (fun e => e.ofs)).getD 0
    let day := (Int.fdiv (sec - last) 86400 + 1) * 86400 + last
    let known : Prop := match a with
      | .offset ofs => cur = ofs ∨ ∃ j : Fin 8, T[j].valid = true ∧ T[j].org ≠ 0 ∧ T[j].conf = false ∧ T[j].ofs = ofs ∧ T[j].eff ≤ sec
      | _ => False
    let w : Int × Int := match a with
      | .offset ofs => (sec, ofs)
      | .leap eff ofs => (eff, ofs)
      | .flag true => (day, last + 1)
      | .flag false => (day - 1, last - 1)
    let Ann := Instr.utcAnnouncement c n a
    let held : Prop := ∃ j : Fin 8, T[j].valid = true ∧ T[j].eff = w.1 ∧ T[j].ofs = w.2
    let near : Prop := ∃ j : Fin 8, T[j].valid = true ∧ T[j].conf = true ∧ (w.1 - T[j].eff).natAbs < 86400
    let swap (j : Fin 8) : Prop := T[j].valid = true ∧ T[j].eff = w.1 ∧ T[j].conf = false ∧ T[j].org ≠ 0
    let inForce (j : Fin 8) : Prop := ∃ x, Channel.inForce ch.leapNow sec = some (j, x)
    let place : Prop := (swap k ∧ (∀ j, j < k → ¬ swap j) ∧ conf = false) ∨ ((∀ j, ¬ swap j) ∧ conf = (src == 1) ∧
      ((T[k].valid = false ∧ ∀ j : Fin 8, j < k → T[j].valid = true) ∨
        ((∀ j : Fin 8, T[j].valid = true) ∧ ¬ inForce k ∧ ∀ j : Fin 8, ¬ inForce j → T[k].eff ≤ T[j].eff ∧ (T[j].eff = T[k].eff → k ≤ j))))
    let e : LeapEnt := ⟨true, conf, Channel.annOrigin n, w.1, w.2⟩
    let t := T.set k e
    (src = 0 → ActsOn Ann s c (fun d => Channel.onlyIn [.dpll, .asks] ch d ∧ d.dpll = ch.dpll ∧ d.cur F.DPLL_UTC_NOW_SEEN = 1 ∧ Eff.chanEvent .announceUnderHost ∈ d.effs)) ∧
    (src ≠ 0 → ch.ref.selA.prev ≠ some n ∨ known ∨ held → ActsOn Ann s c (fun d => d = ch)) ∧
    (src ≠ 0 → ch.ref.selA.prev = some n → ¬ known → ¬ held → near → ActsOn Ann s c (fun d => Channel.onlyIn [.dpll, .asks] ch d ∧ d.dpll = ch.dpll ∧
      d.cur F.DPLL_UTC_NOW_CONFLICT = 1 ∧ Eff.chanEvent .announceConflict ∈ d.effs)) ∧
    (src ≠ 0 → ch.ref.selA.prev = some n → ¬ known → ¬ held → ¬ near → place →
      (¬ faulty t → ActsOn Ann s c (fun d => Channel.onlyIn [.scale, .asks] ch d ∧ d.scale.leap = t ∧ told t e d ∧ (w.1 ≤ sec → Eff.chanEvent .offsetCorrection ∈ d.effs) ∧ (conf = false → Eff.chanEvent .leapUnconfirmed ∈ d.effs))) ∧
      (faulty t → ActsOn Ann s c (fun d => Channel.onlyIn [.dpll, .asks] ch d ∧ d.dpll = ch.dpll ∧ d.cur F.DPLL_UTC_NOW_REJ = 1)))) ∧
  ∀ (ch : Channel) (sec : Int) (n : Fin 8 × LeapEnt), ch.leapNext sec = some n → (∀ i, ¬ prior ch.leapTab n.2 i) → ch.leapWin sec = 0

/-! ### The GNSS baseband -/

/-- The state machine of a tracking channel (R102): an assignment takes an idle one to SEARCH where the link is UP, the system is enabled, and
the satellite is healthy and not barred; a detection takes it to PULL_IN for 2 s; a lock from PULL_IN or LOST to TRACK; without a lock in
time it returns to SEARCH; a lost lock takes it to LOST for 10 s, and then to IDLE. A command in another state does nothing. The other
tracking channels stay.
A search whose window is exhausted returns to IDLE, and its satellite is barred for 60 s; the bars that are over end (R102). The side
peak guard of a channel past SEARCH moves the code loop by D2 of its system, toward the larger tap, up to the integration boundary after a commit still by the D2
before it (R103). -/
def Obligations.TrackingChannelsFollowTheirStates : Prop :=
  (∀ (s : State) (c : ChanIx) (i : Fin 48), s.live c →
     let ch := s.ch[c]
     let now := ch.jour.tick
     let st := ch.trkSt i
     let late : Prop := ∃ t, ch.gnss.trk[i].timer = some t ∧ t ≤ now
     let goes (k : Nat) (t : Option Nat) (d : Channel) : Prop :=
       Channel.onlyIn [.gnss] ch d ∧ d.trkSt i = k ∧ d.gnss.trk[i].timer = t ∧ (k = TRK_PULL_IN → st = TRK_SEARCH → d.gnss.trk[i].start = now) ∧ d.gnss.barred = ch.gnss.barred ∧
       ∀ j : Fin 48, j ≠ i → d.word .gnss (GNSS_TRK_STAT j.val) = ch.word .gnss (GNSS_TRK_STAT j.val) ∧ d.gnss.trk[j] = ch.gnss.trk[j]
     let rule (m : Instr) (p : Prop) (k : Nat) (t : Option Nat) : Prop :=
       (p → ActsOn m s c (goes k t)) ∧ (¬ p → ActsOn m s c (fun d => d = ch))
     (∀ (gal : Bool) (sv : Nat),
       let p := st = TRK_IDLE ∧ ch.linkSt = LINK_UP ∧ ch.sysOn gal = true ∧ ch.isBarred gal sv = false ∧ (ch.navSat gal sv).healthy = true
       (p → ActsOn (.trkAssignment c i gal sv) s c (fun d => goes TRK_SEARCH none d ∧ d.trkGal i = gal ∧ d.trkSv i = sv % 64 ∧ d.gnss.trk[i].moved = 0)) ∧
       (¬ p → ActsOn (.trkAssignment c i gal sv) s c (fun d => d = ch))) ∧
     rule (.trkDetection c i) (st = TRK_SEARCH) TRK_PULL_IN (some (now + 2 * 200000000)) ∧
     rule (.trkLock c i) (st = TRK_PULL_IN ∨ st = TRK_LOST) TRK_TRACK none ∧
     rule (.trkPullInTimeout c i) (st = TRK_PULL_IN ∧ late) TRK_SEARCH none ∧
     rule (.trkLockLost c i) (st = TRK_TRACK) TRK_LOST (some (now + 10 * 200000000)) ∧
     rule (.trkLostTimeout c i) (st = TRK_LOST ∧ late) TRK_IDLE none) ∧
  (∀ (s : State) (c : ChanIx) (i : Fin 48) (late : Bool), s.live c →
     let ch := s.ch[c]
     let now := ch.jour.tick
     let st := ch.trkSt i
     let past : Prop := st ≠ TRK_IDLE ∧ st ≠ TRK_SEARCH
     let d2 : Int := match ch.oldSpcFor i with
       | some o => if ch.trkGal i = true then o.galD2 else o.gpsD2
       | none => if ch.trkGal i = true then ch.fld F.GNSS_SPC_GAL_D2 else ch.fld F.GNSS_SPC_GPS_D2
     (st = TRK_SEARCH → ActsOn (.trkWindowExhausted c i) s c (fun d => Channel.onlyIn [.gnss] ch d ∧ d.trkSt i = TRK_IDLE ∧
       d.gnss.barred = ch.gnss.barred ++ [⟨ch.trkGal i, ch.trkSv i, now + 60 * 200000000⟩])) ∧
     (st ≠ TRK_SEARCH → ActsOn (.trkWindowExhausted c i) s c (fun d => d = ch)) ∧
     ActsOn (.trkReassignHoldoffEnd c) s c (fun d => Channel.onlyIn [.gnss] ch d ∧ d.regs = ch.regs ∧
       d.gnss = { ch.gnss with barred := ch.gnss.barred.filter (fun b => decide (now < b.until')) }) ∧
     (past → ActsOn (.sidePeakGuard c i late) s c (fun d => Channel.onlyIn [.gnss] ch d ∧ d.regs = ch.regs ∧
       d.gnss.trk[i] = { ch.gnss.trk[i] with moved := ch.gnss.trk[i].moved + (if late = true then d2 else -d2) } ∧
       ∀ j : Fin 48, j ≠ i → d.gnss.trk[j] = ch.gnss.trk[j])) ∧
     (¬ past → ActsOn (.sidePeakGuard c i late) s c (fun d => d = ch)))

/-- Navigation data of a tracked satellite is stored (R102, R110, R115): its ephemeris with the accuracy, its almanac, its health; GGTO and the
UTC parameters of its system, with UTCD where the two systems' parameters differ. An unhealthy satellite's channels go IDLE. Data of a
channel that does not track are dropped. -/
def Obligations.NavigationDataIsStored : Prop :=
  ∀ (s : State) (c : ChanIx) (i : Fin 48), s.live c →
    let ch := s.ch[c]
    let gal := ch.trkGal i
    let sv := ch.trkSv i
    let sat := ch.navSat gal sv
    let track : Prop := ch.trkSt i = TRK_TRACK
    let run (d : NavData) : Instr := .navigationDataDecoded c i d
    let fr (d : Channel) : Prop := Channel.onlyIn [.gnss, .asks] ch d
    (∀ x, ¬ track → ActsOn (run x) s c (fun d => d = ch)) ∧
    (∀ acc bs, track → ActsOn (run (.ephemeris acc bs)) s c (fun d => fr d ∧ d.regs = ch.regs ∧ d.navSat gal sv = { sat with eph := some (acc, bs) })) ∧
    (∀ bs, track → ActsOn (run (.almanac bs)) s c (fun d => fr d ∧ d.regs = ch.regs ∧ d.navSat gal sv = { sat with alm := some bs })) ∧
    (∀ g, track → ActsOn (run (.ggto g)) s c (fun d => fr d ∧ d.regs = ch.regs ∧ d.gnss = { ch.gnss with nav := { ch.gnss.nav with ggto := some g } })) ∧
    (∀ u, track → ActsOn (run (.utc u)) s c (fun d => fr d ∧
      d.gnss.nav = (if gal = true then { ch.gnss.nav with gal := some u } else { ch.gnss.nav with gps := some u }) ∧
      ((∃ a b, d.gnss.nav.gps = some a ∧ d.gnss.nav.gal = some b ∧ a ≠ b) → d.cur F.GNSS_EVT_UTCD = 1))) ∧
    (∀ ok, track → ActsOn (run (.health ok)) s c (fun d => fr d ∧ d.navSat gal sv = { sat with healthy := ok } ∧
      (ok = true → d.regs = ch.regs) ∧
      (ok = false → ∀ j : Fin 48, ch.trkGal j = gal → ch.trkSv j = sv → d.trkSt j = TRK_IDLE)))

/-- Frames of the sample link (R96 to R98, R116). Without EN nothing is taken. In DOWN a comma starts ALIGNING, and the frame of a running
capture is erased. Else a frame is good when its first
character is a comma at its place, its CRC agrees and its FSEQ follows; a bad one is counted; four good ones in a row bring the link UP, four
bad ones in a row take it DOWN, where every tracking channel is IDLE (R102). -/
def Obligations.SampleFramesDriveTheLink : Prop :=
  ∀ (s : State) (c : ChanIx) (comma : Bool) (bs : Bytes), s.live c →
    let ch := s.ch[c]
    let i := Instr.sampleLinkFrame c comma bs
    let fr (d : Channel) : Prop := Channel.onlyIn [.gnss, .asks] ch d
    let n := frameSamples (ch.fld F.GNSS_FE_CFG_RATE)
    let now := ch.jour.tick
    let crc : Prop := bs.length = 12 + n ∧ crc16 (slice bs 0 (10 + n)) = fromBe (slice bs (10 + n) 2)
    let good : Prop := comma = true ∧ crc ∧ (∀ e, ch.gnss.expect = some e → e = fromBe (slice bs 0 2)) ∧
      (∀ t, ch.gnss.comma = some t → (now - t) % 2000 ≤ 1 ∨ 1999 ≤ (now - t) % 2000)
    let err (d : Channel) : Prop := d.cur F.GNSS_LINK_STAT_CRC_ERR = (ch.cur F.GNSS_LINK_STAT_CRC_ERR + 1) % 65536
    (ch.flag F.GNSS_FE_CFG_EN = false → ActsOn i s c (fun d => d = ch)) ∧
    (ch.flag F.GNSS_FE_CFG_EN = true → ch.linkSt = LINK_DOWN →
      (comma = false → ActsOn i s c (fun d => d = ch.snapFrame false 0#8 [])) ∧
      (comma = true → ActsOn i s c (fun d => fr d ∧ d.linkSt = LINK_ALIGNING ∧ d.gnss.good = 0 ∧ d.gnss.bad = 0 ∧
        d.gnss.expect = none ∧ d.gnss.comma = some now ∧ d.cur F.GNSS_EVT_LINK = 1))) ∧
    (ch.flag F.GNSS_FE_CFG_EN = true → ch.linkSt ≠ LINK_DOWN →
      (good → ch.linkSt = LINK_ALIGNING → 3 ≤ ch.gnss.good → ActsOn i s c (fun d => fr d ∧ d.linkSt = LINK_UP ∧ d.gnss.good = 0 ∧ d.gnss.bad = 0 ∧
        d.gnss.expect = some ((fromBe (slice bs 0 2) + 1) % 65536) ∧ d.cur F.GNSS_EVT_LINK = 1)) ∧
      (good → ¬ (ch.linkSt = LINK_ALIGNING ∧ 3 ≤ ch.gnss.good) → ActsOn i s c (fun d => fr d ∧ d.linkSt = ch.linkSt ∧
        d.gnss.good = ch.gnss.good + 1 ∧ d.gnss.bad = 0 ∧ d.gnss.expect = some ((fromBe (slice bs 0 2) + 1) % 65536))) ∧
      (¬ good → ch.linkSt = LINK_UP → 3 ≤ ch.gnss.bad → ActsOn i s c (fun d => fr d ∧ d.linkSt = LINK_DOWN ∧ (∀ j : Fin 48, d.trkSt j = TRK_IDLE) ∧
        d.cur F.GNSS_EVT_LINK = 1 ∧ err d)) ∧
      (¬ good → ¬ (ch.linkSt = LINK_UP ∧ 3 ≤ ch.gnss.bad) → ActsOn i s c (fun d => fr d ∧ d.linkSt = ch.linkSt ∧ d.gnss.good = 0 ∧
        d.gnss.bad = ch.gnss.bad + 1 ∧ err d)))

/-- The back-channel (R99, R100): GO with OP 1 or 2 makes an operation outstanding under the next TAG, which runs from 1 to 255; the next 10 us
period's message carries it, and every other message is idle (whose TAG, ADDR and DATA are the model's choice, notes/assumptions/99.md): OP,
TAG, ADDR and DATA, most significant byte first, the CRC-16 over them, and 114 FILL characters; 80 us after its message the operation ends with
TOUT. GO while one is outstanding, or with another OP, does nothing, and so does a message before its period. -/
def Obligations.BackChannelCarriesOneOperation : Prop :=
  ∀ (s : State) (p : HostPath) (c : ChanIx) (v : Word), s.open p → s.running c = true →
    let ch := s.ch[c]
    let op := getField v 24 2
    let now := ch.jour.tick
    let tag := if ch.gnss.bcTag = 255 then 1 else ch.gnss.bcTag + 1
    let fr (d : Channel) : Prop := Channel.onlyIn [.gnss, .jour, .asks] ch d
    let starts : Prop := bit v 31 = true ∧ ch.gnss.bc = none ∧ (op = 1 ∨ op = 2)
    let sends (d : Channel) (o t a : Nat) (w : Word) : Prop :=
      let m := beBytes 1 o ++ beBytes 1 t ++ beBytes 2 a ++ beBytes 4 w.toNat
      d.effs = ch.effs ++ [.backMsg (m ++ beBytes 2 (crc16 m) ++ List.replicate 114 0#8)]
    let early : Prop := ∃ t, ch.gnss.bcAt = some t ∧ now < t + 2000
    (ch.hasPart .gnss GNSS_BC_CMD = true → starts → ActsOn (.backChannelGo p c v) s c (fun d => fr d ∧ d.cur F.GNSS_BC_STAT_BUSY = 1 ∧
      d.gnss = { ch.gnss with
        bc := some ⟨tag, op, getField v 0 16, if op = 1 then ch.word .gnss GNSS_BC_DATA else 0#32, none⟩, bcTag := tag })) ∧
    (ch.hasPart .gnss GNSS_BC_CMD = true → ¬ starts → ActsOn (.backChannelGo p c v) s c (fun d => fr d ∧ d.gnss = ch.gnss)) ∧
    (early → ActsOn (.backChannelMessage c) s c (fun d => d = ch)) ∧
    (∀ o, ¬ early → ch.gnss.bc = some o → o.sent = none → ActsOn (.backChannelMessage c) s c (fun d => Channel.onlyIn [.gnss, .asks] ch d ∧ d.regs = ch.regs ∧
      d.gnss = { ch.gnss with bc := some { o with sent := some now }, bcAt := some now } ∧ sends d o.op o.tag o.addr o.data)) ∧
    (¬ early → (∀ o, ch.gnss.bc = some o → o.sent ≠ none) → ActsOn (.backChannelMessage c) s c (fun d => Channel.onlyIn [.gnss, .asks] ch d ∧
      d.regs = ch.regs ∧ d.gnss = { ch.gnss with bcAt := some now } ∧ sends d 0 0 0 0#32)) ∧
    (∀ o t, ch.gnss.bc = some o → o.sent = some t → t + 16000 ≤ now → ActsOn (.backChannelTimeout c) s c (fun d =>
      Channel.onlyIn [.gnss, .asks] ch d ∧ d.gnss = { ch.gnss with bc := none } ∧ d.cur F.GNSS_BC_STAT_BUSY = 0 ∧ d.cur F.GNSS_BC_STAT_TOUT = 1)) ∧
    ((∀ o t, ch.gnss.bc = some o → o.sent = some t → now < t + 16000) → ActsOn (.backChannelTimeout c) s c (fun d => d = ch))

/-- Notches and jamming (R105 to R108). A notch in SEARCH locks on the strongest of the four strongest lines over THR that no other notch holds; a
LOCKED one follows its line, the nearest, returns to SEARCH where that is none of the four strongest or has stayed below THR for 100 ms; of two
LOCKED notches within 50 kHz the higher-numbered is in SEARCH thereafter. Notches OFF or FIXED stay. The jamming indicator of a millisecond is
its mean AGC byte less the floor plus PQ, kept within 0 and 255, and raises JWARN and JALARM at their thresholds; a floor capture takes one second
and leaves the mean AGC byte of that second as the floor (the mean's rounding is the model's choice, and the mean of a time without frames, on which the spec is silent, is whatever the command brings: notes/assumptions/99.md). -/
def Obligations.NotchesAndJammingIndicator : Prop :=
  (∀ (s : State) (c : ChanIx) (k : Fin 4) (lines : List (Int × Nat)), s.live c →
    let ch := s.ch[c]
    let now := ch.jour.tick
    let st := ch.notchSt k.val
    let fr (d : Channel) : Prop := Channel.onlyIn [.gnss, .asks] ch d
    let others (d : Channel) : Prop := ∀ j : Fin 4, j ≠ k → d.word .gnss (GNSS_NOTCH_STAT j.val) = ch.word .gnss (GNSS_NOTCH_STAT j.val)
    let apart (d : Channel) : Prop :=
      ∀ i j : Fin 4, i < j → d.notchSt i.val = NOTCH_LOCKED → d.notchSt j.val = NOTCH_LOCKED → 50000 < (d.notchFreq i - d.notchFreq j).natAbs
    let far (f : Int) : Prop := (-2 ^ 26 ≤ f ∧ f < 2 ^ 26) ∧ ∀ j : Fin 4, j ≠ k → ch.notchSt j.val = NOTCH_LOCKED → 50000 < (ch.notchFreq j - f).natAbs
    let free (l : Int × Nat) : Bool := !(List.finRange 4).any (fun j => j != k && Channel.notchOn (ch.notchSt j.val) && ch.notchFreq j == l.1)
    let top := (ch.linesOver lines).take 4
    let its (l : Int × Nat) : Prop := l ∈ lines ∧ ∀ x ∈ lines, x ≠ l → (l.1 - ch.notchFreq k).natAbs < (x.1 - ch.notchFreq k).natAbs
    let low : Prop := lines = [] ∨ ∃ l, its l ∧ l.2 < ch.fld F.GNSS_JAM_CFG_THR
    let since := (ch.gnss.notchLow[k]).getD now
    let lets (d : Channel) : Prop := fr d ∧ others d ∧ d.notchSt k.val = NOTCH_SEARCH ∧ d.cur (F.GNSS_NOTCH_STAT_FREQ k.val) = 0 ∧ d.cur F.GNSS_EVT_NOTCH = 1
    (∀ i ∈ [Instr.notchLock c k lines, .notchRelease c ⟨k, lines⟩], ActsOn i s c (fun d => fr d ∧ apart d) ∧
      ((st = NOTCH_OFF ∨ st = NOTCH_FIXED) → apart ch → ActsOn i s c (fun d => d = ch)) ∧
      (∀ l, st = NOTCH_LOCKED → apart ch → its l → l ∈ top → far l.1 → ActsOn i s c (fun d => fr d ∧ others d ∧ d.notchSt k.val = NOTCH_LOCKED ∧
        d.cur (F.GNSS_NOTCH_STAT_FREQ k.val) = unsigned 27 l.1 ∧ d.gnss = { ch.gnss with notchLow := ch.gnss.notchLow.set k none }))) ∧
    (∀ l, st = NOTCH_SEARCH → apart ch → top.find? free = some l → far l.1 → ActsOn (.notchLock c k lines) s c (fun d => fr d ∧ others d ∧
      d.notchSt k.val = NOTCH_LOCKED ∧ d.cur (F.GNSS_NOTCH_STAT_FREQ k.val) = unsigned 27 l.1 ∧ d.cur F.GNSS_EVT_NOTCH = 1 ∧
      d.gnss = { ch.gnss with notchLow := ch.gnss.notchLow.set k none })) ∧
    (st = NOTCH_SEARCH → apart ch → top.find? free = none → ActsOn (.notchLock c k lines) s c (fun d => d = ch)) ∧
    (st = NOTCH_SEARCH → apart ch → ActsOn (.notchRelease c ⟨k, lines⟩) s c (fun d => d = ch)) ∧
    (∀ l, st = NOTCH_LOCKED → apart ch → its l → ch.fld F.GNSS_JAM_CFG_THR ≤ l.2 → l ∉ top → ActsOn (.notchRelease c ⟨k, lines⟩) s c lets) ∧
    (st = NOTCH_LOCKED → apart ch → low → since + 20000000 ≤ now → ActsOn (.notchRelease c ⟨k, lines⟩) s c lets) ∧
    (st = NOTCH_LOCKED → apart ch → low → now < since + 20000000 → ∀ i ∈ [Instr.notchLock c k lines, .notchRelease c ⟨k, lines⟩],
      ActsOn i s c (fun d => fr d ∧ d.regs = ch.regs ∧ d.gnss = { ch.gnss with notchLow := ch.gnss.notchLow.set k (some since) }))) ∧
  ∀ (s : State) (c : ChanIx) (idle : Byte) (pq : Nat) (p : HostPath) (v : Word), s.live c →
    let ch := s.ch[c]
    let now := ch.jour.tick
    let fr (d : Channel) : Prop := Channel.onlyIn [.gnss, .asks] ch d
    let mean (x : Nat × Nat) : Nat := if x.2 = 0 then idle.toNat else x.1 / x.2
    let j : Nat := (min 255 (max 0 ((mean ch.gnss.agcMs : Int) - ch.cur F.GNSS_JAM_CFG_FLOOR + pq))).toNat
    let early : Prop := ∃ t, ch.gnss.jniAt = some t ∧ now < t + 200000
    (early → ActsOn (.jniUpdate c idle pq) s c (fun d => d = ch)) ∧
    (¬ early → ActsOn (.jniUpdate c idle pq) s c (fun d => fr d ∧ d.cur F.GNSS_JAM_STAT_JNI = j ∧ d.gnss.jniSec = max ch.gnss.jniSec j ∧
      d.gnss.jniAt = some now ∧ d.gnss.agcMs = (0, 0) ∧
      (ch.fld F.GNSS_JAM_CFG_WARN ≤ j → d.cur F.GNSS_EVT_JWARN = 1) ∧
      (ch.fld F.GNSS_JAM_CFG_ALARM ≤ j → d.cur F.GNSS_EVT_JALARM = 1 ∧ d.gnss.alarmAt = some now) ∧
      (j < ch.fld F.GNSS_JAM_CFG_ALARM → d.gnss.alarmAt = ch.gnss.alarmAt))) ∧
    (s.open p → ch.hasPart .gnss GNSS_JAM_STAT = true → ActsOn (.jamFloorCapture p c v) s c (fun d => Channel.onlyIn [.gnss, .jour, .asks] ch d ∧
      d.gnss = if bit v 0 = true then { ch.gnss with floorEnd := some (now + 200000000), agcFl := (0, 0) } else ch.gnss)) ∧
    ((∃ t, ch.gnss.floorEnd = some t ∧ t ≤ now) → ActsOn (.jamFloorCaptureEnd c idle) s c (fun d => Channel.onlyIn [.gnss] ch d ∧
      d.gnss = { ch.gnss with floorEnd := none } ∧ d.cur F.GNSS_JAM_CFG_FLOOR = mean ch.gnss.agcFl % 256)) ∧
    ((∀ t, ch.gnss.floorEnd = some t → now < t) → ActsOn (.jamFloorCaptureEnd c idle) s c (fun d => d = ch))

/-- The position (R109, R110): SET holds the position written, CLR has none; either ends a survey, whose command ends with RESULT 0x0A; both
together do nothing. A survey command starts the survey of its channel once. A fix of a running survey, one in a second and with at least
four usable satellites, counts into the mean; the fix that completes it makes the mean, with the spread and the margin, the held position, and its command ends. -/
def Obligations.PositionsAndSurveys : Prop :=
  (∀ (s : State) (p : HostPath) (c : ChanIx) (v : Word), s.open p → s.running c = true → s.ch[c].hasPart .gnss GNSS_POS_CTL = true →
    let ch := s.ch[c]
    let fr (d : Channel) : Prop := Channel.onlyIn [.gnss, .jour, .asks] ch d
    let ends (d : Channel) : Prop := d.gnss.survey = none ∧ ∀ x, ch.gnss.survey = some x → Eff.opEnd x.slot 0x0A (ch.cur F.GNSS_SURV_STAT_SPREAD) ∈ d.effs
    ∀ i ∈ [Instr.posSet p c v, .posClr p c v],
      (bit v 31 = true → bit v 30 = false → ActsOn i s c (fun d => fr d ∧ ends d ∧ d.gnss.pos = some ch.posWritten ∧ d.posMode = POS_HOLD)) ∧
      (bit v 31 = false → bit v 30 = true → ActsOn i s c (fun d => fr d ∧ ends d ∧ d.gnss.pos = none ∧ d.posMode = POS_NONE)) ∧
      (bit v 31 = bit v 30 → ActsOn i s c (fun d => fr d ∧ d.gnss = ch.gnss))) ∧
  (∀ (s : State) (slot : Fin 64) (m : CmdSt), s.scanning = false → s.running? slot.val 1 = some m → s.running m.chan = true →
    (m.begun = false → Acts (.cmdGnssSurvey slot) s (fun u => State.onlyIn [.cmdq, .ch, .out] s u ∧ s.changed u m.chan (fun d =>
      Channel.onlyIn [.gnss, .asks] s.ch[m.chan] d ∧ d.posMode = POS_SURVEYING ∧ d.cur F.GNSS_SURV_STAT_FIXES = 0 ∧ d.cur F.GNSS_SURV_STAT_SPREAD = 0xFFFF ∧
      ∃ x, d.gnss.survey = some x ∧ x.slot = slot.val ∧ x.fixes = 0 ∧ x.suspended = false ∧ x.means = []))) ∧
    (m.begun = true → Acts (.cmdGnssSurvey slot) s (fun u => State.onlyIn [.out] s u))) ∧
  ∀ (s : State) (c : ChanIx) (x y z : Int), s.live c →
    let ch := s.ch[c]
    let i := Instr.surveyFix c x y z
    let Runs (q : Channel → Prop) : Prop := Acts i s (fun u => State.onlyIn [.cmdq, .ch, .out] s u ∧ s.changed u c q)
    let counts (v : Survey) : Prop := ch.gnss.survey = some v ∧ v.suspended = false ∧ v.lastFix ≠ some ch.nowSec ∧ 4 ≤ ch.gnss.usableN
    (∀ v : Survey, counts v →
      let n := v.fixes + 1
      let sum := (v.sum.1 + x, v.sum.2.1 + y, v.sum.2.2 + z)
      let mean := (Int.fdiv sum.1 n, Int.fdiv sum.2.1 n, Int.fdiv sum.2.2 n)
      let ms := (mean :: v.means).take 600
      let sp := Channel.spread ms
      let ends : Prop := 600 ≤ n ∧ v.minFix ≤ n ∧ sp ≤ v.posLim
      (ends → Runs (fun d => Channel.onlyIn [.gnss, .asks] ch d ∧ d.gnss.survey = none ∧ d.posMode = POS_HOLD ∧
        d.gnss.pos = some (mean.1, mean.2.1, mean.2.2, min SAT (sp + v.margin)) ∧ Eff.opEnd v.slot 0 (min 0xFFFF sp) ∈ d.effs)) ∧
      (¬ ends → Runs (fun d => Channel.onlyIn [.gnss, .asks] ch d ∧ d.gnss = { ch.gnss with survey := some { v with fixes := n, sum := sum, means := ms, lastFix := some ch.nowSec } } ∧
        d.cur F.GNSS_SURV_STAT_FIXES = min 65535 n ∧ d.cur F.GNSS_SURV_STAT_SPREAD = min 0xFFFF sp))) ∧
    ((∀ v, ¬ counts v) → Runs (fun d => d = ch))

/-- The timing solution (R106, R108, R111, R113, R114): at a whole second the epoch is sampled once, with the usable satellites, and what the
second has seen starts anew, the exclusions with it; 2.5 ms later its record is registered on L8 in that tick (with what else the tick
registers, R81), saturated and with FREQ 0 where the second was spoilt. -/
def Obligations.EpochsBecomeRecordsOfL8 : Prop :=
  ∀ (s : State) (c : ChanIx) (ms : List SatMeas), s.live c →
    let ch := s.ch[c]
    let now := ch.jour.tick
    (∀ x : Int, ch.secondHere = some x → ch.gnss.lastEpoch ≠ some now → ch.flag F.GNSS_FE_CFG_EN = true →
      ActsOn (.gnssEpochSample c ms) s c (fun d => Channel.onlyIn [.gnss] ch d ∧ d.gnss.lastEpoch = some now ∧ d.gnss.jniSec = 0 ∧
        d.cur F.GNSS_JAM_STAT_JNI_MAX = ch.gnss.jniSec % 256 ∧ (∀ i : Fin 48, d.cur (F.GNSS_TRK_STAT_EXCL i.val) = 0) ∧
        ∃ e, d.gnss.epoch = some e ∧ e.e = x * 2 ^ 64 ∧ e.tick = now ∧ e.spoilt = (ch.spoiltNow || ch.heldPos.isNone) ∧
        e.sats = ch.usable ms (match ch.heldPos with
          | some p => p.2.2.2
          | none => 0) (x * 2 ^ 64) ∧ d.gnss.usableN = e.sats.length)) ∧
    ((ch.secondHere = none ∨ ch.gnss.lastEpoch = some now ∨ ch.flag F.GNSS_FE_CFG_EN = false) →
      ActsOn (.gnssEpochSample c ms) s c (fun d => d = ch)) ∧
    (∀ e : Epoch, ch.gnss.epoch = some e → (ch.lane 8).exist = true → e.tick + 500000 ≤ now →
      Acts (.gnssL8Record c) s (fun u => State.onlyIn [.ch, .out] s u ∧ (∀ m : ChanIx, m ≠ c → u.ch[m] = s.ch[m]) ∧ u.ch[c].gnss.epoch = none ∧
        ∃ r : MeasRec, r.lane = 8 ∧ r.refTs = e.e ∧ r.phaseOnly = false ∧ r.freqOnly = false ∧
          (e.spoilt = true → r.teb = SAT ∧ r.offset = 0 ∧ r.freq = 0 ∧ r.fb = SAT) ∧
          (s.recordWaits c = true → (now, r) ∈ u.ch[c].ref.measured) ∧ (s.recordWaits c = false → u.ch[c].hasRegistered r))) ∧
    ((∀ e : Epoch, ch.gnss.epoch = some e → now < e.tick + 500000) →
      Acts (.gnssL8Record c) s (fun u => u = (s.clear.onCh c id).beginTick c))

/-- Snapshots (R116 to R118): a write of SNAP_CTL with LEN outside 2 to 64 is ignored; GO arms a capture unless one is under way; an armed capture starts at a frame, at or after T0
where AT is set, and is FULL once its frames are stored. The processing command waits while a tracking channel searches; then it ends with 0 and
the result of a complete snapshot in HOLD, else with RESULT 0x09. -/
def Obligations.SnapshotsAreCapturedAndProcessed : Prop :=
  (∀ (s : State) (p : HostPath) (c : ChanIx) (v : Word), s.open p → s.running c = true → s.ch[c].hasPart .gnss GNSS_SNAP_CTL = true →
    let ch := s.ch[c]
    let i := Instr.snapGo p c v
    let fr (d : Channel) : Prop := Channel.onlyIn [.gnss, .jour, .asks] ch d
    let len := getField v 0 7
    let st := ch.cur F.GNSS_SNAP_STAT_STATE
    let legal : Prop := 2 ≤ len ∧ len ≤ 64
    let takes : Prop := bit v 31 = true ∧ legal
    let busy : Prop := st = SNAP_ARMED ∨ st = SNAP_CAPTURING ∨ st = SNAP_PROCESSING
    (takes → ¬ busy → ActsOn i s c (fun d => fr d ∧ d.gnss = { ch.gnss with snap := none } ∧ d.cur F.GNSS_SNAP_STAT_STATE = SNAP_ARMED ∧
      d.cur F.GNSS_SNAP_STAT_ERASED = 0 ∧ d.cur F.GNSS_SNAP_CTL_LEN = len)) ∧
    (takes → busy → ActsOn i s c (fun d => fr d ∧ d.gnss = ch.gnss ∧ d.cur F.GNSS_SNAP_STAT_STATE = st ∧ d.cur F.GNSS_SNAP_STAT_BUSY = 1)) ∧
    (legal → bit v 31 = false → ActsOn i s c (fun d => fr d ∧ d.gnss = ch.gnss ∧ d.cur F.GNSS_SNAP_STAT_STATE = st ∧ d.cur F.GNSS_SNAP_CTL_LEN = len)) ∧
    (¬ legal → ActsOn i s c (fun d => fr d ∧ d.gnss = ch.gnss ∧ d.word .gnss = ch.word .gnss))) ∧
  (∀ (s : State) (c : ChanIx) (ps : Nat), s.live c →
    let ch := s.ch[c]
    let t := (ch.stampAt ps).1
    let st := ch.cur F.GNSS_SNAP_STAT_STATE
    let starts : Prop := st = SNAP_ARMED ∧ (ch.cur F.GNSS_SNAP_CTL_AT = 0 ∨ ch.snapT0 ≤ t)
    (starts → ActsOn (.snapCaptureStart c ps) s c (fun d => Channel.onlyIn [.gnss] ch d ∧ d.cur F.GNSS_SNAP_STAT_STATE = SNAP_CAPTURING ∧
      ∃ x, d.gnss = { ch.gnss with snap := some x } ∧ x.len = ch.cur F.GNSS_SNAP_CTL_LEN ∧ x.t0 = t ∧ x.t0teb = ch.tebAt t ∧ x.complete = false ∧ x.frames = [])) ∧
    (¬ starts → ActsOn (.snapCaptureStart c ps) s c (fun d => d = ch)) ∧
    (∀ x, ch.gnss.snap = some x → st = SNAP_CAPTURING → x.len * 100 ≤ x.frames.length → ActsOn (.snapCaptureComplete c) s c (fun d =>
      Channel.onlyIn [.gnss, .asks] ch d ∧ d.gnss = { ch.gnss with snap := some { x with complete := true } } ∧
      d.cur F.GNSS_SNAP_STAT_STATE = SNAP_FULL ∧ d.cur F.GNSS_EVT_SNAP = 1)) ∧
    ((∀ x, ch.gnss.snap = some x → st = SNAP_CAPTURING → x.frames.length < x.len * 100) → ActsOn (.snapCaptureComplete c) s c (fun d => d = ch))) ∧
  ∀ (s : State) (slot : Fin 64) (ms : List SatMeas) (m : CmdSt), s.scanning = false → s.running? slot.val 7 = some m → s.running m.chan = true →
    let ch := s.ch[m.chan]
    let i := Instr.cmdSnapshotProcessing slot ms
    let fr (d : Channel) : Prop := Channel.onlyIn [.gnss, .asks] ch d
    let waits : Prop := ∃ j : Fin 48, ch.trkSt j = TRK_SEARCH
    let can (x : Snap) : Prop := ch.gnss.snap = some x ∧ x.complete = true ∧ ch.posMode = POS_HOLD ∧ ch.gnss.pos ≠ none
    (waits → ActsOn i s m.chan (fun d => d = ch)) ∧
    (∀ x, ¬ waits → can x → ActsOn i s m.chan (fun d => fr d ∧ d.cur F.GNSS_EVT_SNAP = 1 ∧ d.cur F.GNSS_SNAP_STAT_STATE = SNAP_DONE ∧
      Eff.opEnd slot.val 0 0 ∈ d.effs ∧ ∃ bs, d.gnss = { ch.gnss with snap := some { x with processed := true, result := some bs } })) ∧
    (¬ waits → (∀ x, ¬ can x) → ActsOn i s m.chan (fun d => fr d ∧ d.cur F.GNSS_EVT_SNAP = 1 ∧ Eff.opEnd slot.val 0x09 0 ∈ d.effs ∧ d.gnss = ch.gnss))

/-! ### Servos, holdover, steps, characterization, vintages -/

/-- DPLL_A takes the first due record (R126, R127, R131, R132): by less than the slewing threshold it moves the drain and the rate by the
proportional and integral gains of its bandwidth code, past it only the drain; the initial set moves the counter; a saturated record of L8
moves nothing (R114). The bound, the time it counts from and the last REF_TS are the record's. Without a due record nothing is applied. -/
def Obligations.ServoAAppliesDueRecords : Prop :=
  ∀ (s : State) (c : ChanIx) (r : MeasRec) (b : Bool), s.live c →
    let ch := s.ch[c]
    let x := ch.dpll
    let i := Instr.servoAApply c
    let fr (d : Channel) : Prop := Channel.onlyIn [.ref, .dpll, .jour, .syn, .asks] ch d
    let hold : Prop := Channel.inert r = true
    let set : Prop := ¬ hold ∧ x.trace = false ∧ ch.flag F.DPLL_A_CFG_SET_EN = true ∧ 0 < r.offset
    let first : Prop := b = true ∨ x.first = true ∨ ∃ l, x.lastTs = some l ∧ r.refTs ≤ l
    let ax (e : Int) : Nat := axOf e
    let sl : Bool := if ch.fld F.DPLL_SL_TH_SL_TH < ax r.offset then true else if ax r.offset ≤ ch.fld F.DPLL_LOCK_TH_LOCK_TH then false else x.sl
    let bwc (e : Int) : Nat := if x.st = .locked ∧ ax e ≤ ch.fld F.DPLL_UNLOCK_TH_UNLOCK_TH
      then max (ch.fld F.DPLL_BW_A_BW_LOCK) (x.bwc - ch.fld F.DPLL_ADAPT_NARROW) else x.bwc
    let base (e : Int) (d : Channel) : Prop :=
      fr d ∧ d.dpll.waitA = x.waitA.filter (fun z => z != r) ∧ d.dpll.waitB = x.waitB ∧ d.dpll.t0 = r.refTs ∧ d.dpll.first = false ∧ d.dpll.hoAct = false ∧
      d.dpll.lastTs = some (match x.lastTs with
        | some l => max l r.refTs
        | none => r.refTs) ∧
      d.dpll.teb0 = satAdd (satAdd r.teb (satCap (axOf e))) ch.dal ∧ d.dpll.rateB = x.rateB ∧ d.dpll.bst = x.bst
    (ch.nextDue x.waitA = some r → ch.takes .a r = some b →
      (set → ActsOn i s c (fun d => base 0 d ∧ d.dpll.ctr = x.ctr + r.offset * 2 ^ 32 ∧ d.dpll.sl = false)) ∧
      (¬ set → ActsOn i s c (fun d => base r.offset d ∧ d.dpll.ctr = x.ctr ∧
        d.dpll.sl = sl ∧ (hold → d.dpll.pend = x.pend ∧ d.dpll.rate = x.rate) ∧
        (¬ hold → sl = true → d.dpll.pend = r.offset * 2 ^ 32 ∧ d.dpll.rate = x.rate) ∧
        (¬ hold → sl = false →
          (first → d.dpll.pend = x.pend ∧ d.dpll.rate = x.rate) ∧
          ∀ l, ¬ first → x.lastTs = some l →
            let w := wOf (bwc r.offset) (r.refTs - l)
            let kp := min (sar (kpC * w) 32) (2 ^ 32)
            let ki := min (sar (kiC * w * w) 64) kp
            d.dpll.pend = x.pend + sar (kp * (r.offset * 2 ^ 32)) 32 ∧
            d.dpll.rate = clampAbs (2 ^ 50) (x.rate + Int.fdiv (ki * r.offset * 2 ^ 32) (r.refTs - l)))))) ∧
    (ch.nextDue x.waitA = none → ActsOn i s c (fun d => d = ch))

/-- DPLL_B takes the first due record (R126, R127, R133): it tracks, its FB is the record's, its rate starts at the record's frequency against
the rate of DPLL_A, and follows it afterwards by the gain of its bandwidth. DPLL_A stays. Without a due record nothing is applied. -/
def Obligations.ServoBAppliesDueRecords : Prop :=
  ∀ (s : State) (c : ChanIx) (r : MeasRec) (b : Bool), s.live c →
    let ch := s.ch[c]
    let x := ch.dpll
    let i := Instr.servoBApply c
    let first : Prop := b = true ∨ x.firstB = true ∨ x.bst = .hold ∨ ∃ l, x.lastTsB = some l ∧ r.refTs ≤ l
    (ch.nextDue x.waitB = some r → ch.takes .b r = some b → ActsOn i s c (fun d =>
      Channel.onlyIn [.ref, .dpll, .jour, .asks] ch d ∧ d.dpll.waitB = x.waitB.filter (fun z => z != r) ∧ d.dpll.waitA = x.waitA ∧
      d.dpll.lastTsB = some (match x.lastTsB with
        | some l => max l r.refTs
        | none => r.refTs) ∧
      d.dpll.fbB = r.fb ∧ d.dpll.bst = .track ∧ d.dpll.ctr = x.ctr ∧ d.dpll.rate = x.rate ∧ d.dpll.pend = x.pend ∧ d.dpll.st = x.st ∧
      (Channel.inert r = true → d.dpll.rateB = ch.rateBNow) ∧
      (Channel.inert r = false → x.bst = .free → d.dpll.rateB = r.freq + x.rate) ∧
      (Channel.inert r = false → x.bst ≠ .free → first → d.dpll.rateB = ch.rateBNow) ∧
      ∀ l, Channel.inert r = false → x.bst ≠ .free → ¬ first → x.lastTsB = some l →
        d.dpll.rateB = ch.rateBNow + sar (min (sar (kbC * wOf (ch.fld F.DPLL_B_CFG_BW_B) (r.refTs - l)) 32) (2 ^ 32) * (r.freq + x.rate - ch.rateBNow)) 32)) ∧
    (ch.nextDue x.waitB = none → ActsOn i s c (fun d => d = ch))

/-- The channel time state (R134, R135, R123): a channel that has a lane again acquires, with its bandwidth at BW_ACQ; one that loses its lane
holds over from its bound, or runs free where it never locked; DPLL_B without a lane holds; past the ceiling holdover is limited; and each
whole second of a holdover that the tick holds ages the rate by HO_AGE (R29). TEB_0 saturated in a fall to FREERUN is the model's choice
(notes/assumptions/90.md). -/
def Obligations.HoldoverFollowsTheLanes : Prop :=
  ∀ (s : State) (c : ChanIx), s.live c →
    let ch := s.ch[c]
    let x := ch.dpll
    let fr (d : Channel) : Prop := Channel.onlyIn [.dpll, .jour, .asks] ch d
    let starts : Prop := (x.st = .freerun ∨ x.st = .holdover ∨ x.st = .holdoverLimit) ∧ ch.ref.selA.prev ≠ none
    let losesA : Prop := (x.st = .acquiring ∨ x.st = .locked) ∧ ch.ref.selA.prev = none
    let losesB : Prop := x.bst = .track ∧ ch.ref.selB.prev = none
    let limit : Prop := x.st = .holdover ∧ x.hoAct = true ∧ ch.fld F.DPLL_HO_CEIL_CEIL < ch.tebHo (ch.hoSecs ch.spanEndT)
    let ages : Prop := ch.secondsHere ≠ 0 ∧ (x.st = .holdover ∨ x.st = .holdoverLimit) ∧ ch.flag F.DPLL_A_CFG_AGE_EN = true ∧
      x.agedAt ≠ some ch.jour.tick
    (starts → ActsOn (.channelAcquireStart c) s c (fun d => fr d ∧ d.cur F.DPLL_EVT_STATE = 1 ∧
      d.dpll = { x with bwc := ch.fld F.DPLL_BW_A_BW_ACQ, first := true, lockCnt := 0, st := .acquiring })) ∧
    (¬ starts → ActsOn (.channelAcquireStart c) s c (fun d => d = ch)) ∧
    (losesA → x.hoValid = true → ActsOn (.holdoverEntry c) s c (fun d => fr d ∧ d.dpll.st = .holdover ∧ d.dpll.hoAct = true ∧ d.dpll.hoEntry = ch.now ∧
      d.dpll.tebH = ch.teb ∧ d.dpll.bEff = satAdd ch.hoCoef.1 (min ch.fbNow x.lfb) ∧ d.dpll.rate = x.rate ∧ d.cur F.DPLL_EVT_STATE = 1)) ∧
    (losesA → x.hoValid = false → ActsOn (.holdoverEntry c) s c (fun d => fr d ∧ d.dpll.st = .freerun ∧ d.dpll.teb0 = SAT ∧ d.dpll.rate = x.rate ∧
      d.cur F.DPLL_EVT_STATE = 1)) ∧
    (losesB → ActsOn (.holdoverEntry c) s c (fun d => fr d ∧ d.dpll.bst = .hold ∧ d.dpll.firstB = true ∧ d.dpll.rateB = x.rateB ∧ d.cur F.DPLL_EVT_BSTATE = 1)) ∧
    (¬ losesA → ¬ losesB → ActsOn (.holdoverEntry c) s c (fun d => d = ch)) ∧
    (limit → ActsOn (.holdoverLimitEntry c) s c (fun d => fr d ∧ d.dpll = { x with st := .holdoverLimit } ∧ d.cur F.DPLL_EVT_LIMIT = 1 ∧ d.cur F.DPLL_EVT_STATE = 1)) ∧
    (¬ limit → ActsOn (.holdoverLimitEntry c) s c (fun d => d = ch)) ∧
    (ages → ActsOn (.hoAgingIncrement c) s c (fun d => fr d ∧
      d.dpll = { x with rate := clampAbs (2 ^ 50) (x.rate + ch.secondsHere * ch.hoAge), agedAt := some ch.jour.tick })) ∧
    (¬ ages → ActsOn (.hoAgingIncrement c) s c (fun d => d = ch))

/-- STEP_CMD (R140, R141): ABORT withdraws the step that waits, else it is rejected; then GO takes STEP_VAL: with ABS it waits for the next whole
second, else it is due with the next tick; a GO while a step waits is rejected. The absolute step moves the counter by whole seconds to the
second that STEP_VAL gives, drops the waiting records, and is noted in the cellar book. -/
def Obligations.OperatorStepsWaitForTheirTime : Prop :=
  (∀ (s : State) (p : HostPath) (c : ChanIx) (v : Word), s.open p → s.running c = true →
    let ch := s.ch[c]
    let x := ch.dpll
    let fr (d : Channel) : Prop := Channel.onlyIn [.dpll, .jour, .asks] ch d
    let go := bit v 31
    let ab := bit v 28
    ∀ i ∈ [Instr.stepGo p c v, .stepAbort p c v],
      (go = true → (x.stepWait = none ∨ ab = true) → bit v 30 = true → ActsOn i s c (fun d => fr d ∧ d.cur F.DPLL_STEP_CMD_WAIT = 1 ∧
        d.dpll = { x with stepWait := some (sar ch.now 64 + 1, ch.stepVal, p.org) })) ∧
      (go = true → (x.stepWait = none ∨ ab = true) → bit v 30 = false → ActsOn i s c (fun d => fr d ∧
        d.dpll = { x with stepWait := none, stepNext := some (ch.stepVal, p.org) })) ∧
      (go = true → x.stepWait ≠ none → ab = false → ActsOn i s c (fun d => fr d ∧ d.dpll = x ∧ d.cur F.DPLL_EVT_STEP_REJ = 1)) ∧
      (go = false → ab = true → x.stepWait ≠ none → ActsOn i s c (fun d => fr d ∧ d.dpll = { x with stepWait := none } ∧ d.cur F.DPLL_STEP_CMD_WAIT = 0)) ∧
      (ab = true → x.stepWait = none → ActsOn i s c (fun d => fr d ∧ d.cur F.DPLL_EVT_STEP_REJ = 1)) ∧
      (go = false → ab = false → ActsOn i s c (fun d => fr d ∧ d.dpll = x))) ∧
  ∀ (s : State) (c : ChanIx), s.live c →
    let ch := s.ch[c]
    let x := ch.dpll
    (∀ (z : Int) (w : Gt) (o : Origin), x.stepWait = some (z, w, o) → ch.reached (z * 2 ^ 64) = true →
      let delta := (sar w 64 - z) * 2 ^ 64
      ActsOn (.stepAbsApply c) s c (fun d => Channel.onlyIn [.dpll, .jour, .asks] ch d ∧ d.dpll.stepWait = none ∧ d.dpll.ctr = x.ctr + delta * 2 ^ 32 ∧
        d.dpll.rate = x.rate ∧ d.dpll.pend = x.pend ∧ d.dpll.waitA = [] ∧ d.dpll.waitB = [] ∧ d.cur F.DPLL_STEP_CMD_WAIT = 0 ∧ d.cur F.DPLL_EVT_STEP = 1 ∧
        Eff.book ⟨o, 0x04, winReg ch.ix .dpll (DPLL_TIME 2), wordOf delta 2, wordOf delta 1⟩ ∈ d.effs)) ∧
    ((∀ z w o, x.stepWait = some (z, w, o) → ch.reached (z * 2 ^ 64) = false) → ActsOn (.stepAbsApply c) s c (fun d => d = ch))

/-- Oscillator characterization (R139): its command starts it once, at the next multiple of 1,024 s; each instant while LOCKED is a sample, the
last one stores the learned coefficients and ends the command with RESULT 0; the sixteenth miss in a row ends it with 9; while suspended the
instants pass. -/
def Obligations.CharacterizationLearnsTheOscillator : Prop :=
  (∀ (s : State) (slot : Fin 64) (m : CmdSt), s.scanning = false → s.running? slot.val 2 = some m → s.running m.chan = true →
    let ch := s.ch[m.chan]
    (m.begun = false → Acts (.cmdOscCharacterization slot) s (fun u => State.onlyIn [.cmdq, .ch, .out] s u ∧ s.changed u m.chan (fun d =>
      Channel.onlyIn [.dpll, .jour, .asks] ch d ∧ d.dpll = { ch.dpll with
        char := some ⟨slot.val, leAt m.param 0 2, (Int.fdiv (sar ch.now 64) 1024 + 1) * 1024, [], 0, false, m.org⟩ }))) ∧
    (m.begun = true → Acts (.cmdOscCharacterization slot) s (fun u => State.onlyIn [.out] s u))) ∧
  ∀ (s : State) (c : ChanIx), s.live c →
    let ch := s.ch[c]
    let Runs (q : Channel → Prop) : Prop := Acts (.charSampleInstant c) s (fun u => State.onlyIn [.cmdq, .ch, .out] s u ∧ s.changed u c q)
    let fr (d : Channel) : Prop := Channel.onlyIn [.dpll, .jour, .asks] ch d
    (∀ o : CharOp, ch.dpll.char = some o → ch.reached (o.next * 2 ^ 64) = true →
      let ss := o.samples ++ [(o.next, ch.dpll.rate)]
      let k := Channel.characterize ss
      let goesOn (x : CharOp) (d : Channel) : Prop := Channel.onlyIn [.dpll] ch d ∧ d.regs = ch.regs ∧ d.dpll = { ch.dpll with char := some { x with next := o.next + 1024 } }
      (o.suspended = true → Runs (goesOn o)) ∧
      (o.suspended = false → ch.dpll.st = .locked → ss.length < o.nsamp → Runs (goesOn { o with samples := ss, missed := 0 })) ∧
      (o.suspended = false → ch.dpll.st = .locked → o.nsamp ≤ ss.length → Runs (fun d => fr d ∧ d.dpll = { ch.dpll with char := none } ∧
        d.cur F.DPLL_LRN_B_B = min k.2.1 SAT ∧ d.cur F.DPLL_LRN_C_C = min k.2.2 SAT ∧ d.word .dpll (DPLL_LRN_AGE 0) = wordOf k.1 0 ∧
        d.word .dpll (DPLL_LRN_AGE 1) = wordOf k.1 1 ∧ d.cur F.DPLL_LRN_STAT_VALID = 1 ∧ d.cur F.DPLL_LRN_STAT_SAMPLES = ss.length % 2 ^ 16 ∧
        d.cur F.DPLL_EVT_CHAR = 1 ∧ Eff.opEnd o.slot 0 0 ∈ d.effs)) ∧
      (o.suspended = false → ch.dpll.st ≠ .locked → o.missed + 1 < 16 → Runs (goesOn { o with missed := o.missed + 1 })) ∧
      (o.suspended = false → ch.dpll.st ≠ .locked → 16 ≤ o.missed + 1 → Runs (fun d => fr d ∧ d.dpll = { ch.dpll with char := none } ∧
        d.cur F.DPLL_EVT_CHAR = 1 ∧ Eff.opEnd o.slot 9 0 ∈ d.effs))) ∧
    ((∀ o, ch.dpll.char = some o → ch.reached (o.next * 2 ^ 64) = false) → Runs (fun d => d = ch))

/-- A vintage that is due, of a running channel of a serving unit (R270): it is written to the next of the 16 rows of the ring, noted in the
channel's journal, and its second kept; else nothing is written. -/
def Obligations.VintagesAreWrittenByTheServingUnit : Prop :=
  ∀ (s : State) (c : ChanIx), s.scanning = false →
    let due : Prop := s.vintageDue c = true ∧ s.serving = true ∧ s.running c = true
    let v := s.vintageOf c
    let k := s.twin.nvNext
    (due → Acts (.vintageWrite c) s (fun u => State.onlyIn [.tally, .twin, .ch, .out] s u ∧ u.twin.nvRing = (k, v) :: s.twin.nvRing.filter (fun e => e.1 != k) ∧
      u.twin.nvNext = (k + 1) % 16 ∧ u.twin.vintAt = s.twin.vintAt.set c (some (sar s.ch[c].now 64)) ∧ u.ch[c] = s.ch[c].journal (.vint k v.jseq) ∧
      ∀ m : ChanIx, m ≠ c → u.ch[m] = s.ch[m])) ∧
    (¬ due → Acts (.vintageWrite c) s (fun u => State.onlyIn [.out] s u))

/-! ### Synthesizers, outputs, pulses and realignment -/

/-- The lock state machine of a synthesizer (R153 to R155, R157, R159, R172, R278): lock is declared in ACQ where the pin has been below its
threshold for 1 ms, or N errors in a row were within W, its held outputs are released, and those that ran through ACQ or COAST await a resync; a lost lock or reference coasts, counts RELOCKS, and marks the outputs that run on; 10 ms in ACQ set NOLOCK
and raise its fault source, and fail a drill whose channel it is; a returned reference leads back to ACQ, with the outputs stopped where
RLK_HOLD says so, and puts the values in use that a commit boundary stored while it coasted. Only the synthesizer's status, its PERR and EVT change of the registers; in another state nothing changes. -/
def Obligations.SynthesizersLockAndCoast : Prop :=
  ∀ (s : State) (c : ChanIx) (k : Fin 2) (e : LockSense), s.live c →
    let ch := s.ch[c]
    let st := ch.synSt k.val
    let ev : KF := if k.val = 0 then F.SYN_EVT_SYN0 else F.SYN_EVT_SYN1
    let whole (o : Nat) : KF := ⟨.syn, o, 0, 32, false⟩
    let fr (d : Channel) : Prop := Channel.onlyIn [.syn, .asks] ch d ∧
      Channel.keeps .syn [whole (SYN_SYN_STAT k.val), whole (SYN_SYN_PERR k.val), whole SYN_EVT] ch d
    let el : Prop := ch.fld (F.SYN_SYN_CFG_LOOP k.val) = 0
    let n := max 1 (ch.fld (F.SYN_SYN_WIN_N k.val))
    let w := max 1 (ch.fld (F.SYN_SYN_WIN_W k.val))
    let locks : Prop := st = SYN_ACQ ∧ match e with
      | .pin mv t => el ∧ mv < 350 ∧ 200000 ≤ t
      | .errs es => ¬ el ∧ n ≤ es.length ∧ ∀ x ∈ es.take n, x.natAbs ≤ w
    let loses : Prop := (st = SYN_ACQ ∨ st = SYN_LOCKED) ∧ match e with
      | .pin mv _ => el ∧ 550 < mv
      | .errs es => ¬ el ∧ 8 ≤ es.length ∧ ∀ x ∈ es.take 8, w < x.natAbs
    let serr (d : Channel) : Prop := match e with
      | .errs (x :: _) => (¬ el → d.cur (F.SYN_SYN_PERR_PERR k.val) = unsigned 16 (max (-32768) (min 32767 x))) ∧
          (el → d.cur (F.SYN_SYN_PERR_PERR k.val) = ch.cur (F.SYN_SYN_PERR_PERR k.val))
      | _ => d.cur (F.SYN_SYN_PERR_PERR k.val) = ch.cur (F.SYN_SYN_PERR_PERR k.val)
    let seen (d : Channel) : Prop := Channel.onlyIn [.syn] ch d ∧ d.syn = ch.syn ∧ serr d ∧ Channel.keeps .syn [whole (SYN_SYN_PERR k.val)] ch d
    let coasts (f : KF) (d : Channel) : Prop := fr d ∧ d.synSt k.val = SYN_COAST ∧ d.cur ev = 1 ∧ d.cur f = 1 ∧
      d.cur (F.SYN_SYN_STAT_RELOCKS k.val) = (ch.cur (F.SYN_SYN_STAT_RELOCKS k.val) + 1) % 65536 ∧
      (∀ m : Fin 8, m ∉ ch.synOuts k.val → d.out m = ch.out m) ∧
      ∀ m ∈ ch.synOuts k.val, if ch.flag (F.SYN_SYN_CFG_COAST_SQ k.val) = true
        then (d.out m).coast = true ∧ (d.out m).hold = (ch.out m).hold ∧ (d.out m).ran = (ch.out m).ran
        else d.out m = { ch.out m with ran := (ch.out m).ran || !(ch.out m).hold }
    let noLock : Prop := st = SYN_ACQ ∧ (ch.synK k.val).noLock = false ∧ (ch.synK k.val).acqTick + 2000000 ≤ ch.jour.tick
    let noLocked (d : Channel) : Prop := fr d ∧ d.synSt k.val = SYN_ACQ ∧ (d.synK k.val).noLock = true ∧ d.cur (F.SYN_SYN_STAT_NOLOCK k.val) = 1 ∧
      d.cur F.SYN_EVT_NOLOCK = 1 ∧ Eff.fault (24 + k.val) ∈ d.effs
    let again (d : Channel) : Prop := d.synSt k.val = SYN_ACQ ∧ d.cur ev = 1 ∧ (d.synK k.val).acqTick = ch.jour.tick ∧ (d.synK k.val).noLock = false
    let drilled : Prop := s.twin.rack.any (fun r => r.chans.contains c) = true ∧ s.twst = TW_DRILL ∧ s.safe = false
    (locks → ActsOn (.synLockDeclared c k e) s c (fun d => fr d ∧ serr d ∧ d.synSt k.val = SYN_LOCKED ∧ d.cur ev = 1 ∧
      d.cur (F.SYN_SYN_STAT_LOCKIND k.val) = 1 ∧ ((∃ m ∈ ch.synOuts k.val, (ch.out m).ran = true) → d.cur (F.SYN_SYN_STAT_RSYNC k.val) = 1) ∧
      (∀ m ∈ ch.synOuts k.val, (d.out m).hold = false) ∧ ∀ m : Fin 8, m ∉ ch.synOuts k.val ∨ (ch.out m).hold = false → d.out m = ch.out m)) ∧
    (¬ locks → ActsOn (.synLockDeclared c k e) s c seen) ∧
    (loses → ActsOn (.synLockLost c k e) s c (fun d => coasts (F.SYN_SYN_STAT_LOL k.val) d ∧ serr d ∧ d.cur (F.SYN_SYN_STAT_LOCKIND k.val) = 0)) ∧
    (¬ loses → ActsOn (.synLockLost c k e) s c seen) ∧
    (st = SYN_ACQ ∨ st = SYN_LOCKED → ActsOn (.synReferenceLoss c k) s c (coasts (F.SYN_SYN_STAT_REFLOS k.val))) ∧
    (st ≠ SYN_ACQ → st ≠ SYN_LOCKED → ActsOn (.synReferenceLoss c k) s c (fun d => d = ch)) ∧
    (noLock → ¬ drilled → ActsOn (.synNolock c k) s c noLocked) ∧
    (noLock → drilled → Acts (.synNolock c k) s (fun u => State.onlyIn [.hostif, .cmdq, .vault, .book, .tally, .twin, .bench, .pwr, .image, .ch, .free, .out] s u ∧
      u.twst = TW_STANDBY ∧ u.gcur F.TWIN_STAT_DRIVE = 0 ∧ u.twin.rack = none)) ∧
    (¬ noLock → ActsOn (.synNolock c k) s c (fun d => d = ch)) ∧
    (st = SYN_COAST → (ch.synK k.val).stored = none → ActsOn (.synCoastReferenceReturn c k) s c (fun d => fr d ∧ again d ∧
      ∀ m ∈ ch.synOuts k.val, (d.out m).coast = false ∧ if ch.flag (F.SYN_SYN_CFG_RLK_HOLD k.val) then (d.out m).hold = true ∧ (d.out m).ran = false
        else (d.out m).hold = (ch.out m).hold ∧ (d.out m).ran = ((ch.out m).ran || !(ch.out m).hold))) ∧
    (∀ x, st = SYN_COAST → (ch.synK k.val).stored = some x → ActsOn (.synCoastReferenceReturn c k) s c (fun d => Channel.onlyIn [.syn, .asks] ch d ∧ again d ∧
      (d.synK k.val).stored = none ∧ (∀ o ∈ Channel.synPart x k.val, d.useWord .syn o = smGet (kbRst .syn o) x o) ∧
      ∀ o, o ∉ Channel.synPart x k.val → d.useWord .syn o = ch.useWord .syn o)) ∧
    (st ≠ SYN_COAST → ActsOn (.synCoastReferenceReturn c k) s c (fun d => d = ch))

/-- What the boundaries of a staged commit, the pulse outputs, TODO and realignment do (R156, R158, R163 to R168). A boundary takes its part of the staged
set into use: a synthesizer that it disables is OFF, one that it enables acquires, a locked one whose plan changes acquires again; a pulse
output whose period or phase changes restarts its indices there; CPEND clears with the last part; one that coasts stores the part until its reference is back. A pulse is emitted once for each index,
and where it is squelched or jumped over it is skipped; TODO sends the sentence that waits with its SEQ and CRC. A GO of RA_CTL starts a SLEW or
arms the JUMP, or is rejected; the JUMP and the end of the SLEW complete it. What is not due changes nothing. -/
def Obligations.CommitsPulsesAndRealignment : Prop :=
  (∀ (s : State) (c : ChanIx) (k j : Fin 2), s.live c →
    let ch := s.ch[c]
    let fr (d : Channel) : Prop := Channel.onlyIn [.syn, .asks] ch d
    let left (y : SynStage) (d : Channel) : Prop :=
      ((y.p0 || y.p1 || y.pp) = true → d.syn.stage = some y) ∧
      ((y.p0 || y.p1 || y.pp) = false → d.syn.stage = none ∧ d.cur F.SYN_CTL_CPEND = 0 ∧ d.cur F.SYN_EVT_CAPPLY = 1)
    let rest (x : SynStage) : SynStage := if k.val = 0 then { x with p0 := false } else { x with p1 := false }
    let bound (x : SynStage) : Prop := (if k.val = 0 then x.p0 else x.p1) = true ∧ ¬ (ch.synSt k.val = SYN_COAST ∧ ch.follow k.val = 3) ∧
      (ch.boundaryHere x k.val).isSome = true
    let sec : Int := -(Int.fdiv (-ch.syn.ots0) (2 ^ 96)) * 2 ^ 96
    let plan (x : SynStage) : Prop := ∃ f ∈ [F.SYN_SYN_FNUM_NUM k.val, F.SYN_SYN_FDEN_DEN k.val, F.SYN_SYN_CFG_NFB k.val, F.SYN_SYN_CFG_LOOP k.val,
      F.SYN_SYN_CFG_FOLLOW k.val, F.SYN_SYN_CFG_REFSEL k.val], ch.fld f ≠ Channel.stagedFld x.words f
    let en (x : SynStage) : Nat := Channel.stagedFld x.words (F.SYN_SYN_CFG_EN k.val)
    let p := ch.plse j
    let next (y : Option Int) : Int := match y with
      | some z => z + 1
      | none => ch.plsIdx j ch.syn.ots0
    let i := max (ch.plsIdx j ch.syn.ots0) (max (next p.idx) (next p.seen))
    let due := ch.flag (F.SYN_PLS_CFG_EN j.val) = true ∧ i * (ch.plsPeriod j).1 < (ch.otsNext + ch.plsOfs j) * (ch.plsPeriod j).2 ∧
      ∀ y, ch.syn.jumpOts = some y → y * (ch.plsPeriod j).2 ≤ i * (ch.plsPeriod j).1 - ch.plsOfs j * (ch.plsPeriod j).2
    let slewed : Prop := ch.cur F.SYN_RA_CTL_ACT = 1 ∧ ch.syn.raJump = none ∧ ch.pdev = 0
    (∀ x, ch.syn.stage = some x → bound x → ch.synSt k.val = SYN_COAST → en x = 1 → ActsOn (.synCommitBoundary c k) s c (fun d => fr d ∧ left (rest x) d ∧
      (∀ o, d.useWord .syn o = ch.useWord .syn o) ∧ (d.synK k.val).stored = some x.words ∧ ∀ n : Fin 2, d.synSt n.val = ch.synSt n.val)) ∧
    (∀ x, ch.syn.stage = some x → bound x → ch.synSt k.val ≠ SYN_COAST ∨ en x = 0 → ActsOn (.synCommitBoundary c k) s c (fun d => fr d ∧ left (rest x) d ∧
      (d.synK k.val).stored = none ∧ (∀ o ∈ Channel.synPart x.words k.val, d.useWord .syn o = smGet (kbRst .syn o) x.words o) ∧
      (∀ o, o ∉ Channel.synPart x.words k.val → d.useWord .syn o = ch.useWord .syn o) ∧
      (en x = 0 → d.synSt k.val = SYN_OFF ∧ d.cur (F.SYN_SYN_STAT_LOCKIND k.val) = 0 ∧ d.cur (F.SYN_SYN_STAT_RSYNC k.val) = 0) ∧
      (en x = 1 → ch.synSt k.val = SYN_OFF → d.synSt k.val = SYN_ACQ) ∧
      (en x = 1 → ch.synSt k.val = SYN_LOCKED → d.cur (F.SYN_SYN_STAT_RSYNC k.val) = 0 ∧ (plan x → d.synSt k.val = SYN_ACQ) ∧ (¬ plan x → d.synSt k.val = SYN_LOCKED)) ∧
      (en x = 1 → ch.synSt k.val = SYN_ACQ → d.synSt k.val = SYN_ACQ) ∧ ∀ n : Fin 2, n ≠ k → d.synSt n.val = ch.synSt n.val)) ∧
    ((∀ x, ch.syn.stage = some x → ¬ bound x) → ActsOn (.synCommitBoundary c k) s c (fun d => d = ch)) ∧
    (∀ x, ch.syn.stage = some x → x.pp = true → x.tick + 200000 ≤ ch.jour.tick → sec < ch.otsNext → ActsOn (.pulseCommitBoundary c) s c (fun d => fr d ∧ left { x with pp := false } d ∧
      (∀ o ∈ Channel.plsPart, d.useWord .syn o = smGet (kbRst .syn o) x.words o) ∧ (∀ o, o ∉ Channel.plsPart → d.useWord .syn o = ch.useWord .syn o) ∧
      ∀ n : Fin 2, if d.plsPeriod n ≠ ch.plsPeriod n ∨ d.plsOfs n ≠ ch.plsOfs n
        then d.plse n = { ch.plse n with idx := some (d.plsIdx n sec - 1), seen := some (d.plsIdx n sec - 1) } else d.plse n = ch.plse n)) ∧
    ((∀ x, ch.syn.stage = some x → x.pp = false ∨ ch.jour.tick < x.tick + 200000 ∨ ch.otsNext ≤ sec) → ActsOn (.pulseCommitBoundary c) s c (fun d => d = ch)) ∧
    (¬ due → ActsOn (.pulseEdge c j) s c (fun d => d = ch)) ∧
    (due → p.sq = true → ActsOn (.pulseEdge c j) s c (fun d => fr d ∧ d.syn = { ch.syn with pls := ch.syn.pls.set j { p with seen := some i } } ∧
      (ch.todHere j = true → d.cur F.SYN_EVT_TODSKIP = 1 ∧ d.cur F.SYN_TOD_STAT_SKIP = (ch.cur F.SYN_TOD_STAT_SKIP + 1) % 65536))) ∧
    (due → p.sq = false → ActsOn (.pulseEdge c j) s c (fun d => fr d ∧ d.regs = ch.regs ∧ (d.plse j).idx = some i ∧ (d.plse j).seen = some i ∧
      (∃ ps, Eff.edge j.val i ps ch.drive ∈ d.effs) ∧ (∀ n : Fin 2, n ≠ j → d.plse n = ch.plse n) ∧
      d.syn.tod = if ch.todHere j then some ⟨ch.jour.tick + ch.fld F.SYN_TOD_CFG_DLY * 200000, ch.todBody j i⟩ else ch.syn.tod)) ∧
    (∀ x, ch.syn.tod = some x → x.due ≤ ch.jour.tick → ActsOn (.todSentenceSend c) s c (fun d => fr d ∧
      d.syn = { ch.syn with tod := none, todSeq := wrapInc 16 ch.syn.todSeq } ∧ d.cur F.SYN_TOD_STAT_SENT = (ch.cur F.SYN_TOD_STAT_SENT + 1) % 65536 ∧
      let bs := [0xC5#8, 0x3A#8, 0x01#8, 0x1C#8] ++ x.body ++ beBytes 2 ch.syn.todSeq ++ [0#8, 0#8]
      Eff.todBytes (bs ++ beBytes 2 (crc16 bs)) ch.drive ∈ d.effs)) ∧
    ((∀ x, ch.syn.tod = some x → ch.jour.tick < x.due) → ActsOn (.todSentenceSend c) s c (fun d => d = ch)) ∧
    (∀ t, ch.syn.raJump = some t → ch.reached t = true → ActsOn (.realignJumpSwitch c) s c (fun d => fr d ∧ d.syn.ots = ch.dpll.ctr ∧ d.syn.raJump = none ∧
      d.syn.jumpOts = some d.otsNext ∧ (∀ n : Fin 2, ch.flag (F.SYN_PLS_CFG_EN n.val) = true → d.cur (F.SYN_PLS_STAT_SKIP n.val) =
        (ch.cur (F.SYN_PLS_STAT_SKIP n.val) + ch.passed n (min ch.syn.ots0 ch.dpll.ctr) d.otsNext) % 65536) ∧ d.cur F.SYN_RA_CTL_ACT = 0 ∧ d.cur F.SYN_EVT_RA_DONE = 1 ∧
      ∀ n : Fin 2, ch.synSt n.val = SYN_LOCKED → ch.follow n.val = 1 → d.synSt n.val = SYN_ACQ)) ∧
    ((∀ t, ch.syn.raJump = some t → ch.reached t = false) → ActsOn (.realignJumpSwitch c) s c (fun d => d = ch)) ∧
    (slewed → ActsOn (.realignSlewDone c) s c (fun d => fr d ∧ d.syn = { ch.syn with raFrom := none } ∧ d.cur F.SYN_RA_CTL_ACT = 0 ∧ d.cur F.SYN_EVT_RA_DONE = 1)) ∧
    (¬ slewed → ActsOn (.realignSlewDone c) s c (fun d => d = ch))) ∧
  ∀ (s : State) (p : HostPath) (c : ChanIx) (v : Word), s.open p → s.running c = true →
    let ch := s.ch[c]
    let sl := ch.cur F.SYN_RA_SLEW_RA_SLEW
    let bad := ch.cur F.SYN_RA_CTL_ACT = 1 ∨ sl < 1 ∨ 1000000 < sl
    let fr (d : Channel) : Prop := Channel.onlyIn [.syn, .jour, .asks] ch d
    (bit v 31 = true → bad → ActsOn (.realignGo p c v) s c (fun d => fr d ∧ d.syn = ch.syn ∧ d.cur F.SYN_RA_CTL_REJ = 1)) ∧
    (bit v 31 = true → ¬ bad → bit v 30 = false → ActsOn (.realignGo p c v) s c (fun d => fr d ∧ d.cur F.SYN_RA_CTL_ACT = 1 ∧
      d.syn = { ch.syn with raFrom := some (ch.jour.tick + 1) })) ∧
    (bit v 31 = true → ¬ bad → bit v 30 = true → ActsOn (.realignGo p c v) s c (fun d => fr d ∧ d.cur F.SYN_RA_CTL_ACT = 1 ∧
      d.syn = { ch.syn with raJump := some (-(sar (-(ch.now + 2 ^ 63)) 64) * 2 ^ 64 - 2 ^ 63) })) ∧
    (bit v 31 = false → ActsOn (.realignGo p c v) s c (fun d => fr d ∧ d.syn = ch.syn ∧ d.cur F.SYN_RA_CTL_ACT = ch.cur F.SYN_RA_CTL_ACT))

/-! ### Ports: links, counted frames, SyncE, ESMC -/

/-- The link state machine of a port (R173 to R176, R370): negotiation ends in the highest common mode with the FEC of R175, or reports that there is none;
training ends in ALIGN with a 100 ms timer; after 500 ms it fails and the link restarts; alignment brings the link UP with its variable
latencies measured; its timer restarts it. The loss of a link that is UP counts a flap, drops what is in flight and in the queues, and restarts. A
restart negotiates, or takes mode and FEC from CFG and trains or aligns. In the safe state, and in another link state, nothing changes. -/
def Obligations.LinksFollowTheirStateMachine : Prop :=
  ∀ (s : State) (c : ChanIx) (p : PortIx) (peer : Nat) (rs br : Bool) (vI vE : Int), s.live c →
    let ch := s.ch[c]
    let q := p.val
    let now := ch.jour.tick
    let fr (d : Channel) : Prop := Channel.onlyIn [.port, .asks] ch d ∧ (d.ps (1 - p)) = ch.ps (1 - p) ∧ ∀ k, d.useWord .port k = ch.useWord .port k
    let goes (st : Nat) (t : Option Nat) (d : Channel) : Prop := d.link p = st ∧ (d.ps p).timer = t ∧ d.cur (F.PORT_P_EVT_LINK q) = 1
    let begins (d : Channel) : Prop := if ch.flag (F.PORT_P_CFG_LT_EN q) then goes LK_TRAIN (some (now + 100000000)) d else goes LK_ALIGN none d
    let rate (m f : Nat) (d : Channel) : Prop := d.cur (F.PORT_P_STAT_RMODE q) = m ∧ d.cur (F.PORT_P_STAT_RFEC q) = f
    let restarts (d : Channel) : Prop := if ch.flag (F.PORT_P_CFG_AN_EN q) then goes LK_AN none d
      else begins d ∧ rate (ch.fld (F.PORT_P_CFG_MODE q)) (ch.fld (F.PORT_P_CFG_FEC q)) d
    let common (m : Nat) : Bool := maskOpen (ch.fld (F.PORT_P_ADV_ABIL q)) m && maskOpen peer m
    let late : Prop := ∃ t, (ch.ps p).timer = some t ∧ t ≤ now
    let An := Instr.linkAnComplete c p peer rs br
    let Lock := Instr.linkAlignLock c p vI vE
    let idle (i : Instr) : Prop := ActsOn i s c (fun d => d = ch)
    (s.safe = true → Acts An s (fun u => u = s.clear) ∧ Acts (.linkTrainingComplete c p) s (fun u => u = s.clear) ∧
      Acts (.linkTrainingTimeout c p) s (fun u => u = s.clear) ∧ Acts Lock s (fun u => u = s.clear) ∧ Acts (.linkAlignTimeout c p) s (fun u => u = s.clear)) ∧
    (s.safe = false →
      (∀ m, ch.link p = LK_AN → m < 7 → common m = true → (∀ k, k < m → common k = false) →
        ActsOn An s c (fun d => fr d ∧ begins d ∧ rate m (fecResolved m (ch.fld (F.PORT_P_CFG_FEC q)) rs br) d)) ∧
      (ch.link p = LK_AN → (∀ k, k < 7 → common k = false) → ActsOn An s c (fun d => fr d ∧ d.cur (F.PORT_P_EVT_AN_NOCOMMON q) = 1 ∧ d.link p = LK_AN)) ∧
      (ch.link p ≠ LK_AN → idle An) ∧
      (ch.link p = LK_TRAIN → ActsOn (.linkTrainingComplete c p) s c (fun d => fr d ∧ goes LK_ALIGN (some (now + 20000000)) d)) ∧
      (ch.link p ≠ LK_TRAIN → idle (.linkTrainingComplete c p)) ∧
      (ch.link p = LK_TRAIN → late → ActsOn (.linkTrainingTimeout c p) s c (fun d => fr d ∧ restarts d ∧ d.cur (F.PORT_P_EVT_LT_FAIL q) = 1)) ∧
      (ch.link p ≠ LK_TRAIN ∨ ¬ late → idle (.linkTrainingTimeout c p)) ∧
      (ch.link p = LK_ALIGN → ActsOn Lock s c (fun d => fr d ∧ goes LK_UP none d ∧ (d.ps p).vI = vI ∧ (d.ps p).vE = vE ∧
        d.cur (F.PORT_P_STAT_LAT_VALID q) = 1 ∧ d.cur (F.PORT_P_EVT_LAT q) = 1)) ∧
      (ch.link p ≠ LK_ALIGN → idle Lock) ∧
      (ch.link p = LK_ALIGN → late → ActsOn (.linkAlignTimeout c p) s c (fun d => fr d ∧ restarts d)) ∧
      (ch.link p ≠ LK_ALIGN ∨ ¬ late → idle (.linkAlignTimeout c p))) ∧
    (ch.link p = LK_UP → ActsOn (.linkLoss c p) s c (fun d => Channel.onlyIn [.port, .pmu, .free, .asks] ch d ∧ restarts d ∧
      d.cur (F.PORT_P_STAT_LAT_VALID q) = 0 ∧ d.cur (F.PORT_P_STAT_FLAPS q) = (ch.cur (F.PORT_P_STAT_FLAPS q) + 1) % 65536 ∧ (d.ps p).flight = [] ∧
      d.cur (F.PORT_P_CNT1_LINK_DROP q) = (ch.cur (F.PORT_P_CNT1_LINK_DROP q) + countIf (fun f => decide (now < f.pass)) (ch.ps p).flight) % 65536)) ∧
    (ch.link p ≠ LK_UP → idle (.linkLoss c p))

/-- Frames that end at the port, the SyncE lanes and ESMC (R174, R189, R192, R194): on a link that is UP, PAUSE frames and frames longer than MAXF are counted;
at each 100 ms of channel time the recovered clock is measured as a FREQ_ONLY record of L11 or L12, for registration 1 ms later, with its FB saturated where the quality level received is
unusable; a PDU's level is taken where ESMC reception is enabled, and 5 s without one set QL_LOST; at each second the information PDU is sent. -/
def Obligations.PortFramesSyncEAndEsmc : Prop :=
  ∀ (s : State) (c : ChanIx) (p : PortIx) (len ql : Nat) (freq off : Int), s.live c →
    let ch := s.ch[c]
    let q := p.val
    let up : Prop := ch.link p = LK_UP
    let n := synceLane p
    let idle (i : Instr) : Prop := ActsOn i s c (fun d => d = ch)
    let cnt (f : KF) (d : Channel) : Prop := Channel.onlyIn [.port, .pmu] ch d ∧ d.ports = ch.ports ∧ d.pmu = (ch.bwRx p len).pmu ∧
      Channel.keeps .port [f] ch d ∧ d.cur f = (ch.cur f + 1) % 65536
    let clock := Instr.synceRecord c p freq off
    let plan : Nat × Nat := if ch.cur (F.PORT_P_STAT_RMODE q) ≤ 3 then (332031250, 1) else (1611328125, 10)
    let unusable : Prop := ch.flag (F.PORT_P_ESMC_QL_GATE q) = true ∧
      (ch.cur (F.PORT_P_ESMC_STAT_QL_LOST q) = 1 ∨ ch.cur (F.PORT_P_ESMC_STAT_RX_QL q) = ch.fld (F.PORT_P_ESMC_QL_DNU q))
    let same : Prop := ch.cur (F.PORT_P_ESMC_STAT_RX_QL q) = ql % 16 ∧ ch.cur (F.PORT_P_ESMC_STAT_QL_LOST q) = 0
    let lost : Prop := ch.flag (F.PORT_P_ESMC_RX_EN q) = true ∧ ch.cur (F.PORT_P_ESMC_STAT_QL_LOST q) = 0 ∧ (ch.ps p).qlAt + 1000000000 ≤ ch.jour.tick
    let sends : Prop := up ∧ ch.flag (F.PORT_P_ESMC_TX_EN q) = true ∧ ch.multipleHere 1 ≠ none
    (up → ActsOn (.pauseFrameRx c p len) s c (cnt (F.PORT_P_CNT2_PAUSE_RX q))) ∧
    (¬ up → idle (.pauseFrameRx c p len)) ∧
    (up → ch.fld (F.PORT_P_CFG_MAXF q) < len → ActsOn (.oversizeFrameRx c p len) s c (cnt (F.PORT_P_CNT2_OVERSIZE_RX q))) ∧
    (¬ up ∨ len ≤ ch.fld (F.PORT_P_CFG_MAXF q) → idle (.oversizeFrameRx c p len)) ∧
    (∀ t, up → (ch.lane n).exist = true → ch.multipleHere 10 = some t → ActsOn clock s c (fun d => Channel.onlyIn [.ref] ch d ∧ d.regs = ch.regs ∧
      d.ref = { ch.ref with measured := d.ref.measured } ∧
      ch.measures d 200000 (fun r => r.lane = n ∧ r.refTs = t ∧ r.offset = Channel.reducePeriod off plan.1 plan.2 ∧ r.freq = freq ∧ r.teb = SAT ∧
        r.freqOnly = true ∧ r.phaseOnly = false ∧ (unusable → r.fb = SAT) ∧ (¬ unusable → r.fb = 281600)))) ∧
    (¬ up ∨ (ch.lane n).exist = false ∨ ch.multipleHere 10 = none → idle clock) ∧
    (up → ch.flag (F.PORT_P_ESMC_RX_EN q) = true → ActsOn (.esmcPduRx c p ql len) s c (fun d => Channel.onlyIn [.port, .pmu, .asks] ch d ∧
      d.cur (F.PORT_P_ESMC_STAT_RX_QL q) = ql % 16 ∧ d.cur (F.PORT_P_ESMC_STAT_QL_LOST q) = 0 ∧ d.pmu = (ch.bwRx p len).pmu ∧
      d.ports = ch.ports.set p { ch.ps p with qlAt := ch.jour.tick } ∧ (¬ same → d.cur (F.PORT_P_EVT_QL q) = 1) ∧
      (same → d.cur (F.PORT_P_EVT_QL q) = ch.cur (F.PORT_P_EVT_QL q)))) ∧
    (up → ch.flag (F.PORT_P_ESMC_RX_EN q) = false → ActsOn (.esmcPduRx c p ql len) s c (fun d => d = ch.bwRx p len)) ∧
    (¬ up → idle (.esmcPduRx c p ql len)) ∧
    (lost → ActsOn (.esmcQlLostExpiry c p) s c (fun d => Channel.onlyIn [.port, .asks] ch d ∧ d.ports = ch.ports ∧ d.cur (F.PORT_P_ESMC_STAT_QL_LOST q) = 1 ∧
      d.cur (F.PORT_P_ESMC_STAT_RX_QL q) = ch.cur (F.PORT_P_ESMC_STAT_RX_QL q) ∧ d.cur (F.PORT_P_EVT_QL q) = 1)) ∧
    (¬ lost → idle (.esmcQlLostExpiry c p)) ∧
    (sends → ActsOn (.esmcInfoPduSend c p) s c (fun d => Channel.onlyIn [.port, .pmu, .asks] ch d ∧ d.regs.port = ch.regs.port ∧ Eff.esmc p (ch.qlSent p) false ∈ d.effs ∧
      d.ports = ch.ports.set p { ch.ps p with qlSent := some (ch.qlSent p) } ∧ d.pmu = (ch.bwTx p 64).pmu)) ∧
    (¬ sends → idle (.esmcInfoPduSend c p))

/-! ### The time service -/

/-- The order in which a request is filtered before it is answered (R174, R199 to R201, R215, R227, R228): a frame that the port does not take, or of another
class, does nothing here; without the right to commit it counts as NOCLAIM; in SILENT a request that the fast path answers is dropped and
counted; a request that lacks a required authentication fails; one that the policer marks red is dropped; one whose authentication
fails, or whose key is gone, is counted so. Nothing is queued in these cases. Frames that are not for the channel, or of no class that it serves,
are counted. -/
def Obligations.RequestsAreFilteredBeforeTheyAreAnswered : Prop :=
  ∀ (s : State) (c : ChanIx) (p : PortIx) (ps : Nat) (f : Int) (bs : Bytes), s.live c →
    let ch := s.ch[c]
    let len := bs.length + 4
    let k := parsePkt bs
    let m := k.payload bs
    let x := ch.bwRx p len
    let taken (w : RxClass → Bool) : Prop := ch.portUp p = true ∧ len ≤ ch.fld (F.PORT_P_CFG_MAXF p.val) ∧ w (ch.classify p k bs) = true
    let ptp := x.flag (F.SEAL_P_SVC_PTP_AUTH_REQ p.val) && x.ptpAuth m == .absent
    let pid := some (ptpPort m)
    let drops (i : Instr) (cnt : KF) (d : Channel → Prop) : Prop := ActsOn i s c (fun y => Channel.onlyIn [.sealb, .pmu, .asks] ch y ∧
      y.sealb = ch.sealb ∧ y.cur cnt = (ch.cur cnt + 1) % 65536 ∧ d y)
    (∀ r ∈ [(Instr.ptpDelayReqRx c p ps f bs, RxClass.ptp MT_DELAY_REQ, pid, ptp, true, some (x.ptpAuth m)),
        (.ptpPdelayReqRx c p ps f bs, .ptp MT_PDELAY_REQ, pid, ptp, true, some (x.ptpAuth m)),
        (.ntpRequestRx c p ps f bs, .ntpPlain, none, x.flag (F.SEAL_P_SVC_NTP_AUTH_REQ p.val), true, none),
        (.ntpMacRequestRx c p ps f bs, .ntpMac, none, false, true, none), (.ntsRequestRx c p ps f bs, .nts, none, false, true, none),
        (.ptpSignalingRx c p bs, .ptp MT_SIGNALING, pid, ptp, false, none), (.exceptionFrameRx c p bs, .exc, none, false, false, none)],
      let (i, cls, id, lacks, fast, auth) := r
      let gate := x.requestGate p k len id lacks fast
      (¬ taken (· == cls) → ActsOn i s c (fun d => d = ch)) ∧
      (taken (· == cls) → ch.run = false → drops i F.SEAL_CNT2_NOCLAIM (fun _ => True)) ∧
      (taken (· == cls) → ch.run = true → fast = true → ch.silent = true → drops i F.SEAL_CNT2_SILENT (fun _ => True)) ∧
      (taken (· == cls) → ch.run = true → (fast = false ∨ ch.silent = false) → lacks = true → drops i F.SEAL_CNT1_AUTH_FAIL (fun d => d.cur F.SEAL_EVT_AUTH = 1)) ∧
      (taken (· == cls) → gate.1 = none → ActsOn i s c (fun d => d = gate.2 ∧ Channel.onlyIn [.sched, .sealb, .pmu, .free, .asks] ch d)) ∧
      (∀ y, taken (· == cls) → gate.1 = some y → auth = some .fail → ActsOn i s c (fun d => d = gate.2.authFail)) ∧
      (∀ y, taken (· == cls) → gate.1 = some y → auth = some .gone → ActsOn i s c (fun d => d = gate.2.keyGone))) ∧
    (∀ r ∈ [(Instr.unsupportedFrameRx c p bs, F.SEAL_CNT0_UNSUP, fun w => w == RxClass.unsup),
        (.notMineFrameRx c p bs, F.SEAL_CNT0_NOT_MINE, fun w => w == .notMine || (w == .transit && !Channel.transitOk m))],
      let (i, cnt, w) := r
      (taken w → ActsOn i s c (fun d => Channel.onlyIn [.sealb, .pmu] ch d ∧ d.sealb = ch.sealb ∧ d.pmu = x.pmu ∧ Channel.keeps .sealb [cnt] ch d ∧
        d.cur cnt = (ch.cur cnt + 1) % 65536)) ∧
      (¬ taken w → ActsOn i s c (fun d => d = ch)))

/-- The answers to requests (R200, R202, R207, R210 to R212, R217 to R220, R224): a Delay_Req that passed is answered by a Delay_Resp with the receive time in
whole nanoseconds, the rest in its correction, its sequenceId and the requester's identity; a Pdelay_Req by a Pdelay_Resp, one-step with the residence time
to come, two-step with the receive time; an NTP request by a response of mode 4 (of mode 2 to mode 1), sealed where it had a MAC; an NTS request that
opens, by new cookies; one whose cookie does not, by an NTS NAK; a Signaling message and an exception frame go to the cores, unless their 256 places are
taken. A time that the format cannot express is not sent. -/
def Obligations.RequestsAreAnswered : Prop :=
  ∀ (s : State) (c : ChanIx) (p : PortIx) (ps : Nat) (f : Int) (bs : Bytes) (y : Bool) (e : Option (Nat × Client)) (c1 c2 : Channel) (sa : Option Nat), s.live c →
    let ch := s.ch[c]
    let len := bs.length + 4
    let k := parsePkt bs
    let m := k.payload bs
    let x := ch.bwRx p len
    let taken (w : RxClass) : Prop := ch.portUp p = true ∧ len ≤ ch.fld (F.PORT_P_CFG_MAXF p.val) ∧ ch.classify p k bs = w
    let passes (id : Option Bytes) (lacks fast : Bool) : Prop := x.requestGate p k len id lacks fast = (some (y, e), c1)
    let ptp := x.flag (F.SEAL_P_SVC_PTP_AUTH_REQ p.val) && x.ptpAuth m == .absent
    let pid := some (ptpPort m)
    let verified : Prop := c1.authGate (x.ptpAuth m) = (some sa, c2)
    let st := c2.stampIn p ps f
    let fr (d : Channel) : Prop := Channel.onlyIn [.sched, .port, .sealb, .pmu, .free, .asks] ch d
    let answers (i : Instr) (b : Channel) (g : QFrame → Prop) : Prop := ActsOn i s c (fun d => fr d ∧ ∃ h : QFrame, g h ∧ d = b.submit p (b.respQueue p y) h)
    let ntp (i : Instr) (b : Channel) (mode : Nat) (mac : Bytes) (use : SealUse) : Prop :=
      let w := b.ntpFront m mode (b.stampIn p ps f) []
      answers i b (fun h => ∃ key, h = b.ntpFrame p k (w.1 ++ mac) w.2.1 (.ntp w.2.2.teb) use key false)
    let resp (g : QFrame → Prop) : Prop := ActsOn (.ptpDelayReqRx c p ps f bs) s c (fun d => fr d ∧
      ∃ (b : Channel) (h : QFrame), g h ∧ (b = c2 ∨ b = (c2.free 8).2) ∧ d = b.submit p (c2.respQueue p y) h)
    let fields := (ntpFields m).1
    let of (t : Nat) := fields.filter (fun z => z.1 == t)
    let cores (i : Instr) : Prop :=
      (c1.excFull = true → ActsOn i s c (fun d => fr d ∧ d = c1.excDrop ∧ d.cur F.SEAL_CNT4_EXC_DROP = (c1.cur F.SEAL_CNT4_EXC_DROP + 1) % 65536))
    (taken (.ptp MT_DELAY_REQ) → passes pid ptp true → verified →
      (∀ t, toPtp st.t st.teb = some t → resp (fun h => ∃ dest fl log bnd k' id, h = c2.ptpFrame p dest MT_DELAY_RESP fl (ptpCorr m - t.sub) (ptpSeq m) log
        (tsBytes t ++ ptpPort m) bnd false k' .none false id (sar st.t 64))) ∧
      (toPtp st.t st.teb = none → ActsOn (.ptpDelayReqRx c p ps f bs) s c (fun d => fr d ∧ d = c2.notExp p))) ∧
    (taken (.ptp MT_PDELAY_REQ) → passes pid ptp true → verified →
      (∀ t, toPtp st.t st.teb = some t → answers (.ptpPdelayReqRx c p ps f bs) c2 (fun h => ∃ dest fl k',
        (c2.oneStep p = true → h = c2.ptpFrame p dest MT_PDELAY_RESP fl (ptpCorr m) (ptpSeq m) 0x7F (tsZero ++ ptpPort m) none false k' (.pdelayResp st.t) false none 0) ∧
        (c2.oneStep p = false → h = c2.ptpFrame p dest MT_PDELAY_RESP fl t.sub (ptpSeq m) 0x7F (tsBytes t ++ ptpPort m) none false k' .pdelayRespTwo true none 0))) ∧
      (toPtp st.t st.teb = none → ActsOn (.ptpPdelayReqRx c p ps f bs) s c (fun d => fr d ∧ d = c2.notExp p))) ∧
    (taken .ntpPlain → passes none (x.flag (F.SEAL_P_SVC_NTP_AUTH_REQ p.val)) true → ntp (.ntpRequestRx c p ps f bs) c1 4 [] .none) ∧
    (∀ j, taken .ntpMac → passes none false true → c1.ntpAuth m = .ok j → ntp (.ntpMacRequestRx c p ps f bs) c1 (if ntpMode m = 1 then 2 else 4)
      (beBytes 4 (c1.fld (F.SEAL_SA_KEYID_KEYID j)) ++ List.replicate 16 0#8) (c1.sealWith (some j)).1) ∧
    (taken .ntpMac → passes none false true → c1.ntpAuth m = .fail → ActsOn (.ntpMacRequestRx c p ps f bs) s c (fun d => fr d ∧ d = c1.authFail)) ∧
    (taken .ntpMac → passes none false true → c1.ntpAuth m = .gone → ActsOn (.ntpMacRequestRx c p ps f bs) s c (fun d => fr d ∧ d = c1.keyGone)) ∧
    (∀ u ck au, taken .nts → passes none false true → of EF_UID = [u] → of EF_COOKIE = [ck] → of EF_AUTH = [au] → 32 ≤ u.2.1.length →
      fields.getLast?.map (fun z => z.1) = some EF_AUTH →
      (c1.openCookie ck.2.1 = (none, false) → answers (.ntsRequestRx c p ps f bs) c1 (fun h => h.nts = true ∧ h.late = .none ∧ h.use = .none)) ∧
      (c1.openCookie ck.2.1 = (none, true) → ActsOn (.ntsRequestRx c p ps f bs) s c (fun d => fr d ∧ d = c1.keyGone)) ∧
      (∀ kk c2s s2c b d0, c1.openCookie ck.2.1 = (some (kk, c2s, s2c), b) →
        let nl := beAt au.2.1 0 2
        let opens := sivOpen c2s [m.take au.2.2, slice au.2.1 4 nl] (slice au.2.1 (4 + 4 * ceilDiv nl 4) (beAt au.2.1 2 2))
        (opens = none → ActsOn (.ntsRequestRx c p ps f bs) s c (fun d => fr d ∧ d = c1.authFail)) ∧
        (opens ≠ none → c1.ntsKey (match c1.ntsKey 0 with | some d => if d.mint then 0 else kk | none => kk) = some d0 →
          ActsOn (.ntsRequestRx c p ps f bs) s c (fun d => fr d ∧ ∃ (g : Channel) (h : QFrame) (n v : Bytes), h.nts = true ∧ h.use = .nts s2c n v ∧
            d = g.submit p (g.respQueue p y) h)))) ∧
    (taken (.ptp MT_SIGNALING) → passes pid ptp false → cores (.ptpSignalingRx c p bs) ∧
      (c1.excFull = false → verified → ActsOn (.ptpSignalingRx c p bs) s c (fun d => fr d ∧ ∃ (b : Channel) (h : Option QFrame), d = b.toCores p h ∧
        (((ptpTlvs m).foldl (Channel.signalTlv p k (ptpPort m) sa (c2.fromMaster p k m)) ([], c2)).1 = [] → h = none)))) ∧
    (taken .exc → passes none false false → cores (.exceptionFrameRx c p bs) ∧
      (c1.excFull = false → ActsOn (.exceptionFrameRx c p bs) s c (fun d => fr d ∧
        d = c1.toCores p (if k.etype = 0x0806 then c1.arpReply p k bs else c1.icmpReply p k bs))))

/-- Messages of the master that a port's lane client follows, and transit frames (R187 to R191, R209, R213, R216): a one-step Sync, and the Follow_Up of a two-step one, complete a
pair, and with a mean path delay a measured record of L9 or L10, for registration 20 us later; a Delay_Resp and a Pdelay_Resp give the mean path delay from the times of their exchange; an
Announce of the lane that DPLL_A follows announces the UTC offset and leap flags. A message that the lane does not take, or that fits no exchange, has no
effect of its own. A transit frame is queued on the other port, with its residence time to come where it is an event message; one that the channel may not
change, or whose key it does not hold, is dropped in mode 0 of TNK and passes unchanged in mode 1; one that it authenticates again is sealed under
its association. -/
def Obligations.MasterMessagesReachTheLane : Prop :=
  ∀ (s : State) (c : ChanIx) (p : PortIx) (ps : Nat) (f : Int) (bs m : Bytes) (x : Channel), s.live c →
    let ch := s.ch[c]
    let takes (ty : Nat) : Prop := ch.laneTake p bs ty = (some m, x)
    let st := x.stampIn p ps f
    let ts := ptpTsAt m 34
    let l := x.lc p
    let n := ptpLane p
    let mine : Prop := slice m 44 10 = x.portId p
    let fr (d : Channel) : Prop := Channel.onlyIn [.ref, .port, .sealb, .pmu, .free, .asks] ch d
    let small (d : Channel) : Prop := Channel.onlyIn [.port, .sealb, .pmu, .asks] ch d
    let Sync := Instr.ptpSyncRx c p ps f bs
    let Fup := Instr.ptpFollowUpRx c p bs
    let DResp := Instr.ptpDelayRespRx c p bs
    let PResp := Instr.ptpPdelayRespRx c p ps f bs
    let Ann := Instr.ptpAnnounceRx c p bs
    let Tr := Instr.transitFrameRx c p ps f bs
    let heard : LaneClient := if ptpLog m = 0x7F then l else { l with rxLog := some (ptpLog m) }
    let completes (i : Instr) (h : LaneClient) (t1 t2 : Gt) : Prop :=
      let h1 := { h with pairs := (t1, t2) :: h.pairs, pend := none }
      (l.mpd = none ∨ (x.lane n).exist = false → ActsOn i s c (fun d => small d ∧ d = x.updLc p (fun _ => h1))) ∧
      ∀ mpd, l.mpd = some mpd → (x.lane n).exist = true → ActsOn i s c (fun d => fr d ∧ (d.lc p).pairs = h1.pairs ∧ (d.lc p).pend = none ∧
        x.measures d 4000 (fun r => r.lane = n ∧ r.refTs = t2 ∧ r.phaseOnly = false ∧ r.freqOnly = false ∧ r.offset = t1 + mpd - t2 +
          if x.fld (F.PORT_P_ASYM_BUD_ASYM_BUD p.val) = SAT then 0 else pointOfPs (x.sfld (F.PORT_P_ASYM_ASYM p.val))))
    (∀ r ∈ [(Sync, MT_SYNC), (Fup, MT_FOLLOW_UP), (DResp, MT_DELAY_RESP), (Ann, MT_ANNOUNCE)],
      (ch.laneTake p bs r.2).1 = none → ActsOn r.1 s c (fun d => d = (ch.laneTake p bs r.2).2 ∧ Channel.onlyIn [.sealb, .pmu, .asks] ch d)) ∧
    (takes MT_SYNC → ptpTwoStep m = true → ActsOn Sync s c (fun d => small d ∧
      d = x.updLc p (fun _ => { heard with pend := some ⟨ptpSeq m, ptpCorr m, st.t, st.k, x.jour.tick⟩ }))) ∧
    (takes MT_SYNC → ptpTwoStep m = false → completes Sync heard (ofPtp ts.1 ts.2 (ptpCorr m)) st.t) ∧
    (∀ z, takes MT_FOLLOW_UP → l.pend = some z → z.seq = ptpSeq m → completes Fup l (ofPtp ts.1 ts.2 (z.corr + ptpCorr m)) z.t2) ∧
    (takes MT_FOLLOW_UP → (∀ z, l.pend = some z → z.seq ≠ ptpSeq m) → ActsOn Fup s c (fun d => d = x)) ∧
    (∀ t3, takes MT_DELAY_RESP → l.dreq = some (ptpSeq m, some t3) → mine →
      (∀ pr, l.pairs.find? (fun z => decide (z.2 < t3)) = some pr → ActsOn DResp s c (fun d => small d ∧ d = x.updLc p (fun l =>
        { l with dreq := none, mpd := some (sar ((pr.2 - pr.1) + (ofPtp ts.1 ts.2 (-(ptpCorr m)) - t3)) 1) }))) ∧
      (l.pairs.find? (fun z => decide (z.2 < t3)) = none → ActsOn DResp s c (fun d => small d ∧ d = x.updLc p (fun l => { l with dreq := none })))) ∧
    (takes MT_DELAY_RESP → (∀ q t3, l.dreq = some (q, some t3) → q ≠ ptpSeq m ∨ ¬ mine) → ActsOn DResp s c (fun d => d = x)) ∧
    (∀ t1, takes MT_PDELAY_RESP → l.pdelay = some ⟨ptpSeq m, some t1, none⟩ → mine →
      (ptpTwoStep m = true → ActsOn PResp s c (fun d => small d ∧ d = x.updLc p (fun l =>
        { l with pdelay := some ⟨ptpSeq m, some t1, some (ofPtp ts.1 ts.2 (ptpCorr m), st.t)⟩ }))) ∧
      (ptpTwoStep m = false → ActsOn PResp s c (fun d => small d ∧ d = x.updLc p (fun l =>
        { l with pdelay := none, mpd := some (sar ((st.t - t1) - ofPtp 0 0 (ptpCorr m)) 1) })))) ∧
    (takes MT_PDELAY_RESP → (∀ t1, l.pdelay = some ⟨ptpSeq m, some t1, none⟩ → ¬ mine) → ActsOn PResp s c (fun d => d = x)) ∧
    (∀ b, ch.laneTake p bs MT_PDELAY_RESP = (none, b) → b.laneTake p bs MT_PDELAY_RESP_FU = (some m, x) →
      (∀ t1 t2 t4, l.pdelay = some ⟨ptpSeq m, some t1, some (t2, t4)⟩ → mine → ActsOn PResp s c (fun d => small d ∧ d = x.updLc p (fun l =>
        { l with pdelay := none, mpd := some (sar ((t4 - t1) - (ofPtp ts.1 ts.2 (ptpCorr m) - t2)) 1) }))) ∧
      ((∀ t1 e, l.pdelay = some ⟨ptpSeq m, some t1, some e⟩ → ¬ mine) → ActsOn PResp s c (fun d => d = x))) ∧
    (∀ b, ch.laneTake p bs MT_PDELAY_RESP = (none, b) → (b.laneTake p bs MT_PDELAY_RESP_FU).1 = none →
      ActsOn PResp s c (fun d => small d ∧ d = (b.laneTake p bs MT_PDELAY_RESP_FU).2)) ∧
    (takes MT_ANNOUNCE → maskOpen (byteAt m 7) 2 = true → x.ref.selA.prev = some n → ActsOn Ann s c (fun d => Channel.onlyIn [.dpll, .scale, .sealb, .pmu, .asks] ch d ∧
      let c1 := x.utcAnnounce n (.offset (signed 16 (beAt m 44 2)))
      let c2 := if maskOpen (byteAt m 7) 0 then c1.utcAnnounce n (.flag true) else c1
      d = if maskOpen (byteAt m 7) 1 then c2.utcAnnounce n (.flag false) else c2)) ∧
    (takes MT_ANNOUNCE → maskOpen (byteAt m 7) 2 = false ∨ x.ref.selA.prev ≠ some n → ActsOn Ann s c (fun d => d = x)) ∧
    let k := parsePkt bs
    let w := k.payload bs
    let b := ch.bwRx p (bs.length + 4)
    let goes : Prop := ch.portUp p = true ∧ bs.length + 4 ≤ ch.fld (F.PORT_P_CFG_MAXF p.val) ∧ ch.classify p k bs = .transit ∧ Channel.transitOk w = true
    let event : Bool := ptpType w == MT_SYNC || ptpType w == MT_DELAY_REQ
    let auth := (ptpTlvs w).find? (fun t => t.1 == 0x8009)
    let renews (j : Nat) : Prop := ∃ t, auth = some t ∧ b.saOfTlv t.2.1 = some j ∧ b.flag (F.SEAL_SA_CFG_TRANSIT j) = true ∧ (b.saKey j).isSome = true
    let onward (y : Channel) (use : SealUse) (d : Channel) : Prop := Channel.onlyIn [.sched, .port, .sealb, .pmu, .free, .asks] ch d ∧
      ∃ h : QFrame, h.bytes = bs ∧ h.use = use ∧ h.late = .transit (if event then some (b.stampIn p ps f).t else none) ∧ d = y.submit (1 - p) (b.qt (1 - p)) h
    (¬ goes → ActsOn Tr s c (fun d => d = ch)) ∧
    (goes → (auth = none ∨ ((∀ j, ¬ renews j) ∧ b.fld F.PORT_CTL_TNK ≠ 0)) → ActsOn Tr s c (onward b .none)) ∧
    (goes → auth ≠ none → (∀ j, ¬ renews j) → b.fld F.PORT_CTL_TNK = 0 → ActsOn Tr s c (fun d => Channel.onlyIn [.port, .pmu] ch d ∧
      d = b.bump (F.PORT_P_CNT1_TR_DROP p.val))) ∧
    (∀ j j', goes → renews j → b.ptpAuth w = .ok j' → ActsOn Tr s c (onward b (b.sealWith (some j')).1)) ∧
    (∀ j, goes → renews j → b.ptpAuth w = .fail → ActsOn Tr s c (fun d => Channel.onlyIn [.sealb, .pmu, .asks] ch d ∧ d = b.authFail))

/-- What the service sends by itself, and its tables (R183, R202, R203, R205 to R211, R221, R225, R239, R314): due unicast and multicast messages are queued on QT with their next
sequenceId; a Pdelay_Req and the lane client's Delay_Req open an exchange; the lane client negotiates; a port that is UP, free and may commit first drops, in
SILENT, what it may not send, then sends the head of the selected queue, stamped, sealed and counted: the frame is in flight until it passes the plane, a
sealed one not before its seal is done (R214, R226; its tick is the model's reading, notes/assumptions/105.md); the cores answer the oldest frame on QX; expired grants and revoked clients give their rate back; a cookie mint
reads its request and makes its cookies, or ends with its error. -/
def Obligations.ServiceSendsAndKeepsItsTables : Prop :=
  (∀ (s : State) (c : ChanIx) (p : PortIx) (ps i : Nat) (f : Int) (ann : Bool), s.live c →
    let ch := s.ch[c]
    let idle (j : Instr) : Prop := ActsOn j s c (fun d => d = ch)
    let fr (d : Channel) : Prop := Channel.onlyIn [.sched, .port, .sealb, .pmu, .free, .asks] ch d
    let Uni := Instr.unicastDueMessage c i ann
    let Mc := Instr.multicastDueMessage c p ann
    let Eg := Instr.egressCommit c p ps f
    let log := if ann then ch.sfld (F.SEAL_P_LOG_ANN p.val) else ch.sfld (F.SEAL_P_LOG_SYNC p.val)
    let x := ch.ps p
    let fresh (k : Nat × Nat) : Prop := ch.sealb.built.contains k = false
    let made (k : Nat × Nat) : Channel := ch.setSeal { ch.sealb with built := k :: ch.sealb.built }
    let mcKey : Nat × Nat := (0, 2 * p.val + b2n ann)
    let mcDue : Prop := ch.mcDests p ≠ [] ∧ ch.silent = false ∧ ch.dueHere (logGt log) 0 = true ∧ fresh mcKey
    let pDue : Prop := ch.isGptp p = true ∧ ch.dueHere (logGt (ch.sfld (F.SEAL_P_LOG_PDELAY p.val))) 0 = true ∧ fresh (0, 4 + p.val)
    let rDue (r : LaneRec) : Prop := ∃ g, ch.dreqLog p r = some g ∧ ch.dueHere (logGt g) 0 = true ∧ fresh (0, 6 + p.val)
    let l := ch.lc p
    let opens (b : Channel) : Channel := b.updLc p (fun l => { l with reqSeq := wrapInc 16 l.reqSeq, pdelay := some ⟨l.reqSeq, none, none⟩ })
    let peer (mac : Bytes) (d : Channel) : Prop := fr d ∧ ∃ (y : Channel) (h : QFrame), y = made (0, 4 + p.val) ∧ h.msg = MT_PDELAY_REQ ∧ h.seqid = l.reqSeq ∧ h.late = .request ∧
      h = y.ptpFrame p (y.mcDest p mac) MT_PDELAY_REQ (y.baseFlags p) 0 l.reqSeq (y.sfld (F.SEAL_P_LOG_PDELAY p.val)) (tsZero ++ tsZero) none false
        (y.mcSa p) .request (!y.oneStep p) none 0 ∧ d = (opens y).submit p (y.qt p) h
    let n := (ch.laneRecs p).length
    let mayCommit : Prop := (ch.portUp p = true ∨ (ch.ps p).lost = true) ∧ ch.run = true ∧ (ch.sp p).freeAt ≤ ch.jour.tick
    let base := ch.dropSilent p
    (∀ e g, ch.client? i = some e → (if ann then e.ann else e.sync) = some g → ch.dueHere (logGt g.1) (sar (i * logGt g.1) 18) = true → ch.silent = false →
      fresh (i + 1, b2n ann) →
      let y := made (i + 1, b2n ann)
      let q : PortIx := if e.port = 0 then 0 else 1
      let sa := if e.sa < 16 then some e.sa else none
      ActsOn Uni s c (fun d => fr d ∧ d =
        if ann then (y.putClient i (some { e with seqAnn := wrapInc 16 e.seqAnn })).submit q (y.qt q) (y.annFrame q (y.clientDest e) true e.seqAnn g.1 sa (some i))
        else (y.putClient i (some { e with seqSync := wrapInc 16 e.seqSync })).submit q (y.qt q)
          (y.syncFrame q (y.clientDest e) (!y.oneStep q || e.two) true e.seqSync g.1 sa (some i)))) ∧
    ((∀ e g, ch.client? i = some e → (if ann then e.ann else e.sync) = some g → ch.dueHere (logGt g.1) (sar (i * logGt g.1) 18) = false ∨ ch.silent = true ∨ ¬ fresh (i + 1, b2n ann)) → idle Uni) ∧
    (mcDue → ActsOn Mc s c (fun d => fr d ∧ (d.ps p).mcAnn = (if ann then wrapInc 16 x.mcAnn else x.mcAnn) ∧ (d.ps p).mcSync = (if ann then x.mcSync else wrapInc 16 x.mcSync) ∧
      let y := made mcKey
      d = (y.mcDests p).foldl (fun b z => b.submit p (y.qt p) (if ann then y.annFrame p z false x.mcAnn log (y.mcSa p) none
        else y.syncFrame p z (!y.oneStep p) false x.mcSync log (y.mcSa p) none))
        (y.setPs p (if ann then { x with mcAnn := wrapInc 16 x.mcAnn } else { x with mcSync := wrapInc 16 x.mcSync })))) ∧
    (¬ mcDue → idle Mc) ∧
    (∀ mac, pDue → ch.mcAddr p = some mac → ActsOn (.pdelayReqDue c p) s c (peer mac)) ∧
    (¬ pDue ∨ ch.mcAddr p = none → idle (.pdelayReqDue c p)) ∧
    (∀ r mac, ch.master p = some r → pDue → ch.mcAddr p = some mac → ActsOn (.laneDelayReqDue c p) s c (peer mac)) ∧
    (∀ r, ch.master p = some r → ch.isGptp p = false → rDue r → ch.profile p ≠ 0 → ActsOn (.laneDelayReqDue c p) s c (fun d => fr d ∧
      ∃ (b : Channel) (h : QFrame), b = (made (0, 6 + p.val)).updLc p (fun l => { l with reqSeq := wrapInc 16 l.reqSeq, dreq := some (l.reqSeq, none) }) ∧ h.msg = MT_DELAY_REQ ∧
        h.seqid = l.reqSeq ∧ h.late = .request ∧ d = b.submit p (ch.qt p) h)) ∧
    (ch.master p = none ∨ (ch.isGptp p = true ∧ (¬ pDue ∨ ch.mcAddr p = none)) ∨ (ch.isGptp p = false ∧ (ch.profile p = 0 ∨ ∀ r, ch.master p = some r → ¬ rDue r)) →
      idle (.laneDelayReqDue c p)) ∧
    (n = 0 ∨ ch.negotiates p = false → idle (.laneClientNegotiate c p)) ∧
    (n ≠ 0 → ch.negotiates p = true → (∀ g ∈ [l.sync, l.dresp, l.ann], ∀ z, g = some z → ch.nowSec < z.exp) →
      ActsOn (.laneClientNegotiate c p) s c (fun d => fr d ∧ (d.lc p).asked = true ∧ (d.lc p).sigSeq = wrapInc 16 l.sigSeq ∧
        (d.lc p).idx = if l.asked then (l.idx + 1) % n else l.idx)) ∧
    (n ≠ 0 → ch.negotiates p = true → (∃ z, (l.sync = some z ∨ l.dresp = some z ∨ l.ann = some z) ∧ z.exp ≤ ch.nowSec) →
      ActsOn (.laneClientNegotiate c p) s c (fun d => fr d ∧ d.lc p = { LaneClient.reset with asked := true, sigSeq := wrapInc 16 l.sigSeq, reqSeq := l.reqSeq })) ∧
    (∀ q g c1, mayCommit → base.select? p = some q → base.commitQ p q = (some g, c1) →
      let st := c1.stampOut p ps f
      ((g.msg < 8 ∧ toPtp st.t st.teb = none) → ActsOn Eg s c (fun d => fr d ∧ d = Channel.wasted p (c1.notExp p) g)) ∧
      (¬ (g.msg < 8 ∧ toPtp st.t st.teb = none) →
        let h := Channel.sealFrame (c1.lateWrite g p st)
        let bytes := if h.bytes = g.bytes then h.bytes else refreshSum h.bytes h.ofs h.mlen
        let b := c1.commitCounts p { g with bytes := bytes } st ((ps + (c1.latEgr p f).toNat) / 5000)
        let b' := b.passFrames p
        (∃ z ∈ (b.ps p).flight, z.frame = { g with bytes := bytes } ∧ (g.use = .none → z.sealEnd = none) ∧
          (g.use ≠ .none → z.sealEnd = some (ch.jour.tick + 68) ∧ ch.jour.tick + 68 ≤ z.pass)) ∧
        ActsOn Eg s c (fun d => fr d ∧ ((b.ps p).lost = true → d = b.dropFlights p) ∧ ((b.ps p).lost = false → d = match b'.followUp p g st with
          | none => b'
          | some fu => b'.submit p (b'.qt p) fu)))) ∧
    (∀ q c1, mayCommit → base.select? p = some q → base.commitQ p q = (none, c1) → ActsOn Eg s c (fun d => d = c1)) ∧
    (mayCommit → base.select? p = none → ActsOn Eg s c (fun d => d = base)) ∧
    (¬ mayCommit → idle Eg) ∧
    (ch.silent = false → base = ch) ∧
    (ch.sealb.exc = [] → idle (.exceptionCoreResponse c)) ∧
    (∀ z r, ch.sealb.exc = z :: r → ActsOn (.exceptionCoreResponse c) s c (fun d => Channel.onlyIn [.sched, .sealb, .pmu, .free, .asks] ch d ∧ d.sealb.exc = r ∧
      (z.frame = none → d = ch.setSeal { ch.sealb with exc := r }))) ∧
    (ch.client? i = none → idle (.grantExpiry c i)) ∧
    (∀ e, ch.client? i = some e →
      let past (g : Option (Int × Int)) : Bool := g.any (fun x => decide (x.2 ≤ ch.nowSec))
      let kept (g : Option (Int × Int)) : Option (Int × Int) := if past g then none else g
      let lost (g : Option (Int × Int)) : Nat := if past g then Channel.rateOf g else 0
      let e' : Client := { e with sync := kept e.sync, dresp := kept e.dresp, ann := kept e.ann }
      (e' = e → idle (.grantExpiry c i)) ∧
      (e' ≠ e → ActsOn (.grantExpiry c i) s c (fun d => Channel.onlyIn [.sealb, .asks] ch d ∧ Eff.client i ∈ d.effs ∧
        d.grantUsed = ch.grantUsed - (lost e.sync + lost e.dresp + lost e.ann) ∧ (e'.granted = true → d.sealb.clients = smIns ch.sealb.clients i e') ∧
        (e'.granted = false → d.sealb.clients = smDel ch.sealb.clients i))))) ∧
  (∀ (s : State) (p : HostPath) (c : ChanIx) (v : Word), s.open p → s.running c = true → s.ch[c].hasPart .sealb SEAL_CT_CMD = true →
    let ch := s.ch[c]
    let i := getField v 0 18
    let fr (d : Channel) : Prop := Channel.onlyIn [.sealb, .jour, .asks] ch d ∧ d.cur F.SEAL_CT_CMD_INDEX = i
    (∀ e, bit v 31 = true → ch.client? i = some e → e.granted = true → ActsOn (.ctRevoke p c v) s c (fun d => fr d ∧ d.sealb.clients = smDel ch.sealb.clients i ∧
      d.grantUsed = ch.grantUsed - (Channel.rateOf e.sync + Channel.rateOf e.dresp + Channel.rateOf e.ann) ∧ Eff.client i ∈ d.effs)) ∧
    (bit v 31 = false ∨ ch.client? i = none → ActsOn (.ctRevoke p c v) s c (fun d => fr d ∧ d.sealb = ch.sealb))) ∧
  ∀ (s : State) (slot : Fin 64) (m : CmdSt) (req : Option Bytes), s.scanning = false → s.running? slot.val 8 = some m →
    let i := Instr.cmdCookieMint slot req
    let fails (r : Nat) : Prop := Acts i s (fun u => State.onlyIn [.hostif, .cmdq, .out] s u ∧ s.ended u slot.val r 0)
    (m.begun = true → Acts i s (fun u => u = s.clear)) ∧
    (m.begun = false → s.linkUp = false ∨ req = none → fails RES_HOST_DMA) ∧
    (∀ b, m.begun = false → s.linkUp = true → req = some b →
      let n := leAt b 1 1
      let k := leAt b 4 1
      let good : Prop := leAt b 0 1 = 1 ∧ 1 ≤ n ∧ n ≤ 8 ∧ leAt b 2 2 = 0x000F
      let key := if attrAlg (s.vslot k).attr = 3 then s.deliver k RC_MINT else none
      (¬ good → fails RES_FORMAT) ∧
      (good → key = none → fails RES_OP_ERROR) ∧
      (good → key ≠ none → Acts i s (fun u => State.onlyIn [.cmdq, .free, .out] s u ∧ u.freeCtr = s.freeCtr + n ∧ ∃ cookies : Bytes,
        u.cmdq.cmds = s.cmdq.cmds.map (fun z => if z.slot = slot.val then { z with begun := true, buf := BitVec.ofNat 8 k :: cookies } else z))))

/-! ### Queues, gates, policers, host transmit rings -/

/-- Policer entries, gate lists, queue samples and host transmit rings (R236, R244, R247, R249, R383): a GO of POL_CMD writes the indexed entry, with its buckets filled where it
becomes valid, refilled and cut to the new bursts else, or reports bad parameters; a SWAP of a port's gate list takes the admin list for its instant, or is refused as busy or bad, a
CANCEL withdraws it, from the next tick on; the entry in whose span the plane lies governs the gates, so that a boundary needs no event of its own; the
switch makes the admin list operate; a sample is taken of every queue of the mask, after the queues of a port that has lost its link are flushed; a frame at the head of a host transmit ring, one from each in a tick, is queued, or counted as bad, and those of an absent channel are passed over. -/
def Obligations.QueuesGatesAndHostFrames : Prop :=
  (∀ (s : State) (h : HostPath) (c : ChanIx) (v : Word), s.open h → s.running c = true →
    let ch := s.ch[c]
    let fr (d : Channel) : Prop := Channel.onlyIn [.sched, .jour, .asks] ch d
    let rate (lo hi : Nat) : Nat := (ch.word .sched lo).toNat + 2 ^ 32 * (ch.word .sched hi).toNat
    let cir := rate SCHED_POL_CIR_LO SCHED_POL_CIR_HI
    let pir := rate SCHED_POL_PIR_LO SCHED_POL_PIR_HI
    let cbs := ch.cur F.SCHED_POL_CBS_BURST
    let pbs := ch.cur F.SCHED_POL_PBS_BURST
    let bad : Prop := pir < cir ∨ pbs < cbs ∨ 2 ^ 40 ≤ cir ∨ 2 ^ 40 ≤ pir
    let i := ch.cur F.SCHED_POL_IDX_INDEX
    let e := ch.polEnt i
    let e1 : PolEntry := { e with cir := cir, pir := pir, cbs := cbs, pbs := pbs, valid := bit v 29, unit := bit v 28 }
    let now := ch.jour.tick
    let Go := Instr.polCmdGo h c v
    let wrote (g : PolEntry) (d : Channel) : Prop := fr d ∧ d.polEnt i = g ∧ ∀ j, j ≠ i → d.polEnt j = ch.polEnt j
    (bit v 31 = true → bad → ActsOn Go s c (fun d => fr d ∧ d.sched = ch.sched ∧ d.cur F.SCHED_POL_CMD_ERR = 1 ∧ d.cur F.SCHED_EVT_POL_ERR = 1)) ∧
    (bit v 31 = true → ¬ bad → bit v 29 = true → e.valid = false → ActsOn Go s c (wrote { e1 with tc := cbs * 2 ^ 32, tp := pbs * 2 ^ 32, last := now })) ∧
    (bit v 31 = true → ¬ bad → (e.valid = true ∨ bit v 29 = false) → ActsOn Go s c (wrote
      { e1 with tc := min (cbs * 2 ^ 32) (refill e.tc e.cbs e.cir (now - e.last)), tp := min (pbs * 2 ^ 32) (refill e.tp e.pbs e.pir (now - e.last)), last := now })) ∧
    (bit v 31 = false → ActsOn Go s c (fun d => fr d ∧ d.sched = ch.sched)) ∧
    ∀ p : PortIx, ch.hasPart .sched (SCHED_P_GCMD p.val) = true →
      let x := ch.put (F.SCHED_P_GCMD_A_LEN p.val) (getField v 0 9)
      let cancels : Prop := bit v 30 = true ∧ ch.cur (F.SCHED_P_GCMD_PEND p.val) = 1
      let busy : Prop := ch.cur (F.SCHED_P_GCMD_PEND p.val) = 1 ∧ ¬ cancels
      let base := ch.gtWords .sched (SCHED_P_A_BASE p.val)
      let cycle := ch.cur (F.SCHED_P_A_CYCLE_CYCLE p.val)
      let k := max 0 (-(Int.fdiv (Channel.listGt base - (ch.dpll.ctr * 10 ^ 9 + 10 ^ 6 * 2 ^ 96)) ((cycle : Int) * 2 ^ 96)))
      let rest (d : Channel) : Prop := fr d ∧ ∀ q, d.eq p q = ch.eq p q
      ∀ j ∈ [Instr.gateSwap h c p v, .gateCancel h c p v],
        (bit v 31 = true → busy → ActsOn j s c (fun d => rest d ∧ d.sched = ch.sched ∧ d.cur (F.SCHED_P_GCMD_GBUSY p.val) = 1)) ∧
        (bit v 31 = true → ¬ busy → x.adminOk p = false → ActsOn j s c (fun d => rest d ∧ d.cur (F.SCHED_P_GCMD_GERR p.val) = 1 ∧
          (cancels → d.sp p = { ch.sp p with swapNext := some none } ∧ d.cur (F.SCHED_P_GCMD_PEND p.val) = 0) ∧ (¬ cancels → d.sched = ch.sched))) ∧
        (bit v 31 = true → ¬ busy → x.adminOk p = true → ActsOn j s c (fun d => rest d ∧ d.cur (F.SCHED_P_GCMD_PEND p.val) = 1 ∧
          d.sp p = { ch.sp p with swapNext := some (some ⟨Channel.listGt base + k * ((cycle : Int) * 2 ^ 96), x.adminLen p, cycle, base⟩) })) ∧
        (bit v 31 = false → cancels → ActsOn j s c (fun d => rest d ∧ d.sp p = { ch.sp p with swapNext := some none } ∧ d.cur (F.SCHED_P_GCMD_PEND p.val) = 0)) ∧
        (bit v 31 = false → ¬ cancels → ActsOn j s c (fun d => rest d ∧ d.sched = ch.sched))) ∧
  (∀ (s : State) (c : ChanIx) (p : PortIx), s.live c →
    let ch := s.ch[c]
    let sampled : Prop := ch.flag (F.SCHED_P_SAMP_EN p.val) = true ∧ ch.jour.tick % ((ch.fld (F.SCHED_P_SAMP_PER p.val) + 1) * 200) = 0
    let mask := ch.fld (F.SCHED_P_SMASK_LO_MASK p.val) + 2 ^ 32 * ch.fld (F.SCHED_P_SMASK_HI_MASK p.val)
    ActsOn (.gateListBoundary c p) s c (fun d => d = ch ∧
      ∀ q, d.gateOpen p q = if ch.gated p = true then maskOpen (ch.gateEnt p (ch.opBank p) (ch.entryNow p)).1 q else true) ∧
    (∀ w, (ch.sp p).swap = some w → w.at' < ch.listTime p (ch.ctrAfter 1) → ActsOn (.gateListSwitch c p) s c (fun d => Channel.onlyIn [.sched, .pmu, .free, .asks] ch d ∧
      (d.sp p).swap = none ∧ d.cur (F.SCHED_P_GSTAT_OPER_VALID p.val) = 1 ∧ d.cur (F.SCHED_P_GSTAT_BANK p.val) = ch.adminBank p ∧
      d.cur (F.SCHED_P_GSTAT_O_LEN p.val) = w.len % 512 ∧ d.cur (F.SCHED_P_O_CYCLE_CYCLE p.val) = w.cycle % 2 ^ (F.SCHED_P_O_CYCLE_CYCLE p.val).w ∧
      d.cur (F.SCHED_P_GCMD_PEND p.val) = 0 ∧ d.cur F.SCHED_EVT_GSWAP = 1)) ∧
    ((∀ w, (ch.sp p).swap = some w → ch.listTime p (ch.ctrAfter 1) ≤ w.at') → ActsOn (.gateListSwitch c p) s c (fun d => d = ch)) ∧
    let b := ch.flushLost
    ((∀ q : PortIx, (ch.ps q).lost = false) → b = ch) ∧
    (sampled → ActsOn (.queueSample c p) s c (fun d => Channel.onlyIn [.sched] b d ∧ d.regs = b.regs ∧ d.sp (1 - p) = b.sp (1 - p) ∧
      ∀ q, if q < 64 ∧ maskOpen mask q = true then
          let e := b.eq p q
          let w : QSample := ⟨ch.jour.tick, e.seq % 2 ^ 32, e.frames.length,
            b2n (e.seq / 128 % 2 == 0) + 2 * b2n (b.gateOpen p q) + 4 * b2n (decide (b.shNow p q < 0)), (e.frames.map QFrame.len).sum,
            if e.frames.isEmpty then 0 else min 0xFFFFFFFF ((ch.jour.tick - e.hol) * 5), e.commits, e.drops⟩
          d.eq p q = { e with commits := 0, drops := 0, seq := e.seq + 1, samples := (w :: e.samples).take 128 }
        else d.eq p q = b.eq p q)) ∧
    (¬ sampled → ActsOn (.queueSample c p) s c (fun d => d = b))) ∧
  ∀ (s : State) (c : ChanIx) (p : PortIx), s.scanning = false →
    let hd := s.gcur (F.HOSTIF_HTX_HEAD_HEAD c.val p.val)
    let tl := s.gcur (F.HOSTIF_HTX_TAIL_TAIL c.val p.val)
    let h := s.htxBytes c p hd 16
    let len := leAt h 0 2
    let good : Prop := 60 ≤ len ∧ len + 4 ≤ s.ch[c].fld (F.PORT_P_CFG_MAXF p.val) ∧ leAt h 2 1 ≤ 63 ∧ leAt h 3 1 ≤ 1 ∧ leAt h 8 8 = 0
    let Take := Instr.hostTxFrameTake c p
    let fr (u : State) : Prop := State.onlyIn [.hostif, .ch, .out] s u ∧ u.host = { s.host with took := (c, p) :: s.host.took }
    let once : Prop := s.host.took.contains (c, p) = false
    (hd = tl → Acts Take s (fun u => u = s.clear)) ∧
    (hd ≠ tl → s.running c = true → ¬ once → Acts Take s (fun u => u = s.clear)) ∧
    (hd ≠ tl → s.running c = false → Acts Take s (fun u => State.onlyIn [.hostif, .out] s u ∧ u.host = s.host ∧ u.ch = s.ch ∧ u.gcur (F.HOSTIF_HTX_HEAD_HEAD c.val p.val) = tl ∧
      u.gcur (F.HOSTIF_HTX_CNT_ABSENT c.val p.val) = (s.gcur (F.HOSTIF_HTX_CNT_ABSENT c.val p.val) + s.htxCount c p tl 1024 hd) % 65536)) ∧
    (hd ≠ tl → s.running c = true → once → ¬ good → Acts Take s (fun u => fr u ∧ u.ch = s.ch ∧ u.gcur (F.HOSTIF_HTX_HEAD_HEAD c.val p.val) = (hd + State.htxSlots h) % 1024 ∧
      u.gcur (F.HOSTIF_HTX_CNT_BAD c.val p.val) = (s.gcur (F.HOSTIF_HTX_CNT_BAD c.val p.val) + 1) % 65536)) ∧
    (hd ≠ tl → s.running c = true → once → good → Acts Take s (fun u => fr u ∧ u.gcur (F.HOSTIF_HTX_HEAD_HEAD c.val p.val) = (hd + State.htxSlots h) % 1024 ∧
      s.changed u c (fun d => Channel.onlyIn [.sched, .pmu, .asks] s.ch[c] d ∧
        d = s.ch[c].hostFrame p (leAt h 2 1) ((s.htxBytes c p hd (16 + len)).drop 16) (leAt h 3 1 == 1) (leAt h 4 4))))

/-! ### The twin -/

/-- Claim rounds (R256 to R262): a round begins on a paired unit when its period is over or a falling edge was seen, and the unit sends its effective claim;
1,400 ticks later, and then only, ROUND_W holds the winning word. A claim that was sent, did not drop and equals it wins: DRIVE is set, a racking unit becomes ACTIVE
and RACK_T holds its microseconds; one that loses counts LOST, an ACTIVE unit or, to a higher word, a racking one becomes STANDBY without the drive right. A line
stuck or without the start bit, a word below the claim sent, or a second won round in a row with a higher claim heard sets CLAIM_BAD, in the safe state too; while
it is set, a unit with a claim drives; 16 good rounds clear it. Contention at an output of a driving unit sets CONTEND; unit B then releases the drive right. -/
def Obligations.ClaimRoundsGiveTheDriveRight : Prop :=
  (∀ (s : State) (fell : Bool), s.scanning = false →
    let due : Prop := ∀ t, s.twin.roundAt = some t → t + ROUND_TICKS ≤ s.tick
    let starts : Prop := s.paired = true ∧ ¬ (s.twin.inRound ≠ none ∧ s.tick < s.twin.roundAt.getD 0 + ROUND_LEN) ∧ (fell = true ∨ (due ∧ s.safe = false))
    (¬ starts → Acts (.claimRoundStart fell) s (fun u => u = s.clear)) ∧
    (starts → Acts (.claimRoundStart fell) s (fun u => State.onlyIn [.twin, .out] s u ∧ u.regs = s.regs ∧
      u.twin = { s.twin with roundAt := some s.tick, inRound := some s.effClaim } ∧
      u.out = if s.safe then [] else [.claimStart (BitVec.ofNat 32 s.effClaim)]))) ∧
  (∀ (s : State) (w : Word) (stuck noStart : Bool), s.scanning = false →
    let End := Instr.claimRoundEnd w stuck noStart
    let seen := max s.twin.eSeen (w.toNat / 256 % 2 ^ 24)
    let common (u : State) : Prop := u.gcur F.TWIN_ROUND_W = w.toNat ∧ u.twin.inRound = none ∧ u.twin.eSeen = seen
    let ended (sent t0 : Nat) : Prop := s.twin.inRound = some sent ∧ s.twin.roundAt = some t0 ∧ s.tick = t0 + ROUND_LEN
    ((∀ sent t0, ¬ ended sent t0) → Acts End s (fun u => u = s.clear)) ∧
    ∀ sent t0, ended sent t0 →
      let mine := if s.effClaim = sent then sent else 0
      let won : Bool := mine != 0 && mine == w.toNat
      let lost : Bool := mine != 0 && !won
      let st := s.twst
      ∀ bad : Bool, (bad = true ↔ stuck = true ∨ (noStart = true ∧ s.safe = false) ∨ w.toNat < sent ∨
          (s.twin.won = true ∧ won = true ∧ ∃ e ∈ s.twin.peerClaims, mine < e.1)) →
        let judged (u : State) : Prop := u.twin.won = won ∧ u.twin.peerClaims = s.twin.peerClaims.filter (fun e => decide (t0 ≤ e.2)) ∧
          u.twin.goodRounds = if bad then 0 else s.twin.goodRounds + 1
        let flag := s.gflag F.TWIN_STAT_CLAIM_BAD
        let stays : Bool := flag && (bad || decide (s.twin.goodRounds + 1 < 16))
        (bad = true → flag = false → Acts End s (fun u => common u ∧
          State.onlyIn [.hostif, .cmdq, .fault, .vault, .book, .tally, .twin, .bench, .pwr, .image, .ch, .free, .out] s u)) ∧
        (s.safe = true → (bad = false ∨ flag = true) → Acts End s (fun u => common u ∧ judged u ∧ u.gcur F.TWIN_STAT_CLAIM_BAD = b2n stays ∧ u.twst = st ∧
          State.onlyIn [.twin, .out] s u ∧ State.keeps .twin [F.TWIN_ROUND_W, F.TWIN_STAT_CLAIM_BAD] s u)) ∧
        (s.safe = false → (bad = false ∨ flag = true) →
          let ends (p : State → Prop) : Prop := Acts End s (fun u => State.onlyIn [.hostif, .cmdq, .vault, .book, .tally, .twin, .bench, .pwr, .image, .ch, .free, .out] s u ∧
            common u ∧ judged u ∧ u.gcur F.TWIN_STAT_CLAIM_BAD = b2n stays ∧
            u.gcur F.TWIN_CNT2_LOST = (s.gcur F.TWIN_CNT2_LOST + b2n lost) % 65536 ∧ u.gcur F.TWIN_EPOCH_EPOCH = s.gcur F.TWIN_EPOCH_EPOCH ∧ p u)
          let drives : Bool := won || (stays && mine != 0 && !s.twin.noDrive)
          let racking : Prop := st = TW_RACKING ∨ st = TW_DRILL
          let cold (u : State) : Prop := u.twst = TW_STANDBY ∧ u.gcur F.TWIN_STAT_DRIVE = 0 ∧ u.gcur F.TWIN_STAT_PATH_A = 0 ∧ u.gcur F.TWIN_STAT_PATH_B = 0 ∧
            u.twin.rack = none ∧ u.twin.lastA = none ∧ u.twin.lastB = none
          (racking → won = true → ends (fun u => u.twst = TW_ACTIVE ∧ u.gcur F.TWIN_STAT_DRIVE = 1 ∧ u.twin.rack = none ∧
            ∀ k, s.twin.rack = some k → u.gcur F.TWIN_RACK_T_T = min 0xFFFFFFFF ((s.tick - k.t0) / 200))) ∧
          (racking → lost = true → mine < w.toNat → ends cold) ∧
          (st = TW_ACTIVE → lost = true → stays = false → ends cold) ∧
          (¬ (racking ∧ (won = true ∨ (lost = true ∧ mine < w.toNat))) → ¬ (st = TW_ACTIVE ∧ lost = true ∧ stays = false) → ends (fun u => u.twst = st ∧
            u.gcur F.TWIN_STAT_DRIVE = b2n drives ∧ u.twin.rack = s.twin.rack ∧ u.twin.drill = s.twin.drill)))) ∧
  ∀ (s : State) (c : ChanIx), s.scanning = false →
    let contends : Prop := s.gflag F.TWIN_STAT_DRIVE = true ∧ s.running c = true ∧ s.safe = false
    let v := ((s.clear.gput F.TWIN_STAT_CONTEND 1).gevt F.TWIN_EVT_CONTEND).detect 65
    let keeps : Prop := v.safe = true ∨ v.paired = false ∨ v.twin.unitA = true
    let fr (u : State) : Prop := State.onlyIn [.hostif, .cmdq, .fault, .vault, .book, .tally, .twin, .bench, .pwr, .image, .ch, .free, .out] s u
    (¬ contends → Acts (.outputContention c) s (fun u => u = s.clear)) ∧
    (contends → keeps → Acts (.outputContention c) s (fun u => u = v ∧ fr u)) ∧
    (contends → ¬ keeps → Acts (.outputContention c) s (fun u => fr u ∧ u.gcur F.TWIN_STAT_DRIVE = 0 ∧ u.twin.noDrive = v.gflag F.TWIN_STAT_CLAIM_BAD ∧
      (v.twst = TW_ACTIVE → u.twst = TW_STANDBY ∧ u.gcur F.TWIN_STAT_PATH_A = 0 ∧ u.gcur F.TWIN_STAT_PATH_B = 0) ∧ (v.twst ≠ TW_ACTIVE → u.twst = v.twst)))

/-- Heartbeats (R254, R263 to R266, R274, R280): a paired unit sends them on both lanes and on path B, every 20,000 ticks; one of the other unit makes its path HEARD, gives
PEER_STATE, ends RACK_WAIT in a standby and PEER_LOST in an active unit, and an HB frame with an exchange the delay and the offset of the units'
clocks; an offset that moves by more than 5 ns in a second sets MOSC_DIFF. A path whose miss timer expires is LOST; with no path HEARD the unit declares: a standby racks with the epoch raised, or waits for the feeds, a drill goes
on as a racking with the epoch raised, an active unit notes PEER_LOST. A boot wait that ends makes a standby ACTIVE. FENCE stops a paired unit, UNFENCE makes it
STANDBY. A twin lane is up or down. -/
def Obligations.HeartbeatsAndTwinStates : Prop :=
  (∀ (s : State) (ps0 ps1 : Nat), s.scanning = false →
    let sends : Prop := s.paired = true ∧ s.safe = false ∧ ∀ t, s.twin.hbAt = some t → t < s.tick ∧ (s.tick - t) % HB_TICKS = 0
    (¬ sends → Acts (.heartbeatSend ps0 ps1) s (fun u => u = s.clear)) ∧
    (sends → Acts (.heartbeatSend ps0 ps1) s (fun u => State.onlyIn [.twin, .out] s u ∧ u.regs = s.regs ∧ Output.hbWord s.hbWordOf ∈ u.out ∧
      u.twin = { s.twin with hbSeq := (s.twin.hbSeq + 1) % 16, hbAt := some s.tick, lseqTx := u.twin.lseqTx } ∧
      ∀ l : Fin 2, u.twin.lseqTx[l] = if s.twin.laneUp[l] then (s.twin.lseqTx[l] + 1) % 2 ^ 32 else s.twin.lseqTx[l]))) ∧
  (∀ (s : State) (w : Word) (lane : Fin 2) (bs : Bytes) (ps : Nat), s.scanning = false →
    let counts (b : Bool) (tst : Nat) (v u : State) : Prop :=
      u.gcur (if b then F.TWIN_STAT_PATH_B else F.TWIN_STAT_PATH_A) = 1 ∧ u.gcur F.TWIN_STAT_PEER_STATE = tst % 8 ∧ u.twst = v.twst ∧
      u.gcur F.TWIN_STAT_DRIVE = v.gcur F.TWIN_STAT_DRIVE ∧ u.twin.declared = false ∧ (if b then u.twin.lastB else u.twin.lastA) = some v.tick ∧
      (v.safe = false → v.twst = TW_STANDBY → u.gcur F.TWIN_STAT_RACK_WAIT = 0 ∧ u.twin.waitAt = none ∧
        u.twin.bootAt = if tst = TW_ACTIVE ∨ tst = TW_RACKING ∨ tst = TW_DRILL then none else v.twin.bootAt) ∧
      (v.safe = false → v.twst = TW_ACTIVE → u.gcur F.TWIN_STAT_PEER_LOST = 0)
    let good : Prop := s.paired = true ∧ w.toNat / 2 ^ 24 = 0xB7 ∧ w.toNat % 256 = crc8 (beBytes 3 (w.toNat / 256)) ∧ bit w 20 ≠ s.twin.unitA ∧ getField w 21 3 ≠ TW_FENCED
    (¬ good → Acts (.hbWordRx w) s (fun u => u = s.clear)) ∧
    (good → Acts (.hbWordRx w) s (fun u => State.onlyIn [.hostif, .twin, .out] s u ∧ counts true (getField w 21 3) s u ∧
      u.gcur F.TWIN_STAT_PATH_A = s.gcur F.TWIN_STAT_PATH_A ∧ u.gcur F.TWIN_TOFS_TOFS = s.gcur F.TWIN_TOFS_TOFS)) ∧
    let Rx := Instr.hbFrameRx lane bs ps
    let pl := slice bs 16 64
    let rx := linkStamp s.tick ps
    let claim := leAt pl 4 4
    let fl := leAt pl 1 1
    let tst := leAt pl 0 1
    let v := s.clear.lseqRx lane (leAt bs 4 4)
    let x : TwinSt := { v.twin with eSeen := max v.twin.eSeen (claim / 256), echo := some (leAt pl 8 8, rx) }
    let pid := s.gfld F.TWIN_PEER_ID_LO_ID_LO + 2 ^ 32 * s.gfld F.TWIN_PEER_ID_HI_ID_HI
    let took (u : State) : Prop := u.gcur F.TWIN_STAT_PEER_RUN = fl / 16 ∧ u.twin.heard = true ∧ u.twin.peerClaims = (claim, s.tick) :: s.twin.peerClaims
    let other : Prop := (pid ≠ 0 ∧ pid ≠ leAt bs 8 8) ∨ tst = TW_FENCED
    (s.laneTakes lane = false → Acts Rx s (fun u => u = s.clear)) ∧
    (s.laneTakes lane = true → ¬ twinSound bs → Acts Rx s (fun u => u = s.clear.twinBad lane)) ∧
    (s.laneTakes lane = true → twinSound bs → leAt bs 0 1 ≠ 1 → Acts Rx s (fun u => u = s.clear)) ∧
    (s.laneTakes lane = true → twinSound bs → leAt bs 0 1 = 1 →
      ((fl % 2 == 1) = s.twin.unitA → s.safe = true → Acts Rx s (fun u => u = { v with twin := x })) ∧
      ((fl % 2 == 1) = s.twin.unitA → s.safe = false → Acts Rx s (fun u =>
        u = ((({ v with twin := x } : State).gevt F.TWIN_EVT_COLLIDE).detect 66).fence twinOrg)) ∧
      ((fl % 2 == 1) ≠ s.twin.unitA → other → Acts Rx s (fun u => u = { v with twin := x })) ∧
      ((fl % 2 == 1) ≠ s.twin.unitA → ¬ other → (leAt pl 16 8 ≠ 0 ∨ leAt pl 24 8 ≠ 0) →
        let r := stampDiff rx (leAt pl 16 8) - stampDiff (leAt pl 8 8) (leAt pl 24 8)
        let dly := Int.fdiv r 2
        let offs := ((stampDiff (leAt pl 8 8) rx + dly + signed 32 (s.gfld F.TWIN_TCAL_TCAL)) :: s.twin.offs).take 64
        let tofs := Int.fdiv offs.sum offs.length
        let moved : Prop := ∃ e ∈ s.twin.offHist, s.tick < e.1 + SEC_TICKS ∧ 5000 < (tofs - e.2).natAbs
        (moved → s.gflag F.TWIN_STAT_MOSC_DIFF = false → Acts Rx s (fun u => u.gcur F.TWIN_STAT_MOSC_DIFF = 1 ∧ u.gcur F.TWIN_EVT_MOSC_DIFF = 1 ∧
          u.twin.offs = offs ∧ took u ∧ State.onlyIn [.hostif, .cmdq, .fault, .vault, .book, .tally, .twin, .bench, .pwr, .image, .ch, .free, .out] s u)) ∧
        ((¬ moved ∨ s.gflag F.TWIN_STAT_MOSC_DIFF = true) → Acts Rx s (fun u => State.onlyIn [.hostif, .twin, .out] s u ∧ counts false tst s u ∧ took u ∧ u.twin.offs = offs ∧
          u.gcur F.TWIN_TDLY_TDLY = min 0xFFFFFFFF dly.toNat ∧ u.gcur F.TWIN_TOFS_TOFS = unsigned 32 (max (-2147483648) (min 2147483647 tofs))))) ∧
      ((fl % 2 == 1) ≠ s.twin.unitA → ¬ other → leAt pl 16 8 = 0 → leAt pl 24 8 = 0 →
        Acts Rx s (fun u => State.onlyIn [.hostif, .twin, .out] s u ∧ counts false tst s u ∧ took u ∧ u.twin.offs = s.twin.offs ∧
          u.gcur F.TWIN_TDLY_TDLY = s.gcur F.TWIN_TDLY_TDLY ∧ u.gcur F.TWIN_TOFS_TOFS = s.gcur F.TWIN_TOFS_TOFS)))) ∧
  (∀ (s : State) (b : Bool), s.scanning = false →
    let last := if b then s.twin.lastB else s.twin.lastA
    let fr (u : State) : Prop := State.onlyIn [.hostif, .cmdq, .vault, .book, .tally, .twin, .bench, .clkgen, .pwr, .image, .ch, .free, .out] s u
    let raised := min 0xFFFFFF (max (s.gcur F.TWIN_EPOCH_EPOCH) s.twin.eSeen + 1)
    let racks (t0 : Nat) (u : State) : Prop := fr u ∧ u.twst = TW_RACKING ∧ u.gcur F.TWIN_STAT_RACK_WAIT = 0 ∧ u.gcur F.TWIN_EPOCH_EPOCH = raised ∧ u.twin.waitAt = none ∧
      ∃ k, u.twin.rack = some k ∧ k.t0 = t0 ∧ k.drill = false ∧ k.done = [] ∧ k.claim = false
    let waits (u : State) : Prop := fr u ∧ u.twst = s.twst ∧ u.gcur F.TWIN_STAT_RACK_WAIT = 1 ∧ u.gcur F.TWIN_EVT_RACK_WAIT = 1 ∧ u.twin.waitAt = some (s.twin.waitAt.getD s.tick)
    let Miss := Instr.heartbeatMissExpiry b
    let expired : Prop := ∃ t, last = some t ∧ t + MISS_TICKS ≤ s.tick
    let declares : Prop := s.paired = true ∧ s.twin.declared = false ∧ s.gcur (if b then F.TWIN_STAT_PATH_A else F.TWIN_STAT_PATH_B) ≠ 1
    let lost (p : State → Prop) : Prop := Acts Miss s (fun u => fr u ∧ u.gcur (if b then F.TWIN_STAT_PATH_B else F.TWIN_STAT_PATH_A) = 2 ∧ p u)
    let declared (p : State → Prop) : Prop := lost (fun u => u.twin.declared = true ∧ u.gcur F.TWIN_EVT_DECLARE = 1 ∧ p u)
    (¬ expired → Acts Miss s (fun u => u = s.clear)) ∧
    (expired → ¬ declares → lost (fun u => u.twin = s.twin ∧ u.twst = s.twst)) ∧
    (expired → declares → s.safe = true → declared (fun u => u.twst = s.twst)) ∧
    (expired → declares → s.safe = false → s.twst = TW_STANDBY → s.feedsOk = true → declared (racks s.tick)) ∧
    (expired → declares → s.safe = false → s.twst = TW_STANDBY → s.feedsOk = false → declared waits) ∧
    (expired → declares → s.safe = false → s.twst = TW_DRILL → declared (fun u => u.twst = TW_RACKING ∧ u.gcur F.TWIN_EPOCH_EPOCH = raised ∧ ∀ k, s.twin.rack = some k → u.twin.rack = some { k with drill := false })) ∧
    (expired → declares → s.safe = false → s.twst = TW_ACTIVE → declared (fun u => u.twst = s.twst ∧ u.gcur F.TWIN_STAT_PEER_LOST = 1 ∧ u.gcur F.TWIN_EVT_PEER_LOST = 1)) ∧
    let Boot := Instr.bootWaitExpiry
    let isOver : Prop := ∃ t, s.twin.bootAt = some t ∧ t ≤ s.tick
    (¬ isOver → Acts Boot s (fun u => u = s.clear)) ∧
    (isOver → (s.safe = true ∨ s.twst ≠ TW_STANDBY) → Acts Boot s (fun u => u = { s.clear with twin := { s.twin with bootAt := none } })) ∧
    (isOver → s.safe = false → s.twst = TW_STANDBY → s.feedsOk = true → Acts Boot s (fun u => fr u ∧ u.twst = TW_ACTIVE ∧ u.gcur F.TWIN_EPOCH_EPOCH = raised ∧ u.twin.bootAt = none)) ∧
    (isOver → s.safe = false → s.twst = TW_STANDBY → s.feedsOk = false → Acts Boot s (fun u => waits u ∧ u.twin.bootAt = none))) ∧
  ∀ (s : State) (h : HostPath) (x : Word) (lane : Fin 2) (up : Bool),
    let c := getField x 27 5
    let fr (u : State) : Prop := State.onlyIn [.hostif, .cmdq, .vault, .book, .tally, .twin, .bench, .pwr, .image, .ch, .free, .out] s u
    let same (u : State) : Prop := fr u ∧ u.twin = s.twin ∧ State.keeps .twin [] s u
    (s.open h → ∀ i ∈ [Instr.twinFence h x, .twinUnfence h x],
      ((c = 0 ∨ c = 3) → Acts i s same) ∧
      (c = 2 → (s.paired = false ∨ s.twst = TW_FENCED) → Acts i s same) ∧
      (c = 2 → s.paired = true → s.twst ≠ TW_FENCED → Acts i s (fun u => fr u ∧ u.twst = TW_FENCED ∧ u.gcur F.TWIN_STAT_DRIVE = 0 ∧
        u.gcur F.TWIN_STAT_PATH_A = 0 ∧ u.gcur F.TWIN_STAT_PATH_B = 0 ∧ u.twin.rack = none)) ∧
      (c = 1 → (s.paired = false ∨ s.twst ≠ TW_FENCED) → Acts i s same) ∧
      (c = 1 → s.paired = true → s.twst = TW_FENCED → Acts i s (fun u => fr u ∧ u.twst = TW_STANDBY ∧ u.gcur F.TWIN_STAT_DRIVE = s.gcur F.TWIN_STAT_DRIVE ∧
        u.gcur F.TWIN_STAT_PATH_A = 0 ∧ u.gcur F.TWIN_STAT_PATH_B = 0))) ∧
    (s.scanning = false → (s.paired = false ∨ s.safe = true) → Acts (.twinLaneSync lane up) s (fun u => u = s.clear)) ∧
    (s.scanning = false → s.paired = true → s.safe = false →
      Acts (.twinLaneSync lane up) s (fun u => u = { s.clear with twin := { s.twin with laneUp := s.twin.laneUp.set lane up } }))

/-- What the twins stream (R229, R268, R269, R279, R281): a TIME frame goes out for a running channel of a streaming unit in the tick in which a second begins; a frame
that is received on a lane that is up is discarded and counted where it is bad; a good one counts as the lane's last LSEQ. A TIME frame gives a record of L15, registered
4,000 ticks later; the first one registered of a channel in a drill is checked (R278). A standby takes journal entries, the bytes of vintages and client entries, and a
serving unit answers RESYNC with a vintage in VINT frames and, where it is asked for, the client table; a channel that is not in RUN counts REQ_ABSENT (R328). -/
def Obligations.TwinsStreamTheirState : Prop :=
  ∀ (s : State) (c : ChanIx) (lane : Fin 2) (bs : Bytes) (ps : Nat) (j : JourFrame) (v : VintFrame), s.scanning = false →
    let Send := Instr.twinTimeFrameSend c ps
    let sends : Prop := s.streaming = true ∧ s.safe = false ∧ s.running c = true ∧ s.ch[c].secondHere ≠ none
    (¬ sends → Acts Send s (fun u => u = s.clear)) ∧
    (sends → s.twinLane c.val = none → Acts Send s (fun u => u = s.clear)) ∧
    (∀ l, sends → s.twinLane c.val = some l → Acts Send s (fun u => State.onlyIn [.twin, .out] s u ∧ u.regs = s.regs ∧
      let b := leBytes 1 5 ++ leBytes 1 c.val ++ leBytes 2 40 ++ leBytes 4 s.twin.lseqTx[l] ++ s.devidLe ++ s.ch[c].twinTime ps
      u.out = [.twin l.val (b ++ leBytes 4 (crc32 b))] ∧ u.twin = { s.twin with lseqTx := s.twin.lseqTx.set l ((s.twin.lseqTx[l] + 1) % 2 ^ 32) })) ∧
    let Time := Instr.twinTimeFrameRx lane bs ps
    let Cli := Instr.clientFrameRx lane bs
    let Re := Instr.resyncFrameRx lane bs
    let takes : Prop := s.laneTakes lane = true
    let x := s.clear.lseqRx lane (leAt bs 4 4)
    let n : ChanIx := Fin.ofNat 4 (leAt bs 1 1)
    (∀ r ∈ [(Time, 5), (Cli, 4), (Re, 6)],
      (¬ takes → Acts r.1 s (fun u => u = s.clear)) ∧
      (takes → ¬ twinSound bs → Acts r.1 s (fun u => u = s.clear.twinBad lane)) ∧
      (takes → twinSound bs → leAt bs 0 1 ≠ r.2 → Acts r.1 s (fun u => u = s.clear))) ∧
    let good (ty : Nat) : Prop := takes ∧ twinSound bs ∧ leAt bs 0 1 = ty
    let ch := s.ch[n]
    (good 5 → s.running n = false → Acts Time s (fun u => u = x.reqAbsent n)) ∧
    (good 5 → s.running n = true → (ch.lane 15).exist = true → Acts Time s (fun u => State.onlyIn [.twin, .ch, .out] s u ∧ u.twin = x.twin ∧
      s.changed u n (fun d => Channel.onlyIn [.ref, .dpll, .scale, .tprev, .free, .asks] ch d ∧
        let tdly := s.gcur F.TWIN_TDLY_TDLY
        let a := Channel.asymTerm tdly (signed 32 (s.gfld F.TWIN_TCAL_TCAL)) (s.gfld F.TWIN_TBUD_TBUD)
        ch.measures d 4000 (fun r => r.lane = 15 ∧ r.refTs = (ch.stampAt ps).1 ∧
          r.offset = signed 128 (leAt bs 16 16) + pointOfPs tdly - (ch.stampAt ps).1 + pointOfPs a.1 ∧ r.teb = satAdd (satAdd 8 (leAt bs 32 4)) a.2 ∧
          r.phaseOnly = false ∧ r.freqOnly = false ∧ r.mpd = some (tdly : Int))))) ∧
    (∀ k r i, s.twst = TW_DRILL → s.safe = false → s.twin.rack = some k → k.drill = true → k.failed = false → (k.done.map Prod.fst).Nodup →
      (c, i) ∈ k.done → c ∉ k.checked → State.firstL15 s.ch[c] i = some r → (∀ e ∈ k.done, e.1 ≠ c → e.1 ∈ k.checked ∨ State.firstL15 s.ch[e.1] e.2 = none) →
      let u := s.twinSettle
      if r.teb * 2 ^ 24 < r.offset.natAbs then u.twst = TW_STANDBY ∧ u.gcur F.TWIN_STAT_DRIVE = 0 ∧ u.gcur F.TWIN_EVT_DRILL_FAIL = 1 ∧ u.twin.rack = none
      else u.twst = TW_DRILL ∧ ∃ h, u.twin.rack = some h ∧ h.checked = c :: k.checked) ∧
    let missed (v : State) (m : ChanIx) : State := if s.running m then v else v.reqAbsent m
    let stands : Prop := s.twst = TW_STANDBY ∨ s.twst = TW_RACKING ∨ s.twst = TW_DRILL
    (good 4 → ¬ stands → Acts Cli s (fun u => u = x)) ∧
    (good 4 → stands → Acts Cli s (fun u => State.onlyIn [.twin, .ch, .image, .out] s u ∧ u.twin = x.twin ∧ (∀ m : ChanIx, m ≠ n → u.ch[m] = s.ch[m]) ∧
      u.regs.image = (missed s n).regs.image ∧
      let ix := leAt bs 16 4
      let tab := match Client.ofBytes ((slice bs 16 132).drop 4) with | some e => smIns ch.sealb.clients ix e | none => smDel ch.sealb.clients ix
      u.ch[n] = { ch with sealb := { ch.sealb with clients := tab } })) ∧
    let answers : Prop := s.streaming = true ∧ s.safe = false
    let w := leAt bs 16 1
    (good 6 → ¬ answers → Acts Re s (fun u => u = x)) ∧
    (good 6 → answers → s.running n = false → Acts Re s (fun u => u = x.reqAbsent n)) ∧
    (good 6 → answers → s.running n = true → Acts Re s (fun u => State.onlyIn [.tally, .twin, .ch, .free, .out] s u ∧
      State.keeps .twin [F.TWIN_CNT1_GAP, F.TWIN_CNT2_RESYNC] s u ∧ u.gcur F.TWIN_CNT2_RESYNC = (s.gcur F.TWIN_CNT2_RESYNC + 1) % 65536 ∧
      u.twin.nvRing = (s.twin.nvNext, s.vintageOf n) :: s.twin.nvRing.filter (fun e => e.1 != s.twin.nvNext) ∧ u.twin.nvNext = (s.twin.nvNext + 1) % 16 ∧
      u.ch[n] = ch.journal (.vint s.twin.nvNext ch.jour.jseq) ∧ (∀ m : ChanIx, m ≠ n → u.ch[m] = s.ch[m]) ∧ u.twin.vseq = (s.twin.vseq + 1) % 2 ^ 32 ∧
      (let all := (s.vintageOf n).bytes
       ∀ k, 2040 * k < all.length → ∃ l b, Output.twin l b ∈ u.out ∧ leAt b 0 1 = 2 ∧ leAt b 1 1 = n.val ∧ leAt b 16 4 = s.twin.vseq % 2 ^ 32 ∧
         leAt b 20 4 = 2040 * k % 2 ^ 32 ∧ slice b 32 (min 2040 (all.length - 2040 * k)) = (all.drop (2040 * k)).take 2040) ∧
      (w / 2 % 2 = 1 → ∀ e ∈ ch.sealb.clients, ∃ l b, Output.twin l b ∈ u.out ∧ leAt b 0 1 = 4 ∧ leAt b 1 1 = n.val ∧ leAt b 16 4 = e.1 % 2 ^ 32))) ∧
    let Jour := Instr.jourFrameRx lane j
    let jx := s.clear.lseqRx lane j.lseq
    let jok : Prop := j.good = true ∧ j.entries ≠ [] ∧ j.entries.length ≤ 16
    let add (r : RxChan) (e : JEntry) : RxChan :=
      let last := r.entries.head?.map (·.jseq)
      let old : Bool := match last with | some k => decide (e.jseq ≤ k) | none => false
      { r with
        vints := if old then r.vints.map (fun y => { y with gap := true }) else r.vints,
        entries := (e :: (if old then [] else r.entries)).take 131072,
        cont := if e.bad then some (e.jseq + 1) else match last with
          | some k => if e.jseq = k + 1 ∧ r.cont ≠ none then r.cont else some e.jseq
          | none => some e.jseq }
    let es := j.entries.zipIdx.map (fun e => { e.1 with idx := (j.idx + e.2) % 131072 })
    (¬ takes → Acts Jour s (fun u => u = s.clear) ∧ Acts (.vintFrameRx lane v) s (fun u => u = s.clear)) ∧
    (takes → ¬ jok → Acts Jour s (fun u => u = s.clear.twinBad lane)) ∧
    (takes → jok → ¬ stands → Acts Jour s (fun u => u = jx)) ∧
    (takes → jok → stands → Acts Jour s (fun u => State.onlyIn [.twin, .image, .out] s u ∧ u.twin = { jx.twin with rx := jx.twin.rx.set j.ch (es.foldl add jx.twin.rx[j.ch]) } ∧
      u.regs.image = (missed s j.ch).regs.image ∧
      ∀ e, j.entries.getLast? = some e → u.get64 .twin (TWIN_RX_JSEQ j.ch.val 0) = e.jseq % 2 ^ 64)) ∧
    let Vint := Instr.vintFrameRx lane v
    let vx := s.clear.lseqRx lane v.lseq
    let r := vx.twin.rx[v.ch]
    let vy := missed vx v.ch
    let puts (m : RxChan) : Prop := Acts Vint s (fun u => u = { vy with twin := { vy.twin with rx := vy.twin.rx.set v.ch m } } ∧ State.onlyIn [.twin, .image, .out] s u)
    let vok : Prop := v.good = true ∧ 8 ≤ v.part.length ∧ v.part.length ≤ 2040
    let follows : Prop := v.ofs = 0 ∨ r.begun = some (v.vseq, v.ofs)
    let upto := v.ofs + v.part.length
    let held := State.slotWrite r.slots[r.next] v.ofs v.part
    let base : RxChan := { r with slots := r.slots.set r.next held, vints := r.vints.filter (fun y => y.slot != r.next), begun := none }
    (takes → ¬ vok → Acts Vint s (fun u => u = s.clear.twinBad lane)) ∧
    (takes → vok → ¬ stands → Acts Vint s (fun u => u = vx)) ∧
    (takes → vok → stands → v.whole = none → follows → puts { base with begun := some (v.vseq, upto) }) ∧
    (takes → vok → stands → (v.whole = none ∨ ∃ y, v.whole = some y ∧ held.take upto ≠ y.bytes) → ¬ (v.whole = none ∧ follows) → puts base) ∧
    (takes → vok → stands → v.whole ≠ none → ¬ follows → puts base) ∧
    (∀ y, takes → vok → stands → v.whole = some y → follows → held.take upto = y.bytes →
      puts { base with vints := ⟨r.next, y, false⟩ :: base.vints, next := r.next + 1, cont := some (r.cont.getD (y.jseq + 1)) })

/-- Racking and its drill (R272, R273, R275, R278): a channel of the racking that runs takes EXACT, WARM or COLD as its result: EXACT replays the vintage that makes the channel
READY, adds the offset of the units' clocks and widens the bound, and a replay that differs from the journal is result 4. When all are done and their synthesizers locked,
disabled or 10 ms in acquisition, a racking unit claims at once, a drill at its instant. A drill is asked for by a command on an ACTIVE unit with a standby peer; the standby that is READY
accepts it and racks, another refuses; three seconds without an end are TIMEOUT. -/
def Obligations.RackingAndItsDrill : Prop :=
  (∀ (s : State) (c : ChanIx), s.scanning = false →
    let ch := s.ch[c]
    let may (k : RackSt) : Prop := s.twin.rack = some k ∧ c ∈ k.chans ∧ c ∉ k.done.map Prod.fst ∧ s.running c = true ∧ s.safe = false
    let Rack := Instr.rackChannelComplete c
    let exact : Prop := s.readyVint c ≠ none ∧ s.gflag F.TWIN_STAT_MOSC_DIFF = false
    let big (u : State) : Prop := State.onlyIn [.hostif, .cmdq, .fault, .vault, .book, .tally, .twin, .bench, .pwr, .image, .ch, .free, .out] s u
    let nib (u : State) (n : Nat) : Nat := u.gcur F.TWIN_RACK_STAT_RES / 16 ^ n % 16
    let res (r : Nat) (u : State) : Prop := big u ∧ nib u c.val = r ∧ ∀ n, n < 4 → n ≠ c.val → nib u n = nib s n
    let goes (k : RackSt) (r : Nat) (u : State) : Prop :=
      if s.twst = TW_DRILL ∧ r ≠ 1 then u.twst = TW_STANDBY ∧ u.gcur F.TWIN_STAT_DRIVE = 0 ∧ u.gcur F.TWIN_EVT_DRILL_FAIL = 1 ∧ u.twin.rack = none
      else u.twst = s.twst ∧ u.twin.rack = some { k with done := (c, u.ch[c].jour.jseq) :: k.done } ∧ ∀ m : ChanIx, m ≠ c → u.ch[m] = s.ch[m]
    let now (u : State) (d : Channel) : Prop := u.ch[c] = State.recount (Channel.settle ch { d with drive := ch.drive, safe := ch.safe })
    ((∀ k, ¬ may k) → Acts Rack s (fun u => u = s.clear)) ∧
    ∀ k, may k →
      (∀ v, exact → s.readyVint c = some v →
        let o := if s.twin.offs = [] then 0 else Int.fdiv s.twin.offs.sum s.twin.offs.length
        let dt := Int.fdiv o 5000
        let x := ({ v.snap with effs := ch.effs }).replay s.twin.rx[c].entries.reverse ((s.tick : Int) + dt - s.twin.choff[c]).toNat
        let gain := Channel.rackGain (s.gcur F.TWIN_TDLY_TDLY) (s.gfld F.TWIN_TBUD_TBUD)
        let moved (d : Channel) : Prop := d.dpll.ctr = x.2.dpll.ctr + pointOfPs (o - 5000 * dt) * 2 ^ 32 ∧ d.jour = x.2.jour ∧ d.scale = x.2.scale ∧
          (if x.2.dpll.hoAct then d.dpll.tebH = satAdd x.2.dpll.tebH gain else d.dpll.teb0 = satAdd x.2.dpll.teb0 gain) ∧ d.ix = ch.ix ∧ d.topo = ch.topo
        (x.1 = true → Acts Rack s (fun u => res 1 u ∧ goes k 1 u ∧ ∃ d, moved d ∧ now u d)) ∧
        (x.1 = false → Acts Rack s (res 4))) ∧
      (∀ v, ¬ exact → s.nvVintage c = some v → Acts Rack s (fun u => res 2 u ∧ goes k 2 u ∧ (s.twst ≠ TW_DRILL → now u (ch.rackWarm v.snap)))) ∧
      (¬ exact → s.nvVintage c = none → Acts Rack s (fun u => res 3 u ∧ goes k 3 u ∧ (s.twst ≠ TW_DRILL → now u ch)))) ∧
  (∀ s : State, s.scanning = false →
    let settled (n : ChanIx) : Prop := s.running n = true ∧ ∀ y, y < 2 → (s.ch[n].synSt y = SYN_OFF ∧ s.ch[n].cur (F.SYN_SYN_CFG_EN y) = 0) ∨ s.ch[n].synSt y = SYN_LOCKED ∨
      (s.ch[n].synSt y = SYN_ACQ ∧ (s.ch[n].synK y).acqTick + 2000000 ≤ s.ch[n].jour.tick)
    let ready (k : RackSt) : Prop := s.twin.rack = some k ∧ s.safe = false ∧ k.claim = false ∧ ∀ n ∈ k.chans, n ∈ k.done.map Prod.fst ∧ settled n
    let claims (k : RackSt) (i : Instr) : Prop := Acts i s (fun u => u = { s.clear with twin := { s.twin with rack := some { k with claim := true } } })
    let passed (k : RackSt) : Prop := (∃ t m, k.passAt = some t ∧ State.lowestOf k.chans = some m ∧ s.ch[m].reached t = true) ∨ (k.passAt = none ∧ k.chans = [])
    (∀ k, ready k → s.twst = TW_RACKING → claims k .claimConditionMet) ∧
    ((∀ k, ready k → s.twst ≠ TW_RACKING) → Acts .claimConditionMet s (fun u => u = s.clear)) ∧
    (∀ k, ready k → s.twst = TW_DRILL → passed k → claims k .drillClaimInstant) ∧
    ((∀ k, ready k → s.twst = TW_DRILL → ¬ passed k) → Acts .drillClaimInstant s (fun u => u = s.clear))) ∧
  ∀ (s : State) (lane : Fin 2) (bs : Bytes) (slot : Fin 64), s.scanning = false →
    let x := s.clear.lseqRx lane (leAt bs 4 4)
    let Rx := Instr.drillFrameRx lane bs
    let good : Prop := s.laneTakes lane = true ∧ twinSound bs ∧ leAt bs 0 1 = 7
    let op := leAt bs 16 1
    let told (u : State) (o : Nat) : Prop := ∃ l b, Output.twin l b ∈ u.out ∧ leAt b 0 1 = 7 ∧ leAt b 16 1 = o
    let able : Prop := x.feedsOk = true ∧ ∀ n : ChanIx, s.gcur F.TWIN_STAT_PEER_RUN / 2 ^ n.val % 2 = 1 → x.ready n = true
    let small (u : State) : Prop := State.onlyIn [.hostif, .cmdq, .tally, .twin, .out] s u
    (s.laneTakes lane = false → Acts Rx s (fun u => u = s.clear)) ∧
    (s.laneTakes lane = true → ¬ twinSound bs → Acts Rx s (fun u => u = s.clear.twinBad lane)) ∧
    (s.laneTakes lane = true → twinSound bs → leAt bs 0 1 ≠ 7 → Acts Rx s (fun u => u = s.clear)) ∧
    (good → s.safe = true → Acts Rx s (fun u => u = x)) ∧
    (good → s.safe = false → op = 1 → s.twst = TW_STANDBY → able → Acts Rx s (fun u => u.twst = TW_DRILL ∧ told u 2 ∧
      u.gcur F.TWIN_EPOCH_EPOCH = min 0xFFFFFF (max (s.gcur F.TWIN_EPOCH_EPOCH) s.twin.eSeen + 1) ∧
      (∃ k, u.twin.rack = some k ∧ k.t0 = s.tick ∧ k.drill = true ∧ k.done = [] ∧ k.claim = false) ∧
      State.onlyIn [.hostif, .cmdq, .vault, .book, .tally, .twin, .bench, .clkgen, .pwr, .image, .ch, .free, .out] s u)) ∧
    (good → s.safe = false → op = 1 → s.twst = TW_STANDBY → ¬ able → Acts Rx s (fun u => told u 3 ∧ State.onlyIn [.twin, .out] s u ∧ u.regs = x.regs)) ∧
    (good → s.safe = false → ((op = 1 ∧ s.twst ≠ TW_STANDBY) ∨ (op ≠ 1 ∧ op ≠ 3)) → Acts Rx s (fun u => u = x)) ∧
    (∀ d, good → s.safe = false → op = 3 → s.twin.drill = some d → d.sent = true → s.cmd? d.slot ≠ none → Acts Rx s (fun u => small u ∧ u.twin.drill = none ∧ s.ended u d.slot RES_OP_ERROR 0)) ∧
    (good → s.safe = false → op = 3 → (∀ d, s.twin.drill = some d → d.sent = false) → Acts Rx s (fun u => u = x)) ∧
    let Cmd := Instr.cmdRackingDrill slot
    let ok : Prop := s.paired = true ∧ s.twst = TW_ACTIVE ∧ s.gflag F.TWIN_STAT_PEER_LOST = false ∧ s.gcur F.TWIN_STAT_PEER_STATE = TW_STANDBY ∧
      (s.gcur F.TWIN_STAT_PATH_A ≠ 0 ∨ s.gcur F.TWIN_STAT_PATH_B ≠ 0)
    ((∀ c, s.running? slot.val 5 = some c → c.begun = true) → Acts Cmd s (fun u => u = s.clear)) ∧
    (∀ c, s.running? slot.val 5 = some c → c.begun = false → ¬ ok → Acts Cmd s (fun u => small u ∧ s.ended u slot.val RES_STATE 0 ∧ u.twin = s.twin)) ∧
    (∀ c, s.running? slot.val 5 = some c → c.begun = false → ok → Acts Cmd s (fun u => State.onlyIn [.cmdq, .twin, .out] s u ∧ u.regs = s.regs ∧
      u.twin = { s.twin with drill := some ⟨slot.val, signed 128 (leAt c.param 0 16), none, false⟩ } ∧ u.cmd? slot.val = some { c with begun := true })) ∧
    let asks (d : DrillOp) : Prop := s.twin.drill = some d ∧ d.sent = false ∧ d.reached ≠ none ∧ s.cmdState d.slot = CS_RUNNING ∧ s.safe = false
    ((∀ d, ¬ asks d) → Acts .drillRequestSend s (fun u => u = s.clear)) ∧
    (∀ d, asks d → Acts .drillRequestSend s (fun u => State.onlyIn [.twin, .out] s u ∧ u.regs = s.regs ∧ u.twin.drill = some { d with sent := true } ∧
      ((∃ l : Fin 2, s.twin.laneUp[l] = true) → told u 1))) ∧
    let late (d : DrillOp) : Prop := s.twin.drill = some d ∧ (∃ t, d.reached = some t ∧ t + 3 * SEC_TICKS ≤ s.tick) ∧ (d.sent = true ∨ s.cmdState d.slot = CS_RUNNING)
    ((∀ d, ¬ late d) → Acts .drillTimeout s (fun u => u = s.clear)) ∧
    (∀ d, late d → s.cmd? d.slot ≠ none → Acts .drillTimeout s (fun u => small u ∧ u.twin.drill = none ∧ s.ended u d.slot RES_TIMEOUT 0))

/-! ### The bench -/

/-- The bench (R285 to R300, R305): 64 sync headers bring an enabled link to SYNC, a HELLO of a neighbour to MEASURE, the 64th exchange to UP with LDLY, four
steps of the round trip back to MEASURE, and 4 ms without a HELLO or the loss of sync DOWN; HELLOs leave every 1 ms. TIME frames go out on UP links at multiples of 62.5 ms; one received fills
a peer slot of its lane with the path's delay added, and the router forwards it, its residence added, on the other links where the reverse path is its route. A slot is freed after
125 ms. At those multiples the ensemble lane measures what its peers agree on, or a free value with TEB saturated, registered 1 ms later. LSAs are sent when the UP links change and
every 100 ms, held and flooded by their SEQ, and expire; the computation of 10 ms gives addresses and routes. A calibration of 1,024 exchanges measures between two UP links. -/
def Obligations.BenchLinksTimeAndRoutes : Prop :=
  (∀ (s : State) (c : ChanIx) (y : Fin 2) (bs : Bytes) (ps ps0 ps1 : Nat) (lost : Bool) (i : Fin 32) (residence : List Nat), s.live c →
    let ch := s.ch[c]
    let x := y.val
    let link := ch.cur (F.CHCTL_B_STAT_LINK x)
    let fr (d : Channel) : Prop := Channel.onlyIn [.bench, .asks] ch d ∧ d.ends[1 - y] = ch.ends[1 - y]
    let restarts (st : Nat) : Nat := (ch.cur (F.CHCTL_B_STAT_RESTARTS x) + b2n (link == BL_UP && (st == BL_DOWN || st == BL_MEASURE))) % 65536
    let goes (st : Nat) (e : BEnd) (d : Channel) : Prop := fr d ∧ d.cur (F.CHCTL_B_STAT_LINK x) = st ∧ d.cur (F.CHCTL_B_STAT_RESTARTS x) = restarts st ∧ d.ends[y] = e
    let e := ch.ends[y]
    (∀ r ∈ [Instr.benchLinkSync c y, .benchHelloSend c y ps], s.safe = true → Acts r s (fun u => u = s.clear)) ∧
    (s.safe = false → (link ≠ BL_DOWN ∨ ch.flag (F.CHCTL_B_CFG_EN x) = false) → ActsOn (.benchLinkSync c y) s c (fun d => d = ch)) ∧
    (s.safe = false → link = BL_DOWN → ch.flag (F.CHCTL_B_CFG_EN x) = true → ActsOn (.benchLinkSync c y) s c (goes BL_SYNC ⟨ch.jour.tick, 0, [], 0, false, none, [], none⟩)) ∧
    let stamp := linkStamp s.tick ps
    let helloDue : Prop := ∀ t, e.helloAt = some t → t < ch.jour.tick ∧ (ch.jour.tick - t) % 200000 = 0
    (s.safe = false → (link = BL_DOWN ∨ ¬ helloDue) → ActsOn (.benchHelloSend c y ps) s c (fun d => d = ch)) ∧
    (s.safe = false → link ≠ BL_DOWN → helloDue → ActsOn (.benchHelloSend c y ps) s c (fun d => Channel.onlyIn [.bench, .asks] ch d ∧ d.regs = ch.regs ∧
      d.ends = ch.ends.set y { e with sent := (stamp :: e.sent).take 64, helloAt := some ch.jour.tick } ∧ ∃ b, Eff.bench y b ∈ d.effs ∧ benchGood b = true ∧ leAt b 0 1 = BT_HELLO ∧
      leAt b 16 1 = ch.linkIx y ∧ leAt b 24 8 = stamp ∧ leAt b 32 8 = (e.echo.getD (0, 0)).1 % 2 ^ 64 ∧ leAt b 40 8 = (e.echo.getD (0, 0)).2 % 2 ^ 64)) ∧
    let Rx := Instr.benchHelloRx c y bs ps
    let hello : Prop := benchGood bs = true ∧ leAt bs 0 1 = BT_HELLO
    let did := leAt bs 8 8
    let known : Prop := did = ch.cur (F.CHCTL_B_NBR_LO_ID_LO x) + 2 ^ 32 * ch.cur (F.CHCTL_B_NBR_HI_ID_HI x) ∧ leAt bs 16 1 = ch.cur (F.CHCTL_B_STAT_NBR_LINK x)
    let h : BEnd := { e with heard := ch.jour.tick, echo := some (leAt bs 24 8, stamp) }
    let r := stampDiff stamp (leAt bs 32 8) - stampDiff (leAt bs 24 8) (leAt bs 40 8)
    let rs := (r :: e.rs).take 64
    let ldly (d : Channel) : Prop := if rs.length < 64 then d.cur (F.CHCTL_B_LDLY_LDLY x) = ch.cur (F.CHCTL_B_LDLY_LDLY x)
      else d.cur (F.CHCTL_B_LDLY_LDLY x) = (Int.fdiv rs.sum 128).toNat % 2 ^ 32
    let lim := ch.fld (F.CHCTL_B_LSTEP_LSTEP x)
    let dr := r - 2 * ch.cur (F.CHCTL_B_LDLY_LDLY x)
    let cand : Prop := lim ≠ 0 ∧ 2 * lim < dr.natAbs
    let exchanged : Prop := hello ∧ known ∧ leAt bs 32 8 ∈ e.sent
    (link = BL_DOWN → ActsOn Rx s c (fun d => d = ch)) ∧
    (link ≠ BL_DOWN → ¬ hello → ActsOn Rx s c (fun d => Channel.onlyIn [.bench] ch d ∧ d.ends = ch.ends ∧ Channel.keeps .chctl [F.CHCTL_B_CNT_DROP x] ch d ∧
      d.cur (F.CHCTL_B_CNT_DROP x) = (ch.cur (F.CHCTL_B_CNT_DROP x) + 1) % 65536)) ∧
    (link ≠ BL_DOWN → hello → (link = BL_SYNC ∨ ¬ known) → ActsOn Rx s c (fun d => goes BL_MEASURE { h with count := 0, rs := [], cand := 0 } d ∧
      d.cur (F.CHCTL_B_NBR_LO_ID_LO x) = did % 2 ^ 32 ∧ d.cur (F.CHCTL_B_NBR_HI_ID_HI x) = did / 2 ^ 32 ∧ d.cur (F.CHCTL_B_STAT_NBR_LINK x) = leAt bs 16 1 % 8)) ∧
    ((link = BL_MEASURE ∨ link = BL_UP) → hello → known → leAt bs 32 8 ∉ e.sent → ActsOn Rx s c (fun d => d = ch.setBend y h)) ∧
    (link = BL_MEASURE → exchanged → ActsOn Rx s c (fun d => goes (if e.count + 1 = 64 then BL_UP else BL_MEASURE) { h with rs := rs, count := e.count + 1 } d ∧ ldly d)) ∧
    (link = BL_UP → exchanged → ¬ cand → ActsOn Rx s c (fun d => goes BL_UP { h with rs := rs, cand := 0, candPos := decide (0 < dr) } d ∧ ldly d)) ∧
    (link = BL_UP → exchanged → cand →
      let n := if 0 < e.cand ∧ e.candPos = decide (0 < dr) then e.cand + 1 else 1
      (n < 4 → ActsOn Rx s c (fun d => goes BL_UP { h with rs := rs, cand := n, candPos := decide (0 < dr) } d ∧ ldly d)) ∧
      (4 ≤ n → ActsOn Rx s c (fun d => goes BL_MEASURE { h with rs := [], count := 0, cand := 0 } d ∧ d.cur (F.CHCTL_B_STAT_LSTEP x) = 1))) ∧
    let out : Prop := lost = true ∨ e.heard + 800000 ≤ ch.jour.tick
    ((¬ out ∨ link = BL_DOWN) → ActsOn (.benchHelloTimeout c y lost) s c (fun d => d = ch)) ∧
    (out → link ≠ BL_DOWN → ActsOn (.benchHelloTimeout c y lost) s c (goes BL_DOWN ⟨0, 0, [], 0, false, none, [], none⟩)) ∧
    let Send := Instr.benchTimeSend c ps0 ps1
    ((s.gflag F.BENCH_STAT_FULL = true ∨ s.safe = true) → Acts Send s (fun u => u = s.clear)) ∧
    (s.gflag F.BENCH_STAT_FULL = false → s.safe = false → ActsOn Send s c (fun d => Channel.onlyIn [.asks] ch d ∧
      (ch.multipleHere 16 = none → d = ch) ∧
      (ch.multipleHere 16 ≠ none → ∀ k : Fin 2, ch.cur (F.CHCTL_B_STAT_LINK k.val) = BL_UP → ch.flag (F.CHCTL_B_CFG_TTX k.val) = true →
        ∃ b, Eff.bench k b ∈ d.effs ∧ benchGood b = true ∧ leAt b 0 1 = BT_TIME ∧ leAt b 1 1 = ch.fld F.CHCTL_ENS_CFG_HOPS ∧ leAt b 5 1 = ch.ix.val ∧
          leAt b 16 16 = unsigned 128 (ch.stampAt (if k = 0 then ps0 else ps1)).1 ∧ leAt b 64 8 = 0))) ∧
    let Time := Instr.benchTimeRx c y bs ps residence
    let own : Prop := leAt bs 8 8 = s.fuse.devid ∧ leAt bs 5 1 = ch.ix.val
    let time : Prop := benchGood bs = true ∧ leAt bs 0 1 = BT_TIME ∧ ¬ own
    let dly := ch.cur (F.CHCTL_B_LDLY_LDLY x)
    let a := Channel.asymTerm dly (ch.sfld (F.CHCTL_B_LASYM_LASYM x)) (ch.fld (F.CHCTL_B_LBUD_LBUD x))
    let corr := signed 64 (leAt bs 64 8) + dly + a.1
    let bnd := satAdd (leAt bs 72 4) a.2
    let l := ch.ens[y]
    let st := ch.stampAt ps
    let slot (z : PeerSlot) : Prop := z.devid = did ∧ z.ch = leAt bs 5 1 ∧ z.tick = ch.jour.tick ∧ z.refTs = st.1 ∧ z.k = st.2 ∧ 
      z.offset = signed 128 (leAt bs 16 16) + pointOfPs (signed 64 (unsigned 64 corr)) - st.1 ∧ z.teb = satAdd (satAdd 8 (leAt bs 32 4)) (bnd % 2 ^ 32) ∧ z.fb = leAt bs 36 4
    let upLinks := s.upLinks.filter (fun k => k != 2 * c.val + x)
    let rt (p : State → Prop) : Prop := Acts Time s (fun u => State.onlyIn [.bench, .ch, .out] s u ∧ s.changed u c (fun d =>
      Channel.onlyIn [.bench, .ens, .asks] ch d ∧ d.ends = ch.ends ∧
      (Channel.findSlot l did (leAt bs 5 1) = none → d.ens = ch.ens ∧ d.cur (F.CHCTL_ENS_STAT_NOSLOT x) = 1) ∧
      ∀ j, Channel.findSlot l did (leAt bs 5 1) = some j → (∃ z, slot z ∧ d.ens = ch.ens.set y { l with slots := l.slots.set j (some z) }) ∧
        d.cur (F.CHCTL_B_CNT_TIME_RX x) = (ch.cur (F.CHCTL_B_CNT_TIME_RX x) + 1) % 65536) ∧ p u)
    let idle : Prop := s.routerOn = false ∨ s.safe = true ∨ s.gflag F.BENCH_STAT_FULL = true ∨ leAt bs 8 8 = s.fuse.devid
    let rpf : Prop := leAt bs 6 1 % 2 = 1 ∧ s.router.routes.any (fun r => r.addr == leAt bs 4 1 && r.link == 2 * c.val + x) = true
    (link ≠ BL_UP → ActsOn Time s c (fun d => d = ch)) ∧
    (link = BL_UP → ¬ time → ActsOn Time s c (fun d => Channel.onlyIn [.bench] ch d ∧ d.ends = ch.ends ∧ Channel.keeps .chctl [F.CHCTL_B_CNT_DROP x] ch d ∧
      d.cur (F.CHCTL_B_CNT_DROP x) = (ch.cur (F.CHCTL_B_CNT_DROP x) + 1) % 65536)) ∧
    (link = BL_UP → time → idle → rt (fun u => u.router = s.router ∧ u.regs = s.regs ∧ u.out = [])) ∧
    (link = BL_UP → time → ¬ idle → ¬ rpf → rt (fun u => u.router = s.router ∧ State.keeps .bench [F.BENCH_CNT0_RPF_DROP] s u ∧ u.out = [] ∧
      u.gcur F.BENCH_CNT0_RPF_DROP = (s.gcur F.BENCH_CNT0_RPF_DROP + 1) % 65536)) ∧
    (link = BL_UP → time → ¬ idle → rpf → leAt bs 1 1 < 2 → rt (fun u => u.router = s.router ∧ u.regs = s.regs ∧ u.out = [])) ∧
    (link = BL_UP → time → ¬ idle → rpf → 2 ≤ leAt bs 1 1 → rt (fun u => u.regs = s.regs ∧ u.out = [] ∧
      if upLinks = [] then u.router = s.router
      else ∃ b, leAt b 64 8 = unsigned 64 corr ∧ leAt b 72 4 = bnd % 2 ^ 32 ∧ slice b 0 64 = slice bs 0 64 ∧ u.router = { s.router with
        flight := s.router.flight ++ [⟨2 * c.val + x, b, upLinks.map (fun k => (k, s.tick + (ps + residence.getD k 0) / 5000, residence.getD k 0))⟩] })) ∧
    (∀ z, l.slots[i] = some z → z.tick + 25000000 ≤ ch.jour.tick → ActsOn (.peerSlotExpiry c y i) s c (fun d => Channel.onlyIn [.bench, .ens] ch d ∧ d.ends = ch.ends ∧
      d.ens = ch.ens.set y { l with slots := l.slots.set i none } ∧ Channel.keeps .chctl [F.CHCTL_ENS_STAT_PEERS x] ch d)) ∧
    ((∀ z, l.slots[i] = some z → ch.jour.tick < z.tick + 25000000) → ActsOn (.peerSlotExpiry c y i) s c (fun d => d = ch)) ∧
    let Ens := Instr.ensembleEvaluation c y
    let n := Channel.benchLaneIx y
    let on : Prop := (ch.lane n).exist = true ∧ ch.laneEnabled n = true
    ((¬ on ∨ ch.multipleHere 16 = none) → ActsOn Ens s c (fun d => d = ch)) ∧
    ∀ t, on → ch.multipleHere 16 = some t →
      let ms := (List.finRange 32).filterMap (fun j => match l.slots[j] with
        | some z => if t - 2 ^ 61 < z.refTs ∧ z.refTs ≤ t then some (z, ch.termCal n ⟨z.offset - sar (ch.kAt t - z.k) 32, grow z.teb z.fb (t - z.refTs)⟩) else none
        | none => none)
      let sol := Channel.ensSolve (max 1 (ch.fld F.CHCTL_ENS_CFG_MIN_PEERS)) (ch.fld F.CHCTL_ENS_CFG_TOL + 1) ms 0
      let evs (p : MeasRec → Prop) (d : Channel) : Prop := Channel.onlyIn [.ref, .dpll, .scale, .jour, .bench, .ens, .free, .asks] ch d ∧ d.ends = ch.ends ∧
        (d.ens[y]).slots = l.slots ∧ d.ens[1 - y] = ch.ens[1 - y] ∧ d.cur (F.CHCTL_ENS_STAT_EXCL x) = sol.2 % 64 ∧
        ch.measures d 200000 (fun r => r.lane = n ∧ r.refTs = t ∧ r.phaseOnly = false ∧ r.freqOnly = false ∧ p r)
      (∀ q, sol.1 = some q → ActsOn Ens s c (fun d => evs (fun r => r.offset = (ch.unCal n ⟨q.1, q.2.1⟩).t ∧ r.teb = (ch.unCal n ⟨q.1, q.2.1⟩).h) d ∧ d.cur (F.CHCTL_ENS_STAT_USED x) = q.2.2.length % 64)) ∧
      (sol.1 = none → ActsOn Ens s c (fun d => evs (fun r => r.teb = SAT) d ∧ d.cur (F.CHCTL_ENS_STAT_USED x) = 0 ∧ d.cur (F.CHCTL_ENS_STAT_EMPTY x) = 1))) ∧
  ∀ (s : State) (c : ChanIx) (y : Fin 2) (bs : Bytes) (devid : Nat) (ab ba : List Nat) (h : HostPath) (v : Word), s.scanning = false →
    let sends (t u : State) : Prop := State.onlyIn [.bench, .out] s u ∧ u.gcur F.BENCH_LSA_SEQ_SEQ = (t.gcur F.BENCH_LSA_SEQ_SEQ + 1) % 2 ^ 32 ∧ 
      u.router = { s.router with links := s.upLinks.map s.lsaEnt, lsaAt := some s.tick, due := s.router.due || s.router.links != s.upLinks.map s.lsaEnt } ∧
      ∀ k ∈ s.upLinks, ∃ b, Output.bench k b ∈ u.out ∧ leAt b 0 1 = BT_LSA ∧ leAt b 16 4 = u.gcur F.BENCH_LSA_SEQ_SEQ ∧ leAt b 20 1 = s.runBits ∧ leAt b 21 1 = s.upLinks.length
    let able : Prop := s.routerOn = true ∧ s.safe = false
    let lsaDue : Prop := s.upLinks ≠ s.router.links.map (·.link) ∨ ∀ t, s.router.lsaAt = some t → t + 20000000 ≤ s.tick
    (¬ (able ∧ lsaDue) → Acts .lsaSend s (fun u => u = s.clear)) ∧
    (able → lsaDue → Acts .lsaSend s (sends s)) ∧
    (∀ t o, t ∈ s.router.flight → o ∈ t.outs → o.2.1 ≤ s.tick → 80 ≤ t.bytes.length → s.safe = false → s.linkIsUp o.1 = true →
      ∃ b, Output.bench o.1 b ∈ s.forwardTick.out ∧ leAt b 1 1 = (leAt t.bytes 1 1 - 1) % 256 ∧ leAt b 64 8 = unsigned 64 (signed 64 (leAt t.bytes 64 8) + (o.2.2 : Nat)) ∧
        leAt b 72 4 = satAdd (leAt t.bytes 72 4) (satAdd (satCap (tebOfPs (ceilDiv o.2.2 65536))) 1) ∧ slice b 2 62 = slice t.bytes 2 62) ∧
    (∀ t ∈ s.forwardTick.router.flight, ∀ o ∈ t.outs, s.tick < o.2.1) ∧
    let Rx := Instr.lsaRx c y bs
    let a := State.parseLsa bs s.tick
    let here : Prop := s.running c = true ∧ s.ch[c].bstat y ≠ BL_DOWN
    let good : Prop := benchGood bs = true ∧ leAt bs 0 1 = BT_LSA ∧ leAt bs 2 2 = 8 + 16 * leAt bs 21 1
    let old (u : State) : Prop := State.onlyIn [.bench, .out] s u ∧ u.router = s.router ∧ State.keeps .bench [F.BENCH_CNT1_LSA_OLD] s u ∧
      u.gcur F.BENCH_CNT1_LSA_OLD = (s.gcur F.BENCH_CNT1_LSA_OLD + 1) % 65536
    let held := s.router.lsas.find? (fun e => e.devid == a.devid)
    let floods (fresh : Bool) (u : State) : Prop := State.onlyIn [.hostif, .bench, .out] s u ∧ u.router = { s.router with
        lsas := a :: s.router.lsas.filter (fun e => e.devid != a.devid), due := true, changed := if fresh then a.devid :: s.router.changed else s.router.changed } ∧
      (fresh = true → u.gcur F.BENCH_EVT_TOPO = 1) ∧ ∀ k ∈ s.upLinks, k ≠ 2 * c.val + y.val → Output.bench k bs ∈ u.out
    (¬ here → Acts Rx s (fun u => u = s.clear)) ∧
    (here → ¬ good → ActsOn Rx s c (fun d => Channel.onlyIn [.bench] s.ch[c] d ∧ d.cur (F.CHCTL_B_CNT_DROP y.val) = (s.ch[c].cur (F.CHCTL_B_CNT_DROP y.val) + 1) % 65536)) ∧
    (here → good → s.routerOn = false → Acts Rx s (fun u => u = s.clear)) ∧
    (here → good → s.routerOn = true →
      (a.devid = s.fuse.devid → a.seq < s.gcur F.BENCH_LSA_SEQ_SEQ → Acts Rx s old) ∧
      (a.devid = s.fuse.devid → s.gcur F.BENCH_LSA_SEQ_SEQ ≤ a.seq → s.safe = false → Acts Rx s (sends (s.gput F.BENCH_LSA_SEQ_SEQ a.seq))) ∧
      (a.devid ≠ s.fuse.devid → held = none → Acts Rx s (floods true)) ∧
      (∀ e, a.devid ≠ s.fuse.devid → held = some e → e.seq < a.seq → Acts Rx s (floods false)) ∧
      (∀ e, a.devid ≠ s.fuse.devid → held = some e → a.seq ≤ e.seq → Acts Rx s old)) ∧
    let stale (e : Lsa) : Bool := e.devid == devid && decide (e.at' + s.gfld F.BENCH_CFG_HOLD * SEC_TICKS ≤ s.tick)
    (s.router.lsas.any stale = false → Acts (.lsaHoldExpiry devid) s (fun u => u = s.clear)) ∧
    (s.router.lsas.any stale = true → Acts (.lsaHoldExpiry devid) s (fun u => State.onlyIn [.hostif, .bench, .out] s u ∧ u.gcur F.BENCH_EVT_TOPO = 1 ∧
      u.router = { s.router with lsas := s.router.lsas.filter (fun e => !stale e), due := true, changed := devid :: s.router.changed })) ∧
    let due : Prop := s.routerOn = true ∧ s.router.due = true ∧ s.tick % 2000000 = 0
    let devs := s.fuse.devid :: s.router.lsas.map (·.devid)
    let addrs := assign devs
    let mine := (addrs.find? (fun e => e.1 == s.fuse.devid)).map Prod.snd
    (¬ due → Acts .routeComputation s (fun u => u = s.clear)) ∧
    (due → Acts .routeComputation s (fun u => State.onlyIn [.hostif, .book, .tally, .bench, .free, .out] s u ∧
      u.router = { s.router with changed := [], due := false, addrs := addrs, routes := s.findRoutes addrs } ∧
      u.gcur F.BENCH_STAT_DEVS = devs.length % 512 ∧ u.gcur F.BENCH_STAT_ADDR_VALID = b2n mine.isSome ∧ u.gcur F.BENCH_STAT_ADDR = mine.getD 0 % 256 ∧
      u.gcur F.BENCH_STAT_FULL = b2n mine.isNone ∧
      (s.findRoutes addrs ≠ s.router.routes → u.gcur F.BENCH_EVT_ROUTE = 1) ∧
      ∀ k, k < 256 → (∀ r, (s.findRoutes addrs).find? (fun r => r.addr == k) = some r → u.gword .bench (BENCH_ROUTE k) = State.routeWord r) ∧
        ((s.findRoutes addrs).find? (fun r => r.addr == k) = none → u.gword .bench (BENCH_ROUTE k) = 0#32))) ∧
    let lk (n : Nat) : Prop := s.linkIsUp n = true
    let la := getField v 0 3
    let lb := getField v 4 3
    let cfr (u : State) : Prop := State.onlyIn [.hostif, .bench, .out] s u ∧ u.router = s.router ∧ u.gcur F.BENCH_CAL_CTL_LINK_A = la ∧ u.gcur F.BENCH_CAL_CTL_LINK_B = lb
    let busy := s.gflag F.BENCH_CAL_CTL_BUSY
    (s.open h →
      ((bit v 31 = false ∨ busy = true) → Acts (.benchCalGo h v) s (fun u => cfr u ∧ u.gflag F.BENCH_CAL_CTL_BUSY = busy)) ∧
      (bit v 31 = true → busy = false → lk la → lk lb → la ≠ lb → Acts (.benchCalGo h v) s (fun u => cfr u ∧ u.gflag F.BENCH_CAL_CTL_BUSY = true)) ∧
      (bit v 31 = true → busy = false → ¬ (lk la ∧ lk lb ∧ la ≠ lb) → Acts (.benchCalGo h v) s (fun u => cfr u ∧ u.gflag F.BENCH_CAL_CTL_BUSY = false ∧ u.gcur F.BENCH_CAL_CTL_ERR = 1))) ∧
    let Done := Instr.benchCalDone ab ba
    let ends (p : State → Prop) : Prop := Acts Done s (fun u => State.onlyIn [.hostif, .bench, .out] s u ∧ u.router = s.router ∧ u.gflag F.BENCH_CAL_CTL_BUSY = false ∧ p u)
    (busy = false → Acts Done s (fun u => u = s.clear)) ∧
    (busy = true → s.calOk = true → ends (fun u => u.gcur F.BENCH_CAL_CTL_DONE = 1 ∧ u.gcur (F.BENCH_CAL_AB_DLY 0) = min 0xFFFFFFFF (ab.sum / max 1 ab.length) ∧ u.gcur (F.BENCH_CAL_AB_DLY 1) = min 0xFFFFFFFF (ba.sum / max 1 ba.length))) ∧
    (busy = true → s.calOk = false → ends (fun u => u.gcur F.BENCH_CAL_CTL_ERR = 1))

/-! ### Images -/

/-- Loads of images (R319 to R326, R331, R404, R437, R440, R441): a load takes its bytes from the host's memory, the staged image or the stream, and fails without them. STAGE checks
the image and stages it, or holds it where the channel is not in RUN; RUN begins once the channel is powered and its image is checked; RECONFIG resets the channel;
RUN follows with the image in force, or the held image again, or EMPTY. A DEVICE load brings the common image into force with its locks and its measurement. A failed check names
its code. -/
def Obligations.ImagesAreCheckedAndLoaded : Prop :=
  (∀ (s : State) (slot : Fin 64) (data : Option Bytes) (k : CmdSt), s.scanning = false → s.running? slot.val 3 = some k →
    let n := k.chan
    let fr (u : State) : Prop := State.onlyIn [.hostif, .cmdq, .vault, .book, .tally, .twin, .bench, .clkgen, .pwr, .image, .ch, .free, .out] s u
    let fails (i : Instr) (res : Nat) : Prop := Acts i s (fun u => fr u ∧ s.ended u slot.val res (u.gword .image IMAGE_STAT).toNat ∧ u.img = s.img)
    let gets (b : Bytes) (staged : Bool) : Prop :=
      (k.src = 0 ∧ s.linkUp = true ∧ (∃ d, data = some d ∧ k.len ≤ d.length ∧ b = d.take k.len) ∧ staged = false) ∨
      (k.src = 1 ∧ s.img[n].staged = true ∧ b = s.storeSlot n (s.otherSlot n) ∧ staged = true) ∨ (2 ≤ k.src ∧ k.len ≤ k.buf.length ∧ b = k.buf ∧ staged = false)
    (∀ r ∈ [(Instr.cmdImageLoadStage slot data, 0), (.cmdImageLoadRun slot data, 1)],
      ((k.begun = true ∨ k.mode ≠ r.2) → Acts r.1 s (fun u => u = s.clear)) ∧
      (k.begun = false → k.mode = r.2 → k.src = 0 → (s.linkUp = false ∨ ∀ d, data = some d → d.length < k.len) → fails r.1 RES_HOST_DMA) ∧
      (k.begun = false → k.mode = r.2 → k.src = 1 → s.img[n].staged = false → fails r.1 RES_STATE) ∧
      (k.begun = false → k.mode = r.2 → 2 ≤ k.src → k.buf.length < k.len → Acts r.1 s (fun u => u = s.clear))) ∧
    ∀ b staged, k.begun = false → gets b staged → b.length ≤ IMG_MAX →
      let o := s.otherSlot n
      let bad (e : Nat × Nat) (u : State) : Prop := u.gcur F.IMAGE_STAT_ERR = e.1 % 256 ∧ u.gcur F.IMAGE_STAT_RECIDX = e.2 % 65536 ∧ u.gcur F.IMAGE_EVT_FAIL = 1 ∧
        s.ended u slot.val RES_OP_ERROR (u.gword .image IMAGE_STAT).toNat
      let stored (u : State) : Prop := u.storeSlot n o = b ∧ u.storeSlot n (!o) = s.storeSlot n (!o)
      let job : LoadJob := ⟨k.org, some k.slot, 1, k.carry, [], o, true, false, false, false⟩
      let Stage := Instr.cmdImageLoadStage slot data
      let Run := Instr.cmdImageLoadRun slot data
      (∀ e, k.mode = 0 → s.imageErr b (some n) = some e → Acts Stage s (fun u => fr u ∧ stored u ∧ bad e u ∧ u.img[n].held = s.img[n].held)) ∧
      (k.mode = 0 → s.imageErr b (some n) = none → Acts Stage s (fun u => fr u ∧ stored u ∧ u.gcur F.IMAGE_STAT_ERR = 0 ∧ u.gcur F.IMAGE_EVT_DONE = 1 ∧
        s.ended u slot.val RES_OK (u.gword .image IMAGE_STAT).toNat ∧
        if s.running n = true then u.img[n].staged = true ∧ u.img[n].held = s.img[n].held else u.img[n].staged = false ∧ u.img[n].held = some o)) ∧
      (k.mode = 1 → s.img[n].pwr = .off → Acts Run s (fun u => fr u ∧ stored u ∧ u.img[n].job = some job ∧ u.img[n].pwr = .up s.tick ∧ u.gcur F.IMAGE_STAT_BUSY = 1 ∧
        u.rootSt (n.val + 1) = s.rootSt (n.val + 1) ∧ u.cmdq.cmds.length = s.cmdq.cmds.length)) ∧
      (k.mode = 1 → s.img[n].pwr = .on → s.imageErr b (some n) = none → Acts Run s (fun u => fr u ∧ stored u ∧ u.img[n].job = some { job with checked := true } ∧
        u.gcur F.IMAGE_STAT_BUSY = 1 ∧ u.gcur F.IMAGE_STAT_PHASE = 2 ∧ u.chSt n = s.chSt n)) ∧
      (∀ e, k.mode = 1 → s.img[n].pwr = .on → s.imageErr b (some n) = some e → Acts Run s (fun u => fr u ∧ bad e u ∧ u.chSt n = s.chSt n))) ∧
  (∀ (s : State) (slot : Fin 64) (images : Option (List (Option Bytes))) (h : HostPath) (v : Word), s.scanning = false →
    let fr (u : State) : Prop := State.onlyIn [.hostif, .cmdq, .pwr, .image, .out] s u
    let Dev := Instr.cmdImageLoadDevice slot images
    let ends (res : Nat) (p : State → Prop) : Prop := Acts Dev s (fun u => fr u ∧ s.ended u slot.val res (u.gword .image IMAGE_STAT).toNat ∧ u.stage = s.stage ∧ p u)
    ((∀ k, s.running? slot.val 3 = some k → k.begun = true ∨ k.mode ≠ 2) → Acts Dev s (fun u => u = s.clear)) ∧
    (s.running? slot.val 3 = none → ∀ data, ∀ i ∈ [Instr.cmdImageLoadStage slot data, .cmdImageLoadRun slot data], Acts i s (fun u => u = s.clear)) ∧
    (∀ k, s.running? slot.val 3 = some k → k.begun = false → k.mode = 2 →
      ((s.linkUp = false ∨ images = none) → ends RES_HOST_DMA (fun u => u.loader = s.loader)) ∧
      (∀ l, s.linkUp = true → images = some l → l.length ≠ 5 → ends RES_FORMAT (fun u => u.loader = s.loader)) ∧
      ∀ cmn chs, s.linkUp = true → images = some (cmn :: chs) → chs.length = 4 →
        let b := cmn.getD []
        let early : Prop := s.gcur F.VAULT_STAT_STAGE ≠ VS_STOPPED ∧ s.stage ≠ BOOT_WAIT
        (early → ends RES_OP_ERROR (fun u => u.gcur F.IMAGE_STAT_ERR = IE_TARGET ∧ u.loader.dev = none)) ∧
        (∀ e, ¬ early → s.imageErr b none = some e → ends RES_OP_ERROR (fun u => u.gcur F.IMAGE_STAT_ERR = e.1 % 256 ∧ u.gcur F.IMAGE_EVT_FAIL = 1 ∧ u.loader.dev = none)) ∧
        (¬ early → s.imageErr b none = none → Acts Dev s (fun u => fr u ∧ u.stage = BOOT_LOADING ∧ u.gcur F.IMAGE_STAT_BUSY = 1 ∧
          u.loader.dev = some (slot.val, b, State.allChans.filterMap (fun n => (chs.getD n.val none).map (fun x => (n, x))))))) ∧
    let waits (k : CmdSt) : Bool := k.op == 3 && k.src == 2 && s.cmdState k.slot == CS_RUNNING && decide (k.buf.length < k.len)
    (s.open h →
      (s.cmdq.cmds.find? waits = none → Acts (.imageStreamWrite h v) s (fun u => State.onlyIn [.cmdq, .out] s u ∧ u.cmdq = s.cmdq)) ∧
      ∀ k, s.cmdq.cmds.find? waits = some k → Acts (.imageStreamWrite h v) s (fun u => State.onlyIn [.cmdq, .out] s u ∧
        u.cmdq.cmds = s.cmdq.cmds.map (fun x => if x.slot = k.slot then { x with buf := (k.buf ++ leBytes 4 v.toNat).take k.len } else x)))) ∧
  (∀ (s : State) (n : ChanIx), s.scanning = false →
    let big (u : State) : Prop := State.onlyIn [.hostif, .cmdq, .fault, .vault, .book, .tally, .twin, .bench, .pwr, .image, .ch, .free, .out] s u
    let m := s.img[n]
    let Enter := Instr.reconfigEntry n
    let may (j : LoadJob) : Prop := m.job = some j ∧ j.mode ≠ 0 ∧ s.loadHalted j = false ∧ m.pwr = .on
    ((∀ j, ¬ may j) → Acts Enter s (fun u => u = s.clear)) ∧
    (∀ j e, may j → m.after = none → j.checked = false → s.imageErr (s.loadBytes n j) (some n) = some e → Acts Enter s (fun u => big u ∧ u.gcur F.IMAGE_STAT_ERR = e.1 % 256 ∧
      u.gcur F.IMAGE_EVT_FAIL = 1 ∧ (s.running n = true → u.running n = true) ∧ (∀ k, j.slot = some k → s.cmd? k ≠ none → s.ended u k RES_OP_ERROR (u.gword .image IMAGE_STAT).toNat))) ∧
    (∀ j, may j → (j.checked = true ∨ s.imageErr (s.loadBytes n j) (some n) = none) → s.chSt n ≠ CH_RECONFIG →
      let carry : Prop := j.carry = true ∧ Img.carryOk ⟨s.loadBytes n j⟩ = true ∧ s.running n = true
      Acts Enter s (fun u => big u ∧ u.chSt n = CH_RECONFIG ∧ u.gcur F.IMAGE_STAT_PHASE = 3 ∧ u.img[n].job = some { j with checked := true } ∧
        (carry → u.img[n].kept = some (s.ch[n].teb, s.ch[n].now) ∧ u.ch[n].dpll.ctr = s.ch[n].dpll.ctr ∧ u.ch[n].scale = s.ch[n].scale) ∧
        (¬ carry → u.img[n].kept = none ∧ ∀ b off, u.ch[n].word b off = kbRst b off ∧ u.ch[n].useWord b off = kbRst b off) ∧ u.ch[n].jour.tick = 0 ∧
        ∀ x : ChanIx, x ≠ n → u.ch[x] = s.ch[x])) ∧
    let Done := Instr.reconfigApplyComplete n
    ((m.job = none ∨ s.chSt n ≠ CH_RECONFIG) → Acts Done s (fun u => u = s.clear)) ∧
    ∀ j, m.job = some j → s.chSt n = CH_RECONFIG →
      let i : Img := ⟨s.loadBytes n j⟩
      let taken := s.ch[n].applyImage i m.kept.isSome
      let ends (res : Nat) (u : State) : Prop := ∀ k, j.slot = some k → s.cmd? k ≠ none → s.ended u k res (u.gword .image IMAGE_STAT).toNat
      let loads := s.gcur (F.IMAGE_CH_STAT_LOADS n.val)
      (∀ d, taken = .inr d → j.fallback = false → Acts Done s (fun u => big u ∧ u.chSt n = CH_RUN ∧ u.img[n].job = m.after ∧ u.img[n].runMeas = i.meas ∧
        u.gcur F.IMAGE_STAT_ERR = 0 ∧ u.gcur F.IMAGE_EVT_DONE = 1 ∧ u.gcur (F.IMAGE_CH_STAT_LOADS n.val) = (loads + 1) % 65536 ∧
        u.gcur (F.IMAGE_CH_STAT_CARRIED n.val) = b2n m.kept.isSome ∧ u.gcur (F.IMAGE_FWVER_FWVER n.val) = i.fwVer % 2 ^ 32 ∧ u.vault.mix[n] = i.meas ∧
        (j.fresh = true → u.img[n].held = some j.storeSlot ∧ u.img[n].staged = false) ∧ (j.fresh = false → u.img[n].held = m.held) ∧ ends RES_OK u)) ∧
      (∀ d, taken = .inr d → j.fallback = true → Acts Done s (fun u => big u ∧ u.chSt n = CH_RUN ∧ u.img[n].job = m.after ∧ u.img[n].runMeas = i.meas ∧
        u.gcur F.IMAGE_EVT_FAIL = 1 ∧ u.gcur (F.IMAGE_CH_STAT_LOADS n.val) = loads ∧ ends RES_OP_ERROR u)) ∧
      (∀ ty h, taken = .inl ty → j.fallback = false → m.held = some h → Acts Done s (fun u => big u ∧ u.chSt n = CH_RECONFIG ∧
        u.img[n].job = some { j with fallback := true, fresh := false, image := [], storeSlot := h } ∧ u.gcur F.IMAGE_STAT_ERR = IE_COMMIT ∧
        u.gcur F.IMAGE_STAT_RECIDX = ty % 65536 ∧ u.gcur F.IMAGE_STAT_PHASE = 4 ∧ u.gcur F.IMAGE_EVT_FALLBACK = 1 ∧ u.ch = s.ch)) ∧
      (∀ ty, taken = .inl ty → (j.fallback = true ∨ m.held = none) → Acts Done s (fun u => big u ∧ u.chSt n = CH_EMPTY ∧ u.img[n].job = m.after ∧
        u.gcur F.IMAGE_EVT_FAIL = 1 ∧ (j.fallback = false → u.gcur F.IMAGE_STAT_ERR = IE_COMMIT) ∧ ends RES_OP_ERROR u))) ∧
  ∀ s : State, s.scanning = false →
    let Apply := Instr.commonImageApply
    let may (slot : Nat) (b : Bytes) (chs : List (ChanIx × Bytes)) : Prop := s.loader.dev = some (slot, b, chs) ∧ s.vault.mCmn = none ∧ s.stage = BOOT_LOADING ∧ s.cmdState slot = CS_RUNNING
    let commits (b : Bytes) : Option State := (((s.clear.commonRecords ⟨b⟩).loaderCommit .clkgen).bind (fun t => t.loaderCommit .twin)).bind (fun t => t.loaderCommit .bench)
    let org (slot : Nat) : Origin := match s.cmd? slot with | some c => c.org | none => .mspi
    ((∀ slot b chs, ¬ may slot b chs) → s.rated → Acts Apply s (fun u => u = s.clear)) ∧
    (∀ slot b chs, may slot b chs → commits b = none → (s.clear.commonApply).rated → Acts Apply s (fun u => u.stage = BOOT_WAIT ∧ u.gcur F.IMAGE_STAT_ERR = IE_COMMIT ∧
      u.gcur F.IMAGE_STAT_RECIDX = 0x18 ∧ u.loader.dev = none ∧ u.loader.marks = [] ∧ u.vault = s.vault)) ∧
    ∀ slot b chs t, may slot b chs → commits b = some t → (s.clear.commonApply).rated → Acts Apply s (fun u => u = t.commonTaken (org slot) ⟨b⟩ chs ∧
      u.vault.mCmn = some (Img.meas ⟨b⟩) ∧ u.stage = BOOT_LOADING ∧ u.loader.marks = State.comMarks ⟨b⟩ ∧
      (∀ k, k < 12 → u.gword .image (IMAGE_MEAS_CMN k) = leWordAt (Img.meas ⟨b⟩) k) ∧
      ∀ B ∈ [CB.fault, .vault, .clkgen, .twin, .bench], u.gLocked B = true)

/-- Channels gated, ungated and powered (R326, R333, R437): GATE makes a channel GATED, loses its volatile state but for the client table and powers it down; UNGATE powers a GATED channel
with a held image up and loads it, or makes it EMPTY; RESET loads the held image of a running channel again; more than one of them is ignored. A power sequence that
ends, a power-down not before 50 µs, sets CHPWR and the root, and what was asked for in it follows. -/
def Obligations.ChannelsAreGatedAndPowered : Prop :=
  ∀ (s : State) (h : HostPath) (n : ChanIx) (v : Word),
    let fr (u : State) : Prop := State.onlyIn [.hostif, .cmdq, .vault, .book, .tally, .twin, .bench, .clkgen, .pwr, .image, .ch, .free, .out] s u
    let c := getField v 29 3
    let m := s.img[n]
    let pst (u : State) : Nat := u.gcur (F.CLKGEN_ROOT_STAT_STATE (n.val + 1))
    let same (u : State) : Prop := fr u ∧ u.img = s.img ∧ u.ch = s.ch ∧ u.chSt n = s.chSt n
    let begins (carry rack : Bool) (held : Bool) : LoadJob := ⟨h.org, none, 1, carry, [], held, false, false, false, rack⟩
    (s.open h → ∀ i ∈ [Instr.channelGate h n v, .channelUngate h n v, .channelReset h n v],
      (c ∉ [1, 2, 4] → Acts i s same) ∧
      (c = 4 → Acts i s (fun u => fr u ∧ u.chSt n = CH_GATED ∧ (∀ x : ChanIx, x ≠ n → u.ch[x] = s.ch[x] ∧ u.chSt x = s.chSt x) ∧
        (m.pwr = .on → u.img[n].pwr = .down s.tick) ∧ (∀ t, m.pwr = .up t → u.img[n].pwr = .up t ∧ u.img[n].waitGate = true) ∧ (m.pwr = .off → u.img[n].pwr = .off) ∧
        (s.chSt n ≠ CH_GATED → u.img[n].job = none ∧ u.ch[n].sealb.clients = s.ch[n].sealb.clients ∧ ∀ b off, u.ch[n].word b off = kbRst b off))) ∧
      (c = 2 → s.chSt n ≠ CH_GATED → Acts i s same) ∧
      (c = 2 → s.chSt n = CH_GATED → m.held = none → Acts i s (fun u => fr u ∧ u.chSt n = CH_EMPTY ∧ u.img = s.img)) ∧
      (∀ x, c = 2 → s.chSt n = CH_GATED → m.held = some x → m.job ≠ none → Acts i s same) ∧
      (∀ x, c = 2 → s.chSt n = CH_GATED → m.held = some x → m.job = none → Acts i s (fun u => fr u ∧ u.chSt n = CH_GATED ∧ u.img[n].job = some (begins false false x) ∧
        u.img[n].waitGate = false ∧ (m.pwr = .off → u.img[n].pwr = .up s.tick ∧ pst u = pst s) ∧ (∀ t, m.pwr = .down t → u.img[n].pwr = .down t ∧ u.img[n].waitUngate = true))) ∧
      (c = 1 → (s.running n = false ∨ m.held = none) → Acts i s same) ∧
      (∀ x, c = 1 → s.running n = true → m.held = some x → m.job = none → Acts i s (fun u => fr u ∧ u.chSt n = CH_RUN ∧ u.img[n].job = some (begins false false x) ∧ u.gcur F.IMAGE_STAT_BUSY = 1)) ∧
      (∀ x, c = 1 → s.running n = true → m.held = some x → m.job ≠ none → Acts i s (fun u => fr u ∧ u.chSt n = CH_RUN ∧ u.img[n].job = m.job ∧ u.img[n].after = some (begins false false x)))) ∧
    (s.scanning = false →
      let Down := Instr.channelPowerDownDone n
      let power (u : State) : Bool := bit (u.gword .pwr PWR_STAT) (12 + n.val)
      ((∀ t, m.pwr ≠ .down t) → Acts Down s (fun u => u = s.clear)) ∧
      (∀ t, m.pwr = .down t → s.tick < t + 10000 → Acts Down s (fun u => u = s.clear)) ∧
      (∀ t, m.pwr = .down t → t + 10000 ≤ s.tick → Acts Down s (fun u => State.onlyIn [.hostif, .clkgen, .pwr, .image, .out] s u ∧ power u = false ∧ u.img[n].job = m.job ∧ u.chSt n = s.chSt n ∧ pst u = 0 ∧
        u.img[n].pwr = if m.waitUngate = true then .up s.tick else .off)) ∧
      let Up := Instr.channelPowerUpDone n
      let locked : Prop := (∃ t, m.pwr = .up t) ∧ s.gcur (F.CLKGEN_ROOT_STAT_STATE (n.val + 1)) = 2
      let bfr (u : State) : Prop := State.onlyIn [.hostif, .cmdq, .vault, .book, .tally, .twin, .bench, .pwr, .image, .ch, .free, .out] s u ∧ power u = true
      (¬ locked → s.rated → Acts Up s (fun u => u = s.clear)) ∧
      (locked → s.rated → m.waitGate = true → Acts Up s (fun u => bfr u ∧ u.img[n].pwr = .down s.tick ∧ u.img[n].waitGate = false ∧ u.img[n].job = m.job)) ∧
      (locked → s.rated → m.waitGate = false → (m.job = none ∨ ∃ j, m.job = some j ∧ (s.loadHalted j = true ∨ j.checked = true)) →
        Acts Up s (fun u => bfr u ∧ u.img[n].pwr = .on ∧ u.img[n].job = m.job)) ∧
      (∀ j, locked → s.rated → m.waitGate = false → m.job = some j → s.loadHalted j = false → j.checked = false → s.imageErr (s.loadBytes n j) (some n) = none →
        Acts Up s (fun u => bfr u ∧ u.img[n].pwr = .on ∧ u.img[n].job = some { j with checked := true } ∧ u.gcur F.IMAGE_STAT_PHASE = 2)) ∧
      ∀ j e, locked → s.rated → m.waitGate = false → m.job = some j → s.loadHalted j = false → j.checked = false → s.imageErr (s.loadBytes n j) (some n) = some e →
        Acts Up s (fun u => bfr u ∧ u.gcur F.IMAGE_STAT_ERR = e.1 % 256 ∧ u.gcur F.IMAGE_EVT_FAIL = 1))

/-! ### The vault -/

/-- The vault (R334 to R356): a key update message is checked in the order of R345 and the first check that fails gives its code; an accepted one changes its slot, the
tamper configuration or the ownership at its commit point, which advances KCNT to its COUNTER and books it, and orphans what hangs below a slot replaced or invalidated. A quote
is fixed at GO, signed under the device identity key or the attestation slot, and appears in ATT_OUT. A batch runs to the first message that is not accepted. Two failing samples of
a monitor in a row zeroize the seed, make the vault ORPHANED, log the alarm with VCLK, a free value, and end the key operations. -/
def Obligations.TheVaultKeepsItsKeys : Prop :=
  (∀ (s : State) (h : HostPath) (v : Word), s.open h →
    let len := getField v 0 9
    let k : Kum := ⟨s.kumBuf len⟩
    let b := (Kum.mk (s.kumBuf 344)).op
    let fr (u : State) : Prop := State.onlyIn [.hostif, .vault, .out] s u
    let busy := s.gflag F.VAULT_KUM_STAT_BUSY
    ∀ r ∈ [(Instr.kumInstall h v, 1), (.kumReplace h v, 2), (.kumInvalidate h v, 3), (.kumRecover h v, 4), (.kumTcfg h v, 5)],
      let mine : Prop := b = r.2 ∨ (r.2 = 1 ∧ (b = 0 ∨ 5 < b))
      let fails (code : Nat) : Prop := Acts r.1 s (fun u => fr u ∧ u.gcur F.VAULT_KUM_STAT_BUSY = 0 ∧ u.gcur F.VAULT_KUM_STAT_RESULT = code ∧ u.gcur F.VAULT_EVT_KUM_FAIL = 1 ∧
        u.vault = { s.vault with kum := none })
      let go : Prop := bit v 31 = true ∧ mine ∧ busy = false
      (bit v 31 = true → ¬ mine → Acts r.1 s (fun u => u = s.clear)) ∧
      ((bit v 31 = false ∨ (mine ∧ busy = true)) → Acts r.1 s (fun u => fr u ∧ u.vault = s.vault ∧ u.gcur F.VAULT_KUM_CTL_LEN = len ∧ u.gflag F.VAULT_KUM_STAT_BUSY = busy)) ∧
      (go → k.formatOk = false → fails KR_FORMAT) ∧
      (go → k.formatOk = true →
        let own : Prop := k.devid = s.fuse.devid ∧ k.devid ≠ 0
        (¬ own → fails KR_DEVID) ∧
        (own → k.counter ≤ s.vault.kcnt → fails KR_COUNTER) ∧
        (own → s.vault.kcnt < k.counter → s.kumAuth k = none → fails KR_AUTH) ∧
        ∀ pub, own → s.vault.kcnt < k.counter → s.kumAuth k = some pub →
          (sigOk pub k.digest k.sigBlk = false → fails KR_SIGNATURE) ∧
          (sigOk pub k.digest k.sigBlk = true → s.kumStateOk k = false → fails KR_STATE) ∧
          (sigOk pub k.digest k.sigBlk = true → s.kumStateOk k = true → s.kumHierOk k = false → fails KR_HIERARCHY) ∧
          (sigOk pub k.digest k.sigBlk = true → s.kumStateOk k = true → s.kumHierOk k = true → s.kumKey k = none → fails KR_UNWRAP) ∧
          ∀ key, sigOk pub k.digest k.sigBlk = true → s.kumStateOk k = true → s.kumHierOk k = true → s.kumKey k = some key → Acts r.1 s (fun u => fr u ∧
            u.gcur F.VAULT_KUM_STAT_BUSY = 1 ∧ u.vault = { s.vault with kum := some ⟨k.op, k.slot, k.counter, k.attr, k.keyId, key, h.org⟩ }))) ∧
  (∀ (s : State) (written : Bool), s.scanning = false →
    let Point := Instr.kumCommitPoint written
    (s.vault.kum = none → Acts Point s (fun u => u = s.clear)) ∧
    ∀ j, s.vault.kum = some j →
      (written = false → Acts Point s (fun u => State.onlyIn [.hostif, .vault, .out] s u ∧ u.vault = { s.vault with kum := none } ∧ u.gcur F.VAULT_KUM_STAT_RESULT = KR_NVM ∧
        u.gcur F.VAULT_KUM_STAT_BUSY = 0 ∧ u.gcur F.VAULT_EVT_KUM_FAIL = 1)) ∧
      (written = true → smWf (fun _ => VSlot.zero) s.vault.slots = true →
        let x := s.vslot j.slot
        let copy := if x.ver = 0 then x.copyB else !x.copyB
        let new : VSlot := ⟨j.attr, j.keyId, j.counter, .valid, 0, copy, j.value, if attrPublic j.attr then [] else if attrMbind j.attr then s.ks1 else s.ks0, false⟩
        let below (i : Nat) : Prop := j.slot < 16 ∧ 16 ≤ i ∧ attrParent (s.vslot i).attr = j.slot ∧ ((s.vslot i).st = .valid ∨ (s.vslot i).st = .invalid)
        let kept (u : State) : Prop := ∀ i, i ≠ j.slot → u.vslot i = s.vslot i
        let orphans (u : State) : Prop := ∀ i, i ≠ j.slot → (below i → u.vslot i = { s.vslot i with st := .orphaned, cause := 1, value := [], sealKey := [] }) ∧ (¬ below i → u.vslot i = s.vslot i)
        let commits (p : State → Prop) : Prop := Acts Point s (fun u => State.onlyIn [.hostif, .vault, .book, .tally, .pwr, .ch, .free, .out] s u ∧ u.vault.kum = none ∧
          u.vault.kcnt = j.counter ∧ u.gcur F.VAULT_KUM_STAT_RESULT = KR_OK ∧ u.gcur F.VAULT_KUM_STAT_BUSY = 0 ∧ u.gcur F.VAULT_EVT_KUM_DONE = 1 ∧ p u)
        (j.op = 1 → commits (fun u => u.vslot j.slot = new ∧ kept u ∧ u.vault.tcfg = s.vault.tcfg ∧ u.vault.own = if s.vault.own = OWN_UNOWNED then OWN_OWNED else s.vault.own)) ∧
        (j.op = 2 → commits (fun u => u.vslot j.slot = new ∧ orphans u ∧ u.vault.own = s.vault.own)) ∧
        (j.op = 3 → commits (fun u => u.vslot j.slot = { x with st := .invalid, cause := 4, ver := j.counter, copyB := copy, value := [], sealKey := [], meas := false } ∧
          orphans u ∧ u.vault.own = s.vault.own)) ∧
        (j.op = 4 → commits (fun u => u.vault.own = OWN_OWNED ∧ u.vault.seed ≠ none ∧ u.vault.storeSeed = u.vault.seed ∧ (s.vault.seed ≠ none → u.vault.seed = s.vault.seed) ∧
          (∀ i, u.vslot i = if attrPublic (s.vslot i).attr then s.vslot i else { VSlot.zero with copyB := (s.vslot i).copyB }) ∧
          (s.stage < BOOT_DONE → u.stage = BOOT_VAULT ∧ u.gcur F.VAULT_STAT_STAGE = VS_SEED))) ∧
        (j.op = 5 → commits (fun u => u.vault.tcfg = j.attr ∧ u.vault.slots = s.vault.slots ∧ u.vault.own = s.vault.own)))) ∧
  (∀ (s : State) (h : HostPath) (v : Word) (slot : Fin 64) (kums : Option (List Bytes)),
    let signer := getField v 29 1
    let busy := s.gflag F.VAULT_ATT_CTL_BUSY
    let fr (u : State) : Prop := State.onlyIn [.hostif, .vault, .free, .out] s u ∧ u.gcur F.VAULT_ATT_CTL_SIGNER = signer
    let Q := Instr.attestationQuote h v
    let signs : Prop := s.orphanedVault = false ∧ (signer = 1 → attrAlg (s.vslot (s.gfld F.VAULT_CFG_ATT_SLOT)).attr = 4 ∧ s.deliver (s.gfld F.VAULT_CFG_ATT_SLOT) RC_ATTEST ≠ none)
    (s.open h →
      ((bit v 31 = false ∨ busy = true) → Acts Q s (fun u => fr u ∧ u.vault = s.vault ∧ u.gflag F.VAULT_ATT_CTL_BUSY = busy)) ∧
      (bit v 31 = true → busy = false → ¬ signs → Acts Q s (fun u => fr u ∧ u.vault = s.vault ∧ u.gflag F.VAULT_ATT_CTL_BUSY = false ∧ u.gcur F.VAULT_ATT_CTL_ERR = 1)) ∧
      (bit v 31 = true → busy = false → signs → Acts Q s (fun u => fr u ∧ u.gflag F.VAULT_ATT_CTL_BUSY = true ∧ ∃ (body : Bytes) (n : Nat),
        let key := s.gfld F.VAULT_CFG_ATT_SLOT
        let sig := if signer = 0 then sigBlock 0 (ecdsaSign s.fuse.dik (sha384 body) n) else sigBlock (s.vslot key).keyId (ecdsaSign (fromBe (s.slotVal key)) (sha384 body) n)
        u.vault = { s.vault with quote := some (body ++ sig) } ∧
        leAt body 0 4 = 0x54515441 ∧ leAt body 5 1 = signer ∧ leAt body 6 1 = s.vault.own % 256 ∧ leAt body 8 8 = s.fuse.devid % 2 ^ 64 ∧
        ∀ k, k < 12 → leWordAt body (4 + k) = s.gword .vault (VAULT_ATT_NONCE k)))) ∧
    (s.scanning = false →
      let Done := Instr.attestationQuoteDone
      (s.vault.quote = none → Acts Done s (fun u => u = s.clear)) ∧
      (∀ q, s.vault.quote = some q → Acts Done s (fun u => State.onlyIn [.hostif, .vault, .out] s u ∧ u.vault = { s.vault with quote := none } ∧
        (∀ k, k < 172 → u.gword .vault (VAULT_ATT_OUT k) = leWordAt q k) ∧ u.gflag F.VAULT_ATT_CTL_BUSY = false ∧ u.gcur F.VAULT_ATT_CTL_DONE = 1 ∧ u.gcur F.VAULT_EVT_ATT_DONE = 1)) ∧
      let Batch := Instr.cmdKeyBatch slot kums
      let bfr (u : State) : Prop := State.onlyIn [.hostif, .cmdq, .vault, .book, .tally, .pwr, .ch, .free, .out] s u
      (s.running? slot.val 4 = none → Acts Batch s (fun u => u = s.clear)) ∧
      ∀ c, s.running? slot.val 4 = some c →
        ((s.linkUp = false ∨ kums = none) → Acts Batch s (fun u => bfr u ∧ s.ended u slot.val RES_HOST_DMA 0 ∧ u.vault = s.vault)) ∧
        ∀ l, s.linkUp = true → kums = some l →
          let rs := l.take (leAt c.param 8 2 - c.done)
          let good := (rs.map State.kumRecord).takeWhile Option.isSome
          let r := State.kumBatch c.org (good.filterMap id) (c.done, true, s.clear.begin' slot.val)
          (r.2.1 = false → Acts Batch s (fun u => bfr u ∧ s.ended u slot.val RES_OP_ERROR (u.gcur F.VAULT_KUM_STAT_RESULT) ∧ u.vault = r.2.2.vault)) ∧
          (r.2.1 = true → good.length < rs.length → Acts Batch s (fun u => bfr u ∧ s.ended u slot.val RES_FORMAT 0 ∧ u.vault = r.2.2.vault)) ∧
          (r.2.1 = true → good.length = rs.length → Acts Batch s (fun u => bfr u ∧ u.vault = r.2.2.vault ∧ u.cmdState slot.val = CS_RUNNING ∧
            (u.cmd? slot.val).map (·.done) = some r.1)))) ∧
  ∀ (s : State) (t : TamperIn), s.scanning = false →
    let f := s.tamperFails t
    let new := (f &&& s.vault.prevFail) &&& (255 - s.vault.alarmed)
    let Sample := Instr.tamperSample t
    let seen (u : State) : Prop := u.gcur F.VAULT_TSTAT_LIVE = f % 256 ∧ u.gcur F.VAULT_TSTAT_VBAT = t.vbat % 65536 ∧
      u.vault.prevFail = f ∧ u.vault.alarmed = ((s.vault.alarmed &&& f) ||| new) ∧ (bit s.vault.tcfg 9 = true → t.vbat < 2200 → u.gcur F.VAULT_EVT_VBAT_LOW = 1)
    let lost (u : State) : Prop := seen u ∧ u.vault.seed = none ∧ u.vault.own = OWN_ORPHANED
    let logged (u : State) : Prop := ∃ clk, u.vault.log = (if 8 ≤ s.vault.log.length then s.vault.log.drop 1 else s.vault.log) ++ [⟨new, s.tamperState, clk, t.vbat, t.temp⟩]
    let ended (u : State) : Prop := u.vault.kum = none ∧ u.vault.quote = none ∧ u.gcur F.VAULT_EVT_TAMPER = 1
    (new = 0 → Acts Sample s (fun u => State.onlyIn [.hostif, .vault, .out] s u ∧ seen u ∧ u.vault = { s.vault with prevFail := f, alarmed := u.vault.alarmed })) ∧
    (new ≠ 0 → s.tamperState = 2 → Acts Sample s (fun u => State.onlyIn [.hostif, .vault, .free, .out] s u ∧ lost u ∧ logged u)) ∧
    (new ≠ 0 → s.tamperState = 1 → Acts Sample s (fun u => State.onlyIn [.hostif, .cmdq, .vault, .tally, .ch, .free, .out] s u ∧ lost u ∧ logged u ∧ ended u ∧
      u.tally.cur.tampers = State.satCount s.tally.cur.tampers)) ∧
    (new ≠ 0 → s.tamperState = 3 → Acts Sample s (fun u => lost u ∧ logged u ∧ ended u ∧ u.gcur F.VAULT_STAT_STAGE = VS_STOPPED ∧ u.stage = BOOT_VAULT ∧ u.loader.dev = none ∧
      State.onlyIn [.hostif, .cmdq, .vault, .tally, .pwr, .image, .ch, .free, .out] s u)) ∧
    (new ≠ 0 → s.tamperState = 0 → Acts Sample s (fun u => lost u ∧ ended u ∧
      State.onlyIn [.hostif, .cmdq, .fault, .vault, .book, .tally, .twin, .bench, .pwr, .image, .ch, .free, .out] s u))

/-! ### Faults -/

/-- Faults (R360 to R377, R475): a detection on a live source counts, sets REAL and, first of all, FIRST; where REAL was clear it takes the source's REACT: the NMI with its source,
ERR_N, and a block reset and a chip reset, which the end of the tick takes, or with CHIP_ACT the safe state. FS0 always enters it. SAFE_CTL enters it, or with its key leaves it by a reset. In it
the drive right, the twin lanes, every load and every command but a tally export have ended. An injection waits for its check, a monitor's for the next tick, and ends with ERR
after 1 ms without one. A forced gate or switch and a stuck switch name their block and raise their source. -/
def Obligations.FaultsAreRecordedAndTaken : Prop :=
  (∀ (s : State) (k : Fin 512), s.scanning = false →
    let n := k.val
    let Det := Instr.faultDetection k
    let live : Prop := s.clocked = true ∧ s.srcLive n = true
    let mask := s.react n
    let has (b : Nat) : Prop := mask / 2 ^ b % 2 = 1
    let chip := s.gfld F.FAULT_CFG_CHIP_ACT = 1
    let fresh : Prop := bit (s.gword .fault (FAULT_SRC_STAT n)) 31 = false
    let big (u : State) : Prop := State.onlyIn [.hostif, .cmdq, .fault, .vault, .book, .tally, .twin, .bench, .pwr, .image, .ch, .free, .out] s u
    let counted (u : State) : Prop := u.gcur (F.FAULT_SRC_STAT_REAL n) = 1 ∧ u.gcur (F.FAULT_SRC_STAT_COUNT n) = min 65535 (s.gcur (F.FAULT_SRC_STAT_COUNT n) + 1) ∧
      smGet 0 u.tally.cur.faults n = State.satCount (smGet 0 s.tally.cur.faults n) ∧ u.gcur F.FAULT_FIRST_VALID = 1 ∧
      (if s.gflag F.FAULT_FIRST_VALID = true then u.gword .fault FAULT_FIRST = s.gword .fault FAULT_FIRST else u.gcur F.FAULT_FIRST_INJ = 0 ∧ u.gcur F.FAULT_FIRST_SRC = n)
    let nmi (u : State) : Prop := has 1 → u.gflag F.FAULT_NMI_STAT_PEND = true ∧ (s.gflag F.FAULT_NMI_STAT_PEND = false → u.gcur F.FAULT_NMI_STAT_SRC = n)
    let blocks (u : State) : Prop := u.fault.blockDue = if s.safe = true ∨ s.fault.blockDue.any (fun e => e.1 == n) = true then s.fault.blockDue
      else s.fault.blockDue ++ [(n, s.gword .fault (FAULT_SRC_STAT n), u.gword .fault (FAULT_SRC_STAT n))]
    let errN (u : State) : Prop := has 4 → n ∈ u.fault.errReal
    (s.clocked = false → Acts Det s (fun u => u = s.clear)) ∧
    (s.clocked = true → s.srcLive n = false → Acts Det s (fun u => u = match srcChan n with
      | some (c, _) => if s.running c = false ∧ srcReact n ≠ none then s.clear.reqAbsent c else s.clear
      | none => s.clear)) ∧
    (live → n ≠ 0 → (¬ fresh ∨ mask = 0) → Acts Det s (fun u => State.onlyIn [.hostif, .fault, .tally, .pwr, .out] s u ∧ counted u ∧ u.fault = s.fault ∧
      u.gword .fault FAULT_NMI_STAT = s.gword .fault FAULT_NMI_STAT ∧ u.safe = s.safe)) ∧
    (live → n ≠ 0 → fresh → ¬ has 2 → ¬ has 3 → Acts Det s (fun u => State.onlyIn [.hostif, .fault, .tally, .pwr, .out] s u ∧ counted u ∧ nmi u ∧ errN u ∧
      u.fault.resetDue = s.fault.resetDue ∧ u.safe = s.safe)) ∧
    (live → n ≠ 0 → fresh → has 2 → ¬ has 3 → Acts Det s (fun u => State.onlyIn [.hostif, .fault, .tally, .pwr, .out] s u ∧ counted u ∧ nmi u ∧ errN u ∧
      u.fault.resetDue = s.fault.resetDue ∧ u.safe = s.safe ∧ blocks u)) ∧
    (live → n ≠ 0 → fresh → has 3 → s.safe = false → ¬ chip → Acts Det s (fun u => State.onlyIn [.hostif, .fault, .tally, .pwr, .out] s u ∧ counted u ∧ nmi u ∧ errN u ∧
      u.safe = false ∧ (has 2 → blocks u) ∧
      u.fault.resetDue = match s.fault.resetDue with | some d => if d.1 = 3 ∧ n < d.2.1 then some (3, n, false) else some d | none => some (3, n, false))) ∧
    (live → n ≠ 0 → fresh → has 3 → s.safe = false → chip → Acts Det s (fun u => big u ∧ counted u ∧ nmi u ∧ errN u ∧ u.safe = true ∧ u.gcur F.FAULT_SAFE_STAT_CAUSE = 2 ∧
      u.gcur F.FAULT_SAFE_STAT_SRC = n ∧ u.fault.resetDue = none ∧ u.fault.blockDue = [])) ∧
    (live → n ≠ 0 → fresh → has 3 → s.safe = true → Acts Det s (fun u => State.onlyIn [.hostif, .fault, .tally, .pwr, .out] s u ∧ counted u ∧ nmi u ∧ errN u ∧
      u.fault.resetDue = s.fault.resetDue)) ∧
    (live → n = 0 → s.safe = false → Acts Det s (fun u => big u ∧ counted u ∧ u.safe = true ∧ u.gcur F.FAULT_SAFE_STAT_CAUSE = 1 ∧ u.gcur F.FAULT_SAFE_STAT_SRC = 0 ∧
      u.gcur F.TWIN_STAT_DRIVE = 0)) ∧
    (live → n = 0 → s.safe = true → Acts Det s (fun u => big u ∧ counted u ∧ u.gword .fault FAULT_SAFE_STAT = s.gword .fault FAULT_SAFE_STAT))) ∧
  (∀ (s : State) (h : HostPath) (v : Word), s.scanning = false → s.pathUp h = true →
    let key : Prop := getField v 0 16 = 0x5AFE
    let enter : Prop := bit v 31 = true
    let same (u : State) : Prop := State.onlyIn [.hostif, .fault, .book, .tally, .free, .out] s u ∧ u.fault = s.fault ∧ u.gword .fault FAULT_SAFE_STAT = s.gword .fault FAULT_SAFE_STAT
    (∀ i ∈ [Instr.safeEnter h v, .safeExit h v],
      ((enter ∧ key) ∨ (enter ∧ s.fault.exitAsked = false ∧ s.safe = true) ∨ (¬ enter ∧ ¬ key) → Acts i s same) ∧
      (enter → ¬ key → s.fault.exitAsked = true → Acts i s (fun u => State.onlyIn [.hostif, .fault, .book, .tally, .free, .out] s u ∧ u.safe = s.safe ∧
        u.fault = { s.fault with resetDue := s.fault.resetDue.bind (fun d => if d.1 = 4 then none else some d) })) ∧
      (enter → ¬ key → s.fault.exitAsked = false → s.safe = false → Acts i s (fun u => u.safe = true)) ∧
      (enter → ¬ key → s.fault.exitAsked = false → s.safe = false → s.fault.blockDue = [] → Acts i s (fun u => State.onlyIn [.hostif, .cmdq, .fault, .vault, .book, .tally, .twin, .bench, .pwr, .image, .ch, .free, .out] s u ∧
        u.safe = true ∧ u.gcur F.FAULT_SAFE_STAT_CAUSE = 3 ∧ u.gcur F.FAULT_SAFE_STAT_SRC = 0 ∧ u.fault = { s.fault with resetDue := none } ∧ u.gcur F.TWIN_STAT_DRIVE = 0 ∧
        u.twin.laneUp = Vector.replicate 2 false ∧ u.twin.inRound = s.twin.inRound.map (fun _ => 0) ∧ (∀ n : ChanIx, u.img[n].job = none ∧ u.ch[n].drive = false ∧ u.ch[n].safe = true) ∧
        u.loader.dev = none ∧ ∀ c ∈ u.cmdq.cmds, c.op = 6)) ∧
      (¬ enter → key → Acts i s (fun u => State.onlyIn [.hostif, .fault, .book, .tally, .free, .out] s u ∧ u.safe = s.safe ∧
        u.fault = { s.fault with exitAsked := true, resetDue := if s.safe then some (4, s.gcur F.FAULT_SAFE_STAT_SRC, s.gcur F.FAULT_SAFE_STAT_CAUSE == 4) else s.fault.resetDue }))) ∧
    let src := getField v 0 9
    let busy := s.gflag F.FAULT_INJ_CTL_BUSY
    let fr (u : State) : Prop := State.onlyIn [.hostif, .fault, .out] s u ∧ u.gcur F.FAULT_INJ_CTL_SRC = src ∧ u.gcur F.FAULT_INJ_CTL_MODE = b2n (bit v 29)
    let may : Prop := busy = false ∧ s.gflag F.FAULT_CFG_INJ_EN = true ∧ srcReact src ≠ none
    let Go := Instr.injectionGo h v
    (bit v 31 = false → Acts Go s (fun u => fr u ∧ u.fault = s.fault ∧ u.gflag F.FAULT_INJ_CTL_BUSY = busy)) ∧
    (bit v 31 = true → ¬ may → Acts Go s (fun u => fr u ∧ u.fault = s.fault ∧ u.gflag F.FAULT_INJ_CTL_BUSY = busy ∧ u.gcur F.FAULT_INJ_CTL_ERR = 1)) ∧
    (bit v 31 = true → may → Acts Go s (fun u => fr u ∧ u.fault = { s.fault with injAt := some (s.tick, src, bit v 29) } ∧ u.gflag F.FAULT_INJ_CTL_BUSY = true))) ∧
  ∀ (s : State) (c : Option ChanIx) (blk : Nat), s.scanning = false →
    let big (u : State) : Prop := State.onlyIn [.hostif, .cmdq, .fault, .vault, .book, .tally, .twin, .bench, .pwr, .image, .ch, .free, .out] s u
    let Inj := Instr.injectedDetection
    let Out := Instr.injectionNoCheckTimeout
    (s.fault.injAt = none → Acts Inj s (fun u => u = s.clear) ∧ Acts Out s (fun u => u = s.clear)) ∧
    (∀ t n full, s.fault.injAt = some (t, n, full) →
      let due : Prop := s.srcLive n = true ∧ (if State.isMonitor n = true then t < s.tick else s.tick < t + State.INJ_TICKS)
      let mask := if full then s.react n else s.react n % 4
      (¬ due → Acts Inj s (fun u => u = s.clear)) ∧
      (due → Acts Inj s (fun u => big u ∧ u.gcur (F.FAULT_SRC_STAT_INJ n) = 1 ∧ u.gcur (F.FAULT_SRC_STAT_ICOUNT n) = min 255 (s.gcur (F.FAULT_SRC_STAT_ICOUNT n) + 1) ∧
        u.tally.cur.injected = State.satCount s.tally.cur.injected ∧ u.fault.injAt = none ∧ u.gflag F.FAULT_INJ_CTL_BUSY = false ∧ u.gcur F.FAULT_INJ_CTL_DONE = 1 ∧
        (s.gflag F.FAULT_FIRST_VALID = false → u.gcur F.FAULT_FIRST_INJ = 1 ∧ u.gcur F.FAULT_FIRST_SRC = n % 512) ∧
        (full = false → u.safe = s.safe ∧ u.fault.resetDue = s.fault.resetDue) ∧
        (mask / 16 % 2 = 1 → n ∈ u.fault.errInj) ∧
        (full = true → n = 0 → s.safe = false → u.safe = true ∧ u.gcur F.FAULT_SAFE_STAT_CAUSE = 4))) ∧
      let waits : Prop := s.tick < t + State.INJ_TICKS ∨ (State.isMonitor n = true ∧ s.srcLive n = true)
      (waits → Acts Out s (fun u => u = s.clear)) ∧
      (¬ waits → Acts Out s (fun u => State.onlyIn [.hostif, .fault, .out] s u ∧ u.fault = { s.fault with injAt := none } ∧ u.gflag F.FAULT_INJ_CTL_BUSY = false ∧
        u.gcur F.FAULT_INJ_CTL_ERR = 1))) ∧
    let code := State.blockCode c blk
    let named (f : GF) (u : State) : Prop := State.onlyIn [.hostif, .cmdq, .fault, .vault, .book, .tally, .twin, .bench, .clkgen, .pwr, .image, .ch, .free, .out] s u ∧
      u.gcur f = 1 ∧ u.gcur F.CLKGEN_FORCE_BLOCK = code ∧ u.gcur F.CLKGEN_EVT_FORCE = 1 ∧
      ∀ k, k = (match c with | some n => 128 + 96 * n.val | none => 1) + (if f = F.CLKGEN_FORCE_GATE then 1 else if f = F.CLKGEN_FORCE_SWITCH then 2 else 3) →
        s.srcLive k = true → u.gcur (F.FAULT_SRC_STAT_REAL k) = 1
    let Done (how : SwitchEnd) := Instr.clkSwitchComplete c blk how
    let rest := s.pwr.unclocked.filter (· != code)
    (s.clocked = false → Acts (.clkGateForce c blk) s (fun u => u = s.clear) ∧ ∀ how, Acts (Done how) s (fun u => u = s.clear)) ∧
    (s.clocked = true → Acts (.clkGateForce c blk) s (named F.CLKGEN_FORCE_GATE)) ∧
    (s.clocked = true → Acts (Done .clean) s (fun u => u = { s.clear with pwr := { s.pwr with unclocked := rest } })) ∧
    (s.clocked = true → Acts (Done .forced) s (fun u => named F.CLKGEN_FORCE_SWITCH u ∧ u.pwr.unclocked = rest)) ∧
    (s.clocked = true → Acts (Done .stuck) s (fun u => named F.CLKGEN_FORCE_STUCK u ∧ u.pwr.unclocked = code :: rest))

/-! ### The command queue -/

/-- The command queue (R387 to R393, R419, R433): a SUBMIT to a FREE slot is accepted, numbered in HANDLE and queued, or ends at once with FORMAT or ABSENT; RELEASE frees an
ended slot. A command starts when its resource is free and no earlier one waits for it, and its timeout with it. A control ends in its submission tick: with NO_HANDLE, with STATE,
or with OK after it has suspended, resumed or cancelled its target. A timeout acts where CANCEL would. The operations complete with their RDATA. -/
def Obligations.CommandsRunThroughTheQueue : Prop :=
  (∀ (s : State) (h : HostPath) (v : Word), s.open h →
    let slot := getField v 0 6
    let d := s.descBytes slot
    let n := (s.gcur F.CMDQ_NSUB_NSUB + 1) % 2 ^ 26
    let c : CmdSt := ⟨slot, s.cmdq.seq, h.org, leAt d 0 1, leAt d 2 1, leAt d 1 1 % 2 == 1, leAt d 8 4, slice d 16 40, none, none, false, [], 0⟩
    let fr (u : State) : Prop := State.onlyIn [.hostif, .cmdq, .out] s u
    let rest (u : State) : Prop := ∀ k, k < 64 → k ≠ slot → u.cmdState k = s.cmdState k
    let same (u : State) : Prop := fr u ∧ u.cmdq = s.cmdq ∧ rest u ∧ u.cmdState slot = s.cmdState slot
    let numbered (u : State) : Prop := u.gcur F.CMDQ_NSUB_NSUB = n ∧ u.gword .cmdq (CMDQ_SLOT slot 1) = BitVec.ofNat 32 (n * 64 + slot)
    let taken (u : State) : Prop := fr u ∧ numbered u
    let free : Prop := bit v 31 = true ∧ s.cmdState slot = CS_FREE
    let absent : Prop := opChan c.op = true ∧ s.running c.chan = false
    let Sub := Instr.cmdSubmit h v
    let Rel := Instr.cmdRelease h v
    let closed : Prop := s.cmdState slot = CS_DONE ∨ s.cmdState slot = CS_CANCELLED ∨ s.cmdState slot = CS_FAILED
    (bit v 31 = false → Acts Sub s same ∧ Acts Rel s same) ∧
    (bit v 31 = true → s.cmdState slot ≠ CS_FREE → Acts Sub s (fun u => same u ∧ u.gcur F.CMDQ_STAT_SUB_ERR = 1)) ∧
    (free → descOk d = false → Acts Sub s (fun u => taken u ∧ s.ended u slot RES_FORMAT 0)) ∧
    (free → descOk d = true → absent → Acts Sub s (fun u => State.onlyIn [.hostif, .cmdq, .image, .out] s u ∧ numbered u ∧ s.ended u slot RES_ABSENT 0 ∧
      u.regs.image = (s.reqAbsent c.chan).regs.image)) ∧
    (free → descOk d = true → ¬ absent → Acts Sub s (fun u => taken u ∧ u.cmdState slot = CS_QUEUED ∧ u.gword .cmdq (CMDQ_SLOT slot 15) = 0 ∧ rest u ∧
      u.cmdq.cmds = s.cmdq.cmds ++ [c] ∧ u.cmdq.seq = s.cmdq.seq + 1)) ∧
    (bit v 31 = true → closed → Acts Rel s (fun u => fr u ∧ u.cmdq = s.cmdq ∧ rest u ∧ u.cmdState slot = CS_FREE ∧
      bit (u.gword .cmdq (CMDQ_ENDED (slot / 32))) (slot % 32) = false)) ∧
    (bit v 31 = true → ¬ closed → Acts Rel s (fun u => same u ∧ u.gcur F.CMDQ_STAT_REL_ERR = 1))) ∧
  (∀ (s : State) (slot : Fin 64), s.scanning = false →
    let k := slot.val
    let none' (i : Instr) : Prop := Acts i s (fun u => u = s.clear)
    let others (u : State) : Prop := ∀ j, j < 64 → j ≠ k → u.cmdState j = s.cmdState j
    let Start := Instr.cmdStart slot
    (s.cmdIn k CS_QUEUED = none → none' Start) ∧
    (∀ c, s.cmdIn k CS_QUEUED = some c →
      let may : Prop := opControl c.op = false ∧ s.resourceFree c = true ∧ s.firstWaiting c = true
      let timer := if c.timeout = 0 then none else some (s.tick + c.timeout * 200000)
      let snap := s.ch[c.chan].cur F.GNSS_SNAP_STAT_STATE
      (¬ may → none' Start) ∧
      (may → Acts Start s (fun u => State.onlyIn [.cmdq, .ch, .out] s u ∧ u.cmdState k = CS_RUNNING ∧ others u ∧
        u.cmd? k = some { c with timer := timer } ∧ (c.op ≠ 7 ∨ (snap ≠ SNAP_FULL ∧ snap ≠ SNAP_DONE) → u.ch = s.ch) ∧
        (c.op = 7 → (snap = SNAP_FULL ∨ snap = SNAP_DONE) → u.ch[c.chan].cur F.GNSS_SNAP_STAT_STATE = SNAP_PROCESSING ∧
          Channel.onlyIn [.gnss] s.ch[c.chan] u.ch[c.chan] ∧ ∀ m : ChanIx, m ≠ c.chan → u.ch[m] = s.ch[m])))) ∧
    let ends (i : Instr) (res rd : Nat) : Prop := Acts i s (fun u => State.onlyIn [.hostif, .cmdq, .out] s u ∧ s.ended u k res rd)
    let withdrawn (c : CmdSt) (j res : Nat) (u : State) : Prop := State.onlyIn [.hostif, .cmdq, .vault, .book, .tally, .twin, .bench, .pwr, .image, .ch, .free, .out] s u ∧
      u.cmdState j = endState res ∧ getField (u.gword .cmdq (CMDQ_SLOT j 14)) 8 8 = res ∧ u.cmd? j = none ∧ bit (u.gword .cmdq (CMDQ_ENDED (j / 32))) (j % 32) = true ∧
      (c.op ≠ 3 → u.gword .cmdq (CMDQ_SLOT j 15) = BitVec.ofNat 32 (if c.op = 6 ∨ c.op = 8 then c.done else 0))
    let Late := Instr.cmdTimeout slot
    (s.cmdIn k CS_RUNNING = none → none' Late ∧ ∀ f, none' (.cmdComplete slot f)) ∧
    (∀ c, s.cmdIn k CS_RUNNING = some c →
      let late : Prop := ∃ t, c.timer = some t ∧ t ≤ s.tick
      (¬ late → none' Late) ∧
      (late → s.cancelActs c = true → Acts Late s (fun u => withdrawn c k RES_TIMEOUT u ∧ others u)) ∧
      (late → s.cancelActs c = false → Acts Late s (fun u => State.onlyIn [.cmdq, .out] s u ∧ u.regs = s.regs ∧ u.cmd? k = some { c with timer := none })) ∧
      ∀ f,
        let Done := Instr.cmdComplete slot f
        let bad : Prop := f = true ∨ s.linkUp = false
        let left : Prop := c.done < leAt c.param 8 2
        let key := leAt c.buf 0 1
        let kept : Prop := attrAlg (s.vslot key).attr = 3 ∧ (s.deliver key RC_MINT).isSome = true
        (c.op ∉ [3, 4, 6, 8] → none' Done) ∧
        (c.op = 3 → ¬ (bad ∧ c.begun = false ∧ c.src = 0) → none' Done) ∧
        (c.op = 3 → bad → c.begun = false → c.src = 0 → ends Done RES_HOST_DMA (s.gword .image IMAGE_STAT).toNat) ∧
        (c.op = 4 → left → ¬ bad → none' Done) ∧ (c.op = 4 → left → bad → ends Done RES_HOST_DMA 0) ∧ (c.op = 4 → ¬ left → ends Done RES_OK 0) ∧
        (c.op = 6 ∨ c.op = 8 → ¬ bad → c.begun = false → none' Done) ∧
        (c.op = 6 → bad → ends Done RES_HOST_DMA c.done) ∧ (c.op = 6 → ¬ bad → c.begun = true → ends Done RES_OK c.done) ∧
        (c.op = 8 → bad → ends Done RES_HOST_DMA 0) ∧ (c.op = 8 → ¬ bad → c.begun = true → ¬ kept → ends Done RES_OP_ERROR 0) ∧
        (c.op = 8 → ¬ bad → c.begun = true → kept → Acts Done s (fun u => State.onlyIn [.hostif, .cmdq, .out] s u ∧ s.ended u k RES_OK ((c.buf.length - 1) / 100) ∧
          Output.hostMem (leAt c.param 8 8) (c.buf.drop 1) ∈ u.out))) ∧
    (∀ r ∈ [(Instr.cmdSuspend slot, 0x0A), (.cmdResume slot, 0x0B), (.cmdCancel slot, 0x0C)],
      let me := (s.cmdIn k CS_QUEUED).bind (fun c => if c.op = r.2 then some c else none)
      (me = none → none' r.1) ∧
      ∀ c, me = some c →
        let hd := leAt c.param 0 4
        let t := hd % 64
        let st := s.cmdState t
        let meets (x : CmdSt) : Prop := opControl x.op = false ∧ ((r.2 = 0x0A ∧ st = CS_RUNNING ∧ s.suspendActs x = true) ∨ (r.2 = 0x0B ∧ st = CS_SUSPENDED) ∨
          (r.2 = 0x0C ∧ (st = CS_QUEUED ∨ st = CS_SUSPENDED ∨ (st = CS_RUNNING ∧ s.cancelActs x = true))))
        let known : Prop := (s.gword .cmdq (CMDQ_SLOT t 1)).toNat = hd
        let good (u : State) : Prop := u.cmdState k = CS_DONE ∧ getField (u.gword .cmdq (CMDQ_SLOT k 14)) 8 8 = RES_OK ∧ u.cmd? k = none
        (¬ known → ends r.1 RES_NO_HANDLE 0) ∧
        (known → (∀ x, s.cmd? t = some x → ¬ meets x) → ends r.1 RES_STATE 0) ∧
        ∀ x, known → s.cmd? t = some x → meets x →
          let rests (u : State) : Prop := ∀ j, j < 64 → j ≠ k → j ≠ t → u.cmdState j = s.cmdState j
          let acts : Prop := x.begun = true ∧ s.running x.chan = true
          let halted (b : Bool) (u : State) : Prop := (x.op = 1 → acts → u.ch[x.chan].gnss.survey = s.ch[x.chan].gnss.survey.map (fun o => { o with suspended := b })) ∧
            (x.op = 2 → acts → u.ch[x.chan].dpll.char = s.ch[x.chan].dpll.char.map (fun o => { o with suspended := b }))
          (r.2 = 0x0A → Acts r.1 s (fun u => State.onlyIn [.hostif, .cmdq, .ch, .out] s u ∧ good u ∧ rests u ∧ u.cmdState t = CS_SUSPENDED ∧ halted true u ∧
            u.cmd? t = some { x with timer := none, left := x.timer.map (fun n => n - s.tick) })) ∧
          (r.2 = 0x0B → Acts r.1 s (fun u => State.onlyIn [.hostif, .cmdq, .tally, .twin, .ch, .out] s u ∧ ((x.op = 5 → ∀ d, s.twin.drill = some d → d.slot = t) → good u ∧ rests u) ∧ (x.op ≠ 5 → u.cmdState t = CS_RUNNING ∧ halted false u ∧
            u.cmd? t = some { x with timer := x.left.map (fun n => s.tick + n), left := none }))) ∧
          (r.2 = 0x0C → Acts r.1 s (fun u => withdrawn x t RES_CANCELLED u ∧ good u ∧ rests u))) ∧
    (s.running? k 9 = none → none' (.cmdSelfTest slot)) ∧
    (∀ c, s.running? k 9 = some c → (c.begun = true → none' (.cmdSelfTest slot)) ∧
      (c.begun = false → Acts (.cmdSelfTest slot) s (fun u => State.onlyIn [.cmdq, .pwr, .out] s u ∧ u.regs = s.regs ∧ u.pwr = { s.pwr with selfTest := some k } ∧
        u.cmd? k = some { c with begun := true }))) ∧
    (s.running? k 6 = none → none' (.cmdTallyExport slot)) ∧
    ∀ c, s.running? k 6 = some c → (c.begun = true ∨ c.buf = [] → none' (.cmdTallyExport slot)) ∧
      (c.begun = false → c.buf ≠ [] → s.linkUp = false → ends (.cmdTallyExport slot) RES_HOST_DMA 0) ∧
      (c.begun = false → c.buf ≠ [] → s.linkUp = true → Acts (.cmdTallyExport slot) s (fun u => State.onlyIn [.cmdq, .out] s u ∧ u.regs = s.regs ∧
        u.out = [.hostMem (leAt c.param 0 8) c.buf] ∧ u.cmd? k = some { c with begun := true, done := EXPORT_LEN })))

/-! ### PCIe, the memory window, the management SPI -/

/-- The host's paths (R379 to R385, R439): a link that goes down ends with HOST_DMA the commands that move data; a function level reset resets the MSI-X table and INT_CFG and
cancels the PCIe path's commands; a link that comes up sends the messages that wait. A write of WIN_MEM stores four bytes in a host transmit ring and none elsewhere. An MSPI frame is
counted and answered: with its word, with the STATUS of the access, with CRC or OP where it is bad, which raises FS34. The scan entry is taken in its start-up stage alone; in
scan mode PWR and CLKGEN are read, and the balls that are testable are driven and sensed. -/
def Obligations.HostPathsReachTheDevice : Prop :=
  (∀ (s : State) (speed width : Fin 8), s.scanning = false →
    let fr (u : State) : Prop := State.onlyIn [.hostif, .cmdq, .out] s u
    let Up := Instr.pcieLinkUp speed width
    let up : Prop := s.linkUp = false ∧ s.clocked = true ∧ s.gcur F.PWR_RST_CAUSE_BOOTSEL ≠ 1 ∧ (1 ≤ speed.val ∧ speed.val ≤ 4) ∧ (1 ≤ width.val ∧ width.val ≤ 3)
    let pend (t : State) (k : Nat) : Bool := bit (t.gword .hostif (0x9000 + 4 * (k / 32))) (k % 32)
    let slots : Prop := ∀ c ∈ s.cmdq.cmds, c.slot < 64
    let mine (c : CmdSt) : Prop := match c.org with | .pcie _ => True | _ => False
    (¬ up → Acts Up s (fun u => u = s.clear)) ∧
    (up → Acts Up s (fun u => State.onlyIn [.hostif, .out] s u ∧ u.linkUp = true ∧ u.gcur F.HOSTIF_PCIE_STAT_SPEED = speed.val ∧ u.gcur F.HOSTIF_PCIE_STAT_WIDTH = width.val ∧
      ∀ k, k < 64 → if pend s k = true ∧ s.msixMasked k = false then k ∈ u.host.sent ∧ pend u k = false else pend u k = pend s k)) ∧
    (s.linkUp = false → Acts .pcieLinkDown s (fun u => u = s.clear) ∧ Acts .pcieFlr s (fun u => u = s.clear)) ∧
    (s.linkUp = true → slots → Acts .pcieLinkDown s (fun u => fr u ∧ u.linkUp = false ∧ u.gcur F.HOSTIF_PCIE_STAT_SPEED = 0 ∧ u.gcur F.HOSTIF_PCIE_STAT_WIDTH = 0 ∧
      ∀ k, k < 64 →
        ((∃ c ∈ s.cmdq.cmds, c.slot = k ∧ s.movesHost c = true) → u.cmdState k = CS_FAILED ∧ getField (u.gword .cmdq (CMDQ_SLOT k 14)) 8 8 = RES_HOST_DMA ∧ u.cmd? k = none) ∧
        ((∀ c ∈ s.cmdq.cmds, c.slot = k → s.movesHost c = false) → u.cmdState k = s.cmdState k ∧ u.cmd? k = s.cmd? k))) ∧
    (s.linkUp = true → slots → Acts .pcieFlr s (fun u =>
      State.onlyIn [.hostif, .cmdq, .vault, .book, .tally, .twin, .bench, .pwr, .image, .ch, .free, .out] s u ∧ u.linkUp = true ∧
      (∀ off, 0x8000 ≤ off → off < 0x8400 → u.gword .hostif off = gbRst .hostif off) ∧ u.gword .hostif HOSTIF_INT_CFG = gbRst .hostif HOSTIF_INT_CFG ∧
      u.gcur F.HOSTIF_PCIE_STAT_FLR = (s.gcur F.HOSTIF_PCIE_STAT_FLR + 1) % 65536 ∧
      (∀ k, k < 64 → (∀ c ∈ s.cmdq.cmds, c.slot = k → ¬ mine c) → u.cmdState k = s.cmdState k) ∧
      ∀ c ∈ s.cmdq.cmds, mine c → (∀ x ∈ s.cmdq.cmds, x.slot = c.slot ∨ (x.op = 3 ∧ c.op = 3) → x = c) →
        let stays : Prop := s.cmdState c.slot = CS_RUNNING ∧ s.cancelActs c = false
        (stays → u.cmdState c.slot = CS_RUNNING) ∧
        (¬ stays → u.cmdState c.slot = CS_CANCELLED ∧ getField (u.gword .cmdq (CMDQ_SLOT c.slot 14)) 8 8 = RES_CANCELLED ∧ u.cmd? c.slot = none)))) ∧
  (∀ (s : State) (p : HostPath) (a : Nat) (v : Word), s.scanning = false →
    let n : ChanIx := Fin.ofNat 4 (a / SLICE)
    let ring : Prop := HTX_BASE ≤ a % SLICE ∧ a % SLICE < HTX_BASE + 2 * HTX_RING
    let ok : Prop := a % 4 = 0 ∧ a < MEM_SIZE
    let Wr := Instr.winMemWrite p a v
    let good : Prop := s.pathUp p = true ∧ ok
    let lost (u : State) : Prop := State.onlyIn [.hostif, .fault, .out] s u ∧ u.gcur F.FAULT_SAFE_STAT_WDISC = min 65535 (s.gcur F.FAULT_SAFE_STAT_WDISC + 1)
    let away (u : State) : Prop := State.onlyIn [.hostif, .image, .out] s u ∧ bit (u.gword .image IMAGE_ABSENT) n.val = true
    let stored (u : State) : Prop := State.onlyIn [.hostif, .mem, .out] s u ∧ (∀ k, k < 4 → u.htxAt (a + k) = BitVec.ofNat 8 (v.toNat / 256 ^ k)) ∧
      ∀ b, b < a ∨ a + 4 ≤ b → u.htxAt b = s.htxAt b
    let dropped (u : State) : Prop := State.onlyIn [.hostif, .out] s u ∧ u.gcur F.HOSTIF_MEM_WDISC_WDISC = (s.gcur F.HOSTIF_MEM_WDISC_WDISC + 1) % 2 ^ 32 ∧ ∀ b, u.htxAt b = s.htxAt b
    (¬ good → Acts Wr s (fun u => u = s.clear)) ∧
    (good → s.safe = true → Acts Wr s lost) ∧ (good → s.safe = false → s.running n = false → Acts Wr s away) ∧
    (good → s.safe = false → s.running n = true → ring → Acts Wr s stored) ∧ (good → s.safe = false → s.running n = true → ¬ ring → Acts Wr s dropped) ∧
    ∀ bs : Bytes, fAddr bs = a → fData bs = v → s.pathUp .mspi = true → frameGood bs = true →
      let framed (u : State) : Prop := u.gcur F.HOSTIF_MSPI_STAT_FRAMES = (s.gcur F.HOSTIF_MSPI_STAT_FRAMES + 1) % 65536
      let answers (st : Nat) (u : State) : Prop := framed u ∧ ∃ o, u.out = o ++ [Output.mspi (answerW (ST_OK + st))]
      let tells (st : Nat) (w : Word) (u : State) : Prop := framed u ∧ ∃ o, u.out = o ++ [Output.mspi (answerR (ST_OK + st) w)]
      let Wm := Instr.mspiMemoryWrite bs
      let Rm := Instr.mspiMemoryRead bs
      let s1 := s.clear.gbump F.HOSTIF_MSPI_STAT_FRAMES
      (fOp bs = OP_WMEM → ok →
        (s.safe = true → Acts Wm s (fun u => lost u ∧ answers ST_DISCARD u)) ∧ (s.safe = false → s.running n = false → Acts Wm s (fun u => away u ∧ answers ST_ABSENT u)) ∧
        (s.safe = false → s.running n = true → ring → Acts Wm s (fun u => stored u ∧ answers 0 u)) ∧
        (s.safe = false → s.running n = true → ¬ ring → Acts Wm s (fun u => dropped u ∧ answers 0 u))) ∧
      (fOp bs = OP_RMEM → ok →
        (s.running n = false → Acts Rm s (fun u => away u ∧ tells ST_ABSENT 0xFFFFFFFF#32 u)) ∧
        (s.running n = true → Acts Rm s (fun u => State.onlyIn [.hostif, .free, .out] s u ∧ ∃ w, tells 0 w u ∧ w = (s1.sliceRead n (a % SLICE)).1 ∧
          (ring → w = BitVec.ofNat 32 (fromLe ((List.range 4).map (fun k => s.htxAt (SLICE * n.val + a % SLICE + k))))) ∧
          (0x7100000 ≤ a % SLICE → a % SLICE < 0x7140000 →
            w = leWordAt s.twin.rx[n].slots[(Fin.ofNat 4 ((a % SLICE - 0x7100000) / 0x10000) : Fin 4)] ((a % SLICE - 0x7100000) % 0x10000 / 4)) ∧
          (a % SLICE < 0x1000000 → w = leWordAt s.img[n].slot0 (a % SLICE / 4)) ∧
          (0x1000000 ≤ a % SLICE → a % SLICE < 0x2000000 → w = leWordAt s.img[n].slot1 ((a % SLICE - 0x1000000) / 4))))) ∧
      let reach := s.route a
      (fOp bs = OP_RREG → reach ≠ .bad →
        let r := s1.hostRead a
        Acts (.mspiRegisterRead bs) s (fun u => u = r.2.emit (.mspi (answerR (ST_OK + match reach with | .absent _ => ST_ABSENT | _ => 0) r.1)))) ∧
      (fOp bs = OP_WREG → reach ≠ .bad →
        let t := s1.writeAt .mspi a v
        let st := if s.safe = true ∧ State.safeWritable reach = false then ST_DISCARD else match reach with | .absent _ => ST_ABSENT | _ => 0
        t.rated → Acts (.mspiRegisterWrite bs) s (fun u => u = t.emit (.mspi (answerW (ST_OK + st)))))) ∧
  ∀ (s : State) (bs : Bytes) (level : Bool),
    let read := Instr.mspiRegisterRead bs
    let drive := Instr.mspiBallDrive bs
    let sense := Instr.mspiBallSense bs level
    let gives (i : Instr) (t : State) : Prop := Completes i s (fun u => u = t)
    let enters : Prop := fAddr bs = 0x5CA70001 ∧ fData bs = 0#32 ∧ s.gcur F.PWR_RST_CAUSE_BOOTSEL = 2 ∧ s.stage = BOOT_WAIT ∧ s.loadStarted = false
    let bad : Instr × Nat × Prop → Prop := fun r => frameGood bs = false ∨ fOp bs ≠ r.2.1 ∨ r.2.2
    (s.scanning = false → s.rated →
      ∀ r ∈ [(read, OP_RREG, s.route (fAddr bs) = .bad), (.mspiRegisterWrite bs, OP_WREG, s.route (fAddr bs) = .bad),
          (.mspiMemoryRead bs, OP_RMEM, State.memOk (fAddr bs) = false), (.mspiMemoryWrite bs, OP_WMEM, State.memOk (fAddr bs) = false),
          (.mspiScanEntry bs, OP_SCAN, ¬ enters), (drive, OP_DRIVE, True), (sense, OP_SENSE, True)],
        let other : Prop := s.pathUp .mspi = false ∨ (opKnown (fOp bs) = true ∧ fOp bs ≠ r.2.1)
        (other → Acts r.1 s (fun u => u = s.clear)) ∧
        (¬ other → bad r → Acts r.1 s (fun u => State.onlyIn [.hostif, .cmdq, .fault, .vault, .book, .tally, .twin, .bench, .pwr, .image, .ch, .free, .out] s u ∧
          u.gcur F.HOSTIF_MSPI_STAT_FRAMES = (s.gcur F.HOSTIF_MSPI_STAT_FRAMES + 1) % 65536 ∧
          u.gcur F.HOSTIF_MSPI_STAT_CRC_ERR = (s.gcur F.HOSTIF_MSPI_STAT_CRC_ERR + 1) % 65536 ∧ u.gcur (F.FAULT_SRC_STAT_REAL 34) = 1 ∧
          let st := if frameGood bs = false then ST_CRC else ST_OP
          ∃ o w, u.out = o ++ [Output.mspi (if opRead (fOp bs) = true then answerR st w else answerW st)]))) ∧
    (s.scanning = false → s.pathUp .mspi = true → frameGood bs = true → fOp bs = OP_SCAN → enters → Acts (.mspiScanEntry bs) s (fun u =>
      State.onlyIn [.hostif, .vault, .book, .tally, .pwr, .free, .out] s u ∧ u.pwr = { s.pwr with scan := true, balls := [] } ∧ u.stage = BOOT_SCAN ∧
      u.vault = { s.vault with seed := none, own := OWN_ORPHANED } ∧ ∃ o, u.out = o ++ [Output.mspi (answerW ST_OK)])) ∧
    (s.scanning = true → s.pathUp .mspi = false → gives read s.clear ∧ gives drive s.clear ∧ gives sense s.clear) ∧
    (s.scanning = true → s.pathUp .mspi = true → frameGood bs = false →
      (fOp bs = OP_DRIVE → gives drive { s with out := [.mspi (answerW ST_CRC)] }) ∧
      ∀ r ∈ [(read, OP_RREG), (sense, OP_SENSE)], fOp bs = r.2 → Completes r.1 s (fun u => ∃ w, u = { s with out := [.mspi (answerR ST_CRC w)], freeCtr := s.freeCtr + 1 })) ∧
    (s.scanning = true → s.pathUp .mspi = true → frameGood bs = true →
      let test := testable (State.ballRow bs) (State.ballCol bs)
      let d := (fData bs).toNat % 4
      (fOp bs ≠ OP_RREG → gives read s.clear) ∧ (fOp bs ≠ OP_DRIVE → gives drive s.clear) ∧ (fOp bs ≠ OP_SENSE → gives sense s.clear) ∧
      (∀ b off, fOp bs = OP_RREG → s.route (fAddr bs) = .common b off → b = .pwr ∨ b = .clkgen →
        gives read { s with out := [.mspi (answerR ST_OK (s.gShow b off))] }) ∧
      (fOp bs = OP_RREG → (∀ b off, s.route (fAddr bs) = .common b off → b ≠ .pwr ∧ b ≠ .clkgen) → gives read s.clear) ∧
      (fOp bs = OP_DRIVE → test = true → d ≠ 3 → gives drive
        { s with pwr := { s.pwr with balls := smPut 0 s.pwr.balls (State.ballRow bs * 256 + State.ballCol bs) d }, out := [.mspi (answerW ST_OK)] }) ∧
      (fOp bs = OP_DRIVE → test = false ∨ d = 3 → gives drive { s with out := [.mspi (answerW ST_OP)] }) ∧
      (fOp bs = OP_SENSE → test = true → gives sense { s with out := [.mspi (answerR ST_OK (BitVec.ofNat 32 (b2n level)))] }) ∧
      (fOp bs = OP_SENSE → test = false → Completes sense s (fun u => ∃ w, u = { s with out := [.mspi (answerR ST_OP w)], freeCtr := s.freeCtr + 1 })))

/-! ### Performance counters, the tally, the cellar book's windows -/

/-- Counts and windows (R400 to R402, R409, R411 to R414, R418): a SNAP copies the slot counters, INFL and the tick; a capture slot gives the lowest counter that waits for it its sample and
counts the others as missed; a window's end shows its bytes, frames and peaks; a write of WIN discards the running window. Each second out of reset counts into POH and the
histograms. An update of the tally starts on its schedule or at UPD_NOW, is rejected within 60 s of the last, and becomes valid at its commit point. A window of the book starts with
the held entries; GO shows the entry or signature record asked for, or GONE, once what the tick has written
so far is in the book; setting the mirror's EN clears its pointers. -/
def Obligations.CountersTallyAndBookWindows : Prop :=
  (∀ (s : State) (h : HostPath) (c : ChanIx) (v : Word) (p : PortIx), s.open h → s.running c = true →
    let ch := s.ch[c]
    let fr (d : Channel) : Prop := Channel.onlyIn [.pmu] ch d
    let b := ch.pmu
    let same (d : Channel) : Prop := fr d ∧ d.pmu = b
    let win := getField v 0 20
    let t := win * 200
    let w48 (d : Channel) (lo hi n : Nat) : Prop := d.word .pmu lo = BitVec.ofNat 32 n ∧ d.word .pmu hi = BitVec.ofNat 32 (n / 2 ^ 32 % 65536)
    (bit v 31 = true → ActsOn (.pmuTdSnap h c v) s c (fun d => same d ∧
      w48 d (PMU_S_LO 0) (PMU_S_HI 0) ((b.ret + b.was + b.fro + b.bak) % 2 ^ 48) ∧ w48 d (PMU_S_LO 1) (PMU_S_HI 1) (b.ret % 2 ^ 48) ∧
      w48 d (PMU_S_LO 2) (PMU_S_HI 2) (b.was % 2 ^ 48) ∧ w48 d (PMU_S_LO 3) (PMU_S_HI 3) (b.fro % 2 ^ 48) ∧ w48 d (PMU_S_LO 4) (PMU_S_HI 4) (b.bak % 2 ^ 48) ∧
      d.word .pmu PMU_S_INFL = BitVec.ofNat 32 b.infl ∧ d.word .pmu (PMU_S_TICK 0) = BitVec.ofNat 32 ch.jour.tick ∧
      d.word .pmu (PMU_S_TICK 1) = BitVec.ofNat 32 (ch.jour.tick / 2 ^ 32))) ∧
    (bit v 31 = false → ActsOn (.pmuTdSnap h c v) s c (fun d => same d ∧ ∀ k, k ≠ PMU_TD_CTL → d.word .pmu k = ch.word .pmu k)) ∧
    (1 ≤ win ∧ win ≤ 1000000 → ActsOn (.bwCfgWrite h c v) s c (fun d => fr d ∧ d.cur F.PMU_BW_CFG_WIN = win ∧
      d.pmu = { b with bwFrom := (ch.jour.tick / t + 1) * t, bw := Vector.replicate 2 ⟨0, 0, 0, 0, false⟩ } ∧
      ∀ q, q < 2 → w48 d (PMU_P_PKTX_LO q) (PMU_P_PKTX_HI q) 0 ∧ w48 d (PMU_P_PKRX_LO q) (PMU_P_PKRX_HI q) 0)) ∧
    (¬ (1 ≤ win ∧ win ≤ 1000000) → ActsOn (.bwCfgWrite h c v) s c same) ∧
    (bit v 31 = true → ActsOn (.pkClrWrite h c p v) s c (fun d => fr d ∧ d.pmu = { b with bw := b.bw.set p { b.bw[p] with clr := true } })) ∧
    (bit v 31 = false → ActsOn (.pkClrWrite h c p v) s c same)) ∧
  (∀ (s : State) (c : ChanIx) (smp : PmuSample), s.live c →
    let ch := s.ch[c]
    let b := ch.pmu
    let t := ch.fld F.PMU_BW_CFG_WIN * 200
    let ends : Prop := t ≠ 0 ∧ ch.jour.tick % t = 0 ∧ b.bwFrom + t ≤ ch.jour.tick
    let w48 (d : Channel) (lo hi n : Nat) : Prop := d.word .pmu lo = BitVec.ofNat 32 n ∧ d.word .pmu hi = BitVec.ofNat 32 (n / 2 ^ 32 % 65536)
    let peak (p : PortIx) (lo hi n : Nat) : Nat := max (if b.bw[p].clr = true then 0 else (ch.word .pmu lo).toNat + 2 ^ 32 * (ch.word .pmu hi).toNat) n
    let Cap := Instr.pmuCounterWrap c smp
    let cap (x : Nat × Nat) : Nat := x.2 + (8 - x.2 % 8) % 8
    (b.wraps = [] → ActsOn Cap s c (fun d => d = ch)) ∧
    (∀ w ∈ b.wraps, ∀ e, e = cap w → (∀ x ∈ b.wraps, e ≤ cap x) → (∀ x ∈ b.wraps, cap x = e → w.1 ≤ x.1 ∧ (x.1 = w.1 → x = w)) →
      let others := (b.wraps.filter (fun x => cap x == e)).length - 1
      (ch.jour.tick < e / 4 → ActsOn Cap s c (fun d => d = ch)) ∧
      (e / 4 ≤ ch.jour.tick → ActsOn Cap s c (fun d => Channel.onlyIn [.pmu, .asks] ch d ∧
        d.pmu = { b with
          wraps := b.wraps.filter (fun x => cap x != e),
          samples := ({ smp with tick := e / 4, seq := b.seq % 2 ^ 32, ctr := w.1, skid := e - w.2 } :: b.samples).take 256, seq := b.seq + 1 } ∧
        d.cur F.PMU_SAMP_STAT_WPTR = (b.seq + 1) % 256 ∧ d.cur F.PMU_EVT_SAMP = 1 ∧ d.cur F.PMU_SAMP_STAT_MISSED = (ch.cur F.PMU_SAMP_STAT_MISSED + others) % 65536 ∧
        (0 < others → d.cur F.PMU_EVT_MISSED = 1)))) ∧
    (¬ ends → ActsOn (.bwWindowEnd c) s c (fun d => d = ch)) ∧
    (ends → ActsOn (.bwWindowEnd c) s c (fun d => Channel.onlyIn [.pmu] ch d ∧ d.pmu = { b with bw := Vector.replicate 2 ⟨0, 0, 0, 0, false⟩ } ∧
      ∀ p : PortIx,
        let q := p.val
        w48 d (PMU_P_TXB_LO q) (PMU_P_TXB_HI q) b.bw[p].txb ∧ w48 d (PMU_P_RXB_LO q) (PMU_P_RXB_HI q) b.bw[p].rxb ∧
        d.word .pmu (PMU_P_TXF q) = BitVec.ofNat 32 b.bw[p].txf ∧ d.word .pmu (PMU_P_RXF q) = BitVec.ofNat 32 b.bw[p].rxf ∧
        w48 d (PMU_P_PKTX_LO q) (PMU_P_PKTX_HI q) (peak p (PMU_P_PKTX_LO q) (PMU_P_PKTX_HI q) b.bw[p].txb) ∧
        w48 d (PMU_P_PKRX_LO q) (PMU_P_PKRX_HI q) (peak p (PMU_P_PKRX_LO q) (PMU_P_PKRX_HI q) b.bw[p].rxb) ∧
        d.word .pmu (PMU_P_WSEQ q) = ch.word .pmu (PMU_P_WSEQ q) + 1))) ∧
  (∀ (s : State) (h : HostPath) (v : Word) (tj : Int) (va vb : Nat), s.scanning = false →
    let T := s.tally
    let toB : Prop := ¬ (T.copyA = none ∧ T.copyB = none) ∧ s.tallyLastB = false
    let fr (u : State) : Prop := State.onlyIn [.hostif, .tally, .out] s u
    let starts (u : State) : Prop := State.onlyIn [.hostif, .tally, .image, .out] s u ∧ u.gcur F.TALLY_STAT_BUSY = 1 ∧
      (∀ n : ChanIx, u.gcur (F.IMAGE_CH_DROP_REQ_ABSENT n.val) = (s.gcur (F.IMAGE_CH_DROP_REQ_ABSENT n.val) + b2n (!s.running n)) % 65536) ∧
      (toB → u.tally = { T with copyB := none, upd := some (s.tallySeq + 1, true, T.cur), lastUpd := some s.tick }) ∧
      (¬ toB → u.tally = { T with copyA := none, upd := some (s.tallySeq + 1, false, T.cur), lastUpd := some s.tick })
    let due : Prop := s.clocked = true ∧ 0 < s.tick ∧ s.tick % 120000000000 = 0 ∧ T.upd = none ∧ T.lastUpd ≠ some s.tick
    let barred : Prop := T.upd ≠ none ∨ ∃ t, T.lastUpd = some t ∧ s.tick < t + 12000000000
    let Now := Instr.tallyUpdNow h v
    let Poh := Instr.pohSecondCount tj va vb
    let active (n : Nat) : Nat := s.gcur (F.FAULT_SRC_STAT_ACTIVE n)
    (due → Acts .tallyUpdateStart s starts) ∧ (¬ due → Acts .tallyUpdateStart s (fun u => u = s.clear)) ∧
    (s.open h → bit v 31 = false → Acts Now s (fun u => fr u ∧ u.tally = T)) ∧
    (s.open h → bit v 31 = true → ¬ barred → Acts Now s starts) ∧
    (s.open h → bit v 31 = true → barred → Acts Now s (fun u => fr u ∧ u.tally = T ∧ u.gcur F.TALLY_STAT_UPD_REJ = 1)) ∧
    (T.upd = none → Acts .tallyUpdateCommit s (fun u => u = s.clear)) ∧
    (∀ n b r, T.upd = some (n, b, r) → Acts .tallyUpdateCommit s (fun u => fr u ∧ u.gcur F.TALLY_STAT_BUSY = 0 ∧ u.gcur F.TALLY_EVT_UPD = 1 ∧ u.tally.upd = none ∧
      u.tally.copyA = (if b = true then T.copyA else some (n, r)) ∧ u.tally.copyB = (if b = true then some (n, r) else T.copyB) ∧ u.tally.lastUpd = T.lastUpd ∧
      u.tally.cur = { T.cur with wear := T.cur.wear.set 0 (T.cur.wear[0] + 1) })) ∧
    let second : Prop := s.clocked = true ∧ s.tick % 200000000 = 0 ∧ T.pohAt < s.tick
    (¬ second → Acts Poh s (fun u => u = s.clear)) ∧
    (second → Acts Poh s (fun u => u.tally.pohAt = s.tick ∧
      State.onlyIn [.hostif, .cmdq, .fault, .vault, .book, .tally, .twin, .bench, .pwr, .image, .ch, .free, .out] s u ∧
      u.tally.cur.poh = min (2 ^ 64 - 1) (T.cur.poh + 1) ∧ u.tally.cur.tj = bucketInc T.cur.tj (tjBucket tj) ∧ u.tally.cur.vina = bucketInc T.cur.vina (vinBucket va) ∧
      u.tally.cur.vinb = bucketInc T.cur.vinb (vinBucket vb) ∧ u.gcur F.PWR_TJ_TJ = unsigned 16 tj % 65536 ∧ u.gcur F.PWR_VIN_VINA = min 65535 va ∧
      u.gcur F.PWR_VIN_VINB = min 65535 vb ∧
      ∀ r ∈ [(11, (1760 : Int)), (12, 2000)], (r.2 < tj → u.gcur (F.FAULT_SRC_STAT_ACTIVE r.1) = 1 ∧ (active r.1 = 0 → u.gcur (F.FAULT_SRC_STAT_REAL r.1) = 1)) ∧
        (tj ≤ r.2 → u.gcur (F.FAULT_SRC_STAT_ACTIVE r.1) = 0)))) ∧
  ∀ (s : State) (h : HostPath) (v : Word), s.scanning = false →
    let B := s.book
    let starts : Prop := s.clocked = true ∧ s.tick % 20000000 = 0
    let bare (l : List BookEnt) : List BookEnt := l.map (fun e => { e with seq := 0, link := [] })
    let n := s.get64 .book (BOOK_RD_SEQ 0)
    let sig := bit v 30
    let found : Option Bytes := if sig = true then (B.sigs.find? (fun r => decide (r.seqLast < n + 256) && decide (n ≤ r.seqLast))).map (·.bytes)
      else (B.ring.find? (fun e => e.seq == n)).map BookEnt.bytes
    let fr (u : State) : Prop := State.onlyIn [.hostif, .book, .out] s u ∧ u.book = B
    let Go := Instr.bookRdGo h v
    let Mir := Instr.mirrorEnable h v
    let bfr (u : State) : Prop := State.onlyIn [.hostif, .book, .tally, .free, .out] s u
    let l2 := getField v 0 5
    (¬ starts → Acts .bookWindowStart s (fun u => u = s.clear)) ∧
    (starts → Acts .bookWindowStart s (fun u => bfr u ∧ u.book.count = B.buf.length ∧ u.book.buf = [] ∧ u.book.next = B.next + B.buf.length ∧
      ∃ new, u.book.ring = (new ++ B.ring).take 32768 ∧ bare new.reverse = bare B.buf)) ∧
    (s.pathUp h = true → bit v 31 = false → Acts Go s (fun u => fr u ∧ ∀ k, u.gword .book (BOOK_RD_DATA k) = s.gword .book (BOOK_RD_DATA k))) ∧
    (s.pathUp h = true → bit v 31 = true → B.ring.length ≤ 32768 → Acts Go s (fun u => bfr u ∧ u.book.acc = [] ∧ B.grows u.book ∧
      (u.gcur F.BOOK_RD_CTL_DONE = 1 ∨ u.gcur F.BOOK_RD_CTL_GONE = 1))) ∧
    (∀ bs, s.pathUp h = true → bit v 31 = true → B.acc = [] → found = some bs → Acts Go s (fun u => fr u ∧ u.gcur F.BOOK_RD_CTL_DONE = 1 ∧
      ∀ k, k < bs.length / 4 → u.gword .book (BOOK_RD_DATA k) = leWordAt bs k)) ∧
    (s.pathUp h = true → bit v 31 = true → B.acc = [] → found = none → Acts Go s (fun u => fr u ∧ u.gcur F.BOOK_RD_CTL_GONE = 1 ∧
      ∀ k, u.gword .book (BOOK_RD_DATA k) = s.gword .book (BOOK_RD_DATA k))) ∧
    (s.pathUp h = true → s.gflag F.BOOK_MIR_CFG_EN = true → Acts Mir s (fun u => u = s.clear)) ∧
    (s.pathUp h = true → s.gflag F.BOOK_MIR_CFG_EN = false → Acts Mir s (fun u => bfr u ∧ u.gflag F.BOOK_MIR_CFG_EN = bit v 31 ∧
      u.gcur F.BOOK_MIR_CFG_LOG2N = (if 6 ≤ l2 ∧ l2 ≤ 20 then l2 else s.gcur F.BOOK_MIR_CFG_LOG2N) ∧ (∃ e, u.book = { B with acc := B.acc ++ [e] }) ∧
      (bit v 31 = true → u.gcur F.BOOK_MIR_RPTR_RPTR = 0 ∧ u.gcur F.BOOK_MIR_WPTR_WPTR = 0) ∧
      (bit v 31 = false → u.gcur F.BOOK_MIR_WPTR_WPTR = s.gcur F.BOOK_MIR_WPTR_WPTR)))

/-! ### Clocks, feeds, start-up -/

/-- Clocks, feeds and the stages of start-up (R424, R426, R430, R432 to R434, R440, R441): a count within 8 % of an accepted frequency begins stage ROOT; a lost MOSC puts the
LOCKED roots into HOLD and raises FS5, its return puts them into ACQ; a root locks, or loses lock and raises its source. A feed that leaves its range stops being GOOD and raises
FS8 or FS9; FEEDS_OK holds while both are GOOD and passed their last check; a check of 5 ms passes at or above 4.5 V without a limit, and fails at once on a missing feed or below 4.3 V. Each stage ends
in the next: the rails with BOOTSEL, ROOT with the switch, FEEDCHK with both checks, VAULT with the seed and the store, LOADING with the unit's Reset row. -/
def Obligations.ClocksFeedsAndStartUp : Prop :=
  (∀ (s : State) (count : Nat) (r : Fin 5), s.scanning = false →
    let f := State.moscFreq count
    let fr (u : State) : Prop := State.onlyIn [.hostif, .fault, .clkgen, .out] s u
    let big (u : State) : Prop := State.onlyIn [.hostif, .cmdq, .fault, .vault, .book, .tally, .twin, .bench, .clkgen, .pwr, .image, .ch, .free, .out] s u
    let idle (i : Instr) : Prop := Acts i s (fun u => u = s.clear)
    let there : Prop := s.gflag F.CLKGEN_MOSC_STAT_PRESENT = true
    let may : Prop := s.powered = true ∧ s.stage = BOOT_MOSC ∧ s.pwr.resetN = true ∧ f ≠ 0
    let back : Prop := s.powered = true ∧ s.gcur F.CLKGEN_MOSC_STAT_FREQ ≠ 0
    let k := r.val
    let src := State.rootSrc k
    let kept (u : State) : Prop := ∀ j, j < 5 → j ≠ k → u.rootSt j = s.rootSt j
    let relocks (u : State) (j : Nat) : Prop := u.gcur (F.CLKGEN_ROOT_STAT_RELOCKS j) = (s.gcur (F.CLKGEN_ROOT_STAT_RELOCKS j) + 1) % 65536
    (∀ e ∈ [(1, 1000), (2, 2000), (3, 2500), (4, 5000), (5, 10000)], 92 * e.2 ≤ 100 * count → 100 * count ≤ 108 * e.2 → f = e.1) ∧
    ((∀ e ∈ [1000, 2000, 2500, 5000, 10000], 100 * count < 92 * e ∨ 108 * e < 100 * count) → f = 0) ∧
    (¬ may → idle (.moscDetect count)) ∧
    (may → Acts (.moscDetect count) s (fun u => State.onlyIn [.hostif, .clkgen, .pwr, .out] s u ∧ u.pwr = s.pwr ∧ u.stage = BOOT_ROOT ∧ u.rootSt 0 = 1 ∧
      u.gcur F.CLKGEN_MOSC_STAT_FREQ = f ∧ u.gcur F.CLKGEN_MOSC_STAT_PRESENT = 1 ∧ u.gcur F.CLKGEN_EVT_MOSC = 1)) ∧
    (¬ there → idle .moscLost) ∧
    (there → Acts .moscLost s (fun u => big u ∧ u.gcur F.CLKGEN_MOSC_STAT_PRESENT = 0 ∧ u.gcur F.CLKGEN_EVT_MOSC = 1 ∧
      u.gcur F.CLKGEN_MOSC_STAT_LOSSES = (s.gcur F.CLKGEN_MOSC_STAT_LOSSES + 1) % 65536 ∧ u.gcur (F.FAULT_SRC_STAT_ACTIVE 5) = 1 ∧ u.gcur (F.FAULT_SRC_STAT_REAL 5) = 1 ∧
      ∀ j, j < 5 → (s.rootSt j = 2 → u.rootSt j = 3 ∧ relocks u j) ∧ (s.rootSt j ≠ 2 → u.rootSt j = s.rootSt j))) ∧
    (¬ back → idle .moscReturn) ∧
    (back → Acts .moscReturn s (fun u => fr u ∧ u.gcur F.CLKGEN_MOSC_STAT_PRESENT = 1 ∧
      (¬ there → u.gcur F.CLKGEN_EVT_MOSC = 1 ∧ u.gcur (F.FAULT_SRC_STAT_ACTIVE 5) = 0) ∧ ∀ j, j < 5 → u.rootSt j = if s.rootSt j = 3 then 1 else s.rootSt j)) ∧
    (¬ (s.rootSt k = 1 ∧ there) → idle (.rootLock r)) ∧
    (s.rootSt k = 1 → there → Acts (.rootLock r) s (fun u => fr u ∧ u.rootSt k = 2 ∧ kept u ∧ u.gcur F.CLKGEN_EVT_ROOT = 1 ∧ u.gcur (F.FAULT_SRC_STAT_ACTIVE src) = 0)) ∧
    (s.rootSt k ≠ 2 → idle (.rootLockLost r)) ∧
    (s.rootSt k = 2 → Acts (.rootLockLost r) s (fun u => big u ∧ u.rootSt k = 3 ∧ kept u ∧ relocks u k ∧ u.gcur (F.CLKGEN_ROOT_STAT_LOL k) = 1 ∧
      (s.srcLive src = true → u.gcur (F.FAULT_SRC_STAT_ACTIVE src) = 1 ∧ u.gcur (F.FAULT_SRC_STAT_REAL src) = 1)))) ∧
  (∀ (s : State) (b : Bool) (mv low : Nat) (limit : Bool), s.scanning = false →
    let fr (u : State) : Prop := State.onlyIn [.hostif, .cmdq, .fault, .vault, .book, .tally, .twin, .bench, .clkgen, .pwr, .image, .ch, .free, .out] s u
    let idle (i : Instr) : Prop := Acts i s (fun u => u = s.clear)
    let good (t : State) (x : Bool) : Bool := t.gflag (State.feedGoodF x)
    let pass (t : State) (x : Bool) : Bool := t.gflag (State.feedPassF x)
    let settled (u : State) : Prop := u.gflag F.PWR_STAT_FEEDS_OK = (good u false && good u true && pass u false && pass u true)
    let fed (u : State) : Prop := u.gcur (State.feedVinF b) = min 65535 mv
    let level := if b = true then 9 else 8
    let ranged : Prop := 4500 ≤ mv ∧ mv ≤ 18000
    let only (u : State) : Prop := State.onlyIn [.pwr, .out] s u ∧ u.pwr = s.pwr ∧ fed u ∧ ∀ x, good u x = good s x ∧ pass u x = pass s x
    let Bad := Instr.feedBad b mv
    let Good := Instr.feedGood b mv
    (¬ (s.powered = true ∧ ¬ ranged) → idle Bad) ∧
    (s.powered = true → ¬ ranged → good s b = false → Acts Bad s only) ∧
    (s.powered = true → ¬ ranged → good s b = true → Acts Bad s (fun u =>
      State.onlyIn [.hostif, .cmdq, .fault, .vault, .book, .tally, .twin, .bench, .pwr, .image, .ch, .free, .out] s u ∧ fed u ∧ good u b = false ∧ good u (!b) = good s (!b) ∧
      u.gcur (State.feedEvtF b) = 1 ∧ u.feedOf b = ⟨none, true⟩ ∧ u.gcur (F.FAULT_SRC_STAT_ACTIVE level) = 1 ∧ u.gcur (F.FAULT_SRC_STAT_REAL level) = 1 ∧
      u.gflag F.PWR_STAT_FEEDS_OK = false)) ∧
    (¬ (s.powered = true ∧ ranged) → idle Good) ∧
    (s.powered = true → ranged → good s b = true → Acts Good s only) ∧
    (s.powered = true → ranged → good s b = false → Acts Good s (fun u => fr u ∧ fed u ∧ good u b = true ∧ good u (!b) = good s (!b) ∧ (∀ x, pass u x = pass s x) ∧
      u.gcur (State.feedEvtF b) = 1 ∧ u.feedOf b = ⟨some s.tick, (s.feedOf b).want⟩ ∧ u.gcur (F.FAULT_SRC_STAT_ACTIVE level) = 0 ∧ settled u)) ∧
    let ends (i : Instr) (x : Bool) (slot : Option Nat) (v : Nat) (ok : Bool) : Prop := Acts i s (fun u =>
      State.onlyIn [.hostif, .cmdq, .vault, .book, .tally, .twin, .bench, .clkgen, .pwr, .image, .ch, .free, .out] s u ∧ u.pwr.chk = none ∧ u.gcur F.PWR_STAT_CHK_BUSY = 0 ∧
      u.gcur F.PWR_EVT_CHK = 1 ∧ u.gcur (State.feedMinF x) = min 65535 v ∧ pass u x = ok ∧ pass u (!x) = pass s (!x) ∧ (∀ y, good u y = good s y) ∧ settled u ∧
      (u.feedOf x).since = (if good s x = true then some s.tick else none) ∧
      ∀ k, slot = some k →
        (x = false → (u.cmd? k).map (·.done) = (s.cmd? k).map (fun _ => 1)) ∧
        (x = true → u.pwr.selfTest = none ∧ (s.cmd? k ≠ none →
          s.ended u k (if pass u false = true ∧ pass u true = true then RES_OK else RES_OP_ERROR) (u.gword .pwr PWR_FCHK).toNat)))
    let starting : Prop := s.stage = BOOT_FEEDCHK
    let asks (k : Option Nat) : Prop :=
      (starting → k = none ∧ (s.feedOf b).want = true ∧ ¬ (b = true ∧ s.pwr.feedA.want = true)) ∧ (¬ starting → s.autoDue b = true → k = none) ∧
      (¬ starting → s.autoDue b = false → ∃ j, s.pwr.selfTest = some j ∧ (s.cmd? j).map (·.done) = some (b2n b) ∧ k = some j)
    let ready : Prop := s.clocked = true ∧ s.pwr.chk = none
    let Start := Instr.feedCheckStart b
    let Done := Instr.feedCheckComplete low limit
    (¬ ready → idle Start) ∧ ((∀ k, ¬ asks k) → idle Start) ∧
    (∀ k, ready → asks k → good s b = true → Acts Start s (fun u => State.onlyIn [.pwr, .out] s u ∧ u.pwr.chk = some (b, k, s.tick) ∧ u.gcur F.PWR_STAT_CHK_BUSY = 1 ∧
      u.feedOf b = ⟨(s.feedOf b).since, false⟩ ∧ u.feedOf (!b) = s.feedOf (!b))) ∧
    (∀ k, ready → asks k → good s b = false → ends Start b k (s.gcur (State.feedVinF b)) false) ∧
    (s.pwr.chk = none → idle Done) ∧
    (∀ x k t, s.pwr.chk = some (x, k, t) → (4300 ≤ low → s.tick < t + 1000000 → idle Done) ∧
      ((low < 4300 ∨ t + 1000000 ≤ s.tick) → ends Done x k low (decide (4500 ≤ low) && !limit)))) ∧
  ∀ (s : State) (sel : Fin 4), s.scanning = false →
    let idle (i : Instr) : Prop := Acts i s (fun u => u = s.clear)
    let big (u : State) : Prop := State.onlyIn [.hostif, .cmdq, .fault, .vault, .book, .tally, .twin, .bench, .clkgen, .pwr, .image, .ch, .free, .out] s u
    let rails : Prop := s.powered = true ∧ s.stage = BOOT_RAILS ∧ s.pwr.resetN = true ∧ s.pwr.gd = false
    let root : Prop := s.powered = true ∧ s.stage = BOOT_ROOT ∧ s.rootSt 0 = 2 ∧ s.pwr.rootRetry = false
    let again : Prop := s.pwr.rootRetry = true ∧ s.stage = BOOT_ROOT
    let checked : Prop := s.powered = true ∧ s.stage = BOOT_FEEDCHK ∧ s.pwr.chk = none ∧ s.pwr.feedA.want = false ∧ s.pwr.feedB.want = false
    let vault : Prop := s.powered = true ∧ s.stage = BOOT_VAULT ∧ s.gcur F.VAULT_STAT_STAGE ≠ VS_STOPPED
    let v := s.vault
    let fresh : Prop := v.own = OWN_UNOWNED ∧ v.storeSeed = none ∧ v.vbatLost = false
    let code := State.blockCode none 8
    (¬ rails → idle (.stageRailsDone sel)) ∧
    (rails → Acts (.stageRailsDone sel) s (fun u => State.onlyIn [.hostif, .pwr, .out] s u ∧ u.pwr = { s.pwr with gd := true } ∧ u.stage = BOOT_MOSC ∧
      u.gcur F.PWR_RST_CAUSE_BOOTSEL = sel.val ∧ u.gcur F.PWR_RST_CAUSE_BOOTSEL_BAD = if sel.val = 3 then 1 else 0)) ∧
    (¬ root → ∀ how, idle (.stageRootDone how)) ∧
    (root → Acts (.stageRootDone .clean) s (fun u => State.onlyIn [.pwr, .out] s u ∧ u.pwr = s.pwr ∧ u.stage = BOOT_FEEDCHK)) ∧
    (root → Acts (.stageRootDone .forced) s (fun u => big u ∧ u.gcur F.CLKGEN_FORCE_SWITCH = 1 ∧ u.gcur F.CLKGEN_FORCE_BLOCK = code ∧ u.gcur (F.FAULT_SRC_STAT_REAL 3) = 1 ∧
      (s.loader.dev = none → u.stage = BOOT_FEEDCHK))) ∧
    (root → Acts (.stageRootDone .stuck) s (fun u => big u ∧ u.gcur F.CLKGEN_FORCE_STUCK = 1 ∧ u.gcur F.CLKGEN_FORCE_BLOCK = code ∧ u.gcur (F.FAULT_SRC_STAT_REAL 4) = 1 ∧
      u.pwr.rootRetry = true ∧ (s.loader.dev = none → u.stage = BOOT_ROOT))) ∧
    (¬ again → idle .rootStageRetry) ∧ (again → Acts .rootStageRetry s (fun u => u = { s.clear with pwr := { s.pwr with rootRetry := false } })) ∧
    (¬ checked → idle .stageFeedchkDone) ∧
    (checked → Acts .stageFeedchkDone s (fun u => State.onlyIn [.hostif, .vault, .pwr, .out] s u ∧ u.pwr = s.pwr ∧ u.vault = s.vault ∧ u.stage = BOOT_VAULT ∧
      u.gcur F.VAULT_STAT_STAGE = VS_SEED)) ∧
    (¬ vault → idle .stageVaultDone) ∧
    (vault → Acts .stageVaultDone s (fun u => State.onlyIn [.hostif, .cmdq, .fault, .vault, .book, .tally, .twin, .bench, .pwr, .image, .ch, .free, .out] s u ∧
      u.stage = BOOT_WAIT ∧ u.gcur F.VAULT_STAT_STAGE = VS_MEASURE ∧ u.vault.seed ≠ none ∧ (v.seed ≠ none → u.vault.seed = v.seed) ∧
      (v.seed = none → u.gcur F.VAULT_STAT_SEED_NEW = 1) ∧
      (fresh → u.vault.storeSeed = u.vault.seed ∧ u.vault.own = v.own) ∧
      (¬ fresh → u.vault.storeSeed = v.storeSeed ∧ u.vault.own = if v.storeSeed ≠ u.vault.seed then OWN_ORPHANED else v.own) ∧
      u.vault.log = [] ∧ u.vault.logOvf = 0 ∧ u.vault.vbatLost = false ∧ u.pwr.resetEntry = false ∧
      u.tally.cur.tampers = min 0xFFFFFFFF (s.tally.cur.tampers + (v.log.filter (fun e => e.pstate == 2)).length + v.logOvf + b2n v.vbatLost) ∧
      (s.tally.copyA = none → s.tally.copyB = none → s.gflag F.TALLY_STAT_LOST = false → u.gcur F.TALLY_STAT_LOST = 1 ∧ u.gcur F.TALLY_EVT_LOST = 1 ∧
        u.gcur (F.FAULT_SRC_STAT_REAL 97) = 1))) ∧
    (s.loader.dev = none → idle .stageDone) ∧
    ∀ d, s.loader.dev = some d →
      let ready : Prop := s.vault.mCmn ≠ none ∧ s.stage = BOOT_LOADING ∧ ∀ n : ChanIx, s.img[n].job = none
      let p := s.gflag F.TWIN_CFG_PAIR
      let unit := s.gflag F.TWIN_CFG_UNIT
      (¬ ready → idle .stageDone) ∧
      (ready → Acts .stageDone s (fun u => State.onlyIn [.hostif, .cmdq, .book, .tally, .twin, .pwr, .image, .ch, .out] s u ∧ u.stage = BOOT_DONE ∧ u.loader.dev = none ∧
        u.gcur F.IMAGE_EVT_DONE = 1 ∧ u.twin.role = true ∧ u.twin.paired = p ∧ u.twin.unitA = unit ∧
        (p = true ∨ s.twin.drill = none → s.cmd? d.1 ≠ none → s.ended u d.1 RES_OK (u.gword .image IMAGE_STAT).toNat) ∧
        (p = true → u.twin.bootAt = some (s.tick + s.gfld F.TWIN_CFG_BOOT_WAIT * 20000000 * (if unit = true then 1 else 2))) ∧
        (p = false → u.twst = TW_ALONE ∧ (s.safe = false → u.gcur F.TWIN_STAT_DRIVE = 1))))

/-- Device resets, the power states and the end of a tick (R366, R371, R428, R435, R436, R438, R128): power-on and RESET_N start at stage RAILS, a fault reset and a safe exit at stage
MOSC, with their CAUSE; every volatile state goes to its reset value and the tally counts the start. At power-fail the device keeps its tamper domain from VBAT, or loses the seed.
At the end of a tick the block resets are taken and the book takes what the tick changed; then a reset that is due follows, or the common count and the count and time of every channel
in RUN or RECONFIG advance, the values due come into use, and the records whose latency is over are registered. -/
def Obligations.ResetsPowerAndTheTick : Prop :=
  (∀ (s : State) (b : Bool) (mv vbat : Nat),
    let does (i : Instr) (p : State → Prop) : Prop := s.turn i → ∃ u, p u ∧ exec i s = .next (if s.scanning = true then u else s.clear.follow u)
    let idle (i : Instr) : Prop := does i (fun u => u = s.clear)
    let on : Prop := s.powered = true
    let v := s.vault
    let quiet (u : State) : Prop := u.vault.kum = none ∧ u.vault.quote = none ∧ u.vault.mCmn = none ∧ u.vault.own = v.own ∧ u.vault.kcnt = v.kcnt ∧ u.vault.storeSeed = v.storeSeed ∧
      ∀ k, u.vslot k = { s.vslot k with meas := false }
    let taken := s.bookSave.tallyTaken
    let starts (u : State) (cause : Nat) : Prop := quiet u ∧ u.vault.seed = v.seed ∧ u.pwr.pst = .cold ∧ u.scanning = false ∧ u.stage = BOOT_RAILS ∧
      u.gcur F.PWR_RST_CAUSE_CAUSE = cause ∧ u.tally.cur = { taken with starts := State.satCount taken.starts }
    let good (t : State) (x : Bool) : Bool := t.gflag (State.feedGoodF x)
    let lost (u : State) : Prop := u.vault.seed = none ∧ u.vault.log = [] ∧ u.vault.logOvf = 0 ∧ u.vault.vbatLost = true
    (on ∨ mv < 4500 → idle (.powerOn b mv)) ∧
    (¬ on → 4500 ≤ mv → does (.powerOn b mv) (fun u => s.wiped u false ∧ starts u 1 ∧ u.pwr.gd = false ∧ u.pwr.resetN = s.pwr.resetN ∧
      u.gcur F.PWR_RST_CAUSE_BOOTSEL = 0 ∧ good u b = decide (mv ≤ 18000) ∧ good u (!b) = false ∧ (u.feedOf b).want = true ∧ (mv ≤ 18000 → u.gcur (State.feedVinF b) = mv))) ∧
    (¬ (on ∧ (good s false = true ∨ good s true = true)) → idle .pinReset) ∧
    (on → good s false = true ∨ good s true = true → does .pinReset (fun u => s.wiped u false ∧ starts u 2 ∧ u.pwr.gd = s.pwr.gd ∧ u.pwr.resetN = false ∧
      u.gcur F.PWR_RST_CAUSE_BOOTSEL = s.gcur F.PWR_RST_CAUSE_BOOTSEL ∧ ∀ x, good u x = good s x ∧ u.feedOf x = ⟨if good s x = true then some 0 else none, true⟩)) ∧
    (s.pwr.resetN = true ∨ ¬ on → idle .resetNRelease) ∧
    (s.pwr.resetN = false → on → does .resetNRelease (fun u => State.onlyIn [.pwr, .out] s u ∧ u.pwr = { s.pwr with resetN := true } ∧
      u.stage = if s.pwr.gd = true then BOOT_MOSC else s.stage)) ∧
    (¬ on → idle (.powerFail vbat)) ∧
    (on → does (.powerFail vbat) (fun u => s.wiped u false ∧ quiet u ∧ u.tally.cur = taken ∧ u.pwr.pst = (if 2000 ≤ vbat then .tamperOnly else .off) ∧ u.pwr.gd = false ∧
      (1600 ≤ vbat → u.vault.seed = v.seed ∧ u.vault.log = v.log) ∧ (vbat < 1600 → lost u))) ∧
    (on → idle .vbatLoss) ∧
    (¬ on → does .vbatLoss (fun u => u = { s.clear with pwr := { s.pwr with pst := .off }, vault := { v with seed := none, log := [], logOvf := 0, vbatLost := true } })) ∧
    (¬ (s.pwr.pst = .off ∧ 2000 ≤ vbat) → idle (.vbatApplied vbat)) ∧
    (s.pwr.pst = .off → 2000 ≤ vbat → does (.vbatApplied vbat) (fun u => u = { s.clear with pwr := { s.pwr with pst := .tamperOnly } }))) ∧
  ∀ s : State, s.scanning = false →
    let Tick := Instr.counterAdvance
    let v := s.clear.tickLast.bookFlush
    (s.clocked = false → Acts Tick s (fun u => u = s.clear.bookFlush)) ∧
    (s.fault.blockDue = [] → v.fault = s.fault ∧ v.ch = s.ch ∧ v.tick = s.tick ∧ v.chSt = s.chSt) ∧ v.book.acc = [] ∧
    (∀ cause src inj, s.clocked = true → v.fault.resetDue = some (cause, src, inj) → Acts Tick s (fun u => v.wiped u true ∧ u.stage = BOOT_MOSC ∧ u.pwr.resetEntry = true ∧
      (2 ≤ cause → cause < 8 → u.gcur F.PWR_RST_CAUSE_CAUSE = cause ∧ u.gcur F.PWR_RST_CAUSE_BOOTSEL = v.gcur F.PWR_RST_CAUSE_BOOTSEL) ∧
      u.gcur F.FAULT_LAST_RESET_VALID = 1 ∧ u.gcur F.FAULT_LAST_RESET_INJ = b2n inj ∧ u.gcur F.FAULT_LAST_RESET_SRC = src % 512 ∧
      u.tally.cur.starts = State.satCount v.bookSave.tallyTaken.starts ∧ u.tally.cur.faultResets = State.satCount v.bookSave.tallyTaken.faultResets)) ∧
    (s.clocked = true → v.fault.resetDue = none → Acts Tick s (fun u =>
      let w := v.forwardTick
      u.tick = v.tick + 1 ∧ u.host = { v.host with sent := [], took := [] } ∧ u.fuse = s.fuse ∧ u.pending = s.pending ∧ u.held = [] ∧
      u.cmdq = v.cmdq ∧ u.fault = { v.fault with exitAsked := false } ∧ u.vault = v.vault ∧ u.book = v.book ∧ u.tally = v.tally ∧ u.router = w.router ∧ u.pwr = v.pwr ∧ u.img = v.img ∧
      u.loader = v.loader ∧ (∀ b k, b ≠ .twin → u.gword b k = w.gword b k) ∧ (∀ b k, u.guse b k = smGet (gbRst b k) ((w.rf b).endTick (gbRst b)).use k) ∧
      ∀ n : ChanIx,
        let c := v.ch[n]
        let d := u.ch[n]
        let drain := clampAbs c.smax c.dpll.pend
        let runs : Prop := v.chSt n = CH_RUN ∨ v.chSt n = CH_RECONFIG
        let begins : Prop := v.chSt n = CH_RUN ∧ v.recordWaits n = false
        (¬ runs → d = c) ∧
        (runs → d.jour.tick = c.jour.tick + 1 ∧ (c.dpll.stepNext = none → d.dpll.ctr = c.dpll.ctr + c.rateStep + drain ∧ d.dpll.kCum = c.dpll.kCum + drain)) ∧
        (begins → d.dpll.stepNext = none ∧ ∀ e ∈ d.ref.measured, d.jour.tick < e.1)))

end
end

