-- ==== Sys2Proof/Laws/Sparse.lean ====
section
/-! SUPPORT. Sparse maps: what a read finds after a write, and that a write keeps the canonical form. -/
namespace Sys2Proof.Machine

variable {α : Type}

@[simp] theorem smGet_smIns_same (d : α) (m : List (Nat × α)) (a : Nat) (v : α) : smGet d (smIns m a v) a = v := by
  induction m with
  | nil => simp [smIns, smGet]
  | cons e r ih =>
    obtain ⟨k, x⟩ := e
    simp only [smIns]
    split
    · simp [smGet]
    · split
      · simp [smGet]
      · simp_all [smGet]

theorem smGet_smIns_ne (d : α) (m : List (Nat × α)) {a b : Nat} (v : α) (h : b ≠ a) : smGet d (smIns m a v) b = smGet d m b := by
  induction m with
  | nil => simp [smIns, smGet, h.symm]
  | cons e r ih =>
    obtain ⟨k, x⟩ := e
    simp only [smIns]
    split
    · next hk => subst hk; simp [smGet, h.symm]
    · split
      · simp [smGet, h.symm]
      · simp [smGet, ih]

@[simp] theorem smGet_smDel_same (d : α) (m : List (Nat × α)) (a : Nat) : smGet d (smDel m a) a = d := by
  induction m with
  | nil => rfl
  | cons e r ih =>
    obtain ⟨k, x⟩ := e
    simp only [smDel]
    split
    · exact ih
    · simp_all [smGet]

theorem smGet_smDel_ne (d : α) (m : List (Nat × α)) {a b : Nat} (h : b ≠ a) : smGet d (smDel m a) b = smGet d m b := by
  induction m with
  | nil => rfl
  | cons e r ih =>
    obtain ⟨k, x⟩ := e
    simp only [smDel]
    split
    · next hk => subst hk; simp [smGet, ih, h.symm]
    · simp [smGet, ih]

variable [DecidableEq α]

@[simp] theorem smGet_smPut_same (d : α) (m : List (Nat × α)) (a : Nat) (v : α) : smGet d (smPut d m a v) a = v := by
  unfold smPut
  split
  · next h => simp [h]
  · simp

theorem smGet_smPut_ne (d d' : α) (m : List (Nat × α)) {a b : Nat} (v : α) (h : b ≠ a) : smGet d' (smPut d m a v) b = smGet d' m b := by
  unfold smPut
  split
  · exact smGet_smDel_ne _ _ h
  · exact smGet_smIns_ne _ _ _ h

/-- A higher lower bound of the keys is a lower one too. -/
theorem smWfFrom_mono (d : Nat → α) {l l' : Option Nat} (m : List (Nat × α)) (hl : ∀ k, keyAbove l' k = true → keyAbove l k = true)
    (h : smWfFrom d l' m = true) : smWfFrom d l m = true := by
  cases m with
  | nil => rfl
  | cons e r =>
    obtain ⟨k, x⟩ := e
    simp only [smWfFrom, Bool.and_eq_true] at h ⊢
    exact ⟨⟨hl k h.1.1, h.1.2⟩, h.2⟩

theorem smWfFrom_smDel (d : Nat → α) (m : List (Nat × α)) (a : Nat) (l : Option Nat) (h : smWfFrom d l m = true) : smWfFrom d l (smDel m a) = true := by
  induction m generalizing l with
  | nil => rfl
  | cons e r ih =>
    obtain ⟨k, x⟩ := e
    simp only [smWfFrom, Bool.and_eq_true] at h
    simp only [smDel]
    split
    · refine ih l (smWfFrom_mono d r (fun j hj => ?_) h.2)
      cases l with
      | none => rfl
      | some y => simp only [keyAbove, decide_eq_true_eq] at hj h ⊢; omega
    · simp only [smWfFrom, Bool.and_eq_true]
      exact ⟨h.1, ih _ h.2⟩

theorem smWfFrom_smIns (d : Nat → α) (m : List (Nat × α)) (a : Nat) (v : α) (l : Option Nat) (hv : v ≠ d a)
    (hl : keyAbove l a = true) (h : smWfFrom d l m = true) : smWfFrom d l (smIns m a v) = true := by
  induction m generalizing l with
  | nil => simp [smIns, smWfFrom, hv, hl]
  | cons e r ih =>
    obtain ⟨k, x⟩ := e
    simp only [smWfFrom, Bool.and_eq_true] at h
    simp only [smIns]
    split
    · next hk => subst hk; simp [smWfFrom, hv, hl, h.2]
    · split
      · next hlt => simp only [smWfFrom, Bool.and_eq_true]; exact ⟨⟨hl, by simpa using hv⟩, ⟨by simpa [keyAbove] using hlt, h.1.2⟩, h.2⟩
      · simp only [smWfFrom, Bool.and_eq_true]
        exact ⟨h.1, ih _ (by simp only [keyAbove, decide_eq_true_eq]; omega) h.2⟩

/-- A write keeps the canonical form. -/
theorem smWf_smPut (d : Nat → α) (m : List (Nat × α)) (a : Nat) (v : α) (h : smWf d m = true) : smWf d (smPut (d a) m a v) = true := by
  unfold smPut smWf at *
  split
  · exact smWfFrom_smDel d m a none h
  · next hv => exact smWfFrom_smIns d m a v none hv rfl h

end Sys2Proof.Machine
end

