-- ==== Sys2Proof/Laws/Frame.lean ====
section
/-! SUPPORT. What no command does: every operation on the device leaves the queue and the fuses as they are, draws free values only
forward, keeps the canonical form of the addressed memory, and only adds to the cellar book, each entry chained to the one before. -/
namespace Sys2Proof.Machine

/-- What holds between the state before an operation and the state after it, whichever the operation. -/
structure Frame (s t : State) : Prop where
  pending : t.pending = s.pending
  fuse : t.fuse = s.fuse
  free : s.freeCtr ≤ t.freeCtr
  htx : Memory.wf s.host.htx = true → Memory.wf t.host.htx = true
  book : s.book.chained → t.book.chained ∧ s.book.grows t.book

theorem take_append_take {α : Type} (n : Nat) (a b : List α) : (a ++ b.take n).take n = (a ++ b).take n := by
  simp only [List.take_append, List.take_take]
  congr 2
  omega

theorem BookSt.grows_refl {b : BookSt} (h : b.chained) : b.grows b := ⟨[], by simp [List.take_of_length_le h.1], by simp⟩

theorem BookSt.grows_trans {a b c : BookSt} (h : a.grows b) (g : b.grows c) : a.grows c := by
  obtain ⟨n, hr, hn⟩ := h
  obtain ⟨m, gr, gn⟩ := g
  refine ⟨m ++ n, ?_, ?_⟩
  · rw [gr, hr, List.append_assoc]; exact take_append_take _ _ _
  · simp [gn, hn]; omega

theorem Frame.refl (s : State) : Frame s s := ⟨rfl, rfl, le_refl _, id, fun h => ⟨h, BookSt.grows_refl h⟩⟩

theorem Frame.trans {s t u : State} (h : Frame s t) (g : Frame t u) : Frame s u :=
  ⟨g.pending.trans h.pending, g.fuse.trans h.fuse, h.free.trans g.free, fun w => g.htx (h.htx w),
   fun w => ⟨(g.book (h.book w).1).1, BookSt.grows_trans (h.book w).2 (g.book (h.book w).1).2⟩⟩

/-- Frames by the fields that they speak of. -/
theorem Frame.of_eq {s t : State} (hp : t.pending = s.pending) (hf : t.fuse = s.fuse) (hc : s.freeCtr ≤ t.freeCtr) (hh : t.host.htx = s.host.htx)
    (hb : t.book = s.book) : Frame s t :=
  ⟨hp, hf, hc, fun w => by rw [hh]; exact w, fun w => by rw [hb]; exact ⟨w, BookSt.grows_refl w⟩⟩

/-- An update of fields that the frame does not speak of; the book's parts that it does not speak of may change with them. -/
theorem Frame.upd {s x : State} {tick regs ch img loader sent took cmdq fault vault sigs count buf acc tally twin router pwr out held} (h : Frame s x) :
    Frame s (State.mk tick regs ch img loader x.fuse ⟨x.host.htx, sent, took⟩ cmdq fault vault ⟨x.book.ring, sigs, x.book.next, count, buf, acc⟩ tally twin
      router pwr x.freeCtr out held x.pending) :=
  h.trans ⟨rfl, rfl, le_refl _, id, fun w => ⟨w, BookSt.grows_refl w⟩⟩

theorem Frame.updFree {s x : State} {tick regs ch img loader sent took cmdq fault vault sigs count buf acc tally twin router pwr out held} (h : Frame s x) :
    Frame s (State.mk tick regs ch img loader x.fuse ⟨x.host.htx, sent, took⟩ cmdq fault vault ⟨x.book.ring, sigs, x.book.next, count, buf, acc⟩ tally twin
      router pwr (x.freeCtr + 1) out held x.pending) :=
  h.trans ⟨rfl, rfl, Nat.le_succ _, id, fun w => ⟨w, BookSt.grows_refl w⟩⟩

theorem Frame.ite {s a b : State} {c : Prop} [Decidable c] (ha : Frame s a) (hb : Frame s b) : Frame s (if c then a else b) := by
  split <;> assumption

theorem Frame.ite2 {α : Type} {s : State} {a b : α × State} {c : Prop} [Decidable c] (ha : Frame s a.2) (hb : Frame s b.2) : Frame s (if c then a else b).2 := by
  split <;> assumption

theorem Frame.fold {α : Type} {s x : State} {g : State → α → State} {l : List α} (h : Frame s x) (hg : ∀ y a, Frame y (g y a)) : Frame s (l.foldl g x) := by
  induction l generalizing x with
  | nil => exact h
  | cons a r ih => exact ih (h.trans (hg x a))

theorem Frame.iter {s x : State} {g : State → State} (n : Nat) (h : Frame s x) (hg : ∀ y, Frame y (g y)) : Frame s (iter g n x) := by
  induction n generalizing x with
  | zero => exact h
  | succ n ih => exact ih (h.trans (hg x))

/-- The bytes of the host transmit rings are written one by one. -/
theorem fr_htxByte {s y : State} (a : Nat) (b : Byte) (h : Frame s y) : Frame s (y.htxByte a b) :=
  h.trans ⟨rfl, rfl, le_refl _, fun w => smWf_smPut (fun _ => 0#8) y.host.htx a b w, fun w => ⟨w, BookSt.grows_refl w⟩⟩

theorem Frame.fold2 {α β : Type} {s : State} {q : α × State} {g : α × State → β → α × State} {l : List β} (h : Frame s q.2) (hg : ∀ y a, Frame y.2 (g y a).2) :
    Frame s (l.foldl g q).2 := by
  induction l generalizing q with
  | nil => exact h
  | cons a r ih => exact ih (h.trans (hg q a))

theorem fr_setRf {s y : State} (b : CB) (f : RegFile) (hF : Frame s y) : Frame s (State.setRf y b f) := by
  refine hF.trans ?_
  unfold State.setRf
  try dsimp only
  repeat' first | with_reducible exact Frame.refl _ | fail_if_no_progress (with_reducible apply Frame.upd) | with_reducible apply Frame.ite | with_reducible apply Frame.ite2 | split

theorem fr_gsetWord {s y : State} (b : CB) (off : ℕ) (w : Word) (hF : Frame s y) : Frame s (State.gsetWord y b off w) := by
  refine hF.trans ?_
  unfold State.gsetWord
  try dsimp only
  repeat' first | with_reducible exact Frame.refl _ | with_reducible apply fr_setRf | with_reducible apply Frame.ite | with_reducible apply Frame.ite2 | split

theorem fr_gput {s y : State} (f : GF) (v : ℕ) (hF : Frame s y) : Frame s (State.gput y f v) := by
  refine hF.trans ?_
  unfold State.gput
  try dsimp only
  repeat' first | with_reducible exact Frame.refl _ | with_reducible apply fr_gsetWord | with_reducible apply Frame.ite | with_reducible apply Frame.ite2 | split

theorem fr_gbump {s y : State} (f : GF) (hF : Frame s y) : Frame s (State.gbump y f) := by
  refine hF.trans ?_
  unfold State.gbump
  try dsimp only
  repeat' first | with_reducible exact Frame.refl _ | with_reducible apply fr_gput | with_reducible apply Frame.ite | with_reducible apply Frame.ite2 | split

theorem fr_gbumpBy {s y : State} (f : GF) (n : ℕ) (hF : Frame s y) : Frame s (State.gbumpBy y f n) := by
  refine hF.trans ?_
  unfold State.gbumpBy
  try dsimp only
  repeat' first | with_reducible exact Frame.refl _ | with_reducible apply fr_gput | with_reducible apply Frame.ite | with_reducible apply Frame.ite2 | split

theorem fr_gbumpSat {s y : State} (f : GF) (hF : Frame s y) : Frame s (State.gbumpSat y f) := by
  refine hF.trans ?_
  unfold State.gbumpSat
  try dsimp only
  repeat' first | with_reducible exact Frame.refl _ | with_reducible apply fr_gput | with_reducible apply Frame.ite | with_reducible apply Frame.ite2 | split

theorem fr_put64 {s y : State} (b : CB) (off : ℕ) (v : ℕ) (hF : Frame s y) : Frame s (State.put64 y b off v) := by
  refine hF.trans ?_
  unfold State.put64
  try dsimp only
  repeat' first | with_reducible exact Frame.refl _ | with_reducible apply fr_gsetWord | with_reducible apply Frame.ite | with_reducible apply Frame.ite2 | split

theorem fr_emit {s y : State} (o : Output) (hF : Frame s y) : Frame s (State.emit y o) := by
  refine hF.trans ?_
  unfold State.emit
  try dsimp only
  repeat' first | with_reducible exact Frame.refl _ | fail_if_no_progress (with_reducible apply Frame.upd) | with_reducible apply Frame.ite | with_reducible apply Frame.ite2 | split

theorem fr_free {s y : State} (w : ℕ) (hF : Frame s y) : Frame s (State.free y w).2 := by
  refine hF.trans ?_
  unfold State.free
  try dsimp only
  repeat' first | with_reducible exact Frame.refl _ | with_reducible apply Frame.updFree | fail_if_no_progress (with_reducible apply Frame.upd) | with_reducible apply Frame.ite | with_reducible apply Frame.ite2 | split

theorem fr_msixPend {s y : State} (v : ℕ) (b : Bool) (hF : Frame s y) : Frame s (State.msixPend y v b) := by
  refine hF.trans ?_
  unfold State.msixPend
  try dsimp only
  repeat' first | with_reducible exact Frame.refl _ | with_reducible apply fr_gsetWord | with_reducible apply Frame.ite | with_reducible apply Frame.ite2 | split

theorem fr_msix {s y : State} (v : ℕ) (hF : Frame s y) : Frame s (State.msix y v) := by
  refine hF.trans ?_
  unfold State.msix
  try dsimp only
  repeat' first | with_reducible exact Frame.refl _ | with_reducible apply fr_msixPend | with_reducible apply fr_emit | fail_if_no_progress (with_reducible apply Frame.upd) | with_reducible apply Frame.ite | with_reducible apply Frame.ite2 | split

theorem fr_msixFlush {s y : State} (hF : Frame s y) : Frame s (State.msixFlush y) := by
  refine hF.trans ?_
  unfold State.msixFlush
  try dsimp only
  repeat' first | with_reducible exact Frame.refl _ | with_reducible apply fr_msix | with_reducible apply fr_msixPend | with_reducible apply Frame.ite | with_reducible apply Frame.ite2 | with_reducible apply Frame.fold | with_reducible apply Frame.fold2 | intro _ | split

theorem fr_gevtMask {s y : State} (b : CB) (off : ℕ) (m : ℕ) (hF : Frame s y) : Frame s (State.gevtMask y b off m) := by
  refine hF.trans ?_
  unfold State.gevtMask
  try dsimp only
  repeat' first | with_reducible exact Frame.refl _ | with_reducible apply fr_gsetWord | with_reducible apply fr_setRf | with_reducible apply fr_msix | with_reducible apply Frame.ite | with_reducible apply Frame.ite2 | with_reducible apply Frame.fold | with_reducible apply Frame.fold2 | intro _ | split

theorem fr_gevt {s y : State} (f : GF) (hF : Frame s y) : Frame s (State.gevt y f) := by
  refine hF.trans ?_
  unfold State.gevt
  try dsimp only
  repeat' first | with_reducible exact Frame.refl _ | with_reducible apply fr_gevtMask | with_reducible apply Frame.ite | with_reducible apply Frame.ite2 | split

theorem fr_setStage {s y : State} (n : ℕ) (hF : Frame s y) : Frame s (State.setStage y n) := by
  refine hF.trans ?_
  unfold State.setStage
  try dsimp only
  repeat' first | with_reducible exact Frame.refl _ | with_reducible apply fr_gput | with_reducible apply Frame.ite | with_reducible apply Frame.ite2 | split

theorem fr_setCh {s y : State} (n : ChanIx) (c : Channel) (hF : Frame s y) : Frame s (State.setCh y n c) := by
  refine hF.trans ?_
  unfold State.setCh
  try dsimp only
  repeat' first | with_reducible exact Frame.refl _ | fail_if_no_progress (with_reducible apply Frame.upd) | with_reducible apply Frame.ite | with_reducible apply Frame.ite2 | split

theorem fr_updImg {s y : State} (n : ChanIx) (f : ChanImg → ChanImg) (hF : Frame s y) : Frame s (State.updImg y n f) := by
  refine hF.trans ?_
  unfold State.updImg
  try dsimp only
  repeat' first | with_reducible exact Frame.refl _ | fail_if_no_progress (with_reducible apply Frame.upd) | with_reducible apply Frame.ite | with_reducible apply Frame.ite2 | split

theorem fr_putVslot {s y : State} (i : ℕ) (x : VSlot) (hF : Frame s y) : Frame s (State.putVslot y i x) := by
  refine hF.trans ?_
  unfold State.putVslot
  try dsimp only
  repeat' first | with_reducible exact Frame.refl _ | fail_if_no_progress (with_reducible apply Frame.upd) | with_reducible apply Frame.ite | with_reducible apply Frame.ite2 | split

theorem fr_slotSign {s y : State} (i : ℕ) (rcpt : ℕ) (digest : Bytes) (hF : Frame s y) : Frame s (State.slotSign y i rcpt digest).2 := by
  refine hF.trans ?_
  unfold State.slotSign
  try dsimp only
  repeat' first | with_reducible exact Frame.refl _ | with_reducible apply fr_free | with_reducible apply Frame.ite | with_reducible apply Frame.ite2 | split

theorem fr_dikSign {s y : State} (digest : Bytes) (hF : Frame s y) : Frame s (State.dikSign y digest).2 := by
  refine hF.trans ?_
  unfold State.dikSign
  try dsimp only
  repeat' first | with_reducible exact Frame.refl _ | with_reducible apply fr_free | with_reducible apply Frame.ite | with_reducible apply Frame.ite2 | split

theorem fr_deliverKeys {s y : State} (n : ChanIx) (hF : Frame s y) : Frame s (State.deliverKeys y n) := by
  refine hF.trans ?_
  unfold State.deliverKeys
  try dsimp only
  repeat' first | with_reducible exact Frame.refl _ | with_reducible apply fr_setCh | with_reducible apply Frame.ite | with_reducible apply Frame.ite2 | split

theorem fr_revokeKeys {s y : State} (changed : List ℕ) (hF : Frame s y) : Frame s (State.revokeKeys y changed) := by
  refine hF.trans ?_
  unfold State.revokeKeys
  try dsimp only
  repeat' first | with_reducible exact Frame.refl _ | with_reducible apply fr_setCh | with_reducible apply Frame.ite | with_reducible apply Frame.ite2 | with_reducible apply Frame.fold | with_reducible apply Frame.fold2 | intro _ | split

theorem fr_wearOn {s y : State} (k : Fin 8) (hF : Frame s y) : Frame s (State.wearOn y k) := by
  refine hF.trans ?_
  unfold State.wearOn
  try dsimp only
  repeat' first | with_reducible exact Frame.refl _ | fail_if_no_progress (with_reducible apply Frame.upd) | with_reducible apply Frame.ite | with_reducible apply Frame.ite2 | split

theorem fr_mirror {s y : State} (bs : Bytes) (hF : Frame s y) : Frame s (State.mirror y bs) := by
  refine hF.trans ?_
  unfold State.mirror
  try dsimp only
  repeat' first | with_reducible exact Frame.refl _ | with_reducible apply fr_gevt | with_reducible apply fr_gbump | with_reducible apply fr_gput | with_reducible apply fr_emit | with_reducible apply fr_msix | with_reducible apply Frame.ite | with_reducible apply Frame.ite2 | split

theorem fr_signRecord {s y : State} (last : ℕ) (hF : Frame s y) : Frame s (State.signRecord y last) := by
  refine hF.trans ?_
  unfold State.signRecord
  try dsimp only
  repeat' first | with_reducible exact Frame.refl _ | with_reducible apply fr_slotSign | with_reducible apply fr_gput | with_reducible apply fr_wearOn | with_reducible apply fr_gevt | fail_if_no_progress (with_reducible apply Frame.upd) | with_reducible apply Frame.ite | with_reducible apply Frame.ite2 | split

theorem linked_take (n : Nat) (l : List BookEnt) (h : linked l) : linked (l.take n) := by
  induction l generalizing n with
  | nil => simp [linked]
  | cons e r ih =>
    cases n with
    | zero => simp [linked]
    | succ n =>
      cases r with
      | nil => simp [linked]
      | cons f r =>
        cases n with
        | zero => simp [linked]
        | succ n =>
          simp only [linked, List.take_succ_cons] at h ⊢
          have := ih (n + 1) h.2.2
          simp only [List.take_succ_cons] at this
          exact ⟨h.1, h.2.1, this⟩

/-- An entry that numbers and hashes the newest one goes in front of it. -/
theorem chained_cons {b : BookSt} {e : BookEnt} (hs : e.seq = b.next) (hl : ∀ f ∈ b.ring.head?, e.link = (sha384 f.bytes).take 16)
    (h : b.chained) : { b with ring := (e :: b.ring).take 32768, next := b.next + 1 }.chained := by
  refine ⟨by simp, linked_take _ _ ?_, ?_⟩
  · rcases hr : b.ring with _ | ⟨f, r⟩
    · simp [linked]
    · have hc := h.2.2 f (by simp [hr])
      have hk := h.2.1
      rw [hr] at hk
      exact ⟨by omega, hl f (by simp [hr]), hk⟩
  · intro f hf
    simp only [List.take_succ_cons, List.head?_cons, Option.mem_def, Option.some.injEq] at hf
    subst hf
    simp [hs]

/-- An entry put into the ring. -/
theorem fr_bookPut {y : State} (e : BookEnt) : Frame y { y.wearOn 1 with book := { y.book with ring := ({ e with seq := y.book.next, link := y.bookLink } :: y.book.ring).take 32768, next := y.book.next + 1 } } := by
  refine ⟨rfl, rfl, le_refl _, id, fun w => ⟨chained_cons rfl (fun f hf => ?_) w, [_], rfl, rfl⟩⟩
  cases hr : y.book.ring with
  | nil => simp [hr] at hf
  | cons g r => simp only [hr, List.head?_cons, Option.mem_def, Option.some.injEq] at hf; subst hf; simp [State.bookLink, hr]

/-- An entry written to the book numbers and hashes the one before. -/
theorem fr_bookAppend {s y : State} (e : BookEnt) (hF : Frame s y) : Frame s (y.bookAppend e) := by
  refine hF.trans ?_
  have h1 := fr_bookPut (y := y) e
  unfold State.bookAppend
  dsimp only
  repeat' first | with_reducible exact Frame.refl _ | with_reducible assumption | with_reducible apply fr_signRecord | with_reducible apply fr_mirror | with_reducible apply fr_gevt | with_reducible apply Frame.ite

theorem fr_book1 {s y : State} (c : Change) (hF : Frame s y) : Frame s (State.book1 y c) := by
  refine hF.trans ?_
  unfold State.book1
  try dsimp only
  repeat' first | with_reducible exact Frame.refl _ | fail_if_no_progress (with_reducible apply Frame.upd) | with_reducible apply Frame.ite | with_reducible apply Frame.ite2 | split

theorem fr_bookAll {s y : State} (cs : List Change) (hF : Frame s y) : Frame s (State.bookAll y cs) := by
  refine hF.trans ?_
  unfold State.bookAll
  try dsimp only
  repeat' first | with_reducible exact Frame.refl _ | with_reducible apply fr_book1 | with_reducible apply Frame.ite | with_reducible apply Frame.ite2 | with_reducible apply Frame.fold | with_reducible apply Frame.fold2 | intro _ | split

theorem fr_bookEnter {s y : State} (e : BookEnt) (hF : Frame s y) : Frame s (State.bookEnter y e) := by
  refine hF.trans ?_
  unfold State.bookEnter
  try dsimp only
  repeat' first | with_reducible exact Frame.refl _ | with_reducible apply fr_bookAppend | with_reducible apply fr_gevt | with_reducible apply fr_gbump | fail_if_no_progress (with_reducible apply Frame.upd) | with_reducible apply Frame.ite | with_reducible apply Frame.ite2 | split

theorem fr_bookFlush {s y : State} (hF : Frame s y) : Frame s (State.bookFlush y) := by
  refine hF.trans ?_
  unfold State.bookFlush
  try dsimp only
  repeat' first | with_reducible exact Frame.refl _ | with_reducible apply fr_bookEnter | fail_if_no_progress (with_reducible apply Frame.upd) | with_reducible apply Frame.ite | with_reducible apply Frame.ite2 | with_reducible apply Frame.fold | with_reducible apply Frame.fold2 | intro _ | split

theorem fr_bookWindow {s y : State} (hF : Frame s y) : Frame s (State.bookWindow y) := by
  refine hF.trans ?_
  unfold State.bookWindow
  try dsimp only
  repeat' first | with_reducible exact Frame.refl _ | with_reducible apply fr_bookAppend | fail_if_no_progress (with_reducible apply Frame.upd) | with_reducible apply Frame.ite | with_reducible apply Frame.ite2 | with_reducible apply Frame.fold | with_reducible apply Frame.fold2 | intro _ | split

theorem fr_bookSave {s y : State} (hF : Frame s y) : Frame s (State.bookSave y) := by
  refine hF.trans ?_
  unfold State.bookSave
  try dsimp only
  repeat' first | with_reducible exact Frame.refl _ | with_reducible apply fr_bookFlush | with_reducible apply fr_bookAppend | fail_if_no_progress (with_reducible apply Frame.upd) | with_reducible apply Frame.ite | with_reducible apply Frame.ite2 | with_reducible apply Frame.fold | with_reducible apply Frame.fold2 | intro _ | split

theorem fr_bookSt {s y : State} (org : Origin) (target : ℕ) (old : Word) (new : Word) (hF : Frame s y) : Frame s (State.bookSt y org target old new) := by
  refine hF.trans ?_
  unfold State.bookSt
  try dsimp only
  repeat' first | with_reducible exact Frame.refl _ | with_reducible apply fr_book1 | with_reducible apply Frame.ite | with_reducible apply Frame.ite2 | split

theorem fr_updTally {s y : State} (f : TallyRec → TallyRec) (hF : Frame s y) : Frame s (State.updTally y f) := by
  refine hF.trans ?_
  unfold State.updTally
  try dsimp only
  repeat' first | with_reducible exact Frame.refl _ | fail_if_no_progress (with_reducible apply Frame.upd) | with_reducible apply Frame.ite | with_reducible apply Frame.ite2 | split

theorem fr_updCmd {s y : State} (slot : ℕ) (f : CmdSt → CmdSt) (hF : Frame s y) : Frame s (State.updCmd y slot f) := by
  refine hF.trans ?_
  unfold State.updCmd
  try dsimp only
  repeat' first | with_reducible exact Frame.refl _ | fail_if_no_progress (with_reducible apply Frame.upd) | with_reducible apply Frame.ite | with_reducible apply Frame.ite2 | split

theorem fr_setCmdState {s y : State} (slot : ℕ) (st : ℕ) (hF : Frame s y) : Frame s (State.setCmdState y slot st) := by
  refine hF.trans ?_
  unfold State.setCmdState
  try dsimp only
  repeat' first | with_reducible exact Frame.refl _ | with_reducible apply fr_gsetWord | with_reducible apply Frame.ite | with_reducible apply Frame.ite2 | split

theorem fr_setProgress {s y : State} (slot : ℕ) (n : ℕ) (hF : Frame s y) : Frame s (State.setProgress y slot n) := by
  refine hF.trans ?_
  unfold State.setProgress
  try dsimp only
  repeat' first | with_reducible exact Frame.refl _ | with_reducible apply fr_gsetWord | with_reducible apply Frame.ite | with_reducible apply Frame.ite2 | split

theorem fr_endCmd {s y : State} (slot : ℕ) (res : ℕ) (rdata : ℕ) (hF : Frame s y) : Frame s (State.endCmd y slot res rdata) := by
  refine hF.trans ?_
  unfold State.endCmd
  try dsimp only
  repeat' first | with_reducible exact Frame.refl _ | with_reducible apply fr_gsetWord | with_reducible apply fr_gevt | with_reducible apply fr_gput | with_reducible apply fr_msix | fail_if_no_progress (with_reducible apply Frame.upd) | with_reducible apply Frame.ite | with_reducible apply Frame.ite2 | split

theorem fr_failCmd {s y : State} (slot : ℕ) (res : ℕ) (hF : Frame s y) : Frame s (State.failCmd y slot res) := by
  refine hF.trans ?_
  unfold State.failCmd
  try dsimp only
  repeat' first | with_reducible exact Frame.refl _ | with_reducible apply fr_endCmd | with_reducible apply Frame.ite | with_reducible apply Frame.ite2 | split

theorem fr_nextLseq {s y : State} (l : Fin 2) (hF : Frame s y) : Frame s (State.nextLseq y l).2 := by
  refine hF.trans ?_
  unfold State.nextLseq
  try dsimp only
  repeat' first | with_reducible exact Frame.refl _ | fail_if_no_progress (with_reducible apply Frame.upd) | with_reducible apply Frame.ite | with_reducible apply Frame.ite2 | split

theorem fr_twinSendOn {s y : State} (l : Fin 2) (ty : ℕ) (ch : ℕ) (pl : Bytes) (hF : Frame s y) : Frame s (State.twinSendOn y l ty ch pl) := by
  refine hF.trans ?_
  unfold State.twinSendOn
  try dsimp only
  repeat' first | with_reducible exact Frame.refl _ | with_reducible apply fr_nextLseq | with_reducible apply fr_emit | with_reducible apply Frame.ite | with_reducible apply Frame.ite2 | split

theorem fr_twinSend {s y : State} (ty : ℕ) (n : ℕ) (pl : Bytes) (hF : Frame s y) : Frame s (State.twinSend y ty n pl) := by
  refine hF.trans ?_
  unfold State.twinSend
  try dsimp only
  repeat' first | with_reducible exact Frame.refl _ | with_reducible apply fr_twinSendOn | with_reducible apply Frame.ite | with_reducible apply Frame.ite2 | split

theorem fr_streamJour {s y : State} (n : ChanIx) (e : JEntry) (hF : Frame s y) : Frame s (State.streamJour y n e) := by
  refine hF.trans ?_
  unfold State.streamJour
  try dsimp only
  repeat' first | with_reducible exact Frame.refl _ | with_reducible apply fr_twinSend | with_reducible apply Frame.ite | with_reducible apply Frame.ite2 | split

theorem fr_imgIdle {s y : State} (hF : Frame s y) : Frame s (State.imgIdle y) := by
  refine hF.trans ?_
  unfold State.imgIdle
  try dsimp only
  repeat' first | with_reducible exact Frame.refl _ | with_reducible apply fr_gput | with_reducible apply Frame.ite | with_reducible apply Frame.ite2 | split

theorem fr_vclkNow {s y : State} (hF : Frame s y) : Frame s (State.vclkNow y).2 := by
  refine hF.trans ?_
  unfold State.vclkNow
  try dsimp only
  repeat' first | with_reducible exact Frame.refl _ | with_reducible apply fr_free | fail_if_no_progress (with_reducible apply Frame.upd) | with_reducible apply Frame.ite | with_reducible apply Frame.ite2 | split

theorem fr_copyEntry {s y : State} (k : ℕ) (e : VLog) (hF : Frame s y) : Frame s (State.copyEntry y k e) := by
  refine hF.trans ?_
  unfold State.copyEntry
  try dsimp only
  repeat' first | with_reducible exact Frame.refl _ | with_reducible apply fr_vclkNow | with_reducible apply fr_book1 | with_reducible apply Frame.ite | with_reducible apply Frame.ite2 | split

theorem fr_copyLog {s y : State} (hF : Frame s y) : Frame s (State.copyLog y) := by
  refine hF.trans ?_
  unfold State.copyLog
  try dsimp only
  repeat' first | with_reducible exact Frame.refl _ | with_reducible apply fr_copyEntry | with_reducible apply fr_gevt | fail_if_no_progress (with_reducible apply Frame.upd) | with_reducible apply Frame.ite | with_reducible apply Frame.ite2 | with_reducible apply Frame.fold | with_reducible apply Frame.fold2 | intro _ | split

theorem fr_powerSettle {s y : State} (hF : Frame s y) : Frame s (State.powerSettle y) := by
  refine hF.trans ?_
  unfold State.powerSettle
  try dsimp only
  repeat' first | with_reducible exact Frame.refl _ | with_reducible apply fr_copyLog | with_reducible apply fr_gput | fail_if_no_progress (with_reducible apply Frame.upd) | with_reducible apply Frame.ite | with_reducible apply Frame.ite2 | split

theorem fr_failChanOps {s y : State} (n : ChanIx) (hF : Frame s y) : Frame s (State.failChanOps y n) := by
  refine hF.trans ?_
  unfold State.failChanOps
  try dsimp only
  repeat' first | with_reducible exact Frame.refl _ | with_reducible apply fr_failCmd | with_reducible apply Frame.ite | with_reducible apply Frame.ite2 | with_reducible apply Frame.fold | with_reducible apply Frame.fold2 | intro _ | split

theorem fr_reqAbsent {s y : State} (n : ChanIx) (hF : Frame s y) : Frame s (State.reqAbsent y n) := by
  refine hF.trans ?_
  unfold State.reqAbsent
  try dsimp only
  repeat' first | with_reducible exact Frame.refl _ | with_reducible apply fr_gbump | with_reducible apply Frame.ite | with_reducible apply Frame.ite2 | split

theorem fr_dropReplies {s y : State} (n : ChanIx) (hF : Frame s y) : Frame s (State.dropReplies y n) := by
  refine hF.trans ?_
  unfold State.dropReplies
  try dsimp only
  repeat' first | with_reducible exact Frame.refl _ | with_reducible apply fr_gbumpBy | with_reducible apply fr_gevt | fail_if_no_progress (with_reducible apply Frame.upd) | with_reducible apply Frame.ite | with_reducible apply Frame.ite2 | split

theorem fr_setChSt {s y : State} (n : ChanIx) (st : ℕ) (hF : Frame s y) : Frame s (State.setChSt y n st) := by
  refine hF.trans ?_
  unfold State.setChSt
  try dsimp only
  repeat' first | with_reducible exact Frame.refl _ | with_reducible apply fr_dropReplies | with_reducible apply fr_failChanOps | with_reducible apply fr_setCh | with_reducible apply fr_powerSettle | with_reducible apply fr_gput | with_reducible apply Frame.ite | with_reducible apply Frame.ite2 | split

theorem fr_setRoot {s y : State} (r : ℕ) (st : ℕ) (hF : Frame s y) : Frame s (State.setRoot y r st) := by
  refine hF.trans ?_
  unfold State.setRoot
  try dsimp only
  repeat' first | with_reducible exact Frame.refl _ | with_reducible apply fr_gevt | with_reducible apply fr_gput | with_reducible apply Frame.ite | with_reducible apply Frame.ite2 | split

theorem fr_powerUp {s y : State} (n : ChanIx) (hF : Frame s y) : Frame s (State.powerUp y n) := by
  refine hF.trans ?_
  unfold State.powerUp
  try dsimp only
  repeat' first | with_reducible exact Frame.refl _ | with_reducible apply fr_updImg | with_reducible apply Frame.ite | with_reducible apply Frame.ite2 | split

theorem fr_powerDown {s y : State} (n : ChanIx) (hF : Frame s y) : Frame s (State.powerDown y n) := by
  refine hF.trans ?_
  unfold State.powerDown
  try dsimp only
  repeat' first | with_reducible exact Frame.refl _ | with_reducible apply fr_updImg | with_reducible apply Frame.ite | with_reducible apply Frame.ite2 | split

theorem fr_stopLoad {s y : State} (n : ChanIx) (err : Option ℕ) (res : ℕ) (hF : Frame s y) : Frame s (State.stopLoad y n err res) := by
  refine hF.trans ?_
  unfold State.stopLoad
  try dsimp only
  repeat' first | with_reducible exact Frame.refl _ | with_reducible apply fr_updImg | with_reducible apply fr_gput | with_reducible apply fr_imgIdle | with_reducible apply fr_setChSt | with_reducible apply fr_powerDown | with_reducible apply fr_gevt | with_reducible apply fr_endCmd | with_reducible apply Frame.ite | with_reducible apply Frame.ite2 | split

theorem fr_stopDevice {s y : State} (err : Option ℕ) (res : ℕ) (hF : Frame s y) : Frame s (State.stopDevice y err res) := by
  refine hF.trans ?_
  unfold State.stopDevice
  try dsimp only
  repeat' first | with_reducible exact Frame.refl _ | with_reducible apply fr_gput | with_reducible apply fr_gevt | with_reducible apply fr_setStage | with_reducible apply fr_imgIdle | with_reducible apply fr_endCmd | fail_if_no_progress (with_reducible apply Frame.upd) | with_reducible apply Frame.ite | with_reducible apply Frame.ite2 | split

theorem fr_stopLoads {s y : State} (err : Option ℕ) (res : ℕ) (hF : Frame s y) : Frame s (State.stopLoads y err res) := by
  refine hF.trans ?_
  unfold State.stopLoads
  try dsimp only
  repeat' first | with_reducible exact Frame.refl _ | with_reducible apply fr_stopDevice | with_reducible apply fr_stopLoad | with_reducible apply Frame.ite | with_reducible apply Frame.ite2 | with_reducible apply Frame.fold | with_reducible apply Frame.fold2 | intro _ | split

theorem fr_abortCmd {s y : State} (slot : ℕ) (res : ℕ) (hF : Frame s y) : Frame s (State.abortCmd y slot res) := by
  refine hF.trans ?_
  unfold State.abortCmd
  try dsimp only
  repeat' first | with_reducible exact Frame.refl _ | with_reducible apply fr_setCh | with_reducible apply fr_stopDevice | with_reducible apply fr_stopLoad | with_reducible apply fr_endCmd | fail_if_no_progress (with_reducible apply Frame.upd) | with_reducible apply Frame.ite | with_reducible apply Frame.ite2 | with_reducible apply Frame.fold | with_reducible apply Frame.fold2 | intro _ | split

theorem fr_driveCh {s y : State} (n : ChanIx) (hF : Frame s y) : Frame s (State.driveCh y n) := by
  refine hF.trans ?_
  unfold State.driveCh
  try dsimp only
  repeat' first | with_reducible exact Frame.refl _ | with_reducible apply fr_setCh | with_reducible apply Frame.ite | with_reducible apply Frame.ite2 | split

theorem fr_setDrive {s y : State} (b : Bool) (hF : Frame s y) : Frame s (State.setDrive y b) := by
  refine hF.trans ?_
  unfold State.setDrive
  try dsimp only
  repeat' first | with_reducible exact Frame.refl _ | with_reducible apply fr_gevt | with_reducible apply fr_gput | with_reducible apply fr_driveCh | with_reducible apply Frame.ite | with_reducible apply Frame.ite2 | with_reducible apply Frame.fold | with_reducible apply Frame.fold2 | intro _ | split

theorem fr_quietCh {s y : State} (n : ChanIx) (hF : Frame s y) : Frame s (State.quietCh y n) := by
  refine hF.trans ?_
  unfold State.quietCh
  try dsimp only
  repeat' first | with_reducible exact Frame.refl _ | with_reducible apply fr_setCh | with_reducible apply Frame.ite | with_reducible apply Frame.ite2 | with_reducible apply Frame.fold | with_reducible apply Frame.fold2 | intro _ | split

theorem fr_enterSafe {s y : State} (cause : ℕ) (src : ℕ) (hF : Frame s y) : Frame s (State.enterSafe y cause src) := by
  refine hF.trans ?_
  unfold State.enterSafe
  try dsimp only
  repeat' first | with_reducible exact Frame.refl _ | with_reducible apply fr_gput | with_reducible apply fr_msix | with_reducible apply fr_abortCmd | with_reducible apply fr_stopLoads | with_reducible apply fr_quietCh | with_reducible apply fr_setDrive | with_reducible apply fr_bookSt | fail_if_no_progress (with_reducible apply Frame.upd) | with_reducible apply Frame.ite | with_reducible apply Frame.ite2 | with_reducible apply Frame.fold | with_reducible apply Frame.fold2 | intro _ | split

theorem fr_loadHeld {s y : State} (n : ChanIx) (org : Origin) (carry : Bool) (rack : Bool) (hF : Frame s y) : Frame s (State.loadHeld y n org carry rack) := by
  refine hF.trans ?_
  unfold State.loadHeld
  try dsimp only
  repeat' first | with_reducible exact Frame.refl _ | with_reducible apply fr_updImg | with_reducible apply fr_gput | with_reducible apply Frame.ite | with_reducible apply Frame.ite2 | split

theorem fr_resetCommon {s y : State} (b : CB) (hF : Frame s y) : Frame s (State.resetCommon y b) := by
  refine hF.trans ?_
  unfold State.resetCommon
  try dsimp only
  repeat' first | with_reducible exact Frame.refl _ | with_reducible apply fr_abortCmd | with_reducible apply fr_bookAppend | with_reducible apply fr_gput | with_reducible apply fr_stopLoads | fail_if_no_progress (with_reducible apply Frame.upd) | with_reducible apply Frame.ite | with_reducible apply Frame.ite2 | with_reducible apply Frame.fold | with_reducible apply Frame.fold2 | intro _ | split

theorem fr_blockReset {s y : State} (n : ℕ) (old : Word) (new : Word) (hF : Frame s y) : Frame s (State.blockReset y n old new) := by
  refine hF.trans ?_
  unfold State.blockReset
  try dsimp only
  repeat' first | with_reducible exact Frame.refl _ | with_reducible apply fr_bookSt | with_reducible apply fr_loadHeld | with_reducible apply fr_resetCommon | with_reducible apply Frame.ite | with_reducible apply Frame.ite2 | split

theorem fr_blockDue {s y : State} (n : ℕ) (old : Word) (new : Word) (hF : Frame s y) : Frame s (State.blockDue y n old new) := by
  refine hF.trans ?_
  unfold State.blockDue
  try dsimp only
  repeat' first | with_reducible exact Frame.refl _ | fail_if_no_progress (with_reducible apply Frame.upd) | with_reducible apply Frame.ite | with_reducible apply Frame.ite2 | split

theorem fr_blockResets {s y : State} (hF : Frame s y) : Frame s (State.blockResets y) := by
  refine hF.trans ?_
  unfold State.blockResets
  try dsimp only
  repeat' first | with_reducible exact Frame.refl _ | with_reducible apply fr_blockReset | fail_if_no_progress (with_reducible apply Frame.upd) | with_reducible apply Frame.ite | with_reducible apply Frame.ite2 | with_reducible apply Frame.fold | with_reducible apply Frame.fold2 | intro _ | split

theorem fr_holdErrN {s y : State} (n : ℕ) (inj : Bool) (hF : Frame s y) : Frame s (State.holdErrN y n inj) := by
  refine hF.trans ?_
  unfold State.holdErrN
  try dsimp only
  repeat' first | with_reducible exact Frame.refl _ | fail_if_no_progress (with_reducible apply Frame.upd) | with_reducible apply Frame.ite | with_reducible apply Frame.ite2 | split

theorem fr_takeReact {s y : State} (n : ℕ) (mask : ℕ) (inj : Bool) (old : Word) (hF : Frame s y) : Frame s (State.takeReact y n mask inj old) := by
  refine hF.trans ?_
  unfold State.takeReact
  try dsimp only
  repeat' first | with_reducible exact Frame.refl _ | with_reducible apply fr_msix | with_reducible apply fr_gevt | with_reducible apply fr_gput | with_reducible apply fr_holdErrN | with_reducible apply fr_enterSafe | with_reducible apply fr_blockDue | fail_if_no_progress (with_reducible apply Frame.upd) | with_reducible apply Frame.ite | with_reducible apply Frame.ite2 | split

theorem fr_firstFault {s y : State} (n : ℕ) (inj : Bool) (hF : Frame s y) : Frame s (State.firstFault y n inj) := by
  refine hF.trans ?_
  unfold State.firstFault
  try dsimp only
  repeat' first | with_reducible exact Frame.refl _ | with_reducible apply fr_gput | with_reducible apply fr_gevt | with_reducible apply Frame.ite | with_reducible apply Frame.ite2 | split

theorem fr_detectAbsent {s y : State} (n : ℕ) (hF : Frame s y) : Frame s (State.detectAbsent y n) := by
  refine hF.trans ?_
  unfold State.detectAbsent
  try dsimp only
  repeat' first | with_reducible exact Frame.refl _ | with_reducible apply fr_reqAbsent | with_reducible apply Frame.ite | with_reducible apply Frame.ite2 | split

theorem fr_detect {s y : State} (n : ℕ) (hF : Frame s y) : Frame s (State.detect y n) := by
  refine hF.trans ?_
  unfold State.detect
  try dsimp only
  repeat' first | with_reducible exact Frame.refl _ | with_reducible apply fr_detectAbsent | with_reducible apply fr_updTally | with_reducible apply fr_firstFault | with_reducible apply fr_gbumpSat | with_reducible apply fr_gevt | with_reducible apply fr_takeReact | with_reducible apply fr_enterSafe | with_reducible apply Frame.ite | with_reducible apply Frame.ite2 | split

theorem fr_detectLevel {s y : State} (n : ℕ) (hF : Frame s y) : Frame s (State.detectLevel y n) := by
  refine hF.trans ?_
  unfold State.detectLevel
  try dsimp only
  repeat' first | with_reducible exact Frame.refl _ | with_reducible apply fr_gput | with_reducible apply fr_detect | with_reducible apply fr_detectAbsent | with_reducible apply Frame.ite | with_reducible apply Frame.ite2 | split

theorem fr_clearLevel {s y : State} (n : ℕ) (hF : Frame s y) : Frame s (State.clearLevel y n) := by
  refine hF.trans ?_
  unfold State.clearLevel
  try dsimp only
  repeat' first | with_reducible exact Frame.refl _ | with_reducible apply fr_gput | with_reducible apply Frame.ite | with_reducible apply Frame.ite2 | split

theorem fr_detectInjected {s y : State} (n : ℕ) (full : Bool) (hF : Frame s y) : Frame s (State.detectInjected y n full) := by
  refine hF.trans ?_
  unfold State.detectInjected
  try dsimp only
  repeat' first | with_reducible exact Frame.refl _ | with_reducible apply fr_updTally | with_reducible apply fr_firstFault | with_reducible apply fr_gbumpSat | with_reducible apply fr_gevt | with_reducible apply fr_takeReact | with_reducible apply fr_enterSafe | with_reducible apply fr_gput | fail_if_no_progress (with_reducible apply Frame.upd) | with_reducible apply Frame.ite | with_reducible apply Frame.ite2 | split

theorem fr_streamClient {s y : State} (n : ChanIx) (ix : ℕ) (hF : Frame s y) : Frame s (State.streamClient y n ix) := by
  refine hF.trans ?_
  unfold State.streamClient
  try dsimp only
  repeat' first | with_reducible exact Frame.refl _ | with_reducible apply fr_free | with_reducible apply fr_twinSend | with_reducible apply Frame.ite | with_reducible apply Frame.ite2 | split

theorem fr_doEff {s y : State} (n : ChanIx) (e : Eff) (hF : Frame s y) : Frame s (State.doEff n y e) := by
  refine hF.trans ?_
  unfold State.doEff
  try dsimp only
  repeat' first | with_reducible exact Frame.refl _ | with_reducible apply fr_detect | with_reducible apply fr_msix | with_reducible apply fr_streamJour | with_reducible apply fr_setCh | with_reducible apply fr_endCmd | with_reducible apply fr_emit | with_reducible apply fr_gevt | with_reducible apply fr_deliverKeys | with_reducible apply fr_streamClient | with_reducible apply fr_updTally | with_reducible apply Frame.ite | with_reducible apply Frame.ite2 | with_reducible apply Frame.fold | with_reducible apply Frame.fold2 | intro _ | split

theorem fr_drainOnce {s y : State} (hF : Frame s y) : Frame s (State.drainOnce y) := by
  refine hF.trans ?_
  unfold State.drainOnce
  try dsimp only
  repeat' first | with_reducible exact Frame.refl _ | with_reducible apply fr_setCh | with_reducible apply fr_bookAll | with_reducible apply fr_doEff | with_reducible apply Frame.ite | with_reducible apply Frame.ite2 | with_reducible apply Frame.fold | with_reducible apply Frame.fold2 | intro _ | split

theorem fr_drain {s y : State} (hF : Frame s y) : Frame s (State.drain y) := by
  refine hF.trans ?_
  unfold State.drain
  try dsimp only
  repeat' first | with_reducible exact Frame.refl _ | with_reducible apply fr_drainOnce | with_reducible apply Frame.ite | with_reducible apply Frame.ite2 | with_reducible apply Frame.iter | intro _ | split

theorem fr_onCh {s y : State} (n : ChanIx) (f : Channel → Channel) (hF : Frame s y) : Frame s (State.onCh y n f) := by
  refine hF.trans ?_
  unfold State.onCh
  try dsimp only
  repeat' first | with_reducible exact Frame.refl _ | with_reducible apply fr_setCh | with_reducible apply Frame.ite | with_reducible apply Frame.ite2 | split

theorem fr_streamVintage {s y : State} (n : ChanIx) (v : Vintage) (hF : Frame s y) : Frame s (State.streamVintage y n v) := by
  refine hF.trans ?_
  unfold State.streamVintage
  try dsimp only
  repeat' first | with_reducible exact Frame.refl _ | with_reducible apply fr_twinSend | fail_if_no_progress (with_reducible apply Frame.upd) | with_reducible apply Frame.ite | with_reducible apply Frame.ite2 | with_reducible apply Frame.fold | with_reducible apply Frame.fold2 | intro _ | split

theorem fr_writeVintage {s y : State} (n : ChanIx) (hF : Frame s y) : Frame s (State.writeVintage y n) := by
  refine hF.trans ?_
  unfold State.writeVintage
  try dsimp only
  repeat' first | with_reducible exact Frame.refl _ | with_reducible apply fr_wearOn | with_reducible apply fr_setCh | with_reducible apply fr_streamVintage | fail_if_no_progress (with_reducible apply Frame.upd) | with_reducible apply Frame.ite | with_reducible apply Frame.ite2 | split

theorem fr_putMeas {s y : State} (off : ℕ) (m : Bytes) (hF : Frame s y) : Frame s (State.putMeas y off m) := by
  refine hF.trans ?_
  unfold State.putMeas
  try dsimp only
  repeat' first | with_reducible exact Frame.refl _ | with_reducible apply fr_gsetWord | with_reducible apply Frame.ite | with_reducible apply Frame.ite2 | with_reducible apply Frame.fold | with_reducible apply Frame.fold2 | intro _ | split

theorem fr_setHeld {s y : State} (n : ChanIx) (h : Option Bool) (hF : Frame s y) : Frame s (State.setHeld y n h) := by
  refine hF.trans ?_
  unfold State.setHeld
  try dsimp only
  repeat' first | with_reducible exact Frame.refl _ | with_reducible apply fr_updImg | with_reducible apply fr_gput | with_reducible apply fr_putMeas | with_reducible apply Frame.ite | with_reducible apply Frame.ite2 | split

theorem fr_setStaged {s y : State} (n : ChanIx) (b : Bool) (hF : Frame s y) : Frame s (State.setStaged y n b) := by
  refine hF.trans ?_
  unfold State.setStaged
  try dsimp only
  repeat' first | with_reducible exact Frame.refl _ | with_reducible apply fr_gput | with_reducible apply fr_updImg | with_reducible apply fr_putMeas | with_reducible apply Frame.ite | with_reducible apply Frame.ite2 | split

theorem fr_storeImage {s y : State} (n : ChanIx) (bs : Bytes) (hF : Frame s y) : Frame s (State.storeImage y n bs) := by
  refine hF.trans ?_
  unfold State.storeImage
  try dsimp only
  repeat' first | with_reducible exact Frame.refl _ | with_reducible apply fr_setStaged | with_reducible apply fr_updImg | with_reducible apply Frame.ite | with_reducible apply Frame.ite2 | split

theorem fr_setPhase {s y : State} (n : ChanIx) (ph : ℕ) (hF : Frame s y) : Frame s (State.setPhase y n ph) := by
  refine hF.trans ?_
  unfold State.setPhase
  try dsimp only
  repeat' first | with_reducible exact Frame.refl _ | with_reducible apply fr_gput | with_reducible apply Frame.ite | with_reducible apply Frame.ite2 | split

theorem fr_endJob {s y : State} (n : ChanIx) (hF : Frame s y) : Frame s (State.endJob y n) := by
  refine hF.trans ?_
  unfold State.endJob
  try dsimp only
  repeat' first | with_reducible exact Frame.refl _ | with_reducible apply fr_imgIdle | with_reducible apply fr_updImg | with_reducible apply Frame.ite | with_reducible apply Frame.ite2 | split

theorem fr_endLoadCmd {s y : State} (j : LoadJob) (res : ℕ) (hF : Frame s y) : Frame s (State.endLoadCmd y j res) := by
  refine hF.trans ?_
  unfold State.endLoadCmd
  try dsimp only
  repeat' first | with_reducible exact Frame.refl _ | with_reducible apply fr_endCmd | with_reducible apply Frame.ite | with_reducible apply Frame.ite2 | split

theorem fr_dropRack {s y : State} (n : ChanIx) (hF : Frame s y) : Frame s (State.dropRack y n) := by
  refine hF.trans ?_
  unfold State.dropRack
  try dsimp only
  repeat' first | with_reducible exact Frame.refl _ | fail_if_no_progress (with_reducible apply Frame.upd) | with_reducible apply Frame.ite | with_reducible apply Frame.ite2 | split

theorem fr_failCheck {s y : State} (n : ChanIx) (j : LoadJob) (e : ℕ × ℕ) (hF : Frame s y) : Frame s (State.failCheck y n j e) := by
  refine hF.trans ?_
  unfold State.failCheck
  try dsimp only
  repeat' first | with_reducible exact Frame.refl _ | with_reducible apply fr_endJob | with_reducible apply fr_gput | with_reducible apply fr_setHeld | with_reducible apply fr_dropRack | with_reducible apply fr_powerDown | with_reducible apply fr_setChSt | with_reducible apply fr_endLoadCmd | with_reducible apply fr_gevt | with_reducible apply Frame.ite | with_reducible apply Frame.ite2 | split

theorem fr_loadCheck {s y : State} (n : ChanIx) (hF : Frame s y) : Frame s (State.loadCheck y n) := by
  refine hF.trans ?_
  unfold State.loadCheck
  try dsimp only
  repeat' first | with_reducible exact Frame.refl _ | with_reducible apply fr_failCheck | with_reducible apply fr_setPhase | with_reducible apply fr_updImg | with_reducible apply Frame.ite | with_reducible apply Frame.ite2 | split

theorem fr_enterReconfig {s y : State} (n : ChanIx) (hF : Frame s y) : Frame s (State.enterReconfig y n) := by
  refine hF.trans ?_
  unfold State.enterReconfig
  try dsimp only
  repeat' first | with_reducible exact Frame.refl _ | with_reducible apply fr_setChSt | with_reducible apply fr_setPhase | with_reducible apply fr_updImg | with_reducible apply fr_setCh | with_reducible apply Frame.ite | with_reducible apply Frame.ite2 | split

theorem fr_raiseFloor {s y : State} (org : Origin) (i : Img) (hF : Frame s y) : Frame s (State.raiseFloor y org i) := by
  refine hF.trans ?_
  unfold State.raiseFloor
  try dsimp only
  repeat' first | with_reducible exact Frame.refl _ | with_reducible apply fr_bookSt | with_reducible apply fr_gevt | with_reducible apply fr_gput | with_reducible apply fr_wearOn | with_reducible apply Frame.ite | with_reducible apply Frame.ite2 | split

theorem fr_applyPolicy {s y : State} (n : ChanIx) (i : Img) (hF : Frame s y) : Frame s (State.applyPolicy y n i) := by
  refine hF.trans ?_
  unfold State.applyPolicy
  try dsimp only
  repeat' first | with_reducible exact Frame.refl _ | with_reducible apply fr_gput | with_reducible apply Frame.ite | with_reducible apply Frame.ite2 | with_reducible apply Frame.fold | with_reducible apply Frame.fold2 | intro _ | split

theorem fr_goRun {s y : State} (n : ChanIx) (j : LoadJob) (i : Img) (c : Channel) (hF : Frame s y) : Frame s (State.goRun y n j i c) := by
  refine hF.trans ?_
  unfold State.goRun
  try dsimp only
  repeat' first | with_reducible exact Frame.refl _ | with_reducible apply fr_setChSt | with_reducible apply fr_applyPolicy | with_reducible apply fr_setCh | with_reducible apply fr_gput | with_reducible apply fr_updImg | with_reducible apply fr_revokeKeys | fail_if_no_progress (with_reducible apply Frame.upd) | with_reducible apply Frame.ite | with_reducible apply Frame.ite2 | split

theorem fr_applyComplete {s y : State} (n : ChanIx) (hF : Frame s y) : Frame s (State.applyComplete y n) := by
  refine hF.trans ?_
  unfold State.applyComplete
  try dsimp only
  repeat' first | with_reducible exact Frame.refl _ | with_reducible apply fr_goRun | with_reducible apply fr_book1 | with_reducible apply fr_endLoadCmd | with_reducible apply fr_gevt | with_reducible apply fr_endJob | with_reducible apply fr_setStaged | with_reducible apply fr_setHeld | with_reducible apply fr_gbump | with_reducible apply fr_gput | with_reducible apply fr_raiseFloor | with_reducible apply fr_writeVintage | with_reducible apply fr_setPhase | with_reducible apply fr_updImg | with_reducible apply fr_dropRack | with_reducible apply fr_setChSt | with_reducible apply Frame.ite | with_reducible apply Frame.ite2 | split

theorem fr_stageImage {s y : State} (n : ChanIx) (j : LoadJob) (hF : Frame s y) : Frame s (State.stageImage y n j) := by
  refine hF.trans ?_
  unfold State.stageImage
  try dsimp only
  repeat' first | with_reducible exact Frame.refl _ | with_reducible apply fr_failCheck | with_reducible apply fr_setStaged | with_reducible apply fr_setHeld | with_reducible apply fr_gevt | with_reducible apply fr_endJob | with_reducible apply fr_gput | with_reducible apply fr_endLoadCmd | with_reducible apply Frame.ite | with_reducible apply Frame.ite2 | split

theorem fr_gateCh {s y : State} (n : ChanIx) (hF : Frame s y) : Frame s (State.gateCh y n) := by
  refine hF.trans ?_
  unfold State.gateCh
  try dsimp only
  repeat' first | with_reducible exact Frame.refl _ | with_reducible apply fr_stopLoad | with_reducible apply fr_powerDown | with_reducible apply fr_updImg | with_reducible apply fr_setStaged | with_reducible apply fr_setHeld | with_reducible apply fr_setChSt | with_reducible apply fr_setCh | with_reducible apply Frame.ite | with_reducible apply Frame.ite2 | split

theorem fr_ungateCh {s y : State} (n : ChanIx) (org : Origin) (rack : Bool) (hF : Frame s y) : Frame s (State.ungateCh y n org rack) := by
  refine hF.trans ?_
  unfold State.ungateCh
  try dsimp only
  repeat' first | with_reducible exact Frame.refl _ | with_reducible apply fr_setChSt | with_reducible apply fr_powerUp | with_reducible apply fr_updImg | with_reducible apply fr_loadHeld | with_reducible apply Frame.ite | with_reducible apply Frame.ite2 | split

theorem fr_chCtl {s y : State} (n : ChanIx) (org : Origin) (v : Word) (hF : Frame s y) : Frame s (State.chCtl y n org v).2 := by
  refine hF.trans ?_
  unfold State.chCtl
  try dsimp only
  repeat' first | with_reducible exact Frame.refl _ | with_reducible apply fr_gateCh | with_reducible apply fr_ungateCh | with_reducible apply fr_loadHeld | with_reducible apply Frame.ite | with_reducible apply Frame.ite2 | split

theorem fr_updTwin {s y : State} (f : TwinSt → TwinSt) (hF : Frame s y) : Frame s (State.updTwin y f) := by
  refine hF.trans ?_
  unfold State.updTwin
  try dsimp only
  repeat' first | with_reducible exact Frame.refl _ | fail_if_no_progress (with_reducible apply Frame.upd) | with_reducible apply Frame.ite | with_reducible apply Frame.ite2 | split

theorem fr_raiseEpoch {s y : State} (hF : Frame s y) : Frame s (State.raiseEpoch y) := by
  refine hF.trans ?_
  unfold State.raiseEpoch
  try dsimp only
  repeat' first | with_reducible exact Frame.refl _ | with_reducible apply fr_bookSt | with_reducible apply fr_gput | with_reducible apply fr_wearOn | with_reducible apply Frame.ite | with_reducible apply Frame.ite2 | split

theorem fr_seeEpoch {s y : State} (e : ℕ) (hF : Frame s y) : Frame s (State.seeEpoch y e) := by
  refine hF.trans ?_
  unfold State.seeEpoch
  try dsimp only
  repeat' first | with_reducible exact Frame.refl _ | with_reducible apply fr_updTwin | with_reducible apply Frame.ite | with_reducible apply Frame.ite2 | split

theorem fr_sendResync {s y : State} (n : ChanIx) (what : ℕ) (hF : Frame s y) : Frame s (State.sendResync y n what) := by
  refine hF.trans ?_
  unfold State.sendResync
  try dsimp only
  repeat' first | with_reducible exact Frame.refl _ | with_reducible apply fr_twinSend | with_reducible apply fr_gbump | with_reducible apply Frame.ite | with_reducible apply Frame.ite2 | split

theorem fr_setPath {s y : State} (b : Bool) (v : ℕ) (hF : Frame s y) : Frame s (State.setPath y b v) := by
  refine hF.trans ?_
  unfold State.setPath
  try dsimp only
  repeat' first | with_reducible exact Frame.refl _ | with_reducible apply fr_gevt | with_reducible apply fr_gput | with_reducible apply Frame.ite | with_reducible apply Frame.ite2 | split

theorem fr_pathsUnheard {s y : State} (hF : Frame s y) : Frame s (State.pathsUnheard y) := by
  refine hF.trans ?_
  unfold State.pathsUnheard
  try dsimp only
  repeat' first | with_reducible exact Frame.refl _ | with_reducible apply fr_updTwin | with_reducible apply fr_setPath | with_reducible apply Frame.ite | with_reducible apply Frame.ite2 | split

theorem fr_endDrill {s y : State} (res : ℕ) (hF : Frame s y) : Frame s (State.endDrill y res) := by
  refine hF.trans ?_
  unfold State.endDrill
  try dsimp only
  repeat' first | with_reducible exact Frame.refl _ | with_reducible apply fr_updTwin | with_reducible apply fr_endCmd | with_reducible apply fr_updTally | with_reducible apply Frame.ite | with_reducible apply Frame.ite2 | split

theorem fr_twinTo {s y : State} (st : ℕ) (org : Origin) (hF : Frame s y) : Frame s (State.twinTo y st org) := by
  refine hF.trans ?_
  unfold State.twinTo
  try dsimp only
  repeat' first | with_reducible exact Frame.refl _ | with_reducible apply fr_gput | with_reducible apply fr_bookSt | with_reducible apply fr_gevt | with_reducible apply fr_endDrill | with_reducible apply Frame.ite | with_reducible apply Frame.ite2 | split

theorem fr_coldEntry {s y : State} (st : ℕ) (org : Origin) (hF : Frame s y) : Frame s (State.coldEntry y st org) := by
  refine hF.trans ?_
  unfold State.coldEntry
  try dsimp only
  repeat' first | with_reducible exact Frame.refl _ | with_reducible apply fr_setDrive | with_reducible apply fr_updTwin | with_reducible apply fr_pathsUnheard | with_reducible apply fr_twinTo | with_reducible apply fr_gateCh | with_reducible apply Frame.ite | with_reducible apply Frame.ite2 | with_reducible apply Frame.fold | with_reducible apply Frame.fold2 | intro _ | split

theorem fr_startChannels {s y : State} (ns : List ChanIx) (rack : Bool) (hF : Frame s y) : Frame s (State.startChannels y ns rack) := by
  refine hF.trans ?_
  unfold State.startChannels
  try dsimp only
  repeat' first | with_reducible exact Frame.refl _ | with_reducible apply fr_ungateCh | with_reducible apply Frame.ite | with_reducible apply Frame.ite2 | with_reducible apply Frame.fold | with_reducible apply Frame.fold2 | intro _ | split

theorem fr_startRack {s y : State} (t0 : ℕ) (drill : Bool) (hF : Frame s y) : Frame s (State.startRack y t0 drill) := by
  refine hF.trans ?_
  unfold State.startRack
  try dsimp only
  repeat' first | with_reducible exact Frame.refl _ | with_reducible apply fr_updTwin | with_reducible apply fr_gput | with_reducible apply fr_startChannels | with_reducible apply Frame.ite | with_reducible apply Frame.ite2 | split

theorem fr_goRacking {s y : State} (t0 : ℕ) (hF : Frame s y) : Frame s (State.goRacking y t0) := by
  refine hF.trans ?_
  unfold State.goRacking
  try dsimp only
  repeat' first | with_reducible exact Frame.refl _ | with_reducible apply fr_updTwin | with_reducible apply fr_gput | with_reducible apply fr_startRack | with_reducible apply fr_raiseEpoch | with_reducible apply fr_twinTo | with_reducible apply Frame.ite | with_reducible apply Frame.ite2 | split

theorem fr_rackWait {s y : State} (hF : Frame s y) : Frame s (State.rackWait y) := by
  refine hF.trans ?_
  unfold State.rackWait
  try dsimp only
  repeat' first | with_reducible exact Frame.refl _ | with_reducible apply fr_updTwin | with_reducible apply fr_gevt | with_reducible apply fr_gput | with_reducible apply Frame.ite | with_reducible apply Frame.ite2 | split

theorem fr_sendDrill {s y : State} (op : ℕ) (reason : ℕ) (hF : Frame s y) : Frame s (State.sendDrill y op reason) := by
  refine hF.trans ?_
  unfold State.sendDrill
  try dsimp only
  repeat' first | with_reducible exact Frame.refl _ | with_reducible apply fr_twinSend | with_reducible apply Frame.ite | with_reducible apply Frame.ite2 | split

theorem fr_drillFail {s y : State} (hF : Frame s y) : Frame s (State.drillFail y) := by
  refine hF.trans ?_
  unfold State.drillFail
  try dsimp only
  repeat' first | with_reducible exact Frame.refl _ | with_reducible apply fr_gevt | with_reducible apply fr_sendDrill | with_reducible apply fr_coldEntry | with_reducible apply fr_updTally | with_reducible apply Frame.ite | with_reducible apply Frame.ite2 | split

theorem fr_dropStream {s y : State} (hF : Frame s y) : Frame s (State.dropStream y) := by
  refine hF.trans ?_
  unfold State.dropStream
  try dsimp only
  repeat' first | with_reducible exact Frame.refl _ | with_reducible apply fr_updTwin | with_reducible apply Frame.ite | with_reducible apply Frame.ite2 | split

theorem fr_rackWon {s y : State} (hF : Frame s y) : Frame s (State.rackWon y) := by
  refine hF.trans ?_
  unfold State.rackWon
  try dsimp only
  repeat' first | with_reducible exact Frame.refl _ | with_reducible apply fr_updTally | with_reducible apply fr_gput | with_reducible apply fr_twinTo | with_reducible apply fr_updTwin | with_reducible apply fr_dropStream | with_reducible apply Frame.ite | with_reducible apply Frame.ite2 | with_reducible apply Frame.fold | with_reducible apply Frame.fold2 | intro _ | split

theorem fr_bootActive {s y : State} (hF : Frame s y) : Frame s (State.bootActive y) := by
  refine hF.trans ?_
  unfold State.bootActive
  try dsimp only
  repeat' first | with_reducible exact Frame.refl _ | with_reducible apply fr_startChannels | with_reducible apply fr_dropStream | with_reducible apply fr_raiseEpoch | with_reducible apply fr_twinTo | with_reducible apply Frame.ite | with_reducible apply Frame.ite2 | split

theorem fr_declare {s y : State} (hF : Frame s y) : Frame s (State.declare y) := by
  refine hF.trans ?_
  unfold State.declare
  try dsimp only
  repeat' first | with_reducible exact Frame.refl _ | with_reducible apply fr_gevt | with_reducible apply fr_updTwin | with_reducible apply fr_goRacking | with_reducible apply fr_rackWait | with_reducible apply fr_raiseEpoch | with_reducible apply fr_twinTo | with_reducible apply fr_gput | with_reducible apply Frame.ite | with_reducible apply Frame.ite2 | split

theorem fr_feedsRise {s y : State} (hF : Frame s y) : Frame s (State.feedsRise y) := by
  refine hF.trans ?_
  unfold State.feedsRise
  try dsimp only
  repeat' first | with_reducible exact Frame.refl _ | with_reducible apply fr_goRacking | with_reducible apply Frame.ite | with_reducible apply Frame.ite2 | split

theorem fr_missExpire {s y : State} (b : Bool) (hF : Frame s y) : Frame s (State.missExpire y b) := by
  refine hF.trans ?_
  unfold State.missExpire
  try dsimp only
  repeat' first | with_reducible exact Frame.refl _ | with_reducible apply fr_declare | with_reducible apply fr_setPath | with_reducible apply Frame.ite | with_reducible apply Frame.ite2 | split

theorem fr_bootExpire {s y : State} (hF : Frame s y) : Frame s (State.bootExpire y) := by
  refine hF.trans ?_
  unfold State.bootExpire
  try dsimp only
  repeat' first | with_reducible exact Frame.refl _ | with_reducible apply fr_updTwin | with_reducible apply fr_bootActive | with_reducible apply fr_rackWait | with_reducible apply Frame.ite | with_reducible apply Frame.ite2 | split

theorem fr_fence {s y : State} (org : Origin) (hF : Frame s y) : Frame s (State.fence y org) := by
  refine hF.trans ?_
  unfold State.fence
  try dsimp only
  repeat' first | with_reducible exact Frame.refl _ | with_reducible apply fr_coldEntry | with_reducible apply Frame.ite | with_reducible apply Frame.ite2 | split

theorem fr_unfence {s y : State} (org : Origin) (hF : Frame s y) : Frame s (State.unfence y org) := by
  refine hF.trans ?_
  unfold State.unfence
  try dsimp only
  repeat' first | with_reducible exact Frame.refl _ | with_reducible apply fr_pathsUnheard | with_reducible apply fr_twinTo | with_reducible apply Frame.ite | with_reducible apply Frame.ite2 | split

theorem fr_twinReset {s y : State} (hF : Frame s y) : Frame s (State.twinReset y) := by
  refine hF.trans ?_
  unfold State.twinReset
  try dsimp only
  repeat' first | with_reducible exact Frame.refl _ | with_reducible apply fr_updTwin | with_reducible apply fr_twinTo | with_reducible apply fr_setDrive | with_reducible apply Frame.ite | with_reducible apply Frame.ite2 | split

theorem fr_roundStart {s y : State} (fell : Bool) (hF : Frame s y) : Frame s (State.roundStart y fell) := by
  refine hF.trans ?_
  unfold State.roundStart
  try dsimp only
  repeat' first | with_reducible exact Frame.refl _ | with_reducible apply fr_updTwin | with_reducible apply fr_emit | with_reducible apply Frame.ite | with_reducible apply Frame.ite2 | split

theorem fr_claimBad {s y : State} (bad : Bool) (hF : Frame s y) : Frame s (State.claimBad y bad) := by
  refine hF.trans ?_
  unfold State.claimBad
  try dsimp only
  repeat' first | with_reducible exact Frame.refl _ | with_reducible apply fr_updTwin | with_reducible apply fr_detect | with_reducible apply fr_gevt | with_reducible apply fr_gput | with_reducible apply Frame.ite | with_reducible apply Frame.ite2 | split

theorem fr_roundSettle {s y : State} (mine : ℕ) (w : ℕ) (won : Bool) (hF : Frame s y) : Frame s (State.roundSettle y mine w won) := by
  refine hF.trans ?_
  unfold State.roundSettle
  try dsimp only
  repeat' first | with_reducible exact Frame.refl _ | with_reducible apply fr_gbump | with_reducible apply fr_updTwin | with_reducible apply fr_setDrive | with_reducible apply fr_rackWon | with_reducible apply fr_coldEntry | with_reducible apply fr_endDrill | with_reducible apply Frame.ite | with_reducible apply Frame.ite2 | split

theorem fr_roundEnd {s y : State} (w : ℕ) (stuck : Bool) (noStart : Bool) (hF : Frame s y) : Frame s (State.roundEnd y w stuck noStart) := by
  refine hF.trans ?_
  unfold State.roundEnd
  try dsimp only
  repeat' first | with_reducible exact Frame.refl _ | with_reducible apply fr_seeEpoch | with_reducible apply fr_gput | with_reducible apply fr_updTwin | with_reducible apply fr_claimBad | with_reducible apply fr_roundSettle | with_reducible apply Frame.ite | with_reducible apply Frame.ite2 | split

theorem fr_contention {s y : State} (n : ChanIx) (hF : Frame s y) : Frame s (State.contention y n) := by
  refine hF.trans ?_
  unfold State.contention
  try dsimp only
  repeat' first | with_reducible exact Frame.refl _ | with_reducible apply fr_detect | with_reducible apply fr_gevt | with_reducible apply fr_gput | with_reducible apply fr_updTwin | with_reducible apply fr_setDrive | with_reducible apply fr_coldEntry | with_reducible apply Frame.ite | with_reducible apply Frame.ite2 | split

theorem fr_hbSend {s y : State} (ps0 : ℕ) (ps1 : ℕ) (hF : Frame s y) : Frame s (State.hbSend y ps0 ps1) := by
  refine hF.trans ?_
  unfold State.hbSend
  try dsimp only
  repeat' first | with_reducible exact Frame.refl _ | with_reducible apply fr_twinSendOn | with_reducible apply fr_updTwin | with_reducible apply fr_emit | with_reducible apply Frame.ite | with_reducible apply Frame.ite2 | split

theorem fr_hbCounts {s y : State} (b : Bool) (tst : ℕ) (hF : Frame s y) : Frame s (State.hbCounts y b tst) := by
  refine hF.trans ?_
  unfold State.hbCounts
  try dsimp only
  repeat' first | with_reducible exact Frame.refl _ | with_reducible apply fr_updTwin | with_reducible apply fr_setPath | with_reducible apply fr_gput | with_reducible apply Frame.ite | with_reducible apply Frame.ite2 | split

theorem fr_hbWordRx {s y : State} (w : Word) (hF : Frame s y) : Frame s (State.hbWordRx y w) := by
  refine hF.trans ?_
  unfold State.hbWordRx
  try dsimp only
  repeat' first | with_reducible exact Frame.refl _ | with_reducible apply fr_hbCounts | with_reducible apply Frame.ite | with_reducible apply Frame.ite2 | split

theorem fr_exchange {s y : State} (pl : Bytes) (t4 : ℕ) (hF : Frame s y) : Frame s (State.exchange y pl t4) := by
  refine hF.trans ?_
  unfold State.exchange
  try dsimp only
  repeat' first | with_reducible exact Frame.refl _ | with_reducible apply fr_updTwin | with_reducible apply fr_gput | with_reducible apply fr_detect | with_reducible apply fr_gevt | with_reducible apply Frame.ite | with_reducible apply Frame.ite2 | split

theorem fr_twinBad {s y : State} (l : Fin 2) (hF : Frame s y) : Frame s (State.twinBad y l) := by
  refine hF.trans ?_
  unfold State.twinBad
  try dsimp only
  repeat' first | with_reducible exact Frame.refl _ | with_reducible apply fr_updTwin | with_reducible apply fr_gbump | with_reducible apply fr_detect | with_reducible apply Frame.ite | with_reducible apply Frame.ite2 | split

theorem fr_lseqRx {s y : State} (l : Fin 2) (q : ℕ) (hF : Frame s y) : Frame s (State.lseqRx y l q) := by
  refine hF.trans ?_
  unfold State.lseqRx
  try dsimp only
  repeat' first | with_reducible exact Frame.refl _ | with_reducible apply fr_updTwin | with_reducible apply fr_gbump | with_reducible apply fr_sendResync | with_reducible apply Frame.ite | with_reducible apply Frame.ite2 | with_reducible apply Frame.fold | with_reducible apply Frame.fold2 | intro _ | split

theorem fr_twinFrame {s y : State} (l : Fin 2) (bs : Bytes) (ty : Nat) (f : State → Nat → Nat → Bytes → State) (hf : ∀ x a b c, Frame x (f x a b c)) (hF : Frame s y) : Frame s (y.twinFrame l bs ty f) := by
  refine hF.trans ?_
  unfold State.twinFrame
  dsimp only
  repeat' first | with_reducible exact Frame.refl _ | with_reducible apply fr_twinBad | with_reducible apply Frame.ite
  exact (fr_lseqRx _ _ (Frame.refl _)).trans (hf _ _ _ _)

theorem fr_hbFrame {s y : State} (l : Fin 2) (bs : Bytes) (ps : ℕ) (hF : Frame s y) : Frame s (State.hbFrame y l bs ps) := by
  refine hF.trans ?_
  unfold State.hbFrame
  try dsimp only
  repeat' first | with_reducible exact Frame.refl _ | with_reducible apply fr_twinFrame | with_reducible apply fr_updTwin | with_reducible apply fr_seeEpoch | with_reducible apply fr_detect | with_reducible apply fr_gevt | with_reducible apply fr_fence | with_reducible apply fr_hbCounts | with_reducible apply fr_exchange | with_reducible apply fr_gput | with_reducible apply Frame.ite | with_reducible apply Frame.ite2 | intro _ | split

theorem fr_updRx {s y : State} (n : ChanIx) (f : RxChan → RxChan) (hF : Frame s y) : Frame s (State.updRx y n f) := by
  refine hF.trans ?_
  unfold State.updRx
  try dsimp only
  repeat' first | with_reducible exact Frame.refl _ | with_reducible apply fr_updTwin | with_reducible apply Frame.ite | with_reducible apply Frame.ite2 | split

theorem fr_jourFrame {s y : State} (l : Fin 2) (f : JourFrame) (hF : Frame s y) : Frame s (State.jourFrame y l f) := by
  refine hF.trans ?_
  unfold State.jourFrame
  try dsimp only
  repeat' first | with_reducible exact Frame.refl _ | with_reducible apply fr_twinBad | with_reducible apply fr_lseqRx | with_reducible apply fr_updRx | with_reducible apply fr_reqAbsent | with_reducible apply fr_put64 | with_reducible apply Frame.ite | with_reducible apply Frame.ite2 | with_reducible apply Frame.fold | with_reducible apply Frame.fold2 | intro _ | split

theorem fr_vintFrame {s y : State} (l : Fin 2) (f : VintFrame) (hF : Frame s y) : Frame s (State.vintFrame y l f) := by
  refine hF.trans ?_
  unfold State.vintFrame
  try dsimp only
  repeat' first | with_reducible exact Frame.refl _ | with_reducible apply fr_twinBad | with_reducible apply fr_lseqRx | with_reducible apply fr_updRx | with_reducible apply fr_reqAbsent | with_reducible apply Frame.ite | with_reducible apply Frame.ite2 | split

theorem fr_clientFrame {s y : State} (l : Fin 2) (bs : Bytes) (hF : Frame s y) : Frame s (State.clientFrame y l bs) := by
  refine hF.trans ?_
  unfold State.clientFrame
  try dsimp only
  repeat' first | with_reducible exact Frame.refl _ | with_reducible apply fr_twinFrame | with_reducible apply fr_setCh | with_reducible apply fr_reqAbsent | with_reducible apply Frame.ite | with_reducible apply Frame.ite2 | intro _ | split

theorem fr_resyncFrame {s y : State} (l : Fin 2) (bs : Bytes) (hF : Frame s y) : Frame s (State.resyncFrame y l bs) := by
  refine hF.trans ?_
  unfold State.resyncFrame
  try dsimp only
  repeat' first | with_reducible exact Frame.refl _ | with_reducible apply fr_twinFrame | with_reducible apply fr_reqAbsent | with_reducible apply fr_gbump | with_reducible apply fr_writeVintage | with_reducible apply fr_streamClient | with_reducible apply Frame.ite | with_reducible apply Frame.ite2 | intro _ | with_reducible apply Frame.fold | with_reducible apply Frame.fold2 | intro _ | split

theorem fr_drillFrame {s y : State} (l : Fin 2) (bs : Bytes) (hF : Frame s y) : Frame s (State.drillFrame y l bs) := by
  refine hF.trans ?_
  unfold State.drillFrame
  try dsimp only
  repeat' first | with_reducible exact Frame.refl _ | with_reducible apply fr_twinFrame | with_reducible apply fr_startRack | with_reducible apply fr_raiseEpoch | with_reducible apply fr_twinTo | with_reducible apply fr_sendDrill | with_reducible apply fr_endDrill | with_reducible apply Frame.ite | with_reducible apply Frame.ite2 | intro _ | split

theorem fr_timeSend {s y : State} (n : ChanIx) (ps : ℕ) (hF : Frame s y) : Frame s (State.timeSend y n ps) := by
  refine hF.trans ?_
  unfold State.timeSend
  try dsimp only
  repeat' first | with_reducible exact Frame.refl _ | with_reducible apply fr_twinSend | with_reducible apply Frame.ite | with_reducible apply Frame.ite2 | split

theorem fr_drillRecord {s y : State} (n : ChanIx) (r : MeasRec) (hF : Frame s y) : Frame s (State.drillRecord y n r) := by
  refine hF.trans ?_
  unfold State.drillRecord
  try dsimp only
  repeat' first | with_reducible exact Frame.refl _ | with_reducible apply fr_drillFail | with_reducible apply fr_updTwin | with_reducible apply Frame.ite | with_reducible apply Frame.ite2 | split

theorem fr_drillRecords {s y : State} (hF : Frame s y) : Frame s (State.drillRecords y) := by
  refine hF.trans ?_
  unfold State.drillRecords
  try dsimp only
  repeat' first | with_reducible exact Frame.refl _ | with_reducible apply fr_drillRecord | with_reducible apply Frame.ite | with_reducible apply Frame.ite2 | with_reducible apply Frame.fold | with_reducible apply Frame.fold2 | intro _ | split

theorem fr_timeFrame {s y : State} (l : Fin 2) (bs : Bytes) (ps : ℕ) (hF : Frame s y) : Frame s (State.timeFrame y l bs ps) := by
  refine hF.trans ?_
  unfold State.timeFrame
  try dsimp only
  repeat' first | with_reducible exact Frame.refl _ | with_reducible apply fr_twinFrame | with_reducible apply fr_reqAbsent | with_reducible apply fr_onCh | with_reducible apply Frame.ite | with_reducible apply Frame.ite2 | intro _ | split

theorem fr_rackChannel {s y : State} (n : ChanIx) (hF : Frame s y) : Frame s (State.rackChannel y n) := by
  refine hF.trans ?_
  unfold State.rackChannel
  try dsimp only
  repeat' first | with_reducible exact Frame.refl _ | with_reducible apply fr_setCh | with_reducible apply fr_updTwin | with_reducible apply fr_gput | with_reducible apply fr_detect | with_reducible apply fr_drillFail | with_reducible apply Frame.ite | with_reducible apply Frame.ite2 | split

theorem fr_claimMet {s y : State} (drill : Bool) (hF : Frame s y) : Frame s (State.claimMet y drill) := by
  refine hF.trans ?_
  unfold State.claimMet
  try dsimp only
  repeat' first | with_reducible exact Frame.refl _ | with_reducible apply fr_updTwin | with_reducible apply Frame.ite | with_reducible apply Frame.ite2 | split

theorem fr_drillRequest {s y : State} (hF : Frame s y) : Frame s (State.drillRequest y) := by
  refine hF.trans ?_
  unfold State.drillRequest
  try dsimp only
  repeat' first | with_reducible exact Frame.refl _ | with_reducible apply fr_updTwin | with_reducible apply fr_sendDrill | with_reducible apply Frame.ite | with_reducible apply Frame.ite2 | split

theorem fr_drillSend {s y : State} (hF : Frame s y) : Frame s (State.drillSend y) := by
  refine hF.trans ?_
  unfold State.drillSend
  try dsimp only
  repeat' first | with_reducible exact Frame.refl _ | with_reducible apply fr_drillRequest | with_reducible apply Frame.ite | with_reducible apply Frame.ite2 | split

theorem fr_drillResume {s y : State} (hF : Frame s y) : Frame s (State.drillResume y) := by
  refine hF.trans ?_
  unfold State.drillResume
  try dsimp only
  repeat' first | with_reducible exact Frame.refl _ | with_reducible apply fr_endDrill | with_reducible apply fr_drillRequest | with_reducible apply Frame.ite | with_reducible apply Frame.ite2 | split

theorem fr_drillTimeout {s y : State} (hF : Frame s y) : Frame s (State.drillTimeout y) := by
  refine hF.trans ?_
  unfold State.drillTimeout
  try dsimp only
  repeat' first | with_reducible exact Frame.refl _ | with_reducible apply fr_endDrill | with_reducible apply Frame.ite | with_reducible apply Frame.ite2 | split

theorem fr_twinTick {s y : State} (hF : Frame s y) : Frame s (State.twinTick y) := by
  refine hF.trans ?_
  unfold State.twinTick
  try dsimp only
  repeat' first | with_reducible exact Frame.refl _ | with_reducible apply fr_gbump | with_reducible apply fr_gput | with_reducible apply fr_updTwin | with_reducible apply Frame.ite | with_reducible apply Frame.ite2 | split

theorem fr_holdDrive {s y : State} (hF : Frame s y) : Frame s (State.holdDrive y) := by
  refine hF.trans ?_
  unfold State.holdDrive
  try dsimp only
  repeat' first | with_reducible exact Frame.refl _ | with_reducible apply fr_setDrive | with_reducible apply fr_updTwin | with_reducible apply Frame.ite | with_reducible apply Frame.ite2 | split

theorem fr_twinSettle {s y : State} (hF : Frame s y) : Frame s (State.twinSettle y) := by
  refine hF.trans ?_
  unfold State.twinSettle
  try dsimp only
  repeat' first | with_reducible exact Frame.refl _ | with_reducible apply fr_gevt | with_reducible apply fr_sendResync | with_reducible apply fr_drillFail | with_reducible apply fr_drillRecords | with_reducible apply fr_holdDrive | with_reducible apply fr_gput | with_reducible apply Frame.ite | with_reducible apply Frame.ite2 | with_reducible apply Frame.fold | with_reducible apply Frame.fold2 | intro _ | split

theorem fr_wearCheck {s y : State} (old : State) (hF : Frame s y) : Frame s (State.wearCheck old y) := by
  refine hF.trans ?_
  unfold State.wearCheck
  try dsimp only
  repeat' first | with_reducible exact Frame.refl _ | with_reducible apply fr_detect | with_reducible apply Frame.ite | with_reducible apply Frame.ite2 | with_reducible apply Frame.fold | with_reducible apply Frame.fold2 | intro _ | split

theorem fr_follow {s y : State} (old : State) (hF : Frame s y) : Frame s (State.follow old y) := by
  refine hF.trans ?_
  unfold State.follow
  try dsimp only
  repeat' first | with_reducible exact Frame.refl _ | with_reducible apply fr_drain | with_reducible apply fr_wearCheck | with_reducible apply fr_twinSettle | with_reducible apply Frame.ite | with_reducible apply Frame.ite2 | split

theorem fr_clear {s y : State} (hF : Frame s y) : Frame s (State.clear y) := by
  refine hF.trans ?_
  unfold State.clear
  try dsimp only
  repeat' first | with_reducible exact Frame.refl _ | fail_if_no_progress (with_reducible apply Frame.upd) | with_reducible apply Frame.ite | with_reducible apply Frame.ite2 | split

theorem fr_kumFail {s y : State} (res : ℕ) (hF : Frame s y) : Frame s (State.kumFail y res) := by
  refine hF.trans ?_
  unfold State.kumFail
  try dsimp only
  repeat' first | with_reducible exact Frame.refl _ | with_reducible apply fr_gevt | with_reducible apply fr_gput | fail_if_no_progress (with_reducible apply Frame.upd) | with_reducible apply Frame.ite | with_reducible apply Frame.ite2 | split

theorem fr_orphanUnder {s y : State} (p : ℕ) (hF : Frame s y) : Frame s (State.orphanUnder y p) := by
  refine hF.trans ?_
  unfold State.orphanUnder
  try dsimp only
  repeat' first | with_reducible exact Frame.refl _ | with_reducible apply fr_gevt | with_reducible apply fr_putVslot | with_reducible apply Frame.ite | with_reducible apply Frame.ite2 | with_reducible apply Frame.fold | with_reducible apply Frame.fold2 | intro _ | split

theorem fr_newSeed {s y : State} (hF : Frame s y) : Frame s (State.newSeed y) := by
  refine hF.trans ?_
  unfold State.newSeed
  try dsimp only
  repeat' first | with_reducible exact Frame.refl _ | with_reducible apply fr_free | with_reducible apply fr_gput | fail_if_no_progress (with_reducible apply Frame.upd) | with_reducible apply Frame.ite | with_reducible apply Frame.ite2 | split

theorem fr_recover {s y : State} (hF : Frame s y) : Frame s (State.recover y) := by
  refine hF.trans ?_
  unfold State.recover
  try dsimp only
  repeat' first | with_reducible exact Frame.refl _ | with_reducible apply fr_newSeed | with_reducible apply fr_gput | with_reducible apply fr_setStage | fail_if_no_progress (with_reducible apply Frame.upd) | with_reducible apply Frame.ite | with_reducible apply Frame.ite2 | with_reducible apply Frame.fold | with_reducible apply Frame.fold2 | intro _ | split

theorem fr_kumCommit {s y : State} (j : KumJob) (hF : Frame s y) : Frame s (State.kumCommit y j) := by
  refine hF.trans ?_
  unfold State.kumCommit
  try dsimp only
  repeat' first | with_reducible exact Frame.refl _ | with_reducible apply fr_wearOn | with_reducible apply fr_recover | with_reducible apply fr_putVslot | with_reducible apply fr_orphanUnder | with_reducible apply fr_gevt | with_reducible apply fr_gput | with_reducible apply fr_revokeKeys | with_reducible apply fr_book1 | fail_if_no_progress (with_reducible apply Frame.upd) | with_reducible apply Frame.ite | with_reducible apply Frame.ite2 | split

theorem fr_kumGo {s y : State} (org : Origin) (hF : Frame s y) : Frame s (State.kumGo y org) := by
  refine hF.trans ?_
  unfold State.kumGo
  try dsimp only
  repeat' first | with_reducible exact Frame.refl _ | with_reducible apply fr_kumFail | with_reducible apply fr_gput | fail_if_no_progress (with_reducible apply Frame.upd) | with_reducible apply Frame.ite | with_reducible apply Frame.ite2 | split

theorem fr_kumPoint {s y : State} (written : Bool) (hF : Frame s y) : Frame s (State.kumPoint y written) := by
  refine hF.trans ?_
  unfold State.kumPoint
  try dsimp only
  repeat' first | with_reducible exact Frame.refl _ | with_reducible apply fr_kumCommit | with_reducible apply fr_kumFail | with_reducible apply Frame.ite | with_reducible apply Frame.ite2 | split

theorem fr_quoteBody {s y : State} (signer : ℕ) (hF : Frame s y) : Frame s (State.quoteBody y signer).2 := by
  refine hF.trans ?_
  unfold State.quoteBody
  try dsimp only
  repeat' first | with_reducible exact Frame.refl _ | with_reducible apply fr_free | with_reducible apply Frame.ite | with_reducible apply Frame.ite2 | split

theorem fr_quoteGo {s y : State} (hF : Frame s y) : Frame s (State.quoteGo y) := by
  refine hF.trans ?_
  unfold State.quoteGo
  try dsimp only
  repeat' first | with_reducible exact Frame.refl _ | with_reducible apply fr_quoteBody | with_reducible apply fr_dikSign | with_reducible apply fr_slotSign | with_reducible apply fr_gevt | with_reducible apply fr_gput | fail_if_no_progress (with_reducible apply Frame.upd) | with_reducible apply Frame.ite | with_reducible apply Frame.ite2 | split

theorem fr_quoteDone {s y : State} (hF : Frame s y) : Frame s (State.quoteDone y) := by
  refine hF.trans ?_
  unfold State.quoteDone
  try dsimp only
  repeat' first | with_reducible exact Frame.refl _ | with_reducible apply fr_gsetWord | with_reducible apply fr_gevt | with_reducible apply fr_gput | fail_if_no_progress (with_reducible apply Frame.upd) | with_reducible apply Frame.ite | with_reducible apply Frame.ite2 | with_reducible apply Frame.fold | with_reducible apply Frame.fold2 | intro _ | split

theorem fr_abortKeyOps {s y : State} (hF : Frame s y) : Frame s (State.abortKeyOps y) := by
  refine hF.trans ?_
  unfold State.abortKeyOps
  try dsimp only
  repeat' first | with_reducible exact Frame.refl _ | with_reducible apply fr_kumFail | with_reducible apply fr_gevt | with_reducible apply fr_gput | with_reducible apply fr_endCmd | fail_if_no_progress (with_reducible apply Frame.upd) | with_reducible apply Frame.ite | with_reducible apply Frame.ite2 | with_reducible apply Frame.fold | with_reducible apply Frame.fold2 | intro _ | split

theorem fr_zeroize {s y : State} (hF : Frame s y) : Frame s (State.zeroize y) := by
  refine hF.trans ?_
  unfold State.zeroize
  try dsimp only
  repeat' first | with_reducible exact Frame.refl _ | fail_if_no_progress (with_reducible apply Frame.upd) | with_reducible apply Frame.ite | with_reducible apply Frame.ite2 | split

theorem fr_tamperAlarm {s y : State} (src : ℕ) (t : TamperIn) (hF : Frame s y) : Frame s (State.tamperAlarm y src t) := by
  refine hF.trans ?_
  unfold State.tamperAlarm
  try dsimp only
  repeat' first | with_reducible exact Frame.refl _ | with_reducible apply fr_vclkNow | with_reducible apply fr_zeroize | with_reducible apply fr_abortKeyOps | with_reducible apply fr_gevt | with_reducible apply fr_updTally | with_reducible apply fr_setCh | with_reducible apply fr_revokeKeys | with_reducible apply fr_detect | with_reducible apply fr_copyLog | with_reducible apply fr_gput | with_reducible apply fr_setStage | with_reducible apply fr_stopDevice | fail_if_no_progress (with_reducible apply Frame.upd) | with_reducible apply Frame.ite | with_reducible apply Frame.ite2 | with_reducible apply Frame.fold | with_reducible apply Frame.fold2 | intro _ | split

theorem fr_tamperSample {s y : State} (t : TamperIn) (hF : Frame s y) : Frame s (State.tamperSample y t) := by
  refine hF.trans ?_
  unfold State.tamperSample
  try dsimp only
  repeat' first | with_reducible exact Frame.refl _ | with_reducible apply fr_gput | with_reducible apply fr_gevt | with_reducible apply fr_tamperAlarm | fail_if_no_progress (with_reducible apply Frame.upd) | with_reducible apply Frame.ite | with_reducible apply Frame.ite2 | split

theorem fr_vbatLost {s y : State} (hF : Frame s y) : Frame s (State.vbatLost y) := by
  refine hF.trans ?_
  unfold State.vbatLost
  try dsimp only
  repeat' first | with_reducible exact Frame.refl _ | fail_if_no_progress (with_reducible apply Frame.upd) | with_reducible apply Frame.ite | with_reducible apply Frame.ite2 | split

theorem fr_vaultStage {s y : State} (hF : Frame s y) : Frame s (State.vaultStage y) := by
  refine hF.trans ?_
  unfold State.vaultStage
  try dsimp only
  repeat' first | with_reducible exact Frame.refl _ | with_reducible apply fr_newSeed | with_reducible apply fr_updTally | with_reducible apply fr_copyLog | with_reducible apply fr_book1 | with_reducible apply fr_gput | fail_if_no_progress (with_reducible apply Frame.upd) | with_reducible apply Frame.ite | with_reducible apply Frame.ite2 | split

theorem fr_vaultMeas {s y : State} (m : Bytes) (hF : Frame s y) : Frame s (State.vaultMeas y m) := by
  refine hF.trans ?_
  unfold State.vaultMeas
  try dsimp only
  repeat' first | with_reducible exact Frame.refl _ | with_reducible apply fr_gput | with_reducible apply fr_putVslot | with_reducible apply fr_revokeKeys | with_reducible apply fr_gevt | fail_if_no_progress (with_reducible apply Frame.upd) | with_reducible apply Frame.ite | with_reducible apply Frame.ite2 | with_reducible apply Frame.fold | with_reducible apply Frame.fold2 | intro _ | split

theorem fr_updPwr {s y : State} (f : PwrSt → PwrSt) (hF : Frame s y) : Frame s (State.updPwr y f) := by
  refine hF.trans ?_
  unfold State.updPwr
  try dsimp only
  repeat' first | with_reducible exact Frame.refl _ | fail_if_no_progress (with_reducible apply Frame.upd) | with_reducible apply Frame.ite | with_reducible apply Frame.ite2 | split

theorem fr_latchKept {s y : State} (hF : Frame s y) : Frame s (State.latchKept y) := by
  refine hF.trans ?_
  unfold State.latchKept
  try dsimp only
  repeat' first | with_reducible exact Frame.refl _ | fail_if_no_progress (with_reducible apply Frame.upd) | with_reducible apply Frame.ite | with_reducible apply Frame.ite2 | with_reducible apply Frame.fold | with_reducible apply Frame.fold2 | intro _ | split

theorem fr_volatileReset {s y : State} (last : Bool) (hF : Frame s y) : Frame s (y.volatileReset last) := by
  refine hF.trans ((fr_bookSave (Frame.refl y)).trans ?_)
  unfold State.volatileReset
  dsimp only
  repeat' first | with_reducible apply Frame.ite | with_reducible apply fr_gsetWord
  all_goals exact ⟨rfl, rfl, le_refl _, fun _ => rfl, fun w => ⟨w, BookSt.grows_refl w⟩⟩

theorem fr_restart {s y : State} (cause : ℕ) (st : ℕ) (last : Bool) (hF : Frame s y) : Frame s (State.restart y cause st last) := by
  refine hF.trans ?_
  unfold State.restart
  try dsimp only
  repeat' first | with_reducible exact Frame.refl _ | with_reducible apply fr_updTally | with_reducible apply fr_volatileReset | with_reducible apply fr_gsetWord | with_reducible apply fr_gput | with_reducible apply fr_setStage | with_reducible apply fr_updPwr | fail_if_no_progress (with_reducible apply Frame.upd) | with_reducible apply Frame.ite | with_reducible apply Frame.ite2 | split

theorem fr_faultReset {s y : State} (cause : ℕ) (src : ℕ) (inj : Bool) (hF : Frame s y) : Frame s (State.faultReset y cause src inj) := by
  refine hF.trans ?_
  unfold State.faultReset
  try dsimp only
  repeat' first | with_reducible exact Frame.refl _ | with_reducible apply fr_gsetWord | with_reducible apply fr_updPwr | with_reducible apply fr_updTally | with_reducible apply fr_restart | with_reducible apply Frame.ite | with_reducible apply Frame.ite2 | split

theorem fr_pinReset {s y : State} (hF : Frame s y) : Frame s (State.pinReset y) := by
  refine hF.trans ?_
  unfold State.pinReset
  try dsimp only
  repeat' first | with_reducible exact Frame.refl _ | with_reducible apply fr_restart | with_reducible apply fr_updPwr | with_reducible apply Frame.ite | with_reducible apply Frame.ite2 | split

theorem fr_resetNRelease {s y : State} (hF : Frame s y) : Frame s (State.resetNRelease y) := by
  refine hF.trans ?_
  unfold State.resetNRelease
  try dsimp only
  repeat' first | with_reducible exact Frame.refl _ | with_reducible apply fr_updPwr | with_reducible apply fr_setStage | with_reducible apply Frame.ite | with_reducible apply Frame.ite2 | split

theorem fr_setFeed {s y : State} (b : Bool) (f : Feed) (hF : Frame s y) : Frame s (State.setFeed y b f) := by
  refine hF.trans ?_
  unfold State.setFeed
  try dsimp only
  repeat' first | with_reducible exact Frame.refl _ | with_reducible apply fr_updPwr | with_reducible apply Frame.ite | with_reducible apply Frame.ite2 | split

theorem fr_feedsSettle {s y : State} (hF : Frame s y) : Frame s (State.feedsSettle y) := by
  refine hF.trans ?_
  unfold State.feedsSettle
  try dsimp only
  repeat' first | with_reducible exact Frame.refl _ | with_reducible apply fr_gevt | with_reducible apply fr_gput | with_reducible apply fr_feedsRise | with_reducible apply Frame.ite | with_reducible apply Frame.ite2 | split

theorem fr_feedBad {s y : State} (b : Bool) (mv : ℕ) (hF : Frame s y) : Frame s (State.feedBad y b mv) := by
  refine hF.trans ?_
  unfold State.feedBad
  try dsimp only
  repeat' first | with_reducible exact Frame.refl _ | with_reducible apply fr_gput | with_reducible apply fr_feedsSettle | with_reducible apply fr_detectLevel | with_reducible apply fr_setFeed | with_reducible apply fr_gevt | with_reducible apply Frame.ite | with_reducible apply Frame.ite2 | split

theorem fr_feedGood {s y : State} (b : Bool) (mv : ℕ) (hF : Frame s y) : Frame s (State.feedGood y b mv) := by
  refine hF.trans ?_
  unfold State.feedGood
  try dsimp only
  repeat' first | with_reducible exact Frame.refl _ | with_reducible apply fr_gput | with_reducible apply fr_feedsSettle | with_reducible apply fr_clearLevel | with_reducible apply fr_setFeed | with_reducible apply fr_gevt | with_reducible apply Frame.ite | with_reducible apply Frame.ite2 | split

theorem fr_feedChecked {s y : State} (b : Bool) (low : ℕ) (pass : Bool) (slot : Option ℕ) (hF : Frame s y) : Frame s (State.feedChecked y b low pass slot) := by
  refine hF.trans ?_
  unfold State.feedChecked
  try dsimp only
  repeat' first | with_reducible exact Frame.refl _ | with_reducible apply fr_gevt | with_reducible apply fr_gput | with_reducible apply fr_updPwr | with_reducible apply fr_feedsSettle | with_reducible apply fr_setFeed | with_reducible apply fr_updCmd | with_reducible apply fr_endCmd | with_reducible apply Frame.ite | with_reducible apply Frame.ite2 | split

theorem fr_feedCheckStart {s y : State} (b : Bool) (hF : Frame s y) : Frame s (State.feedCheckStart y b) := by
  refine hF.trans ?_
  unfold State.feedCheckStart
  try dsimp only
  repeat' first | with_reducible exact Frame.refl _ | with_reducible apply fr_setFeed | with_reducible apply fr_gput | with_reducible apply fr_updPwr | with_reducible apply fr_feedChecked | with_reducible apply Frame.ite | with_reducible apply Frame.ite2 | split

theorem fr_feedCheckComplete {s y : State} (low : ℕ) (limit : Bool) (hF : Frame s y) : Frame s (State.feedCheckComplete y low limit) := by
  refine hF.trans ?_
  unfold State.feedCheckComplete
  try dsimp only
  repeat' first | with_reducible exact Frame.refl _ | with_reducible apply fr_feedChecked | with_reducible apply Frame.ite | with_reducible apply Frame.ite2 | split

theorem fr_moscDetect {s y : State} (count : ℕ) (hF : Frame s y) : Frame s (State.moscDetect y count) := by
  refine hF.trans ?_
  unfold State.moscDetect
  try dsimp only
  repeat' first | with_reducible exact Frame.refl _ | with_reducible apply fr_setRoot | with_reducible apply fr_setStage | with_reducible apply fr_gevt | with_reducible apply fr_gput | with_reducible apply Frame.ite | with_reducible apply Frame.ite2 | split

theorem fr_rootHold {s y : State} (r : ℕ) (hF : Frame s y) : Frame s (State.rootHold y r) := by
  refine hF.trans ?_
  unfold State.rootHold
  try dsimp only
  repeat' first | with_reducible exact Frame.refl _ | with_reducible apply fr_gbump | with_reducible apply fr_setRoot | with_reducible apply Frame.ite | with_reducible apply Frame.ite2 | split

theorem fr_moscLost {s y : State} (hF : Frame s y) : Frame s (State.moscLost y) := by
  refine hF.trans ?_
  unfold State.moscLost
  try dsimp only
  repeat' first | with_reducible exact Frame.refl _ | with_reducible apply fr_gbump | with_reducible apply fr_gevt | with_reducible apply fr_gput | with_reducible apply fr_detectLevel | with_reducible apply fr_rootHold | with_reducible apply Frame.ite | with_reducible apply Frame.ite2 | with_reducible apply Frame.fold | with_reducible apply Frame.fold2 | intro _ | split

theorem fr_moscReturn {s y : State} (hF : Frame s y) : Frame s (State.moscReturn y) := by
  refine hF.trans ?_
  unfold State.moscReturn
  try dsimp only
  repeat' first | with_reducible exact Frame.refl _ | with_reducible apply fr_clearLevel | with_reducible apply fr_gevt | with_reducible apply fr_gput | with_reducible apply fr_setRoot | with_reducible apply Frame.ite | with_reducible apply Frame.ite2 | with_reducible apply Frame.fold | with_reducible apply Frame.fold2 | intro _ | split

theorem fr_rootLock {s y : State} (r : ℕ) (hF : Frame s y) : Frame s (State.rootLock y r) := by
  refine hF.trans ?_
  unfold State.rootLock
  try dsimp only
  repeat' first | with_reducible exact Frame.refl _ | with_reducible apply fr_clearLevel | with_reducible apply fr_setRoot | with_reducible apply Frame.ite | with_reducible apply Frame.ite2 | split

theorem fr_rootLockLost {s y : State} (r : ℕ) (hF : Frame s y) : Frame s (State.rootLockLost y r) := by
  refine hF.trans ?_
  unfold State.rootLockLost
  try dsimp only
  repeat' first | with_reducible exact Frame.refl _ | with_reducible apply fr_detectLevel | with_reducible apply fr_gevt | with_reducible apply fr_rootHold | with_reducible apply Frame.ite | with_reducible apply Frame.ite2 | split

theorem fr_forceCase {s y : State} (c : Option ChanIx) (blk : ℕ) (k : ℕ) (hF : Frame s y) : Frame s (State.forceCase y c blk k) := by
  refine hF.trans ?_
  unfold State.forceCase
  try dsimp only
  repeat' first | with_reducible exact Frame.refl _ | with_reducible apply fr_detect | with_reducible apply fr_gevt | with_reducible apply fr_gput | with_reducible apply Frame.ite | with_reducible apply Frame.ite2 | split

theorem fr_gateForce {s y : State} (c : Option ChanIx) (blk : ℕ) (hF : Frame s y) : Frame s (State.gateForce y c blk) := by
  refine hF.trans ?_
  unfold State.gateForce
  try dsimp only
  repeat' first | with_reducible exact Frame.refl _ | with_reducible apply fr_forceCase | with_reducible apply Frame.ite | with_reducible apply Frame.ite2 | split

theorem fr_switchComplete {s y : State} (c : Option ChanIx) (blk : ℕ) (how : SwitchEnd) (hF : Frame s y) : Frame s (State.switchComplete y c blk how) := by
  refine hF.trans ?_
  unfold State.switchComplete
  try dsimp only
  repeat' first | with_reducible exact Frame.refl _ | with_reducible apply fr_updPwr | with_reducible apply fr_forceCase | with_reducible apply Frame.ite | with_reducible apply Frame.ite2 | split

theorem fr_powerOn {s y : State} (b : Bool) (mv : ℕ) (hF : Frame s y) : Frame s (State.powerOn y b mv) := by
  refine hF.trans ?_
  unfold State.powerOn
  try dsimp only
  repeat' first | with_reducible exact Frame.refl _ | with_reducible apply fr_feedGood | with_reducible apply fr_restart | with_reducible apply fr_updPwr | with_reducible apply Frame.ite | with_reducible apply Frame.ite2 | split

theorem fr_powerFail {s y : State} (vbat : ℕ) (hF : Frame s y) : Frame s (State.powerFail y vbat) := by
  refine hF.trans ?_
  unfold State.powerFail
  try dsimp only
  repeat' first | with_reducible exact Frame.refl _ | with_reducible apply fr_updPwr | with_reducible apply fr_volatileReset | with_reducible apply fr_vbatLost | with_reducible apply Frame.ite | with_reducible apply Frame.ite2 | split

theorem fr_vbatLoss {s y : State} (hF : Frame s y) : Frame s (State.vbatLoss y) := by
  refine hF.trans ?_
  unfold State.vbatLoss
  try dsimp only
  repeat' first | with_reducible exact Frame.refl _ | with_reducible apply fr_vbatLost | with_reducible apply fr_updPwr | with_reducible apply Frame.ite | with_reducible apply Frame.ite2 | split

theorem fr_vbatApplied {s y : State} (vbat : ℕ) (hF : Frame s y) : Frame s (State.vbatApplied y vbat) := by
  refine hF.trans ?_
  unfold State.vbatApplied
  try dsimp only
  repeat' first | with_reducible exact Frame.refl _ | with_reducible apply fr_updPwr | with_reducible apply Frame.ite | with_reducible apply Frame.ite2 | split

theorem fr_stageRails {s y : State} (sel : ℕ) (hF : Frame s y) : Frame s (State.stageRails y sel) := by
  refine hF.trans ?_
  unfold State.stageRails
  try dsimp only
  repeat' first | with_reducible exact Frame.refl _ | with_reducible apply fr_gput | with_reducible apply fr_setStage | with_reducible apply fr_updPwr | with_reducible apply Frame.ite | with_reducible apply Frame.ite2 | split

theorem fr_stageRoot {s y : State} (how : SwitchEnd) (hF : Frame s y) : Frame s (State.stageRoot y how) := by
  refine hF.trans ?_
  unfold State.stageRoot
  try dsimp only
  repeat' first | with_reducible exact Frame.refl _ | with_reducible apply fr_setStage | with_reducible apply fr_forceCase | with_reducible apply fr_updPwr | with_reducible apply Frame.ite | with_reducible apply Frame.ite2 | split

theorem fr_rootStageRetry {s y : State} (hF : Frame s y) : Frame s (State.rootStageRetry y) := by
  refine hF.trans ?_
  unfold State.rootStageRetry
  try dsimp only
  repeat' first | with_reducible exact Frame.refl _ | with_reducible apply fr_updPwr | with_reducible apply Frame.ite | with_reducible apply Frame.ite2 | split

theorem fr_stageFeedchk {s y : State} (hF : Frame s y) : Frame s (State.stageFeedchk y) := by
  refine hF.trans ?_
  unfold State.stageFeedchk
  try dsimp only
  repeat' first | with_reducible exact Frame.refl _ | with_reducible apply fr_gput | with_reducible apply fr_setStage | with_reducible apply Frame.ite | with_reducible apply Frame.ite2 | split

theorem fr_stageVault {s y : State} (hF : Frame s y) : Frame s (State.stageVault y) := by
  refine hF.trans ?_
  unfold State.stageVault
  try dsimp only
  repeat' first | with_reducible exact Frame.refl _ | with_reducible apply fr_vaultStage | with_reducible apply fr_detect | with_reducible apply fr_gevt | with_reducible apply fr_gput | with_reducible apply fr_book1 | with_reducible apply fr_updPwr | with_reducible apply fr_setStage | with_reducible apply Frame.ite | with_reducible apply Frame.ite2 | split

theorem fr_pohSecond {s y : State} (tj : ℤ) (va : ℕ) (vb : ℕ) (hF : Frame s y) : Frame s (State.pohSecond y tj va vb) := by
  refine hF.trans ?_
  unfold State.pohSecond
  try dsimp only
  repeat' first | with_reducible exact Frame.refl _ | with_reducible apply fr_updTally | with_reducible apply fr_gput | with_reducible apply fr_detectLevel | with_reducible apply fr_clearLevel | fail_if_no_progress (with_reducible apply Frame.upd) | with_reducible apply Frame.ite | with_reducible apply Frame.ite2 | split

theorem fr_updRouter {s y : State} (f : RouterSt → RouterSt) (hF : Frame s y) : Frame s (State.updRouter y f) := by
  refine hF.trans ?_
  unfold State.updRouter
  try dsimp only
  repeat' first | with_reducible exact Frame.refl _ | fail_if_no_progress (with_reducible apply Frame.upd) | with_reducible apply Frame.ite | with_reducible apply Frame.ite2 | split

theorem fr_sendLinks {s y : State} (ls : List ℕ) (bs : Bytes) (hF : Frame s y) : Frame s (State.sendLinks y ls bs) := by
  refine hF.trans ?_
  unfold State.sendLinks
  try dsimp only
  repeat' first | with_reducible exact Frame.refl _ | with_reducible apply fr_emit | with_reducible apply Frame.ite | with_reducible apply Frame.ite2 | with_reducible apply Frame.fold | with_reducible apply Frame.fold2 | intro _ | split

theorem fr_lsaNew {s y : State} (hF : Frame s y) : Frame s (State.lsaNew y) := by
  refine hF.trans ?_
  unfold State.lsaNew
  try dsimp only
  repeat' first | with_reducible exact Frame.refl _ | with_reducible apply fr_updRouter | with_reducible apply fr_gbump | with_reducible apply fr_sendLinks | with_reducible apply Frame.ite | with_reducible apply Frame.ite2 | split

theorem fr_lsaSend {s y : State} (hF : Frame s y) : Frame s (State.lsaSend y) := by
  refine hF.trans ?_
  unfold State.lsaSend
  try dsimp only
  repeat' first | with_reducible exact Frame.refl _ | with_reducible apply fr_lsaNew | with_reducible apply Frame.ite | with_reducible apply Frame.ite2 | split

theorem fr_lsaRx {s y : State} (n : ChanIx) (x : Fin 2) (bs : Bytes) (hF : Frame s y) : Frame s (State.lsaRx y n x bs) := by
  refine hF.trans ?_
  unfold State.lsaRx
  try dsimp only
  repeat' first | with_reducible exact Frame.refl _ | with_reducible apply fr_onCh | with_reducible apply fr_lsaNew | with_reducible apply fr_gput | with_reducible apply fr_gbump | with_reducible apply fr_updRouter | with_reducible apply fr_sendLinks | with_reducible apply fr_gevt | with_reducible apply Frame.ite | with_reducible apply Frame.ite2 | split

theorem fr_lsaExpire {s y : State} (devid : ℕ) (hF : Frame s y) : Frame s (State.lsaExpire y devid) := by
  refine hF.trans ?_
  unfold State.lsaExpire
  try dsimp only
  repeat' first | with_reducible exact Frame.refl _ | with_reducible apply fr_gevt | with_reducible apply fr_updRouter | with_reducible apply Frame.ite | with_reducible apply Frame.ite2 | split

theorem fr_routeCompute {s y : State} (hF : Frame s y) : Frame s (State.routeCompute y) := by
  refine hF.trans ?_
  unfold State.routeCompute
  try dsimp only
  repeat' first | with_reducible exact Frame.refl _ | with_reducible apply fr_gput | with_reducible apply fr_gevt | with_reducible apply fr_bookSt | with_reducible apply fr_gsetWord | with_reducible apply fr_put64 | with_reducible apply fr_updRouter | with_reducible apply Frame.ite | with_reducible apply Frame.ite2 | with_reducible apply Frame.fold | with_reducible apply Frame.fold2 | intro _ | split

theorem fr_benchTimes {s y : State} (n : ChanIx) (ps0 : ℕ) (ps1 : ℕ) (hF : Frame s y) : Frame s (State.benchTimes y n ps0 ps1) := by
  refine hF.trans ?_
  unfold State.benchTimes
  try dsimp only
  repeat' first | with_reducible exact Frame.refl _ | with_reducible apply fr_onCh | with_reducible apply Frame.ite | with_reducible apply Frame.ite2 | split

theorem fr_egressOn {s y : State} (bs : Bytes) (o : ℕ × ℕ × ℕ) (hF : Frame s y) : Frame s (State.egressOn bs y o) := by
  refine hF.trans ?_
  unfold State.egressOn
  try dsimp only
  repeat' first | with_reducible exact Frame.refl _ | with_reducible apply fr_gbump | with_reducible apply fr_emit | with_reducible apply fr_reqAbsent | with_reducible apply Frame.ite | with_reducible apply Frame.ite2 | split

theorem fr_forwardTick {s y : State} (hF : Frame s y) : Frame s (State.forwardTick y) := by
  refine hF.trans ?_
  unfold State.forwardTick
  try dsimp only
  repeat' first | with_reducible exact Frame.refl _ | with_reducible apply fr_updRouter | with_reducible apply fr_egressOn | with_reducible apply Frame.ite | with_reducible apply Frame.ite2 | with_reducible apply Frame.fold | with_reducible apply Frame.fold2 | intro _ | split

theorem fr_forward {s y : State} (l : ℕ) (bs : Bytes) (ps : ℕ) (residence : List ℕ) (hF : Frame s y) : Frame s (State.forward y l bs ps residence) := by
  refine hF.trans ?_
  unfold State.forward
  try dsimp only
  repeat' first | with_reducible exact Frame.refl _ | with_reducible apply fr_gbump | with_reducible apply fr_updRouter | with_reducible apply Frame.ite | with_reducible apply Frame.ite2 | split

theorem fr_timeRx {s y : State} (n : ChanIx) (x : Fin 2) (bs : Bytes) (ps : ℕ) (residence : List ℕ) (hF : Frame s y) : Frame s (State.timeRx y n x bs ps residence) := by
  refine hF.trans ?_
  unfold State.timeRx
  try dsimp only
  repeat' first | with_reducible exact Frame.refl _ | with_reducible apply fr_onCh | with_reducible apply fr_forward | with_reducible apply Frame.ite | with_reducible apply Frame.ite2 | split

theorem fr_calGo {s y : State} (hF : Frame s y) : Frame s (State.calGo y) := by
  refine hF.trans ?_
  unfold State.calGo
  try dsimp only
  repeat' first | with_reducible exact Frame.refl _ | with_reducible apply fr_gput | with_reducible apply fr_gevt | with_reducible apply Frame.ite | with_reducible apply Frame.ite2 | split

theorem fr_calDone {s y : State} (ab : List ℕ) (ba : List ℕ) (hF : Frame s y) : Frame s (State.calDone y ab ba) := by
  refine hF.trans ?_
  unfold State.calDone
  try dsimp only
  repeat' first | with_reducible exact Frame.refl _ | with_reducible apply fr_gput | with_reducible apply fr_gevt | with_reducible apply Frame.ite | with_reducible apply Frame.ite2 | split

theorem fr_gRead {s y : State} (b : CB) (off : ℕ) (hF : Frame s y) : Frame s (State.gRead y b off).2 := by
  refine hF.trans ?_
  unfold State.gRead
  try dsimp only
  repeat' first | with_reducible exact Frame.refl _ | with_reducible apply fr_setRf | with_reducible apply Frame.ite | with_reducible apply Frame.ite2 | with_reducible apply Frame.fold | with_reducible apply Frame.fold2 | intro _ | split

theorem fr_gCommit {s y : State} (b : CB) (ok : State → Bool) (hF : Frame s y) : Frame s (State.gCommit y b ok) := by
  refine hF.trans ?_
  unfold State.gCommit
  try dsimp only
  repeat' first | with_reducible exact Frame.refl _ | with_reducible apply fr_setRf | with_reducible apply fr_gevtMask | with_reducible apply Frame.ite | with_reducible apply Frame.ite2 | split

theorem fr_commitBlk {s y : State} (b : CB) (hF : Frame s y) : Frame s (State.commitBlk y b) := by
  refine hF.trans ?_
  unfold State.commitBlk
  try dsimp only
  repeat' first | with_reducible exact Frame.refl _ | with_reducible apply fr_gCommit | with_reducible apply Frame.ite | with_reducible apply Frame.ite2 | split

theorem fr_gStore {s y : State} (loader : Bool) (b : CB) (off : ℕ) (v : Word) (hF : Frame s y) : Frame s (State.gStore y loader b off v) := by
  refine hF.trans ?_
  unfold State.gStore
  try dsimp only
  repeat' first | with_reducible exact Frame.refl _ | with_reducible apply fr_setRf | with_reducible apply Frame.ite | with_reducible apply Frame.ite2 | split

theorem fr_gStored {s y : State} (b : CB) (off : ℕ) (v : Word) (hF : Frame s y) : Frame s (State.gStored y b off v) := by
  refine hF.trans ?_
  unfold State.gStored
  try dsimp only
  repeat' first | with_reducible exact Frame.refl _ | with_reducible apply fr_gput | with_reducible apply fr_setCh | with_reducible apply fr_msixFlush | with_reducible apply fr_gsetWord | fail_if_no_progress (with_reducible apply Frame.upd) | with_reducible apply Frame.ite | with_reducible apply Frame.ite2 | with_reducible apply Frame.fold | with_reducible apply Frame.fold2 | intro _ | split

theorem fr_gWriteFields {s y : State} (loader : Bool) (b : CB) (off : ℕ) (v : Word) (hF : Frame s y) : Frame s (State.gWriteFields y loader b off v).2 := by
  refine hF.trans ?_
  unfold State.gWriteFields
  try dsimp only
  repeat' first | with_reducible exact Frame.refl _ | with_reducible apply fr_gStored | with_reducible apply fr_gStore | with_reducible apply fr_setRf | with_reducible apply Frame.ite | with_reducible apply Frame.ite2 | with_reducible apply Frame.fold | with_reducible apply Frame.fold2 | intro _ | split

theorem fr_updTallySt {s y : State} (f : TallySt → TallySt) (hF : Frame s y) : Frame s (State.updTallySt y f) := by
  refine hF.trans ?_
  unfold State.updTallySt
  try dsimp only
  repeat' first | with_reducible exact Frame.refl _ | fail_if_no_progress (with_reducible apply Frame.upd) | with_reducible apply Frame.ite | with_reducible apply Frame.ite2 | split

theorem fr_tallyStart {s y : State} (hF : Frame s y) : Frame s (State.tallyStart y) := by
  refine hF.trans ?_
  unfold State.tallyStart
  try dsimp only
  repeat' first | with_reducible exact Frame.refl _ | with_reducible apply fr_updTallySt | with_reducible apply fr_reqAbsent | with_reducible apply fr_gput | with_reducible apply Frame.ite | with_reducible apply Frame.ite2 | with_reducible apply Frame.fold | with_reducible apply Frame.fold2 | intro _ | split

theorem fr_tallyTimed {s y : State} (hF : Frame s y) : Frame s (State.tallyTimed y) := by
  refine hF.trans ?_
  unfold State.tallyTimed
  try dsimp only
  repeat' first | with_reducible exact Frame.refl _ | with_reducible apply fr_tallyStart | with_reducible apply Frame.ite | with_reducible apply Frame.ite2 | split

theorem fr_tallyNow {s y : State} (hF : Frame s y) : Frame s (State.tallyNow y) := by
  refine hF.trans ?_
  unfold State.tallyNow
  try dsimp only
  repeat' first | with_reducible exact Frame.refl _ | with_reducible apply fr_gevt | with_reducible apply fr_tallyStart | with_reducible apply Frame.ite | with_reducible apply Frame.ite2 | split

theorem fr_tallyCommit {s y : State} (hF : Frame s y) : Frame s (State.tallyCommit y) := by
  refine hF.trans ?_
  unfold State.tallyCommit
  try dsimp only
  repeat' first | with_reducible exact Frame.refl _ | with_reducible apply fr_updTallySt | with_reducible apply fr_wearOn | with_reducible apply fr_gevt | with_reducible apply fr_gput | with_reducible apply Frame.ite | with_reducible apply Frame.ite2 | split

theorem fr_tallyFix {s y : State} (hF : Frame s y) : Frame s (State.tallyFix y) := by
  refine hF.trans ?_
  unfold State.tallyFix
  try dsimp only
  repeat' first | with_reducible exact Frame.refl _ | with_reducible apply fr_updTallySt | with_reducible apply Frame.ite | with_reducible apply Frame.ite2 | split

theorem fr_exportBlock {s y : State} (hF : Frame s y) : Frame s (State.exportBlock y).2 := by
  refine hF.trans ?_
  unfold State.exportBlock
  try dsimp only
  repeat' first | with_reducible exact Frame.refl _ | with_reducible apply fr_dikSign | with_reducible apply Frame.ite | with_reducible apply Frame.ite2 | split

theorem fr_putRdData {s y : State} (bs : Bytes) (hF : Frame s y) : Frame s (State.putRdData y bs) := by
  refine hF.trans ?_
  unfold State.putRdData
  try dsimp only
  repeat' first | with_reducible exact Frame.refl _ | with_reducible apply fr_gsetWord | with_reducible apply Frame.ite | with_reducible apply Frame.ite2 | with_reducible apply Frame.fold | with_reducible apply Frame.fold2 | intro _ | split

theorem fr_bookRead {s y : State} (hF : Frame s y) : Frame s (State.bookRead y) := by
  refine hF.trans ?_
  unfold State.bookRead
  try dsimp only
  repeat' first | with_reducible exact Frame.refl _ | with_reducible apply fr_bookFlush | with_reducible apply fr_gevt | with_reducible apply fr_putRdData | with_reducible apply Frame.ite | with_reducible apply Frame.ite2 | split

theorem fr_submit {s y : State} (org : Origin) (slot : ℕ) (hF : Frame s y) : Frame s (State.submit y org slot) := by
  refine hF.trans ?_
  unfold State.submit
  try dsimp only
  repeat' first | with_reducible exact Frame.refl _ | with_reducible apply fr_gevt | with_reducible apply fr_gsetWord | with_reducible apply fr_gput | with_reducible apply fr_endCmd | with_reducible apply fr_reqAbsent | fail_if_no_progress (with_reducible apply Frame.upd) | with_reducible apply Frame.ite | with_reducible apply Frame.ite2 | split

theorem fr_release {s y : State} (slot : ℕ) (hF : Frame s y) : Frame s (State.release y slot) := by
  refine hF.trans ?_
  unfold State.release
  try dsimp only
  repeat' first | with_reducible exact Frame.refl _ | with_reducible apply fr_setCmdState | with_reducible apply fr_gput | with_reducible apply fr_gevt | with_reducible apply Frame.ite | with_reducible apply Frame.ite2 | split

theorem fr_stream {s y : State} (v : Word) (hF : Frame s y) : Frame s (State.stream y v) := by
  refine hF.trans ?_
  unfold State.stream
  try dsimp only
  repeat' first | with_reducible exact Frame.refl _ | with_reducible apply fr_setProgress | with_reducible apply fr_updCmd | with_reducible apply Frame.ite | with_reducible apply Frame.ite2 | split

theorem fr_cmdStart {s y : State} (slot : ℕ) (hF : Frame s y) : Frame s (State.cmdStart y slot) := by
  refine hF.trans ?_
  unfold State.cmdStart
  try dsimp only
  repeat' first | with_reducible exact Frame.refl _ | with_reducible apply fr_updCmd | with_reducible apply fr_setCmdState | with_reducible apply fr_setCh | with_reducible apply Frame.ite | with_reducible apply Frame.ite2 | split

theorem fr_haltOp {s y : State} (c : CmdSt) (b : Bool) (hF : Frame s y) : Frame s (State.haltOp y c b) := by
  refine hF.trans ?_
  unfold State.haltOp
  try dsimp only
  repeat' first | with_reducible exact Frame.refl _ | with_reducible apply fr_setCh | with_reducible apply Frame.ite | with_reducible apply Frame.ite2 | split

theorem fr_suspendCmd {s y : State} (c : CmdSt) (hF : Frame s y) : Frame s (State.suspendCmd y c) := by
  refine hF.trans ?_
  unfold State.suspendCmd
  try dsimp only
  repeat' first | with_reducible exact Frame.refl _ | with_reducible apply fr_haltOp | with_reducible apply fr_updCmd | with_reducible apply fr_setCmdState | with_reducible apply Frame.ite | with_reducible apply Frame.ite2 | split

theorem fr_resumeCmd {s y : State} (c : CmdSt) (hF : Frame s y) : Frame s (State.resumeCmd y c) := by
  refine hF.trans ?_
  unfold State.resumeCmd
  try dsimp only
  repeat' first | with_reducible exact Frame.refl _ | with_reducible apply fr_haltOp | with_reducible apply fr_updCmd | with_reducible apply fr_setCmdState | with_reducible apply fr_drillResume | with_reducible apply Frame.ite | with_reducible apply Frame.ite2 | split

theorem fr_control {s y : State} (op slot : Nat) (hF : Frame s y) : Frame s (y.control op slot) := by
  refine hF.trans ?_
  unfold State.control
  dsimp only
  repeat' first | with_reducible exact Frame.refl _ | with_reducible apply fr_endCmd | with_reducible apply Frame.ite | split
  rename_i h
  split at h
  · cases h
  · repeat' split at h
    all_goals cases h
    all_goals repeat' first | with_reducible exact Frame.refl _ | with_reducible apply fr_suspendCmd | with_reducible apply fr_resumeCmd | with_reducible apply fr_abortCmd

theorem fr_cmdTimeout {s y : State} (slot : ℕ) (hF : Frame s y) : Frame s (State.cmdTimeout y slot) := by
  refine hF.trans ?_
  unfold State.cmdTimeout
  try dsimp only
  repeat' first | with_reducible exact Frame.refl _ | with_reducible apply fr_abortCmd | with_reducible apply fr_updCmd | with_reducible apply Frame.ite | with_reducible apply Frame.ite2 | split

theorem fr_begin' {s y : State} (slot : ℕ) (hF : Frame s y) : Frame s (State.begin' y slot) := by
  refine hF.trans ?_
  unfold State.begin'
  try dsimp only
  repeat' first | with_reducible exact Frame.refl _ | with_reducible apply fr_updCmd | with_reducible apply Frame.ite | with_reducible apply Frame.ite2 | split

theorem fr_surveyCmd {s y : State} (slot : ℕ) (hF : Frame s y) : Frame s (State.surveyCmd y slot) := by
  refine hF.trans ?_
  unfold State.surveyCmd
  try dsimp only
  repeat' first | with_reducible exact Frame.refl _ | with_reducible apply fr_onCh | with_reducible apply fr_begin' | with_reducible apply Frame.ite | with_reducible apply Frame.ite2 | split

theorem fr_charCmd {s y : State} (slot : ℕ) (hF : Frame s y) : Frame s (State.charCmd y slot) := by
  refine hF.trans ?_
  unfold State.charCmd
  try dsimp only
  repeat' first | with_reducible exact Frame.refl _ | with_reducible apply fr_onCh | with_reducible apply fr_begin' | with_reducible apply Frame.ite | with_reducible apply Frame.ite2 | split

theorem fr_chanProgress {s y : State} (n : ChanIx) (hF : Frame s y) : Frame s (State.chanProgress y n) := by
  refine hF.trans ?_
  unfold State.chanProgress
  try dsimp only
  repeat' first | with_reducible exact Frame.refl _ | with_reducible apply fr_setProgress | with_reducible apply Frame.ite | with_reducible apply Frame.ite2 | with_reducible apply Frame.fold | with_reducible apply Frame.fold2 | intro _ | split

theorem fr_snapCmd {s y : State} (slot : ℕ) (ms : List SatMeas) (hF : Frame s y) : Frame s (State.snapCmd y slot ms) := by
  refine hF.trans ?_
  unfold State.snapCmd
  try dsimp only
  repeat' first | with_reducible exact Frame.refl _ | with_reducible apply fr_onCh | with_reducible apply Frame.ite | with_reducible apply Frame.ite2 | split

theorem fr_kumBatch {s : State} (org : Origin) (rs : List Bytes) (q : Nat × Bool × State) (hF : Frame s q.2.2) : Frame s (State.kumBatch org rs q).2.2 := by
  induction rs generalizing q with
  | nil => exact hF
  | cons r rs ih =>
    obtain ⟨n, ok, y⟩ := q
    have h : Frame s y := by simpa only using hF
    unfold State.kumBatch
    split
    · exact hF
    · split
      · next e _ => have h1 := fr_kumFail e h; generalize y.kumFail e = z at h1 ⊢; exact h1
      · rename_i j _
        have h1 := fr_kumCommit j h
        generalize y.kumCommit j = z at h1 ⊢
        exact ih (n + 1, true, z) h1

theorem fr_keyBatch {s y : State} (slot : Nat) (kums : Option (List Bytes)) (hF : Frame s y) : Frame s (y.keyBatch slot kums) := by
  refine hF.trans ?_
  unfold State.keyBatch
  dsimp only
  repeat' first | with_reducible exact Frame.refl _ | with_reducible apply fr_endCmd | with_reducible apply fr_setProgress | with_reducible apply fr_updCmd | with_reducible apply fr_kumBatch | with_reducible apply fr_begin' | with_reducible apply Frame.ite | split

theorem fr_cookieMint {s y : State} (slot : ℕ) (req : Option Bytes) (hF : Frame s y) : Frame s (State.cookieMint y slot req) := by
  refine hF.trans ?_
  unfold State.cookieMint
  try dsimp only
  repeat' first | with_reducible exact Frame.refl _ | with_reducible apply fr_endCmd | with_reducible apply fr_free | with_reducible apply fr_updCmd | with_reducible apply Frame.ite | with_reducible apply Frame.ite2 | with_reducible apply Frame.fold | with_reducible apply Frame.fold2 | intro _ | split

theorem fr_drillCmd {s y : State} (slot : ℕ) (hF : Frame s y) : Frame s (State.drillCmd y slot) := by
  refine hF.trans ?_
  unfold State.drillCmd
  try dsimp only
  repeat' first | with_reducible exact Frame.refl _ | with_reducible apply fr_endCmd | with_reducible apply fr_updTwin | with_reducible apply fr_begin' | with_reducible apply Frame.ite | with_reducible apply Frame.ite2 | split

theorem fr_selfTestCmd {s y : State} (slot : ℕ) (hF : Frame s y) : Frame s (State.selfTestCmd y slot) := by
  refine hF.trans ?_
  unfold State.selfTestCmd
  try dsimp only
  repeat' first | with_reducible exact Frame.refl _ | with_reducible apply fr_updPwr | with_reducible apply fr_begin' | with_reducible apply Frame.ite | with_reducible apply Frame.ite2 | split

theorem fr_exportFix {s y : State} (hF : Frame s y) : Frame s (State.exportFix y) := by
  refine hF.trans ?_
  unfold State.exportFix
  try dsimp only
  repeat' first | with_reducible exact Frame.refl _ | with_reducible apply fr_exportBlock | with_reducible apply fr_updCmd | with_reducible apply Frame.ite | with_reducible apply Frame.ite2 | with_reducible apply Frame.fold | with_reducible apply Frame.fold2 | intro _ | split

theorem fr_exportCmd {s y : State} (slot : ℕ) (hF : Frame s y) : Frame s (State.exportCmd y slot) := by
  refine hF.trans ?_
  unfold State.exportCmd
  try dsimp only
  repeat' first | with_reducible exact Frame.refl _ | with_reducible apply fr_endCmd | with_reducible apply fr_updCmd | with_reducible apply fr_emit | with_reducible apply Frame.ite | with_reducible apply Frame.ite2 | split

theorem fr_mintRelease {s y : State} (c : CmdSt) (hF : Frame s y) : Frame s (State.mintRelease y c) := by
  refine hF.trans ?_
  unfold State.mintRelease
  try dsimp only
  repeat' first | with_reducible exact Frame.refl _ | with_reducible apply fr_endCmd | with_reducible apply fr_emit | with_reducible apply Frame.ite | with_reducible apply Frame.ite2 | split

theorem fr_cmdComplete {s y : State} (slot : ℕ) (dmaFailed : Bool) (hF : Frame s y) : Frame s (State.cmdComplete y slot dmaFailed) := by
  refine hF.trans ?_
  unfold State.cmdComplete
  try dsimp only
  repeat' first | with_reducible exact Frame.refl _ | with_reducible apply fr_endCmd | with_reducible apply fr_mintRelease | with_reducible apply Frame.ite | with_reducible apply Frame.ite2 | split

theorem fr_pcieDown {s y : State} (hF : Frame s y) : Frame s (State.pcieDown y) := by
  refine hF.trans ?_
  unfold State.pcieDown
  try dsimp only
  repeat' first | with_reducible exact Frame.refl _ | with_reducible apply fr_gput | with_reducible apply fr_endCmd | with_reducible apply Frame.ite | with_reducible apply Frame.ite2 | with_reducible apply Frame.fold | with_reducible apply Frame.fold2 | intro _ | split

theorem fr_flr {s y : State} (hF : Frame s y) : Frame s (State.flr y) := by
  refine hF.trans ?_
  unfold State.flr
  try dsimp only
  repeat' first | with_reducible exact Frame.refl _ | with_reducible apply fr_setRf | with_reducible apply fr_gbump | with_reducible apply fr_gsetWord | with_reducible apply fr_abortCmd | with_reducible apply Frame.ite | with_reducible apply Frame.ite2 | with_reducible apply Frame.fold | with_reducible apply Frame.fold2 | intro _ | split

theorem fr_pcieUp {s y : State} (speed : ℕ) (width : ℕ) (hF : Frame s y) : Frame s (State.pcieUp y speed width) := by
  refine hF.trans ?_
  unfold State.pcieUp
  try dsimp only
  repeat' first | with_reducible exact Frame.refl _ | with_reducible apply fr_msixFlush | with_reducible apply fr_gput | with_reducible apply Frame.ite | with_reducible apply Frame.ite2 | split

theorem fr_beginLoad {s y : State} (c : CmdSt) (mode : ℕ) (bs : Bytes) (staged : Bool) (hF : Frame s y) : Frame s (State.beginLoad y c mode bs staged) := by
  refine hF.trans ?_
  unfold State.beginLoad
  try dsimp only
  repeat' first | with_reducible exact Frame.refl _ | with_reducible apply fr_storeImage | with_reducible apply fr_updImg | with_reducible apply fr_setPhase | with_reducible apply fr_setProgress | with_reducible apply fr_begin' | with_reducible apply fr_stageImage | with_reducible apply fr_loadCheck | with_reducible apply fr_powerUp | with_reducible apply Frame.ite | with_reducible apply Frame.ite2 | split

theorem fr_loadCmd {s y : State} (slot : ℕ) (mode : ℕ) (data : Option Bytes) (hF : Frame s y) : Frame s (State.loadCmd y slot mode data) := by
  refine hF.trans ?_
  unfold State.loadCmd
  try dsimp only
  repeat' first | with_reducible exact Frame.refl _ | with_reducible apply fr_endCmd | with_reducible apply fr_beginLoad | with_reducible apply Frame.ite | with_reducible apply Frame.ite2 | split

theorem fr_reconfigEnter {s y : State} (n : ChanIx) (hF : Frame s y) : Frame s (State.reconfigEnter y n) := by
  refine hF.trans ?_
  unfold State.reconfigEnter
  try dsimp only
  repeat' first | with_reducible exact Frame.refl _ | with_reducible apply fr_enterReconfig | with_reducible apply fr_loadCheck | with_reducible apply Frame.ite | with_reducible apply Frame.ite2 | split

theorem fr_deviceFail {s y : State} (slot : ℕ) (e : ℕ × ℕ) (hF : Frame s y) : Frame s (State.deviceFail y slot e) := by
  refine hF.trans ?_
  unfold State.deviceFail
  try dsimp only
  repeat' first | with_reducible exact Frame.refl _ | with_reducible apply fr_gevt | with_reducible apply fr_gput | with_reducible apply fr_imgIdle | with_reducible apply fr_endCmd | fail_if_no_progress (with_reducible apply Frame.upd) | with_reducible apply Frame.ite | with_reducible apply Frame.ite2 | split

theorem fr_deviceCmd {s y : State} (slot : ℕ) (images : Option (List (Option Bytes))) (hF : Frame s y) : Frame s (State.deviceCmd y slot images) := by
  refine hF.trans ?_
  unfold State.deviceCmd
  try dsimp only
  repeat' first | with_reducible exact Frame.refl _ | with_reducible apply fr_endCmd | with_reducible apply fr_gput | with_reducible apply fr_setProgress | with_reducible apply fr_begin' | with_reducible apply fr_deviceFail | with_reducible apply fr_setStage | fail_if_no_progress (with_reducible apply Frame.upd) | with_reducible apply Frame.ite | with_reducible apply Frame.ite2 | split

theorem fr_undoCommon {s y : State} (i : Img) (hF : Frame s y) : Frame s (State.undoCommon y i) := by
  refine hF.trans ?_
  unfold State.undoCommon
  try dsimp only
  repeat' first | with_reducible exact Frame.refl _ | with_reducible apply fr_gsetWord | with_reducible apply fr_gput | with_reducible apply fr_setRf | fail_if_no_progress (with_reducible apply Frame.upd) | with_reducible apply Frame.ite | with_reducible apply Frame.ite2 | with_reducible apply Frame.fold | with_reducible apply Frame.fold2 | intro _ | split

theorem fr_deviceChannel {s y : State} (org : Origin) (pair : Bool) (n : ChanIx) (bs : Bytes) (hF : Frame s y) : Frame s (State.deviceChannel y org pair n bs) := by
  refine hF.trans ?_
  unfold State.deviceChannel
  try dsimp only
  repeat' first | with_reducible exact Frame.refl _ | with_reducible apply fr_storeImage | with_reducible apply fr_gevt | with_reducible apply fr_gput | with_reducible apply fr_setChSt | with_reducible apply fr_setHeld | with_reducible apply fr_powerUp | with_reducible apply fr_updImg | with_reducible apply Frame.ite | with_reducible apply Frame.ite2 | split

theorem fr_commonRecords {s y : State} (i : Img) (hF : Frame s y) : Frame s (State.commonRecords y i) := by
  refine hF.trans ?_
  unfold State.commonRecords
  try dsimp only
  repeat' first | with_reducible exact Frame.refl _ | with_reducible apply fr_gWriteFields | with_reducible apply fr_gput | fail_if_no_progress (with_reducible apply Frame.upd) | with_reducible apply Frame.ite | with_reducible apply Frame.ite2 | with_reducible apply Frame.fold | with_reducible apply Frame.fold2 | intro _ | split

theorem fr_commonTaken {s y : State} (org : Origin) (i : Img) (chs : List (ChanIx × Bytes)) (hF : Frame s y) : Frame s (State.commonTaken y org i chs) := by
  refine hF.trans ?_
  unfold State.commonTaken
  try dsimp only
  repeat' first | with_reducible exact Frame.refl _ | with_reducible apply fr_gsetWord | with_reducible apply fr_putMeas | with_reducible apply fr_vaultMeas | with_reducible apply fr_raiseFloor | with_reducible apply fr_book1 | with_reducible apply fr_gput | with_reducible apply fr_deviceChannel | with_reducible apply Frame.ite | with_reducible apply Frame.ite2 | with_reducible apply Frame.fold | with_reducible apply Frame.fold2 | intro _ | split

theorem fr_loaderCommit {s y t : State} (b : CB) (h : y.loaderCommit b = some t) (hF : Frame s y) : Frame s t := by
  refine hF.trans ?_
  simp only [State.loaderCommit] at h
  split at h
  · exact absurd h (by simp)
  · rw [Option.some.injEq] at h
    rw [← h]
    repeat' first | with_reducible exact Frame.refl _ | with_reducible apply fr_gsetWord | with_reducible apply fr_commitBlk

theorem fr_commonApply {s y : State} (hF : Frame s y) : Frame s y.commonApply := by
  refine hF.trans ?_
  unfold State.commonApply
  split
  · exact Frame.refl _
  · refine Frame.ite (Frame.refl _) ?_
    dsimp only
    split
    · exact fr_setStage _ (fr_deviceFail _ _ (fr_undoCommon _ (fr_commonRecords _ (Frame.refl _))))
    · rename_i hs
      simp only [Option.bind_eq_some_iff] at hs
      obtain ⟨a, ⟨b, hb, ha⟩, h4⟩ := hs
      exact fr_commonTaken _ _ _ (fr_loaderCommit _ h4 (fr_loaderCommit _ ha (fr_loaderCommit _ hb (fr_commonRecords _ (Frame.refl _)))))

theorem fr_deviceDone {s y : State} (hF : Frame s y) : Frame s (State.deviceDone y) := by
  refine hF.trans ?_
  unfold State.deviceDone
  try dsimp only
  repeat' first | with_reducible exact Frame.refl _ | with_reducible apply fr_setStage | with_reducible apply fr_gevt | with_reducible apply fr_imgIdle | with_reducible apply fr_twinReset | with_reducible apply fr_endCmd | fail_if_no_progress (with_reducible apply Frame.upd) | with_reducible apply Frame.ite | with_reducible apply Frame.ite2 | split

theorem fr_setChpwr {s y : State} (n : ChanIx) (b : Bool) (hF : Frame s y) : Frame s (State.setChpwr y n b) := by
  refine hF.trans ?_
  unfold State.setChpwr
  try dsimp only
  repeat' first | with_reducible exact Frame.refl _ | with_reducible apply fr_gsetWord | with_reducible apply Frame.ite | with_reducible apply Frame.ite2 | split

theorem fr_railsGood {s y : State} (n : ChanIx) (hF : Frame s y) : Frame s (State.railsGood y n) := by
  refine hF.trans ?_
  unfold State.railsGood
  try dsimp only
  repeat' first | with_reducible exact Frame.refl _ | with_reducible apply fr_setRoot | with_reducible apply Frame.ite | with_reducible apply Frame.ite2 | split

theorem fr_powerUpDone {s y : State} (n : ChanIx) (hF : Frame s y) : Frame s (State.powerUpDone y n) := by
  refine hF.trans ?_
  unfold State.powerUpDone
  try dsimp only
  repeat' first | with_reducible exact Frame.refl _ | with_reducible apply fr_setChpwr | with_reducible apply fr_updImg | with_reducible apply fr_powerDown | with_reducible apply fr_loadCheck | with_reducible apply Frame.ite | with_reducible apply Frame.ite2 | split

theorem fr_powerDownDone {s y : State} (n : ChanIx) (hF : Frame s y) : Frame s (State.powerDownDone y n) := by
  refine hF.trans ?_
  unfold State.powerDownDone
  try dsimp only
  repeat' first | with_reducible exact Frame.refl _ | with_reducible apply fr_setRoot | with_reducible apply fr_updImg | with_reducible apply fr_setChpwr | with_reducible apply fr_powerUp | with_reducible apply Frame.ite | with_reducible apply Frame.ite2 | split

theorem fr_noteAbsent {s y : State} (n : ChanIx) (hF : Frame s y) : Frame s (State.noteAbsent y n) := by
  refine hF.trans ?_
  unfold State.noteAbsent
  try dsimp only
  repeat' first | with_reducible exact Frame.refl _ | with_reducible apply fr_gevtMask | with_reducible apply Frame.ite | with_reducible apply Frame.ite2 | split

theorem fr_noteReserved {s y : State} (addr : ℕ) (hF : Frame s y) : Frame s (State.noteReserved y addr) := by
  refine hF.trans ?_
  unfold State.noteReserved
  try dsimp only
  repeat' first | with_reducible exact Frame.refl _ | with_reducible apply fr_gput | with_reducible apply fr_gbump | with_reducible apply Frame.ite | with_reducible apply Frame.ite2 | split

theorem fr_hostRead {s y : State} (addr : ℕ) (hF : Frame s y) : Frame s (State.hostRead y addr).2 := by
  refine hF.trans ?_
  unfold State.hostRead
  try dsimp only
  repeat' first | with_reducible exact Frame.refl _ | with_reducible apply fr_noteReserved | with_reducible apply fr_noteAbsent | with_reducible apply fr_gRead | with_reducible apply fr_setCh | with_reducible apply Frame.ite | with_reducible apply Frame.ite2 | split

theorem fr_injGo {s y : State} (hF : Frame s y) : Frame s (State.injGo y) := by
  refine hF.trans ?_
  unfold State.injGo
  try dsimp only
  repeat' first | with_reducible exact Frame.refl _ | with_reducible apply fr_gevt | with_reducible apply fr_gput | fail_if_no_progress (with_reducible apply Frame.upd) | with_reducible apply Frame.ite | with_reducible apply Frame.ite2 | split

theorem fr_safeCtl {s y : State} (v : Word) (hF : Frame s y) : Frame s (State.safeCtl y v).2 := by
  refine hF.trans ?_
  unfold State.safeCtl
  try dsimp only
  repeat' first | with_reducible exact Frame.refl _ | with_reducible apply fr_enterSafe | with_reducible apply fr_blockResets | fail_if_no_progress (with_reducible apply Frame.upd) | with_reducible apply Frame.ite | with_reducible apply Frame.ite2 | split

theorem fr_twinCtl {s y : State} (org : Origin) (v : Word) (hF : Frame s y) : Frame s (State.twinCtl y org v).2 := by
  refine hF.trans ?_
  unfold State.twinCtl
  try dsimp only
  repeat' first | with_reducible exact Frame.refl _ | with_reducible apply fr_commitBlk | with_reducible apply fr_fence | with_reducible apply fr_unfence | with_reducible apply Frame.ite | with_reducible apply Frame.ite2 | split

theorem fr_gAction {s y : State} (org : Origin) (b : CB) (off : ℕ) (v : Word) (hF : Frame s y) : Frame s (State.gAction y org b off v).2 := by
  refine hF.trans ?_
  unfold State.gAction
  try dsimp only
  repeat' first | with_reducible exact Frame.refl _ | with_reducible apply fr_submit | with_reducible apply fr_release | with_reducible apply fr_stream | with_reducible apply fr_safeCtl | with_reducible apply fr_injGo | with_reducible apply fr_kumGo | with_reducible apply fr_quoteGo | with_reducible apply fr_bookRead | with_reducible apply fr_tallyNow | with_reducible apply fr_twinCtl | with_reducible apply fr_commitBlk | with_reducible apply fr_calGo | with_reducible apply fr_chCtl | with_reducible apply Frame.ite | with_reducible apply Frame.ite2 | split

theorem fr_gHostWrite {s y : State} (org : Origin) (b : CB) (off : ℕ) (v : Word) (hF : Frame s y) : Frame s (State.gHostWrite y org b off v) := by
  refine hF.trans ?_
  unfold State.gHostWrite
  try dsimp only
  repeat' first | with_reducible exact Frame.refl _ | with_reducible apply fr_gWriteFields | with_reducible apply fr_gAction | with_reducible apply fr_book1 | with_reducible apply Frame.ite | with_reducible apply Frame.ite2 | split

theorem fr_writeAt {s y : State} (p : HostPath) (addr : ℕ) (v : Word) (hF : Frame s y) : Frame s (State.writeAt y p addr v) := by
  refine hF.trans ?_
  unfold State.writeAt
  try dsimp only
  repeat' first | with_reducible exact Frame.refl _ | with_reducible apply fr_gbumpSat | with_reducible apply fr_noteReserved | with_reducible apply fr_noteAbsent | with_reducible apply fr_gHostWrite | with_reducible apply fr_onCh | with_reducible apply Frame.ite | with_reducible apply Frame.ite2 | split

theorem fr_hostWrite {s y : State} (p : HostPath) (addr : ℕ) (v : Word) (hF : Frame s y) : Frame s (State.hostWrite y p addr v) := by
  refine hF.trans ?_
  unfold State.hostWrite
  try dsimp only
  repeat' first | with_reducible exact Frame.refl _ | with_reducible apply fr_writeAt | with_reducible apply Frame.ite | with_reducible apply Frame.ite2 | split

theorem fr_writeCh {s y : State} (p : HostPath) (n : ChanIx) (b : KB) (off : ℕ) (v : Word) (hF : Frame s y) : Frame s (State.writeCh y p n b off v) := by
  refine hF.trans ?_
  unfold State.writeCh
  try dsimp only
  repeat' first | with_reducible exact Frame.refl _ | with_reducible apply fr_hostWrite | with_reducible apply Frame.ite | with_reducible apply Frame.ite2 | split

theorem fr_writeCom {s y : State} (p : HostPath) (b : CB) (off : ℕ) (v : Word) (hF : Frame s y) : Frame s (State.writeCom y p b off v) := by
  refine hF.trans ?_
  unfold State.writeCom
  try dsimp only
  repeat' first | with_reducible exact Frame.refl _ | with_reducible apply fr_hostWrite | with_reducible apply Frame.ite | with_reducible apply Frame.ite2 | split

theorem fr_kumRow {s y : State} (op : ℕ) (p : HostPath) (v : Word) (hF : Frame s y) : Frame s (State.kumRow y op p v) := by
  refine hF.trans ?_
  unfold State.kumRow
  try dsimp only
  repeat' first | with_reducible exact Frame.refl _ | with_reducible apply fr_writeCom | with_reducible apply Frame.ite | with_reducible apply Frame.ite2 | split

theorem fr_readCmd {s y : State} (p : HostPath) (addr : ℕ) (hF : Frame s y) : Frame s (State.readCmd y p addr) := by
  refine hF.trans ?_
  unfold State.readCmd
  try dsimp only
  repeat' first | with_reducible exact Frame.refl _ | with_reducible apply fr_hostRead | with_reducible apply fr_emit | with_reducible apply Frame.ite | with_reducible apply Frame.ite2 | split

theorem fr_injDetect {s y : State} (hF : Frame s y) : Frame s (State.injDetect y) := by
  refine hF.trans ?_
  unfold State.injDetect
  try dsimp only
  repeat' first | with_reducible exact Frame.refl _ | with_reducible apply fr_detectInjected | with_reducible apply Frame.ite | with_reducible apply Frame.ite2 | split

theorem fr_injTimeout {s y : State} (hF : Frame s y) : Frame s (State.injTimeout y) := by
  refine hF.trans ?_
  unfold State.injTimeout
  try dsimp only
  repeat' first | with_reducible exact Frame.refl _ | with_reducible apply fr_gevt | with_reducible apply fr_gput | fail_if_no_progress (with_reducible apply Frame.upd) | with_reducible apply Frame.ite | with_reducible apply Frame.ite2 | split

theorem fr_clientWord {s y : State} (n : ChanIx) (off : ℕ) (hF : Frame s y) : Frame s (State.clientWord y n off).2 := by
  refine hF.trans ?_
  unfold State.clientWord
  try dsimp only
  repeat' first | with_reducible exact Frame.refl _ | with_reducible apply fr_free | with_reducible apply Frame.ite | with_reducible apply Frame.ite2 | split

theorem fr_sliceRead {s y : State} (n : ChanIx) (off : ℕ) (hF : Frame s y) : Frame s (State.sliceRead y n off).2 := by
  refine hF.trans ?_
  unfold State.sliceRead
  try dsimp only
  repeat' first | with_reducible exact Frame.refl _ | with_reducible apply fr_clientWord | with_reducible apply Frame.ite | with_reducible apply Frame.ite2 | split

theorem fr_memRead {s y : State} (addr : ℕ) (hF : Frame s y) : Frame s (State.memRead y addr).2 := by
  refine hF.trans ?_
  unfold State.memRead
  try dsimp only
  repeat' first | with_reducible exact Frame.refl _ | with_reducible apply fr_noteAbsent | with_reducible apply fr_sliceRead | with_reducible apply Frame.ite | with_reducible apply Frame.ite2 | split

theorem fr_memWrite {s y : State} (addr : ℕ) (v : Word) (hF : Frame s y) : Frame s (State.memWrite y addr v) := by
  refine hF.trans ?_
  unfold State.memWrite
  try dsimp only
  repeat' first | with_reducible exact Frame.refl _ | with_reducible apply fr_gbumpSat | with_reducible apply fr_noteAbsent | with_reducible apply fr_htxByte | with_reducible apply fr_gbump | with_reducible apply Frame.ite | with_reducible apply Frame.ite2 | with_reducible apply Frame.fold | with_reducible apply Frame.fold2 | intro _ | split

theorem fr_memWriteCmd {s y : State} (p : HostPath) (addr : ℕ) (v : Word) (hF : Frame s y) : Frame s (State.memWriteCmd y p addr v) := by
  refine hF.trans ?_
  unfold State.memWriteCmd
  try dsimp only
  repeat' first | with_reducible exact Frame.refl _ | with_reducible apply fr_memWrite | with_reducible apply Frame.ite | with_reducible apply Frame.ite2 | split

theorem fr_htxFollow {s y : State} (n : ChanIx) (p : PortIx) (hF : Frame s y) : Frame s (State.htxFollow y n p) := by
  refine hF.trans ?_
  unfold State.htxFollow
  try dsimp only
  repeat' first | with_reducible exact Frame.refl _ | with_reducible apply fr_gput | with_reducible apply fr_gbumpBy | with_reducible apply Frame.ite | with_reducible apply Frame.ite2 | split

theorem fr_htxTake {s y : State} (n : ChanIx) (p : PortIx) (hF : Frame s y) : Frame s (State.htxTake y n p) := by
  refine hF.trans ?_
  unfold State.htxTake
  try dsimp only
  repeat' first | with_reducible exact Frame.refl _ | with_reducible apply fr_htxFollow | with_reducible apply fr_gput | with_reducible apply fr_gbump | with_reducible apply fr_onCh | fail_if_no_progress (with_reducible apply Frame.upd) | with_reducible apply Frame.ite | with_reducible apply Frame.ite2 | split

theorem fr_mspiErr {s y : State} (op : ℕ) (st : ℕ) (hF : Frame s y) : Frame s (State.mspiErr y op st) := by
  refine hF.trans ?_
  unfold State.mspiErr
  try dsimp only
  repeat' first | with_reducible exact Frame.refl _ | with_reducible apply fr_detect | with_reducible apply fr_gbump | with_reducible apply fr_free | with_reducible apply fr_emit | with_reducible apply Frame.ite | with_reducible apply Frame.ite2 | split

theorem fr_mspiFrame {s y : State} (op : Nat) (bs : Bytes) (f : State → State) (hf : ∀ x, Frame x (f x)) (hF : Frame s y) : Frame s (y.mspiFrame op bs f) := by
  refine hF.trans ?_
  unfold State.mspiFrame
  dsimp only
  repeat' first | with_reducible exact Frame.refl _ | with_reducible apply fr_mspiErr | with_reducible apply fr_gbump | with_reducible apply Frame.ite
  exact (fr_gbump _ (Frame.refl _)).trans (hf _)

theorem fr_mspiReadReg {s y : State} (bs : Bytes) (hF : Frame s y) : Frame s (State.mspiReadReg y bs) := by
  refine hF.trans ?_
  unfold State.mspiReadReg
  try dsimp only
  repeat' first | with_reducible exact Frame.refl _ | with_reducible apply fr_free | with_reducible apply fr_emit | with_reducible apply fr_mspiFrame | with_reducible apply fr_mspiErr | with_reducible apply fr_hostRead | with_reducible apply Frame.ite | with_reducible apply Frame.ite2 | intro _ | split

theorem fr_mspiWriteReg {s y : State} (bs : Bytes) (hF : Frame s y) : Frame s (State.mspiWriteReg y bs) := by
  refine hF.trans ?_
  unfold State.mspiWriteReg
  try dsimp only
  repeat' first | with_reducible exact Frame.refl _ | with_reducible apply fr_mspiFrame | with_reducible apply fr_mspiErr | with_reducible apply fr_emit | with_reducible apply fr_writeAt | with_reducible apply Frame.ite | with_reducible apply Frame.ite2 | intro _ | split

theorem fr_mspiReadMem {s y : State} (bs : Bytes) (hF : Frame s y) : Frame s (State.mspiReadMem y bs) := by
  refine hF.trans ?_
  unfold State.mspiReadMem
  try dsimp only
  repeat' first | with_reducible exact Frame.refl _ | with_reducible apply fr_mspiFrame | with_reducible apply fr_mspiErr | with_reducible apply fr_memRead | with_reducible apply fr_emit | with_reducible apply Frame.ite | with_reducible apply Frame.ite2 | intro _ | split

theorem fr_mspiWriteMem {s y : State} (bs : Bytes) (hF : Frame s y) : Frame s (State.mspiWriteMem y bs) := by
  refine hF.trans ?_
  unfold State.mspiWriteMem
  try dsimp only
  repeat' first | with_reducible exact Frame.refl _ | with_reducible apply fr_mspiFrame | with_reducible apply fr_mspiErr | with_reducible apply fr_emit | with_reducible apply fr_memWrite | with_reducible apply Frame.ite | with_reducible apply Frame.ite2 | intro _ | split

theorem fr_mspiScan {s y : State} (bs : Bytes) (hF : Frame s y) : Frame s (State.mspiScan y bs) := by
  refine hF.trans ?_
  unfold State.mspiScan
  try dsimp only
  repeat' first | with_reducible exact Frame.refl _ | with_reducible apply fr_mspiFrame | with_reducible apply fr_setStage | with_reducible apply fr_zeroize | with_reducible apply fr_bookSt | with_reducible apply fr_emit | with_reducible apply fr_updPwr | with_reducible apply fr_mspiErr | with_reducible apply Frame.ite | with_reducible apply Frame.ite2 | intro _ | split

theorem fr_mspiDrive {s y : State} (bs : Bytes) (hF : Frame s y) : Frame s (State.mspiDrive y bs) := by
  refine hF.trans ?_
  unfold State.mspiDrive
  try dsimp only
  repeat' first | with_reducible exact Frame.refl _ | with_reducible apply fr_emit | with_reducible apply fr_updPwr | with_reducible apply fr_mspiFrame | with_reducible apply fr_mspiErr | with_reducible apply Frame.ite | with_reducible apply Frame.ite2 | intro _ | split

theorem fr_mspiSense {s y : State} (bs : Bytes) (level : Bool) (hF : Frame s y) : Frame s (State.mspiSense y bs level) := by
  refine hF.trans ?_
  unfold State.mspiSense
  try dsimp only
  repeat' first | with_reducible exact Frame.refl _ | with_reducible apply fr_free | with_reducible apply fr_emit | with_reducible apply fr_mspiFrame | with_reducible apply fr_mspiErr | with_reducible apply Frame.ite | with_reducible apply Frame.ite2 | intro _ | split

theorem fr_beginTick {s y : State} (n : ChanIx) (hF : Frame s y) : Frame s (State.beginTick y n) := by
  refine hF.trans ?_
  unfold State.beginTick
  try dsimp only
  repeat' first | with_reducible exact Frame.refl _ | with_reducible apply fr_onCh | with_reducible apply Frame.ite | with_reducible apply Frame.ite2 | split

theorem fr_chanTick {s y : State} (n : ChanIx) (hF : Frame s y) : Frame s (State.chanTick y n) := by
  refine hF.trans ?_
  unfold State.chanTick
  try dsimp only
  repeat' first | with_reducible exact Frame.refl _ | with_reducible apply fr_beginTick | with_reducible apply fr_onCh | with_reducible apply fr_setCh | with_reducible apply Frame.ite | with_reducible apply Frame.ite2 | split

theorem fr_tickLast {s y : State} (hF : Frame s y) : Frame s (State.tickLast y) := by
  refine hF.trans ?_
  unfold State.tickLast
  try dsimp only
  repeat' first | with_reducible exact Frame.refl _ | with_reducible apply fr_exportFix | with_reducible apply fr_tallyFix | with_reducible apply fr_drain | with_reducible apply fr_blockResets | with_reducible apply fr_railsGood | with_reducible apply fr_htxFollow | with_reducible apply Frame.ite | with_reducible apply Frame.ite2 | with_reducible apply Frame.fold | with_reducible apply Frame.fold2 | intro _ | split

theorem fr_tickEnd {s y : State} (hF : Frame s y) : Frame s (State.tickEnd y) := by
  refine hF.trans ?_
  unfold State.tickEnd
  try dsimp only
  repeat' first | with_reducible exact Frame.refl _ | with_reducible apply fr_bookFlush | with_reducible apply fr_tickLast | with_reducible apply fr_faultReset | with_reducible apply fr_twinTick | with_reducible apply fr_chanTick | with_reducible apply fr_forwardTick | fail_if_no_progress (with_reducible apply Frame.upd) | with_reducible apply Frame.ite | with_reducible apply Frame.ite2 | with_reducible apply Frame.fold | with_reducible apply Frame.fold2 | intro _ | split

theorem fr_twinLaneSync {s y : State} (l : Fin 2) (up : Bool) (hF : Frame s y) : Frame s (State.twinLaneSync y l up) := by
  refine hF.trans ?_
  unfold State.twinLaneSync
  try dsimp only
  repeat' first | with_reducible exact Frame.refl _ | with_reducible apply fr_updTwin | with_reducible apply Frame.ite | with_reducible apply Frame.ite2 | split

theorem fr_synNoLock {s y : State} (n : ChanIx) (k : Fin 2) (hF : Frame s y) : Frame s (State.synNoLock y n k) := by
  refine hF.trans ?_
  unfold State.synNoLock
  try dsimp only
  repeat' first | with_reducible exact Frame.refl _ | with_reducible apply fr_onCh | with_reducible apply fr_drillFail | with_reducible apply Frame.ite | with_reducible apply Frame.ite2 | split

theorem fr_effRegisterWrite {s y : State} (p : HostPath) (addr : ℕ) (v : Word) (hF : Frame s y) : Frame s (effRegisterWrite p addr v y) := by
  refine hF.trans ?_
  unfold effRegisterWrite
  try dsimp only
  repeat' first | with_reducible exact Frame.refl _ | with_reducible apply fr_hostWrite | with_reducible apply Frame.ite | with_reducible apply Frame.ite2 | split

theorem fr_effMultiwordReadLatch {s y : State} (p : HostPath) (addr : ℕ) (hF : Frame s y) : Frame s (effMultiwordReadLatch p addr y) := by
  refine hF.trans ?_
  unfold effMultiwordReadLatch
  try dsimp only
  repeat' first | with_reducible exact Frame.refl _ | with_reducible apply fr_readCmd | with_reducible apply Frame.ite | with_reducible apply Frame.ite2 | split

theorem fr_effBookWindowStart {s y : State} (hF : Frame s y) : Frame s (effBookWindowStart y) := by
  refine hF.trans ?_
  unfold effBookWindowStart
  try dsimp only
  repeat' first | with_reducible exact Frame.refl _ | with_reducible apply fr_bookWindow | with_reducible apply Frame.ite | with_reducible apply Frame.ite2 | split

theorem fr_effBookRdGo {s y : State} (p : HostPath) (v : Word) (hF : Frame s y) : Frame s (effBookRdGo p v y) := by
  refine hF.trans ?_
  unfold effBookRdGo
  try dsimp only
  repeat' first | with_reducible exact Frame.refl _ | with_reducible apply fr_writeCom | with_reducible apply Frame.ite | with_reducible apply Frame.ite2 | split

theorem fr_effMirrorEnable {s y : State} (p : HostPath) (v : Word) (hF : Frame s y) : Frame s (effMirrorEnable p v y) := by
  refine hF.trans ?_
  unfold effMirrorEnable
  try dsimp only
  repeat' first | with_reducible exact Frame.refl _ | with_reducible apply fr_writeCom | with_reducible apply Frame.ite | with_reducible apply Frame.ite2 | split

theorem fr_effRefCommit {s y : State} (p : HostPath) (c : ChanIx) (v : Word) (hF : Frame s y) : Frame s (effRefCommit p c v y) := by
  refine hF.trans ?_
  unfold effRefCommit
  try dsimp only
  repeat' first | with_reducible exact Frame.refl _ | with_reducible apply fr_writeCh | with_reducible apply Frame.ite | with_reducible apply Frame.ite2 | split

theorem fr_effDpllCommit {s y : State} (p : HostPath) (c : ChanIx) (v : Word) (hF : Frame s y) : Frame s (effDpllCommit p c v y) := by
  refine hF.trans ?_
  unfold effDpllCommit
  try dsimp only
  repeat' first | with_reducible exact Frame.refl _ | with_reducible apply fr_writeCh | with_reducible apply Frame.ite | with_reducible apply Frame.ite2 | split

theorem fr_effSynCommit {s y : State} (p : HostPath) (c : ChanIx) (v : Word) (hF : Frame s y) : Frame s (effSynCommit p c v y) := by
  refine hF.trans ?_
  unfold effSynCommit
  try dsimp only
  repeat' first | with_reducible exact Frame.refl _ | with_reducible apply fr_writeCh | with_reducible apply Frame.ite | with_reducible apply Frame.ite2 | split

theorem fr_effGnssCommit {s y : State} (p : HostPath) (c : ChanIx) (v : Word) (hF : Frame s y) : Frame s (effGnssCommit p c v y) := by
  refine hF.trans ?_
  unfold effGnssCommit
  try dsimp only
  repeat' first | with_reducible exact Frame.refl _ | with_reducible apply fr_writeCh | with_reducible apply Frame.ite | with_reducible apply Frame.ite2 | split

theorem fr_effPortCommit {s y : State} (p : HostPath) (c : ChanIx) (v : Word) (hF : Frame s y) : Frame s (effPortCommit p c v y) := by
  refine hF.trans ?_
  unfold effPortCommit
  try dsimp only
  repeat' first | with_reducible exact Frame.refl _ | with_reducible apply fr_writeCh | with_reducible apply Frame.ite | with_reducible apply Frame.ite2 | split

theorem fr_effSchedCommit {s y : State} (p : HostPath) (c : ChanIx) (v : Word) (hF : Frame s y) : Frame s (effSchedCommit p c v y) := by
  refine hF.trans ?_
  unfold effSchedCommit
  try dsimp only
  repeat' first | with_reducible exact Frame.refl _ | with_reducible apply fr_writeCh | with_reducible apply Frame.ite | with_reducible apply Frame.ite2 | split

theorem fr_effSealCommit {s y : State} (p : HostPath) (c : ChanIx) (v : Word) (hF : Frame s y) : Frame s (effSealCommit p c v y) := by
  refine hF.trans ?_
  unfold effSealCommit
  try dsimp only
  repeat' first | with_reducible exact Frame.refl _ | with_reducible apply fr_writeCh | with_reducible apply Frame.ite | with_reducible apply Frame.ite2 | split

theorem fr_effTwinCommit {s y : State} (p : HostPath) (v : Word) (hF : Frame s y) : Frame s (effTwinCommit p v y) := by
  refine hF.trans ?_
  unfold effTwinCommit
  try dsimp only
  repeat' first | with_reducible exact Frame.refl _ | with_reducible apply fr_writeCom | with_reducible apply Frame.ite | with_reducible apply Frame.ite2 | split

theorem fr_effBenchCommit {s y : State} (p : HostPath) (v : Word) (hF : Frame s y) : Frame s (effBenchCommit p v y) := by
  refine hF.trans ?_
  unfold effBenchCommit
  try dsimp only
  repeat' first | with_reducible exact Frame.refl _ | with_reducible apply fr_writeCom | with_reducible apply Frame.ite | with_reducible apply Frame.ite2 | split

theorem fr_effBCtlCommit {s y : State} (p : HostPath) (c : ChanIx) (v : Word) (hF : Frame s y) : Frame s (effBCtlCommit p c v y) := by
  refine hF.trans ?_
  unfold effBCtlCommit
  try dsimp only
  repeat' first | with_reducible exact Frame.refl _ | with_reducible apply fr_writeCh | with_reducible apply Frame.ite | with_reducible apply Frame.ite2 | split

theorem fr_effClkgenCommit {s y : State} (p : HostPath) (v : Word) (hF : Frame s y) : Frame s (effClkgenCommit p v y) := by
  refine hF.trans ?_
  unfold effClkgenCommit
  try dsimp only
  repeat' first | with_reducible exact Frame.refl _ | with_reducible apply fr_writeCom | with_reducible apply Frame.ite | with_reducible apply Frame.ite2 | split

theorem fr_effBlockLock {s y : State} (p : HostPath) (b : LockBlk) (v : Word) (hF : Frame s y) : Frame s (effBlockLock p b v y) := by
  refine hF.trans ?_
  unfold effBlockLock
  try dsimp only
  repeat' first | with_reducible exact Frame.refl _ | with_reducible apply fr_hostWrite | with_reducible apply Frame.ite | with_reducible apply Frame.ite2 | split

theorem fr_effBenchLinkSync {s y : State} (c : ChanIx) (x : Fin 2) (hF : Frame s y) : Frame s (effBenchLinkSync c x y) := by
  refine hF.trans ?_
  unfold effBenchLinkSync
  try dsimp only
  repeat' first | with_reducible exact Frame.refl _ | with_reducible apply fr_onCh | with_reducible apply Frame.ite | with_reducible apply Frame.ite2 | split

theorem fr_effBenchHelloSend {s y : State} (c : ChanIx) (x : Fin 2) (ps : ℕ) (hF : Frame s y) : Frame s (effBenchHelloSend c x ps y) := by
  refine hF.trans ?_
  unfold effBenchHelloSend
  try dsimp only
  repeat' first | with_reducible exact Frame.refl _ | with_reducible apply fr_onCh | with_reducible apply Frame.ite | with_reducible apply Frame.ite2 | split

theorem fr_effBenchHelloRx {s y : State} (c : ChanIx) (x : Fin 2) (bs : Bytes) (ps : ℕ) (hF : Frame s y) : Frame s (effBenchHelloRx c x bs ps y) := by
  refine hF.trans ?_
  unfold effBenchHelloRx
  try dsimp only
  repeat' first | with_reducible exact Frame.refl _ | with_reducible apply fr_onCh | with_reducible apply Frame.ite | with_reducible apply Frame.ite2 | split

theorem fr_effBenchHelloTimeout {s y : State} (c : ChanIx) (x : Fin 2) (lost : Bool) (hF : Frame s y) : Frame s (effBenchHelloTimeout c x lost y) := by
  refine hF.trans ?_
  unfold effBenchHelloTimeout
  try dsimp only
  repeat' first | with_reducible exact Frame.refl _ | with_reducible apply fr_onCh | with_reducible apply Frame.ite | with_reducible apply Frame.ite2 | split

theorem fr_effLsaSend {s y : State} (hF : Frame s y) : Frame s (effLsaSend y) := by
  refine hF.trans ?_
  unfold effLsaSend
  try dsimp only
  repeat' first | with_reducible exact Frame.refl _ | with_reducible apply fr_lsaSend | with_reducible apply Frame.ite | with_reducible apply Frame.ite2 | split

theorem fr_effLsaRx {s y : State} (c : ChanIx) (x : Fin 2) (bs : Bytes) (hF : Frame s y) : Frame s (effLsaRx c x bs y) := by
  refine hF.trans ?_
  unfold effLsaRx
  try dsimp only
  repeat' first | with_reducible exact Frame.refl _ | with_reducible apply fr_lsaRx | with_reducible apply Frame.ite | with_reducible apply Frame.ite2 | split

theorem fr_effLsaHoldExpiry {s y : State} (devid : ℕ) (hF : Frame s y) : Frame s (effLsaHoldExpiry devid y) := by
  refine hF.trans ?_
  unfold effLsaHoldExpiry
  try dsimp only
  repeat' first | with_reducible exact Frame.refl _ | with_reducible apply fr_lsaExpire | with_reducible apply Frame.ite | with_reducible apply Frame.ite2 | split

theorem fr_effRouteComputation {s y : State} (hF : Frame s y) : Frame s (effRouteComputation y) := by
  refine hF.trans ?_
  unfold effRouteComputation
  try dsimp only
  repeat' first | with_reducible exact Frame.refl _ | with_reducible apply fr_routeCompute | with_reducible apply Frame.ite | with_reducible apply Frame.ite2 | split

theorem fr_effBenchTimeSend {s y : State} (c : ChanIx) (ps0 : ℕ) (ps1 : ℕ) (hF : Frame s y) : Frame s (effBenchTimeSend c ps0 ps1 y) := by
  refine hF.trans ?_
  unfold effBenchTimeSend
  try dsimp only
  repeat' first | with_reducible exact Frame.refl _ | with_reducible apply fr_benchTimes | with_reducible apply Frame.ite | with_reducible apply Frame.ite2 | split

theorem fr_effBenchTimeRx {s y : State} (c : ChanIx) (x : Fin 2) (bs : Bytes) (ps : ℕ) (residence : List ℕ) (hF : Frame s y) : Frame s (effBenchTimeRx c x bs ps residence y) := by
  refine hF.trans ?_
  unfold effBenchTimeRx
  try dsimp only
  repeat' first | with_reducible exact Frame.refl _ | with_reducible apply fr_timeRx | with_reducible apply Frame.ite | with_reducible apply Frame.ite2 | split

theorem fr_effPeerSlotExpiry {s y : State} (c : ChanIx) (x : Fin 2) (i : Fin 32) (hF : Frame s y) : Frame s (effPeerSlotExpiry c x i y) := by
  refine hF.trans ?_
  unfold effPeerSlotExpiry
  try dsimp only
  repeat' first | with_reducible exact Frame.refl _ | with_reducible apply fr_onCh | with_reducible apply Frame.ite | with_reducible apply Frame.ite2 | split

theorem fr_effEnsembleEvaluation {s y : State} (c : ChanIx) (x : Fin 2) (hF : Frame s y) : Frame s (effEnsembleEvaluation c x y) := by
  refine hF.trans ?_
  unfold effEnsembleEvaluation
  try dsimp only
  repeat' first | with_reducible exact Frame.refl _ | with_reducible apply fr_onCh | with_reducible apply Frame.ite | with_reducible apply Frame.ite2 | split

theorem fr_effBenchCalGo {s y : State} (p : HostPath) (v : Word) (hF : Frame s y) : Frame s (effBenchCalGo p v y) := by
  refine hF.trans ?_
  unfold effBenchCalGo
  try dsimp only
  repeat' first | with_reducible exact Frame.refl _ | with_reducible apply fr_writeCom | with_reducible apply Frame.ite | with_reducible apply Frame.ite2 | split

theorem fr_effBenchCalDone {s y : State} (ab : List ℕ) (ba : List ℕ) (hF : Frame s y) : Frame s (effBenchCalDone ab ba y) := by
  refine hF.trans ?_
  unfold effBenchCalDone
  try dsimp only
  repeat' first | with_reducible exact Frame.refl _ | with_reducible apply fr_calDone | with_reducible apply Frame.ite | with_reducible apply Frame.ite2 | split

theorem fr_effPmuTdSnap {s y : State} (p : HostPath) (c : ChanIx) (v : Word) (hF : Frame s y) : Frame s (effPmuTdSnap p c v y) := by
  refine hF.trans ?_
  unfold effPmuTdSnap
  try dsimp only
  repeat' first | with_reducible exact Frame.refl _ | with_reducible apply fr_writeCh | with_reducible apply Frame.ite | with_reducible apply Frame.ite2 | split

theorem fr_effPmuCounterWrap {s y : State} (c : ChanIx) (smp : PmuSample) (hF : Frame s y) : Frame s (effPmuCounterWrap c smp y) := by
  refine hF.trans ?_
  unfold effPmuCounterWrap
  try dsimp only
  repeat' first | with_reducible exact Frame.refl _ | with_reducible apply fr_onCh | with_reducible apply Frame.ite | with_reducible apply Frame.ite2 | split

theorem fr_effBwWindowEnd {s y : State} (c : ChanIx) (hF : Frame s y) : Frame s (effBwWindowEnd c y) := by
  refine hF.trans ?_
  unfold effBwWindowEnd
  try dsimp only
  repeat' first | with_reducible exact Frame.refl _ | with_reducible apply fr_onCh | with_reducible apply Frame.ite | with_reducible apply Frame.ite2 | split

theorem fr_effBwCfgWrite {s y : State} (p : HostPath) (c : ChanIx) (v : Word) (hF : Frame s y) : Frame s (effBwCfgWrite p c v y) := by
  refine hF.trans ?_
  unfold effBwCfgWrite
  try dsimp only
  repeat' first | with_reducible exact Frame.refl _ | with_reducible apply fr_writeCh | with_reducible apply Frame.ite | with_reducible apply Frame.ite2 | split

theorem fr_effPkClrWrite {s y : State} (h : HostPath) (c : ChanIx) (p : PortIx) (v : Word) (hF : Frame s y) : Frame s (effPkClrWrite h c p v y) := by
  refine hF.trans ?_
  unfold effPkClrWrite
  try dsimp only
  repeat' first | with_reducible exact Frame.refl _ | with_reducible apply fr_writeCh | with_reducible apply Frame.ite | with_reducible apply Frame.ite2 | split

theorem fr_effTallyUpdateStart {s y : State} (hF : Frame s y) : Frame s (effTallyUpdateStart y) := by
  refine hF.trans ?_
  unfold effTallyUpdateStart
  try dsimp only
  repeat' first | with_reducible exact Frame.refl _ | with_reducible apply fr_tallyTimed | with_reducible apply Frame.ite | with_reducible apply Frame.ite2 | split

theorem fr_effTallyUpdNow {s y : State} (p : HostPath) (v : Word) (hF : Frame s y) : Frame s (effTallyUpdNow p v y) := by
  refine hF.trans ?_
  unfold effTallyUpdNow
  try dsimp only
  repeat' first | with_reducible exact Frame.refl _ | with_reducible apply fr_writeCom | with_reducible apply Frame.ite | with_reducible apply Frame.ite2 | split

theorem fr_effTallyUpdateCommit {s y : State} (hF : Frame s y) : Frame s (effTallyUpdateCommit y) := by
  refine hF.trans ?_
  unfold effTallyUpdateCommit
  try dsimp only
  repeat' first | with_reducible exact Frame.refl _ | with_reducible apply fr_tallyCommit | with_reducible apply Frame.ite | with_reducible apply Frame.ite2 | split

theorem fr_effPohSecondCount {s y : State} (tj : ℤ) (va : ℕ) (vb : ℕ) (hF : Frame s y) : Frame s (effPohSecondCount tj va vb y) := by
  refine hF.trans ?_
  unfold effPohSecondCount
  try dsimp only
  repeat' first | with_reducible exact Frame.refl _ | with_reducible apply fr_pohSecond | with_reducible apply Frame.ite | with_reducible apply Frame.ite2 | split

theorem fr_effFaultDetection {s y : State} (n : Fin 512) (hF : Frame s y) : Frame s (effFaultDetection n y) := by
  refine hF.trans ?_
  unfold effFaultDetection
  try dsimp only
  repeat' first | with_reducible exact Frame.refl _ | with_reducible apply fr_detect | with_reducible apply Frame.ite | with_reducible apply Frame.ite2 | split

theorem fr_effSafeEnter {s y : State} (p : HostPath) (v : Word) (hF : Frame s y) : Frame s (effSafeEnter p v y) := by
  refine hF.trans ?_
  unfold effSafeEnter
  try dsimp only
  repeat' first | with_reducible exact Frame.refl _ | with_reducible apply fr_writeCom | with_reducible apply Frame.ite | with_reducible apply Frame.ite2 | split

theorem fr_effSafeExit {s y : State} (p : HostPath) (v : Word) (hF : Frame s y) : Frame s (effSafeExit p v y) := by
  refine hF.trans ?_
  unfold effSafeExit
  try dsimp only
  repeat' first | with_reducible exact Frame.refl _ | with_reducible apply fr_writeCom | with_reducible apply Frame.ite | with_reducible apply Frame.ite2 | split

theorem fr_effInjectionGo {s y : State} (p : HostPath) (v : Word) (hF : Frame s y) : Frame s (effInjectionGo p v y) := by
  refine hF.trans ?_
  unfold effInjectionGo
  try dsimp only
  repeat' first | with_reducible exact Frame.refl _ | with_reducible apply fr_writeCom | with_reducible apply Frame.ite | with_reducible apply Frame.ite2 | split

theorem fr_effInjectedDetection {s y : State} (hF : Frame s y) : Frame s (effInjectedDetection y) := by
  refine hF.trans ?_
  unfold effInjectedDetection
  try dsimp only
  repeat' first | with_reducible exact Frame.refl _ | with_reducible apply fr_injDetect | with_reducible apply Frame.ite | with_reducible apply Frame.ite2 | split

theorem fr_effInjectionNoCheckTimeout {s y : State} (hF : Frame s y) : Frame s (effInjectionNoCheckTimeout y) := by
  refine hF.trans ?_
  unfold effInjectionNoCheckTimeout
  try dsimp only
  repeat' first | with_reducible exact Frame.refl _ | with_reducible apply fr_injTimeout | with_reducible apply Frame.ite | with_reducible apply Frame.ite2 | split

theorem fr_effClkGateForce {s y : State} (c : Option ChanIx) (blk : ℕ) (hF : Frame s y) : Frame s (effClkGateForce c blk y) := by
  refine hF.trans ?_
  unfold effClkGateForce
  try dsimp only
  repeat' first | with_reducible exact Frame.refl _ | with_reducible apply fr_gateForce | with_reducible apply Frame.ite | with_reducible apply Frame.ite2 | split

theorem fr_effClkSwitchComplete {s y : State} (c : Option ChanIx) (blk : ℕ) (how : SwitchEnd) (hF : Frame s y) : Frame s (effClkSwitchComplete c blk how y) := by
  refine hF.trans ?_
  unfold effClkSwitchComplete
  try dsimp only
  repeat' first | with_reducible exact Frame.refl _ | with_reducible apply fr_switchComplete | with_reducible apply Frame.ite | with_reducible apply Frame.ite2 | split

theorem fr_effSampleLinkFrame {s y : State} (c : ChanIx) (comma : Bool) (bs : Bytes) (hF : Frame s y) : Frame s (effSampleLinkFrame c comma bs y) := by
  refine hF.trans ?_
  unfold effSampleLinkFrame
  try dsimp only
  repeat' first | with_reducible exact Frame.refl _ | with_reducible apply fr_onCh | with_reducible apply Frame.ite | with_reducible apply Frame.ite2 | split

theorem fr_effBackChannelMessage {s y : State} (c : ChanIx) (hF : Frame s y) : Frame s (effBackChannelMessage c y) := by
  refine hF.trans ?_
  unfold effBackChannelMessage
  try dsimp only
  repeat' first | with_reducible exact Frame.refl _ | with_reducible apply fr_onCh | with_reducible apply Frame.ite | with_reducible apply Frame.ite2 | split

theorem fr_effBackChannelGo {s y : State} (p : HostPath) (c : ChanIx) (v : Word) (hF : Frame s y) : Frame s (effBackChannelGo p c v y) := by
  refine hF.trans ?_
  unfold effBackChannelGo
  try dsimp only
  repeat' first | with_reducible exact Frame.refl _ | with_reducible apply fr_writeCh | with_reducible apply Frame.ite | with_reducible apply Frame.ite2 | split

theorem fr_effBackChannelTimeout {s y : State} (c : ChanIx) (hF : Frame s y) : Frame s (effBackChannelTimeout c y) := by
  refine hF.trans ?_
  unfold effBackChannelTimeout
  try dsimp only
  repeat' first | with_reducible exact Frame.refl _ | with_reducible apply fr_onCh | with_reducible apply Frame.ite | with_reducible apply Frame.ite2 | split

theorem fr_effTrkAssignment {s y : State} (c : ChanIx) (i : Fin 48) (gal : Bool) (sv : ℕ) (hF : Frame s y) : Frame s (effTrkAssignment c i gal sv y) := by
  refine hF.trans ?_
  unfold effTrkAssignment
  try dsimp only
  repeat' first | with_reducible exact Frame.refl _ | with_reducible apply fr_onCh | with_reducible apply Frame.ite | with_reducible apply Frame.ite2 | split

theorem fr_effTrkDetection {s y : State} (c : ChanIx) (i : Fin 48) (hF : Frame s y) : Frame s (effTrkDetection c i y) := by
  refine hF.trans ?_
  unfold effTrkDetection
  try dsimp only
  repeat' first | with_reducible exact Frame.refl _ | with_reducible apply fr_onCh | with_reducible apply Frame.ite | with_reducible apply Frame.ite2 | split

theorem fr_effTrkWindowExhausted {s y : State} (c : ChanIx) (i : Fin 48) (hF : Frame s y) : Frame s (effTrkWindowExhausted c i y) := by
  refine hF.trans ?_
  unfold effTrkWindowExhausted
  try dsimp only
  repeat' first | with_reducible exact Frame.refl _ | with_reducible apply fr_onCh | with_reducible apply Frame.ite | with_reducible apply Frame.ite2 | split

theorem fr_effTrkReassignHoldoffEnd {s y : State} (c : ChanIx) (hF : Frame s y) : Frame s (effTrkReassignHoldoffEnd c y) := by
  refine hF.trans ?_
  unfold effTrkReassignHoldoffEnd
  try dsimp only
  repeat' first | with_reducible exact Frame.refl _ | with_reducible apply fr_onCh | with_reducible apply Frame.ite | with_reducible apply Frame.ite2 | split

theorem fr_effTrkLock {s y : State} (c : ChanIx) (i : Fin 48) (hF : Frame s y) : Frame s (effTrkLock c i y) := by
  refine hF.trans ?_
  unfold effTrkLock
  try dsimp only
  repeat' first | with_reducible exact Frame.refl _ | with_reducible apply fr_onCh | with_reducible apply Frame.ite | with_reducible apply Frame.ite2 | split

theorem fr_effTrkPullInTimeout {s y : State} (c : ChanIx) (i : Fin 48) (hF : Frame s y) : Frame s (effTrkPullInTimeout c i y) := by
  refine hF.trans ?_
  unfold effTrkPullInTimeout
  try dsimp only
  repeat' first | with_reducible exact Frame.refl _ | with_reducible apply fr_onCh | with_reducible apply Frame.ite | with_reducible apply Frame.ite2 | split

theorem fr_effTrkLockLost {s y : State} (c : ChanIx) (i : Fin 48) (hF : Frame s y) : Frame s (effTrkLockLost c i y) := by
  refine hF.trans ?_
  unfold effTrkLockLost
  try dsimp only
  repeat' first | with_reducible exact Frame.refl _ | with_reducible apply fr_onCh | with_reducible apply Frame.ite | with_reducible apply Frame.ite2 | split

theorem fr_effTrkLostTimeout {s y : State} (c : ChanIx) (i : Fin 48) (hF : Frame s y) : Frame s (effTrkLostTimeout c i y) := by
  refine hF.trans ?_
  unfold effTrkLostTimeout
  try dsimp only
  repeat' first | with_reducible exact Frame.refl _ | with_reducible apply fr_onCh | with_reducible apply Frame.ite | with_reducible apply Frame.ite2 | split

theorem fr_effSidePeakGuard {s y : State} (c : ChanIx) (i : Fin 48) (late : Bool) (hF : Frame s y) : Frame s (effSidePeakGuard c i late y) := by
  refine hF.trans ?_
  unfold effSidePeakGuard
  try dsimp only
  repeat' first | with_reducible exact Frame.refl _ | with_reducible apply fr_onCh | with_reducible apply Frame.ite | with_reducible apply Frame.ite2 | split

theorem fr_effNotchLock {s y : State} (c : ChanIx) (k : Fin 4) (lines : List (ℤ × ℕ)) (hF : Frame s y) : Frame s (effNotchLock c k lines y) := by
  refine hF.trans ?_
  unfold effNotchLock
  try dsimp only
  repeat' first | with_reducible exact Frame.refl _ | with_reducible apply fr_onCh | with_reducible apply Frame.ite | with_reducible apply Frame.ite2 | split

theorem fr_effNotchRelease {s y : State} (c : ChanIx) (v : NotchView) (hF : Frame s y) : Frame s (effNotchRelease c v y) := by
  refine hF.trans ?_
  unfold effNotchRelease
  try dsimp only
  repeat' first | with_reducible exact Frame.refl _ | with_reducible apply fr_onCh | with_reducible apply Frame.ite | with_reducible apply Frame.ite2 | split

theorem fr_effJniUpdate {s y : State} (c : ChanIx) (idle : Byte) (pq : ℕ) (hF : Frame s y) : Frame s (effJniUpdate c idle pq y) := by
  refine hF.trans ?_
  unfold effJniUpdate
  try dsimp only
  repeat' first | with_reducible exact Frame.refl _ | with_reducible apply fr_onCh | with_reducible apply Frame.ite | with_reducible apply Frame.ite2 | split

theorem fr_effJamFloorCapture {s y : State} (p : HostPath) (c : ChanIx) (v : Word) (hF : Frame s y) : Frame s (effJamFloorCapture p c v y) := by
  refine hF.trans ?_
  unfold effJamFloorCapture
  try dsimp only
  repeat' first | with_reducible exact Frame.refl _ | with_reducible apply fr_writeCh | with_reducible apply Frame.ite | with_reducible apply Frame.ite2 | split

theorem fr_effJamFloorCaptureEnd {s y : State} (c : ChanIx) (idle : Byte) (hF : Frame s y) : Frame s (effJamFloorCaptureEnd c idle y) := by
  refine hF.trans ?_
  unfold effJamFloorCaptureEnd
  try dsimp only
  repeat' first | with_reducible exact Frame.refl _ | with_reducible apply fr_onCh | with_reducible apply Frame.ite | with_reducible apply Frame.ite2 | split

theorem fr_effPosSet {s y : State} (p : HostPath) (c : ChanIx) (v : Word) (hF : Frame s y) : Frame s (effPosSet p c v y) := by
  refine hF.trans ?_
  unfold effPosSet
  try dsimp only
  repeat' first | with_reducible exact Frame.refl _ | with_reducible apply fr_writeCh | with_reducible apply Frame.ite | with_reducible apply Frame.ite2 | split

theorem fr_effPosClr {s y : State} (p : HostPath) (c : ChanIx) (v : Word) (hF : Frame s y) : Frame s (effPosClr p c v y) := by
  refine hF.trans ?_
  unfold effPosClr
  try dsimp only
  repeat' first | with_reducible exact Frame.refl _ | with_reducible apply fr_writeCh | with_reducible apply Frame.ite | with_reducible apply Frame.ite2 | split

theorem fr_effSurveyFix {s y : State} (c : ChanIx) (x : ℤ) (y1 : ℤ) (z : ℤ) (hF : Frame s y) : Frame s (effSurveyFix c x y1 z y) := by
  refine hF.trans ?_
  unfold effSurveyFix
  try dsimp only
  repeat' first | with_reducible exact Frame.refl _ | with_reducible apply fr_chanProgress | with_reducible apply fr_onCh | with_reducible apply Frame.ite | with_reducible apply Frame.ite2 | split

theorem fr_effGnssEpochSample {s y : State} (c : ChanIx) (ms : List SatMeas) (hF : Frame s y) : Frame s (effGnssEpochSample c ms y) := by
  refine hF.trans ?_
  unfold effGnssEpochSample
  try dsimp only
  repeat' first | with_reducible exact Frame.refl _ | with_reducible apply fr_onCh | with_reducible apply Frame.ite | with_reducible apply Frame.ite2 | split

theorem fr_effGnssL8Record {s y : State} (c : ChanIx) (hF : Frame s y) : Frame s (effGnssL8Record c y) := by
  refine hF.trans ?_
  unfold effGnssL8Record
  try dsimp only
  repeat' first | with_reducible exact Frame.refl _ | with_reducible apply fr_beginTick | with_reducible apply fr_onCh | with_reducible apply Frame.ite | with_reducible apply Frame.ite2 | split

theorem fr_effSnapGo {s y : State} (p : HostPath) (c : ChanIx) (v : Word) (hF : Frame s y) : Frame s (effSnapGo p c v y) := by
  refine hF.trans ?_
  unfold effSnapGo
  try dsimp only
  repeat' first | with_reducible exact Frame.refl _ | with_reducible apply fr_writeCh | with_reducible apply Frame.ite | with_reducible apply Frame.ite2 | split

theorem fr_effSnapCaptureStart {s y : State} (c : ChanIx) (ps : ℕ) (hF : Frame s y) : Frame s (effSnapCaptureStart c ps y) := by
  refine hF.trans ?_
  unfold effSnapCaptureStart
  try dsimp only
  repeat' first | with_reducible exact Frame.refl _ | with_reducible apply fr_onCh | with_reducible apply Frame.ite | with_reducible apply Frame.ite2 | split

theorem fr_effSnapCaptureComplete {s y : State} (c : ChanIx) (hF : Frame s y) : Frame s (effSnapCaptureComplete c y) := by
  refine hF.trans ?_
  unfold effSnapCaptureComplete
  try dsimp only
  repeat' first | with_reducible exact Frame.refl _ | with_reducible apply fr_onCh | with_reducible apply Frame.ite | with_reducible apply Frame.ite2 | split

theorem fr_effCmdSnapshotProcessing {s y : State} (slot : Fin 64) (ms : List SatMeas) (hF : Frame s y) : Frame s (effCmdSnapshotProcessing slot ms y) := by
  refine hF.trans ?_
  unfold effCmdSnapshotProcessing
  try dsimp only
  repeat' first | with_reducible exact Frame.refl _ | with_reducible apply fr_snapCmd | with_reducible apply Frame.ite | with_reducible apply Frame.ite2 | split

theorem fr_effCmdGnssSurvey {s y : State} (slot : Fin 64) (hF : Frame s y) : Frame s (effCmdGnssSurvey slot y) := by
  refine hF.trans ?_
  unfold effCmdGnssSurvey
  try dsimp only
  repeat' first | with_reducible exact Frame.refl _ | with_reducible apply fr_surveyCmd | with_reducible apply Frame.ite | with_reducible apply Frame.ite2 | split

theorem fr_effNavigationDataDecoded {s y : State} (c : ChanIx) (i : Fin 48) (d : NavData) (hF : Frame s y) : Frame s (effNavigationDataDecoded c i d y) := by
  refine hF.trans ?_
  unfold effNavigationDataDecoded
  try dsimp only
  repeat' first | with_reducible exact Frame.refl _ | with_reducible apply fr_onCh | with_reducible apply Frame.ite | with_reducible apply Frame.ite2 | split

theorem fr_effCmdImageLoadStage {s y : State} (slot : Fin 64) (data : Option Bytes) (hF : Frame s y) : Frame s (effCmdImageLoadStage slot data y) := by
  refine hF.trans ?_
  unfold effCmdImageLoadStage
  try dsimp only
  repeat' first | with_reducible exact Frame.refl _ | with_reducible apply fr_loadCmd | with_reducible apply Frame.ite | with_reducible apply Frame.ite2 | split

theorem fr_effCmdImageLoadRun {s y : State} (slot : Fin 64) (data : Option Bytes) (hF : Frame s y) : Frame s (effCmdImageLoadRun slot data y) := by
  refine hF.trans ?_
  unfold effCmdImageLoadRun
  try dsimp only
  repeat' first | with_reducible exact Frame.refl _ | with_reducible apply fr_loadCmd | with_reducible apply Frame.ite | with_reducible apply Frame.ite2 | split

theorem fr_effCmdImageLoadDevice {s y : State} (slot : Fin 64) (images : Option (List (Option Bytes))) (hF : Frame s y) : Frame s (effCmdImageLoadDevice slot images y) := by
  refine hF.trans ?_
  unfold effCmdImageLoadDevice
  try dsimp only
  repeat' first | with_reducible exact Frame.refl _ | with_reducible apply fr_deviceCmd | with_reducible apply Frame.ite | with_reducible apply Frame.ite2 | split

theorem fr_effImageStreamWrite {s y : State} (p : HostPath) (v : Word) (hF : Frame s y) : Frame s (effImageStreamWrite p v y) := by
  refine hF.trans ?_
  unfold effImageStreamWrite
  try dsimp only
  repeat' first | with_reducible exact Frame.refl _ | with_reducible apply fr_writeCom | with_reducible apply Frame.ite | with_reducible apply Frame.ite2 | split

theorem fr_effReconfigEntry {s y : State} (c : ChanIx) (hF : Frame s y) : Frame s (effReconfigEntry c y) := by
  refine hF.trans ?_
  unfold effReconfigEntry
  try dsimp only
  repeat' first | with_reducible exact Frame.refl _ | with_reducible apply fr_reconfigEnter | with_reducible apply Frame.ite | with_reducible apply Frame.ite2 | split

theorem fr_effReconfigApplyComplete {s y : State} (c : ChanIx) (hF : Frame s y) : Frame s (effReconfigApplyComplete c y) := by
  refine hF.trans ?_
  unfold effReconfigApplyComplete
  try dsimp only
  repeat' first | with_reducible exact Frame.refl _ | with_reducible apply fr_applyComplete | with_reducible apply Frame.ite | with_reducible apply Frame.ite2 | split

theorem fr_effCommonImageApply {s y : State} (hF : Frame s y) : Frame s (effCommonImageApply y) := by
  refine hF.trans ?_
  unfold effCommonImageApply
  try dsimp only
  repeat' first | with_reducible exact Frame.refl _ | with_reducible apply fr_commonApply | with_reducible apply Frame.ite | with_reducible apply Frame.ite2 | split

theorem fr_effChannelGate {s y : State} (p : HostPath) (c : ChanIx) (v : Word) (hF : Frame s y) : Frame s (effChannelGate p c v y) := by
  refine hF.trans ?_
  unfold effChannelGate
  try dsimp only
  repeat' first | with_reducible exact Frame.refl _ | with_reducible apply fr_writeCom | with_reducible apply Frame.ite | with_reducible apply Frame.ite2 | split

theorem fr_effChannelUngate {s y : State} (p : HostPath) (c : ChanIx) (v : Word) (hF : Frame s y) : Frame s (effChannelUngate p c v y) := by
  refine hF.trans ?_
  unfold effChannelUngate
  try dsimp only
  repeat' first | with_reducible exact Frame.refl _ | with_reducible apply fr_writeCom | with_reducible apply Frame.ite | with_reducible apply Frame.ite2 | split

theorem fr_effChannelReset {s y : State} (p : HostPath) (c : ChanIx) (v : Word) (hF : Frame s y) : Frame s (effChannelReset p c v y) := by
  refine hF.trans ?_
  unfold effChannelReset
  try dsimp only
  repeat' first | with_reducible exact Frame.refl _ | with_reducible apply fr_writeCom | with_reducible apply Frame.ite | with_reducible apply Frame.ite2 | split

theorem fr_effChannelPowerDownDone {s y : State} (c : ChanIx) (hF : Frame s y) : Frame s (effChannelPowerDownDone c y) := by
  refine hF.trans ?_
  unfold effChannelPowerDownDone
  try dsimp only
  repeat' first | with_reducible exact Frame.refl _ | with_reducible apply fr_powerDownDone | with_reducible apply Frame.ite | with_reducible apply Frame.ite2 | split

theorem fr_effChannelPowerUpDone {s y : State} (c : ChanIx) (hF : Frame s y) : Frame s (effChannelPowerUpDone c y) := by
  refine hF.trans ?_
  unfold effChannelPowerUpDone
  try dsimp only
  repeat' first | with_reducible exact Frame.refl _ | with_reducible apply fr_powerUpDone | with_reducible apply Frame.ite | with_reducible apply Frame.ite2 | split

theorem fr_effKumInstall {s y : State} (p : HostPath) (v : Word) (hF : Frame s y) : Frame s (effKumInstall p v y) := by
  refine hF.trans ?_
  unfold effKumInstall
  try dsimp only
  repeat' first | with_reducible exact Frame.refl _ | with_reducible apply fr_kumRow | with_reducible apply Frame.ite | with_reducible apply Frame.ite2 | split

theorem fr_effKumReplace {s y : State} (p : HostPath) (v : Word) (hF : Frame s y) : Frame s (effKumReplace p v y) := by
  refine hF.trans ?_
  unfold effKumReplace
  try dsimp only
  repeat' first | with_reducible exact Frame.refl _ | with_reducible apply fr_kumRow | with_reducible apply Frame.ite | with_reducible apply Frame.ite2 | split

theorem fr_effKumInvalidate {s y : State} (p : HostPath) (v : Word) (hF : Frame s y) : Frame s (effKumInvalidate p v y) := by
  refine hF.trans ?_
  unfold effKumInvalidate
  try dsimp only
  repeat' first | with_reducible exact Frame.refl _ | with_reducible apply fr_kumRow | with_reducible apply Frame.ite | with_reducible apply Frame.ite2 | split

theorem fr_effKumRecover {s y : State} (p : HostPath) (v : Word) (hF : Frame s y) : Frame s (effKumRecover p v y) := by
  refine hF.trans ?_
  unfold effKumRecover
  try dsimp only
  repeat' first | with_reducible exact Frame.refl _ | with_reducible apply fr_kumRow | with_reducible apply Frame.ite | with_reducible apply Frame.ite2 | split

theorem fr_effKumTcfg {s y : State} (p : HostPath) (v : Word) (hF : Frame s y) : Frame s (effKumTcfg p v y) := by
  refine hF.trans ?_
  unfold effKumTcfg
  try dsimp only
  repeat' first | with_reducible exact Frame.refl _ | with_reducible apply fr_kumRow | with_reducible apply Frame.ite | with_reducible apply Frame.ite2 | split

theorem fr_effKumCommitPoint {s y : State} (written : Bool) (hF : Frame s y) : Frame s (effKumCommitPoint written y) := by
  refine hF.trans ?_
  unfold effKumCommitPoint
  try dsimp only
  repeat' first | with_reducible exact Frame.refl _ | with_reducible apply fr_kumPoint | with_reducible apply Frame.ite | with_reducible apply Frame.ite2 | split

theorem fr_effAttestationQuote {s y : State} (p : HostPath) (v : Word) (hF : Frame s y) : Frame s (effAttestationQuote p v y) := by
  refine hF.trans ?_
  unfold effAttestationQuote
  try dsimp only
  repeat' first | with_reducible exact Frame.refl _ | with_reducible apply fr_writeCom | with_reducible apply Frame.ite | with_reducible apply Frame.ite2 | split

theorem fr_effAttestationQuoteDone {s y : State} (hF : Frame s y) : Frame s (effAttestationQuoteDone y) := by
  refine hF.trans ?_
  unfold effAttestationQuoteDone
  try dsimp only
  repeat' first | with_reducible exact Frame.refl _ | with_reducible apply fr_quoteDone | with_reducible apply Frame.ite | with_reducible apply Frame.ite2 | split

theorem fr_effCmdKeyBatch {s y : State} (slot : Fin 64) (kums : Option (List Bytes)) (hF : Frame s y) : Frame s (effCmdKeyBatch slot kums y) := by
  refine hF.trans ?_
  unfold effCmdKeyBatch
  try dsimp only
  repeat' first | with_reducible exact Frame.refl _ | with_reducible apply fr_keyBatch | with_reducible apply Frame.ite | with_reducible apply Frame.ite2 | split

theorem fr_effTamperSample {s y : State} (t : TamperIn) (hF : Frame s y) : Frame s (effTamperSample t y) := by
  refine hF.trans ?_
  unfold effTamperSample
  try dsimp only
  repeat' first | with_reducible exact Frame.refl _ | with_reducible apply fr_tamperSample | with_reducible apply Frame.ite | with_reducible apply Frame.ite2 | split

theorem fr_effRefinEdge {s y : State} (c : ChanIx) (n : LaneIx) (ps : ℕ) (hF : Frame s y) : Frame s (effRefinEdge c n ps y) := by
  refine hF.trans ?_
  unfold effRefinEdge
  try dsimp only
  repeat' first | with_reducible exact Frame.refl _ | with_reducible apply fr_onCh | with_reducible apply Frame.ite | with_reducible apply Frame.ite2 | split

theorem fr_effTodSentenceRx {s y : State} (c : ChanIx) (k : Fin 2) (bs : Bytes) (ago : ℕ) (hF : Frame s y) : Frame s (effTodSentenceRx c k bs ago y) := by
  refine hF.trans ?_
  unfold effTodSentenceRx
  try dsimp only
  repeat' first | with_reducible exact Frame.refl _ | with_reducible apply fr_onCh | with_reducible apply Frame.ite | with_reducible apply Frame.ite2 | split

theorem fr_effTodSentenceWindowEnd {s y : State} (c : ChanIx) (n : LaneIx) (hF : Frame s y) : Frame s (effTodSentenceWindowEnd c n y) := by
  refine hF.trans ?_
  unfold effTodSentenceWindowEnd
  try dsimp only
  repeat' first | with_reducible exact Frame.refl _ | with_reducible apply fr_beginTick | with_reducible apply fr_onCh | with_reducible apply Frame.ite | with_reducible apply Frame.ite2 | split

theorem fr_effFreqRecordBoundary {s y : State} (c : ChanIx) (n : LaneIx) (freq : ℤ) (off : ℤ) (hF : Frame s y) : Frame s (effFreqRecordBoundary c n freq off y) := by
  refine hF.trans ?_
  unfold effFreqRecordBoundary
  try dsimp only
  repeat' first | with_reducible exact Frame.refl _ | with_reducible apply fr_onCh | with_reducible apply Frame.ite | with_reducible apply Frame.ite2 | split

theorem fr_effLaneMissTimerExpiry {s y : State} (c : ChanIx) (n : LaneIx) (hF : Frame s y) : Frame s (effLaneMissTimerExpiry c n y) := by
  refine hF.trans ?_
  unfold effLaneMissTimerExpiry
  try dsimp only
  repeat' first | with_reducible exact Frame.refl _ | with_reducible apply fr_onCh | with_reducible apply Frame.ite | with_reducible apply Frame.ite2 | split

theorem fr_effQualWindowExpiry {s y : State} (c : ChanIx) (n : LaneIx) (hF : Frame s y) : Frame s (effQualWindowExpiry c n y) := by
  refine hF.trans ?_
  unfold effQualWindowExpiry
  try dsimp only
  repeat' first | with_reducible exact Frame.refl _ | with_reducible apply fr_onCh | with_reducible apply Frame.ite | with_reducible apply Frame.ite2 | split

theorem fr_effWtrExpiry {s y : State} (c : ChanIx) (n : LaneIx) (hF : Frame s y) : Frame s (effWtrExpiry c n y) := by
  refine hF.trans ?_
  unfold effWtrExpiry
  try dsimp only
  repeat' first | with_reducible exact Frame.refl _ | with_reducible apply fr_onCh | with_reducible apply Frame.ite | with_reducible apply Frame.ite2 | split

theorem fr_effDqHoldExpiry {s y : State} (c : ChanIx) (n : LaneIx) (hF : Frame s y) : Frame s (effDqHoldExpiry c n y) := by
  refine hF.trans ?_
  unfold effDqHoldExpiry
  try dsimp only
  repeat' first | with_reducible exact Frame.refl _ | with_reducible apply fr_onCh | with_reducible apply Frame.ite | with_reducible apply Frame.ite2 | split

theorem fr_effLaneForce {s y : State} (p : HostPath) (c : ChanIx) (n : LaneIx) (v : Word) (hF : Frame s y) : Frame s (effLaneForce p c n v y) := by
  refine hF.trans ?_
  unfold effLaneForce
  try dsimp only
  repeat' first | with_reducible exact Frame.refl _ | with_reducible apply fr_writeCh | with_reducible apply Frame.ite | with_reducible apply Frame.ite2 | split

theorem fr_effLaneUnforce {s y : State} (p : HostPath) (c : ChanIx) (n : LaneIx) (v : Word) (hF : Frame s y) : Frame s (effLaneUnforce p c n v y) := by
  refine hF.trans ?_
  unfold effLaneUnforce
  try dsimp only
  repeat' first | with_reducible exact Frame.refl _ | with_reducible apply fr_writeCh | with_reducible apply Frame.ite | with_reducible apply Frame.ite2 | split

theorem fr_effLaneRequal {s y : State} (p : HostPath) (c : ChanIx) (n : LaneIx) (v : Word) (hF : Frame s y) : Frame s (effLaneRequal p c n v y) := by
  refine hF.trans ?_
  unfold effLaneRequal
  try dsimp only
  repeat' first | with_reducible exact Frame.refl _ | with_reducible apply fr_writeCh | with_reducible apply Frame.ite | with_reducible apply Frame.ite2 | split

theorem fr_effLaneClrStep {s y : State} (p : HostPath) (c : ChanIx) (n : LaneIx) (v : Word) (hF : Frame s y) : Frame s (effLaneClrStep p c n v y) := by
  refine hF.trans ?_
  unfold effLaneClrStep
  try dsimp only
  repeat' first | with_reducible exact Frame.refl _ | with_reducible apply fr_writeCh | with_reducible apply Frame.ite | with_reducible apply Frame.ite2 | split

theorem fr_effSelApprove {s y : State} (p : HostPath) (c : ChanIx) (v : Word) (hF : Frame s y) : Frame s (effSelApprove p c v y) := by
  refine hF.trans ?_
  unfold effSelApprove
  try dsimp only
  repeat' first | with_reducible exact Frame.refl _ | with_reducible apply fr_writeCh | with_reducible apply Frame.ite | with_reducible apply Frame.ite2 | split

theorem fr_effSelDeny {s y : State} (p : HostPath) (c : ChanIx) (v : Word) (hF : Frame s y) : Frame s (effSelDeny p c v y) := by
  refine hF.trans ?_
  unfold effSelDeny
  try dsimp only
  repeat' first | with_reducible exact Frame.refl _ | with_reducible apply fr_writeCh | with_reducible apply Frame.ite | with_reducible apply Frame.ite2 | split

theorem fr_effUtcAnnouncement {s y : State} (c : ChanIx) (n : LaneIx) (a : UtcAnn) (hF : Frame s y) : Frame s (effUtcAnnouncement c n a y) := by
  refine hF.trans ?_
  unfold effUtcAnnouncement
  try dsimp only
  repeat' first | with_reducible exact Frame.refl _ | with_reducible apply fr_onCh | with_reducible apply Frame.ite | with_reducible apply Frame.ite2 | split

theorem fr_effLeapEntWrite {s y : State} (p : HostPath) (c : ChanIx) (k : Fin 8) (v : Word) (hF : Frame s y) : Frame s (effLeapEntWrite p c k v y) := by
  refine hF.trans ?_
  unfold effLeapEntWrite
  try dsimp only
  repeat' first | with_reducible exact Frame.refl _ | with_reducible apply fr_writeCh | with_reducible apply Frame.ite | with_reducible apply Frame.ite2 | split

theorem fr_effLinkAnComplete {s y : State} (c : ChanIx) (p : PortIx) (peer : ℕ) (rs : Bool) (br : Bool) (hF : Frame s y) : Frame s (effLinkAnComplete c p peer rs br y) := by
  refine hF.trans ?_
  unfold effLinkAnComplete
  try dsimp only
  repeat' first | with_reducible exact Frame.refl _ | with_reducible apply fr_onCh | with_reducible apply Frame.ite | with_reducible apply Frame.ite2 | split

theorem fr_effLinkTrainingComplete {s y : State} (c : ChanIx) (p : PortIx) (hF : Frame s y) : Frame s (effLinkTrainingComplete c p y) := by
  refine hF.trans ?_
  unfold effLinkTrainingComplete
  try dsimp only
  repeat' first | with_reducible exact Frame.refl _ | with_reducible apply fr_onCh | with_reducible apply Frame.ite | with_reducible apply Frame.ite2 | split

theorem fr_effLinkTrainingTimeout {s y : State} (c : ChanIx) (p : PortIx) (hF : Frame s y) : Frame s (effLinkTrainingTimeout c p y) := by
  refine hF.trans ?_
  unfold effLinkTrainingTimeout
  try dsimp only
  repeat' first | with_reducible exact Frame.refl _ | with_reducible apply fr_onCh | with_reducible apply Frame.ite | with_reducible apply Frame.ite2 | split

theorem fr_effLinkAlignLock {s y : State} (c : ChanIx) (p : PortIx) (vI : ℤ) (vE : ℤ) (hF : Frame s y) : Frame s (effLinkAlignLock c p vI vE y) := by
  refine hF.trans ?_
  unfold effLinkAlignLock
  try dsimp only
  repeat' first | with_reducible exact Frame.refl _ | with_reducible apply fr_onCh | with_reducible apply Frame.ite | with_reducible apply Frame.ite2 | split

theorem fr_effLinkAlignTimeout {s y : State} (c : ChanIx) (p : PortIx) (hF : Frame s y) : Frame s (effLinkAlignTimeout c p y) := by
  refine hF.trans ?_
  unfold effLinkAlignTimeout
  try dsimp only
  repeat' first | with_reducible exact Frame.refl _ | with_reducible apply fr_onCh | with_reducible apply Frame.ite | with_reducible apply Frame.ite2 | split

theorem fr_effLinkLoss {s y : State} (c : ChanIx) (p : PortIx) (hF : Frame s y) : Frame s (effLinkLoss c p y) := by
  refine hF.trans ?_
  unfold effLinkLoss
  try dsimp only
  repeat' first | with_reducible exact Frame.refl _ | with_reducible apply fr_onCh | with_reducible apply Frame.ite | with_reducible apply Frame.ite2 | split

theorem fr_effPauseFrameRx {s y : State} (c : ChanIx) (p : PortIx) (len : ℕ) (hF : Frame s y) : Frame s (effPauseFrameRx c p len y) := by
  refine hF.trans ?_
  unfold effPauseFrameRx
  try dsimp only
  repeat' first | with_reducible exact Frame.refl _ | with_reducible apply fr_onCh | with_reducible apply Frame.ite | with_reducible apply Frame.ite2 | split

theorem fr_effOversizeFrameRx {s y : State} (c : ChanIx) (p : PortIx) (len : ℕ) (hF : Frame s y) : Frame s (effOversizeFrameRx c p len y) := by
  refine hF.trans ?_
  unfold effOversizeFrameRx
  try dsimp only
  repeat' first | with_reducible exact Frame.refl _ | with_reducible apply fr_onCh | with_reducible apply Frame.ite | with_reducible apply Frame.ite2 | split

theorem fr_effSynceRecord {s y : State} (c : ChanIx) (p : PortIx) (freq : ℤ) (off : ℤ) (hF : Frame s y) : Frame s (effSynceRecord c p freq off y) := by
  refine hF.trans ?_
  unfold effSynceRecord
  try dsimp only
  repeat' first | with_reducible exact Frame.refl _ | with_reducible apply fr_onCh | with_reducible apply Frame.ite | with_reducible apply Frame.ite2 | split

theorem fr_effEsmcPduRx {s y : State} (c : ChanIx) (p : PortIx) (ql : ℕ) (len : ℕ) (hF : Frame s y) : Frame s (effEsmcPduRx c p ql len y) := by
  refine hF.trans ?_
  unfold effEsmcPduRx
  try dsimp only
  repeat' first | with_reducible exact Frame.refl _ | with_reducible apply fr_onCh | with_reducible apply Frame.ite | with_reducible apply Frame.ite2 | split

theorem fr_effEsmcQlLostExpiry {s y : State} (c : ChanIx) (p : PortIx) (hF : Frame s y) : Frame s (effEsmcQlLostExpiry c p y) := by
  refine hF.trans ?_
  unfold effEsmcQlLostExpiry
  try dsimp only
  repeat' first | with_reducible exact Frame.refl _ | with_reducible apply fr_onCh | with_reducible apply Frame.ite | with_reducible apply Frame.ite2 | split

theorem fr_effEsmcInfoPduSend {s y : State} (c : ChanIx) (p : PortIx) (hF : Frame s y) : Frame s (effEsmcInfoPduSend c p y) := by
  refine hF.trans ?_
  unfold effEsmcInfoPduSend
  try dsimp only
  repeat' first | with_reducible exact Frame.refl _ | with_reducible apply fr_onCh | with_reducible apply Frame.ite | with_reducible apply Frame.ite2 | split

theorem fr_effMoscDetect {s y : State} (count : ℕ) (hF : Frame s y) : Frame s (effMoscDetect count y) := by
  refine hF.trans ?_
  unfold effMoscDetect
  try dsimp only
  repeat' first | with_reducible exact Frame.refl _ | with_reducible apply fr_moscDetect | with_reducible apply Frame.ite | with_reducible apply Frame.ite2 | split

theorem fr_effMoscLost {s y : State} (hF : Frame s y) : Frame s (effMoscLost y) := by
  refine hF.trans ?_
  unfold effMoscLost
  try dsimp only
  repeat' first | with_reducible exact Frame.refl _ | with_reducible apply fr_moscLost | with_reducible apply Frame.ite | with_reducible apply Frame.ite2 | split

theorem fr_effMoscReturn {s y : State} (hF : Frame s y) : Frame s (effMoscReturn y) := by
  refine hF.trans ?_
  unfold effMoscReturn
  try dsimp only
  repeat' first | with_reducible exact Frame.refl _ | with_reducible apply fr_moscReturn | with_reducible apply Frame.ite | with_reducible apply Frame.ite2 | split

theorem fr_effRootLock {s y : State} (r : Fin 5) (hF : Frame s y) : Frame s (effRootLock r y) := by
  refine hF.trans ?_
  unfold effRootLock
  try dsimp only
  repeat' first | with_reducible exact Frame.refl _ | with_reducible apply fr_rootLock | with_reducible apply Frame.ite | with_reducible apply Frame.ite2 | split

theorem fr_effRootLockLost {s y : State} (r : Fin 5) (hF : Frame s y) : Frame s (effRootLockLost r y) := by
  refine hF.trans ?_
  unfold effRootLockLost
  try dsimp only
  repeat' first | with_reducible exact Frame.refl _ | with_reducible apply fr_rootLockLost | with_reducible apply Frame.ite | with_reducible apply Frame.ite2 | split

theorem fr_effFeedBad {s y : State} (b : Bool) (mv : ℕ) (hF : Frame s y) : Frame s (effFeedBad b mv y) := by
  refine hF.trans ?_
  unfold effFeedBad
  try dsimp only
  repeat' first | with_reducible exact Frame.refl _ | with_reducible apply fr_feedBad | with_reducible apply Frame.ite | with_reducible apply Frame.ite2 | split

theorem fr_effFeedGood {s y : State} (b : Bool) (mv : ℕ) (hF : Frame s y) : Frame s (effFeedGood b mv y) := by
  refine hF.trans ?_
  unfold effFeedGood
  try dsimp only
  repeat' first | with_reducible exact Frame.refl _ | with_reducible apply fr_feedGood | with_reducible apply Frame.ite | with_reducible apply Frame.ite2 | split

theorem fr_effFeedCheckStart {s y : State} (b : Bool) (hF : Frame s y) : Frame s (effFeedCheckStart b y) := by
  refine hF.trans ?_
  unfold effFeedCheckStart
  try dsimp only
  repeat' first | with_reducible exact Frame.refl _ | with_reducible apply fr_feedCheckStart | with_reducible apply Frame.ite | with_reducible apply Frame.ite2 | split

theorem fr_effFeedCheckComplete {s y : State} (min : ℕ) (limit : Bool) (hF : Frame s y) : Frame s (effFeedCheckComplete min limit y) := by
  refine hF.trans ?_
  unfold effFeedCheckComplete
  try dsimp only
  repeat' first | with_reducible exact Frame.refl _ | with_reducible apply fr_feedCheckComplete | with_reducible apply Frame.ite | with_reducible apply Frame.ite2 | split

theorem fr_effPowerOn {s y : State} (b : Bool) (mv : ℕ) (hF : Frame s y) : Frame s (effPowerOn b mv y) := by
  refine hF.trans ?_
  unfold effPowerOn
  try dsimp only
  repeat' first | with_reducible exact Frame.refl _ | with_reducible apply fr_powerOn | with_reducible apply Frame.ite | with_reducible apply Frame.ite2 | split

theorem fr_effPowerFail {s y : State} (vbat : ℕ) (hF : Frame s y) : Frame s (effPowerFail vbat y) := by
  refine hF.trans ?_
  unfold effPowerFail
  try dsimp only
  repeat' first | with_reducible exact Frame.refl _ | with_reducible apply fr_powerFail | with_reducible apply Frame.ite | with_reducible apply Frame.ite2 | split

theorem fr_effVbatLoss {s y : State} (hF : Frame s y) : Frame s (effVbatLoss y) := by
  refine hF.trans ?_
  unfold effVbatLoss
  try dsimp only
  repeat' first | with_reducible exact Frame.refl _ | with_reducible apply fr_vbatLoss | with_reducible apply Frame.ite | with_reducible apply Frame.ite2 | split

theorem fr_effVbatApplied {s y : State} (vbat : ℕ) (hF : Frame s y) : Frame s (effVbatApplied vbat y) := by
  refine hF.trans ?_
  unfold effVbatApplied
  try dsimp only
  repeat' first | with_reducible exact Frame.refl _ | with_reducible apply fr_vbatApplied | with_reducible apply Frame.ite | with_reducible apply Frame.ite2 | split

theorem fr_effPinReset {s y : State} (hF : Frame s y) : Frame s (effPinReset y) := by
  refine hF.trans ?_
  unfold effPinReset
  try dsimp only
  repeat' first | with_reducible exact Frame.refl _ | with_reducible apply fr_pinReset | with_reducible apply Frame.ite | with_reducible apply Frame.ite2 | split

theorem fr_effResetNRelease {s y : State} (hF : Frame s y) : Frame s (effResetNRelease y) := by
  refine hF.trans ?_
  unfold effResetNRelease
  try dsimp only
  repeat' first | with_reducible exact Frame.refl _ | with_reducible apply fr_resetNRelease | with_reducible apply Frame.ite | with_reducible apply Frame.ite2 | split

theorem fr_effStageRailsDone {s y : State} (bootsel : Fin 4) (hF : Frame s y) : Frame s (effStageRailsDone bootsel y) := by
  refine hF.trans ?_
  unfold effStageRailsDone
  try dsimp only
  repeat' first | with_reducible exact Frame.refl _ | with_reducible apply fr_stageRails | with_reducible apply Frame.ite | with_reducible apply Frame.ite2 | split

theorem fr_effStageRootDone {s y : State} (how : SwitchEnd) (hF : Frame s y) : Frame s (effStageRootDone how y) := by
  refine hF.trans ?_
  unfold effStageRootDone
  try dsimp only
  repeat' first | with_reducible exact Frame.refl _ | with_reducible apply fr_stageRoot | with_reducible apply Frame.ite | with_reducible apply Frame.ite2 | split

theorem fr_effRootStageRetry {s y : State} (hF : Frame s y) : Frame s (effRootStageRetry y) := by
  refine hF.trans ?_
  unfold effRootStageRetry
  try dsimp only
  repeat' first | with_reducible exact Frame.refl _ | with_reducible apply fr_rootStageRetry | with_reducible apply Frame.ite | with_reducible apply Frame.ite2 | split

theorem fr_effStageFeedchkDone {s y : State} (hF : Frame s y) : Frame s (effStageFeedchkDone y) := by
  refine hF.trans ?_
  unfold effStageFeedchkDone
  try dsimp only
  repeat' first | with_reducible exact Frame.refl _ | with_reducible apply fr_stageFeedchk | with_reducible apply Frame.ite | with_reducible apply Frame.ite2 | split

theorem fr_effStageVaultDone {s y : State} (hF : Frame s y) : Frame s (effStageVaultDone y) := by
  refine hF.trans ?_
  unfold effStageVaultDone
  try dsimp only
  repeat' first | with_reducible exact Frame.refl _ | with_reducible apply fr_stageVault | with_reducible apply Frame.ite | with_reducible apply Frame.ite2 | split

theorem fr_effStageDone {s y : State} (hF : Frame s y) : Frame s (effStageDone y) := by
  refine hF.trans ?_
  unfold effStageDone
  try dsimp only
  repeat' first | with_reducible exact Frame.refl _ | with_reducible apply fr_deviceDone | with_reducible apply Frame.ite | with_reducible apply Frame.ite2 | split

theorem fr_effCounterAdvance {s y : State} (hF : Frame s y) : Frame s (effCounterAdvance y) := by
  refine hF.trans ?_
  unfold effCounterAdvance
  try dsimp only
  repeat' first | with_reducible exact Frame.refl _ | with_reducible apply fr_tickEnd | with_reducible apply Frame.ite | with_reducible apply Frame.ite2 | split

theorem fr_effCmdSubmit {s y : State} (p : HostPath) (v : Word) (hF : Frame s y) : Frame s (effCmdSubmit p v y) := by
  refine hF.trans ?_
  unfold effCmdSubmit
  try dsimp only
  repeat' first | with_reducible exact Frame.refl _ | with_reducible apply fr_writeCom | with_reducible apply Frame.ite | with_reducible apply Frame.ite2 | split

theorem fr_effCmdRelease {s y : State} (p : HostPath) (v : Word) (hF : Frame s y) : Frame s (effCmdRelease p v y) := by
  refine hF.trans ?_
  unfold effCmdRelease
  try dsimp only
  repeat' first | with_reducible exact Frame.refl _ | with_reducible apply fr_writeCom | with_reducible apply Frame.ite | with_reducible apply Frame.ite2 | split

theorem fr_effCmdStart {s y : State} (slot : Fin 64) (hF : Frame s y) : Frame s (effCmdStart slot y) := by
  refine hF.trans ?_
  unfold effCmdStart
  try dsimp only
  repeat' first | with_reducible exact Frame.refl _ | with_reducible apply fr_cmdStart | with_reducible apply Frame.ite | with_reducible apply Frame.ite2 | split

theorem fr_effCmdComplete {s y : State} (slot : Fin 64) (dmaFailed : Bool) (hF : Frame s y) : Frame s (effCmdComplete slot dmaFailed y) := by
  refine hF.trans ?_
  unfold effCmdComplete
  try dsimp only
  repeat' first | with_reducible exact Frame.refl _ | with_reducible apply fr_cmdComplete | with_reducible apply Frame.ite | with_reducible apply Frame.ite2 | split

theorem fr_effCmdTimeout {s y : State} (slot : Fin 64) (hF : Frame s y) : Frame s (effCmdTimeout slot y) := by
  refine hF.trans ?_
  unfold effCmdTimeout
  try dsimp only
  repeat' first | with_reducible exact Frame.refl _ | with_reducible apply fr_cmdTimeout | with_reducible apply Frame.ite | with_reducible apply Frame.ite2 | split

theorem fr_effCmdSuspend {s y : State} (slot : Fin 64) (hF : Frame s y) : Frame s (effCmdSuspend slot y) := by
  refine hF.trans ?_
  unfold effCmdSuspend
  try dsimp only
  repeat' first | with_reducible exact Frame.refl _ | with_reducible apply fr_control | with_reducible apply Frame.ite | with_reducible apply Frame.ite2 | split

theorem fr_effCmdResume {s y : State} (slot : Fin 64) (hF : Frame s y) : Frame s (effCmdResume slot y) := by
  refine hF.trans ?_
  unfold effCmdResume
  try dsimp only
  repeat' first | with_reducible exact Frame.refl _ | with_reducible apply fr_control | with_reducible apply Frame.ite | with_reducible apply Frame.ite2 | split

theorem fr_effCmdCancel {s y : State} (slot : Fin 64) (hF : Frame s y) : Frame s (effCmdCancel slot y) := by
  refine hF.trans ?_
  unfold effCmdCancel
  try dsimp only
  repeat' first | with_reducible exact Frame.refl _ | with_reducible apply fr_control | with_reducible apply Frame.ite | with_reducible apply Frame.ite2 | split

theorem fr_effCmdSelfTest {s y : State} (slot : Fin 64) (hF : Frame s y) : Frame s (effCmdSelfTest slot y) := by
  refine hF.trans ?_
  unfold effCmdSelfTest
  try dsimp only
  repeat' first | with_reducible exact Frame.refl _ | with_reducible apply fr_selfTestCmd | with_reducible apply Frame.ite | with_reducible apply Frame.ite2 | split

theorem fr_effCmdTallyExport {s y : State} (slot : Fin 64) (hF : Frame s y) : Frame s (effCmdTallyExport slot y) := by
  refine hF.trans ?_
  unfold effCmdTallyExport
  try dsimp only
  repeat' first | with_reducible exact Frame.refl _ | with_reducible apply fr_exportCmd | with_reducible apply Frame.ite | with_reducible apply Frame.ite2 | split

theorem fr_effPcieLinkDown {s y : State} (hF : Frame s y) : Frame s (effPcieLinkDown y) := by
  refine hF.trans ?_
  unfold effPcieLinkDown
  try dsimp only
  repeat' first | with_reducible exact Frame.refl _ | with_reducible apply fr_pcieDown | with_reducible apply Frame.ite | with_reducible apply Frame.ite2 | split

theorem fr_effPcieFlr {s y : State} (hF : Frame s y) : Frame s (effPcieFlr y) := by
  refine hF.trans ?_
  unfold effPcieFlr
  try dsimp only
  repeat' first | with_reducible exact Frame.refl _ | with_reducible apply fr_flr | with_reducible apply Frame.ite | with_reducible apply Frame.ite2 | split

theorem fr_effPcieLinkUp {s y : State} (speed : Fin 8) (width : Fin 8) (hF : Frame s y) : Frame s (effPcieLinkUp speed width y) := by
  refine hF.trans ?_
  unfold effPcieLinkUp
  try dsimp only
  repeat' first | with_reducible exact Frame.refl _ | with_reducible apply fr_pcieUp | with_reducible apply Frame.ite | with_reducible apply Frame.ite2 | split

theorem fr_effWinMemWrite {s y : State} (p : HostPath) (addr : ℕ) (v : Word) (hF : Frame s y) : Frame s (effWinMemWrite p addr v y) := by
  refine hF.trans ?_
  unfold effWinMemWrite
  try dsimp only
  repeat' first | with_reducible exact Frame.refl _ | with_reducible apply fr_memWriteCmd | with_reducible apply Frame.ite | with_reducible apply Frame.ite2 | split

theorem fr_effMspiRegisterRead {s y : State} (bs : Bytes) (hF : Frame s y) : Frame s (effMspiRegisterRead bs y) := by
  refine hF.trans ?_
  unfold effMspiRegisterRead
  try dsimp only
  repeat' first | with_reducible exact Frame.refl _ | with_reducible apply fr_mspiReadReg | with_reducible apply Frame.ite | with_reducible apply Frame.ite2 | split

theorem fr_effMspiRegisterWrite {s y : State} (bs : Bytes) (hF : Frame s y) : Frame s (effMspiRegisterWrite bs y) := by
  refine hF.trans ?_
  unfold effMspiRegisterWrite
  try dsimp only
  repeat' first | with_reducible exact Frame.refl _ | with_reducible apply fr_mspiWriteReg | with_reducible apply Frame.ite | with_reducible apply Frame.ite2 | split

theorem fr_effMspiMemoryRead {s y : State} (bs : Bytes) (hF : Frame s y) : Frame s (effMspiMemoryRead bs y) := by
  refine hF.trans ?_
  unfold effMspiMemoryRead
  try dsimp only
  repeat' first | with_reducible exact Frame.refl _ | with_reducible apply fr_mspiReadMem | with_reducible apply Frame.ite | with_reducible apply Frame.ite2 | split

theorem fr_effMspiMemoryWrite {s y : State} (bs : Bytes) (hF : Frame s y) : Frame s (effMspiMemoryWrite bs y) := by
  refine hF.trans ?_
  unfold effMspiMemoryWrite
  try dsimp only
  repeat' first | with_reducible exact Frame.refl _ | with_reducible apply fr_mspiWriteMem | with_reducible apply Frame.ite | with_reducible apply Frame.ite2 | split

theorem fr_effMspiScanEntry {s y : State} (bs : Bytes) (hF : Frame s y) : Frame s (effMspiScanEntry bs y) := by
  refine hF.trans ?_
  unfold effMspiScanEntry
  try dsimp only
  repeat' first | with_reducible exact Frame.refl _ | with_reducible apply fr_mspiScan | with_reducible apply Frame.ite | with_reducible apply Frame.ite2 | split

theorem fr_effMspiBallDrive {s y : State} (bs : Bytes) (hF : Frame s y) : Frame s (effMspiBallDrive bs y) := by
  refine hF.trans ?_
  unfold effMspiBallDrive
  try dsimp only
  repeat' first | with_reducible exact Frame.refl _ | with_reducible apply fr_mspiDrive | with_reducible apply Frame.ite | with_reducible apply Frame.ite2 | split

theorem fr_effMspiBallSense {s y : State} (bs : Bytes) (level : Bool) (hF : Frame s y) : Frame s (effMspiBallSense bs level y) := by
  refine hF.trans ?_
  unfold effMspiBallSense
  try dsimp only
  repeat' first | with_reducible exact Frame.refl _ | with_reducible apply fr_mspiSense | with_reducible apply Frame.ite | with_reducible apply Frame.ite2 | split

theorem fr_effPolCmdGo {s y : State} (p : HostPath) (c : ChanIx) (v : Word) (hF : Frame s y) : Frame s (effPolCmdGo p c v y) := by
  refine hF.trans ?_
  unfold effPolCmdGo
  try dsimp only
  repeat' first | with_reducible exact Frame.refl _ | with_reducible apply fr_writeCh | with_reducible apply Frame.ite | with_reducible apply Frame.ite2 | split

theorem fr_effGateListBoundary {s y : State} (c : ChanIx) (p : PortIx) (hF : Frame s y) : Frame s (effGateListBoundary c p y) := by
  refine hF.trans ?_
  unfold effGateListBoundary
  try dsimp only
  repeat' first | with_reducible exact Frame.refl _ | with_reducible apply fr_onCh | with_reducible apply Frame.ite | with_reducible apply Frame.ite2 | split

theorem fr_effGateSwap {s y : State} (h : HostPath) (c : ChanIx) (p : PortIx) (v : Word) (hF : Frame s y) : Frame s (effGateSwap h c p v y) := by
  refine hF.trans ?_
  unfold effGateSwap
  try dsimp only
  repeat' first | with_reducible exact Frame.refl _ | with_reducible apply fr_writeCh | with_reducible apply Frame.ite | with_reducible apply Frame.ite2 | split

theorem fr_effGateCancel {s y : State} (h : HostPath) (c : ChanIx) (p : PortIx) (v : Word) (hF : Frame s y) : Frame s (effGateCancel h c p v y) := by
  refine hF.trans ?_
  unfold effGateCancel
  try dsimp only
  repeat' first | with_reducible exact Frame.refl _ | with_reducible apply fr_writeCh | with_reducible apply Frame.ite | with_reducible apply Frame.ite2 | split

theorem fr_effGateListSwitch {s y : State} (c : ChanIx) (p : PortIx) (hF : Frame s y) : Frame s (effGateListSwitch c p y) := by
  refine hF.trans ?_
  unfold effGateListSwitch
  try dsimp only
  repeat' first | with_reducible exact Frame.refl _ | with_reducible apply fr_onCh | with_reducible apply Frame.ite | with_reducible apply Frame.ite2 | split

theorem fr_effQueueSample {s y : State} (c : ChanIx) (p : PortIx) (hF : Frame s y) : Frame s (effQueueSample c p y) := by
  refine hF.trans ?_
  unfold effQueueSample
  try dsimp only
  repeat' first | with_reducible exact Frame.refl _ | with_reducible apply fr_onCh | with_reducible apply Frame.ite | with_reducible apply Frame.ite2 | split

theorem fr_effHostTxFrameTake {s y : State} (c : ChanIx) (p : PortIx) (hF : Frame s y) : Frame s (effHostTxFrameTake c p y) := by
  refine hF.trans ?_
  unfold effHostTxFrameTake
  try dsimp only
  repeat' first | with_reducible exact Frame.refl _ | with_reducible apply fr_htxTake | with_reducible apply Frame.ite | with_reducible apply Frame.ite2 | split

theorem fr_effPtpDelayReqRx {s y : State} (c : ChanIx) (p : PortIx) (ps : ℕ) (f : ℤ) (bs : Bytes) (hF : Frame s y) : Frame s (effPtpDelayReqRx c p ps f bs y) := by
  refine hF.trans ?_
  unfold effPtpDelayReqRx
  try dsimp only
  repeat' first | with_reducible exact Frame.refl _ | with_reducible apply fr_onCh | with_reducible apply Frame.ite | with_reducible apply Frame.ite2 | split

theorem fr_effPtpPdelayReqRx {s y : State} (c : ChanIx) (p : PortIx) (ps : ℕ) (f : ℤ) (bs : Bytes) (hF : Frame s y) : Frame s (effPtpPdelayReqRx c p ps f bs y) := by
  refine hF.trans ?_
  unfold effPtpPdelayReqRx
  try dsimp only
  repeat' first | with_reducible exact Frame.refl _ | with_reducible apply fr_onCh | with_reducible apply Frame.ite | with_reducible apply Frame.ite2 | split

theorem fr_effPtpSyncRx {s y : State} (c : ChanIx) (p : PortIx) (ps : ℕ) (f : ℤ) (bs : Bytes) (hF : Frame s y) : Frame s (effPtpSyncRx c p ps f bs y) := by
  refine hF.trans ?_
  unfold effPtpSyncRx
  try dsimp only
  repeat' first | with_reducible exact Frame.refl _ | with_reducible apply fr_onCh | with_reducible apply Frame.ite | with_reducible apply Frame.ite2 | split

theorem fr_effPtpFollowUpRx {s y : State} (c : ChanIx) (p : PortIx) (bs : Bytes) (hF : Frame s y) : Frame s (effPtpFollowUpRx c p bs y) := by
  refine hF.trans ?_
  unfold effPtpFollowUpRx
  try dsimp only
  repeat' first | with_reducible exact Frame.refl _ | with_reducible apply fr_onCh | with_reducible apply Frame.ite | with_reducible apply Frame.ite2 | split

theorem fr_effPtpDelayRespRx {s y : State} (c : ChanIx) (p : PortIx) (bs : Bytes) (hF : Frame s y) : Frame s (effPtpDelayRespRx c p bs y) := by
  refine hF.trans ?_
  unfold effPtpDelayRespRx
  try dsimp only
  repeat' first | with_reducible exact Frame.refl _ | with_reducible apply fr_onCh | with_reducible apply Frame.ite | with_reducible apply Frame.ite2 | split

theorem fr_effPtpPdelayRespRx {s y : State} (c : ChanIx) (p : PortIx) (ps : ℕ) (f : ℤ) (bs : Bytes) (hF : Frame s y) : Frame s (effPtpPdelayRespRx c p ps f bs y) := by
  refine hF.trans ?_
  unfold effPtpPdelayRespRx
  try dsimp only
  repeat' first | with_reducible exact Frame.refl _ | with_reducible apply fr_onCh | with_reducible apply Frame.ite | with_reducible apply Frame.ite2 | split

theorem fr_effPtpAnnounceRx {s y : State} (c : ChanIx) (p : PortIx) (bs : Bytes) (hF : Frame s y) : Frame s (effPtpAnnounceRx c p bs y) := by
  refine hF.trans ?_
  unfold effPtpAnnounceRx
  try dsimp only
  repeat' first | with_reducible exact Frame.refl _ | with_reducible apply fr_onCh | with_reducible apply Frame.ite | with_reducible apply Frame.ite2 | split

theorem fr_effPtpSignalingRx {s y : State} (c : ChanIx) (p : PortIx) (bs : Bytes) (hF : Frame s y) : Frame s (effPtpSignalingRx c p bs y) := by
  refine hF.trans ?_
  unfold effPtpSignalingRx
  try dsimp only
  repeat' first | with_reducible exact Frame.refl _ | with_reducible apply fr_onCh | with_reducible apply Frame.ite | with_reducible apply Frame.ite2 | split

theorem fr_effNtpRequestRx {s y : State} (c : ChanIx) (p : PortIx) (ps : ℕ) (f : ℤ) (bs : Bytes) (hF : Frame s y) : Frame s (effNtpRequestRx c p ps f bs y) := by
  refine hF.trans ?_
  unfold effNtpRequestRx
  try dsimp only
  repeat' first | with_reducible exact Frame.refl _ | with_reducible apply fr_onCh | with_reducible apply Frame.ite | with_reducible apply Frame.ite2 | split

theorem fr_effNtpMacRequestRx {s y : State} (c : ChanIx) (p : PortIx) (ps : ℕ) (f : ℤ) (bs : Bytes) (hF : Frame s y) : Frame s (effNtpMacRequestRx c p ps f bs y) := by
  refine hF.trans ?_
  unfold effNtpMacRequestRx
  try dsimp only
  repeat' first | with_reducible exact Frame.refl _ | with_reducible apply fr_onCh | with_reducible apply Frame.ite | with_reducible apply Frame.ite2 | split

theorem fr_effNtsRequestRx {s y : State} (c : ChanIx) (p : PortIx) (ps : ℕ) (f : ℤ) (bs : Bytes) (hF : Frame s y) : Frame s (effNtsRequestRx c p ps f bs y) := by
  refine hF.trans ?_
  unfold effNtsRequestRx
  try dsimp only
  repeat' first | with_reducible exact Frame.refl _ | with_reducible apply fr_onCh | with_reducible apply Frame.ite | with_reducible apply Frame.ite2 | split

theorem fr_effExceptionFrameRx {s y : State} (c : ChanIx) (p : PortIx) (bs : Bytes) (hF : Frame s y) : Frame s (effExceptionFrameRx c p bs y) := by
  refine hF.trans ?_
  unfold effExceptionFrameRx
  try dsimp only
  repeat' first | with_reducible exact Frame.refl _ | with_reducible apply fr_onCh | with_reducible apply Frame.ite | with_reducible apply Frame.ite2 | split

theorem fr_effUnsupportedFrameRx {s y : State} (c : ChanIx) (p : PortIx) (bs : Bytes) (hF : Frame s y) : Frame s (effUnsupportedFrameRx c p bs y) := by
  refine hF.trans ?_
  unfold effUnsupportedFrameRx
  try dsimp only
  repeat' first | with_reducible exact Frame.refl _ | with_reducible apply fr_onCh | with_reducible apply Frame.ite | with_reducible apply Frame.ite2 | split

theorem fr_effNotMineFrameRx {s y : State} (c : ChanIx) (p : PortIx) (bs : Bytes) (hF : Frame s y) : Frame s (effNotMineFrameRx c p bs y) := by
  refine hF.trans ?_
  unfold effNotMineFrameRx
  try dsimp only
  repeat' first | with_reducible exact Frame.refl _ | with_reducible apply fr_onCh | with_reducible apply Frame.ite | with_reducible apply Frame.ite2 | split

theorem fr_effTransitFrameRx {s y : State} (c : ChanIx) (p : PortIx) (ps : ℕ) (f : ℤ) (bs : Bytes) (hF : Frame s y) : Frame s (effTransitFrameRx c p ps f bs y) := by
  refine hF.trans ?_
  unfold effTransitFrameRx
  try dsimp only
  repeat' first | with_reducible exact Frame.refl _ | with_reducible apply fr_onCh | with_reducible apply Frame.ite | with_reducible apply Frame.ite2 | split

theorem fr_effEgressCommit {s y : State} (c : ChanIx) (p : PortIx) (ps : ℕ) (f : ℤ) (hF : Frame s y) : Frame s (effEgressCommit c p ps f y) := by
  refine hF.trans ?_
  unfold effEgressCommit
  try dsimp only
  repeat' first | with_reducible exact Frame.refl _ | with_reducible apply fr_onCh | with_reducible apply Frame.ite | with_reducible apply Frame.ite2 | split

theorem fr_effUnicastDueMessage {s y : State} (c : ChanIx) (i : ℕ) (ann : Bool) (hF : Frame s y) : Frame s (effUnicastDueMessage c i ann y) := by
  refine hF.trans ?_
  unfold effUnicastDueMessage
  try dsimp only
  repeat' first | with_reducible exact Frame.refl _ | with_reducible apply fr_onCh | with_reducible apply Frame.ite | with_reducible apply Frame.ite2 | split

theorem fr_effMulticastDueMessage {s y : State} (c : ChanIx) (p : PortIx) (ann : Bool) (hF : Frame s y) : Frame s (effMulticastDueMessage c p ann y) := by
  refine hF.trans ?_
  unfold effMulticastDueMessage
  try dsimp only
  repeat' first | with_reducible exact Frame.refl _ | with_reducible apply fr_onCh | with_reducible apply Frame.ite | with_reducible apply Frame.ite2 | split

theorem fr_effPdelayReqDue {s y : State} (c : ChanIx) (p : PortIx) (hF : Frame s y) : Frame s (effPdelayReqDue c p y) := by
  refine hF.trans ?_
  unfold effPdelayReqDue
  try dsimp only
  repeat' first | with_reducible exact Frame.refl _ | with_reducible apply fr_onCh | with_reducible apply Frame.ite | with_reducible apply Frame.ite2 | split

theorem fr_effLaneDelayReqDue {s y : State} (c : ChanIx) (p : PortIx) (hF : Frame s y) : Frame s (effLaneDelayReqDue c p y) := by
  refine hF.trans ?_
  unfold effLaneDelayReqDue
  try dsimp only
  repeat' first | with_reducible exact Frame.refl _ | with_reducible apply fr_onCh | with_reducible apply Frame.ite | with_reducible apply Frame.ite2 | split

theorem fr_effLaneClientNegotiate {s y : State} (c : ChanIx) (p : PortIx) (hF : Frame s y) : Frame s (effLaneClientNegotiate c p y) := by
  refine hF.trans ?_
  unfold effLaneClientNegotiate
  try dsimp only
  repeat' first | with_reducible exact Frame.refl _ | with_reducible apply fr_onCh | with_reducible apply Frame.ite | with_reducible apply Frame.ite2 | split

theorem fr_effGrantExpiry {s y : State} (c : ChanIx) (i : ℕ) (hF : Frame s y) : Frame s (effGrantExpiry c i y) := by
  refine hF.trans ?_
  unfold effGrantExpiry
  try dsimp only
  repeat' first | with_reducible exact Frame.refl _ | with_reducible apply fr_onCh | with_reducible apply Frame.ite | with_reducible apply Frame.ite2 | split

theorem fr_effExceptionCoreResponse {s y : State} (c : ChanIx) (hF : Frame s y) : Frame s (effExceptionCoreResponse c y) := by
  refine hF.trans ?_
  unfold effExceptionCoreResponse
  try dsimp only
  repeat' first | with_reducible exact Frame.refl _ | with_reducible apply fr_onCh | with_reducible apply Frame.ite | with_reducible apply Frame.ite2 | split

theorem fr_effCtRevoke {s y : State} (p : HostPath) (c : ChanIx) (v : Word) (hF : Frame s y) : Frame s (effCtRevoke p c v y) := by
  refine hF.trans ?_
  unfold effCtRevoke
  try dsimp only
  repeat' first | with_reducible exact Frame.refl _ | with_reducible apply fr_writeCh | with_reducible apply Frame.ite | with_reducible apply Frame.ite2 | split

theorem fr_effCmdCookieMint {s y : State} (slot : Fin 64) (req : Option Bytes) (hF : Frame s y) : Frame s (effCmdCookieMint slot req y) := by
  refine hF.trans ?_
  unfold effCmdCookieMint
  try dsimp only
  repeat' first | with_reducible exact Frame.refl _ | with_reducible apply fr_cookieMint | with_reducible apply Frame.ite | with_reducible apply Frame.ite2 | split

theorem fr_effServoAApply {s y : State} (c : ChanIx) (hF : Frame s y) : Frame s (effServoAApply c y) := by
  refine hF.trans ?_
  unfold effServoAApply
  try dsimp only
  repeat' first | with_reducible exact Frame.refl _ | with_reducible apply fr_onCh | with_reducible apply Frame.ite | with_reducible apply Frame.ite2 | split

theorem fr_effServoBApply {s y : State} (c : ChanIx) (hF : Frame s y) : Frame s (effServoBApply c y) := by
  refine hF.trans ?_
  unfold effServoBApply
  try dsimp only
  repeat' first | with_reducible exact Frame.refl _ | with_reducible apply fr_onCh | with_reducible apply Frame.ite | with_reducible apply Frame.ite2 | split

theorem fr_effChannelAcquireStart {s y : State} (c : ChanIx) (hF : Frame s y) : Frame s (effChannelAcquireStart c y) := by
  refine hF.trans ?_
  unfold effChannelAcquireStart
  try dsimp only
  repeat' first | with_reducible exact Frame.refl _ | with_reducible apply fr_onCh | with_reducible apply Frame.ite | with_reducible apply Frame.ite2 | split

theorem fr_effHoldoverEntry {s y : State} (c : ChanIx) (hF : Frame s y) : Frame s (effHoldoverEntry c y) := by
  refine hF.trans ?_
  unfold effHoldoverEntry
  try dsimp only
  repeat' first | with_reducible exact Frame.refl _ | with_reducible apply fr_onCh | with_reducible apply Frame.ite | with_reducible apply Frame.ite2 | split

theorem fr_effHoldoverLimitEntry {s y : State} (c : ChanIx) (hF : Frame s y) : Frame s (effHoldoverLimitEntry c y) := by
  refine hF.trans ?_
  unfold effHoldoverLimitEntry
  try dsimp only
  repeat' first | with_reducible exact Frame.refl _ | with_reducible apply fr_onCh | with_reducible apply Frame.ite | with_reducible apply Frame.ite2 | split

theorem fr_effHoAgingIncrement {s y : State} (c : ChanIx) (hF : Frame s y) : Frame s (effHoAgingIncrement c y) := by
  refine hF.trans ?_
  unfold effHoAgingIncrement
  try dsimp only
  repeat' first | with_reducible exact Frame.refl _ | with_reducible apply fr_onCh | with_reducible apply Frame.ite | with_reducible apply Frame.ite2 | split

theorem fr_effCmdOscCharacterization {s y : State} (slot : Fin 64) (hF : Frame s y) : Frame s (effCmdOscCharacterization slot y) := by
  refine hF.trans ?_
  unfold effCmdOscCharacterization
  try dsimp only
  repeat' first | with_reducible exact Frame.refl _ | with_reducible apply fr_charCmd | with_reducible apply Frame.ite | with_reducible apply Frame.ite2 | split

theorem fr_effCharSampleInstant {s y : State} (c : ChanIx) (hF : Frame s y) : Frame s (effCharSampleInstant c y) := by
  refine hF.trans ?_
  unfold effCharSampleInstant
  try dsimp only
  repeat' first | with_reducible exact Frame.refl _ | with_reducible apply fr_chanProgress | with_reducible apply fr_onCh | with_reducible apply Frame.ite | with_reducible apply Frame.ite2 | split

theorem fr_effStepGo {s y : State} (p : HostPath) (c : ChanIx) (v : Word) (hF : Frame s y) : Frame s (effStepGo p c v y) := by
  refine hF.trans ?_
  unfold effStepGo
  try dsimp only
  repeat' first | with_reducible exact Frame.refl _ | with_reducible apply fr_writeCh | with_reducible apply Frame.ite | with_reducible apply Frame.ite2 | split

theorem fr_effStepAbsApply {s y : State} (c : ChanIx) (hF : Frame s y) : Frame s (effStepAbsApply c y) := by
  refine hF.trans ?_
  unfold effStepAbsApply
  try dsimp only
  repeat' first | with_reducible exact Frame.refl _ | with_reducible apply fr_onCh | with_reducible apply Frame.ite | with_reducible apply Frame.ite2 | split

theorem fr_effStepAbort {s y : State} (p : HostPath) (c : ChanIx) (v : Word) (hF : Frame s y) : Frame s (effStepAbort p c v y) := by
  refine hF.trans ?_
  unfold effStepAbort
  try dsimp only
  repeat' first | with_reducible exact Frame.refl _ | with_reducible apply fr_writeCh | with_reducible apply Frame.ite | with_reducible apply Frame.ite2 | split

theorem fr_effVintageWrite {s y : State} (c : ChanIx) (hF : Frame s y) : Frame s (effVintageWrite c y) := by
  refine hF.trans ?_
  unfold effVintageWrite
  try dsimp only
  repeat' first | with_reducible exact Frame.refl _ | with_reducible apply fr_writeVintage | with_reducible apply Frame.ite | with_reducible apply Frame.ite2 | split

theorem fr_effSynCommitBoundary {s y : State} (c : ChanIx) (k : Fin 2) (hF : Frame s y) : Frame s (effSynCommitBoundary c k y) := by
  refine hF.trans ?_
  unfold effSynCommitBoundary
  try dsimp only
  repeat' first | with_reducible exact Frame.refl _ | with_reducible apply fr_onCh | with_reducible apply Frame.ite | with_reducible apply Frame.ite2 | split

theorem fr_effPulseCommitBoundary {s y : State} (c : ChanIx) (hF : Frame s y) : Frame s (effPulseCommitBoundary c y) := by
  refine hF.trans ?_
  unfold effPulseCommitBoundary
  try dsimp only
  repeat' first | with_reducible exact Frame.refl _ | with_reducible apply fr_onCh | with_reducible apply Frame.ite | with_reducible apply Frame.ite2 | split

theorem fr_effSynLockDeclared {s y : State} (c : ChanIx) (k : Fin 2) (e : LockSense) (hF : Frame s y) : Frame s (effSynLockDeclared c k e y) := by
  refine hF.trans ?_
  unfold effSynLockDeclared
  try dsimp only
  repeat' first | with_reducible exact Frame.refl _ | with_reducible apply fr_onCh | with_reducible apply Frame.ite | with_reducible apply Frame.ite2 | split

theorem fr_effSynLockLost {s y : State} (c : ChanIx) (k : Fin 2) (e : LockSense) (hF : Frame s y) : Frame s (effSynLockLost c k e y) := by
  refine hF.trans ?_
  unfold effSynLockLost
  try dsimp only
  repeat' first | with_reducible exact Frame.refl _ | with_reducible apply fr_onCh | with_reducible apply Frame.ite | with_reducible apply Frame.ite2 | split

theorem fr_effSynReferenceLoss {s y : State} (c : ChanIx) (k : Fin 2) (hF : Frame s y) : Frame s (effSynReferenceLoss c k y) := by
  refine hF.trans ?_
  unfold effSynReferenceLoss
  try dsimp only
  repeat' first | with_reducible exact Frame.refl _ | with_reducible apply fr_onCh | with_reducible apply Frame.ite | with_reducible apply Frame.ite2 | split

theorem fr_effSynNolock {s y : State} (c : ChanIx) (k : Fin 2) (hF : Frame s y) : Frame s (effSynNolock c k y) := by
  refine hF.trans ?_
  unfold effSynNolock
  try dsimp only
  repeat' first | with_reducible exact Frame.refl _ | with_reducible apply fr_synNoLock | with_reducible apply Frame.ite | with_reducible apply Frame.ite2 | split

theorem fr_effSynCoastReferenceReturn {s y : State} (c : ChanIx) (k : Fin 2) (hF : Frame s y) : Frame s (effSynCoastReferenceReturn c k y) := by
  refine hF.trans ?_
  unfold effSynCoastReferenceReturn
  try dsimp only
  repeat' first | with_reducible exact Frame.refl _ | with_reducible apply fr_onCh | with_reducible apply Frame.ite | with_reducible apply Frame.ite2 | split

theorem fr_effPulseEdge {s y : State} (c : ChanIx) (j : Fin 2) (hF : Frame s y) : Frame s (effPulseEdge c j y) := by
  refine hF.trans ?_
  unfold effPulseEdge
  try dsimp only
  repeat' first | with_reducible exact Frame.refl _ | with_reducible apply fr_onCh | with_reducible apply Frame.ite | with_reducible apply Frame.ite2 | split

theorem fr_effRealignGo {s y : State} (p : HostPath) (c : ChanIx) (v : Word) (hF : Frame s y) : Frame s (effRealignGo p c v y) := by
  refine hF.trans ?_
  unfold effRealignGo
  try dsimp only
  repeat' first | with_reducible exact Frame.refl _ | with_reducible apply fr_writeCh | with_reducible apply Frame.ite | with_reducible apply Frame.ite2 | split

theorem fr_effRealignJumpSwitch {s y : State} (c : ChanIx) (hF : Frame s y) : Frame s (effRealignJumpSwitch c y) := by
  refine hF.trans ?_
  unfold effRealignJumpSwitch
  try dsimp only
  repeat' first | with_reducible exact Frame.refl _ | with_reducible apply fr_onCh | with_reducible apply Frame.ite | with_reducible apply Frame.ite2 | split

theorem fr_effRealignSlewDone {s y : State} (c : ChanIx) (hF : Frame s y) : Frame s (effRealignSlewDone c y) := by
  refine hF.trans ?_
  unfold effRealignSlewDone
  try dsimp only
  repeat' first | with_reducible exact Frame.refl _ | with_reducible apply fr_onCh | with_reducible apply Frame.ite | with_reducible apply Frame.ite2 | split

theorem fr_effTodSentenceSend {s y : State} (c : ChanIx) (hF : Frame s y) : Frame s (effTodSentenceSend c y) := by
  refine hF.trans ?_
  unfold effTodSentenceSend
  try dsimp only
  repeat' first | with_reducible exact Frame.refl _ | with_reducible apply fr_onCh | with_reducible apply Frame.ite | with_reducible apply Frame.ite2 | split

theorem fr_effClaimRoundStart {s y : State} (fell : Bool) (hF : Frame s y) : Frame s (effClaimRoundStart fell y) := by
  refine hF.trans ?_
  unfold effClaimRoundStart
  try dsimp only
  repeat' first | with_reducible exact Frame.refl _ | with_reducible apply fr_roundStart | with_reducible apply Frame.ite | with_reducible apply Frame.ite2 | split

theorem fr_effClaimRoundEnd {s y : State} (w : Word) (stuck : Bool) (noStart : Bool) (hF : Frame s y) : Frame s (effClaimRoundEnd w stuck noStart y) := by
  refine hF.trans ?_
  unfold effClaimRoundEnd
  try dsimp only
  repeat' first | with_reducible exact Frame.refl _ | with_reducible apply fr_roundEnd | with_reducible apply Frame.ite | with_reducible apply Frame.ite2 | split

theorem fr_effOutputContention {s y : State} (c : ChanIx) (hF : Frame s y) : Frame s (effOutputContention c y) := by
  refine hF.trans ?_
  unfold effOutputContention
  try dsimp only
  repeat' first | with_reducible exact Frame.refl _ | with_reducible apply fr_contention | with_reducible apply Frame.ite | with_reducible apply Frame.ite2 | split

theorem fr_effHeartbeatSend {s y : State} (ps0 : ℕ) (ps1 : ℕ) (hF : Frame s y) : Frame s (effHeartbeatSend ps0 ps1 y) := by
  refine hF.trans ?_
  unfold effHeartbeatSend
  try dsimp only
  repeat' first | with_reducible exact Frame.refl _ | with_reducible apply fr_hbSend | with_reducible apply Frame.ite | with_reducible apply Frame.ite2 | split

theorem fr_effHbFrameRx {s y : State} (lane : Fin 2) (bs : Bytes) (ps : ℕ) (hF : Frame s y) : Frame s (effHbFrameRx lane bs ps y) := by
  refine hF.trans ?_
  unfold effHbFrameRx
  try dsimp only
  repeat' first | with_reducible exact Frame.refl _ | with_reducible apply fr_hbFrame | with_reducible apply Frame.ite | with_reducible apply Frame.ite2 | split

theorem fr_effHbWordRx {s y : State} (w : Word) (hF : Frame s y) : Frame s (effHbWordRx w y) := by
  refine hF.trans ?_
  unfold effHbWordRx
  try dsimp only
  repeat' first | with_reducible exact Frame.refl _ | with_reducible apply fr_hbWordRx | with_reducible apply Frame.ite | with_reducible apply Frame.ite2 | split

theorem fr_effHeartbeatMissExpiry {s y : State} (pathB : Bool) (hF : Frame s y) : Frame s (effHeartbeatMissExpiry pathB y) := by
  refine hF.trans ?_
  unfold effHeartbeatMissExpiry
  try dsimp only
  repeat' first | with_reducible exact Frame.refl _ | with_reducible apply fr_missExpire | with_reducible apply Frame.ite | with_reducible apply Frame.ite2 | split

theorem fr_effBootWaitExpiry {s y : State} (hF : Frame s y) : Frame s (effBootWaitExpiry y) := by
  refine hF.trans ?_
  unfold effBootWaitExpiry
  try dsimp only
  repeat' first | with_reducible exact Frame.refl _ | with_reducible apply fr_bootExpire | with_reducible apply Frame.ite | with_reducible apply Frame.ite2 | split

theorem fr_effTwinFence {s y : State} (p : HostPath) (v : Word) (hF : Frame s y) : Frame s (effTwinFence p v y) := by
  refine hF.trans ?_
  unfold effTwinFence
  try dsimp only
  repeat' first | with_reducible exact Frame.refl _ | with_reducible apply fr_writeCom | with_reducible apply Frame.ite | with_reducible apply Frame.ite2 | split

theorem fr_effTwinUnfence {s y : State} (p : HostPath) (v : Word) (hF : Frame s y) : Frame s (effTwinUnfence p v y) := by
  refine hF.trans ?_
  unfold effTwinUnfence
  try dsimp only
  repeat' first | with_reducible exact Frame.refl _ | with_reducible apply fr_writeCom | with_reducible apply Frame.ite | with_reducible apply Frame.ite2 | split

theorem fr_effRackChannelComplete {s y : State} (c : ChanIx) (hF : Frame s y) : Frame s (effRackChannelComplete c y) := by
  refine hF.trans ?_
  unfold effRackChannelComplete
  try dsimp only
  repeat' first | with_reducible exact Frame.refl _ | with_reducible apply fr_rackChannel | with_reducible apply Frame.ite | with_reducible apply Frame.ite2 | split

theorem fr_effClaimConditionMet {s y : State} (hF : Frame s y) : Frame s (effClaimConditionMet y) := by
  refine hF.trans ?_
  unfold effClaimConditionMet
  try dsimp only
  repeat' first | with_reducible exact Frame.refl _ | with_reducible apply fr_claimMet | with_reducible apply Frame.ite | with_reducible apply Frame.ite2 | split

theorem fr_effTwinLaneSync {s y : State} (lane : Fin 2) (up : Bool) (hF : Frame s y) : Frame s (effTwinLaneSync lane up y) := by
  refine hF.trans ?_
  unfold effTwinLaneSync
  try dsimp only
  repeat' first | with_reducible exact Frame.refl _ | with_reducible apply fr_twinLaneSync | with_reducible apply Frame.ite | with_reducible apply Frame.ite2 | split

theorem fr_effTwinTimeFrameSend {s y : State} (c : ChanIx) (ps : ℕ) (hF : Frame s y) : Frame s (effTwinTimeFrameSend c ps y) := by
  refine hF.trans ?_
  unfold effTwinTimeFrameSend
  try dsimp only
  repeat' first | with_reducible exact Frame.refl _ | with_reducible apply fr_timeSend | with_reducible apply Frame.ite | with_reducible apply Frame.ite2 | split

theorem fr_effTwinTimeFrameRx {s y : State} (lane : Fin 2) (bs : Bytes) (ps : ℕ) (hF : Frame s y) : Frame s (effTwinTimeFrameRx lane bs ps y) := by
  refine hF.trans ?_
  unfold effTwinTimeFrameRx
  try dsimp only
  repeat' first | with_reducible exact Frame.refl _ | with_reducible apply fr_timeFrame | with_reducible apply Frame.ite | with_reducible apply Frame.ite2 | split

theorem fr_effJourFrameRx {s y : State} (lane : Fin 2) (f : JourFrame) (hF : Frame s y) : Frame s (effJourFrameRx lane f y) := by
  refine hF.trans ?_
  unfold effJourFrameRx
  try dsimp only
  repeat' first | with_reducible exact Frame.refl _ | with_reducible apply fr_jourFrame | with_reducible apply Frame.ite | with_reducible apply Frame.ite2 | split

theorem fr_effClientFrameRx {s y : State} (lane : Fin 2) (bs : Bytes) (hF : Frame s y) : Frame s (effClientFrameRx lane bs y) := by
  refine hF.trans ?_
  unfold effClientFrameRx
  try dsimp only
  repeat' first | with_reducible exact Frame.refl _ | with_reducible apply fr_clientFrame | with_reducible apply Frame.ite | with_reducible apply Frame.ite2 | split

theorem fr_effVintFrameRx {s y : State} (lane : Fin 2) (f : VintFrame) (hF : Frame s y) : Frame s (effVintFrameRx lane f y) := by
  refine hF.trans ?_
  unfold effVintFrameRx
  try dsimp only
  repeat' first | with_reducible exact Frame.refl _ | with_reducible apply fr_vintFrame | with_reducible apply Frame.ite | with_reducible apply Frame.ite2 | split

theorem fr_effResyncFrameRx {s y : State} (lane : Fin 2) (bs : Bytes) (hF : Frame s y) : Frame s (effResyncFrameRx lane bs y) := by
  refine hF.trans ?_
  unfold effResyncFrameRx
  try dsimp only
  repeat' first | with_reducible exact Frame.refl _ | with_reducible apply fr_resyncFrame | with_reducible apply Frame.ite | with_reducible apply Frame.ite2 | split

theorem fr_effDrillFrameRx {s y : State} (lane : Fin 2) (bs : Bytes) (hF : Frame s y) : Frame s (effDrillFrameRx lane bs y) := by
  refine hF.trans ?_
  unfold effDrillFrameRx
  try dsimp only
  repeat' first | with_reducible exact Frame.refl _ | with_reducible apply fr_drillFrame | with_reducible apply Frame.ite | with_reducible apply Frame.ite2 | split

theorem fr_effCmdRackingDrill {s y : State} (slot : Fin 64) (hF : Frame s y) : Frame s (effCmdRackingDrill slot y) := by
  refine hF.trans ?_
  unfold effCmdRackingDrill
  try dsimp only
  repeat' first | with_reducible exact Frame.refl _ | with_reducible apply fr_drillCmd | with_reducible apply Frame.ite | with_reducible apply Frame.ite2 | split

theorem fr_effDrillRequestSend {s y : State} (hF : Frame s y) : Frame s (effDrillRequestSend y) := by
  refine hF.trans ?_
  unfold effDrillRequestSend
  try dsimp only
  repeat' first | with_reducible exact Frame.refl _ | with_reducible apply fr_drillSend | with_reducible apply Frame.ite | with_reducible apply Frame.ite2 | split

theorem fr_effDrillClaimInstant {s y : State} (hF : Frame s y) : Frame s (effDrillClaimInstant y) := by
  refine hF.trans ?_
  unfold effDrillClaimInstant
  try dsimp only
  repeat' first | with_reducible exact Frame.refl _ | with_reducible apply fr_claimMet | with_reducible apply Frame.ite | with_reducible apply Frame.ite2 | split

theorem fr_effDrillTimeout {s y : State} (hF : Frame s y) : Frame s (effDrillTimeout y) := by
  refine hF.trans ?_
  unfold effDrillTimeout
  try dsimp only
  repeat' first | with_reducible exact Frame.refl _ | with_reducible apply fr_drillTimeout | with_reducible apply Frame.ite | with_reducible apply Frame.ite2 | split

theorem fr_effect {s y : State} (i : Instr) (hF : Frame s y) : Frame s (State.effect i y) := by
  refine hF.trans ?_
  unfold State.effect
  try dsimp only
  repeat' first | with_reducible exact Frame.refl _ | with_reducible apply fr_effRegisterWrite | with_reducible apply fr_effMultiwordReadLatch | with_reducible apply fr_effBookWindowStart | with_reducible apply fr_effBookRdGo | with_reducible apply fr_effMirrorEnable | with_reducible apply fr_effRefCommit | with_reducible apply fr_effDpllCommit | with_reducible apply fr_effSynCommit | with_reducible apply fr_effGnssCommit | with_reducible apply fr_effPortCommit | with_reducible apply fr_effSchedCommit | with_reducible apply fr_effSealCommit | with_reducible apply fr_effTwinCommit | with_reducible apply fr_effBenchCommit | with_reducible apply fr_effBCtlCommit | with_reducible apply fr_effClkgenCommit | with_reducible apply fr_effBlockLock | with_reducible apply fr_effRefinEdge | with_reducible apply fr_effTodSentenceRx | with_reducible apply fr_effTodSentenceWindowEnd | with_reducible apply fr_effFreqRecordBoundary | with_reducible apply fr_effLaneMissTimerExpiry | with_reducible apply fr_effQualWindowExpiry | with_reducible apply fr_effWtrExpiry | with_reducible apply fr_effDqHoldExpiry | with_reducible apply fr_effLaneForce | with_reducible apply fr_effLaneUnforce | with_reducible apply fr_effLaneRequal | with_reducible apply fr_effLaneClrStep | with_reducible apply fr_effSelApprove | with_reducible apply fr_effSelDeny | with_reducible apply fr_effUtcAnnouncement | with_reducible apply fr_effLeapEntWrite | with_reducible apply fr_effSampleLinkFrame | with_reducible apply fr_effBackChannelMessage | with_reducible apply fr_effBackChannelGo | with_reducible apply fr_effBackChannelTimeout | with_reducible apply fr_effTrkAssignment | with_reducible apply fr_effTrkDetection | with_reducible apply fr_effTrkWindowExhausted | with_reducible apply fr_effTrkReassignHoldoffEnd | with_reducible apply fr_effTrkLock | with_reducible apply fr_effTrkPullInTimeout | with_reducible apply fr_effTrkLockLost | with_reducible apply fr_effTrkLostTimeout | with_reducible apply fr_effSidePeakGuard | with_reducible apply fr_effNotchLock | with_reducible apply fr_effNotchRelease | with_reducible apply fr_effJniUpdate | with_reducible apply fr_effJamFloorCapture | with_reducible apply fr_effJamFloorCaptureEnd | with_reducible apply fr_effPosSet | with_reducible apply fr_effPosClr | with_reducible apply fr_effSurveyFix | with_reducible apply fr_effGnssEpochSample | with_reducible apply fr_effGnssL8Record | with_reducible apply fr_effSnapGo | with_reducible apply fr_effSnapCaptureStart | with_reducible apply fr_effSnapCaptureComplete | with_reducible apply fr_effCmdSnapshotProcessing | with_reducible apply fr_effCmdGnssSurvey | with_reducible apply fr_effServoAApply | with_reducible apply fr_effServoBApply | with_reducible apply fr_effChannelAcquireStart | with_reducible apply fr_effHoldoverEntry | with_reducible apply fr_effHoldoverLimitEntry | with_reducible apply fr_effHoAgingIncrement | with_reducible apply fr_effCmdOscCharacterization | with_reducible apply fr_effCharSampleInstant | with_reducible apply fr_effStepGo | with_reducible apply fr_effStepAbsApply | with_reducible apply fr_effStepAbort | with_reducible apply fr_effVintageWrite | with_reducible apply fr_effSynCommitBoundary | with_reducible apply fr_effPulseCommitBoundary | with_reducible apply fr_effSynLockDeclared | with_reducible apply fr_effSynLockLost | with_reducible apply fr_effSynReferenceLoss | with_reducible apply fr_effSynNolock | with_reducible apply fr_effSynCoastReferenceReturn | with_reducible apply fr_effPulseEdge | with_reducible apply fr_effRealignGo | with_reducible apply fr_effRealignJumpSwitch | with_reducible apply fr_effRealignSlewDone | with_reducible apply fr_effTodSentenceSend | with_reducible apply fr_effLinkAnComplete | with_reducible apply fr_effLinkTrainingComplete | with_reducible apply fr_effLinkTrainingTimeout | with_reducible apply fr_effLinkAlignLock | with_reducible apply fr_effLinkAlignTimeout | with_reducible apply fr_effLinkLoss | with_reducible apply fr_effPtpDelayReqRx | with_reducible apply fr_effPtpPdelayReqRx | with_reducible apply fr_effPtpSyncRx | with_reducible apply fr_effPtpFollowUpRx | with_reducible apply fr_effPtpDelayRespRx | with_reducible apply fr_effPtpPdelayRespRx | with_reducible apply fr_effPtpAnnounceRx | with_reducible apply fr_effPtpSignalingRx | with_reducible apply fr_effNtpRequestRx | with_reducible apply fr_effNtpMacRequestRx | with_reducible apply fr_effNtsRequestRx | with_reducible apply fr_effExceptionFrameRx | with_reducible apply fr_effUnsupportedFrameRx | with_reducible apply fr_effNotMineFrameRx | with_reducible apply fr_effTransitFrameRx | with_reducible apply fr_effPauseFrameRx | with_reducible apply fr_effOversizeFrameRx | with_reducible apply fr_effEgressCommit | with_reducible apply fr_effSynceRecord | with_reducible apply fr_effEsmcPduRx | with_reducible apply fr_effEsmcQlLostExpiry | with_reducible apply fr_effEsmcInfoPduSend | with_reducible apply fr_effUnicastDueMessage | with_reducible apply fr_effMulticastDueMessage | with_reducible apply fr_effPdelayReqDue | with_reducible apply fr_effLaneDelayReqDue | with_reducible apply fr_effLaneClientNegotiate | with_reducible apply fr_effGrantExpiry | with_reducible apply fr_effExceptionCoreResponse | with_reducible apply fr_effCtRevoke | with_reducible apply fr_effCmdCookieMint | with_reducible apply fr_effPolCmdGo | with_reducible apply fr_effGateListBoundary | with_reducible apply fr_effGateSwap | with_reducible apply fr_effGateCancel | with_reducible apply fr_effGateListSwitch | with_reducible apply fr_effQueueSample | with_reducible apply fr_effHostTxFrameTake | with_reducible apply fr_effClaimRoundStart | with_reducible apply fr_effClaimRoundEnd | with_reducible apply fr_effOutputContention | with_reducible apply fr_effHeartbeatSend | with_reducible apply fr_effHbFrameRx | with_reducible apply fr_effHbWordRx | with_reducible apply fr_effHeartbeatMissExpiry | with_reducible apply fr_effBootWaitExpiry | with_reducible apply fr_effTwinFence | with_reducible apply fr_effTwinUnfence | with_reducible apply fr_effRackChannelComplete | with_reducible apply fr_effClaimConditionMet | with_reducible apply fr_effTwinLaneSync | with_reducible apply fr_effTwinTimeFrameSend | with_reducible apply fr_effTwinTimeFrameRx | with_reducible apply fr_effJourFrameRx | with_reducible apply fr_effClientFrameRx | with_reducible apply fr_effVintFrameRx | with_reducible apply fr_effResyncFrameRx | with_reducible apply fr_effDrillFrameRx | with_reducible apply fr_effCmdRackingDrill | with_reducible apply fr_effDrillRequestSend | with_reducible apply fr_effDrillClaimInstant | with_reducible apply fr_effDrillTimeout | with_reducible apply fr_effBenchLinkSync | with_reducible apply fr_effBenchHelloSend | with_reducible apply fr_effBenchHelloRx | with_reducible apply fr_effBenchHelloTimeout | with_reducible apply fr_effLsaSend | with_reducible apply fr_effLsaRx | with_reducible apply fr_effLsaHoldExpiry | with_reducible apply fr_effRouteComputation | with_reducible apply fr_effBenchTimeSend | with_reducible apply fr_effBenchTimeRx | with_reducible apply fr_effPeerSlotExpiry | with_reducible apply fr_effEnsembleEvaluation | with_reducible apply fr_effBenchCalGo | with_reducible apply fr_effBenchCalDone | with_reducible apply fr_effCmdImageLoadStage | with_reducible apply fr_effCmdImageLoadRun | with_reducible apply fr_effCmdImageLoadDevice | with_reducible apply fr_effImageStreamWrite | with_reducible apply fr_effReconfigEntry | with_reducible apply fr_effReconfigApplyComplete | with_reducible apply fr_effCommonImageApply | with_reducible apply fr_effChannelGate | with_reducible apply fr_effChannelUngate | with_reducible apply fr_effChannelReset | with_reducible apply fr_effChannelPowerDownDone | with_reducible apply fr_effChannelPowerUpDone | with_reducible apply fr_effKumInstall | with_reducible apply fr_effKumReplace | with_reducible apply fr_effKumInvalidate | with_reducible apply fr_effKumRecover | with_reducible apply fr_effKumTcfg | with_reducible apply fr_effKumCommitPoint | with_reducible apply fr_effAttestationQuote | with_reducible apply fr_effAttestationQuoteDone | with_reducible apply fr_effCmdKeyBatch | with_reducible apply fr_effTamperSample | with_reducible apply fr_effFaultDetection | with_reducible apply fr_effSafeEnter | with_reducible apply fr_effSafeExit | with_reducible apply fr_effInjectionGo | with_reducible apply fr_effInjectedDetection | with_reducible apply fr_effInjectionNoCheckTimeout | with_reducible apply fr_effClkGateForce | with_reducible apply fr_effClkSwitchComplete | with_reducible apply fr_effCmdSubmit | with_reducible apply fr_effCmdRelease | with_reducible apply fr_effCmdStart | with_reducible apply fr_effCmdComplete | with_reducible apply fr_effCmdTimeout | with_reducible apply fr_effCmdSuspend | with_reducible apply fr_effCmdResume | with_reducible apply fr_effCmdCancel | with_reducible apply fr_effCmdSelfTest | with_reducible apply fr_effCmdTallyExport | with_reducible apply fr_effPcieLinkDown | with_reducible apply fr_effPcieFlr | with_reducible apply fr_effWinMemWrite | with_reducible apply fr_effMspiRegisterRead | with_reducible apply fr_effMspiRegisterWrite | with_reducible apply fr_effMspiMemoryRead | with_reducible apply fr_effMspiMemoryWrite | with_reducible apply fr_effMspiScanEntry | with_reducible apply fr_effMspiBallDrive | with_reducible apply fr_effMspiBallSense | with_reducible apply fr_effPmuTdSnap | with_reducible apply fr_effPmuCounterWrap | with_reducible apply fr_effBwWindowEnd | with_reducible apply fr_effBwCfgWrite | with_reducible apply fr_effPkClrWrite | with_reducible apply fr_effTallyUpdateStart | with_reducible apply fr_effTallyUpdNow | with_reducible apply fr_effTallyUpdateCommit | with_reducible apply fr_effMoscDetect | with_reducible apply fr_effMoscLost | with_reducible apply fr_effMoscReturn | with_reducible apply fr_effRootLock | with_reducible apply fr_effRootLockLost | with_reducible apply fr_effFeedBad | with_reducible apply fr_effFeedGood | with_reducible apply fr_effFeedCheckStart | with_reducible apply fr_effFeedCheckComplete | with_reducible apply fr_effPowerOn | with_reducible apply fr_effPowerFail | with_reducible apply fr_effVbatLoss | with_reducible apply fr_effPinReset | with_reducible apply fr_effStageRailsDone | with_reducible apply fr_effStageRootDone | with_reducible apply fr_effStageFeedchkDone | with_reducible apply fr_effStageVaultDone | with_reducible apply fr_effStageDone | with_reducible apply fr_effCounterAdvance | with_reducible apply fr_effVbatApplied | with_reducible apply fr_effResetNRelease | with_reducible apply fr_effPcieLinkUp | with_reducible apply fr_effRootStageRetry | with_reducible apply fr_effNavigationDataDecoded | with_reducible apply fr_effPohSecondCount | with_reducible apply Frame.ite | with_reducible apply Frame.ite2 | split

theorem fr_act {s y : State} (i : Instr) (hF : Frame s y) : Frame s (State.act i y) := by
  refine hF.trans ?_
  unfold State.act
  try dsimp only
  repeat' first | with_reducible exact Frame.refl _ | with_reducible apply fr_effect | with_reducible apply fr_follow | with_reducible apply Frame.ite | with_reducible apply Frame.ite2 | split

/-- The held commands that wait no longer. -/
theorem fr_releaseHeld (n : ℕ) {s y : State} (hF : Frame s y) : Frame s (State.releaseHeld n y) := by
  induction n generalizing y with
  | zero => exact hF
  | succ n ih =>
    unfold State.releaseHeld
    split
    · exact ih (fr_act _ (Frame.upd hF))
    · exact hF

theorem fr_allHeld {s y : State} (hF : Frame s y) : Frame s (State.allHeld y) := by
  refine hF.trans ?_
  unfold State.allHeld
  try dsimp only
  repeat' first | with_reducible exact Frame.refl _ | with_reducible apply fr_act | fail_if_no_progress (with_reducible apply Frame.upd) | with_reducible apply Frame.ite | with_reducible apply Frame.ite2 | with_reducible apply Frame.fold | with_reducible apply Frame.fold2 | intro _ | split

/-- A command from the queue. -/
theorem fr_perform {s y : State} (i : Instr) (hF : Frame s y) : Frame s (State.perform i y) := by
  refine hF.trans ?_
  unfold State.perform
  refine Frame.ite (Frame.upd (fr_clear (Frame.refl y))) ?_
  split
  · exact fr_act _ (fr_allHeld (fr_clear (Frame.refl y)))
  · exact fr_releaseHeld _ (fr_act _ (fr_clear (Frame.refl y)))

/-- A command that completes. -/
theorem fr_carryOut {i : Instr} {s t : State} (h : carryOut i s = .next t) : Frame s t := by
  unfold carryOut at h
  split at h
  · exact nomatch h
  · injection h with h
    subst h
    exact fr_perform i (Frame.refl s)

end Sys2Proof.Machine
end

