-- ==== Sys2Proof/Laws/State.lean ====
section
/-! SUPPORT. What each update of the state leaves in each field, and the forms in which a command's outcome is stated. -/
namespace Sys2Proof.Machine

/-! ### Field lemmas -/

@[simp] theorem clear_ch (s : State) : s.clear.ch = s.ch := rfl
@[simp] theorem clear_regs (s : State) : s.clear.regs = s.regs := rfl
@[simp] theorem clear_tick (s : State) : s.clear.tick = s.tick := rfl
@[simp] theorem clear_img (s : State) : s.clear.img = s.img := rfl
@[simp] theorem clear_loader (s : State) : s.clear.loader = s.loader := rfl
@[simp] theorem clear_fuse (s : State) : s.clear.fuse = s.fuse := rfl
@[simp] theorem clear_host (s : State) : s.clear.host = s.host := rfl
@[simp] theorem clear_cmdq (s : State) : s.clear.cmdq = s.cmdq := rfl
@[simp] theorem clear_fault (s : State) : s.clear.fault = s.fault := rfl
@[simp] theorem clear_vault (s : State) : s.clear.vault = s.vault := rfl
@[simp] theorem clear_book (s : State) : s.clear.book = s.book := rfl
@[simp] theorem clear_tally (s : State) : s.clear.tally = s.tally := rfl
@[simp] theorem clear_twin (s : State) : s.clear.twin = s.twin := rfl
@[simp] theorem clear_router (s : State) : s.clear.router = s.router := rfl
@[simp] theorem clear_pwr (s : State) : s.clear.pwr = s.pwr := rfl
@[simp] theorem clear_freeCtr (s : State) : s.clear.freeCtr = s.freeCtr := rfl
@[simp] theorem clear_out (s : State) : s.clear.out = [] := rfl
@[simp] theorem clear_held (s : State) : s.clear.held = s.held := rfl
@[simp] theorem clear_pending (s : State) : s.clear.pending = s.pending := rfl

@[simp] theorem clear_gword (s : State) (b : CB) (o : ℕ) : s.clear.gword b o = s.gword b o := rfl
@[simp] theorem clear_gcur (s : State) (f : GF) : s.clear.gcur f = s.gcur f := rfl
@[simp] theorem clear_gfld (s : State) (f : GF) : s.clear.gfld f = s.gfld f := rfl
@[simp] theorem clear_gflag (s : State) (f : GF) : s.clear.gflag f = s.gflag f := rfl
@[simp] theorem clear_running (s : State) (n : ChanIx) : s.clear.running n = s.running n := rfl
@[simp] theorem clear_safe (s : State) : s.clear.safe = s.safe := rfl
@[simp] theorem clear_scanning (s : State) : s.clear.scanning = s.scanning := rfl
@[simp] theorem clear_clocked (s : State) : s.clear.clocked = s.clocked := rfl
@[simp] theorem clear_pathUp (s : State) (p : HostPath) : s.clear.pathUp p = s.pathUp p := rfl
@[simp] theorem clear_route (s : State) (a : ℕ) : s.clear.route a = s.route a := rfl
@[simp] theorem clear_twst (s : State) : s.clear.twst = s.twst := rfl
@[simp] theorem clear_stage (s : State) : s.clear.stage = s.stage := rfl

@[simp] theorem setCh_tick (s : State) (n : ChanIx) (c : Channel) : (s.setCh n c).tick = s.tick := rfl
@[simp] theorem setCh_regs (s : State) (n : ChanIx) (c : Channel) : (s.setCh n c).regs = s.regs := rfl
@[simp] theorem setCh_img (s : State) (n : ChanIx) (c : Channel) : (s.setCh n c).img = s.img := rfl
@[simp] theorem setCh_loader (s : State) (n : ChanIx) (c : Channel) : (s.setCh n c).loader = s.loader := rfl
@[simp] theorem setCh_fuse (s : State) (n : ChanIx) (c : Channel) : (s.setCh n c).fuse = s.fuse := rfl
@[simp] theorem setCh_host (s : State) (n : ChanIx) (c : Channel) : (s.setCh n c).host = s.host := rfl
@[simp] theorem setCh_cmdq (s : State) (n : ChanIx) (c : Channel) : (s.setCh n c).cmdq = s.cmdq := rfl
@[simp] theorem setCh_fault (s : State) (n : ChanIx) (c : Channel) : (s.setCh n c).fault = s.fault := rfl
@[simp] theorem setCh_vault (s : State) (n : ChanIx) (c : Channel) : (s.setCh n c).vault = s.vault := rfl
@[simp] theorem setCh_book (s : State) (n : ChanIx) (c : Channel) : (s.setCh n c).book = s.book := rfl
@[simp] theorem setCh_tally (s : State) (n : ChanIx) (c : Channel) : (s.setCh n c).tally = s.tally := rfl
@[simp] theorem setCh_twin (s : State) (n : ChanIx) (c : Channel) : (s.setCh n c).twin = s.twin := rfl
@[simp] theorem setCh_router (s : State) (n : ChanIx) (c : Channel) : (s.setCh n c).router = s.router := rfl
@[simp] theorem setCh_pwr (s : State) (n : ChanIx) (c : Channel) : (s.setCh n c).pwr = s.pwr := rfl
@[simp] theorem setCh_freeCtr (s : State) (n : ChanIx) (c : Channel) : (s.setCh n c).freeCtr = s.freeCtr := rfl
@[simp] theorem setCh_out (s : State) (n : ChanIx) (c : Channel) : (s.setCh n c).out = s.out := rfl
@[simp] theorem setCh_held (s : State) (n : ChanIx) (c : Channel) : (s.setCh n c).held = s.held := rfl
@[simp] theorem setCh_pending (s : State) (n : ChanIx) (c : Channel) : (s.setCh n c).pending = s.pending := rfl
@[simp] theorem setCh_ch_self (s : State) (n : ChanIx) (c : Channel) : (s.setCh n c).ch[n] = c := by simp [State.setCh]
theorem setCh_ch_ne (s : State) {n m : ChanIx} (c : Channel) (h : n ≠ m) : (s.setCh n c).ch[m] = s.ch[m] := by
  have hv : n.val ≠ m.val := fun e => h (Fin.ext e)
  simp only [State.setCh, Fin.getElem_fin]
  rw [Vector.getElem_set_ne (h := hv)]

@[simp] theorem setRf_tick (s : State) (b : CB) (f : RegFile) : (s.setRf b f).tick = s.tick := rfl
@[simp] theorem setRf_ch (s : State) (b : CB) (f : RegFile) : (s.setRf b f).ch = s.ch := rfl
@[simp] theorem setRf_img (s : State) (b : CB) (f : RegFile) : (s.setRf b f).img = s.img := rfl
@[simp] theorem setRf_loader (s : State) (b : CB) (f : RegFile) : (s.setRf b f).loader = s.loader := rfl
@[simp] theorem setRf_fuse (s : State) (b : CB) (f : RegFile) : (s.setRf b f).fuse = s.fuse := rfl
@[simp] theorem setRf_host (s : State) (b : CB) (f : RegFile) : (s.setRf b f).host = s.host := rfl
@[simp] theorem setRf_cmdq (s : State) (b : CB) (f : RegFile) : (s.setRf b f).cmdq = s.cmdq := rfl
@[simp] theorem setRf_fault (s : State) (b : CB) (f : RegFile) : (s.setRf b f).fault = s.fault := rfl
@[simp] theorem setRf_vault (s : State) (b : CB) (f : RegFile) : (s.setRf b f).vault = s.vault := rfl
@[simp] theorem setRf_book (s : State) (b : CB) (f : RegFile) : (s.setRf b f).book = s.book := rfl
@[simp] theorem setRf_tally (s : State) (b : CB) (f : RegFile) : (s.setRf b f).tally = s.tally := rfl
@[simp] theorem setRf_twin (s : State) (b : CB) (f : RegFile) : (s.setRf b f).twin = s.twin := rfl
@[simp] theorem setRf_router (s : State) (b : CB) (f : RegFile) : (s.setRf b f).router = s.router := rfl
@[simp] theorem setRf_pwr (s : State) (b : CB) (f : RegFile) : (s.setRf b f).pwr = s.pwr := rfl
@[simp] theorem setRf_freeCtr (s : State) (b : CB) (f : RegFile) : (s.setRf b f).freeCtr = s.freeCtr := rfl
@[simp] theorem setRf_out (s : State) (b : CB) (f : RegFile) : (s.setRf b f).out = s.out := rfl
@[simp] theorem setRf_held (s : State) (b : CB) (f : RegFile) : (s.setRf b f).held = s.held := rfl
@[simp] theorem setRf_pending (s : State) (b : CB) (f : RegFile) : (s.setRf b f).pending = s.pending := rfl

@[simp] theorem greg_get_set_self (r : GRegs) (b : CB) (f : RegFile) : (r.set b f).get b = f := by cases b <;> rfl
theorem greg_get_set_ne (r : GRegs) {a b : CB} (f : RegFile) (h : a ≠ b) : (r.set a f).get b = r.get b := by
  cases a <;> cases b <;> first | rfl | exact absurd rfl h
@[simp] theorem kreg_get_set_self (r : KRegs) (b : KB) (f : RegFile) : (r.set b f).get b = f := by cases b <;> rfl
theorem kreg_get_set_ne (r : KRegs) {a b : KB} (f : RegFile) (h : a ≠ b) : (r.set a f).get b = r.get b := by
  cases a <;> cases b <;> first | rfl | exact absurd rfl h

@[simp] theorem rf_setRf_self (s : State) (b : CB) (f : RegFile) : (s.setRf b f).rf b = f := greg_get_set_self _ _ _
theorem rf_setRf_ne (s : State) {a b : CB} (f : RegFile) (h : a ≠ b) : (s.setRf a f).rf b = s.rf b := greg_get_set_ne _ _ h
@[simp] theorem crf_setRf_self (c : Channel) (b : KB) (f : RegFile) : (c.setRf b f).rf b = f := kreg_get_set_self _ _ _
theorem crf_setRf_ne (c : Channel) {a b : KB} (f : RegFile) (h : a ≠ b) : (c.setRf a f).rf b = c.rf b := kreg_get_set_ne _ _ h

/-! ### Words and fields of registers -/

/-- The word just stored reads back; every other word of the complex reads as before. -/
theorem gword_gsetWord_self (s : State) (b : CB) (o : ℕ) (w : Word) : (s.gsetWord b o w).gword b o = w := by
  simp [State.gword, State.gsetWord, smGet_smPut_same]
theorem gword_gsetWord_ne (s : State) (a b : CB) {o p : ℕ} (w : Word) (h : a ≠ b ∨ o ≠ p) : (s.gsetWord a o w).gword b p = s.gword b p := by
  by_cases e : a = b
  · subst e
    have hp : o ≠ p := h.resolve_left (fun k => k rfl)
    simp [State.gword, State.gsetWord, smGet_smPut_ne _ _ _ _ (Ne.symm hp)]
  · simp [State.gword, State.gsetWord, rf_setRf_ne _ _ e]
theorem word_setWord_self (c : Channel) (b : KB) (o : ℕ) (w : Word) : (c.setWord b o w).word b o = w := by
  simp [Channel.word, Channel.setWord, smGet_smPut_same]
theorem word_setWord_ne (c : Channel) (a b : KB) {o p : ℕ} (w : Word) (h : a ≠ b ∨ o ≠ p) : (c.setWord a o w).word b p = c.word b p := by
  by_cases e : a = b
  · subst e
    have hp : o ≠ p := h.resolve_left (fun k => k rfl)
    simp [Channel.word, Channel.setWord, smGet_smPut_ne _ _ _ _ (Ne.symm hp)]
  · simp [Channel.word, Channel.setWord, crf_setRf_ne _ _ e]

/-! ### Bit fields -/

theorem putField_toNat (x : Word) {l w : ℕ} (v : ℕ) (h : l + w ≤ 32) :
    (putField x l w v).toNat = x.toNat / 2 ^ (l + w) * 2 ^ (l + w) + v % 2 ^ w * 2 ^ l + x.toNat % 2 ^ l := by
  have hx : x.toNat = x.toNat / 2 ^ (l + w) * 2 ^ (l + w) + getField x l w * 2 ^ l + x.toNat % 2 ^ l := by
    have h1 := Nat.div_add_mod x.toNat (2 ^ l)
    have h2 := Nat.div_add_mod (x.toNat / 2 ^ l) (2 ^ w)
    rw [Nat.div_div_eq_div_mul, ← pow_add] at h2
    have h3 : x.toNat / 2 ^ l * 2 ^ l = x.toNat / 2 ^ (l + w) * 2 ^ (l + w) + getField x l w * 2 ^ l := by
      unfold getField
      conv_lhs => rw [← h2]
      ring
    rw [mul_comm] at h1
    omega
  have hv : v % 2 ^ w < 2 ^ w := Nat.mod_lt _ (by positivity)
  have hr : x.toNat % 2 ^ l < 2 ^ l := Nat.mod_lt _ (by positivity)
  have hlt : x.toNat < 2 ^ 32 := x.isLt
  have hq : x.toNat / 2 ^ (l + w) < 2 ^ (32 - (l + w)) := by
    rw [Nat.div_lt_iff_lt_mul (by positivity), ← pow_add]
    rwa [Nat.sub_add_cancel h]
  have hb : x.toNat / 2 ^ (l + w) * 2 ^ (l + w) + v % 2 ^ w * 2 ^ l + x.toNat % 2 ^ l < 2 ^ 32 := by
    have a1 : v % 2 ^ w * 2 ^ l + x.toNat % 2 ^ l < 2 ^ (l + w) := by
      have : (v % 2 ^ w + 1) * 2 ^ l ≤ 2 ^ w * 2 ^ l := Nat.mul_le_mul_right _ hv
      rw [pow_add, mul_comm (2 ^ l)]
      nlinarith
    have a2 : (x.toNat / 2 ^ (l + w) + 1) * 2 ^ (l + w) ≤ 2 ^ (32 - (l + w)) * 2 ^ (l + w) := Nat.mul_le_mul_right _ hq
    rw [← pow_add, Nat.sub_add_cancel h] at a2
    nlinarith
  unfold putField
  rw [BitVec.toNat_ofNat]
  have hs : x.toNat - getField x l w * 2 ^ l + v % 2 ^ w * 2 ^ l =
      x.toNat / 2 ^ (l + w) * 2 ^ (l + w) + v % 2 ^ w * 2 ^ l + x.toNat % 2 ^ l := by omega
  rw [hs, Nat.mod_eq_of_lt hb]

/-- The field just put reads back, modulo its width. -/
theorem getField_putField_same (x : Word) {l w : ℕ} (v : ℕ) (h : l + w ≤ 32) : getField (putField x l w v) l w = v % 2 ^ w := by
  have hr : x.toNat % 2 ^ l < 2 ^ l := Nat.mod_lt _ (by positivity)
  unfold getField
  rw [putField_toNat x v h]
  have e : x.toNat / 2 ^ (l + w) * 2 ^ (l + w) + v % 2 ^ w * 2 ^ l + x.toNat % 2 ^ l =
      2 ^ l * (2 ^ w * (x.toNat / 2 ^ (l + w)) + v % 2 ^ w) + x.toNat % 2 ^ l := by rw [pow_add]; ring
  rw [e, Nat.mul_add_div (by positivity), Nat.div_eq_of_lt hr, add_zero, Nat.mul_add_mod, Nat.mod_mod]

/-- A field that the put one does not meet stays. -/
theorem getField_putField_ne (x : Word) {l w l' w' : ℕ} (v : ℕ) (h : l + w ≤ 32) (d : l + w ≤ l' ∨ l' + w' ≤ l) :
    getField (putField x l w v) l' w' = getField x l' w' := by
  have hv : v % 2 ^ w < 2 ^ w := Nat.mod_lt _ (by positivity)
  have hr : x.toNat % 2 ^ l < 2 ^ l := Nat.mod_lt _ (by positivity)
  unfold getField
  rw [putField_toNat x v h]
  rcases d with d | d
  · obtain ⟨k, rfl⟩ := Nat.exists_eq_add_of_le d
    have a1 : v % 2 ^ w * 2 ^ l + x.toNat % 2 ^ l < 2 ^ (l + w) := by
      have : (v % 2 ^ w + 1) * 2 ^ l ≤ 2 ^ w * 2 ^ l := Nat.mul_le_mul_right _ hv
      rw [pow_add, mul_comm (2 ^ l)]
      nlinarith
    rw [pow_add 2 (l + w) k, ← Nat.div_div_eq_div_mul, ← Nat.div_div_eq_div_mul, add_assoc, mul_comm, Nat.mul_add_div (by positivity),
      Nat.div_eq_of_lt a1, add_zero]
  · obtain ⟨k, rfl⟩ := Nat.exists_eq_add_of_le d
    have e : x.toNat / 2 ^ (l' + w' + k + w) * 2 ^ (l' + w' + k + w) + v % 2 ^ w * 2 ^ (l' + w' + k) + x.toNat % 2 ^ (l' + w' + k) =
        2 ^ (l' + w') * (2 ^ k * (2 ^ w * (x.toNat / 2 ^ (l' + w' + k + w)) + v % 2 ^ w)) + x.toNat % 2 ^ (l' + w' + k) := by
      simp only [pow_add]; ring
    have key : ∀ y : ℕ, y / 2 ^ l' % 2 ^ w' = y % 2 ^ (l' + w') / 2 ^ l' := fun y => by rw [pow_add, Nat.mod_mul_right_div_self]
    rw [e, key, key x.toNat, Nat.mul_add_mod]
    congr 1
    rw [pow_add 2 (l' + w') k]
    exact Nat.mod_mul_right_mod _ _ _

/-- A field set by hardware reads back; a field of another register, or one beside it in the word, stays. -/
theorem gcur_gput_self (s : State) (f : GF) (v : ℕ) (h : f.lsb + f.w ≤ 32) : (s.gput f v).gcur f = v % 2 ^ f.w := by
  simp [State.gcur, State.gput, gword_gsetWord_self, getField_putField_same _ _ h]
theorem gcur_gput_ne (s : State) (f g : GF) (v : ℕ) (h : f.lsb + f.w ≤ 32)
    (d : f.blk ≠ g.blk ∨ f.off ≠ g.off ∨ f.lsb + f.w ≤ g.lsb ∨ g.lsb + g.w ≤ f.lsb) : (s.gput f v).gcur g = s.gcur g := by
  unfold State.gcur State.gput
  by_cases e : f.blk ≠ g.blk ∨ f.off ≠ g.off
  · rw [gword_gsetWord_ne _ _ _ _ e]
  · obtain ⟨e1, e2⟩ := not_or.mp e
    rw [not_not] at e1 e2
    rw [← e1, ← e2, gword_gsetWord_self]
    rcases d with d | d | d
    · exact absurd e1 d
    · exact absurd e2 d
    · exact getField_putField_ne _ _ h d
theorem cur_put_self (c : Channel) (f : KF) (v : ℕ) (h : f.lsb + f.w ≤ 32) : (c.put f v).cur f = v % 2 ^ f.w := by
  simp [Channel.cur, Channel.put, word_setWord_self, getField_putField_same _ _ h]
theorem cur_put_ne (c : Channel) (f g : KF) (v : ℕ) (h : f.lsb + f.w ≤ 32)
    (d : f.blk ≠ g.blk ∨ f.off ≠ g.off ∨ f.lsb + f.w ≤ g.lsb ∨ g.lsb + g.w ≤ f.lsb) : (c.put f v).cur g = c.cur g := by
  unfold Channel.cur Channel.put
  by_cases e : f.blk ≠ g.blk ∨ f.off ≠ g.off
  · rw [word_setWord_ne _ _ _ _ e]
  · obtain ⟨e1, e2⟩ := not_or.mp e
    rw [not_not] at e1 e2
    rw [← e1, ← e2, word_setWord_self]
    rcases d with d | d | d
    · exact absurd e1 d
    · exact absurd e2 d
    · exact getField_putField_ne _ _ h d

end Sys2Proof.Machine
end

