-- ==== Sys2Proof/Laws/Exec.lean ====
section
/-! SUPPORT. What a command comes to, whichever it is: its meaning carries it out, in its turn it takes its own effect and what follows
that, and it keeps the frame of every operation. -/
namespace Sys2Proof.Machine

/-- Every meaning carries its own command out. -/
theorem exec_eq (i : Instr) (s : State) : exec i s = carryOut i s := by cases i <;> rfl

/-- A step carries the command out that waits longest. -/
theorem step_cons {s : State} {i : Instr} {r : List Instr} (h : s.pending = i :: r) : step s = carryOut i { s with pending := r } := by
  unfold step
  rw [h]
  exact exec_eq i _

/-! ### A command in its turn -/

theorem turn_of_empty {s : State} (i : Instr) (hh : s.held = []) (hp : s.pending = []) : s.turn i := by
  refine ⟨hh, ?_⟩
  unfold State.waits State.window
  rw [hh, hp]
  cases i <;> rfl

theorem allHeld_nil {s : State} (h : s.held = []) : s.allHeld = s := by
  unfold State.allHeld
  rw [h]
  show { s with held := [] } = s
  rw [← h]

/-- In its turn a command acts, and nothing that was held acts with it. -/
theorem perform_turn {s : State} {i : Instr} (h : s.turn i) : s.perform i = State.act i s.clear := by
  obtain ⟨hh, hw⟩ := h
  unfold State.perform
  rw [hw, hh]
  have e : s.clear.allHeld = s.clear := allHeld_nil hh
  cases i <;> first | rfl | exact congrArg (State.act .counterAdvance) e

theorem act_live {s : State} (i : Instr) (h : s.scanning = false) : State.act i s = s.follow (s.effect i) := by
  unfold State.act
  simp [h]

/-- In its turn a command that brings no clock root into use completes: its effect, and what follows it. -/
theorem exec_turn {s : State} {i : Instr} (h : s.turn i) (hs : s.scanning = false) (hr : mayRate i = false) :
    exec i s = .next (s.clear.follow (s.clear.effect i)) := by
  rw [exec_eq]
  unfold carryOut
  simp only [h.1, List.any_cons, hr, List.any_nil, Bool.or_false, Bool.and_false, Bool.false_and, Bool.false_eq_true, if_false, perform_turn h]
  exact congrArg _ (act_live i hs)

/-- In its turn a command that keeps the clock roots within the ratio limits completes. -/
theorem exec_turn_rated {s : State} {i : Instr} (h : s.turn i) (hs : s.scanning = false) (hr : (s.clear.follow (s.clear.effect i)).ratioBad = false) :
    exec i s = .next (s.clear.follow (s.clear.effect i)) := by
  have e : s.perform i = s.clear.follow (s.clear.effect i) := (perform_turn h).trans (act_live i hs)
  rw [exec_eq]
  unfold carryOut
  rw [e, hr]
  simp

/-- A command that waits for another of its tick is held, and changes nothing else. -/
theorem exec_held {s : State} {i : Instr} (h : s.waits i = true) (hr : s.ratioBad = false) :
    exec i s = .next { s.clear with held := s.holdIn i s.held } := by
  have e : s.perform i = { s.clear with held := s.holdIn i s.held } := by unfold State.perform; rw [h]; rfl
  rw [exec_eq]
  unfold carryOut
  rw [e, show ({ s.clear with held := s.holdIn i s.held } : State).ratioBad = s.ratioBad from rfl, hr]
  simp

/-- A command that acts on the device. -/
theorem acts_intro {i : Instr} {s : State} {p : State → Prop} (hs : s.scanning = false) (hr : mayRate i = false) (hp : p (s.clear.effect i)) :
    Acts i s p := fun h => ⟨_, hp, exec_turn h hs hr⟩

/-- A command that acts in one channel. -/
theorem actsOn_intro {i : Instr} {s : State} {n : ChanIx} {p : Channel → Prop} (f : Channel → Channel) (hl : s.live n) (hr : mayRate i = false)
    (hx : s.clear.effect i = s.clear.onCh n f) (hp : p (f s.ch[n])) : ActsOn i s n p := fun h =>
  ⟨f s.ch[n], hp, by
    rw [exec_turn h hl.1 hr, hx]
    have : s.clear.running n = true := hl.2
    simp [State.onCh, this]⟩

/-! ### Frames -/

/-- What no command does. -/
theorem exec_frame (i : Instr) {s t : State} (h : exec i s = .next t) : Frame s t := fr_carryOut ((exec_eq i s) ▸ h)

end Sys2Proof.Machine
end

