-- ==== Sys2Proof/Laws/Access.lean ====
section
/-! SUPPORT. Where an offset of WIN_REG leads, and what a write of a register comes to. -/
namespace Sys2Proof.Machine

/-- A command of a channel in RUN changes that channel, which then settles. -/
theorem onCh_running {s : State} {n : ChanIx} (h : s.running n = true) (f : Channel → Channel) :
    s.onCh n f = s.setCh n (Channel.settle s.ch[n] (f s.ch[n])) := by simp [State.onCh, h]

/-! ### Where an offset leads -/

theorem kbBase_eq (b : KB) : ∃ k, kbBase b = k * 0x100000 ∧ k < 9 ∧ chBlocks[k]? = some b := by
  cases b
  exacts [⟨0, rfl, by decide, rfl⟩, ⟨1, rfl, by decide, rfl⟩, ⟨2, rfl, by decide, rfl⟩, ⟨3, rfl, by decide, rfl⟩, ⟨4, rfl, by decide, rfl⟩,
    ⟨5, rfl, by decide, rfl⟩, ⟨6, rfl, by decide, rfl⟩, ⟨7, rfl, by decide, rfl⟩, ⟨8, rfl, by decide, rfl⟩]

theorem route_chan {s : State} {n : ChanIx} {a k off : ℕ} {b : KB} (hr : s.running n = true) (h0 : a % 4 = 0) (h1 : 0x1000000 ≤ a)
    (h2 : a < 0x5000000) (h3 : a / 0x1000000 - 1 = n.val) (h4 : a % 0x1000000 / 0x100000 = k) (h5 : a % 0x100000 = off)
    (hb : chBlocks[k]? = some b) (hf : (findReg (kbRegs b) off).isSome = true) : s.route a = .chan n b off := by
  have e1 : ¬ (a % 4 ≠ 0 ∨ 0x8000000 ≤ a) := by omega
  have e2 : ¬ a < 0x1000000 := by omega
  have e7 : Fin.ofNat 4 n.val = n := Fin.ext (Nat.mod_eq_of_lt n.isLt)
  unfold State.route
  rw [if_neg e1, if_neg e2, if_pos h2, h3, h4, h5, e7]
  simp only [hr, hb, hf, Bool.not_true, Bool.false_eq_true, if_false, if_true]

theorem winReg_parts (n k off : ℕ) (hn : n < 4) (hk : k < 9) (ha : off % 4 = 0) (ho : off < 0x100000) :
    (0x1000000 * (n + 1) + k * 0x100000 + off) % 4 = 0 ∧ 0x1000000 ≤ 0x1000000 * (n + 1) + k * 0x100000 + off ∧
    0x1000000 * (n + 1) + k * 0x100000 + off < 0x5000000 ∧ (0x1000000 * (n + 1) + k * 0x100000 + off) / 0x1000000 - 1 = n ∧
    (0x1000000 * (n + 1) + k * 0x100000 + off) % 0x1000000 / 0x100000 = k ∧ (0x1000000 * (n + 1) + k * 0x100000 + off) % 0x100000 = off := by
  refine ⟨?_, ?_, ?_, ?_, ?_, ?_⟩ <;> omega

/-- A channel register's offset leads to it where the channel is in RUN (R7, R15, R444). -/
theorem route_winReg {s : State} {n : ChanIx} (b : KB) {off : ℕ} (hr : s.running n = true) (ha : off % 4 = 0) (ho : off < 0x100000)
    (hf : (findReg (kbRegs b) off).isSome = true) : s.route (winReg n b off) = .chan n b off := by
  obtain ⟨k, hk, hk9, hb⟩ := kbBase_eq b
  have e : winReg n b off = 0x1000000 * (n.val + 1) + k * 0x100000 + off := by rw [winReg, hk]
  obtain ⟨h0, h1, h2, h3, h4, h5⟩ := winReg_parts n.val k off n.isLt hk9 ha ho
  rw [← e] at h0 h1 h2 h3 h4 h5
  exact route_chan hr h0 h1 h2 h3 h4 h5 hb hf

theorem gbNum_eq (b : CB) : comBlocks[gbNum b]? = some b ∧ gbNum b < 11 := by cases b <;> exact ⟨rfl, by decide⟩

theorem route_com {s : State} {a k off : ℕ} {b : CB} (h0 : a % 4 = 0) (h1 : a < 0x1000000) (h2 : a / 0x10000 = k) (h3 : a % 0x10000 = off)
    (hb : comBlocks[k]? = some b) (hf : (findReg (gbRegs b) off).isSome = true) : s.route a = .common b off := by
  have e1 : ¬ (a % 4 ≠ 0 ∨ 0x8000000 ≤ a) := by omega
  unfold State.route
  rw [if_neg e1, if_pos h1, h2, h3]
  simp only [hb, hf, if_true]

theorem gReg_parts (k off : ℕ) (hk : k < 11) (ha : off % 4 = 0) (ho : off < 0x10000) :
    (0x10000 * k + off) % 4 = 0 ∧ 0x10000 * k + off < 0x1000000 ∧ (0x10000 * k + off) / 0x10000 = k ∧ (0x10000 * k + off) % 0x10000 = off := by
  refine ⟨?_, ?_, ?_, ?_⟩ <;> omega

/-- A common register's offset leads to it (R7, R444). -/
theorem route_gReg (s : State) (b : CB) {off : ℕ} (ha : off % 4 = 0) (ho : off < 0x10000) (hf : (findReg (gbRegs b) off).isSome = true) :
    s.route (gReg b off) = .common b off := by
  obtain ⟨hb, hk⟩ := gbNum_eq b
  have e : gReg b off = 0x10000 * gbNum b + off := by rw [gReg]
  obtain ⟨h0, h1, h2, h3⟩ := gReg_parts (gbNum b) off hk ha ho
  rw [← e] at h0 h1 h2 h3
  exact route_com h0 h1 h2 h3 hb hf

/-! ### Writes -/

theorem hostWrite_open {s : State} {p : HostPath} {a : ℕ} {v : Word} (ho : s.open p) : s.hostWrite p a v = s.writeAt p a v := by
  unfold State.hostWrite
  rw [ho.1, ho.2.1]
  rfl

theorem writeAt_chan {s : State} {p : HostPath} {a off : ℕ} {n : ChanIx} {b : KB} {v : Word} (hs : s.safe = false)
    (h : s.route a = .chan n b off) : s.writeAt p a v = s.onCh n (fun c => c.hostWrite p.org b off v) := by
  unfold State.writeAt
  rw [h, hs]
  rfl

theorem writeAt_com {s : State} {p : HostPath} {a off : ℕ} {b : CB} {v : Word} (hs : s.safe = false)
    (h : s.route a = .common b off) : s.writeAt p a v = s.gHostWrite p.org b off v := by
  unfold State.writeAt
  rw [h, hs]
  rfl

/-- A write of a channel's register by a path that reaches it. -/
theorem writeCh_eq {s : State} {p : HostPath} {n : ChanIx} (b : KB) {off : ℕ} (v : Word) (ho : s.open p) (hr : s.running n = true)
    (ha : off % 4 = 0) (hb : off < 0x100000) (hf : (findReg (kbRegs b) off).isSome = true) :
    s.writeCh p n b off v = s.setCh n (Channel.settle s.ch[n] (s.ch[n].hostWrite p.org b off v)) := by
  unfold State.writeCh
  rw [hostWrite_open ho, writeAt_chan ho.2.2 (route_winReg b hr ha hb hf), onCh_running hr]

/-- A write of a common register by a path that reaches it. -/
theorem writeCom_eq {s : State} {p : HostPath} (b : CB) {off : ℕ} (v : Word) (ho : s.open p) (ha : off % 4 = 0) (hb : off < 0x10000)
    (hf : (findReg (gbRegs b) off).isSome = true) : s.writeCom p b off v = s.gHostWrite p.org b off v := by
  unfold State.writeCom
  rw [hostWrite_open ho, writeAt_com ho.2.2 (route_gReg s b ha hb hf)]

theorem open_clear {s : State} {p : HostPath} (h : s.open p) : s.clear.open p := h

/-- A command that writes a channel's register. -/
theorem actsOn_write {i : Instr} {s : State} {p : HostPath} {n : ChanIx} {q : Channel → Prop} (b : KB) (off : ℕ) (v : Word) (hm : mayRate i = false)
    (hx : s.clear.effect i = s.clear.writeCh p n b off v) (ho : s.open p) (hr : s.running n = true) (ha : off % 4 = 0)
    (hb : off < 0x100000) (hf : (findReg (kbRegs b) off).isSome = true) (hq : q (s.ch[n].hostWrite p.org b off v)) : ActsOn i s n q := fun h =>
  ⟨_, hq, by rw [exec_turn h ho.1 hm, hx, writeCh_eq b v (open_clear ho) (by simpa using hr) ha hb hf]; rfl⟩

/-- A command that writes a common register. -/
theorem acts_write {i : Instr} {s : State} {p : HostPath} {q : State → Prop} (b : CB) (off : ℕ) (v : Word) (hm : mayRate i = false)
    (hx : s.clear.effect i = s.clear.writeCom p b off v) (ho : s.open p) (ha : off % 4 = 0) (hb : off < 0x10000)
    (hf : (findReg (gbRegs b) off).isSome = true) (hq : q (s.clear.gHostWrite p.org b off v)) : Acts i s q := fun h =>
  ⟨_, hq, by rw [exec_turn h ho.1 hm, hx, writeCom_eq b v (open_clear ho) ha hb hf]⟩

end Sys2Proof.Machine
end

