-- ==== Sys2Proof/Laws/Only.lean ====
section
/-! SUPPORT. For each operation on a channel, the parts of the channel that it may change: everything else it leaves as it is. -/
namespace Sys2Proof.Machine

/-- Every part of one list stands in another. -/
def partsIn (a b : List ChPart) : Bool := a.all b.contains

theorem partsIn_trans {a b c : List ChPart} (h : partsIn a b = true) (g : partsIn b c = true) : partsIn a c = true := by
  simp only [partsIn, List.all_eq_true, List.contains_iff_mem] at *
  exact fun q hq => g q (h q hq)

theorem partsIn_mem {q : ChPart} {a b : List ChPart} (h : a.contains q = true) (g : partsIn a b = true) : b.contains q = true := by
  simp only [partsIn, List.all_eq_true, List.contains_iff_mem] at *
  exact g q h

theorem Channel.onlyIn_refl (L : List ChPart) (c : Channel) : Channel.onlyIn L c c :=
  ⟨rfl, rfl, rfl, rfl, fun q _ => by cases q <;> first | rfl | exact ⟨rfl, rfl⟩⟩

theorem Channel.same_trans {q : ChPart} {a b c : Channel} (h : Channel.same q a b) (g : Channel.same q b c) : Channel.same q a c := by
  cases q <;> first | exact g.trans h | exact ⟨g.1.trans h.1, g.2.trans h.2⟩

theorem Channel.onlyIn_trans {L : List ChPart} {a b c : Channel} (h : Channel.onlyIn L a b) (g : Channel.onlyIn L b c) : Channel.onlyIn L a c :=
  ⟨g.1.trans h.1, g.2.1.trans h.2.1, g.2.2.1.trans h.2.2.1, g.2.2.2.1.trans h.2.2.2.1, fun q hq => Channel.same_trans (h.2.2.2.2 q hq) (g.2.2.2.2 q hq)⟩

theorem Channel.onlyIn_mono {L K : List ChPart} {c d : Channel} (h : partsIn L K = true) (hF : Channel.onlyIn L c d) : Channel.onlyIn K c d := by
  refine ⟨hF.1, hF.2.1, hF.2.2.1, hF.2.2.2.1, fun q hq => hF.2.2.2.2 q (fun hL => hq ?_)⟩
  have := List.all_eq_true.mp h q hL
  simpa using this

theorem Channel.onlyIn_step {L K : List ChPart} {c y z : Channel} (h : partsIn L K = true) (hF : Channel.onlyIn K c y) (g : Channel.onlyIn L y z) :
    Channel.onlyIn K c z := Channel.onlyIn_trans hF (Channel.onlyIn_mono h g)

/-- A record update whose changed fields belong to parts of the list. -/
theorem on_upd {L : List ChPart} {c x : Channel} {regs ref dpll scale jour syn gnss sched ports sealb pmu ends ens tprev epi freeCtr effs}
    (h : Channel.onlyIn L c x)
    (hregs : regs = x.regs)
    (h1 : L.contains .ref = true ∨ ref = x.ref) (h2 : L.contains .dpll = true ∨ dpll = x.dpll) (h3 : L.contains .scale = true ∨ scale = x.scale)
    (h4 : L.contains .jour = true ∨ jour = x.jour) (h5 : L.contains .syn = true ∨ syn = x.syn) (h6 : L.contains .gnss = true ∨ gnss = x.gnss)
    (h7 : L.contains .sched = true ∨ sched = x.sched) (h8 : L.contains .port = true ∨ ports = x.ports) (h9 : L.contains .sealb = true ∨ sealb = x.sealb)
    (h10 : L.contains .pmu = true ∨ pmu = x.pmu) (h11 : L.contains .bench = true ∨ ends = x.ends) (h12 : L.contains .ens = true ∨ ens = x.ens)
    (h13 : L.contains .tprev = true ∨ tprev = x.tprev) (h14 : L.contains .epi = true ∨ epi = x.epi) (h15 : L.contains .free = true ∨ freeCtr = x.freeCtr)
    (h16 : L.contains .asks = true ∨ effs = x.effs) :
    Channel.onlyIn L c (Channel.mk x.ix x.topo regs ref dpll scale jour syn gnss sched ports sealb pmu ends ens tprev epi freeCtr x.drive x.safe effs) := by
  subst hregs
  refine Channel.onlyIn_trans h ⟨rfl, rfl, rfl, rfl, fun q hq => ?_⟩
  have hc : ∀ r : ChPart, r = q → ¬ L.contains r = true := fun r e => by subst e; simpa using hq
  cases q
  · exact ⟨h1.resolve_left (hc _ rfl), rfl⟩
  · exact ⟨h2.resolve_left (hc _ rfl), rfl⟩
  · exact h3.resolve_left (hc _ rfl)
  · exact h4.resolve_left (hc _ rfl)
  · exact ⟨h5.resolve_left (hc _ rfl), rfl⟩
  · exact ⟨h6.resolve_left (hc _ rfl), rfl⟩
  · exact ⟨h7.resolve_left (hc _ rfl), rfl⟩
  · exact ⟨h8.resolve_left (hc _ rfl), rfl⟩
  · exact ⟨h9.resolve_left (hc _ rfl), rfl⟩
  · exact ⟨h10.resolve_left (hc _ rfl), rfl⟩
  · exact ⟨h11.resolve_left (hc _ rfl), rfl⟩
  · exact h12.resolve_left (hc _ rfl)
  · exact h13.resolve_left (hc _ rfl)
  · exact h14.resolve_left (hc _ rfl)
  · exact h15.resolve_left (hc _ rfl)
  · exact h16.resolve_left (hc _ rfl)

theorem on_ite {L : List ChPart} {c a b : Channel} {p : Prop} [Decidable p] (ha : Channel.onlyIn L c a) (hb : Channel.onlyIn L c b) :
    Channel.onlyIn L c (if p then a else b) := by split <;> assumption

theorem on_ite2 {α : Type} {L : List ChPart} {c : Channel} {a b : α × Channel} {p : Prop} [Decidable p] (ha : Channel.onlyIn L c a.2)
    (hb : Channel.onlyIn L c b.2) : Channel.onlyIn L c (if p then a else b).2 := by split <;> assumption

theorem on_ite_of {L : List ChPart} {c a b : Channel} {p : Prop} [Decidable p] (ha : p → Channel.onlyIn L c a) (hb : Channel.onlyIn L c b) :
    Channel.onlyIn L c (if p then a else b) := by
  split
  · exact ha ‹p›
  · exact hb

theorem on_fold2 {α β : Type} {L : List ChPart} {c : Channel} {x : β × Channel} {g : β × Channel → α → β × Channel} {l : List α} (h : Channel.onlyIn L c x.2)
    (hg : ∀ y a, Channel.onlyIn L y.2 (g y a).2) : Channel.onlyIn L c (l.foldl g x).2 := by
  induction l generalizing x with
  | nil => exact h
  | cons a r ih => exact ih (Channel.onlyIn_trans h (hg x a))

theorem on_iter {L : List ChPart} {c x : Channel} {g : Channel → Channel} (n : ℕ) (h : Channel.onlyIn L c x) (hg : ∀ y, Channel.onlyIn L y (g y)) :
    Channel.onlyIn L c (iter g n x) := by
  induction n generalizing x with
  | zero => exact h
  | succ n ih => exact ih (Channel.onlyIn_trans h (hg x))

theorem on_fold {α : Type} {L : List ChPart} {c x : Channel} {g : Channel → α → Channel} {l : List α} (h : Channel.onlyIn L c x)
    (hg : ∀ y a, Channel.onlyIn L y (g y a)) : Channel.onlyIn L c (l.foldl g x) := by
  induction l generalizing x with
  | nil => exact h
  | cons a r ih => exact ih (Channel.onlyIn_trans h (hg x a))

theorem on_setRf {L : List ChPart} {c x : Channel} (b : KB) (f : RegFile) (hb : L.contains b.part = true) (hF : Channel.onlyIn L c x) :
    Channel.onlyIn L c (x.setRf b f) := by
  refine Channel.onlyIn_trans hF ⟨rfl, rfl, rfl, rfl, fun q hq => ?_⟩
  have hc : ∀ r : ChPart, r = q → ¬ L.contains r = true := fun r e => by subst e; simpa using hq
  cases q <;> cases b <;> first | rfl | exact ⟨rfl, rfl⟩ | exact absurd hb (hc _ rfl)

/-- A frame that a receiver takes passes the port's bandwidth meter, and nothing else. -/
theorem rxTake_eq {c d : Channel} {p : PortIx} {bs : Bytes} {w : RxClass → Bool} {k : Pkt} (h : c.rxTake p bs w = some (k, d)) :
    d = c.bwRx p (bs.length + 4) := by
  unfold Channel.rxTake at h
  dsimp only at h
  split at h
  · simp only [Option.some.injEq, Prod.mk.injEq] at h
    exact h.2.symm
  · exact absurd h (by simp)

theorem on_setWord {L : List ChPart} {c₀ x₀ : Channel} (b : KB) (off : ℕ) (w : Word) (hb : L.contains b.part = true) (hF : Channel.onlyIn L c₀ x₀) : Channel.onlyIn L c₀ (Channel.setWord x₀ b off w) := by
  refine Channel.onlyIn_trans hF ?_
  unfold Channel.setWord
  try dsimp only
  repeat' first | with_reducible exact Channel.onlyIn_refl _ _ | with_reducible apply on_setRf | with_reducible apply on_ite | with_reducible apply on_ite2 | with_reducible rfl | exact .inl rfl | exact .inr rfl | rfl | with_reducible assumption | intro _ | (split <;> try (rename_i h; first | (have e := congrArg Prod.snd h; dsimp only at e; subst e) | (have e := rxTake_eq h; subst e)))

theorem on_put {L : List ChPart} {c₀ x₀ : Channel} (f : KF) (v : ℕ) (hb : L.contains f.blk.part = true) (hF : Channel.onlyIn L c₀ x₀) : Channel.onlyIn L c₀ (Channel.put x₀ f v) := by
  refine Channel.onlyIn_trans hF ?_
  unfold Channel.put
  try dsimp only
  repeat' first | with_reducible exact Channel.onlyIn_refl _ _ | with_reducible apply on_setWord | with_reducible apply on_ite | with_reducible apply on_ite2 | with_reducible rfl | exact .inl rfl | exact .inr rfl | rfl | with_reducible assumption | intro _ | (split <;> try (rename_i h; first | (have e := congrArg Prod.snd h; dsimp only at e; subst e) | (have e := rxTake_eq h; subst e)))

theorem on_bump {L : List ChPart} {c₀ x₀ : Channel} (f : KF) (hb : L.contains f.blk.part = true) (hF : Channel.onlyIn L c₀ x₀) : Channel.onlyIn L c₀ (Channel.bump x₀ f) := by
  refine Channel.onlyIn_trans hF ?_
  unfold Channel.bump
  try dsimp only
  repeat' first | with_reducible exact Channel.onlyIn_refl _ _ | with_reducible apply on_put | with_reducible apply on_ite | with_reducible apply on_ite2 | with_reducible rfl | exact .inl rfl | exact .inr rfl | rfl | with_reducible assumption | intro _ | (split <;> try (rename_i h; first | (have e := congrArg Prod.snd h; dsimp only at e; subst e) | (have e := rxTake_eq h; subst e)))

theorem on_bumpBy {L : List ChPart} {c₀ x₀ : Channel} (f : KF) (n : ℕ) (hb : L.contains f.blk.part = true) (hF : Channel.onlyIn L c₀ x₀) : Channel.onlyIn L c₀ (Channel.bumpBy x₀ f n) := by
  refine Channel.onlyIn_trans hF ?_
  unfold Channel.bumpBy
  try dsimp only
  repeat' first | with_reducible exact Channel.onlyIn_refl _ _ | with_reducible apply on_put | with_reducible apply on_ite | with_reducible apply on_ite2 | with_reducible rfl | exact .inl rfl | exact .inr rfl | rfl | with_reducible assumption | intro _ | (split <;> try (rename_i h; first | (have e := congrArg Prod.snd h; dsimp only at e; subst e) | (have e := rxTake_eq h; subst e)))

theorem on_bumpSat {L : List ChPart} {c₀ x₀ : Channel} (f : KF) (hb : L.contains f.blk.part = true) (hF : Channel.onlyIn L c₀ x₀) : Channel.onlyIn L c₀ (Channel.bumpSat x₀ f) := by
  refine Channel.onlyIn_trans hF ?_
  unfold Channel.bumpSat
  try dsimp only
  repeat' first | with_reducible exact Channel.onlyIn_refl _ _ | with_reducible apply on_put | with_reducible apply on_ite | with_reducible apply on_ite2 | with_reducible rfl | exact .inl rfl | exact .inr rfl | rfl | with_reducible assumption | intro _ | (split <;> try (rename_i h; first | (have e := congrArg Prod.snd h; dsimp only at e; subst e) | (have e := rxTake_eq h; subst e)))

theorem on_ask {L : List ChPart} {c₀ x₀ : Channel} (e : Eff) (hL : partsIn [.asks] L = true) (hF : Channel.onlyIn L c₀ x₀) : Channel.onlyIn L c₀ (Channel.ask x₀ e) := by
  refine Channel.onlyIn_step hL hF ?_
  unfold Channel.ask
  try dsimp only
  repeat' first | with_reducible exact Channel.onlyIn_refl _ _ | with_reducible apply on_ite | with_reducible apply on_ite2 | with_reducible rfl | exact .inl rfl | exact .inr rfl | rfl | with_reducible assumption | intro _ | (split <;> try (rename_i h; first | (have e := congrArg Prod.snd h; dsimp only at e; subst e) | (have e := rxTake_eq h; subst e))) | with_reducible apply on_upd

theorem on_evtMask {L : List ChPart} {c₀ x₀ : Channel} (b : KB) (off : ℕ) (m : ℕ) (hb : L.contains b.part = true) (hL : partsIn [.asks] L = true) (hF : Channel.onlyIn L c₀ x₀) : Channel.onlyIn L c₀ (Channel.evtMask x₀ b off m) := by
  refine Channel.onlyIn_trans hF ?_
  unfold Channel.evtMask
  try dsimp only
  repeat' first | with_reducible exact Channel.onlyIn_refl _ _ | with_reducible apply on_setWord | with_reducible apply on_ask | with_reducible apply on_setRf | with_reducible apply on_ite | with_reducible apply on_ite2 | with_reducible rfl | exact .inl rfl | exact .inr rfl | rfl | with_reducible assumption | exact partsIn_trans rfl hL | exact partsIn_mem rfl hL | exact .inl (partsIn_mem rfl hL) | intro _ | (split <;> try (rename_i h; first | (have e := congrArg Prod.snd h; dsimp only at e; subst e) | (have e := rxTake_eq h; subst e)))

theorem on_evt {L : List ChPart} {c₀ x₀ : Channel} (f : KF) (hb : L.contains f.blk.part = true) (hL : partsIn [.asks] L = true) (hF : Channel.onlyIn L c₀ x₀) : Channel.onlyIn L c₀ (Channel.evt x₀ f) := by
  refine Channel.onlyIn_trans hF ?_
  unfold Channel.evt
  try dsimp only
  repeat' first | with_reducible exact Channel.onlyIn_refl _ _ | with_reducible apply on_evtMask | with_reducible apply on_ite | with_reducible apply on_ite2 | with_reducible rfl | exact .inl rfl | exact .inr rfl | rfl | with_reducible assumption | exact partsIn_trans rfl hL | exact partsIn_mem rfl hL | exact .inl (partsIn_mem rfl hL) | intro _ | (split <;> try (rename_i h; first | (have e := congrArg Prod.snd h; dsimp only at e; subst e) | (have e := rxTake_eq h; subst e)))

theorem on_bookState {L : List ChPart} {c₀ x₀ : Channel} (org : Origin) (b : KB) (off : ℕ) (old : Word) (new : Word) (hL : partsIn [.asks] L = true) (hF : Channel.onlyIn L c₀ x₀) : Channel.onlyIn L c₀ (Channel.bookState x₀ org b off old new) := by
  refine Channel.onlyIn_step hL hF ?_
  unfold Channel.bookState
  try dsimp only
  repeat' first | with_reducible exact Channel.onlyIn_refl _ _ | with_reducible apply on_ask | with_reducible apply on_ite | with_reducible apply on_ite2 | with_reducible rfl | exact .inl rfl | exact .inr rfl | rfl | with_reducible assumption | intro _ | (split <;> try (rename_i h; first | (have e := congrArg Prod.snd h; dsimp only at e; subst e) | (have e := rxTake_eq h; subst e)))

theorem on_free {L : List ChPart} {c₀ x₀ : Channel} (w : ℕ) (hL : partsIn [.free] L = true) (hF : Channel.onlyIn L c₀ x₀) : Channel.onlyIn L c₀ (Channel.free x₀ w).2 := by
  refine Channel.onlyIn_step hL hF ?_
  unfold Channel.free
  try dsimp only
  repeat' first | with_reducible exact Channel.onlyIn_refl _ _ | with_reducible apply on_ite | with_reducible apply on_ite2 | with_reducible rfl | exact .inl rfl | exact .inr rfl | rfl | with_reducible assumption | intro _ | (split <;> try (rename_i h; first | (have e := congrArg Prod.snd h; dsimp only at e; subst e) | (have e := rxTake_eq h; subst e))) | with_reducible apply on_upd

theorem on_journalAt {L : List ChPart} {c₀ x₀ : Channel} (tick : ℕ) (commit : Bool) (late : Bool) (b : JBody) (hL : partsIn [.jour, .asks] L = true) (hF : Channel.onlyIn L c₀ x₀) : Channel.onlyIn L c₀ (Channel.journalAt x₀ tick commit late b) := by
  refine Channel.onlyIn_step hL hF ?_
  unfold Channel.journalAt
  try dsimp only
  repeat' first | with_reducible exact Channel.onlyIn_refl _ _ | with_reducible apply on_ask | with_reducible apply on_ite | with_reducible apply on_ite2 | with_reducible rfl | exact .inl rfl | exact .inr rfl | rfl | with_reducible assumption | intro _ | (split <;> try (rename_i h; first | (have e := congrArg Prod.snd h; dsimp only at e; subst e) | (have e := rxTake_eq h; subst e))) | with_reducible apply on_upd

theorem on_journal {L : List ChPart} {c₀ x₀ : Channel} (b : JBody) (hL : partsIn [.jour, .asks] L = true) (hF : Channel.onlyIn L c₀ x₀) : Channel.onlyIn L c₀ (Channel.journal x₀ b) := by
  refine Channel.onlyIn_step hL hF ?_
  unfold Channel.journal
  try dsimp only
  repeat' first | with_reducible exact Channel.onlyIn_refl _ _ | with_reducible apply on_journalAt | with_reducible apply on_ite | with_reducible apply on_ite2 | with_reducible rfl | exact .inl rfl | exact .inr rfl | rfl | with_reducible assumption | intro _ | (split <;> try (rename_i h; first | (have e := congrArg Prod.snd h; dsimp only at e; subst e) | (have e := rxTake_eq h; subst e)))

theorem on_setLane {L : List ChPart} {c₀ x₀ : Channel} (n : LaneIx) (l : Lane) (hL : partsIn [.ref] L = true) (hF : Channel.onlyIn L c₀ x₀) : Channel.onlyIn L c₀ (Channel.setLane x₀ n l) := by
  refine Channel.onlyIn_step hL hF ?_
  unfold Channel.setLane
  try dsimp only
  repeat' first | with_reducible exact Channel.onlyIn_refl _ _ | with_reducible apply on_ite | with_reducible apply on_ite2 | with_reducible rfl | exact .inl rfl | exact .inr rfl | rfl | with_reducible assumption | intro _ | (split <;> try (rename_i h; first | (have e := congrArg Prod.snd h; dsimp only at e; subst e) | (have e := rxTake_eq h; subst e))) | with_reducible apply on_upd

theorem on_updLane {L : List ChPart} {c₀ x₀ : Channel} (n : LaneIx) (f : Lane → Lane) (hL : partsIn [.ref] L = true) (hF : Channel.onlyIn L c₀ x₀) : Channel.onlyIn L c₀ (Channel.updLane x₀ n f) := by
  refine Channel.onlyIn_step hL hF ?_
  unfold Channel.updLane
  try dsimp only
  repeat' first | with_reducible exact Channel.onlyIn_refl _ _ | with_reducible apply on_setLane | with_reducible apply on_ite | with_reducible apply on_ite2 | with_reducible rfl | exact .inl rfl | exact .inr rfl | rfl | with_reducible assumption | intro _ | (split <;> try (rename_i h; first | (have e := congrArg Prod.snd h; dsimp only at e; subst e) | (have e := rxTake_eq h; subst e)))

theorem on_setSel {L : List ChPart} {c₀ x₀ : Channel} (s : Servo) (x : SelSt) (hL : partsIn [.ref] L = true) (hF : Channel.onlyIn L c₀ x₀) : Channel.onlyIn L c₀ (Channel.setSel x₀ s x) := by
  refine Channel.onlyIn_step hL hF ?_
  unfold Channel.setSel
  try dsimp only
  repeat' first | with_reducible exact Channel.onlyIn_refl _ _ | with_reducible apply on_ite | with_reducible apply on_ite2 | with_reducible rfl | exact .inl rfl | exact .inr rfl | rfl | with_reducible assumption | intro _ | (split <;> try (rename_i h; first | (have e := congrArg Prod.snd h; dsimp only at e; subst e) | (have e := rxTake_eq h; subst e))) | with_reducible apply on_upd

theorem on_laneTo {L : List ChPart} {c₀ x₀ : Channel} (n : LaneIx) (dst : LaneSt) (cause : ℕ) (hL : partsIn [.ref, .jour, .asks] L = true) (hF : Channel.onlyIn L c₀ x₀) : Channel.onlyIn L c₀ (Channel.laneTo x₀ n dst cause) := by
  refine Channel.onlyIn_step hL hF ?_
  unfold Channel.laneTo
  try dsimp only
  repeat' first | with_reducible exact Channel.onlyIn_refl _ _ | with_reducible apply on_setLane | with_reducible apply on_evtMask | with_reducible apply on_journal | with_reducible apply on_ite | with_reducible apply on_ite2 | with_reducible rfl | exact .inl rfl | exact .inr rfl | rfl | with_reducible assumption | intro _ | (split <;> try (rename_i h; first | (have e := congrArg Prod.snd h; dsimp only at e; subst e) | (have e := rxTake_eq h; subst e)))

theorem on_startWin {L : List ChPart} {c₀ x₀ : Channel} (n : LaneIx) (hL : partsIn [.ref] L = true) (hF : Channel.onlyIn L c₀ x₀) : Channel.onlyIn L c₀ (Channel.startWin x₀ n) := by
  refine Channel.onlyIn_step hL hF ?_
  unfold Channel.startWin
  try dsimp only
  repeat' first | with_reducible exact Channel.onlyIn_refl _ _ | with_reducible apply on_updLane | with_reducible apply on_ite | with_reducible apply on_ite2 | with_reducible rfl | exact .inl rfl | exact .inr rfl | rfl | with_reducible assumption | intro _ | (split <;> try (rename_i h; first | (have e := congrArg Prod.snd h; dsimp only at e; subst e) | (have e := rxTake_eq h; subst e)))

theorem on_startDq {L : List ChPart} {c₀ x₀ : Channel} (n : LaneIx) (hL : partsIn [.ref] L = true) (hF : Channel.onlyIn L c₀ x₀) : Channel.onlyIn L c₀ (Channel.startDq x₀ n) := by
  refine Channel.onlyIn_step hL hF ?_
  unfold Channel.startDq
  try dsimp only
  repeat' first | with_reducible exact Channel.onlyIn_refl _ _ | with_reducible apply on_updLane | with_reducible apply on_ite | with_reducible apply on_ite2 | with_reducible rfl | exact .inl rfl | exact .inr rfl | rfl | with_reducible assumption | intro _ | (split <;> try (rename_i h; first | (have e := congrArg Prod.snd h; dsimp only at e; subst e) | (have e := rxTake_eq h; subst e)))

theorem on_laneStat {L : List ChPart} {c₀ x₀ : Channel} (n : LaneIx) (f : ℕ → KF) (hb : ∀ k, L.contains (f k).blk.part = true) (hL : partsIn [.asks] L = true) (hF : Channel.onlyIn L c₀ x₀) : Channel.onlyIn L c₀ (Channel.laneStat x₀ n f) := by
  refine Channel.onlyIn_trans hF ?_
  unfold Channel.laneStat
  try dsimp only
  repeat' first | with_reducible exact Channel.onlyIn_refl _ _ | with_reducible apply on_evt | with_reducible apply on_ite | with_reducible apply on_ite2 | with_reducible rfl | exact .inl rfl | exact .inr rfl | rfl | with_reducible assumption | exact partsIn_trans rfl hL | exact partsIn_mem rfl hL | exact .inl (partsIn_mem rfl hL) | exact hb _ | intro _ | (split <;> try (rename_i h; first | (have e := congrArg Prod.snd h; dsimp only at e; subst e) | (have e := rxTake_eq h; subst e)))

theorem on_stepConfirmed {L : List ChPart} {c₀ x₀ : Channel} (n : LaneIx) (delta : ℤ) (hL : partsIn [.ref, .jour, .asks] L = true) (hF : Channel.onlyIn L c₀ x₀) : Channel.onlyIn L c₀ (Channel.stepConfirmed x₀ n delta) := by
  refine Channel.onlyIn_step hL hF ?_
  unfold Channel.stepConfirmed
  try dsimp only
  repeat' first | with_reducible exact Channel.onlyIn_refl _ _ | with_reducible apply on_laneStat | with_reducible apply on_updLane | with_reducible apply on_startWin | with_reducible apply on_laneTo | with_reducible apply on_ite | with_reducible apply on_ite2 | with_reducible rfl | exact .inl rfl | exact .inr rfl | rfl | with_reducible assumption | intro _ | (split <;> try (rename_i h; first | (have e := congrArg Prod.snd h; dsimp only at e; subst e) | (have e := rxTake_eq h; subst e)))

theorem on_judge {L : List ChPart} {c₀ x₀ : Channel} (r : MeasRec) (dis : Bool) (hL : partsIn [.ref, .jour, .asks] L = true) (hF : Channel.onlyIn L c₀ x₀) : Channel.onlyIn L c₀ (Channel.judge x₀ r dis) := by
  refine Channel.onlyIn_step hL hF ?_
  unfold Channel.judge
  try dsimp only
  repeat' first | with_reducible exact Channel.onlyIn_refl _ _ | with_reducible apply on_laneStat | with_reducible apply on_updLane | with_reducible apply on_startDq | with_reducible apply on_laneTo | with_reducible apply on_startWin | with_reducible apply on_ite | with_reducible apply on_ite2 | with_reducible rfl | exact .inl rfl | exact .inr rfl | rfl | with_reducible assumption | intro _ | (split <;> try (rename_i h; first | (have e := congrArg Prod.snd h; dsimp only at e; subst e) | (have e := rxTake_eq h; subst e)))

theorem on_putOutl {L : List ChPart} {c₀ x₀ : Channel} (s : Servo) (n : LaneIx) (b : Bool) (k : ℕ) (hL : partsIn [.ref, .asks] L = true) (hF : Channel.onlyIn L c₀ x₀) : Channel.onlyIn L c₀ (Channel.putOutl x₀ s n b k) := by
  refine Channel.onlyIn_step hL hF ?_
  unfold Channel.putOutl
  try dsimp only
  repeat' first | with_reducible exact Channel.onlyIn_refl _ _ | with_reducible apply on_setLane | with_reducible apply on_evt | with_reducible apply on_ite | with_reducible apply on_ite2 | with_reducible rfl | exact .inl rfl | exact .inr rfl | rfl | with_reducible assumption | intro _ | (split <;> try (rename_i h; first | (have e := congrArg Prod.snd h; dsimp only at e; subst e) | (have e := rxTake_eq h; subst e)))

theorem on_medianRank {L : List ChPart} {c₀ x₀ : Channel} (s : Servo) (rk : ℕ) (hL : partsIn [.ref, .asks] L = true) (hF : Channel.onlyIn L c₀ x₀) : Channel.onlyIn L c₀ (Channel.medianRank s x₀ rk) := by
  refine Channel.onlyIn_step hL hF ?_
  unfold Channel.medianRank
  try dsimp only
  repeat' first | with_reducible exact Channel.onlyIn_refl _ _ | with_reducible apply on_putOutl | with_reducible apply on_ite | with_reducible apply on_ite2 | with_reducible apply on_fold | with_reducible apply on_fold2 | with_reducible rfl | exact .inl rfl | exact .inr rfl | rfl | with_reducible assumption | intro _ | (split <;> try (rename_i h; first | (have e := congrArg Prod.snd h; dsimp only at e; subst e) | (have e := rxTake_eq h; subst e)))

theorem on_endContest {L : List ChPart} {c₀ x₀ : Channel} (s : Servo) (k : Contest) (hL : partsIn [.ref, .dpll, .jour, .asks] L = true) (hF : Channel.onlyIn L c₀ x₀) : Channel.onlyIn L c₀ (Channel.endContest x₀ s k) := by
  refine Channel.onlyIn_step hL hF ?_
  unfold Channel.endContest
  try dsimp only
  repeat' first | with_reducible exact Channel.onlyIn_refl _ _ | with_reducible apply on_setSel | with_reducible apply on_laneTo | with_reducible apply on_ite | with_reducible apply on_ite2 | with_reducible apply on_fold | with_reducible apply on_fold2 | with_reducible rfl | exact .inl rfl | exact .inr rfl | rfl | with_reducible assumption | intro _ | (split <;> try (rename_i h; first | (have e := congrArg Prod.snd h; dsimp only at e; subst e) | (have e := rxTake_eq h; subst e))) | with_reducible apply on_upd

theorem on_contestEnds {L : List ChPart} {c₀ x₀ : Channel} (s : Servo) (hL : partsIn [.ref, .dpll, .jour, .asks] L = true) (hF : Channel.onlyIn L c₀ x₀) : Channel.onlyIn L c₀ (Channel.contestEnds x₀ s) := by
  refine Channel.onlyIn_step hL hF ?_
  unfold Channel.contestEnds
  try dsimp only
  repeat' first | with_reducible exact Channel.onlyIn_refl _ _ | with_reducible apply on_endContest | with_reducible apply on_setSel | with_reducible apply on_ite | with_reducible apply on_ite2 | with_reducible apply on_fold | with_reducible apply on_fold2 | with_reducible rfl | exact .inl rfl | exact .inr rfl | rfl | with_reducible assumption | intro _ | (split <;> try (rename_i h; first | (have e := congrArg Prod.snd h; dsimp only at e; subst e) | (have e := rxTake_eq h; subst e)))

theorem on_contestRank {L : List ChPart} {c₀ x₀ : Channel} (s : Servo) (rk : ℕ) (hL : partsIn [.ref, .jour, .asks] L = true) (hF : Channel.onlyIn L c₀ x₀) : Channel.onlyIn L c₀ (Channel.contestRank s x₀ rk) := by
  refine Channel.onlyIn_step hL hF ?_
  unfold Channel.contestRank
  try dsimp only
  repeat' first | with_reducible exact Channel.onlyIn_refl _ _ | with_reducible apply on_setSel | with_reducible apply on_evt | with_reducible apply on_laneTo | with_reducible apply on_ite | with_reducible apply on_ite2 | with_reducible rfl | exact .inl rfl | exact .inr rfl | rfl | with_reducible assumption | intro _ | (split <;> try (rename_i h; first | (have e := congrArg Prod.snd h; dsimp only at e; subst e) | (have e := rxTake_eq h; subst e)))

theorem on_evalRanks {L : List ChPart} {c₀ x₀ : Channel} (hL : partsIn [.ref, .dpll, .jour, .asks] L = true) (hF : Channel.onlyIn L c₀ x₀) : Channel.onlyIn L c₀ (Channel.evalRanks x₀) := by
  refine Channel.onlyIn_step hL hF ?_
  unfold Channel.evalRanks
  try dsimp only
  repeat' first | with_reducible exact Channel.onlyIn_refl _ _ | with_reducible apply on_contestEnds | with_reducible apply on_medianRank | with_reducible apply on_contestRank | with_reducible apply on_ite | with_reducible apply on_ite2 | with_reducible apply on_fold | with_reducible apply on_fold2 | with_reducible rfl | exact .inl rfl | exact .inr rfl | rfl | with_reducible assumption | intro _ | (split <;> try (rename_i h; first | (have e := congrArg Prod.snd h; dsimp only at e; subst e) | (have e := rxTake_eq h; subst e)))

theorem on_cancelPv {L : List ChPart} {c₀ x₀ : Channel} (s : Servo) (cause : ℕ) (hL : partsIn [.ref, .jour, .asks] L = true) (hF : Channel.onlyIn L c₀ x₀) : Channel.onlyIn L c₀ (Channel.cancelPv x₀ s cause) := by
  refine Channel.onlyIn_step hL hF ?_
  unfold Channel.cancelPv
  try dsimp only
  repeat' first | with_reducible exact Channel.onlyIn_refl _ _ | with_reducible apply on_evt | with_reducible apply on_journal | with_reducible apply on_setSel | with_reducible apply on_ite | with_reducible apply on_ite2 | with_reducible rfl | exact .inl rfl | exact .inr rfl | rfl | with_reducible assumption | intro _ | (split <;> try (rename_i h; first | (have e := congrArg Prod.snd h; dsimp only at e; subst e) | (have e := rxTake_eq h; subst e)))

theorem on_publishPv {L : List ChPart} {c₀ x₀ : Channel} (s : Servo) (n : LaneIx) (pend : Bool) (hL : partsIn [.ref, .jour, .asks] L = true) (hF : Channel.onlyIn L c₀ x₀) : Channel.onlyIn L c₀ (Channel.publishPv x₀ s n pend) := by
  refine Channel.onlyIn_step hL hF ?_
  unfold Channel.publishPv
  try dsimp only
  repeat' first | with_reducible exact Channel.onlyIn_refl _ _ | with_reducible apply on_evt | with_reducible apply on_journalAt | with_reducible apply on_setSel | with_reducible apply on_ite | with_reducible apply on_ite2 | with_reducible rfl | exact .inl rfl | exact .inr rfl | rfl | with_reducible assumption | intro _ | (split <;> try (rename_i h; first | (have e := congrArg Prod.snd h; dsimp only at e; subst e) | (have e := rxTake_eq h; subst e)))

theorem on_keepWiden {L : List ChPart} {c₀ x₀ : Channel} (s : Servo) (new : Option LaneIx) (hL : partsIn [.dpll] L = true) (hF : Channel.onlyIn L c₀ x₀) : Channel.onlyIn L c₀ (Channel.keepWiden x₀ s new) := by
  refine Channel.onlyIn_step hL hF ?_
  unfold Channel.keepWiden
  try dsimp only
  repeat' first | with_reducible exact Channel.onlyIn_refl _ _ | with_reducible apply on_ite | with_reducible apply on_ite2 | with_reducible rfl | exact .inl rfl | exact .inr rfl | rfl | with_reducible assumption | intro _ | (split <;> try (rename_i h; first | (have e := congrArg Prod.snd h; dsimp only at e; subst e) | (have e := rxTake_eq h; subst e))) | with_reducible apply on_upd

theorem on_commitSel {L : List ChPart} {c₀ x₀ : Channel} (s : Servo) (new : Option LaneIx) (cause : ℕ) (hL : partsIn [.ref, .dpll, .jour, .asks] L = true) (hF : Channel.onlyIn L c₀ x₀) : Channel.onlyIn L c₀ (Channel.commitSel x₀ s new cause) := by
  refine Channel.onlyIn_step hL hF ?_
  unfold Channel.commitSel
  try dsimp only
  repeat' first | with_reducible exact Channel.onlyIn_refl _ _ | with_reducible apply on_keepWiden | with_reducible apply on_journal | with_reducible apply on_setSel | with_reducible apply on_evt | with_reducible apply on_bookState | with_reducible apply on_ite | with_reducible apply on_ite2 | with_reducible rfl | exact .inl rfl | exact .inr rfl | rfl | with_reducible assumption | intro _ | (split <;> try (rename_i h; first | (have e := congrArg Prod.snd h; dsimp only at e; subst e) | (have e := rxTake_eq h; subst e)))

theorem on_predict {L : List ChPart} {c₀ x₀ : Channel} (s : Servo) (hL : partsIn [.ref, .jour, .asks] L = true) (hF : Channel.onlyIn L c₀ x₀) : Channel.onlyIn L c₀ (Channel.predict x₀ s) := by
  refine Channel.onlyIn_step hL hF ?_
  unfold Channel.predict
  try dsimp only
  repeat' first | with_reducible exact Channel.onlyIn_refl _ _ | with_reducible apply on_cancelPv | with_reducible apply on_publishPv | with_reducible apply on_ite | with_reducible apply on_ite2 | with_reducible rfl | exact .inl rfl | exact .inr rfl | rfl | with_reducible assumption | intro _ | (split <;> try (rename_i h; first | (have e := congrArg Prod.snd h; dsimp only at e; subst e) | (have e := rxTake_eq h; subst e)))

theorem on_reserve {L : List ChPart} {c₀ x₀ : Channel} (s : Servo) (n : LaneIx) (hL : partsIn [.ref, .jour, .asks] L = true) (hF : Channel.onlyIn L c₀ x₀) : Channel.onlyIn L c₀ (Channel.reserve x₀ s n) := by
  refine Channel.onlyIn_step hL hF ?_
  unfold Channel.reserve
  try dsimp only
  repeat' first | with_reducible exact Channel.onlyIn_refl _ _ | with_reducible apply on_setSel | with_reducible apply on_predict | with_reducible apply on_cancelPv | with_reducible apply on_publishPv | with_reducible apply on_ite | with_reducible apply on_ite2 | with_reducible rfl | exact .inl rfl | exact .inr rfl | rfl | with_reducible assumption | intro _ | (split <;> try (rename_i h; first | (have e := congrArg Prod.snd h; dsimp only at e; subst e) | (have e := rxTake_eq h; subst e)))

theorem on_select {L : List ChPart} {c₀ x₀ : Channel} (s : Servo) (hL : partsIn [.ref, .dpll, .jour, .asks] L = true) (hF : Channel.onlyIn L c₀ x₀) : Channel.onlyIn L c₀ (Channel.select x₀ s) := by
  refine Channel.onlyIn_step hL hF ?_
  unfold Channel.select
  try dsimp only
  repeat' first | with_reducible exact Channel.onlyIn_refl _ _ | with_reducible apply on_setSel | with_reducible apply on_reserve | with_reducible apply on_cancelPv | with_reducible apply on_commitSel | with_reducible apply on_predict | with_reducible apply on_ite | with_reducible apply on_ite2 | with_reducible rfl | exact .inl rfl | exact .inr rfl | rfl | with_reducible assumption | intro _ | (split <;> try (rename_i h; first | (have e := congrArg Prod.snd h; dsimp only at e; subst e) | (have e := rxTake_eq h; subst e)))

theorem on_refEval {L : List ChPart} {c₀ x₀ : Channel} (hL : partsIn [.ref, .dpll, .jour, .asks] L = true) (hF : Channel.onlyIn L c₀ x₀) : Channel.onlyIn L c₀ (Channel.refEval x₀) := by
  refine Channel.onlyIn_step hL hF ?_
  unfold Channel.refEval
  extract_lets c1
  have h1 : Channel.onlyIn [.ref, .dpll, .jour, .asks] x₀ c1 := on_select _ rfl (on_select _ rfl (on_evalRanks rfl (Channel.onlyIn_refl _ _)))
  clear_value c1
  exact on_upd h1 rfl (.inl rfl) (.inr rfl) (.inr rfl) (.inr rfl) (.inr rfl) (.inr rfl) (.inr rfl) (.inr rfl) (.inr rfl) (.inr rfl) (.inr rfl) (.inr rfl) (.inr rfl) (.inr rfl) (.inr rfl) (.inr rfl)

theorem on_registerRec {L : List ChPart} {c₀ x₀ : Channel} (sync : LaneIx → ℕ) (r1 : MeasRec) (hL : partsIn [.ref, .dpll, .jour, .asks] L = true) (hF : Channel.onlyIn L c₀ x₀) : Channel.onlyIn L c₀ (Channel.registerRec x₀ sync r1) := by
  refine Channel.onlyIn_step hL hF ?_
  unfold Channel.registerRec
  extract_lets n l used sd back r2 late c1 c2 ml on c3 c4 st1 keep z c5
  have h1 : Channel.onlyIn [.ref, .dpll, .jour, .asks] x₀ c1 := on_journalAt _ _ _ _ rfl (Channel.onlyIn_refl _ _)
  have h2 : Channel.onlyIn [.ref, .dpll, .jour, .asks] x₀ c2 := on_ite (on_evt _ rfl rfl (on_bump _ rfl h1)) h1
  have h3 : Channel.onlyIn [.ref, .dpll, .jour, .asks] x₀ c3 := on_updLane _ _ rfl h2
  have h4 : Channel.onlyIn [.ref, .dpll, .jour, .asks] x₀ c4 := by
    refine Channel.onlyIn_trans h3 ?_
    unfold c4
    clear_value c3 r2 back
    clear_value sd
    dsimp only
    repeat' first | with_reducible exact Channel.onlyIn_refl _ _ | with_reducible apply on_judge | with_reducible apply on_startWin | with_reducible apply on_laneTo | with_reducible apply on_stepConfirmed | with_reducible apply on_updLane | with_reducible apply on_ite | split | rfl
  have h5 : Channel.onlyIn [.ref, .dpll, .jour, .asks] x₀ c5 := by
    refine Channel.onlyIn_trans h4 ?_
    unfold c5
    clear_value c4
    exact on_ite (on_upd (Channel.onlyIn_refl _ _) rfl (.inr rfl) (.inl rfl) (.inr rfl) (.inr rfl) (.inr rfl) (.inr rfl) (.inr rfl) (.inr rfl) (.inr rfl) (.inr rfl) (.inr rfl) (.inr rfl) (.inr rfl) (.inr rfl) (.inr rfl) (.inr rfl)) (Channel.onlyIn_refl _ _)
  clear_value c5
  exact on_upd h5 rfl (.inl rfl) (.inr rfl) (.inr rfl) (.inr rfl) (.inr rfl) (.inr rfl) (.inr rfl) (.inr rfl) (.inr rfl) (.inr rfl) (.inr rfl) (.inr rfl) (.inr rfl) (.inr rfl) (.inr rfl) (.inr rfl)

theorem on_register {L : List ChPart} {c₀ x₀ : Channel} (sync : LaneIx → ℕ) (r : MeasRec) (hL : partsIn [.ref, .dpll, .jour, .asks] L = true) (hF : Channel.onlyIn L c₀ x₀) : Channel.onlyIn L c₀ (Channel.register x₀ sync r) := by
  refine Channel.onlyIn_step hL hF ?_
  unfold Channel.register
  try dsimp only
  repeat' first | with_reducible exact Channel.onlyIn_refl _ _ | with_reducible apply on_registerRec | with_reducible apply on_ite | with_reducible apply on_ite2 | with_reducible rfl | exact .inl rfl | exact .inr rfl | rfl | with_reducible assumption | intro _ | (split <;> try (rename_i h; first | (have e := congrArg Prod.snd h; dsimp only at e; subst e) | (have e := rxTake_eq h; subst e)))

theorem on_measure {L : List ChPart} {c₀ x₀ : Channel} (lat : ℕ) (r : MeasRec) (hL : partsIn [.ref] L = true) (hF : Channel.onlyIn L c₀ x₀) : Channel.onlyIn L c₀ (Channel.measure x₀ lat r) := by
  refine Channel.onlyIn_step hL hF ?_
  unfold Channel.measure
  try dsimp only
  repeat' first | with_reducible exact Channel.onlyIn_refl _ _ | with_reducible apply on_ite | with_reducible apply on_ite2 | with_reducible rfl | exact .inl rfl | exact .inr rfl | rfl | with_reducible assumption | intro _ | (split <;> try (rename_i h; first | (have e := congrArg Prod.snd h; dsimp only at e; subst e) | (have e := rxTake_eq h; subst e))) | with_reducible apply on_upd

theorem on_registerDue {L : List ChPart} {c₀ x₀ : Channel} (sync : LaneIx → ℕ) (hL : partsIn [.ref, .dpll, .jour, .asks] L = true) (hF : Channel.onlyIn L c₀ x₀) : Channel.onlyIn L c₀ (Channel.registerDue x₀ sync) := by
  refine Channel.onlyIn_step hL hF ?_
  unfold Channel.registerDue
  try dsimp only
  repeat' first | with_reducible exact Channel.onlyIn_refl _ _ | with_reducible apply on_register | with_reducible apply on_ite | with_reducible apply on_ite2 | with_reducible apply on_fold | with_reducible apply on_fold2 | with_reducible rfl | exact .inl rfl | exact .inr rfl | rfl | with_reducible assumption | intro _ | (split <;> try (rename_i h; first | (have e := congrArg Prod.snd h; dsimp only at e; subst e) | (have e := rxTake_eq h; subst e))) | with_reducible apply on_upd

theorem on_missExpiry {L : List ChPart} {c₀ x₀ : Channel} (n : LaneIx) (hL : partsIn [.ref, .jour, .asks] L = true) (hF : Channel.onlyIn L c₀ x₀) : Channel.onlyIn L c₀ (Channel.missExpiry x₀ n) := by
  refine Channel.onlyIn_step hL hF ?_
  unfold Channel.missExpiry
  try dsimp only
  repeat' first | with_reducible exact Channel.onlyIn_refl _ _ | with_reducible apply on_updLane | with_reducible apply on_laneTo | with_reducible apply on_ite | with_reducible apply on_ite2 | with_reducible rfl | exact .inl rfl | exact .inr rfl | rfl | with_reducible assumption | intro _ | (split <;> try (rename_i h; first | (have e := congrArg Prod.snd h; dsimp only at e; subst e) | (have e := rxTake_eq h; subst e)))

theorem on_windowExpiry {L : List ChPart} {c₀ x₀ : Channel} (n : LaneIx) (hL : partsIn [.ref, .jour, .asks] L = true) (hF : Channel.onlyIn L c₀ x₀) : Channel.onlyIn L c₀ (Channel.windowExpiry x₀ n) := by
  refine Channel.onlyIn_step hL hF ?_
  unfold Channel.windowExpiry
  try dsimp only
  repeat' first | with_reducible exact Channel.onlyIn_refl _ _ | with_reducible apply on_missExpiry | with_reducible apply on_startWin | with_reducible apply on_laneTo | with_reducible apply on_updLane | with_reducible apply on_ite | with_reducible apply on_ite2 | with_reducible rfl | exact .inl rfl | exact .inr rfl | rfl | with_reducible assumption | intro _ | (split <;> try (rename_i h; first | (have e := congrArg Prod.snd h; dsimp only at e; subst e) | (have e := rxTake_eq h; subst e)))

theorem on_wtrExpiry {L : List ChPart} {c₀ x₀ : Channel} (n : LaneIx) (hL : partsIn [.ref, .jour, .asks] L = true) (hF : Channel.onlyIn L c₀ x₀) : Channel.onlyIn L c₀ (Channel.wtrExpiry x₀ n) := by
  refine Channel.onlyIn_step hL hF ?_
  unfold Channel.wtrExpiry
  try dsimp only
  repeat' first | with_reducible exact Channel.onlyIn_refl _ _ | with_reducible apply on_missExpiry | with_reducible apply on_laneTo | with_reducible apply on_updLane | with_reducible apply on_ite | with_reducible apply on_ite2 | with_reducible rfl | exact .inl rfl | exact .inr rfl | rfl | with_reducible assumption | intro _ | (split <;> try (rename_i h; first | (have e := congrArg Prod.snd h; dsimp only at e; subst e) | (have e := rxTake_eq h; subst e))) | with_reducible apply on_upd

theorem on_dqExpiry {L : List ChPart} {c₀ x₀ : Channel} (n : LaneIx) (hL : partsIn [.ref, .jour, .asks] L = true) (hF : Channel.onlyIn L c₀ x₀) : Channel.onlyIn L c₀ (Channel.dqExpiry x₀ n) := by
  refine Channel.onlyIn_step hL hF ?_
  unfold Channel.dqExpiry
  try dsimp only
  repeat' first | with_reducible exact Channel.onlyIn_refl _ _ | with_reducible apply on_missExpiry | with_reducible apply on_updLane | with_reducible apply on_laneTo | with_reducible apply on_startWin | with_reducible apply on_ite | with_reducible apply on_ite2 | with_reducible rfl | exact .inl rfl | exact .inr rfl | rfl | with_reducible assumption | intro _ | (split <;> try (rename_i h; first | (have e := congrArg Prod.snd h; dsimp only at e; subst e) | (have e := rxTake_eq h; subst e)))

theorem on_force {L : List ChPart} {c₀ x₀ : Channel} (sync : LaneIx → ℕ) (n : LaneIx) (hL : partsIn [.ref, .jour, .asks] L = true) (hF : Channel.onlyIn L c₀ x₀) : Channel.onlyIn L c₀ (Channel.force x₀ sync n) := by
  refine Channel.onlyIn_step hL hF ?_
  unfold Channel.force
  try dsimp only
  repeat' first | with_reducible exact Channel.onlyIn_refl _ _ | with_reducible apply on_laneTo | with_reducible apply on_updLane | with_reducible apply on_ite | with_reducible apply on_ite2 | with_reducible rfl | exact .inl rfl | exact .inr rfl | rfl | with_reducible assumption | intro _ | (split <;> try (rename_i h; first | (have e := congrArg Prod.snd h; dsimp only at e; subst e) | (have e := rxTake_eq h; subst e)))

theorem on_unforce {L : List ChPart} {c₀ x₀ : Channel} (n : LaneIx) (hL : partsIn [.ref, .jour, .asks] L = true) (hF : Channel.onlyIn L c₀ x₀) : Channel.onlyIn L c₀ (Channel.unforce x₀ n) := by
  refine Channel.onlyIn_step hL hF ?_
  unfold Channel.unforce
  try dsimp only
  repeat' first | with_reducible exact Channel.onlyIn_refl _ _ | with_reducible apply on_updLane | with_reducible apply on_laneTo | with_reducible apply on_startWin | with_reducible apply on_ite | with_reducible apply on_ite2 | with_reducible rfl | exact .inl rfl | exact .inr rfl | rfl | with_reducible assumption | intro _ | (split <;> try (rename_i h; first | (have e := congrArg Prod.snd h; dsimp only at e; subst e) | (have e := rxTake_eq h; subst e)))

theorem on_requal {L : List ChPart} {c₀ x₀ : Channel} (n : LaneIx) (hL : partsIn [.ref, .jour, .asks] L = true) (hF : Channel.onlyIn L c₀ x₀) : Channel.onlyIn L c₀ (Channel.requal x₀ n) := by
  refine Channel.onlyIn_step hL hF ?_
  unfold Channel.requal
  try dsimp only
  repeat' first | with_reducible exact Channel.onlyIn_refl _ _ | with_reducible apply on_startWin | with_reducible apply on_laneTo | with_reducible apply on_ite | with_reducible apply on_ite2 | with_reducible rfl | exact .inl rfl | exact .inr rfl | rfl | with_reducible assumption | intro _ | (split <;> try (rename_i h; first | (have e := congrArg Prod.snd h; dsimp only at e; subst e) | (have e := rxTake_eq h; subst e)))

theorem on_dropDisabled {L : List ChPart} {c₀ x₀ : Channel} (hL : partsIn [.ref, .jour, .asks] L = true) (hF : Channel.onlyIn L c₀ x₀) : Channel.onlyIn L c₀ (Channel.dropDisabled x₀) := by
  refine Channel.onlyIn_step hL hF ?_
  unfold Channel.dropDisabled
  try dsimp only
  repeat' first | with_reducible exact Channel.onlyIn_refl _ _ | with_reducible apply on_laneTo | with_reducible apply on_ite | with_reducible apply on_ite2 | with_reducible apply on_fold | with_reducible apply on_fold2 | with_reducible rfl | exact .inl rfl | exact .inr rfl | rfl | with_reducible assumption | intro _ | (split <;> try (rename_i h; first | (have e := congrArg Prod.snd h; dsimp only at e; subst e) | (have e := rxTake_eq h; subst e)))

theorem on_approveSwitch {L : List ChPart} {c₀ x₀ : Channel} (s : Servo) (hL : partsIn [.ref, .dpll, .jour, .asks] L = true) (hF : Channel.onlyIn L c₀ x₀) : Channel.onlyIn L c₀ (Channel.approveSwitch x₀ s) := by
  refine Channel.onlyIn_step hL hF ?_
  unfold Channel.approveSwitch
  try dsimp only
  repeat' first | with_reducible exact Channel.onlyIn_refl _ _ | with_reducible apply on_commitSel | with_reducible apply on_ite | with_reducible apply on_ite2 | with_reducible rfl | exact .inl rfl | exact .inr rfl | rfl | with_reducible assumption | intro _ | (split <;> try (rename_i h; first | (have e := congrArg Prod.snd h; dsimp only at e; subst e) | (have e := rxTake_eq h; subst e)))

theorem on_denySwitch {L : List ChPart} {c₀ x₀ : Channel} (s : Servo) (hL : partsIn [.ref, .jour, .asks] L = true) (hF : Channel.onlyIn L c₀ x₀) : Channel.onlyIn L c₀ (Channel.denySwitch x₀ s) := by
  refine Channel.onlyIn_step hL hF ?_
  unfold Channel.denySwitch
  try dsimp only
  repeat' first | with_reducible exact Channel.onlyIn_refl _ _ | with_reducible apply on_cancelPv | with_reducible apply on_setSel | with_reducible apply on_ite | with_reducible apply on_ite2 | with_reducible rfl | exact .inl rfl | exact .inr rfl | rfl | with_reducible assumption | intro _ | (split <;> try (rename_i h; first | (have e := congrArg Prod.snd h; dsimp only at e; subst e) | (have e := rxTake_eq h; subst e)))

theorem on_setDpll {L : List ChPart} {c₀ x₀ : Channel} (d : DpllSt) (hL : partsIn [.dpll] L = true) (hF : Channel.onlyIn L c₀ x₀) : Channel.onlyIn L c₀ (Channel.setDpll x₀ d) := by
  refine Channel.onlyIn_step hL hF ?_
  unfold Channel.setDpll
  try dsimp only
  repeat' first | with_reducible exact Channel.onlyIn_refl _ _ | with_reducible apply on_ite | with_reducible apply on_ite2 | with_reducible rfl | exact .inl rfl | exact .inr rfl | rfl | with_reducible assumption | intro _ | (split <;> try (rename_i h; first | (have e := congrArg Prod.snd h; dsimp only at e; subst e) | (have e := rxTake_eq h; subst e))) | with_reducible apply on_upd

theorem on_stateTo {L : List ChPart} {c₀ x₀ : Channel} (st : ChanSt) (hL : partsIn [.dpll, .jour, .asks] L = true) (hF : Channel.onlyIn L c₀ x₀) : Channel.onlyIn L c₀ (Channel.stateTo x₀ st) := by
  refine Channel.onlyIn_step hL hF ?_
  unfold Channel.stateTo
  try dsimp only
  repeat' first | with_reducible exact Channel.onlyIn_refl _ _ | with_reducible apply on_setDpll | with_reducible apply on_evt | with_reducible apply on_journal | with_reducible apply on_ite | with_reducible apply on_ite2 | with_reducible rfl | exact .inl rfl | exact .inr rfl | rfl | with_reducible assumption | intro _ | (split <;> try (rename_i h; first | (have e := congrArg Prod.snd h; dsimp only at e; subst e) | (have e := rxTake_eq h; subst e)))

theorem on_bStateTo {L : List ChPart} {c₀ x₀ : Channel} (st : BSt) (hL : partsIn [.dpll, .jour, .asks] L = true) (hF : Channel.onlyIn L c₀ x₀) : Channel.onlyIn L c₀ (Channel.bStateTo x₀ st) := by
  refine Channel.onlyIn_step hL hF ?_
  unfold Channel.bStateTo
  try dsimp only
  repeat' first | with_reducible exact Channel.onlyIn_refl _ _ | with_reducible apply on_setDpll | with_reducible apply on_evt | with_reducible apply on_journal | with_reducible apply on_ite | with_reducible apply on_ite2 | with_reducible rfl | exact .inl rfl | exact .inr rfl | rfl | with_reducible assumption | intro _ | (split <;> try (rename_i h; first | (have e := congrArg Prod.snd h; dsimp only at e; subst e) | (have e := rxTake_eq h; subst e)))

theorem on_setRate {L : List ChPart} {c₀ x₀ : Channel} (v : ℤ) (hL : partsIn [.dpll, .asks] L = true) (hF : Channel.onlyIn L c₀ x₀) : Channel.onlyIn L c₀ (Channel.setRate x₀ v) := by
  refine Channel.onlyIn_step hL hF ?_
  unfold Channel.setRate
  try dsimp only
  repeat' first | with_reducible exact Channel.onlyIn_refl _ _ | with_reducible apply on_setDpll | with_reducible apply on_evt | with_reducible apply on_ite | with_reducible apply on_ite2 | with_reducible rfl | exact .inl rfl | exact .inr rfl | rfl | with_reducible assumption | intro _ | (split <;> try (rename_i h; first | (have e := congrArg Prod.snd h; dsimp only at e; subst e) | (have e := rxTake_eq h; subst e)))

theorem on_moveCtr {L : List ChPart} {c₀ x₀ : Channel} (delta : Gt) (hL : partsIn [.dpll] L = true) (hF : Channel.onlyIn L c₀ x₀) : Channel.onlyIn L c₀ (Channel.moveCtr x₀ delta) := by
  refine Channel.onlyIn_step hL hF ?_
  unfold Channel.moveCtr
  try dsimp only
  repeat' first | with_reducible exact Channel.onlyIn_refl _ _ | with_reducible apply on_setDpll | with_reducible apply on_ite | with_reducible apply on_ite2 | with_reducible rfl | exact .inl rfl | exact .inr rfl | rfl | with_reducible assumption | intro _ | (split <;> try (rename_i h; first | (have e := congrArg Prod.snd h; dsimp only at e; subst e) | (have e := rxTake_eq h; subst e)))

theorem on_bookStep {L : List ChPart} {c₀ x₀ : Channel} (org : Origin) (delta : Gt) (hL : partsIn [.asks] L = true) (hF : Channel.onlyIn L c₀ x₀) : Channel.onlyIn L c₀ (Channel.bookStep x₀ org delta) := by
  refine Channel.onlyIn_step hL hF ?_
  unfold Channel.bookStep
  try dsimp only
  repeat' first | with_reducible exact Channel.onlyIn_refl _ _ | with_reducible apply on_bookState | with_reducible apply on_ite | with_reducible apply on_ite2 | with_reducible rfl | exact .inl rfl | exact .inr rfl | rfl | with_reducible assumption | intro _ | (split <;> try (rename_i h; first | (have e := congrArg Prod.snd h; dsimp only at e; subst e) | (have e := rxTake_eq h; subst e)))

theorem on_ringAdd {L : List ChPart} {c₀ x₀ : Channel} (e : RingEnt) (hL : partsIn [.dpll] L = true) (hF : Channel.onlyIn L c₀ x₀) : Channel.onlyIn L c₀ (Channel.ringAdd x₀ e) := by
  refine Channel.onlyIn_step hL hF ?_
  unfold Channel.ringAdd
  try dsimp only
  repeat' first | with_reducible exact Channel.onlyIn_refl _ _ | with_reducible apply on_setDpll | with_reducible apply on_ite | with_reducible apply on_ite2 | with_reducible rfl | exact .inl rfl | exact .inr rfl | rfl | with_reducible assumption | intro _ | (split <;> try (rename_i h; first | (have e := congrArg Prod.snd h; dsimp only at e; subst e) | (have e := rxTake_eq h; subst e)))

theorem on_switchDone {L : List ChPart} {c₀ x₀ : Channel} (s : Servo) (hL : partsIn [.ref] L = true) (hF : Channel.onlyIn L c₀ x₀) : Channel.onlyIn L c₀ (Channel.switchDone x₀ s) := by
  refine Channel.onlyIn_step hL hF ?_
  unfold Channel.switchDone
  try dsimp only
  repeat' first | with_reducible exact Channel.onlyIn_refl _ _ | with_reducible apply on_setSel | with_reducible apply on_ite | with_reducible apply on_ite2 | with_reducible rfl | exact .inl rfl | exact .inr rfl | rfl | with_reducible assumption | intro _ | (split <;> try (rename_i h; first | (have e := congrArg Prod.snd h; dsimp only at e; subst e) | (have e := rxTake_eq h; subst e)))

theorem on_updateState {L : List ChPart} {c₀ x₀ : Channel} (ax : ℕ) (hL : partsIn [.dpll] L = true) (hF : Channel.onlyIn L c₀ x₀) : Channel.onlyIn L c₀ (Channel.updateState x₀ ax) := by
  refine Channel.onlyIn_step hL hF ?_
  unfold Channel.updateState
  try dsimp only
  repeat' first | with_reducible exact Channel.onlyIn_refl _ _ | with_reducible apply on_setDpll | with_reducible apply on_ite | with_reducible apply on_ite2 | with_reducible rfl | exact .inl rfl | exact .inr rfl | rfl | with_reducible assumption | intro _ | (split <;> try (rename_i h; first | (have e := congrArg Prod.snd h; dsimp only at e; subst e) | (have e := rxTake_eq h; subst e)))

theorem on_applyA {L : List ChPart} {c₀ x₀ : Channel} (r : MeasRec) (hL : partsIn [.dpll, .jour, .syn, .asks] L = true) (hF : Channel.onlyIn L c₀ x₀) : Channel.onlyIn L c₀ (Channel.applyA x₀ r) := by
  refine Channel.onlyIn_step hL hF ?_
  unfold Channel.applyA
  try dsimp only
  repeat' first | with_reducible exact Channel.onlyIn_refl _ _ | with_reducible apply on_moveCtr | with_reducible apply on_evt | with_reducible apply on_bookStep | with_reducible apply on_setDpll | with_reducible apply on_setRate | with_reducible apply on_ringAdd | with_reducible apply on_updateState | with_reducible apply on_journal | with_reducible apply on_stateTo | with_reducible apply on_ite | with_reducible apply on_ite2 | with_reducible rfl | exact .inl rfl | exact .inr rfl | rfl | with_reducible assumption | intro _ | (split <;> try (rename_i h; first | (have e := congrArg Prod.snd h; dsimp only at e; subst e) | (have e := rxTake_eq h; subst e))) | with_reducible apply on_upd

theorem on_applyB {L : List ChPart} {c₀ x₀ : Channel} (r : MeasRec) (hL : partsIn [.dpll, .jour, .asks] L = true) (hF : Channel.onlyIn L c₀ x₀) : Channel.onlyIn L c₀ (Channel.applyB x₀ r) := by
  refine Channel.onlyIn_step hL hF ?_
  unfold Channel.applyB
  try dsimp only
  repeat' first | with_reducible exact Channel.onlyIn_refl _ _ | with_reducible apply on_setDpll | with_reducible apply on_bStateTo | with_reducible apply on_journal | with_reducible apply on_ite | with_reducible apply on_ite2 | with_reducible rfl | exact .inl rfl | exact .inr rfl | rfl | with_reducible assumption | intro _ | (split <;> try (rename_i h; first | (have e := congrArg Prod.snd h; dsimp only at e; subst e) | (have e := rxTake_eq h; subst e)))

theorem on_applyNext {L : List ChPart} {c₀ x₀ : Channel} (s : Servo) (n : ℕ) (hL : partsIn [.ref, .dpll, .jour, .syn, .asks] L = true) (hF : Channel.onlyIn L c₀ x₀) : Channel.onlyIn L c₀ (Channel.applyNext s n x₀) := by
  refine Channel.onlyIn_step hL hF ?_
  clear hF
  induction n generalizing x₀ with
  | zero => exact Channel.onlyIn_refl _ _
  | succ n ih =>
    have h1 : ∀ ws, Channel.onlyIn [.ref, .dpll, .jour, .syn, .asks] x₀ (x₀.setDpll { x₀.dpll with waitA := ws }) := fun _ => on_setDpll _ rfl (Channel.onlyIn_refl _ _)
    have h2 : ∀ ws, Channel.onlyIn [.ref, .dpll, .jour, .syn, .asks] x₀ (x₀.setDpll { x₀.dpll with waitB := ws }) := fun _ => on_setDpll _ rfl (Channel.onlyIn_refl _ _)
    unfold Channel.applyNext
    cases s <;> dsimp only <;> split
    · exact Channel.onlyIn_refl _ _
    · split
      · exact Channel.onlyIn_trans (h1 _) ih
      all_goals repeat' first | contradiction | exact h1 _ | with_reducible apply on_applyA | with_reducible apply on_setDpll | with_reducible apply on_switchDone | rfl
    · exact Channel.onlyIn_refl _ _
    · split
      · exact Channel.onlyIn_trans (h2 _) ih
      all_goals repeat' first | contradiction | exact h2 _ | with_reducible apply on_applyB | with_reducible apply on_setDpll | with_reducible apply on_switchDone | rfl

theorem on_servoA {L : List ChPart} {c₀ x₀ : Channel} (hL : partsIn [.ref, .dpll, .jour, .syn, .asks] L = true) (hF : Channel.onlyIn L c₀ x₀) : Channel.onlyIn L c₀ (Channel.servoA x₀) := by
  refine Channel.onlyIn_step hL hF ?_
  unfold Channel.servoA
  try dsimp only
  repeat' first | with_reducible exact Channel.onlyIn_refl _ _ | with_reducible apply on_applyNext | with_reducible apply on_ite | with_reducible apply on_ite2 | with_reducible rfl | exact .inl rfl | exact .inr rfl | rfl | with_reducible assumption | intro _ | (split <;> try (rename_i h; first | (have e := congrArg Prod.snd h; dsimp only at e; subst e) | (have e := rxTake_eq h; subst e)))

theorem on_servoB {L : List ChPart} {c₀ x₀ : Channel} (hL : partsIn [.ref, .dpll, .jour, .syn, .asks] L = true) (hF : Channel.onlyIn L c₀ x₀) : Channel.onlyIn L c₀ (Channel.servoB x₀) := by
  refine Channel.onlyIn_step hL hF ?_
  unfold Channel.servoB
  try dsimp only
  repeat' first | with_reducible exact Channel.onlyIn_refl _ _ | with_reducible apply on_applyNext | with_reducible apply on_ite | with_reducible apply on_ite2 | with_reducible rfl | exact .inl rfl | exact .inr rfl | rfl | with_reducible assumption | intro _ | (split <;> try (rename_i h; first | (have e := congrArg Prod.snd h; dsimp only at e; subst e) | (have e := rxTake_eq h; subst e)))

theorem on_applyAll {L : List ChPart} {c₀ x₀ : Channel} (hL : partsIn [.ref, .dpll, .jour, .syn, .asks] L = true) (hF : Channel.onlyIn L c₀ x₀) : Channel.onlyIn L c₀ (Channel.applyAll x₀) := by
  refine Channel.onlyIn_step hL hF ?_
  unfold Channel.applyAll
  try dsimp only
  repeat' first | with_reducible exact Channel.onlyIn_refl _ _ | with_reducible apply on_servoA | with_reducible apply on_servoB | with_reducible apply on_ite | with_reducible apply on_ite2 | with_reducible apply on_iter | with_reducible rfl | exact .inl rfl | exact .inr rfl | rfl | with_reducible assumption | intro _ | (split <;> try (rename_i h; first | (have e := congrArg Prod.snd h; dsimp only at e; subst e) | (have e := rxTake_eq h; subst e)))

theorem on_acquireStart {L : List ChPart} {c₀ x₀ : Channel} (hL : partsIn [.dpll, .jour, .asks] L = true) (hF : Channel.onlyIn L c₀ x₀) : Channel.onlyIn L c₀ (Channel.acquireStart x₀) := by
  refine Channel.onlyIn_step hL hF ?_
  unfold Channel.acquireStart
  try dsimp only
  repeat' first | with_reducible exact Channel.onlyIn_refl _ _ | with_reducible apply on_stateTo | with_reducible apply on_setDpll | with_reducible apply on_ite | with_reducible apply on_ite2 | with_reducible rfl | exact .inl rfl | exact .inr rfl | rfl | with_reducible assumption | intro _ | (split <;> try (rename_i h; first | (have e := congrArg Prod.snd h; dsimp only at e; subst e) | (have e := rxTake_eq h; subst e)))

theorem on_enterHo {L : List ChPart} {c₀ x₀ : Channel} (entry : Gt) (h : Bound) (hL : partsIn [.dpll, .jour, .asks] L = true) (hF : Channel.onlyIn L c₀ x₀) : Channel.onlyIn L c₀ (Channel.enterHo x₀ entry h) := by
  refine Channel.onlyIn_step hL hF ?_
  unfold Channel.enterHo
  try dsimp only
  repeat' first | with_reducible exact Channel.onlyIn_refl _ _ | with_reducible apply on_stateTo | with_reducible apply on_setDpll | with_reducible apply on_ite | with_reducible apply on_ite2 | with_reducible rfl | exact .inl rfl | exact .inr rfl | rfl | with_reducible assumption | intro _ | (split <;> try (rename_i h; first | (have e := congrArg Prod.snd h; dsimp only at e; subst e) | (have e := rxTake_eq h; subst e)))

theorem on_loseLaneA {L : List ChPart} {c₀ x₀ : Channel} (hL : partsIn [.dpll, .jour, .asks] L = true) (hF : Channel.onlyIn L c₀ x₀) : Channel.onlyIn L c₀ (Channel.loseLaneA x₀) := by
  refine Channel.onlyIn_step hL hF ?_
  unfold Channel.loseLaneA
  try dsimp only
  repeat' first | with_reducible exact Channel.onlyIn_refl _ _ | with_reducible apply on_enterHo | with_reducible apply on_stateTo | with_reducible apply on_setDpll | with_reducible apply on_ite | with_reducible apply on_ite2 | with_reducible rfl | exact .inl rfl | exact .inr rfl | rfl | with_reducible assumption | intro _ | (split <;> try (rename_i h; first | (have e := congrArg Prod.snd h; dsimp only at e; subst e) | (have e := rxTake_eq h; subst e)))

theorem on_loseLaneB {L : List ChPart} {c₀ x₀ : Channel} (hL : partsIn [.dpll, .jour, .asks] L = true) (hF : Channel.onlyIn L c₀ x₀) : Channel.onlyIn L c₀ (Channel.loseLaneB x₀) := by
  refine Channel.onlyIn_step hL hF ?_
  unfold Channel.loseLaneB
  try dsimp only
  repeat' first | with_reducible exact Channel.onlyIn_refl _ _ | with_reducible apply on_bStateTo | with_reducible apply on_setDpll | with_reducible apply on_ite | with_reducible apply on_ite2 | with_reducible rfl | exact .inl rfl | exact .inr rfl | rfl | with_reducible assumption | intro _ | (split <;> try (rename_i h; first | (have e := congrArg Prod.snd h; dsimp only at e; subst e) | (have e := rxTake_eq h; subst e)))

theorem on_holdoverEntry {L : List ChPart} {c₀ x₀ : Channel} (hL : partsIn [.dpll, .jour, .asks] L = true) (hF : Channel.onlyIn L c₀ x₀) : Channel.onlyIn L c₀ (Channel.holdoverEntry x₀) := by
  refine Channel.onlyIn_step hL hF ?_
  unfold Channel.holdoverEntry
  try dsimp only
  repeat' first | with_reducible exact Channel.onlyIn_refl _ _ | with_reducible apply on_loseLaneB | with_reducible apply on_loseLaneA | with_reducible apply on_ite | with_reducible apply on_ite2 | with_reducible rfl | exact .inl rfl | exact .inr rfl | rfl | with_reducible assumption | intro _ | (split <;> try (rename_i h; first | (have e := congrArg Prod.snd h; dsimp only at e; subst e) | (have e := rxTake_eq h; subst e)))

theorem on_limitEntry {L : List ChPart} {c₀ x₀ : Channel} (hL : partsIn [.dpll, .jour, .asks] L = true) (hF : Channel.onlyIn L c₀ x₀) : Channel.onlyIn L c₀ (Channel.limitEntry x₀) := by
  refine Channel.onlyIn_step hL hF ?_
  unfold Channel.limitEntry
  try dsimp only
  repeat' first | with_reducible exact Channel.onlyIn_refl _ _ | with_reducible apply on_stateTo | with_reducible apply on_evt | with_reducible apply on_ite | with_reducible apply on_ite2 | with_reducible rfl | exact .inl rfl | exact .inr rfl | rfl | with_reducible assumption | intro _ | (split <;> try (rename_i h; first | (have e := congrArg Prod.snd h; dsimp only at e; subst e) | (have e := rxTake_eq h; subst e)))

theorem on_hoAging {L : List ChPart} {c₀ x₀ : Channel} (hL : partsIn [.dpll, .asks] L = true) (hF : Channel.onlyIn L c₀ x₀) : Channel.onlyIn L c₀ (Channel.hoAging x₀) := by
  refine Channel.onlyIn_step hL hF ?_
  unfold Channel.hoAging
  try dsimp only
  repeat' first | with_reducible exact Channel.onlyIn_refl _ _ | with_reducible apply on_setRate | with_reducible apply on_setDpll | with_reducible apply on_ite | with_reducible apply on_ite2 | with_reducible rfl | exact .inl rfl | exact .inr rfl | rfl | with_reducible assumption | intro _ | (split <;> try (rename_i h; first | (have e := congrArg Prod.snd h; dsimp only at e; subst e) | (have e := rxTake_eq h; subst e)))

theorem on_charJournal {L : List ChPart} {c₀ x₀ : Channel} (org : Origin) (v : ℕ) (hL : partsIn [.jour, .asks] L = true) (hF : Channel.onlyIn L c₀ x₀) : Channel.onlyIn L c₀ (Channel.charJournal x₀ org v) := by
  refine Channel.onlyIn_step hL hF ?_
  unfold Channel.charJournal
  try dsimp only
  repeat' first | with_reducible exact Channel.onlyIn_refl _ _ | with_reducible apply on_journal | with_reducible apply on_ite | with_reducible apply on_ite2 | with_reducible rfl | exact .inl rfl | exact .inr rfl | rfl | with_reducible assumption | intro _ | (split <;> try (rename_i h; first | (have e := congrArg Prod.snd h; dsimp only at e; subst e) | (have e := rxTake_eq h; subst e)))

theorem on_charStart {L : List ChPart} {c₀ x₀ : Channel} (slot : ℕ) (nsamp : ℕ) (org : Origin) (hL : partsIn [.dpll, .jour, .asks] L = true) (hF : Channel.onlyIn L c₀ x₀) : Channel.onlyIn L c₀ (Channel.charStart x₀ slot nsamp org) := by
  refine Channel.onlyIn_step hL hF ?_
  unfold Channel.charStart
  try dsimp only
  repeat' first | with_reducible exact Channel.onlyIn_refl _ _ | with_reducible apply on_charJournal | with_reducible apply on_setDpll | with_reducible apply on_ite | with_reducible apply on_ite2 | with_reducible rfl | exact .inl rfl | exact .inr rfl | rfl | with_reducible assumption | intro _ | (split <;> try (rename_i h; first | (have e := congrArg Prod.snd h; dsimp only at e; subst e) | (have e := rxTake_eq h; subst e)))

theorem on_charEnd {L : List ChPart} {c₀ x₀ : Channel} (result : ℕ) (hL : partsIn [.dpll, .jour, .asks] L = true) (hF : Channel.onlyIn L c₀ x₀) : Channel.onlyIn L c₀ (Channel.charEnd x₀ result) := by
  refine Channel.onlyIn_step hL hF ?_
  unfold Channel.charEnd
  try dsimp only
  repeat' first | with_reducible exact Channel.onlyIn_refl _ _ | with_reducible apply on_charJournal | with_reducible apply on_setDpll | with_reducible apply on_ite | with_reducible apply on_ite2 | with_reducible rfl | exact .inl rfl | exact .inr rfl | rfl | with_reducible assumption | intro _ | (split <;> try (rename_i h; first | (have e := congrArg Prod.snd h; dsimp only at e; subst e) | (have e := rxTake_eq h; subst e)))

theorem on_charSample {L : List ChPart} {c₀ x₀ : Channel} (hL : partsIn [.dpll, .jour, .asks] L = true) (hF : Channel.onlyIn L c₀ x₀) : Channel.onlyIn L c₀ (Channel.charSample x₀) := by
  refine Channel.onlyIn_step hL hF ?_
  unfold Channel.charSample
  try dsimp only
  repeat' first | with_reducible exact Channel.onlyIn_refl _ _ | with_reducible apply on_setDpll | with_reducible apply on_setWord | with_reducible apply on_put | with_reducible apply on_evt | with_reducible apply on_ask | with_reducible apply on_charEnd | with_reducible apply on_ite | with_reducible apply on_ite2 | with_reducible rfl | exact .inl rfl | exact .inr rfl | rfl | with_reducible assumption | intro _ | (split <;> try (rename_i h; first | (have e := congrArg Prod.snd h; dsimp only at e; subst e) | (have e := rxTake_eq h; subst e)))

theorem on_doStep {L : List ChPart} {c₀ x₀ : Channel} (delta : Gt) (org : Origin) (hL : partsIn [.dpll, .jour, .asks] L = true) (hF : Channel.onlyIn L c₀ x₀) : Channel.onlyIn L c₀ (Channel.doStep x₀ delta org) := by
  refine Channel.onlyIn_step hL hF ?_
  unfold Channel.doStep
  try dsimp only
  repeat' first | with_reducible exact Channel.onlyIn_refl _ _ | with_reducible apply on_setDpll | with_reducible apply on_moveCtr | with_reducible apply on_journal | with_reducible apply on_bumpBy | with_reducible apply on_evt | with_reducible apply on_bookStep | with_reducible apply on_ite | with_reducible apply on_ite2 | with_reducible rfl | exact .inl rfl | exact .inr rfl | rfl | with_reducible assumption | intro _ | (split <;> try (rename_i h; first | (have e := congrArg Prod.snd h; dsimp only at e; subst e) | (have e := rxTake_eq h; subst e)))

theorem on_stepGo {L : List ChPart} {c₀ x₀ : Channel} (org : Origin) (hL : partsIn [.dpll, .asks] L = true) (hF : Channel.onlyIn L c₀ x₀) : Channel.onlyIn L c₀ (Channel.stepGo x₀ org) := by
  refine Channel.onlyIn_step hL hF ?_
  unfold Channel.stepGo
  try dsimp only
  repeat' first | with_reducible exact Channel.onlyIn_refl _ _ | with_reducible apply on_evt | with_reducible apply on_put | with_reducible apply on_setDpll | with_reducible apply on_ite | with_reducible apply on_ite2 | with_reducible rfl | exact .inl rfl | exact .inr rfl | rfl | with_reducible assumption | intro _ | (split <;> try (rename_i h; first | (have e := congrArg Prod.snd h; dsimp only at e; subst e) | (have e := rxTake_eq h; subst e)))

theorem on_stepAbort {L : List ChPart} {c₀ x₀ : Channel} (hL : partsIn [.dpll, .asks] L = true) (hF : Channel.onlyIn L c₀ x₀) : Channel.onlyIn L c₀ (Channel.stepAbort x₀) := by
  refine Channel.onlyIn_step hL hF ?_
  unfold Channel.stepAbort
  try dsimp only
  repeat' first | with_reducible exact Channel.onlyIn_refl _ _ | with_reducible apply on_put | with_reducible apply on_setDpll | with_reducible apply on_evt | with_reducible apply on_ite | with_reducible apply on_ite2 | with_reducible rfl | exact .inl rfl | exact .inr rfl | rfl | with_reducible assumption | intro _ | (split <;> try (rename_i h; first | (have e := congrArg Prod.snd h; dsimp only at e; subst e) | (have e := rxTake_eq h; subst e)))

theorem on_stepAbs {L : List ChPart} {c₀ x₀ : Channel} (hL : partsIn [.dpll, .jour, .asks] L = true) (hF : Channel.onlyIn L c₀ x₀) : Channel.onlyIn L c₀ (Channel.stepAbs x₀) := by
  refine Channel.onlyIn_step hL hF ?_
  unfold Channel.stepAbs
  try dsimp only
  repeat' first | with_reducible exact Channel.onlyIn_refl _ _ | with_reducible apply on_put | with_reducible apply on_setDpll | with_reducible apply on_doStep | with_reducible apply on_ite | with_reducible apply on_ite2 | with_reducible rfl | exact .inl rfl | exact .inr rfl | rfl | with_reducible assumption | intro _ | (split <;> try (rename_i h; first | (have e := congrArg Prod.snd h; dsimp only at e; subst e) | (have e := rxTake_eq h; subst e)))

theorem on_advanceTime {L : List ChPart} {c₀ x₀ : Channel} (hL : partsIn [.dpll, .syn] L = true) (hF : Channel.onlyIn L c₀ x₀) : Channel.onlyIn L c₀ (Channel.advanceTime x₀) := by
  refine Channel.onlyIn_step hL hF ?_
  unfold Channel.advanceTime
  try dsimp only
  repeat' first | with_reducible exact Channel.onlyIn_refl _ _ | with_reducible apply on_ite | with_reducible apply on_ite2 | with_reducible rfl | exact .inl rfl | exact .inr rfl | rfl | with_reducible assumption | intro _ | (split <;> try (rename_i h; first | (have e := congrArg Prod.snd h; dsimp only at e; subst e) | (have e := rxTake_eq h; subst e))) | with_reducible apply on_upd

theorem on_stepDue {L : List ChPart} {c₀ x₀ : Channel} (hL : partsIn [.ref, .dpll, .jour, .syn, .asks] L = true) (hF : Channel.onlyIn L c₀ x₀) : Channel.onlyIn L c₀ (Channel.stepDue x₀) := by
  refine Channel.onlyIn_step hL hF ?_
  unfold Channel.stepDue
  try dsimp only
  repeat' first | with_reducible exact Channel.onlyIn_refl _ _ | with_reducible apply on_applyAll | with_reducible apply on_doStep | with_reducible apply on_setDpll | with_reducible apply on_ite | with_reducible apply on_ite2 | with_reducible rfl | exact .inl rfl | exact .inr rfl | rfl | with_reducible assumption | intro _ | (split <;> try (rename_i h; first | (have e := congrArg Prod.snd h; dsimp only at e; subst e) | (have e := rxTake_eq h; subst e)))

theorem on_beginTick {L : List ChPart} {c₀ x₀ : Channel} (sync : LaneIx → ℕ) (hL : partsIn [.ref, .dpll, .jour, .syn, .asks] L = true) (hF : Channel.onlyIn L c₀ x₀) : Channel.onlyIn L c₀ (Channel.beginTick x₀ sync) := by
  refine Channel.onlyIn_step hL hF ?_
  unfold Channel.beginTick
  try dsimp only
  repeat' first | with_reducible exact Channel.onlyIn_refl _ _ | with_reducible apply on_stepDue | with_reducible apply on_registerDue | with_reducible apply on_ite | with_reducible apply on_ite2 | with_reducible rfl | exact .inl rfl | exact .inr rfl | rfl | with_reducible assumption | intro _ | (split <;> try (rename_i h; first | (have e := congrArg Prod.snd h; dsimp only at e; subst e) | (have e := rxTake_eq h; subst e)))

theorem on_setSyn {L : List ChPart} {c₀ x₀ : Channel} (y : SynBlk) (hL : partsIn [.syn] L = true) (hF : Channel.onlyIn L c₀ x₀) : Channel.onlyIn L c₀ (Channel.setSyn x₀ y) := by
  refine Channel.onlyIn_step hL hF ?_
  unfold Channel.setSyn
  try dsimp only
  repeat' first | with_reducible exact Channel.onlyIn_refl _ _ | with_reducible apply on_ite | with_reducible apply on_ite2 | with_reducible rfl | exact .inl rfl | exact .inr rfl | rfl | with_reducible assumption | intro _ | (split <;> try (rename_i h; first | (have e := congrArg Prod.snd h; dsimp only at e; subst e) | (have e := rxTake_eq h; subst e))) | with_reducible apply on_upd

theorem on_setSynK {L : List ChPart} {c₀ x₀ : Channel} (k : ℕ) (x : SynK) (hL : partsIn [.syn] L = true) (hF : Channel.onlyIn L c₀ x₀) : Channel.onlyIn L c₀ (Channel.setSynK x₀ k x) := by
  refine Channel.onlyIn_step hL hF ?_
  unfold Channel.setSynK
  try dsimp only
  repeat' first | with_reducible exact Channel.onlyIn_refl _ _ | with_reducible apply on_setSyn | with_reducible apply on_ite | with_reducible apply on_ite2 | with_reducible rfl | exact .inl rfl | exact .inr rfl | rfl | with_reducible assumption | intro _ | (split <;> try (rename_i h; first | (have e := congrArg Prod.snd h; dsimp only at e; subst e) | (have e := rxTake_eq h; subst e)))

theorem on_setSynK' {L : List ChPart} {c₀ x₀ : Channel} (k : ℕ) (f : SynK → SynK) (hL : partsIn [.syn] L = true) (hF : Channel.onlyIn L c₀ x₀) : Channel.onlyIn L c₀ (Channel.setSynK' x₀ k f) := by
  refine Channel.onlyIn_step hL hF ?_
  unfold Channel.setSynK'
  try dsimp only
  repeat' first | with_reducible exact Channel.onlyIn_refl _ _ | with_reducible apply on_setSynK | with_reducible apply on_ite | with_reducible apply on_ite2 | with_reducible rfl | exact .inl rfl | exact .inr rfl | rfl | with_reducible assumption | intro _ | (split <;> try (rename_i h; first | (have e := congrArg Prod.snd h; dsimp only at e; subst e) | (have e := rxTake_eq h; subst e)))

theorem on_updOut {L : List ChPart} {c₀ x₀ : Channel} (m : Fin 8) (f : OutSt → OutSt) (hL : partsIn [.syn] L = true) (hF : Channel.onlyIn L c₀ x₀) : Channel.onlyIn L c₀ (Channel.updOut x₀ m f) := by
  refine Channel.onlyIn_step hL hF ?_
  unfold Channel.updOut
  try dsimp only
  repeat' first | with_reducible exact Channel.onlyIn_refl _ _ | with_reducible apply on_setSyn | with_reducible apply on_ite | with_reducible apply on_ite2 | with_reducible rfl | exact .inl rfl | exact .inr rfl | rfl | with_reducible assumption | intro _ | (split <;> try (rename_i h; first | (have e := congrArg Prod.snd h; dsimp only at e; subst e) | (have e := rxTake_eq h; subst e)))

theorem on_updPls {L : List ChPart} {c₀ x₀ : Channel} (j : Fin 2) (f : PlsSt → PlsSt) (hL : partsIn [.syn] L = true) (hF : Channel.onlyIn L c₀ x₀) : Channel.onlyIn L c₀ (Channel.updPls x₀ j f) := by
  refine Channel.onlyIn_step hL hF ?_
  unfold Channel.updPls
  try dsimp only
  repeat' first | with_reducible exact Channel.onlyIn_refl _ _ | with_reducible apply on_setSyn | with_reducible apply on_ite | with_reducible apply on_ite2 | with_reducible rfl | exact .inl rfl | exact .inr rfl | rfl | with_reducible assumption | intro _ | (split <;> try (rename_i h; first | (have e := congrArg Prod.snd h; dsimp only at e; subst e) | (have e := rxTake_eq h; subst e)))

theorem on_stopOut {L : List ChPart} {c₀ x₀ : Channel} (m : Fin 8) (planned : Bool) (f : OutSt → OutSt) (hL : partsIn [.syn] L = true) (hF : Channel.onlyIn L c₀ x₀) : Channel.onlyIn L c₀ (Channel.stopOut x₀ m planned f) := by
  refine Channel.onlyIn_step hL hF ?_
  unfold Channel.stopOut
  try dsimp only
  repeat' first | with_reducible exact Channel.onlyIn_refl _ _ | with_reducible apply on_updOut | with_reducible apply on_ite | with_reducible apply on_ite2 | with_reducible rfl | exact .inl rfl | exact .inr rfl | rfl | with_reducible assumption | intro _ | (split <;> try (rename_i h; first | (have e := congrArg Prod.snd h; dsimp only at e; subst e) | (have e := rxTake_eq h; subst e)))

theorem on_release {L : List ChPart} {c₀ x₀ : Channel} (m : Fin 8) (f : OutSt → OutSt) (hL : partsIn [.syn] L = true) (hF : Channel.onlyIn L c₀ x₀) : Channel.onlyIn L c₀ (Channel.release x₀ m f) := by
  refine Channel.onlyIn_step hL hF ?_
  unfold Channel.release
  try dsimp only
  repeat' first | with_reducible exact Channel.onlyIn_refl _ _ | with_reducible apply on_updOut | with_reducible apply on_ite | with_reducible apply on_ite2 | with_reducible rfl | exact .inl rfl | exact .inr rfl | rfl | with_reducible assumption | intro _ | (split <;> try (rename_i h; first | (have e := congrArg Prod.snd h; dsimp only at e; subst e) | (have e := rxTake_eq h; subst e)))

theorem on_synTo {L : List ChPart} {c₀ x₀ : Channel} (k : ℕ) (st : ℕ) (hL : partsIn [.syn, .asks] L = true) (hF : Channel.onlyIn L c₀ x₀) : Channel.onlyIn L c₀ (Channel.synTo x₀ k st) := by
  refine Channel.onlyIn_step hL hF ?_
  unfold Channel.synTo
  try dsimp only
  repeat' first | with_reducible exact Channel.onlyIn_refl _ _ | with_reducible apply on_evt | with_reducible apply on_put | with_reducible apply on_ite | with_reducible apply on_ite2 | with_reducible rfl | exact .inl rfl | exact .inr rfl | rfl | with_reducible assumption | intro _ | (split <;> try (rename_i h; first | (have e := congrArg Prod.snd h; dsimp only at e; subst e) | (have e := rxTake_eq h; subst e)))

theorem on_toAcq {L : List ChPart} {c₀ x₀ : Channel} (k : ℕ) (stop : Bool) (planned : Bool) (hL : partsIn [.syn, .asks] L = true) (hF : Channel.onlyIn L c₀ x₀) : Channel.onlyIn L c₀ (Channel.toAcq x₀ k stop planned) := by
  refine Channel.onlyIn_step hL hF ?_
  unfold Channel.toAcq
  try dsimp only
  repeat' first | with_reducible exact Channel.onlyIn_refl _ _ | with_reducible apply on_setSynK | with_reducible apply on_synTo | with_reducible apply on_release | with_reducible apply on_stopOut | with_reducible apply on_updOut | with_reducible apply on_ite | with_reducible apply on_ite2 | with_reducible apply on_fold | with_reducible apply on_fold2 | with_reducible rfl | exact .inl rfl | exact .inr rfl | rfl | with_reducible assumption | intro _ | (split <;> try (rename_i h; first | (have e := congrArg Prod.snd h; dsimp only at e; subst e) | (have e := rxTake_eq h; subst e)))

theorem on_toCoast {L : List ChPart} {c₀ x₀ : Channel} (k : ℕ) (flag : KF) (hb : L.contains flag.blk.part = true) (hL : partsIn [.syn, .asks] L = true) (hF : Channel.onlyIn L c₀ x₀) : Channel.onlyIn L c₀ (Channel.toCoast x₀ k flag) := by
  refine Channel.onlyIn_trans hF ?_
  unfold Channel.toCoast
  try dsimp only
  repeat' first | with_reducible exact Channel.onlyIn_refl _ _ | with_reducible apply on_bump | with_reducible apply on_evt | with_reducible apply on_synTo | with_reducible apply on_stopOut | with_reducible apply on_updOut | with_reducible apply on_ite | with_reducible apply on_ite2 | with_reducible apply on_fold | with_reducible apply on_fold2 | with_reducible rfl | exact .inl rfl | exact .inr rfl | rfl | with_reducible assumption | exact partsIn_trans rfl hL | exact partsIn_mem rfl hL | exact .inl (partsIn_mem rfl hL) | intro _ | (split <;> try (rename_i h; first | (have e := congrArg Prod.snd h; dsimp only at e; subst e) | (have e := rxTake_eq h; subst e)))

theorem on_setPerr {L : List ChPart} {c₀ x₀ : Channel} (k : ℕ) (e : ℤ) (hL : partsIn [.syn] L = true) (hF : Channel.onlyIn L c₀ x₀) : Channel.onlyIn L c₀ (Channel.setPerr x₀ k e) := by
  refine Channel.onlyIn_step hL hF ?_
  unfold Channel.setPerr
  try dsimp only
  repeat' first | with_reducible exact Channel.onlyIn_refl _ _ | with_reducible apply on_put | with_reducible apply on_ite | with_reducible apply on_ite2 | with_reducible rfl | exact .inl rfl | exact .inr rfl | rfl | with_reducible assumption | intro _ | (split <;> try (rename_i h; first | (have e := congrArg Prod.snd h; dsimp only at e; subst e) | (have e := rxTake_eq h; subst e)))

theorem on_seenErr {L : List ChPart} {c₀ x₀ : Channel} (k : ℕ) (a2 : LockSense) (hL : partsIn [.syn] L = true) (hF : Channel.onlyIn L c₀ x₀) : Channel.onlyIn L c₀ (Channel.seenErr x₀ k a2) := by
  refine Channel.onlyIn_step hL hF ?_
  unfold Channel.seenErr
  try dsimp only
  repeat' first | with_reducible exact Channel.onlyIn_refl _ _ | with_reducible apply on_setPerr | with_reducible apply on_ite | with_reducible apply on_ite2 | with_reducible rfl | exact .inl rfl | exact .inr rfl | rfl | with_reducible assumption | intro _ | (split <;> try (rename_i h; first | (have e := congrArg Prod.snd h; dsimp only at e; subst e) | (have e := rxTake_eq h; subst e)))

theorem on_lockDeclared {L : List ChPart} {c₀ x₀ : Channel} (k : ℕ) (e : LockSense) (hL : partsIn [.syn, .asks] L = true) (hF : Channel.onlyIn L c₀ x₀) : Channel.onlyIn L c₀ (Channel.lockDeclared x₀ k e) := by
  refine Channel.onlyIn_step hL hF ?_
  unfold Channel.lockDeclared
  try dsimp only
  repeat' first | with_reducible exact Channel.onlyIn_refl _ _ | with_reducible apply on_seenErr | with_reducible apply on_synTo | with_reducible apply on_put | with_reducible apply on_release | with_reducible apply on_ite | with_reducible apply on_ite2 | with_reducible apply on_fold | with_reducible apply on_fold2 | with_reducible rfl | exact .inl rfl | exact .inr rfl | rfl | with_reducible assumption | intro _ | (split <;> try (rename_i h; first | (have e := congrArg Prod.snd h; dsimp only at e; subst e) | (have e := rxTake_eq h; subst e)))

theorem on_lockLost {L : List ChPart} {c₀ x₀ : Channel} (k : ℕ) (e : LockSense) (hL : partsIn [.syn, .asks] L = true) (hF : Channel.onlyIn L c₀ x₀) : Channel.onlyIn L c₀ (Channel.lockLost x₀ k e) := by
  refine Channel.onlyIn_step hL hF ?_
  unfold Channel.lockLost
  try dsimp only
  repeat' first | with_reducible exact Channel.onlyIn_refl _ _ | with_reducible apply on_seenErr | with_reducible apply on_toCoast | with_reducible apply on_put | with_reducible apply on_ite | with_reducible apply on_ite2 | with_reducible rfl | exact .inl rfl | exact .inr rfl | rfl | with_reducible assumption | intro _ | (split <;> try (rename_i h; first | (have e := congrArg Prod.snd h; dsimp only at e; subst e) | (have e := rxTake_eq h; subst e)))

theorem on_refLoss {L : List ChPart} {c₀ x₀ : Channel} (k : ℕ) (hL : partsIn [.syn, .asks] L = true) (hF : Channel.onlyIn L c₀ x₀) : Channel.onlyIn L c₀ (Channel.refLoss x₀ k) := by
  refine Channel.onlyIn_step hL hF ?_
  unfold Channel.refLoss
  try dsimp only
  repeat' first | with_reducible exact Channel.onlyIn_refl _ _ | with_reducible apply on_toCoast | with_reducible apply on_ite | with_reducible apply on_ite2 | with_reducible rfl | exact .inl rfl | exact .inr rfl | rfl | with_reducible assumption | intro _ | (split <;> try (rename_i h; first | (have e := congrArg Prod.snd h; dsimp only at e; subst e) | (have e := rxTake_eq h; subst e)))

theorem on_noLock {L : List ChPart} {c₀ x₀ : Channel} (k : ℕ) (hL : partsIn [.syn, .asks] L = true) (hF : Channel.onlyIn L c₀ x₀) : Channel.onlyIn L c₀ (Channel.noLock x₀ k) := by
  refine Channel.onlyIn_step hL hF ?_
  unfold Channel.noLock
  try dsimp only
  repeat' first | with_reducible exact Channel.onlyIn_refl _ _ | with_reducible apply on_ask | with_reducible apply on_evt | with_reducible apply on_setSynK | with_reducible apply on_ite | with_reducible apply on_ite2 | with_reducible rfl | exact .inl rfl | exact .inr rfl | rfl | with_reducible assumption | intro _ | (split <;> try (rename_i h; first | (have e := congrArg Prod.snd h; dsimp only at e; subst e) | (have e := rxTake_eq h; subst e)))

theorem on_takeStaged {L : List ChPart} {c₀ x₀ : Channel} (st : List (ℕ × Word)) (offs : List ℕ) (hL : partsIn [.syn] L = true) (hF : Channel.onlyIn L c₀ x₀) : Channel.onlyIn L c₀ (Channel.takeStaged x₀ st offs) := by
  refine Channel.onlyIn_step hL hF ?_
  unfold Channel.takeStaged
  try dsimp only
  repeat' first | with_reducible exact Channel.onlyIn_refl _ _ | with_reducible apply on_setRf | with_reducible apply on_ite | with_reducible apply on_ite2 | with_reducible apply on_fold | with_reducible apply on_fold2 | with_reducible rfl | exact .inl rfl | exact .inr rfl | rfl | with_reducible assumption | intro _ | (split <;> try (rename_i h; first | (have e := congrArg Prod.snd h; dsimp only at e; subst e) | (have e := rxTake_eq h; subst e)))

theorem on_stageSettle {L : List ChPart} {c₀ x₀ : Channel} (hL : partsIn [.syn, .asks] L = true) (hF : Channel.onlyIn L c₀ x₀) : Channel.onlyIn L c₀ (Channel.stageSettle x₀) := by
  refine Channel.onlyIn_step hL hF ?_
  unfold Channel.stageSettle
  try dsimp only
  repeat' first | with_reducible exact Channel.onlyIn_refl _ _ | with_reducible apply on_evt | with_reducible apply on_put | with_reducible apply on_setSyn | with_reducible apply on_ite | with_reducible apply on_ite2 | with_reducible rfl | exact .inl rfl | exact .inr rfl | rfl | with_reducible assumption | intro _ | (split <;> try (rename_i h; first | (have e := congrArg Prod.snd h; dsimp only at e; subst e) | (have e := rxTake_eq h; subst e)))

theorem on_synCommit {L : List ChPart} {c₀ x₀ : Channel} (hL : partsIn [.syn, .asks] L = true) (hF : Channel.onlyIn L c₀ x₀) : Channel.onlyIn L c₀ (Channel.synCommit x₀) := by
  refine Channel.onlyIn_step hL hF ?_
  unfold Channel.synCommit
  try dsimp only
  repeat' first | with_reducible exact Channel.onlyIn_refl _ _ | with_reducible apply on_evt | with_reducible apply on_put | with_reducible apply on_setSyn | with_reducible apply on_ite | with_reducible apply on_ite2 | with_reducible rfl | exact .inl rfl | exact .inr rfl | rfl | with_reducible assumption | intro _ | (split <;> try (rename_i h; first | (have e := congrArg Prod.snd h; dsimp only at e; subst e) | (have e := rxTake_eq h; subst e)))

theorem on_countFrom {L : List ChPart} {c₀ x₀ : Channel} (s : SynStage) (k : ℕ) (b : ℤ) (hL : partsIn [.syn] L = true) (hF : Channel.onlyIn L c₀ x₀) : Channel.onlyIn L c₀ (Channel.countFrom x₀ s k b) := by
  refine Channel.onlyIn_step hL hF ?_
  unfold Channel.countFrom
  try dsimp only
  repeat' first | with_reducible exact Channel.onlyIn_refl _ _ | with_reducible apply on_setSynK | with_reducible apply on_ite | with_reducible apply on_ite2 | with_reducible rfl | exact .inl rfl | exact .inr rfl | rfl | with_reducible assumption | intro _ | (split <;> try (rename_i h; first | (have e := congrArg Prod.snd h; dsimp only at e; subst e) | (have e := rxTake_eq h; subst e)))

theorem on_takePart {L : List ChPart} {c₀ x₀ : Channel} (k : ℕ) (words : List (ℕ × Word)) (f : Channel → Channel) (hf : ∀ v0, Channel.onlyIn L v0 (f v0)) (hL : partsIn [.syn] L = true) (hF : Channel.onlyIn L c₀ x₀) : Channel.onlyIn L c₀ (Channel.takePart x₀ k words f) := by
  refine Channel.onlyIn_trans hF ?_
  unfold Channel.takePart
  try dsimp only
  repeat' first | with_reducible exact Channel.onlyIn_refl _ _ | with_reducible apply on_takeStaged | with_reducible apply on_updOut | with_reducible apply on_ite | with_reducible apply on_ite2 | (refine Channel.onlyIn_trans ?_ (hf _)) | with_reducible apply on_fold | with_reducible apply on_fold2 | with_reducible rfl | exact .inl rfl | exact .inr rfl | rfl | with_reducible assumption | exact partsIn_trans rfl hL | exact partsIn_mem rfl hL | exact .inl (partsIn_mem rfl hL) | intro _ | (split <;> try (rename_i h; first | (have e := congrArg Prod.snd h; dsimp only at e; subst e) | (have e := rxTake_eq h; subst e)))

theorem on_partDone {L : List ChPart} {c₀ x₀ : Channel} (s : SynStage) (k : ℕ) (hL : partsIn [.syn, .asks] L = true) (hF : Channel.onlyIn L c₀ x₀) : Channel.onlyIn L c₀ (Channel.partDone x₀ s k) := by
  refine Channel.onlyIn_step hL hF ?_
  unfold Channel.partDone
  try dsimp only
  repeat' first | with_reducible exact Channel.onlyIn_refl _ _ | with_reducible apply on_stageSettle | with_reducible apply on_setSyn | with_reducible apply on_ite | with_reducible apply on_ite2 | with_reducible rfl | exact .inl rfl | exact .inr rfl | rfl | with_reducible assumption | intro _ | (split <;> try (rename_i h; first | (have e := congrArg Prod.snd h; dsimp only at e; subst e) | (have e := rxTake_eq h; subst e)))

theorem on_synBoundary {L : List ChPart} {c₀ x₀ : Channel} (k : ℕ) (hL : partsIn [.syn, .asks] L = true) (hF : Channel.onlyIn L c₀ x₀) : Channel.onlyIn L c₀ (Channel.synBoundary x₀ k) := by
  refine Channel.onlyIn_step hL hF ?_
  unfold Channel.synBoundary
  try dsimp only
  repeat' first | with_reducible exact Channel.onlyIn_refl _ _ | with_reducible apply on_countFrom | with_reducible apply on_partDone | with_reducible apply on_setSynK | with_reducible apply on_setSynK' | with_reducible apply on_takePart | with_reducible apply on_put | with_reducible apply on_synTo | with_reducible apply on_toAcq | with_reducible apply on_updOut | with_reducible apply on_ite | with_reducible apply on_ite2 | with_reducible apply on_fold | with_reducible apply on_fold2 | with_reducible rfl | exact .inl rfl | exact .inr rfl | rfl | with_reducible assumption | intro _ | (split <;> try (rename_i h; first | (have e := congrArg Prod.snd h; dsimp only at e; subst e) | (have e := rxTake_eq h; subst e)))

theorem on_refReturn {L : List ChPart} {c₀ x₀ : Channel} (k : ℕ) (hL : partsIn [.syn, .asks] L = true) (hF : Channel.onlyIn L c₀ x₀) : Channel.onlyIn L c₀ (Channel.refReturn x₀ k) := by
  refine Channel.onlyIn_step hL hF ?_
  unfold Channel.refReturn
  try dsimp only
  repeat' first | with_reducible exact Channel.onlyIn_refl _ _ | with_reducible apply on_setSynK' | with_reducible apply on_takePart | with_reducible apply on_toAcq | with_reducible apply on_ite | with_reducible apply on_ite2 | with_reducible rfl | exact .inl rfl | exact .inr rfl | rfl | with_reducible assumption | intro _ | (split <;> try (rename_i h; first | (have e := congrArg Prod.snd h; dsimp only at e; subst e) | (have e := rxTake_eq h; subst e)))

theorem on_pulseBoundary {L : List ChPart} {c₀ x₀ : Channel} (hL : partsIn [.syn, .asks] L = true) (hF : Channel.onlyIn L c₀ x₀) : Channel.onlyIn L c₀ (Channel.pulseBoundary x₀) := by
  refine Channel.onlyIn_step hL hF ?_
  unfold Channel.pulseBoundary
  try dsimp only
  repeat' first | with_reducible exact Channel.onlyIn_refl _ _ | with_reducible apply on_takeStaged | with_reducible apply on_updPls | with_reducible apply on_stageSettle | with_reducible apply on_setSyn | with_reducible apply on_ite | with_reducible apply on_ite2 | with_reducible apply on_fold | with_reducible apply on_fold2 | with_reducible rfl | exact .inl rfl | exact .inr rfl | rfl | with_reducible assumption | intro _ | (split <;> try (rename_i h; first | (have e := congrArg Prod.snd h; dsimp only at e; subst e) | (have e := rxTake_eq h; subst e)))

theorem on_squelch {L : List ChPart} {c₀ x₀ : Channel} (hL : partsIn [.syn] L = true) (hF : Channel.onlyIn L c₀ x₀) : Channel.onlyIn L c₀ (Channel.squelch x₀) := by
  refine Channel.onlyIn_step hL hF ?_
  unfold Channel.squelch
  try dsimp only
  repeat' first | with_reducible exact Channel.onlyIn_refl _ _ | with_reducible apply on_stopOut | with_reducible apply on_release | with_reducible apply on_updPls | with_reducible apply on_ite | with_reducible apply on_ite2 | with_reducible apply on_fold | with_reducible apply on_fold2 | with_reducible rfl | exact .inl rfl | exact .inr rfl | rfl | with_reducible assumption | intro _ | (split <;> try (rename_i h; first | (have e := congrArg Prod.snd h; dsimp only at e; subst e) | (have e := rxTake_eq h; subst e)))

theorem on_pulseEdge {L : List ChPart} {c₀ x₀ : Channel} (j : Fin 2) (hL : partsIn [.syn, .asks] L = true) (hF : Channel.onlyIn L c₀ x₀) : Channel.onlyIn L c₀ (Channel.pulseEdge x₀ j) := by
  refine Channel.onlyIn_step hL hF ?_
  unfold Channel.pulseEdge
  try dsimp only
  repeat' first | with_reducible exact Channel.onlyIn_refl _ _ | with_reducible apply on_updPls | with_reducible apply on_evt | with_reducible apply on_bump | with_reducible apply on_ask | with_reducible apply on_setSyn | with_reducible apply on_ite | with_reducible apply on_ite2 | with_reducible rfl | exact .inl rfl | exact .inr rfl | rfl | with_reducible assumption | intro _ | (split <;> try (rename_i h; first | (have e := congrArg Prod.snd h; dsimp only at e; subst e) | (have e := rxTake_eq h; subst e)))

theorem on_todSend {L : List ChPart} {c₀ x₀ : Channel} (hL : partsIn [.syn, .asks] L = true) (hF : Channel.onlyIn L c₀ x₀) : Channel.onlyIn L c₀ (Channel.todSend x₀) := by
  refine Channel.onlyIn_step hL hF ?_
  unfold Channel.todSend
  try dsimp only
  repeat' first | with_reducible exact Channel.onlyIn_refl _ _ | with_reducible apply on_setSyn | with_reducible apply on_ask | with_reducible apply on_bump | with_reducible apply on_ite | with_reducible apply on_ite2 | with_reducible rfl | exact .inl rfl | exact .inr rfl | rfl | with_reducible assumption | intro _ | (split <;> try (rename_i h; first | (have e := congrArg Prod.snd h; dsimp only at e; subst e) | (have e := rxTake_eq h; subst e)))

theorem on_raGo {L : List ChPart} {c₀ x₀ : Channel} (hL : partsIn [.syn, .asks] L = true) (hF : Channel.onlyIn L c₀ x₀) : Channel.onlyIn L c₀ (Channel.raGo x₀) := by
  refine Channel.onlyIn_step hL hF ?_
  unfold Channel.raGo
  try dsimp only
  repeat' first | with_reducible exact Channel.onlyIn_refl _ _ | with_reducible apply on_evt | with_reducible apply on_put | with_reducible apply on_setSyn | with_reducible apply on_ite | with_reducible apply on_ite2 | with_reducible rfl | exact .inl rfl | exact .inr rfl | rfl | with_reducible assumption | intro _ | (split <;> try (rename_i h; first | (have e := congrArg Prod.snd h; dsimp only at e; subst e) | (have e := rxTake_eq h; subst e)))

theorem on_raAuto {L : List ChPart} {c₀ x₀ : Channel} (hL : partsIn [.syn, .asks] L = true) (hF : Channel.onlyIn L c₀ x₀) : Channel.onlyIn L c₀ (Channel.raAuto x₀) := by
  refine Channel.onlyIn_step hL hF ?_
  unfold Channel.raAuto
  try dsimp only
  repeat' first | with_reducible exact Channel.onlyIn_refl _ _ | with_reducible apply on_raGo | with_reducible apply on_ask | with_reducible apply on_ite | with_reducible apply on_ite2 | with_reducible rfl | exact .inl rfl | exact .inr rfl | rfl | with_reducible assumption | intro _ | (split <;> try (rename_i h; first | (have e := congrArg Prod.snd h; dsimp only at e; subst e) | (have e := rxTake_eq h; subst e)))

theorem on_jumpSwitch {L : List ChPart} {c₀ x₀ : Channel} (hL : partsIn [.syn, .asks] L = true) (hF : Channel.onlyIn L c₀ x₀) : Channel.onlyIn L c₀ (Channel.jumpSwitch x₀) := by
  refine Channel.onlyIn_step hL hF ?_
  unfold Channel.jumpSwitch
  try dsimp only
  repeat' first | with_reducible exact Channel.onlyIn_refl _ _ | with_reducible apply on_setSyn | with_reducible apply on_evt | with_reducible apply on_bumpBy | with_reducible apply on_put | with_reducible apply on_toAcq | with_reducible apply on_ite | with_reducible apply on_ite2 | with_reducible apply on_fold | with_reducible apply on_fold2 | with_reducible rfl | exact .inl rfl | exact .inr rfl | rfl | with_reducible assumption | intro _ | (split <;> try (rename_i h; first | (have e := congrArg Prod.snd h; dsimp only at e; subst e) | (have e := rxTake_eq h; subst e)))

theorem on_slewDone {L : List ChPart} {c₀ x₀ : Channel} (hL : partsIn [.syn, .asks] L = true) (hF : Channel.onlyIn L c₀ x₀) : Channel.onlyIn L c₀ (Channel.slewDone x₀) := by
  refine Channel.onlyIn_step hL hF ?_
  unfold Channel.slewDone
  try dsimp only
  repeat' first | with_reducible exact Channel.onlyIn_refl _ _ | with_reducible apply on_evt | with_reducible apply on_put | with_reducible apply on_setSyn | with_reducible apply on_ite | with_reducible apply on_ite2 | with_reducible rfl | exact .inl rfl | exact .inr rfl | rfl | with_reducible assumption | intro _ | (split <;> try (rename_i h; first | (have e := congrArg Prod.snd h; dsimp only at e; subst e) | (have e := rxTake_eq h; subst e)))

theorem on_synSettle {L : List ChPart} {c₀ x₀ : Channel} (old : Channel) (hL : partsIn [.syn, .asks] L = true) (hF : Channel.onlyIn L c₀ x₀) : Channel.onlyIn L c₀ (Channel.synSettle old x₀) := by
  refine Channel.onlyIn_step hL hF ?_
  unfold Channel.synSettle
  try dsimp only
  repeat' first | with_reducible exact Channel.onlyIn_refl _ _ | with_reducible apply on_raAuto | with_reducible apply on_squelch | with_reducible apply on_ite | with_reducible apply on_ite2 | with_reducible rfl | exact .inl rfl | exact .inr rfl | rfl | with_reducible assumption | intro _ | (split <;> try (rename_i h; first | (have e := congrArg Prod.snd h; dsimp only at e; subst e) | (have e := rxTake_eq h; subst e)))

theorem on_setPmu {L : List ChPart} {c₀ x₀ : Channel} (p : PmuBlk) (hL : partsIn [.pmu] L = true) (hF : Channel.onlyIn L c₀ x₀) : Channel.onlyIn L c₀ (Channel.setPmu x₀ p) := by
  refine Channel.onlyIn_step hL hF ?_
  unfold Channel.setPmu
  try dsimp only
  repeat' first | with_reducible exact Channel.onlyIn_refl _ _ | with_reducible apply on_ite | with_reducible apply on_ite2 | with_reducible rfl | exact .inl rfl | exact .inr rfl | rfl | with_reducible assumption | intro _ | (split <;> try (rename_i h; first | (have e := congrArg Prod.snd h; dsimp only at e; subst e) | (have e := rxTake_eq h; subst e))) | with_reducible apply on_upd

theorem on_putPmc {L : List ChPart} {c₀ x₀ : Channel} (k : ℕ) (v : ℕ) (hL : partsIn [.pmu] L = true) (hF : Channel.onlyIn L c₀ x₀) : Channel.onlyIn L c₀ (Channel.putPmc x₀ k v) := by
  refine Channel.onlyIn_step hL hF ?_
  unfold Channel.putPmc
  try dsimp only
  repeat' first | with_reducible exact Channel.onlyIn_refl _ _ | with_reducible apply on_put | with_reducible apply on_ite | with_reducible apply on_ite2 | with_reducible rfl | exact .inl rfl | exact .inr rfl | rfl | with_reducible assumption | intro _ | (split <;> try (rename_i h; first | (have e := congrArg Prod.snd h; dsimp only at e; subst e) | (have e := rxTake_eq h; subst e)))

theorem on_pmcAdd {L : List ChPart} {c₀ x₀ : Channel} (n : ℕ) (k : ℕ) (hL : partsIn [.pmu, .free, .asks] L = true) (hF : Channel.onlyIn L c₀ x₀) : Channel.onlyIn L c₀ (Channel.pmcAdd n k x₀) := by
  refine Channel.onlyIn_step hL hF ?_
  unfold Channel.pmcAdd
  try dsimp only
  repeat' first | with_reducible exact Channel.onlyIn_refl _ _ | with_reducible apply on_putPmc | with_reducible apply on_evt | with_reducible apply on_evtMask | with_reducible apply on_free | with_reducible apply on_setPmu | with_reducible apply on_ite | with_reducible apply on_ite2 | with_reducible rfl | exact .inl rfl | exact .inr rfl | rfl | with_reducible assumption | intro _ | (split <;> try (rename_i h; first | (have e := congrArg Prod.snd h; dsimp only at e; subst e) | (have e := rxTake_eq h; subst e)))

theorem on_pmuBy {L : List ChPart} {c₀ x₀ : Channel} (ev : ℕ) (port : Option PortIx) (n : ℕ) (hL : partsIn [.pmu, .free, .asks] L = true) (hF : Channel.onlyIn L c₀ x₀) : Channel.onlyIn L c₀ (Channel.pmuBy x₀ ev port n) := by
  refine Channel.onlyIn_step hL hF ?_
  unfold Channel.pmuBy
  try dsimp only
  repeat' first | with_reducible exact Channel.onlyIn_refl _ _ | with_reducible apply on_pmcAdd | with_reducible apply on_ite | with_reducible apply on_ite2 | with_reducible apply on_fold | with_reducible apply on_fold2 | with_reducible rfl | exact .inl rfl | exact .inr rfl | rfl | with_reducible assumption | intro _ | (split <;> try (rename_i h; first | (have e := congrArg Prod.snd h; dsimp only at e; subst e) | (have e := rxTake_eq h; subst e)))

theorem on_pmuEvt {L : List ChPart} {c₀ x₀ : Channel} (ev : ℕ) (p : PortIx) (hL : partsIn [.pmu, .free, .asks] L = true) (hF : Channel.onlyIn L c₀ x₀) : Channel.onlyIn L c₀ (Channel.pmuEvt x₀ ev p) := by
  refine Channel.onlyIn_step hL hF ?_
  unfold Channel.pmuEvt
  try dsimp only
  repeat' first | with_reducible exact Channel.onlyIn_refl _ _ | with_reducible apply on_pmuBy | with_reducible apply on_ite | with_reducible apply on_ite2 | with_reducible rfl | exact .inl rfl | exact .inr rfl | rfl | with_reducible assumption | intro _ | (split <;> try (rename_i h; first | (have e := congrArg Prod.snd h; dsimp only at e; subst e) | (have e := rxTake_eq h; subst e)))

theorem on_workSlots {L : List ChPart} {c₀ x₀ : Channel} (hL : partsIn [.pmu, .free] L = true) (hF : Channel.onlyIn L c₀ x₀) : Channel.onlyIn L c₀ (Channel.workSlots x₀).2 := by
  refine Channel.onlyIn_step hL hF ?_
  unfold Channel.workSlots
  try dsimp only
  repeat' first | with_reducible exact Channel.onlyIn_refl _ _ | with_reducible apply on_free | with_reducible apply on_setPmu | with_reducible apply on_ite | with_reducible apply on_ite2 | with_reducible rfl | exact .inl rfl | exact .inr rfl | rfl | with_reducible assumption | intro _ | (split <;> try (rename_i h; first | (have e := congrArg Prod.snd h; dsimp only at e; subst e) | (have e := rxTake_eq h; subst e)))

theorem on_resolve {L : List ChPart} {c₀ x₀ : Channel} (waste : Bool) (w : ℕ) (hL : partsIn [.pmu, .free, .asks] L = true) (hF : Channel.onlyIn L c₀ x₀) : Channel.onlyIn L c₀ (Channel.resolve x₀ waste w) := by
  refine Channel.onlyIn_step hL hF ?_
  unfold Channel.resolve
  try dsimp only
  repeat' first | with_reducible exact Channel.onlyIn_refl _ _ | with_reducible apply on_pmuBy | with_reducible apply on_setPmu | with_reducible apply on_ite | with_reducible apply on_ite2 | with_reducible rfl | exact .inl rfl | exact .inr rfl | rfl | with_reducible assumption | intro _ | (split <;> try (rename_i h; first | (have e := congrArg Prod.snd h; dsimp only at e; subst e) | (have e := rxTake_eq h; subst e)))

theorem on_pmuTick {L : List ChPart} {c₀ x₀ : Channel} (hL : partsIn [.pmu, .free, .asks] L = true) (hF : Channel.onlyIn L c₀ x₀) : Channel.onlyIn L c₀ (Channel.pmuTick x₀) := by
  refine Channel.onlyIn_step hL hF ?_
  unfold Channel.pmuTick
  try dsimp only
  repeat' first | with_reducible exact Channel.onlyIn_refl _ _ | with_reducible apply on_pmuBy | with_reducible apply on_setPmu | with_reducible apply on_free | with_reducible apply on_ite | with_reducible apply on_ite2 | with_reducible rfl | exact .inl rfl | exact .inr rfl | rfl | with_reducible assumption | intro _ | (split <;> try (rename_i h; first | (have e := congrArg Prod.snd h; dsimp only at e; subst e) | (have e := rxTake_eq h; subst e)))

theorem on_put48 {L : List ChPart} {c₀ x₀ : Channel} (lo : ℕ) (hi : ℕ) (v : ℕ) (hL : partsIn [.pmu] L = true) (hF : Channel.onlyIn L c₀ x₀) : Channel.onlyIn L c₀ (Channel.put48 x₀ lo hi v) := by
  refine Channel.onlyIn_step hL hF ?_
  unfold Channel.put48
  try dsimp only
  repeat' first | with_reducible exact Channel.onlyIn_refl _ _ | with_reducible apply on_setWord | with_reducible apply on_ite | with_reducible apply on_ite2 | with_reducible rfl | exact .inl rfl | exact .inr rfl | rfl | with_reducible assumption | intro _ | (split <;> try (rename_i h; first | (have e := congrArg Prod.snd h; dsimp only at e; subst e) | (have e := rxTake_eq h; subst e)))

theorem on_tdSnap {L : List ChPart} {c₀ x₀ : Channel} (hL : partsIn [.pmu] L = true) (hF : Channel.onlyIn L c₀ x₀) : Channel.onlyIn L c₀ (Channel.tdSnap x₀) := by
  refine Channel.onlyIn_step hL hF ?_
  unfold Channel.tdSnap
  try dsimp only
  repeat' first | with_reducible exact Channel.onlyIn_refl _ _ | with_reducible apply on_put48 | with_reducible apply on_setWord | with_reducible apply on_ite | with_reducible apply on_ite2 | with_reducible apply on_fold | with_reducible apply on_fold2 | with_reducible rfl | exact .inl rfl | exact .inr rfl | rfl | with_reducible assumption | intro _ | (split <;> try (rename_i h; first | (have e := congrArg Prod.snd h; dsimp only at e; subst e) | (have e := rxTake_eq h; subst e)))

theorem on_pmuCapture {L : List ChPart} {c₀ x₀ : Channel} (smp : PmuSample) (hL : partsIn [.pmu, .asks] L = true) (hF : Channel.onlyIn L c₀ x₀) : Channel.onlyIn L c₀ (Channel.pmuCapture x₀ smp) := by
  refine Channel.onlyIn_step hL hF ?_
  unfold Channel.pmuCapture
  try dsimp only
  repeat' first | with_reducible exact Channel.onlyIn_refl _ _ | with_reducible apply on_setPmu | with_reducible apply on_evt | with_reducible apply on_put | with_reducible apply on_bumpBy | with_reducible apply on_ite | with_reducible apply on_ite2 | with_reducible apply on_fold | with_reducible apply on_fold2 | with_reducible rfl | exact .inl rfl | exact .inr rfl | rfl | with_reducible assumption | intro _ | (split <;> try (rename_i h; first | (have e := congrArg Prod.snd h; dsimp only at e; subst e) | (have e := rxTake_eq h; subst e)))

theorem on_bwAdd {L : List ChPart} {c₀ x₀ : Channel} (p : PortIx) (f : BwRun → BwRun) (hL : partsIn [.pmu] L = true) (hF : Channel.onlyIn L c₀ x₀) : Channel.onlyIn L c₀ (Channel.bwAdd x₀ p f) := by
  refine Channel.onlyIn_step hL hF ?_
  unfold Channel.bwAdd
  try dsimp only
  repeat' first | with_reducible exact Channel.onlyIn_refl _ _ | with_reducible apply on_setPmu | with_reducible apply on_ite | with_reducible apply on_ite2 | with_reducible rfl | exact .inl rfl | exact .inr rfl | rfl | with_reducible assumption | intro _ | (split <;> try (rename_i h; first | (have e := congrArg Prod.snd h; dsimp only at e; subst e) | (have e := rxTake_eq h; subst e)))

theorem on_bwRx {L : List ChPart} {c₀ x₀ : Channel} (p : PortIx) (n : ℕ) (hL : partsIn [.pmu] L = true) (hF : Channel.onlyIn L c₀ x₀) : Channel.onlyIn L c₀ (Channel.bwRx x₀ p n) := by
  refine Channel.onlyIn_step hL hF ?_
  unfold Channel.bwRx
  try dsimp only
  repeat' first | with_reducible exact Channel.onlyIn_refl _ _ | with_reducible apply on_bwAdd | with_reducible apply on_ite | with_reducible apply on_ite2 | with_reducible rfl | exact .inl rfl | exact .inr rfl | rfl | with_reducible assumption | intro _ | (split <;> try (rename_i h; first | (have e := congrArg Prod.snd h; dsimp only at e; subst e) | (have e := rxTake_eq h; subst e)))

theorem on_bwTx {L : List ChPart} {c₀ x₀ : Channel} (p : PortIx) (n : ℕ) (hL : partsIn [.pmu] L = true) (hF : Channel.onlyIn L c₀ x₀) : Channel.onlyIn L c₀ (Channel.bwTx x₀ p n) := by
  refine Channel.onlyIn_step hL hF ?_
  unfold Channel.bwTx
  try dsimp only
  repeat' first | with_reducible exact Channel.onlyIn_refl _ _ | with_reducible apply on_bwAdd | with_reducible apply on_ite | with_reducible apply on_ite2 | with_reducible rfl | exact .inl rfl | exact .inr rfl | rfl | with_reducible assumption | intro _ | (split <;> try (rename_i h; first | (have e := congrArg Prod.snd h; dsimp only at e; subst e) | (have e := rxTake_eq h; subst e)))

theorem on_bwLatch {L : List ChPart} {c₀ x₀ : Channel} (p : PortIx) (hL : partsIn [.pmu] L = true) (hF : Channel.onlyIn L c₀ x₀) : Channel.onlyIn L c₀ (Channel.bwLatch x₀ p) := by
  refine Channel.onlyIn_step hL hF ?_
  unfold Channel.bwLatch
  try dsimp only
  repeat' first | with_reducible exact Channel.onlyIn_refl _ _ | with_reducible apply on_put48 | with_reducible apply on_setWord | with_reducible apply on_setPmu | with_reducible apply on_ite | with_reducible apply on_ite2 | with_reducible rfl | exact .inl rfl | exact .inr rfl | rfl | with_reducible assumption | intro _ | (split <;> try (rename_i h; first | (have e := congrArg Prod.snd h; dsimp only at e; subst e) | (have e := rxTake_eq h; subst e)))

theorem on_bwWindowEnd {L : List ChPart} {c₀ x₀ : Channel} (hL : partsIn [.pmu] L = true) (hF : Channel.onlyIn L c₀ x₀) : Channel.onlyIn L c₀ (Channel.bwWindowEnd x₀) := by
  refine Channel.onlyIn_step hL hF ?_
  unfold Channel.bwWindowEnd
  try dsimp only
  repeat' first | with_reducible exact Channel.onlyIn_refl _ _ | with_reducible apply on_bwLatch | with_reducible apply on_ite | with_reducible apply on_ite2 | with_reducible rfl | exact .inl rfl | exact .inr rfl | rfl | with_reducible assumption | intro _ | (split <;> try (rename_i h; first | (have e := congrArg Prod.snd h; dsimp only at e; subst e) | (have e := rxTake_eq h; subst e)))

theorem on_bwRestart {L : List ChPart} {c₀ x₀ : Channel} (hL : partsIn [.pmu] L = true) (hF : Channel.onlyIn L c₀ x₀) : Channel.onlyIn L c₀ (Channel.bwRestart x₀) := by
  refine Channel.onlyIn_step hL hF ?_
  unfold Channel.bwRestart
  try dsimp only
  repeat' first | with_reducible exact Channel.onlyIn_refl _ _ | with_reducible apply on_put48 | with_reducible apply on_setPmu | with_reducible apply on_ite | with_reducible apply on_ite2 | with_reducible apply on_fold | with_reducible apply on_fold2 | with_reducible rfl | exact .inl rfl | exact .inr rfl | rfl | with_reducible assumption | intro _ | (split <;> try (rename_i h; first | (have e := congrArg Prod.snd h; dsimp only at e; subst e) | (have e := rxTake_eq h; subst e)))

theorem on_pkClr {L : List ChPart} {c₀ x₀ : Channel} (p : PortIx) (hL : partsIn [.pmu] L = true) (hF : Channel.onlyIn L c₀ x₀) : Channel.onlyIn L c₀ (Channel.pkClr x₀ p) := by
  refine Channel.onlyIn_step hL hF ?_
  unfold Channel.pkClr
  try dsimp only
  repeat' first | with_reducible exact Channel.onlyIn_refl _ _ | with_reducible apply on_setPmu | with_reducible apply on_ite | with_reducible apply on_ite2 | with_reducible rfl | exact .inl rfl | exact .inr rfl | rfl | with_reducible assumption | intro _ | (split <;> try (rename_i h; first | (have e := congrArg Prod.snd h; dsimp only at e; subst e) | (have e := rxTake_eq h; subst e)))

theorem on_setSched {L : List ChPart} {c₀ x₀ : Channel} (s : SchedBlk) (hL : partsIn [.sched] L = true) (hF : Channel.onlyIn L c₀ x₀) : Channel.onlyIn L c₀ (Channel.setSched x₀ s) := by
  refine Channel.onlyIn_step hL hF ?_
  unfold Channel.setSched
  try dsimp only
  repeat' first | with_reducible exact Channel.onlyIn_refl _ _ | with_reducible apply on_ite | with_reducible apply on_ite2 | with_reducible rfl | exact .inl rfl | exact .inr rfl | rfl | with_reducible assumption | intro _ | (split <;> try (rename_i h; first | (have e := congrArg Prod.snd h; dsimp only at e; subst e) | (have e := rxTake_eq h; subst e))) | with_reducible apply on_upd

theorem on_setSp {L : List ChPart} {c₀ x₀ : Channel} (p : PortIx) (x : SchedPort) (hL : partsIn [.sched] L = true) (hF : Channel.onlyIn L c₀ x₀) : Channel.onlyIn L c₀ (Channel.setSp x₀ p x) := by
  refine Channel.onlyIn_step hL hF ?_
  unfold Channel.setSp
  try dsimp only
  repeat' first | with_reducible exact Channel.onlyIn_refl _ _ | with_reducible apply on_setSched | with_reducible apply on_ite | with_reducible apply on_ite2 | with_reducible rfl | exact .inl rfl | exact .inr rfl | rfl | with_reducible assumption | intro _ | (split <;> try (rename_i h; first | (have e := congrArg Prod.snd h; dsimp only at e; subst e) | (have e := rxTake_eq h; subst e)))

theorem on_putEq {L : List ChPart} {c₀ x₀ : Channel} (p : PortIx) (q : ℕ) (e : EQueue) (hL : partsIn [.sched] L = true) (hF : Channel.onlyIn L c₀ x₀) : Channel.onlyIn L c₀ (Channel.putEq x₀ p q e) := by
  refine Channel.onlyIn_step hL hF ?_
  unfold Channel.putEq
  try dsimp only
  repeat' first | with_reducible exact Channel.onlyIn_refl _ _ | with_reducible apply on_setSp | with_reducible apply on_ite | with_reducible apply on_ite2 | with_reducible rfl | exact .inl rfl | exact .inr rfl | rfl | with_reducible assumption | intro _ | (split <;> try (rename_i h; first | (have e := congrArg Prod.snd h; dsimp only at e; subst e) | (have e := rxTake_eq h; subst e)))

theorem on_putPol {L : List ChPart} {c₀ x₀ : Channel} (i : ℕ) (e : PolEntry) (hL : partsIn [.sched] L = true) (hF : Channel.onlyIn L c₀ x₀) : Channel.onlyIn L c₀ (Channel.putPol x₀ i e) := by
  refine Channel.onlyIn_step hL hF ?_
  unfold Channel.putPol
  try dsimp only
  repeat' first | with_reducible exact Channel.onlyIn_refl _ _ | with_reducible apply on_setSched | with_reducible apply on_ite | with_reducible apply on_ite2 | with_reducible rfl | exact .inl rfl | exact .inr rfl | rfl | with_reducible assumption | intro _ | (split <;> try (rename_i h; first | (have e := congrArg Prod.snd h; dsimp only at e; subst e) | (have e := rxTake_eq h; subst e)))

theorem on_policeReq {L : List ChPart} {c₀ x₀ : Channel} (group : ℕ) (len : ℕ) (hL : partsIn [.sched] L = true) (hF : Channel.onlyIn L c₀ x₀) : Channel.onlyIn L c₀ (Channel.policeReq x₀ group len).2 := by
  refine Channel.onlyIn_step hL hF ?_
  unfold Channel.policeReq
  try dsimp only
  repeat' first | with_reducible exact Channel.onlyIn_refl _ _ | with_reducible apply on_putPol | with_reducible apply on_ite | with_reducible apply on_ite2 | with_reducible rfl | exact .inl rfl | exact .inr rfl | rfl | with_reducible assumption | intro _ | (split <;> try (rename_i h; first | (have e := congrArg Prod.snd h; dsimp only at e; subst e) | (have e := rxTake_eq h; subst e)))

theorem on_polCmd {L : List ChPart} {c₀ x₀ : Channel} (hL : partsIn [.sched, .asks] L = true) (hF : Channel.onlyIn L c₀ x₀) : Channel.onlyIn L c₀ (Channel.polCmd x₀).2 := by
  refine Channel.onlyIn_step hL hF ?_
  unfold Channel.polCmd
  try dsimp only
  repeat' first | with_reducible exact Channel.onlyIn_refl _ _ | with_reducible apply on_evt | with_reducible apply on_put | with_reducible apply on_putPol | with_reducible apply on_ite | with_reducible apply on_ite2 | with_reducible rfl | exact .inl rfl | exact .inr rfl | rfl | with_reducible assumption | intro _ | (split <;> try (rename_i h; first | (have e := congrArg Prod.snd h; dsimp only at e; subst e) | (have e := rxTake_eq h; subst e)))

theorem on_settleQ {L : List ChPart} {c₀ x₀ : Channel} (p : PortIx) (q : ℕ) (hL : partsIn [.sched] L = true) (hF : Channel.onlyIn L c₀ x₀) : Channel.onlyIn L c₀ (Channel.settleQ p x₀ q) := by
  refine Channel.onlyIn_step hL hF ?_
  unfold Channel.settleQ
  try dsimp only
  repeat' first | with_reducible exact Channel.onlyIn_refl _ _ | with_reducible apply on_putEq | with_reducible apply on_ite | with_reducible apply on_ite2 | with_reducible rfl | exact .inl rfl | exact .inr rfl | rfl | with_reducible assumption | intro _ | (split <;> try (rename_i h; first | (have e := congrArg Prod.snd h; dsimp only at e; subst e) | (have e := rxTake_eq h; subst e)))

theorem on_fillQ {L : List ChPart} {c₀ x₀ : Channel} (p : PortIx) (q : ℕ) (hL : partsIn [.sched] L = true) (hF : Channel.onlyIn L c₀ x₀) : Channel.onlyIn L c₀ (Channel.fillQ p x₀ q) := by
  refine Channel.onlyIn_step hL hF ?_
  unfold Channel.fillQ
  try dsimp only
  repeat' first | with_reducible exact Channel.onlyIn_refl _ _ | with_reducible apply on_putEq | with_reducible apply on_ite | with_reducible apply on_ite2 | with_reducible rfl | exact .inl rfl | exact .inr rfl | rfl | with_reducible assumption | intro _ | (split <;> try (rename_i h; first | (have e := congrArg Prod.snd h; dsimp only at e; subst e) | (have e := rxTake_eq h; subst e)))

theorem on_wasted {L : List ChPart} {c₀ x₀ : Channel} (p : PortIx) (f : QFrame) (hL : partsIn [.pmu, .free, .asks] L = true) (hF : Channel.onlyIn L c₀ x₀) : Channel.onlyIn L c₀ (Channel.wasted p x₀ f) := by
  refine Channel.onlyIn_step hL hF ?_
  unfold Channel.wasted
  try dsimp only
  repeat' first | with_reducible exact Channel.onlyIn_refl _ _ | with_reducible apply on_resolve | with_reducible apply on_pmuEvt | with_reducible apply on_ite | with_reducible apply on_ite2 | with_reducible rfl | exact .inl rfl | exact .inr rfl | rfl | with_reducible assumption | intro _ | (split <;> try (rename_i h; first | (have e := congrArg Prod.snd h; dsimp only at e; subst e) | (have e := rxTake_eq h; subst e)))

theorem on_putGt {L : List ChPart} {c₀ x₀ : Channel} (b : KB) (f : ℕ → ℕ) (t : Gt) (hb : L.contains b.part = true) (hF : Channel.onlyIn L c₀ x₀) : Channel.onlyIn L c₀ (Channel.putGt x₀ b f t) := by
  refine Channel.onlyIn_trans hF ?_
  unfold Channel.putGt
  try dsimp only
  repeat' first | with_reducible exact Channel.onlyIn_refl _ _ | with_reducible apply on_setWord | with_reducible apply on_ite | with_reducible apply on_ite2 | with_reducible apply on_fold | with_reducible apply on_fold2 | with_reducible rfl | exact .inl rfl | exact .inr rfl | rfl | with_reducible assumption | intro _ | (split <;> try (rename_i h; first | (have e := congrArg Prod.snd h; dsimp only at e; subst e) | (have e := rxTake_eq h; subst e)))

theorem on_headDrop {L : List ChPart} {c₀ x₀ : Channel} (p : PortIx) (q n : ℕ) (hL : partsIn [.sched, .pmu, .free, .asks] L = true) (hF : Channel.onlyIn L c₀ x₀) : Channel.onlyIn L c₀ (Channel.headDrop p q n x₀) := by
  refine Channel.onlyIn_step hL hF ?_
  clear hF
  induction n generalizing x₀ with
  | zero => exact Channel.onlyIn_refl _ _
  | succ n ih =>
    unfold Channel.headDrop
    dsimp only
    split
    · exact Channel.onlyIn_refl _ _
    · split
      · refine Channel.onlyIn_trans (b := _) ?_ ih
        repeat' first | with_reducible exact Channel.onlyIn_refl _ _ | with_reducible apply on_wasted | with_reducible apply on_evt | with_reducible apply on_bump | with_reducible apply on_putEq | rfl
      · exact Channel.onlyIn_refl _ _

theorem on_headCheck {L : List ChPart} {c₀ x₀ : Channel} (p : PortIx) (q : ℕ) (hL : partsIn [.sched, .pmu, .free, .asks] L = true) (hF : Channel.onlyIn L c₀ x₀) : Channel.onlyIn L c₀ (Channel.headCheck x₀ p q) := by
  refine Channel.onlyIn_step hL hF ?_
  unfold Channel.headCheck
  try dsimp only
  repeat' first | with_reducible exact Channel.onlyIn_refl _ _ | with_reducible apply on_headDrop | with_reducible apply on_ite | with_reducible apply on_ite2 | with_reducible rfl | exact .inl rfl | exact .inr rfl | rfl | with_reducible assumption | intro _ | (split <;> try (rename_i h; first | (have e := congrArg Prod.snd h; dsimp only at e; subst e) | (have e := rxTake_eq h; subst e)))

theorem on_enqueue {L : List ChPart} {c₀ x₀ : Channel} (p : PortIx) (q : ℕ) (f : QFrame) (hL : partsIn [.sched, .pmu, .free, .asks] L = true) (hF : Channel.onlyIn L c₀ x₀) : Channel.onlyIn L c₀ (Channel.enqueue x₀ p q f) := by
  refine Channel.onlyIn_step hL hF ?_
  unfold Channel.enqueue
  try dsimp only
  repeat' first | with_reducible exact Channel.onlyIn_refl _ _ | with_reducible apply on_wasted | with_reducible apply on_putEq | with_reducible apply on_evt | with_reducible apply on_bump | with_reducible apply on_headCheck | with_reducible apply on_ite | with_reducible apply on_ite2 | with_reducible rfl | exact .inl rfl | exact .inr rfl | rfl | with_reducible assumption | intro _ | (split <;> try (rename_i h; first | (have e := congrArg Prod.snd h; dsimp only at e; subst e) | (have e := rxTake_eq h; subst e)))

theorem on_flushQ {L : List ChPart} {c₀ x₀ : Channel} (noclaim : Bool) (p : PortIx) (q : ℕ) (hL : partsIn [.sched, .sealb, .pmu, .free, .asks] L = true) (hF : Channel.onlyIn L c₀ x₀) : Channel.onlyIn L c₀ (Channel.flushQ noclaim p x₀ q) := by
  refine Channel.onlyIn_step hL hF ?_
  unfold Channel.flushQ
  try dsimp only
  repeat' first | with_reducible exact Channel.onlyIn_refl _ _ | with_reducible apply on_bumpBy | with_reducible apply on_putEq | with_reducible apply on_wasted | with_reducible apply on_evt | with_reducible apply on_ite | with_reducible apply on_ite2 | with_reducible apply on_fold | with_reducible apply on_fold2 | with_reducible rfl | exact .inl rfl | exact .inr rfl | rfl | with_reducible assumption | intro _ | (split <;> try (rename_i h; first | (have e := congrArg Prod.snd h; dsimp only at e; subst e) | (have e := rxTake_eq h; subst e)))

theorem on_flushPort {L : List ChPart} {c₀ x₀ : Channel} (noclaim : Bool) (p : PortIx) (hL : partsIn [.sched, .sealb, .pmu, .free, .asks] L = true) (hF : Channel.onlyIn L c₀ x₀) : Channel.onlyIn L c₀ (Channel.flushPort x₀ noclaim p) := by
  refine Channel.onlyIn_step hL hF ?_
  unfold Channel.flushPort
  try dsimp only
  repeat' first | with_reducible exact Channel.onlyIn_refl _ _ | with_reducible apply on_flushQ | with_reducible apply on_ite | with_reducible apply on_ite2 | with_reducible apply on_fold | with_reducible apply on_fold2 | with_reducible rfl | exact .inl rfl | exact .inr rfl | rfl | with_reducible assumption | intro _ | (split <;> try (rename_i h; first | (have e := congrArg Prod.snd h; dsimp only at e; subst e) | (have e := rxTake_eq h; subst e)))

theorem on_flushLost {L : List ChPart} {c₀ x₀ : Channel} (hL : partsIn [.sched, .port, .sealb, .pmu, .free, .asks] L = true) (hF : Channel.onlyIn L c₀ x₀) : Channel.onlyIn L c₀ (Channel.flushLost x₀) := by
  refine Channel.onlyIn_step hL hF ?_
  unfold Channel.flushLost
  try dsimp only
  repeat' first | with_reducible exact Channel.onlyIn_refl _ _ | with_reducible apply on_flushPort | with_reducible apply on_ite | with_reducible apply on_ite2 | with_reducible apply on_fold | with_reducible apply on_fold2 | with_reducible rfl | exact .inl rfl | exact .inr rfl | rfl | with_reducible assumption | intro _ | (split <;> try (rename_i h; first | (have e := congrArg Prod.snd h; dsimp only at e; subst e) | (have e := rxTake_eq h; subst e))) | with_reducible apply on_upd

theorem on_gatesNext {L : List ChPart} {c₀ x₀ : Channel} (hL : partsIn [.sched] L = true) (hF : Channel.onlyIn L c₀ x₀) : Channel.onlyIn L c₀ (Channel.gatesNext x₀) := by
  refine Channel.onlyIn_step hL hF ?_
  unfold Channel.gatesNext
  try dsimp only
  repeat' first | with_reducible exact Channel.onlyIn_refl _ _ | with_reducible apply on_setSp | with_reducible apply on_ite | with_reducible apply on_ite2 | with_reducible apply on_fold | with_reducible apply on_fold2 | with_reducible rfl | exact .inl rfl | exact .inr rfl | rfl | with_reducible assumption | intro _ | (split <;> try (rename_i h; first | (have e := congrArg Prod.snd h; dsimp only at e; subst e) | (have e := rxTake_eq h; subst e)))

theorem on_flushDisabled {L : List ChPart} {c₀ x₀ : Channel} (hL : partsIn [.sched, .sealb, .pmu, .free, .asks] L = true) (hF : Channel.onlyIn L c₀ x₀) : Channel.onlyIn L c₀ (Channel.flushDisabled x₀) := by
  refine Channel.onlyIn_step hL hF ?_
  unfold Channel.flushDisabled
  try dsimp only
  repeat' first | with_reducible exact Channel.onlyIn_refl _ _ | with_reducible apply on_flushQ | with_reducible apply on_ite | with_reducible apply on_ite2 | with_reducible apply on_fold | with_reducible apply on_fold2 | with_reducible rfl | exact .inl rfl | exact .inr rfl | rfl | with_reducible assumption | intro _ | (split <;> try (rename_i h; first | (have e := congrArg Prod.snd h; dsimp only at e; subst e) | (have e := rxTake_eq h; subst e)))

theorem on_dropWhere {L : List ChPart} {c₀ x₀ : Channel} (p : PortIx) (bad : QFrame → Bool) (count : List QFrame → Channel → Channel) (hcount : ∀ v0 v1, Channel.onlyIn L v1 (count v0 v1)) (hL : partsIn [.sched, .pmu, .free, .asks] L = true) (hF : Channel.onlyIn L c₀ x₀) : Channel.onlyIn L c₀ (Channel.dropWhere x₀ p bad count) := by
  refine Channel.onlyIn_trans hF ?_
  unfold Channel.dropWhere
  try dsimp only
  repeat' first | with_reducible exact Channel.onlyIn_refl _ _ | with_reducible apply on_putEq | with_reducible apply on_headCheck | with_reducible apply on_wasted | with_reducible apply on_ite | with_reducible apply on_ite2 | (refine Channel.onlyIn_trans ?_ (hcount _ _)) | with_reducible apply on_fold | with_reducible apply on_fold2 | with_reducible rfl | exact .inl rfl | exact .inr rfl | rfl | with_reducible assumption | exact partsIn_trans rfl hL | exact partsIn_mem rfl hL | exact .inl (partsIn_mem rfl hL) | intro _ | (split <;> try (rename_i h; first | (have e := congrArg Prod.snd h; dsimp only at e; subst e) | (have e := rxTake_eq h; subst e)))

theorem on_dropKeyed {L : List ChPart} {c₀ x₀ : Channel} (slots : List ℕ) (p : PortIx) (hL : partsIn [.sched, .sealb, .pmu, .free, .asks] L = true) (hF : Channel.onlyIn L c₀ x₀) : Channel.onlyIn L c₀ (Channel.dropKeyed x₀ slots p) := by
  refine Channel.onlyIn_step hL hF ?_
  unfold Channel.dropKeyed
  try dsimp only
  repeat' first | with_reducible exact Channel.onlyIn_refl _ _ | with_reducible apply on_dropWhere | with_reducible apply on_evt | with_reducible apply on_bumpBy | with_reducible apply on_ite | with_reducible apply on_ite2 | with_reducible rfl | exact .inl rfl | exact .inr rfl | rfl | with_reducible assumption | intro _ | (split <;> try (rename_i h; first | (have e := congrArg Prod.snd h; dsimp only at e; subst e) | (have e := rxTake_eq h; subst e)))

theorem on_dropCores {L : List ChPart} {c₀ x₀ : Channel} (slots : List ℕ) (hL : partsIn [.sealb, .pmu, .free, .asks] L = true) (hF : Channel.onlyIn L c₀ x₀) : Channel.onlyIn L c₀ (Channel.dropCores x₀ slots) := by
  refine Channel.onlyIn_step hL hF ?_
  unfold Channel.dropCores
  try dsimp only
  repeat' first | with_reducible exact Channel.onlyIn_refl _ _ | with_reducible apply on_wasted | with_reducible apply on_evt | with_reducible apply on_bumpBy | with_reducible apply on_ite | with_reducible apply on_ite2 | with_reducible apply on_fold | with_reducible apply on_fold2 | with_reducible rfl | exact .inl rfl | exact .inr rfl | rfl | with_reducible assumption | intro _ | (split <;> try (rename_i h; first | (have e := congrArg Prod.snd h; dsimp only at e; subst e) | (have e := rxTake_eq h; subst e))) | with_reducible apply on_upd

theorem on_commitQ {L : List ChPart} {c₀ x₀ : Channel} (p : PortIx) (q : ℕ) (hL : partsIn [.sched, .pmu, .free, .asks] L = true) (hF : Channel.onlyIn L c₀ x₀) : Channel.onlyIn L c₀ (Channel.commitQ x₀ p q).2 := by
  refine Channel.onlyIn_step hL hF ?_
  unfold Channel.commitQ
  try dsimp only
  repeat' first | with_reducible exact Channel.onlyIn_refl _ _ | with_reducible apply on_setSp | with_reducible apply on_headCheck | with_reducible apply on_bump | with_reducible apply on_putEq | with_reducible apply on_ite | with_reducible apply on_ite2 | with_reducible rfl | exact .inl rfl | exact .inr rfl | rfl | with_reducible assumption | intro _ | (split <;> try (rename_i h; first | (have e := congrArg Prod.snd h; dsimp only at e; subst e) | (have e := rxTake_eq h; subst e)))

theorem on_gateBoundary {L : List ChPart} {c₀ x₀ : Channel} (_p : PortIx) (hF : Channel.onlyIn L c₀ x₀) : Channel.onlyIn L c₀ (Channel.gateBoundary x₀ _p) := by
  refine Channel.onlyIn_trans hF ?_
  unfold Channel.gateBoundary
  try dsimp only
  repeat' first | with_reducible exact Channel.onlyIn_refl _ _ | with_reducible apply on_ite | with_reducible apply on_ite2 | with_reducible rfl | exact .inl rfl | exact .inr rfl | rfl | with_reducible assumption | intro _ | (split <;> try (rename_i h; first | (have e := congrArg Prod.snd h; dsimp only at e; subst e) | (have e := rxTake_eq h; subst e)))

theorem on_gateSwap {L : List ChPart} {c₀ x₀ : Channel} (p : PortIx) (hL : partsIn [.sched] L = true) (hF : Channel.onlyIn L c₀ x₀) : Channel.onlyIn L c₀ (Channel.gateSwap x₀ p).2 := by
  refine Channel.onlyIn_step hL hF ?_
  unfold Channel.gateSwap
  try dsimp only
  repeat' first | with_reducible exact Channel.onlyIn_refl _ _ | with_reducible apply on_put | with_reducible apply on_setSp | with_reducible apply on_putGt | with_reducible apply on_ite | with_reducible apply on_ite2 | with_reducible rfl | exact .inl rfl | exact .inr rfl | rfl | with_reducible assumption | intro _ | (split <;> try (rename_i h; first | (have e := congrArg Prod.snd h; dsimp only at e; subst e) | (have e := rxTake_eq h; subst e)))

theorem on_gateCancel {L : List ChPart} {c₀ x₀ : Channel} (p : PortIx) (hL : partsIn [.sched] L = true) (hF : Channel.onlyIn L c₀ x₀) : Channel.onlyIn L c₀ (Channel.gateCancel x₀ p).2 := by
  refine Channel.onlyIn_step hL hF ?_
  unfold Channel.gateCancel
  try dsimp only
  repeat' first | with_reducible exact Channel.onlyIn_refl _ _ | with_reducible apply on_put | with_reducible apply on_setSp | with_reducible apply on_ite | with_reducible apply on_ite2 | with_reducible rfl | exact .inl rfl | exact .inr rfl | rfl | with_reducible assumption | intro _ | (split <;> try (rename_i h; first | (have e := congrArg Prod.snd h; dsimp only at e; subst e) | (have e := rxTake_eq h; subst e)))

theorem on_gateSwitch {L : List ChPart} {c₀ x₀ : Channel} (p : PortIx) (hL : partsIn [.sched, .pmu, .free, .asks] L = true) (hF : Channel.onlyIn L c₀ x₀) : Channel.onlyIn L c₀ (Channel.gateSwitch x₀ p) := by
  refine Channel.onlyIn_step hL hF ?_
  unfold Channel.gateSwitch
  try dsimp only
  repeat' first | with_reducible exact Channel.onlyIn_refl _ _ | with_reducible apply on_setSp | with_reducible apply on_put | with_reducible apply on_putGt | with_reducible apply on_evt | with_reducible apply on_ask | with_reducible apply on_headCheck | with_reducible apply on_ite | with_reducible apply on_ite2 | with_reducible apply on_fold | with_reducible apply on_fold2 | with_reducible rfl | exact .inl rfl | exact .inr rfl | rfl | with_reducible assumption | intro _ | (split <;> try (rename_i h; first | (have e := congrArg Prod.snd h; dsimp only at e; subst e) | (have e := rxTake_eq h; subst e)))

theorem on_sampleQ {L : List ChPart} {c₀ x₀ : Channel} (p : PortIx) (q : ℕ) (hL : partsIn [.sched] L = true) (hF : Channel.onlyIn L c₀ x₀) : Channel.onlyIn L c₀ (Channel.sampleQ p x₀ q) := by
  refine Channel.onlyIn_step hL hF ?_
  unfold Channel.sampleQ
  try dsimp only
  repeat' first | with_reducible exact Channel.onlyIn_refl _ _ | with_reducible apply on_putEq | with_reducible apply on_ite | with_reducible apply on_ite2 | with_reducible rfl | exact .inl rfl | exact .inr rfl | rfl | with_reducible assumption | intro _ | (split <;> try (rename_i h; first | (have e := congrArg Prod.snd h; dsimp only at e; subst e) | (have e := rxTake_eq h; subst e)))

theorem on_samplePort {L : List ChPart} {c₀ x₀ : Channel} (p : PortIx) (hL : partsIn [.sched, .port, .sealb, .pmu, .free, .asks] L = true) (hF : Channel.onlyIn L c₀ x₀) : Channel.onlyIn L c₀ (Channel.samplePort x₀ p) := by
  refine Channel.onlyIn_step hL hF ?_
  unfold Channel.samplePort
  try dsimp only
  repeat' first | with_reducible exact Channel.onlyIn_refl _ _ | with_reducible apply on_flushLost | with_reducible apply on_sampleQ | with_reducible apply on_ite | with_reducible apply on_ite2 | with_reducible apply on_fold | with_reducible apply on_fold2 | with_reducible rfl | exact .inl rfl | exact .inr rfl | rfl | with_reducible assumption | intro _ | (split <;> try (rename_i h; first | (have e := congrArg Prod.snd h; dsimp only at e; subst e) | (have e := rxTake_eq h; subst e)))

theorem on_settleAll {L : List ChPart} {c₀ x₀ : Channel} (hL : partsIn [.sched] L = true) (hF : Channel.onlyIn L c₀ x₀) : Channel.onlyIn L c₀ (Channel.settleAll x₀) := by
  refine Channel.onlyIn_step hL hF ?_
  unfold Channel.settleAll
  try dsimp only
  repeat' first | with_reducible exact Channel.onlyIn_refl _ _ | with_reducible apply on_settleQ | with_reducible apply on_ite | with_reducible apply on_ite2 | with_reducible apply on_fold | with_reducible apply on_fold2 | with_reducible rfl | exact .inl rfl | exact .inr rfl | rfl | with_reducible assumption | intro _ | (split <;> try (rename_i h; first | (have e := congrArg Prod.snd h; dsimp only at e; subst e) | (have e := rxTake_eq h; subst e)))

theorem on_fillShapers {L : List ChPart} {c₀ x₀ : Channel} (hL : partsIn [.sched] L = true) (hF : Channel.onlyIn L c₀ x₀) : Channel.onlyIn L c₀ (Channel.fillShapers x₀) := by
  refine Channel.onlyIn_step hL hF ?_
  unfold Channel.fillShapers
  try dsimp only
  repeat' first | with_reducible exact Channel.onlyIn_refl _ _ | with_reducible apply on_fillQ | with_reducible apply on_ite | with_reducible apply on_ite2 | with_reducible apply on_fold | with_reducible apply on_fold2 | with_reducible rfl | exact .inl rfl | exact .inr rfl | rfl | with_reducible assumption | intro _ | (split <;> try (rename_i h; first | (have e := congrArg Prod.snd h; dsimp only at e; subst e) | (have e := rxTake_eq h; subst e)))

theorem on_freePulse {L : List ChPart} {c₀ x₀ : Channel} (hL : partsIn [.free] L = true) (hF : Channel.onlyIn L c₀ x₀) : Channel.onlyIn L c₀ (Channel.freePulse x₀).2 := by
  refine Channel.onlyIn_step hL hF ?_
  unfold Channel.freePulse
  try dsimp only
  repeat' first | with_reducible exact Channel.onlyIn_refl _ _ | with_reducible apply on_free | with_reducible apply on_ite | with_reducible apply on_ite2 | with_reducible rfl | exact .inl rfl | exact .inr rfl | rfl | with_reducible assumption | intro _ | (split <;> try (rename_i h; first | (have e := congrArg Prod.snd h; dsimp only at e; subst e) | (have e := rxTake_eq h; subst e)))

theorem on_refinEdge {L : List ChPart} {c₀ x₀ : Channel} (n : LaneIx) (ps : ℕ) (hL : partsIn [.ref, .free] L = true) (hF : Channel.onlyIn L c₀ x₀) : Channel.onlyIn L c₀ (Channel.refinEdge x₀ n ps) := by
  refine Channel.onlyIn_step hL hF ?_
  unfold Channel.refinEdge
  try dsimp only
  repeat' first | with_reducible exact Channel.onlyIn_refl _ _ | with_reducible apply on_freePulse | with_reducible apply on_measure | with_reducible apply on_updLane | with_reducible apply on_ite | with_reducible apply on_ite2 | with_reducible rfl | exact .inl rfl | exact .inr rfl | rfl | with_reducible assumption | intro _ | (split <;> try (rename_i h; first | (have e := congrArg Prod.snd h; dsimp only at e; subst e) | (have e := rxTake_eq h; subst e)))

theorem on_todSentence {L : List ChPart} {c₀ x₀ : Channel} (k : ℕ) (bs : Bytes) (ago : ℕ) (hL : partsIn [.ref, .free, .asks] L = true) (hF : Channel.onlyIn L c₀ x₀) : Channel.onlyIn L c₀ (Channel.todSentence x₀ k bs ago) := by
  refine Channel.onlyIn_step hL hF ?_
  unfold Channel.todSentence
  try dsimp only
  repeat' first | with_reducible exact Channel.onlyIn_refl _ _ | with_reducible apply on_bump | with_reducible apply on_updLane | with_reducible apply on_freePulse | with_reducible apply on_measure | with_reducible apply on_evt | with_reducible apply on_ite | with_reducible apply on_ite2 | with_reducible rfl | exact .inl rfl | exact .inr rfl | rfl | with_reducible assumption | intro _ | (split <;> try (rename_i h; first | (have e := congrArg Prod.snd h; dsimp only at e; subst e) | (have e := rxTake_eq h; subst e)))

theorem on_todUnlabelled {L : List ChPart} {c₀ x₀ : Channel} (n : LaneIx) (e : TodEdge) (hL : partsIn [.ref, .free] L = true) (hF : Channel.onlyIn L c₀ x₀) : Channel.onlyIn L c₀ (Channel.todUnlabelled n x₀ e) := by
  refine Channel.onlyIn_step hL hF ?_
  unfold Channel.todUnlabelled
  try dsimp only
  repeat' first | with_reducible exact Channel.onlyIn_refl _ _ | with_reducible apply on_freePulse | with_reducible apply on_measure | with_reducible apply on_ite | with_reducible apply on_ite2 | with_reducible rfl | exact .inl rfl | exact .inr rfl | rfl | with_reducible assumption | intro _ | (split <;> try (rename_i h; first | (have e := congrArg Prod.snd h; dsimp only at e; subst e) | (have e := rxTake_eq h; subst e)))

theorem on_todWindowEnd {L : List ChPart} {c₀ x₀ : Channel} (n : LaneIx) (hL : partsIn [.ref, .free] L = true) (hF : Channel.onlyIn L c₀ x₀) : Channel.onlyIn L c₀ (Channel.todWindowEnd x₀ n) := by
  refine Channel.onlyIn_step hL hF ?_
  unfold Channel.todWindowEnd
  try dsimp only
  repeat' first | with_reducible exact Channel.onlyIn_refl _ _ | with_reducible apply on_todUnlabelled | with_reducible apply on_updLane | with_reducible apply on_ite | with_reducible apply on_ite2 | with_reducible apply on_fold | with_reducible apply on_fold2 | with_reducible rfl | exact .inl rfl | exact .inr rfl | rfl | with_reducible assumption | intro _ | (split <;> try (rename_i h; first | (have e := congrArg Prod.snd h; dsimp only at e; subst e) | (have e := rxTake_eq h; subst e)))

theorem on_freqBoundary {L : List ChPart} {c₀ x₀ : Channel} (n : LaneIx) (freq : ℤ) (off : ℤ) (hL : partsIn [.ref] L = true) (hF : Channel.onlyIn L c₀ x₀) : Channel.onlyIn L c₀ (Channel.freqBoundary x₀ n freq off) := by
  refine Channel.onlyIn_step hL hF ?_
  unfold Channel.freqBoundary
  try dsimp only
  repeat' first | with_reducible exact Channel.onlyIn_refl _ _ | with_reducible apply on_measure | with_reducible apply on_ite | with_reducible apply on_ite2 | with_reducible rfl | exact .inl rfl | exact .inr rfl | rfl | with_reducible assumption | intro _ | (split <;> try (rename_i h; first | (have e := congrArg Prod.snd h; dsimp only at e; subst e) | (have e := rxTake_eq h; subst e)))

theorem on_setPs {L : List ChPart} {c₀ x₀ : Channel} (p : PortIx) (x : PortSt) (hL : partsIn [.port] L = true) (hF : Channel.onlyIn L c₀ x₀) : Channel.onlyIn L c₀ (Channel.setPs x₀ p x) := by
  refine Channel.onlyIn_step hL hF ?_
  unfold Channel.setPs
  try dsimp only
  repeat' first | with_reducible exact Channel.onlyIn_refl _ _ | with_reducible apply on_ite | with_reducible apply on_ite2 | with_reducible rfl | exact .inl rfl | exact .inr rfl | rfl | with_reducible assumption | intro _ | (split <;> try (rename_i h; first | (have e := congrArg Prod.snd h; dsimp only at e; subst e) | (have e := rxTake_eq h; subst e))) | with_reducible apply on_upd

theorem on_updPs {L : List ChPart} {c₀ x₀ : Channel} (p : PortIx) (f : PortSt → PortSt) (hL : partsIn [.port] L = true) (hF : Channel.onlyIn L c₀ x₀) : Channel.onlyIn L c₀ (Channel.updPs x₀ p f) := by
  refine Channel.onlyIn_step hL hF ?_
  unfold Channel.updPs
  try dsimp only
  repeat' first | with_reducible exact Channel.onlyIn_refl _ _ | with_reducible apply on_setPs | with_reducible apply on_ite | with_reducible apply on_ite2 | with_reducible rfl | exact .inl rfl | exact .inr rfl | rfl | with_reducible assumption | intro _ | (split <;> try (rename_i h; first | (have e := congrArg Prod.snd h; dsimp only at e; subst e) | (have e := rxTake_eq h; subst e)))

theorem on_updLc {L : List ChPart} {c₀ x₀ : Channel} (p : PortIx) (f : LaneClient → LaneClient) (hL : partsIn [.port] L = true) (hF : Channel.onlyIn L c₀ x₀) : Channel.onlyIn L c₀ (Channel.updLc x₀ p f) := by
  refine Channel.onlyIn_step hL hF ?_
  unfold Channel.updLc
  try dsimp only
  repeat' first | with_reducible exact Channel.onlyIn_refl _ _ | with_reducible apply on_updPs | with_reducible apply on_ite | with_reducible apply on_ite2 | with_reducible rfl | exact .inl rfl | exact .inr rfl | rfl | with_reducible assumption | intro _ | (split <;> try (rename_i h; first | (have e := congrArg Prod.snd h; dsimp only at e; subst e) | (have e := rxTake_eq h; subst e)))

theorem on_linkChange {L : List ChPart} {c₀ x₀ : Channel} (p : PortIx) (st : ℕ) (timer : Option ℕ) (hL : partsIn [.port, .asks] L = true) (hF : Channel.onlyIn L c₀ x₀) : Channel.onlyIn L c₀ (Channel.linkChange x₀ p st timer) := by
  refine Channel.onlyIn_step hL hF ?_
  unfold Channel.linkChange
  try dsimp only
  repeat' first | with_reducible exact Channel.onlyIn_refl _ _ | with_reducible apply on_updPs | with_reducible apply on_evt | with_reducible apply on_put | with_reducible apply on_ite | with_reducible apply on_ite2 | with_reducible rfl | exact .inl rfl | exact .inr rfl | rfl | with_reducible assumption | intro _ | (split <;> try (rename_i h; first | (have e := congrArg Prod.snd h; dsimp only at e; subst e) | (have e := rxTake_eq h; subst e)))

theorem on_linkRestart {L : List ChPart} {c₀ x₀ : Channel} (p : PortIx) (hL : partsIn [.port, .asks] L = true) (hF : Channel.onlyIn L c₀ x₀) : Channel.onlyIn L c₀ (Channel.linkRestart x₀ p) := by
  refine Channel.onlyIn_step hL hF ?_
  unfold Channel.linkRestart
  try dsimp only
  repeat' first | with_reducible exact Channel.onlyIn_refl _ _ | with_reducible apply on_linkChange | with_reducible apply on_put | with_reducible apply on_ite | with_reducible apply on_ite2 | with_reducible rfl | exact .inl rfl | exact .inr rfl | rfl | with_reducible assumption | intro _ | (split <;> try (rename_i h; first | (have e := congrArg Prod.snd h; dsimp only at e; subst e) | (have e := rxTake_eq h; subst e)))

theorem on_anComplete {L : List ChPart} {c₀ x₀ : Channel} (p : PortIx) (peer : ℕ) (rs : Bool) (br : Bool) (hL : partsIn [.port, .asks] L = true) (hF : Channel.onlyIn L c₀ x₀) : Channel.onlyIn L c₀ (Channel.anComplete x₀ p peer rs br) := by
  refine Channel.onlyIn_step hL hF ?_
  unfold Channel.anComplete
  try dsimp only
  repeat' first | with_reducible exact Channel.onlyIn_refl _ _ | with_reducible apply on_evt | with_reducible apply on_put | with_reducible apply on_linkChange | with_reducible apply on_ite | with_reducible apply on_ite2 | with_reducible rfl | exact .inl rfl | exact .inr rfl | rfl | with_reducible assumption | intro _ | (split <;> try (rename_i h; first | (have e := congrArg Prod.snd h; dsimp only at e; subst e) | (have e := rxTake_eq h; subst e)))

theorem on_trainComplete {L : List ChPart} {c₀ x₀ : Channel} (p : PortIx) (hL : partsIn [.port, .asks] L = true) (hF : Channel.onlyIn L c₀ x₀) : Channel.onlyIn L c₀ (Channel.trainComplete x₀ p) := by
  refine Channel.onlyIn_step hL hF ?_
  unfold Channel.trainComplete
  try dsimp only
  repeat' first | with_reducible exact Channel.onlyIn_refl _ _ | with_reducible apply on_linkChange | with_reducible apply on_ite | with_reducible apply on_ite2 | with_reducible rfl | exact .inl rfl | exact .inr rfl | rfl | with_reducible assumption | intro _ | (split <;> try (rename_i h; first | (have e := congrArg Prod.snd h; dsimp only at e; subst e) | (have e := rxTake_eq h; subst e)))

theorem on_trainTimeout {L : List ChPart} {c₀ x₀ : Channel} (p : PortIx) (hL : partsIn [.port, .asks] L = true) (hF : Channel.onlyIn L c₀ x₀) : Channel.onlyIn L c₀ (Channel.trainTimeout x₀ p) := by
  refine Channel.onlyIn_step hL hF ?_
  unfold Channel.trainTimeout
  try dsimp only
  repeat' first | with_reducible exact Channel.onlyIn_refl _ _ | with_reducible apply on_evt | with_reducible apply on_linkRestart | with_reducible apply on_ite | with_reducible apply on_ite2 | with_reducible rfl | exact .inl rfl | exact .inr rfl | rfl | with_reducible assumption | intro _ | (split <;> try (rename_i h; first | (have e := congrArg Prod.snd h; dsimp only at e; subst e) | (have e := rxTake_eq h; subst e)))

theorem on_alignLock {L : List ChPart} {c₀ x₀ : Channel} (p : PortIx) (vI : ℤ) (vE : ℤ) (hL : partsIn [.port, .asks] L = true) (hF : Channel.onlyIn L c₀ x₀) : Channel.onlyIn L c₀ (Channel.alignLock x₀ p vI vE) := by
  refine Channel.onlyIn_step hL hF ?_
  unfold Channel.alignLock
  try dsimp only
  repeat' first | with_reducible exact Channel.onlyIn_refl _ _ | with_reducible apply on_updPs | with_reducible apply on_linkChange | with_reducible apply on_evt | with_reducible apply on_put | with_reducible apply on_ite | with_reducible apply on_ite2 | with_reducible rfl | exact .inl rfl | exact .inr rfl | rfl | with_reducible assumption | intro _ | (split <;> try (rename_i h; first | (have e := congrArg Prod.snd h; dsimp only at e; subst e) | (have e := rxTake_eq h; subst e)))

theorem on_alignTimeout {L : List ChPart} {c₀ x₀ : Channel} (p : PortIx) (hL : partsIn [.port, .asks] L = true) (hF : Channel.onlyIn L c₀ x₀) : Channel.onlyIn L c₀ (Channel.alignTimeout x₀ p) := by
  refine Channel.onlyIn_step hL hF ?_
  unfold Channel.alignTimeout
  try dsimp only
  repeat' first | with_reducible exact Channel.onlyIn_refl _ _ | with_reducible apply on_linkRestart | with_reducible apply on_ite | with_reducible apply on_ite2 | with_reducible rfl | exact .inl rfl | exact .inr rfl | rfl | with_reducible assumption | intro _ | (split <;> try (rename_i h; first | (have e := congrArg Prod.snd h; dsimp only at e; subst e) | (have e := rxTake_eq h; subst e)))

theorem on_discardFlight {L : List ChPart} {c₀ x₀ : Channel} (p : PortIx) (f : InFlight) (hL : partsIn [.pmu, .free, .asks] L = true) (hF : Channel.onlyIn L c₀ x₀) : Channel.onlyIn L c₀ (Channel.discardFlight p x₀ f) := by
  refine Channel.onlyIn_step hL hF ?_
  unfold Channel.discardFlight
  try dsimp only
  repeat' first | with_reducible exact Channel.onlyIn_refl _ _ | with_reducible apply on_wasted | with_reducible apply on_pmuEvt | with_reducible apply on_ite | with_reducible apply on_ite2 | with_reducible rfl | exact .inl rfl | exact .inr rfl | rfl | with_reducible assumption | intro _ | (split <;> try (rename_i h; first | (have e := congrArg Prod.snd h; dsimp only at e; subst e) | (have e := rxTake_eq h; subst e)))

theorem on_dropFlight {L : List ChPart} {c₀ x₀ : Channel} (p : PortIx) (f : InFlight) (hL : partsIn [.port, .pmu, .free, .asks] L = true) (hF : Channel.onlyIn L c₀ x₀) : Channel.onlyIn L c₀ (Channel.dropFlight p x₀ f) := by
  refine Channel.onlyIn_step hL hF ?_
  unfold Channel.dropFlight
  try dsimp only
  repeat' first | with_reducible exact Channel.onlyIn_refl _ _ | with_reducible apply on_discardFlight | with_reducible apply on_bump | with_reducible apply on_updPs | with_reducible apply on_ite | with_reducible apply on_ite2 | with_reducible rfl | exact .inl rfl | exact .inr rfl | rfl | with_reducible assumption | intro _ | (split <;> try (rename_i h; first | (have e := congrArg Prod.snd h; dsimp only at e; subst e) | (have e := rxTake_eq h; subst e)))

theorem on_dropFlights {L : List ChPart} {c₀ x₀ : Channel} (p : PortIx) (hL : partsIn [.port, .pmu, .free, .asks] L = true) (hF : Channel.onlyIn L c₀ x₀) : Channel.onlyIn L c₀ (Channel.dropFlights x₀ p) := by
  refine Channel.onlyIn_step hL hF ?_
  unfold Channel.dropFlights
  try dsimp only
  repeat' first | with_reducible exact Channel.onlyIn_refl _ _ | with_reducible apply on_updPs | with_reducible apply on_dropFlight | with_reducible apply on_ite | with_reducible apply on_ite2 | with_reducible apply on_fold | with_reducible apply on_fold2 | with_reducible rfl | exact .inl rfl | exact .inr rfl | rfl | with_reducible assumption | intro _ | (split <;> try (rename_i h; first | (have e := congrArg Prod.snd h; dsimp only at e; subst e) | (have e := rxTake_eq h; subst e)))

theorem on_leaveUp {L : List ChPart} {c₀ x₀ : Channel} (p : PortIx) (hL : partsIn [.port, .pmu, .free, .asks] L = true) (hF : Channel.onlyIn L c₀ x₀) : Channel.onlyIn L c₀ (Channel.leaveUp x₀ p) := by
  refine Channel.onlyIn_step hL hF ?_
  unfold Channel.leaveUp
  try dsimp only
  repeat' first | with_reducible exact Channel.onlyIn_refl _ _ | with_reducible apply on_bump | with_reducible apply on_put | with_reducible apply on_updPs | with_reducible apply on_dropFlights | with_reducible apply on_ite | with_reducible apply on_ite2 | with_reducible rfl | exact .inl rfl | exact .inr rfl | rfl | with_reducible assumption | intro _ | (split <;> try (rename_i h; first | (have e := congrArg Prod.snd h; dsimp only at e; subst e) | (have e := rxTake_eq h; subst e)))

theorem on_linkLoss {L : List ChPart} {c₀ x₀ : Channel} (p : PortIx) (hL : partsIn [.port, .pmu, .free, .asks] L = true) (hF : Channel.onlyIn L c₀ x₀) : Channel.onlyIn L c₀ (Channel.linkLoss x₀ p) := by
  refine Channel.onlyIn_step hL hF ?_
  unfold Channel.linkLoss
  try dsimp only
  repeat' first | with_reducible exact Channel.onlyIn_refl _ _ | with_reducible apply on_linkRestart | with_reducible apply on_leaveUp | with_reducible apply on_ite | with_reducible apply on_ite2 | with_reducible rfl | exact .inl rfl | exact .inr rfl | rfl | with_reducible assumption | intro _ | (split <;> try (rename_i h; first | (have e := congrArg Prod.snd h; dsimp only at e; subst e) | (have e := rxTake_eq h; subst e)))

theorem on_portCommitted {L : List ChPart} {c₀ x₀ : Channel} (old : Channel) (p : PortIx) (hL : partsIn [.port, .pmu, .free, .asks] L = true) (hF : Channel.onlyIn L c₀ x₀) : Channel.onlyIn L c₀ (Channel.portCommitted old p x₀) := by
  refine Channel.onlyIn_step hL hF ?_
  unfold Channel.portCommitted
  try dsimp only
  repeat' first | with_reducible exact Channel.onlyIn_refl _ _ | with_reducible apply on_updPs | with_reducible apply on_linkRestart | with_reducible apply on_linkChange | with_reducible apply on_put | with_reducible apply on_leaveUp | with_reducible apply on_ite | with_reducible apply on_ite2 | with_reducible rfl | exact .inl rfl | exact .inr rfl | rfl | with_reducible assumption | intro _ | (split <;> try (rename_i h; first | (have e := congrArg Prod.snd h; dsimp only at e; subst e) | (have e := rxTake_eq h; subst e)))

theorem on_tsrWrite {L : List ChPart} {c₀ x₀ : Channel} (p : PortIx) (s : Channel.Stamp) (seqid : ℕ) (msg : ℕ) (fl : ℕ) (handle : Option ℕ) (hL : partsIn [.port, .free, .asks] L = true) (hF : Channel.onlyIn L c₀ x₀) : Channel.onlyIn L c₀ (Channel.tsrWrite x₀ p s seqid msg fl handle).2 := by
  refine Channel.onlyIn_step hL hF ?_
  unfold Channel.tsrWrite
  try dsimp only
  repeat' first | with_reducible exact Channel.onlyIn_refl _ _ | with_reducible apply on_evt | with_reducible apply on_bump | with_reducible apply on_free | with_reducible apply on_setPs | with_reducible apply on_put | with_reducible apply on_ite | with_reducible apply on_ite2 | with_reducible rfl | exact .inl rfl | exact .inr rfl | rfl | with_reducible assumption | intro _ | (split <;> try (rename_i h; first | (have e := congrArg Prod.snd h; dsimp only at e; subst e) | (have e := rxTake_eq h; subst e)))

theorem on_freqFb {L : List ChPart} {c₀ x₀ : Channel} (prev : Option LanePrev) (refTs : Gt) (offset : Gt) (k : ℤ) (teb : Bound) (missed : Bool) (hL : partsIn [.free] L = true) (hF : Channel.onlyIn L c₀ x₀) : Channel.onlyIn L c₀ (Channel.freqFb x₀ prev refTs offset k teb missed).2 := by
  refine Channel.onlyIn_step hL hF ?_
  unfold Channel.freqFb
  try dsimp only
  repeat' first | with_reducible exact Channel.onlyIn_refl _ _ | with_reducible apply on_free | with_reducible apply on_ite | with_reducible apply on_ite2 | with_reducible rfl | exact .inl rfl | exact .inr rfl | rfl | with_reducible assumption | intro _ | (split <;> try (rename_i h; first | (have e := congrArg Prod.snd h; dsimp only at e; subst e) | (have e := rxTake_eq h; subst e)))

theorem on_ptpRecord {L : List ChPart} {c₀ x₀ : Channel} (p : PortIx) (t1 : Gt) (t2 : Gt) (k : ℤ) (seq : ℕ) (tlv : Option (Bound × Word)) (hL : partsIn [.ref, .port, .free] L = true) (hF : Channel.onlyIn L c₀ x₀) : Channel.onlyIn L c₀ (Channel.ptpRecord x₀ p t1 t2 k seq tlv) := by
  refine Channel.onlyIn_step hL hF ?_
  unfold Channel.ptpRecord
  try dsimp only
  repeat' first | with_reducible exact Channel.onlyIn_refl _ _ | with_reducible apply on_updLc | with_reducible apply on_freqFb | with_reducible apply on_measure | with_reducible apply on_ite | with_reducible apply on_ite2 | with_reducible rfl | exact .inl rfl | exact .inr rfl | rfl | with_reducible assumption | intro _ | (split <;> try (rename_i h; first | (have e := congrArg Prod.snd h; dsimp only at e; subst e) | (have e := rxTake_eq h; subst e)))

theorem on_synceRecord {L : List ChPart} {c₀ x₀ : Channel} (p : PortIx) (freq : ℤ) (off : ℤ) (hL : partsIn [.ref] L = true) (hF : Channel.onlyIn L c₀ x₀) : Channel.onlyIn L c₀ (Channel.synceRecord x₀ p freq off) := by
  refine Channel.onlyIn_step hL hF ?_
  unfold Channel.synceRecord
  try dsimp only
  repeat' first | with_reducible exact Channel.onlyIn_refl _ _ | with_reducible apply on_measure | with_reducible apply on_ite | with_reducible apply on_ite2 | with_reducible rfl | exact .inl rfl | exact .inr rfl | rfl | with_reducible assumption | intro _ | (split <;> try (rename_i h; first | (have e := congrArg Prod.snd h; dsimp only at e; subst e) | (have e := rxTake_eq h; subst e)))

theorem on_sendQl {L : List ChPart} {c₀ x₀ : Channel} (p : PortIx) (event : Bool) (hL : partsIn [.port, .pmu, .asks] L = true) (hF : Channel.onlyIn L c₀ x₀) : Channel.onlyIn L c₀ (Channel.sendQl x₀ p event) := by
  refine Channel.onlyIn_step hL hF ?_
  unfold Channel.sendQl
  try dsimp only
  repeat' first | with_reducible exact Channel.onlyIn_refl _ _ | with_reducible apply on_updPs | with_reducible apply on_ask | with_reducible apply on_bwTx | with_reducible apply on_ite | with_reducible apply on_ite2 | with_reducible rfl | exact .inl rfl | exact .inr rfl | rfl | with_reducible assumption | intro _ | (split <;> try (rename_i h; first | (have e := congrArg Prod.snd h; dsimp only at e; subst e) | (have e := rxTake_eq h; subst e)))

theorem on_esmcInfo {L : List ChPart} {c₀ x₀ : Channel} (p : PortIx) (hL : partsIn [.port, .pmu, .asks] L = true) (hF : Channel.onlyIn L c₀ x₀) : Channel.onlyIn L c₀ (Channel.esmcInfo x₀ p) := by
  refine Channel.onlyIn_step hL hF ?_
  unfold Channel.esmcInfo
  try dsimp only
  repeat' first | with_reducible exact Channel.onlyIn_refl _ _ | with_reducible apply on_sendQl | with_reducible apply on_ite | with_reducible apply on_ite2 | with_reducible rfl | exact .inl rfl | exact .inr rfl | rfl | with_reducible assumption | intro _ | (split <;> try (rename_i h; first | (have e := congrArg Prod.snd h; dsimp only at e; subst e) | (have e := rxTake_eq h; subst e)))

theorem on_esmcEvent {L : List ChPart} {c₀ x₀ : Channel} (p : PortIx) (hL : partsIn [.port, .pmu, .asks] L = true) (hF : Channel.onlyIn L c₀ x₀) : Channel.onlyIn L c₀ (Channel.esmcEvent p x₀) := by
  refine Channel.onlyIn_step hL hF ?_
  unfold Channel.esmcEvent
  try dsimp only
  repeat' first | with_reducible exact Channel.onlyIn_refl _ _ | with_reducible apply on_updPs | with_reducible apply on_sendQl | with_reducible apply on_ite | with_reducible apply on_ite2 | with_reducible rfl | exact .inl rfl | exact .inr rfl | rfl | with_reducible assumption | intro _ | (split <;> try (rename_i h; first | (have e := congrArg Prod.snd h; dsimp only at e; subst e) | (have e := rxTake_eq h; subst e)))

theorem on_esmcRx {L : List ChPart} {c₀ x₀ : Channel} (p : PortIx) (ql : ℕ) (len : ℕ) (hL : partsIn [.port, .pmu, .asks] L = true) (hF : Channel.onlyIn L c₀ x₀) : Channel.onlyIn L c₀ (Channel.esmcRx x₀ p ql len) := by
  refine Channel.onlyIn_step hL hF ?_
  unfold Channel.esmcRx
  try dsimp only
  repeat' first | with_reducible exact Channel.onlyIn_refl _ _ | with_reducible apply on_bwRx | with_reducible apply on_updPs | with_reducible apply on_put | with_reducible apply on_evt | with_reducible apply on_ite | with_reducible apply on_ite2 | with_reducible rfl | exact .inl rfl | exact .inr rfl | rfl | with_reducible assumption | intro _ | (split <;> try (rename_i h; first | (have e := congrArg Prod.snd h; dsimp only at e; subst e) | (have e := rxTake_eq h; subst e)))

theorem on_esmcLost {L : List ChPart} {c₀ x₀ : Channel} (p : PortIx) (hL : partsIn [.port, .asks] L = true) (hF : Channel.onlyIn L c₀ x₀) : Channel.onlyIn L c₀ (Channel.esmcLost x₀ p) := by
  refine Channel.onlyIn_step hL hF ?_
  unfold Channel.esmcLost
  try dsimp only
  repeat' first | with_reducible exact Channel.onlyIn_refl _ _ | with_reducible apply on_evt | with_reducible apply on_put | with_reducible apply on_ite | with_reducible apply on_ite2 | with_reducible rfl | exact .inl rfl | exact .inr rfl | rfl | with_reducible assumption | intro _ | (split <;> try (rename_i h; first | (have e := congrArg Prod.snd h; dsimp only at e; subst e) | (have e := rxTake_eq h; subst e)))

theorem on_txClamp {L : List ChPart} {c₀ x₀ : Channel} (old : Channel) (p : PortIx) (hL : partsIn [.port, .asks] L = true) (hF : Channel.onlyIn L c₀ x₀) : Channel.onlyIn L c₀ (Channel.txClamp old p x₀) := by
  refine Channel.onlyIn_step hL hF ?_
  unfold Channel.txClamp
  try dsimp only
  repeat' first | with_reducible exact Channel.onlyIn_refl _ _ | with_reducible apply on_evt | with_reducible apply on_ite | with_reducible apply on_ite2 | with_reducible rfl | exact .inl rfl | exact .inr rfl | rfl | with_reducible assumption | intro _ | (split <;> try (rename_i h; first | (have e := congrArg Prod.snd h; dsimp only at e; subst e) | (have e := rxTake_eq h; subst e)))

theorem on_portSettle {L : List ChPart} {c₀ x₀ : Channel} (old : Channel) (hL : partsIn [.port, .pmu, .asks] L = true) (hF : Channel.onlyIn L c₀ x₀) : Channel.onlyIn L c₀ (Channel.portSettle old x₀) := by
  refine Channel.onlyIn_step hL hF ?_
  unfold Channel.portSettle
  try dsimp only
  repeat' first | with_reducible exact Channel.onlyIn_refl _ _ | with_reducible apply on_esmcEvent | with_reducible apply on_txClamp | with_reducible apply on_ite | with_reducible apply on_ite2 | with_reducible rfl | exact .inl rfl | exact .inr rfl | rfl | with_reducible assumption | intro _ | (split <;> try (rename_i h; first | (have e := congrArg Prod.snd h; dsimp only at e; subst e) | (have e := rxTake_eq h; subst e)))

theorem on_pauseRx {L : List ChPart} {c₀ x₀ : Channel} (p : PortIx) (len : ℕ) (hL : partsIn [.port, .pmu] L = true) (hF : Channel.onlyIn L c₀ x₀) : Channel.onlyIn L c₀ (Channel.pauseRx x₀ p len) := by
  refine Channel.onlyIn_step hL hF ?_
  unfold Channel.pauseRx
  try dsimp only
  repeat' first | with_reducible exact Channel.onlyIn_refl _ _ | with_reducible apply on_bump | with_reducible apply on_bwRx | with_reducible apply on_ite | with_reducible apply on_ite2 | with_reducible rfl | exact .inl rfl | exact .inr rfl | rfl | with_reducible assumption | intro _ | (split <;> try (rename_i h; first | (have e := congrArg Prod.snd h; dsimp only at e; subst e) | (have e := rxTake_eq h; subst e)))

theorem on_oversizeRx {L : List ChPart} {c₀ x₀ : Channel} (p : PortIx) (len : ℕ) (hL : partsIn [.port, .pmu] L = true) (hF : Channel.onlyIn L c₀ x₀) : Channel.onlyIn L c₀ (Channel.oversizeRx x₀ p len) := by
  refine Channel.onlyIn_step hL hF ?_
  unfold Channel.oversizeRx
  try dsimp only
  repeat' first | with_reducible exact Channel.onlyIn_refl _ _ | with_reducible apply on_bump | with_reducible apply on_bwRx | with_reducible apply on_ite | with_reducible apply on_ite2 | with_reducible rfl | exact .inl rfl | exact .inr rfl | rfl | with_reducible assumption | intro _ | (split <;> try (rename_i h; first | (have e := congrArg Prod.snd h; dsimp only at e; subst e) | (have e := rxTake_eq h; subst e)))

theorem on_setSeal {L : List ChPart} {c₀ x₀ : Channel} (s : SealBlk) (hL : partsIn [.sealb] L = true) (hF : Channel.onlyIn L c₀ x₀) : Channel.onlyIn L c₀ (Channel.setSeal x₀ s) := by
  refine Channel.onlyIn_step hL hF ?_
  unfold Channel.setSeal
  try dsimp only
  repeat' first | with_reducible exact Channel.onlyIn_refl _ _ | with_reducible apply on_ite | with_reducible apply on_ite2 | with_reducible rfl | exact .inl rfl | exact .inr rfl | rfl | with_reducible assumption | intro _ | (split <;> try (rename_i h; first | (have e := congrArg Prod.snd h; dsimp only at e; subst e) | (have e := rxTake_eq h; subst e))) | with_reducible apply on_upd

/-- A due message that is built notes that it is. -/
theorem on_dueOnce {c d : Channel} {k : ℕ × ℕ} (h : c.dueOnce k = some d) : Channel.onlyIn [.sealb] c d := by
  unfold Channel.dueOnce at h
  split at h
  · exact absurd h (by simp)
  · simp only [Option.some.injEq] at h
    exact h ▸ on_setSeal _ rfl (Channel.onlyIn_refl _ _)

theorem on_runSettle {L : List ChPart} {c₀ x₀ : Channel} (hL : partsIn [.sched, .sealb, .pmu, .free, .asks] L = true) (hF : Channel.onlyIn L c₀ x₀) : Channel.onlyIn L c₀ (Channel.runSettle x₀) := by
  refine Channel.onlyIn_step hL hF ?_
  unfold Channel.runSettle
  try dsimp only
  repeat' first | with_reducible exact Channel.onlyIn_refl _ _ | with_reducible apply on_evt | with_reducible apply on_put | with_reducible apply on_flushPort | with_reducible apply on_ite | with_reducible apply on_ite2 | with_reducible rfl | exact .inl rfl | exact .inr rfl | rfl | with_reducible assumption | intro _ | (split <;> try (rename_i h; first | (have e := congrArg Prod.snd h; dsimp only at e; subst e) | (have e := rxTake_eq h; subst e)))

theorem on_putClient {L : List ChPart} {c₀ x₀ : Channel} (i : ℕ) (e : Option Client) (hL : partsIn [.sealb, .asks] L = true) (hF : Channel.onlyIn L c₀ x₀) : Channel.onlyIn L c₀ (Channel.putClient x₀ i e) := by
  refine Channel.onlyIn_step hL hF ?_
  unfold Channel.putClient
  try dsimp only
  repeat' first | with_reducible exact Channel.onlyIn_refl _ _ | with_reducible apply on_ask | with_reducible apply on_put | with_reducible apply on_setSeal | with_reducible apply on_ite | with_reducible apply on_ite2 | with_reducible rfl | exact .inl rfl | exact .inr rfl | rfl | with_reducible assumption | intro _ | (split <;> try (rename_i h; first | (have e := congrArg Prod.snd h; dsimp only at e; subst e) | (have e := rxTake_eq h; subst e)))

theorem on_keyGone {L : List ChPart} {c₀ x₀ : Channel} (hL : partsIn [.sealb, .asks] L = true) (hF : Channel.onlyIn L c₀ x₀) : Channel.onlyIn L c₀ (Channel.keyGone x₀) := by
  refine Channel.onlyIn_step hL hF ?_
  unfold Channel.keyGone
  try dsimp only
  repeat' first | with_reducible exact Channel.onlyIn_refl _ _ | with_reducible apply on_evt | with_reducible apply on_bump | with_reducible apply on_ite | with_reducible apply on_ite2 | with_reducible rfl | exact .inl rfl | exact .inr rfl | rfl | with_reducible assumption | intro _ | (split <;> try (rename_i h; first | (have e := congrArg Prod.snd h; dsimp only at e; subst e) | (have e := rxTake_eq h; subst e)))

theorem on_authFail {L : List ChPart} {c₀ x₀ : Channel} (hL : partsIn [.sealb, .asks] L = true) (hF : Channel.onlyIn L c₀ x₀) : Channel.onlyIn L c₀ (Channel.authFail x₀) := by
  refine Channel.onlyIn_step hL hF ?_
  unfold Channel.authFail
  try dsimp only
  repeat' first | with_reducible exact Channel.onlyIn_refl _ _ | with_reducible apply on_evt | with_reducible apply on_bump | with_reducible apply on_ite | with_reducible apply on_ite2 | with_reducible rfl | exact .inl rfl | exact .inr rfl | rfl | with_reducible assumption | intro _ | (split <;> try (rename_i h; first | (have e := congrArg Prod.snd h; dsimp only at e; subst e) | (have e := rxTake_eq h; subst e)))

theorem on_submit {L : List ChPart} {c₀ x₀ : Channel} (p : PortIx) (q : ℕ) (f : QFrame) (hL : partsIn [.sched, .sealb, .pmu, .free, .asks] L = true) (hF : Channel.onlyIn L c₀ x₀) : Channel.onlyIn L c₀ (Channel.submit x₀ p q f) := by
  refine Channel.onlyIn_step hL hF ?_
  unfold Channel.submit
  try dsimp only
  repeat' first | with_reducible exact Channel.onlyIn_refl _ _ | with_reducible apply on_workSlots | with_reducible apply on_wasted | with_reducible apply on_keyGone | with_reducible apply on_bump | with_reducible apply on_enqueue | with_reducible apply on_ite | with_reducible apply on_ite2 | with_reducible rfl | exact .inl rfl | exact .inr rfl | rfl | with_reducible assumption | intro _ | (split <;> try (rename_i h; first | (have e := congrArg Prod.snd h; dsimp only at e; subst e) | (have e := rxTake_eq h; subst e)))

theorem on_putLeap {L : List ChPart} {c₀ x₀ : Channel} (passed : Bool) (k : Fin 8) (e : LeapEnt) (hL : partsIn [.dpll, .scale, .asks] L = true) (hF : Channel.onlyIn L c₀ x₀) : Channel.onlyIn L c₀ (Channel.putLeap x₀ passed k e).2 := by
  refine Channel.onlyIn_step hL hF ?_
  unfold Channel.putLeap
  try dsimp only
  repeat' first | with_reducible exact Channel.onlyIn_refl _ _ | with_reducible apply on_ask | with_reducible apply on_evt | with_reducible apply on_ite | with_reducible apply on_ite2 | with_reducible rfl | exact .inl rfl | exact .inr rfl | rfl | with_reducible assumption | intro _ | (split <;> try (rename_i h; first | (have e := congrArg Prod.snd h; dsimp only at e; subst e) | (have e := rxTake_eq h; subst e))) | with_reducible apply on_upd

theorem on_leapEntWrite {L : List ChPart} {c₀ x₀ : Channel} (k : Fin 8) (w : Word) (hL : partsIn [.dpll, .scale, .asks] L = true) (hF : Channel.onlyIn L c₀ x₀) : Channel.onlyIn L c₀ (Channel.leapEntWrite x₀ k w) := by
  refine Channel.onlyIn_step hL hF ?_
  unfold Channel.leapEntWrite
  try dsimp only
  repeat' first | with_reducible exact Channel.onlyIn_refl _ _ | with_reducible apply on_putLeap | with_reducible apply on_ite | with_reducible apply on_ite2 | with_reducible rfl | exact .inl rfl | exact .inr rfl | rfl | with_reducible assumption | intro _ | (split <;> try (rename_i h; first | (have e := congrArg Prod.snd h; dsimp only at e; subst e) | (have e := rxTake_eq h; subst e))) | with_reducible apply on_upd

theorem on_leapLoWrite {L : List ChPart} {c₀ x₀ : Channel} (k : Fin 8) (w : Word) (hL : partsIn [.scale] L = true) (hF : Channel.onlyIn L c₀ x₀) : Channel.onlyIn L c₀ (Channel.leapLoWrite x₀ k w) := by
  refine Channel.onlyIn_step hL hF ?_
  unfold Channel.leapLoWrite
  try dsimp only
  repeat' first | with_reducible exact Channel.onlyIn_refl _ _ | with_reducible apply on_ite | with_reducible apply on_ite2 | with_reducible rfl | exact .inl rfl | exact .inr rfl | rfl | with_reducible assumption | intro _ | (split <;> try (rename_i h; first | (have e := congrArg Prod.snd h; dsimp only at e; subst e) | (have e := rxTake_eq h; subst e))) | with_reducible apply on_upd

theorem on_leapHiWrite {L : List ChPart} {c₀ x₀ : Channel} (k : Fin 8) (w : Word) (hL : partsIn [.scale] L = true) (hF : Channel.onlyIn L c₀ x₀) : Channel.onlyIn L c₀ (Channel.leapHiWrite x₀ k w) := by
  refine Channel.onlyIn_step hL hF ?_
  unfold Channel.leapHiWrite
  try dsimp only
  repeat' first | with_reducible exact Channel.onlyIn_refl _ _ | with_reducible apply on_ite | with_reducible apply on_ite2 | with_reducible rfl | exact .inl rfl | exact .inr rfl | rfl | with_reducible assumption | intro _ | (split <;> try (rename_i h; first | (have e := congrArg Prod.snd h; dsimp only at e; subst e) | (have e := rxTake_eq h; subst e))) | with_reducible apply on_upd

theorem on_annPut {L : List ChPart} {c₀ x₀ : Channel} (k : Fin 8) (e : LeapEnt) (hL : partsIn [.dpll, .scale, .asks] L = true) (hF : Channel.onlyIn L c₀ x₀) : Channel.onlyIn L c₀ (Channel.annPut x₀ k e) := by
  refine Channel.onlyIn_step hL hF ?_
  unfold Channel.annPut
  try dsimp only
  repeat' first | with_reducible exact Channel.onlyIn_refl _ _ | with_reducible apply on_putLeap | with_reducible apply on_ask | with_reducible apply on_ite | with_reducible apply on_ite2 | with_reducible rfl | exact .inl rfl | exact .inr rfl | rfl | with_reducible assumption | intro _ | (split <;> try (rename_i h; first | (have e := congrArg Prod.snd h; dsimp only at e; subst e) | (have e := rxTake_eq h; subst e)))

theorem on_annEntry {L : List ChPart} {c₀ x₀ : Channel} (n : LaneIx) (conf : Bool) (eff : ℤ) (ofs : ℤ) (hL : partsIn [.dpll, .scale, .asks] L = true) (hF : Channel.onlyIn L c₀ x₀) : Channel.onlyIn L c₀ (Channel.annEntry x₀ n conf eff ofs) := by
  refine Channel.onlyIn_step hL hF ?_
  unfold Channel.annEntry
  try dsimp only
  repeat' first | with_reducible exact Channel.onlyIn_refl _ _ | with_reducible apply on_ask | with_reducible apply on_evt | with_reducible apply on_annPut | with_reducible apply on_ite | with_reducible apply on_ite2 | with_reducible rfl | exact .inl rfl | exact .inr rfl | rfl | with_reducible assumption | intro _ | (split <;> try (rename_i h; first | (have e := congrArg Prod.snd h; dsimp only at e; subst e) | (have e := rxTake_eq h; subst e)))

theorem on_utcAnnounce {L : List ChPart} {c₀ x₀ : Channel} (n : LaneIx) (a : UtcAnn) (hL : partsIn [.dpll, .scale, .asks] L = true) (hF : Channel.onlyIn L c₀ x₀) : Channel.onlyIn L c₀ (Channel.utcAnnounce x₀ n a) := by
  refine Channel.onlyIn_step hL hF ?_
  unfold Channel.utcAnnounce
  try dsimp only
  repeat' first | with_reducible exact Channel.onlyIn_refl _ _ | with_reducible apply on_ask | with_reducible apply on_evt | with_reducible apply on_annEntry | with_reducible apply on_ite | with_reducible apply on_ite2 | with_reducible rfl | exact .inl rfl | exact .inr rfl | rfl | with_reducible assumption | intro _ | (split <;> try (rename_i h; first | (have e := congrArg Prod.snd h; dsimp only at e; subst e) | (have e := rxTake_eq h; subst e)))

theorem on_freeBytes {L : List ChPart} {c₀ x₀ : Channel} (n : ℕ) (hL : partsIn [.free] L = true) (hF : Channel.onlyIn L c₀ x₀) : Channel.onlyIn L c₀ (Channel.freeBytes x₀ n).2 := by
  refine Channel.onlyIn_step hL hF ?_
  unfold Channel.freeBytes
  try dsimp only
  repeat' first | with_reducible exact Channel.onlyIn_refl _ _ | with_reducible apply on_free | with_reducible apply on_ite | with_reducible apply on_ite2 | with_reducible rfl | exact .inl rfl | exact .inr rfl | rfl | with_reducible assumption | intro _ | (split <;> try (rename_i h; first | (have e := congrArg Prod.snd h; dsimp only at e; subst e) | (have e := rxTake_eq h; subst e)))

theorem on_requestGate {L : List ChPart} {c₀ x₀ : Channel} (p : PortIx) (k : Pkt) (len : ℕ) (pid : Option Bytes) (lacksAuth : Bool) (fast : Bool) (hL : partsIn [.sched, .sealb, .pmu, .free, .asks] L = true) (hF : Channel.onlyIn L c₀ x₀) : Channel.onlyIn L c₀ (Channel.requestGate x₀ p k len pid lacksAuth fast).2 := by
  refine Channel.onlyIn_step hL hF ?_
  unfold Channel.requestGate
  try dsimp only
  repeat' first | with_reducible exact Channel.onlyIn_refl _ _ | with_reducible apply on_pmuEvt | with_reducible apply on_bump | with_reducible apply on_authFail | with_reducible apply on_free | with_reducible apply on_pmuBy | with_reducible apply on_policeReq | with_reducible apply on_ite | with_reducible apply on_ite2 | with_reducible rfl | exact .inl rfl | exact .inr rfl | rfl | with_reducible assumption | intro _ | (split <;> try (rename_i h; first | (have e := congrArg Prod.snd h; dsimp only at e; subst e) | (have e := rxTake_eq h; subst e)))

theorem on_authGate {L : List ChPart} {c₀ x₀ : Channel} (a : AuthRes) (hL : partsIn [.sealb, .asks] L = true) (hF : Channel.onlyIn L c₀ x₀) : Channel.onlyIn L c₀ (Channel.authGate x₀ a).2 := by
  refine Channel.onlyIn_step hL hF ?_
  unfold Channel.authGate
  try dsimp only
  repeat' first | with_reducible exact Channel.onlyIn_refl _ _ | with_reducible apply on_authFail | with_reducible apply on_keyGone | with_reducible apply on_ite | with_reducible apply on_ite2 | with_reducible rfl | exact .inl rfl | exact .inr rfl | rfl | with_reducible assumption | intro _ | (split <;> try (rename_i h; first | (have e := congrArg Prod.snd h; dsimp only at e; subst e) | (have e := rxTake_eq h; subst e)))

theorem on_notExp {L : List ChPart} {c₀ x₀ : Channel} (p : PortIx) (hL : partsIn [.port, .asks] L = true) (hF : Channel.onlyIn L c₀ x₀) : Channel.onlyIn L c₀ (Channel.notExp x₀ p) := by
  refine Channel.onlyIn_step hL hF ?_
  unfold Channel.notExp
  try dsimp only
  repeat' first | with_reducible exact Channel.onlyIn_refl _ _ | with_reducible apply on_evt | with_reducible apply on_bump | with_reducible apply on_ite | with_reducible apply on_ite2 | with_reducible rfl | exact .inl rfl | exact .inr rfl | rfl | with_reducible assumption | intro _ | (split <;> try (rename_i h; first | (have e := congrArg Prod.snd h; dsimp only at e; subst e) | (have e := rxTake_eq h; subst e)))

theorem on_delayReqRx {L : List ChPart} {c₀ x₀ : Channel} (p : PortIx) (ps : ℕ) (f : ℤ) (bs : Bytes) (hL : partsIn [.sched, .port, .sealb, .pmu, .free, .asks] L = true) (hF : Channel.onlyIn L c₀ x₀) : Channel.onlyIn L c₀ (Channel.delayReqRx x₀ p ps f bs) := by
  refine Channel.onlyIn_step hL hF ?_
  unfold Channel.delayReqRx
  try dsimp only
  repeat' first | with_reducible exact Channel.onlyIn_refl _ _ | with_reducible apply on_requestGate | with_reducible apply on_authGate | with_reducible apply on_notExp | with_reducible apply on_free | with_reducible apply on_submit | with_reducible apply on_ite | with_reducible apply on_ite2 | with_reducible apply on_bwRx | with_reducible rfl | exact .inl rfl | exact .inr rfl | rfl | with_reducible assumption | intro _ | (split <;> try (rename_i h; first | (have e := congrArg Prod.snd h; dsimp only at e; subst e) | (have e := rxTake_eq h; subst e)))

theorem on_pdelayReqRx {L : List ChPart} {c₀ x₀ : Channel} (p : PortIx) (ps : ℕ) (f : ℤ) (bs : Bytes) (hL : partsIn [.sched, .port, .sealb, .pmu, .free, .asks] L = true) (hF : Channel.onlyIn L c₀ x₀) : Channel.onlyIn L c₀ (Channel.pdelayReqRx x₀ p ps f bs) := by
  refine Channel.onlyIn_step hL hF ?_
  unfold Channel.pdelayReqRx
  try dsimp only
  repeat' first | with_reducible exact Channel.onlyIn_refl _ _ | with_reducible apply on_requestGate | with_reducible apply on_authGate | with_reducible apply on_notExp | with_reducible apply on_submit | with_reducible apply on_ite | with_reducible apply on_ite2 | with_reducible apply on_bwRx | with_reducible rfl | exact .inl rfl | exact .inr rfl | rfl | with_reducible assumption | intro _ | (split <;> try (rename_i h; first | (have e := congrArg Prod.snd h; dsimp only at e; subst e) | (have e := rxTake_eq h; subst e)))

theorem on_ntpRx {L : List ChPart} {c₀ x₀ : Channel} (p : PortIx) (ps : ℕ) (f : ℤ) (bs : Bytes) (hL : partsIn [.sched, .sealb, .pmu, .free, .asks] L = true) (hF : Channel.onlyIn L c₀ x₀) : Channel.onlyIn L c₀ (Channel.ntpRx x₀ p ps f bs) := by
  refine Channel.onlyIn_step hL hF ?_
  unfold Channel.ntpRx
  try dsimp only
  repeat' first | with_reducible exact Channel.onlyIn_refl _ _ | with_reducible apply on_requestGate | with_reducible apply on_submit | with_reducible apply on_ite | with_reducible apply on_ite2 | with_reducible apply on_bwRx | with_reducible rfl | exact .inl rfl | exact .inr rfl | rfl | with_reducible assumption | intro _ | (split <;> try (rename_i h; first | (have e := congrArg Prod.snd h; dsimp only at e; subst e) | (have e := rxTake_eq h; subst e)))

theorem on_ntpMacRx {L : List ChPart} {c₀ x₀ : Channel} (p : PortIx) (ps : ℕ) (f : ℤ) (bs : Bytes) (hL : partsIn [.sched, .sealb, .pmu, .free, .asks] L = true) (hF : Channel.onlyIn L c₀ x₀) : Channel.onlyIn L c₀ (Channel.ntpMacRx x₀ p ps f bs) := by
  refine Channel.onlyIn_step hL hF ?_
  unfold Channel.ntpMacRx
  try dsimp only
  repeat' first | with_reducible exact Channel.onlyIn_refl _ _ | with_reducible apply on_requestGate | with_reducible apply on_authGate | with_reducible apply on_submit | with_reducible apply on_ite | with_reducible apply on_ite2 | with_reducible apply on_bwRx | with_reducible rfl | exact .inl rfl | exact .inr rfl | rfl | with_reducible assumption | intro _ | (split <;> try (rename_i h; first | (have e := congrArg Prod.snd h; dsimp only at e; subst e) | (have e := rxTake_eq h; subst e)))

theorem on_mintFields {L : List ChPart} {c₀ x₀ : Channel} (key : Bytes) (kid : ℕ) (keys : Bytes) (n : ℕ) (hL : partsIn [.free] L = true) (hF : Channel.onlyIn L c₀ x₀) : Channel.onlyIn L c₀ (Channel.mintFields key kid keys n x₀).2 := by
  induction n generalizing x₀ with
  | zero => exact hF
  | succ n ih => exact ih (on_freeBytes _ hL hF)

theorem on_ntsRx {L : List ChPart} {c₀ x₀ : Channel} (p : PortIx) (ps : ℕ) (f : ℤ) (bs : Bytes) (hL : partsIn [.sched, .sealb, .pmu, .free, .asks] L = true) (hF : Channel.onlyIn L c₀ x₀) : Channel.onlyIn L c₀ (Channel.ntsRx x₀ p ps f bs) := by
  refine Channel.onlyIn_step hL hF ?_
  unfold Channel.ntsRx
  try dsimp only
  repeat' first | with_reducible exact Channel.onlyIn_refl _ _ | with_reducible apply on_requestGate | with_reducible apply on_authFail | with_reducible apply on_keyGone | with_reducible apply on_submit | with_reducible apply on_mintFields | with_reducible apply on_freeBytes | with_reducible apply on_ite | with_reducible apply on_ite2 | with_reducible apply on_bwRx | with_reducible rfl | exact .inl rfl | exact .inr rfl | rfl | with_reducible assumption | intro _ | (split <;> try (rename_i h; first | (have e := congrArg Prod.snd h; dsimp only at e; subst e) | (have e := rxTake_eq h; subst e)))

theorem on_releaseGrant {L : List ChPart} {c₀ x₀ : Channel} (i : ℕ) (k : GrantKind) (hL : partsIn [.sealb, .asks] L = true) (hF : Channel.onlyIn L c₀ x₀) : Channel.onlyIn L c₀ (Channel.releaseGrant i x₀ k) := by
  refine Channel.onlyIn_step hL hF ?_
  unfold Channel.releaseGrant
  try dsimp only
  repeat' first | with_reducible exact Channel.onlyIn_refl _ _ | with_reducible apply on_put | with_reducible apply on_putClient | with_reducible apply on_ite | with_reducible apply on_ite2 | with_reducible rfl | exact .inl rfl | exact .inr rfl | rfl | with_reducible assumption | intro _ | (split <;> try (rename_i h; first | (have e := congrArg Prod.snd h; dsimp only at e; subst e) | (have e := rxTake_eq h; subst e)))

theorem on_revoke {L : List ChPart} {c₀ x₀ : Channel} (hL : partsIn [.sealb, .asks] L = true) (hF : Channel.onlyIn L c₀ x₀) : Channel.onlyIn L c₀ (Channel.revoke x₀) := by
  refine Channel.onlyIn_step hL hF ?_
  unfold Channel.revoke
  try dsimp only
  repeat' first | with_reducible exact Channel.onlyIn_refl _ _ | with_reducible apply on_releaseGrant | with_reducible apply on_ite | with_reducible apply on_ite2 | with_reducible apply on_fold | with_reducible apply on_fold2 | with_reducible rfl | exact .inl rfl | exact .inr rfl | rfl | with_reducible assumption | intro _ | (split <;> try (rename_i h; first | (have e := congrArg Prod.snd h; dsimp only at e; subst e) | (have e := rxTake_eq h; subst e)))

theorem on_grantExpiry {L : List ChPart} {c₀ x₀ : Channel} (i : ℕ) (hL : partsIn [.sealb, .asks] L = true) (hF : Channel.onlyIn L c₀ x₀) : Channel.onlyIn L c₀ (Channel.grantExpiry x₀ i) := by
  refine Channel.onlyIn_step hL hF ?_
  unfold Channel.grantExpiry
  try dsimp only
  repeat' first | with_reducible exact Channel.onlyIn_refl _ _ | with_reducible apply on_releaseGrant | with_reducible apply on_ite | with_reducible apply on_ite2 | with_reducible apply on_fold | with_reducible apply on_fold2 | with_reducible rfl | exact .inl rfl | exact .inr rfl | rfl | with_reducible assumption | intro _ | (split <;> try (rename_i h; first | (have e := congrArg Prod.snd h; dsimp only at e; subst e) | (have e := rxTake_eq h; subst e)))

theorem on_grantRequest {L : List ChPart} {c₀ x₀ : Channel} (p : PortIx) (k : Pkt) (pid : Bytes) (sa : Option ℕ) (kind : GrantKind) (log : ℤ) (dur : ℕ) (hL : partsIn [.sealb, .asks] L = true) (hF : Channel.onlyIn L c₀ x₀) : Channel.onlyIn L c₀ (Channel.grantRequest x₀ p k pid sa kind log dur).2 := by
  refine Channel.onlyIn_step hL hF ?_
  unfold Channel.grantRequest
  try dsimp only
  repeat' first | with_reducible exact Channel.onlyIn_refl _ _ | with_reducible apply on_evt | with_reducible apply on_bump | with_reducible apply on_put | with_reducible apply on_putClient | with_reducible apply on_ite | with_reducible apply on_ite2 | with_reducible rfl | exact .inl rfl | exact .inr rfl | rfl | with_reducible assumption | intro _ | (split <;> try (rename_i h; first | (have e := congrArg Prod.snd h; dsimp only at e; subst e) | (have e := rxTake_eq h; subst e)))

theorem on_laneGranted {L : List ChPart} {c₀ x₀ : Channel} (p : PortIx) (kind : GrantKind) (log : ℤ) (dur : ℕ) (hL : partsIn [.port] L = true) (hF : Channel.onlyIn L c₀ x₀) : Channel.onlyIn L c₀ (Channel.laneGranted x₀ p kind log dur) := by
  refine Channel.onlyIn_step hL hF ?_
  unfold Channel.laneGranted
  try dsimp only
  repeat' first | with_reducible exact Channel.onlyIn_refl _ _ | with_reducible apply on_updLc | with_reducible apply on_ite | with_reducible apply on_ite2 | with_reducible rfl | exact .inl rfl | exact .inr rfl | rfl | with_reducible assumption | intro _ | (split <;> try (rename_i h; first | (have e := congrArg Prod.snd h; dsimp only at e; subst e) | (have e := rxTake_eq h; subst e)))

theorem on_signalTlv {L : List ChPart} {c₀ : Channel} {acc : Bytes × Channel} (p : PortIx) (k : Pkt) (pid : Bytes) (sa : Option ℕ) (lane : Bool) (t : ℕ × Bytes × ℕ) (hL : partsIn [.port, .sealb, .free, .asks] L = true) (hF : Channel.onlyIn L c₀ acc.2) : Channel.onlyIn L c₀ (Channel.signalTlv p k pid sa lane acc t).2 := by
  refine Channel.onlyIn_step hL hF ?_
  unfold Channel.signalTlv
  dsimp only
  repeat' first | with_reducible exact Channel.onlyIn_refl _ _ | with_reducible apply on_grantRequest | with_reducible apply on_laneGranted | with_reducible apply on_releaseGrant | with_reducible apply on_ite | with_reducible apply on_ite2 | split | rfl

theorem on_toCores {L : List ChPart} {c₀ x₀ : Channel} (p : PortIx) (f : Option QFrame) (hL : partsIn [.sealb, .pmu, .free, .asks] L = true) (hF : Channel.onlyIn L c₀ x₀) : Channel.onlyIn L c₀ (Channel.toCores x₀ p f) := by
  refine Channel.onlyIn_step hL hF ?_
  unfold Channel.toCores
  try dsimp only
  repeat' first | with_reducible exact Channel.onlyIn_refl _ _ | with_reducible apply on_pmuEvt | with_reducible apply on_setSeal | with_reducible apply on_ite | with_reducible apply on_ite2 | with_reducible rfl | exact .inl rfl | exact .inr rfl | rfl | with_reducible assumption | intro _ | (split <;> try (rename_i h; first | (have e := congrArg Prod.snd h; dsimp only at e; subst e) | (have e := rxTake_eq h; subst e)))

theorem on_excDrop {L : List ChPart} {c₀ x₀ : Channel} (hL : partsIn [.sealb, .asks] L = true) (hF : Channel.onlyIn L c₀ x₀) : Channel.onlyIn L c₀ (Channel.excDrop x₀) := by
  refine Channel.onlyIn_step hL hF ?_
  unfold Channel.excDrop
  try dsimp only
  repeat' first | with_reducible exact Channel.onlyIn_refl _ _ | with_reducible apply on_evt | with_reducible apply on_bump | with_reducible apply on_ite | with_reducible apply on_ite2 | with_reducible rfl | exact .inl rfl | exact .inr rfl | rfl | with_reducible assumption | intro _ | (split <;> try (rename_i h; first | (have e := congrArg Prod.snd h; dsimp only at e; subst e) | (have e := rxTake_eq h; subst e)))

theorem on_signalingRx {L : List ChPart} {c₀ x₀ : Channel} (p : PortIx) (bs : Bytes) (hL : partsIn [.sched, .port, .sealb, .pmu, .free, .asks] L = true) (hF : Channel.onlyIn L c₀ x₀) : Channel.onlyIn L c₀ (Channel.signalingRx x₀ p bs) := by
  refine Channel.onlyIn_step hL hF ?_
  unfold Channel.signalingRx
  try dsimp only
  repeat' first | with_reducible exact Channel.onlyIn_refl _ _ | with_reducible apply on_requestGate | with_reducible apply on_excDrop | with_reducible apply on_authGate | with_reducible apply on_toCores | with_reducible apply on_free | with_reducible apply on_ite | with_reducible apply on_ite2 | with_reducible apply on_signalTlv | with_reducible apply on_bwRx | with_reducible apply on_fold | with_reducible apply on_fold2 | with_reducible rfl | exact .inl rfl | exact .inr rfl | rfl | with_reducible assumption | intro _ | (split <;> try (rename_i h; first | (have e := congrArg Prod.snd h; dsimp only at e; subst e) | (have e := rxTake_eq h; subst e)))

theorem on_exceptionRx {L : List ChPart} {c₀ x₀ : Channel} (p : PortIx) (bs : Bytes) (hL : partsIn [.sched, .sealb, .pmu, .free, .asks] L = true) (hF : Channel.onlyIn L c₀ x₀) : Channel.onlyIn L c₀ (Channel.exceptionRx x₀ p bs) := by
  refine Channel.onlyIn_step hL hF ?_
  unfold Channel.exceptionRx
  try dsimp only
  repeat' first | with_reducible exact Channel.onlyIn_refl _ _ | with_reducible apply on_requestGate | with_reducible apply on_excDrop | with_reducible apply on_toCores | with_reducible apply on_ite | with_reducible apply on_ite2 | with_reducible apply on_bwRx | with_reducible rfl | exact .inl rfl | exact .inr rfl | rfl | with_reducible assumption | intro _ | (split <;> try (rename_i h; first | (have e := congrArg Prod.snd h; dsimp only at e; subst e) | (have e := rxTake_eq h; subst e)))

theorem on_coreResponse {L : List ChPart} {c₀ x₀ : Channel} (hL : partsIn [.sched, .sealb, .pmu, .free, .asks] L = true) (hF : Channel.onlyIn L c₀ x₀) : Channel.onlyIn L c₀ (Channel.coreResponse x₀) := by
  refine Channel.onlyIn_step hL hF ?_
  unfold Channel.coreResponse
  try dsimp only
  repeat' first | with_reducible exact Channel.onlyIn_refl _ _ | with_reducible apply on_setSeal | with_reducible apply on_submit | with_reducible apply on_ite | with_reducible apply on_ite2 | with_reducible rfl | exact .inl rfl | exact .inr rfl | rfl | with_reducible assumption | intro _ | (split <;> try (rename_i h; first | (have e := congrArg Prod.snd h; dsimp only at e; subst e) | (have e := rxTake_eq h; subst e)))

theorem on_unsupRx {L : List ChPart} {c₀ x₀ : Channel} (p : PortIx) (bs : Bytes) (hL : partsIn [.sealb, .pmu] L = true) (hF : Channel.onlyIn L c₀ x₀) : Channel.onlyIn L c₀ (Channel.unsupRx x₀ p bs) := by
  refine Channel.onlyIn_step hL hF ?_
  unfold Channel.unsupRx
  try dsimp only
  repeat' first | with_reducible exact Channel.onlyIn_refl _ _ | with_reducible apply on_bump | with_reducible apply on_ite | with_reducible apply on_ite2 | with_reducible apply on_bwRx | with_reducible rfl | exact .inl rfl | exact .inr rfl | rfl | with_reducible assumption | intro _ | (split <;> try (rename_i h; first | (have e := congrArg Prod.snd h; dsimp only at e; subst e) | (have e := rxTake_eq h; subst e)))

theorem on_notMineRx {L : List ChPart} {c₀ x₀ : Channel} (p : PortIx) (bs : Bytes) (hL : partsIn [.sealb, .pmu] L = true) (hF : Channel.onlyIn L c₀ x₀) : Channel.onlyIn L c₀ (Channel.notMineRx x₀ p bs) := by
  refine Channel.onlyIn_step hL hF ?_
  unfold Channel.notMineRx
  try dsimp only
  repeat' first | with_reducible exact Channel.onlyIn_refl _ _ | with_reducible apply on_bump | with_reducible apply on_ite | with_reducible apply on_ite2 | with_reducible apply on_bwRx | with_reducible rfl | exact .inl rfl | exact .inr rfl | rfl | with_reducible assumption | intro _ | (split <;> try (rename_i h; first | (have e := congrArg Prod.snd h; dsimp only at e; subst e) | (have e := rxTake_eq h; subst e)))

theorem on_transitRx {L : List ChPart} {c₀ x₀ : Channel} (p : PortIx) (ps : ℕ) (f : ℤ) (bs : Bytes) (hL : partsIn [.sched, .port, .sealb, .pmu, .free, .asks] L = true) (hF : Channel.onlyIn L c₀ x₀) : Channel.onlyIn L c₀ (Channel.transitRx x₀ p ps f bs) := by
  refine Channel.onlyIn_step hL hF ?_
  unfold Channel.transitRx
  try dsimp only
  repeat' first | with_reducible exact Channel.onlyIn_refl _ _ | with_reducible apply on_submit | with_reducible apply on_authGate | with_reducible apply on_bump | with_reducible apply on_ite | with_reducible apply on_ite2 | with_reducible apply on_bwRx | with_reducible rfl | exact .inl rfl | exact .inr rfl | rfl | with_reducible assumption | intro _ | (split <;> try (rename_i h; first | (have e := congrArg Prod.snd h; dsimp only at e; subst e) | (have e := rxTake_eq h; subst e)))

theorem on_unicastDue {L : List ChPart} {c₀ x₀ : Channel} (i : ℕ) (ann : Bool) (hL : partsIn [.sched, .sealb, .pmu, .free, .asks] L = true) (hF : Channel.onlyIn L c₀ x₀) : Channel.onlyIn L c₀ (Channel.unicastDue x₀ i ann) := by
  refine Channel.onlyIn_step hL hF ?_
  unfold Channel.unicastDue
  try dsimp only
  repeat' first | with_reducible exact Channel.onlyIn_refl _ _ | with_reducible apply on_submit | with_reducible apply on_putClient | with_reducible apply on_ite | with_reducible apply on_ite2 | exact Channel.onlyIn_mono rfl (on_dueOnce (by assumption)) | with_reducible rfl | exact .inl rfl | exact .inr rfl | rfl | with_reducible assumption | intro _ | (split <;> try (rename_i h; first | (have e := congrArg Prod.snd h; dsimp only at e; subst e) | (have e := rxTake_eq h; subst e)))

theorem on_multicastDue {L : List ChPart} {c₀ x₀ : Channel} (p : PortIx) (ann : Bool) (hL : partsIn [.sched, .port, .sealb, .pmu, .free, .asks] L = true) (hF : Channel.onlyIn L c₀ x₀) : Channel.onlyIn L c₀ (Channel.multicastDue x₀ p ann) := by
  refine Channel.onlyIn_step hL hF ?_
  unfold Channel.multicastDue
  try dsimp only
  repeat' first | with_reducible exact Channel.onlyIn_refl _ _ | with_reducible apply on_setPs | with_reducible apply on_submit | with_reducible apply on_ite | with_reducible apply on_ite2 | exact Channel.onlyIn_mono rfl (on_dueOnce (by assumption)) | with_reducible apply on_fold | with_reducible apply on_fold2 | with_reducible rfl | exact .inl rfl | exact .inr rfl | rfl | with_reducible assumption | intro _ | (split <;> try (rename_i h; first | (have e := congrArg Prod.snd h; dsimp only at e; subst e) | (have e := rxTake_eq h; subst e)))

theorem on_pdelayReqSend {L : List ChPart} {c₀ x₀ : Channel} (p : PortIx) (hL : partsIn [.sched, .port, .sealb, .pmu, .free, .asks] L = true) (hF : Channel.onlyIn L c₀ x₀) : Channel.onlyIn L c₀ (Channel.pdelayReqSend x₀ p) := by
  refine Channel.onlyIn_step hL hF ?_
  unfold Channel.pdelayReqSend
  dsimp only
  split
  · rename_i h _
    split at h
    · exact on_submit _ _ _ rfl (on_updLc _ _ rfl (Channel.onlyIn_mono rfl (on_dueOnce h)))
    · cases h
  · exact Channel.onlyIn_refl _ _

theorem on_laneDelayReq {L : List ChPart} {c₀ x₀ : Channel} (p : PortIx) (hL : partsIn [.sched, .port, .sealb, .pmu, .free, .asks] L = true) (hF : Channel.onlyIn L c₀ x₀) : Channel.onlyIn L c₀ (Channel.laneDelayReq x₀ p) := by
  refine Channel.onlyIn_step hL hF ?_
  unfold Channel.laneDelayReq
  split
  · exact Channel.onlyIn_refl _ _
  refine on_ite (on_pdelayReqSend _ rfl (Channel.onlyIn_refl _ _)) (on_ite (Channel.onlyIn_refl _ _) ?_)
  split
  · exact Channel.onlyIn_refl _ _
  · rename_i h
    repeat' split at h
    all_goals first | cases h; done | exact on_submit _ _ _ rfl (on_updLc _ _ rfl (Channel.onlyIn_mono rfl (on_dueOnce h)))

theorem on_laneNegotiate {L : List ChPart} {c₀ x₀ : Channel} (p : PortIx) (hL : partsIn [.sched, .port, .sealb, .pmu, .free, .asks] L = true) (hF : Channel.onlyIn L c₀ x₀) : Channel.onlyIn L c₀ (Channel.laneNegotiate x₀ p) := by
  refine Channel.onlyIn_step hL hF ?_
  unfold Channel.laneNegotiate
  try dsimp only
  repeat' first | with_reducible exact Channel.onlyIn_refl _ _ | with_reducible apply on_updLc | with_reducible apply on_submit | with_reducible apply on_ite | with_reducible apply on_ite2 | with_reducible rfl | exact .inl rfl | exact .inr rfl | rfl | with_reducible assumption | intro _ | (split <;> try (rename_i h; first | (have e := congrArg Prod.snd h; dsimp only at e; subst e) | (have e := rxTake_eq h; subst e)))

theorem on_laneTake {L : List ChPart} {c₀ x₀ : Channel} (p : PortIx) (bs : Bytes) (ty : ℕ) (hL : partsIn [.sealb, .pmu, .asks] L = true) (hF : Channel.onlyIn L c₀ x₀) : Channel.onlyIn L c₀ (Channel.laneTake x₀ p bs ty).2 := by
  refine Channel.onlyIn_step hL hF ?_
  unfold Channel.laneTake
  try dsimp only
  repeat' first | with_reducible exact Channel.onlyIn_refl _ _ | with_reducible apply on_authFail | with_reducible apply on_ite | with_reducible apply on_ite2 | with_reducible apply on_bwRx | with_reducible rfl | exact .inl rfl | exact .inr rfl | rfl | with_reducible assumption | intro _ | (split <;> try (rename_i h; first | (have e := congrArg Prod.snd h; dsimp only at e; subst e) | (have e := rxTake_eq h; subst e)))

theorem on_syncRx {L : List ChPart} {c₀ x₀ : Channel} (p : PortIx) (ps : ℕ) (f : ℤ) (bs : Bytes) (hL : partsIn [.ref, .port, .sealb, .pmu, .free, .asks] L = true) (hF : Channel.onlyIn L c₀ x₀) : Channel.onlyIn L c₀ (Channel.syncRx x₀ p ps f bs) := by
  refine Channel.onlyIn_step hL hF ?_
  unfold Channel.syncRx
  try dsimp only
  repeat' first | with_reducible exact Channel.onlyIn_refl _ _ | with_reducible apply on_laneTake | with_reducible apply on_updLc | with_reducible apply on_ptpRecord | with_reducible apply on_ite | with_reducible apply on_ite2 | with_reducible rfl | exact .inl rfl | exact .inr rfl | rfl | with_reducible assumption | intro _ | (split <;> try (rename_i h; first | (have e := congrArg Prod.snd h; dsimp only at e; subst e) | (have e := rxTake_eq h; subst e)))

theorem on_followUpRx {L : List ChPart} {c₀ x₀ : Channel} (p : PortIx) (bs : Bytes) (hL : partsIn [.ref, .port, .sealb, .pmu, .free, .asks] L = true) (hF : Channel.onlyIn L c₀ x₀) : Channel.onlyIn L c₀ (Channel.followUpRx x₀ p bs) := by
  refine Channel.onlyIn_step hL hF ?_
  unfold Channel.followUpRx
  try dsimp only
  repeat' first | with_reducible exact Channel.onlyIn_refl _ _ | with_reducible apply on_laneTake | with_reducible apply on_ptpRecord | with_reducible apply on_ite | with_reducible apply on_ite2 | with_reducible rfl | exact .inl rfl | exact .inr rfl | rfl | with_reducible assumption | intro _ | (split <;> try (rename_i h; first | (have e := congrArg Prod.snd h; dsimp only at e; subst e) | (have e := rxTake_eq h; subst e)))

theorem on_delayRespRx {L : List ChPart} {c₀ x₀ : Channel} (p : PortIx) (bs : Bytes) (hL : partsIn [.port, .sealb, .pmu, .asks] L = true) (hF : Channel.onlyIn L c₀ x₀) : Channel.onlyIn L c₀ (Channel.delayRespRx x₀ p bs) := by
  refine Channel.onlyIn_step hL hF ?_
  unfold Channel.delayRespRx
  try dsimp only
  repeat' first | with_reducible exact Channel.onlyIn_refl _ _ | with_reducible apply on_laneTake | with_reducible apply on_updLc | with_reducible apply on_ite | with_reducible apply on_ite2 | with_reducible rfl | exact .inl rfl | exact .inr rfl | rfl | with_reducible assumption | intro _ | (split <;> try (rename_i h; first | (have e := congrArg Prod.snd h; dsimp only at e; subst e) | (have e := rxTake_eq h; subst e)))

theorem on_pdelayRespRx {L : List ChPart} {c₀ x₀ : Channel} (p : PortIx) (ps : ℕ) (f : ℤ) (bs : Bytes) (hL : partsIn [.port, .sealb, .pmu, .asks] L = true) (hF : Channel.onlyIn L c₀ x₀) : Channel.onlyIn L c₀ (Channel.pdelayRespRx x₀ p ps f bs) := by
  refine Channel.onlyIn_step hL hF ?_
  unfold Channel.pdelayRespRx
  try dsimp only
  repeat' first | with_reducible exact Channel.onlyIn_refl _ _ | with_reducible apply on_laneTake | with_reducible apply on_updLc | with_reducible apply on_ite | with_reducible apply on_ite2 | with_reducible rfl | exact .inl rfl | exact .inr rfl | rfl | with_reducible assumption | intro _ | (split <;> try (rename_i h; first | (have e := congrArg Prod.snd h; dsimp only at e; subst e) | (have e := rxTake_eq h; subst e)))

theorem on_announceRx {L : List ChPart} {c₀ x₀ : Channel} (p : PortIx) (bs : Bytes) (hL : partsIn [.dpll, .scale, .sealb, .pmu, .asks] L = true) (hF : Channel.onlyIn L c₀ x₀) : Channel.onlyIn L c₀ (Channel.announceRx x₀ p bs) := by
  refine Channel.onlyIn_step hL hF ?_
  unfold Channel.announceRx
  try dsimp only
  repeat' first | with_reducible exact Channel.onlyIn_refl _ _ | with_reducible apply on_laneTake | with_reducible apply on_utcAnnounce | with_reducible apply on_ite | with_reducible apply on_ite2 | with_reducible rfl | exact .inl rfl | exact .inr rfl | rfl | with_reducible assumption | intro _ | (split <;> try (rename_i h; first | (have e := congrArg Prod.snd h; dsimp only at e; subst e) | (have e := rxTake_eq h; subst e)))

theorem on_hostFrame {L : List ChPart} {c₀ x₀ : Channel} (p : PortIx) (q : ℕ) (bs : Bytes) (tsReq : Bool) (handle : ℕ) (hL : partsIn [.sched, .pmu, .free, .asks] L = true) (hF : Channel.onlyIn L c₀ x₀) : Channel.onlyIn L c₀ (Channel.hostFrame x₀ p q bs tsReq handle) := by
  refine Channel.onlyIn_step hL hF ?_
  unfold Channel.hostFrame
  try dsimp only
  repeat' first | with_reducible exact Channel.onlyIn_refl _ _ | with_reducible apply on_enqueue | with_reducible apply on_ite | with_reducible apply on_ite2 | with_reducible rfl | exact .inl rfl | exact .inr rfl | rfl | with_reducible assumption | intro _ | (split <;> try (rename_i h; first | (have e := congrArg Prod.snd h; dsimp only at e; subst e) | (have e := rxTake_eq h; subst e)))

theorem on_countClient {L : List ChPart} {c₀ x₀ : Channel} (f : QFrame) (hL : partsIn [.sealb, .asks] L = true) (hF : Channel.onlyIn L c₀ x₀) : Channel.onlyIn L c₀ (Channel.countClient x₀ f) := by
  refine Channel.onlyIn_step hL hF ?_
  unfold Channel.countClient
  try dsimp only
  repeat' first | with_reducible exact Channel.onlyIn_refl _ _ | with_reducible apply on_putClient | with_reducible apply on_ite | with_reducible apply on_ite2 | with_reducible rfl | exact .inl rfl | exact .inr rfl | rfl | with_reducible assumption | intro _ | (split <;> try (rename_i h; first | (have e := congrArg Prod.snd h; dsimp only at e; subst e) | (have e := rxTake_eq h; subst e)))

theorem on_keepStamp {L : List ChPart} {c₀ x₀ : Channel} (p : PortIx) (f : QFrame) (t : Gt) (hL : partsIn [.port] L = true) (hF : Channel.onlyIn L c₀ x₀) : Channel.onlyIn L c₀ (Channel.keepStamp x₀ p f t) := by
  refine Channel.onlyIn_step hL hF ?_
  unfold Channel.keepStamp
  try dsimp only
  repeat' first | with_reducible exact Channel.onlyIn_refl _ _ | with_reducible apply on_updLc | with_reducible apply on_ite | with_reducible apply on_ite2 | with_reducible rfl | exact .inl rfl | exact .inr rfl | rfl | with_reducible assumption | intro _ | (split <;> try (rename_i h; first | (have e := congrArg Prod.snd h; dsimp only at e; subst e) | (have e := rxTake_eq h; subst e)))

theorem on_commitCounts {L : List ChPart} {c₀ x₀ : Channel} (p : PortIx) (f : QFrame) (st : Channel.Stamp) (q : ℕ) (hL : partsIn [.port, .sealb, .pmu, .free, .asks] L = true) (hF : Channel.onlyIn L c₀ x₀) : Channel.onlyIn L c₀ (Channel.commitCounts x₀ p f st q) := by
  refine Channel.onlyIn_step hL hF ?_
  unfold Channel.commitCounts
  try dsimp only
  repeat' first | with_reducible exact Channel.onlyIn_refl _ _ | with_reducible apply on_bwTx | with_reducible apply on_pmuEvt | with_reducible apply on_resolve | with_reducible apply on_evt | with_reducible apply on_bump | with_reducible apply on_keepStamp | with_reducible apply on_tsrWrite | with_reducible apply on_updPs | with_reducible apply on_ite | with_reducible apply on_ite2 | with_reducible rfl | exact .inl rfl | exact .inr rfl | rfl | with_reducible assumption | intro _ | (split <;> try (rename_i h; first | (have e := congrArg Prod.snd h; dsimp only at e; subst e) | (have e := rxTake_eq h; subst e)))

theorem on_passOne {L : List ChPart} {c₀ x₀ : Channel} (p : PortIx) (f : InFlight) (hL : partsIn [.sealb, .asks] L = true) (hF : Channel.onlyIn L c₀ x₀) : Channel.onlyIn L c₀ (Channel.passOne p x₀ f) := by
  refine Channel.onlyIn_step hL hF ?_
  unfold Channel.passOne
  try dsimp only
  repeat' first | with_reducible exact Channel.onlyIn_refl _ _ | with_reducible apply on_countClient | with_reducible apply on_ask | with_reducible apply on_ite | with_reducible apply on_ite2 | with_reducible rfl | exact .inl rfl | exact .inr rfl | rfl | with_reducible assumption | intro _ | (split <;> try (rename_i h; first | (have e := congrArg Prod.snd h; dsimp only at e; subst e) | (have e := rxTake_eq h; subst e)))

theorem on_passFrames {L : List ChPart} {c₀ x₀ : Channel} (p : PortIx) (hL : partsIn [.port, .sealb, .asks] L = true) (hF : Channel.onlyIn L c₀ x₀) : Channel.onlyIn L c₀ (Channel.passFrames x₀ p) := by
  refine Channel.onlyIn_step hL hF ?_
  unfold Channel.passFrames
  try dsimp only
  repeat' first | with_reducible exact Channel.onlyIn_refl _ _ | with_reducible apply on_passOne | with_reducible apply on_updPs | with_reducible apply on_ite | with_reducible apply on_ite2 | with_reducible apply on_fold | with_reducible apply on_fold2 | with_reducible rfl | exact .inl rfl | exact .inr rfl | rfl | with_reducible assumption | intro _ | (split <;> try (rename_i h; first | (have e := congrArg Prod.snd h; dsimp only at e; subst e) | (have e := rxTake_eq h; subst e)))

theorem on_sealDone {L : List ChPart} {c₀ x₀ : Channel} (f : InFlight) (hL : partsIn [.pmu, .free, .asks] L = true) (hF : Channel.onlyIn L c₀ x₀) : Channel.onlyIn L c₀ (Channel.sealDone x₀ f) := by
  refine Channel.onlyIn_step hL hF ?_
  unfold Channel.sealDone
  try dsimp only
  repeat' first | with_reducible exact Channel.onlyIn_refl _ _ | with_reducible apply on_resolve | with_reducible apply on_ite | with_reducible apply on_ite2 | with_reducible rfl | exact .inl rfl | exact .inr rfl | rfl | with_reducible assumption | intro _ | (split <;> try (rename_i h; first | (have e := congrArg Prod.snd h; dsimp only at e; subst e) | (have e := rxTake_eq h; subst e)))

theorem on_flightTick {L : List ChPart} {c₀ x₀ : Channel} (p : PortIx) (hL : partsIn [.port, .sealb, .pmu, .free, .asks] L = true) (hF : Channel.onlyIn L c₀ x₀) : Channel.onlyIn L c₀ (Channel.flightTick x₀ p) := by
  refine Channel.onlyIn_step hL hF ?_
  unfold Channel.flightTick
  try dsimp only
  repeat' first | with_reducible exact Channel.onlyIn_refl _ _ | with_reducible apply on_passFrames | with_reducible apply on_sealDone | with_reducible apply on_ite | with_reducible apply on_ite2 | with_reducible apply on_fold | with_reducible apply on_fold2 | with_reducible rfl | exact .inl rfl | exact .inr rfl | rfl | with_reducible assumption | intro _ | (split <;> try (rename_i h; first | (have e := congrArg Prod.snd h; dsimp only at e; subst e) | (have e := rxTake_eq h; subst e)))

theorem on_dropSilent {L : List ChPart} {c₀ x₀ : Channel} (p : PortIx) (hL : partsIn [.sched, .sealb, .pmu, .free, .asks] L = true) (hF : Channel.onlyIn L c₀ x₀) : Channel.onlyIn L c₀ (Channel.dropSilent x₀ p) := by
  refine Channel.onlyIn_step hL hF ?_
  unfold Channel.dropSilent
  try dsimp only
  repeat' first | with_reducible exact Channel.onlyIn_refl _ _ | with_reducible apply on_dropWhere | with_reducible apply on_bumpBy | with_reducible apply on_ite | with_reducible apply on_ite2 | with_reducible rfl | exact .inl rfl | exact .inr rfl | rfl | with_reducible assumption | intro _ | (split <;> try (rename_i h; first | (have e := congrArg Prod.snd h; dsimp only at e; subst e) | (have e := rxTake_eq h; subst e)))

theorem on_egressCommit {L : List ChPart} {c₀ x₀ : Channel} (p : PortIx) (ps : ℕ) (fE : ℤ) (hL : partsIn [.sched, .port, .sealb, .pmu, .free, .asks] L = true) (hF : Channel.onlyIn L c₀ x₀) : Channel.onlyIn L c₀ (Channel.egressCommit x₀ p ps fE) := by
  refine Channel.onlyIn_step hL hF ?_
  unfold Channel.egressCommit
  try dsimp only
  repeat' first | with_reducible exact Channel.onlyIn_refl _ _ | with_reducible apply on_dropSilent | with_reducible apply on_commitQ | with_reducible apply on_wasted | with_reducible apply on_notExp | with_reducible apply on_commitCounts | with_reducible apply on_dropFlights | with_reducible apply on_passFrames | with_reducible apply on_submit | with_reducible apply on_ite | with_reducible apply on_ite2 | with_reducible rfl | exact .inl rfl | exact .inr rfl | rfl | with_reducible assumption | intro _ | (split <;> try (rename_i h; first | (have e := congrArg Prod.snd h; dsimp only at e; subst e) | (have e := rxTake_eq h; subst e)))

theorem on_sealAbort {L : List ChPart} {c₀ x₀ : Channel} (hL : partsIn [.port, .sealb, .pmu, .free, .asks] L = true) (hF : Channel.onlyIn L c₀ x₀) : Channel.onlyIn L c₀ (Channel.sealAbort x₀) := by
  refine Channel.onlyIn_step hL hF ?_
  unfold Channel.sealAbort
  try dsimp only
  repeat' first | with_reducible exact Channel.onlyIn_refl _ _ | with_reducible apply on_discardFlight | with_reducible apply on_evt | with_reducible apply on_bumpBy | with_reducible apply on_updPs | with_reducible apply on_ite | with_reducible apply on_ite2 | with_reducible apply on_fold | with_reducible apply on_fold2 | with_reducible rfl | exact .inl rfl | exact .inr rfl | rfl | with_reducible assumption | intro _ | (split <;> try (rename_i h; first | (have e := congrArg Prod.snd h; dsimp only at e; subst e) | (have e := rxTake_eq h; subst e)))

theorem on_setBend {L : List ChPart} {c₀ x₀ : Channel} (x : Fin 2) (e : BEnd) (hL : partsIn [.bench] L = true) (hF : Channel.onlyIn L c₀ x₀) : Channel.onlyIn L c₀ (Channel.setBend x₀ x e) := by
  refine Channel.onlyIn_step hL hF ?_
  unfold Channel.setBend
  try dsimp only
  repeat' first | with_reducible exact Channel.onlyIn_refl _ _ | with_reducible apply on_ite | with_reducible apply on_ite2 | with_reducible rfl | exact .inl rfl | exact .inr rfl | rfl | with_reducible assumption | intro _ | (split <;> try (rename_i h; first | (have e := congrArg Prod.snd h; dsimp only at e; subst e) | (have e := rxTake_eq h; subst e))) | with_reducible apply on_upd

theorem on_setBlane {L : List ChPart} {c₀ x₀ : Channel} (x : Fin 2) (l : BenchLane) (hL : partsIn [.ens] L = true) (hF : Channel.onlyIn L c₀ x₀) : Channel.onlyIn L c₀ (Channel.setBlane x₀ x l) := by
  refine Channel.onlyIn_step hL hF ?_
  unfold Channel.setBlane
  try dsimp only
  repeat' first | with_reducible exact Channel.onlyIn_refl _ _ | with_reducible apply on_ite | with_reducible apply on_ite2 | with_reducible rfl | exact .inl rfl | exact .inr rfl | rfl | with_reducible assumption | intro _ | (split <;> try (rename_i h; first | (have e := congrArg Prod.snd h; dsimp only at e; subst e) | (have e := rxTake_eq h; subst e))) | with_reducible apply on_upd

theorem on_benchTo {L : List ChPart} {c₀ x₀ : Channel} (x : Fin 2) (st : ℕ) (hL : partsIn [.bench, .asks] L = true) (hF : Channel.onlyIn L c₀ x₀) : Channel.onlyIn L c₀ (Channel.benchTo x₀ x st) := by
  refine Channel.onlyIn_step hL hF ?_
  unfold Channel.benchTo
  try dsimp only
  repeat' first | with_reducible exact Channel.onlyIn_refl _ _ | with_reducible apply on_bump | with_reducible apply on_ask | with_reducible apply on_put | with_reducible apply on_ite | with_reducible apply on_ite2 | with_reducible rfl | exact .inl rfl | exact .inr rfl | rfl | with_reducible assumption | intro _ | (split <;> try (rename_i h; first | (have e := congrArg Prod.snd h; dsimp only at e; subst e) | (have e := rxTake_eq h; subst e)))

theorem on_benchDown {L : List ChPart} {c₀ x₀ : Channel} (x : Fin 2) (hL : partsIn [.bench, .asks] L = true) (hF : Channel.onlyIn L c₀ x₀) : Channel.onlyIn L c₀ (Channel.benchDown x₀ x) := by
  refine Channel.onlyIn_step hL hF ?_
  unfold Channel.benchDown
  try dsimp only
  repeat' first | with_reducible exact Channel.onlyIn_refl _ _ | with_reducible apply on_setBend | with_reducible apply on_benchTo | with_reducible apply on_ite | with_reducible apply on_ite2 | with_reducible rfl | exact .inl rfl | exact .inr rfl | rfl | with_reducible assumption | intro _ | (split <;> try (rename_i h; first | (have e := congrArg Prod.snd h; dsimp only at e; subst e) | (have e := rxTake_eq h; subst e)))

theorem on_benchSync {L : List ChPart} {c₀ x₀ : Channel} (x : Fin 2) (hL : partsIn [.bench, .asks] L = true) (hF : Channel.onlyIn L c₀ x₀) : Channel.onlyIn L c₀ (Channel.benchSync x₀ x) := by
  refine Channel.onlyIn_step hL hF ?_
  unfold Channel.benchSync
  try dsimp only
  repeat' first | with_reducible exact Channel.onlyIn_refl _ _ | with_reducible apply on_setBend | with_reducible apply on_benchTo | with_reducible apply on_ite | with_reducible apply on_ite2 | with_reducible rfl | exact .inl rfl | exact .inr rfl | rfl | with_reducible assumption | intro _ | (split <;> try (rename_i h; first | (have e := congrArg Prod.snd h; dsimp only at e; subst e) | (have e := rxTake_eq h; subst e)))

theorem on_helloSend {L : List ChPart} {c₀ x₀ : Channel} (i : BenchId) (x : Fin 2) (stamp : ℕ) (hL : partsIn [.bench, .asks] L = true) (hF : Channel.onlyIn L c₀ x₀) : Channel.onlyIn L c₀ (Channel.helloSend x₀ i x stamp) := by
  refine Channel.onlyIn_step hL hF ?_
  unfold Channel.helloSend
  try dsimp only
  repeat' first | with_reducible exact Channel.onlyIn_refl _ _ | with_reducible apply on_ask | with_reducible apply on_setBend | with_reducible apply on_ite | with_reducible apply on_ite2 | with_reducible rfl | exact .inl rfl | exact .inr rfl | rfl | with_reducible assumption | intro _ | (split <;> try (rename_i h; first | (have e := congrArg Prod.snd h; dsimp only at e; subst e) | (have e := rxTake_eq h; subst e)))

theorem on_ldly {L : List ChPart} {c₀ x₀ : Channel} (x : Fin 2) (rs : List ℤ) (hL : partsIn [.bench] L = true) (hF : Channel.onlyIn L c₀ x₀) : Channel.onlyIn L c₀ (Channel.ldly x₀ x rs) := by
  refine Channel.onlyIn_step hL hF ?_
  unfold Channel.ldly
  try dsimp only
  repeat' first | with_reducible exact Channel.onlyIn_refl _ _ | with_reducible apply on_put | with_reducible apply on_ite | with_reducible apply on_ite2 | with_reducible rfl | exact .inl rfl | exact .inr rfl | rfl | with_reducible assumption | intro _ | (split <;> try (rename_i h; first | (have e := congrArg Prod.snd h; dsimp only at e; subst e) | (have e := rxTake_eq h; subst e)))

theorem on_exchange {L : List ChPart} {c₀ x₀ : Channel} (x : Fin 2) (r : ℤ) (hL : partsIn [.bench, .asks] L = true) (hF : Channel.onlyIn L c₀ x₀) : Channel.onlyIn L c₀ (Channel.exchange x₀ x r) := by
  refine Channel.onlyIn_step hL hF ?_
  unfold Channel.exchange
  try dsimp only
  repeat' first | with_reducible exact Channel.onlyIn_refl _ _ | with_reducible apply on_ldly | with_reducible apply on_setBend | with_reducible apply on_benchTo | with_reducible apply on_evt | with_reducible apply on_ite | with_reducible apply on_ite2 | with_reducible rfl | exact .inl rfl | exact .inr rfl | rfl | with_reducible assumption | intro _ | (split <;> try (rename_i h; first | (have e := congrArg Prod.snd h; dsimp only at e; subst e) | (have e := rxTake_eq h; subst e)))

theorem on_benchDrop {L : List ChPart} {c₀ x₀ : Channel} (x : Fin 2) (hL : partsIn [.bench] L = true) (hF : Channel.onlyIn L c₀ x₀) : Channel.onlyIn L c₀ (Channel.benchDrop x₀ x) := by
  refine Channel.onlyIn_step hL hF ?_
  unfold Channel.benchDrop
  try dsimp only
  repeat' first | with_reducible exact Channel.onlyIn_refl _ _ | with_reducible apply on_bump | with_reducible apply on_ite | with_reducible apply on_ite2 | with_reducible rfl | exact .inl rfl | exact .inr rfl | rfl | with_reducible assumption | intro _ | (split <;> try (rename_i h; first | (have e := congrArg Prod.snd h; dsimp only at e; subst e) | (have e := rxTake_eq h; subst e)))

theorem on_helloRx {L : List ChPart} {c₀ x₀ : Channel} (x : Fin 2) (bs : Bytes) (t4 : ℕ) (hL : partsIn [.bench, .asks] L = true) (hF : Channel.onlyIn L c₀ x₀) : Channel.onlyIn L c₀ (Channel.helloRx x₀ x bs t4) := by
  refine Channel.onlyIn_step hL hF ?_
  unfold Channel.helloRx
  try dsimp only
  repeat' first | with_reducible exact Channel.onlyIn_refl _ _ | with_reducible apply on_benchDrop | with_reducible apply on_setBend | with_reducible apply on_put | with_reducible apply on_benchTo | with_reducible apply on_exchange | with_reducible apply on_ite | with_reducible apply on_ite2 | with_reducible rfl | exact .inl rfl | exact .inr rfl | rfl | with_reducible assumption | intro _ | (split <;> try (rename_i h; first | (have e := congrArg Prod.snd h; dsimp only at e; subst e) | (have e := rxTake_eq h; subst e)))

theorem on_helloTimeout {L : List ChPart} {c₀ x₀ : Channel} (x : Fin 2) (lost : Bool) (hL : partsIn [.bench, .asks] L = true) (hF : Channel.onlyIn L c₀ x₀) : Channel.onlyIn L c₀ (Channel.helloTimeout x₀ x lost) := by
  refine Channel.onlyIn_step hL hF ?_
  unfold Channel.helloTimeout
  try dsimp only
  repeat' first | with_reducible exact Channel.onlyIn_refl _ _ | with_reducible apply on_benchDown | with_reducible apply on_ite | with_reducible apply on_ite2 | with_reducible rfl | exact .inl rfl | exact .inr rfl | rfl | with_reducible assumption | intro _ | (split <;> try (rename_i h; first | (have e := congrArg Prod.snd h; dsimp only at e; subst e) | (have e := rxTake_eq h; subst e)))

theorem on_benchCommitted {L : List ChPart} {c₀ x₀ : Channel} (hL : partsIn [.bench, .asks] L = true) (hF : Channel.onlyIn L c₀ x₀) : Channel.onlyIn L c₀ (Channel.benchCommitted x₀) := by
  refine Channel.onlyIn_step hL hF ?_
  unfold Channel.benchCommitted
  try dsimp only
  repeat' first | with_reducible exact Channel.onlyIn_refl _ _ | with_reducible apply on_benchDown | with_reducible apply on_ite | with_reducible apply on_ite2 | with_reducible apply on_fold | with_reducible apply on_fold2 | with_reducible rfl | exact .inl rfl | exact .inr rfl | rfl | with_reducible assumption | intro _ | (split <;> try (rename_i h; first | (have e := congrArg Prod.snd h; dsimp only at e; subst e) | (have e := rxTake_eq h; subst e)))

theorem on_benchTimeOn {L : List ChPart} {c₀ x₀ : Channel} (i : BenchId) (ps : Fin 2 → ℕ) (x : Fin 2) (hL : partsIn [.asks] L = true) (hF : Channel.onlyIn L c₀ x₀) : Channel.onlyIn L c₀ (Channel.benchTimeOn i ps x₀ x) := by
  refine Channel.onlyIn_step hL hF ?_
  unfold Channel.benchTimeOn
  try dsimp only
  repeat' first | with_reducible exact Channel.onlyIn_refl _ _ | with_reducible apply on_ask | with_reducible apply on_ite | with_reducible apply on_ite2 | with_reducible rfl | exact .inl rfl | exact .inr rfl | rfl | with_reducible assumption | intro _ | (split <;> try (rename_i h; first | (have e := congrArg Prod.snd h; dsimp only at e; subst e) | (have e := rxTake_eq h; subst e)))

theorem on_benchTimeSend {L : List ChPart} {c₀ x₀ : Channel} (i : BenchId) (ps0 : ℕ) (ps1 : ℕ) (hL : partsIn [.asks] L = true) (hF : Channel.onlyIn L c₀ x₀) : Channel.onlyIn L c₀ (Channel.benchTimeSend x₀ i ps0 ps1) := by
  refine Channel.onlyIn_step hL hF ?_
  unfold Channel.benchTimeSend
  try dsimp only
  repeat' first | with_reducible exact Channel.onlyIn_refl _ _ | with_reducible apply on_benchTimeOn | with_reducible apply on_ite | with_reducible apply on_ite2 | with_reducible apply on_fold | with_reducible apply on_fold2 | with_reducible rfl | exact .inl rfl | exact .inr rfl | rfl | with_reducible assumption | intro _ | (split <;> try (rename_i h; first | (have e := congrArg Prod.snd h; dsimp only at e; subst e) | (have e := rxTake_eq h; subst e)))

theorem on_peerCount {L : List ChPart} {c₀ x₀ : Channel} (x : Fin 2) (hL : partsIn [.bench] L = true) (hF : Channel.onlyIn L c₀ x₀) : Channel.onlyIn L c₀ (Channel.peerCount x₀ x) := by
  refine Channel.onlyIn_step hL hF ?_
  unfold Channel.peerCount
  try dsimp only
  repeat' first | with_reducible exact Channel.onlyIn_refl _ _ | with_reducible apply on_put | with_reducible apply on_ite | with_reducible apply on_ite2 | with_reducible rfl | exact .inl rfl | exact .inr rfl | rfl | with_reducible assumption | intro _ | (split <;> try (rename_i h; first | (have e := congrArg Prod.snd h; dsimp only at e; subst e) | (have e := rxTake_eq h; subst e)))

theorem on_deliver {L : List ChPart} {c₀ x₀ : Channel} (x : Fin 2) (bs : Bytes) (ps : ℕ) (hL : partsIn [.bench, .ens, .asks] L = true) (hF : Channel.onlyIn L c₀ x₀) : Channel.onlyIn L c₀ (Channel.deliver x₀ x bs ps) := by
  refine Channel.onlyIn_step hL hF ?_
  unfold Channel.deliver
  try dsimp only
  repeat' first | with_reducible exact Channel.onlyIn_refl _ _ | with_reducible apply on_evt | with_reducible apply on_peerCount | with_reducible apply on_bump | with_reducible apply on_setBlane | with_reducible apply on_ite | with_reducible apply on_ite2 | with_reducible rfl | exact .inl rfl | exact .inr rfl | rfl | with_reducible assumption | intro _ | (split <;> try (rename_i h; first | (have e := congrArg Prod.snd h; dsimp only at e; subst e) | (have e := rxTake_eq h; subst e)))

theorem on_benchTimeRx {L : List ChPart} {c₀ x₀ : Channel} (own : ℕ) (x : Fin 2) (bs : Bytes) (ps : ℕ) (hL : partsIn [.bench, .ens, .asks] L = true) (hF : Channel.onlyIn L c₀ x₀) : Channel.onlyIn L c₀ (Channel.benchTimeRx x₀ own x bs ps).2 := by
  refine Channel.onlyIn_step hL hF ?_
  unfold Channel.benchTimeRx
  try dsimp only
  repeat' first | with_reducible exact Channel.onlyIn_refl _ _ | with_reducible apply on_benchDrop | with_reducible apply on_deliver | with_reducible apply on_ite | with_reducible apply on_ite2 | with_reducible rfl | exact .inl rfl | exact .inr rfl | rfl | with_reducible assumption | intro _ | (split <;> try (rename_i h; first | (have e := congrArg Prod.snd h; dsimp only at e; subst e) | (have e := rxTake_eq h; subst e)))

theorem on_slotExpiry {L : List ChPart} {c₀ x₀ : Channel} (x : Fin 2) (i : Fin 32) (hL : partsIn [.bench, .ens] L = true) (hF : Channel.onlyIn L c₀ x₀) : Channel.onlyIn L c₀ (Channel.slotExpiry x₀ x i) := by
  refine Channel.onlyIn_step hL hF ?_
  unfold Channel.slotExpiry
  try dsimp only
  repeat' first | with_reducible exact Channel.onlyIn_refl _ _ | with_reducible apply on_peerCount | with_reducible apply on_setBlane | with_reducible apply on_ite | with_reducible apply on_ite2 | with_reducible rfl | exact .inl rfl | exact .inr rfl | rfl | with_reducible assumption | intro _ | (split <;> try (rename_i h; first | (have e := congrArg Prod.snd h; dsimp only at e; subst e) | (have e := rxTake_eq h; subst e)))

theorem on_ensemble {L : List ChPart} {c₀ x₀ : Channel} (x : Fin 2) (hL : partsIn [.ref, .dpll, .scale, .bench, .ens, .free, .asks] L = true) (hF : Channel.onlyIn L c₀ x₀) : Channel.onlyIn L c₀ (Channel.ensemble x₀ x) := by
  refine Channel.onlyIn_step hL hF ?_
  unfold Channel.ensemble
  try dsimp only
  repeat' first | with_reducible exact Channel.onlyIn_refl _ _ | with_reducible apply on_put | with_reducible apply on_free | with_reducible apply on_ask | with_reducible apply on_evt | with_reducible apply on_freqFb | with_reducible apply on_setBlane | with_reducible apply on_measure | with_reducible apply on_utcAnnounce | with_reducible apply on_ite | with_reducible apply on_ite2 | with_reducible rfl | exact .inl rfl | exact .inr rfl | rfl | with_reducible assumption | intro _ | (split <;> try (rename_i h; first | (have e := congrArg Prod.snd h; dsimp only at e; subst e) | (have e := rxTake_eq h; subst e)))

theorem on_twinRecord {L : List ChPart} {c₀ x₀ : Channel} (pl : Bytes) (ps : ℕ) (tdly : ℕ) (tcal : ℤ) (tbud : ℕ) (hL : partsIn [.ref, .dpll, .scale, .tprev, .free, .asks] L = true) (hF : Channel.onlyIn L c₀ x₀) : Channel.onlyIn L c₀ (Channel.twinRecord x₀ pl ps tdly tcal tbud) := by
  refine Channel.onlyIn_step hL hF ?_
  unfold Channel.twinRecord
  try dsimp only
  repeat' first | with_reducible exact Channel.onlyIn_refl _ _ | with_reducible apply on_freqFb | with_reducible apply on_measure | with_reducible apply on_utcAnnounce | with_reducible apply on_ite | with_reducible apply on_ite2 | with_reducible rfl | exact .inl rfl | exact .inr rfl | rfl | with_reducible assumption | intro _ | (split <;> try (rename_i h; first | (have e := congrArg Prod.snd h; dsimp only at e; subst e) | (have e := rxTake_eq h; subst e))) | with_reducible apply on_upd

theorem on_epiSettle {L : List ChPart} {c₀ x₀ : Channel} (hL : partsIn [.epi, .asks] L = true) (hF : Channel.onlyIn L c₀ x₀) : Channel.onlyIn L c₀ (Channel.epiSettle x₀) := by
  refine Channel.onlyIn_step hL hF ?_
  unfold Channel.epiSettle
  try dsimp only
  repeat' first | with_reducible exact Channel.onlyIn_refl _ _ | with_reducible apply on_ask | with_reducible apply on_ite | with_reducible apply on_ite2 | with_reducible rfl | exact .inl rfl | exact .inr rfl | rfl | with_reducible assumption | intro _ | (split <;> try (rename_i h; first | (have e := congrArg Prod.snd h; dsimp only at e; subst e) | (have e := rxTake_eq h; subst e))) | with_reducible apply on_upd

theorem on_epiExit {L : List ChPart} {c₀ x₀ : Channel} (hL : partsIn [.epi, .asks] L = true) (hF : Channel.onlyIn L c₀ x₀) : Channel.onlyIn L c₀ (Channel.epiExit x₀) := by
  refine Channel.onlyIn_step hL hF ?_
  unfold Channel.epiExit
  try dsimp only
  repeat' first | with_reducible exact Channel.onlyIn_refl _ _ | with_reducible apply on_ask | with_reducible apply on_ite | with_reducible apply on_ite2 | with_reducible rfl | exact .inl rfl | exact .inr rfl | rfl | with_reducible assumption | intro _ | (split <;> try (rename_i h; first | (have e := congrArg Prod.snd h; dsimp only at e; subst e) | (have e := rxTake_eq h; subst e))) | with_reducible apply on_upd

theorem on_settle {L : List ChPart} {c₀ x₀ : Channel} (old : Channel) (hL : partsIn [.syn, .sched, .port, .sealb, .pmu, .epi, .free, .asks] L = true) (hF : Channel.onlyIn L c₀ x₀) : Channel.onlyIn L c₀ (Channel.settle old x₀) := by
  refine Channel.onlyIn_step hL hF ?_
  unfold Channel.settle
  try dsimp only
  repeat' first | with_reducible exact Channel.onlyIn_refl _ _ | with_reducible apply on_epiSettle | with_reducible apply on_runSettle | with_reducible apply on_portSettle | with_reducible apply on_synSettle | with_reducible apply on_ite | with_reducible apply on_ite2 | with_reducible rfl | exact .inl rfl | exact .inr rfl | rfl | with_reducible assumption | intro _ | (split <;> try (rename_i h; first | (have e := congrArg Prod.snd h; dsimp only at e; subst e) | (have e := rxTake_eq h; subst e)))

theorem on_setGnss {L : List ChPart} {c₀ x₀ : Channel} (g : GnssBlk) (hL : partsIn [.gnss] L = true) (hF : Channel.onlyIn L c₀ x₀) : Channel.onlyIn L c₀ (Channel.setGnss x₀ g) := by
  refine Channel.onlyIn_step hL hF ?_
  unfold Channel.setGnss
  try dsimp only
  repeat' first | with_reducible exact Channel.onlyIn_refl _ _ | with_reducible apply on_ite | with_reducible apply on_ite2 | with_reducible rfl | exact .inl rfl | exact .inr rfl | rfl | with_reducible assumption | intro _ | (split <;> try (rename_i h; first | (have e := congrArg Prod.snd h; dsimp only at e; subst e) | (have e := rxTake_eq h; subst e))) | with_reducible apply on_upd

theorem on_updTrk {L : List ChPart} {c₀ x₀ : Channel} (i : Fin 48) (f : Trk → Trk) (hL : partsIn [.gnss] L = true) (hF : Channel.onlyIn L c₀ x₀) : Channel.onlyIn L c₀ (Channel.updTrk x₀ i f) := by
  refine Channel.onlyIn_step hL hF ?_
  unfold Channel.updTrk
  try dsimp only
  repeat' first | with_reducible exact Channel.onlyIn_refl _ _ | with_reducible apply on_setGnss | with_reducible apply on_ite | with_reducible apply on_ite2 | with_reducible rfl | exact .inl rfl | exact .inr rfl | rfl | with_reducible assumption | intro _ | (split <;> try (rename_i h; first | (have e := congrArg Prod.snd h; dsimp only at e; subst e) | (have e := rxTake_eq h; subst e)))

theorem on_trkTo {L : List ChPart} {c₀ x₀ : Channel} (i : Fin 48) (st : ℕ) (timer : Option ℕ) (hL : partsIn [.gnss] L = true) (hF : Channel.onlyIn L c₀ x₀) : Channel.onlyIn L c₀ (Channel.trkTo x₀ i st timer) := by
  refine Channel.onlyIn_step hL hF ?_
  unfold Channel.trkTo
  try dsimp only
  repeat' first | with_reducible exact Channel.onlyIn_refl _ _ | with_reducible apply on_updTrk | with_reducible apply on_put | with_reducible apply on_ite | with_reducible apply on_ite2 | with_reducible rfl | exact .inl rfl | exact .inr rfl | rfl | with_reducible assumption | intro _ | (split <;> try (rename_i h; first | (have e := congrArg Prod.snd h; dsimp only at e; subst e) | (have e := rxTake_eq h; subst e)))

theorem on_trkIdle {L : List ChPart} {c₀ x₀ : Channel} (p : Fin 48 → Bool) (hL : partsIn [.gnss] L = true) (hF : Channel.onlyIn L c₀ x₀) : Channel.onlyIn L c₀ (Channel.trkIdle x₀ p) := by
  refine Channel.onlyIn_step hL hF ?_
  unfold Channel.trkIdle
  try dsimp only
  repeat' first | with_reducible exact Channel.onlyIn_refl _ _ | with_reducible apply on_trkTo | with_reducible apply on_ite | with_reducible apply on_ite2 | with_reducible apply on_fold | with_reducible apply on_fold2 | with_reducible rfl | exact .inl rfl | exact .inr rfl | rfl | with_reducible assumption | intro _ | (split <;> try (rename_i h; first | (have e := congrArg Prod.snd h; dsimp only at e; subst e) | (have e := rxTake_eq h; subst e)))

theorem on_linkTo {L : List ChPart} {c₀ x₀ : Channel} (st : ℕ) (hL : partsIn [.gnss, .asks] L = true) (hF : Channel.onlyIn L c₀ x₀) : Channel.onlyIn L c₀ (Channel.linkTo x₀ st) := by
  refine Channel.onlyIn_step hL hF ?_
  unfold Channel.linkTo
  try dsimp only
  repeat' first | with_reducible exact Channel.onlyIn_refl _ _ | with_reducible apply on_setGnss | with_reducible apply on_evt | with_reducible apply on_put | with_reducible apply on_trkIdle | with_reducible apply on_ite | with_reducible apply on_ite2 | with_reducible rfl | exact .inl rfl | exact .inr rfl | rfl | with_reducible assumption | intro _ | (split <;> try (rename_i h; first | (have e := congrArg Prod.snd h; dsimp only at e; subst e) | (have e := rxTake_eq h; subst e)))

theorem on_bcDone {L : List ChPart} {c₀ x₀ : Channel} (rtag : ℕ) (rstat : ℕ) (rdata : ℕ) (hL : partsIn [.gnss, .asks] L = true) (hF : Channel.onlyIn L c₀ x₀) : Channel.onlyIn L c₀ (Channel.bcDone x₀ rtag rstat rdata) := by
  refine Channel.onlyIn_step hL hF ?_
  unfold Channel.bcDone
  try dsimp only
  repeat' first | with_reducible exact Channel.onlyIn_refl _ _ | with_reducible apply on_put | with_reducible apply on_setGnss | with_reducible apply on_evt | with_reducible apply on_ite | with_reducible apply on_ite2 | with_reducible rfl | exact .inl rfl | exact .inr rfl | rfl | with_reducible assumption | intro _ | (split <;> try (rename_i h; first | (have e := congrArg Prod.snd h; dsimp only at e; subst e) | (have e := rxTake_eq h; subst e)))

theorem on_snapFrame {L : List ChPart} {c₀ x₀ : Channel} (good : Bool) (agc : Byte) (samples : Bytes) (hL : partsIn [.gnss] L = true) (hF : Channel.onlyIn L c₀ x₀) : Channel.onlyIn L c₀ (Channel.snapFrame x₀ good agc samples) := by
  refine Channel.onlyIn_step hL hF ?_
  unfold Channel.snapFrame
  try dsimp only
  repeat' first | with_reducible exact Channel.onlyIn_refl _ _ | with_reducible apply on_put | with_reducible apply on_setGnss | with_reducible apply on_ite | with_reducible apply on_ite2 | with_reducible rfl | exact .inl rfl | exact .inr rfl | rfl | with_reducible assumption | intro _ | (split <;> try (rename_i h; first | (have e := congrArg Prod.snd h; dsimp only at e; subst e) | (have e := rxTake_eq h; subst e)))

theorem on_sampleFrame {L : List ChPart} {c₀ x₀ : Channel} (comma : Bool) (bs : Bytes) (hL : partsIn [.gnss, .asks] L = true) (hF : Channel.onlyIn L c₀ x₀) : Channel.onlyIn L c₀ (Channel.sampleFrame x₀ comma bs) := by
  refine Channel.onlyIn_step hL hF ?_
  unfold Channel.sampleFrame
  try dsimp only
  repeat' first | with_reducible exact Channel.onlyIn_refl _ _ | with_reducible apply on_snapFrame | with_reducible apply on_linkTo | with_reducible apply on_setGnss | with_reducible apply on_evt | with_reducible apply on_put | with_reducible apply on_bcDone | with_reducible apply on_bump | with_reducible apply on_ite | with_reducible apply on_ite2 | with_reducible rfl | exact .inl rfl | exact .inr rfl | rfl | with_reducible assumption | intro _ | (split <;> try (rename_i h; first | (have e := congrArg Prod.snd h; dsimp only at e; subst e) | (have e := rxTake_eq h; subst e)))

theorem on_bcGo {L : List ChPart} {c₀ x₀ : Channel} (hL : partsIn [.gnss] L = true) (hF : Channel.onlyIn L c₀ x₀) : Channel.onlyIn L c₀ (Channel.bcGo x₀) := by
  refine Channel.onlyIn_step hL hF ?_
  unfold Channel.bcGo
  try dsimp only
  repeat' first | with_reducible exact Channel.onlyIn_refl _ _ | with_reducible apply on_put | with_reducible apply on_setGnss | with_reducible apply on_ite | with_reducible apply on_ite2 | with_reducible rfl | exact .inl rfl | exact .inr rfl | rfl | with_reducible assumption | intro _ | (split <;> try (rename_i h; first | (have e := congrArg Prod.snd h; dsimp only at e; subst e) | (have e := rxTake_eq h; subst e)))

theorem on_bcMessage {L : List ChPart} {c₀ x₀ : Channel} (hL : partsIn [.gnss, .asks] L = true) (hF : Channel.onlyIn L c₀ x₀) : Channel.onlyIn L c₀ (Channel.bcMessage x₀) := by
  refine Channel.onlyIn_step hL hF ?_
  unfold Channel.bcMessage
  try dsimp only
  repeat' first | with_reducible exact Channel.onlyIn_refl _ _ | with_reducible apply on_setGnss | with_reducible apply on_ask | with_reducible apply on_ite | with_reducible apply on_ite2 | with_reducible rfl | exact .inl rfl | exact .inr rfl | rfl | with_reducible assumption | intro _ | (split <;> try (rename_i h; first | (have e := congrArg Prod.snd h; dsimp only at e; subst e) | (have e := rxTake_eq h; subst e)))

theorem on_bcTimeout {L : List ChPart} {c₀ x₀ : Channel} (hL : partsIn [.gnss, .asks] L = true) (hF : Channel.onlyIn L c₀ x₀) : Channel.onlyIn L c₀ (Channel.bcTimeout x₀) := by
  refine Channel.onlyIn_step hL hF ?_
  unfold Channel.bcTimeout
  try dsimp only
  repeat' first | with_reducible exact Channel.onlyIn_refl _ _ | with_reducible apply on_evt | with_reducible apply on_put | with_reducible apply on_setGnss | with_reducible apply on_ite | with_reducible apply on_ite2 | with_reducible rfl | exact .inl rfl | exact .inr rfl | rfl | with_reducible assumption | intro _ | (split <;> try (rename_i h; first | (have e := congrArg Prod.snd h; dsimp only at e; subst e) | (have e := rxTake_eq h; subst e)))

theorem on_putNavSat {L : List ChPart} {c₀ x₀ : Channel} (s : NavSat) (hL : partsIn [.gnss] L = true) (hF : Channel.onlyIn L c₀ x₀) : Channel.onlyIn L c₀ (Channel.putNavSat x₀ s) := by
  refine Channel.onlyIn_step hL hF ?_
  unfold Channel.putNavSat
  try dsimp only
  repeat' first | with_reducible exact Channel.onlyIn_refl _ _ | with_reducible apply on_setGnss | with_reducible apply on_ite | with_reducible apply on_ite2 | with_reducible rfl | exact .inl rfl | exact .inr rfl | rfl | with_reducible assumption | intro _ | (split <;> try (rename_i h; first | (have e := congrArg Prod.snd h; dsimp only at e; subst e) | (have e := rxTake_eq h; subst e)))

theorem on_trkAssign {L : List ChPart} {c₀ x₀ : Channel} (i : Fin 48) (gal : Bool) (sv : ℕ) (hL : partsIn [.gnss] L = true) (hF : Channel.onlyIn L c₀ x₀) : Channel.onlyIn L c₀ (Channel.trkAssign x₀ i gal sv) := by
  refine Channel.onlyIn_step hL hF ?_
  unfold Channel.trkAssign
  try dsimp only
  repeat' first | with_reducible exact Channel.onlyIn_refl _ _ | with_reducible apply on_updTrk | with_reducible apply on_put | with_reducible apply on_trkTo | with_reducible apply on_ite | with_reducible apply on_ite2 | with_reducible rfl | exact .inl rfl | exact .inr rfl | rfl | with_reducible assumption | intro _ | (split <;> try (rename_i h; first | (have e := congrArg Prod.snd h; dsimp only at e; subst e) | (have e := rxTake_eq h; subst e)))

theorem on_trkDetect {L : List ChPart} {c₀ x₀ : Channel} (i : Fin 48) (hL : partsIn [.gnss] L = true) (hF : Channel.onlyIn L c₀ x₀) : Channel.onlyIn L c₀ (Channel.trkDetect x₀ i) := by
  refine Channel.onlyIn_step hL hF ?_
  unfold Channel.trkDetect
  try dsimp only
  repeat' first | with_reducible exact Channel.onlyIn_refl _ _ | with_reducible apply on_updTrk | with_reducible apply on_trkTo | with_reducible apply on_ite | with_reducible apply on_ite2 | with_reducible rfl | exact .inl rfl | exact .inr rfl | rfl | with_reducible assumption | intro _ | (split <;> try (rename_i h; first | (have e := congrArg Prod.snd h; dsimp only at e; subst e) | (have e := rxTake_eq h; subst e)))

theorem on_trkExhausted {L : List ChPart} {c₀ x₀ : Channel} (i : Fin 48) (hL : partsIn [.gnss] L = true) (hF : Channel.onlyIn L c₀ x₀) : Channel.onlyIn L c₀ (Channel.trkExhausted x₀ i) := by
  refine Channel.onlyIn_step hL hF ?_
  unfold Channel.trkExhausted
  try dsimp only
  repeat' first | with_reducible exact Channel.onlyIn_refl _ _ | with_reducible apply on_setGnss | with_reducible apply on_trkTo | with_reducible apply on_ite | with_reducible apply on_ite2 | with_reducible rfl | exact .inl rfl | exact .inr rfl | rfl | with_reducible assumption | intro _ | (split <;> try (rename_i h; first | (have e := congrArg Prod.snd h; dsimp only at e; subst e) | (have e := rxTake_eq h; subst e)))

theorem on_trkUnbar {L : List ChPart} {c₀ x₀ : Channel} (hL : partsIn [.gnss] L = true) (hF : Channel.onlyIn L c₀ x₀) : Channel.onlyIn L c₀ (Channel.trkUnbar x₀) := by
  refine Channel.onlyIn_step hL hF ?_
  unfold Channel.trkUnbar
  try dsimp only
  repeat' first | with_reducible exact Channel.onlyIn_refl _ _ | with_reducible apply on_setGnss | with_reducible apply on_ite | with_reducible apply on_ite2 | with_reducible rfl | exact .inl rfl | exact .inr rfl | rfl | with_reducible assumption | intro _ | (split <;> try (rename_i h; first | (have e := congrArg Prod.snd h; dsimp only at e; subst e) | (have e := rxTake_eq h; subst e)))

theorem on_trkLock {L : List ChPart} {c₀ x₀ : Channel} (i : Fin 48) (hL : partsIn [.gnss] L = true) (hF : Channel.onlyIn L c₀ x₀) : Channel.onlyIn L c₀ (Channel.trkLock x₀ i) := by
  refine Channel.onlyIn_step hL hF ?_
  unfold Channel.trkLock
  try dsimp only
  repeat' first | with_reducible exact Channel.onlyIn_refl _ _ | with_reducible apply on_trkTo | with_reducible apply on_ite | with_reducible apply on_ite2 | with_reducible rfl | exact .inl rfl | exact .inr rfl | rfl | with_reducible assumption | intro _ | (split <;> try (rename_i h; first | (have e := congrArg Prod.snd h; dsimp only at e; subst e) | (have e := rxTake_eq h; subst e)))

theorem on_trkPullInTimeout {L : List ChPart} {c₀ x₀ : Channel} (i : Fin 48) (hL : partsIn [.gnss] L = true) (hF : Channel.onlyIn L c₀ x₀) : Channel.onlyIn L c₀ (Channel.trkPullInTimeout x₀ i) := by
  refine Channel.onlyIn_step hL hF ?_
  unfold Channel.trkPullInTimeout
  try dsimp only
  repeat' first | with_reducible exact Channel.onlyIn_refl _ _ | with_reducible apply on_trkTo | with_reducible apply on_ite | with_reducible apply on_ite2 | with_reducible rfl | exact .inl rfl | exact .inr rfl | rfl | with_reducible assumption | intro _ | (split <;> try (rename_i h; first | (have e := congrArg Prod.snd h; dsimp only at e; subst e) | (have e := rxTake_eq h; subst e)))

theorem on_trkLockLost {L : List ChPart} {c₀ x₀ : Channel} (i : Fin 48) (hL : partsIn [.gnss] L = true) (hF : Channel.onlyIn L c₀ x₀) : Channel.onlyIn L c₀ (Channel.trkLockLost x₀ i) := by
  refine Channel.onlyIn_step hL hF ?_
  unfold Channel.trkLockLost
  try dsimp only
  repeat' first | with_reducible exact Channel.onlyIn_refl _ _ | with_reducible apply on_trkTo | with_reducible apply on_ite | with_reducible apply on_ite2 | with_reducible rfl | exact .inl rfl | exact .inr rfl | rfl | with_reducible assumption | intro _ | (split <;> try (rename_i h; first | (have e := congrArg Prod.snd h; dsimp only at e; subst e) | (have e := rxTake_eq h; subst e)))

theorem on_trkLostTimeout {L : List ChPart} {c₀ x₀ : Channel} (i : Fin 48) (hL : partsIn [.gnss] L = true) (hF : Channel.onlyIn L c₀ x₀) : Channel.onlyIn L c₀ (Channel.trkLostTimeout x₀ i) := by
  refine Channel.onlyIn_step hL hF ?_
  unfold Channel.trkLostTimeout
  try dsimp only
  repeat' first | with_reducible exact Channel.onlyIn_refl _ _ | with_reducible apply on_trkTo | with_reducible apply on_ite | with_reducible apply on_ite2 | with_reducible rfl | exact .inl rfl | exact .inr rfl | rfl | with_reducible assumption | intro _ | (split <;> try (rename_i h; first | (have e := congrArg Prod.snd h; dsimp only at e; subst e) | (have e := rxTake_eq h; subst e)))

theorem on_sidePeak {L : List ChPart} {c₀ x₀ : Channel} (i : Fin 48) (late : Bool) (hL : partsIn [.gnss] L = true) (hF : Channel.onlyIn L c₀ x₀) : Channel.onlyIn L c₀ (Channel.sidePeak x₀ i late) := by
  refine Channel.onlyIn_step hL hF ?_
  unfold Channel.sidePeak
  try dsimp only
  repeat' first | with_reducible exact Channel.onlyIn_refl _ _ | with_reducible apply on_updTrk | with_reducible apply on_ite | with_reducible apply on_ite2 | with_reducible rfl | exact .inl rfl | exact .inr rfl | rfl | with_reducible assumption | intro _ | (split <;> try (rename_i h; first | (have e := congrArg Prod.snd h; dsimp only at e; subst e) | (have e := rxTake_eq h; subst e)))

theorem on_navDecoded {L : List ChPart} {c₀ x₀ : Channel} (i : Fin 48) (d : NavData) (hL : partsIn [.gnss, .asks] L = true) (hF : Channel.onlyIn L c₀ x₀) : Channel.onlyIn L c₀ (Channel.navDecoded x₀ i d) := by
  refine Channel.onlyIn_step hL hF ?_
  unfold Channel.navDecoded
  try dsimp only
  repeat' first | with_reducible exact Channel.onlyIn_refl _ _ | with_reducible apply on_putNavSat | with_reducible apply on_setGnss | with_reducible apply on_evt | with_reducible apply on_trkIdle | with_reducible apply on_ite | with_reducible apply on_ite2 | with_reducible rfl | exact .inl rfl | exact .inr rfl | rfl | with_reducible assumption | intro _ | (split <;> try (rename_i h; first | (have e := congrArg Prod.snd h; dsimp only at e; subst e) | (have e := rxTake_eq h; subst e)))

theorem on_notchTo {L : List ChPart} {c₀ x₀ : Channel} (k : Fin 4) (st : ℕ) (freq : ℕ) (hL : partsIn [.gnss, .asks] L = true) (hF : Channel.onlyIn L c₀ x₀) : Channel.onlyIn L c₀ (Channel.notchTo x₀ k st freq) := by
  refine Channel.onlyIn_step hL hF ?_
  unfold Channel.notchTo
  try dsimp only
  repeat' first | with_reducible exact Channel.onlyIn_refl _ _ | with_reducible apply on_put | with_reducible apply on_setGnss | with_reducible apply on_evt | with_reducible apply on_ite | with_reducible apply on_ite2 | with_reducible rfl | exact .inl rfl | exact .inr rfl | rfl | with_reducible assumption | intro _ | (split <;> try (rename_i h; first | (have e := congrArg Prod.snd h; dsimp only at e; subst e) | (have e := rxTake_eq h; subst e)))

theorem on_notchTake {L : List ChPart} {c₀ x₀ : Channel} (k : Fin 4) (lines : List (ℤ × ℕ)) (hL : partsIn [.gnss, .asks] L = true) (hF : Channel.onlyIn L c₀ x₀) : Channel.onlyIn L c₀ (Channel.notchTake x₀ k lines) := by
  refine Channel.onlyIn_step hL hF ?_
  unfold Channel.notchTake
  try dsimp only
  repeat' first | with_reducible exact Channel.onlyIn_refl _ _ | with_reducible apply on_notchTo | with_reducible apply on_ite | with_reducible apply on_ite2 | with_reducible rfl | exact .inl rfl | exact .inr rfl | rfl | with_reducible assumption | intro _ | (split <;> try (rename_i h; first | (have e := congrArg Prod.snd h; dsimp only at e; subst e) | (have e := rxTake_eq h; subst e)))

theorem on_notchFollow {L : List ChPart} {c₀ x₀ : Channel} (k : Fin 4) (lines : List (ℤ × ℕ)) (hL : partsIn [.gnss, .asks] L = true) (hF : Channel.onlyIn L c₀ x₀) : Channel.onlyIn L c₀ (Channel.notchFollow x₀ k lines) := by
  refine Channel.onlyIn_step hL hF ?_
  unfold Channel.notchFollow
  try dsimp only
  repeat' first | with_reducible exact Channel.onlyIn_refl _ _ | with_reducible apply on_setGnss | with_reducible apply on_put | with_reducible apply on_notchTo | with_reducible apply on_ite | with_reducible apply on_ite2 | with_reducible apply on_fold | with_reducible apply on_fold2 | with_reducible rfl | exact .inl rfl | exact .inr rfl | rfl | with_reducible assumption | intro _ | (split <;> try (rename_i h; first | (have e := congrArg Prod.snd h; dsimp only at e; subst e) | (have e := rxTake_eq h; subst e)))

theorem on_notchApart {L : List ChPart} {c₀ x₀ : Channel} (hL : partsIn [.gnss, .asks] L = true) (hF : Channel.onlyIn L c₀ x₀) : Channel.onlyIn L c₀ (Channel.notchApart x₀) := by
  refine Channel.onlyIn_step hL hF ?_
  unfold Channel.notchApart
  try dsimp only
  repeat' first | with_reducible exact Channel.onlyIn_refl _ _ | with_reducible apply on_notchTo | with_reducible apply on_ite | with_reducible apply on_ite2 | with_reducible apply on_fold | with_reducible apply on_fold2 | with_reducible rfl | exact .inl rfl | exact .inr rfl | rfl | with_reducible assumption | intro _ | (split <;> try (rename_i h; first | (have e := congrArg Prod.snd h; dsimp only at e; subst e) | (have e := rxTake_eq h; subst e)))

theorem on_notchLock {L : List ChPart} {c₀ x₀ : Channel} (k : Fin 4) (lines : List (ℤ × ℕ)) (hL : partsIn [.gnss, .asks] L = true) (hF : Channel.onlyIn L c₀ x₀) : Channel.onlyIn L c₀ (Channel.notchLock x₀ k lines) := by
  refine Channel.onlyIn_step hL hF ?_
  unfold Channel.notchLock
  try dsimp only
  repeat' first | with_reducible exact Channel.onlyIn_refl _ _ | with_reducible apply on_notchApart | with_reducible apply on_notchTake | with_reducible apply on_notchFollow | with_reducible apply on_ite | with_reducible apply on_ite2 | with_reducible rfl | exact .inl rfl | exact .inr rfl | rfl | with_reducible assumption | intro _ | (split <;> try (rename_i h; first | (have e := congrArg Prod.snd h; dsimp only at e; subst e) | (have e := rxTake_eq h; subst e)))

theorem on_notchRelease {L : List ChPart} {c₀ x₀ : Channel} (k : Fin 4) (lines : List (ℤ × ℕ)) (hL : partsIn [.gnss, .asks] L = true) (hF : Channel.onlyIn L c₀ x₀) : Channel.onlyIn L c₀ (Channel.notchRelease x₀ k lines) := by
  refine Channel.onlyIn_step hL hF ?_
  unfold Channel.notchRelease
  try dsimp only
  repeat' first | with_reducible exact Channel.onlyIn_refl _ _ | with_reducible apply on_notchApart | with_reducible apply on_notchFollow | with_reducible apply on_notchTo | with_reducible apply on_ite | with_reducible apply on_ite2 | with_reducible rfl | exact .inl rfl | exact .inr rfl | rfl | with_reducible assumption | intro _ | (split <;> try (rename_i h; first | (have e := congrArg Prod.snd h; dsimp only at e; subst e) | (have e := rxTake_eq h; subst e)))

theorem on_jniUpdate {L : List ChPart} {c₀ x₀ : Channel} (idle : Byte) (pq : ℕ) (hL : partsIn [.gnss, .asks] L = true) (hF : Channel.onlyIn L c₀ x₀) : Channel.onlyIn L c₀ (Channel.jniUpdate x₀ idle pq) := by
  refine Channel.onlyIn_step hL hF ?_
  unfold Channel.jniUpdate
  try dsimp only
  repeat' first | with_reducible exact Channel.onlyIn_refl _ _ | with_reducible apply on_setGnss | with_reducible apply on_put | with_reducible apply on_evt | with_reducible apply on_ite | with_reducible apply on_ite2 | with_reducible rfl | exact .inl rfl | exact .inr rfl | rfl | with_reducible assumption | intro _ | (split <;> try (rename_i h; first | (have e := congrArg Prod.snd h; dsimp only at e; subst e) | (have e := rxTake_eq h; subst e)))

theorem on_floorCapture {L : List ChPart} {c₀ x₀ : Channel} (hL : partsIn [.gnss] L = true) (hF : Channel.onlyIn L c₀ x₀) : Channel.onlyIn L c₀ (Channel.floorCapture x₀) := by
  refine Channel.onlyIn_step hL hF ?_
  unfold Channel.floorCapture
  try dsimp only
  repeat' first | with_reducible exact Channel.onlyIn_refl _ _ | with_reducible apply on_setGnss | with_reducible apply on_ite | with_reducible apply on_ite2 | with_reducible rfl | exact .inl rfl | exact .inr rfl | rfl | with_reducible assumption | intro _ | (split <;> try (rename_i h; first | (have e := congrArg Prod.snd h; dsimp only at e; subst e) | (have e := rxTake_eq h; subst e)))

theorem on_floorCaptureEnd {L : List ChPart} {c₀ x₀ : Channel} (idle : Byte) (hL : partsIn [.gnss] L = true) (hF : Channel.onlyIn L c₀ x₀) : Channel.onlyIn L c₀ (Channel.floorCaptureEnd x₀ idle) := by
  refine Channel.onlyIn_step hL hF ?_
  unfold Channel.floorCaptureEnd
  try dsimp only
  repeat' first | with_reducible exact Channel.onlyIn_refl _ _ | with_reducible apply on_put | with_reducible apply on_setGnss | with_reducible apply on_ite | with_reducible apply on_ite2 | with_reducible rfl | exact .inl rfl | exact .inr rfl | rfl | with_reducible assumption | intro _ | (split <;> try (rename_i h; first | (have e := congrArg Prod.snd h; dsimp only at e; subst e) | (have e := rxTake_eq h; subst e)))

theorem on_posTo {L : List ChPart} {c₀ x₀ : Channel} (m : ℕ) (hL : partsIn [.gnss, .asks] L = true) (hF : Channel.onlyIn L c₀ x₀) : Channel.onlyIn L c₀ (Channel.posTo x₀ m) := by
  refine Channel.onlyIn_step hL hF ?_
  unfold Channel.posTo
  try dsimp only
  repeat' first | with_reducible exact Channel.onlyIn_refl _ _ | with_reducible apply on_evt | with_reducible apply on_put | with_reducible apply on_ite | with_reducible apply on_ite2 | with_reducible rfl | exact .inl rfl | exact .inr rfl | rfl | with_reducible assumption | intro _ | (split <;> try (rename_i h; first | (have e := congrArg Prod.snd h; dsimp only at e; subst e) | (have e := rxTake_eq h; subst e)))

theorem on_surveyStop {L : List ChPart} {c₀ x₀ : Channel} (result : ℕ) (hL : partsIn [.gnss, .asks] L = true) (hF : Channel.onlyIn L c₀ x₀) : Channel.onlyIn L c₀ (Channel.surveyStop x₀ result) := by
  refine Channel.onlyIn_step hL hF ?_
  unfold Channel.surveyStop
  try dsimp only
  repeat' first | with_reducible exact Channel.onlyIn_refl _ _ | with_reducible apply on_ask | with_reducible apply on_evt | with_reducible apply on_setGnss | with_reducible apply on_ite | with_reducible apply on_ite2 | with_reducible rfl | exact .inl rfl | exact .inr rfl | rfl | with_reducible assumption | intro _ | (split <;> try (rename_i h; first | (have e := congrArg Prod.snd h; dsimp only at e; subst e) | (have e := rxTake_eq h; subst e)))

theorem on_posSet {L : List ChPart} {c₀ x₀ : Channel} (hL : partsIn [.gnss, .asks] L = true) (hF : Channel.onlyIn L c₀ x₀) : Channel.onlyIn L c₀ (Channel.posSet x₀) := by
  refine Channel.onlyIn_step hL hF ?_
  unfold Channel.posSet
  try dsimp only
  repeat' first | with_reducible exact Channel.onlyIn_refl _ _ | with_reducible apply on_surveyStop | with_reducible apply on_posTo | with_reducible apply on_setGnss | with_reducible apply on_ite | with_reducible apply on_ite2 | with_reducible rfl | exact .inl rfl | exact .inr rfl | rfl | with_reducible assumption | intro _ | (split <;> try (rename_i h; first | (have e := congrArg Prod.snd h; dsimp only at e; subst e) | (have e := rxTake_eq h; subst e)))

theorem on_posClr {L : List ChPart} {c₀ x₀ : Channel} (hL : partsIn [.gnss, .asks] L = true) (hF : Channel.onlyIn L c₀ x₀) : Channel.onlyIn L c₀ (Channel.posClr x₀) := by
  refine Channel.onlyIn_step hL hF ?_
  unfold Channel.posClr
  try dsimp only
  repeat' first | with_reducible exact Channel.onlyIn_refl _ _ | with_reducible apply on_surveyStop | with_reducible apply on_posTo | with_reducible apply on_setGnss | with_reducible apply on_ite | with_reducible apply on_ite2 | with_reducible rfl | exact .inl rfl | exact .inr rfl | rfl | with_reducible assumption | intro _ | (split <;> try (rename_i h; first | (have e := congrArg Prod.snd h; dsimp only at e; subst e) | (have e := rxTake_eq h; subst e)))

theorem on_surveyStart {L : List ChPart} {c₀ x₀ : Channel} (slot : ℕ) (hL : partsIn [.gnss, .asks] L = true) (hF : Channel.onlyIn L c₀ x₀) : Channel.onlyIn L c₀ (Channel.surveyStart x₀ slot) := by
  refine Channel.onlyIn_step hL hF ?_
  unfold Channel.surveyStart
  try dsimp only
  repeat' first | with_reducible exact Channel.onlyIn_refl _ _ | with_reducible apply on_posTo | with_reducible apply on_put | with_reducible apply on_setGnss | with_reducible apply on_ite | with_reducible apply on_ite2 | with_reducible rfl | exact .inl rfl | exact .inr rfl | rfl | with_reducible assumption | intro _ | (split <;> try (rename_i h; first | (have e := congrArg Prod.snd h; dsimp only at e; subst e) | (have e := rxTake_eq h; subst e)))

theorem on_surveySuspend {L : List ChPart} {c₀ x₀ : Channel} (b : Bool) (hL : partsIn [.gnss, .asks] L = true) (hF : Channel.onlyIn L c₀ x₀) : Channel.onlyIn L c₀ (Channel.surveySuspend x₀ b) := by
  refine Channel.onlyIn_step hL hF ?_
  unfold Channel.surveySuspend
  try dsimp only
  repeat' first | with_reducible exact Channel.onlyIn_refl _ _ | with_reducible apply on_posTo | with_reducible apply on_setGnss | with_reducible apply on_ite | with_reducible apply on_ite2 | with_reducible rfl | exact .inl rfl | exact .inr rfl | rfl | with_reducible assumption | intro _ | (split <;> try (rename_i h; first | (have e := congrArg Prod.snd h; dsimp only at e; subst e) | (have e := rxTake_eq h; subst e)))

theorem on_surveyCancel {L : List ChPart} {c₀ x₀ : Channel} (hL : partsIn [.gnss, .asks] L = true) (hF : Channel.onlyIn L c₀ x₀) : Channel.onlyIn L c₀ (Channel.surveyCancel x₀) := by
  refine Channel.onlyIn_step hL hF ?_
  unfold Channel.surveyCancel
  try dsimp only
  repeat' first | with_reducible exact Channel.onlyIn_refl _ _ | with_reducible apply on_posTo | with_reducible apply on_evt | with_reducible apply on_setGnss | with_reducible apply on_ite | with_reducible apply on_ite2 | with_reducible rfl | exact .inl rfl | exact .inr rfl | rfl | with_reducible assumption | intro _ | (split <;> try (rename_i h; first | (have e := congrArg Prod.snd h; dsimp only at e; subst e) | (have e := rxTake_eq h; subst e)))

theorem on_surveyFix {L : List ChPart} {c₀ x₀ : Channel} (p : ℤ × ℤ × ℤ) (hL : partsIn [.gnss, .asks] L = true) (hF : Channel.onlyIn L c₀ x₀) : Channel.onlyIn L c₀ (Channel.surveyFix x₀ p) := by
  refine Channel.onlyIn_step hL hF ?_
  unfold Channel.surveyFix
  try dsimp only
  repeat' first | with_reducible exact Channel.onlyIn_refl _ _ | with_reducible apply on_put | with_reducible apply on_setGnss | with_reducible apply on_surveyStop | with_reducible apply on_posTo | with_reducible apply on_ite | with_reducible apply on_ite2 | with_reducible rfl | exact .inl rfl | exact .inr rfl | rfl | with_reducible assumption | intro _ | (split <;> try (rename_i h; first | (have e := congrArg Prod.snd h; dsimp only at e; subst e) | (have e := rxTake_eq h; subst e)))

theorem on_epochSample {L : List ChPart} {c₀ x₀ : Channel} (ms : List SatMeas) (hL : partsIn [.gnss] L = true) (hF : Channel.onlyIn L c₀ x₀) : Channel.onlyIn L c₀ (Channel.epochSample x₀ ms) := by
  refine Channel.onlyIn_step hL hF ?_
  unfold Channel.epochSample
  try dsimp only
  repeat' first | with_reducible exact Channel.onlyIn_refl _ _ | with_reducible apply on_setGnss | with_reducible apply on_put | with_reducible apply on_ite | with_reducible apply on_ite2 | with_reducible apply on_fold | with_reducible apply on_fold2 | with_reducible rfl | exact .inl rfl | exact .inr rfl | rfl | with_reducible assumption | intro _ | (split <;> try (rename_i h; first | (have e := congrArg Prod.snd h; dsimp only at e; subst e) | (have e := rxTake_eq h; subst e)))

theorem on_epochMissed {L : List ChPart} {c₀ x₀ : Channel} (hL : partsIn [.gnss] L = true) (hF : Channel.onlyIn L c₀ x₀) : Channel.onlyIn L c₀ (Channel.epochMissed x₀) := by
  refine Channel.onlyIn_step hL hF ?_
  unfold Channel.epochMissed
  try dsimp only
  repeat' first | with_reducible exact Channel.onlyIn_refl _ _ | with_reducible apply on_setGnss | with_reducible apply on_ite | with_reducible apply on_ite2 | with_reducible rfl | exact .inl rfl | exact .inr rfl | rfl | with_reducible assumption | intro _ | (split <;> try (rename_i h; first | (have e := congrArg Prod.snd h; dsimp only at e; subst e) | (have e := rxTake_eq h; subst e)))

theorem on_l8Announce {L : List ChPart} {c₀ x₀ : Channel} (hL : partsIn [.dpll, .scale, .asks] L = true) (hF : Channel.onlyIn L c₀ x₀) : Channel.onlyIn L c₀ (Channel.l8Announce x₀) := by
  refine Channel.onlyIn_step hL hF ?_
  unfold Channel.l8Announce
  try dsimp only
  repeat' first | with_reducible exact Channel.onlyIn_refl _ _ | with_reducible apply on_utcAnnounce | with_reducible apply on_ite | with_reducible apply on_ite2 | with_reducible rfl | exact .inl rfl | exact .inr rfl | rfl | with_reducible assumption | intro _ | (split <;> try (rename_i h; first | (have e := congrArg Prod.snd h; dsimp only at e; subst e) | (have e := rxTake_eq h; subst e)))

theorem on_l8Record {L : List ChPart} {c₀ x₀ : Channel} (hL : partsIn [.ref, .dpll, .scale, .gnss, .asks] L = true) (hF : Channel.onlyIn L c₀ x₀) : Channel.onlyIn L c₀ (Channel.l8Record x₀) := by
  refine Channel.onlyIn_step hL hF ?_
  unfold Channel.l8Record
  try dsimp only
  repeat' first | with_reducible exact Channel.onlyIn_refl _ _ | with_reducible apply on_put | with_reducible apply on_evt | with_reducible apply on_setGnss | with_reducible apply on_l8Announce | with_reducible apply on_measure | with_reducible apply on_ite | with_reducible apply on_ite2 | with_reducible apply on_fold | with_reducible apply on_fold2 | with_reducible rfl | exact .inl rfl | exact .inr rfl | rfl | with_reducible assumption | intro _ | (split <;> try (rename_i h; first | (have e := congrArg Prod.snd h; dsimp only at e; subst e) | (have e := rxTake_eq h; subst e)))

theorem on_snapGo {L : List ChPart} {c₀ x₀ : Channel} (hL : partsIn [.gnss, .asks] L = true) (hF : Channel.onlyIn L c₀ x₀) : Channel.onlyIn L c₀ (Channel.snapGo x₀) := by
  refine Channel.onlyIn_step hL hF ?_
  unfold Channel.snapGo
  try dsimp only
  repeat' first | with_reducible exact Channel.onlyIn_refl _ _ | with_reducible apply on_evt | with_reducible apply on_put | with_reducible apply on_setGnss | with_reducible apply on_ite | with_reducible apply on_ite2 | with_reducible rfl | exact .inl rfl | exact .inr rfl | rfl | with_reducible assumption | intro _ | (split <;> try (rename_i h; first | (have e := congrArg Prod.snd h; dsimp only at e; subst e) | (have e := rxTake_eq h; subst e)))

theorem on_snapStart {L : List ChPart} {c₀ x₀ : Channel} (ps : ℕ) (hL : partsIn [.gnss] L = true) (hF : Channel.onlyIn L c₀ x₀) : Channel.onlyIn L c₀ (Channel.snapStart x₀ ps) := by
  refine Channel.onlyIn_step hL hF ?_
  unfold Channel.snapStart
  try dsimp only
  repeat' first | with_reducible exact Channel.onlyIn_refl _ _ | with_reducible apply on_put | with_reducible apply on_setGnss | with_reducible apply on_ite | with_reducible apply on_ite2 | with_reducible rfl | exact .inl rfl | exact .inr rfl | rfl | with_reducible assumption | intro _ | (split <;> try (rename_i h; first | (have e := congrArg Prod.snd h; dsimp only at e; subst e) | (have e := rxTake_eq h; subst e)))

theorem on_snapComplete {L : List ChPart} {c₀ x₀ : Channel} (hL : partsIn [.gnss, .asks] L = true) (hF : Channel.onlyIn L c₀ x₀) : Channel.onlyIn L c₀ (Channel.snapComplete x₀) := by
  refine Channel.onlyIn_step hL hF ?_
  unfold Channel.snapComplete
  try dsimp only
  repeat' first | with_reducible exact Channel.onlyIn_refl _ _ | with_reducible apply on_evt | with_reducible apply on_put | with_reducible apply on_setGnss | with_reducible apply on_ite | with_reducible apply on_ite2 | with_reducible rfl | exact .inl rfl | exact .inr rfl | rfl | with_reducible assumption | intro _ | (split <;> try (rename_i h; first | (have e := congrArg Prod.snd h; dsimp only at e; subst e) | (have e := rxTake_eq h; subst e)))

theorem on_snapProcess {L : List ChPart} {c₀ x₀ : Channel} (slot : ℕ) (ms : List SatMeas) (hL : partsIn [.gnss, .asks] L = true) (hF : Channel.onlyIn L c₀ x₀) : Channel.onlyIn L c₀ (Channel.snapProcess x₀ slot ms) := by
  refine Channel.onlyIn_step hL hF ?_
  unfold Channel.snapProcess
  try dsimp only
  repeat' first | with_reducible exact Channel.onlyIn_refl _ _ | with_reducible apply on_put | with_reducible apply on_ask | with_reducible apply on_evt | with_reducible apply on_setGnss | with_reducible apply on_ite | with_reducible apply on_ite2 | with_reducible rfl | exact .inl rfl | exact .inr rfl | rfl | with_reducible assumption | intro _ | (split <;> try (rename_i h; first | (have e := congrArg Prod.snd h; dsimp only at e; subst e) | (have e := rxTake_eq h; subst e)))

theorem on_gnssCommitted {L : List ChPart} {c₀ x₀ : Channel} (old : Channel) (hL : partsIn [.gnss, .asks] L = true) (hF : Channel.onlyIn L c₀ x₀) : Channel.onlyIn L c₀ (Channel.gnssCommitted old x₀) := by
  refine Channel.onlyIn_step hL hF ?_
  unfold Channel.gnssCommitted
  try dsimp only
  repeat' first | with_reducible exact Channel.onlyIn_refl _ _ | with_reducible apply on_setGnss | with_reducible apply on_linkTo | with_reducible apply on_trkIdle | with_reducible apply on_notchTo | with_reducible apply on_ite | with_reducible apply on_ite2 | with_reducible apply on_fold | with_reducible apply on_fold2 | with_reducible rfl | exact .inl rfl | exact .inr rfl | rfl | with_reducible assumption | intro _ | (split <;> try (rename_i h; first | (have e := congrArg Prod.snd h; dsimp only at e; subst e) | (have e := rxTake_eq h; subst e)))

theorem on_readReg {L : List ChPart} {c₀ x₀ : Channel} (b : KB) (off : ℕ) (hb : L.contains b.part = true) (hF : Channel.onlyIn L c₀ x₀) : Channel.onlyIn L c₀ (Channel.readReg x₀ b off).2 := by
  refine Channel.onlyIn_trans hF ?_
  unfold Channel.readReg
  try dsimp only
  repeat' first | with_reducible exact Channel.onlyIn_refl _ _ | with_reducible apply on_setRf | with_reducible apply on_ite | with_reducible apply on_ite2 | with_reducible apply on_fold | with_reducible apply on_fold2 | with_reducible rfl | exact .inl rfl | exact .inr rfl | rfl | with_reducible assumption | intro _ | (split <;> try (rename_i h; first | (have e := congrArg Prod.snd h; dsimp only at e; subst e) | (have e := rxTake_eq h; subst e)))

theorem on_trial {L : List ChPart} {c₀ x₀ : Channel} (b : KB) (sh : List (ℕ × Word)) (hb : L.contains b.part = true) (hF : Channel.onlyIn L c₀ x₀) : Channel.onlyIn L c₀ (Channel.trial x₀ b sh) := by
  refine Channel.onlyIn_trans hF ?_
  unfold Channel.trial
  try dsimp only
  repeat' first | with_reducible exact Channel.onlyIn_refl _ _ | with_reducible apply on_setRf | with_reducible apply on_ite | with_reducible apply on_ite2 | with_reducible rfl | exact .inl rfl | exact .inr rfl | rfl | with_reducible assumption | intro _ | (split <;> try (rename_i h; first | (have e := congrArg Prod.snd h; dsimp only at e; subst e) | (have e := rxTake_eq h; subst e)))

theorem on_commitNow {L : List ChPart} {c₀ x₀ : Channel} (b : KB) (ctl : ℕ) (ok : Channel → Bool) (after : Channel → Channel) (hb : L.contains b.part = true) (hafter : ∀ v0, Channel.onlyIn L v0 (after v0)) (hL : partsIn [.asks] L = true) (hF : Channel.onlyIn L c₀ x₀) : Channel.onlyIn L c₀ (Channel.commitNow x₀ b ctl ok after) := by
  refine Channel.onlyIn_trans hF ?_
  unfold Channel.commitNow
  try dsimp only
  repeat' first | with_reducible exact Channel.onlyIn_refl _ _ | with_reducible apply on_trial | with_reducible apply on_setRf | with_reducible apply on_evtMask | with_reducible apply on_ite | with_reducible apply on_ite2 | (refine Channel.onlyIn_trans ?_ (hafter _)) | with_reducible rfl | exact .inl rfl | exact .inr rfl | rfl | with_reducible assumption | exact partsIn_trans rfl hL | exact partsIn_mem rfl hL | exact .inl (partsIn_mem rfl hL) | intro _ | (split <;> try (rename_i h; first | (have e := congrArg Prod.snd h; dsimp only at e; subst e) | (have e := rxTake_eq h; subst e)))

theorem on_commitNext {L : List ChPart} {c₀ x₀ : Channel} (b : KB) (ctl : ℕ) (ok : Channel → Bool) (after : Channel → Channel) (hb : L.contains b.part = true) (hafter : ∀ v0, Channel.onlyIn L v0 (after v0)) (hL : partsIn [.asks] L = true) (hF : Channel.onlyIn L c₀ x₀) : Channel.onlyIn L c₀ (Channel.commitNext x₀ b ctl ok after) := by
  refine Channel.onlyIn_trans hF ?_
  unfold Channel.commitNext
  try dsimp only
  repeat' first | with_reducible exact Channel.onlyIn_refl _ _ | with_reducible apply on_trial | with_reducible apply on_setRf | with_reducible apply on_evtMask | with_reducible apply on_ite | with_reducible apply on_ite2 | (refine Channel.onlyIn_trans ?_ (hafter _)) | with_reducible rfl | exact .inl rfl | exact .inr rfl | rfl | with_reducible assumption | exact partsIn_trans rfl hL | exact partsIn_mem rfl hL | exact .inl (partsIn_mem rfl hL) | intro _ | (split <;> try (rename_i h; first | (have e := congrArg Prod.snd h; dsimp only at e; subst e) | (have e := rxTake_eq h; subst e)))

theorem on_commitPort {L : List ChPart} {c₀ x₀ : Channel} (hL : partsIn [.port, .pmu, .free, .asks] L = true) (hF : Channel.onlyIn L c₀ x₀) : Channel.onlyIn L c₀ (Channel.commitPort x₀) := by
  refine Channel.onlyIn_step hL hF ?_
  unfold Channel.commitPort
  try dsimp only
  repeat' first | with_reducible exact Channel.onlyIn_refl _ _ | with_reducible apply on_trial | with_reducible apply on_evt | with_reducible apply on_setRf | with_reducible apply on_portCommitted | with_reducible apply on_ite | with_reducible apply on_ite2 | with_reducible apply on_fold | with_reducible apply on_fold2 | with_reducible rfl | exact .inl rfl | exact .inr rfl | rfl | with_reducible assumption | intro _ | (split <;> try (rename_i h; first | (have e := congrArg Prod.snd h; dsimp only at e; subst e) | (have e := rxTake_eq h; subst e)))

theorem on_commitSyn {L : List ChPart} {c₀ x₀ : Channel} (hL : partsIn [.syn, .asks] L = true) (hF : Channel.onlyIn L c₀ x₀) : Channel.onlyIn L c₀ (Channel.commitSyn x₀) := by
  refine Channel.onlyIn_step hL hF ?_
  unfold Channel.commitSyn
  try dsimp only
  repeat' first | with_reducible exact Channel.onlyIn_refl _ _ | with_reducible apply on_synCommit | with_reducible apply on_trial | with_reducible apply on_setRf | with_reducible apply on_ite | with_reducible apply on_ite2 | with_reducible rfl | exact .inl rfl | exact .inr rfl | rfl | with_reducible assumption | intro _ | (split <;> try (rename_i h; first | (have e := congrArg Prod.snd h; dsimp only at e; subst e) | (have e := rxTake_eq h; subst e)))

theorem on_commit_ref {L : List ChPart} {c₀ x₀ : Channel} (hL : partsIn [.ref, .dpll, .jour, .asks] L = true) (hF : Channel.onlyIn L c₀ x₀) : Channel.onlyIn L c₀ (Channel.commit x₀ .ref) := by
  refine Channel.onlyIn_step hL hF ?_
  unfold Channel.commit
  dsimp only
  repeat' first | with_reducible exact Channel.onlyIn_refl _ _ | exact Channel.onlyIn_refl _ _ | with_reducible apply on_commitNow | with_reducible apply on_commitNext | with_reducible apply on_commitSyn | with_reducible apply on_commitPort | with_reducible apply on_dropDisabled | with_reducible apply on_gnssCommitted | with_reducible apply on_settleAll | with_reducible apply on_benchCommitted | rfl | intro _

theorem on_commit_dpll {L : List ChPart} {c₀ x₀ : Channel} (hL : partsIn [.dpll, .scale, .jour, .asks] L = true) (hF : Channel.onlyIn L c₀ x₀) : Channel.onlyIn L c₀ (Channel.commit x₀ .dpll) := by
  refine Channel.onlyIn_step hL hF ?_
  unfold Channel.commit
  dsimp only
  repeat' first | with_reducible exact Channel.onlyIn_refl _ _ | exact Channel.onlyIn_refl _ _ | with_reducible apply on_commitNow | with_reducible apply on_commitNext | with_reducible apply on_commitSyn | with_reducible apply on_commitPort | with_reducible apply on_dropDisabled | with_reducible apply on_gnssCommitted | with_reducible apply on_settleAll | with_reducible apply on_benchCommitted | rfl | intro _

theorem on_commit_syn {L : List ChPart} {c₀ x₀ : Channel} (hL : partsIn [.jour, .syn, .asks] L = true) (hF : Channel.onlyIn L c₀ x₀) : Channel.onlyIn L c₀ (Channel.commit x₀ .syn) := by
  refine Channel.onlyIn_step hL hF ?_
  unfold Channel.commit
  dsimp only
  repeat' first | with_reducible exact Channel.onlyIn_refl _ _ | exact Channel.onlyIn_refl _ _ | with_reducible apply on_commitNow | with_reducible apply on_commitNext | with_reducible apply on_commitSyn | with_reducible apply on_commitPort | with_reducible apply on_dropDisabled | with_reducible apply on_gnssCommitted | with_reducible apply on_settleAll | with_reducible apply on_benchCommitted | rfl | intro _

theorem on_commit_gnss {L : List ChPart} {c₀ x₀ : Channel} (hL : partsIn [.ref, .jour, .gnss, .asks] L = true) (hF : Channel.onlyIn L c₀ x₀) : Channel.onlyIn L c₀ (Channel.commit x₀ .gnss) := by
  refine Channel.onlyIn_step hL hF ?_
  unfold Channel.commit
  dsimp only
  repeat' first | with_reducible exact Channel.onlyIn_refl _ _ | exact Channel.onlyIn_refl _ _ | with_reducible apply on_commitNow | with_reducible apply on_commitNext | with_reducible apply on_commitSyn | with_reducible apply on_commitPort | with_reducible apply on_dropDisabled | with_reducible apply on_gnssCommitted | with_reducible apply on_settleAll | with_reducible apply on_benchCommitted | rfl | intro _

theorem on_commit_port {L : List ChPart} {c₀ x₀ : Channel} (hL : partsIn [.ref, .port, .pmu, .free, .asks] L = true) (hF : Channel.onlyIn L c₀ x₀) : Channel.onlyIn L c₀ (Channel.commit x₀ .port) := by
  refine Channel.onlyIn_step hL hF ?_
  unfold Channel.commit
  dsimp only
  repeat' first | with_reducible exact Channel.onlyIn_refl _ _ | exact Channel.onlyIn_refl _ _ | with_reducible apply on_commitNow | with_reducible apply on_commitNext | with_reducible apply on_commitSyn | with_reducible apply on_commitPort | with_reducible apply on_dropDisabled | with_reducible apply on_gnssCommitted | with_reducible apply on_settleAll | with_reducible apply on_benchCommitted | rfl | intro _

theorem on_commit_sched {L : List ChPart} {c₀ x₀ : Channel} (hL : partsIn [.sched, .asks] L = true) (hF : Channel.onlyIn L c₀ x₀) : Channel.onlyIn L c₀ (Channel.commit x₀ .sched) := by
  refine Channel.onlyIn_step hL hF ?_
  unfold Channel.commit
  dsimp only
  repeat' first | with_reducible exact Channel.onlyIn_refl _ _ | exact Channel.onlyIn_refl _ _ | with_reducible apply on_commitNow | with_reducible apply on_commitNext | with_reducible apply on_commitSyn | with_reducible apply on_commitPort | with_reducible apply on_dropDisabled | with_reducible apply on_gnssCommitted | with_reducible apply on_settleAll | with_reducible apply on_benchCommitted | rfl | intro _

theorem on_commit_sealb {L : List ChPart} {c₀ x₀ : Channel} (hL : partsIn [.sealb, .asks] L = true) (hF : Channel.onlyIn L c₀ x₀) : Channel.onlyIn L c₀ (Channel.commit x₀ .sealb) := by
  refine Channel.onlyIn_step hL hF ?_
  unfold Channel.commit
  dsimp only
  repeat' first | with_reducible exact Channel.onlyIn_refl _ _ | exact Channel.onlyIn_refl _ _ | with_reducible apply on_commitNow | with_reducible apply on_commitNext | with_reducible apply on_commitSyn | with_reducible apply on_commitPort | with_reducible apply on_dropDisabled | with_reducible apply on_gnssCommitted | with_reducible apply on_settleAll | with_reducible apply on_benchCommitted | rfl | intro _

theorem on_commit_pmu {L : List ChPart} {c₀ x₀ : Channel} (hL : partsIn [.pmu, .asks] L = true) (hF : Channel.onlyIn L c₀ x₀) : Channel.onlyIn L c₀ (Channel.commit x₀ .pmu) := by
  refine Channel.onlyIn_step hL hF ?_
  unfold Channel.commit
  dsimp only
  repeat' first | with_reducible exact Channel.onlyIn_refl _ _ | exact Channel.onlyIn_refl _ _ | with_reducible apply on_commitNow | with_reducible apply on_commitNext | with_reducible apply on_commitSyn | with_reducible apply on_commitPort | with_reducible apply on_dropDisabled | with_reducible apply on_gnssCommitted | with_reducible apply on_settleAll | with_reducible apply on_benchCommitted | rfl | intro _

theorem on_commit_chctl {L : List ChPart} {c₀ x₀ : Channel} (hL : partsIn [.ref, .bench, .asks] L = true) (hF : Channel.onlyIn L c₀ x₀) : Channel.onlyIn L c₀ (Channel.commit x₀ .chctl) := by
  refine Channel.onlyIn_step hL hF ?_
  unfold Channel.commit
  dsimp only
  repeat' first | with_reducible exact Channel.onlyIn_refl _ _ | exact Channel.onlyIn_refl _ _ | with_reducible apply on_commitNow | with_reducible apply on_commitNext | with_reducible apply on_commitSyn | with_reducible apply on_commitPort | with_reducible apply on_dropDisabled | with_reducible apply on_gnssCommitted | with_reducible apply on_settleAll | with_reducible apply on_benchCommitted | rfl | intro _

theorem on_laneCmd {L : List ChPart} {c₀ x₀ : Channel} (n : LaneIx) (v : Word) (hL : partsIn [.ref, .jour, .asks] L = true) (hF : Channel.onlyIn L c₀ x₀) : Channel.onlyIn L c₀ (Channel.laneCmd x₀ n v).2 := by
  refine Channel.onlyIn_step hL hF ?_
  unfold Channel.laneCmd
  try dsimp only
  repeat' first | with_reducible exact Channel.onlyIn_refl _ _ | with_reducible apply on_force | with_reducible apply on_unforce | with_reducible apply on_requal | with_reducible apply on_updLane | with_reducible apply on_ite | with_reducible apply on_ite2 | with_reducible rfl | exact .inl rfl | exact .inr rfl | rfl | with_reducible assumption | intro _ | (split <;> try (rename_i h; first | (have e := congrArg Prod.snd h; dsimp only at e; subst e) | (have e := rxTake_eq h; subst e)))

theorem on_selCmd {L : List ChPart} {c₀ x₀ : Channel} (v : Word) (hL : partsIn [.ref, .dpll, .jour, .asks] L = true) (hF : Channel.onlyIn L c₀ x₀) : Channel.onlyIn L c₀ (Channel.selCmd x₀ v).2 := by
  refine Channel.onlyIn_step hL hF ?_
  unfold Channel.selCmd
  try dsimp only
  repeat' first | with_reducible exact Channel.onlyIn_refl _ _ | with_reducible apply on_approveSwitch | with_reducible apply on_denySwitch | with_reducible apply on_ite | with_reducible apply on_ite2 | with_reducible rfl | exact .inl rfl | exact .inr rfl | rfl | with_reducible assumption | intro _ | (split <;> try (rename_i h; first | (have e := congrArg Prod.snd h; dsimp only at e; subst e) | (have e := rxTake_eq h; subst e)))

theorem on_stepCmd {L : List ChPart} {c₀ x₀ : Channel} (org : Origin) (v : Word) (hL : partsIn [.dpll, .asks] L = true) (hF : Channel.onlyIn L c₀ x₀) : Channel.onlyIn L c₀ (Channel.stepCmd x₀ org v).2 := by
  refine Channel.onlyIn_step hL hF ?_
  unfold Channel.stepCmd
  try dsimp only
  repeat' first | with_reducible exact Channel.onlyIn_refl _ _ | with_reducible apply on_stepAbort | with_reducible apply on_stepGo | with_reducible apply on_ite | with_reducible apply on_ite2 | with_reducible rfl | exact .inl rfl | exact .inr rfl | rfl | with_reducible assumption | intro _ | (split <;> try (rename_i h; first | (have e := congrArg Prod.snd h; dsimp only at e; subst e) | (have e := rxTake_eq h; subst e)))

/-- The parts that a write of a block's register may change. -/
def KB.reach : KB → List ChPart
  | .ref => [.ref, .dpll, .jour, .asks]
  | .dpll => [.dpll, .scale, .jour, .asks]
  | .syn => [.jour, .syn, .asks]
  | .gnss => [.ref, .jour, .gnss, .asks]
  | .port => [.ref, .port, .pmu, .free, .asks]
  | .sched => [.sched, .asks]
  | .sealb => [.sealb, .asks]
  | .pmu => [.pmu, .asks]
  | .chctl => [.ref, .bench, .asks]

theorem on_action_ref {x₀ : Channel} (wr : Writer) (off : ℕ) (v : Word) : Channel.onlyIn [.ref, .dpll, .jour, .asks] x₀ (Channel.action x₀ wr .ref off v).2 := by
  unfold Channel.action
  dsimp only
  repeat' first | with_reducible exact Channel.onlyIn_refl _ _ | (simp only [Channel.commit]; done) | with_reducible apply on_ite2 | with_reducible apply on_ite | with_reducible apply on_commit_ref | with_reducible apply on_selCmd | with_reducible apply on_laneCmd | with_reducible apply on_stepCmd | with_reducible apply on_leapLoWrite | with_reducible apply on_leapHiWrite | with_reducible apply on_leapEntWrite | with_reducible apply on_raGo | with_reducible apply on_bcGo | with_reducible apply on_posSet | with_reducible apply on_posClr | with_reducible apply on_floorCapture | with_reducible apply on_snapGo | with_reducible apply on_updLane | with_reducible apply on_polCmd | with_reducible apply on_gateSwap | with_reducible apply on_gateCancel | with_reducible apply on_revoke | with_reducible apply on_tdSnap | with_reducible apply on_bwRestart | with_reducible apply on_pkClr | (show partsIn _ _ = true; rfl) | split

theorem on_action_dpll {x₀ : Channel} (wr : Writer) (off : ℕ) (v : Word) : Channel.onlyIn [.dpll, .scale, .jour, .asks] x₀ (Channel.action x₀ wr .dpll off v).2 := by
  unfold Channel.action
  dsimp only
  repeat' first | with_reducible exact Channel.onlyIn_refl _ _ | (simp only [Channel.commit]; done) | with_reducible apply on_ite2 | with_reducible apply on_ite | with_reducible apply on_commit_dpll | with_reducible apply on_selCmd | with_reducible apply on_laneCmd | with_reducible apply on_stepCmd | with_reducible apply on_leapLoWrite | with_reducible apply on_leapHiWrite | with_reducible apply on_leapEntWrite | with_reducible apply on_raGo | with_reducible apply on_bcGo | with_reducible apply on_posSet | with_reducible apply on_posClr | with_reducible apply on_floorCapture | with_reducible apply on_snapGo | with_reducible apply on_updLane | with_reducible apply on_polCmd | with_reducible apply on_gateSwap | with_reducible apply on_gateCancel | with_reducible apply on_revoke | with_reducible apply on_tdSnap | with_reducible apply on_bwRestart | with_reducible apply on_pkClr | (show partsIn _ _ = true; rfl) | split

theorem on_action_syn {x₀ : Channel} (wr : Writer) (off : ℕ) (v : Word) : Channel.onlyIn [.jour, .syn, .asks] x₀ (Channel.action x₀ wr .syn off v).2 := by
  unfold Channel.action
  dsimp only
  repeat' first | with_reducible exact Channel.onlyIn_refl _ _ | (simp only [Channel.commit]; done) | with_reducible apply on_ite2 | with_reducible apply on_ite | with_reducible apply on_commit_syn | with_reducible apply on_selCmd | with_reducible apply on_laneCmd | with_reducible apply on_stepCmd | with_reducible apply on_leapLoWrite | with_reducible apply on_leapHiWrite | with_reducible apply on_leapEntWrite | with_reducible apply on_raGo | with_reducible apply on_bcGo | with_reducible apply on_posSet | with_reducible apply on_posClr | with_reducible apply on_floorCapture | with_reducible apply on_snapGo | with_reducible apply on_updLane | with_reducible apply on_polCmd | with_reducible apply on_gateSwap | with_reducible apply on_gateCancel | with_reducible apply on_revoke | with_reducible apply on_tdSnap | with_reducible apply on_bwRestart | with_reducible apply on_pkClr | (show partsIn _ _ = true; rfl) | split

theorem on_action_gnss {x₀ : Channel} (wr : Writer) (off : ℕ) (v : Word) : Channel.onlyIn [.ref, .jour, .gnss, .asks] x₀ (Channel.action x₀ wr .gnss off v).2 := by
  unfold Channel.action
  dsimp only
  repeat' first | with_reducible exact Channel.onlyIn_refl _ _ | (simp only [Channel.commit]; done) | with_reducible apply on_ite2 | with_reducible apply on_ite | with_reducible apply on_commit_gnss | with_reducible apply on_selCmd | with_reducible apply on_laneCmd | with_reducible apply on_stepCmd | with_reducible apply on_leapLoWrite | with_reducible apply on_leapHiWrite | with_reducible apply on_leapEntWrite | with_reducible apply on_raGo | with_reducible apply on_bcGo | with_reducible apply on_posSet | with_reducible apply on_posClr | with_reducible apply on_floorCapture | with_reducible apply on_snapGo | with_reducible apply on_updLane | with_reducible apply on_polCmd | with_reducible apply on_gateSwap | with_reducible apply on_gateCancel | with_reducible apply on_revoke | with_reducible apply on_tdSnap | with_reducible apply on_bwRestart | with_reducible apply on_pkClr | (show partsIn _ _ = true; rfl) | split

theorem on_action_port {x₀ : Channel} (wr : Writer) (off : ℕ) (v : Word) : Channel.onlyIn [.ref, .port, .pmu, .free, .asks] x₀ (Channel.action x₀ wr .port off v).2 := by
  unfold Channel.action
  dsimp only
  repeat' first | with_reducible exact Channel.onlyIn_refl _ _ | (simp only [Channel.commit]; done) | with_reducible apply on_ite2 | with_reducible apply on_ite | with_reducible apply on_commit_port | with_reducible apply on_selCmd | with_reducible apply on_laneCmd | with_reducible apply on_stepCmd | with_reducible apply on_leapLoWrite | with_reducible apply on_leapHiWrite | with_reducible apply on_leapEntWrite | with_reducible apply on_raGo | with_reducible apply on_bcGo | with_reducible apply on_posSet | with_reducible apply on_posClr | with_reducible apply on_floorCapture | with_reducible apply on_snapGo | with_reducible apply on_updLane | with_reducible apply on_polCmd | with_reducible apply on_gateSwap | with_reducible apply on_gateCancel | with_reducible apply on_revoke | with_reducible apply on_tdSnap | with_reducible apply on_bwRestart | with_reducible apply on_pkClr | (show partsIn _ _ = true; rfl) | split

theorem on_action_sched {x₀ : Channel} (wr : Writer) (off : ℕ) (v : Word) : Channel.onlyIn [.sched, .asks] x₀ (Channel.action x₀ wr .sched off v).2 := by
  unfold Channel.action
  dsimp only
  repeat' first | with_reducible exact Channel.onlyIn_refl _ _ | (simp only [Channel.commit]; done) | with_reducible apply on_ite2 | with_reducible apply on_ite | with_reducible apply on_commit_sched | with_reducible apply on_selCmd | with_reducible apply on_laneCmd | with_reducible apply on_stepCmd | with_reducible apply on_leapLoWrite | with_reducible apply on_leapHiWrite | with_reducible apply on_leapEntWrite | with_reducible apply on_raGo | with_reducible apply on_bcGo | with_reducible apply on_posSet | with_reducible apply on_posClr | with_reducible apply on_floorCapture | with_reducible apply on_snapGo | with_reducible apply on_updLane | with_reducible apply on_polCmd | with_reducible apply on_gateSwap | with_reducible apply on_gateCancel | with_reducible apply on_revoke | with_reducible apply on_tdSnap | with_reducible apply on_bwRestart | with_reducible apply on_pkClr | (show partsIn _ _ = true; rfl) | split

theorem on_action_sealb {x₀ : Channel} (wr : Writer) (off : ℕ) (v : Word) : Channel.onlyIn [.sealb, .asks] x₀ (Channel.action x₀ wr .sealb off v).2 := by
  unfold Channel.action
  dsimp only
  repeat' first | with_reducible exact Channel.onlyIn_refl _ _ | (simp only [Channel.commit]; done) | with_reducible apply on_ite2 | with_reducible apply on_ite | with_reducible apply on_commit_sealb | with_reducible apply on_selCmd | with_reducible apply on_laneCmd | with_reducible apply on_stepCmd | with_reducible apply on_leapLoWrite | with_reducible apply on_leapHiWrite | with_reducible apply on_leapEntWrite | with_reducible apply on_raGo | with_reducible apply on_bcGo | with_reducible apply on_posSet | with_reducible apply on_posClr | with_reducible apply on_floorCapture | with_reducible apply on_snapGo | with_reducible apply on_updLane | with_reducible apply on_polCmd | with_reducible apply on_gateSwap | with_reducible apply on_gateCancel | with_reducible apply on_revoke | with_reducible apply on_tdSnap | with_reducible apply on_bwRestart | with_reducible apply on_pkClr | (show partsIn _ _ = true; rfl) | split

theorem on_action_pmu {x₀ : Channel} (wr : Writer) (off : ℕ) (v : Word) : Channel.onlyIn [.pmu, .asks] x₀ (Channel.action x₀ wr .pmu off v).2 := by
  unfold Channel.action
  dsimp only
  repeat' first | with_reducible exact Channel.onlyIn_refl _ _ | (simp only [Channel.commit]; done) | with_reducible apply on_ite2 | with_reducible apply on_ite | with_reducible apply on_commit_pmu | with_reducible apply on_selCmd | with_reducible apply on_laneCmd | with_reducible apply on_stepCmd | with_reducible apply on_leapLoWrite | with_reducible apply on_leapHiWrite | with_reducible apply on_leapEntWrite | with_reducible apply on_raGo | with_reducible apply on_bcGo | with_reducible apply on_posSet | with_reducible apply on_posClr | with_reducible apply on_floorCapture | with_reducible apply on_snapGo | with_reducible apply on_updLane | with_reducible apply on_polCmd | with_reducible apply on_gateSwap | with_reducible apply on_gateCancel | with_reducible apply on_revoke | with_reducible apply on_tdSnap | with_reducible apply on_bwRestart | with_reducible apply on_pkClr | (show partsIn _ _ = true; rfl) | split

theorem on_action_chctl {x₀ : Channel} (wr : Writer) (off : ℕ) (v : Word) : Channel.onlyIn [.ref, .bench, .asks] x₀ (Channel.action x₀ wr .chctl off v).2 := by
  unfold Channel.action
  dsimp only
  repeat' first | with_reducible exact Channel.onlyIn_refl _ _ | (simp only [Channel.commit]; done) | with_reducible apply on_ite2 | with_reducible apply on_ite | with_reducible apply on_commit_chctl | with_reducible apply on_selCmd | with_reducible apply on_laneCmd | with_reducible apply on_stepCmd | with_reducible apply on_leapLoWrite | with_reducible apply on_leapHiWrite | with_reducible apply on_leapEntWrite | with_reducible apply on_raGo | with_reducible apply on_bcGo | with_reducible apply on_posSet | with_reducible apply on_posClr | with_reducible apply on_floorCapture | with_reducible apply on_snapGo | with_reducible apply on_updLane | with_reducible apply on_polCmd | with_reducible apply on_gateSwap | with_reducible apply on_gateCancel | with_reducible apply on_revoke | with_reducible apply on_tdSnap | with_reducible apply on_bwRestart | with_reducible apply on_pkClr | (show partsIn _ _ = true; rfl) | split

theorem on_action {L : List ChPart} {c₀ x₀ : Channel} (wr : Writer) (b : KB) (off : ℕ) (v : Word) (hL : partsIn b.reach L = true) (hF : Channel.onlyIn L c₀ x₀) : Channel.onlyIn L c₀ (Channel.action x₀ wr b off v).2 := by
  refine Channel.onlyIn_step hL hF ?_
  cases b
  · exact on_action_ref wr off v
  · exact on_action_dpll wr off v
  · exact on_action_syn wr off v
  · exact on_action_gnss wr off v
  · exact on_action_port wr off v
  · exact on_action_sched wr off v
  · exact on_action_sealb wr off v
  · exact on_action_pmu wr off v
  · exact on_action_chctl wr off v

theorem on_storeWord {L : List ChPart} {c₀ x₀ : Channel} (wr : Writer) (b : KB) (off : ℕ) (v : Word) (hb : L.contains b.part = true) (hF : Channel.onlyIn L c₀ x₀) : Channel.onlyIn L c₀ (Channel.storeWord x₀ wr b off v) := by
  refine Channel.onlyIn_trans hF ?_
  unfold Channel.storeWord
  try dsimp only
  repeat' first | with_reducible exact Channel.onlyIn_refl _ _ | with_reducible apply on_setRf | with_reducible apply on_ite | with_reducible apply on_ite2 | with_reducible rfl | exact .inl rfl | exact .inr rfl | rfl | with_reducible assumption | intro _ | (split <;> try (rename_i h; first | (have e := congrArg Prod.snd h; dsimp only at e; subst e) | (have e := rxTake_eq h; subst e)))

theorem on_writeReg {L : List ChPart} {c₀ x₀ : Channel} (wr : Writer) (b : KB) (off : ℕ) (v : Word) (hL : partsIn b.reach L = true) (hF : Channel.onlyIn L c₀ x₀) : Channel.onlyIn L c₀ (Channel.writeReg x₀ wr b off v).2 := by
  have hb : L.contains b.part = true := partsIn_mem (by cases b <;> rfl) hL
  have hj : (b == .ref || b == .dpll) = true → partsIn [.jour, .asks] L = true := fun h => partsIn_trans (b := b.reach) (by cases b <;> first | rfl | cases h) hL
  refine Channel.onlyIn_trans hF ?_
  unfold Channel.writeReg
  split
  · exact Channel.onlyIn_refl _ _
  refine on_ite2 (Channel.onlyIn_refl _ _) ?_
  dsimp only
  refine on_action _ _ _ _ hL (on_ite_of (fun h => on_journal _ (hj (by simp only [Bool.and_eq_true] at h; exact h.1.2)) ?_) ?_)
  all_goals repeat' first | with_reducible exact Channel.onlyIn_refl _ _ | with_reducible apply on_storeWord | with_reducible apply on_setRf | with_reducible apply on_ite | with_reducible apply on_fold | exact hb | intro _ | split

theorem on_hostWrite {L : List ChPart} {c₀ x₀ : Channel} (org : Origin) (b : KB) (off : ℕ) (v : Word) (hL : partsIn b.reach L = true) (ha : partsIn [.asks] L = true) (hF : Channel.onlyIn L c₀ x₀) : Channel.onlyIn L c₀ (Channel.hostWrite x₀ org b off v) := by
  refine Channel.onlyIn_trans hF ?_
  unfold Channel.hostWrite
  exact on_ite (on_ask _ ha (on_writeReg _ _ _ _ hL (Channel.onlyIn_refl _ _))) (on_writeReg _ _ _ _ hL (Channel.onlyIn_refl _ _))

theorem on_keepWord {L : List ChPart} {c₀ x₀ : Channel} (old : Channel) (b : KB) (off : ℕ) (hb : L.contains b.part = true) (hF : Channel.onlyIn L c₀ x₀) : Channel.onlyIn L c₀ (Channel.keepWord old b x₀ off) := by
  refine Channel.onlyIn_trans hF ?_
  unfold Channel.keepWord
  try dsimp only
  repeat' first | with_reducible exact Channel.onlyIn_refl _ _ | with_reducible apply on_setRf | with_reducible apply on_ite | with_reducible apply on_ite2 | with_reducible rfl | exact .inl rfl | exact .inr rfl | rfl | with_reducible assumption | intro _ | (split <;> try (rename_i h; first | (have e := congrArg Prod.snd h; dsimp only at e; subst e) | (have e := rxTake_eq h; subst e)))

theorem on_applyRec {L : List ChPart} {c₀ x₀ : Channel} (carry : Bool) (b : KB) (r : Bytes) (hL : partsIn b.reach L = true) (hF : Channel.onlyIn L c₀ x₀) : Channel.onlyIn L c₀ (Channel.applyRec carry b x₀ r) := by
  refine Channel.onlyIn_trans hF ?_
  unfold Channel.applyRec
  exact on_ite (Channel.onlyIn_refl _ _) (on_writeReg _ _ _ _ hL (Channel.onlyIn_refl _ _))

theorem on_applyGates {L : List ChPart} {c₀ x₀ : Channel} (g : Bytes × List Bytes) (hL : partsIn [.sched] L = true) (hF : Channel.onlyIn L c₀ x₀) : Channel.onlyIn L c₀ (Channel.applyGates x₀ g) := by
  refine Channel.onlyIn_step hL hF ?_
  unfold Channel.applyGates
  try dsimp only
  repeat' first | with_reducible exact Channel.onlyIn_refl _ _ | with_reducible apply on_setWord | with_reducible apply on_put | with_reducible apply on_putGt | with_reducible apply on_ite | with_reducible apply on_ite2 | with_reducible apply on_fold | with_reducible apply on_fold2 | with_reducible rfl | exact .inl rfl | exact .inr rfl | rfl | with_reducible assumption | intro _ | (split <;> try (rename_i h; first | (have e := congrArg Prod.snd h; dsimp only at e; subst e) | (have e := rxTake_eq h; subst e)))

theorem on_recount {L : List ChPart} {c₀ x₀ : Channel} (hL : partsIn [.sealb] L = true) (hF : Channel.onlyIn L c₀ x₀) : Channel.onlyIn L c₀ (State.recount x₀) := by
  refine Channel.onlyIn_step hL hF ?_
  unfold State.recount
  try dsimp only
  repeat' first | with_reducible exact Channel.onlyIn_refl _ _ | with_reducible apply on_put | with_reducible apply on_ite | with_reducible apply on_ite2 | with_reducible rfl | exact .inl rfl | exact .inr rfl | rfl | with_reducible assumption | intro _ | (split <;> try (rename_i h; first | (have e := congrArg Prod.snd h; dsimp only at e; subst e) | (have e := rxTake_eq h; subst e)))

theorem on_tickPart {L : List ChPart} {c₀ x₀ : Channel} (a1 : ℕ) (hL : partsIn [.ref, .dpll, .jour, .syn, .asks] L = true) (hF : Channel.onlyIn L c₀ x₀) : Channel.onlyIn L c₀ (Channel.tickPart x₀ a1) := by
  refine Channel.onlyIn_step hL hF ?_
  unfold Channel.tickPart
  try dsimp only
  repeat' first | with_reducible exact Channel.onlyIn_refl _ _ | with_reducible apply on_stepDue | with_reducible apply on_dqExpiry | with_reducible apply on_wtrExpiry | with_reducible apply on_windowExpiry | with_reducible apply on_missExpiry | with_reducible apply on_applyAll | with_reducible apply on_stepAbs | with_reducible apply on_charSample | with_reducible apply on_hoAging | with_reducible apply on_limitEntry | with_reducible apply on_holdoverEntry | with_reducible apply on_acquireStart | with_reducible apply on_ite | with_reducible apply on_ite2 | with_reducible apply on_fold | with_reducible apply on_fold2 | with_reducible rfl | exact .inl rfl | exact .inr rfl | rfl | with_reducible assumption | intro _ | (split <;> try (rename_i h; first | (have e := congrArg Prod.snd h; dsimp only at e; subst e) | (have e := rxTake_eq h; subst e)))

theorem on_endService {L : List ChPart} {c₀ x₀ : Channel} (hL : partsIn [.sched, .port, .sealb, .pmu, .free, .asks] L = true) (hF : Channel.onlyIn L c₀ x₀) : Channel.onlyIn L c₀ (Channel.endService x₀) := by
  refine Channel.onlyIn_step hL hF ?_
  unfold Channel.endService
  try dsimp only
  repeat' first | with_reducible exact Channel.onlyIn_refl _ _ | with_reducible apply on_gatesNext | with_reducible apply on_flushLost | with_reducible apply on_setSeal | with_reducible apply on_ite | with_reducible apply on_ite2 | with_reducible rfl | exact .inl rfl | exact .inr rfl | rfl | with_reducible assumption | intro _ | (split <;> try (rename_i h; first | (have e := congrArg Prod.snd h; dsimp only at e; subst e) | (have e := rxTake_eq h; subst e)))

theorem on_askKeys {L : List ChPart} {c₀ x₀ : Channel} (old : Channel) (hL : partsIn [.asks] L = true) (hF : Channel.onlyIn L c₀ x₀) : Channel.onlyIn L c₀ (Channel.askKeys old x₀) := by
  refine Channel.onlyIn_step hL hF ?_
  unfold Channel.askKeys
  try dsimp only
  repeat' first | with_reducible exact Channel.onlyIn_refl _ _ | with_reducible apply on_ask | with_reducible apply on_ite | with_reducible apply on_ite2 | with_reducible rfl | exact .inl rfl | exact .inr rfl | rfl | with_reducible assumption | intro _ | (split <;> try (rename_i h; first | (have e := congrArg Prod.snd h; dsimp only at e; subst e) | (have e := rxTake_eq h; subst e)))

end Sys2Proof.Machine
end

