-- ==== Sys2Proof/Laws/Lanes.lean ====
section
/-! SUPPORT. What the evaluation of ranks and of the selector (steps 5 and 6 of R81) leaves of every lane: all but its place between
QUALIFIED and CONTESTED and its OUTLIER flags. -/
namespace Sys2Proof.Machine

/-- States between which rank evaluation moves a lane. -/
def ranked (t : LaneSt) : Prop := t = .qualified ∨ t = .contested

/-- A lane as rank evaluation leaves it. -/
structure LaneKept (l m : Lane) : Prop where
  rest : { m with st := l.st, outA := l.outA, outB := l.outB, outCntA := l.outCntA, outCntB := l.outCntB } = l
  low : ranked l.st → ranked m.st
  keep : ¬ ranked l.st → m.st = l.st

theorem LaneKept.refl (l : Lane) : LaneKept l l := ⟨rfl, id, fun _ => rfl⟩

theorem LaneKept.trans {a b c : Lane} (h : LaneKept a b) (g : LaneKept b c) : LaneKept a c := by
  refine ⟨?_, fun x => g.low (h.low x), fun x => ?_⟩
  · have h1 := h.rest
    have g1 := g.rest
    rw [← h1, ← g1]
  · have e := h.keep x
    rw [g.keep (by rw [e]; exact x), e]

/-- A channel as rank evaluation and selection leave it. -/
structure Ranked (c d : Channel) : Prop where
  lanes : ∀ n : LaneIx, LaneKept (c.lane n) (d.lane n)
  use : (d.rf .ref).use = (c.rf .ref).use
  next : (d.rf .ref).next = (c.rf .ref).next
  dpll : { d.dpll with cwEnd := 0 } = { c.dpll with cwEnd := 0 }
  scale : d.scale = c.scale
  tick : d.jour.tick = c.jour.tick
  jseq : c.jour.jseq ≤ d.jour.jseq
  effs : ∃ es, d.effs = c.effs ++ es

theorem Ranked.refl (c : Channel) : Ranked c c := ⟨fun _ => .refl _, rfl, rfl, rfl, rfl, rfl, le_refl _, [], by simp⟩

theorem Ranked.trans {a b c : Channel} (h : Ranked a b) (g : Ranked b c) : Ranked a c :=
  ⟨fun n => (h.lanes n).trans (g.lanes n), g.use.trans h.use, g.next.trans h.next, g.dpll.trans h.dpll, g.scale.trans h.scale, g.tick.trans h.tick,
   h.jseq.trans g.jseq, by
    obtain ⟨x, hx⟩ := h.effs
    obtain ⟨y, hy⟩ := g.effs
    exact ⟨x ++ y, by rw [hy, hx, List.append_assoc]⟩⟩

theorem Ranked.ite {c a b : Channel} {p : Prop} [Decidable p] (ha : Ranked c a) (hb : Ranked c b) : Ranked c (if p then a else b) := by
  split <;> assumption

theorem Ranked.fold {α : Type} {c x : Channel} {g : Channel → α → Channel} {l : List α} (h : Ranked c x) (hg : ∀ y a, Ranked y (g y a)) :
    Ranked c (l.foldl g x) := by
  induction l generalizing x with
  | nil => exact h
  | cons a r ih => exact ih (h.trans (hg x a))

theorem rk_ask {c x : Channel} (e : Eff) (h : Ranked c x) : Ranked c (x.ask e) :=
  h.trans ⟨fun _ => .refl _, rfl, rfl, rfl, rfl, rfl, le_refl _, [e], rfl⟩

theorem rk_bookState {c x : Channel} (org : Origin) (b : KB) (off : ℕ) (o w : Word) (h : Ranked c x) : Ranked c (x.bookState org b off o w) :=
  rk_ask _ h

theorem rk_journalAt {c x : Channel} (m l : Bool) (b : JBody) (h : Ranked c x) : Ranked c (x.journalAt tick m l b) :=
  h.trans ⟨fun _ => .refl _, rfl, rfl, rfl, rfl, rfl, Nat.le_succ _, _, rfl⟩

theorem rk_evtMask {c x : Channel} (b : KB) (off m : ℕ) (h : Ranked c x) : Ranked c (x.evtMask b off m) := by
  refine h.trans ⟨fun _ => .refl _, ?_, ?_, rfl, rfl, rfl, le_refl _, _, rfl⟩ <;> cases b <;> rfl

theorem rk_evt {c x : Channel} (f : KF) (h : Ranked c x) : Ranked c (x.evt f) := rk_evtMask _ _ _ h

theorem rk_setSel {c x : Channel} (s : Servo) (y : SelSt) (h : Ranked c x) : Ranked c (x.setSel s y) := by
  refine h.trans ?_
  cases s <;> exact ⟨fun _ => .refl _, rfl, rfl, rfl, rfl, rfl, le_refl _, [], by simp [Channel.setSel]⟩

theorem lane_setLane (c : Channel) (n m : LaneIx) (l : Lane) : (c.setLane n l).lane m = if n = m then l else c.lane m := by
  unfold Channel.setLane Channel.lane
  by_cases h : n = m
  · subst h
    simp
  · have hv : n.val ≠ m.val := fun e => h (Fin.ext e)
    simp only [Fin.getElem_fin, if_neg h]
    rw [Vector.getElem_set_ne (h := hv)]

theorem rk_setLane {c x : Channel} (n : LaneIx) (l : Lane) (hl : LaneKept (x.lane n) l) (h : Ranked c x) : Ranked c (x.setLane n l) := by
  refine h.trans ⟨fun m => ?_, rfl, rfl, rfl, rfl, rfl, le_refl _, [], by simp [Channel.setLane]⟩
  rw [lane_setLane]
  split
  · rename_i e
    subst e
    exact hl
  · exact .refl _

/-- A lane in one of the two states that is moved to the other. -/
theorem rk_laneTo {c x : Channel} (n : LaneIx) {dst : LaneSt} (cause : ℕ) (hd : ranked dst) (hs : ranked (x.lane n).st) (h : Ranked c x) :
    Ranked c (x.laneTo n dst cause) := by
  have hk : LaneKept (x.lane n) { x.lane n with st := dst } := ⟨rfl, fun _ => hd, fun k => absurd hs k⟩
  unfold Channel.laneTo
  have e1 : dst ≠ .absent := by rcases hd with rfl | rfl <;> decide
  have e2 : dst ≠ .qualifying := by rcases hd with rfl | rfl <;> decide
  have e3 : dst ≠ .forced := by rcases hd with rfl | rfl <;> decide
  have e4 : dst = .qualified ∨ dst = .contested := hd
  simp only [if_neg e1, if_neg e2, if_neg e3, if_pos e4]
  refine Ranked.ite (rk_setLane _ _ hk h) ?_
  exact rk_evtMask _ _ _ (rk_journalAt _ _ _ (rk_setLane _ _ hk h))

theorem rk_putOutl {c x : Channel} (s : Servo) (n : LaneIx) (b : Bool) (k : ℕ) (h : Ranked c x) : Ranked c (x.putOutl s n b k) := by
  have h1 : Ranked c (x.setLane n (Channel.setOutl (x.lane n) s b k)) :=
    rk_setLane _ _ (by cases s <;> exact ⟨rfl, id, fun _ => rfl⟩) h
  unfold Channel.putOutl
  exact Ranked.ite (rk_evt _ h1) h1

theorem rk_medianRank {c x : Channel} (s : Servo) (k : ℕ) (h : Ranked c x) : Ranked c (Channel.medianRank s x k) := by
  refine h.trans ?_
  unfold Channel.medianRank
  dsimp only
  repeat' first | with_reducible exact Ranked.refl _ | with_reducible apply Ranked.ite | with_reducible apply Ranked.fold | intro _ | with_reducible apply rk_putOutl

theorem rk_endContest {c x : Channel} (s : Servo) (k : Contest) (h : Ranked c x) : Ranked c (x.endContest s k) := by
  refine h.trans ?_
  unfold Channel.endContest
  extract_lets y feeds c1 d c2
  have h1 : Ranked x c1 := rk_setSel _ _ (.refl _)
  have h2 : Ranked x c2 := by
    refine Ranked.ite (h1.trans ⟨fun _ => .refl _, rfl, rfl, rfl, rfl, rfl, le_refl _, [], by simp⟩) h1
  refine Ranked.fold h2 (fun z n => ?_)
  split
  · rename_i e
    exact rk_laneTo _ _ (.inl rfl) (.inr e.1) (.refl _)
  · exact .refl _

theorem rk_contestEnds {c x : Channel} (s : Servo) (h : Ranked c x) : Ranked c (x.contestEnds s) := by
  refine h.trans ?_
  unfold Channel.contestEnds
  dsimp only
  repeat' first | with_reducible exact Ranked.refl _ | with_reducible apply Ranked.ite | with_reducible apply Ranked.fold | intro _ | with_reducible apply rk_endContest | with_reducible apply rk_setSel

theorem rankLanes_st {c : Channel} {s : Servo} {k : ℕ} {n : LaneIx} (h : n ∈ c.rankLanes s k) : ranked (c.lane n).st := by
  unfold Channel.rankLanes at h
  have := (List.mem_filter.mp h).2
  simp only [Bool.and_eq_true, Bool.or_eq_true, beq_iff_eq] at this
  exact this.1.1.1.1

theorem rk_contestRank {c x : Channel} (s : Servo) (k : ℕ) (h : Ranked c x) : Ranked c (Channel.contestRank s x k) := by
  refine h.trans ?_
  unfold Channel.contestRank
  split
  · rename_i a b e
    have ha : ranked (x.lane a).st := rankLanes_st (s := s) (k := k) (by rw [e]; simp)
    have hb : ranked (x.lane b).st := rankLanes_st (s := s) (k := k) (by rw [e]; simp)
    refine Ranked.ite ?_ (.refl _)
    have g1 : Ranked x (x.setSel s { x.sel s with contests := (x.sel s).contests ++ [⟨a, b, x.now, satCap (ceilDiv (x.laneFreq a - x.laneFreq b).natAbs (2 ^ 16)), 0, 0⟩] }) :=
      rk_setSel _ _ (.refl _)
    have g2 := rk_laneTo a 0xFF (dst := .contested) (.inr rfl) ((g1.lanes a).low ha) g1
    exact rk_evt _ (rk_laneTo b 0xFF (.inr rfl) ((g2.lanes b).low hb) g2)
  · exact .refl _

theorem rk_evalRanks {c x : Channel} (h : Ranked c x) : Ranked c (x.evalRanks) := by
  refine h.trans ?_
  unfold Channel.evalRanks
  dsimp only
  repeat' first | with_reducible exact Ranked.refl _ | with_reducible apply Ranked.fold | intro _ | with_reducible apply rk_contestEnds | with_reducible apply rk_medianRank | with_reducible apply rk_contestRank

theorem rk_cancelPv {c x : Channel} (s : Servo) (k : ℕ) (h : Ranked c x) : Ranked c (x.cancelPv s k) := by
  refine h.trans ?_
  unfold Channel.cancelPv
  dsimp only
  split
  · exact .refl _
  · exact rk_evt _ (rk_journalAt _ _ _ (rk_setSel _ _ (.refl _)))

theorem rk_publishPv {c x : Channel} (s : Servo) (n : LaneIx) (p : Bool) (h : Ranked c x) : Ranked c (x.publishPv s n p) :=
  rk_setSel _ _ (rk_evt _ (rk_journalAt _ _ _ h))

theorem rk_keepWiden {c x : Channel} (s : Servo) (n : Option LaneIx) (h : Ranked c x) : Ranked c (x.keepWiden s n) := by
  refine h.trans ?_
  unfold Channel.keepWiden
  split
  · exact Ranked.ite (.refl _) ⟨fun _ => .refl _, rfl, rfl, rfl, rfl, rfl, le_refl _, [], by simp⟩
  · exact .refl _

theorem rk_commitSel {c x : Channel} (s : Servo) (n : Option LaneIx) (k : ℕ) (h : Ranked c x) : Ranked c (x.commitSel s n k) := by
  refine h.trans ?_
  unfold Channel.commitSel
  dsimp only
  have h1 : Ranked x (x.keepWiden s n) := rk_keepWiden _ _ (.refl _)
  refine rk_bookState _ _ _ _ _ ?_
  split
  · exact rk_evt _ (rk_setSel _ _ (rk_journalAt _ _ _ h1))
  · exact rk_evt _ (rk_setSel _ _ (rk_journalAt _ _ _ h1))
  · exact rk_setSel _ _ (rk_journalAt _ _ _ h1)

theorem rk_predict {c x : Channel} (s : Servo) (h : Ranked c x) : Ranked c (x.predict s) := by
  refine h.trans ?_
  unfold Channel.predict
  dsimp only
  refine Ranked.ite (.refl _) ?_
  split
  · exact rk_publishPv _ _ _ (rk_cancelPv _ _ (.refl _))
  · exact rk_cancelPv _ _ (.refl _)

theorem rk_reserve {c x : Channel} (s : Servo) (n : LaneIx) (h : Ranked c x) : Ranked c (x.reserve s n) := by
  refine h.trans ?_
  unfold Channel.reserve
  dsimp only
  repeat' first | with_reducible exact Ranked.refl _ | with_reducible apply Ranked.ite | with_reducible apply rk_publishPv | with_reducible apply rk_cancelPv | with_reducible apply rk_setSel | with_reducible apply rk_predict

theorem rk_select {c x : Channel} (s : Servo) (h : Ranked c x) : Ranked c (x.select s) := by
  refine h.trans ?_
  unfold Channel.select
  extract_lets x0 c0 x1 ch
  have h0 : Ranked x c0 := Ranked.ite (rk_setSel _ _ (.refl _)) (.refl _)
  split
  · exact rk_reserve _ _ h0
  · refine rk_predict _ ?_
    refine Ranked.ite ?_ (rk_commitSel _ _ _ ?_)
    all_goals exact Ranked.ite (rk_cancelPv _ _ (rk_setSel _ _ h0)) (rk_setSel _ _ h0)

/-- Steps 5 and 6 of R81. -/
theorem rk_refEval {c x : Channel} (h : Ranked c x) : Ranked c x.refEval := by
  refine h.trans ?_
  unfold Channel.refEval
  extract_lets c1
  have h1 : Ranked x c1 := rk_select _ (rk_select _ (rk_evalRanks (.refl _)))
  clear_value c1
  exact h1.trans ⟨fun _ => .refl _, rfl, rfl, rfl, rfl, rfl, le_refl _, [], by simp⟩

/-! ### Single lanes -/

@[simp] theorem lane_evtMask (c : Channel) (b : KB) (off m : ℕ) (n : LaneIx) : (c.evtMask b off m).lane n = c.lane n := rfl
@[simp] theorem lane_evt (c : Channel) (f : KF) (n : LaneIx) : (c.evt f).lane n = c.lane n := rfl
@[simp] theorem lane_journalAt (c : Channel) (t : ℕ) (a b : Bool) (e : JBody) (n : LaneIx) : (c.journalAt t a b e).lane n = c.lane n := rfl
@[simp] theorem lane_bump (c : Channel) (f : KF) (n : LaneIx) : (c.bump f).lane n = c.lane n := rfl
@[simp] theorem lane_setLane_self (c : Channel) (n : LaneIx) (l : Lane) : (c.setLane n l).lane n = l := by simp [lane_setLane]
@[simp] theorem lane_updLane_self (c : Channel) (n : LaneIx) (f : Lane → Lane) : (c.updLane n f).lane n = f (c.lane n) := by simp [Channel.updLane]
theorem lane_updLane_ne (c : Channel) {n m : LaneIx} (f : Lane → Lane) (h : n ≠ m) : (c.updLane n f).lane m = c.lane m := by
  simp [Channel.updLane, lane_setLane, h]
@[simp] theorem tick_setLane (c : Channel) (n : LaneIx) (l : Lane) : (c.setLane n l).jour = c.jour := rfl
@[simp] theorem fld_setLane (c : Channel) (n : LaneIx) (l : Lane) (f : KF) : (c.setLane n l).fld f = c.fld f := rfl
@[simp] theorem fld_updLane (c : Channel) (n : LaneIx) (g : Lane → Lane) (f : KF) : (c.updLane n g).fld f = c.fld f := rfl

/-- The lane that `laneTo` leaves: the state is the one named; ABSENT and FORCED end the timer, ABSENT ends the miss timer as well. -/
theorem laneTo_lane (c : Channel) (n : LaneIx) (dst : LaneSt) (k : ℕ) :
    ((c.laneTo n dst k).lane n).st = dst ∧
    ((c.laneTo n dst k).lane n).timer = (if dst = .absent ∨ dst = .forced then none else (c.lane n).timer) ∧
    ((c.laneTo n dst k).lane n).miss = (if dst = .absent then none else (c.lane n).miss) ∧
    ((c.laneTo n dst k).lane n).los = (c.lane n).los ∧ ((c.laneTo n dst k).lane n).returning = (c.lane n).returning ∧
    ((c.laneTo n dst k).lane n).winGood = (c.lane n).winGood ∧ ((c.laneTo n dst k).lane n).seq = (c.lane n).seq ∧
    ((c.laneTo n dst k).lane n).stepW = (c.lane n).stepW ∧
    ((c.laneTo n dst k).lane n).exist = (c.lane n).exist := by
  unfold Channel.laneTo Channel.clearHist
  by_cases h : (c.lane n).st = dst
  · simp only [if_pos h, lane_setLane_self]
    cases dst <;> simp
  · simp only [if_neg h, Channel.journal, lane_evtMask, lane_journalAt, lane_setLane_self]
    cases dst <;> simp

/-- What does not depend on the lanes' states survives `laneTo`. -/
theorem laneTo_rest (c : Channel) (n : LaneIx) (dst : LaneSt) (k : ℕ) :
    ((c.laneTo n dst k).rf .ref).use = (c.rf .ref).use ∧ (c.laneTo n dst k).jour.tick = c.jour.tick ∧
    (c.laneTo n dst k).dpll = c.dpll ∧ ∃ es, (c.laneTo n dst k).effs = c.effs ++ es := by
  unfold Channel.laneTo
  dsimp only
  split
  · exact ⟨rfl, rfl, rfl, [], by simp [Channel.setLane]⟩
  · exact ⟨rfl, rfl, rfl, _, by simp [Channel.setLane, Channel.evtMask, Channel.ask, Channel.setRf, Channel.setWord, Channel.journal, Channel.journalAt]; rfl⟩

/-- A configuration field of REF as used depends on the committed values alone. -/
theorem fld_ref_use {c d : Channel} (h : (d.rf .ref).use = (c.rf .ref).use) {f : KF} (hb : f.blk = .ref) (hs : f.sh = true) : d.fld f = c.fld f := by
  obtain ⟨b, off, l, w, sh⟩ := f
  subst hb
  subst hs
  simp [Channel.fld, Channel.useWord, h]

/-- A field of a lane that rank evaluation does not touch. -/
theorem ranked_lane {α : Type} (f : Lane → α)
    (hf : ∀ l a b x y z, f { l with st := a, outA := b, outB := x, outCntA := y, outCntB := z } = f l)
    {c d : Channel} (h : Ranked c d) (n : LaneIx) : f (d.lane n) = f (c.lane n) := by
  have e := congrArg f (h.lanes n).rest
  rwa [hf] at e

/-- A lane state that rank evaluation does not touch. -/
theorem ranked_st {c d : Channel} (h : Ranked c d) (n : LaneIx) {t : LaneSt} (hq : t ≠ .qualified) (hc : t ≠ .contested)
    (e : (c.lane n).st = t) : (d.lane n).st = t := by
  rw [(h.lanes n).keep (by rw [e]; rintro (k | k) <;> contradiction), e]

/-! ### FORCE, UNFORCE and REQUAL (R80) -/

theorem startWin_lane (c : Channel) (n : LaneIx) : ((c.startWin n).lane n).st = (c.lane n).st ∧ ((c.startWin n).lane n).winGood = 0 := by
  simp [Channel.startWin]

theorem force_lane (c : Channel) (sync : LaneIx → ℕ) (n : LaneIx) :
    ((c.force sync n).lane n).st = .forced ∧ ((c.force sync n).lane n).timer = none :=
  ⟨(laneTo_lane _ n .forced 0xFF).1, (laneTo_lane _ n .forced 0xFF).2.1⟩

theorem unforce_lane (c : Channel) (n : LaneIx) :
    ((c.lane n).los = true → ((c.unforce n).lane n).st = .absent) ∧ ((c.lane n).los = false → ((c.unforce n).lane n).st = .qualifying) := by
  unfold Channel.unforce
  extract_lets c0
  refine ⟨fun h => ?_, fun h => ?_⟩
  · rw [if_pos h]
    exact (laneTo_lane c0 n .absent 0xFF).1
  · rw [if_neg (by rw [h]; decide)]
    exact (startWin_lane _ _).1.trans (laneTo_lane c0 n .qualifying 0xFF).1

theorem requal_lane (c : Channel) (n : LaneIx) : ((c.requal n).lane n).st = .qualifying ∧ ((c.requal n).lane n).winGood = 0 :=
  ⟨(startWin_lane _ _).1.trans (laneTo_lane c n .qualifying 0xFF).1, (startWin_lane _ _).2⟩

end Sys2Proof.Machine
end

