-- ==== Sys2Proof/Laws/Writes.lean ====
section
/-! SUPPORT. What a write of a channel's register comes to (R8 to R13, R23, R143): the word stored, the journal entry, the register's own action. -/
namespace Sys2Proof.Machine
namespace Channel

/-! ### A register file replaced leaves the rest of the channel -/

@[simp] theorem setRf_ix (c : Channel) (b : KB) (f : RegFile) : (c.setRf b f).ix = c.ix := rfl
@[simp] theorem setRf_topo (c : Channel) (b : KB) (f : RegFile) : (c.setRf b f).topo = c.topo := rfl
@[simp] theorem setRf_ref (c : Channel) (b : KB) (f : RegFile) : (c.setRf b f).ref = c.ref := rfl
@[simp] theorem setRf_dpll (c : Channel) (b : KB) (f : RegFile) : (c.setRf b f).dpll = c.dpll := rfl
@[simp] theorem setRf_scale (c : Channel) (b : KB) (f : RegFile) : (c.setRf b f).scale = c.scale := rfl
@[simp] theorem setRf_jour (c : Channel) (b : KB) (f : RegFile) : (c.setRf b f).jour = c.jour := rfl
@[simp] theorem setRf_syn (c : Channel) (b : KB) (f : RegFile) : (c.setRf b f).syn = c.syn := rfl
@[simp] theorem setRf_gnss (c : Channel) (b : KB) (f : RegFile) : (c.setRf b f).gnss = c.gnss := rfl
@[simp] theorem setRf_sched (c : Channel) (b : KB) (f : RegFile) : (c.setRf b f).sched = c.sched := rfl
@[simp] theorem setRf_ports (c : Channel) (b : KB) (f : RegFile) : (c.setRf b f).ports = c.ports := rfl
@[simp] theorem setRf_sealb (c : Channel) (b : KB) (f : RegFile) : (c.setRf b f).sealb = c.sealb := rfl
@[simp] theorem setRf_pmu (c : Channel) (b : KB) (f : RegFile) : (c.setRf b f).pmu = c.pmu := rfl
@[simp] theorem setRf_ends (c : Channel) (b : KB) (f : RegFile) : (c.setRf b f).ends = c.ends := rfl
@[simp] theorem setRf_ens (c : Channel) (b : KB) (f : RegFile) : (c.setRf b f).ens = c.ens := rfl
@[simp] theorem setRf_effs (c : Channel) (b : KB) (f : RegFile) : (c.setRf b f).effs = c.effs := rfl
@[simp] theorem setRf_drive (c : Channel) (b : KB) (f : RegFile) : (c.setRf b f).drive = c.drive := rfl
@[simp] theorem setRf_safe (c : Channel) (b : KB) (f : RegFile) : (c.setRf b f).safe = c.safe := rfl
@[simp] theorem setRf_lane (c : Channel) (b : KB) (f : RegFile) (n : LaneIx) : (c.setRf b f).lane n = c.lane n := rfl
@[simp] theorem setRf_sel (c : Channel) (b : KB) (f : RegFile) (s : Servo) : (c.setRf b f).sel s = c.sel s := by cases s <;> rfl

@[simp] theorem journal_ix (c : Channel) (b : JBody) : (c.journal b).ix = c.ix := rfl
@[simp] theorem journal_regs (c : Channel) (b : JBody) : (c.journal b).regs = c.regs := rfl
@[simp] theorem journal_ref (c : Channel) (b : JBody) : (c.journal b).ref = c.ref := rfl
@[simp] theorem journal_dpll (c : Channel) (b : JBody) : (c.journal b).dpll = c.dpll := rfl
@[simp] theorem journal_scale (c : Channel) (b : JBody) : (c.journal b).scale = c.scale := rfl
@[simp] theorem journal_tick (c : Channel) (b : JBody) : (c.journal b).jour.tick = c.jour.tick := rfl
@[simp] theorem journal_jseq (c : Channel) (b : JBody) : (c.journal b).jour.jseq = c.jour.jseq + 1 := rfl

/-! ### The word stored -/

/-- The word that a host's write leaves in a register, by the field rules alone (R8 to R11). -/
def stored (c : Channel) (b : KB) (off : ℕ) (v : Word) (g : RegSpec) : Word :=
  g.write (c.locked b) v (smGet 0#32 (c.rf b).hset off) (c.word b off)

theorem storeWord_eq (c : Channel) (wr : Writer) (b : KB) (off : ℕ) (v : Word) : ∃ f, c.storeWord wr b off v = c.setRf b f := by
  unfold storeWord
  split
  · exact ⟨c.rf b, by cases b <;> rfl⟩
  · exact ⟨_, rfl⟩

theorem storeWord_word (c : Channel) (wr : Writer) (b : KB) (off : ℕ) (v : Word) {g : RegSpec} (hg : findReg (kbRegs b) off = some g) :
    (c.storeWord wr b off v).word b off = c.stored b off v g := by
  simp [storeWord, hg, word, stored]

theorem storeWord_word_ne (c : Channel) (wr : Writer) (a b : KB) {off o : ℕ} (v : Word) (h : a ≠ b ∨ off ≠ o) :
    (c.storeWord wr a off v).word b o = c.word b o := by
  unfold storeWord
  split
  · rfl
  · by_cases e : a = b
    · subst e
      have hp : o ≠ off := fun k => h.elim (fun z => z rfl) (fun z => z k.symm)
      simp [word, smGet_smPut_ne _ _ _ _ hp]
    · simp [word, crf_setRf_ne _ _ e]

theorem storeWord_use (c : Channel) (wr : Writer) (a b : KB) (off : ℕ) (v : Word) : ((c.storeWord wr a off v).rf b).use = (c.rf b).use := by
  unfold storeWord
  split
  · rfl
  · by_cases e : a = b
    · subst e; simp
    · simp [crf_setRf_ne _ _ e]

/-! ### A host's write -/

theorem effs_nil (d : Channel) : { d with effs := d.effs ++ [] } = d := by rw [List.append_nil]

/-- A write of a register that stands alone: the word is stored; a write that counts is journaled by REF and DPLL; then the register acts,
and a change is offered to the cellar book. -/
theorem hostWrite_single (c : Channel) (org : Origin) (b : KB) {off : ℕ} (v : Word) {g : RegSpec} (hg : findReg (kbRegs b) off = some g)
    (hm : multiIn (kbMulti b) off = none) (hw : g.writable = true) (hp : c.hasPart b off = true) (hi : c.ignores b off v = false)
    (hl : decide (b = .dpll ∧ 0xF0100 ≤ off ∧ off < 0xF0180) = false) :
    ∃ (c2 : Channel) (es : List Eff),
      (c2 = c.storeWord ⟨org, false⟩ b off v ∨ c2 = (c.storeWord ⟨org, false⟩ b off v).journal (.cmd (winReg c.ix b off) v org.code none)) ∧
      c.hostWrite org b off v = { (c2.action ⟨org, false⟩ b off v).2 with effs := (c2.action ⟨org, false⟩ b off v).2.effs ++ es } := by
  unfold hostWrite writeReg
  simp only [hg, hm, hw, hp, hi, hl, Bool.not_true, Bool.or_false, Bool.false_eq_true, if_false]
  split
  · refine ⟨_, _, ?_, rfl⟩
    split
    · exact .inr rfl
    · exact .inl rfl
  · refine ⟨_, [], ?_, (effs_nil _).symm⟩
    split
    · exact .inr rfl
    · exact .inl rfl

/-- The same, for a write whose action counts in a block with a journal entry for it. -/
theorem hostWrite_counts (c : Channel) (org : Origin) (b : KB) {off : ℕ} (v : Word) {g : RegSpec} (hg : findReg (kbRegs b) off = some g)
    (hm : multiIn (kbMulti b) off = none) (hw : g.writable = true) (hp : c.hasPart b off = true) (hi : c.ignores b off v = false)
    (hl : decide (b = .dpll ∧ 0xF0100 ≤ off ∧ off < 0xF0180) = false) (hj : (b == .ref || b == .dpll) = true)
    (ha : ((c.storeWord ⟨org, false⟩ b off v).action ⟨org, false⟩ b off v).1 = true) :
    ∃ es : List Eff, ∃ c2 : Channel, c2 = (c.storeWord ⟨org, false⟩ b off v).journal (.cmd (winReg c.ix b off) v org.code none) ∧
      c.hostWrite org b off v = { (c2.action ⟨org, false⟩ b off v).2 with effs := (c2.action ⟨org, false⟩ b off v).2.effs ++ es } := by
  unfold hostWrite writeReg
  simp only [hg, hm, hw, hp, hi, hl, Bool.not_true, Bool.or_false, Bool.false_eq_true, if_false, ha, Bool.or_true, hj, Bool.true_and, Bool.not_false, if_true]
  split
  · exact ⟨_, _, rfl, rfl⟩
  · exact ⟨[], _, rfl, (effs_nil _).symm⟩

theorem hasPart_none (c : Channel) {b : KB} {off : ℕ} (h : partOf b off = none) : c.hasPart b off = true := by simp [hasPart, h]
theorem ignores_not_sched (c : Channel) {b : KB} (off : ℕ) (v : Word) (h : b ≠ .sched) (g : b ≠ .gnss) : c.ignores b off v = false := by
  simp [ignores, h, g]
theorem ignores_low (c : Channel) {b : KB} {off : ℕ} (v : Word) (h : off < 0x4000) (g : ¬(b = .gnss ∧ off = GNSS_SNAP_CTL)) : c.ignores b off v = false := by
  simp only [ignores]
  rw [if_neg (by omega), if_neg g]

end Channel

/-- A command that writes a register of a channel: what holds of the register's action after its word is stored and, it may be, journaled,
holds of the command. -/
theorem actsOn_cmd {i : Instr} {s : State} {p : HostPath} {n : ChanIx} {q : Channel → Prop} (b : KB) (off : ℕ) (v : Word)
    (hm' : mayRate i = false) (hx : s.clear.effect i = s.clear.writeCh p n b off v) (ho : s.open p) (hr : s.running n = true) (ha : off % 4 = 0) (hb : off < 0x100000)
    (hreg : (findReg (kbRegs b) off).any (·.writable) = true) (hm : multiIn (kbMulti b) off = none) (hp : s.ch[n].hasPart b off = true)
    (hi : s.ch[n].ignores b off v = false) (hl : decide (b = .dpll ∧ 0xF0100 ≤ off ∧ off < 0xF0180) = false)
    (hq : ∀ (c2 : Channel) (es : List Eff), (c2 = s.ch[n].storeWord ⟨p.org, false⟩ b off v ∨
      c2 = (s.ch[n].storeWord ⟨p.org, false⟩ b off v).journal (.cmd (winReg s.ch[n].ix b off) v p.org.code none)) →
      q { (c2.action ⟨p.org, false⟩ b off v).2 with effs := (c2.action ⟨p.org, false⟩ b off v).2.effs ++ es }) : ActsOn i s n q := by
  obtain ⟨g, hg, hw⟩ := Option.any_eq_true_iff_get _ _ |>.mp hreg |> fun ⟨h, w⟩ => (⟨_, Option.some_get h |>.symm, w⟩ : ∃ g, findReg (kbRegs b) off = some g ∧ g.writable = true)
  refine actsOn_write b off v hm' hx ho hr ha hb (by rw [hg]; rfl) ?_
  obtain ⟨c2, es, h2, he⟩ := Channel.hostWrite_single s.ch[n] p.org b v hg hm hw hp hi hl
  rw [he]
  exact hq c2 es h2

end Sys2Proof.Machine
end

