-- ==== Sys2Proof/Laws/Commands.lean ====
section
/-! SUPPORT. The channel on which a register's action works when a host has written the register, and the actions of single registers. -/
namespace Sys2Proof.Machine

/-- Before a register acts, its word is stored and the write may be journaled: nothing else of the channel has changed. -/
theorem cmd_c2 {c c2 : Channel} {w : Writer} {b : KB} {off : ℕ} {v : Word} {e : JBody}
    (h : c2 = c.storeWord w b off v ∨ c2 = (c.storeWord w b off v).journal e) :
    Channel.onlyIn [b.part, .jour, .asks] c c2 ∧ c2.ref = c.ref ∧ c2.dpll = c.dpll ∧ c2.jour.tick = c.jour.tick ∧ c2.scale = c.scale ∧
      ∀ k, (c2.rf k).use = (c.rf k).use := by
  obtain ⟨f, hf⟩ := Channel.storeWord_eq c w b off v
  have hu := fun k => Channel.storeWord_use c w b k off v
  rcases h with rfl | rfl
  · refine ⟨?_, ?_, ?_, ?_, ?_, hu⟩
    · rw [hf]; exact on_setRf _ _ (by simp) (Channel.onlyIn_refl _ _)
    all_goals rw [hf]; rfl
  · refine ⟨?_, ?_, ?_, ?_, ?_, hu⟩
    · rw [hf]; exact on_journal _ (by simp [partsIn]) (on_setRf _ _ (by simp) (Channel.onlyIn_refl _ _))
    all_goals rw [hf]; rfl

/-- The word of the register written, and the words of the others, as the action finds them. -/
theorem cmd_word {c c2 : Channel} {w : Writer} {b : KB} {off : ℕ} {v : Word} {e : JBody} {g : RegSpec} (hg : findReg (kbRegs b) off = some g)
    (h : c2 = c.storeWord w b off v ∨ c2 = (c.storeWord w b off v).journal e) :
    c2.word b off = c.stored b off v g ∧ ∀ k o, b ≠ k ∨ off ≠ o → c2.word k o = c.word k o := by
  rcases h with rfl | rfl
  · exact ⟨Channel.storeWord_word c w b off v hg, fun k o hne => Channel.storeWord_word_ne c w b k v hne⟩
  · exact ⟨Channel.storeWord_word c w b off v hg, fun k o hne => Channel.storeWord_word_ne c w b k v hne⟩

/-- Requests added to a channel change nothing else of it. -/
theorem onlyIn_effs {L : List ChPart} {c d : Channel} (ha : L.contains .asks = true) (es : List Eff) (h : Channel.onlyIn L c d) :
    Channel.onlyIn L c { d with effs := d.effs ++ es } :=
  on_upd h rfl (.inr rfl) (.inr rfl) (.inr rfl) (.inr rfl) (.inr rfl) (.inr rfl) (.inr rfl) (.inr rfl) (.inr rfl) (.inr rfl) (.inr rfl) (.inr rfl)
    (.inr rfl) (.inr rfl) (.inr rfl) (.inl ha)

theorem laneCmd_reg (i : LaneIx) : (findReg (kbRegs .ref) (REF_LANE_CMD i.val)).any (·.writable) = true := by revert i; decide

theorem laneCmd_off (i : LaneIx) : REF_LANE_CMD i.val % 4 = 0 ∧ REF_LANE_CMD i.val < 0x100000 ∧ 0x1000 ≤ REF_LANE_CMD i.val ∧ REF_LANE_CMD i.val < 0x1400 ∧
    (REF_LANE_CMD i.val - 0x1000) % 0x40 = 0x2C ∧ Channel.laneOfOff (REF_LANE_CMD i.val) = i ∧ REF_LANE_CMD i.val ≠ REF_CTL ∧
    REF_LANE_CMD i.val ≠ REF_SEL_CMD := by
  revert i; decide

theorem action_laneCmd (c : Channel) (w : Writer) (i : LaneIx) (v : Word) : (c.action w .ref (REF_LANE_CMD i.val) v) = c.laneCmd i v := by
  obtain ⟨_, _, h1, h2, h3, h4, h5, h6⟩ := laneCmd_off i
  unfold Channel.action
  simp only [if_neg h5, if_neg h6, if_pos (And.intro h1 (And.intro h2 h3)), h4]

theorem action_selCmd (c : Channel) (w : Writer) (v : Word) : c.action w .ref REF_SEL_CMD v = c.selCmd v := by
  unfold Channel.action
  simp only [if_neg (show ¬ REF_SEL_CMD = REF_CTL by decide), if_pos]

theorem leapEnt_off (k : Fin 8) : DPLL_LEAP_ENT k.val % 4 = 0 ∧ DPLL_LEAP_ENT k.val < 0x100000 ∧ 0xF0100 ≤ DPLL_LEAP_ENT k.val ∧
    DPLL_LEAP_ENT k.val < 0xF0180 ∧ (DPLL_LEAP_ENT k.val - 0xF0100) % 16 = 8 ∧ Fin.ofNat 8 ((DPLL_LEAP_ENT k.val - 0xF0100) / 16) = k ∧
    DPLL_LEAP_ENT k.val ≠ DPLL_CTL ∧ DPLL_LEAP_ENT k.val ≠ DPLL_STEP_CMD ∧ multiIn (kbMulti .dpll) (DPLL_LEAP_ENT k.val) = none := by
  revert k; decide
theorem leapEnt_reg (k : Fin 8) : (findReg (kbRegs .dpll) (DPLL_LEAP_ENT k.val)).any (·.writable) = true := by revert k; decide

theorem action_leapEnt (c : Channel) (w : Writer) (k : Fin 8) (v : Word) : c.action w .dpll (DPLL_LEAP_ENT k.val) v = (true, c.leapEntWrite k v) := by
  obtain ⟨_, _, h1, h2, h3, h4, h5, h6, _⟩ := leapEnt_off k
  unfold Channel.action
  simp only [if_neg h5, if_neg h6, if_pos (And.intro h1 h2), h3, h4]

/-- A host's write of a leap entry (R61): the write is journaled, and the entry acts; no word of the register file changes. -/
theorem hostWrite_leapEnt (c : Channel) (org : Origin) (k : Fin 8) (v : Word) : ∃ es : List Eff,
    c.hostWrite org .dpll (DPLL_LEAP_ENT k.val) v =
      { ((c.journal (.cmd (winReg c.ix .dpll (DPLL_LEAP_ENT k.val)) v org.code none)).leapEntWrite k v) with
        effs := ((c.journal (.cmd (winReg c.ix .dpll (DPLL_LEAP_ENT k.val)) v org.code none)).leapEntWrite k v).effs ++ es } := by
  obtain ⟨_, _, h1, h2, _⟩ := leapEnt_off k
  obtain ⟨g, hg, hw⟩ := Option.any_eq_true_iff_get _ _ |>.mp (leapEnt_reg k) |> fun ⟨h, w⟩ => (⟨_, Option.some_get h |>.symm, w⟩ : ∃ g, findReg (kbRegs .dpll) (DPLL_LEAP_ENT k.val) = some g ∧ g.writable = true)
  unfold Channel.hostWrite Channel.writeReg
  simp only [hg, hw, Channel.hasPart_none c (show partOf .dpll (DPLL_LEAP_ENT k.val) = none from rfl),
    Channel.ignores_not_sched c (DPLL_LEAP_ENT k.val) v (show KB.dpll ≠ .sched by decide) (show KB.dpll ≠ .gnss by decide), h1, h2, and_self, decide_true, (show (KB.dpll == KB.ref || KB.dpll == KB.dpll) = true from rfl), action_leapEnt, Bool.not_true, Bool.or_false, Bool.false_eq_true,
    if_false, if_true, Bool.or_true, Bool.not_false, Bool.true_and, Bool.and_true]
  split
  · exact ⟨_, rfl⟩
  · exact ⟨[], (Channel.effs_nil _).symm⟩

end Sys2Proof.Machine
end

