-- ==== Sys2Proof/Laws/Uses.lean ====
section
/-! SUPPORT. The values in use of a channel's registers: what follows a commit leaves them as the commit set them. -/
namespace Sys2Proof.Machine

/-- The values in use of every block of a channel, and those of its next tick, are the same. -/
structure Uses (c d : Channel) : Prop where
  use : ∀ b, (d.rf b).use = (c.rf b).use
  next : ∀ b, (d.rf b).next = (c.rf b).next

theorem Uses.refl (c : Channel) : Uses c c := ⟨fun _ => rfl, fun _ => rfl⟩
theorem Uses.trans {a b c : Channel} (h : Uses a b) (g : Uses b c) : Uses a c := ⟨fun k => (g.use k).trans (h.use k), fun k => (g.next k).trans (h.next k)⟩

theorem Uses.upd {c x : Channel} {ix topo ref dpll scale jour syn gnss sched ports sealb pmu ends ens tprev epi freeCtr drive safe effs} (h : Uses c x) :
    Uses c (Channel.mk ix topo x.regs ref dpll scale jour syn gnss sched ports sealb pmu ends ens tprev epi freeCtr drive safe effs) := ⟨h.use, h.next⟩

theorem Uses.ite {c a b : Channel} {p : Prop} [Decidable p] (ha : Uses c a) (hb : Uses c b) : Uses c (if p then a else b) := by
  split <;> assumption
theorem Uses.ite2 {α : Type} {c : Channel} {a b : α × Channel} {p : Prop} [Decidable p] (ha : Uses c a.2) (hb : Uses c b.2) : Uses c (if p then a else b).2 := by
  split <;> assumption
theorem Uses.fold {α : Type} {c x : Channel} {g : Channel → α → Channel} {l : List α} (h : Uses c x) (hg : ∀ y a, Uses y (g y a)) : Uses c (l.foldl g x) := by
  induction l generalizing x with
  | nil => exact h
  | cons a r ih => exact ih (h.trans (hg x a))
theorem Uses.iter {c x : Channel} {g : Channel → Channel} (n : Nat) (h : Uses c x) (hg : ∀ y, Uses y (g y)) : Uses c (iter g n x) := by
  induction n generalizing x with
  | zero => exact h
  | succ n ih => exact ih (h.trans (hg x))

theorem us_setRf {c x : Channel} (b : KB) (f : RegFile) (hf : f.use = (x.rf b).use) (hn : f.next = (x.rf b).next) (hF : Uses c x) : Uses c (x.setRf b f) := by
  refine hF.trans ⟨fun k => ?_, fun k => ?_⟩ <;> by_cases h : b = k
  · subst h; rw [crf_setRf_self, hf]
  · rw [crf_setRf_ne _ _ h]
  · subst h; rw [crf_setRf_self, hn]
  · rw [crf_setRf_ne _ _ h]

theorem us_setWord {c x : Channel} (b : KB) (off : ℕ) (w : Word) (hF : Uses c x) : Uses c (x.setWord b off w) := us_setRf _ _ rfl rfl hF

theorem us_evtMask {c x : Channel} (b : KB) (off m : ℕ) (hF : Uses c x) : Uses c (x.evtMask b off m) :=
  Uses.upd (us_setRf _ _ rfl rfl (us_setWord _ _ _ hF))

theorem us_put {c₀ x₀ : Channel} (f : KF) (v : ℕ) (hF : Uses c₀ x₀) : Uses c₀ (Channel.put x₀ f v) := by
  refine hF.trans ?_
  unfold Channel.put
  try dsimp only
  repeat' first | with_reducible exact Uses.refl _ | with_reducible apply us_setWord | fail_if_no_progress (with_reducible apply Uses.upd) | with_reducible apply Uses.ite | with_reducible apply Uses.ite2 | split

theorem us_bump {c₀ x₀ : Channel} (f : KF) (hF : Uses c₀ x₀) : Uses c₀ (Channel.bump x₀ f) := by
  refine hF.trans ?_
  unfold Channel.bump
  try dsimp only
  repeat' first | with_reducible exact Uses.refl _ | with_reducible apply us_put | fail_if_no_progress (with_reducible apply Uses.upd) | with_reducible apply Uses.ite | with_reducible apply Uses.ite2 | split

theorem us_bumpBy {c₀ x₀ : Channel} (f : KF) (n : ℕ) (hF : Uses c₀ x₀) : Uses c₀ (Channel.bumpBy x₀ f n) := by
  refine hF.trans ?_
  unfold Channel.bumpBy
  try dsimp only
  repeat' first | with_reducible exact Uses.refl _ | with_reducible apply us_put | fail_if_no_progress (with_reducible apply Uses.upd) | with_reducible apply Uses.ite | with_reducible apply Uses.ite2 | split

theorem us_bumpSat {c₀ x₀ : Channel} (f : KF) (hF : Uses c₀ x₀) : Uses c₀ (Channel.bumpSat x₀ f) := by
  refine hF.trans ?_
  unfold Channel.bumpSat
  try dsimp only
  repeat' first | with_reducible exact Uses.refl _ | with_reducible apply us_put | fail_if_no_progress (with_reducible apply Uses.upd) | with_reducible apply Uses.ite | with_reducible apply Uses.ite2 | split

theorem us_ask {c₀ x₀ : Channel} (e : Eff) (hF : Uses c₀ x₀) : Uses c₀ (Channel.ask x₀ e) := by
  refine hF.trans ?_
  unfold Channel.ask
  try dsimp only
  repeat' first | with_reducible exact Uses.refl _ | fail_if_no_progress (with_reducible apply Uses.upd) | with_reducible apply Uses.ite | with_reducible apply Uses.ite2 | split

theorem us_evt {c₀ x₀ : Channel} (f : KF) (hF : Uses c₀ x₀) : Uses c₀ (Channel.evt x₀ f) := by
  refine hF.trans ?_
  unfold Channel.evt
  try dsimp only
  repeat' first | with_reducible exact Uses.refl _ | with_reducible apply us_evtMask | fail_if_no_progress (with_reducible apply Uses.upd) | with_reducible apply Uses.ite | with_reducible apply Uses.ite2 | split

theorem us_bookState {c₀ x₀ : Channel} (org : Origin) (b : KB) (off : ℕ) (old : Word) (new : Word) (hF : Uses c₀ x₀) : Uses c₀ (Channel.bookState x₀ org b off old new) := by
  refine hF.trans ?_
  unfold Channel.bookState
  try dsimp only
  repeat' first | with_reducible exact Uses.refl _ | with_reducible apply us_ask | fail_if_no_progress (with_reducible apply Uses.upd) | with_reducible apply Uses.ite | with_reducible apply Uses.ite2 | split

theorem us_free {c₀ x₀ : Channel} (w : ℕ) (hF : Uses c₀ x₀) : Uses c₀ (Channel.free x₀ w).2 := by
  refine hF.trans ?_
  unfold Channel.free
  try dsimp only
  repeat' first | with_reducible exact Uses.refl _ | fail_if_no_progress (with_reducible apply Uses.upd) | with_reducible apply Uses.ite | with_reducible apply Uses.ite2 | split

theorem us_journalAt {c₀ x₀ : Channel} (tick : ℕ) (commit : Bool) (late : Bool) (b : JBody) (hF : Uses c₀ x₀) : Uses c₀ (Channel.journalAt x₀ tick commit late b) := by
  refine hF.trans ?_
  unfold Channel.journalAt
  try dsimp only
  repeat' first | with_reducible exact Uses.refl _ | with_reducible apply us_ask | fail_if_no_progress (with_reducible apply Uses.upd) | with_reducible apply Uses.ite | with_reducible apply Uses.ite2 | split

theorem us_journal {c₀ x₀ : Channel} (b : JBody) (hF : Uses c₀ x₀) : Uses c₀ (Channel.journal x₀ b) := by
  refine hF.trans ?_
  unfold Channel.journal
  try dsimp only
  repeat' first | with_reducible exact Uses.refl _ | with_reducible apply us_journalAt | with_reducible apply Uses.ite | with_reducible apply Uses.ite2 | split

theorem us_setLane {c₀ x₀ : Channel} (n : LaneIx) (l : Lane) (hF : Uses c₀ x₀) : Uses c₀ (Channel.setLane x₀ n l) := by
  refine hF.trans ?_
  unfold Channel.setLane
  try dsimp only
  repeat' first | with_reducible exact Uses.refl _ | fail_if_no_progress (with_reducible apply Uses.upd) | with_reducible apply Uses.ite | with_reducible apply Uses.ite2 | split

theorem us_updLane {c₀ x₀ : Channel} (n : LaneIx) (f : Lane → Lane) (hF : Uses c₀ x₀) : Uses c₀ (Channel.updLane x₀ n f) := by
  refine hF.trans ?_
  unfold Channel.updLane
  try dsimp only
  repeat' first | with_reducible exact Uses.refl _ | with_reducible apply us_setLane | with_reducible apply Uses.ite | with_reducible apply Uses.ite2 | split

theorem us_setSel {c₀ x₀ : Channel} (s : Servo) (x : SelSt) (hF : Uses c₀ x₀) : Uses c₀ (Channel.setSel x₀ s x) := by
  refine hF.trans ?_
  unfold Channel.setSel
  try dsimp only
  repeat' first | with_reducible exact Uses.refl _ | fail_if_no_progress (with_reducible apply Uses.upd) | with_reducible apply Uses.ite | with_reducible apply Uses.ite2 | split

theorem us_laneTo {c₀ x₀ : Channel} (n : LaneIx) (dst : LaneSt) (cause : ℕ) (hF : Uses c₀ x₀) : Uses c₀ (Channel.laneTo x₀ n dst cause) := by
  refine hF.trans ?_
  unfold Channel.laneTo
  try dsimp only
  repeat' first | with_reducible exact Uses.refl _ | with_reducible apply us_setLane | with_reducible apply us_evtMask | with_reducible apply us_journal | fail_if_no_progress (with_reducible apply Uses.upd) | with_reducible apply Uses.ite | with_reducible apply Uses.ite2 | split

theorem us_startWin {c₀ x₀ : Channel} (n : LaneIx) (hF : Uses c₀ x₀) : Uses c₀ (Channel.startWin x₀ n) := by
  refine hF.trans ?_
  unfold Channel.startWin
  try dsimp only
  repeat' first | with_reducible exact Uses.refl _ | with_reducible apply us_updLane | fail_if_no_progress (with_reducible apply Uses.upd) | with_reducible apply Uses.ite | with_reducible apply Uses.ite2 | split

theorem us_startDq {c₀ x₀ : Channel} (n : LaneIx) (hF : Uses c₀ x₀) : Uses c₀ (Channel.startDq x₀ n) := by
  refine hF.trans ?_
  unfold Channel.startDq
  try dsimp only
  repeat' first | with_reducible exact Uses.refl _ | with_reducible apply us_updLane | fail_if_no_progress (with_reducible apply Uses.upd) | with_reducible apply Uses.ite | with_reducible apply Uses.ite2 | split

theorem us_laneStat {c₀ x₀ : Channel} (n : LaneIx) (f : ℕ → KF) (hF : Uses c₀ x₀) : Uses c₀ (Channel.laneStat x₀ n f) := by
  refine hF.trans ?_
  unfold Channel.laneStat
  try dsimp only
  repeat' first | with_reducible exact Uses.refl _ | with_reducible apply us_evt | fail_if_no_progress (with_reducible apply Uses.upd) | with_reducible apply Uses.ite | with_reducible apply Uses.ite2 | split

theorem us_stepConfirmed {c₀ x₀ : Channel} (n : LaneIx) (delta : ℤ) (hF : Uses c₀ x₀) : Uses c₀ (Channel.stepConfirmed x₀ n delta) := by
  refine hF.trans ?_
  unfold Channel.stepConfirmed
  try dsimp only
  repeat' first | with_reducible exact Uses.refl _ | with_reducible apply us_laneStat | with_reducible apply us_updLane | with_reducible apply us_startWin | with_reducible apply us_laneTo | fail_if_no_progress (with_reducible apply Uses.upd) | with_reducible apply Uses.ite | with_reducible apply Uses.ite2 | split

theorem us_judge {c₀ x₀ : Channel} (r : MeasRec) (dis : Bool) (hF : Uses c₀ x₀) : Uses c₀ (Channel.judge x₀ r dis) := by
  refine hF.trans ?_
  unfold Channel.judge
  try dsimp only
  repeat' first | with_reducible exact Uses.refl _ | with_reducible apply us_laneStat | with_reducible apply us_updLane | with_reducible apply us_startDq | with_reducible apply us_laneTo | with_reducible apply us_startWin | fail_if_no_progress (with_reducible apply Uses.upd) | with_reducible apply Uses.ite | with_reducible apply Uses.ite2 | split

theorem us_putOutl {c₀ x₀ : Channel} (s : Servo) (n : LaneIx) (b : Bool) (k : ℕ) (hF : Uses c₀ x₀) : Uses c₀ (Channel.putOutl x₀ s n b k) := by
  refine hF.trans ?_
  unfold Channel.putOutl
  try dsimp only
  repeat' first | with_reducible exact Uses.refl _ | with_reducible apply us_setLane | with_reducible apply us_evt | fail_if_no_progress (with_reducible apply Uses.upd) | with_reducible apply Uses.ite | with_reducible apply Uses.ite2 | split

theorem us_medianRank {c₀ x₀ : Channel} (s : Servo) (rk : ℕ) (hF : Uses c₀ x₀) : Uses c₀ (Channel.medianRank s x₀ rk) := by
  refine hF.trans ?_
  unfold Channel.medianRank
  try dsimp only
  repeat' first | with_reducible exact Uses.refl _ | with_reducible apply us_putOutl | with_reducible apply Uses.ite | with_reducible apply Uses.ite2 | with_reducible apply Uses.fold | intro _ | split

theorem us_endContest {c₀ x₀ : Channel} (s : Servo) (k : Contest) (hF : Uses c₀ x₀) : Uses c₀ (Channel.endContest x₀ s k) := by
  refine hF.trans ?_
  unfold Channel.endContest
  try dsimp only
  repeat' first | with_reducible exact Uses.refl _ | with_reducible apply us_setSel | with_reducible apply us_laneTo | fail_if_no_progress (with_reducible apply Uses.upd) | with_reducible apply Uses.ite | with_reducible apply Uses.ite2 | with_reducible apply Uses.fold | intro _ | split

theorem us_contestEnds {c₀ x₀ : Channel} (s : Servo) (hF : Uses c₀ x₀) : Uses c₀ (Channel.contestEnds x₀ s) := by
  refine hF.trans ?_
  unfold Channel.contestEnds
  try dsimp only
  repeat' first | with_reducible exact Uses.refl _ | with_reducible apply us_endContest | with_reducible apply us_setSel | with_reducible apply Uses.ite | with_reducible apply Uses.ite2 | with_reducible apply Uses.fold | intro _ | split

theorem us_contestRank {c₀ x₀ : Channel} (s : Servo) (rk : ℕ) (hF : Uses c₀ x₀) : Uses c₀ (Channel.contestRank s x₀ rk) := by
  refine hF.trans ?_
  unfold Channel.contestRank
  try dsimp only
  repeat' first | with_reducible exact Uses.refl _ | with_reducible apply us_setSel | with_reducible apply us_evt | with_reducible apply us_laneTo | fail_if_no_progress (with_reducible apply Uses.upd) | with_reducible apply Uses.ite | with_reducible apply Uses.ite2 | split

theorem us_evalRanks {c₀ x₀ : Channel} (hF : Uses c₀ x₀) : Uses c₀ (Channel.evalRanks x₀) := by
  refine hF.trans ?_
  unfold Channel.evalRanks
  try dsimp only
  repeat' first | with_reducible exact Uses.refl _ | with_reducible apply us_contestEnds | with_reducible apply us_medianRank | with_reducible apply us_contestRank | with_reducible apply Uses.ite | with_reducible apply Uses.ite2 | with_reducible apply Uses.fold | intro _ | split

theorem us_cancelPv {c₀ x₀ : Channel} (s : Servo) (cause : ℕ) (hF : Uses c₀ x₀) : Uses c₀ (Channel.cancelPv x₀ s cause) := by
  refine hF.trans ?_
  unfold Channel.cancelPv
  try dsimp only
  repeat' first | with_reducible exact Uses.refl _ | with_reducible apply us_evt | with_reducible apply us_journal | with_reducible apply us_setSel | fail_if_no_progress (with_reducible apply Uses.upd) | with_reducible apply Uses.ite | with_reducible apply Uses.ite2 | split

theorem us_publishPv {c₀ x₀ : Channel} (s : Servo) (n : LaneIx) (pend : Bool) (hF : Uses c₀ x₀) : Uses c₀ (Channel.publishPv x₀ s n pend) := by
  refine hF.trans ?_
  unfold Channel.publishPv
  try dsimp only
  repeat' first | with_reducible exact Uses.refl _ | with_reducible apply us_evt | with_reducible apply us_journalAt | with_reducible apply us_setSel | fail_if_no_progress (with_reducible apply Uses.upd) | with_reducible apply Uses.ite | with_reducible apply Uses.ite2 | split

theorem us_keepWiden {c₀ x₀ : Channel} (s : Servo) (new : Option LaneIx) (hF : Uses c₀ x₀) : Uses c₀ (Channel.keepWiden x₀ s new) := by
  refine hF.trans ?_
  unfold Channel.keepWiden
  try dsimp only
  repeat' first | with_reducible exact Uses.refl _ | fail_if_no_progress (with_reducible apply Uses.upd) | with_reducible apply Uses.ite | with_reducible apply Uses.ite2 | split

theorem us_commitSel {c₀ x₀ : Channel} (s : Servo) (new : Option LaneIx) (cause : ℕ) (hF : Uses c₀ x₀) : Uses c₀ (Channel.commitSel x₀ s new cause) := by
  refine hF.trans ?_
  unfold Channel.commitSel
  try dsimp only
  repeat' first | with_reducible exact Uses.refl _ | with_reducible apply us_keepWiden | with_reducible apply us_journal | with_reducible apply us_setSel | with_reducible apply us_evt | with_reducible apply us_bookState | fail_if_no_progress (with_reducible apply Uses.upd) | with_reducible apply Uses.ite | with_reducible apply Uses.ite2 | split

theorem us_predict {c₀ x₀ : Channel} (s : Servo) (hF : Uses c₀ x₀) : Uses c₀ (Channel.predict x₀ s) := by
  refine hF.trans ?_
  unfold Channel.predict
  try dsimp only
  repeat' first | with_reducible exact Uses.refl _ | with_reducible apply us_cancelPv | with_reducible apply us_publishPv | with_reducible apply Uses.ite | with_reducible apply Uses.ite2 | split

theorem us_reserve {c₀ x₀ : Channel} (s : Servo) (n : LaneIx) (hF : Uses c₀ x₀) : Uses c₀ (Channel.reserve x₀ s n) := by
  refine hF.trans ?_
  unfold Channel.reserve
  try dsimp only
  repeat' first | with_reducible exact Uses.refl _ | with_reducible apply us_setSel | with_reducible apply us_predict | with_reducible apply us_cancelPv | with_reducible apply us_publishPv | with_reducible apply Uses.ite | with_reducible apply Uses.ite2 | split

theorem us_select {c₀ x₀ : Channel} (s : Servo) (hF : Uses c₀ x₀) : Uses c₀ (Channel.select x₀ s) := by
  refine hF.trans ?_
  unfold Channel.select
  try dsimp only
  repeat' first | with_reducible exact Uses.refl _ | with_reducible apply us_setSel | with_reducible apply us_reserve | with_reducible apply us_cancelPv | with_reducible apply us_commitSel | with_reducible apply us_predict | with_reducible apply Uses.ite | with_reducible apply Uses.ite2 | split

theorem us_refEval {c₀ x₀ : Channel} (hF : Uses c₀ x₀) : Uses c₀ (Channel.refEval x₀) := by
  refine hF.trans ?_
  unfold Channel.refEval
  try dsimp only
  repeat' first | with_reducible exact Uses.refl _ | with_reducible apply us_select | with_reducible apply us_evalRanks | fail_if_no_progress (with_reducible apply Uses.upd) | with_reducible apply Uses.ite | with_reducible apply Uses.ite2 | split

theorem us_registerRec {c₀ x₀ : Channel} (sync : LaneIx → ℕ) (r1 : MeasRec) (hF : Uses c₀ x₀) : Uses c₀ (Channel.registerRec x₀ sync r1) := by
  refine hF.trans ?_
  unfold Channel.registerRec
  try dsimp only
  repeat' first | with_reducible exact Uses.refl _ | with_reducible apply us_journalAt | with_reducible apply us_evt | with_reducible apply us_bump | with_reducible apply us_updLane | with_reducible apply us_judge | with_reducible apply us_startWin | with_reducible apply us_laneTo | with_reducible apply us_stepConfirmed | fail_if_no_progress (with_reducible apply Uses.upd) | with_reducible apply Uses.ite | with_reducible apply Uses.ite2 | split

theorem us_register {c₀ x₀ : Channel} (sync : LaneIx → ℕ) (r : MeasRec) (hF : Uses c₀ x₀) : Uses c₀ (Channel.register x₀ sync r) := by
  refine hF.trans ?_
  unfold Channel.register
  try dsimp only
  repeat' first | with_reducible exact Uses.refl _ | with_reducible apply us_registerRec | with_reducible apply Uses.ite | with_reducible apply Uses.ite2 | split

theorem us_measure {c₀ x₀ : Channel} (lat : ℕ) (r : MeasRec) (hF : Uses c₀ x₀) : Uses c₀ (Channel.measure x₀ lat r) := by
  refine hF.trans ?_
  unfold Channel.measure
  try dsimp only
  repeat' first | with_reducible exact Uses.refl _ | fail_if_no_progress (with_reducible apply Uses.upd) | with_reducible apply Uses.ite | with_reducible apply Uses.ite2 | split

theorem us_registerDue {c₀ x₀ : Channel} (sync : LaneIx → ℕ) (hF : Uses c₀ x₀) : Uses c₀ (Channel.registerDue x₀ sync) := by
  refine hF.trans ?_
  unfold Channel.registerDue
  try dsimp only
  repeat' first | with_reducible exact Uses.refl _ | with_reducible apply us_register | fail_if_no_progress (with_reducible apply Uses.upd) | with_reducible apply Uses.ite | with_reducible apply Uses.ite2 | with_reducible apply Uses.fold | intro _ | split

theorem us_missExpiry {c₀ x₀ : Channel} (n : LaneIx) (hF : Uses c₀ x₀) : Uses c₀ (Channel.missExpiry x₀ n) := by
  refine hF.trans ?_
  unfold Channel.missExpiry
  try dsimp only
  repeat' first | with_reducible exact Uses.refl _ | with_reducible apply us_updLane | with_reducible apply us_laneTo | with_reducible apply Uses.ite | with_reducible apply Uses.ite2 | split

theorem us_windowExpiry {c₀ x₀ : Channel} (n : LaneIx) (hF : Uses c₀ x₀) : Uses c₀ (Channel.windowExpiry x₀ n) := by
  refine hF.trans ?_
  unfold Channel.windowExpiry
  try dsimp only
  repeat' first | with_reducible exact Uses.refl _ | with_reducible apply us_missExpiry | with_reducible apply us_startWin | with_reducible apply us_laneTo | with_reducible apply us_updLane | fail_if_no_progress (with_reducible apply Uses.upd) | with_reducible apply Uses.ite | with_reducible apply Uses.ite2 | split

theorem us_wtrExpiry {c₀ x₀ : Channel} (n : LaneIx) (hF : Uses c₀ x₀) : Uses c₀ (Channel.wtrExpiry x₀ n) := by
  refine hF.trans ?_
  unfold Channel.wtrExpiry
  try dsimp only
  repeat' first | with_reducible exact Uses.refl _ | with_reducible apply us_missExpiry | with_reducible apply us_laneTo | with_reducible apply us_updLane | fail_if_no_progress (with_reducible apply Uses.upd) | with_reducible apply Uses.ite | with_reducible apply Uses.ite2 | split

theorem us_dqExpiry {c₀ x₀ : Channel} (n : LaneIx) (hF : Uses c₀ x₀) : Uses c₀ (Channel.dqExpiry x₀ n) := by
  refine hF.trans ?_
  unfold Channel.dqExpiry
  try dsimp only
  repeat' first | with_reducible exact Uses.refl _ | with_reducible apply us_missExpiry | with_reducible apply us_updLane | with_reducible apply us_laneTo | with_reducible apply us_startWin | with_reducible apply Uses.ite | with_reducible apply Uses.ite2 | split

theorem us_force {c₀ x₀ : Channel} (sync : LaneIx → ℕ) (n : LaneIx) (hF : Uses c₀ x₀) : Uses c₀ (Channel.force x₀ sync n) := by
  refine hF.trans ?_
  unfold Channel.force
  try dsimp only
  repeat' first | with_reducible exact Uses.refl _ | with_reducible apply us_laneTo | with_reducible apply us_updLane | fail_if_no_progress (with_reducible apply Uses.upd) | with_reducible apply Uses.ite | with_reducible apply Uses.ite2 | split

theorem us_unforce {c₀ x₀ : Channel} (n : LaneIx) (hF : Uses c₀ x₀) : Uses c₀ (Channel.unforce x₀ n) := by
  refine hF.trans ?_
  unfold Channel.unforce
  try dsimp only
  repeat' first | with_reducible exact Uses.refl _ | with_reducible apply us_updLane | with_reducible apply us_laneTo | with_reducible apply us_startWin | with_reducible apply Uses.ite | with_reducible apply Uses.ite2 | split

theorem us_requal {c₀ x₀ : Channel} (n : LaneIx) (hF : Uses c₀ x₀) : Uses c₀ (Channel.requal x₀ n) := by
  refine hF.trans ?_
  unfold Channel.requal
  try dsimp only
  repeat' first | with_reducible exact Uses.refl _ | with_reducible apply us_startWin | with_reducible apply us_laneTo | with_reducible apply Uses.ite | with_reducible apply Uses.ite2 | split

theorem us_dropDisabled {c₀ x₀ : Channel} (hF : Uses c₀ x₀) : Uses c₀ (Channel.dropDisabled x₀) := by
  refine hF.trans ?_
  unfold Channel.dropDisabled
  try dsimp only
  repeat' first | with_reducible exact Uses.refl _ | with_reducible apply us_laneTo | with_reducible apply Uses.ite | with_reducible apply Uses.ite2 | with_reducible apply Uses.fold | intro _ | split

theorem us_approveSwitch {c₀ x₀ : Channel} (s : Servo) (hF : Uses c₀ x₀) : Uses c₀ (Channel.approveSwitch x₀ s) := by
  refine hF.trans ?_
  unfold Channel.approveSwitch
  try dsimp only
  repeat' first | with_reducible exact Uses.refl _ | with_reducible apply us_commitSel | with_reducible apply Uses.ite | with_reducible apply Uses.ite2 | split

theorem us_denySwitch {c₀ x₀ : Channel} (s : Servo) (hF : Uses c₀ x₀) : Uses c₀ (Channel.denySwitch x₀ s) := by
  refine hF.trans ?_
  unfold Channel.denySwitch
  try dsimp only
  repeat' first | with_reducible exact Uses.refl _ | with_reducible apply us_cancelPv | with_reducible apply us_setSel | with_reducible apply Uses.ite | with_reducible apply Uses.ite2 | split

theorem us_setDpll {c₀ x₀ : Channel} (d : DpllSt) (hF : Uses c₀ x₀) : Uses c₀ (Channel.setDpll x₀ d) := by
  refine hF.trans ?_
  unfold Channel.setDpll
  try dsimp only
  repeat' first | with_reducible exact Uses.refl _ | fail_if_no_progress (with_reducible apply Uses.upd) | with_reducible apply Uses.ite | with_reducible apply Uses.ite2 | split

theorem us_stateTo {c₀ x₀ : Channel} (st : ChanSt) (hF : Uses c₀ x₀) : Uses c₀ (Channel.stateTo x₀ st) := by
  refine hF.trans ?_
  unfold Channel.stateTo
  try dsimp only
  repeat' first | with_reducible exact Uses.refl _ | with_reducible apply us_setDpll | with_reducible apply us_evt | with_reducible apply us_journal | fail_if_no_progress (with_reducible apply Uses.upd) | with_reducible apply Uses.ite | with_reducible apply Uses.ite2 | split

theorem us_bStateTo {c₀ x₀ : Channel} (st : BSt) (hF : Uses c₀ x₀) : Uses c₀ (Channel.bStateTo x₀ st) := by
  refine hF.trans ?_
  unfold Channel.bStateTo
  try dsimp only
  repeat' first | with_reducible exact Uses.refl _ | with_reducible apply us_setDpll | with_reducible apply us_evt | with_reducible apply us_journal | fail_if_no_progress (with_reducible apply Uses.upd) | with_reducible apply Uses.ite | with_reducible apply Uses.ite2 | split

theorem us_setRate {c₀ x₀ : Channel} (v : ℤ) (hF : Uses c₀ x₀) : Uses c₀ (Channel.setRate x₀ v) := by
  refine hF.trans ?_
  unfold Channel.setRate
  try dsimp only
  repeat' first | with_reducible exact Uses.refl _ | with_reducible apply us_setDpll | with_reducible apply us_evt | fail_if_no_progress (with_reducible apply Uses.upd) | with_reducible apply Uses.ite | with_reducible apply Uses.ite2 | split

theorem us_moveCtr {c₀ x₀ : Channel} (delta : Gt) (hF : Uses c₀ x₀) : Uses c₀ (Channel.moveCtr x₀ delta) := by
  refine hF.trans ?_
  unfold Channel.moveCtr
  try dsimp only
  repeat' first | with_reducible exact Uses.refl _ | with_reducible apply us_setDpll | with_reducible apply Uses.ite | with_reducible apply Uses.ite2 | split

theorem us_bookStep {c₀ x₀ : Channel} (org : Origin) (delta : Gt) (hF : Uses c₀ x₀) : Uses c₀ (Channel.bookStep x₀ org delta) := by
  refine hF.trans ?_
  unfold Channel.bookStep
  try dsimp only
  repeat' first | with_reducible exact Uses.refl _ | with_reducible apply us_bookState | fail_if_no_progress (with_reducible apply Uses.upd) | with_reducible apply Uses.ite | with_reducible apply Uses.ite2 | split

theorem us_ringAdd {c₀ x₀ : Channel} (e : RingEnt) (hF : Uses c₀ x₀) : Uses c₀ (Channel.ringAdd x₀ e) := by
  refine hF.trans ?_
  unfold Channel.ringAdd
  try dsimp only
  repeat' first | with_reducible exact Uses.refl _ | with_reducible apply us_setDpll | with_reducible apply Uses.ite | with_reducible apply Uses.ite2 | split

theorem us_switchDone {c₀ x₀ : Channel} (s : Servo) (hF : Uses c₀ x₀) : Uses c₀ (Channel.switchDone x₀ s) := by
  refine hF.trans ?_
  unfold Channel.switchDone
  try dsimp only
  repeat' first | with_reducible exact Uses.refl _ | with_reducible apply us_setSel | with_reducible apply Uses.ite | with_reducible apply Uses.ite2 | split

theorem us_updateState {c₀ x₀ : Channel} (ax : ℕ) (hF : Uses c₀ x₀) : Uses c₀ (Channel.updateState x₀ ax) := by
  refine hF.trans ?_
  unfold Channel.updateState
  try dsimp only
  repeat' first | with_reducible exact Uses.refl _ | with_reducible apply us_setDpll | fail_if_no_progress (with_reducible apply Uses.upd) | with_reducible apply Uses.ite | with_reducible apply Uses.ite2 | split

theorem us_applyA {c₀ x₀ : Channel} (r : MeasRec) (hF : Uses c₀ x₀) : Uses c₀ (Channel.applyA x₀ r) := by
  refine hF.trans ?_
  unfold Channel.applyA
  try dsimp only
  repeat' first | with_reducible exact Uses.refl _ | with_reducible apply us_moveCtr | with_reducible apply us_evt | with_reducible apply us_bookStep | with_reducible apply us_setDpll | with_reducible apply us_setRate | with_reducible apply us_ringAdd | with_reducible apply us_updateState | with_reducible apply us_journal | with_reducible apply us_stateTo | fail_if_no_progress (with_reducible apply Uses.upd) | with_reducible apply Uses.ite | with_reducible apply Uses.ite2 | split

theorem us_applyB {c₀ x₀ : Channel} (r : MeasRec) (hF : Uses c₀ x₀) : Uses c₀ (Channel.applyB x₀ r) := by
  refine hF.trans ?_
  unfold Channel.applyB
  try dsimp only
  repeat' first | with_reducible exact Uses.refl _ | with_reducible apply us_setDpll | with_reducible apply us_bStateTo | with_reducible apply us_journal | fail_if_no_progress (with_reducible apply Uses.upd) | with_reducible apply Uses.ite | with_reducible apply Uses.ite2 | split

theorem us_acquireStart {c₀ x₀ : Channel} (hF : Uses c₀ x₀) : Uses c₀ (Channel.acquireStart x₀) := by
  refine hF.trans ?_
  unfold Channel.acquireStart
  try dsimp only
  repeat' first | with_reducible exact Uses.refl _ | with_reducible apply us_stateTo | with_reducible apply us_setDpll | fail_if_no_progress (with_reducible apply Uses.upd) | with_reducible apply Uses.ite | with_reducible apply Uses.ite2 | split

theorem us_enterHo {c₀ x₀ : Channel} (entry : Gt) (h : Bound) (hF : Uses c₀ x₀) : Uses c₀ (Channel.enterHo x₀ entry h) := by
  refine hF.trans ?_
  unfold Channel.enterHo
  try dsimp only
  repeat' first | with_reducible exact Uses.refl _ | with_reducible apply us_stateTo | with_reducible apply us_setDpll | with_reducible apply Uses.ite | with_reducible apply Uses.ite2 | split

theorem us_loseLaneA {c₀ x₀ : Channel} (hF : Uses c₀ x₀) : Uses c₀ (Channel.loseLaneA x₀) := by
  refine hF.trans ?_
  unfold Channel.loseLaneA
  try dsimp only
  repeat' first | with_reducible exact Uses.refl _ | with_reducible apply us_enterHo | with_reducible apply us_stateTo | with_reducible apply us_setDpll | with_reducible apply Uses.ite | with_reducible apply Uses.ite2 | split

theorem us_loseLaneB {c₀ x₀ : Channel} (hF : Uses c₀ x₀) : Uses c₀ (Channel.loseLaneB x₀) := by
  refine hF.trans ?_
  unfold Channel.loseLaneB
  try dsimp only
  repeat' first | with_reducible exact Uses.refl _ | with_reducible apply us_bStateTo | with_reducible apply us_setDpll | with_reducible apply Uses.ite | with_reducible apply Uses.ite2 | split

theorem us_holdoverEntry {c₀ x₀ : Channel} (hF : Uses c₀ x₀) : Uses c₀ (Channel.holdoverEntry x₀) := by
  refine hF.trans ?_
  unfold Channel.holdoverEntry
  try dsimp only
  repeat' first | with_reducible exact Uses.refl _ | with_reducible apply us_loseLaneB | with_reducible apply us_loseLaneA | with_reducible apply Uses.ite | with_reducible apply Uses.ite2 | split

theorem us_limitEntry {c₀ x₀ : Channel} (hF : Uses c₀ x₀) : Uses c₀ (Channel.limitEntry x₀) := by
  refine hF.trans ?_
  unfold Channel.limitEntry
  try dsimp only
  repeat' first | with_reducible exact Uses.refl _ | with_reducible apply us_stateTo | with_reducible apply us_evt | fail_if_no_progress (with_reducible apply Uses.upd) | with_reducible apply Uses.ite | with_reducible apply Uses.ite2 | split

theorem us_hoAging {c₀ x₀ : Channel} (hF : Uses c₀ x₀) : Uses c₀ (Channel.hoAging x₀) := by
  refine hF.trans ?_
  unfold Channel.hoAging
  try dsimp only
  repeat' first | with_reducible exact Uses.refl _ | with_reducible apply us_setRate | with_reducible apply us_setDpll | fail_if_no_progress (with_reducible apply Uses.upd) | with_reducible apply Uses.ite | with_reducible apply Uses.ite2 | split

theorem us_charJournal {c₀ x₀ : Channel} (org : Origin) (v : ℕ) (hF : Uses c₀ x₀) : Uses c₀ (Channel.charJournal x₀ org v) := by
  refine hF.trans ?_
  unfold Channel.charJournal
  try dsimp only
  repeat' first | with_reducible exact Uses.refl _ | with_reducible apply us_journal | fail_if_no_progress (with_reducible apply Uses.upd) | with_reducible apply Uses.ite | with_reducible apply Uses.ite2 | split

theorem us_charStart {c₀ x₀ : Channel} (slot : ℕ) (nsamp : ℕ) (org : Origin) (hF : Uses c₀ x₀) : Uses c₀ (Channel.charStart x₀ slot nsamp org) := by
  refine hF.trans ?_
  unfold Channel.charStart
  try dsimp only
  repeat' first | with_reducible exact Uses.refl _ | with_reducible apply us_charJournal | with_reducible apply us_setDpll | with_reducible apply Uses.ite | with_reducible apply Uses.ite2 | split

theorem us_charEnd {c₀ x₀ : Channel} (result : ℕ) (hF : Uses c₀ x₀) : Uses c₀ (Channel.charEnd x₀ result) := by
  refine hF.trans ?_
  unfold Channel.charEnd
  try dsimp only
  repeat' first | with_reducible exact Uses.refl _ | with_reducible apply us_charJournal | with_reducible apply us_setDpll | with_reducible apply Uses.ite | with_reducible apply Uses.ite2 | split

theorem us_charSample {c₀ x₀ : Channel} (hF : Uses c₀ x₀) : Uses c₀ (Channel.charSample x₀) := by
  refine hF.trans ?_
  unfold Channel.charSample
  try dsimp only
  repeat' first | with_reducible exact Uses.refl _ | with_reducible apply us_setDpll | with_reducible apply us_setWord | with_reducible apply us_put | with_reducible apply us_evt | with_reducible apply us_ask | with_reducible apply us_charEnd | fail_if_no_progress (with_reducible apply Uses.upd) | with_reducible apply Uses.ite | with_reducible apply Uses.ite2 | split

theorem us_doStep {c₀ x₀ : Channel} (delta : Gt) (org : Origin) (hF : Uses c₀ x₀) : Uses c₀ (Channel.doStep x₀ delta org) := by
  refine hF.trans ?_
  unfold Channel.doStep
  try dsimp only
  repeat' first | with_reducible exact Uses.refl _ | with_reducible apply us_setDpll | with_reducible apply us_moveCtr | with_reducible apply us_journal | with_reducible apply us_bumpBy | with_reducible apply us_evt | with_reducible apply us_bookStep | fail_if_no_progress (with_reducible apply Uses.upd) | with_reducible apply Uses.ite | with_reducible apply Uses.ite2 | split

theorem us_stepGo {c₀ x₀ : Channel} (org : Origin) (hF : Uses c₀ x₀) : Uses c₀ (Channel.stepGo x₀ org) := by
  refine hF.trans ?_
  unfold Channel.stepGo
  try dsimp only
  repeat' first | with_reducible exact Uses.refl _ | with_reducible apply us_evt | with_reducible apply us_put | with_reducible apply us_setDpll | fail_if_no_progress (with_reducible apply Uses.upd) | with_reducible apply Uses.ite | with_reducible apply Uses.ite2 | split

theorem us_stepAbort {c₀ x₀ : Channel} (hF : Uses c₀ x₀) : Uses c₀ (Channel.stepAbort x₀) := by
  refine hF.trans ?_
  unfold Channel.stepAbort
  try dsimp only
  repeat' first | with_reducible exact Uses.refl _ | with_reducible apply us_put | with_reducible apply us_setDpll | with_reducible apply us_evt | fail_if_no_progress (with_reducible apply Uses.upd) | with_reducible apply Uses.ite | with_reducible apply Uses.ite2 | split

theorem us_stepAbs {c₀ x₀ : Channel} (hF : Uses c₀ x₀) : Uses c₀ (Channel.stepAbs x₀) := by
  refine hF.trans ?_
  unfold Channel.stepAbs
  try dsimp only
  repeat' first | with_reducible exact Uses.refl _ | with_reducible apply us_put | with_reducible apply us_setDpll | with_reducible apply us_doStep | fail_if_no_progress (with_reducible apply Uses.upd) | with_reducible apply Uses.ite | with_reducible apply Uses.ite2 | split

theorem us_advanceTime {c₀ x₀ : Channel} (hF : Uses c₀ x₀) : Uses c₀ (Channel.advanceTime x₀) := by
  refine hF.trans ?_
  unfold Channel.advanceTime
  try dsimp only
  repeat' first | with_reducible exact Uses.refl _ | fail_if_no_progress (with_reducible apply Uses.upd) | with_reducible apply Uses.ite | with_reducible apply Uses.ite2 | split

theorem us_setSyn {c₀ x₀ : Channel} (y : SynBlk) (hF : Uses c₀ x₀) : Uses c₀ (Channel.setSyn x₀ y) := by
  refine hF.trans ?_
  unfold Channel.setSyn
  try dsimp only
  repeat' first | with_reducible exact Uses.refl _ | fail_if_no_progress (with_reducible apply Uses.upd) | with_reducible apply Uses.ite | with_reducible apply Uses.ite2 | split

theorem us_setSynK {c₀ x₀ : Channel} (k : ℕ) (x : SynK) (hF : Uses c₀ x₀) : Uses c₀ (Channel.setSynK x₀ k x) := by
  refine hF.trans ?_
  unfold Channel.setSynK
  try dsimp only
  repeat' first | with_reducible exact Uses.refl _ | with_reducible apply us_setSyn | with_reducible apply Uses.ite | with_reducible apply Uses.ite2 | split

theorem us_setSynK' {c₀ x₀ : Channel} (k : ℕ) (f : SynK → SynK) (hF : Uses c₀ x₀) : Uses c₀ (Channel.setSynK' x₀ k f) := by
  refine hF.trans ?_
  unfold Channel.setSynK'
  try dsimp only
  repeat' first | with_reducible exact Uses.refl _ | with_reducible apply us_setSynK | with_reducible apply Uses.ite | with_reducible apply Uses.ite2 | split

theorem us_updOut {c₀ x₀ : Channel} (m : Fin 8) (f : OutSt → OutSt) (hF : Uses c₀ x₀) : Uses c₀ (Channel.updOut x₀ m f) := by
  refine hF.trans ?_
  unfold Channel.updOut
  try dsimp only
  repeat' first | with_reducible exact Uses.refl _ | with_reducible apply us_setSyn | with_reducible apply Uses.ite | with_reducible apply Uses.ite2 | split

theorem us_updPls {c₀ x₀ : Channel} (j : Fin 2) (f : PlsSt → PlsSt) (hF : Uses c₀ x₀) : Uses c₀ (Channel.updPls x₀ j f) := by
  refine hF.trans ?_
  unfold Channel.updPls
  try dsimp only
  repeat' first | with_reducible exact Uses.refl _ | with_reducible apply us_setSyn | with_reducible apply Uses.ite | with_reducible apply Uses.ite2 | split

theorem us_stopOut {c₀ x₀ : Channel} (m : Fin 8) (planned : Bool) (f : OutSt → OutSt) (hF : Uses c₀ x₀) : Uses c₀ (Channel.stopOut x₀ m planned f) := by
  refine hF.trans ?_
  unfold Channel.stopOut
  try dsimp only
  repeat' first | with_reducible exact Uses.refl _ | with_reducible apply us_updOut | with_reducible apply Uses.ite | with_reducible apply Uses.ite2 | split

theorem us_release {c₀ x₀ : Channel} (m : Fin 8) (f : OutSt → OutSt) (hF : Uses c₀ x₀) : Uses c₀ (Channel.release x₀ m f) := by
  refine hF.trans ?_
  unfold Channel.release
  try dsimp only
  repeat' first | with_reducible exact Uses.refl _ | with_reducible apply us_updOut | with_reducible apply Uses.ite | with_reducible apply Uses.ite2 | split

theorem us_synTo {c₀ x₀ : Channel} (k : ℕ) (st : ℕ) (hF : Uses c₀ x₀) : Uses c₀ (Channel.synTo x₀ k st) := by
  refine hF.trans ?_
  unfold Channel.synTo
  try dsimp only
  repeat' first | with_reducible exact Uses.refl _ | with_reducible apply us_evt | with_reducible apply us_put | fail_if_no_progress (with_reducible apply Uses.upd) | with_reducible apply Uses.ite | with_reducible apply Uses.ite2 | split

theorem us_toAcq {c₀ x₀ : Channel} (k : ℕ) (stop : Bool) (planned : Bool) (hF : Uses c₀ x₀) : Uses c₀ (Channel.toAcq x₀ k stop planned) := by
  refine hF.trans ?_
  unfold Channel.toAcq
  try dsimp only
  repeat' first | with_reducible exact Uses.refl _ | with_reducible apply us_setSynK | with_reducible apply us_synTo | with_reducible apply us_release | with_reducible apply us_stopOut | with_reducible apply us_updOut | with_reducible apply Uses.ite | with_reducible apply Uses.ite2 | with_reducible apply Uses.fold | intro _ | split

theorem us_toCoast {c₀ x₀ : Channel} (k : ℕ) (flag : KF) (hF : Uses c₀ x₀) : Uses c₀ (Channel.toCoast x₀ k flag) := by
  refine hF.trans ?_
  unfold Channel.toCoast
  try dsimp only
  repeat' first | with_reducible exact Uses.refl _ | with_reducible apply us_bump | with_reducible apply us_evt | with_reducible apply us_synTo | with_reducible apply us_stopOut | with_reducible apply us_updOut | fail_if_no_progress (with_reducible apply Uses.upd) | with_reducible apply Uses.ite | with_reducible apply Uses.ite2 | with_reducible apply Uses.fold | intro _ | split

theorem us_setPerr {c₀ x₀ : Channel} (k : ℕ) (e : ℤ) (hF : Uses c₀ x₀) : Uses c₀ (Channel.setPerr x₀ k e) := by
  refine hF.trans ?_
  unfold Channel.setPerr
  try dsimp only
  repeat' first | with_reducible exact Uses.refl _ | with_reducible apply us_put | fail_if_no_progress (with_reducible apply Uses.upd) | with_reducible apply Uses.ite | with_reducible apply Uses.ite2 | split

theorem us_refLoss {c₀ x₀ : Channel} (k : ℕ) (hF : Uses c₀ x₀) : Uses c₀ (Channel.refLoss x₀ k) := by
  refine hF.trans ?_
  unfold Channel.refLoss
  try dsimp only
  repeat' first | with_reducible exact Uses.refl _ | with_reducible apply us_toCoast | fail_if_no_progress (with_reducible apply Uses.upd) | with_reducible apply Uses.ite | with_reducible apply Uses.ite2 | split

theorem us_noLock {c₀ x₀ : Channel} (k : ℕ) (hF : Uses c₀ x₀) : Uses c₀ (Channel.noLock x₀ k) := by
  refine hF.trans ?_
  unfold Channel.noLock
  try dsimp only
  repeat' first | with_reducible exact Uses.refl _ | with_reducible apply us_ask | with_reducible apply us_evt | with_reducible apply us_setSynK | fail_if_no_progress (with_reducible apply Uses.upd) | with_reducible apply Uses.ite | with_reducible apply Uses.ite2 | split

theorem us_stageSettle {c₀ x₀ : Channel} (hF : Uses c₀ x₀) : Uses c₀ (Channel.stageSettle x₀) := by
  refine hF.trans ?_
  unfold Channel.stageSettle
  try dsimp only
  repeat' first | with_reducible exact Uses.refl _ | with_reducible apply us_evt | with_reducible apply us_put | with_reducible apply us_setSyn | fail_if_no_progress (with_reducible apply Uses.upd) | with_reducible apply Uses.ite | with_reducible apply Uses.ite2 | split

theorem us_synCommit {c₀ x₀ : Channel} (hF : Uses c₀ x₀) : Uses c₀ (Channel.synCommit x₀) := by
  refine hF.trans ?_
  unfold Channel.synCommit
  try dsimp only
  repeat' first | with_reducible exact Uses.refl _ | with_reducible apply us_evt | with_reducible apply us_put | with_reducible apply us_setSyn | fail_if_no_progress (with_reducible apply Uses.upd) | with_reducible apply Uses.ite | with_reducible apply Uses.ite2 | split

theorem us_countFrom {c₀ x₀ : Channel} (s : SynStage) (k : ℕ) (b : ℤ) (hF : Uses c₀ x₀) : Uses c₀ (Channel.countFrom x₀ s k b) := by
  refine hF.trans ?_
  unfold Channel.countFrom
  try dsimp only
  repeat' first | with_reducible exact Uses.refl _ | with_reducible apply us_setSynK | fail_if_no_progress (with_reducible apply Uses.upd) | with_reducible apply Uses.ite | with_reducible apply Uses.ite2 | split

theorem us_partDone {c₀ x₀ : Channel} (s : SynStage) (k : ℕ) (hF : Uses c₀ x₀) : Uses c₀ (Channel.partDone x₀ s k) := by
  refine hF.trans ?_
  unfold Channel.partDone
  try dsimp only
  repeat' first | with_reducible exact Uses.refl _ | with_reducible apply us_stageSettle | with_reducible apply us_setSyn | with_reducible apply Uses.ite | with_reducible apply Uses.ite2 | split

theorem us_squelch {c₀ x₀ : Channel} (hF : Uses c₀ x₀) : Uses c₀ (Channel.squelch x₀) := by
  refine hF.trans ?_
  unfold Channel.squelch
  try dsimp only
  repeat' first | with_reducible exact Uses.refl _ | with_reducible apply us_stopOut | with_reducible apply us_release | with_reducible apply us_updPls | fail_if_no_progress (with_reducible apply Uses.upd) | with_reducible apply Uses.ite | with_reducible apply Uses.ite2 | with_reducible apply Uses.fold | intro _ | split

theorem us_pulseEdge {c₀ x₀ : Channel} (j : Fin 2) (hF : Uses c₀ x₀) : Uses c₀ (Channel.pulseEdge x₀ j) := by
  refine hF.trans ?_
  unfold Channel.pulseEdge
  try dsimp only
  repeat' first | with_reducible exact Uses.refl _ | with_reducible apply us_updPls | with_reducible apply us_evt | with_reducible apply us_bump | with_reducible apply us_ask | with_reducible apply us_setSyn | fail_if_no_progress (with_reducible apply Uses.upd) | with_reducible apply Uses.ite | with_reducible apply Uses.ite2 | split

theorem us_todSend {c₀ x₀ : Channel} (hF : Uses c₀ x₀) : Uses c₀ (Channel.todSend x₀) := by
  refine hF.trans ?_
  unfold Channel.todSend
  try dsimp only
  repeat' first | with_reducible exact Uses.refl _ | with_reducible apply us_setSyn | with_reducible apply us_ask | with_reducible apply us_bump | fail_if_no_progress (with_reducible apply Uses.upd) | with_reducible apply Uses.ite | with_reducible apply Uses.ite2 | split

theorem us_raGo {c₀ x₀ : Channel} (hF : Uses c₀ x₀) : Uses c₀ (Channel.raGo x₀) := by
  refine hF.trans ?_
  unfold Channel.raGo
  try dsimp only
  repeat' first | with_reducible exact Uses.refl _ | with_reducible apply us_evt | with_reducible apply us_put | with_reducible apply us_setSyn | fail_if_no_progress (with_reducible apply Uses.upd) | with_reducible apply Uses.ite | with_reducible apply Uses.ite2 | split

theorem us_raAuto {c₀ x₀ : Channel} (hF : Uses c₀ x₀) : Uses c₀ (Channel.raAuto x₀) := by
  refine hF.trans ?_
  unfold Channel.raAuto
  try dsimp only
  repeat' first | with_reducible exact Uses.refl _ | with_reducible apply us_raGo | with_reducible apply us_ask | fail_if_no_progress (with_reducible apply Uses.upd) | with_reducible apply Uses.ite | with_reducible apply Uses.ite2 | split

theorem us_jumpSwitch {c₀ x₀ : Channel} (hF : Uses c₀ x₀) : Uses c₀ (Channel.jumpSwitch x₀) := by
  refine hF.trans ?_
  unfold Channel.jumpSwitch
  try dsimp only
  repeat' first | with_reducible exact Uses.refl _ | with_reducible apply us_setSyn | with_reducible apply us_evt | with_reducible apply us_bumpBy | with_reducible apply us_put | with_reducible apply us_toAcq | fail_if_no_progress (with_reducible apply Uses.upd) | with_reducible apply Uses.ite | with_reducible apply Uses.ite2 | with_reducible apply Uses.fold | intro _ | split

theorem us_slewDone {c₀ x₀ : Channel} (hF : Uses c₀ x₀) : Uses c₀ (Channel.slewDone x₀) := by
  refine hF.trans ?_
  unfold Channel.slewDone
  try dsimp only
  repeat' first | with_reducible exact Uses.refl _ | with_reducible apply us_evt | with_reducible apply us_put | with_reducible apply us_setSyn | fail_if_no_progress (with_reducible apply Uses.upd) | with_reducible apply Uses.ite | with_reducible apply Uses.ite2 | split

theorem us_setPmu {c₀ x₀ : Channel} (p : PmuBlk) (hF : Uses c₀ x₀) : Uses c₀ (Channel.setPmu x₀ p) := by
  refine hF.trans ?_
  unfold Channel.setPmu
  try dsimp only
  repeat' first | with_reducible exact Uses.refl _ | fail_if_no_progress (with_reducible apply Uses.upd) | with_reducible apply Uses.ite | with_reducible apply Uses.ite2 | split

theorem us_putPmc {c₀ x₀ : Channel} (k : ℕ) (v : ℕ) (hF : Uses c₀ x₀) : Uses c₀ (Channel.putPmc x₀ k v) := by
  refine hF.trans ?_
  unfold Channel.putPmc
  try dsimp only
  repeat' first | with_reducible exact Uses.refl _ | with_reducible apply us_put | fail_if_no_progress (with_reducible apply Uses.upd) | with_reducible apply Uses.ite | with_reducible apply Uses.ite2 | split

theorem us_pmcAdd {c₀ x₀ : Channel} (n : ℕ) (k : ℕ) (hF : Uses c₀ x₀) : Uses c₀ (Channel.pmcAdd n k x₀) := by
  refine hF.trans ?_
  unfold Channel.pmcAdd
  try dsimp only
  repeat' first | with_reducible exact Uses.refl _ | with_reducible apply us_putPmc | with_reducible apply us_evt | with_reducible apply us_evtMask | with_reducible apply us_free | with_reducible apply us_setPmu | fail_if_no_progress (with_reducible apply Uses.upd) | with_reducible apply Uses.ite | with_reducible apply Uses.ite2 | split

theorem us_pmuBy {c₀ x₀ : Channel} (ev : ℕ) (port : Option PortIx) (n : ℕ) (hF : Uses c₀ x₀) : Uses c₀ (Channel.pmuBy x₀ ev port n) := by
  refine hF.trans ?_
  unfold Channel.pmuBy
  try dsimp only
  repeat' first | with_reducible exact Uses.refl _ | with_reducible apply us_pmcAdd | fail_if_no_progress (with_reducible apply Uses.upd) | with_reducible apply Uses.ite | with_reducible apply Uses.ite2 | with_reducible apply Uses.fold | intro _ | split

theorem us_pmuEvt {c₀ x₀ : Channel} (ev : ℕ) (p : PortIx) (hF : Uses c₀ x₀) : Uses c₀ (Channel.pmuEvt x₀ ev p) := by
  refine hF.trans ?_
  unfold Channel.pmuEvt
  try dsimp only
  repeat' first | with_reducible exact Uses.refl _ | with_reducible apply us_pmuBy | with_reducible apply Uses.ite | with_reducible apply Uses.ite2 | split

theorem us_workSlots {c₀ x₀ : Channel} (hF : Uses c₀ x₀) : Uses c₀ (Channel.workSlots x₀).2 := by
  refine hF.trans ?_
  unfold Channel.workSlots
  try dsimp only
  repeat' first | with_reducible exact Uses.refl _ | with_reducible apply us_free | with_reducible apply us_setPmu | with_reducible apply Uses.ite | with_reducible apply Uses.ite2 | split

theorem us_resolve {c₀ x₀ : Channel} (waste : Bool) (w : ℕ) (hF : Uses c₀ x₀) : Uses c₀ (Channel.resolve x₀ waste w) := by
  refine hF.trans ?_
  unfold Channel.resolve
  try dsimp only
  repeat' first | with_reducible exact Uses.refl _ | with_reducible apply us_pmuBy | with_reducible apply us_setPmu | with_reducible apply Uses.ite | with_reducible apply Uses.ite2 | split

theorem us_pmuTick {c₀ x₀ : Channel} (hF : Uses c₀ x₀) : Uses c₀ (Channel.pmuTick x₀) := by
  refine hF.trans ?_
  unfold Channel.pmuTick
  try dsimp only
  repeat' first | with_reducible exact Uses.refl _ | with_reducible apply us_pmuBy | with_reducible apply us_setPmu | with_reducible apply us_free | with_reducible apply Uses.ite | with_reducible apply Uses.ite2 | split

theorem us_put48 {c₀ x₀ : Channel} (lo : ℕ) (hi : ℕ) (v : ℕ) (hF : Uses c₀ x₀) : Uses c₀ (Channel.put48 x₀ lo hi v) := by
  refine hF.trans ?_
  unfold Channel.put48
  try dsimp only
  repeat' first | with_reducible exact Uses.refl _ | with_reducible apply us_setWord | fail_if_no_progress (with_reducible apply Uses.upd) | with_reducible apply Uses.ite | with_reducible apply Uses.ite2 | split

theorem us_tdSnap {c₀ x₀ : Channel} (hF : Uses c₀ x₀) : Uses c₀ (Channel.tdSnap x₀) := by
  refine hF.trans ?_
  unfold Channel.tdSnap
  try dsimp only
  repeat' first | with_reducible exact Uses.refl _ | with_reducible apply us_put48 | with_reducible apply us_setWord | fail_if_no_progress (with_reducible apply Uses.upd) | with_reducible apply Uses.ite | with_reducible apply Uses.ite2 | with_reducible apply Uses.fold | intro _ | split

theorem us_pmuCapture {c₀ x₀ : Channel} (smp : PmuSample) (hF : Uses c₀ x₀) : Uses c₀ (Channel.pmuCapture x₀ smp) := by
  refine hF.trans ?_
  unfold Channel.pmuCapture
  try dsimp only
  repeat' first | with_reducible exact Uses.refl _ | with_reducible apply us_setPmu | with_reducible apply us_evt | with_reducible apply us_put | with_reducible apply us_bumpBy | fail_if_no_progress (with_reducible apply Uses.upd) | with_reducible apply Uses.ite | with_reducible apply Uses.ite2 | with_reducible apply Uses.fold | intro _ | split

theorem us_bwAdd {c₀ x₀ : Channel} (p : PortIx) (f : BwRun → BwRun) (hF : Uses c₀ x₀) : Uses c₀ (Channel.bwAdd x₀ p f) := by
  refine hF.trans ?_
  unfold Channel.bwAdd
  try dsimp only
  repeat' first | with_reducible exact Uses.refl _ | with_reducible apply us_setPmu | with_reducible apply Uses.ite | with_reducible apply Uses.ite2 | split

theorem us_bwRx {c₀ x₀ : Channel} (p : PortIx) (n : ℕ) (hF : Uses c₀ x₀) : Uses c₀ (Channel.bwRx x₀ p n) := by
  refine hF.trans ?_
  unfold Channel.bwRx
  try dsimp only
  repeat' first | with_reducible exact Uses.refl _ | with_reducible apply us_bwAdd | with_reducible apply Uses.ite | with_reducible apply Uses.ite2 | split

theorem us_bwTx {c₀ x₀ : Channel} (p : PortIx) (n : ℕ) (hF : Uses c₀ x₀) : Uses c₀ (Channel.bwTx x₀ p n) := by
  refine hF.trans ?_
  unfold Channel.bwTx
  try dsimp only
  repeat' first | with_reducible exact Uses.refl _ | with_reducible apply us_bwAdd | with_reducible apply Uses.ite | with_reducible apply Uses.ite2 | split

theorem us_bwLatch {c₀ x₀ : Channel} (p : PortIx) (hF : Uses c₀ x₀) : Uses c₀ (Channel.bwLatch x₀ p) := by
  refine hF.trans ?_
  unfold Channel.bwLatch
  try dsimp only
  repeat' first | with_reducible exact Uses.refl _ | with_reducible apply us_put48 | with_reducible apply us_setWord | with_reducible apply us_setPmu | fail_if_no_progress (with_reducible apply Uses.upd) | with_reducible apply Uses.ite | with_reducible apply Uses.ite2 | split

theorem us_bwWindowEnd {c₀ x₀ : Channel} (hF : Uses c₀ x₀) : Uses c₀ (Channel.bwWindowEnd x₀) := by
  refine hF.trans ?_
  unfold Channel.bwWindowEnd
  try dsimp only
  repeat' first | with_reducible exact Uses.refl _ | with_reducible apply us_bwLatch | with_reducible apply Uses.ite | with_reducible apply Uses.ite2 | split

theorem us_bwRestart {c₀ x₀ : Channel} (hF : Uses c₀ x₀) : Uses c₀ (Channel.bwRestart x₀) := by
  refine hF.trans ?_
  unfold Channel.bwRestart
  try dsimp only
  repeat' first | with_reducible exact Uses.refl _ | with_reducible apply us_put48 | with_reducible apply us_setPmu | with_reducible apply Uses.ite | with_reducible apply Uses.ite2 | with_reducible apply Uses.fold | intro _ | split

theorem us_pkClr {c₀ x₀ : Channel} (p : PortIx) (hF : Uses c₀ x₀) : Uses c₀ (Channel.pkClr x₀ p) := by
  refine hF.trans ?_
  unfold Channel.pkClr
  try dsimp only
  repeat' first | with_reducible exact Uses.refl _ | with_reducible apply us_setPmu | with_reducible apply Uses.ite | with_reducible apply Uses.ite2 | split

theorem us_setSched {c₀ x₀ : Channel} (s : SchedBlk) (hF : Uses c₀ x₀) : Uses c₀ (Channel.setSched x₀ s) := by
  refine hF.trans ?_
  unfold Channel.setSched
  try dsimp only
  repeat' first | with_reducible exact Uses.refl _ | fail_if_no_progress (with_reducible apply Uses.upd) | with_reducible apply Uses.ite | with_reducible apply Uses.ite2 | split

theorem us_setSp {c₀ x₀ : Channel} (p : PortIx) (x : SchedPort) (hF : Uses c₀ x₀) : Uses c₀ (Channel.setSp x₀ p x) := by
  refine hF.trans ?_
  unfold Channel.setSp
  try dsimp only
  repeat' first | with_reducible exact Uses.refl _ | with_reducible apply us_setSched | with_reducible apply Uses.ite | with_reducible apply Uses.ite2 | split

theorem us_putEq {c₀ x₀ : Channel} (p : PortIx) (q : ℕ) (e : EQueue) (hF : Uses c₀ x₀) : Uses c₀ (Channel.putEq x₀ p q e) := by
  refine hF.trans ?_
  unfold Channel.putEq
  try dsimp only
  repeat' first | with_reducible exact Uses.refl _ | with_reducible apply us_setSp | with_reducible apply Uses.ite | with_reducible apply Uses.ite2 | split

theorem us_putPol {c₀ x₀ : Channel} (i : ℕ) (e : PolEntry) (hF : Uses c₀ x₀) : Uses c₀ (Channel.putPol x₀ i e) := by
  refine hF.trans ?_
  unfold Channel.putPol
  try dsimp only
  repeat' first | with_reducible exact Uses.refl _ | with_reducible apply us_setSched | with_reducible apply Uses.ite | with_reducible apply Uses.ite2 | split

theorem us_policeReq {c₀ x₀ : Channel} (group : ℕ) (len : ℕ) (hF : Uses c₀ x₀) : Uses c₀ (Channel.policeReq x₀ group len).2 := by
  refine hF.trans ?_
  unfold Channel.policeReq
  try dsimp only
  repeat' first | with_reducible exact Uses.refl _ | with_reducible apply us_putPol | with_reducible apply Uses.ite | with_reducible apply Uses.ite2 | split

theorem us_polCmd {c₀ x₀ : Channel} (hF : Uses c₀ x₀) : Uses c₀ (Channel.polCmd x₀).2 := by
  refine hF.trans ?_
  unfold Channel.polCmd
  try dsimp only
  repeat' first | with_reducible exact Uses.refl _ | with_reducible apply us_evt | with_reducible apply us_put | with_reducible apply us_putPol | fail_if_no_progress (with_reducible apply Uses.upd) | with_reducible apply Uses.ite | with_reducible apply Uses.ite2 | split

theorem us_settleQ {c₀ x₀ : Channel} (p : PortIx) (q : ℕ) (hF : Uses c₀ x₀) : Uses c₀ (Channel.settleQ p x₀ q) := by
  refine hF.trans ?_
  unfold Channel.settleQ
  try dsimp only
  repeat' first | with_reducible exact Uses.refl _ | with_reducible apply us_putEq | fail_if_no_progress (with_reducible apply Uses.upd) | with_reducible apply Uses.ite | with_reducible apply Uses.ite2 | split

theorem us_fillQ {c₀ x₀ : Channel} (p : PortIx) (q : ℕ) (hF : Uses c₀ x₀) : Uses c₀ (Channel.fillQ p x₀ q) := by
  refine hF.trans ?_
  unfold Channel.fillQ
  try dsimp only
  repeat' first | with_reducible exact Uses.refl _ | with_reducible apply us_putEq | with_reducible apply Uses.ite | with_reducible apply Uses.ite2 | split

theorem us_wasted {c₀ x₀ : Channel} (p : PortIx) (f : QFrame) (hF : Uses c₀ x₀) : Uses c₀ (Channel.wasted p x₀ f) := by
  refine hF.trans ?_
  unfold Channel.wasted
  try dsimp only
  repeat' first | with_reducible exact Uses.refl _ | with_reducible apply us_resolve | with_reducible apply us_pmuEvt | with_reducible apply Uses.ite | with_reducible apply Uses.ite2 | split

theorem us_putGt {c₀ x₀ : Channel} (b : KB) (f : ℕ → ℕ) (t : Gt) (hF : Uses c₀ x₀) : Uses c₀ (Channel.putGt x₀ b f t) := by
  refine hF.trans ?_
  unfold Channel.putGt
  try dsimp only
  repeat' first | with_reducible exact Uses.refl _ | with_reducible apply us_setWord | fail_if_no_progress (with_reducible apply Uses.upd) | with_reducible apply Uses.ite | with_reducible apply Uses.ite2 | with_reducible apply Uses.fold | intro _ | split

theorem us_flushQ {c₀ x₀ : Channel} (noclaim : Bool) (p : PortIx) (q : ℕ) (hF : Uses c₀ x₀) : Uses c₀ (Channel.flushQ noclaim p x₀ q) := by
  refine hF.trans ?_
  unfold Channel.flushQ
  try dsimp only
  repeat' first | with_reducible exact Uses.refl _ | with_reducible apply us_bumpBy | with_reducible apply us_putEq | with_reducible apply us_wasted | with_reducible apply us_evt | fail_if_no_progress (with_reducible apply Uses.upd) | with_reducible apply Uses.ite | with_reducible apply Uses.ite2 | with_reducible apply Uses.fold | intro _ | split

theorem us_flushPort {c₀ x₀ : Channel} (noclaim : Bool) (p : PortIx) (hF : Uses c₀ x₀) : Uses c₀ (Channel.flushPort x₀ noclaim p) := by
  refine hF.trans ?_
  unfold Channel.flushPort
  try dsimp only
  repeat' first | with_reducible exact Uses.refl _ | with_reducible apply us_flushQ | with_reducible apply Uses.ite | with_reducible apply Uses.ite2 | with_reducible apply Uses.fold | intro _ | split

theorem us_flushLost {c₀ x₀ : Channel} (hF : Uses c₀ x₀) : Uses c₀ (Channel.flushLost x₀) := by
  refine hF.trans ?_
  unfold Channel.flushLost
  try dsimp only
  repeat' first | with_reducible exact Uses.refl _ | with_reducible apply us_flushPort | fail_if_no_progress (with_reducible apply Uses.upd) | with_reducible apply Uses.ite | with_reducible apply Uses.ite2 | with_reducible apply Uses.fold | intro _ | split

theorem us_gatesNext {c₀ x₀ : Channel} (hF : Uses c₀ x₀) : Uses c₀ (Channel.gatesNext x₀) := by
  refine hF.trans ?_
  unfold Channel.gatesNext
  try dsimp only
  repeat' first | with_reducible exact Uses.refl _ | with_reducible apply us_setSp | with_reducible apply Uses.ite | with_reducible apply Uses.ite2 | with_reducible apply Uses.fold | intro _ | split

theorem us_flushDisabled {c₀ x₀ : Channel} (hF : Uses c₀ x₀) : Uses c₀ (Channel.flushDisabled x₀) := by
  refine hF.trans ?_
  unfold Channel.flushDisabled
  try dsimp only
  repeat' first | with_reducible exact Uses.refl _ | with_reducible apply us_flushQ | with_reducible apply Uses.ite | with_reducible apply Uses.ite2 | with_reducible apply Uses.fold | intro _ | split

theorem us_dropCores {c₀ x₀ : Channel} (slots : List ℕ) (hF : Uses c₀ x₀) : Uses c₀ (Channel.dropCores x₀ slots) := by
  refine hF.trans ?_
  unfold Channel.dropCores
  try dsimp only
  repeat' first | with_reducible exact Uses.refl _ | with_reducible apply us_wasted | with_reducible apply us_evt | with_reducible apply us_bumpBy | fail_if_no_progress (with_reducible apply Uses.upd) | with_reducible apply Uses.ite | with_reducible apply Uses.ite2 | with_reducible apply Uses.fold | intro _ | split

theorem us_gateBoundary {c₀ x₀ : Channel} (_p : PortIx) (hF : Uses c₀ x₀) : Uses c₀ (Channel.gateBoundary x₀ _p) := by
  refine hF.trans ?_
  unfold Channel.gateBoundary
  try dsimp only
  repeat' first | with_reducible exact Uses.refl _ | with_reducible apply Uses.ite | with_reducible apply Uses.ite2 | split

theorem us_gateSwap {c₀ x₀ : Channel} (p : PortIx) (hF : Uses c₀ x₀) : Uses c₀ (Channel.gateSwap x₀ p).2 := by
  refine hF.trans ?_
  unfold Channel.gateSwap
  try dsimp only
  repeat' first | with_reducible exact Uses.refl _ | with_reducible apply us_put | with_reducible apply us_setSp | with_reducible apply us_putGt | fail_if_no_progress (with_reducible apply Uses.upd) | with_reducible apply Uses.ite | with_reducible apply Uses.ite2 | split

theorem us_gateCancel {c₀ x₀ : Channel} (p : PortIx) (hF : Uses c₀ x₀) : Uses c₀ (Channel.gateCancel x₀ p).2 := by
  refine hF.trans ?_
  unfold Channel.gateCancel
  try dsimp only
  repeat' first | with_reducible exact Uses.refl _ | with_reducible apply us_put | with_reducible apply us_setSp | fail_if_no_progress (with_reducible apply Uses.upd) | with_reducible apply Uses.ite | with_reducible apply Uses.ite2 | split

theorem us_sampleQ {c₀ x₀ : Channel} (p : PortIx) (q : ℕ) (hF : Uses c₀ x₀) : Uses c₀ (Channel.sampleQ p x₀ q) := by
  refine hF.trans ?_
  unfold Channel.sampleQ
  try dsimp only
  repeat' first | with_reducible exact Uses.refl _ | with_reducible apply us_putEq | with_reducible apply Uses.ite | with_reducible apply Uses.ite2 | split

theorem us_samplePort {c₀ x₀ : Channel} (p : PortIx) (hF : Uses c₀ x₀) : Uses c₀ (Channel.samplePort x₀ p) := by
  refine hF.trans ?_
  unfold Channel.samplePort
  try dsimp only
  repeat' first | with_reducible exact Uses.refl _ | with_reducible apply us_flushLost | with_reducible apply us_sampleQ | fail_if_no_progress (with_reducible apply Uses.upd) | with_reducible apply Uses.ite | with_reducible apply Uses.ite2 | with_reducible apply Uses.fold | intro _ | split

theorem us_settleAll {c₀ x₀ : Channel} (hF : Uses c₀ x₀) : Uses c₀ (Channel.settleAll x₀) := by
  refine hF.trans ?_
  unfold Channel.settleAll
  try dsimp only
  repeat' first | with_reducible exact Uses.refl _ | with_reducible apply us_settleQ | with_reducible apply Uses.ite | with_reducible apply Uses.ite2 | with_reducible apply Uses.fold | intro _ | split

theorem us_fillShapers {c₀ x₀ : Channel} (hF : Uses c₀ x₀) : Uses c₀ (Channel.fillShapers x₀) := by
  refine hF.trans ?_
  unfold Channel.fillShapers
  try dsimp only
  repeat' first | with_reducible exact Uses.refl _ | with_reducible apply us_fillQ | with_reducible apply Uses.ite | with_reducible apply Uses.ite2 | with_reducible apply Uses.fold | intro _ | split

theorem us_freePulse {c₀ x₀ : Channel} (hF : Uses c₀ x₀) : Uses c₀ (Channel.freePulse x₀).2 := by
  refine hF.trans ?_
  unfold Channel.freePulse
  try dsimp only
  repeat' first | with_reducible exact Uses.refl _ | with_reducible apply us_free | with_reducible apply Uses.ite | with_reducible apply Uses.ite2 | split

theorem us_refinEdge {c₀ x₀ : Channel} (n : LaneIx) (ps : ℕ) (hF : Uses c₀ x₀) : Uses c₀ (Channel.refinEdge x₀ n ps) := by
  refine hF.trans ?_
  unfold Channel.refinEdge
  try dsimp only
  repeat' first | with_reducible exact Uses.refl _ | with_reducible apply us_freePulse | with_reducible apply us_measure | with_reducible apply us_updLane | fail_if_no_progress (with_reducible apply Uses.upd) | with_reducible apply Uses.ite | with_reducible apply Uses.ite2 | split

theorem us_todSentence {c₀ x₀ : Channel} (k : ℕ) (bs : Bytes) (ago : ℕ) (hF : Uses c₀ x₀) : Uses c₀ (Channel.todSentence x₀ k bs ago) := by
  refine hF.trans ?_
  unfold Channel.todSentence
  try dsimp only
  repeat' first | with_reducible exact Uses.refl _ | with_reducible apply us_bump | with_reducible apply us_updLane | with_reducible apply us_freePulse | with_reducible apply us_measure | with_reducible apply us_evt | fail_if_no_progress (with_reducible apply Uses.upd) | with_reducible apply Uses.ite | with_reducible apply Uses.ite2 | split

theorem us_todUnlabelled {c₀ x₀ : Channel} (n : LaneIx) (e : TodEdge) (hF : Uses c₀ x₀) : Uses c₀ (Channel.todUnlabelled n x₀ e) := by
  refine hF.trans ?_
  unfold Channel.todUnlabelled
  try dsimp only
  repeat' first | with_reducible exact Uses.refl _ | with_reducible apply us_freePulse | with_reducible apply us_measure | fail_if_no_progress (with_reducible apply Uses.upd) | with_reducible apply Uses.ite | with_reducible apply Uses.ite2 | split

theorem us_todWindowEnd {c₀ x₀ : Channel} (n : LaneIx) (hF : Uses c₀ x₀) : Uses c₀ (Channel.todWindowEnd x₀ n) := by
  refine hF.trans ?_
  unfold Channel.todWindowEnd
  try dsimp only
  repeat' first | with_reducible exact Uses.refl _ | with_reducible apply us_todUnlabelled | with_reducible apply us_updLane | with_reducible apply Uses.ite | with_reducible apply Uses.ite2 | with_reducible apply Uses.fold | intro _ | split

theorem us_freqBoundary {c₀ x₀ : Channel} (n : LaneIx) (freq : ℤ) (off : ℤ) (hF : Uses c₀ x₀) : Uses c₀ (Channel.freqBoundary x₀ n freq off) := by
  refine hF.trans ?_
  unfold Channel.freqBoundary
  try dsimp only
  repeat' first | with_reducible exact Uses.refl _ | with_reducible apply us_measure | with_reducible apply Uses.ite | with_reducible apply Uses.ite2 | split

theorem us_setPs {c₀ x₀ : Channel} (p : PortIx) (x : PortSt) (hF : Uses c₀ x₀) : Uses c₀ (Channel.setPs x₀ p x) := by
  refine hF.trans ?_
  unfold Channel.setPs
  try dsimp only
  repeat' first | with_reducible exact Uses.refl _ | fail_if_no_progress (with_reducible apply Uses.upd) | with_reducible apply Uses.ite | with_reducible apply Uses.ite2 | split

theorem us_updPs {c₀ x₀ : Channel} (p : PortIx) (f : PortSt → PortSt) (hF : Uses c₀ x₀) : Uses c₀ (Channel.updPs x₀ p f) := by
  refine hF.trans ?_
  unfold Channel.updPs
  try dsimp only
  repeat' first | with_reducible exact Uses.refl _ | with_reducible apply us_setPs | with_reducible apply Uses.ite | with_reducible apply Uses.ite2 | split

theorem us_updLc {c₀ x₀ : Channel} (p : PortIx) (f : LaneClient → LaneClient) (hF : Uses c₀ x₀) : Uses c₀ (Channel.updLc x₀ p f) := by
  refine hF.trans ?_
  unfold Channel.updLc
  try dsimp only
  repeat' first | with_reducible exact Uses.refl _ | with_reducible apply us_updPs | with_reducible apply Uses.ite | with_reducible apply Uses.ite2 | split

theorem us_linkChange {c₀ x₀ : Channel} (p : PortIx) (st : ℕ) (timer : Option ℕ) (hF : Uses c₀ x₀) : Uses c₀ (Channel.linkChange x₀ p st timer) := by
  refine hF.trans ?_
  unfold Channel.linkChange
  try dsimp only
  repeat' first | with_reducible exact Uses.refl _ | with_reducible apply us_updPs | with_reducible apply us_evt | with_reducible apply us_put | fail_if_no_progress (with_reducible apply Uses.upd) | with_reducible apply Uses.ite | with_reducible apply Uses.ite2 | split

theorem us_linkRestart {c₀ x₀ : Channel} (p : PortIx) (hF : Uses c₀ x₀) : Uses c₀ (Channel.linkRestart x₀ p) := by
  refine hF.trans ?_
  unfold Channel.linkRestart
  try dsimp only
  repeat' first | with_reducible exact Uses.refl _ | with_reducible apply us_linkChange | with_reducible apply us_put | fail_if_no_progress (with_reducible apply Uses.upd) | with_reducible apply Uses.ite | with_reducible apply Uses.ite2 | split

theorem us_anComplete {c₀ x₀ : Channel} (p : PortIx) (peer : ℕ) (rs : Bool) (br : Bool) (hF : Uses c₀ x₀) : Uses c₀ (Channel.anComplete x₀ p peer rs br) := by
  refine hF.trans ?_
  unfold Channel.anComplete
  try dsimp only
  repeat' first | with_reducible exact Uses.refl _ | with_reducible apply us_evt | with_reducible apply us_put | with_reducible apply us_linkChange | fail_if_no_progress (with_reducible apply Uses.upd) | with_reducible apply Uses.ite | with_reducible apply Uses.ite2 | split

theorem us_trainComplete {c₀ x₀ : Channel} (p : PortIx) (hF : Uses c₀ x₀) : Uses c₀ (Channel.trainComplete x₀ p) := by
  refine hF.trans ?_
  unfold Channel.trainComplete
  try dsimp only
  repeat' first | with_reducible exact Uses.refl _ | with_reducible apply us_linkChange | with_reducible apply Uses.ite | with_reducible apply Uses.ite2 | split

theorem us_trainTimeout {c₀ x₀ : Channel} (p : PortIx) (hF : Uses c₀ x₀) : Uses c₀ (Channel.trainTimeout x₀ p) := by
  refine hF.trans ?_
  unfold Channel.trainTimeout
  try dsimp only
  repeat' first | with_reducible exact Uses.refl _ | with_reducible apply us_evt | with_reducible apply us_linkRestart | fail_if_no_progress (with_reducible apply Uses.upd) | with_reducible apply Uses.ite | with_reducible apply Uses.ite2 | split

theorem us_alignLock {c₀ x₀ : Channel} (p : PortIx) (vI : ℤ) (vE : ℤ) (hF : Uses c₀ x₀) : Uses c₀ (Channel.alignLock x₀ p vI vE) := by
  refine hF.trans ?_
  unfold Channel.alignLock
  try dsimp only
  repeat' first | with_reducible exact Uses.refl _ | with_reducible apply us_updPs | with_reducible apply us_linkChange | with_reducible apply us_evt | with_reducible apply us_put | fail_if_no_progress (with_reducible apply Uses.upd) | with_reducible apply Uses.ite | with_reducible apply Uses.ite2 | split

theorem us_alignTimeout {c₀ x₀ : Channel} (p : PortIx) (hF : Uses c₀ x₀) : Uses c₀ (Channel.alignTimeout x₀ p) := by
  refine hF.trans ?_
  unfold Channel.alignTimeout
  try dsimp only
  repeat' first | with_reducible exact Uses.refl _ | with_reducible apply us_linkRestart | with_reducible apply Uses.ite | with_reducible apply Uses.ite2 | split

theorem us_discardFlight {c₀ x₀ : Channel} (p : PortIx) (f : InFlight) (hF : Uses c₀ x₀) : Uses c₀ (Channel.discardFlight p x₀ f) := by
  refine hF.trans ?_
  unfold Channel.discardFlight
  try dsimp only
  repeat' first | with_reducible exact Uses.refl _ | with_reducible apply us_wasted | with_reducible apply us_pmuEvt | with_reducible apply Uses.ite | with_reducible apply Uses.ite2 | split

theorem us_dropFlight {c₀ x₀ : Channel} (p : PortIx) (f : InFlight) (hF : Uses c₀ x₀) : Uses c₀ (Channel.dropFlight p x₀ f) := by
  refine hF.trans ?_
  unfold Channel.dropFlight
  try dsimp only
  repeat' first | with_reducible exact Uses.refl _ | with_reducible apply us_discardFlight | with_reducible apply us_bump | with_reducible apply us_updPs | fail_if_no_progress (with_reducible apply Uses.upd) | with_reducible apply Uses.ite | with_reducible apply Uses.ite2 | split

theorem us_dropFlights {c₀ x₀ : Channel} (p : PortIx) (hF : Uses c₀ x₀) : Uses c₀ (Channel.dropFlights x₀ p) := by
  refine hF.trans ?_
  unfold Channel.dropFlights
  try dsimp only
  repeat' first | with_reducible exact Uses.refl _ | with_reducible apply us_updPs | with_reducible apply us_dropFlight | with_reducible apply Uses.ite | with_reducible apply Uses.ite2 | with_reducible apply Uses.fold | intro _ | split

theorem us_leaveUp {c₀ x₀ : Channel} (p : PortIx) (hF : Uses c₀ x₀) : Uses c₀ (Channel.leaveUp x₀ p) := by
  refine hF.trans ?_
  unfold Channel.leaveUp
  try dsimp only
  repeat' first | with_reducible exact Uses.refl _ | with_reducible apply us_bump | with_reducible apply us_put | with_reducible apply us_updPs | with_reducible apply us_dropFlights | fail_if_no_progress (with_reducible apply Uses.upd) | with_reducible apply Uses.ite | with_reducible apply Uses.ite2 | split

theorem us_linkLoss {c₀ x₀ : Channel} (p : PortIx) (hF : Uses c₀ x₀) : Uses c₀ (Channel.linkLoss x₀ p) := by
  refine hF.trans ?_
  unfold Channel.linkLoss
  try dsimp only
  repeat' first | with_reducible exact Uses.refl _ | with_reducible apply us_linkRestart | with_reducible apply us_leaveUp | with_reducible apply Uses.ite | with_reducible apply Uses.ite2 | split

theorem us_tsrWrite {c₀ x₀ : Channel} (p : PortIx) (s : Channel.Stamp) (seqid : ℕ) (msg : ℕ) (fl : ℕ) (handle : Option ℕ) (hF : Uses c₀ x₀) : Uses c₀ (Channel.tsrWrite x₀ p s seqid msg fl handle).2 := by
  refine hF.trans ?_
  unfold Channel.tsrWrite
  try dsimp only
  repeat' first | with_reducible exact Uses.refl _ | with_reducible apply us_evt | with_reducible apply us_bump | with_reducible apply us_free | with_reducible apply us_setPs | with_reducible apply us_put | fail_if_no_progress (with_reducible apply Uses.upd) | with_reducible apply Uses.ite | with_reducible apply Uses.ite2 | split

theorem us_freqFb {c₀ x₀ : Channel} (prev : Option LanePrev) (refTs : Gt) (offset : Gt) (k : ℤ) (teb : Bound) (missed : Bool) (hF : Uses c₀ x₀) : Uses c₀ (Channel.freqFb x₀ prev refTs offset k teb missed).2 := by
  refine hF.trans ?_
  unfold Channel.freqFb
  try dsimp only
  repeat' first | with_reducible exact Uses.refl _ | with_reducible apply us_free | with_reducible apply Uses.ite | with_reducible apply Uses.ite2 | split

theorem us_ptpRecord {c₀ x₀ : Channel} (p : PortIx) (t1 : Gt) (t2 : Gt) (k : ℤ) (seq : ℕ) (tlv : Option (Bound × Word)) (hF : Uses c₀ x₀) : Uses c₀ (Channel.ptpRecord x₀ p t1 t2 k seq tlv) := by
  refine hF.trans ?_
  unfold Channel.ptpRecord
  try dsimp only
  repeat' first | with_reducible exact Uses.refl _ | with_reducible apply us_updLc | with_reducible apply us_freqFb | with_reducible apply us_measure | fail_if_no_progress (with_reducible apply Uses.upd) | with_reducible apply Uses.ite | with_reducible apply Uses.ite2 | split

theorem us_synceRecord {c₀ x₀ : Channel} (p : PortIx) (freq : ℤ) (off : ℤ) (hF : Uses c₀ x₀) : Uses c₀ (Channel.synceRecord x₀ p freq off) := by
  refine hF.trans ?_
  unfold Channel.synceRecord
  try dsimp only
  repeat' first | with_reducible exact Uses.refl _ | with_reducible apply us_measure | fail_if_no_progress (with_reducible apply Uses.upd) | with_reducible apply Uses.ite | with_reducible apply Uses.ite2 | split

theorem us_sendQl {c₀ x₀ : Channel} (p : PortIx) (event : Bool) (hF : Uses c₀ x₀) : Uses c₀ (Channel.sendQl x₀ p event) := by
  refine hF.trans ?_
  unfold Channel.sendQl
  try dsimp only
  repeat' first | with_reducible exact Uses.refl _ | with_reducible apply us_updPs | with_reducible apply us_ask | with_reducible apply us_bwTx | with_reducible apply Uses.ite | with_reducible apply Uses.ite2 | split

theorem us_esmcInfo {c₀ x₀ : Channel} (p : PortIx) (hF : Uses c₀ x₀) : Uses c₀ (Channel.esmcInfo x₀ p) := by
  refine hF.trans ?_
  unfold Channel.esmcInfo
  try dsimp only
  repeat' first | with_reducible exact Uses.refl _ | with_reducible apply us_sendQl | fail_if_no_progress (with_reducible apply Uses.upd) | with_reducible apply Uses.ite | with_reducible apply Uses.ite2 | split

theorem us_esmcEvent {c₀ x₀ : Channel} (p : PortIx) (hF : Uses c₀ x₀) : Uses c₀ (Channel.esmcEvent p x₀) := by
  refine hF.trans ?_
  unfold Channel.esmcEvent
  try dsimp only
  repeat' first | with_reducible exact Uses.refl _ | with_reducible apply us_updPs | with_reducible apply us_sendQl | fail_if_no_progress (with_reducible apply Uses.upd) | with_reducible apply Uses.ite | with_reducible apply Uses.ite2 | split

theorem us_esmcRx {c₀ x₀ : Channel} (p : PortIx) (ql : ℕ) (len : ℕ) (hF : Uses c₀ x₀) : Uses c₀ (Channel.esmcRx x₀ p ql len) := by
  refine hF.trans ?_
  unfold Channel.esmcRx
  try dsimp only
  repeat' first | with_reducible exact Uses.refl _ | with_reducible apply us_bwRx | with_reducible apply us_updPs | with_reducible apply us_put | with_reducible apply us_evt | fail_if_no_progress (with_reducible apply Uses.upd) | with_reducible apply Uses.ite | with_reducible apply Uses.ite2 | split

theorem us_esmcLost {c₀ x₀ : Channel} (p : PortIx) (hF : Uses c₀ x₀) : Uses c₀ (Channel.esmcLost x₀ p) := by
  refine hF.trans ?_
  unfold Channel.esmcLost
  try dsimp only
  repeat' first | with_reducible exact Uses.refl _ | with_reducible apply us_evt | with_reducible apply us_put | fail_if_no_progress (with_reducible apply Uses.upd) | with_reducible apply Uses.ite | with_reducible apply Uses.ite2 | split

theorem us_pauseRx {c₀ x₀ : Channel} (p : PortIx) (len : ℕ) (hF : Uses c₀ x₀) : Uses c₀ (Channel.pauseRx x₀ p len) := by
  refine hF.trans ?_
  unfold Channel.pauseRx
  try dsimp only
  repeat' first | with_reducible exact Uses.refl _ | with_reducible apply us_bump | with_reducible apply us_bwRx | fail_if_no_progress (with_reducible apply Uses.upd) | with_reducible apply Uses.ite | with_reducible apply Uses.ite2 | split

theorem us_oversizeRx {c₀ x₀ : Channel} (p : PortIx) (len : ℕ) (hF : Uses c₀ x₀) : Uses c₀ (Channel.oversizeRx x₀ p len) := by
  refine hF.trans ?_
  unfold Channel.oversizeRx
  try dsimp only
  repeat' first | with_reducible exact Uses.refl _ | with_reducible apply us_bump | with_reducible apply us_bwRx | fail_if_no_progress (with_reducible apply Uses.upd) | with_reducible apply Uses.ite | with_reducible apply Uses.ite2 | split

theorem us_setSeal {c₀ x₀ : Channel} (s : SealBlk) (hF : Uses c₀ x₀) : Uses c₀ (Channel.setSeal x₀ s) := by
  refine hF.trans ?_
  unfold Channel.setSeal
  try dsimp only
  repeat' first | with_reducible exact Uses.refl _ | fail_if_no_progress (with_reducible apply Uses.upd) | with_reducible apply Uses.ite | with_reducible apply Uses.ite2 | split

theorem us_runSettle {c₀ x₀ : Channel} (hF : Uses c₀ x₀) : Uses c₀ (Channel.runSettle x₀) := by
  refine hF.trans ?_
  unfold Channel.runSettle
  try dsimp only
  repeat' first | with_reducible exact Uses.refl _ | with_reducible apply us_evt | with_reducible apply us_put | with_reducible apply us_flushPort | fail_if_no_progress (with_reducible apply Uses.upd) | with_reducible apply Uses.ite | with_reducible apply Uses.ite2 | split

theorem us_putClient {c₀ x₀ : Channel} (i : ℕ) (e : Option Client) (hF : Uses c₀ x₀) : Uses c₀ (Channel.putClient x₀ i e) := by
  refine hF.trans ?_
  unfold Channel.putClient
  try dsimp only
  repeat' first | with_reducible exact Uses.refl _ | with_reducible apply us_ask | with_reducible apply us_put | with_reducible apply us_setSeal | fail_if_no_progress (with_reducible apply Uses.upd) | with_reducible apply Uses.ite | with_reducible apply Uses.ite2 | split

theorem us_keyGone {c₀ x₀ : Channel} (hF : Uses c₀ x₀) : Uses c₀ (Channel.keyGone x₀) := by
  refine hF.trans ?_
  unfold Channel.keyGone
  try dsimp only
  repeat' first | with_reducible exact Uses.refl _ | with_reducible apply us_evt | with_reducible apply us_bump | fail_if_no_progress (with_reducible apply Uses.upd) | with_reducible apply Uses.ite | with_reducible apply Uses.ite2 | split

theorem us_authFail {c₀ x₀ : Channel} (hF : Uses c₀ x₀) : Uses c₀ (Channel.authFail x₀) := by
  refine hF.trans ?_
  unfold Channel.authFail
  try dsimp only
  repeat' first | with_reducible exact Uses.refl _ | with_reducible apply us_evt | with_reducible apply us_bump | fail_if_no_progress (with_reducible apply Uses.upd) | with_reducible apply Uses.ite | with_reducible apply Uses.ite2 | split

theorem us_putLeap {c₀ x₀ : Channel} (passed : Bool) (k : Fin 8) (e : LeapEnt) (hF : Uses c₀ x₀) : Uses c₀ (Channel.putLeap x₀ passed k e).2 := by
  refine hF.trans ?_
  unfold Channel.putLeap
  try dsimp only
  repeat' first | with_reducible exact Uses.refl _ | with_reducible apply us_ask | with_reducible apply us_evt | fail_if_no_progress (with_reducible apply Uses.upd) | with_reducible apply Uses.ite | with_reducible apply Uses.ite2 | split

theorem us_leapEntWrite {c₀ x₀ : Channel} (k : Fin 8) (w : Word) (hF : Uses c₀ x₀) : Uses c₀ (Channel.leapEntWrite x₀ k w) := by
  refine hF.trans ?_
  unfold Channel.leapEntWrite
  try dsimp only
  repeat' first | with_reducible exact Uses.refl _ | with_reducible apply us_putLeap | fail_if_no_progress (with_reducible apply Uses.upd) | with_reducible apply Uses.ite | with_reducible apply Uses.ite2 | split

theorem us_leapLoWrite {c₀ x₀ : Channel} (k : Fin 8) (w : Word) (hF : Uses c₀ x₀) : Uses c₀ (Channel.leapLoWrite x₀ k w) := by
  refine hF.trans ?_
  unfold Channel.leapLoWrite
  try dsimp only
  repeat' first | with_reducible exact Uses.refl _ | fail_if_no_progress (with_reducible apply Uses.upd) | with_reducible apply Uses.ite | with_reducible apply Uses.ite2 | split

theorem us_leapHiWrite {c₀ x₀ : Channel} (k : Fin 8) (w : Word) (hF : Uses c₀ x₀) : Uses c₀ (Channel.leapHiWrite x₀ k w) := by
  refine hF.trans ?_
  unfold Channel.leapHiWrite
  try dsimp only
  repeat' first | with_reducible exact Uses.refl _ | fail_if_no_progress (with_reducible apply Uses.upd) | with_reducible apply Uses.ite | with_reducible apply Uses.ite2 | split

theorem us_freeBytes {c₀ x₀ : Channel} (n : ℕ) (hF : Uses c₀ x₀) : Uses c₀ (Channel.freeBytes x₀ n).2 := by
  refine hF.trans ?_
  unfold Channel.freeBytes
  try dsimp only
  repeat' first | with_reducible exact Uses.refl _ | with_reducible apply us_free | with_reducible apply Uses.ite | with_reducible apply Uses.ite2 | split

theorem us_requestGate {c₀ x₀ : Channel} (p : PortIx) (k : Pkt) (len : ℕ) (pid : Option Bytes) (lacksAuth : Bool) (fast : Bool) (hF : Uses c₀ x₀) : Uses c₀ (Channel.requestGate x₀ p k len pid lacksAuth fast).2 := by
  refine hF.trans ?_
  unfold Channel.requestGate
  try dsimp only
  repeat' first | with_reducible exact Uses.refl _ | with_reducible apply us_pmuEvt | with_reducible apply us_bump | with_reducible apply us_authFail | with_reducible apply us_free | with_reducible apply us_pmuBy | with_reducible apply us_policeReq | fail_if_no_progress (with_reducible apply Uses.upd) | with_reducible apply Uses.ite | with_reducible apply Uses.ite2 | split

theorem us_authGate {c₀ x₀ : Channel} (a : AuthRes) (hF : Uses c₀ x₀) : Uses c₀ (Channel.authGate x₀ a).2 := by
  refine hF.trans ?_
  unfold Channel.authGate
  try dsimp only
  repeat' first | with_reducible exact Uses.refl _ | with_reducible apply us_authFail | with_reducible apply us_keyGone | with_reducible apply Uses.ite | with_reducible apply Uses.ite2 | split

theorem us_notExp {c₀ x₀ : Channel} (p : PortIx) (hF : Uses c₀ x₀) : Uses c₀ (Channel.notExp x₀ p) := by
  refine hF.trans ?_
  unfold Channel.notExp
  try dsimp only
  repeat' first | with_reducible exact Uses.refl _ | with_reducible apply us_evt | with_reducible apply us_bump | fail_if_no_progress (with_reducible apply Uses.upd) | with_reducible apply Uses.ite | with_reducible apply Uses.ite2 | split

theorem us_releaseGrant {c₀ x₀ : Channel} (i : ℕ) (k : GrantKind) (hF : Uses c₀ x₀) : Uses c₀ (Channel.releaseGrant i x₀ k) := by
  refine hF.trans ?_
  unfold Channel.releaseGrant
  try dsimp only
  repeat' first | with_reducible exact Uses.refl _ | with_reducible apply us_put | with_reducible apply us_putClient | fail_if_no_progress (with_reducible apply Uses.upd) | with_reducible apply Uses.ite | with_reducible apply Uses.ite2 | split

theorem us_revoke {c₀ x₀ : Channel} (hF : Uses c₀ x₀) : Uses c₀ (Channel.revoke x₀) := by
  refine hF.trans ?_
  unfold Channel.revoke
  try dsimp only
  repeat' first | with_reducible exact Uses.refl _ | with_reducible apply us_releaseGrant | fail_if_no_progress (with_reducible apply Uses.upd) | with_reducible apply Uses.ite | with_reducible apply Uses.ite2 | with_reducible apply Uses.fold | intro _ | split

theorem us_grantExpiry {c₀ x₀ : Channel} (i : ℕ) (hF : Uses c₀ x₀) : Uses c₀ (Channel.grantExpiry x₀ i) := by
  refine hF.trans ?_
  unfold Channel.grantExpiry
  try dsimp only
  repeat' first | with_reducible exact Uses.refl _ | with_reducible apply us_releaseGrant | with_reducible apply Uses.ite | with_reducible apply Uses.ite2 | with_reducible apply Uses.fold | intro _ | split

theorem us_grantRequest {c₀ x₀ : Channel} (p : PortIx) (k : Pkt) (pid : Bytes) (sa : Option ℕ) (kind : GrantKind) (log : ℤ) (dur : ℕ) (hF : Uses c₀ x₀) : Uses c₀ (Channel.grantRequest x₀ p k pid sa kind log dur).2 := by
  refine hF.trans ?_
  unfold Channel.grantRequest
  try dsimp only
  repeat' first | with_reducible exact Uses.refl _ | with_reducible apply us_evt | with_reducible apply us_bump | with_reducible apply us_put | with_reducible apply us_putClient | fail_if_no_progress (with_reducible apply Uses.upd) | with_reducible apply Uses.ite | with_reducible apply Uses.ite2 | split

theorem us_laneGranted {c₀ x₀ : Channel} (p : PortIx) (kind : GrantKind) (log : ℤ) (dur : ℕ) (hF : Uses c₀ x₀) : Uses c₀ (Channel.laneGranted x₀ p kind log dur) := by
  refine hF.trans ?_
  unfold Channel.laneGranted
  try dsimp only
  repeat' first | with_reducible exact Uses.refl _ | with_reducible apply us_updLc | with_reducible apply Uses.ite | with_reducible apply Uses.ite2 | split

theorem us_toCores {c₀ x₀ : Channel} (p : PortIx) (f : Option QFrame) (hF : Uses c₀ x₀) : Uses c₀ (Channel.toCores x₀ p f) := by
  refine hF.trans ?_
  unfold Channel.toCores
  try dsimp only
  repeat' first | with_reducible exact Uses.refl _ | with_reducible apply us_pmuEvt | with_reducible apply us_setSeal | with_reducible apply Uses.ite | with_reducible apply Uses.ite2 | split

theorem us_excDrop {c₀ x₀ : Channel} (hF : Uses c₀ x₀) : Uses c₀ (Channel.excDrop x₀) := by
  refine hF.trans ?_
  unfold Channel.excDrop
  try dsimp only
  repeat' first | with_reducible exact Uses.refl _ | with_reducible apply us_evt | with_reducible apply us_bump | fail_if_no_progress (with_reducible apply Uses.upd) | with_reducible apply Uses.ite | with_reducible apply Uses.ite2 | split

theorem us_countClient {c₀ x₀ : Channel} (f : QFrame) (hF : Uses c₀ x₀) : Uses c₀ (Channel.countClient x₀ f) := by
  refine hF.trans ?_
  unfold Channel.countClient
  try dsimp only
  repeat' first | with_reducible exact Uses.refl _ | with_reducible apply us_putClient | with_reducible apply Uses.ite | with_reducible apply Uses.ite2 | split

theorem us_keepStamp {c₀ x₀ : Channel} (p : PortIx) (f : QFrame) (t : Gt) (hF : Uses c₀ x₀) : Uses c₀ (Channel.keepStamp x₀ p f t) := by
  refine hF.trans ?_
  unfold Channel.keepStamp
  try dsimp only
  repeat' first | with_reducible exact Uses.refl _ | with_reducible apply us_updLc | with_reducible apply Uses.ite | with_reducible apply Uses.ite2 | split

theorem us_commitCounts {c₀ x₀ : Channel} (p : PortIx) (f : QFrame) (st : Channel.Stamp) (q : ℕ) (hF : Uses c₀ x₀) : Uses c₀ (Channel.commitCounts x₀ p f st q) := by
  refine hF.trans ?_
  unfold Channel.commitCounts
  try dsimp only
  repeat' first | with_reducible exact Uses.refl _ | with_reducible apply us_bwTx | with_reducible apply us_pmuEvt | with_reducible apply us_resolve | with_reducible apply us_evt | with_reducible apply us_bump | with_reducible apply us_keepStamp | with_reducible apply us_tsrWrite | with_reducible apply us_updPs | fail_if_no_progress (with_reducible apply Uses.upd) | with_reducible apply Uses.ite | with_reducible apply Uses.ite2 | split

theorem us_passOne {c₀ x₀ : Channel} (p : PortIx) (f : InFlight) (hF : Uses c₀ x₀) : Uses c₀ (Channel.passOne p x₀ f) := by
  refine hF.trans ?_
  unfold Channel.passOne
  try dsimp only
  repeat' first | with_reducible exact Uses.refl _ | with_reducible apply us_countClient | with_reducible apply us_ask | with_reducible apply Uses.ite | with_reducible apply Uses.ite2 | split

theorem us_passFrames {c₀ x₀ : Channel} (p : PortIx) (hF : Uses c₀ x₀) : Uses c₀ (Channel.passFrames x₀ p) := by
  refine hF.trans ?_
  unfold Channel.passFrames
  try dsimp only
  repeat' first | with_reducible exact Uses.refl _ | with_reducible apply us_passOne | with_reducible apply us_updPs | with_reducible apply Uses.ite | with_reducible apply Uses.ite2 | with_reducible apply Uses.fold | intro _ | split

theorem us_sealDone {c₀ x₀ : Channel} (f : InFlight) (hF : Uses c₀ x₀) : Uses c₀ (Channel.sealDone x₀ f) := by
  refine hF.trans ?_
  unfold Channel.sealDone
  try dsimp only
  repeat' first | with_reducible exact Uses.refl _ | with_reducible apply us_resolve | with_reducible apply Uses.ite | with_reducible apply Uses.ite2 | split

theorem us_flightTick {c₀ x₀ : Channel} (p : PortIx) (hF : Uses c₀ x₀) : Uses c₀ (Channel.flightTick x₀ p) := by
  refine hF.trans ?_
  unfold Channel.flightTick
  try dsimp only
  repeat' first | with_reducible exact Uses.refl _ | with_reducible apply us_passFrames | with_reducible apply us_sealDone | with_reducible apply Uses.ite | with_reducible apply Uses.ite2 | with_reducible apply Uses.fold | intro _ | split

theorem us_sealAbort {c₀ x₀ : Channel} (hF : Uses c₀ x₀) : Uses c₀ (Channel.sealAbort x₀) := by
  refine hF.trans ?_
  unfold Channel.sealAbort
  try dsimp only
  repeat' first | with_reducible exact Uses.refl _ | with_reducible apply us_discardFlight | with_reducible apply us_evt | with_reducible apply us_bumpBy | with_reducible apply us_updPs | fail_if_no_progress (with_reducible apply Uses.upd) | with_reducible apply Uses.ite | with_reducible apply Uses.ite2 | with_reducible apply Uses.fold | intro _ | split

theorem us_setBend {c₀ x₀ : Channel} (x : Fin 2) (e : BEnd) (hF : Uses c₀ x₀) : Uses c₀ (Channel.setBend x₀ x e) := by
  refine hF.trans ?_
  unfold Channel.setBend
  try dsimp only
  repeat' first | with_reducible exact Uses.refl _ | fail_if_no_progress (with_reducible apply Uses.upd) | with_reducible apply Uses.ite | with_reducible apply Uses.ite2 | split

theorem us_setBlane {c₀ x₀ : Channel} (x : Fin 2) (l : BenchLane) (hF : Uses c₀ x₀) : Uses c₀ (Channel.setBlane x₀ x l) := by
  refine hF.trans ?_
  unfold Channel.setBlane
  try dsimp only
  repeat' first | with_reducible exact Uses.refl _ | fail_if_no_progress (with_reducible apply Uses.upd) | with_reducible apply Uses.ite | with_reducible apply Uses.ite2 | split

theorem us_benchTo {c₀ x₀ : Channel} (x : Fin 2) (st : ℕ) (hF : Uses c₀ x₀) : Uses c₀ (Channel.benchTo x₀ x st) := by
  refine hF.trans ?_
  unfold Channel.benchTo
  try dsimp only
  repeat' first | with_reducible exact Uses.refl _ | with_reducible apply us_bump | with_reducible apply us_ask | with_reducible apply us_put | fail_if_no_progress (with_reducible apply Uses.upd) | with_reducible apply Uses.ite | with_reducible apply Uses.ite2 | split

theorem us_benchDown {c₀ x₀ : Channel} (x : Fin 2) (hF : Uses c₀ x₀) : Uses c₀ (Channel.benchDown x₀ x) := by
  refine hF.trans ?_
  unfold Channel.benchDown
  try dsimp only
  repeat' first | with_reducible exact Uses.refl _ | with_reducible apply us_setBend | with_reducible apply us_benchTo | with_reducible apply Uses.ite | with_reducible apply Uses.ite2 | split

theorem us_benchSync {c₀ x₀ : Channel} (x : Fin 2) (hF : Uses c₀ x₀) : Uses c₀ (Channel.benchSync x₀ x) := by
  refine hF.trans ?_
  unfold Channel.benchSync
  try dsimp only
  repeat' first | with_reducible exact Uses.refl _ | with_reducible apply us_setBend | with_reducible apply us_benchTo | fail_if_no_progress (with_reducible apply Uses.upd) | with_reducible apply Uses.ite | with_reducible apply Uses.ite2 | split

theorem us_helloSend {c₀ x₀ : Channel} (i : BenchId) (x : Fin 2) (stamp : ℕ) (hF : Uses c₀ x₀) : Uses c₀ (Channel.helloSend x₀ i x stamp) := by
  refine hF.trans ?_
  unfold Channel.helloSend
  try dsimp only
  repeat' first | with_reducible exact Uses.refl _ | with_reducible apply us_ask | with_reducible apply us_setBend | with_reducible apply Uses.ite | with_reducible apply Uses.ite2 | split

theorem us_ldly {c₀ x₀ : Channel} (x : Fin 2) (rs : List ℤ) (hF : Uses c₀ x₀) : Uses c₀ (Channel.ldly x₀ x rs) := by
  refine hF.trans ?_
  unfold Channel.ldly
  try dsimp only
  repeat' first | with_reducible exact Uses.refl _ | with_reducible apply us_put | fail_if_no_progress (with_reducible apply Uses.upd) | with_reducible apply Uses.ite | with_reducible apply Uses.ite2 | split

theorem us_exchange {c₀ x₀ : Channel} (x : Fin 2) (r : ℤ) (hF : Uses c₀ x₀) : Uses c₀ (Channel.exchange x₀ x r) := by
  refine hF.trans ?_
  unfold Channel.exchange
  try dsimp only
  repeat' first | with_reducible exact Uses.refl _ | with_reducible apply us_ldly | with_reducible apply us_setBend | with_reducible apply us_benchTo | with_reducible apply us_evt | fail_if_no_progress (with_reducible apply Uses.upd) | with_reducible apply Uses.ite | with_reducible apply Uses.ite2 | split

theorem us_benchDrop {c₀ x₀ : Channel} (x : Fin 2) (hF : Uses c₀ x₀) : Uses c₀ (Channel.benchDrop x₀ x) := by
  refine hF.trans ?_
  unfold Channel.benchDrop
  try dsimp only
  repeat' first | with_reducible exact Uses.refl _ | with_reducible apply us_bump | fail_if_no_progress (with_reducible apply Uses.upd) | with_reducible apply Uses.ite | with_reducible apply Uses.ite2 | split

theorem us_helloRx {c₀ x₀ : Channel} (x : Fin 2) (bs : Bytes) (t4 : ℕ) (hF : Uses c₀ x₀) : Uses c₀ (Channel.helloRx x₀ x bs t4) := by
  refine hF.trans ?_
  unfold Channel.helloRx
  try dsimp only
  repeat' first | with_reducible exact Uses.refl _ | with_reducible apply us_benchDrop | with_reducible apply us_setBend | with_reducible apply us_put | with_reducible apply us_benchTo | with_reducible apply us_exchange | fail_if_no_progress (with_reducible apply Uses.upd) | with_reducible apply Uses.ite | with_reducible apply Uses.ite2 | split

theorem us_helloTimeout {c₀ x₀ : Channel} (x : Fin 2) (lost : Bool) (hF : Uses c₀ x₀) : Uses c₀ (Channel.helloTimeout x₀ x lost) := by
  refine hF.trans ?_
  unfold Channel.helloTimeout
  try dsimp only
  repeat' first | with_reducible exact Uses.refl _ | with_reducible apply us_benchDown | with_reducible apply Uses.ite | with_reducible apply Uses.ite2 | split

theorem us_benchCommitted {c₀ x₀ : Channel} (hF : Uses c₀ x₀) : Uses c₀ (Channel.benchCommitted x₀) := by
  refine hF.trans ?_
  unfold Channel.benchCommitted
  try dsimp only
  repeat' first | with_reducible exact Uses.refl _ | with_reducible apply us_benchDown | fail_if_no_progress (with_reducible apply Uses.upd) | with_reducible apply Uses.ite | with_reducible apply Uses.ite2 | with_reducible apply Uses.fold | intro _ | split

theorem us_benchTimeOn {c₀ x₀ : Channel} (i : BenchId) (ps : Fin 2 → ℕ) (x : Fin 2) (hF : Uses c₀ x₀) : Uses c₀ (Channel.benchTimeOn i ps x₀ x) := by
  refine hF.trans ?_
  unfold Channel.benchTimeOn
  try dsimp only
  repeat' first | with_reducible exact Uses.refl _ | with_reducible apply us_ask | fail_if_no_progress (with_reducible apply Uses.upd) | with_reducible apply Uses.ite | with_reducible apply Uses.ite2 | split

theorem us_benchTimeSend {c₀ x₀ : Channel} (i : BenchId) (ps0 : ℕ) (ps1 : ℕ) (hF : Uses c₀ x₀) : Uses c₀ (Channel.benchTimeSend x₀ i ps0 ps1) := by
  refine hF.trans ?_
  unfold Channel.benchTimeSend
  try dsimp only
  repeat' first | with_reducible exact Uses.refl _ | with_reducible apply us_benchTimeOn | with_reducible apply Uses.ite | with_reducible apply Uses.ite2 | with_reducible apply Uses.fold | intro _ | split

theorem us_peerCount {c₀ x₀ : Channel} (x : Fin 2) (hF : Uses c₀ x₀) : Uses c₀ (Channel.peerCount x₀ x) := by
  refine hF.trans ?_
  unfold Channel.peerCount
  try dsimp only
  repeat' first | with_reducible exact Uses.refl _ | with_reducible apply us_put | fail_if_no_progress (with_reducible apply Uses.upd) | with_reducible apply Uses.ite | with_reducible apply Uses.ite2 | split

theorem us_deliver {c₀ x₀ : Channel} (x : Fin 2) (bs : Bytes) (ps : ℕ) (hF : Uses c₀ x₀) : Uses c₀ (Channel.deliver x₀ x bs ps) := by
  refine hF.trans ?_
  unfold Channel.deliver
  try dsimp only
  repeat' first | with_reducible exact Uses.refl _ | with_reducible apply us_evt | with_reducible apply us_peerCount | with_reducible apply us_bump | with_reducible apply us_setBlane | fail_if_no_progress (with_reducible apply Uses.upd) | with_reducible apply Uses.ite | with_reducible apply Uses.ite2 | split

theorem us_benchTimeRx {c₀ x₀ : Channel} (own : ℕ) (x : Fin 2) (bs : Bytes) (ps : ℕ) (hF : Uses c₀ x₀) : Uses c₀ (Channel.benchTimeRx x₀ own x bs ps).2 := by
  refine hF.trans ?_
  unfold Channel.benchTimeRx
  try dsimp only
  repeat' first | with_reducible exact Uses.refl _ | with_reducible apply us_benchDrop | with_reducible apply us_deliver | fail_if_no_progress (with_reducible apply Uses.upd) | with_reducible apply Uses.ite | with_reducible apply Uses.ite2 | split

theorem us_slotExpiry {c₀ x₀ : Channel} (x : Fin 2) (i : Fin 32) (hF : Uses c₀ x₀) : Uses c₀ (Channel.slotExpiry x₀ x i) := by
  refine hF.trans ?_
  unfold Channel.slotExpiry
  try dsimp only
  repeat' first | with_reducible exact Uses.refl _ | with_reducible apply us_peerCount | with_reducible apply us_setBlane | with_reducible apply Uses.ite | with_reducible apply Uses.ite2 | split

theorem us_epiSettle {c₀ x₀ : Channel} (hF : Uses c₀ x₀) : Uses c₀ (Channel.epiSettle x₀) := by
  refine hF.trans ?_
  unfold Channel.epiSettle
  try dsimp only
  repeat' first | with_reducible exact Uses.refl _ | with_reducible apply us_ask | fail_if_no_progress (with_reducible apply Uses.upd) | with_reducible apply Uses.ite | with_reducible apply Uses.ite2 | split

theorem us_epiExit {c₀ x₀ : Channel} (hF : Uses c₀ x₀) : Uses c₀ (Channel.epiExit x₀) := by
  refine hF.trans ?_
  unfold Channel.epiExit
  try dsimp only
  repeat' first | with_reducible exact Uses.refl _ | with_reducible apply us_ask | fail_if_no_progress (with_reducible apply Uses.upd) | with_reducible apply Uses.ite | with_reducible apply Uses.ite2 | split

theorem us_setGnss {c₀ x₀ : Channel} (g : GnssBlk) (hF : Uses c₀ x₀) : Uses c₀ (Channel.setGnss x₀ g) := by
  refine hF.trans ?_
  unfold Channel.setGnss
  try dsimp only
  repeat' first | with_reducible exact Uses.refl _ | fail_if_no_progress (with_reducible apply Uses.upd) | with_reducible apply Uses.ite | with_reducible apply Uses.ite2 | split

theorem us_updTrk {c₀ x₀ : Channel} (i : Fin 48) (f : Trk → Trk) (hF : Uses c₀ x₀) : Uses c₀ (Channel.updTrk x₀ i f) := by
  refine hF.trans ?_
  unfold Channel.updTrk
  try dsimp only
  repeat' first | with_reducible exact Uses.refl _ | with_reducible apply us_setGnss | with_reducible apply Uses.ite | with_reducible apply Uses.ite2 | split

theorem us_trkTo {c₀ x₀ : Channel} (i : Fin 48) (st : ℕ) (timer : Option ℕ) (hF : Uses c₀ x₀) : Uses c₀ (Channel.trkTo x₀ i st timer) := by
  refine hF.trans ?_
  unfold Channel.trkTo
  try dsimp only
  repeat' first | with_reducible exact Uses.refl _ | with_reducible apply us_updTrk | with_reducible apply us_put | fail_if_no_progress (with_reducible apply Uses.upd) | with_reducible apply Uses.ite | with_reducible apply Uses.ite2 | split

theorem us_trkIdle {c₀ x₀ : Channel} (p : Fin 48 → Bool) (hF : Uses c₀ x₀) : Uses c₀ (Channel.trkIdle x₀ p) := by
  refine hF.trans ?_
  unfold Channel.trkIdle
  try dsimp only
  repeat' first | with_reducible exact Uses.refl _ | with_reducible apply us_trkTo | with_reducible apply Uses.ite | with_reducible apply Uses.ite2 | with_reducible apply Uses.fold | intro _ | split

theorem us_linkTo {c₀ x₀ : Channel} (st : ℕ) (hF : Uses c₀ x₀) : Uses c₀ (Channel.linkTo x₀ st) := by
  refine hF.trans ?_
  unfold Channel.linkTo
  try dsimp only
  repeat' first | with_reducible exact Uses.refl _ | with_reducible apply us_setGnss | with_reducible apply us_evt | with_reducible apply us_put | with_reducible apply us_trkIdle | fail_if_no_progress (with_reducible apply Uses.upd) | with_reducible apply Uses.ite | with_reducible apply Uses.ite2 | split

theorem us_bcDone {c₀ x₀ : Channel} (rtag : ℕ) (rstat : ℕ) (rdata : ℕ) (hF : Uses c₀ x₀) : Uses c₀ (Channel.bcDone x₀ rtag rstat rdata) := by
  refine hF.trans ?_
  unfold Channel.bcDone
  try dsimp only
  repeat' first | with_reducible exact Uses.refl _ | with_reducible apply us_put | with_reducible apply us_setGnss | with_reducible apply us_evt | fail_if_no_progress (with_reducible apply Uses.upd) | with_reducible apply Uses.ite | with_reducible apply Uses.ite2 | split

theorem us_snapFrame {c₀ x₀ : Channel} (good : Bool) (agc : Byte) (samples : Bytes) (hF : Uses c₀ x₀) : Uses c₀ (Channel.snapFrame x₀ good agc samples) := by
  refine hF.trans ?_
  unfold Channel.snapFrame
  try dsimp only
  repeat' first | with_reducible exact Uses.refl _ | with_reducible apply us_put | with_reducible apply us_setGnss | fail_if_no_progress (with_reducible apply Uses.upd) | with_reducible apply Uses.ite | with_reducible apply Uses.ite2 | split

theorem us_sampleFrame {c₀ x₀ : Channel} (comma : Bool) (bs : Bytes) (hF : Uses c₀ x₀) : Uses c₀ (Channel.sampleFrame x₀ comma bs) := by
  refine hF.trans ?_
  unfold Channel.sampleFrame
  try dsimp only
  repeat' first | with_reducible exact Uses.refl _ | with_reducible apply us_snapFrame | with_reducible apply us_linkTo | with_reducible apply us_setGnss | with_reducible apply us_evt | with_reducible apply us_put | with_reducible apply us_bcDone | with_reducible apply us_bump | fail_if_no_progress (with_reducible apply Uses.upd) | with_reducible apply Uses.ite | with_reducible apply Uses.ite2 | split

theorem us_bcGo {c₀ x₀ : Channel} (hF : Uses c₀ x₀) : Uses c₀ (Channel.bcGo x₀) := by
  refine hF.trans ?_
  unfold Channel.bcGo
  try dsimp only
  repeat' first | with_reducible exact Uses.refl _ | with_reducible apply us_put | with_reducible apply us_setGnss | fail_if_no_progress (with_reducible apply Uses.upd) | with_reducible apply Uses.ite | with_reducible apply Uses.ite2 | split

theorem us_bcMessage {c₀ x₀ : Channel} (hF : Uses c₀ x₀) : Uses c₀ (Channel.bcMessage x₀) := by
  refine hF.trans ?_
  unfold Channel.bcMessage
  try dsimp only
  repeat' first | with_reducible exact Uses.refl _ | with_reducible apply us_setGnss | with_reducible apply us_ask | with_reducible apply Uses.ite | with_reducible apply Uses.ite2 | split

theorem us_bcTimeout {c₀ x₀ : Channel} (hF : Uses c₀ x₀) : Uses c₀ (Channel.bcTimeout x₀) := by
  refine hF.trans ?_
  unfold Channel.bcTimeout
  try dsimp only
  repeat' first | with_reducible exact Uses.refl _ | with_reducible apply us_evt | with_reducible apply us_put | with_reducible apply us_setGnss | fail_if_no_progress (with_reducible apply Uses.upd) | with_reducible apply Uses.ite | with_reducible apply Uses.ite2 | split

theorem us_putNavSat {c₀ x₀ : Channel} (s : NavSat) (hF : Uses c₀ x₀) : Uses c₀ (Channel.putNavSat x₀ s) := by
  refine hF.trans ?_
  unfold Channel.putNavSat
  try dsimp only
  repeat' first | with_reducible exact Uses.refl _ | with_reducible apply us_setGnss | with_reducible apply Uses.ite | with_reducible apply Uses.ite2 | split

theorem us_trkAssign {c₀ x₀ : Channel} (i : Fin 48) (gal : Bool) (sv : ℕ) (hF : Uses c₀ x₀) : Uses c₀ (Channel.trkAssign x₀ i gal sv) := by
  refine hF.trans ?_
  unfold Channel.trkAssign
  try dsimp only
  repeat' first | with_reducible exact Uses.refl _ | with_reducible apply us_updTrk | with_reducible apply us_put | with_reducible apply us_trkTo | fail_if_no_progress (with_reducible apply Uses.upd) | with_reducible apply Uses.ite | with_reducible apply Uses.ite2 | split

theorem us_trkDetect {c₀ x₀ : Channel} (i : Fin 48) (hF : Uses c₀ x₀) : Uses c₀ (Channel.trkDetect x₀ i) := by
  refine hF.trans ?_
  unfold Channel.trkDetect
  try dsimp only
  repeat' first | with_reducible exact Uses.refl _ | with_reducible apply us_updTrk | with_reducible apply us_trkTo | with_reducible apply Uses.ite | with_reducible apply Uses.ite2 | split

theorem us_trkExhausted {c₀ x₀ : Channel} (i : Fin 48) (hF : Uses c₀ x₀) : Uses c₀ (Channel.trkExhausted x₀ i) := by
  refine hF.trans ?_
  unfold Channel.trkExhausted
  try dsimp only
  repeat' first | with_reducible exact Uses.refl _ | with_reducible apply us_setGnss | with_reducible apply us_trkTo | with_reducible apply Uses.ite | with_reducible apply Uses.ite2 | split

theorem us_trkUnbar {c₀ x₀ : Channel} (hF : Uses c₀ x₀) : Uses c₀ (Channel.trkUnbar x₀) := by
  refine hF.trans ?_
  unfold Channel.trkUnbar
  try dsimp only
  repeat' first | with_reducible exact Uses.refl _ | with_reducible apply us_setGnss | with_reducible apply Uses.ite | with_reducible apply Uses.ite2 | split

theorem us_trkLock {c₀ x₀ : Channel} (i : Fin 48) (hF : Uses c₀ x₀) : Uses c₀ (Channel.trkLock x₀ i) := by
  refine hF.trans ?_
  unfold Channel.trkLock
  try dsimp only
  repeat' first | with_reducible exact Uses.refl _ | with_reducible apply us_trkTo | with_reducible apply Uses.ite | with_reducible apply Uses.ite2 | split

theorem us_trkPullInTimeout {c₀ x₀ : Channel} (i : Fin 48) (hF : Uses c₀ x₀) : Uses c₀ (Channel.trkPullInTimeout x₀ i) := by
  refine hF.trans ?_
  unfold Channel.trkPullInTimeout
  try dsimp only
  repeat' first | with_reducible exact Uses.refl _ | with_reducible apply us_trkTo | with_reducible apply Uses.ite | with_reducible apply Uses.ite2 | split

theorem us_trkLockLost {c₀ x₀ : Channel} (i : Fin 48) (hF : Uses c₀ x₀) : Uses c₀ (Channel.trkLockLost x₀ i) := by
  refine hF.trans ?_
  unfold Channel.trkLockLost
  try dsimp only
  repeat' first | with_reducible exact Uses.refl _ | with_reducible apply us_trkTo | with_reducible apply Uses.ite | with_reducible apply Uses.ite2 | split

theorem us_trkLostTimeout {c₀ x₀ : Channel} (i : Fin 48) (hF : Uses c₀ x₀) : Uses c₀ (Channel.trkLostTimeout x₀ i) := by
  refine hF.trans ?_
  unfold Channel.trkLostTimeout
  try dsimp only
  repeat' first | with_reducible exact Uses.refl _ | with_reducible apply us_trkTo | with_reducible apply Uses.ite | with_reducible apply Uses.ite2 | split

theorem us_sidePeak {c₀ x₀ : Channel} (i : Fin 48) (late : Bool) (hF : Uses c₀ x₀) : Uses c₀ (Channel.sidePeak x₀ i late) := by
  refine hF.trans ?_
  unfold Channel.sidePeak
  try dsimp only
  repeat' first | with_reducible exact Uses.refl _ | with_reducible apply us_updTrk | with_reducible apply Uses.ite | with_reducible apply Uses.ite2 | split

theorem us_navDecoded {c₀ x₀ : Channel} (i : Fin 48) (d : NavData) (hF : Uses c₀ x₀) : Uses c₀ (Channel.navDecoded x₀ i d) := by
  refine hF.trans ?_
  unfold Channel.navDecoded
  try dsimp only
  repeat' first | with_reducible exact Uses.refl _ | with_reducible apply us_putNavSat | with_reducible apply us_setGnss | with_reducible apply us_evt | with_reducible apply us_trkIdle | fail_if_no_progress (with_reducible apply Uses.upd) | with_reducible apply Uses.ite | with_reducible apply Uses.ite2 | split

theorem us_notchTo {c₀ x₀ : Channel} (k : Fin 4) (st : ℕ) (freq : ℕ) (hF : Uses c₀ x₀) : Uses c₀ (Channel.notchTo x₀ k st freq) := by
  refine hF.trans ?_
  unfold Channel.notchTo
  try dsimp only
  repeat' first | with_reducible exact Uses.refl _ | with_reducible apply us_put | with_reducible apply us_setGnss | with_reducible apply us_evt | fail_if_no_progress (with_reducible apply Uses.upd) | with_reducible apply Uses.ite | with_reducible apply Uses.ite2 | split

theorem us_notchTake {c₀ x₀ : Channel} (k : Fin 4) (lines : List (ℤ × ℕ)) (hF : Uses c₀ x₀) : Uses c₀ (Channel.notchTake x₀ k lines) := by
  refine hF.trans ?_
  unfold Channel.notchTake
  try dsimp only
  repeat' first | with_reducible exact Uses.refl _ | with_reducible apply us_notchTo | with_reducible apply Uses.ite | with_reducible apply Uses.ite2 | split

theorem us_notchFollow {c₀ x₀ : Channel} (k : Fin 4) (lines : List (ℤ × ℕ)) (hF : Uses c₀ x₀) : Uses c₀ (Channel.notchFollow x₀ k lines) := by
  refine hF.trans ?_
  unfold Channel.notchFollow
  try dsimp only
  repeat' first | with_reducible exact Uses.refl _ | with_reducible apply us_setGnss | with_reducible apply us_put | with_reducible apply us_notchTo | fail_if_no_progress (with_reducible apply Uses.upd) | with_reducible apply Uses.ite | with_reducible apply Uses.ite2 | with_reducible apply Uses.fold | intro _ | split

theorem us_notchApart {c₀ x₀ : Channel} (hF : Uses c₀ x₀) : Uses c₀ (Channel.notchApart x₀) := by
  refine hF.trans ?_
  unfold Channel.notchApart
  try dsimp only
  repeat' first | with_reducible exact Uses.refl _ | with_reducible apply us_notchTo | with_reducible apply Uses.ite | with_reducible apply Uses.ite2 | with_reducible apply Uses.fold | intro _ | split

theorem us_notchLock {c₀ x₀ : Channel} (k : Fin 4) (lines : List (ℤ × ℕ)) (hF : Uses c₀ x₀) : Uses c₀ (Channel.notchLock x₀ k lines) := by
  refine hF.trans ?_
  unfold Channel.notchLock
  try dsimp only
  repeat' first | with_reducible exact Uses.refl _ | with_reducible apply us_notchApart | with_reducible apply us_notchTake | with_reducible apply us_notchFollow | with_reducible apply Uses.ite | with_reducible apply Uses.ite2 | split

theorem us_notchRelease {c₀ x₀ : Channel} (k : Fin 4) (lines : List (ℤ × ℕ)) (hF : Uses c₀ x₀) : Uses c₀ (Channel.notchRelease x₀ k lines) := by
  refine hF.trans ?_
  unfold Channel.notchRelease
  try dsimp only
  repeat' first | with_reducible exact Uses.refl _ | with_reducible apply us_notchApart | with_reducible apply us_notchFollow | with_reducible apply us_notchTo | with_reducible apply Uses.ite | with_reducible apply Uses.ite2 | split

theorem us_jniUpdate {c₀ x₀ : Channel} (idle : Byte) (pq : ℕ) (hF : Uses c₀ x₀) : Uses c₀ (Channel.jniUpdate x₀ idle pq) := by
  refine hF.trans ?_
  unfold Channel.jniUpdate
  try dsimp only
  repeat' first | with_reducible exact Uses.refl _ | with_reducible apply us_setGnss | with_reducible apply us_put | with_reducible apply us_evt | fail_if_no_progress (with_reducible apply Uses.upd) | with_reducible apply Uses.ite | with_reducible apply Uses.ite2 | split

theorem us_floorCapture {c₀ x₀ : Channel} (hF : Uses c₀ x₀) : Uses c₀ (Channel.floorCapture x₀) := by
  refine hF.trans ?_
  unfold Channel.floorCapture
  try dsimp only
  repeat' first | with_reducible exact Uses.refl _ | with_reducible apply us_setGnss | with_reducible apply Uses.ite | with_reducible apply Uses.ite2 | split

theorem us_floorCaptureEnd {c₀ x₀ : Channel} (idle : Byte) (hF : Uses c₀ x₀) : Uses c₀ (Channel.floorCaptureEnd x₀ idle) := by
  refine hF.trans ?_
  unfold Channel.floorCaptureEnd
  try dsimp only
  repeat' first | with_reducible exact Uses.refl _ | with_reducible apply us_put | with_reducible apply us_setGnss | fail_if_no_progress (with_reducible apply Uses.upd) | with_reducible apply Uses.ite | with_reducible apply Uses.ite2 | split

theorem us_posTo {c₀ x₀ : Channel} (m : ℕ) (hF : Uses c₀ x₀) : Uses c₀ (Channel.posTo x₀ m) := by
  refine hF.trans ?_
  unfold Channel.posTo
  try dsimp only
  repeat' first | with_reducible exact Uses.refl _ | with_reducible apply us_evt | with_reducible apply us_put | fail_if_no_progress (with_reducible apply Uses.upd) | with_reducible apply Uses.ite | with_reducible apply Uses.ite2 | split

theorem us_surveyStop {c₀ x₀ : Channel} (result : ℕ) (hF : Uses c₀ x₀) : Uses c₀ (Channel.surveyStop x₀ result) := by
  refine hF.trans ?_
  unfold Channel.surveyStop
  try dsimp only
  repeat' first | with_reducible exact Uses.refl _ | with_reducible apply us_ask | with_reducible apply us_evt | with_reducible apply us_setGnss | fail_if_no_progress (with_reducible apply Uses.upd) | with_reducible apply Uses.ite | with_reducible apply Uses.ite2 | split

theorem us_posSet {c₀ x₀ : Channel} (hF : Uses c₀ x₀) : Uses c₀ (Channel.posSet x₀) := by
  refine hF.trans ?_
  unfold Channel.posSet
  try dsimp only
  repeat' first | with_reducible exact Uses.refl _ | with_reducible apply us_surveyStop | with_reducible apply us_posTo | with_reducible apply us_setGnss | with_reducible apply Uses.ite | with_reducible apply Uses.ite2 | split

theorem us_posClr {c₀ x₀ : Channel} (hF : Uses c₀ x₀) : Uses c₀ (Channel.posClr x₀) := by
  refine hF.trans ?_
  unfold Channel.posClr
  try dsimp only
  repeat' first | with_reducible exact Uses.refl _ | with_reducible apply us_surveyStop | with_reducible apply us_posTo | with_reducible apply us_setGnss | with_reducible apply Uses.ite | with_reducible apply Uses.ite2 | split

theorem us_surveyStart {c₀ x₀ : Channel} (slot : ℕ) (hF : Uses c₀ x₀) : Uses c₀ (Channel.surveyStart x₀ slot) := by
  refine hF.trans ?_
  unfold Channel.surveyStart
  try dsimp only
  repeat' first | with_reducible exact Uses.refl _ | with_reducible apply us_posTo | with_reducible apply us_put | with_reducible apply us_setGnss | fail_if_no_progress (with_reducible apply Uses.upd) | with_reducible apply Uses.ite | with_reducible apply Uses.ite2 | split

theorem us_surveySuspend {c₀ x₀ : Channel} (b : Bool) (hF : Uses c₀ x₀) : Uses c₀ (Channel.surveySuspend x₀ b) := by
  refine hF.trans ?_
  unfold Channel.surveySuspend
  try dsimp only
  repeat' first | with_reducible exact Uses.refl _ | with_reducible apply us_posTo | with_reducible apply us_setGnss | with_reducible apply Uses.ite | with_reducible apply Uses.ite2 | split

theorem us_surveyCancel {c₀ x₀ : Channel} (hF : Uses c₀ x₀) : Uses c₀ (Channel.surveyCancel x₀) := by
  refine hF.trans ?_
  unfold Channel.surveyCancel
  try dsimp only
  repeat' first | with_reducible exact Uses.refl _ | with_reducible apply us_posTo | with_reducible apply us_evt | with_reducible apply us_setGnss | fail_if_no_progress (with_reducible apply Uses.upd) | with_reducible apply Uses.ite | with_reducible apply Uses.ite2 | split

theorem us_surveyFix {c₀ x₀ : Channel} (p : ℤ × ℤ × ℤ) (hF : Uses c₀ x₀) : Uses c₀ (Channel.surveyFix x₀ p) := by
  refine hF.trans ?_
  unfold Channel.surveyFix
  try dsimp only
  repeat' first | with_reducible exact Uses.refl _ | with_reducible apply us_put | with_reducible apply us_setGnss | with_reducible apply us_surveyStop | with_reducible apply us_posTo | fail_if_no_progress (with_reducible apply Uses.upd) | with_reducible apply Uses.ite | with_reducible apply Uses.ite2 | split

theorem us_epochSample {c₀ x₀ : Channel} (ms : List SatMeas) (hF : Uses c₀ x₀) : Uses c₀ (Channel.epochSample x₀ ms) := by
  refine hF.trans ?_
  unfold Channel.epochSample
  try dsimp only
  repeat' first | with_reducible exact Uses.refl _ | with_reducible apply us_setGnss | with_reducible apply us_put | fail_if_no_progress (with_reducible apply Uses.upd) | with_reducible apply Uses.ite | with_reducible apply Uses.ite2 | with_reducible apply Uses.fold | intro _ | split

theorem us_epochMissed {c₀ x₀ : Channel} (hF : Uses c₀ x₀) : Uses c₀ (Channel.epochMissed x₀) := by
  refine hF.trans ?_
  unfold Channel.epochMissed
  try dsimp only
  repeat' first | with_reducible exact Uses.refl _ | with_reducible apply us_setGnss | with_reducible apply Uses.ite | with_reducible apply Uses.ite2 | split

theorem us_snapGo {c₀ x₀ : Channel} (hF : Uses c₀ x₀) : Uses c₀ (Channel.snapGo x₀) := by
  refine hF.trans ?_
  unfold Channel.snapGo
  try dsimp only
  repeat' first | with_reducible exact Uses.refl _ | with_reducible apply us_evt | with_reducible apply us_put | with_reducible apply us_setGnss | fail_if_no_progress (with_reducible apply Uses.upd) | with_reducible apply Uses.ite | with_reducible apply Uses.ite2 | split

theorem us_snapStart {c₀ x₀ : Channel} (ps : ℕ) (hF : Uses c₀ x₀) : Uses c₀ (Channel.snapStart x₀ ps) := by
  refine hF.trans ?_
  unfold Channel.snapStart
  try dsimp only
  repeat' first | with_reducible exact Uses.refl _ | with_reducible apply us_put | with_reducible apply us_setGnss | fail_if_no_progress (with_reducible apply Uses.upd) | with_reducible apply Uses.ite | with_reducible apply Uses.ite2 | split

theorem us_snapComplete {c₀ x₀ : Channel} (hF : Uses c₀ x₀) : Uses c₀ (Channel.snapComplete x₀) := by
  refine hF.trans ?_
  unfold Channel.snapComplete
  try dsimp only
  repeat' first | with_reducible exact Uses.refl _ | with_reducible apply us_evt | with_reducible apply us_put | with_reducible apply us_setGnss | fail_if_no_progress (with_reducible apply Uses.upd) | with_reducible apply Uses.ite | with_reducible apply Uses.ite2 | split

theorem us_snapProcess {c₀ x₀ : Channel} (slot : ℕ) (ms : List SatMeas) (hF : Uses c₀ x₀) : Uses c₀ (Channel.snapProcess x₀ slot ms) := by
  refine hF.trans ?_
  unfold Channel.snapProcess
  try dsimp only
  repeat' first | with_reducible exact Uses.refl _ | with_reducible apply us_put | with_reducible apply us_ask | with_reducible apply us_evt | with_reducible apply us_setGnss | fail_if_no_progress (with_reducible apply Uses.upd) | with_reducible apply Uses.ite | with_reducible apply Uses.ite2 | split

theorem us_laneCmd {c₀ x₀ : Channel} (n : LaneIx) (v : Word) (hF : Uses c₀ x₀) : Uses c₀ (Channel.laneCmd x₀ n v).2 := by
  refine hF.trans ?_
  unfold Channel.laneCmd
  try dsimp only
  repeat' first | with_reducible exact Uses.refl _ | with_reducible apply us_force | with_reducible apply us_unforce | with_reducible apply us_requal | with_reducible apply us_updLane | with_reducible apply Uses.ite | with_reducible apply Uses.ite2 | split

theorem us_selCmd {c₀ x₀ : Channel} (v : Word) (hF : Uses c₀ x₀) : Uses c₀ (Channel.selCmd x₀ v).2 := by
  refine hF.trans ?_
  unfold Channel.selCmd
  try dsimp only
  repeat' first | with_reducible exact Uses.refl _ | with_reducible apply us_approveSwitch | with_reducible apply us_denySwitch | with_reducible apply Uses.ite | with_reducible apply Uses.ite2 | split

theorem us_stepCmd {c₀ x₀ : Channel} (org : Origin) (v : Word) (hF : Uses c₀ x₀) : Uses c₀ (Channel.stepCmd x₀ org v).2 := by
  refine hF.trans ?_
  unfold Channel.stepCmd
  try dsimp only
  repeat' first | with_reducible exact Uses.refl _ | with_reducible apply us_stepAbort | with_reducible apply us_stepGo | with_reducible apply Uses.ite | with_reducible apply Uses.ite2 | split

theorem us_applyGates {c₀ x₀ : Channel} (g : Bytes × List Bytes) (hF : Uses c₀ x₀) : Uses c₀ (Channel.applyGates x₀ g) := by
  refine hF.trans ?_
  unfold Channel.applyGates
  try dsimp only
  repeat' first | with_reducible exact Uses.refl _ | with_reducible apply us_setWord | with_reducible apply us_put | with_reducible apply us_putGt | fail_if_no_progress (with_reducible apply Uses.upd) | with_reducible apply Uses.ite | with_reducible apply Uses.ite2 | with_reducible apply Uses.fold | intro _ | split

theorem us_endService {c₀ x₀ : Channel} (hF : Uses c₀ x₀) : Uses c₀ (Channel.endService x₀) := by
  refine hF.trans ?_
  unfold Channel.endService
  try dsimp only
  repeat' first | with_reducible exact Uses.refl _ | with_reducible apply us_gatesNext | with_reducible apply us_flushLost | with_reducible apply us_setSeal | with_reducible apply Uses.ite | with_reducible apply Uses.ite2 | split

end Sys2Proof.Machine
end

