-- ==== Sys2Proof/Laws/Effects.lean ====
section
/-! SUPPORT. Effects that several commands share: a sticky flag that is set, an entry of the leap table, what the journal tells of a
pending switch. -/
namespace Sys2Proof.Machine

theorem says_ranked {c d : Channel} (h : Ranked c d) {j : JBody} (hs : ∃ e, Eff.jour e ∈ c.effs ∧ e.body = j ∧ e.commit = true) (es : List Eff) :
    ∃ e, Eff.jour e ∈ ({ d with effs := d.effs ++ es } : Channel).effs ∧ e.body = j ∧ e.commit = true := by
  obtain ⟨e, h1, h2⟩ := hs
  obtain ⟨x, hx⟩ := h.effs
  exact ⟨e, by simp [hx, h1], h2⟩

theorem says_commit (c : Channel) (sv : Servo) (m : LaneIx) : ∃ e, Eff.jour e ∈ (c.commitSel sv (some m) 2).effs ∧
    e.body = .sel sv (some m) (c.sel sv).cur 2 ∧ e.commit = true := by
  have hk : (c.keepWiden sv (some m)).sel sv = c.sel sv := by
    unfold Channel.keepWiden
    split
    · split <;> rfl
    · rfl
  unfold Channel.commitSel
  extract_lets x y old c1 sw yy z z' c2 c3
  refine ⟨⟨x.jour.jseq + 1, x.jour.tick, true, false, x.ix, x.jour.wptr, false, .sel sv (some m) y.cur 2⟩, ?_, ?_, rfl⟩
  · have h1 : Eff.jour ⟨x.jour.jseq + 1, x.jour.tick, true, false, x.ix, x.jour.wptr, false, .sel sv (some m) y.cur 2⟩ ∈ c1.effs := by
      simp [c1, Channel.journal, Channel.journalAt, Channel.ask]
    have h2 : c2.effs = c1.effs := by simp [c2, Channel.setSel]; cases sv <;> rfl
    have h3 : ∃ es, c3.effs = c2.effs ++ es := by
      unfold c3
      cases sv
      · exact (rk_evt F.REF_EVT_SELA (.refl c2)).effs
      · exact (rk_evt F.REF_EVT_SELB (.refl c2)).effs
    obtain ⟨es, h3⟩ := h3
    simp only [Channel.bookState, Channel.ask, h3, h2]
    simp [h1]
  · show JBody.sel sv (some m) y.cur 2 = _
    simp [y, x, hk]

theorem says_cancel (c : Channel) (sv : Servo) (m : LaneIx) (h : (c.sel sv).pv = some m) : ∃ e, Eff.jour e ∈ (c.cancelPv sv 2).effs ∧
    e.body = .cancel (c.sel sv).pvJseq 2 ∧ e.commit = true := by
  unfold Channel.cancelPv
  simp only [h]
  refine ⟨⟨c.jour.jseq + 1, c.jour.tick, true, false, c.ix, c.jour.wptr, false, .cancel (c.sel sv).pvJseq 2⟩, ?_, rfl, rfl⟩
  cases sv <;> simp [Channel.evt, Channel.evtMask, Channel.ask, Channel.setRf, Channel.setWord, Channel.journal, Channel.journalAt, Channel.setSel]

theorem says_approve (c : Channel) (sv : Servo) (m : LaneIx) (h : (c.sel sv).pend = true) (h2 : (c.sel sv).pv = some m) (es : List Eff) :
    ∃ e, Eff.jour e ∈ ({ c.approveSwitch sv with effs := (c.approveSwitch sv).effs ++ es } : Channel).effs ∧ e.body = .sel sv (some m) (c.sel sv).cur 2 ∧ e.commit = true := by
  have : c.approveSwitch sv = c.commitSel sv (some m) 2 := by
    unfold Channel.approveSwitch
    simp only [h, h2]
  rw [this]
  exact says_ranked (.refl _) (says_commit _ _ _) es

theorem says_deny (c : Channel) (sv : Servo) (m : LaneIx) (h : (c.sel sv).pend = true) (h2 : (c.sel sv).pv = some m) (es : List Eff) :
    ∃ e, Eff.jour e ∈ ({ c.denySwitch sv with effs := (c.denySwitch sv).effs ++ es } : Channel).effs ∧ e.body = .cancel (c.sel sv).pvJseq 2 ∧ e.commit = true := by
  unfold Channel.denySwitch
  simp only [h, h2]
  exact says_ranked (rk_setSel _ _ (.refl _)) (says_cancel c _ m h2) es

theorem rk_approve (c : Channel) (sv : Servo) : Ranked c (c.approveSwitch sv) := by
  unfold Channel.approveSwitch
  dsimp only
  split
  · exact rk_commitSel _ _ _ (.refl _)
  · exact .refl _
theorem rk_deny (c : Channel) (sv : Servo) : Ranked c (c.denySwitch sv) := by
  unfold Channel.denySwitch
  dsimp only
  split
  · exact rk_setSel _ _ (rk_cancelPv _ _ (.refl _))
  · exact .refl _
theorem rk_one (c : Channel) (v : Word) : Ranked c (if (!(c.sel .b).pend || bit v 29 == bit v 28) = true then (false, c) else (true, if bit v 29 = true then c.approveSwitch .b else c.denySwitch .b)).2 := by
  split
  · exact .refl _
  · dsimp only
    split
    · exact rk_approve _ _
    · exact rk_deny _ _

theorem or_bit (x : Word) (l : ℕ) (h : l < 32) : getField (x ||| BitVec.ofNat 32 (2 ^ l)) l 1 = 1 := by
  unfold getField
  rw [BitVec.toNat_or, BitVec.toNat_ofNat, Nat.mod_eq_of_lt (Nat.pow_lt_pow_right (by norm_num) h), pow_one]
  have : (x.toNat ||| 2 ^ l).testBit l = true := by simp [Nat.testBit_or]
  rw [Nat.testBit_eq_decide_div_mod_eq] at this
  simpa using this

theorem cur_evt (c : Channel) (f : KF) (hw : f.w = 1) (hl : f.lsb < 32) : (c.evt f).cur f = 1 := by
  unfold Channel.evt Channel.evtMask Channel.cur Channel.ask
  show getField (Channel.word (Channel.setRf (c.setWord f.blk f.off _) f.blk _) f.blk f.off) f.lsb f.w = 1
  simp only [Channel.word, crf_setRf_self]
  show getField (Channel.word (c.setWord f.blk f.off _) f.blk f.off) f.lsb f.w = 1
  rw [word_setWord_self, hw]
  exact or_bit _ _ hl

theorem Channel.cur_ask (c : Channel) (f : KF) (e : Eff) : (c.ask e).cur f = c.cur f := rfl

theorem putLeap_ok (c : Channel) (a : Bool) (k : Fin 8) (e : LeapEnt) (h : tabOk (c.scale.leap.set k e) = true) :
    (c.putLeap a k e).1 = true ∧ ∃ d, (c.putLeap a k e).2 = d ∧ d.scale.leap = c.scale.leap.set k e ∧ d.scale.effHeld = c.scale.effHeld ∧
      d.scale.loHeld = c.scale.loHeld ∧ d.dpll = c.dpll ∧ d.jour = c.jour := by
  unfold Channel.putLeap
  extract_lets t c1
  rw [if_pos (show tabOk t = true from h)]
  refine ⟨rfl, _, rfl, ?_⟩
  dsimp only
  split <;> exact ⟨rfl, rfl, rfl, rfl, rfl⟩

theorem putLeap_no (c : Channel) (a : Bool) (k : Fin 8) (e : LeapEnt) (h : tabOk (c.scale.leap.set k e) = false) :
    c.putLeap a k e = (false, c.evt F.DPLL_UTC_NOW_REJ) := by
  unfold Channel.putLeap
  extract_lets t c1
  rw [if_neg (fun k => absurd (h.symm.trans k) (by decide))]

theorem leapSlot_free (c : Channel) (k : Fin 8) (hk : c.scale.leap[k].valid = false) (hlow : ∀ j : Fin 8, j < k → c.scale.leap[j].valid = true) :
    c.leapSlot = some k := by
  have hf : (List.finRange 8).find? (fun j => !c.scale.leap[j].valid) = some k := by
    rw [List.find?_eq_some_iff_getElem]
    refine ⟨by rw [hk]; rfl, k.val, by simp, by simp, fun j hj => ?_⟩
    have := hlow ⟨j, by omega⟩ hj
    simpa using this
  unfold Channel.leapSlot
  rw [hf]

end Sys2Proof.Machine
end

