-- ==== Sys2Proof/Laws/OnlyState.lean ====
section
/-! SUPPORT. For each operation on the device, the parts of the device that it may change: everything else it leaves as it is. -/
namespace Sys2Proof.Machine

/-- Every part of one list stands in another. -/
def stPartsIn (a b : List StPart) : Bool := a.all b.contains

theorem stPartsIn_trans {a b c : List StPart} (h : stPartsIn a b = true) (g : stPartsIn b c = true) : stPartsIn a c = true := by
  simp only [stPartsIn, List.all_eq_true, List.contains_iff_mem] at *
  exact fun q hq => g q (h q hq)

theorem stPartsIn_mem {q : StPart} {a b : List StPart} (h : a.contains q = true) (g : stPartsIn a b = true) : b.contains q = true := by
  simp only [stPartsIn, List.all_eq_true, List.contains_iff_mem] at *
  exact g q h

theorem State.onlyIn_refl (L : List StPart) (s : State) : State.onlyIn L s s :=
  ⟨rfl, rfl, rfl, fun q _ => by cases q <;> first | rfl | exact ⟨rfl, rfl⟩ | exact ⟨rfl, rfl, rfl⟩⟩

theorem State.same_trans {q : StPart} {a b c : State} (h : State.same q a b) (g : State.same q b c) : State.same q a c := by
  cases q <;> first | exact g.trans h | exact ⟨g.1.trans h.1, g.2.trans h.2⟩ | exact ⟨g.1.trans h.1, g.2.1.trans h.2.1, g.2.2.trans h.2.2⟩

theorem State.onlyIn_trans {L : List StPart} {a b c : State} (h : State.onlyIn L a b) (g : State.onlyIn L b c) : State.onlyIn L a c :=
  ⟨g.1.trans h.1, g.2.1.trans h.2.1, g.2.2.1.trans h.2.2.1, fun q hq => State.same_trans (h.2.2.2 q hq) (g.2.2.2 q hq)⟩

theorem State.onlyIn_mono {L K : List StPart} {c d : State} (h : stPartsIn L K = true) (hF : State.onlyIn L c d) : State.onlyIn K c d := by
  refine ⟨hF.1, hF.2.1, hF.2.2.1, fun q hq => hF.2.2.2 q (fun hL => hq ?_)⟩
  have := List.all_eq_true.mp h q hL
  simpa using this

theorem State.onlyIn_step {L K : List StPart} {c y z : State} (h : stPartsIn L K = true) (hF : State.onlyIn K c y) (g : State.onlyIn L y z) :
    State.onlyIn K c z := State.onlyIn_trans hF (State.onlyIn_mono h g)

/-- A record update whose changed fields belong to parts of the list. -/
theorem in_upd {L : List StPart} {s x : State} {tick regs ch img loader host cmdq fault vault book tally twin router pwr freeCtr out}
    (h : State.onlyIn L s x) (hregs : regs = x.regs)
    (h1 : L.contains .tick = true ∨ tick = x.tick) (h2 : L.contains .hostif = true ∨ host.sent = x.host.sent) (h2t : L.contains .hostif = true ∨ host.took = x.host.took) (h3 : L.contains .mem = true ∨ host.htx = x.host.htx)
    (h4 : L.contains .cmdq = true ∨ cmdq = x.cmdq) (h5 : L.contains .fault = true ∨ fault = x.fault) (h6 : L.contains .vault = true ∨ vault = x.vault)
    (h7 : L.contains .book = true ∨ book = x.book) (h8 : L.contains .tally = true ∨ tally = x.tally) (h9 : L.contains .twin = true ∨ twin = x.twin)
    (h10 : L.contains .bench = true ∨ router = x.router) (h11 : L.contains .pwr = true ∨ pwr = x.pwr)
    (h12 : L.contains .image = true ∨ img = x.img) (h13 : L.contains .image = true ∨ loader = x.loader) (h14 : L.contains .ch = true ∨ ch = x.ch)
    (h15 : L.contains .free = true ∨ freeCtr = x.freeCtr) (h16 : L.contains .out = true ∨ out = x.out) :
    State.onlyIn L s (State.mk tick regs ch img loader x.fuse host cmdq fault vault book tally twin router pwr freeCtr out x.held x.pending) := by
  subst hregs
  refine State.onlyIn_trans h ⟨rfl, rfl, rfl, fun q hq => ?_⟩
  have hc : ∀ r : StPart, r = q → ¬ L.contains r = true := fun r e => by subst e; simpa using hq
  cases q
  · exact h1.resolve_left (hc _ rfl)
  · exact ⟨h2.resolve_left (hc _ rfl), h2t.resolve_left (hc _ rfl), rfl⟩
  · exact h3.resolve_left (hc _ rfl)
  · exact ⟨h4.resolve_left (hc _ rfl), rfl⟩
  · exact ⟨h5.resolve_left (hc _ rfl), rfl⟩
  · exact ⟨h6.resolve_left (hc _ rfl), rfl⟩
  · exact ⟨h7.resolve_left (hc _ rfl), rfl⟩
  · exact ⟨h8.resolve_left (hc _ rfl), rfl⟩
  · exact ⟨h9.resolve_left (hc _ rfl), rfl⟩
  · exact ⟨h10.resolve_left (hc _ rfl), rfl⟩
  · rfl
  · exact ⟨h11.resolve_left (hc _ rfl), rfl⟩
  · exact ⟨h12.resolve_left (hc _ rfl), h13.resolve_left (hc _ rfl), rfl⟩
  · exact h14.resolve_left (hc _ rfl)
  · exact h15.resolve_left (hc _ rfl)
  · exact h16.resolve_left (hc _ rfl)

theorem in_ite {L : List StPart} {s a b : State} {p : Prop} [Decidable p] (ha : State.onlyIn L s a) (hb : State.onlyIn L s b) :
    State.onlyIn L s (if p then a else b) := by split <;> assumption

theorem in_ite2 {α : Type} {L : List StPart} {s : State} {a b : α × State} {p : Prop} [Decidable p] (ha : State.onlyIn L s a.2)
    (hb : State.onlyIn L s b.2) : State.onlyIn L s (if p then a else b).2 := by split <;> assumption

theorem in_fold {α : Type} {L : List StPart} {s x : State} {g : State → α → State} {l : List α} (h : State.onlyIn L s x)
    (hg : ∀ y a, State.onlyIn L y (g y a)) : State.onlyIn L s (l.foldl g x) := by
  induction l generalizing x with
  | nil => exact h
  | cons a r ih => exact ih (State.onlyIn_trans h (hg x a))

theorem in_iter {L : List StPart} {s x : State} {g : State → State} (n : ℕ) (h : State.onlyIn L s x) (hg : ∀ y, State.onlyIn L y (g y)) :
    State.onlyIn L s (iter g n x) := by
  induction n generalizing x with
  | zero => exact h
  | succ n ih => exact ih (State.onlyIn_trans h (hg x))

theorem in_fold2 {α β : Type} {L : List StPart} {c : State} {x : β × State} {g : β × State → α → β × State} {l : List α} (h : State.onlyIn L c x.2)
    (hg : ∀ y a, State.onlyIn L y.2 (g y a).2) : State.onlyIn L c (l.foldl g x).2 := by
  induction l generalizing x with
  | nil => exact h
  | cons a r ih => exact ih (State.onlyIn_trans h (hg x a))

theorem in_setRf {L : List StPart} {s x : State} (b : CB) (f : RegFile) (hb : L.contains b.part = true) (hF : State.onlyIn L s x) :
    State.onlyIn L s (x.setRf b f) := by
  refine State.onlyIn_trans hF ⟨rfl, rfl, rfl, fun q hq => ?_⟩
  have hc : ∀ r : StPart, r = q → ¬ L.contains r = true := fun r e => by subst e; simpa using hq
  cases q <;> cases b <;> first | rfl | exact ⟨rfl, rfl⟩ | exact ⟨rfl, rfl, rfl⟩ | exact absurd hb (hc _ rfl)

theorem in_gsetWord {L : List StPart} {s₀ x₀ : State} (b : CB) (off : ℕ) (w : Word) (hb : L.contains b.part = true) (hF : State.onlyIn L s₀ x₀) : State.onlyIn L s₀ (State.gsetWord x₀ b off w) := by
  refine State.onlyIn_trans hF ?_
  unfold State.gsetWord
  try dsimp only
  repeat' first | with_reducible exact State.onlyIn_refl _ _ | with_reducible apply in_setRf | with_reducible apply in_ite | with_reducible apply in_ite2 | with_reducible rfl | exact .inl rfl | exact .inr rfl | rfl | with_reducible assumption | intro _ | (split <;> try (rename_i h; have e := congrArg Prod.snd h; dsimp only at e; subst e))

theorem in_gput {L : List StPart} {s₀ x₀ : State} (f : GF) (v : ℕ) (hb : L.contains f.blk.part = true) (hF : State.onlyIn L s₀ x₀) : State.onlyIn L s₀ (State.gput x₀ f v) := by
  refine State.onlyIn_trans hF ?_
  unfold State.gput
  try dsimp only
  repeat' first | with_reducible exact State.onlyIn_refl _ _ | with_reducible apply in_gsetWord | with_reducible apply in_ite | with_reducible apply in_ite2 | with_reducible rfl | exact .inl rfl | exact .inr rfl | rfl | with_reducible assumption | intro _ | (split <;> try (rename_i h; have e := congrArg Prod.snd h; dsimp only at e; subst e))

theorem in_gbump {L : List StPart} {s₀ x₀ : State} (f : GF) (hb : L.contains f.blk.part = true) (hF : State.onlyIn L s₀ x₀) : State.onlyIn L s₀ (State.gbump x₀ f) := by
  refine State.onlyIn_trans hF ?_
  unfold State.gbump
  try dsimp only
  repeat' first | with_reducible exact State.onlyIn_refl _ _ | with_reducible apply in_gput | with_reducible apply in_ite | with_reducible apply in_ite2 | with_reducible rfl | exact .inl rfl | exact .inr rfl | rfl | with_reducible assumption | intro _ | (split <;> try (rename_i h; have e := congrArg Prod.snd h; dsimp only at e; subst e))

theorem in_gbumpBy {L : List StPart} {s₀ x₀ : State} (f : GF) (n : ℕ) (hb : L.contains f.blk.part = true) (hF : State.onlyIn L s₀ x₀) : State.onlyIn L s₀ (State.gbumpBy x₀ f n) := by
  refine State.onlyIn_trans hF ?_
  unfold State.gbumpBy
  try dsimp only
  repeat' first | with_reducible exact State.onlyIn_refl _ _ | with_reducible apply in_gput | with_reducible apply in_ite | with_reducible apply in_ite2 | with_reducible rfl | exact .inl rfl | exact .inr rfl | rfl | with_reducible assumption | intro _ | (split <;> try (rename_i h; have e := congrArg Prod.snd h; dsimp only at e; subst e))

theorem in_gbumpSat {L : List StPart} {s₀ x₀ : State} (f : GF) (hb : L.contains f.blk.part = true) (hF : State.onlyIn L s₀ x₀) : State.onlyIn L s₀ (State.gbumpSat x₀ f) := by
  refine State.onlyIn_trans hF ?_
  unfold State.gbumpSat
  try dsimp only
  repeat' first | with_reducible exact State.onlyIn_refl _ _ | with_reducible apply in_gput | with_reducible apply in_ite | with_reducible apply in_ite2 | with_reducible rfl | exact .inl rfl | exact .inr rfl | rfl | with_reducible assumption | intro _ | (split <;> try (rename_i h; have e := congrArg Prod.snd h; dsimp only at e; subst e))

theorem in_put64 {L : List StPart} {s₀ x₀ : State} (b : CB) (off : ℕ) (v : ℕ) (hb : L.contains b.part = true) (hF : State.onlyIn L s₀ x₀) : State.onlyIn L s₀ (State.put64 x₀ b off v) := by
  refine State.onlyIn_trans hF ?_
  unfold State.put64
  try dsimp only
  repeat' first | with_reducible exact State.onlyIn_refl _ _ | with_reducible apply in_gsetWord | with_reducible apply in_ite | with_reducible apply in_ite2 | with_reducible rfl | exact .inl rfl | exact .inr rfl | rfl | with_reducible assumption | intro _ | (split <;> try (rename_i h; have e := congrArg Prod.snd h; dsimp only at e; subst e))

theorem in_emit {L : List StPart} {s₀ x₀ : State} (o : Output) (hL : stPartsIn [.out] L = true) (hF : State.onlyIn L s₀ x₀) : State.onlyIn L s₀ (State.emit x₀ o) := by
  refine State.onlyIn_step hL hF ?_
  unfold State.emit
  try dsimp only
  repeat' first | with_reducible exact State.onlyIn_refl _ _ | with_reducible apply in_ite | with_reducible apply in_ite2 | with_reducible rfl | exact .inl rfl | exact .inr rfl | rfl | with_reducible assumption | intro _ | (split <;> try (rename_i h; have e := congrArg Prod.snd h; dsimp only at e; subst e)) | with_reducible apply in_upd

theorem in_free {L : List StPart} {s₀ x₀ : State} (w : ℕ) (hL : stPartsIn [.free] L = true) (hF : State.onlyIn L s₀ x₀) : State.onlyIn L s₀ (State.free x₀ w).2 := by
  refine State.onlyIn_step hL hF ?_
  unfold State.free
  try dsimp only
  repeat' first | with_reducible exact State.onlyIn_refl _ _ | with_reducible apply in_ite | with_reducible apply in_ite2 | with_reducible rfl | exact .inl rfl | exact .inr rfl | rfl | with_reducible assumption | intro _ | (split <;> try (rename_i h; have e := congrArg Prod.snd h; dsimp only at e; subst e)) | with_reducible apply in_upd

theorem in_msixPend {L : List StPart} {s₀ x₀ : State} (v : ℕ) (b : Bool) (hL : stPartsIn [.hostif] L = true) (hF : State.onlyIn L s₀ x₀) : State.onlyIn L s₀ (State.msixPend x₀ v b) := by
  refine State.onlyIn_step hL hF ?_
  unfold State.msixPend
  try dsimp only
  repeat' first | with_reducible exact State.onlyIn_refl _ _ | with_reducible apply in_gsetWord | with_reducible apply in_ite | with_reducible apply in_ite2 | with_reducible rfl | exact .inl rfl | exact .inr rfl | rfl | with_reducible assumption | intro _ | (split <;> try (rename_i h; have e := congrArg Prod.snd h; dsimp only at e; subst e))

theorem in_msix {L : List StPart} {s₀ x₀ : State} (v : ℕ) (hL : stPartsIn [.hostif, .out] L = true) (hF : State.onlyIn L s₀ x₀) : State.onlyIn L s₀ (State.msix x₀ v) := by
  refine State.onlyIn_step hL hF ?_
  unfold State.msix
  try dsimp only
  repeat' first | with_reducible exact State.onlyIn_refl _ _ | with_reducible apply in_msixPend | with_reducible apply in_emit | with_reducible apply in_ite | with_reducible apply in_ite2 | with_reducible rfl | exact .inl rfl | exact .inr rfl | rfl | with_reducible assumption | intro _ | (split <;> try (rename_i h; have e := congrArg Prod.snd h; dsimp only at e; subst e)) | with_reducible apply in_upd

theorem in_msixFlush {L : List StPart} {s₀ x₀ : State} (hL : stPartsIn [.hostif, .out] L = true) (hF : State.onlyIn L s₀ x₀) : State.onlyIn L s₀ (State.msixFlush x₀) := by
  refine State.onlyIn_step hL hF ?_
  unfold State.msixFlush
  try dsimp only
  repeat' first | with_reducible exact State.onlyIn_refl _ _ | with_reducible apply in_msix | with_reducible apply in_msixPend | with_reducible apply in_ite | with_reducible apply in_ite2 | with_reducible apply in_fold | with_reducible apply in_fold2 | with_reducible rfl | exact .inl rfl | exact .inr rfl | rfl | with_reducible assumption | intro _ | (split <;> try (rename_i h; have e := congrArg Prod.snd h; dsimp only at e; subst e))

theorem in_gevtMask {L : List StPart} {s₀ x₀ : State} (b : CB) (off : ℕ) (m : ℕ) (hb : L.contains b.part = true) (hL : stPartsIn [.hostif, .out] L = true) (hF : State.onlyIn L s₀ x₀) : State.onlyIn L s₀ (State.gevtMask x₀ b off m) := by
  refine State.onlyIn_trans hF ?_
  unfold State.gevtMask
  try dsimp only
  repeat' first | with_reducible exact State.onlyIn_refl _ _ | with_reducible apply in_gsetWord | with_reducible apply in_setRf | with_reducible apply in_msix | with_reducible apply in_ite | with_reducible apply in_ite2 | with_reducible apply in_fold | with_reducible apply in_fold2 | with_reducible rfl | exact .inl rfl | exact .inr rfl | rfl | with_reducible assumption | exact stPartsIn_trans rfl hL | exact stPartsIn_mem rfl hL | exact .inl (stPartsIn_mem rfl hL) | intro _ | (split <;> try (rename_i h; have e := congrArg Prod.snd h; dsimp only at e; subst e))

theorem in_gevt {L : List StPart} {s₀ x₀ : State} (f : GF) (hb : L.contains f.blk.part = true) (hL : stPartsIn [.hostif, .out] L = true) (hF : State.onlyIn L s₀ x₀) : State.onlyIn L s₀ (State.gevt x₀ f) := by
  refine State.onlyIn_trans hF ?_
  unfold State.gevt
  try dsimp only
  repeat' first | with_reducible exact State.onlyIn_refl _ _ | with_reducible apply in_gevtMask | with_reducible apply in_ite | with_reducible apply in_ite2 | with_reducible rfl | exact .inl rfl | exact .inr rfl | rfl | with_reducible assumption | exact stPartsIn_trans rfl hL | exact stPartsIn_mem rfl hL | exact .inl (stPartsIn_mem rfl hL) | intro _ | (split <;> try (rename_i h; have e := congrArg Prod.snd h; dsimp only at e; subst e))

theorem in_setStage {L : List StPart} {s₀ x₀ : State} (n : ℕ) (hL : stPartsIn [.pwr] L = true) (hF : State.onlyIn L s₀ x₀) : State.onlyIn L s₀ (State.setStage x₀ n) := by
  refine State.onlyIn_step hL hF ?_
  unfold State.setStage
  try dsimp only
  repeat' first | with_reducible exact State.onlyIn_refl _ _ | with_reducible apply in_gput | with_reducible apply in_ite | with_reducible apply in_ite2 | with_reducible rfl | exact .inl rfl | exact .inr rfl | rfl | with_reducible assumption | intro _ | (split <;> try (rename_i h; have e := congrArg Prod.snd h; dsimp only at e; subst e))

theorem in_setCh {L : List StPart} {s₀ x₀ : State} (n : ChanIx) (c : Channel) (hL : stPartsIn [.ch] L = true) (hF : State.onlyIn L s₀ x₀) : State.onlyIn L s₀ (State.setCh x₀ n c) := by
  refine State.onlyIn_step hL hF ?_
  unfold State.setCh
  try dsimp only
  repeat' first | with_reducible exact State.onlyIn_refl _ _ | with_reducible apply in_ite | with_reducible apply in_ite2 | with_reducible rfl | exact .inl rfl | exact .inr rfl | rfl | with_reducible assumption | intro _ | (split <;> try (rename_i h; have e := congrArg Prod.snd h; dsimp only at e; subst e)) | with_reducible apply in_upd

theorem in_updImg {L : List StPart} {s₀ x₀ : State} (n : ChanIx) (f : ChanImg → ChanImg) (hL : stPartsIn [.image] L = true) (hF : State.onlyIn L s₀ x₀) : State.onlyIn L s₀ (State.updImg x₀ n f) := by
  refine State.onlyIn_step hL hF ?_
  unfold State.updImg
  try dsimp only
  repeat' first | with_reducible exact State.onlyIn_refl _ _ | with_reducible apply in_ite | with_reducible apply in_ite2 | with_reducible rfl | exact .inl rfl | exact .inr rfl | rfl | with_reducible assumption | intro _ | (split <;> try (rename_i h; have e := congrArg Prod.snd h; dsimp only at e; subst e)) | with_reducible apply in_upd

theorem in_putVslot {L : List StPart} {s₀ x₀ : State} (i : ℕ) (x : VSlot) (hL : stPartsIn [.vault] L = true) (hF : State.onlyIn L s₀ x₀) : State.onlyIn L s₀ (State.putVslot x₀ i x) := by
  refine State.onlyIn_step hL hF ?_
  unfold State.putVslot
  try dsimp only
  repeat' first | with_reducible exact State.onlyIn_refl _ _ | with_reducible apply in_ite | with_reducible apply in_ite2 | with_reducible rfl | exact .inl rfl | exact .inr rfl | rfl | with_reducible assumption | intro _ | (split <;> try (rename_i h; have e := congrArg Prod.snd h; dsimp only at e; subst e)) | with_reducible apply in_upd

theorem in_slotSign {L : List StPart} {s₀ x₀ : State} (i : ℕ) (rcpt : ℕ) (digest : Bytes) (hL : stPartsIn [.free] L = true) (hF : State.onlyIn L s₀ x₀) : State.onlyIn L s₀ (State.slotSign x₀ i rcpt digest).2 := by
  refine State.onlyIn_step hL hF ?_
  unfold State.slotSign
  try dsimp only
  repeat' first | with_reducible exact State.onlyIn_refl _ _ | with_reducible apply in_free | with_reducible apply in_ite | with_reducible apply in_ite2 | with_reducible rfl | exact .inl rfl | exact .inr rfl | rfl | with_reducible assumption | intro _ | (split <;> try (rename_i h; have e := congrArg Prod.snd h; dsimp only at e; subst e))

theorem in_dikSign {L : List StPart} {s₀ x₀ : State} (digest : Bytes) (hL : stPartsIn [.free] L = true) (hF : State.onlyIn L s₀ x₀) : State.onlyIn L s₀ (State.dikSign x₀ digest).2 := by
  refine State.onlyIn_step hL hF ?_
  unfold State.dikSign
  try dsimp only
  repeat' first | with_reducible exact State.onlyIn_refl _ _ | with_reducible apply in_free | with_reducible apply in_ite | with_reducible apply in_ite2 | with_reducible rfl | exact .inl rfl | exact .inr rfl | rfl | with_reducible assumption | intro _ | (split <;> try (rename_i h; have e := congrArg Prod.snd h; dsimp only at e; subst e))

theorem in_deliverKeys {L : List StPart} {s₀ x₀ : State} (n : ChanIx) (hL : stPartsIn [.ch] L = true) (hF : State.onlyIn L s₀ x₀) : State.onlyIn L s₀ (State.deliverKeys x₀ n) := by
  refine State.onlyIn_step hL hF ?_
  unfold State.deliverKeys
  try dsimp only
  repeat' first | with_reducible exact State.onlyIn_refl _ _ | with_reducible apply in_setCh | with_reducible apply in_ite | with_reducible apply in_ite2 | with_reducible rfl | exact .inl rfl | exact .inr rfl | rfl | with_reducible assumption | intro _ | (split <;> try (rename_i h; have e := congrArg Prod.snd h; dsimp only at e; subst e))

theorem in_revokeKeys {L : List StPart} {s₀ x₀ : State} (changed : List ℕ) (hL : stPartsIn [.ch] L = true) (hF : State.onlyIn L s₀ x₀) : State.onlyIn L s₀ (State.revokeKeys x₀ changed) := by
  refine State.onlyIn_step hL hF ?_
  unfold State.revokeKeys
  try dsimp only
  repeat' first | with_reducible exact State.onlyIn_refl _ _ | with_reducible apply in_setCh | with_reducible apply in_ite | with_reducible apply in_ite2 | with_reducible apply in_fold | with_reducible apply in_fold2 | with_reducible rfl | exact .inl rfl | exact .inr rfl | rfl | with_reducible assumption | intro _ | (split <;> try (rename_i h; have e := congrArg Prod.snd h; dsimp only at e; subst e))

theorem in_wearOn {L : List StPart} {s₀ x₀ : State} (k : Fin 8) (hL : stPartsIn [.tally] L = true) (hF : State.onlyIn L s₀ x₀) : State.onlyIn L s₀ (State.wearOn x₀ k) := by
  refine State.onlyIn_step hL hF ?_
  unfold State.wearOn
  try dsimp only
  repeat' first | with_reducible exact State.onlyIn_refl _ _ | with_reducible apply in_ite | with_reducible apply in_ite2 | with_reducible rfl | exact .inl rfl | exact .inr rfl | rfl | with_reducible assumption | intro _ | (split <;> try (rename_i h; have e := congrArg Prod.snd h; dsimp only at e; subst e)) | with_reducible apply in_upd

theorem in_mirror {L : List StPart} {s₀ x₀ : State} (bs : Bytes) (hL : stPartsIn [.hostif, .book, .out] L = true) (hF : State.onlyIn L s₀ x₀) : State.onlyIn L s₀ (State.mirror x₀ bs) := by
  refine State.onlyIn_step hL hF ?_
  unfold State.mirror
  try dsimp only
  repeat' first | with_reducible exact State.onlyIn_refl _ _ | with_reducible apply in_gevt | with_reducible apply in_gbump | with_reducible apply in_gput | with_reducible apply in_emit | with_reducible apply in_msix | with_reducible apply in_ite | with_reducible apply in_ite2 | with_reducible rfl | exact .inl rfl | exact .inr rfl | rfl | with_reducible assumption | intro _ | (split <;> try (rename_i h; have e := congrArg Prod.snd h; dsimp only at e; subst e))

theorem in_signRecord {L : List StPart} {s₀ x₀ : State} (last : ℕ) (hL : stPartsIn [.hostif, .book, .tally, .free, .out] L = true) (hF : State.onlyIn L s₀ x₀) : State.onlyIn L s₀ (x₀.signRecord last) := by
  refine State.onlyIn_step hL hF ?_
  unfold State.signRecord
  extract_lets dig hd k r s1 b
  have hr : State.onlyIn [.hostif, .book, .tally, .free, .out] x₀ r.2 := in_ite2 (State.onlyIn_refl _ _) (in_slotSign _ _ _ rfl (State.onlyIn_refl _ _))
  have h1 : State.onlyIn [.hostif, .book, .tally, .free, .out] x₀ s1 := in_gput _ _ rfl (in_wearOn _ rfl hr)
  clear_value s1
  exact in_gevt _ rfl rfl (in_upd h1 rfl (.inr rfl) (.inr rfl) (.inr rfl) (.inr rfl) (.inr rfl) (.inr rfl) (.inr rfl) (.inl rfl) (.inr rfl) (.inr rfl) (.inr rfl) (.inr rfl) (.inr rfl) (.inr rfl) (.inr rfl) (.inr rfl) (.inr rfl))

theorem in_bookAppend {L : List StPart} {s₀ x₀ : State} (e : BookEnt) (hL : stPartsIn [.hostif, .book, .tally, .free, .out] L = true) (hF : State.onlyIn L s₀ x₀) : State.onlyIn L s₀ (State.bookAppend x₀ e) := by
  refine State.onlyIn_step hL hF ?_
  unfold State.bookAppend
  try dsimp only
  repeat' first | with_reducible exact State.onlyIn_refl _ _ | with_reducible apply in_wearOn | with_reducible apply in_mirror | with_reducible apply in_gevt | with_reducible apply in_signRecord | with_reducible apply in_ite | with_reducible apply in_ite2 | with_reducible rfl | exact .inl rfl | exact .inr rfl | rfl | with_reducible assumption | intro _ | (split <;> try (rename_i h; have e := congrArg Prod.snd h; dsimp only at e; subst e)) | with_reducible apply in_upd

theorem in_book1 {L : List StPart} {s₀ x₀ : State} (c : Change) (hL : stPartsIn [.book] L = true) (hF : State.onlyIn L s₀ x₀) : State.onlyIn L s₀ (State.book1 x₀ c) := by
  refine State.onlyIn_step hL hF ?_
  unfold State.book1
  try dsimp only
  repeat' first | with_reducible exact State.onlyIn_refl _ _ | with_reducible apply in_ite | with_reducible apply in_ite2 | with_reducible rfl | exact .inl rfl | exact .inr rfl | rfl | with_reducible assumption | intro _ | (split <;> try (rename_i h; have e := congrArg Prod.snd h; dsimp only at e; subst e)) | with_reducible apply in_upd

theorem in_bookAll {L : List StPart} {s₀ x₀ : State} (cs : List Change) (hL : stPartsIn [.book] L = true) (hF : State.onlyIn L s₀ x₀) : State.onlyIn L s₀ (State.bookAll x₀ cs) := by
  refine State.onlyIn_step hL hF ?_
  unfold State.bookAll
  try dsimp only
  repeat' first | with_reducible exact State.onlyIn_refl _ _ | with_reducible apply in_book1 | with_reducible apply in_ite | with_reducible apply in_ite2 | with_reducible apply in_fold | with_reducible apply in_fold2 | with_reducible rfl | exact .inl rfl | exact .inr rfl | rfl | with_reducible assumption | intro _ | (split <;> try (rename_i h; have e := congrArg Prod.snd h; dsimp only at e; subst e))

theorem in_bookEnter {L : List StPart} {s₀ x₀ : State} (e : BookEnt) (hL : stPartsIn [.hostif, .book, .tally, .free, .out] L = true) (hF : State.onlyIn L s₀ x₀) : State.onlyIn L s₀ (State.bookEnter x₀ e) := by
  refine State.onlyIn_step hL hF ?_
  unfold State.bookEnter
  try dsimp only
  repeat' first | with_reducible exact State.onlyIn_refl _ _ | with_reducible apply in_bookAppend | with_reducible apply in_gevt | with_reducible apply in_gbump | with_reducible apply in_ite | with_reducible apply in_ite2 | with_reducible rfl | exact .inl rfl | exact .inr rfl | rfl | with_reducible assumption | intro _ | (split <;> try (rename_i h; have e := congrArg Prod.snd h; dsimp only at e; subst e)) | with_reducible apply in_upd

theorem in_bookFlush {L : List StPart} {s₀ x₀ : State} (hL : stPartsIn [.hostif, .book, .tally, .free, .out] L = true) (hF : State.onlyIn L s₀ x₀) : State.onlyIn L s₀ (State.bookFlush x₀) := by
  refine State.onlyIn_step hL hF ?_
  unfold State.bookFlush
  try dsimp only
  repeat' first | with_reducible exact State.onlyIn_refl _ _ | with_reducible apply in_bookEnter | with_reducible apply in_ite | with_reducible apply in_ite2 | with_reducible apply in_fold | with_reducible apply in_fold2 | with_reducible rfl | exact .inl rfl | exact .inr rfl | rfl | with_reducible assumption | intro _ | (split <;> try (rename_i h; have e := congrArg Prod.snd h; dsimp only at e; subst e)) | with_reducible apply in_upd

theorem in_bookWindow {L : List StPart} {s₀ x₀ : State} (hL : stPartsIn [.hostif, .book, .tally, .free, .out] L = true) (hF : State.onlyIn L s₀ x₀) : State.onlyIn L s₀ (State.bookWindow x₀) := by
  refine State.onlyIn_step hL hF ?_
  unfold State.bookWindow
  try dsimp only
  repeat' first | with_reducible exact State.onlyIn_refl _ _ | with_reducible apply in_bookAppend | with_reducible apply in_ite | with_reducible apply in_ite2 | with_reducible apply in_fold | with_reducible apply in_fold2 | with_reducible rfl | exact .inl rfl | exact .inr rfl | rfl | with_reducible assumption | intro _ | (split <;> try (rename_i h; have e := congrArg Prod.snd h; dsimp only at e; subst e)) | with_reducible apply in_upd

theorem in_bookSave {L : List StPart} {s₀ x₀ : State} (hL : stPartsIn [.hostif, .book, .tally, .free, .out] L = true) (hF : State.onlyIn L s₀ x₀) : State.onlyIn L s₀ (State.bookSave x₀) := by
  refine State.onlyIn_step hL hF ?_
  unfold State.bookSave
  try dsimp only
  repeat' first | with_reducible exact State.onlyIn_refl _ _ | with_reducible apply in_bookFlush | with_reducible apply in_bookAppend | with_reducible apply in_ite | with_reducible apply in_ite2 | with_reducible apply in_fold | with_reducible apply in_fold2 | with_reducible rfl | exact .inl rfl | exact .inr rfl | rfl | with_reducible assumption | intro _ | (split <;> try (rename_i h; have e := congrArg Prod.snd h; dsimp only at e; subst e)) | with_reducible apply in_upd

theorem in_bookSt {L : List StPart} {s₀ x₀ : State} (org : Origin) (target : ℕ) (old : Word) (new : Word) (hL : stPartsIn [.book] L = true) (hF : State.onlyIn L s₀ x₀) : State.onlyIn L s₀ (State.bookSt x₀ org target old new) := by
  refine State.onlyIn_step hL hF ?_
  unfold State.bookSt
  try dsimp only
  repeat' first | with_reducible exact State.onlyIn_refl _ _ | with_reducible apply in_book1 | with_reducible apply in_ite | with_reducible apply in_ite2 | with_reducible rfl | exact .inl rfl | exact .inr rfl | rfl | with_reducible assumption | intro _ | (split <;> try (rename_i h; have e := congrArg Prod.snd h; dsimp only at e; subst e))

theorem in_updTally {L : List StPart} {s₀ x₀ : State} (f : TallyRec → TallyRec) (hL : stPartsIn [.tally] L = true) (hF : State.onlyIn L s₀ x₀) : State.onlyIn L s₀ (State.updTally x₀ f) := by
  refine State.onlyIn_step hL hF ?_
  unfold State.updTally
  try dsimp only
  repeat' first | with_reducible exact State.onlyIn_refl _ _ | with_reducible apply in_ite | with_reducible apply in_ite2 | with_reducible rfl | exact .inl rfl | exact .inr rfl | rfl | with_reducible assumption | intro _ | (split <;> try (rename_i h; have e := congrArg Prod.snd h; dsimp only at e; subst e)) | with_reducible apply in_upd

theorem in_updCmd {L : List StPart} {s₀ x₀ : State} (slot : ℕ) (f : CmdSt → CmdSt) (hL : stPartsIn [.cmdq] L = true) (hF : State.onlyIn L s₀ x₀) : State.onlyIn L s₀ (State.updCmd x₀ slot f) := by
  refine State.onlyIn_step hL hF ?_
  unfold State.updCmd
  try dsimp only
  repeat' first | with_reducible exact State.onlyIn_refl _ _ | with_reducible apply in_ite | with_reducible apply in_ite2 | with_reducible rfl | exact .inl rfl | exact .inr rfl | rfl | with_reducible assumption | intro _ | (split <;> try (rename_i h; have e := congrArg Prod.snd h; dsimp only at e; subst e)) | with_reducible apply in_upd

theorem in_setCmdState {L : List StPart} {s₀ x₀ : State} (slot : ℕ) (st : ℕ) (hL : stPartsIn [.cmdq] L = true) (hF : State.onlyIn L s₀ x₀) : State.onlyIn L s₀ (State.setCmdState x₀ slot st) := by
  refine State.onlyIn_step hL hF ?_
  unfold State.setCmdState
  try dsimp only
  repeat' first | with_reducible exact State.onlyIn_refl _ _ | with_reducible apply in_gsetWord | with_reducible apply in_ite | with_reducible apply in_ite2 | with_reducible rfl | exact .inl rfl | exact .inr rfl | rfl | with_reducible assumption | intro _ | (split <;> try (rename_i h; have e := congrArg Prod.snd h; dsimp only at e; subst e))

theorem in_setProgress {L : List StPart} {s₀ x₀ : State} (slot : ℕ) (n : ℕ) (hL : stPartsIn [.cmdq] L = true) (hF : State.onlyIn L s₀ x₀) : State.onlyIn L s₀ (State.setProgress x₀ slot n) := by
  refine State.onlyIn_step hL hF ?_
  unfold State.setProgress
  try dsimp only
  repeat' first | with_reducible exact State.onlyIn_refl _ _ | with_reducible apply in_gsetWord | with_reducible apply in_ite | with_reducible apply in_ite2 | with_reducible rfl | exact .inl rfl | exact .inr rfl | rfl | with_reducible assumption | intro _ | (split <;> try (rename_i h; have e := congrArg Prod.snd h; dsimp only at e; subst e))

theorem in_endCmd {L : List StPart} {s₀ x₀ : State} (slot : ℕ) (res : ℕ) (rdata : ℕ) (hL : stPartsIn [.hostif, .cmdq, .out] L = true) (hF : State.onlyIn L s₀ x₀) : State.onlyIn L s₀ (State.endCmd x₀ slot res rdata) := by
  refine State.onlyIn_step hL hF ?_
  unfold State.endCmd
  try dsimp only
  repeat' first | with_reducible exact State.onlyIn_refl _ _ | with_reducible apply in_gsetWord | with_reducible apply in_gevt | with_reducible apply in_gput | with_reducible apply in_msix | with_reducible apply in_ite | with_reducible apply in_ite2 | with_reducible rfl | exact .inl rfl | exact .inr rfl | rfl | with_reducible assumption | intro _ | (split <;> try (rename_i h; have e := congrArg Prod.snd h; dsimp only at e; subst e)) | with_reducible apply in_upd

theorem in_failCmd {L : List StPart} {s₀ x₀ : State} (slot : ℕ) (res : ℕ) (hL : stPartsIn [.hostif, .cmdq, .out] L = true) (hF : State.onlyIn L s₀ x₀) : State.onlyIn L s₀ (State.failCmd x₀ slot res) := by
  refine State.onlyIn_step hL hF ?_
  unfold State.failCmd
  try dsimp only
  repeat' first | with_reducible exact State.onlyIn_refl _ _ | with_reducible apply in_endCmd | with_reducible apply in_ite | with_reducible apply in_ite2 | with_reducible rfl | exact .inl rfl | exact .inr rfl | rfl | with_reducible assumption | intro _ | (split <;> try (rename_i h; have e := congrArg Prod.snd h; dsimp only at e; subst e))

theorem in_nextLseq {L : List StPart} {s₀ x₀ : State} (l : Fin 2) (hL : stPartsIn [.twin] L = true) (hF : State.onlyIn L s₀ x₀) : State.onlyIn L s₀ (State.nextLseq x₀ l).2 := by
  refine State.onlyIn_step hL hF ?_
  unfold State.nextLseq
  try dsimp only
  repeat' first | with_reducible exact State.onlyIn_refl _ _ | with_reducible apply in_ite | with_reducible apply in_ite2 | with_reducible rfl | exact .inl rfl | exact .inr rfl | rfl | with_reducible assumption | intro _ | (split <;> try (rename_i h; have e := congrArg Prod.snd h; dsimp only at e; subst e)) | with_reducible apply in_upd

theorem in_twinSendOn {L : List StPart} {s₀ x₀ : State} (l : Fin 2) (ty : ℕ) (ch : ℕ) (pl : Bytes) (hL : stPartsIn [.twin, .out] L = true) (hF : State.onlyIn L s₀ x₀) : State.onlyIn L s₀ (State.twinSendOn x₀ l ty ch pl) := by
  refine State.onlyIn_step hL hF ?_
  unfold State.twinSendOn
  try dsimp only
  repeat' first | with_reducible exact State.onlyIn_refl _ _ | with_reducible apply in_nextLseq | with_reducible apply in_emit | with_reducible apply in_ite | with_reducible apply in_ite2 | with_reducible rfl | exact .inl rfl | exact .inr rfl | rfl | with_reducible assumption | intro _ | (split <;> try (rename_i h; have e := congrArg Prod.snd h; dsimp only at e; subst e))

theorem in_twinSend {L : List StPart} {s₀ x₀ : State} (ty : ℕ) (n : ℕ) (pl : Bytes) (hL : stPartsIn [.twin, .out] L = true) (hF : State.onlyIn L s₀ x₀) : State.onlyIn L s₀ (State.twinSend x₀ ty n pl) := by
  refine State.onlyIn_step hL hF ?_
  unfold State.twinSend
  try dsimp only
  repeat' first | with_reducible exact State.onlyIn_refl _ _ | with_reducible apply in_twinSendOn | with_reducible apply in_ite | with_reducible apply in_ite2 | with_reducible rfl | exact .inl rfl | exact .inr rfl | rfl | with_reducible assumption | intro _ | (split <;> try (rename_i h; have e := congrArg Prod.snd h; dsimp only at e; subst e))

theorem in_streamJour {L : List StPart} {s₀ x₀ : State} (n : ChanIx) (e : JEntry) (hL : stPartsIn [.twin, .out] L = true) (hF : State.onlyIn L s₀ x₀) : State.onlyIn L s₀ (State.streamJour x₀ n e) := by
  refine State.onlyIn_step hL hF ?_
  unfold State.streamJour
  try dsimp only
  repeat' first | with_reducible exact State.onlyIn_refl _ _ | with_reducible apply in_twinSend | with_reducible apply in_ite | with_reducible apply in_ite2 | with_reducible rfl | exact .inl rfl | exact .inr rfl | rfl | with_reducible assumption | intro _ | (split <;> try (rename_i h; have e := congrArg Prod.snd h; dsimp only at e; subst e))

theorem in_imgIdle {L : List StPart} {s₀ x₀ : State} (hL : stPartsIn [.image] L = true) (hF : State.onlyIn L s₀ x₀) : State.onlyIn L s₀ (State.imgIdle x₀) := by
  refine State.onlyIn_step hL hF ?_
  unfold State.imgIdle
  try dsimp only
  repeat' first | with_reducible exact State.onlyIn_refl _ _ | with_reducible apply in_gput | with_reducible apply in_ite | with_reducible apply in_ite2 | with_reducible rfl | exact .inl rfl | exact .inr rfl | rfl | with_reducible assumption | intro _ | (split <;> try (rename_i h; have e := congrArg Prod.snd h; dsimp only at e; subst e))

theorem in_vclkNow {L : List StPart} {s₀ x₀ : State} (hL : stPartsIn [.vault, .free] L = true) (hF : State.onlyIn L s₀ x₀) : State.onlyIn L s₀ (State.vclkNow x₀).2 := by
  refine State.onlyIn_step hL hF ?_
  unfold State.vclkNow
  try dsimp only
  repeat' first | with_reducible exact State.onlyIn_refl _ _ | with_reducible apply in_free | with_reducible apply in_ite | with_reducible apply in_ite2 | with_reducible rfl | exact .inl rfl | exact .inr rfl | rfl | with_reducible assumption | intro _ | (split <;> try (rename_i h; have e := congrArg Prod.snd h; dsimp only at e; subst e)) | with_reducible apply in_upd

theorem in_copyEntry {L : List StPart} {s₀ x₀ : State} (k : ℕ) (e : VLog) (hL : stPartsIn [.vault, .book, .free] L = true) (hF : State.onlyIn L s₀ x₀) : State.onlyIn L s₀ (State.copyEntry x₀ k e) := by
  refine State.onlyIn_step hL hF ?_
  unfold State.copyEntry
  try dsimp only
  repeat' first | with_reducible exact State.onlyIn_refl _ _ | with_reducible apply in_vclkNow | with_reducible apply in_book1 | with_reducible apply in_ite | with_reducible apply in_ite2 | with_reducible rfl | exact .inl rfl | exact .inr rfl | rfl | with_reducible assumption | intro _ | (split <;> try (rename_i h; have e := congrArg Prod.snd h; dsimp only at e; subst e))

theorem in_copyLog {L : List StPart} {s₀ x₀ : State} (hL : stPartsIn [.hostif, .vault, .book, .free, .out] L = true) (hF : State.onlyIn L s₀ x₀) : State.onlyIn L s₀ (State.copyLog x₀) := by
  refine State.onlyIn_step hL hF ?_
  unfold State.copyLog
  try dsimp only
  repeat' first | with_reducible exact State.onlyIn_refl _ _ | with_reducible apply in_copyEntry | with_reducible apply in_gevt | with_reducible apply in_ite | with_reducible apply in_ite2 | with_reducible apply in_fold | with_reducible apply in_fold2 | with_reducible rfl | exact .inl rfl | exact .inr rfl | rfl | with_reducible assumption | intro _ | (split <;> try (rename_i h; have e := congrArg Prod.snd h; dsimp only at e; subst e)) | with_reducible apply in_upd

theorem in_powerSettle {L : List StPart} {s₀ x₀ : State} (hL : stPartsIn [.hostif, .vault, .book, .pwr, .free, .out] L = true) (hF : State.onlyIn L s₀ x₀) : State.onlyIn L s₀ (State.powerSettle x₀) := by
  refine State.onlyIn_step hL hF ?_
  unfold State.powerSettle
  try dsimp only
  repeat' first | with_reducible exact State.onlyIn_refl _ _ | with_reducible apply in_copyLog | with_reducible apply in_gput | with_reducible apply in_ite | with_reducible apply in_ite2 | with_reducible rfl | exact .inl rfl | exact .inr rfl | rfl | with_reducible assumption | intro _ | (split <;> try (rename_i h; have e := congrArg Prod.snd h; dsimp only at e; subst e)) | with_reducible apply in_upd

theorem in_failChanOps {L : List StPart} {s₀ x₀ : State} (n : ChanIx) (hL : stPartsIn [.hostif, .cmdq, .out] L = true) (hF : State.onlyIn L s₀ x₀) : State.onlyIn L s₀ (State.failChanOps x₀ n) := by
  refine State.onlyIn_step hL hF ?_
  unfold State.failChanOps
  try dsimp only
  repeat' first | with_reducible exact State.onlyIn_refl _ _ | with_reducible apply in_failCmd | with_reducible apply in_ite | with_reducible apply in_ite2 | with_reducible apply in_fold | with_reducible apply in_fold2 | with_reducible rfl | exact .inl rfl | exact .inr rfl | rfl | with_reducible assumption | intro _ | (split <;> try (rename_i h; have e := congrArg Prod.snd h; dsimp only at e; subst e))

theorem in_reqAbsent {L : List StPart} {s₀ x₀ : State} (n : ChanIx) (hL : stPartsIn [.image] L = true) (hF : State.onlyIn L s₀ x₀) : State.onlyIn L s₀ (State.reqAbsent x₀ n) := by
  refine State.onlyIn_step hL hF ?_
  unfold State.reqAbsent
  try dsimp only
  repeat' first | with_reducible exact State.onlyIn_refl _ _ | with_reducible apply in_gbump | with_reducible apply in_ite | with_reducible apply in_ite2 | with_reducible rfl | exact .inl rfl | exact .inr rfl | rfl | with_reducible assumption | intro _ | (split <;> try (rename_i h; have e := congrArg Prod.snd h; dsimp only at e; subst e))

theorem in_dropReplies {L : List StPart} {s₀ x₀ : State} (n : ChanIx) (hL : stPartsIn [.hostif, .bench, .image, .out] L = true) (hF : State.onlyIn L s₀ x₀) : State.onlyIn L s₀ (State.dropReplies x₀ n) := by
  refine State.onlyIn_step hL hF ?_
  unfold State.dropReplies
  try dsimp only
  repeat' first | with_reducible exact State.onlyIn_refl _ _ | with_reducible apply in_gbumpBy | with_reducible apply in_gevt | with_reducible apply in_ite | with_reducible apply in_ite2 | with_reducible rfl | exact .inl rfl | exact .inr rfl | rfl | with_reducible assumption | intro _ | (split <;> try (rename_i h; have e := congrArg Prod.snd h; dsimp only at e; subst e)) | with_reducible apply in_upd

theorem in_setChSt {L : List StPart} {s₀ x₀ : State} (n : ChanIx) (st : ℕ) (hL : stPartsIn [.hostif, .cmdq, .vault, .book, .bench, .pwr, .image, .ch, .free, .out] L = true) (hF : State.onlyIn L s₀ x₀) : State.onlyIn L s₀ (State.setChSt x₀ n st) := by
  refine State.onlyIn_step hL hF ?_
  unfold State.setChSt
  try dsimp only
  repeat' first | with_reducible exact State.onlyIn_refl _ _ | with_reducible apply in_dropReplies | with_reducible apply in_failChanOps | with_reducible apply in_setCh | with_reducible apply in_powerSettle | with_reducible apply in_gput | with_reducible apply in_ite | with_reducible apply in_ite2 | with_reducible rfl | exact .inl rfl | exact .inr rfl | rfl | with_reducible assumption | intro _ | (split <;> try (rename_i h; have e := congrArg Prod.snd h; dsimp only at e; subst e))

theorem in_setRoot {L : List StPart} {s₀ x₀ : State} (r : ℕ) (st : ℕ) (hL : stPartsIn [.hostif, .clkgen, .out] L = true) (hF : State.onlyIn L s₀ x₀) : State.onlyIn L s₀ (State.setRoot x₀ r st) := by
  refine State.onlyIn_step hL hF ?_
  unfold State.setRoot
  try dsimp only
  repeat' first | with_reducible exact State.onlyIn_refl _ _ | with_reducible apply in_gevt | with_reducible apply in_gput | with_reducible apply in_ite | with_reducible apply in_ite2 | with_reducible rfl | exact .inl rfl | exact .inr rfl | rfl | with_reducible assumption | intro _ | (split <;> try (rename_i h; have e := congrArg Prod.snd h; dsimp only at e; subst e))

theorem in_powerUp {L : List StPart} {s₀ x₀ : State} (n : ChanIx) (hL : stPartsIn [.image] L = true) (hF : State.onlyIn L s₀ x₀) : State.onlyIn L s₀ (State.powerUp x₀ n) := by
  refine State.onlyIn_step hL hF ?_
  unfold State.powerUp
  try dsimp only
  repeat' first | with_reducible exact State.onlyIn_refl _ _ | with_reducible apply in_updImg | with_reducible apply in_ite | with_reducible apply in_ite2 | with_reducible rfl | exact .inl rfl | exact .inr rfl | rfl | with_reducible assumption | intro _ | (split <;> try (rename_i h; have e := congrArg Prod.snd h; dsimp only at e; subst e))

theorem in_powerDown {L : List StPart} {s₀ x₀ : State} (n : ChanIx) (hL : stPartsIn [.image] L = true) (hF : State.onlyIn L s₀ x₀) : State.onlyIn L s₀ (State.powerDown x₀ n) := by
  refine State.onlyIn_step hL hF ?_
  unfold State.powerDown
  try dsimp only
  repeat' first | with_reducible exact State.onlyIn_refl _ _ | with_reducible apply in_updImg | with_reducible apply in_ite | with_reducible apply in_ite2 | with_reducible rfl | exact .inl rfl | exact .inr rfl | rfl | with_reducible assumption | intro _ | (split <;> try (rename_i h; have e := congrArg Prod.snd h; dsimp only at e; subst e))

theorem in_stopLoad {L : List StPart} {s₀ x₀ : State} (n : ChanIx) (err : Option ℕ) (res : ℕ) (hL : stPartsIn [.hostif, .cmdq, .vault, .book, .bench, .pwr, .image, .ch, .free, .out] L = true) (hF : State.onlyIn L s₀ x₀) : State.onlyIn L s₀ (State.stopLoad x₀ n err res) := by
  refine State.onlyIn_step hL hF ?_
  unfold State.stopLoad
  try dsimp only
  repeat' first | with_reducible exact State.onlyIn_refl _ _ | with_reducible apply in_updImg | with_reducible apply in_gput | with_reducible apply in_imgIdle | with_reducible apply in_setChSt | with_reducible apply in_powerDown | with_reducible apply in_gevt | with_reducible apply in_endCmd | with_reducible apply in_ite | with_reducible apply in_ite2 | with_reducible rfl | exact .inl rfl | exact .inr rfl | rfl | with_reducible assumption | intro _ | (split <;> try (rename_i h; have e := congrArg Prod.snd h; dsimp only at e; subst e))

theorem in_stopDevice {L : List StPart} {s₀ x₀ : State} (err : Option ℕ) (res : ℕ) (hL : stPartsIn [.hostif, .cmdq, .pwr, .image, .out] L = true) (hF : State.onlyIn L s₀ x₀) : State.onlyIn L s₀ (State.stopDevice x₀ err res) := by
  refine State.onlyIn_step hL hF ?_
  unfold State.stopDevice
  try dsimp only
  repeat' first | with_reducible exact State.onlyIn_refl _ _ | with_reducible apply in_gput | with_reducible apply in_gevt | with_reducible apply in_setStage | with_reducible apply in_imgIdle | with_reducible apply in_endCmd | with_reducible apply in_ite | with_reducible apply in_ite2 | with_reducible rfl | exact .inl rfl | exact .inr rfl | rfl | with_reducible assumption | intro _ | (split <;> try (rename_i h; have e := congrArg Prod.snd h; dsimp only at e; subst e)) | with_reducible apply in_upd

theorem in_stopLoads {L : List StPart} {s₀ x₀ : State} (err : Option ℕ) (res : ℕ) (hL : stPartsIn [.hostif, .cmdq, .vault, .book, .bench, .pwr, .image, .ch, .free, .out] L = true) (hF : State.onlyIn L s₀ x₀) : State.onlyIn L s₀ (State.stopLoads x₀ err res) := by
  refine State.onlyIn_step hL hF ?_
  unfold State.stopLoads
  try dsimp only
  repeat' first | with_reducible exact State.onlyIn_refl _ _ | with_reducible apply in_stopDevice | with_reducible apply in_stopLoad | with_reducible apply in_ite | with_reducible apply in_ite2 | with_reducible apply in_fold | with_reducible apply in_fold2 | with_reducible rfl | exact .inl rfl | exact .inr rfl | rfl | with_reducible assumption | intro _ | (split <;> try (rename_i h; have e := congrArg Prod.snd h; dsimp only at e; subst e))

theorem in_abortCmd {L : List StPart} {s₀ x₀ : State} (slot : ℕ) (res : ℕ) (hL : stPartsIn [.hostif, .cmdq, .vault, .book, .twin, .bench, .pwr, .image, .ch, .free, .out] L = true) (hF : State.onlyIn L s₀ x₀) : State.onlyIn L s₀ (State.abortCmd x₀ slot res) := by
  refine State.onlyIn_step hL hF ?_
  unfold State.abortCmd
  try dsimp only
  repeat' first | with_reducible exact State.onlyIn_refl _ _ | with_reducible apply in_setCh | with_reducible apply in_stopDevice | with_reducible apply in_stopLoad | with_reducible apply in_endCmd | with_reducible apply in_ite | with_reducible apply in_ite2 | with_reducible apply in_fold | with_reducible apply in_fold2 | with_reducible rfl | exact .inl rfl | exact .inr rfl | rfl | with_reducible assumption | intro _ | (split <;> try (rename_i h; have e := congrArg Prod.snd h; dsimp only at e; subst e)) | with_reducible apply in_upd

theorem in_driveCh {L : List StPart} {s₀ x₀ : State} (n : ChanIx) (hL : stPartsIn [.ch] L = true) (hF : State.onlyIn L s₀ x₀) : State.onlyIn L s₀ (State.driveCh x₀ n) := by
  refine State.onlyIn_step hL hF ?_
  unfold State.driveCh
  try dsimp only
  repeat' first | with_reducible exact State.onlyIn_refl _ _ | with_reducible apply in_setCh | with_reducible apply in_ite | with_reducible apply in_ite2 | with_reducible rfl | exact .inl rfl | exact .inr rfl | rfl | with_reducible assumption | intro _ | (split <;> try (rename_i h; have e := congrArg Prod.snd h; dsimp only at e; subst e))

theorem in_setDrive {L : List StPart} {s₀ x₀ : State} (b : Bool) (hL : stPartsIn [.hostif, .twin, .ch, .out] L = true) (hF : State.onlyIn L s₀ x₀) : State.onlyIn L s₀ (State.setDrive x₀ b) := by
  refine State.onlyIn_step hL hF ?_
  unfold State.setDrive
  try dsimp only
  repeat' first | with_reducible exact State.onlyIn_refl _ _ | with_reducible apply in_gevt | with_reducible apply in_gput | with_reducible apply in_driveCh | with_reducible apply in_ite | with_reducible apply in_ite2 | with_reducible apply in_fold | with_reducible apply in_fold2 | with_reducible rfl | exact .inl rfl | exact .inr rfl | rfl | with_reducible assumption | intro _ | (split <;> try (rename_i h; have e := congrArg Prod.snd h; dsimp only at e; subst e))

theorem in_quietCh {L : List StPart} {s₀ x₀ : State} (n : ChanIx) (hL : stPartsIn [.ch] L = true) (hF : State.onlyIn L s₀ x₀) : State.onlyIn L s₀ (State.quietCh x₀ n) := by
  refine State.onlyIn_step hL hF ?_
  unfold State.quietCh
  try dsimp only
  repeat' first | with_reducible exact State.onlyIn_refl _ _ | with_reducible apply in_setCh | with_reducible apply in_ite | with_reducible apply in_ite2 | with_reducible apply in_fold | with_reducible apply in_fold2 | with_reducible rfl | exact .inl rfl | exact .inr rfl | rfl | with_reducible assumption | intro _ | (split <;> try (rename_i h; have e := congrArg Prod.snd h; dsimp only at e; subst e))

theorem in_enterSafe {L : List StPart} {s₀ x₀ : State} (cause src : ℕ) (hL : stPartsIn [.hostif, .cmdq, .fault, .vault, .book, .twin, .bench, .pwr, .image, .ch, .free, .out] L = true) (hF : State.onlyIn L s₀ x₀) : State.onlyIn L s₀ (x₀.enterSafe cause src) := by
  refine State.onlyIn_step hL hF ?_
  unfold State.enterSafe
  refine in_ite (State.onlyIn_refl _ _) ?_
  extract_lets old s1 z s2 s3 s4 w s5
  have h1 : State.onlyIn [.hostif, .cmdq, .fault, .vault, .book, .twin, .bench, .pwr, .image, .ch, .free, .out] x₀ s1 := in_gput _ _ rfl (in_gput _ _ rfl (in_gput _ _ rfl (State.onlyIn_refl _ _)))
  clear_value s1
  have h2 : State.onlyIn [.hostif, .cmdq, .fault, .vault, .book, .twin, .bench, .pwr, .image, .ch, .free, .out] x₀ s2 := in_msix _ rfl (in_upd h1 rfl (.inr rfl) (.inr rfl) (.inr rfl) (.inr rfl) (.inr rfl) (.inl rfl) (.inr rfl) (.inr rfl) (.inr rfl) (.inr rfl) (.inr rfl) (.inr rfl) (.inr rfl) (.inr rfl) (.inr rfl) (.inr rfl) (.inr rfl))
  clear_value s2
  have h3 : State.onlyIn [.hostif, .cmdq, .fault, .vault, .book, .twin, .bench, .pwr, .image, .ch, .free, .out] x₀ s3 := in_fold (in_stopLoads _ _ rfl h2) (fun y a => in_abortCmd _ _ rfl (State.onlyIn_refl _ _))
  clear_value s3
  have h4 : State.onlyIn [.hostif, .cmdq, .fault, .vault, .book, .twin, .bench, .pwr, .image, .ch, .free, .out] x₀ s4 := in_fold (in_setDrive _ rfl h3) (fun y a => in_quietCh _ rfl (State.onlyIn_refl _ _))
  clear_value s4
  have h5 : State.onlyIn [.hostif, .cmdq, .fault, .vault, .book, .twin, .bench, .pwr, .image, .ch, .free, .out] x₀ s5 := in_upd h4 rfl (.inr rfl) (.inr rfl) (.inr rfl) (.inr rfl) (.inr rfl) (.inr rfl) (.inr rfl) (.inr rfl) (.inr rfl) (.inl rfl) (.inr rfl) (.inr rfl) (.inr rfl) (.inr rfl) (.inr rfl) (.inr rfl) (.inr rfl)
  clear_value s5
  exact in_bookSt _ _ _ _ rfl h5

theorem in_loadHeld {L : List StPart} {s₀ x₀ : State} (n : ChanIx) (org : Origin) (carry : Bool) (rack : Bool) (hL : stPartsIn [.image] L = true) (hF : State.onlyIn L s₀ x₀) : State.onlyIn L s₀ (State.loadHeld x₀ n org carry rack) := by
  refine State.onlyIn_step hL hF ?_
  unfold State.loadHeld
  try dsimp only
  repeat' first | with_reducible exact State.onlyIn_refl _ _ | with_reducible apply in_updImg | with_reducible apply in_gput | with_reducible apply in_ite | with_reducible apply in_ite2 | with_reducible rfl | exact .inl rfl | exact .inr rfl | rfl | with_reducible assumption | intro _ | (split <;> try (rename_i h; have e := congrArg Prod.snd h; dsimp only at e; subst e))

theorem in_resetCommon {L : List StPart} {s₀ x₀ : State} (b : CB) (hL : stPartsIn [.hostif, .cmdq, .vault, .book, .tally, .twin, .bench, .pwr, .image, .ch, .free, .out] L = true) (hF : State.onlyIn L s₀ x₀) : State.onlyIn L s₀ (State.resetCommon x₀ b) := by
  refine State.onlyIn_step hL hF ?_
  unfold State.resetCommon
  try dsimp only
  repeat' first | with_reducible exact State.onlyIn_refl _ _ | with_reducible apply in_abortCmd | with_reducible apply in_bookAppend | with_reducible apply in_gput | with_reducible apply in_stopLoads | with_reducible apply in_ite | with_reducible apply in_ite2 | with_reducible apply in_fold | with_reducible apply in_fold2 | with_reducible rfl | exact .inl rfl | exact .inr rfl | rfl | with_reducible assumption | intro _ | (split <;> try (rename_i h; have e := congrArg Prod.snd h; dsimp only at e; subst e)) | with_reducible apply in_upd

theorem in_blockReset {L : List StPart} {s₀ x₀ : State} (n : ℕ) (old : Word) (new : Word) (hL : stPartsIn [.hostif, .cmdq, .vault, .book, .tally, .twin, .bench, .pwr, .image, .ch, .free, .out] L = true) (hF : State.onlyIn L s₀ x₀) : State.onlyIn L s₀ (State.blockReset x₀ n old new) := by
  refine State.onlyIn_step hL hF ?_
  unfold State.blockReset
  try dsimp only
  repeat' first | with_reducible exact State.onlyIn_refl _ _ | with_reducible apply in_bookSt | with_reducible apply in_loadHeld | with_reducible apply in_resetCommon | with_reducible apply in_ite | with_reducible apply in_ite2 | with_reducible rfl | exact .inl rfl | exact .inr rfl | rfl | with_reducible assumption | intro _ | (split <;> try (rename_i h; have e := congrArg Prod.snd h; dsimp only at e; subst e))

theorem in_blockDue {L : List StPart} {s₀ x₀ : State} (n : ℕ) (old : Word) (new : Word) (hL : stPartsIn [.fault] L = true) (hF : State.onlyIn L s₀ x₀) : State.onlyIn L s₀ (State.blockDue x₀ n old new) := by
  refine State.onlyIn_step hL hF ?_
  unfold State.blockDue
  try dsimp only
  repeat' first | with_reducible exact State.onlyIn_refl _ _ | with_reducible apply in_ite | with_reducible apply in_ite2 | with_reducible rfl | exact .inl rfl | exact .inr rfl | rfl | with_reducible assumption | intro _ | (split <;> try (rename_i h; have e := congrArg Prod.snd h; dsimp only at e; subst e)) | with_reducible apply in_upd

theorem in_blockResets {L : List StPart} {s₀ x₀ : State} (hL : stPartsIn [.hostif, .cmdq, .fault, .vault, .book, .tally, .twin, .bench, .pwr, .image, .ch, .free, .out] L = true) (hF : State.onlyIn L s₀ x₀) : State.onlyIn L s₀ (State.blockResets x₀) := by
  refine State.onlyIn_step hL hF ?_
  unfold State.blockResets
  try dsimp only
  repeat' first | with_reducible exact State.onlyIn_refl _ _ | with_reducible apply in_blockReset | with_reducible apply in_ite | with_reducible apply in_ite2 | with_reducible apply in_fold | with_reducible apply in_fold2 | with_reducible rfl | exact .inl rfl | exact .inr rfl | rfl | with_reducible assumption | intro _ | (split <;> try (rename_i h; have e := congrArg Prod.snd h; dsimp only at e; subst e)) | with_reducible apply in_upd

theorem in_holdErrN {L : List StPart} {s₀ x₀ : State} (n : ℕ) (inj : Bool) (hL : stPartsIn [.fault] L = true) (hF : State.onlyIn L s₀ x₀) : State.onlyIn L s₀ (State.holdErrN x₀ n inj) := by
  refine State.onlyIn_step hL hF ?_
  unfold State.holdErrN
  try dsimp only
  repeat' first | with_reducible exact State.onlyIn_refl _ _ | with_reducible apply in_ite | with_reducible apply in_ite2 | with_reducible rfl | exact .inl rfl | exact .inr rfl | rfl | with_reducible assumption | intro _ | (split <;> try (rename_i h; have e := congrArg Prod.snd h; dsimp only at e; subst e)) | with_reducible apply in_upd

theorem in_takeReact {L : List StPart} {s₀ x₀ : State} (n mask : ℕ) (inj : Bool) (old : Word) (hL : stPartsIn [.hostif, .cmdq, .fault, .vault, .book, .twin, .bench, .pwr, .image, .ch, .free, .out] L = true) (hF : State.onlyIn L s₀ x₀) :
    State.onlyIn L s₀ (x₀.takeReact n mask inj old) := by
  refine State.onlyIn_step hL hF ?_
  unfold State.takeReact
  extract_lets has vec s1 s2 s3 s4 s5 due
  have h1 : State.onlyIn [.hostif, .cmdq, .fault, .vault, .book, .twin, .bench, .pwr, .image, .ch, .free, .out] x₀ s1 := in_ite (in_msix _ rfl (State.onlyIn_refl _ _)) (State.onlyIn_refl _ _)
  clear_value s1
  have h2 : State.onlyIn [.hostif, .cmdq, .fault, .vault, .book, .twin, .bench, .pwr, .image, .ch, .free, .out] x₀ s2 := in_ite (in_msix _ rfl (in_ite (in_gevt _ rfl rfl h1) (in_gput _ _ rfl (in_gevt _ rfl rfl h1)))) h1
  clear_value s2
  have h3 : State.onlyIn [.hostif, .cmdq, .fault, .vault, .book, .twin, .bench, .pwr, .image, .ch, .free, .out] x₀ s3 := in_ite (in_holdErrN _ _ rfl h2) h2
  clear_value s3
  have h4 : State.onlyIn [.hostif, .cmdq, .fault, .vault, .book, .twin, .bench, .pwr, .image, .ch, .free, .out] x₀ s4 := in_ite (in_enterSafe _ _ rfl h3) h3
  clear_value s4
  have h5 : State.onlyIn [.hostif, .cmdq, .fault, .vault, .book, .twin, .bench, .pwr, .image, .ch, .free, .out] x₀ s5 := in_ite (in_blockDue _ _ _ rfl h4) h4
  clear_value s5
  refine in_ite h4 (in_ite ?_ h5)
  exact in_upd h5 rfl (.inr rfl) (.inr rfl) (.inr rfl) (.inr rfl) (.inr rfl) (.inl rfl) (.inr rfl) (.inr rfl) (.inr rfl) (.inr rfl) (.inr rfl) (.inr rfl) (.inr rfl) (.inr rfl) (.inr rfl) (.inr rfl) (.inr rfl)

theorem in_firstFault {L : List StPart} {s₀ x₀ : State} (n : ℕ) (inj : Bool) (hL : stPartsIn [.hostif, .fault, .out] L = true) (hF : State.onlyIn L s₀ x₀) : State.onlyIn L s₀ (State.firstFault x₀ n inj) := by
  refine State.onlyIn_step hL hF ?_
  unfold State.firstFault
  try dsimp only
  repeat' first | with_reducible exact State.onlyIn_refl _ _ | with_reducible apply in_gput | with_reducible apply in_gevt | with_reducible apply in_ite | with_reducible apply in_ite2 | with_reducible rfl | exact .inl rfl | exact .inr rfl | rfl | with_reducible assumption | intro _ | (split <;> try (rename_i h; have e := congrArg Prod.snd h; dsimp only at e; subst e))

theorem in_detectAbsent {L : List StPart} {s₀ x₀ : State} (n : ℕ) (hL : stPartsIn [.image] L = true) (hF : State.onlyIn L s₀ x₀) : State.onlyIn L s₀ (State.detectAbsent x₀ n) := by
  refine State.onlyIn_step hL hF ?_
  unfold State.detectAbsent
  try dsimp only
  repeat' first | with_reducible exact State.onlyIn_refl _ _ | with_reducible apply in_reqAbsent | with_reducible apply in_ite | with_reducible apply in_ite2 | with_reducible rfl | exact .inl rfl | exact .inr rfl | rfl | with_reducible assumption | intro _ | (split <;> try (rename_i h; have e := congrArg Prod.snd h; dsimp only at e; subst e))

theorem in_detect {L : List StPart} {s₀ x₀ : State} (n : ℕ) (hL : stPartsIn [.hostif, .cmdq, .fault, .vault, .book, .tally, .twin, .bench, .pwr, .image, .ch, .free, .out] L = true) (hF : State.onlyIn L s₀ x₀) : State.onlyIn L s₀ (State.detect x₀ n) := by
  refine State.onlyIn_step hL hF ?_
  unfold State.detect
  try dsimp only
  repeat' first | with_reducible exact State.onlyIn_refl _ _ | with_reducible apply in_detectAbsent | with_reducible apply in_updTally | with_reducible apply in_firstFault | with_reducible apply in_gbumpSat | with_reducible apply in_gevt | with_reducible apply in_takeReact | with_reducible apply in_enterSafe | with_reducible apply in_ite | with_reducible apply in_ite2 | with_reducible rfl | exact .inl rfl | exact .inr rfl | rfl | with_reducible assumption | intro _ | (split <;> try (rename_i h; have e := congrArg Prod.snd h; dsimp only at e; subst e))

theorem in_detectLevel {L : List StPart} {s₀ x₀ : State} (n : ℕ) (hL : stPartsIn [.hostif, .cmdq, .fault, .vault, .book, .tally, .twin, .bench, .pwr, .image, .ch, .free, .out] L = true) (hF : State.onlyIn L s₀ x₀) : State.onlyIn L s₀ (State.detectLevel x₀ n) := by
  refine State.onlyIn_step hL hF ?_
  unfold State.detectLevel
  try dsimp only
  repeat' first | with_reducible exact State.onlyIn_refl _ _ | with_reducible apply in_gput | with_reducible apply in_detect | with_reducible apply in_detectAbsent | with_reducible apply in_ite | with_reducible apply in_ite2 | with_reducible rfl | exact .inl rfl | exact .inr rfl | rfl | with_reducible assumption | intro _ | (split <;> try (rename_i h; have e := congrArg Prod.snd h; dsimp only at e; subst e))

theorem in_clearLevel {L : List StPart} {s₀ x₀ : State} (n : ℕ) (hL : stPartsIn [.fault] L = true) (hF : State.onlyIn L s₀ x₀) : State.onlyIn L s₀ (State.clearLevel x₀ n) := by
  refine State.onlyIn_step hL hF ?_
  unfold State.clearLevel
  try dsimp only
  repeat' first | with_reducible exact State.onlyIn_refl _ _ | with_reducible apply in_gput | with_reducible apply in_ite | with_reducible apply in_ite2 | with_reducible rfl | exact .inl rfl | exact .inr rfl | rfl | with_reducible assumption | intro _ | (split <;> try (rename_i h; have e := congrArg Prod.snd h; dsimp only at e; subst e))

theorem in_detectInjected {L : List StPart} {s₀ x₀ : State} (n : ℕ) (full : Bool) (hL : stPartsIn [.hostif, .cmdq, .fault, .vault, .book, .tally, .twin, .bench, .pwr, .image, .ch, .free, .out] L = true) (hF : State.onlyIn L s₀ x₀) : State.onlyIn L s₀ (State.detectInjected x₀ n full) := by
  refine State.onlyIn_step hL hF ?_
  unfold State.detectInjected
  try dsimp only
  repeat' first | with_reducible exact State.onlyIn_refl _ _ | with_reducible apply in_updTally | with_reducible apply in_firstFault | with_reducible apply in_gbumpSat | with_reducible apply in_gevt | with_reducible apply in_takeReact | with_reducible apply in_enterSafe | with_reducible apply in_gput | with_reducible apply in_ite | with_reducible apply in_ite2 | with_reducible rfl | exact .inl rfl | exact .inr rfl | rfl | with_reducible assumption | intro _ | (split <;> try (rename_i h; have e := congrArg Prod.snd h; dsimp only at e; subst e)) | with_reducible apply in_upd

theorem in_streamClient {L : List StPart} {s₀ x₀ : State} (n : ChanIx) (ix : ℕ) (hL : stPartsIn [.twin, .free, .out] L = true) (hF : State.onlyIn L s₀ x₀) : State.onlyIn L s₀ (State.streamClient x₀ n ix) := by
  refine State.onlyIn_step hL hF ?_
  unfold State.streamClient
  try dsimp only
  repeat' first | with_reducible exact State.onlyIn_refl _ _ | with_reducible apply in_free | with_reducible apply in_twinSend | with_reducible apply in_ite | with_reducible apply in_ite2 | with_reducible rfl | exact .inl rfl | exact .inr rfl | rfl | with_reducible assumption | intro _ | (split <;> try (rename_i h; have e := congrArg Prod.snd h; dsimp only at e; subst e))

theorem in_doEff {L : List StPart} {s₀ x₀ : State} (n : ChanIx) (e : Eff) (hL : stPartsIn [.hostif, .cmdq, .fault, .vault, .book, .tally, .twin, .bench, .pwr, .image, .ch, .free, .out] L = true) (hF : State.onlyIn L s₀ x₀) : State.onlyIn L s₀ (State.doEff n x₀ e) := by
  refine State.onlyIn_step hL hF ?_
  unfold State.doEff
  try dsimp only
  repeat' first | with_reducible exact State.onlyIn_refl _ _ | with_reducible apply in_detect | with_reducible apply in_msix | with_reducible apply in_streamJour | with_reducible apply in_setCh | with_reducible apply in_endCmd | with_reducible apply in_emit | with_reducible apply in_gevt | with_reducible apply in_deliverKeys | with_reducible apply in_streamClient | with_reducible apply in_updTally | with_reducible apply in_ite | with_reducible apply in_ite2 | with_reducible apply in_fold | with_reducible apply in_fold2 | with_reducible rfl | exact .inl rfl | exact .inr rfl | rfl | with_reducible assumption | intro _ | (split <;> try (rename_i h; have e := congrArg Prod.snd h; dsimp only at e; subst e))

theorem in_drainOnce {L : List StPart} {s₀ x₀ : State} (hL : stPartsIn [.hostif, .cmdq, .fault, .vault, .book, .tally, .twin, .bench, .pwr, .image, .ch, .free, .out] L = true) (hF : State.onlyIn L s₀ x₀) : State.onlyIn L s₀ (State.drainOnce x₀) := by
  refine State.onlyIn_step hL hF ?_
  unfold State.drainOnce
  try dsimp only
  repeat' first | with_reducible exact State.onlyIn_refl _ _ | with_reducible apply in_setCh | with_reducible apply in_bookAll | with_reducible apply in_doEff | with_reducible apply in_ite | with_reducible apply in_ite2 | with_reducible apply in_fold | with_reducible apply in_fold2 | with_reducible rfl | exact .inl rfl | exact .inr rfl | rfl | with_reducible assumption | intro _ | (split <;> try (rename_i h; have e := congrArg Prod.snd h; dsimp only at e; subst e))

theorem in_drain {L : List StPart} {s₀ x₀ : State} (hL : stPartsIn [.hostif, .cmdq, .fault, .vault, .book, .tally, .twin, .bench, .pwr, .image, .ch, .free, .out] L = true) (hF : State.onlyIn L s₀ x₀) : State.onlyIn L s₀ (State.drain x₀) := by
  refine State.onlyIn_step hL hF ?_
  unfold State.drain
  try dsimp only
  repeat' first | with_reducible exact State.onlyIn_refl _ _ | with_reducible apply in_drainOnce | with_reducible apply in_ite | with_reducible apply in_ite2 | with_reducible apply in_iter | with_reducible rfl | exact .inl rfl | exact .inr rfl | rfl | with_reducible assumption | intro _ | (split <;> try (rename_i h; have e := congrArg Prod.snd h; dsimp only at e; subst e))

theorem in_onCh {L : List StPart} {s₀ x₀ : State} (n : ChanIx) (f : Channel → Channel) (hL : stPartsIn [.ch] L = true) (hF : State.onlyIn L s₀ x₀) : State.onlyIn L s₀ (State.onCh x₀ n f) := by
  refine State.onlyIn_step hL hF ?_
  unfold State.onCh
  try dsimp only
  repeat' first | with_reducible exact State.onlyIn_refl _ _ | with_reducible apply in_setCh | with_reducible apply in_ite | with_reducible apply in_ite2 | with_reducible rfl | exact .inl rfl | exact .inr rfl | rfl | with_reducible assumption | intro _ | (split <;> try (rename_i h; have e := congrArg Prod.snd h; dsimp only at e; subst e))

theorem in_streamVintage {L : List StPart} {s₀ x₀ : State} (n : ChanIx) (v : Vintage) (hL : stPartsIn [.twin, .out] L = true) (hF : State.onlyIn L s₀ x₀) : State.onlyIn L s₀ (State.streamVintage x₀ n v) := by
  refine State.onlyIn_step hL hF ?_
  unfold State.streamVintage
  try dsimp only
  repeat' first | with_reducible exact State.onlyIn_refl _ _ | with_reducible apply in_twinSend | with_reducible apply in_ite | with_reducible apply in_ite2 | with_reducible apply in_fold | with_reducible apply in_fold2 | with_reducible rfl | exact .inl rfl | exact .inr rfl | rfl | with_reducible assumption | intro _ | (split <;> try (rename_i h; have e := congrArg Prod.snd h; dsimp only at e; subst e)) | with_reducible apply in_upd

theorem in_writeVintage {L : List StPart} {s₀ x₀ : State} (n : ChanIx) (hL : stPartsIn [.tally, .twin, .ch, .out] L = true) (hF : State.onlyIn L s₀ x₀) : State.onlyIn L s₀ (State.writeVintage x₀ n) := by
  refine State.onlyIn_step hL hF ?_
  unfold State.writeVintage
  try dsimp only
  repeat' first | with_reducible exact State.onlyIn_refl _ _ | with_reducible apply in_wearOn | with_reducible apply in_setCh | with_reducible apply in_streamVintage | with_reducible apply in_ite | with_reducible apply in_ite2 | with_reducible rfl | exact .inl rfl | exact .inr rfl | rfl | with_reducible assumption | intro _ | (split <;> try (rename_i h; have e := congrArg Prod.snd h; dsimp only at e; subst e)) | with_reducible apply in_upd

theorem in_putMeas {L : List StPart} {s₀ x₀ : State} (off : ℕ) (m : Bytes) (hL : stPartsIn [.image] L = true) (hF : State.onlyIn L s₀ x₀) : State.onlyIn L s₀ (State.putMeas x₀ off m) := by
  refine State.onlyIn_step hL hF ?_
  unfold State.putMeas
  try dsimp only
  repeat' first | with_reducible exact State.onlyIn_refl _ _ | with_reducible apply in_gsetWord | with_reducible apply in_ite | with_reducible apply in_ite2 | with_reducible apply in_fold | with_reducible apply in_fold2 | with_reducible rfl | exact .inl rfl | exact .inr rfl | rfl | with_reducible assumption | intro _ | (split <;> try (rename_i h; have e := congrArg Prod.snd h; dsimp only at e; subst e))

theorem in_setHeld {L : List StPart} {s₀ x₀ : State} (n : ChanIx) (h : Option Bool) (hL : stPartsIn [.image] L = true) (hF : State.onlyIn L s₀ x₀) : State.onlyIn L s₀ (State.setHeld x₀ n h) := by
  refine State.onlyIn_step hL hF ?_
  unfold State.setHeld
  try dsimp only
  repeat' first | with_reducible exact State.onlyIn_refl _ _ | with_reducible apply in_updImg | with_reducible apply in_gput | with_reducible apply in_putMeas | with_reducible apply in_ite | with_reducible apply in_ite2 | with_reducible rfl | exact .inl rfl | exact .inr rfl | rfl | with_reducible assumption | intro _ | (split <;> try (rename_i h; have e := congrArg Prod.snd h; dsimp only at e; subst e))

theorem in_setStaged {L : List StPart} {s₀ x₀ : State} (n : ChanIx) (b : Bool) (hL : stPartsIn [.image] L = true) (hF : State.onlyIn L s₀ x₀) : State.onlyIn L s₀ (State.setStaged x₀ n b) := by
  refine State.onlyIn_step hL hF ?_
  unfold State.setStaged
  try dsimp only
  repeat' first | with_reducible exact State.onlyIn_refl _ _ | with_reducible apply in_gput | with_reducible apply in_updImg | with_reducible apply in_putMeas | with_reducible apply in_ite | with_reducible apply in_ite2 | with_reducible rfl | exact .inl rfl | exact .inr rfl | rfl | with_reducible assumption | intro _ | (split <;> try (rename_i h; have e := congrArg Prod.snd h; dsimp only at e; subst e))

theorem in_storeImage {L : List StPart} {s₀ x₀ : State} (n : ChanIx) (bs : Bytes) (hL : stPartsIn [.image] L = true) (hF : State.onlyIn L s₀ x₀) : State.onlyIn L s₀ (State.storeImage x₀ n bs) := by
  refine State.onlyIn_step hL hF ?_
  unfold State.storeImage
  try dsimp only
  repeat' first | with_reducible exact State.onlyIn_refl _ _ | with_reducible apply in_setStaged | with_reducible apply in_updImg | with_reducible apply in_ite | with_reducible apply in_ite2 | with_reducible rfl | exact .inl rfl | exact .inr rfl | rfl | with_reducible assumption | intro _ | (split <;> try (rename_i h; have e := congrArg Prod.snd h; dsimp only at e; subst e))

theorem in_setPhase {L : List StPart} {s₀ x₀ : State} (n : ChanIx) (ph : ℕ) (hL : stPartsIn [.image] L = true) (hF : State.onlyIn L s₀ x₀) : State.onlyIn L s₀ (State.setPhase x₀ n ph) := by
  refine State.onlyIn_step hL hF ?_
  unfold State.setPhase
  try dsimp only
  repeat' first | with_reducible exact State.onlyIn_refl _ _ | with_reducible apply in_gput | with_reducible apply in_ite | with_reducible apply in_ite2 | with_reducible rfl | exact .inl rfl | exact .inr rfl | rfl | with_reducible assumption | intro _ | (split <;> try (rename_i h; have e := congrArg Prod.snd h; dsimp only at e; subst e))

theorem in_endJob {L : List StPart} {s₀ x₀ : State} (n : ChanIx) (hL : stPartsIn [.image] L = true) (hF : State.onlyIn L s₀ x₀) : State.onlyIn L s₀ (State.endJob x₀ n) := by
  refine State.onlyIn_step hL hF ?_
  unfold State.endJob
  try dsimp only
  repeat' first | with_reducible exact State.onlyIn_refl _ _ | with_reducible apply in_imgIdle | with_reducible apply in_updImg | with_reducible apply in_ite | with_reducible apply in_ite2 | with_reducible rfl | exact .inl rfl | exact .inr rfl | rfl | with_reducible assumption | intro _ | (split <;> try (rename_i h; have e := congrArg Prod.snd h; dsimp only at e; subst e))

theorem in_endLoadCmd {L : List StPart} {s₀ x₀ : State} (j : LoadJob) (res : ℕ) (hL : stPartsIn [.hostif, .cmdq, .out] L = true) (hF : State.onlyIn L s₀ x₀) : State.onlyIn L s₀ (State.endLoadCmd x₀ j res) := by
  refine State.onlyIn_step hL hF ?_
  unfold State.endLoadCmd
  try dsimp only
  repeat' first | with_reducible exact State.onlyIn_refl _ _ | with_reducible apply in_endCmd | with_reducible apply in_ite | with_reducible apply in_ite2 | with_reducible rfl | exact .inl rfl | exact .inr rfl | rfl | with_reducible assumption | intro _ | (split <;> try (rename_i h; have e := congrArg Prod.snd h; dsimp only at e; subst e))

theorem in_dropRack {L : List StPart} {s₀ x₀ : State} (n : ChanIx) (hL : stPartsIn [.twin] L = true) (hF : State.onlyIn L s₀ x₀) : State.onlyIn L s₀ (State.dropRack x₀ n) := by
  refine State.onlyIn_step hL hF ?_
  unfold State.dropRack
  try dsimp only
  repeat' first | with_reducible exact State.onlyIn_refl _ _ | with_reducible apply in_ite | with_reducible apply in_ite2 | with_reducible rfl | exact .inl rfl | exact .inr rfl | rfl | with_reducible assumption | intro _ | (split <;> try (rename_i h; have e := congrArg Prod.snd h; dsimp only at e; subst e)) | with_reducible apply in_upd

theorem in_failCheck {L : List StPart} {s₀ x₀ : State} (n : ChanIx) (j : LoadJob) (e : ℕ × ℕ) (hL : stPartsIn [.hostif, .cmdq, .vault, .book, .twin, .bench, .pwr, .image, .ch, .free, .out] L = true) (hF : State.onlyIn L s₀ x₀) : State.onlyIn L s₀ (State.failCheck x₀ n j e) := by
  refine State.onlyIn_step hL hF ?_
  unfold State.failCheck
  try dsimp only
  repeat' first | with_reducible exact State.onlyIn_refl _ _ | with_reducible apply in_endJob | with_reducible apply in_gput | with_reducible apply in_setHeld | with_reducible apply in_dropRack | with_reducible apply in_powerDown | with_reducible apply in_setChSt | with_reducible apply in_endLoadCmd | with_reducible apply in_gevt | with_reducible apply in_ite | with_reducible apply in_ite2 | with_reducible rfl | exact .inl rfl | exact .inr rfl | rfl | with_reducible assumption | intro _ | (split <;> try (rename_i h; have e := congrArg Prod.snd h; dsimp only at e; subst e))

theorem in_loadCheck {L : List StPart} {s₀ x₀ : State} (n : ChanIx) (hL : stPartsIn [.hostif, .cmdq, .vault, .book, .twin, .bench, .pwr, .image, .ch, .free, .out] L = true) (hF : State.onlyIn L s₀ x₀) : State.onlyIn L s₀ (State.loadCheck x₀ n) := by
  refine State.onlyIn_step hL hF ?_
  unfold State.loadCheck
  try dsimp only
  repeat' first | with_reducible exact State.onlyIn_refl _ _ | with_reducible apply in_failCheck | with_reducible apply in_setPhase | with_reducible apply in_updImg | with_reducible apply in_ite | with_reducible apply in_ite2 | with_reducible rfl | exact .inl rfl | exact .inr rfl | rfl | with_reducible assumption | intro _ | (split <;> try (rename_i h; have e := congrArg Prod.snd h; dsimp only at e; subst e))

theorem in_enterReconfig {L : List StPart} {s₀ x₀ : State} (n : ChanIx) (hL : stPartsIn [.hostif, .cmdq, .vault, .book, .bench, .pwr, .image, .ch, .free, .out] L = true) (hF : State.onlyIn L s₀ x₀) : State.onlyIn L s₀ (State.enterReconfig x₀ n) := by
  refine State.onlyIn_step hL hF ?_
  unfold State.enterReconfig
  try dsimp only
  repeat' first | with_reducible exact State.onlyIn_refl _ _ | with_reducible apply in_setChSt | with_reducible apply in_setPhase | with_reducible apply in_updImg | with_reducible apply in_setCh | with_reducible apply in_ite | with_reducible apply in_ite2 | with_reducible rfl | exact .inl rfl | exact .inr rfl | rfl | with_reducible assumption | intro _ | (split <;> try (rename_i h; have e := congrArg Prod.snd h; dsimp only at e; subst e))

theorem in_raiseFloor {L : List StPart} {s₀ x₀ : State} (org : Origin) (i : Img) (hL : stPartsIn [.hostif, .book, .tally, .image, .out] L = true) (hF : State.onlyIn L s₀ x₀) : State.onlyIn L s₀ (State.raiseFloor x₀ org i) := by
  refine State.onlyIn_step hL hF ?_
  unfold State.raiseFloor
  try dsimp only
  repeat' first | with_reducible exact State.onlyIn_refl _ _ | with_reducible apply in_bookSt | with_reducible apply in_gevt | with_reducible apply in_gput | with_reducible apply in_wearOn | with_reducible apply in_ite | with_reducible apply in_ite2 | with_reducible rfl | exact .inl rfl | exact .inr rfl | rfl | with_reducible assumption | intro _ | (split <;> try (rename_i h; have e := congrArg Prod.snd h; dsimp only at e; subst e))

theorem in_applyPolicy {L : List StPart} {s₀ x₀ : State} (n : ChanIx) (i : Img) (hL : stPartsIn [.fault] L = true) (hF : State.onlyIn L s₀ x₀) : State.onlyIn L s₀ (State.applyPolicy x₀ n i) := by
  refine State.onlyIn_step hL hF ?_
  unfold State.applyPolicy
  try dsimp only
  repeat' first | with_reducible exact State.onlyIn_refl _ _ | with_reducible apply in_gput | with_reducible apply in_ite | with_reducible apply in_ite2 | with_reducible apply in_fold | with_reducible apply in_fold2 | with_reducible rfl | exact .inl rfl | exact .inr rfl | rfl | with_reducible assumption | intro _ | (split <;> try (rename_i h; have e := congrArg Prod.snd h; dsimp only at e; subst e))

theorem in_goRun {L : List StPart} {s₀ x₀ : State} (n : ChanIx) (j : LoadJob) (i : Img) (c : Channel) (hL : stPartsIn [.hostif, .cmdq, .fault, .vault, .book, .bench, .pwr, .image, .ch, .free, .out] L = true) (hF : State.onlyIn L s₀ x₀) : State.onlyIn L s₀ (State.goRun x₀ n j i c) := by
  refine State.onlyIn_step hL hF ?_
  unfold State.goRun
  try dsimp only
  repeat' first | with_reducible exact State.onlyIn_refl _ _ | with_reducible apply in_setChSt | with_reducible apply in_applyPolicy | with_reducible apply in_setCh | with_reducible apply in_gput | with_reducible apply in_updImg | with_reducible apply in_revokeKeys | with_reducible apply in_ite | with_reducible apply in_ite2 | with_reducible rfl | exact .inl rfl | exact .inr rfl | rfl | with_reducible assumption | intro _ | (split <;> try (rename_i h; have e := congrArg Prod.snd h; dsimp only at e; subst e)) | with_reducible apply in_upd

theorem in_applyComplete {L : List StPart} {s₀ x₀ : State} (n : ChanIx) (hL : stPartsIn [.hostif, .cmdq, .fault, .vault, .book, .tally, .twin, .bench, .pwr, .image, .ch, .free, .out] L = true) (hF : State.onlyIn L s₀ x₀) : State.onlyIn L s₀ (State.applyComplete x₀ n) := by
  refine State.onlyIn_step hL hF ?_
  unfold State.applyComplete
  try dsimp only
  repeat' first | with_reducible exact State.onlyIn_refl _ _ | with_reducible apply in_goRun | with_reducible apply in_book1 | with_reducible apply in_endLoadCmd | with_reducible apply in_gevt | with_reducible apply in_endJob | with_reducible apply in_setStaged | with_reducible apply in_setHeld | with_reducible apply in_gbump | with_reducible apply in_gput | with_reducible apply in_raiseFloor | with_reducible apply in_writeVintage | with_reducible apply in_setPhase | with_reducible apply in_updImg | with_reducible apply in_dropRack | with_reducible apply in_setChSt | with_reducible apply in_ite | with_reducible apply in_ite2 | with_reducible rfl | exact .inl rfl | exact .inr rfl | rfl | with_reducible assumption | intro _ | (split <;> try (rename_i h; have e := congrArg Prod.snd h; dsimp only at e; subst e))

theorem in_stageImage {L : List StPart} {s₀ x₀ : State} (n : ChanIx) (j : LoadJob) (hL : stPartsIn [.hostif, .cmdq, .vault, .book, .twin, .bench, .pwr, .image, .ch, .free, .out] L = true) (hF : State.onlyIn L s₀ x₀) : State.onlyIn L s₀ (State.stageImage x₀ n j) := by
  refine State.onlyIn_step hL hF ?_
  unfold State.stageImage
  try dsimp only
  repeat' first | with_reducible exact State.onlyIn_refl _ _ | with_reducible apply in_failCheck | with_reducible apply in_setStaged | with_reducible apply in_setHeld | with_reducible apply in_gevt | with_reducible apply in_endJob | with_reducible apply in_gput | with_reducible apply in_endLoadCmd | with_reducible apply in_ite | with_reducible apply in_ite2 | with_reducible rfl | exact .inl rfl | exact .inr rfl | rfl | with_reducible assumption | intro _ | (split <;> try (rename_i h; have e := congrArg Prod.snd h; dsimp only at e; subst e))

theorem in_gateCh {L : List StPart} {s₀ x₀ : State} (n : ChanIx) (hL : stPartsIn [.hostif, .cmdq, .vault, .book, .bench, .pwr, .image, .ch, .free, .out] L = true) (hF : State.onlyIn L s₀ x₀) : State.onlyIn L s₀ (State.gateCh x₀ n) := by
  refine State.onlyIn_step hL hF ?_
  unfold State.gateCh
  try dsimp only
  repeat' first | with_reducible exact State.onlyIn_refl _ _ | with_reducible apply in_stopLoad | with_reducible apply in_powerDown | with_reducible apply in_updImg | with_reducible apply in_setStaged | with_reducible apply in_setHeld | with_reducible apply in_setChSt | with_reducible apply in_setCh | with_reducible apply in_ite | with_reducible apply in_ite2 | with_reducible rfl | exact .inl rfl | exact .inr rfl | rfl | with_reducible assumption | intro _ | (split <;> try (rename_i h; have e := congrArg Prod.snd h; dsimp only at e; subst e))

theorem in_ungateCh {L : List StPart} {s₀ x₀ : State} (n : ChanIx) (org : Origin) (rack : Bool) (hL : stPartsIn [.hostif, .cmdq, .vault, .book, .bench, .pwr, .image, .ch, .free, .out] L = true) (hF : State.onlyIn L s₀ x₀) : State.onlyIn L s₀ (State.ungateCh x₀ n org rack) := by
  refine State.onlyIn_step hL hF ?_
  unfold State.ungateCh
  try dsimp only
  repeat' first | with_reducible exact State.onlyIn_refl _ _ | with_reducible apply in_setChSt | with_reducible apply in_powerUp | with_reducible apply in_updImg | with_reducible apply in_loadHeld | with_reducible apply in_ite | with_reducible apply in_ite2 | with_reducible rfl | exact .inl rfl | exact .inr rfl | rfl | with_reducible assumption | intro _ | (split <;> try (rename_i h; have e := congrArg Prod.snd h; dsimp only at e; subst e))

theorem in_chCtl {L : List StPart} {s₀ x₀ : State} (n : ChanIx) (org : Origin) (v : Word) (hL : stPartsIn [.hostif, .cmdq, .vault, .book, .bench, .pwr, .image, .ch, .free, .out] L = true) (hF : State.onlyIn L s₀ x₀) : State.onlyIn L s₀ (State.chCtl x₀ n org v).2 := by
  refine State.onlyIn_step hL hF ?_
  unfold State.chCtl
  try dsimp only
  repeat' first | with_reducible exact State.onlyIn_refl _ _ | with_reducible apply in_gateCh | with_reducible apply in_ungateCh | with_reducible apply in_loadHeld | with_reducible apply in_ite | with_reducible apply in_ite2 | with_reducible rfl | exact .inl rfl | exact .inr rfl | rfl | with_reducible assumption | intro _ | (split <;> try (rename_i h; have e := congrArg Prod.snd h; dsimp only at e; subst e))

theorem in_updTwin {L : List StPart} {s₀ x₀ : State} (f : TwinSt → TwinSt) (hL : stPartsIn [.twin] L = true) (hF : State.onlyIn L s₀ x₀) : State.onlyIn L s₀ (State.updTwin x₀ f) := by
  refine State.onlyIn_step hL hF ?_
  unfold State.updTwin
  try dsimp only
  repeat' first | with_reducible exact State.onlyIn_refl _ _ | with_reducible apply in_ite | with_reducible apply in_ite2 | with_reducible rfl | exact .inl rfl | exact .inr rfl | rfl | with_reducible assumption | intro _ | (split <;> try (rename_i h; have e := congrArg Prod.snd h; dsimp only at e; subst e)) | with_reducible apply in_upd

theorem in_raiseEpoch {L : List StPart} {s₀ x₀ : State} (hL : stPartsIn [.book, .tally, .twin] L = true) (hF : State.onlyIn L s₀ x₀) : State.onlyIn L s₀ (State.raiseEpoch x₀) := by
  refine State.onlyIn_step hL hF ?_
  unfold State.raiseEpoch
  try dsimp only
  repeat' first | with_reducible exact State.onlyIn_refl _ _ | with_reducible apply in_bookSt | with_reducible apply in_gput | with_reducible apply in_wearOn | with_reducible apply in_ite | with_reducible apply in_ite2 | with_reducible rfl | exact .inl rfl | exact .inr rfl | rfl | with_reducible assumption | intro _ | (split <;> try (rename_i h; have e := congrArg Prod.snd h; dsimp only at e; subst e))

theorem in_seeEpoch {L : List StPart} {s₀ x₀ : State} (e : ℕ) (hL : stPartsIn [.twin] L = true) (hF : State.onlyIn L s₀ x₀) : State.onlyIn L s₀ (State.seeEpoch x₀ e) := by
  refine State.onlyIn_step hL hF ?_
  unfold State.seeEpoch
  try dsimp only
  repeat' first | with_reducible exact State.onlyIn_refl _ _ | with_reducible apply in_updTwin | with_reducible apply in_ite | with_reducible apply in_ite2 | with_reducible rfl | exact .inl rfl | exact .inr rfl | rfl | with_reducible assumption | intro _ | (split <;> try (rename_i h; have e := congrArg Prod.snd h; dsimp only at e; subst e))

theorem in_sendResync {L : List StPart} {s₀ x₀ : State} (n : ChanIx) (what : ℕ) (hL : stPartsIn [.twin, .out] L = true) (hF : State.onlyIn L s₀ x₀) : State.onlyIn L s₀ (State.sendResync x₀ n what) := by
  refine State.onlyIn_step hL hF ?_
  unfold State.sendResync
  try dsimp only
  repeat' first | with_reducible exact State.onlyIn_refl _ _ | with_reducible apply in_twinSend | with_reducible apply in_gbump | with_reducible apply in_ite | with_reducible apply in_ite2 | with_reducible rfl | exact .inl rfl | exact .inr rfl | rfl | with_reducible assumption | intro _ | (split <;> try (rename_i h; have e := congrArg Prod.snd h; dsimp only at e; subst e))

theorem in_setPath {L : List StPart} {s₀ x₀ : State} (b : Bool) (v : ℕ) (hL : stPartsIn [.hostif, .twin, .out] L = true) (hF : State.onlyIn L s₀ x₀) : State.onlyIn L s₀ (State.setPath x₀ b v) := by
  refine State.onlyIn_step hL hF ?_
  unfold State.setPath
  try dsimp only
  repeat' first | with_reducible exact State.onlyIn_refl _ _ | with_reducible apply in_gevt | with_reducible apply in_gput | with_reducible apply in_ite | with_reducible apply in_ite2 | with_reducible rfl | exact .inl rfl | exact .inr rfl | rfl | with_reducible assumption | intro _ | (split <;> try (rename_i h; have e := congrArg Prod.snd h; dsimp only at e; subst e))

theorem in_pathsUnheard {L : List StPart} {s₀ x₀ : State} (hL : stPartsIn [.hostif, .twin, .out] L = true) (hF : State.onlyIn L s₀ x₀) : State.onlyIn L s₀ (State.pathsUnheard x₀) := by
  refine State.onlyIn_step hL hF ?_
  unfold State.pathsUnheard
  try dsimp only
  repeat' first | with_reducible exact State.onlyIn_refl _ _ | with_reducible apply in_updTwin | with_reducible apply in_setPath | with_reducible apply in_ite | with_reducible apply in_ite2 | with_reducible rfl | exact .inl rfl | exact .inr rfl | rfl | with_reducible assumption | intro _ | (split <;> try (rename_i h; have e := congrArg Prod.snd h; dsimp only at e; subst e))

theorem in_endDrill {L : List StPart} {s₀ x₀ : State} (res : ℕ) (hL : stPartsIn [.hostif, .cmdq, .tally, .twin, .out] L = true) (hF : State.onlyIn L s₀ x₀) : State.onlyIn L s₀ (State.endDrill x₀ res) := by
  refine State.onlyIn_step hL hF ?_
  unfold State.endDrill
  try dsimp only
  repeat' first | with_reducible exact State.onlyIn_refl _ _ | with_reducible apply in_updTwin | with_reducible apply in_endCmd | with_reducible apply in_updTally | with_reducible apply in_ite | with_reducible apply in_ite2 | with_reducible rfl | exact .inl rfl | exact .inr rfl | rfl | with_reducible assumption | intro _ | (split <;> try (rename_i h; have e := congrArg Prod.snd h; dsimp only at e; subst e))

theorem in_twinTo {L : List StPart} {s₀ x₀ : State} (st : ℕ) (org : Origin) (hL : stPartsIn [.hostif, .cmdq, .book, .tally, .twin, .out] L = true) (hF : State.onlyIn L s₀ x₀) : State.onlyIn L s₀ (State.twinTo x₀ st org) := by
  refine State.onlyIn_step hL hF ?_
  unfold State.twinTo
  try dsimp only
  repeat' first | with_reducible exact State.onlyIn_refl _ _ | with_reducible apply in_gput | with_reducible apply in_bookSt | with_reducible apply in_gevt | with_reducible apply in_endDrill | with_reducible apply in_ite | with_reducible apply in_ite2 | with_reducible rfl | exact .inl rfl | exact .inr rfl | rfl | with_reducible assumption | intro _ | (split <;> try (rename_i h; have e := congrArg Prod.snd h; dsimp only at e; subst e))

theorem in_coldEntry {L : List StPart} {s₀ x₀ : State} (st : ℕ) (org : Origin) (hL : stPartsIn [.hostif, .cmdq, .vault, .book, .tally, .twin, .bench, .pwr, .image, .ch, .free, .out] L = true) (hF : State.onlyIn L s₀ x₀) : State.onlyIn L s₀ (State.coldEntry x₀ st org) := by
  refine State.onlyIn_step hL hF ?_
  unfold State.coldEntry
  try dsimp only
  repeat' first | with_reducible exact State.onlyIn_refl _ _ | with_reducible apply in_setDrive | with_reducible apply in_updTwin | with_reducible apply in_pathsUnheard | with_reducible apply in_twinTo | with_reducible apply in_gateCh | with_reducible apply in_ite | with_reducible apply in_ite2 | with_reducible apply in_fold | with_reducible apply in_fold2 | with_reducible rfl | exact .inl rfl | exact .inr rfl | rfl | with_reducible assumption | intro _ | (split <;> try (rename_i h; have e := congrArg Prod.snd h; dsimp only at e; subst e))

theorem in_startChannels {L : List StPart} {s₀ x₀ : State} (ns : List ChanIx) (rack : Bool) (hL : stPartsIn [.hostif, .cmdq, .vault, .book, .bench, .pwr, .image, .ch, .free, .out] L = true) (hF : State.onlyIn L s₀ x₀) : State.onlyIn L s₀ (State.startChannels x₀ ns rack) := by
  refine State.onlyIn_step hL hF ?_
  unfold State.startChannels
  try dsimp only
  repeat' first | with_reducible exact State.onlyIn_refl _ _ | with_reducible apply in_ungateCh | with_reducible apply in_ite | with_reducible apply in_ite2 | with_reducible apply in_fold | with_reducible apply in_fold2 | with_reducible rfl | exact .inl rfl | exact .inr rfl | rfl | with_reducible assumption | intro _ | (split <;> try (rename_i h; have e := congrArg Prod.snd h; dsimp only at e; subst e))

theorem in_startRack {L : List StPart} {s₀ x₀ : State} (t0 : ℕ) (drill : Bool) (hL : stPartsIn [.hostif, .cmdq, .vault, .book, .twin, .bench, .pwr, .image, .ch, .free, .out] L = true) (hF : State.onlyIn L s₀ x₀) : State.onlyIn L s₀ (State.startRack x₀ t0 drill) := by
  refine State.onlyIn_step hL hF ?_
  unfold State.startRack
  try dsimp only
  repeat' first | with_reducible exact State.onlyIn_refl _ _ | with_reducible apply in_updTwin | with_reducible apply in_gput | with_reducible apply in_startChannels | with_reducible apply in_ite | with_reducible apply in_ite2 | with_reducible rfl | exact .inl rfl | exact .inr rfl | rfl | with_reducible assumption | intro _ | (split <;> try (rename_i h; have e := congrArg Prod.snd h; dsimp only at e; subst e))

theorem in_goRacking {L : List StPart} {s₀ x₀ : State} (t0 : ℕ) (hL : stPartsIn [.hostif, .cmdq, .vault, .book, .tally, .twin, .bench, .pwr, .image, .ch, .free, .out] L = true) (hF : State.onlyIn L s₀ x₀) : State.onlyIn L s₀ (State.goRacking x₀ t0) := by
  refine State.onlyIn_step hL hF ?_
  unfold State.goRacking
  try dsimp only
  repeat' first | with_reducible exact State.onlyIn_refl _ _ | with_reducible apply in_updTwin | with_reducible apply in_gput | with_reducible apply in_startRack | with_reducible apply in_raiseEpoch | with_reducible apply in_twinTo | with_reducible apply in_ite | with_reducible apply in_ite2 | with_reducible rfl | exact .inl rfl | exact .inr rfl | rfl | with_reducible assumption | intro _ | (split <;> try (rename_i h; have e := congrArg Prod.snd h; dsimp only at e; subst e))

theorem in_rackWait {L : List StPart} {s₀ x₀ : State} (hL : stPartsIn [.hostif, .twin, .out] L = true) (hF : State.onlyIn L s₀ x₀) : State.onlyIn L s₀ (State.rackWait x₀) := by
  refine State.onlyIn_step hL hF ?_
  unfold State.rackWait
  try dsimp only
  repeat' first | with_reducible exact State.onlyIn_refl _ _ | with_reducible apply in_updTwin | with_reducible apply in_gevt | with_reducible apply in_gput | with_reducible apply in_ite | with_reducible apply in_ite2 | with_reducible rfl | exact .inl rfl | exact .inr rfl | rfl | with_reducible assumption | intro _ | (split <;> try (rename_i h; have e := congrArg Prod.snd h; dsimp only at e; subst e))

theorem in_sendDrill {L : List StPart} {s₀ x₀ : State} (op : ℕ) (reason : ℕ) (hL : stPartsIn [.twin, .out] L = true) (hF : State.onlyIn L s₀ x₀) : State.onlyIn L s₀ (State.sendDrill x₀ op reason) := by
  refine State.onlyIn_step hL hF ?_
  unfold State.sendDrill
  try dsimp only
  repeat' first | with_reducible exact State.onlyIn_refl _ _ | with_reducible apply in_twinSend | with_reducible apply in_ite | with_reducible apply in_ite2 | with_reducible rfl | exact .inl rfl | exact .inr rfl | rfl | with_reducible assumption | intro _ | (split <;> try (rename_i h; have e := congrArg Prod.snd h; dsimp only at e; subst e))

theorem in_drillFail {L : List StPart} {s₀ x₀ : State} (hL : stPartsIn [.hostif, .cmdq, .vault, .book, .tally, .twin, .bench, .pwr, .image, .ch, .free, .out] L = true) (hF : State.onlyIn L s₀ x₀) : State.onlyIn L s₀ (State.drillFail x₀) := by
  refine State.onlyIn_step hL hF ?_
  unfold State.drillFail
  try dsimp only
  repeat' first | with_reducible exact State.onlyIn_refl _ _ | with_reducible apply in_gevt | with_reducible apply in_sendDrill | with_reducible apply in_coldEntry | with_reducible apply in_updTally | with_reducible apply in_ite | with_reducible apply in_ite2 | with_reducible rfl | exact .inl rfl | exact .inr rfl | rfl | with_reducible assumption | intro _ | (split <;> try (rename_i h; have e := congrArg Prod.snd h; dsimp only at e; subst e))

theorem in_dropStream {L : List StPart} {s₀ x₀ : State} (hL : stPartsIn [.twin] L = true) (hF : State.onlyIn L s₀ x₀) : State.onlyIn L s₀ (State.dropStream x₀) := by
  refine State.onlyIn_step hL hF ?_
  unfold State.dropStream
  try dsimp only
  repeat' first | with_reducible exact State.onlyIn_refl _ _ | with_reducible apply in_updTwin | with_reducible apply in_ite | with_reducible apply in_ite2 | with_reducible rfl | exact .inl rfl | exact .inr rfl | rfl | with_reducible assumption | intro _ | (split <;> try (rename_i h; have e := congrArg Prod.snd h; dsimp only at e; subst e))

theorem in_rackWon {L : List StPart} {s₀ x₀ : State} (hL : stPartsIn [.hostif, .cmdq, .book, .tally, .twin, .out] L = true) (hF : State.onlyIn L s₀ x₀) : State.onlyIn L s₀ (State.rackWon x₀) := by
  refine State.onlyIn_step hL hF ?_
  unfold State.rackWon
  try dsimp only
  repeat' first | with_reducible exact State.onlyIn_refl _ _ | with_reducible apply in_updTally | with_reducible apply in_gput | with_reducible apply in_twinTo | with_reducible apply in_updTwin | with_reducible apply in_dropStream | with_reducible apply in_ite | with_reducible apply in_ite2 | with_reducible apply in_fold | with_reducible apply in_fold2 | with_reducible rfl | exact .inl rfl | exact .inr rfl | rfl | with_reducible assumption | intro _ | (split <;> try (rename_i h; have e := congrArg Prod.snd h; dsimp only at e; subst e))

theorem in_bootActive {L : List StPart} {s₀ x₀ : State} (hL : stPartsIn [.hostif, .cmdq, .vault, .book, .tally, .twin, .bench, .pwr, .image, .ch, .free, .out] L = true) (hF : State.onlyIn L s₀ x₀) : State.onlyIn L s₀ (State.bootActive x₀) := by
  refine State.onlyIn_step hL hF ?_
  unfold State.bootActive
  try dsimp only
  repeat' first | with_reducible exact State.onlyIn_refl _ _ | with_reducible apply in_startChannels | with_reducible apply in_dropStream | with_reducible apply in_raiseEpoch | with_reducible apply in_twinTo | with_reducible apply in_ite | with_reducible apply in_ite2 | with_reducible rfl | exact .inl rfl | exact .inr rfl | rfl | with_reducible assumption | intro _ | (split <;> try (rename_i h; have e := congrArg Prod.snd h; dsimp only at e; subst e))

theorem in_declare {L : List StPart} {s₀ x₀ : State} (hL : stPartsIn [.hostif, .cmdq, .vault, .book, .tally, .twin, .bench, .pwr, .image, .ch, .free, .out] L = true) (hF : State.onlyIn L s₀ x₀) : State.onlyIn L s₀ (State.declare x₀) := by
  refine State.onlyIn_step hL hF ?_
  unfold State.declare
  try dsimp only
  repeat' first | with_reducible exact State.onlyIn_refl _ _ | with_reducible apply in_gevt | with_reducible apply in_updTwin | with_reducible apply in_goRacking | with_reducible apply in_rackWait | with_reducible apply in_raiseEpoch | with_reducible apply in_twinTo | with_reducible apply in_gput | with_reducible apply in_ite | with_reducible apply in_ite2 | with_reducible rfl | exact .inl rfl | exact .inr rfl | rfl | with_reducible assumption | intro _ | (split <;> try (rename_i h; have e := congrArg Prod.snd h; dsimp only at e; subst e))

theorem in_feedsRise {L : List StPart} {s₀ x₀ : State} (hL : stPartsIn [.hostif, .cmdq, .vault, .book, .tally, .twin, .bench, .pwr, .image, .ch, .free, .out] L = true) (hF : State.onlyIn L s₀ x₀) : State.onlyIn L s₀ (State.feedsRise x₀) := by
  refine State.onlyIn_step hL hF ?_
  unfold State.feedsRise
  try dsimp only
  repeat' first | with_reducible exact State.onlyIn_refl _ _ | with_reducible apply in_goRacking | with_reducible apply in_ite | with_reducible apply in_ite2 | with_reducible rfl | exact .inl rfl | exact .inr rfl | rfl | with_reducible assumption | intro _ | (split <;> try (rename_i h; have e := congrArg Prod.snd h; dsimp only at e; subst e))

theorem in_missExpire {L : List StPart} {s₀ x₀ : State} (b : Bool) (hL : stPartsIn [.hostif, .cmdq, .vault, .book, .tally, .twin, .bench, .pwr, .image, .ch, .free, .out] L = true) (hF : State.onlyIn L s₀ x₀) : State.onlyIn L s₀ (State.missExpire x₀ b) := by
  refine State.onlyIn_step hL hF ?_
  unfold State.missExpire
  try dsimp only
  repeat' first | with_reducible exact State.onlyIn_refl _ _ | with_reducible apply in_declare | with_reducible apply in_setPath | with_reducible apply in_ite | with_reducible apply in_ite2 | with_reducible rfl | exact .inl rfl | exact .inr rfl | rfl | with_reducible assumption | intro _ | (split <;> try (rename_i h; have e := congrArg Prod.snd h; dsimp only at e; subst e))

theorem in_bootExpire {L : List StPart} {s₀ x₀ : State} (hL : stPartsIn [.hostif, .cmdq, .vault, .book, .tally, .twin, .bench, .pwr, .image, .ch, .free, .out] L = true) (hF : State.onlyIn L s₀ x₀) : State.onlyIn L s₀ (State.bootExpire x₀) := by
  refine State.onlyIn_step hL hF ?_
  unfold State.bootExpire
  try dsimp only
  repeat' first | with_reducible exact State.onlyIn_refl _ _ | with_reducible apply in_updTwin | with_reducible apply in_bootActive | with_reducible apply in_rackWait | with_reducible apply in_ite | with_reducible apply in_ite2 | with_reducible rfl | exact .inl rfl | exact .inr rfl | rfl | with_reducible assumption | intro _ | (split <;> try (rename_i h; have e := congrArg Prod.snd h; dsimp only at e; subst e))

theorem in_fence {L : List StPart} {s₀ x₀ : State} (org : Origin) (hL : stPartsIn [.hostif, .cmdq, .vault, .book, .tally, .twin, .bench, .pwr, .image, .ch, .free, .out] L = true) (hF : State.onlyIn L s₀ x₀) : State.onlyIn L s₀ (State.fence x₀ org) := by
  refine State.onlyIn_step hL hF ?_
  unfold State.fence
  try dsimp only
  repeat' first | with_reducible exact State.onlyIn_refl _ _ | with_reducible apply in_coldEntry | with_reducible apply in_ite | with_reducible apply in_ite2 | with_reducible rfl | exact .inl rfl | exact .inr rfl | rfl | with_reducible assumption | intro _ | (split <;> try (rename_i h; have e := congrArg Prod.snd h; dsimp only at e; subst e))

theorem in_unfence {L : List StPart} {s₀ x₀ : State} (org : Origin) (hL : stPartsIn [.hostif, .cmdq, .book, .tally, .twin, .out] L = true) (hF : State.onlyIn L s₀ x₀) : State.onlyIn L s₀ (State.unfence x₀ org) := by
  refine State.onlyIn_step hL hF ?_
  unfold State.unfence
  try dsimp only
  repeat' first | with_reducible exact State.onlyIn_refl _ _ | with_reducible apply in_pathsUnheard | with_reducible apply in_twinTo | with_reducible apply in_ite | with_reducible apply in_ite2 | with_reducible rfl | exact .inl rfl | exact .inr rfl | rfl | with_reducible assumption | intro _ | (split <;> try (rename_i h; have e := congrArg Prod.snd h; dsimp only at e; subst e))

theorem in_twinReset {L : List StPart} {s₀ x₀ : State} (hL : stPartsIn [.hostif, .cmdq, .book, .tally, .twin, .ch, .out] L = true) (hF : State.onlyIn L s₀ x₀) : State.onlyIn L s₀ (State.twinReset x₀) := by
  refine State.onlyIn_step hL hF ?_
  unfold State.twinReset
  try dsimp only
  repeat' first | with_reducible exact State.onlyIn_refl _ _ | with_reducible apply in_updTwin | with_reducible apply in_twinTo | with_reducible apply in_setDrive | with_reducible apply in_ite | with_reducible apply in_ite2 | with_reducible rfl | exact .inl rfl | exact .inr rfl | rfl | with_reducible assumption | intro _ | (split <;> try (rename_i h; have e := congrArg Prod.snd h; dsimp only at e; subst e))

theorem in_roundStart {L : List StPart} {s₀ x₀ : State} (fell : Bool) (hL : stPartsIn [.twin, .out] L = true) (hF : State.onlyIn L s₀ x₀) : State.onlyIn L s₀ (State.roundStart x₀ fell) := by
  refine State.onlyIn_step hL hF ?_
  unfold State.roundStart
  try dsimp only
  repeat' first | with_reducible exact State.onlyIn_refl _ _ | with_reducible apply in_updTwin | with_reducible apply in_emit | with_reducible apply in_ite | with_reducible apply in_ite2 | with_reducible rfl | exact .inl rfl | exact .inr rfl | rfl | with_reducible assumption | intro _ | (split <;> try (rename_i h; have e := congrArg Prod.snd h; dsimp only at e; subst e))

theorem in_claimBad {L : List StPart} {s₀ x₀ : State} (bad : Bool) (hL : stPartsIn [.hostif, .cmdq, .fault, .vault, .book, .tally, .twin, .bench, .pwr, .image, .ch, .free, .out] L = true) (hF : State.onlyIn L s₀ x₀) : State.onlyIn L s₀ (State.claimBad x₀ bad) := by
  refine State.onlyIn_step hL hF ?_
  unfold State.claimBad
  try dsimp only
  repeat' first | with_reducible exact State.onlyIn_refl _ _ | with_reducible apply in_updTwin | with_reducible apply in_detect | with_reducible apply in_gevt | with_reducible apply in_gput | with_reducible apply in_ite | with_reducible apply in_ite2 | with_reducible rfl | exact .inl rfl | exact .inr rfl | rfl | with_reducible assumption | intro _ | (split <;> try (rename_i h; have e := congrArg Prod.snd h; dsimp only at e; subst e))

theorem in_roundSettle {L : List StPart} {s₀ x₀ : State} (mine : ℕ) (w : ℕ) (won : Bool) (hL : stPartsIn [.hostif, .cmdq, .vault, .book, .tally, .twin, .bench, .pwr, .image, .ch, .free, .out] L = true) (hF : State.onlyIn L s₀ x₀) : State.onlyIn L s₀ (State.roundSettle x₀ mine w won) := by
  refine State.onlyIn_step hL hF ?_
  unfold State.roundSettle
  try dsimp only
  repeat' first | with_reducible exact State.onlyIn_refl _ _ | with_reducible apply in_gbump | with_reducible apply in_updTwin | with_reducible apply in_setDrive | with_reducible apply in_rackWon | with_reducible apply in_coldEntry | with_reducible apply in_endDrill | with_reducible apply in_ite | with_reducible apply in_ite2 | with_reducible rfl | exact .inl rfl | exact .inr rfl | rfl | with_reducible assumption | intro _ | (split <;> try (rename_i h; have e := congrArg Prod.snd h; dsimp only at e; subst e))

theorem in_roundEnd {L : List StPart} {s₀ x₀ : State} (w : ℕ) (stuck : Bool) (noStart : Bool) (hL : stPartsIn [.hostif, .cmdq, .fault, .vault, .book, .tally, .twin, .bench, .pwr, .image, .ch, .free, .out] L = true) (hF : State.onlyIn L s₀ x₀) : State.onlyIn L s₀ (State.roundEnd x₀ w stuck noStart) := by
  refine State.onlyIn_step hL hF ?_
  unfold State.roundEnd
  try dsimp only
  repeat' first | with_reducible exact State.onlyIn_refl _ _ | with_reducible apply in_seeEpoch | with_reducible apply in_gput | with_reducible apply in_updTwin | with_reducible apply in_claimBad | with_reducible apply in_roundSettle | with_reducible apply in_ite | with_reducible apply in_ite2 | with_reducible rfl | exact .inl rfl | exact .inr rfl | rfl | with_reducible assumption | intro _ | (split <;> try (rename_i h; have e := congrArg Prod.snd h; dsimp only at e; subst e))

theorem in_contention {L : List StPart} {s₀ x₀ : State} (n : ChanIx) (hL : stPartsIn [.hostif, .cmdq, .fault, .vault, .book, .tally, .twin, .bench, .pwr, .image, .ch, .free, .out] L = true) (hF : State.onlyIn L s₀ x₀) : State.onlyIn L s₀ (State.contention x₀ n) := by
  refine State.onlyIn_step hL hF ?_
  unfold State.contention
  try dsimp only
  repeat' first | with_reducible exact State.onlyIn_refl _ _ | with_reducible apply in_detect | with_reducible apply in_gevt | with_reducible apply in_gput | with_reducible apply in_updTwin | with_reducible apply in_setDrive | with_reducible apply in_coldEntry | with_reducible apply in_ite | with_reducible apply in_ite2 | with_reducible rfl | exact .inl rfl | exact .inr rfl | rfl | with_reducible assumption | intro _ | (split <;> try (rename_i h; have e := congrArg Prod.snd h; dsimp only at e; subst e))

theorem in_hbSend {L : List StPart} {s₀ x₀ : State} (ps0 : ℕ) (ps1 : ℕ) (hL : stPartsIn [.twin, .out] L = true) (hF : State.onlyIn L s₀ x₀) : State.onlyIn L s₀ (State.hbSend x₀ ps0 ps1) := by
  refine State.onlyIn_step hL hF ?_
  unfold State.hbSend
  try dsimp only
  repeat' first | with_reducible exact State.onlyIn_refl _ _ | with_reducible apply in_twinSendOn | with_reducible apply in_updTwin | with_reducible apply in_emit | with_reducible apply in_ite | with_reducible apply in_ite2 | with_reducible rfl | exact .inl rfl | exact .inr rfl | rfl | with_reducible assumption | intro _ | (split <;> try (rename_i h; have e := congrArg Prod.snd h; dsimp only at e; subst e))

theorem in_hbCounts {L : List StPart} {s₀ x₀ : State} (b : Bool) (tst : ℕ) (hL : stPartsIn [.hostif, .twin, .out] L = true) (hF : State.onlyIn L s₀ x₀) : State.onlyIn L s₀ (State.hbCounts x₀ b tst) := by
  refine State.onlyIn_step hL hF ?_
  unfold State.hbCounts
  try dsimp only
  repeat' first | with_reducible exact State.onlyIn_refl _ _ | with_reducible apply in_updTwin | with_reducible apply in_setPath | with_reducible apply in_gput | with_reducible apply in_ite | with_reducible apply in_ite2 | with_reducible rfl | exact .inl rfl | exact .inr rfl | rfl | with_reducible assumption | intro _ | (split <;> try (rename_i h; have e := congrArg Prod.snd h; dsimp only at e; subst e))

theorem in_hbWordRx {L : List StPart} {s₀ x₀ : State} (w : Word) (hL : stPartsIn [.hostif, .twin, .out] L = true) (hF : State.onlyIn L s₀ x₀) : State.onlyIn L s₀ (State.hbWordRx x₀ w) := by
  refine State.onlyIn_step hL hF ?_
  unfold State.hbWordRx
  try dsimp only
  repeat' first | with_reducible exact State.onlyIn_refl _ _ | with_reducible apply in_hbCounts | with_reducible apply in_ite | with_reducible apply in_ite2 | with_reducible rfl | exact .inl rfl | exact .inr rfl | rfl | with_reducible assumption | intro _ | (split <;> try (rename_i h; have e := congrArg Prod.snd h; dsimp only at e; subst e))

theorem in_exchange {L : List StPart} {s₀ x₀ : State} (pl : Bytes) (t4 : ℕ) (hL : stPartsIn [.hostif, .cmdq, .fault, .vault, .book, .tally, .twin, .bench, .pwr, .image, .ch, .free, .out] L = true) (hF : State.onlyIn L s₀ x₀) : State.onlyIn L s₀ (State.exchange x₀ pl t4) := by
  refine State.onlyIn_step hL hF ?_
  unfold State.exchange
  try dsimp only
  repeat' first | with_reducible exact State.onlyIn_refl _ _ | with_reducible apply in_updTwin | with_reducible apply in_gput | with_reducible apply in_detect | with_reducible apply in_gevt | with_reducible apply in_ite | with_reducible apply in_ite2 | with_reducible rfl | exact .inl rfl | exact .inr rfl | rfl | with_reducible assumption | intro _ | (split <;> try (rename_i h; have e := congrArg Prod.snd h; dsimp only at e; subst e))

theorem in_twinBad {L : List StPart} {s₀ x₀ : State} (l : Fin 2) (hL : stPartsIn [.hostif, .cmdq, .fault, .vault, .book, .tally, .twin, .bench, .pwr, .image, .ch, .free, .out] L = true) (hF : State.onlyIn L s₀ x₀) : State.onlyIn L s₀ (State.twinBad x₀ l) := by
  refine State.onlyIn_step hL hF ?_
  unfold State.twinBad
  try dsimp only
  repeat' first | with_reducible exact State.onlyIn_refl _ _ | with_reducible apply in_updTwin | with_reducible apply in_gbump | with_reducible apply in_detect | with_reducible apply in_ite | with_reducible apply in_ite2 | with_reducible rfl | exact .inl rfl | exact .inr rfl | rfl | with_reducible assumption | intro _ | (split <;> try (rename_i h; have e := congrArg Prod.snd h; dsimp only at e; subst e))

theorem in_lseqRx {L : List StPart} {s₀ x₀ : State} (l : Fin 2) (q : ℕ) (hL : stPartsIn [.twin, .out] L = true) (hF : State.onlyIn L s₀ x₀) : State.onlyIn L s₀ (State.lseqRx x₀ l q) := by
  refine State.onlyIn_step hL hF ?_
  unfold State.lseqRx
  try dsimp only
  repeat' first | with_reducible exact State.onlyIn_refl _ _ | with_reducible apply in_updTwin | with_reducible apply in_gbump | with_reducible apply in_sendResync | with_reducible apply in_ite | with_reducible apply in_ite2 | with_reducible apply in_fold | with_reducible apply in_fold2 | with_reducible rfl | exact .inl rfl | exact .inr rfl | rfl | with_reducible assumption | intro _ | (split <;> try (rename_i h; have e := congrArg Prod.snd h; dsimp only at e; subst e))

theorem in_twinFrame {L : List StPart} {s₀ x₀ : State} (l : Fin 2) (bs : Bytes) (ty : ℕ) (f : State → ℕ → ℕ → Bytes → State) (hf : ∀ v0 v1 v2 v3, State.onlyIn L v0 (f v0 v1 v2 v3)) (hL : stPartsIn [.hostif, .cmdq, .fault, .vault, .book, .tally, .twin, .bench, .pwr, .image, .ch, .free, .out] L = true) (hF : State.onlyIn L s₀ x₀) : State.onlyIn L s₀ (State.twinFrame x₀ l bs ty f) := by
  refine State.onlyIn_trans hF ?_
  unfold State.twinFrame
  try dsimp only
  repeat' first | with_reducible exact State.onlyIn_refl _ _ | with_reducible apply in_twinBad | with_reducible apply in_lseqRx | with_reducible apply in_ite | with_reducible apply in_ite2 | (refine State.onlyIn_trans ?_ (hf _ _ _ _)) | with_reducible rfl | exact .inl rfl | exact .inr rfl | rfl | with_reducible assumption | exact stPartsIn_trans rfl hL | exact stPartsIn_mem rfl hL | exact .inl (stPartsIn_mem rfl hL) | intro _ | (split <;> try (rename_i h; have e := congrArg Prod.snd h; dsimp only at e; subst e))

theorem in_hbFrame {L : List StPart} {s₀ x₀ : State} (l : Fin 2) (bs : Bytes) (ps : ℕ) (hL : stPartsIn [.hostif, .cmdq, .fault, .vault, .book, .tally, .twin, .bench, .pwr, .image, .ch, .free, .out] L = true) (hF : State.onlyIn L s₀ x₀) : State.onlyIn L s₀ (State.hbFrame x₀ l bs ps) := by
  refine State.onlyIn_step hL hF ?_
  unfold State.hbFrame
  try dsimp only
  repeat' first | with_reducible exact State.onlyIn_refl _ _ | with_reducible apply in_twinFrame | with_reducible apply in_updTwin | with_reducible apply in_seeEpoch | with_reducible apply in_detect | with_reducible apply in_gevt | with_reducible apply in_fence | with_reducible apply in_hbCounts | with_reducible apply in_exchange | with_reducible apply in_gput | with_reducible apply in_ite | with_reducible apply in_ite2 | with_reducible rfl | exact .inl rfl | exact .inr rfl | rfl | with_reducible assumption | intro _ | (split <;> try (rename_i h; have e := congrArg Prod.snd h; dsimp only at e; subst e))

theorem in_updRx {L : List StPart} {s₀ x₀ : State} (n : ChanIx) (f : RxChan → RxChan) (hL : stPartsIn [.twin] L = true) (hF : State.onlyIn L s₀ x₀) : State.onlyIn L s₀ (State.updRx x₀ n f) := by
  refine State.onlyIn_step hL hF ?_
  unfold State.updRx
  try dsimp only
  repeat' first | with_reducible exact State.onlyIn_refl _ _ | with_reducible apply in_updTwin | with_reducible apply in_ite | with_reducible apply in_ite2 | with_reducible rfl | exact .inl rfl | exact .inr rfl | rfl | with_reducible assumption | intro _ | (split <;> try (rename_i h; have e := congrArg Prod.snd h; dsimp only at e; subst e))

theorem in_jourFrame {L : List StPart} {s₀ x₀ : State} (l : Fin 2) (f : JourFrame) (hL : stPartsIn [.hostif, .cmdq, .fault, .vault, .book, .tally, .twin, .bench, .pwr, .image, .ch, .free, .out] L = true) (hF : State.onlyIn L s₀ x₀) : State.onlyIn L s₀ (State.jourFrame x₀ l f) := by
  refine State.onlyIn_step hL hF ?_
  unfold State.jourFrame
  try dsimp only
  repeat' first | with_reducible exact State.onlyIn_refl _ _ | with_reducible apply in_twinBad | with_reducible apply in_lseqRx | with_reducible apply in_updRx | with_reducible apply in_reqAbsent | with_reducible apply in_put64 | with_reducible apply in_ite | with_reducible apply in_ite2 | with_reducible apply in_fold | with_reducible apply in_fold2 | with_reducible rfl | exact .inl rfl | exact .inr rfl | rfl | with_reducible assumption | intro _ | (split <;> try (rename_i h; have e := congrArg Prod.snd h; dsimp only at e; subst e))

theorem in_vintFrame {L : List StPart} {s₀ x₀ : State} (l : Fin 2) (f : VintFrame) (hL : stPartsIn [.hostif, .cmdq, .fault, .vault, .book, .tally, .twin, .bench, .pwr, .image, .ch, .free, .out] L = true) (hF : State.onlyIn L s₀ x₀) : State.onlyIn L s₀ (State.vintFrame x₀ l f) := by
  refine State.onlyIn_step hL hF ?_
  unfold State.vintFrame
  try dsimp only
  repeat' first | with_reducible exact State.onlyIn_refl _ _ | with_reducible apply in_twinBad | with_reducible apply in_lseqRx | with_reducible apply in_updRx | with_reducible apply in_reqAbsent | with_reducible apply in_ite | with_reducible apply in_ite2 | with_reducible rfl | exact .inl rfl | exact .inr rfl | rfl | with_reducible assumption | intro _ | (split <;> try (rename_i h; have e := congrArg Prod.snd h; dsimp only at e; subst e))

theorem in_clientFrame {L : List StPart} {s₀ x₀ : State} (l : Fin 2) (bs : Bytes) (hL : stPartsIn [.hostif, .cmdq, .fault, .vault, .book, .tally, .twin, .bench, .pwr, .image, .ch, .free, .out] L = true) (hF : State.onlyIn L s₀ x₀) : State.onlyIn L s₀ (State.clientFrame x₀ l bs) := by
  refine State.onlyIn_step hL hF ?_
  unfold State.clientFrame
  try dsimp only
  repeat' first | with_reducible exact State.onlyIn_refl _ _ | with_reducible apply in_twinFrame | with_reducible apply in_setCh | with_reducible apply in_reqAbsent | with_reducible apply in_ite | with_reducible apply in_ite2 | with_reducible rfl | exact .inl rfl | exact .inr rfl | rfl | with_reducible assumption | intro _ | (split <;> try (rename_i h; have e := congrArg Prod.snd h; dsimp only at e; subst e))

theorem in_resyncFrame {L : List StPart} {s₀ x₀ : State} (l : Fin 2) (bs : Bytes) (hL : stPartsIn [.hostif, .cmdq, .fault, .vault, .book, .tally, .twin, .bench, .pwr, .image, .ch, .free, .out] L = true) (hF : State.onlyIn L s₀ x₀) : State.onlyIn L s₀ (State.resyncFrame x₀ l bs) := by
  refine State.onlyIn_step hL hF ?_
  unfold State.resyncFrame
  try dsimp only
  repeat' first | with_reducible exact State.onlyIn_refl _ _ | with_reducible apply in_twinFrame | with_reducible apply in_reqAbsent | with_reducible apply in_gbump | with_reducible apply in_writeVintage | with_reducible apply in_streamClient | with_reducible apply in_ite | with_reducible apply in_ite2 | with_reducible apply in_fold | with_reducible apply in_fold2 | with_reducible rfl | exact .inl rfl | exact .inr rfl | rfl | with_reducible assumption | intro _ | (split <;> try (rename_i h; have e := congrArg Prod.snd h; dsimp only at e; subst e))

theorem in_drillFrame {L : List StPart} {s₀ x₀ : State} (l : Fin 2) (bs : Bytes) (hL : stPartsIn [.hostif, .cmdq, .fault, .vault, .book, .tally, .twin, .bench, .pwr, .image, .ch, .free, .out] L = true) (hF : State.onlyIn L s₀ x₀) : State.onlyIn L s₀ (State.drillFrame x₀ l bs) := by
  refine State.onlyIn_step hL hF ?_
  unfold State.drillFrame
  try dsimp only
  repeat' first | with_reducible exact State.onlyIn_refl _ _ | with_reducible apply in_twinFrame | with_reducible apply in_startRack | with_reducible apply in_raiseEpoch | with_reducible apply in_twinTo | with_reducible apply in_sendDrill | with_reducible apply in_endDrill | with_reducible apply in_ite | with_reducible apply in_ite2 | with_reducible rfl | exact .inl rfl | exact .inr rfl | rfl | with_reducible assumption | intro _ | (split <;> try (rename_i h; have e := congrArg Prod.snd h; dsimp only at e; subst e))

theorem in_timeSend {L : List StPart} {s₀ x₀ : State} (n : ChanIx) (ps : ℕ) (hL : stPartsIn [.twin, .out] L = true) (hF : State.onlyIn L s₀ x₀) : State.onlyIn L s₀ (State.timeSend x₀ n ps) := by
  refine State.onlyIn_step hL hF ?_
  unfold State.timeSend
  try dsimp only
  repeat' first | with_reducible exact State.onlyIn_refl _ _ | with_reducible apply in_twinSend | with_reducible apply in_ite | with_reducible apply in_ite2 | with_reducible rfl | exact .inl rfl | exact .inr rfl | rfl | with_reducible assumption | intro _ | (split <;> try (rename_i h; have e := congrArg Prod.snd h; dsimp only at e; subst e))

theorem in_drillRecord {L : List StPart} {s₀ x₀ : State} (n : ChanIx) (r : MeasRec) (hL : stPartsIn [.hostif, .cmdq, .vault, .book, .tally, .twin, .bench, .pwr, .image, .ch, .free, .out] L = true) (hF : State.onlyIn L s₀ x₀) : State.onlyIn L s₀ (State.drillRecord x₀ n r) := by
  refine State.onlyIn_step hL hF ?_
  unfold State.drillRecord
  try dsimp only
  repeat' first | with_reducible exact State.onlyIn_refl _ _ | with_reducible apply in_drillFail | with_reducible apply in_updTwin | with_reducible apply in_ite | with_reducible apply in_ite2 | with_reducible rfl | exact .inl rfl | exact .inr rfl | rfl | with_reducible assumption | intro _ | (split <;> try (rename_i h; have e := congrArg Prod.snd h; dsimp only at e; subst e))

theorem in_drillRecords {L : List StPart} {s₀ x₀ : State} (hL : stPartsIn [.hostif, .cmdq, .vault, .book, .tally, .twin, .bench, .pwr, .image, .ch, .free, .out] L = true) (hF : State.onlyIn L s₀ x₀) : State.onlyIn L s₀ (State.drillRecords x₀) := by
  refine State.onlyIn_step hL hF ?_
  unfold State.drillRecords
  try dsimp only
  repeat' first | with_reducible exact State.onlyIn_refl _ _ | with_reducible apply in_drillRecord | with_reducible apply in_ite | with_reducible apply in_ite2 | with_reducible apply in_fold | with_reducible apply in_fold2 | with_reducible rfl | exact .inl rfl | exact .inr rfl | rfl | with_reducible assumption | intro _ | (split <;> try (rename_i h; have e := congrArg Prod.snd h; dsimp only at e; subst e))

theorem in_timeFrame {L : List StPart} {s₀ x₀ : State} (l : Fin 2) (bs : Bytes) (ps : ℕ) (hL : stPartsIn [.hostif, .cmdq, .fault, .vault, .book, .tally, .twin, .bench, .pwr, .image, .ch, .free, .out] L = true) (hF : State.onlyIn L s₀ x₀) : State.onlyIn L s₀ (State.timeFrame x₀ l bs ps) := by
  refine State.onlyIn_step hL hF ?_
  unfold State.timeFrame
  try dsimp only
  repeat' first | with_reducible exact State.onlyIn_refl _ _ | with_reducible apply in_twinFrame | with_reducible apply in_reqAbsent | with_reducible apply in_onCh | with_reducible apply in_ite | with_reducible apply in_ite2 | with_reducible rfl | exact .inl rfl | exact .inr rfl | rfl | with_reducible assumption | intro _ | (split <;> try (rename_i h; have e := congrArg Prod.snd h; dsimp only at e; subst e))

theorem in_rackChannel {L : List StPart} {s₀ x₀ : State} (n : ChanIx) (hL : stPartsIn [.hostif, .cmdq, .fault, .vault, .book, .tally, .twin, .bench, .pwr, .image, .ch, .free, .out] L = true) (hF : State.onlyIn L s₀ x₀) : State.onlyIn L s₀ (State.rackChannel x₀ n) := by
  refine State.onlyIn_step hL hF ?_
  unfold State.rackChannel
  try dsimp only
  repeat' first | with_reducible exact State.onlyIn_refl _ _ | with_reducible apply in_setCh | with_reducible apply in_updTwin | with_reducible apply in_gput | with_reducible apply in_detect | with_reducible apply in_drillFail | with_reducible apply in_ite | with_reducible apply in_ite2 | with_reducible rfl | exact .inl rfl | exact .inr rfl | rfl | with_reducible assumption | intro _ | (split <;> try (rename_i h; have e := congrArg Prod.snd h; dsimp only at e; subst e))

theorem in_claimMet {L : List StPart} {s₀ x₀ : State} (drill : Bool) (hL : stPartsIn [.twin] L = true) (hF : State.onlyIn L s₀ x₀) : State.onlyIn L s₀ (State.claimMet x₀ drill) := by
  refine State.onlyIn_step hL hF ?_
  unfold State.claimMet
  try dsimp only
  repeat' first | with_reducible exact State.onlyIn_refl _ _ | with_reducible apply in_updTwin | with_reducible apply in_ite | with_reducible apply in_ite2 | with_reducible rfl | exact .inl rfl | exact .inr rfl | rfl | with_reducible assumption | intro _ | (split <;> try (rename_i h; have e := congrArg Prod.snd h; dsimp only at e; subst e))

theorem in_drillRequest {L : List StPart} {s₀ x₀ : State} (hL : stPartsIn [.twin, .out] L = true) (hF : State.onlyIn L s₀ x₀) : State.onlyIn L s₀ (State.drillRequest x₀) := by
  refine State.onlyIn_step hL hF ?_
  unfold State.drillRequest
  try dsimp only
  repeat' first | with_reducible exact State.onlyIn_refl _ _ | with_reducible apply in_updTwin | with_reducible apply in_sendDrill | with_reducible apply in_ite | with_reducible apply in_ite2 | with_reducible rfl | exact .inl rfl | exact .inr rfl | rfl | with_reducible assumption | intro _ | (split <;> try (rename_i h; have e := congrArg Prod.snd h; dsimp only at e; subst e))

theorem in_drillSend {L : List StPart} {s₀ x₀ : State} (hL : stPartsIn [.twin, .out] L = true) (hF : State.onlyIn L s₀ x₀) : State.onlyIn L s₀ (State.drillSend x₀) := by
  refine State.onlyIn_step hL hF ?_
  unfold State.drillSend
  try dsimp only
  repeat' first | with_reducible exact State.onlyIn_refl _ _ | with_reducible apply in_drillRequest | with_reducible apply in_ite | with_reducible apply in_ite2 | with_reducible rfl | exact .inl rfl | exact .inr rfl | rfl | with_reducible assumption | intro _ | (split <;> try (rename_i h; have e := congrArg Prod.snd h; dsimp only at e; subst e))

theorem in_drillResume {L : List StPart} {s₀ x₀ : State} (hL : stPartsIn [.hostif, .cmdq, .tally, .twin, .out] L = true) (hF : State.onlyIn L s₀ x₀) : State.onlyIn L s₀ (State.drillResume x₀) := by
  refine State.onlyIn_step hL hF ?_
  unfold State.drillResume
  try dsimp only
  repeat' first | with_reducible exact State.onlyIn_refl _ _ | with_reducible apply in_endDrill | with_reducible apply in_drillRequest | with_reducible apply in_ite | with_reducible apply in_ite2 | with_reducible rfl | exact .inl rfl | exact .inr rfl | rfl | with_reducible assumption | intro _ | (split <;> try (rename_i h; have e := congrArg Prod.snd h; dsimp only at e; subst e))

theorem in_drillTimeout {L : List StPart} {s₀ x₀ : State} (hL : stPartsIn [.hostif, .cmdq, .tally, .twin, .out] L = true) (hF : State.onlyIn L s₀ x₀) : State.onlyIn L s₀ (State.drillTimeout x₀) := by
  refine State.onlyIn_step hL hF ?_
  unfold State.drillTimeout
  try dsimp only
  repeat' first | with_reducible exact State.onlyIn_refl _ _ | with_reducible apply in_endDrill | with_reducible apply in_ite | with_reducible apply in_ite2 | with_reducible rfl | exact .inl rfl | exact .inr rfl | rfl | with_reducible assumption | intro _ | (split <;> try (rename_i h; have e := congrArg Prod.snd h; dsimp only at e; subst e))

theorem in_twinTick {L : List StPart} {s₀ x₀ : State} (hL : stPartsIn [.twin] L = true) (hF : State.onlyIn L s₀ x₀) : State.onlyIn L s₀ (State.twinTick x₀) := by
  refine State.onlyIn_step hL hF ?_
  unfold State.twinTick
  try dsimp only
  repeat' first | with_reducible exact State.onlyIn_refl _ _ | with_reducible apply in_gbump | with_reducible apply in_gput | with_reducible apply in_updTwin | with_reducible apply in_ite | with_reducible apply in_ite2 | with_reducible rfl | exact .inl rfl | exact .inr rfl | rfl | with_reducible assumption | intro _ | (split <;> try (rename_i h; have e := congrArg Prod.snd h; dsimp only at e; subst e))

theorem in_holdDrive {L : List StPart} {s₀ x₀ : State} (hL : stPartsIn [.hostif, .twin, .ch, .out] L = true) (hF : State.onlyIn L s₀ x₀) : State.onlyIn L s₀ (State.holdDrive x₀) := by
  refine State.onlyIn_step hL hF ?_
  unfold State.holdDrive
  try dsimp only
  repeat' first | with_reducible exact State.onlyIn_refl _ _ | with_reducible apply in_setDrive | with_reducible apply in_updTwin | with_reducible apply in_ite | with_reducible apply in_ite2 | with_reducible rfl | exact .inl rfl | exact .inr rfl | rfl | with_reducible assumption | intro _ | (split <;> try (rename_i h; have e := congrArg Prod.snd h; dsimp only at e; subst e))

theorem in_twinSettle {L : List StPart} {s₀ x₀ : State} (hL : stPartsIn [.hostif, .cmdq, .vault, .book, .tally, .twin, .bench, .pwr, .image, .ch, .free, .out] L = true) (hF : State.onlyIn L s₀ x₀) : State.onlyIn L s₀ (State.twinSettle x₀) := by
  refine State.onlyIn_step hL hF ?_
  unfold State.twinSettle
  try dsimp only
  repeat' first | with_reducible exact State.onlyIn_refl _ _ | with_reducible apply in_gevt | with_reducible apply in_sendResync | with_reducible apply in_drillFail | with_reducible apply in_drillRecords | with_reducible apply in_holdDrive | with_reducible apply in_gput | with_reducible apply in_ite | with_reducible apply in_ite2 | with_reducible apply in_fold | with_reducible apply in_fold2 | with_reducible rfl | exact .inl rfl | exact .inr rfl | rfl | with_reducible assumption | intro _ | (split <;> try (rename_i h; have e := congrArg Prod.snd h; dsimp only at e; subst e))

theorem in_wearCheck {L : List StPart} {s₀ x₀ : State} (old : State) (hL : stPartsIn [.hostif, .cmdq, .fault, .vault, .book, .tally, .twin, .bench, .pwr, .image, .ch, .free, .out] L = true) (hF : State.onlyIn L s₀ x₀) : State.onlyIn L s₀ (State.wearCheck old x₀) := by
  refine State.onlyIn_step hL hF ?_
  unfold State.wearCheck
  try dsimp only
  repeat' first | with_reducible exact State.onlyIn_refl _ _ | with_reducible apply in_detect | with_reducible apply in_ite | with_reducible apply in_ite2 | with_reducible apply in_fold | with_reducible apply in_fold2 | with_reducible rfl | exact .inl rfl | exact .inr rfl | rfl | with_reducible assumption | intro _ | (split <;> try (rename_i h; have e := congrArg Prod.snd h; dsimp only at e; subst e))

theorem in_follow {L : List StPart} {s₀ x₀ : State} (old : State) (hL : stPartsIn [.hostif, .cmdq, .fault, .vault, .book, .tally, .twin, .bench, .pwr, .image, .ch, .free, .out] L = true) (hF : State.onlyIn L s₀ x₀) : State.onlyIn L s₀ (State.follow old x₀) := by
  refine State.onlyIn_step hL hF ?_
  unfold State.follow
  try dsimp only
  repeat' first | with_reducible exact State.onlyIn_refl _ _ | with_reducible apply in_drain | with_reducible apply in_wearCheck | with_reducible apply in_twinSettle | with_reducible apply in_ite | with_reducible apply in_ite2 | with_reducible rfl | exact .inl rfl | exact .inr rfl | rfl | with_reducible assumption | intro _ | (split <;> try (rename_i h; have e := congrArg Prod.snd h; dsimp only at e; subst e))

theorem in_clear {L : List StPart} {s₀ x₀ : State} (hL : stPartsIn [.out] L = true) (hF : State.onlyIn L s₀ x₀) : State.onlyIn L s₀ (State.clear x₀) := by
  refine State.onlyIn_step hL hF ?_
  unfold State.clear
  try dsimp only
  repeat' first | with_reducible exact State.onlyIn_refl _ _ | with_reducible apply in_ite | with_reducible apply in_ite2 | with_reducible rfl | exact .inl rfl | exact .inr rfl | rfl | with_reducible assumption | intro _ | (split <;> try (rename_i h; have e := congrArg Prod.snd h; dsimp only at e; subst e)) | with_reducible apply in_upd

theorem in_kumFail {L : List StPart} {s₀ x₀ : State} (res : ℕ) (hL : stPartsIn [.hostif, .vault, .out] L = true) (hF : State.onlyIn L s₀ x₀) : State.onlyIn L s₀ (State.kumFail x₀ res) := by
  refine State.onlyIn_step hL hF ?_
  unfold State.kumFail
  try dsimp only
  repeat' first | with_reducible exact State.onlyIn_refl _ _ | with_reducible apply in_gevt | with_reducible apply in_gput | with_reducible apply in_ite | with_reducible apply in_ite2 | with_reducible rfl | exact .inl rfl | exact .inr rfl | rfl | with_reducible assumption | intro _ | (split <;> try (rename_i h; have e := congrArg Prod.snd h; dsimp only at e; subst e)) | with_reducible apply in_upd

theorem in_orphanUnder {L : List StPart} {s₀ x₀ : State} (p : ℕ) (hL : stPartsIn [.hostif, .vault, .out] L = true) (hF : State.onlyIn L s₀ x₀) : State.onlyIn L s₀ (State.orphanUnder x₀ p) := by
  refine State.onlyIn_step hL hF ?_
  unfold State.orphanUnder
  try dsimp only
  repeat' first | with_reducible exact State.onlyIn_refl _ _ | with_reducible apply in_gevt | with_reducible apply in_putVslot | with_reducible apply in_ite | with_reducible apply in_ite2 | with_reducible apply in_fold | with_reducible apply in_fold2 | with_reducible rfl | exact .inl rfl | exact .inr rfl | rfl | with_reducible assumption | intro _ | (split <;> try (rename_i h; have e := congrArg Prod.snd h; dsimp only at e; subst e))

theorem in_newSeed {L : List StPart} {s₀ x₀ : State} (hL : stPartsIn [.vault, .free] L = true) (hF : State.onlyIn L s₀ x₀) : State.onlyIn L s₀ (State.newSeed x₀) := by
  refine State.onlyIn_step hL hF ?_
  unfold State.newSeed
  try dsimp only
  repeat' first | with_reducible exact State.onlyIn_refl _ _ | with_reducible apply in_free | with_reducible apply in_gput | with_reducible apply in_ite | with_reducible apply in_ite2 | with_reducible rfl | exact .inl rfl | exact .inr rfl | rfl | with_reducible assumption | intro _ | (split <;> try (rename_i h; have e := congrArg Prod.snd h; dsimp only at e; subst e)) | with_reducible apply in_upd

theorem in_recover {L : List StPart} {s₀ x₀ : State} (hL : stPartsIn [.vault, .pwr, .free] L = true) (hF : State.onlyIn L s₀ x₀) : State.onlyIn L s₀ x₀.recover := by
  refine State.onlyIn_step hL hF ?_
  unfold State.recover
  extract_lets s1 z sl v s2
  have h1 : State.onlyIn [.vault, .pwr, .free] x₀ s1 := in_ite (in_newSeed rfl (State.onlyIn_refl _ _)) (State.onlyIn_refl _ _)
  clear_value s1
  have h2 : State.onlyIn [.vault, .pwr, .free] x₀ s2 := in_upd h1 rfl (.inr rfl) (.inr rfl) (.inr rfl) (.inr rfl) (.inr rfl) (.inr rfl) (.inl rfl) (.inr rfl) (.inr rfl) (.inr rfl) (.inr rfl) (.inr rfl) (.inr rfl) (.inr rfl) (.inr rfl) (.inr rfl) (.inr rfl)
  clear_value s2
  exact in_ite (in_gput _ _ rfl (in_setStage _ rfl h2)) h2

theorem in_kumCommit {L : List StPart} {s₀ x₀ : State} (j : KumJob) (hL : stPartsIn [.hostif, .vault, .book, .tally, .pwr, .ch, .free, .out] L = true) (hF : State.onlyIn L s₀ x₀) : State.onlyIn L s₀ (State.kumCommit x₀ j) := by
  refine State.onlyIn_step hL hF ?_
  unfold State.kumCommit
  try dsimp only
  repeat' first | with_reducible exact State.onlyIn_refl _ _ | with_reducible apply in_wearOn | with_reducible apply in_recover | with_reducible apply in_putVslot | with_reducible apply in_orphanUnder | with_reducible apply in_gevt | with_reducible apply in_gput | with_reducible apply in_revokeKeys | with_reducible apply in_book1 | with_reducible apply in_ite | with_reducible apply in_ite2 | with_reducible rfl | exact .inl rfl | exact .inr rfl | rfl | with_reducible assumption | intro _ | (split <;> try (rename_i h; have e := congrArg Prod.snd h; dsimp only at e; subst e)) | with_reducible apply in_upd

theorem in_kumGo {L : List StPart} {s₀ x₀ : State} (org : Origin) (hL : stPartsIn [.hostif, .vault, .out] L = true) (hF : State.onlyIn L s₀ x₀) : State.onlyIn L s₀ (State.kumGo x₀ org) := by
  refine State.onlyIn_step hL hF ?_
  unfold State.kumGo
  try dsimp only
  repeat' first | with_reducible exact State.onlyIn_refl _ _ | with_reducible apply in_kumFail | with_reducible apply in_gput | with_reducible apply in_ite | with_reducible apply in_ite2 | with_reducible rfl | exact .inl rfl | exact .inr rfl | rfl | with_reducible assumption | intro _ | (split <;> try (rename_i h; have e := congrArg Prod.snd h; dsimp only at e; subst e)) | with_reducible apply in_upd

theorem in_kumPoint {L : List StPart} {s₀ x₀ : State} (written : Bool) (hL : stPartsIn [.hostif, .vault, .book, .tally, .pwr, .ch, .free, .out] L = true) (hF : State.onlyIn L s₀ x₀) : State.onlyIn L s₀ (State.kumPoint x₀ written) := by
  refine State.onlyIn_step hL hF ?_
  unfold State.kumPoint
  try dsimp only
  repeat' first | with_reducible exact State.onlyIn_refl _ _ | with_reducible apply in_kumCommit | with_reducible apply in_kumFail | with_reducible apply in_ite | with_reducible apply in_ite2 | with_reducible rfl | exact .inl rfl | exact .inr rfl | rfl | with_reducible assumption | intro _ | (split <;> try (rename_i h; have e := congrArg Prod.snd h; dsimp only at e; subst e))

theorem in_quoteBody {L : List StPart} {s₀ x₀ : State} (signer : ℕ) (hL : stPartsIn [.free] L = true) (hF : State.onlyIn L s₀ x₀) : State.onlyIn L s₀ (State.quoteBody x₀ signer).2 := by
  refine State.onlyIn_step hL hF ?_
  unfold State.quoteBody
  try dsimp only
  repeat' first | with_reducible exact State.onlyIn_refl _ _ | with_reducible apply in_free | with_reducible apply in_ite | with_reducible apply in_ite2 | with_reducible rfl | exact .inl rfl | exact .inr rfl | rfl | with_reducible assumption | intro _ | (split <;> try (rename_i h; have e := congrArg Prod.snd h; dsimp only at e; subst e))

theorem in_quoteGo {L : List StPart} {s₀ x₀ : State} (hL : stPartsIn [.hostif, .vault, .free, .out] L = true) (hF : State.onlyIn L s₀ x₀) : State.onlyIn L s₀ (State.quoteGo x₀) := by
  refine State.onlyIn_step hL hF ?_
  unfold State.quoteGo
  try dsimp only
  repeat' first | with_reducible exact State.onlyIn_refl _ _ | with_reducible apply in_quoteBody | with_reducible apply in_dikSign | with_reducible apply in_slotSign | with_reducible apply in_gevt | with_reducible apply in_gput | with_reducible apply in_ite | with_reducible apply in_ite2 | with_reducible rfl | exact .inl rfl | exact .inr rfl | rfl | with_reducible assumption | intro _ | (split <;> try (rename_i h; have e := congrArg Prod.snd h; dsimp only at e; subst e)) | with_reducible apply in_upd

theorem in_quoteDone {L : List StPart} {s₀ x₀ : State} (hL : stPartsIn [.hostif, .vault, .out] L = true) (hF : State.onlyIn L s₀ x₀) : State.onlyIn L s₀ (State.quoteDone x₀) := by
  refine State.onlyIn_step hL hF ?_
  unfold State.quoteDone
  try dsimp only
  repeat' first | with_reducible exact State.onlyIn_refl _ _ | with_reducible apply in_gsetWord | with_reducible apply in_gevt | with_reducible apply in_gput | with_reducible apply in_ite | with_reducible apply in_ite2 | with_reducible apply in_fold | with_reducible apply in_fold2 | with_reducible rfl | exact .inl rfl | exact .inr rfl | rfl | with_reducible assumption | intro _ | (split <;> try (rename_i h; have e := congrArg Prod.snd h; dsimp only at e; subst e)) | with_reducible apply in_upd

theorem in_abortKeyOps {L : List StPart} {s₀ x₀ : State} (hL : stPartsIn [.hostif, .cmdq, .vault, .out] L = true) (hF : State.onlyIn L s₀ x₀) : State.onlyIn L s₀ (State.abortKeyOps x₀) := by
  refine State.onlyIn_step hL hF ?_
  unfold State.abortKeyOps
  try dsimp only
  repeat' first | with_reducible exact State.onlyIn_refl _ _ | with_reducible apply in_kumFail | with_reducible apply in_gevt | with_reducible apply in_gput | with_reducible apply in_endCmd | with_reducible apply in_ite | with_reducible apply in_ite2 | with_reducible apply in_fold | with_reducible apply in_fold2 | with_reducible rfl | exact .inl rfl | exact .inr rfl | rfl | with_reducible assumption | intro _ | (split <;> try (rename_i h; have e := congrArg Prod.snd h; dsimp only at e; subst e)) | with_reducible apply in_upd

theorem in_zeroize {L : List StPart} {s₀ x₀ : State} (hL : stPartsIn [.vault] L = true) (hF : State.onlyIn L s₀ x₀) : State.onlyIn L s₀ (State.zeroize x₀) := by
  refine State.onlyIn_step hL hF ?_
  unfold State.zeroize
  try dsimp only
  repeat' first | with_reducible exact State.onlyIn_refl _ _ | with_reducible apply in_ite | with_reducible apply in_ite2 | with_reducible rfl | exact .inl rfl | exact .inr rfl | rfl | with_reducible assumption | intro _ | (split <;> try (rename_i h; have e := congrArg Prod.snd h; dsimp only at e; subst e)) | with_reducible apply in_upd

theorem in_tamperAlarm {L : List StPart} {s₀ x₀ : State} (src : ℕ) (t : TamperIn) (hL : stPartsIn [.hostif, .cmdq, .fault, .vault, .book, .tally, .twin, .bench, .pwr, .image, .ch, .free, .out] L = true) (hF : State.onlyIn L s₀ x₀) : State.onlyIn L s₀ (State.tamperAlarm x₀ src t) := by
  refine State.onlyIn_step hL hF ?_
  unfold State.tamperAlarm
  try dsimp only
  repeat' first | with_reducible exact State.onlyIn_refl _ _ | with_reducible apply in_vclkNow | with_reducible apply in_zeroize | with_reducible apply in_abortKeyOps | with_reducible apply in_gevt | with_reducible apply in_updTally | with_reducible apply in_setCh | with_reducible apply in_revokeKeys | with_reducible apply in_detect | with_reducible apply in_copyLog | with_reducible apply in_gput | with_reducible apply in_setStage | with_reducible apply in_stopDevice | with_reducible apply in_ite | with_reducible apply in_ite2 | with_reducible apply in_fold | with_reducible apply in_fold2 | with_reducible rfl | exact .inl rfl | exact .inr rfl | rfl | with_reducible assumption | intro _ | (split <;> try (rename_i h; have e := congrArg Prod.snd h; dsimp only at e; subst e)) | with_reducible apply in_upd

theorem in_tamperSample {L : List StPart} {s₀ x₀ : State} (t : TamperIn) (hL : stPartsIn [.hostif, .cmdq, .fault, .vault, .book, .tally, .twin, .bench, .pwr, .image, .ch, .free, .out] L = true) (hF : State.onlyIn L s₀ x₀) : State.onlyIn L s₀ (State.tamperSample x₀ t) := by
  refine State.onlyIn_step hL hF ?_
  unfold State.tamperSample
  try dsimp only
  repeat' first | with_reducible exact State.onlyIn_refl _ _ | with_reducible apply in_gput | with_reducible apply in_gevt | with_reducible apply in_tamperAlarm | with_reducible apply in_ite | with_reducible apply in_ite2 | with_reducible rfl | exact .inl rfl | exact .inr rfl | rfl | with_reducible assumption | intro _ | (split <;> try (rename_i h; have e := congrArg Prod.snd h; dsimp only at e; subst e)) | with_reducible apply in_upd

theorem in_vbatLost {L : List StPart} {s₀ x₀ : State} (hL : stPartsIn [.vault] L = true) (hF : State.onlyIn L s₀ x₀) : State.onlyIn L s₀ (State.vbatLost x₀) := by
  refine State.onlyIn_step hL hF ?_
  unfold State.vbatLost
  try dsimp only
  repeat' first | with_reducible exact State.onlyIn_refl _ _ | with_reducible apply in_ite | with_reducible apply in_ite2 | with_reducible rfl | exact .inl rfl | exact .inr rfl | rfl | with_reducible assumption | intro _ | (split <;> try (rename_i h; have e := congrArg Prod.snd h; dsimp only at e; subst e)) | with_reducible apply in_upd

theorem in_vaultStage {L : List StPart} {s₀ x₀ : State} (hL : stPartsIn [.hostif, .vault, .book, .tally, .free, .out] L = true) (hF : State.onlyIn L s₀ x₀) : State.onlyIn L s₀ x₀.vaultStage := by
  refine State.onlyIn_step hL hF ?_
  unfold State.vaultStage
  extract_lets s1 v s2 lost early s3 s4 s5
  have h1 : State.onlyIn [.hostif, .vault, .book, .tally, .free, .out] x₀ s1 := in_ite (in_newSeed rfl (State.onlyIn_refl _ _)) (State.onlyIn_refl _ _)
  have hv : ∀ y w, State.onlyIn [.hostif, .vault, .book, .tally, .free, .out] x₀ y → State.onlyIn [.hostif, .vault, .book, .tally, .free, .out] x₀ { y with vault := w } := fun y w h =>
    in_upd h rfl (.inr rfl) (.inr rfl) (.inr rfl) (.inr rfl) (.inr rfl) (.inr rfl) (.inl rfl) (.inr rfl) (.inr rfl) (.inr rfl) (.inr rfl) (.inr rfl) (.inr rfl) (.inr rfl) (.inr rfl) (.inr rfl) (.inr rfl)
  clear_value s1
  have h2 : State.onlyIn [.hostif, .vault, .book, .tally, .free, .out] x₀ s2 := in_ite (hv _ _ h1) (in_ite (hv _ _ h1) h1)
  clear_value s2
  have h3 : State.onlyIn [.hostif, .vault, .book, .tally, .free, .out] x₀ s3 := in_updTally _ rfl h2
  clear_value s3
  have h4 : State.onlyIn [.hostif, .vault, .book, .tally, .free, .out] x₀ s4 := in_copyLog rfl h3
  clear_value s4
  have h5 : State.onlyIn [.hostif, .vault, .book, .tally, .free, .out] x₀ s5 := in_ite (in_book1 _ rfl h4) h4
  clear_value s5
  exact in_gput _ _ rfl (hv _ _ h5)

theorem in_vaultMeas {L : List StPart} {s₀ x₀ : State} (m : Bytes) (hL : stPartsIn [.hostif, .vault, .ch, .out] L = true) (hF : State.onlyIn L s₀ x₀) : State.onlyIn L s₀ (State.vaultMeas x₀ m) := by
  refine State.onlyIn_step hL hF ?_
  unfold State.vaultMeas
  try dsimp only
  repeat' first | with_reducible exact State.onlyIn_refl _ _ | with_reducible apply in_gput | with_reducible apply in_putVslot | with_reducible apply in_revokeKeys | with_reducible apply in_gevt | with_reducible apply in_ite | with_reducible apply in_ite2 | with_reducible apply in_fold | with_reducible apply in_fold2 | with_reducible rfl | exact .inl rfl | exact .inr rfl | rfl | with_reducible assumption | intro _ | (split <;> try (rename_i h; have e := congrArg Prod.snd h; dsimp only at e; subst e)) | with_reducible apply in_upd

theorem in_updPwr {L : List StPart} {s₀ x₀ : State} (f : PwrSt → PwrSt) (hL : stPartsIn [.pwr] L = true) (hF : State.onlyIn L s₀ x₀) : State.onlyIn L s₀ (State.updPwr x₀ f) := by
  refine State.onlyIn_step hL hF ?_
  unfold State.updPwr
  try dsimp only
  repeat' first | with_reducible exact State.onlyIn_refl _ _ | with_reducible apply in_ite | with_reducible apply in_ite2 | with_reducible rfl | exact .inl rfl | exact .inr rfl | rfl | with_reducible assumption | intro _ | (split <;> try (rename_i h; have e := congrArg Prod.snd h; dsimp only at e; subst e)) | with_reducible apply in_upd

theorem in_resetNRelease {L : List StPart} {s₀ x₀ : State} (hL : stPartsIn [.pwr] L = true) (hF : State.onlyIn L s₀ x₀) : State.onlyIn L s₀ (State.resetNRelease x₀) := by
  refine State.onlyIn_step hL hF ?_
  unfold State.resetNRelease
  try dsimp only
  repeat' first | with_reducible exact State.onlyIn_refl _ _ | with_reducible apply in_updPwr | with_reducible apply in_setStage | with_reducible apply in_ite | with_reducible apply in_ite2 | with_reducible rfl | exact .inl rfl | exact .inr rfl | rfl | with_reducible assumption | intro _ | (split <;> try (rename_i h; have e := congrArg Prod.snd h; dsimp only at e; subst e))

theorem in_setFeed {L : List StPart} {s₀ x₀ : State} (b : Bool) (f : Feed) (hL : stPartsIn [.pwr] L = true) (hF : State.onlyIn L s₀ x₀) : State.onlyIn L s₀ (State.setFeed x₀ b f) := by
  refine State.onlyIn_step hL hF ?_
  unfold State.setFeed
  try dsimp only
  repeat' first | with_reducible exact State.onlyIn_refl _ _ | with_reducible apply in_updPwr | with_reducible apply in_ite | with_reducible apply in_ite2 | with_reducible rfl | exact .inl rfl | exact .inr rfl | rfl | with_reducible assumption | intro _ | (split <;> try (rename_i h; have e := congrArg Prod.snd h; dsimp only at e; subst e))

theorem in_feedsSettle {L : List StPart} {s₀ x₀ : State} (hL : stPartsIn [.hostif, .cmdq, .vault, .book, .tally, .twin, .bench, .pwr, .image, .ch, .free, .out] L = true) (hF : State.onlyIn L s₀ x₀) : State.onlyIn L s₀ (State.feedsSettle x₀) := by
  refine State.onlyIn_step hL hF ?_
  unfold State.feedsSettle
  try dsimp only
  repeat' first | with_reducible exact State.onlyIn_refl _ _ | with_reducible apply in_gevt | with_reducible apply in_gput | with_reducible apply in_feedsRise | with_reducible apply in_ite | with_reducible apply in_ite2 | with_reducible rfl | exact .inl rfl | exact .inr rfl | rfl | with_reducible assumption | intro _ | (split <;> try (rename_i h; have e := congrArg Prod.snd h; dsimp only at e; subst e))

theorem in_feedBad {L : List StPart} {s₀ x₀ : State} (b : Bool) (mv : ℕ) (hL : stPartsIn [.hostif, .cmdq, .fault, .vault, .book, .tally, .twin, .bench, .pwr, .image, .ch, .free, .out] L = true) (hF : State.onlyIn L s₀ x₀) : State.onlyIn L s₀ (State.feedBad x₀ b mv) := by
  refine State.onlyIn_step hL hF ?_
  unfold State.feedBad
  cases b
  try dsimp only
  all_goals repeat' first | with_reducible exact State.onlyIn_refl _ _ | with_reducible apply in_gput | with_reducible apply in_feedsSettle | with_reducible apply in_detectLevel | with_reducible apply in_setFeed | with_reducible apply in_gevt | with_reducible apply in_ite | with_reducible apply in_ite2 | with_reducible rfl | exact .inl rfl | exact .inr rfl | rfl | with_reducible assumption | intro _ | (split <;> try (rename_i h; have e := congrArg Prod.snd h; dsimp only at e; subst e))

theorem in_feedGood {L : List StPart} {s₀ x₀ : State} (b : Bool) (mv : ℕ) (hL : stPartsIn [.hostif, .cmdq, .fault, .vault, .book, .tally, .twin, .bench, .pwr, .image, .ch, .free, .out] L = true) (hF : State.onlyIn L s₀ x₀) : State.onlyIn L s₀ (State.feedGood x₀ b mv) := by
  refine State.onlyIn_step hL hF ?_
  unfold State.feedGood
  cases b
  try dsimp only
  all_goals repeat' first | with_reducible exact State.onlyIn_refl _ _ | with_reducible apply in_gput | with_reducible apply in_feedsSettle | with_reducible apply in_clearLevel | with_reducible apply in_setFeed | with_reducible apply in_gevt | with_reducible apply in_ite | with_reducible apply in_ite2 | with_reducible rfl | exact .inl rfl | exact .inr rfl | rfl | with_reducible assumption | intro _ | (split <;> try (rename_i h; have e := congrArg Prod.snd h; dsimp only at e; subst e))

theorem in_feedChecked {L : List StPart} {s₀ x₀ : State} (b : Bool) (low : ℕ) (pass : Bool) (slot : Option ℕ) (hL : stPartsIn [.hostif, .cmdq, .vault, .book, .tally, .twin, .bench, .pwr, .image, .ch, .free, .out] L = true) (hF : State.onlyIn L s₀ x₀) : State.onlyIn L s₀ (State.feedChecked x₀ b low pass slot) := by
  refine State.onlyIn_step hL hF ?_
  unfold State.feedChecked
  cases b
  try dsimp only
  all_goals repeat' first | with_reducible exact State.onlyIn_refl _ _ | with_reducible apply in_gevt | with_reducible apply in_gput | with_reducible apply in_updPwr | with_reducible apply in_feedsSettle | with_reducible apply in_setFeed | with_reducible apply in_updCmd | with_reducible apply in_endCmd | with_reducible apply in_ite | with_reducible apply in_ite2 | with_reducible rfl | exact .inl rfl | exact .inr rfl | rfl | with_reducible assumption | intro _ | (split <;> try (rename_i h; have e := congrArg Prod.snd h; dsimp only at e; subst e))

theorem in_feedCheckStart {L : List StPart} {s₀ x₀ : State} (b : Bool) (hL : stPartsIn [.hostif, .cmdq, .vault, .book, .tally, .twin, .bench, .pwr, .image, .ch, .free, .out] L = true) (hF : State.onlyIn L s₀ x₀) : State.onlyIn L s₀ (State.feedCheckStart x₀ b) := by
  refine State.onlyIn_step hL hF ?_
  unfold State.feedCheckStart
  try dsimp only
  repeat' first | with_reducible exact State.onlyIn_refl _ _ | with_reducible apply in_setFeed | with_reducible apply in_gput | with_reducible apply in_updPwr | with_reducible apply in_feedChecked | with_reducible apply in_ite | with_reducible apply in_ite2 | with_reducible rfl | exact .inl rfl | exact .inr rfl | rfl | with_reducible assumption | intro _ | (split <;> try (rename_i h; have e := congrArg Prod.snd h; dsimp only at e; subst e))

theorem in_feedCheckComplete {L : List StPart} {s₀ x₀ : State} (low : ℕ) (limit : Bool) (hL : stPartsIn [.hostif, .cmdq, .vault, .book, .tally, .twin, .bench, .pwr, .image, .ch, .free, .out] L = true) (hF : State.onlyIn L s₀ x₀) : State.onlyIn L s₀ (State.feedCheckComplete x₀ low limit) := by
  refine State.onlyIn_step hL hF ?_
  unfold State.feedCheckComplete
  try dsimp only
  repeat' first | with_reducible exact State.onlyIn_refl _ _ | with_reducible apply in_feedChecked | with_reducible apply in_ite | with_reducible apply in_ite2 | with_reducible rfl | exact .inl rfl | exact .inr rfl | rfl | with_reducible assumption | intro _ | (split <;> try (rename_i h; have e := congrArg Prod.snd h; dsimp only at e; subst e))

theorem in_moscDetect {L : List StPart} {s₀ x₀ : State} (count : ℕ) (hL : stPartsIn [.hostif, .clkgen, .pwr, .out] L = true) (hF : State.onlyIn L s₀ x₀) : State.onlyIn L s₀ (State.moscDetect x₀ count) := by
  refine State.onlyIn_step hL hF ?_
  unfold State.moscDetect
  try dsimp only
  repeat' first | with_reducible exact State.onlyIn_refl _ _ | with_reducible apply in_setRoot | with_reducible apply in_setStage | with_reducible apply in_gevt | with_reducible apply in_gput | with_reducible apply in_ite | with_reducible apply in_ite2 | with_reducible rfl | exact .inl rfl | exact .inr rfl | rfl | with_reducible assumption | intro _ | (split <;> try (rename_i h; have e := congrArg Prod.snd h; dsimp only at e; subst e))

theorem in_rootHold {L : List StPart} {s₀ x₀ : State} (r : ℕ) (hL : stPartsIn [.hostif, .clkgen, .out] L = true) (hF : State.onlyIn L s₀ x₀) : State.onlyIn L s₀ (State.rootHold x₀ r) := by
  refine State.onlyIn_step hL hF ?_
  unfold State.rootHold
  try dsimp only
  repeat' first | with_reducible exact State.onlyIn_refl _ _ | with_reducible apply in_gbump | with_reducible apply in_setRoot | with_reducible apply in_ite | with_reducible apply in_ite2 | with_reducible rfl | exact .inl rfl | exact .inr rfl | rfl | with_reducible assumption | intro _ | (split <;> try (rename_i h; have e := congrArg Prod.snd h; dsimp only at e; subst e))

theorem in_moscLost {L : List StPart} {s₀ x₀ : State} (hL : stPartsIn [.hostif, .cmdq, .fault, .vault, .book, .tally, .twin, .bench, .clkgen, .pwr, .image, .ch, .free, .out] L = true) (hF : State.onlyIn L s₀ x₀) : State.onlyIn L s₀ (State.moscLost x₀) := by
  refine State.onlyIn_step hL hF ?_
  unfold State.moscLost
  try dsimp only
  repeat' first | with_reducible exact State.onlyIn_refl _ _ | with_reducible apply in_gbump | with_reducible apply in_gevt | with_reducible apply in_gput | with_reducible apply in_detectLevel | with_reducible apply in_rootHold | with_reducible apply in_ite | with_reducible apply in_ite2 | with_reducible apply in_fold | with_reducible apply in_fold2 | with_reducible rfl | exact .inl rfl | exact .inr rfl | rfl | with_reducible assumption | intro _ | (split <;> try (rename_i h; have e := congrArg Prod.snd h; dsimp only at e; subst e))

theorem in_moscReturn {L : List StPart} {s₀ x₀ : State} (hL : stPartsIn [.hostif, .fault, .clkgen, .out] L = true) (hF : State.onlyIn L s₀ x₀) : State.onlyIn L s₀ (State.moscReturn x₀) := by
  refine State.onlyIn_step hL hF ?_
  unfold State.moscReturn
  try dsimp only
  repeat' first | with_reducible exact State.onlyIn_refl _ _ | with_reducible apply in_clearLevel | with_reducible apply in_gevt | with_reducible apply in_gput | with_reducible apply in_setRoot | with_reducible apply in_ite | with_reducible apply in_ite2 | with_reducible apply in_fold | with_reducible apply in_fold2 | with_reducible rfl | exact .inl rfl | exact .inr rfl | rfl | with_reducible assumption | intro _ | (split <;> try (rename_i h; have e := congrArg Prod.snd h; dsimp only at e; subst e))

theorem in_rootLock {L : List StPart} {s₀ x₀ : State} (r : ℕ) (hL : stPartsIn [.hostif, .fault, .clkgen, .out] L = true) (hF : State.onlyIn L s₀ x₀) : State.onlyIn L s₀ (State.rootLock x₀ r) := by
  refine State.onlyIn_step hL hF ?_
  unfold State.rootLock
  try dsimp only
  repeat' first | with_reducible exact State.onlyIn_refl _ _ | with_reducible apply in_clearLevel | with_reducible apply in_setRoot | with_reducible apply in_ite | with_reducible apply in_ite2 | with_reducible rfl | exact .inl rfl | exact .inr rfl | rfl | with_reducible assumption | intro _ | (split <;> try (rename_i h; have e := congrArg Prod.snd h; dsimp only at e; subst e))

theorem in_rootLockLost {L : List StPart} {s₀ x₀ : State} (r : ℕ) (hL : stPartsIn [.hostif, .cmdq, .fault, .vault, .book, .tally, .twin, .bench, .clkgen, .pwr, .image, .ch, .free, .out] L = true) (hF : State.onlyIn L s₀ x₀) : State.onlyIn L s₀ (State.rootLockLost x₀ r) := by
  refine State.onlyIn_step hL hF ?_
  unfold State.rootLockLost
  try dsimp only
  repeat' first | with_reducible exact State.onlyIn_refl _ _ | with_reducible apply in_detectLevel | with_reducible apply in_gevt | with_reducible apply in_rootHold | with_reducible apply in_ite | with_reducible apply in_ite2 | with_reducible rfl | exact .inl rfl | exact .inr rfl | rfl | with_reducible assumption | intro _ | (split <;> try (rename_i h; have e := congrArg Prod.snd h; dsimp only at e; subst e))

theorem in_forceCase {L : List StPart} {s₀ x₀ : State} (c : Option ChanIx) (blk : ℕ) (k : ℕ) (hL : stPartsIn [.hostif, .cmdq, .fault, .vault, .book, .tally, .twin, .bench, .clkgen, .pwr, .image, .ch, .free, .out] L = true) (hF : State.onlyIn L s₀ x₀) : State.onlyIn L s₀ (State.forceCase x₀ c blk k) := by
  refine State.onlyIn_step hL hF ?_
  unfold State.forceCase
  try dsimp only
  repeat' first | with_reducible exact State.onlyIn_refl _ _ | with_reducible apply in_detect | with_reducible apply in_gevt | with_reducible apply in_gput | with_reducible apply in_ite | with_reducible apply in_ite2 | with_reducible rfl | exact .inl rfl | exact .inr rfl | rfl | with_reducible assumption | intro _ | (split <;> try (rename_i h; have e := congrArg Prod.snd h; dsimp only at e; subst e))

theorem in_gateForce {L : List StPart} {s₀ x₀ : State} (c : Option ChanIx) (blk : ℕ) (hL : stPartsIn [.hostif, .cmdq, .fault, .vault, .book, .tally, .twin, .bench, .clkgen, .pwr, .image, .ch, .free, .out] L = true) (hF : State.onlyIn L s₀ x₀) : State.onlyIn L s₀ (State.gateForce x₀ c blk) := by
  refine State.onlyIn_step hL hF ?_
  unfold State.gateForce
  try dsimp only
  repeat' first | with_reducible exact State.onlyIn_refl _ _ | with_reducible apply in_forceCase | with_reducible apply in_ite | with_reducible apply in_ite2 | with_reducible rfl | exact .inl rfl | exact .inr rfl | rfl | with_reducible assumption | intro _ | (split <;> try (rename_i h; have e := congrArg Prod.snd h; dsimp only at e; subst e))

theorem in_switchComplete {L : List StPart} {s₀ x₀ : State} (c : Option ChanIx) (blk : ℕ) (how : SwitchEnd) (hL : stPartsIn [.hostif, .cmdq, .fault, .vault, .book, .tally, .twin, .bench, .clkgen, .pwr, .image, .ch, .free, .out] L = true) (hF : State.onlyIn L s₀ x₀) : State.onlyIn L s₀ (State.switchComplete x₀ c blk how) := by
  refine State.onlyIn_step hL hF ?_
  unfold State.switchComplete
  try dsimp only
  repeat' first | with_reducible exact State.onlyIn_refl _ _ | with_reducible apply in_updPwr | with_reducible apply in_forceCase | with_reducible apply in_ite | with_reducible apply in_ite2 | with_reducible rfl | exact .inl rfl | exact .inr rfl | rfl | with_reducible assumption | intro _ | (split <;> try (rename_i h; have e := congrArg Prod.snd h; dsimp only at e; subst e))

theorem in_vbatLoss {L : List StPart} {s₀ x₀ : State} (hL : stPartsIn [.vault, .pwr] L = true) (hF : State.onlyIn L s₀ x₀) : State.onlyIn L s₀ (State.vbatLoss x₀) := by
  refine State.onlyIn_step hL hF ?_
  unfold State.vbatLoss
  try dsimp only
  repeat' first | with_reducible exact State.onlyIn_refl _ _ | with_reducible apply in_vbatLost | with_reducible apply in_updPwr | with_reducible apply in_ite | with_reducible apply in_ite2 | with_reducible rfl | exact .inl rfl | exact .inr rfl | rfl | with_reducible assumption | intro _ | (split <;> try (rename_i h; have e := congrArg Prod.snd h; dsimp only at e; subst e))

theorem in_vbatApplied {L : List StPart} {s₀ x₀ : State} (vbat : ℕ) (hL : stPartsIn [.pwr] L = true) (hF : State.onlyIn L s₀ x₀) : State.onlyIn L s₀ (State.vbatApplied x₀ vbat) := by
  refine State.onlyIn_step hL hF ?_
  unfold State.vbatApplied
  try dsimp only
  repeat' first | with_reducible exact State.onlyIn_refl _ _ | with_reducible apply in_updPwr | with_reducible apply in_ite | with_reducible apply in_ite2 | with_reducible rfl | exact .inl rfl | exact .inr rfl | rfl | with_reducible assumption | intro _ | (split <;> try (rename_i h; have e := congrArg Prod.snd h; dsimp only at e; subst e))

theorem in_stageRails {L : List StPart} {s₀ x₀ : State} (sel : ℕ) (hL : stPartsIn [.pwr] L = true) (hF : State.onlyIn L s₀ x₀) : State.onlyIn L s₀ (State.stageRails x₀ sel) := by
  refine State.onlyIn_step hL hF ?_
  unfold State.stageRails
  try dsimp only
  repeat' first | with_reducible exact State.onlyIn_refl _ _ | with_reducible apply in_gput | with_reducible apply in_setStage | with_reducible apply in_updPwr | with_reducible apply in_ite | with_reducible apply in_ite2 | with_reducible rfl | exact .inl rfl | exact .inr rfl | rfl | with_reducible assumption | intro _ | (split <;> try (rename_i h; have e := congrArg Prod.snd h; dsimp only at e; subst e))

theorem in_stageRoot {L : List StPart} {s₀ x₀ : State} (how : SwitchEnd) (hL : stPartsIn [.hostif, .cmdq, .fault, .vault, .book, .tally, .twin, .bench, .clkgen, .pwr, .image, .ch, .free, .out] L = true) (hF : State.onlyIn L s₀ x₀) : State.onlyIn L s₀ (State.stageRoot x₀ how) := by
  refine State.onlyIn_step hL hF ?_
  unfold State.stageRoot
  try dsimp only
  repeat' first | with_reducible exact State.onlyIn_refl _ _ | with_reducible apply in_setStage | with_reducible apply in_forceCase | with_reducible apply in_updPwr | with_reducible apply in_ite | with_reducible apply in_ite2 | with_reducible rfl | exact .inl rfl | exact .inr rfl | rfl | with_reducible assumption | intro _ | (split <;> try (rename_i h; have e := congrArg Prod.snd h; dsimp only at e; subst e))

theorem in_rootStageRetry {L : List StPart} {s₀ x₀ : State} (hL : stPartsIn [.pwr] L = true) (hF : State.onlyIn L s₀ x₀) : State.onlyIn L s₀ (State.rootStageRetry x₀) := by
  refine State.onlyIn_step hL hF ?_
  unfold State.rootStageRetry
  try dsimp only
  repeat' first | with_reducible exact State.onlyIn_refl _ _ | with_reducible apply in_updPwr | with_reducible apply in_ite | with_reducible apply in_ite2 | with_reducible rfl | exact .inl rfl | exact .inr rfl | rfl | with_reducible assumption | intro _ | (split <;> try (rename_i h; have e := congrArg Prod.snd h; dsimp only at e; subst e))

theorem in_stageFeedchk {L : List StPart} {s₀ x₀ : State} (hL : stPartsIn [.vault, .pwr] L = true) (hF : State.onlyIn L s₀ x₀) : State.onlyIn L s₀ (State.stageFeedchk x₀) := by
  refine State.onlyIn_step hL hF ?_
  unfold State.stageFeedchk
  try dsimp only
  repeat' first | with_reducible exact State.onlyIn_refl _ _ | with_reducible apply in_gput | with_reducible apply in_setStage | with_reducible apply in_ite | with_reducible apply in_ite2 | with_reducible rfl | exact .inl rfl | exact .inr rfl | rfl | with_reducible assumption | intro _ | (split <;> try (rename_i h; have e := congrArg Prod.snd h; dsimp only at e; subst e))

theorem in_stageVault {L : List StPart} {s₀ x₀ : State} (hL : stPartsIn [.hostif, .cmdq, .fault, .vault, .book, .tally, .twin, .bench, .pwr, .image, .ch, .free, .out] L = true) (hF : State.onlyIn L s₀ x₀) : State.onlyIn L s₀ (State.stageVault x₀) := by
  refine State.onlyIn_step hL hF ?_
  unfold State.stageVault
  try dsimp only
  repeat' first | with_reducible exact State.onlyIn_refl _ _ | with_reducible apply in_vaultStage | with_reducible apply in_detect | with_reducible apply in_gevt | with_reducible apply in_gput | with_reducible apply in_book1 | with_reducible apply in_updPwr | with_reducible apply in_setStage | with_reducible apply in_ite | with_reducible apply in_ite2 | with_reducible rfl | exact .inl rfl | exact .inr rfl | rfl | with_reducible assumption | intro _ | (split <;> try (rename_i h; have e := congrArg Prod.snd h; dsimp only at e; subst e))

theorem in_pohSecond {L : List StPart} {s₀ x₀ : State} (tj : ℤ) (va : ℕ) (vb : ℕ) (hL : stPartsIn [.hostif, .cmdq, .fault, .vault, .book, .tally, .twin, .bench, .pwr, .image, .ch, .free, .out] L = true) (hF : State.onlyIn L s₀ x₀) : State.onlyIn L s₀ (State.pohSecond x₀ tj va vb) := by
  refine State.onlyIn_step hL hF ?_
  unfold State.pohSecond
  try dsimp only
  repeat' first | with_reducible exact State.onlyIn_refl _ _ | with_reducible apply in_updTally | with_reducible apply in_gput | with_reducible apply in_detectLevel | with_reducible apply in_clearLevel | with_reducible apply in_ite | with_reducible apply in_ite2 | with_reducible rfl | exact .inl rfl | exact .inr rfl | rfl | with_reducible assumption | intro _ | (split <;> try (rename_i h; have e := congrArg Prod.snd h; dsimp only at e; subst e)) | with_reducible apply in_upd

theorem in_updRouter {L : List StPart} {s₀ x₀ : State} (f : RouterSt → RouterSt) (hL : stPartsIn [.bench] L = true) (hF : State.onlyIn L s₀ x₀) : State.onlyIn L s₀ (State.updRouter x₀ f) := by
  refine State.onlyIn_step hL hF ?_
  unfold State.updRouter
  try dsimp only
  repeat' first | with_reducible exact State.onlyIn_refl _ _ | with_reducible apply in_ite | with_reducible apply in_ite2 | with_reducible rfl | exact .inl rfl | exact .inr rfl | rfl | with_reducible assumption | intro _ | (split <;> try (rename_i h; have e := congrArg Prod.snd h; dsimp only at e; subst e)) | with_reducible apply in_upd

theorem in_sendLinks {L : List StPart} {s₀ x₀ : State} (ls : List ℕ) (bs : Bytes) (hL : stPartsIn [.out] L = true) (hF : State.onlyIn L s₀ x₀) : State.onlyIn L s₀ (State.sendLinks x₀ ls bs) := by
  refine State.onlyIn_step hL hF ?_
  unfold State.sendLinks
  try dsimp only
  repeat' first | with_reducible exact State.onlyIn_refl _ _ | with_reducible apply in_emit | with_reducible apply in_ite | with_reducible apply in_ite2 | with_reducible apply in_fold | with_reducible apply in_fold2 | with_reducible rfl | exact .inl rfl | exact .inr rfl | rfl | with_reducible assumption | intro _ | (split <;> try (rename_i h; have e := congrArg Prod.snd h; dsimp only at e; subst e))

theorem in_lsaNew {L : List StPart} {s₀ x₀ : State} (hL : stPartsIn [.bench, .out] L = true) (hF : State.onlyIn L s₀ x₀) : State.onlyIn L s₀ (State.lsaNew x₀) := by
  refine State.onlyIn_step hL hF ?_
  unfold State.lsaNew
  try dsimp only
  repeat' first | with_reducible exact State.onlyIn_refl _ _ | with_reducible apply in_updRouter | with_reducible apply in_gbump | with_reducible apply in_sendLinks | with_reducible apply in_ite | with_reducible apply in_ite2 | with_reducible rfl | exact .inl rfl | exact .inr rfl | rfl | with_reducible assumption | intro _ | (split <;> try (rename_i h; have e := congrArg Prod.snd h; dsimp only at e; subst e))

theorem in_lsaSend {L : List StPart} {s₀ x₀ : State} (hL : stPartsIn [.bench, .out] L = true) (hF : State.onlyIn L s₀ x₀) : State.onlyIn L s₀ (State.lsaSend x₀) := by
  refine State.onlyIn_step hL hF ?_
  unfold State.lsaSend
  try dsimp only
  repeat' first | with_reducible exact State.onlyIn_refl _ _ | with_reducible apply in_lsaNew | with_reducible apply in_ite | with_reducible apply in_ite2 | with_reducible rfl | exact .inl rfl | exact .inr rfl | rfl | with_reducible assumption | intro _ | (split <;> try (rename_i h; have e := congrArg Prod.snd h; dsimp only at e; subst e))

theorem in_lsaRx {L : List StPart} {s₀ x₀ : State} (n : ChanIx) (x : Fin 2) (bs : Bytes) (hL : stPartsIn [.hostif, .bench, .ch, .out] L = true) (hF : State.onlyIn L s₀ x₀) : State.onlyIn L s₀ (State.lsaRx x₀ n x bs) := by
  refine State.onlyIn_step hL hF ?_
  unfold State.lsaRx
  try dsimp only
  repeat' first | with_reducible exact State.onlyIn_refl _ _ | with_reducible apply in_onCh | with_reducible apply in_lsaNew | with_reducible apply in_gput | with_reducible apply in_gbump | with_reducible apply in_updRouter | with_reducible apply in_sendLinks | with_reducible apply in_gevt | with_reducible apply in_ite | with_reducible apply in_ite2 | with_reducible rfl | exact .inl rfl | exact .inr rfl | rfl | with_reducible assumption | intro _ | (split <;> try (rename_i h; have e := congrArg Prod.snd h; dsimp only at e; subst e))

theorem in_lsaExpire {L : List StPart} {s₀ x₀ : State} (devid : ℕ) (hL : stPartsIn [.hostif, .bench, .out] L = true) (hF : State.onlyIn L s₀ x₀) : State.onlyIn L s₀ (State.lsaExpire x₀ devid) := by
  refine State.onlyIn_step hL hF ?_
  unfold State.lsaExpire
  try dsimp only
  repeat' first | with_reducible exact State.onlyIn_refl _ _ | with_reducible apply in_gevt | with_reducible apply in_updRouter | with_reducible apply in_ite | with_reducible apply in_ite2 | with_reducible rfl | exact .inl rfl | exact .inr rfl | rfl | with_reducible assumption | intro _ | (split <;> try (rename_i h; have e := congrArg Prod.snd h; dsimp only at e; subst e))

theorem in_routeCompute {L : List StPart} {s₀ x₀ : State} (hL : stPartsIn [.hostif, .book, .bench, .out] L = true) (hF : State.onlyIn L s₀ x₀) : State.onlyIn L s₀ (State.routeCompute x₀) := by
  refine State.onlyIn_step hL hF ?_
  unfold State.routeCompute
  try dsimp only
  repeat' first | with_reducible exact State.onlyIn_refl _ _ | with_reducible apply in_gput | with_reducible apply in_gevt | with_reducible apply in_bookSt | with_reducible apply in_gsetWord | with_reducible apply in_put64 | with_reducible apply in_updRouter | with_reducible apply in_ite | with_reducible apply in_ite2 | with_reducible apply in_fold | with_reducible apply in_fold2 | with_reducible rfl | exact .inl rfl | exact .inr rfl | rfl | with_reducible assumption | intro _ | (split <;> try (rename_i h; have e := congrArg Prod.snd h; dsimp only at e; subst e))

theorem in_benchTimes {L : List StPart} {s₀ x₀ : State} (n : ChanIx) (ps0 : ℕ) (ps1 : ℕ) (hL : stPartsIn [.ch] L = true) (hF : State.onlyIn L s₀ x₀) : State.onlyIn L s₀ (State.benchTimes x₀ n ps0 ps1) := by
  refine State.onlyIn_step hL hF ?_
  unfold State.benchTimes
  try dsimp only
  repeat' first | with_reducible exact State.onlyIn_refl _ _ | with_reducible apply in_onCh | with_reducible apply in_ite | with_reducible apply in_ite2 | with_reducible rfl | exact .inl rfl | exact .inr rfl | rfl | with_reducible assumption | intro _ | (split <;> try (rename_i h; have e := congrArg Prod.snd h; dsimp only at e; subst e))

theorem in_egressOn {L : List StPart} {s₀ x₀ : State} (bs : Bytes) (o : ℕ × ℕ × ℕ) (hL : stPartsIn [.bench, .image, .out] L = true) (hF : State.onlyIn L s₀ x₀) : State.onlyIn L s₀ (State.egressOn bs x₀ o) := by
  refine State.onlyIn_step hL hF ?_
  unfold State.egressOn
  try dsimp only
  repeat' first | with_reducible exact State.onlyIn_refl _ _ | with_reducible apply in_gbump | with_reducible apply in_emit | with_reducible apply in_reqAbsent | with_reducible apply in_ite | with_reducible apply in_ite2 | with_reducible rfl | exact .inl rfl | exact .inr rfl | rfl | with_reducible assumption | intro _ | (split <;> try (rename_i h; have e := congrArg Prod.snd h; dsimp only at e; subst e))

theorem in_forwardTick {L : List StPart} {s₀ x₀ : State} (hL : stPartsIn [.bench, .image, .out] L = true) (hF : State.onlyIn L s₀ x₀) : State.onlyIn L s₀ (State.forwardTick x₀) := by
  refine State.onlyIn_step hL hF ?_
  unfold State.forwardTick
  try dsimp only
  repeat' first | with_reducible exact State.onlyIn_refl _ _ | with_reducible apply in_updRouter | with_reducible apply in_egressOn | with_reducible apply in_ite | with_reducible apply in_ite2 | with_reducible apply in_fold | with_reducible apply in_fold2 | with_reducible rfl | exact .inl rfl | exact .inr rfl | rfl | with_reducible assumption | intro _ | (split <;> try (rename_i h; have e := congrArg Prod.snd h; dsimp only at e; subst e))

theorem in_forward {L : List StPart} {s₀ x₀ : State} (l : ℕ) (bs : Bytes) (ps : ℕ) (residence : List ℕ) (hL : stPartsIn [.bench] L = true) (hF : State.onlyIn L s₀ x₀) : State.onlyIn L s₀ (State.forward x₀ l bs ps residence) := by
  refine State.onlyIn_step hL hF ?_
  unfold State.forward
  try dsimp only
  repeat' first | with_reducible exact State.onlyIn_refl _ _ | with_reducible apply in_gbump | with_reducible apply in_updRouter | with_reducible apply in_ite | with_reducible apply in_ite2 | with_reducible rfl | exact .inl rfl | exact .inr rfl | rfl | with_reducible assumption | intro _ | (split <;> try (rename_i h; have e := congrArg Prod.snd h; dsimp only at e; subst e))

theorem in_timeRx {L : List StPart} {s₀ x₀ : State} (n : ChanIx) (x : Fin 2) (bs : Bytes) (ps : ℕ) (residence : List ℕ) (hL : stPartsIn [.bench, .ch] L = true) (hF : State.onlyIn L s₀ x₀) : State.onlyIn L s₀ (State.timeRx x₀ n x bs ps residence) := by
  refine State.onlyIn_step hL hF ?_
  unfold State.timeRx
  try dsimp only
  repeat' first | with_reducible exact State.onlyIn_refl _ _ | with_reducible apply in_onCh | with_reducible apply in_forward | with_reducible apply in_ite | with_reducible apply in_ite2 | with_reducible rfl | exact .inl rfl | exact .inr rfl | rfl | with_reducible assumption | intro _ | (split <;> try (rename_i h; have e := congrArg Prod.snd h; dsimp only at e; subst e))

theorem in_calGo {L : List StPart} {s₀ x₀ : State} (hL : stPartsIn [.hostif, .bench, .out] L = true) (hF : State.onlyIn L s₀ x₀) : State.onlyIn L s₀ (State.calGo x₀) := by
  refine State.onlyIn_step hL hF ?_
  unfold State.calGo
  try dsimp only
  repeat' first | with_reducible exact State.onlyIn_refl _ _ | with_reducible apply in_gput | with_reducible apply in_gevt | with_reducible apply in_ite | with_reducible apply in_ite2 | with_reducible rfl | exact .inl rfl | exact .inr rfl | rfl | with_reducible assumption | intro _ | (split <;> try (rename_i h; have e := congrArg Prod.snd h; dsimp only at e; subst e))

theorem in_calDone {L : List StPart} {s₀ x₀ : State} (ab : List ℕ) (ba : List ℕ) (hL : stPartsIn [.hostif, .bench, .out] L = true) (hF : State.onlyIn L s₀ x₀) : State.onlyIn L s₀ (State.calDone x₀ ab ba) := by
  refine State.onlyIn_step hL hF ?_
  unfold State.calDone
  try dsimp only
  repeat' first | with_reducible exact State.onlyIn_refl _ _ | with_reducible apply in_gput | with_reducible apply in_gevt | with_reducible apply in_ite | with_reducible apply in_ite2 | with_reducible rfl | exact .inl rfl | exact .inr rfl | rfl | with_reducible assumption | intro _ | (split <;> try (rename_i h; have e := congrArg Prod.snd h; dsimp only at e; subst e))

theorem in_gRead {L : List StPart} {s₀ x₀ : State} (b : CB) (off : ℕ) (hb : L.contains b.part = true) (hF : State.onlyIn L s₀ x₀) : State.onlyIn L s₀ (State.gRead x₀ b off).2 := by
  refine State.onlyIn_trans hF ?_
  unfold State.gRead
  try dsimp only
  repeat' first | with_reducible exact State.onlyIn_refl _ _ | with_reducible apply in_setRf | with_reducible apply in_ite | with_reducible apply in_ite2 | with_reducible apply in_fold | with_reducible apply in_fold2 | with_reducible rfl | exact .inl rfl | exact .inr rfl | rfl | with_reducible assumption | intro _ | (split <;> try (rename_i h; have e := congrArg Prod.snd h; dsimp only at e; subst e))

theorem in_gCommit {L : List StPart} {s₀ x₀ : State} (b : CB) (ok : State → Bool) (hb : L.contains b.part = true) (hL : stPartsIn [.hostif, .out] L = true) (hF : State.onlyIn L s₀ x₀) : State.onlyIn L s₀ (State.gCommit x₀ b ok) := by
  refine State.onlyIn_trans hF ?_
  unfold State.gCommit
  try dsimp only
  repeat' first | with_reducible exact State.onlyIn_refl _ _ | with_reducible apply in_setRf | with_reducible apply in_gevtMask | with_reducible apply in_ite | with_reducible apply in_ite2 | with_reducible rfl | exact .inl rfl | exact .inr rfl | rfl | with_reducible assumption | exact stPartsIn_trans rfl hL | exact stPartsIn_mem rfl hL | exact .inl (stPartsIn_mem rfl hL) | intro _ | (split <;> try (rename_i h; have e := congrArg Prod.snd h; dsimp only at e; subst e))

theorem in_commitBlk {L : List StPart} {s₀ x₀ : State} (b : CB) (hL : stPartsIn [.hostif, .twin, .bench, .clkgen, .out] L = true) (hF : State.onlyIn L s₀ x₀) : State.onlyIn L s₀ (State.commitBlk x₀ b) := by
  refine State.onlyIn_step hL hF ?_
  unfold State.commitBlk
  try dsimp only
  repeat' first | with_reducible exact State.onlyIn_refl _ _ | with_reducible apply in_gCommit | with_reducible apply in_ite | with_reducible apply in_ite2 | with_reducible rfl | exact .inl rfl | exact .inr rfl | rfl | with_reducible assumption | intro _ | (split <;> try (rename_i h; have e := congrArg Prod.snd h; dsimp only at e; subst e))

theorem in_gStore {L : List StPart} {s₀ x₀ : State} (loader : Bool) (b : CB) (off : ℕ) (v : Word) (hb : L.contains b.part = true) (hF : State.onlyIn L s₀ x₀) : State.onlyIn L s₀ (State.gStore x₀ loader b off v) := by
  refine State.onlyIn_trans hF ?_
  unfold State.gStore
  try dsimp only
  repeat' first | with_reducible exact State.onlyIn_refl _ _ | with_reducible apply in_setRf | with_reducible apply in_ite | with_reducible apply in_ite2 | with_reducible rfl | exact .inl rfl | exact .inr rfl | rfl | with_reducible assumption | intro _ | (split <;> try (rename_i h; have e := congrArg Prod.snd h; dsimp only at e; subst e))

theorem in_gStored {L : List StPart} {s₀ x₀ : State} (b : CB) (off : ℕ) (v : Word) (hL : stPartsIn [.hostif, .fault, .vault, .book, .ch, .out] L = true) (hF : State.onlyIn L s₀ x₀) : State.onlyIn L s₀ (State.gStored x₀ b off v) := by
  refine State.onlyIn_step hL hF ?_
  unfold State.gStored
  try dsimp only
  repeat' first | with_reducible exact State.onlyIn_refl _ _ | with_reducible apply in_gput | with_reducible apply in_setCh | with_reducible apply in_msixFlush | with_reducible apply in_gsetWord | with_reducible apply in_ite | with_reducible apply in_ite2 | with_reducible apply in_fold | with_reducible apply in_fold2 | with_reducible rfl | exact .inl rfl | exact .inr rfl | rfl | with_reducible assumption | intro _ | (split <;> try (rename_i h; have e := congrArg Prod.snd h; dsimp only at e; subst e)) | with_reducible apply in_upd

theorem in_gWriteFields {L : List StPart} {s₀ x₀ : State} (loader : Bool) (b : CB) (off : ℕ) (v : Word) (hb : L.contains b.part = true) (hL : stPartsIn [.hostif, .fault, .vault, .book, .ch, .out] L = true) (hF : State.onlyIn L s₀ x₀) : State.onlyIn L s₀ (State.gWriteFields x₀ loader b off v).2 := by
  refine State.onlyIn_trans hF ?_
  unfold State.gWriteFields
  try dsimp only
  repeat' first | with_reducible exact State.onlyIn_refl _ _ | with_reducible apply in_gStored | with_reducible apply in_gStore | with_reducible apply in_setRf | with_reducible apply in_ite | with_reducible apply in_ite2 | with_reducible apply in_fold | with_reducible apply in_fold2 | with_reducible rfl | exact .inl rfl | exact .inr rfl | rfl | with_reducible assumption | exact stPartsIn_trans rfl hL | exact stPartsIn_mem rfl hL | exact .inl (stPartsIn_mem rfl hL) | intro _ | (split <;> try (rename_i h; have e := congrArg Prod.snd h; dsimp only at e; subst e))

theorem in_updTallySt {L : List StPart} {s₀ x₀ : State} (f : TallySt → TallySt) (hL : stPartsIn [.tally] L = true) (hF : State.onlyIn L s₀ x₀) : State.onlyIn L s₀ (State.updTallySt x₀ f) := by
  refine State.onlyIn_step hL hF ?_
  unfold State.updTallySt
  try dsimp only
  repeat' first | with_reducible exact State.onlyIn_refl _ _ | with_reducible apply in_ite | with_reducible apply in_ite2 | with_reducible rfl | exact .inl rfl | exact .inr rfl | rfl | with_reducible assumption | intro _ | (split <;> try (rename_i h; have e := congrArg Prod.snd h; dsimp only at e; subst e)) | with_reducible apply in_upd

theorem in_tallyStart {L : List StPart} {s₀ x₀ : State} (hL : stPartsIn [.tally, .image] L = true) (hF : State.onlyIn L s₀ x₀) : State.onlyIn L s₀ (State.tallyStart x₀) := by
  refine State.onlyIn_step hL hF ?_
  unfold State.tallyStart
  try dsimp only
  repeat' first | with_reducible exact State.onlyIn_refl _ _ | with_reducible apply in_updTallySt | with_reducible apply in_reqAbsent | with_reducible apply in_gput | with_reducible apply in_ite | with_reducible apply in_ite2 | with_reducible apply in_fold | with_reducible apply in_fold2 | with_reducible rfl | exact .inl rfl | exact .inr rfl | rfl | with_reducible assumption | intro _ | (split <;> try (rename_i h; have e := congrArg Prod.snd h; dsimp only at e; subst e))

theorem in_tallyTimed {L : List StPart} {s₀ x₀ : State} (hL : stPartsIn [.tally, .image] L = true) (hF : State.onlyIn L s₀ x₀) : State.onlyIn L s₀ (State.tallyTimed x₀) := by
  refine State.onlyIn_step hL hF ?_
  unfold State.tallyTimed
  try dsimp only
  repeat' first | with_reducible exact State.onlyIn_refl _ _ | with_reducible apply in_tallyStart | with_reducible apply in_ite | with_reducible apply in_ite2 | with_reducible rfl | exact .inl rfl | exact .inr rfl | rfl | with_reducible assumption | intro _ | (split <;> try (rename_i h; have e := congrArg Prod.snd h; dsimp only at e; subst e))

theorem in_tallyNow {L : List StPart} {s₀ x₀ : State} (hL : stPartsIn [.hostif, .tally, .image, .out] L = true) (hF : State.onlyIn L s₀ x₀) : State.onlyIn L s₀ (State.tallyNow x₀) := by
  refine State.onlyIn_step hL hF ?_
  unfold State.tallyNow
  try dsimp only
  repeat' first | with_reducible exact State.onlyIn_refl _ _ | with_reducible apply in_gevt | with_reducible apply in_tallyStart | with_reducible apply in_ite | with_reducible apply in_ite2 | with_reducible rfl | exact .inl rfl | exact .inr rfl | rfl | with_reducible assumption | intro _ | (split <;> try (rename_i h; have e := congrArg Prod.snd h; dsimp only at e; subst e))

theorem in_tallyCommit {L : List StPart} {s₀ x₀ : State} (hL : stPartsIn [.hostif, .tally, .out] L = true) (hF : State.onlyIn L s₀ x₀) : State.onlyIn L s₀ (State.tallyCommit x₀) := by
  refine State.onlyIn_step hL hF ?_
  unfold State.tallyCommit
  try dsimp only
  repeat' first | with_reducible exact State.onlyIn_refl _ _ | with_reducible apply in_updTallySt | with_reducible apply in_wearOn | with_reducible apply in_gevt | with_reducible apply in_gput | with_reducible apply in_ite | with_reducible apply in_ite2 | with_reducible rfl | exact .inl rfl | exact .inr rfl | rfl | with_reducible assumption | intro _ | (split <;> try (rename_i h; have e := congrArg Prod.snd h; dsimp only at e; subst e))

theorem in_tallyFix {L : List StPart} {s₀ x₀ : State} (hL : stPartsIn [.tally] L = true) (hF : State.onlyIn L s₀ x₀) : State.onlyIn L s₀ (State.tallyFix x₀) := by
  refine State.onlyIn_step hL hF ?_
  unfold State.tallyFix
  try dsimp only
  repeat' first | with_reducible exact State.onlyIn_refl _ _ | with_reducible apply in_updTallySt | with_reducible apply in_ite | with_reducible apply in_ite2 | with_reducible rfl | exact .inl rfl | exact .inr rfl | rfl | with_reducible assumption | intro _ | (split <;> try (rename_i h; have e := congrArg Prod.snd h; dsimp only at e; subst e))

theorem in_exportBlock {L : List StPart} {s₀ x₀ : State} (hL : stPartsIn [.free] L = true) (hF : State.onlyIn L s₀ x₀) : State.onlyIn L s₀ (State.exportBlock x₀).2 := by
  refine State.onlyIn_step hL hF ?_
  unfold State.exportBlock
  try dsimp only
  repeat' first | with_reducible exact State.onlyIn_refl _ _ | with_reducible apply in_dikSign | with_reducible apply in_ite | with_reducible apply in_ite2 | with_reducible rfl | exact .inl rfl | exact .inr rfl | rfl | with_reducible assumption | intro _ | (split <;> try (rename_i h; have e := congrArg Prod.snd h; dsimp only at e; subst e))

theorem in_putRdData {L : List StPart} {s₀ x₀ : State} (bs : Bytes) (hL : stPartsIn [.book] L = true) (hF : State.onlyIn L s₀ x₀) : State.onlyIn L s₀ (State.putRdData x₀ bs) := by
  refine State.onlyIn_step hL hF ?_
  unfold State.putRdData
  try dsimp only
  repeat' first | with_reducible exact State.onlyIn_refl _ _ | with_reducible apply in_gsetWord | with_reducible apply in_ite | with_reducible apply in_ite2 | with_reducible apply in_fold | with_reducible apply in_fold2 | with_reducible rfl | exact .inl rfl | exact .inr rfl | rfl | with_reducible assumption | intro _ | (split <;> try (rename_i h; have e := congrArg Prod.snd h; dsimp only at e; subst e))

theorem in_bookRead {L : List StPart} {s₀ x₀ : State} (hL : stPartsIn [.hostif, .book, .tally, .free, .out] L = true) (hF : State.onlyIn L s₀ x₀) : State.onlyIn L s₀ (State.bookRead x₀) := by
  refine State.onlyIn_step hL hF ?_
  unfold State.bookRead
  try dsimp only
  repeat' first | with_reducible exact State.onlyIn_refl _ _ | with_reducible apply in_bookFlush | with_reducible apply in_gevt | with_reducible apply in_putRdData | with_reducible apply in_ite | with_reducible apply in_ite2 | with_reducible rfl | exact .inl rfl | exact .inr rfl | rfl | with_reducible assumption | intro _ | (split <;> try (rename_i h; have e := congrArg Prod.snd h; dsimp only at e; subst e))

theorem in_submit {L : List StPart} {s₀ x₀ : State} (org : Origin) (slot : ℕ) (hL : stPartsIn [.hostif, .cmdq, .image, .out] L = true) (hF : State.onlyIn L s₀ x₀) : State.onlyIn L s₀ (State.submit x₀ org slot) := by
  refine State.onlyIn_step hL hF ?_
  unfold State.submit
  try dsimp only
  repeat' first | with_reducible exact State.onlyIn_refl _ _ | with_reducible apply in_gevt | with_reducible apply in_gsetWord | with_reducible apply in_gput | with_reducible apply in_endCmd | with_reducible apply in_reqAbsent | with_reducible apply in_ite | with_reducible apply in_ite2 | with_reducible rfl | exact .inl rfl | exact .inr rfl | rfl | with_reducible assumption | intro _ | (split <;> try (rename_i h; have e := congrArg Prod.snd h; dsimp only at e; subst e)) | with_reducible apply in_upd

theorem in_release {L : List StPart} {s₀ x₀ : State} (slot : ℕ) (hL : stPartsIn [.hostif, .cmdq, .out] L = true) (hF : State.onlyIn L s₀ x₀) : State.onlyIn L s₀ (State.release x₀ slot) := by
  refine State.onlyIn_step hL hF ?_
  unfold State.release
  try dsimp only
  repeat' first | with_reducible exact State.onlyIn_refl _ _ | with_reducible apply in_setCmdState | with_reducible apply in_gput | with_reducible apply in_gevt | with_reducible apply in_ite | with_reducible apply in_ite2 | with_reducible rfl | exact .inl rfl | exact .inr rfl | rfl | with_reducible assumption | intro _ | (split <;> try (rename_i h; have e := congrArg Prod.snd h; dsimp only at e; subst e))

theorem in_stream {L : List StPart} {s₀ x₀ : State} (v : Word) (hL : stPartsIn [.cmdq] L = true) (hF : State.onlyIn L s₀ x₀) : State.onlyIn L s₀ (State.stream x₀ v) := by
  refine State.onlyIn_step hL hF ?_
  unfold State.stream
  try dsimp only
  repeat' first | with_reducible exact State.onlyIn_refl _ _ | with_reducible apply in_setProgress | with_reducible apply in_updCmd | with_reducible apply in_ite | with_reducible apply in_ite2 | with_reducible rfl | exact .inl rfl | exact .inr rfl | rfl | with_reducible assumption | intro _ | (split <;> try (rename_i h; have e := congrArg Prod.snd h; dsimp only at e; subst e))

theorem in_cmdStart {L : List StPart} {s₀ x₀ : State} (slot : ℕ) (hL : stPartsIn [.cmdq, .ch] L = true) (hF : State.onlyIn L s₀ x₀) : State.onlyIn L s₀ (State.cmdStart x₀ slot) := by
  refine State.onlyIn_step hL hF ?_
  unfold State.cmdStart
  try dsimp only
  repeat' first | with_reducible exact State.onlyIn_refl _ _ | with_reducible apply in_updCmd | with_reducible apply in_setCmdState | with_reducible apply in_setCh | with_reducible apply in_ite | with_reducible apply in_ite2 | with_reducible rfl | exact .inl rfl | exact .inr rfl | rfl | with_reducible assumption | intro _ | (split <;> try (rename_i h; have e := congrArg Prod.snd h; dsimp only at e; subst e))

theorem in_haltOp {L : List StPart} {s₀ x₀ : State} (c : CmdSt) (b : Bool) (hL : stPartsIn [.ch] L = true) (hF : State.onlyIn L s₀ x₀) : State.onlyIn L s₀ (State.haltOp x₀ c b) := by
  refine State.onlyIn_step hL hF ?_
  unfold State.haltOp
  try dsimp only
  repeat' first | with_reducible exact State.onlyIn_refl _ _ | with_reducible apply in_setCh | with_reducible apply in_ite | with_reducible apply in_ite2 | with_reducible rfl | exact .inl rfl | exact .inr rfl | rfl | with_reducible assumption | intro _ | (split <;> try (rename_i h; have e := congrArg Prod.snd h; dsimp only at e; subst e))

theorem in_suspendCmd {L : List StPart} {s₀ x₀ : State} (c : CmdSt) (hL : stPartsIn [.cmdq, .ch] L = true) (hF : State.onlyIn L s₀ x₀) : State.onlyIn L s₀ (State.suspendCmd x₀ c) := by
  refine State.onlyIn_step hL hF ?_
  unfold State.suspendCmd
  try dsimp only
  repeat' first | with_reducible exact State.onlyIn_refl _ _ | with_reducible apply in_haltOp | with_reducible apply in_updCmd | with_reducible apply in_setCmdState | with_reducible apply in_ite | with_reducible apply in_ite2 | with_reducible rfl | exact .inl rfl | exact .inr rfl | rfl | with_reducible assumption | intro _ | (split <;> try (rename_i h; have e := congrArg Prod.snd h; dsimp only at e; subst e))

theorem in_resumeCmd {L : List StPart} {s₀ x₀ : State} (c : CmdSt) (hL : stPartsIn [.hostif, .cmdq, .tally, .twin, .ch, .out] L = true) (hF : State.onlyIn L s₀ x₀) : State.onlyIn L s₀ (State.resumeCmd x₀ c) := by
  refine State.onlyIn_step hL hF ?_
  unfold State.resumeCmd
  try dsimp only
  repeat' first | with_reducible exact State.onlyIn_refl _ _ | with_reducible apply in_haltOp | with_reducible apply in_updCmd | with_reducible apply in_setCmdState | with_reducible apply in_drillResume | with_reducible apply in_ite | with_reducible apply in_ite2 | with_reducible rfl | exact .inl rfl | exact .inr rfl | rfl | with_reducible assumption | intro _ | (split <;> try (rename_i h; have e := congrArg Prod.snd h; dsimp only at e; subst e))

theorem in_control {L : List StPart} {s₀ x₀ : State} (op slot : ℕ) (hL : stPartsIn [.hostif, .cmdq, .vault, .book, .tally, .twin, .bench, .pwr, .image, .ch, .free, .out] L = true) (hF : State.onlyIn L s₀ x₀) : State.onlyIn L s₀ (State.control x₀ op slot) := by
  refine State.onlyIn_step hL hF ?_
  unfold State.control
  dsimp only
  repeat' first | with_reducible exact State.onlyIn_refl _ _ | with_reducible apply in_endCmd | with_reducible apply in_ite | rfl | split
  rename_i h
  split at h
  · cases h
  · repeat' split at h
    all_goals cases h
    all_goals repeat' first | with_reducible exact State.onlyIn_refl _ _ | with_reducible apply in_suspendCmd | with_reducible apply in_resumeCmd | with_reducible apply in_abortCmd | rfl

theorem in_cmdTimeout {L : List StPart} {s₀ x₀ : State} (slot : ℕ) (hL : stPartsIn [.hostif, .cmdq, .vault, .book, .twin, .bench, .pwr, .image, .ch, .free, .out] L = true) (hF : State.onlyIn L s₀ x₀) : State.onlyIn L s₀ (State.cmdTimeout x₀ slot) := by
  refine State.onlyIn_step hL hF ?_
  unfold State.cmdTimeout
  try dsimp only
  repeat' first | with_reducible exact State.onlyIn_refl _ _ | with_reducible apply in_abortCmd | with_reducible apply in_updCmd | with_reducible apply in_ite | with_reducible apply in_ite2 | with_reducible rfl | exact .inl rfl | exact .inr rfl | rfl | with_reducible assumption | intro _ | (split <;> try (rename_i h; have e := congrArg Prod.snd h; dsimp only at e; subst e))

theorem in_begin' {L : List StPart} {s₀ x₀ : State} (slot : ℕ) (hL : stPartsIn [.cmdq] L = true) (hF : State.onlyIn L s₀ x₀) : State.onlyIn L s₀ (State.begin' x₀ slot) := by
  refine State.onlyIn_step hL hF ?_
  unfold State.begin'
  try dsimp only
  repeat' first | with_reducible exact State.onlyIn_refl _ _ | with_reducible apply in_updCmd | with_reducible apply in_ite | with_reducible apply in_ite2 | with_reducible rfl | exact .inl rfl | exact .inr rfl | rfl | with_reducible assumption | intro _ | (split <;> try (rename_i h; have e := congrArg Prod.snd h; dsimp only at e; subst e))

theorem in_surveyCmd {L : List StPart} {s₀ x₀ : State} (slot : ℕ) (hL : stPartsIn [.cmdq, .ch] L = true) (hF : State.onlyIn L s₀ x₀) : State.onlyIn L s₀ (State.surveyCmd x₀ slot) := by
  refine State.onlyIn_step hL hF ?_
  unfold State.surveyCmd
  try dsimp only
  repeat' first | with_reducible exact State.onlyIn_refl _ _ | with_reducible apply in_onCh | with_reducible apply in_begin' | with_reducible apply in_ite | with_reducible apply in_ite2 | with_reducible rfl | exact .inl rfl | exact .inr rfl | rfl | with_reducible assumption | intro _ | (split <;> try (rename_i h; have e := congrArg Prod.snd h; dsimp only at e; subst e))

theorem in_charCmd {L : List StPart} {s₀ x₀ : State} (slot : ℕ) (hL : stPartsIn [.cmdq, .ch] L = true) (hF : State.onlyIn L s₀ x₀) : State.onlyIn L s₀ (State.charCmd x₀ slot) := by
  refine State.onlyIn_step hL hF ?_
  unfold State.charCmd
  try dsimp only
  repeat' first | with_reducible exact State.onlyIn_refl _ _ | with_reducible apply in_onCh | with_reducible apply in_begin' | with_reducible apply in_ite | with_reducible apply in_ite2 | with_reducible rfl | exact .inl rfl | exact .inr rfl | rfl | with_reducible assumption | intro _ | (split <;> try (rename_i h; have e := congrArg Prod.snd h; dsimp only at e; subst e))

theorem in_chanProgress {L : List StPart} {s₀ x₀ : State} (n : ChanIx) (hL : stPartsIn [.cmdq] L = true) (hF : State.onlyIn L s₀ x₀) : State.onlyIn L s₀ (State.chanProgress x₀ n) := by
  refine State.onlyIn_step hL hF ?_
  unfold State.chanProgress
  try dsimp only
  repeat' first | with_reducible exact State.onlyIn_refl _ _ | with_reducible apply in_setProgress | with_reducible apply in_ite | with_reducible apply in_ite2 | with_reducible apply in_fold | with_reducible apply in_fold2 | with_reducible rfl | exact .inl rfl | exact .inr rfl | rfl | with_reducible assumption | intro _ | (split <;> try (rename_i h; have e := congrArg Prod.snd h; dsimp only at e; subst e))

theorem in_snapCmd {L : List StPart} {s₀ x₀ : State} (slot : ℕ) (ms : List SatMeas) (hL : stPartsIn [.ch] L = true) (hF : State.onlyIn L s₀ x₀) : State.onlyIn L s₀ (State.snapCmd x₀ slot ms) := by
  refine State.onlyIn_step hL hF ?_
  unfold State.snapCmd
  try dsimp only
  repeat' first | with_reducible exact State.onlyIn_refl _ _ | with_reducible apply in_onCh | with_reducible apply in_ite | with_reducible apply in_ite2 | with_reducible rfl | exact .inl rfl | exact .inr rfl | rfl | with_reducible assumption | intro _ | (split <;> try (rename_i h; have e := congrArg Prod.snd h; dsimp only at e; subst e))

theorem in_kumBatch {L : List StPart} {s₀ : State} (org : Origin) (rs : List Bytes) (q : ℕ × Bool × State) (hL : stPartsIn [.hostif, .vault, .book, .tally, .pwr, .ch, .free, .out] L = true) (hF : State.onlyIn L s₀ q.2.2) : State.onlyIn L s₀ (State.kumBatch org rs q).2.2 := by
  induction rs generalizing q with
  | nil => exact hF
  | cons r rs ih =>
    obtain ⟨n, ok, y⟩ := q
    have h : State.onlyIn L s₀ y := by simpa only using hF
    unfold State.kumBatch
    split
    · exact hF
    · split
      · next e _ => have h1 := in_kumFail e (stPartsIn_trans rfl hL) h; generalize y.kumFail e = z at h1 ⊢; exact h1
      · rename_i j _
        have h1 := in_kumCommit j (stPartsIn_trans rfl hL) h
        generalize y.kumCommit j = z at h1 ⊢
        exact ih (n + 1, true, z) h1

theorem in_keyBatch {L : List StPart} {s₀ x₀ : State} (slot : ℕ) (kums : Option (List Bytes)) (hL : stPartsIn [.hostif, .cmdq, .vault, .book, .tally, .pwr, .ch, .free, .out] L = true) (hF : State.onlyIn L s₀ x₀) : State.onlyIn L s₀ (State.keyBatch x₀ slot kums) := by
  refine State.onlyIn_step hL hF ?_
  unfold State.keyBatch
  try dsimp only
  repeat' first | with_reducible apply in_kumBatch | with_reducible exact State.onlyIn_refl _ _ | with_reducible apply in_endCmd | with_reducible apply in_begin' | with_reducible apply in_setProgress | with_reducible apply in_updCmd | with_reducible apply in_ite | with_reducible apply in_ite2 | with_reducible rfl | exact .inl rfl | exact .inr rfl | rfl | with_reducible assumption | intro _ | (split <;> try (rename_i h; have e := congrArg Prod.snd h; dsimp only at e; subst e))

theorem in_cookieMint {L : List StPart} {s₀ x₀ : State} (slot : ℕ) (req : Option Bytes) (hL : stPartsIn [.hostif, .cmdq, .free, .out] L = true) (hF : State.onlyIn L s₀ x₀) : State.onlyIn L s₀ (State.cookieMint x₀ slot req) := by
  refine State.onlyIn_step hL hF ?_
  unfold State.cookieMint
  try dsimp only
  repeat' first | with_reducible exact State.onlyIn_refl _ _ | with_reducible apply in_endCmd | with_reducible apply in_free | with_reducible apply in_updCmd | with_reducible apply in_ite | with_reducible apply in_ite2 | with_reducible apply in_fold | with_reducible apply in_fold2 | with_reducible rfl | exact .inl rfl | exact .inr rfl | rfl | with_reducible assumption | intro _ | (split <;> try (rename_i h; have e := congrArg Prod.snd h; dsimp only at e; subst e))

theorem in_drillCmd {L : List StPart} {s₀ x₀ : State} (slot : ℕ) (hL : stPartsIn [.hostif, .cmdq, .twin, .out] L = true) (hF : State.onlyIn L s₀ x₀) : State.onlyIn L s₀ (State.drillCmd x₀ slot) := by
  refine State.onlyIn_step hL hF ?_
  unfold State.drillCmd
  try dsimp only
  repeat' first | with_reducible exact State.onlyIn_refl _ _ | with_reducible apply in_endCmd | with_reducible apply in_updTwin | with_reducible apply in_begin' | with_reducible apply in_ite | with_reducible apply in_ite2 | with_reducible rfl | exact .inl rfl | exact .inr rfl | rfl | with_reducible assumption | intro _ | (split <;> try (rename_i h; have e := congrArg Prod.snd h; dsimp only at e; subst e))

theorem in_selfTestCmd {L : List StPart} {s₀ x₀ : State} (slot : ℕ) (hL : stPartsIn [.cmdq, .pwr] L = true) (hF : State.onlyIn L s₀ x₀) : State.onlyIn L s₀ (State.selfTestCmd x₀ slot) := by
  refine State.onlyIn_step hL hF ?_
  unfold State.selfTestCmd
  try dsimp only
  repeat' first | with_reducible exact State.onlyIn_refl _ _ | with_reducible apply in_updPwr | with_reducible apply in_begin' | with_reducible apply in_ite | with_reducible apply in_ite2 | with_reducible rfl | exact .inl rfl | exact .inr rfl | rfl | with_reducible assumption | intro _ | (split <;> try (rename_i h; have e := congrArg Prod.snd h; dsimp only at e; subst e))

theorem in_exportFix {L : List StPart} {s₀ x₀ : State} (hL : stPartsIn [.cmdq, .free] L = true) (hF : State.onlyIn L s₀ x₀) : State.onlyIn L s₀ (State.exportFix x₀) := by
  refine State.onlyIn_step hL hF ?_
  unfold State.exportFix
  try dsimp only
  repeat' first | with_reducible exact State.onlyIn_refl _ _ | with_reducible apply in_exportBlock | with_reducible apply in_updCmd | with_reducible apply in_ite | with_reducible apply in_ite2 | with_reducible apply in_fold | with_reducible apply in_fold2 | with_reducible rfl | exact .inl rfl | exact .inr rfl | rfl | with_reducible assumption | intro _ | (split <;> try (rename_i h; have e := congrArg Prod.snd h; dsimp only at e; subst e))

theorem in_exportCmd {L : List StPart} {s₀ x₀ : State} (slot : ℕ) (hL : stPartsIn [.hostif, .cmdq, .out] L = true) (hF : State.onlyIn L s₀ x₀) : State.onlyIn L s₀ (State.exportCmd x₀ slot) := by
  refine State.onlyIn_step hL hF ?_
  unfold State.exportCmd
  try dsimp only
  repeat' first | with_reducible exact State.onlyIn_refl _ _ | with_reducible apply in_endCmd | with_reducible apply in_updCmd | with_reducible apply in_emit | with_reducible apply in_ite | with_reducible apply in_ite2 | with_reducible rfl | exact .inl rfl | exact .inr rfl | rfl | with_reducible assumption | intro _ | (split <;> try (rename_i h; have e := congrArg Prod.snd h; dsimp only at e; subst e))

theorem in_mintRelease {L : List StPart} {s₀ x₀ : State} (c : CmdSt) (hL : stPartsIn [.hostif, .cmdq, .out] L = true) (hF : State.onlyIn L s₀ x₀) : State.onlyIn L s₀ (State.mintRelease x₀ c) := by
  refine State.onlyIn_step hL hF ?_
  unfold State.mintRelease
  try dsimp only
  repeat' first | with_reducible exact State.onlyIn_refl _ _ | with_reducible apply in_endCmd | with_reducible apply in_emit | with_reducible apply in_ite | with_reducible apply in_ite2 | with_reducible rfl | exact .inl rfl | exact .inr rfl | rfl | with_reducible assumption | intro _ | (split <;> try (rename_i h; have e := congrArg Prod.snd h; dsimp only at e; subst e))

theorem in_cmdComplete {L : List StPart} {s₀ x₀ : State} (slot : ℕ) (dmaFailed : Bool) (hL : stPartsIn [.hostif, .cmdq, .out] L = true) (hF : State.onlyIn L s₀ x₀) : State.onlyIn L s₀ (State.cmdComplete x₀ slot dmaFailed) := by
  refine State.onlyIn_step hL hF ?_
  unfold State.cmdComplete
  try dsimp only
  repeat' first | with_reducible exact State.onlyIn_refl _ _ | with_reducible apply in_endCmd | with_reducible apply in_mintRelease | with_reducible apply in_ite | with_reducible apply in_ite2 | with_reducible rfl | exact .inl rfl | exact .inr rfl | rfl | with_reducible assumption | intro _ | (split <;> try (rename_i h; have e := congrArg Prod.snd h; dsimp only at e; subst e))

theorem in_pcieDown {L : List StPart} {s₀ x₀ : State} (hL : stPartsIn [.hostif, .cmdq, .out] L = true) (hF : State.onlyIn L s₀ x₀) : State.onlyIn L s₀ (State.pcieDown x₀) := by
  refine State.onlyIn_step hL hF ?_
  unfold State.pcieDown
  try dsimp only
  repeat' first | with_reducible exact State.onlyIn_refl _ _ | with_reducible apply in_gput | with_reducible apply in_endCmd | with_reducible apply in_ite | with_reducible apply in_ite2 | with_reducible apply in_fold | with_reducible apply in_fold2 | with_reducible rfl | exact .inl rfl | exact .inr rfl | rfl | with_reducible assumption | intro _ | (split <;> try (rename_i h; have e := congrArg Prod.snd h; dsimp only at e; subst e))

theorem in_flr {L : List StPart} {s₀ x₀ : State} (hL : stPartsIn [.hostif, .cmdq, .vault, .book, .twin, .bench, .pwr, .image, .ch, .free, .out] L = true) (hF : State.onlyIn L s₀ x₀) : State.onlyIn L s₀ (State.flr x₀) := by
  refine State.onlyIn_step hL hF ?_
  unfold State.flr
  try dsimp only
  repeat' first | with_reducible exact State.onlyIn_refl _ _ | with_reducible apply in_setRf | with_reducible apply in_gbump | with_reducible apply in_gsetWord | with_reducible apply in_abortCmd | with_reducible apply in_ite | with_reducible apply in_ite2 | with_reducible apply in_fold | with_reducible apply in_fold2 | with_reducible rfl | exact .inl rfl | exact .inr rfl | rfl | with_reducible assumption | intro _ | (split <;> try (rename_i h; have e := congrArg Prod.snd h; dsimp only at e; subst e))

theorem in_pcieUp {L : List StPart} {s₀ x₀ : State} (speed : ℕ) (width : ℕ) (hL : stPartsIn [.hostif, .out] L = true) (hF : State.onlyIn L s₀ x₀) : State.onlyIn L s₀ (State.pcieUp x₀ speed width) := by
  refine State.onlyIn_step hL hF ?_
  unfold State.pcieUp
  try dsimp only
  repeat' first | with_reducible exact State.onlyIn_refl _ _ | with_reducible apply in_msixFlush | with_reducible apply in_gput | with_reducible apply in_ite | with_reducible apply in_ite2 | with_reducible rfl | exact .inl rfl | exact .inr rfl | rfl | with_reducible assumption | intro _ | (split <;> try (rename_i h; have e := congrArg Prod.snd h; dsimp only at e; subst e))

theorem in_beginLoad {L : List StPart} {s₀ x₀ : State} (c : CmdSt) (mode : ℕ) (bs : Bytes) (staged : Bool) (hL : stPartsIn [.hostif, .cmdq, .vault, .book, .twin, .bench, .pwr, .image, .ch, .free, .out] L = true) (hF : State.onlyIn L s₀ x₀) : State.onlyIn L s₀ (State.beginLoad x₀ c mode bs staged) := by
  refine State.onlyIn_step hL hF ?_
  unfold State.beginLoad
  try dsimp only
  repeat' first | with_reducible exact State.onlyIn_refl _ _ | with_reducible apply in_storeImage | with_reducible apply in_updImg | with_reducible apply in_setPhase | with_reducible apply in_setProgress | with_reducible apply in_begin' | with_reducible apply in_stageImage | with_reducible apply in_loadCheck | with_reducible apply in_powerUp | with_reducible apply in_ite | with_reducible apply in_ite2 | with_reducible rfl | exact .inl rfl | exact .inr rfl | rfl | with_reducible assumption | intro _ | (split <;> try (rename_i h; have e := congrArg Prod.snd h; dsimp only at e; subst e))

theorem in_loadCmd {L : List StPart} {s₀ x₀ : State} (slot : ℕ) (mode : ℕ) (data : Option Bytes) (hL : stPartsIn [.hostif, .cmdq, .vault, .book, .twin, .bench, .pwr, .image, .ch, .free, .out] L = true) (hF : State.onlyIn L s₀ x₀) : State.onlyIn L s₀ (State.loadCmd x₀ slot mode data) := by
  refine State.onlyIn_step hL hF ?_
  unfold State.loadCmd
  try dsimp only
  repeat' first | with_reducible exact State.onlyIn_refl _ _ | with_reducible apply in_endCmd | with_reducible apply in_beginLoad | with_reducible apply in_ite | with_reducible apply in_ite2 | with_reducible rfl | exact .inl rfl | exact .inr rfl | rfl | with_reducible assumption | intro _ | (split <;> try (rename_i h; have e := congrArg Prod.snd h; dsimp only at e; subst e))

theorem in_reconfigEnter {L : List StPart} {s₀ x₀ : State} (n : ChanIx) (hL : stPartsIn [.hostif, .cmdq, .vault, .book, .twin, .bench, .pwr, .image, .ch, .free, .out] L = true) (hF : State.onlyIn L s₀ x₀) : State.onlyIn L s₀ (State.reconfigEnter x₀ n) := by
  refine State.onlyIn_step hL hF ?_
  unfold State.reconfigEnter
  try dsimp only
  repeat' first | with_reducible exact State.onlyIn_refl _ _ | with_reducible apply in_enterReconfig | with_reducible apply in_loadCheck | with_reducible apply in_ite | with_reducible apply in_ite2 | with_reducible rfl | exact .inl rfl | exact .inr rfl | rfl | with_reducible assumption | intro _ | (split <;> try (rename_i h; have e := congrArg Prod.snd h; dsimp only at e; subst e))

theorem in_deviceFail {L : List StPart} {s₀ x₀ : State} (slot : ℕ) (e : ℕ × ℕ) (hL : stPartsIn [.hostif, .cmdq, .image, .out] L = true) (hF : State.onlyIn L s₀ x₀) : State.onlyIn L s₀ (State.deviceFail x₀ slot e) := by
  refine State.onlyIn_step hL hF ?_
  unfold State.deviceFail
  try dsimp only
  repeat' first | with_reducible exact State.onlyIn_refl _ _ | with_reducible apply in_gevt | with_reducible apply in_gput | with_reducible apply in_imgIdle | with_reducible apply in_endCmd | with_reducible apply in_ite | with_reducible apply in_ite2 | with_reducible rfl | exact .inl rfl | exact .inr rfl | rfl | with_reducible assumption | intro _ | (split <;> try (rename_i h; have e := congrArg Prod.snd h; dsimp only at e; subst e)) | with_reducible apply in_upd

theorem in_deviceCmd {L : List StPart} {s₀ x₀ : State} (slot : ℕ) (images : Option (List (Option Bytes))) (hL : stPartsIn [.hostif, .cmdq, .pwr, .image, .out] L = true) (hF : State.onlyIn L s₀ x₀) : State.onlyIn L s₀ (State.deviceCmd x₀ slot images) := by
  refine State.onlyIn_step hL hF ?_
  unfold State.deviceCmd
  try dsimp only
  repeat' first | with_reducible exact State.onlyIn_refl _ _ | with_reducible apply in_endCmd | with_reducible apply in_gput | with_reducible apply in_setProgress | with_reducible apply in_begin' | with_reducible apply in_deviceFail | with_reducible apply in_setStage | with_reducible apply in_ite | with_reducible apply in_ite2 | with_reducible rfl | exact .inl rfl | exact .inr rfl | rfl | with_reducible assumption | intro _ | (split <;> try (rename_i h; have e := congrArg Prod.snd h; dsimp only at e; subst e)) | with_reducible apply in_upd

theorem in_deviceChannel {L : List StPart} {s₀ x₀ : State} (org : Origin) (pair : Bool) (n : ChanIx) (bs : Bytes) (hL : stPartsIn [.hostif, .cmdq, .vault, .book, .bench, .pwr, .image, .ch, .free, .out] L = true) (hF : State.onlyIn L s₀ x₀) : State.onlyIn L s₀ (State.deviceChannel x₀ org pair n bs) := by
  refine State.onlyIn_step hL hF ?_
  unfold State.deviceChannel
  try dsimp only
  repeat' first | with_reducible exact State.onlyIn_refl _ _ | with_reducible apply in_storeImage | with_reducible apply in_gevt | with_reducible apply in_gput | with_reducible apply in_setChSt | with_reducible apply in_setHeld | with_reducible apply in_powerUp | with_reducible apply in_updImg | with_reducible apply in_ite | with_reducible apply in_ite2 | with_reducible rfl | exact .inl rfl | exact .inr rfl | rfl | with_reducible assumption | intro _ | (split <;> try (rename_i h; have e := congrArg Prod.snd h; dsimp only at e; subst e))

theorem in_deviceDone {L : List StPart} {s₀ x₀ : State} (hL : stPartsIn [.hostif, .cmdq, .book, .tally, .twin, .pwr, .image, .ch, .out] L = true) (hF : State.onlyIn L s₀ x₀) : State.onlyIn L s₀ (State.deviceDone x₀) := by
  refine State.onlyIn_step hL hF ?_
  unfold State.deviceDone
  try dsimp only
  repeat' first | with_reducible exact State.onlyIn_refl _ _ | with_reducible apply in_setStage | with_reducible apply in_gevt | with_reducible apply in_imgIdle | with_reducible apply in_twinReset | with_reducible apply in_endCmd | with_reducible apply in_ite | with_reducible apply in_ite2 | with_reducible rfl | exact .inl rfl | exact .inr rfl | rfl | with_reducible assumption | intro _ | (split <;> try (rename_i h; have e := congrArg Prod.snd h; dsimp only at e; subst e)) | with_reducible apply in_upd

theorem in_setChpwr {L : List StPart} {s₀ x₀ : State} (n : ChanIx) (b : Bool) (hL : stPartsIn [.pwr] L = true) (hF : State.onlyIn L s₀ x₀) : State.onlyIn L s₀ (State.setChpwr x₀ n b) := by
  refine State.onlyIn_step hL hF ?_
  unfold State.setChpwr
  try dsimp only
  repeat' first | with_reducible exact State.onlyIn_refl _ _ | with_reducible apply in_gsetWord | with_reducible apply in_ite | with_reducible apply in_ite2 | with_reducible rfl | exact .inl rfl | exact .inr rfl | rfl | with_reducible assumption | intro _ | (split <;> try (rename_i h; have e := congrArg Prod.snd h; dsimp only at e; subst e))

theorem in_railsGood {L : List StPart} {s₀ x₀ : State} (n : ChanIx) (hL : stPartsIn [.hostif, .clkgen, .out] L = true) (hF : State.onlyIn L s₀ x₀) : State.onlyIn L s₀ (State.railsGood x₀ n) := by
  refine State.onlyIn_step hL hF ?_
  unfold State.railsGood
  try dsimp only
  repeat' first | with_reducible exact State.onlyIn_refl _ _ | with_reducible apply in_setRoot | with_reducible apply in_ite | with_reducible apply in_ite2 | with_reducible rfl | exact .inl rfl | exact .inr rfl | rfl | with_reducible assumption | intro _ | (split <;> try (rename_i h; have e := congrArg Prod.snd h; dsimp only at e; subst e))

theorem in_powerUpDone {L : List StPart} {s₀ x₀ : State} (n : ChanIx) (hL : stPartsIn [.hostif, .cmdq, .vault, .book, .twin, .bench, .pwr, .image, .ch, .free, .out] L = true) (hF : State.onlyIn L s₀ x₀) : State.onlyIn L s₀ (State.powerUpDone x₀ n) := by
  refine State.onlyIn_step hL hF ?_
  unfold State.powerUpDone
  try dsimp only
  repeat' first | with_reducible exact State.onlyIn_refl _ _ | with_reducible apply in_setChpwr | with_reducible apply in_updImg | with_reducible apply in_powerDown | with_reducible apply in_loadCheck | with_reducible apply in_ite | with_reducible apply in_ite2 | with_reducible rfl | exact .inl rfl | exact .inr rfl | rfl | with_reducible assumption | intro _ | (split <;> try (rename_i h; have e := congrArg Prod.snd h; dsimp only at e; subst e))

theorem in_powerDownDone {L : List StPart} {s₀ x₀ : State} (n : ChanIx) (hL : stPartsIn [.hostif, .clkgen, .pwr, .image, .out] L = true) (hF : State.onlyIn L s₀ x₀) : State.onlyIn L s₀ (State.powerDownDone x₀ n) := by
  refine State.onlyIn_step hL hF ?_
  unfold State.powerDownDone
  try dsimp only
  repeat' first | with_reducible exact State.onlyIn_refl _ _ | with_reducible apply in_setRoot | with_reducible apply in_updImg | with_reducible apply in_setChpwr | with_reducible apply in_powerUp | with_reducible apply in_ite | with_reducible apply in_ite2 | with_reducible rfl | exact .inl rfl | exact .inr rfl | rfl | with_reducible assumption | intro _ | (split <;> try (rename_i h; have e := congrArg Prod.snd h; dsimp only at e; subst e))

theorem in_noteAbsent {L : List StPart} {s₀ x₀ : State} (n : ChanIx) (hL : stPartsIn [.hostif, .image, .out] L = true) (hF : State.onlyIn L s₀ x₀) : State.onlyIn L s₀ (State.noteAbsent x₀ n) := by
  refine State.onlyIn_step hL hF ?_
  unfold State.noteAbsent
  try dsimp only
  repeat' first | with_reducible exact State.onlyIn_refl _ _ | with_reducible apply in_gevtMask | with_reducible apply in_ite | with_reducible apply in_ite2 | with_reducible rfl | exact .inl rfl | exact .inr rfl | rfl | with_reducible assumption | intro _ | (split <;> try (rename_i h; have e := congrArg Prod.snd h; dsimp only at e; subst e))

theorem in_noteReserved {L : List StPart} {s₀ x₀ : State} (addr : ℕ) (hL : stPartsIn [.hostif] L = true) (hF : State.onlyIn L s₀ x₀) : State.onlyIn L s₀ (State.noteReserved x₀ addr) := by
  refine State.onlyIn_step hL hF ?_
  unfold State.noteReserved
  try dsimp only
  repeat' first | with_reducible exact State.onlyIn_refl _ _ | with_reducible apply in_gput | with_reducible apply in_gbump | with_reducible apply in_ite | with_reducible apply in_ite2 | with_reducible rfl | exact .inl rfl | exact .inr rfl | rfl | with_reducible assumption | intro _ | (split <;> try (rename_i h; have e := congrArg Prod.snd h; dsimp only at e; subst e))

theorem in_injGo {L : List StPart} {s₀ x₀ : State} (hL : stPartsIn [.hostif, .fault, .out] L = true) (hF : State.onlyIn L s₀ x₀) : State.onlyIn L s₀ (State.injGo x₀) := by
  refine State.onlyIn_step hL hF ?_
  unfold State.injGo
  try dsimp only
  repeat' first | with_reducible exact State.onlyIn_refl _ _ | with_reducible apply in_gevt | with_reducible apply in_gput | with_reducible apply in_ite | with_reducible apply in_ite2 | with_reducible rfl | exact .inl rfl | exact .inr rfl | rfl | with_reducible assumption | intro _ | (split <;> try (rename_i h; have e := congrArg Prod.snd h; dsimp only at e; subst e)) | with_reducible apply in_upd

theorem in_safeCtl {L : List StPart} {s₀ x₀ : State} (v : Word) (hL : stPartsIn [.hostif, .cmdq, .fault, .vault, .book, .tally, .twin, .bench, .pwr, .image, .ch, .free, .out] L = true) (hF : State.onlyIn L s₀ x₀) : State.onlyIn L s₀ (State.safeCtl x₀ v).2 := by
  refine State.onlyIn_step hL hF ?_
  unfold State.safeCtl
  try dsimp only
  repeat' first | with_reducible exact State.onlyIn_refl _ _ | with_reducible apply in_enterSafe | with_reducible apply in_blockResets | with_reducible apply in_ite | with_reducible apply in_ite2 | with_reducible rfl | exact .inl rfl | exact .inr rfl | rfl | with_reducible assumption | intro _ | (split <;> try (rename_i h; have e := congrArg Prod.snd h; dsimp only at e; subst e)) | with_reducible apply in_upd

theorem in_twinCtl {L : List StPart} {s₀ x₀ : State} (org : Origin) (v : Word) (hL : stPartsIn [.hostif, .cmdq, .vault, .book, .tally, .twin, .bench, .clkgen, .pwr, .image, .ch, .free, .out] L = true) (hF : State.onlyIn L s₀ x₀) : State.onlyIn L s₀ (State.twinCtl x₀ org v).2 := by
  refine State.onlyIn_step hL hF ?_
  unfold State.twinCtl
  try dsimp only
  repeat' first | with_reducible exact State.onlyIn_refl _ _ | with_reducible apply in_commitBlk | with_reducible apply in_fence | with_reducible apply in_unfence | with_reducible apply in_ite | with_reducible apply in_ite2 | with_reducible rfl | exact .inl rfl | exact .inr rfl | rfl | with_reducible assumption | intro _ | (split <;> try (rename_i h; have e := congrArg Prod.snd h; dsimp only at e; subst e))

theorem in_gAction {L : List StPart} {s₀ x₀ : State} (org : Origin) (b : CB) (off : ℕ) (v : Word) (hL : stPartsIn [.hostif, .cmdq, .fault, .vault, .book, .tally, .twin, .bench, .clkgen, .pwr, .image, .ch, .free, .out] L = true) (hF : State.onlyIn L s₀ x₀) : State.onlyIn L s₀ (State.gAction x₀ org b off v).2 := by
  refine State.onlyIn_step hL hF ?_
  unfold State.gAction
  try dsimp only
  repeat' first | with_reducible exact State.onlyIn_refl _ _ | with_reducible apply in_submit | with_reducible apply in_release | with_reducible apply in_stream | with_reducible apply in_safeCtl | with_reducible apply in_injGo | with_reducible apply in_kumGo | with_reducible apply in_quoteGo | with_reducible apply in_bookRead | with_reducible apply in_tallyNow | with_reducible apply in_twinCtl | with_reducible apply in_commitBlk | with_reducible apply in_calGo | with_reducible apply in_chCtl | with_reducible apply in_ite | with_reducible apply in_ite2 | with_reducible rfl | exact .inl rfl | exact .inr rfl | rfl | with_reducible assumption | intro _ | (split <;> try (rename_i h; have e := congrArg Prod.snd h; dsimp only at e; subst e))

theorem in_gHostWrite {L : List StPart} {s₀ x₀ : State} (org : Origin) (b : CB) (off : ℕ) (v : Word) (hb : L.contains b.part = true) (hL : stPartsIn [.hostif, .cmdq, .fault, .vault, .book, .tally, .twin, .bench, .clkgen, .pwr, .image, .ch, .free, .out] L = true) (hF : State.onlyIn L s₀ x₀) : State.onlyIn L s₀ (State.gHostWrite x₀ org b off v) := by
  refine State.onlyIn_trans hF ?_
  unfold State.gHostWrite
  try dsimp only
  repeat' first | with_reducible exact State.onlyIn_refl _ _ | with_reducible apply in_gWriteFields | with_reducible apply in_gAction | with_reducible apply in_book1 | with_reducible apply in_ite | with_reducible apply in_ite2 | with_reducible rfl | exact .inl rfl | exact .inr rfl | rfl | with_reducible assumption | exact stPartsIn_trans rfl hL | exact stPartsIn_mem rfl hL | exact .inl (stPartsIn_mem rfl hL) | intro _ | (split <;> try (rename_i h; have e := congrArg Prod.snd h; dsimp only at e; subst e))

theorem in_injDetect {L : List StPart} {s₀ x₀ : State} (hL : stPartsIn [.hostif, .cmdq, .fault, .vault, .book, .tally, .twin, .bench, .pwr, .image, .ch, .free, .out] L = true) (hF : State.onlyIn L s₀ x₀) : State.onlyIn L s₀ (State.injDetect x₀) := by
  refine State.onlyIn_step hL hF ?_
  unfold State.injDetect
  try dsimp only
  repeat' first | with_reducible exact State.onlyIn_refl _ _ | with_reducible apply in_detectInjected | with_reducible apply in_ite | with_reducible apply in_ite2 | with_reducible rfl | exact .inl rfl | exact .inr rfl | rfl | with_reducible assumption | intro _ | (split <;> try (rename_i h; have e := congrArg Prod.snd h; dsimp only at e; subst e))

theorem in_injTimeout {L : List StPart} {s₀ x₀ : State} (hL : stPartsIn [.hostif, .fault, .out] L = true) (hF : State.onlyIn L s₀ x₀) : State.onlyIn L s₀ (State.injTimeout x₀) := by
  refine State.onlyIn_step hL hF ?_
  unfold State.injTimeout
  try dsimp only
  repeat' first | with_reducible exact State.onlyIn_refl _ _ | with_reducible apply in_gevt | with_reducible apply in_gput | with_reducible apply in_ite | with_reducible apply in_ite2 | with_reducible rfl | exact .inl rfl | exact .inr rfl | rfl | with_reducible assumption | intro _ | (split <;> try (rename_i h; have e := congrArg Prod.snd h; dsimp only at e; subst e)) | with_reducible apply in_upd

theorem in_clientWord {L : List StPart} {s₀ x₀ : State} (n : ChanIx) (off : ℕ) (hL : stPartsIn [.free] L = true) (hF : State.onlyIn L s₀ x₀) : State.onlyIn L s₀ (State.clientWord x₀ n off).2 := by
  refine State.onlyIn_step hL hF ?_
  unfold State.clientWord
  try dsimp only
  repeat' first | with_reducible exact State.onlyIn_refl _ _ | with_reducible apply in_free | with_reducible apply in_ite | with_reducible apply in_ite2 | with_reducible rfl | exact .inl rfl | exact .inr rfl | rfl | with_reducible assumption | intro _ | (split <;> try (rename_i h; have e := congrArg Prod.snd h; dsimp only at e; subst e))

theorem in_sliceRead {L : List StPart} {s₀ x₀ : State} (n : ChanIx) (off : ℕ) (hL : stPartsIn [.free] L = true) (hF : State.onlyIn L s₀ x₀) : State.onlyIn L s₀ (State.sliceRead x₀ n off).2 := by
  refine State.onlyIn_step hL hF ?_
  unfold State.sliceRead
  try dsimp only
  repeat' first | with_reducible exact State.onlyIn_refl _ _ | with_reducible apply in_clientWord | with_reducible apply in_ite | with_reducible apply in_ite2 | with_reducible rfl | exact .inl rfl | exact .inr rfl | rfl | with_reducible assumption | intro _ | (split <;> try (rename_i h; have e := congrArg Prod.snd h; dsimp only at e; subst e))

theorem in_memRead {L : List StPart} {s₀ x₀ : State} (addr : ℕ) (hL : stPartsIn [.hostif, .image, .free, .out] L = true) (hF : State.onlyIn L s₀ x₀) : State.onlyIn L s₀ (State.memRead x₀ addr).2 := by
  refine State.onlyIn_step hL hF ?_
  unfold State.memRead
  try dsimp only
  repeat' first | with_reducible exact State.onlyIn_refl _ _ | with_reducible apply in_noteAbsent | with_reducible apply in_sliceRead | with_reducible apply in_ite | with_reducible apply in_ite2 | with_reducible rfl | exact .inl rfl | exact .inr rfl | rfl | with_reducible assumption | intro _ | (split <;> try (rename_i h; have e := congrArg Prod.snd h; dsimp only at e; subst e))

theorem in_htxByte {L : List StPart} {s₀ x₀ : State} (addr : ℕ) (b : Byte) (hL : stPartsIn [.mem] L = true) (hF : State.onlyIn L s₀ x₀) : State.onlyIn L s₀ (State.htxByte x₀ addr b) := by
  refine State.onlyIn_step hL hF ?_
  unfold State.htxByte
  try dsimp only
  repeat' first | with_reducible exact State.onlyIn_refl _ _ | with_reducible apply in_ite | with_reducible apply in_ite2 | with_reducible rfl | exact .inl rfl | exact .inr rfl | rfl | with_reducible assumption | intro _ | (split <;> try (rename_i h; have e := congrArg Prod.snd h; dsimp only at e; subst e)) | with_reducible apply in_upd

theorem in_memWrite {L : List StPart} {s₀ x₀ : State} (addr : ℕ) (v : Word) (hL : stPartsIn [.hostif, .mem, .fault, .image, .out] L = true) (hF : State.onlyIn L s₀ x₀) : State.onlyIn L s₀ (State.memWrite x₀ addr v) := by
  refine State.onlyIn_step hL hF ?_
  unfold State.memWrite
  try dsimp only
  repeat' first | with_reducible exact State.onlyIn_refl _ _ | with_reducible apply in_gbumpSat | with_reducible apply in_noteAbsent | with_reducible apply in_htxByte | with_reducible apply in_gbump | with_reducible apply in_ite | with_reducible apply in_ite2 | with_reducible apply in_fold | with_reducible apply in_fold2 | with_reducible rfl | exact .inl rfl | exact .inr rfl | rfl | with_reducible assumption | intro _ | (split <;> try (rename_i h; have e := congrArg Prod.snd h; dsimp only at e; subst e))

theorem in_memWriteCmd {L : List StPart} {s₀ x₀ : State} (p : HostPath) (addr : ℕ) (v : Word) (hL : stPartsIn [.hostif, .mem, .fault, .image, .out] L = true) (hF : State.onlyIn L s₀ x₀) : State.onlyIn L s₀ (State.memWriteCmd x₀ p addr v) := by
  refine State.onlyIn_step hL hF ?_
  unfold State.memWriteCmd
  try dsimp only
  repeat' first | with_reducible exact State.onlyIn_refl _ _ | with_reducible apply in_memWrite | with_reducible apply in_ite | with_reducible apply in_ite2 | with_reducible rfl | exact .inl rfl | exact .inr rfl | rfl | with_reducible assumption | intro _ | (split <;> try (rename_i h; have e := congrArg Prod.snd h; dsimp only at e; subst e))

theorem in_htxFollow {L : List StPart} {s₀ x₀ : State} (n : ChanIx) (p : PortIx) (hL : stPartsIn [.hostif] L = true) (hF : State.onlyIn L s₀ x₀) : State.onlyIn L s₀ (State.htxFollow x₀ n p) := by
  refine State.onlyIn_step hL hF ?_
  unfold State.htxFollow
  try dsimp only
  repeat' first | with_reducible exact State.onlyIn_refl _ _ | with_reducible apply in_gput | with_reducible apply in_gbumpBy | with_reducible apply in_ite | with_reducible apply in_ite2 | with_reducible rfl | exact .inl rfl | exact .inr rfl | rfl | with_reducible assumption | intro _ | (split <;> try (rename_i h; have e := congrArg Prod.snd h; dsimp only at e; subst e))

theorem in_htxTake {L : List StPart} {s₀ x₀ : State} (n : ChanIx) (p : PortIx) (hL : stPartsIn [.hostif, .ch] L = true) (hF : State.onlyIn L s₀ x₀) : State.onlyIn L s₀ (State.htxTake x₀ n p) := by
  refine State.onlyIn_step hL hF ?_
  unfold State.htxTake
  try dsimp only
  repeat' first | with_reducible exact State.onlyIn_refl _ _ | with_reducible apply in_htxFollow | with_reducible apply in_gput | with_reducible apply in_gbump | with_reducible apply in_onCh | with_reducible apply in_ite | with_reducible apply in_ite2 | with_reducible rfl | exact .inl rfl | exact .inr rfl | rfl | with_reducible assumption | intro _ | (split <;> try (rename_i h; have e := congrArg Prod.snd h; dsimp only at e; subst e)) | with_reducible apply in_upd

theorem in_mspiErr {L : List StPart} {s₀ x₀ : State} (op : ℕ) (st : ℕ) (hL : stPartsIn [.hostif, .cmdq, .fault, .vault, .book, .tally, .twin, .bench, .pwr, .image, .ch, .free, .out] L = true) (hF : State.onlyIn L s₀ x₀) : State.onlyIn L s₀ (State.mspiErr x₀ op st) := by
  refine State.onlyIn_step hL hF ?_
  unfold State.mspiErr
  try dsimp only
  repeat' first | with_reducible exact State.onlyIn_refl _ _ | with_reducible apply in_detect | with_reducible apply in_gbump | with_reducible apply in_free | with_reducible apply in_emit | with_reducible apply in_ite | with_reducible apply in_ite2 | with_reducible rfl | exact .inl rfl | exact .inr rfl | rfl | with_reducible assumption | intro _ | (split <;> try (rename_i h; have e := congrArg Prod.snd h; dsimp only at e; subst e))

theorem in_mspiFrame {L : List StPart} {s₀ x₀ : State} (op : ℕ) (bs : Bytes) (f : State → State) (hf : ∀ v0, State.onlyIn L v0 (f v0)) (hL : stPartsIn [.hostif, .cmdq, .fault, .vault, .book, .tally, .twin, .bench, .pwr, .image, .ch, .free, .out] L = true) (hF : State.onlyIn L s₀ x₀) : State.onlyIn L s₀ (State.mspiFrame x₀ op bs f) := by
  refine State.onlyIn_trans hF ?_
  unfold State.mspiFrame
  try dsimp only
  repeat' first | with_reducible exact State.onlyIn_refl _ _ | with_reducible apply in_gbump | with_reducible apply in_mspiErr | with_reducible apply in_ite | with_reducible apply in_ite2 | (refine State.onlyIn_trans ?_ (hf _)) | with_reducible rfl | exact .inl rfl | exact .inr rfl | rfl | with_reducible assumption | exact stPartsIn_trans rfl hL | exact stPartsIn_mem rfl hL | exact .inl (stPartsIn_mem rfl hL) | intro _ | (split <;> try (rename_i h; have e := congrArg Prod.snd h; dsimp only at e; subst e))

theorem in_mspiReadMem {L : List StPart} {s₀ x₀ : State} (bs : Bytes) (hL : stPartsIn [.hostif, .cmdq, .fault, .vault, .book, .tally, .twin, .bench, .pwr, .image, .ch, .free, .out] L = true) (hF : State.onlyIn L s₀ x₀) : State.onlyIn L s₀ (State.mspiReadMem x₀ bs) := by
  refine State.onlyIn_step hL hF ?_
  unfold State.mspiReadMem
  try dsimp only
  repeat' first | with_reducible exact State.onlyIn_refl _ _ | with_reducible apply in_mspiFrame | with_reducible apply in_mspiErr | with_reducible apply in_memRead | with_reducible apply in_emit | with_reducible apply in_ite | with_reducible apply in_ite2 | with_reducible rfl | exact .inl rfl | exact .inr rfl | rfl | with_reducible assumption | intro _ | (split <;> try (rename_i h; have e := congrArg Prod.snd h; dsimp only at e; subst e))

theorem in_mspiWriteMem {L : List StPart} {s₀ x₀ : State} (bs : Bytes) (hL : stPartsIn [.hostif, .mem, .cmdq, .fault, .vault, .book, .tally, .twin, .bench, .pwr, .image, .ch, .free, .out] L = true) (hF : State.onlyIn L s₀ x₀) : State.onlyIn L s₀ (State.mspiWriteMem x₀ bs) := by
  refine State.onlyIn_step hL hF ?_
  unfold State.mspiWriteMem
  try dsimp only
  repeat' first | with_reducible exact State.onlyIn_refl _ _ | with_reducible apply in_mspiFrame | with_reducible apply in_mspiErr | with_reducible apply in_emit | with_reducible apply in_memWrite | with_reducible apply in_ite | with_reducible apply in_ite2 | with_reducible rfl | exact .inl rfl | exact .inr rfl | rfl | with_reducible assumption | intro _ | (split <;> try (rename_i h; have e := congrArg Prod.snd h; dsimp only at e; subst e))

theorem in_mspiScan {L : List StPart} {s₀ x₀ : State} (bs : Bytes) (hL : stPartsIn [.hostif, .cmdq, .fault, .vault, .book, .tally, .twin, .bench, .pwr, .image, .ch, .free, .out] L = true) (hF : State.onlyIn L s₀ x₀) : State.onlyIn L s₀ (State.mspiScan x₀ bs) := by
  refine State.onlyIn_step hL hF ?_
  unfold State.mspiScan
  try dsimp only
  repeat' first | with_reducible exact State.onlyIn_refl _ _ | with_reducible apply in_mspiFrame | with_reducible apply in_setStage | with_reducible apply in_zeroize | with_reducible apply in_bookSt | with_reducible apply in_emit | with_reducible apply in_updPwr | with_reducible apply in_mspiErr | with_reducible apply in_ite | with_reducible apply in_ite2 | with_reducible rfl | exact .inl rfl | exact .inr rfl | rfl | with_reducible assumption | intro _ | (split <;> try (rename_i h; have e := congrArg Prod.snd h; dsimp only at e; subst e))

theorem in_mspiDrive {L : List StPart} {s₀ x₀ : State} (bs : Bytes) (hL : stPartsIn [.hostif, .cmdq, .fault, .vault, .book, .tally, .twin, .bench, .pwr, .image, .ch, .free, .out] L = true) (hF : State.onlyIn L s₀ x₀) : State.onlyIn L s₀ (State.mspiDrive x₀ bs) := by
  refine State.onlyIn_step hL hF ?_
  unfold State.mspiDrive
  try dsimp only
  repeat' first | with_reducible exact State.onlyIn_refl _ _ | with_reducible apply in_emit | with_reducible apply in_updPwr | with_reducible apply in_mspiFrame | with_reducible apply in_mspiErr | with_reducible apply in_ite | with_reducible apply in_ite2 | with_reducible rfl | exact .inl rfl | exact .inr rfl | rfl | with_reducible assumption | intro _ | (split <;> try (rename_i h; have e := congrArg Prod.snd h; dsimp only at e; subst e))

theorem in_mspiSense {L : List StPart} {s₀ x₀ : State} (bs : Bytes) (level : Bool) (hL : stPartsIn [.hostif, .cmdq, .fault, .vault, .book, .tally, .twin, .bench, .pwr, .image, .ch, .free, .out] L = true) (hF : State.onlyIn L s₀ x₀) : State.onlyIn L s₀ (State.mspiSense x₀ bs level) := by
  refine State.onlyIn_step hL hF ?_
  unfold State.mspiSense
  try dsimp only
  repeat' first | with_reducible exact State.onlyIn_refl _ _ | with_reducible apply in_free | with_reducible apply in_emit | with_reducible apply in_mspiFrame | with_reducible apply in_mspiErr | with_reducible apply in_ite | with_reducible apply in_ite2 | with_reducible rfl | exact .inl rfl | exact .inr rfl | rfl | with_reducible assumption | intro _ | (split <;> try (rename_i h; have e := congrArg Prod.snd h; dsimp only at e; subst e))

theorem in_beginTick {L : List StPart} {s₀ x₀ : State} (n : ChanIx) (hL : stPartsIn [.ch] L = true) (hF : State.onlyIn L s₀ x₀) : State.onlyIn L s₀ (State.beginTick x₀ n) := by
  refine State.onlyIn_step hL hF ?_
  unfold State.beginTick
  try dsimp only
  repeat' first | with_reducible exact State.onlyIn_refl _ _ | with_reducible apply in_onCh | with_reducible apply in_ite | with_reducible apply in_ite2 | with_reducible rfl | exact .inl rfl | exact .inr rfl | rfl | with_reducible assumption | intro _ | (split <;> try (rename_i h; have e := congrArg Prod.snd h; dsimp only at e; subst e))

theorem in_chanTick {L : List StPart} {s₀ x₀ : State} (n : ChanIx) (hL : stPartsIn [.ch] L = true) (hF : State.onlyIn L s₀ x₀) : State.onlyIn L s₀ (State.chanTick x₀ n) := by
  refine State.onlyIn_step hL hF ?_
  unfold State.chanTick
  try dsimp only
  repeat' first | with_reducible exact State.onlyIn_refl _ _ | with_reducible apply in_beginTick | with_reducible apply in_onCh | with_reducible apply in_setCh | with_reducible apply in_ite | with_reducible apply in_ite2 | with_reducible rfl | exact .inl rfl | exact .inr rfl | rfl | with_reducible assumption | intro _ | (split <;> try (rename_i h; have e := congrArg Prod.snd h; dsimp only at e; subst e))

theorem in_tickLast {L : List StPart} {s₀ x₀ : State} (hL : stPartsIn [.hostif, .cmdq, .fault, .vault, .book, .tally, .twin, .bench, .clkgen, .pwr, .image, .ch, .free, .out] L = true) (hF : State.onlyIn L s₀ x₀) : State.onlyIn L s₀ (State.tickLast x₀) := by
  refine State.onlyIn_step hL hF ?_
  unfold State.tickLast
  try dsimp only
  repeat' first | with_reducible exact State.onlyIn_refl _ _ | with_reducible apply in_exportFix | with_reducible apply in_tallyFix | with_reducible apply in_drain | with_reducible apply in_blockResets | with_reducible apply in_railsGood | with_reducible apply in_htxFollow | with_reducible apply in_ite | with_reducible apply in_ite2 | with_reducible apply in_fold | with_reducible apply in_fold2 | with_reducible rfl | exact .inl rfl | exact .inr rfl | rfl | with_reducible assumption | intro _ | (split <;> try (rename_i h; have e := congrArg Prod.snd h; dsimp only at e; subst e))

theorem in_twinLaneSync {L : List StPart} {s₀ x₀ : State} (l : Fin 2) (up : Bool) (hL : stPartsIn [.twin] L = true) (hF : State.onlyIn L s₀ x₀) : State.onlyIn L s₀ (State.twinLaneSync x₀ l up) := by
  refine State.onlyIn_step hL hF ?_
  unfold State.twinLaneSync
  try dsimp only
  repeat' first | with_reducible exact State.onlyIn_refl _ _ | with_reducible apply in_updTwin | with_reducible apply in_ite | with_reducible apply in_ite2 | with_reducible rfl | exact .inl rfl | exact .inr rfl | rfl | with_reducible assumption | intro _ | (split <;> try (rename_i h; have e := congrArg Prod.snd h; dsimp only at e; subst e))

theorem in_synNoLock {L : List StPart} {s₀ x₀ : State} (n : ChanIx) (k : Fin 2) (hL : stPartsIn [.hostif, .cmdq, .vault, .book, .tally, .twin, .bench, .pwr, .image, .ch, .free, .out] L = true) (hF : State.onlyIn L s₀ x₀) : State.onlyIn L s₀ (State.synNoLock x₀ n k) := by
  refine State.onlyIn_step hL hF ?_
  unfold State.synNoLock
  try dsimp only
  repeat' first | with_reducible exact State.onlyIn_refl _ _ | with_reducible apply in_onCh | with_reducible apply in_drillFail | with_reducible apply in_ite | with_reducible apply in_ite2 | with_reducible rfl | exact .inl rfl | exact .inr rfl | rfl | with_reducible assumption | intro _ | (split <;> try (rename_i h; have e := congrArg Prod.snd h; dsimp only at e; subst e))

theorem in_effBookWindowStart {L : List StPart} {s₀ x₀ : State} (hL : stPartsIn [.hostif, .book, .tally, .free, .out] L = true) (hF : State.onlyIn L s₀ x₀) : State.onlyIn L s₀ (effBookWindowStart x₀) := by
  refine State.onlyIn_step hL hF ?_
  unfold effBookWindowStart
  try dsimp only
  repeat' first | with_reducible exact State.onlyIn_refl _ _ | with_reducible apply in_bookWindow | with_reducible apply in_ite | with_reducible apply in_ite2 | with_reducible rfl | exact .inl rfl | exact .inr rfl | rfl | with_reducible assumption | intro _ | (split <;> try (rename_i h; have e := congrArg Prod.snd h; dsimp only at e; subst e))

theorem in_effBenchLinkSync {L : List StPart} {s₀ x₀ : State} (c : ChanIx) (x : Fin 2) (hL : stPartsIn [.ch] L = true) (hF : State.onlyIn L s₀ x₀) : State.onlyIn L s₀ (effBenchLinkSync c x x₀) := by
  refine State.onlyIn_step hL hF ?_
  unfold effBenchLinkSync
  try dsimp only
  repeat' first | with_reducible exact State.onlyIn_refl _ _ | with_reducible apply in_onCh | with_reducible apply in_ite | with_reducible apply in_ite2 | with_reducible rfl | exact .inl rfl | exact .inr rfl | rfl | with_reducible assumption | intro _ | (split <;> try (rename_i h; have e := congrArg Prod.snd h; dsimp only at e; subst e))

theorem in_effBenchHelloSend {L : List StPart} {s₀ x₀ : State} (c : ChanIx) (x : Fin 2) (ps : ℕ) (hL : stPartsIn [.ch] L = true) (hF : State.onlyIn L s₀ x₀) : State.onlyIn L s₀ (effBenchHelloSend c x ps x₀) := by
  refine State.onlyIn_step hL hF ?_
  unfold effBenchHelloSend
  try dsimp only
  repeat' first | with_reducible exact State.onlyIn_refl _ _ | with_reducible apply in_onCh | with_reducible apply in_ite | with_reducible apply in_ite2 | with_reducible rfl | exact .inl rfl | exact .inr rfl | rfl | with_reducible assumption | intro _ | (split <;> try (rename_i h; have e := congrArg Prod.snd h; dsimp only at e; subst e))

theorem in_effBenchHelloRx {L : List StPart} {s₀ x₀ : State} (c : ChanIx) (x : Fin 2) (bs : Bytes) (ps : ℕ) (hL : stPartsIn [.ch] L = true) (hF : State.onlyIn L s₀ x₀) : State.onlyIn L s₀ (effBenchHelloRx c x bs ps x₀) := by
  refine State.onlyIn_step hL hF ?_
  unfold effBenchHelloRx
  try dsimp only
  repeat' first | with_reducible exact State.onlyIn_refl _ _ | with_reducible apply in_onCh | with_reducible apply in_ite | with_reducible apply in_ite2 | with_reducible rfl | exact .inl rfl | exact .inr rfl | rfl | with_reducible assumption | intro _ | (split <;> try (rename_i h; have e := congrArg Prod.snd h; dsimp only at e; subst e))

theorem in_effBenchHelloTimeout {L : List StPart} {s₀ x₀ : State} (c : ChanIx) (x : Fin 2) (lost : Bool) (hL : stPartsIn [.ch] L = true) (hF : State.onlyIn L s₀ x₀) : State.onlyIn L s₀ (effBenchHelloTimeout c x lost x₀) := by
  refine State.onlyIn_step hL hF ?_
  unfold effBenchHelloTimeout
  try dsimp only
  repeat' first | with_reducible exact State.onlyIn_refl _ _ | with_reducible apply in_onCh | with_reducible apply in_ite | with_reducible apply in_ite2 | with_reducible rfl | exact .inl rfl | exact .inr rfl | rfl | with_reducible assumption | intro _ | (split <;> try (rename_i h; have e := congrArg Prod.snd h; dsimp only at e; subst e))

theorem in_effLsaSend {L : List StPart} {s₀ x₀ : State} (hL : stPartsIn [.bench, .out] L = true) (hF : State.onlyIn L s₀ x₀) : State.onlyIn L s₀ (effLsaSend x₀) := by
  refine State.onlyIn_step hL hF ?_
  unfold effLsaSend
  try dsimp only
  repeat' first | with_reducible exact State.onlyIn_refl _ _ | with_reducible apply in_lsaSend | with_reducible apply in_ite | with_reducible apply in_ite2 | with_reducible rfl | exact .inl rfl | exact .inr rfl | rfl | with_reducible assumption | intro _ | (split <;> try (rename_i h; have e := congrArg Prod.snd h; dsimp only at e; subst e))

theorem in_effLsaRx {L : List StPart} {s₀ x₀ : State} (c : ChanIx) (x : Fin 2) (bs : Bytes) (hL : stPartsIn [.hostif, .bench, .ch, .out] L = true) (hF : State.onlyIn L s₀ x₀) : State.onlyIn L s₀ (effLsaRx c x bs x₀) := by
  refine State.onlyIn_step hL hF ?_
  unfold effLsaRx
  try dsimp only
  repeat' first | with_reducible exact State.onlyIn_refl _ _ | with_reducible apply in_lsaRx | with_reducible apply in_ite | with_reducible apply in_ite2 | with_reducible rfl | exact .inl rfl | exact .inr rfl | rfl | with_reducible assumption | intro _ | (split <;> try (rename_i h; have e := congrArg Prod.snd h; dsimp only at e; subst e))

theorem in_effLsaHoldExpiry {L : List StPart} {s₀ x₀ : State} (devid : ℕ) (hL : stPartsIn [.hostif, .bench, .out] L = true) (hF : State.onlyIn L s₀ x₀) : State.onlyIn L s₀ (effLsaHoldExpiry devid x₀) := by
  refine State.onlyIn_step hL hF ?_
  unfold effLsaHoldExpiry
  try dsimp only
  repeat' first | with_reducible exact State.onlyIn_refl _ _ | with_reducible apply in_lsaExpire | with_reducible apply in_ite | with_reducible apply in_ite2 | with_reducible rfl | exact .inl rfl | exact .inr rfl | rfl | with_reducible assumption | intro _ | (split <;> try (rename_i h; have e := congrArg Prod.snd h; dsimp only at e; subst e))

theorem in_effRouteComputation {L : List StPart} {s₀ x₀ : State} (hL : stPartsIn [.hostif, .book, .bench, .out] L = true) (hF : State.onlyIn L s₀ x₀) : State.onlyIn L s₀ (effRouteComputation x₀) := by
  refine State.onlyIn_step hL hF ?_
  unfold effRouteComputation
  try dsimp only
  repeat' first | with_reducible exact State.onlyIn_refl _ _ | with_reducible apply in_routeCompute | with_reducible apply in_ite | with_reducible apply in_ite2 | with_reducible rfl | exact .inl rfl | exact .inr rfl | rfl | with_reducible assumption | intro _ | (split <;> try (rename_i h; have e := congrArg Prod.snd h; dsimp only at e; subst e))

theorem in_effBenchTimeSend {L : List StPart} {s₀ x₀ : State} (c : ChanIx) (ps0 : ℕ) (ps1 : ℕ) (hL : stPartsIn [.ch] L = true) (hF : State.onlyIn L s₀ x₀) : State.onlyIn L s₀ (effBenchTimeSend c ps0 ps1 x₀) := by
  refine State.onlyIn_step hL hF ?_
  unfold effBenchTimeSend
  try dsimp only
  repeat' first | with_reducible exact State.onlyIn_refl _ _ | with_reducible apply in_benchTimes | with_reducible apply in_ite | with_reducible apply in_ite2 | with_reducible rfl | exact .inl rfl | exact .inr rfl | rfl | with_reducible assumption | intro _ | (split <;> try (rename_i h; have e := congrArg Prod.snd h; dsimp only at e; subst e))

theorem in_effBenchTimeRx {L : List StPart} {s₀ x₀ : State} (c : ChanIx) (x : Fin 2) (bs : Bytes) (ps : ℕ) (residence : List ℕ) (hL : stPartsIn [.bench, .ch] L = true) (hF : State.onlyIn L s₀ x₀) : State.onlyIn L s₀ (effBenchTimeRx c x bs ps residence x₀) := by
  refine State.onlyIn_step hL hF ?_
  unfold effBenchTimeRx
  try dsimp only
  repeat' first | with_reducible exact State.onlyIn_refl _ _ | with_reducible apply in_timeRx | with_reducible apply in_ite | with_reducible apply in_ite2 | with_reducible rfl | exact .inl rfl | exact .inr rfl | rfl | with_reducible assumption | intro _ | (split <;> try (rename_i h; have e := congrArg Prod.snd h; dsimp only at e; subst e))

theorem in_effPeerSlotExpiry {L : List StPart} {s₀ x₀ : State} (c : ChanIx) (x : Fin 2) (i : Fin 32) (hL : stPartsIn [.ch] L = true) (hF : State.onlyIn L s₀ x₀) : State.onlyIn L s₀ (effPeerSlotExpiry c x i x₀) := by
  refine State.onlyIn_step hL hF ?_
  unfold effPeerSlotExpiry
  try dsimp only
  repeat' first | with_reducible exact State.onlyIn_refl _ _ | with_reducible apply in_onCh | with_reducible apply in_ite | with_reducible apply in_ite2 | with_reducible rfl | exact .inl rfl | exact .inr rfl | rfl | with_reducible assumption | intro _ | (split <;> try (rename_i h; have e := congrArg Prod.snd h; dsimp only at e; subst e))

theorem in_effEnsembleEvaluation {L : List StPart} {s₀ x₀ : State} (c : ChanIx) (x : Fin 2) (hL : stPartsIn [.ch] L = true) (hF : State.onlyIn L s₀ x₀) : State.onlyIn L s₀ (effEnsembleEvaluation c x x₀) := by
  refine State.onlyIn_step hL hF ?_
  unfold effEnsembleEvaluation
  try dsimp only
  repeat' first | with_reducible exact State.onlyIn_refl _ _ | with_reducible apply in_onCh | with_reducible apply in_ite | with_reducible apply in_ite2 | with_reducible rfl | exact .inl rfl | exact .inr rfl | rfl | with_reducible assumption | intro _ | (split <;> try (rename_i h; have e := congrArg Prod.snd h; dsimp only at e; subst e))

theorem in_effBenchCalDone {L : List StPart} {s₀ x₀ : State} (ab : List ℕ) (ba : List ℕ) (hL : stPartsIn [.hostif, .bench, .out] L = true) (hF : State.onlyIn L s₀ x₀) : State.onlyIn L s₀ (effBenchCalDone ab ba x₀) := by
  refine State.onlyIn_step hL hF ?_
  unfold effBenchCalDone
  try dsimp only
  repeat' first | with_reducible exact State.onlyIn_refl _ _ | with_reducible apply in_calDone | with_reducible apply in_ite | with_reducible apply in_ite2 | with_reducible rfl | exact .inl rfl | exact .inr rfl | rfl | with_reducible assumption | intro _ | (split <;> try (rename_i h; have e := congrArg Prod.snd h; dsimp only at e; subst e))

theorem in_effPmuCounterWrap {L : List StPart} {s₀ x₀ : State} (c : ChanIx) (smp : PmuSample) (hL : stPartsIn [.ch] L = true) (hF : State.onlyIn L s₀ x₀) : State.onlyIn L s₀ (effPmuCounterWrap c smp x₀) := by
  refine State.onlyIn_step hL hF ?_
  unfold effPmuCounterWrap
  try dsimp only
  repeat' first | with_reducible exact State.onlyIn_refl _ _ | with_reducible apply in_onCh | with_reducible apply in_ite | with_reducible apply in_ite2 | with_reducible rfl | exact .inl rfl | exact .inr rfl | rfl | with_reducible assumption | intro _ | (split <;> try (rename_i h; have e := congrArg Prod.snd h; dsimp only at e; subst e))

theorem in_effBwWindowEnd {L : List StPart} {s₀ x₀ : State} (c : ChanIx) (hL : stPartsIn [.ch] L = true) (hF : State.onlyIn L s₀ x₀) : State.onlyIn L s₀ (effBwWindowEnd c x₀) := by
  refine State.onlyIn_step hL hF ?_
  unfold effBwWindowEnd
  try dsimp only
  repeat' first | with_reducible exact State.onlyIn_refl _ _ | with_reducible apply in_onCh | with_reducible apply in_ite | with_reducible apply in_ite2 | with_reducible rfl | exact .inl rfl | exact .inr rfl | rfl | with_reducible assumption | intro _ | (split <;> try (rename_i h; have e := congrArg Prod.snd h; dsimp only at e; subst e))

theorem in_effTallyUpdateStart {L : List StPart} {s₀ x₀ : State} (hL : stPartsIn [.tally, .image] L = true) (hF : State.onlyIn L s₀ x₀) : State.onlyIn L s₀ (effTallyUpdateStart x₀) := by
  refine State.onlyIn_step hL hF ?_
  unfold effTallyUpdateStart
  try dsimp only
  repeat' first | with_reducible exact State.onlyIn_refl _ _ | with_reducible apply in_tallyTimed | with_reducible apply in_ite | with_reducible apply in_ite2 | with_reducible rfl | exact .inl rfl | exact .inr rfl | rfl | with_reducible assumption | intro _ | (split <;> try (rename_i h; have e := congrArg Prod.snd h; dsimp only at e; subst e))

theorem in_effTallyUpdateCommit {L : List StPart} {s₀ x₀ : State} (hL : stPartsIn [.hostif, .tally, .out] L = true) (hF : State.onlyIn L s₀ x₀) : State.onlyIn L s₀ (effTallyUpdateCommit x₀) := by
  refine State.onlyIn_step hL hF ?_
  unfold effTallyUpdateCommit
  try dsimp only
  repeat' first | with_reducible exact State.onlyIn_refl _ _ | with_reducible apply in_tallyCommit | with_reducible apply in_ite | with_reducible apply in_ite2 | with_reducible rfl | exact .inl rfl | exact .inr rfl | rfl | with_reducible assumption | intro _ | (split <;> try (rename_i h; have e := congrArg Prod.snd h; dsimp only at e; subst e))

theorem in_effPohSecondCount {L : List StPart} {s₀ x₀ : State} (tj : ℤ) (va : ℕ) (vb : ℕ) (hL : stPartsIn [.hostif, .cmdq, .fault, .vault, .book, .tally, .twin, .bench, .pwr, .image, .ch, .free, .out] L = true) (hF : State.onlyIn L s₀ x₀) : State.onlyIn L s₀ (effPohSecondCount tj va vb x₀) := by
  refine State.onlyIn_step hL hF ?_
  unfold effPohSecondCount
  try dsimp only
  repeat' first | with_reducible exact State.onlyIn_refl _ _ | with_reducible apply in_pohSecond | with_reducible apply in_ite | with_reducible apply in_ite2 | with_reducible rfl | exact .inl rfl | exact .inr rfl | rfl | with_reducible assumption | intro _ | (split <;> try (rename_i h; have e := congrArg Prod.snd h; dsimp only at e; subst e))

theorem in_effFaultDetection {L : List StPart} {s₀ x₀ : State} (n : Fin 512) (hL : stPartsIn [.hostif, .cmdq, .fault, .vault, .book, .tally, .twin, .bench, .pwr, .image, .ch, .free, .out] L = true) (hF : State.onlyIn L s₀ x₀) : State.onlyIn L s₀ (effFaultDetection n x₀) := by
  refine State.onlyIn_step hL hF ?_
  unfold effFaultDetection
  try dsimp only
  repeat' first | with_reducible exact State.onlyIn_refl _ _ | with_reducible apply in_detect | with_reducible apply in_ite | with_reducible apply in_ite2 | with_reducible rfl | exact .inl rfl | exact .inr rfl | rfl | with_reducible assumption | intro _ | (split <;> try (rename_i h; have e := congrArg Prod.snd h; dsimp only at e; subst e))

theorem in_effInjectedDetection {L : List StPart} {s₀ x₀ : State} (hL : stPartsIn [.hostif, .cmdq, .fault, .vault, .book, .tally, .twin, .bench, .pwr, .image, .ch, .free, .out] L = true) (hF : State.onlyIn L s₀ x₀) : State.onlyIn L s₀ (effInjectedDetection x₀) := by
  refine State.onlyIn_step hL hF ?_
  unfold effInjectedDetection
  try dsimp only
  repeat' first | with_reducible exact State.onlyIn_refl _ _ | with_reducible apply in_injDetect | with_reducible apply in_ite | with_reducible apply in_ite2 | with_reducible rfl | exact .inl rfl | exact .inr rfl | rfl | with_reducible assumption | intro _ | (split <;> try (rename_i h; have e := congrArg Prod.snd h; dsimp only at e; subst e))

theorem in_effInjectionNoCheckTimeout {L : List StPart} {s₀ x₀ : State} (hL : stPartsIn [.hostif, .fault, .out] L = true) (hF : State.onlyIn L s₀ x₀) : State.onlyIn L s₀ (effInjectionNoCheckTimeout x₀) := by
  refine State.onlyIn_step hL hF ?_
  unfold effInjectionNoCheckTimeout
  try dsimp only
  repeat' first | with_reducible exact State.onlyIn_refl _ _ | with_reducible apply in_injTimeout | with_reducible apply in_ite | with_reducible apply in_ite2 | with_reducible rfl | exact .inl rfl | exact .inr rfl | rfl | with_reducible assumption | intro _ | (split <;> try (rename_i h; have e := congrArg Prod.snd h; dsimp only at e; subst e))

theorem in_effClkGateForce {L : List StPart} {s₀ x₀ : State} (c : Option ChanIx) (blk : ℕ) (hL : stPartsIn [.hostif, .cmdq, .fault, .vault, .book, .tally, .twin, .bench, .clkgen, .pwr, .image, .ch, .free, .out] L = true) (hF : State.onlyIn L s₀ x₀) : State.onlyIn L s₀ (effClkGateForce c blk x₀) := by
  refine State.onlyIn_step hL hF ?_
  unfold effClkGateForce
  try dsimp only
  repeat' first | with_reducible exact State.onlyIn_refl _ _ | with_reducible apply in_gateForce | with_reducible apply in_ite | with_reducible apply in_ite2 | with_reducible rfl | exact .inl rfl | exact .inr rfl | rfl | with_reducible assumption | intro _ | (split <;> try (rename_i h; have e := congrArg Prod.snd h; dsimp only at e; subst e))

theorem in_effClkSwitchComplete {L : List StPart} {s₀ x₀ : State} (c : Option ChanIx) (blk : ℕ) (how : SwitchEnd) (hL : stPartsIn [.hostif, .cmdq, .fault, .vault, .book, .tally, .twin, .bench, .clkgen, .pwr, .image, .ch, .free, .out] L = true) (hF : State.onlyIn L s₀ x₀) : State.onlyIn L s₀ (effClkSwitchComplete c blk how x₀) := by
  refine State.onlyIn_step hL hF ?_
  unfold effClkSwitchComplete
  try dsimp only
  repeat' first | with_reducible exact State.onlyIn_refl _ _ | with_reducible apply in_switchComplete | with_reducible apply in_ite | with_reducible apply in_ite2 | with_reducible rfl | exact .inl rfl | exact .inr rfl | rfl | with_reducible assumption | intro _ | (split <;> try (rename_i h; have e := congrArg Prod.snd h; dsimp only at e; subst e))

theorem in_effSampleLinkFrame {L : List StPart} {s₀ x₀ : State} (c : ChanIx) (comma : Bool) (bs : Bytes) (hL : stPartsIn [.ch] L = true) (hF : State.onlyIn L s₀ x₀) : State.onlyIn L s₀ (effSampleLinkFrame c comma bs x₀) := by
  refine State.onlyIn_step hL hF ?_
  unfold effSampleLinkFrame
  try dsimp only
  repeat' first | with_reducible exact State.onlyIn_refl _ _ | with_reducible apply in_onCh | with_reducible apply in_ite | with_reducible apply in_ite2 | with_reducible rfl | exact .inl rfl | exact .inr rfl | rfl | with_reducible assumption | intro _ | (split <;> try (rename_i h; have e := congrArg Prod.snd h; dsimp only at e; subst e))

theorem in_effBackChannelMessage {L : List StPart} {s₀ x₀ : State} (c : ChanIx) (hL : stPartsIn [.ch] L = true) (hF : State.onlyIn L s₀ x₀) : State.onlyIn L s₀ (effBackChannelMessage c x₀) := by
  refine State.onlyIn_step hL hF ?_
  unfold effBackChannelMessage
  try dsimp only
  repeat' first | with_reducible exact State.onlyIn_refl _ _ | with_reducible apply in_onCh | with_reducible apply in_ite | with_reducible apply in_ite2 | with_reducible rfl | exact .inl rfl | exact .inr rfl | rfl | with_reducible assumption | intro _ | (split <;> try (rename_i h; have e := congrArg Prod.snd h; dsimp only at e; subst e))

theorem in_effBackChannelTimeout {L : List StPart} {s₀ x₀ : State} (c : ChanIx) (hL : stPartsIn [.ch] L = true) (hF : State.onlyIn L s₀ x₀) : State.onlyIn L s₀ (effBackChannelTimeout c x₀) := by
  refine State.onlyIn_step hL hF ?_
  unfold effBackChannelTimeout
  try dsimp only
  repeat' first | with_reducible exact State.onlyIn_refl _ _ | with_reducible apply in_onCh | with_reducible apply in_ite | with_reducible apply in_ite2 | with_reducible rfl | exact .inl rfl | exact .inr rfl | rfl | with_reducible assumption | intro _ | (split <;> try (rename_i h; have e := congrArg Prod.snd h; dsimp only at e; subst e))

theorem in_effTrkAssignment {L : List StPart} {s₀ x₀ : State} (c : ChanIx) (i : Fin 48) (gal : Bool) (sv : ℕ) (hL : stPartsIn [.ch] L = true) (hF : State.onlyIn L s₀ x₀) : State.onlyIn L s₀ (effTrkAssignment c i gal sv x₀) := by
  refine State.onlyIn_step hL hF ?_
  unfold effTrkAssignment
  try dsimp only
  repeat' first | with_reducible exact State.onlyIn_refl _ _ | with_reducible apply in_onCh | with_reducible apply in_ite | with_reducible apply in_ite2 | with_reducible rfl | exact .inl rfl | exact .inr rfl | rfl | with_reducible assumption | intro _ | (split <;> try (rename_i h; have e := congrArg Prod.snd h; dsimp only at e; subst e))

theorem in_effTrkDetection {L : List StPart} {s₀ x₀ : State} (c : ChanIx) (i : Fin 48) (hL : stPartsIn [.ch] L = true) (hF : State.onlyIn L s₀ x₀) : State.onlyIn L s₀ (effTrkDetection c i x₀) := by
  refine State.onlyIn_step hL hF ?_
  unfold effTrkDetection
  try dsimp only
  repeat' first | with_reducible exact State.onlyIn_refl _ _ | with_reducible apply in_onCh | with_reducible apply in_ite | with_reducible apply in_ite2 | with_reducible rfl | exact .inl rfl | exact .inr rfl | rfl | with_reducible assumption | intro _ | (split <;> try (rename_i h; have e := congrArg Prod.snd h; dsimp only at e; subst e))

theorem in_effTrkWindowExhausted {L : List StPart} {s₀ x₀ : State} (c : ChanIx) (i : Fin 48) (hL : stPartsIn [.ch] L = true) (hF : State.onlyIn L s₀ x₀) : State.onlyIn L s₀ (effTrkWindowExhausted c i x₀) := by
  refine State.onlyIn_step hL hF ?_
  unfold effTrkWindowExhausted
  try dsimp only
  repeat' first | with_reducible exact State.onlyIn_refl _ _ | with_reducible apply in_onCh | with_reducible apply in_ite | with_reducible apply in_ite2 | with_reducible rfl | exact .inl rfl | exact .inr rfl | rfl | with_reducible assumption | intro _ | (split <;> try (rename_i h; have e := congrArg Prod.snd h; dsimp only at e; subst e))

theorem in_effTrkReassignHoldoffEnd {L : List StPart} {s₀ x₀ : State} (c : ChanIx) (hL : stPartsIn [.ch] L = true) (hF : State.onlyIn L s₀ x₀) : State.onlyIn L s₀ (effTrkReassignHoldoffEnd c x₀) := by
  refine State.onlyIn_step hL hF ?_
  unfold effTrkReassignHoldoffEnd
  try dsimp only
  repeat' first | with_reducible exact State.onlyIn_refl _ _ | with_reducible apply in_onCh | with_reducible apply in_ite | with_reducible apply in_ite2 | with_reducible rfl | exact .inl rfl | exact .inr rfl | rfl | with_reducible assumption | intro _ | (split <;> try (rename_i h; have e := congrArg Prod.snd h; dsimp only at e; subst e))

theorem in_effTrkLock {L : List StPart} {s₀ x₀ : State} (c : ChanIx) (i : Fin 48) (hL : stPartsIn [.ch] L = true) (hF : State.onlyIn L s₀ x₀) : State.onlyIn L s₀ (effTrkLock c i x₀) := by
  refine State.onlyIn_step hL hF ?_
  unfold effTrkLock
  try dsimp only
  repeat' first | with_reducible exact State.onlyIn_refl _ _ | with_reducible apply in_onCh | with_reducible apply in_ite | with_reducible apply in_ite2 | with_reducible rfl | exact .inl rfl | exact .inr rfl | rfl | with_reducible assumption | intro _ | (split <;> try (rename_i h; have e := congrArg Prod.snd h; dsimp only at e; subst e))

theorem in_effTrkPullInTimeout {L : List StPart} {s₀ x₀ : State} (c : ChanIx) (i : Fin 48) (hL : stPartsIn [.ch] L = true) (hF : State.onlyIn L s₀ x₀) : State.onlyIn L s₀ (effTrkPullInTimeout c i x₀) := by
  refine State.onlyIn_step hL hF ?_
  unfold effTrkPullInTimeout
  try dsimp only
  repeat' first | with_reducible exact State.onlyIn_refl _ _ | with_reducible apply in_onCh | with_reducible apply in_ite | with_reducible apply in_ite2 | with_reducible rfl | exact .inl rfl | exact .inr rfl | rfl | with_reducible assumption | intro _ | (split <;> try (rename_i h; have e := congrArg Prod.snd h; dsimp only at e; subst e))

theorem in_effTrkLockLost {L : List StPart} {s₀ x₀ : State} (c : ChanIx) (i : Fin 48) (hL : stPartsIn [.ch] L = true) (hF : State.onlyIn L s₀ x₀) : State.onlyIn L s₀ (effTrkLockLost c i x₀) := by
  refine State.onlyIn_step hL hF ?_
  unfold effTrkLockLost
  try dsimp only
  repeat' first | with_reducible exact State.onlyIn_refl _ _ | with_reducible apply in_onCh | with_reducible apply in_ite | with_reducible apply in_ite2 | with_reducible rfl | exact .inl rfl | exact .inr rfl | rfl | with_reducible assumption | intro _ | (split <;> try (rename_i h; have e := congrArg Prod.snd h; dsimp only at e; subst e))

theorem in_effTrkLostTimeout {L : List StPart} {s₀ x₀ : State} (c : ChanIx) (i : Fin 48) (hL : stPartsIn [.ch] L = true) (hF : State.onlyIn L s₀ x₀) : State.onlyIn L s₀ (effTrkLostTimeout c i x₀) := by
  refine State.onlyIn_step hL hF ?_
  unfold effTrkLostTimeout
  try dsimp only
  repeat' first | with_reducible exact State.onlyIn_refl _ _ | with_reducible apply in_onCh | with_reducible apply in_ite | with_reducible apply in_ite2 | with_reducible rfl | exact .inl rfl | exact .inr rfl | rfl | with_reducible assumption | intro _ | (split <;> try (rename_i h; have e := congrArg Prod.snd h; dsimp only at e; subst e))

theorem in_effSidePeakGuard {L : List StPart} {s₀ x₀ : State} (c : ChanIx) (i : Fin 48) (late : Bool) (hL : stPartsIn [.ch] L = true) (hF : State.onlyIn L s₀ x₀) : State.onlyIn L s₀ (effSidePeakGuard c i late x₀) := by
  refine State.onlyIn_step hL hF ?_
  unfold effSidePeakGuard
  try dsimp only
  repeat' first | with_reducible exact State.onlyIn_refl _ _ | with_reducible apply in_onCh | with_reducible apply in_ite | with_reducible apply in_ite2 | with_reducible rfl | exact .inl rfl | exact .inr rfl | rfl | with_reducible assumption | intro _ | (split <;> try (rename_i h; have e := congrArg Prod.snd h; dsimp only at e; subst e))

theorem in_effNotchLock {L : List StPart} {s₀ x₀ : State} (c : ChanIx) (k : Fin 4) (lines : List (ℤ × ℕ)) (hL : stPartsIn [.ch] L = true) (hF : State.onlyIn L s₀ x₀) : State.onlyIn L s₀ (effNotchLock c k lines x₀) := by
  refine State.onlyIn_step hL hF ?_
  unfold effNotchLock
  try dsimp only
  repeat' first | with_reducible exact State.onlyIn_refl _ _ | with_reducible apply in_onCh | with_reducible apply in_ite | with_reducible apply in_ite2 | with_reducible rfl | exact .inl rfl | exact .inr rfl | rfl | with_reducible assumption | intro _ | (split <;> try (rename_i h; have e := congrArg Prod.snd h; dsimp only at e; subst e))

theorem in_effNotchRelease {L : List StPart} {s₀ x₀ : State} (c : ChanIx) (v : NotchView) (hL : stPartsIn [.ch] L = true) (hF : State.onlyIn L s₀ x₀) : State.onlyIn L s₀ (effNotchRelease c v x₀) := by
  refine State.onlyIn_step hL hF ?_
  unfold effNotchRelease
  try dsimp only
  repeat' first | with_reducible exact State.onlyIn_refl _ _ | with_reducible apply in_onCh | with_reducible apply in_ite | with_reducible apply in_ite2 | with_reducible rfl | exact .inl rfl | exact .inr rfl | rfl | with_reducible assumption | intro _ | (split <;> try (rename_i h; have e := congrArg Prod.snd h; dsimp only at e; subst e))

theorem in_effJniUpdate {L : List StPart} {s₀ x₀ : State} (c : ChanIx) (idle : Byte) (pq : ℕ) (hL : stPartsIn [.ch] L = true) (hF : State.onlyIn L s₀ x₀) : State.onlyIn L s₀ (effJniUpdate c idle pq x₀) := by
  refine State.onlyIn_step hL hF ?_
  unfold effJniUpdate
  try dsimp only
  repeat' first | with_reducible exact State.onlyIn_refl _ _ | with_reducible apply in_onCh | with_reducible apply in_ite | with_reducible apply in_ite2 | with_reducible rfl | exact .inl rfl | exact .inr rfl | rfl | with_reducible assumption | intro _ | (split <;> try (rename_i h; have e := congrArg Prod.snd h; dsimp only at e; subst e))

theorem in_effJamFloorCaptureEnd {L : List StPart} {s₀ x₀ : State} (c : ChanIx) (idle : Byte) (hL : stPartsIn [.ch] L = true) (hF : State.onlyIn L s₀ x₀) : State.onlyIn L s₀ (effJamFloorCaptureEnd c idle x₀) := by
  refine State.onlyIn_step hL hF ?_
  unfold effJamFloorCaptureEnd
  try dsimp only
  repeat' first | with_reducible exact State.onlyIn_refl _ _ | with_reducible apply in_onCh | with_reducible apply in_ite | with_reducible apply in_ite2 | with_reducible rfl | exact .inl rfl | exact .inr rfl | rfl | with_reducible assumption | intro _ | (split <;> try (rename_i h; have e := congrArg Prod.snd h; dsimp only at e; subst e))

theorem in_effSurveyFix {L : List StPart} {s₀ x₀ : State} (c : ChanIx) (x : ℤ) (y : ℤ) (z : ℤ) (hL : stPartsIn [.cmdq, .ch] L = true) (hF : State.onlyIn L s₀ x₀) : State.onlyIn L s₀ (effSurveyFix c x y z x₀) := by
  refine State.onlyIn_step hL hF ?_
  unfold effSurveyFix
  try dsimp only
  repeat' first | with_reducible exact State.onlyIn_refl _ _ | with_reducible apply in_chanProgress | with_reducible apply in_onCh | with_reducible apply in_ite | with_reducible apply in_ite2 | with_reducible rfl | exact .inl rfl | exact .inr rfl | rfl | with_reducible assumption | intro _ | (split <;> try (rename_i h; have e := congrArg Prod.snd h; dsimp only at e; subst e))

theorem in_effGnssEpochSample {L : List StPart} {s₀ x₀ : State} (c : ChanIx) (ms : List SatMeas) (hL : stPartsIn [.ch] L = true) (hF : State.onlyIn L s₀ x₀) : State.onlyIn L s₀ (effGnssEpochSample c ms x₀) := by
  refine State.onlyIn_step hL hF ?_
  unfold effGnssEpochSample
  try dsimp only
  repeat' first | with_reducible exact State.onlyIn_refl _ _ | with_reducible apply in_onCh | with_reducible apply in_ite | with_reducible apply in_ite2 | with_reducible rfl | exact .inl rfl | exact .inr rfl | rfl | with_reducible assumption | intro _ | (split <;> try (rename_i h; have e := congrArg Prod.snd h; dsimp only at e; subst e))

theorem in_effGnssL8Record {L : List StPart} {s₀ x₀ : State} (c : ChanIx) (hL : stPartsIn [.ch] L = true) (hF : State.onlyIn L s₀ x₀) : State.onlyIn L s₀ (effGnssL8Record c x₀) := by
  refine State.onlyIn_step hL hF ?_
  unfold effGnssL8Record
  try dsimp only
  repeat' first | with_reducible exact State.onlyIn_refl _ _ | with_reducible apply in_beginTick | with_reducible apply in_onCh | with_reducible apply in_ite | with_reducible apply in_ite2 | with_reducible rfl | exact .inl rfl | exact .inr rfl | rfl | with_reducible assumption | intro _ | (split <;> try (rename_i h; have e := congrArg Prod.snd h; dsimp only at e; subst e))

theorem in_effSnapCaptureStart {L : List StPart} {s₀ x₀ : State} (c : ChanIx) (ps : ℕ) (hL : stPartsIn [.ch] L = true) (hF : State.onlyIn L s₀ x₀) : State.onlyIn L s₀ (effSnapCaptureStart c ps x₀) := by
  refine State.onlyIn_step hL hF ?_
  unfold effSnapCaptureStart
  try dsimp only
  repeat' first | with_reducible exact State.onlyIn_refl _ _ | with_reducible apply in_onCh | with_reducible apply in_ite | with_reducible apply in_ite2 | with_reducible rfl | exact .inl rfl | exact .inr rfl | rfl | with_reducible assumption | intro _ | (split <;> try (rename_i h; have e := congrArg Prod.snd h; dsimp only at e; subst e))

theorem in_effSnapCaptureComplete {L : List StPart} {s₀ x₀ : State} (c : ChanIx) (hL : stPartsIn [.ch] L = true) (hF : State.onlyIn L s₀ x₀) : State.onlyIn L s₀ (effSnapCaptureComplete c x₀) := by
  refine State.onlyIn_step hL hF ?_
  unfold effSnapCaptureComplete
  try dsimp only
  repeat' first | with_reducible exact State.onlyIn_refl _ _ | with_reducible apply in_onCh | with_reducible apply in_ite | with_reducible apply in_ite2 | with_reducible rfl | exact .inl rfl | exact .inr rfl | rfl | with_reducible assumption | intro _ | (split <;> try (rename_i h; have e := congrArg Prod.snd h; dsimp only at e; subst e))

theorem in_effCmdSnapshotProcessing {L : List StPart} {s₀ x₀ : State} (slot : Fin 64) (ms : List SatMeas) (hL : stPartsIn [.ch] L = true) (hF : State.onlyIn L s₀ x₀) : State.onlyIn L s₀ (effCmdSnapshotProcessing slot ms x₀) := by
  refine State.onlyIn_step hL hF ?_
  unfold effCmdSnapshotProcessing
  try dsimp only
  repeat' first | with_reducible exact State.onlyIn_refl _ _ | with_reducible apply in_snapCmd | with_reducible apply in_ite | with_reducible apply in_ite2 | with_reducible rfl | exact .inl rfl | exact .inr rfl | rfl | with_reducible assumption | intro _ | (split <;> try (rename_i h; have e := congrArg Prod.snd h; dsimp only at e; subst e))

theorem in_effCmdGnssSurvey {L : List StPart} {s₀ x₀ : State} (slot : Fin 64) (hL : stPartsIn [.cmdq, .ch] L = true) (hF : State.onlyIn L s₀ x₀) : State.onlyIn L s₀ (effCmdGnssSurvey slot x₀) := by
  refine State.onlyIn_step hL hF ?_
  unfold effCmdGnssSurvey
  try dsimp only
  repeat' first | with_reducible exact State.onlyIn_refl _ _ | with_reducible apply in_surveyCmd | with_reducible apply in_ite | with_reducible apply in_ite2 | with_reducible rfl | exact .inl rfl | exact .inr rfl | rfl | with_reducible assumption | intro _ | (split <;> try (rename_i h; have e := congrArg Prod.snd h; dsimp only at e; subst e))

theorem in_effNavigationDataDecoded {L : List StPart} {s₀ x₀ : State} (c : ChanIx) (i : Fin 48) (d : NavData) (hL : stPartsIn [.ch] L = true) (hF : State.onlyIn L s₀ x₀) : State.onlyIn L s₀ (effNavigationDataDecoded c i d x₀) := by
  refine State.onlyIn_step hL hF ?_
  unfold effNavigationDataDecoded
  try dsimp only
  repeat' first | with_reducible exact State.onlyIn_refl _ _ | with_reducible apply in_onCh | with_reducible apply in_ite | with_reducible apply in_ite2 | with_reducible rfl | exact .inl rfl | exact .inr rfl | rfl | with_reducible assumption | intro _ | (split <;> try (rename_i h; have e := congrArg Prod.snd h; dsimp only at e; subst e))

theorem in_effCmdImageLoadStage {L : List StPart} {s₀ x₀ : State} (slot : Fin 64) (data : Option Bytes) (hL : stPartsIn [.hostif, .cmdq, .vault, .book, .twin, .bench, .pwr, .image, .ch, .free, .out] L = true) (hF : State.onlyIn L s₀ x₀) : State.onlyIn L s₀ (effCmdImageLoadStage slot data x₀) := by
  refine State.onlyIn_step hL hF ?_
  unfold effCmdImageLoadStage
  try dsimp only
  repeat' first | with_reducible exact State.onlyIn_refl _ _ | with_reducible apply in_loadCmd | with_reducible apply in_ite | with_reducible apply in_ite2 | with_reducible rfl | exact .inl rfl | exact .inr rfl | rfl | with_reducible assumption | intro _ | (split <;> try (rename_i h; have e := congrArg Prod.snd h; dsimp only at e; subst e))

theorem in_effCmdImageLoadRun {L : List StPart} {s₀ x₀ : State} (slot : Fin 64) (data : Option Bytes) (hL : stPartsIn [.hostif, .cmdq, .vault, .book, .twin, .bench, .pwr, .image, .ch, .free, .out] L = true) (hF : State.onlyIn L s₀ x₀) : State.onlyIn L s₀ (effCmdImageLoadRun slot data x₀) := by
  refine State.onlyIn_step hL hF ?_
  unfold effCmdImageLoadRun
  try dsimp only
  repeat' first | with_reducible exact State.onlyIn_refl _ _ | with_reducible apply in_loadCmd | with_reducible apply in_ite | with_reducible apply in_ite2 | with_reducible rfl | exact .inl rfl | exact .inr rfl | rfl | with_reducible assumption | intro _ | (split <;> try (rename_i h; have e := congrArg Prod.snd h; dsimp only at e; subst e))

theorem in_effCmdImageLoadDevice {L : List StPart} {s₀ x₀ : State} (slot : Fin 64) (images : Option (List (Option Bytes))) (hL : stPartsIn [.hostif, .cmdq, .pwr, .image, .out] L = true) (hF : State.onlyIn L s₀ x₀) : State.onlyIn L s₀ (effCmdImageLoadDevice slot images x₀) := by
  refine State.onlyIn_step hL hF ?_
  unfold effCmdImageLoadDevice
  try dsimp only
  repeat' first | with_reducible exact State.onlyIn_refl _ _ | with_reducible apply in_deviceCmd | with_reducible apply in_ite | with_reducible apply in_ite2 | with_reducible rfl | exact .inl rfl | exact .inr rfl | rfl | with_reducible assumption | intro _ | (split <;> try (rename_i h; have e := congrArg Prod.snd h; dsimp only at e; subst e))

theorem in_effReconfigEntry {L : List StPart} {s₀ x₀ : State} (c : ChanIx) (hL : stPartsIn [.hostif, .cmdq, .vault, .book, .twin, .bench, .pwr, .image, .ch, .free, .out] L = true) (hF : State.onlyIn L s₀ x₀) : State.onlyIn L s₀ (effReconfigEntry c x₀) := by
  refine State.onlyIn_step hL hF ?_
  unfold effReconfigEntry
  try dsimp only
  repeat' first | with_reducible exact State.onlyIn_refl _ _ | with_reducible apply in_reconfigEnter | with_reducible apply in_ite | with_reducible apply in_ite2 | with_reducible rfl | exact .inl rfl | exact .inr rfl | rfl | with_reducible assumption | intro _ | (split <;> try (rename_i h; have e := congrArg Prod.snd h; dsimp only at e; subst e))

theorem in_effReconfigApplyComplete {L : List StPart} {s₀ x₀ : State} (c : ChanIx) (hL : stPartsIn [.hostif, .cmdq, .fault, .vault, .book, .tally, .twin, .bench, .pwr, .image, .ch, .free, .out] L = true) (hF : State.onlyIn L s₀ x₀) : State.onlyIn L s₀ (effReconfigApplyComplete c x₀) := by
  refine State.onlyIn_step hL hF ?_
  unfold effReconfigApplyComplete
  try dsimp only
  repeat' first | with_reducible exact State.onlyIn_refl _ _ | with_reducible apply in_applyComplete | with_reducible apply in_ite | with_reducible apply in_ite2 | with_reducible rfl | exact .inl rfl | exact .inr rfl | rfl | with_reducible assumption | intro _ | (split <;> try (rename_i h; have e := congrArg Prod.snd h; dsimp only at e; subst e))

theorem in_effChannelPowerDownDone {L : List StPart} {s₀ x₀ : State} (c : ChanIx) (hL : stPartsIn [.hostif, .clkgen, .pwr, .image, .out] L = true) (hF : State.onlyIn L s₀ x₀) : State.onlyIn L s₀ (effChannelPowerDownDone c x₀) := by
  refine State.onlyIn_step hL hF ?_
  unfold effChannelPowerDownDone
  try dsimp only
  repeat' first | with_reducible exact State.onlyIn_refl _ _ | with_reducible apply in_powerDownDone | with_reducible apply in_ite | with_reducible apply in_ite2 | with_reducible rfl | exact .inl rfl | exact .inr rfl | rfl | with_reducible assumption | intro _ | (split <;> try (rename_i h; have e := congrArg Prod.snd h; dsimp only at e; subst e))

theorem in_effChannelPowerUpDone {L : List StPart} {s₀ x₀ : State} (c : ChanIx) (hL : stPartsIn [.hostif, .cmdq, .vault, .book, .twin, .bench, .pwr, .image, .ch, .free, .out] L = true) (hF : State.onlyIn L s₀ x₀) : State.onlyIn L s₀ (effChannelPowerUpDone c x₀) := by
  refine State.onlyIn_step hL hF ?_
  unfold effChannelPowerUpDone
  try dsimp only
  repeat' first | with_reducible exact State.onlyIn_refl _ _ | with_reducible apply in_powerUpDone | with_reducible apply in_ite | with_reducible apply in_ite2 | with_reducible rfl | exact .inl rfl | exact .inr rfl | rfl | with_reducible assumption | intro _ | (split <;> try (rename_i h; have e := congrArg Prod.snd h; dsimp only at e; subst e))

theorem in_effKumCommitPoint {L : List StPart} {s₀ x₀ : State} (written : Bool) (hL : stPartsIn [.hostif, .vault, .book, .tally, .pwr, .ch, .free, .out] L = true) (hF : State.onlyIn L s₀ x₀) : State.onlyIn L s₀ (effKumCommitPoint written x₀) := by
  refine State.onlyIn_step hL hF ?_
  unfold effKumCommitPoint
  try dsimp only
  repeat' first | with_reducible exact State.onlyIn_refl _ _ | with_reducible apply in_kumPoint | with_reducible apply in_ite | with_reducible apply in_ite2 | with_reducible rfl | exact .inl rfl | exact .inr rfl | rfl | with_reducible assumption | intro _ | (split <;> try (rename_i h; have e := congrArg Prod.snd h; dsimp only at e; subst e))

theorem in_effAttestationQuoteDone {L : List StPart} {s₀ x₀ : State} (hL : stPartsIn [.hostif, .vault, .out] L = true) (hF : State.onlyIn L s₀ x₀) : State.onlyIn L s₀ (effAttestationQuoteDone x₀) := by
  refine State.onlyIn_step hL hF ?_
  unfold effAttestationQuoteDone
  try dsimp only
  repeat' first | with_reducible exact State.onlyIn_refl _ _ | with_reducible apply in_quoteDone | with_reducible apply in_ite | with_reducible apply in_ite2 | with_reducible rfl | exact .inl rfl | exact .inr rfl | rfl | with_reducible assumption | intro _ | (split <;> try (rename_i h; have e := congrArg Prod.snd h; dsimp only at e; subst e))

theorem in_effCmdKeyBatch {L : List StPart} {s₀ x₀ : State} (slot : Fin 64) (kums : Option (List Bytes)) (hL : stPartsIn [.hostif, .cmdq, .vault, .book, .tally, .pwr, .ch, .free, .out] L = true) (hF : State.onlyIn L s₀ x₀) : State.onlyIn L s₀ (effCmdKeyBatch slot kums x₀) := by
  refine State.onlyIn_step hL hF ?_
  unfold effCmdKeyBatch
  try dsimp only
  repeat' first | with_reducible exact State.onlyIn_refl _ _ | with_reducible apply in_keyBatch | with_reducible apply in_ite | with_reducible apply in_ite2 | with_reducible rfl | exact .inl rfl | exact .inr rfl | rfl | with_reducible assumption | intro _ | (split <;> try (rename_i h; have e := congrArg Prod.snd h; dsimp only at e; subst e))

theorem in_effTamperSample {L : List StPart} {s₀ x₀ : State} (t : TamperIn) (hL : stPartsIn [.hostif, .cmdq, .fault, .vault, .book, .tally, .twin, .bench, .pwr, .image, .ch, .free, .out] L = true) (hF : State.onlyIn L s₀ x₀) : State.onlyIn L s₀ (effTamperSample t x₀) := by
  refine State.onlyIn_step hL hF ?_
  unfold effTamperSample
  try dsimp only
  repeat' first | with_reducible exact State.onlyIn_refl _ _ | with_reducible apply in_tamperSample | with_reducible apply in_ite | with_reducible apply in_ite2 | with_reducible rfl | exact .inl rfl | exact .inr rfl | rfl | with_reducible assumption | intro _ | (split <;> try (rename_i h; have e := congrArg Prod.snd h; dsimp only at e; subst e))

theorem in_effRefinEdge {L : List StPart} {s₀ x₀ : State} (c : ChanIx) (n : LaneIx) (ps : ℕ) (hL : stPartsIn [.ch] L = true) (hF : State.onlyIn L s₀ x₀) : State.onlyIn L s₀ (effRefinEdge c n ps x₀) := by
  refine State.onlyIn_step hL hF ?_
  unfold effRefinEdge
  try dsimp only
  repeat' first | with_reducible exact State.onlyIn_refl _ _ | with_reducible apply in_onCh | with_reducible apply in_ite | with_reducible apply in_ite2 | with_reducible rfl | exact .inl rfl | exact .inr rfl | rfl | with_reducible assumption | intro _ | (split <;> try (rename_i h; have e := congrArg Prod.snd h; dsimp only at e; subst e))

theorem in_effTodSentenceRx {L : List StPart} {s₀ x₀ : State} (c : ChanIx) (k : Fin 2) (bs : Bytes) (ago : ℕ) (hL : stPartsIn [.ch] L = true) (hF : State.onlyIn L s₀ x₀) : State.onlyIn L s₀ (effTodSentenceRx c k bs ago x₀) := by
  refine State.onlyIn_step hL hF ?_
  unfold effTodSentenceRx
  try dsimp only
  repeat' first | with_reducible exact State.onlyIn_refl _ _ | with_reducible apply in_onCh | with_reducible apply in_ite | with_reducible apply in_ite2 | with_reducible rfl | exact .inl rfl | exact .inr rfl | rfl | with_reducible assumption | intro _ | (split <;> try (rename_i h; have e := congrArg Prod.snd h; dsimp only at e; subst e))

theorem in_effTodSentenceWindowEnd {L : List StPart} {s₀ x₀ : State} (c : ChanIx) (n : LaneIx) (hL : stPartsIn [.ch] L = true) (hF : State.onlyIn L s₀ x₀) : State.onlyIn L s₀ (effTodSentenceWindowEnd c n x₀) := by
  refine State.onlyIn_step hL hF ?_
  unfold effTodSentenceWindowEnd
  try dsimp only
  repeat' first | with_reducible exact State.onlyIn_refl _ _ | with_reducible apply in_beginTick | with_reducible apply in_onCh | with_reducible apply in_ite | with_reducible apply in_ite2 | with_reducible rfl | exact .inl rfl | exact .inr rfl | rfl | with_reducible assumption | intro _ | (split <;> try (rename_i h; have e := congrArg Prod.snd h; dsimp only at e; subst e))

theorem in_effFreqRecordBoundary {L : List StPart} {s₀ x₀ : State} (c : ChanIx) (n : LaneIx) (freq : ℤ) (off : ℤ) (hL : stPartsIn [.ch] L = true) (hF : State.onlyIn L s₀ x₀) : State.onlyIn L s₀ (effFreqRecordBoundary c n freq off x₀) := by
  refine State.onlyIn_step hL hF ?_
  unfold effFreqRecordBoundary
  try dsimp only
  repeat' first | with_reducible exact State.onlyIn_refl _ _ | with_reducible apply in_onCh | with_reducible apply in_ite | with_reducible apply in_ite2 | with_reducible rfl | exact .inl rfl | exact .inr rfl | rfl | with_reducible assumption | intro _ | (split <;> try (rename_i h; have e := congrArg Prod.snd h; dsimp only at e; subst e))

theorem in_effLaneMissTimerExpiry {L : List StPart} {s₀ x₀ : State} (c : ChanIx) (n : LaneIx) (hL : stPartsIn [.ch] L = true) (hF : State.onlyIn L s₀ x₀) : State.onlyIn L s₀ (effLaneMissTimerExpiry c n x₀) := by
  refine State.onlyIn_step hL hF ?_
  unfold effLaneMissTimerExpiry
  try dsimp only
  repeat' first | with_reducible exact State.onlyIn_refl _ _ | with_reducible apply in_onCh | with_reducible apply in_ite | with_reducible apply in_ite2 | with_reducible rfl | exact .inl rfl | exact .inr rfl | rfl | with_reducible assumption | intro _ | (split <;> try (rename_i h; have e := congrArg Prod.snd h; dsimp only at e; subst e))

theorem in_effQualWindowExpiry {L : List StPart} {s₀ x₀ : State} (c : ChanIx) (n : LaneIx) (hL : stPartsIn [.ch] L = true) (hF : State.onlyIn L s₀ x₀) : State.onlyIn L s₀ (effQualWindowExpiry c n x₀) := by
  refine State.onlyIn_step hL hF ?_
  unfold effQualWindowExpiry
  try dsimp only
  repeat' first | with_reducible exact State.onlyIn_refl _ _ | with_reducible apply in_onCh | with_reducible apply in_ite | with_reducible apply in_ite2 | with_reducible rfl | exact .inl rfl | exact .inr rfl | rfl | with_reducible assumption | intro _ | (split <;> try (rename_i h; have e := congrArg Prod.snd h; dsimp only at e; subst e))

theorem in_effWtrExpiry {L : List StPart} {s₀ x₀ : State} (c : ChanIx) (n : LaneIx) (hL : stPartsIn [.ch] L = true) (hF : State.onlyIn L s₀ x₀) : State.onlyIn L s₀ (effWtrExpiry c n x₀) := by
  refine State.onlyIn_step hL hF ?_
  unfold effWtrExpiry
  try dsimp only
  repeat' first | with_reducible exact State.onlyIn_refl _ _ | with_reducible apply in_onCh | with_reducible apply in_ite | with_reducible apply in_ite2 | with_reducible rfl | exact .inl rfl | exact .inr rfl | rfl | with_reducible assumption | intro _ | (split <;> try (rename_i h; have e := congrArg Prod.snd h; dsimp only at e; subst e))

theorem in_effDqHoldExpiry {L : List StPart} {s₀ x₀ : State} (c : ChanIx) (n : LaneIx) (hL : stPartsIn [.ch] L = true) (hF : State.onlyIn L s₀ x₀) : State.onlyIn L s₀ (effDqHoldExpiry c n x₀) := by
  refine State.onlyIn_step hL hF ?_
  unfold effDqHoldExpiry
  try dsimp only
  repeat' first | with_reducible exact State.onlyIn_refl _ _ | with_reducible apply in_onCh | with_reducible apply in_ite | with_reducible apply in_ite2 | with_reducible rfl | exact .inl rfl | exact .inr rfl | rfl | with_reducible assumption | intro _ | (split <;> try (rename_i h; have e := congrArg Prod.snd h; dsimp only at e; subst e))

theorem in_effUtcAnnouncement {L : List StPart} {s₀ x₀ : State} (c : ChanIx) (n : LaneIx) (a : UtcAnn) (hL : stPartsIn [.ch] L = true) (hF : State.onlyIn L s₀ x₀) : State.onlyIn L s₀ (effUtcAnnouncement c n a x₀) := by
  refine State.onlyIn_step hL hF ?_
  unfold effUtcAnnouncement
  try dsimp only
  repeat' first | with_reducible exact State.onlyIn_refl _ _ | with_reducible apply in_onCh | with_reducible apply in_ite | with_reducible apply in_ite2 | with_reducible rfl | exact .inl rfl | exact .inr rfl | rfl | with_reducible assumption | intro _ | (split <;> try (rename_i h; have e := congrArg Prod.snd h; dsimp only at e; subst e))

theorem in_effLinkAnComplete {L : List StPart} {s₀ x₀ : State} (c : ChanIx) (p : PortIx) (peer : ℕ) (rs : Bool) (br : Bool) (hL : stPartsIn [.ch] L = true) (hF : State.onlyIn L s₀ x₀) : State.onlyIn L s₀ (effLinkAnComplete c p peer rs br x₀) := by
  refine State.onlyIn_step hL hF ?_
  unfold effLinkAnComplete
  try dsimp only
  repeat' first | with_reducible exact State.onlyIn_refl _ _ | with_reducible apply in_onCh | with_reducible apply in_ite | with_reducible apply in_ite2 | with_reducible rfl | exact .inl rfl | exact .inr rfl | rfl | with_reducible assumption | intro _ | (split <;> try (rename_i h; have e := congrArg Prod.snd h; dsimp only at e; subst e))

theorem in_effLinkTrainingComplete {L : List StPart} {s₀ x₀ : State} (c : ChanIx) (p : PortIx) (hL : stPartsIn [.ch] L = true) (hF : State.onlyIn L s₀ x₀) : State.onlyIn L s₀ (effLinkTrainingComplete c p x₀) := by
  refine State.onlyIn_step hL hF ?_
  unfold effLinkTrainingComplete
  try dsimp only
  repeat' first | with_reducible exact State.onlyIn_refl _ _ | with_reducible apply in_onCh | with_reducible apply in_ite | with_reducible apply in_ite2 | with_reducible rfl | exact .inl rfl | exact .inr rfl | rfl | with_reducible assumption | intro _ | (split <;> try (rename_i h; have e := congrArg Prod.snd h; dsimp only at e; subst e))

theorem in_effLinkTrainingTimeout {L : List StPart} {s₀ x₀ : State} (c : ChanIx) (p : PortIx) (hL : stPartsIn [.ch] L = true) (hF : State.onlyIn L s₀ x₀) : State.onlyIn L s₀ (effLinkTrainingTimeout c p x₀) := by
  refine State.onlyIn_step hL hF ?_
  unfold effLinkTrainingTimeout
  try dsimp only
  repeat' first | with_reducible exact State.onlyIn_refl _ _ | with_reducible apply in_onCh | with_reducible apply in_ite | with_reducible apply in_ite2 | with_reducible rfl | exact .inl rfl | exact .inr rfl | rfl | with_reducible assumption | intro _ | (split <;> try (rename_i h; have e := congrArg Prod.snd h; dsimp only at e; subst e))

theorem in_effLinkAlignLock {L : List StPart} {s₀ x₀ : State} (c : ChanIx) (p : PortIx) (vI : ℤ) (vE : ℤ) (hL : stPartsIn [.ch] L = true) (hF : State.onlyIn L s₀ x₀) : State.onlyIn L s₀ (effLinkAlignLock c p vI vE x₀) := by
  refine State.onlyIn_step hL hF ?_
  unfold effLinkAlignLock
  try dsimp only
  repeat' first | with_reducible exact State.onlyIn_refl _ _ | with_reducible apply in_onCh | with_reducible apply in_ite | with_reducible apply in_ite2 | with_reducible rfl | exact .inl rfl | exact .inr rfl | rfl | with_reducible assumption | intro _ | (split <;> try (rename_i h; have e := congrArg Prod.snd h; dsimp only at e; subst e))

theorem in_effLinkAlignTimeout {L : List StPart} {s₀ x₀ : State} (c : ChanIx) (p : PortIx) (hL : stPartsIn [.ch] L = true) (hF : State.onlyIn L s₀ x₀) : State.onlyIn L s₀ (effLinkAlignTimeout c p x₀) := by
  refine State.onlyIn_step hL hF ?_
  unfold effLinkAlignTimeout
  try dsimp only
  repeat' first | with_reducible exact State.onlyIn_refl _ _ | with_reducible apply in_onCh | with_reducible apply in_ite | with_reducible apply in_ite2 | with_reducible rfl | exact .inl rfl | exact .inr rfl | rfl | with_reducible assumption | intro _ | (split <;> try (rename_i h; have e := congrArg Prod.snd h; dsimp only at e; subst e))

theorem in_effLinkLoss {L : List StPart} {s₀ x₀ : State} (c : ChanIx) (p : PortIx) (hL : stPartsIn [.ch] L = true) (hF : State.onlyIn L s₀ x₀) : State.onlyIn L s₀ (effLinkLoss c p x₀) := by
  refine State.onlyIn_step hL hF ?_
  unfold effLinkLoss
  try dsimp only
  repeat' first | with_reducible exact State.onlyIn_refl _ _ | with_reducible apply in_onCh | with_reducible apply in_ite | with_reducible apply in_ite2 | with_reducible rfl | exact .inl rfl | exact .inr rfl | rfl | with_reducible assumption | intro _ | (split <;> try (rename_i h; have e := congrArg Prod.snd h; dsimp only at e; subst e))

theorem in_effPauseFrameRx {L : List StPart} {s₀ x₀ : State} (c : ChanIx) (p : PortIx) (len : ℕ) (hL : stPartsIn [.ch] L = true) (hF : State.onlyIn L s₀ x₀) : State.onlyIn L s₀ (effPauseFrameRx c p len x₀) := by
  refine State.onlyIn_step hL hF ?_
  unfold effPauseFrameRx
  try dsimp only
  repeat' first | with_reducible exact State.onlyIn_refl _ _ | with_reducible apply in_onCh | with_reducible apply in_ite | with_reducible apply in_ite2 | with_reducible rfl | exact .inl rfl | exact .inr rfl | rfl | with_reducible assumption | intro _ | (split <;> try (rename_i h; have e := congrArg Prod.snd h; dsimp only at e; subst e))

theorem in_effOversizeFrameRx {L : List StPart} {s₀ x₀ : State} (c : ChanIx) (p : PortIx) (len : ℕ) (hL : stPartsIn [.ch] L = true) (hF : State.onlyIn L s₀ x₀) : State.onlyIn L s₀ (effOversizeFrameRx c p len x₀) := by
  refine State.onlyIn_step hL hF ?_
  unfold effOversizeFrameRx
  try dsimp only
  repeat' first | with_reducible exact State.onlyIn_refl _ _ | with_reducible apply in_onCh | with_reducible apply in_ite | with_reducible apply in_ite2 | with_reducible rfl | exact .inl rfl | exact .inr rfl | rfl | with_reducible assumption | intro _ | (split <;> try (rename_i h; have e := congrArg Prod.snd h; dsimp only at e; subst e))

theorem in_effSynceRecord {L : List StPart} {s₀ x₀ : State} (c : ChanIx) (p : PortIx) (freq : ℤ) (off : ℤ) (hL : stPartsIn [.ch] L = true) (hF : State.onlyIn L s₀ x₀) : State.onlyIn L s₀ (effSynceRecord c p freq off x₀) := by
  refine State.onlyIn_step hL hF ?_
  unfold effSynceRecord
  try dsimp only
  repeat' first | with_reducible exact State.onlyIn_refl _ _ | with_reducible apply in_onCh | with_reducible apply in_ite | with_reducible apply in_ite2 | with_reducible rfl | exact .inl rfl | exact .inr rfl | rfl | with_reducible assumption | intro _ | (split <;> try (rename_i h; have e := congrArg Prod.snd h; dsimp only at e; subst e))

theorem in_effEsmcPduRx {L : List StPart} {s₀ x₀ : State} (c : ChanIx) (p : PortIx) (ql : ℕ) (len : ℕ) (hL : stPartsIn [.ch] L = true) (hF : State.onlyIn L s₀ x₀) : State.onlyIn L s₀ (effEsmcPduRx c p ql len x₀) := by
  refine State.onlyIn_step hL hF ?_
  unfold effEsmcPduRx
  try dsimp only
  repeat' first | with_reducible exact State.onlyIn_refl _ _ | with_reducible apply in_onCh | with_reducible apply in_ite | with_reducible apply in_ite2 | with_reducible rfl | exact .inl rfl | exact .inr rfl | rfl | with_reducible assumption | intro _ | (split <;> try (rename_i h; have e := congrArg Prod.snd h; dsimp only at e; subst e))

theorem in_effEsmcQlLostExpiry {L : List StPart} {s₀ x₀ : State} (c : ChanIx) (p : PortIx) (hL : stPartsIn [.ch] L = true) (hF : State.onlyIn L s₀ x₀) : State.onlyIn L s₀ (effEsmcQlLostExpiry c p x₀) := by
  refine State.onlyIn_step hL hF ?_
  unfold effEsmcQlLostExpiry
  try dsimp only
  repeat' first | with_reducible exact State.onlyIn_refl _ _ | with_reducible apply in_onCh | with_reducible apply in_ite | with_reducible apply in_ite2 | with_reducible rfl | exact .inl rfl | exact .inr rfl | rfl | with_reducible assumption | intro _ | (split <;> try (rename_i h; have e := congrArg Prod.snd h; dsimp only at e; subst e))

theorem in_effEsmcInfoPduSend {L : List StPart} {s₀ x₀ : State} (c : ChanIx) (p : PortIx) (hL : stPartsIn [.ch] L = true) (hF : State.onlyIn L s₀ x₀) : State.onlyIn L s₀ (effEsmcInfoPduSend c p x₀) := by
  refine State.onlyIn_step hL hF ?_
  unfold effEsmcInfoPduSend
  try dsimp only
  repeat' first | with_reducible exact State.onlyIn_refl _ _ | with_reducible apply in_onCh | with_reducible apply in_ite | with_reducible apply in_ite2 | with_reducible rfl | exact .inl rfl | exact .inr rfl | rfl | with_reducible assumption | intro _ | (split <;> try (rename_i h; have e := congrArg Prod.snd h; dsimp only at e; subst e))

theorem in_effMoscDetect {L : List StPart} {s₀ x₀ : State} (count : ℕ) (hL : stPartsIn [.hostif, .clkgen, .pwr, .out] L = true) (hF : State.onlyIn L s₀ x₀) : State.onlyIn L s₀ (effMoscDetect count x₀) := by
  refine State.onlyIn_step hL hF ?_
  unfold effMoscDetect
  try dsimp only
  repeat' first | with_reducible exact State.onlyIn_refl _ _ | with_reducible apply in_moscDetect | with_reducible apply in_ite | with_reducible apply in_ite2 | with_reducible rfl | exact .inl rfl | exact .inr rfl | rfl | with_reducible assumption | intro _ | (split <;> try (rename_i h; have e := congrArg Prod.snd h; dsimp only at e; subst e))

theorem in_effMoscLost {L : List StPart} {s₀ x₀ : State} (hL : stPartsIn [.hostif, .cmdq, .fault, .vault, .book, .tally, .twin, .bench, .clkgen, .pwr, .image, .ch, .free, .out] L = true) (hF : State.onlyIn L s₀ x₀) : State.onlyIn L s₀ (effMoscLost x₀) := by
  refine State.onlyIn_step hL hF ?_
  unfold effMoscLost
  try dsimp only
  repeat' first | with_reducible exact State.onlyIn_refl _ _ | with_reducible apply in_moscLost | with_reducible apply in_ite | with_reducible apply in_ite2 | with_reducible rfl | exact .inl rfl | exact .inr rfl | rfl | with_reducible assumption | intro _ | (split <;> try (rename_i h; have e := congrArg Prod.snd h; dsimp only at e; subst e))

theorem in_effMoscReturn {L : List StPart} {s₀ x₀ : State} (hL : stPartsIn [.hostif, .fault, .clkgen, .out] L = true) (hF : State.onlyIn L s₀ x₀) : State.onlyIn L s₀ (effMoscReturn x₀) := by
  refine State.onlyIn_step hL hF ?_
  unfold effMoscReturn
  try dsimp only
  repeat' first | with_reducible exact State.onlyIn_refl _ _ | with_reducible apply in_moscReturn | with_reducible apply in_ite | with_reducible apply in_ite2 | with_reducible rfl | exact .inl rfl | exact .inr rfl | rfl | with_reducible assumption | intro _ | (split <;> try (rename_i h; have e := congrArg Prod.snd h; dsimp only at e; subst e))

theorem in_effRootLock {L : List StPart} {s₀ x₀ : State} (r : Fin 5) (hL : stPartsIn [.hostif, .fault, .clkgen, .out] L = true) (hF : State.onlyIn L s₀ x₀) : State.onlyIn L s₀ (effRootLock r x₀) := by
  refine State.onlyIn_step hL hF ?_
  unfold effRootLock
  try dsimp only
  repeat' first | with_reducible exact State.onlyIn_refl _ _ | with_reducible apply in_rootLock | with_reducible apply in_ite | with_reducible apply in_ite2 | with_reducible rfl | exact .inl rfl | exact .inr rfl | rfl | with_reducible assumption | intro _ | (split <;> try (rename_i h; have e := congrArg Prod.snd h; dsimp only at e; subst e))

theorem in_effRootLockLost {L : List StPart} {s₀ x₀ : State} (r : Fin 5) (hL : stPartsIn [.hostif, .cmdq, .fault, .vault, .book, .tally, .twin, .bench, .clkgen, .pwr, .image, .ch, .free, .out] L = true) (hF : State.onlyIn L s₀ x₀) : State.onlyIn L s₀ (effRootLockLost r x₀) := by
  refine State.onlyIn_step hL hF ?_
  unfold effRootLockLost
  try dsimp only
  repeat' first | with_reducible exact State.onlyIn_refl _ _ | with_reducible apply in_rootLockLost | with_reducible apply in_ite | with_reducible apply in_ite2 | with_reducible rfl | exact .inl rfl | exact .inr rfl | rfl | with_reducible assumption | intro _ | (split <;> try (rename_i h; have e := congrArg Prod.snd h; dsimp only at e; subst e))

theorem in_effFeedBad {L : List StPart} {s₀ x₀ : State} (b : Bool) (mv : ℕ) (hL : stPartsIn [.hostif, .cmdq, .fault, .vault, .book, .tally, .twin, .bench, .pwr, .image, .ch, .free, .out] L = true) (hF : State.onlyIn L s₀ x₀) : State.onlyIn L s₀ (effFeedBad b mv x₀) := by
  refine State.onlyIn_step hL hF ?_
  unfold effFeedBad
  try dsimp only
  repeat' first | with_reducible exact State.onlyIn_refl _ _ | with_reducible apply in_feedBad | with_reducible apply in_ite | with_reducible apply in_ite2 | with_reducible rfl | exact .inl rfl | exact .inr rfl | rfl | with_reducible assumption | intro _ | (split <;> try (rename_i h; have e := congrArg Prod.snd h; dsimp only at e; subst e))

theorem in_effFeedGood {L : List StPart} {s₀ x₀ : State} (b : Bool) (mv : ℕ) (hL : stPartsIn [.hostif, .cmdq, .fault, .vault, .book, .tally, .twin, .bench, .pwr, .image, .ch, .free, .out] L = true) (hF : State.onlyIn L s₀ x₀) : State.onlyIn L s₀ (effFeedGood b mv x₀) := by
  refine State.onlyIn_step hL hF ?_
  unfold effFeedGood
  try dsimp only
  repeat' first | with_reducible exact State.onlyIn_refl _ _ | with_reducible apply in_feedGood | with_reducible apply in_ite | with_reducible apply in_ite2 | with_reducible rfl | exact .inl rfl | exact .inr rfl | rfl | with_reducible assumption | intro _ | (split <;> try (rename_i h; have e := congrArg Prod.snd h; dsimp only at e; subst e))

theorem in_effFeedCheckStart {L : List StPart} {s₀ x₀ : State} (b : Bool) (hL : stPartsIn [.hostif, .cmdq, .vault, .book, .tally, .twin, .bench, .pwr, .image, .ch, .free, .out] L = true) (hF : State.onlyIn L s₀ x₀) : State.onlyIn L s₀ (effFeedCheckStart b x₀) := by
  refine State.onlyIn_step hL hF ?_
  unfold effFeedCheckStart
  try dsimp only
  repeat' first | with_reducible exact State.onlyIn_refl _ _ | with_reducible apply in_feedCheckStart | with_reducible apply in_ite | with_reducible apply in_ite2 | with_reducible rfl | exact .inl rfl | exact .inr rfl | rfl | with_reducible assumption | intro _ | (split <;> try (rename_i h; have e := congrArg Prod.snd h; dsimp only at e; subst e))

theorem in_effFeedCheckComplete {L : List StPart} {s₀ x₀ : State} (min : ℕ) (limit : Bool) (hL : stPartsIn [.hostif, .cmdq, .vault, .book, .tally, .twin, .bench, .pwr, .image, .ch, .free, .out] L = true) (hF : State.onlyIn L s₀ x₀) : State.onlyIn L s₀ (effFeedCheckComplete min limit x₀) := by
  refine State.onlyIn_step hL hF ?_
  unfold effFeedCheckComplete
  try dsimp only
  repeat' first | with_reducible exact State.onlyIn_refl _ _ | with_reducible apply in_feedCheckComplete | with_reducible apply in_ite | with_reducible apply in_ite2 | with_reducible rfl | exact .inl rfl | exact .inr rfl | rfl | with_reducible assumption | intro _ | (split <;> try (rename_i h; have e := congrArg Prod.snd h; dsimp only at e; subst e))

theorem in_effVbatLoss {L : List StPart} {s₀ x₀ : State} (hL : stPartsIn [.vault, .pwr] L = true) (hF : State.onlyIn L s₀ x₀) : State.onlyIn L s₀ (effVbatLoss x₀) := by
  refine State.onlyIn_step hL hF ?_
  unfold effVbatLoss
  try dsimp only
  repeat' first | with_reducible exact State.onlyIn_refl _ _ | with_reducible apply in_vbatLoss | with_reducible apply in_ite | with_reducible apply in_ite2 | with_reducible rfl | exact .inl rfl | exact .inr rfl | rfl | with_reducible assumption | intro _ | (split <;> try (rename_i h; have e := congrArg Prod.snd h; dsimp only at e; subst e))

theorem in_effVbatApplied {L : List StPart} {s₀ x₀ : State} (vbat : ℕ) (hL : stPartsIn [.pwr] L = true) (hF : State.onlyIn L s₀ x₀) : State.onlyIn L s₀ (effVbatApplied vbat x₀) := by
  refine State.onlyIn_step hL hF ?_
  unfold effVbatApplied
  try dsimp only
  repeat' first | with_reducible exact State.onlyIn_refl _ _ | with_reducible apply in_vbatApplied | with_reducible apply in_ite | with_reducible apply in_ite2 | with_reducible rfl | exact .inl rfl | exact .inr rfl | rfl | with_reducible assumption | intro _ | (split <;> try (rename_i h; have e := congrArg Prod.snd h; dsimp only at e; subst e))

theorem in_effResetNRelease {L : List StPart} {s₀ x₀ : State} (hL : stPartsIn [.pwr] L = true) (hF : State.onlyIn L s₀ x₀) : State.onlyIn L s₀ (effResetNRelease x₀) := by
  refine State.onlyIn_step hL hF ?_
  unfold effResetNRelease
  try dsimp only
  repeat' first | with_reducible exact State.onlyIn_refl _ _ | with_reducible apply in_resetNRelease | with_reducible apply in_ite | with_reducible apply in_ite2 | with_reducible rfl | exact .inl rfl | exact .inr rfl | rfl | with_reducible assumption | intro _ | (split <;> try (rename_i h; have e := congrArg Prod.snd h; dsimp only at e; subst e))

theorem in_effStageRailsDone {L : List StPart} {s₀ x₀ : State} (bootsel : Fin 4) (hL : stPartsIn [.pwr] L = true) (hF : State.onlyIn L s₀ x₀) : State.onlyIn L s₀ (effStageRailsDone bootsel x₀) := by
  refine State.onlyIn_step hL hF ?_
  unfold effStageRailsDone
  try dsimp only
  repeat' first | with_reducible exact State.onlyIn_refl _ _ | with_reducible apply in_stageRails | with_reducible apply in_ite | with_reducible apply in_ite2 | with_reducible rfl | exact .inl rfl | exact .inr rfl | rfl | with_reducible assumption | intro _ | (split <;> try (rename_i h; have e := congrArg Prod.snd h; dsimp only at e; subst e))

theorem in_effStageRootDone {L : List StPart} {s₀ x₀ : State} (how : SwitchEnd) (hL : stPartsIn [.hostif, .cmdq, .fault, .vault, .book, .tally, .twin, .bench, .clkgen, .pwr, .image, .ch, .free, .out] L = true) (hF : State.onlyIn L s₀ x₀) : State.onlyIn L s₀ (effStageRootDone how x₀) := by
  refine State.onlyIn_step hL hF ?_
  unfold effStageRootDone
  try dsimp only
  repeat' first | with_reducible exact State.onlyIn_refl _ _ | with_reducible apply in_stageRoot | with_reducible apply in_ite | with_reducible apply in_ite2 | with_reducible rfl | exact .inl rfl | exact .inr rfl | rfl | with_reducible assumption | intro _ | (split <;> try (rename_i h; have e := congrArg Prod.snd h; dsimp only at e; subst e))

theorem in_effRootStageRetry {L : List StPart} {s₀ x₀ : State} (hL : stPartsIn [.pwr] L = true) (hF : State.onlyIn L s₀ x₀) : State.onlyIn L s₀ (effRootStageRetry x₀) := by
  refine State.onlyIn_step hL hF ?_
  unfold effRootStageRetry
  try dsimp only
  repeat' first | with_reducible exact State.onlyIn_refl _ _ | with_reducible apply in_rootStageRetry | with_reducible apply in_ite | with_reducible apply in_ite2 | with_reducible rfl | exact .inl rfl | exact .inr rfl | rfl | with_reducible assumption | intro _ | (split <;> try (rename_i h; have e := congrArg Prod.snd h; dsimp only at e; subst e))

theorem in_effStageFeedchkDone {L : List StPart} {s₀ x₀ : State} (hL : stPartsIn [.vault, .pwr] L = true) (hF : State.onlyIn L s₀ x₀) : State.onlyIn L s₀ (effStageFeedchkDone x₀) := by
  refine State.onlyIn_step hL hF ?_
  unfold effStageFeedchkDone
  try dsimp only
  repeat' first | with_reducible exact State.onlyIn_refl _ _ | with_reducible apply in_stageFeedchk | with_reducible apply in_ite | with_reducible apply in_ite2 | with_reducible rfl | exact .inl rfl | exact .inr rfl | rfl | with_reducible assumption | intro _ | (split <;> try (rename_i h; have e := congrArg Prod.snd h; dsimp only at e; subst e))

theorem in_effStageVaultDone {L : List StPart} {s₀ x₀ : State} (hL : stPartsIn [.hostif, .cmdq, .fault, .vault, .book, .tally, .twin, .bench, .pwr, .image, .ch, .free, .out] L = true) (hF : State.onlyIn L s₀ x₀) : State.onlyIn L s₀ (effStageVaultDone x₀) := by
  refine State.onlyIn_step hL hF ?_
  unfold effStageVaultDone
  try dsimp only
  repeat' first | with_reducible exact State.onlyIn_refl _ _ | with_reducible apply in_stageVault | with_reducible apply in_ite | with_reducible apply in_ite2 | with_reducible rfl | exact .inl rfl | exact .inr rfl | rfl | with_reducible assumption | intro _ | (split <;> try (rename_i h; have e := congrArg Prod.snd h; dsimp only at e; subst e))

theorem in_effStageDone {L : List StPart} {s₀ x₀ : State} (hL : stPartsIn [.hostif, .cmdq, .book, .tally, .twin, .pwr, .image, .ch, .out] L = true) (hF : State.onlyIn L s₀ x₀) : State.onlyIn L s₀ (effStageDone x₀) := by
  refine State.onlyIn_step hL hF ?_
  unfold effStageDone
  try dsimp only
  repeat' first | with_reducible exact State.onlyIn_refl _ _ | with_reducible apply in_deviceDone | with_reducible apply in_ite | with_reducible apply in_ite2 | with_reducible rfl | exact .inl rfl | exact .inr rfl | rfl | with_reducible assumption | intro _ | (split <;> try (rename_i h; have e := congrArg Prod.snd h; dsimp only at e; subst e))

theorem in_effCmdStart {L : List StPart} {s₀ x₀ : State} (slot : Fin 64) (hL : stPartsIn [.cmdq, .ch] L = true) (hF : State.onlyIn L s₀ x₀) : State.onlyIn L s₀ (effCmdStart slot x₀) := by
  refine State.onlyIn_step hL hF ?_
  unfold effCmdStart
  try dsimp only
  repeat' first | with_reducible exact State.onlyIn_refl _ _ | with_reducible apply in_cmdStart | with_reducible apply in_ite | with_reducible apply in_ite2 | with_reducible rfl | exact .inl rfl | exact .inr rfl | rfl | with_reducible assumption | intro _ | (split <;> try (rename_i h; have e := congrArg Prod.snd h; dsimp only at e; subst e))

theorem in_effCmdComplete {L : List StPart} {s₀ x₀ : State} (slot : Fin 64) (dmaFailed : Bool) (hL : stPartsIn [.hostif, .cmdq, .out] L = true) (hF : State.onlyIn L s₀ x₀) : State.onlyIn L s₀ (effCmdComplete slot dmaFailed x₀) := by
  refine State.onlyIn_step hL hF ?_
  unfold effCmdComplete
  try dsimp only
  repeat' first | with_reducible exact State.onlyIn_refl _ _ | with_reducible apply in_cmdComplete | with_reducible apply in_ite | with_reducible apply in_ite2 | with_reducible rfl | exact .inl rfl | exact .inr rfl | rfl | with_reducible assumption | intro _ | (split <;> try (rename_i h; have e := congrArg Prod.snd h; dsimp only at e; subst e))

theorem in_effCmdTimeout {L : List StPart} {s₀ x₀ : State} (slot : Fin 64) (hL : stPartsIn [.hostif, .cmdq, .vault, .book, .twin, .bench, .pwr, .image, .ch, .free, .out] L = true) (hF : State.onlyIn L s₀ x₀) : State.onlyIn L s₀ (effCmdTimeout slot x₀) := by
  refine State.onlyIn_step hL hF ?_
  unfold effCmdTimeout
  try dsimp only
  repeat' first | with_reducible exact State.onlyIn_refl _ _ | with_reducible apply in_cmdTimeout | with_reducible apply in_ite | with_reducible apply in_ite2 | with_reducible rfl | exact .inl rfl | exact .inr rfl | rfl | with_reducible assumption | intro _ | (split <;> try (rename_i h; have e := congrArg Prod.snd h; dsimp only at e; subst e))

theorem in_effCmdSuspend {L : List StPart} {s₀ x₀ : State} (slot : Fin 64) (hL : stPartsIn [.hostif, .cmdq, .vault, .book, .tally, .twin, .bench, .pwr, .image, .ch, .free, .out] L = true) (hF : State.onlyIn L s₀ x₀) : State.onlyIn L s₀ (effCmdSuspend slot x₀) := by
  refine State.onlyIn_step hL hF ?_
  unfold effCmdSuspend
  try dsimp only
  repeat' first | with_reducible exact State.onlyIn_refl _ _ | with_reducible apply in_control | with_reducible apply in_ite | with_reducible apply in_ite2 | with_reducible rfl | exact .inl rfl | exact .inr rfl | rfl | with_reducible assumption | intro _ | (split <;> try (rename_i h; have e := congrArg Prod.snd h; dsimp only at e; subst e))

theorem in_effCmdResume {L : List StPart} {s₀ x₀ : State} (slot : Fin 64) (hL : stPartsIn [.hostif, .cmdq, .vault, .book, .tally, .twin, .bench, .pwr, .image, .ch, .free, .out] L = true) (hF : State.onlyIn L s₀ x₀) : State.onlyIn L s₀ (effCmdResume slot x₀) := by
  refine State.onlyIn_step hL hF ?_
  unfold effCmdResume
  try dsimp only
  repeat' first | with_reducible exact State.onlyIn_refl _ _ | with_reducible apply in_control | with_reducible apply in_ite | with_reducible apply in_ite2 | with_reducible rfl | exact .inl rfl | exact .inr rfl | rfl | with_reducible assumption | intro _ | (split <;> try (rename_i h; have e := congrArg Prod.snd h; dsimp only at e; subst e))

theorem in_effCmdCancel {L : List StPart} {s₀ x₀ : State} (slot : Fin 64) (hL : stPartsIn [.hostif, .cmdq, .vault, .book, .tally, .twin, .bench, .pwr, .image, .ch, .free, .out] L = true) (hF : State.onlyIn L s₀ x₀) : State.onlyIn L s₀ (effCmdCancel slot x₀) := by
  refine State.onlyIn_step hL hF ?_
  unfold effCmdCancel
  try dsimp only
  repeat' first | with_reducible exact State.onlyIn_refl _ _ | with_reducible apply in_control | with_reducible apply in_ite | with_reducible apply in_ite2 | with_reducible rfl | exact .inl rfl | exact .inr rfl | rfl | with_reducible assumption | intro _ | (split <;> try (rename_i h; have e := congrArg Prod.snd h; dsimp only at e; subst e))

theorem in_effCmdSelfTest {L : List StPart} {s₀ x₀ : State} (slot : Fin 64) (hL : stPartsIn [.cmdq, .pwr] L = true) (hF : State.onlyIn L s₀ x₀) : State.onlyIn L s₀ (effCmdSelfTest slot x₀) := by
  refine State.onlyIn_step hL hF ?_
  unfold effCmdSelfTest
  try dsimp only
  repeat' first | with_reducible exact State.onlyIn_refl _ _ | with_reducible apply in_selfTestCmd | with_reducible apply in_ite | with_reducible apply in_ite2 | with_reducible rfl | exact .inl rfl | exact .inr rfl | rfl | with_reducible assumption | intro _ | (split <;> try (rename_i h; have e := congrArg Prod.snd h; dsimp only at e; subst e))

theorem in_effCmdTallyExport {L : List StPart} {s₀ x₀ : State} (slot : Fin 64) (hL : stPartsIn [.hostif, .cmdq, .out] L = true) (hF : State.onlyIn L s₀ x₀) : State.onlyIn L s₀ (effCmdTallyExport slot x₀) := by
  refine State.onlyIn_step hL hF ?_
  unfold effCmdTallyExport
  try dsimp only
  repeat' first | with_reducible exact State.onlyIn_refl _ _ | with_reducible apply in_exportCmd | with_reducible apply in_ite | with_reducible apply in_ite2 | with_reducible rfl | exact .inl rfl | exact .inr rfl | rfl | with_reducible assumption | intro _ | (split <;> try (rename_i h; have e := congrArg Prod.snd h; dsimp only at e; subst e))

theorem in_effPcieLinkDown {L : List StPart} {s₀ x₀ : State} (hL : stPartsIn [.hostif, .cmdq, .out] L = true) (hF : State.onlyIn L s₀ x₀) : State.onlyIn L s₀ (effPcieLinkDown x₀) := by
  refine State.onlyIn_step hL hF ?_
  unfold effPcieLinkDown
  try dsimp only
  repeat' first | with_reducible exact State.onlyIn_refl _ _ | with_reducible apply in_pcieDown | with_reducible apply in_ite | with_reducible apply in_ite2 | with_reducible rfl | exact .inl rfl | exact .inr rfl | rfl | with_reducible assumption | intro _ | (split <;> try (rename_i h; have e := congrArg Prod.snd h; dsimp only at e; subst e))

theorem in_effPcieFlr {L : List StPart} {s₀ x₀ : State} (hL : stPartsIn [.hostif, .cmdq, .vault, .book, .twin, .bench, .pwr, .image, .ch, .free, .out] L = true) (hF : State.onlyIn L s₀ x₀) : State.onlyIn L s₀ (effPcieFlr x₀) := by
  refine State.onlyIn_step hL hF ?_
  unfold effPcieFlr
  try dsimp only
  repeat' first | with_reducible exact State.onlyIn_refl _ _ | with_reducible apply in_flr | with_reducible apply in_ite | with_reducible apply in_ite2 | with_reducible rfl | exact .inl rfl | exact .inr rfl | rfl | with_reducible assumption | intro _ | (split <;> try (rename_i h; have e := congrArg Prod.snd h; dsimp only at e; subst e))

theorem in_effPcieLinkUp {L : List StPart} {s₀ x₀ : State} (speed : Fin 8) (width : Fin 8) (hL : stPartsIn [.hostif, .out] L = true) (hF : State.onlyIn L s₀ x₀) : State.onlyIn L s₀ (effPcieLinkUp speed width x₀) := by
  refine State.onlyIn_step hL hF ?_
  unfold effPcieLinkUp
  try dsimp only
  repeat' first | with_reducible exact State.onlyIn_refl _ _ | with_reducible apply in_pcieUp | with_reducible apply in_ite | with_reducible apply in_ite2 | with_reducible rfl | exact .inl rfl | exact .inr rfl | rfl | with_reducible assumption | intro _ | (split <;> try (rename_i h; have e := congrArg Prod.snd h; dsimp only at e; subst e))

theorem in_effWinMemWrite {L : List StPart} {s₀ x₀ : State} (p : HostPath) (addr : ℕ) (v : Word) (hL : stPartsIn [.hostif, .mem, .fault, .image, .out] L = true) (hF : State.onlyIn L s₀ x₀) : State.onlyIn L s₀ (effWinMemWrite p addr v x₀) := by
  refine State.onlyIn_step hL hF ?_
  unfold effWinMemWrite
  try dsimp only
  repeat' first | with_reducible exact State.onlyIn_refl _ _ | with_reducible apply in_memWriteCmd | with_reducible apply in_ite | with_reducible apply in_ite2 | with_reducible rfl | exact .inl rfl | exact .inr rfl | rfl | with_reducible assumption | intro _ | (split <;> try (rename_i h; have e := congrArg Prod.snd h; dsimp only at e; subst e))

theorem in_effMspiMemoryRead {L : List StPart} {s₀ x₀ : State} (bs : Bytes) (hL : stPartsIn [.hostif, .cmdq, .fault, .vault, .book, .tally, .twin, .bench, .pwr, .image, .ch, .free, .out] L = true) (hF : State.onlyIn L s₀ x₀) : State.onlyIn L s₀ (effMspiMemoryRead bs x₀) := by
  refine State.onlyIn_step hL hF ?_
  unfold effMspiMemoryRead
  try dsimp only
  repeat' first | with_reducible exact State.onlyIn_refl _ _ | with_reducible apply in_mspiReadMem | with_reducible apply in_ite | with_reducible apply in_ite2 | with_reducible rfl | exact .inl rfl | exact .inr rfl | rfl | with_reducible assumption | intro _ | (split <;> try (rename_i h; have e := congrArg Prod.snd h; dsimp only at e; subst e))

theorem in_effMspiMemoryWrite {L : List StPart} {s₀ x₀ : State} (bs : Bytes) (hL : stPartsIn [.hostif, .mem, .cmdq, .fault, .vault, .book, .tally, .twin, .bench, .pwr, .image, .ch, .free, .out] L = true) (hF : State.onlyIn L s₀ x₀) : State.onlyIn L s₀ (effMspiMemoryWrite bs x₀) := by
  refine State.onlyIn_step hL hF ?_
  unfold effMspiMemoryWrite
  try dsimp only
  repeat' first | with_reducible exact State.onlyIn_refl _ _ | with_reducible apply in_mspiWriteMem | with_reducible apply in_ite | with_reducible apply in_ite2 | with_reducible rfl | exact .inl rfl | exact .inr rfl | rfl | with_reducible assumption | intro _ | (split <;> try (rename_i h; have e := congrArg Prod.snd h; dsimp only at e; subst e))

theorem in_effMspiScanEntry {L : List StPart} {s₀ x₀ : State} (bs : Bytes) (hL : stPartsIn [.hostif, .cmdq, .fault, .vault, .book, .tally, .twin, .bench, .pwr, .image, .ch, .free, .out] L = true) (hF : State.onlyIn L s₀ x₀) : State.onlyIn L s₀ (effMspiScanEntry bs x₀) := by
  refine State.onlyIn_step hL hF ?_
  unfold effMspiScanEntry
  try dsimp only
  repeat' first | with_reducible exact State.onlyIn_refl _ _ | with_reducible apply in_mspiScan | with_reducible apply in_ite | with_reducible apply in_ite2 | with_reducible rfl | exact .inl rfl | exact .inr rfl | rfl | with_reducible assumption | intro _ | (split <;> try (rename_i h; have e := congrArg Prod.snd h; dsimp only at e; subst e))

theorem in_effMspiBallDrive {L : List StPart} {s₀ x₀ : State} (bs : Bytes) (hL : stPartsIn [.hostif, .cmdq, .fault, .vault, .book, .tally, .twin, .bench, .pwr, .image, .ch, .free, .out] L = true) (hF : State.onlyIn L s₀ x₀) : State.onlyIn L s₀ (effMspiBallDrive bs x₀) := by
  refine State.onlyIn_step hL hF ?_
  unfold effMspiBallDrive
  try dsimp only
  repeat' first | with_reducible exact State.onlyIn_refl _ _ | with_reducible apply in_mspiDrive | with_reducible apply in_ite | with_reducible apply in_ite2 | with_reducible rfl | exact .inl rfl | exact .inr rfl | rfl | with_reducible assumption | intro _ | (split <;> try (rename_i h; have e := congrArg Prod.snd h; dsimp only at e; subst e))

theorem in_effMspiBallSense {L : List StPart} {s₀ x₀ : State} (bs : Bytes) (level : Bool) (hL : stPartsIn [.hostif, .cmdq, .fault, .vault, .book, .tally, .twin, .bench, .pwr, .image, .ch, .free, .out] L = true) (hF : State.onlyIn L s₀ x₀) : State.onlyIn L s₀ (effMspiBallSense bs level x₀) := by
  refine State.onlyIn_step hL hF ?_
  unfold effMspiBallSense
  try dsimp only
  repeat' first | with_reducible exact State.onlyIn_refl _ _ | with_reducible apply in_mspiSense | with_reducible apply in_ite | with_reducible apply in_ite2 | with_reducible rfl | exact .inl rfl | exact .inr rfl | rfl | with_reducible assumption | intro _ | (split <;> try (rename_i h; have e := congrArg Prod.snd h; dsimp only at e; subst e))

theorem in_effGateListBoundary {L : List StPart} {s₀ x₀ : State} (c : ChanIx) (p : PortIx) (hL : stPartsIn [.ch] L = true) (hF : State.onlyIn L s₀ x₀) : State.onlyIn L s₀ (effGateListBoundary c p x₀) := by
  refine State.onlyIn_step hL hF ?_
  unfold effGateListBoundary
  try dsimp only
  repeat' first | with_reducible exact State.onlyIn_refl _ _ | with_reducible apply in_onCh | with_reducible apply in_ite | with_reducible apply in_ite2 | with_reducible rfl | exact .inl rfl | exact .inr rfl | rfl | with_reducible assumption | intro _ | (split <;> try (rename_i h; have e := congrArg Prod.snd h; dsimp only at e; subst e))

theorem in_effGateListSwitch {L : List StPart} {s₀ x₀ : State} (c : ChanIx) (p : PortIx) (hL : stPartsIn [.ch] L = true) (hF : State.onlyIn L s₀ x₀) : State.onlyIn L s₀ (effGateListSwitch c p x₀) := by
  refine State.onlyIn_step hL hF ?_
  unfold effGateListSwitch
  try dsimp only
  repeat' first | with_reducible exact State.onlyIn_refl _ _ | with_reducible apply in_onCh | with_reducible apply in_ite | with_reducible apply in_ite2 | with_reducible rfl | exact .inl rfl | exact .inr rfl | rfl | with_reducible assumption | intro _ | (split <;> try (rename_i h; have e := congrArg Prod.snd h; dsimp only at e; subst e))

theorem in_effQueueSample {L : List StPart} {s₀ x₀ : State} (c : ChanIx) (p : PortIx) (hL : stPartsIn [.ch] L = true) (hF : State.onlyIn L s₀ x₀) : State.onlyIn L s₀ (effQueueSample c p x₀) := by
  refine State.onlyIn_step hL hF ?_
  unfold effQueueSample
  try dsimp only
  repeat' first | with_reducible exact State.onlyIn_refl _ _ | with_reducible apply in_onCh | with_reducible apply in_ite | with_reducible apply in_ite2 | with_reducible rfl | exact .inl rfl | exact .inr rfl | rfl | with_reducible assumption | intro _ | (split <;> try (rename_i h; have e := congrArg Prod.snd h; dsimp only at e; subst e))

theorem in_effHostTxFrameTake {L : List StPart} {s₀ x₀ : State} (c : ChanIx) (p : PortIx) (hL : stPartsIn [.hostif, .ch] L = true) (hF : State.onlyIn L s₀ x₀) : State.onlyIn L s₀ (effHostTxFrameTake c p x₀) := by
  refine State.onlyIn_step hL hF ?_
  unfold effHostTxFrameTake
  try dsimp only
  repeat' first | with_reducible exact State.onlyIn_refl _ _ | with_reducible apply in_htxTake | with_reducible apply in_ite | with_reducible apply in_ite2 | with_reducible rfl | exact .inl rfl | exact .inr rfl | rfl | with_reducible assumption | intro _ | (split <;> try (rename_i h; have e := congrArg Prod.snd h; dsimp only at e; subst e))

theorem in_effPtpDelayReqRx {L : List StPart} {s₀ x₀ : State} (c : ChanIx) (p : PortIx) (ps : ℕ) (f : ℤ) (bs : Bytes) (hL : stPartsIn [.ch] L = true) (hF : State.onlyIn L s₀ x₀) : State.onlyIn L s₀ (effPtpDelayReqRx c p ps f bs x₀) := by
  refine State.onlyIn_step hL hF ?_
  unfold effPtpDelayReqRx
  try dsimp only
  repeat' first | with_reducible exact State.onlyIn_refl _ _ | with_reducible apply in_onCh | with_reducible apply in_ite | with_reducible apply in_ite2 | with_reducible rfl | exact .inl rfl | exact .inr rfl | rfl | with_reducible assumption | intro _ | (split <;> try (rename_i h; have e := congrArg Prod.snd h; dsimp only at e; subst e))

theorem in_effPtpPdelayReqRx {L : List StPart} {s₀ x₀ : State} (c : ChanIx) (p : PortIx) (ps : ℕ) (f : ℤ) (bs : Bytes) (hL : stPartsIn [.ch] L = true) (hF : State.onlyIn L s₀ x₀) : State.onlyIn L s₀ (effPtpPdelayReqRx c p ps f bs x₀) := by
  refine State.onlyIn_step hL hF ?_
  unfold effPtpPdelayReqRx
  try dsimp only
  repeat' first | with_reducible exact State.onlyIn_refl _ _ | with_reducible apply in_onCh | with_reducible apply in_ite | with_reducible apply in_ite2 | with_reducible rfl | exact .inl rfl | exact .inr rfl | rfl | with_reducible assumption | intro _ | (split <;> try (rename_i h; have e := congrArg Prod.snd h; dsimp only at e; subst e))

theorem in_effPtpSyncRx {L : List StPart} {s₀ x₀ : State} (c : ChanIx) (p : PortIx) (ps : ℕ) (f : ℤ) (bs : Bytes) (hL : stPartsIn [.ch] L = true) (hF : State.onlyIn L s₀ x₀) : State.onlyIn L s₀ (effPtpSyncRx c p ps f bs x₀) := by
  refine State.onlyIn_step hL hF ?_
  unfold effPtpSyncRx
  try dsimp only
  repeat' first | with_reducible exact State.onlyIn_refl _ _ | with_reducible apply in_onCh | with_reducible apply in_ite | with_reducible apply in_ite2 | with_reducible rfl | exact .inl rfl | exact .inr rfl | rfl | with_reducible assumption | intro _ | (split <;> try (rename_i h; have e := congrArg Prod.snd h; dsimp only at e; subst e))

theorem in_effPtpFollowUpRx {L : List StPart} {s₀ x₀ : State} (c : ChanIx) (p : PortIx) (bs : Bytes) (hL : stPartsIn [.ch] L = true) (hF : State.onlyIn L s₀ x₀) : State.onlyIn L s₀ (effPtpFollowUpRx c p bs x₀) := by
  refine State.onlyIn_step hL hF ?_
  unfold effPtpFollowUpRx
  try dsimp only
  repeat' first | with_reducible exact State.onlyIn_refl _ _ | with_reducible apply in_onCh | with_reducible apply in_ite | with_reducible apply in_ite2 | with_reducible rfl | exact .inl rfl | exact .inr rfl | rfl | with_reducible assumption | intro _ | (split <;> try (rename_i h; have e := congrArg Prod.snd h; dsimp only at e; subst e))

theorem in_effPtpDelayRespRx {L : List StPart} {s₀ x₀ : State} (c : ChanIx) (p : PortIx) (bs : Bytes) (hL : stPartsIn [.ch] L = true) (hF : State.onlyIn L s₀ x₀) : State.onlyIn L s₀ (effPtpDelayRespRx c p bs x₀) := by
  refine State.onlyIn_step hL hF ?_
  unfold effPtpDelayRespRx
  try dsimp only
  repeat' first | with_reducible exact State.onlyIn_refl _ _ | with_reducible apply in_onCh | with_reducible apply in_ite | with_reducible apply in_ite2 | with_reducible rfl | exact .inl rfl | exact .inr rfl | rfl | with_reducible assumption | intro _ | (split <;> try (rename_i h; have e := congrArg Prod.snd h; dsimp only at e; subst e))

theorem in_effPtpPdelayRespRx {L : List StPart} {s₀ x₀ : State} (c : ChanIx) (p : PortIx) (ps : ℕ) (f : ℤ) (bs : Bytes) (hL : stPartsIn [.ch] L = true) (hF : State.onlyIn L s₀ x₀) : State.onlyIn L s₀ (effPtpPdelayRespRx c p ps f bs x₀) := by
  refine State.onlyIn_step hL hF ?_
  unfold effPtpPdelayRespRx
  try dsimp only
  repeat' first | with_reducible exact State.onlyIn_refl _ _ | with_reducible apply in_onCh | with_reducible apply in_ite | with_reducible apply in_ite2 | with_reducible rfl | exact .inl rfl | exact .inr rfl | rfl | with_reducible assumption | intro _ | (split <;> try (rename_i h; have e := congrArg Prod.snd h; dsimp only at e; subst e))

theorem in_effPtpAnnounceRx {L : List StPart} {s₀ x₀ : State} (c : ChanIx) (p : PortIx) (bs : Bytes) (hL : stPartsIn [.ch] L = true) (hF : State.onlyIn L s₀ x₀) : State.onlyIn L s₀ (effPtpAnnounceRx c p bs x₀) := by
  refine State.onlyIn_step hL hF ?_
  unfold effPtpAnnounceRx
  try dsimp only
  repeat' first | with_reducible exact State.onlyIn_refl _ _ | with_reducible apply in_onCh | with_reducible apply in_ite | with_reducible apply in_ite2 | with_reducible rfl | exact .inl rfl | exact .inr rfl | rfl | with_reducible assumption | intro _ | (split <;> try (rename_i h; have e := congrArg Prod.snd h; dsimp only at e; subst e))

theorem in_effPtpSignalingRx {L : List StPart} {s₀ x₀ : State} (c : ChanIx) (p : PortIx) (bs : Bytes) (hL : stPartsIn [.ch] L = true) (hF : State.onlyIn L s₀ x₀) : State.onlyIn L s₀ (effPtpSignalingRx c p bs x₀) := by
  refine State.onlyIn_step hL hF ?_
  unfold effPtpSignalingRx
  try dsimp only
  repeat' first | with_reducible exact State.onlyIn_refl _ _ | with_reducible apply in_onCh | with_reducible apply in_ite | with_reducible apply in_ite2 | with_reducible rfl | exact .inl rfl | exact .inr rfl | rfl | with_reducible assumption | intro _ | (split <;> try (rename_i h; have e := congrArg Prod.snd h; dsimp only at e; subst e))

theorem in_effNtpRequestRx {L : List StPart} {s₀ x₀ : State} (c : ChanIx) (p : PortIx) (ps : ℕ) (f : ℤ) (bs : Bytes) (hL : stPartsIn [.ch] L = true) (hF : State.onlyIn L s₀ x₀) : State.onlyIn L s₀ (effNtpRequestRx c p ps f bs x₀) := by
  refine State.onlyIn_step hL hF ?_
  unfold effNtpRequestRx
  try dsimp only
  repeat' first | with_reducible exact State.onlyIn_refl _ _ | with_reducible apply in_onCh | with_reducible apply in_ite | with_reducible apply in_ite2 | with_reducible rfl | exact .inl rfl | exact .inr rfl | rfl | with_reducible assumption | intro _ | (split <;> try (rename_i h; have e := congrArg Prod.snd h; dsimp only at e; subst e))

theorem in_effNtpMacRequestRx {L : List StPart} {s₀ x₀ : State} (c : ChanIx) (p : PortIx) (ps : ℕ) (f : ℤ) (bs : Bytes) (hL : stPartsIn [.ch] L = true) (hF : State.onlyIn L s₀ x₀) : State.onlyIn L s₀ (effNtpMacRequestRx c p ps f bs x₀) := by
  refine State.onlyIn_step hL hF ?_
  unfold effNtpMacRequestRx
  try dsimp only
  repeat' first | with_reducible exact State.onlyIn_refl _ _ | with_reducible apply in_onCh | with_reducible apply in_ite | with_reducible apply in_ite2 | with_reducible rfl | exact .inl rfl | exact .inr rfl | rfl | with_reducible assumption | intro _ | (split <;> try (rename_i h; have e := congrArg Prod.snd h; dsimp only at e; subst e))

theorem in_effNtsRequestRx {L : List StPart} {s₀ x₀ : State} (c : ChanIx) (p : PortIx) (ps : ℕ) (f : ℤ) (bs : Bytes) (hL : stPartsIn [.ch] L = true) (hF : State.onlyIn L s₀ x₀) : State.onlyIn L s₀ (effNtsRequestRx c p ps f bs x₀) := by
  refine State.onlyIn_step hL hF ?_
  unfold effNtsRequestRx
  try dsimp only
  repeat' first | with_reducible exact State.onlyIn_refl _ _ | with_reducible apply in_onCh | with_reducible apply in_ite | with_reducible apply in_ite2 | with_reducible rfl | exact .inl rfl | exact .inr rfl | rfl | with_reducible assumption | intro _ | (split <;> try (rename_i h; have e := congrArg Prod.snd h; dsimp only at e; subst e))

theorem in_effExceptionFrameRx {L : List StPart} {s₀ x₀ : State} (c : ChanIx) (p : PortIx) (bs : Bytes) (hL : stPartsIn [.ch] L = true) (hF : State.onlyIn L s₀ x₀) : State.onlyIn L s₀ (effExceptionFrameRx c p bs x₀) := by
  refine State.onlyIn_step hL hF ?_
  unfold effExceptionFrameRx
  try dsimp only
  repeat' first | with_reducible exact State.onlyIn_refl _ _ | with_reducible apply in_onCh | with_reducible apply in_ite | with_reducible apply in_ite2 | with_reducible rfl | exact .inl rfl | exact .inr rfl | rfl | with_reducible assumption | intro _ | (split <;> try (rename_i h; have e := congrArg Prod.snd h; dsimp only at e; subst e))

theorem in_effUnsupportedFrameRx {L : List StPart} {s₀ x₀ : State} (c : ChanIx) (p : PortIx) (bs : Bytes) (hL : stPartsIn [.ch] L = true) (hF : State.onlyIn L s₀ x₀) : State.onlyIn L s₀ (effUnsupportedFrameRx c p bs x₀) := by
  refine State.onlyIn_step hL hF ?_
  unfold effUnsupportedFrameRx
  try dsimp only
  repeat' first | with_reducible exact State.onlyIn_refl _ _ | with_reducible apply in_onCh | with_reducible apply in_ite | with_reducible apply in_ite2 | with_reducible rfl | exact .inl rfl | exact .inr rfl | rfl | with_reducible assumption | intro _ | (split <;> try (rename_i h; have e := congrArg Prod.snd h; dsimp only at e; subst e))

theorem in_effNotMineFrameRx {L : List StPart} {s₀ x₀ : State} (c : ChanIx) (p : PortIx) (bs : Bytes) (hL : stPartsIn [.ch] L = true) (hF : State.onlyIn L s₀ x₀) : State.onlyIn L s₀ (effNotMineFrameRx c p bs x₀) := by
  refine State.onlyIn_step hL hF ?_
  unfold effNotMineFrameRx
  try dsimp only
  repeat' first | with_reducible exact State.onlyIn_refl _ _ | with_reducible apply in_onCh | with_reducible apply in_ite | with_reducible apply in_ite2 | with_reducible rfl | exact .inl rfl | exact .inr rfl | rfl | with_reducible assumption | intro _ | (split <;> try (rename_i h; have e := congrArg Prod.snd h; dsimp only at e; subst e))

theorem in_effTransitFrameRx {L : List StPart} {s₀ x₀ : State} (c : ChanIx) (p : PortIx) (ps : ℕ) (f : ℤ) (bs : Bytes) (hL : stPartsIn [.ch] L = true) (hF : State.onlyIn L s₀ x₀) : State.onlyIn L s₀ (effTransitFrameRx c p ps f bs x₀) := by
  refine State.onlyIn_step hL hF ?_
  unfold effTransitFrameRx
  try dsimp only
  repeat' first | with_reducible exact State.onlyIn_refl _ _ | with_reducible apply in_onCh | with_reducible apply in_ite | with_reducible apply in_ite2 | with_reducible rfl | exact .inl rfl | exact .inr rfl | rfl | with_reducible assumption | intro _ | (split <;> try (rename_i h; have e := congrArg Prod.snd h; dsimp only at e; subst e))

theorem in_effEgressCommit {L : List StPart} {s₀ x₀ : State} (c : ChanIx) (p : PortIx) (ps : ℕ) (f : ℤ) (hL : stPartsIn [.ch] L = true) (hF : State.onlyIn L s₀ x₀) : State.onlyIn L s₀ (effEgressCommit c p ps f x₀) := by
  refine State.onlyIn_step hL hF ?_
  unfold effEgressCommit
  try dsimp only
  repeat' first | with_reducible exact State.onlyIn_refl _ _ | with_reducible apply in_onCh | with_reducible apply in_ite | with_reducible apply in_ite2 | with_reducible rfl | exact .inl rfl | exact .inr rfl | rfl | with_reducible assumption | intro _ | (split <;> try (rename_i h; have e := congrArg Prod.snd h; dsimp only at e; subst e))

theorem in_effUnicastDueMessage {L : List StPart} {s₀ x₀ : State} (c : ChanIx) (i : ℕ) (ann : Bool) (hL : stPartsIn [.ch] L = true) (hF : State.onlyIn L s₀ x₀) : State.onlyIn L s₀ (effUnicastDueMessage c i ann x₀) := by
  refine State.onlyIn_step hL hF ?_
  unfold effUnicastDueMessage
  try dsimp only
  repeat' first | with_reducible exact State.onlyIn_refl _ _ | with_reducible apply in_onCh | with_reducible apply in_ite | with_reducible apply in_ite2 | with_reducible rfl | exact .inl rfl | exact .inr rfl | rfl | with_reducible assumption | intro _ | (split <;> try (rename_i h; have e := congrArg Prod.snd h; dsimp only at e; subst e))

theorem in_effMulticastDueMessage {L : List StPart} {s₀ x₀ : State} (c : ChanIx) (p : PortIx) (ann : Bool) (hL : stPartsIn [.ch] L = true) (hF : State.onlyIn L s₀ x₀) : State.onlyIn L s₀ (effMulticastDueMessage c p ann x₀) := by
  refine State.onlyIn_step hL hF ?_
  unfold effMulticastDueMessage
  try dsimp only
  repeat' first | with_reducible exact State.onlyIn_refl _ _ | with_reducible apply in_onCh | with_reducible apply in_ite | with_reducible apply in_ite2 | with_reducible rfl | exact .inl rfl | exact .inr rfl | rfl | with_reducible assumption | intro _ | (split <;> try (rename_i h; have e := congrArg Prod.snd h; dsimp only at e; subst e))

theorem in_effPdelayReqDue {L : List StPart} {s₀ x₀ : State} (c : ChanIx) (p : PortIx) (hL : stPartsIn [.ch] L = true) (hF : State.onlyIn L s₀ x₀) : State.onlyIn L s₀ (effPdelayReqDue c p x₀) := by
  refine State.onlyIn_step hL hF ?_
  unfold effPdelayReqDue
  try dsimp only
  repeat' first | with_reducible exact State.onlyIn_refl _ _ | with_reducible apply in_onCh | with_reducible apply in_ite | with_reducible apply in_ite2 | with_reducible rfl | exact .inl rfl | exact .inr rfl | rfl | with_reducible assumption | intro _ | (split <;> try (rename_i h; have e := congrArg Prod.snd h; dsimp only at e; subst e))

theorem in_effLaneDelayReqDue {L : List StPart} {s₀ x₀ : State} (c : ChanIx) (p : PortIx) (hL : stPartsIn [.ch] L = true) (hF : State.onlyIn L s₀ x₀) : State.onlyIn L s₀ (effLaneDelayReqDue c p x₀) := by
  refine State.onlyIn_step hL hF ?_
  unfold effLaneDelayReqDue
  try dsimp only
  repeat' first | with_reducible exact State.onlyIn_refl _ _ | with_reducible apply in_onCh | with_reducible apply in_ite | with_reducible apply in_ite2 | with_reducible rfl | exact .inl rfl | exact .inr rfl | rfl | with_reducible assumption | intro _ | (split <;> try (rename_i h; have e := congrArg Prod.snd h; dsimp only at e; subst e))

theorem in_effLaneClientNegotiate {L : List StPart} {s₀ x₀ : State} (c : ChanIx) (p : PortIx) (hL : stPartsIn [.ch] L = true) (hF : State.onlyIn L s₀ x₀) : State.onlyIn L s₀ (effLaneClientNegotiate c p x₀) := by
  refine State.onlyIn_step hL hF ?_
  unfold effLaneClientNegotiate
  try dsimp only
  repeat' first | with_reducible exact State.onlyIn_refl _ _ | with_reducible apply in_onCh | with_reducible apply in_ite | with_reducible apply in_ite2 | with_reducible rfl | exact .inl rfl | exact .inr rfl | rfl | with_reducible assumption | intro _ | (split <;> try (rename_i h; have e := congrArg Prod.snd h; dsimp only at e; subst e))

theorem in_effGrantExpiry {L : List StPart} {s₀ x₀ : State} (c : ChanIx) (i : ℕ) (hL : stPartsIn [.ch] L = true) (hF : State.onlyIn L s₀ x₀) : State.onlyIn L s₀ (effGrantExpiry c i x₀) := by
  refine State.onlyIn_step hL hF ?_
  unfold effGrantExpiry
  try dsimp only
  repeat' first | with_reducible exact State.onlyIn_refl _ _ | with_reducible apply in_onCh | with_reducible apply in_ite | with_reducible apply in_ite2 | with_reducible rfl | exact .inl rfl | exact .inr rfl | rfl | with_reducible assumption | intro _ | (split <;> try (rename_i h; have e := congrArg Prod.snd h; dsimp only at e; subst e))

theorem in_effExceptionCoreResponse {L : List StPart} {s₀ x₀ : State} (c : ChanIx) (hL : stPartsIn [.ch] L = true) (hF : State.onlyIn L s₀ x₀) : State.onlyIn L s₀ (effExceptionCoreResponse c x₀) := by
  refine State.onlyIn_step hL hF ?_
  unfold effExceptionCoreResponse
  try dsimp only
  repeat' first | with_reducible exact State.onlyIn_refl _ _ | with_reducible apply in_onCh | with_reducible apply in_ite | with_reducible apply in_ite2 | with_reducible rfl | exact .inl rfl | exact .inr rfl | rfl | with_reducible assumption | intro _ | (split <;> try (rename_i h; have e := congrArg Prod.snd h; dsimp only at e; subst e))

theorem in_effCmdCookieMint {L : List StPart} {s₀ x₀ : State} (slot : Fin 64) (req : Option Bytes) (hL : stPartsIn [.hostif, .cmdq, .free, .out] L = true) (hF : State.onlyIn L s₀ x₀) : State.onlyIn L s₀ (effCmdCookieMint slot req x₀) := by
  refine State.onlyIn_step hL hF ?_
  unfold effCmdCookieMint
  try dsimp only
  repeat' first | with_reducible exact State.onlyIn_refl _ _ | with_reducible apply in_cookieMint | with_reducible apply in_ite | with_reducible apply in_ite2 | with_reducible rfl | exact .inl rfl | exact .inr rfl | rfl | with_reducible assumption | intro _ | (split <;> try (rename_i h; have e := congrArg Prod.snd h; dsimp only at e; subst e))

theorem in_effServoAApply {L : List StPart} {s₀ x₀ : State} (c : ChanIx) (hL : stPartsIn [.ch] L = true) (hF : State.onlyIn L s₀ x₀) : State.onlyIn L s₀ (effServoAApply c x₀) := by
  refine State.onlyIn_step hL hF ?_
  unfold effServoAApply
  try dsimp only
  repeat' first | with_reducible exact State.onlyIn_refl _ _ | with_reducible apply in_onCh | with_reducible apply in_ite | with_reducible apply in_ite2 | with_reducible rfl | exact .inl rfl | exact .inr rfl | rfl | with_reducible assumption | intro _ | (split <;> try (rename_i h; have e := congrArg Prod.snd h; dsimp only at e; subst e))

theorem in_effServoBApply {L : List StPart} {s₀ x₀ : State} (c : ChanIx) (hL : stPartsIn [.ch] L = true) (hF : State.onlyIn L s₀ x₀) : State.onlyIn L s₀ (effServoBApply c x₀) := by
  refine State.onlyIn_step hL hF ?_
  unfold effServoBApply
  try dsimp only
  repeat' first | with_reducible exact State.onlyIn_refl _ _ | with_reducible apply in_onCh | with_reducible apply in_ite | with_reducible apply in_ite2 | with_reducible rfl | exact .inl rfl | exact .inr rfl | rfl | with_reducible assumption | intro _ | (split <;> try (rename_i h; have e := congrArg Prod.snd h; dsimp only at e; subst e))

theorem in_effChannelAcquireStart {L : List StPart} {s₀ x₀ : State} (c : ChanIx) (hL : stPartsIn [.ch] L = true) (hF : State.onlyIn L s₀ x₀) : State.onlyIn L s₀ (effChannelAcquireStart c x₀) := by
  refine State.onlyIn_step hL hF ?_
  unfold effChannelAcquireStart
  try dsimp only
  repeat' first | with_reducible exact State.onlyIn_refl _ _ | with_reducible apply in_onCh | with_reducible apply in_ite | with_reducible apply in_ite2 | with_reducible rfl | exact .inl rfl | exact .inr rfl | rfl | with_reducible assumption | intro _ | (split <;> try (rename_i h; have e := congrArg Prod.snd h; dsimp only at e; subst e))

theorem in_effHoldoverEntry {L : List StPart} {s₀ x₀ : State} (c : ChanIx) (hL : stPartsIn [.ch] L = true) (hF : State.onlyIn L s₀ x₀) : State.onlyIn L s₀ (effHoldoverEntry c x₀) := by
  refine State.onlyIn_step hL hF ?_
  unfold effHoldoverEntry
  try dsimp only
  repeat' first | with_reducible exact State.onlyIn_refl _ _ | with_reducible apply in_onCh | with_reducible apply in_ite | with_reducible apply in_ite2 | with_reducible rfl | exact .inl rfl | exact .inr rfl | rfl | with_reducible assumption | intro _ | (split <;> try (rename_i h; have e := congrArg Prod.snd h; dsimp only at e; subst e))

theorem in_effHoldoverLimitEntry {L : List StPart} {s₀ x₀ : State} (c : ChanIx) (hL : stPartsIn [.ch] L = true) (hF : State.onlyIn L s₀ x₀) : State.onlyIn L s₀ (effHoldoverLimitEntry c x₀) := by
  refine State.onlyIn_step hL hF ?_
  unfold effHoldoverLimitEntry
  try dsimp only
  repeat' first | with_reducible exact State.onlyIn_refl _ _ | with_reducible apply in_onCh | with_reducible apply in_ite | with_reducible apply in_ite2 | with_reducible rfl | exact .inl rfl | exact .inr rfl | rfl | with_reducible assumption | intro _ | (split <;> try (rename_i h; have e := congrArg Prod.snd h; dsimp only at e; subst e))

theorem in_effHoAgingIncrement {L : List StPart} {s₀ x₀ : State} (c : ChanIx) (hL : stPartsIn [.ch] L = true) (hF : State.onlyIn L s₀ x₀) : State.onlyIn L s₀ (effHoAgingIncrement c x₀) := by
  refine State.onlyIn_step hL hF ?_
  unfold effHoAgingIncrement
  try dsimp only
  repeat' first | with_reducible exact State.onlyIn_refl _ _ | with_reducible apply in_onCh | with_reducible apply in_ite | with_reducible apply in_ite2 | with_reducible rfl | exact .inl rfl | exact .inr rfl | rfl | with_reducible assumption | intro _ | (split <;> try (rename_i h; have e := congrArg Prod.snd h; dsimp only at e; subst e))

theorem in_effCmdOscCharacterization {L : List StPart} {s₀ x₀ : State} (slot : Fin 64) (hL : stPartsIn [.cmdq, .ch] L = true) (hF : State.onlyIn L s₀ x₀) : State.onlyIn L s₀ (effCmdOscCharacterization slot x₀) := by
  refine State.onlyIn_step hL hF ?_
  unfold effCmdOscCharacterization
  try dsimp only
  repeat' first | with_reducible exact State.onlyIn_refl _ _ | with_reducible apply in_charCmd | with_reducible apply in_ite | with_reducible apply in_ite2 | with_reducible rfl | exact .inl rfl | exact .inr rfl | rfl | with_reducible assumption | intro _ | (split <;> try (rename_i h; have e := congrArg Prod.snd h; dsimp only at e; subst e))

theorem in_effCharSampleInstant {L : List StPart} {s₀ x₀ : State} (c : ChanIx) (hL : stPartsIn [.cmdq, .ch] L = true) (hF : State.onlyIn L s₀ x₀) : State.onlyIn L s₀ (effCharSampleInstant c x₀) := by
  refine State.onlyIn_step hL hF ?_
  unfold effCharSampleInstant
  try dsimp only
  repeat' first | with_reducible exact State.onlyIn_refl _ _ | with_reducible apply in_chanProgress | with_reducible apply in_onCh | with_reducible apply in_ite | with_reducible apply in_ite2 | with_reducible rfl | exact .inl rfl | exact .inr rfl | rfl | with_reducible assumption | intro _ | (split <;> try (rename_i h; have e := congrArg Prod.snd h; dsimp only at e; subst e))

theorem in_effStepAbsApply {L : List StPart} {s₀ x₀ : State} (c : ChanIx) (hL : stPartsIn [.ch] L = true) (hF : State.onlyIn L s₀ x₀) : State.onlyIn L s₀ (effStepAbsApply c x₀) := by
  refine State.onlyIn_step hL hF ?_
  unfold effStepAbsApply
  try dsimp only
  repeat' first | with_reducible exact State.onlyIn_refl _ _ | with_reducible apply in_onCh | with_reducible apply in_ite | with_reducible apply in_ite2 | with_reducible rfl | exact .inl rfl | exact .inr rfl | rfl | with_reducible assumption | intro _ | (split <;> try (rename_i h; have e := congrArg Prod.snd h; dsimp only at e; subst e))

theorem in_effVintageWrite {L : List StPart} {s₀ x₀ : State} (c : ChanIx) (hL : stPartsIn [.tally, .twin, .ch, .out] L = true) (hF : State.onlyIn L s₀ x₀) : State.onlyIn L s₀ (effVintageWrite c x₀) := by
  refine State.onlyIn_step hL hF ?_
  unfold effVintageWrite
  try dsimp only
  repeat' first | with_reducible exact State.onlyIn_refl _ _ | with_reducible apply in_writeVintage | with_reducible apply in_ite | with_reducible apply in_ite2 | with_reducible rfl | exact .inl rfl | exact .inr rfl | rfl | with_reducible assumption | intro _ | (split <;> try (rename_i h; have e := congrArg Prod.snd h; dsimp only at e; subst e))

theorem in_effSynCommitBoundary {L : List StPart} {s₀ x₀ : State} (c : ChanIx) (k : Fin 2) (hL : stPartsIn [.ch] L = true) (hF : State.onlyIn L s₀ x₀) : State.onlyIn L s₀ (effSynCommitBoundary c k x₀) := by
  refine State.onlyIn_step hL hF ?_
  unfold effSynCommitBoundary
  try dsimp only
  repeat' first | with_reducible exact State.onlyIn_refl _ _ | with_reducible apply in_onCh | with_reducible apply in_ite | with_reducible apply in_ite2 | with_reducible rfl | exact .inl rfl | exact .inr rfl | rfl | with_reducible assumption | intro _ | (split <;> try (rename_i h; have e := congrArg Prod.snd h; dsimp only at e; subst e))

theorem in_effPulseCommitBoundary {L : List StPart} {s₀ x₀ : State} (c : ChanIx) (hL : stPartsIn [.ch] L = true) (hF : State.onlyIn L s₀ x₀) : State.onlyIn L s₀ (effPulseCommitBoundary c x₀) := by
  refine State.onlyIn_step hL hF ?_
  unfold effPulseCommitBoundary
  try dsimp only
  repeat' first | with_reducible exact State.onlyIn_refl _ _ | with_reducible apply in_onCh | with_reducible apply in_ite | with_reducible apply in_ite2 | with_reducible rfl | exact .inl rfl | exact .inr rfl | rfl | with_reducible assumption | intro _ | (split <;> try (rename_i h; have e := congrArg Prod.snd h; dsimp only at e; subst e))

theorem in_effSynLockDeclared {L : List StPart} {s₀ x₀ : State} (c : ChanIx) (k : Fin 2) (e : LockSense) (hL : stPartsIn [.ch] L = true) (hF : State.onlyIn L s₀ x₀) : State.onlyIn L s₀ (effSynLockDeclared c k e x₀) := by
  refine State.onlyIn_step hL hF ?_
  unfold effSynLockDeclared
  try dsimp only
  repeat' first | with_reducible exact State.onlyIn_refl _ _ | with_reducible apply in_onCh | with_reducible apply in_ite | with_reducible apply in_ite2 | with_reducible rfl | exact .inl rfl | exact .inr rfl | rfl | with_reducible assumption | intro _ | (split <;> try (rename_i h; have e := congrArg Prod.snd h; dsimp only at e; subst e))

theorem in_effSynLockLost {L : List StPart} {s₀ x₀ : State} (c : ChanIx) (k : Fin 2) (e : LockSense) (hL : stPartsIn [.ch] L = true) (hF : State.onlyIn L s₀ x₀) : State.onlyIn L s₀ (effSynLockLost c k e x₀) := by
  refine State.onlyIn_step hL hF ?_
  unfold effSynLockLost
  try dsimp only
  repeat' first | with_reducible exact State.onlyIn_refl _ _ | with_reducible apply in_onCh | with_reducible apply in_ite | with_reducible apply in_ite2 | with_reducible rfl | exact .inl rfl | exact .inr rfl | rfl | with_reducible assumption | intro _ | (split <;> try (rename_i h; have e := congrArg Prod.snd h; dsimp only at e; subst e))

theorem in_effSynReferenceLoss {L : List StPart} {s₀ x₀ : State} (c : ChanIx) (k : Fin 2) (hL : stPartsIn [.ch] L = true) (hF : State.onlyIn L s₀ x₀) : State.onlyIn L s₀ (effSynReferenceLoss c k x₀) := by
  refine State.onlyIn_step hL hF ?_
  unfold effSynReferenceLoss
  try dsimp only
  repeat' first | with_reducible exact State.onlyIn_refl _ _ | with_reducible apply in_onCh | with_reducible apply in_ite | with_reducible apply in_ite2 | with_reducible rfl | exact .inl rfl | exact .inr rfl | rfl | with_reducible assumption | intro _ | (split <;> try (rename_i h; have e := congrArg Prod.snd h; dsimp only at e; subst e))

theorem in_effSynNolock {L : List StPart} {s₀ x₀ : State} (c : ChanIx) (k : Fin 2) (hL : stPartsIn [.hostif, .cmdq, .vault, .book, .tally, .twin, .bench, .pwr, .image, .ch, .free, .out] L = true) (hF : State.onlyIn L s₀ x₀) : State.onlyIn L s₀ (effSynNolock c k x₀) := by
  refine State.onlyIn_step hL hF ?_
  unfold effSynNolock
  try dsimp only
  repeat' first | with_reducible exact State.onlyIn_refl _ _ | with_reducible apply in_synNoLock | with_reducible apply in_ite | with_reducible apply in_ite2 | with_reducible rfl | exact .inl rfl | exact .inr rfl | rfl | with_reducible assumption | intro _ | (split <;> try (rename_i h; have e := congrArg Prod.snd h; dsimp only at e; subst e))

theorem in_effSynCoastReferenceReturn {L : List StPart} {s₀ x₀ : State} (c : ChanIx) (k : Fin 2) (hL : stPartsIn [.ch] L = true) (hF : State.onlyIn L s₀ x₀) : State.onlyIn L s₀ (effSynCoastReferenceReturn c k x₀) := by
  refine State.onlyIn_step hL hF ?_
  unfold effSynCoastReferenceReturn
  try dsimp only
  repeat' first | with_reducible exact State.onlyIn_refl _ _ | with_reducible apply in_onCh | with_reducible apply in_ite | with_reducible apply in_ite2 | with_reducible rfl | exact .inl rfl | exact .inr rfl | rfl | with_reducible assumption | intro _ | (split <;> try (rename_i h; have e := congrArg Prod.snd h; dsimp only at e; subst e))

theorem in_effPulseEdge {L : List StPart} {s₀ x₀ : State} (c : ChanIx) (j : Fin 2) (hL : stPartsIn [.ch] L = true) (hF : State.onlyIn L s₀ x₀) : State.onlyIn L s₀ (effPulseEdge c j x₀) := by
  refine State.onlyIn_step hL hF ?_
  unfold effPulseEdge
  try dsimp only
  repeat' first | with_reducible exact State.onlyIn_refl _ _ | with_reducible apply in_onCh | with_reducible apply in_ite | with_reducible apply in_ite2 | with_reducible rfl | exact .inl rfl | exact .inr rfl | rfl | with_reducible assumption | intro _ | (split <;> try (rename_i h; have e := congrArg Prod.snd h; dsimp only at e; subst e))

theorem in_effRealignJumpSwitch {L : List StPart} {s₀ x₀ : State} (c : ChanIx) (hL : stPartsIn [.ch] L = true) (hF : State.onlyIn L s₀ x₀) : State.onlyIn L s₀ (effRealignJumpSwitch c x₀) := by
  refine State.onlyIn_step hL hF ?_
  unfold effRealignJumpSwitch
  try dsimp only
  repeat' first | with_reducible exact State.onlyIn_refl _ _ | with_reducible apply in_onCh | with_reducible apply in_ite | with_reducible apply in_ite2 | with_reducible rfl | exact .inl rfl | exact .inr rfl | rfl | with_reducible assumption | intro _ | (split <;> try (rename_i h; have e := congrArg Prod.snd h; dsimp only at e; subst e))

theorem in_effRealignSlewDone {L : List StPart} {s₀ x₀ : State} (c : ChanIx) (hL : stPartsIn [.ch] L = true) (hF : State.onlyIn L s₀ x₀) : State.onlyIn L s₀ (effRealignSlewDone c x₀) := by
  refine State.onlyIn_step hL hF ?_
  unfold effRealignSlewDone
  try dsimp only
  repeat' first | with_reducible exact State.onlyIn_refl _ _ | with_reducible apply in_onCh | with_reducible apply in_ite | with_reducible apply in_ite2 | with_reducible rfl | exact .inl rfl | exact .inr rfl | rfl | with_reducible assumption | intro _ | (split <;> try (rename_i h; have e := congrArg Prod.snd h; dsimp only at e; subst e))

theorem in_effTodSentenceSend {L : List StPart} {s₀ x₀ : State} (c : ChanIx) (hL : stPartsIn [.ch] L = true) (hF : State.onlyIn L s₀ x₀) : State.onlyIn L s₀ (effTodSentenceSend c x₀) := by
  refine State.onlyIn_step hL hF ?_
  unfold effTodSentenceSend
  try dsimp only
  repeat' first | with_reducible exact State.onlyIn_refl _ _ | with_reducible apply in_onCh | with_reducible apply in_ite | with_reducible apply in_ite2 | with_reducible rfl | exact .inl rfl | exact .inr rfl | rfl | with_reducible assumption | intro _ | (split <;> try (rename_i h; have e := congrArg Prod.snd h; dsimp only at e; subst e))

theorem in_effClaimRoundStart {L : List StPart} {s₀ x₀ : State} (fell : Bool) (hL : stPartsIn [.twin, .out] L = true) (hF : State.onlyIn L s₀ x₀) : State.onlyIn L s₀ (effClaimRoundStart fell x₀) := by
  refine State.onlyIn_step hL hF ?_
  unfold effClaimRoundStart
  try dsimp only
  repeat' first | with_reducible exact State.onlyIn_refl _ _ | with_reducible apply in_roundStart | with_reducible apply in_ite | with_reducible apply in_ite2 | with_reducible rfl | exact .inl rfl | exact .inr rfl | rfl | with_reducible assumption | intro _ | (split <;> try (rename_i h; have e := congrArg Prod.snd h; dsimp only at e; subst e))

theorem in_effClaimRoundEnd {L : List StPart} {s₀ x₀ : State} (w : Word) (stuck : Bool) (noStart : Bool) (hL : stPartsIn [.hostif, .cmdq, .fault, .vault, .book, .tally, .twin, .bench, .pwr, .image, .ch, .free, .out] L = true) (hF : State.onlyIn L s₀ x₀) : State.onlyIn L s₀ (effClaimRoundEnd w stuck noStart x₀) := by
  refine State.onlyIn_step hL hF ?_
  unfold effClaimRoundEnd
  try dsimp only
  repeat' first | with_reducible exact State.onlyIn_refl _ _ | with_reducible apply in_roundEnd | with_reducible apply in_ite | with_reducible apply in_ite2 | with_reducible rfl | exact .inl rfl | exact .inr rfl | rfl | with_reducible assumption | intro _ | (split <;> try (rename_i h; have e := congrArg Prod.snd h; dsimp only at e; subst e))

theorem in_effOutputContention {L : List StPart} {s₀ x₀ : State} (c : ChanIx) (hL : stPartsIn [.hostif, .cmdq, .fault, .vault, .book, .tally, .twin, .bench, .pwr, .image, .ch, .free, .out] L = true) (hF : State.onlyIn L s₀ x₀) : State.onlyIn L s₀ (effOutputContention c x₀) := by
  refine State.onlyIn_step hL hF ?_
  unfold effOutputContention
  try dsimp only
  repeat' first | with_reducible exact State.onlyIn_refl _ _ | with_reducible apply in_contention | with_reducible apply in_ite | with_reducible apply in_ite2 | with_reducible rfl | exact .inl rfl | exact .inr rfl | rfl | with_reducible assumption | intro _ | (split <;> try (rename_i h; have e := congrArg Prod.snd h; dsimp only at e; subst e))

theorem in_effHeartbeatSend {L : List StPart} {s₀ x₀ : State} (ps0 : ℕ) (ps1 : ℕ) (hL : stPartsIn [.twin, .out] L = true) (hF : State.onlyIn L s₀ x₀) : State.onlyIn L s₀ (effHeartbeatSend ps0 ps1 x₀) := by
  refine State.onlyIn_step hL hF ?_
  unfold effHeartbeatSend
  try dsimp only
  repeat' first | with_reducible exact State.onlyIn_refl _ _ | with_reducible apply in_hbSend | with_reducible apply in_ite | with_reducible apply in_ite2 | with_reducible rfl | exact .inl rfl | exact .inr rfl | rfl | with_reducible assumption | intro _ | (split <;> try (rename_i h; have e := congrArg Prod.snd h; dsimp only at e; subst e))

theorem in_effHbFrameRx {L : List StPart} {s₀ x₀ : State} (lane : Fin 2) (bs : Bytes) (ps : ℕ) (hL : stPartsIn [.hostif, .cmdq, .fault, .vault, .book, .tally, .twin, .bench, .pwr, .image, .ch, .free, .out] L = true) (hF : State.onlyIn L s₀ x₀) : State.onlyIn L s₀ (effHbFrameRx lane bs ps x₀) := by
  refine State.onlyIn_step hL hF ?_
  unfold effHbFrameRx
  try dsimp only
  repeat' first | with_reducible exact State.onlyIn_refl _ _ | with_reducible apply in_hbFrame | with_reducible apply in_ite | with_reducible apply in_ite2 | with_reducible rfl | exact .inl rfl | exact .inr rfl | rfl | with_reducible assumption | intro _ | (split <;> try (rename_i h; have e := congrArg Prod.snd h; dsimp only at e; subst e))

theorem in_effHbWordRx {L : List StPart} {s₀ x₀ : State} (w : Word) (hL : stPartsIn [.hostif, .twin, .out] L = true) (hF : State.onlyIn L s₀ x₀) : State.onlyIn L s₀ (effHbWordRx w x₀) := by
  refine State.onlyIn_step hL hF ?_
  unfold effHbWordRx
  try dsimp only
  repeat' first | with_reducible exact State.onlyIn_refl _ _ | with_reducible apply in_hbWordRx | with_reducible apply in_ite | with_reducible apply in_ite2 | with_reducible rfl | exact .inl rfl | exact .inr rfl | rfl | with_reducible assumption | intro _ | (split <;> try (rename_i h; have e := congrArg Prod.snd h; dsimp only at e; subst e))

theorem in_effHeartbeatMissExpiry {L : List StPart} {s₀ x₀ : State} (pathB : Bool) (hL : stPartsIn [.hostif, .cmdq, .vault, .book, .tally, .twin, .bench, .pwr, .image, .ch, .free, .out] L = true) (hF : State.onlyIn L s₀ x₀) : State.onlyIn L s₀ (effHeartbeatMissExpiry pathB x₀) := by
  refine State.onlyIn_step hL hF ?_
  unfold effHeartbeatMissExpiry
  try dsimp only
  repeat' first | with_reducible exact State.onlyIn_refl _ _ | with_reducible apply in_missExpire | with_reducible apply in_ite | with_reducible apply in_ite2 | with_reducible rfl | exact .inl rfl | exact .inr rfl | rfl | with_reducible assumption | intro _ | (split <;> try (rename_i h; have e := congrArg Prod.snd h; dsimp only at e; subst e))

theorem in_effBootWaitExpiry {L : List StPart} {s₀ x₀ : State} (hL : stPartsIn [.hostif, .cmdq, .vault, .book, .tally, .twin, .bench, .pwr, .image, .ch, .free, .out] L = true) (hF : State.onlyIn L s₀ x₀) : State.onlyIn L s₀ (effBootWaitExpiry x₀) := by
  refine State.onlyIn_step hL hF ?_
  unfold effBootWaitExpiry
  try dsimp only
  repeat' first | with_reducible exact State.onlyIn_refl _ _ | with_reducible apply in_bootExpire | with_reducible apply in_ite | with_reducible apply in_ite2 | with_reducible rfl | exact .inl rfl | exact .inr rfl | rfl | with_reducible assumption | intro _ | (split <;> try (rename_i h; have e := congrArg Prod.snd h; dsimp only at e; subst e))

theorem in_effRackChannelComplete {L : List StPart} {s₀ x₀ : State} (c : ChanIx) (hL : stPartsIn [.hostif, .cmdq, .fault, .vault, .book, .tally, .twin, .bench, .pwr, .image, .ch, .free, .out] L = true) (hF : State.onlyIn L s₀ x₀) : State.onlyIn L s₀ (effRackChannelComplete c x₀) := by
  refine State.onlyIn_step hL hF ?_
  unfold effRackChannelComplete
  try dsimp only
  repeat' first | with_reducible exact State.onlyIn_refl _ _ | with_reducible apply in_rackChannel | with_reducible apply in_ite | with_reducible apply in_ite2 | with_reducible rfl | exact .inl rfl | exact .inr rfl | rfl | with_reducible assumption | intro _ | (split <;> try (rename_i h; have e := congrArg Prod.snd h; dsimp only at e; subst e))

theorem in_effClaimConditionMet {L : List StPart} {s₀ x₀ : State} (hL : stPartsIn [.twin] L = true) (hF : State.onlyIn L s₀ x₀) : State.onlyIn L s₀ (effClaimConditionMet x₀) := by
  refine State.onlyIn_step hL hF ?_
  unfold effClaimConditionMet
  try dsimp only
  repeat' first | with_reducible exact State.onlyIn_refl _ _ | with_reducible apply in_claimMet | with_reducible apply in_ite | with_reducible apply in_ite2 | with_reducible rfl | exact .inl rfl | exact .inr rfl | rfl | with_reducible assumption | intro _ | (split <;> try (rename_i h; have e := congrArg Prod.snd h; dsimp only at e; subst e))

theorem in_effTwinLaneSync {L : List StPart} {s₀ x₀ : State} (lane : Fin 2) (up : Bool) (hL : stPartsIn [.twin] L = true) (hF : State.onlyIn L s₀ x₀) : State.onlyIn L s₀ (effTwinLaneSync lane up x₀) := by
  refine State.onlyIn_step hL hF ?_
  unfold effTwinLaneSync
  try dsimp only
  repeat' first | with_reducible exact State.onlyIn_refl _ _ | with_reducible apply in_twinLaneSync | with_reducible apply in_ite | with_reducible apply in_ite2 | with_reducible rfl | exact .inl rfl | exact .inr rfl | rfl | with_reducible assumption | intro _ | (split <;> try (rename_i h; have e := congrArg Prod.snd h; dsimp only at e; subst e))

theorem in_effTwinTimeFrameSend {L : List StPart} {s₀ x₀ : State} (c : ChanIx) (ps : ℕ) (hL : stPartsIn [.twin, .out] L = true) (hF : State.onlyIn L s₀ x₀) : State.onlyIn L s₀ (effTwinTimeFrameSend c ps x₀) := by
  refine State.onlyIn_step hL hF ?_
  unfold effTwinTimeFrameSend
  try dsimp only
  repeat' first | with_reducible exact State.onlyIn_refl _ _ | with_reducible apply in_timeSend | with_reducible apply in_ite | with_reducible apply in_ite2 | with_reducible rfl | exact .inl rfl | exact .inr rfl | rfl | with_reducible assumption | intro _ | (split <;> try (rename_i h; have e := congrArg Prod.snd h; dsimp only at e; subst e))

theorem in_effTwinTimeFrameRx {L : List StPart} {s₀ x₀ : State} (lane : Fin 2) (bs : Bytes) (ps : ℕ) (hL : stPartsIn [.hostif, .cmdq, .fault, .vault, .book, .tally, .twin, .bench, .pwr, .image, .ch, .free, .out] L = true) (hF : State.onlyIn L s₀ x₀) : State.onlyIn L s₀ (effTwinTimeFrameRx lane bs ps x₀) := by
  refine State.onlyIn_step hL hF ?_
  unfold effTwinTimeFrameRx
  try dsimp only
  repeat' first | with_reducible exact State.onlyIn_refl _ _ | with_reducible apply in_timeFrame | with_reducible apply in_ite | with_reducible apply in_ite2 | with_reducible rfl | exact .inl rfl | exact .inr rfl | rfl | with_reducible assumption | intro _ | (split <;> try (rename_i h; have e := congrArg Prod.snd h; dsimp only at e; subst e))

theorem in_effJourFrameRx {L : List StPart} {s₀ x₀ : State} (lane : Fin 2) (f : JourFrame) (hL : stPartsIn [.hostif, .cmdq, .fault, .vault, .book, .tally, .twin, .bench, .pwr, .image, .ch, .free, .out] L = true) (hF : State.onlyIn L s₀ x₀) : State.onlyIn L s₀ (effJourFrameRx lane f x₀) := by
  refine State.onlyIn_step hL hF ?_
  unfold effJourFrameRx
  try dsimp only
  repeat' first | with_reducible exact State.onlyIn_refl _ _ | with_reducible apply in_jourFrame | with_reducible apply in_ite | with_reducible apply in_ite2 | with_reducible rfl | exact .inl rfl | exact .inr rfl | rfl | with_reducible assumption | intro _ | (split <;> try (rename_i h; have e := congrArg Prod.snd h; dsimp only at e; subst e))

theorem in_effClientFrameRx {L : List StPart} {s₀ x₀ : State} (lane : Fin 2) (bs : Bytes) (hL : stPartsIn [.hostif, .cmdq, .fault, .vault, .book, .tally, .twin, .bench, .pwr, .image, .ch, .free, .out] L = true) (hF : State.onlyIn L s₀ x₀) : State.onlyIn L s₀ (effClientFrameRx lane bs x₀) := by
  refine State.onlyIn_step hL hF ?_
  unfold effClientFrameRx
  try dsimp only
  repeat' first | with_reducible exact State.onlyIn_refl _ _ | with_reducible apply in_clientFrame | with_reducible apply in_ite | with_reducible apply in_ite2 | with_reducible rfl | exact .inl rfl | exact .inr rfl | rfl | with_reducible assumption | intro _ | (split <;> try (rename_i h; have e := congrArg Prod.snd h; dsimp only at e; subst e))

theorem in_effVintFrameRx {L : List StPart} {s₀ x₀ : State} (lane : Fin 2) (f : VintFrame) (hL : stPartsIn [.hostif, .cmdq, .fault, .vault, .book, .tally, .twin, .bench, .pwr, .image, .ch, .free, .out] L = true) (hF : State.onlyIn L s₀ x₀) : State.onlyIn L s₀ (effVintFrameRx lane f x₀) := by
  refine State.onlyIn_step hL hF ?_
  unfold effVintFrameRx
  try dsimp only
  repeat' first | with_reducible exact State.onlyIn_refl _ _ | with_reducible apply in_vintFrame | with_reducible apply in_ite | with_reducible apply in_ite2 | with_reducible rfl | exact .inl rfl | exact .inr rfl | rfl | with_reducible assumption | intro _ | (split <;> try (rename_i h; have e := congrArg Prod.snd h; dsimp only at e; subst e))

theorem in_effResyncFrameRx {L : List StPart} {s₀ x₀ : State} (lane : Fin 2) (bs : Bytes) (hL : stPartsIn [.hostif, .cmdq, .fault, .vault, .book, .tally, .twin, .bench, .pwr, .image, .ch, .free, .out] L = true) (hF : State.onlyIn L s₀ x₀) : State.onlyIn L s₀ (effResyncFrameRx lane bs x₀) := by
  refine State.onlyIn_step hL hF ?_
  unfold effResyncFrameRx
  try dsimp only
  repeat' first | with_reducible exact State.onlyIn_refl _ _ | with_reducible apply in_resyncFrame | with_reducible apply in_ite | with_reducible apply in_ite2 | with_reducible rfl | exact .inl rfl | exact .inr rfl | rfl | with_reducible assumption | intro _ | (split <;> try (rename_i h; have e := congrArg Prod.snd h; dsimp only at e; subst e))

theorem in_effDrillFrameRx {L : List StPart} {s₀ x₀ : State} (lane : Fin 2) (bs : Bytes) (hL : stPartsIn [.hostif, .cmdq, .fault, .vault, .book, .tally, .twin, .bench, .pwr, .image, .ch, .free, .out] L = true) (hF : State.onlyIn L s₀ x₀) : State.onlyIn L s₀ (effDrillFrameRx lane bs x₀) := by
  refine State.onlyIn_step hL hF ?_
  unfold effDrillFrameRx
  try dsimp only
  repeat' first | with_reducible exact State.onlyIn_refl _ _ | with_reducible apply in_drillFrame | with_reducible apply in_ite | with_reducible apply in_ite2 | with_reducible rfl | exact .inl rfl | exact .inr rfl | rfl | with_reducible assumption | intro _ | (split <;> try (rename_i h; have e := congrArg Prod.snd h; dsimp only at e; subst e))

theorem in_effCmdRackingDrill {L : List StPart} {s₀ x₀ : State} (slot : Fin 64) (hL : stPartsIn [.hostif, .cmdq, .twin, .out] L = true) (hF : State.onlyIn L s₀ x₀) : State.onlyIn L s₀ (effCmdRackingDrill slot x₀) := by
  refine State.onlyIn_step hL hF ?_
  unfold effCmdRackingDrill
  try dsimp only
  repeat' first | with_reducible exact State.onlyIn_refl _ _ | with_reducible apply in_drillCmd | with_reducible apply in_ite | with_reducible apply in_ite2 | with_reducible rfl | exact .inl rfl | exact .inr rfl | rfl | with_reducible assumption | intro _ | (split <;> try (rename_i h; have e := congrArg Prod.snd h; dsimp only at e; subst e))

theorem in_effDrillRequestSend {L : List StPart} {s₀ x₀ : State} (hL : stPartsIn [.twin, .out] L = true) (hF : State.onlyIn L s₀ x₀) : State.onlyIn L s₀ (effDrillRequestSend x₀) := by
  refine State.onlyIn_step hL hF ?_
  unfold effDrillRequestSend
  try dsimp only
  repeat' first | with_reducible exact State.onlyIn_refl _ _ | with_reducible apply in_drillSend | with_reducible apply in_ite | with_reducible apply in_ite2 | with_reducible rfl | exact .inl rfl | exact .inr rfl | rfl | with_reducible assumption | intro _ | (split <;> try (rename_i h; have e := congrArg Prod.snd h; dsimp only at e; subst e))

theorem in_effDrillClaimInstant {L : List StPart} {s₀ x₀ : State} (hL : stPartsIn [.twin] L = true) (hF : State.onlyIn L s₀ x₀) : State.onlyIn L s₀ (effDrillClaimInstant x₀) := by
  refine State.onlyIn_step hL hF ?_
  unfold effDrillClaimInstant
  try dsimp only
  repeat' first | with_reducible exact State.onlyIn_refl _ _ | with_reducible apply in_claimMet | with_reducible apply in_ite | with_reducible apply in_ite2 | with_reducible rfl | exact .inl rfl | exact .inr rfl | rfl | with_reducible assumption | intro _ | (split <;> try (rename_i h; have e := congrArg Prod.snd h; dsimp only at e; subst e))

theorem in_effDrillTimeout {L : List StPart} {s₀ x₀ : State} (hL : stPartsIn [.hostif, .cmdq, .tally, .twin, .out] L = true) (hF : State.onlyIn L s₀ x₀) : State.onlyIn L s₀ (effDrillTimeout x₀) := by
  refine State.onlyIn_step hL hF ?_
  unfold effDrillTimeout
  try dsimp only
  repeat' first | with_reducible exact State.onlyIn_refl _ _ | with_reducible apply in_drillTimeout | with_reducible apply in_ite | with_reducible apply in_ite2 | with_reducible rfl | exact .inl rfl | exact .inr rfl | rfl | with_reducible assumption | intro _ | (split <;> try (rename_i h; have e := congrArg Prod.snd h; dsimp only at e; subst e))

end Sys2Proof.Machine
end

