-- ==== Sys2Proof/Laws/ComWrites.lean ====
section
/-! SUPPORT. What a write of a register of the common complex comes to (R8 to R13, R23): the word stored, the entry in the cellar book, the
register's own action. -/
namespace Sys2Proof.Machine

/-- A block outside the parts that may change keeps its registers. -/
theorem State.onlyIn_rf {L : List StPart} {s t : State} (h : State.onlyIn L s t) (b : CB) (hb : b.part ∉ L) : t.rf b = s.rf b := by
  have := h.2.2.2 _ hb
  cases b <;> first | exact this.2 | exact this.2.2 | exact this

theorem State.onlyIn_gword {L : List StPart} {s t : State} (h : State.onlyIn L s t) (b : CB) (off : ℕ) (hb : b.part ∉ L) : t.gword b off = s.gword b off := by
  unfold State.gword
  rw [State.onlyIn_rf h b hb]

theorem State.onlyIn_gcur {L : List StPart} {s t : State} (h : State.onlyIn L s t) (f : GF) (hb : f.blk.part ∉ L) : t.gcur f = s.gcur f := by
  unfold State.gcur
  rw [State.onlyIn_gword h _ _ hb]

theorem Channel.onlyIn_rf {L : List ChPart} {c d : Channel} (h : Channel.onlyIn L c d) (b : KB) (hb : b.part ∉ L) : d.rf b = c.rf b := by
  have := h.2.2.2.2 _ hb
  cases b <;> exact this.2

theorem Channel.onlyIn_word {L : List ChPart} {c d : Channel} (h : Channel.onlyIn L c d) (b : KB) (off : ℕ) (hb : b.part ∉ L) : d.word b off = c.word b off := by
  unfold Channel.word
  rw [Channel.onlyIn_rf h b hb]

/-- A sticky flag that hardware sets (R9), outside the registers of the vectors themselves. -/
theorem gword_gevtMask (s : State) {b : CB} (off m : ℕ) (hb : b ≠ .hostif) : (s.gevtMask b off m).gword b off = s.gword b off ||| BitVec.ofNat 32 m := by
  set s1 := s.gsetWord b off (s.gword b off ||| BitVec.ofNat 32 m) with h1
  set s2 := s1.setRf b { s1.rf b with hset := smPut 0#32 (s1.rf b).hset off (smGet 0#32 (s1.rf b).hset off ||| BitVec.ofNat 32 m) } with h2
  have hF : State.onlyIn [.hostif, .out] s2 (s.gevtMask b off m) :=
    in_fold (State.onlyIn_refl _ _) (fun y k => in_ite (in_msix _ rfl (State.onlyIn_refl _ _)) (State.onlyIn_refl _ _))
  rw [State.onlyIn_gword hF b off (by cases b <;> first | exact absurd rfl hb | decide)]
  have : s2.gword b off = s1.gword b off := by simp [h2, State.gword]
  rw [this, h1, gword_gsetWord_self]

theorem gcur_gevt (s : State) (f : GF) (hb : f.blk ≠ .hostif) (hw : f.w = 1) (hl : f.lsb < 32) : (s.gevt f).gcur f = 1 := by
  unfold State.gcur State.gevt
  rw [gword_gevtMask _ _ _ hb, hw]
  exact or_bit _ _ hl

namespace State

theorem gStore_eq (s : State) (l : Bool) (b : CB) (off : ℕ) (v : Word) : ∃ f, s.gStore l b off v = s.setRf b f ∧ f.use = (s.rf b).use := by
  unfold gStore
  split
  · exact ⟨s.rf b, by cases b <;> rfl, rfl⟩
  · exact ⟨_, rfl, rfl⟩

/-- The word that a host's write leaves in a register, by the field rules alone (R8 to R12). -/
def gStoredWord (s : State) (b : CB) (off : ℕ) (v : Word) (g : RegSpec) : Word :=
  g.write (s.gLocked b) v (smGet 0#32 (s.rf b).hset off) (s.gword b off)

theorem gStore_word (s : State) (l : Bool) (b : CB) (off : ℕ) (v : Word) {g : RegSpec} (hg : findReg (gbRegs b) off = some g) :
    (s.gStore l b off v).gword b off = s.gStoredWord b off v g := by
  simp [gStore, hg, gStoredWord, gword]

theorem gStore_word_ne (s : State) (l : Bool) (a b : CB) {off o : ℕ} (v : Word) (h : a ≠ b ∨ off ≠ o) : (s.gStore l a off v).gword b o = s.gword b o := by
  unfold gStore
  split
  · rfl
  · by_cases e : a = b
    · subst e
      have hp : o ≠ off := fun k => h.elim (fun z => z rfl) (fun z => z k.symm)
      simp [gword, smGet_smPut_ne _ _ _ _ hp]
    · simp [gword, rf_setRf_ne _ _ e]

/-- A write of a register that stands alone: the word is stored; a write that counts is an entry of the cellar book; then the register
acts. -/
theorem gHostWrite_single (s : State) (org : Origin) (b : CB) {off : ℕ} (v : Word) {g : RegSpec} (hg : findReg (gbRegs b) off = some g)
    (hm : multiIn (gbMulti b) off = none) (hw : g.writable = true) (hi : s.gIgnores b off = false)
    (hs : ∀ t : State, t.gStored b off v = t) :
    ∃ s2 : State, (s2 = s.gStore false b off v ∨ ∃ c, s2 = (s.gStore false b off v).book1 c) ∧ s.gHostWrite org b off v = (s2.gAction org b off v).2 := by
  unfold gHostWrite gWriteFields
  simp only [hg, hm, hw, hi, hs, Bool.not_true, Bool.or_false, Bool.false_eq_true, if_false]
  split
  · exact ⟨_, .inr ⟨_, rfl⟩, rfl⟩
  · exact ⟨_, .inl rfl, rfl⟩

end State

/-- What stands between a write and the register's action: the word stored and, it may be, an entry of the cellar book. -/
theorem onlyIn_s2 {s s2 : State} {b : CB} {off : ℕ} {v : Word} (h : s2 = s.gStore false b off v ∨ ∃ c, s2 = (s.gStore false b off v).book1 c) :
    State.onlyIn [b.part, .hostif, .book, .tally, .free, .out] s s2 := by
  have h1 : State.onlyIn [b.part, .hostif, .book, .tally, .free, .out] s (s.gStore false b off v) := in_gStore _ _ _ _ (by simp) (State.onlyIn_refl _ _)
  rcases h with h | ⟨c, h⟩
  · rw [h]; exact h1
  · rw [h]
    exact in_book1 _ (by cases b <;> rfl) h1

/-- A command that writes a register of the common complex: what holds of the register's action holds of the command. -/
theorem acts_cmd {i : Instr} {s : State} {p : HostPath} {q : State → Prop} (b : CB) (off : ℕ) (v : Word)
    (hm' : mayRate i = false) (hx : s.clear.effect i = s.clear.writeCom p b off v) (ho : s.open p) (ha : off % 4 = 0) (hb : off < 0x10000)
    (hreg : (findReg (gbRegs b) off).any (·.writable) = true) (hm : multiIn (gbMulti b) off = none) (hi : s.clear.gIgnores b off = false)
    (hs : ∀ t : State, t.gStored b off v = t)
    (hq : ∀ s2 : State, (s2 = s.clear.gStore false b off v ∨ ∃ c, s2 = (s.clear.gStore false b off v).book1 c) → q (s2.gAction p.org b off v).2) : Acts i s q := by
  obtain ⟨g, hg, hw⟩ := Option.any_eq_true_iff_get _ _ |>.mp hreg |> fun ⟨h, w⟩ => (⟨_, Option.some_get h |>.symm, w⟩ : ∃ g, findReg (gbRegs b) off = some g ∧ g.writable = true)
  refine acts_write b off v hm' hx ho ha hb (by rw [hg]; rfl) ?_
  obtain ⟨s2, h2, he⟩ := State.gHostWrite_single s.clear p.org b v hg hm hw hi hs
  rw [he]
  exact hq s2 h2

end Sys2Proof.Machine
end

