-- ==== Sys2Proof/Laws/ComMarks.lean ====
section
/-! SUPPORT. What a field set, an event or an output of the common complex changes and keeps (R9, R11, R373). -/
namespace Sys2Proof.Machine

theorem gword_gput_ne (s : State) (f : GF) (v : ℕ) (b : CB) (o : ℕ) (h : f.blk ≠ b ∨ f.off ≠ o) : (s.gput f v).gword b o = s.gword b o :=
  gword_gsetWord_ne s f.blk b _ h

theorem gword_msix (s : State) (v : ℕ) (b : CB) (o : ℕ) (hb : b ≠ .hostif) : (s.msix v).gword b o = s.gword b o :=
  State.onlyIn_gword (in_msix v (L := [.hostif, .out]) rfl (State.onlyIn_refl _ _)) b o (by cases b <;> first | exact absurd rfl hb | decide)

theorem gword_gevt_ne (s : State) (f : GF) (b : CB) (o : ℕ) (hb : b ≠ .hostif) (h : f.blk ≠ b ∨ f.off ≠ o) : (s.gevt f).gword b o = s.gword b o := by
  unfold State.gevt State.gevtMask
  extract_lets s1 g s2
  have hF : State.onlyIn [.hostif, .out] s2 (s.loader.marks.foldl (fun s k =>
      if k.1 == f.blk && k.2.1 == f.off && (BitVec.ofNat 32 (2 ^ f.lsb) &&& BitVec.ofNat 32 k.2.2.1) != 0#32 then s.msix k.2.2.2 else s) s2) :=
    in_fold (State.onlyIn_refl _ _) (fun y k => in_ite (in_msix _ rfl (State.onlyIn_refl _ _)) (State.onlyIn_refl _ _))
  rw [State.onlyIn_gword hF b o (by cases b <;> first | exact absurd rfl hb | decide)]
  have : s2.gword b o = s1.gword b o := by
    by_cases e : f.blk = b
    · subst e; simp [s2, g, State.gword]
    · simp only [s2, State.gword, State.rf, State.setRf]; rw [greg_get_set_ne _ _ e]
  rw [this]
  exact gword_gsetWord_ne s f.blk b _ h

theorem gcur_gput_lt (s : State) (f : GF) (v : ℕ) (h : f.lsb + f.w ≤ 32) (hv : v < 2 ^ f.w) : (s.gput f v).gcur f = v := by
  rw [gcur_gput_self _ _ _ h, Nat.mod_eq_of_lt hv]

theorem gcur_gput_off (s : State) (f g : GF) (v : ℕ) (h : f.blk ≠ g.blk ∨ f.off ≠ g.off) : (s.gput f v).gcur g = s.gcur g := by
  unfold State.gcur; rw [gword_gput_ne _ _ _ _ _ h]

theorem gcur_gevt_off (s : State) (f g : GF) (hb : g.blk ≠ .hostif) (h : f.blk ≠ g.blk ∨ f.off ≠ g.off) : (s.gevt f).gcur g = s.gcur g := by
  unfold State.gcur; rw [gword_gevt_ne _ _ _ _ hb h]

/-- From `s` to `t` only registers, messages and outputs have changed, no value in use, and no word that `P` names. -/
structure Marked (P : CB → ℕ → Prop) (s t : State) : Prop where
  plain : t = { s with regs := t.regs, host := t.host, out := t.out }
  use : ∀ b o, t.guse b o = s.guse b o
  word : ∀ b o, P b o → t.gword b o = s.gword b o

variable {P : CB → ℕ → Prop}

theorem Marked.refl (s : State) : Marked P s s := ⟨rfl, fun _ _ => rfl, fun _ _ _ => rfl⟩
theorem Marked.trans {a b c : State} (h : Marked P a b) (g : Marked P b c) : Marked P a c :=
  ⟨by rw [g.plain, h.plain], fun x o => (g.use x o).trans (h.use x o), fun x o p => (g.word x o p).trans (h.word x o p)⟩
theorem Marked.mono {Q : CB → ℕ → Prop} {s t : State} (h : Marked P s t) (q : ∀ b o, Q b o → P b o) : Marked Q s t :=
  ⟨h.plain, h.use, fun b o x => h.word b o (q b o x)⟩
theorem Marked.ite {s a b : State} {c : Prop} [Decidable c] (ha : Marked P s a) (hb : Marked P s b) : Marked P s (if c then a else b) := by split <;> assumption
theorem Marked.fold {α : Type} {g : State → α → State} (hg : ∀ y a, Marked P y (g y a)) : ∀ (l : List α) (x : State), Marked P x (l.foldl g x)
  | [], _ => Marked.refl _
  | a :: l, x => (hg x a).trans (Marked.fold hg l (g x a))

theorem mk_gput (s : State) (f : GF) (v : ℕ) (h : ∀ o, P f.blk o → f.off ≠ o) : Marked P s (s.gput f v) :=
  ⟨rfl, fun b o => by
    by_cases e : f.blk = b
    · subst e; simp [State.gput, State.gsetWord, State.guse]
    · simp only [State.gput, State.gsetWord, State.guse, State.rf, State.setRf]; rw [greg_get_set_ne _ _ e], fun b o p => gword_gput_ne _ _ _ _ _ (by
    by_cases e : f.blk = b
    · exact .inr (h o (e ▸ p))
    · exact .inl e)⟩

theorem mk_emit (s : State) (o : Output) : Marked P s (s.emit o) := ⟨rfl, fun _ _ => rfl, fun _ _ _ => rfl⟩

theorem mk_msix (s : State) (v : ℕ) (hP : ∀ o, ¬ P .hostif o) : Marked P s (s.msix v) := by
  unfold State.msix
  split
  · exact Marked.refl _
  split
  · refine ⟨rfl, fun b o => ?_, fun b o p => gword_gsetWord_ne s .hostif b _ (.inl fun e => hP o (e ▸ p))⟩
    by_cases e : CB.hostif = b
    · subst e; simp [State.msixPend, State.gsetWord, State.guse]
    · simp only [State.msixPend, State.gsetWord, State.guse, State.rf, State.setRf]; rw [greg_get_set_ne _ _ e]
  · exact ⟨rfl, fun _ _ => rfl, fun _ _ _ => rfl⟩

theorem mk_gevt (s : State) (f : GF) (hP : ∀ o, ¬ P .hostif o) (h : ∀ o, P f.blk o → f.off ≠ o) : Marked P s (s.gevt f) := by
  have hw : ∀ b o, P b o → (s.gevt f).gword b o = s.gword b o := fun b o p => by
    refine gword_gevt_ne s f b o (fun e => hP o (e ▸ p)) ?_
    by_cases e : f.blk = b
    · exact .inr (h o (e ▸ p))
    · exact .inl e
  unfold State.gevt State.gevtMask at hw ⊢
  extract_lets s1 g s2 at hw
  extract_lets s1 g s2
  have h2 : Marked (fun _ _ => False) s s2 := ⟨rfl, fun b o => by
    by_cases e : f.blk = b
    · subst e; simp [s2, s1, g, State.gsetWord, State.guse]
    · simp only [s2, s1, State.gsetWord, State.guse, State.rf, State.setRf]; rw [greg_get_set_ne _ _ e, greg_get_set_ne _ _ e], fun _ _ p => p.elim⟩
  have hf : Marked (fun _ _ => False) s2 (s.loader.marks.foldl (fun s k =>
      if k.1 == f.blk && k.2.1 == f.off && (BitVec.ofNat 32 (2 ^ f.lsb) &&& BitVec.ofNat 32 k.2.2.1) != 0#32 then s.msix k.2.2.2 else s) s2) :=
    Marked.fold (fun y k => Marked.ite (mk_msix _ _ (fun _ h => h)) (Marked.refl _)) _ _
  exact ⟨(h2.trans hf).plain, (h2.trans hf).use, hw⟩

theorem Marked.gcur {s t : State} (h : Marked P s t) (f : GF) (p : P f.blk f.off) : t.gcur f = s.gcur f := by unfold State.gcur; rw [h.word _ _ p]
theorem Marked.gfld {s t : State} (h : Marked P s t) (f : GF) (p : f.sh = true ∨ P f.blk f.off) : t.gfld f = s.gfld f := by
  unfold State.gfld
  by_cases e : f.sh = true
  · rw [if_pos e, if_pos e, h.use]
  · rw [if_neg e, if_neg e, h.word _ _ (p.resolve_left e)]
theorem Marked.gflag {s t : State} (h : Marked P s t) (f : GF) (p : f.sh = true ∨ P f.blk f.off) : t.gflag f = s.gflag f := by unfold State.gflag; rw [h.gfld f p]
theorem Marked.twin {s t : State} (h : Marked P s t) : t.twin = s.twin := by rw [h.plain]
theorem Marked.tick {s t : State} (h : Marked P s t) : t.tick = s.tick := by rw [h.plain]
theorem Marked.ch {s t : State} (h : Marked P s t) : t.ch = s.ch := by rw [h.plain]
theorem Marked.img {s t : State} (h : Marked P s t) : t.img = s.img := by rw [h.plain]
theorem Marked.cmdq {s t : State} (h : Marked P s t) : t.cmdq = s.cmdq := by rw [h.plain]
theorem Marked.fault {s t : State} (h : Marked P s t) : t.fault = s.fault := by rw [h.plain]
theorem Marked.pwr {s t : State} (h : Marked P s t) : t.pwr = s.pwr := by rw [h.plain]
theorem Marked.vault {s t : State} (h : Marked P s t) : t.vault = s.vault := by rw [h.plain]
theorem Marked.tally {s t : State} (h : Marked P s t) : t.tally = s.tally := by rw [h.plain]
theorem Marked.book {s t : State} (h : Marked P s t) : t.book = s.book := by rw [h.plain]
theorem Marked.loader {s t : State} (h : Marked P s t) : t.loader = s.loader := by rw [h.plain]
theorem Marked.router {s t : State} (h : Marked P s t) : t.router = s.router := by rw [h.plain]

end Sys2Proof.Machine
end

