-- ==== Sys2Proof/Laws/Marks.lean ====
section
/-! SUPPORT. What the smallest operations of a channel leave of its state: a field at a time. -/
namespace Sys2Proof.Machine.Channel

@[simp] theorem setWord_ix (c : Channel) (b : KB) (off : ℕ) (w : Word) : (c.setWord b off w).ix = c.ix := rfl
@[simp] theorem setWord_topo (c : Channel) (b : KB) (off : ℕ) (w : Word) : (c.setWord b off w).topo = c.topo := rfl
@[simp] theorem setWord_drive (c : Channel) (b : KB) (off : ℕ) (w : Word) : (c.setWord b off w).drive = c.drive := rfl
@[simp] theorem setWord_safe (c : Channel) (b : KB) (off : ℕ) (w : Word) : (c.setWord b off w).safe = c.safe := rfl
@[simp] theorem setWord_dpll (c : Channel) (b : KB) (off : ℕ) (w : Word) : (c.setWord b off w).dpll = c.dpll := rfl
@[simp] theorem setWord_ref (c : Channel) (b : KB) (off : ℕ) (w : Word) : (c.setWord b off w).ref = c.ref := rfl
@[simp] theorem setWord_scale (c : Channel) (b : KB) (off : ℕ) (w : Word) : (c.setWord b off w).scale = c.scale := rfl
@[simp] theorem setWord_jour (c : Channel) (b : KB) (off : ℕ) (w : Word) : (c.setWord b off w).jour = c.jour := rfl
@[simp] theorem setWord_syn (c : Channel) (b : KB) (off : ℕ) (w : Word) : (c.setWord b off w).syn = c.syn := rfl
@[simp] theorem setWord_gnss (c : Channel) (b : KB) (off : ℕ) (w : Word) : (c.setWord b off w).gnss = c.gnss := rfl
@[simp] theorem setWord_sched (c : Channel) (b : KB) (off : ℕ) (w : Word) : (c.setWord b off w).sched = c.sched := rfl
@[simp] theorem setWord_ports (c : Channel) (b : KB) (off : ℕ) (w : Word) : (c.setWord b off w).ports = c.ports := rfl
@[simp] theorem setWord_sealb (c : Channel) (b : KB) (off : ℕ) (w : Word) : (c.setWord b off w).sealb = c.sealb := rfl
@[simp] theorem setWord_pmu (c : Channel) (b : KB) (off : ℕ) (w : Word) : (c.setWord b off w).pmu = c.pmu := rfl
@[simp] theorem setWord_ends (c : Channel) (b : KB) (off : ℕ) (w : Word) : (c.setWord b off w).ends = c.ends := rfl
@[simp] theorem setWord_ens (c : Channel) (b : KB) (off : ℕ) (w : Word) : (c.setWord b off w).ens = c.ens := rfl
@[simp] theorem setWord_tprev (c : Channel) (b : KB) (off : ℕ) (w : Word) : (c.setWord b off w).tprev = c.tprev := rfl
@[simp] theorem setWord_epi (c : Channel) (b : KB) (off : ℕ) (w : Word) : (c.setWord b off w).epi = c.epi := rfl
@[simp] theorem setWord_freeCtr (c : Channel) (b : KB) (off : ℕ) (w : Word) : (c.setWord b off w).freeCtr = c.freeCtr := rfl
@[simp] theorem setWord_effs (c : Channel) (b : KB) (off : ℕ) (w : Word) : (c.setWord b off w).effs = c.effs := rfl
@[simp] theorem setRf_tprev (c : Channel) (b : KB) (f : RegFile) : (c.setRf b f).tprev = c.tprev := rfl
@[simp] theorem setRf_epi (c : Channel) (b : KB) (f : RegFile) : (c.setRf b f).epi = c.epi := rfl
@[simp] theorem setRf_freeCtr (c : Channel) (b : KB) (f : RegFile) : (c.setRf b f).freeCtr = c.freeCtr := rfl
@[simp] theorem put_ix (c : Channel) (f : KF) (v : ℕ) : (c.put f v).ix = c.ix := rfl
@[simp] theorem put_topo (c : Channel) (f : KF) (v : ℕ) : (c.put f v).topo = c.topo := rfl
@[simp] theorem put_drive (c : Channel) (f : KF) (v : ℕ) : (c.put f v).drive = c.drive := rfl
@[simp] theorem put_safe (c : Channel) (f : KF) (v : ℕ) : (c.put f v).safe = c.safe := rfl
@[simp] theorem put_dpll (c : Channel) (f : KF) (v : ℕ) : (c.put f v).dpll = c.dpll := rfl
@[simp] theorem put_ref (c : Channel) (f : KF) (v : ℕ) : (c.put f v).ref = c.ref := rfl
@[simp] theorem put_scale (c : Channel) (f : KF) (v : ℕ) : (c.put f v).scale = c.scale := rfl
@[simp] theorem put_jour (c : Channel) (f : KF) (v : ℕ) : (c.put f v).jour = c.jour := rfl
@[simp] theorem put_syn (c : Channel) (f : KF) (v : ℕ) : (c.put f v).syn = c.syn := rfl
@[simp] theorem put_gnss (c : Channel) (f : KF) (v : ℕ) : (c.put f v).gnss = c.gnss := rfl
@[simp] theorem put_sched (c : Channel) (f : KF) (v : ℕ) : (c.put f v).sched = c.sched := rfl
@[simp] theorem put_ports (c : Channel) (f : KF) (v : ℕ) : (c.put f v).ports = c.ports := rfl
@[simp] theorem put_sealb (c : Channel) (f : KF) (v : ℕ) : (c.put f v).sealb = c.sealb := rfl
@[simp] theorem put_pmu (c : Channel) (f : KF) (v : ℕ) : (c.put f v).pmu = c.pmu := rfl
@[simp] theorem put_ends (c : Channel) (f : KF) (v : ℕ) : (c.put f v).ends = c.ends := rfl
@[simp] theorem put_ens (c : Channel) (f : KF) (v : ℕ) : (c.put f v).ens = c.ens := rfl
@[simp] theorem put_tprev (c : Channel) (f : KF) (v : ℕ) : (c.put f v).tprev = c.tprev := rfl
@[simp] theorem put_epi (c : Channel) (f : KF) (v : ℕ) : (c.put f v).epi = c.epi := rfl
@[simp] theorem put_freeCtr (c : Channel) (f : KF) (v : ℕ) : (c.put f v).freeCtr = c.freeCtr := rfl
@[simp] theorem put_effs (c : Channel) (f : KF) (v : ℕ) : (c.put f v).effs = c.effs := rfl
@[simp] theorem bump_ix (c : Channel) (f : KF) : (c.bump f).ix = c.ix := rfl
@[simp] theorem bump_topo (c : Channel) (f : KF) : (c.bump f).topo = c.topo := rfl
@[simp] theorem bump_drive (c : Channel) (f : KF) : (c.bump f).drive = c.drive := rfl
@[simp] theorem bump_safe (c : Channel) (f : KF) : (c.bump f).safe = c.safe := rfl
@[simp] theorem bump_dpll (c : Channel) (f : KF) : (c.bump f).dpll = c.dpll := rfl
@[simp] theorem bump_ref (c : Channel) (f : KF) : (c.bump f).ref = c.ref := rfl
@[simp] theorem bump_scale (c : Channel) (f : KF) : (c.bump f).scale = c.scale := rfl
@[simp] theorem bump_jour (c : Channel) (f : KF) : (c.bump f).jour = c.jour := rfl
@[simp] theorem bump_syn (c : Channel) (f : KF) : (c.bump f).syn = c.syn := rfl
@[simp] theorem bump_gnss (c : Channel) (f : KF) : (c.bump f).gnss = c.gnss := rfl
@[simp] theorem bump_sched (c : Channel) (f : KF) : (c.bump f).sched = c.sched := rfl
@[simp] theorem bump_ports (c : Channel) (f : KF) : (c.bump f).ports = c.ports := rfl
@[simp] theorem bump_sealb (c : Channel) (f : KF) : (c.bump f).sealb = c.sealb := rfl
@[simp] theorem bump_pmu (c : Channel) (f : KF) : (c.bump f).pmu = c.pmu := rfl
@[simp] theorem bump_ends (c : Channel) (f : KF) : (c.bump f).ends = c.ends := rfl
@[simp] theorem bump_ens (c : Channel) (f : KF) : (c.bump f).ens = c.ens := rfl
@[simp] theorem bump_tprev (c : Channel) (f : KF) : (c.bump f).tprev = c.tprev := rfl
@[simp] theorem bump_epi (c : Channel) (f : KF) : (c.bump f).epi = c.epi := rfl
@[simp] theorem bump_freeCtr (c : Channel) (f : KF) : (c.bump f).freeCtr = c.freeCtr := rfl
@[simp] theorem bump_effs (c : Channel) (f : KF) : (c.bump f).effs = c.effs := rfl
@[simp] theorem bumpBy_ix (c : Channel) (f : KF) (n : ℕ) : (c.bumpBy f n).ix = c.ix := rfl
@[simp] theorem bumpBy_topo (c : Channel) (f : KF) (n : ℕ) : (c.bumpBy f n).topo = c.topo := rfl
@[simp] theorem bumpBy_drive (c : Channel) (f : KF) (n : ℕ) : (c.bumpBy f n).drive = c.drive := rfl
@[simp] theorem bumpBy_safe (c : Channel) (f : KF) (n : ℕ) : (c.bumpBy f n).safe = c.safe := rfl
@[simp] theorem bumpBy_dpll (c : Channel) (f : KF) (n : ℕ) : (c.bumpBy f n).dpll = c.dpll := rfl
@[simp] theorem bumpBy_ref (c : Channel) (f : KF) (n : ℕ) : (c.bumpBy f n).ref = c.ref := rfl
@[simp] theorem bumpBy_scale (c : Channel) (f : KF) (n : ℕ) : (c.bumpBy f n).scale = c.scale := rfl
@[simp] theorem bumpBy_jour (c : Channel) (f : KF) (n : ℕ) : (c.bumpBy f n).jour = c.jour := rfl
@[simp] theorem bumpBy_syn (c : Channel) (f : KF) (n : ℕ) : (c.bumpBy f n).syn = c.syn := rfl
@[simp] theorem bumpBy_gnss (c : Channel) (f : KF) (n : ℕ) : (c.bumpBy f n).gnss = c.gnss := rfl
@[simp] theorem bumpBy_sched (c : Channel) (f : KF) (n : ℕ) : (c.bumpBy f n).sched = c.sched := rfl
@[simp] theorem bumpBy_ports (c : Channel) (f : KF) (n : ℕ) : (c.bumpBy f n).ports = c.ports := rfl
@[simp] theorem bumpBy_sealb (c : Channel) (f : KF) (n : ℕ) : (c.bumpBy f n).sealb = c.sealb := rfl
@[simp] theorem bumpBy_pmu (c : Channel) (f : KF) (n : ℕ) : (c.bumpBy f n).pmu = c.pmu := rfl
@[simp] theorem bumpBy_ends (c : Channel) (f : KF) (n : ℕ) : (c.bumpBy f n).ends = c.ends := rfl
@[simp] theorem bumpBy_ens (c : Channel) (f : KF) (n : ℕ) : (c.bumpBy f n).ens = c.ens := rfl
@[simp] theorem bumpBy_tprev (c : Channel) (f : KF) (n : ℕ) : (c.bumpBy f n).tprev = c.tprev := rfl
@[simp] theorem bumpBy_epi (c : Channel) (f : KF) (n : ℕ) : (c.bumpBy f n).epi = c.epi := rfl
@[simp] theorem bumpBy_freeCtr (c : Channel) (f : KF) (n : ℕ) : (c.bumpBy f n).freeCtr = c.freeCtr := rfl
@[simp] theorem bumpBy_effs (c : Channel) (f : KF) (n : ℕ) : (c.bumpBy f n).effs = c.effs := rfl
@[simp] theorem bumpSat_ix (c : Channel) (f : KF) : (c.bumpSat f).ix = c.ix := rfl
@[simp] theorem bumpSat_topo (c : Channel) (f : KF) : (c.bumpSat f).topo = c.topo := rfl
@[simp] theorem bumpSat_drive (c : Channel) (f : KF) : (c.bumpSat f).drive = c.drive := rfl
@[simp] theorem bumpSat_safe (c : Channel) (f : KF) : (c.bumpSat f).safe = c.safe := rfl
@[simp] theorem bumpSat_dpll (c : Channel) (f : KF) : (c.bumpSat f).dpll = c.dpll := rfl
@[simp] theorem bumpSat_ref (c : Channel) (f : KF) : (c.bumpSat f).ref = c.ref := rfl
@[simp] theorem bumpSat_scale (c : Channel) (f : KF) : (c.bumpSat f).scale = c.scale := rfl
@[simp] theorem bumpSat_jour (c : Channel) (f : KF) : (c.bumpSat f).jour = c.jour := rfl
@[simp] theorem bumpSat_syn (c : Channel) (f : KF) : (c.bumpSat f).syn = c.syn := rfl
@[simp] theorem bumpSat_gnss (c : Channel) (f : KF) : (c.bumpSat f).gnss = c.gnss := rfl
@[simp] theorem bumpSat_sched (c : Channel) (f : KF) : (c.bumpSat f).sched = c.sched := rfl
@[simp] theorem bumpSat_ports (c : Channel) (f : KF) : (c.bumpSat f).ports = c.ports := rfl
@[simp] theorem bumpSat_sealb (c : Channel) (f : KF) : (c.bumpSat f).sealb = c.sealb := rfl
@[simp] theorem bumpSat_pmu (c : Channel) (f : KF) : (c.bumpSat f).pmu = c.pmu := rfl
@[simp] theorem bumpSat_ends (c : Channel) (f : KF) : (c.bumpSat f).ends = c.ends := rfl
@[simp] theorem bumpSat_ens (c : Channel) (f : KF) : (c.bumpSat f).ens = c.ens := rfl
@[simp] theorem bumpSat_tprev (c : Channel) (f : KF) : (c.bumpSat f).tprev = c.tprev := rfl
@[simp] theorem bumpSat_epi (c : Channel) (f : KF) : (c.bumpSat f).epi = c.epi := rfl
@[simp] theorem bumpSat_freeCtr (c : Channel) (f : KF) : (c.bumpSat f).freeCtr = c.freeCtr := rfl
@[simp] theorem bumpSat_effs (c : Channel) (f : KF) : (c.bumpSat f).effs = c.effs := rfl
@[simp] theorem ask_ix (c : Channel) (e : Eff) : (c.ask e).ix = c.ix := rfl
@[simp] theorem ask_topo (c : Channel) (e : Eff) : (c.ask e).topo = c.topo := rfl
@[simp] theorem ask_drive (c : Channel) (e : Eff) : (c.ask e).drive = c.drive := rfl
@[simp] theorem ask_safe (c : Channel) (e : Eff) : (c.ask e).safe = c.safe := rfl
@[simp] theorem ask_dpll (c : Channel) (e : Eff) : (c.ask e).dpll = c.dpll := rfl
@[simp] theorem ask_ref (c : Channel) (e : Eff) : (c.ask e).ref = c.ref := rfl
@[simp] theorem ask_scale (c : Channel) (e : Eff) : (c.ask e).scale = c.scale := rfl
@[simp] theorem ask_jour (c : Channel) (e : Eff) : (c.ask e).jour = c.jour := rfl
@[simp] theorem ask_syn (c : Channel) (e : Eff) : (c.ask e).syn = c.syn := rfl
@[simp] theorem ask_gnss (c : Channel) (e : Eff) : (c.ask e).gnss = c.gnss := rfl
@[simp] theorem ask_sched (c : Channel) (e : Eff) : (c.ask e).sched = c.sched := rfl
@[simp] theorem ask_ports (c : Channel) (e : Eff) : (c.ask e).ports = c.ports := rfl
@[simp] theorem ask_sealb (c : Channel) (e : Eff) : (c.ask e).sealb = c.sealb := rfl
@[simp] theorem ask_pmu (c : Channel) (e : Eff) : (c.ask e).pmu = c.pmu := rfl
@[simp] theorem ask_ends (c : Channel) (e : Eff) : (c.ask e).ends = c.ends := rfl
@[simp] theorem ask_ens (c : Channel) (e : Eff) : (c.ask e).ens = c.ens := rfl
@[simp] theorem ask_tprev (c : Channel) (e : Eff) : (c.ask e).tprev = c.tprev := rfl
@[simp] theorem ask_epi (c : Channel) (e : Eff) : (c.ask e).epi = c.epi := rfl
@[simp] theorem ask_freeCtr (c : Channel) (e : Eff) : (c.ask e).freeCtr = c.freeCtr := rfl
@[simp] theorem ask_effs (c : Channel) (e : Eff) : (c.ask e).effs = c.effs ++ [e] := rfl
@[simp] theorem evtMask_ix (c : Channel) (b : KB) (off m : ℕ) : (c.evtMask b off m).ix = c.ix := rfl
@[simp] theorem evtMask_topo (c : Channel) (b : KB) (off m : ℕ) : (c.evtMask b off m).topo = c.topo := rfl
@[simp] theorem evtMask_drive (c : Channel) (b : KB) (off m : ℕ) : (c.evtMask b off m).drive = c.drive := rfl
@[simp] theorem evtMask_safe (c : Channel) (b : KB) (off m : ℕ) : (c.evtMask b off m).safe = c.safe := rfl
@[simp] theorem evtMask_dpll (c : Channel) (b : KB) (off m : ℕ) : (c.evtMask b off m).dpll = c.dpll := rfl
@[simp] theorem evtMask_ref (c : Channel) (b : KB) (off m : ℕ) : (c.evtMask b off m).ref = c.ref := rfl
@[simp] theorem evtMask_scale (c : Channel) (b : KB) (off m : ℕ) : (c.evtMask b off m).scale = c.scale := rfl
@[simp] theorem evtMask_jour (c : Channel) (b : KB) (off m : ℕ) : (c.evtMask b off m).jour = c.jour := rfl
@[simp] theorem evtMask_syn (c : Channel) (b : KB) (off m : ℕ) : (c.evtMask b off m).syn = c.syn := rfl
@[simp] theorem evtMask_gnss (c : Channel) (b : KB) (off m : ℕ) : (c.evtMask b off m).gnss = c.gnss := rfl
@[simp] theorem evtMask_sched (c : Channel) (b : KB) (off m : ℕ) : (c.evtMask b off m).sched = c.sched := rfl
@[simp] theorem evtMask_ports (c : Channel) (b : KB) (off m : ℕ) : (c.evtMask b off m).ports = c.ports := rfl
@[simp] theorem evtMask_sealb (c : Channel) (b : KB) (off m : ℕ) : (c.evtMask b off m).sealb = c.sealb := rfl
@[simp] theorem evtMask_pmu (c : Channel) (b : KB) (off m : ℕ) : (c.evtMask b off m).pmu = c.pmu := rfl
@[simp] theorem evtMask_ends (c : Channel) (b : KB) (off m : ℕ) : (c.evtMask b off m).ends = c.ends := rfl
@[simp] theorem evtMask_ens (c : Channel) (b : KB) (off m : ℕ) : (c.evtMask b off m).ens = c.ens := rfl
@[simp] theorem evtMask_tprev (c : Channel) (b : KB) (off m : ℕ) : (c.evtMask b off m).tprev = c.tprev := rfl
@[simp] theorem evtMask_epi (c : Channel) (b : KB) (off m : ℕ) : (c.evtMask b off m).epi = c.epi := rfl
@[simp] theorem evtMask_freeCtr (c : Channel) (b : KB) (off m : ℕ) : (c.evtMask b off m).freeCtr = c.freeCtr := rfl
@[simp] theorem evtMask_effs (c : Channel) (b : KB) (off m : ℕ) : (c.evtMask b off m).effs = c.effs ++ [.event b off m] := rfl
@[simp] theorem evt_ix (c : Channel) (f : KF) : (c.evt f).ix = c.ix := rfl
@[simp] theorem evt_topo (c : Channel) (f : KF) : (c.evt f).topo = c.topo := rfl
@[simp] theorem evt_drive (c : Channel) (f : KF) : (c.evt f).drive = c.drive := rfl
@[simp] theorem evt_safe (c : Channel) (f : KF) : (c.evt f).safe = c.safe := rfl
@[simp] theorem evt_dpll (c : Channel) (f : KF) : (c.evt f).dpll = c.dpll := rfl
@[simp] theorem evt_ref (c : Channel) (f : KF) : (c.evt f).ref = c.ref := rfl
@[simp] theorem evt_scale (c : Channel) (f : KF) : (c.evt f).scale = c.scale := rfl
@[simp] theorem evt_jour (c : Channel) (f : KF) : (c.evt f).jour = c.jour := rfl
@[simp] theorem evt_syn (c : Channel) (f : KF) : (c.evt f).syn = c.syn := rfl
@[simp] theorem evt_gnss (c : Channel) (f : KF) : (c.evt f).gnss = c.gnss := rfl
@[simp] theorem evt_sched (c : Channel) (f : KF) : (c.evt f).sched = c.sched := rfl
@[simp] theorem evt_ports (c : Channel) (f : KF) : (c.evt f).ports = c.ports := rfl
@[simp] theorem evt_sealb (c : Channel) (f : KF) : (c.evt f).sealb = c.sealb := rfl
@[simp] theorem evt_pmu (c : Channel) (f : KF) : (c.evt f).pmu = c.pmu := rfl
@[simp] theorem evt_ends (c : Channel) (f : KF) : (c.evt f).ends = c.ends := rfl
@[simp] theorem evt_ens (c : Channel) (f : KF) : (c.evt f).ens = c.ens := rfl
@[simp] theorem evt_tprev (c : Channel) (f : KF) : (c.evt f).tprev = c.tprev := rfl
@[simp] theorem evt_epi (c : Channel) (f : KF) : (c.evt f).epi = c.epi := rfl
@[simp] theorem evt_freeCtr (c : Channel) (f : KF) : (c.evt f).freeCtr = c.freeCtr := rfl
@[simp] theorem evt_effs (c : Channel) (f : KF) : (c.evt f).effs = c.effs ++ [.event f.blk f.off (2 ^ f.lsb)] := rfl
@[simp] theorem bookState_ix (c : Channel) (o : Origin) (b : KB) (off : ℕ) (x y : Word) : (c.bookState o b off x y).ix = c.ix := rfl
@[simp] theorem bookState_topo (c : Channel) (o : Origin) (b : KB) (off : ℕ) (x y : Word) : (c.bookState o b off x y).topo = c.topo := rfl
@[simp] theorem bookState_drive (c : Channel) (o : Origin) (b : KB) (off : ℕ) (x y : Word) : (c.bookState o b off x y).drive = c.drive := rfl
@[simp] theorem bookState_safe (c : Channel) (o : Origin) (b : KB) (off : ℕ) (x y : Word) : (c.bookState o b off x y).safe = c.safe := rfl
@[simp] theorem bookState_dpll (c : Channel) (o : Origin) (b : KB) (off : ℕ) (x y : Word) : (c.bookState o b off x y).dpll = c.dpll := rfl
@[simp] theorem bookState_ref (c : Channel) (o : Origin) (b : KB) (off : ℕ) (x y : Word) : (c.bookState o b off x y).ref = c.ref := rfl
@[simp] theorem bookState_scale (c : Channel) (o : Origin) (b : KB) (off : ℕ) (x y : Word) : (c.bookState o b off x y).scale = c.scale := rfl
@[simp] theorem bookState_jour (c : Channel) (o : Origin) (b : KB) (off : ℕ) (x y : Word) : (c.bookState o b off x y).jour = c.jour := rfl
@[simp] theorem bookState_syn (c : Channel) (o : Origin) (b : KB) (off : ℕ) (x y : Word) : (c.bookState o b off x y).syn = c.syn := rfl
@[simp] theorem bookState_gnss (c : Channel) (o : Origin) (b : KB) (off : ℕ) (x y : Word) : (c.bookState o b off x y).gnss = c.gnss := rfl
@[simp] theorem bookState_sched (c : Channel) (o : Origin) (b : KB) (off : ℕ) (x y : Word) : (c.bookState o b off x y).sched = c.sched := rfl
@[simp] theorem bookState_ports (c : Channel) (o : Origin) (b : KB) (off : ℕ) (x y : Word) : (c.bookState o b off x y).ports = c.ports := rfl
@[simp] theorem bookState_sealb (c : Channel) (o : Origin) (b : KB) (off : ℕ) (x y : Word) : (c.bookState o b off x y).sealb = c.sealb := rfl
@[simp] theorem bookState_pmu (c : Channel) (o : Origin) (b : KB) (off : ℕ) (x y : Word) : (c.bookState o b off x y).pmu = c.pmu := rfl
@[simp] theorem bookState_ends (c : Channel) (o : Origin) (b : KB) (off : ℕ) (x y : Word) : (c.bookState o b off x y).ends = c.ends := rfl
@[simp] theorem bookState_ens (c : Channel) (o : Origin) (b : KB) (off : ℕ) (x y : Word) : (c.bookState o b off x y).ens = c.ens := rfl
@[simp] theorem bookState_tprev (c : Channel) (o : Origin) (b : KB) (off : ℕ) (x y : Word) : (c.bookState o b off x y).tprev = c.tprev := rfl
@[simp] theorem bookState_epi (c : Channel) (o : Origin) (b : KB) (off : ℕ) (x y : Word) : (c.bookState o b off x y).epi = c.epi := rfl
@[simp] theorem bookState_freeCtr (c : Channel) (o : Origin) (b : KB) (off : ℕ) (x y : Word) : (c.bookState o b off x y).freeCtr = c.freeCtr := rfl
@[simp] theorem bookState_effs (c : Channel) (o : Origin) (b : KB) (off : ℕ) (x y : Word) : (c.bookState o b off x y).effs = c.effs ++ [.book ⟨o, 0x04, winReg c.ix b off, x, y⟩] := rfl
@[simp] theorem journalAt_ix (c : Channel) (t : ℕ) (m l : Bool) (b : JBody) : (c.journalAt t m l b).ix = c.ix := rfl
@[simp] theorem journalAt_topo (c : Channel) (t : ℕ) (m l : Bool) (b : JBody) : (c.journalAt t m l b).topo = c.topo := rfl
@[simp] theorem journalAt_drive (c : Channel) (t : ℕ) (m l : Bool) (b : JBody) : (c.journalAt t m l b).drive = c.drive := rfl
@[simp] theorem journalAt_safe (c : Channel) (t : ℕ) (m l : Bool) (b : JBody) : (c.journalAt t m l b).safe = c.safe := rfl
@[simp] theorem journalAt_dpll (c : Channel) (t : ℕ) (m l : Bool) (b : JBody) : (c.journalAt t m l b).dpll = c.dpll := rfl
@[simp] theorem journalAt_ref (c : Channel) (t : ℕ) (m l : Bool) (b : JBody) : (c.journalAt t m l b).ref = c.ref := rfl
@[simp] theorem journalAt_scale (c : Channel) (t : ℕ) (m l : Bool) (b : JBody) : (c.journalAt t m l b).scale = c.scale := rfl
@[simp] theorem journalAt_syn (c : Channel) (t : ℕ) (m l : Bool) (b : JBody) : (c.journalAt t m l b).syn = c.syn := rfl
@[simp] theorem journalAt_gnss (c : Channel) (t : ℕ) (m l : Bool) (b : JBody) : (c.journalAt t m l b).gnss = c.gnss := rfl
@[simp] theorem journalAt_sched (c : Channel) (t : ℕ) (m l : Bool) (b : JBody) : (c.journalAt t m l b).sched = c.sched := rfl
@[simp] theorem journalAt_ports (c : Channel) (t : ℕ) (m l : Bool) (b : JBody) : (c.journalAt t m l b).ports = c.ports := rfl
@[simp] theorem journalAt_sealb (c : Channel) (t : ℕ) (m l : Bool) (b : JBody) : (c.journalAt t m l b).sealb = c.sealb := rfl
@[simp] theorem journalAt_pmu (c : Channel) (t : ℕ) (m l : Bool) (b : JBody) : (c.journalAt t m l b).pmu = c.pmu := rfl
@[simp] theorem journalAt_ends (c : Channel) (t : ℕ) (m l : Bool) (b : JBody) : (c.journalAt t m l b).ends = c.ends := rfl
@[simp] theorem journalAt_ens (c : Channel) (t : ℕ) (m l : Bool) (b : JBody) : (c.journalAt t m l b).ens = c.ens := rfl
@[simp] theorem journalAt_tprev (c : Channel) (t : ℕ) (m l : Bool) (b : JBody) : (c.journalAt t m l b).tprev = c.tprev := rfl
@[simp] theorem journalAt_epi (c : Channel) (t : ℕ) (m l : Bool) (b : JBody) : (c.journalAt t m l b).epi = c.epi := rfl
@[simp] theorem journalAt_freeCtr (c : Channel) (t : ℕ) (m l : Bool) (b : JBody) : (c.journalAt t m l b).freeCtr = c.freeCtr := rfl
@[simp] theorem journal_topo (c : Channel) (b : JBody) : (c.journal b).topo = c.topo := rfl
@[simp] theorem journal_drive (c : Channel) (b : JBody) : (c.journal b).drive = c.drive := rfl
@[simp] theorem journal_safe (c : Channel) (b : JBody) : (c.journal b).safe = c.safe := rfl
@[simp] theorem journal_syn (c : Channel) (b : JBody) : (c.journal b).syn = c.syn := rfl
@[simp] theorem journal_gnss (c : Channel) (b : JBody) : (c.journal b).gnss = c.gnss := rfl
@[simp] theorem journal_sched (c : Channel) (b : JBody) : (c.journal b).sched = c.sched := rfl
@[simp] theorem journal_ports (c : Channel) (b : JBody) : (c.journal b).ports = c.ports := rfl
@[simp] theorem journal_sealb (c : Channel) (b : JBody) : (c.journal b).sealb = c.sealb := rfl
@[simp] theorem journal_pmu (c : Channel) (b : JBody) : (c.journal b).pmu = c.pmu := rfl
@[simp] theorem journal_ends (c : Channel) (b : JBody) : (c.journal b).ends = c.ends := rfl
@[simp] theorem journal_ens (c : Channel) (b : JBody) : (c.journal b).ens = c.ens := rfl
@[simp] theorem journal_tprev (c : Channel) (b : JBody) : (c.journal b).tprev = c.tprev := rfl
@[simp] theorem journal_epi (c : Channel) (b : JBody) : (c.journal b).epi = c.epi := rfl
@[simp] theorem journal_freeCtr (c : Channel) (b : JBody) : (c.journal b).freeCtr = c.freeCtr := rfl
@[simp] theorem setDpll_ix (c : Channel) (d : DpllSt) : (c.setDpll d).ix = c.ix := rfl
@[simp] theorem setDpll_topo (c : Channel) (d : DpllSt) : (c.setDpll d).topo = c.topo := rfl
@[simp] theorem setDpll_drive (c : Channel) (d : DpllSt) : (c.setDpll d).drive = c.drive := rfl
@[simp] theorem setDpll_safe (c : Channel) (d : DpllSt) : (c.setDpll d).safe = c.safe := rfl
@[simp] theorem setDpll_dpll (c : Channel) (d : DpllSt) : (c.setDpll d).dpll = d := rfl
@[simp] theorem setDpll_ref (c : Channel) (d : DpllSt) : (c.setDpll d).ref = c.ref := rfl
@[simp] theorem setDpll_scale (c : Channel) (d : DpllSt) : (c.setDpll d).scale = c.scale := rfl
@[simp] theorem setDpll_jour (c : Channel) (d : DpllSt) : (c.setDpll d).jour = c.jour := rfl
@[simp] theorem setDpll_syn (c : Channel) (d : DpllSt) : (c.setDpll d).syn = c.syn := rfl
@[simp] theorem setDpll_gnss (c : Channel) (d : DpllSt) : (c.setDpll d).gnss = c.gnss := rfl
@[simp] theorem setDpll_sched (c : Channel) (d : DpllSt) : (c.setDpll d).sched = c.sched := rfl
@[simp] theorem setDpll_ports (c : Channel) (d : DpllSt) : (c.setDpll d).ports = c.ports := rfl
@[simp] theorem setDpll_sealb (c : Channel) (d : DpllSt) : (c.setDpll d).sealb = c.sealb := rfl
@[simp] theorem setDpll_pmu (c : Channel) (d : DpllSt) : (c.setDpll d).pmu = c.pmu := rfl
@[simp] theorem setDpll_ends (c : Channel) (d : DpllSt) : (c.setDpll d).ends = c.ends := rfl
@[simp] theorem setDpll_ens (c : Channel) (d : DpllSt) : (c.setDpll d).ens = c.ens := rfl
@[simp] theorem setDpll_tprev (c : Channel) (d : DpllSt) : (c.setDpll d).tprev = c.tprev := rfl
@[simp] theorem setDpll_epi (c : Channel) (d : DpllSt) : (c.setDpll d).epi = c.epi := rfl
@[simp] theorem setDpll_freeCtr (c : Channel) (d : DpllSt) : (c.setDpll d).freeCtr = c.freeCtr := rfl
@[simp] theorem setDpll_effs (c : Channel) (d : DpllSt) : (c.setDpll d).effs = c.effs := rfl

/-- A field that hardware sets to a value that fits reads as that value. -/
theorem cur_put_lt (c : Channel) (f : KF) (v : ℕ) (h : f.lsb + f.w ≤ 32) (hv : v < 2 ^ f.w) : (c.put f v).cur f = v :=
  (cur_put_self c f v h).trans (Nat.mod_eq_of_lt hv)

/-- What a channel asks for leaves its registers. -/
theorem cur_asking (c : Channel) (es : List Eff) (f : KF) : ({ c with effs := es } : Channel).cur f = c.cur f := rfl
theorem word_asking (c : Channel) (es : List Eff) (b : KB) (off : ℕ) : ({ c with effs := es } : Channel).word b off = c.word b off := rfl
theorem cur_setDpll (c : Channel) (d : DpllSt) (f : KF) : (c.setDpll d).cur f = c.cur f := rfl
theorem cur_journal (c : Channel) (b : JBody) (f : KF) : (c.journal b).cur f = c.cur f := rfl
theorem cur_bookState (c : Channel) (o : Origin) (b : KB) (off : ℕ) (x y : Word) (f : KF) : (c.bookState o b off x y).cur f = c.cur f := rfl

/-- A flag that hardware sets leaves every field of another register, and every bit but its own. -/
theorem word_evt_ne (c : Channel) (f : KF) (b : KB) (off : ℕ) (h : f.blk ≠ b ∨ f.off ≠ off) : (c.evt f).word b off = c.word b off := by
  unfold evt evtMask
  by_cases e : f.blk = b
  · subst e
    have hp : f.off ≠ off := h.resolve_left (fun k => k rfl)
    show ((Channel.setRf _ _ _).rf f.blk).cur |> fun m => smGet _ m off = _
    simp only [word, crf_setRf_self]
    exact word_setWord_ne c f.blk f.blk _ (.inr hp)
  · show ((Channel.setRf _ _ _).rf b).cur |> fun m => smGet _ m off = _
    rw [crf_setRf_ne _ _ e]
    exact word_setWord_ne c f.blk b _ (.inl e)
theorem cur_evt_ne (c : Channel) (f g : KF) (h : f.blk ≠ g.blk ∨ f.off ≠ g.off) : (c.evt f).cur g = c.cur g := by
  unfold cur
  rw [word_evt_ne c f _ _ h]

end Sys2Proof.Machine.Channel
end

