-- ==== Sys2Proof/Laws/RegWrites.lean ====
section
/-! SUPPORT. How a write meets a register's fields, and what the commits of the channel blocks come to. -/
namespace Sys2Proof.Machine

/-! ### Commits of a channel's blocks -/

/-- The words before this tick's writes, once a host has written one register of a block that nothing else wrote in the tick (R12). -/
theorem before_store {c c2 : Channel} {w : Writer} {b : KB} {ctl : ℕ} {v : Word} {e : JBody} (hpre : (c.rf b).pre = []) (hw : w.loader = false) (k : ℕ)
    (h : c2 = c.storeWord w b ctl v ∨ c2 = (c.storeWord w b ctl v).journal e) : smGet (kbRst b k) ((c2.rf b).before (kbRst b)) k = c.word b k := by
  have key : ∀ f : RegFile, f = (c.storeWord w b ctl v).rf b → smGet (kbRst b k) (f.before (kbRst b)) k = c.word b k := by
    intro f hf
    unfold Channel.storeWord at hf
    cases hg : findReg (kbRegs b) ctl with
    | none =>
      rw [hg] at hf
      subst hf
      unfold RegFile.before
      rw [hpre]
      rfl
    | some g =>
      rw [hg] at hf
      dsimp only at hf
      rw [crf_setRf_self, hpre, hw] at hf
      subst hf
      unfold RegFile.before
      show smGet (kbRst b k) (smPut (kbRst b ctl) (smPut (kbRst b ctl) (c.rf b).cur ctl _) ctl (c.word b ctl)) k = c.word b k
      by_cases e : k = ctl
      · subst e
        exact smGet_smPut_same _ _ _ _
      · rw [smGet_smPut_ne _ _ _ _ e, smGet_smPut_ne _ _ _ _ e]
        rfl
  rcases h with rfl | rfl
  · exact key _ rfl
  · exact key _ rfl

/-- A block is locked for such a commit where it was locked before. -/
theorem wasLocked_store {c c2 : Channel} {w : Writer} {b : KB} {ctl : ℕ} {v : Word} {e : JBody} (hpre : (c.rf b).pre = []) (hw : w.loader = false)
    (h : c2 = c.storeWord w b ctl v ∨ c2 = (c.storeWord w b ctl v).journal e) : c2.wasLocked b = c.locked b := by
  unfold Channel.wasLocked Channel.locked
  cases lockOff b with
  | none => rfl
  | some o => exact congrArg (bit · 29) (before_store hpre hw o h)

/-- The shadows that a commit written in this tick copies are the stored words, but for the control register's own, where no other write of
the block fell into the tick and the block is not locked. -/
theorem shadows_ctl {c c2 : Channel} {w : Writer} {b : KB} {ctl : ℕ} {v : Word} {e : JBody} (hpre : (c.rf b).pre = []) (hw : w.loader = false)
    (hl : c.locked b = false) {k : ℕ} (hk : k ≠ ctl)
    (h : c2 = c.storeWord w b ctl v ∨ c2 = (c.storeWord w b ctl v).journal e) : smGet (kbRst b k) (c2.shadows b ctl) k = c.word b k := by
  unfold Channel.shadows
  rw [wasLocked_store hpre hw h, hl]
  show smGet (kbRst b k) (smPut (kbRst b ctl) ((c2.rf b).before (kbRst b)) ctl (c2.word b ctl)) k = _
  rw [smGet_smPut_ne _ _ _ _ hk]
  exact before_store hpre hw k h

/-- What the checks of such a commit see. -/
theorem trial_word {c c2 : Channel} {w : Writer} {b : KB} {ctl : ℕ} {v : Word} {e : JBody} (hpre : (c.rf b).pre = []) (hw : w.loader = false)
    (hl : c.locked b = false) (h : c2 = c.storeWord w b ctl v ∨ c2 = (c.storeWord w b ctl v).journal e) (a : KB) {k : ℕ} (hk : a ≠ b ∨ k ≠ ctl) :
    (c2.trial b (c2.shadows b ctl)).word a k = c.word a k := by
  unfold Channel.trial
  by_cases hab : a = b
  · subst hab
    have hk' : k ≠ ctl := hk.elim (fun z => absurd rfl z) id
    unfold Channel.word
    rw [crf_setRf_self]
    exact shadows_ctl hpre hw hl hk' h
  · have h1 : (c2.setRf b { c2.rf b with cur := c2.shadows b ctl, pre := [] }).word a k = c2.word a k := by
      unfold Channel.word; rw [crf_setRf_ne _ _ (Ne.symm hab)]
    rw [h1]
    rcases h with rfl | rfl
    · exact Channel.storeWord_word_ne _ _ _ _ _ (.inl (Ne.symm hab))
    · exact Channel.storeWord_word_ne c w b a v (.inl (Ne.symm hab))

theorem ctl_word {c c2 : Channel} {w : Writer} {b : KB} {ctl : ℕ} {v : Word} {e : JBody} {g : RegSpec} (hg : findReg (kbRegs b) ctl = some g)
    (h : c2 = c.storeWord w b ctl v ∨ c2 = (c.storeWord w b ctl v).journal e) : c2.word b ctl = c.stored b ctl v g := by
  rcases h with rfl | rfl
  · exact Channel.storeWord_word _ _ _ _ _ hg
  · exact Channel.storeWord_word c w b ctl v hg

theorem trial_cur {c c2 : Channel} {w : Writer} {b : KB} {ctl : ℕ} {v : Word} {e : JBody} (hpre : (c.rf b).pre = []) (hw : w.loader = false)
    (hl : c.locked b = false) (h : c2 = c.storeWord w b ctl v ∨ c2 = (c.storeWord w b ctl v).journal e) (f : KF) (hk : f.blk ≠ b ∨ f.off ≠ ctl) :
    (c2.trial b (c2.shadows b ctl)).cur f = c.cur f := by
  unfold Channel.cur
  rw [trial_word hpre hw hl h f.blk hk]

end Sys2Proof.Machine
namespace Sys2Proof
open Sys2Proof.Machine

theorem noted_gcur {s : State} {a : ℕ} (ha : a < 2 ^ 32) : (s.noteReserved a).gcur F.HOSTIF_RSV_ACC_COUNT = (s.gcur F.HOSTIF_RSV_ACC_COUNT + 1) % 2 ^ 32 ∧
    (s.noteReserved a).gcur F.HOSTIF_RSV_LAST_OFS = a := by
  unfold State.noteReserved State.gbump
  refine ⟨?_, ?_⟩
  · rw [gcur_gput_ne _ _ _ _ (by decide) (by decide), gcur_gput_self _ _ _ (by decide)]; rfl
  · rw [gcur_gput_self _ _ _ (by decide)]; exact Nat.mod_eq_of_lt ha

theorem qual_reg (n : LaneIx) : findReg (kbRegs .ref) (REF_LANE_QUAL n.val) = some ⟨0x1008, [(0x40, 16)], [⟨16, 16, .rws, 0, .any⟩, ⟨0, 16, .rws, 1, .any⟩]⟩ := by
  revert n; decide

theorem nom_reg (n : Fin 8) : findReg (kbRegs .ref) (REF_LANE_NOM n.val) = some ⟨0x1004, [(0x40, 8)], [⟨0, 30, .rwl, 0, .any⟩]⟩ := by
  revert n; decide

theorem qual_off (n : LaneIx) : REF_LANE_QUAL n.val % 4 = 0 ∧ REF_LANE_QUAL n.val < 0x100000 ∧ multiIn (kbMulti .ref) (REF_LANE_QUAL n.val) = none ∧
    partOf .ref (REF_LANE_QUAL n.val) = none ∧ REF_LANE_QUAL n.val ≠ REF_CTL ∧ REF_LANE_QUAL n.val ≠ REF_SEL_CMD ∧ (REF_LANE_QUAL n.val - 0x1000) % 0x40 ≠ 0x2C := by
  revert n; decide

theorem nom_off (n : Fin 8) : REF_LANE_NOM n.val % 4 = 0 ∧ REF_LANE_NOM n.val < 0x100000 ∧ multiIn (kbMulti .ref) (REF_LANE_NOM n.val) = none ∧
    partOf .ref (REF_LANE_NOM n.val) = none ∧ REF_LANE_NOM n.val ≠ REF_CTL ∧ REF_LANE_NOM n.val ≠ REF_SEL_CMD ∧ (REF_LANE_NOM n.val - 0x1000) % 0x40 ≠ 0x2C := by
  revert n; decide

theorem action_plain (c : Channel) (w : Writer) {o : ℕ} (v : Word) (h1 : o ≠ REF_CTL) (h2 : o ≠ REF_SEL_CMD) (h3 : (o - 0x1000) % 0x40 ≠ 0x2C) :
    c.action w .ref o v = (false, c) := by
  unfold Channel.action
  simp only [if_neg h1, if_neg h2]
  rw [if_neg (fun h => h3 h.2.2)]

theorem plain_write {s : State} {p : HostPath} {c : ChanIx} {v : Word} {o : ℕ} {g : RegSpec} {q : Channel → Prop} (ho : s.open p) (hr : s.running c = true)
    (hg : findReg (kbRegs .ref) o = some g) (hw : g.writable = true) (h1 : o % 4 = 0) (h2 : o < 0x100000) (h3 : multiIn (kbMulti .ref) o = none) (h4 : partOf .ref o = none)
    (h5 : o ≠ REF_CTL) (h6 : o ≠ REF_SEL_CMD) (h7 : (o - 0x1000) % 0x40 ≠ 0x2C)
    (hm : mayRate (.registerWrite p (winReg c .ref o) v) = false)
    (hq : ∀ d : Channel, Channel.onlyIn [.ref, .jour, .asks] s.ch[c] d ∧ d.ref = s.ch[c].ref ∧ (∀ b, (d.rf b).use = (s.ch[c].rf b).use) →
      d.word .ref o = s.ch[c].stored .ref o v g → q d) : ActsOn (.registerWrite p (winReg c .ref o) v) s c q := by
  refine actsOn_write .ref o v hm rfl ho hr h1 h2 (by rw [hg]; rfl) ?_
  obtain ⟨c2, es, hc, he⟩ := Channel.hostWrite_single s.ch[c] p.org .ref v hg h3 hw (Channel.hasPart_none _ h4) (Channel.ignores_not_sched _ _ _ (by decide) (by decide)) (by simp)
  rw [he, action_plain _ _ _ h5 h6 h7]
  obtain ⟨q1, q2, _, _, _, q6⟩ := cmd_c2 hc
  refine hq _ ⟨onlyIn_effs rfl _ q1, q2, q6⟩ ?_
  rcases hc with rfl | rfl
  · exact Channel.storeWord_word _ _ _ _ _ hg
  · exact Channel.storeWord_word _ _ _ _ _ hg

def fieldsOk (g : RegSpec) : Bool := g.fields.all (fun f => decide (f.lsb + f.w ≤ 32)) && (List.range g.fields.length).all (fun i => (List.range g.fields.length).all (fun j =>
  i == j || match g.fields[i]?, g.fields[j]? with | some a, some b => decide (a.lsb + a.w ≤ b.lsb ∨ b.lsb + b.w ≤ a.lsb) | _, _ => true))

theorem allOk : (∀ b : KB, (kbRegs b).all fieldsOk = true) ∧ ∀ b : CB, (gbRegs b).all fieldsOk = true := by
  constructor <;> intro b <;> cases b <;> rfl

theorem write_other (f : Fld) (l : Bool) (v h w : Word) {a b : ℕ} (hf : f.lsb + f.w ≤ 32) (hd : f.lsb + f.w ≤ a ∨ a + b ≤ f.lsb) :
    getField (f.write l v h w) a b = getField w a b := by
  unfold Fld.write
  dsimp only
  split <;> first | rfl | (split <;> first | rfl | exact getField_putField_ne _ _ hf hd) | exact getField_putField_ne _ _ hf hd

theorem fold_other (fs : List Fld) (l : Bool) (v h w : Word) {a b : ℕ} (hf : ∀ f ∈ fs, f.lsb + f.w ≤ 32 ∧ (f.lsb + f.w ≤ a ∨ a + b ≤ f.lsb)) :
    getField (fs.foldl (fun w f => f.write l v h w) w) a b = getField w a b := by
  induction fs generalizing w with
  | nil => rfl
  | cons f r ih =>
    rw [List.foldl_cons, ih _ (fun x hx => hf x (List.mem_cons_of_mem _ hx))]
    exact write_other f l v h w (hf f (by simp)).1 (hf f (by simp)).2

/-- A register in which no two fields overlap leaves in each field what the field's own rule says. -/

theorem write_field {fs : List Fld} (l : Bool) (v h w : Word) {f : Fld} (hm : f ∈ fs) (h32 : ∀ f ∈ fs, f.lsb + f.w ≤ 32)
    (hp : fs.Pairwise (fun a b => a.lsb + a.w ≤ b.lsb ∨ b.lsb + b.w ≤ a.lsb)) :
    ∃ u : Word, getField u f.lsb f.w = getField w f.lsb f.w ∧ getField (fs.foldl (fun w f => f.write l v h w) w) f.lsb f.w = getField (f.write l v h u) f.lsb f.w := by
  induction fs generalizing w with
  | nil => simp at hm
  | cons g r ih =>
    rw [List.foldl_cons]
    rw [List.pairwise_cons] at hp
    rcases List.mem_cons.mp hm with rfl | hm
    · exact ⟨w, rfl, fold_other _ _ _ _ _ (fun x hx => ⟨h32 x (List.mem_cons_of_mem _ hx), (hp.1 x hx).symm⟩)⟩
    · obtain ⟨u, h1, h2⟩ := ih (g.write l v h w) hm (fun x hx => h32 x (List.mem_cons_of_mem _ hx)) hp.2
      refine ⟨u, h1.trans (write_other g _ _ _ _ (h32 g (by simp)) (hp.1 f hm)), h2⟩

def fieldsFit (g : RegSpec) : Bool := g.fields.all (fun f => decide (f.lsb + f.w ≤ 32)) && decide (g.fields.Pairwise (fun a b => a.lsb + a.w ≤ b.lsb ∨ b.lsb + b.w ≤ a.lsb))

theorem allFit : (∀ b : KB, (kbRegs b).all fieldsFit = true) ∧ ∀ b : CB, (gbRegs b).all fieldsFit = true := by
  constructor <;> intro b <;> cases b <;> rfl

theorem lock_reg {b : KB} {o : ℕ} (h : lockOff b = some o) : o % 4 = 0 ∧ o < 0x4000 ∧ multiIn (kbMulti b) o = none ∧ fieldsFit ((findReg (kbRegs b) o).getD ⟨0, [], []⟩) = true ∧
    (findReg (kbRegs b) o).any (fun g => g.writable && g.fields.contains ⟨29, 1, .w1s, 0, .any⟩) = true ∧ decide (b = .dpll ∧ 0xF0100 ≤ o ∧ o < 0xF0180) = false := by
  cases b <;> first | (injection h with h; subst h; decide) | (simp [lockOff] at h)

theorem action_lock (c : Channel) (w : Writer) {b : KB} {o : ℕ} (v : Word) (h : lockOff b = some o) (hv : bit v 31 = false) : (c.action w b o v).2 = c := by
  cases b <;> first | (injection h with h; subst h; unfold Channel.action; rw [hv]; rfl) | (simp [lockOff] at h)

theorem glock_reg {b : CB} (h : gbHasLock b = true) : multiIn (gbMulti b) 0 = none ∧ fieldsFit ((findReg (gbRegs b) 0).getD ⟨0, [], []⟩) = true ∧
    (findReg (gbRegs b) 0).any (fun g => g.writable && g.fields.contains ⟨29, 1, .w1s, 0, .any⟩) = true ∧ ∀ (s : State), s.gIgnores b 0 = false := by
  cases b <;> first | (simp [gbHasLock] at h; done) | exact ⟨by decide, by decide, by decide, fun s => rfl⟩

theorem gaction_lock (s : State) (org : Origin) {b : CB} (v : Word) (h : gbHasLock b = true) (h31 : bit v 31 = false) (h28 : bit v 28 = bit v 27) : (s.gAction org b 0 v).2 = s := by
  cases b <;> first | (simp [gbHasLock] at h; done) | (unfold State.gAction; simp only [h31]; rfl) | (unfold State.gAction State.twinCtl; simp [h31, h28]; rfl) | skip
  show (if (0 : ℕ) = TWIN_CTL then s.twinCtl org v else (false, s)).2 = s
  rw [if_pos (show (0 : ℕ) = TWIN_CTL from rfl)]
  unfold State.twinCtl
  simp [h31, h28]

theorem lock_bit {g : RegSpec} (hfit : fieldsFit g = true) (l : Bool) (v h w : Word) (hm : (⟨29, 1, .w1s, 0, .any⟩ : Fld) ∈ g.fields) (hv : bit v 29 = true) : bit (g.write l v h w) 29 = true := by
  unfold fieldsFit at hfit
  rw [Bool.and_eq_true] at hfit
  have h32 : ∀ f ∈ g.fields, f.lsb + f.w ≤ 32 := fun f hf => by simpa using List.all_eq_true.mp hfit.1 f hf
  obtain ⟨u, h1, h2⟩ := write_field l v h w hm h32 (of_decide_eq_true hfit.2)
  have hx : getField v 29 1 = 1 := by simpa [bit] using hv
  have : getField (g.write l v h w) 29 1 = (getField u 29 1 ||| getField v 29 1) % 2 := by
    rw [show getField (g.write l v h w) 29 1 = _ from h2]
    exact getField_putField_same _ _ (by norm_num)
  unfold bit
  rw [this, hx]
  have hu : getField u 29 1 < 2 := Nat.mod_lt _ (by norm_num)
  interval_cases getField u 29 1 <;> rfl

theorem w_cerr (c : Channel) (f : KF) (es : List Eff) (hw : f.w = 1) (h30 : f.lsb = 30) : ({ c.evtMask f.blk f.off (2 ^ 30) with effs := es } : Channel).cur f = 1 := by
  have : c.evt f = c.evtMask f.blk f.off (2 ^ 30) := by unfold Channel.evt; rw [h30]
  show (c.evtMask f.blk f.off (2 ^ 30)).cur f = 1
  rw [← this]
  exact cur_evt c f hw (by omega)

theorem onlyIn_evtMask30 {L : List ChPart} {c x : Channel} (b : KB) (off m : ℕ) (hb : L.contains b.part = true) (ha : L.contains .asks = true) (h : Channel.onlyIn L c x) :
    Channel.onlyIn L c (x.evtMask b off m) := on_evtMask _ _ _ hb (by simp [partsIn, ha]; simpa using ha) h

/-- A row whose COMMIT copies at once. -/

theorem commit_now {i : Instr} {s : State} {p : HostPath} {c : ChanIx} {v : Word} {b : KB} {ctl : ℕ} {ok : Channel → Bool} {after : Channel → Channel} {L : List ChPart}
    (f : KF) (hfb : f.blk = b) (hfo : f.off = ctl) (hfw : f.w = 1) (hfl : f.lsb = 30)
    (hmr : mayRate i = false) (hlk : s.ch[c].locked b = false) (hsn : ¬(b = .gnss ∧ ctl = GNSS_SNAP_CTL))
    (hx : s.clear.effect i = s.clear.writeCh p c b ctl v) (ho : s.open p) (hr : s.running c = true) (hL : lockOff b = some ctl) (hh : s.ch[c].hasPart b ctl = true)
    (hpre : (s.ch[c].rf b).pre = []) (hact : ∀ (c2 : Channel) w, (c2.action w b ctl v).2 = c2.commitNow b ctl ok after)
    (hok : ∀ d : Channel, (∀ g : KF, g.blk ≠ b ∨ g.off ≠ ctl → d.cur g = s.ch[c].cur g) → (d.rf b).pre = [] → ok d = ok s.ch[c])
    (hu : ∀ d, Uses d (after d)) (hone : partsIn [b.part, .jour, .asks] L = true) (haf : ∀ d : Channel, Channel.onlyIn L d (after d))
    (hreg : (findReg (kbRegs b) ctl).any (·.writable) = true ∧ multiIn (kbMulti b) ctl = none ∧ ctl % 4 = 0 ∧ ctl < 0x4000) :
    (ok s.ch[c] = true → ActsOn i s c (fun d => Channel.onlyIn L s.ch[c] d ∧ ∀ k, k ≠ ctl → d.useWord b k = s.ch[c].word b k)) ∧
    (ok s.ch[c] = false → ActsOn i s c (fun d => Channel.onlyIn [b.part, .jour, .asks] s.ch[c] d ∧ d.cur f = 1 ∧ ∀ b, (d.rf b).use = (s.ch[c].rf b).use)) := by
  have key : ∀ q : Channel → Prop, (∀ (c2 : Channel) (es : List Eff), Channel.onlyIn [b.part, .jour, .asks] s.ch[c] c2 → (∀ k, (c2.rf k).use = (s.ch[c].rf k).use) →
      (∀ k, k ≠ ctl → smGet (kbRst b k) (c2.shadows b ctl) k = s.ch[c].word b k) → ok (c2.trial b (c2.shadows b ctl)) = ok s.ch[c] →
      q { c2.commitNow b ctl ok after with effs := (c2.commitNow b ctl ok after).effs ++ es }) → ActsOn i s c q := by
    intro q hq
    refine actsOn_cmd b ctl v hmr hx ho hr hreg.2.2.1 (by have := hreg.2.2.2; omega) hreg.1 hreg.2.1 hh (Channel.ignores_low _ _ hreg.2.2.2 hsn) (by have := hreg.2.2.2; simp; omega) ?_
    intro c2 es h
    rw [hact]
    obtain ⟨q1, _, _, _, _, q6⟩ := cmd_c2 h
    exact hq c2 es q1 q6 (fun k hk => shadows_ctl hpre rfl hlk hk h) (hok _ (fun g hg => trial_cur hpre rfl hlk h g hg) (by unfold Channel.trial; rw [crf_setRf_self]))
  refine ⟨fun h => key _ ?_, fun h => key _ ?_⟩
  · intro c2 es h1 h2 h3 h4
    have e : c2.commitNow b ctl ok after = after (c2.setRf b { c2.rf b with use := c2.shadows b ctl }) := by
      unfold Channel.commitNow
      exact if_pos (h4.trans h)
    rw [e]
    have hbL : L.contains b.part = true := List.all_eq_true.mp hone b.part (by simp)
    have haL : L.contains .asks = true := List.all_eq_true.mp hone .asks (by simp)
    refine ⟨onlyIn_effs haL _ (Channel.onlyIn_trans (on_setRf _ _ hbL (Channel.onlyIn_mono hone h1)) (haf _)), fun k hk => ?_⟩
    have := (hu (c2.setRf b { c2.rf b with use := c2.shadows b ctl })).use b
    show smGet (kbRst b k) ((after (c2.setRf b { c2.rf b with use := c2.shadows b ctl })).rf b).use k = _
    rw [this, crf_setRf_self]
    exact h3 k hk
  · intro c2 es h1 h2 h3 h4
    have e : c2.commitNow b ctl ok after = c2.evtMask b ctl (2 ^ 30) := by
      unfold Channel.commitNow
      exact if_neg (by rw [h4, h]; decide)
    rw [e]
    refine ⟨onlyIn_effs (by simp) _ (on_evtMask _ _ _ (by simp) (by simp [partsIn]) h1), ?_, fun k => ?_⟩
    · subst hfb hfo
      exact w_cerr c2 f _ hfw hfl
    · exact ((us_evtMask b ctl (2 ^ 30) (Uses.refl c2)).use k).trans (h2 k)

theorem put_fold_get {rst : ℕ → Word} (sh : List (ℕ × Word)) (keys : List ℕ) (u : List (ℕ × Word)) (k : ℕ) :
    smGet (rst k) ((keys.map (fun k => (k, smGet (rst k) sh k))).foldl (fun u e => smPut (rst e.1) u e.1 e.2) u) k =
      if k ∈ keys then smGet (rst k) sh k else smGet (rst k) u k := by
  induction keys generalizing u with
  | nil => simp
  | cons a r ih =>
    rw [List.map_cons, List.foldl_cons, ih]
    by_cases h : k ∈ r
    · simp [h]
    · by_cases e : k = a
      · subst e; simp [h]
      · simp [h, e, smGet_smPut_ne _ _ _ _ e]

theorem smGet_absent (d : Word) (m : List (ℕ × Word)) (k : ℕ) (h : k ∉ m.map Prod.fst) : smGet d m k = d := by
  induction m with
  | nil => rfl
  | cons e r ih =>
    obtain ⟨a, w⟩ := e
    simp only [List.map_cons, List.mem_cons, not_or] at h
    unfold smGet
    first | (rw [if_neg (fun z => h.1 z.symm)]; exact ih h.2) | (rw [if_neg h.1]; exact ih h.2) | (simp [h.1, Ne.symm h.1]; exact ih h.2)

theorem us_after {c d : Channel} {b : KB} (h : Uses c d) (es : List Eff) : ({ d with effs := es } : Channel).rf b = d.rf b := rfl

/-- A row whose COMMIT copies for the next tick. -/

theorem commit_next {i : Instr} {s : State} {p : HostPath} {c : ChanIx} {v : Word} {b : KB} {ctl : ℕ} {ok : Channel → Bool} {after : Channel → Channel} {L : List ChPart}
    (f : KF) (hfb : f.blk = b) (hfo : f.off = ctl) (hfw : f.w = 1) (hfl : f.lsb = 30)
    (hmr : mayRate i = false) (hlk : s.ch[c].locked b = false) (hsn : ¬(b = .gnss ∧ ctl = GNSS_SNAP_CTL))
    (hx : s.clear.effect i = s.clear.writeCh p c b ctl v) (ho : s.open p) (hr : s.running c = true) (hh : s.ch[c].hasPart b ctl = true)
    (hpre : (s.ch[c].rf b).pre = []) (hact : ∀ (c2 : Channel) w, (c2.action w b ctl v).2 = c2.commitNext b ctl ok after)
    (hok : ∀ d : Channel, (∀ g : KF, g.blk ≠ b ∨ g.off ≠ ctl → d.cur g = s.ch[c].cur g) → (d.rf b).pre = [] → ok d = ok s.ch[c])
    (hu : ∀ d, Uses d (after d)) (hone : partsIn [b.part, .jour, .asks] L = true) (haf : ∀ d : Channel, Channel.onlyIn L d (after d))
    (hreg : (findReg (kbRegs b) ctl).any (·.writable) = true ∧ multiIn (kbMulti b) ctl = none ∧ ctl % 4 = 0 ∧ ctl < 0x4000) :
    (ok s.ch[c] = true → ActsOn i s c (fun d => Channel.onlyIn L s.ch[c] d ∧ (∀ b, (d.rf b).use = (s.ch[c].rf b).use) ∧
      ∀ k, k ≠ ctl → smGet (kbRst b k) ((d.rf b).endTick (kbRst b)).use k = s.ch[c].word b k)) ∧
    (ok s.ch[c] = false → ActsOn i s c (fun d => Channel.onlyIn [b.part, .jour, .asks] s.ch[c] d ∧ (∀ b, (d.rf b).use = (s.ch[c].rf b).use) ∧ d.cur f = 1)) := by
  have key : ∀ q : Channel → Prop, (∀ (c2 : Channel) (es : List Eff), Channel.onlyIn [b.part, .jour, .asks] s.ch[c] c2 → (∀ k, (c2.rf k).use = (s.ch[c].rf k).use) →
      (∀ k, k ≠ ctl → smGet (kbRst b k) (c2.shadows b ctl) k = s.ch[c].word b k) → ok (c2.trial b (c2.shadows b ctl)) = ok s.ch[c] →
      q { c2.commitNext b ctl ok after with effs := (c2.commitNext b ctl ok after).effs ++ es }) → ActsOn i s c q := by
    intro q hq
    refine actsOn_cmd b ctl v hmr hx ho hr hreg.2.2.1 (by have := hreg.2.2.2; omega) hreg.1 hreg.2.1 hh (Channel.ignores_low _ _ hreg.2.2.2 hsn) (by have := hreg.2.2.2; simp; omega) ?_
    intro c2 es h
    rw [hact]
    obtain ⟨q1, _, _, _, _, q6⟩ := cmd_c2 h
    exact hq c2 es q1 q6 (fun k hk => shadows_ctl hpre rfl hlk hk h) (hok _ (fun g hg => trial_cur hpre rfl hlk h g hg) (by unfold Channel.trial; rw [crf_setRf_self]))
  refine ⟨fun h => key _ ?_, fun h => key _ ?_⟩
  · intro c2 es h1 h2 h3 h4
    obtain ⟨F, hF, hFu, hFn⟩ : ∃ F : RegFile, c2.commitNext b ctl ok after = after (c2.setRf b F) ∧ F.use = (c2.rf b).use ∧
        F.next = ((((c2.rf b).use ++ c2.shadows b ctl).map Prod.fst).dedup).map (fun k => (k, smGet (kbRst b k) (c2.shadows b ctl) k)) := by
      refine ⟨{ c2.rf b with next := ((((c2.rf b).use ++ c2.shadows b ctl).map Prod.fst).dedup).map (fun k => (k, smGet (kbRst b k) (c2.shadows b ctl) k)) }, ?_, rfl, rfl⟩
      unfold Channel.commitNext
      exact if_pos (h4.trans h)
    rw [hF]
    have hbL : L.contains b.part = true := List.all_eq_true.mp hone b.part (by simp)
    have haL : L.contains .asks = true := List.all_eq_true.mp hone .asks (by simp)
    have hU := hu (c2.setRf b F)
    refine ⟨onlyIn_effs haL _ (Channel.onlyIn_trans (on_setRf _ _ hbL (Channel.onlyIn_mono hone h1)) (haf _)), fun k => ?_, fun k hk => ?_⟩
    · refine (hU.use k).trans ?_
      by_cases e : b = k
      · subst e; rw [crf_setRf_self, hFu]; exact h2 b
      · rw [crf_setRf_ne _ _ e]; exact h2 k
    · have e1 : ((after (c2.setRf b F)).rf b).use = (c2.rf b).use := by rw [hU.use b, crf_setRf_self, hFu]
      have e2 := hU.next b
      rw [crf_setRf_self, hFn] at e2
      show smGet (kbRst b k) (((after (c2.setRf b F)).rf b).endTick (kbRst b)).use k = _
      unfold RegFile.endTick
      dsimp only
      rw [e1, e2, put_fold_get]
      rw [← h3 k hk]
      split
      · rfl
      · rename_i hn
        rw [List.mem_dedup, List.map_append, List.mem_append, not_or] at hn
        rw [smGet_absent _ _ _ hn.1, smGet_absent _ _ _ hn.2]
  · intro c2 es h1 h2 h3 h4
    have e : c2.commitNext b ctl ok after = c2.evtMask b ctl (2 ^ 30) := by
      unfold Channel.commitNext
      exact if_neg (by rw [h4, h]; decide)
    rw [e]
    refine ⟨onlyIn_effs (by simp) _ (on_evtMask _ _ _ (by simp) (by simp [partsIn]) h1), fun k => ?_, ?_⟩
    · exact ((us_evtMask b ctl (2 ^ 30) (Uses.refl c2)).use k).trans (h2 k)
    · subst hfb hfo
      exact w_cerr c2 f _ hfw hfl

theorem before_nil {c d : Channel} {b : KB} {f : KF} (hf : f.blk = b) (hd : (d.rf b).pre = []) (hc : (c.rf b).pre = []) (h : d.cur f = c.cur f) :
    getField (smGet (kbRst b f.off) ((d.rf b).before (kbRst b)) f.off) f.lsb f.w = getField (smGet (kbRst b f.off) ((c.rf b).before (kbRst b)) f.off) f.lsb f.w := by
  unfold RegFile.before
  rw [hd, hc]
  subst hf
  exact h

theorem fold_get {rst : ℕ → Word} (g : ℕ → Word) (keys : List ℕ) (u : List (ℕ × Word)) (k : ℕ) :
    smGet (rst k) (keys.foldl (fun u k => smPut (rst k) u k (g k)) u) k = if k ∈ keys then g k else smGet (rst k) u k := by
  induction keys generalizing u with
  | nil => simp
  | cons a r ih =>
    rw [List.foldl_cons, ih]
    by_cases h : k ∈ r
    · simp [h]
    · by_cases e : k = a
      · subst e; simp [h]
      · simp [h, e, smGet_smPut_ne _ _ _ _ e]

/-- The registers of the calibration constants, which come into use with the next tick (R182). -/

def latePort : List ℕ := [PORT_P_ING_CAL 0, PORT_P_EGR_CAL 0, PORT_P_ING_BUD 0, PORT_P_EGR_BUD 0, PORT_P_ING_CAL 1, PORT_P_EGR_CAL 1, PORT_P_ING_BUD 1, PORT_P_EGR_BUD 1]

theorem commitPort_ok {c2 : Channel} (h : Channel.portCommitOk (c2.trial .port (c2.shadows .port PORT_CTL)) = true) :
    ∃ F : RegFile, c2.commitPort = Channel.portCommitted c2 1 (Channel.portCommitted c2 0 (c2.setRf .port F)) ∧
      F.use = latePort.foldl (fun u k => smPut (kbRst .port k) u k (smGet (kbRst .port k) (c2.rf .port).use k)) (c2.shadows .port PORT_CTL) ∧
      F.next = latePort.map (fun k => (k, smGet (kbRst .port k) (c2.shadows .port PORT_CTL) k)) := by
  refine ⟨{ c2.rf .port with
      use := latePort.foldl (fun u k => smPut (kbRst .port k) u k (smGet (kbRst .port k) (c2.rf .port).use k)) (c2.shadows .port PORT_CTL),
      next := latePort.map (fun k => (k, smGet (kbRst .port k) (c2.shadows .port PORT_CTL) k)) }, ?_, rfl, rfl⟩
  unfold Channel.commitPort
  simp only [h]
  rfl

end Sys2Proof
end

