-- ==== Sys2Proof/Laws/ServoSteps.lean ====
section
/-! SUPPORT. What servo applications, steps and characterization leave of a channel. -/
namespace Sys2Proof
open Sys2Proof.Machine

theorem stateTo_dpll (c : Channel) (st : ChanSt) : (c.stateTo st).dpll = { c.dpll with st := st } := by
  unfold Channel.stateTo
  dsimp only
  split <;> rfl

theorem bStateTo_dpll (c : Channel) (st : BSt) : (c.bStateTo st).dpll = { c.dpll with bst := st } := by
  unfold Channel.bStateTo
  dsimp only
  split <;> rfl

theorem setRate_dpll (c : Channel) (v : Int) : (c.setRate v).dpll = { c.dpll with rate := clampAbs (2 ^ 50) v } := by
  unfold Channel.setRate
  dsimp only
  split <;> rfl

theorem stateTo_evt (c : Channel) (st : ChanSt) (h : c.dpll.st ≠ st) : (c.stateTo st).cur F.DPLL_EVT_STATE = 1 := by
  unfold Channel.stateTo
  dsimp only
  rw [if_neg h]
  exact cur_evt _ _ rfl (by decide)

theorem loseLaneB_a (c : Channel) : ∃ b f, c.loseLaneB.dpll = { c.dpll with bst := b, firstB := f } := by
  unfold Channel.loseLaneB
  split
  · exact ⟨_, _, bStateTo_dpll _ _⟩
  · exact ⟨_, _, rfl⟩

theorem loseLaneA_b (c : Channel) : c.loseLaneA.dpll.bst = c.dpll.bst ∧ c.loseLaneA.dpll.rateB = c.dpll.rateB ∧ c.loseLaneA.ref = c.ref ∧
    c.loseLaneA.dpll.ctr = c.dpll.ctr := by
  unfold Channel.loseLaneA Channel.enterHo
  dsimp only
  split
  all_goals (try exact ⟨rfl, rfl, rfl, rfl⟩)
  all_goals
    split
    · exact ⟨rfl, rfl, rfl, rfl⟩
    split <;> (rw [stateTo_dpll]; refine ⟨rfl, rfl, ?_, rfl⟩; unfold Channel.stateTo; dsimp only; split <;> rfl)

theorem b2n_field (v : Word) (l : ℕ) : getField v l 1 = b2n (bit v l) := by
  unfold b2n bit
  have : getField v l 1 < 2 := Nat.mod_lt _ (by decide)
  generalize getField v l 1 = n at *
  interval_cases n <;> rfl

theorem stepCmd_reg : findReg (kbRegs .dpll) DPLL_STEP_CMD = some ⟨0x210, [], [⟨31, 1, .wo, 0x0, .any⟩, ⟨30, 1, .rw, 0x0, .any⟩, ⟨29, 1, .ro, 0x0, .any⟩, ⟨28, 1, .wo, 0x0, .any⟩]⟩ := by rfl

theorem stepVal_of {c c2 : Channel} (ho : ∀ k, DPLL_STEP_CMD ≠ k → c2.word .dpll k = c.word .dpll k) : c2.stepVal = c.stepVal := by
  unfold Channel.stepVal
  congr 1
  refine List.map_congr_left (fun k hk => ho _ ?_)
  have : k < 4 := by simpa [upTo] using hk
  interval_cases k <;> simp [DPLL_STEP_CMD, DPLL_STEP_VAL]

/-- A plain field of a register as a write leaves it. -/

theorem write_rw {g : RegSpec} {f : Fld} (l : Bool) (v h w : Word) (hm : f ∈ g.fields) (ha : f.acc = .rw) (hk : f.ok = .any)
    (h32 : ∀ f ∈ g.fields, f.lsb + f.w ≤ 32) (hp : g.fields.Pairwise (fun a b => a.lsb + a.w ≤ b.lsb ∨ b.lsb + b.w ≤ a.lsb)) :
    getField (g.write l v h w) f.lsb f.w = getField v f.lsb f.w := by
  unfold RegSpec.write
  obtain ⟨u, -, h2⟩ := write_field l v h w hm h32 hp
  have e : f.write l v h u = putField u f.lsb f.w (getField v f.lsb f.w) := by
    unfold Fld.write
    rw [ha, hk]
    rfl
  rw [h2, e, getField_putField_same _ _ (h32 f hm)]
  exact Nat.mod_eq_of_lt (Nat.mod_lt _ (by positivity))

theorem cmd_word {c c2 : Channel} {w : Writer} {b : KB} {off : ℕ} {v : Word} {e : JBody}
    (h : c2 = c.storeWord w b off v ∨ c2 = (c.storeWord w b off v).journal e) {g : RegSpec} (hg : findReg (kbRegs b) off = some g) :
    c2.word b off = c.stored b off v g ∧ ∀ k o, b ≠ k ∨ off ≠ o → c2.word k o = c.word k o := by
  have hw : ∀ k o, c2.word k o = (c.storeWord w b off v).word k o := by rcases h with rfl | rfl <;> exact fun _ _ => rfl
  exact ⟨(hw _ _).trans (Channel.storeWord_word _ _ _ _ _ hg), fun k o hk => (hw _ _).trans (Channel.storeWord_word_ne _ _ _ _ _ hk)⟩

theorem step_abs {c c2 : Channel} {o : Origin} {v : Word} {e : JBody}
    (h : c2 = c.storeWord ⟨o, false⟩ .dpll DPLL_STEP_CMD v ∨ c2 = (c.storeWord ⟨o, false⟩ .dpll DPLL_STEP_CMD v).journal e) :
    c2.cur F.DPLL_STEP_CMD_ABS = b2n (bit v 30) ∧ c2.stepVal = c.stepVal := by
  obtain ⟨h1, h2⟩ := cmd_word h stepCmd_reg
  refine ⟨Eq.trans ?_ (b2n_field v 30), stepVal_of (fun k hk => h2 _ _ (.inr hk))⟩
  have := write_rw (f := ⟨30, 1, .rw, 0x0, .any⟩) (c.locked .dpll) v (smGet 0#32 (c.rf .dpll).hset DPLL_STEP_CMD) (c.word .dpll DPLL_STEP_CMD)
    (g := ⟨0x210, [], [⟨31, 1, .wo, 0x0, .any⟩, ⟨30, 1, .rw, 0x0, .any⟩, ⟨29, 1, .ro, 0x0, .any⟩, ⟨28, 1, .wo, 0x0, .any⟩]⟩) (by simp) rfl rfl (by simp) (by simp)
  exact (congrArg (fun w => getField w 30 1) h1).trans this

theorem doStep_dpll (c : Channel) (delta : Gt) (o : Origin) : (c.doStep delta o).dpll =
    { c.dpll with ctr := c.dpll.ctr + delta * 2 ^ 32, kCum := c.dpll.kCum + delta * 2 ^ 32,
                  teb0 := if c.dpll.hoAct then c.dpll.teb0 else satAdd c.dpll.teb0 (satCap (axOf delta)),
                  tebH := if c.dpll.hoAct then satAdd c.dpll.tebH (satCap (axOf delta)) else c.dpll.tebH,
                  waitA := [], waitB := [], short := [], long := [] } := rfl

theorem doStep_marks (c : Channel) (delta : Gt) (o : Origin) : (c.doStep delta o).cur F.DPLL_EVT_STEP = 1 ∧
    (c.doStep delta o).cur F.DPLL_STEP_CMD_WAIT = c.cur F.DPLL_STEP_CMD_WAIT ∧
    Eff.book ⟨o, 0x04, winReg c.ix .dpll (DPLL_TIME 2), wordOf delta 2, wordOf delta 1⟩ ∈ (c.doStep delta o).effs := by
  unfold Channel.doStep
  extract_lets d gain n c0 c1 c2
  have h1 : c1.cur F.DPLL_STEP_CMD_WAIT = c.cur F.DPLL_STEP_CMD_WAIT := rfl
  have h2 : c2.cur F.DPLL_STEP_CMD_WAIT = c1.cur F.DPLL_STEP_CMD_WAIT :=
    (Channel.cur_journal _ _ _).trans (cur_put_ne c1 F.DPLL_LATE_CNT_STEPPED F.DPLL_STEP_CMD_WAIT _ (by decide) (by decide))
  have h3 : c2.ix = c.ix := rfl
  clear_value c1 c2
  refine ⟨cur_evt _ _ rfl (by decide), ?_, ?_⟩
  · exact (Channel.cur_evt_ne _ _ _ (by decide)).trans ((Channel.cur_bookState c2 o .dpll _ _ _ F.DPLL_STEP_CMD_WAIT).trans (h2.trans h1))
  · unfold Channel.bookStep
    rw [Channel.evt_effs, Channel.bookState_effs, h3]
    simp

theorem stepAbs_eq {c : Channel} {z : Int} {w : Gt} {o : Origin} (hw : c.dpll.stepWait = some (z, w, o)) (h : c.reached (z * 2 ^ 64) = true) :
    c.stepAbs = ((c.setDpll { c.dpll with stepWait := none }).put F.DPLL_STEP_CMD_WAIT 0).doStep ((sar w 64 - z) * 2 ^ 64) o := by
  unfold Channel.stepAbs
  rw [hw]
  exact if_pos h

theorem waitZero (c : Channel) : (c.put F.DPLL_STEP_CMD_WAIT 0).cur F.DPLL_STEP_CMD_WAIT = 0 :=
  Channel.cur_put_lt c F.DPLL_STEP_CMD_WAIT 0 (by decide) (by decide)

theorem absNot {c : Channel} {z : Int} {w : Gt} {o : Origin} (hw : c.dpll.stepWait = some (z, w, o)) (h : c.reached (z * 2 ^ 64) = false) : c.stepAbs = c := by
  unfold Channel.stepAbs
  rw [hw]
  exact if_neg (by rw [h]; decide)

theorem updateState_dpll (c : Channel) (ax : ℕ) : ∃ hv lc uc bw st, (c.updateState ax).dpll =
    { c.dpll with hoValid := hv, lockCnt := lc, unlockCnt := uc, bwc := bw, st := st } := by
  unfold Channel.updateState
  dsimp only
  split
  · split
    · split <;> exact ⟨_, _, _, _, _, rfl⟩
    · exact ⟨_, _, _, _, _, rfl⟩
  · split
    · split <;> exact ⟨_, _, _, _, _, rfl⟩
    · exact ⟨_, _, _, _, _, rfl⟩
  · exact ⟨_, _, _, _, _, rfl⟩

theorem stateTo_dpll' (c : Channel) (st : ChanSt) : (c.stateTo st).dpll = { c.dpll with st := st } := by
  unfold Channel.stateTo
  dsimp only
  split <;> rfl

theorem setRate_dpll' (c : Channel) (v : Int) : (c.setRate v).dpll = { c.dpll with rate := clampAbs (2 ^ 50) v } := by
  unfold Channel.setRate
  dsimp only
  split <;> rfl

theorem applyB_dpll (c : Channel) (r : MeasRec) :
    let x := c.dpll
    let d := (c.applyB r).dpll
    d.waitA = x.waitA ∧ d.waitB = x.waitB ∧ d.lastTsB = some (match x.lastTsB with | some l => max l r.refTs | none => r.refTs) ∧ d.fbB = r.fb ∧
    d.bst = .track ∧ d.ctr = x.ctr ∧ d.rate = x.rate ∧ d.st = x.st ∧ (Channel.inert r = true → d.rateB = c.rateBNow) ∧
    (Channel.inert r = false → x.bst = .free → d.rateB = r.freq + x.rate) := by
  intro x d
  have hd : d = (c.applyB r).dpll := rfl
  clear_value d
  unfold Channel.applyB Channel.bStateTo at hd
  extract_lets first f rb0 rb c1 at hd
  have hk : d = { x with rateB := rb, firstB := false, fbB := r.fb, lastTsB := some (match x.lastTsB with | some l => max l r.refTs | none => r.refTs), bst := .track } := by
    rw [hd]
    split <;> rfl
  rw [hk]
  refine ⟨rfl, rfl, rfl, rfl, rfl, rfl, rfl, rfl, fun h => if_pos h, fun h hb => ?_⟩
  show rb = _
  unfold rb
  rw [if_neg (by rw [h]; decide), if_pos hb]

theorem nextDue_cons {c : Channel} {ws : List MeasRec} {r : MeasRec} (h : c.nextDue ws = some r) : ∃ n, ws.length = n + 1 := by
  cases ws with
  | nil => simp [Channel.nextDue] at h
  | cons a t => exact ⟨_, rfl⟩

theorem takes_setDpll (c : Channel) (d : DpllSt) (s : Servo) (r : MeasRec) : (c.setDpll d).takes s r = c.takes s r := by
  cases s <;> rfl

theorem servoA_eq {c : Channel} {r : MeasRec} {b : Bool} (h : c.nextDue c.dpll.waitA = some r) (ht : c.takes .a r = some b) :
    ∃ y : Channel, c.servoA = y.applyA r ∧ (∃ fs, y.dpll = { c.dpll with waitA := c.dpll.waitA.filter (fun z => z != r), first := fs }) ∧ (∀ k, (y.rf k).use = (c.rf k).use) ∧
      (∀ k o, y.word k o = c.word k o) := by
  obtain ⟨n, hn⟩ := nextDue_cons h
  unfold Channel.servoA
  rw [hn]
  unfold Channel.applyNext
  dsimp only
  rw [h]
  dsimp only
  rw [takes_setDpll, ht]
  cases b
  · exact ⟨_, rfl, ⟨_, rfl⟩, fun _ => rfl, fun _ _ => rfl⟩
  · exact ⟨_, rfl, ⟨_, rfl⟩, fun _ => rfl, fun _ _ => rfl⟩

theorem servoB_eq {c : Channel} {r : MeasRec} {b : Bool} (h : c.nextDue c.dpll.waitB = some r) (ht : c.takes .b r = some b) :
    ∃ y : Channel, c.servoB = y.applyB r ∧ (∃ fs, y.dpll = { c.dpll with waitB := c.dpll.waitB.filter (fun z => z != r), firstB := fs }) ∧ (∀ k, (y.rf k).use = (c.rf k).use) ∧
      (∀ k o, y.word k o = c.word k o) := by
  obtain ⟨n, hn⟩ := nextDue_cons h
  unfold Channel.servoB
  rw [hn]
  unfold Channel.applyNext
  dsimp only
  rw [h]
  dsimp only
  rw [takes_setDpll, ht]
  cases b
  · exact ⟨_, rfl, ⟨_, rfl⟩, fun _ => rfl, fun _ _ => rfl⟩
  · exact ⟨_, rfl, ⟨_, rfl⟩, fun _ => rfl, fun _ _ => rfl⟩

theorem dpll_ranked {α : Type} {c d : Channel} (h : Ranked c d) (g : DpllSt → α) (hg : ∀ x : DpllSt, g { x with cwEnd := 0 } = g x) : g d.dpll = g c.dpll := by
  rw [← hg d.dpll, h.dpll, hg]

theorem fld_of {c d : Channel} (hu : ∀ k, (d.rf k).use = (c.rf k).use) (hw : ∀ k o, d.word k o = c.word k o) (f : KF) : d.fld f = c.fld f := by
  unfold Channel.fld Channel.useWord
  rw [hu, hw]

theorem running_of_live {s : State} {c : ChanIx} (h : s.live c) : s.clear.running c = true := h.2

/-- A command of one channel, with what follows it in the queue of commands. -/

theorem acts_prog {i : Instr} {s : State} {c : ChanIx} {p : Channel → Prop} (f : Channel → Channel) (hl : s.live c)
    (hm : mayRate i = false) (hx : s.clear.effect i = (s.clear.onCh c f).chanProgress c) (hp : p (f s.ch[c])) :
    Acts i s (fun u => State.onlyIn [.cmdq, .ch, .out] s u ∧ s.changed u c p) := by
  refine acts_intro hl.1 hm ?_
  rw [hx, onCh_running (running_of_live hl)]
  have h1 : State.onlyIn [.cmdq] (s.clear.setCh c (Channel.settle s.clear.ch[c] (f s.clear.ch[c]))) ((s.clear.setCh c (Channel.settle s.clear.ch[c] (f s.clear.ch[c]))).chanProgress c) :=
    in_chanProgress _ rfl (State.onlyIn_refl _ _)
  have hch := h1.2.2.2 .ch (by decide)
  refine ⟨in_chanProgress _ rfl (in_setCh _ _ rfl (in_clear rfl (State.onlyIn_refl _ _))), f s.ch[c], hp, ?_, fun m hm => ?_⟩
  · rw [show (State.chanProgress _ c).ch = _ from hch]
    exact setCh_ch_self _ _ _
  · rw [show (State.chanProgress _ c).ch = _ from hch]
    exact setCh_ch_ne _ _ (Ne.symm hm)

theorem charEnd_dpll {c : Channel} {o : CharOp} (n : ℕ) (h : c.dpll.char = some o) : (c.charEnd n).dpll = { c.dpll with char := none } := by
  unfold Channel.charEnd
  rw [h]
  rfl

theorem charEnd_word (c : Channel) (n : ℕ) (b : KB) (off : ℕ) : (c.charEnd n).word b off = c.word b off := by
  unfold Channel.charEnd
  split <;> rfl

theorem word_put_ne (c : Channel) (f : KF) (v : ℕ) (b : KB) (off : ℕ) (h : f.blk ≠ b ∨ f.off ≠ off) : (c.put f v).word b off = c.word b off :=
  word_setWord_ne c f.blk b _ h

theorem charSample_some {c : Channel} {o : CharOp} (h : c.dpll.char = some o) (hr : c.reached (o.next * 2 ^ 64) = true) :
    c.charSample = (let o1 := { o with next := o.next + 1024 }
      if o.suspended then c.setDpll { c.dpll with char := some o1 }
      else if c.dpll.st = .locked then
        let ss := o.samples ++ [(o.next, c.dpll.rate)]
        let c1 := c.setDpll { c.dpll with char := some { o1 with samples := ss, missed := 0 } }
        if ss.length < o.nsamp then c1
        else
          let c2 := ((c1.put F.DPLL_LRN_B_B (min (Channel.characterize ss).2.1 SAT)).put F.DPLL_LRN_C_C (min (Channel.characterize ss).2.2 SAT)).setWord .dpll (DPLL_LRN_AGE 0) (wordOf (Channel.characterize ss).1 0)
          let c3 := (c2.setWord .dpll (DPLL_LRN_AGE 1) (wordOf (Channel.characterize ss).1 1)).put F.DPLL_LRN_STAT_VALID 1
          let c4 := (c3.put F.DPLL_LRN_STAT_SAMPLES ss.length).evt F.DPLL_EVT_CHAR
          (c4.charEnd 0).ask (.opEnd o.slot 0 0)
      else if o.missed + 1 ≥ 16 then
        (((c.setDpll { c.dpll with char := some { o1 with missed := o.missed + 1 } }).evt F.DPLL_EVT_CHAR).charEnd 9).ask (.opEnd o.slot 9 0)
      else c.setDpll { c.dpll with char := some { o1 with missed := o.missed + 1 } }) := by
  conv_lhs => unfold Channel.charSample
  rw [h]
  dsimp only
  rw [hr]
  rfl

theorem lastSample (c1 : Channel) (o : CharOp) (ho : c1.dpll.char = some o) (a : Int) (b cc n slot : ℕ) (hb : b ≤ SAT) (hcc : cc ≤ SAT) :
    ∃ d : Channel, ((((((((c1.put F.DPLL_LRN_B_B b).put F.DPLL_LRN_C_C cc).setWord .dpll (DPLL_LRN_AGE 0) (wordOf a 0)).setWord .dpll (DPLL_LRN_AGE 1) (wordOf a 1)).put
      F.DPLL_LRN_STAT_VALID 1).put F.DPLL_LRN_STAT_SAMPLES n).evt F.DPLL_EVT_CHAR).charEnd 0).ask (.opEnd slot 0 0) = d ∧
      d.dpll = { c1.dpll with char := none } ∧ d.cur F.DPLL_LRN_STAT_VALID = 1 ∧ d.cur F.DPLL_LRN_B_B = b ∧ d.cur F.DPLL_LRN_C_C = cc ∧
      d.word .dpll (DPLL_LRN_AGE 0) = wordOf a 0 ∧ d.word .dpll (DPLL_LRN_AGE 1) = wordOf a 1 ∧ d.cur F.DPLL_EVT_CHAR = 1 ∧ Eff.opEnd slot 0 0 ∈ d.effs := by
  refine ⟨_, rfl, ?_⟩
  generalize e1 : c1.put F.DPLL_LRN_B_B b = x1
  have d1 : x1.dpll = c1.dpll := by rw [← e1, Channel.put_dpll]
  have w1 : x1.cur F.DPLL_LRN_B_B = b := by rw [← e1]; exact Channel.cur_put_lt _ _ _ (by decide) (Nat.lt_of_le_of_lt hb (by decide))
  generalize e2 : x1.put F.DPLL_LRN_C_C cc = x2
  have d2 : x2.dpll = c1.dpll := by rw [← e2, Channel.put_dpll, d1]
  have w2 : x2.cur F.DPLL_LRN_C_C = cc ∧ x2.cur F.DPLL_LRN_B_B = b := by
    rw [← e2]
    exact ⟨Channel.cur_put_lt _ _ _ (by decide) (Nat.lt_of_le_of_lt hcc (by decide)), (cur_put_ne _ _ _ _ (by decide) (by decide)).trans w1⟩
  generalize e3 : x2.setWord .dpll (DPLL_LRN_AGE 0) (wordOf a 0) = x3
  have d3 : x3.dpll = c1.dpll := by rw [← e3, Channel.setWord_dpll, d2]
  have w3 : x3.word .dpll (DPLL_LRN_AGE 0) = wordOf a 0 ∧ ∀ o, DPLL_LRN_AGE 0 ≠ o → x3.word .dpll o = x2.word .dpll o := by
    rw [← e3]
    exact ⟨word_setWord_self _ _ _ _, fun o h => word_setWord_ne _ _ _ _ (.inr h)⟩
  generalize e4 : x3.setWord .dpll (DPLL_LRN_AGE 1) (wordOf a 1) = x4
  have d4 : x4.dpll = c1.dpll := by rw [← e4, Channel.setWord_dpll, d3]
  have w4 : x4.word .dpll (DPLL_LRN_AGE 1) = wordOf a 1 ∧ ∀ o, DPLL_LRN_AGE 1 ≠ o → x4.word .dpll o = x3.word .dpll o := by
    rw [← e4]
    exact ⟨word_setWord_self _ _ _ _, fun o h => word_setWord_ne _ _ _ _ (.inr h)⟩
  generalize e5 : x4.put F.DPLL_LRN_STAT_VALID 1 = x5
  have d5 : x5.dpll = c1.dpll := by rw [← e5, Channel.put_dpll, d4]
  have w5 : x5.cur F.DPLL_LRN_STAT_VALID = 1 ∧ ∀ o, DPLL_LRN_STAT ≠ o → x5.word .dpll o = x4.word .dpll o := by
    rw [← e5]
    exact ⟨Channel.cur_put_lt _ _ _ (by decide) (by decide), fun o h => word_put_ne _ _ _ _ _ (.inr h)⟩
  generalize e6 : x5.put F.DPLL_LRN_STAT_SAMPLES n = x6
  have d6 : x6.dpll = c1.dpll := by rw [← e6, Channel.put_dpll, d5]
  have w6 : x6.cur F.DPLL_LRN_STAT_VALID = 1 ∧ ∀ o, DPLL_LRN_STAT ≠ o → x6.word .dpll o = x5.word .dpll o := by
    rw [← e6]
    exact ⟨(cur_put_ne _ _ _ _ (by decide) (by decide)).trans w5.1, fun o h => word_put_ne _ _ _ _ _ (.inr h)⟩
  have w7 : ∀ o, DPLL_EVT ≠ o → (x6.evt F.DPLL_EVT_CHAR).word .dpll o = x6.word .dpll o := fun o h => Channel.word_evt_ne _ _ _ _ (.inr h)
  have w8 := cur_evt x6 F.DPLL_EVT_CHAR rfl (by decide)
  have d7 : (x6.evt F.DPLL_EVT_CHAR).dpll = c1.dpll := by rw [Channel.evt_dpll, d6]
  generalize x6.evt F.DPLL_EVT_CHAR = x7 at *
  have wf : ∀ o, ((x7.charEnd 0).ask (.opEnd slot 0 0)).word .dpll o = x7.word .dpll o := fun o => charEnd_word _ _ _ _
  have df := charEnd_dpll 0 (d7 ▸ ho)
  generalize hz : (x7.charEnd 0).ask (.opEnd slot 0 0) = z at *
  have dz : z.dpll = (x7.charEnd 0).dpll := by rw [← hz]; rfl
  have ez : Eff.opEnd slot 0 0 ∈ z.effs := by rw [← hz, Channel.ask_effs]; simp
  have cz : ∀ f : KF, f.blk = .dpll → z.cur f = x7.cur f := fun f hf => by unfold Channel.cur; rw [hf, wf]
  have c7 : ∀ f : KF, f.blk = .dpll → DPLL_EVT ≠ f.off → x7.cur f = x6.cur f := fun f hf ho => by unfold Channel.cur; rw [hf, w7 _ ho]
  have c64 : ∀ f : KF, f.blk = .dpll → DPLL_EVT ≠ f.off → DPLL_LRN_STAT ≠ f.off → z.cur f = x4.cur f := fun f hf ho hs => by
    rw [cz f hf, c7 f hf ho]; unfold Channel.cur; rw [hf, w6.2 _ hs, w5.2 _ hs]
  have c42 : ∀ f : KF, f.blk = .dpll → DPLL_LRN_AGE 0 ≠ f.off → DPLL_LRN_AGE 1 ≠ f.off → x4.cur f = x2.cur f := fun f hf ho hs => by
    unfold Channel.cur; rw [hf, w4.2 _ hs, w3.2 _ ho]
  refine ⟨by rw [dz, df, d7], (cz _ rfl).trans ((c7 _ rfl (by decide)).trans w6.1), ?_, ?_, ?_, ?_, (cz _ rfl).trans w8, ez⟩
  · exact (c64 F.DPLL_LRN_B_B rfl (by decide) (by decide)).trans ((c42 F.DPLL_LRN_B_B rfl (by decide) (by decide)).trans w2.2)
  · exact (c64 F.DPLL_LRN_C_C rfl (by decide) (by decide)).trans ((c42 F.DPLL_LRN_C_C rfl (by decide) (by decide)).trans w2.1)
  · rw [wf, w7 _ (by decide), w6.2 _ (by decide), w5.2 _ (by decide), w4.2 _ (by decide)]; exact w3.1
  · rw [wf, w7 _ (by decide), w6.2 _ (by decide), w5.2 _ (by decide)]; exact w4.1

end Sys2Proof
end

