-- ==== Sys2Proof/Laws/Tracking.lean ====
section
/-! SUPPORT. What a change of a tracking channel leaves, and words of registers after small changes. -/
namespace Sys2Proof
open Sys2Proof.Machine

theorem trkOff_ne {i j : Fin 48} (h : j ≠ i) : GNSS_TRK_STAT i.val ≠ GNSS_TRK_STAT j.val := by
  have : i.val ≠ j.val := fun e => h (Fin.ext e.symm)
  unfold GNSS_TRK_STAT
  omega

theorem vset_self {α : Type} {n : ℕ} (v : Vector α n) (i : Fin n) (x : α) : (v.set i x)[i] = x := by simp

theorem vset_ne {α : Type} {n : ℕ} (v : Vector α n) {i j : Fin n} (x : α) (h : j ≠ i) : (v.set i x)[j] = v[j] := by
  have hv : i.val ≠ j.val := fun e => h (Fin.ext e.symm)
  simp only [Fin.getElem_fin]
  rw [Vector.getElem_set_ne (h := hv)]

theorem word_putF_ne (c : Channel) (f : KF) (v : ℕ) (b : KB) (off : ℕ) (h : f.blk ≠ b ∨ f.off ≠ off) : (c.put f v).word b off = c.word b off :=
  word_setWord_ne c f.blk b _ h

theorem updTrk_facts (c : Channel) (i : Fin 48) (f : Trk → Trk) : ∃ d, c.updTrk i f = d ∧ d.regs = c.regs ∧ d.gnss.barred = c.gnss.barred ∧
    d.gnss.trk[i] = f c.gnss.trk[i] ∧ ∀ j, j ≠ i → d.gnss.trk[j] = c.gnss.trk[j] :=
  ⟨_, rfl, rfl, rfl, vset_self _ _ _, fun _ h => vset_ne _ _ h⟩

theorem word_of_regs {c d : Channel} (h : d.regs = c.regs) (b : KB) (off : ℕ) : d.word b off = c.word b off := by
  unfold Channel.word Channel.rf
  rw [h]

theorem putTrk (c : Channel) (i : Fin 48) (f : KF) (v : ℕ) (hb : f.blk = .gnss) (ho : f.off = GNSS_TRK_STAT i.val) (h32 : f.lsb + f.w ≤ 32) :
    ∃ d, c.put f v = d ∧ d.gnss = c.gnss ∧ d.cur f = v % 2 ^ f.w ∧ (∀ g : KF, g.lsb + g.w ≤ f.lsb ∨ f.lsb + f.w ≤ g.lsb → d.cur g = c.cur g) ∧
      ∀ j : Fin 48, j ≠ i → d.word .gnss (GNSS_TRK_STAT j.val) = c.word .gnss (GNSS_TRK_STAT j.val) :=
  ⟨_, rfl, rfl, cur_put_self _ _ _ h32, fun g h => cur_put_ne _ _ _ _ h32 (.inr (.inr h.symm)),
    fun j h => word_putF_ne _ _ _ _ _ (.inr (by rw [ho]; exact trkOff_ne h))⟩

theorem trkTo_facts (c : Channel) (i : Fin 48) (k : ℕ) (t : Option ℕ) (hk : k < 8) : ∃ d, c.trkTo i k t = d ∧ d.trkSt i = k ∧ d.gnss.trk[i].timer = t ∧
    d.trkGal i = c.trkGal i ∧ d.trkSv i = c.trkSv i ∧ d.gnss.barred = c.gnss.barred ∧
    ∀ j : Fin 48, j ≠ i → d.word .gnss (GNSS_TRK_STAT j.val) = c.word .gnss (GNSS_TRK_STAT j.val) ∧ d.gnss.trk[j] = c.gnss.trk[j] := by
  refine ⟨_, rfl, ?_⟩
  unfold Channel.trkTo
  obtain ⟨x, hx, x1, x2, x3, x4⟩ := putTrk c i (F.GNSS_TRK_STAT_STATE i.val) k rfl rfl (by show 29 + 3 ≤ 32; decide)
  obtain ⟨d, hd, d1, d2, d3, d4⟩ := updTrk_facts x i (fun t0 => { t0 with timer := t })
  rw [hx, hd]
  have hw := word_of_regs d1
  refine ⟨?_, by rw [d3], ?_, ?_, by rw [d2, x1], fun j h => ⟨(hw _ _).trans (x4 j h), by rw [d4 j h, x1]⟩⟩
  · have : d.trkSt i = x.cur (F.GNSS_TRK_STAT_STATE i.val) := congrArg (fun w => getField w 29 3) (hw _ _)
    rw [this, x2]
    exact Nat.mod_eq_of_lt hk
  · have : d.cur (F.GNSS_TRK_STAT_SYS i.val) = x.cur (F.GNSS_TRK_STAT_SYS i.val) := congrArg (fun w => getField w 28 1) (hw _ _)
    unfold Channel.trkGal
    rw [this, x3 _ (.inl (by show 28 + 1 ≤ 29; decide))]
  · have : d.cur (F.GNSS_TRK_STAT_SV i.val) = x.cur (F.GNSS_TRK_STAT_SV i.val) := congrArg (fun w => getField w 22 6) (hw _ _)
    unfold Channel.trkSv
    rw [this, x3 _ (.inl (by show 22 + 6 ≤ 29; decide))]

end Sys2Proof
end

