-- ==== Sys2Proof/Laws/SampleLink.lean ====
section
/-! SUPPORT. What sample-link frames, a change of the link's state and the back-channel leave. -/
namespace Sys2Proof
open Sys2Proof.Machine

theorem getField_or_bit (x : Word) {l a b : ℕ} (hl : l < 32) (h : l < a ∨ a + b ≤ l) : getField (x ||| BitVec.ofNat 32 (2 ^ l)) a b = getField x a b := by
  unfold getField
  rw [BitVec.toNat_or, BitVec.toNat_ofNat, Nat.mod_eq_of_lt (Nat.pow_lt_pow_right (by norm_num) hl)]
  apply Nat.eq_of_testBit_eq
  intro i
  rw [Nat.testBit_mod_two_pow, Nat.testBit_mod_two_pow, Nat.testBit_div_two_pow, Nat.testBit_div_two_pow, Nat.testBit_or, Nat.testBit_two_pow]
  by_cases hi : i < b
  · have : l ≠ i + a := by omega
    simp [this]
  · simp [hi]

theorem word_evt_self (c : Channel) (f : KF) : (c.evt f).word f.blk f.off = c.word f.blk f.off ||| BitVec.ofNat 32 (2 ^ f.lsb) := by
  unfold Channel.evt Channel.evtMask
  show smGet _ ((Channel.setRf _ _ _).rf f.blk).cur f.off = _
  rw [crf_setRf_self]
  exact word_setWord_self c f.blk f.off _

/-- A flag that hardware sets leaves every field that does not hold its bit. -/

theorem cur_evt_bit (c : Channel) (f g : KF) (hf : f.lsb < 32) (h : f.lsb < g.lsb ∨ g.lsb + g.w ≤ f.lsb) : (c.evt f).cur g = c.cur g := by
  by_cases e : f.blk ≠ g.blk ∨ f.off ≠ g.off
  · exact Channel.cur_evt_ne c f g e
  · obtain ⟨e1, e2⟩ := not_or.mp e
    rw [not_not] at e1 e2
    unfold Channel.cur
    rw [← e1, ← e2, word_evt_self]
    exact getField_or_bit _ hf h

theorem word_setGnss (c : Channel) (g : GnssBlk) (b : KB) (o : ℕ) : (c.setGnss g).word b o = c.word b o := rfl

theorem cur_setGnss (c : Channel) (g : GnssBlk) (f : KF) : (c.setGnss g).cur f = c.cur f := rfl

theorem gnss_setGnss (c : Channel) (g : GnssBlk) : (c.setGnss g).gnss = g := rfl

theorem word_updTrk (c : Channel) (i : Fin 48) (f : Trk → Trk) (b : KB) (o : ℕ) : (c.updTrk i f).word b o = c.word b o := rfl

theorem gnss_updTrk (c : Channel) (i : Fin 48) (f : Trk → Trk) : (c.updTrk i f).gnss = { c.gnss with trk := (c.updTrk i f).gnss.trk } := rfl

theorem word_trkTo (c : Channel) (i : Fin 48) (k : ℕ) (t : Option ℕ) (b : KB) (o : ℕ) (h : GNSS_TRK_STAT i.val ≠ o) : (c.trkTo i k t).word b o = c.word b o := by
  unfold Channel.trkTo
  rw [word_updTrk]
  exact word_putF_ne c (F.GNSS_TRK_STAT_STATE i.val) k b o (.inr h)

theorem gnss_trkTo (c : Channel) (i : Fin 48) (k : ℕ) (t : Option ℕ) : (c.trkTo i k t).gnss = { c.gnss with trk := (c.trkTo i k t).gnss.trk } := by
  unfold Channel.trkTo
  rw [gnss_updTrk, Channel.put_gnss]

theorem trkIdle_fold (p : Fin 48 → Bool) (l : List (Fin 48)) (c : Channel) :
    ∃ d, l.foldl (fun c i => if p i ∧ c.trkSt i ≠ TRK_IDLE then c.trkTo i TRK_IDLE none else c) c = d ∧
      (∀ i, c.trkSt i = TRK_IDLE → d.trkSt i = TRK_IDLE) ∧ (∀ i ∈ l, p i = true → d.trkSt i = TRK_IDLE) ∧
      (∀ o, (∀ i : Fin 48, GNSS_TRK_STAT i.val ≠ o) → ∀ b, d.word b o = c.word b o) ∧ d.gnss = { c.gnss with trk := d.gnss.trk } := by
  induction l generalizing c with
  | nil => exact ⟨c, rfl, fun _ h => h, fun _ h => absurd h (by simp), fun _ _ _ => rfl, rfl⟩
  | cons a r ih =>
    rw [List.foldl_cons]
    split
    · rename_i h
      obtain ⟨x, hx, x1, x2, x3, x4, x5, x6⟩ := trkTo_facts c a TRK_IDLE none (by decide)
      have xw : ∀ o, (∀ i : Fin 48, GNSS_TRK_STAT i.val ≠ o) → ∀ b, x.word b o = c.word b o := fun o ho b => by
        rw [← hx]; exact word_trkTo _ _ _ _ _ _ (ho a)
      have xg : x.gnss = { c.gnss with trk := x.gnss.trk } := by rw [← hx]; exact gnss_trkTo _ _ _ _
      rw [hx]
      obtain ⟨d, hd, d1, d2, d3, d4⟩ := ih x
      have xs : ∀ i, i = a ∨ c.trkSt i = TRK_IDLE → x.trkSt i = TRK_IDLE := fun i hi => by
        by_cases e : i = a
        · rw [e]; exact x1
        · have := hi.resolve_left e
          unfold Channel.trkSt Channel.cur at this ⊢
          rw [← this]
          exact congrArg (fun w => getField w 29 3) (x6 i e).1
      refine ⟨d, hd, fun i hi => d1 i (xs i (.inr hi)), fun i hi hp => ?_, fun o ho b => (d3 o ho b).trans (xw o ho b), d4.trans (by rw [xg])⟩
      rcases List.mem_cons.mp hi with e | e
      · exact d1 i (xs i (.inl e))
      · exact d2 i e hp
    · rename_i h
      obtain ⟨d, hd, d1, d2, d3, d4⟩ := ih c
      refine ⟨d, hd, d1, fun i hi hp => ?_, d3, d4⟩
      rcases List.mem_cons.mp hi with e | e
      · refine d1 i ?_
        by_contra k
        exact h ⟨by rw [← e]; exact hp, by rw [← e]; exact k⟩
      · exact d2 i e hp

theorem trkIdle_all (c : Channel) : ∃ d, c.trkIdle (fun _ => true) = d ∧ (∀ i, d.trkSt i = TRK_IDLE) ∧
    (∀ o, (∀ i : Fin 48, GNSS_TRK_STAT i.val ≠ o) → ∀ b, d.word b o = c.word b o) ∧ d.gnss = { c.gnss with trk := d.gnss.trk } := by
  obtain ⟨d, hd, d1, d2, d3, d4⟩ := trkIdle_fold (fun _ => true) (List.finRange 48) c
  exact ⟨d, hd, fun i => d2 i (List.mem_finRange i) rfl, d3, d4⟩

theorem trkOff_low (i : Fin 48) : 0x100 ≤ GNSS_TRK_STAT i.val := by unfold GNSS_TRK_STAT; omega

/-- The sample link in another state. -/

theorem linkTo_facts (c : Channel) (st : ℕ) (h : c.linkSt ≠ st) (hs : st < 4) : ∃ d, c.linkTo st = d ∧ d.linkSt = st ∧ d.gnss.good = 0 ∧ d.gnss.bad = 0 ∧
    (st ≠ LINK_DOWN → d.gnss = { c.gnss with good := 0, bad := 0 }) ∧ (st = LINK_DOWN → d.gnss.expect = none ∧ ∀ i, d.trkSt i = TRK_IDLE) ∧
    d.cur F.GNSS_EVT_LINK = 1 ∧ d.cur F.GNSS_LINK_STAT_CRC_ERR = c.cur F.GNSS_LINK_STAT_CRC_ERR := by
  unfold Channel.linkTo
  rw [if_neg h]
  dsimp only
  generalize e1 : c.put F.GNSS_LINK_STAT_STATE st = x
  have x1 : x.linkSt = st := by rw [← e1]; exact Channel.cur_put_lt _ _ _ (by decide) hs
  have x2 : x.cur F.GNSS_LINK_STAT_CRC_ERR = c.cur F.GNSS_LINK_STAT_CRC_ERR := by rw [← e1]; exact cur_put_ne _ _ _ _ (by decide) (by decide)
  generalize e2 : (x.evt F.GNSS_EVT_LINK).setGnss { c.gnss with good := 0, bad := 0 } = y
  have yw : ∀ b o, y.word b o = (x.evt F.GNSS_EVT_LINK).word b o := fun b o => by rw [← e2, word_setGnss]
  have yg : y.gnss = { c.gnss with good := 0, bad := 0 } := by rw [← e2, gnss_setGnss]
  have y1 : y.linkSt = st := (congrArg (fun w => getField w 30 2) (yw _ _)).trans ((Channel.cur_evt_ne x F.GNSS_EVT_LINK F.GNSS_LINK_STAT_STATE (by decide)).trans x1)
  have y2 : y.cur F.GNSS_LINK_STAT_CRC_ERR = c.cur F.GNSS_LINK_STAT_CRC_ERR :=
    (congrArg (fun w => getField w 0 16) (yw _ _)).trans ((Channel.cur_evt_ne x F.GNSS_EVT_LINK F.GNSS_LINK_STAT_CRC_ERR (by decide)).trans x2)
  have y3 : y.cur F.GNSS_EVT_LINK = 1 := (congrArg (fun w => getField w F.GNSS_EVT_LINK.lsb 1) (yw _ _)).trans (cur_evt x F.GNSS_EVT_LINK rfl (by decide))
  split
  · rename_i hd
    obtain ⟨z, hz, z1, z2, z3⟩ := trkIdle_all y
    rw [hz]
    have zl : ∀ f : KF, f.off < 0x100 → z.cur f = y.cur f := fun f hf => by
      unfold Channel.cur
      rw [z2 _ (fun i => by have := trkOff_low i; omega)]
    refine ⟨_, rfl, (zl F.GNSS_LINK_STAT_STATE (by decide)).trans y1, ?_, ?_, fun k => absurd hd k, fun _ => ⟨rfl, z1⟩, (zl F.GNSS_EVT_LINK (by decide)).trans y3, (zl F.GNSS_LINK_STAT_CRC_ERR (by decide)).trans y2⟩
    · show z.gnss.good = 0
      rw [z3, yg]
    · show z.gnss.bad = 0
      rw [z3, yg]
  · rename_i hd
    exact ⟨_, rfl, y1, by rw [yg], by rw [yg], fun _ => yg, fun k => absurd k hd, y3, y2⟩

/-- The link's state and its count of errors stay. -/

def LinkKept (c d : Channel) : Prop := d.linkSt = c.linkSt ∧ d.cur F.GNSS_LINK_STAT_CRC_ERR = c.cur F.GNSS_LINK_STAT_CRC_ERR

theorem LinkKept.refl (c : Channel) : LinkKept c c := ⟨rfl, rfl⟩

theorem LinkKept.trans {a b c : Channel} (h : LinkKept a b) (g : LinkKept b c) : LinkKept a c := ⟨g.1.trans h.1, g.2.trans h.2⟩

theorem lk_setGnss {a c : Channel} (g : GnssBlk) (h : LinkKept a c) : LinkKept a (c.setGnss g) := h.trans ⟨cur_setGnss _ _ _, cur_setGnss _ _ _⟩

theorem lk_put {a c : Channel} (f : KF) (v : ℕ) (h32 : f.lsb + f.w ≤ 32)
    (hd : f.blk ≠ .gnss ∨ f.off ≠ GNSS_LINK_STAT ∨ (16 ≤ f.lsb ∧ f.lsb + f.w ≤ 30)) (h : LinkKept a c) : LinkKept a (c.put f v) := by
  refine h.trans ⟨cur_put_ne _ _ _ _ h32 ?_, cur_put_ne _ _ _ _ h32 ?_⟩
  · exact hd.elim .inl (fun k => .inr (k.elim .inl (fun k => .inr (.inl k.2))))
  · exact hd.elim .inl (fun k => .inr (k.elim .inl (fun k => .inr (.inr k.1))))

theorem lk_evt {a c : Channel} (f : KF) (h32 : f.lsb < 30) (h16 : 16 ≤ f.lsb) (h : LinkKept a c) : LinkKept a (c.evt f) :=
  h.trans ⟨cur_evt_bit _ _ _ (by omega) (.inl h32), cur_evt_bit _ _ _ (by omega) (.inr h16)⟩

theorem lk_evt_ne {a c : Channel} (f : KF) (hd : f.blk ≠ .gnss ∨ f.off ≠ GNSS_LINK_STAT) (h : LinkKept a c) : LinkKept a (c.evt f) :=
  h.trans ⟨Channel.cur_evt_ne _ _ _ hd, Channel.cur_evt_ne _ _ _ hd⟩

theorem bcDone_facts (c : Channel) (a b r : ℕ) : LinkKept c (c.bcDone a b r) ∧ (c.bcDone a b r).gnss = { c.gnss with bc := (c.bcDone a b r).gnss.bc } := by
  unfold Channel.bcDone
  split
  · exact ⟨.refl _, rfl⟩
  · split
    · dsimp only
      constructor
      · split <;> exact lk_evt_ne _ (.inr (by decide)) (lk_put _ _ (by decide) (.inr (.inl (by decide))) (lk_put _ _ (by decide) (.inr (.inl (by decide))) (lk_setGnss _ (.refl _))))
      · simp only [Channel.evt_gnss, Channel.put_gnss, gnss_setGnss]
    · exact ⟨.refl _, rfl⟩

theorem snapFrame_facts (c : Channel) (good : Bool) (agc : Byte) (bs : Bytes) : LinkKept c (c.snapFrame good agc bs) ∧
    (c.snapFrame good agc bs).gnss = { c.gnss with snap := (c.snapFrame good agc bs).gnss.snap } := by
  unfold Channel.snapFrame
  split
  · split
    · dsimp only
      exact ⟨lk_put _ _ (by decide) (.inr (.inl (by decide))) (lk_setGnss _ (.refl _)), by simp only [Channel.put_gnss, gnss_setGnss]⟩
    · exact ⟨.refl _, rfl⟩
  · exact ⟨.refl _, rfl⟩

/-- A frame whose link is not DOWN. -/

theorem bcCmd_reg : findReg (kbRegs .gnss) GNSS_BC_CMD = some ⟨0x10, [], [⟨31, 1, .wo, 0x0, .any⟩, ⟨24, 2, .rw, 0x0, .any⟩, ⟨0, 16, .rw, 0x0, .any⟩]⟩ := by rfl

theorem bcCmd_fields {c c2 : Channel} {o : Origin} {v : Word} {e : JBody}
    (h : c2 = c.storeWord ⟨o, false⟩ .gnss GNSS_BC_CMD v ∨ c2 = (c.storeWord ⟨o, false⟩ .gnss GNSS_BC_CMD v).journal e) :
    c2.cur F.GNSS_BC_CMD_OP = getField v 24 2 ∧ c2.cur F.GNSS_BC_CMD_ADDR = getField v 0 16 ∧ c2.word .gnss GNSS_BC_DATA = c.word .gnss GNSS_BC_DATA ∧ c2.gnss = c.gnss := by
  obtain ⟨h1, h2⟩ := cmd_word h bcCmd_reg
  have k : ∀ f ∈ ([⟨31, 1, .wo, 0x0, .any⟩, ⟨24, 2, .rw, 0x0, .any⟩, ⟨0, 16, .rw, 0x0, .any⟩] : List Fld), f.acc = .rw → f.ok = .any →
      getField (c2.word .gnss GNSS_BC_CMD) f.lsb f.w = getField v f.lsb f.w := fun f hf ha hk => by
    rw [h1]
    exact write_rw (g := ⟨0x10, [], [⟨31, 1, .wo, 0x0, .any⟩, ⟨24, 2, .rw, 0x0, .any⟩, ⟨0, 16, .rw, 0x0, .any⟩]⟩) _ _ _ _ hf ha hk (by simp) (by simp)
  refine ⟨k ⟨24, 2, .rw, 0x0, .any⟩ (by simp) rfl rfl, k ⟨0, 16, .rw, 0x0, .any⟩ (by simp) rfl rfl, h2 _ _ (.inr (by decide)), ?_⟩
  obtain ⟨f, hf⟩ := Channel.storeWord_eq c ⟨o, false⟩ .gnss GNSS_BC_CMD v
  rcases h with rfl | rfl <;> rw [hf] <;> rfl

end Sys2Proof
end

