-- ==== Sys2Proof/Laws/Position.lean ====
section
/-! SUPPORT. What notches, jamming, position and survey leave. -/
namespace Sys2Proof
open Sys2Proof.Machine

theorem mem_ask (c : Channel) (e x : Eff) (h : x ∈ c.effs) : x ∈ (c.ask e).effs := by rw [Channel.ask_effs]; exact List.mem_append_left _ h

theorem mem_evt (c : Channel) (f : KF) (x : Eff) (h : x ∈ c.effs) : x ∈ (c.evt f).effs := by rw [Channel.evt_effs]; exact List.mem_append_left _ h

theorem cur_put_put (c : Channel) (f g : KF) (v w : ℕ) (hf : f.lsb + f.w ≤ 32) (hg : g.lsb + g.w ≤ 32) (hv : v < 2 ^ f.w)
    (d : g.blk ≠ f.blk ∨ g.off ≠ f.off ∨ g.lsb + g.w ≤ f.lsb ∨ f.lsb + f.w ≤ g.lsb) : ((c.put f v).put g w).cur f = v :=
  (cur_put_ne _ g f w hg d).trans (Channel.cur_put_lt c f v hf hv)

theorem notchPuts (c : Channel) (k st f : ℕ) (hs : st < 4) (hf : f < 2 ^ 27) : ∃ x, (c.put (F.GNSS_NOTCH_STAT_STATE k) st).put (F.GNSS_NOTCH_STAT_FREQ k) f = x ∧
    x.notchSt k = st ∧ x.cur (F.GNSS_NOTCH_STAT_FREQ k) = f ∧ x.gnss = c.gnss := by
  refine ⟨_, rfl, ?_, ?_, ?_⟩
  · exact cur_put_put c (F.GNSS_NOTCH_STAT_STATE k) (F.GNSS_NOTCH_STAT_FREQ k) st f (by show 30 + 2 ≤ 32; decide) (by show 0 + 27 ≤ 32; decide) hs
        (.inr (.inr (.inl (by show 0 + 27 ≤ 30; decide))))
  · exact Channel.cur_put_lt (c.put (F.GNSS_NOTCH_STAT_STATE k) st) (F.GNSS_NOTCH_STAT_FREQ k) f (by show 0 + 27 ≤ 32; decide)
      (by rw [show (F.GNSS_NOTCH_STAT_FREQ k).w = 27 from rfl]; exact hf)
  · rw [Channel.put_gnss, Channel.put_gnss]

theorem notchEvt (x : Channel) (k : ℕ) : (x.evt F.GNSS_EVT_NOTCH).notchSt k = x.notchSt k ∧
    (x.evt F.GNSS_EVT_NOTCH).cur (F.GNSS_NOTCH_STAT_FREQ k) = x.cur (F.GNSS_NOTCH_STAT_FREQ k) ∧ (x.evt F.GNSS_EVT_NOTCH).cur F.GNSS_EVT_NOTCH = 1 := by
  refine ⟨cur_evt_bit x F.GNSS_EVT_NOTCH (F.GNSS_NOTCH_STAT_STATE k) (by decide) (.inl (by show 3 < 30; decide)),
    Channel.cur_evt_ne x F.GNSS_EVT_NOTCH (F.GNSS_NOTCH_STAT_FREQ k) (.inr ?_), cur_evt _ _ rfl (by decide)⟩
  show 0x94 ≠ 0xA4 + 0x8 * k
  omega

theorem unsigned_lt (w : ℕ) (v : Int) : unsigned w v < 2 ^ w := by
  unfold unsigned
  have h1 : (0 : Int) < 2 ^ w := by positivity
  have h2 := Int.emod_lt_of_pos v h1
  have h3 := Int.emod_nonneg v h1.ne'
  zify
  rw [Int.toNat_of_nonneg h3]
  exact h2

theorem posTo_facts (c : Channel) (m : ℕ) (hm : m < 4) : ∃ d, c.posTo m = d ∧ d.posMode = m ∧ d.gnss = c.gnss ∧ (∀ x ∈ c.effs, x ∈ d.effs) ∧
    ∀ f : KF, f.off ≠ GNSS_POS_CTL → f.off ≠ GNSS_EVT → d.cur f = c.cur f := by
  refine ⟨_, rfl, ?_⟩
  unfold Channel.posTo
  split
  · rename_i h
    exact ⟨h, rfl, fun _ h => h, fun _ _ _ => rfl⟩
  · have h1 : (c.put F.GNSS_POS_CTL_MODE m).posMode = m := Channel.cur_put_lt _ _ _ (by decide) hm
    have h2 := Channel.put_gnss c F.GNSS_POS_CTL_MODE m
    have h3 := Channel.put_effs c F.GNSS_POS_CTL_MODE m
    have h4 : ∀ f : KF, f.off ≠ GNSS_POS_CTL → (c.put F.GNSS_POS_CTL_MODE m).cur f = c.cur f := fun f hf =>
      congrArg (fun w => getField w f.lsb f.w) (word_putF_ne _ _ _ _ _ (.inr (Ne.symm hf)))
    generalize c.put F.GNSS_POS_CTL_MODE m = x at *
    exact ⟨(Channel.cur_evt_ne x F.GNSS_EVT_POS F.GNSS_POS_CTL_MODE (by decide)).trans h1, (Channel.evt_gnss _ _).trans h2, fun y hy => mem_evt _ _ _ (by rw [h3]; exact hy),
      fun f hf he => (Channel.cur_evt_ne x F.GNSS_EVT_POS f (.inr (Ne.symm he))).trans (h4 f hf)⟩

theorem surveyStop_facts (c : Channel) (r : ℕ) : ∃ d, c.surveyStop r = d ∧ d.gnss = { c.gnss with survey := none } ∧
    (∀ b o, o ≠ GNSS_EVT → d.word b o = c.word b o) ∧ (∀ x ∈ c.effs, x ∈ d.effs) ∧
    ∀ v, c.gnss.survey = some v → Eff.opEnd v.slot r (c.cur F.GNSS_SURV_STAT_SPREAD) ∈ d.effs := by
  unfold Channel.surveyStop
  split
  · rename_i h
    refine ⟨c, rfl, ?_, fun _ _ _ => rfl, fun _ h => h, fun v hv => by rw [h] at hv; exact absurd hv (by simp)⟩
    rw [← h]
  · rename_i v hv
    refine ⟨_, rfl, ?_, fun b o ho => ?_, fun x hx => ?_, fun w hw => ?_⟩
    · rw [Channel.ask_gnss, Channel.evt_gnss, gnss_setGnss]
    · exact Channel.word_evt_ne (c.setGnss { c.gnss with survey := none }) F.GNSS_EVT_SURV b o (.inr (Ne.symm ho))
    · exact mem_ask _ _ _ (mem_evt _ _ _ hx)
    · rw [hv] at hw
      injection hw with hw
      rw [Channel.ask_effs, hw]
      simp

theorem posWritten_of {c d : Channel} (h : ∀ o, o ≠ GNSS_EVT → o ≠ GNSS_POS_CTL → d.word .gnss o = c.word .gnss o) : d.posWritten = c.posWritten := by
  unfold Channel.posWritten Channel.cur
  dsimp only
  rw [h _ (by decide) (by decide), h _ (by decide) (by decide), h _ (by decide) (by decide), h _ (by decide) (by decide), h _ (by decide) (by decide), h _ (by decide) (by decide)]
  rw [show d.word F.GNSS_POS_BND_BND.blk F.GNSS_POS_BND_BND.off = c.word F.GNSS_POS_BND_BND.blk F.GNSS_POS_BND_BND.off from h _ (by decide) (by decide)]

theorem jamStat_reg : findReg (kbRegs .gnss) GNSS_JAM_STAT = some ⟨0x40, [], [⟨24, 8, .ro, 0x0, .any⟩, ⟨16, 8, .ro, 0x0, .any⟩, ⟨0, 1, .wo, 0x0, .any⟩]⟩ := by rfl

theorem posCtl_reg : findReg (kbRegs .gnss) GNSS_POS_CTL = some ⟨0x7C, [], [⟨31, 1, .wo, 0x0, .any⟩, ⟨30, 1, .wo, 0x0, .any⟩, ⟨0, 2, .ro, 0x0, .any⟩]⟩ := by rfl

end Sys2Proof
end

