-- ==== Sys2Proof/Laws/Records.lean ====
section
/-! SUPPORT. What the registration of a record does (R73, R75, R76, R81): the lane's SEQ advances, the record is journaled, and whatever is
judged and selected after it leaves every SEQ and adds to what the channel asks. -/
namespace Sys2Proof.Machine

/-- Every lane keeps its SEQ, and nothing asked is taken back. -/
structure Grows (c d : Channel) : Prop where
  seq : ∀ n : LaneIx, (d.lane n).seq = (c.lane n).seq
  effs : ∀ x ∈ c.effs, x ∈ d.effs

theorem Grows.refl (c : Channel) : Grows c c := ⟨fun _ => rfl, fun _ h => h⟩
theorem Grows.trans {a b c : Channel} (h : Grows a b) (g : Grows b c) : Grows a c := ⟨fun n => (g.seq n).trans (h.seq n), fun x hx => g.effs x (h.effs x hx)⟩
theorem Grows.ite {c a b : Channel} {p : Prop} [Decidable p] (ha : Grows c a) (hb : Grows c b) : Grows c (if p then a else b) := by split <;> assumption

theorem Ranked.grows {c d : Channel} (h : Ranked c d) : Grows c d :=
  ⟨fun n => by
    have := congrArg Lane.seq (h.lanes n).rest
    exact this, fun x hx => by
    obtain ⟨es, he⟩ := h.effs
    rw [he]
    exact List.mem_append_left _ hx⟩

/-- The lanes stay, and what is asked grows. -/
theorem gr_same {c d : Channel} (h : d.ref.lanes = c.ref.lanes) (he : ∀ x ∈ c.effs, x ∈ d.effs) : Grows c d :=
  ⟨fun n => by unfold Channel.lane; rw [h], he⟩

theorem gr_evt {a c : Channel} (f : KF) (h : Grows a c) : Grows a (c.evt f) :=
  h.trans (gr_same rfl (fun x hx => by rw [Channel.evt_effs]; exact List.mem_append_left _ hx))
theorem gr_evtMask {a c : Channel} (b : KB) (o m : ℕ) (h : Grows a c) : Grows a (c.evtMask b o m) :=
  h.trans (gr_same rfl (fun x hx => by rw [Channel.evtMask_effs]; exact List.mem_append_left _ hx))
theorem gr_bump {a c : Channel} (f : KF) (h : Grows a c) : Grows a (c.bump f) :=
  h.trans (gr_same (by rw [Channel.bump_ref]) (fun x hx => by rw [Channel.bump_effs]; exact hx))
theorem gr_put {a c : Channel} (f : KF) (v : ℕ) (h : Grows a c) : Grows a (c.put f v) :=
  h.trans (gr_same (by rw [Channel.put_ref]) (fun x hx => by rw [Channel.put_effs]; exact hx))
theorem gr_journalAt {a c : Channel} (t : ℕ) (m l : Bool) (b : JBody) (h : Grows a c) : Grows a (c.journalAt t m l b) :=
  h.trans (gr_same rfl (fun _ hx => List.mem_append_left _ hx))

theorem lane_setLane_ne (c : Channel) {n m : LaneIx} (l : Lane) (h : m ≠ n) : (c.setLane n l).lane m = c.lane m := by
  have hv : n.val ≠ m.val := fun e => h (Fin.ext e.symm)
  unfold Channel.setLane Channel.lane
  simp only [Fin.getElem_fin]
  rw [Vector.getElem_set_ne (h := hv)]

theorem gr_setLane {a c : Channel} (n : LaneIx) (l : Lane) (hl : l.seq = (c.lane n).seq) (h : Grows a c) : Grows a (c.setLane n l) :=
  h.trans ⟨fun m => by
    by_cases e : m = n
    · rw [e, lane_setLane_self]; exact hl
    · rw [lane_setLane_ne _ _ e], fun _ hx => hx⟩
theorem gr_updLane {a c : Channel} (n : LaneIx) (f : Lane → Lane) (hf : ∀ l, (f l).seq = l.seq) (h : Grows a c) : Grows a (c.updLane n f) := gr_setLane n _ (hf _) h

theorem gr_journal {a c : Channel} (b : JBody) (h : Grows a c) : Grows a (c.journal b) := gr_journalAt _ _ _ b h

theorem gr_laneTo {a c : Channel} (n : LaneIx) (dst : LaneSt) (k : ℕ) (h : Grows a c) : Grows a (c.laneTo n dst k) := by
  refine h.trans ?_
  unfold Channel.laneTo
  extract_lets l l1 hh l2 l3 l4
  have h2 : l2.seq = (c.lane n).seq := by unfold l2; split <;> rfl
  have h3 : l3.seq = (c.lane n).seq := by unfold l3; split <;> exact h2
  have h4 : l4.seq = (c.lane n).seq := by unfold l4; split <;> exact h3
  exact Grows.ite (gr_setLane _ _ h4 (.refl _)) (gr_evtMask _ _ _ (gr_journal _ (gr_setLane _ _ h4 (.refl _))))

theorem gr_startWin {a c : Channel} (n : LaneIx) (h : Grows a c) : Grows a (c.startWin n) := gr_updLane _ _ (fun _ => rfl) h
theorem gr_startDq {a c : Channel} (n : LaneIx) (h : Grows a c) : Grows a (c.startDq n) := gr_updLane _ _ (fun _ => rfl) h
theorem gr_laneStat {a c : Channel} (n : LaneIx) (f : ℕ → KF) (h : Grows a c) : Grows a (c.laneStat n f) := gr_evt _ h

theorem gr_stepConfirmed {a c : Channel} (n : LaneIx) (d : Int) (h : Grows a c) : Grows a (c.stepConfirmed n d) := by
  refine h.trans ?_
  unfold Channel.stepConfirmed
  extract_lets add live c1
  have h1 : Grows c c1 := gr_laneStat _ _ (gr_updLane _ _ (fun _ => rfl) (.refl _))
  exact Grows.ite (gr_startWin _ (gr_laneTo _ _ _ h1)) h1

theorem gr_judge {a c : Channel} (r : MeasRec) (dis : Bool) (h : Grows a c) : Grows a (c.judge r dis) := by
  refine h.trans ?_
  unfold Channel.judge
  extract_lets n st ok good c1 c2 c3
  have h1 : Grows c c1 := Grows.ite (.refl _) (gr_laneStat _ _ (.refl _))
  have h2 : Grows c c2 := gr_updLane _ _ (fun _ => rfl) h1
  have h3 : Grows c c3 := gr_laneStat _ _ (gr_updLane _ _ (fun _ => rfl) h2)
  clear_value c1 c2 c3 st
  refine Grows.ite (Grows.ite (gr_updLane _ _ (fun _ => rfl) (gr_startDq _ (gr_laneTo _ _ _ h3))) h3)
    (Grows.ite (gr_startDq _ (gr_laneTo _ _ _ (gr_laneStat _ _ h2))) ?_)
  cases st
  all_goals first
    | exact h2
    | exact Grows.ite (gr_updLane _ _ (fun _ => rfl) h2) (gr_startWin _ h2)
    | exact Grows.ite h2 (gr_startDq _ (gr_laneTo _ _ _ h2))

/-- The registration of a record that is numbered and tagged. -/
theorem registerRec_facts (c : Channel) (sync : LaneIx → ℕ) (r1 : MeasRec) :
    ∃ d, c.registerRec sync r1 = d ∧ (d.lane r1.lane).seq = wrapInc 16 (c.lane r1.lane).seq ∧ (∀ m : LaneIx, m ≠ r1.lane → (d.lane m).seq = (c.lane m).seq) ∧
      ∃ (e : JEntry) (r : MeasRec), Eff.jour e ∈ d.effs ∧ e.body = .meas r ∧ { r with step := r1.step, backward := r1.backward, jseq := r1.jseq } = r1 := by
  refine ⟨_, rfl, ?_⟩
  unfold Channel.registerRec
  extract_lets n l used sd back r2 late c1 c2 ml on c3 c4 st' keep dd c5
  have h1 : Grows c c1 := gr_journalAt _ _ _ _ (.refl _)
  have j1 : ∃ e : JEntry, Eff.jour e ∈ c1.effs ∧ e.body = .meas r2 := ⟨_, List.mem_append_right _ (List.mem_singleton.mpr rfl), rfl⟩
  clear_value c1
  have h2 : Grows c1 c2 := Grows.ite (gr_evt _ (gr_bump _ (.refl _))) (.refl _)
  clear_value c2
  have h12 := h1.trans h2
  have h3 : (c3.lane n).seq = wrapInc 16 (c.lane n).seq ∧ (∀ m : LaneIx, m ≠ n → (c3.lane m).seq = (c.lane m).seq) ∧ c3.effs = c2.effs := by
    refine ⟨?_, fun m hm => ?_, rfl⟩
    · unfold c3 Channel.updLane
      rw [lane_setLane_self, ← h12.seq n]
    · unfold c3 Channel.updLane
      rw [lane_setLane_ne _ _ hm, h12.seq m]
  clear_value c3
  have h4 : Grows c3 c4 := by
    unfold c4
    split
    · exact .refl _
    · exact Grows.ite (gr_judge _ _ (gr_startWin _ (gr_laneTo _ _ _ (.refl _)))) (.refl _)
    · clear_value sd
      split
      · exact Grows.ite (gr_stepConfirmed _ _ (.refl _)) (gr_updLane _ _ (fun _ => rfl) (.refl _))
      · exact gr_judge _ _ (.refl _)
  clear_value c4
  have h5 : Grows c4 c5 := Grows.ite ⟨fun _ => rfl, fun _ h => h⟩ (.refl _)
  clear_value c5
  have h7 : Grows c3 { c5 with ref := { c5.ref with judged := n :: c5.ref.judged } } := (h4.trans h5).trans ⟨fun _ => rfl, fun _ h => h⟩
  obtain ⟨e, he, hb⟩ := j1
  refine ⟨(h7.seq n).trans h3.1, fun m hm => (h7.seq m).trans (h3.2.1 m hm), e, r2, h7.effs _ (by rw [h3.2.2]; exact h2.effs _ he), hb, rfl⟩

/-- The registration of a measured record: numbered, with the calibration entries and STEPW of its tick (R73, R75, R474). -/
theorem register_facts (c : Channel) (sync : LaneIx → ℕ) (r0 : MeasRec) :
    c.registers (c.register sync r0) r0.lane (fun r => r.refTs = r0.refTs ∧ r.offset = (c.calTerms r0).t ∧ r.freq = r0.freq ∧ r.fb = r0.fb ∧
      r.teb = satAdd (c.calTerms r0).h (c.lane r0.lane).stepW ∧ r.phaseOnly = r0.phaseOnly ∧ r.freqOnly = r0.freqOnly ∧ r.mpd = r0.mpd) := by
  obtain ⟨r1, hr1⟩ : ∃ r1 : MeasRec, r1 = { r0 with offset := (c.calTerms r0).t, seq := (c.lane r0.lane).seq, teb := satAdd (c.calTerms r0).h (c.lane r0.lane).stepW, tag := c.laneFlags r0.lane (tagCal r0.tag c.calset) } := ⟨_, rfl⟩
  have e0 : c.register sync r0 = c.registerRec sync r1 := by rw [hr1]; rfl
  have hn : r1.lane = r0.lane := by rw [hr1]
  obtain ⟨d, hd, d1, d2, e, r, he, hb, hr⟩ := registerRec_facts c sync r1
  rw [hn] at d1 d2
  rw [e0, hd]
  have f1 := congrArg MeasRec.lane hr
  have f2 := congrArg MeasRec.seq hr
  have f3 := congrArg MeasRec.refTs hr
  have f4 := congrArg MeasRec.offset hr
  have f5 := congrArg MeasRec.freq hr
  have f6 := congrArg MeasRec.fb hr
  have f7 := congrArg MeasRec.teb hr
  have f8 := congrArg MeasRec.phaseOnly hr
  have f9 := congrArg MeasRec.freqOnly hr
  have f10 := congrArg MeasRec.mpd hr
  clear hr
  subst hr1
  exact ⟨d1, d2, e, r, he, hb, f1, f2, f3, f4, f5, f6, f7, f8, f9, f10⟩

end Sys2Proof.Machine
end

