-- ==== Sys2Proof/Laws/Synths.lean ====
section
/-! SUPPORT. What the operations of the synthesizers do: lock, coast, ACQ, and the settling of their outputs (R155 to R159). -/
namespace Sys2Proof
open Sys2Proof.Machine

theorem fold_outs {g : Channel → Fin 8 → Channel} {P : OutSt → Prop} {Q : Channel → Channel → Prop} (hr : ∀ c, Q c c) (ht : ∀ a b c, Q a b → Q b c → Q a c)
    (h1 : ∀ c m, P ((g c m).out m)) (h2 : ∀ c m j, j ≠ m → (g c m).out j = c.out j) (h3 : ∀ c m, Q c (g c m)) :
    ∀ (l : List (Fin 8)) (c : Channel), Q c (l.foldl g c) ∧ (∀ m ∈ l, P ((l.foldl g c).out m)) ∧ ∀ m, m ∉ l → (l.foldl g c).out m = c.out m
  | [], c => ⟨hr c, fun _ h => absurd h (List.not_mem_nil), fun _ _ => rfl⟩
  | m :: l, c => by
    obtain ⟨a, b, d⟩ := fold_outs hr ht h1 h2 h3 l (g c m)
    refine ⟨ht _ _ _ (h3 c m) a, fun j hj => ?_, fun j hj => ?_⟩
    · by_cases hl : j ∈ l
      · exact b j hl
      · have : j = m := by rcases List.mem_cons.1 hj with h | h; exact h; exact absurd h hl
        subst this
        show P ((l.foldl g (g c j)).out j)
        rw [d j hl]
        exact h1 c j
    · rw [List.mem_cons, not_or] at hj
      show (l.foldl g (g c m)).out j = _
      rw [d j hj.2, h2 _ _ _ hj.1]

/-- Of a channel only the outputs of the synthesizers have changed. -/
structure OutsOnly (c d : Channel) : Prop where
  regs : d.regs = c.regs
  k0 : d.syn.k0 = c.syn.k0
  k1 : d.syn.k1 = c.syn.k1
  jour : d.jour = c.jour
  effs : d.effs = c.effs

theorem OutsOnly.refl (c : Channel) : OutsOnly c c := ⟨rfl, rfl, rfl, rfl, rfl⟩

theorem OutsOnly.trans {a b c : Channel} (h : OutsOnly a b) (g : OutsOnly b c) : OutsOnly a c :=
  ⟨g.1.trans h.1, g.2.trans h.2, g.3.trans h.3, g.4.trans h.4, g.5.trans h.5⟩

theorem OutsOnly.cur {c d : Channel} (h : OutsOnly c d) (f : KF) : d.cur f = c.cur f := by
  unfold Channel.cur Channel.word Channel.rf; rw [h.regs]

theorem OutsOnly.synK {c d : Channel} (h : OutsOnly c d) (k : ℕ) : d.synK k = c.synK k := by
  unfold Channel.synK; rw [h.k0, h.k1]

theorem oo_updOut (c : Channel) (m : Fin 8) (f : OutSt → OutSt) : OutsOnly c (c.updOut m f) := ⟨rfl, rfl, rfl, rfl, rfl⟩

theorem out_updOut (c : Channel) (m : Fin 8) (f : OutSt → OutSt) : (c.updOut m f).out m = f (c.out m) := vset_self _ _ _

theorem out_updOut_ne (c : Channel) (m : Fin 8) (f : OutSt → OutSt) {j : Fin 8} (h : j ≠ m) : (c.updOut m f).out j = c.out j := vset_ne _ _ h

theorem statOff_ne {j k : Fin 2} (h : j ≠ k) : 0x20 + 0x20 * k.val ≠ 0x20 + 0x20 * j.val := by
  have : j.val ≠ k.val := fun e => h (Fin.ext e)
  omega

/-- What the fields of SYNk_STAT and the use of the settings are through a chain of operations. -/
structure StatKept (k : Fin 2) (c d : Channel) : Prop where
  use : ∀ b, (d.rf b).use = (c.rf b).use
  other : ∀ j : Fin 2, j ≠ k → d.word .syn (0x20 + 0x20 * j.val) = c.word .syn (0x20 + 0x20 * j.val)
  jour : d.jour = c.jour

theorem StatKept.refl (k : Fin 2) (c : Channel) : StatKept k c c := ⟨fun _ => rfl, fun _ _ => rfl, rfl⟩

theorem StatKept.trans {k : Fin 2} {a b c : Channel} (h : StatKept k a b) (g : StatKept k b c) : StatKept k a c :=
  ⟨fun x => (g.1 x).trans (h.1 x), fun j hj => (g.2 j hj).trans (h.2 j hj), g.3.trans h.3⟩

theorem StatKept.synSt {k : Fin 2} {c d : Channel} (h : StatKept k c d) (j : Fin 2) (hj : j ≠ k) : d.synSt j.val = c.synSt j.val :=
  congrArg (fun w => getField w 30 2) (h.other j hj)

theorem StatKept.fld {k : Fin 2} {c d : Channel} (h : StatKept k c d) (f : KF) (hs : f.sh = true) : d.fld f = c.fld f := by
  unfold Channel.fld Channel.useWord; rw [if_pos hs, if_pos hs, h.use]

theorem StatKept.synOuts {k : Fin 2} {c d : Channel} (h : StatKept k c d) (j : ℕ) : d.synOuts j = c.synOuts j := by
  unfold Channel.synOuts Channel.flag
  refine congrArg (fun p => List.filter p (List.finRange 8)) (funext fun m => ?_)
  rw [h.fld (F.SYN_OUT_CFG_EN m.val) rfl, h.fld (F.SYN_OUT_CFG_SRC m.val) rfl]

theorem OutsOnly.kept {c d : Channel} (h : OutsOnly c d) (k : Fin 2) : StatKept k c d :=
  ⟨fun b => by unfold Channel.rf; rw [h.regs], fun _ _ => word_of_regs h.regs _ _, h.jour⟩

theorem sk_put (k : Fin 2) (c : Channel) (f : KF) (v : ℕ) (h : f.blk ≠ .syn ∨ ∀ j : Fin 2, j ≠ k → f.off ≠ 0x20 + 0x20 * j.val) : StatKept k c (c.put f v) :=
  ⟨fun b => (us_put f v (Uses.refl c)).use b, fun j hj => word_putF_ne _ _ _ _ _ (h.imp id (fun g => g j hj)), rfl⟩

theorem sk_evt (k : Fin 2) (c : Channel) (f : KF) (h : f.blk ≠ .syn ∨ ∀ j : Fin 2, j ≠ k → f.off ≠ 0x20 + 0x20 * j.val) : StatKept k c (c.evt f) :=
  ⟨fun b => (us_evt f (Uses.refl c)).use b, fun j hj => Channel.word_evt_ne _ _ _ _ (h.imp id (fun g => g j hj)), rfl⟩

theorem sk_setSyn (k : Fin 2) (c : Channel) (y : SynBlk) : StatKept k c (c.setSyn y) := ⟨fun _ => rfl, fun _ _ => rfl, rfl⟩

theorem notStat {off : ℕ} (k : Fin 2) (h : off = 0x20 + 0x20 * k.val ∨ off = 0x24 + 0x20 * k.val ∨ off = 0x600) : ∀ j : Fin 2, j ≠ k → off ≠ 0x20 + 0x20 * j.val := by
  intro j hj
  have : j.val ≠ k.val := fun e => hj (Fin.ext e)
  omega

theorem setPerr_facts (c : Channel) (k : Fin 2) (e : Int) : ∃ d, c.setPerr k.val e = d ∧ StatKept k c d ∧ d.syn = c.syn ∧ d.effs = c.effs ∧
    d.word .syn (0x20 + 0x20 * k.val) = c.word .syn (0x20 + 0x20 * k.val) := by
  refine ⟨_, rfl, ?_⟩
  unfold Channel.setPerr
  split
  · exact ⟨StatKept.refl _ _, rfl, rfl, rfl⟩
  · refine ⟨sk_put _ _ _ _ (.inr (notStat k (.inr (.inl rfl)))), Channel.put_syn _ _ _, Channel.put_effs _ _ _, word_putF_ne _ _ _ _ _ (.inr ?_)⟩
    show 0x24 + 0x20 * k.val ≠ 0x20 + 0x20 * k.val
    omega

theorem putStat (c : Channel) (k : Fin 2) (f : KF) (v : ℕ) (ho : f.off = 0x20 + 0x20 * k.val) (h32 : f.lsb + f.w ≤ 32) (hv : v < 2 ^ f.w) :
    ∃ d, c.put f v = d ∧ StatKept k c d ∧ d.syn = c.syn ∧ d.effs = c.effs ∧ d.cur f = v ∧
      (∀ g : KF, g.lsb + g.w ≤ f.lsb ∨ f.lsb + f.w ≤ g.lsb → d.cur g = c.cur g) ∧
      (∀ g : KF, g.off = 0x600 → d.cur g = c.cur g) :=
  ⟨_, rfl, sk_put _ _ _ _ (.inr (notStat k (.inl ho))), Channel.put_syn _ _ _, Channel.put_effs _ _ _, Channel.cur_put_lt _ _ _ h32 hv,
    fun g h => cur_put_ne _ _ _ _ h32 (.inr (.inr h.symm)),
    fun g h => congrArg (fun w => getField w g.lsb g.w) (word_putF_ne _ _ _ _ _ (.inr (by omega)))⟩

theorem evtStat (c : Channel) (k : Fin 2) (f : KF) (ho : f.off = 0x20 + 0x20 * k.val) (h1 : f.w = 1) (h32 : f.lsb < 32) :
    ∃ d, c.evt f = d ∧ StatKept k c d ∧ d.syn = c.syn ∧ (∀ e ∈ c.effs, e ∈ d.effs) ∧ d.cur f = 1 ∧
      (∀ g : KF, f.lsb < g.lsb ∨ g.lsb + g.w ≤ f.lsb → d.cur g = c.cur g) ∧
      (∀ g : KF, g.off = 0x600 → d.cur g = c.cur g) :=
  ⟨_, rfl, sk_evt _ _ _ (.inr (notStat k (.inl ho))), Channel.evt_syn _ _, fun e h => mem_evt _ _ _ h, cur_evt _ _ h1 h32,
    fun g h => cur_evt_bit _ _ _ h32 h, fun g h => Channel.cur_evt_ne _ _ _ (.inr (by omega))⟩

theorem evtSyn (c : Channel) (k : Fin 2) (f : KF) (ho : f.off = 0x600) (h1 : f.w = 1) (h32 : f.lsb < 32) :
    ∃ d, c.evt f = d ∧ StatKept k c d ∧ d.syn = c.syn ∧ (∀ e ∈ c.effs, e ∈ d.effs) ∧ d.cur f = 1 ∧
      (∀ g : KF, g.off = 0x20 + 0x20 * k.val → d.cur g = c.cur g) :=
  ⟨_, rfl, sk_evt _ _ _ (.inr (notStat k (.inr (.inr ho)))), Channel.evt_syn _ _, fun e h => mem_evt _ _ _ h, cur_evt _ _ h1 h32,
    fun g h => Channel.cur_evt_ne _ _ _ (.inr (by omega))⟩

def synEv (k : Fin 2) : KF := if k.val = 0 then F.SYN_EVT_SYN0 else F.SYN_EVT_SYN1

theorem synTo_facts (c : Channel) (k : Fin 2) (x : ℕ) (hne : c.synSt k.val ≠ x) (hx : x < 4) : ∃ d, c.synTo k.val x = d ∧ StatKept k c d ∧ d.syn = c.syn ∧
    (∀ e ∈ c.effs, e ∈ d.effs) ∧ d.synSt k.val = x ∧ d.cur (synEv k) = 1 ∧
    ∀ g : KF, g.off = 0x20 + 0x20 * k.val → g.lsb + g.w ≤ 30 → d.cur g = c.cur g := by
  obtain ⟨a, ha, a1, a2, a3, a4, a5, a6⟩ := putStat c k (F.SYN_SYN_STAT_STATE k.val) x rfl (by show 30 + 2 ≤ 32; decide) hx
  obtain ⟨b, hb, b1, b2, b3, b4, b5⟩ := evtSyn a k (synEv k) (by unfold synEv; split <;> rfl)
    (by unfold synEv; split <;> rfl) (by unfold synEv; split <;> decide)
  refine ⟨b, ?_, a1.trans b1, b2.trans a2, fun e h => b3 e (by rw [a3]; exact h), (b5 _ rfl).trans a4, b4, fun g h1 h2 => (b5 g h1).trans (a5 g (.inl h2))⟩
  unfold Channel.synTo
  rw [if_neg hne, ha]
  exact hb

def StaysKept (c d : Channel) : Prop := d.syn.k0 = c.syn.k0 ∧ d.syn.k1 = c.syn.k1

theorem StaysKept.refl (c : Channel) : StaysKept c c := ⟨rfl, rfl⟩

theorem StaysKept.trans {a b c : Channel} (h : StaysKept a b) (g : StaysKept b c) : StaysKept a c := ⟨g.1.trans h.1, g.2.trans h.2⟩

theorem stays_of_syn {c d : Channel} (h : d.syn = c.syn) : StaysKept c d := ⟨by rw [h], by rw [h]⟩

theorem stays_fold {α : Type} {g : Channel → α → Channel} (hg : ∀ y a, StaysKept y (g y a)) : ∀ (l : List α) (x : Channel), StaysKept x (l.foldl g x)
  | [], _ => StaysKept.refl _
  | a :: l, x => (hg x a).trans (stays_fold hg l (g x a))

theorem stays_only {L : List ChPart} {c d : Channel} (h : Channel.onlyIn L c d) (hL : ChPart.syn ∉ L) : StaysKept c d := stays_of_syn (h.2.2.2.2 .syn hL).1

theorem stays_setSyn (c : Channel) (y : SynBlk) (h0 : y.k0 = c.syn.k0) (h1 : y.k1 = c.syn.k1) : StaysKept c (c.setSyn y) := ⟨h0, h1⟩

theorem stays_updOut (c : Channel) (m : Fin 8) (f : OutSt → OutSt) : StaysKept c (c.updOut m f) := ⟨rfl, rfl⟩

theorem stays_updPls (c : Channel) (j : Fin 2) (f : PlsSt → PlsSt) : StaysKept c (c.updPls j f) := ⟨rfl, rfl⟩

theorem stays_raGo (c : Channel) : StaysKept c c.raGo := by
  unfold Channel.raGo
  dsimp only
  split
  · exact stays_of_syn (Channel.evt_syn _ _)
  · have h := stays_of_syn (Channel.put_syn c F.SYN_RA_CTL_ACT 1)
    generalize c.put F.SYN_RA_CTL_ACT 1 = x at h ⊢
    split <;> exact h.trans (stays_setSyn _ _ rfl rfl)

theorem noLock_facts (c : Channel) (k : Fin 2) (h : c.synSt k.val = SYN_ACQ ∧ (c.synK k.val).noLock = false ∧ (c.synK k.val).acqTick + 2000000 ≤ c.jour.tick) :
    ∃ d, c.noLock k.val = d ∧ StatKept k c d ∧ (d.synK k.val).noLock = true ∧ d.synSt k.val = SYN_ACQ ∧ d.cur (F.SYN_SYN_STAT_NOLOCK k.val) = 1 ∧
      d.cur F.SYN_EVT_NOLOCK = 1 ∧ Eff.fault (24 + k.val) ∈ d.effs := by
  have hx : ∃ x, c.setSynK k.val { c.synK k.val with noLock := true } = x ∧ StatKept k c x ∧ (x.synK k.val).noLock = true ∧ ∀ g : KF, x.cur g = c.cur g := by
    refine ⟨_, rfl, sk_setSyn _ _ _, ?_, fun _ => rfl⟩
    unfold Channel.synK Channel.setSynK
    split <;> simp [Channel.setSyn]
  obtain ⟨x, hx, x1, x2, x3⟩ := hx
  obtain ⟨a, ha, a1, a2, a3, a4, a5, a6⟩ := evtStat x k (F.SYN_SYN_STAT_NOLOCK k.val) rfl rfl (by show 26 < 32; decide)
  obtain ⟨b, hb, b1, b2, b3, b4, b5⟩ := evtSyn a k F.SYN_EVT_NOLOCK rfl rfl (by decide)
  refine ⟨_, rfl, ?_⟩
  unfold Channel.noLock
  dsimp only
  rw [if_pos ⟨h.1, by rw [h.2.1]; rfl, h.2.2⟩, hx, ha, hb]
  have hk : (b.synK k.val).noLock = true := by unfold Channel.synK; rw [b2, a2]; exact x2
  refine ⟨((x1.trans a1).trans b1).trans ⟨fun _ => rfl, fun _ _ => rfl, rfl⟩, hk, ?_, ?_, ?_, ?_⟩
  · exact (Channel.cur_ask b _ _).trans ((b5 _ rfl).trans ((a5 _ (.inl (by show 26 < 30; decide))).trans ((x3 _).trans h.1)))
  · exact (Channel.cur_ask b _ _).trans ((b5 _ rfl).trans a4)
  · exact (Channel.cur_ask b _ _).trans b4
  · rw [Channel.ask_effs]; exact List.mem_append_right _ (List.mem_singleton.2 rfl)

end Sys2Proof
end

