-- ==== Sys2Proof/Laws/OutCommits.lean ====
section
/-! SUPPORT. What staged commits, pulses, the ToD output and realignment do (R156, R163 to R168). -/
namespace Sys2Proof
open Sys2Proof.Machine

/-! ### The words in use -/

theorem foldPut_get (st : List (Nat × Word)) : ∀ (offs : List ℕ) (u : List (Nat × Word)),
    (∀ o ∈ offs, smGet (kbRst .syn o) (offs.foldl (fun u o => smPut (kbRst .syn o) u o (smGet (kbRst .syn o) st o)) u) o = smGet (kbRst .syn o) st o) ∧
    ∀ o, o ∉ offs → ∀ d, smGet d (offs.foldl (fun u o => smPut (kbRst .syn o) u o (smGet (kbRst .syn o) st o)) u) o = smGet d u o
  | [], _ => ⟨fun _ h => absurd h List.not_mem_nil, fun _ _ _ => rfl⟩
  | a :: l, u => by
    obtain ⟨h1, h2⟩ := foldPut_get st l (smPut (kbRst .syn a) u a (smGet (kbRst .syn a) st a))
    refine ⟨fun o ho => ?_, fun o ho d => ?_⟩
    · by_cases hl : o ∈ l
      · exact h1 o hl
      · have : o = a := by rcases List.mem_cons.1 ho with h | h; exact h; exact absurd h hl
        subst this
        rw [List.foldl_cons, h2 o hl, smGet_smPut_same]
    · rw [List.mem_cons, not_or] at ho
      rw [List.foldl_cons, h2 o ho.2, smGet_smPut_ne _ _ _ _ ho.1]

theorem takeStaged_facts (c : Channel) (st : List (Nat × Word)) (offs : List ℕ) : ∃ d, c.takeStaged st offs = d ∧ d.syn = c.syn ∧ d.jour = c.jour ∧ d.effs = c.effs ∧
    (∀ b o, d.word b o = c.word b o) ∧ (∀ o ∈ offs, d.useWord .syn o = smGet (kbRst .syn o) st o) := by
  refine ⟨_, rfl, rfl, rfl, rfl, fun b o => ?_, fun o ho => ?_⟩
  · cases b <;> rfl
  · exact (foldPut_get st offs (c.rf .syn).use).1 o ho

theorem word_useWord {c d : Channel} (h : d.regs = c.regs) (b : KB) (off : ℕ) : d.useWord b off = c.useWord b off := by
  unfold Channel.useWord Channel.rf; rw [h]

theorem sk_synTo (k : Fin 2) (c : Channel) (x : ℕ) : StatKept k c (c.synTo k.val x) := by
  unfold Channel.synTo
  split
  · exact StatKept.refl _ _
  · exact (sk_put k c _ x (.inr (notStat k (.inl rfl)))).trans (sk_evt k _ _ (.inr (by split <;> exact notStat k (.inr (.inr rfl)))))

theorem synTo_st (k : Fin 2) (c : Channel) (x : ℕ) (hx : x < 4) : (c.synTo k.val x).synSt k.val = x := by
  by_cases h : c.synSt k.val = x
  · unfold Channel.synTo; rw [if_pos h]; exact h
  · obtain ⟨d, hd, d1, d2, d3, d4, d5⟩ := synTo_facts c k x h hx
    rw [hd]; exact d4

theorem sk_fold (k : Fin 2) {α : Type} {g : Channel → α → Channel} (hg : ∀ y a, StatKept k y (g y a)) : ∀ (l : List α) (x : Channel), StatKept k x (l.foldl g x)
  | [], _ => StatKept.refl _ _
  | a :: l, x => (hg x a).trans (sk_fold k hg l (g x a))

theorem sk_updOut (k : Fin 2) (c : Channel) (m : Fin 8) (f : OutSt → OutSt) : StatKept k c (c.updOut m f) := (oo_updOut c m f).kept k

theorem sk_synPut (k : Fin 2) (c : Channel) (f : KF) (v : ℕ) (ho : f.off = 0x20 + 0x20 * k.val) : StatKept k c (c.put f v) := sk_put k c f v (.inr (notStat k (.inl ho)))

/-- What holds of the words and settings once a staged part has been taken. -/
structure Taken (c d : Channel) : Prop where
  use : ∀ b, (d.rf b).use = (c.rf b).use
  stat : ∀ k : Fin 2, d.synSt k.val = c.synSt k.val

theorem stageSettle_facts (c : Channel) (x : SynStage) (h : c.syn.stage = some x) : ∃ d, c.stageSettle = d ∧ Taken c d ∧
    ((x.p0 || x.p1 || x.pp) = true → d.syn.stage = some x) ∧
    ((x.p0 || x.p1 || x.pp) = false → d.syn.stage = none ∧ d.cur F.SYN_CTL_CPEND = 0 ∧ d.cur F.SYN_EVT_CAPPLY = 1) := by
  refine ⟨_, rfl, ?_⟩
  unfold Channel.stageSettle
  rw [h]
  dsimp only
  by_cases hp : (x.p0 || x.p1 || x.pp) = true
  · rw [if_pos hp]
    exact ⟨⟨fun _ => rfl, fun _ => rfl⟩, fun _ => h, fun g => by rw [hp] at g; cases g⟩
  · rw [if_neg hp]
    obtain ⟨a, ha, a1, a2, a3⟩ : ∃ a, c.setSyn { c.syn with stage := none } = a ∧ a.syn.stage = none ∧ (∀ b, (a.rf b).use = (c.rf b).use) ∧ ∀ f, a.cur f = c.cur f :=
      ⟨_, rfl, rfl, fun _ => rfl, fun _ => rfl⟩
    rw [ha]
    obtain ⟨b, hb, b1, b2, b3, b4⟩ : ∃ b, a.put F.SYN_CTL_CPEND 0 = b ∧ b.syn = a.syn ∧ (∀ k, (b.rf k).use = (a.rf k).use) ∧ b.cur F.SYN_CTL_CPEND = 0 ∧
        ∀ g : KF, g.off ≠ 0 → b.cur g = a.cur g :=
      ⟨_, rfl, Channel.put_syn _ _ _, (us_put _ _ (Uses.refl a)).use, Channel.cur_put_lt _ _ _ (by decide) (by decide),
        fun g hg => congrArg (fun w => getField w g.lsb g.w) (word_putF_ne _ _ _ _ _ (.inr (Ne.symm hg)))⟩
    rw [hb]
    obtain ⟨d, hd, d1, d2, d3, d4⟩ : ∃ d, b.evt F.SYN_EVT_CAPPLY = d ∧ d.syn = b.syn ∧ (∀ k, (d.rf k).use = (b.rf k).use) ∧ d.cur F.SYN_EVT_CAPPLY = 1 ∧
        ∀ g : KF, g.off ≠ 0x600 → d.cur g = b.cur g :=
      ⟨_, rfl, Channel.evt_syn _ _, (us_evt _ (Uses.refl b)).use, cur_evt _ _ rfl (by decide), fun g hg => Channel.cur_evt_ne _ _ _ (.inr (Ne.symm hg))⟩
    rw [hd]
    refine ⟨⟨fun k => (d2 k).trans ((b2 k).trans (a2 k)), fun k => ?_⟩, fun g => absurd g hp, fun _ => ⟨by rw [d1, b1, a1], (d4 _ (by decide)).trans b3, d3⟩⟩
    have h1 : 0x20 + 0x20 * k.val ≠ 0x600 := by omega
    have h2 : 0x20 + 0x20 * k.val ≠ 0 := by omega
    exact (d4 _ h1).trans ((b4 _ h2).trans (a3 _))

theorem synPart_cfg (st : List (Nat × Word)) (k : ℕ) : (F.SYN_SYN_CFG_EN k).off ∈ Channel.synPart st k := by
  unfold Channel.synPart
  exact List.mem_append_left _ (List.mem_cons_self)

theorem plse_updPls (c : Channel) (j : Fin 2) (f : PlsSt → PlsSt) : (c.updPls j f).plse j = f (c.plse j) := vset_self _ _ _

theorem bumpFacts (c : Channel) (f : KF) (h32 : f.lsb + f.w ≤ 32) : ∃ d, c.bump f = d ∧ d.syn = c.syn ∧ d.effs = c.effs ∧ d.cur f = (c.cur f + 1) % 2 ^ f.w :=
  ⟨_, rfl, Channel.bump_syn _ _, Channel.bump_effs _ _, cur_put_self _ _ _ h32⟩

theorem evtFacts (c : Channel) (f : KF) (h1 : f.w = 1) (h32 : f.lsb < 32) : ∃ d, c.evt f = d ∧ d.syn = c.syn ∧ (∀ e ∈ c.effs, e ∈ d.effs) ∧ d.cur f = 1 ∧
    ∀ g : KF, f.off ≠ g.off → d.cur g = c.cur g :=
  ⟨_, rfl, Channel.evt_syn _ _, fun e h => mem_evt _ _ _ h, cur_evt _ _ h1 h32, fun g h => Channel.cur_evt_ne _ _ _ (.inr h)⟩

theorem slewDone_facts (c : Channel) (h : c.cur F.SYN_RA_CTL_ACT = 1 ∧ c.syn.raJump = none ∧ c.pdev = 0) : ∃ d, c.slewDone = d ∧
    d.syn = { c.syn with raFrom := none } ∧ d.cur F.SYN_RA_CTL_ACT = 0 ∧ d.cur F.SYN_EVT_RA_DONE = 1 := by
  refine ⟨_, rfl, ?_⟩
  unfold Channel.slewDone
  rw [if_pos ⟨h.1, by rw [h.2.1]; rfl, h.2.2⟩]
  obtain ⟨a, ha, a1⟩ : ∃ a, c.setSyn { c.syn with raFrom := none } = a ∧ a.syn = { c.syn with raFrom := none } := ⟨_, rfl, rfl⟩
  rw [ha]
  obtain ⟨b, hb, b1, b2⟩ : ∃ b, a.put F.SYN_RA_CTL_ACT 0 = b ∧ b.syn = a.syn ∧ b.cur F.SYN_RA_CTL_ACT = 0 :=
    ⟨_, rfl, Channel.put_syn _ _ _, Channel.cur_put_lt _ _ _ (by decide) (by decide)⟩
  rw [hb]
  obtain ⟨e, he, e1, e2, e3, e4⟩ := evtFacts b F.SYN_EVT_RA_DONE rfl (by decide)
  rw [he]
  exact ⟨e1.trans (b1.trans a1), (e4 _ (by decide)).trans b2, e3⟩

theorem raCtl_reg : findReg (kbRegs .syn) SYN_RA_CTL = some ⟨0x400, [], [⟨31, 1, .wo, 0x0, .any⟩, ⟨30, 1, .rw, 0x0, .any⟩, ⟨29, 1, .rw, 0x0, .any⟩,
    ⟨28, 1, .ro, 0x0, .any⟩, ⟨27, 1, .w1c, 0x0, .any⟩]⟩ := by rfl

/-- A field that a write leaves as it was. -/

theorem write_ro {g : RegSpec} {f : Fld} (l : Bool) (v h w : Word) (hm : f ∈ g.fields) (ha : f.acc = .ro ∨ f.acc = .wo)
    (h32 : ∀ f ∈ g.fields, f.lsb + f.w ≤ 32) (hp : g.fields.Pairwise (fun a b => a.lsb + a.w ≤ b.lsb ∨ b.lsb + b.w ≤ a.lsb)) :
    getField (g.write l v h w) f.lsb f.w = getField w f.lsb f.w := by
  unfold RegSpec.write
  obtain ⟨u, h1, h2⟩ := write_field l v h w hm h32 hp
  have e : f.write l v h u = u := by
    unfold Fld.write
    rcases ha with ha | ha <;> rw [ha]
  rw [h2, e, h1]

theorem putSyn (c : Channel) (f : KF) (v : ℕ) (h32 : f.lsb + f.w ≤ 32) (hv : v < 2 ^ f.w) : ∃ d, c.put f v = d ∧ d.syn = c.syn ∧ d.cur f = v ∧
    (∀ g : KF, f.off ≠ g.off → d.cur g = c.cur g) ∧ d.dpll = c.dpll ∧ d.jour = c.jour :=
  ⟨_, rfl, Channel.put_syn _ _ _, Channel.cur_put_lt _ _ _ h32 hv, fun g h => congrArg (fun w => getField w g.lsb g.w) (word_putF_ne _ _ _ _ _ (.inr h)),
    Channel.put_dpll _ _ _, rfl⟩

theorem raGo_facts (c : Channel) : ∃ d, c.raGo = d ∧
    let sl := c.cur F.SYN_RA_SLEW_RA_SLEW
    let bad := c.cur F.SYN_RA_CTL_ACT = 1 ∨ sl < 1 ∨ sl > 1000000
    (bad → d.syn = c.syn ∧ d.cur F.SYN_RA_CTL_REJ = 1) ∧
    (¬ bad → c.cur F.SYN_RA_CTL_MODE ≠ 1 → d.cur F.SYN_RA_CTL_ACT = 1 ∧ d.syn = { c.syn with raFrom := some (c.jour.tick + 1) }) ∧
    (¬ bad → c.cur F.SYN_RA_CTL_MODE = 1 → d.cur F.SYN_RA_CTL_ACT = 1 ∧
      d.syn = { c.syn with raJump := some (-(sar (-(c.now + 2 ^ 63)) 64) * 2 ^ 64 - 2 ^ 63) }) := by
  refine ⟨_, rfl, ?_⟩
  unfold Channel.raGo
  intro sl bad
  obtain ⟨a, ha, a1, a2, a3, a4⟩ := evtFacts c F.SYN_RA_CTL_REJ rfl (by decide)
  obtain ⟨b, hb, b1, b2, b3, b4, b5⟩ := putSyn c F.SYN_RA_CTL_ACT 1 (by decide) (by decide)
  dsimp only
  rw [ha, hb]
  refine ⟨fun h => ?_, fun h hm => ?_, fun h hm => ?_⟩
  · rw [if_pos h]; exact ⟨a1, a3⟩
  · rw [if_neg h, if_neg hm, b1]; exact ⟨b2, rfl⟩
  · rw [if_neg h, if_pos hm, b1]; exact ⟨b2, rfl⟩

/-- What the count of skipped pulses keeps. -/
structure Skips (c d : Channel) : Prop where
  syn : d.syn = c.syn
  dpll : d.dpll = c.dpll
  use : ∀ b, (d.rf b).use = (c.rf b).use
  stat : ∀ k : Fin 2, d.synSt k.val = c.synSt k.val
  jour : d.jour = c.jour

theorem Skips.refl (c : Channel) : Skips c c := ⟨rfl, rfl, fun _ => rfl, fun _ => rfl, rfl⟩

theorem Skips.trans {a b c : Channel} (h : Skips a b) (g : Skips b c) : Skips a c :=
  ⟨g.1.trans h.1, g.2.trans h.2, fun x => (g.3 x).trans (h.3 x), fun k => (g.4 k).trans (h.4 k), g.5.trans h.5⟩

theorem sp_put (c : Channel) (f : KF) (v : ℕ) (h : ∀ k : Fin 2, f.off ≠ 0x20 + 0x20 * k.val) : Skips c (c.put f v) :=
  ⟨Channel.put_syn _ _ _, Channel.put_dpll _ _ _, (us_put f v (Uses.refl c)).use,
    fun k => congrArg (fun w => getField w 30 2) (word_putF_ne _ _ _ _ _ (.inr (h k))), rfl⟩

theorem sp_evt (c : Channel) (f : KF) (h : ∀ k : Fin 2, f.off ≠ 0x20 + 0x20 * k.val) : Skips c (c.evt f) :=
  ⟨Channel.evt_syn _ _, Channel.evt_dpll _ _, (us_evt f (Uses.refl c)).use, fun k => congrArg (fun w => getField w 30 2) (Channel.word_evt_ne _ _ _ _ (.inr (h k))), rfl⟩

theorem sp_fold {α : Type} {g : Channel → α → Channel} (hg : ∀ y a, Skips y (g y a)) : ∀ (l : List α) (x : Channel), Skips x (l.foldl g x)
  | [], _ => Skips.refl _
  | a :: l, x => (hg x a).trans (sp_fold hg l (g x a))

theorem low_ne {off : ℕ} (h : 0x40 < off) : ∀ k : Fin 2, off ≠ 0x20 + 0x20 * k.val := fun k => by omega

end Sys2Proof
end

