-- ==== Sys2Proof/Laws/Epochs.lean ====
section
/-! SUPPORT. What epochs, the L8 record and snapshots do (R106, R111 to R118). -/
namespace Sys2Proof
open Sys2Proof.Machine

theorem putGnss (c : Channel) (f : KF) (v : ℕ) : ∃ d, c.put f v = d ∧ d.gnss = c.gnss ∧ d.effs = c.effs ∧ ∀ g : KF, f.off ≠ g.off → d.cur g = c.cur g :=
  ⟨_, rfl, Channel.put_gnss _ _ _, Channel.put_effs _ _ _, fun g h => congrArg (fun w => getField w g.lsb g.w) (word_putF_ne _ _ _ _ _ (.inr h))⟩

theorem trkFold (ms : List SatMeas) (f g : SatMeas → ℕ) (F1 F2 : ℕ → KF) (h1 : ∀ i, (F1 i).off = GNSS_TRK_STAT i) (h2 : ∀ i, (F2 i).off = GNSS_TRK_STAT i) :
    ∀ c : Channel, ∃ d, ms.foldl (fun c m => (c.put (F1 m.trk.val) (f m)).put (F2 m.trk.val) (g m)) c = d ∧ d.gnss = c.gnss ∧
      ∀ k : KF, k.off < 0x100 → d.cur k = c.cur k := by
  induction ms with
  | nil => exact fun c => ⟨c, rfl, rfl, fun _ _ => rfl⟩
  | cons m ms ih =>
    intro c
    obtain ⟨a, ha, a1, a2, a3⟩ := putGnss c (F1 m.trk.val) (f m)
    obtain ⟨b, hb, b1, b2, b3⟩ := putGnss a (F2 m.trk.val) (g m)
    obtain ⟨d, hd, d1, d2⟩ := ih b
    refine ⟨d, by rw [List.foldl_cons, ha, hb, hd], by rw [d1, b1, a1], fun k hk => ?_⟩
    rw [d2 k hk, b3 k (by rw [h2]; have := trkOff_low m.trk; omega), a3 k (by rw [h1]; have := trkOff_low m.trk; omega)]

def Asks (c d : Channel) : Prop := ∀ x ∈ c.effs, x ∈ d.effs

theorem Asks.refl (c : Channel) : Asks c c := fun _ h => h

theorem Asks.trans {a b c : Channel} (h : Asks a b) (g : Asks b c) : Asks a c := fun x hx => g x (h x hx)

theorem as_evt (c : Channel) (f : KF) : Asks c (c.evt f) := fun x h => mem_evt c f x h

theorem as_ask (c : Channel) (e : Eff) : Asks c (c.ask e) := fun x h => mem_ask c e x h

theorem ref_of_only {L : List ChPart} {c d : Channel} (h : Channel.onlyIn L c d) (hL : ChPart.ref ∉ L) : d.ref = c.ref := (h.2.2.2.2 .ref hL).1

theorem snapStart_facts (c : Channel) (ps : ℕ) (h : c.cur F.GNSS_SNAP_STAT_STATE = SNAP_ARMED ∧ (c.cur F.GNSS_SNAP_CTL_AT = 0 ∨ c.snapT0 ≤ (c.stampAt ps).1)) :
    ∃ d, c.snapStart ps = d ∧ d.cur F.GNSS_SNAP_STAT_STATE = SNAP_CAPTURING ∧
      ∃ x, d.gnss = { c.gnss with snap := some x } ∧ x.len = c.cur F.GNSS_SNAP_CTL_LEN ∧ x.t0 = (c.stampAt ps).1 ∧ x.t0teb = c.tebAt (c.stampAt ps).1 ∧ x.complete = false ∧ x.frames = [] := by
  obtain ⟨d, hd⟩ : ∃ d, c.snapStart ps = d := ⟨_, rfl⟩
  refine ⟨d, hd, ?_⟩
  unfold Channel.snapStart at hd
  extract_lets t x src at hd
  rw [if_pos h] at hd
  obtain ⟨a, ha, a1⟩ : ∃ a, c.setGnss { c.gnss with snap := some x } = a ∧ a.gnss = { c.gnss with snap := some x } := ⟨_, rfl, rfl⟩
  have hd' : a.put F.GNSS_SNAP_STAT_STATE SNAP_CAPTURING = d := by rw [← ha]; exact hd
  rw [← hd']
  exact ⟨Channel.cur_put_lt _ _ _ (by decide) (by decide), x, (Channel.put_gnss _ _ _).trans a1, rfl, rfl, rfl, rfl, rfl⟩

theorem putEvt_gnss (a : Channel) (v : ℕ) (hv : v < 8) : ∃ d, (a.put F.GNSS_SNAP_STAT_STATE v).evt F.GNSS_EVT_SNAP = d ∧ d.gnss = a.gnss ∧
    d.cur F.GNSS_SNAP_STAT_STATE = v ∧ d.cur F.GNSS_EVT_SNAP = 1 :=
  ⟨_, rfl, (Channel.evt_gnss _ _).trans (Channel.put_gnss _ _ _), (Channel.cur_evt_ne _ _ _ (.inr (by decide))).trans (Channel.cur_put_lt _ _ _ (by decide) hv),
    cur_evt _ _ rfl (by decide)⟩

theorem snapComplete_facts (c : Channel) (x : Snap) (h : c.gnss.snap = some x) (hf : c.cur F.GNSS_SNAP_STAT_STATE = SNAP_CAPTURING ∧ x.len * 100 ≤ x.frames.length) :
    ∃ d, c.snapComplete = d ∧ d.gnss = { c.gnss with snap := some { x with complete := true } } ∧ d.cur F.GNSS_SNAP_STAT_STATE = SNAP_FULL ∧ d.cur F.GNSS_EVT_SNAP = 1 := by
  refine ⟨_, rfl, ?_⟩
  unfold Channel.snapComplete
  rw [h]
  dsimp only
  rw [if_pos hf]
  obtain ⟨a, ha, a1⟩ : ∃ a, c.setGnss { c.gnss with snap := some { x with complete := true } } = a ∧ a.gnss = { c.gnss with snap := some { x with complete := true } } := ⟨_, rfl, rfl⟩
  rw [ha]
  obtain ⟨d, hd, d1, d2, d3⟩ := putEvt_gnss a SNAP_FULL (by decide)
  rw [hd]
  exact ⟨d1.trans a1, d2, d3⟩

theorem snapFail_facts (c : Channel) (slot : ℕ) : ∃ d, (((if c.cur F.GNSS_SNAP_STAT_STATE = SNAP_PROCESSING then c.put F.GNSS_SNAP_STAT_STATE SNAP_FULL else c).evt
    F.GNSS_EVT_SNAP).ask (.opEnd slot 0x09 0)) = d ∧ d.gnss = c.gnss ∧ d.cur F.GNSS_EVT_SNAP = 1 ∧ Eff.opEnd slot 0x09 0 ∈ d.effs := by
  obtain ⟨a, ha, a1⟩ : ∃ a, (if c.cur F.GNSS_SNAP_STAT_STATE = SNAP_PROCESSING then c.put F.GNSS_SNAP_STAT_STATE SNAP_FULL else c) = a ∧ a.gnss = c.gnss := by
    refine ⟨_, rfl, ?_⟩
    split
    · exact Channel.put_gnss _ _ _
    · rfl
  rw [ha]
  obtain ⟨b, hb, b1, b2⟩ : ∃ b, a.evt F.GNSS_EVT_SNAP = b ∧ b.gnss = a.gnss ∧ b.cur F.GNSS_EVT_SNAP = 1 := ⟨_, rfl, Channel.evt_gnss _ _, cur_evt _ _ rfl (by decide)⟩
  rw [hb]
  refine ⟨_, rfl, b1.trans a1, (Channel.cur_ask _ _ _).trans b2, ?_⟩
  rw [Channel.ask_effs]
  exact List.mem_append_right _ (List.mem_singleton.2 rfl)

theorem snapProcess_facts (c : Channel) (slot : ℕ) (ms : List SatMeas) : ∃ d, c.snapProcess slot ms = d ∧
    let waits := ∃ i : Fin 48, c.trkSt i = TRK_SEARCH
    let can (x : Snap) := c.gnss.snap = some x ∧ x.complete = true ∧ c.posMode = POS_HOLD ∧ c.gnss.pos ≠ none
    (waits → d = c) ∧
    (¬ waits → ∀ x, can x → d.cur F.GNSS_EVT_SNAP = 1 ∧ d.cur F.GNSS_SNAP_STAT_STATE = SNAP_DONE ∧ Eff.opEnd slot 0 0 ∈ d.effs ∧
      ∃ bs, d.gnss = { c.gnss with snap := some { x with processed := true, result := some bs } }) ∧
    (¬ waits → (∀ x, ¬ can x) → d.cur F.GNSS_EVT_SNAP = 1 ∧ Eff.opEnd slot 0x09 0 ∈ d.effs ∧ d.gnss = c.gnss) := by
  obtain ⟨d, hd⟩ : ∃ d, c.snapProcess slot ms = d := ⟨_, rfl⟩
  refine ⟨d, hd, ?_⟩
  intro waits can
  have hw : (List.finRange 48).any (fun i => c.trkSt i == TRK_SEARCH) = true ↔ waits := by
    simp only [List.any_eq_true, beq_iff_eq, waits, List.mem_finRange, true_and]
  unfold Channel.snapProcess at hd
  by_cases h : waits
  · rw [if_pos (hw.2 h)] at hd
    exact ⟨fun _ => hd.symm, fun g => absurd h g, fun g => absurd h g⟩
  · rw [if_neg (fun g => h (hw.1 g))] at hd
    refine ⟨fun g => absurd g h, fun _ x hx => ?_, fun _ hn => ?_⟩
    · obtain ⟨h1, h2, h3, h4⟩ := hx
      have hp : c.heldPos = c.gnss.pos := by unfold Channel.heldPos; rw [if_pos h3]
      obtain ⟨p, hp'⟩ := Option.ne_none_iff_exists'.1 h4
      rw [h1, hp, hp'] at hd
      dsimp -zeta only at hd
      rw [if_neg (by rintro (g | g); · rw [h2] at g; cases g
                     · exact g h3)] at hd
      extract_lets us n iv iv1 iv2 r s' src at hd
      obtain ⟨a, ha, a1⟩ : ∃ a, c.setGnss { c.gnss with snap := some s' } = a ∧ a.gnss = { c.gnss with snap := some s' } := ⟨_, rfl, rfl⟩
      obtain ⟨e, he, e1, e2, e3⟩ := putEvt_gnss a SNAP_DONE (by decide)
      have hd' : e.ask (.opEnd slot 0 0) = d := by rw [← he, ← ha]; exact hd
      rw [← hd']
      refine ⟨(Channel.cur_ask _ _ _).trans e3, (Channel.cur_ask _ _ _).trans e2, ?_, Channel.recBytes r, ?_⟩
      · rw [Channel.ask_effs]
        exact List.mem_append_right _ (List.mem_singleton.2 rfl)
      · rw [Channel.ask_gnss, e1, a1]
    · obtain ⟨z, hz, z1, z2, z3⟩ := snapFail_facts c slot
      have key : d = z := by
        rw [← hz, ← hd]
        split
        · rename_i x p h1 hp
          refine if_pos ?_
          by_contra g
          rw [not_or, not_not] at g
          obtain ⟨g1, g2⟩ := g
          have h3 := g2
          refine hn x ⟨h1, by simpa using g1, h3, ?_⟩
          have : c.heldPos = c.gnss.pos := by unfold Channel.heldPos; rw [if_pos h3]
          rw [← this, hp]
          exact Option.some_ne_none _
        · rfl
      rw [key]
      exact ⟨z2, z3, z1⟩

theorem snapCtl_reg : findReg (kbRegs .gnss) GNSS_SNAP_CTL = some ⟨0x200, [], [⟨31, 1, .wo, 0x0, .any⟩, ⟨30, 1, .rw, 0x0, .any⟩, ⟨0, 7, .rw, 0x2, .any⟩]⟩ := by rfl

end Sys2Proof
end

