-- ==== Sys2Proof/Laws/TwinMoves.lean ====
section
/-! SUPPORT. What the moves of the twin's state machine do: state changes, the drive right, cold entry, racking, the boot (R255 to R275). -/
namespace Sys2Proof.Machine

/-- Of the twin's registers only EVT and the fields `fs` may have changed, and the safe state is as it was. -/
structure TwKept (fs : List GF) (s t : State) : Prop where
  reg : ∀ g : GF, g.blk = .twin → g.off ≠ 0x40 → (∀ f ∈ fs, f.off ≠ g.off ∨ f.lsb + f.w ≤ g.lsb ∨ g.lsb + g.w ≤ f.lsb) → t.gcur g = s.gcur g
  use : ∀ o, t.guse .twin o = s.guse .twin o
  safe : t.safe = s.safe
  tick : t.tick = s.tick

theorem TwKept.refl (s : State) : TwKept [] s s := ⟨fun _ _ _ _ => rfl, fun _ => rfl, rfl, rfl⟩
theorem TwKept.trans {fs gs : List GF} {a b c : State} (h : TwKept fs a b) (g : TwKept gs b c) : TwKept (fs ++ gs) a c :=
  ⟨fun x hb ho hd => (g.reg x hb ho (fun f hf => hd f (List.mem_append_right _ hf))).trans (h.reg x hb ho (fun f hf => hd f (List.mem_append_left _ hf))),
    fun o => (g.use o).trans (h.use o), g.safe.trans h.safe, g.tick.trans h.tick⟩
theorem TwKept.mono {fs gs : List GF} {s t : State} (h : TwKept fs s t) (hs : ∀ f ∈ fs, f ∈ gs) : TwKept gs s t :=
  ⟨fun x hb ho hd => h.reg x hb ho (fun f hf => hd f (hs f hf)), h.use, h.safe, h.tick⟩
theorem TwKept.twst {fs : List GF} {s t : State} (h : TwKept fs s t) (hd : ∀ f ∈ fs, f.off ≠ 0x10 ∨ f.lsb + f.w ≤ 29) : t.twst = s.twst :=
  h.reg F.TWIN_STAT_STATE rfl (by decide) (fun f hf => (hd f hf).imp id .inl)

theorem safe_word {s t : State} (h : ∀ o, t.gword .fault o = s.gword .fault o) : t.safe = s.safe := by
  unfold State.safe State.gflag State.gfld
  rw [if_neg (by decide), if_neg (by decide)]
  rw [show t.gword F.FAULT_SAFE_STAT_SAFE.blk F.FAULT_SAFE_STAT_SAFE.off = _ from h _]
  rfl

theorem tk_only {L : List StPart} {s t : State} (h : State.onlyIn L s t) (ht : StPart.twin ∉ L) (hf : StPart.fault ∉ L) (hk : StPart.tick ∉ L) :
    TwKept [] s t ∧ t.twin = s.twin :=
  ⟨⟨fun g hb _ _ => State.onlyIn_gcur h g (by rw [hb]; exact ht), fun o => by unfold State.guse; rw [State.onlyIn_rf h .twin ht],
    safe_word (fun o => State.onlyIn_gword h .fault o hf), h.2.2.2 .tick hk⟩, (h.2.2.2 .twin ht).1⟩

theorem tk_marked {P : CB → ℕ → Prop} {s t : State} (h : Marked P s t) (hp : ∀ b o, (b = .twin ∧ o ≠ 0x40) ∨ b = .fault → P b o) : TwKept [] s t :=
  ⟨fun g hb ho _ => h.gcur g (hp _ _ (.inl ⟨hb, ho⟩)), fun o => h.use _ _, safe_word (fun o => h.word _ _ (hp _ _ (.inr rfl))), h.tick⟩

theorem tk_gput (s : State) (f : GF) (v : ℕ) (hb : f.blk = .twin) (h32 : f.lsb + f.w ≤ 32) : TwKept [f] s (s.gput f v) :=
  ⟨fun g _ _ hd => gcur_gput_ne _ _ _ _ h32 (.inr (hd f (List.mem_singleton.2 rfl))),
    fun o => (mk_gput (P := fun _ _ => False) s f v (fun _ h => h.elim)).use _ o,
    safe_word (fun o => gword_gput_ne _ _ _ _ _ (.inl (by rw [hb]; decide))), rfl⟩

theorem tk_gevt (s : State) (f : GF) (hb : f.blk = .twin) (ho : f.off = 0x40) : TwKept [] s (s.gevt f) ∧ (s.gevt f).twin = s.twin := by
  have h := mk_gevt (P := fun b o => (b = .twin ∧ o ≠ 0x40) ∨ b = .fault) s f (fun o h => by rcases h with h | h; exact absurd h.1 (by decide); exact absurd h (by decide))
    (fun o h => by
      rcases h with h | h
      · rw [ho]; exact Ne.symm h.2
      · rw [hb] at h; exact absurd h (by decide))
  exact ⟨tk_marked h (fun _ _ h => h), h.twin⟩

theorem tk_updTwin (s : State) (f : TwinSt → TwinSt) : TwKept [] s (s.updTwin f) := ⟨fun _ _ _ _ => rfl, fun _ => rfl, rfl, rfl⟩
theorem tk_emit (s : State) (o : Output) : TwKept [] s (s.emit o) := ⟨fun _ _ _ _ => rfl, fun _ => rfl, rfl, rfl⟩

theorem tk_fold {α : Type} {g : State → α → State} (hg : ∀ y a, TwKept [] y (g y a) ∧ (g y a).twin = y.twin) :
    ∀ (l : List α) (x : State), TwKept [] x (l.foldl g x) ∧ (l.foldl g x).twin = x.twin
  | [], _ => ⟨TwKept.refl _, rfl⟩
  | a :: l, x => by
    obtain ⟨h1, h2⟩ := tk_fold hg l (g x a)
    exact ⟨(hg x a).1.trans h1, h2.trans (hg x a).2⟩

theorem gput_twin (s : State) (f : GF) (v : ℕ) : (s.gput f v).twin = s.twin := rfl

theorem twst_lt (s : State) : s.twst < 8 := Nat.mod_lt _ (by decide)

theorem setPath_facts (s : State) (b : Bool) (v : ℕ) (hv : v < 4) : ∃ u, s.setPath b v = u ∧ TwKept [if b then F.TWIN_STAT_PATH_B else F.TWIN_STAT_PATH_A] s u ∧
    u.gcur (if b then F.TWIN_STAT_PATH_B else F.TWIN_STAT_PATH_A) = v ∧ u.twin = s.twin := by
  refine ⟨_, rfl, ?_⟩
  unfold State.setPath
  obtain ⟨f, hf⟩ : ∃ f, (if b then F.TWIN_STAT_PATH_B else F.TWIN_STAT_PATH_A) = f := ⟨_, rfl⟩
  have h : f.blk = .twin ∧ f.off = 0x10 ∧ f.lsb + f.w ≤ 32 ∧ f.w = 2 := by rw [← hf]; cases b <;> decide
  simp only [hf]
  split
  · rename_i e
    exact ⟨(TwKept.refl s).mono (fun _ h => absurd h List.not_mem_nil), e, rfl⟩
  · obtain ⟨h1, h2⟩ := tk_gevt (s.gput f v) F.TWIN_EVT_PATH rfl rfl
    refine ⟨(tk_gput s f v h.1 h.2.2.1).trans h1, ?_, h2⟩
    rw [gcur_gevt_off _ _ _ (by rw [h.1]; decide) (.inr (by rw [h.2.1]; decide)), gcur_gput_lt _ _ _ h.2.2.1 (by rw [h.2.2.2]; exact hv)]

theorem pathsUnheard_facts (s : State) : ∃ u, s.pathsUnheard = u ∧ TwKept [F.TWIN_STAT_PATH_A, F.TWIN_STAT_PATH_B] s u ∧ u.gcur F.TWIN_STAT_PATH_A = 0 ∧
    u.gcur F.TWIN_STAT_PATH_B = 0 ∧ u.twin = { s.twin with lastA := none, lastB := none, declared := false } := by
  obtain ⟨a, ha, a1, a2, a3⟩ := setPath_facts s false 0 (by decide)
  obtain ⟨b, hb, b1, b2, b3⟩ := setPath_facts a true 0 (by decide)
  refine ⟨_, rfl, ?_⟩
  unfold State.pathsUnheard
  rw [ha, hb]
  refine ⟨(a1.trans b1).trans (tk_updTwin b _), ?_, b2, ?_⟩
  · exact (b1.reg F.TWIN_STAT_PATH_A rfl (by decide) (by decide)).trans a2
  · show { b.twin with lastA := none, lastB := none, declared := false } = _
    rw [b3, a3]

theorem bookSt_facts (s : State) (org : Origin) (t : ℕ) (a b : Word) : TwKept [] s (s.bookSt org t a b) ∧ (s.bookSt org t a b).twin = s.twin :=
  tk_only (in_bookSt (L := [.hostif, .book, .tally, .free, .out]) org t a b rfl (State.onlyIn_refl _ _)) (by decide) (by decide) (by decide)

theorem endCmd_facts (s : State) (slot r d : ℕ) : TwKept [] s (s.endCmd slot r d) ∧ (s.endCmd slot r d).twin = s.twin :=
  tk_only (in_endCmd (L := [.hostif, .cmdq, .out]) slot r d rfl (State.onlyIn_refl _ _)) (by decide) (by decide) (by decide)

theorem updTally_facts (s : State) (f : TallyRec → TallyRec) : TwKept [] s (s.updTally f) ∧ (s.updTally f).twin = s.twin :=
  tk_only (in_updTally (L := [.tally]) f rfl (State.onlyIn_refl _ _)) (by decide) (by decide) (by decide)

theorem endDrill_facts (s : State) (r : ℕ) : TwKept [] s (s.endDrill r) ∧ (s.endDrill r).twin = { s.twin with drill := none } := by
  unfold State.endDrill
  split
  · rename_i h
    exact ⟨TwKept.refl s, by rw [← h]⟩
  · rename_i d h
    dsimp only
    split
    · obtain ⟨h1, h2⟩ := updTally_facts (s.updTwin (fun t => { t with drill := none })) (fun r => { r with drills := State.satCount r.drills })
      obtain ⟨h3, h4⟩ := endCmd_facts ((s.updTwin (fun t => { t with drill := none })).updTally (fun r => { r with drills := State.satCount r.drills })) d.slot r 0
      exact ⟨((tk_updTwin s _).trans h1).trans h3, h4.trans h2⟩
    · obtain ⟨h3, h4⟩ := endCmd_facts (s.updTwin (fun t => { t with drill := none })) d.slot r 0
      exact ⟨(tk_updTwin s _).trans h3, h4⟩

/-- A change of the twin state. -/
theorem twinTo_facts (s : State) (st : ℕ) (org : Origin) (hs : st < 8) : ∃ u, s.twinTo st org = u ∧ TwKept [F.TWIN_STAT_STATE, F.TWIN_STAT_PEER_LOST] s u ∧
    u.twst = st ∧ (s.twst = TW_ACTIVE → st ≠ TW_ACTIVE → u.gcur F.TWIN_STAT_PEER_LOST = 0) ∧ u.twin = { s.twin with drill := u.twin.drill } := by
  refine ⟨_, rfl, ?_⟩
  unfold State.twinTo
  by_cases h : s.twst = st
  · rw [if_pos h]
    exact ⟨(TwKept.refl s).mono (fun _ h => absurd h List.not_mem_nil), h, fun g g2 => absurd (h.symm.trans g) g2, rfl⟩
  · rw [if_neg h]
    extract_lets old leave s1 s2 s3
    have a1 : TwKept [F.TWIN_STAT_STATE] s s1 := tk_gput s F.TWIN_STAT_STATE st rfl (by decide)
    have a2 : s1.twst = st := gcur_gput_lt s F.TWIN_STAT_STATE st (by decide) hs
    have a3 : s1.twin = s.twin := gput_twin _ _ _
    have b : TwKept [F.TWIN_STAT_PEER_LOST] s1 s2 ∧ s2.twst = st ∧ s2.twin = s.twin ∧ (leave = true → s2.gcur F.TWIN_STAT_PEER_LOST = 0) := by
      unfold s2
      split
      · exact ⟨tk_gput s1 F.TWIN_STAT_PEER_LOST 0 rfl (by decide), (gcur_gput_ne s1 F.TWIN_STAT_PEER_LOST F.TWIN_STAT_STATE 0 (by decide) (by decide)).trans a2, (gput_twin _ _ _).trans a3,
          fun _ => gcur_gput_lt s1 F.TWIN_STAT_PEER_LOST 0 (by decide) (by decide)⟩
      · exact ⟨(TwKept.refl s1).mono (fun _ h => absurd h List.not_mem_nil), a2, a3, fun h => absurd h ‹_›⟩
    obtain ⟨b1, b2, b3, b4⟩ := b
    clear_value s2
    obtain ⟨c1, c2⟩ := tk_gevt s2 F.TWIN_EVT_STATE rfl rfl
    obtain ⟨d1, d2⟩ := bookSt_facts (s2.gevt F.TWIN_EVT_STATE) org (gReg .twin TWIN_STAT) old s2.twinStatWord
    have e1 : TwKept [] s2 s3 := c1.trans d1
    have e2 : s3.twin = s.twin := d2.trans (c2.trans b3)
    clear_value s3
    have fin : ∀ u, TwKept [] s3 u → TwKept [F.TWIN_STAT_STATE, F.TWIN_STAT_PEER_LOST] s u ∧ u.twst = st ∧
        (s.twst = TW_ACTIVE → st ≠ TW_ACTIVE → u.gcur F.TWIN_STAT_PEER_LOST = 0) := fun u hu => by
      have k := e1.trans hu
      refine ⟨(a1.trans b1).trans k, (k.twst (by decide)).trans b2, fun g _ => (k.reg F.TWIN_STAT_PEER_LOST rfl (by decide) (by decide)).trans (b4 ?_)⟩
      show (s.twst == TW_ACTIVE) = true
      rw [g]; rfl
    split
    · obtain ⟨f1, f2⟩ := endDrill_facts s3 RES_STATE
      obtain ⟨g1, g2, g3⟩ := fin _ f1
      refine ⟨g1, g2, g3, ?_⟩
      rw [f2, e2]
    · obtain ⟨g1, g2, g3⟩ := fin _ (TwKept.refl s3)
      exact ⟨g1, g2, g3, by rw [e2]⟩

/-- A change of the drive right. -/
theorem setDrive_facts (s : State) (b : Bool) : ∃ u, s.setDrive b = u ∧ TwKept [F.TWIN_STAT_DRIVE] s u ∧ u.gcur F.TWIN_STAT_DRIVE = b2n b ∧ u.twin = s.twin := by
  have h : ∃ a, (if s.gflag F.TWIN_STAT_DRIVE = b then s else (s.gput F.TWIN_STAT_DRIVE (b2n b)).gevt F.TWIN_EVT_DRIVE) = a ∧
      TwKept [F.TWIN_STAT_DRIVE] s a ∧ a.gcur F.TWIN_STAT_DRIVE = b2n b ∧ a.twin = s.twin := by
    refine ⟨_, rfl, ?_⟩
    split
    · rename_i h
      refine ⟨(TwKept.refl s).mono (fun _ h => absurd h List.not_mem_nil), ?_, rfl⟩
      have hl : s.gcur F.TWIN_STAT_DRIVE < 2 := Nat.mod_lt _ (by decide)
      rw [← h]
      show s.gcur F.TWIN_STAT_DRIVE = b2n (s.gcur F.TWIN_STAT_DRIVE == 1)
      generalize s.gcur F.TWIN_STAT_DRIVE = n at hl
      interval_cases n <;> rfl
    · obtain ⟨c1, c2⟩ := tk_gevt (s.gput F.TWIN_STAT_DRIVE (b2n b)) F.TWIN_EVT_DRIVE rfl rfl
      refine ⟨(tk_gput s _ _ rfl (by decide)).trans c1, ?_, c2.trans (gput_twin _ _ _)⟩
      rw [gcur_gevt_off _ _ _ (by decide) (.inr (by decide)), gcur_gput_lt _ _ _ (by decide) (by cases b <;> decide)]
  obtain ⟨a, ha, a1, a2, a3⟩ := h
  obtain ⟨f1, f2⟩ := tk_fold (g := State.driveCh) (fun y n => tk_only (in_driveCh (L := [.ch]) n rfl (State.onlyIn_refl _ _)) (by decide) (by decide) (by decide)) State.allChans a
  refine ⟨_, rfl, ?_⟩
  unfold State.setDrive
  rw [ha]
  exact ⟨a1.trans f1, (f1.reg _ rfl (by decide) (by decide)).trans a2, f2.trans a3⟩

/-- The epoch raised (R257). -/
theorem raiseEpoch_facts (s : State) : ∃ u, s.raiseEpoch = u ∧ TwKept [F.TWIN_EPOCH_EPOCH] s u ∧
    u.gcur F.TWIN_EPOCH_EPOCH = min 0xFFFFFF (max (s.gcur F.TWIN_EPOCH_EPOCH) s.twin.eSeen + 1) ∧ u.twin = s.twin := by
  refine ⟨_, rfl, ?_⟩
  unfold State.raiseEpoch
  extract_lets e n
  obtain ⟨w1, w2⟩ := tk_only (in_wearOn (L := [.tally]) (s₀ := s) 6 rfl (State.onlyIn_refl _ _)) (by decide) (by decide) (by decide)
  obtain ⟨h1, h2⟩ := bookSt_facts ((s.wearOn 6).gput F.TWIN_EPOCH_EPOCH n) twinOrg (gReg .twin TWIN_EPOCH) (BitVec.ofNat 32 e) (BitVec.ofNat 32 n)
  refine ⟨(w1.trans (tk_gput _ F.TWIN_EPOCH_EPOCH n rfl (by decide))).trans h1, ?_, h2.trans w2⟩
  rw [h1.reg F.TWIN_EPOCH_EPOCH rfl (by decide) (by decide), gcur_gput_lt _ _ _ (by decide)]
  show min 0xFFFFFF _ < 2 ^ 24
  omega

theorem rackWait_facts (s : State) : ∃ u, s.rackWait = u ∧ TwKept [F.TWIN_STAT_RACK_WAIT] s u ∧ u.gcur F.TWIN_STAT_RACK_WAIT = 1 ∧
    u.twin = { s.twin with waitAt := some (s.twin.waitAt.getD s.tick) } := by
  obtain ⟨a, ha, a1, a2, a3⟩ : ∃ a, (s.gput F.TWIN_STAT_RACK_WAIT 1).gevt F.TWIN_EVT_RACK_WAIT = a ∧ TwKept [F.TWIN_STAT_RACK_WAIT] s a ∧
      a.gcur F.TWIN_STAT_RACK_WAIT = 1 ∧ a.twin = s.twin := by
    obtain ⟨h1, h2⟩ := tk_gevt (s.gput F.TWIN_STAT_RACK_WAIT 1) F.TWIN_EVT_RACK_WAIT rfl rfl
    exact ⟨_, rfl, (tk_gput s F.TWIN_STAT_RACK_WAIT 1 rfl (by decide)).trans h1,
      (gcur_gevt_off (s.gput F.TWIN_STAT_RACK_WAIT 1) F.TWIN_EVT_RACK_WAIT F.TWIN_STAT_RACK_WAIT (by decide) (.inr (by decide))).trans
        (gcur_gput_lt s F.TWIN_STAT_RACK_WAIT 1 (by decide) (by decide)), h2.trans (gput_twin _ _ _)⟩
  refine ⟨a.updTwin (fun t => { t with waitAt := some (t.waitAt.getD s.tick) }), ?_, a1.trans (tk_updTwin _ _), a2, ?_⟩
  · unfold State.rackWait
    rw [ha]
  · show { a.twin with waitAt := some (a.twin.waitAt.getD s.tick) } = _
    rw [a3]

end Sys2Proof.Machine
end

