-- ==== Sys2Proof/WellFormed.lean ====
section
/-! DEFINITION. Commands whose operands lie in the ranges that the manual gives them. A command outside them has a meaning as well; what
stands here is what a sender keeps to. -/
namespace Sys2Proof

/-- An aligned offset of WIN_REG (R7), and one of WIN_MEM (R378, R379). -/
def regAddr (a : Nat) : Bool := a % 4 == 0 && decide (a < 0x8000000)
def memAddr (a : Nat) : Bool := a % 4 == 0 && decide (a < 0x20000000)

/-- A stamp point within a tick of 5 ns (R280). -/
def psOk (ps : Nat) : Bool := decide (ps < 5000)

/-- A commit point from the start of its tick, which lies before the plane: within the 600 ns of R195 (R180). -/
def commitPsOk (ps : Nat) : Bool := decide (ps < 600000)

/-- The part of a vintage in a VINT frame: 8 to 2,040 bytes (R281). -/
def partOk (b : Bytes) : Bool := decide (8 ≤ b.length) && decide (b.length ≤ 2040)

/-- An entry of the client table (R205). -/
def clientIx (i : Nat) : Bool := decide (i < 262144)

/-- A DRAM image, or an image list of a DEVICE load: the common image and four others (R389). -/
def loadList (l : Option (List (Option Bytes))) : Bool := match l with | some xs => xs.length == 5 | none => true

/-- Whether a command's operands are in range. -/
def Instr.wf : Instr → Bool
  | .registerWrite _ a _ => regAddr a
  | .multiwordReadLatch _ a => regAddr a
  | .winMemWrite _ a _ => memAddr a
  | .refinEdge _ n ps => decide (n.val < 8) && psOk ps
  | .freqRecordBoundary _ n _ _ => decide (n.val < 8)
  | .snapCaptureStart _ ps => psOk ps
  | .egressCommit _ _ ps _ => commitPsOk ps
  | .heartbeatSend p q => psOk p && psOk q
  | .hbFrameRx _ _ ps => psOk ps
  | .twinTimeFrameSend _ ps => psOk ps
  | .twinTimeFrameRx _ _ ps => psOk ps
  | .benchHelloSend _ _ ps => psOk ps
  | .benchHelloRx _ _ _ ps => psOk ps
  | .benchTimeSend _ p q => psOk p && psOk q
  | .vintFrameRx _ f => partOk f.part
  | .benchCalDone ab ba => ab.length == 1024 && ba.length == 1024
  | .benchTimeRx _ _ _ ps r => psOk ps && decide (r.length ≤ 8)
  | .unicastDueMessage _ i _ => clientIx i
  | .grantExpiry _ i => clientIx i
  | .cmdImageLoadDevice _ l => loadList l
  | .linkAnComplete _ _ peer _ _ => decide (peer < 128)
  | _ => true

end Sys2Proof
end

