-- ==== Sys2Proof/Tests/Slice0.lean ====
section
/-! SUPPORT. Tests: the checks of well-formedness refuse what they must; the hash and the curve give published or hand-made values;
and a concrete state meets what each statement asks, clause by clause, at the limits of its ranges. The expected values come from the
spec's rules, from FIPS 180-4 (the digests of "abc") and from the curve's own arithmetic. -/
namespace Sys2Proof.Tests
open Sys2Proof Sys2Proof.Machine
set_option Elab.async false

/-! ### Well-formedness: each check refuses a term, and takes the ones at its limits -/

/-- An image list of a DEVICE load with `n` places. -/
def images (n : Nat) : Option (List (Option Bytes)) := some (List.replicate n none)

theorem test_wf_refuses : ∀ i ∈ [Instr.registerWrite .mspi 2 0, .registerWrite .mspi 0x8000000 0, .multiwordReadLatch .mspi 6, .multiwordReadLatch .mspi 0x8000000,
    .winMemWrite .mspi 3 0, .winMemWrite .mspi 0x20000000 0, .refinEdge 0 8 0, .refinEdge 0 7 5000, .freqRecordBoundary 0 8 0 0, .snapCaptureStart 0 5000,
    .egressCommit 0 0 600000 0, .heartbeatSend 5000 0, .heartbeatSend 0 5000, .hbFrameRx 0 [] 5000, .twinTimeFrameSend 0 5000, .twinTimeFrameRx 0 [] 5000,
    .benchHelloSend 0 0 5000, .benchHelloRx 0 0 [] 5000, .benchTimeSend 0 5000 0, .benchTimeSend 0 0 5000, .benchTimeRx 0 0 [] 5000 [],
    .benchTimeRx 0 0 [] 0 (List.replicate 9 0), .unicastDueMessage 0 262144 true, .grantExpiry 0 262144, .cmdImageLoadDevice 0 (images 4),
    .cmdImageLoadDevice 0 (images 6), .linkAnComplete 0 0 128 false false, .vintFrameRx 0 ⟨true, 0, 0, 0, 0, 0, List.replicate 7 0, none⟩,
    .benchCalDone [] [], .benchCalDone (List.replicate 1024 0) (List.replicate 1023 0)], i.wf = false := by decide +kernel

theorem test_wf_takes : ∀ i ∈ [Instr.registerWrite .mspi 0x7FFFFFC 0, .multiwordReadLatch .mspi 0, .winMemWrite .mspi 0x1FFFFFFC 0, .refinEdge 0 7 4999,
    .freqRecordBoundary 0 7 0 0, .snapCaptureStart 0 4999, .egressCommit 0 0 599999 0, .heartbeatSend 4999 4999, .hbFrameRx 0 [] 4999, .twinTimeFrameSend 0 4999,
    .twinTimeFrameRx 0 [] 4999, .benchHelloSend 0 0 4999, .benchHelloRx 0 0 [] 4999, .benchTimeSend 0 4999 4999, .benchTimeRx 0 0 [] 4999 (List.replicate 8 0),
    .unicastDueMessage 0 262143 true, .grantExpiry 0 262143, .cmdImageLoadDevice 0 (images 5), .cmdImageLoadDevice 0 none,
    .linkAnComplete 0 0 127 false false, .vintFrameRx 0 ⟨true, 0, 0, 0, 0, 0, List.replicate 2040 0, none⟩,
    .benchCalDone (List.replicate 1024 0) (List.replicate 1024 0)], i.wf = true := by decide +kernel

/-! ### Small states -/

/-- Channel 0 with every lane and part, after channel reset (R310, R446). -/
def full : Channel := Channel.reset 0 ⟨0xFFFF, 0xFFFF, []⟩ false false 0

/-- A started-up device whose channel 0 runs (R326, R440). -/
def base : State := (State.reset.setStage BOOT_DONE).gput (F.IMAGE_CH_STAT_STATE 0) CH_RUN

/-- That device with `f` done to its channel 0. -/
def on (f : Channel → Channel) : State := { base with ch := base.ch.set 0 (f full) }

/-- The value of a field, and where it is shadowed its value in use. -/
def kset (f : KF) (v : Nat) (c : Channel) : Channel :=
  if f.sh then c.setRf f.blk { c.rf f.blk with use := smPut (kbRst f.blk f.off) (c.rf f.blk).use f.off (putField (c.useWord f.blk f.off) f.lsb f.w v) } else c.put f v

def gset (f : GF) (v : Nat) (s : State) : State :=
  if f.sh then s.setRf f.blk { s.rf f.blk with use := smPut (gbRst f.blk f.off) (s.rf f.blk).use f.off (putField (s.guse f.blk f.off) f.lsb f.w v) } else s.gput f v

theorem live_on (f : Channel → Channel) : (on f).live 0 := ⟨rfl, by show base.running 0 = true; decide⟩
theorem open_on (f : Channel → Channel) : (on f).open .mspi :=
  ⟨rfl, by show base.pathUp .mspi = true; decide, by show base.safe = false; decide⟩
theorem rated_on (f : Channel → Channel) : (on f).rated := by
  intro r
  refine ⟨?_, by intro e h; cases h⟩
  revert r
  show ∀ r : Fin 5, getField (base.guse .clkgen (CLKGEN_ROOT_CFG r.val)) 0 2 ≠ 3
  decide

/-- What a statement asks of a running channel is met: the device with `f` done to its channel 0 takes commands, its MSPI path is open, its clock
rates are legal and it is every command's turn (the premises that most statements share), and the channel has `p`. -/
def Meets (f : Channel → Channel) (p : Channel → Prop) : Prop :=
  (on f).live 0 ∧ (on f).open .mspi ∧ (on f).rated ∧ (∀ i, (on f).turn i) ∧ p (on f).ch[0]

theorem meets {f : Channel → Channel} {p : Channel → Prop} (h : p (on f).ch[0]) : Meets f p :=
  ⟨live_on f, open_on f, rated_on f, fun i => turn_of_empty i rfl rfl, h⟩

/-! ### Each statement's hypotheses are met by a state -/

theorem test_hyp_EveryStepKeeps : let s : State := { base with pending := [.counterAdvance] }
    Memory.wf s.host.htx = true ∧ s.book.chained ∧ ∃ t, step s = .next t :=
  ⟨by decide, ⟨by decide, trivial, by intro e h; cases h⟩, _, rfl⟩

theorem test_hyp_LegalClockRatesAreKept : base.rated ∧ (∀ h ∈ Instr.counterAdvance :: base.held, mayRate h = false) ∧ mayRate (.clkgenCommit .mspi 0) = true :=
  ⟨rated_on id, by decide, by decide⟩

theorem test_hyp_QueuesRunThrough : let s : State := { base with pending := [.counterAdvance, .pinReset] }
    s.rated ∧ ∀ i ∈ s.held ++ s.pending, mayRate i = false := ⟨rated_on id, by decide⟩

/-- In a tick the miss timer of lane 3 waits for the timer of lane 2, which the queue holds. -/
theorem test_hyp_CommandsOfATickActInOrder :
    (let s : State := { base with held := [.refCommit .mspi 0 0], pending := [.wtrExpiry 0 2] }
     s.rated ∧ s.running 0 = true ∧ s.waits (.laneMissTimerExpiry 0 3) = true ∧ s.precedes (.wtrExpiry 0 2) (.laneMissTimerExpiry 0 3) = true ∧ Instr.wtrExpiry 0 2 ∈ s.window ∧
       (∀ h ∈ s.held, mayRate h = false)) ∧ base.turn (.laneMissTimerExpiry 0 3) ∧ mayRate (.laneMissTimerExpiry 0 3) = false ∧ base.held = [] ∧ base.pending = [] :=
  ⟨⟨rated_on id, by decide +kernel, by decide +kernel, by decide +kernel, by decide +kernel, by decide⟩, turn_of_empty _ rfl rfl, by decide, rfl, rfl⟩

theorem test_hyp_ScanModeHalts : let s : State := { base with pwr := { base.pwr with scan := true } }
    s.scanning = true ∧ actsInScan .counterAdvance = false := by decide

theorem test_hyp_RegisterWrite : Meets id (fun ch => (REF_EVT % 4 = 0 ∧ REF_EVT < 0x100000) ∧ (∃ g f, findReg (kbRegs .ref) REF_EVT = some g ∧ g.writable = true ∧
      f ∈ g.fields ∧ f.acc = .w1c) ∧ multiIn (kbMulti .ref) REF_EVT = none ∧ ch.hasPart .ref REF_EVT = true ∧ ch.ignores .ref REF_EVT 3 = false ∧
      (∀ (x : Channel) (w : Writer), (x.action w .ref REF_EVT 3).2 = x)) :=
  meets ⟨by decide, ⟨⟨0x18, [], _⟩, ⟨0, 16, .w1c, 0, .any⟩, rfl, rfl, by decide, rfl⟩, by decide, by decide, by decide, fun _ _ => rfl⟩

theorem test_hyp_CommonRegisterWrite : base.open .mspi ∧ base.rated ∧ (∀ i, base.turn i) ∧ (∃ g f, findReg (gbRegs .clkgen) CLKGEN_MOSC_CFG = some g ∧ g.writable = true ∧ f ∈ g.fields ∧ f.acc = .rwl) ∧
    multiIn (gbMulti .clkgen) CLKGEN_MOSC_CFG = none ∧ base.gIgnores .clkgen CLKGEN_MOSC_CFG = false ∧ (∀ x : State, x.gStored .clkgen CLKGEN_MOSC_CFG 0 = x) ∧
    (∀ (x : State) (o : Origin), (x.gAction o .clkgen CLKGEN_MOSC_CFG 0).2 = x) :=
  ⟨open_on id, rated_on id, fun i => turn_of_empty i rfl rfl, ⟨⟨0x8, [], _⟩, ⟨29, 3, .rwl, 0, .any⟩, rfl, rfl, by decide, rfl⟩, by decide, by decide, fun _ => rfl, fun _ _ => rfl⟩

/-- The device in the safe state. -/
def shut (s : State) : State := s.gput F.FAULT_SAFE_STAT_SAFE 1

theorem test_hyp_WritesThatReachNoRegister : State.reset.pathUp .mspi = false ∧ base.pathUp .mspi = true ∧ base.safe = false ∧ base.route 0x7FFFFFC = .reserved ∧
    base.route 0x5000000 = .reserved ∧ base.route (winReg 1 .ref 0) = .absent 1 ∧ base.route 0x4FFFFFC = .absent 3 ∧ (shut base).safe = true ∧
    State.safeWritable ((shut base).route (winReg 0 .ref 0)) = false ∧ (shut base).pathUp .mspi = true := by decide

theorem test_hyp_Offsets : base.running 0 = true ∧ base.running 1 = false ∧ (findReg (kbRegs .chctl) CHCTL_B_CTL).isSome = true ∧
    (findReg (gbRegs .image) IMAGE_STAT).isSome = true := by decide

theorem test_hyp_Reads : Meets id (fun ch => multiIn (kbMulti .dpll) DPLL_CTL = none ∧ multiIn (kbMulti .dpll) (DPLL_TIME 0) = some (DPLL_TIME 0, 6) ∧
    multiIn (kbMulti .dpll) (DPLL_TIME 5) = some (DPLL_TIME 0, 6) ∧ (findReg (kbRegs .dpll) (DPLL_TIME 5)).isSome = true ∧ ch.hasPart .dpll (DPLL_TIME 5) = true ∧
    base.running 1 = false) := meets (by decide)

theorem test_hyp_MultiWordWrites : Meets id (fun ch => (ch.rf .dpll).held = [] ∧ (findReg (kbRegs .dpll) (DPLL_STEP_VAL 3)).isSome = true) := meets (by decide)

theorem test_hyp_Lock : Meets id (fun ch => lockOff .gnss = some GNSS_CTL ∧ ch.hasPart .gnss GNSS_CTL = true ∧ bit 0x20000000#32 29 = true ∧ bit 0x20000000#32 31 = false ∧
    gbHasLock .twin = true ∧ bit 0x20000000#32 28 = bit 0x20000000#32 27) ∧ Meets (fun c => c.put ⟨.ref, REF_CTL, 29, 1, false⟩ 1) (fun ch => ch.locked .ref = true ∧ ch.wasLocked .ref = true ∧ ch.wasLocked .dpll = false ∧
      (findReg (kbRegs .ref) (REF_LANE_NOM 0)).isSome = true) ∧ base.gWasLocked .twin = false ∧ (base.gsetWord .twin 0 0x20000000#32).gWasLocked .twin = true :=
  ⟨meets (by decide), meets (by decide +kernel), by decide, by decide⟩

/-- COMMIT alone. -/
def COMMIT : Word := 0x80000000#32
/-- What COMMIT of a block copies. -/
def tri (ch : Channel) (b : KB) (ctl : Nat) : Channel := (ch.storeWord ⟨.mspi, false⟩ b ctl COMMIT).copies b ctl

theorem test_hyp_Commit : bit COMMIT 31 = true ∧
    Meets id (fun ch => (tri ch .ref REF_CTL).refCommitOk = true ∧ (tri ch .chctl CHCTL_B_CTL).cur F.CHCTL_ENS_CFG_HOPS ≠ 0 ∧ ch.hasPart .gnss GNSS_CTL = true ∧
      (tri ch .gnss GNSS_CTL).gnssCommitOk = false ∧ (tri ch .dpll DPLL_CTL).dpllCommitOk = true) ∧
    Meets (fun c => ((c.put (F.SYN_SYN_CFG_EN 0) 1).put (F.SYN_SYN_CFG_FOLLOW 0) 0).put (F.SYN_OUT_CFG_EN 0) 1) (fun ch => (tri ch .gnss GNSS_CTL).gnssCommitOk = true) ∧
    Meets (fun c => ((((c.put F.DPLL_BW_A_BW_ACQ 44915).put F.DPLL_BW_A_BW_LOCK 44915).put F.DPLL_A_SLEW_SLEW 1000000).put F.DPLL_FWIN_FWIN 1024).put F.DPLL_B_CFG_BW_B 44915)
      (fun ch => (tri ch .dpll DPLL_CTL).dpllCommitOk = true) ∧
    Meets (fun c => c.put F.DPLL_BW_A_BW_ACQ 44916) (fun ch => (tri ch .dpll DPLL_CTL).dpllCommitOk = false) ∧
    Meets (fun c => c.put F.DPLL_FWIN_FWIN 0) (fun ch => (tri ch .dpll DPLL_CTL).dpllCommitOk = false) ∧
    Meets (fun c => c.put F.CHCTL_ENS_CFG_HOPS 0) (fun ch => (tri ch .chctl CHCTL_B_CTL).cur F.CHCTL_ENS_CFG_HOPS = 0) ∧
    Meets (fun c => (c.put (F.REF_LANE_CFG_KIND 7) 2).put (F.REF_LANE_NOM_NOM_HZ 7) 999) (fun ch => (tri ch .ref REF_CTL).refCommitOk = false) :=
  ⟨by decide, meets (by decide +kernel), meets (by decide +kernel), meets (by decide +kernel), meets (by decide +kernel), meets (by decide +kernel), meets (by decide +kernel), meets (by decide +kernel)⟩

theorem test_hyp_CommitsLater : bit COMMIT 31 = true ∧
    Meets id (fun ch => ch.hasPart .sealb SEAL_CTL = true ∧ (tri ch .sched SCHED_CTL).schedCommitOk = true ∧ (tri ch .sealb SEAL_CTL).sealCommitOk = true ∧
      (tri ch .port PORT_CTL).portCommitOk = true ∧ ch.syn.stage = none ∧ (tri ch .syn SYN_CTL).synCommitOk = true) :=
  ⟨by decide, meets (by decide +kernel)⟩

theorem test_hyp_CommitsLater_fail :
    Meets (fun c => c.put (F.SCHED_Q_CFG_QLIM 1 63) 4097) (fun ch => (tri ch .sched SCHED_CTL).schedCommitOk = false) ∧
    Meets (fun c => c.put F.SEAL_SVC_CFG_MAX_CK 9) (fun ch => (tri ch .sealb SEAL_CTL).sealCommitOk = false) ∧
    Meets (fun c => c.put (F.PORT_P_CFG_MAXF 1) 63) (fun ch => (tri ch .port PORT_CTL).portCommitOk = false) ∧
    Meets (fun c => c.put (F.SYN_SYN_FDEN_DEN 0) 0) (fun ch => ch.syn.stage = none ∧ (tri ch .syn SYN_CTL).synCommitOk = false) ∧
    Meets (fun c => { c with syn := { c.syn with stage := some ⟨[], 0, true, false, false⟩ } }) (fun ch => ch.syn.stage.isSome = true) :=
  ⟨meets (by decide +kernel), meets (by decide +kernel), meets (by decide +kernel), meets (by decide +kernel), meets (by decide +kernel)⟩

/-- The CTL word of TWIN, with COMMIT and no command. -/
theorem test_hyp_CommonCommits : base.open .mspi ∧ base.rated ∧ (∀ i, base.turn i) ∧ bit COMMIT 31 = true ∧ bit COMMIT 28 = bit COMMIT 27 ∧
    (let tri (s : State) (b : CB) : State := (s.gStore false b 0 COMMIT).copies b
     let legal (s : State) : Prop := ∀ r : Fin 5, getField ((tri s .clkgen).gword .clkgen (CLKGEN_ROOT_CFG r.val)) 0 2 ≠ 3
     (let x := tri (base.gput F.TWIN_CFG_VINT_PER 60) .twin
      1 ≤ x.gcur F.TWIN_CFG_VINT_PER ∧ x.gcur F.TWIN_CFG_VINT_PER ≤ 60 ∧ x.gcur F.TWIN_CFG_BOOT_WAIT ≠ 0) ∧
     (tri (base.gput F.TWIN_CFG_VINT_PER 61) .twin).gcur F.TWIN_CFG_VINT_PER = 61 ∧ (tri base .bench).gcur F.BENCH_CFG_HOLD ≠ 0 ∧
     (tri (base.gput F.BENCH_CFG_HOLD 0) .bench).gcur F.BENCH_CFG_HOLD = 0 ∧ (tri base .clkgen).gcur F.CLKGEN_MOSC_CFG_EXPECT = 0 ∧ legal base ∧
     (tri (base.gput F.CLKGEN_MOSC_CFG_EXPECT 5) .clkgen).gcur F.CLKGEN_MOSC_CFG_EXPECT ≠ (tri base .clkgen).gcur F.CLKGEN_MOSC_STAT_FREQ) :=
  ⟨open_on id, rated_on id, fun i => turn_of_empty i rfl rfl, by decide, by decide, by decide +kernel⟩

/-- Settings of CLKGEN that R428 rules out wait for a commit. -/
def rates : State := base.gsetWord .clkgen (CLKGEN_ROOT_CFG 0) 3#32

theorem wearCheck_same (old s : State) (h : s.tally.cur.wear = old.tally.cur.wear) : State.wearCheck old s = s := by
  unfold State.wearCheck
  generalize List.finRange 8 = l
  induction l with
  | nil => rfl
  | cons k l ih => rw [List.foldl_cons, if_neg (by rw [h]; omega)]; exact ih

theorem rates_clocked : (rates.perform (.clkgenCommit .mspi COMMIT)).clocked = true := by
  rw [perform_turn (turn_of_empty _ rfl rfl), act_live _ (by rfl)]
  unfold State.follow
  rw [wearCheck_same]
  · decide +kernel
  · decide +kernel

theorem test_hyp_CommonCommits_stop : rates.open .mspi ∧ (∀ i, rates.turn i) ∧
    (let tri : State := (rates.gStore false .clkgen 0 COMMIT).copies .clkgen
     tri.gcur F.CLKGEN_MOSC_CFG_EXPECT = 0 ∧ getField (tri.gword .clkgen (CLKGEN_ROOT_CFG 0)) 0 2 = 3) ∧
    (rates.perform (.clkgenCommit .mspi COMMIT)).clocked = true :=
  ⟨⟨rfl, by decide, by decide⟩, fun i => turn_of_empty i rfl rfl, by decide +kernel, rates_clocked⟩

/-- Channel 0 with lane 3 changed. -/
def lane3 (f : Lane → Lane) (c : Channel) : Channel := c.updLane 3 f

theorem test_hyp_LaneTimers :
    Meets (lane3 (fun l => { l with miss := some 0 })) (fun ch => ∃ k, (ch.lane 3).miss = some k ∧ k ≤ ch.jour.tick) ∧
    Meets (lane3 (fun l => { l with miss := some 1 })) (fun ch => ¬ ∃ k, (ch.lane 3).miss = some k ∧ k ≤ ch.jour.tick) ∧
    Meets (lane3 (fun l => { l with st := .qualifying, timer := some 0 })) (fun ch => (ch.lane 3).st = .qualifying ∧ (∃ k, (ch.lane 3).timer = some k ∧ k ≤ ch.jour.tick) ∧
      (ch.lane 3).winGood < max 1 (ch.fld (F.REF_LANE_QUAL_QUAL_MIN 3))) ∧
    Meets (lane3 (fun l => { l with st := .qualifying, timer := some 0, winGood := 65536, returning := true }) ∘ kset (F.REF_LANE_TIME_WTR 3) 1) (fun ch =>
      (ch.lane 3).st = .qualifying ∧ (∃ k, (ch.lane 3).timer = some k ∧ k ≤ ch.jour.tick) ∧ ¬ (ch.lane 3).winGood < max 1 (ch.fld (F.REF_LANE_QUAL_QUAL_MIN 3)) ∧
      (ch.lane 3).returning = true ∧ ch.fld (F.REF_LANE_TIME_WTR 3) ≠ 0) ∧
    Meets (lane3 (fun l => { l with st := .qualifying, timer := some 0, winGood := 65536 })) (fun ch => (ch.lane 3).st = .qualifying ∧
      ¬ (ch.lane 3).winGood < max 1 (ch.fld (F.REF_LANE_QUAL_QUAL_MIN 3)) ∧ (ch.lane 3).returning = false) ∧
    Meets (lane3 (fun l => { l with st := .wtr, timer := some 0 })) (fun ch => (ch.lane 3).st = .wtr ∧ ∃ k, (ch.lane 3).timer = some k ∧ k ≤ ch.jour.tick) ∧
    Meets (lane3 (fun l => { l with st := .disqualified, timer := some 0, los := true })) (fun ch => (ch.lane 3).st = .disqualified ∧ (ch.lane 3).los = true ∧
      ∃ k, (ch.lane 3).timer = some k ∧ k ≤ ch.jour.tick) :=
  ⟨meets ⟨0, rfl, by decide⟩, meets (by rintro ⟨k, h, g⟩; cases h; exact absurd g (by decide)), meets ⟨rfl, ⟨0, rfl, by decide⟩, by decide⟩,
    meets ⟨rfl, ⟨0, rfl, by decide⟩, by decide, rfl, by decide⟩, meets ⟨rfl, by decide, rfl⟩, meets ⟨rfl, 0, rfl, by decide⟩, meets ⟨rfl, rfl, 0, rfl, by decide⟩⟩

theorem test_hyp_LaneCommands :
    Meets (kset (F.REF_LANE_CFG_ENABLE 3) 1) (fun ch => (ch.lane 3).exist = true ∧ ch.laneEnabled 3 = true ∧ bit 1#32 0 = true ∧ bit 1#32 1 = false) ∧
    Meets (lane3 (fun l => { l with st := .forced })) (fun ch => (ch.lane 3).st = .forced ∧ bit 2#32 1 = true ∧ bit 2#32 0 = false ∧ bit 2#32 2 = false) ∧
    Meets (lane3 (fun l => { l with st := .qualified })) (fun ch => Channel.liveSt (ch.lane 3).st = true ∧ bit 4#32 2 = true ∧ bit 4#32 0 = false) ∧
    Meets id (fun ch => ch.laneEnabled 3 = false ∧ (ch.lane 3).st ≠ .forced ∧ Channel.liveSt (ch.lane 3).st = false ∧ bit 8#32 3 = true ∧ bit 3#32 1 = true) :=
  ⟨meets (by decide), meets (by decide), meets (by decide), meets (by decide)⟩

theorem test_hyp_Switches :
    Meets (fun c => { c with ref := { c.ref with selA := { c.ref.selA with pend := true, pv := some 3 } } }) (fun ch => (ch.sel .a).pend = true ∧ (ch.sel .a).pv = some 3 ∧
      bit 0x80000000#32 31 = true ∧ bit 0x80000000#32 30 = false ∧ bit 0x40000000#32 31 = false ∧ bit 0x40000000#32 30 = true ∧
      bit 0x80000000#32 29 = bit 0x80000000#32 28) ∧
    Meets id (fun ch => (ch.sel .a).pend = false ∧ (ch.sel .b).pend = false) := ⟨meets (by decide), meets (by decide)⟩

/-- A channel at tick `n`. -/
def atTick (n : Nat) (c : Channel) : Channel := { c with jour := { c.jour with tick := n } }

/-- A valid sentence (R70). -/
def sentence : Bytes :=
  let b : Bytes := [0xC5#8, 0x3A#8, 1#8, 0x1C#8] ++ List.replicate 22 0#8
  b ++ beBytes 2 (crc16 b)

/-- An edge of tick 0. -/
def edge0 : TodEdge := ⟨0, 0, 0, false⟩
/-- Lane 7 as PULSE_TOD lane with that edge, receiver 0 enabled. -/
def tod : Channel → Channel := (fun c => c.updLane 7 (fun l => { l with edges := [edge0] })) ∘ kset (F.REF_LANE_CFG_KIND 7) 1 ∘ kset (F.REF_TODI_CFG_EN 0) 1

theorem test_hyp_LaneEvents :
    Meets id (fun ch => (ch.lane 7).exist = true ∧ ch.kind 7 = 0 ∧ ch.flag (F.REF_TODI_CFG_EN 0) = false ∧ (ch.lane 7).edges = [] ∧ 8 ≤ (8 : LaneIx).val) ∧
    Meets (kset (F.REF_LANE_CFG_KIND 7) 1) (fun ch => (ch.lane 7).exist = true ∧ ch.kind 7 = 1) ∧
    Meets (atTick 198000000 ∘ tod) (fun ch => (ch.lane 7).exist = true ∧ edge0 ∈ (ch.lane 7).edges ∧ edge0.labelled = false ∧ edge0.tick + 198000000 ≤ ch.jour.tick) ∧
    Meets (atTick 197999999 ∘ tod) (fun ch => edge0 ∈ (ch.lane 7).edges ∧ ¬ edge0.tick + 198000000 ≤ ch.jour.tick) ∧
    (let s : State := { on (atTick 198000000 ∘ tod) with pending := [.gnssL8Record 0] }
     s.recordWaits 0 = true ∧ s.turn (.todSentenceWindowEnd 0 7)) ∧ base.recordWaits 0 = false ∧
    Meets (atTick 180000 ∘ tod) (fun ch => ch.flag (F.REF_TODI_CFG_EN 0) = true ∧ ch.todLane 0 = some 7 ∧ (ch.lane 7).edges = [edge0] ∧ Channel.todValid sentence = true ∧
      edge0.labelled = false ∧ edge0.tick + 180000 ≤ ch.jour.tick - 0 ∧ ch.jour.tick - 0 ≤ edge0.tick + 100020000 ∧ ch.jour.tick ≤ edge0.tick + 198000000) ∧
    Meets (atTick 179999 ∘ tod) (fun ch => ch.todLane 0 = some 7 ∧ (ch.lane 7).edges = [edge0] ∧ ¬ edge0.tick + 180000 ≤ ch.jour.tick - 0) ∧
    Meets (kset (F.REF_TODI_CFG_EN 0) 1) (fun ch => ch.flag (F.REF_TODI_CFG_EN 0) = true ∧ ch.todLane 0 = none) ∧
    Meets (kset (F.REF_LANE_CFG_KIND 7) 2) (fun ch => (ch.lane 7).exist = true ∧ ch.kind 7 = 2 ∧ ch.multipleHere 10 = some 0) ∧
    Meets ((fun c => { c with dpll := { c.dpll with ctr := 2 ^ 90, ctr0 := 2 ^ 90 } }) ∘ kset (F.REF_LANE_CFG_KIND 7) 2) (fun ch => ch.kind 7 = 2 ∧ ch.multipleHere 10 = none) :=
  ⟨meets (by decide), meets (by decide), meets (by decide), meets (by decide), ⟨by decide +kernel, rfl, by decide +kernel⟩, by decide +kernel, meets (by decide +kernel), meets (by decide),
    meets (by decide), meets (by decide), meets (by decide)⟩

/-- A leap table with one valid entry. -/
def oneLeap (conf : Bool) (eff ofs : Int) (c : Channel) : Channel := { c with scale := { c.scale with leap := c.scale.leap.set 0 ⟨true, conf, 1, eff, ofs⟩ } }

/-- An offset of 37 s at second 0 has no preceding entry; one of 38 s at 86,437 is a leap at the end of a UTC day, one at 86,438 is the fault of R57, and so
is one of the same EFF. -/
theorem test_hyp_LeapTables :
    let prior (t : Vector LeapEnt 8) (e : LeapEnt) (i : Fin 8) : Prop := t[i].valid = true ∧ t[i].eff < e.eff ∧ ∀ m : Fin 8, t[m].valid = true → t[m].eff < e.eff → t[m].eff ≤ t[i].eff
    let faulty (t : Vector LeapEnt 8) : Prop := ∃ j : Fin 8, t[j].valid = true ∧
      ((∃ i : Fin 8, i ≠ j ∧ t[i].valid = true ∧ t[i].eff = t[j].eff) ∨
        ∃ i, prior t t[j] i ∧ ((t[j].ofs - t[i].ofs = 1 ∧ (t[j].eff - t[i].ofs) % 86400 ≠ 0) ∨ (t[j].ofs - t[i].ofs = -1 ∧ (t[j].eff - t[i].ofs) % 86400 ≠ 86399)))
    Meets (oneLeap true 0 37) (fun ch => ¬ faulty (ch.scale.leap.set 1 ⟨true, true, 0, 86437, 38⟩) ∧ faulty (ch.scale.leap.set 1 ⟨true, true, 0, 86438, 38⟩) ∧
      ¬ faulty (ch.scale.leap.set 1 ⟨true, true, 0, 86436, 36⟩) ∧ faulty (ch.scale.leap.set 1 ⟨true, true, 0, 86437, 36⟩) ∧
      faulty (ch.scale.leap.set 1 ⟨true, true, 0, 0, 40⟩) ∧ ¬ faulty ch.scale.leap ∧ (∀ i, ¬ prior ch.scale.leap ch.scale.leap[0] i)) :=
  meets (by refine ⟨?_, ?_, ?_, ?_, ?_, ?_, ?_⟩ <;> beta_reduce <;> decide +kernel)

/-- Lane 9 feeds the servo, and UTC comes from announcements. -/
def heard (src : Nat) (c : Channel) : Channel := kset F.DPLL_TS_CFG_UTC_SRC src { c with ref := { c.ref with selA := { c.ref.selA with prev := some 9 } } }

theorem test_hyp_LeapAnnouncements :
    Meets (kset F.DPLL_TS_CFG_UTC_SRC 0) (fun ch => ch.fld F.DPLL_TS_CFG_UTC_SRC = 0) ∧
    Meets (heard 1) (fun ch => ch.fld F.DPLL_TS_CFG_UTC_SRC ≠ 0 ∧ ch.ref.selA.prev = some 9 ∧ ch.utcOfs ch.nowSec = 0 ∧ (∀ j : Fin 8, ch.scale.leap[j].valid = false)) ∧
    Meets (heard 1 ∘ oneLeap true 86399 37) (fun ch => ch.fld F.DPLL_TS_CFG_UTC_SRC ≠ 0 ∧ ch.ref.selA.prev = some 9 ∧ ch.scale.leap[0].conf = true ∧ ch.utcOfs ch.nowSec ≠ 38 ∧
      ((ch.nowSec - ch.scale.leap[0].eff).natAbs < 86400)) ∧
    Meets (heard 1 ∘ oneLeap true 0 37) (fun ch => ch.utcOfs ch.nowSec = 37) ∧
    Meets (heard 2 ∘ oneLeap false 5 37) (fun ch => ch.scale.leap[0].conf = false ∧ ch.scale.leap[0].org ≠ 0 ∧ ch.scale.leap[0].eff = 5) :=
  ⟨meets (by decide), meets (by decide), meets (by decide), meets (by decide), meets (by decide)⟩

/-- Tracking channel 47 in a state with a timer. -/
def trk (st : Nat) (t : Option Nat) (c : Channel) : Channel :=
  ({ c with gnss := { c.gnss with trk := c.gnss.trk.set 47 ⟨t, 0, 0⟩ } }).put (F.GNSS_TRK_STAT_STATE 47) st

theorem test_hyp_Tracking :
    Meets (kset F.GNSS_FE_CFG_GAL_EN 1 ∘ fun c => c.put F.GNSS_LINK_STAT_STATE LINK_UP) (fun ch => ch.trkSt 47 = TRK_IDLE ∧ ch.linkSt = LINK_UP ∧ ch.sysOn true = true ∧
      ch.isBarred true 63 = false ∧ (ch.navSat true 63).healthy = true) ∧
    Meets id (fun ch => ch.linkSt ≠ LINK_UP ∧ ch.trkSt 47 = TRK_IDLE) ∧
    Meets (trk TRK_SEARCH none) (fun ch => ch.trkSt 47 = TRK_SEARCH) ∧
    Meets (trk TRK_PULL_IN (some 0)) (fun ch => ch.trkSt 47 = TRK_PULL_IN ∧ (∃ t, ch.gnss.trk[47].timer = some t ∧ t ≤ ch.jour.tick) ∧ ch.trkSt 47 ≠ TRK_IDLE ∧ ch.trkSt 47 ≠ TRK_SEARCH) ∧
    Meets (trk TRK_PULL_IN (some 1)) (fun ch => ¬ (ch.trkSt 47 = TRK_PULL_IN ∧ ∃ t, ch.gnss.trk[47].timer = some t ∧ t ≤ ch.jour.tick)) ∧
    Meets (trk TRK_TRACK none) (fun ch => ch.trkSt 47 = TRK_TRACK ∧ ch.oldSpcFor 47 = none) ∧
    Meets (trk TRK_TRACK none ∘ fun c => { c with gnss := { c.gnss with oldSpc := some ⟨0, 0, 3, 5⟩ } }) (fun ch => ch.trkSt 47 = TRK_TRACK ∧ ch.oldSpcFor 47 = some ⟨0, 0, 3, 5⟩) ∧
    Meets (trk TRK_LOST (some 0)) (fun ch => ch.trkSt 47 = TRK_LOST ∧ ∃ t, ch.gnss.trk[47].timer = some t ∧ t ≤ ch.jour.tick) :=
  ⟨meets (by decide), meets (by decide), meets (by decide), meets ⟨by decide, ⟨0, rfl, by decide⟩, by decide⟩,
    meets (by rintro ⟨_, t, h, g⟩; cases h; exact absurd g (by decide)), meets (by decide), meets (by decide), meets ⟨by decide, 0, rfl, by decide⟩⟩

/-- A frame of the sample link with a right CRC (R96, R97). -/
def frame : Bytes := let b : Bytes := List.replicate 510 0#8; b ++ beBytes 2 (crc16 b)

set_option maxRecDepth 100000 in
theorem test_hyp_SampleFrames :
    Meets id (fun ch => ch.flag F.GNSS_FE_CFG_EN = false) ∧
    Meets (kset F.GNSS_FE_CFG_EN 1) (fun ch => ch.flag F.GNSS_FE_CFG_EN = true ∧ ch.linkSt = LINK_DOWN) ∧
    Meets (kset F.GNSS_FE_CFG_EN 1 ∘ kset F.GNSS_FE_CFG_RATE 0 ∘ fun c => ({ c with gnss := { c.gnss with good := 3 } }).put F.GNSS_LINK_STAT_STATE LINK_ALIGNING) (fun ch =>
      ch.flag F.GNSS_FE_CFG_EN = true ∧ ch.linkSt = LINK_ALIGNING ∧ 3 ≤ ch.gnss.good ∧ ch.gnss.expect = none ∧ ch.gnss.comma = none ∧
      frame.length = 12 + frameSamples (ch.fld F.GNSS_FE_CFG_RATE) ∧
      crc16 (slice frame 0 (10 + frameSamples (ch.fld F.GNSS_FE_CFG_RATE))) = fromBe (slice frame (10 + frameSamples (ch.fld F.GNSS_FE_CFG_RATE)) 2)) ∧
    Meets (kset F.GNSS_FE_CFG_EN 1 ∘ fun c => ({ c with gnss := { c.gnss with bad := 3 } }).put F.GNSS_LINK_STAT_STATE LINK_UP) (fun ch =>
      ch.linkSt = LINK_UP ∧ 3 ≤ ch.gnss.bad ∧ ([] : Bytes).length ≠ 12 + frameSamples (ch.fld F.GNSS_FE_CFG_RATE)) :=
  ⟨meets (by decide), meets (by decide), meets (by decide +kernel), meets (by decide)⟩

theorem test_hyp_BackChannel :
    Meets id (fun ch => ch.hasPart .gnss GNSS_BC_CMD = true ∧ bit 0x81000000#32 31 = true ∧ ch.gnss.bc = none ∧ getField 0x81000000#32 24 2 = 1 ∧ getField 0x83000000#32 24 2 = 3) ∧
    Meets (fun c => { c with gnss := { c.gnss with bc := some ⟨255, 2, 0, 0, none⟩, bcTag := 255 } }) (fun ch => ch.gnss.bc = some ⟨255, 2, 0, 0, none⟩ ∧ ch.gnss.bcTag = 255) ∧
    Meets (atTick 1999 ∘ fun c => { c with gnss := { c.gnss with bcAt := some 0 } }) (fun ch => ∃ t, ch.gnss.bcAt = some t ∧ ch.jour.tick < t + 2000) ∧
    Meets (atTick 2000 ∘ fun c => { c with gnss := { c.gnss with bcAt := some 0, bc := some ⟨1, 1, 2, 3, none⟩ } }) (fun ch =>
      (¬ ∃ t, ch.gnss.bcAt = some t ∧ ch.jour.tick < t + 2000) ∧ ∃ o, ch.gnss.bc = some o ∧ o.sent = none) ∧
    Meets (atTick 16000 ∘ fun c => { c with gnss := { c.gnss with bc := some ⟨1, 2, 0, 0, some 0⟩ } }) (fun ch => ∃ o t, ch.gnss.bc = some o ∧ o.sent = some t ∧ t + 16000 ≤ ch.jour.tick) ∧
    Meets (atTick 15999 ∘ fun c => { c with gnss := { c.gnss with bc := some ⟨1, 2, 0, 0, some 0⟩ } }) (fun ch => ∃ o t, ch.gnss.bc = some o ∧ o.sent = some t ∧ ch.jour.tick < t + 16000) :=
  ⟨meets (by decide), meets (by decide), meets ⟨0, rfl, by decide⟩, meets ⟨by rintro ⟨t, h, g⟩; cases h; exact absurd g (by decide), _, rfl, rfl⟩,
    meets ⟨_, 0, rfl, rfl, by decide⟩, meets ⟨_, 0, rfl, rfl, by decide⟩⟩

/-- Notch 3 in a state at frequency 0, its line below THR since tick 0; the level that lines are compared with is 10. -/
def notch3 (st : Nat) (c : Channel) : Channel :=
  kset F.GNSS_JAM_CFG_THR 10 ((({ c with gnss := { c.gnss with notchLow := c.gnss.notchLow.set 3 (some 0) } } : Channel).put (F.GNSS_NOTCH_STAT_FREQ 3) 0).put (F.GNSS_NOTCH_STAT_STATE 3) st)

/-- Line 1 is the nearest of the two and among the strongest; line 0 alone lies below the level; of six lines over it the one at 0 is the weakest. -/
theorem test_hyp_Notches :
    let its (ch : Channel) (lines : List (Int × Nat)) (l : Int × Nat) : Prop :=
      l ∈ lines ∧ ∀ x ∈ lines, x ≠ l → (l.1 - ch.notchFreq 3).natAbs < (x.1 - ch.notchFreq 3).natAbs
    let apart (d : Channel) : Prop :=
      ∀ i j : Fin 4, i < j → d.notchSt i.val = NOTCH_LOCKED → d.notchSt j.val = NOTCH_LOCKED → 50000 < (d.notchFreq i - d.notchFreq j).natAbs
    let lone (ch : Channel) : Prop := ∀ j : Fin 4, j ≠ 3 → ch.notchSt j.val ≠ NOTCH_LOCKED
    let six : List (Int × Nat) := [(0, 10), (100, 20), (200, 20), (300, 20), (400, 20), (500, 20)]
    Meets (notch3 NOTCH_SEARCH) (fun ch => ch.notchSt 3 = NOTCH_SEARCH ∧ apart ch ∧ lone ch ∧ ((ch.linesOver [(5, 9), (7, 10)]).take 4).find? (fun _ => true) = some (7, 10) ∧
      (ch.linesOver [(5, 9)]).take 4 = []) ∧
    Meets (notch3 NOTCH_LOCKED) (fun ch => ch.notchSt 3 = NOTCH_LOCKED ∧ apart ch ∧ lone ch ∧ its ch [(5, 10), (7, 20)] (5, 10) ∧ (5, 10) ∈ (ch.linesOver [(5, 10), (7, 20)]).take 4 ∧
      its ch six (0, 10) ∧ ch.fld F.GNSS_JAM_CFG_THR ≤ 10 ∧ (0, 10) ∉ (ch.linesOver six).take 4 ∧ its ch [(5, 9)] (5, 9) ∧ 9 < ch.fld F.GNSS_JAM_CFG_THR ∧
      ch.jour.tick < (ch.gnss.notchLow[3]).getD ch.jour.tick + 20000000) ∧
    Meets (atTick 20000000 ∘ notch3 NOTCH_LOCKED) (fun ch => ch.notchSt 3 = NOTCH_LOCKED ∧ apart ch ∧ (ch.gnss.notchLow[3]).getD ch.jour.tick + 20000000 ≤ ch.jour.tick) ∧
    Meets (fun c => (c.put (F.GNSS_NOTCH_STAT_STATE 2) NOTCH_LOCKED).put (F.GNSS_NOTCH_STAT_STATE 3) NOTCH_LOCKED) (fun ch => ¬ apart ch) ∧
    Meets id (fun ch => ch.notchSt 3 = NOTCH_OFF ∧ apart ch) :=
  ⟨meets (by beta_reduce; decide +kernel), meets (by beta_reduce; decide +kernel), meets (by beta_reduce; decide +kernel), meets (by beta_reduce; decide +kernel), meets (by beta_reduce; decide +kernel)⟩

theorem test_hyp_Jamming :
    Meets (atTick 199999 ∘ fun c => { c with gnss := { c.gnss with jniAt := some 0 } }) (fun ch => ∃ t, ch.gnss.jniAt = some t ∧ ch.jour.tick < t + 200000) ∧
    Meets (atTick 200000 ∘ kset F.GNSS_JAM_CFG_ALARM 5 ∘ fun c => { c with gnss := { c.gnss with jniAt := some 0, agcMs := (511, 2) } }) (fun ch =>
      (¬ ∃ t, ch.gnss.jniAt = some t ∧ ch.jour.tick < t + 200000) ∧ ch.fld F.GNSS_JAM_CFG_ALARM ≤ 511 / 2 - ch.cur F.GNSS_JAM_CFG_FLOOR) ∧
    Meets id (fun ch => ch.hasPart .gnss GNSS_JAM_STAT = true ∧ ch.gnss.floorEnd = none ∧ ch.gnss.agcMs.2 = 0) ∧
    Meets (fun c => { c with gnss := { c.gnss with floorEnd := some 0 } }) (fun ch => ∃ t, ch.gnss.floorEnd = some t ∧ t ≤ ch.jour.tick) :=
  ⟨meets ⟨0, rfl, by decide⟩, meets ⟨by rintro ⟨t, h, g⟩; cases h; exact absurd g (by decide), by decide⟩, meets (by decide), meets ⟨0, rfl, by decide⟩⟩

/-- A survey that runs in slot 5. -/
def survey (n : Nat) (c : Channel) : Channel := { c with gnss := { c.gnss with survey := some ⟨5, 600, 100, 0, n, (0, 0, 0), [], none, false, false⟩, usableN := 4 } }

/-- A command with `op` for channel 0 in slot 5, in state `st`. -/
def cmd (op st : Nat) (g : CmdSt → CmdSt) (s : State) : State :=
  ({ s with cmdq := ⟨[g ⟨5, 0, .mspi, op, 0, false, 0, List.replicate 40 0, none, none, false, [], 0⟩], 1⟩ } : State).setCmdState 5 st

theorem test_hyp_Positions :
    Meets (survey 0) (fun ch => ch.hasPart .gnss GNSS_POS_CTL = true ∧ ch.gnss.survey.isSome = true ∧ bit 0x80000000#32 30 = false ∧ bit 0x40000000#32 30 = true) ∧
    (let s := cmd 1 CS_RUNNING id base
     s.scanning = false ∧ ∃ m, s.running? 5 1 = some m ∧ s.running m.chan = true ∧ m.begun = false) ∧
    (let s := cmd 1 CS_RUNNING (fun m => { m with begun := true }) base
     s.scanning = false ∧ ∃ m, s.running? 5 1 = some m ∧ s.running m.chan = true ∧ m.begun = true) ∧
    Meets (survey 599) (fun ch => ∃ v, ch.gnss.survey = some v ∧ v.suspended = false ∧ v.lastFix ≠ some ch.nowSec ∧ 4 ≤ ch.gnss.usableN ∧ 600 ≤ v.fixes + 1 ∧ v.minFix ≤ v.fixes + 1 ∧ Channel.spread [(0, 0, 0)] ≤ v.posLim) ∧
    Meets (survey 598) (fun ch => ∃ v, ch.gnss.survey = some v ∧ v.suspended = false ∧ v.lastFix ≠ some ch.nowSec ∧ 4 ≤ ch.gnss.usableN ∧ ¬ 600 ≤ v.fixes + 1) ∧
    Meets ((fun c => { c with gnss := { c.gnss with usableN := 3 } }) ∘ survey 599) (fun ch => ∀ v, ch.gnss.survey = some v → ¬ 4 ≤ ch.gnss.usableN) ∧ Meets id (fun ch => ch.gnss.survey = none) :=
  ⟨meets (by decide), ⟨by decide, _, rfl, by decide, by decide⟩, ⟨by decide, _, rfl, by decide, by decide⟩, meets ⟨_, rfl, rfl, by decide, by decide, by decide, by decide, by decide⟩,
    meets ⟨_, rfl, rfl, by decide, by decide, by decide⟩, meets (fun _ _ => by decide), meets (by decide)⟩

theorem test_hyp_Epochs :
    Meets (kset F.GNSS_FE_CFG_EN 1) (fun ch => ch.secondHere = some 0 ∧ ch.gnss.lastEpoch ≠ some 0 ∧ ch.flag F.GNSS_FE_CFG_EN = true) ∧
    Meets id (fun ch => ch.flag F.GNSS_FE_CFG_EN = false ∧ ch.gnss.epoch = none) ∧
    Meets (atTick 500000 ∘ fun c => { c with gnss := { c.gnss with epoch := some ⟨0, 0, 0, [], 0, true⟩ } }) (fun ch =>
      ∃ e, ch.gnss.epoch = some e ∧ (ch.lane 8).exist = true ∧ e.tick + 500000 ≤ ch.jour.tick ∧ e.spoilt = true) ∧
    Meets (atTick 499999 ∘ fun c => { c with gnss := { c.gnss with epoch := some ⟨0, 0, 0, [], 0, true⟩ } }) (fun ch =>
      ∃ e, ch.gnss.epoch = some e ∧ ch.jour.tick < e.tick + 500000) :=
  ⟨meets (by decide), meets (by decide), meets ⟨_, rfl, by decide, by decide, rfl⟩, meets ⟨_, rfl, by decide⟩⟩

/-- A snapshot of two milliseconds, with `n` frames. -/
def snap (n : Nat) (c : Channel) : Channel :=
  { c with gnss := { c.gnss with snap := some ⟨0, 2, 0, 0, 0, 0, 0, 0, 0, false, none, 0, false, false, false, none, List.replicate n []⟩ } }

set_option maxRecDepth 4000 in
theorem test_hyp_Snapshots :
    Meets id (fun ch => ch.hasPart .gnss GNSS_SNAP_CTL = true ∧ getField 0x80000002#32 0 7 = 2 ∧ getField 0x80000040#32 0 7 = 64 ∧ getField 0x80000041#32 0 7 = 65 ∧
      ch.cur F.GNSS_SNAP_STAT_STATE = SNAP_EMPTY) ∧
    Meets (fun c => c.put F.GNSS_SNAP_STAT_STATE SNAP_ARMED) (fun ch => ch.cur F.GNSS_SNAP_STAT_STATE = SNAP_ARMED ∧ ch.cur F.GNSS_SNAP_CTL_AT = 0) ∧
    Meets ((fun c => c.put F.GNSS_SNAP_STAT_STATE SNAP_CAPTURING) ∘ snap 200) (fun ch => ∃ x, ch.gnss.snap = some x ∧ ch.cur F.GNSS_SNAP_STAT_STATE = SNAP_CAPTURING ∧
      x.len * 100 ≤ x.frames.length) ∧
    Meets ((fun c => c.put F.GNSS_SNAP_STAT_STATE SNAP_CAPTURING) ∘ snap 199) (fun ch => ∃ x, ch.gnss.snap = some x ∧ x.frames.length < x.len * 100) :=
  ⟨meets (by decide), meets (by decide), meets ⟨_, rfl, by decide, by decide⟩, meets ⟨_, rfl, by decide⟩⟩

theorem test_hyp_SnapshotProcessing :
    (let s := cmd 7 CS_RUNNING id (on (trk TRK_SEARCH none))
     s.scanning = false ∧ ∃ m, s.running? 5 7 = some m ∧ s.running m.chan = true ∧ s.ch[m.chan].trkSt 47 = TRK_SEARCH) ∧
    (let s := cmd 7 CS_RUNNING id (on (fun c =>
        ({ c with gnss := { c.gnss with pos := some (0, 0, 0, 0), snap := some ⟨0, 2, 0, 0, 0, 0, 0, 0, 0, false, none, 0, true, false, false, none, []⟩ } }).put F.GNSS_POS_CTL_MODE POS_HOLD))
     ∃ m x, s.running? 5 7 = some m ∧ s.running m.chan = true ∧ (∀ j : Fin 48, s.ch[m.chan].trkSt j ≠ TRK_SEARCH) ∧ s.ch[m.chan].gnss.snap = some x ∧ x.complete = true ∧
       s.ch[m.chan].posMode = POS_HOLD ∧ s.ch[m.chan].gnss.pos ≠ none) ∧
    (let s := cmd 7 CS_RUNNING id base
     ∃ m, s.running? 5 7 = some m ∧ s.running m.chan = true ∧ s.ch[m.chan].gnss.snap = none ∧ ∀ j : Fin 48, s.ch[m.chan].trkSt j ≠ TRK_SEARCH) :=
  ⟨⟨by decide, _, rfl, by decide, by decide⟩, ⟨_, _, rfl, by decide, by decide +kernel, rfl, by decide, by decide, by decide⟩, _, rfl, by decide, by decide, by decide +kernel⟩

/-- A record of lane `n` at time 0 with an offset. -/
def rec (n : LaneIx) (off : Gt) (teb : Bound) : MeasRec := ⟨0, off, 0, teb, 0, 0, 0, n, false, false, false, false, none, 0, 0⟩

/-- Lane 3 feeds both servos, and a record waits for them; the device is past its apply time. -/
def waiting (r : MeasRec) (c : Channel) : Channel :=
  { c with ref := { c.ref with selA := { c.ref.selA with prev := some r.lane }, selB := { c.ref.selB with prev := some r.lane } },
           dpll := { c.dpll with ctr := 2 ^ 100, waitA := [r], waitB := [r], lastTs := some (-(2 ^ 64)), lastTsB := some (-(2 ^ 64)), first := false, firstB := false, bst := .track } }

theorem test_hyp_ServoA :
    Meets (waiting (rec 3 1 0) ∘ kset F.DPLL_A_CFG_SET_EN 1) (fun ch => ch.nextDue ch.dpll.waitA = some (rec 3 1 0) ∧ ch.takes .a (rec 3 1 0) = some false ∧
      Channel.inert (rec 3 1 0) = false ∧ ch.dpll.trace = false ∧ ch.flag F.DPLL_A_CFG_SET_EN = true ∧ 0 < (rec 3 1 0).offset) ∧
    Meets (waiting (rec 3 0 0)) (fun ch => ch.nextDue ch.dpll.waitA = some (rec 3 0 0) ∧ ch.takes .a (rec 3 0 0) = some false ∧ axOf (rec 3 0 0).offset ≤ ch.fld F.DPLL_SL_TH_SL_TH ∧
      axOf (rec 3 0 0).offset ≤ ch.fld F.DPLL_LOCK_TH_LOCK_TH ∧ ch.dpll.first = false ∧ ∃ l, ch.dpll.lastTs = some l ∧ ¬ (rec 3 0 0).refTs ≤ l) ∧
    Meets (waiting (rec 3 (2 ^ 70) 0) ∘ kset F.DPLL_A_CFG_SET_EN 0) (fun ch => ch.nextDue ch.dpll.waitA = some (rec 3 (2 ^ 70) 0) ∧ ch.fld F.DPLL_SL_TH_SL_TH < axOf (rec 3 (2 ^ 70) 0).offset ∧
      ch.flag F.DPLL_A_CFG_SET_EN = false) ∧
    Meets (waiting (rec 8 5 SAT)) (fun ch => ch.nextDue ch.dpll.waitA = some (rec 8 5 SAT) ∧ ch.takes .a (rec 8 5 SAT) = some false ∧ Channel.inert (rec 8 5 SAT) = true) ∧
    Meets id (fun ch => ch.nextDue ch.dpll.waitA = none) :=
  ⟨meets (by decide), meets ⟨by decide, by decide, by decide, by decide, by decide, _, rfl, by decide⟩, meets (by decide), meets (by decide), meets (by decide)⟩

theorem test_hyp_ServoB :
    Meets (waiting (rec 3 1 0)) (fun ch => ch.nextDue ch.dpll.waitB = some (rec 3 1 0) ∧ ch.takes .b (rec 3 1 0) = some false ∧ Channel.inert (rec 3 1 0) = false ∧ ch.dpll.bst ≠ .free ∧
      ch.dpll.firstB = false ∧ ch.dpll.bst ≠ .hold ∧ ∃ l, ch.dpll.lastTsB = some l ∧ ¬ (rec 3 1 0).refTs ≤ l) ∧
    Meets ((fun c => { c with dpll := { c.dpll with bst := .free } }) ∘ waiting (rec 3 1 0)) (fun ch => ch.nextDue ch.dpll.waitB = some (rec 3 1 0) ∧ ch.dpll.bst = .free) ∧
    Meets ((fun c => { c with dpll := { c.dpll with bst := .hold } }) ∘ waiting (rec 3 1 0)) (fun ch => ch.nextDue ch.dpll.waitB = some (rec 3 1 0) ∧ ch.dpll.bst = .hold) ∧
    Meets id (fun ch => ch.nextDue ch.dpll.waitB = none) :=
  ⟨meets ⟨by decide, by decide, by decide, by decide, by decide, by decide, _, rfl, by decide⟩, meets (by decide), meets (by decide), meets (by decide)⟩

/-- The channel's time state, and the lane that fed DPLL_A. -/
def timeState (st : ChanSt) (l : Option LaneIx) (c : Channel) : Channel :=
  { c with dpll := { c.dpll with st := st, hoValid := true }, ref := { c.ref with selA := { c.ref.selA with prev := l } } }

theorem test_hyp_Holdover :
    Meets (timeState .holdoverLimit (some 3)) (fun ch => ch.dpll.st = .holdoverLimit ∧ ch.ref.selA.prev ≠ none) ∧
    Meets id (fun ch => ch.dpll.st = .freerun ∧ ch.ref.selA.prev = none ∧ ch.dpll.bst = .free) ∧
    Meets (timeState .locked none) (fun ch => ch.dpll.st = .locked ∧ ch.ref.selA.prev = none ∧ ch.dpll.hoValid = true) ∧
    Meets ((fun c => { c with dpll := { c.dpll with hoValid := false } }) ∘ timeState .acquiring none) (fun ch => ch.dpll.st = .acquiring ∧ ch.ref.selA.prev = none ∧ ch.dpll.hoValid = false) ∧
    Meets (fun c => { c with dpll := { c.dpll with bst := .track } }) (fun ch => ch.dpll.bst = .track ∧ ch.ref.selB.prev = none) ∧
    Meets ((fun c => { c with dpll := { c.dpll with hoAct := true } }) ∘ timeState .holdover none ∘ kset F.DPLL_HO_CEIL_CEIL 0) (fun ch => ch.dpll.st = .holdover ∧ ch.dpll.hoAct = true ∧
      ch.fld F.DPLL_HO_CEIL_CEIL < ch.tebHo (ch.hoSecs ch.spanEndT)) ∧
    Meets ((fun c => { c with dpll := { c.dpll with hoEntry := -1 } }) ∘ timeState .holdover none ∘ kset F.DPLL_A_CFG_AGE_EN 1) (fun ch => ch.secondHere = some 0 ∧
      ch.dpll.st = .holdover ∧ ch.flag F.DPLL_A_CFG_AGE_EN = true ∧ ch.dpll.agedAt ≠ some 0 ∧ ch.dpll.hoEntry < 0 * 2 ^ 64) :=
  ⟨meets (by decide), meets (by decide), meets (by decide), meets (by decide), meets (by decide), meets (by decide), meets (by decide)⟩

theorem test_hyp_Steps :
    Meets (fun c => { c with dpll := { c.dpll with stepWait := some (0, 2 ^ 64, .mspi) } }) (fun ch => ch.dpll.stepWait ≠ none ∧ bit 0xC0000000#32 28 = false ∧ bit 0xC0000000#32 30 = true ∧
      bit 0x10000000#32 28 = true ∧ bit 0x10000000#32 31 = false ∧ ∃ z w o, ch.dpll.stepWait = some (z, w, o) ∧ ch.reached (z * 2 ^ 64) = true) ∧
    Meets (fun c => { c with dpll := { c.dpll with stepWait := some (1, 2 ^ 64, .mspi) } }) (fun ch => ∃ z w o, ch.dpll.stepWait = some (z, w, o) ∧ ch.reached (z * 2 ^ 64) = false) ∧
    Meets id (fun ch => ch.dpll.stepWait = none) :=
  ⟨meets ⟨by decide, by decide, by decide, by decide, by decide, _, _, _, rfl, by decide⟩, meets ⟨_, _, _, rfl, by decide⟩, meets (by decide)⟩

/-- A characterization of one sample whose instant is here, with `m` misses. -/
def charOp (st : ChanSt) (m : Nat) (susp : Bool) (next : Int) (c : Channel) : Channel :=
  { c with dpll := { c.dpll with st := st, char := some ⟨5, 1, next, [], m, susp, .mspi⟩ } }

theorem test_hyp_Characterization :
    (let s := cmd 2 CS_RUNNING id base
     s.scanning = false ∧ ∃ m, s.running? 5 2 = some m ∧ s.running m.chan = true ∧ m.begun = false) ∧
    Meets (charOp .locked 0 false 0) (fun ch => ∃ o, ch.dpll.char = some o ∧ ch.reached (o.next * 2 ^ 64) = true ∧ o.suspended = false ∧ ch.dpll.st = .locked ∧
      o.nsamp ≤ (o.samples ++ [(o.next, ch.dpll.rate)]).length) ∧
    Meets (charOp .freerun 15 false 0) (fun ch => ∃ o, ch.dpll.char = some o ∧ ch.reached (o.next * 2 ^ 64) = true ∧ ch.dpll.st ≠ .locked ∧ 16 ≤ o.missed + 1) ∧
    Meets (charOp .freerun 14 false 0) (fun ch => ∃ o, ch.dpll.char = some o ∧ ch.reached (o.next * 2 ^ 64) = true ∧ o.missed + 1 < 16) ∧
    Meets (charOp .locked 0 true 0) (fun ch => ∃ o, ch.dpll.char = some o ∧ o.suspended = true) ∧
    Meets (charOp .locked 0 false 1024) (fun ch => ∃ o, ch.dpll.char = some o ∧ ch.reached (o.next * 2 ^ 64) = false) :=
  ⟨⟨by decide, _, rfl, by decide, by decide⟩, meets ⟨_, rfl, by decide, rfl, rfl, by decide⟩, meets ⟨_, rfl, by decide, by decide, by decide⟩,
    meets ⟨_, rfl, by decide, by decide⟩, meets ⟨_, rfl, rfl⟩, meets ⟨_, rfl, by decide⟩⟩

theorem test_hyp_Vintages :
    (let s : State := base.gput F.TWIN_STAT_STATE TW_ACTIVE
     s.scanning = false ∧ s.vintageDue 0 = true ∧ s.serving = true ∧ s.running 0 = true) ∧ base.serving = false := by decide

theorem test_hyp_NavigationData :
    Meets (trk TRK_TRACK none) (fun ch => ch.trkSt 47 = TRK_TRACK ∧ (ch.navSat (ch.trkGal 47) (ch.trkSv 47)).healthy = true) ∧
    Meets id (fun ch => ch.trkSt 47 ≠ TRK_TRACK) := ⟨meets (by decide), meets (by decide)⟩

/-- Synthesizer 0 in a state; with the electrical loop, or with the arithmetic one, a window of 5 for 2 errors. -/
def syn0 (st : Nat) (c : Channel) : Channel := c.put (F.SYN_SYN_STAT_STATE 0) st
def loop0 (l : Nat) : Channel → Channel := kset (F.SYN_SYN_CFG_LOOP 0) l ∘ kset (F.SYN_SYN_WIN_N 0) 2 ∘ kset (F.SYN_SYN_WIN_W 0) 5

theorem test_hyp_Synthesizers :
    Meets (syn0 SYN_ACQ) (fun ch => ch.synSt 0 = SYN_ACQ ∧ ch.synSt 0 ≠ SYN_COAST ∧ ¬ (ch.synK 0).acqTick + 2000000 ≤ ch.jour.tick) ∧
    Meets (syn0 SYN_LOCKED) (fun ch => ch.synSt 0 = SYN_LOCKED ∧ ch.synSt 0 ≠ SYN_ACQ) ∧
    Meets (syn0 SYN_ACQ ∘ loop0 0) (fun ch => ch.fld (F.SYN_SYN_CFG_LOOP 0) = 0 ∧ 349 < 350 ∧ 200000 ≤ 200000 ∧ ¬ 350 < 350 ∧ ¬ 200000 ≤ 199999 ∧ 550 < 551) ∧
    Meets (syn0 SYN_ACQ ∘ loop0 1) (fun ch => ¬ ch.fld (F.SYN_SYN_CFG_LOOP 0) = 0 ∧ max 1 (ch.fld (F.SYN_SYN_WIN_N 0)) ≤ [5, -5, (6 : Int)].length ∧
      (∀ x ∈ [5, -5, (6 : Int)].take (max 1 (ch.fld (F.SYN_SYN_WIN_N 0))), x.natAbs ≤ max 1 (ch.fld (F.SYN_SYN_WIN_W 0))) ∧
      ∀ x ∈ (List.replicate 8 (-6 : Int)).take 8, max 1 (ch.fld (F.SYN_SYN_WIN_W 0)) < x.natAbs) ∧
    Meets (syn0 SYN_COAST ∘ fun c => c.setSynK 0 { c.synK 0 with stored := some [] }) (fun ch => ch.synSt 0 = SYN_COAST ∧ (ch.synK 0).stored = some []) ∧
    Meets (syn0 SYN_COAST) (fun ch => ch.synSt 0 = SYN_COAST ∧ ch.synSt 0 ≠ SYN_ACQ ∧ ch.synSt 0 ≠ SYN_LOCKED ∧ (ch.synK 0).stored = none) ∧
    Meets (atTick 2000000 ∘ syn0 SYN_ACQ) (fun ch => ch.synSt 0 = SYN_ACQ ∧ (ch.synK 0).noLock = false ∧ (ch.synK 0).acqTick + 2000000 ≤ ch.jour.tick) ∧
    Meets (atTick 1999999 ∘ syn0 SYN_ACQ) (fun ch => ¬ (ch.synK 0).acqTick + 2000000 ≤ ch.jour.tick) ∧
    (let s : State := { base with twin := { base.twin with rack := some ⟨0, true, [0], [], false, [], none, false⟩ } }.gput F.TWIN_STAT_STATE TW_DRILL
     s.twin.rack.any (fun r => r.chans.contains 0) = true ∧ s.twst = TW_DRILL ∧ s.safe = false) ∧ base.twst ≠ TW_DRILL :=
  ⟨meets (by decide), meets (by decide), meets (by decide), meets (by decide), meets (by decide), meets (by decide), meets (by decide), meets (by decide), by decide, by decide⟩

/-- A staged commit of no words whose parts still to come are given, registered at tick 0. -/
def staged (p0 p1 pp : Bool) (c : Channel) : Channel := { c with syn := { c.syn with stage := some ⟨[], 0, p0, p1, pp⟩ } }
/-- The output timescale at an instant. -/
def otsAt (x : Int) (c : Channel) : Channel := { c with syn := { c.syn with ots := x, ots0 := x } }
/-- Pulse output 0 with its last index met. -/
def pls0 (seen : Option Int) (sq : Bool) (c : Channel) : Channel := { c with syn := { c.syn with pls := c.syn.pls.set 0 ⟨none, seen, sq, none⟩ } }

theorem test_hyp_CommitsAndPulses :
    Meets (atTick 200000 ∘ staged true false false) (fun ch => ∃ x, ch.syn.stage = some x ∧ x.p0 = true ∧ ¬ (ch.synSt 0 = SYN_COAST ∧ ch.follow 0 = 3) ∧
      ch.synSt 0 = SYN_OFF ∧ Channel.stagedFld x.words (F.SYN_SYN_CFG_EN 0) = 0 ∧ (ch.boundaryHere x 0).isSome = true) ∧
    Meets (atTick 200000 ∘ syn0 SYN_COAST ∘ fun c => { c with syn := { c.syn with stage := some ⟨[(SYN_SYN_CFG 0, 0x80000000#32)], 0, true, false, false⟩ } }) (fun ch => ∃ x, ch.syn.stage = some x ∧
      x.p0 = true ∧ ¬ (ch.synSt 0 = SYN_COAST ∧ ch.follow 0 = 3) ∧ ch.synSt 0 = SYN_COAST ∧ Channel.stagedFld x.words (F.SYN_SYN_CFG_EN 0) = 1 ∧ (ch.boundaryHere x 0).isSome = true) ∧
    Meets (atTick 199999 ∘ staged true false false) (fun ch => ∃ x, ch.syn.stage = some x ∧ ch.boundaryHere x 0 = none) ∧
    Meets (atTick 200000 ∘ otsAt (2 ^ 96) ∘ staged false false true) (fun ch => ∃ x, ch.syn.stage = some x ∧ x.pp = true ∧ x.tick + 200000 ≤ ch.jour.tick ∧
      -(Int.fdiv (-ch.syn.ots0) (2 ^ 96)) * 2 ^ 96 < ch.otsNext) ∧
    Meets (atTick 200000 ∘ otsAt (2 ^ 95) ∘ staged false false true) (fun ch => ∃ x, ch.syn.stage = some x ∧
      ch.otsNext ≤ -(Int.fdiv (-ch.syn.ots0) (2 ^ 96)) * 2 ^ 96) ∧
    Meets (pls0 none false ∘ kset (F.SYN_PLS_CFG_EN 0) 1) (fun ch => ch.flag (F.SYN_PLS_CFG_EN 0) = true ∧
      ch.plsIdx 0 ch.syn.ots0 * (ch.plsPeriod 0).1 < (ch.otsNext + ch.plsOfs 0) * (ch.plsPeriod 0).2 ∧ (ch.plse 0).seen = none ∧ (ch.plse 0).idx = none ∧
      ch.syn.jumpOts = none ∧ (ch.plse 0).sq = false) ∧
    Meets (pls0 none true ∘ kset (F.SYN_PLS_CFG_EN 0) 1) (fun ch => ch.flag (F.SYN_PLS_CFG_EN 0) = true ∧ (ch.plse 0).sq = true ∧ (ch.plse 0).seen = none) ∧
    Meets (pls0 (some 0) false ∘ kset (F.SYN_PLS_CFG_EN 0) 1) (fun ch => ch.flag (F.SYN_PLS_CFG_EN 0) = true ∧ (ch.plse 0).seen = some 0 ∧
      ¬ (0 + 1) * (ch.plsPeriod 0).1 < (ch.otsNext + ch.plsOfs 0) * (ch.plsPeriod 0).2) ∧
    Meets (fun c => { c with syn := { c.syn with tod := some ⟨0, []⟩ } }) (fun ch => ∃ x, ch.syn.tod = some x ∧ x.due ≤ ch.jour.tick) ∧
    Meets (fun c => { c with syn := { c.syn with tod := some ⟨1, []⟩ } }) (fun ch => ∃ x, ch.syn.tod = some x ∧ ch.jour.tick < x.due) :=
  ⟨meets ⟨_, rfl, by decide⟩, meets ⟨_, rfl, by decide⟩, meets ⟨_, rfl, by decide⟩, meets ⟨_, rfl, by decide⟩, meets ⟨_, rfl, by decide⟩, meets (by decide), meets (by decide),
    meets (by decide), meets ⟨_, rfl, by decide⟩, meets ⟨_, rfl, by decide⟩⟩

theorem test_hyp_Realignment :
    Meets (fun c => { c with syn := { c.syn with raJump := some 0 } }) (fun ch => ∃ t, ch.syn.raJump = some t ∧ ch.reached t = true) ∧
    Meets (fun c => { c with syn := { c.syn with raJump := some (2 ^ 64) } }) (fun ch => ∃ t, ch.syn.raJump = some t ∧ ch.reached t = false) ∧
    Meets (fun c => c.put F.SYN_RA_CTL_ACT 1) (fun ch => ch.cur F.SYN_RA_CTL_ACT = 1 ∧ ch.syn.raJump = none ∧ ch.pdev = 0) ∧
    Meets (fun c => c.put F.SYN_RA_SLEW_RA_SLEW 1000000) (fun ch => bit 0x80000000#32 31 = true ∧ bit 0x80000000#32 30 = false ∧ bit 0xC0000000#32 30 = true ∧
      ch.cur F.SYN_RA_CTL_ACT ≠ 1 ∧ 1 ≤ ch.cur F.SYN_RA_SLEW_RA_SLEW ∧ ch.cur F.SYN_RA_SLEW_RA_SLEW ≤ 1000000) ∧
    Meets (fun c => c.put F.SYN_RA_SLEW_RA_SLEW 1000001) (fun ch => 1000000 < ch.cur F.SYN_RA_SLEW_RA_SLEW) ∧
    Meets (fun c => c.put F.SYN_RA_SLEW_RA_SLEW 0) (fun ch => ch.cur F.SYN_RA_SLEW_RA_SLEW < 1 ∧ bit 0x40000000#32 31 = false) :=
  ⟨meets ⟨_, rfl, by decide⟩, meets ⟨_, rfl, by decide⟩, meets (by decide), meets (by decide), meets (by decide), meets (by decide)⟩

/-- Port 1 in a link state, with a timer. -/
def link1 (st : Nat) (t : Option Nat) (c : Channel) : Channel := ({ c with ports := c.ports.set 1 { c.ports[1] with timer := t } }).put (F.PORT_P_STAT_LINK 1) st

theorem test_hyp_Links :
    Meets (link1 LK_AN none ∘ kset (F.PORT_P_ADV_ABIL 1) 0x40) (fun ch => ch.link 1 = LK_AN ∧ ch.link 1 ≠ LK_TRAIN ∧
      (maskOpen (ch.fld (F.PORT_P_ADV_ABIL 1)) 6 && maskOpen 0x40 6) = true ∧ (∀ k, k < 6 → (maskOpen (ch.fld (F.PORT_P_ADV_ABIL 1)) k && maskOpen 0x40 k) = false) ∧
      (∀ k, k < 7 → (maskOpen (ch.fld (F.PORT_P_ADV_ABIL 1)) k && maskOpen 1 k) = false)) ∧
    Meets (link1 LK_TRAIN (some 0)) (fun ch => ch.link 1 = LK_TRAIN ∧ (∃ t, (ch.ps 1).timer = some t ∧ t ≤ ch.jour.tick) ∧ ch.link 1 ≠ LK_AN ∧ ch.link 1 ≠ LK_ALIGN ∧ ch.link 1 ≠ LK_UP) ∧
    Meets (link1 LK_TRAIN (some 1)) (fun ch => ch.link 1 = LK_TRAIN ∧ ¬ ∃ t, (ch.ps 1).timer = some t ∧ t ≤ ch.jour.tick) ∧
    Meets (link1 LK_ALIGN (some 0)) (fun ch => ch.link 1 = LK_ALIGN ∧ ∃ t, (ch.ps 1).timer = some t ∧ t ≤ ch.jour.tick) ∧
    Meets (link1 LK_UP none) (fun ch => ch.link 1 = LK_UP) ∧ base.safe = false ∧ (base.gput F.FAULT_SAFE_STAT_SAFE 1).safe = true :=
  ⟨meets (by decide), meets ⟨by decide, ⟨0, rfl, by decide⟩, by decide⟩, meets ⟨by decide, by rintro ⟨t, h, g⟩; cases h; exact absurd g (by decide)⟩,
    meets ⟨by decide, 0, rfl, by decide⟩, meets (by decide), by decide, by decide⟩

theorem test_hyp_PortFrames :
    Meets (link1 LK_UP none ∘ kset (F.PORT_P_CFG_MAXF 1) 64 ∘ kset (F.PORT_P_ESMC_RX_EN 1) 1 ∘ kset (F.PORT_P_ESMC_TX_EN 1) 1) (fun ch => ch.link 1 = LK_UP ∧
      ch.fld (F.PORT_P_CFG_MAXF 1) < 65 ∧ 64 ≤ ch.fld (F.PORT_P_CFG_MAXF 1) ∧ (ch.lane (synceLane 1)).exist = true ∧ ch.multipleHere 10 = some 0 ∧
      ch.flag (F.PORT_P_ESMC_RX_EN 1) = true ∧ ch.flag (F.PORT_P_ESMC_TX_EN 1) = true ∧ ch.multipleHere 1 ≠ none) ∧
    Meets (link1 LK_UP none ∘ kset (F.PORT_P_ESMC_RX_EN 1) 0) (fun ch => ch.link 1 = LK_UP ∧ ch.flag (F.PORT_P_ESMC_RX_EN 1) = false) ∧
    Meets id (fun ch => ch.link 1 ≠ LK_UP) ∧
    Meets (atTick 1000000000 ∘ kset (F.PORT_P_ESMC_RX_EN 1) 1 ∘ fun c => c.put (F.PORT_P_ESMC_STAT_QL_LOST 1) 0) (fun ch => ch.flag (F.PORT_P_ESMC_RX_EN 1) = true ∧
      ch.cur (F.PORT_P_ESMC_STAT_QL_LOST 1) = 0 ∧ (ch.ps 1).qlAt + 1000000000 ≤ ch.jour.tick) ∧
    Meets (atTick 999999999) (fun ch => ¬ (ch.ps 1).qlAt + 1000000000 ≤ ch.jour.tick) :=
  ⟨meets (by decide), meets (by decide), meets (by decide), meets (by decide), meets (by decide)⟩

/-- Port 1 in service: UP, with address 02:00:00:00:00:01 and 10.0.0.1, NTP and a profile; the channel may commit. -/
def served (prof : Nat) : Channel → Channel :=
  kset (F.SEAL_P_MAC_HI_MAC_HI 1) 0x0200 ∘ kset (F.SEAL_P_MAC_LO_MAC_LO 1) 1 ∘ kset (F.SEAL_P_IPV4_IPV4 1) 0x0A000001 ∘ kset (F.SEAL_P_SVC_PROFILE 1) prof ∘
    kset (F.SEAL_P_SVC_NTP_EN 1) 1 ∘ kset (F.SEAL_P_SVC_NTS_EN 1) 1 ∘ link1 LK_UP none ∘ (fun c => c.put F.SEAL_CTL_RUN 1)

def mac1 : Bytes := [2#8, 0#8, 0#8, 0#8, 0#8, 1#8]
def mac2 : Bytes := [2#8, 0#8, 0#8, 0#8, 0#8, 2#8]
/-- A PTP message of a type over Ethernet, from 02:00:00:00:00:02 to the destination given: its header, and a body of zeros. -/
def ptpTo (dst : Bytes) (ty n : Nat) : Bytes :=
  dst ++ mac2 ++ [0x88#8, 0xF7#8, BitVec.ofNat 8 ty, 0x12#8] ++ beBytes 2 (34 + n) ++ List.replicate 16 0#8 ++ List.replicate 9 7#8 ++ [1#8, 0#8, 5#8, 0#8, 0#8] ++ List.replicate n 0#8
/-- An NTP request over UDP and IPv4, from 10.0.0.2 to 10.0.0.1: its first byte, and what follows the header. -/
def ntpTo (first : Byte) (rest : Bytes) : Bytes :=
  mac1 ++ mac2 ++ [0x08#8, 0#8, 0x45#8, 0#8] ++ beBytes 2 (76 + rest.length) ++ [0#8, 0#8, 0#8, 0#8, 64#8, 17#8, 0#8, 0#8, 10#8, 0#8, 0#8, 2#8, 10#8, 0#8, 0#8, 1#8] ++
    [0#8, 99#8, 0#8, 123#8] ++ beBytes 2 (56 + rest.length) ++ [0#8, 0#8] ++ [first] ++ List.replicate 47 0#8 ++ rest
/-- An ARP request. -/
def arp : Bytes := List.replicate 6 0xFF#8 ++ mac2 ++ [8#8, 6#8, 0#8, 1#8, 8#8, 0#8, 6#8, 4#8, 0#8, 1#8] ++ List.replicate 20 0#8

/-- Port 1 takes the frame, and finds it of a class. -/
def taken (ch : Channel) (bs : Bytes) (w : RxClass) : Prop :=
  ch.portUp 1 = true ∧ bs.length + 4 ≤ ch.fld (F.PORT_P_CFG_MAXF 1) ∧ ch.classify 1 (parsePkt bs) bs = w

theorem test_hyp_RequestsFiltered_classes :
    Meets (served 1) (fun ch => taken ch (ptpTo mac1 MT_DELAY_REQ 10) (.ptp MT_DELAY_REQ) ∧ taken ch (ptpTo mac1 MT_SIGNALING 10) (.ptp MT_SIGNALING) ∧
      taken ch (ntpTo 0x23#8 []) .ntpPlain ∧ taken ch (ntpTo 0x21#8 (List.replicate 20 0#8)) .ntpMac ∧ taken ch (ntpTo 0x23#8 (extField EF_UID (List.replicate 32 1#8))) .nts ∧
      taken ch arp .exc ∧ taken ch (ptpTo mac1 MT_PDELAY_REQ 20) .unsup ∧ taken ch (ptpTo mac2 MT_DELAY_REQ 10) .notMine) ∧
    Meets (served 4) (fun ch => taken ch (ptpTo mac1 MT_PDELAY_REQ 20) (.ptp MT_PDELAY_REQ)) ∧
    Meets (served 1 ∘ kset F.PORT_CTL_TC_EN 1) (fun ch => taken ch (ptpTo mac2 MT_PDELAY_REQ 20) .transit ∧
      Channel.transitOk ((parsePkt (ptpTo mac2 MT_PDELAY_REQ 20)).payload (ptpTo mac2 MT_PDELAY_REQ 20)) = false ∧ taken ch (ptpTo mac2 MT_SYNC 10) .transit) ∧
    Meets id (fun ch => ch.portUp 1 = false) := by
  refine ⟨meets ?_, meets ?_, meets ?_, meets (by decide)⟩ <;> unfold taken <;> decide +kernel

/-- The gate that a request of 100 bytes meets: whether it lets it through (R199 to R201). -/
def gate (ch : Channel) (bs : Bytes) (lacks fast : Bool) : Option Bool :=
  ((ch.bwRx 1 (bs.length + 4)).requestGate 1 (parsePkt bs) (bs.length + 4) none lacks fast).1.map Prod.fst

theorem test_hyp_RequestsFiltered :
    Meets (served 1) (fun ch => ch.run = true ∧ ch.silent = false ∧ gate ch (ntpTo 0x23#8 []) false true = some false) ∧
    Meets ((fun c => c.put F.SEAL_CTL_RUN 0) ∘ served 1) (fun ch => ch.run = false ∧ gate ch (ntpTo 0x23#8 []) false true = none) ∧
    Meets (served 1 ∘ kset F.SEAL_SVC_CFG_FR_ACT 2) (fun ch => ch.run = true ∧ ch.silent = true) ∧
    Meets (served 1 ∘ kset (F.SEAL_P_SVC_PTP_AUTH_REQ 1) 1) (fun ch => ch.run = true ∧ ch.silent = false ∧ ch.flag (F.SEAL_P_SVC_PTP_AUTH_REQ 1) = true ∧
      ch.ptpAuth ((parsePkt (ptpTo mac1 MT_DELAY_REQ 10)).payload (ptpTo mac1 MT_DELAY_REQ 10)) = .absent) ∧
    Meets (served 1 ∘ fun c => { c with sched := { c.sched with pol := [(c.fld F.SEAL_SVC_CFG_DGRP, { PolEntry.zero with valid := true })] } }) (fun ch => ch.run = true ∧
      gate ch (ntpTo 0x23#8 []) false true = none) := by
  refine ⟨meets ?_, meets ?_, meets ?_, meets ?_, meets ?_⟩ <;> decide +kernel

theorem pmuBy_uncounted (c : Channel) (ev : Nat) (port : Option PortIx) (n : Nat) (h : (upTo 16).filter (c.pmcCounts ev port) = []) : c.pmuBy ev port n = c := by
  unfold Channel.pmuBy
  split
  · rfl
  · rw [h]; rfl

/-- A PTP request of an unknown sender passes the gate, whatever its sample draws, where no counter counts samples. -/
theorem gate_ptp (c0 : Channel) (p : PortIx) (k : Pkt) (len : Nat) (id : Bytes) :
    let c := c0.pmuEvt 0x10 p
    let c2 := (c.free 8).2
    let c3 := c2.pmuEvt 0x16 p
    c.run = true → c.silent = false → c.findClient p k id = none → (upTo 16).filter (c2.pmcCounts 0x19 none) = [] →
    (c3.policeReq (c3.groupOf p k none) len).1 = .green → (c0.requestGate p k len (some id) false true).1 = some (false, none) := by
  intro c c2 c3 hr hs he hf hg
  have hb : Channel.pmuBy c2 0x19 none (c.free 8).1 = c2 := pmuBy_uncounted _ _ _ _ hf
  unfold Channel.requestGate
  simp only [show c0.pmuEvt 0x10 p = c from rfl, hr, hs, he, Option.bind_some, Option.isSome_some, if_true, Option.isNone_none, Option.map_none, hb, show (c.free 8).2 = c2 from rfl,
    show c2.pmuEvt 0x16 p = c3 from rfl, hg, Bool.not_true, Bool.and_false, Bool.false_eq_true, if_false]

/-- Channel time at second 100. -/
def atSec (c : Channel) : Channel := { c with dpll := { c.dpll with ctr := 100 * 2 ^ 96 } }
/-- Association 0, for NTP with HMAC-SHA-256, over the key of slot 0. -/
def ntpSa (keys : List DelKey) : Channel → Channel :=
  kset (F.SEAL_SA_CFG_VALID 0) 1 ∘ kset (F.SEAL_SA_CFG_NTP 0) 1 ∘ kset (F.SEAL_SA_CFG_ALG 0) 1 ∘ kset (F.SEAL_SA_KEYID_KEYID 0) 9 ∘ fun c => { c with sealb := { c.sealb with keys := keys } }
def key0 (alg : Nat) : DelKey := ⟨0, alg, true, List.replicate 32 0x5A#8⟩
/-- An NTP request with the MAC of that association. -/
def macReq : Bytes :=
  let m : Bytes := [0x23#8] ++ List.replicate 47 0#8
  ntpTo 0x23#8 (beBytes 4 9 ++ (hmacSha256 (key0 2).bytes m).take 16)

theorem test_hyp_RequestsAnswered :
    Meets (served 1 ∘ atSec) (fun ch => (toPtp (ch.stampIn 1 0 0).t (ch.stampIn 1 0 0).teb).isSome = true ∧
      ((ch.bwRx 1 92).requestGate 1 (parsePkt (ptpTo mac1 MT_DELAY_REQ 10)) 92 (some (List.replicate 9 7#8 ++ [1#8])) false true).1 = some (false, none)) ∧
    Meets (served 4) (fun ch => (toPtp (ch.stampIn 1 0 0).t (ch.stampIn 1 0 0).teb) = none) ∧
    Meets (served 1 ∘ ntpSa [key0 2]) (fun ch => taken ch macReq .ntpMac ∧ gate ch macReq false true = some false ∧
      ch.ntpAuth ((parsePkt macReq).payload macReq) = .ok 0) ∧
    Meets (served 1) (fun ch => ch.ntpAuth ((parsePkt macReq).payload macReq) = .fail) ∧
    Meets (served 1 ∘ ntpSa []) (fun ch => ch.ntpAuth ((parsePkt macReq).payload macReq) = .gone) ∧
    Meets (fun c => { c with sealb := { c.sealb with exc := List.replicate 256 ⟨0, none⟩ } }) (fun ch => ch.excFull = true) ∧
    Meets (fun c => { c with sealb := { c.sealb with exc := List.replicate 255 ⟨0, none⟩ } }) (fun ch => ch.excFull = false) := by
  refine ⟨meets ⟨?_, gate_ptp _ _ _ _ _ ?_ ?_ ?_ ?_ ?_⟩, meets ?_, meets ?_, meets ?_, meets ?_, meets ?_, meets ?_⟩ <;> (try unfold taken) <;> decide +kernel


/-- Entry 0 of the NTS keys VALID, with key identifier 0. -/
def nts (keys : List DelKey) : Channel → Channel := kset (F.SEAL_NTS_KEY_CFG_VALID 0) 1 ∘ fun c => { c with sealb := { c.sealb with keys := keys } }
/-- An NTS request with a cookie. -/
def ntsReq (cookie : Bytes) : Bytes := ntpTo 0x23#8 (extField EF_UID (List.replicate 32 1#8) ++ extField EF_COOKIE cookie ++ extField EF_AUTH (List.replicate 40 0#8))

theorem test_hyp_NtsRequests :
    Meets (served 1 ∘ nts []) (fun ch => taken ch (ntsReq []) .nts ∧ gate ch (ntsReq []) false true = some false ∧
      ((ntpFields ((parsePkt (ntsReq [])).payload (ntsReq []))).1.map (fun z => (z.1, z.2.1.length))) = [(EF_UID, 32), (EF_COOKIE, 0), (EF_AUTH, 40)] ∧
      ch.openCookie [] = (none, false) ∧ ch.openCookie (List.replicate 100 0#8) = (none, true)) ∧
    Meets (served 1 ∘ nts [key0 3]) (fun ch => (ch.ntsKey 0) = some (key0 3) ∧ taken ch (ntsReq (List.replicate 100 0#8)) .nts) := by
  refine ⟨meets ?_, meets ?_⟩ <;> unfold taken <;> decide +kernel

/-- Port 1's lane client follows the master 02:00:00:00:00:02, over Ethernet; its state is `l`. -/
def follows (l : LaneClient) (c : Channel) : Channel :=
  { c with sealb := { c.sealb with masters := [⟨10, 16, false, true, false, 0, 0, 0, 60, mac2, 0, [], List.replicate 10 0#8⟩] }, ports := c.ports.set 1 { c.ports[1] with lc := l } }
/-- What the lane takes of a message of a type, with a body of `n` zeros. -/
def takes (ch : Channel) (ty n : Nat) : Option Bytes := (ch.laneTake 1 (ptpTo mac1 ty n) ty).1
def msg (ty n : Nat) : Bytes := (parsePkt (ptpTo mac1 ty n)).payload (ptpTo mac1 ty n)

/-- The sequenceId of the messages is 5. -/
theorem test_hyp_MasterMessages :
    Meets (served 1 ∘ follows .reset) (fun ch => takes ch MT_SYNC 10 = some (msg MT_SYNC 10) ∧ takes ch MT_FOLLOW_UP 10 = some (msg MT_FOLLOW_UP 10) ∧
      takes ch MT_DELAY_RESP 20 = some (msg MT_DELAY_RESP 20) ∧ takes ch MT_ANNOUNCE 30 = some (msg MT_ANNOUNCE 30) ∧ takes ch MT_PDELAY_RESP 20 = some (msg MT_PDELAY_RESP 20) ∧
      takes ch MT_PDELAY_RESP_FU 20 = some (msg MT_PDELAY_RESP_FU 20) ∧ (ch.lc 1).mpd = none ∧ (ch.lc 1).pend = none ∧ (ch.lc 1).dreq = none ∧ (ch.lc 1).pdelay = none ∧
      ptpTwoStep (msg MT_SYNC 10) = false ∧ maskOpen (byteAt (msg MT_ANNOUNCE 30) 7) 2 = false ∧ (ch.laneTake 1 (ptpTo mac1 MT_PDELAY_RESP_FU 20) MT_PDELAY_RESP).1 = none) ∧
    Meets (served 1 ∘ follows { LaneClient.reset with mpd := some 7, pend := some ⟨5, 0, 0, 0, 0⟩, dreq := some (5, some 9), pairs := [(1, 2)], pdelay := some ⟨5, some 1, none⟩ }) (fun ch =>
      (ch.lane (ptpLane 1)).exist = true ∧ (ch.lc 1).mpd = some 7 ∧ (∃ z, (ch.lc 1).pend = some z ∧ z.seq = ptpSeq (msg MT_FOLLOW_UP 10)) ∧
      (ch.lc 1).dreq = some (ptpSeq (msg MT_DELAY_RESP 20), some 9) ∧ (ch.lc 1).pairs.find? (fun z => decide (z.2 < 9)) = some (1, 2) ∧
      (ch.lc 1).pdelay = some ⟨ptpSeq (msg MT_PDELAY_RESP 20), some 1, none⟩) ∧
    Meets (served 1 ∘ follows { LaneClient.reset with dreq := some (5, some 2), pairs := [(1, 2)], pdelay := some ⟨5, some 1, some (2, 3)⟩ } ∘ kset F.SEAL_CLK_ID_HI_ID_HI 0 ∘ kset F.SEAL_CLK_ID_LO_ID_LO 0) (fun ch =>
      (ch.lc 1).pairs.find? (fun z => decide (z.2 < 2)) = none ∧ (ch.lc 1).pdelay = some ⟨5, some 1, some (2, 3)⟩ ∧
      (∃ b, takes ch MT_DELAY_RESP 20 = some b ∧ slice (b.take 52 ++ beBytes 2 2) 44 10 = ch.portId 1)) ∧
    Meets (served 1) (fun ch => takes ch MT_SYNC 10 = none ∧ takes ch MT_ANNOUNCE 30 = none ∧ takes ch MT_PDELAY_RESP 20 = none) := by
  refine ⟨meets ?_, meets ⟨?_, ?_, ⟨_, rfl, ?_⟩, ?_⟩, meets ⟨?_, ?_, _, rfl, ?_⟩, meets ?_⟩ <;> decide +kernel

/-- A Sync and an Announce frame to another station, the latter's body an AUTHENTICATION TLV after its fixed part. -/
def authAnn : Bytes := mac2 ++ mac2 ++ [0x88#8, 0xF7#8, 0x0B#8, 0x12#8] ++ beBytes 2 90 ++ List.replicate 60 0#8 ++ beBytes 2 0x8009 ++ beBytes 2 22 ++ List.replicate 22 0#8

theorem test_hyp_TransitFrames :
    Meets (served 1 ∘ kset F.PORT_CTL_TC_EN 1) (fun ch => taken ch (ptpTo mac2 MT_SYNC 10) .transit ∧ Channel.transitOk ((parsePkt (ptpTo mac2 MT_SYNC 10)).payload (ptpTo mac2 MT_SYNC 10)) = true ∧
      (ptpTlvs ((parsePkt (ptpTo mac2 MT_SYNC 10)).payload (ptpTo mac2 MT_SYNC 10))).find? (fun t => t.1 == 0x8009) = none) ∧
    Meets (served 1 ∘ kset F.PORT_CTL_TC_EN 1 ∘ fun c => c.put F.PORT_CTL_TNK 0) (fun ch => taken ch authAnn .transit ∧ ch.fld F.PORT_CTL_TNK = 0 ∧
      (ptpTlvs ((parsePkt authAnn).payload authAnn)).find? (fun t => t.1 == 0x8009) = some (0x8009, List.replicate 22 0#8, 64) ∧ ch.saOfTlv (List.replicate 22 0#8) = none) ∧
    Meets (served 1 ∘ kset F.PORT_CTL_TC_EN 1 ∘ kset (F.SEAL_SA_CFG_VALID 0) 1 ∘ kset (F.SEAL_SA_CFG_NTP 0) 0 ∘ kset (F.SEAL_SA_CFG_TRANSIT 0) 1 ∘ kset (F.SEAL_SA_CFG_ALG 0) 1) (fun ch =>
      taken ch authAnn .transit ∧ ch.saOfTlv (List.replicate 22 0#8) = some 0 ∧ ch.flag (F.SEAL_SA_CFG_TRANSIT 0) = true ∧ (ch.saKey 0).isSome = false) ∧
    Meets ((fun c => { c with sealb := { c.sealb with keys := [key0 2] } }) ∘ kset (F.SEAL_SA_CFG_VALID 0) 1 ∘ kset (F.SEAL_SA_CFG_NTP 0) 0 ∘ kset (F.SEAL_SA_CFG_TRANSIT 0) 1 ∘ kset (F.SEAL_SA_CFG_ALG 0) 1) (fun ch =>
      (ch.saKey 0).isSome = true ∧ ch.ptpAuth ((parsePkt authAnn).payload authAnn) = .fail ∧
      (let m := (parsePkt authAnn).payload authAnn
       ch.ptpAuth (m.take 74 ++ Channel.icv (ch.saAlg 0) (key0 2).bytes 0 (m.take 74) (m.take 74)) = .ok 0)) := by
  refine ⟨meets ?_, meets ?_, meets ?_, meets ?_⟩ <;> (try unfold taken) <;> decide +kernel

/-- A client of port 1 over Ethernet whose Sync grant has the period and the expiry given. -/
def client (exp : Int) : Client := ⟨false, true, false, false, false, 1, 255, 0, 0, mac2, [], List.replicate 10 7#8, 0, some (0, exp), none, none, 0, 0, 0, 0, 0, 0⟩
def withClient (exp : Int) (c : Channel) : Channel := { c with sealb := { c.sealb with clients := [(0, client exp)] } }
/-- A frame of 60 bytes that waits in queue 63 of port 1. -/
def general : QFrame := ⟨List.replicate 60 0#8, 14, 44, 0xB, 0, .none, none, .none, [], false, false, none, none, 0, false, 0⟩
def queued (f : QFrame) (c : Channel) : Channel := c.putEq 1 63 { EQueue.empty with frames := [f] }

theorem test_hyp_ServiceSends :
    Meets (withClient 60) (fun ch => ch.sealb.built = [] ∧ ch.client? 0 = some (client 60) ∧ ch.dueHere (logGt 0) (sar (0 * logGt 0) 18) = true ∧ ch.silent = false ∧ ch.client? 1 = none) ∧
    Meets ((fun c => { c with dpll := { c.dpll with ctr := 2 ^ 95, ctr0 := 2 ^ 95 } }) ∘ withClient 60) (fun ch => ch.dueHere (logGt 0) 0 = false) ∧
    Meets (fun c => { c with sealb := { c.sealb with built := [(1, 0)] } }) (fun ch => ¬ ch.sealb.built.contains (0 + 1, b2n false) = false) ∧
    Meets (served 1 ∘ kset (F.SEAL_P_SVC_MC_EN 1) 1) (fun ch => ch.mcDests 1 ≠ [] ∧ ch.silent = false ∧ ch.dueHere (logGt (ch.sfld (F.SEAL_P_LOG_ANN 1))) 0 = true) ∧
    Meets (served 4 ∘ kset (F.SEAL_P_SVC_MC_EN 1) 1 ∘ follows .reset) (fun ch => ch.isGptp 1 = true ∧ ch.mcAddr 1 = some mcMacAlt ∧ (ch.master 1).isSome = true ∧
      ch.dueHere (logGt (ch.sfld (F.SEAL_P_LOG_PDELAY 1))) 0 = true ∧ ch.sealb.built.contains (0, 4 + 1) = false) ∧
    Meets (served 4) (fun ch => ch.isGptp 1 = true ∧ ch.mcAddr 1 = none ∧ ch.master 1 = none ∧ ch.mcDests 1 = []) ∧
    Meets (served 2 ∘ follows .reset) (fun ch => ch.isGptp 1 = false ∧ ch.negotiates 1 = false ∧ ch.profile 1 ≠ 0 ∧ ∃ r g, ch.master 1 = some r ∧ ch.dreqLog 1 r = some g ∧
      ch.dueHere (logGt g) 0 = true ∧ ch.sealb.built.contains (0, 6 + 1) = false) ∧
    Meets (served 1 ∘ follows .reset) (fun ch => (ch.master 1).isSome = true ∧ ch.negotiates 1 = true ∧ (ch.lc 1).dresp = none ∧ (ch.laneRecs 1).length ≠ 0 ∧
      (ch.lc 1).sync = none ∧ (ch.lc 1).ann = none) ∧
    Meets (served 1 ∘ follows { LaneClient.reset with sync := some ⟨0, 0⟩, dresp := some ⟨1, 0⟩ }) (fun ch => ∃ z, (ch.lc 1).sync = some z ∧ z.exp ≤ ch.nowSec) ∧
    Meets (served 1 ∘ follows { LaneClient.reset with sync := some ⟨1, 0⟩ }) (fun ch => (ch.lc 1).dresp = none ∧ (ch.lc 1).ann = none ∧ ∃ z, (ch.lc 1).sync = some z ∧ ch.nowSec < z.exp) := by
  refine ⟨meets ?_, meets ?_, meets ?_, meets ?_, meets ?_, meets ?_, meets ⟨?_, ?_, ?_, _, _, rfl, rfl, ?_, ?_⟩, meets ?_, meets ⟨_, rfl, ?_⟩, meets ⟨?_, ?_, _, rfl, ?_⟩⟩ <;> decide +kernel

theorem test_hyp_ServiceSends_frames :
    Meets (queued general ∘ kset (F.SCHED_Q_CFG_EN 1 63) 1 ∘ served 1) (fun ch => ch.portUp 1 = true ∧ ch.run = true ∧ ch.silent = false ∧ ch.dropSilent 1 = ch ∧ (ch.sp 1).freeAt ≤ ch.jour.tick ∧ ch.select? 1 = some 63 ∧
      (ch.ps 1).lost = false ∧
      (ch.commitQ 1 63).1 = some general ∧ ¬ (general.msg < 8 ∧ toPtp (ch.stampOut 1 0 0).t (ch.stampOut 1 0 0).teb = none)) ∧
    Meets (queued { general with msg := 0 } ∘ served 1 ∘ fun c => { c with dpll := { c.dpll with ctr := -2 ^ 96 } }) (fun ch => toPtp (ch.stampOut 1 0 0).t (ch.stampOut 1 0 0).teb = none) ∧
    Meets (queued general ∘ kset (F.SCHED_Q_CFG_EN 1 63) 1 ∘ (fun c => { c with ports := c.ports.set 1 { c.ports[1] with lost := true } }) ∘ kset (F.SEAL_P_SVC_PROFILE 1) 1 ∘
      fun c => c.put F.SEAL_CTL_RUN 1) (fun ch => ch.portUp 1 = false ∧ (ch.ps 1).lost = true ∧ ch.run = true ∧ (ch.sp 1).freeAt ≤ ch.jour.tick ∧ ch.select? 1 = some 63) ∧
    Meets (served 1) (fun ch => ch.portUp 1 = true ∧ ch.select? 1 = none ∧ (ch.commitQ 1 63).1 = none ∧ ch.sealb.exc = []) ∧
    Meets (fun c => { c with sealb := { c.sealb with exc := [⟨1, none⟩] } }) (fun ch => ∃ z r, ch.sealb.exc = z :: r ∧ z.frame = none) ∧
    Meets (withClient 0) (fun ch => ch.client? 0 = some (client 0) ∧ (client 0).sync.any (fun x => decide (x.2 ≤ ch.nowSec)) = true ∧ ch.hasPart .sealb SEAL_CT_CMD = true ∧
      bit 0x80000000#32 31 = true ∧ getField 0x80000000#32 0 18 = 0 ∧ (client 0).granted = true) ∧
    Meets (withClient 1) (fun ch => (client 1).sync.any (fun x => decide (x.2 ≤ ch.nowSec)) = false) ∧
    (let s := cmd 8 CS_RUNNING id base
     s.scanning = false ∧ (∃ m, s.running? 5 8 = some m ∧ m.begun = false) ∧ (s.gput F.HOSTIF_PCIE_STAT_LINK_UP 0).linkUp = false ∧ (s.gput F.HOSTIF_PCIE_STAT_LINK_UP 1).linkUp = true) ∧
    (leAt [1#8, 8#8, 15#8, 0#8, 2#8] 0 1 = 1 ∧ leAt [1#8, 8#8, 15#8, 0#8, 2#8] 1 1 = 8 ∧ leAt [1#8, 8#8, 15#8, 0#8, 2#8] 2 2 = 0x000F ∧ leAt [1#8, 9#8, 15#8, 0#8, 2#8] 1 1 = 9) :=
  ⟨meets (by decide +kernel), meets (by decide +kernel), meets (by decide +kernel), meets (by decide +kernel), meets ⟨_, _, rfl, rfl⟩, meets (by decide +kernel), meets (by decide +kernel),
    ⟨by decide, ⟨_, rfl, by decide⟩, by decide, by decide⟩, by decide⟩

/-- The registers of POL_CMD with rates and bursts, and the entry's state. -/
def pol (cir cbs : Nat) (valid : Bool) (c : Channel) : Channel :=
  ({ c with sched := { c.sched with pol := [(0, { PolEntry.zero with valid := valid, nGreen := 1 })] } }.setWord .sched SCHED_POL_CIR_LO (BitVec.ofNat 32 cir)).put F.SCHED_POL_CBS_BURST cbs

theorem test_hyp_Policers :
    bit 0xE0000000#32 31 = true ∧ bit 0xE0000000#32 29 = true ∧ bit 0x80000000#32 29 = false ∧
    Meets (pol 0 0 false) (fun ch => (ch.polEnt (ch.cur F.SCHED_POL_IDX_INDEX)).valid = false ∧ (ch.word .sched SCHED_POL_CIR_LO).toNat = 0 ∧
      (ch.word .sched SCHED_POL_PIR_LO).toNat = 0 ∧ ch.cur F.SCHED_POL_CBS_BURST ≤ ch.cur F.SCHED_POL_PBS_BURST) ∧
    Meets (pol 0 0 true) (fun ch => (ch.polEnt (ch.cur F.SCHED_POL_IDX_INDEX)).valid = true) ∧
    Meets (pol 1 0 true) (fun ch => (ch.word .sched SCHED_POL_PIR_LO).toNat < (ch.word .sched SCHED_POL_CIR_LO).toNat) :=
  ⟨by decide, by decide, by decide, meets (by decide +kernel), meets (by decide +kernel), meets (by decide +kernel)⟩

/-- A list switch of port 1 that waits for a list time. -/
def swap1 (at' : Int) (c : Channel) : Channel := (c.setSp 1 { c.sp 1 with swap := some ⟨at', 1, 1000, 0⟩ }).put (F.SCHED_P_GCMD_PEND 1) 1

theorem test_hyp_Gates :
    Meets (swap1 0) (fun ch => ch.hasPart .sched (SCHED_P_GCMD 1) = true ∧ (ch.sp 1).swap ≠ none ∧ ch.cur (F.SCHED_P_GCMD_PEND 1) = 1 ∧ (ch.sp 1).swapNext = none ∧ bit 0xC0000001#32 30 = true ∧
      bit 0x80000001#32 31 = true ∧ bit 0x80000001#32 30 = false ∧ bit 0x40000000#32 31 = false ∧ ∃ w, (ch.sp 1).swap = some w ∧ w.at' < ch.listTime 1 (ch.ctrAfter 1)) ∧
    Meets (swap1 (2 ^ 140)) (fun ch => ∃ w, (ch.sp 1).swap = some w ∧ ch.listTime 1 (ch.ctrAfter 1) ≤ w.at') ∧
    Meets id (fun ch => ch.cur (F.SCHED_P_GCMD_PEND 1) ≠ 1 ∧ (ch.sp 1).swap = none ∧ (ch.put (F.SCHED_P_GCMD_A_LEN 1) 0).adminOk 1 = false ∧ ch.gated 1 = false) ∧
    Meets ((fun c => (c.put (F.SCHED_P_A_CYCLE_CYCLE 1) 1000).put (F.SCHED_GCL_INT_INTERVAL 1 (c.adminBank 1) 0) 1000)) (fun ch => (ch.put (F.SCHED_P_GCMD_A_LEN 1) 1).adminOk 1 = true) ∧
    Meets (kset (F.SCHED_P_GCFG_GATE_EN 1) 1 ∘ fun c => c.put (F.SCHED_P_GSTAT_OPER_VALID 1) 1) (fun ch => ch.gated 1 = true) ∧
    Meets (atTick 200 ∘ kset (F.SCHED_P_SAMP_EN 1) 1 ∘ kset (F.SCHED_P_SAMP_PER 1) 0) (fun ch => ch.flag (F.SCHED_P_SAMP_EN 1) = true ∧
      ch.jour.tick % ((ch.fld (F.SCHED_P_SAMP_PER 1) + 1) * 200) = 0 ∧ ∀ q : PortIx, (ch.ps q).lost = false) ∧
    Meets (atTick 199 ∘ kset (F.SCHED_P_SAMP_EN 1) 1 ∘ kset (F.SCHED_P_SAMP_PER 1) 0) (fun ch => ch.jour.tick % ((ch.fld (F.SCHED_P_SAMP_PER 1) + 1) * 200) ≠ 0) :=
  ⟨meets ⟨by decide, by decide, by decide, by decide, by decide, by decide, by decide, by decide, _, rfl, by decide⟩, meets ⟨_, rfl, by decide⟩, meets (by decide +kernel), meets (by decide +kernel),
    meets (by decide), meets (by decide), meets (by decide)⟩

/-- The header of a frame at the head of the host transmit ring of channel 0, port 1: LEN and the queue given. -/
def hostTx (len q : Byte) (s : State) : State :=
  ({ s with host := { s.host with htx := [(HTX_BASE + HTX_RING, len), (HTX_BASE + HTX_RING + 2, q)] } }).gput (F.HOSTIF_HTX_TAIL_TAIL 0 1) 2

theorem test_hyp_HostFrames :
    (let s := hostTx 60 63 base
     let h := s.htxBytes 0 1 (s.gcur (F.HOSTIF_HTX_HEAD_HEAD 0 1)) 16
     s.scanning = false ∧ s.gcur (F.HOSTIF_HTX_HEAD_HEAD 0 1) ≠ s.gcur (F.HOSTIF_HTX_TAIL_TAIL 0 1) ∧ s.running 0 = true ∧ leAt h 0 2 = 60 ∧ leAt h 2 1 = 63 ∧ leAt h 3 1 = 0 ∧
       leAt h 8 8 = 0 ∧ leAt h 0 2 + 4 ≤ full.fld (F.PORT_P_CFG_MAXF 1)) ∧
    (hostTx 60 63 base).host.took.contains ((0 : ChanIx), (1 : PortIx)) = false ∧ ({ base with host := { base.host with took := [(0, 1)] } } : State).host.took.contains ((0 : ChanIx), (1 : PortIx)) = true ∧
    (let s := hostTx 59 63 base
     leAt (s.htxBytes 0 1 (s.gcur (F.HOSTIF_HTX_HEAD_HEAD 0 1)) 16) 0 2 < 60) ∧
    (let s := hostTx 60 63 State.reset
     s.scanning = false ∧ s.running 0 = false ∧ s.gcur (F.HOSTIF_HTX_HEAD_HEAD 0 1) ≠ s.gcur (F.HOSTIF_HTX_TAIL_TAIL 0 1)) ∧
    base.gcur (F.HOSTIF_HTX_HEAD_HEAD 0 1) = base.gcur (F.HOSTIF_HTX_TAIL_TAIL 0 1) := by decide +kernel

/-- A paired unit B in a state of R266, both lanes up; `f` changes its twin block. -/
def twin (st : Nat) (f : TwinSt → TwinSt) : State :=
  ({ base with twin := f { base.twin with role := true, paired := true, unitA := false, laneUp := #v[true, true] }, ch := base.ch.set 0 full } : State).gput F.TWIN_STAT_STATE st
/-- A racking of channel 0. -/
def racking (drill : Bool) (done : List (ChanIx × Nat)) (claim : Bool) (t : TwinSt) : TwinSt := { t with rack := some ⟨0, drill, [0], done, claim, [], none, false⟩ }
/-- A frame between the twins, of a type, for a channel, with its payload (R281). -/
def twinBytes (ty ch : Byte) (pl : Bytes) : Bytes :=
  let b := [ty, ch] ++ leBytes 2 pl.length ++ List.replicate 12 0#8 ++ pl
  b ++ leBytes 4 (crc32 b)

/-- A round of 1,400 ticks that began at tick 0 and ends, unit B having sent `sent` with EPOCH 1 (whose claim of PRIO 64 is 384). -/
def round (st sent : Nat) (f : TwinSt → TwinSt) : State :=
  ({ twin st (fun t => f { t with inRound := some sent, roundAt := some 0 }) with tick := 1400 } : State).gput F.TWIN_EPOCH_EPOCH 1

/-- A round is due 2,000 ticks after the last began, and not before the last one's end. -/
theorem test_hyp_ClaimRounds_starts :
    (let s := twin TW_ACTIVE id
     s.scanning = false ∧ s.paired = true ∧ s.twin.inRound = none ∧ s.twin.roundAt = none ∧ s.safe = false) ∧
    (let s := { twin TW_ACTIVE (fun t => { t with roundAt := some 0 }) with tick := 1999 }
     s.twin.roundAt = some 0 ∧ ¬ 0 + ROUND_TICKS ≤ s.tick ∧ 0 + ROUND_TICKS ≤ s.tick + 1) ∧
    (let s := { round TW_ACTIVE 384 id with tick := 1399 }
     s.twin.inRound ≠ none ∧ s.tick < s.twin.roundAt.getD 0 + ROUND_LEN ∧ ¬ s.tick = 0 + ROUND_LEN) ∧
    (let s := (twin TW_ACTIVE id).gput F.FAULT_SAFE_STAT_SAFE 1
     s.scanning = false ∧ s.paired = true ∧ s.safe = true ∧ s.twin.inRound = none) ∧
    (let s := (twin TW_ACTIVE id).gput F.TWIN_STAT_DRIVE 1
     s.gflag F.TWIN_STAT_DRIVE = true ∧ s.running 0 = true ∧ s.safe = false ∧ s.paired = true ∧ s.twin.unitA = false) ∧ base.gflag F.TWIN_STAT_DRIVE = false := by decide

/-- A round won, lost to a higher word, bad by each of its grounds, in the safe state, and the sixteenth good one under CLAIM_BAD. -/
theorem test_hyp_ClaimRounds_ends :
    (∀ st ∈ [TW_ACTIVE, TW_RACKING], let s := round st 384 (racking false [(0, 0)] true)
     s.scanning = false ∧ s.twin.inRound = some 384 ∧ s.twin.roundAt = some 0 ∧ s.tick = 0 + ROUND_LEN ∧ s.effClaim = 384 ∧ s.twst = st ∧ s.safe = false ∧
       s.gflag F.TWIN_STAT_CLAIM_BAD = false ∧ (384#32).toNat = 384 ∧ 384 < (385#32).toNat ∧ s.twin.won = false ∧ ∃ k, s.twin.rack = some k) ∧
    (let s := round TW_ACTIVE 384 (fun t => { t with won := true, peerClaims := [(385, 7)] })
     s.effClaim = 384 ∧ s.twin.won = true ∧ (∃ e ∈ s.twin.peerClaims, 384 < e.1) ∧ (383#32).toNat < 384) ∧
    (let s := (round TW_ACTIVE 384 id).gput F.FAULT_SAFE_STAT_SAFE 1
     s.safe = true ∧ s.twin.inRound = some 384 ∧ s.effClaim = 0) ∧
    (let s := (round TW_STANDBY 0 (fun t => { t with goodRounds := 15, peerClaims := [(300, 0)] })).gput F.TWIN_STAT_CLAIM_BAD 1
     s.effClaim = 0 ∧ s.gflag F.TWIN_STAT_CLAIM_BAD = true ∧ s.twin.goodRounds + 1 = 16 ∧ s.twst = TW_STANDBY) ∧
    (let s := (round TW_ACTIVE 384 (fun t => { t with noDrive := true })).gput F.TWIN_STAT_CLAIM_BAD 1
     s.gflag F.TWIN_STAT_CLAIM_BAD = true ∧ s.twin.noDrive = true ∧ s.effClaim = 384) := by
  refine ⟨?_, by decide, by decide, by decide, by decide⟩
  intro st h; simp only [List.mem_cons, List.not_mem_nil, or_false] at h
  rcases h with rfl | rfl <;> exact ⟨by decide, rfl, rfl, by decide, by decide, by decide, by decide, by decide, by decide, by decide, rfl, _, rfl⟩

/-- A heartbeat word of unit A in state STANDBY. -/
def hb : Word := BitVec.ofNat 32 ((0xB7 * 65536 + 0x50 * 256) * 256 + crc8 (beBytes 3 (0xB7 * 65536 + 0x50 * 256)))
/-- The payload of an HB frame of unit A in state STANDBY; `echo` in its last stamps. -/
def hbPl (echo : Byte) : Bytes := [2#8, 1#8] ++ List.replicate 14 0#8 ++ [echo] ++ List.replicate 47 0#8

theorem test_hyp_Heartbeats :
    (let s := twin TW_STANDBY id
     s.scanning = false ∧ s.paired = true ∧ s.safe = false ∧ s.twin.laneUp[1] = true ∧ hb.toNat / 2 ^ 24 = 0xB7 ∧ hb.toNat % 256 = crc8 (beBytes 3 (hb.toNat / 256)) ∧
       bit hb 20 ≠ s.twin.unitA ∧ getField hb 21 3 ≠ TW_FENCED ∧ (0#32).toNat / 2 ^ 24 ≠ 0xB7 ∧ s.laneTakes 1 = true ∧ twinSound (twinBytes 1 0xFF (hbPl 0)) ∧
       ¬ twinSound (twinBytes 1 0 (hbPl 0)) ∧ twinSound (twinBytes 6 3 [1#8, 0#8, 0#8, 0#8]) ∧ leAt (twinBytes 1 0xFF (hbPl 0)) 0 1 = 1 ∧
       (leAt (hbPl 0) 1 1 % 2 == 1) ≠ s.twin.unitA ∧ leAt (hbPl 0) 0 1 ≠ TW_FENCED ∧ s.gfld F.TWIN_PEER_ID_LO_ID_LO + 2 ^ 32 * s.gfld F.TWIN_PEER_ID_HI_ID_HI = 0 ∧
       leAt (hbPl 0) 16 8 = 0 ∧ leAt (hbPl 0) 24 8 = 0 ∧ leAt (hbPl 1) 16 8 ≠ 0 ∧ (s.gput F.TWIN_STAT_MOSC_DIFF 1).gflag F.TWIN_STAT_MOSC_DIFF = true) ∧
    (let s := twin TW_STANDBY (fun t => { t with unitA := true, laneUp := #v[false, false] })
     (leAt (hbPl 0) 1 1 % 2 == 1) = s.twin.unitA ∧ s.laneTakes 1 = false) ∧ base.paired = false := by
  unfold twinSound; decide +kernel

/-- Heartbeats go out 20,000 ticks after each other; an offset 5,001 ps from one of the last second is a move, one 5,000 ps from it is none. -/
theorem test_hyp_Heartbeats_times :
    (let s := { twin TW_STANDBY (fun t => { t with hbAt := some 0 }) with tick := 20000 }
     s.paired = true ∧ s.safe = false ∧ ∀ t, s.twin.hbAt = some t → t < s.tick ∧ (s.tick - t) % HB_TICKS = 0) ∧
    (let s := { twin TW_STANDBY (fun t => { t with hbAt := some 0 }) with tick := 19999 }
     ∃ t, s.twin.hbAt = some t ∧ ¬ (t < s.tick ∧ (s.tick - t) % HB_TICKS = 0)) ∧ (twin TW_STANDBY id).twin.hbAt = none ∧
    (∀ e ∈ [((5001 : Int), true), (5000, false)], let s := twin TW_STANDBY (fun t => { t with offHist := [(0, e.1)] })
     let r := stampDiff (linkStamp s.tick 0) (leAt (hbPl 0) 16 8) - stampDiff (leAt (hbPl 0) 8 8) (leAt (hbPl 0) 24 8)
     let tofs := stampDiff (leAt (hbPl 0) 8 8) (linkStamp s.tick 0) + Int.fdiv r 2 + signed 32 (s.gfld F.TWIN_TCAL_TCAL)
     s.twin.offs = [] ∧ (decide (s.tick < 0 + SEC_TICKS ∧ 5000 < (tofs - e.1).natAbs)) = e.2 ∧ s.gflag F.TWIN_STAT_MOSC_DIFF = false) := by decide +kernel

theorem test_hyp_MissesAndStates :
    (let s := ({ twin TW_STANDBY (fun t => { t with lastA := some 0 }) with tick := 160000 } : State).gput F.TWIN_STAT_PATH_A 1
     s.twin.lastA = some 0 ∧ 0 + MISS_TICKS ≤ s.tick ∧ s.paired = true ∧ s.twin.declared = false ∧ s.gcur F.TWIN_STAT_PATH_B ≠ 1 ∧ s.safe = false ∧ s.twst = TW_STANDBY ∧
       s.feedsOk = false ∧ (s.gput F.PWR_STAT_FEEDS_OK 1).feedsOk = true) ∧
    ({ twin TW_STANDBY (fun t => { t with lastA := some 0 }) with tick := 159999 } : State).tick < 0 + MISS_TICKS ∧
    (let s := (twin TW_ACTIVE id).gput F.TWIN_STAT_PATH_B 1
     s.twst = TW_ACTIVE ∧ s.gcur F.TWIN_STAT_PATH_B = 1) ∧
    (let s := twin TW_DRILL (racking true [] false)
     s.twst = TW_DRILL ∧ ∃ k, s.twin.rack = some k) ∧
    (let s := twin TW_STANDBY (fun t => { t with bootAt := some 0 })
     ∃ t, s.twin.bootAt = some t ∧ t ≤ s.tick) ∧
    (let s := twin TW_ACTIVE (fun t => { t with bootAt := some 1 })
     s.twst ≠ TW_STANDBY ∧ ∃ t, s.twin.bootAt = some t ∧ s.tick < t) ∧
    getField 0x10000000#32 27 5 = 2 ∧ getField 0x08000000#32 27 5 = 1 ∧ getField 0x18000000#32 27 5 = 3 ∧ (twin TW_FENCED id).twst = TW_FENCED ∧ (twin TW_FENCED id).open .mspi :=
  ⟨by decide, by decide, by decide, ⟨by decide, _, rfl⟩, ⟨0, rfl, by decide⟩, ⟨by decide, 1, rfl, by decide⟩, by decide, by decide, by decide, by decide,
    by decide, by decide, by decide⟩

theorem test_hyp_TwinsStream :
    (let s := twin TW_ACTIVE id
     s.scanning = false ∧ s.streaming = true ∧ s.safe = false ∧ s.running 0 = true ∧ s.ch[0].secondHere ≠ none ∧ s.twinLane 0 = some 0 ∧ s.laneTakes 0 = true ∧ (s.ch[0].lane 15).exist = true ∧
       s.twst ≠ TW_STANDBY ∧ s.twst ≠ TW_DRILL ∧ s.running 3 = false) ∧
    (twin TW_ACTIVE (fun t => { t with laneUp := #v[false, false] })).twinLane 0 = none ∧
    (twinSound (twinBytes 5 0 (List.replicate 40 0#8)) ∧ twinSound (twinBytes 4 3 (List.replicate 132 0#8)) ∧ twinSound (twinBytes 6 0 [3#8, 0#8, 0#8, 0#8]) ∧
      leAt (twinBytes 5 0 (List.replicate 40 0#8)) 0 1 = 5) ∧
    (let s : State := { twin TW_DRILL (racking true [(0, 1)] false) with ch := base.ch.set 0 { full with jour := { full.jour with ring := [⟨2, 0, true, false, 0, 0, false, .meas (rec 15 1 0)⟩] } } }
     s.twst = TW_DRILL ∧ s.safe = false ∧ ∃ k, s.twin.rack = some k ∧ k.drill = true ∧ k.failed = false ∧ (k.done.map Prod.fst).Nodup ∧ (0, 1) ∈ k.done ∧ 0 ∉ k.checked ∧
       State.firstL15 s.ch[0] 1 = some (rec 15 1 0) ∧ (rec 15 1 0).teb * 2 ^ 24 < (rec 15 1 0).offset.natAbs ∧ State.firstL15 s.ch[0] 2 = none) ∧
    (let e : JEntry := ⟨1, 0, true, false, 0, 0, false, .vint 0 0⟩
     let j : JourFrame := ⟨true, 0, 0, 0, 0, List.replicate 16 e⟩
     j.good = true ∧ j.entries ≠ [] ∧ j.entries.length ≤ 16 ∧ ¬ (List.replicate 17 e).length ≤ 16) ∧
    (let s := twin TW_STANDBY id
     s.twst = TW_STANDBY ∧ s.laneTakes 0 = true ∧ s.twin.rx[0].begun = none ∧ 8 ≤ (List.replicate 8 0#8).length ∧ (List.replicate 2040 0#8).length ≤ 2040 ∧
       ¬ 8 ≤ (List.replicate 7 0#8).length) :=
  ⟨by decide +kernel, by decide, by unfold twinSound; decide +kernel,
    ⟨by decide, by decide, _, rfl, rfl, rfl, by decide, by decide, by decide, by decide, by decide, by decide⟩, by decide, by decide +kernel⟩

theorem vintage_has_a_part (y : Vintage) : 8 ≤ y.bytes.length := by
  have h : y.bytes = (leBytes 4 0x544E4956 ++ leBytes 1 1 ++ leBytes 1 y.ch.val ++ leBytes 2 (y.snap.vintSections.map (fun e => (e.1, pad8 (layItems 0 e.2)))).length) ++
      y.bytes.drop 8 := rfl
  rw [h]; simp [leBytes]

theorem slotWrite_completes (l : Bytes) (h : 8 ≤ l.length) :
    (State.slotWrite (l.take (l.length - 8)) (l.length - 8) (l.drop (l.length - 8))).take (l.length - 8 + (l.drop (l.length - 8)).length) = l := by
  have e : l.length - 8 + (l.length - (l.length - 8)) = l.length := by omega
  simp [State.slotWrite, padTo, slice, List.take_take, e]

/-- All bytes of a vintage but the last eight stand in slot 0, whose next part begins there; the rest completes it. -/
theorem test_hyp_TwinsStream_vintage :
    let y := (twin TW_ACTIVE id).vintageOf 0
    let n := y.bytes.length - 8
    let s := twin TW_STANDBY (fun t => { t with rx := t.rx.set 0 { t.rx[0] with begun := some (7, n), slots := t.rx[0].slots.set 0 (y.bytes.take n) } })
    let v : VintFrame := ⟨true, 0, 0, 0, 7, n, y.bytes.drop n, some y⟩
    let r := s.twin.rx[v.ch]
    8 ≤ v.part.length ∧ v.part.length ≤ 2040 ∧ r.begun = some (v.vseq, v.ofs) ∧ (State.slotWrite r.slots[r.next] v.ofs v.part).take (v.ofs + v.part.length) = y.bytes := by
  intro y
  have h := vintage_has_a_part y
  generalize y.bytes = l at h
  refine ⟨by simp; omega, by simp; omega, rfl, slotWrite_completes l h⟩

/-- A unit whose channel 0 has a held image of no bytes, and a vintage taken under it, received and in its own ring. -/
def vint (s : State) : State :=
  let v : Vintage := ⟨0, 0, 0, 0, List.replicate 48 0#8, 0, full⟩
  { s with img := s.img.set 0 { s.img[0] with held := some false }, twin := { s.twin with rx := s.twin.rx.set 0 { s.twin.rx[0] with vints := [⟨0, v, false⟩], cont := some 1 }, nvRing := [(0, v)] } }

theorem test_hyp_Racking :
    (let s := twin TW_RACKING (racking false [] false)
     s.scanning = false ∧ s.safe = false ∧ s.running 0 = true ∧ s.ready 0 = false ∧ s.nvVintage 0 = none ∧ ∃ k, s.twin.rack = some k ∧ 0 ∈ k.chans ∧ 0 ∉ k.done.map Prod.fst) ∧
    (let s := vint (twin TW_RACKING (racking false [] false))
     s.ready 0 = true ∧ s.gflag F.TWIN_STAT_MOSC_DIFF = false ∧ s.twin.offs = [] ∧ (s.nvVintage 0).isSome = true ∧ (s.gput F.TWIN_STAT_MOSC_DIFF 1).gflag F.TWIN_STAT_MOSC_DIFF = true) ∧
    (let s := twin TW_RACKING (racking false [(0, 9)] false)
     s.twst = TW_RACKING ∧ s.running 0 = true ∧ (∀ y, y < 2 → s.ch[0].synSt y = SYN_OFF ∧ s.ch[0].cur (F.SYN_SYN_CFG_EN y) = 0) ∧ ∃ k, s.twin.rack = some k ∧ k.claim = false ∧
       ∀ n ∈ k.chans, n ∈ k.done.map Prod.fst) ∧
    (let s := twin TW_DRILL (fun t => { t with rack := some ⟨0, true, [0], [(0, 9)], false, [0], some 0, false⟩ })
     s.twst = TW_DRILL ∧ ∃ k, s.twin.rack = some k ∧ k.passAt = some 0 ∧ State.lowestOf k.chans = some 0 ∧ s.ch[0].reached 0 = true) ∧
    (twin TW_DRILL id).ch[0].reached (2 ^ 64) = false :=
  ⟨⟨by decide, by decide, by decide, by decide, by decide, _, rfl, by decide⟩, by decide +kernel, ⟨by decide, by decide, by decide, _, rfl, by decide⟩,
    ⟨by decide, _, rfl, rfl, by decide, by decide⟩, by decide⟩

theorem test_hyp_Drills :
    (twinSound (twinBytes 7 0xFF [1#8, 0#8, 0#8, 0#8]) ∧ leAt (twinBytes 7 0xFF [1#8, 0#8, 0#8, 0#8]) 16 1 = 1 ∧ leAt (twinBytes 7 0xFF [3#8, 0#8, 0#8, 0#8]) 16 1 = 3) ∧
    (let s := ((twin TW_STANDBY id).gput F.PWR_STAT_FEEDS_OK 1).gput F.TWIN_STAT_PEER_RUN 0
     s.feedsOk = true ∧ s.twst = TW_STANDBY ∧ s.laneTakes 0 = true ∧ ∀ n : ChanIx, s.gcur F.TWIN_STAT_PEER_RUN / 2 ^ n.val % 2 ≠ 1) ∧
    (let s := (((cmd 5 CS_RUNNING id (twin TW_ACTIVE id)).gput F.TWIN_STAT_PEER_LOST 0).gput F.TWIN_STAT_PEER_STATE TW_STANDBY).gput F.TWIN_STAT_PATH_A 1
     s.paired = true ∧ s.twst = TW_ACTIVE ∧ s.gflag F.TWIN_STAT_PEER_LOST = false ∧ s.gcur F.TWIN_STAT_PEER_STATE = TW_STANDBY ∧ s.gcur F.TWIN_STAT_PATH_A ≠ 0 ∧
       ∃ c, s.running? 5 5 = some c ∧ c.begun = false) ∧
    (let s := cmd 5 CS_RUNNING (fun m => { m with begun := true }) (twin TW_ACTIVE (fun t => { t with drill := some ⟨5, 0, some 0, false⟩ }))
     s.safe = false ∧ (∃ c, s.running? 5 5 = some c ∧ c.begun = true) ∧ ∃ d, s.twin.drill = some d ∧ d.sent = false ∧ d.reached ≠ none ∧ s.cmdState d.slot = CS_RUNNING) ∧
    (let s : State := { cmd 5 CS_RUNNING (fun m => { m with begun := true }) (twin TW_ACTIVE (fun t => { t with drill := some ⟨5, 0, some 0, true⟩ })) with tick := 600000000 }
     ∃ d, s.twin.drill = some d ∧ d.sent = true ∧ d.reached = some 0 ∧ 0 + 3 * SEC_TICKS ≤ s.tick ∧ s.cmd? d.slot ≠ none) ∧ 599999999 < 0 + 3 * SEC_TICKS :=
  ⟨by unfold twinSound; decide +kernel, by decide, ⟨by decide, by decide, by decide, by decide, by decide, _, rfl, by decide⟩, ⟨by decide, ⟨_, rfl, by decide⟩, _, rfl, by decide⟩, ⟨_, rfl, by decide⟩, by decide⟩

/-- Endpoint 1 in a link state. -/
def bench (st : Nat) (e : BEnd) (c : Channel) : Channel := ({ c with ends := c.ends.set 1 e } : Channel).put (F.CHCTL_B_STAT_LINK 1) st
/-- A bench frame: TYPE, hops, ADDR, CH and its flag, DEVID and payload (R288). -/
def benchBytes (ty hops : Byte) (did : Nat) (pl : Bytes) : Bytes :=
  let b := [ty, hops] ++ leBytes 2 pl.length ++ [5#8, 2#8, 1#8, 0#8] ++ leBytes 8 did ++ pl
  b ++ leBytes 4 (crc32 b)
/-- A HELLO of link 3 of device 7 that echoes stamp 9. -/
def hello : Bytes := benchBytes 1 1 7 ([3#8] ++ List.replicate 15 0#8 ++ [9#8] ++ List.replicate 15 0#8)
def timeFrame (hops : Byte) : Bytes := benchBytes 3 hops 7 (List.replicate 64 0#8)
/-- The neighbour of endpoint 1 is link 3 of device 7. -/
def known (c : Channel) : Channel := ((c.put (F.CHCTL_B_NBR_LO_ID_LO 1) 7).put (F.CHCTL_B_NBR_HI_ID_HI 1) 0).put (F.CHCTL_B_STAT_NBR_LINK 1) 3
def bend (count cand heard : Nat) : BEnd := ⟨heard, count, List.replicate 63 0, cand, false, none, [9], none⟩

theorem test_hyp_BenchLinks :
    (benchGood hello = true ∧ leAt hello 0 1 = BT_HELLO ∧ leAt hello 8 8 = 7 ∧ leAt hello 16 1 = 3 ∧ leAt hello 32 8 = 9 ∧ benchGood [] = false) ∧
    Meets (kset (F.CHCTL_B_CFG_EN 1) 1) (fun ch => ch.cur (F.CHCTL_B_STAT_LINK 1) = BL_DOWN ∧ ch.flag (F.CHCTL_B_CFG_EN 1) = true) ∧
    Meets (known ∘ bench BL_SYNC (bend 0 0 0)) (fun ch => ch.cur (F.CHCTL_B_STAT_LINK 1) = BL_SYNC ∧ ch.cur (F.CHCTL_B_STAT_LINK 1) ≠ BL_DOWN) ∧
    Meets (known ∘ bench BL_MEASURE (bend 63 0 0)) (fun ch => ch.cur (F.CHCTL_B_STAT_LINK 1) = BL_MEASURE ∧ 7 = ch.cur (F.CHCTL_B_NBR_LO_ID_LO 1) + 2 ^ 32 * ch.cur (F.CHCTL_B_NBR_HI_ID_HI 1) ∧
      3 = ch.cur (F.CHCTL_B_STAT_NBR_LINK 1) ∧ 9 ∈ ch.ends[1].sent ∧ 8 ∉ ch.ends[1].sent ∧ ch.ends[1].count + 1 = 64) ∧
    Meets (known ∘ bench BL_UP (bend 0 3 0) ∘ kset (F.CHCTL_B_LSTEP_LSTEP 1) 1 ∘ fun c => c.put (F.CHCTL_B_LDLY_LDLY 1) 0) (fun ch => ch.cur (F.CHCTL_B_STAT_LINK 1) = BL_UP ∧
      ch.fld (F.CHCTL_B_LSTEP_LSTEP 1) = 1 ∧
      2 * 1 < (stampDiff (linkStamp 0 0) 9 - stampDiff 0 0 - 2 * ch.cur (F.CHCTL_B_LDLY_LDLY 1)).natAbs ∧ 0 < ch.ends[1].cand ∧ ch.ends[1].cand + 1 = 4 ∧
      ch.ends[1].candPos = decide (0 < stampDiff (linkStamp 0 0) 9 - stampDiff 0 0)) ∧
    Meets (known ∘ bench BL_UP (bend 0 0 0) ∘ kset (F.CHCTL_B_LSTEP_LSTEP 1) 0) (fun ch => ch.fld (F.CHCTL_B_LSTEP_LSTEP 1) = 0) ∧
    Meets (atTick 800000 ∘ bench BL_UP (bend 0 0 0)) (fun ch => ch.ends[1].heard + 800000 ≤ ch.jour.tick) ∧
    Meets (atTick 799999 ∘ bench BL_UP (bend 0 0 0)) (fun ch => ¬ ch.ends[1].heard + 800000 ≤ ch.jour.tick) :=
  ⟨by decide +kernel, meets (by decide), meets (by decide), meets (by decide), meets (by decide +kernel), meets (by decide), meets (by decide), meets (by decide)⟩

theorem test_hyp_BenchLinks_due :
    (∀ e ∈ [(200000, true), (199999, false), (0, false)], Meets (atTick e.1 ∘ bench BL_SYNC { bend 0 0 0 with helloAt := some 0 }) (fun ch => ch.cur (F.CHCTL_B_STAT_LINK 1) ≠ BL_DOWN ∧
      ∃ t, ch.ends[1].helloAt = some t ∧ decide (t < ch.jour.tick ∧ (ch.jour.tick - t) % 200000 = 0) = e.2)) ∧
    Meets (bench BL_SYNC (bend 0 0 0)) (fun ch => ch.ends[1].helloAt = none) := by
  refine ⟨?_, meets (by decide)⟩
  intro e h; simp only [List.mem_cons, List.not_mem_nil, or_false] at h; rcases h with rfl | rfl | rfl <;> exact meets ⟨by decide, 0, rfl, by decide⟩

/-- A device whose router is on and whose channel 0 has both links UP; `f` changes its router. -/
def router (f : RouterSt → RouterSt) : State :=
  let s := on (known ∘ bench BL_UP (bend 0 0 0) ∘ fun c => c.put (F.CHCTL_B_STAT_LINK 0) BL_UP)
  gset F.BENCH_CFG_EN 1 ({ s with router := f s.router, fuse := { s.fuse with devid := 6 } }.gput F.BENCH_STAT_FULL 0)

theorem test_hyp_BenchTime :
    (benchGood (timeFrame 2) = true ∧ leAt (timeFrame 2) 0 1 = BT_TIME ∧ leAt (timeFrame 2) 8 8 = 7 ∧ leAt (timeFrame 2) 1 1 = 2 ∧ leAt (timeFrame 1) 1 1 = 1 ∧ leAt (timeFrame 2) 6 1 % 2 = 1 ∧
      leAt (timeFrame 2) 4 1 = 5 ∧ leAt (timeFrame 2) 5 1 = 2) ∧
    (let s := router (fun r => { r with routes := [⟨5, 1, 1, 0⟩] })
     s.safe = false ∧ s.gflag F.BENCH_STAT_FULL = false ∧ s.routerOn = true ∧ s.ch[0].multipleHere 16 ≠ none ∧ s.ch[0].cur (F.CHCTL_B_STAT_LINK 1) = BL_UP ∧ s.upLinks = [0, 1] ∧
       s.router.routes.any (fun r => r.addr == 5 && r.link == 1) = true ∧ (6 : Nat) = s.fuse.devid ∧ Channel.findSlot s.ch[0].ens[1] 7 2 = some 0) ∧
    ((router id).router.routes.any (fun r => r.addr == 5 && r.link == 1) = false ∧ ((router id).gput F.BENCH_STAT_FULL 1).gflag F.BENCH_STAT_FULL = true) ∧
    Meets (kset (F.CHCTL_B_CFG_TTX 1) 1) (fun ch => ch.flag (F.CHCTL_B_CFG_TTX 1) = true) := 
  ⟨by decide +kernel, by decide +kernel, by decide, meets (by decide)⟩

/-- A peer in slot 0 of bench lane 1, whose frame came at tick 0. -/
def peer (c : Channel) : Channel :=
  { c with ens := c.ens.set 1 { c.ens[1] with slots := c.ens[1].slots.set 0 (some ⟨7, 2, 0, 0, 0, 0, 10, 0, 0#32, false, 0, 0, 0⟩) } }

theorem test_hyp_Ensembles :
    Meets (atTick 25000000 ∘ peer) (fun ch => ∃ z, ch.ens[1].slots[0] = some z ∧ z.tick + 25000000 ≤ ch.jour.tick) ∧
    Meets (atTick 24999999 ∘ peer) (fun ch => ∃ z, ch.ens[1].slots[0] = some z ∧ ch.jour.tick < z.tick + 25000000) ∧
    Meets (peer ∘ kset (F.REF_LANE_CFG_ENABLE 14) 1 ∘ kset F.CHCTL_ENS_CFG_MIN_PEERS 1) (fun ch => (ch.lane (Channel.benchLaneIx 1)).exist = true ∧ ch.laneEnabled (Channel.benchLaneIx 1) = true ∧
      ch.multipleHere 16 = some 0 ∧ (∃ z, ch.ens[1].slots[0] = some z ∧ 0 - 2 ^ 61 < z.refTs ∧ z.refTs ≤ 0 ∧
        (Channel.ensSolve (max 1 (ch.fld F.CHCTL_ENS_CFG_MIN_PEERS)) (ch.fld F.CHCTL_ENS_CFG_TOL + 1) [(z, ⟨0, 10⟩)] 0).1.isSome = true) ∧
      (Channel.ensSolve (max 1 (ch.fld F.CHCTL_ENS_CFG_MIN_PEERS)) (ch.fld F.CHCTL_ENS_CFG_TOL + 1) [] 0).1 = none) ∧
    Meets ((fun c => { c with dpll := { c.dpll with ctr := 2 ^ 90, ctr0 := 2 ^ 90 } })) (fun ch => ch.multipleHere 16 = none) :=
  ⟨meets ⟨_, rfl, by decide⟩, meets ⟨_, rfl, by decide⟩, meets ⟨by decide, by decide, by decide, ⟨_, rfl, by decide, by decide, by decide +kernel⟩, by decide⟩, meets (by decide)⟩

/-- An LSA of a device with a SEQ and no links. -/
def lsa (did seq : Nat) : Bytes := benchBytes 2 1 did (leBytes 4 seq ++ [1#8, 0#8, 0#8, 0#8])

theorem test_hyp_Routing :
    (benchGood (lsa 7 4) = true ∧ leAt (lsa 7 4) 0 1 = BT_LSA ∧ leAt (lsa 7 4) 2 2 = 8 + 16 * leAt (lsa 7 4) 21 1 ∧ (State.parseLsa (lsa 7 4) 0).seq = 4 ∧ (State.parseLsa (lsa 6 4) 0).devid = 6) ∧
    (let s := router id
     s.scanning = false ∧ s.routerOn = true ∧ s.safe = false ∧ s.running 0 = true ∧ s.ch[0].bstat 1 ≠ BL_DOWN ∧ s.fuse.devid = 6 ∧ s.gcur F.BENCH_LSA_SEQ_SEQ ≤ 4 ∧ s.router.lsas = [] ∧
       4 < (s.gput F.BENCH_LSA_SEQ_SEQ 5).gcur F.BENCH_LSA_SEQ_SEQ) ∧
    (let s : State := { router (fun r => { r with lsas := [⟨7, 3, 1, [], 0⟩] }) with tick := 10 * SEC_TICKS * 100 }
     ∃ e, s.router.lsas.find? (fun e => e.devid == 7) = some e ∧ e.seq < 4 ∧ ¬ e.seq < 3 ∧ e.at' + s.gfld F.BENCH_CFG_HOLD * SEC_TICKS ≤ s.tick) ∧
    (let s := router (fun r => { r with due := true })
     s.routerOn = true ∧ s.router.due = true ∧ s.tick % 2000000 = 0 ∧ ({ s with tick := 1 } : State).tick % 2000000 ≠ 0) ∧
    (let s := router id
     s.open .mspi ∧ s.linkIsUp (getField 0x80000010#32 0 3) = true ∧ s.linkIsUp (getField 0x80000010#32 4 3) = true ∧ getField 0x80000010#32 0 3 ≠ getField 0x80000010#32 4 3 ∧
       s.gflag F.BENCH_CAL_CTL_BUSY = false ∧ bit 0x80000010#32 31 = true ∧ s.linkIsUp 7 = false) ∧
    (let s := ((router id).gput F.BENCH_CAL_CTL_BUSY 1).gput F.BENCH_CAL_CTL_LINK_B 1
     s.gflag F.BENCH_CAL_CTL_BUSY = true ∧ s.calOk = true ∧ ((router id).gput F.BENCH_CAL_CTL_BUSY 1).calOk = false) :=
  ⟨by decide +kernel, by decide +kernel, ⟨_, rfl, by decide, by decide, by decide⟩, by decide, ⟨⟨rfl, by decide, by decide⟩, by decide, by decide, by decide, by decide, by decide, by decide⟩, by decide⟩

/-- The device's last LSA listed its UP links, or none, and left at tick 0. -/
def listed (all : Bool) (n : Nat) : State :=
  let s := router id
  { s with router := { s.router with links := if all then s.upLinks.map s.lsaEnt else [], lsaAt := some 0 }, tick := n }

theorem test_hyp_Routing_due :
    (∀ e ∈ [(true, 19999999, false), (true, 20000000, true), (false, 1, true)],
      let s := listed e.1 e.2.1
      s.routerOn = true ∧ s.safe = false ∧ decide (s.upLinks ≠ s.router.links.map (·.link) ∨ ∀ t ∈ s.router.lsaAt, t + 20000000 ≤ s.tick) = e.2.2) ∧
    (let t : Transit := ⟨1, List.replicate 80 0#8, [(0, 5, 7)]⟩
     let s : State := { router (fun r => { r with flight := [t] }) with tick := 5 }
     t ∈ s.router.flight ∧ (0, 5, 7) ∈ t.outs ∧ 5 ≤ s.tick ∧ 80 ≤ t.bytes.length ∧ s.safe = false ∧ s.linkIsUp 0 = true) := by decide +kernel

/-- A signature of the private key 1, whose public key is the base point, with the nonce 1. -/
def signed1 (m : Bytes) : Bytes := sigBlock 0 (p384G.1 % p384N, (fromBe (sha384 m) + p384G.1 % p384N) % p384N)
/-- A channel image for channel 0 with no lanes and no parts, or a common image with an empty COMMON section, in CARRY or not (R307, R308). -/
def image (target chmask flags : Byte) (ty : Byte) (sec : Bytes) : Bytes :=
  let b : Bytes := [0x53#8, 0x50#8, 0x53#8, 0x54#8, 1#8, target, 1#8, 0#8] ++ leBytes 4 (184 + sec.length) ++ List.replicate 20 0#8 ++ [flags, 0#8, 0#8, 0#8, chmask] ++ List.replicate 27 0#8 ++
    [ty, 0#8, 0#8, 0#8] ++ leBytes 4 80 ++ leBytes 4 sec.length ++ List.replicate 4 0#8 ++ sec
  b ++ signed1 b
def chImage : Bytes := image 1 1 2 1 (List.replicate 16 0#8)
def cmnImage : Bytes := image 0 0 0 0x18 []
/-- A device whose owner key, in the slot of OWNER_SLOT, is the base point. -/
def owned (s : State) : State := s.putVslot (s.gfld F.IMAGE_CFG_OWNER_SLOT) ⟨0x01250210#32, 0, 1, .valid, 0, false, pubBytes p384G, [], false⟩
set_option maxRecDepth 20000 in
theorem test_image : (owned base).imageErr chImage (some 0) = none ∧ (owned base).imageErr cmnImage none = none ∧ (owned base).imageErr chImage (some 1) = some (IE_TARGET, 0) ∧
    (owned base).imageErr (chImage.take 199) (some 0) = some (IE_TOO_LARGE, 0) ∧ base.imageErr chImage (some 0) = some (IE_OWNER, 0) := by decide +kernel

/-- A running LOAD command with its MODE and SRC, of 200 bytes. -/
def load (mode src : Byte) (g : CmdSt → CmdSt) (s : State) : State :=
  cmd 3 CS_RUNNING (fun m => g { m with param := [mode, src, 1#8, 0#8, 200#8, 0#8, 0#8, 0#8] ++ List.replicate 32 0#8 }) s
/-- Channel 0 as the loader holds it. -/
def img0 (f : ChanImg → ChanImg) (s : State) : State := { s with img := s.img.set 0 (f s.img[0]) }
def job : LoadJob := ⟨.mspi, none, 1, true, [], false, false, false, false, false⟩

set_option maxRecDepth 20000 in
theorem test_hyp_ImageLoads :
    (let s := load 0 0 id base
     s.scanning = false ∧ chImage.length = 200 ∧ (s.gput F.HOSTIF_PCIE_STAT_LINK_UP 1).linkUp = true ∧ (s.gput F.HOSTIF_PCIE_STAT_LINK_UP 0).linkUp = false ∧
       ∃ k, s.running? 5 3 = some k ∧ k.begun = false ∧ k.mode = 0 ∧ k.src = 0 ∧ k.len = 200) ∧
    (let s := load 1 1 id (img0 (fun m => { m with staged := true, slot1 := chImage }) base)
     s.img[0].staged = true ∧ s.storeSlot 0 (s.otherSlot 0) = chImage ∧ s.img[0].pwr = .off ∧ ∃ k, s.running? 5 3 = some k ∧ k.mode = 1 ∧ k.src = 1) ∧
    (let s := load 1 2 (fun m => { m with buf := chImage }) (img0 (fun m => { m with pwr := .on }) base)
     s.img[0].pwr = .on ∧ ∃ k, s.running? 5 3 = some k ∧ 2 ≤ k.src ∧ k.len ≤ k.buf.length) ∧
    (let s := load 1 2 (fun m => { m with buf := chImage.take 199 }) base
     ∃ k, s.running? 5 3 = some k ∧ k.buf.length < k.len ∧ s.cmdq.cmds.find? (fun k => k.op == 3 && k.src == 2 && s.cmdState k.slot == CS_RUNNING && decide (k.buf.length < k.len)) = some k) ∧
    (load 0 0 (fun m => { m with begun := true }) base).cmdq.cmds.find? (fun k => k.op == 3 && k.src == 2) = none ∧ (base.running? 5 3 = none) :=
  ⟨⟨by decide +kernel, by decide +kernel, by decide, by decide, _, rfl, by decide⟩, ⟨by decide, by decide, by decide, _, rfl, by decide⟩, ⟨by decide, _, rfl, by decide, by decide +kernel⟩,
    ⟨_, rfl, by decide +kernel, by decide +kernel⟩, by decide, by decide⟩

/-- A device whose start-up waits for its images, with a DEVICE load of the common image in slot 5. -/
def device (st : Nat) (dev : Option (Nat × Bytes × List (ChanIx × Bytes))) : State :=
  let s := load 2 0 id (owned base)
  ({ s with loader := { s.loader with dev := dev } }.setStage st).gput F.HOSTIF_PCIE_STAT_LINK_UP 1

theorem test_hyp_DeviceLoads :
    (let s := device BOOT_WAIT none
     s.stage = BOOT_WAIT ∧ s.linkUp = true ∧ s.imageErr cmnImage none = none ∧ s.imageErr [] none = some (IE_FORMAT, 0) ∧ ∃ k, s.running? 5 3 = some k ∧ k.begun = false ∧ k.mode = 2) ∧
    (let s := device BOOT_DONE none
     s.gcur F.VAULT_STAT_STAGE ≠ VS_STOPPED ∧ s.stage ≠ BOOT_WAIT) ∧
    (let s := device BOOT_LOADING (some (5, cmnImage, []))
     s.scanning = false ∧ s.loader.dev = some (5, cmnImage, []) ∧ s.vault.mCmn = none ∧ s.stage = BOOT_LOADING ∧ s.cmdState 5 = CS_RUNNING) :=
  ⟨⟨by decide, by decide, by decide +kernel, by decide +kernel, _, rfl, by decide⟩, by decide, ⟨rfl, rfl, rfl, by decide, by decide⟩⟩

/-- The common image is taken: the commits of CLKGEN, TWIN and BENCH pass, and leave legal clock rates. -/
theorem test_hyp_CommonImage :
    let s := device BOOT_LOADING (some (5, cmnImage, []))
    ((((s.clear.commonRecords ⟨cmnImage⟩).loaderCommit .clkgen).bind (fun t => t.loaderCommit .twin)).bind (fun t => t.loaderCommit .bench)).isSome = true ∧
      ∀ r : Fin 5, getField (s.clear.commonApply.guse .clkgen (CLKGEN_ROOT_CFG r.val)) 0 2 ≠ 3 := by decide +kernel

theorem test_hyp_Reconfig :
    (let s := img0 (fun m => { m with job := some job, pwr := .on, slot0 := chImage }) (owned base)
     s.scanning = false ∧ s.loadHalted job = false ∧ s.img[0].pwr = .on ∧ s.img[0].after = none ∧ s.loadBytes 0 job = chImage ∧ s.imageErr (s.loadBytes 0 job) (some 0) = none ∧
       s.chSt 0 ≠ CH_RECONFIG ∧ Img.carryOk ⟨chImage⟩ = true ∧ s.running 0 = true ∧ s.imageErr [] (some 0) = some (IE_FORMAT, 0)) ∧
    (let s := (img0 (fun m => { m with job := some job, slot0 := chImage }) base).gput (F.IMAGE_CH_STAT_STATE 0) CH_RECONFIG
     s.chSt 0 = CH_RECONFIG ∧ s.img[0].kept = none ∧ s.img[0].job = some job) := by decide +kernel

theorem test_hyp_Apply : ((Channel.reset 0 Topo.none false false 0).applyImage ⟨chImage⟩ false).isRight = true := by decide +kernel

/-- Channel 0 with a held image, its power and the job in progress. -/
def powered (p : ChPwr) (j : Option LoadJob) (s : State) : State := img0 (fun m => { m with held := some false, pwr := p, job := j }) s

theorem test_hyp_Channels :
    (getField 0x80000000#32 29 3 = 4 ∧ getField 0x40000000#32 29 3 = 2 ∧ getField 0x20000000#32 29 3 = 1 ∧ getField 0xC0000000#32 29 3 ∉ [1, 2, 4]) ∧
    ((powered .on none base).open .mspi ∧ (powered .on none base).running 0 = true ∧ (powered .on none base).chSt 0 ≠ CH_GATED ∧ (powered (.up 0) none base).img[0].pwr = .up 0) ∧
    (let s := (powered .off none base).gput (F.IMAGE_CH_STAT_STATE 0) CH_GATED
     s.chSt 0 = CH_GATED ∧ s.img[0].held = some false ∧ s.img[0].job = none ∧ s.img[0].pwr = .off ∧ s.running 0 = false) ∧
    (let s := powered (.down 0) (some job) base
     s.img[0].pwr = .down 0 ∧ s.img[0].job ≠ none ∧ s.img[0].waitUngate = false ∧ s.scanning = false) ∧
    (let s := img0 (fun m => { m with slot0 := chImage }) ((powered (.up 0) (some job) (owned base)).gput (F.CLKGEN_ROOT_STAT_STATE 1) 2)
     s.gcur (F.CLKGEN_ROOT_STAT_STATE 1) = 2 ∧ s.img[0].pwr = .up 0 ∧ s.img[0].waitGate = false ∧ s.loadHalted job = false ∧ job.checked = false ∧
       s.imageErr (s.loadBytes 0 job) (some 0) = none ∧ s.imageErr [] (some 0) = some (IE_FORMAT, 0)) ∧
    (∀ r : Fin 5, getField ((powered (.up 0) (some job) base).guse .clkgen (CLKGEN_ROOT_CFG r.val)) 0 2 ≠ 3) :=
  ⟨by decide, ⟨⟨rfl, by decide, by decide⟩, by decide, by decide, by decide⟩, by decide, by decide, by decide +kernel, by decide⟩

theorem test_hyp_Channels_down : ∀ e ∈ [(9999, true), (10000, false)],
    let s : State := { powered (.down 0) none base with tick := e.1 }
    s.img[0].pwr = .down 0 ∧ decide (s.tick < 0 + 10000) = e.2 := by decide

/-- A key update message of device 7 with its OP, slot, AUTH, COUNTER, ATTR and key (R342), signed by the private key 1 with KEY_ID 0. -/
def kum (op slot auth counter : Byte) (attr : Nat) (key : Bytes) : Bytes :=
  let b := leBytes 4 0x314D554B ++ [1#8, op, slot, auth] ++ leBytes 8 7 ++ leBytes 8 counter.toNat ++ leBytes 4 attr ++ leBytes 4 0 ++ leBytes 2 key.length ++ List.replicate 102 0#8 ++ key
  b ++ signed1 b
/-- The message that claims an unowned device: a PUBLIC key in slot 2 (R347). -/
def claim : Bytes := kum 1 2 2 1 0x01250210 (pubBytes p384G)
/-- Device 7 with a message in KUM_BUF. -/
def keyed (own kcnt : Nat) (m : Bytes) (s : State) : State :=
  let t := { s with fuse := { s.fuse with devid := 7 }, vault := { s.vault with own := own, kcnt := kcnt } }
  (upTo (m.length / 4)).foldl (fun t k => t.gsetWord .vault (VAULT_KUM_BUF k) (leWordAt m k)) t

set_option maxRecDepth 20000 in
theorem test_hyp_KeyUpdates :
    (let s := keyed OWN_UNOWNED 0 claim base
     let k : Kum := ⟨s.kumBuf 336⟩
     s.kumBuf 336 = claim ∧ getField 0x80000150#32 0 9 = 336 ∧ bit 0x80000150#32 31 = true ∧ (Kum.mk (s.kumBuf 344)).op = 1 ∧ s.gflag F.VAULT_KUM_STAT_BUSY = false ∧ k.formatOk = true ∧
       k.devid = s.fuse.devid ∧ s.vault.kcnt < k.counter ∧ s.kumAuth k = some (pubBytes p384G) ∧ sigOk (pubBytes p384G) k.digest k.sigBlk = true ∧ s.kumStateOk k = true ∧ s.kumHierOk k = true ∧
       s.kumKey k = some (pubBytes p384G) ∧ s.fuse.devid ≠ base.fuse.devid ∧ (Kum.mk (claim.take 335)).formatOk = false ∧ sigOk (pubBytes p384G) k.digest (k.sigBlk.take 8) = false) := by
  decide +kernel

theorem test_hyp_KeyUpdates_refused :
    (let s := keyed OWN_OWNED 1 [] base
     ¬ s.vault.kcnt < (Kum.mk claim).counter ∧ s.kumAuth ⟨claim⟩ = none ∧ s.kumStateOk ⟨claim⟩ = true ∧ s.kumStateOk ⟨kum 4 2 2 2 0 []⟩ = false ∧ s.kumHierOk ⟨kum 1 0 2 1 0x01250210 []⟩ = false ∧
       s.kumKey ⟨kum 1 3 2 1 0x01120000 (List.replicate 40 0#8)⟩ = none) ∧
    (let s := owned (keyed OWN_OWNED 0 [] base)
     s.kumAuth ⟨kum 3 2 2 1 0 []⟩ = some (pubBytes p384G) ∧ s.kumStateOk ⟨kum 3 2 2 1 0 []⟩ = true ∧ s.kumHierOk ⟨kum 3 2 2 1 0 []⟩ = true ∧ s.kumKey ⟨kum 3 2 2 1 0 []⟩ = some []) := by
  decide +kernel

/-- A vault whose message waits for its commit record. -/
def committing (op slot : Nat) (s : State) : State := { s with vault := { s.vault with kum := some ⟨op, slot, 9, 0x01250210#32, 0, [], .mspi⟩ } }

theorem test_hyp_KeyCommits :
    (∀ op ∈ [1, 2, 3, 4, 5], (committing op 2 (owned base)).scanning = false ∧ smWf (fun _ => VSlot.zero) (committing op 2 (owned base)).vault.slots = true ∧
      ((committing op 2 (owned base)).vault.kum.map (·.op)) = some op) ∧
    (let s := { owned base with vault := { (owned base).vault with slots := (owned base).vault.slots ++ ([(16, ⟨0x02000000#32, 0, 1, .valid, 0, false, [], [], false⟩)] : List (Nat × VSlot)) } }
     smWf (fun _ => VSlot.zero) s.vault.slots = true ∧ attrParent (s.vslot 16).attr = 2 ∧ (s.vslot 16).st = .valid) ∧ base.vault.kum = none := by decide +kernel

theorem test_hyp_Attestation :
    (base.open .mspi ∧ bit 0x80000000#32 31 = true ∧ getField 0x80000000#32 29 1 = 0 ∧ getField 0xA0000000#32 29 1 = 1 ∧ base.gflag F.VAULT_ATT_CTL_BUSY = false ∧ base.orphanedVault = false ∧
      base.vault.quote = none ∧ attrAlg (base.vslot (base.gfld F.VAULT_CFG_ATT_SLOT)).attr ≠ 4) ∧
    (let s := gset F.VAULT_CFG_ATT_SLOT 3 ({ base with vault := { base.vault with own := OWN_OWNED, seed := some [], mCmn := some [], slots := [(3, ⟨0x01140400#32, 5, 1, .valid, 0, false, beBytes 48 1, [], false⟩)] } } : State)
     s.gfld F.VAULT_CFG_ATT_SLOT = 3 ∧ attrAlg (s.vslot 3).attr = 4 ∧ s.deliver 3 RC_ATTEST = some (beBytes 48 1)) ∧
    ({ base with vault := { base.vault with own := OWN_ORPHANED } } : State).orphanedVault = true ∧ ((base.gput F.VAULT_ATT_CTL_BUSY 1).gflag F.VAULT_ATT_CTL_BUSY = true) ∧
    (let s := cmd 4 CS_RUNNING (fun m => { m with param := List.replicate 8 0#8 ++ [1#8] ++ List.replicate 31 0#8 }) base
     (s.gput F.HOSTIF_PCIE_STAT_LINK_UP 1).linkUp = true ∧ ∃ c, s.running? 5 4 = some c ∧ leAt c.param 8 2 - c.done = 1) :=
  ⟨⟨open_on id, by decide⟩, by decide +kernel, by decide, by decide, ⟨by decide, _, rfl, by decide⟩⟩

/-- A batch of one message runs to its end, or stops at one that is not accepted. -/
theorem test_hyp_KeyBatches :
    (let s := keyed OWN_UNOWNED 0 [] base
     (State.kumBatch .mspi [claim.take 100] (0, true, s)).2.1 = false ∧ (State.kumBatch .mspi [] (0, true, s)).2.1 = true) ∧
    (State.kumRecord []).isSome = false := by decide +kernel

/-- A sample in which pin 1 of the tamper inputs is asserted, and the battery is low. -/
def sample (mv : Nat) : TamperIn := { pins := #v[false, false, false, false], pairBad := #v[false, false], mesh := true, vbat := mv, temp := 25, mosc := false }
def alarmed (pst : PState) (m : Option Bytes) : State := { base with pwr := { base.pwr with pst := pst }, vault := { base.vault with tcfg := 0x0F00#32, prevFail := 16, mCmn := m } }

theorem test_hyp_Tamper :
    (let s := alarmed .run none
     s.scanning = false ∧ s.tamperFails (sample 3000) = 16 ∧ ((s.tamperFails (sample 3000)) &&& s.vault.prevFail) &&& (255 - s.vault.alarmed) = 16 ∧ s.tamperState = 0 ∧ bit s.vault.tcfg 9 = true ∧
       s.tamperFails (sample 1899) = 48 ∧ s.tamperFails (sample 1900) = 16) ∧
    (alarmed .cold none).tamperState = 3 ∧ (alarmed .cold (some [])).tamperState = 1 ∧ (alarmed .tamperOnly none).tamperState = 2 ∧
    (base.tamperFails (sample 3000) &&& base.vault.prevFail) &&& (255 - base.vault.alarmed) = 0 := by decide +kernel

/-! ### Faults, the command queue, the host's paths -/

/-- The started-up device in the safe state. -/
def safed (s : State) : State := s.gput F.FAULT_SAFE_STAT_SAFE 1
/-- The started-up device with an injection pending. -/
def injected (t n : Nat) (full : Bool) (s : State) : State := { s with fault := { s.fault with injAt := some (t, n, full) } }

theorem test_hyp_Faults :
    (base.scanning = false ∧ base.clocked = true ∧ base.safe = false ∧ (safed base).safe = true ∧ base.gfld F.FAULT_CFG_CHIP_ACT ≠ 1 ∧ (gset F.FAULT_CFG_CHIP_ACT 1 base).gfld F.FAULT_CFG_CHIP_ACT = 1) ∧
    (∀ n ∈ [0, 1, 2, 16, 80, 128, 216], base.srcLive n = true ∧ bit (base.gword .fault (FAULT_SRC_STAT n)) 31 = false) ∧
    (∀ n ∈ [6, 7, 13, 224, 511], base.srcLive n = false) ∧ State.reset.clocked = false ∧
    base.react 16 = 0 ∧ base.react 2 / 2 ^ 2 % 4 = 0 ∧ base.react 80 / 2 ^ 2 % 4 = 1 ∧ base.react 1 / 2 ^ 3 % 2 = 1 ∧ base.react 1 / 2 ^ 1 % 2 = 1 ∧ base.react 1 / 2 ^ 4 % 2 = 1 ∧
    bit ((base.gput (F.FAULT_SRC_STAT_REAL 2) 1).gword .fault (FAULT_SRC_STAT 2)) 31 = true ∧ (base.gput F.FAULT_FIRST_VALID 1).gflag F.FAULT_FIRST_VALID = true ∧
    base.gflag F.FAULT_FIRST_VALID = false ∧ base.gflag F.FAULT_NMI_STAT_PEND = false := by decide +kernel

theorem test_hyp_Faults_safeAndInjection :
    (base.pathUp .mspi = true ∧ getField 0x80005AFE#32 0 16 = 0x5AFE ∧ bit 0x80005AFE#32 31 = true ∧ bit 0x80000000#32 31 = true ∧ getField 0x80000000#32 0 16 ≠ 0x5AFE ∧
      bit 0x5AFE#32 31 = false ∧ getField 0x5AFE#32 0 16 = 0x5AFE ∧ (safed base).pathUp .mspi = true ∧ (safed base).safe = true) ∧
    (let s := gset F.FAULT_CFG_INJ_EN 1 base
     s.gflag F.FAULT_INJ_CTL_BUSY = false ∧ s.gflag F.FAULT_CFG_INJ_EN = true ∧ srcReact (getField 0xA0000001#32 0 9) ≠ none ∧ srcReact 6 = none ∧ (gset F.FAULT_CFG_INJ_EN 0 base).gflag F.FAULT_CFG_INJ_EN = false ∧
       (s.gput F.FAULT_INJ_CTL_BUSY 1).gflag F.FAULT_INJ_CTL_BUSY = true) ∧
    (State.isMonitor 1 = true ∧ State.isMonitor 0 = false ∧ base.fault.injAt = none ∧ base.tick = 0 ∧ base.srcLive 0 = true ∧ base.srcLive 130 = true ∧ base.srcLive 224 = false) ∧
    (∀ p ∈ [(0, 0, true), (0, 49, false)], (injected p.1 p.2.1 p.2.2 base).fault.injAt = some p ∧ base.tick < p.1 + State.INJ_TICKS) ∧
    (let s := injected 0 1 true { base with tick := 1 }
     s.fault.injAt = some (0, 1, true) ∧ 0 < s.tick ∧ s.react 1 / 16 % 2 = 1) ∧
    (let s := injected 0 49 true { base with tick := 200000 }
     ¬ (s.tick < 0 + State.INJ_TICKS ∨ (State.isMonitor 49 = true ∧ s.srcLive 49 = true)) ∧ s.srcLive 49 = true) := by decide +kernel

/-- In a tick that asked to leave the safe state, and in one whose block resets wait. -/
theorem test_hyp_Faults_inATick :
    (let s : State := { safed base with fault := { base.fault with exitAsked := true, resetDue := some (4, 0, false) } }
     s.fault.exitAsked = true ∧ s.safe = true ∧ s.pathUp .mspi = true) ∧
    (let s : State := { base with fault := { base.fault with blockDue := [(2, 0#32, 0#32)] } }
     s.fault.blockDue.any (fun e => e.1 == 2) = true ∧ s.fault.blockDue.any (fun e => e.1 == 3) = false) ∧
    base.fault.blockDue = [] ∧ base.fault.exitAsked = false ∧ base.fault.resetDue = none ∧
    ({ base with fault := { base.fault with resetDue := some (3, 9, false) } } : State).fault.resetDue = some (3, 9, false) := by decide

/-- Slot 5 with a descriptor of an operation for a channel (R388). -/
def described (op ch : Nat) (s : State) : State := s.gsetWord .cmdq (CMDQ_SLOT 5 0) (BitVec.ofNat 32 (op + 0x10000 * ch))
/-- A control in slot 5 that names the command `x` of slot 6, in state `st`. -/
def control (op x st : Nat) (g : CmdSt → CmdSt) (s : State) : State :=
  let c : CmdSt := ⟨6, 0, .mspi, x, 0, false, 0, List.replicate 40 0, none, none, false, [], 0⟩
  let t := cmd op CS_QUEUED (fun m => { m with param := [70#8] ++ List.replicate 39 0#8 }) s
  (({ t with cmdq := ⟨t.cmdq.cmds ++ [g c], 2⟩ } : State).setCmdState 6 st).gsetWord .cmdq (CMDQ_SLOT 6 1) 70#32

theorem test_hyp_CommandQueue_submit : base.open .mspi ∧ bit 0x80000005#32 31 = true ∧ bit 5#32 31 = false ∧ getField 0x80000005#32 0 6 = 5 ∧
    (base.cmdState 5 = CS_FREE ∧ descOk (base.descBytes 5) = false) ∧
    (∀ op ∈ [(9, 255), (1, 0)], (described op.1 op.2 base).cmdState 5 = CS_FREE ∧ descOk ((described op.1 op.2 base).descBytes 5) = true) ∧
    (opChan 9 = false ∧ base.running 0 = true) ∧ (descOk ((described 1 1 base).descBytes 5) = true ∧ opChan 1 = true ∧ base.running 1 = false) ∧
    (∀ st ∈ [CS_DONE, CS_CANCELLED, CS_FAILED], (base.setCmdState 5 st).cmdState 5 = st) ∧
    (base.setCmdState 5 CS_RUNNING).cmdState 5 ∉ [CS_FREE, CS_DONE, CS_CANCELLED, CS_FAILED] :=
  ⟨open_on id, by decide, by decide, by decide, by decide +kernel, by decide +kernel, by decide, by decide +kernel, by decide, by decide⟩

theorem test_hyp_CommandQueue_run :
    (∀ op ∈ [1, 2, 3, 4, 5, 6, 7, 8, 9], ∃ c, (cmd op CS_QUEUED id base).cmdIn 5 CS_QUEUED = some c ∧ c.op = op ∧ opControl c.op = false ∧
      (op ≠ 9 → (cmd op CS_QUEUED id base).resourceFree c = true) ∧ (cmd op CS_QUEUED id base).firstWaiting c = true) ∧
    (∀ st ∈ [SNAP_FULL, SNAP_DONE], (on (fun c => c.put F.GNSS_SNAP_STAT_STATE st)).ch[0].cur F.GNSS_SNAP_STAT_STATE = st) ∧
    (base.cmdIn 5 CS_QUEUED).isNone = true ∧ (base.cmdIn 5 CS_RUNNING).isNone = true ∧
    (∀ op ∈ [(6, true), (9, false)], ∃ c, (cmd op.1 CS_RUNNING (fun m => { m with timer := some 0 }) base).cmdIn 5 CS_RUNNING = some c ∧ c.timer = some base.tick ∧
      (cmd op.1 CS_RUNNING id base).cancelActs c = op.2) ∧
    (∃ c, (cmd 3 CS_RUNNING id base).cmdIn 5 CS_RUNNING = some c ∧ c.begun = false ∧ c.src = 0 ∧ base.linkUp = false) ∧
    (∃ c, (cmd 4 CS_RUNNING (fun m => { m with param := List.replicate 8 0#8 ++ [1#8] ++ List.replicate 31 0#8 }) base).cmdIn 5 CS_RUNNING = some c ∧ c.done < leAt c.param 8 2) ∧
    (∃ c, (cmd 4 CS_RUNNING id base).cmdIn 5 CS_RUNNING = some c ∧ ¬ c.done < leAt c.param 8 2) ∧
    (∀ op ∈ [6, 8], ∃ c, ((cmd op CS_RUNNING (fun m => { m with begun := true }) base).gput F.HOSTIF_PCIE_STAT_LINK_UP 1).cmdIn 5 CS_RUNNING = some c ∧ c.begun = true ∧
      attrAlg (base.vslot (leAt c.buf 0 1)).attr ≠ 3 ∧ (base.gput F.HOSTIF_PCIE_STAT_LINK_UP 1).linkUp = true) ∧
    (let s : State := { base with vault := { base.vault with own := OWN_OWNED, seed := some [], mCmn := some [], slots := [(3, ⟨BitVec.ofNat 32 (0x01130000 + 2 ^ RC_MINT), 5, 1, .valid, 0, false, beBytes 32 1, [], false⟩)] } }
     attrAlg (s.vslot 3).attr = 3 ∧ (s.deliver 3 RC_MINT).isSome = true) := by
  refine ⟨?_, by decide, rfl, rfl, ?_, ⟨_, rfl, by decide⟩, ⟨_, rfl, by decide⟩, ⟨_, rfl, by decide⟩, ?_, by decide +kernel⟩
  · intro op h; simp only [List.mem_cons, List.not_mem_nil, or_false] at h; rcases h with rfl | rfl | rfl | rfl | rfl | rfl | rfl | rfl | rfl <;> exact ⟨_, rfl, by decide +kernel⟩
  · intro op h; simp only [List.mem_cons, List.not_mem_nil, or_false] at h; rcases h with rfl | rfl <;> exact ⟨_, rfl, by decide +kernel⟩
  · intro op h; simp only [List.mem_cons, List.not_mem_nil, or_false] at h; rcases h with rfl | rfl <;> exact ⟨_, rfl, by decide +kernel⟩

theorem test_hyp_CommandQueue_controls :
    (∀ e ∈ [(0x0A, CS_RUNNING), (0x0B, CS_SUSPENDED), (0x0C, CS_QUEUED), (0x0C, CS_SUSPENDED), (0x0C, CS_RUNNING)],
      let s := control e.1 1 e.2 (fun m => { m with begun := true }) base
      ∃ c x, s.cmdIn 5 CS_QUEUED = some c ∧ c.op = e.1 ∧ leAt c.param 0 4 = 70 ∧ (s.gword .cmdq (CMDQ_SLOT 6 1)).toNat = 70 ∧ s.cmd? 6 = some x ∧ s.cmdState 6 = e.2 ∧ x.begun = true ∧
        s.running x.chan = true ∧ s.suspendActs x = true ∧ s.cancelActs x = true) ∧
    (let s := control 0x0A 1 CS_SUSPENDED id base
     (s.gword .cmdq (CMDQ_SLOT 6 1)).toNat = 70 ∧ s.cmdState 6 ≠ CS_RUNNING) ∧ (base.gword .cmdq (CMDQ_SLOT 6 1)).toNat ≠ 70 ∧
    (∃ c, (cmd 9 CS_RUNNING id base).running? 5 9 = some c ∧ c.begun = false) ∧ (∃ c, (cmd 6 CS_RUNNING id base).running? 5 6 = some c ∧ c.begun = false) := by
  refine ⟨?_, by decide, by decide, ⟨_, rfl, by decide⟩, ⟨_, rfl, by decide⟩⟩
  intro e h; simp only [List.mem_cons, List.not_mem_nil, or_false] at h; rcases h with rfl | rfl | rfl | rfl | rfl <;> exact ⟨_, _, rfl, by decide, by decide, by decide, rfl, by decide +kernel⟩

theorem test_hyp_CommandQueue_export : ∀ b ∈ [([] : Bytes), [0#8]], ∃ c, (cmd 6 CS_RUNNING (fun m => { m with buf := b }) base).running? 5 6 = some c ∧ c.begun = false ∧ c.buf = b := by
  intro b h; simp only [List.mem_cons, List.not_mem_nil, or_false] at h; rcases h with rfl | rfl <;> exact ⟨_, rfl, by decide⟩

/-- The device with its PCIe link up. -/
def linked (s : State) : State := s.gput F.HOSTIF_PCIE_STAT_LINK_UP 1
/-- An MSPI frame with its CRC (R385): a read has no data. -/
def mspiFrame (op addr data : Nat) : Bytes :=
  let b := beBytes 1 op ++ beBytes 4 addr ++ (if opRead op then [] else beBytes 4 data)
  b ++ beBytes 1 (crc8 b)
/-- A device in scan mode. -/
def scanned : State := { base with pwr := { base.pwr with scan := true } }

theorem test_hyp_HostPaths :
    (base.linkUp = false ∧ base.clocked = true ∧ base.gcur F.PWR_RST_CAUSE_BOOTSEL ≠ 1 ∧ base.scanning = false ∧ (1 ≤ (4 : Fin 8).val ∧ (3 : Fin 8).val ≤ 3)) ∧
    ((linked base).linkUp = true ∧ (∀ c ∈ base.cmdq.cmds, c.slot < 64) ∧
      (let s := linked (cmd 6 CS_RUNNING (fun m => { m with org := .pcie 0 }) base)
       s.linkUp = true ∧ (∀ c ∈ s.cmdq.cmds, c.slot < 64 ∧ s.movesHost c = true ∧ s.cancelActs c = true ∧ c.org = .pcie 0) ∧ s.cmdq.cmds.length = 1)) ∧
    (base.pathUp .mspi = true ∧ HTX_BASE % 4 = 0 ∧ HTX_BASE < MEM_SIZE ∧ HTX_BASE % SLICE = HTX_BASE ∧ base.running (Fin.ofNat 4 (HTX_BASE / SLICE)) = true ∧
      base.running (Fin.ofNat 4 (SLICE / SLICE)) = false ∧ (safed base).safe = true ∧ (safed base).pathUp .mspi = true) := by decide +kernel

theorem test_hyp_HostPaths_frames :
    (∀ e ∈ [(OP_WMEM, HTX_BASE), (OP_RMEM, HTX_BASE), (OP_RREG, 0), (OP_WREG, 0)], frameGood (mspiFrame e.1 e.2 5) = true ∧ fOp (mspiFrame e.1 e.2 5) = e.1 ∧ fAddr (mspiFrame e.1 e.2 5) = e.2) ∧
    fData (mspiFrame OP_WMEM HTX_BASE 5) = 5#32 ∧ base.route 0x01000000 ≠ .bad ∧ base.route 2 = .bad ∧ base.rated ∧
    (frameGood (mspiFrame OP_RREG 0 0 ++ [0#8]) = false ∧ fOp (mspiFrame OP_RREG 0 0 ++ [0#8]) = OP_RREG ∧ frameGood (mspiFrame 0x55 0 0) = true ∧ opKnown (fOp (mspiFrame 0x55 0 0)) = false ∧
      State.memOk (fAddr (mspiFrame OP_RMEM 2 0)) = false) ∧
    (let s := (base.setStage BOOT_WAIT).gput F.PWR_RST_CAUSE_BOOTSEL 2
     let f := mspiFrame OP_SCAN 0x5CA70001 0
     s.scanning = false ∧ s.pathUp .mspi = true ∧ frameGood f = true ∧ fOp f = OP_SCAN ∧ fAddr f = 0x5CA70001 ∧ fData f = 0#32 ∧ s.gcur F.PWR_RST_CAUSE_BOOTSEL = 2 ∧ s.stage = BOOT_WAIT ∧ s.loadStarted = false) :=
  ⟨by decide +kernel, by decide +kernel, by decide, by decide, rated_on id, by decide +kernel, by decide +kernel⟩

theorem test_hyp_HostPaths_scan :
    scanned.scanning = true ∧ scanned.pathUp .mspi = true ∧ ({ scanned with pwr := { scanned.pwr with pst := .off } } : State).pathUp .mspi = false ∧
    (∀ op ∈ [OP_DRIVE, OP_SENSE, OP_RREG], fOp (mspiFrame op 0 0) = op ∧ frameGood (mspiFrame op 0 0) = true ∧ fOp (mspiFrame op 0 0 ++ [0#8]) = op ∧ frameGood (mspiFrame op 0 0 ++ [0#8]) = false) ∧
    scanned.route (fAddr (mspiFrame OP_RREG 0x90000 0)) = .common .pwr 0 ∧ scanned.route (fAddr (mspiFrame OP_RREG 0 0)) = .common .hostif 0 ∧
    testable 4 1 = true ∧ testable 0 0 = false ∧ State.ballRow (mspiFrame OP_DRIVE 0x0401 2) = 4 ∧ State.ballCol (mspiFrame OP_DRIVE 0x0401 2) = 1 ∧
    (fData (mspiFrame OP_DRIVE 0x0401 2)).toNat % 4 = 2 := by decide +kernel

/-! ### Counters, the tally, the cellar book's windows -/

/-- A sample of the oldest request in flight. -/
def pmuSample : PmuSample := ⟨0, 0, 0, 0, 0, 0, 0, 0, 0, 0⟩
def pmued (f : PmuBlk → PmuBlk) (c : Channel) : Channel := { c with pmu := f c.pmu }
/-- The tally with its two copies, its update and its last update. -/
def tallied (a b : Option Nat) (u : Option Nat) (l : Option Nat) (s : State) : State :=
  { s with tally := { s.tally with copyA := a.map (·, TallyRec.zero), copyB := b.map (·, TallyRec.zero), upd := u.map (·, true, TallyRec.zero), lastUpd := l } }

theorem test_hyp_Counters :
    (Meets id (fun _ => bit 0x80000000#32 31 = true) ∧ bit 0#32 31 = false ∧ getField 1000000#32 0 20 = 1000000 ∧ getField 1#32 0 20 = 1 ∧
      getField 1000001#32 0 20 = 1000001 ∧ getField 0#32 0 20 = 0) ∧
    (Meets id (fun ch => ch.pmu.wraps = [] ∧ ¬ (ch.pmu.bwFrom + ch.fld F.PMU_BW_CFG_WIN * 200 ≤ ch.jour.tick)) ∧ (∀ e ∈ [((1 : Nat), false), (2, true)], Meets (pmued (fun b => { b with wraps := [(5, 2), (3, 1), (2, 9)] }) ∘ atTick e.1) (fun ch => ch.pmu.wraps = [(5, 2), (3, 1), (2, 9)] ∧
        (∀ x ∈ ch.pmu.wraps, 8 ≤ x.2 + (8 - x.2 % 8) % 8) ∧ (∀ x ∈ ch.pmu.wraps, x.2 + (8 - x.2 % 8) % 8 = 8 → 3 ≤ x.1 ∧ (x.1 = 3 → x = (3, 1))) ∧ decide (8 / 4 ≤ ch.jour.tick) = e.2)) ∧
      Meets (fun c => { c with jour := { c.jour with tick := 200000 } }) (fun ch => ch.fld F.PMU_BW_CFG_WIN * 200 ≠ 0 ∧ ch.jour.tick % (ch.fld F.PMU_BW_CFG_WIN * 200) = 0 ∧
        ch.pmu.bwFrom + ch.fld F.PMU_BW_CFG_WIN * 200 ≤ ch.jour.tick)) :=
  ⟨⟨meets (by decide), by decide, by decide, by decide, by decide⟩, meets (by decide +kernel), by
    intro e h; simp only [List.mem_cons, List.not_mem_nil, or_false] at h; rcases h with rfl | rfl <;> exact meets (by decide), meets (by decide +kernel)⟩

theorem test_hyp_Tally :
    (∀ e ∈ [(none, none), (some 1, none), (some 1, some 2)],
      let s : State := { tallied e.1 e.2 none (some 0) base with tick := 120000000000 }
      s.scanning = false ∧ s.clocked = true ∧ 0 < s.tick ∧ s.tick % 120000000000 = 0 ∧ s.tally.upd = none ∧ s.tally.lastUpd ≠ some s.tick ∧
        (¬ (s.tally.copyA = none ∧ s.tally.copyB = none) ∧ s.tallyLastB = false ↔ e = (some 1, none))) ∧
    base.tally.upd = none ∧ (tallied none none (some 1) none base).tally.upd = some (1, true, TallyRec.zero) ∧ (tallied none none none (some 0) base).tally.lastUpd = some 0 ∧
    base.tick < 0 + 12000000000 ∧ base.tally.lastUpd = none ∧ State.reset.clocked = false ∧ (∀ n ∈ [11, 12], base.gcur (F.FAULT_SRC_STAT_ACTIVE n) = 0) := by decide +kernel

theorem test_hyp_Tally_second : ∀ e ∈ [(200000000, true), (199999999, false), (0, false)],
    let s : State := { base with tick := e.1 }
    s.clocked = true ∧ decide (s.tick % 200000000 = 0 ∧ s.tally.pohAt < s.tick) = e.2 := by decide

theorem test_hyp_Book :
    (base.clocked = true ∧ base.tick % 20000000 = 0 ∧ ¬ ({ base with tick := 1 } : State).tick % 20000000 = 0 ∧ base.pathUp .mspi = true) ∧
    (let s : State := { base with book := { base.book with ring := [⟨0, 0, false, false, ⟨.mspi, 1, 0, 0, 0⟩, 0, []⟩], sigs := [⟨0, List.replicate 112 0#8⟩] } }
     s.get64 .book (BOOK_RD_SEQ 0) = 0 ∧ (s.book.ring.find? (fun e => e.seq == 0)).isSome = true ∧ (s.book.sigs.find? (fun r => decide (r.seqLast < 0 + 256) && decide (0 ≤ r.seqLast))).isSome = true) ∧
    (base.book.ring.find? (fun e => e.seq == 0)).isSome = false ∧ (base.book.sigs.find? (fun _ => true)).isSome = false ∧ bit 0x80000000#32 30 = false ∧ bit 0xC0000000#32 30 = true ∧
    base.book.acc = [] ∧ base.book.ring.length ≤ 32768 ∧ base.gflag F.BOOK_MIR_CFG_EN = false ∧ (base.gput F.BOOK_MIR_CFG_EN 1).gflag F.BOOK_MIR_CFG_EN = true ∧ base.linkUp = false := by decide +kernel

/-! ### Clocks, feeds, start-up, resets -/

/-- A powered device at a start-up stage. -/
def started (n : Nat) (f : PwrSt → PwrSt) (s : State) : State := ({ s with pwr := f s.pwr } : State).setStage n

theorem test_hyp_Clocks :
    (State.moscFreq 1000 = 1 ∧ State.moscFreq 919 = 0 ∧ 92 * 1000 ≤ 100 * 920 ∧ State.moscFreq 920 = 1 ∧ State.moscFreq 10800 = 5 ∧ State.moscFreq 10801 = 0 ∧ State.moscFreq 0 = 0) ∧
    (let s := started BOOT_MOSC id State.reset
     s.powered = true ∧ s.stage = BOOT_MOSC ∧ s.pwr.resetN = true ∧ s.scanning = false) ∧
    (let s := (base.gput F.CLKGEN_MOSC_STAT_PRESENT 1).gput F.CLKGEN_MOSC_STAT_FREQ 1
     s.gflag F.CLKGEN_MOSC_STAT_PRESENT = true ∧ s.powered = true ∧ s.gcur F.CLKGEN_MOSC_STAT_FREQ ≠ 0) ∧ base.gflag F.CLKGEN_MOSC_STAT_PRESENT = false ∧
    (∀ k ∈ [0, 4], ∀ st ∈ [1, 2, 3], (base.gput (F.CLKGEN_ROOT_STAT_STATE k) st).rootSt k = st) ∧ base.srcLive (State.rootSrc 0) = true ∧ base.srcLive (State.rootSrc 4) = false := by decide +kernel

theorem test_hyp_Feeds :
    (∀ mv ∈ [4500, 18000], 4500 ≤ mv ∧ mv ≤ 18000) ∧ (∀ mv ∈ [4499, 18001], ¬ (4500 ≤ mv ∧ mv ≤ 18000)) ∧ base.powered = true ∧
    (∀ b, (base.gput (State.feedGoodF b) 1).gflag (State.feedGoodF b) = true ∧ base.gflag (State.feedGoodF b) = false) ∧
    (∀ b, let s := (started BOOT_FEEDCHK (fun p => { p with feedA := ⟨none, !b⟩ }) base).gput (State.feedGoodF b) 1
      s.clocked = true ∧ s.pwr.chk = none ∧ s.stage = BOOT_FEEDCHK ∧ (s.feedOf b).want = true ∧ ¬ (b = true ∧ s.pwr.feedA.want = true) ∧ s.gflag (State.feedGoodF b) = true) ∧
    (let s := ({ started BOOT_DONE (fun p => { p with feedA := ⟨some 0, true⟩ }) base with tick := 20000000 } : State).gput (State.feedGoodF false) 1
     s.stage ≠ BOOT_FEEDCHK ∧ s.autoDue false = true) ∧
    (∀ b, let s := cmd 9 CS_RUNNING (fun m => { m with done := b2n b }) { base with pwr := { base.pwr with selfTest := some 5 } }
      s.stage ≠ BOOT_FEEDCHK ∧ s.autoDue b = false ∧ s.pwr.selfTest = some 5 ∧ (s.cmd? 5).map (·.done) = some (b2n b) ∧ s.cmd? 5 ≠ none) ∧
    (∀ e ∈ [((4300 : Nat), (999999 : Nat), false), (4299, 0, true), (4300, 1000000, true)],
      let s : State := { base with pwr := { base.pwr with chk := some (true, some 5, 0) }, tick := e.2.1 }
      s.pwr.chk = some (true, some 5, 0) ∧ (4300 ≤ e.1 ∧ s.tick < 0 + 1000000 ↔ e.2.2 = false) ∧ (e.1 < 4300 ∨ 0 + 1000000 ≤ s.tick ↔ e.2.2 = true)) := by decide +kernel

theorem test_hyp_StartUp :
    (let s := State.reset
     s.powered = true ∧ s.stage = BOOT_RAILS ∧ s.pwr.resetN = true ∧ s.pwr.gd = false ∧ s.scanning = false) ∧
    (let s := (started BOOT_ROOT id State.reset).gput (F.CLKGEN_ROOT_STAT_STATE 0) 2
     s.powered = true ∧ s.stage = BOOT_ROOT ∧ s.rootSt 0 = 2 ∧ s.pwr.rootRetry = false ∧ s.loader.dev = none) ∧
    (let s := started BOOT_ROOT (fun p => { p with rootRetry := true }) State.reset
     s.pwr.rootRetry = true ∧ s.stage = BOOT_ROOT) ∧
    (let s := started BOOT_FEEDCHK (fun p => { p with feedA := ⟨none, false⟩, feedB := ⟨none, false⟩ }) State.reset
     s.powered = true ∧ s.stage = BOOT_FEEDCHK ∧ s.pwr.chk = none ∧ s.pwr.feedA.want = false ∧ s.pwr.feedB.want = false) ∧
    (let s := started BOOT_VAULT id State.reset
     s.powered = true ∧ s.stage = BOOT_VAULT ∧ s.gcur F.VAULT_STAT_STAGE ≠ VS_STOPPED ∧ s.vault.own = OWN_UNOWNED ∧ s.vault.storeSeed = none ∧ s.vault.vbatLost = false ∧ s.vault.seed = none ∧
       s.tally.copyA = none ∧ s.tally.copyB = none ∧ s.gflag F.TALLY_STAT_LOST = false) := by decide +kernel

theorem test_hyp_StartUp_loaded :
    (∀ p ∈ [0, 1],
      let s : State := gset F.TWIN_CFG_PAIR p (started BOOT_LOADING id { base with loader := { base.loader with dev := some (5, claim, []) }, vault := { base.vault with mCmn := some [] } })
      s.vault.mCmn ≠ none ∧ s.stage = BOOT_LOADING ∧ (∀ n : ChanIx, s.img[n].job = none) ∧ s.loader.dev.isSome = true ∧ s.gflag F.TWIN_CFG_PAIR = (p == 1)) := by decide +kernel

theorem test_hyp_Resets :
    (let s : State := { base with pwr := { base.pwr with pst := .off } }
     ¬ s.powered = true ∧ s.pwr.pst = .off ∧ (∀ mv ∈ [4500, 18000], 4500 ≤ mv ∧ mv ≤ 18000) ∧ ¬ (4500 ≤ 4499)) ∧
    (base.powered = true ∧ base.pwr.resetN = true ∧ (base.gput (State.feedGoodF true) 1).gflag (State.feedGoodF true) = true ∧
      ({ base with pwr := { base.pwr with resetN := false } } : State).pwr.resetN = false) ∧
    (∀ c ∈ [3, 4], let s : State := { base with fault := { base.fault with resetDue := some (c, 1, false) } }
      s.scanning = false ∧ s.clocked = true ∧ s.fault.resetDue = some (c, 1, false) ∧ 2 ≤ c ∧ c < 8) ∧
    (base.clocked = true ∧ base.fault.resetDue = none ∧ base.chSt 0 = CH_RUN ∧ ¬ (base.chSt 1 = CH_RUN ∨ base.chSt 1 = CH_RECONFIG) ∧ full.dpll.stepNext = none) := by decide +kernel

/-- A command that records nothing leaves the tick of channel 0 to begin; a record of a later tick stays. -/
theorem test_hyp_Resets_tick :
    (base.fault.blockDue = [] ∧ base.turn .counterAdvance) ∧
    (let v := base.clear.tickLast.bookFlush
     v.fault.resetDue = none ∧ v.chSt 0 = CH_RUN ∧ v.recordWaits 0 = false) ∧
    (let s : State := { base with fault := { base.fault with resetDue := some (3, 1, false) } }
     s.clear.tickLast.bookFlush.fault.resetDue = some (3, 1, false)) ∧
    ({ base with held := [.todSentenceWindowEnd 0 3] } : State).recordWaits 0 = true :=
  ⟨⟨rfl, turn_of_empty _ rfl rfl⟩, by decide +kernel, by decide +kernel, by decide⟩

/-! ### Known answers -/

theorem test_sha : sha256 (ascii "abc") = beBytes 32 0xba7816bf8f01cfea414140de5dae2223b00361a396177a9cb410ff61f20015ad := by decide +kernel
theorem test_sha384 : sha384 (ascii "abc") = beBytes 48 0xcb00753f45a35e8bb5a03d699ac65007272c32ab0eded1631a8b605a43ff5bed8086072ba1e7cc2358baeca134c825a7 := by decide +kernel
theorem test_sbox : sbox 0x53#8 = 0xED#8 ∧ sboxInv 0xED#8 = 0x53#8 := by decide +kernel
theorem test_pubKey_doubles_the_generator : pubKey 2 = beBytes 96 0x08d999057ba3d2d969260045c55b97f089025959a6f434d651d207d19fb96e9e4fe0e86ebe0e64f85b96a9c75295df618e80f1fa5b1b3cedb7bfe8dffd6dba74b275d875bc6cc43e904e505f256ab4255ffd43e94d39e22d61501e700a940e80 := by decide +kernel
theorem test_ecdsa_accepts_its_own_signature : (let z := sha384 (ascii "abc"); let r := p384G.1 % p384N
  ecdsaVerify (pubBytes p384G) z r ((fromBe z + r) % p384N)) = true := by decide +kernel

end Sys2Proof.Tests
end

section
/-! Commands that may bring clock rates into use complete while the rates in use are legal (R428). -/
namespace Sys2Proof.Machine

/-- No clock root has in use the pair that R428 rules out. -/
def State.legalUse (u : State) : Prop := ∀ r : Fin 5, getField (u.guse .clkgen (CLKGEN_ROOT_CFG r.val)) 0 2 ≠ 3

theorem State.rated.legalUse {s : State} (h : s.rated) : s.legalUse := fun r => (h r).1

theorem State.legalUse.congr {s u : State} (h : s.legalUse) (e : ∀ k, u.guse .clkgen k = s.guse .clkgen k) : u.legalUse := fun r => by
  rw [e]; exact h r

theorem State.legalUse.ratioBad {u : State} (h : u.legalUse) : u.ratioBad = false := by
  have hb : ∀ r, r < 5 → (getField (u.guse .clkgen (CLKGEN_ROOT_CFG r)) 0 2 == 3) = false := fun r hr => beq_eq_false_iff_ne.mpr (h ⟨r, hr⟩)
  unfold State.ratioBad
  dsimp only
  rw [hb 0 (by decide), Bool.and_false, Bool.false_or, List.any_eq_false]
  intro n _
  rw [hb (n.val + 1) (by omega), Bool.and_false]
  exact Bool.false_ne_true

/-- What follows a command's own effect leaves every clock setting in use as it is. -/
theorem follow_guse_clkgen (old u : State) (k : ℕ) : (State.follow old u).guse .clkgen k = u.guse .clkgen k := by
  have hF : State.onlyIn [.hostif, .cmdq, .fault, .vault, .book, .tally, .twin, .bench, .pwr, .image, .ch, .free, .out] u (State.follow old u) :=
    in_follow old rfl (State.onlyIn_refl _ _)
  unfold State.guse
  rw [State.onlyIn_rf hF .clkgen (by decide)]

/-- In its turn a command completes whose effect leaves legal rates in use. -/
theorem exec_turn_legal {s : State} {i : Instr} (h : s.turn i) (hs : s.scanning = false) (hl : (s.clear.effect i).legalUse) :
    exec i s = .next (s.clear.follow (s.clear.effect i)) :=
  exec_turn_rated h hs (hl.congr (follow_guse_clkgen _ _)).ratioBad

theorem acts_legal {i : Instr} {s : State} {q : State → Prop} (hs : s.scanning = false) (hl : (s.clear.effect i).legalUse) (hq : q (s.clear.effect i)) :
    Acts i s q := fun h => ⟨_, hq, exec_turn_legal h hs hl⟩

/-- A command that writes a channel's register, where the rates in use are legal. -/
theorem actsOn_write_rated {i : Instr} {s : State} {p : HostPath} {n : ChanIx} {q : Channel → Prop} (b : KB) (off : ℕ) (v : Word)
    (hx : s.clear.effect i = s.clear.writeCh p n b off v) (ho : s.open p) (hrt : s.rated) (hr : s.running n = true) (ha : off % 4 = 0)
    (hb : off < 0x100000) (hf : (findReg (kbRegs b) off).isSome = true) (hq : q (s.ch[n].hostWrite p.org b off v)) : ActsOn i s n q := fun h => by
  have hw : s.clear.effect i = s.clear.setCh n (Channel.settle s.ch[n] (s.ch[n].hostWrite p.org b off v)) := by
    rw [hx, writeCh_eq b v (open_clear ho) (by simpa using hr) ha hb hf]; rfl
  refine ⟨_, hq, ?_⟩
  rw [exec_turn_legal h ho.1 (by rw [hw]; exact hrt.legalUse), hw]

/-- A command that writes a common register and leaves legal rates in use. -/
theorem acts_write_legal {i : Instr} {s : State} {p : HostPath} {q : State → Prop} (b : CB) (off : ℕ) (v : Word)
    (hx : s.clear.effect i = s.clear.writeCom p b off v) (ho : s.open p) (ha : off % 4 = 0) (hb : off < 0x10000)
    (hf : (findReg (gbRegs b) off).isSome = true)
    (hq : (s.clear.gHostWrite p.org b off v).legalUse ∧ q (s.clear.gHostWrite p.org b off v)) : Acts i s q := by
  have hw : s.clear.effect i = s.clear.gHostWrite p.org b off v := hx.trans (writeCom_eq b v (open_clear ho) ha hb hf)
  exact acts_legal ho.1 (hw ▸ hq.1) (hw ▸ hq.2)

end Sys2Proof.Machine
end

section
/-! What a write leaves in each field of a register (R8 to R11). -/
namespace Sys2Proof.Machine

/-! ### Bits of fields -/

theorem getField_lt (x : Word) (l w : ℕ) : getField x l w < 2 ^ w := Nat.mod_lt _ (by positivity)

theorem testBit_getField (x : Word) {l w k : ℕ} (hk : k < w) : (getField x l w).testBit k = bit x (l + k) := by
  unfold getField bit getField
  rw [Nat.testBit_mod_two_pow, Nat.testBit_div_two_pow, Nat.testBit_eq_decide_div_mod_eq, Nat.add_comm k l, pow_one]
  simp [hk, beq_eq_decide]

theorem w1cLeft_succ (w o x h : ℕ) : w1cLeft (w + 1) o x h =
    w1cLeft w o x h + if o / 2 ^ w % 2 = 1 ∧ (x / 2 ^ w % 2 = 0 ∨ h / 2 ^ w % 2 = 1) then 2 ^ w else 0 := by
  unfold w1cLeft upTo
  rw [List.range_succ, List.foldl_append, List.foldl_cons, List.foldl_nil]
  split <;> simp

theorem w1cLeft_lt (w o x h : ℕ) : w1cLeft w o x h < 2 ^ w := by
  induction w with
  | zero => exact Nat.one_pos
  | succ w ih =>
    rw [w1cLeft_succ, pow_succ]
    split <;> omega

/-- A clear leaves the bits not written with 1 and those that hardware has set in this tick (R9, R11). -/
theorem testBit_w1cLeft (w o x h : ℕ) {k : ℕ} (hk : k < w) :
    (w1cLeft w o x h).testBit k = (o.testBit k && (!x.testBit k || h.testBit k)) := by
  induction w with
  | zero => omega
  | succ w ih =>
    rw [w1cLeft_succ]
    rcases Nat.lt_succ_iff_lt_or_eq.mp hk with hlt | rfl
    · rw [← ih hlt]
      split
      · rw [Nat.add_comm, Nat.testBit_two_pow_add_gt hlt]
      · rfl
    · have hx : x.testBit k = false ↔ x / 2 ^ k % 2 = 0 := by rw [Nat.testBit_eq_decide_div_mod_eq]; simp
      have hlow : (w1cLeft k o x h).testBit k = false := Nat.testBit_lt_two_pow (w1cLeft_lt k o x h)
      split
      · next hc =>
        rw [Nat.add_comm, Nat.testBit_two_pow_add_eq, hlow]
        obtain ⟨h1, h2⟩ := hc
        rw [← hx] at h2
        simp only [Nat.testBit_eq_decide_div_mod_eq (x := o), Nat.testBit_eq_decide_div_mod_eq (x := h), h1] at *
        rcases h2 with h2 | h2 <;> simp [h2]
      · next hc =>
        rw [Nat.add_zero, hlow]
        rw [← hx] at hc
        simp only [Nat.testBit_eq_decide_div_mod_eq (x := o), Nat.testBit_eq_decide_div_mod_eq (x := h)]
        by_cases h1 : o / 2 ^ k % 2 = 1
        · simp only [h1, true_and, not_or] at hc
          simp [h1, hc.1, hc.2]
        · simp [h1]

/-! ### A register whose fields do not overlap -/

/-- The fields of a register lie in the word and do not overlap. -/
def RegSpec.apart (g : RegSpec) : Prop :=
  (∀ f ∈ g.fields, f.lsb + f.w ≤ 32) ∧ g.fields.Pairwise (fun a b => a.lsb + a.w ≤ b.lsb ∨ b.lsb + b.w ≤ a.lsb)

theorem apart_of_find {gs : List RegSpec} (h : gs.all fieldsFit = true) {off : ℕ} {g : RegSpec} (hg : findReg gs off = some g) : g.apart := by
  have hfit : fieldsFit g = true := List.all_eq_true.mp h g (List.mem_of_find?_eq_some hg)
  unfold fieldsFit at hfit
  rw [Bool.and_eq_true] at hfit
  exact ⟨fun f hf => of_decide_eq_true (List.all_eq_true.mp hfit.1 f hf), of_decide_eq_true hfit.2⟩

theorem kb_apart {b : KB} {off : ℕ} {g : RegSpec} (hg : findReg (kbRegs b) off = some g) : g.apart := apart_of_find (allFit.1 b) hg
theorem gb_apart {b : CB} {off : ℕ} {g : RegSpec} (hg : findReg (gbRegs b) off = some g) : g.apart := apart_of_find (allFit.2 b) hg

/-- What a field that held `o` holds, `n`, once the code `x` has been written to it, `h` being the bits of its register that hardware has set
in this tick. -/
def Fld.becomes (f : Fld) (l : Bool) (h : Word) (x o n : ℕ) : Prop :=
  match f.acc with
  | .rw | .rws => n = if f.ok.admits f.w x then x else o
  | .rwl => n = if l = false ∧ f.ok.admits f.w x = true then x else o
  | .ro | .wo => n = o
  | .w1s => n = o ||| x
  | .w1c => ∀ k, k < f.w → n.testBit k = (o.testBit k && (!x.testBit k || bit h (f.lsb + k)))

namespace RegSpec
variable {g : RegSpec} {f : Fld} (l : Bool) (v h w : Word)

/-- A write leaves a reserved bit as it is (R10). -/
theorem write_reserved (ha : g.apart) {k : ℕ} (hk : ∀ f ∈ g.fields, k < f.lsb ∨ f.lsb + f.w ≤ k) : bit (g.write l v h w) k = bit w k := by
  unfold bit RegSpec.write
  rw [fold_other]
  intro f hf
  refine ⟨ha.1 f hf, ?_⟩
  have := hk f hf
  omega

/-- A field of a word written is what its own rule makes of a word that agrees with the old one on it. -/
theorem write_by_field (ha : g.apart) (hf : f ∈ g.fields) :
    ∃ u : Word, getField u f.lsb f.w = getField w f.lsb f.w ∧ getField (g.write l v h w) f.lsb f.w = getField (f.write l v h u) f.lsb f.w :=
  write_field l v h w hf ha.1 ha.2

theorem write_rw (ha : g.apart) (hf : f ∈ g.fields) (hk : f.acc = .rw ∨ f.acc = .rws) :
    getField (g.write l v h w) f.lsb f.w = if f.ok.admits f.w (getField v f.lsb f.w) then getField v f.lsb f.w else getField w f.lsb f.w := by
  obtain ⟨u, hu, hw⟩ := write_by_field l v h w ha hf
  have hx := Nat.mod_eq_of_lt (getField_lt v f.lsb f.w)
  rw [hw, ← hu]
  have hput : getField (if f.ok.admits f.w (getField v f.lsb f.w) then putField u f.lsb f.w (getField v f.lsb f.w) else u) f.lsb f.w =
      if f.ok.admits f.w (getField v f.lsb f.w) then getField v f.lsb f.w else getField u f.lsb f.w := by
    split
    · rw [getField_putField_same _ _ (ha.1 f hf), hx]
    · rfl
  unfold Fld.write
  rcases hk with hk | hk <;> rw [hk] <;> exact hput

theorem write_rwl (ha : g.apart) (hf : f ∈ g.fields) (hk : f.acc = .rwl) : getField (g.write l v h w) f.lsb f.w =
    if l = false ∧ f.ok.admits f.w (getField v f.lsb f.w) = true then getField v f.lsb f.w else getField w f.lsb f.w := by
  obtain ⟨u, hu, hw⟩ := write_by_field l v h w ha hf
  have hx := Nat.mod_eq_of_lt (getField_lt v f.lsb f.w)
  rw [hw, ← hu]
  unfold Fld.write
  rw [hk]
  dsimp only
  cases l <;> cases f.ok.admits f.w (getField v f.lsb f.w) <;> simp [getField_putField_same _ _ (ha.1 f hf), hx]

theorem write_ro (ha : g.apart) (hf : f ∈ g.fields) (hk : f.acc = .ro ∨ f.acc = .wo) :
    getField (g.write l v h w) f.lsb f.w = getField w f.lsb f.w := by
  obtain ⟨u, hu, hw⟩ := write_by_field l v h w ha hf
  rw [hw, ← hu]
  unfold Fld.write
  rcases hk with hk | hk <;> rw [hk]

theorem write_w1s (ha : g.apart) (hf : f ∈ g.fields) (hk : f.acc = .w1s) :
    getField (g.write l v h w) f.lsb f.w = getField w f.lsb f.w ||| getField v f.lsb f.w := by
  obtain ⟨u, hu, hw⟩ := write_by_field l v h w ha hf
  rw [hw, ← hu]
  unfold Fld.write
  rw [hk]
  dsimp only
  rw [getField_putField_same _ _ (ha.1 f hf), Nat.mod_eq_of_lt (Nat.or_lt_two_pow (getField_lt _ _ _) (getField_lt _ _ _))]

theorem write_w1c (ha : g.apart) (hf : f ∈ g.fields) (hk : f.acc = .w1c) {k : ℕ} (hlt : k < f.w) : (getField (g.write l v h w) f.lsb f.w).testBit k =
    ((getField w f.lsb f.w).testBit k && (!(getField v f.lsb f.w).testBit k || bit h (f.lsb + k))) := by
  obtain ⟨u, hu, hw⟩ := write_by_field l v h w ha hf
  rw [hw, ← hu]
  unfold Fld.write
  rw [hk]
  dsimp only
  rw [getField_putField_same _ _ (ha.1 f hf), Nat.mod_eq_of_lt (w1cLeft_lt _ _ _ _), testBit_w1cLeft _ _ _ _ hlt, testBit_getField h hlt]

theorem write_becomes (ha : g.apart) (hf : f ∈ g.fields) :
    f.becomes l h (getField v f.lsb f.w) (getField w f.lsb f.w) (getField (g.write l v h w) f.lsb f.w) := by
  unfold Fld.becomes
  cases hacc : f.acc with
  | rw => exact write_rw l v h w ha hf (.inl hacc)
  | rws => exact write_rw l v h w ha hf (.inr hacc)
  | rwl => exact write_rwl l v h w ha hf hacc
  | ro => exact write_ro l v h w ha hf (.inl hacc)
  | wo => exact write_ro l v h w ha hf (.inr hacc)
  | w1s => exact write_w1s l v h w ha hf hacc
  | w1c => exact fun k hk => write_w1c l v h w ha hf hacc hk

end RegSpec
end Sys2Proof.Machine
end

section
/-! A write of a register that has no action of its own (R8 to R11). -/
namespace Sys2Proof.Machine

/-- What such a write does to a channel: the word is stored, no value in use changes and no other word. -/
theorem Channel.hostWrite_plain (c : Channel) (org : Origin) {b : KB} {off : ℕ} {v : Word} {g : RegSpec} (hg : findReg (kbRegs b) off = some g)
    (hm : multiIn (kbMulti b) off = none) (hw : g.writable = true) (hp : c.hasPart b off = true) (hi : c.ignores b off v = false)
    (hl : ¬ (b = .dpll ∧ 0xF0100 ≤ off ∧ off < 0xF0180)) (hact : ∀ (x : Channel) (w : Writer), (x.action w b off v).2 = x) :
    Channel.onlyIn [b.part, .jour, .asks] c (c.hostWrite org b off v) ∧ (∀ a k, (c.hostWrite org b off v).useWord a k = c.useWord a k) ∧
    (∀ a k, a ≠ b ∨ k ≠ off → (c.hostWrite org b off v).word a k = c.word a k) ∧ (c.hostWrite org b off v).word b off = c.stored b off v g := by
  obtain ⟨c2, es, h2, he⟩ := Channel.hostWrite_single c org b v hg hm hw hp hi (decide_eq_false hl)
  rw [he, hact]
  obtain ⟨hon, _, _, _, _, huse⟩ := cmd_c2 h2
  obtain ⟨hword, hother⟩ := cmd_word hg h2
  refine ⟨onlyIn_effs (by simp) es hon, fun a k => ?_, fun a k hk => hother a k (hk.imp Ne.symm Ne.symm), hword⟩
  exact congrArg (smGet (kbRst a k) · k) (huse a)

/-- A word stored brings no value into use. -/
theorem State.gStore_guse (s : State) (l : Bool) (b : CB) (off : ℕ) (v : Word) (a : CB) (k : ℕ) : (s.gStore l b off v).guse a k = s.guse a k := by
  obtain ⟨f, hf, hfu⟩ := State.gStore_eq s l b off v
  rw [hf]
  unfold State.guse
  by_cases e : b = a
  · subst e; rw [rf_setRf_self, hfu]
  · rw [rf_setRf_ne _ _ e]

/-- What is in use and what is stored are the registers' alone. -/
theorem guse_of_regs {s t : State} (h : s.regs = t.regs) (b : CB) (k : ℕ) : s.guse b k = t.guse b k := by unfold State.guse State.rf; rw [h]
theorem gword_of_regs {s t : State} (h : s.regs = t.regs) (b : CB) (k : ℕ) : s.gword b k = t.gword b k := by unfold State.gword State.rf; rw [h]

/-- An entry of the cellar book for a write changes no register. -/
theorem regs_s2 {s s2 : State} {b : CB} {off : ℕ} {v : Word} (h : s2 = s.gStore false b off v ∨ ∃ c, s2 = (s.gStore false b off v).book1 c) :
    s2.regs = (s.gStore false b off v).regs := by
  rcases h with rfl | ⟨c, rfl⟩ <;> rfl

/-- The frame of a write of a common register, from the state with its last outputs to the one without. -/
theorem in_write_of_clear {s u : State} {b : CB} (h : State.onlyIn [b.part, .hostif, .book, .tally, .free, .out] s.clear u) :
    State.onlyIn [b.part, .hostif, .book, .tally, .free, .out] s u :=
  State.onlyIn_trans (in_clear (by simp [stPartsIn]) (State.onlyIn_refl _ _)) h

/-- What such a write does to the common complex. -/
theorem State.gHostWrite_plain (s : State) (org : Origin) {b : CB} {off : ℕ} {v : Word} {g : RegSpec} (hg : findReg (gbRegs b) off = some g)
    (hm : multiIn (gbMulti b) off = none) (hw : g.writable = true) (hi : s.gIgnores b off = false) (hs : ∀ t : State, t.gStored b off v = t)
    (hact : ∀ (x : State) (o : Origin), (x.gAction o b off v).2 = x) :
    State.onlyIn [b.part, .hostif, .book, .tally, .free, .out] s (s.gHostWrite org b off v) ∧
    (∀ a k, (s.gHostWrite org b off v).guse a k = s.guse a k) ∧
    (∀ a k, a ≠ b ∨ k ≠ off → (s.gHostWrite org b off v).gword a k = s.gword a k) ∧
    (s.gHostWrite org b off v).gword b off = s.gStoredWord b off v g := by
  obtain ⟨s2, h2, he⟩ := State.gHostWrite_single s org b v hg hm hw hi hs
  have hregs := regs_s2 h2
  rw [he, hact]
  exact ⟨onlyIn_s2 h2, fun a k => (guse_of_regs hregs a k).trans (s.gStore_guse false b off v a k),
    fun a k hk => (gword_of_regs hregs a k).trans (s.gStore_word_ne false b a v (hk.imp Ne.symm Ne.symm)),
    (gword_of_regs hregs b off).trans (s.gStore_word false b off v hg)⟩

end Sys2Proof.Machine

namespace Sys2Proof
open Sys2Proof.Machine

/-- Settles O9: the word stored is the register's own, and each field of it follows its type. -/
theorem registerWriteFollowsTheFieldTypes : Obligations.RegisterWriteFollowsTheFieldTypes := by
  intro s p c b off v g f ho hrt hr ha hb hg hw hm hp hi hl hact hf
  refine actsOn_write_rated b off v rfl ho hrt hr ha hb (by rw [hg]; rfl) ?_
  obtain ⟨hon, huse, hother, hword⟩ := Channel.hostWrite_plain s.ch[c] p.org hg hm hw hp hi hl hact
  have hg' := kb_apart hg
  dsimp only
  refine ⟨hon, huse, hother, fun k _ hk => ?_, ?_⟩
  · rw [hword]; exact RegSpec.write_reserved _ _ _ _ hg' hk
  · rw [hword]; exact RegSpec.write_becomes _ _ _ _ hg' hf

/-- Settles O10, as O9: the entry in the cellar book changes no word of the block. -/
theorem commonRegisterWriteFollowsTheFieldTypes : Obligations.CommonRegisterWriteFollowsTheFieldTypes := by
  intro s p b off v g f ho hrt _ _ _ ha hb hg hw hm hi hs hact hf
  obtain ⟨hon, huse, hother, hword⟩ := State.gHostWrite_plain s.clear p.org hg hm hw hi hs hact
  refine acts_write_legal b off v rfl ho ha hb (by rw [hg]; rfl) ⟨hrt.legalUse.congr (huse .clkgen), ?_⟩
  have hg' := gb_apart hg
  dsimp only
  refine ⟨in_write_of_clear hon, huse b, fun k hk => hother b k (.inr hk), fun k _ hk => ?_, ?_⟩
  · rw [hword]; exact RegSpec.write_reserved _ _ _ _ hg' hk
  · rw [hword]; exact RegSpec.write_becomes _ _ _ _ hg' hf

end Sys2Proof
end

section
/-! Reads of the register window and the words that they latch (R7, R13). -/
namespace Sys2Proof.Machine

theorem setCh_self (s : State) (n : ChanIx) : s.setCh n s.ch[n] = s := by simp [State.setCh]

theorem route_absent {s : State} {n : ChanIx} {a : ℕ} (hr : s.running n = false) (h0 : a % 4 = 0) (h1 : 0x1000000 ≤ a) (h2 : a < 0x5000000)
    (h3 : a / 0x1000000 - 1 = n.val) : s.route a = .absent n := by
  have e1 : ¬ (a % 4 ≠ 0 ∨ 0x8000000 ≤ a) := by omega
  have e2 : ¬ a < 0x1000000 := by omega
  have e7 : Fin.ofNat 4 n.val = n := Fin.ext (Nat.mod_eq_of_lt n.isLt)
  unfold State.route
  rw [if_neg e1, if_neg e2, if_pos h2, h3, e7]
  simp only [hr, Bool.not_false, if_true]

/-- An offset of a channel that is not in RUN leads to the absent channel (R328). -/
theorem route_winReg_absent {s : State} {n : ChanIx} (b : KB) {off : ℕ} (hr : s.running n = false) (ha : off % 4 = 0) (ho : off < 0x100000) :
    s.route (winReg n b off) = .absent n := by
  obtain ⟨k, hk, hk9, _⟩ := kbBase_eq b
  have e : winReg n b off = 0x1000000 * (n.val + 1) + k * 0x100000 + off := by rw [winReg, hk]
  obtain ⟨h0, h1, h2, h3, _⟩ := winReg_parts n.val k off n.isLt hk9 ha ho
  rw [← e] at h0 h1 h2 h3
  exact route_absent hr h0 h1 h2 h3

theorem route_reserved_lt {s : State} {a : ℕ} (h : s.route a = .reserved) : a < 0x8000000 := by
  by_contra hn
  unfold State.route at h
  rw [if_pos (.inr (by omega))] at h
  exact Reach.noConfusion h

/-! ### What a read brings about -/

/-- A read by a path that is up: it answers the word read, and latches what the register says. -/
theorem acts_read {s : State} {p : HostPath} {a : ℕ} {q : State → Prop} (hs : s.scanning = false) (hp : s.pathUp p = true) (hr : s.route a ≠ .bad)
    (hq : q ((s.clear.hostRead a).2.emit (.readData (s.clear.hostRead a).1))) : Acts (.multiwordReadLatch p a) s q := by
  have e : s.clear.effect (.multiwordReadLatch p a) = (s.clear.hostRead a).2.emit (.readData (s.clear.hostRead a).1) := by
    show s.clear.readCmd p a = _
    unfold State.readCmd
    simp [hs, hp, hr]
  exact acts_intro hs rfl (e ▸ hq)

theorem hostRead_chan {s : State} {a off : ℕ} {n : ChanIx} {b : KB} (h : s.route a = .chan n b off) :
    s.hostRead a = ((s.ch[n].readReg b off).1, s.setCh n (s.ch[n].readReg b off).2) := by
  unfold State.hostRead
  rw [h]

theorem hostRead_absent {s : State} {a : ℕ} {n : ChanIx} (h : s.route a = .absent n) : s.hostRead a = (0xFFFFFFFF#32, s.noteAbsent n) := by
  unfold State.hostRead
  rw [h]

theorem hostRead_reserved {s : State} {a : ℕ} (h : s.route a = .reserved) : s.hostRead a = (0#32, s.noteReserved a) := by
  unfold State.hostRead
  rw [h]

namespace Channel
variable {c : Channel} {b : KB} {off : ℕ}

/-- The latch of a block after a read of the lowest of `n` words at `base` (R13). -/
def latched (c : Channel) (b : KB) (base n : ℕ) : List (ℕ × Word) :=
  (upTo n).foldl (fun l k => smPut (kbRst b (base + 4 * k)) l (base + 4 * k) (c.show' b (base + 4 * k))) (c.rf b).latch

theorem latched_get (c : Channel) (b : KB) (base : ℕ) {n k : ℕ} (hk : k < n) :
    smGet (kbRst b (base + 4 * k)) (c.latched b base n) (base + 4 * k) = c.show' b (base + 4 * k) := by
  have e : c.latched b base n =
      ((upTo n).map (base + 4 * ·)).foldl (fun u k => smPut (kbRst b k) u k (c.show' b k)) (c.rf b).latch := by
    rw [List.foldl_map]; rfl
  have hmem : base + 4 * k ∈ (upTo n).map (base + 4 * ·) := List.mem_map.mpr ⟨k, List.mem_range.mpr hk, rfl⟩
  rw [e, fold_get (rst := kbRst b) (c.show' b), if_pos hmem]

theorem readReg_single (hp : c.hasPart b off = true) (hm : multiIn (kbMulti b) off = none) : c.readReg b off = (c.show' b off, c) := by
  unfold readReg
  simp only [hp, hm, Bool.not_true, Bool.false_eq_true, if_false]

theorem readReg_lowest {n : ℕ} (hp : c.hasPart b off = true) (hm : multiIn (kbMulti b) off = some (off, n)) :
    c.readReg b off = (c.show' b off, c.setRf b { c.rf b with latch := c.latched b off n }) := by
  unfold readReg
  simp only [hp, hm, Bool.not_true, Bool.false_eq_true, if_false, if_true]
  rfl

theorem readReg_upper {o n : ℕ} (hp : c.hasPart b off = true) (hm : multiIn (kbMulti b) off = some (o, n)) (hne : o ≠ off) :
    c.readReg b off = (smGet (kbRst b off) (c.rf b).latch off, c) := by
  unfold readReg
  simp only [hp, hm, Bool.not_true, Bool.false_eq_true, if_false, if_neg hne.symm]

/-- A change of a block's latch changes no word of the channel, stored or in use. -/
theorem setRf_latch_words (c : Channel) (b : KB) (l : List (ℕ × Word)) (a : KB) (k : ℕ) :
    (c.setRf b { c.rf b with latch := l }).word a k = c.word a k ∧ (c.setRf b { c.rf b with latch := l }).useWord a k = c.useWord a k := by
  unfold word useWord
  by_cases e : b = a
  · subst e; rw [crf_setRf_self]; exact ⟨rfl, rfl⟩
  · rw [crf_setRf_ne _ _ e]; exact ⟨rfl, rfl⟩

end Channel

theorem noteAbsent_bit (s : State) (n : ChanIx) : bit ((s.noteAbsent n).gword .image IMAGE_ABSENT) n.val = true := by
  unfold State.noteAbsent bit
  rw [gword_gevtMask _ _ _ (by decide), or_bit _ _ (by omega)]
  rfl

end Sys2Proof.Machine

namespace Sys2Proof
open Sys2Proof.Machine

/-- Settles O13, by where the offset leads and which word of its value it names. -/
theorem readsLatchMultiWordValues : Obligations.ReadsLatchMultiWordValues := by
  intro s p c b off hs hp ha hb hf
  have hclear : State.onlyIn [.out] s s.clear := in_clear rfl (State.onlyIn_refl _ _)
  have hchan : s.running c = true → s.clear.route (winReg c b off) = .chan c b off := fun hr => route_winReg b hr ha hb hf
  have hread : s.running c = true → ∀ q : State → Prop,
      q ((s.clear.setCh c (s.ch[c].readReg b off).2).emit (.readData (s.ch[c].readReg b off).1)) →
      Acts (.multiwordReadLatch p (winReg c b off)) s q := fun hr q hq =>
    acts_read hs hp (by rw [show s.route _ = _ from hchan hr]; exact Reach.noConfusion) (by rw [hostRead_chan (hchan hr)]; exact hq)
  have hsame : s.clear.setCh c s.ch[c] = s.clear := setCh_self s.clear c
  dsimp only
  refine ⟨fun hr hpart hm => ?_, fun n hr hpart hm => ?_, fun o n hr hpart hm hne => ?_, fun hr => ?_, fun a h => ?_⟩
  · refine hread hr _ ?_
    rw [Channel.readReg_single hpart hm, hsame]
    exact ⟨in_emit _ rfl hclear, rfl⟩
  · refine hread hr _ ?_
    rw [Channel.readReg_lowest hpart hm]
    set d := s.ch[c].setRf b { s.ch[c].rf b with latch := s.ch[c].latched b off n } with hd
    have hch : ((s.clear.setCh c d).emit (.readData (s.ch[c].show' b off))).ch[c] = d := setCh_ch_self s.clear c d
    refine ⟨in_emit _ rfl (in_setCh c d rfl (State.onlyIn_mono rfl hclear)), rfl, fun m hne => setCh_ch_ne s.clear d hne.symm, ?_, ?_, ?_⟩
    · rw [hch, hd]; exact on_setRf b _ (by simp) (Channel.onlyIn_refl _ _)
    · rw [hch]; exact fun a k => Channel.setRf_latch_words s.ch[c] b _ a k
    · rw [hch, hd, crf_setRf_self]; exact fun k hk => Channel.latched_get s.ch[c] b off hk
  · refine hread hr _ ?_
    rw [Channel.readReg_upper hpart hm hne, hsame]
    exact ⟨in_emit _ rfl hclear, rfl⟩
  · have h : s.clear.route (winReg c b off) = .absent c := route_winReg_absent b hr ha hb
    refine acts_read hs hp (by rw [show s.route _ = _ from h]; exact Reach.noConfusion) ?_
    rw [hostRead_absent h]
    exact ⟨in_emit _ rfl (in_noteAbsent c rfl (State.onlyIn_mono rfl hclear)), List.mem_append_right _ (List.mem_singleton_self _),
      noteAbsent_bit s.clear c⟩
  · have h' : s.clear.route a = .reserved := h
    refine acts_read hs hp (by rw [h]; exact Reach.noConfusion) ?_
    rw [hostRead_reserved h']
    have hlt : a < 2 ^ 32 := lt_trans (route_reserved_lt h) (by decide)
    obtain ⟨hcount, hlast⟩ := noted_gcur (s := s.clear) hlt
    exact ⟨in_emit _ rfl (in_noteReserved a rfl (State.onlyIn_mono rfl hclear)), rfl, hcount, hlast⟩

end Sys2Proof
end

section
/-! Writes of multi-word values (R13). -/
namespace Sys2Proof.Machine

theorem setRf_setRf (c : Channel) (b : KB) (f h : RegFile) : (c.setRf b f).setRf b h = c.setRf b h := by cases b <;> rfl
theorem setRf_rf (c : Channel) (b : KB) : c.setRf b (c.rf b) = c := by cases b <;> rfl

theorem find_smIns (m : List (ℕ × Word)) (a : ℕ) (v : Word) : (smIns m a v).find? (fun e => e.1 == a) = some (a, v) := by
  induction m with
  | nil => simp [smIns]
  | cons e r ih =>
    obtain ⟨k, x⟩ := e
    simp only [smIns]
    split
    · simp
    · next hk =>
      split
      · simp
      · simp [hk, ih]

namespace Channel

/-- The words of a value at `base` that wait, of the first `m`, are stored. -/
def storeHeld (wr : Writer) (b : KB) (base : ℕ) (held : List (ℕ × Word)) (m : ℕ) (c : Channel) : Channel :=
  (upTo m).foldl (fun c k =>
    match held.find? (fun e => e.1 == base + 4 * k) with
    | some e => c.storeWord wr b e.1 e.2
    | none => c) c

/-- The channel with a word of a value of `n` words at `base` written: the highest one is stored with those that wait, a lower one waits. -/
def storeMulti (wr : Writer) (b : KB) (base n off : ℕ) (acts : Bool) (v : Word) (c : Channel) : Channel :=
  if off = base + 4 * (n - 1) then
    let c1 := (storeHeld wr b base (c.rf b).held (n - 1) c).storeWord wr b off v
    c1.setRf b { c1.rf b with held := (c.rf b).held.filter (fun e => e.1 < base || base + 4 * n ≤ e.1) }
  else if acts then c.setRf b { c.rf b with held := smIns (c.rf b).held off v } else c

variable (wr : Writer) (b : KB) (base : ℕ) (held : List (ℕ × Word))

theorem storeHeld_succ (m : ℕ) (c : Channel) : storeHeld wr b base held (m + 1) c =
    match held.find? (fun e => e.1 == base + 4 * m) with
    | some e => (storeHeld wr b base held m c).storeWord wr b e.1 e.2
    | none => storeHeld wr b base held m c := by
  unfold storeHeld upTo
  rw [List.range_succ, List.foldl_append]
  rfl

theorem storeHeld_eq (m : ℕ) (c : Channel) : ∃ f, storeHeld wr b base held m c = c.setRf b f := by
  induction m with
  | zero => exact ⟨c.rf b, (setRf_rf c b).symm⟩
  | succ m ih =>
    obtain ⟨f, hf⟩ := ih
    rw [storeHeld_succ, hf]
    split
    · next e _ =>
      obtain ⟨h, hh⟩ := storeWord_eq (c.setRf b f) wr b e.1 e.2
      exact ⟨h, hh.trans (setRf_setRf c b f h)⟩
    · exact ⟨f, rfl⟩

theorem find_key {held : List (ℕ × Word)} {a : ℕ} {e : ℕ × Word} (h : held.find? (fun e => e.1 == a) = some e) : e.1 = a := by
  simpa using List.find?_some h

theorem storeHeld_word_ge {m k : ℕ} (c : Channel) (hk : m ≤ k) : (storeHeld wr b base held m c).word b (base + 4 * k) = c.word b (base + 4 * k) := by
  induction m with
  | zero => rfl
  | succ m ih =>
    rw [storeHeld_succ]
    split
    · next e he =>
      have hne : e.1 ≠ base + 4 * k := by rw [find_key he]; omega
      rw [storeWord_word_ne _ _ _ _ _ (.inr hne), ih (by omega)]
    · exact ih (by omega)

/-- Where each word of the value is one RW field, those that wait come into their registers, and the others stay. -/
theorem storeHeld_word {m k : ℕ} (c : Channel) (hk : k < m) (hfull : ∀ (x : Channel) (w : Word), (x.storeWord wr b (base + 4 * k) w).word b (base + 4 * k) = w) :
    (storeHeld wr b base held m c).word b (base + 4 * k) =
      match held.find? (fun e => e.1 == base + 4 * k) with
      | some e => e.2
      | none => c.word b (base + 4 * k) := by
  induction m with
  | zero => omega
  | succ m ih =>
    rw [storeHeld_succ]
    rcases Nat.lt_succ_iff_lt_or_eq.mp hk with hlt | rfl
    · rw [← ih hlt]
      split
      · next e he =>
        have hne : e.1 ≠ base + 4 * k := by rw [find_key he]; omega
        exact storeWord_word_ne _ _ _ _ _ (.inr hne)
      · rfl
    · split
      · next e he => rw [find_key he]; exact hfull _ _
      · exact storeHeld_word_ge wr b base held c le_rfl

theorem storeMulti_eq (n off : ℕ) (acts : Bool) (v : Word) (c : Channel) : ∃ f, storeMulti wr b base n off acts v c = c.setRf b f := by
  unfold storeMulti
  split
  · obtain ⟨f, hf⟩ := storeHeld_eq wr b base (c.rf b).held (n - 1) c
    obtain ⟨h, hh⟩ := storeWord_eq (c.setRf b f) wr b off v
    rw [hf, hh, setRf_setRf, setRf_setRf]
    exact ⟨_, rfl⟩
  · split
    · exact ⟨_, rfl⟩
    · exact ⟨c.rf b, (setRf_rf c b).symm⟩

/-- A host's write of a word of a value, where the register has no action of its own. -/
theorem hostWrite_multi (c : Channel) (org : Origin) {b : KB} {off base n : ℕ} (v : Word) {g : RegSpec} (hg : findReg (kbRegs b) off = some g)
    (hm : multiIn (kbMulti b) off = some (base, n)) (hw : g.writable = true) (hp : c.hasPart b off = true) (hi : c.ignores b off v = false)
    (hl : ¬ (b = .dpll ∧ 0xF0100 ≤ off ∧ off < 0xF0180)) (hact : ∀ (x : Channel) (w : Writer), (x.action w b off v).2 = x) :
    ∃ (c2 : Channel) (es : List Eff), (c2 = storeMulti ⟨org, false⟩ b base n off (g.acts (c.locked b) v) v c ∨
        c2 = (storeMulti ⟨org, false⟩ b base n off (g.acts (c.locked b) v) v c).journal (.cmd (winReg c.ix b off) v org.code none)) ∧
      c.hostWrite org b off v = { c2 with effs := c2.effs ++ es } := by
  set c1 := storeMulti ⟨org, false⟩ b base n off (g.acts (c.locked b) v) v c with hc1
  obtain ⟨c2, h2, hwr⟩ : ∃ c2, (c2 = c1 ∨ c2 = c1.journal (.cmd (winReg c.ix b off) v org.code none)) ∧ (c.writeReg ⟨org, false⟩ b off v).2 = c2 := by
    refine ⟨if (g.acts (c.locked b) v || (c1.action ⟨org, false⟩ b off v).1) && (b == .ref || b == .dpll) then
      c1.journal (.cmd (winReg c.ix b off) v org.code none) else c1, ?_, ?_⟩
    · split
      · exact .inr rfl
      · exact .inl rfl
    · unfold writeReg
      simp only [hg, hm, hw, hp, hi, decide_eq_false hl, hact, Bool.not_true, Bool.not_false, Bool.and_true, Bool.or_false, Bool.false_eq_true, if_false]
      rfl
  unfold hostWrite
  dsimp only
  rw [hwr]
  split
  · exact ⟨c2, _, h2, rfl⟩
  · exact ⟨c2, [], h2, (effs_nil _).symm⟩

end Channel

/-! ### DPLL.STEP_VAL -/

/-- The register of the words of STEP_VAL: one RW field of 32 bits. -/
def stepValReg : RegSpec := ⟨0x200, [(0x4, 4)], [⟨0, 32, .rw, 0, .any⟩]⟩

theorem stepVal_find {k : ℕ} (hk : k < 4) : findReg (kbRegs .dpll) (DPLL_STEP_VAL k) = some stepValReg ∧
    multiIn (kbMulti .dpll) (DPLL_STEP_VAL k) = some (0x200, 4) := by interval_cases k <;> decide

theorem stepVal_off {k : ℕ} (hk : k < 4) : DPLL_STEP_VAL k % 4 = 0 ∧ DPLL_STEP_VAL k < 0xF0100 ∧ DPLL_STEP_VAL k ≠ DPLL_CTL ∧
    DPLL_STEP_VAL k ≠ DPLL_STEP_CMD := by interval_cases k <;> decide

theorem action_stepVal (c : Channel) (w : Writer) {k : ℕ} (hk : k < 4) (v : Word) : (c.action w .dpll (DPLL_STEP_VAL k) v).2 = c := by
  obtain ⟨_, hlt, hctl, hcmd⟩ := stepVal_off hk
  unfold Channel.action
  simp only [if_neg hctl, if_neg hcmd]
  rw [if_neg (by omega)]

theorem putField_all (w : Word) (v : Word) : putField w 0 32 (getField v 0 32) = v := by
  unfold putField getField
  apply BitVec.eq_of_toNat_eq
  have := w.isLt
  have := v.isLt
  simp only [BitVec.toNat_ofNat]
  omega

theorem storeWord_stepVal (c : Channel) (w : Writer) {k : ℕ} (hk : k < 4) (v : Word) :
    (c.storeWord w .dpll (DPLL_STEP_VAL k) v).word .dpll (DPLL_STEP_VAL k) = v :=
  (Channel.storeWord_word c w .dpll _ v (stepVal_find hk).1).trans (putField_all _ v)

/-- What a write of a word of STEP_VAL does to the channel. -/
theorem hostWrite_stepVal (c : Channel) (org : Origin) {k : ℕ} (hk : k < 4) (v : Word) :
    let d := c.hostWrite org .dpll (DPLL_STEP_VAL k) v
    Channel.onlyIn [.dpll, .jour, .asks] c d ∧ d.dpll = c.dpll ∧ ∀ b, d.rf b = (c.storeMulti ⟨org, false⟩ .dpll 0x200 4 (DPLL_STEP_VAL k) true v).rf b := by
  obtain ⟨hg, hm⟩ := stepVal_find hk
  obtain ⟨_, hlt, _, _⟩ := stepVal_off hk
  obtain ⟨c2, es, h2, he⟩ := Channel.hostWrite_multi c org v hg hm rfl (Channel.hasPart_none c rfl)
    (Channel.ignores_not_sched c _ v (by decide) (by decide)) (by omega) (fun x w => action_stepVal x w hk v)
  rw [show stepValReg.acts (c.locked .dpll) v = true from rfl] at h2
  obtain ⟨f, hf⟩ := Channel.storeMulti_eq ⟨org, false⟩ .dpll 0x200 4 (DPLL_STEP_VAL k) true v c
  have hon : Channel.onlyIn [.dpll, .jour, .asks] c (c.setRf .dpll f) := on_setRf _ _ rfl (Channel.onlyIn_refl _ _)
  rw [he]
  rw [hf] at h2 ⊢
  rcases h2 with rfl | rfl
  · exact ⟨onlyIn_effs rfl es hon, rfl, fun b => rfl⟩
  · exact ⟨onlyIn_effs rfl es (on_journal _ rfl hon), rfl, fun b => rfl⟩

/-- A lower word only waits. -/
theorem storeMulti_stepVal_lower (c : Channel) (wr : Writer) {k : ℕ} (hk : k < 3) (v : Word) :
    c.storeMulti wr .dpll 0x200 4 (DPLL_STEP_VAL k) true v = c.setRf .dpll { c.rf .dpll with held := smIns (c.rf .dpll).held (DPLL_STEP_VAL k) v } := by
  unfold Channel.storeMulti
  rw [if_neg (by unfold DPLL_STEP_VAL; omega), if_pos rfl]

/-- The highest word is stored, behind those that wait. -/
theorem storeMulti_stepVal_highest (c : Channel) (wr : Writer) (v : Word) (o : ℕ) : (c.storeMulti wr .dpll 0x200 4 (DPLL_STEP_VAL 3) true v).word .dpll o =
    ((Channel.storeHeld wr .dpll 0x200 (c.rf .dpll).held 3 c).storeWord wr .dpll (DPLL_STEP_VAL 3) v).word .dpll o := rfl

end Sys2Proof.Machine

namespace Sys2Proof
open Sys2Proof.Machine

/-- Settles O14: a lower word goes to the words that wait, the highest brings them to their registers. -/
theorem multiWordWritesWaitForTheHighestWord : Obligations.MultiWordWritesWaitForTheHighestWord := by
  intro s p c v ho hrt hr
  have hcmd : ∀ k, k < 4 → ∀ q : Channel → Prop, q (s.ch[c].hostWrite p.org .dpll (DPLL_STEP_VAL k) v) →
      ActsOn (.registerWrite p (winReg c .dpll (DPLL_STEP_VAL k)) v) s c q := fun k hk q hq => by
    obtain ⟨ha, hlt, _, _⟩ := stepVal_off hk
    exact actsOn_write_rated .dpll _ v rfl ho hrt hr ha (by omega) (by rw [(stepVal_find hk).1]; rfl) hq
  dsimp only
  refine ⟨fun k hk => hcmd k (by omega) _ ?_, hcmd 3 (by omega) _ ?_⟩
  · obtain ⟨hon, hdpll, hrf⟩ := hostWrite_stepVal s.ch[c] p.org (show k < 4 by omega) v
    rw [storeMulti_stepVal_lower _ _ hk] at hrf
    refine ⟨hon, hdpll, fun b o => ?_, ?_⟩
    · unfold Channel.word
      rw [hrf]
      by_cases e : KB.dpll = b
      · subst e; rw [crf_setRf_self]
      · rw [crf_setRf_ne _ _ e]
    · rw [hrf, crf_setRf_self]
      exact find_smIns _ _ v
  · obtain ⟨hon, hdpll, hrf⟩ := hostWrite_stepVal s.ch[c] p.org (show 3 < 4 by omega) v
    have hword : ∀ o, (s.ch[c].hostWrite p.org .dpll (DPLL_STEP_VAL 3) v).word .dpll o =
        ((Channel.storeHeld ⟨p.org, false⟩ .dpll 0x200 (s.ch[c].rf .dpll).held 3 s.ch[c]).storeWord ⟨p.org, false⟩ .dpll (DPLL_STEP_VAL 3) v).word .dpll o :=
      fun o => (congrArg (fun r : RegFile => smGet (kbRst .dpll o) r.cur o) (hrf .dpll)).trans (storeMulti_stepVal_highest _ _ v o)
    refine ⟨hon, hdpll, (hword _).trans (storeWord_stepVal _ _ (by omega) v), fun k hk => ?_⟩
    rw [hword, Channel.storeWord_word_ne _ _ _ _ _ (.inr (by unfold DPLL_STEP_VAL; omega))]
    exact Channel.storeHeld_word ⟨p.org, false⟩ .dpll 0x200 _ s.ch[c] hk (fun x w => storeWord_stepVal x _ (by omega) w)

end Sys2Proof
end

section
/-! LOCK, and the shadows that a commit of a locked block copies (R8, R12). -/
namespace Sys2Proof.Machine

/-! ### Frozen shadows -/

/-- An update of a word field by field, each within its own field, leaves every other field. -/
theorem foldl_fields_other {fs : List Fld} {F : Word → Fld → Word} {a b : ℕ} (w : Word)
    (hF : ∀ f ∈ fs, ∀ w, getField (F w f) a b = getField w a b) : getField (fs.foldl F w) a b = getField w a b := by
  induction fs generalizing w with
  | nil => rfl
  | cons f r ih => exact (ih (F w f) fun x hx => hF x (List.mem_cons_of_mem _ hx)).trans (hF f List.mem_cons_self w)

/-- The RWL fields of a word as they are in use, the others as they are. -/
def keepField (use w : Word) (f : Fld) : Word := if f.acc = .rwl then putField w f.lsb f.w (getField use f.lsb f.w) else w

theorem keepField_other (use w : Word) {f : Fld} {a b : ℕ} (h32 : f.lsb + f.w ≤ 32) (hd : f.lsb + f.w ≤ a ∨ a + b ≤ f.lsb) :
    getField (keepField use w f) a b = getField w a b := by
  unfold keepField
  split
  · exact getField_putField_ne _ _ h32 hd
  · rfl

theorem keepField_self (use w : Word) {f : Fld} (h32 : f.lsb + f.w ≤ 32) :
    getField (keepField use w f) f.lsb f.w = getField (if f.acc = .rwl then use else w) f.lsb f.w := by
  unfold keepField
  split
  · rw [getField_putField_same _ _ h32, Nat.mod_eq_of_lt (getField_lt _ _ _)]
  · rfl

theorem foldl_keepField {fs : List Fld} (use w : Word) {f : Fld} (hf : f ∈ fs) (h32 : ∀ f ∈ fs, f.lsb + f.w ≤ 32)
    (hp : fs.Pairwise (fun a b => a.lsb + a.w ≤ b.lsb ∨ b.lsb + b.w ≤ a.lsb)) :
    getField (fs.foldl (keepField use) w) f.lsb f.w = getField (if f.acc = .rwl then use else w) f.lsb f.w := by
  induction fs generalizing w with
  | nil => cases hf
  | cons e r ih =>
    obtain ⟨he, hr⟩ := List.pairwise_cons.mp hp
    rw [List.foldl_cons]
    rcases List.mem_cons.mp hf with rfl | hf
    · rw [foldl_fields_other _ fun x hx w => keepField_other use w (h32 x (List.mem_cons_of_mem _ hx)) (he x hx).symm]
      exact keepField_self use w (h32 _ List.mem_cons_self)
    · rw [ih (keepField use w e) hf (fun x hx => h32 x (List.mem_cons_of_mem _ hx)) hr]
      split
      · rfl
      · exact keepField_other use w (h32 _ List.mem_cons_self) (he f hf)

theorem keepLocked_field {gs : List RegSpec} {k : ℕ} {g : RegSpec} {f : Fld} (use w : Word) (hg : findReg gs k = some g) (ha : g.apart) (hf : f ∈ g.fields) :
    getField (keepLocked gs k use w) f.lsb f.w = getField (if f.acc = .rwl then use else w) f.lsb f.w := by
  unfold keepLocked
  rw [hg]
  exact foldl_keepField use w hf ha.1 ha.2

/-- What a commit copies of a register after a lock: its RWL fields as they are in use, its others as they stood. -/
theorem frozenShadows_field {gs : List RegSpec} (rst : ℕ → Word) (use sh : List (ℕ × Word)) {k : ℕ} {g : RegSpec} {f : Fld}
    (hg : findReg gs k = some g) (ha : g.apart) (hf : f ∈ g.fields) : getField (smGet (rst k) (frozenShadows gs rst use sh) k) f.lsb f.w =
      getField (if f.acc = .rwl then smGet (rst k) use k else smGet (rst k) sh k) f.lsb f.w := by
  unfold frozenShadows
  rw [fold_get (rst := rst) (fun k => keepLocked gs k (smGet (rst k) use k) (smGet (rst k) sh k))]
  split
  · exact keepLocked_field _ _ hg ha hf
  · next hn =>
    rw [List.mem_dedup, List.map_append, List.mem_append, not_or] at hn
    rw [smGet_absent _ _ _ hn.1, smGet_absent _ _ _ hn.2, ite_self]

namespace Channel
variable (x : Channel) (b : KB) (ctl : ℕ)

theorem copies_word (k : ℕ) : (x.copies b ctl).word b k = smGet (kbRst b k) (x.shadows b ctl) k := by
  unfold copies trial word
  rw [crf_setRf_self]

theorem copies_word_unlocked {k : ℕ} (hk : k ≠ ctl) (h : x.wasLocked b = false) :
    (x.copies b ctl).word b k = smGet (kbRst b k) ((x.rf b).before (kbRst b)) k := by
  rw [copies_word]
  unfold shadows
  simp only [h, Bool.false_eq_true, if_false]
  exact smGet_smPut_ne _ _ _ _ hk

theorem copies_field_locked {k : ℕ} {g : RegSpec} {f : Fld} (hk : k ≠ ctl) (h : x.wasLocked b = true) (hg : findReg (kbRegs b) k = some g)
    (hf : f ∈ g.fields) : getField ((x.copies b ctl).word b k) f.lsb f.w =
      getField (if f.acc = .rwl then x.useWord b k else smGet (kbRst b k) ((x.rf b).before (kbRst b)) k) f.lsb f.w := by
  rw [copies_word]
  unfold shadows
  simp only [h, if_true]
  rw [frozenShadows_field (kbRst b) _ _ hg (kb_apart hg) hf, smGet_smPut_ne _ _ _ _ hk]
  rfl

end Channel

namespace State
variable (x : State) (b : CB)

theorem copies_gword (k : ℕ) : (x.copies b).gword b k = smGet (gbRst b k) (x.gShadows b) k := by
  unfold copies gword
  rw [rf_setRf_self]

theorem copies_gword_unlocked {k : ℕ} (hk : k ≠ 0) (h : x.gWasLocked b = false) :
    (x.copies b).gword b k = smGet (gbRst b k) ((x.rf b).before (gbRst b)) k := by
  rw [copies_gword]
  unfold gShadows
  simp only [h, Bool.false_eq_true, if_false]
  exact smGet_smPut_ne _ _ _ _ hk

theorem copies_gfield_locked {k : ℕ} {g : RegSpec} {f : Fld} (hk : k ≠ 0) (h : x.gWasLocked b = true) (hg : findReg (gbRegs b) k = some g)
    (hf : f ∈ g.fields) : getField ((x.copies b).gword b k) f.lsb f.w =
      getField (if f.acc = .rwl then x.guse b k else smGet (gbRst b k) ((x.rf b).before (gbRst b)) k) f.lsb f.w := by
  rw [copies_gword]
  unfold gShadows
  simp only [h, if_true]
  rw [frozenShadows_field (gbRst b) _ _ hg (gb_apart hg) hf, smGet_smPut_ne _ _ _ _ hk]
  rfl

end State

/-! ### The control registers with a LOCK bit -/

theorem lock_spec {og : Option RegSpec} (hfit : fieldsFit (og.getD ⟨0, [], []⟩) = true)
    (h : og.any (fun g => g.writable && g.fields.contains ⟨29, 1, .w1s, 0, .any⟩) = true) :
    ∃ g, og = some g ∧ g.writable = true ∧ (⟨29, 1, .w1s, 0, .any⟩ : Fld) ∈ g.fields ∧ fieldsFit g = true := by
  cases og with
  | none => cases h
  | some g =>
    obtain ⟨hw, hf⟩ := Bool.and_eq_true_iff.mp h
    exact ⟨g, rfl, hw, by simpa using hf, hfit⟩

theorem lockReg_chan (c : ChanIx) {b : KB} {o : ℕ} (h : lockOff b = some o) : lockReg (.chan c b) = some (winReg c b o) := by
  show (lockOff b).map (winReg c b) = _
  rw [h]
  rfl

theorem lockReg_common {b : CB} (h : gbHasLock b = true) : lockReg (.common b) = some (gReg b 0) := if_pos h

/-- A write of a block's LOCK bit alone locks the block and changes no other word and no value in use. -/
theorem hostWrite_lock (c : Channel) (org : Origin) {b : KB} {o : ℕ} {v : Word} (hL : lockOff b = some o) (hp : c.hasPart b o = true)
    (h29 : bit v 29 = true) (h31 : bit v 31 = false) : Channel.onlyIn [b.part, .jour, .asks] c (c.hostWrite org b o v) ∧ (c.hostWrite org b o v).locked b = true ∧
      (∀ a k, (c.hostWrite org b o v).useWord a k = c.useWord a k) ∧ ∀ a k, a ≠ b ∨ k ≠ o → (c.hostWrite org b o v).word a k = c.word a k := by
  obtain ⟨_, hlt, hm, hfit, hany, hl⟩ := lock_reg hL
  obtain ⟨g, hg, hw, hmem, hfit⟩ := lock_spec hfit hany
  have hi : c.ignores b o v = false := by
    refine Channel.ignores_low c v hlt ?_
    rintro ⟨rfl, rfl⟩
    exact absurd hL (by decide)
  obtain ⟨hon, huse, hother, hword⟩ := Channel.hostWrite_plain c org hg hm hw hp hi (of_decide_eq_false hl) (fun x w => action_lock x w v hL h31)
  refine ⟨hon, ?_, huse, hother⟩
  unfold Channel.locked
  rw [hL]
  dsimp only
  rw [hword]
  exact lock_bit hfit _ _ _ _ hmem h29

theorem gStored_ctl (t : State) (b : CB) (v : Word) : t.gStored b 0 v = t := by cases b <;> rfl

theorem gAction_lock (t : State) (org : Origin) {b : CB} {v : Word} (h : gbHasLock b = true) (h31 : bit v 31 = false)
    (h28 : b = .twin → bit v 28 = bit v 27) : (t.gAction org b 0 v).2 = t := by
  by_cases hb : b = .twin
  · exact gaction_lock t org v h h31 (h28 hb)
  · unfold State.gAction
    cases b <;> first | exact absurd rfl hb | (simp [gbHasLock] at h; done) | (simp only [h31]; rfl)

/-- The same of a common block. -/
theorem gHostWrite_lock (s : State) (org : Origin) {b : CB} {v : Word} (hL : gbHasLock b = true) (h28 : b = .twin → bit v 28 = bit v 27)
    (h29 : bit v 29 = true) (h31 : bit v 31 = false) : State.onlyIn [b.part, .hostif, .book, .tally, .free, .out] s (s.gHostWrite org b 0 v) ∧
      (s.gHostWrite org b 0 v).gLocked b = true ∧ (∀ a k, (s.gHostWrite org b 0 v).guse a k = s.guse a k) ∧
      ∀ k, k ≠ 0 → (s.gHostWrite org b 0 v).gword b k = s.gword b k := by
  obtain ⟨hm, hfit, hany, hi⟩ := glock_reg hL
  obtain ⟨g, hg, hw, hmem, hfit⟩ := lock_spec hfit hany
  obtain ⟨hon, huse, hother, hword⟩ := State.gHostWrite_plain s org hg hm hw (hi s) (fun t => gStored_ctl t b v) (fun x o => gAction_lock x o hL h31 h28)
  refine ⟨hon, ?_, huse, fun k hk => hother b k (.inr hk)⟩
  unfold State.gLocked
  rw [hL, hword]
  exact lock_bit hfit _ _ _ _ hmem h29

/-- LANE_NOM of a lane is one RWL field: a write under LOCK leaves the word as it is. -/
theorem hostWrite_laneNom_locked (c : Channel) (org : Origin) (n : Fin 8) (v : Word) (hlock : c.locked .ref = true) :
    (c.hostWrite org .ref (REF_LANE_NOM n.val) v).word .ref (REF_LANE_NOM n.val) = c.word .ref (REF_LANE_NOM n.val) := by
  obtain ⟨_, _, hm, hpart, hctl, hsel, hcmd⟩ := nom_off n
  obtain ⟨_, _, _, hword⟩ := Channel.hostWrite_plain c org (v := v) (nom_reg n) hm rfl (Channel.hasPart_none c hpart)
    (Channel.ignores_not_sched c _ v (by decide) (by decide)) (fun h => KB.noConfusion h.1) (fun x w => by rw [action_plain x w v hctl hsel hcmd])
  rw [hword]
  unfold Channel.stored
  rw [hlock]
  rfl

end Sys2Proof.Machine

namespace Sys2Proof
open Sys2Proof.Machine

/-- Settles O15: the write of the bit, a write of LANE_NOM under it, and what a commit under it copies. -/
theorem lockFreezesABlock : Obligations.LockFreezesABlock := by
  intro s p v ho hrt h29 h31
  refine ⟨fun c b off hL hr hpart => ?_, fun b hL h28 => ?_, fun c n hr hlock => ?_, fun x b ctl k hk => ?_, fun x b k hk => ?_⟩
  · obtain ⟨ha, hlt, _, _, hany, _⟩ := lock_reg hL
    have hx : s.clear.effect (.blockLock p (.chan c b) v) = s.clear.writeCh p c b off v := by
      show effBlockLock p (.chan c b) v s.clear = _
      unfold effBlockLock
      rw [lockReg_chan c hL]
      rfl
    exact actsOn_write_rated b off v hx ho hrt hr ha (by omega) (Option.isSome_of_any hany) (hostWrite_lock s.ch[c] p.org hL hpart h29 h31)
  · have hx : s.clear.effect (.blockLock p (.common b) v) = s.clear.writeCom p b 0 v := by
      show effBlockLock p (.common b) v s.clear = _
      unfold effBlockLock
      rw [lockReg_common hL]
      rfl
    obtain ⟨_, _, hany, _⟩ := glock_reg hL
    obtain ⟨hon, hlock, huse, hother⟩ := gHostWrite_lock s.clear p.org hL h28 h29 h31
    exact acts_write_legal b 0 v hx ho rfl (by decide) (Option.isSome_of_any hany) ⟨hrt.legalUse.congr (huse .clkgen),
      in_write_of_clear hon, hlock, huse b, hother⟩
  · obtain ⟨ha, hlt, _⟩ := nom_off n
    exact actsOn_write_rated .ref _ v rfl ho hrt hr ha hlt (by rw [nom_reg]; rfl) (hostWrite_laneNom_locked s.ch[c] p.org n v hlock)
  · exact ⟨x.copies_word_unlocked b ctl hk, fun g f h hg hf => x.copies_field_locked b ctl hk h hg hf⟩
  · exact ⟨x.copies_gword_unlocked b hk, fun g f h hg hf => x.copies_gfield_locked b hk h hg hf⟩

end Sys2Proof
end

section
/-! COMMIT of a channel's block that brings its shadows into use at once (R12, R92, R120, R146, R304). -/
namespace Sys2Proof.Machine

theorem partsIn_mem_of {q : ChPart} {K L : List ChPart} (h : partsIn K L = true) (hq : q ∈ K) : L.contains q = true := List.all_eq_true.mp h q hq

/-- What a GNSS commit changes at once changes no value in use. -/
theorem us_gnssCommitted {c₀ x₀ : Channel} (old : Channel) (hF : Uses c₀ x₀) : Uses c₀ (Channel.gnssCommitted old x₀) := by
  refine hF.trans ?_
  unfold Channel.gnssCommitted
  dsimp only
  refine Uses.fold (us_trkIdle _ ?_) fun y k => Uses.ite (us_notchTo _ _ _ (Uses.refl y)) (Uses.ite (us_notchTo _ _ _ (Uses.refl y))
    (Uses.ite (Uses.refl y) (us_notchTo _ _ _ (Uses.refl y))))
  have h0 : Uses x₀ (if (old.fld F.GNSS_TRK_CFG_DISC, old.fld F.GNSS_SPC_GPS_D2, old.fld F.GNSS_SPC_GAL_D2) =
        (x₀.fld F.GNSS_TRK_CFG_DISC, x₀.fld F.GNSS_SPC_GPS_D2, x₀.fld F.GNSS_SPC_GAL_D2) then x₀
      else x₀.setGnss { x₀.gnss with oldSpc := some ⟨x₀.jour.tick, old.fld F.GNSS_TRK_CFG_DISC, old.fld F.GNSS_SPC_GPS_D2, old.fld F.GNSS_SPC_GAL_D2⟩ }) :=
    Uses.ite (Uses.refl x₀) (us_setGnss _ (Uses.refl x₀))
  exact Uses.ite h0 (us_linkTo _ h0)

/-- COMMIT in a block's control register commits the block (R12). -/
theorem action_commit (x : Channel) (w : Writer) {b : KB} {o : ℕ} {v : Word} (h : lockOff b = some o) (hv : bit v 31 = true) :
    (x.action w b o v).2 = x.commit b := by
  unfold Channel.action
  rw [hv]
  cases b <;> first | (injection h with h; subst h; rfl) | cases h

/-- A block whose COMMIT brings its shadows into use at once: its control register, its checks, what follows the copy and where, its CERR. -/
structure CommitsNow (b : KB) (ctl : ℕ) (ok : Channel → Bool) (after : Channel → Channel → Channel) (L : List ChPart) (cerr : KF) : Prop where
  reg : (findReg (kbRegs b) ctl).any (·.writable) = true ∧ multiIn (kbMulti b) ctl = none ∧ ctl % 4 = 0 ∧ ctl < 0x4000
  plain : ¬ (b = .gnss ∧ ctl = GNSS_SNAP_CTL)
  act : ∀ (x : Channel) (w : Writer) (v : Word), bit v 31 = true → (x.action w b ctl v).2 = x.commitNow b ctl ok (after x)
  checks : ∀ (x : Channel) (e : JBody), ok (x.journal e) = ok x
  uses : ∀ x d, Uses d (after x d)
  parts : partsIn [b.part, .jour, .asks] L = true
  frame : ∀ x d, Channel.onlyIn L d (after x d)
  cerr : cerr.blk = b ∧ cerr.off = ctl ∧ cerr.w = 1 ∧ cerr.lsb = 30

theorem commitsNow_ref : CommitsNow .ref REF_CTL Channel.refCommitOk (fun _ => Channel.dropDisabled) [.ref, .dpll, .jour, .asks] F.REF_CTL_CERR where
  reg := by decide
  plain := by decide
  act x w _ h := action_commit x w rfl h
  checks _ _ := rfl
  uses _ d := us_dropDisabled (Uses.refl d)
  parts := rfl
  frame _ d := on_dropDisabled rfl (Channel.onlyIn_refl _ d)
  cerr := by decide

theorem commitsNow_dpll : CommitsNow .dpll DPLL_CTL Channel.dpllCommitOk (fun _ => id) [.dpll, .jour, .asks] F.DPLL_CTL_CERR where
  reg := by decide
  plain := by decide
  act x w _ h := action_commit x w rfl h
  checks _ _ := rfl
  uses _ d := Uses.refl d
  parts := rfl
  frame _ d := Channel.onlyIn_refl _ d
  cerr := by decide

theorem commitsNow_gnss : CommitsNow .gnss GNSS_CTL Channel.gnssCommitOk Channel.gnssCommitted [.gnss, .jour, .asks] F.GNSS_CTL_CERR where
  reg := by decide
  plain := by decide
  act x w _ h := action_commit x w rfl h
  checks _ _ := rfl
  uses x d := us_gnssCommitted x (Uses.refl d)
  parts := rfl
  frame x d := on_gnssCommitted x rfl (Channel.onlyIn_refl _ d)
  cerr := by decide

theorem commitsNow_bench : CommitsNow .chctl CHCTL_B_CTL Channel.benchCommitOk (fun _ => Channel.benchCommitted) [.bench, .jour, .asks] F.CHCTL_B_CTL_CERR where
  reg := by decide
  plain := by decide
  act x w _ h := action_commit x w rfl h
  checks _ _ := rfl
  uses _ d := us_benchCommitted (Uses.refl d)
  parts := rfl
  frame _ d := on_benchCommitted rfl (Channel.onlyIn_refl _ d)
  cerr := by decide

/-- The state of the block that the checks of a commit see, and that comes into use. -/
def Channel.onCommit (c : Channel) (org : Origin) (b : KB) (ctl : ℕ) (v : Word) : Channel := (c.storeWord ⟨org, false⟩ b ctl v).copies b ctl

section
variable {b : KB} {ctl : ℕ} {ok : Channel → Bool} {after : Channel → Channel → Channel} {L : List ChPart} {cerr : KF} {c c2 : Channel} {org : Origin} {v : Word}
  {e : JBody}

/-- The entry in the journal changes neither the copied shadows nor what the checks say. -/
theorem CommitsNow.journaled (h : CommitsNow b ctl ok after L cerr) (h2 : c2 = c.storeWord ⟨org, false⟩ b ctl v ∨ c2 = (c.storeWord ⟨org, false⟩ b ctl v).journal e) :
    ok (c2.copies b ctl) = ok (c.onCommit org b ctl v) ∧ ∀ k, smGet (kbRst b k) (c2.shadows b ctl) k = (c.onCommit org b ctl v).word b k := by
  rcases h2 with rfl | rfl
  · exact ⟨rfl, fun k => (Channel.copies_word _ b ctl k).symm⟩
  · exact ⟨h.checks (c.onCommit org b ctl v) e, fun k => (Channel.copies_word _ b ctl k).symm⟩

/-- Where the checks pass, the shadows come into use. -/
theorem CommitsNow.took (h : CommitsNow b ctl ok after L cerr) (h2 : c2 = c.storeWord ⟨org, false⟩ b ctl v ∨ c2 = (c.storeWord ⟨org, false⟩ b ctl v).journal e)
    (hok : ok (c.onCommit org b ctl v) = true) : Channel.onlyIn L c (c2.commitNow b ctl ok (after c2)) ∧
      ∀ k, (c2.commitNow b ctl ok (after c2)).useWord b k = (c.onCommit org b ctl v).word b k := by
  obtain ⟨hsame, hshadow⟩ := h.journaled h2
  have hcommit : c2.commitNow b ctl ok (after c2) = after c2 (c2.setRf b { c2.rf b with use := c2.shadows b ctl }) := if_pos (hsame.trans hok)
  obtain ⟨hon, _⟩ := cmd_c2 h2
  rw [hcommit]
  refine ⟨Channel.onlyIn_trans (on_setRf b _ (partsIn_mem_of h.parts List.mem_cons_self) (Channel.onlyIn_mono h.parts hon)) (h.frame c2 _), fun k => ?_⟩
  unfold Channel.useWord
  rw [(h.uses c2 _).use b, crf_setRf_self]
  exact hshadow k

/-- Where they fail, CERR is set. -/
theorem CommitsNow.kept (h : CommitsNow b ctl ok after L cerr) (h2 : c2 = c.storeWord ⟨org, false⟩ b ctl v ∨ c2 = (c.storeWord ⟨org, false⟩ b ctl v).journal e)
    (hok : ok (c.onCommit org b ctl v) = false) : Channel.onlyIn [b.part, .jour, .asks] c (c2.commitNow b ctl ok (after c2)) ∧
      (c2.commitNow b ctl ok (after c2)).cur cerr = 1 ∧ ∀ a k, (c2.commitNow b ctl ok (after c2)).useWord a k = c.useWord a k := by
  obtain ⟨hsame, _⟩ := h.journaled h2
  have hcommit : c2.commitNow b ctl ok (after c2) = c2.evtMask b ctl (2 ^ 30) := if_neg (by rw [show ok (c2.trial b (c2.shadows b ctl)) = _ from hsame, hok]; decide)
  obtain ⟨hon, _, _, _, _, huse⟩ := cmd_c2 h2
  obtain ⟨hb, ho, hw, hl⟩ := h.cerr
  rw [hcommit]
  refine ⟨on_evtMask _ _ _ (by simp) (by simp [partsIn]) hon, ?_, fun a k => ?_⟩
  · subst hb ho
    exact w_cerr c2 cerr _ hw hl
  · unfold Channel.useWord
    rw [(us_evtMask b ctl (2 ^ 30) (Uses.refl c2)).use a, huse a]

/-- The command that writes COMMIT. -/
theorem CommitsNow.actsOn (h : CommitsNow b ctl ok after L cerr) {i : Instr} {s : State} {p : HostPath} {n : ChanIx} (hm : mayRate i = false)
    (hx : s.clear.effect i = s.clear.writeCh p n b ctl v) (ho : s.open p) (hr : s.running n = true) (hp : s.ch[n].hasPart b ctl = true) (hv : bit v 31 = true) :
    (ok (s.ch[n].onCommit p.org b ctl v) = true → ActsOn i s n (fun d => Channel.onlyIn L s.ch[n] d ∧
      ∀ k, k ≠ ctl → d.useWord b k = (s.ch[n].onCommit p.org b ctl v).word b k)) ∧
    (ok (s.ch[n].onCommit p.org b ctl v) = false → ActsOn i s n (fun d => Channel.onlyIn [b.part, .jour, .asks] s.ch[n] d ∧ d.cur cerr = 1 ∧
      ∀ a k, d.useWord a k = s.ch[n].useWord a k)) := by
  obtain ⟨hreg, hmulti, ha, hlt⟩ := h.reg
  have hi : s.ch[n].ignores b ctl v = false := Channel.ignores_low _ v hlt h.plain
  have hl : decide (b = .dpll ∧ 0xF0100 ≤ ctl ∧ ctl < 0xF0180) = false := decide_eq_false (by omega)
  have hcmd := fun q => actsOn_cmd (q := q) b ctl v hm hx ho hr ha (by omega) hreg hmulti hp hi hl
  refine ⟨fun hok => hcmd _ fun c2 es h2 => ?_, fun hok => hcmd _ fun c2 es h2 => ?_⟩
  · rw [h.act c2 _ v hv]
    obtain ⟨hon, huse⟩ := h.took h2 hok
    exact ⟨onlyIn_effs (partsIn_mem_of h.parts (by simp)) es hon, fun k _ => huse k⟩
  · rw [h.act c2 _ v hv]
    obtain ⟨hon, hcerr, huse⟩ := h.kept h2 hok
    exact ⟨onlyIn_effs (by simp) es hon, hcerr, huse⟩

end

/-! ### The checks -/

/-- The checks of R146. -/
theorem dpllCommitOk_iff (c : Channel) : c.dpllCommitOk = true ↔
    c.cur F.DPLL_BW_A_BW_ACQ ≤ 44915 ∧ c.cur F.DPLL_BW_A_BW_LOCK ≤ c.cur F.DPLL_BW_A_BW_ACQ ∧ c.cur F.DPLL_B_CFG_BW_B ≤ 44915 ∧
      c.cur F.DPLL_LOCK_TH_LOCK_TH ≤ c.cur F.DPLL_UNLOCK_TH_UNLOCK_TH ∧ c.cur F.DPLL_UNLOCK_TH_UNLOCK_TH ≤ c.cur F.DPLL_SL_TH_SL_TH ∧
      (1 ≤ c.cur F.DPLL_A_SLEW_SLEW ∧ c.cur F.DPLL_A_SLEW_SLEW ≤ 1000000) ∧ (1 ≤ c.cur F.DPLL_FWIN_FWIN ∧ c.cur F.DPLL_FWIN_FWIN ≤ 1024) ∧
      c.cur F.DPLL_A_CFG_APPLY_DLY ≠ 0 := by
  unfold Channel.dpllCommitOk
  simp only [Bool.and_eq_true, decide_eq_true_eq]
  omega

/-- The check of a bench group commit sees the copied HOPS (R304). -/
theorem benchCommitOk_copies (c : Channel) (ctl : ℕ) : (c.copies .chctl ctl).benchCommitOk = ((c.copies .chctl ctl).cur F.CHCTL_ENS_CFG_HOPS != 0) := rfl

end Sys2Proof.Machine

namespace Sys2Proof
open Sys2Proof.Machine

/-- Settles O16: the four blocks commit at once, each by its own checks. -/
theorem commitBringsShadowsIntoUse : Obligations.CommitBringsShadowsIntoUse := by
  intro s p c v ho hr hv
  have hpart : ∀ b ctl, partOf b ctl = none → s.ch[c].hasPart b ctl = true := fun b ctl h => Channel.hasPart_none _ h
  have hbench : (s.ch[c].onCommit p.org .chctl CHCTL_B_CTL v).benchCommitOk = ((s.ch[c].onCommit p.org .chctl CHCTL_B_CTL v).cur F.CHCTL_ENS_CFG_HOPS != 0) :=
    benchCommitOk_copies _ _
  have hdpll := dpllCommitOk_iff (s.ch[c].onCommit p.org .dpll DPLL_CTL v)
  obtain ⟨refTook, refKept⟩ := commitsNow_ref.actsOn (i := .refCommit p c v) rfl rfl ho hr (hpart .ref REF_CTL rfl) hv
  obtain ⟨dpllTook, dpllKept⟩ := commitsNow_dpll.actsOn (i := .dpllCommit p c v) rfl rfl ho hr (hpart .dpll DPLL_CTL rfl) hv
  obtain ⟨benchTook, benchKept⟩ := commitsNow_bench.actsOn (i := .bCtlCommit p c v) rfl rfl ho hr (hpart .chctl CHCTL_B_CTL rfl) hv
  refine ⟨refTook, refKept, fun h => dpllTook (hdpll.mpr h), fun h => dpllKept (Bool.eq_false_iff.mpr fun k => h (hdpll.mp k)), ?_, ?_, fun h => benchTook ?_,
    fun h => benchKept ?_⟩
  · exact fun hp hok => (commitsNow_gnss.actsOn (i := .gnssCommit p c v) rfl rfl ho hr hp hv).1 hok
  · exact fun hp hok => (commitsNow_gnss.actsOn (i := .gnssCommit p c v) rfl rfl ho hr hp hv).2 hok
  · rw [hbench]; exact bne_iff_ne.mpr h
  · rw [hbench]; exact bne_eq_false_iff_eq.mpr h

end Sys2Proof
end

section
/-! COMMIT of TWIN, BENCH and CLKGEN (R12, R283, R304, R425, R428, R429). -/
namespace Sys2Proof.Machine

/-- The state of the block that the checks of a commit see, and that comes into use. -/
def State.onCommit (s : State) (b : CB) (v : Word) : State := (s.gStore false b 0 v).copies b

theorem copies_of_regs {s t : State} (h : s.regs = t.regs) (b : CB) : (s.copies b).regs = (t.copies b).regs := by
  unfold State.copies State.gShadows State.gWasLocked State.gword State.setRf State.rf
  rw [h]

theorem clear_gStore (s : State) (l : Bool) (b : CB) (off : ℕ) (v : Word) : (s.clear.gStore l b off v).regs = (s.gStore l b off v).regs := by
  unfold State.gStore
  split <;> rfl

/-- A common block whose COMMIT brings its shadows into use: its checks, which see registers alone, and its CERR. -/
structure CommitsCom (b : CB) (ok : State → Bool) (cerr : GF) : Prop where
  blk : b = .twin ∨ b = .bench ∨ b = .clkgen
  commit : ∀ x : State, x.commitBlk b = x.gCommit b ok
  checks : ∀ x y : State, x.regs = y.regs → ok x = ok y
  cerr : cerr.blk = b ∧ cerr.off = 0 ∧ cerr.w = 1 ∧ cerr.lsb = 30

theorem commitsCom_twin : CommitsCom .twin State.twinOk F.TWIN_CTL_CERR where
  blk := by decide
  commit _ := rfl
  checks x y h := by unfold State.twinOk State.gcur; simp only [gword_of_regs h]
  cerr := by decide

theorem commitsCom_bench : CommitsCom .bench State.benchOk F.BENCH_CTL_CERR where
  blk := by decide
  commit _ := rfl
  checks x y h := by unfold State.benchOk State.gcur; simp only [gword_of_regs h]
  cerr := by decide

theorem commitsCom_clkgen : CommitsCom .clkgen State.clkgenOk F.CLKGEN_CTL_CERR where
  blk := by decide
  commit _ := rfl
  checks x y h := by unfold State.clkgenOk State.gcur; simp only [gword_of_regs h]
  cerr := by decide

/-- COMMIT in a block's control register commits the block; TWIN's, where it neither fences nor unfences (R279). -/
theorem gAction_commit (x : State) (org : Origin) {b : CB} {v : Word} (hb : b = .twin ∨ b = .bench ∨ b = .clkgen) (hv : bit v 31 = true)
    (h28 : b = .twin → bit v 28 = bit v 27) : (x.gAction org b 0 v).2 = x.commitBlk b := by
  unfold State.gAction
  rcases hb with rfl | rfl | rfl
  · show (if (0 : ℕ) = TWIN_CTL then x.twinCtl org v else (false, x)).2 = _
    rw [if_pos (show (0 : ℕ) = TWIN_CTL from rfl)]
    unfold State.twinCtl
    simp [hv, h28 rfl]
  · simp only [hv]; rfl
  · simp only [hv]; rfl

section
variable {b : CB} {ok : State → Bool} {cerr : GF} {s s2 : State} {v : Word}

theorem onCommit_regs (hregs : s2.regs = (s.gStore false b 0 v).regs) : (s2.copies b).regs = (s.onCommit b v).regs := copies_of_regs hregs b

/-- Where the checks pass, the shadows come into use. -/
theorem CommitsCom.took (h : CommitsCom b ok cerr) (hregs : s2.regs = (s.gStore false b 0 v).regs) (hok : ok (s.onCommit b v) = true) :
    ∀ k, (s2.gCommit b ok).guse b k = (s.onCommit b v).gword b k := fun k => by
  have hc : s2.gCommit b ok = s2.setRf b { s2.rf b with use := s2.gShadows b } := if_pos ((h.checks _ _ (onCommit_regs hregs)).trans hok)
  rw [hc, ← gword_of_regs (onCommit_regs hregs), State.copies_gword]
  unfold State.guse
  rw [rf_setRf_self]

/-- Where they fail, CERR is set and nothing comes into use. -/
theorem CommitsCom.kept (h : CommitsCom b ok cerr) (hregs : s2.regs = (s.gStore false b 0 v).regs) (hok : ok (s.onCommit b v) = false) :
    (s2.gCommit b ok).gcur cerr = 1 ∧ ∀ a k, (s2.gCommit b ok).guse a k = s.guse a k := by
  obtain ⟨hb, ho, hw, hl⟩ := h.cerr
  have hne : b ≠ .hostif := by rcases h.blk with e | e | e <;> rw [e] <;> decide
  have hrefused : ¬ ok (s2.copies b) = true := by rw [h.checks _ _ (onCommit_regs hregs), hok]; decide
  have hc : s2.gCommit b ok = s2.gevt cerr := by
    unfold State.gevt
    rw [hb, ho, hl]
    exact if_neg hrefused
  have hmark : Marked (fun _ _ => False) s2 (s2.gevt cerr) := mk_gevt s2 cerr (fun _ k => k) (fun _ k => k.elim)
  rw [hc]
  exact ⟨gcur_gevt s2 cerr (hb ▸ hne) hw (by omega), fun a k => (hmark.use a k).trans ((guse_of_regs hregs a k).trans (s.gStore_guse false b 0 v a k))⟩

/-- The write of COMMIT by a host. -/
theorem CommitsCom.write (h : CommitsCom b ok cerr) (s : State) (org : Origin) (hv : bit v 31 = true) (h28 : b = .twin → bit v 28 = bit v 27) :
    State.onlyIn [b.part, .hostif, .book, .tally, .free, .out] s (s.clear.gHostWrite org b 0 v) ∧
    (ok (s.onCommit b v) = true → ∀ k, (s.clear.gHostWrite org b 0 v).guse b k = (s.onCommit b v).gword b k) ∧
    (ok (s.onCommit b v) = false → (s.clear.gHostWrite org b 0 v).gcur cerr = 1 ∧ ∀ a k, (s.clear.gHostWrite org b 0 v).guse a k = s.guse a k) := by
  have hlock : gbHasLock b = true := by rcases h.blk with e | e | e <;> rw [e] <;> rfl
  obtain ⟨hm, hfit, hany, hi⟩ := glock_reg hlock
  obtain ⟨g, hg, hw, _, _⟩ := lock_spec hfit hany
  obtain ⟨s2, h2, he⟩ := State.gHostWrite_single s.clear org b v hg hm hw (hi _) (fun t => gStored_ctl t b v)
  have hregs : s2.regs = (s.gStore false b 0 v).regs := (regs_s2 h2).trans (clear_gStore s false b 0 v)
  rw [he, gAction_commit s2 org h.blk hv h28, h.commit]
  exact ⟨in_write_of_clear (in_gCommit b ok (by simp) (by simp [stPartsIn]) (onlyIn_s2 h2)), h.took hregs, h.kept hregs⟩

end

/-! ### The checks, and the rates that a commit of CLKGEN brings into use -/

theorem twinOk_iff (s : State) : s.twinOk = true ↔
    1 ≤ s.gcur F.TWIN_CFG_VINT_PER ∧ s.gcur F.TWIN_CFG_VINT_PER ≤ 60 ∧ s.gcur F.TWIN_CFG_BOOT_WAIT ≠ 0 := by
  unfold State.twinOk
  simp only [Bool.and_eq_true, decide_eq_true_eq, bne_iff_ne, and_assoc]

theorem clkgenOk_iff (s : State) : s.clkgenOk = true ↔
    s.gcur F.CLKGEN_MOSC_CFG_EXPECT = 0 ∨ s.gcur F.CLKGEN_MOSC_CFG_EXPECT = s.gcur F.CLKGEN_MOSC_STAT_FREQ := by
  unfold State.clkgenOk
  simp only [Bool.or_eq_true, beq_iff_eq]

/-- ROOT0 runs with the pair that R428 rules out. -/
theorem ratioBad_of_root0 {u : State} (hc : u.clocked = true) (h : getField (u.guse .clkgen (CLKGEN_ROOT_CFG 0)) 0 2 = 3) : u.ratioBad = true := by
  unfold State.ratioBad
  simp only [hc, h]
  rfl

/-- A command that may bring rates into use stops where they are not legal (R428). -/
theorem exec_ratioLimit {i : Instr} {s : State} (hs : s.scanning = false) (hm : mayRate i = true) (hbad : (s.perform i).ratioBad = true) :
    exec i s = .fault .ratioLimit := by
  rw [exec_eq]
  unfold carryOut
  simp [hs, hm, hbad]

end Sys2Proof.Machine

namespace Sys2Proof
open Sys2Proof.Machine

/-- Settles O18: the three blocks commit each by its own check, and CLKGEN's rates decide whether its commit completes. -/
theorem commonCommitsBringShadowsIntoUse : Obligations.CommonCommitsBringShadowsIntoUse := by
  intro s p v ho hv
  have htwin := twinOk_iff (s.onCommit .twin v)
  have hclk := clkgenOk_iff (s.onCommit .clkgen v)
  have hrefused : ∀ {P : Prop} {c : Bool}, (c = true ↔ P) → ¬ P → c = false := fun hc hn => Bool.eq_false_iff.mpr fun k => hn (hc.mp k)
  obtain ⟨benchFrame, benchTook, benchKept⟩ := commitsCom_bench.write s p.org hv (fun h => CB.noConfusion h)
  obtain ⟨clkFrame, clkTook, clkKept⟩ := commitsCom_clkgen.write s p.org hv (fun h => CB.noConfusion h)
  have hclkWrite : s.clear.effect (.clkgenCommit p v) = s.clear.gHostWrite p.org .clkgen 0 v := writeCom_eq .clkgen v (open_clear ho) rfl (by decide) rfl
  refine ⟨fun h28 => ?_, fun hok => ?_, fun hok => ?_, fun hok hlegal => ?_, fun hok hrt => ?_, fun hok hroot hturn hclocked => ?_⟩
  · obtain ⟨twinFrame, twinTook, twinKept⟩ := commitsCom_twin.write s p.org hv (fun _ => h28)
    exact ⟨fun hok => acts_write .twin 0 v rfl rfl ho rfl (by decide) rfl ⟨twinFrame, fun k _ => twinTook (htwin.mpr hok) k⟩,
      fun hok => acts_write .twin 0 v rfl rfl ho rfl (by decide) rfl ⟨twinFrame, twinKept (hrefused htwin hok)⟩⟩
  · exact acts_write .bench 0 v rfl rfl ho rfl (by decide) rfl ⟨benchFrame, fun k _ => benchTook (bne_iff_ne.mpr hok) k⟩
  · exact acts_write .bench 0 v rfl rfl ho rfl (by decide) rfl ⟨benchFrame, benchKept (bne_eq_false_iff_eq.mpr hok)⟩
  · have huse := clkTook (hclk.mpr hok)
    exact acts_write_legal .clkgen 0 v rfl ho rfl (by decide) rfl ⟨fun r => by rw [huse]; exact hlegal r, clkFrame, fun k _ => huse k⟩
  · obtain ⟨hcerr, huse⟩ := clkKept (hrefused hclk hok)
    exact acts_write_legal .clkgen 0 v rfl ho rfl (by decide) rfl ⟨hrt.legalUse.congr (huse .clkgen), clkFrame, hcerr, huse⟩
  · have hperform : s.perform (.clkgenCommit p v) = s.clear.follow (s.clear.gHostWrite p.org .clkgen 0 v) := by
      rw [perform_turn hturn, act_live _ (open_clear ho).1, hclkWrite]
    refine exec_ratioLimit ho.1 rfl (ratioBad_of_root0 hclocked ?_)
    rw [hperform, follow_guse_clkgen, clkTook (hclk.mpr hok)]
    exact hroot

end Sys2Proof
end

section
/-! Where the offsets of WIN_REG lead (R15, R445). -/
namespace Sys2Proof.Machine

/-- How far a replicated register reaches above its base. -/
def dimsReach (ds : List (ℕ × ℕ)) : ℕ := (ds.map fun d => d.1 * (d.2 - 1)).sum

theorem dimsCover_le_reach (ds : List (ℕ × ℕ)) (r : ℕ) (h : dimsCover ds r = true) : r ≤ dimsReach ds := by
  induction ds generalizing r with
  | nil => simp_all [dimsCover]
  | cons d ds ih =>
    obtain ⟨st, n⟩ := d
    simp only [dimsCover, Bool.if_false_right, Bool.and_eq_true, decide_eq_true_eq] at h
    obtain ⟨hi, hrest⟩ := h
    have hstep : r / st * st ≤ st * (n - 1) := by
      rw [Nat.mul_comm]; exact Nat.mul_le_mul_left st (by omega)
    have hbelow : r - r / st * st ≤ dimsReach ds := ih _ hrest
    have hreach : dimsReach ((st, n) :: ds) = st * (n - 1) + dimsReach ds := by simp [dimsReach]
    omega

/-- Every register of a channel's block lies in the 0x10_0000 bytes of its block. -/
theorem kbRegs_reach (b : KB) : (kbRegs b).all (fun g => decide (g.base + dimsReach g.dims < 0x100000)) = true := by
  cases b <;> decide

/-- A register's offset lies below 0x10_0000 (R15). -/
theorem findReg_kbRegs_lt {b : KB} {off : ℕ} (h : (findReg (kbRegs b) off).isSome = true) : off < 0x100000 := by
  obtain ⟨g, hg⟩ := Option.isSome_iff_exists.mp h
  have hcovers : g.covers off = true := List.find?_some (p := fun x : RegSpec => x.covers off) hg
  have hreach := List.all_eq_true.mp (kbRegs_reach b) g (List.mem_of_find?_eq_some hg)
  simp only [RegSpec.covers, Bool.and_eq_true, decide_eq_true_eq] at hcovers hreach
  have := dimsCover_le_reach g.dims _ hcovers.2
  omega

/-- Above the windows of the four channels WIN_REG is reserved (R15). -/
theorem route_above_channels (s : State) {a : ℕ} (h0 : a % 4 = 0) (hlo : 0x5000000 ≤ a) (hhi : a < 0x8000000) : s.route a = .reserved := by
  unfold State.route
  rw [if_neg (by omega), if_neg (by omega), if_neg (by omega)]

end Sys2Proof.Machine

namespace Sys2Proof
open Sys2Proof.Machine

/-- Settles O12: the offset formula block by block, and the address map by the channel's run state. -/
theorem offsetsOfTheRegisterWindow : Obligations.OffsetsOfTheRegisterWindow := by
  refine ⟨fun n off r hr => ?_, fun s => ⟨fun n b off ha hf => ?_, fun b off ha hlt hf => route_gReg s b ha hlt hf,
    fun a h0 hlo hhi => route_above_channels s h0 hlo hhi⟩⟩
  · have hbase : ∀ r ∈ [(KB.ref, 0x000000), (.dpll, 0x100000), (.syn, 0x200000), (.gnss, 0x300000), (.port, 0x400000), (.sched, 0x500000),
        (.sealb, 0x600000), (.pmu, 0x700000), (.chctl, 0x800000)], kbBase r.1 = r.2 := by decide
    rw [winReg, hbase r hr]
  · have hlt := findReg_kbRegs_lt hf
    refine ⟨hlt, ?_⟩
    cases hrun : s.running n
    case true => exact route_winReg b hrun ha hlt hf
    case false => exact route_winReg_absent b hrun ha hlt

end Sys2Proof
end

section
/-! Writes that reach no register (R15, R19, R328, R370, R381, R445). -/
namespace Sys2Proof.Machine

theorem hostWrite_down {s : State} {p : HostPath} (a : ℕ) (v : Word) (hp : s.pathUp p = false) : s.hostWrite p a v = s := by
  unfold State.hostWrite
  rw [hp]
  rfl

theorem hostWrite_up {s : State} {p : HostPath} (a : ℕ) (v : Word) (hs : s.scanning = false) (hp : s.pathUp p = true) :
    s.hostWrite p a v = s.writeAt p a v := by
  unfold State.hostWrite
  rw [hp, hs]
  rfl

theorem writeAt_reserved {s : State} (p : HostPath) {a : ℕ} (v : Word) (hsafe : s.safe = false) (h : s.route a = .reserved) :
    s.writeAt p a v = s.noteReserved a := by
  unfold State.writeAt
  rw [h, hsafe]
  rfl

theorem writeAt_absent {s : State} (p : HostPath) {a : ℕ} {n : ChanIx} (v : Word) (hsafe : s.safe = false) (h : s.route a = .absent n) :
    s.writeAt p a v = s.noteAbsent n := by
  unfold State.writeAt
  rw [h, hsafe]
  rfl

/-- In the safe state a write that is not taken is only counted (R370). -/
theorem writeAt_safe {s : State} (p : HostPath) {a : ℕ} (v : Word) (hsafe : s.safe = true) (hbad : s.route a ≠ .bad)
    (h : State.safeWritable (s.route a) = false) : s.writeAt p a v = s.gbumpSat F.FAULT_SAFE_STAT_WDISC := by
  unfold State.writeAt
  generalize s.route a = r at hbad h
  cases r with
  | bad => exact absurd rfl hbad
  | reserved => simp [hsafe, h]
  | absent n => simp [hsafe, h]
  | common b off => simp [hsafe, h]
  | chan n b off => simp [hsafe, h]

/-- A saturating counter of 16 bits after one more (R9). -/
theorem gcur_gbumpSat_wdisc (s : State) :
    (s.gbumpSat F.FAULT_SAFE_STAT_WDISC).gcur F.FAULT_SAFE_STAT_WDISC = min 65535 (s.gcur F.FAULT_SAFE_STAT_WDISC + 1) :=
  gcur_gput_lt s F.FAULT_SAFE_STAT_WDISC _ (by decide) (lt_of_le_of_lt (min_le_left _ _) (by decide))

/-- A write whose effect leaves CLKGEN alone completes while the rates in use are legal. -/
theorem acts_registerWrite {s u : State} {p : HostPath} {a : ℕ} {v : Word} {q : State → Prop} {L : List StPart} (hs : s.scanning = false) (hrt : s.rated)
    (hw : s.clear.hostWrite p a v = u) (hL : CB.clkgen.part ∉ L) (hon : State.onlyIn L s u) (hq : q u) : Acts (.registerWrite p a v) s q := by
  have hx : s.clear.effect (.registerWrite p a v) = u := hw
  refine acts_legal hs ?_ (hx ▸ hq)
  rw [hx]
  exact hrt.legalUse.congr fun k => by unfold State.guse; rw [State.onlyIn_rf hon .clkgen hL]

end Sys2Proof.Machine

namespace Sys2Proof
open Sys2Proof.Machine

/-- Settles O11, by what the address map and the safe state make of the write. -/
theorem writesThatReachNoRegister : Obligations.WritesThatReachNoRegister := by
  intro s p a v hs hrt
  have hclear : State.onlyIn [.out] s s.clear := in_clear rfl (State.onlyIn_refl _ _)
  have hup : s.pathUp p = true → s.clear.hostWrite p a v = s.clear.writeAt p a v := fun hp => hostWrite_up (s := s.clear) a v hs hp
  dsimp only
  refine ⟨fun hp => ?_, fun hp hsafe h => ?_, fun n hp hsafe h => ?_, fun hp hsafe hbad h => ?_⟩
  · exact acts_registerWrite hs hrt (hostWrite_down a v hp) (by decide) hclear rfl
  · have hw : s.clear.hostWrite p a v = s.clear.noteReserved a := (hup hp).trans (writeAt_reserved p v hsafe h)
    have hon : State.onlyIn [.hostif, .out] s (s.clear.noteReserved a) := in_noteReserved a rfl (State.onlyIn_mono rfl hclear)
    exact acts_registerWrite hs hrt hw (by decide) hon ⟨hon, noted_gcur (s := s.clear) (lt_trans (route_reserved_lt h) (by decide))⟩
  · have hw : s.clear.hostWrite p a v = s.clear.noteAbsent n := (hup hp).trans (writeAt_absent p v hsafe h)
    have hon : State.onlyIn [.hostif, .image, .out] s (s.clear.noteAbsent n) := in_noteAbsent n rfl (State.onlyIn_mono rfl hclear)
    exact acts_registerWrite hs hrt hw (by decide) hon ⟨hon, noteAbsent_bit s.clear n⟩
  · have hw : s.clear.hostWrite p a v = s.clear.gbumpSat F.FAULT_SAFE_STAT_WDISC := (hup hp).trans (writeAt_safe p v hsafe hbad h)
    have hon : State.onlyIn [.fault, .out] s (s.clear.gbumpSat F.FAULT_SAFE_STAT_WDISC) := in_gbumpSat _ rfl (State.onlyIn_mono rfl hclear)
    exact acts_registerWrite hs hrt hw (by decide) hon ⟨hon, gcur_gbumpSat_wdisc s.clear⟩

end Sys2Proof
end

section
/-! The order in which the commands of one tick act (R30 to R32, R81, R127, R267, R386). -/
namespace Sys2Proof.Machine

/-! ### A command that waits, and one that does not -/

/-- A command waits for one of its tick, held or still in the queue, that precedes it. -/
theorem waits_of_precedes {s : State} {a i : Instr} (ha : a ∈ s.held ∨ a ∈ s.window) (h : s.precedes a i = true) : s.waits i = true := by
  unfold State.waits State.blocked
  rw [Bool.or_eq_true]
  exact .inl (List.any_eq_true.mpr ⟨a, List.mem_append.mpr ha, h⟩)

/-- A command without a place of its own, which is no host access either, waits for none. -/
theorem waits_of_placeless {s : State} {i : Instr} (hplace : s.place i = []) (hpath : pathOf i = none) (hacc : accessOf i = none) :
    s.waits i = false := by
  have hprec : ∀ a, s.precedes a i = false := fun a => by
    unfold State.precedes State.chapterBefore
    rw [hplace, hpath]
    cases pathOf a with
    | none => simp
    | some p => cases p <;> simp
  have hkeep : ∀ a, s.keepsBack a i = false := fun a => by
    unfold State.keepsBack
    rw [hacc]
    cases accessOf a <;> rfl
  unfold State.waits State.blocked
  simp [hprec, hkeep]

theorem waits_counterAdvance (s : State) : s.waits .counterAdvance = false := waits_of_placeless rfl rfl rfl

/-- A command completes where neither it nor one that is held may bring clock rates into use (R428). -/
theorem exec_of_no_rates {i : Instr} {s : State} (h : ∀ a ∈ i :: s.held, mayRate a = false) : exec i s = .next (s.perform i) := by
  have hany : (i :: s.held).any mayRate = false := List.any_eq_false.mpr fun a ha => by rw [h a ha]; decide
  rw [exec_eq]
  unfold carryOut
  rw [hany, Bool.and_false]
  rfl

/-- The end of the tick: every held command acts, then the counters advance (R28). -/
theorem perform_counterAdvance (s : State) :
    s.perform .counterAdvance = State.act .counterAdvance (s.held.foldl (fun x h => State.act h x) { s with out := [], held := [] }) := by
  unfold State.perform
  rw [waits_counterAdvance]
  rfl

/-! ### The places of commands -/

/-- Two places of one unit, the first before the second, order their commands. -/
theorem precedes_of_places {s : State} {a b : Instr} {u : TickUnit} {j k : List ℤ} (ha : (u, j) ∈ s.place a) (hb : (u, k) ∈ s.place b)
    (h : keyBefore j k = true) : s.precedes a b = true := by
  have hchapter : s.chapterBefore a b = true :=
    List.any_eq_true.mpr ⟨_, ha, List.any_eq_true.mpr ⟨_, hb, by simp [h]⟩⟩
  unfold State.precedes
  rw [hchapter, Bool.true_or]

/-- A command that writes a register of a channel has no place but those of the write: behind the channel's load, and where the block's
chapter puts it. No such command has a line of its own in the table of places; the others write no register. -/
theorem place_of_access {s : State} {i : Instr} {p : HostPath} {a off : ℕ} {v : Word} {c : ChanIx} {b : KB} (hacc : accessOf i = some (p, a, v))
    (hroute : s.route a = .chan c b off) : s.place i = (.load c, [1]) :: chanWritePlace c b off := by
  rw [State.place.eq_def, hacc]
  dsimp only
  rw [hroute]
  dsimp only
  generalize (TickUnit.load c, [1]) :: chanWritePlace c b off = places
  -- a command either falls through the table, or contradicts `hacc`
  cases i <;> first | rfl | cases hacc

/-- In REF a lane's LANE_CMD comes in the order of the lanes (R81). -/
theorem chanWritePlace_laneCmd (c : ChanIx) (n : LaneIx) : chanWritePlace c .ref (REF_LANE_CMD n.val) = [(TickUnit.core c, [2, 0, (n.val : ℤ)])] := by
  revert n c; decide

section
variable {s : State} {c : ChanIx} (p : HostPath) (v : Word) (hr : s.running c = true)
include hr

theorem laneForce_mem_place (n : LaneIx) : (.core c, [2, 0, (n.val : ℤ)]) ∈ s.place (.laneForce p c n v) := by
  obtain ⟨ha, ho, _⟩ := laneCmd_off n
  have hf : (findReg (kbRegs .ref) (REF_LANE_CMD n.val)).isSome = true := by revert n; decide
  rw [place_of_access rfl (route_winReg .ref hr ha ho hf), chanWritePlace_laneCmd]
  exact List.mem_cons_of_mem _ (List.mem_singleton_self _)

theorem selApprove_mem_place : (.core c, [2, 1]) ∈ s.place (.selApprove p c v) := by
  rw [place_of_access rfl (route_winReg .ref (off := REF_SEL_CMD) hr (by decide) (by decide) (by decide))]
  exact List.mem_cons_of_mem _ (List.mem_singleton_self _)

theorem refCommit_mem_place : (.core c, [3]) ∈ s.place (.refCommit p c v) := by
  rw [place_of_access rfl (route_winReg .ref (off := REF_CTL) hr (by decide) (by decide) (by decide))]
  exact List.mem_cons_of_mem _ (List.mem_singleton_self _)

end

/-! ### Reads by two paths -/

/-- The chapters order reads with a channel's load, which both leave behind; among themselves they have no order. -/
theorem chapterBefore_reads (s : State) {a b : Instr} {x y : ℕ} (ha : s.place a = s.readPlace x) (hb : s.place b = s.readPlace y) :
    s.chapterBefore a b = false := by
  have key : ∀ x, ∀ e ∈ s.readPlace x, e.2 = [1] := fun x e he => by
    unfold State.readPlace at he
    split at he
    · rw [List.mem_singleton.mp he]
    · cases he
  unfold State.chapterBefore
  rw [ha, hb]
  simp only [List.any_eq_false]
  intro e he
  rw [Bool.not_eq_true, List.any_eq_false]
  intro f hf
  rw [key x e he, key y f hf]
  simp [keyBefore]

/-- Where the chapters say nothing, a PCIe access precedes an MSPI access (R386). -/
theorem pcie_precedes_mspi {s : State} {a b : Instr} {rid : BitVec 16} (ha : pathOf a = some (.pcie rid)) (hb : pathOf b = some .mspi)
    (h : s.chapterBefore b a = false) : s.precedes a b = true := by
  unfold State.precedes
  rw [ha, hb, h]
  simp

end Sys2Proof.Machine

namespace Sys2Proof
open Sys2Proof.Machine

/-- Settles O7: what waits is held, what does not acts, and the places of R81, R127, R267 and R386 give the order. -/
theorem commandsOfATickActInOrder : Obligations.CommandsOfATickActInOrder := by
  refine ⟨fun i s hrt hw => exec_held hw hrt.legalUse.ratioBad, fun i s ht hm => ?_, fun s hheld => ?_,
    fun i a s ha h => waits_of_precedes ha h, fun i s hh hp => turn_of_empty i hh hp, fun s => ⟨fun c p q n k v w hr => ?_, fun rid a bs => ?_⟩⟩
  · rw [exec_of_no_rates (by rw [ht.1]; simpa using hm), perform_turn ht]
  · rw [exec_of_no_rates (List.forall_mem_cons.mpr ⟨rfl, hheld⟩), perform_counterAdvance]
  · have here : ∀ x : Place, x ∈ [x] := List.mem_singleton_self
    refine ⟨precedes_of_places (here (.twin, [2, 0])) (here (.twin, [5, 1])) (by decide),
      precedes_of_places (here (.twin, [2, 1])) (here (.twin, [5, 2])) (by decide),
      precedes_of_places (laneForce_mem_place p v hr n) (selApprove_mem_place q w hr) (by simp [keyBefore]),
      precedes_of_places (selApprove_mem_place p v hr) (refCommit_mem_place q w hr) (by decide),
      precedes_of_places (here (.core c, [4, n.val, 0])) (here (.core c, [4, n.val, 1])) (by simp [keyBefore]),
      fun m hm => precedes_of_places (here (.core c, [4, n.val, 1])) (here (.core c, [4, m.val, 0])) (by simpa [keyBefore] using hm),
      precedes_of_places (here (.core c, [5])) (here (.core c, [6])) (by decide)⟩
  · exact pcie_precedes_mspi rfl rfl (chapterBefore_reads s (x := fAddr bs) (y := a) rfl rfl)

end Sys2Proof
end

section
/-! The leap table: the entry that precedes another, and the faults of R57. -/
namespace Sys2Proof.Machine

/-! ### The preceding valid entry -/

/-- Entry `i` of a table is a preceding valid entry of `e` (R57): no later one stands before `e`. -/
def LeapPrior (t : Vector LeapEnt 8) (e : LeapEnt) (i : Fin 8) : Prop :=
  t[i].valid = true ∧ t[i].eff < e.eff ∧ ∀ m : Fin 8, t[m].valid = true → t[m].eff < e.eff → t[m].eff ≤ t[i].eff

theorem mem_tabValid {t : Vector LeapEnt 8} {e : LeapEnt} : e ∈ tabValid t ↔ ∃ j : Fin 8, t[j].valid = true ∧ t[j] = e := by
  unfold tabValid
  simp only [List.mem_filter, List.mem_map, List.mem_finRange, true_and]
  constructor
  · rintro ⟨⟨j, rfl⟩, hv⟩
    exact ⟨j, hv, rfl⟩
  · rintro ⟨j, hv, rfl⟩
    exact ⟨⟨j, rfl⟩, hv⟩

/-- A search that keeps the first of the greatest. -/
theorem foldl_eq_argmax {α : Type} {f : α → Int} {g : Option α → α → Option α} (l : List α) (h0 : ∀ e, g none e = some e)
    (h1 : ∀ b e, g (some b) e = if f b < f e then some e else some b) : l.foldl g none = l.argmax f := by
  unfold List.argmax
  congr 1
  funext a e
  cases a with
  | none => exact h0 e
  | some b => exact h1 b e

/-- A search that keeps the first of the least. -/
theorem foldl_eq_argmin {α : Type} {f : α → Int} {g : Option α → α → Option α} (l : List α) (h0 : ∀ e, g none e = some e)
    (h1 : ∀ b e, g (some b) e = if f e < f b then some e else some b) : l.foldl g none = l.argmin f := by
  unfold List.argmin
  congr 1
  funext a e
  cases a with
  | none => exact h0 e
  | some b => exact h1 b e

theorem tabPrev_eq_argmax (t : Vector LeapEnt 8) (eff : Int) :
    tabPrev t eff = ((tabValid t).filter (fun e => decide (e.eff < eff))).argmax LeapEnt.eff :=
  foldl_eq_argmax _ (fun _ => rfl) (fun _ _ => rfl)

/-- What the model takes for the preceding entry is one. -/
theorem exists_prior_of_tabPrev {t : Vector LeapEnt 8} {e p : LeapEnt} (h : tabPrev t e.eff = some p) : ∃ i, LeapPrior t e i ∧ t[i] = p := by
  rw [tabPrev_eq_argmax] at h
  obtain ⟨hmem, hlt⟩ := List.mem_filter.mp (List.argmax_mem h)
  obtain ⟨i, hv, rfl⟩ := mem_tabValid.mp hmem
  refine ⟨i, ⟨hv, of_decide_eq_true hlt, fun m hm hme => ?_⟩, rfl⟩
  exact List.le_of_mem_argmax (List.mem_filter.mpr ⟨mem_tabValid.mpr ⟨m, hm, rfl⟩, decide_eq_true hme⟩) h

theorem exists_tabPrev {t : Vector LeapEnt 8} {e : LeapEnt} {j : Fin 8} (hv : t[j].valid = true) (hlt : t[j].eff < e.eff) : ∃ p, tabPrev t e.eff = some p := by
  rw [← Option.ne_none_iff_exists', tabPrev_eq_argmax, Ne, List.argmax_eq_none, List.filter_eq_nil_iff]
  exact fun h => h _ (mem_tabValid.mpr ⟨j, hv, rfl⟩) (decide_eq_true hlt)

theorem exists_prior {t : Vector LeapEnt 8} {e : LeapEnt} {j : Fin 8} (hv : t[j].valid = true) (hlt : t[j].eff < e.eff) : ∃ i, LeapPrior t e i := by
  obtain ⟨p, hp⟩ := exists_tabPrev hv hlt
  obtain ⟨i, hi, _⟩ := exists_prior_of_tabPrev hp
  exact ⟨i, hi⟩

theorem tabPrev_of_no_prior {t : Vector LeapEnt 8} {e : LeapEnt} (h : ∀ i, ¬ LeapPrior t e i) : tabPrev t e.eff = none := by
  cases hp : tabPrev t e.eff with
  | none => rfl
  | some p =>
    obtain ⟨i, hi, _⟩ := exists_prior_of_tabPrev hp
    exact absurd hi (h i)

/-- No two valid entries of a table have the same EFF. -/
def LeapDistinct (t : Vector LeapEnt 8) : Prop := ∀ i j : Fin 8, t[i].valid = true → t[j].valid = true → t[i].eff = t[j].eff → i = j

theorem tabPrev_of_prior {t : Vector LeapEnt 8} (hd : LeapDistinct t) {e : LeapEnt} {i : Fin 8} (h : LeapPrior t e i) : tabPrev t e.eff = some t[i] := by
  obtain ⟨hv, hlt, hmax⟩ := h
  obtain ⟨p, hp⟩ := exists_tabPrev hv hlt
  obtain ⟨j, ⟨hjv, hjlt, hjmax⟩, rfl⟩ := exists_prior_of_tabPrev hp
  rw [hp, hd i j hv hjv (le_antisymm (hjmax i hv hlt) (hmax j hjv hjlt))]

/-! ### Faults -/

/-- A step of the offset by one that does not stand at the end of a UTC day (R57). -/
def LeapMisplaced (p e : LeapEnt) : Prop :=
  (e.ofs - p.ofs = 1 ∧ (e.eff - p.ofs) % 86400 ≠ 0) ∨ (e.ofs - p.ofs = -1 ∧ (e.eff - p.ofs) % 86400 ≠ 86399)

/-- A table with a fault of R57. -/
def LeapFaulty (t : Vector LeapEnt 8) : Prop := ∃ j : Fin 8, t[j].valid = true ∧
  ((∃ i : Fin 8, i ≠ j ∧ t[i].valid = true ∧ t[i].eff = t[j].eff) ∨ ∃ i, LeapPrior t t[j] i ∧ LeapMisplaced t[i] t[j])

theorem countIf_tabValid (t : Vector LeapEnt 8) (a : Int) : countIf (fun x => x.eff == a) (tabValid t) =
    (Finset.univ.filter (fun j : Fin 8 => t[j].valid = true ∧ t[j].eff = a)).card := by
  unfold countIf tabValid
  rw [List.filter_map, List.filter_map, List.length_map, List.filter_filter]
  show _ = (List.filter _ (List.finRange 8)).length
  congr 2
  funext j
  simp [Bool.and_comm, Bool.beq_eq_decide_eq]

theorem countIf_tabValid_le_one {t : Vector LeapEnt 8} {a : Int} : countIf (fun x => x.eff == a) (tabValid t) ≤ 1 ↔
    ∀ i j : Fin 8, t[i].valid = true ∧ t[i].eff = a → t[j].valid = true ∧ t[j].eff = a → i = j := by
  rw [countIf_tabValid, Finset.card_le_one_iff]
  simp only [Finset.mem_filter, Finset.mem_univ, true_and]

theorem tabEntOk_iff (t : Vector LeapEnt 8) (e : LeapEnt) : tabEntOk t e = true ↔
    countIf (fun x => x.eff == e.eff) (tabValid t) ≤ 1 ∧ ∀ p, tabPrev t e.eff = some p → ¬ LeapMisplaced p e := by
  unfold tabEntOk LeapMisplaced
  rw [Bool.and_eq_true, decide_eq_true_iff]
  refine and_congr_right fun _ => ?_
  cases tabPrev t e.eff with
  | none => simp
  | some p =>
    simp only [Option.some.injEq, forall_eq', Bool.and_eq_true, Bool.or_eq_true, bne_iff_ne, beq_iff_eq]
    tauto

/-- The model's check passes just the tables without faults. -/
theorem tabOk_iff (t : Vector LeapEnt 8) : tabOk t = true ↔ ¬ LeapFaulty t := by
  unfold tabOk
  rw [List.all_eq_true]
  constructor
  · rintro hok ⟨j, hv, hf⟩
    have hall : ∀ m : Fin 8, t[m].valid = true → _ := fun m hm => (tabEntOk_iff t t[m]).mp (hok _ (mem_tabValid.mpr ⟨m, hm, rfl⟩))
    have hd : LeapDistinct t := fun a b ha hb hab => countIf_tabValid_le_one.mp (hall b hb).1 a b ⟨ha, hab⟩ ⟨hb, rfl⟩
    rcases hf with ⟨i, hij, hi, he⟩ | ⟨i, hi, hm⟩
    · exact hij (hd i j hi hv he)
    · exact (hall j hv).2 _ (tabPrev_of_prior hd hi) hm
  · intro hf e he
    obtain ⟨j, hv, rfl⟩ := mem_tabValid.mp he
    have same : ∀ i : Fin 8, t[i].valid = true ∧ t[i].eff = t[j].eff → i = j := fun i hi =>
      by_contra fun hij => hf ⟨j, hv, .inl ⟨i, hij, hi⟩⟩
    refine (tabEntOk_iff t t[j]).mpr ⟨countIf_tabValid_le_one.mpr fun a b ha hb => (same a ha).trans (same b hb).symm, fun p hp hm => ?_⟩
    obtain ⟨i, hi, rfl⟩ := exists_prior_of_tabPrev hp
    exact hf ⟨j, hv, .inr ⟨i, hi, hm⟩⟩

theorem LeapDistinct.of_not_faulty {t : Vector LeapEnt 8} (h : ¬ LeapFaulty t) : LeapDistinct t := fun i j hi hj he =>
  by_contra fun hij => h ⟨j, hj, .inl ⟨i, hij, hi, he⟩⟩

/-- An entry without a preceding one, or that changes the offset otherwise than by one (R57). -/
def LeapCorrects (t : Vector LeapEnt 8) (e : LeapEnt) : Prop :=
  (∀ i, ¬ LeapPrior t e i) ∨ ∃ i, LeapPrior t e i ∧ e.ofs - t[i].ofs ∉ [0, 1, (-1 : Int)]

theorem isCorrection_of_corrects {t : Vector LeapEnt 8} (hd : LeapDistinct t) {e : LeapEnt} (hv : e.valid = true) (h : LeapCorrects t e) :
    isCorrection t e = true := by
  unfold isCorrection
  rw [hv]
  rcases h with h | ⟨i, hi, hne⟩
  · rw [tabPrev_of_no_prior h]; rfl
  · rw [tabPrev_of_prior hd hi]
    simpa [and_assoc] using hne

/-! ### The window of R58 -/

theorem mem_leapValid {c : Channel} {e : Fin 8 × LeapEnt} (h : e ∈ c.leapValid) : c.leapTab[e.1].valid = true ∧ c.leapTab[e.1] = e.2 := by
  unfold Channel.leapValid at h
  obtain ⟨hmem, hv⟩ := List.mem_filter.mp h
  obtain ⟨j, _, rfl⟩ := List.mem_map.mp hmem
  exact ⟨hv, rfl⟩

theorem inForce_eq_argmax (es : List (Fin 8 × LeapEnt)) (s : Int) :
    Channel.inForce es s = (es.filter (fun e => e.2.conf && decide (e.2.eff ≤ s))).argmax (fun e => e.2.eff) :=
  foldl_eq_argmax _ (fun _ => rfl) (fun _ _ => rfl)

theorem leapNext_eq_argmin (c : Channel) (s : Int) :
    c.leapNext s = (c.leapValid.filter (fun e => e.2.conf && decide (s < e.2.eff))).argmin (fun e => e.2.eff) :=
  foldl_eq_argmin _ (fun _ => rfl) (fun _ _ => rfl)

theorem le_of_leapInForce {c : Channel} {s : Int} {p : Fin 8 × LeapEnt} (h : c.leapInForce s = some p) : p ∈ c.leapValid ∧ p.2.eff ≤ s := by
  unfold Channel.leapInForce at h
  rw [inForce_eq_argmax] at h
  obtain ⟨hmem, hcond⟩ := List.mem_filter.mp (List.argmax_mem h)
  exact ⟨hmem, of_decide_eq_true (Bool.and_eq_true _ _ ▸ hcond).2⟩

theorem lt_of_leapNext {c : Channel} {s : Int} {n : Fin 8 × LeapEnt} (h : c.leapNext s = some n) : s < n.2.eff := by
  rw [leapNext_eq_argmin] at h
  obtain ⟨_, hcond⟩ := List.mem_filter.mp (List.argmin_mem h)
  exact of_decide_eq_true (Bool.and_eq_true _ _ ▸ hcond).2

/-- An entry without a preceding valid one opens no window: no entry is in force before it. -/
theorem leapWin_of_no_prior {c : Channel} {s : Int} {n : Fin 8 × LeapEnt} (hn : c.leapNext s = some n) (h : ∀ i, ¬ LeapPrior c.leapTab n.2 i) :
    c.leapWin s = 0 := by
  have none_before : c.leapInForce s = none := by
    cases hp : c.leapInForce s with
    | none => rfl
    | some p =>
      obtain ⟨hmem, hle⟩ := le_of_leapInForce hp
      obtain ⟨hv, he⟩ := mem_leapValid hmem
      obtain ⟨i, hi⟩ := exists_prior hv (he ▸ lt_of_le_of_lt hle (lt_of_leapNext hn))
      exact absurd hi (h i)
  unfold Channel.leapWin
  rw [none_before]

end Sys2Proof.Machine
end

section
/-! Entry writes and UTC announcements: what the leap table takes, and where (R57, R59 to R62). -/
namespace Sys2Proof.Machine

/-! ### An entry put into the table -/

/-- The event of an offset correction is among what the channel asks where entry `e` of the table is one (R57). -/
def LeapTold (t : Vector LeapEnt 8) (e : LeapEnt) (d : Channel) : Prop :=
  e.valid = true → LeapCorrects t e → Eff.chanEvent .offsetCorrection ∈ d.effs

namespace Channel

/-- The channel with an entry of the table replaced; the tick's conversions keep the table before it (R62). -/
def withLeap (c : Channel) (k : Fin 8) (e : LeapEnt) : Channel :=
  { c with scale := { c.scale with leap := c.scale.leap.set k e, old := some c.leapTab } }

theorem withLeap_onlyIn (c : Channel) (k : Fin 8) (e : LeapEnt) : Channel.onlyIn [.scale] c (c.withLeap k e) :=
  ⟨rfl, rfl, rfl, rfl, fun q hq => by cases q <;> simp_all [Channel.same, withLeap]⟩

theorem putLeap_of_not_faulty (c : Channel) (passed : Bool) {k : Fin 8} {e : LeapEnt} (h : ¬ LeapFaulty (c.scale.leap.set k e)) :
    c.putLeap passed k e = (true, if passed || isCorrection (c.scale.leap.set k e) e then (c.withLeap k e).ask (.chanEvent .offsetCorrection)
      else c.withLeap k e) := by
  unfold putLeap
  exact if_pos ((tabOk_iff _).mpr h)

theorem putLeap_of_faulty (c : Channel) (passed : Bool) {k : Fin 8} {e : LeapEnt} (h : LeapFaulty (c.scale.leap.set k e)) :
    c.putLeap passed k e = (false, c.evt F.DPLL_UTC_NOW_REJ) :=
  putLeap_no c passed k e (Bool.eq_false_iff.mpr fun ok => (tabOk_iff _).mp ok h)

/-- An entry that makes no fault comes to stand in the table, and an offset correction is told. -/
theorem putLeap_takes (c : Channel) (passed : Bool) {k : Fin 8} {e : LeapEnt} (h : ¬ LeapFaulty (c.scale.leap.set k e)) :
    ∃ d, c.putLeap passed k e = (true, d) ∧ Channel.onlyIn [.scale, .asks] c d ∧ d.scale.leap = c.scale.leap.set k e ∧
      d.scale.effHeld = c.scale.effHeld ∧ LeapTold (c.scale.leap.set k e) e d ∧ (passed = true → Eff.chanEvent .offsetCorrection ∈ d.effs) := by
  refine ⟨_, putLeap_of_not_faulty c passed h, ?_⟩
  have hon : Channel.onlyIn [.scale, .asks] c (c.withLeap k e) := Channel.onlyIn_mono rfl (withLeap_onlyIn c k e)
  split
  · exact ⟨on_ask _ rfl hon, rfl, rfl, fun _ _ => by simp, fun _ => by simp⟩
  · next hno =>
    obtain ⟨hpassed, hcor⟩ : passed = false ∧ isCorrection (c.scale.leap.set k e) e = false := by simpa using hno
    refine ⟨hon, rfl, rfl, fun hv hc => ?_, fun hp => ?_⟩
    · exact absurd (isCorrection_of_corrects (.of_not_faulty h) hv hc) (Bool.eq_false_iff.mp hcor)
    · exact absurd hp (Bool.eq_false_iff.mp hpassed)

/-! ### A write of LEAP_ENT -/

/-- The entry that a write of LEAP_ENTk brings, with the EFF that waits or else the one it has (R61). -/
def leapWritten (c : Channel) (k : Fin 8) (v : Word) : LeapEnt :=
  ⟨bit v 31, bit v 30, 0, match c.scale.effHeld[k] with | some e => e | none => c.scale.leap[k].eff, signed 16 (getField v 0 16)⟩

/-- The channel whose held EFF for an entry is used up. -/
def leapReleased (c : Channel) (k : Fin 8) : Channel :=
  { c with scale := { c.scale with effHeld := c.scale.effHeld.set k none, loHeld := c.scale.loHeld.set k none } }

theorem leapReleased_onlyIn (c : Channel) (k : Fin 8) : Channel.onlyIn [.scale] c (c.leapReleased k) :=
  ⟨rfl, rfl, rfl, rfl, fun q hq => by cases q <;> simp_all [Channel.same, leapReleased]⟩

theorem onlyIn_dpll {L : List ChPart} {c d : Channel} (h : Channel.onlyIn L c d) (hL : ChPart.dpll ∉ L) : d.dpll = c.dpll := by
  obtain ⟨_, _, _, _, same⟩ := h
  exact (same .dpll hL).1

/-- A host's write of LEAP_ENTk puts the entry into the table of the journaled channel whose held EFF is used up. -/
theorem hostWrite_leapEnt_eq (c : Channel) (org : Origin) (k : Fin 8) (v : Word) : ∃ (c1 : Channel) (es : List Eff),
    Channel.onlyIn [.scale, .jour, .asks] c c1 ∧ c1.dpll = c.dpll ∧ c1.scale.leap = c.scale.leap ∧
      c1.scale.effHeld = c.scale.effHeld.set k none ∧
      c.hostWrite org .dpll (DPLL_LEAP_ENT k.val) v =
        { (c1.putLeap false k (c.leapWritten k v)).2 with effs := (c1.putLeap false k (c.leapWritten k v)).2.effs ++ es } := by
  obtain ⟨es, he⟩ := hostWrite_leapEnt c org k v
  exact ⟨_, es, Channel.onlyIn_step rfl (on_journal _ rfl (Channel.onlyIn_refl _ _)) (leapReleased_onlyIn _ k), rfl, rfl, rfl, he⟩

/-- A write that makes no fault puts its entry into the table. -/
theorem hostWrite_leapEnt_takes (c : Channel) (org : Origin) (k : Fin 8) (v : Word) (h : ¬ LeapFaulty (c.scale.leap.set k (c.leapWritten k v))) :
    let d := c.hostWrite org .dpll (DPLL_LEAP_ENT k.val) v
    (Channel.onlyIn [.dpll, .scale, .jour, .asks] c d ∧ d.dpll = c.dpll ∧ d.scale.effHeld = c.scale.effHeld.set k none) ∧
      d.scale.leap = c.scale.leap.set k (c.leapWritten k v) ∧ LeapTold (c.scale.leap.set k (c.leapWritten k v)) (c.leapWritten k v) d := by
  obtain ⟨c1, es, hon1, hdpll1, hleap1, heff1, he⟩ := hostWrite_leapEnt_eq c org k v
  obtain ⟨d, hd, hon, hleap, heff, htold, _⟩ := putLeap_takes c1 false (show ¬ LeapFaulty (c1.scale.leap.set k (c.leapWritten k v)) by rwa [hleap1])
  rw [hleap1] at hleap htold
  have hall : Channel.onlyIn [.dpll, .scale, .jour, .asks] c d := Channel.onlyIn_trans (Channel.onlyIn_mono rfl hon1) (Channel.onlyIn_mono rfl hon)
  have hdpll : d.dpll = c1.dpll := onlyIn_dpll hon (by decide)
  rw [he, hd]
  exact ⟨⟨onlyIn_effs rfl es hall, hdpll.trans hdpll1, heff.trans heff1⟩, hleap, fun hv hc => List.mem_append_left _ (htold hv hc)⟩

/-- A write that would make a fault leaves the table and sets REJ. -/
theorem hostWrite_leapEnt_rejects (c : Channel) (org : Origin) (k : Fin 8) (v : Word) (h : LeapFaulty (c.scale.leap.set k (c.leapWritten k v))) :
    let d := c.hostWrite org .dpll (DPLL_LEAP_ENT k.val) v
    (Channel.onlyIn [.dpll, .scale, .jour, .asks] c d ∧ d.dpll = c.dpll ∧ d.scale.effHeld = c.scale.effHeld.set k none) ∧
      d.scale.leap = c.scale.leap ∧ d.cur F.DPLL_UTC_NOW_REJ = 1 := by
  obtain ⟨c1, es, hon1, hdpll1, hleap1, heff1, he⟩ := hostWrite_leapEnt_eq c org k v
  rw [he, putLeap_of_faulty c1 false (by rwa [hleap1])]
  exact ⟨⟨onlyIn_effs rfl es (on_evt _ rfl rfl (Channel.onlyIn_mono rfl hon1)), hdpll1, heff1⟩, hleap1, cur_evt c1 F.DPLL_UTC_NOW_REJ rfl (by decide)⟩

/-! ### Where an announced entry goes -/

theorem mem_leapNow {c : Channel} {e : Fin 8 × LeapEnt} : e ∈ c.leapNow ↔ ∃ j : Fin 8, c.scale.leap[j].valid = true ∧ (j, c.scale.leap[j]) = e := by
  unfold leapNow
  simp only [List.mem_filter, List.mem_map, List.mem_finRange, true_and]
  constructor
  · rintro ⟨⟨j, rfl⟩, hv⟩
    exact ⟨j, hv, rfl⟩
  · rintro ⟨j, hv, rfl⟩
    exact ⟨⟨j, rfl⟩, hv⟩

theorem leapNow_any (c : Channel) (q : Fin 8 × LeapEnt → Bool) : c.leapNow.any q = true ↔
    ∃ j : Fin 8, c.scale.leap[j].valid = true ∧ q (j, c.scale.leap[j]) = true := by
  rw [List.any_eq_true]
  constructor
  · rintro ⟨e, he, hq⟩
    obtain ⟨j, hv, rfl⟩ := mem_leapNow.mp he
    exact ⟨j, hv, hq⟩
  · rintro ⟨j, hv, hq⟩
    exact ⟨_, mem_leapNow.mpr ⟨j, hv, rfl⟩, hq⟩

theorem find_finRange {n : ℕ} {q : Fin n → Bool} {k : Fin n} (hk : q k = true) (hlow : ∀ j, j < k → q j = false) : (List.finRange n).find? q = some k := by
  rw [List.find?_eq_some_iff_getElem]
  refine ⟨hk, k.val, by simp, by simp, fun j hj => ?_⟩
  simpa using hlow ⟨j, hj.trans k.isLt⟩ hj

/-- The first valid entry with a property is what a search finds. -/
theorem leapNow_find {c : Channel} {q : Fin 8 × LeapEnt → Bool} {k : Fin 8} (hk : c.scale.leap[k].valid = true ∧ q (k, c.scale.leap[k]) = true)
    (hlow : ∀ j, j < k → ¬ (c.scale.leap[j].valid = true ∧ q (j, c.scale.leap[j]) = true)) : c.leapNow.find? q = some (k, c.scale.leap[k]) := by
  unfold leapNow
  rw [List.find?_filter, List.find?_map, find_finRange (k := k)]
  · rfl
  · simpa using hk
  · intro j hj
    simpa using hlow j hj

/-- The entry is in force at the second of the counter (R56). -/
def EntInForce (c : Channel) (j : Fin 8) : Prop := ∃ x, Channel.inForce c.leapNow c.nowSec = some (j, x)

/-- The place of an announced entry that replaces none of its EFF: the lowest free entry, or where none is free the lowest of the least EFF
that is not in force (R60). -/
def LeapFree (c : Channel) (k : Fin 8) : Prop :=
  (c.scale.leap[k].valid = false ∧ ∀ j : Fin 8, j < k → c.scale.leap[j].valid = true) ∨
    ((∀ j : Fin 8, c.scale.leap[j].valid = true) ∧ ¬ EntInForce c k ∧
      ∀ j : Fin 8, ¬ EntInForce c j → c.scale.leap[k].eff ≤ c.scale.leap[j].eff ∧ (c.scale.leap[j].eff = c.scale.leap[k].eff → k ≤ j))

/-- The entries that are not in force, in the table's order. -/
def leapIdle (c : Channel) : List (Fin 8) := (List.finRange 8).filter (fun k => some k != (Channel.inForce c.leapNow c.nowSec).map Prod.fst)

theorem mem_leapIdle {c : Channel} {j : Fin 8} : j ∈ c.leapIdle ↔ ¬ EntInForce c j := by
  unfold leapIdle EntInForce
  rw [List.mem_filter, and_iff_right (List.mem_finRange j), bne_iff_ne, not_iff_not]
  constructor
  · intro h
    obtain ⟨⟨m, x⟩, he, rfl⟩ := Option.map_eq_some_iff.mp h.symm
    exact ⟨x, he⟩
  · rintro ⟨x, he⟩
    rw [he]
    rfl

theorem leapIdle_sorted (c : Channel) : c.leapIdle.SortedLT := ((List.sortedLT_finRange 8).pairwise.filter _).sortedLT

theorem leapSlot_of_full {c : Channel} (h : ∀ j : Fin 8, c.scale.leap[j].valid = true) : c.leapSlot = c.leapIdle.argmin (fun j => c.scale.leap[j].eff) := by
  have no_free : (List.finRange 8).find? (fun j => !c.scale.leap[j].valid) = none :=
    List.find?_eq_none.mpr fun j _ => by rw [h j]; decide
  unfold leapSlot
  rw [no_free]
  exact foldl_eq_argmin _ (fun _ => rfl) (fun _ _ => rfl)

theorem idxOf_le_of_sorted {n : ℕ} {l : List (Fin n)} (hl : l.SortedLT) {a b : Fin n} (ha : a ∈ l) (hb : b ∈ l) (h : a ≤ b) : l.idxOf a ≤ l.idxOf b := by
  rw [← hl.getElem_le_getElem_iff (hi := List.idxOf_lt_length_iff.mpr ha) (hj := List.idxOf_lt_length_iff.mpr hb), List.getElem_idxOf, List.getElem_idxOf]
  exact h

theorem leapSlot_of_free {c : Channel} {k : Fin 8} (h : LeapFree c k) : c.leapSlot = some k := by
  rcases h with ⟨hk, hlow⟩ | ⟨hall, hk, hmin⟩
  · exact leapSlot_free c k hk hlow
  rw [leapSlot_of_full hall, List.argmin_eq_some_iff]
  refine ⟨mem_leapIdle.mpr hk, fun j hj => (hmin j (mem_leapIdle.mp hj)).1, fun j hj hle => ?_⟩
  obtain ⟨hle', hfirst⟩ := hmin j (mem_leapIdle.mp hj)
  exact idxOf_le_of_sorted c.leapIdle_sorted (mem_leapIdle.mpr hk) hj (hfirst (le_antisymm hle hle'))

/-- An entry of the table that the device wrote unconfirmed with the EFF that is announced (R60). -/
def LeapSwap (c : Channel) (eff : Int) (j : Fin 8) : Prop :=
  c.scale.leap[j].valid = true ∧ c.scale.leap[j].eff = eff ∧ c.scale.leap[j].conf = false ∧ c.scale.leap[j].org ≠ 0

/-- Where an announced entry goes, and whether it is confirmed (R60). -/
def LeapPlace (c : Channel) (lane : Bool) (eff : Int) (k : Fin 8) (conf : Bool) : Prop :=
  (LeapSwap c eff k ∧ (∀ j, j < k → ¬ LeapSwap c eff j) ∧ conf = false) ∨ ((∀ j, ¬ LeapSwap c eff j) ∧ conf = lane ∧ LeapFree c k)

/-! ### Announcements -/

/-- The table holds the announced entry. -/
def LeapHeld (c : Channel) (w : Int × Int) : Prop := ∃ j : Fin 8, c.scale.leap[j].valid = true ∧ c.scale.leap[j].eff = w.1 ∧ c.scale.leap[j].ofs = w.2

/-- A confirmed entry lies within a day of the announced one. -/
def LeapNear (c : Channel) (eff : Int) : Prop :=
  ∃ j : Fin 8, c.scale.leap[j].valid = true ∧ c.scale.leap[j].conf = true ∧ (eff - c.scale.leap[j].eff).natAbs < 86400

theorem leapHeld_iff (c : Channel) (w : Int × Int) : c.leapNow.any (fun e => e.2.eff == w.1 && e.2.ofs == w.2) = true ↔ LeapHeld c w := by
  rw [leapNow_any]
  simp [LeapHeld]

theorem leapNear_iff (c : Channel) (eff : Int) : c.leapNow.any (fun e => e.2.conf && decide ((eff - e.2.eff).natAbs < 86400)) = true ↔ LeapNear c eff := by
  rw [leapNow_any]
  simp [LeapNear]

section
variable {c : Channel} (n : LaneIx) {lane : Bool} {w : Int × Int}

theorem annEntry_of_held (h : LeapHeld c w) : c.annEntry n lane w.1 w.2 = c := by
  unfold annEntry
  exact if_pos ((leapHeld_iff c w).mpr h)

theorem annEntry_of_near (hh : ¬ LeapHeld c w) (h : LeapNear c w.1) :
    c.annEntry n lane w.1 w.2 = (c.evt F.DPLL_UTC_NOW_CONFLICT).ask (.chanEvent .announceConflict) := by
  unfold annEntry
  dsimp only
  rw [if_neg (mt (leapHeld_iff c w).mp hh), if_pos ((leapNear_iff c w.1).mpr h)]

/-- An announcement that nothing stands against goes to its place. -/
theorem annEntry_of_place (hh : ¬ LeapHeld c w) (hn : ¬ LeapNear c w.1) {k : Fin 8} {conf : Bool} (hp : LeapPlace c lane w.1 k conf) :
    c.annEntry n lane w.1 w.2 = c.annPut k ⟨true, conf, annOrigin n, w.1, w.2⟩ := by
  unfold annEntry
  dsimp only
  rw [if_neg (mt (leapHeld_iff c w).mp hh), if_neg (mt (leapNear_iff c w.1).mp hn)]
  have swap_iff : ∀ j : Fin 8, LeapSwap c w.1 j ↔ c.scale.leap[j].valid = true ∧
      (c.scale.leap[j].eff == w.1 && !c.scale.leap[j].conf && c.scale.leap[j].org != 0) = true := fun j => by
    simp [LeapSwap, and_assoc]
  rcases hp with ⟨hk, hlow, rfl⟩ | ⟨hno, rfl, hfree⟩
  · rw [leapNow_find ((swap_iff k).mp hk) fun j hj => mt (swap_iff j).mpr (hlow j hj)]
  · have none_found : c.leapNow.find? (fun e => e.2.eff == w.1 && !e.2.conf && e.2.org != 0) = none :=
      List.find?_eq_none.mpr fun e he hq => by
        obtain ⟨j, hv, rfl⟩ := mem_leapNow.mp he
        exact hno j ((swap_iff j).mpr ⟨hv, hq⟩)
    rw [none_found, leapSlot_of_free hfree]

end

/-- An announced entry that makes no fault comes to stand in its place, with its events. -/
theorem annPut_takes (c : Channel) {k : Fin 8} {e : LeapEnt} (h : ¬ LeapFaulty (c.scale.leap.set k e)) :
    Channel.onlyIn [.scale, .asks] c (c.annPut k e) ∧ (c.annPut k e).scale.leap = c.scale.leap.set k e ∧
      LeapTold (c.scale.leap.set k e) e (c.annPut k e) ∧ (e.eff ≤ c.nowSec → Eff.chanEvent .offsetCorrection ∈ (c.annPut k e).effs) ∧
      (e.conf = false → Eff.chanEvent .leapUnconfirmed ∈ (c.annPut k e).effs) := by
  obtain ⟨d, hd, hon, hleap, _, htold, hpast⟩ := putLeap_takes c (decide (e.eff ≤ c.nowSec)) h
  unfold annPut
  rw [hd]
  dsimp only
  split
  · next hc =>
    refine ⟨on_ask _ rfl hon, hleap, fun hv hcor => ?_, fun hle => ?_, fun hu => absurd hc (Bool.eq_false_iff.mp hu)⟩
    · exact List.mem_append_left _ (htold hv hcor)
    · exact List.mem_append_left _ (hpast (decide_eq_true hle))
  · refine ⟨on_ask _ rfl (on_ask _ rfl hon), hleap, fun hv hcor => ?_, fun hle => ?_, fun _ => by simp⟩
    · exact List.mem_append_left _ (List.mem_append_left _ (htold hv hcor))
    · exact List.mem_append_left _ (List.mem_append_left _ (hpast (decide_eq_true hle)))

theorem annPut_rejects (c : Channel) {k : Fin 8} {e : LeapEnt} (h : LeapFaulty (c.scale.leap.set k e)) : c.annPut k e = c.evt F.DPLL_UTC_NOW_REJ := by
  unfold annPut
  rw [putLeap_of_faulty c _ h]

/-- The entry that an announcement stands for: EFF and OFS (R59, R60). A leap flag is for the end of the UTC day, by the last valid entry. -/
def announced (c : Channel) (a : UtcAnn) : Int × Int :=
  let last := ((tabPrev c.scale.leap (c.nowSec + 1)).map (fun e => e.ofs)).getD 0
  let day := (Int.fdiv (c.nowSec - last) 86400 + 1) * 86400 + last
  match a with
  | .offset ofs => (c.nowSec, ofs)
  | .leap eff ofs => (eff, ofs)
  | .flag true => (day, last + 1)
  | .flag false => (day - 1, last - 1)

/-- An announced offset that is in force already, or that an unconfirmed entry of the device gives (R60). -/
def AnnKnown (c : Channel) (a : UtcAnn) : Prop :=
  match a with
  | .offset ofs => ((Channel.inForce c.leapNow c.nowSec).map (fun e => e.2.ofs)).getD 0 = ofs ∨
      ∃ j : Fin 8, c.scale.leap[j].valid = true ∧ c.scale.leap[j].org ≠ 0 ∧ c.scale.leap[j].conf = false ∧
        c.scale.leap[j].ofs = ofs ∧ c.scale.leap[j].eff ≤ c.nowSec
  | _ => False

theorem annKnown_offset_iff (c : Channel) (ofs : Int) : AnnKnown c (.offset ofs) ↔ ((Channel.inForce c.leapNow c.nowSec).map (fun e => e.2.ofs)).getD 0 = ofs ∨
    (tabValid c.scale.leap).any (fun e => e.org != 0 && !e.conf && e.ofs == ofs && decide (e.eff ≤ c.nowSec)) = true := by
  refine or_congr_right ?_
  rw [List.any_eq_true]
  constructor
  · rintro ⟨j, hv, hj⟩
    exact ⟨_, mem_tabValid.mpr ⟨j, hv, rfl⟩, by simpa [and_assoc] using hj⟩
  · rintro ⟨e, he, hq⟩
    obtain ⟨j, hv, rfl⟩ := mem_tabValid.mp he
    exact ⟨j, hv, by simpa [and_assoc] using hq⟩

section
variable {c : Channel} {n : LaneIx} {a : UtcAnn}

theorem utcAnnounce_of_host (h : c.fld F.DPLL_TS_CFG_UTC_SRC = 0) :
    c.utcAnnounce n a = (c.evt F.DPLL_UTC_NOW_SEEN).ask (.chanEvent .announceUnderHost) := by
  unfold utcAnnounce
  exact if_pos h

theorem utcAnnounce_of_other (h : c.fld F.DPLL_TS_CFG_UTC_SRC ≠ 0) (hn : c.ref.selA.prev ≠ some n) : c.utcAnnounce n a = c := by
  unfold utcAnnounce
  dsimp only
  rw [if_neg h, if_pos hn]

variable (h : c.fld F.DPLL_TS_CFG_UTC_SRC ≠ 0) (hn : c.ref.selA.prev = some n)
include h hn

theorem utcAnnounce_of_known (hk : AnnKnown c a) : c.utcAnnounce n a = c := by
  cases a with
  | offset ofs =>
    unfold utcAnnounce
    dsimp only
    rw [if_neg h, if_neg (not_not.mpr hn), if_pos ((annKnown_offset_iff c ofs).mp hk)]
  | leap eff ofs => exact hk.elim
  | flag ins => exact hk.elim

theorem utcAnnounce_of_unknown (hk : ¬ AnnKnown c a) :
    c.utcAnnounce n a = c.annEntry n (c.fld F.DPLL_TS_CFG_UTC_SRC == 1) (c.announced a).1 (c.announced a).2 := by
  unfold utcAnnounce
  dsimp only
  rw [if_neg h, if_neg (not_not.mpr hn)]
  cases a with
  | offset ofs => exact if_neg (mt (annKnown_offset_iff c ofs).mpr hk)
  | leap eff ofs => rfl
  | flag ins => cases ins <;> rfl

theorem utcAnnounce_of_held (hh : LeapHeld c (c.announced a)) : c.utcAnnounce n a = c := by
  by_cases hk : AnnKnown c a
  · exact utcAnnounce_of_known h hn hk
  · exact (utcAnnounce_of_unknown h hn hk).trans (annEntry_of_held n hh)

theorem utcAnnounce_of_near (hk : ¬ AnnKnown c a) (hh : ¬ LeapHeld c (c.announced a)) (hnear : LeapNear c (c.announced a).1) :
    c.utcAnnounce n a = (c.evt F.DPLL_UTC_NOW_CONFLICT).ask (.chanEvent .announceConflict) :=
  (utcAnnounce_of_unknown h hn hk).trans (annEntry_of_near n hh hnear)

theorem utcAnnounce_of_place (hk : ¬ AnnKnown c a) (hh : ¬ LeapHeld c (c.announced a)) (hnear : ¬ LeapNear c (c.announced a).1) {k : Fin 8} {conf : Bool}
    (hp : LeapPlace c (c.fld F.DPLL_TS_CFG_UTC_SRC == 1) (c.announced a).1 k conf) :
    c.utcAnnounce n a = c.annPut k ⟨true, conf, annOrigin n, (c.announced a).1, (c.announced a).2⟩ :=
  (utcAnnounce_of_unknown h hn hk).trans (annEntry_of_place n hh hnear hp)

end

end Channel
end Sys2Proof.Machine

namespace Sys2Proof
open Sys2Proof.Machine

/-- Settles O23: the model's check passes just the tables without a fault of R57 (`tabOk_iff`), and a write or an announcement puts its one entry
into the table where that check passes; before an entry without a preceding one none is in force, so it opens no window. -/
theorem leapTablesStayWithoutFaults : Obligations.LeapTablesStayWithoutFaults := by
  refine ⟨fun s p c k v ho hr => ?_, fun s c n a k conf hl => ?_, fun ch sec n hn hprior => leapWin_of_no_prior hn hprior⟩
  · obtain ⟨ha, hlt, _⟩ := leapEnt_off k
    have acts : ∀ q : Channel → Prop, q (s.ch[c].hostWrite p.org .dpll (DPLL_LEAP_ENT k.val) v) → ActsOn (.leapEntWrite p c k v) s c q := fun q hq =>
      actsOn_write .dpll _ v rfl rfl ho hr ha hlt (Option.isSome_of_any (leapEnt_reg k)) hq
    exact ⟨fun hf => acts _ (Channel.hostWrite_leapEnt_takes _ _ k v hf), fun hf => acts _ (Channel.hostWrite_leapEnt_rejects _ _ k v hf)⟩
  · have acts : ∀ q : Channel → Prop, q (s.ch[c].utcAnnounce n a) → ActsOn (.utcAnnouncement c n a) s c q := fun q hq =>
      actsOn_intro (fun ch => ch.utcAnnounce n a) hl rfl rfl hq
    refine ⟨fun h0 => acts _ ?_, fun h0 hno => acts _ ?_, fun h0 hn hk hh hnear => acts _ ?_, fun h0 hn hk hh hnear hplace => ?_⟩
    · rw [Channel.utcAnnounce_of_host h0]
      exact ⟨on_ask _ rfl (on_evt _ rfl rfl (Channel.onlyIn_refl _ _)), rfl, cur_evt _ _ rfl (by decide), by simp⟩
    · by_cases hn : s.ch[c].ref.selA.prev = some n
      · rcases hno with hother | hk | hh
        · exact absurd hn hother
        · exact Channel.utcAnnounce_of_known h0 hn hk
        · exact Channel.utcAnnounce_of_held h0 hn hh
      · exact Channel.utcAnnounce_of_other h0 hn
    · rw [Channel.utcAnnounce_of_near h0 hn hk hh hnear]
      exact ⟨on_ask _ rfl (on_evt _ rfl rfl (Channel.onlyIn_refl _ _)), rfl, cur_evt _ _ rfl (by decide), by simp⟩
    · have put := Channel.utcAnnounce_of_place h0 hn hk hh hnear hplace
      refine ⟨fun hf => acts _ ?_, fun hf => acts _ ?_⟩
      · rw [put]
        exact Channel.annPut_takes _ hf
      · rw [put.trans (Channel.annPut_rejects _ hf)]
        exact ⟨on_evt _ rfl rfl (Channel.onlyIn_refl _ _), rfl, cur_evt _ _ rfl (by decide)⟩

end Sys2Proof
end

section
/-! One lane changed among the others: moves between states, windows, the timers of a lane (R76, R80, R81). -/
namespace Sys2Proof.Machine

/-- Of the REF block only lane `n` has changed: the frame of the lane timers and of LANE_CMD. -/
def LaneOnly (n : LaneIx) (c d : Channel) : Prop :=
  Channel.onlyIn [.ref, .jour, .asks] c d ∧ ∀ m : LaneIx, m ≠ n → d.lane m = c.lane m

theorem LaneOnly.refl (n : LaneIx) (c : Channel) : LaneOnly n c c := ⟨Channel.onlyIn_refl _ _, fun _ _ => rfl⟩

theorem LaneOnly.trans {n : LaneIx} {a b c : Channel} (h : LaneOnly n a b) (g : LaneOnly n b c) : LaneOnly n a c :=
  ⟨Channel.onlyIn_trans h.1 g.1, fun m hm => (g.2 m hm).trans (h.2 m hm)⟩

theorem LaneOnly.ite {n : LaneIx} {c a b : Channel} {p : Prop} [Decidable p] (ha : LaneOnly n c a) (hb : LaneOnly n c b) :
    LaneOnly n c (if p then a else b) := by split <;> assumption

theorem laneOnly_updLane (c : Channel) (n : LaneIx) (f : Lane → Lane) : LaneOnly n c (c.updLane n f) :=
  ⟨on_updLane n f rfl (Channel.onlyIn_refl _ _), fun _ hm => lane_updLane_ne c f hm.symm⟩

theorem lane_laneTo_ne (c : Channel) {n m : LaneIx} (dst : LaneSt) (k : ℕ) (h : m ≠ n) : (c.laneTo n dst k).lane m = c.lane m := by
  unfold Channel.laneTo
  extract_lets l l1 hh l2 l3 l4
  split
  · exact lane_setLane_ne c l4 h
  · exact lane_setLane_ne c l4 h

theorem laneOnly_laneTo (c : Channel) (n : LaneIx) (dst : LaneSt) (k : ℕ) : LaneOnly n c (c.laneTo n dst k) :=
  ⟨on_laneTo n dst k rfl (Channel.onlyIn_refl _ _), fun _ hm => lane_laneTo_ne c dst k hm⟩

theorem laneOnly_startWin (c : Channel) (n : LaneIx) : LaneOnly n c (c.startWin n) := laneOnly_updLane c n _

/-- A move of a lane leaves the values in use and the tick. -/
theorem fld_laneTo (c : Channel) (n : LaneIx) (dst : LaneSt) (k : ℕ) {f : KF} (hb : f.blk = .ref) (hs : f.sh = true) :
    (c.laneTo n dst k).fld f = c.fld f := fld_ref_use (laneTo_rest c n dst k).1 hb hs

theorem tick_laneTo (c : Channel) (n : LaneIx) (dst : LaneSt) (k : ℕ) : (c.laneTo n dst k).jour.tick = c.jour.tick := (laneTo_rest c n dst k).2.1

/-- A lane whose qualification window has just begun (R80). -/
def WindowBegins (n : LaneIx) (c d : Channel) : Prop :=
  (d.lane n).st = .qualifying ∧ (d.lane n).winGood = 0 ∧
    (d.lane n).timer = some (c.jour.tick + Channel.secTicks (c.fld (F.REF_LANE_QUAL_QUAL_WIN n.val)))

theorem startWin_begins {c : Channel} {n : LaneIx} (h : (c.lane n).st = .qualifying) : WindowBegins n c (c.startWin n) := by
  unfold Channel.startWin WindowBegins
  rw [lane_updLane_self]
  exact ⟨h, rfl, rfl⟩

/-- A lane that goes QUALIFYING begins its window. -/
theorem requalify_begins (c : Channel) (n : LaneIx) (k : ℕ) : WindowBegins n c ((c.laneTo n .qualifying k).startWin n) := by
  have h := startWin_begins (laneTo_lane c n .qualifying k).1
  unfold WindowBegins at h
  rwa [tick_laneTo, fld_laneTo c n .qualifying k rfl rfl] at h

/-! ### The miss timer -/

theorem expired_iff (now : ℕ) (t : Option ℕ) : Channel.expired now t = true ↔ ∃ k, t = some k ∧ k ≤ now := by
  cases t <;> simp [Channel.expired]

section
variable {c : Channel} {n : LaneIx}

theorem missExpiry_idle (h : ¬ ∃ k, (c.lane n).miss = some k ∧ k ≤ c.jour.tick) : c.missExpiry n = c := by
  unfold Channel.missExpiry
  rw [← expired_iff, Bool.not_eq_true] at h
  simp [h]

theorem missExpiry_due (h : ∃ k, (c.lane n).miss = some k ∧ k ≤ c.jour.tick) : c.missExpiry n =
    if Channel.liveSt (c.lane n).st = true then (c.updLane n fun l => { l with los := true, miss := none }).laneTo n .absent 27
    else c.updLane n fun l => { l with los := true, miss := none } := by
  unfold Channel.missExpiry
  rw [← expired_iff] at h
  simp [h]

theorem laneOnly_missExpiry (c : Channel) (n : LaneIx) : LaneOnly n c (c.missExpiry n) := by
  unfold Channel.missExpiry
  have h := laneOnly_updLane c n fun l => { l with los := true, miss := none }
  exact .ite (.refl _ _) (.ite (h.trans (laneOnly_laneTo _ _ _ _)) h)

/-- A miss timer that is due takes a live lane to ABSENT and leaves the timer of any other. -/
theorem missExpiry_lane (h : ∃ k, (c.lane n).miss = some k ∧ k ≤ c.jour.tick) :
    ((c.missExpiry n).lane n).los = true ∧ ((c.missExpiry n).lane n).miss = none ∧
      ((c.missExpiry n).lane n).st = (if Channel.liveSt (c.lane n).st = true then .absent else (c.lane n).st) ∧
      (Channel.liveSt (c.lane n).st = false → ((c.missExpiry n).lane n).timer = (c.lane n).timer) := by
  rw [missExpiry_due h]
  by_cases hl : Channel.liveSt (c.lane n).st = true
  · obtain ⟨hst, _, hmiss, hlos, _⟩ := laneTo_lane (c.updLane n fun l => { l with los := true, miss := none }) n .absent 27
    rw [if_pos hl, if_pos hl, hst, hmiss, hlos, lane_updLane_self]
    exact ⟨rfl, rfl, rfl, fun hf => absurd hl (by simp [hf])⟩
  · rw [if_neg hl, if_neg hl, lane_updLane_self]
    exact ⟨rfl, rfl, rfl, fun _ => rfl⟩

theorem missExpiry_not_live {t : LaneSt} (h : ∃ k, (c.lane n).miss = some k ∧ k ≤ c.jour.tick) (ht : Channel.liveSt t = true) :
    ((c.missExpiry n).lane n).st ≠ t := by
  rw [(missExpiry_lane h).2.2.1]
  split
  · rintro rfl; exact absurd ht (by decide)
  · rintro rfl; contradiction

theorem tick_missExpiry (c : Channel) (n : LaneIx) : (c.missExpiry n).jour.tick = c.jour.tick := by
  unfold Channel.missExpiry
  dsimp only
  split
  · rfl
  · split
    · exact tick_laneTo _ _ _ _
    · rfl

/-- A miss timer that is due leaves no DQ_HOLD timer due where none was. -/
theorem missExpiry_no_dq (h : ∃ k, (c.lane n).miss = some k ∧ k ≤ c.jour.tick)
    (hd : (c.lane n).st ≠ .disqualified ∨ ¬ ∃ k, (c.lane n).timer = some k ∧ k ≤ c.jour.tick) :
    ((c.missExpiry n).lane n).st ≠ .disqualified ∨
      ¬ ∃ k, ((c.missExpiry n).lane n).timer = some k ∧ k ≤ (c.missExpiry n).jour.tick := by
  obtain ⟨_, _, hst, htimer⟩ := missExpiry_lane h
  rw [hst, tick_missExpiry]
  cases hl : Channel.liveSt (c.lane n).st with
  | true => exact .inl (by rw [if_pos rfl]; decide)
  | false => rw [htimer hl]; exact hd

end

/-! ### The other timers: the miss timer comes first, and leaves `d` -/

section
variable {c d : Channel} {n : LaneIx} (hd : c.missExpiry n = d)
include hd

theorem windowExpiry_idle (h : (d.lane n).st ≠ .qualifying ∨ ¬ ∃ k, (d.lane n).timer = some k ∧ k ≤ d.jour.tick) : c.windowExpiry n = d := by
  unfold Channel.windowExpiry
  rw [← expired_iff, Bool.not_eq_true] at h
  rw [hd]
  exact if_pos (h.imp_right fun h => by rw [h]; rfl)

theorem wtrExpiry_idle (h : (d.lane n).st ≠ .wtr ∨ ¬ ∃ k, (d.lane n).timer = some k ∧ k ≤ d.jour.tick) : c.wtrExpiry n = d := by
  unfold Channel.wtrExpiry
  rw [← expired_iff, Bool.not_eq_true] at h
  rw [hd]
  exact if_pos (h.imp_right fun h => by rw [h]; rfl)

theorem dqExpiry_idle (h : (d.lane n).st ≠ .disqualified ∨ ¬ ∃ k, (d.lane n).timer = some k ∧ k ≤ d.jour.tick) : c.dqExpiry n = d := by
  unfold Channel.dqExpiry
  rw [← expired_iff, Bool.not_eq_true] at h
  rw [hd]
  exact if_pos (h.imp_right fun h => by rw [h]; rfl)

variable (ht : ∃ k, (d.lane n).timer = some k ∧ k ≤ d.jour.tick)
include ht

theorem windowExpiry_due (hs : (d.lane n).st = .qualifying) : c.windowExpiry n =
    if (d.lane n).winGood < max 1 (d.fld (F.REF_LANE_QUAL_QUAL_MIN n.val)) then d.startWin n
    else if (!(d.lane n).returning || d.fld (F.REF_LANE_TIME_WTR n.val) == 0) = true then
      (d.updLane n fun l => { l with timer := none, returning := true }).laneTo n .qualified 0xFF
    else (d.laneTo n .wtr 0xFF).updLane n fun l =>
      { l with timer := some (d.jour.tick + Channel.secTicks (d.fld (F.REF_LANE_TIME_WTR n.val))) } := by
  unfold Channel.windowExpiry
  rw [hd]
  exact if_neg (by rw [hs, (expired_iff _ _).mpr ht]; simp)

theorem windowExpiry_few (hs : (d.lane n).st = .qualifying)
    (hf : (d.lane n).winGood < max 1 (d.fld (F.REF_LANE_QUAL_QUAL_MIN n.val))) : WindowBegins n d (c.windowExpiry n) := by
  rw [windowExpiry_due hd ht hs, if_pos hf]
  exact startWin_begins hs

theorem windowExpiry_qualifies (hs : (d.lane n).st = .qualifying)
    (hf : ¬ (d.lane n).winGood < max 1 (d.fld (F.REF_LANE_QUAL_QUAL_MIN n.val)))
    (hw : (d.lane n).returning = false ∨ d.fld (F.REF_LANE_TIME_WTR n.val) = 0) :
    ((c.windowExpiry n).lane n).st = .qualified ∧ ((c.windowExpiry n).lane n).returning = true ∧ ((c.windowExpiry n).lane n).timer = none := by
  rw [windowExpiry_due hd ht hs, if_neg hf, if_pos (by simpa using hw)]
  obtain ⟨hst, htimer, _, _, hret, _⟩ := laneTo_lane (d.updLane n fun l => { l with timer := none, returning := true }) n .qualified 0xFF
  rw [hst, hret, htimer, lane_updLane_self]
  exact ⟨rfl, rfl, rfl⟩

theorem windowExpiry_waits (hs : (d.lane n).st = .qualifying)
    (hf : ¬ (d.lane n).winGood < max 1 (d.fld (F.REF_LANE_QUAL_QUAL_MIN n.val)))
    (hr : (d.lane n).returning = true) (hw : d.fld (F.REF_LANE_TIME_WTR n.val) ≠ 0) :
    ((c.windowExpiry n).lane n).st = .wtr ∧
      ((c.windowExpiry n).lane n).timer = some (d.jour.tick + Channel.secTicks (d.fld (F.REF_LANE_TIME_WTR n.val))) := by
  rw [windowExpiry_due hd ht hs, if_neg hf, if_neg (by simp [hr, hw]), lane_updLane_self]
  exact ⟨(laneTo_lane d n .wtr 0xFF).1, rfl⟩

theorem wtrExpiry_qualifies (hs : (d.lane n).st = .wtr) :
    ((c.wtrExpiry n).lane n).st = .qualified ∧ ((c.wtrExpiry n).lane n).timer = none := by
  have hx : (c.wtrExpiry n).lane n = ((d.updLane n fun l => { l with timer := none }).laneTo n .qualified 0xFF).lane n := by
    unfold Channel.wtrExpiry
    rw [hd]
    dsimp only
    rw [if_neg (by rw [hs, (expired_iff _ _).mpr ht]; simp)]
    rfl
  obtain ⟨hst, htimer, _⟩ := laneTo_lane (d.updLane n fun l => { l with timer := none }) n .qualified 0xFF
  rw [hx, hst, htimer, lane_updLane_self]
  exact ⟨rfl, rfl⟩

theorem dqExpiry_due (hs : (d.lane n).st = .disqualified) : c.dqExpiry n =
    if (d.lane n).los = true then (d.updLane n fun l => { l with timer := none }).laneTo n .absent 0xFF
    else ((d.updLane n fun l => { l with timer := none }).laneTo n .qualifying 0xFF).startWin n := by
  unfold Channel.dqExpiry
  rw [hd]
  exact if_neg (by rw [hs, (expired_iff _ _).mpr ht]; simp)

/-- DQ_HOLD of a lane that gets no records (R80): a LOS that the miss timer set stays. -/
theorem dqExpiry_absent (hs : (d.lane n).st = .disqualified) (hlos : (d.lane n).los = true) :
    ((c.dqExpiry n).lane n).los = true ∧ ((c.dqExpiry n).lane n).st = .absent := by
  rw [dqExpiry_due hd ht hs, if_pos hlos]
  obtain ⟨hst, _, _, hl, _⟩ := laneTo_lane (d.updLane n fun l => { l with timer := none }) n .absent 0xFF
  rw [hst, hl, lane_updLane_self]
  exact ⟨hlos, rfl⟩

theorem dqExpiry_requalifies (hs : (d.lane n).st = .disqualified) (hlos : (d.lane n).los = false) : WindowBegins n d (c.dqExpiry n) := by
  rw [dqExpiry_due hd ht hs, if_neg (by simp [hlos])]
  exact requalify_begins (d.updLane n fun l => { l with timer := none }) n 0xFF

end

/-! ### What the other timers leave -/

theorem laneOnly_windowExpiry (c : Channel) (n : LaneIx) : LaneOnly n c (c.windowExpiry n) := by
  refine (laneOnly_missExpiry c n).trans ?_
  unfold Channel.windowExpiry
  generalize c.missExpiry n = d
  exact .ite (.refl _ _) (.ite (laneOnly_startWin _ _) (.ite ((laneOnly_updLane _ _ _).trans (laneOnly_laneTo _ _ _ _))
    ((laneOnly_laneTo _ _ _ _).trans (laneOnly_updLane _ _ _))))

theorem laneOnly_wtrExpiry (c : Channel) (n : LaneIx) : LaneOnly n c (c.wtrExpiry n) := by
  refine ⟨on_wtrExpiry n rfl (Channel.onlyIn_refl _ _), fun m hm => ?_⟩
  refine Eq.trans ?_ ((laneOnly_missExpiry c n).2 m hm)
  unfold Channel.wtrExpiry
  generalize c.missExpiry n = d
  dsimp only
  split
  · rfl
  · exact ((laneOnly_updLane d n fun l => { l with timer := none }).trans (laneOnly_laneTo _ n .qualified 0xFF)).2 m hm

theorem laneOnly_dqExpiry (c : Channel) (n : LaneIx) : LaneOnly n c (c.dqExpiry n) := by
  refine (laneOnly_missExpiry c n).trans ?_
  unfold Channel.dqExpiry
  generalize c.missExpiry n = d
  have h := laneOnly_updLane d n fun l => { l with timer := none }
  exact .ite (.refl _ _) (.ite (h.trans (laneOnly_laneTo _ _ _ _)) (h.trans ((laneOnly_laneTo _ _ _ _).trans (laneOnly_startWin _ _))))

end Sys2Proof.Machine

namespace Sys2Proof
open Sys2Proof.Machine

/-- Settles O19: the miss timer comes first, and each of the other timers acts on the lane that it leaves. -/
theorem laneTimersDriveTheLaneStates : Obligations.LaneTimersDriveTheLaneStates := by
  intro s c n hl ch l now due fr missed window wtr few
  have miss : ∀ q : Channel → Prop, q (ch.missExpiry n) → ActsOn (.laneMissTimerExpiry c n) s c q := fun q hq =>
    actsOn_intro (fun ch => ch.missExpiry n) hl rfl rfl hq
  have qual : ∀ q : Channel → Prop, q (ch.windowExpiry n) → ActsOn (.qualWindowExpiry c n) s c q := fun q hq =>
    actsOn_intro (fun ch => ch.windowExpiry n) hl rfl rfl hq
  have wait : ∀ q : Channel → Prop, q (ch.wtrExpiry n) → ActsOn (.wtrExpiry c n) s c q := fun q hq =>
    actsOn_intro (fun ch => ch.wtrExpiry n) hl rfl rfl hq
  have hold : ∀ q : Channel → Prop, q (ch.dqExpiry n) → ActsOn (.dqHoldExpiry c n) s c q := fun q hq =>
    actsOn_intro (fun ch => ch.dqExpiry n) hl rfl rfl hq
  refine ⟨fun hm => ?_, fun hm => ?_⟩
  · obtain ⟨hlos, hmiss, hst, htimer⟩ := missExpiry_lane hm
    have hmissed : missed (ch.missExpiry n) := ⟨laneOnly_missExpiry ch n, hlos, hmiss, hst⟩
    refine ⟨miss _ hmissed, qual _ ?_, wait _ ?_, fun hno => hold _ ?_, fun hs ht => hold _ ⟨laneOnly_dqExpiry ch n, ?_⟩⟩
    · rw [windowExpiry_idle rfl (.inl (missExpiry_not_live hm rfl))]
      exact hmissed
    · rw [wtrExpiry_idle rfl (.inl (missExpiry_not_live hm rfl))]
      exact hmissed
    · rw [dqExpiry_idle rfl (missExpiry_no_dq hm hno)]
      exact hmissed
    · have hdead : Channel.liveSt l.st = false := by rw [hs]; rfl
      refine dqExpiry_absent rfl ?_ ?_ hlos
      · rw [htimer hdead, tick_missExpiry]
        exact ht
      · rw [hst, if_neg (by rw [hdead]; decide)]
        exact hs
  · have hd : ch.missExpiry n = ch := missExpiry_idle hm
    exact ⟨miss _ hd,
      fun hs ht hf => qual _ ⟨laneOnly_windowExpiry ch n, windowExpiry_few hd ht hs hf⟩,
      fun hs ht hf hw => qual _ ⟨laneOnly_windowExpiry ch n, windowExpiry_qualifies hd ht hs hf hw⟩,
      fun hs ht hf hr hw => qual _ ⟨laneOnly_windowExpiry ch n, windowExpiry_waits hd ht hs hf hr hw⟩,
      fun hno => qual _ (windowExpiry_idle hd hno),
      fun hs ht => wait _ ⟨laneOnly_wtrExpiry ch n, wtrExpiry_qualifies hd ht hs⟩,
      fun hno => wait _ (wtrExpiry_idle hd hno),
      fun hs ht hlos => hold _ ⟨laneOnly_dqExpiry ch n, (dqExpiry_absent hd ht hs hlos).2⟩,
      fun hs ht hlos => hold _ ⟨laneOnly_dqExpiry ch n, dqExpiry_requalifies hd ht hs hlos⟩,
      fun hno => hold _ (dqExpiry_idle hd hno)⟩

end Sys2Proof
end

section
/-! LANE_CMD (R80, R83): what a host's write of it does to its lane. -/
namespace Sys2Proof.Machine

theorem lane_of_ref {c d : Channel} (h : d.ref = c.ref) (n : LaneIx) : d.lane n = c.lane n := by unfold Channel.lane; rw [h]

theorem laneOnly_force (c : Channel) (sync : LaneIx → ℕ) (n : LaneIx) : LaneOnly n c (c.force sync n) :=
  (laneOnly_updLane _ _ _).trans (laneOnly_laneTo _ _ _ _)

theorem laneOnly_unforce (c : Channel) (n : LaneIx) : LaneOnly n c (c.unforce n) :=
  (laneOnly_updLane c n fun l => { l with returning := true }).trans
    (.ite (laneOnly_laneTo _ _ _ _) ((laneOnly_laneTo _ _ _ _).trans (laneOnly_startWin _ _)))

theorem laneOnly_requal (c : Channel) (n : LaneIx) : LaneOnly n c (c.requal n) := (laneOnly_laneTo _ _ _ _).trans (laneOnly_startWin _ _)

/-- FORCE, UNFORCE and REQUAL leave STEPW; UNFORCE marks the lane as one that returns. -/
theorem force_stepW (c : Channel) (sync : LaneIx → ℕ) (n : LaneIx) : ((c.force sync n).lane n).stepW = (c.lane n).stepW := by
  unfold Channel.force
  obtain ⟨_, _, _, _, _, _, _, hw, _⟩ := laneTo_lane (c.updLane n fun _ => { c.lane n with
    timer := none, miss := if (c.lane n).st = .absent then some (c.jour.tick + max 1 (c.fld (F.REF_LANE_CFG_MISS_LIM n.val)) * c.laneInterval sync n) else (c.lane n).miss }) n .forced 0xFF
  exact hw.trans (by rw [lane_updLane_self])

theorem requal_stepW (c : Channel) (n : LaneIx) :
    ((c.requal n).lane n).stepW = (c.lane n).stepW ∧ ((c.requal n).lane n).returning = (c.lane n).returning := by
  obtain ⟨_, _, _, _, hr, _, _, hw, _⟩ := laneTo_lane c n .qualifying 0xFF
  unfold Channel.requal Channel.startWin
  rw [lane_updLane_self]
  exact ⟨hw, hr⟩

theorem unforce_stepW (c : Channel) (n : LaneIx) :
    ((c.unforce n).lane n).stepW = (c.lane n).stepW ∧ ((c.unforce n).lane n).returning = true := by
  unfold Channel.unforce
  extract_lets c0
  have h0 : c0.lane n = { c.lane n with returning := true } := lane_updLane_self _ _ _
  split
  · obtain ⟨_, _, _, _, hr, _, _, hw, _⟩ := laneTo_lane c0 n .absent 0xFF
    rw [hr, hw, h0]
    exact ⟨rfl, rfl⟩
  · obtain ⟨hw, hr⟩ := requal_stepW c0 n
    exact ⟨hw.trans (by rw [h0]), hr.trans (by rw [h0])⟩

/-! ### The word of LANE_CMD -/

/-- CLR_STEP of a LANE_CMD word (R83). -/
def Channel.clrStep (c : Channel) (n : LaneIx) (v : Word) : Channel :=
  if bit v 3 = true then c.updLane n (fun l => { l with stepW := 0 }) else c

theorem clrStep_lane (c : Channel) (n : LaneIx) (v : Word) :
    (c.clrStep n v).lane n = { c.lane n with stepW := if bit v 3 = true then 0 else (c.lane n).stepW } := by
  unfold Channel.clrStep
  split
  · rw [lane_updLane_self]
  · rfl

theorem laneOnly_clrStep (c : Channel) (n : LaneIx) (v : Word) : LaneOnly n c (c.clrStep n v) := .ite (laneOnly_updLane _ _ _) (.refl _ _)

theorem laneOnly_laneCmd (c : Channel) (n : LaneIx) (v : Word) : LaneOnly n c (c.laneCmd n v).2 := by
  unfold Channel.laneCmd
  extract_lets a0 c1 a1 c2 a2 c3 a3 c4
  have h1 : LaneOnly n c c1 := .ite (laneOnly_force _ _ _) (.refl _ _)
  have h2 : LaneOnly n c1 c2 := .ite (laneOnly_unforce _ _) (.refl _ _)
  have h3 : LaneOnly n c2 c3 := .ite (laneOnly_requal _ _) (.refl _ _)
  have h4 : LaneOnly n c3 c4 := laneOnly_clrStep c3 n v
  split
  · exact .refl _ _
  · exact h1.trans (h2.trans (h3.trans h4))

section
variable {c : Channel} {n : LaneIx} {v : Word}

theorem laneCmd_both (h0 : bit v 0 = true) (h1 : bit v 1 = true) : (c.laneCmd n v).2 = c := by
  unfold Channel.laneCmd
  rw [h0, h1]
  rfl

theorem laneCmd_force (h0 : bit v 0 = true) (h1 : bit v 1 = false) (he : (c.lane n).exist = true) (hen : c.laneEnabled n = true) :
    (c.laneCmd n v).2 = (c.force c.syncIv n).clrStep n v := by
  have hl : Channel.liveSt ((c.force c.syncIv n).lane n).st = false := by rw [(force_lane c c.syncIv n).1]; rfl
  simp [Channel.laneCmd, h0, h1, he, hen, hl, Channel.clrStep]

/-- FORCE of a lane that is not there or not enabled does nothing. -/
theorem laneCmd_force_idle (h0 : bit v 0 = true) (h1 : bit v 1 = false) (h2 : bit v 2 = false) (h : (c.lane n).exist = false ∨ c.laneEnabled n = false) :
    (c.laneCmd n v).2 = c.clrStep n v := by
  have ha : ((c.lane n).exist && c.laneEnabled n) = false := Bool.and_eq_false_iff.mpr h
  simp [Channel.laneCmd, h0, h1, h2, ha, Channel.clrStep]

variable (h0 : bit v 0 = false)
include h0

theorem laneCmd_unforce (h1 : bit v 1 = true) (h2 : bit v 2 = false) (hs : (c.lane n).st = .forced) :
    (c.laneCmd n v).2 = (c.unforce n).clrStep n v := by
  simp [Channel.laneCmd, h0, h1, h2, hs, Channel.clrStep]

theorem laneCmd_unforce_idle (h1 : bit v 1 = true) (h2 : bit v 2 = false) (hs : (c.lane n).st ≠ .forced) :
    (c.laneCmd n v).2 = c.clrStep n v := by
  simp [Channel.laneCmd, h0, h1, h2, hs, Channel.clrStep]

theorem laneCmd_requal (h1 : bit v 1 = false) (h2 : bit v 2 = true) (hl : Channel.liveSt (c.lane n).st = true) :
    (c.laneCmd n v).2 = (c.requal n).clrStep n v := by
  simp [Channel.laneCmd, h0, h1, h2, hl, Channel.clrStep]

theorem laneCmd_requal_idle (h1 : bit v 1 = false) (h2 : bit v 2 = true) (hl : Channel.liveSt (c.lane n).st = false) :
    (c.laneCmd n v).2 = c.clrStep n v := by
  simp [Channel.laneCmd, h0, h1, h2, hl, Channel.clrStep]

theorem laneCmd_clrStep (h1 : bit v 1 = false) (h2 : bit v 2 = false) : (c.laneCmd n v).2 = c.clrStep n v := by
  simp [Channel.laneCmd, h0, h1, h2, Channel.clrStep]

end

theorem clrStep_idle (c : Channel) (n : LaneIx) {v : Word} (h : bit v 3 = false) : c.clrStep n v = c := by
  unfold Channel.clrStep
  rw [h]
  rfl

/-! ### The commands -/

theorem laneEnabled_of_use {c d : Channel} (h : (d.rf .ref).use = (c.rf .ref).use) (n : LaneIx) : d.laneEnabled n = c.laneEnabled n := by
  unfold Channel.laneEnabled Channel.flag
  rw [fld_ref_use h rfl rfl]

theorem laneCmd_single (n : LaneIx) : multiIn (kbMulti .ref) (REF_LANE_CMD n.val) = none := by revert n; decide

/-- A LANE_CMD row acts on the channel `x` that the stored write leaves, of which the lanes and what is enabled are as they were. -/
theorem actsOn_laneCmd {s : State} {p : HostPath} {c : ChanIx} {n : LaneIx} {v : Word} {i : Instr}
    (hi : i ∈ [Instr.laneForce p c n v, .laneUnforce p c n v, .laneRequal p c n v, .laneClrStep p c n v]) (ho : s.open p) (hr : s.running c = true)
    {q : Channel → Prop} (hq : ∀ x d : Channel, x.ref = s.ch[c].ref → x.laneEnabled n = s.ch[c].laneEnabled n → LaneOnly n s.ch[c] d →
      d.ref = (x.laneCmd n v).2.ref → q d) : ActsOn i s c q := by
  obtain ⟨ha, hb, _⟩ := laneCmd_off n
  have hrow : mayRate i = false ∧ s.clear.effect i = s.clear.writeCh p c .ref (REF_LANE_CMD n.val) v := by
    simp only [List.mem_cons, List.not_mem_nil, or_false] at hi
    rcases hi with rfl | rfl | rfl | rfl <;> exact ⟨rfl, rfl⟩
  refine actsOn_cmd .ref _ v hrow.1 hrow.2 ho hr ha hb (laneCmd_reg n) (laneCmd_single n) (Channel.hasPart_none _ rfl)
    (Channel.ignores_not_sched _ _ v (by decide) (by decide)) (by simp) fun x es hx => ?_
  obtain ⟨hon, href, _, _, _, huse⟩ := cmd_c2 hx
  rw [action_laneCmd]
  have hl := laneOnly_laneCmd x n v
  exact hq x _ href (laneEnabled_of_use (huse .ref) n)
    ⟨onlyIn_effs rfl es (Channel.onlyIn_trans hon hl.1), fun m hm => (hl.2 m hm).trans (lane_of_ref href m)⟩ rfl

end Sys2Proof.Machine

namespace Sys2Proof
open Sys2Proof.Machine

/-- Settles O20, bit by bit: each command that its lane takes makes one move, and CLR_STEP follows it. -/
theorem laneCommandsMoveTheLane : Obligations.LaneCommandsMoveTheLane := by
  intro s p c n v ho hr ch l fr none' w i hi
  have cmd : ∀ {q : Channel → Prop}, (∀ x d : Channel, x.ref = ch.ref → x.laneEnabled n = ch.laneEnabled n → LaneOnly n ch d →
      d.ref = (x.laneCmd n v).2.ref → q d) → ActsOn i s c q := actsOn_laneCmd hi ho hr
  -- the lane that a move `y` leaves, after CLR_STEP
  have lane : ∀ {x y d : Channel}, d.ref = (x.laneCmd n v).2.ref → (x.laneCmd n v).2 = y.clrStep n v →
      d.lane n = { y.lane n with stepW := if bit v 3 = true then 0 else (y.lane n).stepW } := fun hd hy => by
    rw [lane_of_ref hd n, hy, clrStep_lane]
  have stays : ∀ {x d : Channel}, x.ref = ch.ref → LaneOnly n ch d → d.ref = (x.laneCmd n v).2.ref → (x.laneCmd n v).2 = x → none' d :=
    fun hx hon hd h => ⟨hon.1, by rw [hd, h, hx]⟩
  refine ⟨fun h0 h1 he hen => cmd fun x d hx hxe hon hd => ?_, fun h1 h0 h2 hs => cmd fun x d hx _ hon hd => ?_,
    fun h2 h0 h1 hlive => cmd fun x d hx _ hon hd => ?_, fun h3 h0 h1 h2 => cmd fun x d hx _ hon hd => ?_,
    fun h0 h1 => cmd fun x d hx _ hon hd => stays hx hon hd (laneCmd_both h0 h1),
    fun h0 h1 h2 h3 hno => cmd fun x d hx hxe hon hd => stays hx hon hd ?_,
    fun h1 h0 h2 h3 hs => cmd fun x d hx _ hon hd => stays hx hon hd ?_,
    fun h2 h0 h1 h3 hlive => cmd fun x d hx _ hon hd => stays hx hon hd ?_⟩
  · have hl := lane hd (laneCmd_force h0 h1 (by rw [lane_of_ref hx]; exact he) (hxe.trans hen))
    obtain ⟨hst, htimer⟩ := force_lane x x.syncIv n
    rw [force_stepW, lane_of_ref hx] at hl
    exact ⟨hon, congrArg Lane.stepW hl, (congrArg Lane.st hl).trans hst, (congrArg Lane.timer hl).trans htimer⟩
  · have hl := lane hd (laneCmd_unforce h0 h1 h2 (by rw [lane_of_ref hx]; exact hs))
    obtain ⟨hw, hret⟩ := unforce_stepW x n
    obtain ⟨habs, hqual⟩ := unforce_lane x n
    rw [lane_of_ref hx] at habs hqual hw
    rw [hw] at hl
    refine ⟨hon, congrArg Lane.stepW hl, (congrArg Lane.returning hl).trans hret, (congrArg Lane.st hl).trans ?_⟩
    cases hlos : l.los with
    | true => exact habs hlos
    | false => exact hqual hlos
  · have hl := lane hd (laneCmd_requal h0 h1 h2 (by rw [lane_of_ref hx]; exact hlive))
    obtain ⟨hst, hwin⟩ := requal_lane x n
    rw [(requal_stepW x n).1, lane_of_ref hx] at hl
    exact ⟨hon, congrArg Lane.stepW hl, (congrArg Lane.st hl).trans hst, (congrArg Lane.winGood hl).trans hwin⟩
  · have hl := lane hd (laneCmd_clrStep h0 h1 h2)
    rw [lane_of_ref hx, if_pos h3] at hl
    exact ⟨hon.1, hl, hon.2⟩
  · rw [laneCmd_force_idle h0 h1 h2 (by rw [lane_of_ref hx, hxe]; exact hno), clrStep_idle _ _ h3]
  · rw [laneCmd_unforce_idle h0 h1 h2 (by rw [lane_of_ref hx]; exact hs), clrStep_idle _ _ h3]
  · rw [laneCmd_requal_idle h0 h1 h2 (by rw [lane_of_ref hx]; exact hlive), clrStep_idle _ _ h3]

end Sys2Proof
end

section
/-! SEL_CMD (R90): the switch that waits is approved or denied. -/
namespace Sys2Proof.Machine

/-! ### A selection committed, and a published choice voided, leave the lanes -/

theorem lane_setSel (c : Channel) (sv : Servo) (x : SelSt) (n : LaneIx) : (c.setSel sv x).lane n = c.lane n := by cases sv <;> rfl

theorem keepWiden_ref (c : Channel) (sv : Servo) (new : Option LaneIx) : (c.keepWiden sv new).ref = c.ref := by
  unfold Channel.keepWiden
  split
  · split <;> rfl
  · rfl

theorem lane_commitSel (c : Channel) (sv : Servo) (new : Option LaneIx) (cause : ℕ) (n : LaneIx) : (c.commitSel sv new cause).lane n = c.lane n := by
  unfold Channel.commitSel
  extract_lets x y old c1 sw yy z z' c2 c3
  have h1 : c1.lane n = c.lane n := lane_of_ref (keepWiden_ref c sv new) n
  have h2 : c2.lane n = c1.lane n := lane_setSel c1 sv z' n
  have h3 : c3.lane n = c2.lane n := by
    unfold c3
    cases new <;> cases sv <;> rfl
  exact h3.trans (h2.trans h1)

theorem lane_cancelPv (c : Channel) (sv : Servo) (cause : ℕ) (n : LaneIx) : (c.cancelPv sv cause).lane n = c.lane n := by
  unfold Channel.cancelPv
  dsimp only
  split
  · rfl
  · exact lane_setSel c sv _ n

theorem lane_approveSwitch (c : Channel) (sv : Servo) (n : LaneIx) : (c.approveSwitch sv).lane n = c.lane n := by
  unfold Channel.approveSwitch
  dsimp only
  split
  · exact lane_commitSel _ _ _ _ _
  · rfl

theorem lane_denySwitch (c : Channel) (sv : Servo) (n : LaneIx) : (c.denySwitch sv).lane n = c.lane n := by
  unfold Channel.denySwitch
  dsimp only
  split
  · exact (lane_setSel _ _ _ _).trans (lane_cancelPv _ _ _ _)
  · rfl

/-! ### The word of SEL_CMD -/

/-- APPROVE and DENY of a servo in a SEL_CMD word. -/
def approves (sv : Servo) (v : Word) : Bool := bit v (if sv = .a then 31 else 29)
def denies (sv : Servo) (v : Word) : Bool := bit v (if sv = .a then 30 else 28)

/-- A SEL_CMD word that asks nothing, or both, of the other servo acts on `sv` alone. -/
theorem selCmd_of_one (c : Channel) (sv : Servo) (v : Word)
    (h : bit v (if sv = .a then 29 else 31) = bit v (if sv = .a then 28 else 30)) : (c.selCmd v).2 =
      if (!(c.sel sv).pend || approves sv v == denies sv v) = true then c
      else if approves sv v = true then c.approveSwitch sv else c.denySwitch sv := by
  cases sv with
  | a =>
    have h' : bit v 29 = bit v 28 := h
    simp only [Channel.selCmd, h', beq_self_eq_true, Bool.or_true, if_true]
    exact apply_ite Prod.snd _ _ _
  | b =>
    have h' : bit v 31 = bit v 30 := h
    simp only [Channel.selCmd, h', beq_self_eq_true, Bool.or_true, if_true]
    exact apply_ite Prod.snd _ _ _

section
variable {c : Channel} {sv : Servo} {v : Word} (h : bit v (if sv = .a then 29 else 31) = bit v (if sv = .a then 28 else 30))
include h

theorem selCmd_approve (hp : (c.sel sv).pend = true) (ha : approves sv v = true) (hd : denies sv v = false) :
    (c.selCmd v).2 = c.approveSwitch sv := by
  rw [selCmd_of_one c sv v h, hp, ha, hd]
  rfl

theorem selCmd_deny (hp : (c.sel sv).pend = true) (ha : approves sv v = false) (hd : denies sv v = true) :
    (c.selCmd v).2 = c.denySwitch sv := by
  rw [selCmd_of_one c sv v h, hp, ha, hd]
  rfl

theorem selCmd_idle (hno : (c.sel sv).pend = false ∨ approves sv v = denies sv v) : (c.selCmd v).2 = c := by
  rw [selCmd_of_one c sv v h]
  exact if_pos (by rcases hno with hp | he <;> simp [*])

end

theorem sel_of_ref {c d : Channel} (h : d.ref = c.ref) (sv : Servo) : d.sel sv = c.sel sv := by cases sv <;> simp [Channel.sel, h]

/-- A SEL_CMD row acts on the channel `x` that the stored write leaves, of which the REF block's state is as it was. -/
theorem actsOn_selCmd {s : State} {p : HostPath} {c : ChanIx} {v : Word} {i : Instr} (hi : i ∈ [Instr.selApprove p c v, .selDeny p c v])
    (ho : s.open p) (hr : s.running c = true) {q : Channel → Prop}
    (hq : ∀ (x : Channel) (es : List Eff), Channel.onlyIn [.ref, .jour, .asks] s.ch[c] x → x.ref = s.ch[c].ref →
      q { (x.selCmd v).2 with effs := (x.selCmd v).2.effs ++ es }) : ActsOn i s c q := by
  have hrow : mayRate i = false ∧ s.clear.effect i = s.clear.writeCh p c .ref REF_SEL_CMD v := by
    simp only [List.mem_cons, List.not_mem_nil, or_false] at hi
    rcases hi with rfl | rfl <;> exact ⟨rfl, rfl⟩
  refine actsOn_cmd .ref _ v hrow.1 hrow.2 ho hr (by decide) (by decide) (by decide) (by decide) (Channel.hasPart_none _ rfl)
    (Channel.ignores_not_sched _ _ v (by decide) (by decide)) (by decide) fun x es hx => ?_
  obtain ⟨hon, href, _⟩ := cmd_c2 hx
  rw [action_selCmd]
  exact hq x es hon href

end Sys2Proof.Machine

namespace Sys2Proof
open Sys2Proof.Machine

/-- Settles O21: the word acts on one servo, and the approval or the denial journals its entry. -/
theorem switchesWaitForTheHost : Obligations.SwitchesWaitForTheHost := by
  intro s p c v sv ho hr ch x ap dn hother i hi
  have cmd : ∀ {q : Channel → Prop}, (∀ (y : Channel) (es : List Eff), Channel.onlyIn [.ref, .jour, .asks] ch y → y.ref = ch.ref →
      q { (y.selCmd v).2 with effs := (y.selCmd v).2.effs ++ es }) → ActsOn i s c q := actsOn_selCmd hi ho hr
  refine ⟨fun m hp hv ha hd => cmd fun y es hon hy => ?_, fun m hp hv ha hd => cmd fun y es hon hy => ?_, fun hno => cmd fun y es hon hy => ?_⟩
  all_goals have hsel : y.sel sv = x := sel_of_ref hy sv
  · rw [selCmd_approve hother (by rw [hsel]; exact hp) ha hd, ← hsel]
    exact ⟨onlyIn_effs rfl es (on_approveSwitch sv rfl (Channel.onlyIn_mono rfl hon)),
      fun m => (lane_approveSwitch y sv m).trans (lane_of_ref hy m), says_approve y sv m (by rw [hsel]; exact hp) (by rw [hsel]; exact hv) es⟩
  · rw [selCmd_deny hother (by rw [hsel]; exact hp) ha hd, ← hsel]
    exact ⟨onlyIn_effs rfl es (on_denySwitch sv rfl (Channel.onlyIn_mono rfl hon)),
      fun m => (lane_denySwitch y sv m).trans (lane_of_ref hy m), says_deny y sv m (by rw [hsel]; exact hp) (by rw [hsel]; exact hv) es⟩
  · rw [selCmd_idle hother (by rw [hsel]; exact hno)]
    exact ⟨onlyIn_effs rfl es hon, hy⟩

end Sys2Proof
end

section
/-! What a channel has asked stays asked: the pipeline counters, flushed queues, what a channel settles (R160, R162, R166, R194, R228, R414),
the servos and steps (R131, R133, R140). -/
namespace Sys2Proof
open Sys2Proof.Machine

/-! ### How what is asked grows -/

theorem Asks.ite {c a b : Channel} {p : Prop} [Decidable p] (ha : Asks c a) (hb : Asks c b) : Asks c (if p then a else b) := by split <;> assumption

theorem Asks.fold {α : Type} {a c : Channel} {g : Channel → α → Channel} (l : List α) (hg : ∀ y x, Asks y (g y x)) (h : Asks a c) :
    Asks a (l.foldl g c) := by
  induction l generalizing c with
  | nil => exact h
  | cons x r ih => exact ih (h.trans (hg c x))

theorem Asks.iter {a c : Channel} {g : Channel → Channel} (n : ℕ) (hg : ∀ y, Asks y (g y)) (h : Asks a c) : Asks a (iter g n c) := by
  induction n generalizing c with
  | zero => exact h
  | succ n ih => exact ih (h.trans (hg c))

section
variable {a c d : Channel} (h : Asks a c)
include h

theorem Asks.same (he : d.effs = c.effs) : Asks a d := fun x hx => by rw [he]; exact h x hx

/-- An operation that asks nothing. -/
theorem Asks.only {L : List ChPart} (hF : Channel.onlyIn L c d) (hL : ChPart.asks ∉ L) : Asks a d := h.same (hF.2.2.2.2 .asks hL)

theorem Asks.ask (e : Eff) : Asks a (c.ask e) := h.trans (as_ask c e)
theorem Asks.evt (f : KF) : Asks a (c.evt f) := h.trans (as_evt c f)
theorem Asks.evtMask (b : KB) (off m : ℕ) : Asks a (c.evtMask b off m) := fun x hx => by
  rw [Channel.evtMask_effs]; exact List.mem_append_left _ (h x hx)
theorem Asks.put (f : KF) (v : ℕ) : Asks a (c.put f v) := h.same (Channel.put_effs _ _ _)
theorem Asks.bumpBy (f : KF) (n : ℕ) : Asks a (c.bumpBy f n) := h.put f _
theorem Asks.journal (b : JBody) : Asks a (c.journal b) := fun x hx => List.mem_append_left _ (h x hx)
theorem Asks.bookStep (org : Origin) (delta : Gt) : Asks a (c.bookStep org delta) := h.ask _
theorem Asks.moveCtr (delta : Gt) : Asks a (c.moveCtr delta) := h.only (on_moveCtr delta rfl (Channel.onlyIn_refl [.dpll] c)) (by decide)
theorem Asks.ringAdd (e : RingEnt) : Asks a (c.ringAdd e) := h.only (on_ringAdd e rfl (Channel.onlyIn_refl [.dpll] c)) (by decide)
theorem Asks.setSyn (y : SynBlk) : Asks a (c.setSyn y) := h.same rfl
theorem Asks.setPmu (y : PmuBlk) : Asks a (c.setPmu y) := h.same rfl
theorem Asks.setDpll (d : DpllSt) : Asks a (c.setDpll d) := h.same (Channel.setDpll_effs c d)

/-! ### The pipeline counters, and flushed queues -/

theorem Asks.pmcAdd (n k : ℕ) : Asks a (Channel.pmcAdd n k c) := by
  unfold Channel.pmcAdd
  extract_lets v c1 c2
  have h1 : Asks a c1 := (h.put _ _).put _ _
  have h2 : Asks a c2 := (h1.evtMask _ _ _).evt _
  have h3 : Asks a (c2.free 2).2 := h2.only (on_free 2 rfl (Channel.onlyIn_refl [.free] c2)) (by decide)
  exact .ite h1 (.ite (h3.setPmu _) h2)

theorem Asks.pmuBy (ev : ℕ) (port : Option PortIx) (n : ℕ) : Asks a (c.pmuBy ev port n) := by
  unfold Channel.pmuBy
  exact .ite h (.fold _ (fun y k => Asks.pmcAdd (.refl y) n k) h)

theorem Asks.resolve (waste : Bool) (w : ℕ) : Asks a (c.resolve waste w) := by
  unfold Channel.resolve
  extract_lets p u n p1
  exact .ite ((h.setPmu _).pmuBy _ _ _) ((h.setPmu _).pmuBy _ _ _)

theorem Asks.wasted (p : PortIx) (f : QFrame) : Asks a (Channel.wasted p c f) := by
  unfold Channel.wasted
  exact .ite h ((h.pmuBy _ _ _).resolve _ _)

theorem Asks.flushQ (noclaim : Bool) (p : PortIx) (q : ℕ) : Asks a (Channel.flushQ noclaim p c q) := by
  unfold Channel.flushQ
  extract_lets e n c1 c2
  have h1 : Asks a c1 := (h.only (on_putEq p q _ rfl (Channel.onlyIn_refl [.sched] c)) (by decide)).bumpBy _ _
  have h2 : Asks a c2 := .fold _ (fun y f => Asks.wasted (.refl y) p f) (h1.evt _)
  exact .ite h (.ite (h2.bumpBy _ _) h2)

theorem Asks.flushPort (noclaim : Bool) (p : PortIx) : Asks a (c.flushPort noclaim p) :=
  .fold _ (fun y q => Asks.flushQ (.refl y) noclaim p q) h

/-! ### What a channel settles -/

theorem Asks.raGo : Asks a c.raGo := by
  unfold Channel.raGo
  extract_lets sl c1 t src
  have h1 : Asks a c1 := h.put _ _
  exact .ite (h.evt _) (.ite (h1.setSyn _) (h1.setSyn _))

theorem Asks.synSettle (old : Channel) : Asks a (Channel.synSettle old c) := by
  unfold Channel.synSettle
  extract_lets c1
  have h1 : Asks a c1 := .ite (h.raGo.ask _) h
  exact h1.only (on_squelch rfl (Channel.onlyIn_refl [.syn] c1)) (by decide)

theorem Asks.txClamp (old : Channel) (p : PortIx) : Asks a (Channel.txClamp old p c) := by
  unfold Channel.txClamp
  exact .ite (h.evt _) h

theorem Asks.updPs (p : PortIx) (f : PortSt → PortSt) : Asks a (c.updPs p f) := h.same rfl

theorem Asks.sendQl (p : PortIx) (event : Bool) : Asks a (c.sendQl p event) := by
  unfold Channel.sendQl
  exact ((h.only (on_bwTx p 64 rfl (Channel.onlyIn_refl [.pmu] c)) (by decide)).ask _).updPs _ _

theorem Asks.esmcEvent (p : PortIx) : Asks a (Channel.esmcEvent p c) := by
  unfold Channel.esmcEvent
  refine .ite ?_ h
  split
  · exact h.updPs _ _
  · exact .ite h (h.sendQl p true)

theorem Asks.portSettle (old : Channel) : Asks a (Channel.portSettle old c) := by
  unfold Channel.portSettle
  exact (((h.txClamp old 0).txClamp old 1).esmcEvent 0).esmcEvent 1

theorem Asks.runSettle : Asks a c.runSettle := by
  unfold Channel.runSettle
  extract_lets c1
  have h1 : Asks a c1 := (h.put _ _).evt _
  exact .ite h (.ite h1 ((h1.flushPort true 0).flushPort true 1))

theorem Asks.epiSettle : Asks a c.epiSettle := by
  unfold Channel.epiSettle
  extract_lets secs ho src c1
  have h1 : Asks a c1 := by
    unfold c1
    split
    · exact (h.same rfl).ask _
    · exact .ite (h.same rfl) h
    · exact .ite h (h.same rfl)
    · exact h
  clear_value c1
  split
  · exact (h1.same rfl).ask _
  · exact h1.same rfl
  · exact h1

theorem Asks.settle (old : Channel) : Asks a (Channel.settle old c) := by
  unfold Channel.settle
  exact ((h.synSettle old).portSettle old).runSettle.epiSettle

/-! ### Servo applications and steps -/

theorem Asks.setRate (v : Int) : Asks a (c.setRate v) := by
  unfold Channel.setRate
  exact .ite ((h.setDpll _).evt _) (h.setDpll _)

theorem Asks.stateTo (st : ChanSt) : Asks a (c.stateTo st) := by
  unfold Channel.stateTo
  exact .ite (h.setDpll _) (((h.setDpll _).journal _).evt _)

theorem Asks.bStateTo (st : BSt) : Asks a (c.bStateTo st) := by
  unfold Channel.bStateTo
  exact .ite (h.setDpll _) (((h.setDpll _).journal _).evt _)

theorem Asks.applyA (r : MeasRec) : Asks a (c.applyA r) := by
  unfold Channel.applyA
  extract_lets d0 first hold iset x ax slTh m0 src c1 bwc sl src2 c2 src3 c3 c4 f teb0 d4 c5 c6 c7 d c8 src8
  have h1 : Asks a c1 := .ite ((((h.moveCtr _).setSyn _).bookStep _ _).evt _) (.ite (h.evt _) h)
  have h2 : Asks a c2 := h1.setDpll _
  have h3 : Asks a c3 := by
    refine .ite h2 (.ite (h2.setDpll _) (.ite h2 ?_))
    split
    · exact h2
    · refine Asks.setRate ?_ _
      exact h2.setDpll _
  have h5 : Asks a c5 := (h3.ringAdd _).setDpll _
  have h6 : Asks a c6 := .ite (h5.evt _) h5
  have h7 : Asks a c7 := h6.only (on_updateState ax rfl (Channel.onlyIn_refl [.dpll] c6)) (by decide)
  exact ((h7.journal _).setDpll _).stateTo _

theorem Asks.applyB (r : MeasRec) : Asks a (c.applyB r) := by
  unfold Channel.applyB
  exact ((h.setDpll _).journal _).bStateTo _

theorem Asks.doStep (delta : Gt) (org : Origin) : Asks a (c.doStep delta org) := by
  unfold Channel.doStep
  extract_lets d gain n src c1 c2
  have h1 : Asks a c1 := (h.moveCtr delta).setDpll _
  exact (((h1.bumpBy _ _).journal _).bookStep _ _).evt _

end

end Sys2Proof
end

section
/-! The records of a tick (R75, R81): registration journals each that is due, and what follows it leaves the edges and the records that wait. -/
namespace Sys2Proof
open Sys2Proof.Machine

/-! ### Edges and measured records that stay -/

/-- From `c` to `d` the edges of every lane and the measured records stay, and nothing asked is taken back. -/
structure RecordsStay (c d : Channel) : Prop where
  measured : d.ref.measured = c.ref.measured
  edges : ∀ n : LaneIx, (d.lane n).edges = (c.lane n).edges
  asks : Asks c d

theorem RecordsStay.refl (c : Channel) : RecordsStay c c := ⟨rfl, fun _ => rfl, .refl c⟩

theorem RecordsStay.trans {a b c : Channel} (h : RecordsStay a b) (g : RecordsStay b c) : RecordsStay a c :=
  ⟨g.measured.trans h.measured, fun n => (g.edges n).trans (h.edges n), h.asks.trans g.asks⟩

theorem RecordsStay.ite {c a b : Channel} {p : Prop} [Decidable p] (ha : RecordsStay c a) (hb : RecordsStay c b) :
    RecordsStay c (if p then a else b) := by split <;> assumption

theorem RecordsStay.fold {α : Type} {a c : Channel} {g : Channel → α → Channel} (l : List α) (hg : ∀ y x, RecordsStay y (g y x)) (h : RecordsStay a c) :
    RecordsStay a (l.foldl g c) := by
  induction l generalizing c with
  | nil => exact h
  | cons x r ih => exact ih (h.trans (hg c x))

theorem RecordsStay.iter {a c : Channel} {g : Channel → Channel} (n : ℕ) (hg : ∀ y, RecordsStay y (g y)) (h : RecordsStay a c) :
    RecordsStay a (iter g n c) := by
  induction n generalizing c with
  | zero => exact h
  | succ n ih => exact ih (h.trans (hg c))

section
variable {a c d : Channel} (h : RecordsStay a c)
include h

theorem RecordsStay.same (hr : d.ref = c.ref) (ha : Asks c d) : RecordsStay a d :=
  h.trans ⟨by rw [hr], fun n => by rw [lane_of_ref hr], ha⟩

/-- An operation that leaves the REF block. -/
theorem RecordsStay.only {L : List ChPart} (hF : Channel.onlyIn L c d) (hL : ChPart.ref ∉ L) (ha : Asks c d) : RecordsStay a d :=
  h.same (ref_of_only hF hL) ha

theorem RecordsStay.evt (f : KF) : RecordsStay a (c.evt f) := h.same rfl (as_evt c f)
theorem RecordsStay.evtMask (b : KB) (off m : ℕ) : RecordsStay a (c.evtMask b off m) := h.same rfl (.evtMask (.refl c) b off m)
theorem RecordsStay.bump (f : KF) : RecordsStay a (c.bump f) := h.same rfl (.put (.refl c) f _)
theorem RecordsStay.journalAt (t : ℕ) (m l : Bool) (b : JBody) : RecordsStay a (c.journalAt t m l b) :=
  h.same rfl (fun _ hx => List.mem_append_left _ hx)
theorem RecordsStay.journal (b : JBody) : RecordsStay a (c.journal b) := h.journalAt _ _ _ b
theorem RecordsStay.setDpll (d : DpllSt) : RecordsStay a (c.setDpll d) := h.same rfl (.setDpll (.refl c) d)

theorem RecordsStay.setSel (s : Servo) (x : SelSt) : RecordsStay a (c.setSel s x) :=
  h.trans (by cases s <;> exact ⟨rfl, fun _ => rfl, .refl c⟩)

theorem RecordsStay.setLane (n : LaneIx) (l : Lane) (hl : l.edges = (c.lane n).edges) : RecordsStay a (c.setLane n l) := by
  refine h.trans ⟨rfl, fun m => ?_, .refl c⟩
  by_cases hm : m = n
  · rw [hm, lane_setLane_self, hl]
  · rw [lane_setLane_ne c l hm]

theorem RecordsStay.updLane (n : LaneIx) (f : Lane → Lane) (hf : ∀ l, (f l).edges = l.edges := by exact fun _ => rfl) :
    RecordsStay a (c.updLane n f) := h.setLane n _ (hf _)

theorem RecordsStay.settle (old : Channel) : RecordsStay a (Channel.settle old c) :=
  h.only (on_settle old rfl (Channel.onlyIn_refl [.syn, .sched, .port, .sealb, .pmu, .epi, .free, .asks] c)) (by decide) (.settle (.refl c) old)

/-! ### Registration -/

theorem RecordsStay.laneTo (n : LaneIx) (dst : LaneSt) (k : ℕ) : RecordsStay a (c.laneTo n dst k) := by
  unfold Channel.laneTo
  extract_lets l l1 hh l2 l3 l4
  have h2 : l2.edges = (c.lane n).edges := by unfold l2; split <;> rfl
  have h3 : l3.edges = (c.lane n).edges := by unfold l3; split <;> exact h2
  have h4 : l4.edges = (c.lane n).edges := by unfold l4; split <;> exact h3
  exact .ite (h.setLane n l4 h4) (((h.setLane n l4 h4).journal _).evtMask _ _ _)

theorem RecordsStay.startWin (n : LaneIx) : RecordsStay a (c.startWin n) := h.updLane n _
theorem RecordsStay.startDq (n : LaneIx) : RecordsStay a (c.startDq n) := h.updLane n _
theorem RecordsStay.laneStat (n : LaneIx) (f : ℕ → KF) : RecordsStay a (c.laneStat n f) := h.evt _

theorem RecordsStay.stepConfirmed (n : LaneIx) (delta : Int) : RecordsStay a (c.stepConfirmed n delta) := by
  unfold Channel.stepConfirmed
  extract_lets add live c1
  have h1 : RecordsStay a c1 := (h.updLane n _).laneStat _ _
  exact .ite ((h1.laneTo _ _ _).startWin _) h1

theorem RecordsStay.judge (r : MeasRec) (dis : Bool) : RecordsStay a (c.judge r dis) := by
  unfold Channel.judge
  extract_lets n st ok good c1 c2 c3
  have h1 : RecordsStay a c1 := .ite h (h.laneStat _ _)
  have h2 : RecordsStay a c2 := h1.updLane n _
  have h3 : RecordsStay a c3 := (h2.updLane n _).laneStat _ _
  refine .ite (.ite (((h3.laneTo _ _ _).startDq _).updLane n _) h3) (.ite (((h2.laneStat _ _).laneTo _ _ _).startDq _) ?_)
  clear_value st
  split
  · exact .ite (h2.updLane n _) (h2.startWin _)
  · exact .ite h2 ((h2.laneTo _ _ _).startDq _)
  · exact .ite h2 ((h2.laneTo _ _ _).startDq _)
  · exact .ite h2 ((h2.laneTo _ _ _).startDq _)
  · exact h2

theorem RecordsStay.registerRec (sync : LaneIx → ℕ) (r : MeasRec) : RecordsStay a (c.registerRec sync r) := by
  unfold Channel.registerRec
  extract_lets n l used sd back r2 late c1 c2 ml on c3 c4 st' keep dd c5
  have h1 : RecordsStay a c1 := h.journalAt _ _ _ _
  have h2 : RecordsStay a c2 := .ite ((h1.bump _).evt _) h1
  have h3 : RecordsStay a c3 := h2.updLane n _
  have h4 : RecordsStay a c4 := by
    unfold c4
    split
    · exact h3
    · exact .ite (((h3.laneTo _ _ _).startWin _).judge _ _) h3
    · clear_value sd
      split
      · exact .ite (h3.stepConfirmed _ _) (h3.updLane n _)
      · exact h3.judge _ _
  have h5 : RecordsStay a c5 := .ite (h4.setDpll _) h4
  exact h5.trans ⟨rfl, fun _ => rfl, .refl c5⟩

theorem RecordsStay.register (sync : LaneIx → ℕ) (r : MeasRec) : RecordsStay a (c.register sync r) := h.registerRec sync _

/-! ### Servo applications and a step that is due (R127, R140) -/

theorem RecordsStay.applyA (r : MeasRec) : RecordsStay a (c.applyA r) :=
  h.only (on_applyA r rfl (Channel.onlyIn_refl [.dpll, .jour, .syn, .asks] c)) (by decide) (.applyA (.refl c) r)

theorem RecordsStay.applyB (r : MeasRec) : RecordsStay a (c.applyB r) :=
  h.only (on_applyB r rfl (Channel.onlyIn_refl [.dpll, .jour, .asks] c)) (by decide) (.applyB (.refl c) r)

theorem RecordsStay.doStep (delta : Gt) (org : Origin) : RecordsStay a (c.doStep delta org) :=
  h.only (on_doStep delta org rfl (Channel.onlyIn_refl [.dpll, .jour, .asks] c)) (by decide) (.doStep (.refl c) delta org)

theorem RecordsStay.applyNext (s : Servo) (n : ℕ) : RecordsStay a (Channel.applyNext s n c) := by
  induction n generalizing c with
  | zero => exact h
  | succ n ih =>
    unfold Channel.applyNext
    dsimp only
    split
    · exact h
    · next r _ =>
      cases s with
      | a =>
        dsimp only
        split
        · exact ih (h.setDpll _)
        · exact (h.setDpll _).applyA r
        · contradiction
        · exact (((h.setDpll _).setSel .a _).setDpll _).applyA r
        · contradiction
      | b =>
        dsimp only
        split
        · exact ih (h.setDpll _)
        · contradiction
        · exact (h.setDpll _).applyB r
        · contradiction
        · exact (((h.setDpll _).setSel .b _).setDpll _).applyB r

theorem RecordsStay.applyAll : RecordsStay a c.applyAll := by
  unfold Channel.applyAll
  exact .iter _ (fun y => .applyNext (.refl y) .b _) (.iter _ (fun y => .applyNext (.refl y) .a _) h)

theorem RecordsStay.stepDue : RecordsStay a c.stepDue := by
  unfold Channel.stepDue
  split
  · exact h
  · exact (h.applyAll.setDpll _).doStep _ _

end

/-! ### The records that are due -/

theorem Asks.hasRegistered {c d : Channel} (h : Asks c d) {r : MeasRec} (hr : c.hasRegistered r) : d.hasRegistered r := by
  obtain ⟨e, m, he, hm⟩ := hr
  exact ⟨e, m, h _ he, hm⟩

theorem register_hasRegistered (c : Channel) (sync : LaneIx → ℕ) (r : MeasRec) : (c.register sync r).hasRegistered r := by
  obtain ⟨_, _, e, m, he, hbody, hlane, _, hts, _, hfreq, hfb, _, hphase, hfo, _⟩ := register_facts c sync r
  exact ⟨e, m, he, hbody, hlane, hts, hfreq, hfb, hphase, hfo⟩

theorem foldl_register_hasRegistered (sync : LaneIx → ℕ) (rs : List MeasRec) (c : Channel) {r : MeasRec} (hr : r ∈ rs) :
    (rs.foldl (fun c r => c.register sync r) c).hasRegistered r := by
  induction rs generalizing c with
  | nil => contradiction
  | cons x xs ih =>
    rcases List.mem_cons.mp hr with rfl | hx
    · have hstay : RecordsStay (c.register sync r) (xs.foldl (fun c r => c.register sync r) (c.register sync r)) :=
        .fold xs (fun y z => .register (.refl y) sync z) (.refl _)
      exact hstay.asks.hasRegistered (register_hasRegistered c sync r)
    · exact ih _ hx

theorem mem_recIns {r x : MeasRec} {l : List MeasRec} : x ∈ Channel.recIns r l ↔ x = r ∨ x ∈ l := by
  induction l with
  | nil => simp [Channel.recIns]
  | cons y ys ih =>
    unfold Channel.recIns
    split
    · exact List.mem_cons
    · rw [List.mem_cons, ih, List.mem_cons]; tauto

theorem mem_foldl_recIns {x : MeasRec} (rs l : List MeasRec) : x ∈ rs.foldl (fun l r => Channel.recIns r l) l ↔ x ∈ rs ∨ x ∈ l := by
  induction rs generalizing l with
  | nil => simp
  | cons y ys ih => rw [List.foldl_cons, ih, mem_recIns, List.mem_cons]; tauto

/-- Step 1 of R81: what is due is registered and waits no more. -/
theorem registerDue_facts (c : Channel) (sync : LaneIx → ℕ) :
    (c.registerDue sync).ref.measured = c.ref.measured.filter (fun e => decide (c.jour.tick < e.1)) ∧
    (∀ n : LaneIx, ((c.registerDue sync).lane n).edges = (c.lane n).edges) ∧
    ∀ x ∈ c.ref.measured, x.1 ≤ c.jour.tick → (c.registerDue sync).hasRegistered x.2 := by
  unfold Channel.registerDue
  extract_lets due src c1
  have hstay : RecordsStay c1 ((due.foldl (fun l r => Channel.recIns r l) []).foldl (fun c r => c.register sync r) c1) :=
    .fold _ (fun y z => .register (.refl y) sync z) (.refl _)
  refine ⟨hstay.measured, hstay.edges, fun x hx ht => foldl_register_hasRegistered sync _ c1 ?_⟩
  rw [mem_foldl_recIns]
  exact .inl (List.mem_map.mpr ⟨x, List.mem_filter.mpr ⟨hx, decide_eq_true ht⟩, rfl⟩)

/-- The start of a tick: no record waits that is due. -/
theorem beginTick_facts (c : Channel) (sync : LaneIx → ℕ) :
    (∀ x ∈ (c.beginTick sync).ref.measured, c.jour.tick < x.1) ∧
    (∀ n : LaneIx, ((c.beginTick sync).lane n).edges = (c.lane n).edges) ∧
    ∀ x ∈ c.ref.measured, x.1 ≤ c.jour.tick → (c.beginTick sync).hasRegistered x.2 := by
  obtain ⟨hmeas, hedges, hreg⟩ := registerDue_facts c sync
  have hstay : RecordsStay (c.registerDue sync) (c.beginTick sync) := .stepDue (.refl _)
  refine ⟨fun x hx => ?_, fun n => (hstay.edges n).trans (hedges n), fun x hx ht => hstay.asks.hasRegistered (hreg x hx ht)⟩
  rw [hstay.measured, hmeas] at hx
  exact of_decide_eq_true (List.mem_filter.mp hx).2

end Sys2Proof
end

section
/-! Edges, sentences and frequency instants of the reference inputs, and the registration of their records (R67 to R75, R474). -/
namespace Sys2Proof.Machine

/-! ### What a measured record depends on, and what it changes -/

theorem fld_of_regs {c d : Channel} (h : d.regs = c.regs) (f : KF) : d.fld f = c.fld f := by
  simp [Channel.fld, Channel.useWord, Channel.word, Channel.rf, h]

theorem cur_of_regs {c d : Channel} (h : d.regs = c.regs) (f : KF) : d.cur f = c.cur f := by
  simp [Channel.cur, Channel.word, Channel.rf, h]

theorem refinTerms_of_regs {c d : Channel} (h : d.regs = c.regs) (n : LaneIx) (x : Iv) : d.refinTerms n x = c.refinTerms n x := by
  unfold Channel.refinTerms Channel.sfld
  rw [fld_of_regs h, fld_of_regs h]

/-- The channel with a record measured, whose registration comes `lat` ticks later. -/
def withMeasured (c : Channel) (lat : ℕ) (r : MeasRec) : Channel :=
  { c with ref := { c.ref with measured := c.ref.measured ++ [(c.jour.tick + lat, r)] } }

theorem measure_exist {c : Channel} {lat : ℕ} {r : MeasRec} (h : (c.lane r.lane).exist = true) : c.measure lat r = withMeasured c lat r := by
  unfold Channel.measure
  rw [h]
  rfl

theorem onlyIn_withMeasured {L : List ChPart} (c : Channel) (lat : ℕ) (r : MeasRec) (hL : L.contains .ref = true) :
    Channel.onlyIn L c (withMeasured c lat r) :=
  on_upd (Channel.onlyIn_refl _ c) rfl (.inl hL) (.inr rfl) (.inr rfl) (.inr rfl) (.inr rfl) (.inr rfl) (.inr rfl) (.inr rfl) (.inr rfl) (.inr rfl)
    (.inr rfl) (.inr rfl) (.inr rfl) (.inr rfl) (.inr rfl) (.inr rfl)

/-- Drawing the free FREQ and FB of a pulse record counts two draws. -/
theorem freePulse_snd (c : Channel) : c.freePulse.2 = { c with freeCtr := c.freeCtr + 1 + 1 } := rfl

/-! ### Edges (R67, R68, R71) -/

/-- The offset and TEB of an edge of lane `n` with stamp `t` that has no sentence: the negated stamp, with the terms of R68. -/
def edgeIv (c : Channel) (n : LaneIx) (t : Gt) : Iv :=
  c.refinTerms n ⟨-t, satAdd 110 (budTerm (c.fld (F.REF_LANE_SBUD_SBUD n.val)))⟩

/-- The record of an edge of lane `n` without a sentence: PHASE_ONLY (R67). -/
def EdgeRec (c : Channel) (n : LaneIx) (t : Gt) (r : MeasRec) : Prop :=
  r.lane = n ∧ r.refTs = t ∧ r.offset = (edgeIv c n t).t ∧ r.teb = (edgeIv c n t).h ∧ r.phaseOnly = true ∧ r.freqOnly = false

theorem EdgeRec.of_regs {c d : Channel} (h : d.regs = c.regs) {n : LaneIx} {t : Gt} {r : MeasRec} (hr : EdgeRec d n t r) : EdgeRec c n t r := by
  unfold EdgeRec edgeIv at hr ⊢
  rwa [fld_of_regs h, refinTerms_of_regs h] at hr

section
variable {c : Channel} {n : LaneIx}

theorem refinEdge_phase (ps : ℕ) (hn : n.val < 8) (he : (c.lane n).exist = true) (hk : c.kind n = 0) :
    ∃ r, EdgeRec c n (c.stampAt ps).1 r ∧ c.refinEdge n ps = withMeasured c.freePulse.2 800 r := by
  have hm : c.refinEdge n ps = c.freePulse.2.measure 800
      (rawRec n (c.stampAt ps).1 (c.stampAt ps).2 (edgeIv c n (c.stampAt ps).1) c.freePulse.1.1 c.freePulse.1.2 (tagLane n.val) true false none) := by
    unfold Channel.refinEdge
    rw [he, decide_eq_false (by omega), hk]
    rfl
  exact ⟨_, ⟨rfl, rfl, rfl, rfl, rfl, rfl⟩, hm.trans (measure_exist he)⟩

theorem refinEdge_tod (ps : ℕ) (hn : n.val < 8) (he : (c.lane n).exist = true) (hk : c.kind n = 1) :
    c.refinEdge n ps = c.updLane n fun l =>
      { l with edges := ⟨(c.stampAt ps).1, (c.stampAt ps).2, c.jour.tick, false⟩ :: l.edges.filter (fun e => !e.labelled) } := by
  unfold Channel.refinEdge
  rw [he, decide_eq_false (by omega)]
  dsimp only [Bool.not_true, Bool.or_false]
  rw [hk]
  rfl

theorem refinEdge_none (ps : ℕ) (h : 8 ≤ n.val ∨ (c.lane n).exist = false ∨ 2 ≤ c.kind n) : c.refinEdge n ps = c := by
  unfold Channel.refinEdge
  by_cases hno : 8 ≤ n.val ∨ (c.lane n).exist = false
  · exact if_pos (by simpa using hno)
  · have h2 : 2 ≤ c.kind n := by tauto
    obtain ⟨k, hk⟩ : ∃ k, c.kind n = k + 2 := ⟨c.kind n - 2, by omega⟩
    rw [if_neg (by simpa using hno), hk]
    rfl

end

/-! ### The end of a sentence's window (R71) -/

/-- An edge 990 ms old that no sentence has labelled. -/
def EdgeLate (c : Channel) (e : TodEdge) : Prop := e.labelled = false ∧ e.tick + 198000000 ≤ c.jour.tick

/-- From `c` to `d` more records may have been measured, with free values drawn for them. -/
structure MeasuresMore (c d : Channel) : Prop where
  lane : ∀ m : LaneIx, d.lane m = c.lane m
  regs : d.regs = c.regs
  jour : d.jour = c.jour
  measured : ∀ x ∈ c.ref.measured, x ∈ d.ref.measured

theorem MeasuresMore.refl (c : Channel) : MeasuresMore c c := ⟨fun _ => rfl, rfl, rfl, fun _ h => h⟩

theorem MeasuresMore.trans {a b c : Channel} (h : MeasuresMore a b) (g : MeasuresMore b c) : MeasuresMore a c :=
  ⟨fun m => (g.lane m).trans (h.lane m), g.regs.trans h.regs, g.jour.trans h.jour, fun x hx => g.measured x (h.measured x hx)⟩

theorem todUnlabelled_facts (n : LaneIx) (c : Channel) (e : TodEdge) : MeasuresMore c (Channel.todUnlabelled n c e) ∧
    ((c.lane n).exist = true → ∃ r, EdgeRec c n e.t r ∧ (c.jour.tick, r) ∈ (Channel.todUnlabelled n c e).ref.measured) := by
  obtain ⟨r, hr, he⟩ : ∃ r, EdgeRec c n e.t r ∧ Channel.todUnlabelled n c e = c.freePulse.2.measure 0 r :=
    ⟨_, ⟨rfl, rfl, rfl, rfl, rfl, rfl⟩, rfl⟩
  have hlane : r.lane = n := hr.1
  rw [he]
  cases hx : (c.lane n).exist with
  | true =>
    rw [measure_exist (c := c.freePulse.2) (by rw [hlane]; exact hx)]
    exact ⟨⟨fun _ => rfl, rfl, rfl, fun _ hm => List.mem_append_left _ hm⟩, fun _ => ⟨r, hr, List.mem_append_right _ (List.mem_singleton.mpr rfl)⟩⟩
  | false =>
    have hm : c.freePulse.2.measure 0 r = c.freePulse.2 := by
      unfold Channel.measure
      exact if_pos (by rw [hlane]; exact congrArg Bool.not hx)
    rw [hm]
    exact ⟨⟨fun _ => rfl, rfl, rfl, fun _ hm => hm⟩, fun h => absurd h (by decide)⟩

theorem foldl_todUnlabelled (n : LaneIx) (es : List TodEdge) (c : Channel) : MeasuresMore c (es.foldl (Channel.todUnlabelled n) c) ∧
    ((c.lane n).exist = true → ∀ e ∈ es, ∃ r, EdgeRec c n e.t r ∧ (c.jour.tick, r) ∈ (es.foldl (Channel.todUnlabelled n) c).ref.measured) := by
  induction es generalizing c with
  | nil => exact ⟨.refl c, fun _ e he => absurd he List.not_mem_nil⟩
  | cons x xs ih =>
    obtain ⟨hx, hrec⟩ := todUnlabelled_facts n c x
    obtain ⟨hxs, hrecs⟩ := ih (Channel.todUnlabelled n c x)
    refine ⟨hx.trans hxs, fun hex e he => ?_⟩
    rcases List.mem_cons.mp he with rfl | hmem
    · obtain ⟨r, hr, hm⟩ := hrec hex
      exact ⟨r, hr, hxs.measured _ hm⟩
    · obtain ⟨r, hr, hm⟩ := hrecs (by rw [hx.lane]; exact hex) e hmem
      rw [hx.jour] at hm
      exact ⟨r, hr.of_regs hx.regs, hm⟩

/-- What the end of the window leaves: the edges that are not late, and a record for this tick of each that is. -/
theorem todWindowEnd_facts (c : Channel) (n : LaneIx) :
    (c.todWindowEnd n).jour = c.jour ∧
    (∀ e, e ∈ ((c.todWindowEnd n).lane n).edges ↔ e ∈ (c.lane n).edges ∧ ¬ EdgeLate c e) ∧
    ((c.lane n).exist = true → ∀ e ∈ (c.lane n).edges, EdgeLate c e →
      ∃ r, EdgeRec c n e.t r ∧ (c.jour.tick, r) ∈ (c.todWindowEnd n).ref.measured) := by
  unfold Channel.todWindowEnd
  extract_lets due es
  have hdue : ∀ e, due e = true ↔ EdgeLate c e := fun e => by simp [due, EdgeLate]
  obtain ⟨hmore, hrec⟩ := foldl_todUnlabelled n (es.reverse.filter due) (c.updLane n fun l => { l with edges := es.filter (fun e => !due e) })
  refine ⟨hmore.jour, fun e => ?_, fun hex e he hl => hrec ?_ e ?_⟩
  · rw [hmore.lane, lane_updLane_self, List.mem_filter, ← hdue e, Bool.not_eq_true, Bool.not_eq_true']
  · rw [lane_updLane_self]
    exact hex
  · exact List.mem_filter.mpr ⟨List.mem_reverse.mpr he, (hdue e).mpr hl⟩

/-! ### Sentences (R69 to R72) -/

/-- Whether a sentence whose first start bit came `ago` ticks before falls into the window of an edge that waits for it (R71). -/
def EdgeFits (c : Channel) (ago : ℕ) (e : TodEdge) : Prop :=
  e.labelled = false ∧ e.tick + 180000 ≤ c.jour.tick - ago ∧ c.jour.tick - ago ≤ e.tick + 100020000 ∧ c.jour.tick ≤ e.tick + 198000000

/-- The offset and TEB that a sentence gives an edge of lane `n` with stamp `t` (R70, R71): from the sentence's time to the stamp. -/
def sentenceIv (c : Channel) (n : LaneIx) (bs : Bytes) (t : Gt) : Iv :=
  let flags : Word := BitVec.ofNat 32 (fromBe (slice bs 12 1))
  let utc : Int := if bit flags 7 = true then signed 16 (fromBe (slice bs 10 2)) else 0
  let at' : Gt := ((fromBe (slice bs 4 6) : Int) + utc) * 2 ^ 64 + pointOfPs (signed 32 (fromBe (slice bs 18 4)))
  let src := if bit flags 5 = true then fromBe (slice bs 14 4) else budTerm (c.fld (F.REF_LANE_SBUD_SBUD n.val))
  c.refinTerms n ⟨at' - t, satAdd 110 src⟩

/-- The record that a valid sentence makes of an edge of lane `n` (R71). -/
def SentenceRec (c : Channel) (n : LaneIx) (bs : Bytes) (e : TodEdge) (r : MeasRec) : Prop :=
  r.lane = n ∧ r.refTs = e.t ∧ r.offset = (sentenceIv c n bs e.t).t ∧ r.teb = (sentenceIv c n bs e.t).h ∧ r.phaseOnly = false ∧ r.freqOnly = false

theorem todLane_exist {c : Channel} {k : ℕ} {n : LaneIx} (h : c.todLane k = some n) : (c.lane n).exist = true := by
  have hn := List.find?_some h
  simp only [Bool.and_eq_true] at hn
  exact hn.1.1.2

section
variable {c : Channel} {k : ℕ} {bs : Bytes} {ago : ℕ}

theorem todSentence_off (h : c.flag (F.REF_TODI_CFG_EN k) = false) : c.todSentence k bs ago = c := by
  unfold Channel.todSentence
  rw [h]
  rfl

theorem todSentence_noLane (h : c.flag (F.REF_TODI_CFG_EN k) = true) (hl : c.todLane k = none) :
    c.todSentence k bs ago = c.bump (F.REF_TODI_STAT_BAD k) := by
  unfold Channel.todSentence
  rw [h, hl]
  rfl

theorem todSentence_bad {n : LaneIx} (h : c.flag (F.REF_TODI_CFG_EN k) = true) (hl : c.todLane k = some n)
    (hbad : (c.lane n).edges = [] ∨ Channel.todValid bs = false ∨ ∃ e older, (c.lane n).edges = e :: older ∧ ¬ EdgeFits c ago e) :
    c.todSentence k bs ago = (c.bump (F.REF_TODI_STAT_BAD k)).evt (F.REF_LANE_STAT_SENT_ERR n.val) := by
  unfold Channel.todSentence
  rw [h, hl]
  rw [if_neg (show ¬ (!true) = true by decide)]
  dsimp only
  split
  · next e older he =>
    refine if_neg fun hfit => ?_
    simp only [Bool.and_eq_true, Bool.not_eq_true', decide_eq_true_eq] at hfit
    obtain ⟨⟨⟨⟨hv, hlab⟩, hlo⟩, hhi⟩, hend⟩ := hfit
    rcases hbad with hnil | hv' | ⟨e', older', he', hno⟩
    · rw [he] at hnil
      exact absurd hnil (List.cons_ne_nil _ _)
    · rw [hv] at hv'
      exact absurd hv' (by decide)
    · rw [he] at he'
      obtain ⟨rfl, rfl⟩ := List.cons.inj he'
      exact hno ⟨hlab, hlo, hhi, hend⟩
  · rfl

/-- The channel with an edge labelled by a sentence that counts as GOOD. -/
def labelled (c : Channel) (k : ℕ) (n : LaneIx) (e : TodEdge) (older : List TodEdge) : Channel :=
  (c.bump (F.REF_TODI_STAT_GOOD k)).updLane n fun l => { l with edges := { e with labelled := true } :: older }

theorem lane_labelled_self (c : Channel) (k : ℕ) (n : LaneIx) (e : TodEdge) (older : List TodEdge) :
    (labelled c k n e older).lane n = { c.lane n with edges := { e with labelled := true } :: older } := by
  unfold labelled
  rw [lane_updLane_self, lane_bump]

theorem lane_labelled_ne (c : Channel) (k : ℕ) {n m : LaneIx} (e : TodEdge) (older : List TodEdge) (h : n ≠ m) :
    (labelled c k n e older).lane m = c.lane m := by
  unfold labelled
  rw [lane_updLane_ne _ _ h, lane_bump]

theorem regs_labelled (c : Channel) (k : ℕ) (n : LaneIx) (e : TodEdge) (older : List TodEdge) :
    (labelled c k n e older).regs = (c.bump (F.REF_TODI_STAT_GOOD k)).regs := by
  unfold labelled
  generalize c.bump (F.REF_TODI_STAT_GOOD k) = b
  rfl

theorem regs_measured_freePulse (c : Channel) (r : MeasRec) : (withMeasured c.freePulse.2 800 r).regs = c.regs := rfl

theorem measured_freePulse (c : Channel) (r : MeasRec) :
    (withMeasured c.freePulse.2 800 r).ref.measured = c.ref.measured ++ [(c.jour.tick + 800, r)] := rfl

theorem measured_labelled (c : Channel) (k : ℕ) (n : LaneIx) (e : TodEdge) (older : List TodEdge) :
    (labelled c k n e older).ref.measured = c.ref.measured ∧ (labelled c k n e older).jour = c.jour := by
  rw [← Channel.bump_ref c (F.REF_TODI_STAT_GOOD k), ← Channel.bump_jour c (F.REF_TODI_STAT_GOOD k)]
  unfold labelled
  generalize c.bump (F.REF_TODI_STAT_GOOD k) = b
  exact ⟨rfl, rfl⟩

theorem lane_measured_freePulse (c : Channel) (r : MeasRec) (n : LaneIx) : (withMeasured c.freePulse.2 800 r).lane n = c.lane n := rfl

theorem todSentence_good {n : LaneIx} {e : TodEdge} {older : List TodEdge} (h : c.flag (F.REF_TODI_CFG_EN k) = true) (hl : c.todLane k = some n)
    (he : (c.lane n).edges = e :: older) (hv : Channel.todValid bs = true) (hfit : EdgeFits c ago e) :
    ∃ r, SentenceRec c n bs e r ∧ c.todSentence k bs ago = withMeasured (labelled c k n e older).freePulse.2 800 r := by
  obtain ⟨hlab, hlo, hhi, hend⟩ := hfit
  have hm : c.todSentence k bs ago = (labelled c k n e older).freePulse.2.measure 800
      (rawRec n e.t e.k (sentenceIv c n bs e.t) (labelled c k n e older).freePulse.1.1 (labelled c k n e older).freePulse.1.2
        (tagSet (tagLane n.val) 7 (bit (BitVec.ofNat 32 (fromBe (slice bs 12 1))) 6)) false false none) := by
    unfold Channel.todSentence
    rw [h, hl, if_neg (show ¬ (!true) = true by decide)]
    dsimp only
    rw [he]
    dsimp only
    rw [if_pos (by simp only [hv, hlab, hlo, hhi, hend, decide_true, Bool.not_false, Bool.and_true])]
    rfl
  have hlane : ((labelled c k n e older).lane n).exist = true := by
    rw [lane_labelled_self]
    exact todLane_exist hl
  exact ⟨_, ⟨rfl, rfl, rfl, rfl, rfl, rfl⟩, hm.trans (measure_exist hlane)⟩

end

/-! ### Frequency instants (R67, R68) -/

theorem freqBoundary_at {c : Channel} {n : LaneIx} {t : Gt} (freq off : Int) (hn : n.val < 8) (he : (c.lane n).exist = true) (hk : c.kind n = 2)
    (ht : c.multipleHere 10 = some t) : c.freqBoundary n freq off =
      withMeasured c 200000 (rawRec n t (c.kAt t) ⟨(c.refinTerms n ⟨off, SAT⟩).t, SAT⟩ freq 563200 (tagLane n.val) false true none) := by
  unfold Channel.freqBoundary
  rw [if_neg (by simp [hk, he]; omega), ht]
  exact measure_exist he

theorem freqBoundary_none {c : Channel} {n : LaneIx} (freq off : Int)
    (h : 8 ≤ n.val ∨ (c.lane n).exist = false ∨ c.kind n ≠ 2 ∨ c.multipleHere 10 = none) : c.freqBoundary n freq off = c := by
  unfold Channel.freqBoundary
  split
  · rfl
  · next hg =>
    simp only [Bool.or_eq_true, decide_eq_true_eq, Bool.not_eq_true', bne_iff_ne, not_or] at hg
    obtain ⟨⟨hn, he⟩, hk⟩ := hg
    rcases h with h | h | h | h
    · exact absurd h hn
    · exact absurd h he
    · exact absurd h hk
    · rw [h]

/-! ### Registration (R74, R474) -/

/-- A record with the calibration entries of its lane (R474), before R74 reduces it: L9 to L12 and a saturated record of L8 take none. -/
def calibrated (c : Channel) (r : MeasRec) : Iv :=
  if 9 ≤ r.lane.val ∧ r.lane.val ≤ 12 ∨ r.lane.val = 8 ∧ SAT ≤ r.teb then ⟨r.offset, r.teb⟩ else c.termCal r.lane ⟨r.offset, r.teb⟩

theorem calTerms_high {c : Channel} {r : MeasRec} (h : 8 ≤ r.lane.val) : c.calTerms r = calibrated c r := by
  unfold Channel.calTerms calibrated
  by_cases h8 : r.lane.val = 8 ∧ SAT ≤ r.teb
  · dsimp only
    rw [if_pos h8, if_pos (.inr h8)]
  · dsimp only
    rw [if_neg h8, if_pos (decide_eq_true h)]
    simp only [h8, or_false, Bool.and_eq_true, decide_eq_true_eq]

theorem calTerms_low {c : Channel} {r : MeasRec} (h : r.lane.val < 8) : c.calTerms r =
    if r.phaseOnly = true then ⟨Channel.reduceSec (calibrated c r).t, (calibrated c r).h⟩
    else if r.freqOnly = true then ⟨Channel.reducePeriod (calibrated c r).t (c.fld (F.REF_LANE_NOM_NOM_HZ r.lane.val)) 1, (calibrated c r).h⟩
    else calibrated c r := by
  have hcal : calibrated c r = c.termCal r.lane ⟨r.offset, r.teb⟩ := if_neg (by omega)
  have h9 : (decide (9 ≤ r.lane.val) && decide (r.lane.val ≤ 12)) = false := by simp; omega
  rw [hcal]
  unfold Channel.calTerms
  dsimp only
  rw [h9, if_neg (by omega : ¬ (r.lane.val = 8 ∧ r.teb ≥ SAT)), decide_eq_false (by omega)]
  rfl

theorem calTerms_h (c : Channel) (r : MeasRec) : (c.calTerms r).h = (calibrated c r).h := by
  by_cases h : r.lane.val < 8
  · rw [calTerms_low h]
    split
    · rfl
    · split <;> rfl
  · rw [calTerms_high (by omega)]

/-- An offset reduced by whole seconds lies within half a second (R74). -/
theorem reduceSec_bounds (o : Gt) : -2 ^ 63 ≤ Channel.reduceSec o ∧ Channel.reduceSec o < 2 ^ 63 := by
  have hred : Channel.reduceSec o = (o + 2 ^ 63 : ℤ) % 2 ^ 64 - 2 ^ 63 := by
    unfold Channel.reduceSec sar
    rw [Int.fdiv_eq_ediv_of_nonneg _ (by norm_num), Int.emod_def]
    ring
  have hlo := Int.emod_nonneg (o + 2 ^ 63 : ℤ) (show (2 ^ 64 : ℤ) ≠ 0 by norm_num)
  have hhi := Int.emod_lt_of_pos (o + 2 ^ 63 : ℤ) (show (0 : ℤ) < 2 ^ 64 by norm_num)
  rw [hred]
  exact ⟨by linarith, by linarith⟩

theorem register_registers (c : Channel) (sync : LaneIx → ℕ) (r : MeasRec) :
    c.registers (c.register sync r) r.lane (fun m => m.refTs = r.refTs ∧ m.freq = r.freq ∧ m.fb = r.fb ∧ m.phaseOnly = r.phaseOnly ∧
      m.freqOnly = r.freqOnly ∧ m.teb = satAdd (calibrated c r).h (c.lane r.lane).stepW ∧
      (8 ≤ r.lane.val ∨ (r.phaseOnly = false ∧ r.freqOnly = false) → m.offset = (calibrated c r).t) ∧
      (r.lane.val < 8 → r.phaseOnly = true → m.offset = Channel.reduceSec (calibrated c r).t ∧ -2 ^ 63 ≤ m.offset ∧ m.offset < 2 ^ 63) ∧
      (r.lane.val < 8 → r.phaseOnly = false → r.freqOnly = true →
        m.offset = Channel.reducePeriod (calibrated c r).t (c.fld (F.REF_LANE_NOM_NOM_HZ r.lane.val)) 1)) := by
  obtain ⟨hseq, hothers, e, m, he, hbody, hlane, hnum, hts, hoff, hfreq, hfb, hteb, hphase, hfo, _⟩ := register_facts c sync r
  refine ⟨hseq, hothers, e, m, he, hbody, hlane, hnum, hts, hfreq, hfb, hphase, hfo, hteb.trans (by rw [calTerms_h]), fun h => ?_, fun hn hp => ?_,
    fun hn hp hf => ?_⟩
  · rw [hoff]
    by_cases hn : r.lane.val < 8
    · obtain ⟨hp, hf⟩ := h.resolve_left (by omega)
      rw [calTerms_low hn, hp, hf]
      rfl
    · rw [calTerms_high (by omega)]
  · have ho : m.offset = Channel.reduceSec (calibrated c r).t := by rw [hoff, calTerms_low hn, if_pos hp]
    rw [ho]
    exact ⟨rfl, reduceSec_bounds _⟩
  · rw [hoff, calTerms_low hn, if_neg (by simp [hp]), if_pos hf]

end Sys2Proof.Machine
end

section
/-! Lane events become records (R67 to R75, R81, R474): the ticks of edges, sentences, windows and frequency instants. -/
namespace Sys2Proof
open Sys2Proof.Machine

/-! ### The end of a sentence's window, and the start of its tick (R71, R81) -/

/-- The channel that the end of a sentence's window leaves, settled. -/
def windowEnded (c : Channel) (n : LaneIx) : Channel := Channel.settle c (c.todWindowEnd n)

/-- Where no record row of the tick is still to come, the tick begins, and its records are registered. -/
def windowClosed (c : Channel) (n : LaneIx) : Channel :=
  Channel.settle (windowEnded c n) ((windowEnded c n).beginTick (windowEnded c n).syncIv)

theorem windowEnded_facts (c : Channel) (n : LaneIx) :
    (windowEnded c n).jour = c.jour ∧
    (∀ e, e ∈ ((windowEnded c n).lane n).edges ↔ e ∈ (c.lane n).edges ∧ ¬ EdgeLate c e) ∧
    ((c.lane n).exist = true → ∀ e ∈ (c.lane n).edges, EdgeLate c e → ∃ r, EdgeRec c n e.t r ∧ (c.jour.tick, r) ∈ (windowEnded c n).ref.measured) := by
  obtain ⟨hjour, hedges, hrec⟩ := todWindowEnd_facts c n
  have hstay : RecordsStay (c.todWindowEnd n) (windowEnded c n) := .settle (.refl _) c
  have hset : (windowEnded c n).jour = (c.todWindowEnd n).jour :=
    (on_settle c rfl (Channel.onlyIn_refl [.syn, .sched, .port, .sealb, .pmu, .epi, .free, .asks] (c.todWindowEnd n))).2.2.2.2 .jour (by decide)
  refine ⟨hset.trans hjour, fun e => ?_, fun hex e he hl => ?_⟩
  · rw [hstay.edges]
    exact hedges e
  · rw [hstay.measured]
    exact hrec hex e he hl

theorem windowClosed_facts (c : Channel) (n : LaneIx) :
    (∀ e, e ∈ ((windowClosed c n).lane n).edges ↔ e ∈ (c.lane n).edges ∧ ¬ EdgeLate c e) ∧
    ((c.lane n).exist = true → ∀ e ∈ (c.lane n).edges, EdgeLate c e → ∃ r, EdgeRec c n e.t r ∧ (windowClosed c n).hasRegistered r) ∧
    ∀ x ∈ (windowClosed c n).ref.measured, c.jour.tick < x.1 := by
  obtain ⟨hjour, hedges, hrec⟩ := windowEnded_facts c n
  obtain ⟨hlater, hkept, hreg⟩ := beginTick_facts (windowEnded c n) (windowEnded c n).syncIv
  have hstay : RecordsStay ((windowEnded c n).beginTick (windowEnded c n).syncIv) (windowClosed c n) := .settle (.refl _) _
  rw [hjour] at hlater hreg
  refine ⟨fun e => ?_, fun hex e he hl => ?_, fun x hx => hlater x ?_⟩
  · rw [hstay.edges, hkept]
    exact hedges e
  · obtain ⟨r, hr, hm⟩ := hrec hex e he hl
    exact ⟨r, hr, hstay.asks.hasRegistered (hreg _ hm le_rfl)⟩
  · rwa [hstay.measured] at hx

theorem windowEnd_waits {s : State} {c : ChanIx} (n : LaneIx) (hr : s.running c = true) (hw : s.recordWaits c = true) :
    effTodSentenceWindowEnd c n s = s.setCh c (windowEnded s.ch[c] n) := by
  unfold effTodSentenceWindowEnd
  rw [onCh_running hr]
  exact if_pos hw

theorem windowEnd_begins {s : State} {c : ChanIx} (n : LaneIx) (hr : s.running c = true) (hw : s.recordWaits c = false) :
    effTodSentenceWindowEnd c n s = (s.setCh c (windowEnded s.ch[c] n)).setCh c (windowClosed s.ch[c] n) := by
  have hno : ¬ (s.setCh c (windowEnded s.ch[c] n)).recordWaits c = true := by
    rw [show (s.setCh c (windowEnded s.ch[c] n)).recordWaits c = s.recordWaits c from rfl, hw]
    decide
  have hrun : (s.setCh c (windowEnded s.ch[c] n)).running c = true := hr
  unfold effTodSentenceWindowEnd
  rw [onCh_running hr]
  refine (if_neg hno).trans ((onCh_running hrun _).trans ?_)
  rw [setCh_ch_self]
  rfl

theorem onlyIn_windowEnd (s : State) (c : ChanIx) (n : LaneIx) : State.onlyIn [.ch, .out] s (effTodSentenceWindowEnd c n s.clear) :=
  in_beginTick c rfl (in_onCh c _ rfl (in_clear rfl (State.onlyIn_refl _ s)))

/-! ### The four clauses -/

theorem refinEdge_records (s : State) (c : ChanIx) (n : LaneIx) (ps : ℕ) (hl : s.live c) :
    (n.val < 8 → (s.ch[c].lane n).exist = true → s.ch[c].kind n = 0 →
      ActsOn (.refinEdge c n ps) s c (fun d => Channel.onlyIn [.ref, .free] s.ch[c] d ∧ d.regs = s.ch[c].regs ∧
        d.ref = { s.ch[c].ref with measured := d.ref.measured } ∧ s.ch[c].measures d 800 (EdgeRec s.ch[c] n (s.ch[c].stampAt ps).1))) ∧
    (n.val < 8 → (s.ch[c].lane n).exist = true → s.ch[c].kind n = 1 →
      ActsOn (.refinEdge c n ps) s c (fun d => Channel.onlyIn [.ref] s.ch[c] d ∧ d.regs = s.ch[c].regs ∧
        d.lane n = { s.ch[c].lane n with
          edges := ⟨(s.ch[c].stampAt ps).1, (s.ch[c].stampAt ps).2, s.ch[c].jour.tick, false⟩ ::
            (s.ch[c].lane n).edges.filter (fun e => !e.labelled) } ∧
        ∀ m : LaneIx, m ≠ n → d.lane m = s.ch[c].lane m)) ∧
    (8 ≤ n.val ∨ (s.ch[c].lane n).exist = false ∨ 2 ≤ s.ch[c].kind n → ActsOn (.refinEdge c n ps) s c (fun d => d = s.ch[c])) := by
  have act : ∀ {q : Channel → Prop}, q (s.ch[c].refinEdge n ps) → ActsOn (.refinEdge c n ps) s c q :=
    actsOn_intro (fun ch => ch.refinEdge n ps) hl rfl rfl
  refine ⟨fun hn he hk => act ?_, fun hn he hk => act ?_, fun hno => act (refinEdge_none ps hno)⟩
  · have hon := on_refinEdge n ps rfl (Channel.onlyIn_refl [.ref, .free] s.ch[c])
    obtain ⟨r, hr, hd⟩ := refinEdge_phase ps hn he hk
    rw [hd] at hon ⊢
    exact ⟨hon, rfl, rfl, r, rfl, hr⟩
  · rw [refinEdge_tod ps hn he hk]
    exact ⟨on_updLane n _ rfl (Channel.onlyIn_refl _ _), rfl, lane_updLane_self _ _ _, fun m hm => lane_updLane_ne _ _ (Ne.symm hm)⟩

theorem windowEnd_records (s : State) (c : ChanIx) (n : LaneIx) (hl : s.live c) :
    Acts (.todSentenceWindowEnd c n) s (fun u => State.onlyIn [.ch, .out] s u ∧ (∀ m : ChanIx, m ≠ c → u.ch[m] = s.ch[m]) ∧
      (∀ e ∈ (u.ch[c].lane n).edges, e ∈ (s.ch[c].lane n).edges ∧ ¬ EdgeLate s.ch[c] e) ∧
      (∀ e ∈ (s.ch[c].lane n).edges, ¬ EdgeLate s.ch[c] e → e ∈ (u.ch[c].lane n).edges) ∧
      (∀ e ∈ (s.ch[c].lane n).edges, EdgeLate s.ch[c] e → (s.ch[c].lane n).exist = true → ∃ r, EdgeRec s.ch[c] n e.t r ∧
        (s.recordWaits c = true → (s.ch[c].jour.tick, r) ∈ u.ch[c].ref.measured) ∧ (s.recordWaits c = false → u.ch[c].hasRegistered r)) ∧
      (s.recordWaits c = false → ∀ x ∈ u.ch[c].ref.measured, s.ch[c].jour.tick < x.1)) := by
  have hrun : s.clear.running c = true := hl.2
  refine acts_intro hl.1 rfl ⟨onlyIn_windowEnd s c n, ?_⟩
  rw [show s.clear.effect (.todSentenceWindowEnd c n) = effTodSentenceWindowEnd c n s.clear from rfl]
  cases hw : s.recordWaits c with
  | true =>
    obtain ⟨_, hedges, hrec⟩ := windowEnded_facts s.ch[c] n
    rw [windowEnd_waits n hrun hw, setCh_ch_self]
    refine ⟨fun m hm => setCh_ch_ne _ _ (Ne.symm hm), fun e he => (hedges e).mp he, fun e he hno => (hedges e).mpr ⟨he, hno⟩, fun e he hlate hex => ?_,
      fun h => absurd h (by decide)⟩
    obtain ⟨r, hr, hm⟩ := hrec hex e he hlate
    exact ⟨r, hr, fun _ => hm, fun h => absurd h (by decide)⟩
  | false =>
    obtain ⟨hedges, hrec, hlater⟩ := windowClosed_facts s.ch[c] n
    rw [windowEnd_begins n hrun hw, setCh_ch_self]
    refine ⟨fun m hm => (setCh_ch_ne _ _ (Ne.symm hm)).trans (setCh_ch_ne _ _ (Ne.symm hm)), fun e he => (hedges e).mp he,
      fun e he hno => (hedges e).mpr ⟨he, hno⟩, fun e he hlate hex => ?_, fun _ => hlater⟩
    obtain ⟨r, hr, hreg⟩ := hrec hex e he hlate
    exact ⟨r, hr, fun h => absurd h (by decide), fun _ => hreg⟩

section
variable (c : Channel) (k : Fin 2)

/-- BAD counts a sentence that no lane can use. -/
theorem cur_bump_bad : (c.bump (F.REF_TODI_STAT_BAD k.val)).cur (F.REF_TODI_STAT_BAD k.val) = (c.cur (F.REF_TODI_STAT_BAD k.val) + 1) % 2 ^ 16 :=
  cur_put_self _ _ _ (show 0 + 16 ≤ 32 by norm_num)

theorem cur_bump_good : (c.bump (F.REF_TODI_STAT_GOOD k.val)).cur (F.REF_TODI_STAT_GOOD k.val) = (c.cur (F.REF_TODI_STAT_GOOD k.val) + 1) % 2 ^ 16 :=
  cur_put_self _ _ _ (show 16 + 16 ≤ 32 by norm_num)

/-- The note of a sentence error in the lane's STAT leaves the receiver's counters. -/
theorem cur_todiBad_sentErr (n : LaneIx) : (c.evt (F.REF_LANE_STAT_SENT_ERR n.val)).cur (F.REF_TODI_STAT_BAD k.val) = c.cur (F.REF_TODI_STAT_BAD k.val) :=
  Channel.cur_evt_ne _ _ _ (.inr (show 0x1028 + 0x40 * n.val ≠ 0x104 + 0x10 * k.val by omega))

end

theorem todSentence_records (s : State) (c : ChanIx) (k : Fin 2) (bs : Bytes) (ago : ℕ) (hl : s.live c) :
    (s.ch[c].flag (F.REF_TODI_CFG_EN k.val) = false → ActsOn (.todSentenceRx c k bs ago) s c (fun d => d = s.ch[c])) ∧
    (s.ch[c].flag (F.REF_TODI_CFG_EN k.val) = true →
      (s.ch[c].todLane k.val = none → ActsOn (.todSentenceRx c k bs ago) s c (fun d => Channel.onlyIn [.ref] s.ch[c] d ∧ d.ref = s.ch[c].ref ∧
        d.cur (F.REF_TODI_STAT_BAD k.val) = (s.ch[c].cur (F.REF_TODI_STAT_BAD k.val) + 1) % 2 ^ 16)) ∧
      (∀ n : LaneIx, s.ch[c].todLane k.val = some n →
        (∀ (e : TodEdge) (older : List TodEdge), (s.ch[c].lane n).edges = e :: older → Channel.todValid bs = true → EdgeFits s.ch[c] ago e →
          ActsOn (.todSentenceRx c k bs ago) s c (fun d => Channel.onlyIn [.ref, .free] s.ch[c] d ∧
            d.cur (F.REF_TODI_STAT_GOOD k.val) = (s.ch[c].cur (F.REF_TODI_STAT_GOOD k.val) + 1) % 2 ^ 16 ∧
            d.lane n = { s.ch[c].lane n with edges := { e with labelled := true } :: older } ∧ (∀ m : LaneIx, m ≠ n → d.lane m = s.ch[c].lane m) ∧
            s.ch[c].measures d 800 (SentenceRec s.ch[c] n bs e))) ∧
        (((s.ch[c].lane n).edges = [] ∨ Channel.todValid bs = false ∨ ∃ e older, (s.ch[c].lane n).edges = e :: older ∧ ¬ EdgeFits s.ch[c] ago e) →
          ActsOn (.todSentenceRx c k bs ago) s c (fun d => Channel.onlyIn [.ref, .asks] s.ch[c] d ∧ d.ref = s.ch[c].ref ∧
            d.cur (F.REF_TODI_STAT_BAD k.val) = (s.ch[c].cur (F.REF_TODI_STAT_BAD k.val) + 1) % 2 ^ 16 ∧
            d.cur (F.REF_LANE_STAT_SENT_ERR n.val) = 1)))) := by
  have act : ∀ {q : Channel → Prop}, q (s.ch[c].todSentence k.val bs ago) → ActsOn (.todSentenceRx c k bs ago) s c q :=
    actsOn_intro (fun ch => ch.todSentence k.val bs ago) hl rfl rfl
  refine ⟨fun hen => act (todSentence_off hen), fun hen => ⟨fun hno => act ?_, fun n hn => ⟨fun e older he hv hfit => act ?_, fun hbad => act ?_⟩⟩⟩
  · rw [todSentence_noLane hen hno]
    exact ⟨on_bump _ rfl (Channel.onlyIn_refl _ _), rfl, cur_bump_bad _ _⟩
  · obtain ⟨r, hr, hd⟩ := todSentence_good hen hn he hv hfit
    rw [hd]
    obtain ⟨hold, htick⟩ := measured_labelled s.ch[c] k.val n e older
    have hm := measured_freePulse (labelled s.ch[c] k.val n e older) r
    rw [hold, htick] at hm
    have hon : Channel.onlyIn [.ref, .free] s.ch[c] (labelled s.ch[c] k.val n e older).freePulse.2 :=
      on_freePulse rfl (on_updLane n _ rfl (on_bump _ rfl (Channel.onlyIn_refl _ _)))
    exact ⟨Channel.onlyIn_trans hon (onlyIn_withMeasured _ _ _ rfl),
      (cur_of_regs ((regs_measured_freePulse _ _).trans (regs_labelled _ _ _ _ _)) _).trans (cur_bump_good _ _),
      (lane_measured_freePulse _ _ _).trans (lane_labelled_self _ _ _ _ _),
      fun m hm => (lane_measured_freePulse _ _ _).trans (lane_labelled_ne _ _ _ _ (Ne.symm hm)), r, hm, hr⟩
  · rw [todSentence_bad hen hn hbad]
    exact ⟨on_evt _ rfl rfl (on_bump _ rfl (Channel.onlyIn_refl _ _)), rfl, (cur_todiBad_sentErr _ _ _).trans (cur_bump_bad _ _),
      cur_evt _ _ rfl (show 18 < 32 by norm_num)⟩

theorem freqBoundary_records (s : State) (c : ChanIx) (n : LaneIx) (freq off : Int) (hl : s.live c) :
    (∀ t : Gt, n.val < 8 → (s.ch[c].lane n).exist = true → s.ch[c].kind n = 2 → s.ch[c].multipleHere 10 = some t →
      ActsOn (.freqRecordBoundary c n freq off) s c (fun d => Channel.onlyIn [.ref] s.ch[c] d ∧ d.regs = s.ch[c].regs ∧
        d.ref = { s.ch[c].ref with measured := d.ref.measured } ∧
        s.ch[c].measures d 200000 (fun r => r.lane = n ∧ r.refTs = t ∧ r.offset = (s.ch[c].refinTerms n ⟨off, SAT⟩).t ∧ r.freq = freq ∧ r.fb = 563200 ∧
          r.teb = SAT ∧ r.phaseOnly = false ∧ r.freqOnly = true))) ∧
    (8 ≤ n.val ∨ (s.ch[c].lane n).exist = false ∨ s.ch[c].kind n ≠ 2 ∨ s.ch[c].multipleHere 10 = none →
      ActsOn (.freqRecordBoundary c n freq off) s c (fun d => d = s.ch[c])) := by
  have act : ∀ {q : Channel → Prop}, q (s.ch[c].freqBoundary n freq off) → ActsOn (.freqRecordBoundary c n freq off) s c q :=
    actsOn_intro (fun ch => ch.freqBoundary n freq off) hl rfl rfl
  refine ⟨fun t hn he hk ht => act ?_, fun hno => act (freqBoundary_none freq off hno)⟩
  rw [freqBoundary_at freq off hn he hk ht]
  exact ⟨onlyIn_withMeasured _ _ _ rfl, rfl, rfl, _, rfl, rfl, rfl, rfl, rfl, rfl, rfl, rfl, rfl⟩

/-- Settles O22: each event of a lane leaves the record its clause gives, and registration gives the record its SEQ and corrections. -/
theorem laneEventsBecomeRecords : Obligations.LaneEventsBecomeRecords := by
  refine ⟨fun s c n ps hl => ?_, fun s c k bs ago hl => todSentence_records s c k bs ago hl, fun s c n freq off hl => freqBoundary_records s c n freq off hl,
    fun ch sync r => register_registers ch sync r⟩
  obtain ⟨hphase, htod, hnone⟩ := refinEdge_records s c n ps hl
  exact ⟨hphase, htod, hnone, windowEnd_records s c n hl⟩

end Sys2Proof
end

section
/-! The state machine of the tracking channels (R102, R103). -/
namespace Sys2Proof.Machine

/-- The tracking channel `i` alone has gone to the state `k` with the timer `t`. -/
def TrkGoes (i : Fin 48) (k : ℕ) (t : Option ℕ) (c d : Channel) : Prop :=
  Channel.onlyIn [.gnss] c d ∧ d.trkSt i = k ∧ d.gnss.trk[i].timer = t ∧ d.gnss.barred = c.gnss.barred ∧
  ∀ j : Fin 48, j ≠ i → d.word .gnss (GNSS_TRK_STAT j.val) = c.word .gnss (GNSS_TRK_STAT j.val) ∧ d.gnss.trk[j] = c.gnss.trk[j]

theorem trkTo_goes (c : Channel) (i : Fin 48) {k : ℕ} (t : Option ℕ) (hk : k < 8) : TrkGoes i k t c (c.trkTo i k t) := by
  obtain ⟨d, hd, hst, htimer, _, _, hbar, hothers⟩ := trkTo_facts c i k t hk
  rw [hd]
  exact ⟨hd ▸ on_trkTo i k t rfl (Channel.onlyIn_refl _ c), hst, htimer, hbar, hothers⟩

section
variable {i : Fin 48} {k : ℕ} {t : Option ℕ} {c d : Channel} (h : TrkGoes i k t c d)
include h

/-- What the loops of the tracking channel keep beside its timer may change with the state. -/
theorem TrkGoes.updTrk (f : Trk → Trk) (hf : ∀ x, (f x).timer = x.timer) : TrkGoes i k t c (d.updTrk i f) := by
  obtain ⟨hon, hst, htimer, hbar, hothers⟩ := h
  refine ⟨on_updTrk i f rfl hon, hst, ?_, hbar, fun j hj => ⟨(hothers j hj).1, (vset_ne _ _ hj).trans (hothers j hj).2⟩⟩
  rw [show (d.updTrk i f).gnss.trk[i] = f d.gnss.trk[i] from vset_self _ _ _, hf, htimer]

/-- So may the other fields of its register. -/
theorem TrkGoes.put (f : KF) (v : ℕ) (hb : f.blk = .gnss) (ho : f.off = GNSS_TRK_STAT i.val) (hl : f.lsb + f.w ≤ 29) :
    TrkGoes i k t c (d.put f v) := by
  obtain ⟨hon, hst, htimer, hbar, hothers⟩ := h
  obtain ⟨e, he, hgnss, _, hfields, hwords⟩ := putTrk d i f v hb ho (by omega)
  refine ⟨on_put f v (by rw [hb]; rfl) hon, ?_, htimer, hbar, fun j hj => ⟨?_, (hothers j hj).2⟩⟩
  · rw [he, ← hst]; exact hfields (F.GNSS_TRK_STAT_STATE i.val) (.inr hl)
  · rw [he, hwords j hj, (hothers j hj).1]

end

/-! ### Each command of the state machine -/

theorem cur_updTrk (c : Channel) (i : Fin 48) (f : Trk → Trk) (g : KF) : (c.updTrk i f).cur g = c.cur g := rfl

section
variable {c : Channel} {i : Fin 48}

/-- An assigned tracking channel holds its satellite and searches. -/
theorem trkAssign_goes {gal : Bool} {sv : ℕ} (h : c.trkSt i = TRK_IDLE ∧ c.linkSt = LINK_UP ∧ c.sysOn gal = true ∧ c.isBarred gal sv = false ∧
    (c.navSat gal sv).healthy = true) : TrkGoes i TRK_SEARCH none c (c.trkAssign i gal sv) ∧ (c.trkAssign i gal sv).trkGal i = gal ∧
      (c.trkAssign i gal sv).trkSv i = sv % 64 ∧ (c.trkAssign i gal sv).gnss.trk[i].moved = 0 := by
  obtain ⟨hidle, hup, hon, hbar, hhealthy⟩ := h
  have e : c.trkAssign i gal sv = (((c.trkTo i TRK_SEARCH none).put (F.GNSS_TRK_STAT_SYS i.val) (b2n gal)).put (F.GNSS_TRK_STAT_SV i.val) sv).updTrk i
      (fun t => { t with moved := 0 }) := if_pos ⟨hidle, hup, hon, by rw [hbar]; rfl, hhealthy⟩
  have hgoes : TrkGoes i TRK_SEARCH none c (((c.trkTo i TRK_SEARCH none).put (F.GNSS_TRK_STAT_SYS i.val) (b2n gal)).put (F.GNSS_TRK_STAT_SV i.val) sv) :=
    ((trkTo_goes c i none (by decide)).put _ _ rfl rfl (show 28 + 1 ≤ 29 by decide)).put _ _ rfl rfl (show 22 + 6 ≤ 29 by decide)
  have hsys := Channel.cur_put_lt (c.trkTo i TRK_SEARCH none) (F.GNSS_TRK_STAT_SYS i.val) (b2n gal) (show 28 + 1 ≤ 32 by decide)
    (show b2n gal < 2 ^ 1 by cases gal <;> decide)
  generalize (c.trkTo i TRK_SEARCH none).put (F.GNSS_TRK_STAT_SYS i.val) (b2n gal) = x at *
  have hkeep := cur_put_ne x (F.GNSS_TRK_STAT_SV i.val) (F.GNSS_TRK_STAT_SYS i.val) sv (show 22 + 6 ≤ 32 by decide)
    (.inr (.inr (.inl (show 22 + 6 ≤ 28 by decide))))
  have hsv := cur_put_self x (F.GNSS_TRK_STAT_SV i.val) sv (show 22 + 6 ≤ 32 by decide)
  generalize x.put (F.GNSS_TRK_STAT_SV i.val) sv = y at *
  rw [e]
  refine ⟨hgoes.updTrk _ (fun _ => rfl), ?_, ?_, congrArg Trk.moved (vset_self _ _ _)⟩
  · rw [Channel.trkGal, cur_updTrk, hkeep, hsys]
    cases gal <;> rfl
  · rw [Channel.trkSv, cur_updTrk, hsv]
    rfl

theorem trkAssign_idle {gal : Bool} {sv : ℕ} (h : ¬ (c.trkSt i = TRK_IDLE ∧ c.linkSt = LINK_UP ∧ c.sysOn gal = true ∧ c.isBarred gal sv = false ∧
    (c.navSat gal sv).healthy = true)) : c.trkAssign i gal sv = c :=
  if_neg fun ⟨hidle, hup, hon, hbar, hhealthy⟩ => h ⟨hidle, hup, hon, by simpa using hbar, hhealthy⟩

/-- A detection starts the loops. -/
theorem trkDetect_goes (h : c.trkSt i = TRK_SEARCH) : TrkGoes i TRK_PULL_IN (some (c.jour.tick + 2 * 200000000)) c (c.trkDetect i) ∧
    (c.trkDetect i).gnss.trk[i].start = c.jour.tick := by
  have e : c.trkDetect i = (c.trkTo i TRK_PULL_IN (some (c.jour.tick + Channel.secTicks 2))).updTrk i (fun t => { t with start := c.jour.tick }) := if_pos h
  rw [e]
  exact ⟨(trkTo_goes c i _ (by decide)).updTrk _ (fun _ => rfl), congrArg Trk.start (vset_self _ _ _)⟩

theorem trkExpired_iff : c.trkExpired i = true ↔ ∃ t, c.gnss.trk[i].timer = some t ∧ t ≤ c.jour.tick := by
  unfold Channel.trkExpired
  cases c.gnss.trk[i].timer <;> simp

/-- A search whose window is exhausted bars its satellite. -/
theorem trkExhausted_bars (h : c.trkSt i = TRK_SEARCH) : Channel.onlyIn [.gnss] c (c.trkExhausted i) ∧ (c.trkExhausted i).trkSt i = TRK_IDLE ∧
    (c.trkExhausted i).gnss.barred = c.gnss.barred ++ [⟨c.trkGal i, c.trkSv i, c.jour.tick + 60 * 200000000⟩] := by
  refine ⟨on_trkExhausted i rfl (Channel.onlyIn_refl _ c), ?_, ?_⟩
  · rw [Channel.trkExhausted, if_pos h]
    obtain ⟨_, hst, _⟩ := trkTo_goes c i none (show TRK_IDLE < 8 by decide)
    exact (cur_setGnss _ _ _).trans hst
  · rw [Channel.trkExhausted, if_pos h]
    rfl

/-- D2 as the side peak guard uses it (R103). -/
theorem d2For_eq : (c.d2For i : Int) = (match c.oldSpcFor i with
    | some o => if c.trkGal i = true then (o.galD2 : Int) else o.gpsD2
    | none => if c.trkGal i = true then (c.fld F.GNSS_SPC_GAL_D2 : Int) else c.fld F.GNSS_SPC_GPS_D2) := by
  unfold Channel.d2For
  cases c.oldSpcFor i <;> cases c.trkGal i <;> rfl

theorem sidePeak_past {late : Bool} (h : c.trkSt i ≠ TRK_IDLE ∧ c.trkSt i ≠ TRK_SEARCH) : c.sidePeak i late =
    c.updTrk i (fun t => { t with moved := t.moved + (if late = true then (c.d2For i : Int) else -c.d2For i) }) :=
  if_neg (not_or.mpr h)

theorem sidePeak_idle {late : Bool} (h : ¬ (c.trkSt i ≠ TRK_IDLE ∧ c.trkSt i ≠ TRK_SEARCH)) : c.sidePeak i late = c :=
  if_pos (by by_contra hn; exact h (not_or.mp hn))

end
end Sys2Proof.Machine

namespace Sys2Proof
open Sys2Proof.Machine

/-- Settles O24, command by command: where its state lets it act, a command moves one tracking channel. -/
theorem trackingChannelsFollowTheirStates : Obligations.TrackingChannelsFollowTheirStates := by
  refine ⟨fun s c i hl => ?_, fun s c i late hl => ?_⟩
  · intro ch now st late goes rule
    have goes_of : ∀ {k t d}, TrkGoes i k t ch d → (k = TRK_PULL_IN → st = TRK_SEARCH → d.gnss.trk[i].start = now) → goes k t d :=
      fun ⟨hon, hst, htimer, hbar, hothers⟩ hstart => ⟨hon, hst, htimer, hstart, hbar, hothers⟩
    have rule_of : ∀ (m : Instr) (f : Channel → Channel) (p : Prop) (k : ℕ) (t : Option ℕ), mayRate m = false → s.clear.effect m = s.clear.onCh c f →
        (p → goes k t (f ch)) → (¬ p → f ch = ch) → rule m p k t :=
      fun m f p k t hr hx hp hn => ⟨fun h => actsOn_intro f hl hr hx (hp h), fun h => actsOn_intro f hl hr hx (hn h)⟩
    refine ⟨fun gal sv => ⟨fun h => ?_, fun h => ?_⟩,
      rule_of _ (fun ch => ch.trkDetect i) _ _ _ rfl rfl (fun h => ?_) (fun h => if_neg h),
      rule_of _ (fun ch => ch.trkLock i) _ _ _ rfl rfl (fun h => ?_) (fun h => if_neg h),
      rule_of _ (fun ch => ch.trkPullInTimeout i) _ _ _ rfl rfl (fun h => ?_) (fun h => if_neg fun hx => h ⟨hx.1, trkExpired_iff.mp hx.2⟩),
      rule_of _ (fun ch => ch.trkLockLost i) _ _ _ rfl rfl (fun h => ?_) (fun h => if_neg h),
      rule_of _ (fun ch => ch.trkLostTimeout i) _ _ _ rfl rfl (fun h => ?_) (fun h => if_neg fun hx => h ⟨hx.1, trkExpired_iff.mp hx.2⟩)⟩
    · obtain ⟨hgoes, hgal, hsv, hmoved⟩ := trkAssign_goes h
      exact actsOn_intro (fun ch => ch.trkAssign i gal sv) hl rfl rfl ⟨goes_of hgoes (fun hk => absurd hk (by decide)), hgal, hsv, hmoved⟩
    · exact actsOn_intro (fun ch => ch.trkAssign i gal sv) hl rfl rfl (trkAssign_idle h)
    · exact goes_of (trkDetect_goes h).1 (fun _ _ => (trkDetect_goes h).2)
    · rw [show ch.trkLock i = ch.trkTo i TRK_TRACK none from if_pos h]
      exact goes_of (trkTo_goes ch i _ (by decide)) (fun hk => absurd hk (by decide))
    · rw [show ch.trkPullInTimeout i = ch.trkTo i TRK_SEARCH none from if_pos ⟨h.1, trkExpired_iff.mpr h.2⟩]
      exact goes_of (trkTo_goes ch i _ (by decide)) (fun hk => absurd hk (by decide))
    · rw [show ch.trkLockLost i = ch.trkTo i TRK_LOST (some (now + 10 * 200000000)) from if_pos h]
      exact goes_of (trkTo_goes ch i _ (by decide)) (fun hk => absurd hk (by decide))
    · rw [show ch.trkLostTimeout i = ch.trkTo i TRK_IDLE none from if_pos ⟨h.1, trkExpired_iff.mpr h.2⟩]
      exact goes_of (trkTo_goes ch i _ (by decide)) (fun hk => absurd hk (by decide))
  · intro ch now st past d2
    have guard : ∀ {q : Channel → Prop}, q (ch.sidePeak i late) → ActsOn (.sidePeakGuard c i late) s c q :=
      actsOn_intro (fun ch => ch.sidePeak i late) hl rfl rfl
    refine ⟨fun h => actsOn_intro (fun ch => ch.trkExhausted i) hl rfl rfl (trkExhausted_bars h),
      fun h => actsOn_intro (fun ch => ch.trkExhausted i) hl rfl rfl (if_neg h),
      actsOn_intro (fun ch => ch.trkUnbar) hl rfl rfl ⟨on_trkUnbar rfl (Channel.onlyIn_refl _ ch), rfl, rfl⟩,
      fun h => guard ?_, fun h => guard (sidePeak_idle h)⟩
    rw [sidePeak_past h, d2For_eq]
    exact ⟨on_updTrk i _ rfl (Channel.onlyIn_refl _ ch), rfl, vset_self _ _ _, fun j hj => vset_ne _ _ hj⟩

end Sys2Proof
end

section
/-! Navigation data of tracked satellites (R102, R110, R111, R115). -/
namespace Sys2Proof.Machine

/-! ### What is stored of a satellite -/

theorem navSat_key (c : Channel) (gal : Bool) (sv : ℕ) : (c.navSat gal sv).gal = gal ∧ (c.navSat gal sv).sv = sv := by
  unfold Channel.navSat
  split
  · next n hn => simpa using List.find?_some hn
  · exact ⟨rfl, rfl⟩

theorem navSat_putNavSat (c : Channel) (n : NavSat) : (c.putNavSat n).navSat n.gal n.sv = n := by
  have hrest : (c.gnss.nav.sats.filter (fun x => !(x.gal == n.gal && x.sv == n.sv))).find? (fun x => x.gal == n.gal && x.sv == n.sv) = none :=
    List.find?_eq_none.mpr fun x hx => by
      have hx := (List.mem_filter.mp hx).2
      simp only [Bool.not_eq_true'] at hx
      rw [hx]
      exact Bool.false_ne_true
  unfold Channel.navSat
  rw [show (c.putNavSat n).gnss.nav.sats = c.gnss.nav.sats.filter (fun x => !(x.gal == n.gal && x.sv == n.sv)) ++ [n] from rfl,
    List.find?_append, hrest]
  simp

/-- A change of what is stored of a satellite that leaves its name is read back. -/
theorem navSat_updated (c : Channel) {gal : Bool} {sv : ℕ} (n : NavSat) (h : n.gal = (c.navSat gal sv).gal ∧ n.sv = (c.navSat gal sv).sv) :
    (c.putNavSat n).navSat gal sv = n := by
  obtain ⟨hgal, hsv⟩ := navSat_key c gal sv
  rw [hgal, hsv] at h
  obtain ⟨rfl, rfl⟩ := h
  exact navSat_putNavSat c n

theorem navSat_of_nav {c d : Channel} (h : d.gnss.nav = c.gnss.nav) (gal : Bool) (sv : ℕ) : d.navSat gal sv = c.navSat gal sv := by
  unfold Channel.navSat
  rw [h]

/-! ### Data by their kind -/

section
variable {c : Channel} {i : Fin 48} (h : c.trkSt i = TRK_TRACK)
include h

/-- UTC parameters are those of the satellite's system. -/
theorem navDecoded_utc (u : NavUtc) :
    (c.navDecoded i (.utc u)).gnss.nav = (if c.trkGal i = true then { c.gnss.nav with gal := some u } else { c.gnss.nav with gps := some u }) ∧
    ((∃ a b, (c.navDecoded i (.utc u)).gnss.nav.gps = some a ∧ (c.navDecoded i (.utc u)).gnss.nav.gal = some b ∧ a ≠ b) →
      (c.navDecoded i (.utc u)).cur F.GNSS_EVT_UTCD = 1) := by
  unfold Channel.navDecoded
  rw [if_neg (not_not.mpr h)]
  dsimp only
  generalize (if c.trkGal i = true then { c.gnss.nav with gal := some u } else { c.gnss.nav with gps := some u } : NavStore) = nav
  split
  · next a b hgps hgal =>
    by_cases hab : a = b
    · rw [if_neg (not_not.mpr hab)]
      refine ⟨rfl, fun ⟨x, y, hx, hy, hxy⟩ => absurd ?_ hxy⟩
      rw [← Option.some.inj (hgps.symm.trans hx), ← Option.some.inj (hgal.symm.trans hy), hab]
    · rw [if_pos hab]
      exact ⟨rfl, fun _ => cur_evt _ _ rfl (by decide)⟩
  · next hno => exact ⟨rfl, fun ⟨x, y, hx, hy, _⟩ => (hno x y hx hy).elim⟩

/-- Health is stored; an unhealthy satellite is tracked by no channel. -/
theorem navDecoded_health (ok : Bool) :
    (c.navDecoded i (.health ok)).navSat (c.trkGal i) (c.trkSv i) = { c.navSat (c.trkGal i) (c.trkSv i) with healthy := ok } ∧
    (ok = true → (c.navDecoded i (.health ok)).regs = c.regs) ∧
    (ok = false → ∀ j : Fin 48, c.trkGal j = c.trkGal i → c.trkSv j = c.trkSv i → (c.navDecoded i (.health ok)).trkSt j = TRK_IDLE) := by
  have hput := navSat_updated c (gal := c.trkGal i) (sv := c.trkSv i) { c.navSat (c.trkGal i) (c.trkSv i) with healthy := ok } ⟨rfl, rfl⟩
  unfold Channel.navDecoded
  rw [if_neg (not_not.mpr h)]
  dsimp only
  generalize hc1 : c.putNavSat { c.navSat (c.trkGal i) (c.trkSv i) with healthy := ok } = c1 at hput
  cases ok with
  | true => exact ⟨hput, fun _ => hc1 ▸ rfl, fun he => absurd he (by decide)⟩
  | false =>
    obtain ⟨d, hd, _, hidle, _, hgnss⟩ := trkIdle_fold (fun j => c1.trkGal j == c.trkGal i && c1.trkSv j == c1.trkSv i) (List.finRange 48) c1
    rw [if_neg (by decide), show c1.trkIdle _ = d from hd]
    refine ⟨(navSat_of_nav (by rw [hgnss]) _ _).trans hput, fun he => absurd he (by decide), fun _ j hgal hsv => hidle j (List.mem_finRange j) ?_⟩
    subst hc1
    exact Bool.and_eq_true_iff.mpr ⟨beq_iff_eq.mpr hgal, beq_iff_eq.mpr hsv⟩

end
end Sys2Proof.Machine

namespace Sys2Proof
open Sys2Proof.Machine

/-- Settles O25, kind by kind. -/
theorem navigationDataIsStored : Obligations.NavigationDataIsStored := by
  intro s c i hl ch gal sv sat track run fr
  have dec : ∀ {x : NavData} {q : Channel → Prop}, q (ch.navDecoded i x) → ActsOn (run x) s c q := fun {x} _ =>
    actsOn_intro (fun ch => ch.navDecoded i x) hl rfl rfl
  have hfr : ∀ x, fr (ch.navDecoded i x) := fun x => on_navDecoded i x rfl (Channel.onlyIn_refl _ ch)
  refine ⟨fun x h => dec (if_pos h), fun acc bs h => dec ⟨hfr _, ?_⟩, fun bs h => dec ⟨hfr _, ?_⟩, fun g h => dec ⟨hfr _, ?_⟩,
    fun u h => dec ⟨hfr _, navDecoded_utc h u⟩, fun ok h => dec ⟨hfr _, navDecoded_health h ok⟩⟩
  · rw [show ch.navDecoded i (.ephemeris acc bs) = ch.putNavSat { sat with eph := some (acc, bs) } from if_neg (not_not.mpr h)]
    exact ⟨rfl, navSat_updated ch _ ⟨rfl, rfl⟩⟩
  · rw [show ch.navDecoded i (.almanac bs) = ch.putNavSat { sat with alm := some bs } from if_neg (not_not.mpr h)]
    exact ⟨rfl, navSat_updated ch _ ⟨rfl, rfl⟩⟩
  · rw [show ch.navDecoded i (.ggto g) = ch.setGnss { ch.gnss with nav := { ch.gnss.nav with ggto := some g } } from if_neg (not_not.mpr h)]
    exact ⟨rfl, rfl⟩

end Sys2Proof
end

section
/-! Frames of the sample link (R96 to R98, R102, R116). -/
namespace Sys2Proof.Machine

/-- A frame that counts as good (R97, R98): a comma at its place, a CRC that agrees, the FSEQ expected. -/
def FrameGood (c : Channel) (comma : Bool) (bs : Bytes) : Prop :=
  let n := frameSamples (c.fld F.GNSS_FE_CFG_RATE)
  comma = true ∧ (bs.length = 12 + n ∧ crc16 (slice bs 0 (10 + n)) = fromBe (slice bs (10 + n) 2)) ∧
  (∀ e, c.gnss.expect = some e → e = fromBe (slice bs 0 2)) ∧
  (∀ t, c.gnss.comma = some t → (c.jour.tick - t) % 2000 ≤ 1 ∨ 1999 ≤ (c.jour.tick - t) % 2000)

/-! ### What the contents of a frame leave -/

/-- The link's state, its count of errors, its runs of frames and the FSEQ expected stay. -/
def RunKept (c d : Channel) : Prop :=
  LinkKept c d ∧ d.gnss.good = c.gnss.good ∧ d.gnss.bad = c.gnss.bad ∧ d.gnss.expect = c.gnss.expect

theorem RunKept.refl (c : Channel) : RunKept c c := ⟨.refl c, rfl, rfl, rfl⟩

theorem RunKept.trans {a b c : Channel} (h : RunKept a b) (g : RunKept b c) : RunKept a c := by
  obtain ⟨hlink, hgood, hbad, hexp⟩ := h
  obtain ⟨glink, ggood, gbad, gexp⟩ := g
  exact ⟨hlink.trans glink, ggood.trans hgood, gbad.trans hbad, gexp.trans hexp⟩

theorem RunKept.ite {a c d : Channel} {p : Prop} [Decidable p] (hc : RunKept a c) (hd : RunKept a d) : RunKept a (if p then c else d) := by
  split <;> assumption

/-- Marks of LINK_STAT beside its state and its count. -/
theorem RunKept.put {a c : Channel} (h : RunKept a c) (f : KF) (v : ℕ) (h16 : 16 ≤ f.lsb) (h30 : f.lsb + f.w ≤ 30) : RunKept a (c.put f v) :=
  h.trans ⟨lk_put f v (by omega) (.inr (.inr ⟨h16, h30⟩)) (.refl c), rfl, rfl, rfl⟩

theorem RunKept.evt {a c : Channel} (h : RunKept a c) (f : KF) (h16 : 16 ≤ f.lsb) (h30 : f.lsb < 30) : RunKept a (c.evt f) :=
  h.trans ⟨lk_evt f h30 h16 (.refl c), rfl, rfl, rfl⟩

/-- Other parts of the block. -/
theorem RunKept.setGnss {a c : Channel} (h : RunKept a c) (g : GnssBlk) (hg : g.good = c.gnss.good) (hb : g.bad = c.gnss.bad)
    (he : g.expect = c.gnss.expect) : RunKept a (c.setGnss g) :=
  h.trans ⟨lk_setGnss g (.refl c), hg, hb, he⟩

theorem RunKept.bcDone {a c : Channel} (h : RunKept a c) (rtag rstat rdata : ℕ) : RunKept a (c.bcDone rtag rstat rdata) := by
  obtain ⟨hlink, hgnss⟩ := bcDone_facts c rtag rstat rdata
  exact h.trans ⟨hlink, by rw [hgnss], by rw [hgnss], by rw [hgnss]⟩

theorem RunKept.snapFrame {a c : Channel} (h : RunKept a c) (good : Bool) (agc : Byte) (bs : Bytes) : RunKept a (c.snapFrame good agc bs) := by
  obtain ⟨hlink, hgnss⟩ := snapFrame_facts c good agc bs
  exact h.trans ⟨hlink, by rw [hgnss], by rw [hgnss], by rw [hgnss]⟩

/-! ### A link that is DOWN -/

section
variable {c : Channel} {comma : Bool} {bs : Bytes} (hen : c.flag F.GNSS_FE_CFG_EN = true) (hdown : c.linkSt = LINK_DOWN)
include hen hdown

theorem sampleFrame_down_idle (hc : comma = false) : c.sampleFrame comma bs = c.snapFrame false 0#8 [] := by
  unfold Channel.sampleFrame
  rw [if_neg (by rw [hen]; decide)]
  extract_lets now st c0 c1
  rw [if_pos hdown, hc]
  rfl

/-- The first comma begins a run of frames. -/
theorem sampleFrame_down_comma (hc : comma = true) : (c.sampleFrame comma bs).linkSt = LINK_ALIGNING ∧ (c.sampleFrame comma bs).gnss.good = 0 ∧
    (c.sampleFrame comma bs).gnss.bad = 0 ∧ (c.sampleFrame comma bs).gnss.expect = none ∧ (c.sampleFrame comma bs).gnss.comma = some c.jour.tick ∧
    (c.sampleFrame comma bs).cur F.GNSS_EVT_LINK = 1 := by
  obtain ⟨hlink, _⟩ := snapFrame_facts c false 0#8 []
  obtain ⟨d, hd, hst, hgood, hbad, _, _, hevt, _⟩ := linkTo_facts (c.snapFrame false 0#8 []) LINK_ALIGNING (by rw [hlink.1, hdown]; decide) (by decide)
  have e : c.sampleFrame comma bs = d.setGnss { d.gnss with expect := none, comma := some c.jour.tick } := by
    unfold Channel.sampleFrame
    rw [if_neg (by rw [hen]; decide)]
    extract_lets now st c0 c1
    rw [if_pos hdown, hc]
    subst hd
    rfl
  rw [e]
  exact ⟨hst, hgood, hbad, rfl, rfl, hevt⟩

end

/-! ### The count of good and bad frames -/

/-- A frame that is good, or not, has been counted. -/
def FrameCounted (c d : Channel) (good : Bool) : Prop :=
  d.linkSt = c.linkSt ∧ d.gnss.good = (if good = true then c.gnss.good + 1 else 0) ∧ d.gnss.bad = (if good = true then 0 else c.gnss.bad + 1) ∧
  d.cur F.GNSS_LINK_STAT_CRC_ERR = (if good = true then c.cur F.GNSS_LINK_STAT_CRC_ERR else (c.cur F.GNSS_LINK_STAT_CRC_ERR + 1) % 65536)

/-- A frame whose link is not DOWN is counted, and then the link may change its state. -/
theorem sampleFrame_counts {c : Channel} (comma : Bool) (bs : Bytes) (hen : c.flag F.GNSS_FE_CFG_EN = true) (hst : c.linkSt ≠ LINK_DOWN) :
    ∃ (good : Bool) (d : Channel), (good = true ↔ FrameGood c comma bs) ∧ FrameCounted c d good ∧
      (good = true → d.gnss.expect = some ((fromBe (slice bs 0 2) + 1) % 65536)) ∧
      c.sampleFrame comma bs = if c.linkSt = LINK_ALIGNING ∧ 4 ≤ d.gnss.good then d.linkTo LINK_UP
        else if c.linkSt = LINK_UP ∧ 4 ≤ d.gnss.bad then d.linkTo LINK_DOWN else d := by
  obtain ⟨r, hr⟩ : ∃ r, c.sampleFrame comma bs = r := ⟨_, rfl⟩
  rw [hr]
  unfold Channel.sampleFrame at hr
  rw [if_neg (by rw [hen]; decide)] at hr
  extract_lets now st d0 d1 g1 n crcOk fseq seqOk off good expect g0 c1 c2 stat agc w p0 p1 add g2 p2 b0 g3 c3 runG runB g4 c4 c5 at hr
  rw [if_neg hst] at hr
  have hcrc : crcOk = true ↔ bs.length = 12 + n ∧ crc16 (slice bs 0 (10 + n)) = fromBe (slice bs (10 + n) 2) := by
    rw [Bool.and_eq_true, beq_iff_eq, beq_iff_eq]
  have hseq : seqOk = true ↔ ∀ e, c.gnss.expect = some e → e = fseq := by
    cases hx : c.gnss.expect <;> simp [seqOk, hx]
  have hoff : comma = true → (off = false ↔ ∀ t, c.gnss.comma = some t → (now - t) % 2000 ≤ 1 ∨ 1999 ≤ (now - t) % 2000) := fun hc => by
    cases hx : c.gnss.comma with
    | none => simp [off, hx]
    | some t =>
      simp only [off, hx, hc, Bool.true_and, Bool.and_eq_false_iff, decide_eq_false_iff_not, not_lt, Option.some.injEq, forall_eq']
  have hgood : good = true ↔ FrameGood c comma bs := by
    unfold good
    rw [Bool.and_eq_true, Bool.and_eq_true, Bool.and_eq_true, Bool.not_eq_true', hcrc, hseq]
    exact ⟨fun ⟨⟨⟨hc, hb⟩, hs⟩, ho⟩ => ⟨hc, hb, hs, (hoff hc).mp ho⟩, fun ⟨hc, hb, hs, ho⟩ => ⟨⟨⟨hc, hb⟩, hs⟩, (hoff hc).mpr ho⟩⟩
  have h2 : RunKept c1 c2 := .ite ((RunKept.refl c1).evt F.GNSS_LINK_STAT_RATE_ERR (by decide) (by decide)) (.refl c1)
  have h3 : c3.linkSt = c.linkSt ∧ c3.gnss.good = c.gnss.good ∧ c3.gnss.bad = c.gnss.bad ∧ c3.gnss.expect = expect ∧
      c3.cur F.GNSS_LINK_STAT_CRC_ERR = if good = true then c.cur F.GNSS_LINK_STAT_CRC_ERR else (c.cur F.GNSS_LINK_STAT_CRC_ERR + 1) % 65536 := by
    by_cases hg : good = true
    · have hp0 : RunKept c1 p0 := (h2.put F.GNSS_LINK_STAT_FE_LOCK _ (by decide) (by decide)).put F.GNSS_LINK_STAT_AGC _ (by decide) (by decide)
      have hp1 : RunKept c1 p1 := .ite (hp0.evt F.GNSS_LINK_STAT_OVLD (by decide) (by decide)) hp0
      have hp2 : RunKept c1 p2 := hp1.setGnss _ (by rfl) (by rfl) (by rfl)
      obtain ⟨⟨hlink, herr⟩, hruns⟩ : RunKept c1 c3 := by
        rw [show c3 = p2.bcDone _ _ _ from if_pos hg]
        exact hp2.bcDone _ _ _
      rw [if_pos hg]
      exact ⟨hlink, hruns.1, hruns.2.1, hruns.2.2, herr⟩
    · obtain ⟨⟨hlink, herr⟩, hgood2, hbad2, hexp2⟩ := h2
      obtain ⟨⟨hlink3, herr3⟩, hgood3, hbad3, hexp3⟩ : RunKept b0 c3 := by
        rw [show c3 = if st = LINK_UP then _ else b0 from if_neg hg]
        exact .ite ((RunKept.refl b0).setGnss _ rfl rfl rfl) (.refl b0)
      have hb0 : b0.linkSt = c2.linkSt := cur_put_ne c2 F.GNSS_LINK_STAT_CRC_ERR F.GNSS_LINK_STAT_STATE _ (by decide) (by decide)
      have hb1 : b0.cur F.GNSS_LINK_STAT_CRC_ERR = (c2.cur F.GNSS_LINK_STAT_CRC_ERR + 1) % 65536 := cur_put_self c2 F.GNSS_LINK_STAT_CRC_ERR _ (by decide)
      rw [if_neg hg]
      refine ⟨hlink3.trans (hb0.trans hlink), hgood3.trans hgood2, hbad3.trans hbad2, hexp3.trans hexp2, ?_⟩
      rw [herr3, hb1, herr]
      rfl
  obtain ⟨hlink3, hgood3, hbad3, hexp3, herr3⟩ := h3
  obtain ⟨⟨hlink5, herr5⟩, hgood5, hbad5, hexp5⟩ : RunKept c4 c5 := (RunKept.refl c4).snapFrame _ _ _
  have hrunG : c5.gnss.good = runG := hgood5
  have hrunB : c5.gnss.bad = runB := hbad5
  refine ⟨good, c5, hgood, ⟨hlink5.trans hlink3, ?_, ?_, herr5.trans herr3⟩, fun hg => ?_, ?_⟩
  · rw [hrunG, show runG = if good = true then c3.gnss.good + 1 else 0 from rfl, hgood3]
  · rw [hrunB, show runB = if good = true then 0 else c3.gnss.bad + 1 from rfl, hbad3]
  · obtain ⟨_, hb, _⟩ := hgood.mp hg
    rw [hexp5, show c4.gnss.expect = c3.gnss.expect from rfl, hexp3]
    exact if_pos (hcrc.mpr hb)
  · rw [hrunG, hrunB]
    exact hr.symm

end Sys2Proof.Machine

namespace Sys2Proof
open Sys2Proof.Machine

/-- Settles O26: in DOWN a comma starts the run; else the frame is counted, and a run of four moves the link. -/
theorem sampleFramesDriveTheLink : Obligations.SampleFramesDriveTheLink := by
  intro s c comma bs hl ch i fr n now crc good err
  have act : ∀ {q : Channel → Prop}, q (ch.sampleFrame comma bs) → ActsOn i s c q := actsOn_intro (fun ch => ch.sampleFrame comma bs) hl rfl rfl
  have hfr : fr (ch.sampleFrame comma bs) := on_sampleFrame comma bs rfl (Channel.onlyIn_refl _ ch)
  refine ⟨fun hen => act (if_pos (by rw [hen]; rfl)), fun hen hdown => ⟨fun hc => act ?_, fun hc => act ⟨hfr, ?_⟩⟩, fun hen hst => ?_⟩
  · exact sampleFrame_down_idle hen hdown hc
  · exact sampleFrame_down_comma hen hdown hc
  obtain ⟨g, d, hg, ⟨hlink, hrunG, hrunB, herr⟩, hexp, hd⟩ := sampleFrame_counts comma bs hen hst
  rw [hd] at act hfr
  have hup : ch.linkSt = LINK_ALIGNING → ch.linkSt ≠ LINK_UP := fun h => by rw [h]; decide
  refine ⟨fun hgood ha h3 => act ?_, fun hgood hno => act ?_, fun hbad hu h3 => act ?_, fun hbad hno => act ?_⟩
  · rw [if_pos (hg.mpr hgood)] at hrunG
    have hcond : ch.linkSt = LINK_ALIGNING ∧ 4 ≤ d.gnss.good := ⟨ha, by omega⟩
    obtain ⟨e, he, hst', hgood', hbad', hgnss, _, hevt, _⟩ := linkTo_facts d LINK_UP (by rw [hlink, ha]; decide) (by decide)
    rw [if_pos hcond, he] at hfr ⊢
    exact ⟨hfr, hst', hgood', hbad', by rw [hgnss (by decide)]; exact hexp (hg.mpr hgood), hevt⟩
  · rw [if_pos (hg.mpr hgood)] at hrunG hrunB
    rw [if_neg (fun h => hno ⟨h.1, by omega⟩), if_neg (fun h => by omega)] at hfr ⊢
    exact ⟨hfr, hlink, hrunG, hrunB, hexp (hg.mpr hgood)⟩
  · rw [if_neg (fun h => hbad (hg.mp h))] at hrunB herr
    obtain ⟨e, he, hst', _, _, _, hidle, hevt, herr'⟩ := linkTo_facts d LINK_DOWN (by rw [hlink, hu]; decide) (by decide)
    rw [if_neg (fun h => absurd hu (hup h.1)), if_pos ⟨hu, by omega⟩, he] at hfr ⊢
    exact ⟨hfr, hst', (hidle rfl).2, hevt, herr'.trans herr⟩
  · rw [if_neg (fun h => hbad (hg.mp h))] at hrunG hrunB herr
    rw [if_neg (fun h => by omega), if_neg (fun h => hno ⟨h.1, by omega⟩)] at hfr ⊢
    exact ⟨hfr, hlink, hrunG, hrunB, herr⟩

end Sys2Proof
end

section
/-! The registers of the GNSS block by which a host commands it (R100, R107, R109, R116). -/
namespace Sys2Proof.Machine

theorem cur_of_word {c d : Channel} (f : KF) (h : d.word f.blk f.off = c.word f.blk f.off) : d.cur f = c.cur f := by
  unfold Channel.cur
  rw [h]

theorem action_bcCmd (c : Channel) (w : Writer) (v : Word) :
    c.action w .gnss GNSS_BC_CMD v = (false, if bit v 31 = true then c.bcGo else c) := rfl

theorem action_posCtl (c : Channel) (w : Writer) (v : Word) : c.action w .gnss GNSS_POS_CTL v =
    if (bit v 31 == bit v 30) = true then (false, c) else (true, if bit v 31 = true then c.posSet else c.posClr) := rfl

theorem action_jamStat (c : Channel) (w : Writer) (v : Word) :
    c.action w .gnss GNSS_JAM_STAT v = (bit v 0, if bit v 0 = true then c.floorCapture else c) := rfl

theorem action_snapCtl (c : Channel) (w : Writer) (v : Word) :
    c.action w .gnss GNSS_SNAP_CTL v = (false, if bit v 31 = true then c.snapGo else c) := rfl

/-- The channel `x` on which such a register acts: its word is stored, and the write may be journaled. -/
def GnssStored (c x : Channel) (org : Origin) (off : ℕ) (v : Word) : Prop :=
  ∃ e, x = c.storeWord ⟨org, false⟩ .gnss off v ∨ x = (c.storeWord ⟨org, false⟩ .gnss off v).journal e

/-- The block's state, the tick and the other words are as they were. -/
theorem GnssStored.facts {c x : Channel} {org : Origin} {off : ℕ} {v : Word} (h : GnssStored c x org off v) :
    Channel.onlyIn [.gnss, .jour, .asks] c x ∧ x.gnss = c.gnss ∧ x.jour.tick = c.jour.tick ∧ ∀ o, o ≠ off → x.word .gnss o = c.word .gnss o := by
  obtain ⟨e, h⟩ := h
  obtain ⟨hon, _, _, htick, _⟩ := cmd_c2 h
  obtain ⟨f, hf⟩ := Channel.storeWord_eq c ⟨org, false⟩ .gnss off v
  rcases h with rfl | rfl
  · exact ⟨hon, by rw [hf]; rfl, htick, fun o ho => Channel.storeWord_word_ne _ _ _ _ _ (.inr (Ne.symm ho))⟩
  · exact ⟨hon, by rw [hf]; rfl, htick, fun o ho => Channel.storeWord_word_ne c _ _ .gnss _ (.inr (Ne.symm ho))⟩

theorem GnssStored.word {c x : Channel} {org : Origin} {off : ℕ} {v : Word} {g : RegSpec} (h : GnssStored c x org off v)
    (hg : findReg (kbRegs .gnss) off = some g) : x.word .gnss off = c.stored .gnss off v g := by
  obtain ⟨e, h⟩ := h
  exact (cmd_word hg h).1

theorem gnssCmd_off : ∀ off ∈ [GNSS_BC_CMD, GNSS_POS_CTL, GNSS_JAM_STAT, GNSS_SNAP_CTL], off % 4 = 0 ∧ off < 0x100000 ∧
    (findReg (kbRegs .gnss) off).any (·.writable) = true ∧ multiIn (kbMulti .gnss) off = none := by decide

/-- A host's write of such a register acts on a channel whose word is stored; requests may follow. -/
theorem actsOn_gnssCmd {s : State} {p : HostPath} {c : ChanIx} {v : Word} {i : Instr} {off : ℕ}
    (hoff : off ∈ [GNSS_BC_CMD, GNSS_POS_CTL, GNSS_JAM_STAT, GNSS_SNAP_CTL]) (hm : mayRate i = false)
    (hx : s.clear.effect i = s.clear.writeCh p c .gnss off v) (ho : s.open p) (hr : s.running c = true)
    (hp : s.ch[c].hasPart .gnss off = true) (hi : s.ch[c].ignores .gnss off v = false) {q : Channel → Prop}
    (hq : ∀ (x : Channel) (es : List Eff), GnssStored s.ch[c] x p.org off v →
      q { (x.action ⟨p.org, false⟩ .gnss off v).2 with effs := (x.action ⟨p.org, false⟩ .gnss off v).2.effs ++ es }) : ActsOn i s c q := by
  obtain ⟨ha, hb, hreg, hmulti⟩ := gnssCmd_off off hoff
  exact actsOn_cmd .gnss off v hm hx ho hr ha hb hreg hmulti hp hi (by simp) fun x es h => hq x es ⟨_, h⟩

end Sys2Proof.Machine
end

section
/-! The back-channel (R99, R100). -/
namespace Sys2Proof.Machine

section
variable {c : Channel}

/-- GO with an OP to carry out, while nothing is outstanding. -/
theorem bcGo_starts (hbc : c.gnss.bc = none) (hop : c.cur F.GNSS_BC_CMD_OP = 1 ∨ c.cur F.GNSS_BC_CMD_OP = 2) :
    c.bcGo.gnss = { c.gnss with
      bc := some ⟨if c.gnss.bcTag = 255 then 1 else c.gnss.bcTag + 1, c.cur F.GNSS_BC_CMD_OP, c.cur F.GNSS_BC_CMD_ADDR,
        if c.cur F.GNSS_BC_CMD_OP = 1 then c.word .gnss GNSS_BC_DATA else 0#32, none⟩,
      bcTag := if c.gnss.bcTag = 255 then 1 else c.gnss.bcTag + 1 } ∧ c.bcGo.cur F.GNSS_BC_STAT_BUSY = 1 := by
  unfold Channel.bcGo
  rw [if_neg (by rw [hbc]; rcases hop with h | h <;> rw [h] <;> decide)]
  exact ⟨rfl, Channel.cur_put_lt _ _ _ (by decide) (by decide)⟩

theorem bcGo_idle (h : ¬ (c.gnss.bc = none ∧ (c.cur F.GNSS_BC_CMD_OP = 1 ∨ c.cur F.GNSS_BC_CMD_OP = 2))) : c.bcGo = c := by
  have hlt : c.cur F.GNSS_BC_CMD_OP < 2 ^ 2 := getField_lt _ _ _
  unfold Channel.bcGo
  refine if_pos ?_
  cases hbc : c.gnss.bc with
  | some o => exact .inl rfl
  | none =>
    have hop : ¬ (c.cur F.GNSS_BC_CMD_OP = 1 ∨ c.cur F.GNSS_BC_CMD_OP = 2) := fun hop => h ⟨hbc, hop⟩
    exact .inr (by omega)

/-- Whether the message of this period has gone out already. -/
theorem bcAt_early : c.gnss.bcAt.any (fun t => decide (c.jour.tick < t + 2000)) = true ↔ ∃ t, c.gnss.bcAt = some t ∧ c.jour.tick < t + 2000 := by
  cases c.gnss.bcAt <;> simp

theorem bcMessage_early (h : ∃ t, c.gnss.bcAt = some t ∧ c.jour.tick < t + 2000) : c.bcMessage = c := if_pos (bcAt_early.mpr h)

/-- The message that carries an operation. -/
theorem bcMessage_sends {o : BcOp} (h : ¬ ∃ t, c.gnss.bcAt = some t ∧ c.jour.tick < t + 2000) (ho : c.gnss.bc = some o) (hs : o.sent = none) :
    c.bcMessage = (c.setGnss { c.gnss with bc := some { o with sent := some c.jour.tick }, bcAt := some c.jour.tick }).ask
      (.backMsg (Channel.bcChars o.op o.tag o.addr o.data)) := by
  unfold Channel.bcMessage
  rw [if_neg (fun e => h (bcAt_early.mp e))]
  have hbc : (c.setGnss { c.gnss with bcAt := some c.jour.tick }).gnss.bc = some o := ho
  simp only [hbc, hs, Option.isNone_none, if_true]
  rfl

/-- A message with nothing to carry. -/
theorem bcMessage_idle (h : ¬ ∃ t, c.gnss.bcAt = some t ∧ c.jour.tick < t + 2000) (ho : ∀ o, c.gnss.bc = some o → o.sent ≠ none) :
    c.bcMessage = (c.setGnss { c.gnss with bcAt := some c.jour.tick }).ask (.backMsg (Channel.bcChars 0 0 0 0#32)) := by
  unfold Channel.bcMessage
  rw [if_neg (fun e => h (bcAt_early.mp e))]
  extract_lets now x
  split
  · next o hx => exact if_neg (by simpa using ho o hx)
  · rfl

/-- An operation that had no answer for 80 µs. -/
theorem bcTimeout_ends {o : BcOp} {t : ℕ} (ho : c.gnss.bc = some o) (hs : o.sent = some t) (ht : t + 16000 ≤ c.jour.tick) :
    c.bcTimeout.gnss = { c.gnss with bc := none } ∧ c.bcTimeout.cur F.GNSS_BC_STAT_BUSY = 0 ∧ c.bcTimeout.cur F.GNSS_BC_STAT_TOUT = 1 := by
  have e : c.bcTimeout = ((c.setGnss { c.gnss with bc := none }).put F.GNSS_BC_STAT_BUSY 0).evt F.GNSS_BC_STAT_TOUT := by
    unfold Channel.bcTimeout
    simp only [ho, hs, if_pos ht]
  rw [e]
  refine ⟨rfl, ?_, cur_evt _ _ rfl (by decide)⟩
  rw [cur_evt_bit _ F.GNSS_BC_STAT_TOUT F.GNSS_BC_STAT_BUSY (by decide) (.inl (by decide))]
  exact Channel.cur_put_lt _ _ _ (by decide) (by decide)

theorem bcTimeout_waits (h : ∀ o t, c.gnss.bc = some o → o.sent = some t → c.jour.tick < t + 16000) : c.bcTimeout = c := by
  unfold Channel.bcTimeout
  split
  · next o ho =>
    split
    · next t hs => exact if_neg (Nat.not_le.mpr (h o t ho hs))
    · rfl
  · rfl

end
end Sys2Proof.Machine

namespace Sys2Proof
open Sys2Proof.Machine

/-- Settles O27: GO, the period's message and the timeout, each where it acts and where it does not. -/
theorem backChannelCarriesOneOperation : Obligations.BackChannelCarriesOneOperation := by
  intro s p c v ho hr ch op now tag fr starts sends early
  have hl : s.live c := ⟨ho.1, hr⟩
  have go : ch.hasPart .gnss GNSS_BC_CMD = true → ∀ {q : Channel → Prop}, (∀ (x : Channel) (es : List Eff), GnssStored ch x p.org GNSS_BC_CMD v →
      q { (if bit v 31 = true then x.bcGo else x) with effs := (if bit v 31 = true then x.bcGo else x).effs ++ es }) →
      ActsOn (.backChannelGo p c v) s c q := fun hp _ hq =>
    actsOn_gnssCmd (by simp) rfl rfl ho hr hp (Channel.ignores_low _ v (by decide) (by decide)) fun x es hx => by
      rw [action_bcCmd]; exact hq x es hx
  have message : ∀ {q : Channel → Prop}, q ch.bcMessage → ActsOn (.backChannelMessage c) s c q := actsOn_intro (fun ch => ch.bcMessage) hl rfl rfl
  have timeout : ∀ {q : Channel → Prop}, q ch.bcTimeout → ActsOn (.backChannelTimeout c) s c q := actsOn_intro (fun ch => ch.bcTimeout) hl rfl rfl
  have hmessage : Channel.onlyIn [.gnss, .asks] ch ch.bcMessage := on_bcMessage rfl (Channel.onlyIn_refl _ ch)
  refine ⟨fun hp ⟨hv, hbc, hop⟩ => go hp fun x es hx => ?_, fun hp hno => go hp fun x es hx => ?_, fun he => message (bcMessage_early he),
    fun o he hbc hs => message ?_, fun he hno => message ?_, fun o t hbc hs ht => timeout ?_, fun hno => timeout (bcTimeout_waits hno)⟩
  · obtain ⟨hon, hgnss, _⟩ := hx.facts
    obtain ⟨e, hx⟩ := hx
    obtain ⟨hopx, haddr, hdata, _⟩ := bcCmd_fields hx
    obtain ⟨hg, hbusy⟩ := bcGo_starts (c := x) (by rw [hgnss]; exact hbc) (by rw [hopx]; exact hop)
    rw [hopx, haddr, hgnss, hdata] at hg
    rw [if_pos hv]
    exact ⟨onlyIn_effs rfl es (on_bcGo rfl hon), hbusy, hg⟩
  · obtain ⟨hon, hgnss, _⟩ := hx.facts
    obtain ⟨e, hx⟩ := hx
    obtain ⟨hopx, _⟩ := bcCmd_fields hx
    by_cases hv : bit v 31 = true
    · have hidle : x.bcGo = x := bcGo_idle fun ⟨hbc, hop⟩ => hno ⟨hv, by rw [← hgnss]; exact hbc, by rw [hopx] at hop; exact hop⟩
      rw [if_pos hv, hidle]
      exact ⟨onlyIn_effs rfl es hon, hgnss⟩
    · rw [if_neg hv]
      exact ⟨onlyIn_effs rfl es hon, hgnss⟩
  · rw [bcMessage_sends he hbc hs] at hmessage ⊢
    exact ⟨hmessage, rfl, rfl, rfl⟩
  · rw [bcMessage_idle he hno] at hmessage ⊢
    exact ⟨hmessage, rfl, rfl, rfl⟩
  · exact ⟨on_bcTimeout rfl (Channel.onlyIn_refl _ ch), bcTimeout_ends hbc hs ht⟩

end Sys2Proof
end

section
/-! Held positions and surveys (R109, R110). -/
namespace Sys2Proof.Machine

/-! ### SET and CLR -/

theorem posSet_holds (c : Channel) : c.posSet.gnss.survey = none ∧ c.posSet.gnss.pos = some c.posWritten ∧ c.posSet.posMode = POS_HOLD ∧
    ∀ v, c.gnss.survey = some v → Eff.opEnd v.slot 0x0A (c.cur F.GNSS_SURV_STAT_SPREAD) ∈ c.posSet.effs := by
  obtain ⟨d, hd, hgnss, hwords, _, hend⟩ := surveyStop_facts c 0x0A
  obtain ⟨e, he, hmode, hpos, hasks, _⟩ := posTo_facts (d.setGnss { d.gnss with pos := some d.posWritten }) POS_HOLD (by decide)
  have hx : c.posSet = e := by subst hd; exact he
  rw [hx, hpos, ← posWritten_of (c := c) (d := d) (fun o ho _ => hwords .gnss o ho)]
  refine ⟨?_, rfl, hmode, fun v hv => hasks _ (hend v hv)⟩
  show d.gnss.survey = none
  rw [hgnss]

theorem posClr_clears (c : Channel) : c.posClr.gnss.survey = none ∧ c.posClr.gnss.pos = none ∧ c.posClr.posMode = POS_NONE ∧
    ∀ v, c.gnss.survey = some v → Eff.opEnd v.slot 0x0A (c.cur F.GNSS_SURV_STAT_SPREAD) ∈ c.posClr.effs := by
  obtain ⟨d, hd, hgnss, _, _, hend⟩ := surveyStop_facts c 0x0A
  obtain ⟨e, he, hmode, hpos, hasks, _⟩ := posTo_facts (d.setGnss { d.gnss with pos := none }) POS_NONE (by decide)
  have hx : c.posClr = e := by subst hd; exact he
  rw [hx, hpos]
  refine ⟨?_, rfl, hmode, fun v hv => hasks _ (hend v hv)⟩
  show d.gnss.survey = none
  rw [hgnss]

/-! ### A survey -/

/-- The count and the spread of a survey as its register shows them. -/
theorem survStat_puts (c : Channel) {n sp : ℕ} (hn : n < 2 ^ 16) (hsp : sp < 2 ^ 16) :
    ((c.put F.GNSS_SURV_STAT_FIXES n).put F.GNSS_SURV_STAT_SPREAD sp).cur F.GNSS_SURV_STAT_FIXES = n ∧
    ((c.put F.GNSS_SURV_STAT_FIXES n).put F.GNSS_SURV_STAT_SPREAD sp).cur F.GNSS_SURV_STAT_SPREAD = sp :=
  ⟨cur_put_put c F.GNSS_SURV_STAT_FIXES F.GNSS_SURV_STAT_SPREAD n sp (by decide) (by decide) hn (by decide),
    Channel.cur_put_lt (c.put F.GNSS_SURV_STAT_FIXES n) F.GNSS_SURV_STAT_SPREAD sp (by decide) hsp⟩

theorem surveyStart_starts (c : Channel) (slot : ℕ) : (c.surveyStart slot).posMode = POS_SURVEYING ∧ (c.surveyStart slot).cur F.GNSS_SURV_STAT_FIXES = 0 ∧
    (c.surveyStart slot).cur F.GNSS_SURV_STAT_SPREAD = 0xFFFF ∧
    ∃ x, (c.surveyStart slot).gnss.survey = some x ∧ x.slot = slot ∧ x.fixes = 0 ∧ x.suspended = false ∧ x.means = [] := by
  unfold Channel.surveyStart
  extract_lets v g
  obtain ⟨hfix, hspread⟩ := survStat_puts (c.setGnss { g with survey := some v }) (show 0 < 2 ^ 16 by decide) (show 0xFFFF < 2 ^ 16 by decide)
  obtain ⟨e, he, hmode, hgnss, _, hcur⟩ := posTo_facts (((c.setGnss { g with survey := some v }).put F.GNSS_SURV_STAT_FIXES 0).put F.GNSS_SURV_STAT_SPREAD 0xFFFF)
    POS_SURVEYING (by decide)
  rw [he]
  exact ⟨hmode, (hcur _ (by decide) (by decide)).trans hfix, (hcur _ (by decide) (by decide)).trans hspread, v, congrArg GnssBlk.survey hgnss, rfl, rfl, rfl, rfl⟩

/-- The mean of the fixes of a survey. -/
def Survey.mean (v : Survey) : Int × Int × Int := (Int.fdiv v.sum.1 v.fixes, Int.fdiv v.sum.2.1 v.fixes, Int.fdiv v.sum.2.2 v.fixes)

/-- A survey with one more fix, of the channel second `sec`. -/
def Survey.counted (v : Survey) (p : Int × Int × Int) (sec : Int) : Survey :=
  let w : Survey := { v with fixes := v.fixes + 1, sum := (v.sum.1 + p.1, v.sum.2.1 + p.2.1, v.sum.2.2 + p.2.2), lastFix := some sec }
  { w with means := (w.mean :: v.means).take 600 }

/-- Whether a fix counts into the survey `v`: it runs, and the fix is the first of its second, with at least four usable satellites. -/
def FixCounts (c : Channel) (v : Survey) : Prop :=
  c.gnss.survey = some v ∧ v.suspended = false ∧ v.lastFix ≠ some c.nowSec ∧ 4 ≤ c.gnss.usableN

/-- Whether a survey is complete. -/
abbrev Survey.complete (w : Survey) : Prop := 600 ≤ w.fixes ∧ w.minFix ≤ w.fixes ∧ Channel.spread w.means ≤ w.posLim

theorem surveyFix_idle {c : Channel} (p : Int × Int × Int) (h : ∀ v, ¬ FixCounts c v) : c.surveyFix p = c := by
  unfold Channel.surveyFix
  split
  · rfl
  · next v hv =>
    refine if_pos ?_
    by_contra hn
    simp only [Bool.or_eq_true, beq_iff_eq, decide_eq_true_eq, not_or, Bool.not_eq_true, not_lt] at hn
    obtain ⟨⟨hs, hlast⟩, hn⟩ := hn
    exact h v ⟨hv, hs, hlast, hn⟩

/-- The channel with what SURV_STAT shows of a survey. -/
def Channel.showSurvey (c : Channel) (w : Survey) : Channel :=
  (c.put F.GNSS_SURV_STAT_FIXES (min 65535 w.fixes)).put F.GNSS_SURV_STAT_SPREAD (min 0xFFFF (Channel.spread w.means))

theorem showSurvey_stat (c : Channel) (w : Survey) : (c.showSurvey w).cur F.GNSS_SURV_STAT_FIXES = min 65535 w.fixes ∧
    (c.showSurvey w).cur F.GNSS_SURV_STAT_SPREAD = min 0xFFFF (Channel.spread w.means) :=
  survStat_puts c (by omega) (by omega)

section
variable {c : Channel} {v w : Survey} {p : Int × Int × Int} (h : FixCounts c v) (hw : v.counted p c.nowSec = w)
include h hw

/-- A fix that counts. -/
theorem surveyFix_counts : c.surveyFix p = if w.complete then
      (((c.showSurvey w).setGnss { c.gnss with pos := some (w.mean.1, w.mean.2.1, w.mean.2.2, min SAT (Channel.spread w.means + w.margin)) }).posTo
        POS_HOLD).surveyStop 0
    else (c.showSurvey w).setGnss { c.gnss with survey := some w } := by
  obtain ⟨hv, hs, hlast, hn⟩ := h
  subst hw
  unfold Channel.surveyFix
  rw [hv]
  dsimp only
  rw [if_neg (by simp [hs, hlast, hn])]
  rfl

theorem surveyFix_goes_on (hc : ¬ w.complete) : (c.surveyFix p).gnss = { c.gnss with survey := some w } ∧
    (c.surveyFix p).cur F.GNSS_SURV_STAT_FIXES = min 65535 w.fixes ∧ (c.surveyFix p).cur F.GNSS_SURV_STAT_SPREAD = min 0xFFFF (Channel.spread w.means) := by
  rw [surveyFix_counts h hw, if_neg hc]
  obtain ⟨hfix, hspread⟩ := showSurvey_stat c w
  exact ⟨rfl, (cur_setGnss _ _ _).trans hfix, (cur_setGnss _ _ _).trans hspread⟩

theorem surveyFix_completes (hc : w.complete) : (c.surveyFix p).gnss.survey = none ∧ (c.surveyFix p).posMode = POS_HOLD ∧
    (c.surveyFix p).gnss.pos = some (w.mean.1, w.mean.2.1, w.mean.2.2, min SAT (Channel.spread w.means + w.margin)) ∧
    Eff.opEnd v.slot 0 (min 0xFFFF (Channel.spread w.means)) ∈ (c.surveyFix p).effs := by
  rw [surveyFix_counts h hw, if_pos hc]
  obtain ⟨_, hspread⟩ := showSurvey_stat c w
  generalize hx : (c.showSurvey w).setGnss { c.gnss with pos := some (w.mean.1, w.mean.2.1, w.mean.2.2, min SAT (Channel.spread w.means + w.margin)) } = x
  have hxg : x.gnss = { c.gnss with pos := some (w.mean.1, w.mean.2.1, w.mean.2.2, min SAT (Channel.spread w.means + w.margin)) } := by subst hx; rfl
  have hxs : x.cur F.GNSS_SURV_STAT_SPREAD = min 0xFFFF (Channel.spread w.means) := by subst hx; exact (cur_setGnss _ _ _).trans hspread
  obtain ⟨y, hy, hmode, hyg, _, hycur⟩ := posTo_facts x POS_HOLD (by decide)
  rw [hy]
  obtain ⟨z, hz, hzg, hzwords, _, hzend⟩ := surveyStop_facts y 0
  rw [hz, hzg, hyg, hxg]
  refine ⟨rfl, ?_, rfl, ?_⟩
  · have hstay : z.cur F.GNSS_POS_CTL_MODE = y.cur F.GNSS_POS_CTL_MODE := cur_of_word _ (hzwords _ _ (by decide))
    exact hstay.trans hmode
  · have hend := hzend v (by rw [hyg, hxg]; exact h.1)
    rw [hycur _ (by decide) (by decide), hxs] at hend
    exact hend

end

/-! ### The survey command -/

theorem surveyCmd_starts {s : State} {slot : ℕ} {m : CmdSt} (hm : s.running? slot 1 = some m) (hr : s.running m.chan = true) (hb : m.begun = false) :
    s.surveyCmd slot = (s.begin' slot).setCh m.chan (Channel.settle s.ch[m.chan] (s.ch[m.chan].surveyStart slot)) := by
  unfold State.surveyCmd
  rw [hm]
  have hr' : (s.begin' slot).running m.chan = true := hr
  have hch : (s.begin' slot).ch = s.ch := rfl
  dsimp only
  rw [hb, if_neg (by decide), onCh_running hr', hch]

theorem surveyCmd_begun {s : State} {slot : ℕ} {m : CmdSt} (hm : s.running? slot 1 = some m) (hb : m.begun = true) : s.surveyCmd slot = s := by
  unfold State.surveyCmd
  rw [hm]
  exact if_pos hb

end Sys2Proof.Machine

namespace Sys2Proof
open Sys2Proof.Machine

/-- Settles O29: the two bits of POS_CTL, the command's first turn, and a fix that counts, completes its survey, or does neither. -/
theorem positionsAndSurveys : Obligations.PositionsAndSurveys := by
  refine ⟨fun s p c v ho hr hp => ?_, fun s slot m hs hm hr => ⟨fun hb => ?_, fun hb => ?_⟩, fun s c x y z hl => ?_⟩
  · intro ch fr ends i hi
    have cmd : ∀ {q : Channel → Prop}, (∀ (x : Channel) (es : List Eff), GnssStored ch x p.org GNSS_POS_CTL v →
        q { (x.action ⟨p.org, false⟩ .gnss GNSS_POS_CTL v).2 with effs := (x.action ⟨p.org, false⟩ .gnss GNSS_POS_CTL v).2.effs ++ es }) → ActsOn i s c q := by
      have hrow : mayRate i = false ∧ s.clear.effect i = s.clear.writeCh p c .gnss GNSS_POS_CTL v := by
        simp only [List.mem_cons, List.not_mem_nil, or_false] at hi
        rcases hi with rfl | rfl <;> exact ⟨rfl, rfl⟩
      intro q hq
      exact actsOn_gnssCmd (by simp) hrow.1 hrow.2 ho hr hp (Channel.ignores_low _ v (by decide) (by decide)) hq
    refine ⟨fun h31 h30 => cmd fun x es hx => ?_, fun h31 h30 => cmd fun x es hx => ?_, fun h => cmd fun x es hx => ?_⟩
    all_goals
      obtain ⟨hon, hgnss, _, hwords⟩ := hx.facts
      rw [action_posCtl]
      have hspread : x.cur F.GNSS_SURV_STAT_SPREAD = ch.cur F.GNSS_SURV_STAT_SPREAD :=
        cur_of_word F.GNSS_SURV_STAT_SPREAD (hwords GNSS_SURV_STAT (by decide))
    · rw [h31, h30]
      obtain ⟨hsurv, hpos, hmode, hend⟩ := posSet_holds x
      rw [hgnss, hspread] at hend
      rw [posWritten_of fun o _ ho => hwords o ho] at hpos
      exact ⟨onlyIn_effs rfl es (on_posSet rfl hon), ⟨hsurv, fun w hw => List.mem_append_left _ (hend w hw)⟩, hpos, hmode⟩
    · rw [h31, h30]
      obtain ⟨hsurv, hpos, hmode, hend⟩ := posClr_clears x
      rw [hgnss, hspread] at hend
      exact ⟨onlyIn_effs rfl es (on_posClr rfl hon), ⟨hsurv, fun w hw => List.mem_append_left _ (hend w hw)⟩, hpos, hmode⟩
    · rw [if_pos (beq_iff_eq.mpr h)]
      exact ⟨onlyIn_effs rfl es hon, hgnss⟩
  · refine acts_intro hs rfl ?_
    rw [show s.clear.effect (.cmdGnssSurvey slot) = s.clear.surveyCmd slot.val from rfl, surveyCmd_starts (s := s.clear) hm hr hb]
    refine ⟨in_setCh _ _ rfl (in_begin' _ rfl (in_clear rfl (State.onlyIn_refl _ s))), _, ⟨?_, surveyStart_starts _ _⟩, setCh_ch_self _ _ _,
      fun k hk => setCh_ch_ne _ _ hk.symm⟩
    exact on_surveyStart slot.val rfl (Channel.onlyIn_refl _ _)
  · refine acts_intro hs rfl ?_
    rw [show s.clear.effect (.cmdGnssSurvey slot) = s.clear.surveyCmd slot.val from rfl, surveyCmd_begun (s := s.clear) hm hb]
    exact in_clear rfl (State.onlyIn_refl _ s)
  · intro ch i Runs counts
    have run : ∀ {q : Channel → Prop}, q (ch.surveyFix (x, y, z)) → Runs q := acts_prog (fun ch => ch.surveyFix (x, y, z)) hl rfl rfl
    have hon : Channel.onlyIn [.gnss, .asks] ch (ch.surveyFix (x, y, z)) := on_surveyFix _ rfl (Channel.onlyIn_refl _ ch)
    refine ⟨fun v hv => ?_, fun hno => run (surveyFix_idle _ hno)⟩
    intro n sum mean ms sp ends
    exact ⟨fun hc => run ⟨hon, surveyFix_completes hv rfl hc⟩, fun hc => run ⟨hon, surveyFix_goes_on hv rfl hc⟩⟩

end Sys2Proof
end

section
/-! Snapshots (R116 to R118). -/
namespace Sys2Proof.Machine

/-! ### SNAP_CTL -/

section
variable {c : Channel} {v : Word}

theorem ignores_snapCtl (h : 2 ≤ getField v 0 7 ∧ getField v 0 7 ≤ 64) : c.ignores .gnss GNSS_SNAP_CTL v = false := by
  obtain ⟨hlo, hhi⟩ := h
  have hlo' : decide (getField v 0 7 < 2) = false := decide_eq_false (by omega)
  have hhi' : decide (64 < getField v 0 7) = false := decide_eq_false (by omega)
  unfold Channel.ignores
  rw [if_neg (by decide), if_pos ⟨rfl, rfl⟩, hlo', hhi']
  rfl

/-- A write of SNAP_CTL with another LEN leaves the channel as it is. -/
theorem hostWrite_snapCtl_ignored (org : Origin) (h : ¬ (2 ≤ getField v 0 7 ∧ getField v 0 7 ≤ 64)) : c.hostWrite org .gnss GNSS_SNAP_CTL v = c := by
  have hi : c.ignores .gnss GNSS_SNAP_CTL v = true := by
    unfold Channel.ignores
    rw [if_neg (by decide), if_pos ⟨rfl, rfl⟩, Bool.or_eq_true, decide_eq_true_eq, decide_eq_true_eq]
    omega
  have hwrite : c.writeReg ⟨org, false⟩ .gnss GNSS_SNAP_CTL v = (false, c) := by
    unfold Channel.writeReg
    rw [snapCtl_reg]
    simp only [hi, Bool.or_true, Bool.true_or, if_true]
  unfold Channel.hostWrite
  rw [hwrite]
  rfl

/-- The LEN that a write of SNAP_CTL stores. -/
theorem snapCtl_len {x : Channel} {org : Origin} (h : GnssStored c x org GNSS_SNAP_CTL v) : x.cur F.GNSS_SNAP_CTL_LEN = getField v 0 7 := by
  unfold Channel.cur
  rw [show x.word F.GNSS_SNAP_CTL_LEN.blk F.GNSS_SNAP_CTL_LEN.off = _ from h.word snapCtl_reg]
  exact RegSpec.write_rw (f := ⟨0, 7, .rw, 0x2, .any⟩) _ _ _ _ (kb_apart snapCtl_reg) (by simp) (.inl rfl)

theorem snapGo_arms (h : ¬ (c.cur F.GNSS_SNAP_STAT_STATE = SNAP_ARMED ∨ c.cur F.GNSS_SNAP_STAT_STATE = SNAP_CAPTURING ∨
    c.cur F.GNSS_SNAP_STAT_STATE = SNAP_PROCESSING)) : c.snapGo.gnss = { c.gnss with snap := none } ∧ c.snapGo.cur F.GNSS_SNAP_STAT_STATE = SNAP_ARMED ∧
      c.snapGo.cur F.GNSS_SNAP_STAT_ERASED = 0 ∧ c.snapGo.cur F.GNSS_SNAP_CTL_LEN = c.cur F.GNSS_SNAP_CTL_LEN := by
  unfold Channel.snapGo
  rw [if_neg h]
  generalize hx : c.setGnss { c.gnss with snap := none } = x
  have hlen : x.cur F.GNSS_SNAP_CTL_LEN = c.cur F.GNSS_SNAP_CTL_LEN := by subst hx; exact cur_setGnss _ _ _
  refine ⟨by subst hx; rfl, cur_put_put x F.GNSS_SNAP_STAT_STATE F.GNSS_SNAP_STAT_ERASED SNAP_ARMED 0 (by decide) (by decide) (by decide) (by decide),
    Channel.cur_put_lt _ _ _ (by decide) (by decide), ?_⟩
  rw [cur_put_ne _ _ _ _ (by decide) (by decide), cur_put_ne _ _ _ _ (by decide) (by decide), hlen]

theorem snapGo_busy (h : c.cur F.GNSS_SNAP_STAT_STATE = SNAP_ARMED ∨ c.cur F.GNSS_SNAP_STAT_STATE = SNAP_CAPTURING ∨
    c.cur F.GNSS_SNAP_STAT_STATE = SNAP_PROCESSING) : c.snapGo.gnss = c.gnss ∧
      c.snapGo.cur F.GNSS_SNAP_STAT_STATE = c.cur F.GNSS_SNAP_STAT_STATE ∧ c.snapGo.cur F.GNSS_SNAP_STAT_BUSY = 1 := by
  have e : c.snapGo = c.evt F.GNSS_SNAP_STAT_BUSY := if_pos h
  rw [e]
  exact ⟨rfl, cur_evt_bit c _ _ (by decide) (.inl (by decide)), cur_evt _ _ rfl (by decide)⟩

end

/-- A write of SNAP_CTL that counts acts on the channel with the word stored. -/
theorem actsOn_snapCtl {s : State} {p : HostPath} {c : ChanIx} {v : Word} (ho : s.open p) (hr : s.running c = true)
    (hp : s.ch[c].hasPart .gnss GNSS_SNAP_CTL = true) (h : 2 ≤ getField v 0 7 ∧ getField v 0 7 ≤ 64) {q : Channel → Prop}
    (hq : ∀ (x : Channel) (es : List Eff), GnssStored s.ch[c] x p.org GNSS_SNAP_CTL v →
      x.cur F.GNSS_SNAP_STAT_STATE = s.ch[c].cur F.GNSS_SNAP_STAT_STATE →
      q { (if bit v 31 = true then x.snapGo else x) with effs := (if bit v 31 = true then x.snapGo else x).effs ++ es }) : ActsOn (.snapGo p c v) s c q :=
  actsOn_gnssCmd (by simp) rfl rfl ho hr hp (ignores_snapCtl h) fun x es hx => by
    rw [action_snapCtl]
    obtain ⟨_, _, _, hwords⟩ := hx.facts
    exact hq x es hx (cur_of_word _ (hwords _ (by decide)))

theorem snapComplete_waits {c : Channel} (h : ∀ x, c.gnss.snap = some x → c.cur F.GNSS_SNAP_STAT_STATE = SNAP_CAPTURING → x.frames.length < x.len * 100) :
    c.snapComplete = c := by
  unfold Channel.snapComplete
  split
  · next x hx => exact if_neg fun hfull => Nat.not_le.mpr (h x hx hfull.1) hfull.2
  · rfl

theorem snapCmd_running {s : State} {slot : ℕ} {m : CmdSt} (ms : List SatMeas) (hm : s.running? slot 7 = some m) :
    s.snapCmd slot ms = s.onCh m.chan (fun ch => ch.snapProcess slot ms) := by
  unfold State.snapCmd
  rw [hm]

end Sys2Proof.Machine

namespace Sys2Proof
open Sys2Proof.Machine

/-- Settles O31: the write of SNAP_CTL, the start and the end of a capture, and the processing command. -/
theorem snapshotsAreCapturedAndProcessed : Obligations.SnapshotsAreCapturedAndProcessed := by
  refine ⟨fun s p c v ho hr hp => ?_, fun s c ps hl => ?_, fun s slot ms m hs hm hr => ?_⟩
  · intro ch i fr len st legal takes busy
    refine ⟨fun ⟨hv, hlen⟩ hb => actsOn_snapCtl ho hr hp hlen fun x es hx hst => ?_, fun ⟨hv, hlen⟩ hb => actsOn_snapCtl ho hr hp hlen fun x es hx hst => ?_,
      fun hlen hv => actsOn_snapCtl ho hr hp hlen fun x es hx hst => ?_, fun hno => ?_⟩
    · obtain ⟨hon, hgnss, _⟩ := hx.facts
      obtain ⟨hg, harmed, herased, hl⟩ := snapGo_arms (c := x) (by rw [hst]; exact hb)
      rw [hgnss] at hg
      rw [if_pos hv]
      exact ⟨onlyIn_effs rfl es (on_snapGo rfl hon), hg, harmed, herased, hl.trans (snapCtl_len hx)⟩
    · obtain ⟨hon, hgnss, _⟩ := hx.facts
      obtain ⟨hg, hstays, hbusy⟩ := snapGo_busy (c := x) (by rw [hst]; exact hb)
      rw [if_pos hv]
      exact ⟨onlyIn_effs rfl es (on_snapGo rfl hon), hg.trans hgnss, hstays.trans hst, hbusy⟩
    · obtain ⟨hon, hgnss, _⟩ := hx.facts
      rw [if_neg (by rw [hv]; decide)]
      exact ⟨onlyIn_effs rfl es hon, hgnss, (Channel.cur_asking x _ _).trans hst, (Channel.cur_asking x _ _).trans (snapCtl_len hx)⟩
    · refine actsOn_write .gnss GNSS_SNAP_CTL v rfl rfl ho hr (by decide) (by decide) (by decide) ?_
      rw [hostWrite_snapCtl_ignored p.org hno]
      exact ⟨Channel.onlyIn_refl _ _, rfl, rfl⟩
  · intro ch t st starts
    have start : ∀ {q : Channel → Prop}, q (ch.snapStart ps) → ActsOn (.snapCaptureStart c ps) s c q := actsOn_intro (fun ch => ch.snapStart ps) hl rfl rfl
    have complete : ∀ {q : Channel → Prop}, q ch.snapComplete → ActsOn (.snapCaptureComplete c) s c q := actsOn_intro (fun ch => ch.snapComplete) hl rfl rfl
    refine ⟨fun h => start ⟨on_snapStart ps rfl (Channel.onlyIn_refl _ ch), ?_⟩, fun h => start (if_neg h),
      fun x hx hst hn => complete ⟨on_snapComplete rfl (Channel.onlyIn_refl _ ch), ?_⟩, fun h => complete (snapComplete_waits h)⟩
    · obtain ⟨d, hd, hstate, x, hx⟩ := snapStart_facts ch ps h
      rw [hd]
      exact ⟨hstate, x, hx⟩
    · obtain ⟨d, hd, hgnss, hstate, hevt⟩ := snapComplete_facts ch x hx ⟨hst, hn⟩
      rw [hd]
      exact ⟨hgnss, hstate, hevt⟩
  · intro ch i fr waits can
    have process : ∀ {q : Channel → Prop}, q (ch.snapProcess slot.val ms) → ActsOn i s m.chan q :=
      actsOn_intro (fun ch => ch.snapProcess slot.val ms) ⟨hs, hr⟩ rfl (snapCmd_running (s := s.clear) ms hm)
    have hon : fr (ch.snapProcess slot.val ms) := on_snapProcess slot.val ms rfl (Channel.onlyIn_refl _ ch)
    obtain ⟨d, hd, hwaits, hcan, hfails⟩ := snapProcess_facts ch slot.val ms
    rw [hd] at process hon
    exact ⟨fun h => process (hwaits h), fun x hw hx => process ⟨hon, hcan hw x hx⟩, fun hw hno => process ⟨hon, hfails hw hno⟩⟩

end Sys2Proof
end

section
/-! Notch filters: their states, their lines, and the spacing of LOCKED ones (R105). -/
namespace Sys2Proof.Machine

/-! ### The registers of the notches -/

theorem notchSt_of_word {c d : Channel} {j : ℕ} (h : d.word .gnss (GNSS_NOTCH_STAT j) = c.word .gnss (GNSS_NOTCH_STAT j)) : d.notchSt j = c.notchSt j :=
  cur_of_word (F.GNSS_NOTCH_STAT_STATE j) h

theorem notchFreq_of_word {c d : Channel} {j : Fin 4} (h : d.word .gnss (GNSS_NOTCH_STAT j.val) = c.word .gnss (GNSS_NOTCH_STAT j.val)) :
    d.notchFreq j = c.notchFreq j := congrArg (signed 27) (cur_of_word (F.GNSS_NOTCH_STAT_FREQ j.val) h)

/-- The notches beside `k` show what they showed. -/
def OthersStay (k : Fin 4) (c d : Channel) : Prop :=
  ∀ j : Fin 4, j ≠ k → d.word .gnss (GNSS_NOTCH_STAT j.val) = c.word .gnss (GNSS_NOTCH_STAT j.val)

theorem OthersStay.refl (k : Fin 4) (c : Channel) : OthersStay k c c := fun _ _ => rfl

theorem OthersStay.trans {k : Fin 4} {a b c : Channel} (h : OthersStay k a b) (g : OthersStay k b c) : OthersStay k a c :=
  fun j hj => (g j hj).trans (h j hj)

theorem othersStay_put (c : Channel) (k : Fin 4) (f : KF) (v : ℕ) (hf : f.off = GNSS_NOTCH_STAT k.val) : OthersStay k c (c.put f v) := fun j hj => by
  refine word_putF_ne c f v .gnss _ (.inr ?_)
  rw [hf]
  unfold GNSS_NOTCH_STAT
  have : j.val ≠ k.val := fun e => hj (Fin.ext e)
  omega

/-- A notch in another state. -/
theorem notchTo_facts (c : Channel) (k : Fin 4) {st f : ℕ} (hs : st < 4) (hf : f < 2 ^ 27) : ∃ d, c.notchTo k st f = d ∧ d.notchSt k.val = st ∧
    d.cur (F.GNSS_NOTCH_STAT_FREQ k.val) = f ∧ OthersStay k c d ∧ (c.notchSt k.val ≠ st → d.cur F.GNSS_EVT_NOTCH = 1) ∧
    (Channel.notchOn (c.notchSt k.val) = false → d.gnss = { c.gnss with notchLow := c.gnss.notchLow.set k none }) := by
  have hothers := (othersStay_put c k (F.GNSS_NOTCH_STAT_STATE k.val) st rfl).trans (othersStay_put _ k (F.GNSS_NOTCH_STAT_FREQ k.val) f rfl)
  obtain ⟨x, hx, hst, hfreq, hgnss⟩ := notchPuts c k.val st f hs hf
  rw [hx] at hothers
  refine ⟨_, rfl, ?_⟩
  unfold Channel.notchTo
  dsimp only
  rw [hx, hgnss]
  generalize hy : x.setGnss _ = y
  have hst2 : y.notchSt k.val = st := by rw [← hy]; exact hst
  have hfreq2 : y.cur (F.GNSS_NOTCH_STAT_FREQ k.val) = f := by rw [← hy]; exact hfreq
  have hothers2 : OthersStay k c y := by rw [← hy]; exact hothers
  have hg2 : Channel.notchOn (c.notchSt k.val) = false → y.gnss = { c.gnss with notchLow := c.gnss.notchLow.set k none } := fun h => by
    rw [← hy]
    simp only [h, Channel.setGnss, Bool.false_eq_true, if_false]
  clear hy
  split
  · next he => exact ⟨hst2, hfreq2, hothers2, fun hne => absurd he hne, hg2⟩
  · obtain ⟨est, efreq, eevt⟩ := notchEvt y k.val
    refine ⟨est.trans hst2, efreq.trans hfreq2, fun j hj => ?_, fun _ => eevt, hg2⟩
    rw [Channel.word_evt_ne y F.GNSS_EVT_NOTCH .gnss _ (.inr (by show 0x94 ≠ 0xA4 + 0x8 * j.val; omega))]
    exact hothers2 j hj

/-! ### LOCKED notches are apart -/

/-- Of the notches below `n` two LOCKED ones are more than 50 kHz apart. -/
def ApartBelow (n : ℕ) (c : Channel) : Prop :=
  ∀ i j : Fin 4, i < j → j.val < n → c.notchSt i.val = NOTCH_LOCKED → c.notchSt j.val = NOTCH_LOCKED → 50000 < (c.notchFreq i - c.notchFreq j).natAbs

/-- Two LOCKED notches are more than 50 kHz apart. -/
def NotchesApart (c : Channel) : Prop :=
  ∀ i j : Fin 4, i < j → c.notchSt i.val = NOTCH_LOCKED → c.notchSt j.val = NOTCH_LOCKED → 50000 < (c.notchFreq i - c.notchFreq j).natAbs

/-- A change of the notch `k` keeps them apart where `k`, if LOCKED, is apart from the others. -/
theorem NotchesApart.change {c d : Channel} {k : Fin 4} (ha : NotchesApart c) (ho : OthersStay k c d)
    (hk : d.notchSt k.val = NOTCH_LOCKED → ∀ j : Fin 4, j ≠ k → c.notchSt j.val = NOTCH_LOCKED → 50000 < (c.notchFreq j - d.notchFreq k).natAbs) :
    NotchesApart d := by
  intro i j hij hi hj
  by_cases hik : i = k
  · subst hik
    have hne : j ≠ i := (ne_of_lt hij).symm
    have := hk hi j hne ((notchSt_of_word (ho j hne)).symm.trans hj)
    rw [notchFreq_of_word (ho j hne)]
    omega
  have hi' := (notchSt_of_word (ho i hik)).symm.trans hi
  rw [notchFreq_of_word (ho i hik)]
  by_cases hjk : j = k
  · subst hjk
    exact hk hj i hik hi'
  · rw [notchFreq_of_word (ho j hjk)]
    exact ha i j hij hi' ((notchSt_of_word (ho j hjk)).symm.trans hj)

/-- What the rule of 50 kHz does to one notch. -/
def Channel.notchPart (c : Channel) (k : Fin 4) : Channel :=
  if c.notchSt k.val = NOTCH_LOCKED ∧ (List.finRange 4).any (fun j => decide (j.val < k.val) && c.notchSt j.val == NOTCH_LOCKED &&
    decide ((c.notchFreq j - c.notchFreq k).natAbs ≤ 50000)) then c.notchTo k NOTCH_SEARCH 0 else c

theorem notchApart_eq (c : Channel) : c.notchApart = (List.finRange 4).foldl Channel.notchPart c := rfl

theorem notchPart_apart {c : Channel} {k : Fin 4} (h : ApartBelow k.val c) : ApartBelow (k.val + 1) (c.notchPart k) := by
  intro i j hij hj hi' hj'
  unfold Channel.notchPart at hi' hj' ⊢
  split at hi'
  · next hit =>
    rw [if_pos hit] at hj' ⊢
    obtain ⟨d, hd, hst, _, ho, _⟩ := notchTo_facts c k (show NOTCH_SEARCH < 4 by decide) (show 0 < 2 ^ 27 by decide)
    rw [hd] at hi' hj' ⊢
    have hjk : j ≠ k := fun e => by
      rw [e, hst] at hj'
      exact absurd hj' (by decide)
    have hlt : j.val < k.val := by
      have : j.val ≠ k.val := fun e => hjk (Fin.ext e)
      omega
    have hik : i ≠ k := fun e => by
      have : i.val < j.val := hij
      rw [e] at this
      omega
    rw [notchFreq_of_word (ho i hik), notchFreq_of_word (ho j hjk)]
    exact h i j hij hlt ((notchSt_of_word (ho i hik)).symm.trans hi') ((notchSt_of_word (ho j hjk)).symm.trans hj')
  · next hno =>
    rw [if_neg hno] at hj' ⊢
    by_cases hjk : j = k
    · subst hjk
      by_contra hnear
      refine hno ⟨hj', List.any_eq_true.mpr ⟨i, List.mem_finRange i, ?_⟩⟩
      have hlt : i.val < j.val := hij
      simp [hlt, hi', Nat.not_lt.mp hnear]
    · have : j.val ≠ k.val := fun e => hjk (Fin.ext e)
      exact h i j hij (by omega) hi' hj'

theorem notchApart_apart (c : Channel) : NotchesApart c.notchApart := by
  have h0 : ApartBelow 0 c := fun _ _ _ h => absurd h (Nat.not_lt_zero _)
  have h1 : ApartBelow 1 (c.notchPart 0) := notchPart_apart (k := 0) h0
  have h2 : ApartBelow 2 ((c.notchPart 0).notchPart 1) := notchPart_apart (k := 1) h1
  have h3 : ApartBelow 3 (((c.notchPart 0).notchPart 1).notchPart 2) := notchPart_apart (k := 2) h2
  have h4 : ApartBelow 4 ((((c.notchPart 0).notchPart 1).notchPart 2).notchPart 3) := notchPart_apart (k := 3) h3
  exact fun i j hij => h4 i j hij j.isLt

theorem notchPart_self {c : Channel} (ha : NotchesApart c) (k : Fin 4) : c.notchPart k = c := by
  refine if_neg fun ⟨hk, hany⟩ => ?_
  obtain ⟨j, _, hj⟩ := List.any_eq_true.mp hany
  simp only [Bool.and_eq_true, decide_eq_true_eq, beq_iff_eq] at hj
  obtain ⟨⟨hlt, hst⟩, hnear⟩ := hj
  exact absurd (ha j k hlt hst hk) (Nat.not_lt.mpr hnear)

theorem notchApart_self {c : Channel} (ha : NotchesApart c) : c.notchApart = c := by
  rw [notchApart_eq]
  exact List.foldl_fixed' (notchPart_self ha) _

/-! ### The line of a notch -/

/-- The nearer of two lines to a frequency. -/
def nearer (f : Int) (a : Option (Int × ℕ)) (l : Int × ℕ) : Option (Int × ℕ) :=
  match a with
  | none => some l
  | some b => if (l.1 - f).natAbs < (b.1 - f).natAbs then some l else some b

/-- The line `l` is the nearest of `lines` to a frequency. -/
def IsNearest (f : Int) (lines : List (Int × ℕ)) (l : Int × ℕ) : Prop :=
  l ∈ lines ∧ ∀ x ∈ lines, x ≠ l → (l.1 - f).natAbs < (x.1 - f).natAbs

theorem nearest_from {f : Int} {l : Int × ℕ} (lines : List (Int × ℕ)) (a : Option (Int × ℕ)) (hn : ∀ x ∈ lines, x ≠ l → (l.1 - f).natAbs < (x.1 - f).natAbs)
    (ha : a = some l ∨ l ∈ lines ∧ ∀ b, a = some b → (l.1 - f).natAbs < (b.1 - f).natAbs) : lines.foldl (nearer f) a = some l := by
  induction lines generalizing a with
  | nil => exact ha.resolve_right fun h => absurd h.1 (List.not_mem_nil)
  | cons x xs ih =>
    refine ih (nearer f a x) (fun y hy => hn y (List.mem_cons_of_mem _ hy)) ?_
    by_cases hx : x = l
    · left
      subst hx
      rcases ha with rfl | ⟨_, hb⟩
      · exact if_neg (lt_irrefl _)
      · cases a with
        | none => rfl
        | some b => exact if_pos (hb b rfl)
    · have hfar := hn x List.mem_cons_self hx
      rcases ha with rfl | ⟨hl, hb⟩
      · exact .inl (if_neg (by omega))
      · refine .inr ⟨(List.mem_cons.mp hl).resolve_left (Ne.symm hx), fun b he => ?_⟩
        cases a with
        | none => rw [← Option.some.inj he]; exact hfar
        | some b' =>
          rcases ite_eq_iff.mp he with ⟨_, e⟩ | ⟨_, e⟩
          · rw [← Option.some.inj e]; exact hfar
          · rw [← Option.some.inj e]; exact hb b' rfl

theorem nearest_eq {f : Int} {lines : List (Int × ℕ)} {l : Int × ℕ} (h : IsNearest f lines l) : lines.foldl (nearer f) none = some l :=
  nearest_from lines none h.2 (.inr ⟨h.1, fun _ he => absurd he (by simp)⟩)

theorem linesOver_thr {c : Channel} {lines : List (Int × ℕ)} {l : Int × ℕ} (h : l ∈ (c.linesOver lines).take 4) : c.fld F.GNSS_JAM_CFG_THR ≤ l.2 := by
  have hmem : l ∈ lines.filter (fun l => decide (c.fld F.GNSS_JAM_CFG_THR ≤ l.2)) := (List.mem_insertionSort _).mp (List.mem_of_mem_take h)
  exact of_decide_eq_true (List.mem_filter.mp hmem).2

section
variable {c : Channel} {k : Fin 4} {lines : List (Int × ℕ)} {l : Int × ℕ}

/-- No other notch holds the line. -/
def Channel.freeLine (c : Channel) (k : Fin 4) (l : Int × ℕ) : Bool :=
  !(List.finRange 4).any (fun j => j != k && Channel.notchOn (c.notchSt j.val) && c.notchFreq j == l.1)

theorem notchTake_other (h : c.notchSt k.val ≠ NOTCH_SEARCH) : c.notchTake k lines = c := by
  unfold Channel.notchTake
  dsimp only
  split
  · exact if_neg h
  · rfl

theorem notchTake_line (h : c.notchSt k.val = NOTCH_SEARCH) (hf : ((c.linesOver lines).take 4).find? (c.freeLine k) = some l) :
    c.notchTake k lines = c.notchTo k NOTCH_LOCKED (unsigned 27 l.1) := by
  unfold Channel.notchTake
  extract_lets free
  rw [show ((c.linesOver lines).take 4).find? free = some l from hf]
  exact if_pos h

theorem notchTake_none (hf : ((c.linesOver lines).take 4).find? (c.freeLine k) = none) : c.notchTake k lines = c := by
  unfold Channel.notchTake
  extract_lets free
  rw [show ((c.linesOver lines).take 4).find? free = none from hf]

/-- The channel whose notch `k` has a line below THR since the tick `t`, or above it. -/
def Channel.notchSince (c : Channel) (k : Fin 4) (t : Option ℕ) : Channel := c.setGnss { c.gnss with notchLow := c.gnss.notchLow.set k t }

theorem notchFollow_other (h : c.notchSt k.val ≠ NOTCH_LOCKED) : c.notchFollow k lines = c := if_pos h

theorem notchFollow_near (h : c.notchSt k.val = NOTCH_LOCKED) (hl : IsNearest (c.notchFreq k) lines l) : c.notchFollow k lines =
    if l.2 < c.fld F.GNSS_JAM_CFG_THR then c.notchSince k (some ((c.gnss.notchLow[k]).getD c.jour.tick))
    else if ((c.linesOver lines).take 4).contains l = true then (c.put (F.GNSS_NOTCH_STAT_FREQ k.val) (unsigned 27 l.1)).notchSince k none
    else c.notchTo k NOTCH_SEARCH 0 := by
  unfold Channel.notchFollow
  extract_lets f near g low
  have hnear : near = some l := nearest_eq hl
  rw [if_neg (not_not.mpr h), hnear]
  rfl

/-- The line lies below THR, or there is none. -/
theorem notchFollow_low (h : c.notchSt k.val = NOTCH_LOCKED)
    (hlow : lines = [] ∨ ∃ l, IsNearest (c.notchFreq k) lines l ∧ l.2 < c.fld F.GNSS_JAM_CFG_THR) :
    c.notchFollow k lines = c.notchSince k (some ((c.gnss.notchLow[k]).getD c.jour.tick)) := by
  rcases hlow with rfl | ⟨l, hl, hthr⟩
  · exact if_neg (not_not.mpr h)
  · rw [notchFollow_near h hl, if_pos hthr]

theorem notchFollow_line (h : c.notchSt k.val = NOTCH_LOCKED) (hl : IsNearest (c.notchFreq k) lines l) (htop : l ∈ (c.linesOver lines).take 4) :
    c.notchFollow k lines = (c.put (F.GNSS_NOTCH_STAT_FREQ k.val) (unsigned 27 l.1)).notchSince k none := by
  rw [notchFollow_near h hl, if_neg (Nat.not_lt.mpr (linesOver_thr htop)), if_pos (List.contains_iff_mem.mpr htop)]

theorem notchFollow_lets (h : c.notchSt k.val = NOTCH_LOCKED) (hl : IsNearest (c.notchFreq k) lines l) (hthr : c.fld F.GNSS_JAM_CFG_THR ≤ l.2)
    (htop : l ∉ (c.linesOver lines).take 4) : c.notchFollow k lines = c.notchTo k NOTCH_SEARCH 0 := by
  rw [notchFollow_near h hl, if_neg (Nat.not_lt.mpr hthr), if_neg fun hc => htop (List.contains_iff_mem.mp hc)]

end

/-! ### Locking and releasing (R105) -/

theorem signed_unsigned_27 {f : Int} (h : -2 ^ 26 ≤ f ∧ f < 2 ^ 26) : signed 27 (unsigned 27 f) = f := by
  unfold signed unsigned
  dsimp only
  split <;> omega

/-- A frequency that the register holds, more than 50 kHz from every other LOCKED notch. -/
def FarFrom (c : Channel) (k : Fin 4) (f : Int) : Prop :=
  (-2 ^ 26 ≤ f ∧ f < 2 ^ 26) ∧ ∀ j : Fin 4, j ≠ k → c.notchSt j.val = NOTCH_LOCKED → 50000 < (c.notchFreq j - f).natAbs

/-- A notch set to such a frequency keeps the LOCKED ones apart. -/
theorem NotchesApart.far {c d : Channel} {k : Fin 4} {f : Int} (ha : NotchesApart c) (ho : OthersStay k c d)
    (hd : d.cur (F.GNSS_NOTCH_STAT_FREQ k.val) = unsigned 27 f) (hf : FarFrom c k f) : NotchesApart d := by
  have hfreq : d.notchFreq k = f := by
    unfold Channel.notchFreq
    rw [hd, signed_unsigned_27 hf.1]
  exact ha.change ho fun _ j hj hlock => by rw [hfreq]; exact hf.2 j hj hlock

/-- A notch that is not LOCKED is apart from all. -/
theorem NotchesApart.unlocked {c d : Channel} {k : Fin 4} (ha : NotchesApart c) (ho : OthersStay k c d) (hd : d.notchSt k.val ≠ NOTCH_LOCKED) :
    NotchesApart d := ha.change ho fun h => absurd h hd

theorem notchSince_st (c : Channel) (k : Fin 4) (t : Option ℕ) (j : ℕ) : (c.notchSince k t).notchSt j = c.notchSt j := cur_setGnss c _ _

theorem NotchesApart.since {c : Channel} (ha : NotchesApart c) (k : Fin 4) (t : Option ℕ) : NotchesApart (c.notchSince k t) := ha

section
variable {c : Channel} {k : Fin 4} {lines : List (Int × ℕ)} {l : Int × ℕ}

theorem notchLock_stays (h : c.notchFollow k lines = c) (ht : c.notchTake k lines = c) (ha : NotchesApart c) : c.notchLock k lines = c := by
  unfold Channel.notchLock
  rw [h, ht, notchApart_self ha]

theorem notchRelease_stays (h : c.notchSt k.val ≠ NOTCH_LOCKED) (ha : NotchesApart c) : c.notchRelease k lines = c := by
  unfold Channel.notchRelease
  dsimp only
  rw [notchFollow_other h, notchApart_self ha]
  exact if_neg fun hc => h hc.1

/-- The notch is LOCKED after the line was followed, and apart: nothing more to lock. -/
theorem notchLock_follows {d : Channel} (h : c.notchFollow k lines = d) (hst : d.notchSt k.val = NOTCH_LOCKED) (ha : NotchesApart d) :
    c.notchLock k lines = d := by
  unfold Channel.notchLock
  rw [h, notchTake_other (by rw [hst]; decide), notchApart_self ha]

/-- What a release adds to the line's following. -/
theorem notchRelease_follows {d : Channel} (h : c.notchFollow k lines = d) (ha : NotchesApart d) : c.notchRelease k lines =
    if d.notchSt k.val = NOTCH_LOCKED ∧ d.gnss.notchLow[k].any (fun t => decide (t + 20000000 ≤ c.jour.tick)) = true then d.notchTo k NOTCH_SEARCH 0 else d := by
  unfold Channel.notchRelease
  dsimp only
  rw [h, notchApart_self ha]

/-- A notch that follows its line shows the line's frequency. -/
theorem notchLine_facts (c : Channel) (k : Fin 4) (f : Int) :
    ∃ d, (c.put (F.GNSS_NOTCH_STAT_FREQ k.val) (unsigned 27 f)).notchSince k none = d ∧ OthersStay k c d ∧ d.notchSt k.val = c.notchSt k.val ∧
      d.cur (F.GNSS_NOTCH_STAT_FREQ k.val) = unsigned 27 f ∧ d.gnss = { c.gnss with notchLow := c.gnss.notchLow.set k none } := by
  have hothers := othersStay_put c k (F.GNSS_NOTCH_STAT_FREQ k.val) (unsigned 27 f) rfl
  have hst := cur_put_ne c (F.GNSS_NOTCH_STAT_FREQ k.val) (F.GNSS_NOTCH_STAT_STATE k.val) (unsigned 27 f) (by show 0 + 27 ≤ 32; decide)
    (.inr (.inr (.inl (by show 0 + 27 ≤ 30; decide))))
  have hfreq := Channel.cur_put_lt c (F.GNSS_NOTCH_STAT_FREQ k.val) (unsigned 27 f) (by show 0 + 27 ≤ 32; decide) (unsigned_lt 27 f)
  have hgnss := Channel.put_gnss c (F.GNSS_NOTCH_STAT_FREQ k.val) (unsigned 27 f)
  generalize c.put (F.GNSS_NOTCH_STAT_FREQ k.val) (unsigned 27 f) = x at *
  exact ⟨_, rfl, hothers, hst, hfreq, by rw [← hgnss]; rfl⟩

/-- Either command leaves a LOCKED notch on its line. -/
theorem notch_follows (h : c.notchSt k.val = NOTCH_LOCKED) (ha : NotchesApart c) (hl : IsNearest (c.notchFreq k) lines l)
    (htop : l ∈ (c.linesOver lines).take 4) (hf : FarFrom c k l.1) : ∃ d, c.notchLock k lines = d ∧ c.notchRelease k lines = d ∧ OthersStay k c d ∧
      d.notchSt k.val = NOTCH_LOCKED ∧ d.cur (F.GNSS_NOTCH_STAT_FREQ k.val) = unsigned 27 l.1 ∧
      d.gnss = { c.gnss with notchLow := c.gnss.notchLow.set k none } := by
  have hfollow := notchFollow_line h hl htop
  obtain ⟨d, hd, hothers, hst, hfreq, hgnss⟩ := notchLine_facts c k l.1
  rw [hd] at hfollow
  have hlock := hst.trans h
  have hapart := ha.far hothers hfreq hf
  refine ⟨d, notchLock_follows hfollow hlock hapart, ?_, hothers, hlock, hfreq, hgnss⟩
  have hlow : d.gnss.notchLow[k] = none := by
    rw [hgnss]
    exact vset_self c.gnss.notchLow k none
  rw [notchRelease_follows hfollow hapart, hlow]
  exact if_neg fun hc => Bool.false_ne_true hc.2

/-- A SEARCH notch with a free line locks on it. -/
theorem notchLock_takes (h : c.notchSt k.val = NOTCH_SEARCH) (ha : NotchesApart c) (hfree : ((c.linesOver lines).take 4).find? (c.freeLine k) = some l)
    (hf : FarFrom c k l.1) : ∃ d, c.notchLock k lines = d ∧ OthersStay k c d ∧ d.notchSt k.val = NOTCH_LOCKED ∧
      d.cur (F.GNSS_NOTCH_STAT_FREQ k.val) = unsigned 27 l.1 ∧ d.cur F.GNSS_EVT_NOTCH = 1 ∧
      d.gnss = { c.gnss with notchLow := c.gnss.notchLow.set k none } := by
  obtain ⟨d, hd, hst, hfreq, hothers, hevt, hgnss⟩ := notchTo_facts c k (show NOTCH_LOCKED < 4 by decide) (unsigned_lt 27 l.1)
  refine ⟨d, ?_, hothers, hst, hfreq, hevt (by rw [h]; decide), hgnss (by rw [h]; decide)⟩
  unfold Channel.notchLock
  rw [notchFollow_other (by rw [h]; decide), notchTake_line h hfree, hd, notchApart_self (ha.far hothers hfreq hf)]

/-- The notch is in SEARCH, its FREQ 0, and the event shows it. -/
def LetsGo (k : Fin 4) (c d : Channel) : Prop :=
  OthersStay k c d ∧ d.notchSt k.val = NOTCH_SEARCH ∧ d.cur (F.GNSS_NOTCH_STAT_FREQ k.val) = 0 ∧ d.cur F.GNSS_EVT_NOTCH = 1

theorem notchTo_lets (h : c.notchSt k.val = NOTCH_LOCKED) : LetsGo k c (c.notchTo k NOTCH_SEARCH 0) := by
  obtain ⟨d, hd, hst, hfreq, hothers, hevt, _⟩ := notchTo_facts c k (show NOTCH_SEARCH < 4 by decide) (show 0 < 2 ^ 27 by decide)
  rw [hd]
  exact ⟨hothers, hst, hfreq, hevt (by rw [h]; decide)⟩

/-- A line that is none of the four strongest lets its notch go at once. -/
theorem notchRelease_line (h : c.notchSt k.val = NOTCH_LOCKED) (ha : NotchesApart c) (hl : IsNearest (c.notchFreq k) lines l)
    (hthr : c.fld F.GNSS_JAM_CFG_THR ≤ l.2) (htop : l ∉ (c.linesOver lines).take 4) : LetsGo k c (c.notchRelease k lines) := by
  have hlets := notchTo_lets h
  have hst : (c.notchTo k NOTCH_SEARCH 0).notchSt k.val ≠ NOTCH_LOCKED := by rw [hlets.2.1]; decide
  rw [notchRelease_follows (notchFollow_lets h hl hthr htop) (ha.unlocked hlets.1 hst), if_neg fun hc => hst hc.1]
  exact hlets

theorem LetsGo.since {d : Channel} {t : Option ℕ} (h : LetsGo k (c.notchSince k t) d) : LetsGo k c d := ⟨fun j hj => h.1 j hj, h.2⟩

theorem notchSince_low (c : Channel) (k : Fin 4) (t : ℕ) : (c.notchSince k (some t)).gnss.notchLow[k] = some t := vset_self c.gnss.notchLow k (some t)

/-- A line below THR for 100 ms lets its notch go. -/
theorem notchRelease_low (h : c.notchSt k.val = NOTCH_LOCKED) (ha : NotchesApart c)
    (hlow : lines = [] ∨ ∃ l, IsNearest (c.notchFreq k) lines l ∧ l.2 < c.fld F.GNSS_JAM_CFG_THR)
    (ht : (c.gnss.notchLow[k]).getD c.jour.tick + 20000000 ≤ c.jour.tick) : LetsGo k c (c.notchRelease k lines) := by
  rw [notchRelease_follows (notchFollow_low h hlow) (ha.since _ _), notchSince_low, Option.any_some,
    if_pos ⟨(notchSince_st c k _ k.val).trans h, decide_eq_true ht⟩]
  exact (notchTo_lets ((notchSince_st c k _ k.val).trans h)).since

/-- Until then either command leaves the notch and notes since when its line is low. -/
theorem notch_low_waits (h : c.notchSt k.val = NOTCH_LOCKED) (ha : NotchesApart c)
    (hlow : lines = [] ∨ ∃ l, IsNearest (c.notchFreq k) lines l ∧ l.2 < c.fld F.GNSS_JAM_CFG_THR)
    (ht : c.jour.tick < (c.gnss.notchLow[k]).getD c.jour.tick + 20000000) :
    c.notchLock k lines = c.notchSince k (some ((c.gnss.notchLow[k]).getD c.jour.tick)) ∧
    c.notchRelease k lines = c.notchSince k (some ((c.gnss.notchLow[k]).getD c.jour.tick)) := by
  have hfollow := notchFollow_low h hlow
  refine ⟨notchLock_follows hfollow ((notchSince_st c k _ k.val).trans h) (ha.since _ _), ?_⟩
  rw [notchRelease_follows hfollow (ha.since _ _), notchSince_low, Option.any_some]
  exact if_neg fun hc => absurd (of_decide_eq_true hc.2) (Nat.not_le.mpr ht)

theorem notchLock_apart (c : Channel) (k : Fin 4) (lines : List (Int × ℕ)) : NotchesApart (c.notchLock k lines) := notchApart_apart _

theorem notchRelease_apart (c : Channel) (k : Fin 4) (lines : List (Int × ℕ)) : NotchesApart (c.notchRelease k lines) := by
  unfold Channel.notchRelease
  dsimp only
  have ha := notchApart_apart (c.notchFollow k lines)
  split
  · next hc =>
    obtain ⟨hothers, hst, _⟩ := notchTo_lets hc.1
    exact ha.unlocked hothers (by rw [hst]; decide)
  · exact ha

end
end Sys2Proof.Machine
end

section
/-! The jamming indicator and the capture of its floor (R107, R108), and notches and jamming together (R105 to R108). -/
namespace Sys2Proof.Machine

/-- The indicator of a millisecond: its mean AGC byte less the floor plus PQ, within 0 and 255. -/
def Channel.jni (c : Channel) (idle : Byte) (pq : ℕ) : ℕ :=
  (min 255 (max 0 ((Channel.agcMean idle c.gnss.agcMs : Int) - c.cur F.GNSS_JAM_CFG_FLOOR + pq))).toNat

theorem jni_lt (c : Channel) (idle : Byte) (pq : ℕ) : c.jni idle pq < 2 ^ 8 := by
  unfold Channel.jni
  omega

/-- An event that a threshold raises. -/
theorem evt_threshold (c : Channel) (f : KF) (p : Prop) [Decidable p] (hw : f.w = 1) (hl : f.lsb < 32) :
    ∃ d, (if p then c.evt f else c) = d ∧ d.gnss = c.gnss ∧ (p → d.cur f = 1) ∧ ∀ g : KF, g.off ≠ f.off ∨ g.lsb + g.w ≤ f.lsb → d.cur g = c.cur g := by
  by_cases hp : p
  · refine ⟨_, if_pos hp, rfl, fun _ => cur_evt c f hw hl, fun g hg => ?_⟩
    rcases hg with hg | hg
    · exact Channel.cur_evt_ne c f g (.inr hg.symm)
    · exact cur_evt_bit c f g hl (.inr hg)
  · exact ⟨c, if_neg hp, rfl, fun h => absurd h hp, fun _ _ => rfl⟩

section
variable {c : Channel}

/-- Whether this millisecond has its indicator already. -/
theorem jniAt_early : c.gnss.jniAt.any (fun t => decide (c.jour.tick < t + 200000)) = true ↔ ∃ t, c.gnss.jniAt = some t ∧ c.jour.tick < t + 200000 := by
  cases c.gnss.jniAt <;> simp

theorem jniUpdate_early {idle : Byte} {pq : ℕ} (h : ∃ t, c.gnss.jniAt = some t ∧ c.jour.tick < t + 200000) : c.jniUpdate idle pq = c :=
  if_pos (jniAt_early.mpr h)

theorem jniUpdate_facts (idle : Byte) (pq : ℕ) (h : ¬ ∃ t, c.gnss.jniAt = some t ∧ c.jour.tick < t + 200000) :
    ∃ d, c.jniUpdate idle pq = d ∧ d.cur F.GNSS_JAM_STAT_JNI = c.jni idle pq ∧ d.gnss.jniSec = max c.gnss.jniSec (c.jni idle pq) ∧
      d.gnss.jniAt = some c.jour.tick ∧ d.gnss.agcMs = (0, 0) ∧ (c.fld F.GNSS_JAM_CFG_WARN ≤ c.jni idle pq → d.cur F.GNSS_EVT_JWARN = 1) ∧
      (c.fld F.GNSS_JAM_CFG_ALARM ≤ c.jni idle pq → d.cur F.GNSS_EVT_JALARM = 1 ∧ d.gnss.alarmAt = some c.jour.tick) ∧
      (c.jni idle pq < c.fld F.GNSS_JAM_CFG_ALARM → d.gnss.alarmAt = c.gnss.alarmAt) := by
  refine ⟨_, rfl, ?_⟩
  unfold Channel.jniUpdate
  rw [if_neg fun e => h (jniAt_early.mp e)]
  extract_lets j g x al c1 c2 c3 snap g3
  obtain ⟨y1, hy1, hjni, hg1⟩ : ∃ y, c1 = y ∧ y.cur F.GNSS_JAM_STAT_JNI = j ∧ y.gnss = x.gnss :=
    ⟨_, rfl, Channel.cur_put_lt x F.GNSS_JAM_STAT_JNI j (by decide) (jni_lt c idle pq), Channel.put_gnss x F.GNSS_JAM_STAT_JNI j⟩
  obtain ⟨y2, hy2, hg2, hwarn, hkeep2⟩ := evt_threshold y1 F.GNSS_EVT_JWARN (x.fld F.GNSS_JAM_CFG_WARN ≤ j) rfl (by decide)
  obtain ⟨y3, hy3, hg3, halarm, hkeep3⟩ := evt_threshold y2 F.GNSS_EVT_JALARM (al = true) rfl (by decide)
  have hc3 : c3 = y3 := by rw [← hy3, ← hy2, ← hy1]
  have hgnss : c3.gnss = x.gnss := by rw [hc3, hg3, hg2, hg1]
  have hjni3 : c3.cur F.GNSS_JAM_STAT_JNI = j := by
    rw [hc3, hkeep3 F.GNSS_JAM_STAT_JNI (.inl (by decide)), hkeep2 F.GNSS_JAM_STAT_JNI (.inl (by decide)), hjni]
  have hg : g3 = x.gnss := hgnss
  simp only [cur_setGnss, gnss_setGnss, hgnss, hg]
  refine ⟨hjni3, rfl, rfl, rfl, fun hw => ?_, fun ha => ⟨?_, if_pos (decide_eq_true ha)⟩, fun ha => if_neg fun hal => ?_⟩
  · rw [hc3, hkeep3 F.GNSS_EVT_JWARN (.inr (by decide))]
    exact hwarn hw
  · rw [hc3]
    exact halarm (decide_eq_true ha)
  · exact absurd (of_decide_eq_true hal) (Nat.not_le.mpr ha)

theorem floorCaptureEnd_ends {idle : Byte} {t : ℕ} (h : c.gnss.floorEnd = some t) (ht : t ≤ c.jour.tick) :
    (c.floorCaptureEnd idle).gnss = { c.gnss with floorEnd := none } ∧
    (c.floorCaptureEnd idle).cur F.GNSS_JAM_CFG_FLOOR = Channel.agcMean idle c.gnss.agcFl % 256 := by
  have e : c.floorCaptureEnd idle = (c.setGnss { c.gnss with floorEnd := none }).put F.GNSS_JAM_CFG_FLOOR (Channel.agcMean idle c.gnss.agcFl) := by
    unfold Channel.floorCaptureEnd
    simp only [h, if_pos ht]
  rw [e]
  exact ⟨Channel.put_gnss _ _ _, cur_put_self _ F.GNSS_JAM_CFG_FLOOR _ (by decide)⟩

theorem floorCaptureEnd_waits {idle : Byte} (h : ∀ t, c.gnss.floorEnd = some t → c.jour.tick < t) : c.floorCaptureEnd idle = c := by
  unfold Channel.floorCaptureEnd
  split
  · next t ht => exact if_neg (Nat.not_le.mpr (h t ht))
  · rfl

end
end Sys2Proof.Machine

namespace Sys2Proof
open Sys2Proof.Machine

/-- The two commands of a notch act in their channel. -/
theorem actsOn_notch (s : State) (c : ChanIx) (k : Fin 4) (lines : List (Int × Nat)) (hl : s.live c) :
    (∀ {q : Channel → Prop}, q (s.ch[c].notchLock k lines) → ActsOn (.notchLock c k lines) s c q) ∧
    (∀ {q : Channel → Prop}, q (s.ch[c].notchRelease k lines) → ActsOn (.notchRelease c ⟨k, lines⟩) s c q) :=
  ⟨actsOn_intro (fun ch => ch.notchLock k lines) hl rfl rfl, actsOn_intro (fun ch => ch.notchRelease k lines) hl rfl rfl⟩

/-- Settles O28: what a notch does is read off its state and its line; the indicator's thresholds and the floor's capture each by their case. -/
theorem notchesAndJammingIndicator : Obligations.NotchesAndJammingIndicator := by
  refine ⟨fun s c k lines hl => ?_, fun s c idle pq p v hl => ?_⟩
  · intro ch now st fr others apart far free top its low since lets
    obtain ⟨lock, release⟩ := actsOn_notch s c k lines hl
    have hlock : fr (ch.notchLock k lines) := on_notchLock k lines rfl (Channel.onlyIn_refl _ ch)
    have hrelease : fr (ch.notchRelease k lines) := on_notchRelease k lines rfl (Channel.onlyIn_refl _ ch)
    have both : ∀ {q : Channel → Prop}, q (ch.notchLock k lines) → q (ch.notchRelease k lines) →
        ∀ i ∈ [Instr.notchLock c k lines, .notchRelease c ⟨k, lines⟩], ActsOn i s c q := fun hq hr i hi => by
      rcases List.mem_cons.mp hi with rfl | hi
      · exact lock hq
      · rw [List.mem_singleton.mp hi]
        exact release hr
    refine ⟨fun i hi => ⟨?_, fun hst ha => ?_, fun l hst ha hnear htop hfar => ?_⟩, fun l hst ha hfree hfar => lock ?_, fun hst ha hfree => lock ?_,
      fun hst ha => release ?_, fun l hst ha hnear hthr htop => release ?_, fun hst ha hlow ht => release ?_, fun hst ha hlow ht => ?_⟩
    · exact both ⟨hlock, notchLock_apart ch k lines⟩ ⟨hrelease, notchRelease_apart ch k lines⟩ i hi
    · have hlocked : ch.notchSt k.val ≠ NOTCH_LOCKED := fun e => by rcases hst with h | h <;> exact absurd (h.symm.trans e) (by decide)
      have hsearch : ch.notchSt k.val ≠ NOTCH_SEARCH := fun e => by rcases hst with h | h <;> exact absurd (h.symm.trans e) (by decide)
      exact both (q := (· = ch)) (notchLock_stays (notchFollow_other hlocked) (notchTake_other hsearch) ha) (notchRelease_stays hlocked ha) i hi
    · obtain ⟨d, hd, hr, hfacts⟩ := notch_follows hst ha hnear htop hfar
      rw [hd] at hlock
      exact both (by rw [hd]; exact ⟨hlock, hfacts⟩) (by rw [hr]; exact ⟨hlock, hfacts⟩) i hi
    · obtain ⟨d, hd, hfacts⟩ := notchLock_takes hst ha hfree hfar
      rw [hd] at hlock ⊢
      exact ⟨hlock, hfacts⟩
    · exact notchLock_stays (notchFollow_other fun e => absurd (hst.symm.trans e) (by decide)) (notchTake_none hfree) ha
    · exact notchRelease_stays (fun e => absurd (hst.symm.trans e) (by decide)) ha
    · exact ⟨hrelease, notchRelease_line hst ha hnear hthr htop⟩
    · exact ⟨hrelease, notchRelease_low hst ha hlow ht⟩
    · obtain ⟨hd, hr⟩ := notch_low_waits hst ha hlow ht
      rw [hd] at hlock
      exact both (by rw [hd]; exact ⟨hlock, rfl, rfl⟩) (by rw [hr]; exact ⟨hlock, rfl, rfl⟩)
  · intro ch now fr mean j early
    have update : ∀ {q : Channel → Prop}, q (ch.jniUpdate idle pq) → ActsOn (.jniUpdate c idle pq) s c q :=
      actsOn_intro (fun ch => ch.jniUpdate idle pq) hl rfl rfl
    have ends : ∀ {q : Channel → Prop}, q (ch.floorCaptureEnd idle) → ActsOn (.jamFloorCaptureEnd c idle) s c q :=
      actsOn_intro (fun ch => ch.floorCaptureEnd idle) hl rfl rfl
    refine ⟨fun he => update (jniUpdate_early he), fun he => update ?_, fun ho hp => ?_, fun ⟨t, hend, ht⟩ => ends ?_,
      fun hno => ends (floorCaptureEnd_waits hno)⟩
    · have hupdate : fr (ch.jniUpdate idle pq) := on_jniUpdate idle pq rfl (Channel.onlyIn_refl _ ch)
      obtain ⟨d, hd, hfacts⟩ := jniUpdate_facts idle pq he
      rw [hd] at hupdate ⊢
      exact ⟨hupdate, hfacts⟩
    · refine actsOn_gnssCmd (off := GNSS_JAM_STAT) (by simp) rfl rfl ho hl.2 hp (Channel.ignores_low _ v (by decide) (by decide)) fun x es hx => ?_
      obtain ⟨hon, hgnss, htick, _⟩ := hx.facts
      rw [action_jamStat]
      by_cases hv : bit v 0 = true
      · rw [if_pos hv, if_pos hv]
        refine ⟨onlyIn_effs rfl es (on_floorCapture rfl hon), ?_⟩
        unfold Channel.floorCapture
        rw [hgnss, htick]
        rfl
      · rw [if_neg hv, if_neg hv]
        exact ⟨onlyIn_effs rfl es hon, hgnss⟩
    · exact ⟨on_floorCaptureEnd idle rfl (Channel.onlyIn_refl _ ch), floorCaptureEnd_ends hend ht⟩

end Sys2Proof
end

section
/-! The application of a record by DPLL_A (R126, R127, R131, R132). -/
namespace Sys2Proof.Machine

/-! ### The record that a servo takes -/

/-- The channel as DPLL_A starts to apply `r`: the record has left the waiting ones, and after a switch (`b`) it is the first of its lane (R88, R126). -/
def Channel.feedsA (c : Channel) (r : MeasRec) (b : Bool) : Channel :=
  (if b then c.switchDone .a else c).setDpll { c.dpll with waitA := c.dpll.waitA.filter (fun z => z != r), first := b || c.dpll.first }

/-- The channel as DPLL_B starts to apply `r`. -/
def Channel.feedsB (c : Channel) (r : MeasRec) (b : Bool) : Channel :=
  (if b then c.switchDone .b else c).setDpll { c.dpll with waitB := c.dpll.waitB.filter (fun z => z != r), firstB := b || c.dpll.firstB }

section
variable {c : Channel} {r : MeasRec} {b : Bool}

theorem servoA_applies (h : c.nextDue c.dpll.waitA = some r) (ht : c.takes .a r = some b) : c.servoA = (c.feedsA r b).applyA r := by
  obtain ⟨n, hn⟩ := nextDue_cons h
  unfold Channel.servoA
  rw [hn]
  unfold Channel.applyNext
  dsimp only
  rw [h]
  dsimp only
  rw [takes_setDpll, ht]
  cases b <;> rfl

theorem servoB_applies (h : c.nextDue c.dpll.waitB = some r) (ht : c.takes .b r = some b) : c.servoB = (c.feedsB r b).applyB r := by
  obtain ⟨n, hn⟩ := nextDue_cons h
  unfold Channel.servoB
  rw [hn]
  unfold Channel.applyNext
  dsimp only
  rw [h]
  dsimp only
  rw [takes_setDpll, ht]
  cases b <;> rfl

theorem applyNext_idle (s : Servo) (n : ℕ) (h : c.nextDue (match s with | .a => c.dpll.waitA | .b => c.dpll.waitB) = none) : Channel.applyNext s n c = c := by
  cases n with
  | zero => rfl
  | succ n =>
    unfold Channel.applyNext
    cases s <;> (dsimp only at h ⊢; rw [h])

theorem feedsA_regs : (c.feedsA r b).regs = c.regs := by cases b <;> rfl
theorem feedsB_regs : (c.feedsB r b).regs = c.regs := by cases b <;> rfl

theorem feedsB_onlyIn : Channel.onlyIn [.ref, .dpll, .jour, .asks] c (c.feedsB r b) := by
  unfold Channel.feedsB
  cases b
  · exact on_setDpll _ rfl (Channel.onlyIn_refl _ c)
  · exact on_setDpll _ rfl (on_switchDone .b rfl (Channel.onlyIn_refl _ c))

end

/-! ### The stages of an application (R131) -/

section
variable (c : Channel) (r : MeasRec)

/-- Whether the record `r` makes the initial set. -/
def Channel.setsBy : Bool := !Channel.inert r && !c.dpll.trace && c.flag F.DPLL_A_CFG_SET_EN && decide (r.offset > 0)

/-- The offset that the initial set leaves to the servo. -/
def Channel.leftOf : Int := if c.setsBy r then 0 else r.offset

/-- The initial set, or its refusal. -/
def Channel.setCtrBy : Channel :=
  if c.setsBy r then
    let d := c.moveCtr r.offset
    (({ d with syn := { d.syn with ots := d.syn.ots + r.offset * 2 ^ 32 } }).bookStep (c.policyOrg .dpll) r.offset).evt F.DPLL_EVT_STEP
  else if !c.dpll.trace && decide (c.leftOf r < 0) && decide (axOf (c.leftOf r) > c.fld F.DPLL_SL_TH_SL_TH) then c.evt F.DPLL_EVT_BACKN else c

/-- The bandwidth code in an application of the offset `e`: a locked channel narrows it (R134). -/
def Channel.bwcAt (e : Int) : ℕ :=
  if c.dpll.st = .locked ∧ axOf e ≤ c.fld F.DPLL_UNLOCK_TH_UNLOCK_TH
  then max (c.fld F.DPLL_BW_A_BW_LOCK) (c.dpll.bwc - c.fld F.DPLL_ADAPT_NARROW) else c.dpll.bwc

/-- Whether the channel slews after an application of the offset `e`. -/
def Channel.slewsAt (e : Int) : Bool :=
  if axOf e > c.fld F.DPLL_SL_TH_SL_TH then true else if axOf e ≤ c.fld F.DPLL_LOCK_TH_LOCK_TH then false else c.dpll.sl

/-- Whether `r` is the first record of its lane or source of time, so that no interval leads to it. -/
def Channel.startsA : Bool := c.dpll.first || (match c.dpll.lastTs with | some l => decide (r.refTs ≤ l) | none => false)

/-- The interval over which the gains of `r` act: none for a first record. -/
def Channel.spanTo : Option Int := if c.startsA r then none else c.dpll.lastTs.map (r.refTs - ·)

end

/-- The last REF_TS after a record of REF_TS `t`. -/
def latestTs (o : Option Int) (t : Int) : Int := match o with | some l => max l t | none => t

/-- The proportional and the integral gain of a bandwidth code over an interval (R131). -/
def gainP (k : ℕ) (dt : Int) : Int := min (sar (kpC * wOf k dt) 32) (2 ^ 32)
def gainI (k : ℕ) (dt : Int) : Int := min (sar (kiC * wOf k dt * wOf k dt) 64) (gainP k dt)

section
variable (c : Channel) (r : MeasRec)

/-- The drain after `r`. -/
def Channel.drainBy : Int :=
  if Channel.inert r then c.dpll.pend
  else if c.slewsAt (c.leftOf r) then c.leftOf r * 2 ^ 32
  else match c.spanTo r with
    | none => c.dpll.pend
    | some dt => c.dpll.pend + sar (gainP (c.bwcAt (c.leftOf r)) dt * (c.leftOf r * 2 ^ 32)) 32

/-- The rate after `r`. -/
def Channel.rateBy : Int :=
  if Channel.inert r || c.slewsAt (c.leftOf r) then c.dpll.rate
  else match c.spanTo r with
    | none => c.dpll.rate
    | some dt => clampAbs (2 ^ 50) (c.dpll.rate + Int.fdiv (gainI (c.bwcAt (c.leftOf r)) dt * c.leftOf r * 2 ^ 32) dt)

/-- The stage of an application that sets the bandwidth code and whether the channel slews. -/
def Channel.narrows (y : Channel) : Channel :=
  y.setDpll { y.dpll with bwc := c.bwcAt (c.leftOf r), sl := c.slewsAt (c.leftOf r) }

/-- The stage of an application that moves the drain and the rate of `y`. -/
def Channel.steers (y : Channel) : Channel :=
  if Channel.inert r then y
  else if c.slewsAt (c.leftOf r) then y.setDpll { y.dpll with pend := c.leftOf r * 2 ^ 32 }
  else if c.startsA r then y
  else match c.dpll.lastTs with
    | none => y
    | some l =>
      let z := y.setDpll { y.dpll with pend := y.dpll.pend + sar (gainP (c.bwcAt (c.leftOf r)) (r.refTs - l) * (c.leftOf r * 2 ^ 32)) 32 }
      z.setRate (z.dpll.rate + Int.fdiv (gainI (c.bwcAt (c.leftOf r)) (r.refTs - l) * c.leftOf r * 2 ^ 32) (r.refTs - l))

/-- The stage that takes `r` into the bound rings and stamps the bound, its time, the tag and the marks. -/
def Channel.stamps (y : Channel) : Channel :=
  let z := y.ringAdd ⟨r.refTs, c.leftOf r, r.teb⟩
  let f := fbWindow z.shortWindow
  let teb0 := satAdd (satAdd r.teb (satCap (axOf (c.leftOf r)))) z.dal
  let d := z.dpll
  z.setDpll { d with
    first := false, lastTs := some (latestTs c.dpll.lastTs r.refTs),
    teb0 := teb0, t0 := r.refTs,
    fb := if f ≥ SAT then SAT else satAdd f (z.fld F.DPLL_FB_WANDER_FB_WANDER),
    lfb := fbWindow d.long,
    tag := tagSet (tagSet r.tag 7 false) 4 (c.slewsAt (c.leftOf r)),
    trace := d.trace || decide (teb0 < SAT),
    hoAct := false, cwEnd := 0 }

/-- The journal entry of an application that has left the DPLL state at `d`. -/
def Channel.entryA (d : DpllSt) : JBody :=
  .servoA (c.leftOf r) d.pend d.rate d.t0 d.teb0 d.fb d.lfb d.tag r.jseq d.bwc d.st d.sl (c.setsBy r)

/-- The stage that takes the slewing event and moves the channel time state. -/
def Channel.settles (y : Channel) : Channel :=
  (if c.slewsAt (c.leftOf r) ≠ c.dpll.sl then y.evt F.DPLL_EVT_SL else y).updateState (axOf (c.leftOf r))

/-- The stage that journals the application and marks the change of the channel time state. -/
def Channel.concludes (y : Channel) : Channel :=
  ((y.journal (c.entryA r y.dpll)).setDpll { (y.journal (c.entryA r y.dpll)).dpll with st := c.dpll.st }).stateTo y.dpll.st

theorem applyA_stages : c.applyA r = c.concludes r (c.settles r (c.stamps r (c.steers r (c.narrows r (c.setCtrBy r))))) := rfl

end

section
variable {c y : Channel} {r : MeasRec}

theorem setsBy_iff : c.setsBy r = true ↔
    ¬ Channel.inert r = true ∧ c.dpll.trace = false ∧ c.flag F.DPLL_A_CFG_SET_EN = true ∧ 0 < r.offset := by
  simp [Channel.setsBy, and_assoc]

theorem startsA_iff : c.startsA r = true ↔ c.dpll.first = true ∨ ∃ l, c.dpll.lastTs = some l ∧ r.refTs ≤ l := by
  unfold Channel.startsA
  cases c.dpll.lastTs <;> simp

/-- How far the initial set moves the counter. -/
theorem setCtrBy_dpll : (c.setCtrBy r).dpll = { c.dpll with
    ctr := c.dpll.ctr + if c.setsBy r = true then r.offset * 2 ^ 32 else 0, kCum := c.dpll.kCum + if c.setsBy r = true then r.offset * 2 ^ 32 else 0 } := by
  unfold Channel.setCtrBy
  by_cases h : c.setsBy r = true
  · simp only [if_pos h]
    rfl
  · simp only [if_neg h, add_zero]
    split <;> rfl

theorem us_setCtrBy : Uses c (c.setCtrBy r) :=
  .ite (us_evt _ (us_bookStep _ _ (.upd (us_moveCtr _ (.refl c))))) (.ite (us_evt _ (.refl c)) (.refl c))

theorem steers_dpll (hp : y.dpll.pend = c.dpll.pend) (hr : y.dpll.rate = c.dpll.rate) :
    (c.steers r y).dpll = { y.dpll with pend := c.drainBy r, rate := c.rateBy r } := by
  unfold Channel.steers Channel.drainBy Channel.rateBy Channel.spanTo
  rw [← hp, ← hr]
  split
  · next hi => rw [if_pos (by rw [hi]; rfl)]
  next hi =>
  split
  · next hs => rw [if_pos (by rw [hs, Bool.or_true])]; rfl
  next hs =>
  rw [if_neg (show ¬ (Channel.inert r || c.slewsAt (c.leftOf r)) = true by rw [Bool.or_eq_true]; exact not_or.mpr ⟨hi, hs⟩)]
  split
  · rfl
  · split
    · next hl => rw [hl]; rfl
    · next l hl => rw [hl, setRate_dpll]; rfl

theorem us_steers (h : Uses c y) : Uses c (c.steers r y) := by
  unfold Channel.steers
  refine .ite h (.ite (us_setDpll _ h) (.ite h ?_))
  split
  · exact h
  · exact us_setRate _ (us_setDpll _ h)

/-- The limits of the drain are values in use, which an application leaves as they are. -/
theorem dal_of_use (h : ∀ b, (y.rf b).use = (c.rf b).use) : y.dal = c.dal := by
  have hf : ∀ f : KF, f.sh = true → y.fld f = c.fld f := fun f hf => by
    unfold Channel.fld Channel.useWord
    rw [if_pos hf, if_pos hf, h]
  unfold Channel.dal Channel.smax
  rw [hf _ rfl, hf _ rfl]

/-- What an application of `r` leaves in the DPLL state, the channel time state with its counts, the two rings and what is told of them apart:
the counter, the drain and the rate as the stages have moved them, and the stamps of the record. -/
structure AppliedA (c : Channel) (r : MeasRec) (d : DpllSt) : Prop where
  ctr : d.ctr = c.dpll.ctr + if c.setsBy r = true then r.offset * 2 ^ 32 else 0
  pend : d.pend = c.drainBy r
  rate : d.rate = c.rateBy r
  sl : d.sl = c.slewsAt (c.leftOf r)
  waitA : d.waitA = c.dpll.waitA
  waitB : d.waitB = c.dpll.waitB
  rateB : d.rateB = c.dpll.rateB
  bst : d.bst = c.dpll.bst
  t0 : d.t0 = r.refTs
  first : d.first = false
  hoAct : d.hoAct = false
  lastTs : d.lastTs = some (latestTs c.dpll.lastTs r.refTs)
  teb0 : d.teb0 = satAdd (satAdd r.teb (satCap (axOf (c.leftOf r)))) c.dal

/-- The channel time state and its counts have no part in it. -/
theorem AppliedA.withState {d : DpllSt} (h : AppliedA c r d) (hv : Bool) (lc uc bw : ℕ) (st : ChanSt) :
    AppliedA c r { d with hoValid := hv, lockCnt := lc, unlockCnt := uc, bwc := bw, st := st } :=
  ⟨h.ctr, h.pend, h.rate, h.sl, h.waitA, h.waitB, h.rateB, h.bst, h.t0, h.first, h.hoAct, h.lastTs, h.teb0⟩

/-- What the stamps are, and that they leave the rest but the rings and what is told of them. -/
theorem stamps_dpll : (c.stamps r y).dpll = { (y.ringAdd ⟨r.refTs, c.leftOf r, r.teb⟩).dpll with
    first := false, lastTs := some (latestTs c.dpll.lastTs r.refTs),
    teb0 := satAdd (satAdd r.teb (satCap (axOf (c.leftOf r)))) (y.ringAdd ⟨r.refTs, c.leftOf r, r.teb⟩).dal, t0 := r.refTs, hoAct := false,
    fb := (c.stamps r y).dpll.fb, lfb := (c.stamps r y).dpll.lfb, tag := (c.stamps r y).dpll.tag, trace := (c.stamps r y).dpll.trace, cwEnd := 0 } := rfl

theorem ringAdd_dpll (e : RingEnt) : ∃ sh lo, (y.ringAdd e).dpll = { y.dpll with short := sh, long := lo } := ⟨_, _, rfl⟩

theorem stamps_applied (hu : Uses c y) (h : y.dpll = { (c.setCtrBy r).dpll with
      bwc := c.bwcAt (c.leftOf r), sl := c.slewsAt (c.leftOf r), pend := c.drainBy r, rate := c.rateBy r }) :
    AppliedA c r (c.stamps r y).dpll := by
  have hdal : (y.ringAdd ⟨r.refTs, c.leftOf r, r.teb⟩).dal = c.dal := dal_of_use (us_ringAdd _ hu).use
  obtain ⟨sh, lo, hring⟩ := ringAdd_dpll (y := y) ⟨r.refTs, c.leftOf r, r.teb⟩
  rw [stamps_dpll, hdal, hring, h, setCtrBy_dpll]
  exact ⟨rfl, rfl, rfl, rfl, rfl, rfl, rfl, rfl, rfl, rfl, rfl, rfl, rfl⟩

theorem AppliedA.updateState (h : AppliedA c r y.dpll) (n : ℕ) : AppliedA c r (y.updateState n).dpll := by
  obtain ⟨hv, lc, uc, bw, st, hz⟩ := updateState_dpll y n
  rw [hz]
  exact h.withState hv lc uc bw st

theorem AppliedA.journal (h : AppliedA c r y.dpll) (b : JBody) : AppliedA c r (y.journal b).dpll := by
  rw [Channel.journal_dpll]
  exact h

theorem AppliedA.stateTo (h : AppliedA c r y.dpll) (b : ChanSt) : AppliedA c r (y.stateTo b).dpll := by
  rw [stateTo_dpll]
  exact h.withState y.dpll.hoValid y.dpll.lockCnt y.dpll.unlockCnt y.dpll.bwc b

theorem AppliedA.setState (h : AppliedA c r y.dpll) (b : ChanSt) : AppliedA c r (y.setDpll { y.dpll with st := b }).dpll := by
  rw [Channel.setDpll_dpll]
  exact h.withState y.dpll.hoValid y.dpll.lockCnt y.dpll.unlockCnt y.dpll.bwc b

theorem AppliedA.slewEvt (h : AppliedA c r y.dpll) (p : Prop) [Decidable p] : AppliedA c r (if p then y.evt F.DPLL_EVT_SL else y).dpll := by
  split
  · exact h
  · exact h

theorem AppliedA.settles (h : AppliedA c r y.dpll) : AppliedA c r (c.settles r y).dpll := (h.slewEvt _).updateState _

theorem AppliedA.concludes (h : AppliedA c r y.dpll) : AppliedA c r (c.concludes r y).dpll := by
  unfold Channel.concludes
  exact ((h.journal _).setState _).stateTo _

theorem applyA_applied (c : Channel) (r : MeasRec) : AppliedA c r (c.applyA r).dpll := by
  have hu : Uses c (c.narrows r (c.setCtrBy r)) := us_setDpll _ us_setCtrBy
  have hn : (c.narrows r (c.setCtrBy r)).dpll = { (c.setCtrBy r).dpll with bwc := c.bwcAt (c.leftOf r), sl := c.slewsAt (c.leftOf r) } := rfl
  have hpend : (c.narrows r (c.setCtrBy r)).dpll.pend = c.dpll.pend := by rw [hn, setCtrBy_dpll]
  have hrate : (c.narrows r (c.setCtrBy r)).dpll.rate = c.dpll.rate := by rw [hn, setCtrBy_dpll]
  rw [applyA_stages]
  exact (stamps_applied (us_steers hu) ((steers_dpll hpend hrate).trans (by rw [hn]))).settles.concludes
end
end Sys2Proof.Machine
namespace Sys2Proof
open Sys2Proof.Machine

/-- Settles O32: the stages of the application one by one; the initial set leaves the servo nothing to drive out. -/
theorem servoAAppliesDueRecords : Obligations.ServoAAppliesDueRecords := by
  intro s c r b hl ch x i fr hold set first ax sl bwc base
  have act : ∀ {q : Channel → Prop}, q ch.servoA → ActsOn i s c q := actsOn_intro (fun ch => ch.servoA) hl rfl rfl
  refine ⟨fun hdue htakes => ?_, fun hno => act (applyNext_idle .a _ hno)⟩
  have hfr : fr ch.servoA := on_servoA rfl (Channel.onlyIn_refl _ ch)
  rw [servoA_applies hdue htakes] at act hfr
  generalize hy : ch.feedsA r b = y at act hfr
  have hregs : y.regs = ch.regs := hy ▸ feedsA_regs
  have hyd : y.dpll = { x with waitA := x.waitA.filter (fun z => z != r), first := b || x.first } := hy ▸ rfl
  have hts : y.dpll.lastTs = x.lastTs := by rw [hyd]
  have hdal : y.dal = ch.dal := dal_of_use fun k => by unfold Channel.rf; rw [hregs]
  have hset : y.setsBy r = true ↔ set := by
    rw [setsBy_iff, hyd, show y.flag F.DPLL_A_CFG_SET_EN = ch.flag F.DPLL_A_CFG_SET_EN from congrArg (· == 1) (fld_of_regs hregs _)]
  have hfirst : y.startsA r = true ↔ first := by
    rw [startsA_iff, hyd, Bool.or_eq_true, or_assoc]
  have hslews : y.slewsAt r.offset = sl := by
    unfold Channel.slewsAt
    rw [fld_of_regs hregs, fld_of_regs hregs, hyd]
  have hbwc : y.bwcAt r.offset = bwc r.offset := by
    unfold Channel.bwcAt
    rw [fld_of_regs hregs, fld_of_regs hregs, fld_of_regs hregs, hyd]
  have happ := applyA_applied y r
  have hbase : base (y.leftOf r) (y.applyA r) := by
    refine ⟨hfr, happ.waitA.trans (by rw [hyd]), happ.waitB.trans (by rw [hyd]), happ.t0, happ.first, happ.hoAct, happ.lastTs.trans (congrArg (fun o => some (latestTs o r.refTs)) hts),
      happ.teb0.trans (by rw [hdal]), happ.rateB.trans (by rw [hyd]), happ.bst.trans (by rw [hyd])⟩
  refine ⟨fun h => act ?_, fun h => act ?_⟩
  · have hs := hset.mpr h
    have hleft : y.leftOf r = 0 := if_pos hs
    rw [hleft] at hbase
    refine ⟨hbase, by rw [happ.ctr, if_pos hs, hyd], ?_⟩
    rw [happ.sl, hleft]
    rfl
  · have hs : ¬ y.setsBy r = true := fun e => h (hset.mp e)
    have hleft : y.leftOf r = r.offset := if_neg hs
    rw [hleft] at hbase
    have hpend := happ.pend
    have hrate := happ.rate
    unfold Channel.drainBy at hpend
    unfold Channel.rateBy at hrate
    rw [hleft, hslews, hbwc] at hpend hrate
    have hslows : ¬ Channel.inert r = true → sl = false → ¬ (Channel.inert r || sl) = true := fun hi hsl => by
      rw [hsl, Bool.or_false]
      exact hi
    refine ⟨hbase, by rw [happ.ctr, if_neg hs, hyd, add_zero], by rw [happ.sl, hleft, hslews], fun hi => ?_, fun hi hsl => ?_, fun hi hsl => ⟨fun hf => ?_, fun l hf hlast => ?_⟩⟩
    · rw [hpend, hrate, if_pos hi, if_pos (by rw [hi]; rfl), hyd]
      exact ⟨rfl, rfl⟩
    · rw [hpend, hrate, if_neg hi, if_pos hsl, if_pos (by rw [hsl, Bool.or_true]), hyd]
      exact ⟨rfl, rfl⟩
    · have hspan : y.spanTo r = none := if_pos (hfirst.mpr hf)
      rw [hpend, hrate, if_neg hi, if_neg (ne_true_of_eq_false hsl), if_neg (hslows hi hsl), hspan, hyd]
      exact ⟨rfl, rfl⟩
    · have hspan : y.spanTo r = some (r.refTs - l) := by
        unfold Channel.spanTo
        rw [if_neg (mt hfirst.mp hf), hyd, hlast]
        rfl
      rw [hpend, hrate, if_neg hi, if_neg (ne_true_of_eq_false hsl), if_neg (hslows hi hsl), hspan, hyd]
      exact ⟨rfl, rfl⟩

end Sys2Proof
end

section
/-! The application of a record by DPLL_B (R126, R127, R133). -/
namespace Sys2Proof.Machine

section
variable (c : Channel) (r : MeasRec)

/-- Whether `r` is the first record of its lane, source of time or hold, so that no interval leads to it. -/
def Channel.startsB : Bool :=
  c.dpll.firstB || c.dpll.bst == .hold || (match c.dpll.lastTsB with | some l => decide (r.refTs ≤ l) | none => false)

/-- The rate of DPLL_B after `r` (R133). -/
def Channel.nextRateB : Int :=
  if Channel.inert r then c.rateBNow
  else if c.dpll.bst = .free then r.freq + c.dpll.rate
  else if c.startsB r then c.rateBNow
  else match c.dpll.lastTsB with
    | none => c.rateBNow
    | some l => c.rateBNow + sar (min (sar (kbC * wOf (c.fld F.DPLL_B_CFG_BW_B) (r.refTs - l)) 32) (2 ^ 32) * (r.freq + c.dpll.rate - c.rateBNow)) 32

theorem startsB_iff : c.startsB r = true ↔ c.dpll.firstB = true ∨ c.dpll.bst = .hold ∨ ∃ l, c.dpll.lastTsB = some l ∧ r.refTs ≤ l := by
  unfold Channel.startsB
  cases c.dpll.lastTsB <;> simp [or_assoc]

/-- All that an application of `r` changes of the DPLL state. -/
theorem applyB_leaves : (c.applyB r).dpll = { c.dpll with
    rateB := c.nextRateB r, firstB := false, fbB := r.fb, lastTsB := some (latestTs c.dpll.lastTsB r.refTs),
    bst := .track } := by
  unfold Channel.applyB
  rw [bStateTo_dpll]
  rfl

end
end Sys2Proof.Machine

namespace Sys2Proof
open Sys2Proof.Machine

/-- Settles O33: the stages are one update of the DPLL state, and the rate of DPLL_B in it goes by the branches of R133. -/
theorem servoBAppliesDueRecords : Obligations.ServoBAppliesDueRecords := by
  intro s c r b hl ch x i first
  have act : ∀ {q : Channel → Prop}, q ch.servoB → ActsOn i s c q := actsOn_intro (fun ch => ch.servoB) hl rfl rfl
  refine ⟨fun hdue htakes => ?_, fun hno => act (applyNext_idle .b _ hno)⟩
  rw [servoB_applies hdue htakes] at act
  have hfr : Channel.onlyIn [.ref, .dpll, .jour, .asks] ch ((ch.feedsB r b).applyB r) := on_applyB r rfl feedsB_onlyIn
  have hnow : (ch.feedsB r b).rateBNow = ch.rateBNow := by cases b <;> rfl
  have hbw : (ch.feedsB r b).fld F.DPLL_B_CFG_BW_B = ch.fld F.DPLL_B_CFG_BW_B := fld_of_regs feedsB_regs _
  generalize hy : ch.feedsB r b = y at act hfr hnow hbw
  have hyd : y.dpll = { x with waitB := x.waitB.filter (fun z => z != r), firstB := b || x.firstB } := hy ▸ rfl
  have hfirst : y.startsB r = true ↔ first := by
    rw [startsB_iff, hyd, Bool.or_eq_true, or_assoc]
  have hd : (y.applyB r).dpll = { x with
      waitB := x.waitB.filter (fun z => z != r), rateB := y.nextRateB r, firstB := false, fbB := r.fb,
      lastTsB := some (latestTs x.lastTsB r.refTs), bst := .track } := by
    rw [applyB_leaves, hyd]
  have hrate : (y.applyB r).dpll.rateB = y.nextRateB r := congrArg DpllSt.rateB hd
  unfold Channel.nextRateB at hrate
  rw [hnow, hbw] at hrate
  refine act ⟨hfr, by rw [hd], by rw [hd], congrArg DpllSt.lastTsB hd, by rw [hd], by rw [hd], by rw [hd], by rw [hd], by rw [hd], by rw [hd],
    fun hi => ?_, fun hi hb => ?_, fun hi hb hf => ?_, fun l hi hb hf hlast => ?_⟩
  · rw [hrate, if_pos hi]
  · rw [hrate, if_neg (ne_true_of_eq_false hi), hyd, if_pos hb]
  · rw [hrate, if_neg (ne_true_of_eq_false hi), if_pos (hfirst.mpr hf), hyd, if_neg hb]
  · rw [hrate, if_neg (ne_true_of_eq_false hi), if_neg (mt hfirst.mp hf), hyd, if_neg hb, hlast]

end Sys2Proof
end

section
/-! The channel time states: acquisition, holdover, its limit and its aging (R134, R135, R123). -/
namespace Sys2Proof.Machine

section
variable {c : Channel}

/-- A change of the channel time state leaves the events of the other bits. -/
theorem stateTo_cur (st : ChanSt) {g : KF} (hg : F.DPLL_EVT_STATE.lsb < g.lsb ∨ g.lsb + g.w ≤ F.DPLL_EVT_STATE.lsb) :
    (c.stateTo st).cur g = c.cur g := by
  unfold Channel.stateTo
  dsimp only
  split
  · exact Channel.cur_setDpll _ _ _
  · exact (cur_evt_bit _ _ _ (by decide) hg).trans ((Channel.cur_journal _ _ _).trans (Channel.cur_setDpll _ _ _))

/-- A change of B_STATE leaves the events of the other bits. -/
theorem bStateTo_cur (st : BSt) {g : KF} (hg : F.DPLL_EVT_BSTATE.lsb < g.lsb ∨ g.lsb + g.w ≤ F.DPLL_EVT_BSTATE.lsb) :
    (c.bStateTo st).cur g = c.cur g := by
  unfold Channel.bStateTo
  dsimp only
  split
  · exact Channel.cur_setDpll _ _ _
  · exact (cur_evt_bit _ _ _ (by decide) hg).trans ((Channel.cur_journal _ _ _).trans (Channel.cur_setDpll _ _ _))

theorem bStateTo_evt (st : BSt) (h : c.dpll.bst ≠ st) : (c.bStateTo st).cur F.DPLL_EVT_BSTATE = 1 := by
  unfold Channel.bStateTo
  dsimp only
  rw [if_neg h]
  exact cur_evt _ _ rfl (by decide)

/-! ### Acquisition (R134) -/

theorem acquireStart_starts (hs : c.dpll.st = .freerun ∨ c.dpll.st = .holdover ∨ c.dpll.st = .holdoverLimit) (hl : c.ref.selA.prev ≠ none) :
    c.acquireStart = (c.setDpll { c.dpll with bwc := c.fld F.DPLL_BW_A_BW_ACQ, first := true, lockCnt := 0 }).stateTo .acquiring := by
  have hp : c.ref.selA.prev.isSome = true := Option.isSome_iff_ne_none.mpr hl
  unfold Channel.acquireStart
  rcases hs with h | h | h <;> (rw [h]; exact if_pos hp)

theorem acquireStart_stays (h : ¬ ((c.dpll.st = .freerun ∨ c.dpll.st = .holdover ∨ c.dpll.st = .holdoverLimit) ∧ c.ref.selA.prev ≠ none)) :
    c.acquireStart = c := by
  unfold Channel.acquireStart
  cases hst : c.dpll.st with
  | acquiring => rfl
  | locked => rfl
  | freerun => exact if_neg fun hp => h ⟨.inl hst, Option.isSome_iff_ne_none.mp hp⟩
  | holdover => exact if_neg fun hp => h ⟨.inr (.inl hst), Option.isSome_iff_ne_none.mp hp⟩
  | holdoverLimit => exact if_neg fun hp => h ⟨.inr (.inr hst), Option.isSome_iff_ne_none.mp hp⟩

/-! ### Loss of the lanes (R134, R135, R123) -/

theorem loseLaneA_loses (hs : c.dpll.st = .acquiring ∨ c.dpll.st = .locked) (hl : c.ref.selA.prev = none) :
    c.loseLaneA = if c.dpll.hoValid then c.enterHo c.now c.teb else (c.setDpll { c.dpll with teb0 := SAT }).stateTo .freerun := by
  have hp : ¬ c.ref.selA.prev.isSome = true := by rw [hl]; decide
  unfold Channel.loseLaneA
  rcases hs with h | h <;> (rw [h]; exact if_neg hp)

theorem loseLaneA_stays (h : ¬ ((c.dpll.st = .acquiring ∨ c.dpll.st = .locked) ∧ c.ref.selA.prev = none)) : c.loseLaneA = c := by
  have hp (hs : c.dpll.st = .acquiring ∨ c.dpll.st = .locked) : c.ref.selA.prev.isSome = true :=
    Option.isSome_iff_ne_none.mpr fun e => h ⟨hs, e⟩
  unfold Channel.loseLaneA
  cases hst : c.dpll.st with
  | acquiring => exact if_pos (hp (.inl hst))
  | locked => exact if_pos (hp (.inr hst))
  | freerun => rfl
  | holdover => rfl
  | holdoverLimit => rfl

theorem loseLaneB_loses (hs : c.dpll.bst = .track) (hl : c.ref.selB.prev = none) :
    c.loseLaneB = (c.setDpll { c.dpll with firstB := true }).bStateTo .hold := if_pos ⟨hs, by rw [hl]; rfl⟩

theorem loseLaneB_stays (h : ¬ (c.dpll.bst = .track ∧ c.ref.selB.prev = none)) : c.loseLaneB = c :=
  if_neg fun e => h ⟨e.1, Option.isNone_iff_eq_none.mp e.2⟩

theorem loseLaneB_evtState : c.loseLaneB.cur F.DPLL_EVT_STATE = c.cur F.DPLL_EVT_STATE := by
  unfold Channel.loseLaneB
  split
  · exact (bStateTo_cur _ (by decide)).trans (Channel.cur_setDpll _ _ _)
  · rfl

/-- What the holdover entry of DPLL_A leaves of the DPLL state, whatever DPLL_B does in it. -/
theorem holdoverEntry_a : ∃ b f, c.holdoverEntry.dpll = { c.loseLaneA.dpll with bst := b, firstB := f } ∧
    c.holdoverEntry.cur F.DPLL_EVT_STATE = c.loseLaneA.cur F.DPLL_EVT_STATE := by
  obtain ⟨b, f, h⟩ := loseLaneB_a c.loseLaneA
  exact ⟨b, f, h, loseLaneB_evtState⟩

/-- A holdover entry in which DPLL_B loses its lane, whatever DPLL_A does in it. -/
theorem holdoverEntry_b (hs : c.dpll.bst = .track) (hl : c.ref.selB.prev = none) :
    c.holdoverEntry = (c.loseLaneA.setDpll { c.loseLaneA.dpll with firstB := true }).bStateTo .hold := by
  obtain ⟨hb, -, href, -⟩ := loseLaneA_b c
  exact loseLaneB_loses (hb.trans hs) (href ▸ hl)

/-! ### Limit and aging (R29, R134, R135) -/

theorem limitEntry_limits (hs : c.dpll.st = .holdover) (ha : c.dpll.hoAct = true) (hc : c.fld F.DPLL_HO_CEIL_CEIL < c.tebHo (c.hoSecs c.spanEndT)) :
    c.limitEntry = (c.evt F.DPLL_EVT_LIMIT).stateTo .holdoverLimit := if_pos ⟨hs, ha, hc⟩

theorem hoAging_dpll (h : c.secondsHere ≠ 0 ∧ (c.dpll.st = .holdover ∨ c.dpll.st = .holdoverLimit) ∧ c.flag F.DPLL_A_CFG_AGE_EN = true ∧
      c.dpll.agedAt ≠ some c.jour.tick) :
    c.hoAging.dpll = { c.dpll with rate := clampAbs (2 ^ 50) (c.dpll.rate + c.secondsHere * c.hoAge), agedAt := some c.jour.tick } := by
  unfold Channel.hoAging
  rw [if_pos h, Channel.setDpll_dpll, setRate_dpll]

end
end Sys2Proof.Machine

namespace Sys2Proof
open Sys2Proof.Machine

/-- Settles O34: each servo either loses its lane or keeps it, and EVT.BSTATE and EVT.LIMIT lie beside EVT.STATE. -/
theorem holdoverFollowsTheLanes : Obligations.HoldoverFollowsTheLanes := by
  intro s c hl ch x fr starts losesA losesB limit ages
  have actAcq : ∀ {q : Channel → Prop}, q ch.acquireStart → ActsOn (.channelAcquireStart c) s c q := actsOn_intro (fun ch => ch.acquireStart) hl rfl rfl
  have actHo : ∀ {q : Channel → Prop}, q ch.holdoverEntry → ActsOn (.holdoverEntry c) s c q := actsOn_intro (fun ch => ch.holdoverEntry) hl rfl rfl
  have actLim : ∀ {q : Channel → Prop}, q ch.limitEntry → ActsOn (.holdoverLimitEntry c) s c q := actsOn_intro (fun ch => ch.limitEntry) hl rfl rfl
  have actAge : ∀ {q : Channel → Prop}, q ch.hoAging → ActsOn (.hoAgingIncrement c) s c q := actsOn_intro (fun ch => ch.hoAging) hl rfl rfl
  have frHo : fr ch.holdoverEntry := on_holdoverEntry rfl (Channel.onlyIn_refl _ ch)
  refine ⟨fun ⟨hs, hlane⟩ => ?_, fun h => actAcq (acquireStart_stays h), fun ⟨hs, hlane⟩ hv => actHo ?_, fun ⟨hs, hlane⟩ hv => actHo ?_,
    fun ⟨hs, hlane⟩ => actHo ?_, fun hA hB => actHo ?_, fun ⟨hs, hact, hceil⟩ => ?_, fun h => actLim (if_neg h), fun h => actAge ⟨on_hoAging rfl (Channel.onlyIn_refl _ ch), hoAging_dpll h⟩,
    fun h => actAge (if_neg h)⟩
  case refine_1 =>
    have hfr : fr ch.acquireStart := on_acquireStart rfl (Channel.onlyIn_refl _ ch)
    have hne : x.st ≠ .acquiring := by rcases hs with h | h | h <;> (rw [h]; decide)
    rw [acquireStart_starts hs hlane] at hfr actAcq
    exact actAcq ⟨hfr, stateTo_evt _ _ hne, stateTo_dpll _ _⟩
  case refine_2 =>
    obtain ⟨b, f, hd, he⟩ := holdoverEntry_a (c := ch)
    have hne : x.st ≠ .holdover := by rcases hs with h | h <;> (rw [h]; decide)
    rw [loseLaneA_loses hs hlane, if_pos hv] at hd he
    unfold Channel.enterHo at hd he
    rw [stateTo_dpll] at hd
    rw [hd]
    exact ⟨frHo, rfl, rfl, rfl, rfl, rfl, rfl, he.trans (stateTo_evt _ _ hne)⟩
  case refine_3 =>
    obtain ⟨b, f, hd, he⟩ := holdoverEntry_a (c := ch)
    have hne : x.st ≠ .freerun := by rcases hs with h | h <;> (rw [h]; decide)
    rw [loseLaneA_loses hs hlane, if_neg (ne_true_of_eq_false hv)] at hd he
    rw [stateTo_dpll] at hd
    rw [hd]
    exact ⟨frHo, rfl, rfl, rfl, he.trans (stateTo_evt _ _ hne)⟩
  case refine_4 =>
    obtain ⟨hb, hrate, -, -⟩ := loseLaneA_b ch
    rw [holdoverEntry_b hs hlane] at frHo ⊢
    have hne : (ch.loseLaneA.setDpll { ch.loseLaneA.dpll with firstB := true }).dpll.bst ≠ .hold := by
      rw [Channel.setDpll_dpll, hb, hs]
      decide
    rw [bStateTo_dpll]
    exact ⟨frHo, rfl, rfl, hrate, bStateTo_evt _ hne⟩
  case refine_5 =>
    show ch.loseLaneA.loseLaneB = ch
    rw [loseLaneA_stays hA, loseLaneB_stays hB]
  case refine_6 =>
    have hfr : fr ch.limitEntry := on_limitEntry rfl (Channel.onlyIn_refl _ ch)
    have hne : (ch.evt F.DPLL_EVT_LIMIT).dpll.st ≠ .holdoverLimit := by
      rw [show (ch.evt F.DPLL_EVT_LIMIT).dpll.st = x.st from rfl, hs]
      decide
    rw [limitEntry_limits hs hact hceil] at hfr actLim
    exact actLim ⟨hfr, stateTo_dpll _ _, (stateTo_cur _ (by decide)).trans (cur_evt _ _ rfl (by decide)), stateTo_evt _ _ hne⟩

end Sys2Proof
end

section
/-! Operator time steps (R140, R141). -/
namespace Sys2Proof.Machine

section
variable {c : Channel}

theorem action_stepCmd (c : Channel) (wr : Writer) (v : Word) : c.action wr .dpll DPLL_STEP_CMD v = c.stepCmd wr.org v := rfl

/-! ### ABORT -/

theorem stepAbort_withdraws (h : c.dpll.stepWait ≠ none) : c.stepAbort = (c.setDpll { c.dpll with stepWait := none }).put F.DPLL_STEP_CMD_WAIT 0 :=
  if_pos (Option.isSome_iff_ne_none.mpr h)

theorem stepAbort_rejects (h : c.dpll.stepWait = none) : c.stepAbort = c.evt F.DPLL_EVT_STEP_REJ :=
  if_neg (by rw [h]; decide)

/-- The channel as GO finds it, after the ABORT of the same word (R140). -/
def Channel.aborted (c : Channel) (v : Word) : Channel := if bit v 28 then c.stepAbort else c

theorem stepCmd_eq (o : Origin) (v : Word) : (c.stepCmd o v).2 = if bit v 31 then (c.aborted v).stepGo o else c.aborted v := rfl

theorem dpll_noWait (h : c.dpll.stepWait = none) : c.dpll = { c.dpll with stepWait := none } := by rw [← h]

/-- After an ABORT no step waits, and the rest of the DPLL state is as it was. -/
theorem aborted_dpll {v : Word} (h : c.dpll.stepWait = none ∨ bit v 28 = true) : (c.aborted v).dpll = { c.dpll with stepWait := none } := by
  unfold Channel.aborted
  by_cases hw : c.dpll.stepWait = none
  · split
    · rw [stepAbort_rejects hw, Channel.evt_dpll]
      exact dpll_noWait hw
    · exact dpll_noWait hw
  · rw [if_pos (h.resolve_left hw), stepAbort_withdraws hw]
    rfl

/-- An ABORT leaves the words that GO reads: the ABS bit and STEP_VAL. -/
theorem aborted_reads (v : Word) : (c.aborted v).cur F.DPLL_STEP_CMD_ABS = c.cur F.DPLL_STEP_CMD_ABS ∧ (c.aborted v).stepVal = c.stepVal := by
  unfold Channel.aborted Channel.stepAbort
  split
  · split
    · exact ⟨(cur_put_ne _ F.DPLL_STEP_CMD_WAIT F.DPLL_STEP_CMD_ABS _ (by decide) (by decide)).trans (Channel.cur_setDpll _ _ _),
        stepVal_of fun k hk => word_setWord_ne _ _ _ _ (.inr hk)⟩
    · refine ⟨Channel.cur_evt_ne _ _ _ (by decide), ?_⟩
      unfold Channel.stepVal
      congr 1
      refine List.map_congr_left fun k hk => Channel.word_evt_ne _ _ _ _ (.inr ?_)
      have : k < 4 := by simpa [upTo] using hk
      interval_cases k <;> decide
  · exact ⟨rfl, rfl⟩

/-! ### GO -/

theorem stepGo_rejects (o : Origin) (h : c.dpll.stepWait ≠ none) : c.stepGo o = c.evt F.DPLL_EVT_STEP_REJ :=
  if_pos (Option.isSome_iff_ne_none.mpr h)

theorem stepGo_waits (o : Origin) (h : c.dpll.stepWait = none) (ha : c.cur F.DPLL_STEP_CMD_ABS = 1) :
    c.stepGo o = (c.setDpll { c.dpll with stepWait := some (sar c.now 64 + 1, c.stepVal, o) }).put F.DPLL_STEP_CMD_WAIT 1 :=
  (if_neg (by rw [h]; decide)).trans (if_pos ha)

theorem stepGo_next (o : Origin) (h : c.dpll.stepWait = none) (ha : c.cur F.DPLL_STEP_CMD_ABS ≠ 1) :
    c.stepGo o = c.setDpll { c.dpll with stepNext := some (c.stepVal, o) } :=
  (if_neg (by rw [h]; decide)).trans (if_neg ha)

/-- A GO that is taken raises no event. -/
theorem stepGo_evt (o : Origin) (h : c.dpll.stepWait = none) : (c.stepGo o).cur F.DPLL_EVT_STEP_REJ = c.cur F.DPLL_EVT_STEP_REJ := by
  by_cases ha : c.cur F.DPLL_STEP_CMD_ABS = 1
  · rw [stepGo_waits o h ha]
    exact (cur_put_ne _ F.DPLL_STEP_CMD_WAIT F.DPLL_EVT_STEP_REJ _ (by decide) (by decide)).trans (Channel.cur_setDpll _ _ _)
  · rw [stepGo_next o h ha]
    exact Channel.cur_setDpll _ _ _

end

/-- The channel `y` as the action of a STEP_CMD write finds it: the word stored, the DPLL state as it was. -/
structure StepStored (c y : Channel) (v : Word) : Prop where
  only : Channel.onlyIn [.dpll, .jour, .asks] c y
  dpll : y.dpll = c.dpll
  abs : y.cur F.DPLL_STEP_CMD_ABS = b2n (bit v 30)
  val : y.stepVal = c.stepVal

/-- The channel `d` as a STEP_CMD write of `v` to `c` leaves it: the command has acted on the stored word, and only requests have followed. -/
structure StepActed (c d : Channel) (o : Origin) (v : Word) : Prop where
  only : Channel.onlyIn [.dpll, .jour, .asks] c d
  acts : ∃ y : Channel, StepStored c y v ∧ d.dpll = (y.stepCmd o v).2.dpll ∧ ∀ f, d.cur f = (y.stepCmd o v).2.cur f

theorem stepActed_of_effs {c y d : Channel} {o : Origin} {v : Word} (h : StepStored c y v) (es : List Eff) (hd : (y.stepCmd o v).2 = d) :
    StepActed c { d with effs := d.effs ++ es } o v :=
  ⟨onlyIn_effs rfl es (hd ▸ on_stepCmd o v rfl h.only), y, h, by rw [hd], fun f => by rw [hd]; rfl⟩

/-- A STEP_CMD row leaves such a channel. -/
theorem actsOn_stepCmd {s : State} {p : HostPath} {c : ChanIx} {v : Word} {i : Instr} (hi : i ∈ [Instr.stepGo p c v, .stepAbort p c v])
    (ho : s.open p) (hr : s.running c = true) {q : Channel → Prop}
    (hq : ∀ d : Channel, StepActed s.ch[c] d p.org v → q d) : ActsOn i s c q := by
  have hrow : mayRate i = false ∧ s.clear.effect i = s.clear.writeCh p c .dpll DPLL_STEP_CMD v := by
    simp only [List.mem_cons, List.not_mem_nil, or_false] at hi
    rcases hi with rfl | rfl <;> exact ⟨rfl, rfl⟩
  refine actsOn_cmd .dpll DPLL_STEP_CMD v hrow.1 hrow.2 ho hr (by decide) (by decide) (by decide) (by decide) (Channel.hasPart_none _ rfl)
    (Channel.ignores_not_sched _ _ v (by decide) (by decide)) (by decide) fun y es hy => ?_
  obtain ⟨hon, -, hdpll, -⟩ := cmd_c2 hy
  obtain ⟨habs, hval⟩ := step_abs hy
  rw [action_stepCmd]
  exact hq _ (stepActed_of_effs ⟨hon, hdpll, habs, hval⟩ es rfl)

section
variable {c y : Channel} {v : Word} (h : StepStored c y v)
include h

theorem StepStored.freed (hw : c.dpll.stepWait = none ∨ bit v 28 = true) : (y.aborted v).dpll = { c.dpll with stepWait := none } := by
  rw [aborted_dpll (h.dpll ▸ hw), h.dpll]

/-- With ABS, GO sets the step to wait for the next whole second. -/
theorem StepStored.goAbs (o : Origin) (hg : bit v 31 = true) (hw : c.dpll.stepWait = none ∨ bit v 28 = true) (ha : bit v 30 = true) :
    (y.stepCmd o v).2.cur F.DPLL_STEP_CMD_WAIT = 1 ∧
      (y.stepCmd o v).2.dpll = { c.dpll with stepWait := some (sar c.now 64 + 1, c.stepVal, o) } := by
  have hf := h.freed hw
  obtain ⟨habs, hval⟩ := aborted_reads (c := y) v
  have hnow : (y.aborted v).now = c.now := by unfold Channel.now; rw [hf]
  rw [stepCmd_eq, if_pos hg, stepGo_waits o (by rw [hf]) (by rw [habs, h.abs, ha]; rfl)]
  refine ⟨Channel.cur_put_lt _ F.DPLL_STEP_CMD_WAIT 1 (by decide) (by decide), ?_⟩
  rw [Channel.put_dpll, Channel.setDpll_dpll, hnow, hval, h.val, hf]

/-- Without ABS, GO leaves the step to the next tick. -/
theorem StepStored.goNext (o : Origin) (hg : bit v 31 = true) (hw : c.dpll.stepWait = none ∨ bit v 28 = true) (ha : bit v 30 = false) :
    (y.stepCmd o v).2.dpll = { c.dpll with stepWait := none, stepNext := some (c.stepVal, o) } := by
  have hf := h.freed hw
  obtain ⟨habs, hval⟩ := aborted_reads (c := y) v
  rw [stepCmd_eq, if_pos hg, stepGo_next o (by rw [hf]) (by rw [habs, h.abs, ha]; decide), Channel.setDpll_dpll, hval, h.val, hf]

theorem StepStored.goRejects (o : Origin) (hg : bit v 31 = true) (hw : c.dpll.stepWait ≠ none) (hb : bit v 28 = false) :
    (y.stepCmd o v).2.dpll = c.dpll ∧ (y.stepCmd o v).2.cur F.DPLL_EVT_STEP_REJ = 1 := by
  rw [stepCmd_eq, if_pos hg, Channel.aborted, if_neg (ne_true_of_eq_false hb), stepGo_rejects o (h.dpll ▸ hw)]
  exact ⟨h.dpll, cur_evt _ _ rfl (by decide)⟩

theorem StepStored.withdraws (o : Origin) (hg : bit v 31 = false) (hb : bit v 28 = true) (hw : c.dpll.stepWait ≠ none) :
    (y.stepCmd o v).2.dpll = { c.dpll with stepWait := none } ∧ (y.stepCmd o v).2.cur F.DPLL_STEP_CMD_WAIT = 0 := by
  rw [stepCmd_eq, if_neg (ne_true_of_eq_false hg)]
  refine ⟨h.freed (.inr hb), ?_⟩
  rw [Channel.aborted, if_pos hb, stepAbort_withdraws (h.dpll ▸ hw)]
  exact waitZero _

/-- An ABORT without a waiting step is rejected, whatever GO does. -/
theorem StepStored.abortRejects (o : Origin) (hb : bit v 28 = true) (hw : c.dpll.stepWait = none) :
    (y.stepCmd o v).2.cur F.DPLL_EVT_STEP_REJ = 1 := by
  have hr : (y.aborted v).cur F.DPLL_EVT_STEP_REJ = 1 := by
    rw [Channel.aborted, if_pos hb, stepAbort_rejects (h.dpll ▸ hw)]
    exact cur_evt _ _ rfl (by decide)
  rw [stepCmd_eq]
  split
  · exact (stepGo_evt o (by rw [h.freed (.inr hb)])).trans hr
  · exact hr

theorem StepStored.idle (o : Origin) (hg : bit v 31 = false) (hb : bit v 28 = false) : (y.stepCmd o v).2.dpll = c.dpll := by
  rw [stepCmd_eq, if_neg (ne_true_of_eq_false hg), Channel.aborted, if_neg (ne_true_of_eq_false hb)]
  exact h.dpll

end

section
variable {c y : Channel} {z : Int} {w : Gt} {o : Origin} {delta : Gt}

/-! ### The absolute step -/

/-- What the absolute step of `c` by `delta`, of origin `o`, leaves in the channel `d`. -/
structure Stepped (c d : Channel) (o : Origin) (delta : Gt) : Prop where
  stepWait : d.dpll.stepWait = none
  ctr : d.dpll.ctr = c.dpll.ctr + delta * 2 ^ 32
  rate : d.dpll.rate = c.dpll.rate
  pend : d.dpll.pend = c.dpll.pend
  waitA : d.dpll.waitA = []
  waitB : d.dpll.waitB = []
  wait : d.cur F.DPLL_STEP_CMD_WAIT = 0
  evt : d.cur F.DPLL_EVT_STEP = 1
  book : Eff.book ⟨o, 0x04, winReg c.ix .dpll (DPLL_TIME 2), wordOf delta 2, wordOf delta 1⟩ ∈ d.effs

theorem doStep_stepped (hyd : y.dpll = { c.dpll with stepWait := none }) (hix : y.ix = c.ix) (hwait : y.cur F.DPLL_STEP_CMD_WAIT = 0) :
    Stepped c (y.doStep delta o) o delta := by
  obtain ⟨hevt, hkeeps, hbook⟩ := doStep_marks y delta o
  have hd := doStep_dpll y delta o
  rw [hyd] at hd
  rw [hix] at hbook
  refine ⟨?_, ?_, ?_, ?_, ?_, ?_, hkeeps.trans hwait, hevt, hbook⟩
  all_goals rw [hd]

theorem stepAbs_stepped (hw : c.dpll.stepWait = some (z, w, o)) (hz : c.reached (z * 2 ^ 64) = true) :
    Stepped c c.stepAbs o ((sar w 64 - z) * 2 ^ 64) := by
  rw [stepAbs_eq hw hz]
  exact doStep_stepped ((Channel.put_dpll _ _ _).trans (Channel.setDpll_dpll _ _)) ((Channel.put_ix _ _ _).trans (Channel.setDpll_ix _ _)) (waitZero _)

end
end Sys2Proof.Machine

namespace Sys2Proof
open Sys2Proof.Machine

/-- Settles O35: ABORT first, then GO on the channel it leaves; the absolute step is one move of the counter. -/
theorem operatorStepsWaitForTheirTime : Obligations.OperatorStepsWaitForTheirTime := by
  constructor
  · intro s p c v ho hr ch x fr go ab i hi
    have cmd : ∀ {q : Channel → Prop}, (∀ d : Channel, StepActed ch d p.org v → q d) → ActsOn i s c q := actsOn_stepCmd hi ho hr
    refine ⟨fun hg hw ha => cmd fun d ⟨hon, y, hy, hd, hcur⟩ => ⟨hon, ?_⟩, fun hg hw ha => cmd fun d ⟨hon, y, hy, hd, hcur⟩ => ⟨hon, ?_⟩,
      fun hg hw hb => cmd fun d ⟨hon, y, hy, hd, hcur⟩ => ⟨hon, ?_⟩, fun hg hb hw => cmd fun d ⟨hon, y, hy, hd, hcur⟩ => ⟨hon, ?_⟩,
      fun hb hw => cmd fun d ⟨hon, y, hy, hd, hcur⟩ => ⟨hon, ?_⟩, fun hg hb => cmd fun d ⟨hon, y, hy, hd, hcur⟩ => ⟨hon, ?_⟩⟩
    all_goals simp only [hd, hcur]
    · exact hy.goAbs p.org hg hw ha
    · exact hy.goNext p.org hg hw ha
    · exact hy.goRejects p.org hg hw hb
    · exact hy.withdraws p.org hg hb hw
    · exact hy.abortRejects p.org hb hw
    · exact hy.idle p.org hg hb
  · intro s c hl ch x
    have act : ∀ {q : Channel → Prop}, q ch.stepAbs → ActsOn (.stepAbsApply c) s c q := actsOn_intro (fun ch => ch.stepAbs) hl rfl rfl
    refine ⟨?_, fun hno => act ?_⟩
    · intro z w o hw hz delta
      have hfr : Channel.onlyIn [.dpll, .jour, .asks] ch ch.stepAbs := on_stepAbs rfl (Channel.onlyIn_refl _ ch)
      obtain ⟨hwait, hctr, hrate, hpend, hwaitA, hwaitB, hbit, hevt, hbook⟩ := stepAbs_stepped hw hz
      exact act ⟨hfr, hwait, hctr, hrate, hpend, hwaitA, hwaitB, hbit, hevt, hbook⟩
    · cases hw : x.stepWait with
      | none => unfold Channel.stepAbs; rw [hw]
      | some e =>
        obtain ⟨z, w, o⟩ := e
        exact absNot hw (hno z w o hw)

end Sys2Proof
end

section
/-! Oscillator characterization (R139). -/
namespace Sys2Proof.Machine

/-! ### The command -/

theorem charCmd_starts {s : State} {slot : ℕ} {m : CmdSt} (hm : s.running? slot 2 = some m) (hr : s.running m.chan = true) (hb : m.begun = false) :
    s.charCmd slot = (s.begin' slot).setCh m.chan (Channel.settle s.ch[m.chan] (s.ch[m.chan].charStart slot (leAt m.param 0 2) m.org)) := by
  unfold State.charCmd
  rw [hm]
  have hr' : (s.begin' slot).running m.chan = true := hr
  have hch : (s.begin' slot).ch = s.ch := rfl
  dsimp only
  rw [hb, if_neg (by decide), onCh_running hr', hch]

theorem charCmd_begun {s : State} {slot : ℕ} {m : CmdSt} (hm : s.running? slot 2 = some m) (hb : m.begun = true) : s.charCmd slot = s := by
  unfold State.charCmd
  rw [hm]
  exact if_pos hb

theorem charStart_dpll (c : Channel) (slot nsamp : ℕ) (org : Origin) : (c.charStart slot nsamp org).dpll = { c.dpll with
    char := some ⟨slot, nsamp, (Int.fdiv (sar c.now 64) 1024 + 1) * 1024, [], 0, false, org⟩ } := by
  unfold Channel.charStart Channel.charJournal
  rw [Channel.journal_dpll, Channel.setDpll_dpll]

/-! ### A sample instant -/

section
variable {c : Channel} {o : CharOp}

theorem charSample_idle (h : ∀ o, c.dpll.char = some o → c.reached (o.next * 2 ^ 64) = false) : c.charSample = c := by
  unfold Channel.charSample
  cases hc : c.dpll.char with
  | none => rfl
  | some o => exact if_pos (by rw [h o hc]; rfl)

/-- The channel with the learned coefficients of the samples `ss` in its registers, as the last sample of a command in `slot` leaves it. -/
def Channel.learns (c : Channel) (ss : List (Int × Int)) (slot : ℕ) : Channel :=
  ((((((((c.put F.DPLL_LRN_B_B (min (Channel.characterize ss).2.1 SAT)).put F.DPLL_LRN_C_C (min (Channel.characterize ss).2.2 SAT)).setWord
    .dpll (DPLL_LRN_AGE 0) (wordOf (Channel.characterize ss).1 0)).setWord .dpll (DPLL_LRN_AGE 1) (wordOf (Channel.characterize ss).1 1)).put
    F.DPLL_LRN_STAT_VALID 1).put F.DPLL_LRN_STAT_SAMPLES ss.length).evt F.DPLL_EVT_CHAR).charEnd 0).ask (.opEnd slot 0 0)

theorem charEnd_cur (c : Channel) (n : ℕ) (f : KF) : (c.charEnd n).cur f = c.cur f := by
  unfold Channel.cur
  rw [charEnd_word]

theorem learns_samples (c : Channel) (ss : List (Int × Int)) (slot : ℕ) : (c.learns ss slot).cur F.DPLL_LRN_STAT_SAMPLES = ss.length % 2 ^ 16 := by
  unfold Channel.learns Channel.ask
  rw [Channel.cur_asking, charEnd_cur, Channel.cur_evt_ne _ _ _ (by decide), cur_put_self _ _ _ (by decide)]
  rfl

section
variable (h : c.dpll.char = some o) (hr : c.reached (o.next * 2 ^ 64) = true)
include h hr

theorem charSample_suspended (hs : o.suspended = true) : c.charSample = c.setDpll { c.dpll with char := some { o with next := o.next + 1024 } } := by
  rw [charSample_some h hr]
  exact if_pos hs

section
variable (hs : o.suspended = false)
include hs

/-- A sample, by whether it is the last. -/
theorem charSample_locked {ss : List (Int × Int)} (hss : o.samples ++ [(o.next, c.dpll.rate)] = ss) (hl : c.dpll.st = .locked) :
    c.charSample = if ss.length < o.nsamp then c.setDpll { c.dpll with char := some { o with next := o.next + 1024, samples := ss, missed := 0 } }
      else (c.setDpll { c.dpll with char := some { o with next := o.next + 1024, samples := ss, missed := 0 } }).learns ss o.slot := by
  subst hss
  rw [charSample_some h hr]
  exact (if_neg (ne_true_of_eq_false hs)).trans (if_pos hl)

/-- A miss, by whether it is the sixteenth in a row. -/
theorem charSample_missed (hl : c.dpll.st ≠ .locked) :
    c.charSample = if 16 ≤ o.missed + 1
      then (((c.setDpll { c.dpll with char := some { o with next := o.next + 1024, missed := o.missed + 1 } }).evt F.DPLL_EVT_CHAR).charEnd 9).ask
        (.opEnd o.slot 9 0)
      else c.setDpll { c.dpll with char := some { o with next := o.next + 1024, missed := o.missed + 1 } } := by
  rw [charSample_some h hr]
  exact (if_neg (ne_true_of_eq_false hs)).trans (if_neg hl)

theorem charSample_fails (hl : c.dpll.st ≠ .locked) (hm : 16 ≤ o.missed + 1) : c.charSample.dpll = { c.dpll with char := none } ∧
    c.charSample.cur F.DPLL_EVT_CHAR = 1 ∧ Eff.opEnd o.slot 9 0 ∈ c.charSample.effs := by
  rw [charSample_missed h hr hs hl, if_pos hm]
  generalize hy : (c.setDpll { c.dpll with char := some { o with next := o.next + 1024, missed := o.missed + 1 } }).evt F.DPLL_EVT_CHAR = y
  have hyd : y.dpll = { c.dpll with char := some { o with next := o.next + 1024, missed := o.missed + 1 } } := by
    rw [← hy, Channel.evt_dpll, Channel.setDpll_dpll]
  have hevt : y.cur F.DPLL_EVT_CHAR = 1 := hy ▸ cur_evt _ _ rfl (by decide)
  have hend : (y.charEnd 9).dpll = { y.dpll with char := none } := charEnd_dpll 9 (by rw [hyd])
  rw [hyd] at hend
  exact ⟨hend, (charEnd_cur y 9 _).trans hevt, by rw [Channel.ask_effs]; simp⟩

theorem charSample_completes {ss : List (Int × Int)} (hss : o.samples ++ [(o.next, c.dpll.rate)] = ss) (hl : c.dpll.st = .locked) (hn : o.nsamp ≤ ss.length) :
    c.charSample.dpll = { c.dpll with char := none } ∧ c.charSample.cur F.DPLL_LRN_B_B = min (Channel.characterize ss).2.1 SAT ∧
      c.charSample.cur F.DPLL_LRN_C_C = min (Channel.characterize ss).2.2 SAT ∧ c.charSample.word .dpll (DPLL_LRN_AGE 0) = wordOf (Channel.characterize ss).1 0 ∧
      c.charSample.word .dpll (DPLL_LRN_AGE 1) = wordOf (Channel.characterize ss).1 1 ∧ c.charSample.cur F.DPLL_LRN_STAT_VALID = 1 ∧
      c.charSample.cur F.DPLL_LRN_STAT_SAMPLES = ss.length % 2 ^ 16 ∧ c.charSample.cur F.DPLL_EVT_CHAR = 1 ∧ Eff.opEnd o.slot 0 0 ∈ c.charSample.effs := by
  rw [charSample_locked h hr hs hss hl, if_neg (Nat.not_lt.mpr hn)]
  generalize hy : c.setDpll { c.dpll with char := some { o with next := o.next + 1024, samples := ss, missed := 0 } } = y
  have hyd : y.dpll = { c.dpll with char := some { o with next := o.next + 1024, samples := ss, missed := 0 } } := by rw [← hy, Channel.setDpll_dpll]
  have hsamples := learns_samples y ss o.slot
  obtain ⟨d, hd, hdpll, hvalid, hb, hc, hage0, hage1, hevt, hend⟩ := lastSample y _ (by rw [hyd]) (Channel.characterize ss).1
    (min (Channel.characterize ss).2.1 SAT) (min (Channel.characterize ss).2.2 SAT) ss.length o.slot (Nat.min_le_right _ _) (Nat.min_le_right _ _)
  rw [show y.learns ss o.slot = d from hd] at hsamples ⊢
  rw [hyd] at hdpll
  exact ⟨hdpll, hb, hc, hage0, hage1, hvalid, hsamples, hevt, hend⟩

end
end
end
end Sys2Proof.Machine

namespace Sys2Proof
open Sys2Proof.Machine

/-- Settles O36: the command's first turn, and an instant that passes, samples, completes, or misses. -/
theorem characterizationLearnsTheOscillator : Obligations.CharacterizationLearnsTheOscillator := by
  refine ⟨fun s slot m hs hm hr => ⟨fun hb => ?_, fun hb => ?_⟩, fun s c hl => ?_⟩
  · refine acts_intro hs rfl ?_
    rw [show s.clear.effect (.cmdOscCharacterization slot) = s.clear.charCmd slot.val from rfl, charCmd_starts (s := s.clear) hm hr hb]
    exact ⟨in_setCh _ _ rfl (in_begin' _ rfl (in_clear rfl (State.onlyIn_refl _ s))), _,
      ⟨on_charStart slot.val _ _ rfl (Channel.onlyIn_refl _ _), charStart_dpll _ _ _ _⟩, setCh_ch_self _ _ _, fun k hk => setCh_ch_ne _ _ hk.symm⟩
  · refine acts_intro hs rfl ?_
    rw [show s.clear.effect (.cmdOscCharacterization slot) = s.clear.charCmd slot.val from rfl, charCmd_begun (s := s.clear) hm hb]
    exact in_clear rfl (State.onlyIn_refl _ s)
  · intro ch Runs fr
    have run : ∀ {q : Channel → Prop}, q ch.charSample → Runs q := acts_prog (fun ch => ch.charSample) hl rfl rfl
    have hfr : fr ch.charSample := on_charSample rfl (Channel.onlyIn_refl _ ch)
    refine ⟨fun o ho hr => ?_, fun hno => run (charSample_idle hno)⟩
    intro ss k goesOn
    have next : ∀ d : DpllSt, Channel.onlyIn [.dpll] ch (ch.setDpll d) := fun d => on_setDpll d rfl (Channel.onlyIn_refl _ ch)
    refine ⟨fun hs => run ?_, fun hs hst hn => run ?_, fun hs hst hn => run ⟨hfr, charSample_completes ho hr hs rfl hst hn⟩, fun hs hst hm => run ?_,
      fun hs hst hm => run ⟨hfr, charSample_fails ho hr hs hst hm⟩⟩
    · rw [charSample_suspended ho hr hs]
      exact ⟨next _, rfl, rfl⟩
    · rw [charSample_locked ho hr hs rfl hst, if_pos hn]
      exact ⟨next _, rfl, rfl⟩
    · rw [charSample_missed ho hr hs hst, if_neg (Nat.not_le.mpr hm)]
      exact ⟨next _, rfl, rfl⟩

end Sys2Proof
end

section
/-! What a change of a channel leaves of the SYN block's registers, and of its outputs one by one (R155 to R159, R172). -/
namespace Sys2Proof.Machine

/-! ### Words of the SYN block -/

/-- From `c` to `d` the settings in use are the same, and of the SYN block's words only those at the offsets `offs` may differ. -/
structure SynWords (offs : List ℕ) (c d : Channel) : Prop where
  uses : Uses c d
  word : ∀ o, o ∉ offs → d.word .syn o = c.word .syn o

/-- The words that a synthesizer's moves change: its status and the block's events (R172). -/
def synMarks (k : Fin 2) : List ℕ := [SYN_SYN_STAT k.val, SYN_EVT]

namespace SynWords
variable {offs : List ℕ} {c x y : Channel}

theorem refl (offs : List ℕ) (c : Channel) : SynWords offs c c := ⟨Uses.refl c, fun _ _ => rfl⟩

theorem trans (h : SynWords offs c x) (g : SynWords offs x y) : SynWords offs c y :=
  ⟨h.uses.trans g.uses, fun o ho => (g.word o ho).trans (h.word o ho)⟩

theorem mono {more : List ℕ} (h : SynWords offs c x) (hs : ∀ o ∈ offs, o ∈ more) : SynWords more c x :=
  ⟨h.uses, fun o ho => h.word o (fun hm => ho (hs o hm))⟩

theorem of_regs (offs : List ℕ) (h : x.regs = c.regs) : SynWords offs c x :=
  ⟨⟨fun b => by unfold Channel.rf; rw [h], fun b => by unfold Channel.rf; rw [h]⟩, fun _ _ => word_of_regs h _ _⟩

theorem put (f : KF) (v : ℕ) (hf : f.off ∈ offs) : SynWords offs c (c.put f v) :=
  ⟨us_put f v (Uses.refl c), fun _ ho => word_putF_ne _ _ _ _ _ (.inr (fun e => ho (e ▸ hf)))⟩

theorem evt (f : KF) (hf : f.off ∈ offs) : SynWords offs c (c.evt f) :=
  ⟨us_evt f (Uses.refl c), fun _ ho => Channel.word_evt_ne _ _ _ _ (.inr (fun e => ho (e ▸ hf)))⟩

theorem ask (e : Eff) : SynWords offs c (c.ask e) := of_regs offs rfl

theorem setSyn (y : SynBlk) : SynWords offs c (c.setSyn y) := of_regs offs rfl

theorem ite {p : Prop} [Decidable p] (hx : SynWords offs c x) (hy : SynWords offs c y) : SynWords offs c (if p then x else y) := by
  split <;> assumption

theorem fold {α : Type} {g : Channel → α → Channel} (hg : ∀ c a, SynWords offs c (g c a)) : ∀ (l : List α) (c : Channel), SynWords offs c (l.foldl g c)
  | [], c => refl _ c
  | a :: l, c => (hg c a).trans (fold hg l (g c a))

theorem cur (h : SynWords offs c x) {g : KF} (hb : g.blk = .syn) (ho : g.off ∉ offs) : x.cur g = c.cur g := by
  unfold Channel.cur
  rw [hb, h.word g.off ho]

theorem useWord (h : SynWords offs c x) (o : ℕ) : x.useWord .syn o = c.useWord .syn o := by
  unfold Channel.useWord
  rw [h.uses.use]

theorem fld (h : SynWords offs c x) {g : KF} (hs : g.sh = true) : x.fld g = c.fld g := by
  unfold Channel.fld Channel.useWord
  rw [if_pos hs, if_pos hs, h.uses.use]

theorem flag (h : SynWords offs c x) {g : KF} (hs : g.sh = true) : x.flag g = c.flag g := by
  unfold Channel.flag
  rw [h.fld hs]

theorem follow (h : SynWords offs c x) (k : ℕ) : x.follow k = c.follow k := h.fld rfl

theorem synOuts (h : SynWords offs c x) (k : ℕ) : x.synOuts k = c.synOuts k := by
  unfold Channel.synOuts
  refine congrArg (fun p => List.filter p (List.finRange 8)) (funext fun m => ?_)
  rw [h.flag (g := F.SYN_OUT_CFG_EN m.val) rfl, h.fld (g := F.SYN_OUT_CFG_SRC m.val) rfl]

/-- A field above the 32 bits of a word reads 0. -/
theorem getField_high (w : Word) {l n : ℕ} (h : 32 ≤ l) : getField w l n = 0 := by
  unfold getField
  rw [Nat.div_eq_of_lt (lt_of_lt_of_le w.isLt (Nat.pow_le_pow_right (by decide) h)), Nat.zero_mod]

/-- What changes only whole words leaves every field outside them. -/
theorem keeps (h : SynWords offs c x) : Channel.keeps .syn (offs.map fun o => ⟨.syn, o, 0, 32, false⟩) c x := by
  refine ⟨h.useWord, fun g hb hg => ?_⟩
  by_cases ho : g.off ∈ offs
  · rcases hg _ (List.mem_map_of_mem ho) with hne | hhigh | hnone
    · exact absurd rfl hne
    · unfold Channel.cur
      rw [getField_high _ (by simpa using hhigh), getField_high _ (by simpa using hhigh)]
    · have hw : g.w = 0 := by simp only at hnone; omega
      unfold Channel.cur getField
      rw [hw, pow_zero, Nat.mod_one, Nat.mod_one]
  · exact h.cur hb ho

end SynWords

theorem outsOnly_words {c d : Channel} (offs : List ℕ) (h : OutsOnly c d) : SynWords offs c d := .of_regs offs h.regs

theorem synWords_synTo (k : Fin 2) (c : Channel) (st : ℕ) : SynWords (synMarks k) c (c.synTo k.val st) := by
  unfold Channel.synTo
  refine .ite (.refl _ c) ((SynWords.put _ _ (by simp [synMarks, F.SYN_SYN_STAT_STATE, SYN_SYN_STAT])).trans (.evt _ ?_))
  unfold synMarks
  split <;> simp [F.SYN_EVT_SYN0, F.SYN_EVT_SYN1, SYN_EVT]

theorem synWords_setSynK (offs : List ℕ) (c : Channel) (k : ℕ) (x : SynK) : SynWords offs c (c.setSynK k x) := .of_regs offs rfl

theorem synWords_setSynK' (offs : List ℕ) (c : Channel) (k : ℕ) (f : SynK → SynK) : SynWords offs c (c.setSynK' k f) := synWords_setSynK offs c k _

theorem cur_setSynK' (c : Channel) (k : ℕ) (f : SynK → SynK) (g : KF) : (c.setSynK' k f).cur g = c.cur g := rfl

theorem useWord_setSynK' (c : Channel) (k : ℕ) (f : SynK → SynK) (b : KB) (o : ℕ) : (c.setSynK' k f).useWord b o = c.useWord b o := rfl

theorem perr_not_mark (j k : Fin 2) : SYN_SYN_PERR j.val ∉ synMarks k := by revert j k; decide

theorem stat_not_mark {j k : Fin 2} (h : j ≠ k) : SYN_SYN_STAT j.val ∉ synMarks k := by revert j k; decide

/-- A synthesizer's moves leave the state of the other one. -/
theorem SynWords.synSt_ne {j k : Fin 2} {c d : Channel} (h : SynWords (synMarks k) c d) (hj : j ≠ k) : d.synSt j.val = c.synSt j.val :=
  h.cur (g := F.SYN_SYN_STAT_STATE j.val) rfl (stat_not_mark hj)

/-! ### Outputs one by one -/

/-- A fold that touches one output at a time does to each output of the list what its own step does, whatever was done to the others. -/
theorem fold_each_out {g : Channel → Fin 8 → Channel} {a : Channel} {R : OutSt → OutSt → Prop} (hself : ∀ c m, OutsOnly a c → R (c.out m) ((g c m).out m))
    (hne : ∀ c m j, j ≠ m → (g c m).out j = c.out j) (hg : ∀ c m, OutsOnly c (g c m)) :
    ∀ (l : List (Fin 8)) (c : Channel), l.Nodup → OutsOnly a c →
      OutsOnly a (l.foldl g c) ∧ (∀ m ∈ l, R (c.out m) ((l.foldl g c).out m)) ∧ ∀ m, m ∉ l → (l.foldl g c).out m = c.out m
  | [], c, _, hc => ⟨hc, fun _ h => absurd h List.not_mem_nil, fun _ _ => rfl⟩
  | m :: l, c, hl, hc => by
    obtain ⟨hm, hl⟩ := List.nodup_cons.mp hl
    obtain ⟨honly, hin, hout⟩ := fold_each_out hself hne hg l (g c m) hl (hc.trans (hg c m))
    refine ⟨honly, fun j hj => ?_, fun j hj => ?_⟩
    · rcases List.mem_cons.mp hj with rfl | hjl
      · rw [List.foldl_cons, hout j hm]
        exact hself c j hc
      · rw [← hne c m j (fun e => hm (e ▸ hjl))]
        exact hin j hjl
    · obtain ⟨hjm, hjl⟩ := not_or.mp (List.mem_cons.not.mp hj)
      exact (hout j hjl).trans (hne c m j hjm)

theorem outsOnly_fold {g : Channel → Fin 8 → Channel} (hg : ∀ c m, OutsOnly c (g c m)) : ∀ (l : List (Fin 8)) (c : Channel), OutsOnly c (l.foldl g c)
  | [], c => .refl c
  | m :: l, c => (hg c m).trans (outsOnly_fold hg l (g c m))

theorem synOuts_nodup (c : Channel) (k : ℕ) : (c.synOuts k).Nodup := (List.nodup_finRange 8).filter _

/-- A cause of a stop taken away changes what `f` says of an output, and when it stops or restarts. -/
theorem out_release (c : Channel) (m : Fin 8) (f : OutSt → OutSt) : ∃ s r, (c.release m f).out m = { f (c.out m) with stop := s, restart := r } := by
  unfold Channel.release
  extract_lets o low o1 f2 at'
  split
  · exact ⟨_, _, out_updOut c m f⟩
  · exact ⟨_, _, out_updOut c m _⟩

theorem out_release_ne (c : Channel) (m : Fin 8) (f : OutSt → OutSt) {j : Fin 8} (h : j ≠ m) : (c.release m f).out j = c.out j := by
  unfold Channel.release
  extract_lets o low o1 f2 at'
  split <;> exact out_updOut_ne c m _ h

theorem outsOnly_release (c : Channel) (m : Fin 8) (f : OutSt → OutSt) : OutsOnly c (c.release m f) := by
  unfold Channel.release
  extract_lets o low o1 f2 at'
  split <;> exact oo_updOut c m _

/-- An output that lacks the cause is not touched. -/
theorem out_release_same {c : Channel} {m : Fin 8} {f : OutSt → OutSt} (h : f (c.out m) = c.out m) : (c.release m f).out m = c.out m := by
  have hcond : (!Channel.stopping (c.out m) || Channel.stopping (f (c.out m))) = true := by
    rw [h]
    exact Bool.not_or_self _
  unfold Channel.release
  extract_lets o low o1 f2 at'
  rw [if_pos hcond, out_updOut, h]

/-- A stop marked on an output changes what `f` says of it, and when it stops or restarts. -/
theorem out_stopOut (c : Channel) (m : Fin 8) (planned : Bool) (f : OutSt → OutSt) :
    ∃ s r, (c.stopOut m planned f).out m = f { c.out m with stop := s, restart := r } := by
  unfold Channel.stopOut
  extract_lets t
  rw [out_updOut]
  split
  · exact ⟨_, _, rfl⟩
  · exact ⟨_, _, rfl⟩

theorem out_stopOut_ne (c : Channel) (m : Fin 8) (planned : Bool) (f : OutSt → OutSt) {j : Fin 8} (h : j ≠ m) :
    (c.stopOut m planned f).out j = c.out j := out_updOut_ne c m _ h

theorem outsOnly_stopOut (c : Channel) (m : Fin 8) (planned : Bool) (f : OutSt → OutSt) : OutsOnly c (c.stopOut m planned f) := by
  unfold Channel.stopOut
  exact oo_updOut c m _

end Sys2Proof.Machine
end

section
/-! A synthesizer enters COAST or ACQ (R155, R157, R159). -/
namespace Sys2Proof.Machine

/-- A change of state with its event; the other fields of the status stay (R172). -/
theorem synTo_moves {c : Channel} {k : Fin 2} {st : ℕ} (hne : c.synSt k.val ≠ st) (hst : st < 4) :
    (c.synTo k.val st).synSt k.val = st ∧ (c.synTo k.val st).cur (synEv k) = 1 ∧
      ∀ g : KF, g.off = SYN_SYN_STAT k.val → g.lsb + g.w ≤ 30 → (c.synTo k.val st).cur g = c.cur g := by
  obtain ⟨d, hd, -, -, -, hs, he, hg⟩ := synTo_facts c k st hne hst
  rw [hd]
  exact ⟨hs, he, hg⟩

theorem synEv_off (k : Fin 2) : (synEv k).off = SYN_EVT := by
  unfold synEv
  split <;> rfl

theorem stat_ne_evt (k : Fin 2) : SYN_EVT ≠ SYN_SYN_STAT k.val := by revert k; decide

theorem synTo_syn (c : Channel) (k st : ℕ) : (c.synTo k st).syn = c.syn := by
  unfold Channel.synTo
  split
  · rfl
  · rw [Channel.evt_syn, Channel.put_syn]

/-! ### COAST -/

/-- Synthesizer `k` has entered COAST from `c` to `d`, which `f` tells (R155, R159). -/
structure Coasts (k : Fin 2) (f : KF) (c d : Channel) : Prop where
  st : d.synSt k.val = SYN_COAST
  ev : d.cur (synEv k) = 1
  told : d.cur f = 1
  relocks : d.cur (F.SYN_SYN_STAT_RELOCKS k.val) = (c.cur (F.SYN_SYN_STAT_RELOCKS k.val) + 1) % 65536
  others : ∀ m, m ∉ c.synOuts k.val → d.out m = c.out m
  outs : ∀ m ∈ c.synOuts k.val, if c.flag (F.SYN_SYN_CFG_COAST_SQ k.val) = true
    then (d.out m).coast = true ∧ (d.out m).hold = (c.out m).hold ∧ (d.out m).ran = (c.out m).ran
    else d.out m = { c.out m with ran := (c.out m).ran || !(c.out m).hold }

/-- What has not touched the settings, the outputs or RELOCKS may come before the entry. -/
theorem Coasts.after {k : Fin 2} {f : KF} {c x d : Channel} {offs : List ℕ} (h : Coasts k f x d) (hw : SynWords offs c x) (hsyn : x.syn = c.syn)
    (hrel : x.cur (F.SYN_SYN_STAT_RELOCKS k.val) = c.cur (F.SYN_SYN_STAT_RELOCKS k.val)) : Coasts k f c d := by
  obtain ⟨st, ev, told, relocks, others, outs⟩ := h
  have hout : ∀ m, x.out m = c.out m := fun m => by unfold Channel.out; rw [hsyn]
  rw [hrel] at relocks
  simp only [hw.synOuts, hout, hw.flag (g := F.SYN_SYN_CFG_COAST_SQ k.val) rfl] at others outs
  exact ⟨st, ev, told, relocks, others, outs⟩

/-- What entry to COAST does to one output. -/
def Channel.coastOut (k : ℕ) (c : Channel) (m : Fin 8) : Channel :=
  if c.flag (F.SYN_SYN_CFG_COAST_SQ k) then c.stopOut m false (fun o => { o with coast := true })
  else c.updOut m (fun o => { o with ran := o.ran || !o.hold })

theorem outsOnly_coastOut (k : ℕ) (c : Channel) (m : Fin 8) : OutsOnly c (Channel.coastOut k c m) := by
  unfold Channel.coastOut
  split
  · exact outsOnly_stopOut c m _ _
  · exact oo_updOut c m _

theorem coastOut_ne (k : ℕ) (c : Channel) (m j : Fin 8) (h : j ≠ m) : (Channel.coastOut k c m).out j = c.out j := by
  unfold Channel.coastOut
  split
  · exact out_stopOut_ne c m _ _ h
  · exact out_updOut_ne c m _ h

theorem coastOut_self (k : ℕ) (c : Channel) (m : Fin 8) : if c.flag (F.SYN_SYN_CFG_COAST_SQ k) = true
    then ((Channel.coastOut k c m).out m).coast = true ∧ ((Channel.coastOut k c m).out m).hold = (c.out m).hold ∧
      ((Channel.coastOut k c m).out m).ran = (c.out m).ran
    else (Channel.coastOut k c m).out m = { c.out m with ran := (c.out m).ran || !(c.out m).hold } := by
  unfold Channel.coastOut
  split
  · obtain ⟨s, r, h⟩ := out_stopOut c m false (fun o => { o with coast := true })
    rw [h]
    exact ⟨rfl, rfl, rfl⟩
  · exact out_updOut c m _

/-- The registers of a synthesizer that enters COAST: its state, the flag `f` that tells why, and RELOCKS. -/
def Channel.coastMarks (c : Channel) (k : ℕ) (f : KF) : Channel := ((c.synTo k SYN_COAST).evt f).bump (F.SYN_SYN_STAT_RELOCKS k)

theorem toCoast_eq (c : Channel) (k : ℕ) (f : KF) :
    c.toCoast k f = ((c.coastMarks k f).synOuts k).foldl (Channel.coastOut k) (c.coastMarks k f) := rfl

theorem coastMarks_syn (c : Channel) (k : ℕ) (f : KF) : (c.coastMarks k f).syn = c.syn := by
  unfold Channel.coastMarks
  rw [Channel.bump_syn, Channel.evt_syn, synTo_syn]

section
variable {c : Channel} {k : Fin 2} {f : KF} (ho : f.off = SYN_SYN_STAT k.val)
include ho

theorem coastMarks_words : SynWords (synMarks k) c (c.coastMarks k.val f) :=
  ((synWords_synTo k c SYN_COAST).trans (.evt f (by rw [ho]; exact List.mem_cons_self))).trans (.put _ _ List.mem_cons_self)

theorem coastMarks_fields (hw : f.w = 1) (hlo : 16 ≤ f.lsb) (hhi : f.lsb < 29) (h : c.synSt k.val ≠ SYN_COAST) :
    (c.coastMarks k.val f).synSt k.val = SYN_COAST ∧ (c.coastMarks k.val f).cur (synEv k) = 1 ∧ (c.coastMarks k.val f).cur f = 1 ∧
      (c.coastMarks k.val f).cur (F.SYN_SYN_STAT_RELOCKS k.val) = (c.cur (F.SYN_SYN_STAT_RELOCKS k.val) + 1) % 65536 ∧
      (c.coastMarks k.val f).cur (F.SYN_SYN_STAT_LOCKIND k.val) = c.cur (F.SYN_SYN_STAT_LOCKIND k.val) := by
  obtain ⟨hst, hev, hfld⟩ := synTo_moves h (by decide : SYN_COAST < 4)
  obtain ⟨b, hb, -, -, -, hbf, hbg, hbe⟩ := evtStat (c.synTo k.val SYN_COAST) k f ho hw (by omega)
  have hx : ∀ g : KF, g.off ≠ SYN_SYN_STAT k.val ∨ 16 ≤ g.lsb → (b.bump (F.SYN_SYN_STAT_RELOCKS k.val)).cur g = b.cur g := fun g hg =>
    cur_put_ne b _ g _ (by decide : 0 + 16 ≤ 32) (.inr (hg.imp Ne.symm .inl))
  unfold Channel.coastMarks
  rw [hb]
  refine ⟨?_, ?_, ?_, ?_, ?_⟩
  · exact (hx _ (.inr (by decide : 16 ≤ 30))).trans ((hbg _ (.inl (by show f.lsb < 30; omega))).trans hst)
  · exact (hx _ (.inl (synEv_off k ▸ stat_ne_evt k))).trans ((hbe _ (synEv_off k)).trans hev)
  · exact (hx f (.inr hlo)).trans hbf
  · refine (cur_put_self b _ _ (by decide : 0 + 16 ≤ 32)).trans ?_
    rw [hbg _ (.inr (by show 0 + 16 ≤ f.lsb; omega)), hfld _ rfl (by decide : 0 + 16 ≤ 30)]
    rfl
  · exact (hx _ (.inr (by decide : 16 ≤ 29))).trans ((hbg _ (.inl (by exact hhi))).trans (hfld _ rfl (by decide : 29 + 1 ≤ 30)))

theorem toCoast_words : SynWords (synMarks k) c (c.toCoast k.val f) :=
  (coastMarks_words ho).trans (outsOnly_words _ (outsOnly_fold (outsOnly_coastOut k.val) _ _))

theorem toCoast_coasts (hw : f.w = 1) (hlo : 16 ≤ f.lsb) (hhi : f.lsb < 29) (h : c.synSt k.val ≠ SYN_COAST) :
    Coasts k f c (c.toCoast k.val f) ∧ (c.toCoast k.val f).cur (F.SYN_SYN_STAT_LOCKIND k.val) = c.cur (F.SYN_SYN_STAT_LOCKIND k.val) := by
  obtain ⟨hst, hev, hf, hrel, hind⟩ := coastMarks_fields ho hw hlo hhi h
  have hwords := coastMarks_words (c := c) ho
  have hout : ∀ m, (c.coastMarks k.val f).out m = c.out m := fun m => by unfold Channel.out; rw [coastMarks_syn]
  obtain ⟨honly, hin, hothers⟩ := fold_each_out (a := c.coastMarks k.val f) (g := Channel.coastOut k.val)
    (R := fun o p => if c.flag (F.SYN_SYN_CFG_COAST_SQ k.val) = true then p.coast = true ∧ p.hold = o.hold ∧ p.ran = o.ran
      else p = { o with ran := o.ran || !o.hold })
    (fun y m hy => by rw [← (hwords.trans (outsOnly_words _ hy)).flag rfl]; exact coastOut_self k.val y m) (coastOut_ne k.val) (outsOnly_coastOut k.val)
    (c.synOuts k.val) (c.coastMarks k.val f) (synOuts_nodup c k.val) (.refl _)
  rw [toCoast_eq, hwords.synOuts]
  exact ⟨⟨(honly.cur _).trans hst, (honly.cur _).trans hev, (honly.cur f).trans hf, (honly.cur _).trans hrel,
    fun m hm => (hothers m hm).trans (hout m), fun m hm => by rw [← hout m]; exact hin m hm⟩, (honly.cur _).trans hind⟩

end

end Sys2Proof.Machine
end

section
/-! A synthesizer enters ACQ (R155, R157, R159). -/
namespace Sys2Proof.Machine

/-- What realignment and the pulses read of the SYN block beside its registers: OTS and the instants of a SLEW or a JUMP (R151, R165). -/
def SynBlk.times (y : SynBlk) : Int × Int × Option ℕ × Option Gt × Option Int := (y.ots, y.ots0, y.raFrom, y.raJump, y.jumpOts)

theorem synK_setSynK (c : Channel) (k : ℕ) (x : SynK) : (c.setSynK k x).synK k = x := by
  unfold Channel.setSynK Channel.synK
  split <;> rfl

theorem synK_setSynK' (c : Channel) (k : ℕ) (f : SynK → SynK) : (c.setSynK' k f).synK k = f (c.synK k) := synK_setSynK c k _

theorem times_setSynK (c : Channel) (k : ℕ) (x : SynK) : (c.setSynK k x).syn.times = c.syn.times := by
  unfold Channel.setSynK
  split <;> rfl

theorem out_setSynK (c : Channel) (k : ℕ) (x : SynK) (m : Fin 8) : (c.setSynK k x).out m = c.out m := by
  unfold Channel.setSynK
  split <;> rfl

/-- Synthesizer `k` has entered ACQ from `c` to `d`; its outputs stop until lock, with `stop`, or run through it (R155). -/
structure Acquires (k : Fin 2) (stop : Bool) (c d : Channel) : Prop where
  words : SynWords (synMarks k) c d
  st : d.synSt k.val = SYN_ACQ
  ev : c.synSt k.val ≠ SYN_ACQ → d.cur (synEv k) = 1
  fields : ∀ g : KF, g.off = SYN_SYN_STAT k.val → g.lsb + g.w ≤ 30 → d.cur g = c.cur g
  synK : d.synK k.val = { c.synK k.val with acqTick := c.jour.tick, noLock := false }
  times : d.syn.times = c.syn.times
  outs : ∀ m ∈ c.synOuts k.val, (d.out m).coast = false ∧ if stop = true then (d.out m).hold = true ∧ (d.out m).ran = false
    else (d.out m).hold = (c.out m).hold ∧ (d.out m).ran = ((c.out m).ran || !(c.out m).hold)

/-- What entry to ACQ does to one output. -/
def Channel.acqOut (stop planned : Bool) (c : Channel) (m : Fin 8) : Channel :=
  if stop then (c.stopOut m planned (fun o => { o with hold := true, ran := false })).release m (fun o => { o with coast := false })
  else (c.release m (fun o => { o with coast := false })).updOut m (fun o => { o with ran := o.ran || !o.hold })

section
variable (stop planned : Bool) (c : Channel) (m : Fin 8)

theorem outsOnly_acqOut : OutsOnly c (Channel.acqOut stop planned c m) := by
  unfold Channel.acqOut
  split
  · exact (outsOnly_stopOut c m _ _).trans (outsOnly_release _ m _)
  · exact (outsOnly_release c m _).trans (oo_updOut _ m _)

theorem times_release (f : OutSt → OutSt) : (c.release m f).syn.times = c.syn.times := by
  unfold Channel.release
  extract_lets o low o1 f2 at'
  split <;> rfl

theorem times_acqOut : (Channel.acqOut stop planned c m).syn.times = c.syn.times := by
  unfold Channel.acqOut
  split
  · exact times_release _ m _
  · exact times_release c m _

theorem acqOut_ne (j : Fin 8) (h : j ≠ m) : (Channel.acqOut stop planned c m).out j = c.out j := by
  unfold Channel.acqOut
  split
  · exact (out_release_ne _ m _ h).trans (out_stopOut_ne c m _ _ h)
  · exact (out_updOut_ne _ m _ h).trans (out_release_ne c m _ h)

theorem acqOut_self : ((Channel.acqOut stop planned c m).out m).coast = false ∧ if stop = true
    then ((Channel.acqOut stop planned c m).out m).hold = true ∧ ((Channel.acqOut stop planned c m).out m).ran = false
    else ((Channel.acqOut stop planned c m).out m).hold = (c.out m).hold ∧
      ((Channel.acqOut stop planned c m).out m).ran = ((c.out m).ran || !(c.out m).hold) := by
  unfold Channel.acqOut
  split
  · obtain ⟨s, r, h⟩ := out_release (c.stopOut m planned fun o => { o with hold := true, ran := false }) m (fun o => { o with coast := false })
    obtain ⟨s', r', h'⟩ := out_stopOut c m planned (fun o => { o with hold := true, ran := false })
    rw [h, h']
    exact ⟨rfl, rfl, rfl⟩
  · obtain ⟨s, r, h⟩ := out_release c m (fun o => { o with coast := false })
    rw [out_updOut, h]
    exact ⟨rfl, rfl, rfl⟩

end

/-- The registers and the timer of a synthesizer that enters ACQ. -/
def Channel.acqMarks (c : Channel) (k : ℕ) : Channel := (c.synTo k SYN_ACQ).setSynK k { c.synK k with acqTick := c.jour.tick, noLock := false }

theorem toAcq_eq (c : Channel) (k : ℕ) (stop planned : Bool) :
    c.toAcq k stop planned = ((c.acqMarks k).synOuts k).foldl (Channel.acqOut stop planned) (c.acqMarks k) := rfl

theorem acqMarks_words (c : Channel) (k : Fin 2) : SynWords (synMarks k) c (c.acqMarks k.val) :=
  (synWords_synTo k c SYN_ACQ).trans (synWords_setSynK _ _ _ _)

theorem acqMarks_st (c : Channel) (k : Fin 2) : (c.acqMarks k.val).synSt k.val = SYN_ACQ := synTo_st k c SYN_ACQ (by decide)

theorem acqMarks_ev {c : Channel} {k : Fin 2} (h : c.synSt k.val ≠ SYN_ACQ) : (c.acqMarks k.val).cur (synEv k) = 1 :=
  (synTo_moves h (by decide)).2.1

theorem acqMarks_fields (c : Channel) (k : Fin 2) (g : KF) (ho : g.off = SYN_SYN_STAT k.val) (hg : g.lsb + g.w ≤ 30) :
    (c.acqMarks k.val).cur g = c.cur g := by
  by_cases h : c.synSt k.val = SYN_ACQ
  · unfold Channel.acqMarks Channel.synTo
    rw [if_pos h]
    rfl
  · exact (synTo_moves h (by decide)).2.2 g ho hg

theorem acqMarks_out (c : Channel) (k : ℕ) (m : Fin 8) : (c.acqMarks k).out m = c.out m := by
  unfold Channel.acqMarks
  rw [out_setSynK]
  unfold Channel.out
  rw [synTo_syn]

theorem acqMarks_times (c : Channel) (k : ℕ) : (c.acqMarks k).syn.times = c.syn.times := by
  unfold Channel.acqMarks
  rw [times_setSynK, synTo_syn]

theorem toAcq_acquires (c : Channel) (k : Fin 2) (stop planned : Bool) : Acquires k stop c (c.toAcq k.val stop planned) := by
  have hwords := acqMarks_words c k
  have htimes : ∀ (l : List (Fin 8)) (x : Channel), (l.foldl (Channel.acqOut stop planned) x).syn.times = x.syn.times := fun l => by
    induction l with
    | nil => exact fun _ => rfl
    | cons m l ih => exact fun x => (ih _).trans (times_acqOut stop planned x m)
  obtain ⟨honly, hin, -⟩ := fold_each_out (a := c.acqMarks k.val) (g := Channel.acqOut stop planned)
    (R := fun o p => p.coast = false ∧ if stop = true then p.hold = true ∧ p.ran = false else p.hold = o.hold ∧ p.ran = (o.ran || !o.hold))
    (fun y m _ => acqOut_self stop planned y m) (acqOut_ne stop planned) (outsOnly_acqOut stop planned)
    (c.synOuts k.val) (c.acqMarks k.val) (synOuts_nodup c k.val) (OutsOnly.refl _)
  rw [toAcq_eq, hwords.synOuts]
  exact ⟨hwords.trans (outsOnly_words _ honly), (honly.cur _).trans (acqMarks_st c k), fun h => (honly.cur _).trans (acqMarks_ev h),
    fun g ho hg => (honly.cur g).trans (acqMarks_fields c k g ho hg), (honly.synK _).trans (synK_setSynK _ _ _),
    (htimes _ _).trans (acqMarks_times c k.val), fun m hm => by rw [← acqMarks_out c k.val m]; exact hin m hm⟩

end Sys2Proof.Machine
end

section
/-! What the lock detector shows, lock declared and lost, and the reference lost and back (R153 to R155, R172). -/
namespace Sys2Proof.Machine

/-! ### The lock detector (R153, R154) -/

section
variable {c d : Channel} {k : Fin 2}

theorem showsLock_pin (mv t : ℕ) : c.showsLock k.val (.pin mv t) = true ↔ c.fld (F.SYN_SYN_CFG_LOOP k.val) = 0 ∧ mv < 350 ∧ 200000 ≤ t := by
  unfold Channel.showsLock
  by_cases h : c.fld (F.SYN_SYN_CFG_LOOP k.val) = 0 <;> simp [h]

theorem showsLock_errs (es : List Int) : c.showsLock k.val (.errs es) = true ↔ ¬ c.fld (F.SYN_SYN_CFG_LOOP k.val) = 0 ∧
    max 1 (c.fld (F.SYN_SYN_WIN_N k.val)) ≤ es.length ∧
    ∀ x ∈ es.take (max 1 (c.fld (F.SYN_SYN_WIN_N k.val))), x.natAbs ≤ max 1 (c.fld (F.SYN_SYN_WIN_W k.val)) := by
  unfold Channel.showsLock
  by_cases h : c.fld (F.SYN_SYN_CFG_LOOP k.val) = 0
  · simp [h]
  · simp only [beq_false_of_ne h, Bool.and_eq_true, decide_eq_true_eq, List.all_eq_true, not_false_eq_true, true_and, h]

theorem showsLoss_pin (mv t : ℕ) : c.showsLoss k.val (.pin mv t) = true ↔ c.fld (F.SYN_SYN_CFG_LOOP k.val) = 0 ∧ 550 < mv := by
  unfold Channel.showsLoss
  by_cases h : c.fld (F.SYN_SYN_CFG_LOOP k.val) = 0 <;> simp [h]

theorem showsLoss_errs (es : List Int) : c.showsLoss k.val (.errs es) = true ↔ ¬ c.fld (F.SYN_SYN_CFG_LOOP k.val) = 0 ∧
    8 ≤ es.length ∧ ∀ x ∈ es.take 8, max 1 (c.fld (F.SYN_SYN_WIN_W k.val)) < x.natAbs := by
  unfold Channel.showsLoss
  by_cases h : c.fld (F.SYN_SYN_CFG_LOOP k.val) = 0
  · simp [h]
  · simp only [beq_false_of_ne h, Bool.and_eq_true, decide_eq_true_eq, List.all_eq_true, not_false_eq_true, true_and, h]

/-- The detector judges by settings alone. -/
theorem SynWords.shows {offs : List ℕ} (h : SynWords offs c d) (e : LockSense) :
    d.showsLock k.val e = c.showsLock k.val e ∧ d.showsLoss k.val e = c.showsLoss k.val e := by
  unfold Channel.showsLock Channel.showsLoss
  rw [h.fld (g := F.SYN_SYN_WIN_N k.val) rfl, h.fld (g := F.SYN_SYN_WIN_W k.val) rfl, h.fld (g := F.SYN_SYN_CFG_LOOP k.val) rfl]
  exact ⟨rfl, rfl⟩

/-! ### PERR (R172) -/

theorem setPerr_words (c : Channel) (k : Fin 2) (x : Int) : SynWords [SYN_SYN_PERR k.val] c (c.setPerr k.val x) := by
  unfold Channel.setPerr
  exact .ite (.refl _ c) (.put _ _ List.mem_cons_self)

theorem seenErr_words (c : Channel) (k : Fin 2) (e : LockSense) : SynWords [SYN_SYN_PERR k.val] c (c.seenErr k.val e) := by
  unfold Channel.seenErr
  split
  · exact setPerr_words c k _
  · exact .refl _ c

theorem seenErr_syn (c : Channel) (k : Fin 2) (e : LockSense) : (c.seenErr k.val e).syn = c.syn := by
  unfold Channel.seenErr
  split
  · next x _ =>
    obtain ⟨d, hd, -, hsyn, -⟩ := setPerr_facts c k x
    rw [hd, hsyn]
  · rfl

theorem setPerr_stores (x : Int) (h : ¬ c.fld (F.SYN_SYN_CFG_LOOP k.val) = 0) :
    (c.setPerr k.val x).cur (F.SYN_SYN_PERR_PERR k.val) = unsigned 16 (max (-32768) (min 32767 x)) := by
  unfold Channel.setPerr
  rw [if_neg h]
  exact Channel.cur_put_lt _ _ _ (by decide : 0 + 16 ≤ 32) (unsigned_lt 16 _)

theorem setPerr_idle (x : Int) (h : c.fld (F.SYN_SYN_CFG_LOOP k.val) = 0) : c.setPerr k.val x = c := if_pos h

theorem stat_not_perr (k : Fin 2) : SYN_SYN_STAT k.val ∉ [SYN_SYN_PERR k.val] := by revert k; decide

theorem seenErr_synSt (c : Channel) (k : Fin 2) (e : LockSense) : (c.seenErr k.val e).synSt k.val = c.synSt k.val :=
  (seenErr_words c k e).cur (g := F.SYN_SYN_STAT_STATE k.val) rfl (stat_not_perr k)

/-! ### Lock declared (R155) -/

/-- The indicator and the state of a synthesizer that declares lock. -/
def Channel.lockShown (c : Channel) (k : ℕ) : Channel := (c.put (F.SYN_SYN_STAT_LOCKIND k) 1).synTo k SYN_LOCKED

/-- Its status: RSYNC is set where an output ran through ACQ or COAST. -/
def Channel.lockMarks (c : Channel) (k : ℕ) : Channel :=
  if ((c.lockShown k).synOuts k).any (fun m => ((c.lockShown k).out m).ran) then (c.lockShown k).put (F.SYN_SYN_STAT_RSYNC k) 1 else c.lockShown k

/-- An output that a declared lock lets run. -/
def Channel.freeOut (c : Channel) (m : Fin 8) : Channel := c.release m (fun o => { o with hold := false })

/-- What a declared lock does once the detector has shown it. -/
def Channel.goesLocked (c : Channel) (k : ℕ) : Channel := ((c.lockShown k).synOuts k).foldl Channel.freeOut (c.lockMarks k)

theorem lockDeclared_waits {e : LockSense} (h : ¬ (c.synSt k.val = SYN_ACQ ∧ c.showsLock k.val e = true)) :
    c.lockDeclared k.val e = c.seenErr k.val e := by
  refine if_pos ?_
  rw [seenErr_synSt, ((seenErr_words c k e).shows e).1]
  by_cases hs : c.synSt k.val = SYN_ACQ
  · exact .inr (by simpa using fun hl => h ⟨hs, hl⟩)
  · exact .inl hs

/-- Synthesizer `k` has declared lock from `c` to `d`. -/
structure Locks (k : Fin 2) (c d : Channel) : Prop where
  st : d.synSt k.val = SYN_LOCKED
  ev : d.cur (synEv k) = 1
  lockind : d.cur (F.SYN_SYN_STAT_LOCKIND k.val) = 1
  rsync : (∃ m ∈ c.synOuts k.val, (c.out m).ran = true) → d.cur (F.SYN_SYN_STAT_RSYNC k.val) = 1
  outs : ∀ m ∈ c.synOuts k.val, (d.out m).hold = false
  others : ∀ m, m ∉ c.synOuts k.val ∨ (c.out m).hold = false → d.out m = c.out m

theorem lockShown_words (c : Channel) (k : Fin 2) : SynWords (synMarks k) c (c.lockShown k.val) :=
  (SynWords.put (F.SYN_SYN_STAT_LOCKIND k.val) 1 List.mem_cons_self).trans (synWords_synTo k _ SYN_LOCKED)

theorem lockShown_out (c : Channel) (k : Fin 2) (m : Fin 8) : (c.lockShown k.val).out m = c.out m := by
  unfold Channel.lockShown Channel.out
  rw [synTo_syn, Channel.put_syn]

theorem lockShown_fields (hs : c.synSt k.val = SYN_ACQ) : (c.lockShown k.val).synSt k.val = SYN_LOCKED ∧ (c.lockShown k.val).cur (synEv k) = 1 ∧
    (c.lockShown k.val).cur (F.SYN_SYN_STAT_LOCKIND k.val) = 1 := by
  obtain ⟨a, ha, -, -, -, hind, hfld, -⟩ := putStat c k (F.SYN_SYN_STAT_LOCKIND k.val) 1 rfl (by decide : 29 + 1 ≤ 32) (by decide : 1 < 2 ^ 1)
  have hne : a.synSt k.val ≠ SYN_LOCKED := by
    rw [show a.synSt k.val = c.synSt k.val from hfld _ (.inr (by decide : 29 + 1 ≤ 30)), hs]
    decide
  obtain ⟨hst, hev, hkept⟩ := synTo_moves hne (by decide)
  unfold Channel.lockShown
  rw [ha]
  exact ⟨hst, hev, (hkept _ rfl (by decide : 29 + 1 ≤ 30)).trans hind⟩

theorem lockMarks_words (c : Channel) (k : Fin 2) : SynWords (synMarks k) c (c.lockMarks k.val) :=
  .ite ((lockShown_words c k).trans (.put _ _ List.mem_cons_self)) (lockShown_words c k)

theorem lockMarks_out (c : Channel) (k : Fin 2) (m : Fin 8) : (c.lockMarks k.val).out m = c.out m := by
  unfold Channel.lockMarks
  split
  · exact (congrArg (fun y : SynBlk => y.outs[m]) (Channel.put_syn _ _ _)).trans (lockShown_out c k m)
  · exact lockShown_out c k m

theorem lockMarks_fields (hs : c.synSt k.val = SYN_ACQ) : (c.lockMarks k.val).synSt k.val = SYN_LOCKED ∧ (c.lockMarks k.val).cur (synEv k) = 1 ∧
    (c.lockMarks k.val).cur (F.SYN_SYN_STAT_LOCKIND k.val) = 1 ∧
    ((∃ m ∈ c.synOuts k.val, (c.out m).ran = true) → (c.lockMarks k.val).cur (F.SYN_SYN_STAT_RSYNC k.val) = 1) := by
  obtain ⟨hst, hev, hind⟩ := lockShown_fields hs
  unfold Channel.lockMarks
  split
  · obtain ⟨a, ha, -, -, -, hrs, hfld, hevt⟩ :=
      putStat (c.lockShown k.val) k (F.SYN_SYN_STAT_RSYNC k.val) 1 rfl (by decide : 25 + 1 ≤ 32) (by decide : 1 < 2 ^ 1)
    rw [ha]
    exact ⟨(hfld (F.SYN_SYN_STAT_STATE k.val) (.inr (by decide : 25 + 1 ≤ 30))).trans hst, (hevt _ (synEv_off k)).trans hev, (hfld (F.SYN_SYN_STAT_LOCKIND k.val) (.inr (by decide : 25 + 1 ≤ 29))).trans hind,
      fun _ => hrs⟩
  · next hno =>
    refine ⟨hst, hev, hind, fun ⟨m, hm, hran⟩ => absurd ?_ hno⟩
    rw [(lockShown_words c k).synOuts]
    exact List.any_eq_true.mpr ⟨m, hm, by rw [lockShown_out]; exact hran⟩

theorem goesLocked_words (c : Channel) (k : Fin 2) : SynWords (synMarks k) c (c.goesLocked k.val) :=
  (lockMarks_words c k).trans (outsOnly_words _ (outsOnly_fold (fun y m => outsOnly_release y m _) _ _))

theorem goesLocked_locks (hs : c.synSt k.val = SYN_ACQ) : Locks k c (c.goesLocked k.val) := by
  obtain ⟨hst, hev, hind, hrs⟩ := lockMarks_fields hs
  obtain ⟨honly, hin, hothers⟩ := fold_each_out (a := c.lockMarks k.val) (g := Channel.freeOut)
    (R := fun o p => p.hold = false ∧ (o.hold = false → p = o))
    (fun y m _ => by
      obtain ⟨s, r, h⟩ := out_release y m (fun o => { o with hold := false })
      exact ⟨congrArg OutSt.hold h, fun hh => out_release_same (by rw [← hh])⟩)
    (fun y m j => out_release_ne y m _) (fun y m => outsOnly_release y m _) (c.synOuts k.val) (c.lockMarks k.val) (synOuts_nodup c k.val) (.refl _)
  unfold Channel.goesLocked
  rw [(lockShown_words c k).synOuts]
  refine ⟨(honly.cur _).trans hst, (honly.cur _).trans hev, (honly.cur _).trans hind,
    fun h => (honly.cur _).trans (hrs h), fun m hm => (hin m hm).1, fun m hm => ?_⟩
  rw [← lockMarks_out c k m] at hm ⊢
  by_cases hmem : m ∈ c.synOuts k.val
  · exact (hin m hmem).2 (hm.resolve_left (not_not_intro hmem))
  · exact hothers m hmem

/-- Lock declared, and the words that change beside PERR. -/
theorem lockDeclared_locks {e : LockSense} (hs : c.synSt k.val = SYN_ACQ) (hl : c.showsLock k.val e = true) :
    Locks k c (c.lockDeclared k.val e) ∧ SynWords (synMarks k) (c.seenErr k.val e) (c.lockDeclared k.val e) := by
  have heq : c.lockDeclared k.val e = (c.seenErr k.val e).goesLocked k.val :=
    if_neg (by rw [seenErr_synSt, ((seenErr_words c k e).shows e).1, hs, hl]; decide)
  have hout : ∀ m, (c.seenErr k.val e).out m = c.out m := fun m => by unfold Channel.out; rw [seenErr_syn]
  obtain ⟨st, ev, lockind, rsync, outs, others⟩ := goesLocked_locks ((seenErr_synSt c k e).trans hs)
  simp only [(seenErr_words c k e).synOuts, hout] at rsync outs others
  rw [heq]
  exact ⟨⟨st, ev, lockind, rsync, outs, others⟩, goesLocked_words _ k⟩

/-! ### Lock and reference lost (R155) -/

theorem lockLost_stays {e : LockSense} (h : ¬ ((c.synSt k.val = SYN_ACQ ∨ c.synSt k.val = SYN_LOCKED) ∧ c.showsLoss k.val e = true)) :
    c.lockLost k.val e = c.seenErr k.val e :=
  if_neg (by rw [seenErr_synSt, ((seenErr_words c k e).shows e).2]; exact h)

theorem not_coast (h : c.synSt k.val = SYN_ACQ ∨ c.synSt k.val = SYN_LOCKED) : c.synSt k.val ≠ SYN_COAST := by
  rcases h with h | h <;> rw [h] <;> decide

/-- A lost lock: the indicator goes dark, and the synthesizer coasts. -/
theorem lockLost_coasts {e : LockSense} (hs : c.synSt k.val = SYN_ACQ ∨ c.synSt k.val = SYN_LOCKED) (hl : c.showsLoss k.val e = true) :
    Coasts k (F.SYN_SYN_STAT_LOL k.val) c (c.lockLost k.val e) ∧ (c.lockLost k.val e).cur (F.SYN_SYN_STAT_LOCKIND k.val) = 0 ∧
      SynWords (synMarks k) (c.seenErr k.val e) (c.lockLost k.val e) := by
  have heq : c.lockLost k.val e = ((c.seenErr k.val e).put (F.SYN_SYN_STAT_LOCKIND k.val) 0).toCoast k.val (F.SYN_SYN_STAT_LOL k.val) :=
    if_pos (by rw [seenErr_synSt, ((seenErr_words c k e).shows e).2]; exact ⟨hs, hl⟩)
  have hw := seenErr_words c k e
  have hst := seenErr_synSt c k e
  have hsyn := seenErr_syn c k e
  have hrel : (c.seenErr k.val e).cur (F.SYN_SYN_STAT_RELOCKS k.val) = c.cur (F.SYN_SYN_STAT_RELOCKS k.val) := hw.cur rfl (stat_not_perr k)
  rw [heq]
  generalize c.seenErr k.val e = x at hw hst hsyn hrel ⊢
  obtain ⟨a, ha, -, hasyn, -, hind, hfld, -⟩ := putStat x k (F.SYN_SYN_STAT_LOCKIND k.val) 0 rfl (by decide : 29 + 1 ≤ 32) (by decide : 0 < 2 ^ 1)
  have hwa : SynWords (synMarks k) x a := ha ▸ .put _ _ List.mem_cons_self
  have hcoast : a.synSt k.val ≠ SYN_COAST := by
    rw [show a.synSt k.val = x.synSt k.val from hfld _ (.inr (by decide : 29 + 1 ≤ 30)), hst]
    exact not_coast hs
  obtain ⟨hc, hkept⟩ := toCoast_coasts (c := a) (f := F.SYN_SYN_STAT_LOL k.val) rfl rfl (by decide : 16 ≤ 28) (by decide : 28 < 29) hcoast
  rw [ha]
  exact ⟨(hc.after hwa hasyn (hfld _ (.inl (by decide : 0 + 16 ≤ 29)))).after hw hsyn hrel, hkept.trans hind, hwa.trans (toCoast_words rfl)⟩

theorem refLoss_coasts (hs : c.synSt k.val = SYN_ACQ ∨ c.synSt k.val = SYN_LOCKED) :
    Coasts k (F.SYN_SYN_STAT_REFLOS k.val) c (c.refLoss k.val) ∧ SynWords (synMarks k) c (c.refLoss k.val) := by
  unfold Channel.refLoss
  rw [if_pos hs]
  exact ⟨(toCoast_coasts rfl rfl (by decide : 16 ≤ 27) (by decide : 27 < 29) (not_coast hs)).1, toCoast_words rfl⟩

theorem refLoss_idle (ha : c.synSt k.val ≠ SYN_ACQ) (hl : c.synSt k.val ≠ SYN_LOCKED) : c.refLoss k.val = c :=
  if_neg (not_or.mpr ⟨ha, hl⟩)

/-! ### The reference is back (R155) -/

theorem refReturn_idle (h : c.synSt k.val ≠ SYN_COAST) : c.refReturn k.val = c := if_pos h

theorem refReturn_acquires (h : c.synSt k.val = SYN_COAST) (hn : (c.synK k.val).stored = none) :
    c.refReturn k.val = c.toAcq k.val (c.rlkHold k.val) false := by
  unfold Channel.refReturn
  rw [if_neg (not_not_intro h), hn]

theorem refReturn_takes {x : List (ℕ × Word)} (h : c.synSt k.val = SYN_COAST) (hx : (c.synK k.val).stored = some x) :
    c.refReturn k.val = (c.takePart k.val x (fun d => d.toAcq k.val (d.rlkHold k.val) false)).setSynK' k.val (fun y => { y with stored := none }) := by
  unfold Channel.refReturn
  rw [if_neg (not_not_intro h), hx]

end
end Sys2Proof.Machine
end

section
/-! The part of a staged set that a boundary takes, and a synthesizer that fails to lock (R155 to R159, R278). -/
namespace Sys2Proof.Machine

/-! ### The staged set in use -/

section
variable {c : Channel} {words : List (ℕ × Word)} {offs : List ℕ} {o : ℕ}

theorem useWord_takeStaged (h : o ∈ offs) : (c.takeStaged words offs).useWord .syn o = smGet (kbRst .syn o) words o :=
  (foldPut_get words offs (c.rf .syn).use).1 o h

theorem useWord_takeStaged_ne (h : o ∉ offs) : (c.takeStaged words offs).useWord .syn o = c.useWord .syn o :=
  (foldPut_get words offs (c.rf .syn).use).2 o h (kbRst .syn o)

theorem word_takeStaged (b : KB) : (c.takeStaged words offs).word b o = c.word b o := by cases b <;> rfl

theorem cur_takeStaged (g : KF) : (c.takeStaged words offs).cur g = c.cur g := by
  unfold Channel.cur
  rw [word_takeStaged]

theorem synK_takeStaged (k : ℕ) : (c.takeStaged words offs).synK k = c.synK k := rfl

theorem tick_takeStaged : (c.takeStaged words offs).jour.tick = c.jour.tick := rfl

/-- With its words in force and the synthesizer moved by `f`, a part settles only outputs. -/
theorem outsOnly_takePart (c : Channel) (k : ℕ) (words : List (ℕ × Word)) (f : Channel → Channel) :
    OutsOnly (f (c.takeStaged words (Channel.synPart words k))) (c.takePart k words f) := by
  unfold Channel.takePart
  refine outsOnly_fold (fun d m => ?_) _ _
  split
  · exact oo_updOut d m _
  · split
    · exact oo_updOut d m _
    · exact .refl d

theorem useWord_takePart {f : Channel → Channel} {k : ℕ} (hf : ∀ d, Uses d (f d)) :
    (c.takePart k words f).useWord .syn o = (c.takeStaged words (Channel.synPart words k)).useWord .syn o := by
  rw [word_useWord (outsOnly_takePart c k words f).regs]
  unfold Channel.useWord
  rw [(hf _).use]

/-- The settings in use that a part replaces, and those that it leaves. -/
theorem takePart_uses (c : Channel) (k : ℕ) (words : List (ℕ × Word)) {f : Channel → Channel} (hf : ∀ d, Uses d (f d)) :
    (∀ o ∈ Channel.synPart words k, (c.takePart k words f).useWord .syn o = smGet (kbRst .syn o) words o) ∧
    ∀ o, o ∉ Channel.synPart words k → (c.takePart k words f).useWord .syn o = c.useWord .syn o :=
  ⟨fun _ ho => (useWord_takePart hf).trans (useWord_takeStaged ho), fun _ ho => (useWord_takePart hf).trans (useWord_takeStaged_ne ho)⟩

end

/-- The reference is back and a boundary has stored values: they come into use as the synthesizer enters ACQ (R155). -/
theorem refReturn_stored {c : Channel} {k : Fin 2} {x : List (ℕ × Word)} (h : c.synSt k.val = SYN_COAST) (hx : (c.synK k.val).stored = some x) :
    (c.refReturn k.val).synSt k.val = SYN_ACQ ∧ (c.refReturn k.val).cur (synEv k) = 1 ∧
      (c.refReturn k.val).synK k.val = ⟨c.jour.tick, false, (c.synK k.val).ph, none⟩ ∧
      (∀ o ∈ Channel.synPart x k.val, (c.refReturn k.val).useWord .syn o = smGet (kbRst .syn o) x o) ∧
      ∀ o, o ∉ Channel.synPart x k.val → (c.refReturn k.val).useWord .syn o = c.useWord .syn o := by
  have honly := outsOnly_takePart c k.val x (fun d => d.toAcq k.val (d.rlkHold k.val) false)
  have hst : (c.takeStaged x (Channel.synPart x k.val)).synSt k.val = c.synSt k.val := cur_takeStaged _
  obtain ⟨-, st, ev, -, synK, -, -⟩ := toAcq_acquires (c.takeStaged x (Channel.synPart x k.val)) k ((c.takeStaged x (Channel.synPart x k.val)).rlkHold k.val) false
  have huses := takePart_uses c k.val x (f := fun d => d.toAcq k.val (d.rlkHold k.val) false) (fun d => us_toAcq _ _ _ (Uses.refl d))
  rw [refReturn_takes h hx]
  generalize c.takePart k.val x _ = d at honly huses ⊢
  unfold Channel.synSt
  rw [cur_setSynK', cur_setSynK', synK_setSynK', honly.cur, honly.cur, honly.synK, synK, synK_takeStaged, tick_takeStaged]
  simp only [useWord_setSynK', true_and]
  exact ⟨st, ev (by rw [hst, h]; decide), huses⟩

/-! ### NOLOCK (R155, R278) -/

theorem noLock_words (c : Channel) (k : Fin 2) : SynWords (synMarks k) c (c.noLock k.val) := by
  unfold Channel.noLock
  extract_lets x
  refine .ite ?_ (.refl _ c)
  exact (((synWords_setSynK _ c k.val _).trans (.evt (F.SYN_SYN_STAT_NOLOCK k.val) List.mem_cons_self)).trans
    (.evt F.SYN_EVT_NOLOCK (List.mem_cons_of_mem _ List.mem_cons_self))).trans (.ask _)

theorem noLock_idle {c : Channel} {k : Fin 2}
    (h : ¬ (c.synSt k.val = SYN_ACQ ∧ (c.synK k.val).noLock = false ∧ (c.synK k.val).acqTick + 2000000 ≤ c.jour.tick)) : c.noLock k.val = c := by
  unfold Channel.noLock
  refine if_neg fun ⟨hs, hn, ht⟩ => h ⟨hs, ?_, ht⟩
  simpa using hn

theorem synK_of_stays {c d : Channel} (h : StaysKept c d) (n : ℕ) : d.synK n = c.synK n := by
  unfold Channel.synK
  rw [h.1, h.2]

theorem stays_squelch (c : Channel) : StaysKept c c.squelch := by
  unfold Channel.squelch
  refine (stays_fold (fun y m => ?_) _ c).trans (stays_fold (fun y j => stays_updPls y j _) _ _)
  dsimp only
  split
  · exact .refl y
  · split
    · exact stays_updOut y m _
    · unfold Channel.release
      extract_lets o low o1 f2 at'
      split <;> exact stays_updOut y m _

/-- What a channel settles leaves the timers of its synthesizers. -/
theorem stays_settle (old c : Channel) : StaysKept c (Channel.settle old c) := by
  have hsyn : StaysKept c (Channel.synSettle old c) := by
    unfold Channel.synSettle
    extract_lets c1
    have hraised : StaysKept c c1 := by
      unfold c1
      split
      · exact (stays_raGo c).trans (stays_of_syn rfl)
      · exact .refl c
    exact hraised.trans (stays_squelch c1)
  exact hsyn.trans (stays_only (L := [.sched, .port, .sealb, .pmu, .epi, .free, .asks])
    (on_epiSettle rfl (on_runSettle rfl (on_portSettle old rfl (Channel.onlyIn_refl _ _)))) (by decide))

/-- The twin state, the drive right and the racking after a cold entry. -/
theorem coldEntry_leaves (s : State) (st : ℕ) (org : Origin) (hst : st < 8) :
    (s.coldEntry st org).twst = st ∧ (s.coldEntry st org).gcur F.TWIN_STAT_DRIVE = 0 ∧ (s.coldEntry st org).twin.rack = none := by
  unfold State.coldEntry
  obtain ⟨a, ha, -, hdrive, hatwin⟩ := setDrive_facts (s.updTwin fun t => { t with rack := none }) false
  obtain ⟨b, hb, hkb, hbst, -, hbtwin⟩ := twinTo_facts a st org hst
  obtain ⟨x, hx, hkx, -, -, hxtwin⟩ := pathsUnheard_facts b
  dsimp only
  rw [ha, hb, hx]
  obtain ⟨hgate, htwin⟩ := tk_fold (g := fun s n => State.gateCh s n) (fun y n =>
    tk_only (in_gateCh (L := [.hostif, .cmdq, .vault, .book, .bench, .pwr, .image, .ch, .free, .out]) n rfl (State.onlyIn_refl _ _))
      (by decide) (by decide) (by decide)) State.allChans x
  refine ⟨(hgate.twst (by simp)).trans ((hkx.twst (by decide)).trans hbst), ?_, ?_⟩
  · rw [hgate.reg F.TWIN_STAT_DRIVE rfl (by decide) (by simp), hkx.reg F.TWIN_STAT_DRIVE rfl (by decide) (by decide),
      hkb.reg F.TWIN_STAT_DRIVE rfl (by decide) (by decide), hdrive]
    rfl
  · rw [htwin, hxtwin, hbtwin, hatwin]
    rfl

theorem drillFail_stays {s : State} (h : s.twst ≠ TW_DRILL ∨ s.safe = true) : s.drillFail = s := if_pos h

theorem drillFail_leaves {s : State} (hd : s.twst = TW_DRILL) (hs : s.safe = false) :
    s.drillFail.twst = TW_STANDBY ∧ s.drillFail.gcur F.TWIN_STAT_DRIVE = 0 ∧ s.drillFail.twin.rack = none := by
  unfold State.drillFail
  rw [if_neg (by rw [hd, hs]; decide)]
  exact coldEntry_leaves _ _ _ (by decide)

/-- A drill that has racked channel `c`, and may fail. -/
def State.drills (s : State) (c : ChanIx) : Prop := s.twin.rack.any (fun r => r.chans.contains c) = true ∧ s.twst = TW_DRILL ∧ s.safe = false

section
variable {s : State} {c : ChanIx} {k : Fin 2}

theorem synNoLock_eq (hr : s.running c = true) : s.synNoLock c k =
    if ((s.ch[c].noLock k.val).synK k.val).noLock = true ∧ (s.ch[c].synK k.val).noLock = false ∧ s.twin.rack.any (fun r => r.chans.contains c) = true
    then (s.setCh c (Channel.settle s.ch[c] (s.ch[c].noLock k.val))).drillFail else s.setCh c (Channel.settle s.ch[c] (s.ch[c].noLock k.val)) := by
  unfold State.synNoLock
  rw [onCh_running hr]
  dsimp only
  rw [setCh_ch_self, synK_of_stays (stays_settle _ _), setCh_twin]
  simp only [Bool.and_eq_true, Bool.not_eq_true', and_assoc]

/-- Synthesizer `k` has been in ACQ for 10 ms. -/
def Channel.lockLate (c : Channel) (k : ℕ) : Prop :=
  c.synSt k = SYN_ACQ ∧ (c.synK k).noLock = false ∧ (c.synK k).acqTick + 2000000 ≤ c.jour.tick

/-- Outside a drill that has racked it, a synthesizer that fails to lock concerns its channel alone. -/
theorem synNoLock_local (hr : s.running c = true) (h : ¬ (s.ch[c].lockLate k.val ∧ s.drills c)) :
    s.synNoLock c k = s.onCh c (fun ch => ch.noLock k.val) := by
  rw [synNoLock_eq hr, onCh_running hr]
  split
  · next hnow =>
    obtain ⟨hnow, hbefore, hrack⟩ := hnow
    refine drillFail_stays ?_
    show s.twst ≠ TW_DRILL ∨ s.safe = true
    by_contra hno
    obtain ⟨hdrill, hsafe⟩ := not_or.mp hno
    refine h ⟨?_, hrack, not_not.mp hdrill, by simpa using hsafe⟩
    by_contra hlate
    rw [noLock_idle hlate, hbefore] at hnow
    exact absurd hnow (by decide)
  · rfl

theorem synNoLock_failsDrill (hr : s.running c = true) (hlate : s.ch[c].lockLate k.val) (hd : s.drills c) :
    s.synNoLock c k = (s.setCh c (Channel.settle s.ch[c] (s.ch[c].noLock k.val))).drillFail := by
  obtain ⟨d, hd', -, hnow, -⟩ := noLock_facts s.ch[c] k hlate
  rw [synNoLock_eq hr, if_pos ⟨by rw [hd']; exact hnow, hlate.2.1, hd.1⟩]

end
end Sys2Proof.Machine
end

section
/-! Synthesizers acquire, lock, coast and fail (R153 to R155, R157, R159, R172, R278). -/
namespace Sys2Proof
open Sys2Proof.Machine

/-- Settles O38, row by row: the detector's verdict and the synthesizer's state decide, and each move marks its status and its outputs one by one. -/
theorem synthesizersLockAndCoast : Obligations.SynthesizersLockAndCoast := by
  intro s c k e hl ch st ev whole fr el n w locks loses serr seen coasts noLock noLocked again drilled
  have frame : ∀ {offs : List ℕ} {d : Channel}, Channel.onlyIn [.syn, .asks] ch d → SynWords offs ch d →
      (∀ o ∈ offs, o ∈ [SYN_SYN_STAT k.val, SYN_SYN_PERR k.val, SYN_EVT]) → fr d := fun hon hw hs => ⟨hon, (hw.mono hs).keeps⟩
  have marks : ∀ o ∈ synMarks k, o ∈ [SYN_SYN_STAT k.val, SYN_SYN_PERR k.val, SYN_EVT] := by simp [synMarks]
  have perr : ∀ o ∈ [SYN_SYN_PERR k.val], o ∈ [SYN_SYN_STAT k.val, SYN_SYN_PERR k.val, SYN_EVT] := by simp
  have hsees := seenErr_words ch k e
  have hserr : ∀ d : Channel, d.cur (F.SYN_SYN_PERR_PERR k.val) = (ch.seenErr k.val e).cur (F.SYN_SYN_PERR_PERR k.val) → serr d := by
    intro d hd
    cases e with
    | pin mv t => exact hd
    | errs es =>
      cases es with
      | nil => exact hd
      | cons x xs => exact ⟨fun h => hd.trans (setPerr_stores x h), fun h => hd.trans (by rw [show ch.seenErr k.val (.errs (x :: xs)) = ch from setPerr_idle x h])⟩
  have hseen : seen (ch.seenErr k.val e) := ⟨on_seenErr k.val e rfl (Channel.onlyIn_refl _ ch), seenErr_syn ch k e, hserr _ rfl, hsees.keeps⟩
  have hlocks : locks ↔ ch.synSt k.val = SYN_ACQ ∧ ch.showsLock k.val e = true := by
    cases e with
    | pin mv t => exact and_congr_right fun _ => (showsLock_pin mv t).symm
    | errs es => exact and_congr_right fun _ => (showsLock_errs es).symm
  have hloses : loses ↔ (ch.synSt k.val = SYN_ACQ ∨ ch.synSt k.val = SYN_LOCKED) ∧ ch.showsLoss k.val e = true := by
    cases e with
    | pin mv t => exact and_congr_right fun _ => (showsLoss_pin mv t).symm
    | errs es => exact and_congr_right fun _ => (showsLoss_errs es).symm
  have declared : ∀ {q : Channel → Prop}, q (ch.lockDeclared k.val e) → ActsOn (.synLockDeclared c k e) s c q :=
    actsOn_intro (fun ch => ch.lockDeclared k.val e) hl rfl rfl
  have lost : ∀ {q : Channel → Prop}, q (ch.lockLost k.val e) → ActsOn (.synLockLost c k e) s c q := actsOn_intro (fun ch => ch.lockLost k.val e) hl rfl rfl
  have noRef : ∀ {q : Channel → Prop}, q (ch.refLoss k.val) → ActsOn (.synReferenceLoss c k) s c q := actsOn_intro (fun ch => ch.refLoss k.val) hl rfl rfl
  have back : ∀ {q : Channel → Prop}, q (ch.refReturn k.val) → ActsOn (.synCoastReferenceReturn c k) s c q :=
    actsOn_intro (fun ch => ch.refReturn k.val) hl rfl rfl
  have late : ¬ (ch.lockLate k.val ∧ s.drills c) → ∀ {q : Channel → Prop}, q (ch.noLock k.val) → ActsOn (.synNolock c k) s c q := fun h =>
    actsOn_intro (fun ch => ch.noLock k.val) hl rfl (synNoLock_local (s := s.clear) hl.2 h)
  refine ⟨fun h => ?_, fun h => declared ?_, fun h => ?_, fun h => lost ?_, fun h => ?_, fun ha hlk => noRef (refLoss_idle ha hlk), fun h hd => ?_, fun h hd => ?_,
    fun h => late (fun hb => h hb.1) (noLock_idle h), fun h hn => ?_, fun x h hx => ?_, fun h => back (refReturn_idle h)⟩
  · obtain ⟨hacq, hshows⟩ := hlocks.mp h
    obtain ⟨⟨st, ev, lockind, rsync, outs, others⟩, hw⟩ := lockDeclared_locks hacq hshows
    exact declared ⟨frame (on_lockDeclared k.val e rfl (Channel.onlyIn_refl _ ch)) ((hsees.mono perr).trans (hw.mono marks)) (fun _ => id),
      hserr _ (hw.cur rfl (perr_not_mark k k)), st, ev, lockind, rsync, outs, others⟩
  · rw [lockDeclared_waits (mt hlocks.mpr h)]
    exact hseen
  · obtain ⟨hst, hshows⟩ := hloses.mp h
    obtain ⟨⟨st, ev, told, relocks, others, outs⟩, hind, hw⟩ := lockLost_coasts hst hshows
    exact lost ⟨⟨frame (on_lockLost k.val e rfl (Channel.onlyIn_refl _ ch)) ((hsees.mono perr).trans (hw.mono marks)) (fun _ => id),
      st, ev, told, relocks, others, outs⟩, hserr _ (hw.cur rfl (perr_not_mark k k)), hind⟩
  · rw [lockLost_stays (mt hloses.mpr h)]
    exact hseen
  · obtain ⟨⟨st, ev, told, relocks, others, outs⟩, hw⟩ := refLoss_coasts h
    exact noRef ⟨frame (on_refLoss k.val rfl (Channel.onlyIn_refl _ ch)) hw marks, st, ev, told, relocks, others, outs⟩
  · obtain ⟨d, hd', -, hnow, hst, hmark, hevt, hfault⟩ := noLock_facts ch k h
    refine late (fun hb => hd hb.2) ?_
    have hfr : fr (ch.noLock k.val) := frame (on_noLock k.val rfl (Channel.onlyIn_refl _ ch)) (noLock_words ch k) marks
    rw [hd'] at hfr ⊢
    exact ⟨hfr, hst, hnow, hmark, hevt, hfault⟩
  · refine acts_intro hl.1 rfl ?_
    have hfails := synNoLock_failsDrill (s := s.clear) (k := k) hl.2 h hd
    have hin := in_synNoLock c k rfl (in_clear rfl (State.onlyIn_refl
      [.hostif, .cmdq, .vault, .book, .tally, .twin, .bench, .pwr, .image, .ch, .free, .out] s))
    rw [show s.clear.effect (.synNolock c k) = s.clear.synNoLock c k from rfl]
    refine ⟨hin, ?_⟩
    rw [hfails]
    exact drillFail_leaves hd.2.1 hd.2.2
  · obtain ⟨hw, st, ev, -, synK, -, outs⟩ := toAcq_acquires ch k (ch.rlkHold k.val) false
    have hon := on_refReturn k.val rfl (Channel.onlyIn_refl [.syn, .asks] ch)
    refine back ?_
    rw [refReturn_acquires h hn] at hon ⊢
    exact ⟨frame hon hw marks, ⟨st, ev (by rw [show ch.synSt k.val = SYN_COAST from h]; decide), by rw [synK], by rw [synK]⟩, outs⟩
  · obtain ⟨st, ev, synK, taken, kept⟩ := refReturn_stored h hx
    exact back ⟨on_refReturn k.val rfl (Channel.onlyIn_refl _ ch), ⟨st, ev, by rw [synK], by rw [synK]⟩, by rw [synK], taken, kept⟩

end Sys2Proof
end

section
/-! The commit boundary of a synthesizer (R155 to R158). -/
namespace Sys2Proof.Machine

/-! ### A part has been taken (R156) -/

section
variable (c : Channel)

theorem stageSettle_words : SynWords [SYN_CTL, SYN_EVT] c c.stageSettle := by
  unfold Channel.stageSettle
  split
  · exact .ite (.refl _ c) (((SynWords.setSyn _).trans (.put F.SYN_CTL_CPEND 0 List.mem_cons_self)).trans
      (.evt F.SYN_EVT_CAPPLY (List.mem_cons_of_mem _ List.mem_cons_self)))
  · exact .refl _ c

theorem stageSettle_syn : ∃ y, c.stageSettle.syn = { c.syn with stage := y } := by
  unfold Channel.stageSettle
  split
  · split
    · exact ⟨c.syn.stage, rfl⟩
    · exact ⟨none, by rw [Channel.evt_syn, Channel.put_syn]; rfl⟩
  · exact ⟨c.syn.stage, rfl⟩

theorem stageSettle_stays : StaysKept c c.stageSettle := by
  obtain ⟨y, hy⟩ := stageSettle_syn c
  exact ⟨by rw [hy], by rw [hy]⟩

theorem stageSettle_plse (n : Fin 2) : c.stageSettle.plse n = c.plse n := by
  obtain ⟨y, hy⟩ := stageSettle_syn c
  unfold Channel.plse
  rw [hy]

/-- What remains of a staged set without the part of SYNk. -/
def SynStage.without (x : SynStage) (k : ℕ) : SynStage := if k = 0 then { x with p0 := false } else { x with p1 := false }

/-- A staged set `y` waits for its other parts, or has been used up. -/
def Channel.leaves (d : Channel) (y : SynStage) : Prop :=
  ((y.p0 || y.p1 || y.pp) = true → d.syn.stage = some y) ∧
  ((y.p0 || y.p1 || y.pp) = false → d.syn.stage = none ∧ d.cur F.SYN_CTL_CPEND = 0 ∧ d.cur F.SYN_EVT_CAPPLY = 1)

theorem stageSettle_leaves {y : SynStage} (h : c.syn.stage = some y) : c.stageSettle.leaves y := by
  obtain ⟨d, hd, -, hleft⟩ := stageSettle_facts c y h
  rw [hd]
  exact hleft

theorem partDone_leaves (x : SynStage) (k : ℕ) : (c.partDone x k).leaves (x.without k) := stageSettle_leaves _ rfl

theorem partDone_words (x : SynStage) (k : ℕ) : SynWords [SYN_CTL, SYN_EVT] c (c.partDone x k) := (SynWords.setSyn _).trans (stageSettle_words _)

theorem partDone_synK (x : SynStage) (k n : ℕ) : (c.partDone x k).synK n = c.synK n :=
  synK_of_stays ((stays_setSyn c { c.syn with stage := some (x.without k) } rfl rfl).trans (stageSettle_stays _)) n

theorem stat_not_settled (k : Fin 2) : SYN_SYN_STAT k.val ∉ [SYN_CTL, SYN_EVT] := by revert k; decide

theorem partDone_stat (x : SynStage) (k : ℕ) (n : Fin 2) {g : KF} (hb : g.blk = .syn) (hg : g.off = SYN_SYN_STAT n.val) :
    (c.partDone x k).cur g = c.cur g := (partDone_words c x k).cur hb (by rw [hg]; exact stat_not_settled n)

theorem countFrom_eq (x : SynStage) (k : ℕ) (b : Int) : ∃ ph, c.countFrom x k b = c.setSynK k { c.synK k with ph := ph } := by
  unfold Channel.countFrom
  extract_lets fw
  split
  · exact ⟨_, rfl⟩
  · exact ⟨_, rfl⟩

/-! ### How a synthesizer moves at its boundary (R155, R158) -/

/-- A synthesizer that the boundary disables. -/
def Channel.switchOff (k : ℕ) : Channel := ((c.synTo k SYN_OFF).put (F.SYN_SYN_STAT_RSYNC k) 0).put (F.SYN_SYN_STAT_LOCKIND k) 0

/-- The resync of the outputs that ran through ACQ or COAST (R158). -/
def Channel.resync (k : ℕ) : Channel :=
  if c.cur (F.SYN_SYN_STAT_RSYNC k) = 1 then
    (c.synOuts k).foldl (fun d m => d.updOut m (fun o => { o with ran := false })) (c.put (F.SYN_SYN_STAT_RSYNC k) 0)
  else c

/-- A locked synthesizer at its boundary: the resync, then the change of plan. -/
def Channel.replan (k : ℕ) (vco : Bool) : Channel :=
  if vco then ((c.resync k).toAcq k ((c.resync k).rlkHold k) true).put (F.SYN_SYN_STAT_LOCKIND k) 0 else c.resync k

/-- The move of a synthesizer in state `st` at its boundary, which leaves it enabled or not, with a change of plan or none. -/
def Channel.boundaryMove (k st : ℕ) (en vco : Bool) : Channel :=
  if !en then c.switchOff k else if st = SYN_OFF then c.toAcq k true true else if st = SYN_LOCKED then c.replan k vco else c

theorem switchOff_words (k : Fin 2) : SynWords (synMarks k) c (c.switchOff k.val) :=
  ((synWords_synTo k c SYN_OFF).trans (.put (F.SYN_SYN_STAT_RSYNC k.val) 0 List.mem_cons_self)).trans
    (.put (F.SYN_SYN_STAT_LOCKIND k.val) 0 List.mem_cons_self)

theorem switchOff_stat (k : Fin 2) : (c.switchOff k.val).synSt k.val = SYN_OFF ∧ (c.switchOff k.val).cur (F.SYN_SYN_STAT_LOCKIND k.val) = 0 ∧
    (c.switchOff k.val).cur (F.SYN_SYN_STAT_RSYNC k.val) = 0 := by
  obtain ⟨a, ha, -, -, -, hrs, hafld, -⟩ := putStat (c.synTo k.val SYN_OFF) k (F.SYN_SYN_STAT_RSYNC k.val) 0 rfl (by decide : 25 + 1 ≤ 32) (by decide : 0 < 2 ^ 1)
  obtain ⟨b, hb, -, -, -, hind, hbfld, -⟩ := putStat a k (F.SYN_SYN_STAT_LOCKIND k.val) 0 rfl (by decide : 29 + 1 ≤ 32) (by decide : 0 < 2 ^ 1)
  unfold Channel.switchOff
  rw [ha, hb]
  refine ⟨?_, hind, (hbfld (F.SYN_SYN_STAT_RSYNC k.val) (.inl (by decide : 25 + 1 ≤ 29))).trans hrs⟩
  exact (hbfld (F.SYN_SYN_STAT_STATE k.val) (.inr (by decide : 29 + 1 ≤ 30))).trans
    ((hafld (F.SYN_SYN_STAT_STATE k.val) (.inr (by decide : 25 + 1 ≤ 30))).trans (synTo_st k c SYN_OFF (by decide)))

theorem resync_words (k : Fin 2) : SynWords (synMarks k) c (c.resync k.val) := by
  unfold Channel.resync
  refine .ite ?_ (.refl _ c)
  exact (SynWords.put (F.SYN_SYN_STAT_RSYNC k.val) 0 List.mem_cons_self).trans (outsOnly_words _ (outsOnly_fold (fun d m => oo_updOut d m _) _ _))

theorem resync_stat (k : Fin 2) : (c.resync k.val).cur (F.SYN_SYN_STAT_RSYNC k.val) = 0 ∧ (c.resync k.val).synSt k.val = c.synSt k.val := by
  unfold Channel.resync
  split
  · obtain ⟨a, ha, -, -, -, hrs, hfld, -⟩ := putStat c k (F.SYN_SYN_STAT_RSYNC k.val) 0 rfl (by decide : 25 + 1 ≤ 32) (by decide : 0 < 2 ^ 1)
    have honly := outsOnly_fold (g := fun d m => d.updOut m (fun o => { o with ran := false })) (fun d m => oo_updOut d m _) (c.synOuts k.val) a
    rw [ha]
    exact ⟨(honly.cur _).trans hrs, (honly.cur _).trans (hfld _ (.inr (by decide : 25 + 1 ≤ 30)))⟩
  · next h =>
    have hlt : c.cur (F.SYN_SYN_STAT_RSYNC k.val) < 2 ^ 1 := getField_lt _ _ _
    exact ⟨by omega, rfl⟩

theorem replan_words (k : Fin 2) (vco : Bool) : SynWords (synMarks k) c (c.replan k.val vco) := by
  unfold Channel.replan
  exact .ite (((resync_words c k).trans (toAcq_acquires _ k _ true).words).trans (.put (F.SYN_SYN_STAT_LOCKIND k.val) 0 List.mem_cons_self)) (resync_words c k)

theorem replan_stat (k : Fin 2) (vco : Bool) : (c.replan k.val vco).cur (F.SYN_SYN_STAT_RSYNC k.val) = 0 ∧
    (c.replan k.val vco).synSt k.val = if vco then SYN_ACQ else c.synSt k.val := by
  obtain ⟨hrs, hst⟩ := resync_stat c k
  unfold Channel.replan
  cases vco with
  | false => exact ⟨hrs, hst⟩
  | true =>
    obtain ⟨-, hacq, -, hfields, -, -, -⟩ := toAcq_acquires (c.resync k.val) k ((c.resync k.val).rlkHold k.val) true
    rw [if_pos rfl, if_pos rfl]
    obtain ⟨a, ha, -, -, -, -, hafld, -⟩ := putStat ((c.resync k.val).toAcq k.val ((c.resync k.val).rlkHold k.val) true) k (F.SYN_SYN_STAT_LOCKIND k.val) 0 rfl
      (by decide : 29 + 1 ≤ 32) (by decide : 0 < 2 ^ 1)
    rw [ha]
    exact ⟨(hafld (F.SYN_SYN_STAT_RSYNC k.val) (.inl (by decide : 25 + 1 ≤ 29))).trans ((hfields _ rfl (by decide : 25 + 1 ≤ 30)).trans hrs),
      (hafld (F.SYN_SYN_STAT_STATE k.val) (.inr (by decide : 29 + 1 ≤ 30))).trans hacq⟩

theorem boundaryMove_words (k : Fin 2) (st : ℕ) (en vco : Bool) : SynWords (synMarks k) c (c.boundaryMove k.val st en vco) :=
  .ite (switchOff_words c k) (.ite (toAcq_acquires c k true true).words (.ite (replan_words c k vco) (.refl _ c)))

theorem boundaryMove_off (k st : ℕ) (vco : Bool) : c.boundaryMove k st false vco = c.switchOff k := rfl

end
end Sys2Proof.Machine
end

section
/-! What the boundary of SYNk does when it comes (R155, R156). -/
namespace Sys2Proof.Machine

section
variable {c : Channel} {k : Fin 2} {x : SynStage}

/-- The boundary of SYNk in this tick takes its part of the staged set `x`. -/
def Channel.boundaryTakes (c : Channel) (k : ℕ) (x : SynStage) : Prop :=
  (if k = 0 then x.p0 else x.p1) = true ∧ ¬ (c.synSt k = SYN_COAST ∧ c.follow k = 3) ∧ (c.boundaryHere x k).isSome = true

/-- A part that the staged set no longer holds, or that waits for a coasting REFIN plan. -/
def Channel.partWaits (c : Channel) (k : ℕ) (x : SynStage) : Bool := !(if k = 0 then x.p0 else x.p1) || (c.synSt k == SYN_COAST && c.follow k == 3)

theorem partWaits_iff : c.partWaits k.val x = false ↔
    (if k.val = 0 then x.p0 else x.p1) = true ∧ ¬ (c.synSt k.val = SYN_COAST ∧ c.follow k.val = 3) := by
  unfold Channel.partWaits
  rw [Bool.or_eq_false_iff, Bool.not_eq_false', ← Bool.not_eq_true (_ && _), Bool.and_eq_true, beq_iff_eq, beq_iff_eq]

theorem synBoundary_idle (h : ∀ x, c.syn.stage = some x → ¬ c.boundaryTakes k.val x) : c.synBoundary k.val = c := by
  unfold Channel.synBoundary
  split
  · rfl
  · next x hx =>
    show (if c.partWaits k.val x = true then c else _) = c
    by_cases hw : c.partWaits k.val x = true
    · exact if_pos hw
    · rw [if_neg hw]
      split
      · rfl
      · next b hb =>
        obtain ⟨hpart, hwait⟩ := partWaits_iff.mp (eq_false_of_ne_true hw)
        exact absurd ⟨hpart, hwait, by rw [hb]; rfl⟩ (h x hx)

/-- The part taken: the synthesizer moves with its words in force, and the boundary's stored values are dropped. -/
def Channel.takesPart (c : Channel) (k : ℕ) (x : SynStage) (st : ℕ) (vco : Bool) : Channel :=
  ((c.takePart k x.words (fun d => d.boundaryMove k st (decide (Channel.stagedFld x.words (F.SYN_SYN_CFG_EN k) = 1)) vco)).setSynK' k
    (fun z => { z with stored := none })).partDone x k

/-- The part put off: its words are stored for the time when the loop closes again. -/
def Channel.storesPart (c : Channel) (k : ℕ) (x : SynStage) : Channel := (c.setSynK' k (fun z => { z with stored := some x.words })).partDone x k

theorem synBoundary_at {b : Int} (hx : c.syn.stage = some x) (hw : c.partWaits k.val x = false) (hb : c.boundaryHere x k.val = some b) :
    c.synBoundary k.val = if c.synSt k.val = SYN_COAST ∧ Channel.stagedFld x.words (F.SYN_SYN_CFG_EN k.val) = 1
      then (c.countFrom x k.val b).storesPart k.val x
      else (c.countFrom x k.val b).takesPart k.val x (c.synSt k.val) (c.vcoChange k.val x.words) := by
  unfold Channel.synBoundary
  simp only [hx, hb]
  exact if_neg (ne_true_of_eq_false hw)

/-- Whatever the boundary does, it does it after the count of the reference has begun again (R150). -/
theorem synBoundary_takes (hx : c.syn.stage = some x) (h : c.boundaryTakes k.val x) : ∃ y : SynK,
    c.synBoundary k.val = if c.synSt k.val = SYN_COAST ∧ Channel.stagedFld x.words (F.SYN_SYN_CFG_EN k.val) = 1
      then (c.setSynK k.val y).storesPart k.val x else (c.setSynK k.val y).takesPart k.val x (c.synSt k.val) (c.vcoChange k.val x.words) := by
  obtain ⟨hpart, hwait, hsome⟩ := h
  obtain ⟨b, hb⟩ := Option.isSome_iff_exists.mp hsome
  obtain ⟨ph, hph⟩ := countFrom_eq c x k.val b
  exact ⟨_, by rw [synBoundary_at hx (partWaits_iff.mpr ⟨hpart, hwait⟩) hb, hph]⟩

/-! ### What a stored part, and a part taken, leave -/

theorem storesPart_words (c : Channel) (k : ℕ) (x : SynStage) : SynWords [SYN_CTL, SYN_EVT] c (c.storesPart k x) :=
  (synWords_setSynK' _ c k fun z => { z with stored := some x.words }).trans (partDone_words _ x k)

theorem storesPart_stored (c : Channel) (k : ℕ) (x : SynStage) : ((c.storesPart k x).synK k).stored = some x.words := by
  unfold Channel.storesPart
  rw [partDone_synK, synK_setSynK']

theorem takesPart_stored (c : Channel) (k : ℕ) (x : SynStage) (st : ℕ) (vco : Bool) : ((c.takesPart k x st vco).synK k).stored = none := by
  unfold Channel.takesPart
  rw [partDone_synK, synK_setSynK']

theorem takesPart_uses (c : Channel) (k : Fin 2) (x : SynStage) (st : ℕ) (vco : Bool) :
    (∀ o ∈ Channel.synPart x.words k.val, (c.takesPart k.val x st vco).useWord .syn o = smGet (kbRst .syn o) x.words o) ∧
    ∀ o, o ∉ Channel.synPart x.words k.val → (c.takesPart k.val x st vco).useWord .syn o = c.useWord .syn o := by
  unfold Channel.takesPart
  simp only [(partDone_words _ x k.val).useWord, useWord_setSynK']
  exact takePart_uses c k.val x.words fun d => (boundaryMove_words d k st _ vco).uses

/-- The status of a synthesizer after a part is as its move leaves it. -/
theorem takesPart_stat (c : Channel) (k n : Fin 2) (x : SynStage) (st : ℕ) (vco : Bool) {g : KF} (hb : g.blk = .syn) (hg : g.off = SYN_SYN_STAT n.val) :
    (c.takesPart k.val x st vco).cur g = ((c.takeStaged x.words (Channel.synPart x.words k.val)).boundaryMove k.val st
      (decide (Channel.stagedFld x.words (F.SYN_SYN_CFG_EN k.val) = 1)) vco).cur g := by
  unfold Channel.takesPart
  rw [partDone_stat _ x k.val n hb hg, cur_setSynK', (outsOnly_takePart c k.val x.words _).cur]

theorem vcoChange_iff (c : Channel) (k : ℕ) (words : List (ℕ × Word)) : c.vcoChange k words = true ↔
    ∃ f ∈ [F.SYN_SYN_FNUM_NUM k, F.SYN_SYN_FDEN_DEN k, F.SYN_SYN_CFG_NFB k, F.SYN_SYN_CFG_LOOP k, F.SYN_SYN_CFG_FOLLOW k, F.SYN_SYN_CFG_REFSEL k],
      c.fld f ≠ Channel.stagedFld words f := by
  unfold Channel.vcoChange
  simp only [List.any_eq_true, bne_iff_ne]

/-- The other synthesizer stays in its state. -/
theorem takesPart_other (c : Channel) {k n : Fin 2} (x : SynStage) (st : ℕ) (vco : Bool) (h : n ≠ k) :
    (c.takesPart k.val x st vco).synSt n.val = c.synSt n.val :=
  (takesPart_stat c k n x st vco rfl rfl).trans (((boundaryMove_words _ k st _ vco).synSt_ne h).trans (cur_takeStaged _))

section
variable (c : Channel) (k : Fin 2) (x : SynStage) (vco : Bool)

theorem takesPart_disables (h : Channel.stagedFld x.words (F.SYN_SYN_CFG_EN k.val) = 0) (st : ℕ) :
    (c.takesPart k.val x st vco).synSt k.val = SYN_OFF ∧ (c.takesPart k.val x st vco).cur (F.SYN_SYN_STAT_LOCKIND k.val) = 0 ∧
      (c.takesPart k.val x st vco).cur (F.SYN_SYN_STAT_RSYNC k.val) = 0 := by
  unfold Channel.synSt
  simp only [takesPart_stat c k k x st vco (g := F.SYN_SYN_STAT_STATE k.val) rfl rfl, takesPart_stat c k k x st vco (g := F.SYN_SYN_STAT_LOCKIND k.val) rfl rfl,
    takesPart_stat c k k x st vco (g := F.SYN_SYN_STAT_RSYNC k.val) rfl rfl, h, show decide ((0 : ℕ) = 1) = false from rfl, boundaryMove_off]
  exact switchOff_stat _ k

section
variable (h : Channel.stagedFld x.words (F.SYN_SYN_CFG_EN k.val) = 1)
include h

theorem takesPart_enables : (c.takesPart k.val x SYN_OFF vco).synSt k.val = SYN_ACQ := by
  refine (takesPart_stat c k k x SYN_OFF vco (g := F.SYN_SYN_STAT_STATE k.val) rfl rfl).trans ?_
  rw [h]
  exact (toAcq_acquires _ k true true).st

theorem takesPart_replans : (c.takesPart k.val x SYN_LOCKED vco).cur (F.SYN_SYN_STAT_RSYNC k.val) = 0 ∧
    (c.takesPart k.val x SYN_LOCKED vco).synSt k.val = if vco then SYN_ACQ else c.synSt k.val := by
  have hmove := replan_stat (c.takeStaged x.words (Channel.synPart x.words k.val)) k vco
  rw [show (c.takeStaged x.words (Channel.synPart x.words k.val)).synSt k.val = c.synSt k.val from cur_takeStaged _] at hmove
  refine ⟨(takesPart_stat c k k x SYN_LOCKED vco (g := F.SYN_SYN_STAT_RSYNC k.val) rfl rfl).trans ?_,
    (takesPart_stat c k k x SYN_LOCKED vco (g := F.SYN_SYN_STAT_STATE k.val) rfl rfl).trans ?_⟩
  · rw [h]
    exact hmove.1
  · rw [h]
    exact hmove.2

theorem takesPart_acquiring : (c.takesPart k.val x SYN_ACQ vco).synSt k.val = c.synSt k.val := by
  refine (takesPart_stat c k k x SYN_ACQ vco (g := F.SYN_SYN_STAT_STATE k.val) rfl rfl).trans ?_
  rw [h]
  exact cur_takeStaged _

end
end

end
end Sys2Proof.Machine
end

section
/-! The boundary of the pulse part, pulse edges and TODO (R156, R163, R164, R167, R168). -/
namespace Sys2Proof.Machine

/-! ### The boundary of the pulse and ToD part -/

section
variable {offs : List ℕ} {c d : Channel} (h : SynWords offs c d) (j : Fin 2)
include h

theorem SynWords.plsPeriod : d.plsPeriod j = c.plsPeriod j := by
  unfold Channel.plsPeriod
  rw [h.fld (g := F.SYN_PLS_CFG_PER j.val) rfl, h.fld (g := F.SYN_PLS_CFG_UNIT j.val) rfl]

theorem SynWords.plsOfs : d.plsOfs j = c.plsOfs j := by
  unfold Channel.plsOfs Channel.sfld
  rw [h.fld (g := F.SYN_PLS_OFS_OFS j.val) rfl]

theorem SynWords.plsIdx (x : Int) : d.plsIdx j x = c.plsIdx j x := by
  unfold Channel.plsIdx
  rw [h.plsPeriod, h.plsOfs]

end

/-- The first whole second of OTS from the start of the tick on. -/
def Channel.nextSecond (c : Channel) : Int := -(Int.fdiv (-c.syn.ots0) (2 ^ 96)) * 2 ^ 96

theorem multFrom_nextSecond (c : Channel) : Channel.multFrom c.syn.ots0 (2 ^ 96) 1 = c.nextSecond := by
  unfold Channel.multFrom Channel.cdiv Channel.nextSecond
  rw [if_neg (by decide), mul_one, Int.fdiv_one, neg_neg]

section
variable {c : Channel} {x : SynStage}

/-- A pulse output whose period or phase the part changes restarts its indices at the second `b` (R164). -/
def Channel.restartPulse (old : Channel) (b : Int) (c : Channel) (j : Fin 2) : Channel :=
  if c.plsPeriod j ≠ old.plsPeriod j ∨ c.plsOfs j ≠ old.plsOfs j then
    c.updPls j (fun p => { p with idx := some (c.plsIdx j b - 1), seen := some (c.plsIdx j b - 1) })
  else c

/-- The pulse part in force at the second `b`. -/
def Channel.pulsesTaken (c : Channel) (x : SynStage) (b : Int) : Channel :=
  (List.finRange 2).foldl (Channel.restartPulse c b) (c.takeStaged x.words Channel.plsPart)

theorem restartPulse_words (old : Channel) (b : Int) (c : Channel) (j : Fin 2) : SynWords [] c (old.restartPulse b c j) :=
  .ite (.of_regs _ rfl) (.refl _ c)

theorem restartPulse_self (old : Channel) (b : Int) (c : Channel) (j : Fin 2) : (old.restartPulse b c j).plse j =
    if c.plsPeriod j ≠ old.plsPeriod j ∨ c.plsOfs j ≠ old.plsOfs j
    then { c.plse j with idx := some (c.plsIdx j b - 1), seen := some (c.plsIdx j b - 1) } else c.plse j := by
  unfold Channel.restartPulse
  split
  · exact plse_updPls c j _
  · rfl

theorem restartPulse_ne (old : Channel) (b : Int) (c : Channel) {j n : Fin 2} (h : n ≠ j) : (old.restartPulse b c j).plse n = c.plse n := by
  unfold Channel.restartPulse
  split
  · exact vset_ne _ _ h
  · rfl

theorem pulsesTaken_words (c : Channel) (x : SynStage) (b : Int) : SynWords [] (c.takeStaged x.words Channel.plsPart) (c.pulsesTaken x b) :=
  SynWords.fold (restartPulse_words c b) _ _

theorem pulsesTaken_plse (c : Channel) (x : SynStage) (b : Int) (n : Fin 2) : (c.pulsesTaken x b).plse n =
    if (c.pulsesTaken x b).plsPeriod n ≠ c.plsPeriod n ∨ (c.pulsesTaken x b).plsOfs n ≠ c.plsOfs n
    then { c.plse n with idx := some ((c.pulsesTaken x b).plsIdx n b - 1), seen := some ((c.pulsesTaken x b).plsIdx n b - 1) } else c.plse n := by
  have hw := pulsesTaken_words c x b
  rw [hw.plsPeriod, hw.plsOfs, hw.plsIdx]
  have hplse : ∀ n, (c.takeStaged x.words Channel.plsPart).plse n = c.plse n := fun _ => rfl
  unfold Channel.pulsesTaken
  generalize c.takeStaged x.words Channel.plsPart = t at hplse ⊢
  show (c.restartPulse b (c.restartPulse b t 0) 1).plse n = _
  match n with
  | 0 => rw [restartPulse_ne c b _ (by decide), restartPulse_self, hplse]
  | 1 =>
    have h0 := restartPulse_words c b t 0
    rw [restartPulse_self, h0.plsPeriod, h0.plsOfs, h0.plsIdx, restartPulse_ne c b _ (by decide), hplse]

theorem pulseBoundary_takes (hx : c.syn.stage = some x) (hp : x.pp = true) (ht : x.tick + 200000 ≤ c.jour.tick)
    (hb : c.nextSecond < c.otsNext) :
    c.pulseBoundary = ((c.pulsesTaken x c.nextSecond).setSyn
      { (c.pulsesTaken x c.nextSecond).syn with stage := some { x with pp := false } }).stageSettle := by
  unfold Channel.pulseBoundary
  simp only [hx, multFrom_nextSecond]
  refine if_neg ?_
  rw [hp, decide_eq_false (Nat.not_lt.mpr ht), decide_eq_false (Int.not_le.mpr hb)]
  decide

/-- The settings and the indices of the pulse outputs after the boundary (R156, R164). -/
theorem pulseBoundary_leaves (hx : c.syn.stage = some x) (hp : x.pp = true) (ht : x.tick + 200000 ≤ c.jour.tick)
    (hb : c.nextSecond < c.otsNext) :
    c.pulseBoundary.leaves { x with pp := false } ∧ (∀ o ∈ Channel.plsPart, c.pulseBoundary.useWord .syn o = smGet (kbRst .syn o) x.words o) ∧
      (∀ o, o ∉ Channel.plsPart → c.pulseBoundary.useWord .syn o = c.useWord .syn o) ∧
      ∀ n : Fin 2, c.pulseBoundary.plse n = if c.pulseBoundary.plsPeriod n ≠ c.plsPeriod n ∨ c.pulseBoundary.plsOfs n ≠ c.plsOfs n
        then { c.plse n with idx := some (c.pulseBoundary.plsIdx n c.nextSecond - 1),
                             seen := some (c.pulseBoundary.plsIdx n c.nextSecond - 1) } else c.plse n := by
  rw [pulseBoundary_takes hx hp ht hb]
  generalize c.nextSecond = b
  have hplse := pulsesTaken_plse c x b
  have huse := (pulsesTaken_words c x b).useWord
  generalize c.pulsesTaken x b = t at hplse huse ⊢
  have hset : SynWords [SYN_CTL, SYN_EVT] t (t.setSyn { t.syn with stage := some { x with pp := false } }).stageSettle :=
    (SynWords.setSyn _).trans (stageSettle_words _)
  refine ⟨stageSettle_leaves _ rfl, fun o ho => ?_, fun o ho => ?_, fun n => ?_⟩
  · rw [hset.useWord, huse, useWord_takeStaged ho]
  · rw [hset.useWord, huse, useWord_takeStaged_ne ho]
  · rw [stageSettle_plse, hset.plsPeriod, hset.plsOfs, hset.plsIdx]
    exact hplse n

theorem pulseBoundary_idle (h : ∀ x, c.syn.stage = some x →
    x.pp = false ∨ c.jour.tick < x.tick + 200000 ∨ c.otsNext ≤ c.nextSecond) : c.pulseBoundary = c := by
  unfold Channel.pulseBoundary
  split
  · rfl
  · next x hx =>
    refine if_pos ?_
    rw [multFrom_nextSecond]
    simpa [or_assoc] using h x hx

end

/-! ### Pulse edges (R163, R164) -/

/-- The index after one that has been met, or the first whose instant the tick may hold. -/
def Channel.afterIdx (c : Channel) (j : Fin 2) (o : Option Int) : Int := match o with
  | some i => i + 1
  | none => c.plsIdx j c.syn.ots0

/-- The first index of a pulse output that it has not met. -/
def Channel.nextIdx (c : Channel) (j : Fin 2) : Int :=
  max (c.plsIdx j c.syn.ots0) (max (c.afterIdx j (c.plse j).idx) (c.afterIdx j (c.plse j).seen))

/-- The tick holds the instant of that index, and the last JUMP has not gone over it. -/
def Channel.edgeDue (c : Channel) (j : Fin 2) : Prop :=
  c.flag (F.SYN_PLS_CFG_EN j.val) = true ∧ c.nextIdx j * (c.plsPeriod j).1 < (c.otsNext + c.plsOfs j) * (c.plsPeriod j).2 ∧
    ∀ y, c.syn.jumpOts = some y → y * (c.plsPeriod j).2 ≤ c.nextIdx j * (c.plsPeriod j).1 - c.plsOfs j * (c.plsPeriod j).2

/-- The last JUMP has not gone over the instant of the next index (R164). -/
def Channel.clearOfJump (c : Channel) (j : Fin 2) : Bool := match c.syn.jumpOts with
  | some y => decide (y * (c.plsPeriod j).2 ≤ c.nextIdx j * (c.plsPeriod j).1 - c.plsOfs j * (c.plsPeriod j).2)
  | none => true

/-- No edge of the pulse output in this tick. -/
def Channel.edgeWaits (c : Channel) (j : Fin 2) : Bool :=
  !c.flag (F.SYN_PLS_CFG_EN j.val) || !decide (c.nextIdx j * (c.plsPeriod j).1 < (c.otsNext + c.plsOfs j) * (c.plsPeriod j).2) || !c.clearOfJump j

theorem edgeWaits_iff (c : Channel) (j : Fin 2) : c.edgeWaits j = false ↔ c.edgeDue j := by
  have hjump : c.clearOfJump j = true ↔
      ∀ y, c.syn.jumpOts = some y → y * (c.plsPeriod j).2 ≤ c.nextIdx j * (c.plsPeriod j).1 - c.plsOfs j * (c.plsPeriod j).2 := by
    unfold Channel.clearOfJump
    cases c.syn.jumpOts <;> simp
  unfold Channel.edgeWaits Channel.edgeDue
  rw [← hjump]
  simp only [Bool.or_eq_false_iff, Bool.not_eq_false', decide_eq_true_eq, and_assoc]

/-- A squelched edge is met and skipped. -/
def Channel.skipEdge (c : Channel) (j : Fin 2) : Channel :=
  if c.todHere j then ((c.updPls j (fun p => { p with seen := some (c.nextIdx j) })).bump F.SYN_TOD_STAT_SKIP).evt F.SYN_EVT_TODSKIP
  else c.updPls j (fun p => { p with seen := some (c.nextIdx j) })

/-- An edge emitted `ps` picoseconds into the tick, which ends at channel time `fall`. -/
def Channel.emitEdge (c : Channel) (j : Fin 2) (ps : ℕ) (fall : Gt) : Channel :=
  (c.updPls j (fun p => { p with idx := some (c.nextIdx j), seen := some (c.nextIdx j), fall := some fall })).ask (.edge j.val (c.nextIdx j) ps c.drive)

/-- The sentence that labels an edge waits for its time (R167). -/
def Channel.labelEdge (c : Channel) (j : Fin 2) (d : Channel) : Channel :=
  if c.todHere j then d.setSyn { d.syn with tod := some ⟨c.jour.tick + c.fld F.SYN_TOD_CFG_DLY * 200000, c.todBody j (c.nextIdx j)⟩ } else d

theorem pulseEdge_eq (c : Channel) (j : Fin 2) : ∃ ps fall, c.pulseEdge j =
    if c.edgeWaits j then c else if (c.plse j).sq then c.skipEdge j else c.labelEdge j (c.emitEdge j ps fall) := by
  unfold Channel.pulseEdge Channel.edgeWaits Channel.clearOfJump
  rcases c.plsPeriod j with ⟨num, den⟩
  exact ⟨_, _, rfl⟩

section
variable {c : Channel} {j : Fin 2}

theorem pulseEdge_idle (h : ¬ c.edgeDue j) : c.pulseEdge j = c := by
  obtain ⟨ps, fall, heq⟩ := pulseEdge_eq c j
  rw [heq, if_pos (eq_true_of_ne_false (mt (edgeWaits_iff c j).mp h))]

theorem pulseEdge_skips (h : c.edgeDue j) (hs : (c.plse j).sq = true) : c.pulseEdge j = c.skipEdge j := by
  obtain ⟨ps, fall, heq⟩ := pulseEdge_eq c j
  rw [heq, if_neg (ne_true_of_eq_false ((edgeWaits_iff c j).mpr h)), if_pos hs]

theorem pulseEdge_emits (h : c.edgeDue j) (hs : (c.plse j).sq = false) : ∃ ps fall, c.pulseEdge j = c.labelEdge j (c.emitEdge j ps fall) := by
  obtain ⟨ps, fall, heq⟩ := pulseEdge_eq c j
  exact ⟨ps, fall, by rw [heq, if_neg (ne_true_of_eq_false ((edgeWaits_iff c j).mpr h)), if_neg (ne_true_of_eq_false hs)]⟩

theorem skipEdge_syn (c : Channel) (j : Fin 2) :
    (c.skipEdge j).syn = { c.syn with pls := c.syn.pls.set j { c.plse j with seen := some (c.nextIdx j) } } := by
  unfold Channel.skipEdge
  split
  · rw [Channel.evt_syn, Channel.bump_syn]
    rfl
  · rfl

theorem skipEdge_counts (h : c.todHere j = true) : (c.skipEdge j).cur F.SYN_EVT_TODSKIP = 1 ∧
    (c.skipEdge j).cur F.SYN_TOD_STAT_SKIP = (c.cur F.SYN_TOD_STAT_SKIP + 1) % 65536 := by
  unfold Channel.skipEdge
  rw [if_pos h]
  exact ⟨cur_evt _ _ rfl (by decide), (Channel.cur_evt_ne _ _ _ (by decide)).trans (cur_put_self _ _ _ (by decide))⟩

/-- What an emitted edge leaves: its index, its output, and the sentence that labels it. -/
theorem emitEdge_leaves (c : Channel) (j : Fin 2) (ps : ℕ) (fall : Gt) :
    (c.labelEdge j (c.emitEdge j ps fall)).regs = c.regs ∧ ((c.labelEdge j (c.emitEdge j ps fall)).plse j).idx = some (c.nextIdx j) ∧
      ((c.labelEdge j (c.emitEdge j ps fall)).plse j).seen = some (c.nextIdx j) ∧
      Eff.edge j.val (c.nextIdx j) ps c.drive ∈ (c.labelEdge j (c.emitEdge j ps fall)).effs ∧
      (∀ n, n ≠ j → (c.labelEdge j (c.emitEdge j ps fall)).plse n = c.plse n) ∧
      (c.labelEdge j (c.emitEdge j ps fall)).syn.tod =
        if c.todHere j then some ⟨c.jour.tick + c.fld F.SYN_TOD_CFG_DLY * 200000, c.todBody j (c.nextIdx j)⟩ else c.syn.tod := by
  have hself : (c.emitEdge j ps fall).plse j = { c.plse j with idx := some (c.nextIdx j), seen := some (c.nextIdx j), fall := some fall } := vset_self _ _ _
  have hne : ∀ n, n ≠ j → (c.emitEdge j ps fall).plse n = c.plse n := fun n hn => vset_ne _ _ hn
  have heff : Eff.edge j.val (c.nextIdx j) ps c.drive ∈ (c.emitEdge j ps fall).effs := List.mem_append_right _ (List.mem_singleton.mpr rfl)
  unfold Channel.labelEdge
  split
  · exact ⟨rfl, congrArg PlsSt.idx hself, congrArg PlsSt.seen hself, heff, hne, rfl⟩
  · exact ⟨rfl, congrArg PlsSt.idx hself, congrArg PlsSt.seen hself, heff, hne, rfl⟩

end

/-! ### TODO (R167, R168) -/

section
variable {c : Channel} {t : TodPend}

/-- The sentence that waits, with its SEQ and without its CRC (R70). -/
def Channel.todSentenceBytes (c : Channel) (t : TodPend) : Bytes :=
  [0xC5#8, 0x3A#8, 0x01#8, 0x1C#8] ++ t.body ++ beBytes 2 c.syn.todSeq ++ [0#8, 0#8]

theorem todSend_waits (h : ∀ t, c.syn.tod = some t → c.jour.tick < t.due) : c.todSend = c := by
  unfold Channel.todSend
  split
  · rfl
  · next t ht => exact if_pos (h t ht)

theorem todSend_sends (ht : c.syn.tod = some t) (hd : t.due ≤ c.jour.tick) : c.todSend =
    ((c.setSyn { c.syn with tod := none, todSeq := wrapInc 16 c.syn.todSeq }).bump F.SYN_TOD_STAT_SENT).ask
      (.todBytes (c.todSentenceBytes t ++ beBytes 2 (crc16 (c.todSentenceBytes t))) c.drive) := by
  unfold Channel.todSend
  simp only [ht]
  exact if_neg (Nat.not_lt.mpr hd)

theorem todSend_leaves (ht : c.syn.tod = some t) (hd : t.due ≤ c.jour.tick) :
    c.todSend.syn = { c.syn with tod := none, todSeq := wrapInc 16 c.syn.todSeq } ∧
      c.todSend.cur F.SYN_TOD_STAT_SENT = (c.cur F.SYN_TOD_STAT_SENT + 1) % 65536 ∧
      Eff.todBytes (c.todSentenceBytes t ++ beBytes 2 (crc16 (c.todSentenceBytes t))) c.drive ∈ c.todSend.effs := by
  rw [todSend_sends ht hd]
  exact ⟨rfl, (Channel.cur_ask _ _ _).trans (cur_put_self _ _ _ (by decide)), List.mem_append_right _ (List.mem_singleton.mpr rfl)⟩

end
end Sys2Proof.Machine
end

section
/-! Realignment: the JUMP switch, the end of a SLEW, and GO of RA_CTL (R164 to R166). -/
namespace Sys2Proof.Machine

/-! ### Pulses that a JUMP goes over (R164) -/

/-- The count of the indices of a pulse output that OTS passes from `a` to `till`, without an edge. -/
def Channel.jumpedOver (c : Channel) (a till : Int) (j : Fin 2) : ℕ := if c.flag (F.SYN_PLS_CFG_EN j.val) then c.passed j a till else 0

/-- Skipped pulses are counted, and the sentences that would have labelled them. -/
def Channel.skipPulses (c : Channel) (j : Fin 2) (n : ℕ) : Channel :=
  if n = 0 then c
  else if c.todHere j then ((((c.bumpBy (F.SYN_PLS_STAT_SKIP j.val) n).evt F.SYN_EVT_PSKIP).bumpBy F.SYN_TOD_STAT_SKIP n).evt F.SYN_EVT_TODSKIP)
  else (c.bumpBy (F.SYN_PLS_STAT_SKIP j.val) n).evt F.SYN_EVT_PSKIP

/-- The words that skipped pulses change. -/
def skipWords (j : Fin 2) : List ℕ := [SYN_PLS_STAT j.val, SYN_EVT, SYN_TOD_STAT]

section
variable (c : Channel) (j : Fin 2) (n : ℕ)

theorem synWords_bumpBy {offs : List ℕ} (f : KF) (hf : f.off ∈ offs) : SynWords offs c (c.bumpBy f n) := .put f _ hf

theorem skipPulses_words : SynWords (skipWords j) c (c.skipPulses j n) := by
  have hcount : SynWords (skipWords j) c ((c.bumpBy (F.SYN_PLS_STAT_SKIP j.val) n).evt F.SYN_EVT_PSKIP) :=
    (synWords_bumpBy c n (F.SYN_PLS_STAT_SKIP j.val) List.mem_cons_self).trans (.evt F.SYN_EVT_PSKIP (List.mem_cons_of_mem _ List.mem_cons_self))
  have hlabel : ∀ x : Channel, SynWords (skipWords j) x ((x.bumpBy F.SYN_TOD_STAT_SKIP n).evt F.SYN_EVT_TODSKIP) := fun x =>
    (synWords_bumpBy x n F.SYN_TOD_STAT_SKIP (by simp [skipWords, F.SYN_TOD_STAT_SKIP, SYN_TOD_STAT])).trans
      (.evt F.SYN_EVT_TODSKIP (List.mem_cons_of_mem _ List.mem_cons_self))
  exact .ite (.refl _ c) (.ite (hcount.trans (hlabel _)) hcount)

theorem skipPulses_syn : (c.skipPulses j n).syn = c.syn := by
  unfold Channel.skipPulses
  split
  · rfl
  · split
    · rw [Channel.evt_syn, Channel.bumpBy_syn, Channel.evt_syn, Channel.bumpBy_syn]
    · rw [Channel.evt_syn, Channel.bumpBy_syn]

theorem plsStat_apart (j : Fin 2) : F.SYN_EVT_PSKIP.off ≠ SYN_PLS_STAT j.val ∧ F.SYN_TOD_STAT_SKIP.off ≠ SYN_PLS_STAT j.val ∧
    F.SYN_EVT_TODSKIP.off ≠ SYN_PLS_STAT j.val := by revert j; decide

theorem skipPulses_counts : (c.skipPulses j n).cur (F.SYN_PLS_STAT_SKIP j.val) = (c.cur (F.SYN_PLS_STAT_SKIP j.val) + n) % 65536 := by
  obtain ⟨hpskip, htod, htodskip⟩ := plsStat_apart j
  have hcount : ((c.bumpBy (F.SYN_PLS_STAT_SKIP j.val) n).evt F.SYN_EVT_PSKIP).cur (F.SYN_PLS_STAT_SKIP j.val) =
      (c.cur (F.SYN_PLS_STAT_SKIP j.val) + n) % 65536 :=
    (Channel.cur_evt_ne _ _ _ (.inr hpskip)).trans (cur_put_self c _ _ (by decide : 0 + 16 ≤ 32))
  unfold Channel.skipPulses
  split
  · next h =>
    have hlt : c.cur (F.SYN_PLS_STAT_SKIP j.val) < 2 ^ 16 := getField_lt _ _ _
    omega
  · split
    · exact (Channel.cur_evt_ne _ _ _ (.inr htodskip)).trans ((cur_put_ne _ F.SYN_TOD_STAT_SKIP _ _ (by decide) (.inr (.inl htod))).trans hcount)
    · exact hcount

end

/-- What a count of passed indices depends on. -/
theorem SynWords.jumpedOver {offs : List ℕ} {c d : Channel} (h : SynWords offs c d) {j : Fin 2} (hp : d.plse j = c.plse j) (a till : Int) :
    d.jumpedOver a till j = c.jumpedOver a till j := by
  unfold Channel.jumpedOver Channel.passed
  rw [h.flag (g := F.SYN_PLS_CFG_EN j.val) rfl, hp, h.plsIdx, h.plsIdx]

/-- The pulses that a switch of OTS to `b` skips in a tick that ends at `till`. -/
def Channel.skipsOf (c : Channel) (b till : Int) (j : Fin 2) : ℕ := c.jumpedOver (min c.syn.ots0 b) till j

/-- The skipped pulses of both outputs counted. -/
def Channel.skipBoth (c : Channel) (b till : Int) : Channel :=
  (List.finRange 2).foldl (fun d j => d.skipPulses j (d.skipsOf b till j)) c

section
variable (c : Channel) (b till : Int)

theorem skipBoth_eq : c.skipBoth b till = (c.skipPulses 0 (c.skipsOf b till 0)).skipPulses 1 (c.skipsOf b till 1) := by
  have h0 : (c.skipPulses 0 (c.skipsOf b till 0)).skipsOf b till 1 = c.skipsOf b till 1 := by
    have hsyn := skipPulses_syn c 0 (c.skipsOf b till 0)
    unfold Channel.skipsOf at hsyn ⊢
    rw [hsyn]
    exact (skipPulses_words c 0 _).jumpedOver (congrArg (fun y : SynBlk => y.pls[(1 : Fin 2)]) hsyn) _ _
  conv_rhs => rw [← h0]
  rfl

theorem skipBoth_syn : (c.skipBoth b till).syn = c.syn := by
  rw [skipBoth_eq, skipPulses_syn, skipPulses_syn]

theorem skipBoth_words : SynWords [SYN_PLS_STAT 0, SYN_PLS_STAT 1, SYN_EVT, SYN_TOD_STAT] c (c.skipBoth b till) := by
  rw [skipBoth_eq]
  exact ((skipPulses_words c 0 _).mono (by simp [skipWords])).trans ((skipPulses_words _ 1 _).mono (by simp [skipWords]))

theorem skipBoth_counts (n : Fin 2) : (c.skipBoth b till).cur (F.SYN_PLS_STAT_SKIP n.val) =
    (c.cur (F.SYN_PLS_STAT_SKIP n.val) + c.skipsOf b till n) % 65536 := by
  rw [skipBoth_eq]
  match n with
  | 0 => exact ((skipPulses_words _ 1 _).cur (g := F.SYN_PLS_STAT_SKIP 0) rfl (by decide)).trans (skipPulses_counts c 0 _)
  | 1 =>
    have hkept := (skipPulses_words c 0 (c.skipsOf b till 0)).cur (g := F.SYN_PLS_STAT_SKIP 1) rfl (by decide)
    refine (skipPulses_counts _ 1 _).trans ?_
    rw [show Channel.cur _ (F.SYN_PLS_STAT_SKIP ((1 : Fin 2).val)) = _ from hkept]
    rfl

end

/-! ### Time outputs lock again (R165) -/

/-- A locked synthesizer that follows DPLL_A acquires again after a JUMP. -/
def Channel.rejoin (c : Channel) (k : ℕ) : Channel :=
  if c.synSt k = SYN_LOCKED ∧ c.follow k = 1 then (c.toAcq k (c.rlkHold k) true).put (F.SYN_SYN_STAT_LOCKIND k) 0 else c

theorem rejoin_words (c : Channel) (k : Fin 2) : SynWords (synMarks k) c (c.rejoin k.val) :=
  .ite ((toAcq_acquires c k _ true).words.trans (.put (F.SYN_SYN_STAT_LOCKIND k.val) 0 List.mem_cons_self)) (.refl _ c)

theorem rejoin_times (c : Channel) (k : Fin 2) : (c.rejoin k.val).syn.times = c.syn.times := by
  unfold Channel.rejoin
  split
  · rw [Channel.put_syn]
    exact (toAcq_acquires c k _ true).times
  · rfl

theorem rejoin_acquires {c : Channel} {k : Fin 2} (hs : c.synSt k.val = SYN_LOCKED) (hf : c.follow k.val = 1) : (c.rejoin k.val).synSt k.val = SYN_ACQ := by
  unfold Channel.rejoin
  rw [if_pos ⟨hs, hf⟩]
  exact (cur_put_ne _ (F.SYN_SYN_STAT_LOCKIND k.val) (F.SYN_SYN_STAT_STATE k.val) _ (by decide : 29 + 1 ≤ 32)
    (.inr (.inr (.inl (by decide : 29 + 1 ≤ 30))))).trans (toAcq_acquires c k _ true).st

/-- Both synthesizers after a JUMP. -/
def Channel.rejoinBoth (c : Channel) : Channel := (c.rejoin 0).rejoin 1

section
variable (c : Channel)

theorem rejoinBoth_words : SynWords [SYN_SYN_STAT 0, SYN_SYN_STAT 1, SYN_EVT] c c.rejoinBoth :=
  ((rejoin_words c 0).mono (by simp [synMarks])).trans ((rejoin_words (c.rejoin 0) 1).mono (by simp [synMarks]))

theorem rejoinBoth_times : c.rejoinBoth.syn.times = c.syn.times := (rejoin_times (c.rejoin 0) 1).trans (rejoin_times c 0)

theorem rejoinBoth_acquires {n : Fin 2} (hs : c.synSt n.val = SYN_LOCKED) (hf : c.follow n.val = 1) : c.rejoinBoth.synSt n.val = SYN_ACQ := by
  match n with
  | 0 => exact ((rejoin_words (c.rejoin 0) 1).synSt_ne (j := 0) (by decide)).trans (rejoin_acquires (k := 0) hs hf)
  | 1 =>
    have h0 := rejoin_words c 0
    exact rejoin_acquires (k := 1) ((h0.synSt_ne (j := 1) (by decide)).trans hs) ((h0.follow 1).trans hf)

end

/-! ### The JUMP switch (R165) -/

section
variable {c d : Channel} {t : Gt}

/-- OTS as it stands at the end of the tick depends on the counter, on OTS and its SLEW, and on the slew limits. -/
theorem SynWords.otsNext {offs : List ℕ} (h : SynWords offs c d) (hra : SYN_RA_SLEW ∉ offs) (hdpll : d.dpll = c.dpll) (htick : d.jour.tick = c.jour.tick)
    (hots : d.syn.ots = c.syn.ots) (hfrom : d.syn.raFrom = c.syn.raFrom) : d.otsNext = c.otsNext := by
  have hsmax : d.smax = c.smax := congrArg smaxOf (h.fld (g := F.DPLL_A_SLEW_SLEW) rfl)
  have hrmax : d.rmax = c.rmax := congrArg smaxOf (h.cur (g := F.SYN_RA_SLEW_RA_SLEW) rfl hra)
  unfold Channel.otsNext Channel.advanceTime Channel.rateStep
  dsimp only
  rw [hsmax, hrmax, hdpll, htick, hots, hfrom]

/-- The channel at the switch: OTS is the counter. -/
def Channel.jumped (c : Channel) : Channel := c.setSyn { c.syn with ots := c.dpll.ctr, raJump := none }

/-- It, with the skipped pulses counted and the end of the tick noted. -/
def Channel.jumpNoted (c : Channel) : Channel :=
  (c.jumped.skipBoth c.dpll.ctr c.jumped.otsNext).setSyn
    { (c.jumped.skipBoth c.dpll.ctr c.jumped.otsNext).syn with jumpOts := some c.jumped.otsNext }

theorem jumpSwitch_idle (h : ∀ t, c.syn.raJump = some t → c.reached t = false) : c.jumpSwitch = c := by
  unfold Channel.jumpSwitch
  split
  · rfl
  · next t ht => exact if_pos (by rw [h t ht]; rfl)

theorem jumpNoted_syn (c : Channel) :
    c.jumpNoted.syn = { c.syn with ots := c.dpll.ctr, raJump := none, jumpOts := some c.jumped.otsNext } := by
  unfold Channel.jumpNoted
  rw [skipBoth_syn]
  rfl

theorem jumpNoted_words (c : Channel) : SynWords [SYN_PLS_STAT 0, SYN_PLS_STAT 1, SYN_EVT, SYN_TOD_STAT] c c.jumpNoted :=
  ((SynWords.setSyn _).trans (skipBoth_words c.jumped c.dpll.ctr c.jumped.otsNext)).trans (.setSyn _)

/-- The end of a JUMP in RA_CTL and EVT. -/
def Channel.realigned (c : Channel) : Channel := (c.put F.SYN_RA_CTL_ACT 0).evt F.SYN_EVT_RA_DONE

theorem realigned_words (c : Channel) : SynWords [SYN_RA_CTL, SYN_EVT] c c.realigned :=
  (SynWords.put F.SYN_RA_CTL_ACT 0 List.mem_cons_self).trans (.evt F.SYN_EVT_RA_DONE (List.mem_cons_of_mem _ List.mem_cons_self))

theorem realigned_marks (c : Channel) : c.realigned.cur F.SYN_RA_CTL_ACT = 0 ∧ c.realigned.cur F.SYN_EVT_RA_DONE = 1 :=
  ⟨(Channel.cur_evt_ne _ _ _ (by decide)).trans (Channel.cur_put_lt _ _ _ (by decide) (by decide)), cur_evt _ _ rfl (by decide)⟩

theorem realigned_syn (c : Channel) : c.realigned.syn = c.syn := by
  unfold Channel.realigned
  rw [Channel.evt_syn, Channel.put_syn]

/-- What the JUMP switch of `c` leaves in `d`. -/
structure Jumps (c d : Channel) : Prop where
  ots : d.syn.ots = c.dpll.ctr
  raJump : d.syn.raJump = none
  jumpOts : d.syn.jumpOts = some d.otsNext
  skips : ∀ n : Fin 2, c.flag (F.SYN_PLS_CFG_EN n.val) = true →
    d.cur (F.SYN_PLS_STAT_SKIP n.val) = (c.cur (F.SYN_PLS_STAT_SKIP n.val) + c.passed n (min c.syn.ots0 c.dpll.ctr) d.otsNext) % 65536
  act : d.cur F.SYN_RA_CTL_ACT = 0
  done : d.cur F.SYN_EVT_RA_DONE = 1
  acquires : ∀ n : Fin 2, c.synSt n.val = SYN_LOCKED → c.follow n.val = 1 → d.synSt n.val = SYN_ACQ

theorem plsStat_not_rejoined (n : Fin 2) : SYN_PLS_STAT n.val ∉ [SYN_RA_CTL, SYN_EVT] ∧ SYN_PLS_STAT n.val ∉ [SYN_SYN_STAT 0, SYN_SYN_STAT 1, SYN_EVT] := by
  revert n; decide

theorem synStat_not_skipped (n : Fin 2) :
    SYN_SYN_STAT n.val ∉ [SYN_RA_CTL, SYN_EVT] ∧ SYN_SYN_STAT n.val ∉ [SYN_PLS_STAT 0, SYN_PLS_STAT 1, SYN_EVT, SYN_TOD_STAT] := by
  revert n; decide

section
variable (ht : c.syn.raJump = some t) (hr : c.reached t = true)
include ht hr

theorem jumpSwitch_eq : c.jumpSwitch = c.jumpNoted.rejoinBoth.realigned := by
  unfold Channel.jumpSwitch
  simp only [ht]
  exact if_neg (by rw [hr]; decide)

theorem jumpSwitch_times : c.jumpSwitch.syn.times = (c.dpll.ctr, c.syn.ots0, c.syn.raFrom, none, some c.jumped.otsNext) := by
  rw [jumpSwitch_eq ht hr, realigned_syn, rejoinBoth_times, jumpNoted_syn]
  rfl

/-- The slew limit is not among the words that the switch changes, so the tick ends with the OTS that the switch noted. -/
theorem jumpSwitch_otsNext : c.jumpSwitch.otsNext = c.jumped.otsNext := by
  have hon := on_jumpSwitch rfl (Channel.onlyIn_refl [.syn, .asks] c)
  have hwords : SynWords [SYN_PLS_STAT 0, SYN_PLS_STAT 1, SYN_EVT, SYN_TOD_STAT, SYN_SYN_STAT 0, SYN_SYN_STAT 1, SYN_RA_CTL] c c.jumpSwitch := by
    rw [jumpSwitch_eq ht hr]
    exact (((jumpNoted_words c).mono (by simp)).trans ((rejoinBoth_words _).mono (by simp))).trans ((realigned_words _).mono (by simp))
  have htimes := jumpSwitch_times ht hr
  exact SynWords.otsNext (c := c.jumped) ⟨⟨hwords.uses.use, hwords.uses.next⟩, hwords.word⟩ (by decide) (hon.2.2.2.2 .dpll (by decide)).1
    (congrArg JournalSt.tick (hon.2.2.2.2 .jour (by decide))) (congrArg (fun y => y.1) htimes) (congrArg (fun y => y.2.2.1) htimes)

theorem jumpSwitch_skips {n : Fin 2} (hn : c.flag (F.SYN_PLS_CFG_EN n.val) = true) : c.jumpSwitch.cur (F.SYN_PLS_STAT_SKIP n.val) =
    (c.cur (F.SYN_PLS_STAT_SKIP n.val) + c.passed n (min c.syn.ots0 c.dpll.ctr) c.jumped.otsNext) % 65536 := by
  have hlater : c.jumpNoted.rejoinBoth.realigned.cur (F.SYN_PLS_STAT_SKIP n.val) = c.jumpNoted.cur (F.SYN_PLS_STAT_SKIP n.val) :=
    ((realigned_words _).cur rfl (plsStat_not_rejoined n).1).trans ((rejoinBoth_words c.jumpNoted).cur rfl (plsStat_not_rejoined n).2)
  rw [jumpSwitch_eq ht hr, hlater]
  refine (skipBoth_counts c.jumped c.dpll.ctr c.jumped.otsNext n).trans ?_
  rw [show c.jumped.skipsOf c.dpll.ctr c.jumped.otsNext n = c.passed n (min c.syn.ots0 c.dpll.ctr) c.jumped.otsNext from if_pos hn]
  rfl

theorem jumpSwitch_acquires {n : Fin 2} (hs : c.synSt n.val = SYN_LOCKED) (hf : c.follow n.val = 1) : c.jumpSwitch.synSt n.val = SYN_ACQ := by
  have hnoted := jumpNoted_words c
  have hst : c.jumpNoted.synSt n.val = c.synSt n.val := hnoted.cur (g := F.SYN_SYN_STAT_STATE n.val) rfl (synStat_not_skipped n).2
  rw [jumpSwitch_eq ht hr]
  exact ((realigned_words _).cur (g := F.SYN_SYN_STAT_STATE n.val) rfl (synStat_not_skipped n).1).trans
    (rejoinBoth_acquires _ (hst.trans hs) ((hnoted.follow n.val).trans hf))

theorem jumpSwitch_jumps : Jumps c c.jumpSwitch := by
  have htimes := jumpSwitch_times ht hr
  have hnext := jumpSwitch_otsNext ht hr
  obtain ⟨hact, hevt⟩ := realigned_marks c.jumpNoted.rejoinBoth
  rw [← jumpSwitch_eq ht hr] at hact hevt
  exact ⟨congrArg (fun y => y.1) htimes, congrArg (fun y => y.2.2.2.1) htimes, by rw [hnext]; exact congrArg (fun y => y.2.2.2.2) htimes,
    fun n hn => by rw [hnext]; exact jumpSwitch_skips ht hr hn, hact, hevt, fun n hs hf => jumpSwitch_acquires ht hr hs hf⟩

end
end

theorem slewDone_idle {c : Channel} (h : ¬ (c.cur F.SYN_RA_CTL_ACT = 1 ∧ c.syn.raJump = none ∧ c.pdev = 0)) : c.slewDone = c := by
  unfold Channel.slewDone
  exact if_neg (by simpa using h)

/-! ### GO of RA_CTL (R165, R166) -/

/-- The channel `y` as the action of a write of `v` to RA_CTL finds it. -/
structure RaStored (c y : Channel) (v : Word) : Prop where
  only : Channel.onlyIn [.syn, .jour, .asks] c y
  syn : y.syn = c.syn
  now : y.now = c.now
  tick : y.jour.tick = c.jour.tick
  mode : y.cur F.SYN_RA_CTL_MODE = b2n (bit v 30)
  act : y.cur F.SYN_RA_CTL_ACT = c.cur F.SYN_RA_CTL_ACT
  slew : y.cur F.SYN_RA_SLEW_RA_SLEW = c.cur F.SYN_RA_SLEW_RA_SLEW

theorem raStored_of {c y : Channel} {o : Origin} {v : Word} {e : JBody}
    (h : y = c.storeWord ⟨o, false⟩ .syn SYN_RA_CTL v ∨ y = (c.storeWord ⟨o, false⟩ .syn SYN_RA_CTL v).journal e) : RaStored c y v := by
  obtain ⟨hon, -, hdpll, htick, -⟩ := cmd_c2 h
  obtain ⟨hself, hother⟩ := cmd_word raCtl_reg h
  have hslew : SYN_RA_CTL ≠ SYN_RA_SLEW := by decide
  refine ⟨hon, ?_, by unfold Channel.now; rw [hdpll], htick, ?_, ?_, congrArg (fun w => getField w 0 32) (hother .syn SYN_RA_SLEW (.inr hslew))⟩
  · obtain ⟨f, hf⟩ := Channel.storeWord_eq c ⟨o, false⟩ .syn SYN_RA_CTL v
    rcases h with rfl | rfl <;> rw [hf] <;> rfl
  · refine (congrArg (fun w => getField w 30 1) hself).trans (Eq.trans ?_ (b2n_field v 30))
    exact RegSpec.write_rw _ v _ _ (kb_apart raCtl_reg) (f := ⟨30, 1, .rw, 0x0, .any⟩) (by simp) (.inl rfl)
  · refine (congrArg (fun w => getField w 28 1) hself).trans ?_
    exact RegSpec.write_ro _ v _ _ (kb_apart raCtl_reg) (f := ⟨28, 1, .ro, 0x0, .any⟩) (by simp) (.inl rfl)

/-- What GO leaves of the write's channel, in terms of the channel before the write. -/
theorem RaStored.realigns {c y : Channel} {v : Word} (h : RaStored c y v) :
    let bad := c.cur F.SYN_RA_CTL_ACT = 1 ∨ c.cur F.SYN_RA_SLEW_RA_SLEW < 1 ∨ 1000000 < c.cur F.SYN_RA_SLEW_RA_SLEW
    Channel.onlyIn [.syn, .jour, .asks] c y.raGo ∧
    (bad → y.raGo.syn = c.syn ∧ y.raGo.cur F.SYN_RA_CTL_REJ = 1) ∧
    (¬ bad → bit v 30 = false → y.raGo.cur F.SYN_RA_CTL_ACT = 1 ∧ y.raGo.syn = { c.syn with raFrom := some (c.jour.tick + 1) }) ∧
    (¬ bad → bit v 30 = true → y.raGo.cur F.SYN_RA_CTL_ACT = 1 ∧
      y.raGo.syn = { c.syn with raJump := some (-(sar (-(c.now + 2 ^ 63)) 64) * 2 ^ 64 - 2 ^ 63) }) := by
  obtain ⟨d, rfl, hrej, hslew, hjump⟩ := raGo_facts y
  rw [h.act, h.slew, h.syn] at hrej
  rw [h.act, h.slew, h.syn, h.mode, h.tick] at hslew
  rw [h.act, h.slew, h.syn, h.mode, h.now] at hjump
  exact ⟨on_raGo rfl h.only, hrej, fun hb h30 => hslew hb (by rw [h30]; decide), fun hb h30 => hjump hb (by rw [h30]; rfl)⟩

theorem action_raCtl (c : Channel) (wr : Writer) (v : Word) : (c.action wr .syn SYN_RA_CTL v).2 = if bit v 31 then c.raGo else c := by
  unfold Channel.action
  dsimp only
  rw [if_neg (by decide), if_pos rfl]
  split <;> rfl

/-- A GO row stores its word, and realigns where bit 31 asks it. -/
theorem actsOn_realignGo {s : State} {p : HostPath} {c : ChanIx} {v : Word} (ho : s.open p) (hr : s.running c = true) {q : Channel → Prop}
    (hq : ∀ (y : Channel) (es : List Eff), RaStored s.ch[c] y v →
      q { (if bit v 31 then y.raGo else y) with effs := (if bit v 31 then y.raGo else y).effs ++ es }) : ActsOn (.realignGo p c v) s c q := by
  refine actsOn_cmd .syn SYN_RA_CTL v rfl rfl ho hr (by decide) (by decide) (by decide) (by decide) (Channel.hasPart_none _ rfl)
    (Channel.ignores_not_sched _ _ v (by decide) (by decide)) (by decide) fun y es hy => ?_
  rw [action_raCtl]
  exact hq y es (raStored_of hy)

end Sys2Proof.Machine
end

section
/-! Commit boundaries, pulses, TODO and realignment (R156, R158, R163 to R168). -/
namespace Sys2Proof
open Sys2Proof.Machine

/-- Settles O39, row by row: each row either finds nothing due, or does the one thing that its rules say. -/
theorem commitsPulsesAndRealignment : Obligations.CommitsPulsesAndRealignment := by
  constructor
  · intro s c k j hl ch fr left rest bound sec plan en p next i due slewed
    have boundary : ∀ {q : Channel → Prop}, q (ch.synBoundary k.val) → ActsOn (.synCommitBoundary c k) s c q :=
      actsOn_intro (fun ch => ch.synBoundary k.val) hl rfl rfl
    have second : ∀ {q : Channel → Prop}, q ch.pulseBoundary → ActsOn (.pulseCommitBoundary c) s c q := actsOn_intro Channel.pulseBoundary hl rfl rfl
    have edge : ∀ {q : Channel → Prop}, q (ch.pulseEdge j) → ActsOn (.pulseEdge c j) s c q := actsOn_intro (fun ch => ch.pulseEdge j) hl rfl rfl
    have sentence : ∀ {q : Channel → Prop}, q ch.todSend → ActsOn (.todSentenceSend c) s c q := actsOn_intro Channel.todSend hl rfl rfl
    have jump : ∀ {q : Channel → Prop}, q ch.jumpSwitch → ActsOn (.realignJumpSwitch c) s c q := actsOn_intro Channel.jumpSwitch hl rfl rfl
    have slew : ∀ {q : Channel → Prop}, q ch.slewDone → ActsOn (.realignSlewDone c) s c q := actsOn_intro Channel.slewDone hl rfl rfl
    have hboundary : fr (ch.synBoundary k.val) := on_synBoundary k.val rfl (Channel.onlyIn_refl _ ch)
    have hsecond : fr ch.pulseBoundary := on_pulseBoundary rfl (Channel.onlyIn_refl _ ch)
    have hedge : fr (ch.pulseEdge j) := on_pulseEdge j rfl (Channel.onlyIn_refl _ ch)
    have hsentence : fr ch.todSend := on_todSend rfl (Channel.onlyIn_refl _ ch)
    have hjump : fr ch.jumpSwitch := on_jumpSwitch rfl (Channel.onlyIn_refl _ ch)
    have hslew : fr ch.slewDone := on_slewDone rfl (Channel.onlyIn_refl _ ch)
    refine ⟨fun x hx hb hst hen => boundary ?_, fun x hx hb hst => boundary ?_, fun h => boundary (synBoundary_idle h),
      fun x hx hp ht hb => second ?_, fun h => second (pulseBoundary_idle h), fun h => edge (pulseEdge_idle h), fun h hs => edge ?_, fun h hs => edge ?_,
      fun x hx ht => sentence ⟨hsentence, todSend_leaves hx ht⟩, fun h => sentence (todSend_waits h), fun t ht hr => jump ?_,
      fun h => jump (jumpSwitch_idle h), fun h => slew ?_, fun h => slew (slewDone_idle h)⟩
    · obtain ⟨y, hy⟩ := synBoundary_takes hx hb
      rw [if_pos ⟨hst, hen⟩] at hy
      have hw := storesPart_words (ch.setSynK k.val y) k.val x
      rw [hy] at hboundary ⊢
      exact ⟨hboundary, partDone_leaves _ x k.val, hw.useWord, storesPart_stored _ k.val x,
        fun n => hw.cur (g := F.SYN_SYN_STAT_STATE n.val) rfl (stat_not_settled n)⟩
    · obtain ⟨y, hy⟩ := synBoundary_takes hx hb
      have hnot : ¬ (ch.synSt k.val = SYN_COAST ∧ en x = 1) := fun h => hst.elim (fun hne => hne h.1) (fun h0 => absurd (h0.symm.trans h.2) (by decide))
      rw [if_neg hnot] at hy
      rw [hy] at hboundary ⊢
      obtain ⟨huse, hkeep⟩ := takesPart_uses (ch.setSynK k.val y) k x (ch.synSt k.val) (ch.vcoChange k.val x.words)
      refine ⟨hboundary, partDone_leaves _ x k.val, takesPart_stored _ k.val x _ _, huse, hkeep, fun h0 => takesPart_disables _ k x _ h0 _,
        fun h1 hoff => ?_, fun h1 hlk => ?_, fun h1 hacq => ?_, fun n hn => takesPart_other _ x _ _ hn⟩
      · rw [hoff]
        exact takesPart_enables _ k x _ h1
      · obtain ⟨hrs, hmove⟩ := takesPart_replans (ch.setSynK k.val y) k x (ch.vcoChange k.val x.words) h1
        rw [hlk]
        refine ⟨hrs, fun hplan => ?_, fun hplan => ?_⟩
        · rw [hmove, if_pos ((vcoChange_iff ch k.val x.words).mpr hplan)]
        · rw [hmove, if_neg (mt (vcoChange_iff ch k.val x.words).mp hplan)]
          exact hlk
      · rw [hacq]
        exact (takesPart_acquiring _ k x _ h1).trans hacq
    · obtain ⟨hleft, htaken, hkept, hplse⟩ := pulseBoundary_leaves hx hp ht hb
      refine ⟨hsecond, hleft, htaken, hkept, fun n => ?_⟩
      have hn := hplse n
      split
      · next h => rwa [if_pos h] at hn
      · next h => rwa [if_neg h] at hn
    · rw [pulseEdge_skips h hs] at hedge ⊢
      exact ⟨hedge, skipEdge_syn ch j, skipEdge_counts⟩
    · obtain ⟨ps, fall, hemit⟩ := pulseEdge_emits h hs
      obtain ⟨hregs, hidx, hseen, heff, hne, htod⟩ := emitEdge_leaves ch j ps fall
      rw [hemit] at hedge ⊢
      exact ⟨hedge, hregs, hidx, hseen, ⟨ps, heff⟩, hne, htod⟩
    · obtain ⟨hots, hnone, hnext, hskips, hact, hdone, hacq⟩ := jumpSwitch_jumps ht hr
      exact ⟨hjump, hots, hnone, hnext, hskips, hact, hdone, hacq⟩
    · obtain ⟨d, hd, hleaves⟩ := slewDone_facts ch h
      rw [hd] at hslew ⊢
      exact ⟨hslew, hleaves⟩
  · intro s p c v ho hr ch sl bad fr
    have row := fun {q : Channel → Prop} => actsOn_realignGo (q := q) (v := v) ho hr
    refine ⟨fun h31 hbad => row fun y es hy => ?_, fun h31 hbad h30 => row fun y es hy => ?_, fun h31 hbad h30 => row fun y es hy => ?_,
      fun h31 => row fun y es hy => ?_⟩
    · obtain ⟨hon, hrej, -, -⟩ := hy.realigns
      rw [if_pos h31]
      exact ⟨onlyIn_effs rfl es hon, hrej hbad⟩
    · obtain ⟨hon, -, hslew, -⟩ := hy.realigns
      rw [if_pos h31]
      exact ⟨onlyIn_effs rfl es hon, hslew hbad h30⟩
    · obtain ⟨hon, -, -, hjump⟩ := hy.realigns
      rw [if_pos h31]
      exact ⟨onlyIn_effs rfl es hon, hjump hbad h30⟩
    · rw [h31]
      exact ⟨onlyIn_effs rfl es hy.only, hy.syn, hy.act⟩

end Sys2Proof
end

section
/-! COMMIT of SCHED, SEAL, PORT and SYN, whose shadows come into use later (R12, R156, R182, R232, R251). -/
namespace Sys2Proof.Machine

/-- COMMIT of PORT changes no value in use beside those that it copies. -/
theorem us_portCommitted {c₀ x₀ : Channel} (old : Channel) (p : PortIx) (hF : Uses c₀ x₀) : Uses c₀ (Channel.portCommitted old p x₀) := by
  refine hF.trans ?_
  unfold Channel.portCommitted
  dsimp only
  have hesmc : Uses x₀ (if (x₀.flag (F.PORT_P_ESMC_RX_EN p.val) && !old.flag (F.PORT_P_ESMC_RX_EN p.val)) = true then
      x₀.updPs p (fun x => { x with qlAt := x₀.jour.tick }) else x₀) := Uses.ite (us_updPs _ _ (Uses.refl x₀)) (Uses.refl x₀)
  exact Uses.ite (Uses.ite (us_linkRestart _ hesmc) hesmc) (Uses.ite (us_linkChange _ _ _ (us_put _ _ (us_leaveUp _ hesmc)))
    (Uses.ite (us_linkRestart _ (us_leaveUp _ hesmc)) hesmc))

section
variable {b : KB} {ctl : ℕ} {c c2 : Channel} {org : Origin} {v : Word} {e : JBody}

/-- The command that writes COMMIT in a block's control register: the block commits once its control word is stored and, it may be, journaled. -/
theorem actsOn_commit {i : Instr} {s : State} {p : HostPath} {n : ChanIx} {q : Channel → Prop} (hL : lockOff b = some ctl) (hm : mayRate i = false)
    (hx : s.clear.effect i = s.clear.writeCh p n b ctl v) (ho : s.open p) (hr : s.running n = true) (hp : s.ch[n].hasPart b ctl = true) (hv : bit v 31 = true)
    (hq : ∀ (c2 : Channel) (e : JBody) (es : List Eff), (c2 = s.ch[n].storeWord ⟨p.org, false⟩ b ctl v ∨ c2 = (s.ch[n].storeWord ⟨p.org, false⟩ b ctl v).journal e) →
      q { c2.commit b with effs := (c2.commit b).effs ++ es }) : ActsOn i s n q := by
  obtain ⟨ha, hlt, hmulti, _, hreg, hleap⟩ := lock_reg hL
  have hwrite : (findReg (kbRegs b) ctl).any (·.writable) = true := by
    obtain ⟨g, hg, hw⟩ := Option.any_eq_true _ _ |>.mp hreg
    rw [hg]
    exact (Bool.and_eq_true_iff.mp hw).1
  have hi : s.ch[n].ignores b ctl v = false := by
    refine Channel.ignores_low _ v hlt ?_
    rintro ⟨rfl, rfl⟩
    exact absurd hL (by decide)
  refine actsOn_cmd b ctl v hm hx ho hr ha (by omega) hwrite hmulti hp hi hleap fun c2 es h2 => ?_
  rw [action_commit c2 _ hL hv]
  exact hq c2 _ es h2

/-- What a commit copies and checks is what was stored; the entry in the journal changes nothing of it. -/
theorem copies_of_store (h2 : c2 = c.storeWord ⟨org, false⟩ b ctl v ∨ c2 = (c.storeWord ⟨org, false⟩ b ctl v).journal e) :
    c2.copies b ctl = c.onCommit org b ctl v ∨ c2.copies b ctl = (c.onCommit org b ctl v).journal e := by
  rcases h2 with rfl | rfl
  · exact .inl rfl
  · exact .inr rfl

theorem shadows_of_store (h2 : c2 = c.storeWord ⟨org, false⟩ b ctl v ∨ c2 = (c.storeWord ⟨org, false⟩ b ctl v).journal e) (k : ℕ) :
    smGet (kbRst b k) (c2.shadows b ctl) k = (c.onCommit org b ctl v).word b k := by
  rw [← Channel.copies_word]
  rcases h2 with rfl | rfl <;> rfl

/-- The checks see what was stored, the journal apart. -/
theorem checks_of_store {ok : Channel → Bool} (hjour : ∀ (x : Channel) (e : JBody), ok (x.journal e) = ok x)
    (h2 : c2 = c.storeWord ⟨org, false⟩ b ctl v ∨ c2 = (c.storeWord ⟨org, false⟩ b ctl v).journal e) :
    ok (c2.copies b ctl) = ok (c.onCommit org b ctl v) := by
  rcases copies_of_store h2 with h | h
  · rw [h]
  · rw [h, hjour]

/-- A refused commit sets CERR, and nothing comes into use. -/
theorem refused_of_store {cerr : KF} (hcerr : cerr.blk = b ∧ cerr.off = ctl ∧ cerr.w = 1 ∧ cerr.lsb = 30)
    (h2 : c2 = c.storeWord ⟨org, false⟩ b ctl v ∨ c2 = (c.storeWord ⟨org, false⟩ b ctl v).journal e) (es : List Eff) :
    Channel.onlyIn [b.part, .jour, .asks] c { c2.evtMask b ctl (2 ^ 30) with effs := (c2.evtMask b ctl (2 ^ 30)).effs ++ es } ∧
      (∀ a, (({ c2.evtMask b ctl (2 ^ 30) with effs := (c2.evtMask b ctl (2 ^ 30)).effs ++ es } : Channel).rf a).use = (c.rf a).use) ∧
      ({ c2.evtMask b ctl (2 ^ 30) with effs := (c2.evtMask b ctl (2 ^ 30)).effs ++ es } : Channel).cur cerr = 1 := by
  obtain ⟨hon, _, _, _, _, huse⟩ := cmd_c2 h2
  obtain ⟨hb, ho, hw, hl⟩ := hcerr
  refine ⟨onlyIn_effs (by simp) es (on_evtMask _ _ _ (by simp) (by simp [partsIn]) hon), fun a => ?_, ?_⟩
  · exact ((us_evtMask b ctl (2 ^ 30) (Uses.refl c2)).use a).trans (huse a)
  · subst hb ho
    exact w_cerr c2 cerr _ hw hl

end

/-! ### SCHED and SEAL -/

/-- A block whose shadows come into use with the next tick: its control register, its checks, what follows the copy, and its CERR. -/
structure CommitsNext (b : KB) (ctl : ℕ) (ok : Channel → Bool) (after : Channel → Channel) (cerr : KF) : Prop where
  lock : lockOff b = some ctl
  commit : ∀ x : Channel, x.commit b = x.commitNext b ctl ok after
  checks : ∀ (x : Channel) (e : JBody), ok (x.journal e) = ok x
  uses : ∀ x, Uses x (after x)
  frame : ∀ x, Channel.onlyIn [b.part] x (after x)
  cerr : cerr.blk = b ∧ cerr.off = ctl ∧ cerr.w = 1 ∧ cerr.lsb = 30

theorem commitsNext_sched : CommitsNext .sched SCHED_CTL Channel.schedCommitOk Channel.settleAll F.SCHED_CTL_CERR where
  lock := rfl
  commit _ := rfl
  checks _ _ := rfl
  uses x := us_settleAll (Uses.refl x)
  frame x := on_settleAll rfl (Channel.onlyIn_refl _ x)
  cerr := by decide

theorem commitsNext_seal : CommitsNext .sealb SEAL_CTL Channel.sealCommitOk id F.SEAL_CTL_CERR where
  lock := rfl
  commit _ := rfl
  checks _ _ := rfl
  uses x := Uses.refl x
  frame x := Channel.onlyIn_refl _ x
  cerr := by decide

/-- The values due with the next tick are the copied shadows, where every register that either set holds is due. -/
theorem endTick_use {rst : ℕ → Word} (f : RegFile) (sh : List (ℕ × Word))
    (hn : f.next = (((f.use ++ sh).map Prod.fst).dedup).map (fun k => (k, smGet (rst k) sh k))) (k : ℕ) :
    smGet (rst k) (f.endTick rst).use k = smGet (rst k) sh k := by
  unfold RegFile.endTick
  dsimp only
  rw [hn, put_fold_get]
  split
  · rfl
  · next h =>
    rw [List.mem_dedup, List.map_append, List.mem_append, not_or] at h
    rw [smGet_absent _ _ _ h.1, smGet_absent _ _ _ h.2]

section
variable {b : KB} {ctl : ℕ} {ok : Channel → Bool} {after : Channel → Channel} {cerr : KF} {c c2 : Channel} {org : Origin} {v : Word} {e : JBody}

/-- Where the checks pass, the shadows are due with the next tick. -/
theorem CommitsNext.took (h : CommitsNext b ctl ok after cerr) (h2 : c2 = c.storeWord ⟨org, false⟩ b ctl v ∨ c2 = (c.storeWord ⟨org, false⟩ b ctl v).journal e)
    (hok : ok (c.onCommit org b ctl v) = true) : Channel.onlyIn [b.part, .jour, .asks] c (c2.commit b) ∧
      (∀ a, ((c2.commit b).rf a).use = (c.rf a).use) ∧ ∀ k, (c2.commit b).dueWord b k = (c.onCommit org b ctl v).word b k := by
  obtain ⟨hon, _, _, _, _, huse⟩ := cmd_c2 h2
  let f : RegFile := { c2.rf b with next := ((((c2.rf b).use ++ c2.shadows b ctl).map Prod.fst).dedup).map (fun k => (k, smGet (kbRst b k) (c2.shadows b ctl) k)) }
  have hcommit : c2.commit b = after (c2.setRf b f) := (h.commit c2).trans (if_pos ((checks_of_store h.checks h2).trans hok))
  have huses := h.uses (c2.setRf b f)
  have hfile : ((after (c2.setRf b f)).rf b).use = f.use ∧ ((after (c2.setRf b f)).rf b).next = f.next := by
    rw [huses.use b, huses.next b, crf_setRf_self]
    exact ⟨rfl, rfl⟩
  rw [hcommit]
  refine ⟨Channel.onlyIn_trans (on_setRf b f (by simp) hon) (Channel.onlyIn_mono (by simp [partsIn]) (h.frame _)), fun a => ?_, fun k => ?_⟩
  · rw [huses.use a, ← huse a]
    by_cases hab : b = a
    · subst hab; rw [crf_setRf_self]
    · rw [crf_setRf_ne _ _ hab]
  · unfold Channel.dueWord
    rw [endTick_use _ (c2.shadows b ctl) (by rw [hfile.1, hfile.2]) k]
    exact shadows_of_store h2 k

/-- The command that writes COMMIT. -/
theorem CommitsNext.actsOn (h : CommitsNext b ctl ok after cerr) {i : Instr} {s : State} {p : HostPath} {n : ChanIx} (hm : mayRate i = false)
    (hx : s.clear.effect i = s.clear.writeCh p n b ctl v) (ho : s.open p) (hr : s.running n = true) (hp : s.ch[n].hasPart b ctl = true) (hv : bit v 31 = true) :
    (ok (s.ch[n].onCommit p.org b ctl v) = true → ActsOn i s n (fun d => Channel.onlyIn [b.part, .jour, .asks] s.ch[n] d ∧
      (∀ a, (d.rf a).use = (s.ch[n].rf a).use) ∧ ∀ k, k ≠ ctl → d.dueWord b k = (s.ch[n].onCommit p.org b ctl v).word b k)) ∧
    (ok (s.ch[n].onCommit p.org b ctl v) = false → ActsOn i s n (fun d => Channel.onlyIn [b.part, .jour, .asks] s.ch[n] d ∧
      (∀ a, (d.rf a).use = (s.ch[n].rf a).use) ∧ d.cur cerr = 1)) := by
  refine ⟨fun hok => actsOn_commit h.lock hm hx ho hr hp hv fun c2 e es h2 => ?_, fun hok => actsOn_commit h.lock hm hx ho hr hp hv fun c2 e es h2 => ?_⟩
  · obtain ⟨hon, huse, hdue⟩ := h.took h2 hok
    exact ⟨onlyIn_effs (by simp) es hon, huse, fun k _ => hdue k⟩
  · have hcommit : c2.commitNext b ctl ok after = c2.evtMask b ctl (2 ^ 30) :=
      if_neg (by rw [show ok (c2.trial b (c2.shadows b ctl)) = _ from checks_of_store h.checks h2, hok]; decide)
    rw [h.commit, hcommit]
    exact refused_of_store h.cerr h2 es

end

/-! ### PORT -/

section
variable {c c2 : Channel} {org : Origin} {v : Word} {e : JBody}

/-- Where the checks of R196 pass, the calibration constants are due with the next tick, and every other shadow is in use. -/
theorem commitPort_took (h2 : c2 = c.storeWord ⟨org, false⟩ .port PORT_CTL v ∨ c2 = (c.storeWord ⟨org, false⟩ .port PORT_CTL v).journal e)
    (hok : (c.onCommit org .port PORT_CTL v).portCommitOk = true) : Channel.onlyIn [.port, .pmu, .free, .jour, .asks] c c2.commitPort ∧
      ∀ k, (k ∈ latePort → c2.commitPort.useWord .port k = c.useWord .port k ∧ c2.commitPort.dueWord .port k = (c.onCommit org .port PORT_CTL v).word .port k) ∧
        (k ∉ latePort → c2.commitPort.useWord .port k = (c.onCommit org .port PORT_CTL v).word .port k) := by
  obtain ⟨hon, _, _, _, _, huse⟩ := cmd_c2 h2
  obtain ⟨f, hcommit, hfuse, hfnext⟩ := commitPort_ok ((checks_of_store (ok := Channel.portCommitOk) (fun _ _ => rfl) h2).trans hok)
  have huses : Uses (c2.setRf .port f) c2.commitPort := hcommit ▸ us_portCommitted c2 1 (us_portCommitted c2 0 (Uses.refl _))
  have hword : ∀ k, c2.commitPort.useWord .port k = if k ∈ latePort then c.useWord .port k else (c.onCommit org .port PORT_CTL v).word .port k := fun k => by
    unfold Channel.useWord
    rw [huses.use .port, crf_setRf_self, hfuse, fold_get (rst := kbRst .port) (fun k => smGet (kbRst .port k) (c2.rf .port).use k), huse .port, shadows_of_store h2]
  refine ⟨on_commitPort (by decide) (Channel.onlyIn_mono (by decide) hon), fun k => ⟨fun hk => ⟨by rw [hword, if_pos hk], ?_⟩, fun hk => by rw [hword, if_neg hk]⟩⟩
  unfold Channel.dueWord RegFile.endTick
  dsimp only
  rw [huses.next .port, crf_setRf_self, hfnext, put_fold_get (rst := kbRst .port), if_pos hk, shadows_of_store h2]

theorem commitPort_refused (h2 : c2 = c.storeWord ⟨org, false⟩ .port PORT_CTL v ∨ c2 = (c.storeWord ⟨org, false⟩ .port PORT_CTL v).journal e)
    (hok : (c.onCommit org .port PORT_CTL v).portCommitOk = false) : c2.commitPort = c2.evtMask .port PORT_CTL (2 ^ 30) := by
  have hsame : (c2.trial .port (c2.shadows .port PORT_CTL)).portCommitOk = false := (checks_of_store (ok := Channel.portCommitOk) (fun _ _ => rfl) h2).trans hok
  unfold Channel.commitPort
  dsimp only
  rw [hsame]
  rfl

/-! ### SYN -/

/-- A commit of SYN: that of the trial, whose word of CTL stays among the words as written (R156). -/
theorem commitSyn_eq (x : Channel) : x.commitSyn = (x.copies .syn SYN_CTL).synCommit.setRf .syn { (x.copies .syn SYN_CTL).synCommit.rf .syn with
    cur := smPut (kbRst .syn SYN_CTL) (x.rf .syn).cur SYN_CTL ((x.copies .syn SYN_CTL).synCommit.word .syn SYN_CTL), pre := (x.rf .syn).pre } := rfl

/-- What a commit of SYN leaves: its own word of CTL with the other words as written, no value in use changed. -/
theorem commitSyn_frame (h2 : c2 = c.storeWord ⟨org, false⟩ .syn SYN_CTL v ∨ c2 = (c.storeWord ⟨org, false⟩ .syn SYN_CTL v).journal e) (es : List Eff) :
    Channel.onlyIn [.syn, .jour, .asks] c { c2.commitSyn with effs := c2.commitSyn.effs ++ es } ∧ ∀ a, (c2.commitSyn.rf a).use = (c.rf a).use := by
  obtain ⟨hon, _, _, _, _, huse⟩ := cmd_c2 h2
  refine ⟨onlyIn_effs (by decide) es (on_commitSyn (by decide) hon), fun a => ?_⟩
  have htrial : Uses c2 (c2.copies .syn SYN_CTL) := us_setRf _ _ rfl rfl (Uses.refl c2)
  have hcommit : Uses c2 c2.commitSyn := by
    rw [commitSyn_eq]
    exact us_setRf _ _ rfl rfl (us_synCommit htrial)
  exact (hcommit.use a).trans (huse a)

/-- The fields of CTL, and the block's state, are what the commit of the trial makes of them. -/
theorem commitSyn_ctl (x : Channel) {f : KF} (hf : f.blk = .syn ∧ f.off = SYN_CTL) : x.commitSyn.cur f = (x.copies .syn SYN_CTL).synCommit.cur f := by
  unfold Channel.cur
  rw [hf.1, hf.2, commitSyn_eq]
  unfold Channel.word
  rw [crf_setRf_self, smGet_smPut_same]

theorem commitSyn_syn (x : Channel) : x.commitSyn.syn = (x.copies .syn SYN_CTL).synCommit.syn := rfl

/-- Neither the write nor the copy touches the block's state. -/
theorem copies_syn (h2 : c2 = c.storeWord ⟨org, false⟩ .syn SYN_CTL v ∨ c2 = (c.storeWord ⟨org, false⟩ .syn SYN_CTL v).journal e) :
    (c2.copies .syn SYN_CTL).syn = c.syn ∧ (c2.copies .syn SYN_CTL).jour.tick = c.jour.tick := by
  obtain ⟨f, hf⟩ := Channel.storeWord_eq c ⟨org, false⟩ .syn SYN_CTL v
  rcases h2 with rfl | rfl <;> rw [hf] <;> exact ⟨rfl, rfl⟩

theorem synCommit_busy {x : Channel} (h : x.syn.stage.isSome = true) : x.synCommit = x.evt F.SYN_CTL_CBUSY := if_pos h
theorem synCommit_refused {x : Channel} (h : x.syn.stage = none) (hok : x.synCommitOk = false) : x.synCommit = x.evt F.SYN_CTL_CERR := by
  unfold Channel.synCommit
  rw [h, hok]
  rfl
theorem synCommit_staged {x : Channel} (h : x.syn.stage = none) (hok : x.synCommitOk = true) :
    x.synCommit = (x.setSyn { x.syn with stage := some ⟨(x.rf .syn).cur, x.jour.tick, true, true, true⟩ }).put F.SYN_CTL_CPEND 1 := by
  unfold Channel.synCommit
  rw [h, hok]
  rfl

end

end Sys2Proof.Machine

namespace Sys2Proof
open Sys2Proof.Machine

/-- Settles O17: SCHED and SEAL by `CommitsNext`, PORT and SYN by their own commits. -/
theorem commitsThatTakeEffectLater : Obligations.CommitsThatTakeEffectLater := by
  intro s p c v ho hr hv
  have hpart : ∀ b ctl, partOf b ctl = none → s.ch[c].hasPart b ctl = true := fun b ctl h => Channel.hasPart_none _ h
  refine ⟨commitsNext_sched.actsOn rfl rfl ho hr (hpart .sched SCHED_CTL rfl) hv, fun hp => commitsNext_seal.actsOn rfl rfl ho hr hp hv, ⟨fun hok => ?_, fun hok => ?_⟩,
    fun hstage => ?_, fun hstage hok => ?_, fun hstage hok => ?_⟩
  · refine actsOn_commit (b := .port) rfl rfl rfl ho hr (hpart .port PORT_CTL rfl) hv fun c2 e es h2 => ?_
    obtain ⟨hon, hword⟩ := commitPort_took h2 hok
    exact ⟨onlyIn_effs (by decide) es hon, fun k _ => hword k⟩
  · refine actsOn_commit (b := .port) rfl rfl rfl ho hr (hpart .port PORT_CTL rfl) hv fun c2 e es h2 => ?_
    rw [show c2.commit .port = c2.evtMask .port PORT_CTL (2 ^ 30) from commitPort_refused h2 hok]
    exact refused_of_store (by decide) h2 es
  all_goals
    refine actsOn_commit (b := .syn) rfl rfl rfl ho hr (hpart .syn SYN_CTL rfl) hv fun c2 e es h2 => ?_
    obtain ⟨hon, huse⟩ := commitSyn_frame h2 es
    obtain ⟨hsyn, htick⟩ := copies_syn h2
    have hctl : ∀ f : KF, f.blk = .syn ∧ f.off = SYN_CTL → c2.commitSyn.cur f = (c2.copies .syn SYN_CTL).synCommit.cur f := fun f hf => commitSyn_ctl c2 hf
  · have hbusy := synCommit_busy (x := c2.copies .syn SYN_CTL) (by rw [hsyn]; exact hstage)
    refine ⟨hon, huse, ?_, ?_⟩
    · exact (commitSyn_syn c2).trans (by rw [hbusy]; exact hsyn)
    · exact (hctl F.SYN_CTL_CBUSY (by decide)).trans (by rw [hbusy]; exact cur_evt _ _ rfl (by decide))
  · have hcerr := synCommit_refused (x := c2.copies .syn SYN_CTL) (by rw [hsyn]; exact hstage) ((checks_of_store (ok := Channel.synCommitOk) (fun _ _ => rfl) h2).trans hok)
    refine ⟨hon, huse, ?_, ?_⟩
    · exact (commitSyn_syn c2).trans (by rw [hcerr]; exact hsyn)
    · exact (hctl F.SYN_CTL_CERR (by decide)).trans (by rw [hcerr]; exact cur_evt _ _ rfl (by decide))
  · have hstaged := synCommit_staged (x := c2.copies .syn SYN_CTL) (by rw [hsyn]; exact hstage) ((checks_of_store (ok := Channel.synCommitOk) (fun _ _ => rfl) h2).trans hok)
    refine ⟨hon, huse, ?_, ⟨((c2.copies .syn SYN_CTL).rf .syn).cur, s.ch[c].jour.tick, true, true, true⟩, ?_, rfl, fun k _ => ?_⟩
    · exact (hctl F.SYN_CTL_CPEND (by decide)).trans (by rw [hstaged]; exact cur_put_self _ _ _ (by decide))
    · exact (congrArg SynBlk.stage (commitSyn_syn c2)).trans (by rw [hstaged, ← htick]; rfl)
    · exact (Channel.copies_word c2 .syn SYN_CTL k).trans (shadows_of_store h2 k)

end Sys2Proof
end

section
/-! What the operations on a port leave of the other parts of a channel, of its ports and of its registers (R173 to R176). -/
namespace Sys2Proof.Machine

/-- A block outside the parts that changed has the registers that it had. -/
theorem rf_of_onlyIn {L : List ChPart} {c d : Channel} (h : Channel.onlyIn L c d) {b : KB} (hb : b.part ∉ L) : d.rf b = c.rf b := by
  have hpart := h.2.2.2.2 b.part hb
  cases b <;> exact hpart.2

theorem cur_of_onlyIn {L : List ChPart} {c d : Channel} (h : Channel.onlyIn L c d) {g : KF} (hb : g.blk.part ∉ L) : d.cur g = c.cur g := by
  unfold Channel.cur Channel.word
  rw [rf_of_onlyIn h hb]

theorem ports_of_onlyIn {L : List ChPart} {c d : Channel} (h : Channel.onlyIn L c d) (hL : ChPart.port ∉ L) : d.ports = c.ports := (h.2.2.2.2 .port hL).1

theorem tick_of_onlyIn {L : List ChPart} {c d : Channel} (h : Channel.onlyIn L c d) (hL : ChPart.jour ∉ L) : d.jour.tick = c.jour.tick :=
  congrArg JournalSt.tick (h.2.2.2.2 .jour hL)

/-- A setting in use is read from the values in use alone. -/
theorem Uses.fld {c d : Channel} (h : Uses c d) {f : KF} (hs : f.sh = true) : d.fld f = c.fld f := by
  unfold Channel.fld Channel.useWord
  rw [if_pos hs, if_pos hs, h.use]

theorem Uses.flag {c d : Channel} (h : Uses c d) {f : KF} (hs : f.sh = true) : d.flag f = c.flag f := by
  unfold Channel.flag
  rw [h.fld hs]

theorem Uses.useWord {c d : Channel} (h : Uses c d) (b : KB) (k : ℕ) : d.useWord b k = c.useWord b k := by
  unfold Channel.useWord
  rw [h.use]

/-! ### The two ports -/

section
variable (c : Channel) (p : PortIx) (f g : PortSt → PortSt)

theorem ps_updPs : (c.updPs p f).ps p = f (c.ps p) := vset_self _ _ _
theorem ps_updPs_ne {q : PortIx} (h : q ≠ p) : (c.updPs p f).ps q = c.ps q := vset_ne _ _ h
theorem cur_updPs (k : KF) : (c.updPs p f).cur k = c.cur k := rfl
theorem ps_evt (k : KF) (q : PortIx) : (c.evt k).ps q = c.ps q := rfl
theorem ps_put (k : KF) (v : ℕ) (q : PortIx) : (c.put k v).ps q = c.ps q := rfl

end

theorem other_ne (p : PortIx) : 1 - p ≠ p := by revert p; decide

theorem portStat_ne_evt (q : ℕ) : PORT_P_STAT q ≠ PORT_P_EVT q := by unfold PORT_P_STAT PORT_P_EVT; omega
theorem portCnt_ne (q : ℕ) : PORT_P_CNT1 q ≠ PORT_P_STAT q ∧ PORT_P_CNT1 q ≠ PORT_P_EVT q := by
  unfold PORT_P_CNT1 PORT_P_STAT PORT_P_EVT; omega

end Sys2Proof.Machine
end

section
/-! The port link state machine (R173 to R176, R370). -/
namespace Sys2Proof.Machine

/-! ### Where a change of state leads -/

/-- The link of a port has gone to `st` with the timer `t`. -/
def LinkGoes (p : PortIx) (st : ℕ) (t : Option ℕ) (d : Channel) : Prop := d.link p = st ∧ (d.ps p).timer = t ∧ d.cur (F.PORT_P_EVT_LINK p.val) = 1

/-- The link trains, or aligns where training is off. -/
def LinkBegins (c : Channel) (p : PortIx) (d : Channel) : Prop :=
  if c.flag (F.PORT_P_CFG_LT_EN p.val) then LinkGoes p LK_TRAIN (some (c.jour.tick + 100000000)) d else LinkGoes p LK_ALIGN none d

/-- The mode and FEC in force. -/
def LinkRate (p : PortIx) (m f : ℕ) (d : Channel) : Prop := d.cur (F.PORT_P_STAT_RMODE p.val) = m ∧ d.cur (F.PORT_P_STAT_RFEC p.val) = f

/-- The restart of R176. -/
def LinkRestarts (c : Channel) (p : PortIx) (d : Channel) : Prop :=
  if c.flag (F.PORT_P_CFG_AN_EN p.val) then LinkGoes p LK_AN none d
  else LinkBegins c p d ∧ LinkRate p (c.fld (F.PORT_P_CFG_MODE p.val)) (c.fld (F.PORT_P_CFG_FEC p.val)) d

/-- A move of the link touches its port alone, and no setting. -/
def LinkOnly (c : Channel) (p : PortIx) (d : Channel) : Prop :=
  Channel.onlyIn [.port, .asks] c d ∧ d.ps (1 - p) = c.ps (1 - p) ∧ ∀ k, d.useWord .port k = c.useWord .port k

/-- The fields of a port's registers that a move of its link leaves: those of STAT below the rate, and those of any register but STAT and EVT. -/
def KF.offLink (p : PortIx) (g : KF) : Prop :=
  g.off = PORT_P_STAT p.val ∧ g.lsb + g.w ≤ 24 ∨ g.off ≠ PORT_P_STAT p.val ∧ g.off ≠ PORT_P_EVT p.val

section
variable (c : Channel) (p : PortIx)

theorem cur_linkChange (st : ℕ) (t : Option ℕ) (g : KF) :
    (c.linkChange p st t).cur g = ((c.put (F.PORT_P_STAT_LINK p.val) st).evt (F.PORT_P_EVT_LINK p.val)).cur g := cur_updPs _ p _ g

theorem ps_linkChange (st : ℕ) (t : Option ℕ) : (c.linkChange p st t).ps p = { c.ps p with timer := t } := by
  unfold Channel.linkChange
  rw [ps_updPs, ps_evt, ps_put]

theorem linkChange_goes {st : ℕ} (t : Option ℕ) (h : st < 8) : LinkGoes p st t (c.linkChange p st t) := by
  refine ⟨?_, ?_, ?_⟩
  · unfold Channel.link
    rw [cur_linkChange, Channel.cur_evt_ne _ _ _ (.inr (portStat_ne_evt p.val).symm)]
    exact Channel.cur_put_lt _ _ _ (by decide : 29 + 3 ≤ 32) h
  · rw [ps_linkChange]
  · rw [cur_linkChange]
    exact cur_evt _ _ rfl (by decide : 0 < 32)

theorem linkChange_stat (st : ℕ) (t : Option ℕ) {g : KF} (ho : g.off = PORT_P_STAT p.val) (hw : g.lsb + g.w ≤ 29) : (c.linkChange p st t).cur g = c.cur g := by
  have hevt : (F.PORT_P_EVT_LINK p.val).off ≠ g.off := by rw [ho]; exact (portStat_ne_evt p.val).symm
  rw [cur_linkChange, Channel.cur_evt_ne _ _ _ (.inr hevt)]
  exact cur_put_ne _ _ _ _ (by decide : 29 + 3 ≤ 32) (.inr (.inr (.inr hw)))

theorem linkChange_offLink (st : ℕ) (t : Option ℕ) {g : KF} (hg : g.offLink p) : (c.linkChange p st t).cur g = c.cur g := by
  rcases hg with ⟨ho, hw⟩ | ⟨hs, he⟩
  · exact linkChange_stat c p st t ho (by omega)
  · rw [cur_linkChange, Channel.cur_evt_ne _ _ _ (.inr he.symm)]
    exact cur_put_ne _ _ _ _ (by decide : 29 + 3 ≤ 32) (.inr (.inl hs.symm))

theorem linkChange_other (st : ℕ) (t : Option ℕ) : (c.linkChange p st t).ps (1 - p) = c.ps (1 - p) := by
  unfold Channel.linkChange
  rw [ps_updPs_ne _ p _ (other_ne p), ps_evt, ps_put]

theorem linkChange_flight (st : ℕ) (t : Option ℕ) : ((c.linkChange p st t).ps p).flight = (c.ps p).flight := by rw [ps_linkChange]

/-! ### A rate taken, and the link begins -/

/-- The mode and FEC put in force (R175). -/
def Channel.withRate (m f : ℕ) : Channel := (c.put (F.PORT_P_STAT_RMODE p.val) m).put (F.PORT_P_STAT_RFEC p.val) f

/-- The link begins to train, or to align, at a mode and FEC. -/
def Channel.linkBegin (m f : ℕ) : Channel :=
  if c.flag (F.PORT_P_CFG_LT_EN p.val) then (c.withRate p m f).linkChange p LK_TRAIN (some (c.jour.tick + 100000000))
  else (c.withRate p m f).linkChange p LK_ALIGN none

theorem ps_withRate (m f : ℕ) (q : PortIx) : (c.withRate p m f).ps q = c.ps q := by
  unfold Channel.withRate
  rw [ps_put, ps_put]

theorem withRate_rate {m f : ℕ} (hm : m < 8) (hf : f < 4) : LinkRate p m f (c.withRate p m f) :=
  ⟨(cur_put_ne _ _ _ _ (by decide : 24 + 2 ≤ 32) (.inr (.inr (.inl (by decide : 24 + 2 ≤ 26))))).trans (Channel.cur_put_lt _ _ _ (by decide : 26 + 3 ≤ 32) hm),
    Channel.cur_put_lt _ _ _ (by decide : 24 + 2 ≤ 32) hf⟩

theorem withRate_offLink (m f : ℕ) {g : KF} (hg : g.offLink p) : (c.withRate p m f).cur g = c.cur g := by
  have hne : ∀ l, 24 ≤ l → PORT_P_STAT p.val ≠ g.off ∨ l + 3 ≤ g.lsb ∨ g.lsb + g.w ≤ l := fun l hl => by
    rcases hg with ⟨-, hw⟩ | ⟨hs, -⟩
    · exact .inr (.inr (by omega))
    · exact .inl hs.symm
  refine (cur_put_ne _ _ _ _ (by decide : 24 + 2 ≤ 32) (.inr ?_)).trans (cur_put_ne _ _ _ _ (by decide : 26 + 3 ≤ 32) (.inr (hne 26 (by decide))))
  exact (hne 24 (by decide)).imp id (Or.imp (fun h => Nat.le_trans (by decide : 24 + 2 ≤ 24 + 3) h) id)

theorem LinkRate.change {c : Channel} {p : PortIx} {m f : ℕ} (h : LinkRate p m f c) (st : ℕ) (t : Option ℕ) : LinkRate p m f (c.linkChange p st t) :=
  ⟨(linkChange_stat c p st t rfl (by decide : 26 + 3 ≤ 29)).trans h.1, (linkChange_stat c p st t rfl (by decide : 24 + 2 ≤ 29)).trans h.2⟩

theorem linkBegin_begins (m f : ℕ) : LinkBegins c p (c.linkBegin p m f) := by
  unfold LinkBegins Channel.linkBegin
  split
  · exact linkChange_goes _ p _ (by decide)
  · exact linkChange_goes _ p _ (by decide)

theorem linkBegin_rate {m f : ℕ} (hm : m < 8) (hf : f < 4) : LinkRate p m f (c.linkBegin p m f) := by
  unfold Channel.linkBegin
  split <;> exact (withRate_rate c p hm hf).change _ _

theorem linkBegin_offLink (m f : ℕ) {g : KF} (hg : g.offLink p) : (c.linkBegin p m f).cur g = c.cur g := by
  unfold Channel.linkBegin
  split <;> exact (linkChange_offLink _ p _ _ hg).trans (withRate_offLink c p m f hg)

theorem linkBegin_other (m f : ℕ) : (c.linkBegin p m f).ps (1 - p) = c.ps (1 - p) := by
  unfold Channel.linkBegin
  split <;> rw [linkChange_other, ps_withRate]

theorem linkBegin_flight (m f : ℕ) : ((c.linkBegin p m f).ps p).flight = (c.ps p).flight := by
  unfold Channel.linkBegin
  split <;> rw [linkChange_flight, ps_withRate]

/-! ### Restart -/

theorem linkRestart_eq : c.linkRestart p = if c.flag (F.PORT_P_CFG_AN_EN p.val) then c.linkChange p LK_AN none
    else c.linkBegin p (c.fld (F.PORT_P_CFG_MODE p.val)) (c.fld (F.PORT_P_CFG_FEC p.val)) := rfl

theorem fld_lt (f : KF) : c.fld f < 2 ^ f.w := by
  unfold Channel.fld
  split <;> exact getField_lt _ _ _

theorem linkRestart_restarts : LinkRestarts c p (c.linkRestart p) := by
  rw [linkRestart_eq]
  unfold LinkRestarts
  split
  · exact linkChange_goes c p none (by decide)
  · exact ⟨linkBegin_begins c p _ _, linkBegin_rate c p (fld_lt c (F.PORT_P_CFG_MODE p.val)) (fld_lt c (F.PORT_P_CFG_FEC p.val))⟩

theorem linkRestart_offLink {g : KF} (hg : g.offLink p) : (c.linkRestart p).cur g = c.cur g := by
  rw [linkRestart_eq]
  split
  · exact linkChange_offLink c p _ _ hg
  · exact linkBegin_offLink c p _ _ hg

theorem linkRestart_other : (c.linkRestart p).ps (1 - p) = c.ps (1 - p) := by
  rw [linkRestart_eq]
  split
  · exact linkChange_other c p _ _
  · exact linkBegin_other c p _ _

theorem linkRestart_flight : ((c.linkRestart p).ps p).flight = (c.ps p).flight := by
  rw [linkRestart_eq]
  split
  · exact linkChange_flight c p _ _
  · exact linkBegin_flight c p _ _

theorem linkRestart_only : LinkOnly c p (c.linkRestart p) :=
  ⟨on_linkRestart p rfl (Channel.onlyIn_refl _ c), linkRestart_other c p, (us_linkRestart p (Uses.refl c)).useWord .port⟩

end

section
variable {c d : Channel} {p : PortIx}

/-- A further event of the port leaves where the link went. -/
theorem LinkGoes.evt {st : ℕ} {t : Option ℕ} (h : LinkGoes p st t d) {f : KF} (ho : f.off = PORT_P_EVT p.val) (hl : 0 < f.lsb ∧ f.lsb < 32) : LinkGoes p st t (d.evt f) := by
  have hne : f.off ≠ (F.PORT_P_STAT_LINK p.val).off := by rw [ho]; exact (portStat_ne_evt p.val).symm
  exact ⟨(Channel.cur_evt_ne d f _ (.inr hne)).trans h.1, h.2.1, (cur_evt_bit d f (F.PORT_P_EVT_LINK p.val) hl.2 (.inr hl.1)).trans h.2.2⟩

theorem LinkRate.evt {m k : ℕ} (h : LinkRate p m k d) {f : KF} (ho : f.off = PORT_P_EVT p.val) : LinkRate p m k (d.evt f) := by
  have hne : f.off ≠ PORT_P_STAT p.val := by rw [ho]; exact (portStat_ne_evt p.val).symm
  exact ⟨(Channel.cur_evt_ne d f _ (.inr hne)).trans h.1, (Channel.cur_evt_ne d f _ (.inr hne)).trans h.2⟩

theorem LinkBegins.evt (h : LinkBegins c p d) {f : KF} (ho : f.off = PORT_P_EVT p.val) (hl : 0 < f.lsb ∧ f.lsb < 32) : LinkBegins c p (d.evt f) := by
  unfold LinkBegins at h ⊢
  by_cases ht : c.flag (F.PORT_P_CFG_LT_EN p.val) = true
  · rw [if_pos ht] at h ⊢
    exact h.evt ho hl
  · rw [if_neg ht] at h ⊢
    exact h.evt ho hl

theorem LinkRestarts.evt (h : LinkRestarts c p d) {f : KF} (ho : f.off = PORT_P_EVT p.val) (hl : 0 < f.lsb ∧ f.lsb < 32) : LinkRestarts c p (d.evt f) := by
  unfold LinkRestarts at h ⊢
  by_cases ha : c.flag (F.PORT_P_CFG_AN_EN p.val) = true
  · rw [if_pos ha] at h ⊢
    exact h.evt ho hl
  · rw [if_neg ha] at h ⊢
    exact ⟨h.1.evt ho hl, h.2.evt ho⟩

/-- A restart looks at the settings in use and at the tick alone. -/
theorem LinkRestarts.of_uses {x : Channel} (h : LinkRestarts x p d) (hu : Uses c x) (ht : x.jour.tick = c.jour.tick) : LinkRestarts c p d := by
  unfold LinkRestarts LinkBegins at h ⊢
  rwa [hu.flag rfl, hu.flag rfl, hu.fld rfl, hu.fld rfl, ht] at h

/-! ### Negotiation -/

theorem commonMode_some {peer m : ℕ} (hm : m < 7) (h : (maskOpen (c.fld (F.PORT_P_ADV_ABIL p.val)) m && maskOpen peer m) = true)
    (hlow : ∀ k, k < m → (maskOpen (c.fld (F.PORT_P_ADV_ABIL p.val)) k && maskOpen peer k) = false) : c.commonMode p peer = some m :=
  List.find?_range_eq_some.mpr ⟨h, List.mem_range.mpr hm, fun k hk => by rw [hlow k hk]; rfl⟩

theorem commonMode_none {peer : ℕ} (h : ∀ k, k < 7 → (maskOpen (c.fld (F.PORT_P_ADV_ABIL p.val)) k && maskOpen peer k) = false) : c.commonMode p peer = none :=
  List.find?_range_eq_none.mpr fun k hk => by rw [h k hk]; rfl

theorem fecResolved_lt (m own : ℕ) (rs br : Bool) : fecResolved m own rs br < 4 := by
  unfold fecResolved
  repeat' split
  all_goals decide

theorem anComplete_some {peer m : ℕ} {rs br : Bool} (hl : c.link p = LK_AN) (h : c.commonMode p peer = some m) :
    c.anComplete p peer rs br = c.linkBegin p m (fecResolved m (c.fld (F.PORT_P_CFG_FEC p.val)) rs br) := by
  unfold Channel.anComplete
  rw [if_neg (not_not.mpr hl), h]
  rfl

theorem anComplete_none {peer : ℕ} {rs br : Bool} (hl : c.link p = LK_AN) (h : c.commonMode p peer = none) :
    c.anComplete p peer rs br = c.evt (F.PORT_P_EVT_AN_NOCOMMON p.val) := by
  unfold Channel.anComplete
  rw [if_neg (not_not.mpr hl), h]

theorem linkBegin_only (m f : ℕ) : LinkOnly c p (c.linkBegin p m f) := by
  have huses : Uses c (c.withRate p m f) := us_put _ _ (us_put _ _ (Uses.refl c))
  have hon : Channel.onlyIn [.port, .asks] c (c.withRate p m f) := on_put _ _ rfl (on_put _ _ rfl (Channel.onlyIn_refl _ c))
  refine ⟨?_, linkBegin_other c p m f, Uses.useWord ?_ .port⟩
  · exact on_ite (on_linkChange p _ _ rfl hon) (on_linkChange p _ _ rfl hon)
  · exact Uses.ite (us_linkChange p _ _ huses) (us_linkChange p _ _ huses)

theorem linkChange_only (st : ℕ) (t : Option ℕ) : LinkOnly c p (c.linkChange p st t) :=
  ⟨on_linkChange p _ _ rfl (Channel.onlyIn_refl _ c), linkChange_other c p st t, (us_linkChange p st t (Uses.refl c)).useWord .port⟩

theorem LinkOnly.evt (h : LinkOnly c p d) {f : KF} (hb : f.blk = .port) : LinkOnly c p (d.evt f) :=
  ⟨on_evt f (by rw [hb]; decide) rfl h.1, h.2.1, fun k => ((us_evt f (Uses.refl d)).useWord .port k).trans (h.2.2 k)⟩

/-! ### Alignment -/

theorem alignLock_up {vI vE : ℤ} (h : c.link p = LK_ALIGN) : LinkOnly c p (c.alignLock p vI vE) ∧ LinkGoes p LK_UP none (c.alignLock p vI vE) ∧
    ((c.alignLock p vI vE).ps p).vI = vI ∧ ((c.alignLock p vI vE).ps p).vE = vE ∧ (c.alignLock p vI vE).cur (F.PORT_P_STAT_LAT_VALID p.val) = 1 ∧
    (c.alignLock p vI vE).cur (F.PORT_P_EVT_LAT p.val) = 1 := by
  obtain ⟨hlink, htimer, hevt⟩ := linkChange_goes c p (st := LK_UP) none (by decide)
  let x : Channel := (c.linkChange p LK_UP none).updPs p (fun x => { x with vI := vI, vE := vE })
  have hps : x.ps p = { (c.linkChange p LK_UP none).ps p with vI := vI, vE := vE } := ps_updPs _ p _
  have hcur : ∀ g, x.cur g = (c.linkChange p LK_UP none).cur g := cur_updPs _ p _
  have hgoes : LinkGoes p LK_UP none (x.put (F.PORT_P_STAT_LAT_VALID p.val) 1) := by
    refine ⟨?_, ?_, ?_⟩
    · exact (cur_put_ne x _ _ _ (by decide : 23 + 1 ≤ 32) (.inr (.inr (.inl (by decide : 23 + 1 ≤ 29))))).trans ((hcur _).trans hlink)
    · rw [ps_put, hps]; exact htimer
    · exact (cur_put_ne x _ _ _ (by decide : 23 + 1 ≤ 32) (.inr (.inl (portStat_ne_evt p.val)))).trans ((hcur _).trans hevt)
  have heq : c.alignLock p vI vE = (x.put (F.PORT_P_STAT_LAT_VALID p.val) 1).evt (F.PORT_P_EVT_LAT p.val) := if_neg (not_not.mpr h)
  refine ⟨⟨on_alignLock p vI vE rfl (Channel.onlyIn_refl _ c), ?_, (us_alignLock p vI vE (Uses.refl c)).useWord .port⟩, ?_⟩
  · rw [heq, ps_evt, ps_put]
    exact (ps_updPs_ne _ p _ (other_ne p)).trans (linkChange_other c p _ _)
  · rw [heq]
    refine ⟨hgoes.evt rfl (by decide : 0 < 1 ∧ 1 < 32), ?_, ?_, ?_, cur_evt _ _ rfl (by decide : 1 < 32)⟩
    · rw [ps_evt, ps_put, hps]
    · rw [ps_evt, ps_put, hps]
    · exact (Channel.cur_evt_ne _ _ _ (.inr (portStat_ne_evt p.val).symm)).trans (Channel.cur_put_lt x _ _ (by decide : 23 + 1 ≤ 32) (by decide : 1 < 2 ^ 1))

/-! ### Loss of the link -/

/-- One frame in flight dropped: it counts where it has not passed the plane (R185). -/
theorem dropFlight_cur (c : Channel) (f : InFlight) {g : KF} (hb : g.blk = .port) : (Channel.dropFlight p c f).cur g =
    (if c.jour.tick < f.pass then c.bump (F.PORT_P_CNT1_LINK_DROP p.val) else c).cur g := by
  unfold Channel.dropFlight
  by_cases hpass : f.pass ≤ c.jour.tick
  · rw [if_pos hpass, if_neg (Nat.not_lt.mpr hpass)]
  · rw [if_neg hpass, if_pos (Nat.not_le.mp hpass)]
    have hdiscard : (Channel.discardFlight p (c.bump (F.PORT_P_CNT1_LINK_DROP p.val)) f).cur g = (c.bump (F.PORT_P_CNT1_LINK_DROP p.val)).cur g :=
      cur_of_onlyIn (on_discardFlight p f (rfl : partsIn [.pmu, .free, .asks] [.pmu, .free, .asks] = true) (Channel.onlyIn_refl _ _)) (by rw [hb]; decide)
    dsimp only
    split
    · exact hdiscard
    · exact hdiscard

theorem dropFlight_tick (c : Channel) (f : InFlight) : (Channel.dropFlight p c f).jour.tick = c.jour.tick :=
  tick_of_onlyIn (on_dropFlight p f (rfl : partsIn [.port, .pmu, .free, .asks] [.port, .pmu, .free, .asks] = true) (Channel.onlyIn_refl _ c)) (by decide)

theorem countIf_cons {α : Type} (q : α → Bool) (a : α) (l : List α) : countIf q (a :: l) = b2n (q a) + countIf q l := by
  unfold countIf
  cases h : q a
  · rw [List.filter_cons_of_neg (by rw [h]; decide)]; exact (Nat.zero_add _).symm
  · rw [List.filter_cons_of_pos h]; exact Nat.add_comm _ 1

/-- The frames dropped at a loss are those that have not passed the plane. -/
theorem dropFlight_fold (l : List InFlight) (c : Channel) : (l.foldl (Channel.dropFlight p) c).cur (F.PORT_P_CNT1_LINK_DROP p.val) =
      (c.cur (F.PORT_P_CNT1_LINK_DROP p.val) + countIf (fun f => decide (c.jour.tick < f.pass)) l) % 65536 ∧
    ∀ g : KF, g.blk = .port → g.off ≠ PORT_P_CNT1 p.val → (l.foldl (Channel.dropFlight p) c).cur g = c.cur g := by
  induction l generalizing c with
  | nil => exact ⟨(Nat.mod_eq_of_lt (getField_lt _ _ _)).symm, fun _ _ _ => rfl⟩
  | cons f l ih =>
    obtain ⟨hcount, hkeep⟩ := ih (Channel.dropFlight p c f)
    refine ⟨?_, fun g hb ho => (hkeep g hb ho).trans ?_⟩
    · rw [List.foldl_cons, hcount, dropFlight_tick, dropFlight_cur c f rfl, countIf_cons]
      by_cases hpass : c.jour.tick < f.pass
      · rw [if_pos hpass, decide_eq_true hpass, show (c.bump (F.PORT_P_CNT1_LINK_DROP p.val)).cur (F.PORT_P_CNT1_LINK_DROP p.val) =
          (c.cur (F.PORT_P_CNT1_LINK_DROP p.val) + 1) % 2 ^ 16 from cur_put_self c _ _ (by decide : 0 + 16 ≤ 32)]
        rw [show b2n true = 1 from rfl]
        omega
      · rw [if_neg hpass, decide_eq_false hpass]
        rw [show b2n false = 0 from rfl, Nat.zero_add]
    · rw [dropFlight_cur c f hb]
      split
      · exact cur_put_ne c _ g _ (by decide : 0 + 16 ≤ 32) (.inr (.inl ho.symm))
      · rfl

theorem cur_dropFlights (c : Channel) (p : PortIx) (g : KF) : (c.dropFlights p).cur g = ((c.ps p).flight.foldl (Channel.dropFlight p) c).cur g := cur_updPs _ p _ g

/-- The registers at the loss of a link: its latencies are no longer valid, and a flap is counted (R176). -/
def Channel.flapped (c : Channel) (p : PortIx) : Channel := (c.put (F.PORT_P_STAT_LAT_VALID p.val) 0).bump (F.PORT_P_STAT_FLAPS p.val)

theorem ps_flapped (c : Channel) (p q : PortIx) : (c.flapped p).ps q = c.ps q := by
  unfold Channel.flapped Channel.bump
  rw [ps_put, ps_put]

theorem tick_flapped (c : Channel) (p : PortIx) : (c.flapped p).jour.tick = c.jour.tick := by
  unfold Channel.flapped
  rw [Channel.bump_jour, Channel.put_jour]

theorem flapped_cur (c : Channel) (p : PortIx) : (c.flapped p).cur (F.PORT_P_STAT_LAT_VALID p.val) = 0 ∧
    (c.flapped p).cur (F.PORT_P_STAT_FLAPS p.val) = (c.cur (F.PORT_P_STAT_FLAPS p.val) + 1) % 65536 ∧
    ∀ g : KF, g.off ≠ PORT_P_STAT p.val → (c.flapped p).cur g = c.cur g := by
  unfold Channel.flapped Channel.bump
  refine ⟨?_, ?_, fun g hg => ?_⟩
  · rw [cur_put_ne _ _ _ _ (by decide : 0 + 16 ≤ 32) (.inr (.inr (.inl (by decide : 0 + 16 ≤ 23))))]
    exact Channel.cur_put_lt _ _ _ (by decide : 23 + 1 ≤ 32) (by decide : 0 < 2 ^ 1)
  · rw [cur_put_self _ _ _ (by decide : 0 + 16 ≤ 32), cur_put_ne c _ _ _ (by decide : 23 + 1 ≤ 32) (.inr (.inr (.inr (by decide : 0 + 16 ≤ 23))))]
    rfl
  · rw [cur_put_ne _ _ _ _ (by decide : 0 + 16 ≤ 32) (.inr (.inl hg.symm)), cur_put_ne c _ _ _ (by decide : 23 + 1 ≤ 32) (.inr (.inl hg.symm))]

theorem leaveUp_eq (h : c.link p = LK_UP) : c.leaveUp p = ((c.flapped p).dropFlights p).updPs p (fun x => { x with lost := true }) := if_neg (not_not.mpr h)

theorem cur_leaveUp (h : c.link p = LK_UP) (g : KF) :
    (c.leaveUp p).cur g = (((c.flapped p).ps p).flight.foldl (Channel.dropFlight p) (c.flapped p)).cur g := by
  rw [leaveUp_eq h, cur_updPs, cur_dropFlights]

/-- Leaving UP: latencies invalid, a flap, and the frames in flight dropped (R176, R185). -/
theorem leaveUp_counts (h : c.link p = LK_UP) : (c.leaveUp p).cur (F.PORT_P_STAT_LAT_VALID p.val) = 0 ∧
    (c.leaveUp p).cur (F.PORT_P_STAT_FLAPS p.val) = (c.cur (F.PORT_P_STAT_FLAPS p.val) + 1) % 65536 ∧ ((c.leaveUp p).ps p).flight = [] ∧
    (c.leaveUp p).cur (F.PORT_P_CNT1_LINK_DROP p.val) =
      (c.cur (F.PORT_P_CNT1_LINK_DROP p.val) + countIf (fun f => decide (c.jour.tick < f.pass)) (c.ps p).flight) % 65536 := by
  obtain ⟨hvalid, hflaps, hrest⟩ := flapped_cur c p
  obtain ⟨hcount, hkeep⟩ := dropFlight_fold (p := p) ((c.flapped p).ps p).flight (c.flapped p)
  have hstat : PORT_P_STAT p.val ≠ PORT_P_CNT1 p.val := (portCnt_ne p.val).1.symm
  rw [cur_leaveUp h, cur_leaveUp h, cur_leaveUp h]
  refine ⟨(hkeep _ rfl hstat).trans hvalid, (hkeep _ rfl hstat).trans hflaps, ?_, ?_⟩
  · rw [leaveUp_eq h]
    unfold Channel.dropFlights
    rw [ps_updPs, ps_updPs]
  · rw [hcount, hrest _ (portCnt_ne p.val).1, ps_flapped, tick_flapped]

theorem linkLoss_lost (h : c.link p = LK_UP) : Channel.onlyIn [.port, .pmu, .free, .asks] c (c.linkLoss p) ∧ LinkRestarts c p (c.linkLoss p) ∧
    (c.linkLoss p).cur (F.PORT_P_STAT_LAT_VALID p.val) = 0 ∧ (c.linkLoss p).cur (F.PORT_P_STAT_FLAPS p.val) = (c.cur (F.PORT_P_STAT_FLAPS p.val) + 1) % 65536 ∧
    ((c.linkLoss p).ps p).flight = [] ∧ (c.linkLoss p).cur (F.PORT_P_CNT1_LINK_DROP p.val) =
      (c.cur (F.PORT_P_CNT1_LINK_DROP p.val) + countIf (fun f => decide (c.jour.tick < f.pass)) (c.ps p).flight) % 65536 := by
  obtain ⟨hvalid, hflaps, hflight, hdrops⟩ := leaveUp_counts h
  have heq : c.linkLoss p = (c.leaveUp p).linkRestart p := if_pos h
  have htick : (c.leaveUp p).jour.tick = c.jour.tick :=
    tick_of_onlyIn (on_leaveUp p (rfl : partsIn [.port, .pmu, .free, .asks] [.port, .pmu, .free, .asks] = true) (Channel.onlyIn_refl _ c)) (by decide)
  refine ⟨on_linkLoss p rfl (Channel.onlyIn_refl _ c), ?_⟩
  rw [heq]
  refine ⟨(linkRestart_restarts _ p).of_uses (us_leaveUp p (Uses.refl c)) htick, ?_, ?_, (linkRestart_flight _ p).trans hflight, ?_⟩
  · exact (linkRestart_offLink _ p (.inl ⟨rfl, (by decide : 23 + 1 ≤ 24)⟩)).trans hvalid
  · exact (linkRestart_offLink _ p (.inl ⟨rfl, (by decide : 0 + 16 ≤ 24)⟩)).trans hflaps
  · exact (linkRestart_offLink _ p (.inr (portCnt_ne p.val))).trans hdrops

end

end Sys2Proof.Machine

namespace Sys2Proof
open Sys2Proof.Machine

/-- Settles O40, state by state; in the safe state a row has no effect at all. -/
theorem linksFollowTheirStateMachine : Obligations.LinksFollowTheirStateMachine := by
  intro s c p peer rs br vI vE hl ch q now fr goes begins rate restarts common late An Lock idle
  have run : ∀ {i : Instr} {f : Channel → Channel} {P : Channel → Prop}, mayRate i = false → s.clear.effect i = s.clear.onCh c f → P (f ch) → ActsOn i s c P :=
    fun hm hx hp => actsOn_intro _ hl hm hx hp
  have hlate : late ↔ Channel.expired ch.jour.tick (ch.ps p).timer = true := (expired_iff _ _).symm
  refine ⟨fun hsafe => ?_, fun hsafe => ?_, fun hup => run rfl rfl (linkLoss_lost hup), fun hup => run rfl rfl (if_neg hup)⟩
  · have stays : ∀ (i : Instr) (f : Channel → Channel), mayRate i = false → s.clear.effect i = (if s.clear.safe = true then s.clear else s.clear.onCh c f) →
        Acts i s (fun u => u = s.clear) := fun i f hm hx => acts_intro hl.1 hm (hx.trans (if_pos hsafe))
    exact ⟨stays _ _ rfl rfl, stays _ _ rfl rfl, stays _ _ rfl rfl, stays _ _ rfl rfl, stays _ _ rfl rfl⟩
  · have runs : ∀ {i : Instr} {f : Channel → Channel} {P : Channel → Prop}, mayRate i = false →
        s.clear.effect i = (if s.clear.safe = true then s.clear else s.clear.onCh c f) → P (f ch) → ActsOn i s c P :=
      fun hm hx hp => run hm (hx.trans (if_neg (by rw [clear_safe, hsafe]; decide))) hp
    refine ⟨fun m hlink hm hcom hlow => runs rfl rfl ?_, fun hlink hnone => runs rfl rfl ?_, fun hlink => runs rfl rfl (if_pos hlink), fun hlink => runs rfl rfl ?_,
      fun hlink => runs rfl rfl (if_neg hlink), fun hlink hdue => runs rfl rfl ?_, fun hidle => runs rfl rfl ?_, fun hlink => runs rfl rfl (alignLock_up hlink),
      fun hlink => runs rfl rfl (if_pos hlink), fun hlink hdue => runs rfl rfl ?_, fun hidle => runs rfl rfl ?_⟩
    · rw [anComplete_some hlink (commonMode_some hm hcom hlow)]
      exact ⟨linkBegin_only _ _, linkBegin_begins ch p _ _, linkBegin_rate ch p (by omega) (fecResolved_lt _ _ _ _)⟩
    · rw [anComplete_none hlink (commonMode_none hnone)]
      refine ⟨LinkOnly.evt ⟨Channel.onlyIn_refl _ _, rfl, fun _ => rfl⟩ rfl, cur_evt _ _ rfl (by decide : 2 < 32), ?_⟩
      exact (Channel.cur_evt_ne ch _ _ (.inr (portStat_ne_evt p.val).symm)).trans hlink
    · rw [show ch.trainComplete p = _ from if_pos hlink]
      exact ⟨linkChange_only _ _, linkChange_goes ch p _ (by decide)⟩
    · rw [show ch.trainTimeout p = _ from if_pos ⟨hlink, hlate.mp hdue⟩]
      exact ⟨(linkRestart_only ch p).evt rfl, (linkRestart_restarts ch p).evt rfl (by decide : 0 < 3 ∧ 3 < 32), cur_evt _ _ rfl (by decide : 3 < 32)⟩
    · exact if_neg fun h => hidle.elim (fun hne => hne h.1) (fun hnd => hnd (hlate.mpr h.2))
    · rw [show ch.alignTimeout p = _ from if_pos ⟨hlink, hlate.mp hdue⟩]
      exact ⟨linkRestart_only ch p, linkRestart_restarts ch p⟩
    · exact if_neg fun h => hidle.elim (fun hne => hne h.1) (fun hnd => hnd (hlate.mpr h.2))

end Sys2Proof
end

section
/-! Frames that end at the port, the SyncE lanes and ESMC (R174, R189, R192, R194). -/
namespace Sys2Proof.Machine

/-! ### A counter that advances -/

theorem pmu_of_onlyIn {L : List ChPart} {c d : Channel} (h : Channel.onlyIn L c d) (hL : ChPart.pmu ∉ L) : d.pmu = c.pmu := (h.2.2.2.2 .pmu hL).1
theorem sealb_of_onlyIn {L : List ChPart} {c d : Channel} (h : Channel.onlyIn L c d) (hL : ChPart.sealb ∉ L) : d.sealb = c.sealb := (h.2.2.2.2 .sealb hL).1

theorem cur_bump_self (c : Channel) (f : KF) (h : f.lsb + f.w ≤ 32) : (c.bump f).cur f = (c.cur f + 1) % 2 ^ f.w := cur_put_self c f _ h

section
variable (c : Channel) (p : PortIx) (n : ℕ)

theorem bwRx_only : Channel.onlyIn [.pmu] c (c.bwRx p n) := on_bwRx p n rfl (Channel.onlyIn_refl _ c)
theorem bwTx_only : Channel.onlyIn [.pmu] c (c.bwTx p n) := on_bwTx p n rfl (Channel.onlyIn_refl _ c)

/-- A frame received changes no register outside PMU. -/
theorem cur_bwRx {g : KF} (hb : g.blk.part ≠ .pmu) : (c.bwRx p n).cur g = c.cur g :=
  cur_of_onlyIn (bwRx_only c p n) (fun h => hb (List.mem_singleton.mp h))

theorem ports_bwRx : (c.bwRx p n).ports = c.ports := ports_of_onlyIn (bwRx_only c p n) (by decide)
theorem ports_bwTx : (c.bwTx p n).ports = c.ports := ports_of_onlyIn (bwTx_only c p n) (by decide)

/-- A frame received, and counted in the 16-bit counter `f` of another block. -/
theorem bwRx_bump (f : KF) (hf : f.lsb + 16 ≤ 32) (hw : f.w = 16) (hp : f.blk.part ≠ .pmu) :
    Channel.onlyIn [f.blk.part, .pmu] c ((c.bwRx p n).bump f) ∧ ((c.bwRx p n).bump f).pmu = (c.bwRx p n).pmu ∧
    Channel.keeps f.blk [f] c ((c.bwRx p n).bump f) ∧ ((c.bwRx p n).bump f).cur f = (c.cur f + 1) % 65536 := by
  have hfit : f.lsb + f.w ≤ 32 := by rw [hw]; exact hf
  refine ⟨on_bump f ?_ (on_bwRx p n ?_ (Channel.onlyIn_refl _ c)), rfl, ⟨fun k => ?_, fun g hg hne => ?_⟩, ?_⟩
  · simp
  · cases f.blk <;> rfl
  · exact (us_bump f (us_bwRx p n (Uses.refl c))).useWord f.blk k
  · exact (cur_put_ne _ f g _ hfit (.inr (hne f (List.mem_singleton.mpr rfl)))).trans (cur_bwRx c p n (by rw [hg]; exact hp))
  · rw [cur_bump_self _ f hfit, cur_bwRx c p n hp, hw]
    rfl

end

/-! ### Records of the recovered clock (R189, R192) -/

section
variable {c : Channel} {p : PortIx}

theorem portUp_iff : c.portUp p = true ↔ c.link p = LK_UP := by
  unfold Channel.portUp
  exact beq_iff_eq

theorem portUp_not : c.portUp p = false ↔ c.link p ≠ LK_UP := by rw [← Bool.not_eq_true, portUp_iff]

/-- The FB of a SyncE record (R192, R194). -/
def synceFb (c : Channel) (p : PortIx) : Bound := if c.flag (F.PORT_P_ESMC_QL_GATE p.val) && c.qlUnusable p then SAT else 281600

/-- The period of the recovered clock, by the mode in force (R192). -/
def syncePeriod (c : Channel) (p : PortIx) : ℕ × ℕ := if c.cur (F.PORT_P_STAT_RMODE p.val) ≤ 3 then (332031250, 1) else (1611328125, 10)

theorem synceRecord_at {t : Gt} (freq off : Int) (hup : c.link p = LK_UP) (he : (c.lane (synceLane p)).exist = true) (ht : c.multipleHere 10 = some t) :
    c.synceRecord p freq off = withMeasured c 200000 (rawRec (synceLane p) t (c.kAt t)
      ⟨Channel.reducePeriod off (syncePeriod c p).1 (syncePeriod c p).2, SAT⟩ freq (synceFb c p) (tagLane (synceLane p).val) false true none) := by
  unfold Channel.synceRecord
  dsimp only
  rw [portUp_iff.mpr hup, he, ht]
  exact measure_exist he

theorem synceRecord_none (freq off : Int) (h : c.link p ≠ LK_UP ∨ (c.lane (synceLane p)).exist = false ∨ c.multipleHere 10 = none) :
    c.synceRecord p freq off = c := by
  unfold Channel.synceRecord
  dsimp only
  rcases h with hup | he | ht
  · rw [portUp_not.mpr hup]; rfl
  · rw [he, Bool.not_false, Bool.or_true]; rfl
  · rw [ht]
    exact ite_self c

theorem synceFb_unusable (h : c.flag (F.PORT_P_ESMC_QL_GATE p.val) = true ∧
    (c.cur (F.PORT_P_ESMC_STAT_QL_LOST p.val) = 1 ∨ c.cur (F.PORT_P_ESMC_STAT_RX_QL p.val) = c.fld (F.PORT_P_ESMC_QL_DNU p.val))) : synceFb c p = SAT :=
  if_pos (by simpa [Channel.qlUnusable] using h)

theorem synceFb_usable (h : ¬ (c.flag (F.PORT_P_ESMC_QL_GATE p.val) = true ∧
    (c.cur (F.PORT_P_ESMC_STAT_QL_LOST p.val) = 1 ∨ c.cur (F.PORT_P_ESMC_STAT_RX_QL p.val) = c.fld (F.PORT_P_ESMC_QL_DNU p.val)))) : synceFb c p = 281600 :=
  if_neg (by simpa [Channel.qlUnusable] using h)

/-! ### Quality levels received (R194) -/

theorem esmcStat_ne_evt (q : ℕ) : PORT_P_ESMC_STAT q ≠ PORT_P_EVT q := by unfold PORT_P_ESMC_STAT PORT_P_EVT; omega

/-- The event of a quality level leaves ESMC_STAT. -/
theorem esmcStat_evt {g : KF} (d : Channel) (hg : g.off = PORT_P_ESMC_STAT p.val) : (d.evt (F.PORT_P_EVT_QL p.val)).cur g = d.cur g :=
  Channel.cur_evt_ne _ _ _ (.inr (by rw [hg]; exact (esmcStat_ne_evt p.val).symm))

/-- The level of a PDU is taken: RX_QL holds it, QL_LOST is clear, and its tick is kept. -/
def Channel.qlTaken (c : Channel) (p : PortIx) (ql len : ℕ) : Channel :=
  (((c.bwRx p len).put (F.PORT_P_ESMC_STAT_RX_QL p.val) ql).put (F.PORT_P_ESMC_STAT_QL_LOST p.val) 0).updPs p (fun x => { x with qlAt := c.jour.tick })

theorem esmcRx_eq (ql len : ℕ) (hup : c.link p = LK_UP) (hen : c.flag (F.PORT_P_ESMC_RX_EN p.val) = true) : c.esmcRx p ql len =
    if c.cur (F.PORT_P_ESMC_STAT_RX_QL p.val) = ql % 16 ∧ c.cur (F.PORT_P_ESMC_STAT_QL_LOST p.val) = 0 then c.qlTaken p ql len
    else (c.qlTaken p ql len).evt (F.PORT_P_EVT_QL p.val) := by
  unfold Channel.esmcRx
  dsimp only
  rw [portUp_iff.mpr hup, hen]
  simp only [Bool.and_eq_true, beq_iff_eq]
  rfl

theorem esmcRx_off (ql len : ℕ) (hup : c.link p = LK_UP) (hen : c.flag (F.PORT_P_ESMC_RX_EN p.val) = false) : c.esmcRx p ql len = c.bwRx p len := by
  unfold Channel.esmcRx
  dsimp only
  rw [portUp_iff.mpr hup, hen]
  rfl

theorem esmcRx_down (ql len : ℕ) (hup : c.link p ≠ LK_UP) : c.esmcRx p ql len = c := if_pos (by rw [portUp_not.mpr hup]; rfl)

theorem qlTaken_cur (ql len : ℕ) : (c.qlTaken p ql len).cur (F.PORT_P_ESMC_STAT_RX_QL p.val) = ql % 16 ∧
    (c.qlTaken p ql len).cur (F.PORT_P_ESMC_STAT_QL_LOST p.val) = 0 ∧ (c.qlTaken p ql len).cur (F.PORT_P_EVT_QL p.val) = c.cur (F.PORT_P_EVT_QL p.val) := by
  unfold Channel.qlTaken
  rw [cur_updPs, cur_updPs, cur_updPs]
  refine ⟨?_, ?_, ?_⟩
  · rw [cur_put_ne _ _ _ _ (by decide : 31 + 1 ≤ 32) (.inr (.inr (.inr (by decide : 0 + 4 ≤ 31))))]
    exact cur_put_self _ _ _ (by decide : 0 + 4 ≤ 32)
  · exact Channel.cur_put_lt _ _ _ (by decide : 31 + 1 ≤ 32) (by decide : 0 < 2 ^ 1)
  · rw [cur_put_ne _ _ _ _ (by decide : 31 + 1 ≤ 32) (.inr (.inl (esmcStat_ne_evt p.val))),
      cur_put_ne _ _ _ _ (by decide : 0 + 4 ≤ 32) (.inr (.inl (esmcStat_ne_evt p.val)))]
    exact cur_bwRx c p len (by decide : ChPart.port ≠ .pmu)

theorem qlTaken_ports (ql len : ℕ) : (c.qlTaken p ql len).ports = c.ports.set p { c.ps p with qlAt := c.jour.tick } := by
  unfold Channel.qlTaken Channel.updPs Channel.setPs Channel.ps
  dsimp only
  rw [Channel.put_ports, Channel.put_ports, ports_bwRx]

theorem qlTaken_pmu (ql len : ℕ) : (c.qlTaken p ql len).pmu = (c.bwRx p len).pmu := by
  unfold Channel.qlTaken Channel.updPs Channel.setPs
  dsimp only
  rw [Channel.put_pmu, Channel.put_pmu]

/-- A PDU received where reception is enabled: its level is taken, and a change of it is an event (R194). -/
theorem esmcRx_takes (ql len : ℕ) (hup : c.link p = LK_UP) (hen : c.flag (F.PORT_P_ESMC_RX_EN p.val) = true) :
    Channel.onlyIn [.port, .pmu, .asks] c (c.esmcRx p ql len) ∧ (c.esmcRx p ql len).cur (F.PORT_P_ESMC_STAT_RX_QL p.val) = ql % 16 ∧
    (c.esmcRx p ql len).cur (F.PORT_P_ESMC_STAT_QL_LOST p.val) = 0 ∧ (c.esmcRx p ql len).pmu = (c.bwRx p len).pmu ∧
    (c.esmcRx p ql len).ports = c.ports.set p { c.ps p with qlAt := c.jour.tick } ∧
    (¬ (c.cur (F.PORT_P_ESMC_STAT_RX_QL p.val) = ql % 16 ∧ c.cur (F.PORT_P_ESMC_STAT_QL_LOST p.val) = 0) → (c.esmcRx p ql len).cur (F.PORT_P_EVT_QL p.val) = 1) ∧
    (c.cur (F.PORT_P_ESMC_STAT_RX_QL p.val) = ql % 16 ∧ c.cur (F.PORT_P_ESMC_STAT_QL_LOST p.val) = 0 →
      (c.esmcRx p ql len).cur (F.PORT_P_EVT_QL p.val) = c.cur (F.PORT_P_EVT_QL p.val)) := by
  obtain ⟨hql, hclear, hevt⟩ := qlTaken_cur (c := c) (p := p) ql len
  have hports := qlTaken_ports (c := c) (p := p) ql len
  have hpmu := qlTaken_pmu (c := c) (p := p) ql len
  refine ⟨on_esmcRx p ql len rfl (Channel.onlyIn_refl _ c), ?_⟩
  rw [esmcRx_eq ql len hup hen]
  by_cases hsame : c.cur (F.PORT_P_ESMC_STAT_RX_QL p.val) = ql % 16 ∧ c.cur (F.PORT_P_ESMC_STAT_QL_LOST p.val) = 0
  · rw [if_pos hsame]
    exact ⟨hql, hclear, hpmu, hports, fun hn => absurd hsame hn, fun _ => hevt⟩
  · rw [if_neg hsame]
    exact ⟨(esmcStat_evt _ rfl).trans hql, (esmcStat_evt _ rfl).trans hclear, (Channel.evt_pmu _ _).trans hpmu, (Channel.evt_ports _ _).trans hports,
      fun _ => cur_evt _ _ rfl (by decide : 4 < 32), fun hs => absurd hs hsame⟩

theorem esmcLost_due (h : c.flag (F.PORT_P_ESMC_RX_EN p.val) = true ∧ c.cur (F.PORT_P_ESMC_STAT_QL_LOST p.val) = 0 ∧
    (c.ps p).qlAt + 1000000000 ≤ c.jour.tick) : c.esmcLost p = (c.put (F.PORT_P_ESMC_STAT_QL_LOST p.val) 1).evt (F.PORT_P_EVT_QL p.val) := by
  have hsec : Channel.secTicks 5 = 1000000000 := rfl
  obtain ⟨hen, hl, ht⟩ := h
  exact if_pos (by rw [hen, hl, hsec, decide_eq_true ht]; rfl)

theorem esmcLost_idle (h : ¬ (c.flag (F.PORT_P_ESMC_RX_EN p.val) = true ∧ c.cur (F.PORT_P_ESMC_STAT_QL_LOST p.val) = 0 ∧
    (c.ps p).qlAt + 1000000000 ≤ c.jour.tick)) : c.esmcLost p = c := by
  have hsec : Channel.secTicks 5 = 1000000000 := rfl
  refine if_neg fun hx => h ?_
  rw [hsec] at hx
  simpa [and_assoc] using hx

/-- 5 s without a PDU set QL_LOST (R194). -/
theorem esmcLost_sets (h : c.flag (F.PORT_P_ESMC_RX_EN p.val) = true ∧ c.cur (F.PORT_P_ESMC_STAT_QL_LOST p.val) = 0 ∧
    (c.ps p).qlAt + 1000000000 ≤ c.jour.tick) :
    Channel.onlyIn [.port, .asks] c (c.esmcLost p) ∧ (c.esmcLost p).ports = c.ports ∧ (c.esmcLost p).cur (F.PORT_P_ESMC_STAT_QL_LOST p.val) = 1 ∧
    (c.esmcLost p).cur (F.PORT_P_ESMC_STAT_RX_QL p.val) = c.cur (F.PORT_P_ESMC_STAT_RX_QL p.val) ∧ (c.esmcLost p).cur (F.PORT_P_EVT_QL p.val) = 1 := by
  refine ⟨on_esmcLost p rfl (Channel.onlyIn_refl _ c), ?_⟩
  rw [esmcLost_due h]
  refine ⟨(Channel.evt_ports _ _).trans (Channel.put_ports _ _ _), ?_, ?_, cur_evt _ _ rfl (by decide : 4 < 32)⟩
  · exact (esmcStat_evt _ rfl).trans (Channel.cur_put_lt _ _ _ (by decide : 31 + 1 ≤ 32) (by decide : 1 < 2 ^ 1))
  · exact (esmcStat_evt _ rfl).trans (cur_put_ne _ _ _ _ (by decide : 31 + 1 ≤ 32) (.inr (.inr (.inr (by decide : 0 + 4 ≤ 31)))))

/-! ### The information PDU (R194) -/

theorem esmcInfo_sends (hup : c.link p = LK_UP) (hen : c.flag (F.PORT_P_ESMC_TX_EN p.val) = true) (ht : c.multipleHere 1 ≠ none) :
    c.esmcInfo p = c.sendQl p false := by
  obtain ⟨t, ht⟩ := Option.ne_none_iff_exists'.mp ht
  exact if_pos (by rw [portUp_iff.mpr hup, hen, ht]; rfl)

theorem esmcInfo_idle (h : ¬ (c.link p = LK_UP ∧ c.flag (F.PORT_P_ESMC_TX_EN p.val) = true ∧ c.multipleHere 1 ≠ none)) : c.esmcInfo p = c := by
  refine if_neg fun hx => h ?_
  simpa [portUp_iff, and_assoc, Option.isSome_iff_ne_none] using hx

theorem sendQl_facts (event : Bool) : Channel.onlyIn [.port, .pmu, .asks] c (c.sendQl p event) ∧ (c.sendQl p event).regs.port = c.regs.port ∧
    Eff.esmc p (c.qlSent p) event ∈ (c.sendQl p event).effs ∧ (c.sendQl p event).ports = c.ports.set p { c.ps p with qlSent := some (c.qlSent p) } ∧
    (c.sendQl p event).pmu = (c.bwTx p 64).pmu := by
  refine ⟨on_sendQl p event rfl (Channel.onlyIn_refl _ c), ((bwTx_only c p 64).2.2.2.2 .port (by decide)).2, ?_, ?_, rfl⟩
  · exact List.mem_append_right _ (List.mem_singleton.mpr rfl)
  · unfold Channel.sendQl Channel.updPs Channel.setPs Channel.ps
    dsimp only
    rw [Channel.ask_ports, ports_bwTx]

end

end Sys2Proof.Machine

namespace Sys2Proof
open Sys2Proof.Machine

/-- Settles O41, row by row. -/
theorem portFramesSyncEAndEsmc : Obligations.PortFramesSyncEAndEsmc := by
  intro s c p len ql freq off hl ch q up n idle cnt clock plan unusable same lost sends
  have pause : ∀ {P : Channel → Prop}, P (ch.pauseRx p len) → ActsOn (.pauseFrameRx c p len) s c P := actsOn_intro (fun d => d.pauseRx p len) hl rfl rfl
  have oversize : ∀ {P : Channel → Prop}, P (ch.oversizeRx p len) → ActsOn (.oversizeFrameRx c p len) s c P :=
    actsOn_intro (fun d => d.oversizeRx p len) hl rfl rfl
  have synce : ∀ {P : Channel → Prop}, P (ch.synceRecord p freq off) → ActsOn clock s c P := actsOn_intro (fun d => d.synceRecord p freq off) hl rfl rfl
  have pdu : ∀ {P : Channel → Prop}, P (ch.esmcRx p ql len) → ActsOn (.esmcPduRx c p ql len) s c P := actsOn_intro (fun d => d.esmcRx p ql len) hl rfl rfl
  have expiry : ∀ {P : Channel → Prop}, P (ch.esmcLost p) → ActsOn (.esmcQlLostExpiry c p) s c P := actsOn_intro (fun d => d.esmcLost p) hl rfl rfl
  have info : ∀ {P : Channel → Prop}, P (ch.esmcInfo p) → ActsOn (.esmcInfoPduSend c p) s c P := actsOn_intro (fun d => d.esmcInfo p) hl rfl rfl
  have counts : ∀ f : KF, f.blk = .port → f.lsb + 16 ≤ 32 → f.w = 16 → cnt f ((ch.bwRx p len).bump f) := fun f hb hf hw => by
    have hpart : f.blk.part ≠ .pmu := by rw [hb]; decide
    obtain ⟨hon, hpmu, hkeep, hcur⟩ := bwRx_bump ch p len f hf hw hpart
    rw [hb] at hon hkeep
    exact ⟨hon, ports_bwRx ch p len, hpmu, hkeep, hcur⟩
  refine ⟨fun hup => pause ?_, fun hup => pause ?_, fun hup hlen => oversize ?_, fun hno => oversize ?_, fun t hup he ht => synce ?_,
    fun hno => synce (synceRecord_none freq off hno), fun hup hen => pdu (esmcRx_takes ql len hup hen), fun hup hen => pdu (esmcRx_off ql len hup hen),
    fun hup => pdu (esmcRx_down ql len hup), fun hlost => expiry (esmcLost_sets hlost), fun hidle => expiry (esmcLost_idle hidle),
    fun ⟨hup, hen, ht⟩ => info ?_, fun hidle => info (esmcInfo_idle hidle)⟩
  · rw [show ch.pauseRx p len = _ from if_pos (portUp_iff.mpr hup)]
    exact counts _ rfl (by decide : 0 + 16 ≤ 32) rfl
  · exact if_neg (by rw [portUp_not.mpr hup]; decide)
  · have hrow : ch.oversizeRx p len = (ch.bwRx p len).bump (F.PORT_P_CNT2_OVERSIZE_RX p.val) := if_pos (by rw [portUp_iff.mpr hup, decide_eq_true hlen]; rfl)
    rw [hrow]
    exact counts _ rfl (by decide : 16 + 16 ≤ 32) rfl
  · refine if_neg fun h => ?_
    obtain ⟨hu, hlong⟩ := (Bool.and_eq_true _ _).mp h
    exact hno.elim (fun hd => hd (portUp_iff.mp hu)) (fun hle => absurd (of_decide_eq_true hlong) (Nat.not_lt.mpr hle))
  · rw [synceRecord_at freq off hup he ht]
    exact ⟨onlyIn_withMeasured _ _ _ rfl, rfl, rfl, _, rfl, rfl, rfl, rfl, rfl, rfl, rfl, rfl, synceFb_unusable, synceFb_usable⟩
  · rw [esmcInfo_sends hup hen ht]
    exact sendQl_facts false

end Sys2Proof
end

section
/-! Messages of the master that a port's lane client follows (R187 to R191, R209). -/
namespace Sys2Proof.Machine

/-! ### A lane client changed -/

section
variable (c : Channel) (p : PortIx) (f g : LaneClient → LaneClient)

theorem lc_updLc : (c.updLc p f).lc p = f (c.lc p) := by
  unfold Channel.updLc Channel.lc
  rw [ps_updPs]

theorem updLc_updLc : (c.updLc p f).updLc p g = c.updLc p (fun l => g (f l)) := by
  have hset : ((c.updLc p f).ports).set p { (c.updLc p f).ps p with lc := g ((c.updLc p f).lc p) } = c.ports.set p { c.ps p with lc := g (f (c.lc p)) } := by
    rw [lc_updLc, show (c.updLc p f).ps p = { c.ps p with lc := f (c.lc p) } from ps_updPs c p _]
    exact Vector.set_set ..
  exact congrArg (fun v => ({ c with ports := v } : Channel)) hset

theorem updLc_only : Channel.onlyIn [.port] c (c.updLc p f) := on_updLc p f rfl (Channel.onlyIn_refl _ c)

end

/-- The message type for which a lane client takes a frame leaves only counters changed. -/
theorem laneTake_only (c : Channel) (p : PortIx) (bs : Bytes) (ty : ℕ) : Channel.onlyIn [.sealb, .pmu, .asks] c (c.laneTake p bs ty).2 :=
  on_laneTake p bs ty rfl (Channel.onlyIn_refl _ c)

section
variable {c x : Channel} {p : PortIx} {bs m : Bytes} {ty : ℕ}

theorem laneTake_small (h : c.laneTake p bs ty = (some m, x)) : Channel.onlyIn [.port, .sealb, .pmu, .asks] c x := by
  have hon := laneTake_only c p bs ty
  rw [h] at hon
  exact Channel.onlyIn_mono rfl hon

theorem laneTake_none {y : Option Bytes × Channel} (hy : c.laneTake p bs ty = y) (h : y.1 = none) : c.laneTake p bs ty = (none, y.2) := by
  rw [hy, ← h]

/-- A lane client set in a channel that only counted. -/
theorem updLc_small (h : c.laneTake p bs ty = (some m, x)) (f : LaneClient → LaneClient) :
    Channel.onlyIn [.port, .sealb, .pmu, .asks] c (x.updLc p f) := on_updLc p f rfl (laneTake_small h)

end

/-! ### A pair completed (R189) -/

/-- The channel `d` is `x` with `h` for the port's lane client. -/
structure LcIs (x : Channel) (p : PortIx) (h : LaneClient) (d : Channel) : Prop where
  lc : d.lc p = h
  upd : ∀ f, d.updLc p f = x.updLc p (fun _ => f h)
  ref : d.ref = x.ref
  jour : d.jour = x.jour
  regs : d.regs = x.regs
  only : Channel.onlyIn [.port] x d

theorem LcIs.refl (x : Channel) (p : PortIx) : LcIs x p (x.lc p) x := ⟨rfl, fun _ => rfl, rfl, rfl, rfl, Channel.onlyIn_refl _ x⟩

theorem LcIs.set (x : Channel) (p : PortIx) (h : LaneClient) : LcIs x p h (x.updLc p fun _ => h) :=
  ⟨lc_updLc x p _, fun f => updLc_updLc x p _ f, rfl, rfl, rfl, updLc_only x p _⟩

/-- The lane client once a pair is complete. -/
def LaneClient.paired (h : LaneClient) (t1 t2 : Gt) : LaneClient := { h with pairs := (t1, t2) :: h.pairs, pend := none }

section
variable {x d : Channel} {p : PortIx} {h : LaneClient} {t1 t2 : Gt} {k : Int} {seq : ℕ} {tlv : Option (Bound × Word)}

theorem ptpRecord_unmeasured (hd : LcIs x p h d) (hno : h.mpd = none ∨ (x.lane (ptpLane p)).exist = false) :
    d.ptpRecord p t1 t2 k seq tlv = x.updLc p (fun _ => h.paired t1 t2) := by
  have hset : d.updLc p (fun l => { l with pairs := (t1, t2) :: l.pairs, pend := none }) = x.updLc p (fun _ => h.paired t1 t2) := hd.upd _
  unfold Channel.ptpRecord
  dsimp only
  rw [hd.lc, hset]
  cases hm : h.mpd with
  | none => rfl
  | some mpd =>
    have he : (d.lane (ptpLane p)).exist = false := by
      unfold Channel.lane at hno ⊢
      rw [hd.ref]
      exact hno.resolve_left (by rw [hm]; exact Option.some_ne_none _)
    exact if_pos (by rw [he]; rfl)

/-- The offset of a record of the lane, by the port's asymmetry (R189). -/
def ptpOffset (x : Channel) (p : PortIx) (raw : Gt) : Gt :=
  raw + if x.fld (F.PORT_P_ASYM_BUD_ASYM_BUD p.val) = SAT then 0 else pointOfPs (x.sfld (F.PORT_P_ASYM_ASYM p.val))

theorem ptpOffset_eq (hr : d.regs = x.regs) (raw : Gt) :
    (if d.fld (F.PORT_P_ASYM_BUD_ASYM_BUD p.val) = SAT then raw else raw + pointOfPs (d.sfld (F.PORT_P_ASYM_ASYM p.val))) = ptpOffset x p raw := by
  unfold ptpOffset Channel.sfld
  rw [fld_of_regs hr, fld_of_regs hr]
  split
  · exact (add_zero raw).symm
  · rfl

/-- A record measured once a lane's client was set, and FREQ and FB were drawn. -/
theorem measured_after {e : Channel} {r : MeasRec} {g : LaneClient → LaneClient} (lat : ℕ) (he : Channel.onlyIn [.free] d e)
    (hx : (d.lane r.lane).exist = true) : ((e.updLc p g).measure lat r).lc p = g (d.lc p) ∧
      ((e.updLc p g).measure lat r).ref.measured = d.ref.measured ++ [(d.jour.tick + lat, r)] := by
  have href : e.ref = d.ref := (he.2.2.2.2 .ref (by decide)).1
  have hlc : e.lc p = d.lc p := by
    unfold Channel.lc Channel.ps
    rw [ports_of_onlyIn he (by decide)]
  have hexist : ((e.updLc p g).lane r.lane).exist = true := by
    unfold Channel.lane at hx ⊢
    exact (congrArg (fun q => (q.lanes[r.lane]).exist) href).trans hx
  have hjour : e.jour.tick = d.jour.tick := tick_of_onlyIn he (by decide)
  rw [measure_exist hexist]
  refine ⟨(lc_updLc e p g).trans (congrArg g hlc), ?_⟩
  exact congrArg₂ (fun (q : RefSt) (t : ℕ) => q.measured ++ [(t + lat, r)]) href hjour

/-- With a mean path delay, and the lane in the image, a completed pair gives a record (R189). -/
theorem ptpRecord_measured {mpd : Int} (hd : LcIs x p h d) (hm : h.mpd = some mpd) (he : (x.lane (ptpLane p)).exist = true) :
    ((d.ptpRecord p t1 t2 k seq tlv).lc p).pairs = (h.paired t1 t2).pairs ∧ ((d.ptpRecord p t1 t2 k seq tlv).lc p).pend = none ∧
    x.measures (d.ptpRecord p t1 t2 k seq tlv) 4000 (fun r => r.lane = ptpLane p ∧ r.refTs = t2 ∧ r.phaseOnly = false ∧ r.freqOnly = false ∧
      r.offset = ptpOffset x p (t1 + mpd - t2)) := by
  have hex : (d.lane (ptpLane p)).exist = true := by
    unfold Channel.lane at he ⊢
    rw [hd.ref]
    exact he
  have hset : LcIs x p (h.paired t1 t2) (d.updLc p (fun l => { l with pairs := (t1, t2) :: l.pairs, pend := none })) := by
    rw [hd.upd]
    exact LcIs.set x p (h.paired t1 t2)
  obtain ⟨e, g, r, heq, hfree, hpairs, hpend, hlane, hts, hph, hfr, hoff⟩ : ∃ (e : Channel) (g : LaneClient → LaneClient) (r : MeasRec),
      d.ptpRecord p t1 t2 k seq tlv = (e.updLc p g).measure 4000 r ∧
      Channel.onlyIn [.free] (d.updLc p (fun l => { l with pairs := (t1, t2) :: l.pairs, pend := none })) e ∧
      (∀ l, (g l).pairs = l.pairs) ∧ (∀ l, (g l).pend = l.pend) ∧ r.lane = ptpLane p ∧ r.refTs = t2 ∧ r.phaseOnly = false ∧ r.freqOnly = false ∧
      r.offset = if d.fld (F.PORT_P_ASYM_BUD_ASYM_BUD p.val) = SAT then t1 + mpd - t2 else t1 + mpd - t2 + pointOfPs (d.sfld (F.PORT_P_ASYM_ASYM p.val)) := by
    unfold Channel.ptpRecord
    dsimp only
    rw [hd.lc, hm, hex]
    exact ⟨_, _, _, rfl, on_freqFb _ _ _ _ _ _ rfl (Channel.onlyIn_refl _ _), fun _ => rfl, fun _ => rfl, rfl, rfl, rfl, rfl, rfl⟩
  have hexist : ((d.updLc p (fun l => { l with pairs := (t1, t2) :: l.pairs, pend := none })).lane r.lane).exist = true := by
    rw [hlane]
    exact hex
  obtain ⟨hlc, hmeas⟩ := measured_after (p := p) (g := g) 4000 hfree hexist
  rw [heq, hlc, hpairs, hpend, hset.lc]
  refine ⟨rfl, rfl, r, ?_, hlane, hts, hph, hfr, hoff.trans (ptpOffset_eq hd.regs _)⟩
  rw [hmeas, hset.ref, hset.jour]

end

/-! ### The messages -/

/-- The lane client after a Sync with this logMessageInterval. -/
def LaneClient.heard (l : LaneClient) (lg : Int) : LaneClient := if lg = 0x7F then l else { l with rxLog := some lg }

/-- The channel after a Sync with this logMessageInterval. -/
def Channel.hears (c : Channel) (p : PortIx) (lg : Int) : Channel := if lg = 0x7F then c else c.updLc p (fun l => { l with rxLog := some lg })

theorem hears_lcIs (x : Channel) (p : PortIx) (lg : Int) : LcIs x p ((x.lc p).heard lg) (x.hears p lg) := by
  unfold LaneClient.heard Channel.hears
  split
  · exact LcIs.refl x p
  · exact LcIs.set x p _

theorem heard_mpd (l : LaneClient) (lg : Int) : (l.heard lg).mpd = l.mpd := by
  unfold LaneClient.heard
  split <;> rfl

section
variable {c x : Channel} {p : PortIx} {bs m : Bytes}

theorem syncRx_took (ps : ℕ) (f : Int) (h : c.laneTake p bs MT_SYNC = (some m, x)) : c.syncRx p ps f bs =
    if ptpTwoStep m then (x.hears p (ptpLog m)).updLc p
      (fun l => { l with pend := some ⟨ptpSeq m, ptpCorr m, (x.stampIn p ps f).t, (x.stampIn p ps f).k, x.jour.tick⟩ })
    else (x.hears p (ptpLog m)).ptpRecord p (ofPtp (ptpTsAt m 34).1 (ptpTsAt m 34).2 (ptpCorr m)) (x.stampIn p ps f).t (x.stampIn p ps f).k (ptpSeq m)
      (x.srcBound m) := by
  unfold Channel.syncRx
  rw [h]
  rfl

theorem followUpRx_fits {z : PendSync} (h : c.laneTake p bs MT_FOLLOW_UP = (some m, x)) (hz : (x.lc p).pend = some z) (hq : z.seq = ptpSeq m) :
    c.followUpRx p bs = x.ptpRecord p (ofPtp (ptpTsAt m 34).1 (ptpTsAt m 34).2 (z.corr + ptpCorr m)) z.t2 z.k z.seq (x.srcBound m) := by
  unfold Channel.followUpRx
  rw [h]
  dsimp only
  rw [hz]
  exact if_neg (not_not.mpr hq)

theorem followUpRx_other (h : c.laneTake p bs MT_FOLLOW_UP = (some m, x)) (hz : ∀ z, (x.lc p).pend = some z → z.seq ≠ ptpSeq m) :
    c.followUpRx p bs = x := by
  unfold Channel.followUpRx
  rw [h]
  dsimp only
  cases hp : (x.lc p).pend with
  | none => rfl
  | some z => exact if_pos (hz z hp)

theorem delayRespRx_fits {t3 : Gt} (h : c.laneTake p bs MT_DELAY_RESP = (some m, x)) (hd : (x.lc p).dreq = some (ptpSeq m, some t3))
    (hmine : slice m 44 10 = x.portId p) : c.delayRespRx p bs = match (x.lc p).pairs.find? (fun z => decide (z.2 < t3)) with
      | none => x.updLc p (fun l => { l with dreq := none })
      | some pr => x.updLc p (fun l =>
        { l with dreq := none, mpd := some (sar ((pr.2 - pr.1) + (ofPtp (ptpTsAt m 34).1 (ptpTsAt m 34).2 (-(ptpCorr m)) - t3)) 1) }) := by
  unfold Channel.delayRespRx
  rw [h]
  dsimp only
  rw [hd]
  exact if_neg (by rintro (hq | hq); exacts [hq rfl, hq hmine])

theorem delayRespRx_other (h : c.laneTake p bs MT_DELAY_RESP = (some m, x))
    (hd : ∀ q t3, (x.lc p).dreq = some (q, some t3) → q ≠ ptpSeq m ∨ ¬ slice m 44 10 = x.portId p) : c.delayRespRx p bs = x := by
  unfold Channel.delayRespRx
  rw [h]
  dsimp only
  split
  next q t3 hq => exact if_pos (hd q t3 hq)
  next => rfl

theorem pdelayRespRx_fits {t1 : Gt} (ps : ℕ) (f : Int) (h : c.laneTake p bs MT_PDELAY_RESP = (some m, x))
    (hd : (x.lc p).pdelay = some ⟨ptpSeq m, some t1, none⟩) (hmine : slice m 44 10 = x.portId p) : c.pdelayRespRx p ps f bs =
      if ptpTwoStep m then x.updLc p (fun l =>
        { l with pdelay := some ⟨ptpSeq m, some t1, some (ofPtp (ptpTsAt m 34).1 (ptpTsAt m 34).2 (ptpCorr m), (x.stampIn p ps f).t)⟩ })
      else x.updLc p (fun l => { l with pdelay := none, mpd := some (sar (((x.stampIn p ps f).t - t1) - ofPtp 0 0 (ptpCorr m)) 1) }) := by
  unfold Channel.pdelayRespRx
  rw [h]
  dsimp only
  rw [hd]
  exact if_neg (by rintro (hq | hq); exacts [hq rfl, hq hmine])

theorem pdelayRespRx_other (ps : ℕ) (f : Int) (h : c.laneTake p bs MT_PDELAY_RESP = (some m, x))
    (hd : ∀ t1, (x.lc p).pdelay = some ⟨ptpSeq m, some t1, none⟩ → ¬ slice m 44 10 = x.portId p) : c.pdelayRespRx p ps f bs = x := by
  unfold Channel.pdelayRespRx
  rw [h]
  dsimp only
  split
  next q t1 hq =>
    refine if_pos ?_
    by_cases hs : q = ptpSeq m
    · exact .inr (hd t1 (by rw [← hs]; exact hq))
    · exact .inl hs
  next => rfl

/-- A message that is not a Pdelay_Resp of the peer is looked at as its Pdelay_Resp_Follow_Up. -/
theorem pdelayFollowUp_fits {b : Channel} {t1 t2 t4 : Gt} (ps : ℕ) (f : Int) (hb : c.laneTake p bs MT_PDELAY_RESP = (none, b))
    (h : b.laneTake p bs MT_PDELAY_RESP_FU = (some m, x)) (hd : (x.lc p).pdelay = some ⟨ptpSeq m, some t1, some (t2, t4)⟩)
    (hmine : slice m 44 10 = x.portId p) : c.pdelayRespRx p ps f bs = x.updLc p (fun l =>
      { l with pdelay := none, mpd := some (sar ((t4 - t1) - (ofPtp (ptpTsAt m 34).1 (ptpTsAt m 34).2 (ptpCorr m) - t2)) 1) }) := by
  unfold Channel.pdelayRespRx
  rw [hb]
  dsimp only
  rw [h]
  dsimp only
  rw [hd]
  exact if_neg (by rintro (hq | hq); exacts [hq rfl, hq hmine])

theorem pdelayFollowUp_other {b : Channel} (ps : ℕ) (f : Int) (hb : c.laneTake p bs MT_PDELAY_RESP = (none, b))
    (h : b.laneTake p bs MT_PDELAY_RESP_FU = (some m, x))
    (hd : ∀ t1 e, (x.lc p).pdelay = some ⟨ptpSeq m, some t1, some e⟩ → ¬ slice m 44 10 = x.portId p) : c.pdelayRespRx p ps f bs = x := by
  unfold Channel.pdelayRespRx
  rw [hb]
  dsimp only
  rw [h]
  dsimp only
  split
  next q t1 t2 t4 hq =>
    refine if_pos ?_
    by_cases hs : q = ptpSeq m
    · exact .inr (hd t1 (t2, t4) (by rw [← hs]; exact hq))
    · exact .inl hs
  next => rfl

theorem pdelayFollowUp_none {b : Channel} (ps : ℕ) (f : Int) (hb : c.laneTake p bs MT_PDELAY_RESP = (none, b))
    (h : (b.laneTake p bs MT_PDELAY_RESP_FU).1 = none) : c.pdelayRespRx p ps f bs = (b.laneTake p bs MT_PDELAY_RESP_FU).2 := by
  unfold Channel.pdelayRespRx
  rw [hb]
  dsimp only
  rw [laneTake_none rfl h]

theorem announceRx_took (h : c.laneTake p bs MT_ANNOUNCE = (some m, x)) : c.announceRx p bs =
    if !maskOpen (byteAt m 7) 2 || x.ref.selA.prev != some (ptpLane p) then x
    else
      let c1 := x.utcAnnounce (ptpLane p) (.offset (signed 16 (beAt m 44 2)))
      let c2 := if maskOpen (byteAt m 7) 0 then c1.utcAnnounce (ptpLane p) (.flag true) else c1
      if maskOpen (byteAt m 7) 1 then c2.utcAnnounce (ptpLane p) (.flag false) else c2 := by
  unfold Channel.announceRx
  rw [h]

end

/-- A message that the lane does not take has the effect of `laneTake` alone. -/
theorem messages_untaken {c : Channel} {p : PortIx} {bs : Bytes} (ps : ℕ) (f : Int) :
    ((c.laneTake p bs MT_SYNC).1 = none → c.syncRx p ps f bs = (c.laneTake p bs MT_SYNC).2) ∧
    ((c.laneTake p bs MT_FOLLOW_UP).1 = none → c.followUpRx p bs = (c.laneTake p bs MT_FOLLOW_UP).2) ∧
    ((c.laneTake p bs MT_DELAY_RESP).1 = none → c.delayRespRx p bs = (c.laneTake p bs MT_DELAY_RESP).2) ∧
    ((c.laneTake p bs MT_ANNOUNCE).1 = none → c.announceRx p bs = (c.laneTake p bs MT_ANNOUNCE).2) := by
  refine ⟨fun h => ?_, fun h => ?_, fun h => ?_, fun h => ?_⟩
  · unfold Channel.syncRx; rw [laneTake_none rfl h]
  · unfold Channel.followUpRx; rw [laneTake_none rfl h]
  · unfold Channel.delayRespRx; rw [laneTake_none rfl h]
  · unfold Channel.announceRx; rw [laneTake_none rfl h]

end Sys2Proof.Machine
end

section
/-! Transit frames (R187, R188, R216), and with the master's messages how both pass (R189 to R191, R209). -/
namespace Sys2Proof.Machine

/-! ### Frames that a row takes -/

/-- Whether a frame is taken from a port by a row for the classes `w` (R174, R199). -/
def Takes (c : Channel) (p : PortIx) (bs : Bytes) (w : RxClass → Bool) : Prop :=
  c.portUp p = true ∧ bs.length + 4 ≤ c.fld (F.PORT_P_CFG_MAXF p.val) ∧ w (c.classify p (parsePkt bs) bs) = true

section
variable {c : Channel} {p : PortIx} {bs : Bytes} {w : RxClass → Bool}

theorem rxTake_takes (h : Takes c p bs w) : c.rxTake p bs w = some (parsePkt bs, c.bwRx p (bs.length + 4)) := by
  obtain ⟨hup, hlen, hw⟩ := h
  exact if_pos (by rw [hup, decide_eq_true hlen, hw]; rfl)

theorem rxTake_idle (h : ¬ Takes c p bs w) : c.rxTake p bs w = none := by
  refine if_neg fun hx => h ?_
  simpa [Takes, and_assoc] using hx

/-! ### Transit frames (R187, R188, R216) -/

/-- Whether a frame's authentication TLV is one that the channel renews under association `j` (R216). -/
def Renews (b : Channel) (w : Bytes) (j : ℕ) : Prop :=
  ∃ t, (ptpTlvs w).find? (fun t => t.1 == 0x8009) = some t ∧ b.saOfTlv t.2.1 = some j ∧ b.flag (F.SEAL_SA_CFG_TRANSIT j) = true ∧ (b.saKey j).isSome = true

/-- Whether a class and a message make a transit frame that the channel forwards. -/
def transitClass (m : Bytes) (x : RxClass) : Bool := x == .transit && Channel.transitOk m

/-- The frame queued for the other port: the same bytes, with the residence time of an event message to come (R187). -/
def transitFrame (b : Channel) (p : PortIx) (ps : ℕ) (f : Int) (bs : Bytes) (u : SealUse × List ℕ) : QFrame :=
  let m := (parsePkt bs).payload bs
  let ev := ptpType m == MT_SYNC || ptpType m == MT_DELAY_REQ
  ⟨bs, (parsePkt bs).ofs, m.length, ptpType m, ptpSeq m, .transit (if ev then some (b.stampIn p ps f).t else none),
    if ev then (b.rxBound m).map (fun t => t.1 + (parsePkt bs).ofs) else none, u.1, u.2, false, false, none, none, 0, false, 0⟩

/-- A transit frame passes on to the other port. -/
def Channel.passesOn (b : Channel) (p : PortIx) (ps : ℕ) (f : Int) (bs : Bytes) (sa : Option ℕ) : Channel :=
  b.submit (1 - p) (b.qt (1 - p)) (transitFrame b p ps f bs (b.sealWith sa))

variable (ps : ℕ) (f : Int)

theorem transitRx_idle (h : ¬ Takes c p bs (transitClass ((parsePkt bs).payload bs))) : c.transitRx p ps f bs = c := by
  have hnone : c.rxTake p bs (fun x => x == .transit && Channel.transitOk ((parsePkt bs).payload bs)) = none := rxTake_idle h
  unfold Channel.transitRx
  dsimp only
  rw [hnone]

section
variable (h : Takes c p bs (transitClass ((parsePkt bs).payload bs)))
include h

theorem transitRx_plain (ha : (ptpTlvs ((parsePkt bs).payload bs)).find? (fun t => t.1 == 0x8009) = none) :
    c.transitRx p ps f bs = (c.bwRx p (bs.length + 4)).passesOn p ps f bs none := by
  have htake : c.rxTake p bs (fun x => x == .transit && Channel.transitOk ((parsePkt bs).payload bs)) = some (parsePkt bs, c.bwRx p (bs.length + 4)) :=
    rxTake_takes h
  unfold Channel.transitRx
  dsimp only
  rw [htake]
  dsimp only
  rw [ha]
  rfl

/-- A frame whose authentication the channel does not renew follows TNK. -/
theorem transitRx_unknown (ha : (ptpTlvs ((parsePkt bs).payload bs)).find? (fun t => t.1 == 0x8009) ≠ none)
    (hno : ∀ j, ¬ Renews (c.bwRx p (bs.length + 4)) ((parsePkt bs).payload bs) j) : c.transitRx p ps f bs =
      if (c.bwRx p (bs.length + 4)).fld F.PORT_CTL_TNK = 0 then (c.bwRx p (bs.length + 4)).bump (F.PORT_P_CNT1_TR_DROP p.val)
      else (c.bwRx p (bs.length + 4)).passesOn p ps f bs none := by
  have htake : c.rxTake p bs (fun x => x == .transit && Channel.transitOk ((parsePkt bs).payload bs)) = some (parsePkt bs, c.bwRx p (bs.length + 4)) :=
    rxTake_takes h
  obtain ⟨t, ht⟩ := Option.ne_none_iff_exists'.mp ha
  unfold Channel.transitRx
  dsimp only
  rw [htake]
  dsimp only
  rw [ht]
  refine if_neg fun hk => ?_
  split at hk
  next j hj =>
    obtain ⟨hfl, hkey⟩ := (Bool.and_eq_true _ _).mp hk
    exact hno j ⟨t, ht, hj, hfl, hkey⟩
  next => exact absurd hk (by decide)

/-- A frame whose authentication the channel renews is verified first. -/
theorem transitRx_renews {j : ℕ} (hr : Renews (c.bwRx p (bs.length + 4)) ((parsePkt bs).payload bs) j) : c.transitRx p ps f bs =
    match (c.bwRx p (bs.length + 4)).authGate ((c.bwRx p (bs.length + 4)).ptpAuth ((parsePkt bs).payload bs)) with
    | (some (some s), c1) => c1.submit (1 - p) (c1.qt (1 - p)) (transitFrame (c.bwRx p (bs.length + 4)) p ps f bs (c1.sealWith (some s)))
    | (_, c1) => c1 := by
  have htake : c.rxTake p bs (fun x => x == .transit && Channel.transitOk ((parsePkt bs).payload bs)) = some (parsePkt bs, c.bwRx p (bs.length + 4)) :=
    rxTake_takes h
  obtain ⟨t, ht, hj, hfl, hkey⟩ := hr
  unfold Channel.transitRx
  dsimp only
  rw [htake]
  dsimp only
  rw [ht]
  dsimp only
  rw [hj]
  exact if_pos ((Bool.and_eq_true _ _).mpr ⟨hfl, hkey⟩)

theorem transitRx_sealed {j k : ℕ} (hr : Renews (c.bwRx p (bs.length + 4)) ((parsePkt bs).payload bs) j)
    (ha : (c.bwRx p (bs.length + 4)).ptpAuth ((parsePkt bs).payload bs) = .ok k) :
    c.transitRx p ps f bs = (c.bwRx p (bs.length + 4)).passesOn p ps f bs (some k) := by
  rw [transitRx_renews ps f h hr, ha]
  rfl

theorem transitRx_failed {j : ℕ} (hr : Renews (c.bwRx p (bs.length + 4)) ((parsePkt bs).payload bs) j)
    (ha : (c.bwRx p (bs.length + 4)).ptpAuth ((parsePkt bs).payload bs) = .fail) : c.transitRx p ps f bs = (c.bwRx p (bs.length + 4)).authFail := by
  rw [transitRx_renews ps f h hr, ha]
  rfl

end
end

theorem takes_transit {c : Channel} {p : PortIx} {bs m : Bytes} : Takes c p bs (transitClass m) ↔ c.portUp p = true ∧
    bs.length + 4 ≤ c.fld (F.PORT_P_CFG_MAXF p.val) ∧ c.classify p (parsePkt bs) bs = .transit ∧ Channel.transitOk m = true := by
  simp [Takes, transitClass]

end Sys2Proof.Machine

namespace Sys2Proof
open Sys2Proof.Machine

/-- Settles O44, message by message; a transit frame by what the channel can do with its authentication. -/
theorem masterMessagesReachTheLane : Obligations.MasterMessagesReachTheLane := by
  intro s c p ps f bs m x hl ch takes st ts l n mine fr small Sync Fup DResp PResp Ann Tr heard completes
  have sync : ∀ {P : Channel → Prop}, P (ch.syncRx p ps f bs) → ActsOn Sync s c P := actsOn_intro (fun d => d.syncRx p ps f bs) hl rfl rfl
  have fup : ∀ {P : Channel → Prop}, P (ch.followUpRx p bs) → ActsOn Fup s c P := actsOn_intro (fun d => d.followUpRx p bs) hl rfl rfl
  have dresp : ∀ {P : Channel → Prop}, P (ch.delayRespRx p bs) → ActsOn DResp s c P := actsOn_intro (fun d => d.delayRespRx p bs) hl rfl rfl
  have presp : ∀ {P : Channel → Prop}, P (ch.pdelayRespRx p ps f bs) → ActsOn PResp s c P := actsOn_intro (fun d => d.pdelayRespRx p ps f bs) hl rfl rfl
  have ann : ∀ {P : Channel → Prop}, P (ch.announceRx p bs) → ActsOn Ann s c P := actsOn_intro (fun d => d.announceRx p bs) hl rfl rfl
  have transit : ∀ {P : Channel → Prop}, P (ch.transitRx p ps f bs) → ActsOn Tr s c P := actsOn_intro (fun d => d.transitRx p ps f bs) hl rfl rfl
  have hheard : heard = l.heard (ptpLog m) := rfl
  have pairs : ∀ {i : Instr} {ty : ℕ} {h : LaneClient} {d : Channel} {t1 t2 : Gt} {k : Int} {seq : ℕ} {tlv : Option (Bound × Word)}, takes ty → LcIs x p h d →
      h.mpd = l.mpd → (∀ {P : Channel → Prop}, P (d.ptpRecord p t1 t2 k seq tlv) → ActsOn i s c P) → completes i h t1 t2 := by
    intro i ty h d t1 t2 k seq tlv htk hd hm act
    refine ⟨fun hno => act ?_, fun mpd hmpd he => act ?_⟩
    · rw [ptpRecord_unmeasured hd (hno.imp_left hm.trans)]
      exact ⟨updLc_small htk _, rfl⟩
    · obtain ⟨hpairs, hpend, hmeas⟩ := ptpRecord_measured (t1 := t1) (t2 := t2) (k := k) (seq := seq) (tlv := tlv) hd (hm.trans hmpd) he
      have hx : fr x := Channel.onlyIn_mono rfl (laneTake_small htk)
      exact ⟨on_ptpRecord p t1 t2 k seq tlv rfl (Channel.onlyIn_trans hx (Channel.onlyIn_mono rfl hd.only)), hpairs, hpend, hmeas⟩
  have untaken : ∀ {ty : ℕ} {b : Channel}, ch.laneTake p bs ty = (none, b) → small b := fun {ty b} hb => by
    have hon := laneTake_only ch p bs ty
    rw [hb] at hon
    exact Channel.onlyIn_mono rfl hon
  refine ⟨fun r hr hnone => ?_, fun htk htwo => sync ?_, fun htk hone => ?_, fun z htk hz hq => ?_, fun htk hz => fup (followUpRx_other htk hz),
    fun t3 htk hd hm => ⟨fun pr hpr => dresp ?_, fun hpr => dresp ?_⟩, fun htk hd => dresp (delayRespRx_other htk hd),
    fun t1 htk hd hm => ⟨fun htwo => presp ?_, fun hone => presp ?_⟩, fun htk hd => presp (pdelayRespRx_other ps f htk hd),
    fun b hb htk => ⟨fun t1 t2 t4 hd hm => presp ?_, fun hd => presp (pdelayFollowUp_other ps f hb htk hd)⟩, fun b hb hnone => presp ?_,
    fun htk hfl hsel => ann ?_, fun htk hno => ann ?_, ?_⟩
  · have hon := laneTake_only ch p bs r.2
    obtain ⟨hs, hf, hd, ha⟩ := messages_untaken (c := ch) (p := p) (bs := bs) ps f
    simp only [List.mem_cons, List.not_mem_nil, or_false] at hr
    rcases hr with rfl | rfl | rfl | rfl
    · exact sync ⟨hs hnone, by rw [hs hnone]; exact hon⟩
    · exact fup ⟨hf hnone, by rw [hf hnone]; exact hon⟩
    · exact dresp ⟨hd hnone, by rw [hd hnone]; exact hon⟩
    · exact ann ⟨ha hnone, by rw [ha hnone]; exact hon⟩
  · rw [syncRx_took ps f htk, if_pos htwo, (hears_lcIs x p (ptpLog m)).upd]
    exact ⟨updLc_small htk _, rfl⟩
  · have hrow := (syncRx_took ps f htk).trans (if_neg (by rw [hone]; decide))
    exact pairs htk (hears_lcIs x p (ptpLog m)) (heard_mpd l _) (fun {P} hP => sync (hrow ▸ hP))
  · exact pairs htk (LcIs.refl x p) rfl (fun {P} hP => fup (followUpRx_fits htk hz hq ▸ hP))
  · rw [delayRespRx_fits htk hd hm, hpr]
    exact ⟨updLc_small htk _, rfl⟩
  · rw [delayRespRx_fits htk hd hm, hpr]
    exact ⟨updLc_small htk _, rfl⟩
  · rw [pdelayRespRx_fits ps f htk hd hm, if_pos htwo]
    exact ⟨updLc_small htk _, rfl⟩
  · rw [pdelayRespRx_fits ps f htk hd hm, if_neg (by rw [hone]; decide)]
    exact ⟨updLc_small htk _, rfl⟩
  · rw [pdelayFollowUp_fits ps f hb htk hd hm]
    exact ⟨Channel.onlyIn_trans (untaken hb) (updLc_small htk _), rfl⟩
  · rw [pdelayFollowUp_none ps f hb hnone]
    exact ⟨Channel.onlyIn_trans (untaken hb) (Channel.onlyIn_mono rfl (laneTake_only b p bs _)), rfl⟩
  · have hon : Channel.onlyIn [.dpll, .scale, .sealb, .pmu, .asks] ch (ch.announceRx p bs) := on_announceRx p bs rfl (Channel.onlyIn_refl _ ch)
    refine ⟨hon, ?_⟩
    rw [announceRx_took htk]
    exact if_neg (by rw [hfl, hsel]; simp [n])
  · rw [announceRx_took htk]
    refine if_pos ?_
    rcases hno with hfl | hsel
    · rw [hfl]; rfl
    · rw [bne_iff_ne.mpr hsel, Bool.or_true]
  · intro k w b goes event auth renews onward
    have hgoes : goes ↔ Takes ch p bs (transitClass w) := takes_transit.symm
    have passes : ∀ sa, onward b (b.sealWith sa).1 (b.passesOn p ps f bs sa) := fun sa =>
      ⟨on_submit _ _ _ rfl (on_bwRx p _ rfl (Channel.onlyIn_refl _ ch)), transitFrame b p ps f bs (b.sealWith sa), rfl, rfl, rfl, rfl⟩
    refine ⟨fun hno => transit (transitRx_idle ps f fun h => hno (hgoes.mpr h)), fun hgo hauth => transit ?_, fun hgo hauth hno htnk => transit ?_,
      fun j j' hgo hr hok => transit ?_, fun j hgo hr hfail => transit ?_⟩
    · have hplain : ch.transitRx p ps f bs = b.passesOn p ps f bs none := by
        by_cases hnone : auth = none
        · exact transitRx_plain ps f (hgoes.mp hgo) hnone
        · obtain ⟨hno, htnk⟩ := hauth.resolve_left hnone
          exact (transitRx_unknown ps f (hgoes.mp hgo) hnone hno).trans (if_neg htnk)
      rw [hplain]
      exact passes none
    · rw [(transitRx_unknown ps f (hgoes.mp hgo) hauth hno).trans (if_pos htnk)]
      exact ⟨on_bump _ rfl (on_bwRx p _ rfl (Channel.onlyIn_refl _ ch)), rfl⟩
    · rw [transitRx_sealed ps f (hgoes.mp hgo) hr hok]
      exact passes (some j')
    · rw [transitRx_failed ps f (hgoes.mp hgo) hr hfail]
      exact ⟨on_authFail rfl (on_bwRx p _ rfl (Channel.onlyIn_refl _ ch)), rfl⟩

end Sys2Proof
end

section
/-! The free values that a channel draws, where no counter counts its journal (R406, R407, R412). A counter that wraps with its samples on draws one. -/
namespace Sys2Proof.Machine

/-- The event counters of `d` are configured as those of `c`. -/
def CfgSame (c d : Channel) : Prop := ∀ k, d.word .pmu (PMU_PMC_CFG k) = c.word .pmu (PMU_PMC_CFG k)

/-- No event counter counts journal entries or measurements. -/
def NoJourCount (c : Channel) : Prop := ∀ k, k < 16 → c.pmcCounts 0x20 none k = false ∧ c.pmcCounts 0x21 none k = false

/-- From `c` to `d` the event counters keep their configuration, and no free value is drawn unless one counts the journal. -/
structure Calm (c d : Channel) : Prop where
  cfg : CfgSame c d
  free : NoJourCount c → d.freeCtr = c.freeCtr

section
variable {c d e : Channel}

theorem CfgSame.trans (h : CfgSame c d) (g : CfgSame d e) : CfgSame c e := fun k => (g k).trans (h k)

theorem CfgSame.counts (h : CfgSame c d) (ev : ℕ) (port : Option PortIx) (k : ℕ) : d.pmcCounts ev port k = c.pmcCounts ev port k := by
  have hfld : ∀ f : KF, f.sh = false → f.blk = .pmu → f.off = PMU_PMC_CFG k → d.fld f = c.fld f := fun f hs hb ho => by
    unfold Channel.fld
    rw [if_neg (by rw [hs]; decide), if_neg (by rw [hs]; decide), hb, ho, h k]
  unfold Channel.pmcCounts Channel.flag
  rw [hfld (F.PMU_PMC_CFG_EN k) rfl rfl rfl, hfld (F.PMU_PMC_CFG_EVSEL k) rfl rfl rfl, hfld (F.PMU_PMC_CFG_PFILT k) rfl rfl rfl]

theorem CfgSame.noJour (h : CfgSame c d) : NoJourCount d ↔ NoJourCount c := by
  unfold NoJourCount
  simp only [h.counts]

theorem Calm.refl (c : Channel) : Calm c c := ⟨fun _ => rfl, fun _ => rfl⟩
theorem Calm.trans (h : Calm c d) (g : Calm d e) : Calm c e := ⟨h.cfg.trans g.cfg, fun hn => (g.free (h.cfg.noJour.mpr hn)).trans (h.free hn)⟩

/-- Two channels that come calmly to the same one have drawn as many free values. -/
theorem Calm.free_eq (h : Calm c e) (g : Calm d e) (hn : NoJourCount c) : c.freeCtr = d.freeCtr :=
  (h.free hn).symm.trans (g.free (g.cfg.noJour.mp (h.cfg.noJour.mpr hn)))

/-- What leaves PMU and draws nothing. -/
theorem Calm.of_onlyIn {L : List ChPart} (h : Channel.onlyIn L c d) (hp : ChPart.pmu ∉ L) (hf : ChPart.free ∉ L) : Calm c d := by
  have hrf : d.rf .pmu = c.rf .pmu := rf_of_onlyIn h hp
  refine ⟨fun k => ?_, fun _ => h.2.2.2.2 .free hf⟩
  unfold Channel.word
  rw [hrf]

/-- What leaves the registers and draws nothing. -/
theorem Calm.of_regs (hr : d.regs = c.regs) (hf : d.freeCtr = c.freeCtr) : Calm c d := ⟨fun _ => word_of_regs hr .pmu _, fun _ => hf⟩

end

/-! ### Events counted -/

theorem pmcCfg_ne (j k : ℕ) : PMU_PMC_LO k ≠ PMU_PMC_CFG j ∧ PMU_PMC_HI k ≠ PMU_PMC_CFG j ∧ PMU_OVF ≠ PMU_PMC_CFG j ∧ PMU_EVT ≠ PMU_PMC_CFG j := by
  unfold PMU_PMC_LO PMU_PMC_HI PMU_PMC_CFG PMU_OVF PMU_EVT
  omega

theorem cfgSame_putPmc (c : Channel) (k v : ℕ) : CfgSame c (c.putPmc k v) := fun j => by
  obtain ⟨hlo, hhi, -, -⟩ := pmcCfg_ne j k
  unfold Channel.putPmc
  rw [word_put_ne _ _ _ _ _ (.inr hhi), word_put_ne _ _ _ _ _ (.inr hlo)]

theorem cfgSame_overflow (c : Channel) (k : ℕ) : CfgSame c ((c.evtMask .pmu PMU_OVF (2 ^ k)).evt F.PMU_EVT_OVF) := fun j => by
  obtain ⟨-, -, hovf, hevt⟩ := pmcCfg_ne j k
  rw [Channel.word_evt_ne _ _ _ _ (.inr hevt)]
  exact Channel.word_evt_ne c ⟨.pmu, PMU_OVF, k, 1, false⟩ _ _ (.inr hovf)

/-- A free value drawn, and a change of the PMU's own state, leave the registers. -/
theorem cfgSame_draw (c : Channel) (w : ℕ) (x : PmuBlk) : CfgSame c ((c.free w).2.setPmu x) := fun _ => word_of_regs rfl .pmu _

theorem cfgSame_pmcAdd (n k : ℕ) (c : Channel) : CfgSame c (c.pmcAdd n k) := by
  have hput := cfgSame_putPmc c k ((c.pmc k + n) % 2 ^ 48)
  have hovf := hput.trans (cfgSame_overflow (c.putPmc k ((c.pmc k + n) % 2 ^ 48)) k)
  unfold Channel.pmcAdd
  dsimp only
  split
  · exact hput
  split
  · exact hovf.trans (cfgSame_draw _ 2 _)
  · exact hovf

theorem cfgSame_pmuBy (c : Channel) (ev : ℕ) (port : Option PortIx) (n : ℕ) : CfgSame c (c.pmuBy ev port n) := by
  have hfold : ∀ (l : List ℕ) (d : Channel), CfgSame d (l.foldl (fun c k => c.pmcAdd n k) d) := fun l => by
    induction l with
    | nil => exact fun d _ => rfl
    | cons k l ih => exact fun d => (cfgSame_pmcAdd n k d).trans (ih _)
  unfold Channel.pmuBy
  split
  · exact fun _ => rfl
  · exact hfold _ c

/-- An event that no counter counts has no effect. -/
theorem pmuBy_uncounted {c : Channel} {ev : ℕ} (n : ℕ) (h : ∀ k, k < 16 → c.pmcCounts ev none k = false) : c.pmuBy ev none n = c := by
  have hnone : (upTo 16).filter (c.pmcCounts ev none) = [] := List.filter_eq_nil_iff.mpr fun k hk => by
    rw [h k (List.mem_range.mp hk)]
    decide
  unfold Channel.pmuBy
  rw [hnone]
  exact ite_self c

theorem calm_pmuJour (c : Channel) : Calm c (c.pmuBy 0x20 none 1) :=
  ⟨cfgSame_pmuBy c _ _ _, fun h => by rw [pmuBy_uncounted 1 fun k hk => (h k hk).1]⟩

theorem calm_pmuMeas (c : Channel) : Calm c (c.pmuBy 0x21 none 1) :=
  ⟨cfgSame_pmuBy c _ _ _, fun h => by rw [pmuBy_uncounted 1 fun k hk => (h k hk).2]⟩

/-! ### What a channel settles -/

theorem calm_sendQl (c : Channel) (p : PortIx) (event : Bool) : Calm c (c.sendQl p event) := by
  have hbw : Calm c (c.bwTx p 64) := by
    unfold Channel.bwTx Channel.bwAdd
    split
    · exact Calm.refl c
    · exact Calm.of_regs rfl rfl
  exact hbw.trans (Calm.of_regs rfl rfl)

theorem calm_esmcEvent (c : Channel) (p : PortIx) : Calm c (Channel.esmcEvent p c) := by
  unfold Channel.esmcEvent
  split
  · split
    · exact Calm.of_regs rfl rfl
    split
    · exact Calm.refl c
    · exact calm_sendQl c p true
  · exact Calm.refl c

theorem calm_txClamp (old c : Channel) (p : PortIx) : Calm c (Channel.txClamp old p c) :=
  Calm.of_onlyIn (on_txClamp (L := [.port, .asks]) old p rfl (Channel.onlyIn_refl _ c)) (by decide) (by decide)

theorem calm_portSettle (old c : Channel) : Calm c (Channel.portSettle old c) :=
  (((calm_txClamp old c 0).trans (calm_txClamp old _ 1)).trans (calm_esmcEvent _ 0)).trans (calm_esmcEvent _ 1)

theorem flushPort_empty {c : Channel} {p : PortIx} (b : Bool) (h : (c.sp p).queues = []) : c.flushPort b p = c := by
  unfold Channel.flushPort
  rw [h]
  rfl

theorem calm_runSettle {c : Channel} (h : ∀ p, (c.sp p).queues = []) : Calm c c.runSettle := by
  have hon : Channel.onlyIn [.sealb, .asks] c ((c.put F.SEAL_CTL_RUN (b2n c.runOk)).evt F.SEAL_EVT_CLAIM) :=
    on_evt _ rfl rfl (on_put _ _ rfl (Channel.onlyIn_refl _ c))
  have hrun : Calm c ((c.put F.SEAL_CTL_RUN (b2n c.runOk)).evt F.SEAL_EVT_CLAIM) := Calm.of_onlyIn hon (by decide) (by decide)
  have hsched : ∀ p, (((c.put F.SEAL_CTL_RUN (b2n c.runOk)).evt F.SEAL_EVT_CLAIM).sp p).queues = [] := fun p => by
    unfold Channel.sp at h ⊢
    rw [(hon.2.2.2.2 .sched (by decide)).1]
    exact h p
  unfold Channel.runSettle
  dsimp only
  split
  · exact Calm.refl c
  split
  · exact hrun
  · rw [flushPort_empty true (hsched 0), flushPort_empty true (hsched 1)]
    exact hrun

/-- A channel whose queues are empty settles without drawing a free value. -/
theorem calm_settle (old : Channel) {c : Channel} (h : ∀ p, (c.sp p).queues = []) : Calm c (Channel.settle old c) := by
  have hsyn : Channel.onlyIn [.syn, .asks] c (Channel.synSettle old c) := on_synSettle old rfl (Channel.onlyIn_refl _ c)
  have hport : Channel.onlyIn [.syn, .port, .pmu, .asks] c (Channel.portSettle old (Channel.synSettle old c)) :=
    on_portSettle old rfl (Channel.onlyIn_mono rfl hsyn)
  have hq : ∀ p, ((Channel.portSettle old (Channel.synSettle old c)).sp p).queues = [] := fun p => by
    unfold Channel.sp at h ⊢
    rw [(hport.2.2.2.2 .sched (by decide)).1]
    exact h p
  have hepi : ∀ d : Channel, Calm d d.epiSettle := fun d =>
    Calm.of_onlyIn (on_epiSettle (L := [.epi, .asks]) rfl (Channel.onlyIn_refl _ d)) (by decide) (by decide)
  exact (((Calm.of_onlyIn hsyn (by decide) (by decide)).trans (calm_portSettle old _)).trans (calm_runSettle hq)).trans (hepi _)

end Sys2Proof.Machine
end

section
/-! What follows a command leaves of a channel's free values, in a unit that neither streams nor enters the safe state at a fault (R268, R364). -/
namespace Sys2Proof.Machine

/-- The registers that say whether a fault enters the safe state, and whether the unit streams. -/
def ModeWord (b : CB) (off : ℕ) : Prop := b = .fault ∧ off = 0x4 ∨ b = .twin ∧ off = TWIN_STAT

/-- A unit that is not ACTIVE, and whose faults do not enter the safe state. -/
def Placid (s : State) : Prop := s.gcur F.FAULT_CFG_CHIP_ACT ≠ 1 ∧ s.twst ≠ TW_ACTIVE

/-- From `s` to `t` channel `n` draws no free value but for its journal, and the twin and the mode registers are as they were. -/
structure Tame (n : ChanIx) (s t : State) : Prop where
  ch : Calm s.ch[n] t.ch[n]
  twin : t.twin = s.twin
  word : ∀ b off, ModeWord b off → t.gword b off = s.gword b off

section
variable {n : ChanIx} {s t u : State}

theorem Tame.refl (n : ChanIx) (s : State) : Tame n s s := ⟨Calm.refl _, rfl, fun _ _ _ => rfl⟩
theorem Tame.trans (h : Tame n s t) (g : Tame n t u) : Tame n s u :=
  ⟨h.ch.trans g.ch, g.twin.trans h.twin, fun b off hm => (g.word b off hm).trans (h.word b off hm)⟩

theorem Tame.of_marked (h : Marked ModeWord s t) : Tame n s t := ⟨by rw [h.ch]; exact Calm.refl _, h.twin, h.word⟩

theorem Tame.of_onlyIn {L : List StPart} (h : State.onlyIn L s t) (hc : StPart.ch ∉ L) (ht : StPart.twin ∉ L) (hf : StPart.fault ∉ L) : Tame n s t := by
  have hch : t.ch = s.ch := h.2.2.2 .ch hc
  refine ⟨by rw [hch]; exact Calm.refl _, (h.2.2.2 .twin ht).1, fun b off hm => ?_⟩
  rcases hm with ⟨rfl, -⟩ | ⟨rfl, -⟩
  · exact State.onlyIn_gword h .fault off hf
  · exact State.onlyIn_gword h .twin off ht

/-- A change of the fault block's own state. -/
theorem Tame.of_fault (s : State) (f : FaultSt) : Tame n s { s with fault := f } := ⟨Calm.refl _, rfl, fun _ _ _ => rfl⟩

theorem Tame.placid (h : Tame n s t) (hp : Placid s) : Placid t := by
  have hcur : ∀ f : GF, ModeWord f.blk f.off → t.gcur f = s.gcur f := fun f hm => by
    unfold State.gcur
    rw [h.word _ _ hm]
  obtain ⟨hchip, htw⟩ := hp
  exact ⟨by rw [hcur _ (.inl ⟨rfl, rfl⟩)]; exact hchip, by unfold State.twst; rw [hcur _ (.inr ⟨rfl, rfl⟩)]; exact htw⟩

/-- Steps that are tame on placid states, one after another. -/
theorem Tame.fold {α : Type} {g : State → α → State} (l : List α) (hp : Placid s) (hg : ∀ y, ∀ a ∈ l, Placid y → Tame n y (g y a)) : Tame n s (l.foldl g s) := by
  induction l generalizing s with
  | nil => exact Tame.refl n s
  | cons a l ih =>
    have hstep := hg s a List.mem_cons_self hp
    exact hstep.trans (ih (hstep.placid hp) fun y b hb => hg y b (List.mem_cons_of_mem _ hb))

theorem Placid.streaming (hp : Placid s) : s.streaming = false := by
  unfold State.streaming
  rw [beq_eq_false_iff_ne.mpr hp.2, Bool.false_and]

/-! ### Detections (R363, R364) -/

theorem modeWord_hostif (off : ℕ) : ¬ ModeWord .hostif off := by rintro (⟨h, -⟩ | ⟨h, -⟩) <;> exact absurd h (by decide)

theorem tame_msix (s : State) (v : ℕ) : Tame n s (s.msix v) := .of_marked (mk_msix s v modeWord_hostif)

/-- A field of the fault block above its configuration is no mode register. -/
theorem modeWord_fault {off o : ℕ} (h : 0x4 < off) (hm : ModeWord .fault o) : off ≠ o := by
  rcases hm with ⟨-, rfl⟩ | ⟨hb, -⟩
  · exact Nat.ne_of_gt h
  · exact absurd hb (by decide)

theorem tame_faultPut (s : State) (f : GF) (v : ℕ) (hb : f.blk = .fault) (ho : 0x4 < f.off) : Tame n s (s.gput f v) :=
  .of_marked (mk_gput s f v fun _ hm => modeWord_fault ho (hb ▸ hm))

theorem tame_faultEvt (s : State) (f : GF) (hb : f.blk = .fault) (ho : 0x4 < f.off) : Tame n s (s.gevt f) :=
  .of_marked (mk_gevt s f modeWord_hostif fun _ hm => modeWord_fault ho (hb ▸ hm))

theorem tame_firstFault (s : State) (k : ℕ) (inj : Bool) : Tame n s (s.firstFault k inj) := by
  unfold State.firstFault
  split
  · exact Tame.refl n s
  · exact ((tame_faultEvt s _ rfl (by decide)).trans (tame_faultPut _ _ _ rfl (by decide))).trans (tame_faultPut _ _ _ rfl (by decide))

theorem tame_holdErrN (s : State) (k : ℕ) (inj : Bool) : Tame n s (s.holdErrN k inj) := by
  unfold State.holdErrN
  dsimp only
  split <;> exact Tame.of_fault s _

theorem tame_blockDue (s : State) (k : ℕ) (old new : Word) : Tame n s (s.blockDue k old new) := by
  unfold State.blockDue
  split
  · exact Tame.refl n s
  · exact Tame.of_fault s _

theorem tame_nmi (s : State) (k : ℕ) : Tame n s ((if s.gflag F.FAULT_NMI_STAT_PEND then s.gevt F.FAULT_NMI_STAT_PEND
    else (s.gevt F.FAULT_NMI_STAT_PEND).gput F.FAULT_NMI_STAT_SRC k).msix 1) := by
  refine Tame.trans ?_ (tame_msix _ 1)
  split
  · exact tame_faultEvt s _ rfl (by decide)
  · exact (tame_faultEvt s _ rfl (by decide)).trans (tame_faultPut _ _ _ rfl (by decide))

theorem Tame.ite {a b : State} {q : Prop} [Decidable q] (ha : Tame n s a) (hb : Tame n s b) : Tame n s (if q then a else b) := by
  split <;> assumption

theorem tame_takeReact (k mask : ℕ) (inj : Bool) (old : Word) (hp : Placid s) : Tame n s (s.takeReact k mask inj old) := by
  unfold State.takeReact
  extract_lets has vec s1 s2 s3 s4 s5
  have h1 : Tame n s s1 := .ite (tame_msix s vec) (Tame.refl n s)
  have h2 : Tame n s s2 := h1.trans (.ite (tame_nmi s1 k) (Tame.refl n s1))
  have h3 : Tame n s s3 := h2.trans (.ite (tame_holdErrN s2 k inj) (Tame.refl n s2))
  have hchip : ¬ (has 3 && s3.gfld F.FAULT_CFG_CHIP_ACT == 1) = true := fun h =>
    (h3.placid hp).1 (beq_iff_eq.mp ((Bool.and_eq_true _ _).mp h).2)
  have h4 : s4 = s3 := if_neg hchip
  rw [h4]
  refine .ite h3 ?_
  have h5 : Tame n s s5 := (show Tame n s s4 from h4 ▸ h3).trans (.ite (tame_blockDue s4 k old _) (Tame.refl n s4))
  exact .ite (h5.trans (Tame.of_fault s5 _)) h5

theorem tame_updTally (s : State) (f : TallyRec → TallyRec) : Tame n s (s.updTally f) :=
  .of_onlyIn (in_updTally f rfl (State.onlyIn_refl [.tally] s)) (by decide) (by decide) (by decide)

theorem tame_detectAbsent (s : State) (k : ℕ) : Tame n s (s.detectAbsent k) := by
  unfold State.detectAbsent
  split
  · exact .ite (Tame.refl n s) (.of_onlyIn (in_reqAbsent _ rfl (State.onlyIn_refl [.image] s)) (by decide) (by decide) (by decide))
  · exact Tame.refl n s

/-- A detection on a source other than FS0 records, and asks for its reactions. -/
theorem tame_detect {k : ℕ} (hk : k ≠ 0) (hp : Placid s) : Tame n s (s.detect k) := by
  unfold State.detect
  refine .ite (tame_detectAbsent s k) ?_
  extract_lets old s1 s2 s3 s4
  have h1 : Tame n s s1 := tame_updTally s _
  have h2 : Tame n s s2 := ((h1.trans (tame_faultEvt s1 _ rfl (by show 0x4 < 0x2000 + 0x4 * k; omega))).trans
    (tame_faultPut _ _ _ rfl (by show 0x4 < 0x2000 + 0x4 * k; omega))).trans (tame_firstFault _ k false)
  have h3 : Tame n s s3 := h2.trans (.ite (.of_onlyIn (in_gevt F.PWR_EVT_TJ rfl rfl (State.onlyIn_refl [.pwr, .hostif, .out] s2)) (by decide) (by decide) (by decide))
    (Tame.refl n s2))
  have h4 : Tame n s s4 := h3.trans (.ite (Tame.refl n s3) (tame_takeReact k _ false old (h3.placid hp)))
  rw [if_neg hk]
  exact h4

/-! ### What a channel asks of the common complex -/

theorem tame_setCh (s : State) (m : ChanIx) {c : Channel} (h : Calm s.ch[m] c) : Tame n s (s.setCh m c) := by
  refine ⟨?_, rfl, fun _ _ _ => rfl⟩
  by_cases e : m = n
  · subst e
    rw [setCh_ch_self]
    exact h
  · rw [setCh_ch_ne s c e]
    exact Calm.refl _

theorem tame_doEff (m : ChanIx) (e : Eff) (hp : Placid s) : Tame n s (s.doEff m e) := by
  have emits : ∀ o, Tame n s (s.emit o) := fun o => .of_marked (mk_emit s o)
  unfold State.doEff
  cases e with
  | book => exact Tame.refl n s
  | fault i => exact tame_detect (by omega) hp
  | event b off mask => exact Tame.fold _ hp fun y k _ _ => .ite (tame_msix y _) (Tame.refl n y)
  | jour e =>
    dsimp only
    have hcalm : ∀ c : Channel, Calm s.ch[m] c → Tame n s ((s.setCh m c).streamJour m e) := fun c hc => by
      have hset : Tame n s (s.setCh m c) := tame_setCh s m hc
      unfold State.streamJour
      rw [(hset.placid hp).streaming]
      exact hset
    refine hcalm _ ?_
    cases e.body with
    | meas => exact (calm_pmuJour _).trans (calm_pmuMeas _)
    | _ => exact calm_pmuJour _
  | opEnd slot res rd => exact .of_onlyIn (in_endCmd slot res rd rfl (State.onlyIn_refl [.hostif, .cmdq, .out] s)) (by decide) (by decide) (by decide)
  | topo => exact .of_onlyIn (in_gevt F.BENCH_EVT_TOPO rfl rfl (State.onlyIn_refl [.bench, .hostif, .out] s)) (by decide) (by decide) (by decide)
  | keys => exact tame_setCh s m (Calm.of_regs rfl rfl)
  | client ix =>
    dsimp only
    unfold State.streamClient
    rw [hp.streaming]
    exact Tame.refl n s
  | outage => exact tame_updTally s _
  | holdover => exact tame_updTally s _
  | chanEvent => exact emits _
  | edge => exact emits _
  | todBytes => exact emits _
  | backMsg => exact emits _
  | frame => exact emits _
  | esmc => exact emits _
  | bench => exact emits _

theorem tame_drainOnce (hp : Placid s) : Tame n s s.drainOnce := by
  unfold State.drainOnce
  extract_lets asked s1 s2
  have h1 : Tame n s s1 := Tame.fold _ hp fun y m _ _ => tame_setCh y m (Calm.of_regs rfl rfl)
  have h2 : Tame n s s2 := h1.trans (.of_onlyIn (in_bookAll _ rfl (State.onlyIn_refl [.book] s1)) (by decide) (by decide) (by decide))
  exact h2.trans (Tame.fold _ (h2.placid hp) fun y e _ hy => tame_doEff e.1 e.2 hy)

theorem tame_drain (hp : Placid s) : Tame n s s.drain := by
  have hiter : ∀ (k : ℕ) (y : State), Placid y → Tame n y (iter State.drainOnce k y) := fun k => by
    induction k with
    | zero => exact fun y _ => Tame.refl n y
    | succ k ih => exact fun y hy => (tame_drainOnce hy).trans (ih _ ((tame_drainOnce (n := n) hy).placid hy))
  exact hiter 4 s hp

theorem tame_wearCheck (old : State) (hp : Placid s) : Tame n s (State.wearCheck old s) :=
  Tame.fold _ hp fun y _ _ hy => .ite (tame_detect (by decide) hy) (Tame.refl n y)

/-! ### What the twin settles -/

/-- An unpaired unit without a racking in progress settles its readings alone. -/
theorem twinSettle_quiet (hpair : s.paired = false) (hrack : s.twin.rack = none) (hp : Placid s) : s.twinSettle.ch = s.ch ∧ Placid s.twinSettle := by
  have hclaim : s.effClaim = 0 := if_pos (by rw [hpair, Bool.not_false, Bool.or_true])
  have hhold : s.holdDrive.ch = s.ch ∧ s.holdDrive.regs = s.regs := by
    have hbad : (s.gflag F.TWIN_STAT_CLAIM_BAD && s.effClaim != 0) = false := by rw [hclaim]; exact Bool.and_false _
    unfold State.holdDrive
    dsimp only
    rw [hbad]
    simp only [Bool.false_and, Bool.false_eq_true, if_false]
    split
    · exact ⟨rfl, rfl⟩
    · exact ⟨rfl, rfl⟩
  have hdrill : s.drillRecords = s := by unfold State.drillRecords; rw [hrack]
  have heq : s.twinSettle = ((s.holdDrive.gput F.TWIN_STAT_READY s.holdDrive.readyBits).gput F.TWIN_STAT_FEEDS_OK (b2n s.holdDrive.feedsOk)).gput F.TWIN_CLAIM_CLAIM
      s.holdDrive.effClaim := by
    unfold State.twinSettle
    dsimp only
    rw [hpair, Bool.and_false, Bool.false_and, if_neg Bool.false_ne_true, if_neg (by rw [hrack]; simp), hdrill]
  have hcur : ∀ f : GF, s.holdDrive.gcur f = s.gcur f := fun f => by
    unfold State.gcur
    rw [gword_of_regs hhold.2]
  rw [heq]
  refine ⟨hhold.1, ?_, ?_⟩
  · rw [gcur_gput_off _ _ _ _ (.inl (by decide)), gcur_gput_off _ _ _ _ (.inl (by decide)), gcur_gput_off _ _ _ _ (.inl (by decide)), hcur]
    exact hp.1
  · unfold State.twst
    rw [gcur_gput_off _ _ _ _ (.inr (by decide)), gcur_gput_ne _ _ _ _ (by decide) (.inr (.inr (.inl (by decide)))),
      gcur_gput_ne _ _ _ _ (by decide) (.inr (.inr (.inl (by decide)))), hcur]
    exact hp.2

/-- What follows a command in such a unit draws no free value of a channel that does not count its journal. -/
theorem calm_follow (old : State) (n : ChanIx) {u : State} (hpair : u.paired = false) (hrack : u.twin.rack = none) (hp : Placid u) :
    Calm u.ch[n] (State.follow old u).ch[n] := by
  have hdrain : Tame n u u.drain := tame_drain hp
  have hpair' : u.drain.paired = false := by
    unfold State.paired at hpair ⊢
    rw [hdrain.twin]
    exact hpair
  obtain ⟨hch, hsettled⟩ := twinSettle_quiet hpair' (by rw [hdrain.twin]; exact hrack) (hdrain.placid hp)
  have hagain : Tame n u.drain.twinSettle u.drain.twinSettle.drain := tame_drain hsettled
  have hwear := tame_wearCheck (n := n) old (hagain.placid hsettled)
  have hlast : Tame n _ (State.follow old u) := tame_drain (hwear.placid (hagain.placid hsettled))
  have hrest := (hagain.trans hwear).trans hlast
  exact hdrain.ch.trans (by have := hrest.ch; rwa [hch] at this)

end

end Sys2Proof.Machine
end

section
/-! A frame dropped for want of the right to commit, in a channel whose event counter wraps at it (R174, R228, R406, R412). -/
namespace Sys2Proof.Machine

section
variable {c : Channel} {p : PortIx} {bs : Bytes}

/-- A request counted and dropped for want of the right to commit (R228). -/
def Channel.noClaim (c : Channel) (p : PortIx) (len : ℕ) : Channel := ((c.bwRx p len).pmuEvt 0x10 p).bump F.SEAL_CNT2_NOCLAIM

theorem noClaim_only (c : Channel) (p : PortIx) (len : ℕ) : Channel.onlyIn [.sealb, .pmu, .free, .asks] c (c.noClaim p len) :=
  on_bump _ rfl (on_pmuEvt _ p rfl (on_bwRx p len rfl (Channel.onlyIn_refl _ c)))

theorem run_counted (c : Channel) (p : PortIx) (len : ℕ) : ((c.bwRx p len).pmuEvt 0x10 p).run = c.run := by
  have hon : Channel.onlyIn [.pmu, .free, .asks] c ((c.bwRx p len).pmuEvt 0x10 p) := on_pmuEvt _ p rfl (on_bwRx p len rfl (Channel.onlyIn_refl _ c))
  unfold Channel.run
  rw [cur_of_onlyIn hon (by decide)]

theorem exceptionRx_noClaim (h : Takes c p bs (· == .exc)) (hrun : c.run = false) : c.exceptionRx p bs = c.noClaim p (bs.length + 4) := by
  have hgate : (c.bwRx p (bs.length + 4)).requestGate p (parsePkt bs) (bs.length + 4) none false false = (none, c.noClaim p (bs.length + 4)) :=
    if_pos (by rw [run_counted, hrun]; rfl)
  unfold Channel.exceptionRx
  rw [rxTake_takes h]
  dsimp only
  rw [hgate]

theorem cfgSame_noClaim (c : Channel) (p : PortIx) (len : ℕ) : CfgSame c (c.noClaim p len) := by
  have hbw : CfgSame c (c.bwRx p len) := by
    unfold Channel.bwRx Channel.bwAdd
    split
    · exact fun _ => rfl
    · exact fun _ => word_of_regs rfl .pmu _
  exact (hbw.trans (cfgSame_pmuBy _ _ _ _)).trans fun _ => word_put_ne _ F.SEAL_CNT2_NOCLAIM _ _ _ (.inl (by decide))

end

/-! ### The witness -/

/-- A channel without the right to commit, its port 0 UP, whose event counter 0 counts received requests with its samples on and stands at its last value. -/
def brinkChannel : Channel :=
  { Channel.reset 0 Topo.none false false 0 with
    regs := { KRegs.reset with
      port := { RegFile.reset with cur := [(PORT_P_STAT 0, BitVec.ofNat 32 (LK_UP * 2 ^ 29))] }
      pmu := { RegFile.reset with
        cur := [(PMU_CTL, 0x40000000#32), (PMU_PMC_CFG 0, 0xC0000010#32), (PMU_PMC_LO 0, 0xFFFFFFFF#32), (PMU_PMC_HI 0, 0xFFFF#32)] } } }

/-- A device with that channel in RUN. -/
def brinkState : State :=
  { State.reset with
    regs := { State.reset.regs with image := { RegFile.reset with cur := [((F.IMAGE_CH_STAT_STATE 0).off, BitVec.ofNat 32 (CH_RUN * 2 ^ 29))] } }
    ch := State.reset.ch.set 0 brinkChannel }

/-- An ARP request, broadcast. -/
def arpFrame : Bytes := List.replicate 6 0xFF#8 ++ List.replicate 6 0#8 ++ beBytes 2 0x0806 ++ List.replicate 6 0#8 ++ beBytes 2 1 ++ List.replicate 38 0#8

theorem brinkState_live : brinkState.live 0 := ⟨rfl, by decide +kernel⟩

theorem brink_takes : Takes brinkChannel 0 arpFrame (· == .exc) := by
  unfold Takes
  decide +kernel

theorem brink_run : brinkChannel.run = false := by decide +kernel

/-- The event counter wraps at the frame, and its sample draws a free value. -/
theorem brink_draws : (brinkChannel.noClaim 0 (arpFrame.length + 4)).freeCtr = brinkChannel.freeCtr + 1 := by decide +kernel

theorem brink_noJour : NoJourCount brinkChannel := by
  unfold NoJourCount
  decide +kernel

theorem brink_queues (p : PortIx) : (brinkChannel.sp p).queues = [] := by
  revert p
  decide +kernel

theorem brink_placid (c : Channel) : Placid (brinkState.clear.setCh 0 c) := by
  have hregs : (brinkState.clear.setCh 0 c).regs = brinkState.regs := rfl
  have hcur : ∀ f : GF, (brinkState.clear.setCh 0 c).gcur f = brinkState.gcur f := fun f => by
    unfold State.gcur
    rw [gword_of_regs hregs]
  refine ⟨?_, ?_⟩
  · rw [hcur]
    decide +kernel
  · unfold State.twst
    rw [hcur]
    decide +kernel

/-- From a channel state with empty queues to the next state the witness draws no free value, where no counter of it counts the journal. -/
theorem brink_follow {c : Channel} (h : ∀ p, (c.sp p).queues = []) :
    Calm c (State.follow brinkState.clear (brinkState.clear.setCh 0 (Channel.settle brinkState.ch[(0 : ChanIx)] c))).ch[(0 : ChanIx)] := by
  have hfollow := calm_follow brinkState.clear 0 (u := brinkState.clear.setCh 0 (Channel.settle brinkState.ch[(0 : ChanIx)] c)) rfl rfl (brink_placid _)
  rw [setCh_ch_self] at hfollow
  exact (calm_settle _ h).trans hfollow

theorem queues_of_onlyIn {L : List ChPart} {c d : Channel} (h : Channel.onlyIn L c d) (hL : ChPart.sched ∉ L) (p : PortIx) : (d.sp p).queues = (c.sp p).queues := by
  unfold Channel.sp
  rw [(h.2.2.2.2 .sched hL).1]

end Sys2Proof.Machine

namespace Sys2Proof
open Sys2Proof.Machine

/-- Refutes O42: a request is counted as an event before it is dropped, and an event counter that wraps at it with its samples on draws a free value (the slot of
the wrap, R412), which the drop's frame leaves out. The witness is an ARP request to a channel without the right to commit. -/
theorem not_requestsAreFilteredBeforeTheyAreAnswered : ¬ Obligations.RequestsAreFilteredBeforeTheyAreAnswered := by
  intro h
  have hturn : brinkState.turn (.exceptionFrameRx 0 0 arpFrame) := turn_of_empty _ rfl rfl
  obtain ⟨-, hdrops, -⟩ := (h brinkState 0 0 0 0 arpFrame brinkState_live).1 (.exceptionFrameRx 0 0 arpFrame, .exc, none, false, false, none)
    (.tail _ (.tail _ (.tail _ (.tail _ (.tail _ (.tail _ (.head _)))))))
  obtain ⟨d, ⟨hon, -⟩, hexec⟩ := hdrops brink_takes brink_run hturn
  obtain ⟨e, rfl, hown⟩ := actsOn_intro (p := fun d => d = brinkChannel.noClaim 0 (arpFrame.length + 4)) (fun x => x.exceptionRx 0 arpFrame) brinkState_live rfl rfl
    (exceptionRx_noClaim brink_takes brink_run) hturn
  have hnext := Host.Outcome.next.inj (hown.symm.trans hexec)
  have hdrawn := brink_follow (c := brinkChannel.noClaim 0 (arpFrame.length + 4))
    fun p => (queues_of_onlyIn (noClaim_only _ _ _) (by decide) p).trans (brink_queues p)
  have hundrawn := brink_follow (c := d) fun p => (queues_of_onlyIn hon (by decide) p).trans (brink_queues p)
  have hnojour : NoJourCount (brinkChannel.noClaim 0 (arpFrame.length + 4)) := (cfgSame_noClaim brinkChannel 0 _).noJour.mpr brink_noJour
  rw [hnext] at hdrawn
  have hsame : (brinkChannel.noClaim 0 (arpFrame.length + 4)).freeCtr = d.freeCtr := hdrawn.free_eq hundrawn hnojour
  have hkept : d.freeCtr = brinkChannel.freeCtr := hon.2.2.2.2 .free (by decide)
  rw [brink_draws, hkept] at hsame
  exact absurd hsame (Nat.succ_ne_self _)

end Sys2Proof
end

section
/-! Numbers in byte strings, and parts of byte strings. -/
namespace Sys2Proof.Machine

theorem length_leBytes (n v : ℕ) : (leBytes n v).length = n := by
  induction n generalizing v with
  | zero => rfl
  | succ n ih => exact congrArg (· + 1) (ih _)

/-- A number written in `n` bytes reads back modulo what they hold. -/
theorem fromLe_leBytes (n v : ℕ) : fromLe (leBytes n v) = v % 256 ^ n := by
  induction n generalizing v with
  | zero => exact (Nat.mod_one v).symm
  | succ n ih =>
    show v % 256 + 256 * fromLe (leBytes n (v / 256)) = _
    rw [ih, pow_succ', Nat.mod_mul]

theorem length_slice (bs : Bytes) (o n : ℕ) : (slice bs o n).length = n := by
  simp only [slice, List.length_append, List.length_take, List.length_drop, List.length_replicate]
  omega

/-- A byte of a part: the byte of the string, or 0 beyond its end. -/
theorem getElem?_slice (bs : Bytes) (o : ℕ) {n m : ℕ} (hm : m < n) : (slice bs o n)[m]? = some ((bs[o + m]?).getD 0#8) := by
  show ((bs.drop o).take n ++ List.replicate (n - ((bs.drop o).take n).length) 0#8)[m]? = _
  by_cases hin : o + m < bs.length
  · rw [List.getElem?_append_left (by rw [List.length_take, List.length_drop]; omega), List.getElem?_take_of_lt hm, List.getElem?_drop,
      List.getElem?_eq_getElem hin]
    rfl
  · rw [List.getElem?_append_right (by rw [List.length_take, List.length_drop]; omega),
      List.getElem?_replicate_of_lt (by rw [List.length_take, List.length_drop]; omega), List.getElem?_eq_none (by omega)]
    rfl

/-- A part that the string holds whole is filled up with nothing. -/
theorem slice_of_le {bs : Bytes} {o n : ℕ} (h : o + n ≤ bs.length) : slice bs o n = (bs.drop o).take n := by
  have hfull : ((bs.drop o).take n).length = n := by rw [List.length_take, List.length_drop]; omega
  show (bs.drop o).take n ++ List.replicate (n - ((bs.drop o).take n).length) 0#8 = _
  rw [hfull, Nat.sub_self]
  exact List.append_nil _

theorem slice_append_left {a : Bytes} (b : Bytes) {o n : ℕ} (h : o + n ≤ a.length) : slice (a ++ b) o n = slice a o n := by
  rw [slice_of_le h, slice_of_le (by rw [List.length_append]; omega), List.drop_append_of_le_length (by omega),
    List.take_append_of_le_length (by rw [List.length_drop]; omega)]

theorem slice_append_right (a b : Bytes) (o n : ℕ) : slice (a ++ b) (a.length + o) n = slice b o n := by
  unfold slice
  rw [List.drop_length_add_append]

/-- A part of a part. -/
theorem slice_slice (bs : Bytes) {o n i k : ℕ} (h : i + k ≤ n) : slice (slice bs o n) i k = slice bs (o + i) k := by
  refine List.ext_getElem? fun m => ?_
  by_cases hm : m < k
  · rw [getElem?_slice _ _ hm, getElem?_slice _ _ hm, getElem?_slice bs o (by omega), Option.getD_some, add_assoc]
  · rw [List.getElem?_eq_none (by rw [length_slice]; omega), List.getElem?_eq_none (by rw [length_slice]; omega)]

theorem leAt_slice (bs : Bytes) {o n i k : ℕ} (h : i + k ≤ n) : leAt (slice bs o n) i k = leAt bs (o + i) k := by
  unfold leAt
  rw [slice_slice bs h]

/-- A number stands where the bytes before it end. -/
theorem leAt_leBytes (a b : Bytes) (n v : ℕ) : leAt (a ++ (leBytes n v ++ b)) a.length n = v % 256 ^ n := by
  have hfit : 0 + n ≤ (leBytes n v).length := by rw [length_leBytes, zero_add]
  have hpart : slice (a ++ (leBytes n v ++ b)) a.length n = slice (leBytes n v ++ b) 0 n := slice_append_right a _ 0 n
  unfold leAt
  rw [hpart, slice_append_left b hfit, slice_of_le hfit, List.drop_zero, List.take_of_length_le (by rw [length_leBytes]), fromLe_leBytes]

end Sys2Proof.Machine
end

section
/-! Frames that a unit sends to its twin (R268, R281, R282). -/
namespace Sys2Proof.Machine

/-! ### The bytes of a frame -/

/-- What stands before a frame's payload (R281). -/
def State.twinHead (s : State) (ty ch q len : ℕ) : Bytes := leBytes 1 ty ++ leBytes 1 ch ++ leBytes 2 len ++ leBytes 4 q ++ s.devidLe

/-- A frame as it leaves: its head, its payload and its CRC. -/
def State.twinFrameOf (s : State) (ty ch q : ℕ) (pl : Bytes) : Bytes :=
  s.twinHead ty ch q pl.length ++ pl ++ leBytes 4 (crc32 (s.twinHead ty ch q pl.length ++ pl))

section
variable (s : State) (ty ch q : ℕ) (pl : Bytes)

theorem length_twinHead (len : ℕ) : (s.twinHead ty ch q len).length = 16 := by
  unfold State.twinHead State.devidLe
  simp only [List.length_append, length_leBytes]

theorem leAt_twinFrameOf_type : leAt (s.twinFrameOf ty ch q pl) 0 1 = ty % 256 := by
  unfold State.twinFrameOf State.twinHead
  simp only [List.append_assoc]
  exact leAt_leBytes [] _ 1 ty

theorem leAt_twinFrameOf_chan : leAt (s.twinFrameOf ty ch q pl) 1 1 = ch % 256 := by
  unfold State.twinFrameOf State.twinHead
  simp only [List.append_assoc]
  exact leAt_leBytes (leBytes 1 ty) _ 1 ch

theorem slice_twinFrameOf {o n : ℕ} (h : o + n ≤ pl.length) : slice (s.twinFrameOf ty ch q pl) (16 + o) n = slice pl o n := by
  have hhead := length_twinHead s ty ch q pl.length
  unfold State.twinFrameOf
  rw [slice_append_left _ (by rw [List.length_append, hhead]; omega), ← hhead, slice_append_right]

theorem leAt_twinFrameOf {o n : ℕ} (h : o + n ≤ pl.length) : leAt (s.twinFrameOf ty ch q pl) (16 + o) n = leAt pl o n := by
  unfold leAt
  rw [slice_twinFrameOf s ty ch q pl h]

end

/-! ### The lane of a frame -/

section
variable {s : State} {n : ℕ} {l : Fin 2}

theorem twinLane_up (h : s.twinLane n = some l) : s.twin.laneUp[l] = true := by
  unfold State.twinLane at h
  dsimp only at h
  split at h
  next ha => exact Option.some.inj h ▸ ha
  next =>
    split at h
    next hb => exact Option.some.inj h ▸ hb
    next => exact absurd h (by simp)

/-- While a lane is up every channel has one. -/
theorem twinLane_of_up (n : ℕ) (h : s.twin.laneUp[l] = true) : ∃ l, s.twinLane n = some l := by
  have hown : ∀ l a : Fin 2, l = a ∨ l = 1 - a := by decide
  unfold State.twinLane
  dsimp only
  split
  next => exact ⟨_, rfl⟩
  next hdown =>
    rcases hown l (Fin.ofNat 2 n) with he | he
    · exact absurd (he ▸ h) hdown
    · exact ⟨_, if_pos (he ▸ h)⟩

theorem twinLane_of_laneUp {t : State} (h : t.twin.laneUp = s.twin.laneUp) (n : ℕ) : t.twinLane n = s.twinLane n := by
  unfold State.twinLane
  rw [h]

theorem twinSend_none (ty : ℕ) (pl : Bytes) (h : s.twinLane n = none) : s.twinSend ty n pl = s := by
  unfold State.twinSend
  rw [h]

theorem twinSend_some (ty : ℕ) (pl : Bytes) (h : s.twinLane n = some l) (hs : s.safe = false) : s.twinSend ty n pl =
    { s with
      twin := { s.twin with lseqTx := s.twin.lseqTx.set l ((s.twin.lseqTx[l] + 1) % 2 ^ 32) }
      out := s.out ++ [.twin l.val (s.twinFrameOf ty n s.twin.lseqTx[l] pl)] } := by
  unfold State.twinSend
  rw [h]
  exact if_neg (by rw [twinLane_up h, hs]; decide)

end

/-! ### What the registers alone say -/

section
variable {s t : State} (h : t.regs = s.regs)
include h

theorem gcur_of_regs (f : GF) : t.gcur f = s.gcur f := by unfold State.gcur; rw [gword_of_regs h]
theorem twst_of_regs : t.twst = s.twst := gcur_of_regs h _
theorem safe_of_regs : t.safe = s.safe := safe_word fun o => gword_of_regs h _ o

theorem streaming_of_regs : t.streaming = s.streaming := by
  have hlost : t.gflag F.TWIN_STAT_PEER_LOST = s.gflag F.TWIN_STAT_PEER_LOST := congrArg (· == 1) (gcur_of_regs h F.TWIN_STAT_PEER_LOST)
  unfold State.streaming
  rw [twst_of_regs h, hlost]

end

/-! ### Frames sent one after the other -/

/-- From `s` to `t` frames may have left for the twin, and free values have been drawn for them; nothing else has changed. -/
structure Streamed (s t : State) : Prop where
  plain : t = { s with twin := { s.twin with lseqTx := t.twin.lseqTx }, freeCtr := t.freeCtr, out := t.out }
  grows : ∀ o ∈ s.out, o ∈ t.out

namespace Streamed

theorem refl (s : State) : Streamed s s := ⟨rfl, fun _ h => h⟩

section
variable {s t u : State} (h : Streamed s t)
include h

theorem trans (g : Streamed t u) : Streamed s u := ⟨by rw [g.plain, h.plain], fun o ho => g.grows o (h.grows o ho)⟩
theorem regs : t.regs = s.regs := by rw [h.plain]
theorem ch : t.ch = s.ch := by rw [h.plain]
theorem laneUp : t.twin.laneUp = s.twin.laneUp := by rw [h.plain]
theorem twin : t.twin = { s.twin with lseqTx := t.twin.lseqTx } := by rw [h.plain]
theorem vseq : t.twin.vseq = s.twin.vseq := by rw [h.plain]
theorem nvRing : t.twin.nvRing = s.twin.nvRing := by rw [h.plain]
theorem nvNext : t.twin.nvNext = s.twin.nvNext := by rw [h.plain]

end

theorem onlyIn {s t : State} (h : Streamed s t) : State.onlyIn [.twin, .free, .out] s t := by
  rw [h.plain]
  exact ⟨rfl, rfl, rfl, fun q hq => by cases q <;> simp_all [State.same]⟩

theorem foldl {α : Type} {s x : State} {g : State → α → State} (hg : ∀ y a, Streamed y (g y a)) (l : List α) (h : Streamed s x) :
    Streamed s (l.foldl g x) := by
  induction l generalizing x with
  | nil => exact h
  | cons a r ih => exact ih (h.trans (hg x a))

/-- What each of several sendings puts out is out after all of them. -/
theorem foldl_sends {α : Type} {s x : State} {g : State → α → State} {P : α → Output → Prop} (hg : ∀ y a, Streamed y (g y a))
    (hP : ∀ y a, Streamed s y → ∃ o ∈ (g y a).out, P a o) (l : List α) (h : Streamed s x) : ∀ a ∈ l, ∃ o ∈ (l.foldl g x).out, P a o := by
  induction l generalizing x with
  | nil => exact fun _ ha => absurd ha List.not_mem_nil
  | cons b r ih =>
    intro a ha
    have hx : Streamed s (g x b) := h.trans (hg x b)
    rcases List.mem_cons.mp ha with rfl | ha
    · obtain ⟨o, ho, hp⟩ := hP x a h
      exact ⟨o, (foldl hg r (.refl (g x a))).grows o ho, hp⟩
    · exact ih hx a ha

end Streamed

theorem streamed_twinSend (s : State) (ty n : ℕ) (pl : Bytes) : Streamed s (s.twinSend ty n pl) := by
  unfold State.twinSend
  split
  · unfold State.twinSendOn
    split
    · exact .refl s
    · exact ⟨rfl, fun o ho => List.mem_append_left _ ho⟩
  · exact .refl s

theorem twinSend_puts {s : State} {n : ℕ} {l : Fin 2} (ty : ℕ) (pl : Bytes) (h : s.twinLane n = some l) (hs : s.safe = false) :
    Output.twin l.val (s.twinFrameOf ty n s.twin.lseqTx[l] pl) ∈ (s.twinSend ty n pl).out := by
  rw [twinSend_some ty pl h hs]
  exact List.mem_append_right _ List.mem_cons_self

/-! ### TIME frames (R268) -/

theorem timeSend_idle {s : State} {c : ChanIx} (ps : ℕ)
    (h : ¬ (s.streaming = true ∧ s.safe = false ∧ s.running c = true ∧ s.ch[c].secondHere ≠ none)) : s.timeSend c ps = s := by
  refine if_pos ?_
  by_contra hno
  refine h ?_
  simpa [and_assoc] using hno

theorem timeSend_sends {s : State} {c : ChanIx} (ps : ℕ)
    (h : s.streaming = true ∧ s.safe = false ∧ s.running c = true ∧ s.ch[c].secondHere ≠ none) :
    s.timeSend c ps = s.twinSend 5 c.val (s.ch[c].twinTime ps) := by
  obtain ⟨hstream, hsafe, hrun, hsec⟩ := h
  refine if_neg ?_
  rw [hstream, hsafe, hrun]
  simpa using hsec

end Sys2Proof.Machine
end

section
/-! Frames that a unit receives from its twin (R269, R281): those that it discards, and what a good one leaves of the twin's registers. -/
namespace Sys2Proof.Machine

/-! ### Registers that stay but for some fields -/

section
variable {b : CB} {fs : List GF} {s t u : State}

theorem keeps_refl (s : State) : State.keeps b fs s s := ⟨fun _ => rfl, fun _ _ _ => rfl⟩

theorem keeps_trans (h : State.keeps b fs s t) (g : State.keeps b fs t u) : State.keeps b fs s u :=
  ⟨fun k => (g.1 k).trans (h.1 k), fun f hb hf => (g.2 f hb hf).trans (h.2 f hb hf)⟩

theorem keeps_of_regs (h : t.regs = s.regs) : State.keeps b fs s t :=
  ⟨fun k => guse_of_regs h b k, fun f _ _ => by unfold State.gcur; rw [gword_of_regs h]⟩

theorem keeps_gput (s : State) (f : GF) (v : ℕ) (hf : f ∈ fs) (hw : f.lsb + f.w ≤ 32) : State.keeps b fs s (s.gput f v) :=
  ⟨fun k => (mk_gput (P := fun _ _ => False) s f v (fun _ h => h.elim)).use b k, fun g _ hg => gcur_gput_ne s f g v hw (.inr (hg f hf))⟩

theorem keeps_foldl {α : Type} {g : State → α → State} (hg : ∀ y a, State.keeps b fs y (g y a)) (l : List α) (h : State.keeps b fs s t) :
    State.keeps b fs s (l.foldl g t) := by
  induction l generalizing t with
  | nil => exact h
  | cons a r ih => exact ih (keeps_trans h (hg t a))

/-- A field beside those that may have changed. -/
theorem gfld_of_keeps (h : State.keeps b fs s t) (g : GF) (hb : g.blk = b)
    (hg : ∀ f ∈ fs, f.off ≠ g.off ∨ f.lsb + f.w ≤ g.lsb ∨ g.lsb + g.w ≤ f.lsb) : t.gfld g = s.gfld g := by
  unfold State.gfld
  split
  · rw [hb, h.1]
  · exact h.2 g hb hg

end

/-! ### What a frame of the parts says -/

theorem safe_of_only {L : List StPart} {s t : State} (h : State.onlyIn L s t) (hL : StPart.fault ∉ L) : t.safe = s.safe :=
  safe_word fun o => State.onlyIn_gword h .fault o hL

theorem running_of_only {L : List StPart} {s t : State} (h : State.onlyIn L s t) (hL : StPart.image ∉ L) (n : ChanIx) : t.running n = s.running n :=
  congrArg (· == CH_RUN) (State.onlyIn_gcur h (F.IMAGE_CH_STAT_STATE n.val) hL)

/-! ### The LSEQ of a good frame -/

/-- The two counters that a good frame may advance. -/
abbrev lseqMarks : List GF := [F.TWIN_CNT1_GAP, F.TWIN_CNT2_RESYNC]

theorem streaming_of_keeps {s t : State} (h : State.keeps .twin lseqMarks s t) : t.streaming = s.streaming := by
  have hst : t.twst = s.twst := h.2 F.TWIN_STAT_STATE rfl (by decide)
  have hlost : t.gflag F.TWIN_STAT_PEER_LOST = s.gflag F.TWIN_STAT_PEER_LOST := congrArg (· == 1) (h.2 F.TWIN_STAT_PEER_LOST rfl (by decide))
  unfold State.streaming
  rw [hst, hlost]

theorem twst_of_streaming {s : State} (h : s.streaming = true) : s.twst = TW_ACTIVE := eq_of_beq ((Bool.and_eq_true _ _).mp h).1

theorem sendResync_keeps (s : State) (n : ChanIx) (what : ℕ) : State.keeps .twin lseqMarks s (s.sendResync n what) := by
  unfold State.sendResync
  split
  · exact keeps_trans (keeps_gput s F.TWIN_CNT2_RESYNC _ (by decide) (by decide)) (keeps_of_regs (streamed_twinSend _ _ _ _).regs)
  · exact keeps_refl s

theorem lseqRx_keeps (s : State) (l : Fin 2) (q : ℕ) : State.keeps .twin lseqMarks s (s.lseqRx l q) := by
  unfold State.lseqRx
  extract_lets gap s1 ns s2
  have hgap : State.keeps .twin lseqMarks s s2 := keeps_gput s F.TWIN_CNT1_GAP _ (by decide) (by decide)
  split
  · exact keeps_refl s
  · split
    · exact keeps_foldl (fun y n => sendResync_keeps y n 3) ns hgap
    · exact hgap

section
variable (s : State) (l : Fin 2) (q : ℕ)

theorem lseqRx_only : State.onlyIn [.twin, .out] s (s.lseqRx l q) := in_lseqRx l q rfl (State.onlyIn_refl _ s)
theorem lseqRx_ch : (s.lseqRx l q).ch = s.ch := (lseqRx_only s l q).2.2.2 .ch (by decide)
theorem lseqRx_running (n : ChanIx) : (s.lseqRx l q).running n = s.running n :=
  running_of_only (lseqRx_only s l q) (by decide) n
theorem lseqRx_safe : (s.lseqRx l q).safe = s.safe := safe_of_only (lseqRx_only s l q) (by decide)
theorem lseqRx_image : (s.lseqRx l q).regs.image = s.regs.image := ((lseqRx_only s l q).2.2.2 .image (by decide)).2.2
theorem lseqRx_twst : (s.lseqRx l q).twst = s.twst := (lseqRx_keeps s l q).2 F.TWIN_STAT_STATE rfl (by decide)

theorem lseqRx_takesStream : (s.lseqRx l q).takesStream = s.takesStream := by
  unfold State.takesStream
  rw [lseqRx_twst]

theorem lseqRx_streaming : (s.lseqRx l q).streaming = s.streaming := streaming_of_keeps (lseqRx_keeps s l q)

/-- Outside STANDBY_COLD a gap in LSEQ asks for nothing: no frame leaves. -/
theorem lseqRx_quiet (h : s.twst ≠ TW_STANDBY) : (s.lseqRx l q).out = s.out ∧ (s.lseqRx l q).gcur F.TWIN_CNT2_RESYNC = s.gcur F.TWIN_CNT2_RESYNC ∧
    ∃ rx, (s.lseqRx l q).twin = { s.twin with lseqRx := s.twin.lseqRx.set l (some q), rx := rx } := by
  unfold State.lseqRx
  extract_lets gap s1 ns s2
  have hst : s2.twst = s.twst := (keeps_gput (b := .twin) (fs := lseqMarks) s F.TWIN_CNT1_GAP _ (by decide) (by decide)).2 F.TWIN_STAT_STATE rfl (by decide)
  split
  · exact ⟨rfl, rfl, _, rfl⟩
  · rw [if_neg fun hno => h (hst.symm.trans hno.1)]
    exact ⟨rfl, gcur_gput_off s F.TWIN_CNT1_GAP F.TWIN_CNT2_RESYNC _ (by decide), _, rfl⟩

end

theorem takesStream_iff (s : State) : s.takesStream = true ↔ s.twst = TW_STANDBY ∨ s.twst = TW_RACKING ∨ s.twst = TW_DRILL := by
  unfold State.takesStream
  simp [or_assoc]

/-! ### Frames of bytes -/

section
variable {s : State} {l : Fin 2} {bs : Bytes} {ty : ℕ} {f : State → ℕ → ℕ → Bytes → State}

theorem twinFrame_untaken (h : ¬ s.laneTakes l = true) : s.twinFrame l bs ty f = s := if_pos (by simpa using h)

theorem twinFrame_bad (h : s.laneTakes l = true) (hb : ¬ twinSound bs) : s.twinFrame l bs ty f = s.twinBad l := by
  refine (if_neg (by rw [h]; decide)).trans (if_pos ?_)
  by_contra hno
  simp only [not_or, not_not] at hno
  obtain ⟨hlen, hcrc, hpay, hch⟩ := hno
  refine hb ⟨hlen, hcrc, hpay.symm, ?_⟩
  split at hch
  next hall => exact (if_pos hall).symm ▸ eq_of_beq hch
  next hone => exact (if_neg hone).symm ▸ of_decide_eq_true hch

theorem twinFrame_sound (h : s.laneTakes l = true) (hb : twinSound bs) : s.twinFrame l bs ty f =
    if leAt bs 0 1 ≠ ty then s else f (s.lseqRx l (leAt bs 4 4)) (leAt bs 1 1) (leAt bs 8 8) (slice bs 16 (leAt bs 2 2)) := by
  obtain ⟨hlen, hcrc, hpay, hch⟩ := hb
  refine (if_neg (by rw [h]; decide)).trans (if_neg ?_)
  rintro (hno | hno | hno | hno)
  · exact hno hlen
  · exact hno hcrc
  · exact hno hpay.symm
  · refine hno ?_
    split at hch
    next hall => exact (if_pos hall).trans (beq_iff_eq.mpr hch)
    next hone => exact (if_neg hone).trans (decide_eq_true hch)

theorem twinFrame_other (h : s.laneTakes l = true) (hb : twinSound bs) (ht : leAt bs 0 1 ≠ ty) : s.twinFrame l bs ty f = s := by
  rw [twinFrame_sound h hb, if_pos ht]

theorem twinFrame_good (h : s.laneTakes l = true) (hb : twinSound bs) (ht : leAt bs 0 1 = ty) :
    s.twinFrame l bs ty f = f (s.lseqRx l (leAt bs 4 4)) (leAt bs 1 1) (leAt bs 8 8) (slice bs 16 (leAt bs 2 2)) := by
  rw [twinFrame_sound h hb, if_neg (not_not.mpr ht)]

/-! ### The payload length that a sound frame's TYPE gives (R282) -/

theorem length_clientFrame (h : twinSound bs) (ht : leAt bs 0 1 = 4) : leAt bs 2 2 = 132 := by
  have hlen := h.2.2.1
  rw [ht] at hlen
  exact hlen

theorem length_timeFrame (h : twinSound bs) (ht : leAt bs 0 1 = 5) : leAt bs 2 2 = 40 := by
  have hlen := h.2.2.1
  rw [ht] at hlen
  exact hlen

theorem length_resyncFrame (h : twinSound bs) (ht : leAt bs 0 1 = 6) : leAt bs 2 2 = 4 := by
  have hlen := h.2.2.1
  rw [ht] at hlen
  exact hlen

end

end Sys2Proof.Machine
end

section
/-! What a unit takes from its twin: time, journal entries, vintages and client entries (R229, R269, R279, R328). -/
namespace Sys2Proof.Machine

/-! ### A TIME frame's record on L15 (R279) -/

/-- The record that a TIME frame with the transmit time `tx` and the bound `teb` gives, but for FREQ, FB, the tag and K (R279). -/
def TwinRec (c : Channel) (tx teb ps tdly : ℕ) (tcal : Int) (tbud : ℕ) (r : MeasRec) : Prop :=
  r.lane = 15 ∧ r.refTs = (c.stampAt ps).1 ∧
  r.offset = signed 128 tx + pointOfPs tdly - (c.stampAt ps).1 + pointOfPs (Channel.asymTerm tdly tcal tbud).1 ∧
  r.teb = satAdd (satAdd 8 teb) (Channel.asymTerm tdly tcal tbud).2 ∧ r.phaseOnly = false ∧ r.freqOnly = false ∧ r.mpd = some (tdly : Int)

theorem twinRecord_measures {c : Channel} (pl : Bytes) (ps tdly : ℕ) (tcal : Int) (tbud : ℕ) (he : (c.lane 15).exist = true) :
    c.measures (c.twinRecord pl ps tdly tcal tbud) 4000 (TwinRec c (leAt pl 0 16) (leAt pl 16 4) ps tdly tcal tbud) := by
  unfold Channel.twinRecord
  extract_lets n st tx raw a own iv off teb sec missed ff tag y c1 c2
  have hdrawn : Channel.onlyIn [.free] c ff.2 := on_freqFb _ _ _ _ _ _ rfl (Channel.onlyIn_refl _ c)
  have href : c1.ref = c.ref := show ff.2.ref = c.ref from ref_of_only hdrawn (by decide)
  have htick : c1.jour.tick = c.jour.tick := congrArg JournalSt.tick (hdrawn.2.2.2.2 .jour (by decide))
  have hexist : (c1.lane 15).exist = true := by rw [lane_of_ref href]; exact he
  have hmeasured : c2.ref.measured = c.ref.measured ++ [(c.jour.tick + 4000, rawRec n st.1 st.2 own ff.1.1 ff.1.2 tag false false (some tdly))] := by
    show (c1.measure 4000 _).ref.measured = _
    rw [measure_exist hexist, ← href, ← htick]
    rfl
  refine ⟨rawRec n st.1 st.2 own ff.1.1 ff.1.2 tag false false (some tdly), ?_, rfl, rfl, rfl, rfl, rfl, rfl, rfl⟩
  split
  · rw [ref_of_only (on_utcAnnounce n _ rfl (Channel.onlyIn_refl [.dpll, .scale, .asks] c2)) (by decide), hmeasured]
  · exact hmeasured

/-! ### A channel that does not run (R328) -/

/-- What is asked of a channel that is not in RUN is counted. -/
def State.counted (s : State) (n : ChanIx) : State := if s.running n then s else s.reqAbsent n

section
variable (s : State) (n : ChanIx)

theorem counted_ch : (s.counted n).ch = s.ch := by unfold State.counted; split <;> rfl
theorem counted_twin : (s.counted n).twin = s.twin := by unfold State.counted; split <;> rfl

theorem counted_only {L : List StPart} {s₀ : State} (hL : stPartsIn [.image] L = true) (h : State.onlyIn L s₀ s) : State.onlyIn L s₀ (s.counted n) :=
  in_ite h (in_reqAbsent n hL h)

theorem counted_lseqRx (l : Fin 2) (q : ℕ) :
    (s.lseqRx l q).counted n = if s.running n then s.lseqRx l q else (s.lseqRx l q).reqAbsent n := by
  unfold State.counted
  rw [lseqRx_running]

/-- What is counted depends on the loader's registers alone. -/
theorem counted_image {t : State} (h : t.regs.image = s.regs.image) : (t.counted n).regs.image = (s.counted n).regs.image := by
  have hword : ∀ o, t.gword .image o = s.gword .image o := fun o => congrArg (fun f : RegFile => smGet (gbRst .image o) f.cur o) h
  have hrun : t.running n = s.running n := by
    unfold State.running State.chSt State.gcur
    rw [show t.gword (F.IMAGE_CH_STAT_STATE n.val).blk (F.IMAGE_CH_STAT_STATE n.val).off = _ from hword _]
    rfl
  unfold State.counted
  rw [hrun]
  split
  · exact h
  · show ({ t.regs.image with cur := smPut _ t.regs.image.cur _ (putField (t.gword .image _) _ _ (getField (t.gword .image _) _ _ + 1)) } : RegFile) = _
    rw [hword, h]
    rfl

end

/-! ### Client entries (R229) -/

/-- A client table that has taken the entry of a CLIENT frame. -/
def takenClient (m : List (ℕ × Client)) (bs : Bytes) : List (ℕ × Client) :=
  match Client.ofBytes ((slice bs 16 132).drop 4) with
  | some e => smIns m (leAt bs 16 4) e
  | none => smDel m (leAt bs 16 4)

section
variable {s : State} {l : Fin 2} {bs : Bytes} (ht : s.laneTakes l = true) (hb : twinSound bs)
include ht hb

theorem clientFrame_ignored (hty : leAt bs 0 1 = 4) (hst : ¬ s.takesStream = true) : s.clientFrame l bs = s.lseqRx l (leAt bs 4 4) := by
  refine (twinFrame_good ht hb hty).trans (if_pos ?_)
  rw [lseqRx_takesStream]
  simpa using hst

theorem clientFrame_taken (hty : leAt bs 0 1 = 4) (hst : s.takesStream = true) : s.clientFrame l bs =
    ((s.lseqRx l (leAt bs 4 4)).counted (Fin.ofNat 4 (leAt bs 1 1))).setCh (Fin.ofNat 4 (leAt bs 1 1))
      { s.ch[Fin.ofNat 4 (leAt bs 1 1)] with
        sealb := { s.ch[Fin.ofNat 4 (leAt bs 1 1)].sealb with clients := takenClient s.ch[Fin.ofNat 4 (leAt bs 1 1)].sealb.clients bs } } := by
  have hix : leAt (slice bs 16 132) 0 4 = leAt bs 16 4 := leAt_slice bs (by decide)
  refine (twinFrame_good ht hb hty).trans ?_
  dsimp only
  rw [lseqRx_takesStream, hst, length_clientFrame hb hty, hix, lseqRx_ch]
  rfl

theorem timeFrame_absent {ps : ℕ} (hty : leAt bs 0 1 = 5) (hr : s.running (Fin.ofNat 4 (leAt bs 1 1)) = false) :
    s.timeFrame l bs ps = (s.lseqRx l (leAt bs 4 4)).reqAbsent (Fin.ofNat 4 (leAt bs 1 1)) := by
  refine (twinFrame_good ht hb hty).trans (if_pos ?_)
  rw [lseqRx_running, hr]
  rfl

theorem timeFrame_running {ps : ℕ} (hty : leAt bs 0 1 = 5) (hr : s.running (Fin.ofNat 4 (leAt bs 1 1)) = true) :
    s.timeFrame l bs ps = (s.lseqRx l (leAt bs 4 4)).setCh (Fin.ofNat 4 (leAt bs 1 1)) (Channel.settle s.ch[Fin.ofNat 4 (leAt bs 1 1)]
      (s.ch[Fin.ofNat 4 (leAt bs 1 1)].twinRecord (slice bs 16 40) ps (s.gcur F.TWIN_TDLY_TDLY) (signed 32 (s.gfld F.TWIN_TCAL_TCAL))
        (s.gfld F.TWIN_TBUD_TBUD))) := by
  have hkeeps := lseqRx_keeps s l (leAt bs 4 4)
  refine (twinFrame_good ht hb hty).trans ?_
  dsimp only
  rw [lseqRx_running, hr, length_timeFrame hb hty, onCh_running (by rw [lseqRx_running, hr]), lseqRx_ch,
    hkeeps.2 F.TWIN_TDLY_TDLY rfl (by decide), gfld_of_keeps hkeeps F.TWIN_TCAL_TCAL rfl (by decide), gfld_of_keeps hkeeps F.TWIN_TBUD_TBUD rfl (by decide)]
  rfl

end

/-! ### Journal entries -/

theorem rxEntry_first {r : RxChan} {e : JEntry} (h : r.entries.head? = none) : State.rxEntry r e =
    { r with entries := (e :: r.entries).take 131072, cont := if e.bad then some (e.jseq + 1) else some e.jseq } := by
  unfold State.rxEntry
  rw [h]
  by_cases hc : r.cont = some e.jseq <;> simp [hc]

theorem rxEntry_after {r : RxChan} {e p : JEntry} (h : r.entries.head? = some p) : State.rxEntry r e =
    { r with
      vints := if e.jseq ≤ p.jseq then r.vints.map (fun y => { y with gap := true }) else r.vints
      entries := (e :: if e.jseq ≤ p.jseq then [] else r.entries).take 131072
      cont := if e.bad then some (e.jseq + 1) else if e.jseq = p.jseq + 1 ∧ r.cont ≠ none then r.cont else some e.jseq } := by
  unfold State.rxEntry RxChan.spoil
  rw [h]
  by_cases hold : e.jseq ≤ p.jseq <;> simp [hold, Option.isSome_iff_ne_none]

/-- A journal whose entries a unit may take (R281). -/
def jourSound (f : JourFrame) : Prop := f.good = true ∧ f.entries ≠ [] ∧ f.entries.length ≤ 16

/-- The entries of a frame with their indices in the journal. -/
def jourIndexed (f : JourFrame) : List JEntry := f.entries.zipIdx.map (fun e => { e.1 with idx := (f.idx + e.2) % 131072 })

section
variable {s : State} {l : Fin 2} {f : JourFrame}

theorem jourFrame_untaken (h : ¬ s.laneTakes l = true) : s.jourFrame l f = s := if_pos (by simpa using h)

theorem jourFrame_bad (ht : s.laneTakes l = true) (hb : ¬ jourSound f) : s.jourFrame l f = s.twinBad l := by
  refine (if_neg (by rw [ht]; decide)).trans (if_pos ?_)
  by_contra hno
  refine hb ?_
  simpa [jourSound, and_assoc] using hno

/-- A sound frame, whether it is taken or not. -/
theorem jourFrame_sound (ht : s.laneTakes l = true) (hb : jourSound f) : s.jourFrame l f =
    if !(s.lseqRx l f.lseq).takesStream then s.lseqRx l f.lseq
    else match f.entries.getLast? with
      | some e => (((s.lseqRx l f.lseq).counted f.ch).updRx f.ch (fun r => (jourIndexed f).foldl State.rxEntry r)).put64 .twin (TWIN_RX_JSEQ f.ch.val 0) e.jseq
      | none => ((s.lseqRx l f.lseq).counted f.ch).updRx f.ch (fun r => (jourIndexed f).foldl State.rxEntry r) := by
  obtain ⟨hgood, hsome, hlen⟩ := hb
  refine (if_neg (by rw [ht]; decide)).trans (if_neg ?_)
  simp [hgood, hsome, hlen]

theorem jourFrame_ignored (ht : s.laneTakes l = true) (hb : jourSound f) (hst : ¬ s.takesStream = true) : s.jourFrame l f = s.lseqRx l f.lseq := by
  rw [jourFrame_sound ht hb, if_pos (by rw [lseqRx_takesStream]; simpa using hst)]

theorem jourFrame_taken {e : JEntry} (ht : s.laneTakes l = true) (hb : jourSound f) (hst : s.takesStream = true) (he : f.entries.getLast? = some e) :
    s.jourFrame l f =
      (((s.lseqRx l f.lseq).counted f.ch).updRx f.ch (fun r => (jourIndexed f).foldl State.rxEntry r)).put64 .twin (TWIN_RX_JSEQ f.ch.val 0) e.jseq := by
  rw [jourFrame_sound ht hb, if_neg (by rw [lseqRx_takesStream, hst]; decide), he]

end

/-- A value put into two registers reads back. -/
theorem get64_put64 (s : State) (b : CB) (off v : ℕ) : (s.put64 b off v).get64 b off = v % 2 ^ 64 := by
  have hlow : (s.put64 b off v).gword b off = BitVec.ofNat 32 v := by
    unfold State.put64
    rw [gword_gsetWord_ne _ _ _ _ (.inr (by omega)), gword_gsetWord_self]
  have hhigh : (s.put64 b off v).gword b (off + 4) = BitVec.ofNat 32 (v / 2 ^ 32) := gword_gsetWord_self _ _ _ _
  unfold State.get64
  rw [hlow, hhigh, BitVec.toNat_ofNat, BitVec.toNat_ofNat]
  omega

/-! ### Vintages -/

/-- A part of a vintage that a unit may take (R281, R282). -/
def vintSound (f : VintFrame) : Prop := f.good = true ∧ 8 ≤ f.part.length ∧ f.part.length ≤ 2040

/-- Whether a part begins a vintage or follows the part before it. -/
def RxChan.follows (r : RxChan) (f : VintFrame) : Prop := f.ofs = 0 ∨ r.begun = some (f.vseq, f.ofs)

/-- The bytes of the slot that the vintage takes, with the part. -/
def RxChan.held (r : RxChan) (f : VintFrame) : Bytes := State.slotWrite r.slots[r.next] f.ofs f.part

/-- What holds a part in its slot, with no vintage begun. -/
def RxChan.holding (r : RxChan) (f : VintFrame) : RxChan :=
  { r with slots := r.slots.set r.next (r.held f), vints := r.vints.filter (fun y => y.slot != r.next), begun := none }

section
variable {r : RxChan} {f : VintFrame} {v : Vintage}

theorem follows_iff : r.follows f ↔ (f.ofs = 0 || r.begun == some (f.vseq, f.ofs)) = true := by
  simp [RxChan.follows]

theorem held_slot : (r.slots.set r.next (r.held f))[r.next] = r.held f := vset_self _ _ _

theorem rxVint_part (hw : f.whole = none) (hf : r.follows f) :
    State.rxVint r f = { r.holding f with begun := some (f.vseq, f.ofs + f.part.length) } := by
  unfold State.rxVint
  rw [hw]
  dsimp only
  rw [if_pos (follows_iff.mp hf)]
  rfl

theorem rxVint_stray (hw : f.whole = none) (hf : ¬ r.follows f) : State.rxVint r f = r.holding f := by
  unfold State.rxVint
  rw [hw]
  dsimp only
  rw [if_neg (follows_iff.not.mp hf)]
  rfl

theorem rxVint_whole (hw : f.whole = some v) (hf : r.follows f) (hv : (r.held f).take (f.ofs + f.part.length) = v.bytes) :
    State.rxVint r f = { r.holding f with
      vints := ⟨r.next, v, false⟩ :: (r.holding f).vints, next := r.next + 1, cont := some (r.cont.getD (v.jseq + 1)) } := by
  unfold State.rxVint
  rw [hw]
  refine if_pos ?_
  rw [follows_iff.mp hf, Bool.true_and]
  exact beq_iff_eq.mpr ((congrArg (List.take _) held_slot).trans hv)

theorem rxVint_broken (hw : f.whole = some v) (h : ¬ (r.follows f ∧ (r.held f).take (f.ofs + f.part.length) = v.bytes)) :
    State.rxVint r f = r.holding f := by
  unfold State.rxVint
  rw [hw]
  refine if_neg fun hok => h ?_
  obtain ⟨hf, hv⟩ := (Bool.and_eq_true _ _).mp hok
  exact ⟨follows_iff.mpr hf, (congrArg (List.take _) held_slot).symm.trans (beq_iff_eq.mp hv)⟩

end

section
variable {s : State} {l : Fin 2} {f : VintFrame}

theorem vintFrame_untaken (h : ¬ s.laneTakes l = true) : s.vintFrame l f = s := if_pos (by simpa using h)

theorem vintFrame_bad (ht : s.laneTakes l = true) (hb : ¬ vintSound f) : s.vintFrame l f = s.twinBad l := by
  refine (if_neg (by rw [ht]; decide)).trans (if_pos ?_)
  by_contra hno
  refine hb ?_
  simpa [vintSound, and_assoc] using hno

theorem vintFrame_sound (ht : s.laneTakes l = true) (hb : vintSound f) : s.vintFrame l f =
    if !(s.lseqRx l f.lseq).takesStream then s.lseqRx l f.lseq
    else ((s.lseqRx l f.lseq).counted f.ch).updRx f.ch (fun r => State.rxVint r f) := by
  obtain ⟨hgood, hmin, hmax⟩ := hb
  refine (if_neg (by rw [ht]; decide)).trans (if_neg ?_)
  simp [hgood, hmin, hmax]

theorem vintFrame_ignored (ht : s.laneTakes l = true) (hb : vintSound f) (hst : ¬ s.takesStream = true) : s.vintFrame l f = s.lseqRx l f.lseq := by
  rw [vintFrame_sound ht hb, if_pos (by rw [lseqRx_takesStream]; simpa using hst)]

theorem vintFrame_taken (ht : s.laneTakes l = true) (hb : vintSound f) (hst : s.takesStream = true) :
    s.vintFrame l f = ((s.lseqRx l f.lseq).counted f.ch).updRx f.ch (fun r => State.rxVint r f) := by
  rw [vintFrame_sound ht hb, if_neg (by rw [lseqRx_takesStream, hst]; decide)]

end

end Sys2Proof.Machine
end

section
/-! What a serving unit answers to RESYNC (R229, R268, R282, R328): the vintage in VINT frames and the client table. -/
namespace Sys2Proof.Machine

/-! ### The frames of a vintage -/

/-- A frame that carries part `k` of a vintage's bytes `all` of channel `n`, numbered `q` (R282). -/
def VintPart (n : ChanIx) (q : ℕ) (all : Bytes) (k : ℕ) (o : Output) : Prop :=
  ∃ l b, o = .twin l b ∧ leAt b 0 1 = 2 ∧ leAt b 1 1 = n.val ∧ leAt b 16 4 = q % 2 ^ 32 ∧ leAt b 20 4 = 2040 * k % 2 ^ 32 ∧
    slice b 32 (min 2040 (all.length - 2040 * k)) = (all.drop (2040 * k)).take 2040

/-- The payload of a VINT frame. -/
def vintPayload (q : ℕ) (all : Bytes) (k : ℕ) : Bytes := leBytes 4 q ++ leBytes 4 (2040 * k) ++ leBytes 8 0 ++ (all.drop (2040 * k)).take 2040

theorem chan_mod (n : ChanIx) : n.val % 256 = n.val := Nat.mod_eq_of_lt (by have := n.isLt; omega)

theorem vintPart_of_payload (s : State) (n : ChanIx) (l x q : ℕ) (all : Bytes) (k : ℕ) :
    VintPart n q all k (.twin l (s.twinFrameOf 2 n.val x (vintPayload q all k))) := by
  have hpart : ((all.drop (2040 * k)).take 2040).length = min 2040 (all.length - 2040 * k) := by rw [List.length_take, List.length_drop]
  have hlen : (vintPayload q all k).length = 16 + min 2040 (all.length - 2040 * k) := by
    unfold vintPayload
    simp only [List.length_append, length_leBytes, hpart]
  refine ⟨l, _, rfl, leAt_twinFrameOf_type _ _ _ _ _, (leAt_twinFrameOf_chan _ _ _ _ _).trans (chan_mod n), ?_, ?_, ?_⟩
  · rw [leAt_twinFrameOf s 2 n.val x _ (o := 0) (by rw [hlen]; omega)]
    unfold vintPayload
    simp only [List.append_assoc]
    exact leAt_leBytes [] _ 4 q
  · rw [leAt_twinFrameOf s 2 n.val x _ (o := 4) (by rw [hlen]; omega)]
    unfold vintPayload
    simp only [List.append_assoc]
    exact leAt_leBytes (leBytes 4 q) _ 4 (2040 * k)
  · have hhead : (leBytes 4 q ++ leBytes 4 (2040 * k) ++ leBytes 8 0).length = 16 := by simp only [List.length_append, length_leBytes]
    rw [slice_twinFrameOf s 2 n.val x _ (o := 16) (by rw [hlen])]
    unfold vintPayload
    rw [← hhead, ← Nat.add_zero (leBytes 4 q ++ leBytes 4 (2040 * k) ++ leBytes 8 0).length, slice_append_right, ← hpart, slice_of_le (by omega),
      List.drop_zero, List.take_length]

/-- The state with this number for the next vintage. -/
def State.atVseq (s : State) (q : ℕ) : State := { s with twin := { s.twin with vseq := q } }

/-- A vintage streamed: frames that carry every part of it, and VSEQ one on. -/
theorem streamVintage_sends {s : State} {n : ChanIx} {l : Fin 2} (v : Vintage) (hstream : s.streaming = true) (hl : s.twinLane n.val = some l)
    (hs : s.safe = false) : ∃ t, Streamed s t ∧ s.streamVintage n v = t.atVseq ((s.twin.vseq + 1) % 2 ^ 32) ∧
      ∀ k, 2040 * k < v.bytes.length → ∃ o ∈ t.out, VintPart n s.twin.vseq v.bytes k o := by
  have hpart : ∀ (y : State) (k : ℕ), Streamed y (y.twinSend 2 n.val (vintPayload y.twin.vseq v.bytes k)) := fun y k => streamed_twinSend y _ _ _
  have hsends : ∀ (y : State) (k : ℕ), Streamed s y →
      ∃ o ∈ (y.twinSend 2 n.val (vintPayload y.twin.vseq v.bytes k)).out, VintPart n s.twin.vseq v.bytes k o := fun y k hy => by
    have hseq : y.twin.vseq = s.twin.vseq := hy.vseq
    rw [← hseq]
    exact ⟨_, twinSend_puts 2 _ ((twinLane_of_laneUp hy.laneUp _).trans hl) ((safe_of_regs hy.regs).trans hs), vintPart_of_payload _ n _ _ _ _ k⟩
  refine ⟨_, Streamed.foldl hpart (List.range (ceilDiv v.bytes.length 2040)) (.refl s), ?_, fun k hk => ?_⟩
  · have hseq := (Streamed.foldl hpart (List.range (ceilDiv v.bytes.length 2040)) (.refl s)).vseq
    refine (if_neg (by rw [hstream]; decide)).trans ?_
    rw [← show _ = s.twin.vseq from hseq]
    rfl
  · refine Streamed.foldl_sends hpart hsends _ (.refl s) k (List.mem_range.mpr ?_)
    unfold ceilDiv
    omega

/-! ### A vintage written by a serving unit (R145, R270, R271) -/

/-- The vintage of channel `n` written: it stands in the non-volatile ring, and the journal notes it. -/
def State.keepVintage (s : State) (n : ChanIx) : State :=
  ({ s.wearOn 3 with twin := { s.twin with
      nvRing := (s.twin.nvNext, s.vintageOf n) :: s.twin.nvRing.filter (fun e => e.1 != s.twin.nvNext), nvNext := (s.twin.nvNext + 1) % 16,
      vintAt := s.twin.vintAt.set n (some (sar s.ch[n].now 64)) } } : State).setCh n (s.ch[n].journal (.vint s.twin.nvNext s.ch[n].jour.jseq))

theorem keepVintage_ch_self (s : State) (n : ChanIx) : (s.keepVintage n).ch[n] = s.ch[n].journal (.vint s.twin.nvNext s.ch[n].jour.jseq) :=
  setCh_ch_self _ _ _

theorem keepVintage_ch_ne (s : State) {n m : ChanIx} (h : m ≠ n) : (s.keepVintage n).ch[m] = s.ch[m] := setCh_ch_ne _ _ (Ne.symm h)

theorem serving_of_streaming {s : State} (h : s.streaming = true) : s.serving = true := by
  unfold State.serving
  rw [twst_of_streaming h]
  rfl

theorem writeVintage_streams {s : State} {n : ChanIx} (h : s.streaming = true) (hr : s.running n = true) :
    s.writeVintage n = (s.keepVintage n).streamVintage n (s.vintageOf n) :=
  if_neg (by rw [serving_of_streaming h, hr]; decide)

/-! ### Client entries -/

/-- A CLIENT frame of channel `n` for the entry at `ix` (R282). -/
def ClientOut (n : ChanIx) (ix : ℕ) (o : Output) : Prop :=
  ∃ l b, o = .twin l b ∧ leAt b 0 1 = 4 ∧ leAt b 1 1 = n.val ∧ leAt b 16 4 = ix % 2 ^ 32

theorem clientOut_of_payload (s : State) (n : ChanIx) (l x ix : ℕ) (bs : Bytes) :
    ClientOut n ix (.twin l (s.twinFrameOf 4 n.val x (leBytes 4 ix ++ bs))) := by
  refine ⟨l, _, rfl, leAt_twinFrameOf_type _ _ _ _ _, (leAt_twinFrameOf_chan _ _ _ _ _).trans (chan_mod n), ?_⟩
  rw [leAt_twinFrameOf s 4 n.val x _ (o := 0) (by rw [List.length_append, length_leBytes]; omega)]
  exact leAt_leBytes [] bs 4 ix

theorem streamed_streamClient (s : State) (n : ChanIx) (ix : ℕ) : Streamed s (s.streamClient n ix) := by
  have hdraw : Streamed s (s.free 1016).2 := ⟨rfl, fun _ h => h⟩
  unfold State.streamClient
  split
  · exact .refl s
  · exact hdraw.trans (streamed_twinSend _ _ _ _)

theorem streamClient_sends {s : State} {n : ChanIx} {l : Fin 2} (ix : ℕ) (hstream : s.streaming = true) (hl : s.twinLane n.val = some l)
    (hs : s.safe = false) : ∃ o ∈ (s.streamClient n ix).out, ClientOut n ix o := by
  unfold State.streamClient
  rw [if_neg (by rw [hstream]; decide)]
  exact ⟨_, twinSend_puts (s := (s.free 1016).2) 4 _ hl hs, clientOut_of_payload _ n _ _ ix _⟩

/-! ### The answer -/

/-- The vintage of channel `n` written and, where it is asked for (`w`), its client table streamed. -/
def State.sendState (s : State) (n : ChanIx) (w : ℕ) : State :=
  if w / 2 % 2 = 1 then (s.writeVintage n).ch[n].sealb.clients.foldl (fun s e => s.streamClient n e.1) (s.writeVintage n) else s.writeVintage n

section
variable {s : State} {l : Fin 2} {bs : Bytes} (ht : s.laneTakes l = true) (hb : twinSound bs) (hty : leAt bs 0 1 = 6)
include ht hb hty

theorem resyncFrame_ignored (h : ¬ (s.streaming = true ∧ s.safe = false)) : s.resyncFrame l bs = s.lseqRx l (leAt bs 4 4) := by
  refine (twinFrame_good ht hb hty).trans (if_pos ?_)
  rw [lseqRx_streaming, lseqRx_safe]
  by_contra hno
  exact h (by simpa using hno)

theorem resyncFrame_absent (h : s.streaming = true ∧ s.safe = false) (hr : s.running (Fin.ofNat 4 (leAt bs 1 1)) = false) :
    s.resyncFrame l bs = (s.lseqRx l (leAt bs 4 4)).reqAbsent (Fin.ofNat 4 (leAt bs 1 1)) := by
  refine (twinFrame_good ht hb hty).trans ((if_neg ?_).trans (if_pos ?_))
  · rw [lseqRx_streaming, lseqRx_safe, h.1, h.2]; decide
  · rw [lseqRx_running, hr]; rfl

theorem resyncFrame_answers (h : s.streaming = true ∧ s.safe = false) (hr : s.running (Fin.ofNat 4 (leAt bs 1 1)) = true) :
    s.resyncFrame l bs = ((s.lseqRx l (leAt bs 4 4)).gbump F.TWIN_CNT2_RESYNC).sendState (Fin.ofNat 4 (leAt bs 1 1)) (leAt bs 16 1) := by
  have hw : leAt (slice bs 16 4) 0 1 = leAt bs 16 1 := leAt_slice bs (by decide)
  refine (twinFrame_good ht hb hty).trans ((if_neg ?_).trans ((if_neg ?_).trans ?_))
  · rw [lseqRx_streaming, lseqRx_safe, h.1, h.2]; decide
  · rw [lseqRx_running, hr]; decide
  · rw [length_resyncFrame hb hty, hw]
    rfl

end

/-- A running channel's state is sent in two parts: the vintage kept and streamed, then the client entries where they are asked for. -/
theorem sendState_streams {s : State} {n : ChanIx} {l : Fin 2} (w : ℕ) (hstream : s.streaming = true) (hs : s.safe = false)
    (hr : s.running n = true) (hl : s.twinLane n.val = some l) :
    ∃ t, Streamed (s.keepVintage n) t ∧ Streamed (t.atVseq ((s.twin.vseq + 1) % 2 ^ 32)) (s.sendState n w) ∧
      (∀ k, 2040 * k < (s.vintageOf n).bytes.length → ∃ o ∈ t.out, VintPart n s.twin.vseq (s.vintageOf n).bytes k o) ∧
      (w / 2 % 2 = 1 → ∀ e ∈ s.ch[n].sealb.clients, ∃ o ∈ (s.sendState n w).out, ClientOut n e.1 o) := by
  have hkeep : (s.keepVintage n).regs = s.regs := rfl
  obtain ⟨t, ht, heq, hparts⟩ := streamVintage_sends (s := s.keepVintage n) (n := n) (s.vintageOf n) ((streaming_of_regs hkeep).trans hstream) hl
    ((safe_of_regs hkeep).trans hs)
  have hwritten : s.writeVintage n = t.atVseq ((s.twin.vseq + 1) % 2 ^ 32) := (writeVintage_streams hstream hr).trans heq
  have hregs : (s.writeVintage n).regs = s.regs := by rw [hwritten]; exact ht.regs
  have hlane : (s.writeVintage n).twinLane n.val = some l := by
    rw [hwritten]
    exact (twinLane_of_laneUp ht.laneUp n.val).trans hl
  have hclients : (s.writeVintage n).ch[n].sealb.clients = s.ch[n].sealb.clients := by
    have hch : (s.writeVintage n).ch = (s.keepVintage n).ch := by rw [hwritten]; exact ht.ch
    rw [hch, keepVintage_ch_self]
    rfl
  have hstep : ∀ (y : State) (e : ℕ × Client), Streamed y (y.streamClient n e.1) := fun y e => streamed_streamClient y n e.1
  unfold State.sendState
  rw [← hclients]
  generalize s.writeVintage n = y at *
  have hsends : ∀ (z : State) (e : ℕ × Client), Streamed y z → ∃ o ∈ (z.streamClient n e.1).out, ClientOut n e.1 o := fun z e hz =>
    streamClient_sends e.1 ((streaming_of_regs (hz.regs.trans hregs)).trans hstream) ((twinLane_of_laneUp hz.laneUp _).trans hlane)
      ((safe_of_regs (hz.regs.trans hregs)).trans hs)
  refine ⟨t, ht, ?_, hparts, fun hw => ?_⟩
  · rw [← hwritten]
    split
    · exact Streamed.foldl hstep _ (.refl y)
    · exact .refl y
  · rw [if_pos hw]
    exact Streamed.foldl_sends hstep hsends _ (.refl y)

end Sys2Proof.Machine
end

section
/-! The check of a drill on each channel's first record of L15 (R278). -/
namespace Sys2Proof.Machine

/-! ### Events of the twin that stay set -/

/-- From `s` to `t` every event that TWIN.EVT holds stays. -/
def EventsStay (s t : State) : Prop := ∀ k, bit (s.gword .twin TWIN_EVT) k = true → bit (t.gword .twin TWIN_EVT) k = true

theorem bit_testBit (x : Word) (k : ℕ) : bit x k = x.toNat.testBit k := by
  unfold bit getField
  rw [Nat.testBit_eq_decide_div_mod_eq, pow_one]
  rfl

namespace EventsStay

theorem refl (s : State) : EventsStay s s := fun _ h => h
theorem trans {s t u : State} (h : EventsStay s t) (g : EventsStay t u) : EventsStay s u := fun k hk => g k (h k hk)
theorem of_word {s t : State} (h : t.gword .twin TWIN_EVT = s.gword .twin TWIN_EVT) : EventsStay s t := fun k hk => by rw [h]; exact hk

theorem of_only {L : List StPart} {s t : State} (h : State.onlyIn L s t) (hL : StPart.twin ∉ L) : EventsStay s t :=
  .of_word (State.onlyIn_gword h .twin TWIN_EVT hL)

theorem ite {s a b : State} {p : Prop} [Decidable p] (ha : EventsStay s a) (hb : EventsStay s b) : EventsStay s (if p then a else b) := by
  split <;> assumption

theorem foldl {α : Type} {s x : State} {g : State → α → State} (hg : ∀ y a, EventsStay y (g y a)) (l : List α) (h : EventsStay s x) :
    EventsStay s (l.foldl g x) := by
  induction l generalizing x with
  | nil => exact h
  | cons a r ih => exact ih (h.trans (hg x a))

theorem gput (s : State) (f : GF) (v : ℕ) (h : f.blk ≠ .twin ∨ f.off ≠ TWIN_EVT) : EventsStay s (s.gput f v) := .of_word (gword_gput_ne s f v _ _ h)

/-- An event that hardware sets. -/
theorem gevt (s : State) (f : GF) (hb : f.blk = .twin) (ho : f.off = TWIN_EVT) : EventsStay s (s.gevt f) := fun k hk => by
  have hword : (s.gevt f).gword .twin TWIN_EVT = s.gword .twin TWIN_EVT ||| BitVec.ofNat 32 (2 ^ f.lsb) := by
    unfold State.gevt
    rw [hb, ho]
    exact gword_gevtMask s _ _ (by decide)
  rw [bit_testBit] at hk
  rw [hword, bit_testBit, BitVec.toNat_or, Nat.testBit_or, hk, Bool.true_or]

end EventsStay

theorem setDrive_events (s : State) (b : Bool) : EventsStay s (s.setDrive b) := by
  unfold State.setDrive
  extract_lets s1
  have h1 : EventsStay s s1 := .ite (.refl s) ((EventsStay.gput s _ _ (.inr (by decide))).trans (.gevt _ _ rfl rfl))
  exact .foldl (fun y n => .of_only (in_driveCh (L := [.ch]) n rfl (State.onlyIn_refl _ y)) (by decide)) _ h1

theorem endDrill_events (s : State) (res : ℕ) : EventsStay s (s.endDrill res) := by
  unfold State.endDrill
  split
  · exact .refl s
  · extract_lets s1
    have htally : EventsStay s1 (s1.updTally fun r => { r with drills := State.satCount r.drills }) :=
      .of_only (in_updTally (L := [.tally]) _ rfl (State.onlyIn_refl _ s1)) (by decide)
    have hend : ∀ (slot : ℕ) (y : State), EventsStay y (y.endCmd slot res 0) := fun slot y =>
      .of_only (in_endCmd (L := [.hostif, .cmdq, .out]) slot res 0 rfl (State.onlyIn_refl _ y)) (by decide)
    exact .ite (htally.trans (hend _ _)) (hend _ s1)

theorem twinTo_events (s : State) (st : ℕ) (org : Origin) : EventsStay s (s.twinTo st org) := by
  unfold State.twinTo
  split
  · exact .refl s
  · extract_lets old leave s1 s2 s3
    have h1 : EventsStay s s1 := .gput s _ _ (.inr (by decide))
    have h2 : EventsStay s s2 := .ite (h1.trans (.gput s1 _ _ (.inr (by decide)))) h1
    have h3 : EventsStay s s3 := (h2.trans (.gevt s2 F.TWIN_EVT_STATE rfl rfl)).trans
      (.of_only (in_bookSt (L := [.hostif, .book, .tally, .free, .out]) _ _ _ _ rfl (State.onlyIn_refl _ _)) (by decide))
    exact .ite (h3.trans (endDrill_events s3 _)) h3

theorem setPath_events (s : State) (b : Bool) (v : ℕ) : EventsStay s (s.setPath b v) := by
  unfold State.setPath
  extract_lets f
  have hf : f.off ≠ TWIN_EVT := by unfold f; cases b <;> decide
  exact .ite (.refl s) ((EventsStay.gput s f v (.inr hf)).trans (.gevt _ F.TWIN_EVT_PATH rfl rfl))

theorem coldEntry_events (s : State) (st : ℕ) (org : Origin) : EventsStay s (s.coldEntry st org) := by
  unfold State.coldEntry
  extract_lets s1 s2
  have h1 : EventsStay s s1 := setDrive_events (s.updTwin fun t => { t with rack := none }) false
  have h2 : EventsStay s s2 := ((h1.trans (twinTo_events s1 st org)).trans (setPath_events _ false 0)).trans (setPath_events _ true 0)
  exact .foldl (fun y n => .of_only (in_gateCh (L := [.hostif, .cmdq, .vault, .book, .bench, .pwr, .image, .ch, .free, .out]) n rfl
    (State.onlyIn_refl _ y)) (by decide)) _ h2

theorem drillFail_event {s : State} (hd : s.twst = TW_DRILL) (hs : s.safe = false) : s.drillFail.gcur F.TWIN_EVT_DRILL_FAIL = 1 := by
  unfold State.drillFail
  rw [if_neg (by rw [hd, hs]; decide)]
  extract_lets s1
  have hset : bit (s1.gword .twin TWIN_EVT) 9 = true :=
    beq_iff_eq.mpr (gcur_gevt (s.sendDrill 3 s.rackReason) F.TWIN_EVT_DRILL_FAIL (by decide) rfl (by decide))
  exact eq_of_beq (coldEntry_events (s1.updTally fun r => { r with drillFail := State.satCount r.drillFail }) TW_STANDBY twinOrg 9 hset)

/-! ### The drive right is held -/

/-- A unit without a claim takes no drive right. -/
theorem holdDrive_idle {s : State} (h : s.effClaim = 0) : s.holdDrive.regs = s.regs ∧ s.holdDrive.twin.rack = s.twin.rack := by
  unfold State.holdDrive
  rw [h]
  simp only [bne_self_eq_false, Bool.and_false, Bool.false_and, Bool.false_eq_true, if_false]
  split <;> exact ⟨rfl, rfl⟩

theorem holdDrive_keeps (s : State) : s.holdDrive.twst = s.twst ∧ s.holdDrive.twin.rack = s.twin.rack := by
  unfold State.holdDrive
  extract_lets bad s1
  have h1 : s1.twst = s.twst ∧ s1.twin = s.twin := by
    unfold s1
    split
    · obtain ⟨u, hu, hk, -, htwin⟩ := setDrive_facts s true
      rw [hu]
      exact ⟨hk.twst (by decide), htwin⟩
    · exact ⟨rfl, rfl⟩
  have hrack : s1.twin.rack = s.twin.rack := congrArg TwinSt.rack h1.2
  split <;> exact ⟨h1.1, hrack⟩

/-! ### The check -/

/-- The drill check of one racked channel, with its JSEQ then. -/
def State.checkL15 (s : State) (e : ChanIx × ℕ) : State := match State.firstL15 s.ch[e.1] e.2 with | some r => s.drillRecord e.1 r | none => s

/-- There is nothing to check of a channel: no racking, or the channel checked, or no record of L15 yet. -/
def State.unchecked (s : State) (e : ChanIx × ℕ) : Prop :=
  ∀ k, s.twin.rack = some k → e.1 ∈ k.checked ∨ State.firstL15 s.ch[e.1] e.2 = none

theorem drillRecord_checked {s : State} {n : ChanIx} (r : MeasRec) (h : ∀ k, s.twin.rack = some k → n ∈ k.checked) : s.drillRecord n r = s := by
  unfold State.drillRecord
  split
  · rfl
  · next k hk => exact if_pos (.inr (.inr (List.contains_iff_mem.mpr (h k hk))))

theorem checkL15_idle {s : State} {e : ChanIx × ℕ} (h : s.unchecked e) : s.checkL15 e = s := by
  unfold State.checkL15
  split
  · next r hr => exact drillRecord_checked r fun k hk => (h k hk).resolve_right (by rw [hr]; exact Option.some_ne_none r)
  · rfl

theorem checkL15_foldl_idle {s : State} {l : List (ChanIx × ℕ)} (h : ∀ e ∈ l, s.unchecked e) : l.foldl State.checkL15 s = s := by
  induction l with
  | nil => rfl
  | cons e r ih =>
    rw [List.foldl_cons, checkL15_idle (h e List.mem_cons_self)]
    exact ih fun x hx => h x (List.mem_cons_of_mem _ hx)

/-- Of a drill's racked channels only `c` has a first record of L15 that is not checked: `r`. -/
structure OneToCheck (s : State) (k : RackSt) (c : ChanIx) (i : ℕ) (r : MeasRec) : Prop where
  rack : s.twin.rack = some k
  once : (k.done.map Prod.fst).Nodup
  racked : (c, i) ∈ k.done
  fresh : c ∉ k.checked
  first : State.firstL15 s.ch[c] i = some r
  others : ∀ e ∈ k.done, e.1 ≠ c → e.1 ∈ k.checked ∨ State.firstL15 s.ch[e.1] e.2 = none

section
variable {s : State} {k : RackSt} {c : ChanIx} {i : ℕ} {r : MeasRec} (h : OneToCheck s k c i r)
include h

/-- The check of all racked channels comes to that of `c`: the ones before it, and those after it, have nothing to check. -/
theorem drillRecords_one (hafter : ∀ e ∈ k.done, e.1 ≠ c → (s.drillRecord c r).unchecked e) : s.drillRecords = s.drillRecord c r := by
  obtain ⟨a, b, hsplit⟩ := List.append_of_mem h.racked
  have hne : ∀ e ∈ a ++ b, e.1 ≠ c := by
    have hnodup := h.once
    rw [hsplit, List.map_append, List.map_cons, List.nodup_middle, List.nodup_cons, ← List.map_append] at hnodup
    exact fun e he hc => hnodup.1 (List.mem_map.mpr ⟨e, he, hc⟩)
  have hmem : ∀ e ∈ a ++ b, e ∈ k.done := fun e he => by
    rw [hsplit]
    rcases List.mem_append.mp he with he | he
    · exact List.mem_append_left _ he
    · exact List.mem_append_right _ (List.mem_cons_of_mem _ he)
  have hbefore : a.foldl State.checkL15 s = s := checkL15_foldl_idle fun e he j hj => by
    obtain rfl : k = j := Option.some.inj (h.rack.symm.trans hj)
    have hab : e ∈ a ++ b := List.mem_append_left _ he
    exact h.others e (hmem e hab) (hne e hab)
  have hthis : s.checkL15 (c, i) = s.drillRecord c r := by
    unfold State.checkL15
    rw [show State.firstL15 s.ch[(c, i).1] (c, i).2 = some r from h.first]
  have hrest : b.foldl State.checkL15 (s.drillRecord c r) = s.drillRecord c r := checkL15_foldl_idle fun e he => by
    have hab : e ∈ a ++ b := List.mem_append_right _ he
    exact hafter e (hmem e hab) (hne e hab)
  have hall : s.drillRecords = k.done.foldl State.checkL15 s := by
    unfold State.drillRecords
    rw [h.rack]
    rfl
  rw [hall, hsplit, List.foldl_append, hbefore, List.foldl_cons, hthis, hrest]

variable (hd : s.twst = TW_DRILL) (hk : k.drill = true)
include hd hk

theorem drillRecord_fails (hr : r.teb * 2 ^ 24 < r.offset.natAbs) : s.drillRecord c r = s.drillFail := by
  unfold State.drillRecord
  rw [h.rack]
  refine (if_neg ?_).trans (if_pos hr)
  simpa [hd, hk] using h.fresh

theorem drillRecord_passes (hr : ¬ r.teb * 2 ^ 24 < r.offset.natAbs) :
    ∃ g, g.checked = c :: k.checked ∧ s.drillRecord c r = s.updTwin (fun t => { t with rack := some g }) := by
  unfold State.drillRecord
  rw [h.rack]
  refine ⟨_, ?_, (if_neg ?_).trans (if_neg hr)⟩
  · rfl
  · simpa [hd, hk] using h.fresh

end

/-! ### What the twin settles in a drill -/

/-- The fields that follow the twin's state after every command. -/
def State.twinShows (s : State) : State :=
  ((s.gput F.TWIN_STAT_READY s.readyBits).gput F.TWIN_STAT_FEEDS_OK (b2n s.feedsOk)).gput F.TWIN_CLAIM_CLAIM s.effClaim

theorem twinShows_keeps (s : State) : State.keeps .twin [F.TWIN_STAT_READY, F.TWIN_STAT_FEEDS_OK, F.TWIN_CLAIM_CLAIM] s s.twinShows :=
  keeps_trans (keeps_trans (keeps_gput s F.TWIN_STAT_READY _ (by decide) (by decide)) (keeps_gput _ F.TWIN_STAT_FEEDS_OK _ (by decide) (by decide)))
    (keeps_gput _ F.TWIN_CLAIM_CLAIM _ (by decide) (by decide))

theorem twinShows_twin (s : State) : s.twinShows.twin = s.twin :=
  (gput_twin _ F.TWIN_CLAIM_CLAIM _).trans ((gput_twin _ F.TWIN_STAT_FEEDS_OK _).trans (gput_twin _ F.TWIN_STAT_READY _))

theorem twinSettle_drill {s : State} {k : RackSt} (hd : s.twst = TW_DRILL) (hk : s.twin.rack = some k) (hf : k.failed = false) :
    s.twinSettle = s.drillRecords.holdDrive.twinShows := by
  have hstandby : ¬ (s.twst == TW_STANDBY && s.paired && !s.safe) = true := by rw [hd]; exact Bool.false_ne_true
  have hfailed : ¬ (s.twst = TW_DRILL ∧ s.twin.rack.any (·.failed) = true) := by
    rw [hk]
    exact fun h => Bool.false_ne_true (hf.symm.trans h.2)
  unfold State.twinSettle
  extract_lets was s1 s2 s3
  have h1 : s1 = s := if_neg hstandby
  have h2 : s2 = s.drillRecords := by
    unfold s2
    rw [h1, if_neg hfailed]
  show s2.holdDrive.twinShows = _
  rw [h2]

theorem effClaim_standby {s : State} (h : s.twst = TW_STANDBY) : s.effClaim = 0 := by
  have hidle : ¬ ((TW_STANDBY = TW_RACKING ∨ TW_STANDBY = TW_DRILL) ∧ s.twin.rack.any (·.claim) = true) := fun hclaim =>
    absurd hclaim.1 (by decide)
  unfold State.effClaim
  rw [h, if_neg (show TW_STANDBY ≠ TW_ACTIVE by decide), if_neg hidle, ite_self]

section
variable {s : State} {k : RackSt} {c : ChanIx} {i : ℕ} {r : MeasRec} (h : OneToCheck s k c i r) (hd : s.twst = TW_DRILL) (hk : k.drill = true)
  (hf : k.failed = false)
include h hd hk hf

/-- A drill whose record is not in its bound fails (R278). -/
theorem twinSettle_fails (hs : s.safe = false) (hr : r.teb * 2 ^ 24 < r.offset.natAbs) : s.twinSettle.twst = TW_STANDBY ∧
    s.twinSettle.gcur F.TWIN_STAT_DRIVE = 0 ∧ s.twinSettle.gcur F.TWIN_EVT_DRILL_FAIL = 1 ∧ s.twinSettle.twin.rack = none := by
  obtain ⟨hst, hdrive, hrack⟩ := drillFail_leaves hd hs
  have hevent := drillFail_event hd hs
  have hfails : s.drillRecord c r = s.drillFail := drillRecord_fails h hd hk hr
  have hrecords : s.drillRecords = s.drillFail := by
    refine (drillRecords_one h fun e _ _ j hj => ?_).trans hfails
    rw [hfails, hrack] at hj
    exact absurd hj (by simp)
  obtain ⟨hregs, hheld⟩ := holdDrive_idle (effClaim_standby hst)
  have hshows := twinShows_keeps s.drillFail.holdDrive
  rw [twinSettle_drill hd h.rack hf, hrecords, twinShows_twin]
  exact ⟨(hshows.2 F.TWIN_STAT_STATE rfl (by decide)).trans ((twst_of_regs hregs).trans hst),
    (hshows.2 F.TWIN_STAT_DRIVE rfl (by decide)).trans ((gcur_of_regs hregs _).trans hdrive),
    (hshows.2 F.TWIN_EVT_DRILL_FAIL rfl (by decide)).trans ((gcur_of_regs hregs _).trans hevent), hheld.trans hrack⟩

/-- A record in its bound is checked, and the drill goes on. -/
theorem twinSettle_passes (hr : ¬ r.teb * 2 ^ 24 < r.offset.natAbs) :
    s.twinSettle.twst = TW_DRILL ∧ ∃ g, s.twinSettle.twin.rack = some g ∧ g.checked = c :: k.checked := by
  obtain ⟨g, hg, hpass⟩ := drillRecord_passes h hd hk hr
  have hrecords : s.drillRecords = s.updTwin fun t => { t with rack := some g } := by
    refine (drillRecords_one h fun e he hne j hj => ?_).trans hpass
    rw [hpass] at hj ⊢
    obtain rfl : g = j := Option.some.inj hj
    exact (h.others e he hne).imp_left fun hin => hg ▸ List.mem_cons_of_mem _ hin
  obtain ⟨hst, hheld⟩ := holdDrive_keeps (s.updTwin fun t => { t with rack := some g })
  rw [twinSettle_drill hd h.rack hf, hrecords, twinShows_twin]
  exact ⟨((twinShows_keeps _).2 F.TWIN_STAT_STATE rfl (by decide)).trans (hst.trans hd), g, hheld, hg⟩

end

end Sys2Proof.Machine
end

section
/-! The effects of the commands by which the twins stream (R268, R269, R281). -/
namespace Sys2Proof.Machine

/-! ### The answer to RESYNC -/

theorem keepVintage_only (s : State) (n : ChanIx) : State.onlyIn [.tally, .twin, .ch] s (s.keepVintage n) := by
  refine in_setCh n _ rfl ?_
  exact State.onlyIn_trans (in_wearOn 3 rfl (State.onlyIn_refl _ s)) ⟨rfl, rfl, rfl, fun q hq => by cases q <;> simp_all [State.same]⟩

theorem atVseq_only (s : State) (q : ℕ) : State.onlyIn [.twin] s (s.atVseq q) :=
  ⟨rfl, rfl, rfl, fun p hp => by cases p <;> simp_all [State.atVseq, State.same]⟩

/-- What the answer leaves of the device's state and puts out (R145, R229, R270, R282). -/
structure Answered (s u : State) (n : ChanIx) (w : ℕ) : Prop where
  only : State.onlyIn [.tally, .twin, .ch, .free, .out] s u
  ring : u.twin.nvRing = (s.twin.nvNext, s.vintageOf n) :: s.twin.nvRing.filter (fun e => e.1 != s.twin.nvNext)
  next : u.twin.nvNext = (s.twin.nvNext + 1) % 16
  noted : u.ch[n] = s.ch[n].journal (.vint s.twin.nvNext s.ch[n].jour.jseq)
  others : ∀ m : ChanIx, m ≠ n → u.ch[m] = s.ch[m]
  vseq : u.twin.vseq = (s.twin.vseq + 1) % 2 ^ 32
  parts : ∀ k, 2040 * k < (s.vintageOf n).bytes.length → ∃ o ∈ u.out, VintPart n s.twin.vseq (s.vintageOf n).bytes k o
  clients : w / 2 % 2 = 1 → ∀ e ∈ s.ch[n].sealb.clients, ∃ o ∈ u.out, ClientOut n e.1 o

theorem sendState_answered {s : State} {n : ChanIx} {l : Fin 2} (w : ℕ) (hstream : s.streaming = true) (hs : s.safe = false)
    (hr : s.running n = true) (hl : s.twinLane n.val = some l) : Answered s (s.sendState n w) n w ∧ (s.sendState n w).regs = s.regs := by
  obtain ⟨t, hvint, hclients, hparts, htable⟩ := sendState_streams w hstream hs hr hl
  have hch : (s.sendState n w).ch = (s.keepVintage n).ch := hclients.ch.trans hvint.ch
  refine ⟨?_, hclients.regs.trans hvint.regs⟩
  exact
    { only := State.onlyIn_step rfl (State.onlyIn_step rfl (State.onlyIn_step rfl (State.onlyIn_mono rfl (keepVintage_only s n)) hvint.onlyIn)
        (atVseq_only t _)) hclients.onlyIn
      ring := hclients.nvRing.trans hvint.nvRing
      next := hclients.nvNext.trans hvint.nvNext
      noted := by rw [hch]; exact keepVintage_ch_self s n
      others := fun m hm => by rw [hch]; exact keepVintage_ch_ne s hm
      vseq := hclients.vseq
      parts := fun k hk => (hparts k hk).imp fun o ho => ⟨hclients.grows o ho.1, ho.2⟩
      clients := htable }

theorem vintageOf_congr {s t : State} (n : ChanIx) (hch : t.ch = s.ch) (himg : t.img = s.img) (hfuse : t.fuse = s.fuse)
    (hepoch : t.gcur F.TWIN_EPOCH_EPOCH = s.gcur F.TWIN_EPOCH_EPOCH) : t.vintageOf n = s.vintageOf n := by
  unfold State.vintageOf
  rw [hch, himg, hfuse, hepoch]

/-- A RESYNC frame as a serving unit takes it: its LSEQ, and one more in the count. -/
def State.askedAgain (s : State) (l : Fin 2) (q : ℕ) : State := (s.lseqRx l q).gbump F.TWIN_CNT2_RESYNC

section
variable (s : State) (l : Fin 2) (q : ℕ)

theorem askedAgain_only : State.onlyIn [.twin, .out] s (s.askedAgain l q) := in_gbump F.TWIN_CNT2_RESYNC (by decide) (lseqRx_only s l q)

theorem askedAgain_keeps : State.keeps .twin lseqMarks s (s.askedAgain l q) :=
  keeps_trans (lseqRx_keeps s l q) (keeps_gput _ F.TWIN_CNT2_RESYNC _ (by decide) (by decide))

theorem askedAgain_resync (h : s.twst ≠ TW_STANDBY) : (s.askedAgain l q).gcur F.TWIN_CNT2_RESYNC = (s.gcur F.TWIN_CNT2_RESYNC + 1) % 65536 := by
  obtain ⟨-, hcount, -⟩ := lseqRx_quiet s l q h
  exact (gcur_gput_self _ F.TWIN_CNT2_RESYNC _ (by decide)).trans (by rw [hcount]; rfl)

theorem askedAgain_twin (h : s.twst ≠ TW_STANDBY) :
    ∃ rx, (s.askedAgain l q).twin = { s.twin with lseqRx := s.twin.lseqRx.set l (some q), rx := rx } :=
  (lseqRx_quiet s l q h).2.2

theorem askedAgain_ch : (s.askedAgain l q).ch = s.ch := (askedAgain_only s l q).2.2.2 .ch (by decide)

theorem askedAgain_streaming : (s.askedAgain l q).streaming = s.streaming := streaming_of_keeps (askedAgain_keeps s l q)

theorem askedAgain_safe : (s.askedAgain l q).safe = s.safe := safe_of_only (askedAgain_only s l q) (by decide)

theorem askedAgain_running (n : ChanIx) : (s.askedAgain l q).running n = s.running n :=
  running_of_only (askedAgain_only s l q) (by decide) n

theorem askedAgain_vintageOf (n : ChanIx) : (s.askedAgain l q).vintageOf n = s.vintageOf n :=
  vintageOf_congr n (askedAgain_ch s l q) ((askedAgain_only s l q).2.2.2 .image (by decide)).1 (askedAgain_only s l q).1
    ((askedAgain_keeps s l q).2 F.TWIN_EPOCH_EPOCH rfl (by decide))

variable {s l q} in
/-- What is answered after the frame is taken is answered from the state before it. -/
theorem Answered.of_askedAgain {u : State} {n : ChanIx} {w : ℕ} (h : Answered (s.askedAgain l q) u n w) (hst : s.twst ≠ TW_STANDBY) : Answered s u n w := by
  obtain ⟨rx, htwin⟩ := askedAgain_twin s l q hst
  have hch := askedAgain_ch s l q
  have hvint := askedAgain_vintageOf s l q n
  obtain ⟨honly, hring, hnext, hnoted, hothers, hvseq, hparts, hclients⟩ := h
  rw [htwin] at hring hnext hnoted hvseq hparts
  rw [hch] at hnoted hothers hclients
  rw [hvint] at hring hparts
  exact ⟨State.onlyIn_trans (State.onlyIn_mono rfl (askedAgain_only s l q)) honly, hring, hnext, hnoted, hothers, hvseq, hparts, hclients⟩

end

end Sys2Proof.Machine
end

section
/-! The twins stream time, journal entries, vintages and client entries (R229, R268, R269, R278, R279, R281, R328). -/
namespace Sys2Proof.Machine

/-! ### What a TIME frame sent leaves -/

theorem timeSend_leaves {s : State} {c : ChanIx} {l : Fin 2} (ps : ℕ)
    (h : s.streaming = true ∧ s.safe = false ∧ s.running c = true ∧ s.ch[c].secondHere ≠ none) (hl : s.twinLane c.val = some l) :
    State.onlyIn [.twin, .out] s (s.clear.timeSend c ps) ∧ (s.clear.timeSend c ps).regs = s.regs ∧
      (s.clear.timeSend c ps).out = [.twin l.val (s.twinFrameOf 5 c.val s.twin.lseqTx[l] (s.ch[c].twinTime ps))] ∧
      (s.clear.timeSend c ps).twin = { s.twin with lseqTx := s.twin.lseqTx.set l ((s.twin.lseqTx[l] + 1) % 2 ^ 32) } := by
  have hsends : s.clear.timeSend c ps = _ := (timeSend_sends (s := s.clear) ps h).trans (twinSend_some _ _ hl h.2.1)
  rw [hsends]
  exact ⟨⟨rfl, rfl, rfl, fun q hq => by cases q <;> simp_all [State.same]⟩, rfl, rfl, rfl⟩

/-! ### What a taken frame leaves -/

section
variable {s : State} {l : Fin 2} {bs : Bytes} (ht : s.laneTakes l = true) (hb : twinSound bs)
include ht hb

theorem timeFrame_measures {ps : ℕ} {n : ChanIx} (hn : Fin.ofNat 4 (leAt bs 1 1) = n) (hty : leAt bs 0 1 = 5) (hr : s.running n = true)
    (he : (s.ch[n].lane 15).exist = true) :
    State.onlyIn [.twin, .ch, .out] s (s.timeFrame l bs ps) ∧ (s.timeFrame l bs ps).twin = (s.lseqRx l (leAt bs 4 4)).twin ∧
      s.changed (s.timeFrame l bs ps) n fun d => Channel.onlyIn [.ref, .dpll, .scale, .tprev, .free, .asks] s.ch[n] d ∧
        s.ch[n].measures d 4000 (TwinRec s.ch[n] (leAt bs 16 16) (leAt bs 32 4) ps (s.gcur F.TWIN_TDLY_TDLY) (signed 32 (s.gfld F.TWIN_TCAL_TCAL))
          (s.gfld F.TWIN_TBUD_TBUD)) := by
  subst hn
  have htx : leAt (slice bs 16 40) 0 16 = leAt bs 16 16 := leAt_slice bs (by decide)
  have hteb : leAt (slice bs 16 40) 16 4 = leAt bs 32 4 := leAt_slice bs (by decide)
  rw [timeFrame_running ht hb hty hr, ← htx, ← hteb]
  exact ⟨in_setCh _ _ rfl (in_lseqRx l _ rfl (State.onlyIn_refl _ s)), rfl, _,
    ⟨on_twinRecord _ _ _ _ _ rfl (Channel.onlyIn_refl _ _), twinRecord_measures _ _ _ _ _ he⟩, setCh_ch_self _ _ _,
    fun m hm => (setCh_ch_ne _ _ (Ne.symm hm)).trans (by rw [lseqRx_ch])⟩

theorem clientFrame_holds {n : ChanIx} (hn : Fin.ofNat 4 (leAt bs 1 1) = n) (hty : leAt bs 0 1 = 4) (hst : s.takesStream = true) :
    State.onlyIn [.twin, .ch, .image, .out] s (s.clientFrame l bs) ∧ (s.clientFrame l bs).twin = (s.lseqRx l (leAt bs 4 4)).twin ∧
      (∀ m : ChanIx, m ≠ n → (s.clientFrame l bs).ch[m] = s.ch[m]) ∧ (s.clientFrame l bs).regs.image = (s.counted n).regs.image ∧
      (s.clientFrame l bs).ch[n] = { s.ch[n] with sealb := { s.ch[n].sealb with clients := takenClient s.ch[n].sealb.clients bs } } := by
  subst hn
  rw [clientFrame_taken ht hb hty hst]
  exact ⟨in_setCh _ _ rfl (counted_only _ _ rfl (in_lseqRx l _ rfl (State.onlyIn_refl _ s))), counted_twin _ _,
    fun m hm => (setCh_ch_ne _ _ (Ne.symm hm)).trans (by rw [counted_ch, lseqRx_ch]), counted_image s _ (lseqRx_image s l _), setCh_ch_self _ _ _⟩

theorem resyncFrame_answered {n : ChanIx} (hn : Fin.ofNat 4 (leAt bs 1 1) = n) (hty : leAt bs 0 1 = 6) (h : s.streaming = true ∧ s.safe = false)
    (hr : s.running n = true) : Answered s (s.resyncFrame l bs) n (leAt bs 16 1) ∧ State.keeps .twin lseqMarks s (s.resyncFrame l bs) ∧
      (s.resyncFrame l bs).gcur F.TWIN_CNT2_RESYNC = (s.gcur F.TWIN_CNT2_RESYNC + 1) % 65536 := by
  subst hn
  have hst : s.twst ≠ TW_STANDBY := by rw [twst_of_streaming h.1]; decide
  have hup : s.twin.laneUp[l] = true := ((Bool.and_eq_true _ _).mp ht).2
  have hlanes : (s.askedAgain l (leAt bs 4 4)).twin.laneUp = s.twin.laneUp := by
    obtain ⟨rx, htwin⟩ := askedAgain_twin s l (leAt bs 4 4) hst
    rw [htwin]
  obtain ⟨l', hl'⟩ := twinLane_of_up (Fin.ofNat 4 (leAt bs 1 1)).val hup
  obtain ⟨hanswered, hregs⟩ := sendState_answered (leAt bs 16 1) ((askedAgain_streaming s l _).trans h.1) ((askedAgain_safe s l _).trans h.2)
    ((askedAgain_running s l _ _).trans hr) ((twinLane_of_laneUp hlanes _).trans hl')
  rw [show s.resyncFrame l bs = _ from resyncFrame_answers ht hb hty h hr]
  exact ⟨hanswered.of_askedAgain hst, keeps_trans (askedAgain_keeps s l _) (keeps_of_regs hregs),
    (gcur_of_regs hregs _).trans (askedAgain_resync s l _ hst)⟩

end

section
variable {s : State} {l : Fin 2} (ht : s.laneTakes l = true) (hst : s.takesStream = true)
include ht hst

theorem jourFrame_holds {f : JourFrame} (hb : jourSound f) : State.onlyIn [.twin, .image, .out] s (s.jourFrame l f) ∧
    (s.jourFrame l f).twin = { (s.lseqRx l f.lseq).twin with
      rx := (s.lseqRx l f.lseq).twin.rx.set f.ch ((jourIndexed f).foldl State.rxEntry (s.lseqRx l f.lseq).twin.rx[f.ch]) } ∧
    (s.jourFrame l f).regs.image = (s.counted f.ch).regs.image ∧
    ∀ e, f.entries.getLast? = some e → (s.jourFrame l f).get64 .twin (TWIN_RX_JSEQ f.ch.val 0) = e.jseq % 2 ^ 64 := by
  obtain ⟨e, he⟩ : ∃ e, f.entries.getLast? = some e := Option.isSome_iff_exists.mp (List.getLast?_isSome.mpr hb.2.1)
  rw [jourFrame_taken ht hb hst he]
  refine ⟨in_put64 _ _ _ (by decide) (in_updRx _ _ rfl (counted_only _ _ rfl (in_lseqRx l _ rfl (State.onlyIn_refl _ s)))), ?_,
    counted_image s _ (lseqRx_image s l _), fun e' he' => ?_⟩
  · exact congrArg (fun t : TwinSt => { t with rx := t.rx.set f.ch ((jourIndexed f).foldl State.rxEntry t.rx[f.ch]) }) (counted_twin _ _)
  · obtain rfl : e = e' := Option.some.inj (he.symm.trans he')
    exact get64_put64 _ _ _ _

theorem vintFrame_holds {f : VintFrame} {m : RxChan} (hb : vintSound f) (hm : State.rxVint (s.lseqRx l f.lseq).twin.rx[f.ch] f = m) :
    s.vintFrame l f = ((s.lseqRx l f.lseq).counted f.ch).updTwin (fun t => { t with rx := t.rx.set f.ch m }) ∧
      State.onlyIn [.twin, .image, .out] s (s.vintFrame l f) := by
  rw [vintFrame_taken ht hb hst]
  refine ⟨?_, in_updRx _ _ rfl (counted_only _ _ rfl (in_lseqRx l _ rfl (State.onlyIn_refl _ s)))⟩
  rw [← hm, ← counted_twin _ f.ch]
  rfl

end

/-- A journal entry taken, said by the JSEQ of the last one. -/
def takenEntry (r : RxChan) (e : JEntry) : RxChan :=
  let last := r.entries.head?.map (·.jseq)
  let old : Bool := match last with | some k => decide (e.jseq ≤ k) | none => false
  { r with
    vints := if old then r.vints.map (fun y => { y with gap := true }) else r.vints,
    entries := (e :: (if old then [] else r.entries)).take 131072,
    cont := if e.bad then some (e.jseq + 1) else match last with
      | some k => if e.jseq = k + 1 ∧ r.cont ≠ none then r.cont else some e.jseq
      | none => some e.jseq }

theorem rxEntry_eq (r : RxChan) (e : JEntry) : State.rxEntry r e = takenEntry r e := by
  unfold takenEntry
  cases hlast : r.entries.head? with
  | none => rw [rxEntry_first hlast]; rfl
  | some p => rw [rxEntry_after hlast]; simp

/-! ### The frames that bytes carry -/

/-- What every command that receives a frame of bytes does with one that is not its own. -/
theorem acts_twinFrame {i : Instr} {s : State} {l : Fin 2} {bs : Bytes} {ty : ℕ} {f : State → ℕ → ℕ → Bytes → State} (hscan : s.scanning = false)
    (hi : mayRate i = false) (heffect : s.clear.effect i = s.clear.twinFrame l bs ty f) :
    (¬ s.laneTakes l = true → Acts i s (fun u => u = s.clear)) ∧
    (s.laneTakes l = true → ¬ twinSound bs → Acts i s (fun u => u = s.clear.twinBad l)) ∧
    (s.laneTakes l = true → twinSound bs → leAt bs 0 1 ≠ ty → Acts i s (fun u => u = s.clear)) :=
  ⟨fun h => acts_intro hscan hi (heffect.trans (twinFrame_untaken h)), fun h hb => acts_intro hscan hi (heffect.trans (twinFrame_bad h hb)),
    fun h hb hty => acts_intro hscan hi (heffect.trans (twinFrame_other h hb hty))⟩

end Sys2Proof.Machine

namespace Sys2Proof
open Sys2Proof.Machine

/-- Settles O49, command by command: each frame is either discarded, taken for its LSEQ alone, or does what its TYPE says, and the drill's check comes to the check
of the one channel that has a record to check. -/
theorem twinsStreamTheirState : Obligations.TwinsStreamTheirState := by
  intro s c lane bs ps j v hscan Send sends
  have hclear : ∀ {L : List StPart}, stPartsIn [.out] L = true → ∀ {u}, State.onlyIn L s.clear u → State.onlyIn L s u := fun hL _ h =>
    State.onlyIn_trans (in_clear hL (State.onlyIn_refl _ s)) h
  have hputs : ∀ {m : RxChan}, s.laneTakes lane = true → vintSound v → (s.twst = TW_STANDBY ∨ s.twst = TW_RACKING ∨ s.twst = TW_DRILL) →
      State.rxVint (s.clear.lseqRx lane v.lseq).twin.rx[v.ch] v = m → Acts (.vintFrameRx lane v) s fun u =>
        u = State.updTwin (if s.running v.ch then s.clear.lseqRx lane v.lseq else (s.clear.lseqRx lane v.lseq).reqAbsent v.ch)
          (fun t => { t with rx := t.rx.set v.ch m }) ∧ State.onlyIn [.twin, .image, .out] s u := fun ht hb hst hm => by
    obtain ⟨hframe, honly⟩ := vintFrame_holds (s := s.clear) ht ((takesStream_iff _).mpr hst) hb hm
    rw [counted_lseqRx] at hframe
    exact acts_intro hscan rfl ⟨hframe, hclear rfl honly⟩
  have hadd : State.rxEntry = takenEntry := funext fun r => funext fun e => rxEntry_eq r e
  refine ⟨fun h => ?_, fun h hl => ?_, fun l h hl => ?_, ?_, fun ⟨ht, hb, hty⟩ hr => ?_, fun ⟨ht, hb, hty⟩ hr he => ?_,
    fun k r i hd hsafe hrack hk hf honce hin hfresh hfirst hothers => ?_, fun ⟨ht, hb, hty⟩ hst => ?_, fun ⟨ht, hb, hty⟩ hst => ?_,
    fun ⟨ht, hb, hty⟩ h => ?_, fun ⟨ht, hb, hty⟩ h hr => ?_, fun ⟨ht, hb, hty⟩ h hr => ?_, fun ht => ⟨?_, ?_⟩, fun ht hb => ?_, fun ht hb hst => ?_,
    fun ht hb hst => ?_, fun ht hb => ?_, fun ht hb hst => ?_, fun ht hb hst hw hf => ?_, fun ht hb hst hw hno => ?_, fun ht hb hst hw hf => ?_,
    fun y ht hb hst hw hf hy => ?_⟩
  · exact acts_intro hscan rfl (timeSend_idle (s := s.clear) ps h)
  · exact acts_intro hscan rfl ((timeSend_sends (s := s.clear) ps h).trans (twinSend_none _ _ hl))
  · exact acts_intro hscan rfl (timeSend_leaves ps h hl)
  · intro r hr
    simp only [List.mem_cons, List.not_mem_nil, or_false] at hr
    rcases hr with rfl | rfl | rfl
    · exact acts_twinFrame hscan rfl (show _ = s.clear.timeFrame lane bs ps from rfl)
    · exact acts_twinFrame hscan rfl (show _ = s.clear.clientFrame lane bs from rfl)
    · exact acts_twinFrame hscan rfl (show _ = s.clear.resyncFrame lane bs from rfl)
  · exact acts_intro hscan rfl (timeFrame_absent (s := s.clear) ht hb hty hr)
  · refine acts_intro hscan rfl ?_
    obtain ⟨honly, hrest⟩ := timeFrame_measures (s := s.clear) (ps := ps) ht hb rfl hty hr he
    exact ⟨hclear rfl honly, hrest⟩
  · have hone : OneToCheck s k c i r := ⟨hrack, honce, hin, hfresh, hfirst, hothers⟩
    dsimp only
    split
    · next hbad => exact twinSettle_fails hone hd hk hf hsafe hbad
    · next hgood => exact twinSettle_passes hone hd hk hf hgood
  · exact acts_intro hscan rfl (clientFrame_ignored (s := s.clear) ht hb hty fun h => hst ((takesStream_iff _).mp h))
  · refine acts_intro hscan rfl ?_
    obtain ⟨honly, htwin, hothers, himage, hself⟩ := clientFrame_holds (s := s.clear) ht hb rfl hty ((takesStream_iff _).mpr hst)
    exact ⟨hclear rfl honly, htwin, hothers, himage.trans (counted_image s _ rfl), hself⟩
  · exact acts_intro hscan rfl (resyncFrame_ignored (s := s.clear) ht hb hty h)
  · exact acts_intro hscan rfl (resyncFrame_absent (s := s.clear) ht hb hty h hr)
  · refine acts_intro hscan rfl ?_
    obtain ⟨hanswered, hkeeps, hcount⟩ := resyncFrame_answered (s := s.clear) ht hb rfl hty h hr
    refine ⟨hclear rfl hanswered.only, hkeeps, hcount, hanswered.ring, hanswered.next, hanswered.noted, hanswered.others, hanswered.vseq,
      fun k hk => ?_, fun hw e he => ?_⟩
    · obtain ⟨_, hout, l, b, rfl, hpart⟩ := hanswered.parts k hk
      exact ⟨l, b, hout, hpart⟩
    · obtain ⟨_, hout, l, b, rfl, hentry⟩ := hanswered.clients hw e he
      exact ⟨l, b, hout, hentry⟩
  · exact acts_intro hscan rfl (jourFrame_untaken ht)
  · exact acts_intro hscan rfl (vintFrame_untaken ht)
  · exact acts_intro hscan rfl (jourFrame_bad ht hb)
  · exact acts_intro hscan rfl (jourFrame_ignored (s := s.clear) ht hb fun h => hst ((takesStream_iff _).mp h))
  · refine acts_intro hscan rfl ?_
    obtain ⟨honly, htwin, himage, hseq⟩ := jourFrame_holds (s := s.clear) ht ((takesStream_iff _).mpr hst) hb
    rw [hadd] at htwin
    exact ⟨hclear rfl honly, htwin, himage.trans (counted_image s _ rfl), hseq⟩
  · exact acts_intro hscan rfl (vintFrame_bad ht hb)
  · exact acts_intro hscan rfl (vintFrame_ignored (s := s.clear) ht hb fun h => hst ((takesStream_iff _).mp h))
  · exact hputs ht hb hst (rxVint_part hw hf)
  · rcases hw with hw | ⟨y, hw, hne⟩
    · exact hputs ht hb hst (rxVint_stray hw fun hf => hno ⟨hw, hf⟩)
    · exact hputs ht hb hst (rxVint_broken hw fun h => hne h.2)
  · obtain ⟨y, hw⟩ := Option.ne_none_iff_exists'.mp hw
    exact hputs ht hb hst (rxVint_broken hw fun h => hf h.1)
  · exact hputs ht hb hst (rxVint_whole hw hf hy)

end Sys2Proof
end
